-- ==== Sys2Proof/Word.lean ====
section
/-! DEFINITION. The word types of the package and their plainest arithmetic. -/

namespace Sys2Proof

/-- A byte of memory, of a table or of a message. -/
abbrev Byte := BitVec 8

/-- A 64-bit register value, virtual address or counter. -/
abbrev W64 := BitVec 64

/-- A 32-bit value. -/
abbrev W32 := BitVec 32

/-- `hi:lo` bits of a natural number, as spec 00 writes bit ranges. -/
def bitsOf (n hi lo : Nat) : Nat := (n >>> lo) % 2 ^ (hi + 1 - lo)

/-- One bit of a natural number. -/
def bitAt (n i : Nat) : Bool := (n >>> i) % 2 == 1

/-- Upward division. -/
def ceilDiv (a b : Nat) : Nat := (a + b - 1) / b

end Sys2Proof
end

