-- ==== Sys2Proof/Syntax.lean ====
section
/-! DEFINITION. The commands the package takes: one constructor of `Instr` per row of spec/opcode_table.json, in the table's
order, with the operands that the row's rule names (the table gives no operand fields; assumption log 1). -/

namespace Sys2Proof

/-- Thread kinds (R21, Table 2.1), in the order of their codes. -/
inductive TKind where
  | grove | near | control
  deriving DecidableEq, Repr

/-- A hardware thread: its kind and its number within the kind (R21). -/
structure Tid where
  kind : TKind
  num : Nat
  deriving DecidableEq, Repr

/-- Who makes a register or mailbox access (R436): host software, the board management controller, a control thread at
supervisor level, or a job thread. -/
inductive Agent where
  | host | bmc | super | job
  deriving DecidableEq, Repr

/-- Widths of a thread's memory access in bytes (R41, Table 3.6). -/
inductive MemW where
  | w1 | w2 | w4 | w8
  deriving DecidableEq, Repr

/-- Formats of the scalar floating-point instructions (Table 4.8): d, s, h. -/
inductive FW where
  | d | s | h
  deriving DecidableEq, Repr

/-- Integer atomic operations (Table 8.3), in the order of AOP (Table 11.5). -/
inductive AmoOp where
  | add | and | or | xor | min | max | minu | maxu | swap
  deriving DecidableEq, Repr

/-- Atomic operations as a packet's AOP names them (Table 11.5). -/
inductive PktAmo where
  | int (op : AmoOp) | cas | fadd | fmin | fmax
  deriving DecidableEq, Repr

/-- A general register number (R48). -/
abbrev Reg := Fin 32

/-- A Gnolink packet as it arrives (Table 11.5): its header but CMD, its payload, and its trailer. `src` is SRC_PKG: of a response,
the package that made the request. -/
structure Packet where
  flagged : Bool
  len : Nat
  src : Nat
  job : Nat
  addr : W64
  tag : Nat
  cause : Nat
  aop : Nat
  aw : Nat
  data : List Byte
  e2e : W32
  deriving DecidableEq, Repr

/-- A Hazel packet on VC2 (R295 to R298): a child subtree's contribution, or the result coming down the tree; its destination. -/
structure HzPacket where
  dst : Nat
  gid : Nat
  boundary : Bool
  seq : Nat
  job : Nat
  /-- `some r`: from the child of rank `r`; `none`: the parent's result. -/
  child : Option Nat
  ops : List Nat
  nval : Nat
  ktop : Nat
  gkey : W64
  vals : List W64
  /-- A cause of Table 12.7 when the sender's subtree or the tree failed. -/
  err : Option Nat
  /-- The end-to-end CRC of the packet holds (R304). -/
  crcOk : Bool
  deriving DecidableEq, Repr

/-- The link whose transfer fails its CRC (R169). -/
inductive CrcLink where
  | stackIf (stack : Fin 8)
  | bridge (dir : Fin 2)
  deriving DecidableEq, Repr

/-- A unit with a self-test in rotation (R427). -/
inductive TestUnit where
  | groveT (g : Fin 256)
  | stackT (st : Fin 8)
  | coreT (c : Fin 48)
  deriving DecidableEq, Repr

/-- A unit that Idle gates (R379). -/
inductive GatedUnit where
  | groveU (g : Fin 256)
  | solverU (q : Fin 64)
  | nearU (st : Fin 8)
  deriving DecidableEq, Repr

/-- A register that debug reaches beside the integer ones (R410): floating-point, a lane of 64 bits of a vector register, half of a
lane mask, the pc. -/
inductive DbgReg where
  | f (r : Reg)
  | v (r : Reg) (lane : Fin 16)
  | k (r : Fin 8) (half : Fin 2)
  | pc
  deriving DecidableEq, Repr

/-- What a debug access does (R410). -/
inductive DbgOp where
  | halt (t : Tid)
  | resume (t : Tid)
  | singleStep (t : Tid)
  /-- A breakpoint at an address of a thread set, or removed. -/
  | breakpoint (t : Tid) (pc : W64) (on : Bool)
  | readOther (t : Tid) (r : DbgReg)
  | writeOther (t : Tid) (r : DbgReg) (v : W64)
  | readReg (t : Tid) (r : Reg)
  | writeReg (t : Tid) (r : Reg) (v : W64)
  | readMem (lpa len : Nat)
  | writeMem (lpa : Nat) (data : List Byte)
  | readTrace
  deriving DecidableEq, Repr

/-- What the hardware finds in a boot stage (R390 to R393, R449, R352): at BS0 persistent registers with one and with both copies bad;
at BS4 pseudo-channels (stack × 64 + number) and lanes (that × 16 + lane) that fail training; at BS7 the rate code of Table 15.10,
the width and the flit mode; at BS8 the physical groves of each A die that fail their test. -/
structure BootEnv where
  bad : List Nat
  lost : List Nat
  failedPcs : List Nat
  badLanes : List Nat
  rate : Nat
  width : Nat
  loFlit : Bool
  failed0 : List Nat
  failed1 : List Nat
  deriving DecidableEq, Repr

/-- How the action of a boot stage ends (R390, R391). -/
inductive BootOutcome where
  | passed (env : BootEnv)
  | failed (cause : Nat)
  deriving DecidableEq, Repr

/-- Part of a firmware image that the ROM and the security firmware read (Table 17.2): the header fields of one component, and
whether the payload and the Noriskys signature verify. -/
structure Image where
  comp : Nat
  lc : Nat
  svn : Nat
  ownSig : Bool
  reservedZero : Bool
  digest : List Byte
  digestOk : Bool
  noriskysOk : Bool
  ownerKeyDigest : List Byte
  ownerOk : Bool
  deriving DecidableEq, Repr

/-- The commands, operations and events of spec/opcode_table.json. Rows without operands stand together near the end: Lean compiles terms of
a constructor with arguments among the first 245 only. -/
inductive Instr where
  -- registers and the persistent store
  | registerWrite (ag : Agent) (page off width : Nat) (val : W64)
  | timeCounterLowRead (ag : Agent) (page : Nat) (sat : Bool)
  | blkVerselWrite (ag : Agent) (page : Nat) (val : W32)
  | blkCtlLock (ag : Agent) (page : Nat) (width : Nat) (val : W64)
  | blkErrinjWrite (ag : Agent) (page : Nat) (val : W32)
  | errorInjectionActs (page : Nat)
  | stackErrinjWrite (ag : Agent) (stack : Fin 8) (val : W32)
  | persistentWrite (ag : Agent) (idx : Fin 4) (val : W32)
  -- the step boundary
  | stepmark (t : Tid)
  | equinoxVoteResult (err : Option Nat) (f pmin pmax vmin vmax n : W64)
  | equinoxCountResult (err : Option Nat) (cmin cmax srcMin srcMax : W64)
  | equinoxRepair (order : List Nat) (limit : Nat) (failed : Bool)
  | equinoxRepairBarrier (failed : Bool)
  | epochApplyTimeout (late : Nat)
  | epochAgreementResult (err : Option Nat) (flagMin epMin epMax : W64)
  | solsticePollResult (err : Option Nat) (v0 v1 v2 v3 v4 : W64)
  -- threads, memory, ordering
  | launch (t : Tid) (a : Reg)
  | threadStart (id idx num : Nat)
  | ld (t : Tid) (w : MemW) (d a : Reg) (imm : Byte) (ord : Fin 8)
  | st (t : Tid) (w : MemW) (d a : Reg) (imm : Byte) (ord : Fin 8)
  | amoOp (t : Tid) (op : AmoOp) (w : MemW) (d a b : Reg) (ord : Fin 8)
  | amoCas (t : Tid) (w : MemW) (d a b : Reg) (ord : Fin 8)
  | amoFadd (t : Tid) (w : MemW) (d a b : Reg) (ord : Fin 8)
  | amoFmin (t : Tid) (w : MemW) (d a b : Reg) (ord : Fin 8)
  | amoFmax (t : Tid) (w : MemW) (d a b : Reg) (ord : Fin 8)
  | gather (t : Tid) (w : MemW) (d a b : Reg)
  | scatter (t : Tid) (w : MemW) (d a b : Reg)
  | fenceAcq (t : Tid)
  | fenceRel (t : Tid)
  | fenceFull (t : Tid)
  | texit (t : Tid)
  | tstop (t : Tid) (a : Reg)
  | tresume (t : Tid) (a : Reg)
  | tend (t : Tid) (a : Reg)
  | tsave (t : Tid) (a d : Reg)
  | trestore (t : Tid) (a d : Reg)
  | fret (t : Tid)
  | tlbinv (t : Tid) (a : Reg)
  | lwatch (t : Tid) (a : Reg)
  | lwait (t : Tid) (d a : Reg)
  | lwaitTimeout (t : Tid)
  | srd (t : Tid) (d : Reg) (n : BitVec 16)
  | swr (t : Tid) (a : Reg) (n : BitVec 16)
  | rngU (t : Tid) (d : Reg)
  | waitConditionMet (t : Tid)
  -- vectors
  | vectorPowerDown (core : Fin 48)
  | vectorWakeDone (core : Fin 48)
  | vecCtlHold (ag : Agent) (core : Fin 48) (hold : Bool)
  | vlen (t : Tid) (w : MemW) (d : Reg)
  | ktail (t : Tid) (w : MemW) (k : Fin 8) (a b : Reg)
  | vlds (t : Tid) (n : Nat) (w : MemW) (d a : Reg) (k : Fin 8) (fill : Bool)
  | vsts (t : Tid) (n : Nat) (w : MemW) (d a : Reg) (k : Fin 8)
  | vfredO (t : Tid) (f : FW) (rm : Fin 8) (d a b : Reg) (k : Fin 8)
  | vfredT (t : Tid) (f : FW) (rm : Fin 8) (d b : Reg) (k : Fin 8)
  -- scalar floating point
  | fadd (t : Tid) (f : FW) (rm : Fin 8) (d a b : Reg)
  | fsub (t : Tid) (f : FW) (rm : Fin 8) (d a b : Reg)
  | fmul (t : Tid) (f : FW) (rm : Fin 8) (d a b : Reg)
  | fdiv (t : Tid) (f : FW) (rm : Fin 8) (d a b : Reg)
  | fsqrt (t : Tid) (f : FW) (rm : Fin 8) (d a b : Reg)
  | fmin (t : Tid) (f : FW) (rm : Fin 8) (d a b : Reg)
  | fmax (t : Tid) (f : FW) (rm : Fin 8) (d a b : Reg)
  | frnd (t : Tid) (f : FW) (rm : Fin 8) (d a : Reg)
  | fneg (t : Tid) (f : FW) (rm : Fin 8) (d a : Reg)
  | fabs (t : Tid) (f : FW) (rm : Fin 8) (d a : Reg)
  | fcpsgn (t : Tid) (f : FW) (rm : Fin 8) (d a b : Reg)
  | frem (t : Tid) (f : FW) (rm : Fin 8) (d a b : Reg)
  | fscaleb (t : Tid) (f : FW) (rm : Fin 8) (d a b : Reg)
  | flogb (t : Tid) (f : FW) (rm : Fin 8) (d a : Reg)
  | fnextup (t : Tid) (f : FW) (rm : Fin 8) (d a : Reg)
  | fnextdn (t : Tid) (f : FW) (rm : Fin 8) (d a : Reg)
  | fma (t : Tid) (f : FW) (variant : Fin 4) (rm : Fin 8) (d a b c : Reg)
  | fcmp (t : Tid) (f : FW) (pred : Fin 32) (d a b : Reg)
  | fclass (t : Tid) (f : FW) (d a : Reg)
  | fcvt (t : Tid) (src tgt : Fin 32) (rm : Fin 8) (sat : Bool) (d a : Reg)
  -- the matrix engine
  | mepi (t : Tid) (a : Reg)
  | msarea (t : Tid) (a : Reg)
  | mzero (t : Tid) (tile : Fin 2)
  | mstat (t : Tid) (d : Reg) (clr : Bool)
  | mwait (t : Tid) (d : Reg)
  | mma (t : Tid) (tile : Fin 2) (d a b : Reg)
  | mmaExecute (g : Fin 256)
  | mdrain (t : Tid) (tile : Fin 2) (a : Reg)
  | drainStart (g : Fin 256) (tile : Fin 2)
  | drainComplete (g : Fin 256) (tile : Fin 2)
  -- the element-wise engine
  | etld (t : Tid) (w : MemW) (d a b : Reg)
  | etst (t : Tid) (w : MemW) (d a b : Reg)
  | ecprst (t : Tid) (w : MemW) (d a b : Reg) (m : Fin 16)
  | expdld (t : Tid) (w : MemW) (d a b : Reg) (m : Fin 16)
  | eFunc (t : Tid) (func : Fin 32) (rm fmt : Fin 8) (d a b : Reg)
  | ered (t : Tid) (axis : Fin 2) (op fmt : Fin 8) (d a : Reg)
  | esum (t : Tid) (kind fmt : Fin 8) (d a : Reg)
  | ecmp (t : Tid) (pred : Fin 32) (fmt : Fin 8) (d a b : Reg)
  | ecpr (t : Tid) (fmt : Fin 8) (d a b : Reg)
  | expd (t : Tid) (fmt : Fin 8) (d a b : Reg)
  | eprog (t : Tid) (a : Reg)
  | erun (t : Tid) (a : Reg)
  | ecvt (t : Tid) (d a b : Reg)
  | esrd (t : Tid) (d : Reg) (slot : Fin 8)
  | estat (t : Tid) (d : Reg) (clr : Bool)
  | ewait (t : Tid) (d : Reg)
  | esarea (t : Tid) (a : Reg)
  | eshape (t : Tid) (a : Reg)
  | ewSplitWrite (ag : Agent) (g : Fin 256) (val : Fin 4)
  | ewSplitApply (g : Fin 256)
  -- stacks: protection, repair, temperature
  | scrubRead (st : Fin 8) (upset : List Nat) (inner : Fin 3)
  | repairStart (st : Fin 8)
  | laneRepairComplete (st : Fin 8) (ok : Bool)
  | rowRepairComplete (st : Fin 8)
  | interfaceCrcFail (link : CrcLink) (line : Nat) (replays : Nat)
  | tempSample (st : Fin 8) (temp : Option (BitVec 12))
  | thermalStopTimeout (st : Fin 8)
  | tempPeakClr (ag : Agent) (st : Fin 8)
  | combinerApply (st : Fin 8) (line : Nat)
  | combPeakClr (ag : Agent) (st : Fin 8)
  -- views and the copy engine
  | viewRegister (ag : Agent) (idx : Fin 1024)
  | viewDeregister (ag : Agent) (idx : Fin 1024)
  | copyRingProd (st : Fin 8)
  | copyDescriptor (st : Fin 8)
  | copyDescriptorDone (st : Fin 8)
  | copyRingEnable (ag : Agent) (st : Fin 8)
  -- the batched solver
  | solverRingProd (q : Fin 64)
  | solverJobStart (q : Fin 64)
  | solverSystemEnd (q : Fin 64)
  | solverDeadline (q : Fin 64)
  | solverJobEnd (q : Fin 64)
  | solverRingEnable (ag : Agent) (q : Fin 64)
  -- models
  | modelRegister (ag : Agent) (m : Fin 4096)
  | modelRegisterDone (m : Fin 4096)
  | modelDeregister (ag : Agent) (m : Fin 4096)
  | msel (t : Tid) (d a b : Reg)
  | mhint (t : Tid) (a : Reg)
  | mupdate (t : Tid) (a b : Reg)
  | updatePassDone (m : Fin 4096)
  | mexport (t : Tid) (a d : Reg)
  | backgroundCheck (m : Fin 4096)
  -- the link layer
  | flitReceive (p : Fin 16) (bytes : List Byte) (fec : Option Nat)
  | nak (p : Fin 16) (seq : BitVec 16)
  | ackTimeout (p : Fin 16)
  | rekey (p : Fin 16) (tx : Bool)
  -- remote requests and responses
  | rd (port : Fin 16) (pkt : Packet)
  | wr (port : Fin 16) (pkt : Packet)
  | amo (port : Fin 16) (pkt : Packet)
  | cadd (port : Fin 16) (pkt : Packet)
  | rdr (port : Fin 16) (pkt : Packet) (data : List Byte)
  | ack (port : Fin 16) (pkt : Packet)
  | nakResponse (port : Fin 16) (pkt : Packet)
  | hold (arrival : Fin 16 × Packet)
  | holdSend (id : Nat)
  | remoteTimeout (tag : Nat) (held : Bool)
  | remoteStoreRefusal (t : Tid)
  | flaggedStoreSend (id : Nat)
  | routeTableWrite (ag : Agent) (pkg : Nat) (val : W32)
  -- ports
  | portEnable (ag : Agent) (p : Fin 16)
  | portDisable (ag : Agent) (p : Fin 16)
  | portRetrain (ag : Agent) (p : Fin 16)
  | portTrainingDone (p : Fin 16) (v2 : Bool) (lanes : BitVec 4) (peer : BitVec 16) (enc : Bool)
  | portTrainingFail (p : Fin 16) (encMismatch kxFail : Bool)
  | portLossOfSignal (p : Fin 16)
  -- windows, copies and counters
  | wreg (t : Tid) (d a : Reg)
  | wdereg (t : Tid) (a : Reg)
  | acopy (t : Tid) (a : Reg)
  | acopyWritesDone (id : Nat)
  | acopyComplete (id : Nat)
  | acntAlloc (t : Tid) (d : Reg)
  | acntFree (t : Tid) (a : Reg)
  | acntWait (t : Tid) (d a b : Reg)
  | acntSet (t : Tid) (a b : Reg)
  | ctxPeakClr (ag : Agent)
  -- groups, Hazel, Canopy
  | gcreate (t : Tid) (d a : Reg)
  | gdestroy (t : Tid) (d a : Reg)
  | hzred (t : Tid) (a : Reg)
  | hazelPacket (pkt : HzPacket)
  | hazelWarn (gid : Nat) (boundary : Bool) (seq child : Nat)
  | hazelAbort (gid : Nat) (boundary : Bool) (cause : Nat)
  | canopyStart (ag : Agent)
  | canopyJoin (ag : Agent)
  | canopyCancel (ag : Agent)
  | canopyChunkPacket (mkey : W64) (chunk off : Nat) (data : List Byte)
  | canopyFailureReport (relay : Nat)
  | canopyDone (member : Nat)
  -- epochs and snapshots
  | epochArm (ag : Agent)
  | epochCancel (ag : Agent)
  | snapshotRequest (ag : Agent)
  | preemptionMessage (src : Nat)
  | preEmpt (ag : Agent)
  | shardDrain (progFail : Bool)
  | snapshotCancel (ag : Agent)
  | snapshotRelease (ag : Agent)
  | restore (ag : Agent) (err : Option Nat) (committedMin committedMax genMin genMax : W64)
  | restoreComplete (peers : Option (List (W64 × List Byte)))
  -- the host
  | hostMemRead (dpa len : Nat) (own : Bool)
  | hostMemWrite (dpa : Nat) (data : List Byte) (poison : Bool)
  | hostMemTimeout (id : Nat)
  | biTimeout (line : Nat)
  | hostSnoop (hpa : Nat)
  | hostRingEnable (ag : Agent)
  | getEventRecords (ag : Agent) (log : Fin 4)
  | clearEventRecords (ag : Agent) (log : Fin 4) (handles : Option (List Nat))
  | getEventInterruptPolicy (ag : Agent)
  | setEventInterruptPolicy (ag : Agent) (info warn fail fatal : Nat)
  | getFwInfo (ag : Agent)
  | transferFw (ag : Agent) (slot : Fin 2) (image : Image)
  | activateFw (ag : Agent) (slot : Fin 2) (online : Bool)
  | getTimestamp (ag : Agent)
  | setTimestamp (ag : Agent) (val : W64)
  | getSupportedLogs (ag : Agent)
  | getLog (ag : Agent)
  | identifyMemoryDevice (ag : Agent)
  | getHealthInfo (ag : Agent)
  | unsupportedCommand (ag : Agent) (opcode : BitVec 16)
  | getPackageInfo (ag : Agent)
  | jobStart (ag : Agent) (job : BitVec 16) (root : W64)
  | jobEnd (ag : Agent) (job : BitVec 16)
  | registerWindow (ag : Agent) (req : List Byte)
  | deregisterWindow (ag : Agent) (idx : Nat)
  | getRepairRecord (ag : Agent) (stack : Fin 8) (first : Nat)
  | formatSnapshotStore (ag : Agent)
  | getFaultLog (ag : Agent) (p : Nat)
  -- security
  | getChallenge (ag : Agent)
  | submitRecord (ag : Agent) (off : Nat) (last : Bool) (data : List Byte)
  | lockDebug (ag : Agent)
  | getSecurityState (ag : Agent)
  | debugAccess (tap : Bool) (op : DbgOp)
  | spdmGetMeasurements (ag : Agent)
  | spdmKeyExchange (ag : Agent)
  | readRegister (page off width : Nat)
  | writeRegister (page off width : Nat) (val : W64)
  | sealBlob (ag : Agent) (label : List Byte) (data : List Byte)
  | unsealBlob (ag : Agent) (blob : List Byte)
  -- power, boot and pins
  | bootStage (outcome : BootOutcome)
  | clrFail (ag : Agent)
  | idleWakeDone (u : GatedUnit)
  | retReq (ag : Agent)
  | retExit (ag : Agent)
  | capWWrite (ag : Agent) (val : W32)
  | capSample (power : Nat)
  | dieTempSample (die : Fin 4) (temp : BitVec 8)
  | inputRangeChange (volts : Nat)
  | protectivePowerDown (code : Nat) (held : Bool)
  | preemptN (coalesced : Bool)
  | safeStopN (coalesced : Bool)
  | selfTestPass (u : TestUnit) (ok : Bool) (unit : Nat)
  | faultClr (ag : Agent)
  | injEnWrite (ag : Agent) (val : Bool)
  -- the host's address decoder
  | hdmDecoderCommit (base size : Nat)
  -- events without operands
  | persistentCommitDone
  | equinoxVote
  | epochApply
  | epochApplied
  | solsticePoll
  | releaseStep
  | faultNoticeWrite
  | canopyKeepalive
  | canopyParentTimeout
  | canopyGo
  | canopyAbandon
  | snapshotUnitCopy
  | stallLimit
  | snapshotCommit
  | cxlLinkDown
  | ideIntegrityFailure
  | hotReset
  | cxlReset
  | hostRingProd
  | ringMark
  | backgroundCommandDone
  | mgmtFwRunning
  | mgmtFwActivationTimeout
  | nonceExpiry
  | debugSessionExpiry
  | pwrGoodAssert
  | coldStart
  | pwrGoodDeassert
  | perstAssert
  | perstDeassert
  | bootStageTimeout
  | bootRestart
  | idleEntry
  | trstN
  | inputStuck
  | sysRefclkLoss
  | glRefclkLoss
  | cxlRefclkLoss
  | lockstepMismatch
  | cxlIdeKeyManagement
  -- service of groves, messages between members, monitors
  | voltageMonitorTrip (unit : Nat)
  | selfTestForce (u : TestUnit)
  | groveOutReq (ag : Agent) (g : Fin 256)
  | groveReturn (ag : Agent) (g : Fin 256)
  | groveSvcDrained (g : Fin 256)
  | groveMarginTestDone (g : Fin 256) (rotationOk marginOk : Bool)
  | shardDigestRequest (requester : Nat) (tensor : W64)
  | canopyChunkRequest (member chunk : Nat)
  | canopyReparent (member newParent firstChunk : Nat)
  | canopyJoinReceived (member : Nat)
  | clockMonitorTrip (unit : Nat)
  deriving DecidableEq, Repr

end Sys2Proof
end

