-- ==== Sys2Proof/Decode.lean ====
section
/-! DEFINITION. The command a word of spec/opcode_table.json spells: the table gives bits to no row, so no word spells a command. And
the thread instructions that 32-bit words spell by the encodings the spec gives (R53, R54, R96, R121, R145, R257, R312, Table 11.12). -/

namespace Sys2Proof

/-- The command that `nbits` bits `w` spell by the table: none, since no row of the table has bits. -/
def decodeTableWord (_nbits _w : Nat) : Option Instr := none

/-! ### Words of thread instructions -/

/-- What a word is: an instruction; one that raises ILLEGAL_INSN; one in a group whose codes the spec does not give (log 125). -/
inductive Dec where
  | insn (i : Instr)
  | illegal
  | notGiven
  deriving DecidableEq, Repr

/-- OP, bits 31 to 26 (Table 3.3). -/
def wOp (w : W32) : Nat := (w.extractLsb' 26 6).toNat
/-- D, bits 25 to 21. -/
def wD (w : W32) : Reg := (w.extractLsb' 21 5).toFin
/-- A, bits 20 to 16. -/
def wA (w : W32) : Reg := (w.extractLsb' 16 5).toFin
/-- B, bits 15 to 11. -/
def wB (w : W32) : Reg := (w.extractLsb' 11 5).toFin
/-- `n` bits of FN from bit `lo`. -/
def wFn (w : W32) (lo n : Nat) : BitVec n := w.extractLsb' lo n
/-- Bits of FN that must be zero are zero. -/
def wZero (w : W32) (mask : Nat) : Bool := w.toNat % 2 ^ 11 &&& mask == 0

/-- An instruction, if its reserved bits are zero (R53: every other encoding is unassigned). -/
def Dec.only (ok : Bool) (i : Instr) : Dec := if ok then .insn i else .illegal

/-- The width that a code 0 to 3 selects in OP 0x34 (R145). -/
def ewWidth (c : BitVec 2) : MemW :=
  match c.toNat with
  | 0 => .w8
  | 1 => .w4
  | 2 => .w2
  | _ => .w1

/-- The format of OP 0x10 to 0x12 and 0x13 to 0x15, and of the width field of FCMP. -/
def fpFormat : Nat → FW
  | 0 => .d
  | 1 => .s
  | _ => .h

/-- Format S (R53): a function without a B operand has zero there. -/
def decodeS (t : Tid) (w : W32) : Dec :=
  let noB := Dec.only (wB w == 0)
  match (wFn w 0 11).toNat with
  | 0x001 => noB (.fenceAcq t)
  | 0x002 => noB (.fenceRel t)
  | 0x003 => noB (.fenceFull t)
  | 0x010 => noB (.stepmark t)
  | 0x020 => noB (.launch t (wA w))
  | 0x021 => noB (.texit t)
  | 0x022 => noB (.tstop t (wA w))
  | 0x023 => noB (.tresume t (wA w))
  | 0x024 => noB (.tend t (wA w))
  | 0x025 => noB (.tsave t (wA w) (wD w))
  | 0x026 => noB (.trestore t (wA w) (wD w))
  | 0x027 => noB (.fret t)
  | 0x030 => noB (.tlbinv t (wA w))
  | 0x040 => noB (.lwatch t (wA w))
  | 0x041 => noB (.lwait t (wD w) (wA w))
  | 0x050 => .insn (.msel t (wD w) (wA w) (wB w))
  | 0x051 => noB (.mhint t (wA w))
  | 0x052 => .insn (.mupdate t (wA w) (wB w))
  | 0x053 => noB (.mexport t (wA w) (wD w))
  | 0x060 => noB (.wreg t (wD w) (wA w))
  | 0x061 => noB (.wdereg t (wA w))
  | 0x070 => noB (.hzred t (wA w))
  | 0x071 => noB (.gcreate t (wD w) (wA w))
  | 0x072 => noB (.gdestroy t (wD w) (wA w))
  | _ => .illegal

/-- OP 0x10 to 0x12 (Table 4.8): FN[10:6] is FUNC, FN[5:3] RM, FN[2:0] reserved. -/
def decodeFp (t : Tid) (f : FW) (w : W32) : Dec :=
  let rm : Fin 8 := (wFn w 3 3).toFin
  let d := wD w
  let a := wA w
  let b := wB w
  if !wZero w 0x007 then .illegal
  else match (wFn w 6 5).toNat with
    | 0 => .insn (.fadd t f rm d a b)
    | 1 => .insn (.fsub t f rm d a b)
    | 2 => .insn (.fmul t f rm d a b)
    | 3 => .insn (.fdiv t f rm d a b)
    | 4 => .insn (.fsqrt t f rm d a b)
    | 5 => .insn (.fmin t f rm d a b)
    | 6 => .insn (.fmax t f rm d a b)
    | 7 => .insn (.frnd t f rm d a)
    | 8 => .insn (.fneg t f rm d a)
    | 9 => .insn (.fabs t f rm d a)
    | 10 => .insn (.fcpsgn t f rm d a b)
    | 11 => .insn (.frem t f rm d a b)
    | 12 => .insn (.fscaleb t f rm d a b)
    | 13 => .insn (.flogb t f rm d a)
    | 14 => .insn (.fnextup t f rm d a)
    | 15 => .insn (.fnextdn t f rm d a)
    | _ => .illegal

/-- FMA (R96): FN[10:6] names C, FN[5:3] is RM, FN[1:0] the variant, FN[2] reserved. -/
def decodeFma (t : Tid) (f : FW) (w : W32) : Dec :=
  Dec.only (wZero w 0x004) (.fma t f (wFn w 0 2).toFin (wFn w 3 3).toFin (wD w) (wA w) (wB w) (wFn w 6 5).toFin)

/-- FCMP and FCLASS (R96): FN[10:6] is the predicate, FN[5:4] the width, FN[3:0] reserved. -/
def decodeFcmp (t : Tid) (w : W32) : Dec :=
  let wd := (wFn w 4 2).toNat
  if wd = 3 ∨ !wZero w 0x00F then .illegal
  else if (wFn w 6 5).toNat = 0x1F then .insn (.fclass t (fpFormat wd) (wD w) (wA w))
  else .insn (.fcmp t (fpFormat wd) (wFn w 6 5).toFin (wD w) (wA w) (wB w))

/-- FCVT (Table 4.8): B is the source code, FN[10:6] the target code, FN[5:3] RM, FN[2] SAT. -/
def decodeFcvt (t : Tid) (w : W32) : Dec :=
  Dec.only (wZero w 0x003) (.fcvt t (wB w) (wFn w 6 5).toFin (wFn w 3 3).toFin (wFn w 2 1 == 1) (wD w) (wA w))

/-- OP 0x30 to 0x32 (Table 5.12). -/
def decodeMx (t : Tid) (w : W32) : Dec :=
  let tile : Fin 2 := (wFn w 0 1).toFin
  match wOp w with
  | 0x30 =>
    (match (wFn w 6 5).toNat with
     | 0 => Dec.only (wZero w 0x03F) (.mepi t (wA w))
     | 1 => Dec.only (wZero w 0x03F) (.msarea t (wA w))
     | 2 => Dec.only (wZero w 0x03E) (.mzero t tile)
     | 3 => Dec.only (wZero w 0x03E) (.mstat t (wD w) (wFn w 0 1 == 1))
     | 4 => Dec.only (wZero w 0x03F) (.mwait t (wD w))
     | _ => .illegal)
  | 0x31 => Dec.only (wZero w 0x7FE) (.mma t tile (wD w) (wA w) (wB w))
  | _ => Dec.only (wZero w 0x7FE) (.mdrain t tile (wA w))

/-- OP 0x34 (Table 6.11): tile loads and stores. -/
def decodeEwMem (t : Tid) (w : W32) : Dec :=
  let m : Fin 16 := (wFn w 2 4).toFin
  let wd := ewWidth (wFn w 6 2)
  match (wFn w 8 3).toNat with
  | 0 => Dec.only (wZero w 0x03F) (.etld t wd (wD w) (wA w) (wB w))
  | 1 => Dec.only (wZero w 0x03F) (.etst t wd (wD w) (wA w) (wB w))
  | 2 => Dec.only (wZero w 0x003) (.ecprst t wd (wD w) (wA w) (wB w) m)
  | 3 => Dec.only (wZero w 0x003) (.expdld t wd (wD w) (wA w) (wB w) m)
  | _ => .illegal

/-- OP 0x36 (Table 6.11): reductions, comparisons, compaction. -/
def decodeEwRed (t : Tid) (w : W32) : Dec :=
  let fmt : Fin 8 := (wFn w 0 3).toFin
  match (wFn w 8 3).toNat with
  | 0 => Dec.only (wZero w 0x008) (.ered t (wFn w 7 1).toFin (wFn w 4 3).toFin fmt (wD w) (wA w))
  | 1 => Dec.only (wZero w 0x018) (.esum t (wFn w 5 3).toFin fmt (wD w) (wA w))
  | 2 => .insn (.ecmp t (wFn w 3 5).toFin fmt (wD w) (wA w) (wB w))
  | 3 => Dec.only (wZero w 0x0F8) (.ecpr t fmt (wD w) (wA w) (wB w))
  | 4 => Dec.only (wZero w 0x0F8) (.expd t fmt (wD w) (wA w) (wB w))
  | _ => .illegal

/-- OP 0x37 (Table 6.11): lane programs, conversion, state. -/
def decodeEwSys (t : Tid) (w : W32) : Dec :=
  match (wFn w 6 5).toNat with
  | 0 => Dec.only (wZero w 0x03F) (.eprog t (wA w))
  | 1 => Dec.only (wZero w 0x03F) (.erun t (wA w))
  | 2 => Dec.only (wZero w 0x03F) (.ecvt t (wD w) (wA w) (wB w))
  | 3 => Dec.only (wZero w 0x038) (.esrd t (wD w) (wFn w 0 3).toFin)
  | 4 => Dec.only (wZero w 0x03E) (.estat t (wD w) (wFn w 0 1 == 1))
  | 5 => Dec.only (wZero w 0x03F) (.ewait t (wD w))
  | 6 => Dec.only (wZero w 0x03F) (.esarea t (wA w))
  | 7 => Dec.only (wZero w 0x03F) (.eshape t (wA w))
  | _ => .illegal

/-- OP 0x38 (Table 11.12): FN[10:8] is the function. -/
def decodeCopy (t : Tid) (w : W32) : Dec :=
  if !wZero w 0x0FF then .illegal
  else match (wFn w 8 3).toNat with
    | 0 => .insn (.acopy t (wA w))
    | 1 => .insn (.acntAlloc t (wD w))
    | 2 => .insn (.acntFree t (wA w))
    | 3 => .insn (.acntWait t (wD w) (wA w) (wB w))
    | 4 => .insn (.acntSet t (wA w) (wB w))
    | _ => .illegal

/-- The ORD values allowed on OP 0x18 to 0x1A (R54, Table 3.5). The codes that choose width and operation are not given. -/
def decodeMem (w : W32) : Dec :=
  let ord := (wFn w 8 3).toNat
  let ok := match wOp w with
    | 0x18 => ord == 0 || ord == 1
    | 0x19 => ord == 0 || ord == 2 || ord == 4
    | _ => decide (ord ≤ 3)
  if ok then .notGiven else .illegal

/-- The instruction that a word spells for a thread (Tables 3.3, 3.4): by its OP. -/
def decodeInsn (t : Tid) (w : W32) : Dec :=
  if w = 0 then .illegal
  else match wOp w with
    | 0x07 => if wFn w 0 11 = 0x7F0 then .insn (.rngU t (wD w)) else .notGiven
    | 0x10 => decodeFp t .d w
    | 0x11 => decodeFp t .s w
    | 0x12 => decodeFp t .h w
    | 0x13 => decodeFma t .d w
    | 0x14 => decodeFma t .s w
    | 0x15 => decodeFma t .h w
    | 0x16 => decodeFcmp t w
    | 0x17 => decodeFcvt t w
    | 0x18 => decodeMem w
    | 0x19 => decodeMem w
    | 0x1A => decodeMem w
    | 0x30 => decodeMx t w
    | 0x31 => decodeMx t w
    | 0x32 => decodeMx t w
    | 0x34 => decodeEwMem t w
    | 0x35 =>
      .insn (.eFunc t (wFn w 6 5).toFin (wFn w 3 3).toFin (wFn w 0 3).toFin (wD w) (wA w) (wB w))
    | 0x36 => decodeEwRed t w
    | 0x37 => decodeEwSys t w
    | 0x38 => decodeCopy t w
    | 0x3F => decodeS t w
    | op =>
      -- integer work, branches, gathers, Algon-V and state registers have groups, and no codes within them (Table 3.4)
      if (1 ≤ op ∧ op ≤ 0x0B) ∨ op = 0x1B ∨ (0x20 ≤ op ∧ op ≤ 0x2F) ∨ op = 0x3D then .notGiven else .illegal

/-- The command that stands for a word that raises ILLEGAL_INSN: FCMP with a reserved predicate, which raises it on every core. -/
def illegalInsn (t : Tid) : Instr := .fcmp t .d 0x1E 0 0 0

end Sys2Proof
end

