-- ==== Sys2Proof/Machine/Flags.lean ====
section
/-! DEFINITION. The IEEE flags (R80, Table 3.8) and the number formats of chapter 4: format codes, decoding of a bit pattern to an
exact value, and the one rounding of every conversion and operation (R77, R78, R85, R86, R88). -/

namespace Sys2Proof.Machine

/-- FFLAGS order (R80): [4] invalid, [3] divide by zero, [2] overflow, [1] underflow, [0] inexact. -/
abbrev Flags := BitVec 5

def flNV : Flags := 0x10
def flDZ : Flags := 0x08
def flOF : Flags := 0x04
def flUF : Flags := 0x02
def flNX : Flags := 0x01

/-- Kinds of floating format: how the largest exponent is used (Table 4.2). `ieee`: infinities and NaNs; `e4m3`: one NaN, no
infinity; `finite`: neither (MX elements). -/
inductive FKind where
  | ieee | e4m3 | finite
  deriving DecidableEq, Repr

/-- A floating format: exponent bits, fraction bits, bias (Table 4.1). `nanMsb`: a NaN with fraction msb 1 is quiet; in E5M2 every
NaN is quiet. -/
structure FFmt where
  eb : Nat
  fb : Nat
  bias : Nat
  kind : FKind
  allQuiet : Bool
  deriving DecidableEq, Repr

def fmtD : FFmt := ⟨11, 52, 1023, .ieee, false⟩
def fmtS : FFmt := ⟨8, 23, 127, .ieee, false⟩
def fmtH : FFmt := ⟨5, 10, 15, .ieee, false⟩
def fmtBF16 : FFmt := ⟨8, 7, 127, .ieee, false⟩
def fmtE4M3 : FFmt := ⟨4, 3, 7, .e4m3, true⟩
def fmtE5M2 : FFmt := ⟨5, 2, 15, .ieee, true⟩
def fmtE3M2 : FFmt := ⟨3, 2, 3, .finite, true⟩
def fmtE2M3 : FFmt := ⟨2, 3, 1, .finite, true⟩
def fmtE2M1 : FFmt := ⟨2, 1, 1, .finite, true⟩

/-- Bits of a pattern, sign included. -/
def FFmt.width (f : FFmt) : Nat := 1 + f.eb + f.fb

/-- The sign bit's place value. -/
def FFmt.signBit (f : FFmt) : Nat := 2 ^ (f.eb + f.fb)

/-- The pattern of the largest finite magnitude (Table 4.2). -/
def FFmt.maxBits (f : FFmt) : Nat :=
  match f.kind with
  | .ieee => (2 ^ f.eb - 1) * 2 ^ f.fb - 1
  | .e4m3 => 2 ^ (f.eb + f.fb) - 2
  | .finite => 2 ^ (f.eb + f.fb) - 1

/-- The canonical NaN, sign clear (Table 4.2). A format without NaNs has none; its largest magnitude stands here, unused. -/
def FFmt.canonNaN (f : FFmt) : Nat :=
  match f.kind with
  | .ieee => (2 ^ f.eb - 1) * 2 ^ f.fb + 2 ^ (f.fb - 1)
  | .e4m3 => 2 ^ (f.eb + f.fb) - 1
  | .finite => 2 ^ (f.eb + f.fb) - 1

/-- Infinity's pattern, sign clear, in a format that has one. -/
def FFmt.infBits (f : FFmt) : Nat := (2 ^ f.eb - 1) * 2 ^ f.fb

/-- Exponent of the smallest normal magnitude. -/
def FFmt.emin (f : FFmt) : Int := 1 - (f.bias : Int)

/-- An exact value: a NaN with its sign, quiet bit and fraction (aligned to the top of a 52-bit field), an infinity, or
± m × 2^e. -/
inductive Num where
  | nan (neg quiet : Bool) (frac : Nat)
  | inf (neg : Bool)
  | fin (neg : Bool) (m : Nat) (e : Int)
  deriving DecidableEq, Repr

/-- The value a pattern encodes (R78). -/
def FFmt.decode (f : FFmt) (bits : Nat) : Num :=
  let b := bits % 2 ^ f.width
  let neg := decide (f.signBit ≤ b)
  let ex := (b / 2 ^ f.fb) % 2 ^ f.eb
  let fr := b % 2 ^ f.fb
  let top := decide (ex = 2 ^ f.eb - 1)
  let isNan := match f.kind with
    | .ieee => top && decide (fr ≠ 0)
    | .e4m3 => top && decide (fr = 2 ^ f.fb - 1)
    | .finite => false
  if isNan then .nan neg (f.allQuiet || decide (2 ^ (f.fb - 1) ≤ fr)) (fr * 2 ^ (52 - f.fb))
  else if top && decide (f.kind = .ieee) then .inf neg
  else if ex = 0 then .fin neg fr (f.emin - f.fb)
  else .fin neg (2 ^ f.fb + fr) (f.emin - f.fb + (ex - 1 : Nat))

/-- The sign in a pattern. -/
def FFmt.withSign (f : FFmt) (neg : Bool) (mag : Nat) : Nat := if neg then f.signBit + mag else mag

/-- A NaN result in a format: quieted, the fraction's top bits kept, sign kept (R81, Table 4.6); FP8 targets take the canonical NaN
with the sign. -/
def FFmt.encodeNaN (f : FFmt) (neg : Bool) (frac : Nat) : Nat :=
  if f.allQuiet then f.withSign neg f.canonNaN
  else f.withSign neg (f.infBits + (frac / 2 ^ (52 - f.fb)) % 2 ^ f.fb ||| 2 ^ (f.fb - 1))

/-- Rounding decision on a truncated magnitude `y` with remainder `rem` of `den`: does the mode take the next magnitude?
(Table 4.5; modes 5 and 6 by R86 with the draw `r`.) -/
def roundUp (rm : Nat) (r : Nat) (neg : Bool) (y rem den : Nat) : Bool :=
  if rem = 0 then false
  else match rm with
    | 0 => decide (den < 2 * rem) || (decide (2 * rem = den) && decide (y % 2 = 1))
    | 1 => false
    | 2 => neg
    | 3 => !neg
    | 4 => decide (den ≤ 2 * rem)
    | _ => decide (2 ^ 32 ≤ rem * 2 ^ 32 / den + r % 2 ^ 32)

/-- ⌊x / 2^k⌋ and the remainder with its denominator, for `x = m × 2^e` on the grid `2^q`. -/
def onGrid (m : Nat) (e q : Int) : Nat × Nat × Nat :=
  if q ≤ e then (m * 2 ^ (e - q).toNat, 0, 1)
  else (m / 2 ^ (q - e).toNat, m % 2 ^ (q - e).toNat, 2 ^ (q - e).toNat)

/-- The one rounding of an exact nonzero or zero magnitude into a format: pattern and flags (R79, R85, R86, Table 4.6). -/
def FFmt.roundFin (f : FFmt) (rm : Nat) (r : Nat) (sat neg : Bool) (m : Nat) (e : Int) : Nat × Flags :=
  if m = 0 then (f.withSign neg 0, 0)
  else
    let l : Int := (Nat.log2 m : Int) + e
    let q0 : Int := f.emin - f.fb
    let q : Int := if l - f.fb < q0 then q0 else l - f.fb
    let (y, rem, den) := onGrid m e q
    let y' := if roundUp rm r neg y rem den then y + 1 else y
    let mag := if y' < 2 ^ f.fb then y' else y' - 2 ^ f.fb + ((q - q0).toNat + 1) * 2 ^ f.fb
    let inexact := decide (rem ≠ 0)
    if f.maxBits < mag then
      let big := f.withSign neg f.maxBits
      let res := if sat then big else
        match f.kind with
        | .ieee =>
          match rm with
          | 1 => big
          | 2 => if neg then f.withSign neg f.infBits else big
          | 3 => if neg then big else f.withSign neg f.infBits
          | _ => f.withSign neg f.infBits
        | .e4m3 => f.withSign neg f.canonNaN
        | .finite => big
      (res, flOF ||| flNX)
    else
      -- tininess after rounding, with an unbounded exponent (R79, R86)
      let tiny := decide (l < f.emin) &&
        (let (y2, rem2, den2) := onGrid m e (l - f.fb)
         let y2' := if roundUp rm r neg y2 rem2 den2 then y2 + 1 else y2
         !(decide (l + 1 = f.emin) && decide (y2' = 2 ^ (f.fb + 1))))
      (f.withSign neg mag, (if inexact then flNX else 0) ||| (if inexact && tiny then flUF else 0))

/-- Conversion of an exact value into a floating format (R88, Table 4.6). -/
def FFmt.convert (f : FFmt) (rm : Nat) (r : Nat) (sat : Bool) (x : Num) : Nat × Flags :=
  match x with
  | .nan neg quiet frac => (f.encodeNaN neg frac, if quiet then 0 else flNV)
  | .inf neg =>
    match f.kind with
    | .ieee => (f.withSign neg f.infBits, 0)
    | .e4m3 => if sat then (f.withSign neg f.maxBits, flOF ||| flNX) else (f.withSign neg f.canonNaN, flNV)
    | .finite => (f.withSign neg f.maxBits, flOF ||| flNX)
  | .fin neg m e => f.roundFin rm r sat neg m e

/-- An exact value rounded to an integer on the unit grid: sign, magnitude, inexact. -/
def roundInt (rm : Nat) (r : Nat) (neg : Bool) (m : Nat) (e : Int) : Nat × Bool :=
  let (y, rem, den) := onGrid m e 0
  (if roundUp rm r neg y rem den then y + 1 else y, decide (rem ≠ 0))

/-- Conversion to an integer format of `w` bits (Table 4.6): NaN gives 0, out of range saturates, both invalid. -/
def toIntFmt (signed : Bool) (w : Nat) (rm : Nat) (r : Nat) (x : Num) : Int × Flags :=
  let hi : Int := if signed then 2 ^ (w - 1) - 1 else 2 ^ w - 1
  let lo : Int := if signed then -(2 ^ (w - 1)) else 0
  match x with
  | .nan _ _ _ => (0, flNV)
  | .inf neg => (if neg then lo else hi, flNV)
  | .fin neg m e =>
    let (y, nx) := roundInt rm r neg m e
    let v : Int := if neg then -(y : Int) else y
    if v < lo then (lo, flNV) else if hi < v then (hi, flNV) else (v, if nx then flNX else 0)

/-- The floating format of a format code (Table 4.1), for codes 0x00 to 0x05. -/
def codeFmt : Nat → Option FFmt
  | 0x00 => some fmtD
  | 0x01 => some fmtS
  | 0x02 => some fmtH
  | 0x03 => some fmtBF16
  | 0x04 => some fmtE4M3
  | 0x05 => some fmtE5M2
  | _ => none

/-- Sign and width of an integer format code (Table 4.1). -/
def codeInt : Nat → Option (Bool × Nat)
  | 0x0C => some (true, 8)
  | 0x0D => some (false, 8)
  | 0x0E => some (true, 4)
  | 0x0F => some (false, 4)
  | 0x10 => some (true, 32)
  | 0x11 => some (true, 64)
  | 0x12 => some (false, 32)
  | 0x13 => some (false, 64)
  | _ => none

/-- The element format of an MX block format code (Table 4.1), MXINT8 apart. -/
def codeMx : Nat → Option FFmt
  | 0x06 => some fmtE4M3
  | 0x07 => some fmtE5M2
  | 0x08 => some fmtE3M2
  | 0x09 => some fmtE2M3
  | 0x0A => some fmtE2M1
  | _ => none

/-- Table 4.2's emax of an MX block format. -/
def mxEmax : Nat → Int
  | 0x06 => 8
  | 0x07 => 15
  | 0x08 => 4
  | 0x09 => 2
  | 0x0A => 2
  | _ => 0

/-- Element bits of a format code. -/
def codeBits : Nat → Nat
  | 0x00 => 64 | 0x01 => 32 | 0x02 => 16 | 0x03 => 16 | 0x04 => 8 | 0x05 => 8 | 0x06 => 8 | 0x07 => 8
  | 0x08 => 6 | 0x09 => 6 | 0x0A => 4 | 0x0B => 8 | 0x0C => 8 | 0x0D => 8 | 0x0E => 4 | 0x0F => 4
  | 0x10 => 32 | 0x11 => 64 | 0x12 => 32 | 0x13 => 64 | 0x14 => 8 | _ => 0

/-- An MX block format (0x06 to 0x0B). -/
def isMx (c : Nat) : Bool := decide (0x06 ≤ c) && decide (c ≤ 0x0B)

/-- The two's complement reading of a `w`-bit pattern. -/
def sInt (w : Nat) (x : Nat) : Int := if 2 ^ (w - 1) ≤ x % 2 ^ w then (x % 2 ^ w : Nat) - (2 ^ w : Nat) else (x % 2 ^ w : Nat)

/-- The pattern of an integer in `w` bits. -/
def ofSInt (w : Nat) (v : Int) : Nat := (v % (2 ^ w : Nat)).toNat

/-- The exact value of an integer. -/
def numOfInt (v : Int) : Num := .fin (decide (v < 0)) v.natAbs 0

/-- The value of a pattern in a scalar format code (R89, R91 for elements); integers exactly. -/
def codeDecode (c bits : Nat) : Num :=
  match codeFmt c with
  | some f => f.decode bits
  | none =>
    match codeInt c with
    | some (true, w) => numOfInt (sInt w bits)
    | some (false, w) => .fin false (bits % 2 ^ w) 0
    | none => .fin false 0 0

/-- Conversion between two scalar format codes (R88): pattern and flags. Two integer formats saturate with no flag. -/
def codeConvert (src tgt : Nat) (rm r : Nat) (sat : Bool) (bits : Nat) : Nat × Flags :=
  let x := codeDecode src bits
  match codeFmt tgt with
  | some f => f.convert rm r sat x
  | none =>
    match codeInt tgt with
    | some (sg, w) =>
      let (v, fl) := toIntFmt sg w rm r x
      (ofSInt w v, if (codeInt src).isSome then 0 else fl)
    | none => (0, 0)

/-- mix64 (R87). -/
def mix64 (z : W64) : W64 :=
  let z := z + 0x9E3779B97F4A7C15#64
  let z := (z ^^^ (z >>> 30)) * 0xBF58476D1CE4E5B9#64
  let z := (z ^^^ (z >>> 27)) * 0x94D049BB133111EB#64
  z ^^^ (z >>> 31)

/-- sr_rand (R87). -/
def srRand (seed pos : W64) : W64 := mix64 (seed ^^^ mix64 pos)

end Sys2Proof.Machine
end

