-- ==== Sys2Proof/Machine/Arith.lean ====
section
/-! DEFINITION. IEEE 754 arithmetic on bit patterns (R79 to R84, R96): exact in integers, rounded once. Shared by the scalar paths,
the vector reductions, the element-wise engine, the matrix epilogue, the atomics at the home, the views and the solver. -/

namespace Sys2Proof.Machine

/-- Is the pattern a NaN? -/
def FFmt.isNaN (f : FFmt) (b : Nat) : Bool := match f.decode b with | .nan _ _ _ => true | _ => false

/-- Is the pattern a signalling NaN? -/
def FFmt.isSNaN (f : FFmt) (b : Nat) : Bool := match f.decode b with | .nan _ q _ => !q | _ => false

/-- The NaN result of an operation with operands `xs`, in order A, B, C, when the result is a NaN (R81). -/
def FFmt.nanOf (f : FFmt) (xs : List Nat) : Nat :=
  match xs.find? f.isNaN with
  | some b => (b % 2 ^ f.width) ||| 2 ^ (f.fb - 1)
  | none => f.canonNaN

/-- Invalid from a signalling operand (R81). -/
def FFmt.snanFlag (f : FFmt) (xs : List Nat) : Flags := if xs.any f.isSNaN then flNV else 0

/-- A NaN result caused by NaN operands. -/
def FFmt.nanRes (f : FFmt) (xs : List Nat) : Nat × Flags := (f.nanOf xs, f.snanFlag xs)

/-- A NaN result of an invalid operation on non-NaN operands. -/
def FFmt.invalidRes (f : FFmt) : Nat × Flags := (f.canonNaN, flNV)

/-- An infinity. -/
def FFmt.infRes (f : FFmt) (neg : Bool) : Nat × Flags := (f.withSign neg f.infBits, 0)

/-- Signed significand on the grid of exponent `e0 ≤ e`. -/
def toGrid (neg : Bool) (m : Nat) (e e0 : Int) : Int :=
  let v : Int := (m * 2 ^ (e - e0).toNat : Nat)
  if neg then -v else v

/-- The exact sum of two finite values: an integer and its exponent. -/
def exactAdd (n1 : Bool) (m1 : Nat) (e1 : Int) (n2 : Bool) (m2 : Nat) (e2 : Int) : Int × Int :=
  let e0 := if e1 ≤ e2 then e1 else e2
  (toGrid n1 m1 e1 e0 + toGrid n2 m2 e2 e0, e0)

/-- Rounds an exact signed value; a zero takes the sign IEEE 754 gives an exact zero sum of the mode (`zneg`). -/
def FFmt.roundInt (f : FFmt) (rm : Nat) (zneg : Bool) (v : Int) (e : Int) : Nat × Flags :=
  if v = 0 then (f.withSign zneg 0, 0) else f.roundFin rm 0 false (decide (v < 0)) v.natAbs e

/-- Sum of two values, the second with its sign flipped when `sub` (R79). -/
def FFmt.addSub (f : FFmt) (rm : Nat) (sub : Bool) (a b : Nat) : Nat × Flags :=
  match f.decode a, f.decode b with
  | .nan _ _ _, _ => f.nanRes [a, b]
  | _, .nan _ _ _ => f.nanRes [a, b]
  | .inf n1, .inf n2 => if n1 = (n2 ^^ sub) then f.infRes n1 else f.invalidRes
  | .inf n1, _ => f.infRes n1
  | _, .inf n2 => f.infRes (n2 ^^ sub)
  | .fin n1 m1 e1, .fin n2 m2 e2 =>
    let n2 := n2 ^^ sub
    let (v, e) := exactAdd n1 m1 e1 n2 m2 e2
    f.roundInt rm (if m1 = 0 && m2 = 0 && n1 = n2 then n1 else decide (rm = 2)) v e

def FFmt.add (f : FFmt) (rm : Nat) (a b : Nat) : Nat × Flags := f.addSub rm false a b
def FFmt.sub (f : FFmt) (rm : Nat) (a b : Nat) : Nat × Flags := f.addSub rm true a b

def FFmt.mul (f : FFmt) (rm : Nat) (a b : Nat) : Nat × Flags :=
  match f.decode a, f.decode b with
  | .nan _ _ _, _ => f.nanRes [a, b]
  | _, .nan _ _ _ => f.nanRes [a, b]
  | .inf n1, .inf n2 => f.infRes (n1 ^^ n2)
  | .inf n1, .fin n2 m2 _ => if m2 = 0 then f.invalidRes else f.infRes (n1 ^^ n2)
  | .fin n1 m1 _, .inf n2 => if m1 = 0 then f.invalidRes else f.infRes (n1 ^^ n2)
  | .fin n1 m1 e1, .fin n2 m2 e2 => f.roundFin rm 0 false (n1 ^^ n2) (m1 * m2) (e1 + e2)

def FFmt.div (f : FFmt) (rm : Nat) (a b : Nat) : Nat × Flags :=
  match f.decode a, f.decode b with
  | .nan _ _ _, _ => f.nanRes [a, b]
  | _, .nan _ _ _ => f.nanRes [a, b]
  | .inf _, .inf _ => f.invalidRes
  | .inf n1, .fin n2 _ _ => f.infRes (n1 ^^ n2)
  | .fin n1 _ _, .inf n2 => (f.withSign (n1 ^^ n2) 0, 0)
  | .fin n1 m1 e1, .fin n2 m2 e2 =>
    if m2 = 0 then (if m1 = 0 then f.invalidRes else ((f.infRes (n1 ^^ n2)).1, flDZ))
    else if m1 = 0 then (f.withSign (n1 ^^ n2) 0, 0)
    else
      let k := f.fb + 4 + Nat.log2 m2
      let q := m1 * 2 ^ k / m2
      let m := 2 * q + (if m1 * 2 ^ k % m2 = 0 then 0 else 1)
      f.roundFin rm 0 false (n1 ^^ n2) m (e1 - e2 - k - 1)

/-- ⌊√n⌋ by bits, from the bit `2^(i-1)` of the root down. -/
def isqrtBits (n : Nat) : Nat → Nat → Nat
  | 0, root => root
  | i + 1, root => isqrtBits n i (if (root + 2 ^ i) * (root + 2 ^ i) ≤ n then root + 2 ^ i else root)

def isqrt (n : Nat) : Nat := isqrtBits n (Nat.log2 n / 2 + 1) 0

def FFmt.sqrt (f : FFmt) (rm : Nat) (a : Nat) : Nat × Flags :=
  match f.decode a with
  | .nan _ _ _ => f.nanRes [a]
  | .inf neg => if neg then f.invalidRes else f.infRes false
  | .fin neg m e =>
    if m = 0 then (f.withSign neg 0, 0)
    else if neg then f.invalidRes
    else
      let k := 2 * f.fb + 8 + (if (e - (2 * f.fb + 8 : Nat)) % 2 = 0 then 0 else 1)
      let n := m * 2 ^ k
      let r := isqrt n
      f.roundFin rm 0 false false (2 * r + (if r * r = n then 0 else 1)) ((e - k) / 2 - 1)

/-- Fused multiply-add with the product and the addend each possibly negated (Table 4.8, R81). -/
def FFmt.fma (f : FFmt) (rm : Nat) (negP negC : Bool) (a b c : Nat) : Nat × Flags :=
  let anyNaN := f.isNaN a || f.isNaN b || f.isNaN c
  if anyNaN then f.nanRes [a, b, c]
  else
    match f.decode a, f.decode b, f.decode c with
    | .fin n1 m1 e1, .fin n2 m2 e2, .fin n3 m3 e3 =>
      let np := (n1 ^^ n2) ^^ negP
      let nc := n3 ^^ negC
      let (v, e) := exactAdd np (m1 * m2) (e1 + e2) nc m3 e3
      f.roundInt rm (if m1 * m2 = 0 && m3 = 0 && np = nc then np else decide (rm = 2)) v e
    | .fin _ _ _, .fin _ _ _, .inf n3 => f.infRes (n3 ^^ negC)
    | x, y, z =>
      -- the product is an infinity, or 0 × ∞
      let sgn : Num → Bool := fun w => match w with | .nan n _ _ => n | .inf n => n | .fin n _ _ => n
      let isZ : Num → Bool := fun w => match w with | .fin _ m _ => decide (m = 0) | _ => false
      if isZ x || isZ y then f.invalidRes
      else
        let np := (sgn x ^^ sgn y) ^^ negP
        match z with
        | .inf n3 => if np = (n3 ^^ negC) then f.infRes np else f.invalidRes
        | _ => f.infRes np

/-- Comparison of two non-NaN values. -/
def Num.cmp (x y : Num) : Ordering :=
  match x, y with
  | .inf n1, .inf n2 => if n1 = n2 then .eq else if n1 then .lt else .gt
  | .inf n1, _ => if n1 then .lt else .gt
  | _, .inf n2 => if n2 then .gt else .lt
  | .fin n1 m1 e1, .fin n2 m2 e2 =>
    let v := (exactAdd n1 m1 e1 (!n2) m2 e2).1
    if v < 0 then .lt else if v = 0 then .eq else .gt
  | _, _ => .eq

/-- The sign of a value. -/
def Num.neg : Num → Bool
  | .nan n _ _ => n
  | .inf n => n
  | .fin n _ _ => n

/-- Maximum or minimum (R82). -/
def FFmt.maxMin (f : FFmt) (isMax : Bool) (a b : Nat) : Nat × Flags :=
  if f.isNaN a || f.isNaN b then f.nanRes [a, b]
  else
    let x := f.decode a
    let y := f.decode b
    let a' := a % 2 ^ f.width
    let b' := b % 2 ^ f.width
    match x.cmp y with
    | .lt => (if isMax then b' else a', 0)
    | .gt => (if isMax then a' else b', 0)
    | .eq => (if x.neg = y.neg then a' else if isMax = x.neg then b' else a', 0)

/-- key of R84. -/
def FFmt.key (f : FFmt) (b : Nat) : Nat :=
  let b := b % 2 ^ f.width
  if f.signBit ≤ b then 2 ^ f.width - 1 - b else b + f.signBit

def FFmt.totalOrder (f : FFmt) (a b : Nat) : Bool := decide (f.key a ≤ f.key b)

def FFmt.totalOrderMag (f : FFmt) (a b : Nat) : Bool := f.totalOrder (a % f.signBit) (b % f.signBit)

/-- A predicate code of Table 4.3, `none` for a reserved code: the truth value and the flags. -/
def FFmt.compare (f : FFmt) (pred : Nat) (a b : Nat) : Option (Bool × Flags) :=
  let un := f.isNaN a || f.isNaN b
  let sn := f.snanFlag [a, b]
  let sig : Flags := if un then flNV else 0
  let o := (f.decode a).cmp (f.decode b)
  let lt := !un && decide (o = .lt)
  let eq := !un && decide (o = .eq)
  let gt := !un && decide (o = .gt)
  match pred with
  | 0x00 => some (eq, sn)
  | 0x01 => some (!eq, sn)
  | 0x02 => some (lt, sig)
  | 0x03 => some (lt || eq, sig)
  | 0x04 => some (gt, sig)
  | 0x05 => some (gt || eq, sig)
  | 0x06 => some (lt, sn)
  | 0x07 => some (lt || eq, sn)
  | 0x08 => some (gt, sn)
  | 0x09 => some (gt || eq, sn)
  | 0x0A => some (un, sn)
  | 0x0B => some (eq, sig)
  | 0x10 => some (f.totalOrder a b, 0)
  | 0x11 => some (f.totalOrderMag a b, 0)
  | _ => none

/-- The class mask of Table 4.4. -/
def FFmt.classMask (f : FFmt) (b : Nat) : Nat :=
  match f.decode b with
  | .nan _ q _ => if q then 2 ^ 9 else 2 ^ 8
  | .inf neg => if neg then 1 else 2 ^ 7
  | .fin neg m _ =>
    if m = 0 then (if neg then 2 ^ 3 else 2 ^ 4)
    else if m < 2 ^ f.fb then (if neg then 2 ^ 2 else 2 ^ 5)
    else (if neg then 2 ^ 1 else 2 ^ 6)

/-- roundToIntegralExact (FRND). -/
def FFmt.rnd (f : FFmt) (rm : Nat) (a : Nat) : Nat × Flags :=
  match f.decode a with
  | .nan _ _ _ => f.nanRes [a]
  | .inf neg => f.infRes neg
  | .fin neg m e =>
    let (y, nx) := Machine.roundInt rm 0 neg m e
    ((f.roundFin 0 0 false neg y 0).1, if nx then flNX else 0)

/-- IEEE remainder: exact, x − n × y with n nearest to x / y, ties to even. -/
def FFmt.rem (f : FFmt) (a b : Nat) : Nat × Flags :=
  match f.decode a, f.decode b with
  | .nan _ _ _, _ => f.nanRes [a, b]
  | _, .nan _ _ _ => f.nanRes [a, b]
  | .inf _, _ => f.invalidRes
  | .fin _ _ _, .inf _ => (a % 2 ^ f.width, 0)
  | .fin n1 m1 e1, .fin _ m2 e2 =>
    if m2 = 0 then f.invalidRes
    else
      let e0 := if e1 ≤ e2 then e1 else e2
      let x := m1 * 2 ^ (e1 - e0).toNat
      let y := m2 * 2 ^ (e2 - e0).toNat
      let n := x / y
      let r := x % y
      if decide (y < 2 * r) || (decide (2 * r = y) && decide (n % 2 = 1)) then
        f.roundFin 0 0 false (!n1) (y - r) e0
      else f.roundFin 0 0 false n1 r e0

/-- scaleB with an integer exponent (FSCALEB). Exponents past ±2^14 act as ±2^14: every format overflows or underflows there. -/
def FFmt.scaleB (f : FFmt) (rm : Nat) (a : Nat) (n : Int) : Nat × Flags :=
  match f.decode a with
  | .nan _ _ _ => f.nanRes [a]
  | .inf neg => f.infRes neg
  | .fin neg m e =>
    let n := if n < -16384 then -16384 else if 16384 < n then 16384 else n
    f.roundFin rm 0 false neg m (e + n)

/-- FLOGB (R96): a 64-bit integer and the flags. -/
def FFmt.logB (f : FFmt) (a : Nat) : Int × Flags :=
  match f.decode a with
  | .nan _ _ _ => (2 ^ 63 - 1, flNV)
  | .inf _ => (2 ^ 63 - 1, flNV)
  | .fin _ m e => if m = 0 then (-(2 ^ 63), flNV) else ((Nat.log2 m : Int) + e, 0)

/-- nextUp (FNEXTUP). -/
def FFmt.nextUp (f : FFmt) (a : Nat) : Nat × Flags :=
  let b := a % 2 ^ f.width
  match f.decode b with
  | .nan _ _ _ => f.nanRes [b]
  | .inf neg => (if neg then f.signBit + f.maxBits else b, 0)
  | .fin neg m _ => (if m = 0 then 1 else if neg then b - 1 else b + 1, 0)

/-- nextDown x = −nextUp(−x); a NaN keeps its sign (R81). -/
def FFmt.nextDn (f : FFmt) (a : Nat) : Nat × Flags :=
  let b := a % 2 ^ f.width
  if f.isNaN b then f.nanRes [b]
  else
    let (r, fl) := f.nextUp (b ^^^ f.signBit)
    (r ^^^ f.signBit, fl)

/-- Sign operations (R81): only the sign bit changes, no flag. -/
def FFmt.negate (f : FFmt) (a : Nat) : Nat := (a % 2 ^ f.width) ^^^ f.signBit
def FFmt.absVal (f : FFmt) (a : Nat) : Nat := a % f.signBit
def FFmt.copySign (f : FFmt) (a b : Nat) : Nat := f.withSign (decide (f.signBit ≤ b % 2 ^ f.width)) (a % f.signBit)

end Sys2Proof.Machine
end

