-- ==== Sys2Proof/Machine/Atomics.lean ====
section
/-! DEFINITION. The atomic operations at the home (R185, Table 8.3), as functions of the stored value and the operand. -/

namespace Sys2Proof.Machine

/-- An integer atomic's stored value, `w` bytes wide. -/
def amoInt (op : AmoOp) (w old b : Nat) : Nat :=
  let n := 8 * w
  let m := 2 ^ n
  let lt := decide (sInt n old < sInt n b)
  match op with
  | .add => (old + b) % m
  | .and => old &&& b
  | .or => old ||| b
  | .xor => old ^^^ b
  | .min => if lt then old else b
  | .max => if lt then b else old
  | .minu => min old b
  | .maxu => max old b
  | .swap => b

/-- The floating-point format of an atomic's width: 4 bytes binary32, 8 bytes binary64. -/
def amoFmt (w : Nat) : FFmt := if w = 4 then fmtS else fmtD

/-- A NaN with its quiet bit set, for the order of FMIN and FMAX. -/
def FFmt.quieted (f : FFmt) (b : Nat) : Nat := if f.isNaN b then b ||| 2 ^ (f.fb - 1) else b

/-- FMIN or FMAX at the home: operand A is whichever is lower under totalOrder once both are quieted (R185). -/
def amoMinMax (isMax : Bool) (w old b : Nat) : Nat :=
  let f := amoFmt w
  if f.totalOrder (f.quieted old) (f.quieted b) then (f.maxMin isMax old b).1 else (f.maxMin isMax b old).1

/-- FADD at the home: RNE, no flags (R79, R185). -/
def amoFaddVal (w old b : Nat) : Nat := ((amoFmt w).add 0 old b).1

/-- The integer operations in the order of AOP (Table 11.5). -/
def aopInt : Nat → Option AmoOp
  | 0 => some .add
  | 1 => some .and
  | 2 => some .or
  | 3 => some .xor
  | 4 => some .min
  | 5 => some .max
  | 6 => some .minu
  | 7 => some .maxu
  | 8 => some .swap
  | _ => none

/-- The AOP code of an integer operation. -/
def aopCode : AmoOp → Nat
  | .add => 0
  | .and => 1
  | .or => 2
  | .xor => 3
  | .min => 4
  | .max => 5
  | .minu => 6
  | .maxu => 7
  | .swap => 8

/-- The stored value of the atomic that AOP names; `exp` is the expected value of CAS. -/
def amoStored (aop w old b exp : Nat) : Nat :=
  match aopInt aop with
  | some op => amoInt op w old b
  | none =>
    if aop = 9 then (if old = exp then b else old)
    else if aop = 10 then amoFaddVal w old b
    else if aop = 11 then amoMinMax false w old b
    else amoMinMax true w old b

end Sys2Proof.Machine
end

