-- ==== Sys2Proof/Machine/Tab.lean ====
section
/-! DEFINITION. Finite tables in one canonical form: lists of (key, value) with strictly rising keys and no entry equal to the
value an unlisted key reads as. Memory, register cells and every numbered unit of the package are kept in such tables. -/

namespace Sys2Proof.Machine

variable {α : Type}

/-- The listed value of a key. -/
def tabFind : List (Nat × α) → Nat → Option α
  | [], _ => none
  | (k', v) :: t, k => if k' = k then some v else tabFind t k

/-- The value of a key, `d k` when it is not listed. -/
def tabGet (d : Nat → α) (t : List (Nat × α)) (k : Nat) : α := (tabFind t k).getD (d k)

/-- The table without a key. -/
def tabDel (t : List (Nat × α)) (k : Nat) : List (Nat × α) := t.filter (fun e => e.1 != k)

/-- Insertion before the first larger key. -/
def tabIns : List (Nat × α) → Nat → α → List (Nat × α)
  | [], k, v => [(k, v)]
  | (k', v') :: t, k, v => if k < k' then (k, v) :: (k', v') :: t else (k', v') :: tabIns t k v

/-- The table with `k` holding `v`; an entry equal to the unlisted value is not kept. -/
def tabSet [DecidableEq α] (d : Nat → α) (t : List (Nat × α)) (k : Nat) (v : α) : List (Nat × α) :=
  if v = d k then tabDel t k else tabIns (tabDel t k) k v

/-- Every listed value changed; an entry that becomes the unlisted value is not kept. -/
def tabMap [DecidableEq α] (d : Nat → α) (f : α → α) (t : List (Nat × α)) : List (Nat × α) :=
  (t.map fun e => (e.1, f e.2)).filter fun e => decide (e.2 ≠ d e.1)

/-- Keys strictly rising from `lo`, no entry equal to the unlisted value. -/
def tabWfFrom [DecidableEq α] (d : Nat → α) : Nat → List (Nat × α) → Bool
  | _, [] => true
  | lo, (k, v) :: t => decide (lo ≤ k) && decide (v ≠ d k) && tabWfFrom d (k + 1) t

/-- The canonical form. -/
def tabWf [DecidableEq α] (d : Nat → α) (t : List (Nat × α)) : Bool := tabWfFrom d 0 t

end Sys2Proof.Machine
end

