-- ==== Sys2Proof/Machine/Outer.lean ====
section
/-! DEFINITION. The outer code of the stacks: RS(72,64) over GF(2^8), its check bytes, syndromes and poison pattern (R153, R154). -/

namespace Sys2Proof.Machine

/-- Times α = 0x02 modulo x^8 + x^4 + x^3 + x^2 + 1. -/
def gfDouble (a : Byte) : Byte := if a.msb then (a <<< 1) ^^^ 0x1D else a <<< 1

/-- A product of the field, from the highest bit of `b` down. -/
def gfMul (a b : Byte) : Byte :=
  (List.range 8).foldl (fun acc i => if b.getLsbD (7 - i) then gfDouble acc ^^^ a else gfDouble acc) 0

/-- α to a power. -/
def gfAlpha (n : Nat) : Byte := (List.range n).foldl (fun x _ => gfDouble x) 1

/-- The generator's coefficients below x^8, highest first: the product of x − α^j for j = 0 to 7. -/
def rsGen : List Byte :=
  ((List.range 8).foldl (fun p j => List.zipWith (· ^^^ ·) (p ++ [0]) (0 :: p.map (gfMul (gfAlpha j)))) [1]).drop 1

/-- One data symbol divided in: `st` is the remainder so far, highest coefficient first. -/
def rsStep (st : List Byte) (d : Byte) : List Byte :=
  let q := d ^^^ st.headD 0
  List.zipWith (fun r g => r ^^^ gfMul q g) (st.drop 1 ++ [0]) rsGen

/-- The check bytes of a line's 64 bytes: symbols 64 to 71 (R153). -/
def checkBytes (line : List Byte) : List Byte := line.foldl rsStep (List.replicate 8 0)

/-- The codeword of a line. With the poison pattern, 0x5A is XORed into each check symbol (R154). -/
def codeword (line : List Byte) (poison : Bool) : List Byte :=
  line ++ (checkBytes line).map fun c => if poison then c ^^^ 0x5A else c

/-- c(α^j) of a codeword, symbol 0 the coefficient of x^71. -/
def syndrome (c : List Byte) (j : Nat) : Byte := c.foldl (fun acc s => gfMul acc (gfAlpha j) ^^^ s) 0

/-- The eight syndromes. -/
def syndromes (c : List Byte) : List Byte := (List.range 8).map (syndrome c)

/-- The syndromes of the poison pattern, which step 1 of R154 recognises. -/
def poisonSyndromes : List Byte := syndromes (codeword (List.replicate 64 0) true)

/-- The logical lane and the beat of a symbol (R153). -/
def symLane (i : Nat) : Nat := i / 8
/-- The beat. -/
def symBeat (i : Nat) : Nat := i % 8

end Sys2Proof.Machine
end

