-- ==== Sys2Proof/Config.lean ====
section
/-! DEFINITION. What the spec leaves open: free values, each an opaque function with no body, applied to the step's counter or
to the operands it depends on. Nothing can be proved of such a value but that it is one. -/

namespace Sys2Proof.Config

/-- Nanoseconds since the timestamp was set, at a use of the clock (R430 TIME; Table 15.7). -/
opaque elapsed : Nat → BitVec 64

/-- A register measured in time or by analogue means (assumption log 4). -/
opaque timed : Nat → BitVec 64

/-- CYCLE, ND (Table 3.8 note 3). -/
opaque cycle : Nat → BitVec 64

/-- RNG.U and stochastic rounding under mode 6 (R87, Table 3.6), ND. -/
opaque random : Nat → BitVec 64

/-- A byte of host memory, of another package, or of a line whose content the spec calls undefined. -/
opaque freeByte : Nat → BitVec 8

/-- A value that the spec gives an operation without stating it for these operands. -/
opaque unstated : Nat → BitVec 64

/-- The bits above a memory result narrower than its register, by its width, its value and what the register held (assumption
log 13): one function of them for every run, since the access is not ND. -/
opaque upper : Nat → BitVec 64 → BitVec 64 → BitVec 64

/-- The SECDED check bits of a directory entry's bits [5:0] (Table 8.2): the spec names no code. -/
opaque dirCheck : Nat → BitVec 5

/-- The unit-specific DETAIL word of a fault record (Table 18.6). -/
opaque detail : Nat → BitVec 32

/-- An answer of another member of a group, or another outcome outside the package, that a rule calls for and no command
carries. -/
opaque outcome : Nat → Bool

/-- The event code of a vendor event record, by the kind of its event (R367). -/
opaque eventCode : Nat → BitVec 16

/-- A byte of the health information, by the temperatures and repair states it is formed from (Table 15.7). -/
opaque health : List Nat → Nat → BitVec 8

/-- A byte of a supported command's effects, by its opcode (Table 15.7, Get Log). -/
opaque effects : Nat → BitVec 16

/-- A vector index narrower than 64 bits is extended by its sign (R64 leaves open how it is extended). -/
opaque indexSigned : Bool

/-- Random bytes of the security controller (R411, R452). -/
opaque entropy : Nat → BitVec 256

/-- ML-DSA-65 verification (R400, R403, R413): key, message, signature. -/
opaque sigVerify : List (BitVec 8) → List (BitVec 8) → List (BitVec 8) → Bool

/-- The Noriskys public key held in the ROM (R403). -/
opaque noriskysKey : List (BitVec 8)

/-- A KMAC or ML-DSA value over bytes with a key of the security controller (R342, R401, R407). -/
opaque mac : Nat → List (BitVec 8) → List (BitVec 8)

/-- The AES-256-GCM key stream byte of a key, an IV and a position (R452). -/
opaque gcmStream : List (BitVec 8) → BitVec 96 → Nat → BitVec 8

/-- The AES-256-GCM key of a link (R285, R418): port, training, sending direction, key index. -/
opaque linkKey : Nat → Nat → Bool → Nat → List (BitVec 8)

/-- Slots of a port's receive buffer, by port and channel (R263): the spec gives no size. -/
opaque rxSlots : Nat → Nat → Nat

/-- Requests that an ingress queue toward a home holds (R275): the spec gives no size. -/
opaque ingressCap : Nat

/-- What a solver job does with the spec's silence (R229, R232): a value of its descriptor, of what was read or found, and of the
place asked for, the same on every run. -/
opaque solvOpen : List (BitVec 8) → List Nat → Nat → BitVec 64

/-- The step of a solver system, counted from its first, in which a residue mismatch or an internal-storage error strikes, where one
does (R233). -/
opaque solvFault : Nat → Option Nat

/-- The AES-256-GCM tag of a key, an IV, additional data and a ciphertext (R452). -/
opaque gcmTag : List (BitVec 8) → BitVec 96 → List (BitVec 8) → List (BitVec 8) → BitVec 128

end Sys2Proof.Config
end

