-- ==== Sys2Proof/Machine/Digest.lean ====
section
/-! DEFINITION. The checksums and the hash of the spec: the flit CRC-64 (Table 11.2), CRC-32C (Tables 11.5 and 18.6; its reflection,
start and final value are those of the standard CRC-32C, assumption log 5) and SHA3-256 (FIPS 202, assumption log 5). Little-endian
byte lists. -/

namespace Sys2Proof.Machine

/-- The little-endian value of a byte list. -/
def leNat : List Byte → Nat
  | [] => 0
  | b :: bs => b.toNat + 256 * leNat bs

/-- The low `n` bytes of a value, lowest first. -/
def natLE : Nat → Nat → List Byte
  | 0, _ => []
  | n + 1, v => BitVec.ofNat 8 (v % 256) :: natLE n (v / 256)

/-- `w` bytes from position `o` of a byte list; bytes past its end read 0. -/
def sliceB (l : List Byte) (o w : Nat) : List Byte := (List.range w).map fun i => l.getD (o + i) 0

/-- The little-endian field of `w` bytes at position `o`. -/
def fieldLE (l : List Byte) (o w : Nat) : Nat := leNat (sliceB l o w)

/-- Bytes written over a list at position `o`. -/
def putBytes (l : List Byte) (o : Nat) (d : List Byte) : List Byte :=
  (List.range l.length).map fun i => if o ≤ i ∧ i < o + d.length then d.getD (i - o) 0 else l.getD i 0

/-- One bit of CRC-64 (Table 11.2): most significant bit first, no reflection. -/
def crc64Bit (c : W64) : W64 := if c.msb then (c <<< 1) ^^^ 0x42F0E1EBA9EA3693#64 else c <<< 1

def crc64Byte (c : W64) (b : Byte) : W64 :=
  (List.range 8).foldl (fun c _ => crc64Bit c) (c ^^^ (b.setWidth 64 <<< 56))

/-- CRC-64 of a byte list, initial value 0, no final XOR. -/
def crc64 (l : List Byte) : W64 := l.foldl crc64Byte 0

/-- One bit of CRC-32C, least significant bit first: the reflected polynomial of 0x1EDC_6F41. -/
def crc32cBit (c : W32) : W32 := if c.getLsbD 0 then (c >>> 1) ^^^ 0x82F63B78#32 else c >>> 1

def crc32cByte (c : W32) (b : Byte) : W32 :=
  (List.range 8).foldl (fun c _ => crc32cBit c) (c ^^^ b.setWidth 32)

/-- CRC-32C of a byte list. -/
def crc32c (l : List Byte) : W32 := ~~~ (l.foldl crc32cByte 0xFFFFFFFF#32)

/-! ### Keccak: five planes (by y) of five lanes (by x) -/

/-- Each place takes its right neighbour. -/
def turnL (p : List W64) : List W64 := p.drop 1 ++ p.take 1
/-- Each place takes its left neighbour. -/
def turnR (p : List W64) : List W64 := p.drop 4 ++ p.take 4
/-- Two planes XORed. -/
def planeXor (p q : List W64) : List W64 := List.zipWith (· ^^^ ·) p q

/-- θ: every lane takes the parities of the columns beside its own. -/
def theta (a : List (List W64)) : List (List W64) :=
  let parity := a.foldr planeXor [0, 0, 0, 0, 0]
  a.map (planeXor (planeXor (turnR parity) ((turnL parity).map (·.rotateLeft 1))))

/-- ρ and π as one walk over the 24 lanes other than (0, 0): a lane, turned by the next triangular number, goes where the walk
goes next. -/
def walkLanes (a : List (List W64)) : Nat → Nat → Nat → Nat → List (List W64) → List (List W64)
  | 0, _, _, _, out => out
  | left + 1, turn, x, y, out =>
    let x' := y
    let y' := (2 * x + 3 * y) % 5
    let lane := ((a.getD y []).getD x 0).rotateLeft (turn * (turn + 1) / 2 % 64)
    walkLanes a left (turn + 1) x' y' (out.modify y' fun p => p.set x' lane)

/-- χ on one plane. -/
def chi (p : List W64) : List W64 := planeXor p (List.zipWith (fun u v => ~~~ u &&& v) (turnL p) (turnL (turnL p)))

/-- One step of the register that gives the round constants: x^8 + x^6 + x^5 + x^4 + 1. -/
def rcStep (r : Nat) : Nat := if 128 ≤ r then (2 * r) ^^^ 0x171 else 2 * r

/-- A round constant, and the register after its seven steps: step j decides bit 2^j − 1. -/
def rcNext (r : Nat) : W64 × Nat :=
  (List.range 7).foldl (fun c j => (if c.2 % 2 = 1 then c.1 ||| (1#64 <<< (2 ^ j - 1)) else c.1, rcStep c.2)) (0, r)

/-- The rounds that are left, with the register of the round constants. -/
def rounds : Nat → Nat → List (List W64) → List (List W64)
  | 0, _, a => a
  | n + 1, r, a =>
    let (c, r') := rcNext r
    let b := theta a
    rounds n r' (((walkLanes b 24 1 1 0 b).map chi).modify 0 fun p => p.modify 0 (· ^^^ c))

/-- The permutation on the 25 lanes, lane x + 5y first to last. -/
def permute (l : List W64) : List W64 := (rounds 24 1 ((List.range 5).map fun y => (l.drop (5 * y)).take 5)).flatten

/-- Whole blocks of 136 bytes taken in. -/
def sponge : Nat → List Byte → List W64 → List W64
  | 0, _, st => st
  | n + 1, l, st =>
    sponge n (l.drop 136)
      (permute (planeXor (st.take 17) ((List.range 17).map fun i => BitVec.ofNat 64 (fieldLE l (8 * i) 8)) ++ st.drop 17))

/-- SHA3-256 of a byte list: 32 bytes. -/
def sha3_256 (l : List Byte) : List Byte :=
  let n := l.length / 136 + 1
  let z := n * 136 - l.length - 1
  let padded := if z = 0 then l ++ [0x86] else l ++ [0x06] ++ List.replicate (z - 1) 0 ++ [0x80]
  let st := sponge n padded (List.replicate 25 0)
  (List.range 4).flatMap fun i => natLE 8 (st.getD i 0).toNat

end Sys2Proof.Machine
end

