-- ==== Sys2Proof/Machine/Fx.lean ====
section
/-! DEFINITION. The solver engine's arithmetic: exact sums, the FX96 format, elimination, substitution, refinement, work charges
(R217 to R228). -/

namespace Sys2Proof.Machine

/-! ### Exact numbers -/

/-- m × 2^e. -/
structure Dy where
  m : Int
  e : Int
  deriving DecidableEq, Repr

/-- Zero. -/
def Dy.zero : Dy := ⟨0, 0⟩

/-- The exact sum. -/
def Dy.add (a b : Dy) : Dy :=
  let e := if a.e < b.e then a.e else b.e
  ⟨a.m * 2 ^ (a.e - e).toNat + b.m * 2 ^ (b.e - e).toNat, e⟩

/-- The exact product. -/
def Dy.mul (a b : Dy) : Dy := ⟨a.m * b.m, a.e + b.e⟩

/-- The exponent of a magnitude that is not zero. -/
def Dy.expo (a : Dy) : Int := (Nat.log2 a.m.natAbs : Int) + a.e

/-- The quotient rounded to an integer, ties to even; the divisor is positive. -/
def rneQuot (n : Int) (d : Nat) : Int :=
  let q := n.natAbs / d
  let r := n.natAbs % d
  let up := decide (d < 2 * r) || (decide (2 * r = d) && q % 2 == 1)
  let a := if up then q + 1 else q
  if n < 0 then -(a : Int) else a

/-- m × 2^e rounded to units of 2^u (RNE). -/
def Dy.toUnit (a : Dy) (u : Int) : Int :=
  if u ≤ a.e then a.m * 2 ^ (a.e - u).toNat else rneQuot a.m (2 ^ (u - a.e).toNat)

/-- A binary64 pattern: none when it is not finite. -/
def Dy.ofBits (b : Nat) : Option Dy :=
  match fmtD.decode b with
  | .fin neg m e => some ⟨if neg then -(m : Int) else m, e⟩
  | _ => none

/-- The binary64 pattern of a number, rounded once by RNE. -/
def Dy.toBits (a : Dy) : Nat := if a.m = 0 then 0 else (fmtD.roundFin 0 0 false (decide (a.m < 0)) a.m.natAbs a.e).1

/-- An exact value rounded to a binary64 value (R218); none when it overflows. -/
def Dy.round64 (a : Dy) : Option Dy := Dy.ofBits a.toBits

/-- Products and sums of values, none when one is not finite. -/
def optMul (a b : Option Dy) : Option Dy := match a, b with | some x, some y => some (x.mul y) | _, _ => none
/-- The sum. -/
def optAdd (a b : Option Dy) : Option Dy := match a, b with | some x, some y => some (x.add y) | _, _ => none

/-! ### Systems (Tables 9.1, 9.2, 9.4) -/

/-- The shape of a job's systems. -/
structure Shape where
  cls : Nat
  n : Nat
  klb : Nat
  ku : Nat
  nrhs : Nat
  deriving DecidableEq, Repr

/-- Lower bandwidth of the scalar classes. -/
def Shape.kl (h : Shape) : Nat := match h.cls with | 0 => h.n - 1 | 1 => h.klb | _ => 1
/-- Columns right of the diagonal that the factor keeps. -/
def Shape.cu (h : Shape) : Nat := match h.cls with | 0 => h.n - 1 | 1 => h.klb + h.ku | _ => 2
/-- Block size of class 3, one otherwise. -/
def Shape.blk (h : Shape) : Nat := if h.cls = 3 then max 1 h.klb else 1

/-- The position lies in the stored structure (Table 9.1). -/
def Shape.holds (h : Shape) (i j : Nat) : Bool :=
  decide (i < h.n) && decide (j < h.n) &&
    (match h.cls with
     | 0 => true
     | 1 => decide (i ≤ j + h.klb) && decide (j ≤ i + h.ku)
     | 2 => decide (i ≤ j + 1) && decide (j ≤ i + 1)
     | _ => decide (i / h.blk ≤ j / h.blk + 1) && decide (j / h.blk ≤ i / h.blk + 1))

/-- Retained entries (Table 9.5). -/
def Shape.ents (h : Shape) : Nat :=
  match h.cls with
  | 0 => h.n * h.n
  | 1 => h.n * (h.klb + h.ku + 1)
  | 2 => 3 * h.n
  | _ => 3 * (h.n / h.blk) * h.blk ^ 2

/-- Factor entries of a slot. -/
def Shape.facs (h : Shape) : Nat :=
  match h.cls with
  | 0 => h.n * h.n
  | 1 => h.n * (2 * h.klb + h.ku + 1)
  | 2 => 4 * h.n
  | _ => 3 * (h.n / h.blk) * h.blk ^ 2

/-- The size is one of Table 9.1. -/
def Shape.ok (h : Shape) : Bool :=
  match h.cls with
  | 0 => decide (1 ≤ h.n) && decide (h.n ≤ 256) && h.klb == 0 && h.ku == 0
  | 1 => decide (1 ≤ h.n) && decide (h.n ≤ 16384) && decide (h.klb ≤ 64) && decide (h.ku ≤ 64)
  | 2 => decide (2 ≤ h.n) && decide (h.n ≤ 16384) && h.klb == 0 && h.ku == 0
  | _ => decide (1 ≤ h.klb) && decide (h.klb ≤ 64) && h.ku == 0 && decide (h.n ≤ 16384) && h.n % h.blk == 0 &&
      decide (2 ≤ h.n / h.blk)

/-- A term record (Table 9.4). -/
structure Term where
  row : Nat
  col : Nat
  kind : Nat
  pa : Nat
  pb : Nat
  c : Nat
  deriving DecidableEq, Repr

/-- A term from its bytes. -/
def termOf (b : List Byte) : Term :=
  { row := fieldLE b 0 2, col := fieldLE b 2 2, kind := fieldLE b 4 1, pa := fieldLE b 5 3 % 4096, pb := fieldLE b 5 3 / 4096,
    c := fieldLE b 8 8 }

/-- COL names a right-hand side. -/
def rhsOf (h : Shape) (col : Nat) : Option Nat := if 0xFFF0 ≤ col ∧ col - 0xFFF0 < h.nrhs then some (col - 0xFFF0) else none

/-- The term alone is one that R217 allows. -/
def Term.ok (h : Shape) (t : Term) : Bool :=
  match t.kind with
  | 0 => t.pa == 0xFFF && t.pb == 0xFFF && decide (t.row < h.n) && (h.holds t.row t.col || (rhsOf h t.col).isSome)
  | 1 => t.pb == 0xFFF && decide (t.row < h.n) && (h.holds t.row t.col || (rhsOf h t.col).isSome)
  | 2 => decide (t.row < h.n) && (h.holds t.row t.col || (rhsOf h t.col).isSome)
  | 3 => decide (t.row < 256) && decide (t.col < h.n)
  | 4 => decide (t.row < 256) && (rhsOf h t.col).isSome
  | _ => false

/-- The columns of an observation. -/
def obsCols (ts : List Term) (k : Nat) : List Nat :=
  ((ts.filter fun t => t.kind == 3 && t.row == k).map fun t => t.col).eraseDups

/-- Every term is allowed, no observation has two weights, every product lies in the stored structure (BAD_TERM). -/
def termsOk (h : Shape) (ts : List Term) : Bool :=
  ts.all (fun t => t.ok h) &&
    (List.range 256).all fun k =>
      decide (((ts.filter fun t => t.kind == 4 && t.row == k).length) ≤ 1) &&
        (obsCols ts k).all fun i => (obsCols ts k).all fun j => h.holds i j

/-- The parameters that terms use: one more than the highest index. -/
def paramCount (ts : List Term) : Nat :=
  ts.foldl (fun m t => max m (max (if t.pa = 0xFFF then 0 else t.pa + 1) (if t.pb = 0xFFF then 0 else t.pb + 1))) 0

/-! ### Assembly (R217 to R219) -/

/-- Sums by position: key row × 65536 + column; every position aimed at is listed. -/
abbrev Sums := List (Nat × Option Dy)

/-- A value added to a position. -/
def Sums.put (t : Sums) (k : Nat) (v : Option Dy) : Sums :=
  tabIns (tabDel t k) k (optAdd ((tabFind t k).getD (some Dy.zero)) v)

/-- Parameter `i`; 0xFFF is 1.0. -/
def parVal (ps : List Nat) (i : Nat) : Option Dy := if i = 0xFFF then some ⟨1, 0⟩ else Dy.ofBits (ps.getD i 0)

/-- The term value. -/
def Term.value (t : Term) (ps : List Nat) : Option Dy :=
  optMul (optMul (Dy.ofBits t.c) (parVal ps t.pa)) (parVal ps t.pb)

/-- The row of the observation operator. -/
def obsRow (ts : List Term) (ps : List Nat) (k : Nat) : Sums :=
  (ts.filter fun t => t.kind == 3 && t.row == k).foldl (fun (a : Sums) t => a.put t.col (t.value ps)) []

/-- Sums of the matrix: terms, then observation products (R218). -/
def asmMatrix (ts : List Term) (ps : List Nat) : Sums :=
  let a := (ts.filter fun t => decide (t.kind ≤ 2) && decide (t.col < 0xFFF0)).foldl
    (fun (a : Sums) t => a.put (t.row * 65536 + t.col) (t.value ps)) []
  ((ts.filter fun t => t.kind == 3).map fun t => t.row).eraseDups.foldl (fun (a : Sums) k =>
    let h := obsRow ts ps k
    let w := match ts.find? fun t => t.kind == 4 && t.row == k with
      | some t => optMul (Dy.ofBits t.c) (parVal ps t.pa)
      | none => some Dy.zero
    h.foldl (fun a x => h.foldl (fun a y => a.put (x.1 * 65536 + y.1) (optMul w (optMul x.2 y.2))) a) a) a

/-- Sums of the right-hand sides: key right-hand side × 65536 + row. -/
def asmRhs (ts : List Term) (ps : List Nat) : Sums :=
  let b := (ts.filter fun t => decide (t.kind ≤ 2) && decide (0xFFF0 ≤ t.col)).foldl
    (fun (a : Sums) t => a.put ((t.col - 0xFFF0) * 65536 + t.row) (t.value ps)) []
  (ts.filter fun t => t.kind == 4).foldl (fun b t =>
    let w := optMul (Dy.ofBits t.c) (parVal ps t.pa)
    let y := parVal ps t.pb
    (obsRow ts ps t.row).foldl (fun (b : Sums) x => b.put ((t.col - 0xFFF0) * 65536 + x.1) (optMul w (optMul x.2 y))) b) b

/-- Each entry rounded once to binary64; none when one is not finite. -/
def roundAll : Sums → Option (List (Nat × Dy))
  | [] => some []
  | (k, some v) :: t =>
    match v.round64, roundAll t with
    | some r, some rs => some ((k, r) :: rs)
    | _, _ => none
  | (_, none) :: _ => none

/-- The exponent of the largest magnitude; none when all are zero. -/
def maxExpo (l : List Dy) : Option Int :=
  l.foldl (fun (m : Option Int) (v : Dy) =>
    if v.m = 0 then m else match m with | none => some v.expo | some e => some (if e < v.expo then v.expo else e)) none

/-- Row exponents of equilibration (R219); rows without a nonzero entry are not listed. -/
def rowExpos (a : List (Nat × Dy)) : List (Nat × Int) :=
  ((a.map fun x => x.1 / 65536).eraseDups).filterMap fun i =>
    (maxExpo ((a.filter fun x => x.1 / 65536 == i).map (·.2))).map fun e => (i, e)

/-- A row's exponent. -/
def expoOf (es : List (Nat × Int)) (i : Nat) : Int := (tabFind es i).getD 0

/-- A value scaled by 2^-e. -/
def Dy.down (a : Dy) (e : Int) : Dy := ⟨a.m, a.e - e⟩

/-! ### FX96 (R220, R221) -/

/-- In range: below 2^(E + 27), in units of 2^(E - 64). -/
def fxOk (m : Int) : Bool := decide (m.natAbs < 2 ^ 91)

/-- A word of scale `e` as an exact number. -/
def fxVal (m e : Int) : Dy := ⟨m, e - 64⟩

/-- A value as a word of scale `e`. -/
def Dy.fx (a : Dy) (e : Int) : Int := a.toUnit (e - 64)

/-- Rows of words: row index, then column index; unlisted words are 0. -/
abbrev Rows := List (Nat × List (Nat × Int))

/-- A zero word. -/
def wordZero (_ : Nat) : Int := 0

/-- Row `i`. -/
def Rows.row (a : Rows) (i : Nat) : List (Nat × Int) := (tabFind a i).getD []
/-- Word (i, j). -/
def Rows.at_ (a : Rows) (i j : Nat) : Int := tabGet wordZero (a.row i) j
/-- Row `i` set. -/
def Rows.setRow (a : Rows) (i : Nat) (r : List (Nat × Int)) : Rows := tabIns (tabDel a i) i r
/-- Word (i, j) set. -/
def Rows.put (a : Rows) (i j : Nat) (v : Int) : Rows := a.setRow i (tabSet wordZero (a.row i) j v)

/-- Positions as rows of words of scale `s`. -/
def toRows (a : List (Nat × Dy)) (s : Int) : Rows := a.foldl (fun (r : Rows) x => r.put (x.1 / 65536) (x.1 % 65536) (x.2.fx s)) []

/-! ### Factorisation (R223) -/

/-- What elimination carries: the working words, row interchanges by column, pivots regularised, the exponent of the smallest
pivot relative to units. -/
structure Elim where
  a : Rows
  piv : List Nat
  regs : Nat
  pmin : Option Nat
  deriving DecidableEq, Repr

/-- The row of the largest magnitude in a column among rows `k` to `hi`; ties to the lower index. -/
def pivotRow (a : Rows) (k hi : Nat) : Nat :=
  (List.range (hi + 1 - k)).foldl (fun p i => if (a.at_ p k).natAbs < (a.at_ (k + i) k).natAbs then k + i else p) k

/-- A small pivot gets δ with its sign (R223). -/
def regularise (p : Int) (t : Nat) (delta : Int) : Int × Bool :=
  if p.natAbs * 2 ^ t < 2 ^ 64 then (if p < 0 then p - delta else p + delta, true) else (p, false)

/-- A quotient of words with its scale shift; none when it leaves the range or the divisor is 0. -/
def fxDiv (n d : Int) : Option Int :=
  if d = 0 then none
  else
    let q := rneQuot (if d < 0 then -(n * 2 ^ 64) else n * 2 ^ 64) d.natAbs
    if fxOk q then some q else none

/-- Words of row `i` right of column `k` after the row's elimination, in the columns of the pivot row. -/
def elimRow (u : List (Nat × Int)) (k : Nat) (l : Int) : List (Nat × Int) → Option (List (Nat × Int))
  | row => u.foldl (fun r x =>
      match r with
      | none => none
      | some r =>
        if x.1 ≤ k then some r
        else
          let v := rneQuot (tabGet wordZero r x.1 * 2 ^ 64 - l * x.2) (2 ^ 64)
          if fxOk v then some (tabSet wordZero r x.1 v) else none) (some row)

/-- A row of the entries of one row left of a column and of another from it on. -/
def joinAt (k : Nat) (l r : List (Nat × Int)) : List (Nat × Int) :=
  (l.filter fun x => decide (x.1 < k)) ++ (r.filter fun x => decide (k ≤ x.1))

/-- One column of elimination: pivot among rows `k` to `hi`, interchange (multipliers already found keep their rows; the solve
interchanges as it goes), regularisation, multipliers, update. A word that leaves its range ends it, with the regularisations counted
so far, this column's among them. -/
def elimCol (t : Nat) (delta : Int) (hi k : Nat) (e : Elim) : Except Nat Elim :=
  let p := pivotRow e.a k hi
  let rk := e.a.row k
  let rp := e.a.row p
  let a1 := (e.a.setRow k (joinAt k rk rp)).setRow p (if p = k then rk else joinAt k rp rk)
  let (pv, reg) := regularise (a1.at_ k k) t delta
  let regs := e.regs + reg.toNat
  if !fxOk pv then .error regs
  else
    let a2 := a1.put k k pv
    let u := a2.row k
    let res := (List.range (hi - k)).foldl (fun (r : Option Rows) i =>
      match r with
      | none => none
      | some a =>
        let row := a.row (k + 1 + i)
        match fxDiv (tabGet wordZero row k) pv with
        | none => none
        | some l =>
          match elimRow u k l row with
          | none => none
          | some row' => some (a.setRow (k + 1 + i) (tabSet wordZero row' k l))) (some a2)
    match res with
    | none => .error regs
    | some a3 =>
      let m := Nat.log2 pv.natAbs
      .ok { a := a3, piv := e.piv ++ [p], regs := regs,
            pmin := if pv = 0 then e.pmin else match e.pmin with | none => some m | some x => some (min x m) }

/-! ### Substitution (R226) -/

/-- Forward substitution with unit lower multipliers of scale 0, interchanging as the columns did: each result the exact sum,
rounded once. The vector carries 64 further bits. -/
def forwardSub (a : Rows) (kl n : Nat) (piv : List Nat) : List Nat → List Int → List Int → Option (List Int)
  | [], _, y => some y
  | k :: ks, v, y =>
    let p := piv.getD k k
    let vp := v.getD p 0
    let v1 := (v.set p (v.getD k 0)).set k vp
    let yk := rneQuot vp (2 ^ 64)
    if fxOk yk then
      let v2 := (List.range (min (k + kl) (n - 1) - k)).foldl (fun z i =>
        z.set (k + 1 + i) (z.getD (k + 1 + i) 0 - a.at_ (k + 1 + i) k * yk)) v1
      forwardSub a kl n piv ks v2 (y ++ [yk])
    else none

/-- Back substitution from the last row: y of scale `ty`, U of scale `su`, the result of scale `x`. `acc` holds the results of the
rows below. -/
def backSub (a : Rows) (ty su x : Int) : List Int → List Int → Option (List Int)
  | [], acc => some acc
  | y :: ys, acc =>
    let i := ys.length
    let n := (a.row i).foldl (fun (z : Dy) c =>
      if i < c.1 then z.add ⟨-(c.2 * acc.getD (c.1 - i - 1) 0), su + x - 128⟩ else z) (fxVal y ty)
    let u := a.at_ i i
    if u = 0 then none
    else
      -- n / (u × 2^(su - 64)) in units of 2^(x - 64)
      let sh := n.e - (su + x - 128)
      let num := (if u < 0 then -n.m else n.m) * 2 ^ sh.toNat
      let v := rneQuot num (u.natAbs * 2 ^ (-sh).toNat)
      if fxOk v then backSub a ty su x ys (v :: acc) else none

/-- The solve with one set of triangular factors. -/
def triSolve (a : Rows) (kl : Nat) (piv : List Nat) (ty su x : Int) (w : List Int) : Option (List Int) :=
  match forwardSub a kl w.length piv (List.range w.length) (w.map (· * 2 ^ 64)) [] with
  | some y => backSub a ty su x y.reverse []
  | none => none

/-! ### Factors of a system -/

/-- A factor: of the scalar classes, the words and interchanges; of class 3, for each block row its diagonal factor with
interchanges, its left block (scale S) and its right block D^-1 × C (scale 0). -/
structure Factor where
  s : Int
  p : Int
  lu : Rows
  piv : List Nat
  deriving DecidableEq, Repr

/-- Block (I, J) of size B, as rows from 0. -/
def Rows.block (a : Rows) (b i j : Nat) : Rows :=
  (List.range b).foldl (fun (r : Rows) k =>
    let row := (a.row (i * b + k)).filterMap fun x => if j * b ≤ x.1 ∧ x.1 < (j + 1) * b then some (x.1 - j * b, x.2) else none
    if row.isEmpty then r else r.setRow k row) []

/-- Block (I, J) replaced. -/
def Rows.setBlock (a : Rows) (b i j : Nat) (m : Rows) : Rows :=
  (List.range b).foldl (fun (r : Rows) k => (List.range b).foldl (fun (r : Rows) c => r.put (i * b + k) (j * b + c) (m.at_ k c)) r) a

/-- A column of a block. -/
def Rows.colOf (m : Rows) (b c : Nat) : List Int := (List.range b).map fun k => m.at_ k c

/-- Rows of columns. -/
def ofCols (b : Nat) (cs : List (List Int)) : Rows :=
  (List.range b).foldl (fun (r : Rows) k => (List.range cs.length).foldl (fun (r : Rows) c => r.put k c ((cs.getD c []).getD k 0)) r) []

/-- All of a list, or none. -/
def allSome {α : Type} : List (Option α) → Option (List α)
  | [] => some []
  | some x :: t => (allSome t).map fun r => x :: r
  | none :: _ => none

/-- All columns of a block's factorisation, pivots inside the block. -/
def elimBlock (t : Nat) (delta : Int) (b : Nat) (e : Elim) : Except Nat Elim :=
  (List.range b).foldl (fun r k => match r with | .error n => .error n | .ok x => elimCol t delta (b - 1) k x) (.ok e)

/-- One block column of class 3: the diagonal block factorised, D^-1 × C, the next diagonal block updated. -/
def elimBlockCol (h : Shape) (t : Nat) (delta s : Int) (k : Nat) (e : Elim) : Except Nat Elim :=
  let b := h.blk
  match elimBlock t delta b { a := e.a.block b k k, piv := [], regs := e.regs, pmin := e.pmin } with
  | .error n => .error n
  | .ok d =>
    let a1 := e.a.setBlock b k k d.a
    let piv := e.piv ++ d.piv.map (k * b + ·)
    if h.n / b ≤ k + 1 then .ok { d with a := a1, piv := piv }
    else
      let c := e.a.block b k (k + 1)
      match allSome ((List.range b).map fun j => triSolve d.a (b - 1) d.piv s s 0 (c.colOf b j)) with
      | none => .error d.regs
      | some cols =>
        let g := ofCols b cols
        let l := e.a.block b (k + 1) k
        let dn := e.a.block b (k + 1) (k + 1)
        let upd := (List.range b).map fun i => allSome ((List.range b).map fun j =>
          let v := rneQuot ((l.row i).foldl (fun z x => z - x.2 * g.at_ x.1 j) (dn.at_ i j * 2 ^ 64)) (2 ^ 64)
          if fxOk v then some v else none)
        match allSome upd with
        | none => .error d.regs
        | some rs =>
          let dn' := (List.range b).foldl (fun (r : Rows) i => (List.range b).foldl (fun (r : Rows) j => r.put i j ((rs.getD i []).getD j 0)) r) []
          .ok { d with a := (a1.setBlock b k (k + 1) g).setBlock b (k + 1) (k + 1) dn', piv := piv }

/-- Columns, or block columns, of a factorisation. -/
def Shape.cols (h : Shape) : Nat := h.n / h.blk

/-- One column or block column. -/
def elimStep (h : Shape) (t : Nat) (delta s : Int) (k : Nat) (e : Elim) : Except Nat Elim :=
  if h.cls = 3 then elimBlockCol h t delta s k e else elimCol t delta (min (k + h.kl) (h.n - 1)) k e

/-- Work cycles of a column (Table 9.6). -/
def Shape.colWork (h : Shape) (k : Nat) : Nat :=
  let m := h.n - k - 1
  match h.cls with
  | 0 => ceilDiv (m * m) 512 + 4
  | 1 => ceilDiv (min h.klb m * min (h.klb + h.ku) m) 512 + 4
  | 2 => 1
  | _ => ceilDiv (7 * h.blk ^ 3) 1536 + 16

/-- The solve volume Q. -/
def Shape.vol (h : Shape) : Nat :=
  (match h.cls with
   | 0 => h.n * h.n
   | 1 => h.n * (2 * h.klb + h.ku + 1)
   | 2 => 4 * h.n
   | _ => 3 * (h.n / h.blk) * h.blk ^ 2) * h.nrhs

/-- Work cycles of iteration 0. -/
def Shape.work0 (h : Shape) : Nat := ceilDiv h.vol 512 + 8
/-- Work cycles of a refinement iteration. -/
def Shape.workR (h : Shape) : Nat := ceilDiv (h.ents * h.nrhs) 512 + ceilDiv h.vol 512 + 8

/-- The solve of one right-hand side: `b` of scale `ty`, the result of scale `x`. In class 3 the forward sweep's vectors D^-1 × w are
intermediate vectors, of scale `ty` (R220, R226). -/
def Factor.solve (f : Factor) (h : Shape) (ty x : Int) (b : List Int) : Option (List Int) :=
  if h.cls ≠ 3 then triSolve f.lu h.kl f.piv ty f.s x b
  else
    let bs := h.blk
    let m := h.n / bs
    let fwd := (List.range m).foldl (fun (r : Option (List (List Int))) k =>
      match r with
      | none => none
      | some zs =>
        let l := f.lu.block bs k (k - 1)
        let z := zs.getD (k - 1) []
        let w := (List.range bs).map fun i =>
          if k = 0 then some (b.getD i 0)
          else
            let v := ((l.row i).foldl (fun (a : Dy) c => a.add ⟨-(c.2 * z.getD c.1 0), f.s + ty - 128⟩)
              (fxVal (b.getD (k * bs + i) 0) ty)).fx ty
            if fxOk v then some v else none
        match allSome w with
        | none => none
        | some w =>
          match triSolve (f.lu.block bs k k) (bs - 1) (((f.piv.drop (k * bs)).take bs).map (· - k * bs)) ty f.s ty w with
          | none => none
          | some z => some (zs ++ [z])) (some [])
    match fwd with
    | none => none
    | some zs =>
      (List.range m).reverse.foldl (fun (r : Option (List Int)) k =>
        match r with
        | none => none
        | some below =>
          let g : Rows := if k + 1 = m then [] else f.lu.block bs k (k + 1)
          match allSome ((List.range bs).map fun i =>
            let v := ((g.row i).foldl (fun (z : Dy) c => z.add ⟨-(c.2 * below.getD c.1 0), x - 128⟩)
              (fxVal ((zs.getD k []).getD i 0) ty)).fx x
            if fxOk v then some v else none) with
          | none => none
          | some xs => some (xs ++ below)) (some [])

/-! ### Refinement (R226) -/

/-- The residual of one right-hand side, rounded once to scale `t`. -/
def residual (a : Rows) (s t x : Int) (n : Nat) (b xs : List Int) : List Int :=
  (List.range n).map fun i =>
    ((a.row i).foldl (fun (z : Dy) c => z.add ⟨-(c.2 * xs.getD c.1 0), s + x - 128⟩) (fxVal (b.getD i 0) t)).fx t

/-- How refinement ends. -/
inductive RefEnd where
  | zero | limit | deadline | range | hw
  deriving DecidableEq, Repr

/-- Refinement: right-hand sides of scale `t`, iterates of scale `x`, iterations left, iterations run, charge so far; `hit` is the
iteration in which an error of the engine strikes (R233). -/
def refine (h : Shape) (f : Factor) (a : Rows) (s t x : Int) (bs : List (List Int)) (dl : Nat) (hit : Option Nat) :
    Nat → List (List Int) → Nat → Nat → RefEnd × List (List Int) × Nat × Nat
  | 0, xs, it, w => (.limit, xs, it, w)
  | m + 1, xs, it, w =>
    if dl ≠ 0 ∧ dl ≤ w then (.deadline, xs, it, w)
    else if hit = some it then (.hw, xs, it, w + h.workR)
    else
      let rs := (List.range h.nrhs).map fun r => residual a s t x h.n (bs.getD r []) (xs.getD r [])
      if !(rs.all fun r => r.all fxOk) then (.range, xs, it, w + h.workR)
      else match allSome (rs.map fun r => f.solve h t x r) with
        | none => (.range, xs, it, w + h.workR)
        | some ds =>
          let xs' := (List.range h.nrhs).map fun r => (List.range h.n).map fun i => (xs.getD r []).getD i 0 + (ds.getD r []).getD i 0
          if !(xs'.all fun r => r.all fxOk) then (.range, xs, it, w + h.workR)
          else if ds.all fun d => d.all (· == 0) then (.zero, xs', it + 1, w + h.workR)
          else refine h f a s t x bs dl hit m xs' (it + 1) (w + h.workR)

/-- Iterates moved to another scale: an exact shift to the left; to the right, rounded. -/
def rescale (x x' : Int) (xs : List (List Int)) : List (List Int) := xs.map fun r => r.map fun m => (fxVal m x).fx x'

/-- The scale of iterates: one more than the exponent of the largest; the scale they have when all are zero. -/
def scaleOf (x : Int) (xs : List (List Int)) : Int :=
  match maxExpo (xs.flatMap fun r => r.map fun m => fxVal m x) with
  | some e => e + 1
  | none => x

/-- How a factorisation ends. -/
inductive FactEnd where
  | ok (f : Factor)
  | deadline
  | range
  | hw
  deriving DecidableEq, Repr

/-- The columns of a factorisation, with the deadline's check at each boundary after the first (R228); an injected mismatch ends
it in its next step, an error of the engine in the column `hit` (R233). -/
def factCols (h : Shape) (t : Nat) (delta s : Int) (dl : Nat) (inj : Bool) (hit : Option Nat) :
    List Nat → Elim → Nat → FactEnd × Elim × Nat
  | [], e, w =>
    (match e.pmin with
     | some p => .ok { s := s, p := (p : Int) + s - 64, lu := e.a, piv := e.piv }
     | none => .range, e, w)
  | k :: ks, e, w =>
    if k ≠ 0 ∧ dl ≠ 0 ∧ dl ≤ w then (.deadline, e, w)
    else if inj ∨ hit = some k then (.hw, e, w + h.colWork k)
    else match elimStep h t delta s k e with
      | .error n => (.range, { e with regs := n }, w + h.colWork k)
      | .ok e' => factCols h t delta s dl inj hit ks e' (w + h.colWork k)

end Sys2Proof.Machine
end

