-- ==== Sys2Proof/Machine/Regs.lean ====
section
/-! DEFINITION. The register pages of BAR0 as data: every page, every field with its bits, access code and reset value
(R9, R438, R439 and the page tables of the spec). Where a table gives no reset value the value here is the model's, named in
assumption log 3. Reserved bits have no entry. -/

namespace Sys2Proof.Machine

/-- Access codes (R9, Table 0.3); `timed` is a read-only field whose value the hardware measures in time or by analogue
means: no rule gives it, so a read answers a free value (assumption log 4). -/
inductive Acc where
  | ro | rw | w1c | wo | rwp | rwl | timed
  deriving DecidableEq, Repr

/-- What a field survives (R439): nothing; a warm reset and Retention; every reset and every loss of power. -/
inductive Keep where
  | no | warm | always
  deriving DecidableEq, Repr

/-- Block classes of Table 19.1. -/
inductive Blk where
  | pkg | pst | bridge | mode | safe | eqx | snap | pwr | ctl | sec | boot | cxl | ring | port | win | hz | can | nand | solv | mem | prot | scrub | msc | stk | view | copy | grove
  deriving DecidableEq, Repr

/-- One field of a page table: byte offset of its register, its bits in that register, access code, reset value. -/
structure RegF where
  off : Nat
  hi : Nat
  lo : Nat
  acc : Acc
  reset : Nat
  keep : Keep
  deriving DecidableEq, Repr

/-- A field of one page: where the model reads and writes it. -/
structure Fld where
  page : Nat
  off : Nat
  hi : Nat
  lo : Nat
  deriving DecidableEq, Repr

/-- The BLK_ID type code of a class (Table 19.1). -/
def Blk.typeCode : Blk → Nat
  | .pkg => 0x0001
  | .pst => 0x0002
  | .bridge => 0x0003
  | .mode => 0x0004
  | .safe => 0x0005
  | .eqx => 0x0006
  | .snap => 0x0007
  | .pwr => 0x0008
  | .ctl => 0x0010
  | .sec => 0x0011
  | .boot => 0x0012
  | .cxl => 0x0013
  | .ring => 0x0014
  | .port => 0x0020
  | .win => 0x0021
  | .hz => 0x0022
  | .can => 0x0023
  | .nand => 0x0024
  | .solv => 0x0030
  | .mem => 0x0040
  | .prot => 0x0041
  | .scrub => 0x0042
  | .msc => 0x0043
  | .stk => 0x0044
  | .view => 0x0045
  | .copy => 0x0046
  | .grove => 0x0050

/-- The block and instance of a page index; `none`: a reserved page (R438, Table 19.1). -/
def pageBlk (p : Nat) : Option (Blk × Nat) :=
  if p = 0x000 then some (.pkg, 0) else if p = 0x001 then some (.pst, 0)
  else if p = 0x008 ∨ p = 0x009 then some (.bridge, p - 0x008)
  else if p = 0x00A then some (.mode, 0) else if p = 0x00B then some (.safe, 0) else if p = 0x00C then some (.eqx, 0)
  else if p = 0x00D then some (.snap, 0) else if p = 0x00E then some (.pwr, 0) else if p = 0x010 then some (.ctl, 0)
  else if p = 0x018 then some (.sec, 0) else if p = 0x020 then some (.boot, 0) else if p = 0x030 then some (.cxl, 0)
  else if p = 0x031 then some (.ring, 0)
  else if 0x040 ≤ p ∧ p < 0x050 then some (.port, p - 0x040)
  else if p = 0x050 then some (.win, 0) else if p = 0x060 then some (.hz, 0) else if p = 0x061 then some (.can, 0)
  else if p = 0x068 then some (.nand, 0)
  else if 0x080 ≤ p ∧ p < 0x0C0 then some (.solv, p - 0x080)
  else if 0x0C0 ≤ p ∧ p < 0x100 then
    match (p - 0x0C0) % 8 with
    | 0 => some (.mem, (p - 0x0C0) / 8)
    | 1 => some (.prot, (p - 0x0C0) / 8)
    | 2 => some (.scrub, (p - 0x0C0) / 8)
    | 3 => some (.msc, (p - 0x0C0) / 8)
    | 4 => some (.stk, (p - 0x0C0) / 8)
    | 5 => some (.view, (p - 0x0C0) / 8)
    | 6 => some (.copy, (p - 0x0C0) / 8)
    | _ => none
  else if 0x100 ≤ p ∧ p < 0x200 then some (.grove, p - 0x100)
  else none

/-- The pages whose BLK_ERRINJ acts (Table 18.8, R176): BLK_CAP.INJ. -/
def Blk.hasInj : Blk → Bool
  | .grove | .solv | .msc | .stk | .prot | .ctl | .sec | .pwr | .port | .eqx => true
  | _ => false

/-- The common page header (Table 19.2). BLK_VER is 1.0 as minimum and maximum (R441). PWR_EST and POWER are the model's 0. -/
def headerFields (b : Blk) (inst : Nat) : List RegF :=
  [⟨0x00, 15, 0, .ro, inst, .no⟩, ⟨0x00, 31, 16, .ro, b.typeCode, .no⟩, ⟨0x04, 31, 0, .ro, 0x01000100, .no⟩,
   ⟨0x08, 15, 0, .rw, 0x0100, .no⟩, ⟨0x0C, 0, 0, .ro, b.hasInj.toNat, .no⟩, ⟨0x0C, 1, 1, .ro, 0, .no⟩,
   ⟨0x10, 0, 0, .rw, 0, .no⟩, ⟨0x14, 1, 0, .ro, 0, .no⟩, ⟨0x18, 4, 0, .w1c, 0, .no⟩, ⟨0x1C, 4, 0, .rw, 0, .no⟩,
   ⟨0x24, 31, 0, .ro, 0, .no⟩, ⟨0x28, 63, 0, .timed, 0, .no⟩, ⟨0x30, 63, 0, .timed, 0, .no⟩,
   ⟨0x38, 1, 0, .ro, 0, .no⟩, ⟨0x38, 31, 16, .ro, 0, .no⟩] ++
  (if b = .prot then [] else [⟨0x20, 3, 0, .rw, 0, .no⟩, ⟨0x20, 15, 8, .rw, 0, .no⟩])

/-- The fields of the page after its header (Table 19.5). -/
def pkgFields : List RegF :=
  [⟨0x40, 15, 0, .rwp, 0xFFFF, .always⟩, ⟨0x44, 15, 0, .ro, 0xFFFF, .warm⟩, ⟨0x48, 15, 0, .ro, 0, .no⟩,
   ⟨0x48, 16, 16, .ro, 0, .no⟩, ⟨0x50, 63, 0, .ro, 0, .no⟩, ⟨0x58, 63, 0, .ro, 0, .no⟩, ⟨0x60, 63, 0, .timed, 0, .no⟩,
   ⟨0x68, 0, 0, .rwl, 1, .no⟩, ⟨0x68, 1, 1, .rwl, 1, .no⟩, ⟨0x68, 2, 2, .rwl, 1, .no⟩, ⟨0x6C, 8, 0, .ro, 0, .no⟩,
   ⟨0x6C, 9, 9, .ro, 0, .no⟩, ⟨0x70, 7, 0, .ro, 0, .always⟩, ⟨0x70, 15, 8, .ro, 0, .always⟩]

/-- The fields of the page after its header (Table 19.7). -/
def pstFields : List RegF :=
  [⟨0x40, 0, 0, .ro, 0, .no⟩, ⟨0x40, 1, 1, .ro, 0, .always⟩, ⟨0x40, 2, 2, .ro, 0, .always⟩, ⟨0x40, 3, 3, .w1c, 0, .no⟩,
   ⟨0x40, 4, 4, .w1c, 0, .no⟩, ⟨0x40, 12, 8, .ro, 0, .no⟩, ⟨0x40, 20, 16, .ro, 0, .no⟩, ⟨0x48, 63, 0, .ro, 0, .warm⟩,
   ⟨0x50, 31, 0, .ro, 0, .no⟩] ++
  (List.range 22).flatMap fun i => [⟨0x100 + 8 * i, 31, 0, .ro, 0, .always⟩, ⟨0x100 + 8 * i, 32, 32, .ro, 0, .always⟩, ⟨0x100 + 8 * i, 33, 33, .ro, 0, .always⟩]

/-- The fields of the page after its header (R174). -/
def bridgeFields : List RegF :=
  [⟨0x40, 31, 0, .ro, 0, .no⟩]

/-- The fields of the page after its header (Table 13.5). -/
def modeFields : List RegF :=
  [⟨0x40, 0, 0, .rw, 0, .no⟩, ⟨0x40, 1, 1, .rw, 0, .no⟩, ⟨0x40, 2, 2, .rw, 0, .no⟩, ⟨0x44, 31, 0, .rw, 0, .no⟩,
   ⟨0x48, 0, 0, .wo, 0, .no⟩, ⟨0x48, 1, 1, .wo, 0, .no⟩, ⟨0x4C, 11, 0, .rw, 0, .no⟩, ⟨0x4C, 12, 12, .rw, 0, .no⟩,
   ⟨0x50, 63, 0, .rw, 0, .no⟩, ⟨0x58, 0, 0, .ro, 0, .no⟩, ⟨0x58, 1, 1, .ro, 0, .no⟩, ⟨0x58, 2, 2, .ro, 0, .no⟩,
   ⟨0x5C, 31, 0, .ro, 0, .no⟩, ⟨0x60, 0, 0, .ro, 0, .no⟩, ⟨0x60, 1, 1, .ro, 0, .no⟩, ⟨0x60, 2, 2, .w1c, 0, .no⟩,
   ⟨0x60, 3, 3, .w1c, 0, .no⟩, ⟨0x60, 19, 12, .ro, 0, .no⟩, ⟨0x60, 28, 20, .ro, 0, .no⟩, ⟨0x68, 63, 0, .ro, 0, .no⟩,
   ⟨0x70, 63, 0, .ro, 0, .no⟩, ⟨0x78, 63, 0, .ro, 0, .no⟩]

/-- The fields of the page after its header (Table 18.9). -/
def safeFields : List RegF :=
  [⟨0x40, 0, 0, .ro, 0, .no⟩, ⟨0x40, 1, 1, .ro, 0, .no⟩, ⟨0x40, 2, 2, .rw, 0, .no⟩, ⟨0x40, 3, 3, .wo, 0, .no⟩,
   ⟨0x40, 4, 4, .w1c, 0, .warm⟩, ⟨0x40, 15, 8, .ro, 0, .warm⟩, ⟨0x40, 17, 16, .ro, 0, .warm⟩,
   ⟨0x48, 63, 0, .ro, 0, .warm⟩, ⟨0x50, 63, 0, .ro, 0, .warm⟩, ⟨0x58, 31, 0, .timed, 0, .no⟩,
   ⟨0x5C, 31, 0, .timed, 0, .no⟩, ⟨0x60, 31, 0, .timed, 0, .no⟩] ++
  (List.range 8).map fun i => ⟨0x80 + 8 * i, 63, 0, .ro, 0, .always⟩

/-- The fields of the page after its header (Table 10.7). -/
def eqxFields : List RegF :=
  [⟨0x40, 11, 0, .rw, 0, .no⟩, ⟨0x40, 16, 16, .rw, 0, .no⟩, ⟨0x44, 13, 0, .rw, 0, .no⟩, ⟨0x48, 63, 6, .rw, 0, .no⟩,
   ⟨0x50, 0, 0, .ro, 0, .no⟩, ⟨0x50, 1, 1, .ro, 0, .no⟩, ⟨0x50, 2, 2, .ro, 0, .no⟩, ⟨0x50, 3, 3, .ro, 0, .no⟩,
   ⟨0x50, 4, 4, .ro, 0, .no⟩, ⟨0x58, 63, 0, .ro, 0, .no⟩, ⟨0x60, 63, 0, .ro, 0, .no⟩, ⟨0x68, 63, 0, .ro, 0, .no⟩,
   ⟨0x70, 63, 0, .ro, 0, .no⟩, ⟨0x78, 63, 0, .ro, 0, .no⟩, ⟨0x80, 63, 0, .ro, 0, .no⟩, ⟨0x88, 31, 0, .timed, 0, .no⟩]

/-- The fields of the page after its header (Table 14.11). -/
def snapFields : List RegF :=
  [⟨0x40, 11, 0, .rw, 0, .no⟩, ⟨0x40, 12, 12, .rw, 0, .no⟩, ⟨0x40, 14, 13, .rw, 0, .no⟩, ⟨0x40, 15, 15, .rw, 0, .no⟩,
   ⟨0x44, 0, 0, .wo, 0, .no⟩, ⟨0x44, 1, 1, .wo, 0, .no⟩, ⟨0x44, 2, 2, .wo, 0, .no⟩, ⟨0x44, 3, 3, .wo, 0, .no⟩,
   ⟨0x48, 63, 6, .rw, 0, .no⟩, ⟨0x50, 12, 0, .rw, 0, .no⟩, ⟨0x54, 5, 0, .rwp, 0, .always⟩, ⟨0x54, 13, 8, .ro, 0, .warm⟩,
   ⟨0x58, 63, 0, .rw, 0, .no⟩, ⟨0x60, 63, 0, .rw, 0, .no⟩, ⟨0x68, 0, 0, .ro, 0, .no⟩, ⟨0x68, 1, 1, .ro, 0, .no⟩,
   ⟨0x68, 3, 2, .ro, 0, .no⟩, ⟨0x68, 4, 4, .ro, 0, .no⟩, ⟨0x68, 5, 5, .ro, 0, .no⟩, ⟨0x68, 6, 6, .ro, 0, .no⟩,
   ⟨0x68, 7, 7, .ro, 0, .no⟩, ⟨0x68, 15, 8, .ro, 0, .no⟩, ⟨0x68, 23, 16, .ro, 0, .no⟩, ⟨0x70, 63, 0, .ro, 1, .no⟩,
   ⟨0x78, 63, 0, .ro, 0, .no⟩, ⟨0x80, 63, 0, .ro, 0, .no⟩, ⟨0x88, 63, 0, .ro, 0, .no⟩, ⟨0x90, 31, 0, .timed, 0, .no⟩,
   ⟨0x94, 31, 0, .ro, 0, .no⟩, ⟨0x98, 63, 0, .ro, 0, .no⟩, ⟨0xA0, 63, 0, .ro, 0, .no⟩, ⟨0xA8, 63, 4, .rw, 0, .no⟩,
   ⟨0xB0, 4, 0, .rw, 0, .no⟩]

/-- The fields of the page after its header (Table 16.12). -/
def pwrFields : List RegF :=
  [⟨0x40, 11, 0, .rw, 1800, .no⟩, ⟨0x44, 11, 0, .rwp, 1800, .always⟩, ⟨0x48, 0, 0, .rw, 1, .no⟩,
   ⟨0x48, 1, 1, .rw, 0, .no⟩, ⟨0x48, 2, 2, .wo, 0, .no⟩, ⟨0x48, 3, 3, .wo, 0, .no⟩, ⟨0x48, 15, 8, .rw, 10, .no⟩,
   ⟨0x4C, 2, 0, .ro, 1, .no⟩, ⟨0x4C, 3, 3, .w1c, 0, .no⟩, ⟨0x4C, 9, 4, .ro, 0, .no⟩, ⟨0x4C, 19, 10, .ro, 940, .no⟩,
   ⟨0x4C, 20, 20, .ro, 0, .no⟩, ⟨0x4C, 21, 21, .ro, 1, .always⟩, ⟨0x4C, 22, 22, .ro, 0, .no⟩, ⟨0x50, 15, 0, .ro, 0, .always⟩,
   ⟨0x50, 31, 16, .timed, 0, .no⟩, ⟨0x54, 11, 0, .ro, 0, .no⟩, ⟨0x58, 31, 0, .ro, 0, .always⟩, ⟨0x5C, 7, 0, .rw, 100, .no⟩,
   ⟨0x60, 63, 0, .timed, 0, .no⟩, ⟨0x68, 7, 0, .ro, 0, .always⟩, ⟨0x6C, 0, 0, .ro, 0, .no⟩, ⟨0x70, 15, 0, .ro, 0, .no⟩,
   ⟨0x70, 31, 16, .ro, 0, .no⟩]

/-- The fields of the page after its header (Tables 3.10 and 3.14). -/
def ctlFields : List RegF :=
  [⟨0x40, 63, 6, .rw, 0, .no⟩, ⟨0x48, 4, 0, .rw, 0x04, .no⟩, ⟨0x48, 31, 31, .rw, 0, .no⟩, ⟨0x50, 31, 0, .ro, 0, .no⟩,
   ⟨0x54, 31, 0, .rw, 0, .no⟩] ++
  (List.range 48).flatMap fun i => [⟨0x100 + 4 * i, 0, 0, .rw, 0, .no⟩, ⟨0x100 + 4 * i, 1, 1, .ro, 1, .no⟩]

/-- The fields of the page after its header (Table 17.11). -/
def secFields : List RegF :=
  [⟨0x40, 1, 0, .ro, 2, .always⟩, ⟨0x40, 3, 2, .ro, 0, .no⟩, ⟨0x40, 6, 4, .ro, 0, .no⟩, ⟨0x40, 7, 7, .ro, 0, .always⟩,
   ⟨0x40, 8, 8, .ro, 0, .always⟩, ⟨0x40, 9, 9, .ro, 0, .always⟩, ⟨0x40, 10, 10, .ro, 0, .always⟩,
   ⟨0x44, 7, 0, .ro, 0, .always⟩, ⟨0x44, 15, 8, .ro, 0, .always⟩, ⟨0x44, 23, 16, .ro, 0, .always⟩,
   ⟨0x44, 31, 24, .ro, 0, .no⟩, ⟨0x48, 31, 0, .ro, 0, .no⟩, ⟨0x4C, 31, 0, .ro, 0, .no⟩, ⟨0x50, 63, 0, .ro, 0, .always⟩,
   ⟨0x58, 63, 0, .ro, 0, .always⟩, ⟨0x60, 2, 0, .ro, 0, .no⟩, ⟨0x60, 15, 8, .ro, 0, .no⟩, ⟨0x64, 31, 0, .ro, 0, .no⟩]

/-- The fields of the page after its header (Table 16.13). -/
def bootFields : List RegF :=
  [⟨0x40, 3, 0, .ro, 0, .no⟩, ⟨0x40, 7, 4, .ro, 0xF, .always⟩, ⟨0x40, 9, 8, .ro, 0, .always⟩,
   ⟨0x40, 10, 10, .ro, 0, .always⟩, ⟨0x40, 14, 11, .ro, 0, .always⟩, ⟨0x40, 15, 15, .ro, 0, .always⟩,
   ⟨0x40, 23, 16, .ro, 0, .always⟩, ⟨0x44, 0, 0, .rwp, 0, .always⟩, ⟨0x44, 1, 1, .rwp, 0, .always⟩,
   ⟨0x44, 2, 2, .rwp, 0, .always⟩, ⟨0x48, 0, 0, .wo, 0, .no⟩, ⟨0x4C, 31, 0, .timed, 0, .no⟩,
   ⟨0x50, 2, 0, .ro, 0, .warm⟩, ⟨0x50, 5, 3, .ro, 0, .warm⟩]

/-- The fields of the page after its header (Table 15.10). -/
def cxlFields : List RegF :=
  [⟨0x40, 1, 0, .ro, 0, .no⟩, ⟨0x40, 6, 2, .ro, 0, .no⟩, ⟨0x40, 7, 7, .ro, 0, .no⟩, ⟨0x40, 8, 8, .ro, 0, .no⟩,
   ⟨0x40, 9, 9, .ro, 0, .no⟩, ⟨0x40, 10, 10, .ro, 0, .no⟩, ⟨0x40, 11, 11, .ro, 0, .no⟩, ⟨0x40, 12, 12, .ro, 0, .no⟩,
   ⟨0x44, 0, 0, .rw, 0, .no⟩, ⟨0x48, 15, 0, .rw, 50, .no⟩, ⟨0x48, 31, 16, .rw, 10, .no⟩, ⟨0x50, 63, 0, .ro, 0, .no⟩,
   ⟨0x58, 31, 0, .ro, 0, .no⟩, ⟨0x5C, 31, 0, .ro, 0, .no⟩, ⟨0x60, 63, 0, .ro, 0, .no⟩, ⟨0x68, 63, 0, .ro, 0, .no⟩,
   ⟨0x70, 63, 0, .ro, 0, .no⟩, ⟨0x78, 63, 0, .ro, 0, .no⟩]

/-- The fields of the page after its header (Table 15.11). -/
def ringFields : List RegF :=
  [⟨0x40, 47, 12, .rw, 0, .no⟩, ⟨0x48, 3, 0, .rw, 4, .no⟩, ⟨0x48, 31, 31, .rw, 0, .no⟩, ⟨0x4C, 31, 0, .ro, 0, .no⟩,
   ⟨0x50, 63, 0, .ro, 0, .no⟩, ⟨0x58, 7, 0, .ro, 0, .no⟩]

/-- The fields of the page after its header (Table 11.15). -/
def portFields : List RegF :=
  [⟨0x40, 0, 0, .rw, 1, .no⟩, ⟨0x40, 1, 1, .wo, 0, .no⟩, ⟨0x40, 3, 2, .rw, 1, .no⟩, ⟨0x40, 7, 4, .rw, 0, .no⟩,
   ⟨0x44, 2, 0, .ro, 0, .no⟩, ⟨0x44, 4, 3, .ro, 0, .no⟩, ⟨0x44, 7, 5, .ro, 0, .no⟩, ⟨0x44, 8, 8, .ro, 0, .no⟩,
   ⟨0x44, 9, 9, .ro, 0, .no⟩, ⟨0x44, 31, 16, .ro, 0xFFFF, .no⟩, ⟨0x48, 63, 0, .ro, 0, .no⟩,
   ⟨0x50, 63, 0, .ro, 0, .no⟩, ⟨0x58, 63, 0, .ro, 0, .no⟩, ⟨0x60, 31, 0, .ro, 0, .no⟩, ⟨0x64, 31, 0, .ro, 0, .no⟩]

/-- The fields of the page after its header (Table 11.16). -/
def winFields : List RegF :=
  [⟨0x40, 14, 0, .ro, 0, .no⟩, ⟨0x44, 13, 0, .rw, 1000, .no⟩, ⟨0x48, 15, 0, .rw, 1000, .no⟩, ⟨0x50, 18, 0, .ro, 0, .no⟩,
   ⟨0x54, 18, 0, .ro, 0, .warm⟩, ⟨0x54, 31, 31, .wo, 0, .no⟩, ⟨0x58, 63, 0, .ro, 0, .no⟩, ⟨0x60, 7, 0, .ro, 0, .no⟩,
   ⟨0x60, 11, 8, .ro, 0, .no⟩, ⟨0x60, 31, 16, .ro, 0, .no⟩, ⟨0x60, 63, 32, .ro, 0, .no⟩, ⟨0x68, 63, 0, .ro, 0, .no⟩,
   ⟨0x70, 63, 0, .ro, 0, .no⟩, ⟨0x78, 63, 0, .ro, 0, .no⟩]

/-- The fields of the page after its header (Table 12.12). -/
def hzFields : List RegF :=
  [⟨0x40, 15, 0, .rw, 100, .no⟩, ⟨0x44, 6, 0, .ro, 0, .no⟩, ⟨0x44, 24, 16, .ro, 0, .no⟩, ⟨0x48, 63, 0, .ro, 0, .no⟩,
   ⟨0x50, 63, 0, .ro, 0, .no⟩, ⟨0x58, 7, 0, .ro, 0, .no⟩, ⟨0x58, 19, 8, .ro, 0, .no⟩, ⟨0x60, 63, 0, .ro, 0, .no⟩]

/-- The fields of the page after its header (Table 12.12). -/
def canFields : List RegF :=
  [⟨0x40, 1, 0, .wo, 0, .no⟩, ⟨0x48, 63, 6, .rw, 0, .no⟩, ⟨0x50, 2, 0, .ro, 0, .no⟩, ⟨0x50, 15, 8, .ro, 0, .no⟩,
   ⟨0x50, 16, 16, .ro, 0, .no⟩, ⟨0x54, 14, 0, .ro, 0, .no⟩, ⟨0x54, 31, 16, .ro, 0xFFFF, .no⟩,
   ⟨0x58, 31, 0, .ro, 0, .no⟩, ⟨0x5C, 31, 0, .ro, 0, .no⟩, ⟨0x60, 15, 0, .ro, 0, .no⟩, ⟨0x60, 31, 16, .ro, 0, .no⟩,
   ⟨0x64, 15, 0, .ro, 0, .no⟩]

/-- The fields of the page after its header (Table 14.12). -/
def nandFields : List RegF :=
  [⟨0x40, 3, 0, .ro, 8, .always⟩, ⟨0x40, 7, 4, .ro, 1, .always⟩, ⟨0x40, 19, 8, .ro, 800, .always⟩,
   ⟨0x40, 20, 20, .ro, 0, .always⟩, ⟨0x48, 63, 0, .ro, 16000000000000, .always⟩, ⟨0x50, 63, 0, .ro, 0, .always⟩,
   ⟨0x58, 31, 0, .ro, 0, .always⟩, ⟨0x5C, 31, 0, .ro, 3000, .always⟩, ⟨0x60, 31, 0, .ro, 0, .always⟩,
   ⟨0x64, 31, 0, .ro, 64, .always⟩, ⟨0x68, 31, 0, .ro, 0, .no⟩, ⟨0x6C, 31, 0, .ro, 0, .no⟩]

/-- The fields of the page after its header (Table 9.10). -/
def solvFields : List RegF :=
  [⟨0x40, 63, 7, .rw, 0, .no⟩, ⟨0x48, 3, 0, .rw, 4, .no⟩, ⟨0x48, 31, 31, .rw, 0, .no⟩, ⟨0x4C, 31, 0, .ro, 0, .no⟩,
   ⟨0x50, 63, 0, .ro, 0, .no⟩, ⟨0x58, 63, 0, .ro, 0, .no⟩, ⟨0x60, 63, 0, .ro, 0, .no⟩, ⟨0x68, 63, 0, .ro, 0, .no⟩,
   ⟨0x70, 63, 0, .ro, 0, .no⟩, ⟨0x78, 63, 0, .ro, 0, .no⟩, ⟨0x80, 0, 0, .ro, 0, .no⟩, ⟨0x80, 1, 1, .ro, 0, .no⟩]

/-- The fields of the page after its header (Table 7.9). -/
def memFields : List RegF :=
  [⟨0x40, 11, 0, .ro, 0, .no⟩, ⟨0x40, 14, 12, .ro, 0, .no⟩, ⟨0x40, 15, 15, .ro, 0, .no⟩,
   ⟨0x40, 23, 16, .ro, 95, .always⟩, ⟨0x40, 31, 24, .ro, 105, .always⟩, ⟨0x44, 11, 0, .ro, 0, .warm⟩,
   ⟨0x44, 31, 31, .wo, 0, .no⟩, ⟨0x48, 63, 0, .timed, 0, .no⟩, ⟨0x50, 63, 0, .timed, 0, .no⟩,
   ⟨0x58, 63, 0, .ro, 0, .no⟩, ⟨0x60, 63, 0, .ro, 0, .no⟩, ⟨0x68, 7, 0, .ro, 0x50, .no⟩, ⟨0x6C, 31, 0, .ro, 0, .no⟩]

/-- The fields of the page after its header (Table 7.10). -/
def protFields : List RegF :=
  [⟨0x20, 0, 0, .rw, 0, .no⟩, ⟨0x20, 1, 1, .rw, 0, .no⟩, ⟨0x20, 5, 2, .rw, 0, .no⟩, ⟨0x20, 9, 6, .rw, 0, .no⟩,
   ⟨0x20, 15, 10, .rw, 0, .no⟩, ⟨0x40, 63, 0, .ro, 0, .no⟩, ⟨0x48, 63, 0, .ro, 0, .no⟩, ⟨0x50, 63, 0, .ro, 0, .no⟩,
   ⟨0x58, 15, 0, .rw, 16, .no⟩, ⟨0x58, 23, 16, .rw, 10, .no⟩, ⟨0x5C, 7, 0, .rw, 4, .no⟩, ⟨0x5C, 8, 8, .rw, 1, .no⟩,
   ⟨0x60, 10, 0, .ro, 0, .no⟩, ⟨0x60, 11, 11, .ro, 0, .no⟩, ⟨0x60, 12, 12, .ro, 0, .no⟩, ⟨0x60, 18, 13, .ro, 0, .no⟩,
   ⟨0x60, 26, 19, .ro, 0, .no⟩, ⟨0x68, 5, 0, .ro, 0, .no⟩, ⟨0x68, 11, 6, .ro, 0, .no⟩, ⟨0x68, 26, 12, .ro, 0, .no⟩,
   ⟨0x68, 30, 27, .ro, 0, .no⟩, ⟨0x68, 31, 31, .w1c, 0, .no⟩, ⟨0x6C, 5, 0, .ro, 0, .no⟩, ⟨0x6C, 11, 6, .ro, 0, .no⟩,
   ⟨0x6C, 26, 12, .ro, 0, .no⟩, ⟨0x6C, 30, 27, .ro, 0, .no⟩, ⟨0x6C, 31, 31, .w1c, 0, .no⟩, ⟨0x70, 63, 0, .ro, 0, .no⟩]

/-- The fields of the page after its header (Table 7.11). -/
def scrubFields : List RegF :=
  [⟨0x40, 7, 0, .rw, 60, .no⟩, ⟨0x48, 63, 0, .ro, 0, .no⟩, ⟨0x50, 63, 0, .ro, 0, .warm⟩, ⟨0x58, 63, 0, .timed, 0, .no⟩,
   ⟨0x60, 63, 0, .ro, 0, .warm⟩]

/-- The fields of the page after its header (Table 8.11). -/
def mscFields : List RegF :=
  [⟨0x40, 8, 0, .ro, 0, .no⟩, ⟨0x40, 24, 16, .ro, 0, .warm⟩, ⟨0x40, 31, 31, .wo, 0, .no⟩, ⟨0x48, 63, 0, .timed, 0, .no⟩,
   ⟨0x50, 63, 0, .timed, 0, .no⟩, ⟨0x58, 31, 0, .ro, 0, .no⟩]

/-- The fields of the page after its header (Table 8.12). -/
def stkFields : List RegF :=
  [⟨0x40, 15, 0, .ro, 0, .no⟩, ⟨0x48, 63, 0, .timed, 0, .no⟩]

/-- The fields of the page after its header (Table 8.13). -/
def viewFields : List RegF :=
  [⟨0x40, 7, 0, .ro, 0, .no⟩, ⟨0x48, 63, 0, .ro, 0, .no⟩, ⟨0x50, 63, 0, .ro, 0, .no⟩]

/-- The fields of the page after its header (Table 8.14). -/
def copyFields : List RegF :=
  [⟨0x40, 63, 6, .rw, 0, .no⟩, ⟨0x48, 3, 0, .rw, 4, .no⟩, ⟨0x48, 31, 31, .rw, 0, .no⟩, ⟨0x4C, 31, 0, .ro, 0, .no⟩,
   ⟨0x50, 0, 0, .ro, 0, .no⟩, ⟨0x50, 1, 1, .ro, 0, .no⟩, ⟨0x50, 10, 8, .ro, 0, .no⟩]

/-- The fields of the page after its header (Tables 6.2 and 20.3). -/
def groveFields : List RegF :=
  [⟨0x40, 1, 0, .rw, 1, .no⟩, ⟨0x40, 3, 2, .ro, 1, .no⟩, ⟨0x44, 0, 0, .wo, 0, .no⟩, ⟨0x44, 1, 1, .wo, 0, .no⟩,
   ⟨0x44, 3, 2, .ro, 0, .no⟩, ⟨0x44, 5, 4, .ro, 0, .no⟩]

/-- The fields of a class after the header. -/
def Blk.fields : Blk → List RegF
  | .pkg => pkgFields
  | .pst => pstFields
  | .bridge => bridgeFields
  | .mode => modeFields
  | .safe => safeFields
  | .eqx => eqxFields
  | .snap => snapFields
  | .pwr => pwrFields
  | .ctl => ctlFields
  | .sec => secFields
  | .boot => bootFields
  | .cxl => cxlFields
  | .ring => ringFields
  | .port => portFields
  | .win => winFields
  | .hz => hzFields
  | .can => canFields
  | .nand => nandFields
  | .solv => solvFields
  | .mem => memFields
  | .prot => protFields
  | .scrub => scrubFields
  | .msc => mscFields
  | .stk => stkFields
  | .view => viewFields
  | .copy => copyFields
  | .grove => groveFields

/-! Names of the fields of Table 19.5. -/

def fPkg_PKG_ID : Fld := ⟨0x000, 0x40, 15, 0⟩
def fPkg_PKG_ID_APPLIED : Fld := ⟨0x000, 0x44, 15, 0⟩
def fPkg_JOB : Fld := ⟨0x000, 0x48, 15, 0⟩
def fPkg_JOB_PRESENT : Fld := ⟨0x000, 0x48, 16, 16⟩
def fPkg_TROOT : Fld := ⟨0x000, 0x50, 63, 0⟩
def fPkg_STEP : Fld := ⟨0x000, 0x58, 63, 0⟩
def fPkg_TIMESTAMP : Fld := ⟨0x000, 0x60, 63, 0⟩
def fPkg_SRC_HOST : Fld := ⟨0x000, 0x68, 0, 0⟩
def fPkg_SRC_SUPER : Fld := ⟨0x000, 0x68, 1, 1⟩
def fPkg_SRC_BMC : Fld := ⟨0x000, 0x68, 2, 2⟩
def fPkg_ERR_PAGE : Fld := ⟨0x000, 0x6C, 8, 0⟩
def fPkg_ERR_SET : Fld := ⟨0x000, 0x6C, 9, 9⟩
def fPkg_STEPPING : Fld := ⟨0x000, 0x70, 7, 0⟩
def fPkg_CARRIER : Fld := ⟨0x000, 0x70, 15, 8⟩

/-! Names of the fields of Table 19.7. -/

def fPst_BUSY : Fld := ⟨0x001, 0x40, 0, 0⟩
def fPst_LIMIT_ANY : Fld := ⟨0x001, 0x40, 1, 1⟩
def fPst_NEAR_ANY : Fld := ⟨0x001, 0x40, 2, 2⟩
def fPst_DENIED : Fld := ⟨0x001, 0x40, 3, 3⟩
def fPst_LOST : Fld := ⟨0x001, 0x40, 4, 4⟩
def fPst_LAST_IDX : Fld := ⟨0x001, 0x40, 12, 8⟩
def fPst_LOST_IDX : Fld := ⟨0x001, 0x40, 20, 16⟩
def fPst_COMMITS : Fld := ⟨0x001, 0x48, 63, 0⟩
def fPst_STORE_CE : Fld := ⟨0x001, 0x50, 31, 0⟩

/-! Names of the fields of R174. -/

def fBridge_BRG_RETRY (i : Nat) : Fld := ⟨0x008 + i, 0x40, 31, 0⟩

/-! Names of the fields of Table 13.5. -/

def fMode_PROFILE : Fld := ⟨0x00A, 0x40, 0, 0⟩
def fMode_CAP_MODE : Fld := ⟨0x00A, 0x40, 1, 1⟩
def fMode_STRICT : Fld := ⟨0x00A, 0x40, 2, 2⟩
def fMode_STG_EPOCH : Fld := ⟨0x00A, 0x44, 31, 0⟩
def fMode_ARM : Fld := ⟨0x00A, 0x48, 0, 0⟩
def fMode_CANCEL : Fld := ⟨0x00A, 0x48, 1, 1⟩
def fMode_EP_GROUP : Fld := ⟨0x00A, 0x4C, 11, 0⟩
def fMode_AGREE_EN : Fld := ⟨0x00A, 0x4C, 12, 12⟩
def fMode_FWSET_EXP : Fld := ⟨0x00A, 0x50, 63, 0⟩
def fMode_A_PROFILE : Fld := ⟨0x00A, 0x58, 0, 0⟩
def fMode_A_CAP_MODE : Fld := ⟨0x00A, 0x58, 1, 1⟩
def fMode_A_STRICT : Fld := ⟨0x00A, 0x58, 2, 2⟩
def fMode_A_EPOCH : Fld := ⟨0x00A, 0x5C, 31, 0⟩
def fMode_ARMED : Fld := ⟨0x00A, 0x60, 0, 0⟩
def fMode_APPLYING : Fld := ⟨0x00A, 0x60, 1, 1⟩
def fMode_REVERTED : Fld := ⟨0x00A, 0x60, 2, 2⟩
def fMode_REFUSED : Fld := ⟨0x00A, 0x60, 3, 3⟩
def fMode_CODE : Fld := ⟨0x00A, 0x60, 19, 12⟩
def fMode_LATE_PAGE : Fld := ⟨0x00A, 0x60, 28, 20⟩
def fMode_FWSET : Fld := ⟨0x00A, 0x68, 63, 0⟩
def fMode_APPLIES : Fld := ⟨0x00A, 0x70, 63, 0⟩
def fMode_REVERTS : Fld := ⟨0x00A, 0x78, 63, 0⟩

/-! Names of the fields of Table 18.9. -/

def fSafe_SAFE : Fld := ⟨0x00B, 0x40, 0, 0⟩
def fSafe_FAULT : Fld := ⟨0x00B, 0x40, 1, 1⟩
def fSafe_INJ_EN : Fld := ⟨0x00B, 0x40, 2, 2⟩
def fSafe_FAULT_CLR : Fld := ⟨0x00B, 0x40, 3, 3⟩
def fSafe_OVERFLOW : Fld := ⟨0x00B, 0x40, 4, 4⟩
def fSafe_LAST_CLASS : Fld := ⟨0x00B, 0x40, 15, 8⟩
def fSafe_LAST_REACT : Fld := ⟨0x00B, 0x40, 17, 16⟩
def fSafe_LOG_SEQ : Fld := ⟨0x00B, 0x48, 63, 0⟩
def fSafe_DETECTIONS : Fld := ⟨0x00B, 0x50, 63, 0⟩
def fSafe_GROVE_WORST : Fld := ⟨0x00B, 0x58, 31, 0⟩
def fSafe_CORE_WORST : Fld := ⟨0x00B, 0x5C, 31, 0⟩
def fSafe_STACK_WORST : Fld := ⟨0x00B, 0x60, 31, 0⟩

/-! Names of the fields of Table 10.7. -/

def fEqx_EQ_GROUP : Fld := ⟨0x00C, 0x40, 11, 0⟩
def fEqx_EQ_EN : Fld := ⟨0x00C, 0x40, 16, 16⟩
def fEqx_EQ_WIN : Fld := ⟨0x00C, 0x44, 13, 0⟩
def fEqx_EQ_LIST : Fld := ⟨0x00C, 0x48, 63, 6⟩
def fEqx_VOTING : Fld := ⟨0x00C, 0x50, 0, 0⟩
def fEqx_REPAIRING : Fld := ⟨0x00C, 0x50, 1, 1⟩
def fEqx_STOPPED : Fld := ⟨0x00C, 0x50, 2, 2⟩
def fEqx_LAST_SKIP : Fld := ⟨0x00C, 0x50, 3, 3⟩
def fEqx_LAST_REPAIR : Fld := ⟨0x00C, 0x50, 4, 4⟩
def fEqx_VOTES : Fld := ⟨0x00C, 0x58, 63, 0⟩
def fEqx_SKIPS : Fld := ⟨0x00C, 0x60, 63, 0⟩
def fEqx_REPAIRS : Fld := ⟨0x00C, 0x68, 63, 0⟩
def fEqx_LAST_P : Fld := ⟨0x00C, 0x70, 63, 0⟩
def fEqx_PREF_DROP : Fld := ⟨0x00C, 0x78, 63, 0⟩
def fEqx_PROT_DROP : Fld := ⟨0x00C, 0x80, 63, 0⟩
def fEqx_SCAN_WORST : Fld := ⟨0x00C, 0x88, 31, 0⟩

/-! Names of the fields of Table 14.11. -/

def fSnap_SOL_GROUP : Fld := ⟨0x00D, 0x40, 11, 0⟩
def fSnap_SOL_EN : Fld := ⟨0x00D, 0x40, 12, 12⟩
def fSnap_FIRST_TIER : Fld := ⟨0x00D, 0x40, 14, 13⟩
def fSnap_HOLD_AFTER : Fld := ⟨0x00D, 0x40, 15, 15⟩
def fSnap_REQ : Fld := ⟨0x00D, 0x44, 0, 0⟩
def fSnap_CANCEL : Fld := ⟨0x00D, 0x44, 1, 1⟩
def fSnap_RELEASE : Fld := ⟨0x00D, 0x44, 2, 2⟩
def fSnap_RESTORE : Fld := ⟨0x00D, 0x44, 3, 3⟩
def fSnap_TT_BASE : Fld := ⟨0x00D, 0x48, 63, 6⟩
def fSnap_TT_COUNT : Fld := ⟨0x00D, 0x50, 12, 0⟩
def fSnap_RSV_GIB : Fld := ⟨0x00D, 0x54, 5, 0⟩
def fSnap_RSV_APPLIED : Fld := ⟨0x00D, 0x54, 13, 8⟩
def fSnap_RESTORE_GEN : Fld := ⟨0x00D, 0x58, 63, 0⟩
def fSnap_SERIES : Fld := ⟨0x00D, 0x60, 63, 0⟩
def fSnap_REQ_PEND : Fld := ⟨0x00D, 0x68, 0, 0⟩
def fSnap_PRE_PEND : Fld := ⟨0x00D, 0x68, 1, 1⟩
def fSnap_SRC : Fld := ⟨0x00D, 0x68, 3, 2⟩
def fSnap_COPYING : Fld := ⟨0x00D, 0x68, 4, 4⟩
def fSnap_DRAINING : Fld := ⟨0x00D, 0x68, 5, 5⟩
def fSnap_HELD : Fld := ⟨0x00D, 0x68, 6, 6⟩
def fSnap_RESTORING : Fld := ⟨0x00D, 0x68, 7, 7⟩
def fSnap_CODE : Fld := ⟨0x00D, 0x68, 15, 8⟩
def fSnap_RCODE : Fld := ⟨0x00D, 0x68, 23, 16⟩
def fSnap_GEN_NEXT : Fld := ⟨0x00D, 0x70, 63, 0⟩
def fSnap_GEN_COMMITTED : Fld := ⟨0x00D, 0x78, 63, 0⟩
def fSnap_GEN_AGREED : Fld := ⟨0x00D, 0x80, 63, 0⟩
def fSnap_CUT_STEP : Fld := ⟨0x00D, 0x88, 63, 0⟩
def fSnap_STALL_WORST : Fld := ⟨0x00D, 0x90, 31, 0⟩
def fSnap_NOTICES : Fld := ⟨0x00D, 0x94, 31, 0⟩
def fSnap_SNAP_BYTES : Fld := ⟨0x00D, 0x98, 63, 0⟩
def fSnap_ABANDONS : Fld := ⟨0x00D, 0xA0, 63, 0⟩
def fSnap_POOL_BASE : Fld := ⟨0x00D, 0xA8, 63, 4⟩
def fSnap_POOL_COUNT : Fld := ⟨0x00D, 0xB0, 4, 0⟩

/-! Names of the fields of Table 16.12. -/

def fPwr_CAP_W : Fld := ⟨0x00E, 0x40, 11, 0⟩
def fPwr_CAP_DEF : Fld := ⟨0x00E, 0x44, 11, 0⟩
def fPwr_IDLE_EN : Fld := ⟨0x00E, 0x48, 0, 0⟩
def fPwr_FREQ_EN : Fld := ⟨0x00E, 0x48, 1, 1⟩
def fPwr_RET_REQ : Fld := ⟨0x00E, 0x48, 2, 2⟩
def fPwr_RET_EXIT : Fld := ⟨0x00E, 0x48, 3, 3⟩
def fPwr_IDLE_T : Fld := ⟨0x00E, 0x48, 15, 8⟩
def fPwr_STATE : Fld := ⟨0x00E, 0x4C, 2, 0⟩
def fPwr_RET_REFUSED : Fld := ⟨0x00E, 0x4C, 3, 3⟩
def fPwr_GATE : Fld := ⟨0x00E, 0x4C, 9, 4⟩
def fPwr_ACLK : Fld := ⟨0x00E, 0x4C, 19, 10⟩
def fPwr_CAP_UNMET : Fld := ⟨0x00E, 0x4C, 20, 20⟩
def fPwr_IN_RANGE : Fld := ⟨0x00E, 0x4C, 21, 21⟩
def fPwr_TJ_THROT : Fld := ⟨0x00E, 0x4C, 22, 22⟩
def fPwr_IN_V : Fld := ⟨0x00E, 0x50, 15, 0⟩
def fPwr_IN_I : Fld := ⟨0x00E, 0x50, 31, 16⟩
def fPwr_IN_P : Fld := ⟨0x00E, 0x54, 11, 0⟩
def fPwr_TJ : Fld := ⟨0x00E, 0x58, 31, 0⟩
def fPwr_TJ_THR : Fld := ⟨0x00E, 0x5C, 7, 0⟩
def fPwr_TJ_TIME : Fld := ⟨0x00E, 0x60, 63, 0⟩
def fPwr_PROT_CAUSE : Fld := ⟨0x00E, 0x68, 7, 0⟩
def fPwr_PREEMPT_STUCK : Fld := ⟨0x00E, 0x6C, 0, 0⟩
def fPwr_PREEMPT_COAL : Fld := ⟨0x00E, 0x70, 15, 0⟩
def fPwr_SAFE_COAL : Fld := ⟨0x00E, 0x70, 31, 16⟩

/-! Names of the fields of Tables 3.10 and 3.14. -/

def fCtl_FQ_BASE : Fld := ⟨0x010, 0x40, 63, 6⟩
def fCtl_LOG2N : Fld := ⟨0x010, 0x48, 4, 0⟩
def fCtl_EN : Fld := ⟨0x010, 0x48, 31, 31⟩
def fCtl_FQ_PROD : Fld := ⟨0x010, 0x50, 31, 0⟩
def fCtl_FQ_CONS : Fld := ⟨0x010, 0x54, 31, 0⟩

/-! Names of the fields of Table 17.11. -/

def fSec_LC : Fld := ⟨0x018, 0x40, 1, 0⟩
def fSec_DBG : Fld := ⟨0x018, 0x40, 3, 2⟩
def fSec_SCOPE : Fld := ⟨0x018, 0x40, 6, 4⟩
def fSec_DBG_FUSE : Fld := ⟨0x018, 0x40, 7, 7⟩
def fSec_OWNER_SET : Fld := ⟨0x018, 0x40, 8, 8⟩
def fSec_OWN_REQ : Fld := ⟨0x018, 0x40, 9, 9⟩
def fSec_FUSE_PEND : Fld := ⟨0x018, 0x40, 10, 10⟩
def fSec_SVN_FUSE : Fld := ⟨0x018, 0x44, 7, 0⟩
def fSec_SVN_SLOT0 : Fld := ⟨0x018, 0x44, 15, 8⟩
def fSec_SVN_SLOT1 : Fld := ⟨0x018, 0x44, 23, 16⟩
def fSec_SVN_RUN : Fld := ⟨0x018, 0x44, 31, 24⟩
def fSec_UNLOCKS : Fld := ⟨0x018, 0x48, 31, 0⟩
def fSec_REC_FAIL : Fld := ⟨0x018, 0x4C, 31, 0⟩
def fSec_SERIAL_LO : Fld := ⟨0x018, 0x50, 63, 0⟩
def fSec_SERIAL_HI : Fld := ⟨0x018, 0x58, 63, 0⟩
def fSec_SESSIONS : Fld := ⟨0x018, 0x60, 2, 0⟩
def fSec_LAST_CODE : Fld := ⟨0x018, 0x60, 15, 8⟩
def fSec_KX_FAIL : Fld := ⟨0x018, 0x64, 31, 0⟩

/-! Names of the fields of Table 16.13. -/

def fBoot_STAGE : Fld := ⟨0x020, 0x40, 3, 0⟩
def fBoot_FAIL_STAGE : Fld := ⟨0x020, 0x40, 7, 4⟩
def fBoot_FAIL_COUNT : Fld := ⟨0x020, 0x40, 9, 8⟩
def fBoot_SERVICE_ONLY : Fld := ⟨0x020, 0x40, 10, 10⟩
def fBoot_ALT_USED : Fld := ⟨0x020, 0x40, 14, 11⟩
def fBoot_SLOT : Fld := ⟨0x020, 0x40, 15, 15⟩
def fBoot_CAUSE : Fld := ⟨0x020, 0x40, 23, 16⟩
def fBoot_SLOT_PREF : Fld := ⟨0x020, 0x44, 0, 0⟩
def fBoot_SHORT_TEST : Fld := ⟨0x020, 0x44, 1, 1⟩
def fBoot_CONSERV : Fld := ⟨0x020, 0x44, 2, 2⟩
def fBoot_CLR_FAIL : Fld := ⟨0x020, 0x48, 0, 0⟩
def fBoot_LAST_MS : Fld := ⟨0x020, 0x4C, 31, 0⟩
def fBoot_SPARES0 : Fld := ⟨0x020, 0x50, 2, 0⟩
def fBoot_SPARES1 : Fld := ⟨0x020, 0x50, 5, 3⟩

/-! Names of the fields of Table 15.10. -/

def fCxl_RATE : Fld := ⟨0x030, 0x40, 1, 0⟩
def fCxl_WIDTH : Fld := ⟨0x030, 0x40, 6, 2⟩
def fCxl_LO_FLIT : Fld := ⟨0x030, 0x40, 7, 7⟩
def fCxl_VIRAL : Fld := ⟨0x030, 0x40, 8, 8⟩
def fCxl_HOST_LOST : Fld := ⟨0x030, 0x40, 9, 9⟩
def fCxl_IDE_SECURE : Fld := ⟨0x030, 0x40, 10, 10⟩
def fCxl_MEM_EN : Fld := ⟨0x030, 0x40, 11, 11⟩
def fCxl_CACHE_EN : Fld := ⟨0x030, 0x40, 12, 12⟩
def fCxl_IDE_POL : Fld := ⟨0x030, 0x44, 0, 0⟩
def fCxl_HOST_MEM_TMO : Fld := ⟨0x030, 0x48, 15, 0⟩
def fCxl_BI_TMO : Fld := ⟨0x030, 0x48, 31, 16⟩
def fCxl_HDM_SIZE : Fld := ⟨0x030, 0x50, 63, 0⟩
def fCxl_VIRALS : Fld := ⟨0x030, 0x58, 31, 0⟩
def fCxl_LINK_DOWNS : Fld := ⟨0x030, 0x5C, 31, 0⟩
def fCxl_HOST_LINES_LOST : Fld := ⟨0x030, 0x60, 63, 0⟩
def fCxl_POISON_IN : Fld := ⟨0x030, 0x68, 63, 0⟩
def fCxl_BI_SENT : Fld := ⟨0x030, 0x70, 63, 0⟩
def fCxl_PROT_DROP : Fld := ⟨0x030, 0x78, 63, 0⟩

/-! Names of the fields of Table 15.11. -/

def fRing_HRING_BASE : Fld := ⟨0x031, 0x40, 47, 12⟩
def fRing_LOG2N : Fld := ⟨0x031, 0x48, 3, 0⟩
def fRing_EN : Fld := ⟨0x031, 0x48, 31, 31⟩
def fRing_HR_CONS : Fld := ⟨0x031, 0x4C, 31, 0⟩
def fRing_ENTRIES : Fld := ⟨0x031, 0x50, 63, 0⟩
def fRing_LAST_CODE : Fld := ⟨0x031, 0x58, 7, 0⟩

/-! Names of the fields of Table 11.15. -/

def fPort_EN (i : Nat) : Fld := ⟨0x040 + i, 0x40, 0, 0⟩
def fPort_RETRAIN (i : Nat) : Fld := ⟨0x040 + i, 0x40, 1, 1⟩
def fPort_ENC_POL (i : Nat) : Fld := ⟨0x040 + i, 0x40, 3, 2⟩
def fPort_TX_EQ (i : Nat) : Fld := ⟨0x040 + i, 0x40, 7, 4⟩
def fPort_STATE (i : Nat) : Fld := ⟨0x040 + i, 0x44, 2, 0⟩
def fPort_VERSION (i : Nat) : Fld := ⟨0x040 + i, 0x44, 4, 3⟩
def fPort_LANES (i : Nat) : Fld := ⟨0x040 + i, 0x44, 7, 5⟩
def fPort_ENC (i : Nat) : Fld := ⟨0x040 + i, 0x44, 8, 8⟩
def fPort_ENC_MISMATCH (i : Nat) : Fld := ⟨0x040 + i, 0x44, 9, 9⟩
def fPort_PEER_PKG (i : Nat) : Fld := ⟨0x040 + i, 0x44, 31, 16⟩
def fPort_FLIT_REPLAY (i : Nat) : Fld := ⟨0x040 + i, 0x48, 63, 0⟩
def fPort_FEC_CORR (i : Nat) : Fld := ⟨0x040 + i, 0x50, 63, 0⟩
def fPort_FEC_UNCORR (i : Nat) : Fld := ⟨0x040 + i, 0x58, 63, 0⟩
def fPort_AUTH_FAIL (i : Nat) : Fld := ⟨0x040 + i, 0x60, 31, 0⟩
def fPort_RETRAINS (i : Nat) : Fld := ⟨0x040 + i, 0x64, 31, 0⟩

/-! Names of the fields of Table 11.16. -/

def fWin_WIN_USED : Fld := ⟨0x050, 0x40, 14, 0⟩
def fWin_REM_TMO : Fld := ⟨0x050, 0x44, 13, 0⟩
def fWin_HOLD_MAX : Fld := ⟨0x050, 0x48, 15, 0⟩
def fWin_CTX_USE : Fld := ⟨0x050, 0x50, 18, 0⟩
def fWin_CTX_PEAK : Fld := ⟨0x050, 0x54, 18, 0⟩
def fWin_CLR : Fld := ⟨0x050, 0x54, 31, 31⟩
def fWin_REFUSED_IN : Fld := ⟨0x050, 0x58, 63, 0⟩
def fWin_CAUSE : Fld := ⟨0x050, 0x60, 7, 0⟩
def fWin_PORT : Fld := ⟨0x050, 0x60, 11, 8⟩
def fWin_TARGET : Fld := ⟨0x050, 0x60, 31, 16⟩
def fWin_HANDLE : Fld := ⟨0x050, 0x60, 63, 32⟩
def fWin_REM_LAST_VA : Fld := ⟨0x050, 0x68, 63, 0⟩
def fWin_TIMEOUTS : Fld := ⟨0x050, 0x70, 63, 0⟩
def fWin_LATE_RESP : Fld := ⟨0x050, 0x78, 63, 0⟩

/-! Names of the fields of Table 12.12. -/

def fHz_HZ_WARN : Fld := ⟨0x060, 0x40, 15, 0⟩
def fHz_HZ_ACTIVE : Fld := ⟨0x060, 0x44, 6, 0⟩
def fHz_HZ_STATES : Fld := ⟨0x060, 0x44, 24, 16⟩
def fHz_HZ_OPS : Fld := ⟨0x060, 0x48, 63, 0⟩
def fHz_HZ_ERRORS : Fld := ⟨0x060, 0x50, 63, 0⟩
def fHz_LAST_CAUSE : Fld := ⟨0x060, 0x58, 7, 0⟩
def fHz_LAST_GID : Fld := ⟨0x060, 0x58, 19, 8⟩
def fHz_HZ_REFUSED : Fld := ⟨0x060, 0x60, 63, 0⟩

/-! Names of the fields of Table 12.12. -/

def fCan_CMD : Fld := ⟨0x061, 0x40, 1, 0⟩
def fCan_MAN_ADDR : Fld := ⟨0x061, 0x48, 63, 6⟩
def fCan_STATE : Fld := ⟨0x061, 0x50, 2, 0⟩
def fCan_CODE : Fld := ⟨0x061, 0x50, 15, 8⟩
def fCan_ROOT : Fld := ⟨0x061, 0x50, 16, 16⟩
def fCan_CHUNKS_HELD : Fld := ⟨0x061, 0x54, 14, 0⟩
def fCan_PARENT : Fld := ⟨0x061, 0x54, 31, 16⟩
def fCan_DIGEST_FAIL : Fld := ⟨0x061, 0x58, 31, 0⟩
def fCan_MKEY_DROP : Fld := ⟨0x061, 0x5C, 31, 0⟩
def fCan_REPARENTS : Fld := ⟨0x061, 0x60, 15, 0⟩
def fCan_FAILED : Fld := ⟨0x061, 0x60, 31, 16⟩
def fCan_DONE_COUNT : Fld := ⟨0x061, 0x64, 15, 0⟩

/-! Names of the fields of Table 14.12. -/

def fNand_CHANNELS : Fld := ⟨0x068, 0x40, 3, 0⟩
def fNand_TARGETS : Fld := ⟨0x068, 0x40, 7, 4⟩
def fNand_RATE : Fld := ⟨0x068, 0x40, 19, 8⟩
def fNand_FORMATTED : Fld := ⟨0x068, 0x40, 20, 20⟩
def fNand_CAPACITY : Fld := ⟨0x068, 0x48, 63, 0⟩
def fNand_FREE : Fld := ⟨0x068, 0x50, 63, 0⟩
def fNand_WEAR_MAX : Fld := ⟨0x068, 0x58, 31, 0⟩
def fNand_WEAR_RATED : Fld := ⟨0x068, 0x5C, 31, 0⟩
def fNand_BAD_BLOCKS : Fld := ⟨0x068, 0x60, 31, 0⟩
def fNand_SPARE_BLOCKS : Fld := ⟨0x068, 0x64, 31, 0⟩
def fNand_PROG_FAIL : Fld := ⟨0x068, 0x68, 31, 0⟩
def fNand_READ_UNCORR : Fld := ⟨0x068, 0x6C, 31, 0⟩

/-! Names of the fields of Table 9.10. -/

def fSolv_JR_BASE (i : Nat) : Fld := ⟨0x080 + i, 0x40, 63, 7⟩
def fSolv_LOG2N (i : Nat) : Fld := ⟨0x080 + i, 0x48, 3, 0⟩
def fSolv_EN (i : Nat) : Fld := ⟨0x080 + i, 0x48, 31, 31⟩
def fSolv_JR_CONS (i : Nat) : Fld := ⟨0x080 + i, 0x4C, 31, 0⟩
def fSolv_JOBS (i : Nat) : Fld := ⟨0x080 + i, 0x50, 63, 0⟩
def fSolv_SYSTEMS (i : Nat) : Fld := ⟨0x080 + i, 0x58, 63, 0⟩
def fSolv_HANDOFF_CNT (i : Nat) : Fld := ⟨0x080 + i, 0x60, 63, 0⟩
def fSolv_REG_CNT (i : Nat) : Fld := ⟨0x080 + i, 0x68, 63, 0⟩
def fSolv_WARM_MISS (i : Nat) : Fld := ⟨0x080 + i, 0x70, 63, 0⟩
def fSolv_DEADLINE_CNT (i : Nat) : Fld := ⟨0x080 + i, 0x78, 63, 0⟩
def fSolv_ACTIVE (i : Nat) : Fld := ⟨0x080 + i, 0x80, 0, 0⟩
def fSolv_HELD (i : Nat) : Fld := ⟨0x080 + i, 0x80, 1, 1⟩

/-! Names of the fields of Table 7.9. -/

def fMem_TEMP (s : Nat) : Fld := ⟨0x0C0 + 8 * s, 0x40, 11, 0⟩
def fMem_STEP (s : Nat) : Fld := ⟨0x0C0 + 8 * s, 0x40, 14, 12⟩
def fMem_STOP (s : Nat) : Fld := ⟨0x0C0 + 8 * s, 0x40, 15, 15⟩
def fMem_T1 (s : Nat) : Fld := ⟨0x0C0 + 8 * s, 0x40, 23, 16⟩
def fMem_T2 (s : Nat) : Fld := ⟨0x0C0 + 8 * s, 0x40, 31, 24⟩
def fMem_PEAK (s : Nat) : Fld := ⟨0x0C0 + 8 * s, 0x44, 11, 0⟩
def fMem_CLR (s : Nat) : Fld := ⟨0x0C0 + 8 * s, 0x44, 31, 31⟩
def fMem_THROT_TIME (s : Nat) : Fld := ⟨0x0C0 + 8 * s, 0x48, 63, 0⟩
def fMem_STOP_TIME (s : Nat) : Fld := ⟨0x0C0 + 8 * s, 0x50, 63, 0⟩
def fMem_PC_STATE0 (s : Nat) : Fld := ⟨0x0C0 + 8 * s, 0x58, 63, 0⟩
def fMem_PC_STATE1 (s : Nat) : Fld := ⟨0x0C0 + 8 * s, 0x60, 63, 0⟩
def fMem_USER_GIB (s : Nat) : Fld := ⟨0x0C0 + 8 * s, 0x68, 7, 0⟩
def fMem_IF_RETRY (s : Nat) : Fld := ⟨0x0C0 + 8 * s, 0x6C, 31, 0⟩

/-! Names of the fields of Table 7.10. -/

def fProt_INJ_ARM (s : Nat) : Fld := ⟨0x0C1 + 8 * s, 0x20, 0, 0⟩
def fProt_INJ_UE (s : Nat) : Fld := ⟨0x0C1 + 8 * s, 0x20, 1, 1⟩
def fProt_INJ_COUNT (s : Nat) : Fld := ⟨0x0C1 + 8 * s, 0x20, 5, 2⟩
def fProt_INJ_LANE (s : Nat) : Fld := ⟨0x0C1 + 8 * s, 0x20, 9, 6⟩
def fProt_INJ_PC (s : Nat) : Fld := ⟨0x0C1 + 8 * s, 0x20, 15, 10⟩
def fProt_CE_COUNT (s : Nat) : Fld := ⟨0x0C1 + 8 * s, 0x40, 63, 0⟩
def fProt_UE_COUNT (s : Nat) : Fld := ⟨0x0C1 + 8 * s, 0x48, 63, 0⟩
def fProt_INNER_CNT (s : Nat) : Fld := ⟨0x0C1 + 8 * s, 0x50, 63, 0⟩
def fProt_LANE_THR (s : Nat) : Fld := ⟨0x0C1 + 8 * s, 0x58, 15, 0⟩
def fProt_LANE_WIN (s : Nat) : Fld := ⟨0x0C1 + 8 * s, 0x58, 23, 16⟩
def fProt_ROW_THR (s : Nat) : Fld := ⟨0x0C1 + 8 * s, 0x5C, 7, 0⟩
def fProt_ROW_ON_UE (s : Nat) : Fld := ⟨0x0C1 + 8 * s, 0x5C, 8, 8⟩
def fProt_REC_ROWS (s : Nat) : Fld := ⟨0x0C1 + 8 * s, 0x60, 10, 0⟩
def fProt_REC_FULL (s : Nat) : Fld := ⟨0x0C1 + 8 * s, 0x60, 11, 11⟩
def fProt_BUSY (s : Nat) : Fld := ⟨0x0C1 + 8 * s, 0x60, 12, 12⟩
def fProt_BUSY_PC (s : Nat) : Fld := ⟨0x0C1 + 8 * s, 0x60, 18, 13⟩
def fProt_QUEUED (s : Nat) : Fld := ⟨0x0C1 + 8 * s, 0x60, 26, 19⟩
def fProt_CE_PC (s : Nat) : Fld := ⟨0x0C1 + 8 * s, 0x68, 5, 0⟩
def fProt_CE_BANK (s : Nat) : Fld := ⟨0x0C1 + 8 * s, 0x68, 11, 6⟩
def fProt_CE_ROW (s : Nat) : Fld := ⟨0x0C1 + 8 * s, 0x68, 26, 12⟩
def fProt_CE_LANE (s : Nat) : Fld := ⟨0x0C1 + 8 * s, 0x68, 30, 27⟩
def fProt_CE_VALID (s : Nat) : Fld := ⟨0x0C1 + 8 * s, 0x68, 31, 31⟩
def fProt_UE_PC (s : Nat) : Fld := ⟨0x0C1 + 8 * s, 0x6C, 5, 0⟩
def fProt_UE_BANK (s : Nat) : Fld := ⟨0x0C1 + 8 * s, 0x6C, 11, 6⟩
def fProt_UE_ROW (s : Nat) : Fld := ⟨0x0C1 + 8 * s, 0x6C, 26, 12⟩
def fProt_UE_LANE (s : Nat) : Fld := ⟨0x0C1 + 8 * s, 0x6C, 30, 27⟩
def fProt_UE_VALID (s : Nat) : Fld := ⟨0x0C1 + 8 * s, 0x6C, 31, 31⟩
def fProt_SPARE_USED (s : Nat) : Fld := ⟨0x0C1 + 8 * s, 0x70, 63, 0⟩

/-! Names of the fields of Table 7.11. -/

def fScrub_PERIOD (s : Nat) : Fld := ⟨0x0C2 + 8 * s, 0x40, 7, 0⟩
def fScrub_POS (s : Nat) : Fld := ⟨0x0C2 + 8 * s, 0x48, 63, 0⟩
def fScrub_PASSES (s : Nat) : Fld := ⟨0x0C2 + 8 * s, 0x50, 63, 0⟩
def fScrub_LAST_MS (s : Nat) : Fld := ⟨0x0C2 + 8 * s, 0x58, 63, 0⟩
def fScrub_LINES (s : Nat) : Fld := ⟨0x0C2 + 8 * s, 0x60, 63, 0⟩

/-! Names of the fields of Table 8.11. -/

def fMsc_COMB_USE (s : Nat) : Fld := ⟨0x0C3 + 8 * s, 0x40, 8, 0⟩
def fMsc_COMB_PEAK (s : Nat) : Fld := ⟨0x0C3 + 8 * s, 0x40, 24, 16⟩
def fMsc_CLR (s : Nat) : Fld := ⟨0x0C3 + 8 * s, 0x40, 31, 31⟩
def fMsc_HOT_TIME (s : Nat) : Fld := ⟨0x0C3 + 8 * s, 0x48, 63, 0⟩
def fMsc_COMB_FULL_TIME (s : Nat) : Fld := ⟨0x0C3 + 8 * s, 0x50, 63, 0⟩
def fMsc_DIR_CE (s : Nat) : Fld := ⟨0x0C3 + 8 * s, 0x58, 31, 0⟩

/-! Names of the fields of Table 8.12. -/

def fStk_NCORE_ACT (s : Nat) : Fld := ⟨0x0C4 + 8 * s, 0x40, 15, 0⟩
def fStk_VEC_TIME (s : Nat) : Fld := ⟨0x0C4 + 8 * s, 0x48, 63, 0⟩

/-! Names of the fields of Table 8.13. -/

def fView_SLOTS_USED (s : Nat) : Fld := ⟨0x0C5 + 8 * s, 0x40, 7, 0⟩
def fView_POISON_CNT (s : Nat) : Fld := ⟨0x0C5 + 8 * s, 0x48, 63, 0⟩
def fView_ACC_DROP (s : Nat) : Fld := ⟨0x0C5 + 8 * s, 0x50, 63, 0⟩

/-! Names of the fields of Table 8.14. -/

def fCopy_CR_BASE (s : Nat) : Fld := ⟨0x0C6 + 8 * s, 0x40, 63, 6⟩
def fCopy_LOG2N (s : Nat) : Fld := ⟨0x0C6 + 8 * s, 0x48, 3, 0⟩
def fCopy_EN (s : Nat) : Fld := ⟨0x0C6 + 8 * s, 0x48, 31, 31⟩
def fCopy_CR_CONS (s : Nat) : Fld := ⟨0x0C6 + 8 * s, 0x4C, 31, 0⟩
def fCopy_SNAP (s : Nat) : Fld := ⟨0x0C6 + 8 * s, 0x50, 0, 0⟩
def fCopy_URGENT (s : Nat) : Fld := ⟨0x0C6 + 8 * s, 0x50, 1, 1⟩
def fCopy_ACTIVE (s : Nat) : Fld := ⟨0x0C6 + 8 * s, 0x50, 10, 8⟩

/-! Names of the fields of Tables 6.2 and 20.3. -/

def fGrove_SPLIT (i : Nat) : Fld := ⟨0x100 + i, 0x40, 1, 0⟩
def fGrove_APPLIED (i : Nat) : Fld := ⟨0x100 + i, 0x40, 3, 2⟩
def fGrove_OUT_REQ (i : Nat) : Fld := ⟨0x100 + i, 0x44, 0, 0⟩
def fGrove_RETURN (i : Nat) : Fld := ⟨0x100 + i, 0x44, 1, 1⟩
def fGrove_STATE (i : Nat) : Fld := ⟨0x100 + i, 0x44, 3, 2⟩
def fGrove_RESULT (i : Nat) : Fld := ⟨0x100 + i, 0x44, 5, 4⟩

/-! Fields of the common header, by page (Table 19.2), and the numbered registers. -/

def fVersel (p : Nat) : Fld := ⟨p, 0x08, 15, 0⟩
def fCap_INJ (p : Nat) : Fld := ⟨p, 0x0C, 0, 0⟩
def fLock (p : Nat) : Fld := ⟨p, 0x10, 0, 0⟩
def fErr (p : Nat) : Fld := ⟨p, 0x18, 4, 0⟩
def fErr_CE (p : Nat) : Fld := ⟨p, 0x18, 0, 0⟩
def fErr_UE (p : Nat) : Fld := ⟨p, 0x18, 1, 1⟩
def fErr_RING (p : Nat) : Fld := ⟨p, 0x18, 2, 2⟩
def fErr_DETECT (p : Nat) : Fld := ⟨p, 0x18, 3, 3⟩
def fErr_INJECTED (p : Nat) : Fld := ⟨p, 0x18, 4, 4⟩
def fErrMsk (p : Nat) : Fld := ⟨p, 0x1C, 4, 0⟩
def fInj_ARM (p : Nat) : Fld := ⟨p, 0x20, 0, 0⟩
def fInj_KIND (p : Nat) : Fld := ⟨p, 0x20, 3, 1⟩
def fInj_TARGET (p : Nat) : Fld := ⟨p, 0x20, 15, 8⟩
def fEpoch (p : Nat) : Fld := ⟨p, 0x24, 31, 0⟩
def fGated (p : Nat) : Fld := ⟨p, 0x38, 0, 0⟩
def fThrot (p : Nat) : Fld := ⟨p, 0x38, 1, 1⟩
def fPcnt (i : Nat) : Fld := ⟨0x001, 0x100 + 8 * i, 31, 0⟩
def fPcnt_NEAR (i : Nat) : Fld := ⟨0x001, 0x100 + 8 * i, 32, 32⟩
def fPcnt_LIMIT (i : Nat) : Fld := ⟨0x001, 0x100 + 8 * i, 33, 33⟩
def fSafeLast (i : Nat) : Fld := ⟨0x00B, 0x80 + 8 * i, 63, 0⟩
def fVec_HOLD (c : Nat) : Fld := ⟨0x010, 0x100 + 4 * c, 0, 0⟩
def fVec_AWAKE (c : Nat) : Fld := ⟨0x010, 0x100 + 4 * c, 1, 1⟩

/-- All fields of a page, none on a reserved page. -/
def pageFields (p : Nat) : List RegF :=
  match pageBlk p with
  | some (b, inst) => headerFields b inst ++ b.fields
  | none => []

/-- A field's lowest bit within its 8-byte cell. -/
def RegF.shift (f : RegF) : Nat := f.off % 8 * 8 + f.lo

/-- A field's bits within its cell. -/
def RegF.mask (f : RegF) : Nat := (2 ^ (f.hi + 1 - f.lo) - 1) <<< f.shift

/-- The bits of cell `c` (offset / 8) of page `p` whose field satisfies `q`. -/
def cellMask (p c : Nat) (q : RegF → Bool) : Nat :=
  (pageFields p).foldl (fun m f => if f.off / 8 = c ∧ q f then m ||| f.mask else m) 0

/-- The value of cell `c` of page `p` after reset (R439). -/
def cellReset (p c : Nat) : W64 :=
  BitVec.ofNat 64 ((pageFields p).foldl (fun m f => if f.off / 8 = c then m ||| (f.reset <<< f.shift) else m) 0)

/-- The reset value of a cell by its key, page × 512 + offset / 8. -/
def regDefault (k : Nat) : W64 := cellReset (k / 512) (k % 512)

end Sys2Proof.Machine
end

