-- ==== Sys2Proof/Machine/State.lean ====
section
/-! DEFINITION. The state of the package as plain data, its faults and refusals, and the state right after reset. Every numbered
thing is held in a table of Machine/Tab.lean; an unlisted key reads as the default named beside the table's field. -/

namespace Sys2Proof.Machine

/-! ### Threads (spec 02, 03) -/

/-- Context states (Table 3.2). -/
inductive CtxSt where
  | idle | ready | wait | held | faulted
  deriving DecidableEq, Repr

/-- What a context in WAIT waits for: a condition of the machine, tried again by WAIT_CONDITION_MET; the completion of a memory
access already issued, tried again alike (R61); an access that is issued but may not go out yet, since its unit is protected
(R46), no remote context is free (R281) or a release waits for earlier accesses (R42): a step-mark waits for it as for the
former, and TSTOP abandons it (R61); responses to remote requests that have been sent; an armed line or the timeout of its
LWAIT; the commit of a persistent field (R9, R446). -/
inductive Await where
  | cond | access | issued | remote | line | commit
  /-- As `access`, through a typed view: its deregistration waits for it (R193). -/
  | view (i : Nat)
  deriving DecidableEq, Repr

/-- The thread's access has been issued and is not performed (R17, R46): a step-mark waits for it. -/
def Await.out : Await → Bool
  | .access => true
  | .issued => true
  | .remote => true
  | .commit => true
  | .view _ => true
  | _ => false

/-- WAIT_CONDITION_MET issues the instruction again. -/
def Await.retried : Await → Bool
  | .cond => true
  | .access => true
  | .issued => true
  | .view _ => true
  | _ => false

/-- A remote load, store or atomic in progress (R281): the parts still unanswered (request tag, first byte of the part), the data
received, and the instruction's destination. -/
structure RemOp where
  parts : List (Nat × Nat)
  data : List (Nat × Byte)
  /-- The refusal of a part: cause, and the port the request left through (15: none). -/
  bad : Option (Nat × Nat)
  va : W64
  width : Nat
  /-- The destination register of a load or atomic; none for a store that the thread waits for. -/
  dst : Option Reg
  acquire : Bool
  deriving DecidableEq, Repr

/-- A hardware context (R48, R51, R62, Table 3.8). Tables `a`, `f`, `v`, `k` have default 0. -/
structure Ctx where
  st : CtxSt
  sup : Bool
  pc : W64
  a : List (Nat × W64)
  f : List (Nat × W64)
  v : List (Nat × BitVec 1024)
  k : List (Nat × BitVec 128)
  job : Nat
  faultInfo : W64
  faultPc : W64
  faultVa : W64
  fflags : BitVec 5
  frm : BitVec 3
  gsIdx : BitVec 16
  seed : W64
  epoch : W32
  hvec : W64
  /-- Armed lines (address of the line, written since) in order of arming (R56). -/
  lines : List (Nat × Bool)
  /-- The instruction that waits or is held. -/
  instr : Option Instr
  await : Await
  rem : Option RemOp
  /-- The launch the thread belongs to. -/
  launch : Option Nat
  pinned : Bool
  group : Nat
  /-- The notice of the thread's fault has been written (R60). -/
  noticed : Bool
  /-- TSTOP found the thread with a memory access issued (R61). -/
  stopPending : Bool
  /-- A refused store of the thread is to be raised at its next instruction (R273): virtual address. -/
  late : Option W64
  deriving DecidableEq, Repr

/-- A launch that has been accepted (R22 to R28, R362). -/
structure Launch where
  id : Nat
  issuer : Tid
  sup : Bool
  job : Nat
  entry : W64
  arg : W64
  count : Nat
  kind : TKind
  policy : Nat
  first : Nat
  stride : Nat
  scratch : Nat
  cntEn : Bool
  gang : Bool
  cntIdx : Nat
  group : Nat
  stackBase : W64
  stackSize : Nat
  /-- Where STATUS lies: a virtual address, or a stack-offset key for a descriptor of the host ring. -/
  statusVa : Option W64
  statusKey : Nat
  /-- Indices of the threads not yet placed, ascending. -/
  toPlace : List Nat
  /-- Threads that have not ended. -/
  left : Nat
  /-- Threads that ended by a fault. -/
  faults : Nat
  ring : Bool
  deriving DecidableEq, Repr

/-- A fault notice waiting to be written (Table 3.9, R60). -/
structure Notice where
  t : Tid
  code : Nat
  gsPart : Bool
  errVal : Bool
  gsIdx : BitVec 16
  pc : W64
  va : W64
  step : W64
  deriving DecidableEq, Repr

/-- Contexts by thread handle (default `Ctx.idle`), launches, notices, translations to be dropped (R32). -/
structure ThrSt where
  ctxs : List (Nat × Ctx)
  launches : List Launch
  nextLaunch : Nat
  notices : List Notice
  inv : List W64
  deriving DecidableEq, Repr

/-- The context of Table 3.2 that holds no thread. -/
def Ctx.idle : Ctx :=
  { st := .idle, sup := false, pc := 0, a := [], f := [], v := [], k := [], job := 0, faultInfo := 0, faultPc := 0,
    faultVa := 0, fflags := 0, frm := 0, gsIdx := 0, seed := 0, epoch := 0, hvec := 0, lines := [], instr := none,
    await := .cond, rem := none, launch := none, pinned := false, group := 0, noticed := false, stopPending := false,
    late := none }

/-! ### Memory (spec 02, 07, 08, 15) -/

/-- A directory entry (Table 8.2): `mod`: STATE 2. -/
structure Dir where
  mod : Bool
  dc0 : Bool
  dc1 : Bool
  psc : Bool
  host : Bool
  deriving DecidableEq, Repr

/-- A line of host memory held in the package: 64 bytes, or none; modified; poisoned on arrival (R357). -/
structure HLine where
  bytes : List Byte
  modified : Bool
  poison : Bool
  deriving DecidableEq, Repr

/-- A host line that is not held. -/
def HLine.none : HLine := { bytes := [], modified := false, poison := false }

/-- Marks on the lines of the stacks, keyed by line (stack × 2^31 + offset / 64). -/
structure MemSt where
  /-- Lines that hold the poison pattern (R154). -/
  poison : List (Nat × Bool)
  /-- Symbols in error of a line's stored codeword; default none. -/
  symErr : List (Nat × List Nat)
  /-- What the inner code reports of the line's burst: 0 no error, 1 corrected, 2 detected and not corrected (R152). -/
  inner : List (Nat × Nat)
  /-- Directory entries; default uncached. -/
  dir : List (Nat × Dir)
  /-- Bits in error of a line's stored directory entry: 1 is corrected, more are not (R180); default 0. No command of the table makes
  such an error (assumption log 118). -/
  dirErr : List (Nat × Nat)
  /-- Lines whose errors an injection made (R176, R433). -/
  injected : List (Nat × Bool)
  /-- Lines whose next transfer fails every replay (R169). -/
  xfer : List Nat
  /-- Lines written in a cache slice with an injected SRAM error (Table 18.8). -/
  msc : List Nat
  /-- Lines with a back-invalidation snoop unanswered (R355). -/
  bi : List Nat
  /-- Host lines the package holds, by host physical address / 64; default `HLine.none` (R357). -/
  hostLines : List (Nat × HLine)
  deriving DecidableEq, Repr

/-- No holder. -/
def Dir.none : Dir := { mod := false, dc0 := false, dc1 := false, psc := false, host := false }

/-- A repair of a stack (R164): of a logical lane of a pseudo-channel, or of a row (pseudo-channel, bank, row). -/
inductive Repair where
  | lane (pc lane : Nat)
  | row (pc bank row : Nat)
  deriving DecidableEq, Repr

/-- One request pending in a combiner entry (R188): the atomic operation, its operand, and where its answer goes. -/
structure CombReq where
  id : Nat
  port : Nat
  op : Nat
  aw : Nat
  operand : W64
  key : Nat
  src : Nat
  job : Nat
  addr : Nat
  tag : Nat
  deriving DecidableEq, Repr

/-- A copy descriptor in progress (R204, R205): its address, its ring index, the line offset reached, whether it has ended and
with which code. -/
structure CopyJob where
  va : W64
  idx : Nat
  off : Nat
  code : Nat
  xcode : Nat
  ended : Bool
  deriving DecidableEq, Repr

/-- What a copy or solver engine still owes its ring: PROD as it stood in memory when a step-mark began, up to which the boundary's
fence waits (R17, R216); a store of CONS that waits for its unit or stack (R46, R161); a read of the head that waits: 1 PROD, 2 the
whole head. -/
structure RingDue where
  hold : Option Nat
  cons : Bool
  head : Nat
  deriving DecidableEq, Repr

/-- Nothing owed. -/
def RingDue.none : RingDue := { hold := Option.none, cons := false, head := 0 }

/-- What a stack's controller and engines hold besides their register pages (spec 07, 08). -/
structure StackSt where
  /-- Consecutive samples without a temperature (R172). -/
  tempFails : Nat
  /-- The stop has been recorded after 1 s (R172). -/
  stopSaid : Bool
  /-- Logical lane to physical lane, keyed pseudo-channel × 16 + lane; default the identity (R153). -/
  laneMap : List (Nat × Nat)
  /-- Lanes marked bad, pseudo-channel × 16 + lane (R159). -/
  laneBad : List Nat
  /-- Corrected symbols by lane, and corrected codewords by row in this scrub pass. -/
  laneCnt : List (Nat × Nat)
  rowCnt : List (Nat × Nat)
  /-- Rows remapped to a spare row, and spare rows in use by bank (R162). -/
  remap : List (Nat × Nat)
  spareUse : List (Nat × Nat)
  laneQ : List Repair
  rowQ : List Repair
  cur : Option Repair
  /-- The repair record (R163). -/
  recLanes : List Repair
  recRows : List Repair
  /-- Combiner entries: line key and requests in arrival order (R188). -/
  comb : List (Nat × List CombReq)
  /-- The ring head's PROD as last read, and descriptors in progress. -/
  copyProd : Nat
  copyNext : Nat
  copies : List CopyJob
  due : RingDue
  deriving DecidableEq, Repr

/-- A stack with nothing to report. -/
def StackSt.empty : StackSt :=
  { tempFails := 0, stopSaid := false, laneMap := [], laneBad := [], laneCnt := [], rowCnt := [], remap := [], spareUse := [],
    laneQ := [], rowQ := [], cur := none, recLanes := [], recRows := [], comb := [], copyProd := 0, copyNext := 0, copies := [],
    due := RingDue.none }

/-! ### Fault and event records (spec 15, 18, 19) -/

/-- The package events of Table 15.9 and the further events that rules name, as their event codes. -/
inductive EvKind where
  | repairDone | laneBad | recFull | ueLine | pcFailed | hostWriteDrop | thermalStop | eqxStop | portDown | viral | safeStop
  | preemptCommitted | noticeNoJob | hazel | canopy | snapAbandoned | faultVendor | persistNear | persistLimit | persistLost
  | injEnabled | boot | debug | security | firmware | limit | repairTrain | inputRange | capUnmet | groveWorn | nandWear | bootAlt
  deriving DecidableEq, Repr

/-- An event record (R367, R368): its handle, kind, location fields, fault record carried, step counter, time. -/
structure EvRec where
  handle : Nat
  kind : EvKind
  loc : W64
  data : W64
  frec : List Byte
  step : W64
  time : W64
  deriving DecidableEq, Repr

/-- One CXL event log (R367). -/
structure EvLog where
  recs : List EvRec
  overflow : Nat
  next : Nat
  deriving DecidableEq, Repr

/-- An empty event log. -/
def EvLog.empty : EvLog := { recs := [], overflow := 0, next := 1 }

/-- Whose write of a persistent field completes with a commit (R9): a thread's store, or the register command of the board management
controller (R451). -/
inductive PWait where
  | thread (t : Tid)
  | command
  deriving DecidableEq, Repr

/-- The persistent store (R446 to R449): committed values by index, the commit in progress and those that wait (index and value), and
the writes that complete with them: how many commits each still awaits. -/
structure PstSt where
  vals : List (Nat × Nat)
  busy : Option (Nat × Nat)
  queue : List (Nat × Nat)
  waits : List (Nat × PWait)
  /-- Registers that lost both copies (R449). -/
  lost : List Nat
  deriving DecidableEq, Repr

/-- Safety (spec 18): which fault records have been read (SEQ), FAULT_N is the register bit; the first S record of this start
has been committed; the reason bits. -/
structure SafSt where
  read : List Nat
  lastDone : Bool
  /-- Armed TARGET_HI of the models page (Table 18.8). -/
  targetHi : Nat
  deriving DecidableEq, Repr

/-! ### Grove engines (spec 05, 06) -/

/-- Tile states (Table 5.1). -/
inductive TileSt where
  | empty | filling | closed | draining | poisoned
  deriving DecidableEq, Repr

/-- One element of a tile (R98, R109): total accumulator with its guard bits, chunk accumulator; bit patterns. -/
structure Elem where
  total : Nat
  guard : Nat
  chunk : Nat
  deriving DecidableEq, Repr

/-- A drain that has been issued (R112, R117, R118): the configuration bytes copied, the descriptor, the effective rounding
mode, the outputs once the epilogue has run (row-major over the valid elements), and whether they have been written. -/
structure Drain where
  cfg : List (Nat × Byte)
  desc : List Byte
  rm : Nat
  out : List Nat
  wrote : Bool
  deriving DecidableEq, Repr

/-- An output tile (R98). `el` is keyed row × 64 + column, default all zero. -/
structure Tile where
  st : TileSt
  cls : Nat
  epoch : W32
  reduced : Bool
  count : Nat
  el : List (Nat × Elem)
  drain : Option Drain
  deriving DecidableEq, Repr

/-- Work queued in a matrix engine (R98). -/
inductive MWork where
  | mma (tile : Nat) (k : Nat) (da db : List Byte)
  | drain (tile : Nat)
  deriving DecidableEq, Repr

/-- A matrix engine (R97, R98, R117, R120, R240): `epi` holds the configuration block by offset, default 0; `model` the selected
model, its L0D and the address of its layer table. -/
structure Matrix where
  owner : Option Tid
  queue : List MWork
  t0 : Tile
  t1 : Tile
  save : W64
  epi : List (Nat × Byte)
  mstat : BitVec 13
  model : Option (Nat × List Byte × W64)
  deriving DecidableEq, Repr

/-- The element-wise state of a thread core (R125 to R147): tile bytes keyed register × 4096 + row × 128 + byte, default 0. -/
structure Ew where
  owner : Option Tid
  tiles : List (Nat × Byte)
  rows : Nat
  cols : Nat
  slots : List (Nat × W64)
  eflags : BitVec 5
  /-- Instructions that have retired and not completed, oldest first, each with the slot an ESUM writes (R131). -/
  queue : List (Option Nat)
  errTile : Bool
  pending : Bool
  errReg : Nat
  prog : Option (List Byte)
  save : W64
  /-- The positions of the active elements of a packed access in progress, as its first issue found them (R142). -/
  packed : Option (List (Nat × Nat))
  deriving DecidableEq, Repr

/-- A grove (R27, R198): scratch split in 64 KiB units, scratch bytes written since the split, view lines held with whether each
is poisoned. -/
structure Grove where
  split : Nat
  scratch : List (Nat × Byte)
  viewLines : List (Nat × (List Byte × Bool))
  deriving DecidableEq, Repr

/-- A solver job that has been taken (R213 to R216): its entry and ring index, its descriptor's bytes 0x00 to 0x77, its terms, the
next system, the work cycles charged, hand-offs listed, its epoch. -/
structure SJob where
  va : W64
  idx : Nat
  desc : List Byte
  terms : List Term
  next : Nat
  charge : Nat
  handoffs : Nat
  epoch : W32
  deriving DecidableEq, Repr

/-- A solver engine: the ring head's PROD as last read, the next entry, the job in progress. -/
structure Solv where
  prod : Nat
  next : Nat
  job : Option SJob
  due : RingDue
  deriving DecidableEq, Repr

/-- What stays resident of a system beside its factor area (R230, R231; assumption log 17): the positions of its structure, its
right-hand sides, the row exponents taken out by equilibration, the scales of its two factor slots. -/
structure Resid where
  pos : List Nat
  rhs : List (Nat × Dy)
  expos : List (Nat × Int)
  fs0 : Int
  fs1 : Int
  deriving DecidableEq, Repr

/-- A solver engine without work. -/
def Solv.idle : Solv := { prod := 0, next := 0, job := none, due := RingDue.none }

/-- Engines by grove, element-wise state by grove × 8 + core, groves by number,
solver engines by number, resident systems by the byte key of their factor area. -/
structure EngSt where
  mat : List (Nat × Matrix)
  ew : List (Nat × Ew)
  groves : List (Nat × Grove)
  solv : List (Nat × Solv)
  resid : List (Nat × Resid)
  deriving DecidableEq, Repr

/-- A tile as R97 leaves it. -/
def Tile.clear : Tile := { st := .empty, cls := 0, epoch := 0, reduced := false, count := 0, el := [], drain := none }

/-- A matrix engine without an owner. -/
def Matrix.idle : Matrix :=
  { owner := none, queue := [], t0 := Tile.clear, t1 := Tile.clear, save := 0, epi := [], mstat := 0, model := none }

/-- The element-wise state after reset and R126: full extent. -/
def Ew.idle : Ew :=
  { owner := none, tiles := [], rows := 32, cols := 128, slots := [], eflags := 0, queue := [], errTile := false, pending := false,
    errReg := 0, prog := none, save := 0, packed := none }

/-- An empty grove. -/
def Grove.empty : Grove := { split := 0, scratch := [], viewLines := [] }

/-! ### The step boundary (spec 01, 10, 13, 14) -/

/-- Where the package stands between two steps (Table 1.3): the step-mark's fence, then the action that begins next (`…Due`) or is
in progress. -/
inductive BPhase where
  | none | fence | voteDue | vote | count | repair | barrier | applyDue | apply | agree | pollDue | poll | releaseDue | stopped
  deriving DecidableEq, Repr

/-- Registers of Equinox as this boundary found them (R258), and the vote's result: F, the member count, the repair's source. -/
structure EqxSt where
  en : Bool
  group : Nat
  win : Nat
  list : Nat
  f : W64
  n : W64
  pmin : W64
  pmax : W64
  /-- The source of a repair (R254). -/
  src : Nat
  deriving DecidableEq, Repr

/-- The configuration and epoch before an apply (R321). -/
structure EpPrev where
  profile : Nat
  cap : Nat
  strict : Nat
  epoch : Nat
  deriving DecidableEq, Repr

/-- The boundary in progress; the result of the boundary-class operation that ended last in the tree: cause (0: none) and values
(R302); an arm accepted while actions were in progress (R324); a reserved bit of STG_CFG has been written (R319); the local result
of the apply; a HOLD_AFTER hold is due (R328). -/
structure BndSt where
  phase : BPhase
  result : Option (Nat × List W64)
  eqx : EqxSt
  armLate : Bool
  stgRsv : Bool
  prev : Option EpPrev
  holdDue : Bool
  deriving DecidableEq, Repr

/-- No boundary. -/
def BndSt.empty : BndSt :=
  { phase := .none, result := Option.none, eqx := { en := false, group := 0, win := 0, list := 0, f := 0, n := 0, pmin := 0, pmax := 0, src := 0 },
    armLate := false, stgRsv := false, prev := Option.none, holdDue := false }

/-! ### Groups, Hazel, Canopy (spec 12) -/

/-- A contribution to a Hazel operation: OP0 to OP7, NVAL, KTOP, VAL0 to VAL7 (Table 12.4). -/
structure HzVal where
  ops : List Nat
  nval : Nat
  ktop : Nat
  vals : List W64
  deriving DecidableEq, Repr

/-- A Hazel operation in progress at this node (R297, R300): its group, class and number; the member's own contribution and, of a
job-class one, its block; the packets of children by rank; whether its result has gone up; children the node has written an
event record for (R304). -/
structure HzOp where
  gid : Nat
  boundary : Bool
  seq : Nat
  own : Option HzVal
  block : Option W64
  kids : List (Nat × HzPacket)
  sent : Bool
  warned : List Nat
  deriving DecidableEq, Repr

/-- The Hazel path: rank tables by group, operations issued here by group × 2 + class, operations in progress, packets held back
(R298, R300), operations that ended before this member issued them: group × 2 + class, number, cause. -/
structure HzSt where
  ranks : List (Nat × List Nat)
  seqs : List (Nat × Nat)
  ops : List HzOp
  held : List HzPacket
  early : List (Nat × Nat × Nat)
  /-- Writes of completed blocks that their homes hold back, in order: address and bytes (R296). -/
  owed : List (Nat × List Byte)
  /-- The package's own boundary-class operations that wait for a reduction state: group and contribution (R302). -/
  due : List (Nat × HzVal)
  deriving DecidableEq, Repr

/-- No operation. -/
def HzSt.empty : HzSt := { ranks := [], seqs := [], ops := [], held := [], early := [], owed := [], due := [] }

/-- A launch manifest as read (R306): members (package, PARENT, ALT), digests of the chunks. -/
structure Manifest where
  len : Nat
  cwin : Nat
  root : Nat
  job : Nat
  members : List (Nat × Nat × Nat)
  digests : List (List Byte)
  mkey : W64
  deriving DecidableEq, Repr

/-- A broadcast (R307 to R310): chunks held, digest failures by chunk, current children, whether the parent counts as failed; at
the root: current parents, members marked FAILED, members that reported DONE. `cmd`: a START or JOIN whose check waits on a stalled
read. -/
structure CanSt where
  man : Option Manifest
  held : List Nat
  fails : List (Nat × Nat)
  kids : List Nat
  parents : List (Nat × Nat)
  failed : List Nat
  done : List Nat
  cmd : Option Nat
  deriving DecidableEq, Repr

/-- No broadcast. -/
def CanSt.empty : CanSt := { man := none, held := [], fails := [], kids := [], parents := [], failed := [], done := [], cmd := none }

/-! ### The fabric (spec 11) -/

/-- A packet as the package sends it (Table 11.5); `src`: the source package of a packet that is forwarded, none for its own;
`bad`: its end-to-end CRC was spoilt by an injection (Table 18.8). -/
structure OutPkt where
  src : Option Nat
  cmd : Nat
  flag : Bool
  len : Nat
  dst : Nat
  job : Nat
  addr : Nat
  tag : Nat
  cause : Nat
  aop : Nat
  aw : Nat
  data : List Byte
  /-- The end-to-end CRC of a packet in transit; none: this package forms it (R265). -/
  e2e : Option W32 := none
  deriving DecidableEq, Repr

/-- What a remote context was taken for (R281): a thread's load, store or atomic; a tile's write-back and its digest adds; a thread's
element-ordered or block read; a read of a tile's MMA or drain; an update pass's read; an async copy's packets; an update pass's
store; a pool shard; a store and a read of a unit of the package; a read of an Equinox repair; a read whose answer nobody waits for any more. -/
inductive RUse where
  | load (t : Tid)
  | store (t : Tid)
  | amo (t : Tid)
  | matrix (t : Tid) (tile : Nat)
  | digest (t : Tid) (tile : Nat)
  | read (t : Tid)
  | opnd (t : Tid) (tile : Nat)
  | mread (m : Nat)
  | put (id : Nat)
  | get (id off : Nat)
  | cadd (id : Nat)
  | model (m : Nat)
  | pool
  | mgmt
  | unit
  | repair
  | gone
  deriving DecidableEq, Repr

/-- Bytes of another package that a reader has asked for and been answered (R249, R272): what the request was for, the address and
length read, the data, or the refusal's cause and port. They are kept until the instruction or the work that reads them ends. -/
structure RGot where
  use : RUse
  addr : Nat
  len : Nat
  data : List Byte
  bad : Option (Nat × Nat)
  deriving DecidableEq, Repr

/-- A remote context in use: its tag, its request's target, port (15: none), issuer's handle, virtual address and length, and
whether it is a flagged store. -/
structure RCtx where
  tag : Nat
  use : RUse
  flag : Bool
  target : Nat
  port : Nat
  handle : Nat
  va : W64
  addr : Nat
  len : Nat
  deriving DecidableEq, Repr

/-- A request of another package, accepted and waiting at a home (R284), with the byte key its window gave; `get`: bytes of a get
copy that wait to be written, with the copy. -/
structure HomeReq where
  id : Nat
  port : Nat
  cmd : Nat
  key : Nat
  len : Nat
  src : Nat
  job : Nat
  addr : Nat
  tag : Nat
  aop : Nat
  aw : Nat
  data : List Byte
  get : Option Nat
  deriving DecidableEq, Repr

/-- A flagged store that waits for earlier writes to its target (R277): the naturally aligned parts still to be sent, by address. -/
structure FlagReq where
  id : Nat
  t : Tid
  target : Nat
  parts : List (Nat × List Byte)
  va : W64
  /-- A write it waits for, or one since the flagged store before it, was refused. -/
  bad : Bool
  /-- Tags of the requests, and copies, that it waits for. -/
  tags : List Nat
  copies : List Nat
  deriving DecidableEq, Repr

/-- An async copy (R279, R280): descriptor fields, side, packets still to send, packets outstanding, whether any was refused. -/
structure ACopy where
  id : Nat
  t : Tid
  job : Nat
  put : Bool
  src : Nat
  dst : Nat
  len : Nat
  scnt : Nat
  scntEn : Bool
  dcnt : Nat
  dcntEn : Bool
  target : Nat
  sent : Nat
  refused : Bool
  /-- The writes are done: the CADD is outstanding or the local count is due. -/
  caddTag : Option Nat
  writesDone : Bool
  deriving DecidableEq, Repr

/-- A flit that a port has sent (Table 11.2): its 240 bytes of slots, encrypted where the link is. -/
structure Flit where
  seq : BitVec 16
  ack : BitVec 16
  typ : Nat
  cvc : Nat
  credit : Nat
  body : List Byte
  deriving DecidableEq, Repr

/-- The link layer of a port (R261 to R263, R285, R286). -/
structure Port where
  txSeq : BitVec 16
  rxSeq : BitVec 16
  /-- Data and tag flits sent and not acknowledged, oldest first: at most 1,024. -/
  replay : List Flit
  /-- Packets that wait for credits or for room in the replay buffer. -/
  waiting : List OutPkt
  /-- Slots of packets on their way that no flit holds yet. -/
  out : List Byte
  /-- Slots that the requests have lost to higher channels (R263). -/
  lost : Nat
  /-- Slots received of a packet that is not whole yet. -/
  rx : List Byte
  /-- Credits to return to the peer, by channel, and those of requests withheld while an ingress queue is full (R275). -/
  owed : List (Nat × Nat)
  kept : Nat
  /-- Data flits of the tag group being sent and of the one being received: the header and the slots as on the link (R285). -/
  txBlock : List (List Byte × List Byte)
  rxBlock : List (List Byte × List Byte)
  /-- A switch to the other key slot is due at the next group boundary. -/
  txTurn : Bool
  rxTurn : Bool
  discard : Bool
  /-- The flit that failed last, and how often in a row (R262). -/
  failSeq : BitVec 16
  flitFails : Nat
  trainFails : Nat
  tagFails : Nat
  credits : List (Nat × Nat)
  txKey : Nat
  rxKey : Nat
  txGroup : Nat
  rxGroup : Nat
  /-- The training whose key exchange gave the keys (R418). -/
  session : Nat
  deriving DecidableEq, Repr

/-- The fabric (spec 11): ports by number (default `Port.fresh`), contexts in use, allocated counters, copies in issue order,
requests waiting at homes, flagged stores waiting, targets with a refused write since the last flagged store, the ACTIVE set
last used for each target, and refusals of stores to be told to their threads. -/
structure FabSt where
  ports : List (Nat × Port)
  ctxs : List RCtx
  cnts : List Nat
  copies : List ACopy
  nextId : Nat
  homes : List HomeReq
  flags : List FlagReq
  broken : List Nat
  act : List (Nat × Nat)
  /-- Answered reads of gathers, engines and update passes. -/
  got : List RGot
  /-- Tags whose requests have timed out and whose responses have not come (R284). -/
  late : List Nat
  /-- Requesters that found no context, with the grants they have lost since (R281). -/
  wants : List (RUse × Nat)
  /-- Bytes of get copies whose destination cannot be translated yet: the copy, the address, the bytes (R280). -/
  gets : List (Nat × Nat × List Byte)
  deriving DecidableEq, Repr

/-- A port that has sent and received nothing. -/
def Port.fresh : Port :=
  { txSeq := 0, rxSeq := 0, replay := [], waiting := [], out := [], lost := 0, rx := [], owed := [], kept := 0, txBlock := [], rxBlock := [],
    txTurn := false, rxTurn := false, discard := false, failSeq := 0, flitFails := 0, trainFails := 0, tagFails := 0, credits := [],
    txKey := 0, rxKey := 0, txGroup := 0, rxGroup := 0, session := 0 }

/-- No traffic. -/
def FabSt.empty : FabSt :=
  { ports := [], ctxs := [], cnts := [], copies := [], nextId := 0, homes := [], flags := [], broken := [], act := [], got := [],
    late := [], wants := [], gets := [] }

/-! ### Snapshots (spec 14) -/

/-- A unit of a tensor that a cut protects (R334): tensor, index of the unit, and the 4 KiB granules (byte key / 4096) it
occupies. -/
structure SUnit where
  tensor : Nat
  index : Nat
  grans : List Nat
  deriving DecidableEq, Repr

/-- A unit in the first tier: its bytes, and the tensor offsets of its poisoned lines (R341). -/
structure CUnit where
  unit : SUnit
  data : List Byte
  poison : List Nat
  deriving DecidableEq, Repr

/-- A shard in the store with its entry (Table 14.8): `idx` the units a delta holds, `data` the units' bytes. -/
structure Shard where
  id : Nat
  va : Nat
  len : Nat
  kind : Nat
  writer : Nat
  poison : List Nat
  sgen : Nat
  place : W64
  nloc : W64
  idx : List Nat
  data : List Byte
  digest : List Byte
  deriving DecidableEq, Repr

/-- A committed manifest (Table 14.7) with its shards and signature. -/
structure SManifest where
  preempt : Bool
  pkg : Nat
  job : Nat
  series : W64
  gen : Nat
  step : W64
  epoch : W32
  config : Nat
  rsv : Nat
  nmem : Nat
  rank : Nat
  gkey : W64
  fwset : W64
  shards : List Shard
  sig : List Byte
  deriving DecidableEq, Repr

/-- A tensor of a snapshot in progress: its entry (Table 14.1), the kind of its shard, the chain its delta continues, its placement
digest, the units drained so far, its shard once written. -/
structure TCut where
  va : Nat
  len : Nat
  id : Nat
  kind : Nat
  writer : Nat
  chain : List Shard
  place : W64
  drained : List CUnit
  shard : Option Shard
  deriving DecidableEq, Repr

/-- A snapshot between its cut and its end: what the manifest records of the cut, the first tier (1 reserve, 2 pool), its tensors,
the dirty bits it took. -/
structure SnapJob where
  gen : Nat
  step : W64
  series : W64
  epoch : W32
  config : Nat
  preempt : Bool
  tier : Nat
  tensors : List TCut
  taken : List Nat
  deriving DecidableEq, Repr

/-- Where a restore stands (R346): its shards are to be checked and read; the barrier of step 5 is out; replicas are being fetched
(those left, by tensor identifier); the barrier of step 7 is out. -/
inductive RestStage where
  | shards
  | barrier
  | replicas (ids : List Nat)
  | last
  deriving DecidableEq, Repr

/-- A restore (R346): the arguments of one that waits for the snapshot in progress, the code of this member's own failure, the
manifest it restores, where it stands. -/
structure RestSt where
  waiting : Option (Option Nat × W64 × W64 × W64 × W64)
  code : Nat
  man : Option SManifest
  stage : RestStage
  deriving DecidableEq, Repr

/-- Snapshot state: units protected and still to be copied, in copy order; dirty granules (R335); granules whose protection stalls a
write (R339); the snapshot in progress; units in the first tier; a unit on its way to the pool; the code with which the snapshot
must end (R342); committed manifests, oldest first; the dirty bits of a generation not yet agreed; a partial generation lost
with power (R344); the source of a Gnolink notice (R328); a restore; the job waits for a restore to succeed. -/
structure SnapSt where
  units : List SUnit
  dirty : List (Nat × Bool)
  stalled : List Nat
  job : Option SnapJob
  copied : List CUnit
  flying : Option CUnit
  doomed : Nat
  gens : List SManifest
  unagreed : Option (Nat × List Nat)
  partGen : Bool
  src : Nat
  rest : Option RestSt
  blocked : Bool
  deriving DecidableEq, Repr

/-- No snapshot. -/
def SnapSt.empty : SnapSt :=
  { units := [], dirty := [], stalled := [], job := none, copied := [], flying := none, doomed := 0, gens := [], unagreed := none,
    partGen := false, src := 0, rest := none, blocked := false }

/-- An update pass in progress (R244): its model, the hyperparameters as its MUPDATE found them (bytes 0x80 to 0xAF), its counter,
its epoch, and whether its slots have been written and only remote stores are outstanding. -/
structure MPass where
  m : Nat
  hyp : List Byte
  cnt : Nat
  cntEn : Bool
  epoch : W32
  wrote : Bool
  deriving DecidableEq, Repr

/-- Models (spec 10): the DRAM segments (key, bytes) that each registered model protects (R239), registrations that have passed
their checks, update passes in progress. -/
structure ModelSt where
  prot : List (Nat × List (Nat × Nat))
  regs : List Nat
  passes : List MPass
  deriving DecidableEq, Repr

/-- A host request that waits at the home (R356): `write` with its data, or a read of `len` bytes that may take the line. `place` is its
place in the order of all requests that wait at homes (R161, R172), shared with the fabric's. -/
structure HReq where
  id : Nat
  place : Nat := 0
  write : Bool
  dpa : Nat
  len : Nat
  data : List Byte
  poison : Bool
  own : Bool
  deriving DecidableEq, Repr

/-- A mailbox command that runs in the background (R363). -/
inductive BgCmd where
  | transferFw (ag : Agent) (slot : Nat) (image : Image)
  | formatStore
  | activate (slot : Nat)
  deriving DecidableEq, Repr

/-- The host attachment (spec 15): the vector each event log is enabled with (log, vector), the timestamp set last, host requests
that wait, the committed HDM decoder, an error recorded in the CXL RAS registers, streams that need a link reset before they are
usable (R370), the host ring's PROD as last read, what of its head is still to be read (1 PROD, 2 CONS and PROD), the background
command. -/
structure HostSt where
  evPolicy : List (Nat × Nat)
  tsBase : W64
  reqs : List HReq
  nextReq : Nat
  hdmBase : Nat
  hdmSize : Nat
  rasUncorr : Bool
  ideBad : Bool
  ringProd : Nat
  ringDue : Nat
  bg : Option BgCmd
  /-- A Job End waits for remote contexts (R454): whether the host's mailbox waits for its answer, if a mailbox does. -/
  jobEnding : Option (Option Agent)
  deriving DecidableEq, Repr

/-- A host that has sent nothing. -/
def HostSt.empty : HostSt :=
  { evPolicy := [], tsBase := 0, reqs := [], nextReq := 0, hdmBase := 0, hdmSize := 0, rasUncorr := false, ideBad := false, ringProd := 0,
    ringDue := 0, bg := none, jobEnding := none }

/-- Where the package stands in power and start (Tables 16.3, 16.4, R391, R394, R396): off; a start in progress; a stage has failed
and the restart waits; held in warm reset by PERST_N; service-only mode; after BS9; Retention. -/
inductive PMode where
  | off | start | failed | held | service | run | ret
  deriving DecidableEq, Repr

/-- Power and start (spec 16): pages of gated units that are waking (R379); the mode; the start takes the warm path; BS7 waits for
PERST_N (R390); PERST_N and PWR_GOOD as accepted; PERST_N was asserted in Retention; off until PWR_GOOD is deasserted (R385);
CLR_FAIL acts at the next start; MCTP answers; an image was changed in Retention; the start leaves Retention (R380); dies
throttled (R383). -/
structure PwrSt where
  waking : List Nat
  mode : PMode
  warm : Bool
  wait7 : Bool
  perst : Bool
  pwrGood : Bool
  perstRet : Bool
  protOff : Bool
  clrFail : Bool
  mctp : Bool
  imgChanged : Bool
  fromRet : Bool
  hot : List Nat
  /-- Pseudo-channels (stack × 64 + number) that BS4 of the last start left FAILED, in the boot progress record (R160, R395). -/
  failedPcs : List Nat
  deriving DecidableEq, Repr

/-- A start in progress, PWR_GOOD and PERST_N asserted. -/
def PwrSt.starting : PwrSt :=
  { waking := [], mode := .start, warm := false, wait7 := false, perst := true, pwrGood := true, perstRet := false, protOff := false,
    clrFail := false, mctp := false, imgChanged := false, fromRet := false, hot := [], failedPcs := [] }

/-- Security (spec 17): the nonce in force; the parts of a record received, and whether one came out of order; the owner digest; trust anchors by slot; images by slot × 8 +
component (R402; default `imgShipped`); digests of the components that run (R407); the UDS has been overwritten; SPDM sessions over MCTP and over DOE; the open session ends with a lifetime; contexts halted by debug, and those that
run one instruction (R410). -/
structure SecSt where
  nonce : Option (List Byte)
  record : List Byte
  recBad : Bool
  owner : List Byte
  anchors : List (Nat × List Byte)
  images : List (Nat × Image)
  measured : List (Nat × List Byte)
  udsGone : Bool
  mctpSess : Nat
  doeSess : Nat
  lifetime : Bool
  halted : List Nat
  stepping : List Nat
  /-- Breakpoints: handle and address. -/
  breaks : List (Nat × W64)
  deriving DecidableEq, Repr

/-- A package without owner, sessions or records. -/
def SecSt.empty : SecSt :=
  { nonce := Option.none, record := [], recBad := false, owner := [], anchors := [], images := [], measured := [], udsGone := false, mctpSess := 0, doeSess := 0, lifetime := false, halted := [], stepping := [], breaks := [] }

/-! ### Answers -/

/-- What the package answers or sends, other than changes of its state: an answer to a register or memory read, a command's
return code and output, a message to another member, a vector. -/
inductive Answer where
  | value (v : W64)
  | bytes (b : List Byte)
  | code (c : Nat) (out : List Byte)
  | unsupported
  | message (kind : Nat) (dest : Nat) (body : List Byte)
  | vector (n : Nat)
  deriving DecidableEq, Repr

/-! ### The package -/

/-- The whole package. -/
structure State where
  /-- Commands that wait, first in, first out. -/
  pending : List Instr
  /-- The model's counter of free values drawn. -/
  fresh : Nat
  /-- Answers given, newest first. -/
  answers : List Answer
  /-- Register cells, keyed page × 512 + offset / 8; default `regDefault`. -/
  regs : List (Nat × W64)
  /-- High halves of time counters latched by an agent's read of the low half (R442), keyed page × 8 + agent × 2 + counter. -/
  latch : List (Nat × W32)
  /-- BAR2, by offset; default 0. -/
  bar2 : List (Nat × Byte)
  /-- DRAM, keyed stack × 2^37 + stack offset; default 0 (assumption log 2). -/
  dram : List (Nat × Byte)
  mem : MemSt
  /-- The stacks, by number; default `StackSt.empty`. -/
  stks : List (Nat × StackSt)
  thr : ThrSt
  logs : List (Nat × EvLog)
  pst : PstSt
  saf : SafSt
  host : HostSt
  mdl : ModelSt
  eng : EngSt
  bnd : BndSt
  fab : FabSt
  hz : HzSt
  can : CanSt
  snp : SnapSt
  pwr : PwrSt
  sec : SecSt
  deriving DecidableEq, Repr

/-! ### Faults and refusals of the model -/

/-- Why the model stops. No command of the table stops it: the faults of the package are effects on its state. The one
constructor names a state that no step produces. -/
inductive Fault where
  /-- Raised by no meaning; kept so that the type is inhabited. Safe. -/
  | none
  deriving DecidableEq, Repr

/-- Why the model refuses a command. -/
inductive Refusal where
  /-- The command has no meaning yet: raised by an arm of `exec` alone. Safe. -/
  | notModelled (mnemonic : String)
  deriving DecidableEq, Repr

/-- The parts as they ship (R5, Table 0.1): NBG-8M640-L, in PRODUCTION, its debug-disable fuse blown if the order asks for it; and
NBG-8M640-LD, in DEVELOPMENT. -/
inductive Part where
  | l (blown : Bool)
  | ld
  deriving DecidableEq, Repr

/-- Right after a cold start has been accepted: BS0 is in progress (assumption log 6), registers at their reset values. -/
def State.reset : State :=
  { pending := [], fresh := 0, answers := [], regs := [], latch := [], bar2 := [], dram := [],
    mem := { poison := [], symErr := [], inner := [], dir := [], dirErr := [], injected := [], xfer := [], msc := [], bi := [], hostLines := [] }, stks := [],
    thr := { ctxs := [], launches := [], nextLaunch := 0, notices := [], inv := [] },
    logs := [], pst := { vals := [], busy := none, queue := [], waits := [], lost := [] },
    saf := { read := [], lastDone := false, targetHi := 0 },
    host := HostSt.empty, mdl := { prot := [], regs := [], passes := [] },
    eng := { mat := [], ew := [], groves := [], solv := [], resid := [] }, bnd := BndSt.empty,
    fab := FabSt.empty, hz := HzSt.empty, can := CanSt.empty, snp := SnapSt.empty, pwr := PwrSt.starting, sec := SecSt.empty }

end Sys2Proof.Machine
end

