-- ==== Sys2Proof/Machine/Ops.lean ====
section
/-! DEFINITION. The named operations over the state: register fields, free values, bytes of DRAM and of BAR2, contexts. -/

namespace Sys2Proof

/-! ### Threads and their handles -/

/-- The kind's code (Table 2.1). -/
def TKind.code : TKind → Nat
  | .grove => 0
  | .near => 1
  | .control => 2

/-- The number of contexts of the kind (Table 2.1). -/
def TKind.count : TKind → Nat
  | .grove => 65536
  | .near => 2048
  | .control => 96

/-- The kind of a code. -/
def TKind.ofCode : Nat → Option TKind
  | 0 => some .grove
  | 1 => some .near
  | 2 => some .control
  | _ => none

/-- The thread handle (R55): kind in bits [17:16], number in [15:0]. -/
def Tid.handle (t : Tid) : Nat := t.kind.code * 65536 + t.num

/-- The thread of a handle. R55 calls the handle a 32-bit value and reserves its other bits; a register with a bit above the handle's
18 set, bits 63 to 32 among them, names no thread, which is BAD_HANDLE (DESIGN CHOICE, assumption log 115, for bits 63 to 32). -/
def Tid.ofHandle (h : Nat) : Option Tid :=
  match TKind.ofCode (h / 65536) with
  | some k => if h % 65536 < k.count then some ⟨k, h % 65536⟩ else none
  | none => none

/-- The context names hardware that exists. -/
def Tid.valid (t : Tid) : Bool := decide (t.num < t.kind.count)

/-- The grove of a grove thread's number. -/
def Tid.groveOf (t : Tid) : Nat := t.num / 256

/-- The stack of a near thread's number (Table 2.1). -/
def Tid.stackOf (t : Tid) : Nat := t.num / 256

/-- The thread core of a grove thread within its grove. -/
def Tid.coreOf (t : Tid) : Nat := t.num / 32 % 8

/-! ### Widths -/

/-- The width in bytes. -/
def MemW.bytes : MemW → Nat
  | .w1 => 1
  | .w2 => 2
  | .w4 => 4
  | .w8 => 8

end Sys2Proof

namespace Sys2Proof.Machine

/-! ### Register fields -/

/-- The number `old` with `w` bits from `sh` replaced by `v`. -/
def putBits (old sh w v : Nat) : Nat := old - ((old >>> sh) % 2 ^ w) <<< sh + (v % 2 ^ w) <<< sh

/-- The cell key of a field. -/
def Fld.key (f : Fld) : Nat := f.page * 512 + f.off / 8

/-- The field's lowest bit in its cell. -/
def Fld.sh (f : Fld) : Nat := f.off % 8 * 8 + f.lo

/-- The field's width. -/
def Fld.w (f : Fld) : Nat := f.hi + 1 - f.lo

/-- A register cell. -/
def State.cell (s : State) (k : Nat) : W64 := tabGet regDefault s.regs k

/-- The state with a register cell set. -/
def State.setCell (s : State) (k : Nat) (v : W64) : State := { s with regs := tabSet regDefault s.regs k v }

/-- The value a field holds. -/
def State.fld (s : State) (f : Fld) : Nat := ((s.cell f.key).toNat >>> f.sh) % 2 ^ f.w

/-- A one-bit field. -/
def State.flag (s : State) (f : Fld) : Bool := s.fld f != 0

/-- The state with a field set; bits above its width are dropped. -/
def State.setFld (s : State) (f : Fld) (v : Nat) : State :=
  s.setCell f.key (BitVec.ofNat 64 (putBits (s.cell f.key).toNat f.sh f.w v))

/-- The state with a one-bit field set. -/
def State.setFlag (s : State) (f : Fld) (b : Bool) : State := s.setFld f b.toNat

/-- A counter field one higher, modulo its width. -/
def State.inc (s : State) (f : Fld) : State := s.setFld f (s.fld f + 1)

/-- A counter field `n` higher, held at its highest value. -/
def State.addSat (s : State) (f : Fld) (n : Nat) : State := s.setFld f (min (s.fld f + n) (2 ^ f.w - 1))

/-! ### Free values and answers -/

/-- The next free value's number, and the state after drawing it. -/
def State.draw (s : State) : Nat × State := (s.fresh, { s with fresh := s.fresh + 1 })

/-- The state with an answer given. -/
def State.answer (s : State) (a : Answer) : State := { s with answers := a :: s.answers }

/-! ### Bytes -/

/-- An unlisted byte of DRAM (assumption log 2). -/
def dramDefault (_ : Nat) : Byte := 0

/-- An unlisted byte of BAR2. -/
def barDefault (_ : Nat) : Byte := 0

/-- The byte of DRAM at a key. -/
def State.dramByte (s : State) (k : Nat) : Byte := tabGet dramDefault s.dram k

/-- The state with one byte of DRAM set. -/
def State.setDramByte (s : State) (k : Nat) (b : Byte) : State := { s with dram := tabSet dramDefault s.dram k b }

/-- `n` bytes of DRAM from a key. -/
def State.dramBytes (s : State) (k n : Nat) : List Byte := (List.range n).map fun i => s.dramByte (k + i)

/-- Bytes stored in DRAM from a key up. -/
def State.putDram (s : State) : Nat → List Byte → State
  | _, [] => s
  | k, b :: bs => (s.setDramByte k b).putDram (k + 1) bs

/-- The byte of BAR2 at an offset. -/
def State.barByte (s : State) (k : Nat) : Byte := tabGet barDefault s.bar2 k

/-- `n` bytes of BAR2 from an offset. -/
def State.barBytes (s : State) (k n : Nat) : List Byte := (List.range n).map fun i => s.barByte (k + i)

/-- The little-endian number of `n` bytes of BAR2. -/
def State.barNat (s : State) (k n : Nat) : Nat := leNat (s.barBytes k n)

/-- The state with one byte of BAR2 set. -/
def State.setBarByte (s : State) (k : Nat) (b : Byte) : State := { s with bar2 := tabSet barDefault s.bar2 k b }

/-- Bytes put in BAR2 from an offset up. -/
def State.putBar (s : State) : Nat → List Byte → State
  | _, [] => s
  | k, b :: bs => (s.setBarByte k b).putBar (k + 1) bs

/-! ### Contexts -/

/-- An unlisted context is idle. -/
def ctxDefault (_ : Nat) : Ctx := Ctx.idle

/-- The context of a thread. -/
def State.ctx (s : State) (t : Tid) : Ctx := tabGet ctxDefault s.thr.ctxs t.handle

/-- The state with a context set. -/
def State.setCtx (s : State) (t : Tid) (c : Ctx) : State :=
  { s with thr := { s.thr with ctxs := tabSet ctxDefault s.thr.ctxs t.handle c } }

/-- The state with a context changed. -/
def State.modCtx (s : State) (t : Tid) (f : Ctx → Ctx) : State := s.setCtx t (f (s.ctx t))

/-- Default of the integer and floating-point register tables. -/
def regZero (_ : Nat) : W64 := 0
/-- Default of the vector register tables. -/
def vecZero (_ : Nat) : BitVec 1024 := 0
/-- Default of the lane-mask tables. -/
def maskZero (_ : Nat) : BitVec 128 := 0

/-- Integer register `r`. -/
def Ctx.ga (c : Ctx) (r : Nat) : W64 := tabGet regZero c.a r
/-- Floating-point register `r`. -/
def Ctx.gf (c : Ctx) (r : Nat) : W64 := tabGet regZero c.f r
/-- Vector register `r`. -/
def Ctx.gv (c : Ctx) (r : Nat) : BitVec 1024 := tabGet vecZero c.v r
/-- Lane mask `r`; k0 reads all ones (R48). -/
def Ctx.gk (c : Ctx) (r : Nat) : BitVec 128 := if r = 0 then BitVec.allOnes 128 else tabGet maskZero c.k r

/-- Integer register `r` written. -/
def Ctx.sa (c : Ctx) (r : Nat) (v : W64) : Ctx := { c with a := tabSet regZero c.a r v }
/-- Floating-point register `r` written. -/
def Ctx.sf (c : Ctx) (r : Nat) (v : W64) : Ctx := { c with f := tabSet regZero c.f r v }
/-- Vector register `r` written. -/
def Ctx.sv (c : Ctx) (r : Nat) (v : BitVec 1024) : Ctx := { c with v := tabSet vecZero c.v r v }
/-- Lane mask `r` written; k0 ignores writes (R48). -/
def Ctx.sk (c : Ctx) (r : Nat) (v : BitVec 128) : Ctx := if r = 0 then c else { c with k := tabSet maskZero c.k r v }

/-- Contexts in use, as (handle, context), ascending. -/
def State.liveCtxs (s : State) : List (Nat × Ctx) := s.thr.ctxs.filter fun e => e.2.st != .idle

end Sys2Proof.Machine
end

