-- ==== Sys2Proof/Machine/Report.lean ====
section
/-! DEFINITION. Fault records, event records, interrupt vectors and commits to the persistent store: what every detection and
event of the package shares (R422, R430, R431, R367, R369, R446). -/

namespace Sys2Proof.Machine

/-- The time on the timestamp set last (Table 18.6 TIME): the base and a free elapsed time. -/
def State.now (s : State) : W64 × State := (s.host.tsBase + Config.elapsed s.fresh, s.draw.2)

/-! ### The persistent store -/

/-- A commit of index `i` begins, or waits behind the one in progress (R446); at its limit the register is read-only (R447). -/
def State.persist (s : State) (i v : Nat) : State :=
  if s.flag (fPcnt_LIMIT i) then s
  else match s.pst.busy with
    | none => { s with pst := { s.pst with busy := some (i, v) } }.setFlag fPst_BUSY true
    | some _ => { s with pst := { s.pst with queue := s.pst.queue ++ [(i, v)] } }

/-- Commits in progress and waiting. -/
def PstSt.commits (p : PstSt) : Nat := p.busy.toList.length + p.queue.length

/-- A write between `s` and this state has begun commits: it completes with the last of them (R9). -/
def State.commitsSince (s1 s : State) (w : PWait) : Bool × State :=
  if s.pst.commits < s1.pst.commits then (true, { s1 with pst := { s1.pst with waits := s1.pst.waits ++ [(s1.pst.commits, w)] } })
  else (false, s1)

/-- Default of the committed values. -/
def pstZero (_ : Nat) : Nat := 0

/-- A commit of the index is in progress or waits; the value written last (reads wait for it, R446). -/
def State.pstPending (s : State) (i : Nat) : Option Nat :=
  match (s.pst.queue.filter fun e => e.1 == i).getLast? with
  | some e => some e.2
  | none => match s.pst.busy with
    | some (j, v) => if j = i then some v else none
    | none => none

/-- The committed value of an index. -/
def State.pstVal (s : State) (i : Nat) : Nat := tabGet pstZero s.pst.vals i

/-! ### Event records -/

/-- An unlisted event log is empty. -/
def logDefault (_ : Nat) : EvLog := EvLog.empty

/-- No log's interrupt is enabled (R369). -/
def polDefault (_ : Nat) : Nat := 0

/-- The event logs (Table 15.9): 0 Informational, 1 Warning, 2 Failure, 3 Fatal. -/
def logInfo : Nat := 0
/-- Warning. -/
def logWarn : Nat := 1
/-- Failure. -/
def logFail : Nat := 2
/-- Fatal. -/
def logFatal : Nat := 3

/-- An MSI-X vector sent. -/
def State.vector (s : State) (n : Nat) : State := s.answer (.vector n)

/-- An event record added to a log (R367, R369): a full log counts it in its overflow field; one added sends the vector of an
enabled log, unless the host is lost (R360). -/
def State.event (s : State) (log : Nat) (kind : EvKind) (loc data : W64) (frec : List Byte) : State :=
  let l := tabGet logDefault s.logs log
  if 256 ≤ l.recs.length then
    { s with logs := tabSet logDefault s.logs log { l with overflow := l.overflow + 1 } }
  else
    let (t, s1) := s.now
    let r : EvRec := { handle := l.next, kind := kind, loc := loc, data := data, frec := frec,
                       step := BitVec.ofNat 64 (s.fld fPkg_STEP), time := t }
    let s2 := { s1 with logs := tabSet logDefault s1.logs log { l with recs := l.recs ++ [r], next := l.next + 1 } }
    let v := tabGet polDefault s2.host.evPolicy log
    if v = 0 ∨ s2.flag fCxl_HOST_LOST then s2 else s2.vector v

/-! ### Fault records -/

/-- What a detection or event reports (Tables 18.1, 18.2, 18.6). -/
structure Det where
  cls : Nat
  react : Nat
  page : Nat
  unit : Nat := 0
  cause : Nat := 0
  loc0 : W64 := 0
  loc1 : W64 := 0
  injected : Bool := false
  /-- The location fields of the event record, where they are not LOC0 (R368). -/
  evLoc : Option W64 := none
  deriving DecidableEq, Repr

/-- The offset in BAR2 of the fault log slot of record `n` (R431, Table 19.4). -/
def faultSlot (n : Nat) : Nat := 0x600000 + 64 * ((n - 1) % 512)

/-- The boot stage is BS9 (R390). -/
def State.booted (s : State) : Bool := s.fld fBoot_STAGE == 9

/-- The 64 bytes of a record (Table 18.6). -/
def Det.record (d : Det) (s : State) (seq : Nat) (time : W64) (detail : W32) : List Byte :=
  let react := d.react + (if d.injected then 4 else 0) + (if s.flag fSafe_SAFE then 8 else 0) + (if s.booted then 0 else 16)
  let body := natLE 8 seq ++ natLE 8 time.toNat ++ natLE 8 (s.fld fPkg_STEP) ++ natLE 1 d.cls ++ natLE 1 react ++
    natLE 2 d.page ++ natLE 2 (s.fld fPkg_PKG_ID_APPLIED) ++ natLE 2 (s.fld fPkg_JOB) ++ natLE 4 (s.fld fMode_A_EPOCH) ++
    natLE 2 d.unit ++ natLE 1 d.cause ++ natLE 1 (s.fld fBoot_STAGE % 16) ++ natLE 8 d.loc0.toNat ++ natLE 8 d.loc1.toNat ++
    natLE 4 detail.toNat
  body ++ natLE 4 (crc32c body).toNat

/-- A snapshot in progress will end with a code and not commit (R342): the first cause stands. -/
def State.dooms (s : State) (code : Nat) : State :=
  if s.snp.job.isSome ∧ s.snp.doomed = 0 then { s with snp := { s.snp with doomed := code } } else s

/-- A record written to the fault log (R430, R431), with the safety page's copies of its fields. -/
def State.logRecord (s : State) (d : Det) : List Byte × State :=
  let (t, s1) := s.now
  let detail := Config.detail s1.fresh
  let s2 := s1.draw.2
  let seq := s2.fld fSafe_LOG_SEQ + 1
  let bytes := d.record s2 seq t detail
  let lost := decide (512 < seq) && !s2.saf.read.contains (seq - 512)
  let s3 := (s2.putBar (faultSlot seq) bytes).setFld fSafe_LOG_SEQ seq
  let s4 := (s3.setFld fSafe_LAST_CLASS d.cls).setFld fSafe_LAST_REACT d.react
  let s5 := if 2 ≤ d.react then ((s4.inc fSafe_DETECTIONS).setFlag (fErr_DETECT d.page) true).dooms 0x13 else s4
  let s6 := if lost then s5.setFlag fSafe_OVERFLOW true else s5
  (bytes, s6)

/-- The first record of reaction S after a start is committed as SAFE_LAST (R431). -/
def State.commitSafeLast (s : State) (d : Det) (bytes : List Byte) : State :=
  if d.react = 3 ∧ s.saf.lastDone = false then
    ({ s with saf := { s.saf with lastDone := true } }).persist 6 (leNat bytes)
  else s

/-- A detection or recorded event: the record, FAULT_N and the event record of its reaction (R422, R423, Table 18.3). `ev` is
the event record that the event's own rule names, with its log. In safe stop only the record is written (R428). The safe
stop that reaction S adds is Machine/SafeStop.lean's. -/
def State.report (s : State) (d : Det) (ev : Option (Nat × EvKind)) : State :=
  let inSafe := s.flag fSafe_SAFE
  let (bytes, s1) := s.logRecord d
  let s2 := s1.commitSafeLast d bytes
  if inSafe then s2
  else
    let s3 := if 2 ≤ d.react then s2.setFlag fSafe_FAULT true else s2
    match ev with
    | some (log, k) => s3.event log k (d.evLoc.getD d.loc0) d.loc1 bytes
    | none =>
      if d.react = 1 then s3.event logFail .faultVendor d.loc0 d.loc1 bytes
      else if d.react = 2 then s3.event logFail .faultVendor d.loc0 d.loc1 bytes
      else if d.react = 3 then s3.event logFatal .safeStop d.loc0 d.loc1 bytes
      else s3

/-! ### Error injection (R434, Table 18.8) -/

/-- An injection of a kind is armed on a page. -/
def State.injArmed (s : State) (page kind : Nat) : Bool := s.flag (fInj_ARM page) && s.fld (fInj_KIND page) == kind

/-- The injection has acted: ARM is clear, INJECTED set. -/
def State.injDone (s : State) (page : Nat) : State := (s.setFlag (fInj_ARM page) false).setFlag (fErr_INJECTED page) true

/-- A record of reaction R with no event record. -/
def State.reportR (s : State) (cls page unit cause : Nat) (loc0 : W64) : State :=
  s.report { cls := cls, react := 0, page := page, unit := unit, cause := cause, loc0 := loc0 } none

/-- A contained detection: reaction C, a vendor record in the Failure log. -/
def State.reportC (s : State) (cls page unit : Nat) (loc0 : W64) (inj : Bool) : State :=
  s.report { cls := cls, react := 2, page := page, unit := unit, loc0 := loc0, injected := inj } none

end Sys2Proof.Machine
end

