-- ==== Sys2Proof/Machine/Stack.lean ====
section
/-! DEFINITION. The stacks: where a byte lies, the outer code, lanes, rows and their repair (spec 07). -/

namespace Sys2Proof.Machine

/-! ### Where a byte lies (R33, R34, R151) -/

/-- 80 GiB, the populated capacity of a stack (Table 2.7). -/
def stackBytes : Nat := 0x1400000000

/-- The reserve in force, in GiB per stack (R36). -/
def State.rsvGib (s : State) : Nat := s.fld fSnap_RSV_APPLIED

/-- What a local physical address names (Table 2.7, R36). -/
inductive Place where
  | dram (key : Nat)
  | reserve (key : Nat)
  | regs (off : Nat)
  | tables (off : Nat)
  | hole
  deriving DecidableEq, Repr

/-- Stack and stack offset of an aperture offset (R34). -/
def decodePinned (o : Nat) : Nat × Nat := (o / 2 ^ 37, o % 2 ^ 37)
/-- Near aperture of die `d`. -/
def decodeNear (d o : Nat) : Nat × Nat := (4 * d + o / 4096 % 4, o / 2 ^ 14 * 4096 + o % 4096)
/-- Spread aperture. -/
def decodeSpread (o : Nat) : Nat × Nat := (o / 4096 % 8, o / 2 ^ 15 * 4096 + o % 4096)

/-- The place of a stack offset: outside the populated part, in the reserve, or usable. -/
def State.placeOf (s : State) (so : Nat × Nat) : Place :=
  if stackBytes ≤ so.2 then .hole
  else if stackBytes ≤ so.2 + s.rsvGib * 2 ^ 30 then .reserve (so.1 * 2 ^ 37 + so.2)
  else .dram (so.1 * 2 ^ 37 + so.2)

/-- The place of a local physical address (Table 2.7). -/
def State.place (s : State) (lpa : Nat) : Place :=
  if lpa < 0x10000000000 then s.placeOf (decodePinned lpa)
  else if lpa < 0x18000000000 then s.placeOf (decodeNear 0 (lpa - 0x10000000000))
  else if lpa < 0x20000000000 then s.placeOf (decodeNear 1 (lpa - 0x18000000000))
  else if lpa < 0x30000000000 then s.placeOf (decodeSpread (lpa - 0x20000000000))
  else if 0x7F0000000000 ≤ lpa ∧ lpa < 0x7F0001000000 then .regs (lpa - 0x7F0000000000)
  else if 0x7F0100000000 ≤ lpa ∧ lpa < 0x7F0200000000 then .tables (lpa - 0x7F0100000000)
  else .hole

/-- The stack of a byte key. -/
def keyStack (k : Nat) : Nat := k / 2 ^ 37 % 8
/-- The stack offset of a byte key. -/
def keyOff (k : Nat) : Nat := k % 2 ^ 37
/-- The pseudo-channel of a stack offset (R151). -/
def offPc (o : Nat) : Nat := o / 256 % 64
/-- The row. -/
def offRow (o : Nat) : Nat := o / 2 ^ 22
/-- The bank. -/
def offBank (o : Nat) : Nat := (o / 65536 % 64) ^^^ (offRow o % 64)
/-- The column. -/
def offCol (o : Nat) : Nat := o / 16384 % 4 * 4 + o / 64 % 4
/-- The stack offset of the first byte of a line given by pseudo-channel, bank, row and column: the inverse of R151. -/
def offOf (pc bank row col : Nat) : Nat :=
  row * 2 ^ 22 + (bank ^^^ (row % 64)) * 65536 + col / 4 * 16384 + pc * 256 + col % 4 * 64

/-- The row's key in a stack's tables. -/
def rowKey (pc bank row : Nat) : Nat := (pc * 64 + bank) * 32768 + row

/-- The DPA of a line in a General Media record (R368). -/
def dpaOf (k : Nat) : Nat := keyOff k / 4096 * 32768 + keyStack k * 4096 + keyOff k % 4096

/-! ### Stacks -/

/-- An unlisted stack. -/
def stkDefault (_ : Nat) : StackSt := StackSt.empty
/-- Counters start at 0. -/
def cntZero (_ : Nat) : Nat := 0
/-- The identity lane map (R153). -/
def laneIdent (k : Nat) : Nat := k % 16
/-- No symbol in error. -/
def noErr (_ : Nat) : List Nat := []
/-- Marks are clear. -/
def noMark (_ : Nat) : Bool := false
/-- Lines start uncached. -/
def dirNone (_ : Nat) : Dir := Dir.none
/-- A line's directory entry. -/
def State.dir (s : State) (line : Nat) : Dir := tabGet dirNone s.mem.dir line

/-- The state of stack `n`. -/
def State.stk (s : State) (n : Nat) : StackSt := tabGet stkDefault s.stks n
/-- Stack `n` set. -/
def State.setStk (s : State) (n : Nat) (x : StackSt) : State := { s with stks := tabSet stkDefault s.stks n x }
/-- Stack `n` changed. -/
def State.modStk (s : State) (n : Nat) (f : StackSt → StackSt) : State := s.setStk n (f (s.stk n))

/-- The pages of stack `n`: protection and repair. -/
def protPage (n : Nat) : Nat := 0x0C1 + 8 * n

/-- The state code of pseudo-channel `p` (Table 7.4): 0 NORMAL, 1 ERASURE, 2 PAUSED, 3 FAILED. -/
def State.pcState (s : State) (n p : Nat) : Nat :=
  (s.fld (if p < 32 then fMem_PC_STATE0 n else fMem_PC_STATE1 n)) / 4 ^ (p % 32) % 4

/-- The state code set. -/
def State.setPcState (s : State) (n p v : Nat) : State :=
  let f := if p < 32 then fMem_PC_STATE0 n else fMem_PC_STATE1 n
  s.setFld f (putBits (s.fld f) (2 * (p % 32)) 2 v)

/-- The spare lane of the pseudo-channel is free (R160). -/
def State.spareFree (s : State) (n p : Nat) : Bool := !(bitAt (s.fld (fProt_SPARE_USED n)) p)

/-- The bad lanes of a pseudo-channel. -/
def State.badLanes (s : State) (n p : Nat) : List Nat := ((s.stk n).laneBad.filter fun x => x / 16 == p).map (· % 16)

/-- The line carries the poison pattern. -/
def State.poisoned (s : State) (line : Nat) : Bool := tabGet noMark s.mem.poison line
/-- The poison mark set. -/
def State.setPoison (s : State) (line : Nat) (b : Bool) : State :=
  { s with mem := { s.mem with poison := tabSet noMark s.mem.poison line b } }
/-- Symbols in error in the stored codeword. -/
def State.symErr (s : State) (line : Nat) : List Nat := tabGet noErr s.mem.symErr line
/-- The symbols in error set. -/
def State.setSymErr (s : State) (line : Nat) (l : List Nat) : State :=
  { s with mem := { s.mem with symErr := tabSet noErr s.mem.symErr line l } }
/-- What the inner code reports of the line's burst (R152). -/
def State.inner (s : State) (line : Nat) : Nat := tabGet cntZero s.mem.inner line
/-- That report set. -/
def State.setInner (s : State) (line c : Nat) : State :=
  { s with mem := { s.mem with inner := tabSet cntZero s.mem.inner line c } }
/-- An injection made the line's errors. -/
def State.injectedLine (s : State) (line : Nat) : Bool := tabGet noMark s.mem.injected line
/-- That mark set. -/
def State.setInjected (s : State) (line : Nat) (b : Bool) : State :=
  { s with mem := { s.mem with injected := tabSet noMark s.mem.injected line b } }

/-! ### The outer code (R153, R154)

Machine/Outer.lean gives the code. Of a stored codeword the state keeps which of its 72 symbols are wrong; their values no rule
reads. -/

/-- How the controller decodes a codeword. `wrong`: too many errors, taken for others. -/
inductive Decoded where
  | clean
  | corrected (syms : List Nat)
  | wrong
  | uncorr
  | poison
  | failed
  deriving DecidableEq, Repr

/-- More errors than the code corrects: 2t + e > 8, the symbols of bad lanes erased (R154). -/
def State.tooMany (s : State) (line : Nat) : Bool :=
  let bad := s.badLanes (keyStack (line * 64)) (offPc (keyOff (line * 64)))
  decide (8 < 2 * ((s.symErr line).filter fun i => !bad.contains (symLane i)).length + 8 * bad.length)

/-- The decoding of a stored line (R154, R161): poison first, then the inner code's report in ERASURE, then 2t + e ≤ 8. Too many
errors may be taken for others: whether they are is free, except for those of an injection, which R176 places at distance 5 or more
from every codeword (assumption log 34). -/
def State.decode (s : State) (line : Nat) : Decoded :=
  let p := s.pcState (keyStack (line * 64)) (offPc (keyOff (line * 64)))
  if p = 3 then .failed
  else if s.poisoned line then .poison
  else if p = 1 ∧ s.inner line = 2 then .uncorr
  else if s.tooMany line then (if !s.injectedLine line && Config.outcome s.fresh then .wrong else .uncorr)
  else if (s.symErr line).isEmpty then .clean
  else .corrected (s.symErr line)

/-- The last-codeword fields of a register pair (Table 7.10): pseudo-channel, bank, row, lane. -/
def State.setLastCe (s : State) (n o lane : Nat) : State :=
  ((((s.setFld (fProt_CE_PC n) (offPc o)).setFld (fProt_CE_BANK n) (offBank o)).setFld (fProt_CE_ROW n) (offRow o)).setFld
    (fProt_CE_LANE n) lane).setFld (fProt_CE_VALID n) 1

/-- The last uncorrectable codeword. -/
def State.setLastUe (s : State) (n o : Nat) : State :=
  ((((s.setFld (fProt_UE_PC n) (offPc o)).setFld (fProt_UE_BANK n) (offBank o)).setFld (fProt_UE_ROW n) (offRow o)).setFld
    (fProt_UE_LANE n) 0xF).setFld (fProt_UE_VALID n) 1

/-! ### Lanes and rows (R159, R160, R162 to R164) -/

/-- QUEUED follows the repair queue. -/
def State.syncQueue (s : State) (n : Nat) : State :=
  s.setFld (fProt_QUEUED n) ((s.stk n).laneQ.length + (s.stk n).rowQ.length)

/-- The location fields of a DRAM Event record (R368): channel, rank, bank group, bank, row and column. -/
def dramLoc (n pc bank row col : Nat) : W64 :=
  BitVec.ofNat 64 (n * 32 + pc / 2 + 2 ^ 16 * (pc % 2) + 2 ^ 17 * (bank / 4) + 2 ^ 21 * (bank % 4) + 2 ^ 24 * row + 2 ^ 48 * col)

/-- A pseudo-channel enters FAILED: event and fault records (Table 7.4, Tables 15.9 and 18.2). -/
def State.failPc (s : State) (n p : Nat) : State :=
  (s.setPcState n p 3).report
    { cls := 0x42, react := 0, page := protPage n, unit := p, evLoc := some (dramLoc n p 0 0 0) } (some (logFail, .pcFailed))

/-- A lane repair is queued in its pseudo-channel's own entry (R164). -/
def State.queueLane (s : State) (n p lane : Nat) : State :=
  (s.modStk n fun x => { x with laneQ := x.laneQ ++ [.lane p lane] }).syncQueue n

/-- A logical lane is marked bad (R159, Table 7.4): its event record, and the state it leads to unless the pseudo-channel is
PAUSED, when the end of the pause settles it. -/
def State.markLane (s : State) (n p lane : Nat) : State :=
  if (s.stk n).laneBad.contains (p * 16 + lane) ∨ s.pcState n p = 3 then s
  else
    let s1 := (s.modStk n fun x => { x with laneBad := x.laneBad ++ [p * 16 + lane] }).event logWarn .laneBad
      (dramLoc n p 0 0 0) (BitVec.ofNat 64 lane) []
    match s.pcState n p with
    | 0 => if s.spareFree n p then (s1.setPcState n p 1).queueLane n p lane else s1.failPc n p
    | 1 => s1.failPc n p
    | _ => s1

/-- The lane threshold in force (Table 7.10). -/
def State.laneThr (s : State) (n : Nat) : Nat := s.fld (fProt_LANE_THR n)

/-- Corrected symbols of one codeword counted on a lane (R159). The window is time: symbols of this codeword alone that reach the
threshold are inside it; whether earlier ones still are is free (assumption log 8). -/
def State.countLane (s : State) (n p lane k : Nat) : State :=
  let c := tabGet cntZero (s.stk n).laneCnt (p * 16 + lane) + k
  let s1 := s.modStk n fun x => { x with laneCnt := tabSet cntZero x.laneCnt (p * 16 + lane) c }
  if s.laneThr n ≤ k then s1.markLane n p lane
  else if s.laneThr n ≤ c then
    (if Config.outcome s1.fresh then s1.draw.2.markLane n p lane else s1.draw.2)
  else s1

/-- Row repairs queued or in progress: they count against the repair record and the bank's spare rows (R162, R163). -/
def StackSt.rowsDue (x : StackSt) : List Repair :=
  x.rowQ ++ match x.cur with
    | some (.row p b r) => [.row p b r]
    | _ => []

/-- A row repair of the bank. -/
def Repair.inBank (pc bank : Nat) : Repair → Bool
  | .row p b _ => p == pc && b == bank
  | .lane _ _ => false

/-- A row repair is queued, refused for want of a spare row or of a record entry, or dropped (R162 to R164, Table 19.6). -/
def State.spareRow (s : State) (n pc bank row : Nat) : State :=
  let x := s.stk n
  let r := Repair.row pc bank row
  if x.rowsDue.contains r then s
  else if 512 ≤ tabGet cntZero x.spareUse (pc * 64 + bank) + (x.rowsDue.filter (Repair.inBank pc bank)).length then
    s.setFlag (fProt_REC_FULL n) true
  else if 1024 ≤ x.recRows.length + x.rowsDue.length ∨ s.flag (fPcnt_LIMIT (7 + n)) then
    (s.setFlag (fProt_REC_FULL n) true).event logWarn .recFull (BitVec.ofNat 64 (rowKey pc bank row)) 0 []
  else if 64 ≤ x.rowQ.length then s
  else (s.modStk n fun x => { x with rowQ := x.rowQ ++ [r] }).syncQueue n

/-- The row threshold in force (Table 7.10: 0 selects 1). -/
def State.rowThr (s : State) (n : Nat) : Nat := max 1 (s.fld (fProt_ROW_THR n))

/-- A corrected codeword counted on its row (R162). -/
def State.countRow (s : State) (n o : Nat) : State :=
  let k := rowKey (offPc o) (offBank o) (offRow o)
  let c := tabGet cntZero (s.stk n).rowCnt k + 1
  let s1 := s.modStk n fun x => { x with rowCnt := tabSet cntZero x.rowCnt k c }
  if s.rowThr n ≤ c then s1.spareRow n (offPc o) (offBank o) (offRow o) else s1

/-- The lanes of a list of symbols, each once, ascending. -/
def lanesOf (syms : List Nat) : List Nat := (List.range 9).filter fun l => syms.any fun i => symLane i == l

/-- The armed injection of a stack's protection page acts on a full-codeword write to its pseudo-channel (R176). On one with the
poison pattern the symbols it spoils hide the pattern. -/
def State.injectOn (s : State) (line : Nat) : State :=
  let k := line * 64
  let n := keyStack k
  if s.flag (fProt_INJ_ARM n) ∧ s.fld (fProt_INJ_PC n) = offPc (keyOff k) then
    let syms := if s.flag (fProt_INJ_UE n) then [0, 9, 18, 27, 36, 45]
      else (List.range (s.fld (fProt_INJ_COUNT n))).map fun b => s.fld (fProt_INJ_LANE n) * 8 + b
    let all := if s.poisoned line then (syms ++ (List.range 8).map (64 + ·)).eraseDups else syms
    ((((s.setSymErr line all).setPoison line false).setInjected line true).setFlag (fProt_INJ_ARM n) false).setFlag
      (fErr_INJECTED (protPage n)) true
  else s

/-- A full codeword written to DRAM: no symbol of it is wrong, unless an injection acts on it (R156, R176). -/
def State.wordWritten (s : State) (line : Nat) : State :=
  (((s.setSymErr line []).setInner line 0).setInjected line false).injectOn line

/-- A corrected codeword: counted, written back unless a cache holds a newer value, and counted on its lanes and row (R154, R157,
R159, R162). -/
def State.corrected (s : State) (line : Nat) (syms : List Nat) : State :=
  let k := line * 64
  let n := keyStack k
  let o := keyOff k
  let lanes := lanesOf syms
  let s1 := ((s.inc (fProt_CE_COUNT n)).setFlag (fErr_CE (protPage n)) true).setLastCe n o
    (match lanes with | [l] => l | _ => 0xF)
  let s2 := if (s.dir line).mod then s1 else s1.wordWritten line
  let s3 := lanes.foldl (fun t l => t.countLane n (offPc o) l (syms.filter fun i => symLane i == l).length) s2
  s3.countRow n o

/-- Too many errors taken for up to four others: those symbols, free, are changed too, and the line reads as good with free bytes
in every data symbol that was wrong or changed (R154, assumption log 34). -/
def State.miscorrected (s : State) (line : Nat) : State :=
  let k := s.fresh
  let syms := ((List.range 4).map fun i => (Config.unstated (k + 1 + i)).toNat % 72).eraseDups
  let s1 := ((s.symErr line ++ syms).filter (· < 64)).eraseDups.foldl (fun t i => t.putDram (line * 64 + i) [Config.freeByte (k + 5 + i)])
    { s with fresh := k + 69 }
  s1.corrected line syms

/-- An uncorrectable or poisoned codeword read (R154, R162). -/
def State.uncorrectable (s : State) (line : Nat) (isPoison : Bool) : State :=
  let k := line * 64
  let n := keyStack k
  let o := keyOff k
  let s1 := ((s.inc (fProt_UE_COUNT n)).setFlag (fErr_UE (protPage n)) true).setLastUe n o
  if !isPoison && s.flag (fProt_ROW_ON_UE n) then s1.spareRow n (offPc o) (offBank o) (offRow o) else s1

/-- A burst that the inner code corrected is counted (R152). -/
def State.countInner (s : State) (line : Nat) : State :=
  if s.inner line = 1 then s.inc (fProt_INNER_CNT (keyStack (line * 64))) else s

/-- A codeword read and decoded: whether it is good, and the state with the decode's effects. -/
def State.readLine (s : State) (line : Nat) : Bool × State :=
  match s.decode line with
  | .clean => (true, s.countInner line)
  | .corrected syms => (true, (s.countInner line).corrected line syms)
  | .wrong => (true, (s.countInner line).miscorrected line)
  | .uncorr =>
    (false, (if s.tooMany line && !s.injectedLine line then (s.countInner line).draw.2 else s.countInner line).uncorrectable line false)
  | .poison => (false, (s.countInner line).uncorrectable line true)
  | .failed => (false, s)

/-- The home carries a line on with the poison marker (R155, R156). A FAILED pseudo-channel keeps nothing. -/
def State.carryPoison (s : State) (line : Nat) : State :=
  if s.pcState (keyStack (line * 64)) (offPc (keyOff (line * 64))) = 3 then s
  else ((s.setPoison line true).setSymErr line []).setInner line 0

/-- The records of a consumption of an uncorrectable line (Tables 15.9, 18.1): class 0x01, a General Media record. -/
def State.consumed (s : State) (line : Nat) : State :=
  let k := line * 64
  s.report { cls := 0x01, react := 1, page := protPage (keyStack k), unit := offPc (keyOff k),
             loc0 := BitVec.ofNat 64 (keyOff k), injected := s.injectedLine line, evLoc := some (BitVec.ofNat 64 (dpaOf k)) }
    (some (logFail, .ueLine))

/-- The page of a stack's memory-side cache. -/
def mscPage (n : Nat) : Nat := 0x0C3 + 8 * n

/-- The slice of a stack offset (R180). -/
def offSlice (o : Nat) : Nat := o / 64 % 16

/-- An injected SRAM error is found when its line is read: the line is poisoned and recorded (Tables 18.1, 18.8). -/
def State.sramFound (s : State) (line : Nat) : State :=
  let n := keyStack (line * 64)
  (({ s with mem := { s.mem with msc := s.mem.msc.erase line } }).setPoison line true).report
    { cls := 0x02, react := 1, page := mscPage n, unit := offSlice (keyOff (line * 64)), loc0 := BitVec.ofNat 64 (keyOff (line * 64)),
      injected := true, evLoc := some (BitVec.ofNat 64 (dpaOf (line * 64))) } (some (logFail, .ueLine))

/-- A line read at its home, consumed by nobody (R155): whether it is good; a bad one is carried on with the poison marker. -/
def State.takeLine (s : State) (line : Nat) : Bool × State :=
  if s.mem.msc.contains line then (false, s.sramFound line)
  else match s.readLine line with
    | (true, s1) => (true, s1)
    | (false, s1) => (false, s1.carryPoison line)

/-- A line read for a consumer (Table 7.3). `cross`: its data cross the stack interface, where a transfer that failed every replay
makes it an uncorrectable line (R169, R178). A line consumed as uncorrectable is poisoned until a full-line write (R156). -/
def State.consumeLine (s : State) (cross : Bool) (line : Nat) : Bool × State :=
  if cross ∧ s.mem.xfer.contains line then
    (false, ({ s with mem := { s.mem with xfer := s.mem.xfer.erase line } }).carryPoison line)
  else if s.mem.msc.contains line then (false, s.sramFound line)
  else match s.takeLine line with
    | (true, s1) => (true, s1)
    | (false, s1) => (false, s1.consumed line)

/-- Lines consumed from the first up to `n`, in order: the first that is not good, with the records of its consumption. -/
def State.consumeLines (s : State) (cross : Bool) : Nat → Nat → Option Nat × State
  | _, 0 => (none, s)
  | line, n + 1 =>
    match s.consumeLine cross line with
    | (true, s1) => s1.consumeLines cross (line + 1) n
    | (false, s1) => (some line, s1)

/-- The armed injection of a stack's cache page acts on a line written in its slice (Table 18.8). -/
def State.injectMsc (s : State) (line : Nat) : State :=
  let n := keyStack (line * 64)
  if s.injArmed (mscPage n) 1 ∧ s.fld (fInj_TARGET (mscPage n)) = offSlice (keyOff (line * 64)) then
    ({ s with mem := { s.mem with msc := s.mem.msc ++ [line] } }).injDone (mscPage n)
  else s

/-- A write to part of a line performed at the home (R156): a good line is merged into a fresh codeword; an uncorrectable line
takes the bytes and is written with the poison pattern. A FAILED pseudo-channel discards the write (R161). -/
def State.writePart (s : State) (k : Nat) (bs : List Byte) : State :=
  let line := k / 64
  if s.pcState (keyStack k) (offPc (keyOff k)) = 3 then s
  else match s.readLine line with
    | (true, s1) => ((s1.putDram k bs).wordWritten line).injectMsc line
    | (false, s1) => ((s1.putDram k bs).setPoison line true).wordWritten line

/-- A write of all 64 bytes of a line (R156): a good codeword. -/
def State.writeFull (s : State) (line : Nat) (bs : List Byte) : State :=
  let k := line * 64
  if s.pcState (keyStack k) (offPc (keyOff k)) = 3 then s
  else
    let s1 := { s with mem := { s.mem with xfer := s.mem.xfer.erase line, msc := s.mem.msc.erase line } }
    (((s1.putDram k bs).setPoison line false).wordWritten line).injectMsc line

/-- A line written with the poison pattern (R155, R156). -/
def State.writePoison (s : State) (line : Nat) (bs : List Byte) : State :=
  let k := line * 64
  if s.pcState (keyStack k) (offPc (keyOff k)) = 3 then s
  else ((s.putDram k bs).setPoison line true).wordWritten line

/-- A line that a write of bytes covers in part only holds the poison pattern afterwards: it was uncorrectable (R155, R156). -/
def State.partPoisoned (s : State) (k len : Nat) : Bool :=
  (k % 64 != 0 && s.poisoned (k / 64)) || ((k + len) % 64 != 0 && s.poisoned ((k + len - 1) / 64))

/-- A write at the home of bytes that may span lines: whole lines as full-line writes, the rest merged (R156). -/
def State.writeHome (s : State) (k : Nat) (bs : List Byte) : State :=
  let first := k / 64
  let last := (k + bs.length - 1) / 64
  if bs.isEmpty then s
  else
    (List.range (last + 1 - first)).foldl (fun t i =>
      let line := first + i
      let lo := max k (line * 64)
      let hi := min (k + bs.length) (line * 64 + 64)
      let part := (bs.drop (lo - k)).take (hi - lo)
      if part.length = 64 then t.writeFull line part else t.writePart lo part) s

end Sys2Proof.Machine
end

