-- ==== Sys2Proof/Machine/Tables.lean ====
section
/-! DEFINITION. The large tables of BAR2 (Table 19.4) as the package reads them: views (Table 8.4), models (Table 10.1), windows
(Table 11.7), routes (R266), groups (Table 12.1), arrival counters (R278). -/

namespace Sys2Proof.Machine

/-! ### Offsets (Table 19.4) -/

/-- Entry `i` of the window table. -/
def winOff (i : Nat) : Nat := 32 * i
/-- Entry `i` of the model table. -/
def modelOff (i : Nat) : Nat := 0x100000 + 256 * i
/-- Entry `i` of the view table. -/
def viewOff (i : Nat) : Nat := 0x200000 + 64 * i
/-- The route of package `i`. -/
def routeOff (i : Nat) : Nat := 0x300000 + 4 * i
/-- Entry `i` of the group table. -/
def groupOff (i : Nat) : Nat := 0x400000 + 64 * i
/-- Arrival counter `i`. -/
def cntOff (i : Nat) : Nat := 0x500000 + 8 * i

/-- The entries of a BAR2 region (base, entry size, entries) whose byte `at_` has bit 0 set, ascending. -/
def State.validEntries (s : State) (base size n at_ : Nat) : List Nat :=
  s.bar2.filterMap fun e =>
    if base ≤ e.1 ∧ e.1 < base + size * n ∧ (e.1 - base) % size = at_ ∧ e.2.getLsbD 0 then some ((e.1 - base) / size) else none

/-- A bit field of a BAR2 entry. -/
def State.barBits (s : State) (off n hi lo : Nat) : Nat := bitsOf (s.barNat off n) hi lo

/-- A number stored in a BAR2 entry. -/
def State.putBarNat (s : State) (off n v : Nat) : State := s.putBar off (natLE n v)

/-! ### Views (Table 8.4) -/

/-- A view descriptor. -/
structure View where
  vbase : Nat
  sbase : Nat
  count : Nat
  svbase : Nat
  seed : W64
  sfmt : Nat
  pfmt : Nat
  rm : Nat
  sat : Bool
  mode : Nat
  job : Nat
  stackSet : Nat
  deriving DecidableEq, Repr

/-- View table entry `i`. -/
def State.view (s : State) (i : Nat) : View :=
  let o := viewOff i
  { vbase := s.barNat o 8, sbase := s.barNat (o + 8) 8, count := s.barNat (o + 16) 8, svbase := s.barNat (o + 24) 8,
    seed := BitVec.ofNat 64 (s.barNat (o + 32) 8), sfmt := s.barBits (o + 40) 1 4 0, pfmt := s.barBits (o + 41) 1 4 0,
    rm := s.barBits (o + 42) 1 2 0, sat := bitAt (s.barNat (o + 42) 1) 3, mode := s.barBits (o + 42) 1 5 4,
    job := s.barNat (o + 44) 2, stackSet := s.barNat (o + 50) 1 }

/-- The registered views. -/
def State.views (s : State) : List Nat := s.validEntries 0x200000 64 1024 0x30

/-- Bytes of one stored element. -/
def View.sbytes (v : View) : Nat := if v.sfmt = 0 then 8 else 4

/-- The presented format is an MX format. -/
def View.mx (v : View) : Bool := isMx v.pfmt

/-- Bytes of one presented element; of an MX view, of a block of 32 (R195). -/
def View.pbytes (v : View) : Nat := if v.mx then 4 * codeBits v.pfmt else codeBits v.pfmt / 8

/-- The first 64-byte boundary at or above an address (R195). -/
def up64 (n : Nat) : Nat := (n + 63) / 64 * 64

/-- The end of the presented range. -/
def View.vend (v : View) : Nat := up64 (v.vbase + (if v.mx then v.count / 32 * v.pbytes else v.count * v.pbytes))

/-- The end of the scale range. -/
def View.svend (v : View) : Nat := up64 (v.svbase + v.count / 32)

/-- The end of the stored range. -/
def View.send (v : View) : Nat := up64 (v.sbase + v.count * v.sbytes)

/-- Where a virtual address falls among the registered views (R190): the view, and whether in its scale range. -/
def State.viewAt (s : State) (va : Nat) : Option (Nat × Bool) :=
  let hit := fun i => let v := s.view i
    decide (v.vbase ≤ va ∧ va < v.vend)
  let hitS := fun i => let v := s.view i
    v.mx && decide (v.svbase ≤ va ∧ va < v.svend)
  match s.views.find? hit with
  | some i => some (i, false)
  | none => (s.views.find? hitS).map fun i => (i, true)

/-! ### Models (Table 10.1) -/

/-- A model descriptor's fields that the package uses. -/
structure Model where
  training : Bool
  opt : Nat
  verify : Bool
  sr : Bool
  wfmt : Nat
  mfmt : Nat
  gfmt : Nat
  job : Nat
  nseg : Nat
  prefBytes : Nat
  rwin : Nat
  ltab : Nat
  epi0 : Nat
  mcount : Nat
  soff : Nat
  mbase : Nat
  wbase : Nat
  wsbase : Nat
  obase : Nat
  gbase : Nat
  stab : Nat
  l0d : List Byte
  lr : Nat
  beta : Nat
  wd : Nat
  eps : Nat
  clip : Nat
  gnormMax : Nat
  wseed : W64
  digest : W64
  updCount : Nat
  lastRead : W64
  nextDigest : W64
  gnorm : Nat
  valid : Bool
  cur : Nat
  pending : Bool
  nonfinite : Bool
  lenderLost : Bool
  corrupt : Bool
  deriving DecidableEq, Repr

/-- Model table entry `i`. -/
def State.model (s : State) (i : Nat) : Model :=
  let o := modelOff i
  let b0 := s.barNat o 1
  let q := fun off => s.barNat (o + off) 8
  let st := s.barNat (o + 0xE8) 4
  { training := bitAt b0 0, opt := bitsOf b0 2 1, verify := bitAt b0 3, sr := bitAt b0 4,
    wfmt := s.barBits (o + 1) 1 4 0, mfmt := s.barBits (o + 2) 1 4 0, gfmt := s.barBits (o + 3) 1 4 0,
    job := s.barNat (o + 4) 2, nseg := s.barBits (o + 6) 2 12 0, prefBytes := s.barNat (o + 8) 4,
    rwin := s.barBits (o + 12) 2 13 0, ltab := q 0x10, epi0 := q 0x18, mcount := q 0x20, soff := q 0x28, mbase := q 0x30,
    wbase := q 0x38, wsbase := q 0x40, obase := q 0x48, gbase := q 0x50, stab := q 0x58, l0d := s.barBytes (o + 0x60) 32,
    lr := q 0x80, beta := q 0x88, wd := q 0x90, eps := q 0x98, clip := q 0xA0, gnormMax := q 0xA8,
    wseed := BitVec.ofNat 64 (q 0xB0), digest := BitVec.ofNat 64 (q 0xC0), updCount := q 0xC8,
    lastRead := BitVec.ofNat 64 (q 0xD0), nextDigest := BitVec.ofNat 64 (q 0xD8), gnorm := q 0xE0,
    valid := bitAt st 0, cur := bitsOf st 16 16, pending := bitAt st 17, nonfinite := bitAt st 18, lenderLost := bitAt st 19,
    corrupt := bitAt st 20 }

/-- A status bit of a model entry set or cleared (Table 10.1, 0xE8). -/
def State.setModelBit (s : State) (i bit : Nat) (b : Bool) : State :=
  s.putBarNat (modelOff i + 0xE8) 4 (putBits (s.barNat (modelOff i + 0xE8) 4) bit 1 b.toNat)

/-- The registered models. -/
def State.models (s : State) : List Nat := s.validEntries 0x100000 256 4096 0xE8

/-! ### Windows (Table 11.7) -/

/-- A window table entry. -/
structure Window where
  base : Nat
  len : Nat
  job : Nat
  rd : Bool
  wr : Bool
  at_ : Bool
  lend : Bool
  srcLo : Nat
  srcHi : Nat
  valid : Bool
  deriving DecidableEq, Repr

/-- Window table entry `i`. -/
def State.window (s : State) (i : Nat) : Window :=
  let o := winOff i
  let fl := s.barNat (o + 0x12) 1
  { base := s.barNat o 8, len := s.barNat (o + 8) 8, job := s.barNat (o + 16) 2, rd := bitAt fl 0, wr := bitAt fl 1,
    at_ := bitAt fl 2, lend := bitAt fl 3, srcLo := s.barNat (o + 0x16) 2, srcHi := s.barNat (o + 0x18) 2,
    valid := bitAt (s.barNat (o + 0x1A) 1) 0 }

/-- The registered windows. -/
def State.windows (s : State) : List Nat := s.validEntries 0 32 16384 0x1A

/-- The local physical address of a byte key in the aperture that `base` lies in (Table 2.7, the inverse of R34); `none`
when the aperture does not reach the stack. -/
def lpaIn (base key : Nat) : Option Nat :=
  let st := keyStack key
  let off := keyOff key
  if base < 0x10000000000 then some key
  else if base < 0x20000000000 then
    let d := if base < 0x18000000000 then 0 else 1
    if st / 4 = d then some (0x10000000000 + d * 0x8000000000 + off / 4096 * 16384 + st % 4 * 4096 + off % 4096) else none
  else some (0x20000000000 + off / 4096 * 32768 + st * 4096 + off % 4096)

/-- A byte key lies in a range of local physical addresses. -/
def inLpaRange (base len key : Nat) : Bool :=
  match lpaIn base key with
  | some a => decide (base ≤ a ∧ a < base + len)
  | none => false

/-- The byte lies in memory lent to another job (R270). -/
def State.lent (s : State) (key : Nat) : Bool :=
  s.windows.any fun i => let w := s.window i
    w.lend && inLpaRange w.base w.len key

/-- Bytes of DRAM that a registered model protects (R239). -/
def State.protectedKey (s : State) (key len : Nat) : Bool :=
  s.mdl.prot.any fun m => m.2.any fun r => decide (r.1 < key + len ∧ key < r.1 + r.2)

/-! ### Routes, groups, counters -/

/-- The ports of a route entry that are ACTIVE, ascending (R266, Table 11.14). -/
def State.activePorts (s : State) (mask : Nat) : List Nat :=
  (List.range 16).filter fun p => bitAt mask p && s.fld (fPort_STATE p) == 2

/-- A group table entry (Table 12.1). -/
structure Group where
  nmem : Nat
  rank : Nat
  job : Nat
  ranktab : Nat
  qbase : Nat
  qlog2n : Nat
  gkey : W64
  valid : Bool
  deriving DecidableEq, Repr

/-- Group table entry `i`. -/
def State.grp (s : State) (i : Nat) : Group :=
  let o := groupOff i
  { nmem := s.barNat (o + 2) 2, rank := s.barNat (o + 4) 2, job := s.barNat (o + 6) 2, ranktab := s.barNat (o + 8) 8,
    qbase := s.barNat (o + 16) 8, qlog2n := s.barBits (o + 24) 1 3 0, gkey := BitVec.ofNat 64 (s.barNat (o + 32) 8),
    valid := bitAt (s.barNat (o + 40) 1) 0 }

/-- The groups that exist. -/
def State.grps (s : State) : List Nat := s.validEntries 0x400000 64 4096 0x28

/-- Arrival counter `i` (R278). -/
def State.counter (s : State) (i : Nat) : W64 := BitVec.ofNat 64 (s.barNat (cntOff i) 8)

/-- Arrival counter `i` set. -/
def State.setCounter (s : State) (i : Nat) (v : W64) : State := s.putBarNat (cntOff i) 8 v.toNat

/-- An addition to a counter: the count wraps modulo 2^63, ERR sticks (R278). -/
def State.addCounter (s : State) (i inc : Nat) (err : Bool) : State :=
  let c := (s.counter i).toNat
  let cnt := (c % 2 ^ 63 + inc) % 2 ^ 63
  s.setCounter i (BitVec.ofNat 64 (cnt + (if err ∨ 2 ^ 63 ≤ c then 2 ^ 63 else 0)))

/-! ### The job -/

/-- A job runs: present (Table 19.5), and no Job End has acted on it. -/
def State.jobRuns (s : State) : Bool := s.flag fPkg_JOB_PRESENT && s.host.jobEnding.isNone

/-- Its ID. -/
def State.jobId (s : State) : Nat := s.fld fPkg_JOB

/-- The host ring still holds entries, or may: its head is to be read, or CONS has not reached PROD. -/
def State.ringLeft (s : State) : Bool := s.flag fRing_EN && (s.host.ringDue != 0 || s.fld fRing_HR_CONS != s.host.ringProd)

/-- A Job End that has acted completes once every ring entry is refused (R366) and no remote context and no update pass of the job is
left (R454): the job is present no longer, and a mailbox that waits has its answer. -/
def State.jobOver (s : State) : State :=
  match s.host.jobEnding with
  | none => s
  | some who =>
    if !s.fab.ctxs.isEmpty ∨ !s.mdl.passes.isEmpty ∨ s.ringLeft then s
    else
      let s1 := ({ s with host := { s.host with jobEnding := none } }.setFlag fPkg_JOB_PRESENT false).setFld fPkg_JOB 0
      match who with
      | none => s1
      | some .host => (s1.answer (.code 0 [])).vector 0
      | some _ => s1.answer (.code 0 [])

end Sys2Proof.Machine
end

