-- ==== Sys2Proof/Machine/Send.lean ====
section
/-! DEFINITION. Packets that leave the package: routing, ports, remote contexts (R263, R266, R281, R282). -/

namespace Sys2Proof.Machine

/-- An unlisted port. -/
def portDefault (_ : Nat) : Port := Port.fresh

/-- Port `p`. -/
def State.port (s : State) (p : Nat) : Port := tabGet portDefault s.fab.ports p
/-- Port `p` set. -/
def State.setPort (s : State) (p : Nat) (x : Port) : State :=
  { s with fab := { s.fab with ports := tabSet portDefault s.fab.ports p x } }

/-- A port changed. -/
def State.modPort (s : State) (p : Nat) (f : Port → Port) : State := s.setPort p (f (s.port p))

/-- The fabric state changed. -/
def State.modFab (s : State) (f : FabSt → FabSt) : State := { s with fab := f s.fab }

/-- This package's ID in force. -/
def State.pkgId (s : State) : Nat := s.fld fPkg_PKG_ID_APPLIED

/-- The route entry of a target (R266). -/
def State.route (s : State) (target : Nat) : Nat := s.barNat (routeOff target) 4

/-- The target is reached through a version 1 link (R264). -/
def State.v1Target (s : State) (target : Nat) : Bool := bitAt (s.route target) 16

/-- The port a packet for `target` with address `addr` leaves through (R266). -/
def State.routePort (s : State) (target addr : Nat) : Option Nat :=
  let ps := s.activePorts (s.route target % 65536)
  if ps.isEmpty ∨ target = 0xFFFF then none
  else ps[(mix64 (BitVec.ofNat 64 (addr >>> 12))).toNat % ps.length]?

/-- Port state codes (Table 11.14). -/
def State.portState (s : State) (p : Nat) : Nat := s.fld (fPort_STATE p)

/-- The virtual channel of a command (Table 11.6). -/
def vcOf (cmd : Nat) : Nat := if cmd < 0x10 then 0 else if cmd < 0x20 then 1 else if cmd < 0x30 then 2 else 3

/-- The slots of a packet: header, payload and trailer (R265). -/
def OutPkt.slots (k : OutPkt) : Nat := (24 + k.data.length + 8 + 15) / 16

/-- A packet's header (Table 11.5). -/
def headerBytes (cmd : Nat) (flag : Bool) (len src job addr tag cause aop aw : Nat) : List Byte :=
  natLE 1 cmd ++ natLE 1 flag.toNat ++ natLE 2 len ++ natLE 2 src ++ natLE 2 job ++ natLE 8 addr ++
    natLE 4 (tag % 2 ^ 18 + cause % 256 * 2 ^ 24) ++ natLE 1 (aop % 16 + aw % 4 * 16) ++ natLE 3 0

/-- The header of a packet that leaves. A response carries in SRC_PKG the package that made the request, by which it is routed (R266);
the packets of VC2 and VC3 name their destination in ADDR[63:48] (the spec lays them out no further: assumption log 20). -/
def OutPkt.header (k : OutPkt) (own : Nat) : List Byte :=
  headerBytes k.cmd k.flag (if k.cmd < 0x20 then k.len else k.data.length)
    (if 0x10 ≤ k.cmd ∧ k.cmd < 0x20 then k.dst else k.src.getD own) k.job
    (if k.cmd < 0x20 then k.addr else k.dst * 2 ^ 48 + k.addr % 2 ^ 48) k.tag k.cause k.aop k.aw

/-- The slots' bytes: header, payload, the end-to-end CRC that the source forms, and zeros up to a whole number of slots (R265). -/
def OutPkt.image (k : OutPkt) (own : Nat) : List Byte :=
  let b := k.header own ++ k.data
  b ++ natLE 8 (k.e2e.getD (crc32c b)).toNat ++ List.replicate (16 * k.slots - (b.length + 8)) 0

/-- Credits of a channel of a port. -/
def Port.credit (x : Port) (vc : Nat) : Nat := tabGet cntZero x.credits vc

/-- The packet of a channel that goes first: on VC2 a Hazel packet before Canopy's (R295). -/
def Port.head (x : Port) (vc : Nat) : Option OutPkt :=
  let l := x.waiting.filter fun k => vcOf k.cmd == vc
  if vc = 2 then (l.find? fun k => decide (k.cmd < 0x28)) <|> l.head? else l.head?

/-- The packet of a channel that is ready: it holds credits for all its slots (R263). -/
def Port.ready (x : Port) (vc : Nat) : Option OutPkt := (x.head vc).filter fun k => decide (k.slots ≤ x.credit vc)

/-- The packet that takes the next slots: of the highest channel that has one ready, but a request that has lost 64 slots first. -/
def Port.pick (x : Port) : Option OutPkt :=
  if 64 ≤ x.lost ∧ (x.ready 0).isSome then x.ready 0
  else (x.ready 3) <|> (x.ready 2) <|> (x.ready 1) <|> (x.ready 0)

/-- A packet takes its slots, for its credits. An armed injection of the port acts on it (Table 18.8): KIND 1 costs one replay,
KIND 2 spoils the end-to-end CRC of a packet that carries one to be checked (a request or a Hazel packet). -/
def State.take (s : State) (p : Nat) (k : OutPkt) : State :=
  let page := 0x040 + p
  let vc := vcOf k.cmd
  let hit1 := s.injArmed page 1
  let hit2 := s.injArmed page 2 && (decide (k.cmd < 0x10) || (decide (0x20 ≤ k.cmd) && decide (k.cmd < 0x28)))
  let s1 := if hit1 ∨ hit2 then s.injDone page else s
  let s2 := if hit1 then s1.inc (fPort_FLIT_REPLAY p) else s1
  let k2 := if hit2 then { k with e2e := some (~~~ (k.e2e.getD (crc32c (k.header s.pkgId ++ k.data)))) } else k
  let x := s2.port p
  s2.setPort p { x with waiting := x.waiting.erase k, credits := tabSet cntZero x.credits vc (x.credit vc - k.slots),
                        lost := if vc = 0 then 0 else if (x.ready 0).isSome then x.lost + k.slots else x.lost,
                        out := x.out ++ k2.image s.pkgId }

/-- The first 8 bytes of a flit (Table 11.2). -/
def Flit.head (f : Flit) : List Byte := natLE 2 f.seq.toNat ++ natLE 2 f.ack.toNat ++ natLE 1 f.typ ++ natLE 3 (f.cvc + f.credit * 4)

/-- The 256 bytes of a flit. -/
def Flit.bytes (f : Flit) : List Byte := f.head ++ f.body ++ natLE 8 (crc64 (f.head ++ f.body)).toNat

/-- The IV of a tag group: key index, then the count of groups (R285). -/
def gcmIv (key group : Nat) : BitVec 96 := BitVec.ofNat 32 key ++ BitVec.ofNat 64 group

/-- Slots encrypted, or decrypted: the `n`-th data flit of its group. -/
def gcmSlots (key : List Byte) (iv : BitVec 96) (n : Nat) (b : List Byte) : List Byte :=
  (List.range b.length).map fun i => b.getD i 0 ^^^ Config.gcmStream key iv (240 * n + i)

/-- The tag over the data flits of a group: headers authenticated, slots encrypted. -/
def gcmGroupTag (key : List Byte) (iv : BitVec 96) (g : List (List Byte × List Byte)) : List Byte :=
  natLE 16 (Config.gcmTag key iv (g.flatMap (·.1)) (g.flatMap (·.2))).toNat

/-- The key in force of a direction of a port. -/
def Port.key (x : Port) (p : Nat) (tx : Bool) : List Byte := Config.linkKey p x.session tx (if tx then x.txKey else x.rxKey)

/-- The last SEQ received good, which flits acknowledge: of an encrypted link the last whose tag group has verified. -/
def Port.ackSeq (x : Port) : BitVec 16 := x.rxSeq - BitVec.ofNat 16 x.rxBlock.length

/-- The next flit of a port: it returns the credits of the highest channel that owes any, and the replay buffer keeps it. -/
def Port.sendFlit (x : Port) (typ : Nat) (body : List Byte) : Port :=
  let vc := ([3, 2, 1, 0].find? fun c => tabGet cntZero x.owed c != 0).getD 0
  let n := min (tabGet cntZero x.owed vc) (2 ^ 22 - 1)
  let f : Flit := { seq := x.txSeq + 1, ack := x.ackSeq, typ := typ, cvc := vc, credit := n, body := body }
  { x with txSeq := x.txSeq + 1, owed := tabSet cntZero x.owed vc (tabGet cntZero x.owed vc - n), replay := x.replay ++ [f] }

/-- Fifteen slots leave in a data flit; on an encrypted link they join their tag group. -/
def Port.sendData (x : Port) (p : Nat) (enc : Bool) : Port :=
  let b := sliceB x.out 0 240
  let body := if enc then gcmSlots (x.key p true) (gcmIv x.txKey x.txGroup) x.txBlock.length b else b
  let y := { x with out := x.out.drop 240 }.sendFlit 1 body
  match enc, y.replay.getLast? with
  | true, some f => { y with txBlock := y.txBlock ++ [(f.head, body)] }
  | _, _ => y

/-- The end of a tag group: its tag in slot 0 of a tag flit, and the switch of keys that waits for it (R285). -/
def Port.sendTag (x : Port) (p : Nat) : Port :=
  let tag := gcmGroupTag (x.key p true) (gcmIv x.txKey x.txGroup) x.txBlock
  let y := { x with txBlock := [] }.sendFlit 2 (tag ++ List.replicate 224 0)
  if y.txTurn then { y with txTurn := false, txKey := y.txKey + 1, txGroup := 0 } else { y with txGroup := y.txGroup + 1 }

/-- Packets leave while they are ready and the replay buffer has room: whole flits, then what is left in a flit padded with empty
slots. -/
def State.flow (s : State) (p : Nat) : Nat → State
  | 0 => s
  | n + 1 =>
    let x := s.port p
    if 1024 ≤ x.replay.length then s
    else if x.txBlock.length = 8 then (s.setPort p (x.sendTag p)).flow p n
    else if 240 ≤ x.out.length then (s.setPort p (x.sendData p (s.flag (fPort_ENC p)))).flow p n
    else match x.pick with
      | some k => (s.take p k).flow p n
      | none => if x.out.isEmpty then s else (s.setPort p (x.sendData p (s.flag (fPort_ENC p)))).flow p n

/-- A port that is ACTIVE sends what its credits allow (R263). A packet takes at most three turns, and a tag flit follows eight. -/
def State.pump (s : State) (p : Nat) : State :=
  if s.portState p ≠ 2 then s else s.flow p (4 * (s.port p).waiting.length + (s.port p).out.length / 120 + 4)

/-- A packet queued on a port. -/
def State.sendOn (s : State) (p : Nat) (k : OutPkt) : State :=
  (s.setPort p { s.port p with waiting := (s.port p).waiting ++ [k] }).pump p

/-- A packet sent towards its destination; a response with no ACTIVE port is dropped. -/
def State.send (s : State) (k : OutPkt) : State :=
  match s.routePort k.dst k.addr with
  | some p => s.sendOn p k
  | none => s

/-- A response packet (Table 11.6). -/
def respPkt (cmd dst job addr tag cause : Nat) (data : List Byte) : OutPkt :=
  { src := none, cmd := cmd, flag := false, len := data.length, dst := dst, job := job, addr := addr, tag := tag, cause := cause, aop := 0, aw := 0,
    data := data }

/-- CTX_USE and CTX_PEAK follow the contexts in use (Table 11.16). -/
def State.syncCtx (s : State) : State :=
  let n := s.fab.ctxs.length
  let s1 := s.setFld fWin_CTX_USE n
  if s1.fld fWin_CTX_PEAK < n then s1.setFld fWin_CTX_PEAK n else s1

/-- The lowest free tag; one whose late response may still come is taken only when there is no other (R284). -/
def State.freeTag (s : State) : Nat :=
  let busy := fun i => s.fab.ctxs.any fun c => c.tag == i
  match (List.range (s.fab.ctxs.length + s.fab.late.length + 1)).find? fun i => !busy i && !s.fab.late.contains i with
  | some i => if i < 262144 then i else s.fab.late.headD 0
  | none => s.fab.late.headD 0

/-- A context is free for the requester (R281): 4,096 are reserved for control threads and management. -/
def State.ctxFree (s : State) (reservedToo : Bool) : Bool :=
  decide (s.fab.ctxs.length < if reservedToo then 262144 else 258048)

/-- Outstanding requests to a target. -/
def State.outstanding (s : State) (target : Nat) : List RCtx := s.fab.ctxs.filter fun c => c.target == target

/-- A requester of the 4,096 contexts reserved for control threads and management (R281). The spec does not say which requests are
management's: the model takes those of the package's own units (DESIGN CHOICE, assumption log 117). -/
def RUse.reserved : RUse → Bool
  | .load t => t.kind == .control
  | .store t => t.kind == .control
  | .amo t => t.kind == .control
  | .read t => t.kind == .control
  | .mgmt => true
  | .unit => true
  | .pool => true
  | _ => false

/-- The class of a thread's requests (Table 13.3): near and control threads, then groves. -/
def threadRank (t : Tid) : Nat := if t.kind = .grove then 2 else 1

/-- The class of a requester in the order of R182, as Table 13.3 assigns the agents: management and the pool's shards; near and control
threads; groves, their engines and update passes. Async copies, which the table does not name, stand with the ring copies, and the
stores and reads of other units of the package with management (DESIGN CHOICE, assumption log 117). -/
def RUse.rank : RUse → Nat
  | .load t => threadRank t
  | .store t => threadRank t
  | .amo t => threadRank t
  | .read t => threadRank t
  | .mgmt => 0
  | .unit => 0
  | .pool => 0
  | _ => 2

/-- Who requests: the packets of one get copy are one requester's. -/
def RUse.asker : RUse → RUse
  | .get id _ => .get id 0
  | u => u

/-- A requester that found no context still waits for one. -/
def State.asks (s : State) : RUse → Bool
  | .load t => (s.ctx t).st == .wait
  | .store t => (s.ctx t).st == .wait
  | .amo t => (s.ctx t).st == .wait
  | .read t => (s.ctx t).st == .wait
  | .put id => s.fab.copies.any fun c => c.id == id
  | .get id _ => s.fab.copies.any fun c => c.id == id
  | .cadd id => s.fab.copies.any fun c => c.id == id
  | .model m => s.mdl.passes.any fun x => x.m == m
  | .mread m => s.mdl.passes.any fun x => x.m == m
  | .matrix t _ => (s.ctx t).st != .idle
  | .digest t _ => (s.ctx t).st != .idle
  | .opnd t _ => (s.ctx t).st != .idle
  | _ => true

/-- The grants that a requester has lost while it waits. -/
def State.lostGrants (s : State) (u : RUse) : Nat := ((s.fab.wants.find? fun w => w.1 == u.asker).map (·.2)).getD 0

/-- A grant goes to another requester that waits: of a higher class, or one that has lost 64 grants (R281). -/
def State.outranked (s : State) (u : RUse) : Bool :=
  decide (s.lostGrants u < 64) && s.fab.wants.any fun w =>
    w.1 != u.asker && s.asks w.1 && s.ctxFree w.1.reserved && (decide (w.1.rank < u.rank) || decide (64 ≤ w.2))

/-- The requester waits for a context; `lose`: a grant went past it. -/
def State.wantCtx (s : State) (u : RUse) (lose : Bool) : State :=
  s.modFab fun f => { f with wants := f.wants.filter (fun w => w.1 != u.asker) ++ [(u.asker, s.lostGrants u + lose.toNat)] }

/-- It waits no longer. -/
def State.unwant (s : State) (u : RUse) : State :=
  if s.fab.wants.isEmpty then s else s.modFab fun f => { f with wants := f.wants.filter fun w => w.1 != u.asker }

/-- The last refusal recorded (Table 11.16). -/
def State.refusalNote (s : State) (cause port target handle : Nat) (va : W64) : State :=
  ((((s.setFld fWin_CAUSE cause).setFld fWin_PORT port).setFld fWin_TARGET target).setFld fWin_HANDLE handle).setFld
    fWin_REM_LAST_VA va.toNat

/-- The outcome of sending a request: its tag, a refusal at the source with its cause, or a wait. -/
inductive SendRes where
  | sent (tag : Nat)
  | refused (cause : Nat)
  | wait
  deriving DecidableEq, Repr

/-- The operation exists in version 1 (Table 11.4): floating atomics and Hazel top-k do not. -/
def v1Lacks (cmd aop len : Nat) : Bool := (cmd == 4 && decide (10 ≤ aop)) || decide (128 < len)

/-- The ACTIVE set of a target's route entry (R266). -/
def State.activeSet (s : State) (target : Nat) : Nat := (s.activePorts (s.route target % 65536)).foldl (fun m p => m + 2 ^ p) 0

/-- The ACTIVE set of a target is not the one its outstanding requests began under: new requests are held until they have completed
(R266). -/
def State.setChanged (s : State) (target : Nat) : Bool :=
  tabGet cntZero s.fab.act target != s.activeSet target && !(s.outstanding target).isEmpty

/-- A port has become ACTIVE or has ceased to be, or a route has changed: targets whose set is another now are marked, and stay so
until their requests have completed even if the set comes back. -/
def State.noteSets (s : State) : State :=
  s.modFab fun f => { f with act := f.act.map fun e => if s.setChanged e.1 then (e.1, 2 ^ 16) else e }

/-- A port's state changed. -/
def State.setPortState (s : State) (p st : Nat) : State := (s.setFld (fPort_STATE p) st).noteSets

/-- Requests outstanding to targets that version 1 links reach (Table 11.4). -/
def State.v1Outstanding (s : State) : Nat := (s.fab.ctxs.filter fun c => s.v1Target c.target).length

/-- A request sent (R264, R266, R281, R424): refused in safe stop, towards an unknown or unreachable target, or where version 1
lacks it; it waits for a context, and while the ACTIVE set of its target changes with requests outstanding. -/
def State.request (s : State) (u : RUse) (handle : Nat) (va : W64) (k : OutPkt) : SendRes × State :=
  if s.flag fSafe_SAFE then (.refused 0x05, (s.refusalNote 0x05 15 k.dst handle va).unwant u)
  else if s.setChanged k.dst then (.wait, s)
  else match s.routePort k.dst k.addr with
    | none => (.refused 0x02, (s.refusalNote 0x02 15 k.dst handle va).unwant u)
    | some p =>
      if s.v1Target k.dst ∧ v1Lacks k.cmd k.aop k.data.length then (.refused 0x04, (s.refusalNote 0x04 15 k.dst handle va).unwant u)
      else if s.v1Target k.dst ∧ 65536 ≤ s.v1Outstanding then (.wait, s)
      else if !s.ctxFree u.reserved then (.wait, s.wantCtx u false)
      else if s.outranked u then (.wait, s.wantCtx u true)
      else
        let tag := s.freeTag
        let c : RCtx := { tag := tag, use := u, flag := k.flag, target := k.dst, port := p, handle := handle, va := va, addr := k.addr,
                          len := k.len }
        let s1 := (s.unwant u).modFab fun f =>
          { f with ctxs := f.ctxs ++ [c], act := tabSet cntZero f.act k.dst (s.activeSet k.dst), late := f.late.filter (· != tag) }
        (.sent tag, (s1.sendOn p { k with tag := tag }).syncCtx)

/-- A context released by its response, refusal or timeout: no flagged store waits for it any more. -/
def State.dropCtx (s : State) (tag : Nat) : State :=
  ((s.modFab fun f => { f with ctxs := f.ctxs.filter fun c => c.tag != tag,
                               flags := f.flags.map fun g => { g with tags := g.tags.filter (· != tag) } }).syncCtx).jobOver

/-- A refused write to a target (R277): it breaks the first waiting flagged store that `mine` says it precedes, otherwise the
next one. -/
def State.breakFlag (s : State) (target : Nat) (mine : FlagReq → Bool) : State :=
  match s.fab.flags.find? fun f => f.target == target && mine f with
  | some f => s.modFab fun x => { x with flags := x.flags.map fun g => if g.id = f.id then { g with bad := true } else g }
  | none => s.modFab fun x => if x.broken.contains target then x else { x with broken := x.broken ++ [target] }

/-- The context of a tag. -/
def State.rctx (s : State) (tag : Nat) : Option RCtx := s.fab.ctxs.find? fun c => c.tag == tag

end Sys2Proof.Machine
end

