-- ==== Sys2Proof/Machine/Xlate.lean ====
section
/-! DEFINITION. Translation of virtual addresses: the view check, the page-table walk, rights (R29 to R32, R190, R239, R270,
R436). No translation is cached (assumption log 9). -/

namespace Sys2Proof.Machine

/-- Kinds of access, by the right they need (Table 2.5): a load, a store, an instruction fetch, an atomic. -/
inductive AKind where
  | load | store | fetch | atomic
  deriving DecidableEq, Repr

/-- The access writes. -/
def AKind.writes : AKind → Bool
  | .store => true
  | .atomic => true
  | _ => false

/-- Who translates: the thread's level, an engine of the package acting for the job, or the package's own update passes,
registrations and repairs of models, which alone write protected ranges (R239). -/
inductive Who where
  | jobLevel | supLevel | engine | model
  deriving DecidableEq, Repr

/-- What a translated address names. -/
inductive Target where
  | dram (key : Nat)
  | host (hpa : Nat)
  | remote (addr : Nat)
  | regs (off : Nat)
  | tables (off : Nat)
  | view (i : Nat) (scale : Bool)
  deriving DecidableEq, Repr

/-- The outcome of a translation: a target, a fault code of Table 2.6 (or UNCORRECTABLE, R31), or a wait for a stack. -/
inductive Xl where
  | ok (t : Target)
  | fault (code : Nat)
  | stall
  deriving DecidableEq, Repr

/-- A request to the line waits (R161, R172): its pseudo-channel is PAUSED or its stack is stopped. -/
def State.lineStalled (s : State) (line : Nat) : Bool :=
  let k := line * 64
  s.flag (fMem_STOP (keyStack k)) || s.pcState (keyStack k) (offPc (keyOff k)) == 2

/-- The step of a walk: the entry names the next table, is a leaf, faults, or its line stalls. -/
inductive WalkStep where
  | next (lpa : Nat)
  | leaf (entry : Nat)
  | fault (code : Nat)
  | stall
  deriving DecidableEq, Repr

/-- Page size in bits of a leaf at a level (Table 2.4). -/
def leafBits : Nat → Nat
  | 2 => 30
  | 3 => 21
  | _ => 16

/-- The lowest index bit of a level. -/
def levelShift : Nat → Nat
  | 0 => 48
  | 1 => 39
  | 2 => 30
  | 3 => 21
  | _ => 16

/-- Index bits of a level. -/
def levelBits : Nat → Nat
  | 4 => 5
  | _ => 9

/-- The local physical address of a level's entry for a virtual address. -/
def entryLpa (lvl tbl va : Nat) : Nat := tbl + 8 * ((va >>> levelShift lvl) % 2 ^ levelBits lvl)

/-- Reserved fields of a leaf are zero, its frame is aligned and its target legal (Tables 2.5, 2.6). -/
def leafFormOk (lvl e : Nat) : Bool :=
  let tgt := bitsOf e 6 5
  let pkg := bitsOf e 63 48
  bitsOf e 15 9 == 0 && tgt != 3 && (bitsOf e 47 16 * 65536) % 2 ^ leafBits lvl == 0 &&
    (if tgt = 2 then pkg != 0xFFFF else pkg == 0)

/-- What an entry of a level says (R30, Table 2.5a, Table 2.6). -/
def State.walkEntry (s : State) (lvl e : Nat) : WalkStep :=
  if !bitAt e 0 then .fault 0x11
  else if lvl < 4 ∧ !bitAt e 1 then
    let nxt := bitsOf e 47 8 * 256
    if bitsOf e 7 2 ≠ 0 ∨ bitsOf e 63 48 ≠ 0 ∨ (lvl ≤ 2 ∧ bitsOf e 11 8 ≠ 0) then .fault 0x12
    else match s.place nxt with
      | .dram _ => .next nxt
      | _ => .fault 0x12
  else if lvl ≤ 1 then .fault 0x12
  else if leafFormOk lvl e then .leaf e
  else .fault 0x12

/-- A leaf found: its level, its own byte key, its value. -/
structure Leaf where
  lvl : Nat
  key : Nat
  e : Nat
  deriving DecidableEq, Repr

/-- The outcome of a walk. -/
inductive Walk where
  | leaf (l : Leaf)
  | fault (code : Nat)
  | stall
  deriving DecidableEq, Repr

/-- The walk from a level with `fuel` levels left (R29 to R31): each entry is read at its home; an uncorrectable line ends it. -/
def State.walk (s : State) (va : Nat) : Nat → Nat → Nat → Walk × State
  | 0, _, _ => (.fault 0x12, s)
  | fuel + 1, lvl, tbl =>
    match s.place (entryLpa lvl tbl va) with
    | .dram k =>
      if s.lineStalled (k / 64) then (.stall, s)
      else match s.consumeLine true (k / 64) with
        | (false, s1) => (.fault 0x24, s1)
        | (true, s1) =>
          let e := leNat (s1.dramBytes k 8)
          match s1.walkEntry lvl e with
          | .next lpa => s1.walk va fuel (lvl + 1) lpa
          | .leaf e => (.leaf { lvl := lvl, key := k, e := e }, s1)
          | .fault c => (.fault c, s1)
          | .stall => (.stall, s1)
    | _ => (.fault 0x12, s)

/-- The right of an access kind is in the leaf (Table 2.5). -/
def leafAllows (e : Nat) : AKind → Bool
  | .load => bitAt e 2
  | .store => bitAt e 3
  | .atomic => bitAt e 3
  | .fetch => bitAt e 4

/-- A and D set in a leaf by an access (Table 2.5). -/
def State.markLeaf (s : State) (l : Leaf) (k : AKind) : State :=
  let e' := l.e ||| 0x80 ||| (if k.writes then 0x100 else 0)
  if e' = l.e then s else s.writePart l.key (natLE 8 e')

/-- The leaf of an address as its walk has found it. -/
def State.findLeaf (s : State) (va : Nat) : Nat → Nat → Nat → Option Leaf
  | 0, _, _ => none
  | fuel + 1, lvl, tbl =>
    match s.place (entryLpa lvl tbl va) with
    | .dram k =>
      match s.walkEntry lvl (leNat (s.dramBytes k 8)) with
      | .next lpa => s.findLeaf va fuel (lvl + 1) lpa
      | .leaf e => some { lvl := lvl, key := k, e := e }
      | _ => none
    | _ => none

/-- A and D as an access that is performed sets them (Table 2.5). A translation alone, such as a check of rights or one whose
access faults or has yet to be performed, sets neither (DESIGN CHOICE, assumption log 105). -/
def State.markAccess (s : State) (va : Nat) (k : AKind) : State :=
  match s.findLeaf va 5 0 (s.fld fPkg_TROOT) with
  | some l => s.markLeaf l k
  | none => s

/-- Where a leaf leads, with the rights of the place (R30, R31, R239, R270, R436). Where a leaf lacks the right and also names an
unpopulated or a reserve address, Table 2.6 gives no precedence: RIGHTS is raised (DESIGN CHOICE, assumption log 106). -/
def State.leafTarget (s : State) (who : Who) (va : Nat) (l : Leaf) (k : AKind) : Xl :=
  let off := va % 2 ^ leafBits l.lvl
  let addr := bitsOf l.e 47 16 * 65536 + off
  if !leafAllows l.e (if who = .model then .load else k) then .fault 0x13
  else match bitsOf l.e 6 5 with
    | 0 =>
      match s.place addr with
      | .dram key =>
        if s.lent key || (k.writes && who != .model && s.protectedKey key 1) then .fault 0x13 else .ok (.dram key)
      | .reserve _ => .fault 0x15
      | .hole => .fault 0x14
      | .regs o => if who = .supLevel ∧ k ≠ .atomic ∧ k ≠ .fetch then .ok (.regs o) else .fault 0x13
      | .tables o =>
        if k = .atomic ∨ k = .fetch then .fault 0x13
        else match who with
          | .supLevel => .ok (.tables o)
          | .jobLevel => if 0x500000 ≤ o ∧ o < 0x508000 then .ok (.tables o) else .fault 0x13
          | _ => .fault 0x13
    | 1 => .ok (.host addr)
    | _ => .ok (.remote (bitsOf l.e 63 48 * 2 ^ 48 + addr))

/-- The translation of a virtual address by the job's page table (R29). -/
def State.xlatePage (s : State) (who : Who) (va : Nat) (k : AKind) : Xl × State :=
  if 2 ^ 57 ≤ va then (.fault 0x10, s)
  else match s.walk va 5 0 (s.fld fPkg_TROOT) with
    | (.fault c, s1) => (.fault c, s1)
    | (.stall, s1) => (.stall, s1)
    | (.leaf l, s1) =>
      (s1.leafTarget who va l k, s1)

/-- The translation of an access: views first (R190), then the page table. -/
def State.xlate (s : State) (who : Who) (va : Nat) (k : AKind) : Xl × State :=
  match s.viewAt va with
  | some (i, sc) => if k = .fetch ∨ k = .atomic then (.fault 0x40, s) else (.ok (.view i sc), s)
  | none => s.xlatePage who va k

/-- The code of a translation that faults or names no local DRAM; for units that report a status. -/
def Xl.localKey : Xl → Option Nat
  | .ok (.dram k) => some k
  | _ => none

end Sys2Proof.Machine
end

