-- ==== Sys2Proof/Machine/Access.lean ====
section
/-! DEFINITION. Accesses performed at the home of a line: directory actions (R184, R355), the receive combiner (R188, R189),
reads and writes, wakes of line-watches (R56), dirty bits (R335), and lines of host memory (R357). -/

namespace Sys2Proof.Machine

/-! ### Directory (R183, R184) -/

/-- Who asks the home: a die cache, the P die shared cache, the host, an agent that does not cache, or one that does not cache and
works inside the stack, without its interface (R178, R180). -/
inductive Holder where
  | dc0 | dc1 | psc | host | none | inStack
  deriving DecidableEq, Repr

/-- The holder's mark in an entry. -/
def Dir.has (d : Dir) : Holder → Bool
  | .dc0 => d.dc0
  | .dc1 => d.dc1
  | .psc => d.psc
  | .host => d.host
  | .none => false
  | .inStack => false

/-- STATE of an entry (Table 8.2). -/
def Dir.stateCode (d : Dir) : Nat :=
  if d.mod then 2 else if d.dc0 || d.dc1 || d.psc || d.host then 1 else 0

/-- Bits [5:0] of an entry. -/
def Dir.bits (d : Dir) : Nat := d.stateCode + 4 * d.dc0.toNat + 8 * d.dc1.toNat + 16 * d.psc.toNat + 32 * d.host.toNat

/-- The 16 bits of a stored entry (Table 8.2): which SECDED code forms CHK the spec leaves open. -/
def Dir.word (d : Dir) : BitVec 16 := BitVec.ofNat 16 (d.bits + 64 * (Config.dirCheck d.bits).toNat)

/-- The entry that a word stores. -/
def Dir.ofWord (w : BitVec 16) : Dir :=
  { mod := w.toNat % 4 == 2, dc0 := w.getLsbD 2, dc1 := w.getLsbD 3, psc := w.getLsbD 4, host := w.getLsbD 5 }

/-- The entry set. -/
def State.setDir (s : State) (line : Nat) (d : Dir) : State :=
  { s with mem := { s.mem with dir := tabSet dirNone s.mem.dir line d } }

/-- A holder's mark added to an entry. -/
def Dir.mark (d : Dir) : Holder → Dir
  | .dc0 => { d with dc0 := true }
  | .dc1 => { d with dc1 := true }
  | .psc => { d with psc := true }
  | .host => { d with host := true }
  | .none => d
  | .inStack => d

/-- The entry after a read: the holder of a modified copy reads its own; another's is taken back, which leaves it a shared copy, and
the reader is marked if it caches (R184). -/
def Dir.afterRead (d : Dir) (h : Holder) : Dir := if d.mod && d.has h then d else { d.mark h with mod := false }

/-- The entry after a write: every other holder invalidated; the writer holds it modified if it caches (R184). -/
def Dir.afterWrite (h : Holder) : Dir :=
  if h = .none ∨ h = .inStack then Dir.none else { Dir.none.mark h with mod := true }

/-- The host must be snooped before the request (R355). -/
def State.biNeeded (s : State) (line : Nat) (write : Bool) (h : Holder) : Bool :=
  (s.dir line).host && h != .host && (write || (s.dir line).mod) && !s.flag fCxl_HOST_LOST

/-- A back-invalidation snoop is sent and waits (R355). -/
def State.biSend (s : State) (line : Nat) : State :=
  if s.mem.bi.contains line then s
  else ({ s with mem := { s.mem with bi := s.mem.bi ++ [line] } }).inc fCxl_BI_SENT

/-- The snoop's response has arrived: before a write the host gives the line up, before a read it keeps a shared copy (R184). -/
def State.biDone (s : State) (line : Nat) (write : Bool) : State :=
  ({ s with mem := { s.mem with bi := s.mem.bi.filter fun l => l != line } }).setDir line
    (if write then { s.dir line with host := false } else { s.dir line with mod := false })

/-- A cache holds a newer value: it replaces the stored codeword, whose errors are gone with it (R157). -/
def State.newerWritten (s : State) (line : Nat) : State :=
  if (s.dir line).mod && !s.injectedLine line then (s.setSymErr line []).setInner line 0 else s

/-- A line's directory entry read: a single wrong bit is corrected and counted; an uncorrectable entry makes the home invalidate
every possible holder, the host by a snoop answered within the step, and is recorded (R180, R208, class 0x47). -/
def State.dirChecked (s : State) (line : Nat) : State :=
  let n := keyStack (line * 64)
  let s1 := { s with mem := { s.mem with dirErr := tabSet cntZero s.mem.dirErr line 0 } }
  match tabGet cntZero s.mem.dirErr line with
  | 0 => s
  | 1 => s1.addSat (fMsc_DIR_CE n) 1
  | _ =>
    (((((s1.newerWritten line).biSend line).biDone line true).setDir line Dir.none)).reportR 0x47 (mscPage n)
      (offSlice (keyOff (line * 64))) 0 (BitVec.ofNat 64 (keyOff (line * 64)))

/-- The home's actions before a request (R184): the snoop of a host holder is answered within the step. -/
def State.homeActions (s : State) (line : Nat) (write : Bool) (h : Holder) : State :=
  let s0 := (s.dirChecked line).newerWritten line
  let s1 := if s0.biNeeded line write h then (s0.biSend line).biDone line write else s0
  s1.setDir line (if write then Dir.afterWrite h else (s1.dir line).afterRead h)

/-! ### Line-watches (R56) -/

/-- Identity of a line for line-watches: local lines, then host lines. -/
def localLine (key : Nat) : Nat := key / 64
/-- A host line. -/
def hostLine (hpa : Nat) : Nat := 2 ^ 40 + hpa / 64

/-- The index of the lowest armed line that has been written. -/
def Ctx.written (c : Ctx) : Option Nat := c.lines.findIdx? fun e => e.2

/-- An LWAIT that ends with a result: D is written, every armed line is cleared, the instruction retires. R56 says that waking
clears the armed lines; that the timeout, which ends the wait too, clears them is this model's choice (DESIGN CHOICE, assumption
log 107). -/
def Ctx.endWait (c : Ctx) (res : Nat) : Ctx :=
  match c.instr with
  | some (.lwait _ d _) =>
    { c.sa d.val (BitVec.ofNat 64 res) with st := .ready, instr := none, await := .cond, lines := [], pc := c.pc + 4 }
  | _ => c

/-- A write to a line as a context sees it: the mark, and the wake of a thread in LWAIT. -/
def Ctx.touch (c : Ctx) (lid : Nat) : Ctx :=
  let c1 := { c with lines := c.lines.map fun e => if e.1 = lid then (e.1, true) else e }
  if c1.st = .wait ∧ c1.await = .line then
    match c1.written with
    | some i => c1.endWait i
    | none => c1
  else c1

/-- A write to a line reaches every thread that has it armed. -/
def State.notify (s : State) (lid : Nat) : State :=
  (s.thr.ctxs.filter fun e => e.2.lines.any fun l => l.1 == lid).foldl
    (fun t e => { t with thr := { t.thr with ctxs := tabSet ctxDefault t.thr.ctxs e.1 (e.2.touch lid) } }) s

/-! ### Dirty bits and protection (R334, R335) -/

/-- The granule's dirty bit set. -/
def State.dirtyGran (s : State) (g : Nat) : State :=
  { s with snp := { s.snp with dirty := tabSet noMark s.snp.dirty g true } }

/-- A write to the byte waits on snapshot protection (R334). -/
def State.unitProtected (s : State) (key : Nat) : Bool := s.snp.units.any fun u => u.grans.contains (key / 4096)

/-- A write that waits on protection: its unit is copied next (R339). -/
def State.noteStall (s : State) (key : Nat) : State :=
  if s.unitProtected key ∧ !s.snp.stalled.contains (key / 4096) then
    { s with snp := { s.snp with stalled := s.snp.stalled ++ [key / 4096] } }
  else s

/-- A request to bytes waits: a paused pseudo-channel, a stopped stack, or for a write a protected unit (R161, R172, R334). -/
def State.accessStalled (s : State) (key len : Nat) (write : Bool) : Bool :=
  (List.range ((key % 64 + len + 63) / 64)).any (fun i => s.lineStalled (key / 64 + i)) ||
    (write && (s.unitProtected key || s.unitProtected (key + len - 1)))

/-! ### The receive combiner (R188, R189) -/

/-- COMB_USE and COMB_PEAK follow the entries in use. -/
def State.syncComb (s : State) (n : Nat) : State :=
  let u := (s.stk n).comb.length
  let s1 := s.setFld (fMsc_COMB_USE n) u
  if s1.fld (fMsc_COMB_PEAK n) < u then s1.setFld (fMsc_COMB_PEAK n) u else s1

/-- The bytes of a stored value. -/
def amoBytes (aw v : Nat) : List Byte := natLE aw v

/-- An answer of the combiner to a request: the old value, or a refusal. -/
def State.combAnswer (s : State) (r : CombReq) (old : Option Nat) : State :=
  match old with
  | some v => s.send (respPkt 0x11 r.src r.job r.addr r.tag 0 (natLE r.aw v))
  | none => (s.inc fWin_REFUSED_IN).send (respPkt 0x12 r.src r.job r.addr r.tag 0x0C [])

/-- One request of an entry applied to the line, with its own rounding. -/
def State.combOne (s : State) (r : CombReq) : State :=
  let old := leNat (s.dramBytes r.key r.aw)
  let v := amoStored r.op r.aw old (r.operand.toNat % 2 ^ (8 * r.aw)) 0
  ((s.writeHome r.key (amoBytes r.aw v)).dirtyGran (r.key / 4096)).combAnswer r (some old)

/-- An entry applied: its requests in arrival order in one update, or all refused on an uncorrectable line. -/
def State.combApply (s : State) (n line : Nat) : State :=
  match (s.stk n).comb.find? fun e => e.1 == line with
  | none => s
  | some e =>
    let s1 := (s.modStk n fun x => { x with comb := x.comb.filter fun e => e.1 != line }).syncComb n
    match s1.consumeLine false line with
    | (true, s2) => (e.2.foldl (fun t r => t.combOne r) (s2.homeActions line true .none)).notify line
    | (false, s2) => e.2.foldl (fun t r => t.combAnswer r none) s2

/-- The entry of a line is applied before any other request to it (R189). -/
def State.combFlush (s : State) (line : Nat) : State :=
  if (s.stk (keyStack (line * 64))).comb.any fun e => e.1 == line then s.combApply (keyStack (line * 64)) line else s

/-! ### Reads and writes at the home -/

/-- The lines that bytes touch. -/
def linesOf (key len : Nat) : List Nat := (List.range ((key % 64 + len + 63) / 64)).map fun i => key / 64 + i

/-- Home actions on every line of a range. -/
def State.prepLines (s : State) (key len : Nat) (write : Bool) (h : Holder) : State :=
  (linesOf key len).foldl (fun t l => (t.combFlush l).homeActions l write h) s

/-- A read at the home for a consumer: the bytes, or `none` when a line is uncorrectable (Table 7.3). -/
def State.homeRead (s : State) (h : Holder) (key len : Nat) : Option (List Byte) × State :=
  let s1 := s.prepLines key len false h
  match s1.consumeLines (h != .inStack) (key / 64) (linesOf key len).length with
  | (none, s2) => (some (s2.dramBytes key len), s2)
  | (some _, s2) => (none, s2)

/-- A write at the home. -/
def State.homeWrite (s : State) (h : Holder) (key : Nat) (bs : List Byte) : State :=
  if bs.isEmpty then s
  else
    let s1 := (s.prepLines key bs.length true h).writeHome key bs
    let s2 := (s1.dirtyGran (key / 4096)).dirtyGran ((key + bs.length - 1) / 4096)
    (linesOf key bs.length).foldl (fun t l => t.notify l) s2

/-- An atomic at the home (R185), for a holder that does not cache: the old value, or `none` on an uncorrectable line, which leaves memory unchanged. -/
def State.homeAmo (s : State) (h : Holder) (key aw aop b exp : Nat) : Option Nat × State :=
  match (s.prepLines key aw true h).consumeLine (h != .inStack) (key / 64) with
  | (false, s1) => (none, s1)
  | (true, s1) =>
    let old := leNat (s1.dramBytes key aw)
    (some old, ((s1.writeHome key (amoBytes aw (amoStored aop aw old b exp))).dirtyGran (key / 4096)).notify (key / 64))

/-! ### Host memory (R357, R360) -/

/-- An unlisted host line is not held. -/
def hostDefault (_ : Nat) : HLine := HLine.none

/-- The host is reachable for CXL.cache: enabled (R352, R370), and neither Viral nor lost (R360). -/
def State.hostUp (s : State) : Bool := s.flag fCxl_CACHE_EN && !(s.flag fCxl_VIRAL || s.flag fCxl_HOST_LOST)

/-- A host line held. -/
def State.hline (s : State) (l : Nat) : HLine := tabGet hostDefault s.mem.hostLines l
/-- A host line set. -/
def State.setHline (s : State) (l : Nat) (x : HLine) : State :=
  { s with mem := { s.mem with hostLines := tabSet hostDefault s.mem.hostLines l x } }

/-- Room for one more host line: the snoop filter tracks 2^20 (R357). -/
def State.hostRoom (s : State) : State :=
  match s.mem.hostLines with
  | (l, _) :: _ => if 2 ^ 20 ≤ s.mem.hostLines.length then s.setHline l HLine.none else s
  | [] => s

/-- A host line brought in: bytes free, and free whether they arrive with the poison indication (R357). -/
def State.hostFill (s : State) (l : Nat) : State :=
  if (s.hline l).bytes.isEmpty then
    let s1 := s.hostRoom
    let n := s1.fresh
    let p := Config.outcome n
    let s2 := { s1 with fresh := n + 64 }
    let s3 := s2.setHline l { bytes := (List.range 64).map fun i => Config.freeByte (n + i), modified := false, poison := p }
    if p then s3.inc fCxl_POISON_IN else s3
  else s

/-- Bytes of host memory read through the package's caches; `none` on an uncorrectable line. -/
def State.hostRead (s : State) (hpa len : Nat) : Option (List Byte) × State :=
  let ls := (List.range ((hpa % 64 + len + 63) / 64)).map fun i => hpa / 64 + i
  let s1 := ls.foldl (fun t l => t.hostFill l) s
  if ls.any fun l => (s1.hline l).poison then (none, s1)
  else (some ((List.range len).map fun i => (s1.hline ((hpa + i) / 64)).bytes.getD ((hpa + i) % 64) 0), s1)

/-- One byte of host memory written in the package's caches. -/
def State.hostPutByte (s : State) (hpa : Nat) (b : Byte) : State :=
  let x := s.hline (hpa / 64)
  s.setHline (hpa / 64) { x with bytes := putBytes x.bytes (hpa % 64) [b], modified := true }

/-- Bytes of host memory written. A write of a whole line replaces a poisoned one (R156). -/
def State.hostWrite (s : State) (hpa : Nat) (bs : List Byte) : State :=
  let ls := (List.range ((hpa % 64 + bs.length + 63) / 64)).map fun i => hpa / 64 + i
  let s1 := ls.foldl (fun t l => t.hostFill l) s
  let s2 := (List.range bs.length).foldl (fun t i => t.hostPutByte (hpa + i) (bs.getD i 0)) s1
  let full := hpa % 64 == 0 && bs.length % 64 == 0
  let s3 := if full then ls.foldl (fun t l => t.setHline l { t.hline l with poison := false }) s2 else s2
  ls.foldl (fun t l => t.notify (2 ^ 40 + l)) s3

end Sys2Proof.Machine
end

