-- ==== Sys2Proof/Machine/Target.lean ====
section
/-! DEFINITION. Requests at the package they are for: the checks of Table 11.9 and what a request does at its home (R37, R38, R271,
R274, R278). -/

namespace Sys2Proof.Machine

/-- What becomes of a request at its target: an answer with its data, a refusal with its cause, or a wait at the home. -/
inductive HomeRes where
  | ok (data : List Byte)
  | refused (cause : Nat)
  | wait
  deriving DecidableEq, Repr

/-- The width in bytes of an atomic's AW code (Table 11.5). -/
def awBytes (aw : Nat) : Nat := if aw = 2 then 4 else 8

/-- The command exists in version 2: an unknown one, or an atomic with a reserved AOP or AW, is refused with VERSION. -/
def knownCmd (cmd aop aw : Nat) : Bool :=
  cmd == 1 || cmd == 2 || cmd == 5 || (cmd == 4 && decide (aop < 13) && (aw == 2 || aw == 3))

/-- The bytes a request touches. -/
def reqBytes (cmd len aw n : Nat) : Nat := if cmd = 1 then len else if cmd = 4 then awBytes aw else n

/-- The request writes. -/
def cmdWrites (cmd : Nat) : Bool := cmd == 2 || cmd == 4

/-- The window's right for a command (Table 11.7). -/
def Window.allows (w : Window) (cmd : Nat) : Bool := if cmd = 1 then w.rd else if cmd = 2 then w.wr else w.at_

/-- The window checks of Table 11.9, WINDOW_INVALID to RESERVE: cause 0 and the byte key, or the cause. -/
def State.checkWindow (s : State) (cmd src job addr n : Nat) : Nat × Nat :=
  let w := s.window (bitsOf addr 47 34)
  let off := bitsOf addr 33 0
  if !w.valid then (6, 0)
  else if w.job ≠ job then (7, 0)
  else if src < w.srcLo ∨ w.srcHi < src then (8, 0)
  else if w.len < off + n then (9, 0)
  else if !w.allows cmd then (10, 0)
  else match s.place (w.base + off) with
    | .dram key => if cmdWrites cmd ∧ s.protectedKey key n then (10, 0) else (0, key)
    | .reserve _ => (11, 0)
    | _ => (9, 0)

/-- A request performed at its home, as an access of an agent that does not cache (R271, R184, R185). -/
def State.homePerform (s : State) (cmd key len aop aw : Nat) (data : List Byte) : HomeRes × State :=
  if cmd = 1 then
    match s.homeRead .none key len with
    | (some b, s1) => (.ok b, s1)
    | (none, s1) => (.refused 0x0C, s1)
  else if cmd = 2 then (.ok [], s.homeWrite .none key data)
  else
    let w := awBytes aw
    let b := leNat (sliceB data (if aop = 9 then w else 0) w)
    match s.homeAmo .none key w aop b (leNat (sliceB data 0 w)) with
    | (some old, s1) => (.ok (natLE w old), s1)
    | (none, s1) => (.refused 0x0C, s1)

/-- A counter allocated to the job named (R278). -/
def State.counterOf (s : State) (i job : Nat) : Bool := s.fab.cnts.contains i && s.jobRuns && s.jobId == job

/-- A CADD applied (R278, R271). -/
def State.caddApply (s : State) (i job : Nat) (data : List Byte) : HomeRes × State :=
  if s.counterOf i job then
    let v := leNat data
    (.ok [], s.addCounter i (v % 2 ^ 63) (bitAt v 63))
  else (.refused 0x0E, s)

/-- A request of this package to its own ID: turned back, checked as a remote one, performed as a local access (R38). -/
def State.turned (s : State) (cmd addr len aop aw : Nat) (data : List Byte) : HomeRes × State :=
  if cmd = 5 then
    match s.caddApply (addr % 4096) s.jobId data with
    | (.refused c, s1) => (.refused c, s1.inc fWin_REFUSED_IN)
    | x => x
  else
    let n := reqBytes cmd len aw data.length
    let (cause, key) := s.checkWindow cmd s.pkgId s.jobId addr n
    if cause ≠ 0 then (.refused cause, s.inc fWin_REFUSED_IN)
    else if s.accessStalled key n (cmdWrites cmd) then (.wait, if cmdWrites cmd then s.noteStall key else s)
    else match s.homePerform cmd key len aop aw data with
      | (.refused c, s1) => (.refused c, s1.inc fWin_REFUSED_IN)
      | x => x

/-- A global fabric address names this package. -/
def State.isSelf (s : State) (addr : Nat) : Bool := addr / 2 ^ 48 == s.pkgId

end Sys2Proof.Machine
end

