-- ==== Sys2Proof/Machine/Mx.lean ====
section
/-! DEFINITION. Microscaling blocks (R91 to R93), packing of narrow elements, and the expansion of narrow-integer weights (R94,
R95). -/

namespace Sys2Proof.Machine

/-- Element `i` of `bits`-bit elements packed little-endian from a number (R92). -/
def packedAt (bits n i : Nat) : Nat := (n >>> (bits * i)) % 2 ^ bits

/-- Elements packed little-endian into a number (R92). -/
def packAll (bits : Nat) : List Nat → Nat
  | [] => 0
  | x :: xs => x % 2 ^ bits + 2 ^ bits * packAll bits xs

/-- The magnitude's leading exponent, floor(log2 |x|), of a nonzero finite value. -/
def leadExp (m : Nat) (e : Int) : Int := (Nat.log2 m : Int) + e

/-- The largest leading exponent among nonzero finite values. -/
def maxLead : List Num → Option Int
  | [] => none
  | .fin _ m e :: xs =>
    if m = 0 then maxLead xs
    else match maxLead xs with
      | some l => some (if l < leadExp m e then leadExp m e else l)
      | none => some (leadExp m e)
  | _ :: xs => maxLead xs

/-- A value that is not finite. -/
def Num.special : Num → Bool
  | .fin _ _ _ => false
  | _ => true

/-- One element v / 2^e in an MX element format (R93 step 4). -/
def mxElem (code rm r : Nat) (e : Int) (x : Num) : Nat × Flags :=
  match x with
  | .fin neg m ex =>
    match codeMx code with
    | some f => f.convert rm r true (.fin neg m (ex - e))
    | none =>
      let (y, nx) := roundInt rm r neg m (ex - e + 6)
      if 127 < y then (ofSInt 8 (if neg then -127 else 127), flOF ||| flNX)
      else (ofSInt 8 (if neg then -(y : Int) else y), if nx then flNX else 0)
  | _ => (0, 0)

/-- A block encoded: scale, element patterns, flags (R93); `r k` is element k's random value. -/
def mxEncode (code rm : Nat) (r : Nat → Nat) (xs : List Num) : Nat × List Nat × Flags :=
  if xs.any Num.special then (0xFF, xs.map fun _ => 0, flNV)
  else match maxLead xs with
    | none => (0, xs.map fun x => match codeMx code with
        | some f => f.withSign x.neg 0
        | none => 0, 0)
    | some l =>
      let e0 := l - mxEmax code
      let e := if e0 < -127 then -127 else if 127 < e0 then 127 else e0
      let out := (List.range xs.length).map fun k => mxElem code rm (r k) e (xs.getD k (.fin false 0 0))
      ((e + 127).toNat, out.map (·.1), out.foldl (fun fl x => fl ||| x.2) 0)

/-- Element `bits` of a block with scale `x` (R91). -/
def mxDecode (code x bits : Nat) : Num :=
  if x = 0xFF then .nan false true 0
  else
    let sh : Int := (x : Int) - 127
    let v := match codeMx code with
      | some f => f.decode bits
      | none => match numOfInt (sInt 8 bits) with
        | .fin n m e => .fin n m (e - 6)
        | y => y
    match v with
    | .fin n m e => .fin n m (e + sh)
    | y => y

/-- An expanded weight under the group method (R95): (q − Z) × s rounded once by RNE; saturation and NaN are told. -/
def expandGroup (tgt srcCode q rec : Nat) : Nat × Bool × Bool :=
  let f := (codeFmt tgt).getD fmtBF16
  let signed := srcCode = 0x0C ∨ srcCode = 0x0E
  let z : Int := if signed then sInt 8 (bitsOf rec 23 16) else (bitsOf rec 23 16 : Nat)
  let qv : Int := if signed then sInt (codeBits srcCode) q else (q : Nat)
  match fmtBF16.decode (bitsOf rec 15 0) with
  | .fin neg m e =>
    let d := qv - z
    let (p, fl) := f.roundFin 0 0 true (neg != decide (d < 0)) (d.natAbs * m) e
    (p, (fl &&& flOF) != 0, false)
  | _ => (f.canonNaN, false, true)

end Sys2Proof.Machine
end

