-- ==== Sys2Proof/Machine/Views.lean ====
section
/-! DEFINITION. Typed views: what the converter serves and performs (R192 to R201, R45). -/

namespace Sys2Proof.Machine

/-- What a view access gives. -/
inductive VRes where
  | ok (bytes : List Byte)
  | poison
  | fault (code : Nat)
  | stall
  deriving DecidableEq, Repr

/-- The 4 KiB segments of a virtual range. -/
def segments (va len : Nat) : List (Nat × Nat) :=
  (List.range ((va % 4096 + len + 4095) / 4096)).map fun i =>
    let g := (va / 4096 + i) * 4096
    let lo := max va g
    (lo, min (va + len) (g + 4096) - lo)

/-- The end of a presented or scale range that lies inside a segment. -/
def State.viewCut (s : State) (va n : Nat) : Option Nat :=
  (s.views.flatMap fun i => let v := s.view i
    v.vend :: (if v.mx then [v.svend] else [])).find? fun e => decide (va < e ∧ e < va + n)

/-- The segments of a range, cut where a presented or scale range ends: such a range begins on a boundary of 64 KiB and ends on one of
64 bytes (R190, R195), so that a segment lies inside one or outside all of them. -/
def State.segs (s : State) (va n : Nat) : List (Nat × Nat) :=
  (segments va n).flatMap fun g =>
    match s.viewCut g.1 g.2 with
    | some e => [(g.1, e - g.1), (e, g.1 + g.2 - e)]
    | none => [g]

/-- The stored bytes of a segment: translated by the page table, in a stack where the view holds a slot (R192, R201). -/
def State.viewKey (s : State) (v : View) (va : Nat) (k : AKind) : Xl × State :=
  match s.xlatePage .engine va k with
  | (.ok (.dram key), s1) => if bitAt v.stackSet (keyStack key) then (.ok (.dram key), s1) else (.fault 0x42, s1)
  | (.ok _, s1) => (.fault 0x42, s1)
  | (.fault c, s1) => (.fault (if c = 0x13 ∧ k = .store then 0x40 else c), s1)
  | (.stall, s1) => (.stall, s1)

/-- The view page of a stack counts a line delivered poisoned (R200). -/
def State.viewPoison (s : State) (stack : Nat) : State := s.inc (fView_POISON_CNT stack)

/-- Stored bytes read by the converter of their stack, segment by segment: it does not cache, and works inside the stack (R184, R196). -/
def State.viewSegs (s : State) (v : View) : List (Nat × Nat) → VRes × State
  | [] => (.ok [], s)
  | (va, len) :: rest =>
    match s.viewKey v va .load with
    | (.ok (.dram key), s1) =>
      if s1.accessStalled key len false then (.stall, s1)
      else match s1.homeRead .inStack key len with
        | (none, s2) => (.poison, s2.viewPoison (keyStack key))
        | (some bs, s2) =>
          match s2.viewSegs v rest with
          | (.ok bs', s3) => (.ok (bs ++ bs'), s3)
          | x => x
    | (.ok _, s1) => (.fault 0x42, s1)
    | (.fault c, s1) => (.fault c, s1)
    | (.stall, s1) => (.stall, s1)

/-- Stored granules translated for an access through a view; the first fault code. -/
def State.viewKeys (s : State) (v : View) (k : AKind) : List (Nat × Nat) → VRes × State
  | [] => (.ok [], s)
  | (va, _) :: rest =>
    match s.viewKey v va k with
    | (.ok _, s1) => s1.viewKeys v k rest
    | (.fault c, s1) => (.fault c, s1)
    | (.stall, s1) => (.stall, s1)

/-- Stored bytes read for a line: a translation failure of any granule raises its code for the whole line, whatever the lines hold
(R195). -/
def State.viewRead (s : State) (v : View) (segs : List (Nat × Nat)) : VRes × State :=
  match s.viewKeys v .load segs with
  | (.ok _, s1) => s1.viewSegs v segs
  | x => x

/-- The random value of element `k` under the view's rounding mode (R196). -/
def View.rand (v : View) (draw : Nat) (k : Nat) : Nat :=
  if v.rm = 5 then (srRand v.seed (BitVec.ofNat 64 k)).toNat else (Config.random (draw + k)).toNat

/-- Flags ORed into STATUS.FLAGS of a view entry (R196). -/
def State.viewFlags (s : State) (i : Nat) (fl : Flags) : State :=
  s.putBarNat (viewOff i + 0x33) 1 (s.barNat (viewOff i + 0x33) 1 ||| fl.toNat)

/-- Stored element patterns from stored bytes. -/
def View.elems (v : View) (bs : List Byte) : List Nat :=
  (List.range (bs.length / v.sbytes)).map fun j => fieldLE bs (j * v.sbytes) v.sbytes

/-- A presented line of a view without MX (R195, R196): elements of the line below COUNT, converted; zero beyond. -/
def State.viewLinePlain (s : State) (i : Nat) (line : Nat) : VRes × State :=
  let v := s.view i
  let p := v.pbytes
  let k0 := (line - v.vbase) / p
  let n := min (64 / p) (v.count - k0)
  match s.viewRead v (segments (v.sbase + k0 * v.sbytes) (n * v.sbytes)) with
  | (.ok bs, s1) =>
    let draw := s1.fresh
    let s2 := if v.rm = 6 then { s1 with fresh := draw + v.count } else s1
    let out := (List.range n).map fun j =>
      codeConvert v.sfmt v.pfmt v.rm (v.rand draw (k0 + j)) v.sat (fieldLE bs (j * v.sbytes) v.sbytes)
    let bytes := out.flatMap fun x => natLE p x.1
    (.ok (bytes ++ List.replicate (64 - bytes.length) 0), s2.viewFlags i (out.foldl (fun fl x => fl ||| x.2) 0))
  | x => x

/-- Block `b` of an MX view from its 32 stored elements: scale, packed bytes, flags (R197). -/
def View.block (v : View) (draw b : Nat) (xs : List Nat) : Nat × List Byte × Flags :=
  let (x, es, fl) := mxEncode v.pfmt v.rm (fun k => v.rand draw (32 * b + k)) (xs.map (codeDecode v.sfmt))
  (x, natLE v.pbytes (packAll (codeBits v.pfmt) es), fl)

/-- The blocks `b0` to `b0 + n - 1` of an MX view, encoded from memory. -/
def State.viewBlocks (s : State) (i b0 n : Nat) : (VRes × List (Nat × List Byte × Flags)) × State :=
  let v := s.view i
  match s.viewRead v (segments (v.sbase + b0 * 32 * v.sbytes) (n * 32 * v.sbytes)) with
  | (.ok bs, s1) =>
    let draw := s1.fresh
    let s2 := if v.rm = 6 then { s1 with fresh := draw + v.count } else s1
    let out := (List.range n).map fun j => v.block draw (b0 + j) (v.elems (sliceB bs (j * 32 * v.sbytes) (32 * v.sbytes)))
    ((.ok [], out), s2.viewFlags i (out.foldl (fun fl x => fl ||| x.2.2) 0))
  | (r, s1) => ((r, []), s1)

/-- A presented line of an MX view: the element bytes of the blocks it touches (R197). -/
def State.viewLineMx (s : State) (i line : Nat) : VRes × State :=
  let v := s.view i
  let o := line - v.vbase
  let b0 := o / v.pbytes
  let b1 := min ((o + 63) / v.pbytes) (v.count / 32 - 1)
  match s.viewBlocks i b0 (b1 + 1 - b0) with
  | ((.ok _, out), s1) =>
    let bytes := out.flatMap fun x => x.2.1
    (.ok (sliceB bytes (o - b0 * v.pbytes) 64), s1)
  | ((r, _), s1) => (r, s1)

/-- A line of a scale range: the scales of 64 blocks, zero beyond the last (R195). -/
def State.viewLineScale (s : State) (i line : Nat) : VRes × State :=
  let v := s.view i
  let b0 := line - v.svbase
  let n := min 64 (v.count / 32 - b0)
  match s.viewBlocks i b0 n with
  | ((.ok _, out), s1) =>
    let bytes := out.map fun x => BitVec.ofNat 8 x.1
    (.ok (bytes ++ List.replicate (64 - bytes.length) 0), s1)
  | ((r, _), s1) => (r, s1)

/-- A presented or scale line as the converter serves it. -/
def State.viewLine (s : State) (i : Nat) (scale : Bool) (line : Nat) : VRes × State :=
  if scale then s.viewLineScale i line
  else if (s.view i).mx then s.viewLineMx i line
  else s.viewLinePlain i line

/-! ### View lines held by a grove (R198, R45) -/

/-- An unlisted grove. -/
def groveDefault (_ : Nat) : Grove := Grove.empty

/-- Grove `g`. -/
def State.grove (s : State) (g : Nat) : Grove := tabGet groveDefault s.eng.groves g
/-- Grove `g` set. -/
def State.setGrove (s : State) (g : Nat) (x : Grove) : State :=
  { s with eng := { s.eng with groves := tabSet groveDefault s.eng.groves g x } }

/-- Every view line of a grove dropped, by an acquire of one of its threads (R45). -/
def State.dropViewLines (s : State) (g : Nat) : State := s.setGrove g { s.grove g with viewLines := [] }

/-- View lines of a range of addresses dropped in every grove (R193). -/
def State.dropViewRange (s : State) (lo hi : Nat) : State :=
  { s with eng := { s.eng with groves := s.eng.groves.filterMap fun e =>
      let x := { e.2 with viewLines := e.2.viewLines.filter fun l => !(decide (lo ≤ l.1 ∧ l.1 < hi)) }
      if x = Grove.empty then none else some (e.1, x) } }

/-- A line of a view for a reader: of a grove, held as a view line; otherwise converted afresh (R198). -/
def State.viewLineFor (s : State) (g : Option Nat) (i : Nat) (scale : Bool) (line : Nat) : VRes × State :=
  match g with
  | none => s.viewLine i scale line
  | some g =>
    match tabFind (s.grove g).viewLines line with
    | some (bs, bad) => (if bad then .poison else .ok bs, s)
    | none =>
      match s.viewLine i scale line with
      | (.ok bs, s1) =>
        (.ok bs, s1.setGrove g { s1.grove g with viewLines := tabIns (tabDel (s1.grove g).viewLines line) line (bs, false) })
      | (.poison, s1) =>
        (.poison, s1.setGrove g { s1.grove g with viewLines := tabIns (tabDel (s1.grove g).viewLines line) line ([], true) })
      | x => x

/-- Bytes of a presented or scale range: line by line (R196). -/
def State.viewLoad (s : State) (g : Option Nat) (i : Nat) (scale : Bool) : List (Nat × Nat) → VRes × State
  | [] => (.ok [], s)
  | (va, len) :: rest =>
    match s.viewLineFor g i scale (va / 64 * 64) with
    | (.ok bs, s1) =>
      match s1.viewLoad g i scale rest with
      | (.ok bs', s2) => (.ok (sliceB bs (va % 64) len ++ bs'), s2)
      | x => x
    | x => x

/-- The 64-byte pieces of a range. -/
def linePieces (va len : Nat) : List (Nat × Nat) :=
  (List.range ((va % 64 + len + 63) / 64)).map fun i =>
    let g := (va / 64 + i) * 64
    let lo := max va g
    (lo, min (va + len) (g + 64) - lo)

/-! ### Stores through a view (R199 to R201) -/

/-- The faults of a store through view `i` (Table 8.7), before any effect. -/
def View.storeFault (v : View) (va len : Nat) (scale : Bool) : Option Nat :=
  if v.mode = 0 ∨ v.mx ∨ scale then some 0x40
  else if va % v.pbytes ≠ 0 ∨ len % v.pbytes ≠ 0 ∨ len = 0 ∨ va % len ≠ 0 then some 0x41
  else if v.count * v.pbytes < va - v.vbase + len then some 0x43
  else none

/-- The stored bytes under the lines of a part of a presented or scale range (R195). -/
def View.under (v : View) (scale : Bool) (va n : Nat) : List (Nat × Nat) :=
  let base := if scale then v.svbase else v.vbase
  let unit := if scale then 1 else v.pbytes
  let per := if scale ∨ v.mx then 32 else 1
  let e0 := (va / 64 * 64 - base) / unit * per
  let e1 := min v.count (ceilDiv (up64 (va + n) - base) unit * per)
  if e0 < e1 then segments (v.sbase + e0 * v.sbytes) ((e1 - e0) * v.sbytes) else []

/-- The check of an engine's access through a view at its issue: rights, then the translation of the stored granules (R118, R201). -/
def State.viewProbe (s : State) (i : Nat) (scale : Bool) (k : AKind) (va n : Nat) : VRes × State :=
  let v := s.view i
  if k.writes ∧ (v.mode = 0 ∨ v.mx ∨ scale) then (.fault 0x40, s) else s.viewKeys v k (v.under scale va n)

/-- One presented element stored: widened exactly, replacing or accumulated at the home (R199, R200). -/
def State.viewStoreElem (s : State) (i key pat : Nat) : State :=
  let v := s.view i
  let (wide, fl) := codeConvert v.pfmt v.sfmt 0 0 false pat
  if v.mode = 1 then (s.homeWrite .inStack key (natLE v.sbytes wide)).viewFlags i fl
  else
    match (s.prepLines key v.sbytes true .inStack).takeLine (key / 64) with
    | (false, s1) =>
      ((s1.inc (fView_ACC_DROP (keyStack key))).report
        { cls := 0x48, react := 1, page := 0x0C5 + 8 * keyStack key, loc0 := BitVec.ofNat 64 (keyOff key) } none)
    | (true, s1) =>
      let f := if v.sfmt = 0 then fmtD else fmtS
      let (sum, fl2) := f.add 0 (leNat (s1.dramBytes key v.sbytes)) wide
      (s1.homeWrite .inStack key (natLE v.sbytes sum)).viewFlags i (fl ||| fl2)

/-- Where the stored element under a presented address lies. -/
def View.storedVa (v : View) (va : Nat) : Nat := v.sbase + (va - v.vbase) / v.pbytes * v.sbytes

/-- A store of bytes to a presented range (R199): checked first; the grove's own line is dropped (R198). -/
def State.viewStore (s : State) (g : Option Nat) (i : Nat) (scale : Bool) (va : Nat) (bs : List Byte) : VRes × State :=
  let v := s.view i
  match v.storeFault va bs.length scale with
  | some c => (.fault c, s)
  | none =>
    let p := v.pbytes
    let n := bs.length / p
    -- an aligned store of whole elements lies in one presented line, so in one granule of the stored range (R195)
    match s.viewKey v (v.storedVa va) .store with
    | (.ok (.dram key), s1) =>
      if s1.accessStalled key (n * v.sbytes) true then (.stall, s1.noteStall key)
      else
        let sm := s1.markAccess (v.storedVa va) .store
        let s2 := (List.range n).foldl (fun t j => t.viewStoreElem i (key + j * v.sbytes) (fieldLE bs (j * p) p)) sm
        (.ok [], match g with
          | some g => s2.setGrove g { s2.grove g with viewLines := tabDel (s2.grove g).viewLines (va / 64 * 64) }
          | none => s2)
    | (.ok _, s1) => (.fault 0x42, s1)
    | (.fault c, s1) => (.fault c, s1)
    | (.stall, s1) => (.stall, s1)

end Sys2Proof.Machine
end

