-- ==== Sys2Proof/Machine/Mem.lean ====
section
/-! DEFINITION. Accesses by virtual address that the package itself makes for a job: by the launcher, the engines, the copy engine
and the fault queue; and the pieces that thread accesses share. -/

namespace Sys2Proof.Machine

/-- The outcome of an access: bytes (none for a write), a fault code, an uncorrectable line, a refusal of a remote access with
its cause, or a wait. -/
inductive MRes where
  | ok (bytes : List Byte)
  | fault (code : Nat)
  | uncorr
  | refused (cause : Nat)
  | stall
  deriving DecidableEq, Repr

/-- An access that has been performed marks its page (Table 2.5). -/
def MRes.marked (va : Nat) (k : AKind) : MRes × State → MRes × State
  | (.ok b, s) => (.ok b, s.markAccess va k)
  | r => r

/-- A request packet of the running job (Table 11.6). -/
def State.reqPkt (s : State) (cmd : Nat) (flag : Bool) (addr len : Nat) (data : List Byte) : OutPkt :=
  { src := none, cmd := cmd, flag := flag, len := len, dst := addr / 2 ^ 48, job := s.jobId, addr := addr, tag := 0, cause := 0, aop := 0,
    aw := 0, data := data }

/-- The largest naturally aligned part of at most 8 bytes that starts at `a`. -/
def alignedPart (a n : Nat) : Nat :=
  if a % 8 = 0 ∧ 8 ≤ n then 8 else if a % 4 = 0 ∧ 4 ≤ n then 4 else if a % 2 = 0 ∧ 2 ≤ n then 2 else 1

/-- Offset and length of the naturally aligned parts of `n` bytes at `a` (ch. 11, packet formats); the first argument bounds their
number. -/
def alignedParts : Nat → Nat → Nat → Nat → List (Nat × Nat)
  | 0, _, _, _ => []
  | f + 1, a, off, n =>
    if n = 0 then [] else (off, alignedPart a n) :: alignedParts f (a + alignedPart a n) (off + alignedPart a n) (n - alignedPart a n)

/-- Offset and length of the packets of an access of `n` bytes at `a`, within 4 KiB: naturally aligned up to 8 bytes, otherwise of up
to `m` bytes each. -/
def remPackets (m a n : Nat) : List (Nat × Nat) :=
  if n ≤ 8 then alignedParts n a 0 n else (List.range ((n + m - 1) / m)).map fun i => (i * m, min m (n - i * m))

/-- The bytes that one packet carries towards a target: 128 towards version 1 (R264). -/
def State.pktMax (s : State) (target : Nat) : Nat := if s.v1Target target then 128 else 256

/-- The thread's access has been issued before: its instruction is being issued again (R281). -/
def Ctx.inAccess (c : Ctx) : Bool := c.instr.isSome && c.await.out

/-- The read is the first of its instruction: what an earlier one left unanswered is not its own. -/
def State.freshRead (s : State) : RUse → Bool
  | .read t => !(s.ctx t).inAccess
  | _ => false

/-- The answers kept for a use are dropped, and nobody waits for those still to come. -/
def State.dropGot (s : State) (u : RUse) : State :=
  if s.fab.got.any (fun g => g.use == u) || s.fab.ctxs.any (fun c => c.use == u) then
    s.modFab fun f => { f with got := f.got.filter fun g => g.use != u,
                               ctxs := f.ctxs.map fun c => if c.use = u then { c with use := .gone } else c }
  else s

/-- The answer to a read, if it has come; a unit of the package uses it up. -/
def State.gotRead (s : State) (u : RUse) (addr n : Nat) : Option (RGot × State) :=
  (s.fab.got.find? fun g => g.use == u && g.addr == addr && g.len == n).map fun g =>
    (g, if u = .unit then s.modFab fun f => { f with got := f.got.erase g } else s)

/-- The port through which the refused read of a use left; 15 where the refusal came from the package itself (R272). -/
def State.refusedPort (s : State) (u : RUse) : Nat :=
  ((s.fab.got.findSome? fun g => if g.use = u then g.bad.map (·.2) else none)).getD 15

/-- One packet of a remote read: its answer, or a wait for it; a read not yet asked for is sent (R281, R282). -/
def State.remotePart (s : State) (u : RUse) (handle : Nat) (va : W64) (addr n : Nat) : MRes × State :=
  match s.gotRead u addr n with
  | some (g, s1) => (match g.bad with | some (c, _) => .refused c | none => .ok g.data, s1)
  | none =>
    if s.fab.ctxs.any fun c => c.use == u && c.addr == addr && c.len == n then (.stall, s)
    else match s.request u handle va (s.reqPkt 1 false addr n []) with
      | (.refused c, s1) => (.refused c, s1)
      | (_, s1) => (.stall, s1)

/-- The packets of a remote read, all sent at once: the bytes once every answer has come, or the first refusal. -/
def State.remoteParts (s : State) (u : RUse) (handle : Nat) (va : W64) (addr : Nat) : List (Nat × Nat) → MRes × State
  | [] => (.ok [], s)
  | (o, n) :: rest =>
    match s.remotePart u handle va (addr + o) n with
    | (.refused c, s1) => (.refused c, s1)
    | (.ok b, s1) =>
      (match s1.remoteParts u handle va addr rest with
       | (.ok b', s2) => (.ok (b ++ b'), s2)
       | x => x)
    | (_, s1) =>
      (match s1.remoteParts u handle va addr rest with
       | (.refused c, s2) => (.refused c, s2)
       | (_, s2) => (.stall, s2))

/-- Bytes read through another package: remote loads whose answers the reader waits for (R249, R272, R281). A read of this package's
own ID is turned back (R38). -/
def State.remoteRead (s : State) (u : RUse) (handle : Nat) (va : W64) (addr n : Nat) : MRes × State :=
  let s0 := if s.freshRead u then s.dropGot u else s
  if s0.isSelf addr ∧ !s0.flag fSafe_SAFE then
    match s0.turned 1 addr n 0 0 [] with
    | (.ok b, s1) => (.ok b, s1)
    | (.refused c, s1) => (.refused c, s1.refusalNote c 15 (addr / 2 ^ 48) handle va)
    | (.wait, s1) => (.stall, s1)
  else s0.remoteParts u handle va addr (remPackets (s0.pktMax (addr / 2 ^ 48)) addr n)

/-- Bytes written to another package, in order of their packets. A write refused at the source breaks the next flagged store to
the target (R277). -/
def State.remoteWrite (s : State) (u : RUse) (handle : Nat) (va : W64) (addr : Nat) (bs : List Byte) : MRes × State :=
  (remPackets (s.pktMax (addr / 2 ^ 48)) addr bs.length).foldl (fun r p =>
    match r with
    | (.ok _, t) =>
      let part := sliceB bs p.1 p.2
      if t.isSelf addr ∧ !t.flag fSafe_SAFE then
        match t.turned 2 (addr + p.1) part.length 0 0 part with
        | (.ok _, t1) => (.ok [], t1)
        | (.refused c, t1) => (.refused c, (t1.refusalNote c 15 (addr / 2 ^ 48) handle va).breakFlag (addr / 2 ^ 48) fun _ => false)
        | (.wait, t1) => (.stall, t1)
      else
        match t.request u handle va (t.reqPkt 2 false (addr + p.1) part.length part) with
        | (.sent _, t1) => (.ok [], t1)
        | (.refused c, t1) => (.refused c, t1.breakFlag (addr / 2 ^ 48) fun _ => false)
        | (.wait, t1) => (.stall, t1)
    | x => x) (.ok [], s)

/-- A view's outcome as an access outcome. -/
def VRes.toM : VRes → MRes
  | .ok b => .ok b
  | .poison => .uncorr
  | .fault c => .fault c
  | .stall => .stall

/-- The agent of an access: how it translates, which grove's view lines it holds, what it caches as, its handle for refusals, what its
remote writes and reads are for, whether it takes the sector path (R168), and the stack it works inside (R178). -/
structure Agt where
  who : Who
  grove : Option Nat
  holder : Holder
  handle : Nat
  use : RUse
  read : RUse
  sector : Bool := false
  stack : Option Nat := none
  deriving DecidableEq, Repr

/-- What an agent's access to a line counts as at its home. A sector access caches nothing, unless the die cache holds the line and so
hits (R168); an access inside a stack does not use the stack's interface (R178). -/
def Agt.holderAt (a : Agt) (s : State) (key : Nat) : Holder :=
  if a.stack = some (keyStack key) then .inStack
  else if a.sector && !(s.dir (key / 64)).has a.holder then .none
  else a.holder

/-- What an access that ends after some of its pieces leaves of them: nothing but a stalled unit and the snoops sent (R57). -/
def State.undo (s s1 : State) : State :=
  { s with snp := { s.snp with stalled := s1.snp.stalled }, mem := { s.mem with bi := s1.mem.bi } }

/-- The tile whose write-back a store is. -/
def RUse.writeBack : RUse → Bool
  | .matrix _ _ => true
  | _ => false

/-- One piece of a read, within a 4 KiB granule. -/
def State.readPiece (s : State) (a : Agt) (va n : Nat) : MRes × State :=
  match s.xlate a.who va .load with
  | (.fault c, s1) => (if c = 0x24 then .uncorr else .fault c, s1)
  | (.stall, s1) => (.stall, s1)
  | (.ok (.dram key), s1) =>
    if s1.accessStalled key n false then (.stall, s1)
    else match s1.homeRead (a.holderAt s1 key) key n with
      | (some b, s2) => (.ok b, s2.markAccess va .load)
      | (none, s2) => (.uncorr, s2)
  | (.ok (.host hpa), s1) =>
    if !s1.hostUp then (.fault 0x61, s1)
    else match s1.hostRead hpa n with
      | (some b, s2) => (.ok b, s2.markAccess va .load)
      | (none, s2) => (.uncorr, s2)
  | (.ok (.remote addr), s1) => MRes.marked va .load (s1.remoteRead a.read a.handle (BitVec.ofNat 64 va) addr n)
  | (.ok (.view i sc), s1) =>
    let (r, s2) := s1.viewLoad a.grove i sc (linePieces va n)
    (r.toM, s2)
  | (.ok _, s1) => (.fault 0x13, s1)

/-- Pieces read in ascending order. -/
def State.readPieces (s : State) (a : Agt) : List (Nat × Nat) → MRes × State
  | [] => (.ok [], s)
  | (va, n) :: rest =>
    match s.readPiece a va n with
    | (.ok b, s1) =>
      match s1.readPieces a rest with
      | (.ok b', s2) => (.ok (b ++ b'), s2)
      | x => x
    | x => x

/-- `n` bytes read at a virtual address. -/
def State.vread (s : State) (a : Agt) (va n : Nat) : MRes × State := s.readPieces a (s.segs va n)

/-- One piece of a write, within a 4 KiB granule. -/
def State.writePiece (s : State) (a : Agt) (va : Nat) (bs : List Byte) : MRes × State :=
  match s.xlate a.who va .store with
  | (.fault c, s1) => (if c = 0x24 then .uncorr else .fault c, s1)
  | (.stall, s1) => (.stall, s1)
  | (.ok (.dram key), s1) =>
    if a.who ≠ .model ∧ s1.protectedKey key bs.length then (.fault 0x13, s1)
    else if s1.accessStalled key bs.length true then (.stall, s1.noteStall key)
    else
      let s2 := (s1.markAccess va .store).homeWrite (a.holderAt s1 key) key bs
      -- a matrix write-back that merges into an uncorrectable line consumes it (Table 7.3)
      (if a.use.writeBack && s2.partPoisoned key bs.length then .uncorr else .ok [], s2)
  | (.ok (.host hpa), s1) =>
    if !s1.hostUp then (.fault 0x61, s1) else (.ok [], (s1.markAccess va .store).hostWrite hpa bs)
  | (.ok (.remote addr), s1) => MRes.marked va .store (s1.remoteWrite a.use a.handle (BitVec.ofNat 64 va) addr bs)
  | (.ok (.view i sc), s1) =>
    let (r, s2) := s1.viewStore a.grove i sc va bs
    (r.toM, s2)
  | (.ok _, s1) => (.fault 0x13, s1)

/-- Pieces written in ascending order. -/
def State.writePieces (s : State) (a : Agt) (bs : List Byte) (base : Nat) : List (Nat × Nat) → MRes × State
  | [] => (.ok [], s)
  | (va, n) :: rest =>
    match s.writePiece a va (sliceB bs (va - base) n) with
    | (.ok _, s1) => s1.writePieces a bs base rest
    | x => x

/-- Bytes written at a virtual address. -/
def State.vwrite (s : State) (a : Agt) (va : Nat) (bs : List Byte) : MRes × State :=
  s.writePieces a bs va (s.segs va bs.length)

/-- The remote granules of ranges are read ahead: whether every answer has come. -/
def State.askRemote (s : State) (a : Agt) : List (Nat × Nat) → Bool × State
  | [] => (true, s)
  | (va, n) :: rest =>
    match (s.xlate a.who va .load).1 with
    | .ok (.remote addr) =>
      if s.isSelf addr then s.askRemote a rest
      else match s.remoteRead a.read a.handle (BitVec.ofNat 64 va) addr n with
        | (.stall, s1) => (false, (s1.askRemote a rest).2)
        | (_, s1) => s1.askRemote a rest
    | _ => s.askRemote a rest

/-- Byte ranges read ahead. -/
def State.askRanges (s : State) (a : Agt) (rs : List (Nat × Nat)) : Bool × State :=
  s.askRemote a (rs.flatMap fun r => if r.2 = 0 then [] else s.segs r.1 r.2)

/-- Every granule of a range translates with the right: the first fault code otherwise. -/
def State.probe (s : State) (who : Who) (k : AKind) : List (Nat × Nat) → MRes × State
  | [] => (.ok [], s)
  | (va, n) :: rest =>
    match s.xlate who va k with
    | (.ok (.dram key), s1) => if k.writes && s1.protectedKey key n then (.fault 0x13, s1) else s1.probe who k rest
    | (.ok _, s1) => s1.probe who k rest
    | (.fault c, s1) => (if c = 0x24 then .uncorr else .fault c, s1)
    | (.stall, s1) => (.stall, s1)

/-- The outcome of a check of ranges: the first fault with its address, or a wait. -/
inductive Pr where
  | ok
  | fault (code va : Nat)
  | stall
  deriving DecidableEq, Repr

/-- The right of an engine at one granule outside views: a store needs unprotected memory (R239). -/
def State.probeOne (s : State) (k : AKind) (n : Nat) : Target → Option Nat
  | .dram key => if k.writes && s.protectedKey key n then some 0x13 else none
  | .regs _ => some 0x13
  | .tables _ => some 0x13
  | _ => none

/-- Granules checked in order. -/
def State.probeSegs (s : State) (who : Who) (k : AKind) : List (Nat × Nat) → Pr × State
  | [] => (.ok, s)
  | (va, n) :: rest =>
    match s.xlate who va k with
    | (.ok (.view i sc), s1) =>
      (match s1.viewProbe i sc k va n with
       | (.fault c, s2) => (.fault c va, s2)
       | (.stall, s2) => (.stall, s2)
       | (_, s2) => s2.probeSegs who k rest)
    | (.ok t, s1) =>
      match s1.probeOne k n t with
      | some c => (.fault c va, s1)
      | none => s1.probeSegs who k rest
    | (.fault c, s1) => (.fault c va, s1)
    | (.stall, s1) => (.stall, s1)

/-- Byte ranges checked in order (R102, R118). -/
def State.probeRanges (s : State) (who : Who) (k : AKind) (rs : List (Nat × Nat)) : Pr × State :=
  s.probeSegs who k (rs.flatMap fun r => if r.2 = 0 then [] else s.segs r.1 r.2)

/-- Translation and rights of a range. -/
def State.vprobe (s : State) (who : Who) (k : AKind) (va n : Nat) : MRes × State :=
  if n = 0 then (.ok [], s) else s.probe who k (s.segs va n)

/-- The targets of the granules of a range, in order; a fault code where one fails, 0 where one has to wait. -/
def State.targets (s : State) (who : Who) (k : AKind) : List (Nat × Nat) → Option (List (Target × Nat × Nat)) × Nat × State
  | [] => (some [], 0, s)
  | (va, n) :: rest =>
    match s.xlate who va k with
    | (.ok t, s1) =>
      match s1.targets who k rest with
      | (some ts, c, s2) => (some ((t, va, n) :: ts), c, s2)
      | x => x
    | (.fault c, s1) => (none, c, s1)
    | (.stall, s1) => (none, 0, s1)

/-- What an access that its target holds back waits for: a typed view, or its line's home. -/
def State.awaitAt (s : State) (va : Nat) : Await :=
  match s.viewAt va with
  | some (i, _) => .view i
  | none => .access

/-- A package unit that acts for the job (launcher, fault queue, copy and solver engines): it does not cache. -/
def unitAgt : Agt := { who := .engine, grove := none, holder := .none, handle := 0xFFFFFFFF, use := .mgmt, read := .unit }

end Sys2Proof.Machine
end

