-- ==== Sys2Proof/Machine/Hazel.lean ====
section
/-! DEFINITION. The Hazel path of a package: the tree, its operations, aborts (R295 to R304). -/

namespace Sys2Proof.Machine

/-! ### The tree (R295) -/

/-- The parent of a rank. -/
def hzParent (r : Nat) : Option Nat := if r = 0 then none else some ((r - 1) / 15)

/-- The children of a rank, ascending. -/
def hzChildren (r n : Nat) : List Nat := ((List.range 15).map fun i => 15 * r + 1 + i).filter fun c => decide (c < n)

/-- The parent and the children of a rank. -/
def hzEdges (r n : Nat) : List Nat := (hzParent r).toList ++ hzChildren r n

/-! ### Combining (Table 12.5, R297, R299) -/

/-- One operation of Table 12.5: the accumulated value as operand A, the child's as B. -/
def hzCombine (op : Nat) (a b : W64) : W64 :=
  match op with
  | 1 => a + b
  | 2 => BitVec.ofNat 64 (fmtD.add 0 a.toNat b.toNat).1
  | 3 => if b.toInt < a.toInt then b else a
  | 4 => if a.toInt < b.toInt then b else a
  | 5 => if b.toNat < a.toNat then b else a
  | 6 => if a.toNat < b.toNat then b else a
  | 7 => BitVec.ofNat 64 (fmtD.maxMin false a.toNat b.toNat).1
  | 8 => BitVec.ofNat 64 (fmtD.maxMin true a.toNat b.toNat).1
  | 9 => a &&& b
  | 10 => a ||| b
  | 11 => a ^^^ b
  | _ => 0

/-- A node's own contribution before any child: NONE gives 0. -/
def hzOwn (op : Nat) (a : W64) : W64 := if op = 0 then 0 else a

/-- The position of an empty candidate (R299). -/
def hzEmptyPos : W64 := BitVec.allOnes 64

/-- How OP0 ranks a value: smaller is better among integers that order as the values do (R84, R299). -/
def hzRank (op : Nat) (v : W64) : Int :=
  match op with
  | 3 => v.toInt
  | 4 => -v.toInt
  | 5 => v.toNat
  | 6 => -(v.toNat : Int)
  | 7 => fmtD.key v.toNat
  | _ => -(fmtD.key v.toNat : Int)

/-- The first candidate stands before the second: by OP0, then the lower position. -/
def hzBefore (op : Nat) (x y : W64 × W64) : Bool :=
  decide (hzRank op x.1 < hzRank op y.1) || (hzRank op x.1 == hzRank op y.1 && decide (x.2.toNat ≤ y.2.toNat))

/-- Insertion of a candidate in rank order. -/
def hzInsert (op : Nat) (x : W64 × W64) : List (W64 × W64) → List (W64 × W64)
  | [] => [x]
  | y :: ys => if hzBefore op x y then x :: y :: ys else y :: hzInsert op x ys

/-- The candidates of eight values: value and position of the slots that are not empty. -/
def hzCands (vals : List W64) : List (W64 × W64) :=
  (List.range 4).filterMap fun i =>
    if vals.getD (4 + i) 0 = hzEmptyPos then none else some (vals.getD i 0, vals.getD (4 + i) 0)

/-- The `k` best, best first, in the eight values; unused slots are empty with value 0. -/
def hzTopK (op k : Nat) (cs : List (W64 × W64)) : List W64 :=
  let best := (cs.foldl (fun l x => hzInsert op x l) []).take k
  ((List.range 4).map fun i => (best[i]?.map (·.1)).getD 0) ++ (List.range 4).map fun i => (best[i]?.map (·.2)).getD hzEmptyPos

/-- The result of a node: its own contribution, then each child in ascending rank (R297). -/
def hzNode (own : HzVal) (kids : List (List W64)) : List W64 :=
  if own.ktop ≠ 0 then hzTopK (own.ops.getD 0 0) own.ktop (hzCands own.vals ++ kids.flatMap hzCands)
  else (List.range 8).map fun i =>
    if i < own.nval then
      kids.foldl (fun a k => hzCombine (own.ops.getD i 0) a (k.getD i 0)) (hzOwn (own.ops.getD i 0) (own.vals.getD i 0))
    else 0

/-! ### Operations at this node -/

/-- The Hazel state changed; HZ_STATES and HZ_ACTIVE follow (Table 12.12). -/
def State.modHz (s : State) (f : HzSt → HzSt) : State :=
  let s1 := { s with hz := f s.hz }
  (s1.setFld fHz_HZ_STATES s1.hz.ops.length).setFld fHz_HZ_ACTIVE
    (s1.hz.ops.filter fun o => !o.boundary && o.own.isSome).length

/-- The key of a group's class. -/
def hzClass (gid : Nat) (boundary : Bool) : Nat := gid * 2 + boundary.toNat

/-- Operations of a class that this member has issued. -/
def State.hzIssued (s : State) (gid : Nat) (b : Bool) : Nat := tabGet cntZero s.hz.seqs (hzClass gid b)

/-- No rank table. -/
def ranksNone (_ : Nat) : List Nat := []

/-- The package of a rank. -/
def State.hzPkg (s : State) (gid rank : Nat) : Nat := (tabGet ranksNone s.hz.ranks gid).getD rank 0xFFFF

/-- The operation is this one. -/
def HzOp.is (o : HzOp) (gid : Nat) (b : Bool) (seq : Nat) : Bool := o.gid == gid && o.boundary == b && o.seq == seq

/-- An operation in progress. -/
def State.hzFind (s : State) (gid : Nat) (b : Bool) (seq : Nat) : Option HzOp := s.hz.ops.find? fun o => o.is gid b seq

/-- It ends or changes. -/
def State.hzPut (s : State) (o : HzOp) : State :=
  s.modHz fun h => { h with ops := if h.ops.any fun x => x.is o.gid o.boundary o.seq then
                                     h.ops.map fun x => if x.is o.gid o.boundary o.seq then o else x
                                   else h.ops ++ [o] }

/-- An operation without contributions. -/
def HzOp.new (gid : Nat) (b : Bool) (seq : Nat) : HzOp :=
  { gid := gid, boundary := b, seq := seq, own := none, block := none, kids := [], sent := false, warned := [] }

/-- Reduction state is free for a new operation of a class: 256 states, of which 16 are kept for the boundary class (R300, R302). -/
def State.hzRoom (s : State) (b : Bool) : Bool :=
  decide (s.hz.ops.length < 256) && (b || decide ((s.hz.ops.filter fun o => !o.boundary).length < 240))

/-! ### Packets sent -/

/-- A Hazel packet of this package on VC2 (R295): kind 0 up, 1 down, 2 abort. The spec gives no layout of its fields (assumption
log 20). -/
def State.hzPacketTo (s : State) (gid : Nat) (b : Bool) (seq kind rank cause : Nat) (v : HzVal) : OutPkt :=
  let g := s.grp gid
  { src := none, cmd := 0x20 + kind, flag := false, len := 0, dst := s.hzPkg gid rank, job := g.job, addr := hzClass gid b,
    tag := seq, cause := cause, aop := 0, aw := 0,
    data := natLE 2 g.rank ++ v.ops.flatMap (natLE 1) ++ natLE 1 v.nval ++ natLE 1 v.ktop ++ natLE 8 g.gkey.toNat ++
      v.vals.flatMap (fun x => natLE 8 x.toNat) }

/-- A packet in transit, as it came. -/
def hzForward (p : HzPacket) : OutPkt :=
  let k : OutPkt := { src := none, cmd := 0x20 + (if p.err.isSome then 2 else if p.child.isSome then 0 else 1), flag := false, len := 0,
                      dst := p.dst, job := p.job, addr := hzClass p.gid p.boundary, tag := p.seq, cause := p.err.getD 0, aop := 0, aw := 0,
                      data := natLE 2 (p.child.getD 0) ++ p.ops.flatMap (natLE 1) ++ natLE 1 p.nval ++ natLE 1 p.ktop ++
                        natLE 8 p.gkey.toNat ++ p.vals.flatMap (fun x => natLE 8 x.toNat) }
  if p.crcOk then k else { k with e2e := some (~~~ (crc32c (k.header 0 ++ k.data))) }

/-- Nothing contributed: what an abort carries. -/
def HzVal.none : HzVal := { ops := [], nval := 0, ktop := 0, vals := [] }

/-- A child or the parent has no ACTIVE port in its route entry (R304). -/
def State.hzEdgeLost (s : State) (gid : Nat) : Bool :=
  let g := s.grp gid
  (hzEdges g.rank g.nmem).any fun r => (s.routePort (s.hzPkg gid r) 0).isNone

/-- The node has a tree edge through a version 1 link. -/
def State.hzEdgeV1 (s : State) (gid : Nat) : Bool :=
  let g := s.grp gid
  (hzEdges g.rank g.nmem).any fun r => s.v1Target (s.hzPkg gid r)

/-! ### The end of an operation (R296, R301, R304) -/

/-- A block's write waits behind those before it. -/
def State.hzOwe (s : State) (va : Nat) (bs : List Byte) : State := { s with hz := { s.hz with owed := s.hz.owed ++ [(va, bs)] } }

/-- Bytes of a block written with the job's translation; what its home holds back is written later, in order. A page that no longer
takes them stays as it is (assumption log 66). -/
def State.hzStore (s : State) (va : Nat) (bs : List Byte) : State :=
  if !s.hz.owed.isEmpty then s.hzOwe va bs
  else match s.vwrite unitAgt va bs with
    | (.stall, s1) => (s.undo s1).hzOwe va bs
    | (_, s1) => s1

/-- The writes held back, as far as they go now. -/
def State.retryHz (s : State) : State :=
  s.hz.owed.foldl (fun t w => t.hzStore w.1 w.2) { s with hz := { s.hz with owed := [] } }

/-- STATUS of a block (Table 12.4). -/
def hzStatus (cause : Nat) : Nat := if cause = 0 then 1 else 3 + cause * 256

/-- A block's completion: RESULT, then STATUS, then SEQ. -/
def State.hzWriteBlock (s : State) (va : W64) (seq cause : Nat) (v : HzVal) (res : List W64) : State :=
  let s1 := if cause = 0 ∧ v.nval ≠ 0 then s.hzStore va.toNat ((res.take v.nval).flatMap fun x => natLE 8 x.toNat) else s
  (s1.hzStore (va.toNat + 0x50) (natLE 4 (hzStatus cause))).hzStore (va.toNat + 0x58) (natLE 8 seq)

/-- An ended operation as its issuer sees it, with the counts of Table 12.12. -/
def State.hzDeliver (s : State) (o : HzOp) (v : HzVal) (cause : Nat) (res : List W64) : State :=
  let s1 := if cause = 0 then s.inc fHz_HZ_OPS
    else ((s.inc fHz_HZ_ERRORS).setFld fHz_LAST_CAUSE cause).setFld fHz_LAST_GID o.gid
  if o.boundary then { s1 with bnd := { s1.bnd with result := some (cause, res.take v.nval) } }
  else match o.block with
    | some va => s1.hzWriteBlock va o.seq cause v res
    | none => s1

/-- An operation ends here: its state is free. -/
def State.hzEnd (s : State) (o : HzOp) (cause : Nat) (res : List W64) : State :=
  let s1 := s.modHz fun h => { h with ops := h.ops.filter fun x => !x.is o.gid o.boundary o.seq }
  match o.own with
  | some v => s1.hzDeliver o v cause res
  | none => s1.modHz fun h => { h with early := h.early ++ [(hzClass o.gid o.boundary, o.seq, cause)] }

/-- An operation ends with ERROR: here, and by aborts up and down the tree except to the rank it came from (R304). -/
def State.hzAbort (s : State) (o : HzOp) (cause : Nat) (but : Option Nat) : State :=
  let g := s.grp o.gid
  ((hzEdges g.rank g.nmem).filter fun r => some r ≠ but).foldl
    (fun t r => t.send (t.hzPacketTo o.gid o.boundary o.seq 2 r cause HzVal.none)) (s.hzEnd o cause [])

/-- A child's packet agrees with the own contribution in operations, NVAL, KTOP and GKEY (R298); its class and number matched. -/
def hzAgrees (v : HzVal) (gkey : W64) (p : HzPacket) : Bool :=
  p.ops == v.ops && p.nval == v.nval && p.ktop == v.ktop && p.gkey == gkey

/-- An operation goes on as far as it can: it fails on a difference or a lost or unfit edge, and passes its result up, or down from
the root, once every child has contributed. -/
def State.hzProgress (s : State) (o : HzOp) : State :=
  let g := s.grp o.gid
  match o.own with
  | none => s
  | some v =>
    let kids := hzChildren g.rank g.nmem
    if o.kids.any fun k => !hzAgrees v g.gkey k.2 then s.hzAbort o 1 none
    else if s.hzEdgeLost o.gid then s.hzAbort o 2 none
    else if v.ktop ≠ 0 ∧ s.hzEdgeV1 o.gid then s.hzAbort o 4 none
    else if o.sent ∨ !(kids.all fun r => o.kids.any fun k => k.1 == r) then s
    else
      let res := hzNode v (kids.filterMap fun r => (o.kids.find? fun k => k.1 == r).map fun k => k.2.vals)
      match hzParent g.rank with
      | some p => (s.hzPut { o with sent := true }).send (s.hzPacketTo o.gid o.boundary o.seq 0 p 0 { v with vals := res })
      | none =>
        (kids.foldl (fun t r => t.send (t.hzPacketTo o.gid o.boundary o.seq 1 r 0 { v with vals := res })) s).hzEnd o 0 res

/-- This member's contribution (R300, R302): numbered in its class; an operation that has ended already ends here at once, and in
safe stop it is aborted (R304). -/
def State.hzContribute (s : State) (gid : Nat) (b : Bool) (v : HzVal) (block : Option W64) : State :=
  let seq := s.hzIssued gid b + 1
  let s1 := s.modHz fun h => { h with seqs := tabSet cntZero h.seqs (hzClass gid b) seq }
  let o := { (s1.hzFind gid b seq).getD (HzOp.new gid b seq) with own := some v, block := block }
  match s1.hz.early.find? fun e => e.1 == hzClass gid b && e.2.1 == seq with
  | some e => (s1.modHz fun h => { h with early := h.early.erase e }).hzDeliver o v e.2.2 []
  | none =>
    let s2 := s1.hzPut o
    if s2.flag fSafe_SAFE then s2.hzAbort o 5 none else s2.hzProgress o

/-! ### Packets received -/

/-- The result from the parent: it goes down unchanged, and the member writes the same bits (R297). -/
def State.hzDown (s : State) (o : HzOp) (p : HzPacket) : State :=
  let g := s.grp o.gid
  match o.own with
  | some v =>
    if o.sent then
      ((hzChildren g.rank g.nmem).foldl
        (fun t r => t.send (t.hzPacketTo o.gid o.boundary o.seq 1 r 0 { v with vals := p.vals })) s).hzEnd o 0 p.vals
    else s
  | none => s

/-- A packet for an operation that has not ended here. -/
def State.hzAccept (s : State) (o : HzOp) (p : HzPacket) : State :=
  if !p.crcOk then
    (s.reportC 0x0D 0x060 0 (BitVec.ofNat 64 o.gid) false).hzAbort o 3 none
  else match p.err with
    | some c => s.hzAbort o c (match p.child with | some r => some r | none => hzParent (s.grp o.gid).rank)
    | none =>
      if s.flag fSafe_SAFE then s.hzAbort o 5 none
      else match p.child with
        | some r =>
          let o1 := { o with kids := (o.kids.filter fun k => k.1 != r) ++ [(r, p)] }
          (s.hzPut o1).hzProgress o1
        | none => s.hzDown o p

/-- The packet's operation has ended here. -/
def State.hzOver (s : State) (p : HzPacket) : Bool :=
  (decide (p.seq ≤ s.hzIssued p.gid p.boundary) && (s.hzFind p.gid p.boundary p.seq).isNone) ||
    s.hz.early.any fun e => e.1 == hzClass p.gid p.boundary && e.2.1 == p.seq

/-- A Hazel packet arrives: held for its group or for reduction state, refused for another job, or taken (R298, R300). -/
def State.hzIn (s : State) (p : HzPacket) : State :=
  let g := s.grp p.gid
  if !g.valid then s.modHz fun h => { h with held := h.held ++ [p] }
  else if p.job ≠ g.job then s.inc fHz_HZ_REFUSED
  else if s.hzOver p then s
  else match s.hzFind p.gid p.boundary p.seq with
    | some o => s.hzAccept o p
    | none =>
      if p.err.isNone ∧ !s.hzRoom p.boundary then s.modHz fun h => { h with held := h.held ++ [p] }
      else s.hzAccept (HzOp.new p.gid p.boundary p.seq) p

/-- The packets held back are tried again, in order. -/
def State.hzRetry (s : State) : Nat → State
  | 0 => s
  | n + 1 => (s.hz.held.foldl (fun t p => t.hzIn p) (s.modHz fun h => { h with held := [] })).hzRetry n

/-- The package's own boundary-class operations that wait for a reduction state begin while there is one. -/
def State.hzBegin (s : State) : List (Nat × HzVal) → State
  | [] => s
  | (gid, v) :: rest =>
    if s.hzRoom true ∨ (s.hzFind gid true (s.hzIssued gid true + 1)).isSome then
      ((s.modHz fun h => { h with due := rest }).hzContribute gid true v none).hzBegin rest
    else s

/-- Held packets that can go on do, after operations of this package's own. -/
def State.hzSettle (s : State) : State :=
  let s1 := s.hzBegin s.hz.due
  s1.hzRetry (s1.hz.held.length + 1)

/-- Operations that other members may have begun and that nobody has here: the next one of each class of a group of several members
(R300: no member is further ahead), unless it has ended here. -/
def State.hzNext (s : State) : List HzOp :=
  ((s.hz.ranks.filter fun e => decide (1 < e.2.length)).map (·.1)).flatMap fun g =>
    ([false, true].map fun b => HzOp.new g b (s.hzIssued g b + 1)).filter fun o =>
      (s.hzFind o.gid o.boundary o.seq).isNone && !s.hz.early.any fun e => e.1 == hzClass o.gid o.boundary && e.2.1 == o.seq

/-- Operations aborted with a cause. -/
def State.hzAborts (s : State) (cause : Nat) (l : List HzOp) : State := l.foldl (fun t o => t.hzAbort o cause none) s

/-- Every operation of which this package is a member aborted (R304, Table 18.4): those in progress here, and those that others may
have begun. -/
def State.hzAbortAll (s : State) (cause : Nat) : State :=
  let s1 := s.hzAborts cause s.hz.ops
  (s1.hzAborts cause s1.hzNext).hzSettle

/-- Operations that lost an edge end (R304). -/
def State.hzEdges (s : State) : State :=
  (s.hz.ops.foldl (fun t o => if t.hzEdgeLost o.gid then t.hzAbort o 2 none else t) s).hzSettle

/-- A boundary-class operation over a group that exists, when a reduction state is free for it (R302); over a group that does not exist
it ends with HZ_MEMBER_LOST. -/
def State.hzBoundary (s : State) (gid : Nat) (ops : List Nat) (vals : List W64) : State :=
  let s0 := { s with bnd := { s.bnd with result := none } }
  let v : HzVal := { ops := ops ++ List.replicate (8 - ops.length) 0, nval := vals.length, ktop := 0,
                     vals := vals ++ List.replicate (8 - vals.length) 0 }
  if (s.grp gid).valid then (s0.modHz fun h => { h with due := h.due ++ [(gid, v)] }).hzBegin (s0.hz.due ++ [(gid, v)])
  else { s0 with bnd := { s0.bnd with result := some (2, []) } }

/-! ### Groups (R290, R293) -/

/-- GKEY of a rank table (Table 12.1). -/
def gkeyOf (ids : List Nat) : W64 :=
  (List.range ids.length).foldl
    (fun a r => a + mix64 (mix64 (BitVec.ofNat 64 r) ^^^ BitVec.ofNat 64 (ids.getD r 0))) 0

/-- A group written to the table, its operations numbered from 1. -/
def State.putGroup (s : State) (gid nmem rank job rt qb ql : Nat) (ids : List Nat) : State :=
  let e := natLE 2 gid ++ natLE 2 nmem ++ natLE 2 rank ++ natLE 2 job ++ natLE 8 rt ++ natLE 8 qb ++ natLE 1 ql ++ natLE 7 0 ++
    natLE 8 (gkeyOf ids).toNat ++ natLE 24 1
  ((s.putBar (groupOff gid) e).modHz fun h => { h with ranks := tabSet ranksNone h.ranks gid ids }).hzSettle

/-- A group cleared. -/
def State.dropGroup (s : State) (gid : Nat) : State :=
  (s.putBarNat (groupOff gid + 0x28) 1 0).modHz fun h =>
    { h with ranks := tabSet ranksNone h.ranks gid [], seqs := h.seqs.filter (fun e => e.1 / 2 != gid),
             ops := h.ops.filter (fun o => o.gid != gid), early := h.early.filter fun e => e.1 / 2 != gid }

/-- Group 0 of a job that starts: this package alone (R290). -/
def State.createGroup0 (s : State) (job : Nat) : State := s.putGroup 0 1 0 job 0 0 0 [s.pkgId]

/-- The groups of a job that ends (R293); packets held for groups yet to be created stay held (R298). -/
def State.dropGroups (s : State) : State :=
  (s.grps.foldl (fun t g => t.dropGroup g) s).modHz fun h => { HzSt.empty with held := h.held }

end Sys2Proof.Machine
end

