-- ==== Sys2Proof/Machine/Threads.lean ====
section
/-! DEFINITION. What happens to threads: faults and their notices (R57 to R63), the end of a thread and of a launch (R23, R28,
R51, R69), stops (R61). -/

namespace Sys2Proof.Machine

/-! ### Engines of a thread (R69, R97, R126) -/

/-- An unlisted matrix engine. -/
def matDefault (_ : Nat) : Matrix := Matrix.idle
/-- An unlisted element-wise core. -/
def ewDefault (_ : Nat) : Ew := Ew.idle

/-- The matrix engine of grove `g`. -/
def State.mat (s : State) (g : Nat) : Matrix := tabGet matDefault s.eng.mat g
/-- It set. -/
def State.setMat (s : State) (g : Nat) (m : Matrix) : State :=
  { s with eng := { s.eng with mat := tabSet matDefault s.eng.mat g m } }
/-- The element-wise state of core `c` (grove × 8 + core). -/
def State.ew (s : State) (c : Nat) : Ew := tabGet ewDefault s.eng.ew c
/-- It set. -/
def State.setEw (s : State) (c : Nat) (e : Ew) : State :=
  { s with eng := { s.eng with ew := tabSet ewDefault s.eng.ew c e } }

/-- The element-wise core of a grove thread. -/
def ewCore (t : Tid) : Nat := t.groveOf * 8 + t.coreOf

/-- The matrix engine as the end of its owner leaves it (R97); the grove's model selection stays (R238). -/
def Matrix.released (m : Matrix) : Matrix := { Matrix.idle with model := m.model }

/-- The engines that a thread owns are given up and reset; queued work is discarded (R69, R97, R126). -/
def State.releaseEngines (s : State) (t : Tid) : State :=
  if t.kind = .grove then
    let m := s.mat t.groveOf
    let s1 := if m.owner = some t then ((s.setMat t.groveOf m.released).dropGot (.opnd t 0)).dropGot (.opnd t 1) else s
    if (s1.ew (ewCore t)).owner = some t then s1.setEw (ewCore t) Ew.idle else s1
  else s

/-! ### Faults (R59, R60, R62) -/

/-- FAULT_INFO from its fields (Table 3.8). -/
def faultWord (code : Nat) (gsPart errVal : Bool) (inner : Nat) : W64 :=
  BitVec.ofNat 64 (code % 256 + gsPart.toNat * 256 + errVal.toNat * 512 + inner % 256 * 1024)

/-- A fault of an instruction: code, data address, the element at which an element-ordered access stopped, whether an error
value was written. -/
structure FaultArg where
  code : Nat
  va : W64 := 0
  gs : Option Nat := none
  errVal : Bool := false
  deriving DecidableEq, Repr

/-- A context in FAULTED with its fault state (R59, Table 3.8). -/
def Ctx.faulted (c : Ctx) (f : FaultArg) (code inner : Nat) : Ctx :=
  { c with st := .faulted, instr := none, await := .cond, rem := none, noticed := false, stopPending := false, late := none,
           faultInfo := faultWord code f.gs.isSome f.errVal inner, faultPc := c.pc, faultVa := f.va,
           gsIdx := match f.gs with | some k => BitVec.ofNat 16 k | none => c.gsIdx }

/-- A control thread at job level enters its handler at HVEC (R59). -/
def Ctx.handled (c : Ctx) (f : FaultArg) : Ctx :=
  { c with st := .ready, instr := none, await := .cond, rem := none, late := none, stopPending := false, sup := true, pc := c.hvec,
           faultInfo := faultWord f.code f.gs.isSome f.errVal 0, faultPc := c.pc, faultVa := f.va,
           gsIdx := match f.gs with | some k => BitVec.ofNat 16 k | none => c.gsIdx }

/-- A notice joins those that wait (R60). -/
def State.queueNotice (s : State) (n : Notice) : State := { s with thr := { s.thr with notices := s.thr.notices ++ [n] } }

/-- The notice of a faulted context (Table 3.9). -/
def State.noticeOf (s : State) (t : Tid) (code : Nat) : Notice :=
  let c := s.ctx t
  { t := t, code := code, gsPart := c.faultInfo.getLsbD 8, errVal := c.faultInfo.getLsbD 9, gsIdx := c.gsIdx, pc := c.faultPc,
    va := c.faultVa, step := BitVec.ofNat 64 (s.fld fPkg_STEP) }

/-- A context put in FAULTED, its notice queued. -/
def State.toFaulted (s : State) (t : Tid) (f : FaultArg) (code inner : Nat) : State :=
  let s1 := s.modCtx t fun c => c.faulted f code inner
  s1.queueNotice (s1.noticeOf t code)

/-- A precise fault of a thread (R57, R59). -/
def State.takeFault (s : State) (t : Tid) (f : FaultArg) : State :=
  if t.kind = .control then
    let c := s.ctx t
    if c.sup ∨ c.hvec = 0 then s.toFaulted t f 0x2E f.code
    else s.modCtx t fun c => c.handled f
  else s.toFaulted t f f.code 0

/-! ### The end of a thread and of a launch (R23, R28, R51) -/

/-- The launches changed. -/
def State.modLaunches (s : State) (f : List Launch → List Launch) : State :=
  { s with thr := { s.thr with launches := f s.thr.launches } }

/-- A launch by its number. -/
def State.launch (s : State) (id : Nat) : Option Launch := s.thr.launches.find? fun l => l.id == id

/-- A launch changed. -/
def State.modLaunch (s : State) (id : Nat) (f : Launch → Launch) : State :=
  s.modLaunches fun ls => ls.map fun l => if l.id = id then f l else l

/-- STATUS written by the launcher (R23): a store to the descriptor; a store that faults sets RING of the control-core page. False:
the store has to wait for its unit, its stack or a remote context (R46, R161, R281). -/
def State.writeStatus (s : State) (l : Launch) (v : Nat) : Bool × State :=
  match l.statusVa with
  | none =>
    if s.accessStalled l.statusKey 8 true then (false, s.noteStall l.statusKey) else (true, s.homeWrite .psc l.statusKey (natLE 8 v))
  | some va =>
    match s.vwrite unitAgt va.toNat (natLE 8 v) with
    | (.ok _, s1) => (true, s1)
    | (.stall, s1) => (false, s1)
    | (_, s1) => (true, s1.setFlag (fErr_RING 0x010) true)

/-- A launch whose last thread has ended is over once its second STATUS is written (R23). -/
def State.closeLaunch (s : State) (id : Nat) : State :=
  match s.launch id with
  | some l =>
    if l.left = 0 then
      match s.writeStatus l (1 + 4 + l.faults * 65536) with
      | (true, s1) => s1.modLaunches fun ls => ls.filter fun x => x.id != id
      | (false, s1) => s1
    else s
  | none => s

/-- Launches whose second STATUS waits try again. -/
def State.retryLaunches (s : State) : State :=
  (s.thr.launches.filter fun l => l.left == 0).foldl (fun t l => t.closeLaunch l.id) s

/-- A thread of a launch has ended: the counts, the arrival counter (R28), and STATUS after the last (R23). -/
def State.launchEnd (s : State) (id : Nat) (byFault : Bool) : State :=
  match s.launch id with
  | none => s
  | some l =>
    let s1 := if l.cntEn then s.addCounter l.cntIdx 1 false else s
    (s1.modLaunch id fun x => { x with left := x.left - 1, faults := x.faults + byFault.toNat }).closeLaunch id

/-- A grove without resident threads keeps its split; its contexts are free for placement. A context freed (R51). -/
def State.freeCtx (s : State) (t : Tid) : State := s.setCtx t Ctx.idle

/-- A thread ends, by exit or by a fault that node software has ended (R28, R51, R69). -/
def State.endThread (s : State) (t : Tid) (byFault : Bool) : State :=
  let l := (s.ctx t).launch
  let s1 := ((s.releaseEngines t).freeCtx t)
  match l with
  | some id => s1.launchEnd id byFault
  | none => s1

/-! ### Stops (R61) -/

/-- The elements of a gather or scatter in progress, tile accesses included: of a packed one the active elements (R61, R67, R132);
none while the instruction still waits for its engine's ownership or its unit's power. -/
def State.elementsOf (s : State) (t : Tid) : Option Nat :=
  let e := s.ew (ewCore t)
  let tile := fun (w : MemW) => e.rows * min e.cols (128 / w.bytes)
  let packed := (e.packed.map List.length).getD 0
  let vec := fun (w : MemW) => match t.kind with | .grove => 1 | .near => 64 / w.bytes | .control => 128 / w.bytes
  if !(s.ctx t).await.out then none
  else match (s.ctx t).instr with
  | some (.gather _ w _ _ _) => some (vec w)
  | some (.scatter _ w _ _ _) => some (vec w)
  | some (.etld _ w _ _ _) => some (tile w)
  | some (.etst _ w _ _ _) => some (tile w)
  | some (.ecprst _ _ _ _ _ _) => some packed
  | some (.expdld _ _ _ _ _ _) => some packed
  | _ => none

/-- A thread stops at an instruction boundary. A refused store's REMOTE_ERROR due at that boundary is its own fault, and the stop
then has no effect (R61, R273). -/
def State.stopNow (s : State) (t : Tid) (gs : Option Nat) : State :=
  match (s.ctx t).late with
  | some va => (s.modCtx t fun c => { c with late := none, stopPending := false }).takeFault t { code := 0x23, va := va }
  | none => s.toFaulted t { code := 0x2F, gs := gs } 0x2F 0

/-- A thread stopped by TSTOP at its next instruction boundary (R51, R61): a memory access already issued completes first, and
so does a gather or scatter of 4 elements or fewer; a longer one stops at its next element boundary. An access that has not gone
out, as one that waits for a protected unit, is abandoned. -/
def State.stopThread (s : State) (t : Tid) : State :=
  let c := s.ctx t
  let later := s.modCtx t fun c => { c with stopPending := true }
  if c.st ≠ .wait then s.stopNow t none
  else match s.elementsOf t with
    | some n => if 4 < n then s.stopNow t (some c.gsIdx.toNat) else later
    | none => if c.rem.isSome ∨ (c.await.out ∧ c.await ≠ .issued) then later else s.stopNow t none

/-- Every thread of the job stopped, with code STOPPED (R424). -/
def State.stopAll (s : State) : State :=
  (s.thr.ctxs.filter fun e => e.2.st != .idle && e.2.st != .faulted).foldl (fun t e =>
    match Tid.ofHandle e.1 with
    | some tid => (t.modCtx tid fun c => { c with rem := none }).toFaulted tid { code := 0x2F } 0x2F 0
    | none => t) s

/-! ### The fault queue (R60, R63) -/

/-- N of the fault queue: 4 to 16, other values select 4 (Table 3.10). -/
def State.fqLog (s : State) : Nat :=
  let n := s.fld fCtl_LOG2N
  if 4 ≤ n ∧ n ≤ 16 then n else 4

/-- The bytes of a notice (Table 3.9). -/
def Notice.bytes (n : Notice) : List Byte :=
  natLE 4 n.t.handle ++ natLE 1 n.code ++ natLE 1 (n.gsPart.toNat + 2 * n.errVal.toNat) ++ natLE 2 n.gsIdx.toNat ++
    natLE 8 n.pc.toNat ++ natLE 8 n.va.toNat ++ natLE 8 n.step.toNat

/-- The fault queue is full (R63). -/
def State.fqFull (s : State) : Bool :=
  decide ((s.fld fCtl_FQ_PROD + 2 ^ 32 - s.fld fCtl_FQ_CONS) % 2 ^ 32 = 2 ^ s.fqLog)

/-- The first waiting notice is written (R60, R63), unless the queue is full or disabled. A notice of a fault before the last one of
its thread lets no TRESUME through. -/
def State.writeNotice (s : State) : State :=
  match s.thr.notices with
  | [] => s
  | n :: rest =>
    if !s.flag fCtl_EN ∨ s.fqFull then s
    else
      let i := s.fld fCtl_FQ_PROD % 2 ^ s.fqLog
      match s.vwrite unitAgt (s.fld fCtl_FQ_BASE * 64 + 32 * i) n.bytes with
      | (.ok _, s1) =>
        let s2 := { s1 with thr := { s1.thr with notices := rest } }
        (s2.inc fCtl_FQ_PROD).modCtx n.t fun c => { c with noticed := c.st = .faulted ∧ !rest.any fun m => m.t == n.t }
      | (.stall, s1) => s1
      | (_, s1) => (s1.setFlag fCtl_EN false).setFlag (fErr_RING 0x010) true

end Sys2Proof.Machine
end

