-- ==== Sys2Proof/Machine/EwOps.lean ====
section
/-! DEFINITION. The element-wise engine's arithmetic: tiles, element functions, lane programs, reductions, conversions (spec 06). -/

namespace Sys2Proof.Machine

/-! ### Tiles (R125, R127) -/

/-- Default of the tile bytes. -/
def tileZero (_ : Nat) : Byte := 0

/-- Columns of a tile of elements of width `w` (Table 6.1). -/
def colsOf (w : Nat) : Nat := 128 / w

/-- Element (i, j) of tile register `r`. -/
def Ew.el (e : Ew) (w r i j : Nat) : Nat :=
  leNat ((List.range w).map fun b => tabGet tileZero e.tiles (r * 4096 + i * 128 + j * w + b))

/-- Bytes put in a tile register. -/
def putTile (t : List (Nat × Byte)) : Nat → List Byte → List (Nat × Byte)
  | _, [] => t
  | k, b :: bs => putTile (tabSet tileZero t k b) (k + 1) bs

/-- Element (i, j) of a tile register set. -/
def Ew.setEl (e : Ew) (w r i j v : Nat) : Ew := { e with tiles := putTile e.tiles (r * 4096 + i * 128 + j * w) (natLE w v) }

/-- A whole tile register set to one byte. -/
def Ew.fillTile (e : Ew) (r : Nat) (b : Byte) : Ew :=
  { e with tiles := putTile e.tiles (r * 4096) (List.replicate 4096 b) }

/-- Columns in extent for width `w`. -/
def Ew.ext (e : Ew) (w : Nat) : Nat := min e.cols (colsOf w)

/-- Positions in extent, in row-major order. -/
def Ew.cells (e : Ew) (w : Nat) : List (Nat × Nat) :=
  (List.range e.rows).flatMap fun i => (List.range (e.ext w)).map fun j => (i, j)

/-- Every position of a tile, in row-major order. -/
def allCells (w : Nat) : List (Nat × Nat) := (List.range 32).flatMap fun i => (List.range (colsOf w)).map fun j => (i, j)

/-- Flags ORed into EFLAGS (R133). -/
def Ew.raise (e : Ew) (fl : Flags) : Ew := { e with eflags := e.eflags ||| fl }

/-- A tile computed at the given positions from the state `e0` before the instruction, flags raised. -/
def Ew.mapTile (e : Ew) (w d : Nat) (cells : List (Nat × Nat)) (f : Nat → Nat → Nat × Flags) : Ew :=
  cells.foldl (fun x c => let r := f c.1 c.2
    (x.setEl w d c.1 c.2 r.1).raise r.2) e

/-! ### Formats and functions (Tables 6.4, 6.5) -/

/-- An element-wise format: width, floating format, signed integer. -/
structure EFmt where
  w : Nat
  fp : Option FFmt
  sg : Bool
  deriving DecidableEq, Repr

/-- Table 6.4; none for the reserved code. -/
def ewFmt : Nat → Option EFmt
  | 0 => some ⟨8, some fmtD, true⟩
  | 1 => some ⟨4, some fmtS, true⟩
  | 2 => some ⟨2, some fmtH, true⟩
  | 3 => some ⟨8, none, true⟩
  | 4 => some ⟨4, none, true⟩
  | 5 => some ⟨8, none, false⟩
  | 6 => some ⟨4, none, false⟩
  | _ => none

/-- The value of an integer element. -/
def EFmt.int (x : EFmt) (v : Nat) : Int := if x.sg then sInt (8 * x.w) v else (v % 2 ^ (8 * x.w) : Nat)

/-- A pattern of the format's width. -/
def EFmt.trunc (x : EFmt) (v : Nat) : Nat := v % 2 ^ (8 * x.w)

/-- All ones. -/
def EFmt.ones (x : EFmt) : Nat := 2 ^ (8 * x.w) - 1

/-- The functions a format allows (Table 6.5), CMP and the reserved codes apart. -/
def EFmt.allows (x : EFmt) (func : Nat) : Bool :=
  if x.fp.isSome then decide (func ≤ 14) || func == 17 || func == 18
  else decide (func ≤ 2) || func == 5 || func == 6 || (decide (12 ≤ func) && decide (func ≤ 18))

/-- The functions every format has alike. -/
def EFmt.common (x : EFmt) (func a b c : Nat) : Nat :=
  match func with
  | 12 => a &&& b
  | 13 => a ||| b
  | 14 => a ^^^ b
  | 18 => if x.trunc a ≠ 0 then b else c
  | _ => a

/-- MIN or MAX of a format (R82). -/
def EFmt.maxMin (x : EFmt) (isMax : Bool) (a b : Nat) : Nat × Flags :=
  match x.fp with
  | some f => f.maxMin isMax a b
  | none => (if decide (x.int a < x.int b) = isMax then b else a, 0)

/-- a + b in a format, RNE or the mode. -/
def EFmt.add (x : EFmt) (rm a b : Nat) : Nat × Flags :=
  match x.fp with
  | some f => f.add rm a b
  | none => (x.trunc (a + b), 0)

/-- An element function, CMP apart (Table 6.5, R135). -/
def EFmt.fn (x : EFmt) (func rm a b c : Nat) : Nat × Flags :=
  if func = 5 then x.maxMin false a b
  else if func = 6 then x.maxMin true a b
  else match x.fp with
  | some f =>
    match func with
    | 0 => f.add rm a b
    | 1 => f.sub rm a b
    | 2 => f.mul rm a b
    | 3 => f.div rm a b
    | 4 => f.sqrt rm a
    | 7 => f.rnd rm a
    | 8 => (f.negate a, 0)
    | 9 => (f.absVal a, 0)
    | 10 => (f.copySign a b, 0)
    | 11 => f.fma rm false false a b c
    | _ => (x.common func a b c, 0)
  | none =>
    let n := 8 * x.w
    match func with
    | 0 => (x.trunc (a + b), 0)
    | 1 => (x.trunc (a + 2 ^ n - b % 2 ^ n), 0)
    | 2 => (x.trunc (a * b), 0)
    | 15 => (x.trunc (a <<< (b % n)), 0)
    | 16 => (ofSInt n (x.int a / 2 ^ (b % n)), 0)
    | _ => (x.common func a b c, 0)

/-- A comparison (R135): none for a reserved predicate. -/
def EFmt.cmp (x : EFmt) (pred a b : Nat) : Option (Bool × Flags) :=
  match x.fp with
  | some f => f.compare pred a b
  | none =>
    let p := x.int a
    let q := x.int b
    match pred with
    | 0x00 => some (decide (p = q), 0)
    | 0x01 => some (decide (p ≠ q), 0)
    | 0x02 => some (decide (p < q), 0)
    | 0x03 => some (decide (p ≤ q), 0)
    | 0x04 => some (decide (q < p), 0)
    | 0x05 => some (decide (q ≤ p), 0)
    | 0x06 => some (decide (p < q), 0)
    | 0x07 => some (decide (p ≤ q), 0)
    | 0x08 => some (decide (q < p), 0)
    | 0x09 => some (decide (q ≤ p), 0)
    | 0x0A => some (false, 0)
    | 0x0B => some (decide (p = q), 0)
    | 0x10 => some (decide (p ≤ q), 0)
    | 0x11 => some (decide (p.natAbs ≤ q.natAbs), 0)
    | _ => none

/-- A comparison's mask element. -/
def EFmt.mask (x : EFmt) (pred a b : Nat) : Nat × Flags :=
  match x.cmp pred a b with
  | some (r, fl) => (if r then x.ones else 0, fl)
  | none => (0, 0)

/-- A predicate that a compare may name. -/
def predOk (pred : Nat) : Bool := decide (pred ≤ 0x0B) || pred == 0x10 || pred == 0x11

/-- A position, exact in a format. -/
def EFmt.pos (x : EFmt) (n : Nat) : Nat :=
  match x.fp with
  | some f => (f.convert 0 0 false (.fin false n 0)).1
  | none => n

/-! ### Lane programs (R136 to R138) -/

/-- An op word's fields (Table 6.7). -/
structure EOp where
  func : Nat
  dst : Nat
  sa : Nat
  sb : Nat
  sc : Nat
  pred : Nat
  rm : Nat
  high : Nat
  deriving DecidableEq, Repr

/-- The fields of an op word. -/
def eopOf (w : Nat) : EOp :=
  { func := bitsOf w 4 0, dst := bitsOf w 9 5, sa := bitsOf w 14 10, sb := bitsOf w 19 15, sc := bitsOf w 24 20,
    pred := bitsOf w 29 25, rm := bitsOf w 32 30, high := w >>> 33 }

/-- A function of one operand. -/
def unaryFn (func : Nat) : Bool := func == 4 || (decide (7 ≤ func) && decide (func ≤ 9)) || func == 17

/-- A function of three operands. -/
def ternaryFn (func : Nat) : Bool := func == 11 || func == 18

/-- The source operands a function reads. -/
def EOp.srcs (o : EOp) : List Nat := if unaryFn o.func then [o.sa] else if ternaryFn o.func then [o.sa, o.sb, o.sc] else [o.sa, o.sb]

/-- A source operand code that may be read (Table 6.8). -/
def srcOk (c : Nat) : Bool := decide (c ≤ 19) || (decide (24 ≤ c) && decide (c ≤ 26))

/-- An op word is invalid (R137). -/
def EOp.bad (o : EOp) (x : EFmt) : Bool :=
  o.high != 0 || !(x.allows o.func || o.func == 19) || !(decide (o.dst < 8) || (decide (20 ≤ o.dst) && decide (o.dst ≤ 23))) ||
    !o.srcs.all srcOk || (o.func == 19 && !predOk o.pred) || o.rm == 5 || o.rm == 6

/-- A program block's fields. -/
structure EProg where
  nops : Nat
  fmt : Nat
  rm : Nat
  consts : List Nat
  ops : List EOp
  deriving DecidableEq, Repr

/-- The fields of a block. -/
def eprogOf (b : List Byte) : EProg :=
  let h := fieldLE b 0 8
  { nops := bitsOf h 5 0, fmt := bitsOf h 8 6, rm := bitsOf h 11 9,
    consts := (List.range 8).map fun k => fieldLE b (8 + 8 * k) 8,
    ops := (List.range (bitsOf h 5 0)).map fun k => eopOf (fieldLE b (0x48 + 8 * k) 8) }

/-- A block that EPROG refuses (R136). A default mode of 5 or 6 is one that Table 6.6 does not admit. -/
def progBad (b : List Byte) : Bool :=
  let p := eprogOf b
  match ewFmt p.fmt with
  | none => true
  | some x => fieldLE b 0 8 >>> 12 != 0 || p.nops == 0 || decide (32 < p.nops) || p.rm == 5 || p.rm == 6 ||
      p.ops.any (fun o => o.bad x) || (sliceB b 0x148 0x38).any (· != 0)

/-- The outputs a program writes. -/
def EProg.outs (p : EProg) : List Nat := (p.ops.filterMap fun o => if 20 ≤ o.dst then some (o.dst - 20) else none).eraseDups

/-- The inputs a program reads. -/
def EProg.ins (p : EProg) : List Nat :=
  (p.ops.flatMap fun o => o.srcs.filterMap fun c => if 8 ≤ c ∧ c ≤ 11 then some (c - 8) else none).eraseDups

/-- A binding's fields (R138): input and output registers and modes. -/
def bindIn (w n : Nat) : Nat := (w >>> (4 * n)) % 16
/-- The register of an output. -/
def bindOut (w n : Nat) : Nat := (w >>> (16 + 4 * n)) % 16
/-- The mode of an input. -/
def bindMode (w n : Nat) : Nat := (w >>> (32 + 2 * n)) % 4

/-- A binding that ERUN refuses. -/
def bindBad (p : EProg) (w : Nat) : Bool :=
  let rs := p.outs.map (bindOut w)
  w >>> 40 != 0 || (List.range 4).any (fun n => bindMode w n == 3) || rs.eraseDups.length != rs.length

/-- What one element's run holds: locals, outputs, flags. -/
structure ERun where
  locals : List Nat
  outs : List (Option Nat)
  fl : Flags
  deriving DecidableEq, Repr

/-- A source operand's value at element (i, j). -/
def ERun.src (r : ERun) (p : EProg) (x : EFmt) (ins : Nat → Nat) (i j c : Nat) : Nat :=
  if c < 8 then r.locals.getD c 0
  else if c < 12 then ins (c - 8)
  else if c < 20 then x.trunc (p.consts.getD (c - 12) 0)
  else if c = 24 then x.pos (i * colsOf x.w + j)
  else if c = 25 then x.pos i
  else x.pos j

/-- The effective mode of an op: its own, the block's, the thread's (R137, R138). -/
def EOp.effRm (o : EOp) (p : EProg) (frm : Nat) : Nat := if o.rm ≠ 7 then o.rm else if p.rm ≠ 7 then p.rm else frm

/-- One op. -/
def ERun.op (r : ERun) (p : EProg) (x : EFmt) (frm : Nat) (ins : Nat → Nat) (i j : Nat) (o : EOp) : ERun :=
  let a := r.src p x ins i j o.sa
  let b := r.src p x ins i j o.sb
  let c := r.src p x ins i j o.sc
  let (v, fl) := if o.func = 19 then x.mask o.pred a b else x.fn o.func (o.effRm p frm) a b c
  let r1 := { r with fl := r.fl ||| fl }
  if o.dst < 8 then { r1 with locals := r1.locals.set o.dst v } else { r1 with outs := r1.outs.set (o.dst - 20) (some v) }

/-- A program run on element (i, j). -/
def EProg.run (p : EProg) (x : EFmt) (frm : Nat) (ins : Nat → Nat) (i j : Nat) : ERun :=
  p.ops.foldl (fun r o => r.op p x frm ins i j o) { locals := List.replicate 8 0, outs := List.replicate 4 none, fl := 0 }

/-- An input's element at (i, j) under its mode (R138). -/
def Ew.input (e : Ew) (w bind i j n : Nat) : Nat :=
  match bindMode bind n with
  | 1 => e.el w (bindIn bind n) i 0
  | 2 => e.el w (bindIn bind n) 0 j
  | _ => e.el w (bindIn bind n) i j

/-- The outputs of one element written. -/
def Ew.putOuts (e : Ew) (w bind i j : Nat) (outs : List (Option Nat)) : Ew :=
  (List.range 4).foldl (fun x n => match outs.getD n none with
    | some v => x.setEl w (bindOut bind n) i j v
    | none => x) e

/-- ERUN over the extent: inputs as they stood before it. -/
def Ew.runProg (e : Ew) (p : EProg) (x : EFmt) (frm bind : Nat) : Ew :=
  (e.cells x.w).foldl (fun y c =>
    let r := p.run x frm (e.input x.w bind c.1 c.2) c.1 c.2
    (y.putOuts x.w bind c.1 c.2 r.outs).raise r.fl) e

/-! ### Reductions and summaries (R139, R140) -/

/-- One level of a pairwise tree over positions, absent ones skipped. -/
def treeLevel (f : Nat → Nat → Nat × Flags) : List (Option Nat) → List (Option Nat) × Flags
  | a :: b :: rest =>
    let (out, fl) := treeLevel f rest
    match a, b with
    | some x, some y => let r := f x y
      (some r.1 :: out, fl ||| r.2)
    | some x, none => (some x :: out, fl)
    | none, y => (y :: out, fl)
  | [a] => ([a], 0)
  | [] => ([], 0)

/-- A pairwise tree of up to `2 ^ fuel` positions. -/
def treeFold (f : Nat → Nat → Nat × Flags) : Nat → List (Option Nat) → Option Nat × Flags
  | 0, l => (l.head?.join, 0)
  | fuel + 1, l =>
    let (l1, fl) := treeLevel f l
    let (r, fl2) := treeFold f fuel l1
    (r, fl ||| fl2)

/-- −0.0, or 0 of an integer format: what a position outside the extent adds. -/
def EFmt.negZero (x : EFmt) : Nat := match x.fp with | some f => f.signBit | none => 0

/-- The value of one axis (R139): `xs` in ascending order, none outside the extent. -/
def EFmt.axis (x : EFmt) (op : Nat) (xs : List (Option Nat)) : Nat × Flags :=
  match op with
  | 0 => let (r, fl) := treeFold (x.add 0) 7 (xs.map fun v => some (v.getD x.negZero))
    (r.getD 0, fl)
  | 1 => xs.foldl (fun acc v => let r := x.add 0 acc.1 (v.getD x.negZero)
    (r.1, acc.2 ||| r.2)) (x.negZero, 0)
  | 2 => let (r, fl) := treeFold (x.maxMin false) 7 xs
    (r.getD 0, fl)
  | 3 => let (r, fl) := treeFold (x.maxMin true) 7 xs
    (r.getD 0, fl)
  | 4 => (xs.foldl (fun acc v => match v with | some y => acc &&& y | none => acc) x.ones, 0)
  | 5 => (xs.foldl (fun acc v => acc ||| v.getD 0) 0, 0)
  | _ => (xs.foldl (fun acc v => acc ^^^ v.getD 0) 0, 0)

/-- ERED. -/
def Ew.reduce (e : Ew) (x : EFmt) (axis op d a : Nat) : Ew :=
  let at_ := fun i j => if i < e.rows ∧ j < e.ext x.w then some (e.el x.w a i j) else none
  if axis = 0 then
    e.mapTile x.w d ((List.range e.rows).map fun i => (i, 0)) fun i _ => x.axis op ((List.range (colsOf x.w)).map fun j => at_ i j)
  else
    e.mapTile x.w d ((List.range (e.ext x.w)).map fun j => (0, j)) fun _ j => x.axis op ((List.range 32).map fun i => at_ i j)

/-- ESUM (Table 6.9). -/
def Ew.summary (e : Ew) (x : EFmt) (kind a : Nat) : Nat × Flags :=
  let xs := (e.cells x.w).map fun c => (c.1 * colsOf x.w + c.2, e.el x.w a c.1 c.2)
  let full := (allCells x.w).map fun c => if c.1 < e.rows ∧ c.2 < e.ext x.w then some (e.el x.w a c.1 c.2) else none
  match kind with
  | 0 => ((xs.any fun v => v.2 != 0).toNat, 0)
  | 1 => ((xs.all fun v => v.2 != 0).toNat, 0)
  | 2 => ((xs.filter fun v => v.2 != 0).length, 0)
  | 3 => let (r, fl) := treeFold (x.maxMin false) 12 full
    (r.getD 0, fl)
  | 4 => let (r, fl) := treeFold (x.maxMin true) 12 full
    (r.getD 0, fl)
  | _ => match xs.find? fun v => v.2 != 0 with
    | some v => (v.1, 0)
    | none => (2 ^ 64 - 1, 0)

/-! ### Compress and expand (R141) -/

/-- The active positions under a mask tile, row-major. -/
def Ew.active (e : Ew) (w m : Nat) : List (Nat × Nat) := (e.cells w).filter fun c => e.el w m c.1 c.2 != 0

/-- ECPR. -/
def Ew.compress (e : Ew) (w d a m : Nat) : Ew :=
  let vs := (e.active w m).map fun c => e.el w a c.1 c.2
  e.mapTile w d (allCells w) fun i j => (vs.getD (i * colsOf w + j) 0, 0)

/-- EXPD. -/
def Ew.expand (e : Ew) (w d a m : Nat) : Ew :=
  let ps := e.active w m
  (List.range ps.length).foldl (fun y k =>
    let c := ps.getD k (0, 0)
    y.setEl w d c.1 c.2 (e.el w a (k / colsOf w) (k % colsOf w))) e

/-! ### Conversion (R144) -/

/-- A conversion word's fields (Table 6.10). -/
structure ECvt where
  src : Nat
  tgt : Nat
  rm : Nat
  sat : Bool
  part : Nat
  high : Nat
  deriving DecidableEq, Repr

/-- The fields of a conversion word. -/
def ecvtOf (w : Nat) : ECvt :=
  { src := bitsOf w 4 0, tgt := bitsOf w 9 5, rm := bitsOf w 12 10, sat := bitAt w 13, part := bitsOf w 16 14, high := w >>> 17 }

/-- Scalar format codes that ECVT converts. -/
def ecvtCode (c : Nat) : Bool := decide (c ≤ 5) || c == 0x0C || c == 0x0D || (decide (0x10 ≤ c) && decide (c ≤ 0x13))

/-- Bytes of one element of a side; an MX side counts as 1-byte elements. -/
def sideBytes (c : Nat) : Nat := if isMx c then 1 else codeBits c / 8

/-- C_w of the side with wider elements. -/
def ECvt.wide (x : ECvt) : Nat := colsOf (max (sideBytes x.src) (sideBytes x.tgt))
/-- C_w of the other side. -/
def ECvt.narrow (x : ECvt) : Nat := colsOf (min (sideBytes x.src) (sideBytes x.tgt))

/-- A violation of Table 6.10; PART of an MX conversion must be 0. -/
def ECvt.bad (x : ECvt) : Bool :=
  x.high != 0 ||
    !((ecvtCode x.src && ecvtCode x.tgt) || (isMx x.src && x.tgt == 1) || (isMx x.tgt && x.src == 1)) ||
    decide (x.narrow / x.wide ≤ x.part) || ((isMx x.src || isMx x.tgt) && x.part != 0)

/-- ECVT encodes rows of 32 FP32 elements as MX blocks. -/
def Ew.encodeMx (e : Ew) (x : ECvt) (rm : Nat) (r : Nat → Nat → Nat) (d a : Nat) : Ew :=
  (List.range e.rows).foldl (fun y i =>
    let xs := (List.range 32).map fun j => fmtS.decode (if j < e.cols then e.el 4 a i j else 0)
    let (sc, es, fl) := mxEncode x.tgt rm (r i) xs
    let blk := natLE (4 * codeBits x.tgt) (packAll (codeBits x.tgt) es)
    { (y.raise fl) with tiles := tabSet tileZero (putTile y.tiles (d * 4096 + i * 128) blk) (d * 4096 + i * 128 + 127)
                                   (BitVec.ofNat 8 sc) }) e

/-- ECVT decodes MX blocks into FP32 columns in extent. -/
def Ew.decodeMx (e : Ew) (x : ECvt) (rm : Nat) (r : Nat → Nat → Nat) (d a : Nat) : Ew :=
  e.mapTile 4 d (e.cells 4) fun i j =>
    let bits := codeBits x.src
    let blk := leNat ((List.range (4 * bits)).map fun b => tabGet tileZero e.tiles (a * 4096 + i * 128 + b))
    fmtS.convert rm (r i j) x.sat
      (mxDecode x.src (tabGet tileZero e.tiles (a * 4096 + i * 128 + 127)).toNat (packedAt bits blk j))

/-- ECVT between scalar formats. -/
def Ew.convert (e : Ew) (x : ECvt) (rm : Nat) (r : Nat → Nat → Nat) (d a : Nat) : Ew :=
  let ws := sideBytes x.src
  let wt := sideBytes x.tgt
  let cells := (List.range e.rows).flatMap fun i => (List.range (min e.cols x.wide)).map fun j => (i, j)
  cells.foldl (fun y c =>
    let (i, j) := c
    let js := if wt ≤ ws then j else x.part * x.wide + j
    let jt := if wt ≤ ws then x.part * x.wide + j else j
    let (v, fl) := codeConvert x.src x.tgt rm (r i j) x.sat (e.el ws a i js)
    (y.setEl wt d i jt v).raise fl) e

end Sys2Proof.Machine
end

