-- ==== Sys2Proof/Machine/Issue.lean ====
section
/-! DEFINITION. How a thread issues an instruction: the state of its context, the boundary hold, fetch, profile and privilege, and
what becomes of the context (R17, R51, R53, R55, R57). -/

namespace Sys2Proof.Machine

/-- What an instruction's body comes to: it retires; it has seen to the context itself; it faults; it waits. -/
inductive TRes where
  | done (s : State)
  | jump (s : State)
  | fault (s : State) (f : FaultArg)
  | wait (s : State) (aw : Await)

/-- Who may execute an instruction (Table 3.6), and whether it is memory, fabric or engine work (R17). -/
structure Prof where
  grove : Bool := true
  near : Bool := true
  control : Bool := true
  sup : Bool := false
  work : Bool := false
  deriving DecidableEq, Repr

/-- Any thread, no memory, fabric or engine work. -/
def profAll : Prof := {}
/-- Any thread, memory or fabric work. -/
def profWork : Prof := { work := true }
/-- Control threads. -/
def profControl : Prof := { grove := false, near := false, work := true }
/-- Control threads at supervisor level. -/
def profSup : Prof := { grove := false, near := false, sup := true }
/-- Control threads at supervisor level, with memory or fabric work. -/
def profSupWork : Prof := { grove := false, near := false, sup := true, work := true }
/-- Cores with Algon-V (Table 3.1). -/
def profVec : Prof := { grove := false }
/-- Cores with Algon-V, memory work. -/
def profVecWork : Prof := { grove := false, work := true }
/-- Thread cores: the grove engines. -/
def profEngine : Prof := { near := false, control := false, work := true }

/-- The profile admits the thread. -/
def Prof.admits (p : Prof) (t : Tid) (sup : Bool) : Bool :=
  (match t.kind with | .grove => p.grove | .near => p.near | .control => p.control) && (!p.sup || sup)

/-- How a thread translates. -/
def State.whoOf (s : State) (t : Tid) : Who := if (s.ctx t).sup then .supLevel else .jobLevel

/-- The grove that holds a thread's view lines. -/
def viewGrove (t : Tid) : Option Nat := if t.kind = .grove then some t.groveOf else none

/-- What a thread's loads and stores cache as (R183, R178). -/
def holderOf (t : Tid) : Holder :=
  match t.kind with
  | .grove => if t.groveOf < 128 then .dc0 else .dc1
  | .near => .none
  | .control => .psc

/-- The stack that a near thread works inside (R178). -/
def nearStack (t : Tid) : Option Nat := if t.kind = .near then some t.stackOf else none

/-- What a thread's load or store of a byte counts as at its home. -/
def holderIn (t : Tid) (key : Nat) : Holder := if nearStack t = some (keyStack key) then .inStack else holderOf t

/-- The agent of a thread's accesses. -/
def State.agtOf (s : State) (t : Tid) : Agt :=
  { who := s.whoOf t, grove := viewGrove t, holder := holderOf t, handle := t.handle, use := .store t, read := .read t,
    stack := nearStack t }

/-- The agent of a thread's element accesses, on the sector path (R168). -/
def State.sectorAgt (s : State) (t : Tid) : Agt := { s.agtOf t with sector := true }

/-- The agent of an engine's accesses for a thread of a grove, within an instruction of the thread. -/
def engAgt (t : Tid) : Agt :=
  { who := .jobLevel, grove := viewGrove t, holder := holderOf t, handle := t.handle, use := .store t, read := .read t }

/-- The agent of a matrix engine's own reads for a tile. -/
def tileAgt (t : Tid) (tile : Nat) : Agt := { engAgt t with read := .opnd t tile }

/-- The instruction retires. -/
def Ctx.retired (c : Ctx) : Ctx := { c with st := .ready, pc := c.pc + 4, instr := none, await := .cond }

/-- The instruction waits, to be issued again when its condition holds. -/
def Ctx.waiting (c : Ctx) (i : Instr) (aw : Await) : Ctx := { c with st := .wait, instr := some i, await := aw }

/-- The instruction is held until the boundary's last action completes (R17). -/
def Ctx.heldAt (c : Ctx) (i : Instr) : Ctx := { c with st := .held, instr := some i }

/-- Step-boundary actions run (R17). -/
def State.boundary (s : State) : Bool := s.bnd.phase != .none

/-- The fetch of the instruction at a thread's pc (R53): aligned, and executable. -/
def State.fetch (s : State) (t : Tid) : Xl × State :=
  if (s.ctx t).pc.toNat % 4 ≠ 0 then (.fault 0x20, s)
  else match s.xlate (s.whoOf t) (s.ctx t).pc.toNat .fetch with
    | (.ok g, s1) => (.ok g, s1.markAccess (s.ctx t).pc.toNat .fetch)
    | x => x

/-- The context after an instruction's body. -/
def State.settle (t : Tid) (i : Instr) : TRes → State
  | .done s =>
    let s1 := s.modCtx t Ctx.retired
    -- a stop that found the access issued takes effect now (R61)
    if (s1.ctx t).stopPending then s1.stopNow t none else s1
  | .jump s => s
  | .fault s f => s.takeFault t f
  | .wait s aw => s.modCtx t fun c => c.waiting i aw

/-- Debug has halted a thread, or it stands at a breakpoint, and no single step of it is due (R410). -/
def State.debugHeld (s : State) (h : Nat) : Bool :=
  (s.sec.halted.contains h || s.sec.breaks.contains (h, (tabGet ctxDefault s.thr.ctxs h).pc)) && !s.sec.stepping.contains h

/-- A single step is used up by the instruction that issues. -/
def State.unstep (s : State) (h : Nat) (f : State → State) : State :=
  if s.sec.stepping.contains h then f { s with sec := { s.sec with stepping := s.sec.stepping.filter (· != h) } } else f s

/-- A thread issues an instruction: nothing unless its context is READY and debug has not halted it; a late refusal of a store first (R273); the boundary
hold, which an access that waits at its home has passed; the fetch; the profile; the body. -/
def State.issue (s : State) (t : Tid) (i : Instr) (p : Prof) (body : State → TRes) : State :=
  if !t.valid ∨ (s.ctx t).st ≠ .ready ∨ s.debugHeld t.handle then s
  else s.unstep t.handle fun s => match (s.ctx t).late with
    | some va => (s.modCtx t fun c => { c with late := none }).takeFault t { code := 0x23, va := va }
    | none =>
      if p.work ∧ s.boundary ∧ !(s.ctx t).await.out then s.modCtx t fun c => c.heldAt i
      else match s.fetch t with
        | (.fault c, s1) => s1.takeFault t { code := c }
        | (.stall, s1) => s1.modCtx t fun c => c.waiting i .cond
        | (.ok _, s1) =>
          if p.admits t (s1.ctx t).sup then State.settle t i (body s1) else s1.takeFault t { code := 0x21 }

/-- An instruction that only changes its own context: a total function of the context, or ILLEGAL_INSN. -/
def State.issueCtx (s : State) (t : Tid) (i : Instr) (p : Prof) (f : Ctx → Option Ctx) : State :=
  s.issue t i p fun s1 =>
    match f (s1.ctx t) with
    | some c => .done (s1.setCtx t c)
    | none => .fault s1 { code := 0x21 }

end Sys2Proof.Machine
end

