-- ==== Sys2Proof/Machine/FScalar.lean ====
section
/-! DEFINITION. The scalar floating-point instructions (R79 to R90, R96, Table 4.8). -/

namespace Sys2Proof.Machine

/-! ### What they share -/

/-- The format of an instruction's width suffix (Table 4.8). -/
def fwFmt : FW → FFmt
  | .d => fmtD
  | .s => fmtS
  | .h => fmtH

/-- The effective rounding mode: the RM field, or FRM for 7 (R85). -/
def Ctx.effRm (c : Ctx) (rm : Nat) : Nat := if rm = 7 then c.frm.toNat else rm

/-- Flags raised by an instruction that retires (R80). -/
def Ctx.raise (c : Ctx) (fl : Flags) : Ctx := { c with fflags := c.fflags ||| fl }

/-- A floating result: zero-extended into its f register, flags raised (R80, R89). -/
def Ctx.putF (c : Ctx) (d : Nat) (r : Nat × Flags) : Ctx := (c.sf d (BitVec.ofNat 64 r.1)).raise r.2

/-- The operand in an f register: its low bits (R89). -/
def Ctx.fpat (c : Ctx) (f : FW) (r : Nat) : Nat := (c.gf r).toNat % 2 ^ (fwFmt f).width

/-- An instruction of OP 0x10 to 0x12: ILLEGAL_INSN under an effective mode 5 or 6 (R85), else its effect on the context. That every
instruction of these OPs is one of R85's arithmetic instructions, those that do not round included, is a DESIGN CHOICE (assumption
log 116). -/
def State.fpInsn (s : State) (t : Tid) (i : Instr) (rm : Nat) (op : Nat → Ctx → Ctx) : State :=
  s.issueCtx t i profAll fun c => if 4 < c.effRm rm then none else some (op (c.effRm rm) c)

/-- One of two operands. -/
def State.fpBin (s : State) (t : Tid) (i : Instr) (f : FW) (rm d a b : Nat) (op : FFmt → Nat → Nat → Nat → Nat × Flags) : State :=
  s.fpInsn t i rm fun m c => c.putF d (op (fwFmt f) m (c.fpat f a) (c.fpat f b))

/-- One of one operand. -/
def State.fpUn (s : State) (t : Tid) (i : Instr) (f : FW) (rm d a : Nat) (op : FFmt → Nat → Nat → Nat × Flags) : State :=
  s.fpInsn t i rm fun m c => c.putF d (op (fwFmt f) m (c.fpat f a))

/-! ### Arithmetic (FUNC 0 to 4) -/

/-- FADD. -/
def execFadd (t : Tid) (f : FW) (rm : Fin 8) (d a b : Reg) (s : State) : Host.Outcome State Fault Refusal :=
  .next (s.fpBin t (.fadd t f rm d a b) f rm d a b fun k m x y => k.add m x y)
/-- FSUB. -/
def execFsub (t : Tid) (f : FW) (rm : Fin 8) (d a b : Reg) (s : State) : Host.Outcome State Fault Refusal :=
  .next (s.fpBin t (.fsub t f rm d a b) f rm d a b fun k m x y => k.sub m x y)
/-- FMUL. -/
def execFmul (t : Tid) (f : FW) (rm : Fin 8) (d a b : Reg) (s : State) : Host.Outcome State Fault Refusal :=
  .next (s.fpBin t (.fmul t f rm d a b) f rm d a b fun k m x y => k.mul m x y)
/-- FDIV. -/
def execFdiv (t : Tid) (f : FW) (rm : Fin 8) (d a b : Reg) (s : State) : Host.Outcome State Fault Refusal :=
  .next (s.fpBin t (.fdiv t f rm d a b) f rm d a b fun k m x y => k.div m x y)

/-- FSQRT: its B field must be 0 (Table 4.8), otherwise the form is reserved and raises ILLEGAL_INSN. -/
def execFsqrt (t : Tid) (f : FW) (rm : Fin 8) (d a b : Reg) (s : State) : Host.Outcome State Fault Refusal :=
  .next (s.issueCtx t (.fsqrt t f rm d a b) profAll fun c =>
    if b.val ≠ 0 ∨ 4 < c.effRm rm then none
    else some (c.putF d ((fwFmt f).sqrt (c.effRm rm) (c.fpat f a))))

/-! ### Minimum, maximum, rounding to an integer, signs (FUNC 5 to 10) -/

/-- FMIN (R82). -/
def execFmin (t : Tid) (f : FW) (rm : Fin 8) (d a b : Reg) (s : State) : Host.Outcome State Fault Refusal :=
  .next (s.fpBin t (.fmin t f rm d a b) f rm d a b fun k _ x y => k.maxMin false x y)
/-- FMAX (R82). -/
def execFmax (t : Tid) (f : FW) (rm : Fin 8) (d a b : Reg) (s : State) : Host.Outcome State Fault Refusal :=
  .next (s.fpBin t (.fmax t f rm d a b) f rm d a b fun k _ x y => k.maxMin true x y)
/-- FRND: roundToIntegralExact. -/
def execFrnd (t : Tid) (f : FW) (rm : Fin 8) (d a : Reg) (s : State) : Host.Outcome State Fault Refusal :=
  .next (s.fpUn t (.frnd t f rm d a) f rm d a fun k m x => k.rnd m x)
/-- FNEG (R81). -/
def execFneg (t : Tid) (f : FW) (rm : Fin 8) (d a : Reg) (s : State) : Host.Outcome State Fault Refusal :=
  .next (s.fpUn t (.fneg t f rm d a) f rm d a fun k _ x => (k.negate x, 0))
/-- FABS (R81). -/
def execFabs (t : Tid) (f : FW) (rm : Fin 8) (d a : Reg) (s : State) : Host.Outcome State Fault Refusal :=
  .next (s.fpUn t (.fabs t f rm d a) f rm d a fun k _ x => (k.absVal x, 0))
/-- FCPSGN: A with the sign of B (R81). -/
def execFcpsgn (t : Tid) (f : FW) (rm : Fin 8) (d a b : Reg) (s : State) : Host.Outcome State Fault Refusal :=
  .next (s.fpBin t (.fcpsgn t f rm d a b) f rm d a b fun k _ x y => (k.copySign x y, 0))

/-! ### Remainder, scaling, neighbours (FUNC 11 to 15) -/

/-- FREM. -/
def execFrem (t : Tid) (f : FW) (rm : Fin 8) (d a b : Reg) (s : State) : Host.Outcome State Fault Refusal :=
  .next (s.fpBin t (.frem t f rm d a b) f rm d a b fun k _ x y => k.rem x y)
/-- FSCALEB: B is a signed integer in an a register. -/
def execFscaleb (t : Tid) (f : FW) (rm : Fin 8) (d a b : Reg) (s : State) : Host.Outcome State Fault Refusal :=
  .next (s.fpInsn t (.fscaleb t f rm d a b) rm fun m c => c.putF d ((fwFmt f).scaleB m (c.fpat f a) (c.ga b).toInt))
/-- FLOGB: a signed 64-bit integer in an a register (R96). -/
def execFlogb (t : Tid) (f : FW) (rm : Fin 8) (d a : Reg) (s : State) : Host.Outcome State Fault Refusal :=
  .next (s.fpInsn t (.flogb t f rm d a) rm fun _ c =>
    (c.sa d (BitVec.ofInt 64 ((fwFmt f).logB (c.fpat f a)).1)).raise ((fwFmt f).logB (c.fpat f a)).2)
/-- FNEXTUP. -/
def execFnextup (t : Tid) (f : FW) (rm : Fin 8) (d a : Reg) (s : State) : Host.Outcome State Fault Refusal :=
  .next (s.fpUn t (.fnextup t f rm d a) f rm d a fun k _ x => k.nextUp x)
/-- FNEXTDN. -/
def execFnextdn (t : Tid) (f : FW) (rm : Fin 8) (d a : Reg) (s : State) : Host.Outcome State Fault Refusal :=
  .next (s.fpUn t (.fnextdn t f rm d a) f rm d a fun k _ x => k.nextDn x)

/-! ### Fused multiply-add, comparison, class, conversion -/

/-- FMA: variant 0 a × b + c, 1 a × b − c, 2 −a × b + c, 3 −a × b − c (R96). -/
def execFma (t : Tid) (f : FW) (variant : Fin 4) (rm : Fin 8) (d a b c : Reg) (s : State) : Host.Outcome State Fault Refusal :=
  .next (s.fpInsn t (.fma t f variant rm d a b c) rm fun m x =>
    x.putF d ((fwFmt f).fma m (decide (2 ≤ variant.val)) (decide (variant.val % 2 = 1)) (x.fpat f a) (x.fpat f b) (x.fpat f c)))

/-- FCMP: 1 or 0 in an a register; predicate 0x1F is FCLASS; a reserved one raises ILLEGAL_INSN (R83, R96). -/
def execFcmp (t : Tid) (f : FW) (pred : Fin 32) (d a b : Reg) (s : State) : Host.Outcome State Fault Refusal :=
  .next (s.issueCtx t (.fcmp t f pred d a b) profAll fun c =>
    if pred.val = 0x1F then some (c.sa d (BitVec.ofNat 64 ((fwFmt f).classMask (c.fpat f a))))
    else match (fwFmt f).compare pred (c.fpat f a) (c.fpat f b) with
      | some (r, fl) => some ((c.sa d (BitVec.ofNat 64 r.toNat)).raise fl)
      | none => none)

/-- FCLASS: the mask of Table 4.4 in an a register. -/
def execFclass (t : Tid) (f : FW) (d a : Reg) (s : State) : Host.Outcome State Fault Refusal :=
  .next (s.issueCtx t (.fclass t f d a) profAll fun c =>
    some (c.sa d (BitVec.ofNat 64 ((fwFmt f).classMask (c.fpat f a)))))

/-- The formats FCVT accepts (R96). -/
def cvtCode (c : Nat) : Bool := decide (c ≤ 5) || (decide (0x0C ≤ c) && decide (c ≤ 0x13))

/-- The value of a conversion's source register: f for FP64, FP32 and FP16, a otherwise (R89). -/
def Ctx.cvtSrc (c : Ctx) (code r : Nat) : Nat := (if code < 3 then c.gf r else c.ga r).toNat % 2 ^ codeBits code

/-- A converted result in its register: zero-extended, or sign-extended for a signed integer format (R89). -/
def Ctx.cvtPut (c : Ctx) (code d v : Nat) : Ctx :=
  if code < 3 then c.sf d (BitVec.ofNat 64 v)
  else match codeInt code with
    | some (true, w) => c.sa d (BitVec.ofInt 64 (sInt w v))
    | _ => c.sa d (BitVec.ofNat 64 v)

/-- The random value of element 0 under mode `m` (R87). -/
def Ctx.draw0 (c : Ctx) (m fresh : Nat) : Nat :=
  if m = 5 then (srRand c.seed 0).toNat else (Config.random fresh).toNat

/-- SEED after an instruction that used SRS (R87). -/
def Ctx.seeded (c : Ctx) (m : Nat) : Ctx := if m = 5 then { c with seed := mix64 c.seed } else c

/-- FCVT (R88, R89, R96); under STRICT, ND_OP with mode 6 (R314). -/
def execFcvt (t : Tid) (src tgt : Fin 32) (rm : Fin 8) (sat : Bool) (d a : Reg) (s : State) : Host.Outcome State Fault Refusal :=
  .next (s.issue t (.fcvt t src tgt rm sat d a) profAll fun s1 =>
    if !cvtCode src || !cvtCode tgt then .fault s1 { code := 0x21 }
    else
      let c := s1.ctx t
      let m := c.effRm rm
      if m = 6 ∧ s1.flag fMode_A_STRICT then .fault s1 { code := 0x5C }
      else
      let r := codeConvert src tgt m (c.draw0 m s1.fresh) sat (c.cvtSrc src a)
      let s2 := if m = 6 then s1.draw.2 else s1
      .done (s2.setCtx t (((c.cvtPut tgt d r.1).raise r.2).seeded m)))

end Sys2Proof.Machine
end

