-- ==== Sys2Proof/Machine/Insn.lean ====
section
/-! DEFINITION. Atomics, fences, line-watches, state registers and RNG.U (R32, R41, R42, R54, R56, R62, R185, R272, R274). -/

namespace Sys2Proof.Machine

/-! ### Narrow results -/

/-- A result narrower than a register: the spec states its low bytes only; the upper bits are free (assumption log 13). -/
def narrow (w v : Nat) (free : W64) : W64 :=
  if 8 ≤ w then BitVec.ofNat 64 v else BitVec.ofNat 64 (v % 2 ^ (8 * w) + free.toNat / 2 ^ (8 * w) * 2 ^ (8 * w))

/-- A context with a memory result in a register. -/
def Ctx.putNarrow (c : Ctx) (d w v : Nat) : Ctx := c.sa d (narrow w v (Config.upper w (BitVec.ofNat 64 v) (c.ga d)))

/-- A memory result written to a context's register. -/
def State.putResult (s : State) (t : Tid) (d w v : Nat) : State := s.modCtx t fun c => c.putNarrow d w v

/-- The error word of an element width (Table 11.10). -/
def errWord (w cause port : Nat) : Nat :=
  match w with
  | 8 => 0x7FF8E00000000000 + port % 16 * 256 + cause % 256
  | 4 => 0x7FC0E000 + cause % 256
  | 2 => 0x7E00
  | _ => 0xFF

/-! ### Ordering (Table 2.8, R122, R132, R273) -/

/-- A remote context is held for a store of the thread, or for its engines. -/
def RUse.storeOf (u : RUse) (t : Tid) : Bool :=
  match u with
  | .store x => x == t
  | .matrix x _ => x == t
  | .digest x _ => x == t
  | _ => false

/-- The remote stores of a thread that are not acknowledged, flagged ones included. -/
def State.storesOut (s : State) (t : Tid) : Bool :=
  s.fab.ctxs.any (fun c => c.use.storeOf t) || s.fab.flags.any fun f => f.t == t

/-- A drain of the engine is queued or in progress. -/
def Matrix.drainOut (m : Matrix) : Bool :=
  m.queue.any (fun w => match w with | .drain _ => true | _ => false) || m.t0.drain.isSome || m.t1.drain.isSome

/-- The engine that a grove thread owns. -/
def State.ownMat (s : State) (t : Tid) : Option Matrix :=
  if t.kind = .grove ∧ (s.mat t.groveOf).owner = some t then some (s.mat t.groveOf) else none

/-- Every earlier load of the thread is performed (Table 2.8, R122): the reads of its queued MMAs and drains. What an acquire fence
waits for; its own loads complete in order. -/
def State.loadsDone (s : State) (t : Tid) : Bool :=
  match s.ownMat t with
  | some m => m.queue.isEmpty
  | none => true

/-- Every earlier access of the thread is performed: what a release and a full fence wait for (Table 2.8, R122). -/
def State.released (s : State) (t : Tid) : Bool :=
  !s.storesOut t && s.loadsDone t && (match s.ownMat t with | some m => !m.drainOut | none => true)

/-- An acquire by a thread drops the view lines of its grove (R45). -/
def State.acquired (s : State) (t : Tid) : State := if t.kind = .grove then s.dropViewLines t.groveOf else s

/-- ORD acts as an acquire, as a release (Table 3.5). -/
def ordAcq (o : Nat) : Bool := o == 1 || o == 3
/-- The release half of ORD. -/
def ordRel (o : Nat) : Bool := o == 2 || o == 3

/-! ### Back-invalidation (R355) -/

/-- The lines whose host holder must be snooped before an access. -/
def State.biLines (s : State) (key n : Nat) (write : Bool) (h : Holder) : List Nat :=
  (linesOf key n).filter fun l => s.biNeeded l write h

/-- The gate of a thread's access: pass; or the snoops are sent and the thread waits. A retry finds them answered. -/
def State.biGate (s : State) (t : Tid) (key n : Nat) (write : Bool) (h : Holder) : Bool × State :=
  let need := s.biLines key n write h
  if need.isEmpty then (true, s)
  else if (s.ctx t).instr.isSome ∧ need.all (fun l => s.mem.bi.contains l) then (true, need.foldl (fun x l => x.biDone l write) s)
  else (false, need.foldl (fun x l => x.biSend l) s)

/-! ### Atomics -/

/-- An atomic's operands after the checks of its form: address, width, operand and expected value. -/
structure AmoArg where
  va : Nat
  w : Nat
  aop : Nat
  b : Nat
  exp : Nat
  d : Nat
  acq : Bool
  deriving DecidableEq, Repr

/-- The packet of a remote atomic (R274, Table 11.5). -/
def State.amoPkt (s : State) (x : AmoArg) (addr : Nat) : OutPkt :=
  { s.reqPkt 4 false addr 0 ((if x.aop = 9 then natLE x.w x.exp else []) ++ natLE x.w x.b) with
      aop := x.aop, aw := if x.w = 4 then 2 else 3, len := if x.aop = 9 then 2 * x.w else x.w }

/-- The state after an atomic's old value has come: D written, the acquire done. -/
def State.amoDone (s : State) (t : Tid) (x : AmoArg) (old : Nat) : State :=
  let s1 := s.putResult t x.d x.w old
  if x.acq then s1.acquired t else s1

/-- A refused remote load or atomic: the error word in D and a precise REMOTE_ERROR (R272). -/
def State.remoteErr (s : State) (t : Tid) (d w cause port : Nat) (va : W64) : TRes :=
  .fault (s.putResult t d w (errWord w cause port)) { code := 0x23, va := va, errVal := true }

/-- An atomic on a remote page (R274, R38). -/
def State.amoRemote (s : State) (t : Tid) (x : AmoArg) (addr : Nat) : TRes :=
  let va := BitVec.ofNat 64 x.va
  let k := s.amoPkt x addr
  if s.isSelf addr ∧ !s.flag fSafe_SAFE then
    match s.turned 4 addr k.len x.aop k.aw k.data with
    | (.ok b, s1) => .done (s1.amoDone t x (leNat b))
    | (.refused c, s1) => (s1.refusalNote c 15 s.pkgId t.handle va).remoteErr t x.d x.w c 15 va
    | (.wait, s1) => .wait s1 .access
  else match s.request (.amo t) t.handle va k with
    | (.sent tag, s1) =>
      .wait (s1.modCtx t fun c => { c with rem := some { parts := [(tag, 0)], data := [], bad := none, va := va, width := x.w,
                                                          dst := some (Fin.ofNat 32 x.d), acquire := x.acq } }) .remote
    | (.refused c, s1) => s1.remoteErr t x.d x.w c 15 va
    | (.wait, s1) => .wait s1 .issued

/-- An access by a thread marks its page once it is performed or sent (Table 2.5). -/
def TRes.marked (va : Nat) (k : AKind) : TRes → TRes
  | .done s => .done (s.markAccess va k)
  | .wait s .remote => .wait (s.markAccess va k) .remote
  | r => r

/-- An atomic after its form's checks (R41, R54, R185, R186). -/
def State.amoBody (s : State) (t : Tid) (x : AmoArg) (rel : Bool) : TRes :=
  let va := BitVec.ofNat 64 x.va
  if x.va % x.w ≠ 0 then .fault s { code := 0x20, va := va }
  else if rel ∧ !s.released t then .wait s .issued
  else match s.xlate (s.whoOf t) x.va .atomic with
    | (.fault c, s1) => .fault s1 { code := c, va := va }
    | (.stall, s1) => .wait s1 .access
    | (.ok (.dram key), s1) =>
      if s1.protectedKey key x.w then .fault s1 { code := 0x13, va := va }
      else if s1.unitProtected key then .wait (s1.noteStall key) .issued
      else if s1.accessStalled key x.w true then .wait s1 .access
      else match s1.biGate t key x.w true .none with
        | (false, s2) => .wait s2 .access
        | (true, s2) =>
          match s2.homeAmo (if nearStack t = some (keyStack key) then .inStack else .none) key x.w x.aop x.b x.exp with
          | (some old, s3) => .done ((s3.amoDone t x old).markAccess x.va .atomic)
          | (none, s3) => .fault s3 { code := 0x24, va := va }
    | (.ok (.host _), s1) => .fault s1 { code := 0x60, va := va }
    | (.ok (.remote a), s1) => (s1.amoRemote t x a).marked x.va .atomic
    | (.ok _, s1) => .fault s1 { code := 0x13, va := va }

/-- An atomic instruction: ORD 0 to 3, widths 4 and 8 (R54, R185). -/
def State.amoInsn (s : State) (t : Tid) (i : Instr) (aop : Nat) (w : MemW) (d a b : Reg) (ord : Fin 8) : State :=
  s.issue t i profWork fun s1 =>
    if 3 < ord.val ∨ w.bytes < 4 then .fault s1 { code := 0x21 }
    else
      let c := s1.ctx t
      let m := 2 ^ (8 * w.bytes)
      s1.amoBody t { va := (c.ga a).toNat, w := w.bytes, aop := aop, b := (c.ga b).toNat % m, exp := (c.ga d).toNat % m, d := d,
                     acq := ordAcq ord } (ordRel ord)

/-- AMO.op: the integer operations and the exchange. -/
def execAmoOp (t : Tid) (op : AmoOp) (w : MemW) (d a b : Reg) (ord : Fin 8) (s : State) : Host.Outcome State Fault Refusal :=
  .next (s.amoInsn t (.amoOp t op w d a b ord) (aopCode op) w d a b ord)
/-- AMO.CAS: D holds the expected value. -/
def execAmoCas (t : Tid) (w : MemW) (d a b : Reg) (ord : Fin 8) (s : State) : Host.Outcome State Fault Refusal :=
  .next (s.amoInsn t (.amoCas t w d a b ord) 9 w d a b ord)
/-- AMO.FADD. -/
def execAmoFadd (t : Tid) (w : MemW) (d a b : Reg) (ord : Fin 8) (s : State) : Host.Outcome State Fault Refusal :=
  .next (s.amoInsn t (.amoFadd t w d a b ord) 10 w d a b ord)
/-- AMO.FMIN. -/
def execAmoFmin (t : Tid) (w : MemW) (d a b : Reg) (ord : Fin 8) (s : State) : Host.Outcome State Fault Refusal :=
  .next (s.amoInsn t (.amoFmin t w d a b ord) 11 w d a b ord)
/-- AMO.FMAX. -/
def execAmoFmax (t : Tid) (w : MemW) (d a b : Reg) (ord : Fin 8) (s : State) : Host.Outcome State Fault Refusal :=
  .next (s.amoInsn t (.amoFmax t w d a b ord) 12 w d a b ord)

/-! ### Fences -/

/-- FENCE.ACQ: the reads of earlier MMAs complete first (R122); view lines are dropped (R45). -/
def execFenceAcq (t : Tid) (s : State) : Host.Outcome State Fault Refusal :=
  .next (s.issue t (.fenceAcq t) profAll fun s1 => if s1.loadsDone t then .done (s1.acquired t) else .wait s1 .cond)

/-- FENCE.REL. -/
def execFenceRel (t : Tid) (s : State) : Host.Outcome State Fault Refusal :=
  .next (s.issue t (.fenceRel t) profAll fun s1 => if s1.released t then .done s1 else .wait s1 .cond)

/-- FENCE.FULL: it completes after every translation cache has dropped what TLBINV named (R32). -/
def execFenceFull (t : Tid) (s : State) : Host.Outcome State Fault Refusal :=
  .next (s.issue t (.fenceFull t) profAll fun s1 =>
    if s1.released t then .done { s1.acquired t with thr := { (s1.acquired t).thr with inv := [] } } else .wait s1 .cond)

/-! ### Line-watches (R56) -/

/-- The identity of the line that an address names; lines outside the coherence domain are written by nobody the home sees
(assumption log 14). -/
def Target.lineId (va : Nat) : Target → Nat
  | .dram key => localLine key
  | .host hpa => hostLine hpa
  | .remote a => 2 ^ 80 + a / 64
  | .regs o => 2 ^ 81 + o / 64
  | .tables o => 2 ^ 82 + o / 64
  | .view _ _ => 2 ^ 83 + va / 64

/-- LWATCH. -/
def execLwatch (t : Tid) (a : Reg) (s : State) : Host.Outcome State Fault Refusal :=
  .next (s.issue t (.lwatch t a) profWork fun s1 =>
    let va := (s1.ctx t).ga a
    match s1.xlate (s1.whoOf t) va.toNat .load with
    | (.fault c, s2) => .fault s2 { code := c, va := va }
    | (.stall, s2) => .wait s2 .access
    | (.ok g, s2) =>
      let c := s2.ctx t
      if c.lines.any fun e => e.1 == g.lineId va.toNat then .done s2
      else if 4 ≤ c.lines.length then .fault s2 { code := 0x21 }
      else .done (s2.setCtx t { c with lines := c.lines ++ [(g.lineId va.toNat, false)] }))

/-- LWAIT: a line already written ends it at once; otherwise the thread waits for a write or the timeout. -/
def execLwait (t : Tid) (d a : Reg) (s : State) : Host.Outcome State Fault Refusal :=
  .next (s.issue t (.lwait t d a) profAll fun s1 =>
    let c := s1.ctx t
    match c.written with
    | some i => .done (s1.setCtx t { c.sa d (BitVec.ofNat 64 i) with lines := [] })
    | none => .wait s1 .line)

/-- The timeout of an LWAIT expires: D takes 0xFF. A timeout of 0 never does. -/
def execLwaitTimeout (t : Tid) (s : State) : Host.Outcome State Fault Refusal :=
  let c := s.ctx t
  .next (if c.st = .wait ∧ c.await = .line then
    match c.instr with
    | some (.lwait _ _ a) => if c.ga a = 0 then s else s.setCtx t (c.endWait 0xFF)
    | _ => s
  else s)

/-! ### State registers (R62, Table 3.8) -/

/-- The value of a state register; `none`: no such register. -/
def State.stateReg (s : State) (t : Tid) (n : Nat) : Option W64 :=
  let c := s.ctx t
  match n with
  | 0x00 => some (BitVec.ofNat 64 t.handle)
  | 0x01 => some (BitVec.ofNat 64 c.job)
  | 0x02 => some (BitVec.ofNat 64 s.pkgId)
  | 0x03 => some c.faultInfo
  | 0x04 => some c.faultPc
  | 0x05 => some c.faultVa
  | 0x06 => some (c.fflags.setWidth 64)
  | 0x07 => some (c.frm.setWidth 64)
  | 0x08 => some (c.gsIdx.setWidth 64)
  | 0x09 => some c.seed
  | 0x0A => some (c.epoch.setWidth 64)
  | 0x0B => some (Config.cycle s.fresh)
  | 0x0C => some c.hvec
  | _ => none

/-- A context with a state register written: read-only fields ignore the write (R9). -/
def Ctx.putState (c : Ctx) (n : Nat) (v : W64) : Ctx :=
  match n with
  | 0x03 => { c with faultInfo := v &&& 0x3FFFF }
  | 0x04 => { c with faultPc := v }
  | 0x05 => { c with faultVa := v }
  | 0x06 => { c with fflags := v.setWidth 5 }
  | 0x07 => { c with frm := if v.setWidth 3 = 7 then 0 else v.setWidth 3 }
  | 0x08 => { c with gsIdx := v.setWidth 16 }
  | 0x09 => { c with seed := v }
  | 0x0C => { c with hvec := v &&& ~~~3 }
  | _ => c

/-- HVEC is there on control threads at supervisor level only. -/
def State.stateRegOk (s : State) (t : Tid) (n : Nat) : Bool :=
  if n = 0x0C then t.kind == .control && (s.ctx t).sup else decide (n < 0x0C)

/-- SRD. -/
def execSrd (t : Tid) (d : Reg) (n : BitVec 16) (s : State) : Host.Outcome State Fault Refusal :=
  .next (s.issue t (.srd t d n) profAll fun s1 =>
    if s1.stateRegOk t n.toNat then
      match s1.stateReg t n.toNat with
      | some v => .done ((if n = 0x0B then s1.draw.2 else s1).modCtx t fun c => c.sa d v)
      | none => .fault s1 { code := 0x21 }
    else .fault s1 { code := 0x21 })

/-- SWR. -/
def execSwr (t : Tid) (a : Reg) (n : BitVec 16) (s : State) : Host.Outcome State Fault Refusal :=
  .next (s.issue t (.swr t a n) profAll fun s1 =>
    if s1.stateRegOk t n.toNat then .done (s1.modCtx t fun c => c.putState n.toNat (c.ga a)) else .fault s1 { code := 0x21 })

/-- RNG.U: an unseeded random value; ND_OP under STRICT (R314). -/
def execRngU (t : Tid) (d : Reg) (s : State) : Host.Outcome State Fault Refusal :=
  .next (s.issue t (.rngU t d) profAll fun s1 =>
    if s1.flag fMode_A_STRICT then .fault s1 { code := 0x5C }
    else .done (s1.draw.2.modCtx t fun c => c.sa d (Config.random s1.fresh)))

end Sys2Proof.Machine
end

