-- ==== Sys2Proof/Machine/Gather.lean ====
section
/-! DEFINITION. Element-ordered accesses (R64 to R67): gathers, scatters, vector structure accesses and tile accesses share one
loop over their elements. -/

namespace Sys2Proof.Machine

/-- One element or record of an element-ordered access: its number and its address. -/
structure GElem where
  num : Nat
  va : Nat
  deriving DecidableEq, Repr

/-- The access has completed: GS_IDX returns to 0 (R64). -/
def State.gsDone (s : State) (t : Tid) : State := s.modCtx t fun c => { c with gsIdx := 0 }

/-- The thread waits at an element. -/
def State.gsWait (s : State) (t : Tid) (g : GElem) : TRes :=
  .wait (s.modCtx t fun c => { c with gsIdx := BitVec.ofNat 16 g.num }) (s.awaitAt g.va)

/-- The address of the first piece of an element that cannot be accessed, the element's own where there is none (R64): `f` tries a
piece, an address and a length. -/
def firstBad (f : State → Nat × Nat → MRes × State) (dflt : Nat) : State → List (Nat × Nat) → Nat
  | _, [] => dflt
  | s, p :: rest =>
    match f s p with
    | (.ok _, s1) => firstBad f dflt s1 rest
    | _ => p.1

/-- Elements loaded in order from GS_IDX on (R64, R65): `rd` reads an address, `bad` finds the faulting address of an element,
`put` takes an element's bytes; `w` is the width of one error word and `parts` how many a failed element takes. -/
def State.gatherGo (s : State) (t : Tid) (w parts : Nat) (rd : State → Nat → MRes × State) (bad : State → Nat → Nat)
    (put : State → GElem → List Byte → State) : List GElem → TRes
  | [] => .done (s.gsDone t)
  | g :: rest =>
    if g.num < (s.ctx t).gsIdx.toNat then s.gatherGo t w parts rd bad put rest
    else
      let err := fun (s1 : State) (cause port : Nat) =>
        put s1 g ((List.range parts).flatMap fun _ => natLE w (errWord w cause port))
      let va := BitVec.ofNat 64 (bad s g.va)
      match rd s g.va with
      | (.ok b, s1) => ((put s1 g b).dropGot (.read t)).gatherGo t w parts rd bad put rest
      | (.stall, s1) => s1.gsWait t g
      | (.uncorr, s1) => .fault s1 { code := 0x24, va := va, gs := some g.num }
      | (.refused c, s1) =>
        .fault (err s1 c (s1.refusedPort (.read t))) { code := 0x23, va := va, gs := some g.num, errVal := true }
      | (.fault c, s1) =>
        if c = 0x61 then .fault (err s1 2 15) { code := c, va := va, gs := some g.num, errVal := true }
        else .fault s1 { code := c, va := va, gs := some g.num }

/-- Elements stored in order from GS_IDX on (R64, R66): `wr` stores element `g`, `bad` finds its faulting address. -/
def State.scatterGo (s : State) (t : Tid) (wr : State → GElem → MRes × State) (bad : State → Nat → Nat) : List GElem → TRes
  | [] => .done (s.gsDone t)
  | g :: rest =>
    if g.num < (s.ctx t).gsIdx.toNat then s.scatterGo t wr bad rest
    else
      let va := BitVec.ofNat 64 (bad s g.va)
      match wr s g with
      | (.ok _, s1) => s1.scatterGo t wr bad rest
      | (.stall, s1) => s1.gsWait t g
      | (.uncorr, s1) => .fault s1 { code := 0x24, va := va, gs := some g.num }
      | (.refused _, s1) => .fault s1 { code := 0x23, va := va, gs := some g.num }
      | (.fault c, s1) => .fault s1 { code := c, va := va, gs := some g.num }

/-- The remote refusal of a store at its source is told at the next instruction boundary (R273): the store counts as issued. -/
def MRes.lateStore (t : Tid) (va : Nat) : MRes × State → MRes × State
  | (.refused _, s) => (.ok [], s.modCtx t fun c => { c with late := some (BitVec.ofNat 64 va) })
  | r => r

end Sys2Proof.Machine
end

