-- ==== Sys2Proof/Machine/Canopy.lean ====
section
/-! DEFINITION. Canopy: the launch manifest, chunks, failed relays, the end of a broadcast (R306 to R310). The spec lays out no
Canopy packet; their commands and fields here are the model's (assumption log 20). -/

namespace Sys2Proof.Machine

/-! ### The manifest (R306, R307) -/

/-- The header's own conditions (Table 12.9, R307). -/
def manifestHeadBad (h : List Byte) : Bool :=
  let len := fieldLE h 8 8
  fieldLE h 0 2 != 1 || fieldLE h 2 2 == 0 || len == 0 || len % 64 != 0 || decide (2 ^ 34 < len) ||
    fieldLE h 4 4 != (len + 0xFFFFF) / 0x100000 || (sliceB h 0x16 42).any (· != 0)

/-- Bytes of the manifest that a header announces. -/
def manifestBytes (h : List Byte) : Nat := (64 + 8 * fieldLE h 2 2 + 63) / 64 * 64 + 32 * fieldLE h 4 4

/-- A manifest's bytes as its fields. -/
def manifestOf (b : List Byte) : Manifest :=
  let n := fieldLE b 2 2
  let tab := (64 + 8 * n + 63) / 64 * 64
  { len := fieldLE b 8 8, cwin := fieldLE b 0x10 2, root := fieldLE b 0x12 2, job := fieldLE b 0x14 2,
    members := (List.range n).map fun i => (fieldLE b (64 + 8 * i) 2, fieldLE b (66 + 8 * i) 2, fieldLE b (68 + 8 * i) 2),
    digests := (List.range (fieldLE b 4 4)).map fun j => sliceB b (tab + 32 * j) 32,
    mkey := BitVec.ofNat 64 (leNat ((sha3_256 b).take 8)) }

/-- The entry of a package. -/
def Manifest.entry (m : Manifest) (pkg : Nat) : Option (Nat × Nat × Nat) := m.members.find? fun e => e.1 == pkg

/-- Members whose PARENT is a package. -/
def Manifest.childrenOf (m : Manifest) (pkg : Nat) : List Nat := (m.members.filter fun e => e.2.1 == pkg).map (·.1)

/-- A package reaches the root by PARENT links within `fuel` of them. -/
def Manifest.reaches (m : Manifest) : Nat → Nat → Bool
  | 0, _ => false
  | fuel + 1, pkg => pkg == m.root || (match m.entry pkg with | some e => m.reaches fuel e.2.1 | none => false)

/-- Reserved bytes of the member entries that are not zero. -/
def memberReserved (b : List Byte) : Bool := (List.range (fieldLE b 2 2)).any fun i => fieldLE b (70 + 8 * i) 2 != 0

/-- BAD_MANIFEST in the members (R307). -/
def Manifest.bad (m : Manifest) (own : Nat) : Bool :=
  let ids := m.members.map (·.1)
  (ids.filter (· == own)).length != 1 || !decide ids.Nodup ||
    (match m.entry m.root with | some e => e.2.1 != 0xFFFF | none => true) ||
    ids.any (fun p => !m.reaches (ids.length + 1) p) || ids.any fun p => decide (15 < (m.childrenOf p).length)

/-- BAD_WINDOW. -/
def State.manifestWindowBad (s : State) (m : Manifest) : Bool :=
  let w := s.window m.cwin
  decide (16384 ≤ m.cwin) || !w.valid || w.job != m.job || !w.wr || decide (w.len < m.len)

/-- Canopy states (Table 12.10). -/
def canIdle : Nat := 0
/-- RECEIVING. -/
def canRecv : Nat := 1
/-- HELD_ALL. -/
def canHeld : Nat := 2
/-- COMPLETE. -/
def canComplete : Nat := 3
/-- ABANDONED. -/
def canAbandoned : Nat := 4
/-- REFUSED. -/
def canRefused : Nat := 5

/-- STATE. -/
def State.canState (s : State) : Nat := s.fld fCan_STATE

/-- A broadcast is in progress. -/
def State.canBusy (s : State) : Bool := s.canState == canRecv || s.canState == canHeld

/-- The launcher holds grove and near launches (R310): a broadcast has begun and is not COMPLETE. -/
def State.canHolds (s : State) : Bool := s.canBusy || s.canState == canAbandoned

/-- The outcome of reading and checking a manifest. -/
inductive CanCheck where
  | ok (m : Manifest)
  | refused (code : Nat)
  | wait
  deriving DecidableEq, Repr

/-- The check of R307, in its order. A manifest that cannot be read is refused as BAD_MANIFEST. -/
def State.canCheck (s : State) : CanCheck × State :=
  let va := s.fld fCan_MAN_ADDR * 64
  match s.vread unitAgt va 64 with
  | (.stall, s1) => (.wait, s1)
  | (.ok h, s1) =>
    if manifestHeadBad h then (.refused 1, s1)
    else match s1.vread unitAgt va (manifestBytes h) with
      | (.stall, s2) => (.wait, s2)
      | (.ok b, s2) =>
        let m := manifestOf b
        if memberReserved b ∨ m.bad s2.pkgId then (.refused 1, s2)
        else if s2.manifestWindowBad m then (.refused 2, s2)
        else if s2.canBusy then (.refused 3, s2)
        else (.ok m, s2)
      | (_, s2) => (.refused 1, s2)
  | (_, s1) => (.refused 1, s1)

/-! ### Packets and messages -/

/-- The Canopy state changed; CHUNKS_HELD, FAILED and DONE_COUNT follow (Table 12.12). -/
def State.modCan (s : State) (f : CanSt → CanSt) : State :=
  let s1 := { s with can := f s.can }
  ((s1.setFld fCan_CHUNKS_HELD s1.can.held.length).setFld fCan_FAILED s1.can.failed.length).setFld fCan_DONE_COUNT
    s1.can.done.length

/-- A Canopy packet on VC2: kind 8 chunk, 9 keep-alive, 10 failure report, 11 re-parenting, 12 DONE, 13 GO, 14 JOIN, 15 request. -/
def canPkt (kind dst job : Nat) (mkey : W64) (arg tag : Nat) (data : List Byte) : OutPkt :=
  { src := none, cmd := 0x20 + kind, flag := false, len := data.length, dst := dst, job := job, addr := mkey.toNat, tag := tag, cause := arg,
    aop := 0, aw := 0, data := data }

/-- A message of the broadcast sent to a package. -/
def State.canSend (s : State) (kind dst arg tag : Nat) (data : List Byte) : State :=
  match s.can.man with
  | some m => s.send (canPkt kind dst m.job m.mkey arg tag data)
  | none => s

/-! ### The image in the window (R308) -/

/-- The bytes of chunk `j`. -/
def Manifest.chunkLen (m : Manifest) (j : Nat) : Nat := min 0x100000 (m.len - j * 0x100000)

/-- The byte key of an offset of the window. -/
def State.canKey (s : State) (m : Manifest) (off : Nat) : Option Nat :=
  match s.place ((s.window m.cwin).base + off) with
  | .dram k => some k
  | _ => none

/-- Pieces of up to 256 bytes of the image read from the window; none on an uncorrectable line. -/
def State.canRead (s : State) (m : Manifest) : Nat → Nat → Option (List Byte) × State
  | 0, _ => (some [], s)
  | n + 1, off =>
    match s.canKey m off with
    | none => (none, s)
    | some k =>
      match s.homeRead .none k (min 256 (m.len - off)) with
      | (some b, s1) =>
        match s1.canRead m n (off + 256) with
        | (some r, s2) => (some (b ++ r), s2)
        | x => x
      | (none, s1) => (none, s1)

/-- A whole chunk. -/
def State.canChunk (s : State) (m : Manifest) (j : Nat) : Option (List Byte) × State :=
  s.canRead m ((m.chunkLen j + 255) / 256) (j * 0x100000)

/-- A chunk sent to a package as packets in ascending order (R308); not in safe stop (R310). -/
def State.canSendChunk (s : State) (dst j : Nat) : State :=
  match s.can.man with
  | none => s
  | some m =>
    if s.flag fSafe_SAFE then s
    else match s.canChunk m j with
      | (some b, s1) =>
        (List.range ((b.length + 255) / 256)).foldl
          (fun t i => t.canSend 8 dst j (256 * i) ((b.drop (256 * i)).take 256)) s1
      | (none, s1) => s1

/-- The chunks held from one on, sent to a package. -/
def State.canSendFrom (s : State) (dst first : Nat) : State :=
  match s.can.man with
  | none => s
  | some m => ((List.range m.digests.length).filter fun j => decide (first ≤ j) && s.can.held.contains j).foldl
      (fun t j => t.canSendChunk dst j) s

/-! ### The end of a broadcast (R310) -/

/-- GO at this member: forwarded to the current children; STATE is COMPLETE. -/
def State.canGo (s : State) : State :=
  (s.can.kids.foldl (fun t k => t.canSend 13 k 0 0 []) s).setFld fCan_STATE canComplete

/-- DONE of a member at the root: counted unless it is marked FAILED; GO when every member has reported. -/
def State.canDoneAt (s : State) (member : Nat) : State :=
  match s.can.man with
  | none => s
  | some m =>
    if (m.entry member).isNone ∨ s.can.failed.contains member ∨ s.can.done.contains member then s
    else
      let s1 := s.modCan fun c => { c with done := c.done ++ [member] }
      if s1.can.done.length = m.members.length then s1.canGo else s1

/-- This package holds every chunk: HELD_ALL, and DONE to the root. -/
def State.canAllHeld (s : State) (m : Manifest) : State :=
  let s1 := s.setFld fCan_STATE canHeld
  if m.root = s1.pkgId then s1.canDoneAt s1.pkgId else s1.canSend 12 m.root 0 0 []

/-! ### START, JOIN, CANCEL (R307, Table 12.10) -/

/-- An accepted START or JOIN: the registers of a new broadcast; the root sends the image it holds; JOIN tells the root. -/
def State.canAccept (s : State) (join : Bool) (m : Manifest) : State :=
  let own := s.pkgId
  let root := m.root == own
  -- a package that joins again has the children that the root has given it since: none yet (R310)
  let kids := if join && !root then [] else m.childrenOf own
  let s1 := ((((s.setFld fCan_STATE canRecv).setFld fCan_CODE 0).setFlag fCan_ROOT root).setFld fCan_PARENT
    (match m.entry own with | some e => e.2.1 | none => 0xFFFF)).setFld fCan_REPARENTS 0
  let s2 := s1.modCan fun _ =>
    { CanSt.empty with man := some m, kids := kids, parents := if root then m.members.map fun e => (e.1, e.2.1) else [],
                       held := if root then List.range m.digests.length else [] }
  if root then (kids.foldl (fun t k => t.canSendFrom k 0) s2).canAllHeld m
  else if join then s2.canSend 14 m.root 0 0 [] else s2

/-- A START (1) or JOIN (2): from IDLE it is accepted or refused; while a broadcast is in progress it is refused as BUSY at the
latest; in COMPLETE, ABANDONED and REFUSED nothing but CANCEL has an effect (Table 12.10). -/
def State.canCommand (s : State) (cmd : Nat) : State :=
  if s.canState ≠ canIdle ∧ !s.canBusy then s
  else match s.canCheck with
    | (.ok m, s1) => s1.canAccept (cmd == 2) m
    | (.refused c, s1) => ((s1.setFld fCan_STATE canRefused).setFld fCan_CODE c).modCan fun x => { x with cmd := none }
    | (.wait, s1) => s1.modCan fun x => { x with cmd := some cmd }

/-- CMD written (Table 12.12). -/
def State.canCmdWrite (s : State) (v : Nat) : State :=
  match v with
  | 1 => s.canCommand 1
  | 2 => s.canCommand 2
  | 3 => (s.setFld fCan_STATE canIdle).modCan fun _ => CanSt.empty
  | _ => s

/-- A START or JOIN whose check waited on a stalled read is tried again. -/
def State.retryCan (s : State) : State :=
  match s.can.cmd with
  | some c => (s.modCan fun x => { x with cmd := none }).canCommand c
  | none => s

/-! ### Failed relays (R309) -/

/-- The current parent of a member, as the root has it. -/
def State.canParentOf (s : State) (pkg : Nat) : Nat := (tabFind s.can.parents pkg).getD 0xFFFF

/-- The root gives a member a new parent: recorded, counted, and told to the new parent and to the member. -/
def State.canReparent (s : State) (member parent : Nat) (count : Bool) : State :=
  let s1 := s.modCan fun c => { c with parents := c.parents.map fun e => if e.1 = member then (member, parent) else e,
                                       kids := if parent = s.pkgId then c.kids.filter (· != member) ++ [member] else
                                         c.kids.filter (· != member) }
  let s2 := if count then s1.setFld fCan_REPARENTS (s1.fld fCan_REPARENTS + 1) else s1
  let s3 := s2.canSend 11 member parent member []
  if parent = s3.pkgId then s3 else s3.canSend 11 parent parent member []

/-- A relay is reported to the root: marked FAILED on the first report, its members re-parented to their ALT, or to the root. -/
def State.canFailedRelay (s : State) (relay : Nat) : State :=
  match s.can.man with
  | none => s
  | some m =>
    if m.root ≠ s.pkgId ∨ !s.canBusy ∨ (m.entry relay).isNone ∨ relay = m.root ∨ s.can.failed.contains relay then s
    else
      let s1 := s.modCan fun c => { c with failed := c.failed ++ [relay], done := c.done.filter (· != relay) }
      (m.members.filter fun e => s1.canParentOf e.1 == relay).foldl
        (fun t e => t.canReparent e.1 (if e.2.2 = 0xFFFF ∨ t.can.failed.contains e.2.2 then m.root else e.2.2) true) s1

/-- This member reports its parent to the root. -/
def State.canReport (s : State) : State :=
  match s.can.man with
  | some m => if m.root = s.pkgId then s else s.canSend 10 m.root (s.fld fCan_PARENT) 0 []
  | none => s

/-! ### Chunks received (R308) -/

/-- A chunk of the window made undefined: it is not held. -/
def State.canSpoil (s : State) (m : Manifest) (j : Nat) : State :=
  let n := m.chunkLen j
  let k := s.fresh
  (List.range ((n + 255) / 256)).foldl (fun t i =>
    match t.canKey m (j * 0x100000 + 256 * i) with
    | some key => t.homeWrite .none key ((List.range (min 256 (n - 256 * i))).map fun b => Config.freeByte (k + 256 * i + b))
    | none => t) { s with fresh := k + n }

/-- The end of a chunk: its digest decides whether it is held; the third failure of one chunk counts as the parent's. -/
def State.canChunkEnd (s : State) (m : Manifest) (j : Nat) : State :=
  let (b, s1) := s.canChunk m j
  if (match b with | some b => sha3_256 b == m.digests.getD j [] | none => false) then
    let s2 := s1.modCan fun c => { c with held := c.held.filter (· != j) ++ [j] }
    if s2.can.held.length = m.digests.length ∧ s2.canState = canRecv then s2.canAllHeld m else s2
  else
    let n := tabGet cntZero s1.can.fails j + 1
    let s2 := ((s1.canSpoil m j).modCan fun c =>
      { c with held := c.held.filter (· != j), fails := tabSet cntZero c.fails j (if 3 ≤ n then 0 else n) }).addSat fCan_DIGEST_FAIL 1
    if 3 ≤ n then s2.canReport else s2.canSend 15 (s2.fld fCan_PARENT) j 0 []

/-- A chunk packet of this broadcast: written to the window, forwarded to the current children, and at the end of its chunk the
digest is checked. -/
def State.canPacket (s : State) (m : Manifest) (j off : Nat) (data : List Byte) : State :=
  let at_ := j * 0x100000 + off
  if m.digests.length ≤ j ∨ m.chunkLen j < off + data.length ∨ data.isEmpty ∨ at_ % 256 ≠ 0 ∨ 256 < data.length then s
  else
    let s1 := match s.canKey m at_ with
      | some k => s.homeWrite .none k data
      | none => s
    let s2 := if s1.flag fSafe_SAFE then s1 else s1.can.kids.foldl (fun t k => t.canSend 8 k j off data) s1
    if off + data.length = m.chunkLen j then s2.canChunkEnd m j else s2

end Sys2Proof.Machine
end

