-- ==== Sys2Proof/Machine/Launch.lean ====
section
/-! DEFINITION. Launches and the control of threads (R21 to R28, R32, R51, R55, R59 to R63). -/

namespace Sys2Proof.Machine

/-! ### Gated units (R379) -/

/-- Work for a gated unit starts its wake. -/
def State.wakeUnit (s : State) (page : Nat) : State :=
  if s.flag (fGated page) ∧ !s.pwr.waking.contains page then { s with pwr := { s.pwr with waking := s.pwr.waking ++ [page] } }
  else s

/-- The page of the unit that a grove or near thread runs on. -/
def Tid.unitPage (t : Tid) : Option Nat :=
  match t.kind with
  | .grove => some (0x100 + t.groveOf)
  | .near => some (0x0C4 + 8 * (t.num / 256))
  | .control => none

/-! ### The descriptor (Tables 2.2, 2.3) -/

/-- The hardware thread number of thread `i` under the ordered and pinned policies (R24). -/
def Launch.target (l : Launch) (i : Nat) : Nat := l.first + i * l.stride

/-- A launch as its descriptor bytes 0x00 to 0x2F say. -/
def launchOf (d : List Byte) (kind : TKind) (issuer : Tid) (sup ring : Bool) (job id : Nat) (va : Option W64) (key : Nat) : Launch :=
  { id := id, issuer := issuer, sup := sup, job := job, entry := BitVec.ofNat 64 (fieldLE d 0 8),
    arg := BitVec.ofNat 64 (fieldLE d 8 8), count := fieldLE d 0x10 4, kind := kind, policy := fieldLE d 0x15 1 % 4,
    first := fieldLE d 0x16 2, stride := fieldLE d 0x18 2, scratch := fieldLE d 0x1A 1 % 16, cntEn := bitAt (fieldLE d 0x1B 1) 0,
    gang := bitAt (fieldLE d 0x1B 1) 1, cntIdx := fieldLE d 0x1C 2 % 4096, group := fieldLE d 0x1E 2 % 4096,
    stackBase := BitVec.ofNat 64 (fieldLE d 0x20 8), stackSize := fieldLE d 0x28 4, statusVa := va, statusKey := key,
    toPlace := [], left := fieldLE d 0x10 4, faults := 0, ring := ring }

/-- BAD_FORMAT (Table 2.3), KIND apart. -/
def launchBadFormat (d : List Byte) : Bool :=
  let pol := fieldLE d 0x15 1 % 4
  decide (4 ≤ fieldLE d 0x15 1) || decide (16 ≤ fieldLE d 0x1A 1) || decide (4 ≤ fieldLE d 0x1B 1) ||
    decide (4096 ≤ fieldLE d 0x1C 2) || decide (4096 ≤ fieldLE d 0x1E 2) || fieldLE d 0x2C 4 != 0 || pol == 3 ||
    (pol != 0 && fieldLE d 0x18 2 == 0) || decide (8 < fieldLE d 0x1A 1 % 16) || fieldLE d 0x28 4 % 65536 != 0

/-- The group exists and is a group of the job (R22, Table 2.3). -/
def State.groupOk (s : State) (g : Nat) : Bool := (s.grp g).valid && (s.grp g).job == s.jobId

/-- Control thread 95 is reserved while the host ring is enabled (R361). -/
def State.ringReserved (s : State) : Bool := s.flag fRing_EN

/-- The check of a descriptor waits for a table's stack (R161): no code of Table 2.3. -/
def noVerdict : Nat := 0x100

/-- The refusal code of a descriptor, 0 when it is accepted: the causes in the order of Table 2.3; `noVerdict` while a walk of the
check waits. TRANSLATION leaves open as what ENTRY and STACK_BASE are checked: the model checks ENTRY as a fetch and the byte at
STACK_BASE as a store, at job level (DESIGN CHOICE, assumption log 109). -/
def State.launchCheck (s : State) (d : List Byte) (l : Launch) : Nat × State :=
  let last := l.first + (l.count - 1) * l.stride
  if launchBadFormat d then (0x01, s)
  else if l.count = 0 ∨ l.kind.count < l.count then (0x02, s)
  else if l.policy ≠ 0 ∧ (l.kind.count ≤ last ∨
      (l.kind = .control ∧ s.ringReserved ∧ l.first ≤ 95 ∧ 95 ≤ last ∧ (95 - l.first) % l.stride = 0)) then (0x03, s)
  else if l.policy = 0 ∧ s.flag fMode_A_PROFILE then (0x04, s)
  else if !s.groupOk l.group then (0x05, s)
  else if l.cntEn ∧ !s.fab.cnts.contains l.cntIdx then (0x06, s)
  else
    match s.xlate .jobLevel l.entry.toNat .fetch with
    | (.ok _, s1) =>
      match s1.xlate .jobLevel l.stackBase.toNat .store with
      | (.ok _, s2) => (if l.scratch ≠ 0 ∧ l.kind ≠ .grove then 0x08 else 0, s2)
      | (.stall, s2) => (noVerdict, s2)
      | (_, s2) => (0x07, s2)
    | (.stall, s1) => (noVerdict, s1)
    | (_, s1) => (0x07, s1)

/-- The verdict on a descriptor: 0 accepted, or the refusal code (Table 2.3), or `noVerdict`, and the launch. -/
def State.launchVerdict (s : State) (d : List Byte) (issuer : Tid) (sup ring : Bool) (va : Option W64) (key : Nat) :
    Nat × Launch × State :=
  match TKind.ofCode (fieldLE d 0x14 1) with
  | none => (0x01, launchOf d .grove issuer sup ring s.jobId s.thr.nextLaunch va key, s)
  | some k =>
    let l := launchOf d k issuer sup ring s.jobId s.thr.nextLaunch va key
    let (c, s1) := s.launchCheck d l
    (c, l, s1)

/-- STATUS of a verdict (R23). -/
def verdictWord (code : Nat) : Nat := if code = 0 then 1 else 2 + code * 256

/-- The pages of the units that a launch's fixed targets run on. -/
def Launch.unitPages (l : Launch) : List Nat :=
  if l.policy = 0 then [] else (l.toPlace.filterMap fun i => Tid.unitPage ⟨l.kind, l.target i⟩).eraseDups

/-- An accepted launch joins the launches; work for gated units starts their wakes. -/
def State.addLaunch (s : State) (l : Launch) : State :=
  let l' := { l with toPlace := List.range l.count }
  l'.unitPages.foldl (fun x p => x.wakeUnit p)
    { s with thr := { s.thr with launches := s.thr.launches ++ [l'], nextLaunch := s.thr.nextLaunch + 1 } }

/-- LAUNCH by a thread (R22, R23). -/
def execLaunch (t : Tid) (a : Reg) (s : State) : Host.Outcome State Fault Refusal :=
  .next (s.issue t (.launch t a) profWork fun s1 =>
    let va := (s1.ctx t).ga a
    if va.toNat % 64 ≠ 0 then .fault s1 { code := 0x20, va := va }
    else match s1.vprobe (s1.whoOf t) .load va.toNat 0x38 with
      | (.ok _, s2) =>
        match s2.vprobe (s2.whoOf t) .store va.toNat 0x38 with
        | (.ok _, s3) =>
          match s3.vread (s3.agtOf t) va.toNat 0x30 with
          | (.ok d, s4) =>
            let (code, l, s5) := s4.launchVerdict d t (s4.ctx t).sup false (some (va + 0x30)) 0
            if code = noVerdict then .wait s5 .access
            else match s5.vwrite (s5.agtOf t) (va.toNat + 0x30) (natLE 8 (verdictWord code)) with
            | (.ok _, s6) => .done (if code = 0 then s6.addLaunch l else s6)
            | (.stall, s6) => .wait s6 .access
            | (.fault c, s6) => .fault s6 { code := c, va := va }
            | (_, s6) => .fault s6 { code := 0x24, va := va }
          | (.fault c, s4) => .fault s4 { code := c, va := va }
          | (.stall, s4) => .wait s4 .access
          | (.uncorr, s4) => .fault s4 { code := 0x24, va := va }
          | (.refused _, s4) => .fault s4 { code := 0x23, va := va }
        | (.fault c, s3) => .fault s3 { code := c, va := va }
        | (.stall, s3) => .wait s3 .access
        | (_, s3) => .fault s3 { code := 0x24, va := va }
      | (.fault c, s2) => .fault s2 { code := c, va := va }
      | (.stall, s2) => .wait s2 .access
      | (_, s2) => .fault s2 { code := 0x24, va := va })

/-! ### Placement (R24 to R27) -/

/-- Grove threads resident on a grove. -/
def State.groveBusy (s : State) (g : Nat) : Bool :=
  s.thr.ctxs.any fun e => decide (e.1 / 256 = g) && e.2.st != .idle

/-- An earlier launch of the same issuer and kind still waits for the context (R26). A free-policy launch with threads to place waits
for every context of its kind (DESIGN CHOICE, assumption log 110: R26 does not say for which). -/
def State.waitedFor (s : State) (l : Launch) (num : Nat) : Bool :=
  s.thr.launches.any fun e =>
    decide (e.id < l.id) && decide (e.kind = l.kind) &&
      ((decide (e.issuer = l.issuer) && e.ring == l.ring && (if e.policy = 0 then !e.toPlace.isEmpty
        else e.toPlace.any fun i => e.target i == num)) ||
       (l.policy == 0 && e.policy == 2 && e.toPlace.any fun i => e.target i == num))

/-- A context may take a thread of the launch (R24, R26, R27, R310, R361, Table 20.2); during a restore, and after one that failed, no
thread starts (R346, R348). A pinned thread that TSAVE has saved keeps its context out of free placement no longer: TSAVE frees the
context (R68), though the thread has not ended (DESIGN CHOICE, assumption log 111: R24 against R68). -/
def State.placeable (s : State) (l : Launch) (num : Nat) : Bool :=
  decide (num < l.kind.count) && (s.ctx ⟨l.kind, num⟩).st == .idle && !s.waitedFor l num &&
    !(l.kind == .control && num == 95 && s.ringReserved) && !(l.kind != .control && s.canHolds) && !s.snp.blocked &&
      s.snp.rest.isNone &&
    (l.kind != .grove ||
      ((!s.groveBusy (num / 256) || (s.grove (num / 256)).split == l.scratch) && s.fld (fGrove_STATE (num / 256)) == 0))

/-- The grove of a thread that is placed takes the launch's split when it is empty (R27): its L1, view lines with it, is
invalidated, and scratch is lost when the split changes. -/
def State.takeSplit (s : State) (l : Launch) (num : Nat) : State :=
  if l.kind = .grove ∧ !s.groveBusy (num / 256) then
    let g := s.grove (num / 256)
    s.setGrove (num / 256) { split := l.scratch, scratch := if g.split = l.scratch then g.scratch else [], viewLines := [] }
  else s

/-- The context of thread `i` as it starts (R26, R62). -/
def Launch.context (l : Launch) (i : Nat) (epoch : Nat) : Ctx :=
  let c := ((Ctx.idle.sa 0 l.arg).sa 1 (BitVec.ofNat 64 i)).sa 31 (l.stackBase + BitVec.ofNat 64 ((i + 1) * l.stackSize))
  { c with st := .ready, sup := l.sup && l.kind == .control, pc := l.entry, job := l.job, epoch := BitVec.ofNat 32 epoch,
           launch := some l.id, pinned := l.policy == 2, group := l.group }

/-- Thread `i` starts on a context. -/
def State.startThread (s : State) (l : Launch) (i num : Nat) : State :=
  ((s.takeSplit l num).setCtx ⟨l.kind, num⟩ (l.context i (s.fld fMode_A_EPOCH))).modLaunch l.id fun x =>
    { x with toPlace := x.toPlace.filter fun j => j != i }

/-- Contexts for the threads of a gang, one after another: fixed ones, or under the free policy a free choice among those that
may take one. -/
def State.gangPlan (s : State) (l : Launch) : List Nat → Option State
  | [] => some s
  | i :: rest =>
    let num := if l.policy = 0 then
        let cs := (List.range l.kind.count).filter fun n => s.placeable l n && !(match Tid.unitPage ⟨l.kind, n⟩ with
          | some p => s.flag (fGated p) | none => false)
        cs[(Config.unstated s.fresh).toNat % cs.length]?
      else some (l.target i)
    match num with
    | some n => if s.placeable l n then (s.draw.2.startThread l i n).gangPlan l rest else none
    | none => none

/-- The unit of a context is gated: its wake is started and the thread waits (R379). -/
def State.gatedCtx (s : State) (k : TKind) (num : Nat) : Option Nat :=
  match Tid.unitPage ⟨k, num⟩ with
  | some p => if s.flag (fGated p) then some p else none
  | none => none

/-- Thread `idx` of launch `id` starts on context `num` of its kind; a gang starts whole (R24). Nothing happens when the context
cannot take it, and in safe stop (Table 18.4). -/
def execThreadStart (id idx num : Nat) (s : State) : Host.Outcome State Fault Refusal :=
  .next (match s.launch id with
  | none => s
  | some l =>
    if s.flag fSafe_SAFE ∨ !l.toPlace.contains idx ∨ (l.policy ≠ 0 ∧ num ≠ l.target idx) ∨ !s.placeable l num then s
    else match s.gatedCtx l.kind num with
      | some p => s.wakeUnit p
      | none =>
        if l.gang then
          if l.policy ≠ 0 ∧ l.toPlace.any (fun i => (s.gatedCtx l.kind (l.target i)).isSome) then
            l.unitPages.foldl (fun x p => x.wakeUnit p) s
          else (State.gangPlan (s.startThread l idx num) { l with toPlace := [] } (l.toPlace.filter fun j => j != idx)).getD s
        else s.startThread l idx num)

/-! ### Control of threads (R55, R59, R61) -/

/-- The thread a handle names for another thread of the same job (R55): `none` is BAD_HANDLE, before the check of its state. -/
def State.named (s : State) (t : Tid) (h : W64) : Option Tid :=
  match Tid.ofHandle h.toNat with
  | some x => if x = t ∨ ((s.ctx x).st ≠ .idle ∧ (s.ctx x).job ≠ (s.ctx t).job) then none else some x
  | none => none

/-- An instruction that acts on a named thread in a state it allows. -/
def State.actOn (s : State) (t : Tid) (i : Instr) (a : Reg) (p : Prof) (ok : Ctx → Bool) (f : State → Tid → TRes) : State :=
  s.issue t i p fun s1 =>
    match s1.named t ((s1.ctx t).ga a) with
    | some x => if ok (s1.ctx x) then f s1 x else .fault s1 { code := 0x22 }
    | none => .fault s1 { code := 0x22 }

/-- TSTOP. -/
def execTstop (t : Tid) (a : Reg) (s : State) : Host.Outcome State Fault Refusal :=
  .next (s.actOn t (.tstop t a) a profSup (fun c => c.st != .idle && c.st != .faulted) fun s1 x => .done (s1.stopThread x))

/-- TRESUME: a thread whose notice has been written restarts at FAULT_PC (R60). -/
def execTresume (t : Tid) (a : Reg) (s : State) : Host.Outcome State Fault Refusal :=
  .next (s.actOn t (.tresume t a) a profSup (fun c => c.st == .faulted && c.noticed) fun s1 x =>
    .done (s1.modCtx x fun c => { c with st := .ready, pc := c.faultPc }))

/-- TEND: a FAULTED thread ends, counted as a fault ending (R23, R28, R51, R69), after its remote and flagged stores are
performed, which the addition to its counter comes after (R28). -/
def execTend (t : Tid) (a : Reg) (s : State) : Host.Outcome State Fault Refusal :=
  .next (s.actOn t (.tend t a) a profSup (fun c => c.st == .faulted) fun s1 x =>
    if s1.storesOut x then .wait s1 .cond else .done (s1.endThread x true))

/-- FRET: back to FAULT_PC at job level (R59). -/
def execFret (t : Tid) (s : State) : Host.Outcome State Fault Refusal :=
  .next (s.issue t (.fret t) profSup fun s1 =>
    .jump (s1.modCtx t fun c => { c with st := .ready, pc := c.faultPc, sup := false, instr := none, await := .cond }))

/-- TLBINV: the translations of the address are to be dropped; FENCE.FULL completes after they have been (R32). -/
def execTlbinv (t : Tid) (a : Reg) (s : State) : Host.Outcome State Fault Refusal :=
  .next (s.issue t (.tlbinv t a) profSup fun s1 =>
    .done { s1 with thr := { s1.thr with inv := s1.thr.inv ++ [(s1.ctx t).ga a] } })

/-- FAULT_NOTICE_WRITE (R60, R63). -/
def execFaultNoticeWrite (s : State) : Host.Outcome State Fault Refusal := .next s.writeNotice

end Sys2Proof.Machine
end

