-- ==== Sys2Proof/Machine/MatAcc.lean ====
section
/-! DEFINITION. The matrix engine's arithmetic: operand elements, group sums, chunk and total accumulation (R94, R95, R100 to R110). -/

namespace Sys2Proof.Machine

/-! ### Operands (Tables 5.2, 5.3) -/

/-- An operand descriptor (Table 5.3). -/
structure Opnd where
  base : Nat
  ld : Nat
  fmt : Nat
  layout : Nat
  exp : Nat
  expFmt : Nat
  extent : Nat
  aux : Nat
  auxLd : Nat
  reserved : Bool
  deriving DecidableEq, Repr

/-- The descriptor in 32 bytes. -/
def Opnd.ofBytes (d : List Byte) : Opnd :=
  let b := fieldLE d 0x0C 1
  let c := fieldLE d 0x0D 1
  let e := fieldLE d 0x0E 1
  { base := fieldLE d 0 8, ld := fieldLE d 8 4, fmt := bitsOf b 4 0, layout := bitsOf b 5 5, exp := bitsOf c 1 0,
    expFmt := bitsOf c 6 2, extent := bitsOf e 6 0, aux := fieldLE d 0x10 8, auxLd := fieldLE d 0x18 4,
    reserved := bitsOf b 7 6 != 0 || bitAt c 7 || bitAt e 7 || fieldLE d 0x0F 1 != 0 || fieldLE d 0x1C 4 != 0 }

/-- The format an operand's elements have in the engine. -/
def Opnd.eff (o : Opnd) : Nat := if o.exp = 0 then o.fmt else o.expFmt

/-- Format classes (Table 5.2): 0 FP64, 1 FP32, 2 16-bit, 3 8-bit float, 4 8-bit integer. -/
def fmtClass (c : Nat) : Option Nat :=
  if c = 0x00 then some 0
  else if c = 0x01 then some 1
  else if c = 0x02 ∨ c = 0x03 then some 2
  else if 0x04 ≤ c ∧ c ≤ 0x0A then some 3
  else if 0x0B ≤ c ∧ c ≤ 0x0D then some 4
  else none

/-- A pair that Table 5.2 accepts: its class. -/
def pairClass (a b : Nat) : Option Nat :=
  match fmtClass a, fmtClass b with
  | some x, some y =>
    if x ≠ y then none
    else if x = 2 ∧ a ≠ b then none
    else if x = 4 ∧ (a = 0x0B) ≠ (b = 0x0B) then none
    else some x
  | _, _ => none

/-- A format narrower than a byte, or an MX format: LAYOUT 0 alone, LD a multiple of 32. -/
def Opnd.packed (o : Opnd) : Bool := isMx o.fmt || o.fmt == 0x0E || o.fmt == 0x0F

/-- The alignment of BASE: its element, a byte for packed formats. -/
def Opnd.align (o : Opnd) : Nat := if o.packed then 1 else codeBits o.fmt / 8

/-- Bytes of one expansion table (R94). -/
def Opnd.tblBytes (o : Opnd) : Nat := if o.expFmt = 3 then 32 else 16

/-- The alignment of AUX: a scale byte, a table entry, a group record. -/
def Opnd.auxAlign (o : Opnd) : Nat :=
  if isMx o.fmt then 1 else if o.exp = 1 then o.tblBytes / 16 else if o.exp = 2 then 4 else 1

/-- The faults MX_OPERAND of one operand (Table 5.4). -/
def Opnd.bad (o : Opnd) (k : Nat) : Bool :=
  o.reserved || o.exp == 3 || (o.exp == 0 && (o.expFmt != 0 || fmtClass o.fmt == none)) ||
    (o.exp != 0 && !(o.expFmt == 3 || o.expFmt == 4 || o.expFmt == 5)) ||
    (o.exp == 1 && !(o.fmt == 0x0E || o.fmt == 0x0F)) ||
    (o.exp == 2 && !(decide (0x0C ≤ o.fmt) && decide (o.fmt ≤ 0x0F))) ||
    (o.layout == 1 && (o.packed || o.exp != 0)) || k == 0 || decide (2 ^ 24 < k) ||
    ((isMx o.fmt || o.exp == 2) && k % 32 != 0) || (o.packed && o.ld % 32 != 0) || o.extent == 0 || decide (64 < o.extent) ||
    o.base % o.align != 0 || o.aux % o.auxAlign != 0

/-- The byte ranges of the operand region. -/
def Opnd.region (o : Opnd) (k : Nat) : List (Nat × Nat) :=
  let bits := codeBits o.fmt
  if o.layout = 0 then (List.range o.extent).map fun r => (o.base + r * o.ld * bits / 8, (k * bits + 7) / 8)
  else (List.range k).map fun i => (o.base + i * o.ld * (bits / 8), o.extent * (bits / 8))

/-- The byte ranges of the auxiliary data, one for each row (R101). -/
def Opnd.auxRegion (o : Opnd) (k : Nat) : List (Nat × Nat) :=
  let n := if isMx o.fmt then k / 32 else if o.exp = 1 then (k + 4095) / 4096 * o.tblBytes else if o.exp = 2 then 4 * (k / 32) else 0
  if n = 0 then [] else (List.range o.extent).map fun r => (o.aux + r * o.auxLd, n)

/-- One element as the multipliers take it: its value, the fraction bits of its format, and whether its expansion saturated or
gave a NaN. -/
structure OpElem where
  v : Num
  fb : Nat
  sat : Bool
  nan : Bool
  deriving DecidableEq, Repr

/-- A zero element. -/
def OpElem.zero : OpElem := { v := .fin false 0 0, fb := 0, sat := false, nan := false }

/-- A value that is a NaN. -/
def Num.isNaN : Num → Bool
  | .nan _ _ _ => true
  | _ => false

/-- Element `i` of a row, from its stored pattern and the row's auxiliary bytes (R94, R95, R107). -/
def Opnd.elem (o : Opnd) (aux : List Byte) (i pat : Nat) : OpElem :=
  if o.exp = 0 then
    let v := match codeMx o.fmt with
      | some f => f.decode pat
      | none => if o.fmt = 0x0B then numOfInt (sInt 8 pat) else codeDecode o.fmt pat
    let fb := match codeMx o.fmt with
      | some f => f.fb
      | none => match codeFmt o.fmt with | some f => f.fb | none => 0
    { v := v, fb := fb, sat := false, nan := false }
  else
    let f := (codeFmt o.expFmt).getD fmtBF16
    if o.exp = 1 then
      let w := o.tblBytes / 16
      let v := f.decode (fieldLE aux (i / 4096 * o.tblBytes + pat % 16 * w) w)
      { v := v, fb := f.fb, sat := false, nan := v.isNaN }
    else
      let (p, s, n) := expandGroup o.expFmt o.fmt pat (fieldLE aux (4 * (i / 32)) 4)
      { v := f.decode p, fb := f.fb, sat := s, nan := n }

/-- The scale code of block `b` of a row: 127, a scale of 1, for a plain operand (R107). -/
def Opnd.scale (o : Opnd) (aux : List Byte) (b : Nat) : Nat := if isMx o.fmt then (aux.getD b 0).toNat else 127

/-- A row of an operand: its elements and the scale codes of its blocks. -/
structure OpRow where
  els : List OpElem
  scales : List Nat
  deriving DecidableEq, Repr

/-- The elements of an operand row with values of MX scales beyond the row read as 1. -/
def OpRow.scaleAt (r : OpRow) (b : Nat) : Nat := r.scales.getD b 127

/-- A row beyond EXTENT reads as zero (Table 5.3). -/
def OpRow.zero : OpRow := { els := [], scales := [] }

/-! ### Group sums (R103 to R108) -/

/-- A group's value: an exact integer times a power of two, an infinity, a NaN; with INVALID. -/
inductive GVal where
  | fin (v : Int) (e : Int)
  | inf (neg : Bool)
  | nan
  deriving DecidableEq, Repr

/-- A product: none when zero. -/
inductive Prod where
  | zero
  | fin (neg : Bool) (m : Nat) (e ex : Int)
  | inf (neg : Bool)
  | nan (invalid : Bool)
  deriving DecidableEq, Repr

/-- a × b with its product exponent (R103, R108). -/
def mulElem (a b : OpElem) : Prod :=
  match a.v, b.v with
  | .nan _ _ _, _ => .nan false
  | _, .nan _ _ _ => .nan false
  | .inf x, .inf y => .inf (x ^^ y)
  | .inf x, .fin y m _ => if m = 0 then .nan true else .inf (x ^^ y)
  | .fin x m _, .inf y => if m = 0 then .nan true else .inf (x ^^ y)
  | .fin x m1 e1, .fin y m2 e2 =>
    if m1 * m2 = 0 then .zero else .fin (x ^^ y) (m1 * m2) (e1 + e2) (e1 + a.fb + (e2 + b.fb))

/-- The largest product exponent of a group's nonzero products. -/
def maxEx : List Prod → Option Int
  | [] => none
  | .fin _ _ _ ex :: ps => match maxEx ps with
    | some x => some (if x < ex then ex else x)
    | none => some ex
  | _ :: ps => maxEx ps

/-- One product on the window's grid, truncated toward zero (R105). -/
def Prod.window (unit : Int) : Prod → Int
  | .fin neg m e _ =>
    let q : Int := ((onGrid m e unit).1 : Nat)
    if neg then -q else q
  | _ => 0

/-- The special value of a group, if its products make one (R108): the value and INVALID. -/
def groupSpecial (ps : List Prod) : Option (GVal × Bool) :=
  let bad := ps.any fun p => p == .nan true
  let isNan := ps.any fun p => match p with | .nan _ => true | _ => false
  let pos := ps.any fun p => p == .inf false
  let neg := ps.any fun p => p == .inf true
  if isNan then some (.nan, bad || (pos && neg))
  else if pos && neg then some (.nan, true)
  else if pos then some (.inf false, false)
  else if neg then some (.inf true, false)
  else none

/-- The window width of a class (Table 5.2). -/
def classW : Nat → Int
  | 0 => 106
  | 1 => 50
  | _ => 24

/-- The group size of a class, full or reduced width (Table 5.2). -/
def classG (cls : Nat) (reduced : Bool) : Nat :=
  let g := match cls with | 0 => 2 | 1 => 4 | 2 => 16 | _ => 32
  if reduced then g / 2 else g

/-- A group's value (R105 to R108): `xa`, `xb` are the scale codes. -/
def groupVal (cls : Nat) (mxint : Bool) (xa xb : Nat) (ps : List Prod) : GVal × Bool :=
  let sx : Int := (xa : Int) + xb - 254
  let sp := groupSpecial ps
  if xa = 0xFF ∨ xb = 0xFF then (.nan, false)
  else match sp with
    | some r => r
    | none =>
      if cls = 4 then
        (.fin (ps.foldl (fun a p => a + p.window 0) 0) (if mxint then sx - 12 else 0), false)
      else match maxEx ps with
        | none => (.fin 0 0, false)
        | some x =>
          let unit := x - classW cls
          (.fin (ps.foldl (fun a p => a + p.window unit) 0) (unit + sx), false)

/-! ### Accumulators (R105, R108 to R110) -/

/-- The chunk accumulator's format (Table 5.2). -/
def chunkFmt (cls : Nat) : FFmt := if cls = 2 ∨ cls = 3 then fmtS else fmtD

/-- The total's format: binary64, with 16 guard bits in the FP64 class (R109). -/
def fmtGuard : FFmt := ⟨11, 68, 1023, .ieee, false⟩

/-- The total's format of a class. -/
def totalFmt (cls : Nat) : FFmt := if cls = 0 then fmtGuard else fmtD

/-- An accumulation: pattern, OVERFLOW, INVALID. A zero is +0 (R110). -/
def FFmt.accum (f : FFmt) (acc : Nat) (v : GVal) : Nat × Bool × Bool :=
  match f.decode acc, v with
  | .nan _ _ _, _ => (f.canonNaN, false, false)
  | _, .nan => (f.canonNaN, false, false)
  | .inf a, .inf b => if a = b then (f.withSign a f.infBits, false, false) else (f.canonNaN, false, true)
  | .inf a, .fin _ _ => (f.withSign a f.infBits, false, false)
  | .fin _ _ _, .inf b => (f.withSign b f.infBits, false, false)
  | .fin n m e, .fin w ew =>
    let e0 := if e ≤ ew then e else ew
    let x := toGrid n m e e0 + w * (2 ^ (ew - e0).toNat : Nat)
    let (p, fl) := f.roundFin 0 0 false (decide (x < 0)) x.natAbs e0
    (if p % f.signBit = 0 then 0 else p, (fl &&& flOF) != 0, false)

/-- The value an accumulator holds. -/
def FFmt.gval (f : FFmt) (p : Nat) : GVal :=
  match f.decode p with
  | .nan _ _ _ => .nan
  | .inf n => .inf n
  | .fin n m e => .fin (if n then -(m : Int) else m) e

/-- Flags of an accumulation: OVERFLOW, INVALID. -/
abbrev AccFl := Bool × Bool

/-- Flags joined. -/
def AccFl.or (a b : AccFl) : AccFl := (a.1 || b.1, a.2 || b.2)

end Sys2Proof.Machine
end

