-- ==== Sys2Proof/Machine/Matrix.lean ====
section
/-! DEFINITION. The grove matrix engine (spec 05): ownership, queue, tiles, MMA, drains, deferred errors. -/

namespace Sys2Proof.Machine

/-! ### MSTAT (Table 5.11) -/

def msINVALID : Nat := 0
def msOVERFLOW : Nat := 1
def msUNDERFLOW : Nat := 2
def msINEXACT : Nat := 3
def msEXP_SAT : Nat := 4
def msEXP_NAN : Nat := 5
def msPAD : Nat := 6
def msRESIDUE : Nat := 8
def msUNCORR : Nat := 9
def msREMOTE : Nat := 10
def msDIGEST : Nat := 11
def msPENDING : Nat := 12

/-- A status bit set. -/
def Matrix.set (m : Matrix) (bit : Nat) (b : Bool := true) : Matrix :=
  if b then { m with mstat := m.mstat ||| BitVec.ofNat 13 (2 ^ bit) } else m

/-- The state code of a tile (Table 5.1). -/
def TileSt.code : TileSt → Nat
  | .empty => 0
  | .filling => 1
  | .closed => 2
  | .draining => 2
  | .poisoned => 3

/-- A tile by number. -/
def Matrix.tile (m : Matrix) (i : Nat) : Tile := if i = 0 then m.t0 else m.t1
/-- A tile set. -/
def Matrix.setTile (m : Matrix) (i : Nat) (t : Tile) : Matrix := if i = 0 then { m with t0 := t } else { m with t1 := t }

/-- The value MSTAT reads. -/
def Matrix.mstatWord (m : Matrix) : W64 :=
  BitVec.ofNat 64 (m.mstat.toNat + m.t0.st.code * 65536 + m.t1.st.code * 262144 + m.queue.length * 1048576)

/-- PENDING. -/
def Matrix.pend (m : Matrix) : Bool := m.mstat.getLsbD 12

/-- The queue set. -/
def Matrix.setQueue (m : Matrix) (q : List MWork) : Matrix := { m with queue := q }

/-- The tile a piece of work is for. -/
def MWork.tile : MWork → Nat
  | .mma t _ _ _ => t
  | .drain t => t

/-- Work of the tile is queued. -/
def Matrix.queued (m : Matrix) (i : Nat) : Bool := m.queue.any fun w => w.tile == i

/-- A deferred error: its bit and PENDING (R120). -/
def Matrix.err (m : Matrix) (bit : Nat) : Matrix := (m.set bit).set msPENDING

/-- A tile POISONED: its queued work and drain are discarded (Table 5.1). -/
def Matrix.poison (m : Matrix) (i bit : Nat) : Matrix :=
  let m1 := { m with queue := m.queue.filter fun w => w.tile != i }
  (m1.setTile i { m1.tile i with st := .poisoned, drain := none }).err bit

/-! ### The gate of matrix instructions (R97, R120) -/

/-- A matrix instruction: ownership, then the deferred error for every one but MSTAT, then its body. A fault leaves an engine
that had no owner without one. -/
def State.mxInsn (s : State) (t : Tid) (i : Instr) (async : Bool) (body : State → Matrix → TRes) : State :=
  s.issue t i profEngine fun s1 =>
    let m := s1.mat t.groveOf
    if m.owner.isSome ∧ m.owner ≠ some t then .wait s1 .cond
    else if async ∧ m.pend then
      .fault (s1.setMat t.groveOf { m with mstat := m.mstat &&& 0x0FFF }) { code := 0x33 }
    else
      let m1 := { m with owner := some t }
      match body (s1.setMat t.groveOf m1) m1 with
      | .fault s2 f => .fault (s2.setMat t.groveOf { s2.mat t.groveOf with owner := m.owner }) f
      | r => r

/-- The agent of an engine access for a drain of a tile. -/
def drainAgt (t : Tid) (tile : Nat) : Agt := { engAgt t with use := .matrix t tile }

/-! ### Configuration (R117, Table 5.9) -/

/-- Default of the configuration bytes. -/
def epiZero (_ : Nat) : Byte := 0

/-- A little-endian field of a configuration. -/
def cfgLE (c : List (Nat × Byte)) (o n : Nat) : Nat := leNat ((List.range n).map fun i => tabGet epiZero c (o + i))

/-- The configuration of a 4 KiB block: bytes 0x010 to 0x047 and the table. -/
def epiOf (b : List Byte) : List (Nat × Byte) :=
  ((List.range 0x38).map (0x10 + ·) ++ (List.range 0x800).map (0x800 + ·)).foldl
    (fun c o => tabSet epiZero c o (b.getD o 0)) []

/-- The control word of a configuration. -/
def cfgCtl (c : List (Nat × Byte)) : Nat := cfgLE c 0x10 8

/-- The output formats of a drain (R112). -/
def outFmtOk (f : Nat) : Bool := decide (f ≤ 5) || f == 0x0C || f == 0x0D || f == 0x10

/-- A control word that MX_DRAIN refuses: reserved bits, OUT_FMT, ACT, K_TOP (Tables 5.4, 5.7, 5.9). -/
def ctlBad (w : Nat) : Bool :=
  w >>> 25 != 0 || !outFmtOk (bitsOf w 12 8) || decide (5 < bitsOf w 7 4) ||
    (bitAt w 17 && (bitsOf w 21 18 == 0 || decide (8 < bitsOf w 21 18)))

/-- The result of an engine's read at issue as a fault. -/
def readFault (s : State) (va : W64) : MRes → TRes
  | .fault c => .fault s { code := c, va := va }
  | .stall => .wait s (s.awaitAt va.toNat)
  | .refused _ => .fault s { code := 0x23, va := va }
  | _ => .fault s { code := 0x24, va := va }

/-- MEPI. -/
def execMepi (t : Tid) (a : Reg) (s : State) : Host.Outcome State Fault Refusal :=
  .next (s.mxInsn t (.mepi t a) true fun s1 m =>
    let va := (s1.ctx t).ga a
    if va.toNat % 4096 ≠ 0 then .fault s1 { code := 0x34 }
    else match s1.vread (engAgt t) va.toNat 4096 with
      | (.ok b, s2) =>
        if ctlBad (fieldLE b 0x10 8) ∨ (sliceB b 0x50 0x7B0).any (· != 0) then .fault s2 { code := 0x34 }
        else .done (s2.setMat t.groveOf { m with epi := epiOf b })
      | (r, s2) => readFault s2 va r)

/-- MSAREA: the save area's address (R69). -/
def execMsarea (t : Tid) (a : Reg) (s : State) : Host.Outcome State Fault Refusal :=
  .next (s.mxInsn t (.msarea t a) true fun s1 m => .done (s1.setMat t.groveOf { m with save := (s1.ctx t).ga a }))

/-- MZERO: after the tile's earlier work; FILLING and POISONED tiles become EMPTY (Table 5.1). -/
def execMzero (t : Tid) (tile : Fin 2) (s : State) : Host.Outcome State Fault Refusal :=
  .next (s.mxInsn t (.mzero t tile) true fun s1 m =>
    if m.queued tile ∨ (m.tile tile).st = .closed ∨ (m.tile tile).st = .draining then .wait s1 .cond
    else .done (s1.setMat t.groveOf (m.setTile tile Tile.clear)))

/-- MSTAT: with CLR, bits 11 to 0 clear after they are read. -/
def execMstat (t : Tid) (d : Reg) (clr : Bool) (s : State) : Host.Outcome State Fault Refusal :=
  .next (s.mxInsn t (.mstat t d clr) false fun s1 m =>
    .done ((s1.modCtx t fun c => c.sa d m.mstatWord).setMat t.groveOf
      (if clr then { m with mstat := m.mstat &&& 0x1000 } else m)))

/-- MWAIT. -/
def execMwait (t : Tid) (d : Reg) (s : State) : Host.Outcome State Fault Refusal :=
  .next (s.mxInsn t (.mwait t d) true fun s1 m =>
    if m.queue.isEmpty ∧ m.t0.st.code ≠ 2 ∧ m.t1.st.code ≠ 2 then .done (s1.modCtx t fun c => c.sa d m.mstatWord)
    else .wait s1 .cond)

/-! ### MMA at issue (R101, R102, R240) -/

/-- An operand descriptor: aligned to 32 bytes; the A descriptor comes from the model context when its address is the selected
model's layer table (R240). -/
def State.opndBytes (s : State) (t : Tid) (m : Matrix) (isA : Bool) (va : W64) : MRes × State :=
  match m.model with
  | some (_, l0d, ltab) => if isA ∧ va = ltab then (.ok l0d, s) else s.vread (engAgt t) va.toNat 32
  | none => s.vread (engAgt t) va.toNat 32

/-- The class of work on a tile: of its queued or summed MMAs; none for an EMPTY tile without queued work. -/
def Matrix.tileBusy (m : Matrix) (i : Nat) : Bool := m.queued i || (m.tile i).st == .filling

/-- MMA. -/
def execMma (t : Tid) (tile : Fin 2) (d a b : Reg) (s : State) : Host.Outcome State Fault Refusal :=
  .next (s.mxInsn t (.mma t tile d a b) true fun s1 m =>
    let c := s1.ctx t
    let k := (c.ga d).toNat
    let x := m.tile tile
    if x.st = .closed ∨ x.st = .draining ∨ 4 ≤ m.queue.length then .wait s1 .cond
    else if (c.ga a).toNat % 32 ≠ 0 ∨ (c.ga b).toNat % 32 ≠ 0 then .fault s1 { code := 0x30 }
    else match s1.opndBytes t m true (c.ga a) with
      | (.ok da, s2) =>
        match s2.opndBytes t m false (c.ga b) with
        | (.ok db, s3) =>
          let oa := Opnd.ofBytes da
          let ob := Opnd.ofBytes db
          match pairClass oa.eff ob.eff with
          | none => .fault s3 { code := 0x30 }
          | some cls =>
            if oa.bad k ∨ ob.bad k then .fault s3 { code := 0x30 }
            else if m.tileBusy tile ∧ x.cls ≠ cls then .fault s3 { code := 0x31 }
            else if m.tileBusy tile ∧ x.epoch ≠ c.epoch then .fault s3 { code := 0x32 }
            else if x.st = .poisoned then .fault s3 { code := 0x35 }
            else match s3.probeRanges .jobLevel .load (oa.region k ++ oa.auxRegion k ++ ob.region k ++ ob.auxRegion k) with
              | (.fault f v, s4) => .fault s4 { code := f, va := BitVec.ofNat 64 v }
              | (.stall, s4) => .wait s4 .access
              | (.ok, s4) =>
                let x1 := if m.tileBusy tile then x
                  else { x with cls := cls, epoch := c.epoch, reduced := s4.flag fMode_A_CAP_MODE }
                .done (s4.setMat t.groveOf ((m.setTile tile x1).setQueue (m.queue ++ [.mma tile k da db])))
        | (r, s3) => readFault s3 (c.ga b) r
      | (r, s2) => readFault s2 (c.ga a) r)

end Sys2Proof.Machine
end

