-- ==== Sys2Proof/Machine/Ew.lean ====
section
/-! DEFINITION. The element-wise instructions (spec 06). An instruction's results are formed when it issues, which are the results of
issue order (R131); its place in its core's queue is held until the engine completes it. How many have completed by the time the core
issues again is free (assumption log 45). -/

namespace Sys2Proof.Machine

/-! ### The gate (R126, R129, R131, R145, R147) -/

/-- A split written and not yet applied (R129). -/
def State.splitPending (s : State) (g : Nat) : Bool := s.fld (fGrove_SPLIT g) != s.fld (fGrove_APPLIED g)

/-- What an instruction needs of its core's queue (R131): a place it keeps after it retires, with the slot an ESUM writes; a place
while it executes; that the queue is empty; that the latest ESUM of a slot has completed; nothing. -/
inductive EwUse where
  | work (slot : Option Nat)
  | place
  | drained
  | slot (n : Nat)
  | free
  deriving DecidableEq, Repr

/-- The oldest entries of the queue that must complete before the instruction executes. -/
def Ew.need (e : Ew) : EwUse → Nat
  | .work _ => e.queue.length - 7
  | .place => e.queue.length - 7
  | .drained => e.queue.length
  | .slot n => e.queue.length - (e.queue.reverse.takeWhile (· != some n)).length
  | .free => 0

/-- The engine completes a free number of a core's queued instructions, the oldest first; at least `least` of them. -/
def State.ewProgress (s : State) (core least : Nat) : State :=
  let e := s.ew core
  if e.queue.isEmpty then s
  else
    { (s.setEw core { e with queue := e.queue.drop (max least ((Config.timed s.fresh).toNat % (e.queue.length + 1))) }) with
        fresh := s.fresh + 1 }

/-- An instruction that retires at issue keeps its place in the queue. -/
def Ew.enqueue (e : Ew) : EwUse → Ew
  | .work slot => { e with queue := e.queue ++ [slot] }
  | _ => e

/-- A fault that leaves elements of the access, or an error word, in the tile registers (R64). -/
def FaultArg.leftPart (f : FaultArg) : Bool := f.errVal || decide (0 < f.gs.getD 0)

/-- An element-wise instruction: ownership, the split, the deferred error for every one but ESTAT, its need of the queue, then its
body. A fault without effect leaves tile registers that had no owner without one. What an instruction issued again waited for has
come (WAIT_CONDITION_MET). -/
def State.ewInsn (s : State) (t : Tid) (i : Instr) (u : EwUse) (async : Bool) (body : State → Ew → TRes) : State :=
  s.issue t i profEngine fun s0 =>
    let c := s0.ctx t
    let e0 := s0.ew (ewCore t)
    if e0.owner.isSome ∧ e0.owner ≠ some t then .wait s0 .cond
    else if s0.splitPending t.groveOf ∧ !c.inAccess then .wait s0 .cond
    else if async ∧ e0.pending ∧ !c.inAccess then .fault (s0.setEw (ewCore t) { e0 with pending := false }) { code := 0x3A }
    else
      let s1 := s0.ewProgress (ewCore t) (if c.instr.isSome then e0.need u else 0)
      let e := s1.ew (ewCore t)
      if 0 < e.need u then .wait s1 .cond
      else
        let e1 := { e with owner := some t }
        match body (s1.setEw (ewCore t) e1) e1 with
        | .fault s2 f =>
          .fault (if f.leftPart then s2 else s2.setEw (ewCore t) { s2.ew (ewCore t) with owner := e0.owner }) f
        | .done s2 => .done (s2.setEw (ewCore t) ((s2.ew (ewCore t)).enqueue u))
        | r => r

/-- A tile register field: bit 4 must be clear (R145). -/
def tileOk (r : Reg) : Bool := decide (r.val < 16)

/-- ILLEGAL_INSN. -/
def illegal (s : State) : TRes := .fault s { code := 0x21 }

/-- A read of a tile register with an armed injection (R147, R434): it reads all ones, and the deferred error waits. -/
def State.readTile (s : State) (t : Tid) (r : Nat) : State :=
  let page := 0x100 + t.groveOf
  let tgt := s.fld (fInj_TARGET page)
  if s.injArmed page 2 ∧ tgt % 16 = r ∧ tgt / 16 % 8 = t.coreOf then
    let e := (s.ew (ewCore t)).fillTile r 0xFF
    ((s.setEw (ewCore t) { e with errTile := true, pending := true, errReg := r }).injDone page).report
      { cls := 0x06, react := 2, page := page, unit := t.coreOf, loc1 := BitVec.ofNat 64 t.handle, injected := true } none
  else s

/-- The tile registers read, then the effect on the core's state. -/
def State.ewDone (s : State) (t : Tid) (reads : List Nat) (f : Ew → Ew) : TRes :=
  let s1 := reads.foldl (fun x r => x.readTile t r) s
  .done (s1.setEw (ewCore t) (f (s1.ew (ewCore t))))

/-! ### Tile memory instructions (R142, R143, R132, R168) -/

/-- Number, position and address of the elements of a strided tile access. -/
def Ew.strided (e : Ew) (w base stride : Nat) : List GElem :=
  (e.cells w).map fun c => { num := c.1 * colsOf w + c.2, va := (base + c.1 * stride + c.2 * w) % 2 ^ 64 }

/-- A stride whose elements take the sector path (R168). -/
def farStride (v : W64) : Bool := decide (128 ≤ v.toInt.natAbs)

/-- The agent of a tile access, on the sector path or not. -/
def State.tileAcc (s : State) (t : Tid) (far : Bool) : Agt := { s.agtOf t with sector := far }

/-- A tile element's load, or a piece of one: naturally aligned (R143). -/
def State.tileRead (s : State) (t : Tid) (far : Bool) (w va n : Nat) : MRes × State :=
  if va % w ≠ 0 then (.fault 0x20, s) else s.vread (s.tileAcc t far) va n

/-- A tile element's store. -/
def State.tileWrite (s : State) (t : Tid) (far : Bool) (w va v : Nat) : MRes × State :=
  if va % w ≠ 0 then (.fault 0x20, s) else MRes.lateStore t va (s.vwrite (s.tileAcc t far) va (natLE w v))

/-- The loop of ETLD and EXPDLD: an aligned element lies in one granule, so it is its own faulting address. -/
def State.tileLoad (s : State) (t : Tid) (far : Bool) (w : Nat) (put : State → GElem → List Byte → State) (els : List GElem) : TRes :=
  s.gatherGo t w 1 (fun x va => x.tileRead t far w va w) (fun _ va => va) put els

/-- The loop of ETST and ECPRST. -/
def State.tileStore (s : State) (t : Tid) (far : Bool) (w : Nat) (val : State → GElem → Nat) (els : List GElem) : TRes :=
  s.scatterGo t (fun x g => x.tileWrite t far w g.va (val x g)) (fun _ va => va) els

/-- An element of the core's tile register set. -/
def State.putTileEl (s : State) (t : Tid) (w r i j v : Nat) : State :=
  s.setEw (ewCore t) ((s.ew (ewCore t)).setEl w r i j v)

/-- The tile registers that a memory instruction reads, when it is issued first. -/
def State.readTilesOnce (s : State) (t : Tid) (rs : List Nat) : State :=
  if (s.ctx t).inAccess then s else rs.foldl (fun x r => x.readTile t r) s

/-- ETLD. -/
def execEtld (t : Tid) (w : MemW) (d a b : Reg) (s : State) : Host.Outcome State Fault Refusal :=
  .next (s.ewInsn t (.etld t w d a b) .place true fun s1 e =>
    if !tileOk d then illegal s1
    else
      let c := s1.ctx t
      s1.tileLoad t (farStride (c.ga b)) w.bytes
        (fun x g bs => x.putTileEl t w.bytes d (g.num / colsOf w.bytes) (g.num % colsOf w.bytes) (leNat bs))
        (e.strided w.bytes (c.ga a).toNat (c.ga b).toNat))

/-- ETST. -/
def execEtst (t : Tid) (w : MemW) (d a b : Reg) (s : State) : Host.Outcome State Fault Refusal :=
  .next (s.ewInsn t (.etst t w d a b) .place true fun s1 e =>
    if !tileOk d then illegal s1
    else
      let c := s1.ctx t
      (s1.readTilesOnce t [d.val]).tileStore t (farStride (c.ga b)) w.bytes
        (fun x g => (x.ew (ewCore t)).el w.bytes d (g.num / colsOf w.bytes) (g.num % colsOf w.bytes))
        (e.strided w.bytes (c.ga a).toNat (c.ga b).toNat))

/-- The positions of a packed access are those its mask gives when it is issued; they stay while the access is in progress, though an
element it loads may be one of the mask (R142). -/
def State.packedPos (s : State) (t : Tid) (w m : Nat) : List (Nat × Nat) :=
  let e := s.ew (ewCore t)
  match e.packed with
  | some ps => if (s.ctx t).inAccess then ps else e.active w m
  | none => e.active w m

/-- The positions of the packed access in progress, kept. -/
def State.keepPacked (s : State) (t : Tid) (ps : Option (List (Nat × Nat))) : State :=
  s.setEw (ewCore t) { s.ew (ewCore t) with packed := ps }

/-- The elements of a packed access: the k-th active element at A + k × w. -/
def packedEls (w base n : Nat) : List GElem := (List.range n).map fun k => { num := k, va := (base + k * w) % 2 ^ 64 }

/-- The count of active elements in B when a packed access completes (R142). -/
def countIn (t : Tid) (b : Reg) (n : Nat) : TRes → TRes
  | .done s => .done ((s.keepPacked t none).modCtx t fun c => c.sa b (BitVec.ofNat 64 n))
  | r => r

/-- ECPRST. -/
def execEcprst (t : Tid) (w : MemW) (d a b : Reg) (m : Fin 16) (s : State) : Host.Outcome State Fault Refusal :=
  .next (s.ewInsn t (.ecprst t w d a b m) .place true fun s1 _ =>
    if !tileOk d then illegal s1
    else
      let s2 := s1.readTilesOnce t [d.val, m.val]
      let ps := s2.packedPos t w.bytes m
      countIn t b ps.length
        ((s2.keepPacked t (some ps)).tileStore t false w.bytes
          (fun x g => let c := ps.getD g.num (0, 0)
            (x.ew (ewCore t)).el w.bytes d c.1 c.2)
          (packedEls w.bytes ((s2.ctx t).ga a).toNat ps.length)))

/-- EXPDLD: the positions are those the mask gives before the load, so D may be the mask. -/
def execExpdld (t : Tid) (w : MemW) (d a b : Reg) (m : Fin 16) (s : State) : Host.Outcome State Fault Refusal :=
  .next (s.ewInsn t (.expdld t w d a b m) .place true fun s1 _ =>
    if !tileOk d then illegal s1
    else
      let s2 := s1.readTilesOnce t [m.val]
      let ps := s2.packedPos t w.bytes m
      countIn t b ps.length
        ((s2.keepPacked t (some ps)).tileLoad t false w.bytes
          (fun x g bs => let c := ps.getD g.num (0, 0)
            x.putTileEl t w.bytes d c.1 c.2 (leNat bs))
          (packedEls w.bytes ((s2.ctx t).ga a).toNat ps.length)))

/-! ### Arithmetic, reductions, summaries -/

/-- E.func (R134, R135). -/
def execEFunc (t : Tid) (func : Fin 32) (rm fmt : Fin 8) (d a b : Reg) (s : State) : Host.Outcome State Fault Refusal :=
  .next (s.ewInsn t (.eFunc t func rm fmt d a b) (.work none) true fun s1 _ =>
    let m := (s1.ctx t).effRm rm
    match ewFmt fmt with
    | none => illegal s1
    | some x =>
      if !tileOk d || !tileOk a || !tileOk b || !x.allows func || decide (4 < m) then illegal s1
      else s1.ewDone t ([a.val] ++ (if unaryFn func then [] else [b.val]) ++ if ternaryFn func then [d.val] else []) fun e =>
        e.mapTile x.w d (e.cells x.w) fun i j => x.fn func m (e.el x.w a i j) (e.el x.w b i j) (e.el x.w d i j))

/-- ERED (R139). -/
def execEred (t : Tid) (axis : Fin 2) (op fmt : Fin 8) (d a : Reg) (s : State) : Host.Outcome State Fault Refusal :=
  .next (s.ewInsn t (.ered t axis op fmt d a) (.work none) true fun s1 _ =>
    match ewFmt fmt with
    | none => illegal s1
    | some x =>
      if !tileOk d || !tileOk a || op.val == 7 || (x.fp.isSome && decide (4 ≤ op.val)) then illegal s1
      else s1.ewDone t [a.val] fun e => e.reduce x axis op d a)

/-- Default of the summary slots. -/
def slotZero (_ : Nat) : W64 := 0

/-- ESUM (R140). -/
def execEsum (t : Tid) (kind fmt : Fin 8) (d a : Reg) (s : State) : Host.Outcome State Fault Refusal :=
  .next (s.ewInsn t (.esum t kind fmt d a) (.work (some d)) true fun s1 _ =>
    match ewFmt fmt with
    | none => illegal s1
    | some x =>
      if 7 < d.val ∨ !tileOk a ∨ 5 < kind.val then illegal s1
      else s1.ewDone t [a.val] fun e =>
        let r := e.summary x kind a
        { (e.raise r.2) with slots := tabSet slotZero e.slots d (BitVec.ofNat 64 r.1) })

/-- ECMP (R135). -/
def execEcmp (t : Tid) (pred : Fin 32) (fmt : Fin 8) (d a b : Reg) (s : State) : Host.Outcome State Fault Refusal :=
  .next (s.ewInsn t (.ecmp t pred fmt d a b) (.work none) true fun s1 _ =>
    match ewFmt fmt with
    | none => illegal s1
    | some x =>
      if !tileOk d || !tileOk a || !tileOk b || !predOk pred then illegal s1
      else s1.ewDone t [a.val, b.val] fun e =>
        e.mapTile x.w d (e.cells x.w) fun i j => x.mask pred (e.el x.w a i j) (e.el x.w b i j))

/-- ECPR and EXPD share their form (R141). -/
def State.packInsn (s : State) (t : Tid) (i : Instr) (fmt : Nat) (d a b : Reg) (f : Ew → Nat → Nat → Nat → Nat → Ew) : State :=
  s.ewInsn t i (.work none) true fun s1 _ =>
    match ewFmt fmt with
    | none => illegal s1
    | some x =>
      if !tileOk d || !tileOk a || !tileOk b then illegal s1
      else s1.ewDone t [a.val, b.val] fun e => f e x.w d a b

/-- ECPR. -/
def execEcpr (t : Tid) (fmt : Fin 8) (d a b : Reg) (s : State) : Host.Outcome State Fault Refusal :=
  .next (s.packInsn t (.ecpr t fmt d a b) fmt d a b Ew.compress)

/-- EXPD. -/
def execExpd (t : Tid) (fmt : Fin 8) (d a b : Reg) (s : State) : Host.Outcome State Fault Refusal :=
  .next (s.packInsn t (.expd t fmt d a b) fmt d a b Ew.expand)

/-! ### Lane programs (R136, R138) -/

/-- EPROG. -/
def execEprog (t : Tid) (a : Reg) (s : State) : Host.Outcome State Fault Refusal :=
  .next (s.ewInsn t (.eprog t a) .place true fun s1 _ =>
    let va := (s1.ctx t).ga a
    if va.toNat % 64 ≠ 0 then .fault s1 { code := 0x38 }
    else match s1.vread (s1.agtOf t) va.toNat 384 with
      | (.ok b, s2) =>
        if progBad b then .fault s2 { code := 0x38 }
        else .done (s2.setEw (ewCore t) { s2.ew (ewCore t) with prog := some b })
      | (r, s2) => readFault s2 va r)

/-- ERUN. -/
def execErun (t : Tid) (a : Reg) (s : State) : Host.Outcome State Fault Refusal :=
  .next (s.ewInsn t (.erun t a) (.work none) true fun s1 e =>
    let bind := ((s1.ctx t).ga a).toNat
    let frm := (s1.ctx t).frm.toNat
    match e.prog with
    | none => .fault s1 { code := 0x39 }
    | some b =>
      let p := eprogOf b
      match ewFmt p.fmt with
      | none => .fault s1 { code := 0x39 }
      | some x =>
        if bindBad p bind then .fault s1 { code := 0x39 }
        else if x.fp.isSome ∧ 4 < frm ∧ p.ops.any (fun o => o.rm == 7 && p.rm == 7) then illegal s1
        else s1.ewDone t (p.ins.map (bindIn bind)) fun y => y.runProg p x frm bind)

/-! ### Conversion (R144, R314) -/

/-- ECVT. -/
def execEcvt (t : Tid) (d a b : Reg) (s : State) : Host.Outcome State Fault Refusal :=
  .next (s.ewInsn t (.ecvt t d a b) (.work none) true fun s1 _ =>
    let c := s1.ctx t
    let x := ecvtOf (c.ga b).toNat
    let rm := c.effRm x.rm
    if !tileOk d || !tileOk a then illegal s1
    else if x.bad ∨ (rm = 6 ∧ s1.flag fMode_A_STRICT) then .fault s1 { code := 0x3C }
    else
      let k := s1.fresh
      let r := fun (i j : Nat) => if rm = 5 then (srRand c.seed (BitVec.ofNat 64 (i * x.wide + j))).toNat
        else (Config.random (k + i * x.wide + j)).toNat
      let s2 := (if rm = 6 then { s1 with fresh := k + 4096 } else s1).modCtx t fun c => c.seeded rm
      s2.ewDone t [a.val] fun e =>
        if isMx x.tgt then e.encodeMx x rm r d a else if isMx x.src then e.decodeMx x rm r d a else e.convert x rm r d a)

/-! ### Slots, status, set-up -/

/-- ESRD. -/
def execEsrd (t : Tid) (d : Reg) (slot : Fin 8) (s : State) : Host.Outcome State Fault Refusal :=
  .next (s.ewInsn t (.esrd t d slot) (.slot slot) true fun s1 e =>
    .done (s1.modCtx t fun c => c.sa d (tabGet slotZero e.slots slot)))

/-- The slots that queued ESUMs write, one bit each. -/
def Ew.slotBusy (e : Ew) : Nat := (List.range 8).foldl (fun a n => if e.queue.contains (some n) then a + 2 ^ n else a) 0

/-- The value ESTAT reads (Table 6.13). -/
def Ew.estat (e : Ew) : W64 :=
  BitVec.ofNat 64 (e.eflags.toNat + e.errTile.toNat * 32 + e.pending.toNat * 64 + e.prog.isSome.toNat * 128 + e.queue.length * 256 +
    e.errReg % 16 * 4096 + e.slotBusy * 65536)

/-- ESTAT: with CLR, bits 5 to 0 clear after they are read. -/
def execEstat (t : Tid) (d : Reg) (clr : Bool) (s : State) : Host.Outcome State Fault Refusal :=
  .next (s.ewInsn t (.estat t d clr) .free false fun s1 e =>
    .done ((s1.modCtx t fun c => c.sa d e.estat).setEw (ewCore t)
      (if clr then { e with eflags := 0, errTile := false } else e)))

/-- EWAIT: the queue is empty. -/
def execEwait (t : Tid) (d : Reg) (s : State) : Host.Outcome State Fault Refusal :=
  .next (s.ewInsn t (.ewait t d) .drained true fun s1 e => .done (s1.modCtx t fun c => c.sa d e.estat))

/-- ESAREA. -/
def execEsarea (t : Tid) (a : Reg) (s : State) : Host.Outcome State Fault Refusal :=
  .next (s.ewInsn t (.esarea t a) .place true fun s1 e => .done (s1.setEw (ewCore t) { e with save := (s1.ctx t).ga a }))

/-- ESHAPE (R127, Table 6.12). -/
def execEshape (t : Tid) (a : Reg) (s : State) : Host.Outcome State Fault Refusal :=
  .next (s.ewInsn t (.eshape t a) .place true fun s1 e =>
    let v := ((s1.ctx t).ga a).toNat
    let rows := bitsOf v 5 0
    let cols := bitsOf v 15 8
    if bitsOf v 7 6 ≠ 0 ∨ v >>> 16 ≠ 0 ∨ rows = 0 ∨ 32 < rows ∨ cols = 0 ∨ 128 < cols then .fault s1 { code := 0x3B }
    else .done (s1.setEw (ewCore t) { e with rows := rows, cols := cols }))

/-- A tile memory instruction of the context is in progress. -/
def Ctx.inTileAccess (c : Ctx) : Bool :=
  c.inAccess && match c.instr with
    | some (.etld _ _ _ _ _) => true
    | some (.etst _ _ _ _ _) => true
    | some (.ecprst _ _ _ _ _ _) => true
    | some (.expdld _ _ _ _ _ _) => true
    | _ => false

/-- The queues of a grove's eight cores as empty: everything in them has completed. -/
def State.ewDrained (s : State) (g : Nat) : State :=
  (List.range 8).foldl (fun x k => x.setEw (8 * g + k) { x.ew (8 * g + k) with queue := [] }) s

/-- EW_SPLIT_APPLY: the queues of the grove's cores have run empty, and the split is applied (R129). -/
def execEwSplitApply (g : Fin 256) (s : State) : Host.Outcome State Fault Refusal :=
  .next (if s.thr.ctxs.any (fun c => decide (c.1 / 256 = g.val) && c.2.inTileAccess) then s
    else (s.ewDrained g).setFld (fGrove_APPLIED g) (s.fld (fGrove_SPLIT g)))

end Sys2Proof.Machine
end

