-- ==== Sys2Proof/Machine/MatExec.lean ====
section
/-! DEFINITION. What the matrix engine does with its queue: MMA_EXECUTE, MDRAIN, DRAIN_START, DRAIN_COMPLETE (R98 to R120). -/

namespace Sys2Proof.Machine

/-! ### Operand reads -/

/-- Ranges read one after another: the bytes of each; the first that fails. -/
def State.readRanges (s : State) (a : Agt) : List (Nat × Nat) → MRes × List (List Byte) × State
  | [] => (.ok [], [], s)
  | (va, n) :: rest =>
    match s.vread a va n with
    | (.ok b, s1) =>
      let (r, bs, s2) := s1.readRanges a rest
      (r, b :: bs, s2)
    | (r, s1) => (r, [], s1)

/-- The pattern of element `i` of a packed row: `bits` bits from bit `bits × i` (R92). -/
def rowPattern (bits : Nat) (row : List Byte) (i : Nat) : Nat :=
  (leNat (sliceB row (bits * i / 8) 9) >>> (bits * i % 8)) % 2 ^ bits

/-- The rows of an operand. -/
def Opnd.rows (o : Opnd) (k : Nat) (bytes aux : List (List Byte)) : List OpRow :=
  (List.range o.extent).map fun r =>
    let ax := aux.getD r []
    { els := (List.range k).map fun i =>
        o.elem ax i (if o.layout = 0 then rowPattern (codeBits o.fmt) (bytes.getD r []) i
          else fieldLE (bytes.getD i []) (r * (codeBits o.fmt / 8)) (codeBits o.fmt / 8))
      scales := if isMx o.fmt then (List.range (k / 32)).map fun b => o.scale ax b else [] }

/-- An operand read from memory (R101): its rows. -/
def State.readOpnd (s : State) (a : Agt) (o : Opnd) (k : Nat) : MRes × List OpRow × State :=
  match s.readRanges a (o.region k) with
  | (.ok _, bs, s1) =>
    match s1.readRanges a (o.auxRegion k) with
    | (.ok _, ax, s2) => (.ok [], o.rows k bs ax, s2)
    | (r, _, s2) => (r, [], s2)
  | (r, _, s1) => (r, [], s1)

/-! ### One MMA on a tile (R104 to R110) -/

/-- A row element, zero beyond EXTENT and beyond K. -/
def OpRow.at (r : OpRow) (i : Nat) : OpElem := r.els.getD i OpElem.zero

/-- The products of group `g` of an output element. -/
def groupProds (size k g : Nat) (ra rb : OpRow) : List Prod :=
  (List.range size).map fun j => if g * size + j < k then mulElem (ra.at (g * size + j)) (rb.at (g * size + j)) else .zero

/-- One group added to an element; after the 16th the chunk goes into the total (R105, R109). -/
def Elem.addGroup (cls count : Nat) (x : Elem × AccFl) (v : GVal × Bool) : Elem × AccFl :=
  let (e, fl) := x
  let (c, ov, iv) := (chunkFmt cls).accum e.chunk v.1
  let fl1 := fl.or (ov, iv || v.2)
  if count = 15 then
    let f := totalFmt cls
    let (t, ov2, iv2) := f.accum (if cls = 0 then e.total * 65536 + e.guard else e.total) ((chunkFmt cls).gval c)
    ({ total := if cls = 0 then t / 65536 else t, guard := if cls = 0 then t % 65536 else 0, chunk := 0 }, fl1.or (ov2, iv2))
  else ({ e with chunk := c }, fl1)

/-- An element after every group of an MMA. -/
def Elem.mma (cls : Nat) (mxint : Bool) (size k groups count : Nat) (ra rb : OpRow) (e : Elem) : Elem × AccFl :=
  (List.range groups).foldl (fun x g =>
    Elem.addGroup cls ((count + g) % 16) x
      (groupVal cls mxint (ra.scaleAt (g * size / 32)) (rb.scaleAt (g * size / 32)) (groupProds size k g ra rb))) (e, (false, false))

/-- No element of a tile. -/
def elZero (_ : Nat) : Elem := { total := 0, guard := 0, chunk := 0 }

/-- A row holds a value that makes zeros matter: an infinity, a NaN, or a scale of NaN. -/
def OpRow.special (r : OpRow) : Bool := r.els.any (fun x => x.v.special) || r.scales.any (· == 0xFF)

/-- The elements an MMA can change: those in both extents, those already nonzero, and those whose row or column is special. -/
def mmaCells (ra rb : List OpRow) (el : List (Nat × Elem)) : List Nat :=
  (List.range 4096).filter fun c =>
    (decide (c / 64 < ra.length) && decide (c % 64 < rb.length)) || (tabFind el c).isSome ||
      (ra.getD (c / 64) OpRow.zero).special || (rb.getD (c % 64) OpRow.zero).special

/-- A tile after an MMA, with OVERFLOW and INVALID. -/
def Tile.mma (x : Tile) (mxint : Bool) (k : Nat) (ra rb : List OpRow) : Tile × AccFl :=
  let size := classG x.cls x.reduced
  let groups := (k + size - 1) / size
  let r := (mmaCells ra rb x.el).foldl (fun (acc : List (Nat × Elem) × AccFl) c =>
    let (e, fl) := (tabGet elZero x.el c).mma x.cls mxint size k groups x.count (ra.getD (c / 64) OpRow.zero)
      (rb.getD (c % 64) OpRow.zero)
    (tabSet elZero acc.1 c e, acc.2.or fl)) (x.el, (false, false))
  ({ x with el := r.1, count := (x.count + groups) % 16 }, r.2)

/-- Work of a tile that stands before the first piece for it of another kind: the first queued MMA that nothing of its tile
precedes (R98). -/
def firstMma : List MWork → List Nat → Option (Nat × Nat × List Byte × List Byte)
  | [], _ => none
  | .mma t k a b :: rest, seen => if seen.contains t then firstMma rest seen else some (t, k, a, b)
  | .drain t :: rest, seen => firstMma rest (t :: seen)

/-- The queue without its first MMA of a tile. -/
def dropMma (tile : Nat) : List MWork → List MWork
  | [] => []
  | .mma t k a b :: rest => if t = tile then rest else .mma t k a b :: dropMma tile rest
  | w :: rest => w :: dropMma tile rest

/-- A residue mismatch made by the armed injection: the tile is POISONED and a detection of class 0x04 reported (R119, R434). -/
def State.residueFail (s : State) (g : Nat) (m : Matrix) (tile : Nat) (t : Tid) : State :=
  ((s.setMat g (m.poison tile msRESIDUE)).injDone (0x100 + g)).report
    { cls := 0x04, react := 2, page := 0x100 + g, loc1 := BitVec.ofNat 64 t.handle, injected := true } none

/-- The groups of an MMA whose operands have been read, summed into its tile. -/
def State.mmaSum (s : State) (g : Nat) (t : Tid) (m : Matrix) (tile k : Nat) (mxint : Bool) (ra rb : List OpRow) : State :=
  if s.injArmed (0x100 + g) 1 then s.residueFail g m tile t
  else
    let els := (ra ++ rb).flatMap fun r => r.els
    let x := m.tile tile
    let (x2, ov, iv) := x.mma mxint k ra rb
    let m2 := (((m.setTile tile x2).set msOVERFLOW ov).set msINVALID iv).set msPAD (k % classG x.cls x.reduced != 0)
    s.setMat g ((m2.set msEXP_SAT (els.any fun e => e.sat)).set msEXP_NAN (els.any fun e => e.nan))

/-- A tile POISONED by an operand that was refused or is uncorrectable (R119, R120). -/
def State.mxPoison (s : State) (g : Nat) (m : Matrix) (tile : Nat) : MRes → State
  | .refused _ => s.setMat g (m.poison tile msREMOTE)
  | _ => s.setMat g (m.poison tile msUNCORR)

/-- An MMA taken from the queue: its remote operands are asked for first, and it waits for all of them; an operand that stalls leaves it
in the queue. -/
def State.mmaRun (s : State) (g : Nat) (t : Tid) (m : Matrix) (tile k : Nat) (da db : List Byte) : State :=
  let oa := Opnd.ofBytes da
  let ob := Opnd.ofBytes db
  let a := tileAgt t tile
  let x := m.tile tile
  let m1 := (m.setTile tile { x with st := if x.st = .empty then .filling else x.st }).setQueue (dropMma tile m.queue)
  match s.askRanges a (oa.region k ++ oa.auxRegion k ++ ob.region k ++ ob.auxRegion k) with
  | (false, s0) => s0
  | (true, s0) =>
    match s0.readOpnd a oa k with
    | (.stall, _, s1) => s0.undo s1
    | (.ok _, ra, s1) =>
      match s1.readOpnd a ob k with
      | (.stall, _, s2) => s0.undo s2
      | (.ok _, rb, s2) => (s2.mmaSum g t m1 tile k (oa.fmt == 0x0B) ra rb).dropGot (.opnd t tile)
      | (r, _, s2) => (s2.mxPoison g m1 tile r).dropGot (.opnd t tile)
    | (r, _, s1) => (s1.mxPoison g m1 tile r).dropGot (.opnd t tile)

/-- MMA_EXECUTE: the first queued MMA that no earlier drain of its tile holds back. -/
def execMmaExecute (g : Fin 256) (s : State) : Host.Outcome State Fault Refusal :=
  let m := s.mat g
  .next (match m.owner, firstMma m.queue [] with
    | some t, some (tile, k, da, db) => s.mmaRun g t m tile k da db
    | _, _ => s)

/-! ### MDRAIN (R117, R118) -/

/-- A drain descriptor's fields (Table 5.10). -/
structure DrainDesc where
  outBase : Nat
  outLd : Nat
  rows : Nat
  cols : Nat
  row0 : Nat
  col0 : Nat
  n : Nat
  topk : Nat
  digest : Nat
  seed : W64
  scalePtr : Nat
  biasPtr : Nat
  reserved : Bool
  deriving DecidableEq, Repr

/-- The descriptor in 128 bytes. -/
def drainDesc (d : List Byte) : DrainDesc :=
  { outBase := fieldLE d 0 8, outLd := fieldLE d 8 4, rows := fieldLE d 0x0C 1 % 128, cols := fieldLE d 0x0D 1 % 128,
    row0 := fieldLE d 0x10 4, col0 := fieldLE d 0x14 4, n := fieldLE d 0x18 4, topk := fieldLE d 0x20 8,
    digest := fieldLE d 0x28 8, seed := BitVec.ofNat 64 (fieldLE d 0x30 8), scalePtr := fieldLE d 0x38 8,
    biasPtr := fieldLE d 0x40 8,
    reserved := bitAt (fieldLE d 0x0C 1) 7 || bitAt (fieldLE d 0x0D 1) 7 || fieldLE d 0x0E 2 != 0 || fieldLE d 0x1C 4 != 0 ||
      (sliceB d 0x48 0x38).any (· != 0) }

/-- Bytes of an output element. -/
def outSize (f : Nat) : Nat := codeBits f / 8

/-- The rows of the output region. -/
def DrainDesc.outRows (d : DrainDesc) (f : Nat) : List (Nat × Nat) :=
  (List.range d.rows).map fun i => (d.outBase + i * d.outLd * outSize f, d.cols * outSize f)

/-- The top-k records. -/
def DrainDesc.topkRows (d : DrainDesc) : List (Nat × Nat) := (List.range d.rows).map fun i => (d.topk + 128 * i, 128)

/-- The checks of the regions a drain uses, by access (R118). -/
def State.drainProbe (s : State) (w : Nat) (d : DrainDesc) : Pr × State :=
  let stores := (if bitAt w 24 then [] else d.outRows (bitsOf w 12 8)) ++ (if bitAt w 17 then d.topkRows else []) ++
    (if bitAt w 23 then [(d.digest, 16)] else [])
  let loads := (if bitAt w 17 ∧ bitAt w 22 then d.topkRows else []) ++
    (if bitAt w 0 ∧ bitAt w 1 then [(d.scalePtr, 8 * d.cols)] else []) ++
    (if bitAt w 2 ∧ bitAt w 3 then [(d.biasPtr, 8 * d.cols)] else []) ++ (if bitAt w 23 then [(d.digest, 16)] else [])
  match s.probeRanges .jobLevel .store stores with
  | (.ok, s1) => s1.probeRanges .jobLevel .load loads
  | x => x

/-- The fault of the first output element that a store through a view refuses (R199, Table 8.7). -/
def State.drainViewFault (s : State) (w : Nat) (d : DrainDesc) : Option (Nat × Nat) :=
  let size := outSize (bitsOf w 12 8)
  if bitAt w 24 ∨ s.views.isEmpty then none
  else ((List.range d.rows).flatMap fun i => (List.range d.cols).map fun j => d.outBase + (i * d.outLd + j) * size).findSome? fun va =>
    match s.viewAt va with
    | some (i, sc) => ((s.view i).storeFault va size sc).map fun c => (c, va)
    | none => none

/-- MDRAIN. -/
def execMdrain (t : Tid) (tile : Fin 2) (a : Reg) (s : State) : Host.Outcome State Fault Refusal :=
  .next (s.mxInsn t (.mdrain t tile a) true fun s1 m =>
    let c := s1.ctx t
    let va := c.ga a
    let x := m.tile tile
    let w := cfgCtl m.epi
    let rm := c.effRm (bitsOf w 15 13)
    if 4 ≤ m.queue.length then .wait s1 .cond
    else if va.toNat % 128 ≠ 0 then .fault s1 { code := 0x34 }
    else match s1.vread (engAgt t) va.toNat 128 with
      | (.ok b, s2) =>
        let d := drainDesc b
        if d.reserved ∨ d.rows = 0 ∨ 64 < d.rows ∨ d.cols = 0 ∨ 64 < d.cols ∨ ctlBad w ∨ (rm = 6 ∧ s2.flag fMode_A_STRICT) then
          .fault s2 { code := 0x34 }
        else if x.st = .closed ∨ x.st = .draining ∨ x.st = .poisoned then .fault s2 { code := 0x35 }
        else match (match s2.drainViewFault w d with
            | some (c, v) => (Pr.fault c v, s2)
            | none => s2.drainProbe w d) with
          | (.fault f v, s3) => .fault s3 { code := f, va := BitVec.ofNat 64 v }
          | (.stall, s3) => .wait s3 .access
          | (.ok, s3) =>
            let x1 := { x with st := .closed, drain := some { cfg := m.epi, desc := b, rm := rm, out := [], wrote := false } }
            .done (s3.setMat t.groveOf ((m.setTile tile x1).setQueue (m.queue ++ [.drain tile])))
      | (r, s2) => readFault s2 va r)

/-! ### The epilogue (R112 to R115) -/

/-- One value of the epilogue with its IEEE flags and INVALID by R114. -/
structure EpiV where
  y : Nat
  fl : Flags
  inv : Bool
  deriving DecidableEq, Repr

/-- An operation's result taken. -/
def EpiV.step (v : EpiV) (r : Nat × Flags) : EpiV := { v with y := r.1, fl := v.fl ||| r.2 }

/-- Step 0: the total rounded to binary64. -/
def Elem.y0 (cls : Nat) (e : Elem) : EpiV :=
  if cls = 0 then
    let (p, fl) := fmtD.convert 0 0 false (fmtGuard.decode (e.total * 65536 + e.guard))
    { y := p, fl := fl, inv := false }
  else { y := e.total, fl := 0, inv := false }

/-- Steps 1 and 2: scale and bias. -/
def EpiV.affine (v : EpiV) (w sc bi : Nat) : EpiV :=
  if bitAt w 0 ∧ bitAt w 2 then v.step (fmtD.fma 0 false false v.y sc bi)
  else if bitAt w 0 then v.step (fmtD.mul 0 v.y sc)
  else if bitAt w 2 then v.step (fmtD.add 0 v.y bi)
  else v

/-- The table activation (R114). -/
def EpiV.table (v : EpiV) (c : List (Nat × Byte)) : EpiV :=
  if fmtD.isNaN v.y then v
  else
    let a := v.step (fmtD.sub 0 v.y (cfgLE c 0x38 8))
    let b := a.step (fmtD.mul 0 a.y (cfgLE c 0x40 8))
    let i := match fmtD.decode b.y with
      | .nan _ _ _ => 0
      | .inf n => if n then 0 else 255
      | .fin n m e => if n then 0 else min 255 (onGrid m e 0).1
    let coef := fun o => (codeConvert 1 0 0 0 false (cfgLE c (0x800 + 8 * i + o) 4)).1
    let r := { b with y := v.y }.step (fmtD.fma 0 false false (coef 4) v.y (coef 0))
    { r with inv := r.inv || fmtD.isNaN r.y }

/-- Step 3: activation (Table 5.7). -/
def EpiV.act (v : EpiV) (w : Nat) (c : List (Nat × Byte)) : EpiV :=
  match bitsOf w 7 4 with
  | 1 => v.step (fmtD.maxMin true v.y 0)
  | 2 =>
    if fmtD.isNaN v.y ∨ !(fmtD.decode v.y).neg ∨ v.y = fmtD.signBit then v else v.step (fmtD.mul 0 v.y (cfgLE c 0x28 8))
  | 3 =>
    let a := v.step (fmtD.maxMin true v.y (cfgLE c 0x28 8))
    a.step (fmtD.maxMin false a.y (cfgLE c 0x30 8))
  | 4 => { v with y := fmtD.absVal v.y }
  | 5 => v.table c
  | _ => v

/-- The output of an element, step 4 included: pattern, and the flags of MSTAT it raises. -/
structure EpiOut where
  o : Nat
  inv : Bool
  ovf : Bool
  unf : Bool
  nx : Bool
  deriving DecidableEq, Repr

/-- An IEEE flag is raised. -/
def hasFl (f b : Flags) : Bool := (f &&& b) != 0

/-- The epilogue of element (i, j). -/
def epilogue (cls : Nat) (dr : Drain) (d : DrainDesc) (draw sc bi : Nat) (i j : Nat) (e : Elem) : EpiOut :=
  let w := cfgCtl dr.cfg
  let v := ((e.y0 cls).affine w sc bi).act w dr.cfg
  let pos := (d.row0 + i) * d.n + d.col0 + j
  let r := if dr.rm = 5 then (srRand d.seed (BitVec.ofNat 64 pos)).toNat else (Config.random (draw + i * 64 + j)).toNat
  let (o, fl) := codeConvert 0 (bitsOf w 12 8) dr.rm r (bitAt w 16) v.y
  { o := o, inv := v.inv || hasFl v.fl flNV || hasFl fl flNV, ovf := hasFl v.fl flOF || hasFl fl flOF, unf := hasFl fl flUF,
    nx := hasFl fl flNX }

/-- A candidate of the top-k: position and value. -/
abbrev Cand := Nat × Nat

/-- The rank of a value in an output format: totalOrder, or the integer's value (R115). -/
def topkKey (f v : Nat) : Nat :=
  match codeFmt f with
  | some k => k.key v
  | none => match codeInt f with
    | some (true, w) => (v + 2 ^ (w - 1)) % 2 ^ w
    | _ => v

/-- `a` ranks before `b`. -/
def candBefore (f : Nat) (a b : Cand) : Bool :=
  decide (topkKey f b.2 < topkKey f a.2) || (topkKey f a.2 == topkKey f b.2 && decide (a.1 < b.1))

/-- A candidate put in its place. -/
def candInsert (f : Nat) (c : Cand) : List Cand → List Cand
  | [] => [c]
  | x :: xs => if candBefore f c x then c :: x :: xs else x :: candInsert f c xs

/-- The record of a row's best candidates. -/
def topkRecord (k : Nat) (cs : List Cand) : List Byte :=
  let best := cs.take k
  (List.range 8).flatMap (fun i => natLE 4 (match best[i]? with | some c => c.1 | none => 0xFFFFFFFF)) ++
    (List.range 8).flatMap (fun i => natLE 8 (match best[i]? with | some c => c.2 | none => 0)) ++ List.replicate 32 0

/-- The used slots of a record. -/
def topkRead (b : List Byte) : List Cand :=
  (List.range 8).filterMap fun i => if fieldLE b (4 * i) 4 = 0xFFFFFFFF then none else some (fieldLE b (4 * i) 4, fieldLE b (0x20 + 8 * i) 8)

/-- The top-k of the rows from `i` on (R115): whether every access succeeded; a wait where one must. -/
def State.topk (s : State) (t : Tid) (tile w : Nat) (d : DrainDesc) (outs : List Nat) (ok : Bool) : List Nat → MRes × Bool × State
  | [] => (.ok [], ok, s)
  | i :: rest =>
    let f := bitsOf w 12 8
    let va := d.topk + 128 * i
    let row : List Cand := (List.range d.cols).map fun j => (d.col0 + j, outs.getD (i * d.cols + j) 0)
    match (if bitAt w 22 then s.vread (tileAgt t tile) va 128 else (.ok (topkRecord 0 []), s)) with
    | (.stall, s1) => (.stall, ok, s1)
    | (.ok b, s1) =>
      match s1.vwrite (drainAgt t tile) va
          (topkRecord (bitsOf w 21 18) ((topkRead b ++ row).foldl (fun l c => candInsert f c l) [])) with
      | (.stall, s2) => (.stall, ok, s2)
      | (.ok _, s2) => s2.topk t tile w d outs ok rest
      | (_, s2) => s2.topk t tile w d outs false rest
    | (_, s1) => s1.topk t tile w d outs false rest

/-! ### DRAIN_START -/

/-- The drain of a tile stands at the head of the tile's queued work. -/
def drainFirst (tile : Nat) : List MWork → Bool
  | [] => false
  | w :: rest => if w.tile = tile then w == .drain tile else drainFirst tile rest

/-- Elements with the open chunk added into the total (R109). -/
def Tile.closeChunk (x : Tile) : Tile × AccFl :=
  if x.count = 0 then (x, (false, false))
  else
    let r := x.el.foldl (fun (acc : List (Nat × Elem) × AccFl) e =>
      let f := totalFmt x.cls
      let (t, ov, iv) := f.accum (if x.cls = 0 then e.2.total * 65536 + e.2.guard else e.2.total)
        ((chunkFmt x.cls).gval e.2.chunk)
      (tabSet elZero acc.1 e.1 { total := if x.cls = 0 then t / 65536 else t, guard := if x.cls = 0 then t % 65536 else 0,
                                  chunk := 0 }, acc.2.or (ov, iv))) ([], (false, false))
    ({ x with el := r.1, count := 0 }, r.2)

/-- Column vectors of the epilogue: read under SCALE_VEC and BIAS_VEC, the scalar otherwise. -/
def State.colVec (s : State) (a : Agt) (on vec : Bool) (ptr scalar cols : Nat) : MRes × List Nat × State :=
  if on && vec then
    match s.vread a ptr (8 * cols) with
    | (.ok b, s1) => (.ok [], (List.range cols).map fun j => fieldLE b (8 * j) 8, s1)
    | (r, s1) => (r, [], s1)
  else (.ok [], List.replicate cols scalar, s)

/-- The outputs of a drain with the flags they raise. -/
def Tile.outputs (x : Tile) (dr : Drain) (d : DrainDesc) (draw : Nat) (sc bi : List Nat) : List EpiOut :=
  (List.range d.rows).flatMap fun i => (List.range d.cols).map fun j =>
    epilogue x.cls dr d draw (sc.getD j 0) (bi.getD j 0) i j (tabGet elZero x.el (i * 64 + j))

/-- The ranges that a drain's epilogue reads: column vectors, and the records it merges into. -/
def DrainDesc.reads (d : DrainDesc) (w : Nat) : List (Nat × Nat) :=
  (if bitAt w 17 ∧ bitAt w 22 then d.topkRows else []) ++ (if bitAt w 0 ∧ bitAt w 1 then [(d.scalePtr, 8 * d.cols)] else []) ++
    if bitAt w 2 ∧ bitAt w 3 then [(d.biasPtr, 8 * d.cols)] else []

/-- The outputs of a drain formed from its column vectors, with the records of its top-k (R112 to R115). -/
def State.drainForm (s : State) (g : Nat) (t : Tid) (m : Matrix) (tile : Nat) (x : Tile) (dr : Drain) (sc bi : List Nat) : MRes × State :=
  let d := drainDesc dr.desc
  let w := cfgCtl dr.cfg
  let outs := x.outputs dr d s.fresh sc bi
  let s1 := if dr.rm = 6 then { s with fresh := s.fresh + 4096 } else s
  let m1 := (((m.set msINVALID (outs.any fun o => o.inv)).set msOVERFLOW (outs.any fun o => o.ovf)).set msUNDERFLOW
    (outs.any fun o => o.unf)).set msINEXACT (outs.any fun o => o.nx)
  let m2 := m1.setTile tile { x with st := .draining, drain := some { dr with out := outs.map fun o => o.o } }
  match (if bitAt w 17 then s1.topk t tile w d (outs.map fun o => o.o) true (List.range d.rows) else (.ok [], true, s1)) with
  | (.stall, _, s2) => (.stall, s2)
  | (_, ok, s2) => (.ok [], s2.setMat g (if ok then m2 else m2.err msDIGEST))

/-- A drain that starts: its remote vectors and records are asked for first, and it waits for all of them. -/
def State.drainRun (s : State) (g : Nat) (t : Tid) (m : Matrix) (tile : Nat) (dr : Drain) : State :=
  let d := drainDesc dr.desc
  let w := cfgCtl dr.cfg
  let a := tileAgt t tile
  let (x1, ov, iv) := (m.tile tile).closeChunk
  let m1 := ((m.setQueue (m.queue.filter fun k => k != .drain tile)).set msOVERFLOW ov).set msINVALID iv
  match s.askRanges a (d.reads w) with
  | (false, s0) => s0
  | (true, s0) =>
    match s0.colVec a (bitAt w 0) (bitAt w 1) d.scalePtr (cfgLE dr.cfg 0x18 8) d.cols with
    | (.stall, _, s1) => s0.undo s1
    | (.ok _, sc, s1) =>
      match s1.colVec a (bitAt w 2) (bitAt w 3) d.biasPtr (cfgLE dr.cfg 0x20 8) d.cols with
      | (.stall, _, s2) => s0.undo s2
      | (.ok _, bi, s2) =>
        match s2.drainForm g t m1 tile x1 dr sc bi with
        | (.stall, s3) => s0.undo s3
        | (_, s3) => s3.dropGot (.opnd t tile)
      | (r, _, s2) => (s2.mxPoison g m1 tile r).dropGot (.opnd t tile)
    | (r, _, s1) => (s1.mxPoison g m1 tile r).dropGot (.opnd t tile)

/-- DRAIN_START: a CLOSED tile whose earlier work has executed. -/
def execDrainStart (g : Fin 256) (tile : Fin 2) (s : State) : Host.Outcome State Fault Refusal :=
  let m := s.mat g
  .next (match m.owner, (m.tile tile).drain with
    | some t, some dr =>
      if (m.tile tile).st = .closed ∧ drainFirst tile m.queue then s.drainRun g t m tile dr else s
    | _, _ => s)

/-! ### DRAIN_COMPLETE (R116) -/

/-- A row of outputs as stores: a row that reaches a view range is stored element by element (R199). -/
def State.rowStores (s : State) (size : Nat) (r : Nat × List Byte) : List (Nat × List Byte) :=
  if (s.viewAt r.1).isSome ∨ (s.viewAt (r.1 + r.2.length - 1)).isSome then
    (List.range (r.2.length / size)).map fun j => (r.1 + j * size, sliceB r.2 (j * size) size)
  else [r]

/-- Rows written back in order: the first failure ends it (R99, R120). -/
def State.writeRows (s : State) (a : Agt) : List (Nat × List Byte) → MRes × State
  | [] => (.ok [], s)
  | (va, bs) :: rest =>
    match s.vwrite a va bs with
    | (.ok _, s1) => s1.writeRows a rest
    | x => x

/-- An integer atomic add of an engine for a tile at a virtual address, 8 bytes. -/
def State.engineAdd (s : State) (t : Tid) (tile va v : Nat) : MRes × State :=
  match s.xlate .jobLevel va .atomic with
  | (.ok (.dram key), s1) =>
    if s1.protectedKey key 8 then (.fault 0x13, s1)
    else if s1.accessStalled key 8 true then (.stall, s1.noteStall key)
    else match s1.homeAmo .none key 8 0 v 0 with
      | (some _, s2) => (.ok [], s2.markAccess va .atomic)
      | (none, s2) => (.uncorr, s2)
  | (.ok (.remote addr), s1) =>
    MRes.marked va .atomic <|
      if s1.isSelf addr ∧ !s1.flag fSafe_SAFE then
        match s1.turned 4 addr 8 0 3 (natLE 8 v) with
        | (.ok _, s2) => (.ok [], s2)
        | (.refused c, s2) => (.refused c, s2)
        | (.wait, s2) => (.stall, s2)
      else match s1.request (.digest t tile) t.handle (BitVec.ofNat 64 va)
          { s1.reqPkt 4 false addr 8 (natLE 8 v) with aop := 0, aw := 3 } with
        | (.sent _, s2) => (.ok [], s2)
        | (.refused c, s2) => (.refused c, s2)
        | (.wait, s2) => (.stall, s2)
  | (.stall, s1) => (.stall, s1)
  | (.fault c, s1) => (.fault c, s1)
  | (_, s1) => (.fault 0x13, s1)

/-- The digest partial of a drain's outputs (R116). -/
def digestPart (d : DrainDesc) (outs : List Nat) : W64 :=
  (List.range outs.length).foldl (fun p c =>
    p + mix64 (mix64 (BitVec.ofNat 64 ((d.row0 + c / d.cols) * d.n + d.col0 + c % d.cols)) ^^^ BitVec.ofNat 64 (outs.getD c 0))) 0

/-- Engine adds one after another: whether all succeeded; a wait where one must. -/
def State.engineAdds (s : State) (t : Tid) (tile : Nat) (ok : Bool) : List (Nat × Nat) → MRes × Bool × State
  | [] => (.ok [], ok, s)
  | (va, v) :: rest =>
    match s.engineAdd t tile va v with
    | (.stall, s1) => (.stall, ok, s1)
    | (.ok _, s1) => s1.engineAdds t tile ok rest
    | (_, s1) => s1.engineAdds t tile false rest

/-- Remote write-backs and digest adds of a tile that are not acknowledged (Table 5.1, R99). -/
def State.writeBackOut (s : State) (t : Tid) (tile : Nat) : Bool :=
  s.fab.ctxs.any fun c => c.use == .matrix t tile || c.use == .digest t tile

/-- The tile of a drain whose outputs have been written: EMPTY once every write has been acknowledged. -/
def State.drainWritten (s : State) (g : Nat) (t : Tid) (m : Matrix) (tile : Nat) (dr : Drain) : State :=
  if s.writeBackOut t tile then s.setMat g (m.setTile tile { m.tile tile with drain := some { dr with wrote := true } })
  else s.setMat g (m.setTile tile Tile.clear)

/-- The outputs written, with the digest's two adds; a write that stalls leaves the drain to be completed later. -/
def State.drainWrite (s : State) (g : Nat) (t : Tid) (m : Matrix) (tile : Nat) (dr : Drain) : State :=
  let d := drainDesc dr.desc
  let w := cfgCtl dr.cfg
  let size := outSize (bitsOf w 12 8)
  let rows := (List.range d.rows).map fun i =>
    (d.outBase + i * d.outLd * size, (List.range d.cols).flatMap fun j => natLE size (dr.out.getD (i * d.cols + j) 0))
  match (if bitAt w 24 then (.ok [], s) else s.writeRows (drainAgt t tile) (rows.flatMap fun r => s.rowStores size r)) with
  | (.stall, s1) => s.undo s1
  | (.ok _, s1) =>
    match s1.engineAdds t tile true (if bitAt w 23 then [(d.digest, (digestPart d dr.out).toNat), (d.digest + 8, 1)] else []) with
    | (.stall, _, s2) => s.undo s2
    | (_, ok, s2) => s2.drainWritten g t (if ok then m else m.err msDIGEST) tile dr
  | (r, s1) => s1.mxPoison g m tile r

/-- DRAIN_COMPLETE. -/
def execDrainComplete (g : Fin 256) (tile : Fin 2) (s : State) : Host.Outcome State Fault Refusal :=
  let m := s.mat g
  .next (match m.owner, (m.tile tile).drain with
    | some t, some dr =>
      if (m.tile tile).st ≠ .draining then s
      else if dr.wrote then (if s.writeBackOut t tile then s else s.setMat g (m.setTile tile Tile.clear))
      else s.drainWrite g t m tile dr
    | _, _ => s)

end Sys2Proof.Machine
end

