-- ==== Sys2Proof/Machine/Save.lean ====
section
/-! DEFINITION. The end of a thread by TEXIT, and saved threads: TSAVE, TRESTORE (R51, R68 to R70, R120, R126, R147, R148). -/

namespace Sys2Proof.Machine

/-! ### TEXIT -/

/-- The tile registers that a grove thread owns. -/
def State.ownEw (s : State) (t : Tid) : Option Ew :=
  if t.kind = .grove ∧ (s.ew (ewCore t)).owner = some t then some (s.ew (ewCore t)) else none

/-- Work of the engine remains: queued, or a drain in progress. -/
def Matrix.working (m : Matrix) : Bool := !m.queue.isEmpty || m.t0.st.code == 2 || m.t1.st.code == 2

/-- TEXIT: deferred errors first, then the completion of the engines' work and of remote stores, then the end. -/
def execTexit (t : Tid) (s : State) : Host.Outcome State Fault Refusal :=
  .next (s.issue t (.texit t) profAll fun s1 =>
    let m := s1.ownMat t
    let e := s1.ownEw t
    if m.any (fun x => x.pend) then
      .fault (s1.setMat t.groveOf { s1.mat t.groveOf with mstat := (s1.mat t.groveOf).mstat &&& 0x0FFF }) { code := 0x33 }
    else if e.any (fun x => x.pending) then
      .fault (s1.setEw (ewCore t) { s1.ew (ewCore t) with pending := false }) { code := 0x3A }
    else if m.any Matrix.working ∨ s1.storesOut t then .wait s1 .cond
    else .jump (s1.endThread t false))

/-! ### The thread save area (Table 3.11) -/

/-- Bytes of a vector register of a kind; none on thread cores. -/
def vlBytes : TKind → Nat
  | .grove => 0
  | .near => 64
  | .control => 128

/-- What the reserved bytes from 0x280 hold in this model (assumption log 15): level, launch, group, which engines were saved,
a refusal still to be told. -/
structure SaveNote where
  sup : Bool
  launch : Option Nat
  group : Nat
  pinned : Bool
  mat : Option W64
  ew : Option W64
  late : Option W64
  deriving DecidableEq, Repr

/-- An optional word. -/
def optBytes : Option W64 → List Byte
  | none => natLE 1 0 ++ natLE 8 0
  | some v => natLE 1 1 ++ natLE 8 v.toNat

/-- The note's bytes. -/
def SaveNote.bytes (n : SaveNote) : List Byte :=
  natLE 1 n.sup.toNat ++ natLE 1 n.pinned.toNat ++ natLE 2 n.group ++ optBytes (n.launch.map (BitVec.ofNat 64)) ++ optBytes n.mat ++
    optBytes n.ew ++ optBytes n.late

/-- An optional word read. -/
def optAt (b : List Byte) (o : Nat) : Option W64 :=
  if fieldLE b o 1 % 2 = 1 then some (BitVec.ofNat 64 (fieldLE b (o + 1) 8)) else none

/-- The note read back. -/
def noteOf (b : List Byte) : SaveNote :=
  { sup := fieldLE b 0 1 % 2 == 1, pinned := fieldLE b 1 1 % 2 == 1, group := fieldLE b 2 2 % 4096,
    launch := (optAt b 4).map (·.toNat), mat := optAt b 13, ew := optAt b 22, late := optAt b 31 }

/-- The note of a thread that is saved. -/
def State.saveNote (s : State) (t : Tid) : SaveNote :=
  let c := s.ctx t
  { sup := c.sup, launch := c.launch, group := c.group, pinned := c.pinned, mat := (s.ownMat t).map (·.save),
    ew := (s.ownEw t).map (·.save), late := c.late }

/-- The pieces of a save area that are written: offset and bytes. -/
def State.savePieces (s : State) (t : Tid) : List (Nat × List Byte) :=
  let c := s.ctx t
  let vl := vlBytes t.kind
  let regs := (List.range 14).flatMap fun n => natLE 8 (((s.stateReg t n).getD 0).toNat)
  [(0, (List.range 32).flatMap fun r => natLE 8 (c.ga r).toNat), (0x100, (List.range 32).flatMap fun r => natLE 8 (c.gf r).toNat),
   (0x200, regs ++ List.replicate 16 0), (0x280, (s.saveNote t).bytes)] ++
  (if vl = 0 then [] else
    [(0x400, (List.range 32).flatMap fun r => natLE vl (c.gv r).toNat),
     (0x1400, List.replicate 16 0xFF ++ (List.range 7).flatMap (fun r => natLE 16 ((c.gk (r + 1)).toNat % 2 ^ vl)) ++
        List.replicate 128 0)])

/-- Pieces written at an area. -/
def State.writeParts (s : State) (a : Agt) (base : Nat) : List (Nat × List Byte) → MRes × State
  | [] => (.ok [], s)
  | (o, bs) :: rest =>
    match s.vwrite a (base + o) bs with
    | (.ok _, s1) => s1.writeParts a base rest
    | x => x

/-- The lane masks at 0x1400 of an area as registers: near threads have 64 lanes. -/
def maskBytes (vl : Nat) : Nat := if vl = 64 then 8 else 16

/-- The context that an area holds, for a thread restored to `t` by a thread of job `job` (R68, R70). -/
def ctxOf (b : List Byte) (t : Tid) (job epoch : Nat) : Ctx :=
  let n := noteOf (b.drop 0x280)
  let q := fun i => BitVec.ofNat 64 (fieldLE b (0x200 + 8 * i) 8)
  let vl := vlBytes t.kind
  let c0 := (List.range 32).foldl (fun c r =>
    (c.sa r (BitVec.ofNat 64 (fieldLE b (8 * r) 8))).sf r (BitVec.ofNat 64 (fieldLE b (0x100 + 8 * r) 8))) Ctx.idle
  let c1 := if vl = 0 then c0 else
    (List.range 32).foldl (fun c r => c.sv r (BitVec.ofNat 1024 (fieldLE b (0x400 + vl * r) vl))) c0
  let c2 := if vl = 0 then c1 else
    (List.range 7).foldl (fun c r => c.sk (r + 1) (BitVec.ofNat 128 (fieldLE b (0x1410 + 16 * r) (maskBytes vl)))) c1
  let c3 := [0x03, 0x04, 0x05, 0x06, 0x07, 0x08, 0x09].foldl (fun (c : Ctx) i => c.putState i (q i)) c2
  { c3 with st := .ready, sup := n.sup && t.kind == .control, pc := q 4, job := job, epoch := BitVec.ofNat 32 epoch,
            hvec := if t.kind = .control then q 12 &&& ~~~3 else 0, launch := n.launch, group := n.group, pinned := n.pinned,
            late := n.late }

/-! ### The matrix save area (Table 3.12) -/

/-- A tile as TSAVE writes it: a POISONED one as EMPTY (R120). -/
def Tile.saved (x : Tile) : Tile := if x.st = .poisoned then Tile.clear else x

/-- The state of a tile in a save area's header: 0 empty, 1 filling, 2 full (Table 3.12). -/
def saveTileCode (x : Tile) : Nat := x.saved.st.code

/-- Format byte of a tile: its class, and bit 7 when its epoch is not the one saved (assumption log 15). -/
def saveTileFmt (x : Tile) (epoch : Nat) : Nat := x.cls + if x.epoch.toNat = epoch then 0 else 128

/-- The element records of a tile. -/
def Tile.records (x : Tile) : List Byte :=
  (List.range 4096).flatMap fun i =>
    let e := tabGet elZero x.el i
    natLE 8 e.total ++ natLE 2 e.guard ++ natLE 6 0 ++ natLE 8 e.chunk ++ natLE 8 0

/-- The 260 KiB of a matrix engine. Bytes 0x0 to 0x7 hold the version and a format code of the tiles: Table 3.12 says neither where
nor which code. The model puts the class number of tile 0 in byte 2 and that of tile 1 in byte 3 (DESIGN CHOICE, assumption
log 15). -/
def Matrix.image (m : Matrix) (epoch : Nat) : List Byte :=
  let a := m.t0.saved
  let b := m.t1.saved
  natLE 2 1 ++ natLE 1 (saveTileFmt a epoch) ++ natLE 1 (saveTileFmt b epoch) ++ natLE 4 0 ++
    natLE 1 a.count ++ natLE 1 b.count ++ natLE 1 (saveTileCode m.t0 + 4 * saveTileCode m.t1) ++ natLE 1 0 ++ natLE 4 epoch ++
    (List.range 0x38).map (fun i => tabGet epiZero m.epi (0x10 + i)) ++ natLE 8 m.mstatWord.toNat ++ List.replicate 0x7B0 0 ++
    (List.range 0x800).map (fun i => tabGet epiZero m.epi (0x800 + i)) ++ a.records ++ b.records

/-- A tile from a save area. -/
def tileFrom (b : List Byte) (fmt count code off epoch : Nat) (reduced : Bool) : Tile :=
  { st := match code with | 0 => .empty | 1 => .filling | _ => .closed
    cls := fmt % 8, epoch := BitVec.ofNat 32 (if fmt / 128 = 1 then epoch + 1 else epoch), reduced := reduced, count := count % 16,
    el := (List.range 4096).foldl (fun t i =>
      tabSet elZero t i { total := fieldLE b (off + 32 * i) 8, guard := fieldLE b (off + 32 * i + 8) 2,
                          chunk := fieldLE b (off + 32 * i + 16) 8 }) [],
    drain := none }

/-- A matrix engine from its save area, owned by a thread; `m` is the engine that takes it. -/
def matrixFrom (b : List Byte) (t : Tid) (reduced : Bool) (save : W64) (m : Matrix) : Matrix :=
  let ep := fieldLE b 0x0C 4
  let st := fieldLE b 0x0A 1
  { m with
      owner := some t, queue := [], save := save, epi := epiOf b, mstat := BitVec.ofNat 13 (fieldLE b 0x48 8),
      t0 := tileFrom b (fieldLE b 2 1) (fieldLE b 8 1) (st % 4) 0x1000 ep reduced,
      t1 := tileFrom b (fieldLE b 3 1) (fieldLE b 9 1) (st / 4 % 4) 0x21000 ep reduced }

/-! ### The element-wise save area (Table 6.14) -/

/-- The 65 KiB of a core's element-wise state. -/
def Ew.image (e : Ew) (epoch : Nat) : List Byte :=
  natLE 2 1 ++ natLE 2 (e.rows + 256 * e.cols) ++ natLE 4 0 ++ natLE 4 epoch ++ natLE 4 0 ++ natLE 8 e.estat.toNat ++ natLE 8 0 ++
    (List.range 8).flatMap (fun n => natLE 8 (tabGet slotZero e.slots n).toNat) ++ List.replicate 32 0 ++
    (match e.prog with | some b => b | none => List.replicate 384 0) ++ List.replicate 0x200 0 ++
    (List.range 65536).map fun i => tabGet tileZero e.tiles i

/-- The element-wise state from its save area. -/
def ewFrom (b : List Byte) (t : Tid) (save : W64) : Ew :=
  let st := fieldLE b 0x10 8
  { owner := some t, tiles := putTile [] 0 (sliceB b 0x400 65536), rows := fieldLE b 2 1 % 64, cols := fieldLE b 3 1,
    slots := (List.range 8).foldl (fun x n => tabSet slotZero x n (BitVec.ofNat 64 (fieldLE b (0x20 + 8 * n) 8))) [],
    eflags := BitVec.ofNat 5 st, errTile := bitAt st 5, pending := bitAt st 6, errReg := bitsOf st 15 12,
    prog := if bitAt st 7 then some (sliceB b 0x80 384) else none, save := save, queue := [], packed := none }

/-! ### TSAVE -/

/-- The addresses of the engine save areas of a thread, with their lengths. -/
def State.engineAreas (s : State) (x : Tid) : List (Nat × Nat) :=
  (match s.ownMat x with | some m => [(m.save.toNat, 0x41000)] | none => []) ++
    (match s.ownEw x with | some e => [(e.save.toNat, 0x10400)] | none => [])

/-- The engine images of a thread at their addresses. -/
def State.engineImages (s : State) (x : Tid) : List (Nat × List Byte) :=
  let ep := s.fld fMode_A_EPOCH
  (match s.ownMat x with | some m => [(m.save.toNat, m.image ep)] | none => []) ++
    (match s.ownEw x with | some e => [(e.save.toNat, e.image ep)] | none => [])

/-- The engines and the context of a saved thread are free: the launch keeps counting it. -/
def State.savedAway (s : State) (x : Tid) : State := (s.releaseEngines x).freeCtx x

/-- Images written one after another at job level. -/
def State.writeImages (s : State) (x : Tid) : List (Nat × List Byte) → MRes × State
  | [] => (.ok [], s)
  | (va, bs) :: rest =>
    match s.vwrite (engAgt x) va bs with
    | (.ok _, s1) => s1.writeImages x rest
    | r => r

/-- An outcome of the thread's own area as a fault of the issuing thread. -/
def areaFault (s : State) (va : W64) (r : MRes) : TRes := readFault s va r

/-- The element-wise queue of a thread to be saved: once its TSAVE has waited for it, it has run empty (R148). -/
def State.ewQuiet (s : State) (t x : Tid) : State :=
  match s.ownEw x with
  | some e => if (s.ctx t).instr.isSome then s.ewProgress (ewCore x) (e.need .drained) else s
  | none => s

/-- The save of a FAULTED thread once its engines and stores are quiet. The spec names no reaction to an area that is not aligned:
the thread's own raises MISALIGNED (DESIGN CHOICE, assumption log 112), an engine's ENGINE_BUSY_SAVE (DESIGN CHOICE, assumption
log 113). -/
def State.saveThread (s : State) (t x : Tid) (va : W64) : TRes :=
  if va.toNat % 8192 ≠ 0 then .fault s { code := 0x20, va := va }
  else if (s.ownMat x).any Matrix.working ∨ s.storesOut x ∨ (s.ownEw x).any (fun e => !e.queue.isEmpty) then .wait s .cond
  else if (s.engineAreas x).any (fun a => a.1 % 4096 != 0) then .fault s { code := 0x25 }
  else match s.probeRanges .jobLevel .store (s.engineAreas x) with
    | (.fault _ _, s1) => .fault s1 { code := 0x25 }
    | (.stall, s1) => .wait s1 .access
    | (.ok, s1) =>
      match s1.vprobe (s1.whoOf t) .store va.toNat 8192 with
      | (.ok _, s2) =>
        match s2.writeImages x (s2.engineImages x) with
        | (.ok _, s3) =>
          match s3.writeParts (s3.agtOf t) va.toNat (s3.savePieces x) with
          | (.ok _, s4) => .done (s4.savedAway x)
          | (r, s4) => areaFault s4 va r
        | (.stall, s3) => .wait s3 .access
        | (_, s3) => .fault s3 { code := 0x25 }
      | (r, s2) => areaFault s2 va r

/-- TSAVE: the context is not IDLE between its faults, so the thread named must be FAULTED. -/
def execTsave (t : Tid) (a d : Reg) (s : State) : Host.Outcome State Fault Refusal :=
  .next (s.actOn t (.tsave t a d) a profSupWork (fun c => c.st == .faulted) fun s1 x =>
    (s1.ewQuiet t x).saveThread t x ((s1.ctx t).ga d))

/-! ### TRESTORE -/

/-- The engine images that a note names, read at job level. -/
def State.readImage (s : State) (t x : Tid) (n : Nat) : Option W64 → MRes × State
  | none => (.ok [], s)
  | some va => s.vread { engAgt x with read := .read t } va.toNat n

/-- The engines that a restored thread needs are free. While another thread owns one, TRESTORE waits in WAIT, as an instruction of the
engine would (DESIGN CHOICE, assumption log 114: R70 is silent). -/
def State.enginesFree (s : State) (x : Tid) (n : SaveNote) : Bool :=
  (n.mat.isNone || (s.mat x.groveOf).owner.isNone) && (n.ew.isNone || (s.ew (ewCore x)).owner.isNone)

/-- An image was saved under another epoch (R70). -/
def wrongEpoch (b : List Byte) (off epoch : Nat) : Bool := !b.isEmpty && fieldLE b off 4 != epoch

/-- The engines of a restored thread. -/
def State.putEngines (s : State) (x : Tid) (n : SaveNote) (bm be : List Byte) : State :=
  let s1 := match n.mat with
    | some va => s.setMat x.groveOf (matrixFrom bm x (s.flag fMode_A_CAP_MODE) va (s.mat x.groveOf))
    | none => s
  match n.ew with
  | some va => s1.setEw (ewCore x) (ewFrom be x va)
  | none => s1

/-- The restore of an area to an idle context. -/
def State.restoreThread (s : State) (t x : Tid) (va : W64) : TRes :=
  if va.toNat % 8192 ≠ 0 then .fault s { code := 0x20, va := va }
  else match s.vread (s.agtOf t) va.toNat 8192 with
    | (.ok b, s1) =>
      let n0 := noteOf (b.drop 0x280)
      let n := if x.kind = .grove then n0 else { n0 with mat := none, ew := none }
      let ep := s1.fld fMode_A_EPOCH
      if !s1.enginesFree x n then .wait s1 .cond
      else match s1.readImage t x 0x41000 n.mat with
        | (.ok bm, s2) =>
          match s2.readImage t x 0x10400 n.ew with
          | (.ok be, s3) =>
            if wrongEpoch bm 0x0C ep ∨ wrongEpoch be 0x08 ep then .fault s3 { code := 0x26 }
            else .done ((s3.setCtx x (ctxOf b x (s3.ctx t).job ep)).putEngines x n bm be)
          | (r, s3) => areaFault s3 (n.ew.getD 0) r
        | (r, s2) => areaFault s2 (n.mat.getD 0) r
    | (r, s1) => areaFault s1 va r

/-- TRESTORE. -/
def execTrestore (t : Tid) (a d : Reg) (s : State) : Host.Outcome State Fault Refusal :=
  .next (s.actOn t (.trestore t a d) a profSupWork (fun c => c.st == .idle) fun s1 x => s1.restoreThread t x ((s1.ctx t).ga d))

end Sys2Proof.Machine
end

