-- ==== Sys2Proof/Machine/CopyOps.lean ====
section
/-! DEFINITION. The in-stack copy engine: its ring, its descriptors, its lines (R202 to R206). -/

namespace Sys2Proof.Machine

/-! ### Rings of the job (R202, R213): shared by the copy and solver engines -/

/-- Entries of a ring as a power of two: 4 to 12, other values select 4. -/
def ringLog (n : Nat) : Nat := if 4 ≤ n ∧ n ≤ 12 then n else 4

/-- Bytes read by an engine: `none` is a ring error (a translation that faults, a line that is uncorrectable, a refused remote read),
with whether the read must wait. -/
def State.ringRead (s : State) (va n : Nat) : Option (List Byte) × Bool × State :=
  match s.vread unitAgt va n with
  | (.ok b, s1) => (some b, false, s1)
  | (.stall, s1) => (none, true, s1)
  | (_, s1) => (none, false, s1)

/-- A ring error: EN clear, RING of the page. -/
def State.ringError (s : State) (en : Fld) (page : Nat) : State := (s.setFlag en false).setFlag (fErr_RING page) true

/-- CONS stored in a ring's head, whose page then shows it: whether the store must wait (R46, R161); one that fails is a ring error. -/
def State.ringCons (s : State) (en cr : Fld) (page head cons : Nat) : Bool × State :=
  if cons = s.fld cr then (false, s)
  else match s.vwrite unitAgt (head + 8) (natLE 4 cons) with
    | (.ok _, s1) => (false, s1.setFld cr cons)
    | (.stall, s1) => (true, s.undo s1)
    | (_, s1) => (false, (s1.setFld cr cons).ringError en page)

/-- The entries that an engine may take: up to PROD as it was read last, and while step-boundary actions run no further than PROD
stood when the step-mark began (R17, R216). -/
def State.ringEnd (s : State) (prod : Nat) (d : RingDue) : Nat := if s.boundary then d.hold.getD prod else prod

/-- PROD as it stands in memory, for the fence of a step-mark; as read last where it cannot be read now. -/
def State.peekProd (s : State) (head prod : Nat) : Nat :=
  match (s.vread unitAgt head 4).1 with
  | .ok b => leNat b
  | _ => prod

/-! ### The ring of a stack -/

/-- The page of a stack's copy engine. -/
def copyPage (n : Nat) : Nat := 0x0C6 + 8 * n

/-- The head's address. -/
def State.copyHead (s : State) (n : Nat) : Nat := s.fld (fCopy_CR_BASE n) * 64

/-- Entries of the ring. -/
def State.copyLen (s : State) (n : Nat) : Nat := 2 ^ ringLog (s.fld (fCopy_LOG2N n))

/-- PROD read: a count above the ring's length, or a read that fails, is a ring error. -/
def State.copyReadProd (s : State) (n : Nat) : State :=
  match s.ringRead (s.copyHead n) 4 with
  | (some b, _, s1) =>
    let prod := leNat b
    if s1.copyLen n < (prod + 2 ^ 32 - s1.fld (fCopy_CR_CONS n)) % 2 ^ 32 then s1.ringError (fCopy_EN n) (copyPage n)
    else s1.modStk n fun x => { x with copyProd := prod, due := { x.due with head := 0 } }
  | (none, wait, s1) =>
    if wait then s1.modStk n fun x => { x with due := { x.due with head := 1 } } else s1.ringError (fCopy_EN n) (copyPage n)


/-! ### Descriptors (Tables 8.8, 8.9) -/

/-- ACTIVE follows the descriptors in progress. -/
def State.syncCopy (s : State) (n : Nat) : State := s.setFld (fCopy_ACTIVE n) (s.stk n).copies.length

/-- EN of the ring set: the head is read, CONS and PROD (R211). Descriptors in progress go on, and are not taken again. -/
def State.copyEnable (s : State) (n : Nat) : State :=
  match s.ringRead (s.copyHead n + 8) 4 with
  | (some b, _, s1) =>
    (((if (s1.stk n).copies.isEmpty ∧ !(s1.stk n).due.cons then
        (s1.setFld (fCopy_CR_CONS n) (leNat b)).modStk n fun x => { x with copyProd := leNat b, copyNext := leNat b }
      else s1).modStk n fun x => { x with due := { x.due with head := 0 } }).syncCopy n).copyReadProd n
  | (none, wait, s1) =>
    if wait then s1.modStk n fun x => { x with due := { x.due with head := 2 } } else s1.ringError (fCopy_EN n) (copyPage n)

/-- COPY_RING_PROD: PROD has changed; the near cores of the stack wake (R379). The whole head is read where that read still waits. -/
def execCopyRingProd (st : Fin 8) (s : State) : Host.Outcome State Fault Refusal :=
  .next (if s.flag (fCopy_EN st) ∧ !s.flag fSafe_SAFE then
    let s1 := s.wakeUnit (0x0C4 + 8 * st.val)
    if (s.stk st).due.head = 2 then s1.copyEnable st else s1.copyReadProd st
  else s)

/-- A descriptor changed by its ring index. -/
def State.modCopyJob (s : State) (n idx : Nat) (f : CopyJob → CopyJob) : State :=
  s.modStk n fun x => { x with copies := x.copies.map fun c => if c.idx = idx then f c else c }

/-- Codes 0x01 to 0x03, checked before any line. -/
def State.copyRefusal (s : State) (d : List Byte) : Nat :=
  let src := fieldLE d 0 8
  let dst := fieldLE d 8 8
  let len := fieldLE d 16 8
  let b1A := fieldLE d 0x1A 1
  if fieldLE d 0x18 2 / 4096 ≠ 0 ∨ 2 ≤ b1A ∨ fieldLE d 0x1B 1 ≠ 0 ∨ fieldLE d 0x1C 4 &&& 0xFF0000FC ≠ 0 ∨ leNat (sliceB d 0x28 24) ≠ 0 ∨ src % 64 ≠ 0 ∨ dst % 64 ≠ 0 ∨
      len = 0 ∨ 2 ^ 40 < len ∨ len % 64 ≠ 0 then 1
  else if src < dst + len ∧ dst < src + len then 2
  else if bitAt b1A 0 ∧ !(s.fab.cnts.contains (fieldLE d 0x18 2 % 4096) && s.jobRuns) then 3
  else 0

/-- A line of a copy: its outcome is a copied or skipped line, a stop with its code and XCODE, or a wait. -/
inductive LineRes where
  | done
  | stop (code xcode : Nat)
  | stall
  deriving DecidableEq, Repr

/-- A translation of the copy engine at a line. -/
inductive LineAt where
  | key (k : Nat)
  | stop (code xcode : Nat)
  | stall
  deriving DecidableEq, Repr

/-- One side of a line: a view range or another target is TARGET, a failed translation XLATE. -/
def State.copySide (s : State) (va : Nat) (k : AKind) : LineAt × State :=
  if (s.viewAt va).isSome then (.stop 6 0, s)
  else match s.xlatePage .engine va k with
    | (.ok (.dram key), s1) => if k.writes && s1.protectedKey key 64 then (.stop 4 0x13, s1) else (.key key, s1)
    | (.ok _, s1) => (.stop 6 0, s1)
    | (.fault c, s1) => (.stop 4 c, s1)
    | (.stall, s1) => (.stall, s1)

/-- A line copied from key to key at their home: a full-line write, or the poison pattern. Its read consumes nothing (R155). -/
def State.copyLine (s : State) (src dst : Nat) : State :=
  let (good, s1) := (s.prepLines src 64 false .inStack).takeLine (src / 64)
  let bs := s1.dramBytes src 64
  let s2 := s1.prepLines dst 64 true .inStack
  let s3 := if good then s2.writeFull (dst / 64) bs else s2.writePoison (dst / 64) bs
  (s3.dirtyGran (dst / 4096)).notify (dst / 64)

/-- The line at an offset of a descriptor (R203, R204). -/
def State.copyAt (s : State) (n src dst : Nat) : LineRes × State :=
  match s.copySide src .load with
  | (.stop c x, s1) => (.stop c x, s1)
  | (.stall, s1) => (.stall, s1)
  | (.key k, s1) =>
    if keyStack k ≠ n then (.done, s1)
    else match s1.copySide dst .store with
      | (.stop c x, s2) => (.stop c x, s2)
      | (.stall, s2) => (.stall, s2)
      | (.key k', s2) =>
        if keyStack k' ≠ n then (.stop 5 0, s2)
        else if s2.accessStalled k 64 false ∨ s2.accessStalled k' 64 true then (.stall, s2.noteStall k')
        else (.done, s2.copyLine k k')

/-- Lines copied in ascending order until the end, a stop or a wait. -/
def State.copyLines (s : State) (n idx src dst : Nat) : Nat → Nat → State
  | 0, off => s.modCopyJob n idx fun c => { c with off := off, ended := true }
  | m + 1, off =>
    match s.copyAt n (src + off) (dst + off) with
    | (.done, s1) => s1.copyLines n idx src dst m (off + 64)
    | (.stop c x, s1) => s1.modCopyJob n idx fun j => { j with off := off, code := c, xcode := x, ended := true }
    | (.stall, s1) => s1.modCopyJob n idx fun j => { j with off := off }

/-- A descriptor in progress goes on: its fields are read, and checked before its first line. -/
def State.copyRun (s : State) (n : Nat) (c : CopyJob) : State :=
  match s.ringRead c.va.toNat 64 with
  | (some d, _, s1) =>
    let bad := if c.off = 0 then s1.copyRefusal d else 0
    if bad ≠ 0 then s1.modCopyJob n c.idx fun j => { j with code := bad, ended := true }
    else
      let len := fieldLE d 16 8
      s1.copyLines n c.idx (fieldLE d 0 8) (fieldLE d 8 8) ((len - c.off) / 64) c.off
  | (none, wait, s1) =>
    if wait then s1
    else (s1.modStk n fun x => { x with copies := x.copies.filter fun j => j.idx != c.idx }).ringError (fCopy_EN n) (copyPage n)

/-- The next entry of the ring is taken, at most four at a time (R205). -/
def State.copyTake (s : State) (n : Nat) : State :=
  let x := s.stk n
  if 4 ≤ x.copies.length ∨ x.copyNext = s.ringEnd x.copyProd x.due ∨ !s.flag (fCopy_EN n) then s
  else
    let c : CopyJob := { va := BitVec.ofNat 64 (s.copyHead n + 64 + 64 * (x.copyNext % s.copyLen n)), idx := x.copyNext, off := 0,
                         code := 0, xcode := 0, ended := false }
    ((s.modStk n fun y => { y with copies := y.copies ++ [c], copyNext := (y.copyNext + 1) % 2 ^ 32 }).copyRun n c).syncCopy n

/-- A unit of a cut with memory in the stack is still to be copied (R205, R334, Table 8.14: SNAP). -/
def State.snapHere (s : State) (n : Nat) : Bool := s.snp.units.any fun u => u.grans.any fun g => keyStack (g * 4096) == n

/-- COPY_DESCRIPTOR: a descriptor that waited for a stack or a unit goes on; otherwise the next one starts. Snapshot copies take
precedence (R205). -/
def execCopyDescriptor (st : Fin 8) (s : State) : Host.Outcome State Fault Refusal :=
  .next (if s.flag fSafe_SAFE ∨ s.snapHere st then s
  else match (s.stk st).copies.find? fun c => !c.ended with
    | some c => (s.copyRun st c).syncCopy st
    | none => s.copyTake st)

/-- STATUS of an ended descriptor (Table 8.8). -/
def CopyJob.status (c : CopyJob) : Nat :=
  if c.code = 0 then 1 else 2 + c.code * 256 + (if c.code = 4 then c.xcode * 65536 else 0)

/-- CONS passes the entries before the oldest descriptor in progress. -/
def State.copyCons (s : State) (n : Nat) : State :=
  let x := s.stk n
  let old := s.fld (fCopy_CR_CONS n)
  let dist := fun i => (i + 2 ^ 32 - old) % 2 ^ 32
  let cons := x.copies.foldl (fun m c => if dist c.idx < dist m then c.idx else m) x.copyNext
  let (wait, s1) := s.ringCons (fCopy_EN n) (fCopy_CR_CONS n) (copyPage n) (s.copyHead n) cons
  if wait ∨ x.due.cons then s1.modStk n fun y => { y with due := { y.due with cons := wait } } else s1

/-- What the ring of a stack still owes is tried again. -/
def State.copyRetry (s : State) (n : Nat) : State :=
  let d := (s.stk n).due
  let s1 := if d.cons then s.copyCons n else s
  if d.head = 0 ∨ !s.flag (fCopy_EN n) then s1
  else
    let s2 := s1.modStk n fun x => { x with due := { x.due with head := 0 } }
    if d.head = 1 then s2.copyReadProd n else s2.copyEnable n

/-- The work of a ring that was released before the step-mark has ended (R17): every descriptor in progress, and those that EN lets the
engine take. -/
def State.copyQuiet (s : State) (n : Nat) : Bool :=
  let x := s.stk n
  x.copies.isEmpty && !x.due.cons &&
    (!s.flag (fCopy_EN n) || (x.due.head == 0 && x.copyNext == x.due.hold.getD x.copyNext))

/-- A step-mark begins: the fence will wait for the entries released before it. -/
def State.copyMark (s : State) (n : Nat) : State :=
  if s.flag (fCopy_EN n) then
    s.modStk n fun x => { x with due := { x.due with hold := some (s.peekProd (s.copyHead n) x.copyProd) } }
  else s

/-- COPY_DESCRIPTOR_DONE: STATUS, and STOP_OFF if the copy stopped, then the counter, then CONS. A status write that faults is a
ring error. -/
def execCopyDescriptorDone (st : Fin 8) (s : State) : Host.Outcome State Fault Refusal :=
  .next (match (s.stk st).copies.find? fun c => c.ended with
    | none => s
    | some c =>
      match s.ringRead c.va.toNat 64 with
      | (some d, _, s1) =>
        let bytes := natLE 4 c.status ++ (if c.code = 0 then [] else natLE 8 c.off)
        (match s1.vwrite unitAgt (c.va.toNat + 0x1C) bytes with
         | (.stall, s2) => s2
         | (r, s2) =>
           let s3 := match r with | .ok _ => s2 | _ => s2.ringError (fCopy_EN st) (copyPage st)
           let s4 := (s3.modStk st fun x => { x with copies := x.copies.filter fun j => j.idx != c.idx }).syncCopy st
           let s5 := if bitAt (fieldLE d 0x1A 1) 0 ∧ s4.fab.cnts.contains (fieldLE d 0x18 2 % 4096) then
               s4.addCounter (fieldLE d 0x18 2 % 4096) 1 false else s4
           s5.copyCons st)
      | (none, wait, s1) =>
        if wait then s1
        else ((s1.modStk st fun x => { x with copies := x.copies.filter fun j => j.idx != c.idx }).syncCopy st).ringError
          (fCopy_EN st) (copyPage st))

end Sys2Proof.Machine
end

