-- ==== Sys2Proof/Machine/HostMem.lean ====
section
/-! DEFINITION. Host requests to device memory, the Viral and host-lost states (R354 to R356, R359, R360). -/

namespace Sys2Proof.Machine

/-! ### Viral and host-lost (R360) -/

/-- The CXL page. -/
def cxlPage : Nat := 0x030

/-- Modified host lines are discarded and counted; none is held any more. -/
def State.dropHostLines (s : State) : State :=
  let n := (s.mem.hostLines.filter fun e => e.2.modified).length
  ({ s with mem := { s.mem with hostLines := [] } }).setFld fCxl_HOST_LINES_LOST (s.fld fCxl_HOST_LINES_LOST + n)

/-- The Viral state entered: counted, host lines lost. -/
def State.setViral (s : State) : State :=
  if s.flag fCxl_VIRAL then s else ((s.setFlag fCxl_VIRAL true).addSat fCxl_VIRALS 1).dropHostLines

/-- The newest fault record. -/
def State.lastRecord (s : State) : List Byte := s.barBytes (faultSlot (s.fld fSafe_LOG_SEQ)) 64

/-- Viral under R359: the state, and a Fatal event record with the newest fault record (Table 15.9). -/
def State.enterViral (s : State) : State := (s.setViral).event logFatal .viral 0 0 s.lastRecord

/-- The host-lost state: host lines lost, and snoops that will not be answered. -/
def State.loseHost (s : State) : State :=
  (({ s with mem := { s.mem with bi := [] } }).setFlag fCxl_HOST_LOST true).dropHostLines

/-- The host is cut off from device memory (R360). -/
def State.hostCut (s : State) : Bool := s.flag fCxl_VIRAL || s.flag fCxl_HOST_LOST

/-! ### Device memory (R354) -/

/-- H in bytes. -/
def State.hdmBytes (s : State) : Nat := (640 - 8 * s.rsvGib) * 2 ^ 30

/-- The byte key of a device physical address: spread-aperture offset d. -/
def dpaKey (d : Nat) : Nat := (decodeSpread d).1 * 2 ^ 37 + (decodeSpread d).2

/-- The HDM decoder brings a request to device memory. -/
def State.hdmHit (s : State) (d n : Nat) : Bool := s.flag fCxl_MEM_EN && decide (d + n ≤ min s.host.hdmSize s.hdmBytes)

/-- The error word of R359. -/
def viralWord : Nat := 0x7FF8E00000000F0C

/-- Error words for a read of `n` bytes from `d`. -/
def viralBytes (d n : Nat) : List Byte := (List.range n).map fun i => (natLE 8 viralWord).getD ((d + i) % 8) 0

/-- One line's part of a host read: its bytes, or error words with the entry into Viral. -/
def State.hostReadLine (s : State) (own : Bool) (d n : Nat) : List Byte × State :=
  match s.homeRead (if own then .host else .none) (dpaKey d) n with
  | (some b, s1) => (b, s1)
  | (none, s1) => (viralBytes d n, s1.enterViral)

/-- A host read line by line. -/
def State.hostReadLines (s : State) (own : Bool) : List (Nat × Nat) → List Byte × State
  | [] => ([], s)
  | (d, n) :: rest =>
    let (b, s1) := s.hostReadLine own d n
    let (b', s2) := s1.hostReadLines own rest
    (b ++ b', s2)

/-- The agent a host write acts as: a holder that has the line keeps it. -/
def State.hostHolder (s : State) (key : Nat) : Holder := if (s.dir (key / 64)).host then .host else .none

/-- A host write of bytes within a line (R356). -/
def State.hostWriteLine (s : State) (d : Nat) (bs : List Byte) (poison : Bool) : State :=
  let key := dpaKey d
  if s.protectedKey key bs.length then
    ((s.inc fCxl_PROT_DROP).inc fEqx_PROT_DROP).event logWarn .hostWriteDrop (BitVec.ofNat 64 (dpaOf key)) 0 []
  else if poison then
    (((((s.prepLines (key / 64 * 64) 64 true (s.hostHolder key)).writePoison (key / 64) bs).dirtyGran (key / 4096)).notify
      (key / 64)).inc fCxl_POISON_IN)
  else s.homeWrite (s.hostHolder key) key bs

/-- The lines of a host request. -/
def HReq.lines (r : HReq) : List Nat := (linePieces r.dpa r.len).map fun p => dpaKey p.1 / 64

/-- The lines of another package's request. -/
def HomeReq.lines (r : HomeReq) : List Nat := linesOf r.key (reqBytes r.cmd r.len r.aw r.data.length)

/-- A request to one of the lines waits at its home already: a later one waits behind it (R161, R181). -/
def State.behind (s : State) (ls : List Nat) : Bool :=
  s.fab.homes.any (fun r => r.lines.any ls.contains) || s.host.reqs.any fun r => r.lines.any ls.contains

/-- A request's lines wait for a stack, a pseudo-channel or a protected unit. -/
def State.hostStalled (s : State) (r : HReq) : Bool := (linePieces r.dpa r.len).any fun p => s.accessStalled (dpaKey p.1) p.2 r.write

/-- A host request performed, or completed as R360 has it. -/
def State.hostServe (s : State) (r : HReq) : State :=
  if r.write then
    if s.hostCut then s
    else (linePieces r.dpa r.len).foldl (fun t p => t.hostWriteLine p.1 (sliceB r.data (p.1 - r.dpa) p.2) r.poison) s
  else if s.hostCut then s.answer (.bytes (viralBytes r.dpa r.len))
  else
    let (b, s1) := s.hostReadLines r.own (linePieces r.dpa r.len)
    s1.answer (.bytes b)

/-- The waiting request is gone. -/
def State.dropHReq (s : State) (id : Nat) : State := { s with host := { s.host with reqs := s.host.reqs.filter fun r => r.id != id } }

/-- Host requests that wait are completed once the host is cut off (R360). -/
def State.cutHost (s : State) : State := s.host.reqs.foldl (fun t r => (t.dropHReq r.id).hostServe r) s

/-- A host request arrives: performed, or it waits. -/
def State.hostRequest (s : State) (r : HReq) : State :=
  if !s.hostCut && (s.hostStalled r || s.behind r.lines) then
    let s1 := if r.write then (linePieces r.dpa r.len).foldl (fun t p => t.noteStall (dpaKey p.1)) s else s
    { s1 with host := { s1.host with reqs := s1.host.reqs ++ [{ r with id := s1.host.nextReq, place := s1.fab.nextId }],
                                     nextReq := s1.host.nextReq + 1 },
              fab := { s1.fab with nextId := s1.fab.nextId + 1 } }
  else s.hostServe r

end Sys2Proof.Machine
end

