-- ==== Sys2Proof/Machine/Ring.lean ====
section
/-! DEFINITION. The host ring and the ring service (R361, R362, Tables 15.4, 15.5, 15.11). -/

namespace Sys2Proof.Machine

/-- The ring page. -/
def hringPage : Nat := 0x031

/-- Entries of the ring: LOG2N 4 to 12, other values select 4. -/
def State.hringLen (s : State) : Nat :=
  let n := s.fld fRing_LOG2N
  2 ^ (if 4 ≤ n ∧ n ≤ 12 then n else 4)

/-- The device physical address of the head. -/
def State.hringHead (s : State) : Nat := s.fld fRing_HRING_BASE * 4096

/-- The device physical address of entry `i`. -/
def State.hringEntry (s : State) (i : Nat) : Nat := s.hringHead + 128 + 128 * (i % s.hringLen)

/-- The ring lies wholly below H. -/
def State.hringFits (s : State) : Bool := decide (s.hringHead + 128 + 128 * s.hringLen ≤ s.hdmBytes)

/-- A ring error: EN cleared, RING set. -/
def State.hringError (s : State) : State := (s.setFlag fRing_EN false).setFlag (fErr_RING hringPage) true

/-- What a read of the service gives: bytes, a wait at the home, or an uncorrectable line. -/
inductive RingRes where
  | ok (b : List Byte)
  | wait
  | bad
  deriving DecidableEq, Repr

/-- A read by the service, performed at the home. -/
def State.hringRead (s : State) (d n : Nat) : RingRes × State :=
  if s.accessStalled (dpaKey d) n false then (.wait, s)
  else match s.homeRead .none (dpaKey d) n with
    | (some b, s1) => (.ok b, s1)
    | (none, s1) => (.bad, s1)

/-- A write by the service, performed at the home. -/
def State.hringWrite (s : State) (d : Nat) (bs : List Byte) : State := s.homeWrite .none (dpaKey d) bs

/-- What of the head is still to be read. -/
def State.ringOwes (s : State) (n : Nat) : State := { s with host := { s.host with ringDue := n } }

/-- PROD read: more entries than the ring holds are a ring error. A read that must wait is made later, after that of CONS. -/
def State.hringProd (s : State) : State :=
  if s.host.ringDue = 2 then s
  else match s.hringRead s.hringHead 4 with
  | (.wait, s1) => s1.ringOwes 1
  | (.bad, s1) => s1.hringError
  | (.ok b, s1) =>
    if s1.hringLen < (leNat b + 2 ^ 32 - s1.fld fRing_HR_CONS) % 2 ^ 32 then s1.hringError
    else { s1 with host := { s1.host with ringProd := leNat b, ringDue := 0 } }

/-- The head read, CONS and PROD. -/
def State.hringHeadRead (s : State) : State :=
  match s.hringRead (s.hringHead + 8) 4 with
  | (.wait, s1) => s1.ringOwes 2
  | (.bad, s1) => s1.hringError
  | (.ok b, s1) => ({ s1.setFld fRing_HR_CONS (leNat b) with host := { s1.host with ringProd := leNat b, ringDue := 0 } }).hringProd

/-- A read of the head that had to wait is made again. -/
def State.hringRetry (s : State) : State :=
  if !s.flag fRing_EN ∨ s.host.ringDue = 0 then s else if s.host.ringDue = 2 then s.hringHeadRead else s.hringProd

/-- BAD_KIND (Table 15.5). -/
def ringBadKind (e : List Byte) : Bool :=
  let kind := fieldLE e 0 1
  let f := fieldLE e 1 1
  (kind != 1 && kind != 2) || decide (4 ≤ f) || decide (32 ≤ fieldLE e 2 1) || fieldLE e 3 1 != 0 || fieldLE e 6 2 != 0 ||
    decide (4 ≤ fieldLE e 0x18 1) || fieldLE e 0x1A 2 != 0 || (sliceB e 0x1C 0x24).any (· != 0) ||
    (kind == 2 && bitAt f 1 && decide (fieldLE e 2 1 < 5))

/-- The code with which an entry is refused, 0 for none. At a Job End every entry not yet taken has BAD_JOB (R366). -/
def State.ringCode (s : State) (e : List Byte) : Nat :=
  if s.host.jobEnding.isSome then 2 else if s.flag fSafe_SAFE then 3 else if ringBadKind e then 1 else if !s.jobRuns || s.jobId != fieldLE e 4 2 then 2 else 0

/-- An entry is taken: its word, then CONS past it. -/
def State.ringTaken (s : State) (word : Nat) : State :=
  let i := s.fld fRing_HR_CONS
  let s1 := (s.hringWrite (s.hringEntry i + 0x18) (natLE 4 word)).setFld fRing_HR_CONS (i + 1)
  (s1.hringWrite (s1.hringHead + 8) (natLE 4 (s1.fld fRing_HR_CONS))).inc fRing_ENTRIES

/-- An entry is refused. -/
def State.ringRefuse (s : State) (code : Nat) : State := (s.ringTaken (2 + code * 256)).setFld fRing_LAST_CODE code

/-- A LAUNCH entry: DESC issued by control thread 95, STATUS at offset 0x70, then DONE; none while its check waits. -/
def State.ringLaunch (s : State) (e : List Byte) : Option State :=
  let at_ := s.hringEntry (s.fld fRing_HR_CONS)
  let (code, l, s1) := s.launchVerdict (sliceB e 0x40 64) ⟨.control, 95⟩ true true none (dpaKey (at_ + 0x70))
  if code = noVerdict then none
  else
    let s2 := s1.hringWrite (at_ + 0x70) (natLE 8 (verdictWord code))
    some ((if code = 0 then s2.addLaunch l else s2).ringTaken 1)

/-- The service cannot write its next entry or the head now. -/
def State.ringBlocked (s : State) : Bool :=
  s.accessStalled (dpaKey (s.hringEntry (s.fld fRing_HR_CONS))) 128 true || s.accessStalled (dpaKey s.hringHead) 12 true

/-- The service pauses (R360); the refusals of safe stop and of a Job End go on. -/
def State.ringPaused (s : State) : Bool := s.hostCut && !s.flag fSafe_SAFE && s.host.jobEnding.isNone

/-- The next entry, when there is one and the service may read it. -/
def State.ringNext (s : State) : RingRes × State :=
  if !s.flag fRing_EN ∨ s.host.ringDue = 2 ∨ s.fld fRing_HR_CONS = s.host.ringProd ∨ s.ringBlocked ∨ s.ringPaused then (.wait, s)
  else s.hringRead (s.hringEntry (s.fld fRing_HR_CONS)) 128

/-- One entry taken by the service; none when it must stop: at the end, at a MARK, while it pauses, while a LAUNCH is held. -/
def State.ringStep (s : State) : Option State :=
  match s.ringNext with
  | (.wait, _) => none
  | (.bad, s1) => some s1.hringError
  | (.ok e, s1) =>
    let c := s1.ringCode e
    if c ≠ 0 then some (s1.ringRefuse c)
    else if fieldLE e 0 1 = 2 then none
    else if s1.boundary then none
    else s1.ringLaunch e

/-- Entries taken in ring order. -/
def State.ringRun (s : State) : Nat → State
  | 0 => s
  | fuel + 1 =>
    match s.ringStep with
    | some s1 => s1.ringRun fuel
    | none => s

/-- The ring service takes what it can; a Job End that waited for its entries may be over. -/
def State.ringService (s : State) : State := (s.hringRetry.ringRun 4097).jobOver

/-- A MARK's conditions (R362): with WAIT_END every thread of the ring's launches has ended; the host is reachable for its write. -/
def State.markReady (s : State) (e : List Byte) : Bool :=
  let f := fieldLE e 1 1
  (!bitAt f 0 || !(s.thr.launches.any fun l => l.ring && l.left != 0)) && (fieldLE e 8 8 == 0 || s.hostUp)

/-- A MARK performed: the value, DONE, the vector. -/
def State.ringMarkDone (s : State) (e : List Byte) : State :=
  let f := fieldLE e 1 1
  let s1 := if fieldLE e 8 8 = 0 then s else s.hostWrite (fieldLE e 8 8) (sliceB e 0x10 8)
  let s2 := s1.ringTaken 1
  if bitAt f 1 then s2.vector (fieldLE e 2 1 % 32) else s2

/-- EN set (R373): the head is read, CONS and PROD. -/
def State.hringEnable (s : State) : State := if !s.hringFits then s.hringError else s.hringHeadRead.ringService

/-- HOST_RING_PROD: PROD has changed. -/
def execHostRingProd (s : State) : Host.Outcome State Fault Refusal :=
  .next (if s.flag fRing_EN then s.hringProd.ringService else s)

/-- RING_MARK: a MARK at the front of the ring whose conditions hold; the entries behind it follow. -/
def execRingMark (s : State) : Host.Outcome State Fault Refusal :=
  .next (match s.ringNext with
    | (.ok e, s1) =>
      if s1.ringCode e = 0 ∧ fieldLE e 0 1 = 2 ∧ s1.markReady e then (s1.ringMarkDone e).ringService else s
    | _ => s)

end Sys2Proof.Machine
end

