-- ==== Sys2Proof/Machine/Solver.lean ====
section
/-! DEFINITION. The batched solver engine: its ring, jobs, systems, factor areas and status records (R212 to R235). -/

namespace Sys2Proof.Machine

/-! ### The engine and its ring (R213) -/

/-- An unlisted solver engine. -/
def solvDefault (_ : Nat) : Solv := Solv.idle

/-- Solver engine `q`. -/
def State.solv (s : State) (q : Nat) : Solv := tabGet solvDefault s.eng.solv q
/-- It set. -/
def State.setSolv (s : State) (q : Nat) (x : Solv) : State := { s with eng := { s.eng with solv := tabSet solvDefault s.eng.solv q x } }
/-- It changed. -/
def State.modSolv (s : State) (q : Nat) (f : Solv → Solv) : State := s.setSolv q (f (s.solv q))
/-- Its job changed. -/
def State.modSJob (s : State) (q : Nat) (f : SJob → SJob) : State := s.modSolv q fun x => { x with job := x.job.map f }

/-- Its page. -/
def solvPage (q : Nat) : Nat := 0x080 + q

/-- The head's address. -/
def State.solvHead (s : State) (q : Nat) : Nat := s.fld (fSolv_JR_BASE q) * 128

/-- Entries of its ring. -/
def State.solvLen (s : State) (q : Nat) : Nat := 2 ^ ringLog (s.fld (fSolv_LOG2N q))

/-- A ring error of the engine. -/
def State.solvRingErr (s : State) (q : Nat) : State := s.ringError (fSolv_EN q) (solvPage q)

/-- PROD read. -/
def State.solvReadProd (s : State) (q : Nat) : State :=
  match s.ringRead (s.solvHead q) 4 with
  | (some b, _, s1) =>
    let prod := leNat b
    if s1.solvLen q < (prod + 2 ^ 32 - s1.fld (fSolv_JR_CONS q)) % 2 ^ 32 then s1.solvRingErr q
    else s1.modSolv q fun x => { x with prod := prod, due := { x.due with head := 0 } }
  | (none, wait, s1) =>
    if wait then s1.modSolv q fun x => { x with due := { x.due with head := 1 } } else s1.solvRingErr q

/-- EN of the ring set: the head is read, CONS and PROD (R235). A job in progress goes on, and its entry is not taken again. -/
def State.solvEnable (s : State) (q : Nat) : State :=
  match s.ringRead (s.solvHead q + 8) 4 with
  | (some b, _, s1) =>
    ((if (s1.solv q).job.isNone ∧ !(s1.solv q).due.cons then
        (s1.setFld (fSolv_JR_CONS q) (leNat b)).modSolv q fun x => { x with prod := leNat b, next := leNat b }
      else s1).modSolv q fun x => { x with due := { x.due with head := 0 } }).solvReadProd q
  | (none, wait, s1) =>
    if wait then s1.modSolv q fun x => { x with due := { x.due with head := 2 } } else s1.solvRingErr q

/-- SOLVER_RING_PROD: PROD has changed; a gated engine wakes (R379). The whole head is read where that read still waits. -/
def execSolverRingProd (q : Fin 64) (s : State) : Host.Outcome State Fault Refusal :=
  .next (if s.flag (fSolv_EN q) ∧ !s.flag fSafe_SAFE then
    let s1 := s.wakeUnit (solvPage q)
    if (s.solv q).due.head = 2 then s1.solvEnable q else s1.solvReadProd q
  else s)

/-- CONS passes the entries whose jobs have completed. -/
def State.solvCons (s : State) (q : Nat) : State :=
  let x := s.solv q
  let (wait, s1) := s.ringCons (fSolv_EN q) (fSolv_JR_CONS q) (solvPage q) (s.solvHead q)
    (match x.job with | some j => j.idx | none => x.next)
  if wait ∨ x.due.cons then s1.modSolv q fun y => { y with due := { y.due with cons := wait } } else s1

/-- What the ring of an engine still owes is tried again. -/
def State.solvRetry (s : State) (q : Nat) : State :=
  let d := (s.solv q).due
  let s1 := if d.cons then s.solvCons q else s
  if d.head = 0 ∨ !s.flag (fSolv_EN q) then s1
  else
    let s2 := s1.modSolv q fun x => { x with due := { x.due with head := 0 } }
    if d.head = 1 then s2.solvReadProd q else s2.solvEnable q

/-- Every job released before the step-mark has ended (R216): the one in progress, and those that EN lets the engine take. -/
def State.solvQuiet (s : State) (q : Nat) : Bool :=
  let x := s.solv q
  x.job.isNone && !x.due.cons && (!s.flag (fSolv_EN q) || (x.due.head == 0 && x.next == x.due.hold.getD x.next))

/-- A step-mark begins: the fence will wait for the jobs released before it. -/
def State.solvMark (s : State) (q : Nat) : State :=
  if s.flag (fSolv_EN q) then
    s.modSolv q fun x => { x with due := { x.due with hold := some (s.peekProd (s.solvHead q) x.prod) } }
  else s

/-! ### The descriptor (Tables 9.2, 9.3) -/

/-- The shape of a descriptor's systems. -/
def descShape (d : List Byte) : Shape :=
  { cls := fieldLE d 0 1 % 4, n := fieldLE d 4 2 % 32768, klb := fieldLE d 2 1 % 128, ku := fieldLE d 3 1 % 128,
    nrhs := fieldLE d 1 1 % 32 }

/-- MODE. -/
def descMode (d : List Byte) : Nat := bitsOf (fieldLE d 0 1) 4 2
/-- COUNT. -/
def descCount (d : List Byte) : Nat := fieldLE d 8 4
/-- NTERMS. -/
def descTerms (d : List Byte) : Nat := fieldLE d 0x18 4
/-- The bases and strides, by offset. -/
def descAt (d : List Byte) (o : Nat) : Nat := fieldLE d o 8

/-- BAD_FORMAT. -/
def solvBadFormat (d : List Byte) : Bool :=
  decide (64 ≤ fieldLE d 0 1) || decide (5 ≤ descMode d) || decide (32 ≤ fieldLE d 1 1) || decide (128 ≤ fieldLE d 2 1) ||
    decide (128 ≤ fieldLE d 3 1) || decide (32768 ≤ fieldLE d 4 2) || decide (16 ≤ fieldLE d 6 1) || decide (128 ≤ fieldLE d 7 1) ||
    fieldLE d 7 1 == 0 || decide (2 ^ 25 ≤ fieldLE d 8 4) || bitsOf (fieldLE d 0xC 2) 14 12 != 0 || fieldLE d 0xE 2 != 0 ||
    fieldLE d 0x1C 4 != 0 || (descShape d).nrhs == 0 || decide (16 < (descShape d).nrhs) ||
    (match Dy.ofBits (descAt d 0x60) with | none => true | some v => decide (v.m < 0)) ||
    (descMode d == 2 && fieldLE d 6 1 == 0) || descAt d 0x10 % 8 != 0 || descAt d 0x20 % 8 != 0 || descAt d 0x30 % 8 != 0 ||
    descAt d 0x40 % 64 != 0 || descAt d 0x50 % 32 != 0

/-- A size rounded up to 64. -/
def pad64 (n : Nat) : Nat := ceilDiv n 64 * 64

/-- Bytes of the retained matrix. -/
def Shape.retBytes (h : Shape) : Nat := pad64 (12 * h.ents)
/-- Bytes of a factor slot. -/
def Shape.slotBytes (h : Shape) : Nat := pad64 (12 * h.facs + 2 * h.n)
/-- The minimum of FACT_STRIDE (Table 9.5). -/
def Shape.areaBytes (h : Shape) : Nat := 64 + h.retBytes + 2 * h.slotBytes

/-- BAD_SIZE; the terms, where they could be read. -/
def solvBadSize (d : List Byte) (ts : List Term) : Bool :=
  let h := descShape d
  !h.ok || descCount d == 0 || decide (2 ^ 24 < descCount d) || descTerms d == 0 || decide (2 ^ 20 < descTerms d) ||
    decide (descAt d 0x38 < 8 * h.n * h.nrhs) || (descMode d != 3 && decide (descAt d 0x28 < 8 * paramCount ts)) ||
    (descAt d 0x48 != 0 && decide (descAt d 0x48 < h.areaBytes))

/-- The regions that a job names, with the right that each needs: one range for each system where there is one per system. -/
def solvRegions (d : List Byte) (ts : List Term) : List (AKind × Nat × Nat) :=
  let h := descShape d
  let cnt := descCount d
  let upd := descMode d == 3
  let each := fun (k : AKind) base stride len => if len = 0 then [] else (List.range cnt).map fun i => (k, base + i * stride, len)
  [(AKind.load, descAt d 0x10, 16 * descTerms d * (if upd then cnt else 1))] ++
    each .load (descAt d 0x20) (descAt d 0x28) (if upd then 0 else 8 * paramCount ts) ++
    each .store (descAt d 0x30) (descAt d 0x38) (8 * h.n * h.nrhs) ++
    (if descAt d 0x48 = 0 then [(AKind.store, descAt d 0x40, h.areaBytes)] else each .store (descAt d 0x40) (descAt d 0x48) h.areaBytes) ++
    [(AKind.store, descAt d 0x50, 32 * cnt), (AKind.store, descAt d 0x58, 4 * cnt)]

/-- The outcome of a check that may have to wait. -/
inductive Chk where
  | ok
  | bad
  | stall
  deriving DecidableEq, Repr

/-- Granules that must be local memory outside every view. -/
def State.localSegs (s : State) (k : AKind) : List (Nat × Nat) → Chk × State
  | [] => (.ok, s)
  | (va, n) :: rest =>
    if (s.viewAt va).isSome ∨ (s.viewAt (va + n - 1)).isSome then (.bad, s)
    else match s.xlatePage .engine va k with
      | (.ok (.dram key), s1) => if k.writes && s1.protectedKey key n then (.bad, s1) else s1.localSegs k rest
      | (.stall, s1) => (.stall, s1)
      | (_, s1) => (.bad, s1)

/-- Every region of a job. -/
def State.localRegions (s : State) : List (AKind × Nat × Nat) → Chk × State
  | [] => (.ok, s)
  | (k, va, n) :: rest =>
    match s.localSegs k (if n = 0 then [] else segments va n) with
    | (.ok, s1) => s1.localRegions rest
    | x => x

/-- The term table read line by line: the bytes of lines that are good. -/
def State.readTable (s : State) : List (Nat × Nat) → MRes × List (Option Byte) × State
  | [] => (.ok [], [], s)
  | (va, n) :: rest =>
    match s.vread unitAgt va n with
    | (.ok b, s1) =>
      let (r, bs, s2) := s1.readTable rest
      (r, b.map some ++ bs, s2)
    | (.uncorr, s1) =>
      let (r, bs, s2) := s1.readTable rest
      (match r with | .ok _ => .uncorr | x => x, List.replicate n none ++ bs, s2)
    | (r, s1) => (r, [], s1)

/-- The terms whose bytes are all good. -/
def goodTerms (bs : List (Option Byte)) (n : Nat) : List Term :=
  (List.range n).filterMap fun i =>
    let r := (bs.drop (16 * i)).take 16
    if r.length = 16 ∧ r.all Option.isSome then some (termOf (r.map fun b => b.getD 0)) else none

/-- The verdict on a job: its terms when it is accepted, a refusal code, or a wait. -/
inductive SVerdict where
  | accept (ts : List Term)
  | refuse (code : Nat)
  | stall
  deriving DecidableEq, Repr

/-- The checks in the order of Table 9.3 (R215). A term table that cannot be read is refused for that, once the checks before it have
passed on the terms that could. -/
def State.solvCheck (s : State) (d : List Byte) : SVerdict × State :=
  if solvBadFormat d then (.refuse 1, s)
  else
    let upd := descMode d == 3
    let n := if descTerms d = 0 ∨ 2 ^ 20 < descTerms d ∨ upd then 0 else descTerms d
    let (r, bs, s1) := s.readTable (if n = 0 then [] else linePieces (descAt d 0x10) (16 * n))
    let ts := goodTerms bs n
    match r with
    | .stall => (.stall, s1)
    | r =>
      if solvBadSize d ts then (.refuse 2, s1)
      else if !upd && !termsOk (descShape d) ts then (.refuse 3, s1)
      else if (descMode d = 1 ∨ descMode d = 2 ∨ upd) ∧ descAt d 0x48 = 0 then (.refuse 4, s1)
      else match s1.localRegions (solvRegions d ts) with
        | (.stall, s2) => (.stall, s2)
        | (.bad, s2) => (.refuse 5, s2)
        | (.ok, s2) =>
          if bitAt (fieldLE d 0xC 2) 15 ∧ !(s2.fab.cnts.contains (fieldLE d 0xC 2 % 4096) && s2.jobRuns) then (.refuse 6, s2)
          else match r with
            | .uncorr => (.refuse 7, s2)
            | .ok _ => (.accept ts, s2)
            | _ => (.refuse 5, s2)

/-- The address of the next ring entry. -/
def State.solvEntry (s : State) (q : Nat) : Nat := s.solvHead q + 128 + 128 * ((s.solv q).next % s.solvLen q)

/-- An error of the engine on an uncorrectable line (R233): the consumption has written its record. -/
def State.solvUe (s : State) (q : Nat) : State := s.setFlag (fErr_UE (solvPage q)) true

/-- A job taken: refused with its code, or begun. -/
def State.solvTake (s : State) (q va : Nat) (d : List Byte) : State :=
  match s.solvCheck d with
  | (.stall, s1) => s.undo s1
  | (.refuse c, s1) =>
    (match s1.vwrite unitAgt (va + 0x78) (natLE 4 (2 + c * 256)) with
     | (.stall, s2) => s.undo s2
     | (r, s2) =>
       let s3 := match r with | .ok _ => s2 | _ => s2.solvRingErr q
       let s4 := if c = 7 then s3.solvUe q else s3
       (((s4.modSolv q fun x => { x with next := (x.next + 1) % 2 ^ 32 }).inc (fSolv_JOBS q)).solvCons q))
  | (.accept ts, s1) =>
    let j : SJob := { va := BitVec.ofNat 64 va, idx := (s1.solv q).next, desc := d, terms := ts, next := 0, charge := 0, handoffs := 0,
                      epoch := BitVec.ofNat 32 (s1.fld fMode_A_EPOCH) }
    ((s1.modSolv q fun x => { x with next := (x.next + 1) % 2 ^ 32, job := some j }).setFlag (fSolv_ACTIVE q) true).setFlag
      (fSolv_HELD q) false

/-- SOLVER_JOB_START: the next entry of the ring is taken and checked. A gated engine wakes first; a job whose PROD was released after
the step-mark is held until the boundary actions complete (R216). -/
def execSolverJobStart (q : Fin 64) (s : State) : Host.Outcome State Fault Refusal :=
  let x := s.solv q
  .next (if s.flag fSafe_SAFE ∨ !s.flag (fSolv_EN q) ∨ x.job.isSome ∨ x.next = x.prod then s
  else if s.flag (fGated (solvPage q)) then s.wakeUnit (solvPage q)
  else if x.next = s.ringEnd x.prod x.due then s.setFlag (fSolv_HELD q) true
  else
    let va := s.solvEntry q
    match s.ringRead va 0x78 with
    | (some d, _, s1) => s1.solvTake q va d
    | (none, wait, s1) => if wait then s1 else s1.solvRingErr q)

/-! ### Factor areas (R224, R225) -/

/-- A 12-byte word. -/
def wordBytes (m : Int) : List Byte := natLE 12 (ofSInt 96 m)
/-- Its value. -/
def wordVal (b : List Byte) : Int := sInt 96 (leNat b)

/-- Where the model keeps a retained entry (assumption log 17). -/
def Shape.retIdx (h : Shape) (i j : Nat) : Nat :=
  match h.cls with
  | 0 => i * h.n + j
  | 1 => i * (h.klb + h.ku + 1) + (j + h.klb - i)
  | 2 => i * 3 + (j + 1 - i)
  | _ => (i / h.blk * 3 + (j / h.blk + 1 - i / h.blk)) * h.blk ^ 2 + i % h.blk * h.blk + j % h.blk

/-- Where the model keeps a factor entry. -/
def Shape.facIdx (h : Shape) (i j : Nat) : Nat :=
  match h.cls with
  | 0 => i * h.n + j
  | 1 => i * (2 * h.klb + h.ku + 1) + (j + h.klb - i)
  | 2 => i * 4 + (j + 1 - i)
  | _ => h.retIdx i j

/-- The columns of a row in the retained matrix. -/
def Shape.retCols (h : Shape) (i : Nat) : List Nat :=
  match h.cls with
  | 3 => ((List.range 3).filter fun c => decide (1 ≤ i / h.blk + c ∧ i / h.blk + c - 1 < h.n / h.blk)).flatMap fun c =>
      (List.range h.blk).map fun k => (i / h.blk + c - 1) * h.blk + k
  | 0 => List.range h.n
  | 1 => ((List.range (h.klb + h.ku + 1)).filter fun c => decide (h.klb ≤ i + c ∧ i + c - h.klb < h.n)).map fun c => i + c - h.klb
  | _ => ((List.range 3).filter fun c => decide (1 ≤ i + c ∧ i + c - 1 < h.n)).map fun c => i + c - 1

/-- The columns of a row in a factor slot. -/
def Shape.facCols (h : Shape) (i : Nat) : List Nat :=
  match h.cls with
  | 1 => ((List.range (2 * h.klb + h.ku + 1)).filter fun c => decide (h.klb ≤ i + c ∧ i + c - h.klb < h.n)).map fun c => i + c - h.klb
  | 2 => ((List.range 4).filter fun c => decide (1 ≤ i + c ∧ i + c - 1 < h.n)).map fun c => i + c - 1
  | _ => h.retCols i

/-- Words packed at their places. -/
def packRows (n bytes : Nat) (cols : Nat → List Nat) (idx : Nat → Nat → Nat) (a : Rows) : List Byte :=
  let cells : List (Nat × Int) := (List.range n).foldl (fun t i => (cols i).foldl (fun t j =>
    tabSet wordZero t (idx i j) (a.at_ i j)) t) []
  let total := bytes / 12
  let body := (List.range total).flatMap fun k => wordBytes (tabGet wordZero cells k)
  body ++ List.replicate (bytes - body.length) 0

/-- Words unpacked. -/
def unpackRows (n : Nat) (cols : Nat → List Nat) (idx : Nat → Nat → Nat) (b : List Byte) : Rows :=
  (List.range n).foldl (fun (r : Rows) i => (cols i).foldl (fun (r : Rows) j => r.put i j (wordVal (sliceB b (12 * idx i j) 12))) r) []

/-- A factor area's header (R225). -/
structure FHead where
  fp : Nat
  v0 : Bool
  v1 : Bool
  cur : Bool
  s : Int
  p : Int
  epoch : Nat
  step : Nat
  deriving DecidableEq, Repr

/-- The header from its bytes. -/
def headOf (b : List Byte) : FHead :=
  let f := fieldLE b 8 1
  { fp := fieldLE b 0 8, v0 := bitAt f 0, v1 := bitAt f 1, cur := bitAt f 2, s := sInt 16 (fieldLE b 10 2), p := sInt 16 (fieldLE b 12 2),
    epoch := fieldLE b 16 4, step := fieldLE b 24 8 }

/-- Its bytes. -/
def FHead.bytes (h : FHead) : List Byte :=
  natLE 8 h.fp ++ natLE 1 (h.v0.toNat + 2 * h.v1.toNat + 4 * h.cur.toNat) ++ natLE 1 0 ++ natLE 2 (ofSInt 16 h.s) ++
    natLE 2 (ofSInt 16 h.p) ++ natLE 2 0 ++ natLE 4 h.epoch ++ natLE 4 0 ++ natLE 8 h.step ++ List.replicate 32 0

/-- The current slot is valid. -/
def FHead.curValid (h : FHead) : Bool := if h.cur then h.v1 else h.v0

/-- A slot's bytes. -/
def slotOf (h : Shape) (f : Factor) : List Byte :=
  let words := packRows h.n (12 * h.facs) h.facCols h.facIdx f.lu
  let piv := (List.range h.n).flatMap fun k => natLE 2 (f.piv.getD k k)
  let all := words ++ piv
  all ++ List.replicate (h.slotBytes - all.length) 0

/-- A factor from a slot's bytes. -/
def slotFactor (h : Shape) (s p : Int) (b : List Byte) : Factor :=
  { s := s, p := p, lu := unpackRows h.n h.facCols h.facIdx b,
    piv := (List.range h.n).map fun k => fieldLE b (12 * h.facs + 2 * k) 2 }

/-- The fingerprint of a structure (R230). -/
def fingerprint (h : Shape) (pos : List Nat) : Nat :=
  let head := natLE 1 h.cls ++ natLE 1 h.nrhs ++ natLE 1 h.klb ++ natLE 1 h.ku ++ natLE 2 h.n ++ List.replicate 10 0
  leNat ((sha3_256 (head ++ pos.flatMap fun k => natLE 2 (k / 65536) ++ natLE 2 (k % 65536))).take 8)

/-! ### One system (R218 to R232) -/

/-- What becomes of a system's factor area. -/
inductive AreaRes where
  | keep
  /-- The slot being written is invalid. -/
  | drop
  /-- A new factor, with the retained matrix. -/
  | commit (f : Factor) (a : Rows)
  /-- A warm start replaces the retained matrix (scale). -/
  | retain (a : Rows) (s : Int)
  deriving DecidableEq, Repr

/-- What becomes of its solution region. -/
inductive SolRes where
  | keep
  | nan
  | vals (xs : List (List Nat))
  deriving DecidableEq, Repr

/-- How a system ends. -/
structure SysRes where
  code : Nat
  flags : Nat
  regs : Nat
  iters : Nat
  sc : Option (Int × Int)
  xsc : Option Int
  work : Nat
  sol : SolRes
  area : AreaRes
  deriving DecidableEq, Repr

/-- A system that ends without a result. -/
def SysRes.none_ (code work : Nat) (sol : SolRes) (area : AreaRes) : SysRes :=
  { code := code, flags := 0, regs := 0, iters := 0, sc := none, xsc := none, work := work, sol := sol, area := area }

/-- What a job fixes for its systems. -/
structure SysPar where
  h : Shape
  mode : Nat
  maxit : Nat
  t : Nat
  delta : Int
  dl : Nat
  inj : Bool
  hit : Option Nat
  deriving DecidableEq, Repr

/-- Right-hand sides as words of a scale. -/
def rhsWords (h : Shape) (b : List (Nat × Dy)) (e : List (Nat × Int)) (t : Int) : List (List Int) :=
  (List.range h.nrhs).map fun r => (List.range h.n).map fun i =>
    (((tabFind b (r * 65536 + i)).getD Dy.zero).down (expoOf e i)).fx t

/-- The scale T of right-hand sides (R220). -/
def rhsScale (b : List (Nat × Dy)) (e : List (Nat × Int)) (s : Int) : Int :=
  match maxExpo (b.map fun x => x.2.down (expoOf e (x.1 % 65536))) with
  | some m => m + 1
  | none => s

/-- The solution as binary64. -/
def solVals (x : Int) (xs : List (List Int)) : SolRes := .vals (xs.map fun r => r.map fun m => (fxVal m x).toBits)

/-- What is left of the steps before an error of the engine, `n` of them past. -/
def hitAfter (hit : Option Nat) (n : Nat) : Option Nat := hit.bind fun k => if k < n then none else some (k - n)

/-- Solution by a factor: iteration 0, then refinement (R226). -/
def solveWith (p : SysPar) (f : Factor) (a : Rows) (s t : Int) (bs : List (List Int)) (regs w0 w iters0 : Nat) (area : AreaRes)
    (fl : Nat) : SysRes :=
  let x0 := t - f.p
  let piv := (decide (regs ≠ 0)).toNat
  let bad := fun code it w => { code := code, flags := fl + piv, regs := regs, iters := iters0 + it, sc := some (s, t), xsc := none,
                                work := w - w0, sol := .nan, area := match area with | .commit _ _ => .drop | _ => .keep : SysRes }
  if p.hit = some 0 then bad 7 0 (w + p.h.work0)
  else match allSome (bs.map fun b => f.solve p.h t x0 b) with
  | none => bad 5 0 (w + p.h.work0)
  | some xs =>
    let x := scaleOf x0 xs
    let ys := rescale x0 x xs
    match refine p.h f a s t x bs p.dl (hitAfter p.hit 1) p.maxit ys 0 (w + p.h.work0) with
    | (.range, _, it, w1) => bad 5 it w1
    | (.hw, _, it, w1) => bad 7 it w1
    | (e, zs, it, w1) =>
      { code := if e = .deadline then 1 else 0, flags := fl + piv + (if e = .limit then 16 else 0), regs := regs, iters := iters0 + it,
        sc := some (s, t), xsc := some x, work := w1 - w0, sol := solVals x zs, area := area }

/-- A cold system: range analysis, factorisation, solution (R220 to R228). `a` and `b` are the assembled entries, equilibrated; `none`
when one is not finite. -/
def coldSystem (p : SysPar) (a : Option (List (Nat × Dy))) (b : Option (List (Nat × Dy))) (e : List (Nat × Int)) (w0 w iters0 fl : Nat) :
    SysRes :=
  match a, b with
  | some a, some b =>
    (match maxExpo (a.map (·.2)) with
     | none => { SysRes.none_ 4 (w - w0) .nan .keep with flags := fl, iters := iters0 }
     | some m =>
       let s := m + 1
       let t := rhsScale b e s
       let rows := toRows a s
       match factCols p.h p.t p.delta s p.dl p.inj p.hit (List.range p.h.cols) { a := rows, piv := [], regs := 0, pmin := none } w with
       | (.ok f, el, w1) =>
         if p.mode = 4 then
           { code := 0, flags := fl + (decide (el.regs ≠ 0)).toNat, regs := el.regs, iters := iters0, sc := some (s, t), xsc := none,
             work := w1 - w0, sol := .keep, area := .commit f rows }
         else solveWith { p with hit := hitAfter p.hit p.h.cols } f rows s t (rhsWords p.h b e t) el.regs w0 w1 iters0 (.commit f rows) fl
       | (.deadline, el, w1) =>
         { SysRes.none_ 2 (w1 - w0) .keep .drop with regs := el.regs, flags := fl + (decide (el.regs ≠ 0)).toNat, iters := iters0,
                                                     sc := some (s, t) }
       | (.range, el, w1) =>
         { SysRes.none_ 5 (w1 - w0) .nan .drop with regs := el.regs, flags := fl + (decide (el.regs ≠ 0)).toNat, iters := iters0,
                                                    sc := some (s, t) }
       | (.hw, el, w1) =>
         { SysRes.none_ 7 (w1 - w0) .nan .drop with regs := el.regs, flags := fl + (decide (el.regs ≠ 0)).toNat, iters := iters0,
                                                    sc := some (s, t) })
  | _, _ => { SysRes.none_ 4 (w - w0) .nan .keep with flags := fl, iters := iters0 }

/-- A warm system (R230): refinement with the stale factor from the solution in memory; cold when it does not converge. An iterate
that is not finite (`none`) has no word in range, which range analysis finds after the assembly (R222). -/
def warmSystem (p : SysPar) (f : Factor) (a b : Option (List (Nat × Dy))) (e : List (Nat × Int)) (it0 : Option (List (List Dy))) (w : Nat) :
    SysRes :=
  match a, b with
  | some a', some b' =>
    (match maxExpo (a'.map (·.2)) with
     | none => { SysRes.none_ 4 0 .nan .keep with flags := 2 }
     | some m =>
       let s := m + 1
       let t := rhsScale b' e s
       let rows := toRows a' s
       let x0 := it0.getD []
       let x := match maxExpo (x0.flatMap id) with | some k => k + 1 | none => t - f.p
       let xs := x0.map fun r => r.map fun v => v.fx x
       if it0.isNone then { SysRes.none_ 5 0 .nan .keep with flags := 2, sc := some (s, t) }
       else match refine p.h f rows s t x (rhsWords p.h b' e t) p.dl p.hit p.maxit xs 0 w with
       | (.limit, _, it, w1) => coldSystem { p with hit := hitAfter p.hit it } a b e w w1 it (2 + 8)
       | (.hw, _, it, w1) => { SysRes.none_ 7 (w1 - w) .nan .keep with flags := 2, iters := it, sc := some (s, t) }
       | (.range, _, it, w1) =>
         { SysRes.none_ 5 (w1 - w) .nan .keep with flags := 2, iters := it, sc := some (s, t) }
       | (r, ys, it, w1) =>
         { code := if r = .deadline then 1 else 0, flags := 2, regs := 0, iters := it, sc := some (s, t), xsc := some x, work := w1 - w,
           sol := solVals x ys, area := .retain rows s })
  | _, _ => { SysRes.none_ 4 0 .nan .keep with flags := 2 }

/-! ### The memory of a system -/

/-- What a read of the engine gives: bytes, an uncorrectable line (or a place that no longer translates), or a wait. -/
inductive SRead where
  | ok (b : List Byte)
  | uncorr
  | stall
  deriving DecidableEq, Repr

/-- A read of the engine. -/
def State.sread (s : State) (va n : Nat) : SRead × State :=
  if n = 0 then (.ok [], s)
  else match s.vread unitAgt va n with
    | (.ok b, s1) => (.ok b, s1)
    | (.stall, s1) => (.stall, s1)
    | (_, s1) => (.uncorr, s1)

/-- The regions of system `i`. -/
def areaVa (d : List Byte) (i : Nat) : Nat := descAt d 0x40 + i * descAt d 0x48
/-- Its parameters. -/
def paramVa (d : List Byte) (i : Nat) : Nat := descAt d 0x20 + i * descAt d 0x28
/-- Its solution. -/
def solVa (d : List Byte) (i : Nat) : Nat := descAt d 0x30 + i * descAt d 0x38

/-- The byte key of an area, by which what is resident is kept. -/
def State.areaKey (s : State) (va : Nat) : Nat := ((s.xlatePage .engine va .load).1.localKey).getD 0

/-- What stays resident of a system (assumption log 17): where nothing is known of the area, the whole stored structure and free
right-hand sides, the same for one area and header. -/
def State.residOf (s : State) (h : Shape) (key : Nat) (hd : FHead) : Resid :=
  match tabFind s.eng.resid key with
  | some r => r
  | none =>
    { pos := (List.range h.n).flatMap fun i => (h.retCols i).map fun j => i * 65536 + j,
      rhs := (List.range h.nrhs).flatMap fun r => (List.range h.n).filterMap fun i =>
        (Dy.ofBits (Config.solvOpen hd.bytes [key] (r * h.n + i)).toNat).map fun v => (r * 65536 + i, v),
      expos := [], fs0 := hd.s, fs1 := hd.s }

/-- An update record (R231). -/
structure Upd where
  row : Nat
  col : Nat
  v : Option Dy
  deriving DecidableEq, Repr

/-- Records from their bytes. -/
def updsOf (b : List Byte) (n : Nat) : List Upd :=
  (List.range n).map fun i => { row := fieldLE b (16 * i) 2, col := fieldLE b (16 * i + 2) 2, v := Dy.ofBits (fieldLE b (16 * i + 8) 8) }

/-- The record names a position of the resident structure. -/
def Upd.ok (h : Shape) (pos : List Nat) (u : Upd) : Bool :=
  decide (u.row < h.n) && (pos.contains (u.row * 65536 + u.col) || (rhsOf h u.col).isSome)

/-- Records applied in order to the entries. -/
def applyUpds (h : Shape) (us : List Upd) (a b : Sums) : Sums × Sums :=
  us.foldl (fun x u => match rhsOf h u.col with
    | some r => (x.1, tabIns (tabDel x.2 (r * 65536 + u.row)) (r * 65536 + u.row) u.v)
    | none => (tabIns (tabDel x.1 (u.row * 65536 + u.col)) (u.row * 65536 + u.col) u.v, x.2)) (a, b)

/-- A system's result with what its job must record: the structure, right-hand sides and row exponents that become resident. -/
structure SysOut where
  res : SysRes
  pos : List Nat
  rhs : List (Nat × Dy)
  expos : List (Nat × Int)
  head : Option FHead
  deriving DecidableEq, Repr

/-- A result with nothing to make resident. -/
def plainOut (r : SysRes) (hd : Option FHead) : SysOut := { res := r, pos := [], rhs := [], expos := [], head := hd }

/-- Row exponents when EQUIL asks for them. -/
def equilOf (d : List Byte) (a : Option (List (Nat × Dy))) : List (Nat × Int) :=
  if bitAt (fieldLE d 0 1) 5 then rowExpos (a.getD []) else []

/-- Entries scaled by row exponents. -/
def scaleRows (e : List (Nat × Int)) (a : List (Nat × Dy)) : List (Nat × Dy) := a.map fun x => (x.1, x.2.down (expoOf e (x.1 / 65536)))

/-- The parameters of a descriptor as the arithmetic needs them. -/
def sysPar (d : List Byte) (inj : Bool) (hit : Option Nat) : SysPar :=
  { h := descShape d, mode := descMode d, maxit := fieldLE d 6 1 % 16, t := fieldLE d 7 1 % 128,
    delta := ((Dy.ofBits (descAt d 0x60)).getD Dy.zero).fx 0, dl := descAt d 0x68, inj := inj, hit := hit }

/-- A system of MODE 2 may start warm (R230): its positions' fingerprint is FPRINT and the header's, and its current slot is valid. -/
def warmFit (d : List Byte) (h : Shape) (pos : List Nat) (hd : Option FHead) : Bool :=
  let fp := fingerprint h pos
  descMode d == 2 && descAt d 0x70 == fp && (match hd with | some x => x.fp == fp && x.curValid | none => false)

/-- A system of mode 0, 2 or 4 assembled from terms and parameters; `cur` is, for a warm start, the current factor with the iterate in
the solution region, where that is finite. -/
def assembled (d : List Byte) (p : SysPar) (ts : List Term) (ps : List Nat) (charge : Nat) (hd : Option FHead)
    (cur : Option (Factor × Option (List (List Dy)))) : SysOut :=
  let sa := asmMatrix ts ps
  let a0 := roundAll sa
  let b := roundAll (asmRhs ts ps)
  let e := equilOf d a0
  let a := a0.map (scaleRows e)
  let r := match cur with
    | some (f, x0) => warmSystem p f a b e x0 charge
    | none => coldSystem p a b e charge charge 0 (if p.mode = 2 then 4 else 0)
  { res := r, pos := sa.map (·.1), rhs := b.getD [], expos := e, head := hd }

/-- The doubles of a region, as exact values; none where one is not finite. -/
def doublesOf (b : List Byte) (n m : Nat) : Option (List (List Dy)) :=
  allSome ((List.range m).map fun r => allSome ((List.range n).map fun i => Dy.ofBits (fieldLE b (8 * (n * r + i)) 8)))

/-- The retained matrix of an area. -/
def State.readRetained (s : State) (h : Shape) (av : Nat) : SRead × Rows × State :=
  match s.sread (av + 64) h.retBytes with
  | (.ok b, s1) => (.ok [], unpackRows h.n h.retCols h.retIdx b, s1)
  | (r, s1) => (r, [], s1)

/-- The current factor of an area: its slot's bytes with what is resident of it. -/
def State.readFactor (s : State) (h : Shape) (av : Nat) (hd : FHead) (rs : Resid) : SRead × Factor × State :=
  match s.sread (av + 64 + h.retBytes + (if hd.cur then h.slotBytes else 0)) h.slotBytes with
  | (.ok b, s1) => (.ok [], slotFactor h (if hd.cur then rs.fs1 else rs.fs0) hd.p b, s1)
  | (r, s1) => (r, slotFactor h 0 0 [], s1)

/-- A read of the engine that a system cannot do without: it waits, or it ends UNCORR (R233). -/
def SRead.ends (r : SRead) (area : AreaRes) (hd : Option FHead) : Option SysOut :=
  match r with
  | .stall => none
  | _ => some (plainOut (SysRes.none_ 6 0 .nan area) hd)

/-- MODE 1: the right-hand sides are assembled, and solved with the current factor (R231). -/
def State.solveOld (s : State) (j : SJob) (p : SysPar) (ps : List Nat) (av : Nat) (hd : FHead) (rs : Resid) (hd? : Option FHead) :
    Option SysOut × State :=
  if !hd.curValid then (some (plainOut (SysRes.none_ 9 0 .keep .keep) hd?), s)
  else match roundAll (asmRhs j.terms ps) with
    | none => (some (plainOut (SysRes.none_ 4 0 .nan .keep) hd?), s)
    | some b =>
      match s.readRetained p.h av with
      | (.ok _, ret, s1) =>
        match s1.readFactor p.h av hd rs with
        | (.ok _, f, s2) =>
          let t := rhsScale b rs.expos hd.s
          (some { res := solveWith p f ret hd.s t (rhsWords p.h b rs.expos t) 0 j.charge j.charge 0 .keep 0,
                  pos := rs.pos, rhs := b, expos := rs.expos, head := hd? }, s2)
        | (r, _, s2) => (r.ends .keep hd?, s2)
      | (r, _, s1) => (r.ends .keep hd?, s1)

/-- MODE 3: records replace entries of the resident system, which is factorised and solved (R231). -/
def State.solveUpd (s : State) (j : SJob) (p : SysPar) (i av : Nat) (hd : FHead) (rs : Resid) (hd? : Option FHead) : Option SysOut × State :=
  let d := j.desc
  match s.sread (descAt d 0x10 + 16 * descTerms d * i) (16 * descTerms d) with
  | (.ok ub, s1) =>
    let us := updsOf ub (descTerms d)
    if !hd.curValid ∨ !(us.all fun u => u.ok p.h rs.pos) then (some (plainOut (SysRes.none_ 8 0 .keep .keep) hd?), s1)
    else match s1.readRetained p.h av with
      | (.ok _, ret, s2) =>
        -- retained entries with the rows' earlier scaling undone, so that records replace entries of A
        let a0 : Sums := rs.pos.map fun k => (k, some ((fxVal (ret.at_ (k / 65536) (k % 65536)) hd.s).down (-(expoOf rs.expos (k / 65536)))))
        let (a1, b1) := applyUpds p.h us a0 (rs.rhs.map fun x => (x.1, some x.2))
        let fin : Sums → Option (List (Nat × Dy)) := fun l => allSome (l.map fun x => x.2.map fun v => (x.1, v))
        let a2 := fin a1
        let e := equilOf d a2
        let b := fin b1
        (some { res := coldSystem p (a2.map (scaleRows e)) b e j.charge j.charge 0 0, pos := rs.pos, rhs := b.getD rs.rhs,
                expos := e, head := hd? }, s2)
      | (r, _, s2) => (r.ends .keep hd?, s2)
  | (r, s1) => (r.ends .keep hd?, s1)

/-- MODE 2 where a warm start fits: the factor and the iterate (R230). -/
def State.solveWarm (s : State) (j : SJob) (p : SysPar) (ps : List Nat) (i av : Nat) (hd : FHead) (rs : Resid) (hd? : Option FHead) :
    Option SysOut × State :=
  match s.readFactor p.h av hd rs with
  | (.ok _, f, s1) =>
    match s1.sread (solVa j.desc i) (8 * p.h.n * p.h.nrhs) with
    | (.ok xb, s2) => (some (assembled j.desc p j.terms ps j.charge hd? (some (f, doublesOf xb p.h.n p.h.nrhs))), s2)
    | (r, s2) => (r.ends .keep hd?, s2)
  | (r, _, s1) => (r.ends .keep hd?, s1)

/-- System `i` of a job: what it reads, and how it ends; `none` when a read must wait. Of a factor area of its own it reads the header,
and what its mode uses. -/
def State.runSystem (s : State) (j : SJob) (inj : Bool) (hit : Option Nat) : Option SysOut × State :=
  let d := j.desc
  let p := sysPar d inj hit
  let h := p.h
  let i := j.next
  let own := descAt d 0x48 ≠ 0
  let av := areaVa d i
  let late := p.dl ≠ 0 ∧ p.dl ≤ j.charge
  match s.sread av (if own then 64 else 0) with
  | (.stall, s0) => (none, s0)
  | (.uncorr, s0) => (some (plainOut (if late then SysRes.none_ 3 0 .keep .keep else SysRes.none_ 6 0 .nan .drop) none), s0)
  | (.ok hb, s0) =>
    let hd := headOf hb
    let hd? := if own then some hd else none
    if late then (some (plainOut (SysRes.none_ 3 0 .keep .keep) hd?), s0)
    else match s0.sread (paramVa d i) (if p.mode = 3 then 0 else 8 * paramCount j.terms) with
      | (.ok pb, s1) =>
        let ps := (List.range (paramCount j.terms)).map fun k => fieldLE pb (8 * k) 8
        let rs := s1.residOf h (s1.areaKey av) hd
        if p.mode = 1 then s1.solveOld j p ps av hd rs hd?
        else if p.mode = 3 then s1.solveUpd j p i av hd rs hd?
        else if warmFit d h ((asmMatrix j.terms ps).map (·.1)) hd? then s1.solveWarm j p ps i av hd rs hd?
        else (some (assembled d p j.terms ps j.charge hd? none), s1)
      | (r, s1) => (r.ends .keep hd?, s1)

/-- The header and bytes that a result leaves in an area of the job's own. -/
def areaWrites (h : Shape) (o : SysOut) (fp epoch step : Nat) : List (Nat × List Byte) × Option FHead :=
  match o.head with
  | none => ([], none)
  | some hd =>
    match o.res.area with
    | .keep => ([], some hd)
    | .drop =>
      let hd' := if hd.cur then { hd with v0 := false } else { hd with v1 := false }
      ([(0, hd'.bytes)], some hd')
    | .retain a s => ([(0, ({ hd with s := s }).bytes), (64, packRows h.n h.retBytes h.retCols h.retIdx a)], some { hd with s := s })
    | .commit f a =>
      let cur := !hd.cur
      let hd' : FHead := { fp := fp, v0 := if cur then hd.v0 else true, v1 := if cur then true else hd.v1, cur := cur, s := f.s, p := f.p,
                           epoch := epoch, step := step }
      ([(0, hd'.bytes), (64, packRows h.n h.retBytes h.retCols h.retIdx a),
        (64 + h.retBytes + (if cur then h.slotBytes else 0), slotOf h f)], some hd')

/-- Writes of the engine in order: whether all were performed; one that must wait holds the rest back. -/
def State.swrites (s : State) : List (Nat × List Byte) → Bool × State
  | [] => (true, s)
  | (va, b) :: rest =>
    match s.vwrite unitAgt va b with
    | (.stall, s1) => (false, s1)
    | (_, s1) => s1.swrites rest

/-- The bytes that a result leaves in the solution region. -/
def solWrites (h : Shape) : SolRes → List Byte
  | .keep => []
  | .nan => (List.range (h.n * h.nrhs)).flatMap fun _ => natLE 8 0x7FF8000000000000
  | .vals xs => xs.flatMap fun r => r.flatMap fun v => natLE 8 v

/-- A value that the spec gives a system no rule for: the same for one descriptor, system and ending (R229). -/
def SJob.open_ (j : SJob) (r : SysRes) (k : Nat) : Nat := (Config.solvOpen j.desc [j.next, r.code, r.flags, r.regs, r.iters, r.work] k).toNat

/-- A scale of a status record; one that the system did not come to is free. -/
def scaleField (j : SJob) (r : SysRes) (k : Nat) (v : Option Int) : Nat :=
  match v with
  | some x => ofSInt 16 x
  | none => j.open_ r k % 65536

/-- SLOT: CUR at the end; of a system without a factor area of its own, or whose header cannot be read, it is free. -/
def slotBit (j : SJob) (r : SysRes) (hd : Option FHead) : Bool :=
  match hd with
  | some x => x.cur
  | none => j.open_ r 3 % 2 == 1

/-- The status record (Table 9.7). -/
def statusRec (s : State) (j : SJob) (r : SysRes) (cur : Bool) : List Byte :=
  natLE 1 r.code ++ natLE 1 (r.flags + (if cur then 32 else 0)) ++ natLE 2 (min r.regs 0xFFFF) ++ natLE 1 r.iters ++ natLE 1 0 ++
    natLE 2 (scaleField j r 0 (r.sc.map (·.1))) ++ natLE 2 (scaleField j r 1 (r.sc.map (·.2))) ++ natLE 2 (scaleField j r 2 r.xsc) ++
    natLE 4 0 ++ natLE 8 r.work ++ natLE 8 (s.fld fPkg_STEP)

/-- What becomes resident: after a factorisation, all of it; after a solve of mode 1, the right-hand sides. A system that was abandoned
or refused leaves what was resident, its right-hand sides with its matrix. -/
def State.setResid (s : State) (key : Nat) (old : Resid) (o : SysOut) (hd : FHead) : State :=
  let r : Option Resid := match o.res.area with
    | .commit f _ =>
      some { pos := o.pos, rhs := o.rhs, expos := o.expos, fs0 := if hd.cur then old.fs0 else f.s, fs1 := if hd.cur then f.s else old.fs1 }
    | .retain _ _ => some { old with pos := o.pos, rhs := o.rhs, expos := o.expos }
    | _ => if o.rhs.isEmpty ∨ 1 < o.res.code then none else some { old with rhs := o.rhs }
  match r with
  | some r => { s with eng := { s.eng with resid := tabIns (tabDel s.eng.resid key) key r } }
  | none => s

/-- Counters and records of a system's end. -/
def State.solvCount (s : State) (q : Nat) (r : SysRes) (inj : Bool) : State :=
  let s1 := (s.inc (fSolv_SYSTEMS q)).addSat (fSolv_REG_CNT q) r.regs
  let s2 := if r.code = 4 ∨ r.code = 5 then s1.inc (fSolv_HANDOFF_CNT q) else s1
  let s3 := if bitAt r.flags 2 then s2.inc (fSolv_WARM_MISS q) else s2
  let s4 := if r.code = 1 ∨ r.code = 2 ∨ r.code = 3 then s3.inc (fSolv_DEADLINE_CNT q) else s3
  let s5 := if r.code = 6 then s4.solvUe q else s4
  if r.code = 7 then (if inj then (s5.solvUe q).injDone (solvPage q) else s5.solvUe q).reportC 0x05 (solvPage q) 0 0 inj else s5

/-- The system's writes, in order: solution, factor area, hand-off list, status record. The shared area of a job without its own is
left with unspecified bytes where a factor was written to it; after the other endings it is unchanged (Table 9.8). -/
def State.endSystem (s : State) (q : Nat) (j : SJob) (o : SysOut) (inj : Bool) : State :=
  let d := j.desc
  let h := descShape d
  let i := j.next
  let r := o.res
  let step := s.fld fPkg_STEP
  let (aw, hd) := areaWrites h o (fingerprint h o.pos) j.epoch.toNat step
  let hand := r.code == 4 || r.code == 5
  let scratch := if descAt d 0x48 = 0 ∧ (r.code ≤ 1 ∨ r.code = 7) then
      [(areaVa d i, (List.range h.areaBytes).map fun k => BitVec.ofNat 8 (j.open_ r (4 + k)))] else []
  let sol := solWrites h r.sol
  let ws := (if sol.isEmpty then [] else [(solVa d i, sol)]) ++ aw.map (fun w => (areaVa d i + w.1, w.2)) ++ scratch ++
    (if hand then [(descAt d 0x58 + 4 * j.handoffs, natLE 4 i)] else []) ++
    [(descAt d 0x50 + 32 * i, statusRec s j r (slotBit j r hd))]
  match s.swrites ws with
  | (false, s1) => s.undo s1
  | (true, s1) =>
    let s2 := { s1 with fresh := s1.fresh + 1 }
    let s3 := match hd with
      | some x => s2.setResid (s2.areaKey (areaVa d i)) (s2.residOf h (s2.areaKey (areaVa d i)) x) o x
      | none => s2
    (s3.solvCount q r inj).modSJob q fun j =>
      { j with next := j.next + 1, charge := j.charge + r.work, handoffs := j.handoffs + hand.toNat }

/-- The next system of a job ends; `late` says whether the deadline has to do with it. An error of the engine's own may strike in one
of its steps (R233). -/
def State.nextSystem (s : State) (q : Nat) (late : Bool) : State :=
  match (s.solv q).job with
  | none => s
  | some j =>
    if s.flag fSafe_SAFE ∨ descCount j.desc ≤ j.next then s
    else
      let inj := s.injArmed (solvPage q) 1
      match s.runSystem j inj (if inj then none else Config.solvFault s.fresh) with
      | (none, _) => s
      | (some o, s1) =>
        let dl := o.res.code == 1 || o.res.code == 2 || o.res.code == 3
        if dl = late then s1.endSystem q j o (inj && o.res.code == 7) else s

/-- SOLVER_SYSTEM_END: the next system runs to its end and its status record is written, unless the deadline comes first. -/
def execSolverSystemEnd (q : Fin 64) (s : State) : Host.Outcome State Fault Refusal := .next (s.nextSystem q false)

/-- SOLVER_DEADLINE: the charge reaches DEADLINE at a check of the next system: its factorisation is abandoned, its last iterate is
written, or it is not run (R228). -/
def execSolverDeadline (q : Fin 64) (s : State) : Host.Outcome State Fault Refusal := .next (s.nextSystem q true)

/-- SOLVER_JOB_END: DONE and HANDOFFS, then the counter, then CONS (R216). -/
def execSolverJobEnd (q : Fin 64) (s : State) : Host.Outcome State Fault Refusal :=
  .next (match (s.solv q).job with
    | none => s
    | some j =>
      if j.next < descCount j.desc ∨ s.flag fSafe_SAFE then s
      else match s.vwrite unitAgt (j.va.toNat + 0x78) (natLE 4 1 ++ natLE 4 j.handoffs) with
        | (.stall, s1) => s.undo s1
        | (r, s1) =>
          let s2 := match r with | .ok _ => s1 | _ => s1.solvRingErr q
          let s3 := ((s2.modSolv q fun x => { x with job := none }).setFlag (fSolv_ACTIVE q) false).inc (fSolv_JOBS q)
          let cnt := fieldLE j.desc 0xC 2
          let s4 := if bitAt cnt 15 ∧ s3.fab.cnts.contains (cnt % 4096) then s3.addCounter (cnt % 4096) 1 false else s3
          s4.solvCons q)


end Sys2Proof.Machine
end

