-- ==== Sys2Proof/Machine/ViewReg.lean ====
section
/-! DEFINITION. Registration of typed views: the checks of Table 8.5, the slots, deregistration (R191 to R194, R314). -/

namespace Sys2Proof.Machine

/-- The format pairs of Table 8.6. -/
def viewPair (sf pf : Nat) : Bool :=
  (sf == 0 && pf == 1) || ((sf == 0 || sf == 1) && decide (2 ≤ pf) && decide (pf ≤ 0x0B))

/-- Reserved bits of an entry, the package's own STATUS apart (Table 8.4). -/
def State.viewReserved (s : State) (o : Nat) : Bool :=
  decide (32 ≤ s.barNat (o + 0x28) 1) || decide (32 ≤ s.barNat (o + 0x29) 1) || decide (64 ≤ s.barNat (o + 0x2A) 1) ||
    s.barNat (o + 0x2B) 1 != 0 || s.barNat (o + 0x2E) 2 != 0 || s.barNat (o + 0x34) 11 != 0 || decide (2 ≤ s.barNat (o + 0x3F) 1)

/-- BAD_FORMAT; under STRICT, RM 6 too (R314). -/
def State.viewBadFormat (s : State) (i : Nat) : Bool :=
  let v := s.view i
  s.viewReserved (viewOff i) || !viewPair v.sfmt v.pfmt || v.rm == 7 || v.mode == 3 || (v.mode != 0 && v.mx) ||
    (v.svbase != 0 && !v.mx) || (v.rm == 6 && s.flag fMode_A_STRICT)

/-- BAD_ALIGN. -/
def View.badAlign (v : View) : Bool :=
  v.vbase % 65536 != 0 || v.svbase % 65536 != 0 || v.sbase % 4096 != 0 || v.count == 0 || decide (2 ^ 36 < v.count) ||
    (v.mx && v.count % 32 != 0)

/-- Two half-open ranges share an address. -/
def rangesMeet (a b : Nat × Nat) : Bool := decide (a.1 < b.2 ∧ b.1 < a.2)

/-- The presented range, and the scale range of an MX view. -/
def View.shown (v : View) : List (Nat × Nat) := (v.vbase, v.vend) :: (if v.mx then [(v.svbase, v.svend)] else [])

/-- The stored range. -/
def View.stored (v : View) : Nat × Nat := (v.sbase, v.send)

/-- OVERLAP. -/
def State.viewOverlap (s : State) (i : Nat) : Bool :=
  let v := s.view i
  v.shown.any fun r => rangesMeet r v.stored ||
    (s.views.filter (· != i)).any fun j => let w := s.view j
      (w.stored :: w.shown).any fun q => rangesMeet r q

/-- The stacks of the granules of a stored range: a set of stacks, none where a granule does not translate to DRAM, a wait. -/
inductive VScan where
  | held (set : Nat)
  | bad
  | stall
  deriving DecidableEq, Repr

/-- Granules translated in ascending order (R192). -/
def State.viewScan (s : State) : Nat → Nat → Nat → VScan × State
  | 0, _, set => (.held set, s)
  | n + 1, va, set =>
    match s.xlatePage .engine va .load with
    | (.ok (.dram key), s1) => s1.viewScan n (va + 4096) (set ||| 2 ^ keyStack key)
    | (.stall, s1) => (.stall, s1)
    | (_, s1) => (.bad, s1)

/-- The granules of the stored range. -/
def View.granules (v : View) : Nat := ceilDiv (v.count * v.sbytes) 4096

/-- The verdict on an entry. -/
inductive VCheck where
  | valid (stackSet : Nat)
  | refused (code : Nat)
  | wait
  deriving DecidableEq, Repr

/-- The checks in the order of Table 8.5 (R191). -/
def State.viewCheck (s : State) (i : Nat) : VCheck × State :=
  let v := s.view i
  if s.viewBadFormat i then (.refused 1, s)
  else if v.badAlign then (.refused 2, s)
  else if !(s.jobRuns && s.jobId == v.job) then (.refused 3, s)
  else if s.viewOverlap i then (.refused 4, s)
  else match s.viewScan v.granules v.sbase 0 with
    | (.bad, s1) => (.refused 5, s1)
    | (.stall, s1) => (.wait, s1)
    | (.held m, s1) =>
      if (List.range 8).any fun n => bitAt m n && decide (128 ≤ s1.fld (fView_SLOTS_USED n)) then (.refused 6, s1)
      else (.valid m, s1)

/-- Slots of the stacks of a set taken (+1) or freed. -/
def State.viewSlots (s : State) (set : Nat) (take : Bool) : State :=
  (List.range 8).foldl (fun t n =>
    if bitAt set n then t.setFld (fView_SLOTS_USED n) (if take then t.fld (fView_SLOTS_USED n) + 1 else t.fld (fView_SLOTS_USED n) - 1)
    else t) s

/-- STATUS of an entry (bytes 0x30 to 0x33). -/
def State.setViewStatus (s : State) (i v : Nat) : State := s.putBarNat (viewOff i + 0x30) 4 v

/-- EN of an entry. -/
def State.viewEn (s : State) (i : Nat) : Bool := bitAt (s.barNat (viewOff i + 0x3F) 1) 0

/-- VALID of an entry. -/
def State.viewValid (s : State) (i : Nat) : Bool := bitAt (s.barNat (viewOff i + 0x30) 1) 0

/-- An entry whose EN has been set is checked and STATUS written once; while a walk of the check waits for a stack, STATUS is
still to come and shows neither VALID nor REFUSED. -/
def State.viewRegister (s : State) (i : Nat) : State :=
  match s.viewCheck i with
  | (.refused c, s1) => s1.setViewStatus i (2 + c * 256)
  | (.valid m, s1) => (s1.viewSlots m true).setViewStatus i (1 + m * 65536)
  | (.wait, s1) => s1.setViewStatus i 0

/-- Entries whose check waits. -/
def State.viewsWaiting (s : State) : List Nat :=
  (s.validEntries 0x200000 64 1024 0x3F).filter fun i => s.barNat (viewOff i + 0x30) 1 % 4 == 0

/-- The checks that waited are made again. -/
def State.retryViews (s : State) : State := s.viewsWaiting.foldl (fun t i => t.viewRegister i) s

/-- An access through view `i` has been accepted and waits at a stored line's home. -/
def State.viewInUse (s : State) (i : Nat) : Bool := s.thr.ctxs.any fun c => c.2.st == .wait && c.2.await == .view i

/-- A VALID entry with EN clear deregisters once every access it has accepted is complete (R193): view lines dropped, slots freed
(STACKS with them), VALID and FLAGS cleared. -/
def State.viewDeregister (s : State) (i : Nat) : State :=
  if s.viewValid i ∧ !s.viewInUse i then
    let v := s.view i
    let s1 := v.shown.foldl (fun t r => t.dropViewRange r.1 r.2) s
    (s1.viewSlots v.stackSet false).setViewStatus i 0
  else s

/-- Deregistrations that waited for accepted accesses. -/
def State.retryDereg (s : State) : State :=
  (s.views.filter fun i => !s.viewEn i).foldl (fun t i => t.viewDeregister i) s

/-- A write of byte 0x3F: EN and reserved bits. Clearing EN of a refused entry lets it change again (R191). -/
def State.viewSetEn (s : State) (i b : Nat) : State :=
  let old := s.viewEn i
  let s1 := s.putBarNat (viewOff i + 0x3F) 1 b
  if bitAt b 0 && !old && !s.viewValid i then s1.viewRegister i
  else if !bitAt b 0 && old then s1.viewDeregister i
  else s1

end Sys2Proof.Machine
end

