-- ==== Sys2Proof/Machine/Home.lean ====
section
/-! DEFINITION. Requests of other packages: their checks, their service at the home, their answers and their waits (R265, R266,
R271, R284, R188, R189). -/

namespace Sys2Proof.Machine

/-! ### Answers -/

/-- A packet's header and payload, over which its end-to-end CRC is formed (Table 11.5). -/
def pktBytes (cmd : Nat) (k : Packet) : List Byte :=
  headerBytes cmd k.flagged k.len k.src k.job k.addr.toNat k.tag k.cause k.aop k.aw ++ k.data

/-- A refusal sent back, counted when this package is the target (Table 11.16). -/
def State.nakTo (s : State) (src job addr tag cause : Nat) : State :=
  (s.inc fWin_REFUSED_IN).send (respPkt 0x12 src job addr tag cause [])

/-- The answer to a request that has been performed. -/
def State.answerReq (s : State) (r : HomeReq) (data : List Byte) : State :=
  s.send (respPkt (if r.cmd = 1 then 0x10 else 0x11) r.src r.job r.addr r.tag 0 data)

/-! ### Service at the home -/

/-- A request is a remote add that the combiner takes (R188): integer ADD or FADD. -/
def HomeReq.combines (r : HomeReq) : Bool := r.cmd == 4 && (r.aop == 0 || r.aop == 10)

/-- A remote add joins its line's entry or takes a free one; none: no entry is free. The Bool tells whether it must wait. -/
def State.combine (s : State) (r : HomeReq) : Option (Bool × State) :=
  let n := keyStack r.key
  let line := r.key / 64
  let q : CombReq := { id := s.fab.nextId, port := r.port, op := r.aop, aw := awBytes r.aw, operand := BitVec.ofNat 64 (leNat r.data),
                       key := r.key, src := r.src, job := r.job, addr := r.addr, tag := r.tag }
  let s1 := s.modFab fun f => { f with nextId := f.nextId + 1 }
  match (s.stk n).comb.find? fun e => e.1 == line with
  | some e =>
    if 64 ≤ e.2.length then some (true, s)
    else some (false, s1.modStk n fun x => { x with comb := x.comb.map fun e => if e.1 = line then (line, e.2 ++ [q]) else e })
  | none =>
    if 256 ≤ (s.stk n).comb.length then none
    else some (false, (s1.modStk n fun x => { x with comb := x.comb ++ [(line, [q])] }).syncComb n)

/-- A request performed singly and answered. -/
def State.performReq (s : State) (r : HomeReq) : State :=
  match s.homePerform r.cmd r.key r.len r.aop r.aw r.data with
  | (.ok b, s1) => s1.answerReq r b
  | (.refused c, s1) => s1.nakTo r.src r.job r.addr r.tag c
  | (.wait, s1) => s1

/-- A read of the debug path, answered on that path (R410). -/
def State.pathRead (s : State) (key len : Nat) : State :=
  match s.homeRead .none key len with
  | (some b, s1) => s1.answer (.bytes b)
  | (none, s1) => s1.answer .unsupported

/-- One attempt to serve an accepted request: whether it was served. Bytes of a get copy are written as the copy's own (R280), those
of the debug path too; a read of the debug path has its answer there. -/
def State.tryReq (s : State) (r : HomeReq) : Bool × State :=
  if s.accessStalled r.key (reqBytes r.cmd r.len r.aw r.data.length) (cmdWrites r.cmd) then
    (false, if cmdWrites r.cmd then s.noteStall r.key else s)
  else if r.get.isSome then (true, if r.cmd = 1 then s.pathRead r.key r.len else s.homeWrite .none r.key r.data)
  else if r.combines then
    match s.combine r with
    | some (wait, s1) => (!wait, s1)
    | none => (true, s.performReq r)
  else (true, s.performReq r)

/-- A request that waits at its home keeps its place. -/
def State.parkReq (s : State) (r : HomeReq) : State :=
  s.modFab fun f => { f with homes := f.homes ++ [{ r with id := f.nextId }], nextId := f.nextId + 1 }

/-- A request served, or parked; one behind a waiting request to the same line waits too (R181). -/
def State.serveReq (s : State) (r : HomeReq) : State :=
  if s.behind r.lines then s.parkReq r
  else match s.tryReq r with
    | (true, s1) => s1
    | (false, s1) => s1.parkReq r

/-- A copy by its number. -/
def State.acopy (s : State) (id : Nat) : Option ACopy := s.fab.copies.find? fun c => c.id == id

/-- A copy changed. -/
def State.modCopy (s : State) (id : Nat) (f : ACopy → ACopy) : State :=
  s.modFab fun x => { x with copies := x.copies.map fun c => if c.id = id then f c else c }

/-- A packet of a copy is refused: a put breaks the flagged store that waits for it, or the next one (R277). -/
def State.copyRefused (s : State) (id : Nat) : State :=
  match s.acopy id with
  | none => s
  | some c =>
    let s1 := s.modCopy id fun x => { x with refused := true }
    if c.put then s1.breakFlag c.target fun f => f.copies.contains id else s1

/-- Bytes of a get copy written at their homes, granule by granule; what must wait at its home, or for its translation, is kept
(R280). -/
def State.getWrite (s : State) (id : Nat) : List (Nat × List Byte) → State
  | [] => s
  | (va, bs) :: rest =>
    let s2 := match s.xlate .engine va .store with
      | (.ok (.dram key), s1) =>
        let r : HomeReq := { id := 0, port := 0, cmd := 2, key := key, len := bs.length, src := 0, job := 0, addr := 0, tag := 0,
                             aop := 0, aw := 0, data := bs, get := some id }
        (s1.markAccess va .store).serveReq r
      | (.stall, s1) => s1.modFab fun f => { f with gets := f.gets ++ [(id, va, bs)] }
      | (_, s1) => s1.copyRefused id
    s2.getWrite id rest

/-- Bytes of get copies that waited for their translation are tried again. -/
def State.retryGets (s : State) : State :=
  s.fab.gets.foldl (fun t g => t.getWrite g.1 [g.2]) (s.modFab fun f => { f with gets := [] })

/-- A request that waits at a home: another package's, or the host's. -/
inductive WaitReq where
  | pkg (r : HomeReq)
  | host (r : HReq)
  deriving DecidableEq, Repr

/-- Its place in the order of arrival. -/
def WaitReq.place : WaitReq → Nat
  | .pkg r => r.id
  | .host r => r.place

/-- Its lines. -/
def WaitReq.lines : WaitReq → List Nat
  | .pkg r => r.lines
  | .host r => r.lines

/-- A request put in its place. -/
def waitInsert (x : WaitReq) : List WaitReq → List WaitReq
  | [] => [x]
  | y :: ys => if x.place ≤ y.place then x :: y :: ys else y :: waitInsert x ys

/-- Every request that waits at a home, in the order of arrival. -/
def State.waitReqs (s : State) : List WaitReq :=
  (s.fab.homes.map WaitReq.pkg ++ s.host.reqs.map WaitReq.host).foldr waitInsert []

/-- One attempt to serve a waiting request: whether it was served, and so waits no longer. -/
def State.retryOne (s : State) : WaitReq → Bool × State
  | .pkg r =>
    match s.tryReq r with
    | (true, s1) => (true, s1.modFab fun f => { f with homes := f.homes.filter fun h => h.id != r.id })
    | x => x
  | .host r => if !s.hostCut && s.hostStalled r then (false, s) else (true, (s.dropHReq r.id).hostServe r)

/-- Waiting requests tried again in their original order (R161, R172): `blocked` are the lines of those that still wait. -/
def State.retryReqs (s : State) : List WaitReq → List Nat → State
  | [], _ => s
  | r :: rest, blocked =>
    if r.lines.any blocked.contains then s.retryReqs rest (r.lines ++ blocked)
    else match s.retryOne r with
      | (true, s1) => s1.retryReqs rest blocked
      | (false, s1) => s1.retryReqs rest (r.lines ++ blocked)

/-- What the package's units still owe memory is tried again: STATUS of launches, rings of the copy and solver engines. -/
def State.retryUnits (s : State) : State :=
  let s1 := (s.retryLaunches.stks.map (·.1)).foldl (fun t n => t.copyRetry n) s.retryLaunches
  (s1.eng.solv.map (·.1)).foldl (fun t q => t.solvRetry q) s1

/-! ### Credits of VC0 (R263, R275) -/

/-- An ingress queue toward a home that a port feeds is full. -/
def State.ingressFull (s : State) (p : Nat) : Bool :=
  s.fab.homes.any fun h => h.get.isNone && h.port == p &&
    decide (Config.ingressCap ≤ (s.fab.homes.filter fun x => x.get.isNone && keyStack x.key == keyStack h.key).length)

/-- The slots of a packet that has left its port's receive buffer are owed to the peer as credits; those of a request are withheld while
an ingress queue that the port feeds is full. -/
def State.giveCredit (s : State) (p vc n : Nat) : State :=
  let x := s.port p
  let give := fun m => { x with kept := x.kept - (if vc = 0 then x.kept else 0), owed := tabSet cntZero x.owed vc (tabGet cntZero x.owed vc + m) }
  s.setPort p (if vc ≠ 0 then give n else if s.ingressFull p then { x with kept := x.kept + n } else give (n + x.kept))

/-- Withheld credits are granted where no queue is full any more. -/
def State.giveKept (s : State) : State :=
  (List.range 16).foldl (fun t p => if (t.port p).kept = 0 then t else t.giveCredit p 0 0) s

/-- Requests, checks of view entries and stores of units released when a stack, a pseudo-channel, a unit, the combiner or a remote
context serves again. -/
def State.releaseWaiting (s : State) : State :=
  ((((((s.retryReqs s.waitReqs []).giveKept.retryGets.retryHz).retryViews).retryDereg).retryCan).retryUnits).ringService

/-! ### Arrival (R266, R271) -/

/-- A packet for another package is forwarded on the routed port; its end-to-end CRC travels with it. -/
def State.forward (s : State) (cmd : Nat) (k : Packet) : State :=
  let dst := k.addr.toNat / 2 ^ 48
  if s.flag fSafe_SAFE then s.send (respPkt 0x12 k.src k.job k.addr.toNat k.tag 0x05 [])
  else match s.routePort dst k.addr.toNat with
    | none => s.send (respPkt 0x12 k.src k.job k.addr.toNat k.tag 0x02 [])
    | some p =>
      s.sendOn p { src := some k.src, cmd := cmd, flag := k.flagged, len := k.len, dst := dst, job := k.job, addr := k.addr.toNat,
                   tag := k.tag, cause := k.cause, aop := k.aop, aw := k.aw, data := k.data, e2e := some k.e2e }

/-- The first check of Table 11.9 that a request for this package fails, before its window or counter: 0 when none does. -/
def State.checkArrival (s : State) (port cmd : Nat) (k : Packet) : Nat :=
  if k.e2e ≠ crc32c (pktBytes cmd k) then 3
  else if !knownCmd cmd k.aop k.aw ∨ (s.fld (fPort_VERSION port) = 1 ∧ v1Lacks cmd k.aop (max k.len k.data.length)) then 4
  else if s.flag fSafe_SAFE then 5
  else 0

/-- A mismatch of the end-to-end CRC is a detection at the final receiver (R265, Table 18.1). -/
def State.integrity (s : State) (port : Nat) (loc : W64) : State :=
  s.report { cls := 0x0D, react := 2, page := 0x040 + port, unit := port, loc0 := loc } none

/-- The slots of a packet received. -/
def pktSlots (k : Packet) : Nat := (24 + k.data.length + 8 + 15) / 16

/-- A request for this package (R271). -/
def State.arrivesHere (s : State) (port cmd : Nat) (k : Packet) : State :=
    let addr := k.addr.toNat
    let c := s.checkArrival port cmd k
    if c ≠ 0 then (if c = 3 then s.integrity port k.addr else s).nakTo k.src k.job addr k.tag c
    else if cmd = 5 then
      match s.caddApply (addr % 4096) k.job k.data with
      | (.refused c, s1) => s1.nakTo k.src k.job addr k.tag c
      | (_, s1) => s1.send (respPkt 0x11 k.src k.job addr k.tag 0 [])
    else
      let (c, key) := s.checkWindow cmd k.src k.job addr (reqBytes cmd k.len k.aw k.data.length)
      if c ≠ 0 then s.nakTo k.src k.job addr k.tag c
      else s.serveReq { id := 0, port := port, cmd := cmd, key := key, len := k.len, src := k.src, job := k.job, addr := addr,
                        tag := k.tag, aop := k.aop, aw := k.aw, data := k.data, get := none }

/-- An arriving request (R266, R271). Nothing arrives through a port that is not ACTIVE; the slots it took are credited (R263). -/
def State.arrive (s : State) (port cmd : Nat) (k : Packet) : State :=
  if s.portState port ≠ 2 then s
  else (if k.addr.toNat / 2 ^ 48 = s.pkgId then s.arrivesHere port cmd k else s.forward cmd k).giveCredit port 0 (pktSlots k)

/-- RD. -/
def execRd (port : Fin 16) (pkt : Packet) (s : State) : Host.Outcome State Fault Refusal := .next (s.arrive port 1 pkt)
/-- WR. -/
def execWr (port : Fin 16) (pkt : Packet) (s : State) : Host.Outcome State Fault Refusal := .next (s.arrive port 2 pkt)
/-- AMO. -/
def execAmo (port : Fin 16) (pkt : Packet) (s : State) : Host.Outcome State Fault Refusal := .next (s.arrive port 4 pkt)
/-- CADD. -/
def execCadd (port : Fin 16) (pkt : Packet) (s : State) : Host.Outcome State Fault Refusal := .next (s.arrive port 5 pkt)

/-- The remote add of that number that waits in the combiner. -/
def State.combReq (s : State) (id : Nat) : Option CombReq :=
  s.stks.findSome? fun e => e.2.comb.findSome? fun l => l.2.find? fun q => q.id == id

/-- HOLD_SEND: a request that waits at a home or in the combiner is answered with HOLD (R284); a version 1 link carries none. -/
def execHoldSend (id : Nat) (s : State) : Host.Outcome State Fault Refusal :=
  .next (match s.fab.homes.find? fun h => h.id == id with
    | some r => if r.get.isSome ∨ s.fld (fPort_VERSION r.port) = 1 then s else s.send (respPkt 0x13 r.src r.job r.addr r.tag 0 [])
    | none => match s.combReq id with
      | some q => if s.fld (fPort_VERSION q.port) = 1 then s else s.send (respPkt 0x13 q.src q.job q.addr q.tag 0 [])
      | none => s)

/-- COMBINER_APPLY: a line's entry is applied at its next update slot (R188), and requests that waited for it go on. A paused
pseudo-channel, a stopped stack or a protected unit holds it back. -/
def execCombinerApply (st : Fin 8) (line : Nat) (s : State) : Host.Outcome State Fault Refusal :=
  .next (if s.accessStalled (line * 64) 64 true then s else (s.combApply st line).releaseWaiting)

end Sys2Proof.Machine
end

