-- ==== Sys2Proof/Machine/SnapEnd.lean ====
section
/-! DEFINITION. The end of a snapshot, and generations of the store (R327, R335, R340, R342, R343). -/

namespace Sys2Proof.Machine

/-- The snapshot state changed. -/
def State.modSnp (s : State) (f : SnapSt → SnapSt) : State := { s with snp := f s.snp }

/-- Dirty bits put back (R335). -/
def State.dirtyBack (s : State) (gs : List Nat) : State := gs.foldl (fun t g => t.dirtyGran g) s

/-- Shards of a snapshot that are still to be written. -/
def SnapJob.toDrain (j : SnapJob) : List TCut := j.tensors.filter fun t => t.kind != 2 && t.shard.isNone

/-- COPYING and DRAINING follow (Table 14.11). -/
def State.syncSnap (s : State) : State :=
  let rest := match s.snp.job with | some j => !j.toDrain.isEmpty | none => false
  (s.setFlag fSnap_COPYING (!s.snp.units.isEmpty || s.snp.flying.isSome)).setFlag fSnap_DRAINING
    (rest && (!s.snp.copied.isEmpty || s.snp.units.isEmpty))

/-- A snapshot ends without commit: protection removed and waiting writes performed, tier and store space freed, dirty bits put
back; a notice it served stays pending (R327, R330, R340). -/
def State.snapEnd (s : State) (code : Nat) : State :=
  match s.snp.job with
  | none => s
  | some j =>
    let s1 := s.modSnp fun x =>
      { x with units := [], stalled := [], job := none, copied := [], flying := none, doomed := 0 }
    let s2 := (((s1.dirtyBack j.taken).setFld fSnap_CODE code).syncSnap).releaseWaiting
    if j.preempt then s2.setFlag fSnap_PRE_PEND true else s2

/-- The event record of a snapshot that failed (R340, Table 14.9). -/
def State.snapFail (s : State) (code : Nat) : State :=
  match s.snp.job with
  | none => s
  | some j => (s.snapEnd code).event logInfo .snapAbandoned (BitVec.ofNat 64 j.gen) (BitVec.ofNat 64 code) []

/-! ### Generations (R343) -/

/-- Bytes of the units of a shard, with its list of indices and of poisoned lines, each padded to 64 bytes (R341). -/
def Shard.sbytes (x : Shard) : Nat :=
  if x.kind = 2 then 0
  else x.data.length + (if x.kind = 1 then (4 * x.idx.length + 63) / 64 * 64 else 0) + (8 * x.poison.length + 63) / 64 * 64

/-- The shards that some manifest references, each once. -/
def SnapSt.stored (x : SnapSt) : List (Nat × Nat × Nat) :=
  ((x.gens.flatMap fun m => m.shards).map fun d => (d.id, d.sgen, d.sbytes)).eraseDups

/-- FREE follows what the store holds. -/
def State.syncStore (s : State) : State :=
  s.setFld fNand_FREE (s.fld fNand_CAPACITY - (s.snp.stored.foldl (fun a d => a + d.2.2) 0))

/-- Blocks are erased for what is written: whether that raises the highest erase count is free. Reaching 90 % of the rated count and
the rated count writes Warning records (R455). -/
def State.wear (s : State) : State :=
  let n := s.fld fNand_WEAR_MAX + 1
  let r := s.fld fNand_WEAR_RATED
  if Config.outcome s.fresh then
    let s1 := s.draw.2.setFld fNand_WEAR_MAX n
    if n = (9 * r + 9) / 10 ∨ n = r then s1.event logWarn .nandWear (BitVec.ofNat 64 n) 0 [] else s1
  else s.draw.2

/-- Manifests kept only where a condition holds. -/
def State.keepGens (s : State) (f : SManifest → Bool) : State := (s.modSnp fun x => { x with gens := x.gens.filter f }).syncStore

/-- Agreed generations of a series, oldest first. -/
def State.agreedGens (s : State) (series : W64) : List Nat :=
  (s.snp.gens.filter fun m => m.series == series && decide (m.gen ≤ s.fld fSnap_GEN_AGREED)).map (·.gen)

/-- A generation is agreed: the third-newest agreed one, and those of another series, are released. -/
def State.agree (s : State) (g : Nat) : State :=
  match s.snp.gens.find? fun m => m.gen == g with
  | none => s
  | some m =>
    if s.fld fSnap_GEN_AGREED = g then s
    else
      let s1 := (s.setFld fSnap_GEN_AGREED g).modSnp fun x =>
        { x with unagreed := match x.unagreed with | some u => if u.1 = g then none else some u | none => none }
      let keep := (s1.agreedGens m.series).reverse.take 2
      s1.keepGens fun x => decide (g < x.gen) || (x.series == m.series && keep.contains x.gen)

/-- A generation that some member lacks is no generation: released, its dirty bits put back (R335). -/
def State.unagree (s : State) (g : Nat) : State :=
  if s.snp.gens.any fun m => m.gen == g then
    let s1 := s.keepGens fun m => m.gen != g
    let s2 := s1.setFld fSnap_GEN_COMMITTED ((s1.snp.gens.getLast?.map (·.gen)).getD 0)
    match s2.snp.unagreed with
    | some (u, gs) => if u = g then (s2.dirtyBack gs).modSnp fun x => { x with unagreed := none } else s2
    | none => s2
  else s

/-- The agreement rule: G_last, and the lowest committed generation of the members. -/
def State.agreement (s : State) (glast lowest : Nat) : State :=
  if glast = 0 then s else if lowest = glast then s.agree glast else s.unagree glast

end Sys2Proof.Machine
end

