-- ==== Sys2Proof/Machine/Remote.lean ====
section
/-! DEFINITION. The source side of remote requests: responses, refusals, timeouts, flagged stores (R272, R273, R276, R277, R281 to
R284), and async copies (R278 to R280). -/

namespace Sys2Proof.Machine

/-! ### Remote loads and atomics of a thread (R272, R281) -/

/-- Bytes of a part with their places in the access. -/
def placed (off : Nat) (bs : List Byte) : List (Nat × Byte) := (List.range bs.length).map fun i => (off + i, bs.getD i 0)

/-- The value of the received bytes. -/
def RemOp.value (r : RemOp) : Nat := leNat ((List.range r.width).map fun i => (tabFind r.data i).getD 0)

/-- A remote access whose parts have all ended: its result, or the error word with REMOTE_ERROR. -/
def State.remEnd (s : State) (t : Tid) (i : Instr) (r : RemOp) : State :=
  let s1 := s.modCtx t fun c => { c with rem := none }
  match r.bad, r.dst with
  | some (c, port), some d => State.settle t i (s1.remoteErr t d r.width c port r.va)
  | none, some d =>
    let s2 := s1.putResult t d r.width r.value
    State.settle t i (.done (if r.acquire then s2.acquired t else s2))
  | _, none => State.settle t i (.done s1)

/-- One part of a thread's access ends, with its bytes or refused with a cause. -/
def State.remPart (s : State) (t : Tid) (tag port : Nat) (res : List Byte ⊕ Nat) : State :=
  let c := s.ctx t
  match c.rem, c.instr with
  | some r, some i =>
    match r.parts.find? fun p => p.1 == tag with
    | none => s
    | some p =>
      let r1 := { r with parts := r.parts.filter fun q => q.1 != tag }
      let r2 := match res with
        | .inl bs => { r1 with data := placed p.2 bs ++ r1.data }
        | .inr cause => { r1 with bad := some (r1.bad.getD (cause, port)) }
      if r2.parts.isEmpty then s.remEnd t i r2 else s.setCtx t { c with rem := some r2 }
  | _, _ => s

/-- The refusal of a store waits for its thread's next instruction boundary (R273). -/
def State.lateRefusal (s : State) (t : Tid) (va : W64) : State :=
  if (s.ctx t).st = .idle then s else s.modCtx t fun c => { c with late := some (c.late.getD va) }

/-! ### Async copies (R279, R280) -/

/-- A context is held for a packet of the copy. -/
def RUse.copyOf (u : RUse) (id : Nat) : Bool :=
  match u with
  | .put i => i == id
  | .get i _ => i == id
  | .cadd i => i == id
  | _ => false

/-- Packets of the copy that are outstanding. -/
def State.copyOuts (s : State) (id : Nat) : Nat := (s.fab.ctxs.filter fun c => c.use.copyOf id).length

/-- Flagged stores wait for the copy no longer. -/
def State.copyOver (s : State) (id : Nat) : State :=
  s.modFab fun x => { x with flags := x.flags.map fun g => { g with copies := g.copies.filter (· != id) } }

/-- The granules of a get's bytes. -/
def granules (va : Nat) (bs : List Byte) : List (Nat × List Byte) :=
  (segments va bs.length).map fun g => (g.1, sliceB bs (g.1 - va) g.2)

/-- The handle recorded for a copy's refusals (Table 11.16). -/
def copyHandle : Nat := 0xFFFFFFFF

/-- One packet of a copy: its bytes, from the copy's offset. -/
def ACopy.chunk (c : ACopy) (max rva : Nat) : Nat := min (min max (c.len - c.sent)) (4096 - rva % 4096)

/-- A put's packet. -/
def State.putPacket (s : State) (c : ACopy) (addr n rva : Nat) : Option State :=
  match s.vread unitAgt (c.src + c.sent) n with
  | (.stall, _) => none
  | (.ok b, s1) =>
    if s1.isSelf addr ∧ !s1.flag fSafe_SAFE then
      match s1.turned 2 addr n 0 0 b with
      | (.ok _, s2) => some s2
      | (.refused k, s2) => some ((s2.refusalNote k 15 c.target copyHandle (BitVec.ofNat 64 rva)).copyRefused c.id)
      | (.wait, _) => none
    else match s1.request (.put c.id) copyHandle (BitVec.ofNat 64 rva) { s1.reqPkt 2 false addr n b with job := c.job } with
      | (.sent _, s2) => some s2
      | (.refused _, s2) => some (s2.copyRefused c.id)
      | (.wait, _) => none
  | (_, s1) => some ((s1.refusalNote 0x0C 15 c.target copyHandle (BitVec.ofNat 64 rva)).copyRefused c.id)

/-- A get's packet. -/
def State.getPacket (s : State) (c : ACopy) (addr n rva : Nat) : Option State :=
  if s.isSelf addr ∧ !s.flag fSafe_SAFE then
    match s.turned 1 addr n 0 0 [] with
    | (.ok b, s1) => some (s1.getWrite c.id (granules (c.dst + c.sent) b))
    | (.refused k, s1) => some ((s1.refusalNote k 15 c.target copyHandle (BitVec.ofNat 64 rva)).copyRefused c.id)
    | (.wait, _) => none
  else match s.request (.get c.id c.sent) copyHandle (BitVec.ofNat 64 rva) { s.reqPkt 1 false addr n [] with job := c.job } with
    | (.sent _, s1) => some s1
    | (.refused _, s1) => some (s1.copyRefused c.id)
    | (.wait, _) => none

/-- The next packet of a copy; none when it must wait. A page that no longer names the target counts as refused (log 16). -/
def State.copyPacket (s : State) (c : ACopy) : Option State :=
  let rva := (if c.put then c.dst else c.src) + c.sent
  let n := c.chunk (if s.v1Target c.target then 128 else 256) rva
  let next := fun (r : Option State) => r.map fun x => x.modCopy c.id fun y => { y with sent := y.sent + n }
  match s.xlate .engine rva (if c.put then .store else .load) with
  | (.ok (.remote addr), s1) => next (if c.put then s1.putPacket c addr n rva else s1.getPacket c addr n rva)
  | (.stall, _) => none
  | (_, s1) => next (some ((s1.refusalNote 0x02 15 c.target copyHandle (BitVec.ofNat 64 rva)).copyRefused c.id))

/-- Packets of a copy sent while it may hold contexts: at most 1,024 (R280). -/
def State.pumpCopy (s : State) (id : Nat) : Nat → State
  | 0 => s
  | fuel + 1 =>
    match s.acopy id with
    | none => s
    | some c =>
      if c.len ≤ c.sent ∨ 1024 ≤ s.copyOuts id then s
      else match s.copyPacket c with
        | some s1 => s1.pumpCopy id fuel
        | none => s

/-- The 64 oldest copies run (R280). -/
def State.pumpCopies (s : State) : State := (s.fab.copies.take 64).foldl (fun t c => t.pumpCopy c.id 1024) s

/-! ### Responses (R281, R282) -/

/-- The answer to a read is kept for its reader (R249, R272). -/
def State.keepGot (s : State) (c : RCtx) (bs : List Byte) (bad : Option (Nat × Nat)) : State :=
  s.modFab fun f => { f with got := f.got ++ [{ use := c.use, addr := c.addr, len := c.len, data := bs, bad := bad }] }

/-- A request ends with its response's bytes. -/
def State.granted (s : State) (c : RCtx) (bs : List Byte) : State :=
  let s1 := s.dropCtx c.tag
  match c.use with
  | .read _ => s1.keepGot c bs none
  | .opnd _ _ => s1.keepGot c bs none
  | .mread _ => s1.keepGot c bs none
  | .unit => s1.keepGot c bs none
  | .repair => s1.keepGot c bs none
  | .load t => s1.remPart t c.tag c.port (.inl bs)
  | .amo t => s1.remPart t c.tag c.port (.inl bs)
  | .get id off =>
    match s1.acopy id with
    | some x => (s1.getWrite id (granules (x.dst + off) bs)).pumpCopies
    | none => s1
  | .put _ => s1.pumpCopies
  | .cadd id => (s1.modCopy id fun x => { x with caddTag := none }).copyOver id
  | _ => s1

/-- A request is refused or times out: recorded in REM_LAST, and told to whoever sent it. -/
def State.denied (s : State) (c : RCtx) (cause : Nat) : State :=
  let s1 := s.refusalNote cause c.port c.target c.handle c.va
  match c.use with
  | .load t => (s1.dropCtx c.tag).remPart t c.tag c.port (.inr cause)
  | .amo t => (s1.dropCtx c.tag).remPart t c.tag c.port (.inr cause)
  | .store t =>
    let s2 := if c.flag then s1 else s1.breakFlag c.target fun f => f.tags.contains c.tag
    (s2.dropCtx c.tag).lateRefusal t c.va
  | .matrix t tile =>
    let s2 := (s1.breakFlag c.target fun f => f.tags.contains c.tag).dropCtx c.tag
    s2.setMat t.groveOf ((s2.mat t.groveOf).poison tile msREMOTE)
  | .digest t _ => (s1.dropCtx c.tag).setMat t.groveOf ((s1.mat t.groveOf).err msDIGEST)
  | .put id => ((s1.copyRefused id).dropCtx c.tag).pumpCopies
  | .get id _ => ((s1.copyRefused id).dropCtx c.tag).pumpCopies
  | .cadd id => (((s1.copyRefused id).dropCtx c.tag).modCopy id fun x => { x with caddTag := none }).copyOver id
  | .model m =>
    let s2 := (s1.breakFlag c.target fun f => f.tags.contains c.tag).dropCtx c.tag
    (s2.setModelBit m 18 true).setModelBit m 19 true
  | .pool => ((s1.breakFlag c.target fun f => f.tags.contains c.tag).dropCtx c.tag).snapFail 0x11
  | .mgmt => (s1.breakFlag c.target fun f => f.tags.contains c.tag).dropCtx c.tag
  | .read _ => (s1.dropCtx c.tag).keepGot c [] (some (cause, c.port))
  | .opnd _ _ => (s1.dropCtx c.tag).keepGot c [] (some (cause, c.port))
  | .mread _ => (s1.dropCtx c.tag).keepGot c [] (some (cause, c.port))
  | .unit => (s1.dropCtx c.tag).keepGot c [] (some (cause, c.port))
  | .repair => (s1.dropCtx c.tag).keepGot c [] (some (cause, c.port))
  | .gone => s1.dropCtx c.tag

/-- A response to this package's own request: one whose end-to-end CRC does not match is a detection and refuses the request with
INTEGRITY (R265); one without a context comes after its timeout (R284). What waited for the answer or for a context goes on. -/
def State.respond (s : State) (port cmd : Nat) (k : Packet) : State :=
  match s.rctx k.tag with
  | none => (s.modFab fun f => { f with late := f.late.filter (· != k.tag) }).inc fWin_LATE_RESP
  | some c =>
    if k.e2e ≠ crc32c (pktBytes cmd k) then ((s.integrity port k.addr).denied c 3).releaseWaiting
    else if cmd = 0x13 then s
    else (if cmd = 0x12 ∨ k.cause ≠ 0 then s.denied c k.cause else s.granted c k.data).releaseWaiting

/-- An arriving response (R266): forwarded by its SRC_PKG when it is another package's, in safe stop too (R271). -/
def State.response (s : State) (port cmd : Nat) (k : Packet) : State :=
  if s.portState port ≠ 2 then s
  else (if k.src = s.pkgId then s.respond port cmd k
    else s.send { src := none, cmd := cmd, flag := k.flagged, len := k.len, dst := k.src, job := k.job, addr := k.addr.toNat, tag := k.tag,
                  cause := k.cause, aop := k.aop, aw := k.aw, data := k.data, e2e := some k.e2e }).giveCredit port 1 (pktSlots k)

/-- RDR: its payload is the operand `data`: the data read, or none with a cause. -/
def execRdr (port : Fin 16) (pkt : Packet) (data : List Byte) (s : State) : Host.Outcome State Fault Refusal :=
  .next (s.response port 0x10 { pkt with data := data })

/-- ACK: of an atomic, the old value. -/
def execAck (port : Fin 16) (pkt : Packet) (s : State) : Host.Outcome State Fault Refusal := .next (s.response port 0x11 pkt)

/-- NAK: the refusal's cause. -/
def execNakResponse (port : Fin 16) (pkt : Packet) (s : State) : Host.Outcome State Fault Refusal := .next (s.response port 0x12 pkt)

/-- HOLD, the port it arrives on and the packet: the request's timer starts again; the timer is not modelled. -/
def execHold (arrival : Fin 16 × Packet) (s : State) : Host.Outcome State Fault Refusal :=
  .next (s.response arrival.1 0x13 arrival.2)

/-- The timer of the request has not started: its packet waits for credits on a port (R283). While its port retrains the timer runs
(R287). -/
def State.unsent (s : State) (c : RCtx) : Bool :=
  s.portState c.port != 3 && (s.port c.port).waiting.any fun k => k.tag == c.tag && k.src.isNone && k.cmd < 0x10

/-- A request that has timed out: its packet, if it still waits, is not sent any more, and a response may come late. -/
def State.timedOut (s : State) (c : RCtx) : State :=
  let mine := fun (k : OutPkt) => k.tag == c.tag && k.src.isNone && decide (k.cmd < 0x10)
  if (s.port c.port).waiting.any mine then s.modPort c.port fun x => { x with waiting := x.waiting.filter fun k => !mine k }
  else s.modFab fun f => { f with late := f.late ++ [c.tag] }

/-- REMOTE_TIMEOUT (R284). -/
def execRemoteTimeout (tag : Nat) (_held : Bool) (s : State) : Host.Outcome State Fault Refusal :=
  .next (match s.rctx tag with
    | some c => if s.unsent c then s else ((((s.timedOut c).inc fWin_TIMEOUTS).denied c 1).releaseWaiting)
    | none => s)

/-- REMOTE_STORE_REFUSAL: a thread at an instruction boundary takes the REMOTE_ERROR of a refused store (R273). -/
def execRemoteStoreRefusal (t : Tid) (s : State) : Host.Outcome State Fault Refusal :=
  let c := s.ctx t
  .next (match c.late with
    | some va =>
      if c.st = .ready ∨ c.st = .held ∨ (c.st = .wait ∧ c.await = .cond) then
        (s.setCtx t { c with late := none }).takeFault t { code := 0x23, va := va }
      else s
    | none => s)

/-! ### Flagged stores (R276, R277) -/

/-- A write that a flagged store waits for (R43, R277): a store of a thread, an engine, an update pass or a unit of the package, or a
packet of a put copy. -/
def RUse.writes : RUse → Bool
  | .store _ => true
  | .matrix _ _ => true
  | .put _ => true
  | .cadd _ => true
  | .model _ => true
  | .pool => true
  | .mgmt => true
  | _ => false

/-- A context is held for a write to the target. -/
def RCtx.writeTo (c : RCtx) (target : Nat) : Bool := c.target == target && c.use.writes

/-- A flagged store that joins those that wait, behind every earlier write to its target. -/
def State.flagNew (s : State) (t : Tid) (target : Nat) (va : W64) (parts : List (Nat × List Byte)) : State :=
  s.modFab fun f =>
    { f with
        flags := f.flags ++ [{ id := f.nextId, t := t, target := target, parts := parts, va := va, bad := f.broken.contains target,
                               tags := (f.ctxs.filter fun c => c.writeTo target).map (·.tag),
                               copies := (f.copies.filter fun c => c.put && c.target == target).map (·.id) }],
        nextId := f.nextId + 1, broken := f.broken.filter (· != target) }

/-- A flagged store issued: a piece of it beyond the first joins the piece before. -/
def State.flagIssue (s : State) (t : Tid) (target : Nat) (first : Bool) (va : W64) (parts : List (Nat × List Byte)) : State :=
  match s.fab.flags.getLast? with
  | some g =>
    if !first ∧ g.t = t ∧ g.target = target ∧ g.va = va then
      s.modFab fun f => { f with flags := f.flags.map fun x => if x.id = g.id then { x with parts := x.parts ++ parts } else x }
    else s.flagNew t target va parts
  | none => s.flagNew t target va parts

/-- The flagged store leaves the waiting ones. -/
def State.dropFlag (s : State) (id : Nat) : State := s.modFab fun f => { f with flags := f.flags.filter fun g => g.id != id }

/-- The outcome of sending the parts of a flagged store. -/
inductive FlagRes where
  | ok
  | refused
  | wait (left : List (Nat × List Byte))
  deriving DecidableEq, Repr

/-- The parts of a flagged store sent in order; later flagged stores to the target wait for them too. A part to this package itself
is turned back (R38). -/
def State.flagParts (s : State) (g : FlagReq) : List (Nat × List Byte) → FlagRes × State
  | [] => (.ok, s)
  | (addr, bs) :: rest =>
    if s.isSelf addr ∧ !s.flag fSafe_SAFE then
      match s.turned 2 addr bs.length 0 0 bs with
      | (.ok _, s1) => s1.flagParts g rest
      | (.refused c, s1) => (.refused, s1.refusalNote c 15 g.target g.t.handle g.va)
      | (.wait, s1) => (.wait ((addr, bs) :: rest), s1)
    else match s.request (.store g.t) g.t.handle g.va (s.reqPkt 2 true addr bs.length bs) with
      | (.sent tag, s1) =>
        (s1.modFab fun x => { x with flags := x.flags.map fun h =>
          if h.target = g.target ∧ h.id ≠ g.id then { h with tags := h.tags ++ [tag] } else h }).flagParts g rest
      | (.refused _, s1) => (.refused, s1)
      | (.wait, s1) => (.wait ((addr, bs) :: rest), s1)

/-- FLAGGED_STORE_SEND: sent when every earlier write to its target has been acknowledged or refused; refused as a whole with
FLAG_BROKEN when one of them was refused (R277). -/
def execFlaggedStoreSend (id : Nat) (s : State) : Host.Outcome State Fault Refusal :=
  .next (match s.fab.flags.find? fun f => f.id == id with
    | none => s
    | some f =>
      let first := (s.fab.flags.find? fun g => g.target == f.target).all fun g => g.id == id
      if !first || !f.tags.isEmpty || !f.copies.isEmpty then s
      else if f.bad then
        ((s.dropFlag id).refusalNote 0x0D 15 f.target f.t.handle f.va).lateRefusal f.t f.va
      else match s.flagParts f f.parts with
        | (.ok, s1) => s1.dropFlag id
        | (.refused, s1) => (s1.dropFlag id).lateRefusal f.t f.va
        | (.wait left, s1) => s1.modFab fun x => { x with flags := x.flags.map fun h => if h.id = id then { h with parts := left } else h })

end Sys2Proof.Machine
end

