-- ==== Sys2Proof/Machine/Link.lean ====
section
/-! DEFINITION. The link layer and the ports (R261 to R263, R285 to R287, R418). -/

namespace Sys2Proof.Machine

/-! ### Port states (Table 11.14) -/

/-- A packet queued on a port that cannot send it is refused with UNREACHABLE: to its sender, or to this package's own unit. A
response is lost. -/
def State.refuseQueued (s : State) (k : OutPkt) : State :=
  if 0x10 ≤ k.cmd then s
  else match k.src with
    | some src => s.send (respPkt 0x12 src k.job k.addr k.tag 2 [])
    | none => match s.rctx k.tag with
      | some c => s.denied c 2
      | none => s

/-- What the last training negotiated is in force no longer (Table 11.15). -/
def State.clearLink (s : State) (p : Nat) : State :=
  ((((s.setFld (fPort_VERSION p) 0).setFld (fPort_LANES p) 0).setFlag (fPort_ENC p) false).setFlag (fPort_ENC_MISMATCH p) false).setFld
    (fPort_PEER_PKG p) 0xFFFF

/-- A port stops: its queued packets are refused and its link state is dropped. -/
def State.stopPort (s : State) (p st : Nat) : State :=
  let q := (s.port p).waiting
  q.foldl (fun t k => t.refuseQueued k) (((s.clearLink p).setPortState p st).setPort p Port.fresh)

/-- A port goes DOWN: fault and event records (Tables 15.9, 18.2), and the Hazel operations that lose an edge (R304). -/
def State.portDown (s : State) (p : Nat) : State :=
  ((s.stopPort p 4).report { cls := 0x43, react := 0, page := 0x040 + p, unit := p } (some (logFail, .portDown))).hzEdges.releaseWaiting

/-- An ACTIVE port enters RETRAINING. -/
def State.retrainPort (s : State) (p : Nat) : State :=
  ((s.setPortState p 3).addSat (fPort_RETRAINS p) 1).modPort p fun x => { x with flitFails := 0, trainFails := 0 }

/-- EN written 1 (R286): a DISABLED port trains, from BS6 on. -/
def State.portEn (s : State) (p : Nat) : State :=
  if s.portState p = 0 ∧ 6 ≤ s.fld fBoot_STAGE then (s.setPortState p 1).setPort p Port.fresh else s

/-- EN cleared. -/
def State.portDis (s : State) (p : Nat) : State := if s.portState p = 0 then s else (s.stopPort p 0).hzEdges.releaseWaiting

/-- RETRAIN written. -/
def State.portRetr (s : State) (p : Nat) : State :=
  if s.portState p = 2 then s.retrainPort p
  else if s.portState p = 4 then ((s.setFlag (fPort_ENC_MISMATCH p) false).setPortState p 1).modPort p fun x => { x with trainFails := 0 }
  else s

/-- The port trains: TRAINING or RETRAINING. -/
def State.trains (s : State) (p : Nat) : Bool := s.portState p == 1 || s.portState p == 3

/-- A port goes DOWN because its peer does not encrypt. -/
def State.encMismatch (s : State) (p : Nat) : State := (s.portDown p).setFlag (fPort_ENC_MISMATCH p) true

/-- A training fails: three in a row take the port DOWN. -/
def State.trainFailed (s : State) (p : Nat) : State :=
  let n := (s.port p).trainFails + 1
  if 3 ≤ n then s.portDown p else s.modPort p fun x => { x with trainFails := n }

/-- The widest of 4, 2 and 1 lanes at which every lane of the width passes (R286); a width of n takes the lanes below n (DESIGN
CHOICE, assumption log 10). 0: none does. -/
def linkLanes (pass : BitVec 4) : Nat :=
  if pass = 15 then 4 else if pass.getLsbD 0 && pass.getLsbD 1 then 2 else if pass.getLsbD 0 then 1 else 0

/-- The link layer of a port that has trained. A new link is granted the receiver's buffers as credits; after a retraining what was not
acknowledged is replayed. The keys are those of a fresh exchange (R418). -/
def Port.trained (x : Port) (p session : Nat) (again : Bool) : Port :=
  { x with trainFails := 0, flitFails := 0, txKey := 0, rxKey := 0, txGroup := 0, rxGroup := 0, tagFails := 0, txBlock := [], rxBlock := [],
           txTurn := false, rxTurn := false, rxSeq := x.ackSeq, session := session,
           owed := if again then x.owed else (List.range 4).foldl (fun o c => tabSet cntZero o c (Config.rxSlots p c)) [] }

/-- PORT_TRAINING_DONE: the port is ACTIVE at the highest version that both sides support (`v2`: the peer supports version 2) and the
widest width; after a retraining its unacknowledged flits are replayed. Version 1 links do not encrypt, and ENC_POL decides whether
a version 2 link does (R285). A training at which no width passes fails. -/
def execPortTrainingDone (p : Fin 16) (v2 : Bool) (lanes : BitVec 4) (peer : BitVec 16) (enc : Bool) (s : State) :
    Host.Outcome State Fault Refusal :=
  let pol := s.fld (fPort_ENC_POL p)
  let e := enc && v2 && pol != 0
  .next (if !s.trains p then s
  else if linkLanes lanes = 0 then s.trainFailed p
  else if pol = 2 ∧ !e then s.encMismatch p
  else
    let again := s.portState p == 3
    let s1 := if again then s.setFld (fPort_FLIT_REPLAY p) (s.fld (fPort_FLIT_REPLAY p) + (s.port p).replay.length) else s
    let s2 := (((((s1.setPortState p 2).setFld (fPort_VERSION p) (if v2 then 2 else 1)).setFld (fPort_LANES p) (linkLanes lanes)).setFlag
      (fPort_ENC p) e).setFlag (fPort_ENC_MISMATCH p) false).setFld (fPort_PEER_PKG p) peer.toNat
    (s2.draw.2.modPort p fun x => x.trained p s.fresh again).pump p)

/-- PORT_TRAINING_FAIL: three in a row take the port DOWN; a mismatch under ENC_POL 2 does at once; a failed key exchange counts
under an ENC_POL other than 0 (R418). -/
def execPortTrainingFail (p : Fin 16) (encMismatch kxFail : Bool) (s : State) : Host.Outcome State Fault Refusal :=
  let pol := s.fld (fPort_ENC_POL p)
  .next (if !s.trains p ∨ (kxFail ∧ pol = 0) then s
  else
    let s1 := if kxFail then s.addSat fSec_KX_FAIL 1 else s
    if encMismatch ∧ pol = 2 then s1.encMismatch p else s1.trainFailed p)

/-- PORT_LOSS_OF_SIGNAL, or a lane failure. -/
def execPortLossOfSignal (p : Fin 16) (s : State) : Host.Outcome State Fault Refusal :=
  .next (if s.portState p = 2 then s.retrainPort p else s)

/-! ### Replay (R262) -/

/-- The flits from a sequence number on, as the replay buffer holds them. -/
def Port.from (x : Port) (seq : BitVec 16) : List Flit := x.replay.dropWhile fun e => e.seq != seq

/-- A replay from a sequence number: counted; the eighth failure of one flit in a row retrains the port. -/
def State.replayFrom (s : State) (p : Nat) (seq : BitVec 16) : State :=
  let x := s.port p
  let n := (x.from seq).length
  if n = 0 then s
  else
    let fails := if x.failSeq = seq ∧ x.flitFails ≠ 0 then x.flitFails + 1 else 1
    let s1 := (s.setPort p { x with failSeq := seq, flitFails := fails }).setFld (fPort_FLIT_REPLAY p)
      (s.fld (fPort_FLIT_REPLAY p) + n)
    if 8 ≤ fails then s1.retrainPort p else s1

/-- NAK: the peer names the flit it expects. -/
def execNak (p : Fin 16) (seq : BitVec 16) (s : State) : Host.Outcome State Fault Refusal :=
  .next (if s.portState p = 2 then s.replayFrom p seq else s)

/-- ACK_TIMEOUT: 4 µs without an ACK. -/
def execAckTimeout (p : Fin 16) (s : State) : Host.Outcome State Fault Refusal :=
  .next (if s.portState p = 2 then
    match (s.port p).replay with
    | e :: _ => s.replayFrom p e.seq
    | [] => s
  else s)

/-! ### Flits received (R261, R262, R285) -/

/-- A NAK sent for the flit the receiver expects; it discards flits until that one arrives. -/
def State.sendNak (s : State) (p : Nat) : State :=
  (s.modPort p fun x => { x with discard := true }).answer (.message 0x103 p (natLE 2 ((s.port p).rxSeq + 1).toNat))

/-- Flits that an ACK covers leave the replay buffer; progress ends a run of failures. -/
def Port.acked (x : Port) (ack : BitVec 16) : Port :=
  if x.replay.any fun e => e.seq == ack then
    { x with replay := (x.from ack).drop 1, flitFails := 0 }
  else x

/-- Credits returned (Table 11.2). -/
def Port.credited (x : Port) (vc n : Nat) : Port := { x with credits := tabSet cntZero x.credits vc (x.credit vc + n) }

/-! ### Packets received (R261, R265) -/

/-- The payload bytes that follow a header: LEN, but none after RD. -/
def payloadLen (cmd : Nat) (b : List Byte) : Nat := if cmd = 1 then 0 else fieldLE b 2 2 % 512

/-- A packet read from its bytes (Table 11.5). -/
def parsePacket (b : List Byte) : Packet :=
  let n := payloadLen (fieldLE b 0 1) b
  { flagged := bitAt (fieldLE b 1 1) 0, len := fieldLE b 2 2 % 512, src := fieldLE b 4 2, job := fieldLE b 6 2,
    addr := BitVec.ofNat 64 (fieldLE b 8 8), tag := fieldLE b 16 4 % 2 ^ 18, cause := fieldLE b 19 1, aop := fieldLE b 20 1 % 16,
    aw := fieldLE b 20 1 / 16 % 4, data := sliceB b 24 n, e2e := BitVec.ofNat 32 (fieldLE b (24 + n) 4) }

/-- A packet of VC2 or VC3: forwarded to another package, Canopy data not in safe stop (R266, R271, R310). One for this package is a row
of its own: the spec lays its fields out no further (assumption log 20). -/
def State.passOn (s : State) (port cmd : Nat) (k : Packet) : State :=
  let dst := k.addr.toNat / 2 ^ 48
  (if dst = s.pkgId ∨ (s.flag fSafe_SAFE ∧ 0x28 ≤ cmd ∧ cmd < 0x30) then s
   else s.send { src := some k.src, cmd := cmd, flag := k.flagged, len := k.len, dst := dst, job := k.job, addr := k.addr.toNat % 2 ^ 48,
                 tag := k.tag, cause := k.cause, aop := k.aop, aw := k.aw, data := k.data, e2e := some k.e2e }).giveCredit port (vcOf cmd)
    (pktSlots k)

/-- A whole packet received: a request, unknown commands among them (R264); a response; or one of VC2 or VC3. -/
def State.packetIn (s : State) (port cmd : Nat) (k : Packet) : State :=
  if 0x10 ≤ cmd ∧ cmd ≤ 0x13 then s.response port cmd k
  else if 0x20 ≤ cmd ∧ cmd < 0x40 then s.passOn port cmd k
  else s.arrive port cmd k

/-- The packets whose slots have all come are taken in order; a slot of CMD 0 is empty. -/
def State.deliver (s : State) (p : Nat) : Nat → State
  | 0 => s
  | n + 1 =>
    let b := (s.port p).rx
    let cmd := fieldLE b 0 1
    let size := 16 * ((24 + payloadLen cmd b + 8 + 15) / 16)
    if b.length < 16 then s
    else if cmd = 0 then (s.modPort p fun x => { x with rx := b.drop 16 }).deliver p n
    else if b.length < size then s
    else ((s.modPort p fun x => { x with rx := b.drop size }).packetIn p cmd (parsePacket b)).deliver p n

/-- Slots received. -/
def State.takeSlots (s : State) (p : Nat) (b : List Byte) : State :=
  let s1 := s.modPort p fun x => { x with rx := x.rx ++ b }
  s1.deliver p ((s1.port p).rx.length / 16)

/-- A tag flit of an encrypted link (R285): the packets of its group go on once its tag verifies. A failed group is discarded and NAKed
from its first flit; four failures within 1 s take the port DOWN, and whether four fall within 1 s is free. -/
def State.tagFlit (s : State) (p : Nat) (seq : BitVec 16) (tag : List Byte) : State :=
  let x := s.port p
  let key := x.key p false
  let iv := gcmIv x.rxKey x.rxGroup
  if gcmGroupTag key iv x.rxBlock = tag then
    let y := { x with rxSeq := seq, discard := false, rxBlock := [], rxGroup := x.rxGroup + 1 }
    let z := if y.rxTurn then { y with rxTurn := false, rxKey := y.rxKey + 1, rxGroup := 0 } else y
    (s.setPort p z).takeSlots p ((List.range x.rxBlock.length).flatMap fun i => gcmSlots key iv i (x.rxBlock.getD i ([], [])).2)
  else
    let n := x.tagFails + 1
    let s2 := (s.addSat (fPort_AUTH_FAIL p) 1).setPort p { x with tagFails := n, rxSeq := x.ackSeq, rxBlock := [] }
    if 4 ≤ n ∧ Config.outcome s2.fresh then s2.draw.2.portDown p else s2.draw.2.sendNak p

/-- The next flit in sequence: a tag flit; a data flit, held until its tag on an encrypted link. -/
def State.inSeq (s : State) (p : Nat) (seq : BitVec 16) (tagged : Bool) (b : List Byte) : State :=
  let enc := s.flag (fPort_ENC p)
  if tagged then (if enc then s.tagFlit p seq (sliceB b 8 16) else s.modPort p fun y => { y with rxSeq := seq, discard := false })
  else
    let s1 := s.modPort p fun y =>
      { y with rxSeq := seq, discard := false, rxBlock := if enc then y.rxBlock ++ [(sliceB b 0 8, sliceB b 8 240)] else y.rxBlock }
    if enc then s1 else s1.takeSlots p (sliceB b 8 240)

/-- A good flit's ACK, credits and type. -/
def State.goodFlit (s : State) (p : Nat) (b : List Byte) : State :=
  let seq := BitVec.ofNat 16 (fieldLE b 0 2)
  let typ := fieldLE b 4 1 % 16
  let cr := fieldLE b 5 3
  let s1 := (s.modPort p fun x => (x.acked (BitVec.ofNat 16 (fieldLE b 2 2))).credited (cr % 4) (cr / 4)).pump p
  let x := s1.port p
  if typ = 1 ∨ typ = 2 then
    if seq ≠ x.rxSeq + 1 then (if x.discard then s1 else s1.sendNak p) else s1.inSeq p seq (typ == 2) b
  else if typ = 0 then (if seq = x.rxSeq ∨ x.discard then s1 else s1.sendNak p)
  else if typ = 3 then s1.replayFrom p seq
  else s1

/-- FLIT_RECEIVE: a flit is bad when its CRC fails or its FEC codeword is uncorrectable (R262): `fec` is none; `some n`: `n` codewords
were corrected, which Table 11.15 counts. -/
def execFlitReceive (p : Fin 16) (bytes : List Byte) (fec : Option Nat) (s : State) : Host.Outcome State Fault Refusal :=
  .next (if s.portState p ≠ 2 then s
  else
    let s1 := match fec with
      | some 0 => s
      | some n => s.setFld (fPort_FEC_CORR p) (s.fld (fPort_FEC_CORR p) + n)
      | none => s.inc (fPort_FEC_UNCORR p)
    if fec.isNone ∨ crc64 (sliceB bytes 0 0xF8) ≠ BitVec.ofNat 64 (fieldLE bytes 0xF8 8) then
      (if (s1.port p).discard then s1 else s1.sendNak p)
    else s1.goodFlit p bytes)

/-- REKEY: a direction switches to its other key slot at a group boundary (R285). -/
def execRekey (p : Fin 16) (tx : Bool) (s : State) : Host.Outcome State Fault Refusal :=
  .next (if s.portState p = 2 ∧ s.flag (fPort_ENC p) then
    s.modPort p fun x =>
      if tx then (if x.txBlock.isEmpty then { x with txKey := x.txKey + 1, txGroup := 0 } else { x with txTurn := true })
      else (if x.rxBlock.isEmpty then { x with rxKey := x.rxKey + 1, rxGroup := 0 } else { x with rxTurn := true })
  else s)

end Sys2Proof.Machine
end

