-- ==== Sys2Proof/Machine/Copies.lean ====
section
/-! DEFINITION. ACOPY and the arrival counters (R278 to R280), windows (R268 to R270). -/

namespace Sys2Proof.Machine

/-! ### The sides of a copy (R279, Table 11.13) -/

/-- What a range of a copy names: local DRAM, one package, or something else. -/
inductive Side where
  | dram
  | remote (pkg : Nat)
  | other
  deriving DecidableEq, Repr

/-- The side of one granule. -/
def Target.side : Target → Side
  | .dram _ => .dram
  | .remote a => .remote (a / 2 ^ 48)
  | _ => .other

/-- Two granules of one range. -/
def Side.join (a b : Side) : Side := if a = b then a else .other

/-- The side of a range, or the fault of its translation, or a wait. -/
def State.sideOf (s : State) (who : Who) (k : AKind) : List (Nat × Nat) → Option Side → Pr × Option Side × State
  | [], acc => (.ok, acc, s)
  | (va, n) :: rest, acc =>
    match s.xlate who va k with
    | (.ok t, s1) =>
      let x := if (match t with | .dram key => k.writes && s1.protectedKey key n | _ => false) then none else some t.side
      (match x with
       | none => (.fault 0x13 va, acc, s1)
       | some y => s1.sideOf who k rest (some (match acc with | none => y | some z => z.join y)))
    | (.fault c, s1) => (.fault c va, acc, s1)
    | (.stall, s1) => (.stall, acc, s1)

/-- The fields of a copy descriptor (Table 11.11). -/
def acopyOf (d : List Byte) (t : Tid) (job : Nat) : ACopy :=
  { id := 0, t := t, job := job, put := false, src := fieldLE d 0 8, dst := fieldLE d 8 8, len := fieldLE d 16 8,
    scnt := fieldLE d 24 2 % 4096, scntEn := bitAt (fieldLE d 24 2) 12, dcnt := fieldLE d 26 2 % 4096,
    dcntEn := bitAt (fieldLE d 26 2) 12, target := 0, sent := 0, refused := false, caddTag := none, writesDone := false }

/-- ACOPY_FORMAT, a get's DCNT_EN apart. -/
def acopyBad (d : List Byte) : Bool :=
  let len := fieldLE d 16 8
  decide (8192 ≤ fieldLE d 24 2) || decide (8192 ≤ fieldLE d 26 2) || fieldLE d 28 4 != 0 || fieldLE d 0 8 % 8 != 0 ||
    fieldLE d 8 8 % 8 != 0 || len % 8 != 0 || len == 0 || decide (2 ^ 34 < len)

/-- A counter allocated to the running job. -/
def State.cntOk (s : State) (i : Nat) : Bool := decide (i < 4096) && s.fab.cnts.contains i && s.jobRuns

/-- An accepted copy joins the queue and begins. -/
def State.addCopy (s : State) (c : ACopy) : State :=
  (s.modFab fun f => { f with copies := f.copies ++ [{ c with id := f.nextId }], nextId := f.nextId + 1 }).pumpCopies

/-- A copy whose sides are known. -/
def State.acopySides (s : State) (c : ACopy) (a b : Side) : TRes :=
  match a, b with
  | .dram, .remote p => if c.scntEn ∧ !s.cntOk c.scnt then .fault s { code := 0x52 } else .done (s.addCopy { c with put := true, target := p })
  | .remote p, .dram =>
    if c.dcntEn then .fault s { code := 0x50 }
    else if c.scntEn ∧ !s.cntOk c.scnt then .fault s { code := 0x52 }
    else .done (s.addCopy { c with target := p })
  | _, _ => .fault s { code := 0x51 }

/-- ACOPY. -/
def execAcopy (t : Tid) (a : Reg) (s : State) : Host.Outcome State Fault Refusal :=
  .next (s.issue t (.acopy t a) profWork fun s1 =>
    let va := (s1.ctx t).ga a
    if 256 ≤ s1.fab.copies.length then .wait s1 .cond
    else if va.toNat % 32 ≠ 0 then .fault s1 { code := 0x50 }
    else match s1.vread (s1.agtOf t) va.toNat 32 with
      | (.ok d, s2) =>
        if acopyBad d then .fault s2 { code := 0x50 }
        else
          let c := acopyOf d t (s2.ctx t).job
          match s2.sideOf (s2.whoOf t) .load (segments c.src c.len) none with
          | (.ok, sa, s3) =>
            match s3.sideOf (s3.whoOf t) .store (segments c.dst c.len) none with
            | (.ok, sb, s4) => s4.acopySides c (sa.getD .other) (sb.getD .other)
            | (.fault k v, _, s4) => .fault s4 { code := k, va := BitVec.ofNat 64 v }
            | (.stall, _, s4) => .wait s4 .access
          | (.fault k v, _, s3) => .fault s3 { code := k, va := BitVec.ofNat 64 v }
          | (.stall, _, s3) => .wait s3 .access
      | (r, s2) => readFault s2 va r)

/-- Bytes of the copy that wait to be written. -/
def State.getParked (s : State) (id : Nat) : Bool := (s.fab.homes.any fun h => h.get == some id) || s.fab.gets.any fun g => g.1 == id

/-- The CADD of a put whose writes have ended (R280 step 3). -/
def State.sendCadd (s : State) (c : ACopy) : State :=
  let addr := c.target * 2 ^ 48 + c.dcnt
  let data := natLE 8 (1 + if c.refused then 2 ^ 63 else 0)
  let fin := fun (x : State) => (x.modCopy c.id fun y => { y with writesDone := true }).copyOver c.id
  if s.isSelf addr ∧ !s.flag fSafe_SAFE then
    match s.turned 5 addr 8 0 0 data with
    | (.refused k, s1) => fin ((s1.refusalNote k 15 c.target copyHandle 0).copyRefused c.id)
    | (_, s1) => fin s1
  else match s.request (.cadd c.id) copyHandle 0 { s.reqPkt 5 false addr 8 data with job := c.job } with
    | (.sent tag, s1) => s1.modCopy c.id fun y => { y with writesDone := true, caddTag := some tag }
    | (.refused _, s1) => fin (s1.copyRefused c.id)
    | (.wait, _) => s

/-- ACOPY_WRITES_DONE: every packet of the copy has been sent and answered. -/
def execAcopyWritesDone (id : Nat) (s : State) : Host.Outcome State Fault Refusal :=
  let s1 := s.pumpCopies
  .next (match s1.acopy id with
    | none => s1
    | some c =>
      if c.writesDone ∨ c.sent < c.len ∨ s1.copyOuts id ≠ 0 ∨ s1.getParked id then s1
      else if c.put ∧ c.dcntEn then s1.sendCadd c
      else (s1.modCopy id fun y => { y with writesDone := true }).copyOver id)

/-- ACOPY_COMPLETE: SCNT advances once (R280 step 4), and the next copy of the queue runs. -/
def execAcopyComplete (id : Nat) (s : State) : Host.Outcome State Fault Refusal :=
  .next (match s.acopy id with
    | none => s
    | some c =>
      if !c.writesDone ∨ c.caddTag.isSome then s
      else
        let s1 := s.modFab fun f => { f with copies := f.copies.filter fun x => x.id != id }
        (if c.scntEn then s1.addCounter c.scnt 1 c.refused else s1).pumpCopies)

/-! ### Arrival counters (R278, Table 11.12) -/

/-- ACNT.ALLOC. -/
def execAcntAlloc (t : Tid) (d : Reg) (s : State) : Host.Outcome State Fault Refusal :=
  .next (s.issue t (.acntAlloc t d) profWork fun s1 =>
    match (List.range 4096).find? fun i => !s1.fab.cnts.contains i with
    | some i =>
      .done (((s1.modFab fun f => { f with cnts := f.cnts ++ [i] }).setCounter i 0).modCtx t fun c => c.sa d (BitVec.ofNat 64 i))
    | none => .done (s1.modCtx t fun c => c.sa d (BitVec.allOnes 64)))

/-- An instruction on a counter that the job holds. -/
def State.onCounter (s : State) (t : Tid) (i : Instr) (a : Reg) (f : State → Nat → TRes) : State :=
  s.issue t i profWork fun s1 =>
    let n := ((s1.ctx t).ga a).toNat
    if s1.cntOk n then f s1 n else .fault s1 { code := 0x52 }

/-- ACNT.FREE. -/
def execAcntFree (t : Tid) (a : Reg) (s : State) : Host.Outcome State Fault Refusal :=
  .next (s.onCounter t (.acntFree t a) a fun s1 n => .done (s1.modFab fun f => { f with cnts := f.cnts.filter (· != n) }))

/-- ACNT.WAIT: until the count reaches B, then a read with acquire. -/
def execAcntWait (t : Tid) (d a b : Reg) (s : State) : Host.Outcome State Fault Refusal :=
  .next (s.onCounter t (.acntWait t d a b) a fun s1 n =>
    let v := s1.counter n
    if v.toNat % 2 ^ 63 < ((s1.ctx t).ga b).toNat then .wait s1 .cond
    else .done ((s1.acquired t).modCtx t fun c => c.sa d v))

/-- ACNT.SET: a release store of B, ERR included. -/
def execAcntSet (t : Tid) (a b : Reg) (s : State) : Host.Outcome State Fault Refusal :=
  .next (s.onCounter t (.acntSet t a b) a fun s1 n =>
    if s1.released t then .done (s1.setCounter n ((s1.ctx t).ga b)) else .wait s1 .cond)

/-! ### Windows (R268 to R270) -/

/-- WIN_USED follows the table. -/
def State.syncWin (s : State) : State := s.setFld fWin_WIN_USED s.windows.length

/-- The range of a window lies wholly in populated, usable memory of one aperture (Table 2.7, R36). -/
def State.winRange (s : State) (base len : Nat) : Bool :=
  let u := (80 - s.rsvGib) * 2 ^ 30
  if base < 0x10000000000 then decide (base % 2 ^ 37 + len ≤ u)
  else if base < 0x18000000000 then decide (base - 0x10000000000 + len ≤ 4 * u)
  else if base < 0x20000000000 then decide (base - 0x18000000000 + len ≤ 4 * u)
  else if base < 0x30000000000 then decide (base - 0x20000000000 + len ≤ 8 * u)
  else false

/-- The refusal code of a window request, 0 when it is accepted, and the index it takes (Table 11.8). -/
def State.winCheck (s : State) (r : List Byte) (lendOk : Bool) : Nat × Nat :=
  let base := fieldLE r 0 8
  let len := fieldLE r 8 8
  let fl := fieldLE r 0x12 1
  let any := bitAt (fieldLE r 0x13 1) 0
  let idx := fieldLE r 0x14 2 % 16384
  let lend := bitAt fl 3
  if fl / 16 ≠ 0 ∨ fieldLE r 0x13 1 / 2 ≠ 0 ∨ fieldLE r 0x14 2 / 16384 ≠ 0 ∨ fieldLE r 0x1A 6 ≠ 0 ∨ base / 2 ^ 48 ≠ 0 ∨
      base % 65536 ≠ 0 ∨ fieldLE r 0x18 2 < fieldLE r 0x16 2 ∨ (lend ∧ !lendOk) then (1, 0)
  else if len % 65536 ≠ 0 ∨ len = 0 ∨ 2 ^ 34 < len then (2, 0)
  else if !lend ∧ !(s.jobRuns && s.jobId == fieldLE r 0x10 2) then (3, 0)
  else if !s.winRange base len then (4, 0)
  else if any then
    match (List.range 16384).find? fun i => !(s.window i).valid with
    | some i => (0, i)
    | none => (6, 0)
  else if (s.window idx).valid then (5, 0)
  else (0, idx)

/-- A window registered: the entry as accepted, ANY clear, its own index, VALID. -/
def State.addWindow (s : State) (r : List Byte) (i : Nat) : State :=
  (s.putBar (winOff i) (sliceB r 0 0x13 ++ natLE 1 0 ++ natLE 2 i ++ sliceB r 0x16 4 ++ natLE 1 1 ++ List.replicate 5 0)).syncWin

/-- A window deregistered. -/
def State.dropWindow (s : State) (i : Nat) : State := (s.putBar (winOff i + 0x1A) (natLE 1 0)).syncWin

/-- A request that the window accepted still waits at its home, or in the combiner. -/
def State.windowBusy (s : State) (i : Nat) : Bool :=
  (s.fab.homes.any fun h => h.get.isNone && bitsOf h.addr 47 34 == i) ||
    s.stks.any fun e => e.2.comb.any fun l => l.2.any fun q => bitsOf q.addr 47 34 == i

/-- The result word of WREG. -/
def winResult (code idx : Nat) : Nat := if code = 0 then idx else 2 ^ 15 + code * 65536

/-- WREG. -/
def execWreg (t : Tid) (d a : Reg) (s : State) : Host.Outcome State Fault Refusal :=
  .next (s.issue t (.wreg t d a) profSupWork fun s1 =>
    let va := (s1.ctx t).ga a
    match s1.vread (s1.agtOf t) va.toNat 32 with
    | (.ok r, s2) =>
      let (c, i) := s2.winCheck r false
      .done ((if c = 0 then s2.addWindow r i else s2).modCtx t fun x => x.sa d (BitVec.ofNat 64 (winResult c i)))
    | (r, s2) => readFault s2 va r)

/-- WDEREG: after every request that the window has accepted; an index that names no window has no effect. -/
def execWdereg (t : Tid) (a : Reg) (s : State) : Host.Outcome State Fault Refusal :=
  .next (s.issue t (.wdereg t a) profSupWork fun s1 =>
    let i := ((s1.ctx t).ga a).toNat
    if 16384 ≤ i then .done s1
    else if s1.windowBusy i then .wait s1 .cond
    else .done (if (s1.window i).valid then s1.dropWindow i else s1))

end Sys2Proof.Machine
end

