-- ==== Sys2Proof/Machine/Groups.lean ====
section
/-! DEFINITION. GCREATE, GDESTROY, HZRED and the Hazel rows (R291 to R305). -/

namespace Sys2Proof.Machine

/-! ### GCREATE (Table 12.2) -/

/-- Reserved fields of a request that are not zero; GKEY and VALID are the package's own. -/
def groupReserved (b : List Byte) : Bool :=
  decide (4096 ≤ fieldLE b 0 2) || decide (16 ≤ fieldLE b 0x18 1) || (sliceB b 0x19 7).any (· != 0) ||
    decide (2 ≤ fieldLE b 0x28 1) || (sliceB b 0x29 23).any (· != 0)

/-- BAD_FORMAT; a RANKTAB or QBASE that is not aligned as Table 12.1 has it is one. -/
def groupBadFormat (b : List Byte) : Bool :=
  groupReserved b || fieldLE b 0 2 == 0 || fieldLE b 2 2 == 0 || decide (fieldLE b 2 2 ≤ fieldLE b 4 2) ||
    (fieldLE b 0x10 8 != 0 && (decide (fieldLE b 0x18 1 < 4) || decide (12 < fieldLE b 0x18 1))) ||
    fieldLE b 8 8 % 2 != 0 || fieldLE b 0x10 8 % 64 != 0

/-- The outcome of a creation: the code with the rank table, or a wait. -/
inductive GRes where
  | code (c : Nat) (ids : List Nat)
  | wait
  deriving DecidableEq, Repr

/-- The granules of a range translate to local memory. -/
def State.localRange (s : State) (va n : Nat) : Option Bool × State :=
  match s.targets .jobLevel .load (s.segs va n) with
  | (some ts, _, s1) => (some (ts.all fun t => match t.1 with | .dram _ => true | _ => false), s1)
  | (none, c, s1) => (if c = 0 then none else some false, s1)

/-- The checks of the rank table and the queue head. A table that cannot be read refuses with TRANSLATION. -/
def State.groupTables (s : State) (b : List Byte) : GRes × State :=
  let nmem := fieldLE b 2 2
  let rt := fieldLE b 8 8
  let qb := fieldLE b 0x10 8
  match s.localRange rt (2 * nmem) with
  | (some true, s1) =>
    match s1.vread unitAgt rt (2 * nmem) with
    | (.ok t, s2) =>
      let ids := (List.range nmem).map fun i => fieldLE t (2 * i) 2
      if ids.getD (fieldLE b 4 2) 0 ≠ s2.pkgId ∨ !decide ids.Nodup ∨ ids.contains 0xFFFF then (.code 4 [], s2)
      else if qb = 0 then (.code 0 ids, s2)
      else match s2.localRange qb 64 with
        | (some true, s3) => (.code 0 ids, s3)
        | (none, s3) => (.wait, s3)
        | (_, s3) => (.code 5 [], s3)
    | (.stall, s2) => (.wait, s2)
    | (_, s2) => (.code 5 [], s2)
  | (none, s1) => (.wait, s1)
  | (_, s1) => (.code 5 [], s1)

/-- The checks in the order of Table 12.2. -/
def State.groupCheck (s : State) (b : List Byte) : GRes × State :=
  if groupBadFormat b then (.code 1 [], s)
  else if !s.jobRuns ∨ fieldLE b 6 2 ≠ s.jobId then (.code 2 [], s)
  else if (s.grp (fieldLE b 0 2)).valid then (.code 3 [], s)
  else s.groupTables b

/-- GCREATE (R291). -/
def execGcreate (t : Tid) (d a : Reg) (s : State) : Host.Outcome State Fault Refusal :=
  .next ((s.issue t (.gcreate t d a) profSupWork fun s1 =>
    let va := (s1.ctx t).ga a
    match s1.vread (s1.agtOf t) va.toNat 64 with
    | (.ok b, s2) =>
      match s2.groupCheck b with
      | (.wait, s3) => .wait s3 .access
      | (.code 0 ids, s3) =>
        .done ((s3.modCtx t fun c => c.sa d 0).putGroup (fieldLE b 0 2) (fieldLE b 2 2) (fieldLE b 4 2) (fieldLE b 6 2)
          (fieldLE b 8 8) (fieldLE b 0x10 8) (fieldLE b 0x18 1) ids)
      | (.code c _, s3) => .done (s3.modCtx t fun x => x.sa d (BitVec.ofNat 64 c))
    | (r, s2) => readFault s2 va r))

/-! ### GDESTROY (R293) -/

/-- Something names the group: a thread launched in it, Equinox (Table 10.7), the epoch agreement (R323). -/
def State.groupBusy (s : State) (g : Nat) : Bool :=
  s.liveCtxs.any (fun e => e.2.group == g) || (s.flag fEqx_EQ_EN && s.fld fEqx_EQ_GROUP == g) || (s.flag fMode_AGREE_EN && s.fld fMode_EP_GROUP == g)

/-- GDESTROY: group 0 is never destroyed (R290); a group that does not exist is left so. The instruction completes when every
operation of the group in progress has. -/
def execGdestroy (t : Tid) (d a : Reg) (s : State) : Host.Outcome State Fault Refusal :=
  .next (s.issue t (.gdestroy t d a) profSupWork fun s1 =>
    let g := ((s1.ctx t).ga a).toNat
    let out := fun (x : State) (v : Nat) => TRes.done (x.modCtx t fun c => c.sa d (BitVec.ofNat 64 v))
    if g = 0 then out s1 6
    else if 4096 ≤ g ∨ !(s1.grp g).valid then out s1 0
    else if s1.groupBusy g then out s1 6
    else if s1.hz.ops.any fun o => o.gid == g then .wait s1 .cond
    else out (s1.dropGroup g) 0)

/-! ### HZRED (R296, R300, R301, R305) -/

/-- The operands of a block. -/
def hzBlock (b : List Byte) : HzVal :=
  { ops := (List.range 8).map fun i => fieldLE b (0x40 + i) 1, nval := fieldLE b 0x4A 1, ktop := fieldLE b 0x4B 1,
    vals := (List.range 8).map fun i => BitVec.ofNat 64 (fieldLE b (8 * i) 8) }

/-- HZ_FORMAT in the fields read (Table 12.8); operations of values that are ignored are not checked. -/
def hzBadFormat (b : List Byte) : Bool :=
  let v := hzBlock b
  let o0 := v.ops.getD 0 0
  decide (4096 ≤ fieldLE b 0x48 2) || decide (8 < v.nval) || decide (4 < v.ktop) || (v.ops.take v.nval).any (fun o => decide (12 ≤ o)) ||
    (v.ktop != 0 && (v.nval != 8 || decide (o0 < 3) || decide (8 < o0) || (v.ops.drop 1).any (· != 0)))

/-- An operation of the group is in progress here, 64 are, or no reduction state is free (R300). -/
def State.hzFull (s : State) (g : Nat) : Bool :=
  let own := s.hz.ops.filter fun o => !o.boundary && o.own.isSome
  own.any (fun o => o.gid == g) || decide (64 ≤ own.length) ||
    ((s.hzFind g false (s.hzIssued g false + 1)).isNone && !s.hzRoom false)

/-- HZRED. -/
def execHzred (t : Tid) (a : Reg) (s : State) : Host.Outcome State Fault Refusal :=
  .next (s.issue t (.hzred t a) profWork fun s1 =>
    let va := (s1.ctx t).ga a
    if va.toNat % 128 ≠ 0 then .fault s1 { code := 0x58, va := va }
    else match s1.vread (s1.agtOf t) va.toNat 0x4C with
      | (.ok b, s2) =>
        let g := fieldLE b 0x48 2
        if hzBadFormat b then .fault s2 { code := 0x58, va := va }
        else if !s2.groupOk g then .fault s2 { code := 0x59, va := va }
        else if !s2.released t ∨ s2.hzFull g then .wait s2 .cond
        else .done ((s2.hzContribute g false (hzBlock b) (some va)).hzSettle)
      | (r, s2) => readFault s2 va r)

/-! ### The rows of the tree -/

/-- HAZEL_PACKET: one for another package goes on by its route, in safe stop too (R271, R295). -/
def execHazelPacket (p : HzPacket) (s : State) : Host.Outcome State Fault Refusal :=
  .next (if p.dst = s.pkgId then (s.hzIn p).hzSettle else s.send (hzForward p))

/-- HAZEL_WARN (R304): once for each child waited for, when HZ_WARN is not 0. -/
def execHazelWarn (gid : Nat) (boundary : Bool) (seq child : Nat) (s : State) : Host.Outcome State Fault Refusal :=
  .next (match s.hzFind gid boundary seq with
    | some o =>
      let g := s.grp gid
      if s.fld fHz_HZ_WARN = 0 ∨ !(hzChildren g.rank g.nmem).contains child ∨ o.warned.contains child ∨
          o.kids.any (fun k => k.1 == child) then s
      else (s.hzPut { o with warned := o.warned ++ [child] }).event logInfo .hazel (BitVec.ofNat 64 (gid + 65536 * child))
        (BitVec.ofNat 64 seq) []
    | none => s)

/-- HAZEL_ABORT (R304): an abort of an operation, which may not have begun here. -/
def execHazelAbort (gid : Nat) (boundary : Bool) (cause : Nat) (s : State) : Host.Outcome State Fault Refusal :=
  .next (if !(s.grp gid).valid then s
  else match s.hz.ops.find? fun o => o.gid == gid && o.boundary == boundary with
    | some o => (s.hzAbort o cause none).hzSettle
    | none => (s.hzAbort (HzOp.new gid boundary (s.hzIssued gid boundary + 1)) cause none).hzSettle)

end Sys2Proof.Machine
end

