-- ==== Sys2Proof/Machine/SafeStop.lean ====
section
/-! DEFINITION. Safe stop, the failure of a boot stage, and detections of reaction S (R391, R422 to R429). -/

namespace Sys2Proof.Machine

/-! ### The fence of Gnolink requests (Table 18.4) -/

/-- A request packet that has not begun is refused with SAFE_STOP: to its sender, or to this package's own unit. -/
def State.refuseSafe (s : State) (k : OutPkt) : State :=
  match k.src with
  | some src => s.send (respPkt 0x12 src k.job k.addr k.tag 5 [])
  | none => match s.rctx k.tag with
    | some c => s.denied c 5
    | none => s

/-- The fence of a port: its queued requests are refused; responses, Hazel and VC3 packets stay. -/
def State.fencePort (s : State) (p : Nat) : State :=
  let q := (s.port p).waiting
  let reqs := q.filter fun k => decide (1 ≤ k.cmd) && decide (k.cmd ≤ 5)
  reqs.foldl (fun t k => t.refuseSafe k) (s.modPort p fun x => { x with waiting := q.filter fun k => !(decide (1 ≤ k.cmd) && decide (k.cmd ≤ 5)) })

/-- The fence of every port. -/
def State.fence (s : State) : State := (List.range 16).foldl (fun t p => t.fencePort p) s

/-! ### Engines (Table 18.4) -/

/-- Engines discard queued work; what they hold stays for diagnosis. -/
def State.discardWork (s : State) : State :=
  let s1 := { s with eng := { s.eng with mat := tabMap matDefault (fun m => { m with queue := [] }) s.eng.mat,
                                         ew := tabMap ewDefault (fun e => { e with queue := [] }) s.eng.ew,
                                         solv := tabMap solvDefault (fun x => { x with prod := x.next, due := RingDue.none }) s.eng.solv } }
  { s1 with stks := tabMap stkDefault (fun x => { x with copyProd := x.copyNext, due := RingDue.none }) s1.stks }

/-! ### Entry -/

/-- Safe stop entered (R424, Tables 18.4, 18.5): requests fenced, Viral, threads stopped with STOPPED, Hazel operations aborted,
engines' queues discarded, copies ended, the snapshot in progress ended with SAFE_STOP. Host requests that waited are completed, and the
entries of the host ring refused. -/
def State.enterSafe (s : State) : State :=
  if s.flag fSafe_SAFE then s
  else
    let s1 := ((s.setFlag fSafe_SAFE true).setViral.fence).stopAll
    (((s1.hzAbortAll 5).discardWork.pumpCopies).snapEnd 0x12).cutHost.ringService

/-! ### Failure of a boot stage (R391) -/

/-- The boot progress record (R395): the progress fields of BOOT_STS (bits 23 to 0), and the pseudo-channels that failed training
(R160), which the record holds beyond that register. -/
def State.bootRecord (s : State) : Nat :=
  s.pwr.failedPcs.foldl (fun v x => v ||| 2 ^ (24 + x)) ((s.cell fBoot_STAGE.key).toNat % 2 ^ 24)

/-- A stage of a start fails: stage and cause recorded, FAIL_COUNT one higher, the record committed, the board management controller
told (message 0x300: stage, cause, count). At FAIL_COUNT 3 the package enters service-only mode. -/
def State.bootFail (s : State) (cause : Nat) : State :=
  let stage := s.fld fBoot_STAGE
  let n := min 3 (s.fld fBoot_FAIL_COUNT + 1)
  let s1 := ((s.setFld fBoot_FAIL_STAGE stage).setFld fBoot_CAUSE cause).setFld fBoot_FAIL_COUNT n
  let s2 := if n = 3 then s1.setFlag fBoot_SERVICE_ONLY true else s1
  let s3 := { s2 with pwr := { s2.pwr with mode := if n = 3 then .service else .failed, wait7 := false } }
  (s3.persist 4 s3.bootRecord).answer (.message 0x300 0 (natLE 1 stage ++ natLE 1 cause ++ natLE 1 n))

/-! ### Detections of reaction S -/

/-- A detection of reaction S: its record, then safe stop; during a start the stage in progress fails with TIMEOUT (R429); with no
power there is none, and where nothing runs only the record is written. -/
def State.detectS (s : State) (d : Det) : State :=
  let s1 := s.report { d with react := 3 } none
  match s.pwr.mode with
  | .off => s
  | .start => s1.bootFail 1
  | .run => s1.enterSafe
  | .ret => s1.enterSafe
  | _ => s1

end Sys2Proof.Machine
end

