-- ==== Sys2Proof/Machine/HostOps.lean ====
section
/-! DEFINITION. What the host does on its link: memory requests, snoops, link losses, the decoder and IDE keys (R354 to R360, R370). -/

namespace Sys2Proof.Machine

/-- The CXL link is up. -/
def State.linkUp (s : State) : Bool := s.fld fCxl_RATE != 0

/-- Requests that waited are completed once the host is cut off (R360). -/
def State.cutServes (s s1 : State) : State := if s1.hostCut ∧ !s.hostCut then s1.releaseWaiting else s1

/-- HOST_MEM_READ: `own` asks for a copy to hold. A request that no decoder claims has no effect. -/
def execHostMemRead (dpa len : Nat) (own : Bool) (s : State) : Host.Outcome State Fault Refusal :=
  .next (if s.linkUp ∧ s.hdmHit dpa len then
    s.cutServes (s.hostRequest { id := 0, write := false, dpa := dpa, len := len, data := [], poison := false, own := own })
  else s)

/-- HOST_MEM_WRITE. -/
def execHostMemWrite (dpa : Nat) (data : List Byte) (poison : Bool) (s : State) : Host.Outcome State Fault Refusal :=
  .next (if s.linkUp ∧ s.hdmHit dpa data.length then
    s.hostRequest { id := 0, write := true, dpa := dpa, len := data.length, data := data, poison := poison, own := false }
  else s)

/-- The fault record of an entry into Viral that no uncorrectable line caused, and its Fatal event record (R359, Table 15.9). -/
def State.viralRecord (s : State) (cls : Nat) (loc : W64) : State :=
  s.report { cls := cls, react := 1, page := cxlPage, loc0 := loc } (some (logFatal, .viral))

/-- HOST_MEM_TIMEOUT: the request is completed as if its line were uncorrectable (R356, R359; class 0x49). -/
def execHostMemTimeout (id : Nat) (s : State) : Host.Outcome State Fault Refusal :=
  .next (match s.host.reqs.find? fun r => r.id == id with
    | none => s
    | some r =>
      let s1 := s.dropHReq id
      let s2 := if r.write then s1 else s1.answer (.bytes (viralBytes r.dpa r.len))
      s.cutServes (s2.viralRecord 0x49 (BitVec.ofNat 64 r.dpa)).setViral)

/-- BI_TIMEOUT: a snoop still unanswered is a loss of the host (R355). -/
def execBiTimeout (line : Nat) (s : State) : Host.Outcome State Fault Refusal :=
  .next (if s.mem.bi.contains line then s.loseHost.releaseWaiting else s)

/-- HOST_SNOOP of a host line: every holder gives it up; modified bytes go to the host with the answer (R357). -/
def execHostSnoop (hpa : Nat) (s : State) : Host.Outcome State Fault Refusal :=
  let x := s.hline (hpa / 64)
  .next (if !s.linkUp ∨ !s.hostUp then s
  else (s.setHline (hpa / 64) HLine.none).answer (.bytes (if x.modified then x.bytes else [])))

/-- The link goes down in operation (R352, R360). -/
def State.linkDown (s : State) : State :=
  if s.linkUp then (((s.setFld fCxl_RATE 0).setFld fCxl_WIDTH 0).addSat fCxl_LINK_DOWNS 1).loseHost.releaseWaiting else s

/-- CXL_LINK_DOWN. -/
def execCxlLinkDown (s : State) : Host.Outcome State Fault Refusal := .next s.linkDown

/-- CXL_REFCLK_LOSS (Table 16.8): link down, host lost. -/
def execCxlRefclkLoss (s : State) : Host.Outcome State Fault Refusal := .next s.linkDown

/-- IDE_INTEGRITY_FAILURE (R370): the streams are Insecure until a link reset and rekeying; Viral. No table gives the record a
class: it is free. -/
def execIdeIntegrityFailure (s : State) : Host.Outcome State Fault Refusal :=
  .next (if s.flag fCxl_IDE_SECURE then
    let cls := (Config.unstated s.fresh).toNat % 256
    let s1 := { s.draw.2 with host := { s.host with rasUncorr := true, ideBad := true } }
    s.cutServes ((s1.setFlag fCxl_IDE_SECURE false).viralRecord cls 0).setViral
  else s)

/-- HDM_DECODER_COMMIT, base and size in units of 256 MiB (R354, R370). -/
def execHdmDecoderCommit (base size : Nat) (s : State) : Host.Outcome State Fault Refusal :=
  .next (if !s.linkUp ∨ s.hdmBytes < size * 2 ^ 28 ∨ (s.flag fCxl_IDE_POL ∧ !s.flag fCxl_IDE_SECURE) then s
  else
    { s with host := { s.host with hdmBase := base * 2 ^ 28, hdmSize := size * 2 ^ 28 } }.setFlag fCxl_MEM_EN true)

/-- CXL_IDE_KEY_MANAGEMENT inside a secured session on DOE (R370, R418): both streams Secure, and with them CXL.cache. -/
def execCxlIdeKeyManagement (s : State) : Host.Outcome State Fault Refusal :=
  .next (if s.linkUp ∧ s.sec.doeSess ≠ 0 ∧ !s.host.ideBad then (s.setFlag fCxl_IDE_SECURE true).setFlag fCxl_CACHE_EN true else s)

end Sys2Proof.Machine
end

