-- ==== Sys2Proof/Machine/Train.lean ====
section
/-! DEFINITION. The arithmetic of an update pass (R245 to R248): update rules, regeneration of a working copy, digests. -/

namespace Sys2Proof.Machine

/-! ### Sums -/

/-- An exact value of a pattern; none when it is not finite. -/
def FFmt.exact (f : FFmt) (b : Nat) : Option Dy :=
  match f.decode b with
  | .fin neg m e => some ⟨if neg then -(m : Int) else m, e⟩
  | _ => none

/-- A pattern is not finite. -/
def FFmt.wild (f : FFmt) (b : Nat) : Bool := (f.exact b).isNone

/-- An exact value rounded once by RNE. -/
def FFmt.ofDy (f : FFmt) (v : Dy) : Nat := if v.m = 0 then 0 else (f.roundFin 0 0 false (decide (v.m < 0)) v.m.natAbs v.e).1

/-- A sum of patterns, exact and rounded once. With a NaN, or infinities of both signs, it is a NaN; with infinities of one sign,
that infinity. -/
def FFmt.sum (f : FFmt) (l : List Nat) : Nat :=
  if l.any f.isNaN then f.canonNaN
  else
    let pos := l.any fun b => match f.decode b with | .inf false => true | _ => false
    let neg := l.any fun b => match f.decode b with | .inf true => true | _ => false
    if pos && neg then f.canonNaN
    else if pos then f.infBits
    else if neg then f.withSign true f.infBits
    else f.ofDy (l.foldl (fun s b => s.add ((f.exact b).getD Dy.zero)) Dy.zero)

/-- The sum of the squares of patterns, exact and rounded once to a format. -/
def FFmt.sumSq (f : FFmt) (g : FFmt) (l : List Nat) : Nat :=
  if l.any f.isNaN then g.canonNaN
  else if l.any f.wild then g.infBits
  else g.ofDy (l.foldl (fun s b => let v := (f.exact b).getD Dy.zero; s.add (v.mul v)) Dy.zero)

/-- A pattern of one format in another, by RNE. -/
def FFmt.from_ (f : FFmt) (src : FFmt) (b : Nat) : Nat := (f.convert 0 0 false (src.decode b)).1

/-- A count as a pattern. -/
def FFmt.ofNat (f : FFmt) (n : Nat) : Nat := f.ofDy ⟨n, 0⟩

/-! ### Update rules (Table 10.4) -/

/-- The hyperparameters in MFMT, with c1 = 1 - β. -/
structure Hyper where
  lr : Nat
  beta : Nat
  wd : Nat
  eps : Nat
  clip : Nat
  c1 : Nat
  deriving DecidableEq, Repr

/-- Hyperparameters in a format. -/
def hyperOf (f : FFmt) (lr beta wd eps clip : Nat) : Hyper :=
  let b := f.from_ fmtD beta
  { lr := f.from_ fmtD lr, beta := b, wd := f.from_ fmtD wd, eps := f.from_ fmtD eps, clip := f.from_ fmtD clip,
    c1 := (f.sub 0 (f.ofNat 1) b).1 }

/-- fma without flags. -/
def FFmt.fmaR (f : FFmt) (a b c : Nat) : Nat := (f.fma 0 false false a b c).1

/-- w′ = fma(-η, fma(λ, w, x), w). -/
def newMaster (f : FFmt) (h : Hyper) (w x : Nat) : Nat := f.fmaR (f.negate h.lr) (f.fmaR h.wd w x) w

/-- The new state and master of a pass. -/
structure PassRes where
  state : List Nat
  master : List Nat
  deriving DecidableEq, Repr

/-- OPT 0 and OPT 1. -/
def passPlain (f : FFmt) (h : Hyper) (ws gs : List Nat) : PassRes :=
  { state := [], master := (ws.zip gs).map fun x => newMaster f h x.1 x.2 }
/-- A single moment. -/
def passMoment (f : FFmt) (h : Hyper) (ws gs ms : List Nat) : PassRes :=
  let m' := (ms.zip gs).map fun x => f.fmaR h.beta x.1 (f.mul 0 h.c1 x.2).1
  { state := m', master := (ws.zip m').map fun x => newMaster f h x.1 x.2 }

/-- A segment of a factored second moment: rows, columns, and its elements and factors. -/
def passSegment (f : FFmt) (h : Hyper) (r c : Nat) (ws gs rs cs : List Nat) : PassRes :=
  let q := gs.map fun g => f.fmaR g g h.eps
  let fac := fun (old sum n : Nat) => f.fmaR h.beta old (f.mul 0 h.c1 (f.div 0 sum (f.ofNat n)).1).1
  let r' := (List.range r).map fun i => fac (rs.getD i 0) (f.sum ((q.drop (i * c)).take c)) c
  let c' := (List.range c).map fun j => fac (cs.getD j 0) (f.sum ((List.range r).map fun i => q.getD (i * c + j) 0)) r
  let rbar := (f.div 0 (f.sum r') (f.ofNat r)).1
  let u := (List.range (r * c)).map fun k =>
    (f.div 0 (gs.getD k 0) (f.sqrt 0 (f.div 0 (f.mul 0 (r'.getD (k / c) 0) (c'.getD (k % c) 0)).1 rbar).1).1).1
  let rho := (f.sqrt 0 (f.div 0 (f.sumSq f u) (f.ofNat (r * c))).1).1
  let pos := match f.decode h.clip with | .fin neg m _ => !neg && m != 0 | .inf neg => !neg | _ => false
  let clip := pos && !f.isNaN rho && (f.decode rho).cmp (f.decode h.clip) == .gt
  let u' := if clip then u.map fun x => (f.div 0 x (f.div 0 rho h.clip).1).1 else u
  { state := r' ++ c', master := (List.range (r * c)).map fun k => newMaster f h (ws.getD k 0) (u'.getD k 0) }

/-- Segments in order: first element, rows, columns. -/
def passFactored (f : FFmt) (h : Hyper) (ws gs : List Nat) : List (Nat × Nat × Nat) → List Nat → PassRes
  | [], _ => { state := [], master := [] }
  | (k, r, c) :: segs, st =>
    let x := passSegment f h r c ((ws.drop k).take (r * c)) ((gs.drop k).take (r * c)) (st.take r) ((st.drop r).take c)
    let y := passFactored f h ws gs segs (st.drop (r + c))
    { state := x.state ++ y.state, master := x.master ++ y.master }

/-! ### Working copies and digests (R246, R247) -/

/-- A working copy from a master: element bytes, scale bytes, and whether an element is a NaN or an infinity. -/
def workCopy (mfmt wfmt : Nat) (sr : Bool) (seed : W64) (ws : List Nat) : List Byte × List Byte × Bool :=
  let rm := if sr then 5 else 0
  let rnd := fun k => if sr then (srRand seed (BitVec.ofNat 64 k)).toNat else 0
  if isMx wfmt then
    let blocks := (List.range (ws.length / 32)).map fun b =>
      mxEncode wfmt rm (fun k => rnd (32 * b + k)) (((ws.drop (32 * b)).take 32).map (codeDecode mfmt))
    let bytes := blocks.flatMap fun x => natLE (4 * codeBits wfmt) (packAll (codeBits wfmt) x.2.1)
    (bytes, blocks.map fun x => BitVec.ofNat 8 x.1, blocks.any fun x => x.1 == 0xFF)
  else
    let es := (List.range ws.length).map fun k => (codeConvert mfmt wfmt rm (rnd k) true (ws.getD k 0)).1
    (es.flatMap fun e => natLE (codeBits wfmt / 8) e, [], es.any fun e => (codeDecode wfmt e).special)

/-- The digest of patterns with their indices. -/
def patDigest (ws : List Nat) : W64 :=
  (List.range ws.length).foldl (fun d k => d + mix64 (mix64 (BitVec.ofNat 64 k) ^^^ BitVec.ofNat 64 (ws.getD k 0))) 0

end Sys2Proof.Machine
end

