-- ==== Sys2Proof/Machine/Models.lean ====
section
/-! DEFINITION. Models: registration, selection, update passes, checks, export (R236 to R250, R256, R257). -/

namespace Sys2Proof.Machine

/-- The page of models and Equinox. -/
def mdlPage : Nat := 0x00C

/-! ### The entry (Tables 10.1, 10.2) -/

/-- Bytes of a master element. -/
def Model.msz (v : Model) : Nat := codeBits v.mfmt / 8
/-- Bytes of a gradient element. -/
def Model.gsz (v : Model) : Nat := codeBits v.gfmt / 8
/-- Bytes of the working copy, or of inference weights (R239). -/
def Model.wbytes (v : Model) : Nat := pad64 (ceilDiv (v.mcount * codeBits v.wfmt) 8)
/-- Bytes of its scales. -/
def Model.sbytes (v : Model) : Nat := if isMx v.wfmt then pad64 (v.mcount / 32) else 0

/-- A segment table entry. -/
structure Seg where
  first : Nat
  rows : Nat
  cols : Nat
  deriving DecidableEq, Repr

/-- Segments from their bytes. -/
def segsOf (b : List Byte) (n : Nat) : List Seg :=
  (List.range n).map fun i => ⟨fieldLE b (16 * i) 8, fieldLE b (16 * i + 8) 4, fieldLE b (16 * i + 12) 4⟩

/-- Contiguous from element 0, covering MCOUNT, no empty side. -/
def segsOk (n : Nat) : Nat → List Seg → Bool
  | k, [] => k == n
  | k, s :: rest => s.first == k && s.rows != 0 && s.cols != 0 && segsOk n (k + s.rows * s.cols) rest

/-- Bytes of optimizer state, by the segments of OPT 2. -/
def Model.obytes (v : Model) (segs : List Seg) : Nat :=
  match v.opt with
  | 1 => v.mcount * v.msz
  | 2 => segs.foldl (fun a s => a + (s.rows + s.cols) * v.msz) 0
  | _ => 0

/-- A binary64 that is a NaN. -/
def nan64 (b : Nat) : Bool := fmtD.isNaN b

/-- BETA in [0, 1). -/
def betaOk (b : Nat) : Bool :=
  match fmtD.decode b with
  | .fin neg m e => (m == 0 || !neg) && (Num.cmp (.fin neg m e) (.fin false 1 0) == .lt)
  | _ => false

/-- GNORM_MAX is positive. -/
def normOk (b : Nat) : Bool :=
  match fmtD.decode b with
  | .fin neg m _ => !neg && m != 0
  | .inf neg => !neg
  | _ => false

/-- Reserved fields of an entry. -/
def State.modelReserved (s : State) (o : Nat) : Bool :=
  let b := fun k => s.barNat (o + k) 1
  decide (32 ≤ b 0) || decide (32 ≤ b 1) || decide (32 ≤ b 2) || decide (32 ≤ b 3) || decide (8192 ≤ s.barNat (o + 6) 2) ||
    decide (16384 ≤ s.barNat (o + 12) 2) || s.barNat (o + 14) 2 != 0 || s.barNat (o + 0xB8) 8 != 0 || s.barNat (o + 0xEC) 19 != 0 ||
    decide (2 ≤ b 0xFF)

/-- BAD_FORMAT. Table 10.2 names the hyperparameters of every model. MFMT and GFMT are a training model's only (Table 10.1). -/
def State.modelBadFormat (s : State) (i : Nat) : Bool :=
  let v := s.model i
  s.modelReserved (modelOff i) || v.opt == 3 || v.prefBytes % 64 != 0 || decide (2 ^ 20 < v.prefBytes) ||
    (if v.training then
      !(decide (3 ≤ v.wfmt) && decide (v.wfmt ≤ 0x0B)) || decide (1 < v.mfmt) || decide (1 < v.gfmt) || decide (v.gfmt < v.mfmt) ||
        v.soff == 0
    else codeBits v.wfmt == 0 || v.soff != 0) ||
    !betaOk v.beta || !normOk v.gnormMax || nan64 v.lr || nan64 v.wd || nan64 v.eps || nan64 v.clip ||
    (if v.opt = 2 then v.nseg == 0 || decide (4096 < v.nseg) else v.nseg != 0 || v.stab != 0) ||
    (v.wsbase != 0 && !isMx v.wfmt)

/-- BAD_ALIGN. -/
def Model.badAlign (v : Model) : Bool :=
  v.ltab % 64 != 0 || v.epi0 % 4096 != 0 || v.mbase % 4096 != 0 || v.wbase % 65536 != 0 || v.wsbase % 65536 != 0 ||
    v.obase % 64 != 0 || v.gbase % 4096 != 0 || v.stab % 16 != 0 || v.soff % 65536 != 0 || v.mcount == 0 || decide (2 ^ 36 < v.mcount) ||
    (isMx v.wfmt && v.mcount % 32 != 0)

/-- Both slots of a range. -/
def Model.both (v : Model) (base n : Nat) : List (Nat × Nat) := if n = 0 then [] else [(base, n), (base + v.soff, n)]

/-- The ranges of R239 by address: base and bytes. -/
def Model.protRanges (v : Model) (segs : List Seg) : List (Nat × Nat) :=
  if v.training then
    v.both v.mbase (v.mcount * v.msz) ++ v.both v.wbase v.wbytes ++ v.both v.wsbase v.sbytes ++ v.both v.obase (v.obytes segs)
  else if v.verify then [(v.wbase, v.wbytes)] else []

/-- The segment table of an entry as memory holds it, unless it cannot be read. -/
def State.modelSegs (s : State) (v : Model) : Option (List Seg) × Bool × State :=
  if v.opt ≠ 2 then (some [], false, s)
  else match s.vread { unitAgt with who := .model } v.stab (16 * v.nseg) with
    | (.ok b, s1) => (some (segsOf b v.nseg), false, s1)
    | (.stall, s1) => (none, true, s1)
    | (_, s1) => (none, false, s1)

/-- The segments, none where they cannot be read. -/
def State.segsNow (s : State) (v : Model) : List Seg := ((s.modelSegs v).1).getD []

/-- A range without the granules that lie in another package's memory, which R239 does not protect. -/
def State.localPart (s : State) (r : Nat × Nat) : List (Nat × Nat) :=
  let far := fun (g : Nat × Nat) => match (s.xlatePage .engine g.1 .load).1 with
    | .ok (.remote _) => true
    | _ => false
  let gs := if r.2 = 0 then [] else segments r.1 r.2
  if gs.any far then gs.filter fun g => !far g else [r]

/-- The protected ranges as they lie in the package's own memory: first byte, and the byte after the last. -/
def State.protSpans (s : State) (v : Model) (segs : List Seg) : List (Nat × Nat) :=
  ((v.protRanges segs).flatMap s.localPart).map fun r => (r.1, r.1 + r.2)

/-- OVERLAP. -/
def State.modelOverlap (s : State) (i : Nat) (segs : List Seg) : Bool :=
  let rs := s.protSpans (s.model i) segs
  let pairs := (List.range rs.length).any fun a => (List.range rs.length).any fun b =>
    decide (a < b) && rangesMeet (rs.getD a (0, 0)) (rs.getD b (0, 0))
  let models := (s.models.filter (· != i)).any fun j =>
    let w := s.model j
    (s.protSpans w (s.segsNow w)).any fun q => rs.any fun r => rangesMeet r q
  let views := s.views.any fun j => (s.view j).shown.any fun q => rs.any fun r => rangesMeet r q
  pairs || models || views

/-- A region's granules: local memory, or for optimizer state also another package's; read rights. The segments of DRAM found. -/
def State.modelSegsOf (s : State) (remoteOk : Bool) : List (Nat × Nat) → Chk × List (Nat × Nat) × State
  | [] => (.ok, [], s)
  | (va, n) :: rest =>
    match s.xlatePage .engine va .load with
    | (.ok (.dram key), s1) =>
      let (r, l, s2) := s1.modelSegsOf remoteOk rest
      (r, (key, n) :: l, s2)
    | (.ok (.remote _), s1) => if remoteOk then s1.modelSegsOf remoteOk rest else (.bad, [], s1)
    | (.stall, s1) => (.stall, [], s1)
    | (_, s1) => (.bad, [], s1)

/-- Granules of ranges. -/
def rangeSegs (rs : List (Nat × Nat)) : List (Nat × Nat) := rs.flatMap fun r => if r.2 = 0 then [] else segments r.1 r.2

/-- The regions whose pages must be local: master, working copy, scales, gradient, segment table; or the weights and their scales. -/
def Model.localRegions (v : Model) : List (Nat × Nat) :=
  if v.training then
    v.both v.mbase (v.mcount * v.msz) ++ v.both v.wbase v.wbytes ++ v.both v.wsbase v.sbytes ++ [(v.gbase, v.mcount * v.gsz)] ++
      (if v.opt = 2 then [(v.stab, 16 * v.nseg)] else [])
  else [(v.wbase, v.wbytes), (v.wsbase, v.sbytes)]

/-- The range that checks read (R250): the current master, or the weights of a VERIFY model. -/
def Model.checked (v : Model) : List (Nat × Nat) :=
  if v.training then [(v.mbase + v.cur * v.soff, v.mcount * v.msz)] else if v.verify then [(v.wbase, v.wbytes)] else []

/-- Checked bytes of a model in a stack. -/
def State.checkedIn (s : State) (v : Model) (n : Nat) : Nat :=
  (rangeSegs v.checked).foldl (fun a g => match (s.xlatePage .engine g.1 .load).1.localKey with
    | some k => if keyStack k = n then a + g.2 else a
    | none => a) 0

/-- SCAN_FULL. -/
def State.scanFull (s : State) (i : Nat) : Bool :=
  (List.range 8).any fun n =>
    decide (16 * 2 ^ 30 < ((i :: s.models.filter (· != i)).foldl (fun a j => a + s.checkedIn (s.model j) n) 0))

/-- The checks in the order of Table 10.2: 0 when they pass, a code, or a wait. -/
def State.modelCheck (s : State) (i : Nat) : Option Nat × State :=
  let v := s.model i
  if s.modelBadFormat i then (some 1, s)
  else if v.badAlign then (some 2, s)
  else if !(s.jobRuns && s.jobId == v.job) then (some 3, s)
  else match s.modelSegs v with
    | (_, true, s1) => (none, s1)
    | (segs, false, s1) =>
      if s1.modelOverlap i (segs.getD []) then (some 4, s1)
      else match s1.modelSegsOf false (rangeSegs v.localRegions) with
        | (.stall, _, s2) => (none, s2)
        | (.bad, _, s2) => (some 5, s2)
        | (.ok, _, s2) =>
          match s2.modelSegsOf true (rangeSegs (if v.training then v.both v.obase (v.obytes (segs.getD [])) else [])) with
          | (.stall, _, s3) => (none, s3)
          | (.bad, _, s3) => (some 5, s3)
          | (.ok, _, s3) =>
            if v.opt = 2 ∧ !(match segs with | some l => segsOk v.mcount 0 l | none => false) then (some 6, s3)
            else if s3.scanFull i then (some 7, s3)
            else (some 0, s3)

/-- STATUS of an entry (0xE8). -/
def State.setModelStatus (s : State) (i v : Nat) : State := s.putBarNat (modelOff i + 0xE8) 4 v

/-- A 64-bit field of an entry. -/
def State.setModelQ (s : State) (i off v : Nat) : State := s.putBarNat (modelOff i + off) 8 v

/-- EN of an entry. -/
def State.modelEn (s : State) (i : Nat) : Bool := bitAt (s.barNat (modelOff i + 0xFF) 1) 0

/-- An entry whose EN has been set is checked: refused, or its registration begins (R237, R238). A check that must wait for a
stack is made again by the registration's completion. -/
def State.modelRegister (s : State) (i : Nat) : State :=
  match s.modelCheck i with
  | (some 0, s1) => { (s1.setModelStatus i 0) with mdl := { s1.mdl with regs := s1.mdl.regs ++ [i] } }
  | (some c, s1) => s1.setModelStatus i (2 + c * 256)
  | (none, s1) => s1.setModelStatus i 0

/-! ### Reads and writes of a model's regions -/

/-- What a region's read gives: its bytes, none where a line is uncorrectable; whether a remote access was refused; a wait. -/
structure MRead where
  bytes : List (Option Byte)
  lost : Bool
  stall : Bool
  deriving DecidableEq, Repr

/-- The agent of a model's accesses. -/
def modelAgt (m : Nat) : Agt := { unitAgt with who := .model, use := .model m, read := .mread m }

/-- A region read line by line. -/
def State.mread (s : State) (m : Nat) : List (Nat × Nat) → MRead × State
  | [] => (⟨[], false, false⟩, s)
  | (va, n) :: rest =>
    match s.vread (modelAgt m) va n with
    | (.stall, s1) => (⟨[], false, true⟩, s1)
    | (r, s1) =>
      let (x, s2) := s1.mread m rest
      let b := match r with | .ok b => b.map some | _ => List.replicate n none
      (⟨b ++ x.bytes, x.lost || (match r with | .refused _ => true | _ => false), x.stall⟩, s2)

/-- A region of `n` bytes read. -/
def State.mreadAll (s : State) (m va n : Nat) : MRead × State := s.mread m (if n = 0 then [] else linePieces va n)

/-- A byte of the read is missing. -/
def MRead.bad (r : MRead) : Bool := r.bytes.any Option.isNone

/-- Elements of `sz` bytes; one with a missing byte is free. -/
def MRead.elems (r : MRead) (sz n draw : Nat) : List Nat :=
  (List.range n).map fun k =>
    let b := (r.bytes.drop (k * sz)).take sz
    if b.all Option.isSome then leNat (b.map fun x => x.getD 0) else (Config.unstated (draw + k)).toNat % 2 ^ (8 * sz)

/-- Writes of a model's regions: a wait where one must wait, and whether a remote one was refused at the source. -/
def State.mwrites (s : State) (m : Nat) (refused : Bool) : List (Nat × List Byte) → MRes × Bool × State
  | [] => (.ok [], refused, s)
  | (va, b) :: rest =>
    if b.isEmpty then s.mwrites m refused rest
    else match s.vwrite (modelAgt m) va b with
      | (.stall, s1) => (.stall, refused, s1)
      | (.refused _, s1) => s1.mwrites m true rest
      | (_, s1) => s1.mwrites m refused rest

/-- Little-endian elements. -/
def elemBytes (sz : Nat) (l : List Nat) : List Byte := l.flatMap fun x => natLE sz x

/-- The format of the master. -/
def Model.fmt (v : Model) : FFmt := if v.mfmt = 0 then fmtD else fmtS

/-- A detection of a model's check (class 0x0F). -/
def State.modelCorrupt (s : State) (m : Nat) (inj : Bool) : State :=
  (s.setModelBit m 20 true).reportC 0x0F mdlPage m 0 inj

/-- The next check of model `m` is the one an armed injection awaits (Table 18.8). -/
def State.modelInj (s : State) (m : Nat) : Bool :=
  s.injArmed mdlPage 1 && s.fld (fInj_TARGET mdlPage) + 256 * s.saf.targetHi == m

/-- A full read of the current slot compared with DIGEST (R248, R250): LASTREAD, and CORRUPT on a mismatch or a bad line. -/
def State.modelCompare (s : State) (m : Nat) (d : W64) (bad : Bool) : State :=
  let inj := s.modelInj m
  let last := if inj then Config.unstated s.fresh else d
  let s1 := (if inj then s.draw.2.injDone mdlPage else s).setModelQ m 0xD0 last.toNat
  if inj ∨ bad ∨ d ≠ (s1.model m).digest then s1.modelCorrupt m inj else s1

/-- The digest of a range of weights over its 64-bit words, and of a master (R247); a missing element is free. -/
def Model.digestOf (v : Model) (r : MRead) (draw : Nat) : W64 :=
  patDigest (if v.training then r.elems v.msz v.mcount draw else r.elems 8 (v.wbytes / 8) draw)

/-- The full read of what a model's checks cover. -/
def State.readChecked (s : State) (m : Nat) (v : Model) : MRead × State :=
  match v.checked with
  | (va, n) :: _ => s.mreadAll m va n
  | [] => (⟨[], false, false⟩, s)

/-! ### Registration's end (R238) -/

/-- VALID, with the protected segments in force. -/
def State.modelValid (s : State) (m : Nat) (segs : List Seg) : State :=
  let v := s.model m
  let (_, l, _) := s.modelSegsOf true (rangeSegs (v.protRanges segs))
  { (s.setModelStatus m (1 + 65536 * 0)) with
    mdl := { s.mdl with regs := s.mdl.regs.filter (· != m), prot := s.mdl.prot.filter (fun e => e.1 != m) ++ [(m, l)] } }

/-- A training model's registration: the working copy of slot 0 regenerated, digests, CUR 0. -/
def State.registerTraining (s : State) (m : Nat) (segs : List Seg) : State :=
  let v := { s.model m with cur := 0 }
  match s.readChecked m v with
  | (r, s1) =>
    if r.stall then s.undo s1
    else
      let draw := s1.fresh
      let ws := r.elems v.msz v.mcount draw
      let (wb, sb, _) := workCopy v.mfmt v.wfmt v.sr (mix64 (v.wseed ^^^ BitVec.ofNat 64 v.updCount)) ws
      match s1.mwrites m false [(v.wbase, wb), (v.wsbase, sb)] with
      | (.stall, _, s2) => s.undo s2
      | (_, _, s2) =>
        let d := patDigest ws
        let s3 := ((({ s2 with fresh := s2.fresh + v.mcount }).setModelQ m 0xC0 d.toNat).setModelQ m 0xD0 d.toNat).modelValid m segs
        if r.bad then s3.modelCorrupt m false else s3

/-- A VERIFY inference model's registration. -/
def State.registerVerify (s : State) (m : Nat) : State :=
  let v := s.model m
  match s.readChecked m v with
  | (r, s1) =>
    if r.stall then s
    else
      let d := v.digestOf r s1.fresh
      let s2 := ((({ s1 with fresh := s1.fresh + v.wbytes }).setModelQ m 0xC0 d.toNat).setModelQ m 0xD0 d.toNat).modelValid m []
      if r.bad then s2.modelCorrupt m false else s2

/-- MODEL_REGISTER_DONE: a registration that has passed its checks completes; one whose checks had to wait makes them. -/
def execModelRegisterDone (m : Fin 4096) (s : State) : Host.Outcome State Fault Refusal :=
  .next (
    let st := s.barNat (modelOff m + 0xE8) 4
    if !s.modelEn m ∨ bitAt st 0 ∨ bitAt st 1 then s
    else if !s.mdl.regs.contains m.val then s.modelRegister m
    else
      let v := s.model m
      match s.modelSegs v with
      | (_, true, _) => s
      | (segs, false, s1) =>
        if v.training then s1.registerTraining m (segs.getD [])
        else if v.verify then s1.registerVerify m
        else s1.modelValid m [])

/-- A pass of the model is in progress. -/
def State.passOf (s : State) (m : Nat) : Option MPass := s.mdl.passes.find? fun p => p.m == m

/-- The end of a deregistration: VALID and the status bits clear, no protected ranges. -/
def State.modelGone (s : State) (m : Nat) : State :=
  { (s.setModelStatus m 0) with
    mdl := { s.mdl with regs := s.mdl.regs.filter (· != m), prot := s.mdl.prot.filter fun e => e.1 != m } }

/-- A write of byte 0xFF: EN and reserved bits. A pass in progress completes before its model is deregistered. -/
def State.modelSetEn (s : State) (i b : Nat) : State :=
  let old := s.modelEn i
  let en := bitAt b 0
  let s1 := s.putBarNat (modelOff i + 0xFF) 1 b
  if en && !old then s1.modelRegister i
  else if !en && old then
    (if (s1.model i).valid then (if (s1.passOf i).isSome then s1 else s1.modelGone i)
     else { s1 with mdl := { s1.mdl with regs := s1.mdl.regs.filter (· != i) } })
  else s1

/-! ### Selection and prefetch (R240, R241) -/

/-- The A die cache of a grove. -/
def dieHolder (g : Nat) : Holder := if g < 128 then .dc0 else .dc1

/-- Lines brought into a die cache; a translation failure or an uncorrectable line ends the prefetch and is counted. One that comes to a
stalled stack ends uncounted: a prefetch binds nothing (DESIGN CHOICE, assumption log 119). -/
def State.prefLines (s : State) (h : Holder) : List Nat → State
  | [] => s
  | va :: rest =>
    match s.xlate .jobLevel va .load with
    | (.ok (.dram key), s1) =>
      if s1.accessStalled key 64 false then s1
      else
        let s2 := s1.prepLines (key / 64 * 64) 64 false h
        (match s2.takeLine (key / 64) with
         | (true, s3) => s3.prefLines h rest
         | (false, s3) => s3.inc fEqx_PREF_DROP)
    | (.ok _, s1) => s1.prefLines h rest
    | (.stall, s1) => s1
    | (.fault _, s1) => s1.inc fEqx_PREF_DROP

/-- The current slot's L0D: BASE and AUX offset by SOFF. -/
def Model.l0dNow (v : Model) : List Byte :=
  let o := v.cur * v.soff
  natLE 8 (fieldLE v.l0d 0 8 + o) ++ sliceB v.l0d 8 8 ++ natLE 8 (fieldLE v.l0d 16 8 + o) ++ v.l0d.drop 24

/-- Bytes of auxiliary data that `k` elements of one row have (R101), parts of a block counted whole. -/
def Opnd.auxLen (o : Opnd) (k : Nat) : Nat :=
  if isMx o.fmt then ceilDiv k 32
  else if o.exp = 1 then ceilDiv k 4096 * o.tblBytes
  else if o.exp = 2 then 4 * ceilDiv k 32
  else 0

/-- The auxiliary data of the first `n` bytes of weights from BASE, row by row: `e` elements, of which each row within EXTENT takes up
to LD. -/
def Opnd.prefAux (o : Opnd) (n : Nat) : List (Nat × Nat) :=
  let e := n * 8 / codeBits o.fmt
  (if o.ld = 0 then [(o.aux, o.auxLen e)]
   else (List.range o.extent).map fun r => (o.aux + r * o.auxLd, o.auxLen (min o.ld (e - r * o.ld)))).filter fun x => x.2 != 0

/-- The addresses of the lines of a byte range. -/
def prefSpan (x : Nat × Nat) : List Nat :=
  (List.range ((x.1 + x.2 - 1) / 64 - x.1 / 64 + 1)).map fun k => x.1 / 64 * 64 + 64 * k

/-- A prefetch of model `m` by a grove: the first PREF_BYTES bytes of layer 0's weights in the current slot, with their MX scales or
expansion data (R241). -/
def State.prefetch (s : State) (g m : Nat) : State :=
  let v := s.model m
  if !v.valid ∨ v.prefBytes = 0 then s
  else
    let o := Opnd.ofBytes v.l0dNow
    s.prefLines (dieHolder g) (prefSpan (o.base, v.prefBytes) ++ ((o.prefAux v.prefBytes).flatMap prefSpan).eraseDups)

/-- The index names a registered model of the thread's job (Table 10.10). -/
def State.modelOk (s : State) (t : Tid) (i : Nat) : Bool :=
  decide (i < 4096) && (s.model i).valid && (s.model i).job == (s.ctx t).job

/-- MSEL: the layer table's address, the epilogue configuration of layer 0 as MEPI loads it, the model context, the prefetches. -/
def execMsel (t : Tid) (d a b : Reg) (s : State) : Host.Outcome State Fault Refusal :=
  .next (s.mxInsn t (.msel t d a b) true fun s1 m =>
    let i := ((s1.ctx t).ga a).toNat
    let j := ((s1.ctx t).ga b).toNat
    if !s1.modelOk t i ∨ (j ≠ 0xFFFF ∧ !s1.modelOk t j) then .fault s1 { code := 0x48 }
    else
      let v := s1.model i
      match s1.vread (engAgt t) v.epi0 4096 with
      | (.ok e, s2) =>
        if ctlBad (fieldLE e 0x10 8) ∨ (sliceB e 0x50 0x7B0).any (· != 0) then .fault s2 { code := 0x34 }
        else
          let lt := BitVec.ofNat 64 (v.ltab + v.cur * v.soff)
          let s3 := (s2.setMat t.groveOf { m with epi := epiOf e, model := some (i, v.l0dNow, lt) }).modCtx t fun c => c.sa d lt
          let s4 := s3.prefetch t.groveOf i
          .done (if j = 0xFFFF then s4 else s4.prefetch t.groveOf j)
      | (r, s2) => readFault s2 (BitVec.ofNat 64 v.epi0) r)

/-- MHINT: a prefetch alone; from a thread that is on no grove there is no die cache of its own, and nothing is brought in. -/
def execMhint (t : Tid) (a : Reg) (s : State) : Host.Outcome State Fault Refusal :=
  .next (s.issue t (.mhint t a) profAll fun s1 =>
    let i := ((s1.ctx t).ga a).toNat
    if i = 0xFFFF then .done s1
    else if !s1.modelOk t i then .fault s1 { code := 0x48 }
    else .done (if t.kind = .grove then s1.prefetch t.groveOf i else s1))

/-! ### Update passes (R244 to R249) -/

/-- MUPDATE. -/
def execMupdate (t : Tid) (a b : Reg) (s : State) : Host.Outcome State Fault Refusal :=
  .next (s.issue t (.mupdate t a b) profWork fun s1 =>
    let c := s1.ctx t
    let i := (c.ga a).toNat
    let ctl := (c.ga b).toNat
    if !s1.modelOk t i ∨ !(s1.model i).training ∨ 8192 ≤ ctl then .fault s1 { code := 0x48 }
    else if (s1.model i).pending ∨ (s1.passOf i).isSome then .fault s1 { code := 0x4A }
    else if (s1.model i).lenderLost then .fault s1 { code := 0x4B }
    else
      let p : MPass := { m := i, hyp := s1.barBytes (modelOff i + 0x80) 48, cnt := ctl % 4096, cntEn := bitAt ctl 12,
                         epoch := BitVec.ofNat 32 (s1.fld fMode_A_EPOCH), wrote := false }
      .done { s1 with mdl := { s1.mdl with passes := s1.mdl.passes ++ [p] } })

/-- What a pass has read. -/
structure PassIn where
  w : List Nat
  g : List Nat
  st : List Nat
  deriving DecidableEq, Repr

/-- The update of a pass in MFMT. -/
def Model.update (v : Model) (hyp : List Byte) (segs : List Seg) (x : PassIn) : PassRes :=
  let f := v.fmt
  let h := hyperOf f (fieldLE hyp 0 8) (fieldLE hyp 8 8) (fieldLE hyp 16 8) (fieldLE hyp 24 8) (fieldLE hyp 32 8)
  match v.opt with
  | 1 => passMoment f h x.w x.g x.st
  | 2 => passFactored f h x.w x.g (segs.map fun s => (s.first, s.rows, s.cols)) x.st
  | _ => passPlain f h x.w x.g

/-- Slot `c` of a base. -/
def Model.slot (v : Model) (base c : Nat) : Nat := base + c * v.soff

/-- The pass's end (R244 step 2): the counter, and a deregistration that waited. -/
def State.passOver (s : State) (p : MPass) : State :=
  let s1 := (s.setModelBit p.m 17 true)
  let s2 := { s1 with mdl := { s1.mdl with passes := s1.mdl.passes.filter fun q => q.m != p.m } }
  let s3 := if p.cntEn ∧ s2.fab.cnts.contains p.cnt then s2.addCounter p.cnt 1 false else s2
  (if s3.modelEn p.m then s3 else s3.modelGone p.m).jobOver

/-- Remote stores of a pass that are outstanding. -/
def State.passOuts (s : State) (m : Nat) : Bool := s.fab.ctxs.any fun c => c.use == .model m

/-- The pass's work: reads of the current slots, writes of the pending ones, digests and marks. -/
def State.passRun (s : State) (p : MPass) : State :=
  let m := p.m
  let v := s.model m
  let nxt := 1 - v.cur
  match s.modelSegs v with
  | (_, true, sx) => s.undo sx
  | (segs?, false, sx) =>
    let segs := segs?.getD []
    let ob := v.obytes segs
    -- state in lender memory is asked for first, and waited for (R249)
    let (come, s0) := sx.askRanges (modelAgt m) (if ob = 0 then [] else linePieces (v.slot v.obase v.cur) ob)
    let (rm, s1) := s0.mreadAll m (v.slot v.mbase v.cur) (v.mcount * v.msz)
    let (rg, s2) := s1.mreadAll m v.gbase (v.mcount * v.gsz)
    let (ro, s3) := s2.mreadAll m (v.slot v.obase v.cur) ob
    if !come then s0
    else if rm.stall ∨ rg.stall ∨ ro.stall then s0.undo s3
    else
      let draw := s3.fresh
      let n := v.mcount
      let w := rm.elems v.msz n draw
      let g0 := rg.elems v.gsz n (draw + n)
      let g := g0.map fun b => if v.gfmt = v.mfmt then b else v.fmt.from_ fmtS b
      let st := ro.elems v.msz (ob / v.msz) (draw + 2 * n)
      let res := v.update p.hyp segs ⟨w, g, st⟩
      let u := v.updCount + 1
      let (wb, sb, wild) := workCopy v.mfmt v.wfmt v.sr (mix64 (v.wseed ^^^ BitVec.ofNat 64 u)) res.master
      match s3.mwrites m false [(v.slot v.mbase nxt, elemBytes v.msz res.master), (v.slot v.wbase nxt, wb), (v.slot v.wsbase nxt, sb),
          (v.slot v.obase nxt, elemBytes v.msz res.state)] with
      | (.stall, _, s4) => s0.undo s4
      | (_, refused, s4x) =>
        let s4 := s4x.dropGot (.mread m)
        let lost := ro.lost || refused
        let gnorm := (fmtD.sqrt 0 ((if v.gfmt = 0 then fmtD else fmtS).sumSq fmtD g0)).1
        let above := !fmtD.isNaN gnorm && (fmtD.decode gnorm).cmp (fmtD.decode (fieldLE p.hyp 40 8)) == .gt
        let f := v.fmt
        let nonf := g.any f.wild || res.master.any f.wild || res.state.any f.wild || wild || above || rg.bad || ro.bad || lost
        let s5 := { s4 with fresh := s4.fresh + 3 * n + ob }
        let s6 := ((s5.setModelQ m 0xD8 (patDigest res.master).toNat).setModelQ m 0xE0 gnorm).setModelBit m 18 nonf
        let s7 := if lost then s6.setModelBit m 19 true else s6
        let s8 := s7.modelCompare m (patDigest w) rm.bad
        if s8.passOuts m then { s8 with mdl := { s8.mdl with passes := s8.mdl.passes.map fun q => if q.m = m then { q with wrote := true } else q } }
        else s8.passOver p

/-- UPDATE_PASS_DONE: the pass is performed; with stores to lender memory outstanding it completes after they have ended. -/
def execUpdatePassDone (m : Fin 4096) (s : State) : Host.Outcome State Fault Refusal :=
  .next (match s.passOf m with
    | none => s
    | some p =>
      if s.flag fSafe_SAFE then s
      else if !p.wrote then s.passRun p
      else if s.passOuts m then s
      else s.passOver p)

/-! ### The background check (R250) -/

/-- BACKGROUND_CHECK: a full read of the current master, or of a VERIFY model's weights, against DIGEST. None while step-boundary
actions run. -/
def execBackgroundCheck (m : Fin 4096) (s : State) : Host.Outcome State Fault Refusal :=
  .next (
    let v := s.model m
    if !v.valid ∨ s.boundary ∨ v.checked.isEmpty then s
    else match s.readChecked m v with
      | (r, s1) =>
        if r.stall then s.undo s1
        else ({ s1 with fresh := s1.fresh + v.wbytes + v.mcount }).modelCompare m (v.digestOf r s1.fresh) r.bad)

/-! ### Export (R256) -/

/-- The export header (Table 10.8). -/
def Model.header (v : Model) (obytes step : Nat) : List Byte :=
  natLE 2 1 ++ natLE 1 (v.opt + 4 * v.sr.toNat) ++ natLE 1 v.mfmt ++ natLE 1 v.wfmt ++ natLE 1 v.gfmt ++ natLE 2 v.nseg ++
    natLE 8 v.mcount ++ natLE 8 v.updCount ++ natLE 8 v.digest.toNat ++ natLE 8 (v.slot v.mbase v.cur) ++
    natLE 8 (v.slot v.wbase v.cur) ++ natLE 8 (if isMx v.wfmt then v.slot v.wsbase v.cur else 0) ++
    natLE 8 (if v.opt = 0 then 0 else v.slot v.obase v.cur) ++ natLE 8 obytes ++ natLE 8 v.stab ++ natLE 8 v.wseed.toNat ++
    natLE 8 step ++ List.replicate 32 0

/-- MEXPORT. -/
def execMexport (t : Tid) (a d : Reg) (s : State) : Host.Outcome State Fault Refusal :=
  .next (s.issue t (.mexport t a d) profControl fun s1 =>
    let i := ((s1.ctx t).ga a).toNat
    let va := (s1.ctx t).ga d
    if !s1.modelOk t i ∨ !(s1.model i).training then .fault s1 { code := 0x48 }
    else
      let v := s1.model i
      match s1.vprobe (s1.whoOf t) .store va.toNat 128 with
      | (.ok _, s2) =>
        (match s2.vwrite (s2.agtOf t) va.toNat (v.header (v.obytes (s2.segsNow v)) (s2.fld fPkg_STEP)) with
         | (.ok _, s3) => .done s3
         | (r, s3) => readFault s3 va r)
      | (r, s2) => readFault s2 va r)

end Sys2Proof.Machine
end

