-- ==== Sys2Proof/Machine/Snapshot.lean ====
section
/-! DEFINITION. Snapshots: requests and notices, the cut, copies, shards, commit (R326 to R342). -/

namespace Sys2Proof.Machine

/-! ### Requests and notices (R326, R327) -/

/-- REQ written. -/
def State.snapRequest (s : State) : State :=
  if s.flag fSnap_REQ_PEND then s.addSat fSnap_NOTICES 1 else s.setFlag fSnap_REQ_PEND true

/-- A pre-emption notice by a route (1 PREEMPT_N, 2 mailbox, 3 Gnolink). -/
def State.preempt (s : State) (route src : Nat) : State :=
  if !s.jobRuns then s.event logInfo .noticeNoJob (BitVec.ofNat 64 route) 0 []
  else
    let s1 := (s.setFld fSnap_SRC route).modSnp fun x => { x with src := src }
    match s.snp.job with
    | some j =>
      if s.flag fSnap_PRE_PEND then s.addSat fSnap_NOTICES 1
      else s1.modSnp fun x => { x with job := some { j with preempt := true } }
    | none => if s.flag fSnap_PRE_PEND then s.addSat fSnap_NOTICES 1 else s1.setFlag fSnap_PRE_PEND true

/-! ### The tensor table (Tables 14.1, 14.2) -/

/-- A tensor entry. -/
structure TensorE where
  va : Nat
  len : Nat
  id : Nat
  method : Nat
  repl : Bool
  writer : Bool
  baseEvery : Nat
  replWin : Nat
  writerPkg : Nat
  reserved : Bool
  deriving DecidableEq, Repr

/-- An entry from its 64 bytes. -/
def tensorOf (b : List Byte) : TensorE :=
  let m := fieldLE b 0x18 1
  { va := fieldLE b 0 8, len := fieldLE b 8 8, id := fieldLE b 0x10 8, method := m % 4, repl := bitAt m 2, writer := bitAt m 3,
    baseEvery := fieldLE b 0x19 1, replWin := fieldLE b 0x1A 2, writerPkg := fieldLE b 0x1C 2,
    reserved := decide (16 ≤ m) || decide (16384 ≤ fieldLE b 0x1A 2) || (sliceB b 0x1E 34).any (· != 0) }

/-- BAD_FORMAT of one entry. -/
def TensorE.bad (t : TensorE) : Bool :=
  t.reserved || t.method == 3 || t.va % 65536 != 0 || t.len % 65536 != 0 || t.len == 0 || decide (2 ^ 40 < t.len)

/-- The table as memory holds it: TT_COUNT entries from TT_BASE. -/
def State.tensorTable (s : State) : MRes × List TensorE × State :=
  let n := s.fld fSnap_TT_COUNT
  match s.vread unitAgt (s.fld fSnap_TT_BASE * 64) (64 * n) with
  | (.ok b, s1) => (.ok [], (List.range n).map fun i => tensorOf (sliceB b (64 * i) 64), s1)
  | (r, s1) => (r, [], s1)

/-- Two tensors overlap. -/
def tensorsOverlap : List TensorE → Bool
  | [] => false
  | t :: rest => rest.any (fun u => rangesMeet (t.va, t.va + t.len) (u.va, u.va + u.len)) || tensorsOverlap rest

/-- A granule's key with its placement byte (R347): stack in [2:0], aperture kind in [5:4]. -/
structure GranAt where
  key : Nat
  place : Nat
  deriving DecidableEq, Repr

/-- The aperture kind of a local physical address (Table 2.7): pinned, near, spread. -/
def apertureKind (lpa : Nat) : Nat := if lpa < 0x10000000000 then 0 else if lpa < 0x20000000000 then 1 else 2

/-- The outcome of a look through the page tables or the tensor table: found, not there, or a wait. -/
inductive Found (α : Type) where
  | ok (a : α)
  | bad
  | stall
  deriving DecidableEq, Repr

/-- The place of a granule of a tensor; bad where it is not local, lies in a view range or in a reserve. -/
def State.granAt (s : State) (va : Nat) : Found GranAt × State :=
  if (s.viewAt va).isSome then (.bad, s)
  else match s.walk va 5 0 (s.fld fPkg_TROOT) with
    | (.leaf l, s1) =>
      let lpa := bitsOf l.e 47 16 * 65536 + va % 2 ^ leafBits l.lvl
      if bitsOf l.e 6 5 ≠ 0 then (.bad, s1)
      else match s1.place lpa with
        | .dram key => (.ok ⟨key, keyStack key + 16 * apertureKind lpa⟩, s1)
        | _ => (.bad, s1)
    | (.stall, s1) => (.stall, s1)
    | (_, s1) => (.bad, s1)

/-- The granules of a range in address order; bad where one has no place. -/
def State.gransAt (s : State) : Nat → Nat → Found (List GranAt) × State
  | 0, _ => (.ok [], s)
  | n + 1, va =>
    match s.granAt va with
    | (.ok g, s1) =>
      match s1.gransAt n (va + 4096) with
      | (.ok gs, s2) => (.ok (g :: gs), s2)
      | x => x
    | (.bad, s1) => (.bad, s1)
    | (.stall, s1) => (.stall, s1)

/-- The placement digest (R347). -/
def placeDigest (gs : List GranAt) : W64 :=
  BitVec.ofNat 64 (leNat ((sha3_256 (gs.map fun g => BitVec.ofNat 8 g.place)).take 8))

/-- Granules of every tensor; bad where one has no place. -/
def State.tensorGrans (s : State) : List TensorE → Found (List (List GranAt)) × State
  | [] => (.ok [], s)
  | t :: rest =>
    match s.gransAt (t.len / 4096) t.va with
    | (.ok g, s1) =>
      match s1.tensorGrans rest with
      | (.ok gs, s2) => (.ok (g :: gs), s2)
      | x => x
    | (.bad, s1) => (.bad, s1)
    | (.stall, s1) => (.stall, s1)

/-! ### Methods and tiers (R336, R337) -/

/-- The chain of a tensor in a manifest: its base and deltas. -/
def SManifest.chainOf (m : SManifest) (t : TensorE) : List Shard :=
  m.shards.filter fun x => x.id == t.id && x.va == t.va && x.len == t.len && x.kind != 2

/-- The chain of a tensor that the newest agreed generation of the series with a base of it holds (R336). -/
def State.baseChain (s : State) (series : W64) (t : TensorE) : List Shard :=
  match (s.snp.gens.filter fun m => m.series == series && decide (m.gen ≤ s.fld fSnap_GEN_AGREED) &&
      (m.chainOf t).any fun x => x.kind == 0).getLast? with
  | some m => m.chainOf t
  | none => []

/-- The kind of a tensor's shard (Table 14.6): 0 full, 1 delta, 2 replica reference. -/
def tensorKind (t : TensorE) (chain : List Shard) (dirty : Nat) : Nat :=
  let every := if t.baseEvery = 0 then 8 else t.baseEvery
  if t.repl then (if t.writer then 0 else 2)
  else if !(chain.any fun x => x.kind == 0) then 0
  else if t.method = 1 then 0
  else if t.method = 2 then 1
  else if t.len < 2 ^ 28 then 0
  else if every ≤ (chain.filter fun x => x.kind == 1).length + 1 then 0
  else if t.len / 65536 < 2 * dirty then 0
  else 1

/-- The members of the job, for FIRST_TIER 0: those of SOL_GROUP, or one. -/
def State.jobPackages (s : State) : Nat := if s.flag fSnap_SOL_EN then (s.grp (s.fld fSnap_SOL_GROUP)).nmem else 1

/-- FIRST_TIER's choice from POOL_COUNT, the job's packages and RSV_APPLIED: 1 reserve, 2 pool; none when it is not there. -/
def tierOf (sel pool pkgs rsv : Nat) : Option Nat :=
  if sel == 1 || (sel != 2 && (pool == 0 || decide (64 < pkgs))) then (if rsv == 0 then none else some 1)
  else if pool == 0 then none else some 2

/-- The first tier chosen. -/
def State.firstTier (s : State) : Option Nat :=
  tierOf (s.fld fSnap_FIRST_TIER) (s.fld fSnap_POOL_COUNT) s.jobPackages (s.fld fSnap_RSV_APPLIED)

/-! ### The cut (R333) -/

/-- The check of R330: a code with no further effect, or 0 with the tensors and their granules. -/
def State.cutCheck (s : State) : Found (Nat × List TensorE × List (List GranAt)) × State :=
  if 4096 < s.fld fSnap_TT_COUNT then (.ok (1, [], []), s)
  else match s.tensorTable with
    | (.ok _, ts, s1) =>
      if ts.any TensorE.bad ∨ !decide (ts.map (·.id)).Nodup then (.ok (1, [], []), s1)
      else if tensorsOverlap ts then (.ok (2, [], []), s1)
      else match s1.tensorGrans ts with
        | (.stall, s2) => (.stall, s2)
        | (.bad, s2) => (.ok (3, [], []), s2)
        | (.ok gs, s2) =>
          if s2.firstTier.isNone then (.ok (4, [], []), s2)
          else if !s2.flag fNand_FORMATTED then (.ok (5, [], []), s2)
          else (.ok (0, ts, gs), s2)
    | (.stall, _, s1) => (.stall, s1)
    | (_, _, s1) => (.ok (3, [], []), s1)

/-- The units of a tensor: index and granules (byte key / 4096). -/
def unitsOf (tensor : Nat) (gs : List GranAt) : List SUnit :=
  (List.range (gs.length / 16)).map fun i =>
    { tensor := tensor, index := i, grans := ((gs.drop (16 * i)).take 16).map fun g => g.key / 4096 }

/-- A granule's dirty bit. -/
def State.isDirty (s : State) (g : Nat) : Bool := tabGet noMark s.snp.dirty g

/-- A unit is dirty when any granule of it is. -/
def State.unitDirty (s : State) (u : SUnit) : Bool := u.grans.any s.isDirty

/-- A tensor at the cut, with the units that will be copied. -/
def State.cutTensor (s : State) (series : W64) (t : TensorE) (gs : List GranAt) : TCut × List SUnit :=
  let us := unitsOf t.id gs
  let chain := s.baseChain series t
  let k := tensorKind t chain (us.filter s.unitDirty).length
  ({ va := t.va, len := t.len, id := t.id, kind := k, writer := if k = 2 then t.writerPkg else s.pkgId,
     chain := if k = 1 then chain else [], place := placeDigest gs, drained := [], shard := none },
   match k with | 0 => us | 1 => us.filter s.unitDirty | _ => [])

/-- The configuration bits of a manifest (Table 14.7). -/
def State.configBits (s : State) : Nat :=
  s.fld fMode_A_PROFILE + 2 * s.fld fMode_A_CAP_MODE + 4 * s.fld fMode_A_STRICT

/-- The cut for generation `g`; none where the tensor table or a page table must wait for a stack. -/
def State.cut (s : State) (g : Nat) (pre : Bool) : Option State :=
  let step := BitVec.ofNat 64 (s.fld fPkg_STEP)
  let series := BitVec.ofNat 64 (s.fld fSnap_SERIES)
  let s1 := ((((s.setFlag fSnap_REQ_PEND false).setFlag fSnap_PRE_PEND false).setFld fSnap_GEN_NEXT (g + 1)).setFld fSnap_CUT_STEP
    step.toNat).setFld fSnap_SNAP_BYTES 0
  let j : SnapJob :=
    { gen := g, step := step, series := series, epoch := BitVec.ofNat 32 (s.fld fMode_A_EPOCH), config := s.configBits, preempt := pre,
      tier := 1, tensors := [], taken := [] }
  match s1.cutCheck with
  | (.ok (0, ts, gs), s2) =>
    let cuts := (ts.zip gs).map fun x => s2.cutTensor series x.1 x.2
    let taken := ((gs.flatMap id).map fun x => x.key / 4096).filter s2.isDirty
    let s3 := s2.modSnp fun x =>
      { x with dirty := taken.foldl (fun d k => tabSet noMark d k false) x.dirty, units := cuts.flatMap (·.2),
               job := some { j with tensors := cuts.map (·.1), tier := s2.firstTier.getD 1, taken := taken } }
    some s3.syncSnap
  | (.ok (c, _, _), s2) => some ((s2.modSnp fun x => { x with job := some j }).snapEnd c)
  | (_, _) => none

/-! ### Copies into the first tier (R338, R339) -/

/-- Bytes of a stack's reserve that copied units occupy. -/
def SnapSt.reserveUse (x : SnapSt) (n : Nat) : Nat :=
  4096 * ((x.copied.flatMap fun c => c.unit.grans).filter fun g => keyStack (g * 4096) == n).length

/-- The first tier has room for a unit in every stack's reserve. -/
def State.reserveRoom (s : State) (u : SUnit) : Bool :=
  (List.range 8).all fun n =>
    decide (s.snp.reserveUse n + 4096 * (u.grans.filter fun g => keyStack (g * 4096) == n).length ≤ s.rsvGib * 2 ^ 30)

/-- A pool entry: package, window, length (R338). -/
def State.poolEntries (s : State) : Found (List (Nat × Nat × Nat)) × State :=
  let n := s.fld fSnap_POOL_COUNT
  match s.vread unitAgt (s.fld fSnap_POOL_BASE * 16) (16 * n) with
  | (.ok b, s1) => (.ok ((List.range n).map fun i =>
      (fieldLE b (16 * i) 2, fieldLE b (16 * i) 4 / 65536 % 16384, fieldLE b (16 * i + 8) 8)), s1)
  | (.stall, s1) => (.stall, s1)
  | (_, s1) => (.bad, s1)

/-- The fabric address of a pool offset, in entry order. -/
def poolAddr : List (Nat × Nat × Nat) → Nat → Option Nat
  | [], _ => none
  | (pkg, win, len) :: rest, off => if off < len then some (pkg * 2 ^ 48 + win * 2 ^ 34 + off) else poolAddr rest (off - len)

/-- One line of a unit as it is read; whether it is poisoned. -/
def State.unitLines (s : State) : List Nat → List Byte × List Nat × Nat → (List Byte × List Nat × Nat) × State
  | [], r => (r, s)
  | line :: rest, (data, bad, off) =>
    let (good, s1) := (s.prepLines (line * 64) 64 false .inStack).takeLine line
    let s2 := if good then s1
      else s1.event logFail .ueLine (BitVec.ofNat 64 (dpaOf (line * 64))) 0 []
    s2.unitLines rest (data ++ s2.dramBytes (line * 64) 64, if good then bad else bad ++ [off], off + 64)

/-- The lines of a unit. -/
def SUnit.lines (u : SUnit) : List Nat := u.grans.flatMap fun g => (List.range 64).map fun i => g * 64 + i

/-- The unit copied next: the first whose protection stalls a write, else the first in order (R339). -/
def SnapSt.nextUnit (x : SnapSt) : Option SUnit :=
  match x.units.find? fun u => u.grans.any x.stalled.contains with
  | some u => some u
  | none => x.units.head?

/-- A unit's copy lies in the first tier: its protection ends, and the writes that waited are performed. -/
def State.unitCopied (s : State) (c : CUnit) : State :=
  let s1 := s.modSnp fun x =>
    { x with units := x.units.filter (· ≠ c.unit), stalled := x.stalled.filter fun g => !c.unit.grans.contains g,
             copied := x.copied ++ [c], flying := none }
  ((s1.setFld fSnap_SNAP_BYTES (s1.fld fSnap_SNAP_BYTES + 65536)).syncSnap).releaseWaiting

/-- A unit put to the pool: its packets leave; a pool that cannot be reached ends the snapshot (Table 14.9). -/
def State.unitPut (s : State) (c : CUnit) (addr : Nat) : Nat → Option State
  | 0 => some (s.modSnp fun x => { x with flying := some c })
  | n + 1 =>
    let off := 65536 - 256 * (n + 1)
    let part := (c.data.drop off).take 256
    match s.request .pool copyHandle 0 { s.reqPkt 2 false (addr + off) 256 part with job := s.jobId } with
    | (.sent _, s1) => s1.unitPut c addr n
    | (.refused _, s1) => some (s1.snapFail 0x11)
    | (.wait, _) => none

/-- The pool offset at which the next unit lies: a ring of the units copied so far. -/
def State.poolOff (s : State) (entries : List (Nat × Nat × Nat)) : Option Nat :=
  let total := entries.foldl (fun a e => a + e.2.2) 0
  if 65536 * (s.snp.copied.length + 1) ≤ total then some (s.fld fSnap_SNAP_BYTES % total) else none

/-! ### Shards (R341) -/

/-- Bytes padded with zeros to a multiple of 64. -/
def pad64b (b : List Byte) : List Byte := b ++ List.replicate ((64 - b.length % 64) % 64) 0

/-- A shard's bytes as written. -/
def Shard.bytes (x : Shard) : List Byte :=
  (if x.kind = 1 then pad64b (x.idx.flatMap (natLE 4)) else []) ++ x.data ++ pad64b (x.poison.flatMap (natLE 8))

/-- A unit placed before the first with a higher index. -/
def insUnit (c : CUnit) : List CUnit → List CUnit
  | [] => [c]
  | d :: ds => if c.unit.index ≤ d.unit.index then c :: d :: ds else d :: insUnit c ds

/-- The shard of a tensor whose units have all been drained. -/
def TCut.toShard (t : TCut) (gen : Nat) (nloc : W64) : Shard :=
  let us := t.drained.foldl (fun l c => insUnit c l) []
  let x : Shard :=
    { id := t.id, va := t.va, len := t.len, kind := t.kind, writer := t.writer, poison := us.flatMap (·.poison), sgen := gen, place := t.place,
      nloc := nloc, idx := us.map (·.unit.index), data := us.flatMap (·.data), digest := [] }
  { x with digest := sha3_256 x.bytes }

/-- The replica reference of a tensor. -/
def TCut.reference (t : TCut) (gen : Nat) : Shard :=
  { id := t.id, va := t.va, len := t.len, kind := 2, writer := t.writer, poison := [], sgen := gen, place := t.place, nloc := 0, idx := [],
    data := [], digest := List.replicate 32 0 }

/-- A program failure: the block is retired and another takes its place; with none left the snapshot ends NAND_ERROR. -/
def State.progFailure (s : State) : Bool × State :=
  let s1 := s.addSat fNand_PROG_FAIL 1
  let s2 := s1.setFld fNand_BAD_BLOCKS (s1.fld fNand_BAD_BLOCKS + 1)
  if s2.fld fNand_SPARE_BLOCKS = 0 then (true, s2.snapFail 0x15)
  else (false, (s2.setFld fNand_SPARE_BLOCKS (s2.fld fNand_SPARE_BLOCKS - 1)).event logInfo .snapAbandoned 0 0x15 [])

/-- Bytes that the shards written so far take. -/
def SnapJob.written (j : SnapJob) : Nat := (j.tensors.filterMap fun t => t.shard.map Shard.sbytes).foldl (· + ·) 0

/-! ### The manifest and commit (R342) -/

/-- The shard entry of a manifest (Table 14.8). -/
def Shard.entry (x : Shard) : List Byte :=
  natLE 8 x.id ++ natLE 8 x.va ++ natLE 8 x.len ++ natLE 1 x.kind ++ natLE 1 0 ++ natLE 2 x.writer ++ natLE 4 x.poison.length ++
    natLE 8 x.sgen ++ natLE 8 x.place.toNat ++ natLE 8 x.nloc.toNat ++ natLE 8 x.sbytes ++ x.digest

/-- The manifest's bytes before its signature (Table 14.7). -/
def SManifest.bytes (m : SManifest) : List Byte :=
  natLE 2 1 ++ natLE 1 m.preempt.toNat ++ natLE 1 0 ++ natLE 2 m.pkg ++ natLE 2 m.job ++ natLE 8 m.series.toNat ++ natLE 8 m.gen ++
    natLE 8 m.step.toNat ++ natLE 4 m.epoch.toNat ++ natLE 1 m.config ++ natLE 1 m.rsv ++ natLE 2 256 ++ natLE 2 m.nmem ++
    natLE 2 m.rank ++ natLE 4 m.shards.length ++ natLE 8 m.gkey.toNat ++ natLE 8 m.fwset.toNat ++
    natLE 8 (256 + 96 * m.shards.length) ++ List.replicate 184 0 ++ m.shards.flatMap Shard.entry

/-- The identity key's number among the keys of the security controller. -/
def keyIdentity : Nat := 2

/-- The manifest of a snapshot whose shards are all written. -/
def State.manifest (s : State) (j : SnapJob) : SManifest :=
  let sol := s.flag fSnap_SOL_EN
  let g := s.grp (s.fld fSnap_SOL_GROUP)
  let m : SManifest :=
    { preempt := j.preempt, pkg := s.pkgId, job := s.jobId, series := j.series, gen := j.gen, step := j.step, epoch := j.epoch,
      config := j.config, rsv := s.rsvGib, nmem := if sol then g.nmem else 1, rank := if sol then g.rank else 0,
      gkey := if sol then g.gkey else 0, fwset := BitVec.ofNat 64 (s.fld fMode_FWSET),
      shards := j.tensors.flatMap fun t => t.chain ++ [t.shard.getD (t.reference j.gen)], sig := [] }
  { m with sig := Config.mac keyIdentity m.bytes }

/-- RELEASE written: a HOLD_AFTER hold ends (R328). -/
def State.snapRelease (s : State) : State := (s.setFlag fSnap_HELD false)

/-- PREEMPTION_MESSAGE: a management message on VC3. -/
def execPreemptionMessage (src : Nat) (s : State) : Host.Outcome State Fault Refusal := .next (s.preempt 3 src)

end Sys2Proof.Machine
end

