-- ==== Sys2Proof/Machine/Job.lean ====
section
/-! DEFINITION. Job Start and Job End: what they do to the machine (R366, R454). -/

namespace Sys2Proof.Machine

/-- Threads of the job end without STATUS or counter, its launches and notices are dropped (R366). -/
def State.endThreads (s : State) : State :=
  let s1 := { s with thr := { s.thr with launches := [], notices := [] } }
  s1.liveCtxs.foldl (fun t e => match Tid.ofHandle e.1 with
    | some x => (t.releaseEngines x).freeCtx x
    | none => t) s1

/-- Windows whose JOB is the job's and whose LEND bit is clear are deregistered (R269). -/
def State.dropJobWindows (s : State) : State :=
  s.windows.foldl (fun t i => if (t.window i).lend ∨ (t.window i).job ≠ t.jobId then t else t.dropWindow i) s

/-- Views and models of the job are deregistered (R193, R238). -/
def State.dropTables (s : State) : State :=
  let s1 := (s.validEntries 0x200000 64 1024 0x3F).foldl (fun t i => t.viewSetEn i 0) s
  (s1.validEntries 0x100000 256 4096 0xFF).foldl (fun t i => t.modelSetEn i 0) s1

/-- The actions of Job End (R366). Copies and flagged stores that have not been sent are dropped with their threads. -/
def State.jobActs (s : State) : State :=
  let s1 := (s.endThreads.snapEnd 0x17)
  let s2 := if s1.flag fRing_EN then s1.hringProd else s1
  let s3 := (s2.dropTables.dropGroups).dropJobWindows
  let s4 := s3.modFab fun f => { f with cnts := [], copies := [], flags := [], broken := [] }
  { s4 with bnd := { s4.bnd with phase := .none, result := none, holdDue := false },
            snp := { s4.snp with rest := none, blocked := false } }

/-- Job End: its actions, the refusal of the ring's entries, then completion when nothing of the job is outstanding. -/
def State.jobEnd (s : State) (who : Option Agent) : State :=
  if s.jobRuns then
    let s1 := s.jobActs
    { s1 with host := { s1.host with jobEnding := some who } }.ringService
  else s

/-- Job Start: ID and root for every thread kind, the step counter 0, group 0 (R366, R290, Table 19.5). -/
def State.jobStart (s : State) (job : Nat) (root : W64) : State :=
  ((((s.setFld fPkg_JOB job).setFlag fPkg_JOB_PRESENT true).setFld fPkg_TROOT root.toNat).setFld fPkg_STEP 0).createGroup0 job

end Sys2Proof.Machine
end

