-- ==== Sys2Proof/Machine/Persist.lean ====
section
/-! DEFINITION. Commits to the persistent store as they complete (R446 to R449). -/

namespace Sys2Proof.Machine

/-- The owner digest with OWN_REQ as one committed value, or none. -/
def ownerCode (owner : List Byte) (req : Bool) : Nat := if owner.isEmpty then 0 else 1 + 2 * req.toNat + 4 * leNat owner

/-- An anchor as one committed value. -/
def anchorCode (d : List Byte) : Nat := if d.isEmpty then 0 else 1 + 2 * leNat d

/-- No anchor. -/
def anchorNone (_ : Nat) : List Byte := []

/-- The owner as the store holds it (index 15). -/
def State.showOwner (s : State) (v : Nat) : State :=
  let s1 := (s.setFlag fSec_OWNER_SET (v != 0)).setFld fSec_OWN_REQ (v / 2)
  { s1 with sec := { s1.sec with owner := if v = 0 then [] else natLE 32 (v / 4) } }

/-- A trust anchor as the store holds it (indices 16 to 19). -/
def State.showAnchor (s : State) (k v : Nat) : State :=
  { s with sec := { s.sec with anchors := tabSet anchorNone s.sec.anchors k (if v = 0 then [] else natLE 32 (v / 2)) } }

/-- The register fields that show a committed value (Table 19.6). -/
def State.showPst (s : State) (i v : Nat) : State :=
  match i with
  | 0 => s.setFld fPkg_PKG_ID v
  | 1 => s.setFld fPwr_CAP_DEF v
  | 2 => s.setFld fSnap_RSV_GIB v
  | 3 => ((s.setFld fBoot_SLOT_PREF v).setFld fBoot_SHORT_TEST (v / 2)).setFld fBoot_CONSERV (v / 4)
  | 5 => s.setFld fPwr_PROT_CAUSE v
  | 15 => s.showOwner v
  | 16 => s.showAnchor 0 v
  | 17 => s.showAnchor 1 v
  | 18 => s.showAnchor 2 v
  | 19 => s.showAnchor 3 v
  | 6 => (List.range 8).foldl (fun t k => t.setFld (fSafeLast k) (v / 2 ^ (64 * k))) s
  | _ => s

/-- A register's write count after a commit, with NEAR and LIMIT and their Warning records (R447). -/
def State.countPst (s : State) (i : Nat) : State :=
  let n := s.fld (fPcnt i) + 1
  let s1 := s.setFld (fPcnt i) n
  if n = 90000 then ((s1.setFlag (fPcnt_NEAR i) true).setFlag fPst_NEAR_ANY true).event logWarn .persistNear (BitVec.ofNat 64 i) 0 []
  else if n = 100000 then
    ((s1.setFlag (fPcnt_LIMIT i) true).setFlag fPst_LIMIT_ANY true).event logWarn .persistLimit (BitVec.ofNat 64 i) 0 []
  else s1

/-- A write of a persistent field completes. -/
def State.writeComplete (s : State) : PWait → State
  | .thread t =>
    let c := s.ctx t
    (match c.instr with
     | some i => if c.st = .wait ∧ c.await = .commit then State.settle t i (.done s) else s
     | none => s)
  | .command => s.answer (.code 0 [])

/-- `n` commits are over: the writes that awaited no more of them complete. -/
def State.writesDone (s : State) (n : Nat) : State :=
  (s.pst.waits.filter fun w => decide (w.1 ≤ n)).foldl (fun t w => t.writeComplete w.2)
    { s with pst := { s.pst with waits := (s.pst.waits.filter fun w => decide (n < w.1)).map fun w => (w.1 - n, w.2) } }

/-- The commit in progress completes, and with it the write that began it (R9); the next one begins, past those whose register has
reached its limit since. -/
def State.commitDone (s : State) : State :=
  match s.pst.busy with
  | none => s
  | some (i, v) =>
    let s1 := { s with pst := { s.pst with vals := tabSet pstZero s.pst.vals i v, busy := none, lost := s.pst.lost.filter (· != i) } }
    let s2 := (((s1.showPst i v).countPst i).inc fPst_COMMITS).setFld fPst_LAST_IDX i
    let left := s2.pst.queue.dropWhile fun e => s2.flag (fPcnt_LIMIT e.1)
    (({ s2 with pst := { s2.pst with busy := left.head?, queue := left.tail } }).setFlag fPst_BUSY left.head?.isSome).writesDone
      (1 + s2.pst.queue.length - left.length)

/-- Every commit in progress or waiting completes. -/
def State.commitAll (s : State) : Nat → State
  | 0 => s
  | fuel + 1 => if s.pst.busy.isSome then s.commitDone.commitAll fuel else s

/-- PERSISTENT_COMMIT_DONE. -/
def execPersistentCommitDone (s : State) : Host.Outcome State Fault Refusal := .next s.commitDone

/-- Power is lost: a commit in progress leaves the old value or the new one (R446), which is free; those that wait are lost. No write
that has completed is among them (R9). -/
def State.commitLost (s : State) : State :=
  let lost := s.pst.queue.filter fun e => decide (15 ≤ e.1) && decide (e.1 < 20)
  let s1 := lost.foldl (fun t e => t.showPst e.1 (t.pstVal e.1)) { s with pst := { s.pst with queue := [], waits := [] } }
  match s1.pst.busy with
  | none => s1
  | some (i, _) =>
    if Config.outcome s1.fresh then s1.draw.2.commitDone
    else
      let s2 := ({ s1.draw.2 with pst := { s1.pst with busy := none } }).setFlag fPst_BUSY false
      if 15 ≤ i ∧ i < 20 then s2.showPst i (s2.pstVal i) else s2

/-- Values at manufacture of indices 0 to 3 (R449). -/
def pstMade (i : Nat) : Nat := match i with | 0 => 0xFFFF | 1 => 1800 | _ => 0

/-- A register lost both copies (R449): recorded, its value at manufacture or none. -/
def State.pstLost (s : State) (i : Nat) : State :=
  let s1 := (((s.setFlag fPst_LOST true).setFld fPst_LOST_IDX i).event logWarn .persistLost (BitVec.ofNat 64 i) 0 [])
  let s2 := { s1 with pst := { s1.pst with vals := tabSet pstZero s1.pst.vals i (pstMade i), lost := s1.pst.lost ++ [i] } }
  if 7 ≤ i ∧ i < 15 then s2.modStk (i - 7) fun x => { x with recLanes := [], recRows := [] }
  else if i = 4 then s2.setCell fBoot_STAGE.key (BitVec.ofNat 64 (putBits (s2.cell fBoot_STAGE.key).toNat 0 24 0xF0))
  else if i < 15 then s2.showPst i (pstMade i)
  else s2

/-- A write counter lost both copies: taken as 90,000 (R449). -/
def State.cntLost (s : State) (i : Nat) : State :=
  ((s.setFld (fPcnt i) 90000).setFlag (fPcnt_NEAR i) true).setFlag fPst_NEAR_ANY true

/-- The store read at BS0: a bad copy rewritten from the other, a lost register, a lost write counter (`lost` 32 and above). -/
def State.pstRead (s : State) (bad lost : List Nat) : State :=
  let s1 := bad.foldl (fun t _ => t.addSat fPst_STORE_CE 1) s
  lost.foldl (fun t i => if i < 22 then t.pstLost i else if 32 ≤ i ∧ i < 54 then t.cntLost (i - 32) else t) s1

end Sys2Proof.Machine
end

