-- ==== Sys2Proof/Machine/Reset.lean ====
section
/-! DEFINITION. What a cold start, a warm reset and an exit from Retention leave of the machine (R12, R180, R269, R367, R369, R380,
R396, R431, R439). -/

namespace Sys2Proof.Machine

/-- The kinds of reset. -/
inductive RKind where
  | cold | warm | ret
  deriving DecidableEq, Repr

/-- Pages held in the always-on island, which an exit from Retention keeps (R380). -/
def aonPage (p : Nat) : Bool := p == 0x001 || p == 0x018 || p == 0x020

/-- The bits of a cell that a reset keeps (R439). -/
def keepMask (k : RKind) (c : Nat) : Nat :=
  cellMask (c / 512) (c % 512) fun f =>
    f.keep == .always || (k != .cold && f.keep == .warm) || (k == .ret && aonPage (c / 512))

/-- Register cells after a reset. -/
def resetRegs (k : RKind) (regs : List (Nat × W64)) : List (Nat × W64) :=
  (regs.map fun e =>
    let m := BitVec.ofNat 64 (keepMask k e.1)
    (e.1, (regDefault e.1 &&& ~~~m) ||| (e.2 &&& m))).filter fun e => decide (e.2 ≠ regDefault e.1)

/-- BAR2 after a reset: a cold start clears it; otherwise the route table, the fault log and the LEND windows stay (R266, R269, R431). -/
def State.resetBar (s : State) (k : RKind) : List (Nat × Byte) :=
  if k = .cold then []
  else s.bar2.filter fun e =>
    (decide (0x300000 ≤ e.1) && decide (e.1 < 0x340000)) || decide (0x600000 ≤ e.1) ||
      (decide (e.1 < 0x80000) && (s.window (e.1 / 32)).lend)

/-- A stack after a warm reset: lanes, spare rows and repairs stay; engines' work is gone; a repair in progress is queued again. -/
def StackSt.warm (x : StackSt) : StackSt :=
  let back := x.cur.toList
  { x with tempFails := 0, stopSaid := false, comb := [], copyProd := 0, copyNext := 0, copies := [], due := RingDue.none, cur := none,
           laneQ := back.filter (fun r => match r with | .lane _ _ => true | _ => false) ++ x.laneQ,
           rowQ := back.filter (fun r => match r with | .row _ _ _ => true | _ => false) ++ x.rowQ }

/-- A stack after a cold start: only the repair record stays (R163). -/
def StackSt.cold (x : StackSt) : StackSt := { StackSt.empty with recLanes := x.recLanes, recRows := x.recRows }

/-- Pseudo-channel states carried over a warm reset: FAILED and ERASURE stay; a paused one is as its lanes say. -/
def State.keepPcs (s old : State) (n : Nat) : State :=
  (List.range 64).foldl (fun t p =>
    match old.pcState n p with
    | 0 => t
    | 2 => if (old.badLanes n p).isEmpty then t else t.setPcState n p 1
    | v => t.setPcState n p v) s

/-- The stacks after a reset. -/
def State.resetStacks (s old : State) (k : RKind) : State :=
  let s1 := { s with stks := tabMap stkDefault (if k = .cold then StackSt.cold else StackSt.warm) s.stks }
  if k = .cold then s1
  else (List.range 8).foldl (fun t n =>
    ((t.keepPcs old n).setFld (fProt_SPARE_USED n) (old.fld (fProt_SPARE_USED n))).syncQueue n) s1

/-- Memory marks after a reset: the contents and their errors stay, caches and the host's copies do not. -/
def MemSt.afterReset (m : MemSt) (k : RKind) : MemSt :=
  if k = .cold then { poison := [], symErr := [], inner := [], dir := [], dirErr := [], injected := [], xfer := [], msc := [], bi := [], hostLines := [] }
  else { m with dir := [], dirErr := [], xfer := [], bi := [], hostLines := [] }

/-- Debug follows the fuses and the lifecycle: DISABLED, OPEN in every scope in MANUFACTURE, else LOCKED (R410, R415). -/
def State.closeDebug (s : State) : State :=
  let lc := s.fld fSec_LC
  let d := if lc = 3 ∨ s.flag fSec_DBG_FUSE then 2 else if lc = 0 then 1 else 0
  let s1 := (s.setFld fSec_DBG d).setFld fSec_SCOPE (if d = 1 then 7 else 0)
  { s1 with sec := { s1.sec with lifetime := false, halted := if d = 1 then s1.sec.halted else [], stepping := [],
                                   breaks := if d = 1 then s1.sec.breaks else [] } }

/-- The security controller after a reset: nonce and record parts gone; sessions stay only through Retention (R411, R415). -/
def State.resetSec (s : State) (k : RKind) : State :=
  let x := { s.sec with nonce := none, record := [], recBad := false, halted := [], stepping := [], breaks := [] }
  let s1 := { s with sec := if k = RKind.ret then x else { x with mctpSess := 0, doeSess := 0 } }
  (if k = RKind.ret then s1 else s1.setFld fSec_SESSIONS 0).closeDebug

/-- The package after a reset (R439); power and start state are the caller's. -/
def State.resetPackage (s : State) (k : RKind) : State :=
  let cold := k == .cold
  let s1 : State :=
    { s with regs := resetRegs k s.regs, latch := [], bar2 := s.resetBar k, dram := if cold then [] else s.dram,
             mem := s.mem.afterReset k,
             thr := { ctxs := [], launches := [], nextLaunch := 0, notices := [], inv := [] },
             logs := if cold then [] else s.logs,
             saf := { read := if cold then [] else s.saf.read, lastDone := false, targetHi := 0 },
             host := { HostSt.empty with tsBase := if cold then 0 else s.host.tsBase },
             mdl := { prot := [], regs := [], passes := [] },
             eng := { mat := [], ew := [], groves := [], solv := [], resid := if cold then [] else s.eng.resid }, bnd := BndSt.empty, fab := FabSt.empty,
             hz := HzSt.empty, can := CanSt.empty,
             snp := { SnapSt.empty with gens := s.snp.gens, partGen := s.snp.partGen, dirty := if cold then [] else s.snp.dirty,
                                        unagreed := if cold then none else s.snp.unagreed },
             pwr := { s.pwr with waking := [], hot := [] } }
  (((s1.resetStacks s k).resetSec k).syncWin).setFlag fPst_BUSY s1.pst.busy.isSome

/-- A snapshot that power or a reset cuts off leaves a partial generation (R344). -/
def State.cutOff (s : State) : State :=
  if s.snp.job.isSome then { s with snp := { s.snp with partGen := true } } else s

end Sys2Proof.Machine
end

