-- ==== Sys2Proof/Machine/Fuses.lean ====
section
/-! DEFINITION. Fuse operations and retirement (R405, R409, R417). -/

namespace Sys2Proof.Machine

/-- The fuses of an operation blown: the debug-disable fuse (KIND 2), the security-version counter to `v` (KIND 3), RETIRED (KIND
5). -/
def State.fuseBlow (s : State) (kind v : Nat) : State :=
  if kind = 2 then s.setFlag fSec_DBG_FUSE true
  else if kind = 3 then s.setFld fSec_SVN_FUSE v
  else s.setFld fSec_LC 3

/-- A part as it ships, right after its first cold start has been accepted (R5, Table 0.1). `State.reset` is an NBG-8M640-L with its
debug-disable fuse intact (assumption log 103). -/
def State.shipped : Part → State
  | .l blown => if blown then State.reset.setFlag fSec_DBG_FUSE true else State.reset
  | .ld => State.reset.setFld fSec_LC 1

/-- A fuse operation recorded in the persistent store before its first fuse is blown. -/
def State.fuseRecord (s : State) (kind v : Nat) : State := (s.persist 20 (kind + 8 * v)).setFlag fSec_FUSE_PEND true

/-- Its record cleared after its fuses verify. -/
def State.fuseClear (s : State) : State := (s.persist 20 0).setFlag fSec_FUSE_PEND false

/-- A retirement step noted in the store. -/
def State.retireStep (s : State) (n : Nat) : State := s.persist 21 n

/-- Steps 2 to 5 of Table 17.5: session and link keys zeroised and ports disabled; the UDS, the owner digest and the anchors gone;
every line of every stack zero; the snapshot store erased. -/
def State.retireActs (s : State) : State :=
  let s1 := (List.range 16).foldl (fun t p => (t.portDis p).setPort p Port.fresh) (s.retireStep 1)
  let s2 := (({ s1 with sec := { s1.sec with mctpSess := 0, doeSess := 0 } }).setFld fSec_SESSIONS 0).setFlag fCxl_IDE_SECURE false
  let s3 := ([0, 1, 2, 3].foldl (fun t k => t.showAnchor k 0) ((s2.retireStep 2).showOwner 0))
  let s4 := { s3 with sec := { s3.sec with udsGone := true },
                      pst := { s3.pst with vals := [15, 16, 17, 18, 19].foldl (fun t i => tabSet pstZero t i 0) s3.pst.vals } }
  let s5 := { s4.retireStep 3 with dram := [], mem := s4.mem.afterReset .cold }
  let s6 := ((s5.retireStep 4).modSnp fun x => { x with gens := [], unagreed := none, partGen := false }).setFlag fNand_FORMATTED false
  (((s6.setFld fSnap_GEN_COMMITTED 0).setFld fSnap_GEN_AGREED 0).syncStore.wear).retireStep 5

/-- A start that finds an operation recorded completes it before BS1. -/
def State.finishFuse (s : State) : State :=
  if s.flag fSec_FUSE_PEND then
    let r := (s.pstPending 20).getD (s.pstVal 20)
    let kind := r % 8
    let s1 := if kind = 2 ∨ kind = 3 ∨ kind = 5 then s.fuseBlow kind (r / 8) else s
    let s2 := if kind = 5 then s1.retireActs else s1
    s2.fuseClear.closeDebug
  else s

end Sys2Proof.Machine
end

