-- ==== Sys2Proof/Machine/StackOps.lean ====
section
/-! DEFINITION. Patrol scrub, repairs in service, interface errors, stack temperature (R157 to R165, R169, R171 to R173). -/

namespace Sys2Proof.Machine

/-- The package is entering Retention (Table 16.8): no scrub, no repair. -/
def State.retaining (s : State) : Bool := s.pwr.mode == .ret

/-! ### Patrol scrub (R157, R158) -/

/-- Lines of user capacity; the rest of a pass reads spare rows and controller state. -/
def userLines : Nat := stackBytes / 64

/-- A scrub read of a line whose codeword has suffered more symbol errors, with the inner code's report of the burst. A codeword found
uncorrectable is recorded, and rewritten with the poison pattern unless the home holds a newer value (R157); one that carries the
pattern already has been. -/
def State.scrubLine (s : State) (n line : Nat) (upset : List Nat) (inner : Nat) : State :=
  let s1 := (s.setSymErr line (s.symErr line ++ upset).eraseDups).setInner line (max (s.inner line) inner)
  match s1.readLine line with
  | (true, s2) => s2
  | (false, s2) =>
    if s.pcState n (offPc (keyOff (line * 64))) = 3 ∨ s.poisoned line then s2
    else
      let s3 := if keyOff (line * 64) / 64 < userLines then s2.event logFail .ueLine (BitVec.ofNat 64 (dpaOf (line * 64))) 0 [] else s2
      if (s.dir line).mod then s3 else (s3.setPoison line true).wordWritten line

/-- The end of a pass: its count, and the rows' counts of corrections start again (R162). -/
def State.scrubEnd (s : State) (n : Nat) : State :=
  let k := s.fresh
  (((s.draw.2.setFld (fScrub_POS n) 0).inc (fScrub_PASSES n)).setFld (fScrub_LAST_MS n) (Config.timed k).toNat).modStk n
    fun x => { x with rowCnt := [] }

/-- SCRUB_READ: the next line of the pass, in ascending stack offset, user capacity with the reserve first, then spare rows in use and
controller state (R158; the offsets of those are the model's, assumption log 8). A FAILED pseudo-channel's lines are passed over; a
paused one's wait; nothing is read while the stack is stopped, in Retention, or before training has set LINES. -/
def execScrubRead (st : Fin 8) (upset : List Nat) (inner : Fin 3) (s : State) : Host.Outcome State Fault Refusal :=
  let pos := s.fld (fScrub_POS st)
  let line := st.val * 2 ^ 31 + pos
  let lines := s.fld (fScrub_LINES st)
  .next (if s.flag (fMem_STOP st) ∨ s.retaining ∨ lines = 0 ∨ s.pcState st (offPc (pos * 64)) = 2 then s
  else
    let s1 := if s.pcState st (offPc (pos * 64)) ≠ 3 then s.scrubLine st line upset inner else s
    if lines ≤ pos + 1 then s1.scrubEnd st else s1.setFld (fScrub_POS st) (pos + 1))

/-! ### Repairs (R160 to R165) -/

/-- The pseudo-channel of a repair. -/
def Repair.pc : Repair → Nat
  | .lane p _ => p
  | .row p _ _ => p

/-- BUSY follows the repair in progress. -/
def State.setRepair (s : State) (n : Nat) (r : Option Repair) : State :=
  let s1 := s.modStk n fun x => { x with cur := r }
  (s1.setFlag (fProt_BUSY n) r.isSome).setFld (fProt_BUSY_PC n) (match r with | some x => x.pc | none => 0)

/-- The next repair of the queue that its pseudo-channel's state admits (Table 7.4): lanes before rows (R164). -/
def State.nextRepair (s : State) (n : Nat) : Option Repair :=
  match (s.stk n).laneQ.find? fun r => s.pcState n r.pc == 1 with
  | some r => some r
  | none => (s.stk n).rowQ.find? fun r => s.pcState n r.pc == 0

/-- REPAIR_START: the pseudo-channel of the first repair pauses. -/
def execRepairStart (st : Fin 8) (s : State) : Host.Outcome State Fault Refusal :=
  .next (if s.flag (fMem_STOP st) ∨ s.retaining ∨ (s.stk st).cur.isSome then s
  else match s.nextRepair st with
    | none => s
    | some r =>
      let s1 := s.modStk st fun x => { x with laneQ := x.laneQ.erase r, rowQ := x.rowQ.erase r }
      ((s1.syncQueue st).setRepair st (some r)).setPcState st r.pc 2)

/-- A repair record's entry as a number. -/
def Repair.code : Repair → Nat
  | .lane p l => 2 ^ 30 + p * 16 + l
  | .row p b r => rowKey p b r

/-- The repair record as it is committed to the persistent store: 32 bits an entry, lanes first. -/
def StackSt.record (x : StackSt) : Nat := (x.recLanes ++ x.recRows).foldl (fun v r => v * 2 ^ 32 + (r.code + 1)) 0

/-- A repair recorded: committed, with REC_ROWS and an event record (R163, Table 15.9). -/
def State.recordRepair (s : State) (n : Nat) (r : Repair) : State :=
  let s1 := s.modStk n fun x => match r with
    | .lane _ _ => { x with recLanes := x.recLanes ++ [r] }
    | .row _ _ _ => { x with recRows := x.recRows ++ [r] }
  let s2 := (s1.setFld (fProt_REC_ROWS n) (s1.stk n).recRows.length).persist (7 + n) (s1.stk n).record
  match r with
  | .lane p l => s2.event logInfo .repairDone (dramLoc n p 0 0 0) (BitVec.ofNat 64 l) []
  | .row p b w => s2.event logInfo .repairDone (dramLoc n p b w 0) 0 []

/-- A pseudo-channel leaves its pause: NORMAL, or ERASURE or FAILED for lanes marked bad during it (Table 7.4). -/
def State.endPause (s : State) (n p : Nat) (rowRepair : Bool) : State :=
  match s.badLanes n p with
  | [] => s.setPcState n p 0
  | [l] => if rowRepair && s.spareFree n p then (s.setPcState n p 1).queueLane n p l else s.failPc n p
  | _ => s.failPc n p

/-- The spare lane takes a logical lane's place. -/
def State.switchLane (s : State) (n p l : Nat) : State :=
  let s1 := s.modStk n fun x => { x with laneMap := tabSet laneIdent x.laneMap (p * 16 + l) 9,
                                          laneBad := x.laneBad.filter (· != p * 16 + l),
                                          laneCnt := tabSet cntZero x.laneCnt (p * 16 + l) 0 }
  s1.setFld (fProt_SPARE_USED n) (s1.fld (fProt_SPARE_USED n) ||| 2 ^ p)

/-- LANE_REPAIR_COMPLETE: the spare lane was switched in and retrained, or its retraining failed. Requests that waited go on. -/
def execLaneRepairComplete (st : Fin 8) (ok : Bool) (s : State) : Host.Outcome State Fault Refusal :=
  .next (match (s.stk st).cur with
    | some (.lane p l) =>
      let s1 := s.setRepair st none
      if ok then (((s1.switchLane st p l).recordRepair st (.lane p l)).endPause st p false).releaseWaiting
      else ((s1.setFld (fProt_SPARE_USED st) (s1.fld (fProt_SPARE_USED st) ||| 2 ^ p)).failPc st p).releaseWaiting
    | _ => s)

/-- A line of a row read and written to the spare row: corrected, or with the poison pattern (R162). The read counts as any does
(R154, R159, R176). -/
def State.copyRowLine (s : State) (line : Nat) : State :=
  match s.readLine line with
  | (true, s1) => s1.wordWritten line
  | (false, s1) => (s1.setPoison line true).wordWritten line

/-- ROW_REPAIR_COMPLETE: the row's 16 lines lie in a spare row of the bank, which the remap table names. -/
def execRowRepairComplete (st : Fin 8) (s : State) : Host.Outcome State Fault Refusal :=
  .next (match (s.stk st).cur with
    | some (.row p b r) =>
      let s1 := ((List.range 16).foldl (fun t c => t.copyRowLine (st.val * 2 ^ 31 + offOf p b r c / 64)) s).setRepair st none
      let s2 := s1.modStk st fun x =>
        let used := tabGet cntZero x.spareUse (p * 64 + b)
        { x with remap := tabSet cntZero x.remap (rowKey p b r) (used + 1), spareUse := tabSet cntZero x.spareUse (p * 64 + b) (used + 1),
                 rowCnt := tabSet cntZero x.rowCnt (rowKey p b r) 0 }
      ((s2.recordRepair st (.row p b r)).endPause st p true).releaseWaiting
    | _ => s)

/-- The stacks are powered and their interfaces trained: from BS4 of a start on. -/
def State.memUp (s : State) : Bool := s.pwr.mode == .run || (s.pwr.mode == .start && decide (5 ≤ s.fld fBoot_STAGE))

/-! ### Interface and bridge CRC (R169) -/

/-- INTERFACE_CRC_FAIL: a transfer of a line is replayed; above three replays are the count of one that failed them all: it is
consumed as an uncorrectable line by its next reader, and recorded (class 0x0E). -/
def execInterfaceCrcFail (link : CrcLink) (line : Nat) (replays : Nat) (s : State) : Host.Outcome State Fault Refusal :=
  let n := min replays 3
  let (s1, page) := match link with
    | .stackIf st => (s.addSat (fMem_IF_RETRY st) n, 0x0C0 + 8 * st.val)
    | .bridge d => (s.addSat (fBridge_BRG_RETRY d) n, 0x008 + d.val)
  .next (if !s.memUp then s else if replays ≤ 3 then s1
  else
    ({ s1 with mem := { s1.mem with xfer := if s1.mem.xfer.contains line then s1.mem.xfer else s1.mem.xfer ++ [line] } }).report
      { cls := 0x0E, react := 1, page := page, loc0 := BitVec.ofNat 64 (keyOff (line * 64)),
        evLoc := some (BitVec.ofNat 64 (dpaOf (line * 64))) } (some (logFail, .ueLine)))

/-! ### Temperature (R171 to R173) -/

/-- TEMP in 0.125 °C as an integer. -/
def tempInt (t : BitVec 12) : Int := t.toInt

/-- The throttle step after a sample (R171), temperatures in 0.125 °C. -/
def throttleStep (n : Nat) (t t1 : Int) : Nat :=
  let target := if t < t1 then 0 else min 7 (1 + ((t - t1) / 8).toNat)
  if n < target then target
  else
    match ((List.range (n + 1)).reverse.find? fun m => decide (target ≤ m) && (decide (m = 0) || decide (t1 + 8 * m - 16 ≤ t))) with
    | some m => m
    | none => target

/-- THERM_ALERT_N is asserted (R173). -/
def State.thermAlert (s : State) : Bool :=
  (List.range 8).any fun n => s.fld (fMem_STEP n) != 0 || s.flag (fMem_STOP n)

/-- STOP and the step after a temperature (R171, R172). -/
def State.applyTemp (s : State) (n : Nat) (t : Int) : State :=
  let t1 : Int := 8 * (s.fld (fMem_T1 n) : Int)
  let t2 : Int := 8 * (s.fld (fMem_T2 n) : Int)
  let s1 := s.setFld (fMem_STEP n) (throttleStep (s.fld (fMem_STEP n)) t t1)
  if t2 ≤ t then s1.setFlag (fMem_STOP n) true
  else if t < t2 - 16 ∧ s.flag (fMem_STOP n) then
    ((s1.setFlag (fMem_STOP n) false).modStk n fun x => { x with stopSaid := false }).releaseWaiting
  else s1

/-- PEAK follows the highest temperature. -/
def State.setTemp (s : State) (n : Nat) (t : BitVec 12) : State :=
  let s1 := s.setFld (fMem_TEMP n) t.toNat
  if tempInt (BitVec.ofNat 12 (s.fld (fMem_PEAK n))) < tempInt t then s1.setFld (fMem_PEAK n) t.toNat else s1

/-- TEMP_SAMPLE, while the memory controllers are powered: a stack that reports none three times in a row is treated as at T2, and recorded (class 0x40). -/
def execTempSample (st : Fin 8) (temp : Option (BitVec 12)) (s : State) : Host.Outcome State Fault Refusal :=
  .next (if !s.memUp then s else match temp with
    | some t => ((s.setTemp st t).modStk st fun x => { x with tempFails := 0 }).applyTemp st (tempInt t)
    | none =>
      let n := (s.stk st).tempFails + 1
      let s1 := s.modStk st fun x => { x with tempFails := n }
      if n < 3 then s1
      else
        let s2 := s1.applyTemp st (8 * (s1.fld (fMem_T2 st) : Int))
        if n = 3 then s2.report { cls := 0x40, react := 0, page := 0x0C0 + 8 * st.val } none else s2)

/-- THERMAL_STOP_TIMEOUT: STOP has stayed set for 1 s; recorded once (class 0x41). -/
def execThermalStopTimeout (st : Fin 8) (s : State) : Host.Outcome State Fault Refusal :=
  .next (if s.flag (fMem_STOP st) ∧ !(s.stk st).stopSaid then
    (s.modStk st fun x => { x with stopSaid := true }).report { cls := 0x41, react := 0, page := 0x0C0 + 8 * st.val }
      (some (logFail, .thermalStop))
  else s)

/-- CLR of PEAK: PEAK takes TEMP. -/
def State.tempPeakClr (s : State) (n : Nat) : State := s.setFld (fMem_PEAK n) (s.fld (fMem_TEMP n))

/-- CLR of COMB_PEAK. -/
def State.combPeakClr (s : State) (n : Nat) : State := s.setFld (fMsc_COMB_PEAK n) (s.fld (fMsc_COMB_USE n))

end Sys2Proof.Machine
end

