-- ==== Sys2Proof/Machine/Boot.lean ====
section
/-! DEFINITION. Starts: boot stages, image verification, the manifest scan, grove mapping, failures (R344, R352, R390 to R396, R402 to
R404, R429, R449). -/

namespace Sys2Proof.Machine

/-! ### Images (R402 to R405) -/

/-- The image that a slot not written since manufacture holds (assumption log 21). -/
def imgShipped (k : Nat) : Image :=
  { comp := k % 8, lc := 7, svn := 0, ownSig := false, reservedZero := true, digest := List.replicate 32 0, digestOk := true,
    noriskysOk := true, ownerKeyDigest := [], ownerOk := true }

/-- The image of a component in a slot. -/
def State.image (s : State) (slot comp : Nat) : Image := tabGet imgShipped s.sec.images (slot * 8 + comp)

/-- Components 2 to 7. -/
def imgComps : List Nat := [2, 3, 4, 5, 6, 7]

/-- Checks 1 and 2 of R403: reserved fields, position, the LC bit of the lifecycle. -/
def State.imageForm (s : State) (x : Image) (comp : Nat) : Bool :=
  let lc := s.fld fSec_LC
  x.reservedZero && x.comp == comp && bitAt x.lc (if lc = 0 then 2 else if lc = 1 then 0 else if lc = 2 then 1 else 8)

/-- Checks 1, 2, 4 and 5 (R405). -/
def State.imageValid (s : State) (x : Image) (comp : Nat) : Bool := s.imageForm x comp && x.digestOk && x.noriskysOk

/-- Every check of R403. -/
def State.imageOk (s : State) (x : Image) (comp : Nat) : Bool :=
  s.imageValid x comp && decide (s.fld fSec_SVN_FUSE ≤ x.svn) &&
    (!(s.flag fSec_OWNER_SET && s.flag fSec_OWN_REQ) || (x.ownSig && x.ownerKeyDigest == s.sec.owner && x.ownerOk))

/-- A slot boots as a whole. -/
def State.slotOk (s : State) (slot : Nat) : Bool := imgComps.all fun c => s.imageOk (s.image slot c) c

/-- Security versions of the valid images of a slot. -/
def State.slotSvns (s : State) (slot : Nat) : List Nat :=
  imgComps.filterMap fun c => if s.imageValid (s.image slot c) c then some (s.image slot c).svn else none

/-- The lowest of a list, 0 for none. -/
def lowest : List Nat → Nat
  | [] => 0
  | x :: xs => xs.foldl min x

/-- SVN_SLOT0 and SVN_SLOT1 follow the slots (Table 17.11). -/
def State.syncSlots (s : State) : State :=
  (s.setFld fSec_SVN_SLOT0 (lowest (s.slotSvns 0))).setFld fSec_SVN_SLOT1 (lowest (s.slotSvns 1))

/-- FWSET of the components that run (R404). -/
def State.fwsetOf (s : State) : Nat :=
  leNat ((sha3_256 (imgComps.flatMap fun c => tabGet (fun _ => List.replicate 32 0) s.sec.measured c)).take 8)

/-- FWSET follows. -/
def State.syncFwset (s : State) : State := s.setFld fMode_FWSET s.fwsetOf

/-- Unmeasured components. -/
def digNone (_ : Nat) : List Byte := []

/-- The images of the slot run: measured, SVN_RUN, FWSET. -/
def State.runSlot (s : State) : State :=
  let slot := s.fld fBoot_SLOT
  let s1 := { s with sec := { s.sec with measured := imgComps.foldl (fun t c => tabSet digNone t c (s.image slot c).digest) [] } }
  ((s1.setFld fSec_SVN_RUN (s.image slot 2).svn).syncSlots).syncFwset

/-! ### Stages (Table 16.10) -/

/-- The alternative that the repeated start uses, as the bits of ALT_USED (R392): the failed stage's, and those BOOT_OPT selects. -/
def State.altBits (s : State) (k : RKind) : Nat :=
  let f := if s.fld fBoot_FAIL_COUNT = 0 then 0xF else s.fld fBoot_FAIL_STAGE
  let b1 := if f = 1 ∧ k ≠ .ret then 1 else 0
  let b2 := if f = 2 ∧ k = .cold then 2 else 0
  let b4 := if f = 4 ∨ s.flag fBoot_CONSERV then 4 else 0
  let b5 := if (f = 5 ∨ s.flag fBoot_SHORT_TEST) ∧ k = .cold then 8 else 0
  b1 + b2 + b4 + b5

/-- The slot of a start: the one that the failed BS1 or BS2 did not use, else SLOT_PREF. -/
def State.startSlot (s : State) : Nat :=
  let f := s.fld fBoot_FAIL_STAGE
  if s.fld fBoot_FAIL_COUNT ≠ 0 ∧ (f = 1 ∨ f = 2) then 1 - s.fld fBoot_SLOT else s.fld fBoot_SLOT_PREF

/-- CLR_FAIL acts at the next start (R394). -/
def State.takeClr (s : State) : State :=
  if s.pwr.clrFail then
    let s1 := ((s.setFld fBoot_FAIL_COUNT 0).setFld fBoot_FAIL_STAGE 0xF).setFlag fBoot_SERVICE_ONLY false
    { s1 with pwr := { s1.pwr with clrFail := false } }
  else s

/-- The stage in progress. At BS3 CAP_W takes CAP_DEF (R382); once it has passed, the package counts as in Idle (R377). At BS9 the start has ended (R391, R378): the record is committed with
FAIL_COUNT 0, an alternative used has its Warning record, and the package is in Idle. -/
def State.enterStage (s : State) (n : Nat) : State :=
  let s1 := s.setFld fBoot_STAGE n
  if n = 3 then s1.setFld fPwr_CAP_W (s1.fld fPwr_CAP_DEF)
  else if n = 4 then s1.setFld fPwr_STATE 3
  else if n = 9 then
    let s2 := s1.setFld fBoot_FAIL_COUNT 0
    let s3 := { s2 with pwr := { s2.pwr with mode := .run } }
    let s4 := s3.persist 4 s3.bootRecord
    if s4.fld fBoot_ALT_USED = 0 then s4
    else s4.event logWarn .bootAlt (BitVec.ofNat 64 (s4.fld fBoot_FAIL_STAGE)) 0 []
  else s1

/-- Pages of the units that Idle gates (R379). -/
def gatedPages : List Nat :=
  ((List.range 256).map (0x100 + ·)) ++ ((List.range 64).map (0x080 + ·)) ++ ((List.range 8).map fun n => 0x0C4 + 8 * n)

/-- Idle entered: groves written back, scratch lost; groves, solver engines and near cores gated (R379). -/
def State.goIdle (s : State) : State :=
  let s1 := gatedPages.foldl (fun t p => t.setFlag (fGated p) true) s
  let s2 := { s1 with eng := { s1.eng with groves := tabMap groveDefault (fun g => { g with scratch := [], viewLines := [] }) s1.eng.groves } }
  s2.setFld fPwr_STATE 3

/-- An online activation has stopped the management controller (R460). -/
def State.mgmtRestarting (s : State) : Bool := match s.host.bg with | some (.activate _) => true | _ => false

/-- A start begins: resets, the slot and the alternatives chosen, the first stage in progress. A cold start stops the management
firmware until BS2; a warm one keeps it (Table 16.10). -/
def State.startAt (s : State) (k : RKind) : State :=
  let s1 := (s.takeClr).resetPackage k
  let s2 := (s1.setFld fBoot_ALT_USED (s1.altBits k)).setFld fBoot_SLOT (if k = .ret ∧ !s1.pwr.imgChanged then s1.fld fBoot_SLOT else s1.startSlot)
  let first := if k = RKind.ret then (if s2.pwr.imgChanged then 1 else 3) else 0
  let s3 : State :=
    { s2 with pwr := { s2.pwr with mode := .start, warm := k != .cold, wait7 := false, perstRet := false, imgChanged := false, fromRet := k == .ret,
                                   mctp := (s2.pwr.mctp || s.mgmtRestarting) && k != .cold } }
  let s4 := if k = RKind.ret then s3.syncFwset else s3
  let s5 := if first = 1 then ({ s4 with sec := { s4.sec with mctpSess := 0, doeSess := 0 } }).setFld fSec_SESSIONS 0 else s4
  s5.enterStage first

/-- BS0: the persistent store read, a recorded fuse operation completed, PKG_ID applied (R409, R417, R445, R449). -/
def State.bs0 (s : State) (e : BootEnv) : State :=
  let s1 := (s.pstRead e.bad e.lost).finishFuse
  s1.setFld fPkg_PKG_ID_APPLIED (s1.fld fPkg_PKG_ID)

/-- BS1 fails when a register of indices 15 to 21 is lost, or an image fails (R403, R449). -/
def State.bs1Ok (s : State) : Bool := !(s.pst.lost.any fun i => decide (15 ≤ i)) && s.slotOk (s.fld fBoot_SLOT)

/-- BS4 of a stack on a cold start (R163): rows made permanent, lanes trained afresh; a lane that fails is replaced by the spare. -/
def State.bs4Stack (s : State) (e : BootEnv) (n : Nat) : State :=
  let mine := e.badLanes.filter fun x => decide (x / 1024 = n)
  let bad := fun (p l : Nat) => mine.contains ((n * 64 + p) * 16 + l)
  let s1 := s.modStk n fun x =>
    { x with recRows := [], recLanes := x.recLanes.filter (fun r => match r with | .lane p l => bad p l | .row _ _ _ => false) }
  let s2 := s1.setFld (fProt_REC_ROWS n) 0
  (List.range 64).foldl (fun t p =>
    let ls := (List.range 10).filter fun l => bad p l
    match ls with
    | [] => t
    | l :: rest =>
      let t1 := t.setFld (fProt_SPARE_USED n) (t.fld (fProt_SPARE_USED n) ||| 2 ^ p)
      -- the spare itself (lane 9) fails: not free; one other lane: the spare replaces it; more: the pseudo-channel has bad lanes
      let t2 := if l = 9 then t1 else t1.modStk n fun x => { x with laneMap := tabSet laneIdent x.laneMap (p * 16 + l) 9 }
      if rest.isEmpty ∨ l = 9 then t2 else t2.failPc n p) s2

/-- Pseudo-channels of a stack that BS4 left FAILED. -/
def State.failedPcs (s : State) (n : Nat) : Nat := ((List.range 64).filter fun p => s.pcState n p == 3).length

/-- BS4: training, the repair record, the snapshot reserve (R354, R392, Tables 7.9, 7.11, 14.11); whether it passes. -/
def State.bs4 (s : State) (e : BootEnv) : Bool × State :=
  let s1 := if s.pwr.warm then s else (List.range 8).foldl (fun t n => t.bs4Stack e n) s
  let s2 := e.failedPcs.foldl (fun t x => if x < 512 then t.setPcState (x / 64) (x % 64) 3 else t) s1
  let failed := (List.range 512).filter fun x => s2.pcState (x / 64) (x % 64) == 3
  let s3 := { s2 with pwr := { s2.pwr with failedPcs := failed } }.setFld fSnap_RSV_APPLIED (s2.fld fSnap_RSV_GIB)
  let s4 := s3.setFld fCxl_HDM_SIZE s3.hdmBytes
  let s5 : State := (List.range 8).foldl (fun (t : State) n =>
    let spare := ((t.stk n).spareUse.map (·.2)).foldl (· + ·) 0
    (t.setFld (fScrub_LINES n) (userLines + 16 * spare + (Config.unstated t.fresh).toNat % 2 ^ 20)).draw.2) s4
  ((List.range 8).all fun n => decide (s5.failedPcs n ≤ 8), s5)

/-- R344: the generation registers from the manifests that verify; a partial generation is freed. -/
def State.scanManifests (s : State) : State :=
  let good := if s.flag fNand_FORMATTED then s.snp.gens.filter fun m => !s.sec.udsGone && m.sig == Config.mac keyIdentity m.bytes else []
  let s1 := if s.snp.partGen then
      ({ s with snp := { s.snp with partGen := false } }.syncStore).setFld fSnap_CODE 0x16
    else s
  match good.reverse with
  | [] => (((s1.setFld fSnap_GEN_COMMITTED 0).setFld fSnap_GEN_AGREED 0).setFld fSnap_GEN_NEXT 1).setFld fSnap_SERIES 0
  | m :: rest =>
    let agreed := match rest with | x :: _ => x.gen | [] => m.gen
    (((s1.setFld fSnap_GEN_COMMITTED m.gen).setFld fSnap_GEN_AGREED agreed).setFld fSnap_GEN_NEXT (m.gen + 1)).setFld fSnap_SERIES
      m.series.toNat

/-- BS6: ports with EN set begin training, manifests are scanned. -/
def State.bs6 (s : State) : State :=
  ((List.range 16).foldl (fun t p => if t.flag (fPort_EN p) then t.portEn p else t) s).scanManifests

/-- BS7: the link as trained (R352); CXL.cache runs unless IDE is required (R370). -/
def State.bs7 (s : State) (e : BootEnv) : Bool × State :=
  if (e.rate = 1 ∨ e.rate = 2) ∧ (e.width = 8 ∨ e.width = 16) then
    (true, (((s.setFld fCxl_RATE e.rate).setFld fCxl_WIDTH e.width).setFlag fCxl_LO_FLIT e.loFlit).setFlag fCxl_CACHE_EN (!s.flag fCxl_IDE_POL))
  else (false, s)

/-- Groves that pass the test of a die, of 132 (R393). -/
def grovesPass (failed : List Nat) : Nat := ((List.range 132).filter fun i => !failed.contains i).length

/-- Spares that are mapped: places among the first 128 that failed. -/
def sparesMapped (failed : List Nat) : Nat := ((List.range 128).filter fun i => failed.contains i).length

/-- BS8: on a warm start only the mapped groves are tested, and none may fail (R393). -/
def State.bs8 (s : State) (e : BootEnv) : Bool × State :=
  if s.pwr.warm then (e.failed0.isEmpty && e.failed1.isEmpty, s)
  else if grovesPass e.failed0 < 128 ∨ grovesPass e.failed1 < 128 then (false, s)
  else (true, (s.setFld fBoot_SPARES0 (sparesMapped e.failed0)).setFld fBoot_SPARES1 (sparesMapped e.failed1))

/-- A stage's action ends well: the next stage begins, or the stage fails after all, or service-only mode begins after BS2. -/
def State.stageEnd (s : State) (e : BootEnv) : State :=
  match s.fld fBoot_STAGE with
  | 0 => (s.bs0 e).enterStage (if (s.bs0 e).fld fSec_LC = 3 then 2 else 1)
  | 1 => if s.bs1Ok then s.runSlot.enterStage (if s.pwr.fromRet then 3 else 2) else s.bootFail 2
  | 2 =>
    let s1 := { s with pwr := { s.pwr with mctp := true } }
    if s1.flag fBoot_SERVICE_ONLY ∨ s1.fld fSec_LC = 3 then
      { s1 with pwr := { s1.pwr with mode := .service } }.setFlag fBoot_SERVICE_ONLY true
    else s1.enterStage 3
  | 3 => s.enterStage 4
  | 4 => if (s.bs4 e).1 then (s.bs4 e).2.enterStage 5 else (s.bs4 e).2.bootFail 4
  | 5 => s.enterStage 6
  | 6 => if s.bs6.pwr.perst then { s.bs6 with pwr := { s.bs6.pwr with wait7 := true } } else s.bs6.enterStage 7
  | 7 => if (s.bs7 e).1 then (s.bs7 e).2.enterStage 8 else s.bootFail 7
  | 8 => if (s.bs8 e).1 then ((s.bs8 e).2.enterStage 9).goIdle else s.bootFail 8
  | _ => s

/-- BOOT_STAGE: the action of the stage in progress ends; nothing outside a start, or while BS7 waits for PERST_N. -/
def execBootStage (outcome : BootOutcome) (s : State) : Host.Outcome State Fault Refusal :=
  .next (if s.pwr.mode ≠ .start ∨ s.pwr.wait7 then s
  else match outcome with
    | .passed e => s.stageEnd e
    | .failed c => s.bootFail c)

/-- BOOT_STAGE_TIMEOUT: the stage in progress exceeds its limit. -/
def execBootStageTimeout (s : State) : Host.Outcome State Fault Refusal :=
  .next (if s.pwr.mode ≠ .start ∨ s.pwr.wait7 then s else s.bootFail 1)

/-- BOOT_RESTART: 1 s after the failure of a stage, at BS0 as a cold start. -/
def execBootRestart (s : State) : Host.Outcome State Fault Refusal :=
  .next (if s.pwr.mode = .failed then s.cutOff.startAt .cold else s)

/-- CLR_FAIL written by the board management controller (R394); from another agent the register takes it alike. -/
def State.clrFailWrite (s : State) : State := { s with pwr := { s.pwr with clrFail := true } }

/-! ### Power (R378, R380, R385, R388, R396) -/

/-- Off: nothing is powered; the persistent store and the fuses keep their values, the boot progress record its committed one (R395). -/
def State.powerOff (s : State) : State :=
  let s1 := (s.cutOff.commitLost).resetPackage .cold
  let rec_ := if (tabFind s1.pst.vals 4).isSome then s1.pstVal 4 else 0xF0
  let s2 := s1.setCell fBoot_STAGE.key (BitVec.ofNat 64 (putBits (s1.cell fBoot_STAGE.key).toNat 0 24 rec_))
  let s3 := (s2.setFld fBoot_STAGE 0).setFld fPkg_PKG_ID_APPLIED 0xFFFF
  { s3 with pwr := { s3.pwr with mode := .off, warm := false, wait7 := false, perstRet := false, clrFail := false, mctp := false, imgChanged := false } }

/-- PWR_GOOD_ASSERT. -/
def execPwrGoodAssert (s : State) : Host.Outcome State Fault Refusal := .next { s with pwr := { s.pwr with pwrGood := true } }

/-- COLD_START: from Off, with PWR_GOOD asserted and the input in range (R466). -/
def execColdStart (s : State) : Host.Outcome State Fault Refusal :=
  .next (if s.pwr.mode = .off ∧ s.pwr.pwrGood ∧ !s.pwr.protOff ∧ s.flag fPwr_IN_RANGE then s.startAt .cold else s)

/-- PWR_GOOD_DEASSERT: Off; it also ends the wait that a protective power-down leaves (R385). -/
def execPwrGoodDeassert (s : State) : Host.Outcome State Fault Refusal :=
  let s1 := { s with pwr := { s.pwr with pwrGood := false, protOff := false } }
  .next (if s1.pwr.mode = .off then s1 else s1.powerOff)

/-- PERST_N_ASSERT: after BS9 the job ends and the package is held in warm reset; at BS7 or BS8 the start goes back to BS7; in
Retention the exit comes with the deassertion; otherwise BS7 is only delayed. -/
def execPerstAssert (s : State) : Host.Outcome State Fault Refusal :=
  let s1 := { s with pwr := { s.pwr with perst := true } }
  .next (match s1.pwr.mode with
  | .run =>
    let s2 := (s1.jobEnd none).resetPackage .warm
    { s2 with pwr := { s2.pwr with mode := .held } }
  | .ret => { s1 with pwr := { s1.pwr with perstRet := true } }
  | .start =>
    if s1.fld fBoot_STAGE = 7 ∨ s1.fld fBoot_STAGE = 8 then
      let s2 := (s1.setFld fCxl_RATE 0).setFld fCxl_WIDTH 0
      ({ s2 with pwr := { s2.pwr with wait7 := true } }).setFld fBoot_STAGE 7
    else s1
  | _ => s1)

/-- PERST_N_DEASSERT. -/
def execPerstDeassert (s : State) : Host.Outcome State Fault Refusal :=
  let s1 := { s with pwr := { s.pwr with perst := false } }
  .next (match s1.pwr.mode with
  | .held => s1.startAt .warm
  | .ret => if s1.pwr.perstRet then s1.startAt .ret else s1
  | .start => if s1.pwr.wait7 then { s1 with pwr := { s1.pwr with wait7 := false } }.enterStage 7 else s1
  | _ => s1)

/-- RET_REQ (R380, R415): refused with a job present; otherwise ports disabled, the link down, the debug session and the nonce ended,
units gated, stacks in self-refresh. -/
def State.retReq (s : State) : State :=
  if s.pwr.mode ≠ .run then s
  else if s.flag fPkg_JOB_PRESENT then s.setFlag fPwr_RET_REFUSED true
  else
    let s1 := (List.range 16).foldl (fun t p => t.portDis p) s
    let s2 := (((s1.setFld fCxl_RATE 0).setFld fCxl_WIDTH 0).setFlag fCxl_IDE_SECURE false).loseHost
    let s3 := ({ s2 with sec := { s2.sec with nonce := none, record := [], recBad := false } }).closeDebug
    let s4 := s3.goIdle.setFld fPwr_STATE 4
    { s4 with pwr := { s4.pwr with mode := .ret, perstRet := false, imgChanged := false } }

/-- RET_EXIT: the warm path from BS3. -/
def State.retExit (s : State) : State := if s.pwr.mode = .ret then s.startAt .ret else s

/-- IDLE_ENTRY (R379): from Active, no work for a gated unit, and Idle is entered automatically (Table 16.4). -/
def execIdleEntry (s : State) : Host.Outcome State Fault Refusal :=
  let threads := s.liveCtxs.any fun e => decide (e.1 < 2 * 65536)
  let launches := s.thr.launches.any fun l => l.kind != .control && !l.toPlace.isEmpty
  let work := s.eng.mat.any (fun e => !e.2.queue.isEmpty || e.2.drainOut) || s.eng.solv.any (fun e => e.2.job.isSome || e.2.next != e.2.prod) ||
    s.stks.any fun e => !e.2.copies.isEmpty || e.2.copyNext != e.2.copyProd
  .next (if s.pwr.mode ≠ .run ∨ !s.flag fPwr_IDLE_EN ∨ s.fld fPwr_STATE ≠ 1 ∨ threads ∨ launches ∨ work then s else s.goIdle)

/-- The page of a gated unit. -/
def gatedPage : GatedUnit → Nat
  | .groveU g => 0x100 + g.val
  | .solverU q => 0x080 + q.val
  | .nearU n => 0x0C4 + 8 * n.val

/-- IDLE_WAKE_DONE: the unit has made its pass of R427 and takes work; the package is Active. -/
def execIdleWakeDone (u : GatedUnit) (s : State) : Host.Outcome State Fault Refusal :=
  .next (if s.pwr.waking.contains (gatedPage u) then
    let s1 := { s with pwr := { s.pwr with waking := s.pwr.waking.filter (· != (gatedPage u)) } }.setFlag (fGated (gatedPage u)) false
    if s1.fld fPwr_STATE = 3 then s1.setFld fPwr_STATE 1 else s1
  else s)

end Sys2Proof.Machine
end

