-- ==== Sys2Proof/Machine/Boundary.lean ====
section
/-! DEFINITION. The step boundary: the step-mark, Equinox, configuration epochs, the Solstice poll (R17, R18, R251 to R255, R318 to
R324, R331, R332). -/

namespace Sys2Proof.Machine

/-- The boundary state changed. -/
def State.modBnd (s : State) (f : BndSt → BndSt) : State := { s with bnd := f s.bnd }

/-- A phase entered. -/
def State.toPhase (s : State) (p : BPhase) : State := s.modBnd fun b => { b with phase := p }

/-! ### The fence (R17) -/

/-- A thread has an access that is issued and not performed; FAULTED contexts are not waited for (R52). -/
def Ctx.accessing (c : Ctx) : Bool := c.st == .wait && (c.rem.isSome || c.await.out)

/-- A request of the package's own units, whose stores the spec counts as none of the job's accesses. -/
def RUse.ofUnit : RUse → Bool
  | .mgmt => true
  | .pool => true
  | .unit => true
  | .gone => true
  | _ => false

/-- Every access issued before the step-mark is performed: remote ones, flagged stores, copies, engine work, copy-ring descriptors and
solver jobs released before it (R216), update passes (R244), job-class Hazel operations (R301). -/
def State.fenceDone (s : State) : Bool :=
  s.fab.ctxs.all (fun c => c.use.ofUnit) && s.fab.flags.isEmpty && s.fab.copies.isEmpty &&
    s.eng.mat.all (fun m => m.2.queue.isEmpty && !m.2.drainOut) && s.eng.solv.all (fun e => s.solvQuiet e.1) &&
    s.stks.all (fun e => s.copyQuiet e.1) && s.mdl.passes.isEmpty &&
    !(s.hz.ops.any fun o => !o.boundary && o.own.isSome) && !(s.thr.ctxs.any fun e => e.2.accessing)

/-- The rings whose entries the fence waits for, as the step-mark finds them (R17, R216). -/
def State.markRings (s : State) : State :=
  (List.range 64).foldl (fun t q => t.solvMark q) ((List.range 8).foldl (fun t n => t.copyMark n) s)

/-- The full fence of a step-mark for the job's threads (Table 2.8): every grove's view lines dropped, every translation to be dropped
dropped, and the element-wise queues run empty. -/
def State.fenceAll (s : State) : State :=
  { s with thr := { s.thr with inv := [] },
           eng := { s.eng with groves := tabMap groveDefault (fun g => { g with viewLines := [] }) s.eng.groves,
                               ew := tabMap ewDefault (fun e => { e with queue := [] }) s.eng.ew } }

/-! ### The order of the actions (Table 1.3) -/

/-- Action 4 is next; a HOLD_AFTER hold takes effect (R328). -/
def State.dueRelease (s : State) : State :=
  let s1 := s.toPhase .releaseDue
  if s1.bnd.holdDue then (s1.setFlag fSnap_HELD true).modBnd fun b => { b with holdDue := false } else s1

/-- A snapshot request or notice is pending. -/
def State.snapPending (s : State) : Bool := s.flag fSnap_REQ_PEND || s.flag fSnap_PRE_PEND

/-- After action 2: action 3 is taken with SOL_EN, or when something is pending. -/
def State.dueSolstice (s : State) : State :=
  if s.flag fSnap_SOL_EN ∨ s.snapPending then s.toPhase .pollDue else s.dueRelease

/-- After action 1: action 2 is taken when a configuration is armed; one armed during these actions waits (R324). -/
def State.dueEpoch (s : State) : State :=
  if s.flag fMode_ARMED ∧ !s.bnd.armLate then s.toPhase .applyDue else s.dueSolstice

/-- The fence is complete: the step counter counts, and the actions begin with the Equinox registers as they stand (R17, R258). -/
def State.startActions (s : State) : State :=
  let s1 := (s.fenceAll.inc fPkg_STEP).modBnd fun b =>
    { b with armLate := false,
             eqx := { en := s.flag fEqx_EQ_EN, group := s.fld fEqx_EQ_GROUP, win := s.fld fEqx_EQ_WIN,
                      list := s.fld fEqx_EQ_LIST * 64, f := 0, n := 0, pmin := 0, pmax := 0, src := 0 } }
  if s1.bnd.eqx.en then s1.toPhase .voteDue else s1.dueEpoch

/-- A boundary whose fence has become complete goes on. -/
def State.advance (s : State) : State := if s.bnd.phase = .fence ∧ s.fenceDone then s.startActions else s

/-- STEPMARK: a boundary begins; in one that is in progress the thread is HELD. -/
def execStepmark (t : Tid) (s : State) : Host.Outcome State Fault Refusal :=
  .next (s.issue t (.stepmark t) profControl fun s1 =>
    .jump (((s1.modCtx t Ctx.retired).markRings).toPhase .fence).advance)

/-! ### Equinox (R251 to R255) -/

/-- X_m of a registered training model (R251). -/
def Model.eqx (v : Model) : W64 := if v.corrupt then ~~~v.digest else if v.pending then v.nextDigest + v.digest else v.digest

/-- The registered training models of the job, ascending. -/
def State.trainers (s : State) : List Nat := s.models.filter fun m => (s.model m).training && (s.model m).job == s.jobId

/-- The package digest P. -/
def State.packageDigest (s : State) : W64 :=
  s.trainers.foldl (fun a m => a + mix64 (BitVec.ofNat 64 m ^^^ (s.model m).eqx)) 0

/-- The flags word F. -/
def State.eqxFlags (s : State) : W64 :=
  BitVec.ofNat 64 ((s.trainers.any fun m => (s.model m).nonfinite).toNat + 2 * (s.trainers.any fun m => (s.model m).lenderLost).toNat)

/-- The digest list: X_m for every index, 0 where no training model of the job is registered. -/
def State.digestList (s : State) : List Byte :=
  let ts := s.trainers
  (List.range 4096).flatMap fun m => natLE 8 (if ts.contains m then (s.model m).eqx.toNat else 0)

/-- EQUINOX_VOTE: the digest list is written, and the vote is issued (Table 10.5). A list that must wait for a stack waits; one whose
page faults is not written. -/
def execEquinoxVote (s : State) : Host.Outcome State Fault Refusal :=
  let s0 := s.advance
  .next (if s0.bnd.phase ≠ .voteDue then s0
  else match s0.vwrite unitAgt s0.bnd.eqx.list s0.digestList with
    | (.stall, s1) => s0.undo s1
    | (_, s1) =>
      let p := s1.packageDigest
      let v := BitVec.ofNat 64 (s1.fld fEqx_VOTES)
      (((s1.setFlag fEqx_VOTING true).setFld fEqx_LAST_P p.toNat).hzBoundary s1.bnd.eqx.group [10, 5, 6, 5, 6, 1]
        [s1.eqxFlags, p, p, v, v, 1]).toPhase .vote)

/-- The result of a boundary-class operation: the tree's, where the operation ended here, else the one the command brings (assumption
log 19); none on ERROR. -/
def State.hzResult (s : State) (err : Bool) (vals : List W64) : Option (List W64) :=
  match s.bnd.result with
  | some (0, v) => some v
  | some _ => none
  | none => if err then none else some vals

/-- The operation whose result has been taken is over here too, with the counts of Table 12.12; `err`: the cause of its ERROR. -/
def State.hzTaken (s : State) (gid : Nat) (err : Option Nat) : State :=
  let s1 := s.modBnd fun b => { b with result := none }
  let s2 := s1.modHz fun h => { h with due := h.due.filter fun d => d.1 != gid }
  if s.bnd.result.isSome then s1
  else match s2.hz.ops.find? fun o => o.gid == gid && o.boundary && o.own.isSome with
    | some o =>
      let s3 := s2.modHz fun h => { h with ops := h.ops.filter fun x => !x.is o.gid o.boundary o.seq }
      (match err with
       | none => s3.inc fHz_HZ_OPS
       | some c => ((s3.inc fHz_HZ_ERRORS).setFld fHz_LAST_CAUSE c).setFld fHz_LAST_GID gid)
    | none => s2

/-- Commit of one model (R253). -/
def State.eqxCommit1 (s : State) (m : Nat) : State :=
  let v := s.model m
  if v.pending then
    (((s.setModelBit m 16 (v.cur == 0)).setModelBit m 17 false).setModelQ m 0xC0 v.nextDigest.toNat).setModelQ m 0xC8 (v.updCount + 1)
  else s

/-- Commit: every model with PENDING. -/
def State.eqxCommit (s : State) : State := s.models.foldl (fun t m => t.eqxCommit1 m) s

/-- Skip: PENDING cleared. -/
def State.eqxSkip (s : State) : State := s.models.foldl (fun t m => t.setModelBit m 17 false) s

/-- An outcome other than stop: commit or skip by F, counted; then action 2. -/
def State.eqxApply (s : State) (f : W64) (repaired : Bool) : State :=
  let s1 := if f = 0 then s.eqxCommit else (s.eqxSkip).inc fEqx_SKIPS
  let s2 := ((s1.inc fEqx_VOTES).setFlag fEqx_LAST_SKIP (f ≠ 0)).setFlag fEqx_LAST_REPAIR repaired
  let s3 := if repaired then s2.inc fEqx_REPAIRS else s2
  ((s3.setFlag fEqx_VOTING false).setFlag fEqx_REPAIRING false).dueEpoch

/-- Stop (R255). -/
def State.eqxStop (s : State) : State :=
  let s1 := ((s.setFlag fEqx_VOTING false).setFlag fEqx_REPAIRING false).setFlag fEqx_STOPPED true
  (s1.report { cls := 0x10, react := 2, page := mdlPage } (some (logFail, .eqxStop))).toPhase .stopped

/-- EQUINOX_VOTE_RESULT: the first outcome of Table 10.6; a vote that ends with ERROR stops. -/
def execEquinoxVoteResult (err : Option Nat) (f pmin pmax vmin vmax n : W64) (s : State) : Host.Outcome State Fault Refusal :=
  .next (if s.bnd.phase ≠ .vote then s
  else
    let s1 := s.hzTaken s.bnd.eqx.group err
    match s.hzResult err.isSome [f, pmin, pmax, vmin, vmax, n] with
    | some [f, pmin, pmax, vmin, vmax, n] =>
      if vmin ≠ vmax then s1.eqxStop
      else if pmin = pmax then s1.eqxApply f false
      else if n.toNat < 3 then s1.eqxStop
      else
        let p := BitVec.ofNat 64 (s1.fld fEqx_LAST_P)
        let me := BitVec.ofNat 64 s1.pkgId
        ((s1.modBnd fun b => { b with eqx := { b.eqx with f := f, n := n, pmin := pmin, pmax := pmax } }).hzBoundary s1.bnd.eqx.group
          [1, 1, 5, 5] [if p = pmin then 1 else 0, if p = pmax then 1 else 0, if p = pmin then me else 0xFFFF,
            if p = pmax then me else 0xFFFF]).toPhase .count
    | _ => s1.eqxStop)

/-- A barrier of the group that carries a failure flag. -/
def State.eqxBarrier (s : State) (failed : Bool) : State :=
  (s.hzBoundary s.bnd.eqx.group [10] [if failed then 1 else 0]).toPhase .barrier

/-- A repair begins (R254): a minority member repairs, a majority member goes to the barrier. -/
def State.eqxRepair (s : State) (p : W64) (src : Nat) : State :=
  let s1 := (s.setFlag fEqx_REPAIRING true).report
    { cls := 0x46, react := 0, page := mdlPage, loc0 := BitVec.ofNat 64 src } none
  if BitVec.ofNat 64 (s1.fld fEqx_LAST_P) = p then s1.eqxBarrier false
  else (s1.modBnd fun b => { b with eqx := { b.eqx with src := src } }).toPhase .repair

/-- EQUINOX_COUNT_RESULT. -/
def execEquinoxCountResult (err : Option Nat) (cmin cmax srcMin srcMax : W64) (s : State) : Host.Outcome State Fault Refusal :=
  .next (if s.bnd.phase ≠ .count then s
  else
    let s1 := s.hzTaken s.bnd.eqx.group err
    let e := s1.bnd.eqx
    match s.hzResult err.isSome [cmin, cmax, srcMin, srcMax] with
    | some [cmin, cmax, srcMin, srcMax] =>
      if e.n.toNat < 2 * cmin.toNat then s1.eqxRepair e.pmin srcMin.toNat
      else if e.n.toNat < 2 * cmax.toNat then s1.eqxRepair e.pmax srcMax.toNat
      else s1.eqxStop
    | _ => s1.eqxStop)

/-- The slot of a model that is current after the outcome: the pending one before a commit, else the current one. -/
def Model.afterSlot (v : Model) (f : W64) : Nat := if f = 0 ∧ v.pending then 1 - v.cur else v.cur

/-! ### Repair (R254) -/

/-- Reads of the source's memory, all asked for at once: the bytes once every answer has come, or the first refusal. -/
def State.repairRead (s : State) : List (Nat × Nat) → MRes × State
  | [] => (.ok [], s)
  | (addr, n) :: rest =>
    match s.remoteRead .repair copyHandle 0 addr n with
    | (.ok b, s1) =>
      (match s1.repairRead rest with
       | (.ok b', s2) => (.ok (b ++ b'), s2)
       | x => x)
    | (.stall, s1) =>
      (match s1.repairRead rest with
       | (.ok _, s2) => (.stall, s2)
       | x => x)
    | x => x

/-- Where the source holds a range of a model: at the offset in its window RWIN that the bytes have in this member's window. None: a
granule cannot be written here, or lies outside the window. -/
def State.repairAddrs (s : State) (win src : Nat) : List (Nat × Nat) → Option (List (Nat × Nat))
  | [] => some []
  | (va, n) :: rest =>
    match (s.xlate .model va .store).1 with
    | .ok (.dram key) =>
      let w := s.window win
      (match lpaIn w.base key with
       | some a =>
         if w.base ≤ a ∧ a + n ≤ w.base + w.len then
           (s.repairAddrs win src rest).map fun l => (src * 2 ^ 48 + win * 2 ^ 34 + (a - w.base), n) :: l
         else none
       | none => none)
    | _ => none

/-- The regions of a model's slot that is current after the outcome: master, working copy, scales, optimizer state. -/
def Model.repaired (v : Model) (segs : List Seg) (c : Nat) : List (Nat × Nat) :=
  [(v.slot v.mbase c, v.mcount * v.msz), (v.slot v.wbase c, v.wbytes), (v.slot v.wsbase c, v.sbytes), (v.slot v.obase c, v.obytes segs)].filter
    fun r => r.2 != 0

/-- The outcome of a step of a repair: done, with whether it failed; or a wait. -/
inductive RepRes where
  | done (failed : Bool)
  | wait
  deriving DecidableEq, Repr

/-- The parts of a region list taken from its bytes. -/
def splitParts : List (Nat × Nat) → List Byte → List (Nat × List Byte)
  | [], _ => []
  | (va, n) :: rest, b => (va, b.take n) :: splitParts rest (b.drop n)

/-- A model's slots copied from the source, and its digests as R254 leaves them: it fails where the copy cannot be made or X_m still
differs. -/
def State.eqxCopy (s : State) (f x : W64) (m : Nat) : RepRes × State :=
  let v := s.model m
  let c := v.afterSlot f
  let rs := v.repaired (s.segsNow v) c
  match s.repairAddrs v.rwin s.bnd.eqx.src (rs.flatMap fun r => s.segs r.1 r.2) with
  | none => (.done true, s)
  | some as =>
    match s.repairRead as with
    | (.stall, s1) => (.wait, s1)
    | (.ok b, s1) =>
      (match s1.mwrites m false (splitParts rs b) with
       | (.stall, _, s2) => (.wait, s1.undo s2)
       | (_, bad, s2) =>
         let dg := patDigest ((List.range v.mcount).map fun k => fieldLE b (k * v.msz) v.msz)
         let s3 := if c = v.cur then (s2.setModelQ m 0xC0 dg.toNat).setModelQ m 0xD0 dg.toNat
           else (s2.setModelQ m 0xD8 dg.toNat).setModelQ m 0xD0 v.digest.toNat
         let s4 := s3.setModelBit m 20 false
         (.done (bad || (s4.model m).eqx != x), s4))
    | (_, s1) => (.done true, s1)

/-- Every model index, where the source's X_m differs from this member's, copied in turn: one that only one of the two has registered
cannot be. -/
def State.eqxCopies (s : State) (f : W64) (list : List Byte) : List Nat → RepRes × State
  | [] => (.done false, s)
  | m :: rest =>
    let x := BitVec.ofNat 64 (fieldLE list (8 * m) 8)
    let mine := s.trainers.contains m
    if (if mine then (s.model m).eqx else 0) = x then s.eqxCopies f list rest
    else if !mine ∨ x = 0 then (.done true, s)
    else match s.eqxCopy f x m with
      | (.done false, s1) => s1.eqxCopies f list rest
      | r => r

/-- The order in which a repair takes the model indexes: those the command names, then the others in ascending order. -/
def repairOrder (order : List Nat) : List Nat := order ++ (List.range 4096).filter fun m => !order.contains m

/-- EQUINOX_REPAIR at a minority member: the source's digest list is read through window EQ_WIN, and the slots of every model that
differs through its window RWIN; then the barrier. A read or a write that must wait is taken up again by the next EQUINOX_REPAIR.
R254 leaves open in what order the models are copied and how far one command goes: the command's `order`, and the first `limit` indexes
of it, the next EQUINOX_REPAIR going on; `failed`: the copy fails for a reason outside this state, such as its engine's own error
(DESIGN CHOICE, log 65). -/
def execEquinoxRepair (order : List Nat) (limit : Nat) (failed : Bool) (s : State) : Host.Outcome State Fault Refusal :=
  .next (if s.bnd.phase ≠ .repair then s
  else
    let e := s.bnd.eqx
    match s.repairRead ((List.range 8).map fun i => (e.src * 2 ^ 48 + e.win * 2 ^ 34 + 4096 * i, 4096)) with
    | (.stall, s1) => s1
    | (.ok list, s1) =>
      (match s1.eqxCopies e.f list ((repairOrder order).take limit) with
       | (.done bad, s2) =>
         if bad || failed || decide ((repairOrder order).length ≤ limit) then (s2.dropGot .repair).eqxBarrier (bad || failed) else s2
       | (.wait, s2) => s2)
    | (_, s1) => (s1.dropGot .repair).eqxBarrier true)

/-- EQUINOX_REPAIR_BARRIER: a failure of any minority member stops every member. -/
def execEquinoxRepairBarrier (failed : Bool) (s : State) : Host.Outcome State Fault Refusal :=
  .next (if s.bnd.phase ≠ .barrier then s
  else
    let s1 := s.hzTaken s.bnd.eqx.group none
    match s.hzResult false [if failed then 1 else 0] with
    | some [0] => s1.eqxApply s1.bnd.eqx.f true
    | _ => s1.eqxStop)

/-! ### Configuration epochs (R318 to R324) -/

/-- Epoch `a` is newer than `b` (R318). -/
def epochNewer (a b : Nat) : Bool :=
  let d := (a + 2 ^ 32 - b) % 2 ^ 32
  decide (1 ≤ d) && decide (d ≤ 2 ^ 31 - 1)

/-- The refusal of an arm, 0 when it is accepted (R319, Table 13.4). -/
def State.armCode (s : State) : Nat :=
  if !epochNewer (s.fld fMode_STG_EPOCH) (s.fld fMode_A_EPOCH) then 1
  else if s.bnd.stgRsv || (s.flag fMode_PROFILE && s.flag fMode_CAP_MODE) then 2
  else if s.flag fMode_ARMED then 3
  else 0

/-- ARM written. -/
def State.epochArm (s : State) : State :=
  if s.armCode ≠ 0 then (s.setFlag fMode_REFUSED true).setFld fMode_CODE s.armCode
  else (s.setFlag fMode_ARMED true).modBnd fun b => { b with armLate := b.phase != .none && b.phase != .fence }

/-- CANCEL written: not once action 2 has begun. -/
def State.epochCancel (s : State) : State := if s.flag fMode_APPLYING then s else s.setFlag fMode_ARMED false

/-- The pages that report an epoch. -/
def epochPages : List Nat := (List.range 0x200).filter fun p => (pageBlk p).isSome

/-- Every block and every live thread at an epoch, FAULTED threads included. -/
def State.setEpochs (s : State) (e : Nat) : State :=
  let s1 := epochPages.foldl (fun t p => t.setFld (fEpoch p) e) s
  { s1 with thr := { s1.thr with ctxs := s1.thr.ctxs.map fun c => (c.1, { c.2 with epoch := BitVec.ofNat 32 e }) } }

/-- STATE shows Capped while cycles are gated or the clock is lowered (Table 16.4). -/
def State.syncCapped (s : State) : State :=
  let capped := s.fld fPwr_GATE != 0 || s.fld fPwr_ACLK != 940
  match s.fld fPwr_STATE with
  | 1 => if capped then s.setFld fPwr_STATE 2 else s
  | 2 => if capped then s else s.setFld fPwr_STATE 1
  | _ => s

/-- A configuration in force. Under PROFILE the arithmetic islands run at 940 MHz: a lowered clock returns to it (Table 13.1). -/
def State.setConfig (s : State) (c : EpPrev) : State :=
  let s1 := (((s.setFld fMode_A_PROFILE c.profile).setFld fMode_A_CAP_MODE c.cap).setFld fMode_A_STRICT c.strict).setFld fMode_A_EPOCH
    c.epoch
  if c.profile = 1 then (s1.setFld fPwr_ACLK 940).syncCapped else s1

/-- The configuration in force. -/
def State.config (s : State) : EpPrev :=
  { profile := s.fld fMode_A_PROFILE, cap := s.fld fMode_A_CAP_MODE, strict := s.fld fMode_A_STRICT, epoch := s.fld fMode_A_EPOCH }

/-- After action 2. With no job no action 3 follows. -/
def State.epochOver (s : State) : State :=
  let s1 := s.setFlag fMode_APPLYING false
  if s1.bnd.phase = .none then s1 else s1.dueSolstice

/-- The agreement of the group with AGREE_EN, in a boundary; else action 2 is over (R323). -/
def State.epochAgree (s : State) (applied : Bool) : State :=
  let e := BitVec.ofNat 64 (s.fld fMode_STG_EPOCH)
  if s.flag fMode_AGREE_EN ∧ s.bnd.phase ≠ .none then
    (s.hzBoundary (s.fld fMode_EP_GROUP) [5, 5, 6] [if applied then 1 else 0, e, e]).toPhase .agree
  else s.epochOver

/-- A revert (R321): ARMED is cleared, the cause and the late block recorded. -/
def State.epochRevert (s : State) (code late : Nat) : State :=
  ((((s.setFlag fMode_ARMED false).setFlag fMode_REVERTED true).setFld fMode_CODE code).setFld fMode_LATE_PAGE late).inc fMode_REVERTS
    |>.report { cls := 0x45, react := 0, page := 0x00A, cause := code, loc0 := BitVec.ofNat 64 late } none

/-- Action 2 has begun. -/
def State.applying (s : State) : Bool := s.flag fMode_APPLYING

/-- EPOCH_APPLY: the staged configuration is sent to every block. With no job an armed configuration is applied at once. -/
def execEpochApply (s : State) : Host.Outcome State Fault Refusal :=
  let s0 := s.advance
  .next (if s0.bnd.phase = .applyDue then (s0.setFlag fMode_APPLYING true).toPhase .apply
  else if s0.bnd.phase = .none ∧ !s0.jobRuns ∧ s0.flag fMode_ARMED then s0.setFlag fMode_APPLYING true
  else s0)

/-- The local apply is in progress. -/
def State.inApply (s : State) : Bool := s.bnd.phase == .apply || (s.bnd.phase == .none && s.applying)

/-- FWSET differs from the one expected (R321). -/
def State.fwsetBad (s : State) : Bool :=
  s.flag fMode_PROFILE && s.fld fMode_FWSET_EXP != 0 && s.fld fMode_FWSET_EXP != s.fld fMode_FWSET

/-- EPOCH_APPLIED: every block has written BLK_EPOCH. -/
def execEpochApplied (s : State) : Host.Outcome State Fault Refusal :=
  .next (if !s.inApply then s
  else if s.fwsetBad then ((s.modBnd fun b => { b with prev := none }).epochRevert 0x11 0).epochAgree false
  else
    let c : EpPrev := { profile := s.fld fMode_PROFILE, cap := s.fld fMode_CAP_MODE, strict := s.fld fMode_STRICT,
                        epoch := s.fld fMode_STG_EPOCH }
    let s1 := s.modBnd fun b => { b with prev := some s.config }
    ((((s1.setEpochs c.epoch).setConfig c).setFlag fMode_ARMED false).inc fMode_APPLIES).epochAgree true)

/-- EPOCH_APPLY_TIMEOUT: the first block that had not applied. -/
def execEpochApplyTimeout (late : Nat) (s : State) : Host.Outcome State Fault Refusal :=
  .next (if !s.inApply then s
  else ((s.modBnd fun b => { b with prev := none }).epochRevert 0x10 late).epochAgree false)

/-- EPOCH_AGREEMENT_RESULT: a member that applied reverts when any reverted, the epochs differ, or the agreement failed. -/
def execEpochAgreementResult (err : Option Nat) (flagMin epMin epMax : W64) (s : State) : Host.Outcome State Fault Refusal :=
  .next (if s.bnd.phase ≠ .agree then s
  else
    let s1 := s.hzTaken (s.fld fMode_EP_GROUP) err
    let ok := match s.hzResult err.isSome [flagMin, epMin, epMax] with
      | some [a, b, c] => a != 0 && b == c
      | _ => false
    match s1.bnd.prev with
    | some c => if ok then s1.epochOver else (((s1.setConfig c).setEpochs c.epoch).epochRevert 0x12 0).epochOver
    | none => s1.epochOver)

/-! ### The Solstice poll (R331, R332) -/

/-- This package's poll values (Table 14.3). -/
def State.pollValues (s : State) : List W64 :=
  let step := BitVec.ofNat 64 (s.fld fPkg_STEP)
  [BitVec.ofNat 64 ((s.flag fSnap_REQ_PEND).toNat + 2 * (s.flag fSnap_PRE_PEND).toNat + 4 * s.snp.job.isSome.toNat), step, step,
   BitVec.ofNat 64 (s.fld fSnap_GEN_COMMITTED), BitVec.ofNat 64 (s.fld fSnap_GEN_NEXT)]

/-- The outcomes of Table 14.4 for a poll that did not fail, after the agreement rule of R343; none where the cut must wait. -/
def State.pollOutcome (s : State) : List W64 → Option State
  | [v0, v1, v2, v3, v4] =>
    let s1 := if !v0.getLsbD 2 then s.agreement (v4.toNat - 1) v3.toNat else s
    if v1 ≠ v2 then some (s1.report { cls := 0x4A, react := 0, page := 0x00D, loc0 := v1, loc1 := v2 } none)
    else if !v0.getLsbD 0 ∧ !v0.getLsbD 1 then some s1
    else if v0.getLsbD 2 then some s1
    else s1.cut v4.toNat (v0.getLsbD 1)
  | _ => some s

/-- SOLSTICE_POLL: with SOL_EN clear the package's own values are the result. A cut whose tables wait for a stack is taken by the next
SOLSTICE_POLL. -/
def execSolsticePoll (s : State) : Host.Outcome State Fault Refusal :=
  let s0 := s.advance
  .next (if s0.bnd.phase ≠ .pollDue then s0
  else if s0.flag fSnap_SOL_EN then
    (s0.hzBoundary (s0.fld fSnap_SOL_GROUP) [10, 5, 6, 5, 6] s0.pollValues).toPhase .poll
  else match s0.pollOutcome s0.pollValues with
    | some s1 => s1.dueRelease
    | none => s0)

/-- SOLSTICE_POLL_RESULT; a cut whose tables wait for a stack leaves the result to be taken again. -/
def execSolsticePollResult (err : Option Nat) (v0 v1 v2 v3 v4 : W64) (s : State) : Host.Outcome State Fault Refusal :=
  .next (if s.bnd.phase ≠ .poll then s
  else
    let s1 := s.hzTaken (s.fld fSnap_SOL_GROUP) err
    match s.hzResult err.isSome [v0, v1, v2, v3, v4] with
    | some v =>
      (match s1.pollOutcome v with
       | some s2 => s2.dueRelease
       | none => s)
    | none => (s1.event logInfo .hazel (BitVec.ofNat 64 (s1.fld fSnap_SOL_GROUP)) 0 []).dueRelease)

/-! ### Action 4 -/

/-- Action 4 may be taken: every action is complete, and no hold is in force (R18, R328). -/
def State.releasable (s : State) : Bool := s.bnd.phase == .releaseDue && !s.flag fSnap_HELD

/-- The next step is released: HELD threads are READY, held solver jobs go on (R216). Machine/Resume.lean issues the instructions of
the threads. -/
def State.freeHeld (s : State) : State :=
  let s0 := { s with stks := tabMap stkDefault (fun x => { x with due := { x.due with hold := none } }) s.stks,
                     eng := { s.eng with solv := tabMap solvDefault (fun x => { x with due := { x.due with hold := none } }) s.eng.solv } }
  let s1 := (List.range 64).foldl (fun t q => t.setFlag (fSolv_HELD q) false) (s0.toPhase .none)
  { s1 with thr := { s1.thr with ctxs := s1.thr.ctxs.map fun c =>
      if c.2.st = .held then (c.1, { c.2 with st := .ready }) else c } }

end Sys2Proof.Machine
end

