-- ==== Sys2Proof/Machine/CanopyOps.lean ====
section
/-! DEFINITION. The Canopy rows (R308 to R310). CANOPY_START, CANOPY_JOIN and CANOPY_CANCEL are writes of CMD and stand with the
register rows. -/

namespace Sys2Proof.Machine

/-- CANOPY_CHUNK_PACKET: another MKEY is discarded and counted (R307). -/
def execCanopyChunkPacket (mkey : W64) (chunk off : Nat) (data : List Byte) (s : State) : Host.Outcome State Fault Refusal :=
  .next (match s.can.man with
  | some m =>
    if m.mkey ≠ mkey then s.addSat fCan_MKEY_DROP 1
    else if s.canState = canRecv ∨ s.canState = canHeld then s.canPacket m chunk off data else s
  | none => s.addSat fCan_MKEY_DROP 1)

/-- CANOPY_KEEPALIVE: a relay of a broadcast in progress; nothing leaves in safe stop. -/
def execCanopyKeepalive (s : State) : Host.Outcome State Fault Refusal :=
  .next (if s.canBusy ∧ !s.flag fSafe_SAFE then s.can.kids.foldl (fun t k => t.canSend 9 k 0 0 []) s else s)

/-- CANOPY_PARENT_TIMEOUT: a member that lacks a chunk. -/
def execCanopyParentTimeout (s : State) : Host.Outcome State Fault Refusal :=
  .next (if s.canState = canRecv then s.canReport else s)

/-- CANOPY_FAILURE_REPORT. -/
def execCanopyFailureReport (relay : Nat) (s : State) : Host.Outcome State Fault Refusal := .next (s.canFailedRelay relay)

/-- CANOPY_DONE: a member's report reaches the root. -/
def execCanopyDone (member : Nat) (s : State) : Host.Outcome State Fault Refusal :=
  .next (match s.can.man with
  | some m => if m.root = s.pkgId ∧ s.canBusy then s.canDoneAt member else s
  | none => s)

/-- CANOPY_GO: from HELD_ALL (Table 12.10). -/
def execCanopyGo (s : State) : Host.Outcome State Fault Refusal := .next (if s.canState = canHeld then s.canGo else s)

/-- CANOPY_ABANDON. -/
def execCanopyAbandon (s : State) : Host.Outcome State Fault Refusal :=
  .next (if s.canBusy then (s.setFld fCan_STATE canAbandoned).event logInfo .canopy 0 0 [] else s)

/-- CANOPY_CHUNK_REQUEST: a child asks for a chunk again. -/
def execCanopyChunkRequest (member chunk : Nat) (s : State) : Host.Outcome State Fault Refusal :=
  .next (if s.can.held.contains chunk ∧ s.can.kids.contains member then s.canSendChunk member chunk else s)

/-- CANOPY_REPARENT: at the member, its new parent, which it tells what it lacks; at the new parent, the member joins its children
and is sent every chunk held from the first that it does not hold. -/
def execCanopyReparent (member newParent firstChunk : Nat) (s : State) : Host.Outcome State Fault Refusal :=
  .next (match s.can.man with
  | none => s
  | some m =>
    if !s.canBusy then s
    else if member = s.pkgId then
      let first := ((List.range m.digests.length).find? fun j => !s.can.held.contains j).getD m.digests.length
      ((s.setFld fCan_PARENT newParent).setFld fCan_REPARENTS (s.fld fCan_REPARENTS + 1)).canSend 11 newParent first s.pkgId []
    else if newParent = s.pkgId then
      (s.modCan fun c => { c with kids := c.kids.filter (· != member) ++ [member] }).canSendFrom member firstChunk
    else s)

/-- CANOPY_JOIN_RECEIVED at the root: the member counts again, and every chunk is sent to it through its PARENT, its ALT or the
root. -/
def execCanopyJoinReceived (member : Nat) (s : State) : Host.Outcome State Fault Refusal :=
  .next (match s.can.man with
  | none => s
  | some m =>
    if m.root ≠ s.pkgId ∨ !s.canBusy then s
    else match m.entry member with
      | none => s
      | some e =>
        let live := fun p => p != 0xFFFF && !s.can.failed.contains p
        let p := if live e.2.1 then e.2.1 else if live e.2.2 then e.2.2 else m.root
        if s.can.failed.contains member then
          let s1 := (s.modCan fun c => { c with failed := c.failed.filter (· != member) }).canReparent member p false
          if p = m.root then s1.canSendFrom member 0 else s1
        else s)

end Sys2Proof.Machine
end

