-- ==== Sys2Proof/Machine/LinkReset.lean ====
section
/-! DEFINITION. Hot reset and CXL reset (R360, R369 to R371). -/

namespace Sys2Proof.Machine

/-- A link reset retrains the link to a supported rate and width, which is the host's to choose and so free; the Viral and host-lost
states end, but for the Viral of safe stop (Table 18.4); the IDE keys are discarded, and the nonce of Get Challenge, which any reset ends
(R411). Nothing where the link is not in operation. -/
def State.linkReset (s : State) : State :=
  if s.pwr.mode ≠ .run then s
  else
    let s1 := (((s.draw.2.draw.2.draw.2.setFld fCxl_RATE (if Config.outcome s.fresh then 2 else 1)).setFld fCxl_WIDTH
      (if Config.outcome (s.fresh + 1) then 16 else 8)).setFlag fCxl_LO_FLIT (Config.outcome (s.fresh + 2))).setFlag fCxl_HOST_LOST false
    let s2 := if s1.flag fSafe_SAFE then s1 else s1.setFlag fCxl_VIRAL false
    let s3 := (s2.setFlag fCxl_IDE_SECURE false).setFlag fCxl_CACHE_EN (!s2.flag fCxl_IDE_POL)
    { s3 with host := { s3.host with ideBad := false }, sec := { s3.sec with nonce := none } }.releaseWaiting

/-- HOT_RESET: also a secondary bus reset. The job, device memory and the event policy stay. -/
def execHotReset (s : State) : Host.Outcome State Fault Refusal := .next s.linkReset

/-- Every modified host line is written back (message 0x400: its address and bytes), and none is held any more. -/
def State.writeBackHost (s : State) : State :=
  let s1 := (s.mem.hostLines.filter fun e => e.2.modified).foldl (fun t e => t.answer (.message 0x400 0 (natLE 8 (64 * e.1) ++ e.2.bytes))) s
  { s1 with mem := { s1.mem with hostLines := [] } }

/-- CXL_RESET: host lines written back, the job ended, the link reset, no log's interrupt enabled. -/
def execCxlReset (s : State) : Host.Outcome State Fault Refusal :=
  .next (if s.pwr.mode ≠ .run then s
  else
    let s1 := (s.writeBackHost.jobEnd none).linkReset
    { s1 with host := { s1.host with evPolicy := [] } })

end Sys2Proof.Machine
end

