-- ==== Sys2Proof/Machine/Pins.lean ====
section
/-! DEFINITION. Control inputs, reference clocks, monitors, self-tests, the cap controller, die temperatures, protective power-down and
error injection (R374, R381 to R389, R421 to R434). -/

namespace Sys2Proof.Machine

/-- The power page. -/
def pwrPage : Nat := 0x00E

/-! ### Control inputs (R388, R389) -/

/-- PREEMPT_N: an accepted assertion makes one notice; a coalesced one is counted. An input that was stuck acts normally again;
one held in reset by PERST_N does not act. -/
def execPreemptN (coalesced : Bool) (s : State) : Host.Outcome State Fault Refusal :=
  .next (if s.pwr.mode = .off then s
  else if coalesced then s.addSat fPwr_PREEMPT_COAL 1
  else
    let s1 := s.setFlag fPwr_PREEMPT_STUCK false
    if s1.pwr.mode = .held then s1 else s1.preempt 1 0)

/-- SAFE_STOP_N: a detection of class 0x12, input 3 of Table 16.9; a coalesced assertion is counted. -/
def execSafeStopN (coalesced : Bool) (s : State) : Host.Outcome State Fault Refusal :=
  .next (if s.pwr.mode = .off then s
  else if coalesced then s.addSat fPwr_SAFE_COAL 1
  else s.detectS { cls := 0x12, react := 3, page := pwrPage, unit := 3 })

/-- TRST_N: the TAP is reset; none of its state is the package's. -/
def execTrstN (s : State) : Host.Outcome State Fault Refusal := .next s

/-- INPUT_STUCK: PREEMPT_N (input 2) is ignored until deasserted; class 0x44, recorded once. -/
def execInputStuck (s : State) : Host.Outcome State Fault Refusal :=
  .next (if s.pwr.mode = .off ∨ s.flag fPwr_PREEMPT_STUCK then s
  else (s.setFlag fPwr_PREEMPT_STUCK true).reportR 0x44 pwrPage 2 0 0)

/-! ### Clocks and monitors (R387, R399, Table 18.1) -/

/-- SYS_REFCLK_LOSS: detected by the clock monitor. -/
def execSysRefclkLoss (s : State) : Host.Outcome State Fault Refusal := .next (s.detectS { cls := 0x0C, react := 3, page := pwrPage })

/-- GL_REFCLK_LOSS: every port that is ACTIVE enters RETRAINING. -/
def execGlRefclkLoss (s : State) : Host.Outcome State Fault Refusal :=
  .next ((List.range 16).foldl (fun t p => if t.portState p = 2 then t.retrainPort p else t) s)

/-- VOLTAGE_MONITOR_TRIP. -/
def execVoltageMonitorTrip (unit : Nat) (s : State) : Host.Outcome State Fault Refusal :=
  .next (s.detectS { cls := 0x0B, react := 3, page := pwrPage, unit := unit })

/-- CLOCK_MONITOR_TRIP. -/
def execClockMonitorTrip (unit : Nat) (s : State) : Host.Outcome State Fault Refusal :=
  .next (s.detectS { cls := 0x0C, react := 3, page := pwrPage, unit := unit })

/-- LOCKSTEP_MISMATCH. -/
def execLockstepMismatch (s : State) : Host.Outcome State Fault Refusal := .next (s.detectS { cls := 0x0A, react := 3, page := 0x018 })

/-! ### Self-tests in rotation (R427) -/

/-- A unit's page, record class, and the injection kind of its next pass (Table 18.8). -/
def testUnit : TestUnit → Nat × Nat × Nat
  | .groveT g => (0x100 + g.val, 0x07, 3)
  | .stackT n => (0x0C4 + 8 * n.val, 0x08, 1)
  | .coreT _ => (0x010, 0x09, 1)

/-- The armed injection is for this pass: of a control core, the one that TARGET names. -/
def State.testInj (s : State) (u : TestUnit) : Bool :=
  let (page, _, kind) := testUnit u
  s.injArmed page kind && (match u with | .coreT c => s.fld (fInj_TARGET page) == c.val | _ => true)

/-- The unit in the block that a record of an injected mismatch names. -/
def State.testUnitNo (s : State) (u : TestUnit) (inj : Bool) (unit : Nat) : Nat :=
  match u with
  | .coreT c => c.val
  | .stackT _ => if inj then s.fld (fInj_TARGET (testUnit u).1) % 16 else unit
  | .groveT _ => unit

/-- A pass ends: a mismatch, real or injected, is a detection of reaction S. No unit is tested outside operation, nor while gated. -/
def State.testPass (s : State) (u : TestUnit) (ok : Bool) (unit : Nat) : State :=
  let (page, cls, _) := testUnit u
  if s.pwr.mode ≠ .run ∨ s.flag (fGated page) then s
  else
    let inj := s.testInj u
    let s1 := if inj then s.injDone page else s
    if ok ∧ !inj then s1
    else s1.detectS { cls := cls, react := 3, page := page, unit := s.testUnitNo u inj unit, injected := inj }

/-- A pass that the armed injection awaits. -/
def State.testPassIf (s : State) (u : TestUnit) : State := if s.testInj u then s.testPass u true 0 else s

/-- SELF_TEST_PASS. -/
def execSelfTestPass (u : TestUnit) (ok : Bool) (unit : Nat) (s : State) : Host.Outcome State Fault Refusal := .next (s.testPass u ok unit)

/-- SELF_TEST_FORCE: the tester takes cycles of the unit; timing only. -/
def execSelfTestForce (_u : TestUnit) (s : State) : Host.Outcome State Fault Refusal := .next s

/-! ### Error injection (R176, R432 to R434) -/

/-- The lifecycle, and in PRODUCTION INJ_EN, allow injection. -/
def State.injAllowed (s : State) : Bool :=
  let lc := s.fld fSec_LC
  lc == 0 || lc == 1 || (lc == 2 && s.flag fSafe_INJ_EN)

/-- The kinds that Table 18.8 names for a page, and the targets of the kind. -/
def injNamed (b : Blk) (kind target : Nat) : Bool :=
  match b, kind with
  | .grove, 1 => true
  | .grove, 2 => decide (target < 128)
  | .grove, 3 => true
  | .solv, 1 => true
  | .msc, 1 => decide (target < 16)
  | .stk, 1 => decide (target < 16)
  | .ctl, 1 => decide (target < 48)
  | .sec, 1 => true
  | .pwr, 1 => true
  | .pwr, 2 => true
  | .port, 1 => true
  | .port, 2 => true
  | .eqx, 1 => true
  | _, _ => false

/-- The fields ARM, KIND and TARGET written. -/
def State.injSet (s : State) (page arm kind target : Nat) : State :=
  ((s.setFld (fInj_ARM page) arm).setFld (fInj_KIND page) kind).setFld (fInj_TARGET page) target

/-- A write of BLK_ERRINJ (R434). On the models page the write of TARGET that follows an arming gives TARGET_HI. -/
def State.errinjWrite (s : State) (page v : Nat) : State :=
  let arm := v % 2
  let kind := v / 2 % 8
  let target := v / 256 % 256
  match pageBlk page with
  | none => s
  | some (b, _) =>
    if !b.hasInj ∨ b = .prot then s
    else if b = .eqx ∧ s.flag (fInj_ARM page) ∧ arm = 1 then
      (if s.injAllowed then { s with saf := { s.saf with targetHi := target % 16 } } else s)
    else if arm = 1 ∧ (!s.injAllowed ∨ !injNamed b kind target) then s
    else
      let s1 := if b = .eqx then { s with saf := { s.saf with targetHi := 0 } } else s
      s1.injSet page arm kind target

/-- A write of BLK_ERRINJ of a stack protection page (R176). -/
def State.stackErrinjWrite (s : State) (n v : Nat) : State :=
  let ue := v / 2 % 2
  let count := v / 4 % 16
  let lane := v / 64 % 16
  if v % 2 = 1 ∧ (!s.injAllowed ∨ (ue = 0 ∧ (count = 0 ∨ 4 < count ∨ 8 < lane))) then s
  else
    ((((s.setFld (fProt_INJ_ARM n) v).setFld (fProt_INJ_UE n) ue).setFld (fProt_INJ_COUNT n) count).setFld (fProt_INJ_LANE n) lane).setFld
      (fProt_INJ_PC n) (v / 1024)

/-- INJ_EN written: setting it writes a Warning record (R432). -/
def State.injEn (s : State) (v : Bool) : State :=
  let s1 := if v ∧ !s.flag fSafe_INJ_EN then s.event logWarn .injEnabled 0 0 [] else s
  s1.setFlag fSafe_INJ_EN v

/-- FAULT_CLR written: nothing in safe stop (R423). -/
def State.faultClr (s : State) : State := if s.flag fSafe_SAFE then s else s.setFlag fSafe_FAULT false

/-- ERROR_INJECTION_ACTS at an opportunity that no other command brings: the security controller's next cycle and the monitors; a
pass of a stack engine or of a control core brings its own. -/
def execErrorInjectionActs (page : Nat) (s : State) : Host.Outcome State Fault Refusal :=
  .next (if page = 0x018 ∧ s.injArmed page 1 then (s.injDone page).detectS { cls := 0x0A, react := 3, page := page, injected := true }
  else if page = pwrPage ∧ s.injArmed page 1 then (s.injDone page).detectS { cls := 0x0B, react := 3, page := page, injected := true }
  else if page = pwrPage ∧ s.injArmed page 2 then (s.injDone page).detectS { cls := 0x0C, react := 3, page := page, injected := true }
  else if h : page = 0x010 ∧ s.fld (fInj_TARGET 0x010) < 48 then s.testPassIf (.coreT ⟨s.fld (fInj_TARGET 0x010), h.2⟩)
  else if h : page - 0x100 < 256 ∧ 0x100 ≤ page then s.testPassIf (.groveT ⟨page - 0x100, h.1⟩)
  else if h : (page - 0x0C4) / 8 < 8 ∧ 0x0C4 ≤ page ∧ page % 8 = 4 then s.testPassIf (.stackT ⟨(page - 0x0C4) / 8, h.1⟩)
  else s)

/-! ### Input, caps and temperatures (R374, R381 to R383) -/

/-- INPUT_RANGE_CHANGE, the voltage in 10 mV: IN_RANGE follows; leaving the range within 55 V to 68 V writes an event record. -/
def execInputRangeChange (volts : Nat) (s : State) : Host.Outcome State Fault Refusal :=
  let ok := decide (5700 ≤ volts) && decide (volts ≤ 6600)
  let s1 := (s.setFld fPwr_IN_V volts).setFlag fPwr_IN_RANGE ok
  .next (if s.pwr.mode ≠ .off ∧ !ok ∧ s.flag fPwr_IN_RANGE ∧ 5500 ≤ volts ∧ volts ≤ 6800 then
    s1.event logWarn .inputRange (BitVec.ofNat 64 volts) 0 []
  else s1)

/-- The clock may be lowered: FREQ_EN, and the deterministic profile not in force. -/
def State.freqOk (s : State) : Bool := s.flag fPwr_FREQ_EN && !s.flag fMode_A_PROFILE

/-- A step count between 1 and `n`, free: the rule names the order of the controller's acts, not their size. -/
def State.steps (s : State) (n : Nat) : Nat × State := (1 + (Config.timed s.fresh).toNat % n, s.draw.2)

/-- CAP_SAMPLE: the input power in W. Above CAP_W the clock goes down first, then cycles are gated, then CAP_UNMET is set; at or
below it gating is removed before the clock rises. -/
def execCapSample (power : Nat) (s : State) : Host.Outcome State Fault Refusal :=
  let gate := s.fld fPwr_GATE
  let clk := s.fld fPwr_ACLK
  let s0 := s.setFld fPwr_IN_P power
  .next (if s.pwr.mode ≠ .run then s
  else if s.fld fPwr_CAP_W < power then
    if s0.freqOk ∧ 720 < clk then ((s0.steps ((clk - 720) / 20)).2.setFld fPwr_ACLK (clk - 20 * (s0.steps ((clk - 720) / 20)).1)).syncCapped
    else if gate < 56 then ((s0.steps (56 - gate)).2.setFld fPwr_GATE (gate + (s0.steps (56 - gate)).1)).syncCapped
    else if s0.flag fPwr_CAP_UNMET then s0
    else (s0.setFlag fPwr_CAP_UNMET true).event logWarn .capUnmet 0 0 []
  else
    let s1 := s0.setFlag fPwr_CAP_UNMET false
    if 0 < gate then ((s1.steps (gate + 1)).2.setFld fPwr_GATE (gate + 1 - (s1.steps (gate + 1)).1)).syncCapped
    else if clk < 940 ∧ !s1.flag fMode_A_PROFILE then ((s1.steps ((940 - clk) / 20 + 1)).2.setFld fPwr_ACLK (clk + 20 * ((s1.steps ((940 - clk) / 20 + 1)).1 - 1))).syncCapped
    else s1.syncCapped)

/-- DIE_TEMP_SAMPLE (R383): the die's byte of TJ, and its throttling. -/
def execDieTempSample (die : Fin 4) (temp : BitVec 8) (s : State) : Host.Outcome State Fault Refusal :=
  let hot := decide ((s.fld fPwr_TJ_THR : Int) ≤ temp.toInt)
  let hots := if hot then (if s.pwr.hot.contains die.val then s.pwr.hot else s.pwr.hot ++ [die.val]) else s.pwr.hot.filter (· != die.val)
  let s1 := s.setFld fPwr_TJ (putBits (s.fld fPwr_TJ) (8 * die.val) 8 temp.toNat)
  .next (if s.pwr.mode = .off then s else { s1 with pwr := { s1.pwr with hot := hots } }.setFlag fPwr_TJ_THROT (!hots.isEmpty))

/-! ### Protective power-down (R384, R385) -/

/-- PROTECTIVE_POWER_DOWN under a code of Table 16.5; `held`: the input stayed above 45 V until the commit of PROT_CAUSE. After a
PWR_GOOD deassertion the conditions are evaluated no more (R466). -/
def execProtectivePowerDown (code : Nat) (held : Bool) (s : State) : Host.Outcome State Fault Refusal :=
  .next (if s.pwr.mode = .off ∨ code = 0 ∨ 5 < code then s
  else
    let s1 := (s.report { cls := 0x11, react := 3, page := pwrPage, cause := code } none).enterSafe
    let s2 := s1.persist 5 code
    let s3 := if held then s2.commitAll (s2.pst.queue.length + 1) else s2
    let s4 := s3.powerOff
    { s4 with pwr := { s4.pwr with protOff := true } })

end Sys2Proof.Machine
end

