-- ==== Sys2Proof/Machine/Mailbox.lean ====
section
/-! DEFINITION. The mailbox: standard and vendor commands, event logs, firmware slots and activation (R363 to R369, R431, R453 to
R462). Layouts and return codes that the spec takes from CXL 3.1 are PRESUMED (assumption log 22). -/

namespace Sys2Proof.Machine

/-! ### Commands and their answers (R363) -/

/-- Return codes. -/
def rcOk : Nat := 0
/-- Background Command Started. -/
def rcBackground : Nat := 1
/-- Invalid Input. -/
def rcInvalid : Nat := 2
/-- Unsupported. -/
def rcUnsupported : Nat := 3
/-- Busy. -/
def rcBusy : Nat := 6

/-- The agent has a mailbox that answers: the host over its link, the board management controller over MCTP. -/
def State.mboxUp (s : State) (ag : Agent) : Bool :=
  match ag with
  | .host => s.linkUp
  | .bmc => s.pwr.mctp
  | _ => false

/-- A command's answer; the host's doorbell completion is vector 0 (R369). -/
def State.reply (s : State) (ag : Agent) (c : Nat) (out : List Byte) : State :=
  let s1 := s.answer (.code c out)
  if ag = .host then s1.vector 0 else s1

/-- A command that completes at once: its code, its output, its effect. An agent without a mailbox sends none. -/
def State.mbox (s : State) (ag : Agent) (f : State → Nat × List Byte × State) : State :=
  if s.mboxUp ag then (f s).2.2.reply ag (f s).1 (f s).2.1 else s

/-! ### Event records (R365, R367, R368) -/

/-- Record identifiers, as their 16 bytes. -/
def uuidVendor : List Byte :=
  [0x5b, 0x0e, 0x7c, 0x2a, 0x91, 0xd4, 0x4f, 0x6e, 0xa3, 0xc8, 0x2d, 0x71, 0xf0, 0xb9, 0x4e, 0x16]
/-- General Media. -/
def uuidMedia : List Byte :=
  [0xfb, 0xcd, 0x0a, 0x77, 0xc2, 0x60, 0x41, 0x7f, 0x85, 0xa9, 0x08, 0x8b, 0x16, 0x21, 0xeb, 0xa6]
/-- DRAM. -/
def uuidDram : List Byte :=
  [0x60, 0x1d, 0xcb, 0xb3, 0x9c, 0x06, 0x4e, 0xab, 0xb8, 0xaf, 0x4e, 0x9b, 0xfb, 0x5c, 0x96, 0x24]

/-- The number of an event kind, for its free event code. -/
def EvKind.num : EvKind → Nat
  | .repairDone => 0 | .laneBad => 1 | .recFull => 2 | .ueLine => 3 | .pcFailed => 4 | .hostWriteDrop => 5 | .thermalStop => 6
  | .eqxStop => 7 | .portDown => 8 | .viral => 9 | .safeStop => 10 | .preemptCommitted => 11 | .noticeNoJob => 12 | .hazel => 13
  | .canopy => 14 | .snapAbandoned => 15 | .faultVendor => 16 | .persistNear => 17 | .persistLimit => 18 | .persistLost => 19
  | .injEnabled => 20 | .boot => 21 | .debug => 22 | .security => 23 | .firmware => 24 | .limit => 25 | .repairTrain => 26
  | .inputRange => 27 | .capUnmet => 28 | .groveWorn => 29 | .nandWear => 30 | .bootAlt => 31

/-- Table 15.9's record of a kind. -/
def EvKind.uuid : EvKind → List Byte
  | .repairDone => uuidDram
  | .laneBad => uuidDram
  | .pcFailed => uuidDram
  | .ueLine => uuidMedia
  | _ => uuidVendor

/-- Bytes 0x30 to 0x7F of a DRAM record (R368): channel, rank, bank group, bank, row, column at the places CXL gives them. -/
def dramBody (loc : Nat) : List Byte :=
  natLE 8 0 ++ natLE 3 0 ++ natLE 2 0x3F ++ natLE 1 (loc % 65536) ++ natLE 1 (loc / 2 ^ 16 % 2) ++ natLE 3 0 ++ natLE 1 (loc / 2 ^ 17 % 16) ++
    natLE 1 (loc / 2 ^ 21 % 4) ++ natLE 3 (loc / 2 ^ 24 % 2 ^ 24) ++ natLE 2 (loc / 2 ^ 48) ++ List.replicate 55 0

/-- Bytes 0x30 to 0x7F of a record. -/
def EvRec.body (r : EvRec) : List Byte :=
  match r.kind.uuid == uuidDram, r.kind.uuid == uuidMedia with
  | true, _ => dramBody r.loc.toNat
  | _, true => natLE 8 r.loc.toNat ++ List.replicate 72 0
  | _, _ =>
    (if r.frec.isEmpty then natLE 8 r.loc.toNat ++ natLE 8 r.data.toNat ++ List.replicate 48 0 else r.frec) ++
      natLE 2 (Config.eventCode r.kind.num).toNat ++ natLE 6 0 ++ natLE 8 r.step.toNat

/-- The 128 bytes of a record. -/
def EvRec.bytes (r : EvRec) : List Byte :=
  r.kind.uuid ++ natLE 1 0x80 ++ natLE 3 0 ++ natLE 2 r.handle ++ natLE 2 0 ++ natLE 8 r.time.toNat ++ natLE 16 0 ++ r.body

/-- An event log. -/
def State.evLog (s : State) (n : Nat) : EvLog := tabGet logDefault s.logs n

/-- GET_EVENT_RECORDS: up to 31 records, the oldest first. The times of the first and last overflow are not the spec's: free. -/
def execGetEventRecords (ag : Agent) (log : Fin 4) (s : State) : Host.Outcome State Fault Refusal :=
  .next (s.mbox ag fun s1 =>
    let l := s1.evLog log
    let rs := l.recs.take 31
    let flags := (if l.overflow = 0 then 0 else 1) + (if 31 < l.recs.length then 2 else 0)
    let times := if l.overflow = 0 then natLE 16 0 else natLE 8 (Config.elapsed s1.fresh).toNat ++ natLE 8 (Config.elapsed (s1.fresh + 1)).toNat
    (rcOk, natLE 2 flags ++ natLE 2 (min l.overflow 65535) ++ times ++ natLE 2 rs.length ++ natLE 10 0 ++ rs.flatMap EvRec.bytes,
      s1.draw.2.draw.2))

/-- CLEAR_EVENT_RECORDS: those named, or all with the overflow count; a handle that names none refuses the command. -/
def execClearEventRecords (ag : Agent) (log : Fin 4) (handles : Option (List Nat)) (s : State) : Host.Outcome State Fault Refusal :=
  .next (s.mbox ag fun s1 =>
    let l := s1.evLog log
    match handles with
    | none => (rcOk, [], { s1 with logs := tabSet logDefault s1.logs log { l with recs := [], overflow := 0 } })
    | some hs =>
      if hs.all fun h => l.recs.any fun r => r.handle == h then
        (rcOk, [], { s1 with logs := tabSet logDefault s1.logs log { l with recs := l.recs.filter fun r => !hs.contains r.handle } })
      else (rcInvalid, [], s1))

/-- The vector of a log's interrupt, 0 when it is not enabled. -/
def State.evVector (s : State) (n : Nat) : Nat := tabGet polDefault s.host.evPolicy n

/-- GET_EVENT_INTERRUPT_POLICY. -/
def execGetEventInterruptPolicy (ag : Agent) (s : State) : Host.Outcome State Fault Refusal :=
  .next (s.mbox ag fun s1 =>
    (rcOk, [0, 1, 2, 3].flatMap fun n => natLE 1 (if s1.evVector n = 0 then 0 else 1 + 16 * s1.evVector n), s1))

/-- SET_EVENT_INTERRUPT_POLICY: a vector of 1 to 4 for each log, 0 for none. -/
def execSetEventInterruptPolicy (ag : Agent) (info warn fail fatal : Nat) (s : State) : Host.Outcome State Fault Refusal :=
  .next (s.mbox ag fun s1 =>
    let vs := [(0, info), (1, warn), (2, fail), (3, fatal)]
    if vs.any fun e => decide (4 < e.2) then (rcInvalid, [], s1)
    else (rcOk, [], { s1 with host := { s1.host with evPolicy := vs.foldl (fun t e => tabSet polDefault t e.1 e.2) s1.host.evPolicy } }))

/-! ### Firmware (R402, R458 to R460) -/

/-- GET_FW_INFO: two slots, the one in use, the one of the next reset, online activation. Revision strings are free. -/
def execGetFwInfo (ag : Agent) (s : State) : Host.Outcome State Fault Refusal :=
  .next (s.mbox ag fun s1 =>
    let cur := s1.fld fBoot_SLOT
    let next := s1.fld fBoot_SLOT_PREF
    (rcOk, natLE 1 2 ++ natLE 1 (cur + 1 + (if next = cur then 0 else (next + 1) * 8)) ++ natLE 1 1 ++ natLE 13 0 ++
      (List.range 64).map (fun i => Config.freeByte (s1.fresh + i)), { s1 with fresh := s1.fresh + 64 }))

/-- A background command begins. -/
def State.background (s : State) (b : BgCmd) : State := { s with host := { s.host with bg := some b } }

/-- TRANSFER_FW, the whole image: it conflicts with every other background command. -/
def execTransferFw (ag : Agent) (slot : Fin 2) (image : Image) (s : State) : Host.Outcome State Fault Refusal :=
  .next (s.mbox ag fun s1 =>
    if s1.host.bg.isSome then (rcBusy, [], s1) else (rcBackground, [], s1.background (.transferFw ag slot image)))

/-- An image written into its place in a slot; in Retention the exit then runs BS1 (R380). -/
def State.putImage (s : State) (slot : Nat) (x : Image) : State :=
  if imgComps.contains x.comp then
    ({ s with sec := { s.sec with images := tabSet imgShipped s.sec.images (slot * 8 + x.comp) x },
              pwr := { s.pwr with imgChanged := s.pwr.imgChanged || s.pwr.mode == PMode.ret } }).syncSlots
  else s

/-- The snapshot store formatted: every generation of every series is gone (R365). -/
def State.formatStore (s : State) : State :=
  let s1 := (s.modSnp fun x => { x with gens := [], unagreed := none, partGen := false }).setFlag fNand_FORMATTED true
  ((s1.setFld fSnap_GEN_COMMITTED 0).setFld fSnap_GEN_AGREED 0).syncStore.wear

/-- BACKGROUND_COMMAND_DONE; an activation ends by its own commands. An image installed through the management interface also writes
CLR_FAIL (R394). -/
def execBackgroundCommandDone (s : State) : Host.Outcome State Fault Refusal :=
  let s1 := { s with host := { s.host with bg := none } }
  .next (match s.host.bg with
  | some (.transferFw ag slot x) => if ag = .bmc then (s1.putImage slot x).clrFailWrite else s1.putImage slot x
  | some .formatStore => s1.formatStore
  | _ => s)

/-- SLOT_PREF committed with the other boot options as they stand. -/
def State.commitSlot (s : State) (slot : Nat) : State :=
  let v := (s.pstPending 3).getD (s.fld fBoot_SLOT_PREF + 2 * s.fld fBoot_SHORT_TEST + 4 * s.fld fBoot_CONSERV)
  s.persist 3 (v / 2 * 2 + slot)

/-- R459: every image but the management firmware's has the digest of the running slot's, and that one passes the checks. -/
def State.onlineOk (s : State) (slot : Nat) : Bool :=
  ([2, 4, 5, 6, 7].all fun c => (s.image slot c).digest == (s.image (s.fld fBoot_SLOT) c).digest) && s.imageOk (s.image slot 3) 3

/-- ACTIVATE_FW. -/
def execActivateFw (ag : Agent) (slot : Fin 2) (online : Bool) (s : State) : Host.Outcome State Fault Refusal :=
  .next (s.mbox ag fun s1 =>
    if s1.host.bg.isSome then (rcBusy, [], s1)
    else if !online then (rcOk, [], s1.commitSlot slot)
    else if s1.pwr.mode = .service ∨ !s1.onlineOk slot then (rcInvalid, [], s1)
    else
      let s2 := s1.background (.activate slot)
      (rcOk, [], { s2 with pwr := { s2.pwr with mctp := false } }))

/-- SESSIONS counts the sessions of both transports. -/
def State.syncSessions (s : State) : State := s.setFld fSec_SESSIONS (s.sec.mctpSess + s.sec.doeSess)

/-- MGMT_FW_RUNNING: the new image runs (R460). -/
def execMgmtFwRunning (s : State) : Host.Outcome State Fault Refusal :=
  .next (match s.host.bg with
  | some (.activate slot) =>
    let s1 := (s.setFld fBoot_SLOT slot).commitSlot slot
    let s2 : State :=
      { s1 with host := { s1.host with bg := none }, pwr := { s1.pwr with mctp := true },
                sec := { s1.sec with mctpSess := 0, measured := tabSet digNone s1.sec.measured 3 (s1.image slot 3).digest } }
    (s2.syncSessions.syncFwset).event logInfo .firmware (BitVec.ofNat 64 slot) 0 []
  | _ => s)

/-- MGMT_FW_ACTIVATION_TIMEOUT: the previous image runs again. -/
def execMgmtFwActivationTimeout (s : State) : Host.Outcome State Fault Refusal :=
  .next (match s.host.bg with
  | some (.activate slot) =>
    ({ s with host := { s.host with bg := none }, pwr := { s.pwr with mctp := true } }).event logFail .firmware (BitVec.ofNat 64 slot) 0 []
  | _ => s)

/-! ### Time, logs, identity, health (Table 15.7) -/

/-- GET_TIMESTAMP. -/
def execGetTimestamp (ag : Agent) (s : State) : Host.Outcome State Fault Refusal :=
  .next (s.mbox ag fun s1 => (rcOk, natLE 8 s1.now.1.toNat, s1.now.2))

/-- SET_TIMESTAMP. -/
def execSetTimestamp (ag : Agent) (val : W64) (s : State) : Host.Outcome State Fault Refusal :=
  .next (s.mbox ag fun s1 => (rcOk, [], { s1 with host := { s1.host with tsBase := val } }))

/-- The opcodes of Tables 15.7, 15.8, 17.7 and 19.8. -/
def opcodes : List Nat :=
  [0x0100, 0x0101, 0x0102, 0x0103, 0x0200, 0x0201, 0x0202, 0x0300, 0x0301, 0x0400, 0x0401, 0x4000, 0x4200, 0xC000, 0xC001, 0xC002,
   0xC003, 0xC004, 0xC005, 0xC006, 0xC007, 0xC008, 0xC010, 0xC011, 0xC012, 0xC013, 0xC014, 0xC015, 0xC016, 0xC017]

/-- Opcodes that an interface takes: the register commands are the board management controller's (R451). -/
def opcodesOf (ag : Agent) : List Nat := if ag = .host then opcodes.filter fun c => c != 0xC016 && c != 0xC017 else opcodes

/-- The identifier of the Command Effects Log. -/
def uuidCel : List Byte :=
  [0x0d, 0xa9, 0xc0, 0xb5, 0xbf, 0x41, 0x4b, 0x78, 0x8f, 0x79, 0x96, 0xb1, 0x62, 0x3b, 0x3f, 0x17]

/-- GET_SUPPORTED_LOGS: the Command Effects Log. -/
def execGetSupportedLogs (ag : Agent) (s : State) : Host.Outcome State Fault Refusal :=
  .next (s.mbox ag fun s1 => (rcOk, natLE 2 1 ++ natLE 6 0 ++ uuidCel ++ natLE 4 (4 * (opcodesOf ag).length), s1))

/-- GET_LOG: the Command Effects Log, each command with its effects. -/
def execGetLog (ag : Agent) (s : State) : Host.Outcome State Fault Refusal :=
  .next (s.mbox ag fun s1 => (rcOk, (opcodesOf ag).flatMap fun c => natLE 2 c ++ natLE 2 (Config.effects c).toNat, s1))

/-- IDENTIFY_MEMORY_DEVICE: total and volatile-only capacity H in 256 MiB units, persistent capacity 0, logs of 256 records, poison
list and label storage 0 (R354). The firmware revision is free. -/
def execIdentifyMemoryDevice (ag : Agent) (s : State) : Host.Outcome State Fault Refusal :=
  .next (s.mbox ag fun s1 =>
    let h := s1.hdmBytes / 2 ^ 28
    (rcOk, (List.range 16).map (fun i => Config.freeByte (s1.fresh + i)) ++ natLE 8 h ++ natLE 8 h ++ natLE 8 0 ++ natLE 8 0 ++
      natLE 2 256 ++ natLE 2 256 ++ natLE 2 256 ++ natLE 2 256 ++ natLE 4 0 ++ natLE 3 0 ++ natLE 2 0 ++ natLE 1 0 ++ natLE 1 0,
      { s1 with fresh := s1.fresh + 16 }))

/-- GET_HEALTH_INFO: 18 bytes formed from each stack's temperature, its failed pseudo-channels and its repair record. -/
def execGetHealthInfo (ag : Agent) (s : State) : Host.Outcome State Fault Refusal :=
  .next (s.mbox ag fun s1 =>
    let basis := (List.range 8).flatMap fun n => [s1.fld (fMem_TEMP n), s1.failedPcs n, s1.fld (fProt_REC_ROWS n)]
    (rcOk, (List.range 18).map (Config.health basis), s1))

/-- UNSUPPORTED_COMMAND: an opcode that no table gives the interface (R364, R451). -/
def execUnsupportedCommand (ag : Agent) (opcode : BitVec 16) (s : State) : Host.Outcome State Fault Refusal :=
  .next (if (opcodesOf ag).contains opcode.toNat then s else s.mbox ag fun s1 => (rcUnsupported, [], s1))

/-! ### Vendor commands (Table 15.8) -/

/-- GET_PACKAGE_INFO: version, package ID, lifecycle, RSV_APPLIED, H, last boot stage. -/
def execGetPackageInfo (ag : Agent) (s : State) : Host.Outcome State Fault Refusal :=
  .next (s.mbox ag fun s1 =>
    (rcOk, natLE 2 0x0100 ++ natLE 2 s1.pkgId ++ natLE 1 (s1.fld fSec_LC) ++ natLE 1 s1.rsvGib ++ natLE 8 s1.hdmBytes ++
      natLE 1 (s1.fld fBoot_STAGE), s1))

/-- The root lies in the populated DRAM of an aperture, outside the reserve. -/
def State.rootOk (s : State) (root : Nat) : Bool :=
  decide (root % 4096 = 0) && (match s.place root with | .dram _ => true | _ => false)

/-- The return code of Job Start. A job cannot start before BS9 nor while the store is formatted. -/
def State.jobStartCode (s : State) (job root : Nat) : Nat :=
  if s.flag fPkg_JOB_PRESENT ∨ s.host.bg = some .formatStore then rcBusy
  else if job = 0 ∨ job = 0xFFFF ∨ !s.rootOk root ∨ s.pkgId = 0xFFFF ∨ s.pwr.mode ≠ .run then rcInvalid
  else rcOk

/-- JOB_START. -/
def execJobStart (ag : Agent) (job : BitVec 16) (root : W64) (s : State) : Host.Outcome State Fault Refusal :=
  .next (s.mbox ag fun s1 =>
    let c := s1.jobStartCode job.toNat root.toNat
    (c, [], if c = rcOk then s1.jobStart job.toNat root else s1))

/-- JOB_END: answered when it completes (R454). -/
def execJobEnd (ag : Agent) (job : BitVec 16) (s : State) : Host.Outcome State Fault Refusal :=
  .next (if s.mboxUp ag ∧ s.jobRuns ∧ s.jobId = job.toNat then s.jobEnd (some ag) else s.mbox ag fun s1 => (rcInvalid, [], s1))

/-- PRE_EMPT. -/
def execPreEmpt (ag : Agent) (s : State) : Host.Outcome State Fault Refusal :=
  .next (s.mbox ag fun s1 => (rcOk, [], s1.preempt 2 0))

/-- REGISTER_WINDOW: the only way to a LEND window (R270). -/
def execRegisterWindow (ag : Agent) (req : List Byte) (s : State) : Host.Outcome State Fault Refusal :=
  .next (s.mbox ag fun s1 =>
    let (c, i) := s1.winCheck req true
    (if c = 0 then rcOk else rcInvalid, natLE 8 (winResult c i), if c = 0 then s1.addWindow req i else s1))

/-- DEREGISTER_WINDOW: requests that the window has accepted go on at their homes. -/
def execDeregisterWindow (ag : Agent) (idx : Nat) (s : State) : Host.Outcome State Fault Refusal :=
  .next (s.mbox ag fun s1 =>
    if idx < 16384 ∧ (s1.window idx).valid then (rcOk, [], s1.dropWindow idx) else (rcInvalid, [], s1))

/-- An entry of the repair record (Table 15.8). -/
def Repair.entry : Repair → Nat
  | .lane p l => p + l * 2 ^ 27 + 2 ^ 31
  | .row p b w => p + b * 2 ^ 6 + w * 2 ^ 12

/-- GET_REPAIR_RECORD: the count of entries returned (8 bytes) and up to 511 entries. -/
def execGetRepairRecord (ag : Agent) (stack : Fin 8) (first : Nat) (s : State) : Host.Outcome State Fault Refusal :=
  .next (s.mbox ag fun s1 =>
    let es := ((((s1.stk stack).recLanes ++ (s1.stk stack).recRows).map Repair.entry).drop first).take 511
    (rcOk, natLE 8 es.length ++ es.flatMap fun e => natLE 8 e, s1))

/-- FORMAT_SNAPSHOT_STORE. -/
def execFormatSnapshotStore (ag : Agent) (s : State) : Host.Outcome State Fault Refusal :=
  .next (s.mbox ag fun s1 =>
    if s1.flag fPkg_JOB_PRESENT ∨ s1.host.bg.isSome then (rcBusy, [], s1) else (rcBackground, [], s1.background .formatStore))

/-- Records that the fault log retains. -/
def State.retained (s : State) : Nat := min 512 (s.fld fSafe_LOG_SEQ)

/-- GET_FAULT_LOG (R431). -/
def execGetFaultLog (ag : Agent) (p : Nat) (s : State) : Host.Outcome State Fault Refusal :=
  .next (s.mbox ag fun s1 =>
    let n := s1.retained
    if n < p then (rcInvalid, [], s1)
    else
      let oldest := s1.fld fSafe_LOG_SEQ + 1 - n
      let seqs := (List.range (min 63 (n - p))).map fun i => oldest + p + i
      (rcOk, natLE 2 seqs.length ++ natLE 2 n ++ natLE 4 0 ++ seqs.flatMap (fun q => s1.barBytes (faultSlot q) 64),
        { s1 with saf := { s1.saf with read := (s1.saf.read.filter fun q => decide (oldest ≤ q) && !seqs.contains q) ++ seqs } }))

end Sys2Proof.Machine
end

