-- ==== Sys2Proof/Machine/Security.lean ====
section
/-! DEFINITION. Authorisation records, debug sessions, attestation, sealing (R399 to R417, R451, R452). -/

namespace Sys2Proof.Machine

/-! ### Keys (R400, R401, R416) -/

/-- What CDI_1 depends on, as bytes: the running security firmware's digest and SVN, and the lifecycle. -/
def State.cdi (s : State) : List Byte :=
  tabGet digNone s.sec.measured 2 ++ natLE 1 (s.fld fSec_SVN_RUN) ++ natLE 1 (s.fld fSec_LC)

/-- The Alias key's number among the keys of the security controller. -/
def keyAlias : Nat := 3
/-- The derivation of the sealing key. -/
def keySeal : Nat := 1

/-- The sealing key: bound to CDI_1 and the owner digest. -/
def State.sealKey (s : State) : List Byte := Config.mac keySeal (s.cdi ++ s.sec.owner)

/-! ### Measurements (R406, R407) -/

/-- Measurement block 8 (Table 17.3). -/
def State.block8 (s : State) : List Byte :=
  natLE 1 (s.fld fSec_LC + 4 * s.fld fSec_DBG + 16 * s.fld fSec_SCOPE + 128 * s.fld fSec_OWNER_SET) ++
    natLE 1 (s.fld fSec_OWN_REQ + 2 * s.fld fBoot_SLOT) ++ natLE 1 (s.fld fSec_SVN_FUSE) ++ natLE 1 0 ++
    (s.sec.owner ++ List.replicate 8 0).take 8 ++ natLE 4 0

/-- The nine blocks: the boot ROM's digest is free, the firmware's are those measured, block 8 is raw. -/
def State.measurements (s : State) : List Byte :=
  (List.range 32).map (fun i => Config.freeByte (2 ^ 64 + i)) ++ imgComps.flatMap (fun c => tabGet digNone s.sec.measured c) ++ s.block8 ++
    sha3_256 (natLE 8 (s.fld fMode_FWSET))

/-- SPDM is served: over MCTP to the board management controller, over DOE to the host; a RETIRED package attests no more. -/
def State.spdmUp (s : State) (ag : Agent) : Bool := s.mboxUp ag && s.fld fSec_LC != 3

/-- The transport of an agent. -/
def transport (ag : Agent) : Nat := if ag = .host then 1 else 0

/-- An SPDM answer (message 0x500: the transport, the response code and its payload). -/
def State.spdm (s : State) (ag : Agent) (code : Nat) (body : List Byte) : State :=
  s.answer (.message 0x500 (transport ag) (natLE 1 code ++ body))

/-- SPDM_GET_MEASUREMENTS: the blocks, signed with the Alias key. -/
def execSpdmGetMeasurements (ag : Agent) (s : State) : Host.Outcome State Fault Refusal :=
  .next (if s.spdmUp ag then s.spdm ag 0x60 (s.measurements ++ Config.mac keyAlias (s.cdi ++ s.measurements)) else s)

/-- Live sessions of an agent's transport. -/
def State.sessionsOf (s : State) (ag : Agent) : Nat := if ag = .host then s.sec.doeSess else s.sec.mctpSess

/-- One more session of the transport. -/
def State.addSession (s : State) (ag : Agent) : State :=
  if ag = .host then { s with sec := { s.sec with doeSess := s.sec.doeSess + 1 } }
  else { s with sec := { s.sec with mctpSess := s.sec.mctpSess + 1 } }

/-- SPDM_KEY_EXCHANGE: two sessions per transport; a further one is answered with BusyResponder. -/
def execSpdmKeyExchange (ag : Agent) (s : State) : Host.Outcome State Fault Refusal :=
  .next (if s.spdmUp ag then
    if 2 ≤ s.sessionsOf ag then s.spdm ag 0x7F [0x03] else ((s.addSession ag).syncSessions).spdm ag 0x64 []
  else s)

/-! ### Nonce and debug session (R411, R415) -/

/-- GET_CHALLENGE. -/
def execGetChallenge (ag : Agent) (s : State) : Host.Outcome State Fault Refusal :=
  .next (s.mbox ag fun s1 =>
    let n := natLE 32 (Config.entropy s1.fresh).toNat
    (rcOk, n, { s1.draw.2 with sec := { s1.sec with nonce := some n } }))

/-- NONCE_EXPIRY. -/
def execNonceExpiry (s : State) : Host.Outcome State Fault Refusal := .next { s with sec := { s.sec with nonce := none } }

/-- An OPEN session ends. -/
def State.endDebug (s : State) : State := if s.fld fSec_DBG = 1 then s.closeDebug else s

/-- LOCK_DEBUG. -/
def execLockDebug (ag : Agent) (s : State) : Host.Outcome State Fault Refusal :=
  .next (s.mbox ag fun s1 => (rcOk, [], s1.endDebug))

/-- GET_SECURITY_STATE. -/
def execGetSecurityState (ag : Agent) (s : State) : Host.Outcome State Fault Refusal :=
  .next (s.mbox ag fun s1 => (rcOk, s1.block8, s1))

/-- DEBUG_SESSION_EXPIRY: the lifetime of the open session's record ends. -/
def execDebugSessionExpiry (s : State) : Host.Outcome State Fault Refusal := .next (if s.sec.lifetime then s.endDebug else s)

/-! ### Authorisation records (R411 to R413, R405, R409, R417) -/

/-- The fields of a record's header (Table 17.6). -/
structure AuthRec where
  kind : Nat
  noriskys : Bool
  own : Bool
  arg : Nat
  serial : Nat
  nonce : List Byte
  param : List Byte
  head : List Byte
  nsig : List Byte
  opub : List Byte
  osig : List Byte
  deriving DecidableEq, Repr

/-- A record from its bytes. -/
def authOf (b : List Byte) : AuthRec :=
  let sg := fieldLE b 3 1
  let o := if bitAt sg 0 then 128 + 3309 else 128
  { kind := fieldLE b 2 1, noriskys := bitAt sg 0, own := bitAt sg 1, arg := fieldLE b 4 4, serial := fieldLE b 8 16,
    nonce := sliceB b 0x18 32, param := sliceB b 0x38 32, head := sliceB b 0 128, nsig := sliceB b 128 3309, opub := sliceB b o 1952,
    osig := sliceB b (o + 1952) 3309 }

/-- Bits of ARG that a kind uses. -/
def authArgOk (kind arg : Nat) : Bool :=
  match kind with
  | 1 => decide (arg / 8 % 2 ^ 13 = 0)
  | 3 => decide (arg < 256)
  | 4 => decide (arg < 2)
  | 6 => decide (arg < 4)
  | _ => decide (arg = 0)

/-- BAD_RECORD. -/
def authBad (b : List Byte) : Bool :=
  let r := authOf b
  decide (b.length < 128) || fieldLE b 0 2 != 1 || decide (r.kind = 0) || decide (6 < r.kind) || decide (4 ≤ fieldLE b 3 1) ||
    !authArgOk r.kind r.arg || (r.kind != 4 && r.kind != 6 && r.param.any (· != 0)) || (sliceB b 0x58 40).any (· != 0) ||
    b.length != 128 + (if r.noriskys then 3309 else 0) + (if r.own then 5261 else 0)

/-- The signers that Table 17.8 requires are present, and the source may send the kind. -/
def State.authAllowed (s : State) (r : AuthRec) (ag : Agent) : Bool :=
  let lc := s.fld fSec_LC
  let set := s.flag fSec_OWNER_SET
  if lc ≠ 1 ∧ lc ≠ 2 then false
  else match r.kind with
    | 1 => !s.flag fSec_DBG_FUSE && (if lc = 1 then r.noriskys || r.own else r.noriskys && (r.own || !set))
    | 4 => if set then r.own else ag == .bmc
    | 5 => if set then r.own else ag == .bmc
    | 6 => r.own
    | _ => r.own || !set

/-- Every signature present verifies; the owner's public key hashes to the stored digest. -/
def State.authSigned (s : State) (r : AuthRec) : Bool :=
  (!r.noriskys || Config.sigVerify Config.noriskysKey r.head r.nsig) &&
    (!r.own || (s.flag fSec_OWNER_SET && sha3_256 r.opub == s.sec.owner && Config.sigVerify r.opub r.head r.osig))

/-- BAD_STATE: Retention, a job present for KIND 5, a fuse operation pending, a register at its write limit (Table 19.6). -/
def State.authStateBad (s : State) (r : AuthRec) : Bool :=
  s.pwr.mode == .ret || (r.kind == 5 && s.flag fPkg_JOB_PRESENT) || s.flag fSec_FUSE_PEND || (r.kind == 4 && s.flag (fPcnt_LIMIT 15)) ||
    (r.kind == 6 && s.flag (fPcnt_LIMIT (16 + r.arg % 4)))

/-- SVN_LIMIT (R405). -/
def State.svnBad (s : State) (v : Nat) : Bool :=
  decide (128 < v) || decide (lowest (s.slotSvns 0 ++ s.slotSvns 1) < v) || decide (v < s.fld fSec_SVN_FUSE)

/-- The refusal code of a record (Table 17.9) but for FUSE_FAIL, 0 when it passes. -/
def State.authCode (s : State) (b : List Byte) (ag : Agent) : Nat :=
  let r := authOf b
  if s.sec.recBad ∨ authBad b then 1
  else if r.serial ≠ s.fld fSec_SERIAL_LO + 2 ^ 64 * s.fld fSec_SERIAL_HI then 2
  else if s.sec.nonce ≠ some r.nonce then 3
  else if !s.authAllowed r ag then 4
  else if !s.authSigned r then 5
  else if s.authStateBad r then 6
  else if r.kind = 3 ∧ s.svnBad (r.arg % 256) then 7
  else 0

/-- A debug session opened in the scopes granted. -/
def State.openDebug (s : State) (arg : Nat) : State :=
  let s1 := (((s.setFld fSec_DBG 1).setFld fSec_SCOPE (arg % 8)).addSat fSec_UNLOCKS 1).event logWarn .debug (BitVec.ofNat 64 arg) 0 []
  { s1 with sec := { s1.sec with lifetime := arg / 65536 != 0, halted := [], stepping := [], breaks := [] } }

/-- A refused record. -/
def State.authRefuse (s : State) (code : Nat) : Nat × List Byte × State :=
  let s1 := (s.addSat fSec_REC_FAIL 1).setFld fSec_LAST_CODE code
  (rcInvalid, natLE 1 code, { s1 with sec := { s1.sec with nonce := none, record := [], recBad := false } })

/-- Block 8 follows the fuses of KIND 2 and 5. -/
def State.closeIf (s : State) (kind : Nat) : State := if kind = 3 then s else s.closeDebug

/-- A fuse operation of KIND 2, 3 or 5 and what follows it. Whether every fuse verifies is free: where one does not, the operation
stays recorded and the record is refused with FUSE_FAIL, an interrupted counter standing between its old and new values. -/
def State.authFuse (s : State) (r : AuthRec) : Nat × List Byte × State :=
  let v := if r.kind = 3 then r.arg % 256 else 0
  let s0 := (if r.kind = 3 then s else s.endDebug).fuseRecord r.kind v
  if Config.outcome s0.fresh then
    let s1 := ((s0.draw.2.fuseBlow r.kind v).fuseClear).closeIf r.kind
    (rcOk, [0], if r.kind = 5 then s1.retireActs.startAt .cold else s1)
  else
    let old := s0.fld fSec_SVN_FUSE
    let s1 := s0.draw.2
    let s2 := if r.kind = 3 then s1.draw.2.fuseBlow 3 (old + (Config.unstated s1.fresh).toNat % (v - old + 1)) else s1
    s2.authRefuse 8

/-- What an accepted record does. -/
def State.authAct (s : State) (r : AuthRec) : Nat × List Byte × State :=
  match r.kind with
  | 1 => (rcOk, [0], s.openDebug r.arg)
  | 4 => (rcOk, [0], (s.showOwner (ownerCode r.param (bitAt r.arg 0))).persist 15 (ownerCode r.param (bitAt r.arg 0)))
  | 6 => (rcOk, [0], (s.showAnchor (r.arg % 4) (anchorCode r.param)).persist (16 + r.arg % 4) (anchorCode r.param))
  | _ => s.authFuse r

/-- SUBMIT_RECORD: a part of at most 4,000 bytes. A part at offset 0 begins a record; the last one has it checked. -/
def execSubmitRecord (ag : Agent) (off : Nat) (last : Bool) (data : List Byte) (s : State) : Host.Outcome State Fault Refusal :=
  .next (s.mbox ag fun s1 =>
    let had := if off = 0 then [] else s1.sec.record
    let bad := (off != 0 && s1.sec.recBad) || off != had.length || decide (4000 < data.length)
    let s2 := { s1 with sec := { s1.sec with record := had ++ data, recBad := bad } }
    if !last then (rcOk, [0], s2)
    else
      let c := s2.authCode s2.sec.record ag
      if c ≠ 0 then s2.authRefuse c
      else
        let r := authOf s2.sec.record
        ({ s2 with sec := { s2.sec with nonce := none, record := [], recBad := false } }).authAct r)

/-! ### Sealing (R416, R451, R452) -/

/-- A sealing command's answer: its code and three reserved bytes, then its output. -/
def sealAnswer (s : State) (code : Nat) (out : List Byte) : Nat × List Byte × State :=
  (if code = 0 then rcOk else rcInvalid, natLE 4 code ++ out, s)

/-- The lifecycle allows no sealing. -/
def State.noSeal (s : State) : Bool := s.fld fSec_LC == 0 || s.fld fSec_LC == 3

/-- Bytes combined with the key stream. -/
def gcmApply (key : List Byte) (iv : BitVec 96) (data : List Byte) : List Byte :=
  (List.range data.length).map fun i => data.getD i 0 ^^^ Config.gcmStream key iv i

/-- The first 32 bytes of a blob (Table 19.9). -/
def blobHead (n : Nat) (label : List Byte) (iv : BitVec 96) : List Byte :=
  natLE 2 1 ++ natLE 2 n ++ natLE 4 0 ++ (label ++ List.replicate 8 0).take 8 ++ natLE 12 iv.toNat ++ natLE 4 0

/-- SEAL. -/
def execSealBlob (ag : Agent) (label : List Byte) (data : List Byte) (s : State) : Host.Outcome State Fault Refusal :=
  .next (s.mbox ag fun s1 =>
    let n := data.length
    if n = 0 ∨ 4032 < n then sealAnswer s1 1 []
    else if s1.noSeal then sealAnswer s1 2 []
    else
      let iv := (Config.entropy s1.fresh).setWidth 96
      let head := blobHead n label iv
      let ct := gcmApply s1.sealKey iv data
      sealAnswer s1.draw.2 0 (head ++ ct ++ natLE 16 (Config.gcmTag s1.sealKey iv head ct).toNat))

/-- BAD_BLOB. -/
def blobBad (b : List Byte) : Bool :=
  let n := fieldLE b 2 2
  decide (b.length < 48) || n == 0 || decide (4032 < n) || fieldLE b 4 4 != 0 || fieldLE b 0x1C 4 != 0 ||
    b.length != 48 + n

/-- UNSEAL. -/
def execUnsealBlob (ag : Agent) (blob : List Byte) (s : State) : Host.Outcome State Fault Refusal :=
  .next (s.mbox ag fun s1 =>
    let n := fieldLE blob 2 2
    let iv := BitVec.ofNat 96 (fieldLE blob 0x10 12)
    let ct := sliceB blob 0x20 n
    if blobBad blob then sealAnswer s1 1 []
    else if s1.noSeal ∨ s1.fld fSec_DBG = 1 then sealAnswer s1 2 []
    else if (Config.gcmTag s1.sealKey iv (sliceB blob 0 32) ct).toNat ≠ fieldLE blob (0x20 + n) 16 then sealAnswer s1 3 []
    else sealAnswer s1 0 (gcmApply s1.sealKey iv ct))

end Sys2Proof.Machine
end

