-- ==== Sys2Proof/Machine/Restore.lean ====
section
/-! DEFINITION. Restore of a generation from the store (R346 to R348). -/

namespace Sys2Proof.Machine

/-! ### The tensors of a manifest -/

/-- A tensor of a manifest: the chain of its shards, base first, or its replica reference. -/
structure RTensor where
  va : Nat
  len : Nat
  id : Nat
  place : W64
  chain : List Shard
  deriving DecidableEq, Repr

/-- The tensors in the manifest's order; the entry written last gives the placement. -/
def SManifest.tensors (m : SManifest) : List RTensor :=
  ((m.shards.map fun x => x.id).eraseDups).filterMap fun i =>
    let c := m.shards.filter fun x => x.id == i
    match c.getLast? with
    | some x => some { va := x.va, len := x.len, id := i, place := x.place, chain := c }
    | none => none

/-- The tensor is a replica reference. -/
def RTensor.replica (t : RTensor) : Bool := t.chain.any fun x => x.kind == 2

/-- The manifest verifies with this package's identity key. -/
def State.verifies (s : State) (m : SManifest) : Bool := !s.sec.udsGone && m.sig == Config.mac keyIdentity m.bytes

/-- SHAPE (Table 14.10): package, members, rank, group key, reserve. -/
def State.shapeOk (s : State) (m : SManifest) : Bool :=
  let sol := s.flag fSnap_SOL_EN
  let g := s.grp (s.fld fSnap_SOL_GROUP)
  m.pkg == s.pkgId && m.nmem == (if sol then g.nmem else 1) && m.rank == (if sol then g.rank else 0) &&
    m.gkey == (if sol then g.gkey else 0) && m.rsv == s.rsvGib

/-- Requests to a granule of a tensor wait (R161, R172). -/
def State.granStalled (s : State) (g : GranAt) : Bool := (List.range 64).any fun i => s.lineStalled (g.key / 64 + i)

/-- The checks of step 3 over the tensors in turn: a code, and the granules of each; a wait where a table or a granule waits for a
stack. -/
def State.placeCheck (s : State) : List RTensor → Found (Nat × List (List GranAt)) × State
  | [] => (.ok (0, []), s)
  | t :: rest =>
    match s.gransAt (t.len / 4096) t.va with
    | (.stall, s1) => (.stall, s1)
    | (.bad, s1) => (.ok (7, []), s1)
    | (.ok gs, s1) =>
      if placeDigest gs ≠ t.place then (.ok (7, []), s1)
      else if gs.any fun g => s1.protectedKey g.key 4096 then (.ok (8, []), s1)
      else if gs.any s1.granStalled then (.stall, s1)
      else match s1.placeCheck rest with
        | (.ok (0, l), s2) => (.ok (0, gs :: l), s2)
        | x => x

/-- The checks of Table 14.10 in their order. -/
def State.restoreCheck (s : State) (m : SManifest) : Found (Nat × List (List GranAt)) × State :=
  if !s.verifies m then (.ok (4, []), s)
  else if !s.shapeOk m then (.ok (5, []), s)
  else if m.config ≠ s.configBits then (.ok (6, []), s)
  else s.placeCheck m.tensors

/-! ### Writing a tensor -/

/-- One 4 KiB granule of a unit written. -/
def State.putGran (s : State) (gs : List GranAt) (g : Nat) (data : List Byte) : State :=
  match gs[g]? with
  | some x => s.homeWrite .none x.key data
  | none => s

/-- One unit written: sixteen granules. -/
def State.putUnit (s : State) (gs : List GranAt) (unit : Nat) (data : List Byte) : State :=
  (List.range 16).foldl (fun t i => t.putGran gs (16 * unit + i) (sliceB data (4096 * i) 4096)) s

/-- The poison pattern rewritten on a listed line (tensor offset). -/
def State.putPoison (s : State) (gs : List GranAt) (off : Nat) : State :=
  match gs[off / 4096]? with
  | some x => s.setPoison ((x.key + off % 4096) / 64) true
  | none => s

/-- A shard written over the tensor. -/
def State.putShard (s : State) (gs : List GranAt) (x : Shard) : State :=
  let s1 := (x.idx.zip (List.range x.idx.length)).foldl (fun t u => t.putUnit gs u.1 (sliceB x.data (65536 * u.2) 65536)) s
  x.poison.foldl (fun t o => t.putPoison gs o) s1

/-- The chain of a tensor read and written in order: each read may be uncorrectable (a free outcome), and its digest is compared. -/
def State.putChain (s : State) (gs : List GranAt) : List Shard → Nat × State
  | [] => (0, s)
  | x :: rest =>
    let s1 := s.draw.2
    if Config.outcome s.fresh then (0x0A, s1.inc fNand_READ_UNCORR)
    else if sha3_256 x.bytes ≠ x.digest then (0x09, s1)
    else (s1.putShard gs x).putChain gs rest

/-- Bytes of a tensor made free (R346: undefined contents). -/
def State.freeTensor (s : State) (gs : List GranAt) : State :=
  let k := s.fresh
  (List.range gs.length).foldl (fun t i => t.putGran gs i ((List.range 4096).map fun b => Config.freeByte (k + 4096 * i + b)))
    { s with fresh := k + 4096 * gs.length }

/-- Step 4 over the tensors that the store holds. -/
def State.putTensors (s : State) : List (RTensor × List GranAt) → Nat × State
  | [] => (0, s)
  | (t, gs) :: rest =>
    match (if t.replica then (0, s) else s.putChain gs t.chain) with
    | (0, s1) => s1.putTensors rest
    | x => x

/-! ### Replicas (step 6) -/

/-- The window of a replica's writer, as the tensor table names it. -/
def State.replicaWin (s : State) (t : RTensor) : Found Nat × State :=
  match s.tensorTable with
  | (.ok _, ts, s1) =>
    (match ts.find? fun e => e.id == t.id && e.repl with
     | some e => (.ok e.replWin, s1)
     | none => (.bad, s1))
  | (.stall, _, s1) => (.stall, s1)
  | (_, _, s1) => (.bad, s1)

/-- The writer's package. -/
def RTensor.writer (t : RTensor) : Nat := (t.chain.getLast?.map fun x => x.writer).getD 0

/-- A replica fetched from its writer through REPL_WIN, at the tensor's offsets: 0 once it is written and its digest is the writer's
(`digests`: the answers to the requests on VC3), REPLICA where the writer cannot be reached, a line of it is uncorrectable or the digest
differs; a wait while answers are out. -/
def State.putReplica (s : State) (digests : List (W64 × List Byte)) (t : RTensor) : Found Nat × State :=
  match s.gransAt (t.len / 4096) t.va, s.replicaWin t with
  | (.stall, s1), _ => (.stall, s.undo s1)
  | _, (.stall, s1) => (.stall, s.undo s1)
  | (.ok gs, _), (.ok w, _) =>
    if gs.any s.granStalled then (.stall, s)
    else match s.repairRead ((List.range (t.len / 4096)).map fun i => (t.writer * 2 ^ 48 + w * 2 ^ 34 + 4096 * i, 4096)) with
      | (.stall, s1) => (.stall, s1)
      | (.ok b, s1) =>
        let s2 := ((List.range gs.length).foldl (fun u i => u.putGran gs i (sliceB b (4096 * i) 4096)) s1).dropGot .repair
        (.ok (if (digests.find? fun d => d.1.toNat == t.id).map (·.2) = some (sha3_256 b) then 0 else 0x0B), s2)
      | (_, s1) => (.ok 0x0B, s1.dropGot .repair)
  | _, _ => (.ok 0x0B, s)

/-- The replicas of a manifest in turn: the first failure, or those left when one must wait. -/
def State.putReplicas (s : State) (digests : List (W64 × List Byte)) (ts : List RTensor) : List Nat → (Nat × List Nat) × State
  | [] => ((0, []), s)
  | i :: rest =>
    match ts.find? fun t => t.id == i with
    | none => s.putReplicas digests ts rest
    | some t =>
      match s.putReplica digests t with
      | (.ok 0, s1) => s1.putReplicas digests ts rest
      | (.ok c, s1) => ((c, []), s1)
      | (_, s1) => ((0, i :: rest), s1)

/-! ### The restore -/

/-- A restore is over: RCODE, RESTORING clear; the job is blocked until one succeeds. -/
def State.restoreEnd (s : State) (code : Nat) : State :=
  ((s.setFld fSnap_RCODE code).setFlag fSnap_RESTORING false).modSnp fun x => { x with rest := none, blocked := decide (code ≠ 0) }

/-- The generation chosen: RESTORE_GEN, or the newest agreed one; none where it is not agreed or not held. -/
def State.restoreGen (s : State) (named : Nat) : Option SManifest :=
  let g := if named = 0 then s.fld fSnap_GEN_AGREED else named
  if g = 0 ∨ s.fld fSnap_GEN_AGREED < g then none else s.snp.gens.find? fun m => m.gen == g

/-- The restore goes on: its own code, and where it stands. -/
def State.restoreAt (s : State) (m : SManifest) (code : Nat) (st : RestStage) : State :=
  s.modSnp fun x => { x with rest := some { waiting := none, code := code, man := some m, stage := st } }

/-- A barrier of the restore that ORs this member's failure flag. -/
def State.restoreBarrier (s : State) (m : SManifest) (code : Nat) (st : RestStage) : State :=
  (if s.flag fSnap_SOL_EN then
    s.hzBoundary (s.fld fSnap_SOL_GROUP) [10] [BitVec.ofNat 64 (decide (code ≠ 0)).toNat] else s).restoreAt m code st

/-- Steps 3 to 5 with the manifest chosen: the threads of the job end, the checks, the shards, the barrier, and the requests for the
digests of replicas. What must wait for a stack is taken up again. -/
def State.restoreRun (s : State) (m : SManifest) : State :=
  let s0 := s.endThreads
  let s1 := if s0.bnd.phase = .stopped then s0 else s0.toPhase .none
  match s1.restoreCheck m with
  | (.ok (c, gs), s2) =>
    let (code, s3) := if c ≠ 0 then (c, s2) else s2.putTensors (m.tensors.zip gs)
    let ask := if code = 0 then m.tensors.filter RTensor.replica else []
    (ask.foldl (fun t r => t.answer (.message 0x601 r.writer (natLE 8 r.id))) s3).restoreBarrier m code .barrier
  | (_, s2) => (s1.undo s2).restoreAt m 0 .shards

/-- Step 2 with the operation's result: the lowest and highest committed generation and RESTORE_GEN of the members. -/
def State.restoreAgreed (s : State) (lo hi gmin gmax : Nat) : State :=
  let s1 := s.agreement hi lo
  if gmin ≠ gmax then s1.restoreEnd 2
  else match s1.restoreGen gmin with
    | none => s1.restoreEnd 3
    | some m => s1.restoreRun m

/-- Step 2: with SOL_EN the operation's result, where it does not end in ERROR (PEER); without it the package's own values. -/
def State.restoreStart (s : State) (err : Option Nat) (vals : List W64) : State :=
  let own := [BitVec.ofNat 64 (s.fld fSnap_GEN_COMMITTED), BitVec.ofNat 64 (s.fld fSnap_GEN_COMMITTED),
    BitVec.ofNat 64 (s.fld fSnap_RESTORE_GEN), BitVec.ofNat 64 (s.fld fSnap_RESTORE_GEN)]
  let gid := s.fld fSnap_SOL_GROUP
  if s.flag fSnap_SOL_EN then
    let s1 := s.hzBoundary gid [5, 6, 5, 6] own
    match s1.hzResult err.isSome vals with
    | some [a, b, c, d] => (s1.hzTaken gid none).restoreAgreed a.toNat b.toNat c.toNat d.toNat
    | _ => (s1.hzTaken gid err).restoreEnd 0x0C
  else s.restoreAgreed (s.fld fSnap_GEN_COMMITTED) (s.fld fSnap_GEN_COMMITTED) (s.fld fSnap_RESTORE_GEN) (s.fld fSnap_RESTORE_GEN)

/-- A thread of the job is READY or WAIT. -/
def State.jobActive (s : State) : Bool := s.thr.ctxs.any fun e => e.2.st == .ready || e.2.st == .wait

/-- RESTORE written: refused while a thread runs or no job is present; otherwise it starts, after the snapshot in progress. One that
finds a restore in progress has no effect. -/
def State.restoreWrite (s : State) (err : Option Nat) (vals : W64 × W64 × W64 × W64) : State :=
  if !s.jobRuns ∨ s.jobActive then s.setFld fSnap_RCODE 1
  else if s.snp.rest.isSome then s
  else
    let s1 := s.setFlag fSnap_RESTORING true
    if s1.snp.job.isSome then
      s1.modSnp fun x => { x with rest := some { waiting := some (err, vals), code := 0, man := none, stage := .shards } }
    else s1.restoreStart err [vals.1, vals.2.1, vals.2.2.1, vals.2.2.2]

/-- A restore that waited for the snapshot in progress goes on when it has ended. -/
def State.resumeRestore (s : State) : State :=
  match s.snp.job, s.snp.rest with
  | none, some { waiting := some (err, v), code := _, man := _, stage := _ } =>
    (s.modSnp fun x => { x with rest := none }).restoreStart err [v.1, v.2.1, v.2.2.1, v.2.2.2]
  | _, _ => s

/-- Tensors of a failed restore whose places are known: their contents are undefined. -/
def State.spoilTensors (s : State) : List RTensor → State
  | [] => s
  | t :: rest =>
    match s.gransAt (t.len / 4096) t.va with
    | (.ok gs, s1) => (s1.freeTensor gs).spoilTensors rest
    | (_, s1) => s1.spoilTensors rest

/-- The restore is over on every member: success sets the step counter, clears STOPPED and releases the job (R348); otherwise this
member's own code, or PEER. -/
def State.restoreFinish (s : State) (m : SManifest) (own : Nat) (peerFailed : Bool) : State :=
  let code := if own ≠ 0 then own else if peerFailed then 0x0C else 0
  if code = 0 then
    ((((s.setFld fPkg_STEP m.step.toNat).setFlag fEqx_STOPPED false).toPhase .none).restoreEnd 0).releaseWaiting
  else (s.spoilTensors m.tensors).restoreEnd code

/-- A barrier's flag: the tree's result where it has come, else the command's operand; an ERROR is a failure. -/
def State.barrierFailed (s : State) (peerFailed : Bool) : Bool :=
  match s.hzResult false [if peerFailed then 1 else 0] with
  | some [0] => false
  | _ => true

/-- Step 7: without SOL_EN the restore is over; with it the last barrier goes out, and a result that is there at once ends it. -/
def State.restoreLast (s : State) (m : SManifest) (code : Nat) : State :=
  if !s.flag fSnap_SOL_EN then s.restoreFinish m code false
  else
    let s1 := s.restoreBarrier m code .last
    if s1.bnd.result.isSome then
      (s1.hzTaken (s1.fld fSnap_SOL_GROUP) none).restoreFinish m code (s1.barrierFailed false)
    else s1

/-- Step 6, then step 7. A replica that waits is taken up again. -/
def State.restoreReplicas (s : State) (m : SManifest) (code : Nat) (digests : List (W64 × List Byte)) (ids : List Nat) : State :=
  if code ≠ 0 then s.restoreLast m code
  else match s.putReplicas digests m.tensors ids with
    | ((0, []), s1) => s1.restoreLast m 0
    | ((0, left), s1) => s1.restoreAt m 0 (.replicas left)
    | ((c, _), s1) => s1.restoreLast m c

/-- RESTORE_COMPLETE: a barrier of the restore is complete, that of step 5 or the last: `peers` is none where a member failed, else
the full-shard digests the writers have answered (message 0x600). After a failure anywhere no replica is fetched. Step 3 or 6 where it
had to wait is taken up again. -/
def execRestoreComplete (peers : Option (List (W64 × List Byte))) (s : State) : Host.Outcome State Fault Refusal :=
  let peerFailed := peers.isNone
  let digests := peers.getD []
  let s0 := s.resumeRestore
  .next (match s0.snp.rest with
  | some { waiting := none, code := code, man := some m, stage := st } =>
    let sol := s0.flag fSnap_SOL_EN
    (match st with
     | .shards => s0.restoreRun m
     | .barrier =>
       let failed := sol && s0.barrierFailed peerFailed
       let s1 := if sol then s0.hzTaken (s0.fld fSnap_SOL_GROUP) none else s0
       if failed then s1.restoreLast m (if code ≠ 0 then code else 0x0C)
       else s1.restoreReplicas m code digests ((m.tensors.filter RTensor.replica).map (·.id))
     | .replicas ids => s0.restoreReplicas m code digests ids
     | .last => (s0.hzTaken (s0.fld fSnap_SOL_GROUP) none).restoreFinish m code (s0.barrierFailed peerFailed))
  | _ => s0)

/-- SHARD_DIGEST_REQUEST: the digest of this writer's full shard of a tensor, in the generation it restores or its newest, answered
with message 0x600 to the requester; no shard, an empty answer. -/
def execShardDigestRequest (requester : Nat) (tensor : W64) (s : State) : Host.Outcome State Fault Refusal :=
  let man := match s.snp.rest with
    | some r => (match r.man with | some m => some m | none => s.snp.gens.getLast?)
    | none => s.snp.gens.getLast?
  let d := match man with
    | some m => ((m.shards.find? fun x => x.id == tensor.toNat && x.kind == 0).map fun x => x.digest).getD []
    | none => []
  .next (s.answer (.message 0x600 requester d))

end Sys2Proof.Machine
end

