-- ==== Sys2Proof/Machine/SnapOps.lean ====
section
/-! DEFINITION. Commands of a snapshot in progress: unit copies, shards, commit, cancellation (R338 to R342). A restore that waits for
the snapshot goes on when it has ended (R346). -/

namespace Sys2Proof.Machine

/-- SNAPSHOT_UNIT_COPY. -/
def execSnapshotUnitCopy (s : State) : Host.Outcome State Fault Refusal :=
  .next (State.resumeRestore <| match s.snp.job with
  | none => s
  | some j =>
    match s.snp.flying with
    | some c => if s.fab.ctxs.any fun x => x.use == .pool then s else s.unitCopied c
    | none =>
      match s.snp.nextUnit with
      | none => s
      | some u =>
        if u.lines.any s.lineStalled then s
        else if j.tier = 1 then
          if s.reserveRoom u then
            let ((d, bad, _), s1) := s.unitLines u.lines ([], [], u.index * 65536)
            s1.unitCopied ⟨u, d, bad⟩
          else s
        else match s.poolEntries with
          | (.stall, s1) => s.undo s1
          | (.bad, s1) => s1.snapFail 0x11
          | (.ok es, s1) =>
            match s1.poolOff es with
            | none => s
            | some off =>
              match poolAddr es off with
              | none => s1.snapFail 0x11
              | some addr =>
                let ((d, bad, _), s2) := s1.unitLines u.lines ([], [], u.index * 65536)
                (s2.unitPut ⟨u, d, bad⟩ addr 256).getD s)

/-- STALL_LIMIT (R340): a write has waited on a protected unit for 500 ms; nothing where none waits. -/
def execStallLimit (s : State) : Host.Outcome State Fault Refusal :=
  .next (if s.snp.job.isSome ∧ !s.snp.stalled.isEmpty then ((s.snapFail 0x10).inc fSnap_ABANDONS).resumeRestore else s)

/-- SHARD_DRAIN: what the first tier holds of the next tensor in copy order is read out, which frees its space; when all of the
tensor's units are, its shard is complete. -/
def execShardDrain (progFail : Bool) (s : State) : Host.Outcome State Fault Refusal :=
  .next (State.resumeRestore <| match s.snp.job with
  | none => s
  | some j =>
    match j.toDrain with
    | [] => s
    | t :: _ =>
      let mine := s.snp.copied.filter fun c => c.unit.tensor == t.id
      let more := s.snp.units.any fun u => u.tensor == t.id
      if mine.isEmpty ∧ more then s
      else
        let (ended, s1) := if progFail then s.progFailure else (false, s)
        if ended then s1
        else
          let t1 := { t with drained := t.drained ++ mine }
          let sh := t1.toShard j.gen (Config.unstated s1.fresh)
          if !more ∧ s1.fld fNand_FREE < j.written + sh.sbytes then s1.snapFail 0x14
          else
            let t2 := if more then t1 else { t1 with shard := some sh, drained := [] }
            (s1.draw.2.modSnp fun x =>
              { x with copied := x.copied.filter (fun c => c.unit.tensor != t.id),
                       job := some { j with tensors := j.tensors.map fun u => if u.id = t.id then t2 else u } }).syncSnap.wear)

/-- SNAPSHOT_COMMIT: nothing while units or shards remain; a snapshot that met safe stop or a detection ends so instead. -/
def execSnapshotCommit (s : State) : Host.Outcome State Fault Refusal :=
  .next (State.resumeRestore <| match s.snp.job with
  | none => s
  | some j =>
    if s.snp.doomed ≠ 0 then s.snapEnd s.snp.doomed
    else if !s.snp.units.isEmpty ∨ s.snp.flying.isSome ∨ !j.toDrain.isEmpty then s
    else
      let s1 := (s.modSnp fun x =>
        { x with gens := x.gens ++ [s.manifest j], job := none, copied := [], stalled := [], unagreed := some (j.gen, j.taken) }).syncStore
      let s2 := ((s1.setFld fSnap_GEN_COMMITTED j.gen).setFld fSnap_CODE 0).syncSnap
      let s3 := if j.preempt then
          let s4 := s2.event logInfo .preemptCommitted (BitVec.ofNat 64 j.gen) j.step []
          let s5 := { s4 with bnd := { s4.bnd with holdDue := s4.flag fSnap_HOLD_AFTER } }
          if s5.fld fSnap_SRC = 3 then s5.answer (.message 0x200 s5.snp.src (natLE 8 j.gen ++ natLE 8 j.step.toNat)) else s5
        else s2
      if s3.flag fSnap_SOL_EN then s3 else s3.agree j.gen)

/-- CANCEL written (Table 14.11). -/
def State.snapCancel (s : State) : State := (s.snapEnd 0x17).resumeRestore

end Sys2Proof.Machine
end

