-- ==== Sys2Proof/Machine/Vector.lean ====
section
/-! DEFINITION. Algon-V (R71 to R76): vector length, masks, reductions, and the power of the vector units of control cores. -/

namespace Sys2Proof.Machine

/-! ### Power of the vector units (R75, R76) -/

/-- The key of core `c`'s vector unit among the units that are waking. -/
def vecWakeKey (c : Nat) : Nat := 0x10000 + c

/-- The unit is waking. -/
def State.vecWaking (s : State) (c : Nat) : Bool := s.pwr.waking.contains (vecWakeKey c)

/-- A wake begins, unless the unit is powered or waking. -/
def State.vecWake (s : State) (c : Nat) : State :=
  if s.flag (fVec_AWAKE c) ∨ s.vecWaking c then s else { s with pwr := { s.pwr with waking := s.pwr.waking ++ [vecWakeKey c] } }

/-- VECTOR_POWER_DOWN: 48,000 cycles have passed without an Algon-V instruction of the core; HOLD keeps it powered. -/
def execVectorPowerDown (core : Fin 48) (s : State) : Host.Outcome State Fault Refusal :=
  .next (if s.flag (fVec_HOLD core) then s else s.setFlag (fVec_AWAKE core) false)

/-- VECTOR_WAKE_DONE: 1,500 cycles after the wake began. -/
def execVectorWakeDone (core : Fin 48) (s : State) : Host.Outcome State Fault Refusal :=
  .next (if s.vecWaking core then
      ({ s with pwr := { s.pwr with waking := s.pwr.waking.filter (· != vecWakeKey core) } }).setFlag (fVec_AWAKE core) true
    else s)

/-- HOLD written: set on a powered-down unit it starts a wake. -/
def State.vecHold (s : State) (c : Nat) (hold : Bool) : State :=
  let s1 := s.setFlag (fVec_HOLD c) hold
  if hold then s1.vecWake c else s1

/-- The core of a control thread. -/
def vecCore (t : Tid) : Nat := t.num / 2

/-- An Algon-V instruction: on a control core it waits for the vector unit; its faults come after the wake. -/
def State.vecInsn (s : State) (t : Tid) (i : Instr) (work : Bool) (body : State → TRes) : State :=
  s.issue t i { work := work } fun s1 =>
    if t.kind = .grove then .fault s1 { code := 0x21 }
    else if t.kind = .control ∧ !s1.flag (fVec_AWAKE (vecCore t)) then .wait (s1.vecWake (vecCore t)) .cond
    else body s1

/-! ### Length and tails (R71, R72) -/

/-- Elements of width `w` in one vector register of a kind. -/
def vecLen (k : TKind) (w : Nat) : Nat := vlBytes k / w

/-- Element `i` of width `w` of a vector register. -/
def vecEl (v : BitVec 1024) (w i : Nat) : Nat := (v.toNat >>> (8 * w * i)) % 2 ^ (8 * w)

/-- An element of a vector register replaced. -/
def setVecEl (v : BitVec 1024) (w i x : Nat) : BitVec 1024 := BitVec.ofNat 1024 (putBits v.toNat (8 * w * i) (8 * w) x)

/-- VLEN. -/
def execVlen (t : Tid) (w : MemW) (d : Reg) (s : State) : Host.Outcome State Fault Refusal :=
  .next (s.vecInsn t (.vlen t w d) false fun s1 =>
    .done (s1.modCtx t fun c => c.sa d (BitVec.ofNat 64 (vecLen t.kind w.bytes))))

/-- KTAIL: bits below the element count where a + i < b as 64-bit values, every other bit clear. -/
def execKtail (t : Tid) (w : MemW) (k : Fin 8) (a b : Reg) (s : State) : Host.Outcome State Fault Refusal :=
  .next (s.vecInsn t (.ktail t w k a b) false fun s1 =>
    if k = 0 then .fault s1 { code := 0x21 }
    else
      let c := s1.ctx t
      let m := (List.range (vecLen t.kind w.bytes)).foldl
        (fun m i => if c.ga a + BitVec.ofNat 64 i < c.ga b then m + 2 ^ i else m) 0
      .done (s1.setCtx t (c.sk k (BitVec.ofNat 128 m))))

/-- Element-wise vector arithmetic under a lane mask (R72): `op i` is the result of element `i`; an inactive element keeps its value, or
with the fill bit becomes zero. The table has no row for these instructions (assumption log 126). -/
def Ctx.vecArith (c : Ctx) (t : Tid) (w d k : Nat) (fill : Bool) (op : Nat → Nat × Flags) : Ctx :=
  (List.range (vecLen t.kind w)).foldl (fun x i =>
    if (c.gk k).getLsbD i then (x.sv d (setVecEl (x.gv d) w i (op i).1)).raise (op i).2
    else if fill then x.sv d (setVecEl (x.gv d) w i 0) else x) c

/-! ### Reductions (R74) -/

/-- Bytes of a scalar format. -/
def fwBytes : FW → Nat
  | .d => 8
  | .s => 4
  | .h => 2

/-- The elements of a vector register with their activity. -/
def vecEls (t : Tid) (c : Ctx) (w b k : Nat) : List (Option Nat) :=
  (List.range (vecLen t.kind w)).map fun i => if (c.gk k).getLsbD i then some (vecEl (c.gv b) w i) else none

/-- A reduction that writes an f register, under a mode that arithmetic takes. -/
def State.vfred (s : State) (t : Tid) (i : Instr) (rm d : Nat) (f : Nat → Ctx → Nat × Flags) : State :=
  s.vecInsn t i false fun s1 =>
    let c := s1.ctx t
    let m := c.effRm rm
    if 4 < m then .fault s1 { code := 0x21 } else .done (s1.setCtx t (c.putF d (f m c)))

/-- VFRED.O: from the scalar operand, ascending. -/
def execVfredO (t : Tid) (f : FW) (rm : Fin 8) (d a b : Reg) (k : Fin 8) (s : State) : Host.Outcome State Fault Refusal :=
  .next (s.vfred t (.vfredO t f rm d a b k) rm d fun m c =>
    (vecEls t c (fwBytes f) b k).foldl (fun acc v => match v with
      | some x => let r := (fwFmt f).add m acc.1 x
        (r.1, acc.2 ||| r.2)
      | none => acc) (c.fpat f a, 0))

/-- VFRED.T: a pairwise tree, −0.0 for inactive elements. -/
def execVfredT (t : Tid) (f : FW) (rm : Fin 8) (d b : Reg) (k : Fin 8) (s : State) : Host.Outcome State Fault Refusal :=
  .next (s.vfred t (.vfredT t f rm d b k) rm d fun m c =>
    let r := treeFold ((fwFmt f).add m) 7 ((vecEls t c (fwBytes f) b k).map fun v => some (v.getD (fwFmt f).signBit))
    (r.1.getD 0, r.2))

end Sys2Proof.Machine
end

