-- ==== Sys2Proof/Machine/RegAccess.lean ====
section
/-! DEFINITION. Accesses to the register pages and to the large tables (R9 to R12, R436 to R448), and the commands that are a write of
one field. -/

namespace Sys2Proof.Machine

/-! ### Agents (R436, R437) -/

/-- The agent reaches the registers. -/
def State.agentUp (s : State) (ag : Agent) : Bool :=
  match ag with
  | .host => s.linkUp
  | .bmc => s.pwr.mctp
  | .super => s.pwr.mode == .run
  | .job => false

/-- An access of 4 or 8 bytes, naturally aligned. -/
def regAligned (off width : Nat) : Bool := (width == 4 || width == 8) && off % width == 0

/-! ### Reads -/

/-- ERR_ANY of a page. -/
def State.errAny (s : State) (p : Nat) : Bool := (List.range 5).any fun i => bitAt (s.fld (fErr p)) i && !bitAt (s.fld (fErrMsk p)) i

/-- The lowest page with ERR_ANY set (R444). -/
def State.errPage (s : State) : Option Nat := (List.range 0x200).find? fun p => (pageBlk p).isSome && s.errAny p

/-- The die whose junction temperature throttles a block: A dies 0 and 1, P die 2, F die 3. -/
def pageDie (p : Nat) : Option Nat :=
  if 0x100 ≤ p then some ((p - 0x100) / 128)
  else if 0x080 ≤ p ∧ p < 0x0C0 then some ((p - 0x080) / 32)
  else if 0x0C0 ≤ p then none
  else if 0x040 ≤ p then some 3
  else some 2

/-- THROT: the cap controller gates arithmetic cycles, or the block's die is throttled (R381, R383). -/
def State.throttled (s : State) (p : Nat) : Bool :=
  let arith := decide (0x100 ≤ p) || (decide (0x080 ≤ p) && decide (p < 0x0C0)) || (decide (0x0C0 ≤ p) && p % 8 == 4)
  (arith && s.fld fPwr_GATE != 0) || (match pageDie p with | some d => s.pwr.hot.contains d | none => false)

/-- The persistent fields with their indices (Table 19.6). -/
def rwpFields : List (Fld × Nat) :=
  [(fPkg_PKG_ID, 0), (fPwr_CAP_DEF, 1), (fSnap_RSV_GIB, 2), (⟨0x020, 0x44, 2, 0⟩, 3)]

/-- NCORE_ACT of a stack (Table 8.12): the near cores that have a context not IDLE. -/
def State.ncoreAct (s : State) (n : Nat) : Nat :=
  s.liveCtxs.foldl (fun v e => match Tid.ofHandle e.1 with
    | some t => if t.kind = .near ∧ t.stackOf = n then v ||| 2 ^ (t.num % 256 / 16) else v
    | none => v) 0

/-- A unit of a cut that a write waits for has memory in the stack (R205, Table 8.14: URGENT). -/
def State.urgentHere (s : State) (n : Nat) : Bool :=
  s.snp.units.any fun u => u.grans.any s.snp.stalled.contains && u.grans.any fun g => keyStack (g * 4096) == n

/-- The fields of a stack's pages that follow other state: NCORE_ACT of the stack engines, SNAP and URGENT of the copy engine. -/
def State.shownStack (s : State) (p c v : Nat) : Nat :=
  if p < 0x0C0 ∨ 0x100 ≤ p then v
  else
    let n := (p - 0x0C0) / 8
    if (p - 0x0C0) % 8 = 4 ∧ c = 8 then putBits v 0 16 (s.ncoreAct n)
    else if (p - 0x0C0) % 8 = 6 ∧ c = 10 then putBits (putBits v 0 1 (s.snapHere n).toNat) 1 1 (s.urgentHere n).toNat
    else v

/-- A cell with its derived fields: BLK_STS, THROT, ERR_PAGE, those of the stacks, and persistent fields whose commit is in progress
(R446). -/
def State.shown (s : State) (p c : Nat) : Nat :=
  let v := (s.cell (p * 512 + c)).toNat
  let v1 := if c = 2 then putBits v 32 2 ((s.errAny p).toNat + 2 * s.fld (fLock p)) else v
  let v2 := if c = 7 then putBits v1 1 1 (s.throttled p).toNat else v1
  let v3 := s.shownStack p c <| if p = 0 ∧ c = 13 then (match s.errPage with | some e => putBits v2 32 10 (e + 512) | none => putBits v2 32 10 0) else v2
  rwpFields.foldl (fun x e =>
    if e.1.key = p * 512 + c then (match s.pstPending e.2 with | some n => putBits x e.1.sh e.1.w n | none => x) else x) v3

/-- A field can be read and is not measured. -/
def RegF.plain (f : RegF) : Bool := f.acc != .wo && f.acc != .timed

/-- The 8 bytes of a cell as a read sees them: write-only bits and reserved bits 0, measured fields free, TIMESTAMP from the clock. -/
def State.readCell (s : State) (p c : Nat) : Nat × State :=
  if p = 0 ∧ c = 12 then (s.now.1.toNat, s.now.2)
  else
    let timed := cellMask p c fun f => f.acc == .timed
    let v := s.shown p c &&& cellMask p c RegF.plain
    if timed = 0 then (v, s) else (v ||| ((Config.timed s.fresh).toNat &&& timed), s.draw.2)

/-- An agent's number among the latches. -/
def agentNum : Agent → Nat
  | .host => 0 | .bmc => 1 | .super => 2 | .job => 3

/-- The latch of a time counter (BUSY at 0x28, SAT at 0x30) for an agent. -/
def latchKey (ag : Agent) (p off : Nat) : Nat := p * 8 + agentNum ag * 2 + (off - 0x28) / 8

/-- A read of a register (R437, R438, R442): 4 bytes of a time counter's low half latch its high half; the next 4-byte read of the
high half by the same agent takes the latch. -/
def State.regRead (s : State) (ag : Agent) (p off width : Nat) : Nat × State :=
  if (pageBlk p).isNone then (0, s)
  else
    let k := latchKey ag p off
    let (v, s1) := s.readCell p (off / 8)
    if width = 8 then (v, s1)
    else if off = 0x28 ∨ off = 0x30 then
      (v % 2 ^ 32, { s1 with latch := tabIns (tabDel s1.latch k) k (BitVec.ofNat 32 (v / 2 ^ 32)) })
    else match (if off = 0x2C ∨ off = 0x34 then tabFind s.latch k else none) with
      | some h => (h.toNat, { s with latch := tabDel s.latch k })
      | none => (v / 2 ^ (off % 8 * 8) % 2 ^ 32, s1)

/-! ### Writes -/

/-- A write within one cell: the bits it covers and their values. -/
structure Wr where
  page : Nat
  c : Nat
  m : Nat
  v : Nat
  ag : Agent
  deriving DecidableEq, Repr

/-- The write of an access. -/
def wrOf (ag : Agent) (p off width val : Nat) : Wr :=
  { page := p, c := off / 8, m := (2 ^ (8 * width) - 1) <<< (off % 8 * 8), v := (val % 2 ^ (8 * width)) <<< (off % 8 * 8), ag := ag }

/-- The value written to a field, if the write covers it. -/
def Wr.get (w : Wr) (f : Fld) : Option Nat :=
  if f.key = w.page * 512 + w.c ∧ bitAt w.m f.sh then some ((w.v >>> f.sh) % 2 ^ f.w) else none

/-- An action on a field that the write covers. -/
def State.on (s : State) (w : Wr) (f : Fld) (g : State → Nat → State) : State :=
  match w.get f with
  | some x => g s x
  | none => s

/-- An action on a write-only bit written 1. -/
def State.onSet (s : State) (w : Wr) (f : Fld) (g : State → State) : State := s.on w f fun t x => if x = 0 then t else g t

/-- A field set when the value is allowed. -/
def State.onIf (s : State) (w : Wr) (f : Fld) (ok : Nat → Bool) : State := s.on w f fun t x => if ok x then t.setFld f x else t

/-- Fields of RW access whose write is not a plain one: they have an action of their own, or ignore writes now. -/
def State.heldFields (s : State) (b : Blk) (i p : Nat) : List Fld :=
  [fVersel p, fLock p, ⟨p, 0x20, 31, 0⟩] ++
  match b with
  | .mode => if s.flag fMode_ARMED then [fMode_PROFILE, fMode_CAP_MODE, fMode_STRICT, fMode_STG_EPOCH, fMode_FWSET_EXP] else []
  | .safe => [fSafe_INJ_EN]
  | .pwr => [fPwr_CAP_W, fPwr_TJ_THR]
  | .ctl => (List.range 48).map fVec_HOLD
  | .cxl => [fCxl_IDE_POL]
  | .ring => fRing_EN :: (if s.flag fRing_EN then [fRing_HRING_BASE, fRing_LOG2N] else [])
  | .port => [fPort_EN i]
  | .can => if s.canBusy then [fCan_MAN_ADDR] else []
  | .solv => fSolv_EN i :: (if s.flag (fSolv_EN i) then [fSolv_JR_BASE i, fSolv_LOG2N i] else [])
  | .copy => fCopy_EN i :: (if s.flag (fCopy_EN i) then [fCopy_CR_BASE i, fCopy_LOG2N i] else [])
  | .grove => [fGrove_SPLIT i]
  | _ => []

/-- Bits of a cell that fields take. -/
def fldMask (key : Nat) (fs : List Fld) : Nat :=
  fs.foldl (fun m f => if f.key = key then m ||| ((2 ^ f.w - 1) <<< f.sh) else m) 0

/-- The bits that a write sets: RW, and RWL until the lock, but for the fields held back (R9). -/
def State.setBits (s : State) (b : Blk) (i : Nat) (w : Wr) : W64 :=
  let lock := s.flag (fLock w.page)
  BitVec.ofNat 64 (cellMask w.page w.c (fun f => f.acc == .rw || (f.acc == .rwl && !lock)) &&& w.m) &&&
    ~~~BitVec.ofNat 64 (fldMask (w.page * 512 + w.c) (s.heldFields b i w.page))

/-- The RW1C bits that a write clears (R12). -/
def Wr.clrBits (w : Wr) : W64 := BitVec.ofNat 64 (cellMask w.page w.c (fun f => f.acc == .w1c) &&& w.v)

/-- The plain part of a write: RW bits set, RWL bits set until the lock, RW1C bits cleared by 1 (R9, R12). -/
def State.plainWrite (s : State) (b : Blk) (i : Nat) (w : Wr) : State :=
  let key := w.page * 512 + w.c
  let set := s.setBits b i w
  let clr := w.clrBits
  if set = 0 ∧ clr = 0 then s else s.setCell key ((s.cell key &&& ~~~(set ||| clr)) ||| (BitVec.ofNat 64 w.v &&& set))

/-- The source of a write may write persistent fields (R446). -/
def State.srcOk (s : State) (ag : Agent) : Bool :=
  match ag with
  | .host => s.flag fPkg_SRC_HOST
  | .super => s.flag fPkg_SRC_SUPER
  | .bmc => s.flag fPkg_SRC_BMC
  | .job => false

/-- A value that the field's own rule accepts: PKG_ID any, CAP_DEF 600 to 1,800, RSV_GIB 0 to 40 in steps of 4, boot options any. -/
def pstValid (i v : Nat) : Bool :=
  match i with
  | 1 => decide (600 ≤ v) && decide (v ≤ 1800)
  | 2 => decide (v ≤ 40) && v % 4 == 0
  | _ => true

/-- A write of a persistent field (R446). -/
def State.pstWrite (s : State) (ag : Agent) (i v : Nat) : State :=
  if !s.srcOk ag then s.setFlag fPst_DENIED true
  else if pstValid i v then s.persist i v
  else s

/-- A ring's EN written: set, the engine reads the head. -/
def State.ringEn (s : State) (f : Fld) (x : Nat) (enable : State → State) : State :=
  if x = 1 ∧ !s.flag f then enable (s.setFlag f true) else s.setFld f x

/-- IDE_POL written: with 1, CXL.cache runs only once both streams are Secure (R370). -/
def State.setIdePol (s : State) (x : Nat) : State :=
  let s1 := s.setFld fCxl_IDE_POL x
  if x = 1 ∧ !s1.flag fCxl_IDE_SECURE then s1.setFlag fCxl_CACHE_EN false
  else if x = 0 ∧ s1.linkUp then s1.setFlag fCxl_CACHE_EN true
  else s1

/-- A grove is taken out of service (R457): from IN, when no other grove is out, not in safe stop or Retention. -/
def State.groveOut (s : State) (g : Nat) : State :=
  if s.flag fSafe_SAFE ∨ s.pwr.mode ≠ .run ∨ (List.range 256).any (fun x => s.fld (fGrove_STATE x) != 0) then s
  else s.setFld (fGrove_STATE g) 1

/-- RETURN (Table 20.4). -/
def State.groveBack (s : State) (g : Nat) : State :=
  if s.fld (fGrove_STATE g) = 1 ∨ (s.fld (fGrove_STATE g) = 3 ∧ s.fld (fGrove_RESULT g) = 1) then s.setFld (fGrove_STATE g) 0 else s

/-- The reserved bits of STG_CFG are judged at the arm (R319). -/
def State.noteStg (s : State) (w : Wr) : State :=
  match w.get ⟨0x00A, 0x40, 31, 0⟩ with
  | some x => if s.flag fMode_ARMED then s else { s with bnd := { s.bnd with stgRsv := decide (8 ≤ x) } }
  | none => s

/-- RESTORE written by a plain register write, which brings no result of the members' agreement: that result is free. -/
def State.restoreFree (s : State) : State :=
  let k := s.fresh
  { s with fresh := k + 6 }.restoreWrite (if Config.outcome k then some ((Config.unstated (k + 5)).toNat % 5 + 1) else none)
    (Config.unstated (k + 1), Config.unstated (k + 2), Config.unstated (k + 3), Config.unstated (k + 4))

/-- What a write to a block's own fields does beside the plain part. -/
def State.blockActs (s : State) (b : Blk) (i : Nat) (w : Wr) : State :=
  match b with
  | .pkg => s.on w fPkg_PKG_ID fun t x => t.pstWrite w.ag 0 x
  | .mode => ((s.noteStg w).onSet w fMode_ARM State.epochArm).onSet w fMode_CANCEL State.epochCancel
  | .safe => (s.on w fSafe_INJ_EN fun t x => t.injEn (x == 1)).onSet w fSafe_FAULT_CLR State.faultClr
  | .snap =>
    ((((s.onSet w fSnap_REQ State.snapRequest).onSet w fSnap_CANCEL State.snapCancel).onSet w fSnap_RELEASE State.snapRelease).onSet w
      fSnap_RESTORE State.restoreFree).on w fSnap_RSV_GIB fun t x => t.pstWrite w.ag 2 x
  | .pwr =>
    ((((s.onIf w fPwr_CAP_W (pstValid 1)).on w fPwr_CAP_DEF (fun t x => t.pstWrite w.ag 1 x)).onIf w fPwr_TJ_THR
      (fun x => decide (85 ≤ x) && decide (x ≤ 105))).onSet w fPwr_RET_REQ State.retReq).onSet w fPwr_RET_EXIT State.retExit
  | .ctl => (List.range 48).foldl (fun t k => t.on w (fVec_HOLD k) fun t x => t.vecHold k (x == 1)) s
  | .boot => (s.on w ⟨0x020, 0x44, 2, 0⟩ fun t x => t.pstWrite w.ag 3 x).onSet w fBoot_CLR_FAIL State.clrFailWrite
  | .cxl => s.on w fCxl_IDE_POL State.setIdePol
  | .ring => s.on w fRing_EN fun t x => (t.ringEn fRing_EN x State.hringEnable).jobOver
  | .port =>
    (s.on w (fPort_EN i) fun t x =>
      if x = 1 then (if t.flag (fPort_EN i) then t else (t.setFlag (fPort_EN i) true).portEn i) else (t.setFlag (fPort_EN i) false).portDis i).onSet w
      (fPort_RETRAIN i) fun t => t.portRetr i
  | .win => s.onSet w fWin_CLR fun t => t.setFld fWin_CTX_PEAK (t.fld fWin_CTX_USE)
  | .can => s.on w fCan_CMD State.canCmdWrite
  | .solv => s.on w (fSolv_EN i) fun t x => t.ringEn (fSolv_EN i) x fun u => u.solvEnable i
  | .copy => s.on w (fCopy_EN i) fun t x => t.ringEn (fCopy_EN i) x fun u => u.copyEnable i
  | .mem => s.onSet w (fMem_CLR i) fun t => t.setFld (fMem_PEAK i) (t.fld (fMem_TEMP i))
  | .msc => s.onSet w (fMsc_CLR i) fun t => t.setFld (fMsc_COMB_PEAK i) (t.fld (fMsc_COMB_USE i))
  | .grove =>
    ((s.onIf w (fGrove_SPLIT i) fun x => decide (x < 3)).onSet w (fGrove_OUT_REQ i) fun t => t.groveOut i).onSet w (fGrove_RETURN i) fun t =>
      t.groveBack i
  | _ => s

/-- What a write to the common header does beside the plain part: an unsupported version is ignored, LOCK only sets, an injection is
armed. -/
def State.headActs (s : State) (b : Blk) (i : Nat) (w : Wr) : State :=
  let s1 := s.on w (fVersel w.page) fun t x => if x = 0x0100 then t.setFld (fVersel w.page) x else t
  let s2 := s1.onSet w (fLock w.page) fun t => t.setFlag (fLock w.page) true
  s2.on w ⟨w.page, 0x20, 31, 0⟩ fun t x => if b = .prot then t.stackErrinjWrite i x else t.errinjWrite w.page x

/-- A write of a register (R9, R437, R438); writes to reserved pages and bits are ignored. -/
def State.regWrite (s : State) (ag : Agent) (p off width val : Nat) : State :=
  match pageBlk p with
  | none => s
  | some (b, i) =>
    let w := wrOf ag p off width val
    ((s.plainWrite b i w).headActs b i w).blockActs b i w

/-- An agent's write: nothing from one that does not reach the registers; a host access that is not aligned completes with
Unsupported Request. -/
def State.agentWrite (s : State) (ag : Agent) (p off width val : Nat) : State :=
  if !s.agentUp ag then s
  else if !regAligned off width ∨ 0x1000 ≤ off then (if ag = .host then s.answer .unsupported else s)
  else s.regWrite ag p off width val

/-! ### The large tables (R443) -/

/-- Byte `o` of BAR2 takes a write of the agent: fixed fields of a registered view or model do not. EN bytes are not among them. -/
def State.tabByteOk (s : State) (ag : Agent) (o : Nat) : Bool :=
  if 0x100000 ≤ o ∧ o < 0x200000 then
    let i := (o - 0x100000) / 256
    let k := o % 256
    let fixed := s.modelEn i || (s.model i).valid
    ag != .job && ((decide (0x80 ≤ k) && decide (k < 0xB0)) ||
      (!fixed && (decide (k < 0xC0) || (decide (0xC8 ≤ k) && decide (k < 0xD0)) || (decide (0xEC ≤ k) && decide (k < 0xFF)))))
  else if 0x200000 ≤ o ∧ o < 0x210000 then
    let i := (o - 0x200000) / 64
    ag != .job && (decide (o % 64 < 0x30) || (decide (0x34 ≤ o % 64) && decide (o % 64 < 0x3F))) && !(s.viewEn i || s.viewValid i)
  else if 0x300000 ≤ o ∧ o < 0x340000 then ag != .job
  else if 0x500000 ≤ o ∧ o < 0x508000 then true
  else false

/-- A byte as it is stored: the reserved bits of a route entry stay 0; ERR of a counter, once set, stays set (R278). -/
def State.tabByte (s : State) (o : Nat) (b : Byte) : Byte :=
  if 0x300000 ≤ o ∧ o < 0x340000 then (if o % 4 = 2 then b &&& 1 else if o % 4 = 3 then 0 else b)
  else if 0x500000 ≤ o ∧ o % 8 = 7 then b ||| (s.barByte o &&& 0x80)
  else b

/-- Bytes written one after the other. -/
def State.tabBytes (s : State) (ag : Agent) : Nat → List Byte → State
  | _, [] => s
  | o, b :: bs => (if s.tabByteOk ag o then s.setBarByte o (s.tabByte o b) else s).tabBytes ag (o + 1) bs

/-- EN of an entry that the write covers, after its other bytes. -/
def State.tabEn (s : State) (o : Nat) (bs : List Byte) : State :=
  let byte := fun k => (bs.getD (k - o) 0).toNat
  if 0x100000 ≤ o ∧ o < 0x200000 ∧ 256 ≤ o % 256 + bs.length then s.modelSetEn ((o - 0x100000) / 256) (byte (o / 256 * 256 + 0xFF))
  else if 0x200000 ≤ o ∧ o < 0x210000 ∧ 64 ≤ o % 64 + bs.length then s.viewSetEn ((o - 0x200000) / 64) (byte (o / 64 * 64 + 0x3F))
  else s

/-- A write to BAR2. A route written may change the ACTIVE set of its target (R266). -/
def State.tabWrite (s : State) (ag : Agent) (o : Nat) (bs : List Byte) : State :=
  let s1 := s.tabBytes ag o bs
  if ag = .job then s1 else if 0x300000 ≤ o ∧ o < 0x340000 then s1.noteSets else s1.tabEn o bs

/-- A job thread may access a counter that its job holds (R436). -/
def State.tabAllowed (s : State) (ag : Agent) (o : Nat) : Bool :=
  ag != .job || (decide (0x500000 ≤ o) && decide (o < 0x508000) && s.cntOk ((o - 0x500000) / 8))

/-- BAR2 is reached by the host and by supervisor control threads. -/
def State.tabUp (s : State) (ag : Agent) : Bool := s.agentUp ag && (ag == .host || ag == .super)

/-- An agent's write to BAR2 (R437, R443). -/
def State.agentTabWrite (s : State) (ag : Agent) (o width val : Nat) : State :=
  if !s.tabUp ag then s
  else if !regAligned o width then (if ag = .host then s.answer .unsupported else s)
  else s.tabWrite ag o (natLE width val)

/-! ### Commands -/

/-- REGISTER_WRITE: pages below 0x1000 are those of BAR0; BAR2 lies 4 GiB above it in local physical addresses (R436), so that its
offset `x` is page 0x100000 + x / 4096. -/
def execRegisterWrite (ag : Agent) (page off width : Nat) (val : W64) (s : State) : Host.Outcome State Fault Refusal :=
  .next (if 0x100000 ≤ page then s.agentTabWrite ag ((page - 0x100000) * 4096 + off) width val.toNat
    else s.agentWrite ag page off width val.toNat)

/-- TIME_COUNTER_LOW_READ: `sat` chooses BLK_TIME_SAT. -/
def execTimeCounterLowRead (ag : Agent) (page : Nat) (sat : Bool) (s : State) : Host.Outcome State Fault Refusal :=
  .next (if s.agentUp ag then
    (s.regRead ag page (if sat then 0x30 else 0x28) 4).2.answer (.value (BitVec.ofNat 64 (s.regRead ag page (if sat then 0x30 else 0x28) 4).1))
  else s)

/-- BLK_VERSEL_WRITE. -/
def execBlkVerselWrite (ag : Agent) (page : Nat) (val : W32) (s : State) : Host.Outcome State Fault Refusal :=
  .next (s.agentWrite ag page 0x08 4 val.toNat)

/-- BLK_CTL_LOCK. -/
def execBlkCtlLock (ag : Agent) (page width : Nat) (val : W64) (s : State) : Host.Outcome State Fault Refusal :=
  .next (s.agentWrite ag page 0x10 width val.toNat)

/-- BLK_ERRINJ_WRITE. -/
def execBlkErrinjWrite (ag : Agent) (page : Nat) (val : W32) (s : State) : Host.Outcome State Fault Refusal :=
  .next (s.agentWrite ag page 0x20 4 val.toNat)

/-- STACK_ERRINJ_WRITE. -/
def execStackErrinjWrite (ag : Agent) (stack : Fin 8) (val : W32) (s : State) : Host.Outcome State Fault Refusal :=
  .next (s.agentWrite ag (protPage stack) 0x20 4 val.toNat)

/-- The register of a persistent field that agents write. -/
def pstReg : Fin 4 → Nat × Nat
  | 0 => (0x000, 0x40)
  | 1 => (0x00E, 0x44)
  | 2 => (0x00D, 0x54)
  | 3 => (0x020, 0x44)

/-- PERSISTENT_WRITE. -/
def execPersistentWrite (ag : Agent) (idx : Fin 4) (val : W32) (s : State) : Host.Outcome State Fault Refusal :=
  .next (s.agentWrite ag (pstReg idx).1 (pstReg idx).2 4 val.toNat)

/-- VEC_CTL_HOLD. -/
def execVecCtlHold (ag : Agent) (core : Fin 48) (hold : Bool) (s : State) : Host.Outcome State Fault Refusal :=
  .next (s.agentWrite ag 0x010 (0x100 + 4 * core.val) 4 hold.toNat)

/-- EW_SPLIT_WRITE. -/
def execEwSplitWrite (ag : Agent) (g : Fin 256) (val : Fin 4) (s : State) : Host.Outcome State Fault Refusal :=
  .next (s.agentWrite ag (0x100 + g.val) 0x40 4 val)

/-- TEMP_PEAK_CLR. -/
def execTempPeakClr (ag : Agent) (st : Fin 8) (s : State) : Host.Outcome State Fault Refusal :=
  .next (s.agentWrite ag (0x0C0 + 8 * st.val) 0x44 4 (2 ^ 31))

/-- COMB_PEAK_CLR. -/
def execCombPeakClr (ag : Agent) (st : Fin 8) (s : State) : Host.Outcome State Fault Refusal :=
  .next (s.agentWrite ag (mscPage st) 0x40 4 (2 ^ 31))

/-- CTX_PEAK_CLR. -/
def execCtxPeakClr (ag : Agent) (s : State) : Host.Outcome State Fault Refusal := .next (s.agentWrite ag 0x050 0x54 4 (2 ^ 31))

/-- VIEW_REGISTER: EN set. -/
def execViewRegister (ag : Agent) (idx : Fin 1024) (s : State) : Host.Outcome State Fault Refusal :=
  .next (if s.tabUp ag then s.viewSetEn idx (s.barNat (viewOff idx + 0x3F) 1 ||| 1) else s)
/-- VIEW_DEREGISTER: EN cleared. -/
def execViewDeregister (ag : Agent) (idx : Fin 1024) (s : State) : Host.Outcome State Fault Refusal :=
  .next (if s.tabUp ag then s.viewSetEn idx (s.barNat (viewOff idx + 0x3F) 1 / 2 * 2) else s)
/-- MODEL_REGISTER. -/
def execModelRegister (ag : Agent) (m : Fin 4096) (s : State) : Host.Outcome State Fault Refusal :=
  .next (if s.tabUp ag then s.modelSetEn m (s.barNat (modelOff m + 0xFF) 1 ||| 1) else s)
/-- MODEL_DEREGISTER. -/
def execModelDeregister (ag : Agent) (m : Fin 4096) (s : State) : Host.Outcome State Fault Refusal :=
  .next (if s.tabUp ag then s.modelSetEn m (s.barNat (modelOff m + 0xFF) 1 / 2 * 2) else s)

/-- ROUTE_TABLE_WRITE: also the board management controller's (Table 19.4). -/
def execRouteTableWrite (ag : Agent) (pkg : Nat) (val : W32) (s : State) : Host.Outcome State Fault Refusal :=
  .next (if s.agentUp ag ∧ pkg < 65536 then s.tabWrite ag (routeOff pkg) (natLE 4 val.toNat) else s)

/-- COPY_RING_ENABLE: EN set, LOG2N as it stands. -/
def execCopyRingEnable (ag : Agent) (st : Fin 8) (s : State) : Host.Outcome State Fault Refusal :=
  .next (s.agentWrite ag (copyPage st) 0x48 4 (2 ^ 31 + s.fld (fCopy_LOG2N st)))
/-- SOLVER_RING_ENABLE. -/
def execSolverRingEnable (ag : Agent) (q : Fin 64) (s : State) : Host.Outcome State Fault Refusal :=
  .next (s.agentWrite ag (solvPage q) 0x48 4 (2 ^ 31 + s.fld (fSolv_LOG2N q)))
/-- HOST_RING_ENABLE. -/
def execHostRingEnable (ag : Agent) (s : State) : Host.Outcome State Fault Refusal :=
  .next (s.agentWrite ag hringPage 0x48 4 (2 ^ 31 + s.fld fRing_LOG2N))

/-- The fields of a port's control register beside EN, as they stand. -/
def State.portCtl (s : State) (p : Nat) : Nat := s.fld ⟨0x040 + p, 0x40, 31, 0⟩ / 4 * 4

/-- PORT_ENABLE. -/
def execPortEnable (ag : Agent) (p : Fin 16) (s : State) : Host.Outcome State Fault Refusal :=
  .next (s.agentWrite ag (0x040 + p.val) 0x40 4 (s.portCtl p + 1))
/-- PORT_DISABLE. -/
def execPortDisable (ag : Agent) (p : Fin 16) (s : State) : Host.Outcome State Fault Refusal :=
  .next (s.agentWrite ag (0x040 + p.val) 0x40 4 (s.portCtl p))
/-- PORT_RETRAIN. -/
def execPortRetrain (ag : Agent) (p : Fin 16) (s : State) : Host.Outcome State Fault Refusal :=
  .next (s.agentWrite ag (0x040 + p.val) 0x40 4 (s.portCtl p + 2 + s.fld (fPort_EN p)))

/-- CANOPY_START. -/
def execCanopyStart (ag : Agent) (s : State) : Host.Outcome State Fault Refusal := .next (s.agentWrite ag 0x061 0x40 4 1)
/-- CANOPY_JOIN. -/
def execCanopyJoin (ag : Agent) (s : State) : Host.Outcome State Fault Refusal := .next (s.agentWrite ag 0x061 0x40 4 2)
/-- CANOPY_CANCEL. -/
def execCanopyCancel (ag : Agent) (s : State) : Host.Outcome State Fault Refusal := .next (s.agentWrite ag 0x061 0x40 4 3)

/-- EPOCH_ARM. -/
def execEpochArm (ag : Agent) (s : State) : Host.Outcome State Fault Refusal := .next (s.agentWrite ag 0x00A 0x48 4 1)
/-- EPOCH_CANCEL. -/
def execEpochCancel (ag : Agent) (s : State) : Host.Outcome State Fault Refusal := .next (s.agentWrite ag 0x00A 0x48 4 2)

/-- SNAPSHOT_REQUEST. -/
def execSnapshotRequest (ag : Agent) (s : State) : Host.Outcome State Fault Refusal := .next (s.agentWrite ag 0x00D 0x44 4 1)
/-- SNAPSHOT_CANCEL. -/
def execSnapshotCancel (ag : Agent) (s : State) : Host.Outcome State Fault Refusal := .next (s.agentWrite ag 0x00D 0x44 4 2)
/-- SNAPSHOT_RELEASE. -/
def execSnapshotRelease (ag : Agent) (s : State) : Host.Outcome State Fault Refusal := .next (s.agentWrite ag 0x00D 0x44 4 4)

/-- RESTORE: the write of RESTORE, with the result of the members' agreement (step 2). -/
def execRestore (ag : Agent) (err : Option Nat) (committedMin committedMax genMin genMax : W64) (s : State) : Host.Outcome State Fault Refusal :=
  .next (if s.agentUp ag then s.restoreWrite err (committedMin, committedMax, genMin, genMax) else s)

/-- CLR_FAIL. -/
def execClrFail (ag : Agent) (s : State) : Host.Outcome State Fault Refusal := .next (s.agentWrite ag 0x020 0x48 4 1)

/-- The two RW fields that share RET_REQ's register, as they stand. -/
def State.pwrCtl (s : State) : Nat := s.fld ⟨0x00E, 0x48, 15, 0⟩ / 16 * 16 + s.fld ⟨0x00E, 0x48, 1, 0⟩

/-- RET_REQ. -/
def execRetReq (ag : Agent) (s : State) : Host.Outcome State Fault Refusal := .next (s.agentWrite ag pwrPage 0x48 4 (s.pwrCtl + 4))
/-- RET_EXIT. -/
def execRetExit (ag : Agent) (s : State) : Host.Outcome State Fault Refusal := .next (s.agentWrite ag pwrPage 0x48 4 (s.pwrCtl + 8))
/-- CAP_W_WRITE. -/
def execCapWWrite (ag : Agent) (val : W32) (s : State) : Host.Outcome State Fault Refusal := .next (s.agentWrite ag pwrPage 0x40 4 val.toNat)
/-- FAULT_CLR. -/
def execFaultClr (ag : Agent) (s : State) : Host.Outcome State Fault Refusal :=
  .next (s.agentWrite ag 0x00B 0x40 4 (8 + 4 * s.fld fSafe_INJ_EN))
/-- INJ_EN_WRITE. -/
def execInjEnWrite (ag : Agent) (val : Bool) (s : State) : Host.Outcome State Fault Refusal := .next (s.agentWrite ag 0x00B 0x40 4 (4 * val.toNat))
/-- GROVE_OUT_REQ. -/
def execGroveOutReq (ag : Agent) (g : Fin 256) (s : State) : Host.Outcome State Fault Refusal := .next (s.agentWrite ag (0x100 + g.val) 0x44 4 1)
/-- GROVE_RETURN. -/
def execGroveReturn (ag : Agent) (g : Fin 256) (s : State) : Host.Outcome State Fault Refusal := .next (s.agentWrite ag (0x100 + g.val) 0x44 4 2)

/-! ### Register commands of the board management controller (R451) -/

/-- READ_REGISTER. -/
def execReadRegister (page off width : Nat) (s : State) : Host.Outcome State Fault Refusal :=
  .next (s.mbox .bmc fun s1 =>
    if regAligned off width ∧ page < 0x1000 ∧ off < 0x1000 then
      (rcOk, natLE 8 (s1.regRead .bmc page off width).1, (s1.regRead .bmc page off width).2)
    else (rcInvalid, [], s1))

/-- WRITE_REGISTER: one that commits a persistent field is answered when the commit completes (R9, R446). -/
def execWriteRegister (page off width : Nat) (val : W64) (s : State) : Host.Outcome State Fault Refusal :=
  .next (if !s.mboxUp .bmc then s
  else if regAligned off width ∧ page < 0x1000 ∧ off < 0x1000 then
    let (waits, s1) := (s.regWrite .bmc page off width val.toNat).commitsSince s .command
    if waits then s1 else s1.reply .bmc rcOk []
  else s.reply .bmc rcInvalid [])

/-! ### Groves in service (R457) -/

/-- GROVE_SVC_DRAINED: every context idle, the engines without owner: flushed, scratch lost, TESTING. -/
def execGroveSvcDrained (g : Fin 256) (s : State) : Host.Outcome State Fault Refusal :=
  let busy := s.liveCtxs.any fun e => decide (e.1 / 256 = g.val)
  let engines := (s.mat g.val).owner.isSome || !(s.mat g.val).queue.isEmpty || (List.range 8).any fun c => (s.ew (g.val * 8 + c)).owner.isSome
  .next (if s.fld (fGrove_STATE g) ≠ 1 ∨ busy ∨ engines then s
  else (s.setGrove g { s.grove g with scratch := [], viewLines := [] }).setFld (fGrove_STATE g) 2)

/-- GROVE_MARGIN_TEST_DONE: a mismatch of the rotation pass is a detection; otherwise the margin test's result. -/
def execGroveMarginTestDone (g : Fin 256) (rotationOk marginOk : Bool) (s : State) : Host.Outcome State Fault Refusal :=
  .next (if s.fld (fGrove_STATE g) ≠ 2 ∨ s.flag fSafe_SAFE then s
  else if !rotationOk ∨ s.testInj (.groveT g) then s.testPass (.groveT g) rotationOk 0
  else
    let s1 := (s.setFld (fGrove_STATE g) 3).setFld (fGrove_RESULT g) (if marginOk then 1 else 2)
    if marginOk then s1
    else s1.report { cls := 0x4B, react := 0, page := 0x100 + g.val, unit := g.val } (some (logWarn, .groveWorn)))

/-! ### Debug (R410) -/

/-- The scope that an operation needs: 0 cores, 1 memory, 2 trace. -/
def dbgScope : DbgOp → Nat
  | .readMem _ _ => 1
  | .writeMem _ _ => 1
  | .readTrace => 2
  | _ => 0

/-- An access of the debug path to DRAM, performed at the home, where it waits as every access does (R161, R334). -/
def State.dbgHome (s : State) (cmd key len : Nat) (bs : List Byte) : State :=
  s.serveReq { id := 0, port := 0, cmd := cmd, key := key, len := len, src := 0, job := 0, addr := 0, tag := 0, aop := 0, aw := 0,
               data := bs, get := some s.fab.nextId }

/-- A physical read of the debug path: DRAM, reserve included, or registers. -/
def State.dbgRead (s : State) (lpa len : Nat) : State :=
  match s.place lpa with
  | .dram key => s.dbgHome 1 key len []
  | .reserve key => s.answer (.bytes (s.dramBytes key len))
  | .regs o =>
    if regAligned o len then
      (s.regRead .bmc (o / 4096) (o % 4096) len).2.answer (.bytes (natLE len (s.regRead .bmc (o / 4096) (o % 4096) len).1))
    else s.answer .unsupported
  | .tables o => s.answer (.bytes (s.barBytes o len))
  | .hole => s.answer .unsupported

/-- A physical write of the debug path. -/
def State.dbgWrite (s : State) (lpa : Nat) (bs : List Byte) : State :=
  match s.place lpa with
  | .dram key => s.dbgHome 2 key bs.length bs
  | .reserve key => s.putDram key bs
  | .regs o => if regAligned o bs.length then s.regWrite .bmc (o / 4096) (o % 4096) bs.length (leNat bs) else s.answer .unsupported
  | .tables o => s.tabWrite .super o bs
  | .hole => s.answer .unsupported

/-- A register as debug reads it. -/
def Ctx.dbgGet (c : Ctx) : DbgReg → W64
  | .f r => c.gf r
  | .v r l => (c.gv r).extractLsb' (64 * l.val) 64
  | .k r h => (c.gk r).extractLsb' (64 * h.val) 64
  | .pc => c.pc

/-- A register as debug writes it. -/
def Ctx.dbgSet (c : Ctx) (v : W64) : DbgReg → Ctx
  | .f r => c.sf r v
  | .v r l => c.sv r (BitVec.ofNat 1024 (putBits (c.gv r).toNat (64 * l.val) 64 v.toNat))
  | .k r h => c.sk r (BitVec.ofNat 128 (putBits (c.gk r).toNat (64 * h.val) 64 v.toNat))
  | .pc => { c with pc := v }

/-- A thread may issue one instruction: a single step, or the one at a breakpoint from which it resumes. -/
def State.dbgStep (s : State) (h : Nat) : State := { s with sec := { s.sec with stepping := [h] ++ s.sec.stepping.filter (· != h) } }

/-- A debug operation in an OPEN scope. A trace's content is free. A thread that resumes at a breakpoint passes it once. -/
def State.dbgAct (s : State) (op : DbgOp) : State :=
  let at_ := fun (t : Tid) => s.sec.breaks.contains (t.handle, (s.ctx t).pc)
  let has := fun (t : Tid) => s.sec.halted.contains t.handle
  match op with
  | .halt t => if has t ∨ !t.valid then s else { s with sec := { s.sec with halted := s.sec.halted ++ [t.handle] } }
  | .resume t =>
    let s1 := { s with sec := { s.sec with halted := s.sec.halted.filter (· != t.handle), stepping := s.sec.stepping.filter (· != t.handle) } }
    if at_ t then s1.dbgStep t.handle else s1
  | .singleStep t => if has t ∨ at_ t then s.dbgStep t.handle else s
  | .breakpoint t pc on =>
    let rest := s.sec.breaks.filter (· != (t.handle, pc))
    { s with sec := { s.sec with breaks := if on ∧ t.valid then rest ++ [(t.handle, pc)] else rest } }
  | .readOther t r => s.answer (.value ((s.ctx t).dbgGet r))
  | .writeOther t r v => if t.valid then s.modCtx t fun c => c.dbgSet v r else s
  | .readReg t r => s.answer (.value ((s.ctx t).ga r))
  | .writeReg t r v => if t.valid then s.modCtx t fun c => c.sa r v else s
  | .readMem a n => s.dbgRead a n
  | .writeMem a d => s.dbgWrite a d
  | .readTrace => s.draw.2.answer (.value (Config.unstated s.fresh))

/-- DEBUG_ACCESS: outside an OPEN scope an instruction of the TAP behaves as BYPASS and a DOE message is refused; in Retention debug is
suspended. -/
def execDebugAccess (tap : Bool) (op : DbgOp) (s : State) : Host.Outcome State Fault Refusal :=
  let isOpen := s.fld fSec_DBG == 1 && bitAt (s.fld fSec_SCOPE) (dbgScope op) && s.pwr.mode != .ret
  .next (if s.pwr.mode = .off ∨ (!tap ∧ !s.linkUp) then s
  else if isOpen then s.dbgAct op
  else if tap then s
  else s.answer .unsupported)

end Sys2Proof.Machine
end

