-- ==== Sys2Proof/Machine/LoadStore.lean ====
section
/-! DEFINITION. Loads and stores of threads, gathers, scatters, and vector structure accesses (R41 to R46, R54, R64 to R67, R72, R73,
R272, R273, R437, R443). -/

namespace Sys2Proof.Machine

/-! ### Register targets -/

/-- The agent that a thread is for register accesses (R436). -/
def State.regAgent (s : State) (t : Tid) : Agent := if (s.ctx t).sup then .super else .job

/-- A thread's read of a register page (R437). -/
def State.thrRegRead (s : State) (t : Tid) (o n : Nat) : MRes × State :=
  if regAligned o n then
    match s.regRead (s.regAgent t) (o / 4096) (o % 4096) n with
    | (v, s1) => (.ok (natLE n v), s1)
  else (.fault 0x20, s)

/-- A thread's write of a register page. -/
def State.thrRegWrite (s : State) (t : Tid) (o : Nat) (bs : List Byte) : MRes × State :=
  if regAligned o bs.length then (.ok [], s.regWrite (s.regAgent t) (o / 4096) (o % 4096) bs.length (leNat bs)) else (.fault 0x20, s)

/-- A thread's read of a large table (R443). -/
def State.thrTabRead (s : State) (t : Tid) (o n : Nat) : MRes × State :=
  if !s.tabAllowed (s.regAgent t) o then (.fault 0x13, s)
  else if regAligned o n then (.ok (s.barBytes o n), s)
  else (.fault 0x20, s)

/-- A thread's write of a large table. -/
def State.thrTabWrite (s : State) (t : Tid) (o : Nat) (bs : List Byte) : MRes × State :=
  if !s.tabAllowed (s.regAgent t) o then (.fault 0x13, s)
  else if regAligned o bs.length then (.ok [], s.tabWrite (s.regAgent t) o bs)
  else (.fault 0x20, s)

/-! ### Loads -/

/-- What the pieces of a load have come to: bytes held and remote parts outstanding, or an end. -/
inductive LdAcc where
  | go (data : List (Nat × Byte)) (parts : List (Nat × Nat))
  | fault (f : FaultArg) (err : Option (Nat × Nat))
  | wait (aw : Await)
  deriving DecidableEq, Repr

/-- A local piece's bytes taken, or its end; a stalled one waits for its view, or for its line's home. -/
def ldLocal (off : Nat) (va : W64) (data : List (Nat × Byte)) (parts : List (Nat × Nat)) : MRes × State → LdAcc × State
  | (.ok b, s) => (.go (data ++ placed off b) parts, s)
  | (.uncorr, s) => (.fault { code := 0x24, va := va } none, s)
  | (.stall, s) => (.wait (s.awaitAt va.toNat), s)
  | (.refused c, s) => (.fault { code := 0x23, va := va, errVal := true } (some (c, 15)), s)
  | (.fault c, s) =>
    if c = 0x61 then (.fault { code := c, va := va, errVal := true } (some (2, 15)), s)
    else (.fault { code := c, va := va } none, s)

/-- One naturally aligned part of a remote load (R38, R272, R281). -/
def State.ldPart (s : State) (t : Tid) (addr off n : Nat) (va : W64) (data : List (Nat × Byte)) (parts : List (Nat × Nat)) :
    LdAcc × State :=
  if s.isSelf addr ∧ !s.flag fSafe_SAFE then
    match s.turned 1 addr n 0 0 [] with
    | (.ok b, s1) => (.go (data ++ placed off b) parts, s1)
    | (.refused c, s1) => (.fault { code := 0x23, va := va, errVal := true } (some (c, 15)), s1.refusalNote c 15 s.pkgId t.handle va)
    | (.wait, s1) => (.wait .access, s1)
  else match s.request (.load t) t.handle va (s.reqPkt 1 false addr n []) with
    | (.sent tag, s1) => (.go data (parts ++ [(tag, off)]), s1)
    | (.refused c, s1) => (.fault { code := 0x23, va := va, errVal := true } (some (c, 15)), s1)
    | (.wait, s1) => (.wait .issued, s1)

/-- Remote parts in order. -/
def State.ldParts (s : State) (t : Tid) (addr base : Nat) (va : W64) : List (Nat × Nat) → List (Nat × Byte) × List (Nat × Nat) →
    LdAcc × State
  | [], (data, parts) => (.go data parts, s)
  | (o, n) :: rest, (data, parts) =>
    match s.ldPart t (addr + o) (base + o) n va data parts with
    | (.go d p, s1) => s1.ldParts t addr base va rest (d, p)
    | x => x

/-- A piece of a load in local DRAM: a wait for its stack, the host's line, the read. -/
def State.ldDram (s : State) (t : Tid) (key n : Nat) : MRes × State :=
  if s.accessStalled key n false then (.stall, s)
  else match s.biGate t key n false (holderIn t key) with
    | (false, s1) => (.stall, s1)
    | (true, s1) =>
      match s1.homeRead (holderIn t key) key n with
      | (some b, s2) => (.ok b, s2)
      | (none, s2) => (.uncorr, s2)

/-- A piece of a load in host memory (R360). -/
def State.ldHost (s : State) (hpa n : Nat) : MRes × State :=
  if !s.hostUp then (.fault 0x61, s)
  else match s.hostRead hpa n with
    | (some b, s1) => (.ok b, s1)
    | (none, s1) => (.uncorr, s1)

/-- A piece of a load through a view (R196). -/
def State.ldView (s : State) (t : Tid) (i : Nat) (sc : Bool) (va n : Nat) : MRes × State :=
  match s.viewLoad (viewGrove t) i sc (linePieces va n) with
  | (r, s1) => (r.toM, s1)

/-- A piece that has been performed or sent marks its page (Table 2.5). -/
def LdAcc.marked (va : Nat) : LdAcc × State → LdAcc × State
  | (.go d p, s) => (.go d p, s.markAccess va .load)
  | r => r

/-- One piece of a load, within a 4 KiB granule, by its target. -/
def State.ldPiece (s : State) (t : Tid) (va off n : Nat) (data : List (Nat × Byte)) (parts : List (Nat × Nat)) : LdAcc × State :=
  let a := BitVec.ofNat 64 va
  match s.xlate (s.whoOf t) va .load with
  | (.fault c, s1) => (.fault { code := c, va := a } none, s1)
  | (.stall, s1) => (.wait .access, s1)
  | (.ok (.dram key), s1) => LdAcc.marked va (ldLocal off a data parts (s1.ldDram t key n))
  | (.ok (.host hpa), s1) => LdAcc.marked va (ldLocal off a data parts (s1.ldHost hpa n))
  | (.ok (.remote addr), s1) => LdAcc.marked va (s1.ldParts t addr off a (alignedParts n addr 0 n) (data, parts))
  | (.ok (.view i sc), s1) => ldLocal off a data parts (s1.ldView t i sc va n)
  | (.ok (.regs o), s1) => LdAcc.marked va (ldLocal off a data parts (s1.thrRegRead t o n))
  | (.ok (.tables o), s1) => LdAcc.marked va (ldLocal off a data parts (s1.thrTabRead t o n))

/-- The pieces of a load in ascending order. -/
def State.ldPieces (s : State) (t : Tid) (base : Nat) : List (Nat × Nat) → List (Nat × Byte) × List (Nat × Nat) → LdAcc × State
  | [], (data, parts) => (.go data parts, s)
  | (va, n) :: rest, (data, parts) =>
    match s.ldPiece t va (va - base) n data parts with
    | (.go d p, s1) => s1.ldPieces t base rest (d, p)
    | x => x

/-- A load after its form's checks. One that must wait after parts of it have left starts afresh. -/
def State.loadBody (s : State) (t : Tid) (d : Reg) (w va : Nat) (acq : Bool) : TRes :=
  match s.ldPieces t va (s.segs va w) ([], []) with
  | (.go data [], s1) =>
    let s2 := s1.putResult t d w (leNat ((List.range w).map fun i => (tabFind data i).getD 0))
    .done (if acq then s2.acquired t else s2)
  | (.go data parts, s1) =>
    .wait (s1.modCtx t fun c => { c with rem := some { parts := parts, data := data, bad := none, va := BitVec.ofNat 64 va, width := w,
                                                        dst := some d, acquire := acq } }) .remote
  | (.fault f (some (c, p)), s1) => .fault (s1.putResult t d w (errWord w c p)) f
  | (.fault f none, s1) => .fault s1 f
  | (.wait aw, s1) => .wait (if s1.fab = s.fab then s1 else s.undo s1) aw

/-- The address A + IMM8 × w. -/
def memAddr (a : W64) (imm : Byte) (w : Nat) : Nat := (a + imm.signExtend 64 * BitVec.ofNat 64 w).toNat

/-- LD.w: ORD plain or acquire (Table 3.5). -/
def execLd (t : Tid) (w : MemW) (d a : Reg) (imm : Byte) (ord : Fin 8) (s : State) : Host.Outcome State Fault Refusal :=
  .next (s.issue t (.ld t w d a imm ord) profWork fun s1 =>
    if 1 < ord.val then .fault s1 { code := 0x21 }
    else s1.loadBody t d w.bytes (memAddr ((s1.ctx t).ga a) imm w.bytes) (ordAcq ord))

/-! ### Stores -/

/-- What a piece of a store comes to. A refusal at the source counts as issued: it is told at the next boundary (R273). -/
inductive StAcc where
  | ok
  | fault (f : FaultArg)
  | wait (aw : Await)
  deriving DecidableEq, Repr

/-- One naturally aligned part of a remote store (R38, R273). -/
def State.stPart (s : State) (t : Tid) (addr : Nat) (bs : List Byte) (va : W64) : StAcc × State :=
  match s.remoteWrite (.store t) t.handle va addr bs with
  | (.ok _, s1) => (.ok, s1)
  | (.stall, s1) => (.wait .issued, s1)
  | (_, s1) => (.ok, s1.lateRefusal t va)

/-- Remote parts in order. -/
def State.stParts (s : State) (t : Tid) (addr : Nat) (bs : List Byte) (va : W64) : List (Nat × Nat) → StAcc × State
  | [] => (.ok, s)
  | (o, n) :: rest =>
    match s.stPart t (addr + o) (sliceB bs o n) va with
    | (.ok, s1) => s1.stParts t addr bs va rest
    | x => x

/-- A piece of a store in local DRAM (R46, R239). -/
def State.stDram (s : State) (t : Tid) (key : Nat) (bs : List Byte) (va : W64) : StAcc × State :=
  if s.protectedKey key bs.length then (.fault { code := 0x13, va := va }, s)
  else if s.unitProtected key ∨ s.unitProtected (key + bs.length - 1) then (.wait .issued, s.noteStall key)
  else if s.accessStalled key bs.length true then (.wait .access, s)
  else match s.biGate t key bs.length true (holderIn t key) with
    | (false, s1) => (.wait .access, s1)
    | (true, s1) => (.ok, (s1.markAccess va.toNat .store).homeWrite (holderIn t key) key bs)

/-- A local piece's outcome; `aw` is what a stalled one waits for. -/
def stLocal (aw : Await) (va : W64) : MRes × State → StAcc × State
  | (.ok _, s) => (.ok, s)
  | (.stall, s) => (.wait aw, s)
  | (.fault c, s) => (.fault { code := c, va := va }, s)
  | (.refused _, s) => (.fault { code := 0x23, va := va }, s)
  | (.uncorr, s) => (.fault { code := 0x24, va := va }, s)

/-- A piece of a store in host memory. -/
def State.stHost (s : State) (hpa : Nat) (bs : List Byte) : MRes × State :=
  if !s.hostUp then (.fault 0x61, s) else (.ok [], s.hostWrite hpa bs)

/-- A piece of a store through a view (R199). -/
def State.stView (s : State) (t : Tid) (i : Nat) (sc : Bool) (va : Nat) (bs : List Byte) : MRes × State :=
  match s.viewStore (viewGrove t) i sc va bs with
  | (r, s1) => (r.toM, s1)

/-- What a stalled store through a view waits for: a protected unit, or its stack. -/
def State.viewAwait (s : State) (i va : Nat) : Await :=
  match (s.viewKey (s.view i) ((s.view i).storedVa va) .store).1 with
  | .ok (.dram key) => if s.unitProtected key then .issued else .view i
  | _ => .view i

/-- A piece that has been performed or sent marks its page (Table 2.5). -/
def StAcc.marked (va : Nat) : StAcc × State → StAcc × State
  | (.ok, s) => (.ok, s.markAccess va .store)
  | r => r

/-- A store to a register page: one that commits a persistent field completes with the commit (R9, R446). -/
def State.stRegs (s : State) (t : Tid) (o : Nat) (bs : List Byte) (va : W64) : StAcc × State :=
  match stLocal .access va (s.thrRegWrite t o bs) with
  | (.ok, s1) =>
    let (waits, s2) := s1.commitsSince s (.thread t)
    (if waits then .wait .commit else .ok, s2.markAccess va.toNat .store)
  | r => r

/-- One piece of the store at `base`, within a 4 KiB granule, by its target. A flagged store to a page whose TGT is not 2 is a
release. -/
def State.stPiece (s : State) (t : Tid) (base va : Nat) (bs : List Byte) (flagged : Bool) : StAcc × State :=
  let a := BitVec.ofNat 64 va
  match s.xlate (s.whoOf t) va .store with
  | (.fault c, s1) => (.fault { code := c, va := a }, s1)
  | (.stall, s1) => (.wait .access, s1)
  | (.ok (.remote addr), s1) =>
    let parts := alignedParts bs.length addr 0 bs.length
    StAcc.marked va
      (if flagged then (.ok, s1.flagIssue t (addr / 2 ^ 48) (va == base) (BitVec.ofNat 64 base)
         (parts.map fun p => (addr + p.1, sliceB bs p.1 p.2)))
       else s1.stParts t addr bs (BitVec.ofNat 64 base) parts)
  | (.ok g, s1) =>
    if flagged ∧ !s1.released t then (.wait .issued, s1)
    else match g with
      | .dram key => s1.stDram t key bs a
      | .host hpa => StAcc.marked va (stLocal .access a (s1.stHost hpa bs))
      | .view i sc => stLocal (s1.viewAwait i va) a (s1.stView t i sc va bs)
      | .regs o => s1.stRegs t o bs a
      | .tables o => StAcc.marked va (stLocal .access a (s1.thrTabWrite t o bs))
      | .remote _ => (.ok, s1)

/-- The pieces of a store in ascending order. -/
def State.stPieces (s : State) (t : Tid) (bs : List Byte) (base : Nat) (flagged : Bool) : List (Nat × Nat) → StAcc × State
  | [] => (.ok, s)
  | (va, n) :: rest =>
    match s.stPiece t base va (sliceB bs (va - base) n) flagged with
    | (.ok, s1) => s1.stPieces t bs base flagged rest
    | x => x

/-- A store after its form's checks. One piece that ends otherwise than in the store is the whole store's end; where it is the
first, its reports stand. -/
def State.storeBody (s : State) (t : Tid) (va : Nat) (bs : List Byte) (ord : Nat) : TRes :=
  if ordRel ord ∧ !s.released t then .wait s .issued
  else
    let segs := s.segs va bs.length
    match s.stPieces t bs va (ord == 4) segs with
    | (.ok, s1) => .done s1
    | (.fault f, s1) => .fault (if segs.length = 1 then s1 else s.undo s1) f
    | (.wait aw, s1) => .wait (if segs.length = 1 ∧ s1.fab = s.fab then s1 else s.undo s1) aw

/-- ST.w: ORD plain, release or flagged (Table 3.5). -/
def execSt (t : Tid) (w : MemW) (d a : Reg) (imm : Byte) (ord : Fin 8) (s : State) : Host.Outcome State Fault Refusal :=
  .next (s.issue t (.st t w d a imm ord) profWork fun s1 =>
    if ord.val = 1 ∨ ord.val = 3 ∨ 4 < ord.val then .fault s1 { code := 0x21 }
    else s1.storeBody t (memAddr ((s1.ctx t).ga a) imm w.bytes) (natLE w.bytes ((s1.ctx t).ga d).toNat) ord)

/-! ### Element accesses -/

/-- Bytes read for one element. -/
def State.elemRead (s : State) (t : Tid) (va n : Nat) : MRes × State :=
  match s.xlate (s.whoOf t) va .load with
  | (.ok (.regs o), s1) => s1.thrRegRead t o n
  | (.ok (.tables o), s1) => s1.thrTabRead t o n
  | _ => s.vread (s.sectorAgt t) va n

/-- Bytes written for one element: all of it, or nothing of it. -/
def State.elemWrite (s : State) (t : Tid) (va : Nat) (bs : List Byte) : MRes × State :=
  match s.xlate (s.whoOf t) va .store with
  | (.ok (.regs o), s1) => s1.thrRegWrite t o bs
  | (.ok (.tables o), s1) => s1.thrTabWrite t o bs
  | _ =>
    match MRes.lateStore t va (s.vwrite (s.sectorAgt t) va bs) with
    | (.ok b, s1) => (.ok b, s1)
    | (r, s1) => (r, s.undo s1)

/-- The first address of `n` bytes that cannot be read; the pieces are those of the access (R64). -/
def State.badRead (s : State) (t : Tid) (n va : Nat) : Nat :=
  firstBad (fun x p => x.elemRead t p.1 p.2) va s (s.segs va n)

/-- The first address of `n` bytes that cannot be written. -/
def State.badWrite (s : State) (t : Tid) (n va : Nat) : Nat :=
  firstBad (fun x p => x.elemWrite t p.1 (List.replicate p.2 0)) va s (s.segs va n)

/-! ### Gathers and scatters (R64 to R67) -/

/-- The elements that a gather or scatter has. Table 3.6 gives GATHER and SCATTER to every profile, and a grove thread has no vector
registers: on it they act as one element, data and index in integer registers (DESIGN CHOICE, assumption log 108); on a thread with
Algon-V they take those of a vector register. -/
def gsCount (t : Tid) (w : Nat) : Nat := if t.kind = .grove then 1 else vecLen t.kind w

/-- An index of `w` bytes widened to 64 bits: how the spec leaves open. -/
def gsIndex (w v : Nat) : Nat :=
  if Config.indexSigned ∧ 2 ^ (8 * w - 1) ≤ v then v + 2 ^ 64 - 2 ^ (8 * w) else v

/-- The elements with their addresses A + index × w. -/
def gsElems (t : Tid) (c : Ctx) (w a b : Nat) : List GElem :=
  (List.range (gsCount t w)).map fun i =>
    let idx := if t.kind = .grove then (c.ga b).toNat else gsIndex w (vecEl (c.gv b) w i)
    { num := i, va := ((c.ga a).toNat + idx * w) % 2 ^ 64 }

/-- Element `i` of the data register. -/
def gsData (t : Tid) (c : Ctx) (w d i : Nat) : Nat := if t.kind = .grove then (c.ga d).toNat % 2 ^ (8 * w) else vecEl (c.gv d) w i

/-- An element loaded. -/
def State.gsPut (s : State) (t : Tid) (w d i v : Nat) : State :=
  if t.kind = .grove then s.putResult t d w v else s.modCtx t fun c => c.sv d (setVecEl (c.gv d) w i v)

/-- GATHER.w. On a core with Algon-V it needs the vector unit (R75). -/
def execGather (t : Tid) (w : MemW) (d a b : Reg) (s : State) : Host.Outcome State Fault Refusal :=
  let body := fun (s1 : State) =>
    s1.gatherGo t w.bytes 1 (fun x va => x.elemRead t va w.bytes) (fun x va => x.badRead t w.bytes va)
      (fun x g bs => x.gsPut t w.bytes d g.num (leNat bs)) (gsElems t (s1.ctx t) w.bytes a b)
  .next (if t.kind = .grove then s.issue t (.gather t w d a b) profWork body else s.vecInsn t (.gather t w d a b) true body)

/-- SCATTER.w. -/
def execScatter (t : Tid) (w : MemW) (d a b : Reg) (s : State) : Host.Outcome State Fault Refusal :=
  let body := fun (s1 : State) =>
    s1.scatterGo t (fun x g => x.elemWrite t g.va (natLE w.bytes (gsData t (x.ctx t) w.bytes d g.num)))
      (fun x va => x.badWrite t w.bytes va) (gsElems t (s1.ctx t) w.bytes a b)
  .next (if t.kind = .grove then s.issue t (.scatter t w d a b) profWork body else s.vecInsn t (.scatter t w d a b) true body)

/-! ### Structure accesses (R72, R73) -/

/-- The address that stands for a record which is not loaded and takes zeros. -/
def fillVa : Nat := 2 ^ 64

/-- The records of a structure access: active ones with their addresses; with `fill` the inactive ones stand for zeros. -/
def recElems (t : Tid) (c : Ctx) (n w a : Nat) (k : Nat) (fill : Bool) : List GElem :=
  (List.range (vecLen t.kind w)).filterMap fun i =>
    if (c.gk k).getLsbD i then some { num := i, va := ((c.ga a).toNat + i * n * w) % 2 ^ 64 }
    else if fill then some { num := i, va := fillVa }
    else none

/-- The fields of a record read in order. -/
def State.recRead (s : State) (t : Tid) (w va : Nat) : Nat → MRes × State
  | 0 => (.ok [], s)
  | n + 1 =>
    match s.elemRead t (va % 2 ^ 64) w with
    | (.ok b, s1) =>
      match s1.recRead t w (va + w) n with
      | (.ok b', s2) => (.ok (b ++ b'), s2)
      | x => x
    | x => x

/-- The fields of a record placed: field `j` into element `i` of register D + j. -/
def State.recPut (s : State) (t : Tid) (n w d i : Nat) (bs : List Byte) : State :=
  s.modCtx t fun c => (List.range n).foldl (fun c j => c.sv (d + j) (setVecEl (c.gv (d + j)) w i (fieldLE bs (j * w) w))) c

/-- The pieces of a record: those of its fields. -/
def State.recSegs (s : State) (n w va : Nat) : List (Nat × Nat) :=
  (List.range n).flatMap fun j => s.segs ((va + j * w) % 2 ^ 64) w

/-- The first address of a record that cannot be read (R64, R73). -/
def State.badRec (s : State) (t : Tid) (n w va : Nat) : Nat :=
  firstBad (fun x p => x.elemRead t p.1 p.2) va s (s.recSegs n w va)

/-- The first address of a record that cannot be written. -/
def State.badRecWrite (s : State) (t : Tid) (n w va : Nat) : Nat :=
  firstBad (fun x p => x.elemWrite t p.1 (List.replicate p.2 0)) va s (s.recSegs n w va)

/-- A masked vector load of records of `n` fields of `w` bytes (R72, R73); a plain vector load is one of one field. -/
def State.vecLoad (s : State) (t : Tid) (n w d a k : Nat) (fill : Bool) : TRes :=
  s.gatherGo t w n
    (fun x va => if va = fillVa then (.ok (List.replicate (n * w) 0), x) else x.recRead t w va n)
    (fun x va => x.badRec t n w va)
    (fun x g bs => x.recPut t n w d g.num bs) (recElems t (s.ctx t) n w a k fill)

/-- VLDS.n.w: n of 2, 3 or 4. -/
def execVlds (t : Tid) (n : Nat) (w : MemW) (d a : Reg) (k : Fin 8) (fill : Bool) (s : State) : Host.Outcome State Fault Refusal :=
  .next (s.vecInsn t (.vlds t n w d a k fill) true fun s1 =>
    if n < 2 ∨ 4 < n ∨ 32 < d.val + n then .fault s1 { code := 0x21 } else s1.vecLoad t n w.bytes d a k fill)

/-- The fields of a record written in order. -/
def State.recWrite (s : State) (t : Tid) (w d i va : Nat) : Nat → MRes × State
  | 0 => (.ok [], s)
  | n + 1 =>
    match s.elemWrite t (va % 2 ^ 64) (natLE w (vecEl ((s.ctx t).gv d) w i)) with
    | (.ok _, s1) => s1.recWrite t w (d + 1) i (va + w) n
    | x => x

/-- A record stored whole, or not at all. -/
def State.recStore (s : State) (t : Tid) (n w d : Nat) (g : GElem) : MRes × State :=
  match s.recWrite t w d g.num g.va n with
  | (.ok b, s1) => (.ok b, s1)
  | (r, s1) => (r, s.undo s1)

/-- A masked vector store of such records. -/
def State.vecStore (s : State) (t : Tid) (n w d a k : Nat) : TRes :=
  s.scatterGo t (fun x g => x.recStore t n w d g) (fun x va => x.badRecWrite t n w va) (recElems t (s.ctx t) n w a k false)

/-- VSTS.n.w. -/
def execVsts (t : Tid) (n : Nat) (w : MemW) (d a : Reg) (k : Fin 8) (s : State) : Host.Outcome State Fault Refusal :=
  .next (s.vecInsn t (.vsts t n w d a k) true fun s1 =>
    if n < 2 ∨ 4 < n ∨ 32 < d.val + n then .fault s1 { code := 0x21 } else s1.vecStore t n w.bytes d a k)

end Sys2Proof.Machine
end

