-- ==== Sys2Proof/Machine/Resume.lean ====
section
/-! DEFINITION. Instructions issued again: after a wait (Table 3.2), and at the release of the next step (R18). -/

namespace Sys2Proof.Machine

/-- The meaning of an instruction that a context holds. -/
def reissued (i : Instr) (s : State) : Host.Outcome State Fault Refusal :=
  match i with
  | .stepmark t => execStepmark t s
  | .launch t a => execLaunch t a s
  | .ld t w d a imm ord => execLd t w d a imm ord s
  | .st t w d a imm ord => execSt t w d a imm ord s
  | .amoOp t op w d a b ord => execAmoOp t op w d a b ord s
  | .amoCas t w d a b ord => execAmoCas t w d a b ord s
  | .amoFadd t w d a b ord => execAmoFadd t w d a b ord s
  | .amoFmin t w d a b ord => execAmoFmin t w d a b ord s
  | .amoFmax t w d a b ord => execAmoFmax t w d a b ord s
  | .gather t w d a b => execGather t w d a b s
  | .scatter t w d a b => execScatter t w d a b s
  | .fenceAcq t => execFenceAcq t s
  | .fenceRel t => execFenceRel t s
  | .fenceFull t => execFenceFull t s
  | .texit t => execTexit t s
  | .tstop t a => execTstop t a s
  | .tresume t a => execTresume t a s
  | .tend t a => execTend t a s
  | .tsave t a d => execTsave t a d s
  | .trestore t a d => execTrestore t a d s
  | .fret t => execFret t s
  | .tlbinv t a => execTlbinv t a s
  | .lwatch t a => execLwatch t a s
  | .lwait t d a => execLwait t d a s
  | .srd t d n => execSrd t d n s
  | .swr t a n => execSwr t a n s
  | .rngU t d => execRngU t d s
  | .vlen t w d => execVlen t w d s
  | .ktail t w k a b => execKtail t w k a b s
  | .vlds t n w d a k fill => execVlds t n w d a k fill s
  | .vsts t n w d a k => execVsts t n w d a k s
  | .vfredO t f rm d a b k => execVfredO t f rm d a b k s
  | .vfredT t f rm d b k => execVfredT t f rm d b k s
  | .fadd t f rm d a b => execFadd t f rm d a b s
  | .fsub t f rm d a b => execFsub t f rm d a b s
  | .fmul t f rm d a b => execFmul t f rm d a b s
  | .fdiv t f rm d a b => execFdiv t f rm d a b s
  | .fsqrt t f rm d a b => execFsqrt t f rm d a b s
  | .fmin t f rm d a b => execFmin t f rm d a b s
  | .fmax t f rm d a b => execFmax t f rm d a b s
  | .frnd t f rm d a => execFrnd t f rm d a s
  | .fneg t f rm d a => execFneg t f rm d a s
  | .fabs t f rm d a => execFabs t f rm d a s
  | .fcpsgn t f rm d a b => execFcpsgn t f rm d a b s
  | .frem t f rm d a b => execFrem t f rm d a b s
  | .fscaleb t f rm d a b => execFscaleb t f rm d a b s
  | .flogb t f rm d a => execFlogb t f rm d a s
  | .fnextup t f rm d a => execFnextup t f rm d a s
  | .fnextdn t f rm d a => execFnextdn t f rm d a s
  | .fma t f variant rm d a b c => execFma t f variant rm d a b c s
  | .fcmp t f pred d a b => execFcmp t f pred d a b s
  | .fclass t f d a => execFclass t f d a s
  | .fcvt t src tgt rm sat d a => execFcvt t src tgt rm sat d a s
  | .mepi t a => execMepi t a s
  | .msarea t a => execMsarea t a s
  | .mzero t tile => execMzero t tile s
  | .mstat t d clr => execMstat t d clr s
  | .mwait t d => execMwait t d s
  | .mma t tile d a b => execMma t tile d a b s
  | .mdrain t tile a => execMdrain t tile a s
  | .etld t w d a b => execEtld t w d a b s
  | .etst t w d a b => execEtst t w d a b s
  | .ecprst t w d a b m => execEcprst t w d a b m s
  | .expdld t w d a b m => execExpdld t w d a b m s
  | .eFunc t func rm fmt d a b => execEFunc t func rm fmt d a b s
  | .ered t axis op fmt d a => execEred t axis op fmt d a s
  | .esum t kind fmt d a => execEsum t kind fmt d a s
  | .ecmp t pred fmt d a b => execEcmp t pred fmt d a b s
  | .ecpr t fmt d a b => execEcpr t fmt d a b s
  | .expd t fmt d a b => execExpd t fmt d a b s
  | .eprog t a => execEprog t a s
  | .erun t a => execErun t a s
  | .ecvt t d a b => execEcvt t d a b s
  | .esrd t d slot => execEsrd t d slot s
  | .estat t d clr => execEstat t d clr s
  | .ewait t d => execEwait t d s
  | .esarea t a => execEsarea t a s
  | .eshape t a => execEshape t a s
  | .msel t d a b => execMsel t d a b s
  | .mhint t a => execMhint t a s
  | .mupdate t a b => execMupdate t a b s
  | .mexport t a d => execMexport t a d s
  | .wreg t d a => execWreg t d a s
  | .wdereg t a => execWdereg t a s
  | .acopy t a => execAcopy t a s
  | .acntAlloc t d => execAcntAlloc t d s
  | .acntFree t a => execAcntFree t a s
  | .acntWait t d a b => execAcntWait t d a b s
  | .acntSet t a b => execAcntSet t a b s
  | .gcreate t d a => execGcreate t d a s
  | .gdestroy t d a => execGdestroy t d a s
  | .hzred t a => execHzred t a s
  | _ => .next s

/-- The instruction that a thread's context holds, issued again from READY. -/
def State.reissue (s : State) (t : Tid) : State :=
  match (s.ctx t).instr with
  | some i =>
    match reissued i (s.modCtx t fun c => { c with st := .ready }) with
    | .next s1 => s1
    | _ => s
  | none => s

/-- WAIT_CONDITION_MET: an instruction that waits for a condition of the package, or for its access, is issued again; it may find
that it must go on waiting. -/
def execWaitConditionMet (t : Tid) (s : State) : Host.Outcome State Fault Refusal :=
  let c := s.ctx t
  .next (if c.st = .wait ∧ c.await.retried ∧ !s.debugHeld t.handle then (s.reissue t).retryDereg else s)

/-- Threads that step-boundary actions hold. -/
def State.heldThreads (s : State) : List Tid :=
  (s.thr.ctxs.filter fun e => e.2.st == .held).filterMap fun e => Tid.ofHandle e.1

/-- RELEASE_STEP (R18): the next step is released, held instructions issue in the order of their handles, and requests that waited
go on. -/
def execReleaseStep (s : State) : Host.Outcome State Fault Refusal :=
  let s0 := s.advance
  .next (if s0.releasable then (s0.heldThreads.foldl (fun x t => x.reissue t) s0.freeHeld).releaseWaiting else s0)

end Sys2Proof.Machine
end

