-- ==== Sys2Proof/Machine/Dispatch.lean ====
section
/-! DEFINITION. The meaning of every command: one arm per constructor. -/

namespace Sys2Proof.Machine

def exec (i : Instr) (s : State) : Host.Outcome State Fault Refusal :=
  match i with
  | .registerWrite ag page off width val => Sys2Proof.Machine.execRegisterWrite ag page off width val s
  | .timeCounterLowRead ag page sat => Sys2Proof.Machine.execTimeCounterLowRead ag page sat s
  | .blkVerselWrite ag page val => Sys2Proof.Machine.execBlkVerselWrite ag page val s
  | .blkCtlLock ag page width val => Sys2Proof.Machine.execBlkCtlLock ag page width val s
  | .blkErrinjWrite ag page val => Sys2Proof.Machine.execBlkErrinjWrite ag page val s
  | .errorInjectionActs page => Sys2Proof.Machine.execErrorInjectionActs page s
  | .stackErrinjWrite ag stack val => Sys2Proof.Machine.execStackErrinjWrite ag stack val s
  | .persistentWrite ag idx val => Sys2Proof.Machine.execPersistentWrite ag idx val s
  | .stepmark t => Sys2Proof.Machine.execStepmark t s
  | .equinoxVoteResult err f pmin pmax vmin vmax n => Sys2Proof.Machine.execEquinoxVoteResult err f pmin pmax vmin vmax n s
  | .equinoxCountResult err cmin cmax srcMin srcMax => Sys2Proof.Machine.execEquinoxCountResult err cmin cmax srcMin srcMax s
  | .equinoxRepair order limit failed => Sys2Proof.Machine.execEquinoxRepair order limit failed s
  | .equinoxRepairBarrier failed => Sys2Proof.Machine.execEquinoxRepairBarrier failed s
  | .epochApplyTimeout late => Sys2Proof.Machine.execEpochApplyTimeout late s
  | .epochAgreementResult err flagMin epMin epMax => Sys2Proof.Machine.execEpochAgreementResult err flagMin epMin epMax s
  | .solsticePollResult err v0 v1 v2 v3 v4 => Sys2Proof.Machine.execSolsticePollResult err v0 v1 v2 v3 v4 s
  | .launch t a => Sys2Proof.Machine.execLaunch t a s
  | .threadStart id idx num => Sys2Proof.Machine.execThreadStart id idx num s
  | .ld t w d a imm ord => Sys2Proof.Machine.execLd t w d a imm ord s
  | .st t w d a imm ord => Sys2Proof.Machine.execSt t w d a imm ord s
  | .amoOp t op w d a b ord => Sys2Proof.Machine.execAmoOp t op w d a b ord s
  | .amoCas t w d a b ord => Sys2Proof.Machine.execAmoCas t w d a b ord s
  | .amoFadd t w d a b ord => Sys2Proof.Machine.execAmoFadd t w d a b ord s
  | .amoFmin t w d a b ord => Sys2Proof.Machine.execAmoFmin t w d a b ord s
  | .amoFmax t w d a b ord => Sys2Proof.Machine.execAmoFmax t w d a b ord s
  | .gather t w d a b => Sys2Proof.Machine.execGather t w d a b s
  | .scatter t w d a b => Sys2Proof.Machine.execScatter t w d a b s
  | .fenceAcq t => Sys2Proof.Machine.execFenceAcq t s
  | .fenceRel t => Sys2Proof.Machine.execFenceRel t s
  | .fenceFull t => Sys2Proof.Machine.execFenceFull t s
  | .texit t => Sys2Proof.Machine.execTexit t s
  | .tstop t a => Sys2Proof.Machine.execTstop t a s
  | .tresume t a => Sys2Proof.Machine.execTresume t a s
  | .tend t a => Sys2Proof.Machine.execTend t a s
  | .tsave t a d => Sys2Proof.Machine.execTsave t a d s
  | .trestore t a d => Sys2Proof.Machine.execTrestore t a d s
  | .fret t => Sys2Proof.Machine.execFret t s
  | .tlbinv t a => Sys2Proof.Machine.execTlbinv t a s
  | .lwatch t a => Sys2Proof.Machine.execLwatch t a s
  | .lwait t d a => Sys2Proof.Machine.execLwait t d a s
  | .lwaitTimeout t => Sys2Proof.Machine.execLwaitTimeout t s
  | .srd t d n => Sys2Proof.Machine.execSrd t d n s
  | .swr t a n => Sys2Proof.Machine.execSwr t a n s
  | .rngU t d => Sys2Proof.Machine.execRngU t d s
  | .waitConditionMet t => Sys2Proof.Machine.execWaitConditionMet t s
  | .vectorPowerDown core => Sys2Proof.Machine.execVectorPowerDown core s
  | .vectorWakeDone core => Sys2Proof.Machine.execVectorWakeDone core s
  | .vecCtlHold ag core hold => Sys2Proof.Machine.execVecCtlHold ag core hold s
  | .vlen t w d => Sys2Proof.Machine.execVlen t w d s
  | .ktail t w k a b => Sys2Proof.Machine.execKtail t w k a b s
  | .vlds t n w d a k fill => Sys2Proof.Machine.execVlds t n w d a k fill s
  | .vsts t n w d a k => Sys2Proof.Machine.execVsts t n w d a k s
  | .vfredO t f rm d a b k => Sys2Proof.Machine.execVfredO t f rm d a b k s
  | .vfredT t f rm d b k => Sys2Proof.Machine.execVfredT t f rm d b k s
  | .fadd t f rm d a b => Sys2Proof.Machine.execFadd t f rm d a b s
  | .fsub t f rm d a b => Sys2Proof.Machine.execFsub t f rm d a b s
  | .fmul t f rm d a b => Sys2Proof.Machine.execFmul t f rm d a b s
  | .fdiv t f rm d a b => Sys2Proof.Machine.execFdiv t f rm d a b s
  | .fsqrt t f rm d a b => Sys2Proof.Machine.execFsqrt t f rm d a b s
  | .fmin t f rm d a b => Sys2Proof.Machine.execFmin t f rm d a b s
  | .fmax t f rm d a b => Sys2Proof.Machine.execFmax t f rm d a b s
  | .frnd t f rm d a => Sys2Proof.Machine.execFrnd t f rm d a s
  | .fneg t f rm d a => Sys2Proof.Machine.execFneg t f rm d a s
  | .fabs t f rm d a => Sys2Proof.Machine.execFabs t f rm d a s
  | .fcpsgn t f rm d a b => Sys2Proof.Machine.execFcpsgn t f rm d a b s
  | .frem t f rm d a b => Sys2Proof.Machine.execFrem t f rm d a b s
  | .fscaleb t f rm d a b => Sys2Proof.Machine.execFscaleb t f rm d a b s
  | .flogb t f rm d a => Sys2Proof.Machine.execFlogb t f rm d a s
  | .fnextup t f rm d a => Sys2Proof.Machine.execFnextup t f rm d a s
  | .fnextdn t f rm d a => Sys2Proof.Machine.execFnextdn t f rm d a s
  | .fma t f variant rm d a b c => Sys2Proof.Machine.execFma t f variant rm d a b c s
  | .fcmp t f pred d a b => Sys2Proof.Machine.execFcmp t f pred d a b s
  | .fclass t f d a => Sys2Proof.Machine.execFclass t f d a s
  | .fcvt t src tgt rm sat d a => Sys2Proof.Machine.execFcvt t src tgt rm sat d a s
  | .mepi t a => Sys2Proof.Machine.execMepi t a s
  | .msarea t a => Sys2Proof.Machine.execMsarea t a s
  | .mzero t tile => Sys2Proof.Machine.execMzero t tile s
  | .mstat t d clr => Sys2Proof.Machine.execMstat t d clr s
  | .mwait t d => Sys2Proof.Machine.execMwait t d s
  | .mma t tile d a b => Sys2Proof.Machine.execMma t tile d a b s
  | .mmaExecute g => Sys2Proof.Machine.execMmaExecute g s
  | .mdrain t tile a => Sys2Proof.Machine.execMdrain t tile a s
  | .drainStart g tile => Sys2Proof.Machine.execDrainStart g tile s
  | .drainComplete g tile => Sys2Proof.Machine.execDrainComplete g tile s
  | .etld t w d a b => Sys2Proof.Machine.execEtld t w d a b s
  | .etst t w d a b => Sys2Proof.Machine.execEtst t w d a b s
  | .ecprst t w d a b m => Sys2Proof.Machine.execEcprst t w d a b m s
  | .expdld t w d a b m => Sys2Proof.Machine.execExpdld t w d a b m s
  | .eFunc t func rm fmt d a b => Sys2Proof.Machine.execEFunc t func rm fmt d a b s
  | .ered t axis op fmt d a => Sys2Proof.Machine.execEred t axis op fmt d a s
  | .esum t kind fmt d a => Sys2Proof.Machine.execEsum t kind fmt d a s
  | .ecmp t pred fmt d a b => Sys2Proof.Machine.execEcmp t pred fmt d a b s
  | .ecpr t fmt d a b => Sys2Proof.Machine.execEcpr t fmt d a b s
  | .expd t fmt d a b => Sys2Proof.Machine.execExpd t fmt d a b s
  | .eprog t a => Sys2Proof.Machine.execEprog t a s
  | .erun t a => Sys2Proof.Machine.execErun t a s
  | .ecvt t d a b => Sys2Proof.Machine.execEcvt t d a b s
  | .esrd t d slot => Sys2Proof.Machine.execEsrd t d slot s
  | .estat t d clr => Sys2Proof.Machine.execEstat t d clr s
  | .ewait t d => Sys2Proof.Machine.execEwait t d s
  | .esarea t a => Sys2Proof.Machine.execEsarea t a s
  | .eshape t a => Sys2Proof.Machine.execEshape t a s
  | .ewSplitWrite ag g val => Sys2Proof.Machine.execEwSplitWrite ag g val s
  | .ewSplitApply g => Sys2Proof.Machine.execEwSplitApply g s
  | .scrubRead st upset inner => Sys2Proof.Machine.execScrubRead st upset inner s
  | .repairStart st => Sys2Proof.Machine.execRepairStart st s
  | .laneRepairComplete st ok => Sys2Proof.Machine.execLaneRepairComplete st ok s
  | .rowRepairComplete st => Sys2Proof.Machine.execRowRepairComplete st s
  | .interfaceCrcFail link line replays => Sys2Proof.Machine.execInterfaceCrcFail link line replays s
  | .tempSample st temp => Sys2Proof.Machine.execTempSample st temp s
  | .thermalStopTimeout st => Sys2Proof.Machine.execThermalStopTimeout st s
  | .tempPeakClr ag st => Sys2Proof.Machine.execTempPeakClr ag st s
  | .combinerApply st line => Sys2Proof.Machine.execCombinerApply st line s
  | .combPeakClr ag st => Sys2Proof.Machine.execCombPeakClr ag st s
  | .viewRegister ag idx => Sys2Proof.Machine.execViewRegister ag idx s
  | .viewDeregister ag idx => Sys2Proof.Machine.execViewDeregister ag idx s
  | .copyRingProd st => Sys2Proof.Machine.execCopyRingProd st s
  | .copyDescriptor st => Sys2Proof.Machine.execCopyDescriptor st s
  | .copyDescriptorDone st => Sys2Proof.Machine.execCopyDescriptorDone st s
  | .copyRingEnable ag st => Sys2Proof.Machine.execCopyRingEnable ag st s
  | .solverRingProd q => Sys2Proof.Machine.execSolverRingProd q s
  | .solverJobStart q => Sys2Proof.Machine.execSolverJobStart q s
  | .solverSystemEnd q => Sys2Proof.Machine.execSolverSystemEnd q s
  | .solverDeadline q => Sys2Proof.Machine.execSolverDeadline q s
  | .solverJobEnd q => Sys2Proof.Machine.execSolverJobEnd q s
  | .solverRingEnable ag q => Sys2Proof.Machine.execSolverRingEnable ag q s
  | .modelRegister ag m => Sys2Proof.Machine.execModelRegister ag m s
  | .modelRegisterDone m => Sys2Proof.Machine.execModelRegisterDone m s
  | .modelDeregister ag m => Sys2Proof.Machine.execModelDeregister ag m s
  | .msel t d a b => Sys2Proof.Machine.execMsel t d a b s
  | .mhint t a => Sys2Proof.Machine.execMhint t a s
  | .mupdate t a b => Sys2Proof.Machine.execMupdate t a b s
  | .updatePassDone m => Sys2Proof.Machine.execUpdatePassDone m s
  | .mexport t a d => Sys2Proof.Machine.execMexport t a d s
  | .backgroundCheck m => Sys2Proof.Machine.execBackgroundCheck m s
  | .flitReceive p bytes fec => Sys2Proof.Machine.execFlitReceive p bytes fec s
  | .nak p seq => Sys2Proof.Machine.execNak p seq s
  | .ackTimeout p => Sys2Proof.Machine.execAckTimeout p s
  | .rekey p tx => Sys2Proof.Machine.execRekey p tx s
  | .rd port pkt => Sys2Proof.Machine.execRd port pkt s
  | .wr port pkt => Sys2Proof.Machine.execWr port pkt s
  | .amo port pkt => Sys2Proof.Machine.execAmo port pkt s
  | .cadd port pkt => Sys2Proof.Machine.execCadd port pkt s
  | .rdr port pkt data => Sys2Proof.Machine.execRdr port pkt data s
  | .ack port pkt => Sys2Proof.Machine.execAck port pkt s
  | .nakResponse port pkt => Sys2Proof.Machine.execNakResponse port pkt s
  | .hold arrival => Sys2Proof.Machine.execHold arrival s
  | .holdSend id => Sys2Proof.Machine.execHoldSend id s
  | .remoteTimeout tag held => Sys2Proof.Machine.execRemoteTimeout tag held s
  | .remoteStoreRefusal t => Sys2Proof.Machine.execRemoteStoreRefusal t s
  | .flaggedStoreSend id => Sys2Proof.Machine.execFlaggedStoreSend id s
  | .routeTableWrite ag pkg val => Sys2Proof.Machine.execRouteTableWrite ag pkg val s
  | .portEnable ag p => Sys2Proof.Machine.execPortEnable ag p s
  | .portDisable ag p => Sys2Proof.Machine.execPortDisable ag p s
  | .portRetrain ag p => Sys2Proof.Machine.execPortRetrain ag p s
  | .portTrainingDone p v2 lanes peer enc => Sys2Proof.Machine.execPortTrainingDone p v2 lanes peer enc s
  | .portTrainingFail p encMismatch kxFail => Sys2Proof.Machine.execPortTrainingFail p encMismatch kxFail s
  | .portLossOfSignal p => Sys2Proof.Machine.execPortLossOfSignal p s
  | .wreg t d a => Sys2Proof.Machine.execWreg t d a s
  | .wdereg t a => Sys2Proof.Machine.execWdereg t a s
  | .acopy t a => Sys2Proof.Machine.execAcopy t a s
  | .acopyWritesDone id => Sys2Proof.Machine.execAcopyWritesDone id s
  | .acopyComplete id => Sys2Proof.Machine.execAcopyComplete id s
  | .acntAlloc t d => Sys2Proof.Machine.execAcntAlloc t d s
  | .acntFree t a => Sys2Proof.Machine.execAcntFree t a s
  | .acntWait t d a b => Sys2Proof.Machine.execAcntWait t d a b s
  | .acntSet t a b => Sys2Proof.Machine.execAcntSet t a b s
  | .ctxPeakClr ag => Sys2Proof.Machine.execCtxPeakClr ag s
  | .gcreate t d a => Sys2Proof.Machine.execGcreate t d a s
  | .gdestroy t d a => Sys2Proof.Machine.execGdestroy t d a s
  | .hzred t a => Sys2Proof.Machine.execHzred t a s
  | .hazelPacket pkt => Sys2Proof.Machine.execHazelPacket pkt s
  | .hazelWarn gid boundary seq child => Sys2Proof.Machine.execHazelWarn gid boundary seq child s
  | .hazelAbort gid boundary cause => Sys2Proof.Machine.execHazelAbort gid boundary cause s
  | .canopyStart ag => Sys2Proof.Machine.execCanopyStart ag s
  | .canopyJoin ag => Sys2Proof.Machine.execCanopyJoin ag s
  | .canopyCancel ag => Sys2Proof.Machine.execCanopyCancel ag s
  | .canopyChunkPacket mkey chunk off data => Sys2Proof.Machine.execCanopyChunkPacket mkey chunk off data s
  | .canopyFailureReport relay => Sys2Proof.Machine.execCanopyFailureReport relay s
  | .canopyDone member => Sys2Proof.Machine.execCanopyDone member s
  | .epochArm ag => Sys2Proof.Machine.execEpochArm ag s
  | .epochCancel ag => Sys2Proof.Machine.execEpochCancel ag s
  | .snapshotRequest ag => Sys2Proof.Machine.execSnapshotRequest ag s
  | .preemptionMessage src => Sys2Proof.Machine.execPreemptionMessage src s
  | .preEmpt ag => Sys2Proof.Machine.execPreEmpt ag s
  | .shardDrain progFail => Sys2Proof.Machine.execShardDrain progFail s
  | .snapshotCancel ag => Sys2Proof.Machine.execSnapshotCancel ag s
  | .snapshotRelease ag => Sys2Proof.Machine.execSnapshotRelease ag s
  | .restore ag err committedMin committedMax genMin genMax => Sys2Proof.Machine.execRestore ag err committedMin committedMax genMin genMax s
  | .restoreComplete peers => Sys2Proof.Machine.execRestoreComplete peers s
  | .hostMemRead dpa len own => Sys2Proof.Machine.execHostMemRead dpa len own s
  | .hostMemWrite dpa data poison => Sys2Proof.Machine.execHostMemWrite dpa data poison s
  | .hostMemTimeout id => Sys2Proof.Machine.execHostMemTimeout id s
  | .biTimeout line => Sys2Proof.Machine.execBiTimeout line s
  | .hostSnoop hpa => Sys2Proof.Machine.execHostSnoop hpa s
  | .hostRingEnable ag => Sys2Proof.Machine.execHostRingEnable ag s
  | .getEventRecords ag log => Sys2Proof.Machine.execGetEventRecords ag log s
  | .clearEventRecords ag log handles => Sys2Proof.Machine.execClearEventRecords ag log handles s
  | .getEventInterruptPolicy ag => Sys2Proof.Machine.execGetEventInterruptPolicy ag s
  | .setEventInterruptPolicy ag info warn fail fatal => Sys2Proof.Machine.execSetEventInterruptPolicy ag info warn fail fatal s
  | .getFwInfo ag => Sys2Proof.Machine.execGetFwInfo ag s
  | .transferFw ag slot image => Sys2Proof.Machine.execTransferFw ag slot image s
  | .activateFw ag slot online => Sys2Proof.Machine.execActivateFw ag slot online s
  | .getTimestamp ag => Sys2Proof.Machine.execGetTimestamp ag s
  | .setTimestamp ag val => Sys2Proof.Machine.execSetTimestamp ag val s
  | .getSupportedLogs ag => Sys2Proof.Machine.execGetSupportedLogs ag s
  | .getLog ag => Sys2Proof.Machine.execGetLog ag s
  | .identifyMemoryDevice ag => Sys2Proof.Machine.execIdentifyMemoryDevice ag s
  | .getHealthInfo ag => Sys2Proof.Machine.execGetHealthInfo ag s
  | .unsupportedCommand ag opcode => Sys2Proof.Machine.execUnsupportedCommand ag opcode s
  | .getPackageInfo ag => Sys2Proof.Machine.execGetPackageInfo ag s
  | .jobStart ag job root => Sys2Proof.Machine.execJobStart ag job root s
  | .jobEnd ag job => Sys2Proof.Machine.execJobEnd ag job s
  | .registerWindow ag req => Sys2Proof.Machine.execRegisterWindow ag req s
  | .deregisterWindow ag idx => Sys2Proof.Machine.execDeregisterWindow ag idx s
  | .getRepairRecord ag stack first => Sys2Proof.Machine.execGetRepairRecord ag stack first s
  | .formatSnapshotStore ag => Sys2Proof.Machine.execFormatSnapshotStore ag s
  | .getFaultLog ag p => Sys2Proof.Machine.execGetFaultLog ag p s
  | .getChallenge ag => Sys2Proof.Machine.execGetChallenge ag s
  | .submitRecord ag off last data => Sys2Proof.Machine.execSubmitRecord ag off last data s
  | .lockDebug ag => Sys2Proof.Machine.execLockDebug ag s
  | .getSecurityState ag => Sys2Proof.Machine.execGetSecurityState ag s
  | .debugAccess tap op => Sys2Proof.Machine.execDebugAccess tap op s
  | .spdmGetMeasurements ag => Sys2Proof.Machine.execSpdmGetMeasurements ag s
  | .spdmKeyExchange ag => Sys2Proof.Machine.execSpdmKeyExchange ag s
  | .readRegister page off width => Sys2Proof.Machine.execReadRegister page off width s
  | .writeRegister page off width val => Sys2Proof.Machine.execWriteRegister page off width val s
  | .sealBlob ag label data => Sys2Proof.Machine.execSealBlob ag label data s
  | .unsealBlob ag blob => Sys2Proof.Machine.execUnsealBlob ag blob s
  | .bootStage outcome => Sys2Proof.Machine.execBootStage outcome s
  | .clrFail ag => Sys2Proof.Machine.execClrFail ag s
  | .idleWakeDone u => Sys2Proof.Machine.execIdleWakeDone u s
  | .retReq ag => Sys2Proof.Machine.execRetReq ag s
  | .retExit ag => Sys2Proof.Machine.execRetExit ag s
  | .capWWrite ag val => Sys2Proof.Machine.execCapWWrite ag val s
  | .capSample power => Sys2Proof.Machine.execCapSample power s
  | .dieTempSample die temp => Sys2Proof.Machine.execDieTempSample die temp s
  | .inputRangeChange volts => Sys2Proof.Machine.execInputRangeChange volts s
  | .protectivePowerDown code held => Sys2Proof.Machine.execProtectivePowerDown code held s
  | .preemptN coalesced => Sys2Proof.Machine.execPreemptN coalesced s
  | .safeStopN coalesced => Sys2Proof.Machine.execSafeStopN coalesced s
  | .selfTestPass u ok unit => Sys2Proof.Machine.execSelfTestPass u ok unit s
  | .faultClr ag => Sys2Proof.Machine.execFaultClr ag s
  | .injEnWrite ag val => Sys2Proof.Machine.execInjEnWrite ag val s
  | .hdmDecoderCommit base size => Sys2Proof.Machine.execHdmDecoderCommit base size s
  | .persistentCommitDone => Sys2Proof.Machine.execPersistentCommitDone s
  | .equinoxVote => Sys2Proof.Machine.execEquinoxVote s
  | .epochApply => Sys2Proof.Machine.execEpochApply s
  | .epochApplied => Sys2Proof.Machine.execEpochApplied s
  | .solsticePoll => Sys2Proof.Machine.execSolsticePoll s
  | .releaseStep => Sys2Proof.Machine.execReleaseStep s
  | .faultNoticeWrite => Sys2Proof.Machine.execFaultNoticeWrite s
  | .canopyKeepalive => Sys2Proof.Machine.execCanopyKeepalive s
  | .canopyParentTimeout => Sys2Proof.Machine.execCanopyParentTimeout s
  | .canopyGo => Sys2Proof.Machine.execCanopyGo s
  | .canopyAbandon => Sys2Proof.Machine.execCanopyAbandon s
  | .snapshotUnitCopy => Sys2Proof.Machine.execSnapshotUnitCopy s
  | .stallLimit => Sys2Proof.Machine.execStallLimit s
  | .snapshotCommit => Sys2Proof.Machine.execSnapshotCommit s
  | .cxlLinkDown => Sys2Proof.Machine.execCxlLinkDown s
  | .ideIntegrityFailure => Sys2Proof.Machine.execIdeIntegrityFailure s
  | .hotReset => Sys2Proof.Machine.execHotReset s
  | .cxlReset => Sys2Proof.Machine.execCxlReset s
  | .hostRingProd => Sys2Proof.Machine.execHostRingProd s
  | .ringMark => Sys2Proof.Machine.execRingMark s
  | .backgroundCommandDone => Sys2Proof.Machine.execBackgroundCommandDone s
  | .mgmtFwRunning => Sys2Proof.Machine.execMgmtFwRunning s
  | .mgmtFwActivationTimeout => Sys2Proof.Machine.execMgmtFwActivationTimeout s
  | .nonceExpiry => Sys2Proof.Machine.execNonceExpiry s
  | .debugSessionExpiry => Sys2Proof.Machine.execDebugSessionExpiry s
  | .pwrGoodAssert => Sys2Proof.Machine.execPwrGoodAssert s
  | .coldStart => Sys2Proof.Machine.execColdStart s
  | .pwrGoodDeassert => Sys2Proof.Machine.execPwrGoodDeassert s
  | .perstAssert => Sys2Proof.Machine.execPerstAssert s
  | .perstDeassert => Sys2Proof.Machine.execPerstDeassert s
  | .bootStageTimeout => Sys2Proof.Machine.execBootStageTimeout s
  | .bootRestart => Sys2Proof.Machine.execBootRestart s
  | .idleEntry => Sys2Proof.Machine.execIdleEntry s
  | .trstN => Sys2Proof.Machine.execTrstN s
  | .inputStuck => Sys2Proof.Machine.execInputStuck s
  | .sysRefclkLoss => Sys2Proof.Machine.execSysRefclkLoss s
  | .glRefclkLoss => Sys2Proof.Machine.execGlRefclkLoss s
  | .cxlRefclkLoss => Sys2Proof.Machine.execCxlRefclkLoss s
  | .lockstepMismatch => Sys2Proof.Machine.execLockstepMismatch s
  | .cxlIdeKeyManagement => Sys2Proof.Machine.execCxlIdeKeyManagement s
  | .voltageMonitorTrip unit => Sys2Proof.Machine.execVoltageMonitorTrip unit s
  | .selfTestForce u => Sys2Proof.Machine.execSelfTestForce u s
  | .groveOutReq ag g => Sys2Proof.Machine.execGroveOutReq ag g s
  | .groveReturn ag g => Sys2Proof.Machine.execGroveReturn ag g s
  | .groveSvcDrained g => Sys2Proof.Machine.execGroveSvcDrained g s
  | .groveMarginTestDone g rotationOk marginOk => Sys2Proof.Machine.execGroveMarginTestDone g rotationOk marginOk s
  | .shardDigestRequest requester tensor => Sys2Proof.Machine.execShardDigestRequest requester tensor s
  | .canopyChunkRequest member chunk => Sys2Proof.Machine.execCanopyChunkRequest member chunk s
  | .canopyReparent member newParent firstChunk => Sys2Proof.Machine.execCanopyReparent member newParent firstChunk s
  | .canopyJoinReceived member => Sys2Proof.Machine.execCanopyJoinReceived member s
  | .clockMonitorTrip unit => Sys2Proof.Machine.execClockMonitorTrip unit s

end Sys2Proof.Machine
end

