-- ==== Sys2Proof/Safety.lean ====
section
/-! DEFINITION. What counts as a safe run, and the conditions that claims name: memory and register cells in canonical form, a thread
that issues its instruction, a package in normal operation. -/

namespace Sys2Proof.Machine

/-- DRAM, BAR2 and the register cells are in their canonical form (Machine/Tab.lean): keys strictly rising, nothing listed that
reads as the unlisted value. -/
def State.memWf (s : State) : Bool := tabWf dramDefault s.dram && tabWf barDefault s.bar2 && tabWf regDefault s.regs

/-- A thread issues an instruction whose profile is `p`: its context is READY, debug has neither halted it nor steps it, no refusal
of an earlier store is due, the boundary does not hold the instruction (R17), its pc is fetched from `tgt` and its level admits
the instruction (R53, R55). `s1` is the state after the fetch; no stop of the thread is pending (R61). -/
structure State.Issues (s : State) (t : Tid) (p : Prof) (tgt : Target) (s1 : State) : Prop where
  valid : t.valid = true
  ready : (s.ctx t).st = .ready
  run : s.debugHeld t.handle = false
  step : s.sec.stepping.contains t.handle = false
  late : (s.ctx t).late = none
  free : ¬(p.work = true ∧ s.boundary = true ∧ (s.ctx t).await.out = false)
  fetched : s.fetch t = (.ok tgt, s1)
  admitted : p.admits t (s1.ctx t).sup = true
  unstopped : (s1.ctx t).stopPending = false

/-- A command answers a next state, and that state has the property. -/
def Completes (c : Instr) (s : State) (q : State → Prop) : Prop := ∃ u, exec c s = .next u ∧ q u

/-- Nothing is wrong with the line as it is stored: its codeword decodes clean, the inner code reports no correction, its directory
entry has no wrong bit (R152, R154, R180). -/
def State.lineClean (s : State) (line : Nat) : Bool :=
  s.decode line == .clean && s.inner line != 1 && tabGet cntZero s.mem.dirErr line == 0

/-- The line is served as it stands: it is clean, and its transfer succeeds (R169). -/
def State.lineGood (s : State) (line : Nat) : Bool :=
  s.lineClean line && !s.mem.xfer.contains line && !s.mem.msc.contains line

/-- An access to the address finds its marks set in the page table: A, and for a write D (Table 2.5). -/
def State.leafMarked (s : State) (va : Nat) (k : AKind) : Bool :=
  match s.findLeaf va 5 0 (s.fld fPkg_TROOT) with
  | some l => (l.e ||| 0x80 ||| (if k.writes then 0x100 else 0)) == l.e
  | none => true

/-- The package runs: a cold start has come to BS9, and it is not in safe stop (R390, R424). -/
def State.inRun (s : State) : Bool := s.pwr.mode == .run && s.booted && !s.flag fSafe_SAFE

/-- A run from `s` over `k` steps neither faults nor is refused, and the memory it leaves is canonical. -/
def SafeRun (s : State) (k : Nat) : Prop := ∃ s', Host.Core.run Sys2Proof.core k s = .next s' ∧ s'.memWf = true

end Sys2Proof.Machine
end

