-- ==== Sys2Proof/WellFormed.lean ====
section
/-! DEFINITION. Well-formed commands: every operand lies in the range that the spec's field for it has. A meaning takes any command;
statements about what a field can carry ask for a well-formed one. -/

namespace Sys2Proof

/-- A page index or an offset within a page: 12 bits (Table 19.1). -/
def pageOk (n : Nat) : Bool := decide (n < 0x1000)
/-- A page of BAR0, or one of BAR2, which lies 4 GiB above it in local physical addresses (R436). -/
def barPageOk (n : Nat) : Bool := pageOk n || (decide (0x100000 ≤ n) && decide (n < 0x200000))
/-- A bus access of 1, 2, 4 or 8 bytes; R437 says what becomes of each. -/
def widthOk (w : Nat) : Bool := w == 1 || w == 2 || w == 4 || w == 8
/-- A remote context's number (R281). -/
def tagOk (n : Nat) : Bool := decide (n < 0x40000)
/-- A package ID: bits 63 to 48 of a global fabric address (R37). -/
def pkgOk (n : Nat) : Bool := decide (n < 0x10000)
/-- A field of 8 bits. -/
def byteOk (n : Nat) : Bool := decide (n < 256)
/-- A symbol of a stored codeword: 64 of data and 8 of check (R153). -/
def symOk (n : Nat) : Bool := decide (n < 72)
/-- A flit (R261). -/
def flitOk (b : List Byte) : Bool := b.length == 256
/-- A window registration request (Table 11.7). -/
def recOk (b : List Byte) : Bool := b.length == 32
/-- Fields of a structure access (R73). -/
def fieldsOk (n : Nat) : Bool := decide (2 ≤ n) && decide (n ≤ 4)

/-- A packet within the widths of Table 11.5, with at most 256 bytes of payload. -/
def Packet.wf (k : Packet) : Bool :=
  decide (k.len ≤ 256) && pkgOk k.src && decide (k.job < 0x10000) && tagOk k.tag && byteOk k.cause && byteOk k.aop && byteOk k.aw &&
    decide (k.data.length ≤ 256)

/-- A Hazel packet: a group ID of 12 bits, eight operations and values, at most eight of them used. -/
def HzPacket.wf (k : HzPacket) : Bool :=
  decide (k.gid < 4096) && decide (k.job < 0x10000) && k.ops.length == 8 && decide (k.nval ≤ 8) && decide (k.ktop < 256) &&
    k.vals.length == 8 && pkgOk k.dst

/-- A thread that a debug operation names exists; a memory access has at least one byte. -/
def DbgOp.wf : DbgOp → Bool
  | .halt t => t.valid
  | .resume t => t.valid
  | .singleStep t => t.valid
  | .breakpoint t _ _ => t.valid
  | .readOther t _ => t.valid
  | .writeOther t _ _ => t.valid
  | .readReg t _ => t.valid
  | .writeReg t _ _ => t.valid
  | .readMem _ n => decide (0 < n)
  | .writeMem _ d => !d.isEmpty
  | .readTrace => true

/-- Digests of 32 bytes (Table 17.2). -/
def Image.wf (x : Image) : Bool := x.digest.length == 32 && x.ownerKeyDigest.length == 32

/-- Indices of what a boot stage finds (R390 to R393). -/
def BootEnv.wf (e : BootEnv) : Bool :=
  e.failedPcs.all (fun n => decide (n < 512)) && e.badLanes.all (fun n => decide (n < 8192)) &&
    e.failed0.all byteOk && e.failed1.all byteOk

/-- A stage's outcome. -/
def BootOutcome.wf : BootOutcome → Bool
  | .passed e => e.wf
  | .failed c => byteOk c

/-- Every operand of a command is in its range. -/
def Instr.wf : Instr → Bool
  | .registerWrite _ page off width _ => barPageOk page && pageOk off && widthOk width
  | .timeCounterLowRead _ page _ => pageOk page
  | .blkVerselWrite _ page _ => pageOk page
  | .blkCtlLock _ page width _ => pageOk page && widthOk width
  | .blkErrinjWrite _ page _ => pageOk page
  | .errorInjectionActs page => pageOk page
  | .stackErrinjWrite _ _ _ => true
  | .persistentWrite _ _ _ => true
  | .persistentCommitDone => true
  | .stepmark t => t.valid
  | .equinoxVote => true
  | .equinoxVoteResult _ _ _ _ _ _ _ => true
  | .equinoxCountResult _ _ _ _ _ => true
  | .equinoxRepair order _ _ => order.all fun m => decide (m < 4096)
  | .equinoxRepairBarrier _ => true
  | .epochApply => true
  | .epochApplied => true
  | .epochApplyTimeout late => pageOk late
  | .epochAgreementResult _ _ _ _ => true
  | .solsticePoll => true
  | .solsticePollResult _ _ _ _ _ _ => true
  | .releaseStep => true
  | .launch t _ => t.valid
  | .threadStart _ _ _ => true
  | .ld t _ _ _ _ _ => t.valid
  | .st t _ _ _ _ _ => t.valid
  | .amoOp t _ _ _ _ _ _ => t.valid
  | .amoCas t _ _ _ _ _ => t.valid
  | .amoFadd t _ _ _ _ _ => t.valid
  | .amoFmin t _ _ _ _ _ => t.valid
  | .amoFmax t _ _ _ _ _ => t.valid
  | .gather t _ _ _ _ => t.valid
  | .scatter t _ _ _ _ => t.valid
  | .fenceAcq t => t.valid
  | .fenceRel t => t.valid
  | .fenceFull t => t.valid
  | .texit t => t.valid
  | .tstop t _ => t.valid
  | .tresume t _ => t.valid
  | .tend t _ => t.valid
  | .tsave t _ _ => t.valid
  | .trestore t _ _ => t.valid
  | .fret t => t.valid
  | .tlbinv t _ => t.valid
  | .lwatch t _ => t.valid
  | .lwait t _ _ => t.valid
  | .lwaitTimeout t => t.valid
  | .srd t _ _ => t.valid
  | .swr t _ _ => t.valid
  | .rngU t _ => t.valid
  | .waitConditionMet t => t.valid
  | .faultNoticeWrite => true
  | .vectorPowerDown _ => true
  | .vectorWakeDone _ => true
  | .vecCtlHold _ _ _ => true
  | .vlen t _ _ => t.valid
  | .ktail t _ _ _ _ => t.valid
  | .vlds t n _ _ _ _ _ => t.valid && fieldsOk n
  | .vsts t n _ _ _ _ => t.valid && fieldsOk n
  | .vfredO t _ _ _ _ _ _ => t.valid
  | .vfredT t _ _ _ _ _ => t.valid
  | .fadd t _ _ _ _ _ => t.valid
  | .fsub t _ _ _ _ _ => t.valid
  | .fmul t _ _ _ _ _ => t.valid
  | .fdiv t _ _ _ _ _ => t.valid
  | .fsqrt t _ _ _ _ _ => t.valid
  | .fmin t _ _ _ _ _ => t.valid
  | .fmax t _ _ _ _ _ => t.valid
  | .frnd t _ _ _ _ => t.valid
  | .fneg t _ _ _ _ => t.valid
  | .fabs t _ _ _ _ => t.valid
  | .fcpsgn t _ _ _ _ _ => t.valid
  | .frem t _ _ _ _ _ => t.valid
  | .fscaleb t _ _ _ _ _ => t.valid
  | .flogb t _ _ _ _ => t.valid
  | .fnextup t _ _ _ _ => t.valid
  | .fnextdn t _ _ _ _ => t.valid
  | .fma t _ _ _ _ _ _ _ => t.valid
  | .fcmp t _ _ _ _ _ => t.valid
  | .fclass t _ _ _ => t.valid
  | .fcvt t _ _ _ _ _ _ => t.valid
  | .mepi t _ => t.valid
  | .msarea t _ => t.valid
  | .mzero t _ => t.valid
  | .mstat t _ _ => t.valid
  | .mwait t _ => t.valid
  | .mma t _ _ _ _ => t.valid
  | .mmaExecute _ => true
  | .mdrain t _ _ => t.valid
  | .drainStart _ _ => true
  | .drainComplete _ _ => true
  | .etld t _ _ _ _ => t.valid
  | .etst t _ _ _ _ => t.valid
  | .ecprst t _ _ _ _ _ => t.valid
  | .expdld t _ _ _ _ _ => t.valid
  | .eFunc t _ _ _ _ _ _ => t.valid
  | .ered t _ _ _ _ _ => t.valid
  | .esum t _ _ _ _ => t.valid
  | .ecmp t _ _ _ _ _ => t.valid
  | .ecpr t _ _ _ _ => t.valid
  | .expd t _ _ _ _ => t.valid
  | .eprog t _ => t.valid
  | .erun t _ => t.valid
  | .ecvt t _ _ _ => t.valid
  | .esrd t _ _ => t.valid
  | .estat t _ _ => t.valid
  | .ewait t _ => t.valid
  | .esarea t _ => t.valid
  | .eshape t _ => t.valid
  | .ewSplitWrite _ _ _ => true
  | .ewSplitApply _ => true
  | .scrubRead _ upset _ => upset.all symOk
  | .repairStart _ => true
  | .laneRepairComplete _ _ => true
  | .rowRepairComplete _ => true
  | .interfaceCrcFail _ _ _ => true
  | .tempSample _ _ => true
  | .thermalStopTimeout _ => true
  | .tempPeakClr _ _ => true
  | .combinerApply _ _ => true
  | .combPeakClr _ _ => true
  | .viewRegister _ _ => true
  | .viewDeregister _ _ => true
  | .copyRingProd _ => true
  | .copyDescriptor _ => true
  | .copyDescriptorDone _ => true
  | .copyRingEnable _ _ => true
  | .solverRingProd _ => true
  | .solverJobStart _ => true
  | .solverSystemEnd _ => true
  | .solverDeadline _ => true
  | .solverJobEnd _ => true
  | .solverRingEnable _ _ => true
  | .modelRegister _ _ => true
  | .modelRegisterDone _ => true
  | .modelDeregister _ _ => true
  | .msel t _ _ _ => t.valid
  | .mhint t _ => t.valid
  | .mupdate t _ _ => t.valid
  | .updatePassDone _ => true
  | .mexport t _ _ => t.valid
  | .backgroundCheck _ => true
  | .flitReceive _ bytes _ => flitOk bytes
  | .nak _ _ => true
  | .ackTimeout _ => true
  | .rekey _ _ => true
  | .rd _ pkt => pkt.wf
  | .wr _ pkt => pkt.wf
  | .amo _ pkt => pkt.wf
  | .cadd _ pkt => pkt.wf
  | .rdr _ pkt data => pkt.wf && decide (data.length ≤ 256)
  | .ack _ pkt => pkt.wf
  | .nakResponse _ pkt => pkt.wf
  | .hold arrival => arrival.2.wf
  | .holdSend _ => true
  | .remoteTimeout tag _ => tagOk tag
  | .remoteStoreRefusal t => t.valid
  | .flaggedStoreSend _ => true
  | .routeTableWrite _ pkg _ => pkgOk pkg
  | .portEnable _ _ => true
  | .portDisable _ _ => true
  | .portRetrain _ _ => true
  | .portTrainingDone _ _ _ _ _ => true
  | .portTrainingFail _ _ _ => true
  | .portLossOfSignal _ => true
  | .wreg t _ _ => t.valid
  | .wdereg t _ => t.valid
  | .acopy t _ => t.valid
  | .acopyWritesDone _ => true
  | .acopyComplete _ => true
  | .acntAlloc t _ => t.valid
  | .acntFree t _ => t.valid
  | .acntWait t _ _ _ => t.valid
  | .acntSet t _ _ => t.valid
  | .ctxPeakClr _ => true
  | .gcreate t _ _ => t.valid
  | .gdestroy t _ _ => t.valid
  | .hzred t _ => t.valid
  | .hazelPacket pkt => pkt.wf
  | .hazelWarn gid _ _ _ => decide (gid < 4096)
  | .hazelAbort gid _ _ => decide (gid < 4096)
  | .canopyStart _ => true
  | .canopyJoin _ => true
  | .canopyCancel _ => true
  | .canopyChunkPacket _ _ _ data => decide (data.length ≤ 256)
  | .canopyKeepalive => true
  | .canopyParentTimeout => true
  | .canopyFailureReport relay => pkgOk relay
  | .canopyDone member => pkgOk member
  | .canopyGo => true
  | .canopyAbandon => true
  | .epochArm _ => true
  | .epochCancel _ => true
  | .snapshotRequest _ => true
  | .preemptionMessage src => pkgOk src
  | .preEmpt _ => true
  | .snapshotUnitCopy => true
  | .stallLimit => true
  | .shardDrain _ => true
  | .snapshotCommit => true
  | .snapshotCancel _ => true
  | .snapshotRelease _ => true
  | .restore _ _ _ _ _ _ => true
  | .restoreComplete peers => (peers.getD []).all fun d => d.2.length == 32
  | .hostMemRead _ len _ => decide (len ≤ 64)
  | .hostMemWrite _ data _ => decide (data.length ≤ 64)
  | .hostMemTimeout _ => true
  | .biTimeout _ => true
  | .hostSnoop _ => true
  | .cxlLinkDown => true
  | .ideIntegrityFailure => true
  | .hotReset => true
  | .cxlReset => true
  | .hostRingProd => true
  | .ringMark => true
  | .hostRingEnable _ => true
  | .getEventRecords _ _ => true
  | .clearEventRecords _ _ _ => true
  | .getEventInterruptPolicy _ => true
  | .setEventInterruptPolicy _ info warn fail fatal => byteOk info && byteOk warn && byteOk fail && byteOk fatal
  | .getFwInfo _ => true
  | .transferFw _ _ image => image.wf
  | .backgroundCommandDone => true
  | .activateFw _ _ _ => true
  | .mgmtFwRunning => true
  | .mgmtFwActivationTimeout => true
  | .getTimestamp _ => true
  | .setTimestamp _ _ => true
  | .getSupportedLogs _ => true
  | .getLog _ => true
  | .identifyMemoryDevice _ => true
  | .getHealthInfo _ => true
  | .unsupportedCommand _ _ => true
  | .getPackageInfo _ => true
  | .jobStart _ _ _ => true
  | .jobEnd _ _ => true
  | .registerWindow _ req => recOk req
  | .deregisterWindow _ _ => true
  | .getRepairRecord _ _ _ => true
  | .formatSnapshotStore _ => true
  | .getFaultLog _ p => pageOk p
  | .getChallenge _ => true
  | .nonceExpiry => true
  | .submitRecord _ _ _ _ => true
  | .lockDebug _ => true
  | .getSecurityState _ => true
  | .debugSessionExpiry => true
  | .debugAccess _ op => op.wf
  | .spdmGetMeasurements _ => true
  | .spdmKeyExchange _ => true
  | .readRegister page off width => pageOk page && pageOk off && widthOk width
  | .writeRegister page off width _ => pageOk page && pageOk off && widthOk width
  | .sealBlob _ _ _ => true
  | .unsealBlob _ _ => true
  | .pwrGoodAssert => true
  | .coldStart => true
  | .pwrGoodDeassert => true
  | .perstAssert => true
  | .perstDeassert => true
  | .bootStage outcome => outcome.wf
  | .bootStageTimeout => true
  | .bootRestart => true
  | .clrFail _ => true
  | .idleEntry => true
  | .idleWakeDone _ => true
  | .retReq _ => true
  | .retExit _ => true
  | .capWWrite _ _ => true
  | .capSample _ => true
  | .dieTempSample _ _ => true
  | .inputRangeChange _ => true
  | .protectivePowerDown _ _ => true
  | .preemptN _ => true
  | .safeStopN _ => true
  | .trstN => true
  | .inputStuck => true
  | .sysRefclkLoss => true
  | .glRefclkLoss => true
  | .cxlRefclkLoss => true
  | .voltageMonitorTrip _ => true
  | .lockstepMismatch => true
  | .selfTestPass _ _ _ => true
  | .selfTestForce _ => true
  | .faultClr _ => true
  | .injEnWrite _ _ => true
  | .groveOutReq _ _ => true
  | .groveReturn _ _ => true
  | .groveSvcDrained _ => true
  | .groveMarginTestDone _ _ _ => true
  | .shardDigestRequest requester _ => pkgOk requester
  | .canopyChunkRequest member _ => pkgOk member
  | .canopyReparent member newParent _ => pkgOk member && pkgOk newParent
  | .canopyJoinReceived member => pkgOk member
  | .hdmDecoderCommit _ _ => true
  | .cxlIdeKeyManagement => true
  | .clockMonitorTrip _ => true

end Sys2Proof
end

