-- ==== Sys2Proof/Certificates/Slice0/Obligations.lean ====
section
/-! DEFINITION. The statements about the model. Names of meanings and of shared operations are those of the model: an expected next state is
written with the operation that the command applies, so that a frame is exact. -/

open Sys2Proof Sys2Proof.Machine

/-- REGISTER_WRITE of an aligned register beyond the common header, on a page whose registers have no action of their own: RW bits take the
value written, RW1C bits written 1 are cleared, every other bit of the register, every other register and all other state stay (R9, R12,
R437, R438). -/
def Obligations.RegisterWriteActsByAccessCode : Prop :=
  ∀ (s : State) (ag : Agent) (p off width : Nat) (val : W64) (b : Blk) (i : Nat),
    pageBlk p = some (b, i) → b ∈ [Blk.eqx, .hz, .scrub, .stk, .view, .nand, .pst, .bridge] → 0x40 ≤ off → off < 0x1000 →
    regAligned off width = true → s.agentUp ag = true →
    ∃ u, exec (.registerWrite ag p off width val) s = .next u ∧ { u with regs := s.regs } = s ∧
      (∀ k, k ≠ p * 512 + off / 8 → u.cell k = s.cell k) ∧
      ∀ n, n < 64 →
        let has := fun a => (pageFields p).any fun f => f.acc == a && f.off / 8 == off / 8 && decide (f.shift ≤ n) && decide (n < f.shift + (f.hi + 1 - f.lo))
        let written := decide (off % 8 * 8 ≤ n) && decide (n < off % 8 * 8 + 8 * width)
        let bit := val.getLsbD (n - off % 8 * 8)
        (u.cell (p * 512 + off / 8)).getLsbD n =
          (if has .rw && written then bit else if has .w1c && written && bit then false else (s.cell (p * 512 + off / 8)).getLsbD n)

/-- Each command that is a write of one field, by an agent that reaches the registers, completes with the effect its register table gives:
arming and cancelling a configuration, requesting and releasing a snapshot, CLR_FAIL, CAP_W within 600 to 1,800, FAULT_CLR outside safe
stop, INJ_EN, holding a vector unit awake, the element-wise split, and the peak values that are set back to the present ones (R76, R129,
R319, R326, R382, R394, R423, R432). -/
def Obligations.FieldCommandsComplete : Prop :=
  ∀ (s : State) (ag : Agent), s.agentUp ag = true →
    (∃ u, exec (.epochArm ag) s = .next u ∧
      (s.armCode = 0 → u.flag fMode_ARMED = true ∧ u.flag fMode_REFUSED = s.flag fMode_REFUSED) ∧
      (s.armCode ≠ 0 → u.flag fMode_REFUSED = true ∧ u.fld fMode_CODE = s.armCode % 2 ^ 8 ∧ u.flag fMode_ARMED = s.flag fMode_ARMED)) ∧
    (∃ u, exec (.epochCancel ag) s = .next u ∧ u.flag fMode_ARMED = (s.flag fMode_ARMED && s.flag fMode_APPLYING)) ∧
    (∃ u, exec (.snapshotRequest ag) s = .next u ∧ u.flag fSnap_REQ_PEND = true ∧
      u.fld fSnap_NOTICES = (if s.flag fSnap_REQ_PEND then min (s.fld fSnap_NOTICES + 1) (2 ^ 32 - 1) else s.fld fSnap_NOTICES)) ∧
    (∃ u, exec (.snapshotRelease ag) s = .next u ∧ u.flag fSnap_HELD = false) ∧
    (∃ u, exec (.clrFail ag) s = .next u ∧ u.pwr.clrFail = true ∧ u.regs = s.regs) ∧
    (∀ val : W32, ∃ u, exec (.capWWrite ag val) s = .next u ∧
      u.fld fPwr_CAP_W = (if 600 ≤ val.toNat % 4096 ∧ val.toNat % 4096 ≤ 1800 then val.toNat % 4096 else s.fld fPwr_CAP_W)) ∧
    (∃ u, exec (.faultClr ag) s = .next u ∧ u.flag fSafe_FAULT = (s.flag fSafe_FAULT && s.flag fSafe_SAFE)) ∧
    (∀ v, ∃ u, exec (.injEnWrite ag v) s = .next u ∧ u.flag fSafe_INJ_EN = v) ∧
    (∀ (c : Fin 48) (hold : Bool), ∃ u, exec (.vecCtlHold ag c hold) s = .next u ∧ u.flag (fVec_HOLD c) = hold ∧
      (hold = true → u.flag (fVec_AWAKE c) = true ∨ u.vecWaking c = true)) ∧
    (∀ (g : Fin 256) (v : Fin 4), ∃ u, exec (.ewSplitWrite ag g v) s = .next u ∧
      u.fld (fGrove_SPLIT g) = (if v.val < 3 then v.val else s.fld (fGrove_SPLIT g)) ∧ u.fld (fGrove_APPLIED g) = s.fld (fGrove_APPLIED g)) ∧
    (∀ st : Fin 8, ∃ u, exec (.tempPeakClr ag st) s = .next u ∧ u.fld (fMem_PEAK st) = s.fld (fMem_TEMP st)) ∧
    (∀ st : Fin 8, ∃ u, exec (.combPeakClr ag st) s = .next u ∧ u.fld (fMsc_COMB_PEAK st) = s.fld (fMsc_COMB_USE st)) ∧
    (∃ u, exec (.ctxPeakClr ag) s = .next u ∧ u.fld fWin_CTX_PEAK = s.fld fWin_CTX_USE)

/-- The common header (R12, R176, R434, R441): BLK_VERSEL takes version 1.0 and ignores every other; LOCK is set by 1 and stays; an arming
that the lifecycle or Table 18.8 does not allow is ignored, any other write of BLK_ERRINJ sets ARM, KIND and TARGET. Nothing else of the
registers changes. An armed injection acts once at its opportunity (R434, Table 18.8): on the security and the power page it is a detection
of reaction S of its class, ARM is clear and INJECTED set; on a grove's, a stack's or the control page it is the next pass of the self-test;
with nothing armed there is no effect. -/
def Obligations.HeaderWritesAndInjectionsAct : Prop :=
  (∀ (s : State) (ag : Agent) (p : Nat) (b : Blk) (i : Nat), s.agentUp ag = true → pageBlk p = some (b, i) →
    (∀ v : W32, Completes (.blkVerselWrite ag p v) s fun u =>
      u.fld (fVersel p) = (if v.toNat % 65536 = 0x100 then 0x100 else s.fld (fVersel p)) ∧ (∀ k, k ≠ (fVersel p).key → u.cell k = s.cell k) ∧
      { u with regs := s.regs } = s) ∧
    (∀ (v : W64) (width : Nat), (width = 4 ∨ width = 8) → Completes (.blkCtlLock ag p width v) s fun u =>
      u.flag (fLock p) = (s.flag (fLock p) || v.getLsbD 0) ∧ (∀ k, k ≠ (fLock p).key → u.cell k = s.cell k) ∧ { u with regs := s.regs } = s) ∧
    (∀ v : W32, b.hasInj = true → b ≠ .prot → b ≠ .eqx →
      (v.getLsbD 0 = false ∨ (s.injAllowed = true ∧ injNamed b (v.toNat / 2 % 8) (v.toNat / 256 % 256) = true) →
        Completes (.blkErrinjWrite ag p v) s fun u =>
          u.flag (fInj_ARM p) = v.getLsbD 0 ∧ u.fld (fInj_KIND p) = v.toNat / 2 % 8 ∧ u.fld (fInj_TARGET p) = v.toNat / 256 % 256 ∧
          ∀ k, k ≠ (fInj_ARM p).key → u.cell k = s.cell k) ∧
      (v.getLsbD 0 = true → (s.injAllowed = false ∨ injNamed b (v.toNat / 2 % 8) (v.toNat / 256 % 256) = false) →
        exec (.blkErrinjWrite ag p v) s = .next s)) ∧
    (∀ (n : Fin 8) (v : W32),
      let bad := v.toNat / 2 % 2 = 0 ∧ (v.toNat / 4 % 16 = 0 ∨ 4 < v.toNat / 4 % 16 ∨ 8 < v.toNat / 64 % 16)
      (v.getLsbD 0 = false ∨ (s.injAllowed = true ∧ ¬ bad) → Completes (.stackErrinjWrite ag n v) s fun u =>
        u.flag (fProt_INJ_ARM n) = v.getLsbD 0 ∧ u.fld (fProt_INJ_UE n) = v.toNat / 2 % 2 ∧ u.fld (fProt_INJ_COUNT n) = v.toNat / 4 % 16 ∧
        u.fld (fProt_INJ_LANE n) = v.toNat / 64 % 16 ∧ ∀ k, k ≠ (fProt_INJ_ARM n).key → u.cell k = s.cell k) ∧
      (v.getLsbD 0 = true → (s.injAllowed = false ∨ bad) → exec (.stackErrinjWrite ag n v) s = .next s))) ∧
  (∀ s : State,
    (∀ p, s.flag (fInj_ARM p) = false → exec (.errorInjectionActs p) s = .next s) ∧
    (∀ p kind cls, (p, kind, cls) ∈ [(0x018, 1, 0x0A), (0x00E, 1, 0x0B), (0x00E, 2, 0x0C)] → s.injArmed p kind = true →
      (s.injDone p).flag (fInj_ARM p) = false ∧ (s.injDone p).flag (fErr_INJECTED p) = true ∧
      Completes (.errorInjectionActs p) s fun u => u = (s.injDone p).detectS { cls := cls, react := 3, page := p, injected := true }) ∧
    (∀ g : Fin 256, s.injArmed (0x100 + g.val) 3 = true →
      exec (.errorInjectionActs (0x100 + g.val)) s = exec (.selfTestPass (.groveT g) true 0) s) ∧
    (∀ n : Fin 8, s.injArmed (0x0C4 + 8 * n.val) 1 = true →
      exec (.errorInjectionActs (0x0C4 + 8 * n.val)) s = exec (.selfTestPass (.stackT n) true 0) s) ∧
    (∀ c : Fin 48, s.injArmed 0x010 1 = true → s.fld (fInj_TARGET 0x010) = c.val →
      exec (.errorInjectionActs 0x010) s = exec (.selfTestPass (.coreT c) true 0) s))

/-- Reads of registers (R437, R442, R451): a 4-byte read of a time counter's low half answers it and latches the high half of the same
value, which the agent's next 4-byte read of the high half gives; READ_REGISTER answers 8 bytes, of a page without a block zeros, of a cell
without measured fields the readable fields; WRITE_REGISTER has the effect of a write of that register and is answered at once unless it
began a commit (R446); on a page whose registers have no action of their own RW bits take the value written, RW1C bits written 1 are cleared
and nothing else changes (R9, R12); an access that is not aligned is refused with Invalid Input. -/
def Obligations.RegisterReadsAnswer : Prop :=
  ∀ s : State,
    (∀ (ag : Agent) (p : Nat) (b : Blk) (i : Nat) (sat : Bool), s.agentUp ag = true → pageBlk p = some (b, i) →
      let v := (s.readCell p (if sat then 6 else 5)).1
      Completes (.timeCounterLowRead ag p sat) s fun u => u.regs = s.regs ∧
        u.answers = .value (BitVec.ofNat 64 (v % 2 ^ 32)) :: s.answers ∧
        (u.regRead ag p (if sat then 0x34 else 0x2C) 4).1 = v / 2 ^ 32) ∧
    (s.pwr.mctp = true → ∀ p off width : Nat,
      (regAligned off width = true → p < 0x1000 → off < 0x1000 → ∀ val : W64,
        (∃ out, Completes (.readRegister p off width) s fun u => u.regs = s.regs ∧ u.answers = .code 0 out :: s.answers ∧ out.length = 8 ∧
          (pageBlk p = none → out = List.replicate 8 0) ∧
          (cellMask p (off / 8) (fun f => f.acc == .timed) = 0 → width = 8 → pageBlk p ≠ none → ¬(p = 0 ∧ off = 0x60) →
            leNat out = (s.shown p (off / 8) &&& cellMask p (off / 8) RegF.plain) % 2 ^ 64)) ∧
        (let u := s.regWrite .bmc p off width val.toNat
         u.pst.commits ≤ s.pst.commits → exec (.writeRegister p off width val) s = .next (u.answer (.code 0 []))) ∧
        (let u := s.regWrite .bmc p off width val.toNat
         s.pst.commits < u.pst.commits → exec (.writeRegister p off width val) s =
          .next { u with pst := { u.pst with waits := u.pst.waits ++ [(u.pst.commits, .command)] } }) ∧
        (∀ (b : Blk) (i : Nat), pageBlk p = some (b, i) → b ∈ [Blk.eqx, .hz, .scrub, .stk, .view, .nand, .pst, .bridge] → 0x40 ≤ off →
          Completes (.writeRegister p off width val) s fun u => u.answers = .code 0 [] :: s.answers ∧
            { u with regs := s.regs, answers := s.answers } = s ∧ (∀ k, k ≠ p * 512 + off / 8 → u.cell k = s.cell k) ∧
            ∀ n, n < 64 →
              let has := fun a => (pageFields p).any fun f => f.acc == a && f.off / 8 == off / 8 && decide (f.shift ≤ n) && decide (n < f.shift + (f.hi + 1 - f.lo))
              let written := decide (off % 8 * 8 ≤ n) && decide (n < off % 8 * 8 + 8 * width)
              let bit := val.getLsbD (n - off % 8 * 8)
              (u.cell (p * 512 + off / 8)).getLsbD n =
                (if has .rw && written then bit else if has .w1c && written && bit then false else (s.cell (p * 512 + off / 8)).getLsbD n))) ∧
      (regAligned off width = false → ∀ val, exec (.readRegister p off width) s = .next (s.answer (.code 2 [])) ∧
        exec (.writeRegister p off width val) s = .next (s.answer (.code 2 []))))

/-- Fields kept in the persistent store (R446 to R448): a write from an allowed source of a value the field accepts begins a commit, which a
read shows at once and the store holds when it completes; the register's write count and COMMITS rise by one. A WRITE_REGISTER that began a
commit is answered when it completes (R9). A source that is not allowed sets DENIED and commits nothing. -/
def Obligations.PersistentWritesCommit : Prop :=
  ∀ (s : State) (ag : Agent) (idx : Fin 4) (val : W32), s.agentUp ag = true →
    let f : Fld := match idx with | 0 => fPkg_PKG_ID | 1 => fPwr_CAP_DEF | 2 => fSnap_RSV_GIB | 3 => ⟨0x020, 0x44, 2, 0⟩
    let v := val.toNat / 2 ^ f.lo % 2 ^ f.w
    (s.srcOk ag = false → Completes (.persistentWrite ag idx val) s fun u => u.flag fPst_DENIED = true ∧ u.pst = s.pst ∧ u.fld f = s.fld f) ∧
    (s.srcOk ag = true → pstValid idx v = true → s.flag (fPcnt_LIMIT idx) = false → s.pst.busy = none → s.pst.queue = [] →
      Completes (.persistentWrite ag idx val) s fun u =>
        u.pst.busy = some (idx.val, v) ∧ u.flag fPst_BUSY = true ∧ u.fld f = s.fld f ∧ u.pstPending idx = some v) ∧
    (s.pwr.mctp = true → s.srcOk .bmc = true → pstValid idx v = true → s.flag (fPcnt_LIMIT idx) = false → s.pst.busy = none → s.pst.queue = [] →
      Completes (.writeRegister (pstReg idx).1 (pstReg idx).2 4 (val.setWidth 64)) s fun u =>
        u.pst.busy = some (idx.val, v) ∧ u.pst.waits = s.pst.waits ++ [(1, .command)] ∧ u.answers = s.answers) ∧
    (∀ i w, s.pst.busy = some (i, w) → i < 3 → s.pst.queue = [] → Completes .persistentCommitDone s fun u =>
      u.pst.busy = none ∧ u.pstVal i = w ∧ u.flag fPst_BUSY = false ∧ u.fld (fPcnt i) = (s.fld (fPcnt i) + 1) % 2 ^ 32 ∧
      u.fld fPst_COMMITS = (s.fld fPst_COMMITS + 1) % 2 ^ 64 ∧ u.fld fPst_LAST_IDX = i ∧
      (i = 0 → u.fld fPkg_PKG_ID = w % 65536) ∧ (i = 1 → u.fld fPwr_CAP_DEF = w % 4096) ∧ (i = 2 → u.fld fSnap_RSV_GIB = w % 64) ∧
      (s.pst.waits = [(1, .command)] → s.fld (fPcnt i) + 1 ≠ 90000 → s.fld (fPcnt i) + 1 ≠ 100000 → u.answers = .code 0 [] :: s.answers) ∧
      (u.flag (fPcnt_LIMIT i) = true ↔ s.flag (fPcnt_LIMIT i) = true ∨ s.fld (fPcnt i) + 1 = 100000))

/-- A grove out of service (R457, Table 20.4): OUT_REQ takes a grove that is IN when no other is out; its contexts idle and its engines
without owner it is TESTING, its scratch lost; the margin test leaves it TESTED with its result; RETURN takes back a grove that is LEAVING
or TESTED well. -/
def Obligations.GroveServiceFollowsItsStates : Prop :=
  ∀ (s : State) (ag : Agent) (g : Fin 256), s.agentUp ag = true →
    let st := s.fld (fGrove_STATE g)
    Completes (.groveOutReq ag g) s (fun u => u.fld (fGrove_STATE g) =
      if s.flag fSafe_SAFE = false ∧ s.pwr.mode = .run ∧ (∀ h : Fin 256, s.fld (fGrove_STATE h) = 0) then 1 else st) ∧
    Completes (.groveReturn ag g) s (fun u => u.fld (fGrove_STATE g) =
      if st = 1 ∨ (st = 3 ∧ s.fld (fGrove_RESULT g) = 1) then 0 else st) ∧
    (st = 1 → (∀ e ∈ s.thr.ctxs, e.1 / 256 = g.val → e.2.st = .idle) → (s.mat g).owner = none → (s.mat g).queue = [] →
      (∀ c < 8, (s.ew (g.val * 8 + c)).owner = none) → Completes (.groveSvcDrained g) s fun u =>
        u.fld (fGrove_STATE g) = 2 ∧ (u.grove g).scratch = [] ∧ u.thr.ctxs = s.thr.ctxs) ∧
    (st ≠ 1 → exec (.groveSvcDrained g) s = .next s) ∧
    (∀ ok, st = 2 → s.flag fSafe_SAFE = false → s.injArmed (0x100 + g.val) 3 = false → Completes (.groveMarginTestDone g true ok) s fun u =>
      u.fld (fGrove_STATE g) = 3 ∧ u.fld (fGrove_RESULT g) = if ok then 1 else 2) ∧
    (∀ ok, st = 2 → s.flag fSafe_SAFE = false → exec (.groveMarginTestDone g false ok) s = exec (.selfTestPass (.groveT g) false 0) s)

/-- Every scalar floating-point instruction of two or three operands that issues under an effective rounding mode 0 to 4 retires: its f
register takes the result zero-extended, its flags are ORed into FFLAGS, the pc moves past it, and nothing else changes (R80, R85, R89,
R96). The same for the instructions of one operand; FLOGB writes an a register (R81, R96). -/
def Obligations.ScalarFloatOperationsRetire : Prop :=
  (∀ (s s1 : State) (t : Tid) (tgt : Target) (f : FW) (rm : Fin 8) (d a b c : Reg),
    s.Issues t profAll tgt s1 → (s1.ctx t).effRm rm ≤ 4 →
    let x := s1.ctx t
    let k := fwFmt f
    let m := x.effRm rm
    let done := fun (r : Nat × Flags) => Host.Outcome.next (s1.setCtx t (x.putF d r).retired)
    exec (.fadd t f rm d a b) s = done (k.add m (x.fpat f a) (x.fpat f b)) ∧
    exec (.fsub t f rm d a b) s = done (k.sub m (x.fpat f a) (x.fpat f b)) ∧
    exec (.fmul t f rm d a b) s = done (k.mul m (x.fpat f a) (x.fpat f b)) ∧
    exec (.fdiv t f rm d a b) s = done (k.div m (x.fpat f a) (x.fpat f b)) ∧
    (b = 0 → exec (.fsqrt t f rm d a b) s = done (k.sqrt m (x.fpat f a))) ∧
    exec (.fmin t f rm d a b) s = done (k.maxMin false (x.fpat f a) (x.fpat f b)) ∧
    exec (.fmax t f rm d a b) s = done (k.maxMin true (x.fpat f a) (x.fpat f b)) ∧
    exec (.fcpsgn t f rm d a b) s = done (k.copySign (x.fpat f a) (x.fpat f b), 0) ∧
    exec (.frem t f rm d a b) s = done (k.rem (x.fpat f a) (x.fpat f b)) ∧
    exec (.fscaleb t f rm d a b) s = done (k.scaleB m (x.fpat f a) (x.ga b).toInt) ∧
    (∀ v : Fin 4, exec (.fma t f v rm d a b c) s =
      done (k.fma m (decide (2 ≤ v.val)) (decide (v.val % 2 = 1)) (x.fpat f a) (x.fpat f b) (x.fpat f c)))) ∧
  (∀ (s s1 : State) (t : Tid) (tgt : Target) (f : FW) (rm : Fin 8) (d a : Reg),
    s.Issues t profAll tgt s1 → (s1.ctx t).effRm rm ≤ 4 →
    let x := s1.ctx t
    let k := fwFmt f
    let m := x.effRm rm
    let done := fun (r : Nat × Flags) => Host.Outcome.next (s1.setCtx t (x.putF d r).retired)
    exec (.frnd t f rm d a) s = done (k.rnd m (x.fpat f a)) ∧
    exec (.fneg t f rm d a) s = done (k.negate (x.fpat f a), 0) ∧
    exec (.fabs t f rm d a) s = done (k.absVal (x.fpat f a), 0) ∧
    exec (.fnextup t f rm d a) s = done (k.nextUp (x.fpat f a)) ∧
    exec (.fnextdn t f rm d a) s = done (k.nextDn (x.fpat f a)) ∧
    exec (.flogb t f rm d a) s =
      .next (s1.setCtx t ((x.sa d (BitVec.ofInt 64 (k.logB (x.fpat f a)).1)).raise (k.logB (x.fpat f a)).2).retired))

/-- Comparisons and classes write an a register, and do not round (R83, R96); a conversion between two formats of Table 4.8 writes the
register of its target format (R88, R89), and with mode 5 draws from SEED and advances it (R87). Where scalar floating point traps: an
effective rounding mode 5 or 6 outside FCVT, FSQRT with a B field that is not 0, and a reserved predicate raise ILLEGAL_INSN (R85, R83,
Table 4.8); the thread's registers keep their values. -/
def Obligations.ScalarComparesConvertsAndIllegalForms : Prop :=
  (∀ (s s1 : State) (t : Tid) (tgt : Target) (f : FW) (d a b : Reg),
    s.Issues t profAll tgt s1 →
    let x := s1.ctx t
    let k := fwFmt f
    (∀ (p : Fin 32) (r : Bool) (fl : Flags), p.val ≠ 31 → k.compare p (x.fpat f a) (x.fpat f b) = some (r, fl) →
      exec (.fcmp t f p d a b) s = .next (s1.setCtx t ((x.sa d (BitVec.ofNat 64 r.toNat)).raise fl).retired)) ∧
    exec (.fclass t f d a) s = .next (s1.setCtx t (x.sa d (BitVec.ofNat 64 (k.classMask (x.fpat f a)))).retired) ∧
    (∀ (src tgt : Fin 32) (rm : Fin 8) (sat : Bool), cvtCode src = true → cvtCode tgt = true → x.effRm rm ≠ 6 →
      let m := x.effRm rm
      let r := codeConvert src tgt m (x.draw0 m s1.fresh) sat (x.cvtSrc src a)
      exec (.fcvt t src tgt rm sat d a) s = .next (s1.setCtx t (((x.cvtPut tgt d r.1).raise r.2).seeded m).retired))) ∧
  (∀ (s s1 : State) (t : Tid) (tgt : Target) (f : FW) (rm : Fin 8) (d a b c : Reg),
    s.Issues t profAll tgt s1 →
    let ill := Host.Outcome.next (s1.takeFault t { code := 0x21 })
    (4 < (s1.ctx t).effRm rm →
      (∀ i ∈ [Instr.fadd t f rm d a b, .fsub t f rm d a b, .fmul t f rm d a b, .fdiv t f rm d a b, .fsqrt t f rm d a b, .fmin t f rm d a b,
        .fmax t f rm d a b, .frnd t f rm d a, .fneg t f rm d a, .fabs t f rm d a, .fcpsgn t f rm d a b, .frem t f rm d a b,
        .fscaleb t f rm d a b, .flogb t f rm d a, .fnextup t f rm d a, .fnextdn t f rm d a, .fma t f 0 rm d a b c], exec i s = ill)) ∧
    (b ≠ 0 → exec (.fsqrt t f rm d a b) s = ill) ∧
    (∀ p : Fin 32, p.val ≠ 31 → (fwFmt f).compare p ((s1.ctx t).fpat f a) ((s1.ctx t).fpat f b) = none → exec (.fcmp t f p d a b) s = ill) ∧
    ∀ r, ((s1.takeFault t { code := 0x21 }).ctx t).gf r = (s1.ctx t).gf r ∧ ((s1.takeFault t { code := 0x21 }).ctx t).ga r = (s1.ctx t).ga r)

/-- LD of a DRAM location within one good line, on a page whose A mark is set, retires: D takes the location's bytes, little-endian, its
bits above the width free; the pc moves on; every other register of the thread and every byte of DRAM is as the translation left it (R41,
R54, R57). ST, plain, to a DRAM location within one good line, on a page whose A and D marks are set, retires: the location holds the low
bytes of D, every other byte of DRAM is as the translation left it, no register of the thread changes but the pc (R41, R46, R54). The line
is not protected, not watched, and no injection waits for it. An atomic of width 4 or 8 without a release (ORD 0 or 1) on an aligned DRAM
location of a good line, on a page whose A and D marks are set and stay set, retires: D takes the old value, the location takes the
operation's result, and no other byte of DRAM changes (R54, R185, Table 8.3). The first access of a kind to a page sets its marks in the
leaf's word, and nothing else of DRAM (Table 2.5; that an access which is not performed sets none is the model's choice, log 105). -/
def Obligations.LoadsStoresAndAtomicsRetire : Prop :=
  (∀ (s s1 s2 : State) (t : Tid) (tgt : Target) (w : MemW) (d a : Reg) (imm : Byte) (ord : Fin 8) (key : Nat),
    s.Issues t profWork tgt s1 → ord.val ≤ 1 →
    let va := memAddr ((s1.ctx t).ga a) imm w.bytes
    va % 4096 + w.bytes ≤ 4096 → key % 64 + w.bytes ≤ 64 →
    s1.xlate (s1.whoOf t) va .load = (.ok (.dram key), s2) →
    s2.leafMarked va .load = true →
    s2.accessStalled key w.bytes false = false → s2.biLines key w.bytes false (holderIn t key) = [] →
    s2.lineGood (key / 64) = true → (s2.stk (keyStack (key / 64 * 64))).comb.any (fun e => e.1 == key / 64) = false →
    Completes (.ld t w d a imm ord) s fun u =>
      (∃ free, (u.ctx t).ga d = narrow w.bytes (leNat (s2.dramBytes key w.bytes)) free) ∧
      (u.ctx t).st = .ready ∧ (u.ctx t).pc = (s2.ctx t).pc + 4 ∧
      (∀ r : Nat, r ≠ d.val → (u.ctx t).ga r = (s2.ctx t).ga r) ∧
      (∀ r, (u.ctx t).gf r = (s2.ctx t).gf r ∧ (u.ctx t).gv r = (s2.ctx t).gv r ∧ (u.ctx t).gk r = (s2.ctx t).gk r) ∧
      (u.ctx t).fflags = (s2.ctx t).fflags ∧ (∀ j, u.dramByte j = s2.dramByte j) ∧ u.regs = s2.regs ∧ u.bar2 = s2.bar2) ∧
  (∀ (s s1 s2 : State) (t : Tid) (tgt : Target) (w : MemW) (d a : Reg) (imm : Byte) (key : Nat),
    s.Issues t profWork tgt s1 →
    let va := memAddr ((s1.ctx t).ga a) imm w.bytes
    va % 4096 + w.bytes ≤ 4096 → key % 64 + w.bytes ≤ 64 →
    s1.xlate (s1.whoOf t) va .store = (.ok (.dram key), s2) →
    s2.protectedKey key w.bytes = false → s2.unitProtected key = false → s2.unitProtected (key + w.bytes - 1) = false →
    s2.leafMarked va .store = true →
    s2.accessStalled key w.bytes true = false → s2.biLines key w.bytes true (holderIn t key) = [] →
    s2.lineClean (key / 64) = true → (s2.stk (keyStack (key / 64 * 64))).comb.any (fun e => e.1 == key / 64) = false →
    (∀ p, s2.flag (fInj_ARM p) = false) → (∀ e ∈ s2.thr.ctxs, e.2.lines = []) →
    Completes (.st t w d a imm 0) s fun u =>
      u.dramBytes key w.bytes = natLE w.bytes ((s1.ctx t).ga d).toNat ∧
      (∀ j, j < key ∨ key + w.bytes ≤ j → u.dramByte j = s2.dramByte j) ∧
      u.ctx t = (s2.ctx t).retired ∧ u.regs = s2.regs ∧ u.bar2 = s2.bar2) ∧
  (∀ (s s1 s2 : State) (t : Tid) (tgt : Target) (w : MemW) (d a b : Reg) (ord : Fin 8) (key : Nat),
    s.Issues t profWork tgt s1 → ord.val ≤ 1 → 4 ≤ w.bytes →
    let va := ((s1.ctx t).ga a).toNat
    va % w.bytes = 0 → key % 64 + w.bytes ≤ 64 →
    s1.xlate (s1.whoOf t) va .atomic = (.ok (.dram key), s2) →
    s2.protectedKey key w.bytes = false → s2.unitProtected key = false → s2.accessStalled key w.bytes true = false →
    s2.biLines key w.bytes true .none = [] → s2.lineGood (key / 64) = true →
    (s2.stk (keyStack (key / 64 * 64))).comb.any (fun e => e.1 == key / 64) = false →
    (∀ p, s2.flag (fInj_ARM p) = false) → (∀ e ∈ s2.thr.ctxs, e.2.lines = []) →
    let m := 2 ^ (8 * w.bytes)
    let old := leNat (s2.dramBytes key w.bytes)
    let x := ((s1.ctx t).ga b).toNat % m
    let e := ((s1.ctx t).ga d).toNat % m
    let did := fun (aop : Nat) (u : State) =>
      (∃ free, (u.ctx t).ga d = narrow w.bytes old free) ∧ (u.ctx t).pc = (s2.ctx t).pc + 4 ∧
      u.dramBytes key w.bytes = natLE w.bytes (amoStored aop w.bytes old x e) ∧
      (∀ j, j < key ∨ key + w.bytes ≤ j → u.dramByte j = s2.dramByte j) ∧
      (∀ r : Nat, r ≠ d.val → (u.ctx t).ga r = (s2.ctx t).ga r)
    let marked := fun (aop : Nat) => (s2.putDram key (natLE w.bytes (amoStored aop w.bytes old x e))).leafMarked va .atomic = true
    (∀ op, marked (aopCode op) → Completes (.amoOp t op w d a b ord) s (did (aopCode op))) ∧
    (marked 9 → Completes (.amoCas t w d a b ord) s (did 9)) ∧ (marked 10 → Completes (.amoFadd t w d a b ord) s (did 10)) ∧
    (marked 11 → Completes (.amoFmin t w d a b ord) s (did 11)) ∧ (marked 12 → Completes (.amoFmax t w d a b ord) s (did 12)) ∧
    ∀ (x : State) (y : Nat) (k : AKind) (l : Leaf), x.findLeaf y 5 0 (x.fld fPkg_TROOT) = some l → l.key % 8 = 0 →
      x.decode (l.key / 64) = .clean →
      (x.markAccess y k).dramBytes l.key 8 = natLE 8 (l.e ||| 0x80 ||| (if k.writes then 0x100 else 0)) ∧
      ∀ j, j < l.key ∨ l.key + 8 ≤ j → (x.markAccess y k).dramByte j = x.dramByte j)

/-- Fences and line-watches that need not wait retire: FENCE.ACQ when every earlier load is performed, the reads of queued MMAs among them,
FENCE.REL and FENCE.FULL when every earlier access is, and after FENCE.FULL no translation waits to be dropped (R32, R42, R122, Table 2.8);
LWATCH arms the line of its address, up to four (R56); LWAIT with a written line ends at once, D takes its index and every armed line is
cleared. A wait of a thread ends as its rule says: a release with stores outstanding waits, and WAIT_CONDITION_MET issues it again; an LWAIT
whose timeout expires gives 0xFF (R51, R56, Table 3.2). -/
def Obligations.FencesLineWatchesAndWaitsEnd : Prop :=
  (∀ (s s1 : State) (t : Tid) (tgt : Target) (d a : Reg), s.Issues t profAll tgt s1 →
    (s1.loadsDone t = true →
      Completes (.fenceAcq t) s (fun u => u.ctx t = (s1.ctx t).retired ∧ (t.kind ≠ .grove → u = s1.setCtx t (s1.ctx t).retired))) ∧
    (s1.released t = true → exec (.fenceRel t) s = .next (s1.setCtx t (s1.ctx t).retired)) ∧
    (s1.released t = true → Completes (.fenceFull t) s fun u => u.ctx t = (s1.ctx t).retired ∧ u.thr.inv = []) ∧
    (∀ i, (s1.ctx t).written = some i → Completes (.lwait t d a) s fun u =>
      (u.ctx t).ga d = BitVec.ofNat 64 i ∧ (u.ctx t).lines = [] ∧ (u.ctx t).st = .ready ∧ (u.ctx t).pc = (s1.ctx t).pc + 4) ∧
    (∀ s2 g, s.Issues t profWork tgt s1 → s1.xlate (s1.whoOf t) ((s1.ctx t).ga a).toNat .load = (.ok g, s2) → s2.ctx t = s1.ctx t →
      let line := g.lineId ((s1.ctx t).ga a).toNat
      (s1.ctx t).lines.any (fun e => e.1 == line) = false → (s1.ctx t).lines.length < 4 →
      exec (.lwatch t a) s = .next (s2.setCtx t { s1.ctx t with lines := (s1.ctx t).lines ++ [(line, false)] }.retired))) ∧
  ((∀ (s s1 : State) (t : Tid) (tgt : Target), s.Issues t profAll tgt s1 → s1.released t = false →
    exec (.fenceRel t) s = .next (s1.setCtx t ((s1.ctx t).waiting (.fenceRel t) .cond))) ∧
  (∀ (s s1 : State) (t : Tid) (tgt : Target), (s.ctx t).st = .wait → (s.ctx t).await = .cond → (s.ctx t).instr = some (.fenceRel t) →
    s.debugHeld t.handle = false → (s.modCtx t fun c => { c with st := .ready }).Issues t profAll tgt s1 → s1.released t = true →
    exec (.waitConditionMet t) s = .next (s1.setCtx t (s1.ctx t).retired)) ∧
  (∀ (s : State) (t : Tid) (d a : Reg), (s.ctx t).st = .wait → (s.ctx t).await = .line → (s.ctx t).instr = some (.lwait t d a) →
    (s.ctx t).ga a ≠ 0 → Completes (.lwaitTimeout t) s fun u =>
      (u.ctx t).ga d = 0xFF ∧ (u.ctx t).st = .ready ∧ (u.ctx t).lines = [] ∧ (u.ctx t).pc = (s.ctx t).pc + 4))

/-- State registers (R62, Table 3.8): SRD reads them, SWR writes the writable ones, a read after a write gives back what the register holds;
HVEC is there for control threads at supervisor level only, and a number that Table 3.8 does not name is illegal. RNG.U gives a free value,
and raises ND_OP under STRICT (R314). -/
def Obligations.StateRegistersReadAndWrite : Prop :=
  ∀ (s s1 : State) (t : Tid) (tgt : Target) (d a : Reg) (n : BitVec 16), s.Issues t profAll tgt s1 →
    let c := s1.ctx t
    let sup := t.kind = .control ∧ c.sup = true
    (∀ v, (n.toNat < 0x0B ∨ (n = 0x0C ∧ sup)) → s1.stateReg t n.toNat = some v →
      exec (.srd t d n) s = .next (s1.setCtx t (c.sa d v).retired)) ∧
    (n = 0x0B → Completes (.srd t d n) s fun u => ∃ free : W64, u.ctx t = (c.sa d free).retired) ∧
    ((n.toNat < 0x0C ∨ (n = 0x0C ∧ sup)) → exec (.swr t a n) s = .next (s1.setCtx t (c.putState n.toNat (c.ga a)).retired)) ∧
    ((0x0C < n.toNat ∨ (n = 0x0C ∧ ¬ sup)) →
      exec (.srd t d n) s = .next (s1.takeFault t { code := 0x21 }) ∧ exec (.swr t a n) s = .next (s1.takeFault t { code := 0x21 })) ∧
    (∀ v : W64, (c.putState 0x06 v).fflags = v.setWidth 5 ∧ (c.putState 0x08 v).gsIdx = v.setWidth 16 ∧ (c.putState 0x09 v).seed = v ∧
      (c.putState 0x04 v).faultPc = v ∧ (c.putState 0x0C v).hvec.toNat % 4 = 0 ∧ (c.putState 0x07 v).frm ≠ 7 ∧
      c.putState 0x00 v = c ∧ c.putState 0x01 v = c ∧ c.putState 0x02 v = c ∧ c.putState 0x0A v = c ∧ c.putState 0x0B v = c) ∧
    (s1.flag fMode_A_STRICT = false → Completes (.rngU t d) s fun u => ∃ free : W64, u.ctx t = (c.sa d free).retired) ∧
    (s1.flag fMode_A_STRICT = true → exec (.rngU t d) s = .next (s1.takeFault t { code := 0x5C }))

/-- Where a precise fault goes (R57, R59, R60): a grove or near thread, and a control thread at supervisor level or without a handler, is
FAULTED with its fault state, and its notice joins those that wait; a control thread at job level with a handler goes on at HVEC at
supervisor level, with the fault state in its registers. The registers a, f, v, k keep their values. FAULT_NOTICE_WRITE (R60, R63, Table
3.9): with the queue enabled and not full, the oldest notice is written at the place of FQ_PROD, which advances; a full queue leaves the
notice waiting. -/
def Obligations.FaultsAreTakenAndNoticed : Prop :=
  (∀ (s : State) (t : Tid) (f : FaultArg),
    let c := s.ctx t
    let u := s.takeFault t f
    let x := u.ctx t
    let handled := t.kind = .control ∧ c.sup = false ∧ c.hvec ≠ 0
    (x.faultPc = c.pc ∧ x.faultVa = f.va ∧ x.instr = none ∧ x.a = c.a ∧ x.f = c.f ∧ x.v = c.v ∧ x.k = c.k) ∧
    (handled → x.st = .ready ∧ x.sup = true ∧ x.pc = c.hvec ∧ x.faultInfo = faultWord f.code f.gs.isSome f.errVal 0 ∧
      u.thr.notices = s.thr.notices) ∧
    (¬ handled → x.st = .faulted ∧ x.pc = c.pc ∧
      (∃ n, u.thr.notices = s.thr.notices ++ [n] ∧ n.t = t ∧ n.pc = c.pc ∧ n.va = f.va ∧
        n.code = if t.kind = .control then 0x2E else f.code) ∧
      x.faultInfo = (if t.kind = .control then faultWord 0x2E f.gs.isSome f.errVal f.code else faultWord f.code f.gs.isSome f.errVal 0)) ∧
    u.regs = s.regs ∧ u.dram = s.dram ∧ u.bar2 = s.bar2) ∧
  (∀ (s s1 : State) (n : Notice) (rest : List Notice) (b : List Byte), s.thr.notices = n :: rest →
    (s.flag fCtl_EN = true → s.fqFull = false →
      s.vwrite unitAgt (s.fld fCtl_FQ_BASE * 64 + 32 * (s.fld fCtl_FQ_PROD % 2 ^ s.fqLog)) n.bytes = (.ok b, s1) →
      Completes .faultNoticeWrite s fun u => u.thr.notices = rest ∧ u.fld fCtl_FQ_PROD = (s1.fld fCtl_FQ_PROD + 1) % 2 ^ 32) ∧
    (s.fqFull = true → exec .faultNoticeWrite s = .next s))

/-- Supervisor threads act on other threads of their job (R55, R59 to R61, Table 3.6): TSTOP stops a READY thread with no refusal due,
TRESUME restarts at FAULT_PC one whose notice has been written, TEND frees the context of a FAULTED one whose stores are performed, TLBINV
lists an address to be dropped, FRET returns to FAULT_PC at job level. -/
def Obligations.SupervisorActsOnThreads : Prop :=
  ∀ (s s1 : State) (t x : Tid) (tgt : Target) (a : Reg), s.Issues t profSup tgt s1 → x.valid = true → x ≠ t →
    (s1.ctx t).ga a = BitVec.ofNat 64 x.handle → (s1.ctx x).job = (s1.ctx t).job →
    ((s1.ctx x).st = .ready → (s1.ctx x).late = none → Completes (.tstop t a) s fun u =>
      (u.ctx x).st = .faulted ∧ (u.ctx x).faultInfo = faultWord 0x2F false false 0 ∧ (u.ctx x).faultPc = (s1.ctx x).pc ∧
      u.ctx t = (s1.ctx t).retired) ∧
    ((s1.ctx x).st = .faulted → (s1.ctx x).noticed = true → Completes (.tresume t a) s fun u =>
      (u.ctx x).st = .ready ∧ (u.ctx x).pc = (s1.ctx x).faultPc ∧ u.ctx t = (s1.ctx t).retired) ∧
    ((s1.ctx x).st = .faulted → (s1.ctx x).launch = none → s1.storesOut x = false → Completes (.tend t a) s fun u =>
      u.ctx x = Ctx.idle ∧ u.ctx t = (s1.ctx t).retired) ∧
    Completes (.tlbinv t a) s (fun u => u.thr.inv = s1.thr.inv ++ [(s1.ctx t).ga a] ∧ u.ctx t = (s1.ctx t).retired) ∧
    Completes (.fret t) s (fun u => (u.ctx t).pc = (s1.ctx t).faultPc ∧ (u.ctx t).sup = false ∧ (u.ctx t).st = .ready)

/-- LAUNCH (R22, R23, Table 2.3): the verdict on the descriptor is written as the descriptor's STATUS, and an accepted launch joins the
launches with every thread to be placed. `noVerdict`: the check waits for a table's stack. THREAD_START: thread `i` of a launch that names
the context starts there (R24, R26): a0 the argument, a1 its index, a31 the top of its stack, every other register 0, its pc the entry, its
epoch the one in force; it is no longer among those to be placed. TEXIT of a thread without engines and outstanding stores: the context is
idle, and a launch of more threads than this one has one less left (R23, R28, R51, R69). -/
def Obligations.LaunchesStartAndEnd : Prop :=
  (∀ (s s1 s2 s3 s4 s5 s6 : State) (t : Tid) (tgt : Target) (a : Reg) (d b : List Byte) (code : Nat) (l : Launch),
    s.Issues t profWork tgt s1 → ((s1.ctx t).ga a).toNat % 64 = 0 →
    let va := (s1.ctx t).ga a
    s1.vprobe (s1.whoOf t) .load va.toNat 0x38 = (.ok [], s2) → s2.vprobe (s2.whoOf t) .store va.toNat 0x38 = (.ok [], s3) →
    s3.vread (s3.agtOf t) va.toNat 0x30 = (.ok d, s4) →
    s4.launchVerdict d t (s4.ctx t).sup false (some (va + 0x30)) 0 = (code, l, s5) →
    code ≠ noVerdict →
    s5.vwrite (s5.agtOf t) (va.toNat + 0x30) (natLE 8 (if code = 0 then 1 else 2 + code * 256)) = (.ok b, s6) →
    (s6.ctx t).stopPending = false →
    Completes (.launch t a) s fun u =>
      u.ctx t = (s6.ctx t).retired ∧
      (code ≠ 0 → u.thr.launches = s6.thr.launches) ∧
      (code = 0 → u.thr.launches = s6.thr.launches ++ [{ l with toPlace := List.range l.count }])) ∧
  (∀ (s : State) (id i num : Nat) (l : Launch), s.launch id = some l → l.id = id → s.flag fSafe_SAFE = false → l.toPlace.contains i = true →
    l.gang = false → (l.policy ≠ 0 → num = l.target i) → s.placeable l num = true → s.gatedCtx l.kind num = none →
    Completes (.threadStart id i num) s fun u =>
      let c := u.ctx ⟨l.kind, num⟩
      c.st = .ready ∧ c.pc = l.entry ∧ c.ga 0 = l.arg ∧ c.ga 1 = BitVec.ofNat 64 i ∧
      c.ga 31 = l.stackBase + BitVec.ofNat 64 ((i + 1) * l.stackSize) ∧ (∀ r, 1 < r → r < 31 → c.ga r = 0) ∧ (∀ r, c.gf r = 0) ∧
      c.epoch = BitVec.ofNat 32 (s.fld fMode_A_EPOCH) ∧ c.launch = some id ∧ (c.sup = true → l.kind = .control) ∧
      ∀ l', u.launch id = some l' → l'.toPlace.contains i = false) ∧
  (∀ (s s1 : State) (t : Tid) (tgt : Target), s.Issues t profAll tgt s1 → s1.ownMat t = none → s1.ownEw t = none → s1.storesOut t = false →
    ((s1.ctx t).launch = none → exec (.texit t) s = .next (s1.setCtx t Ctx.idle)) ∧
    (∀ id l, (s1.ctx t).launch = some id → s1.launch id = some l → 1 < l.left → l.cntEn = false → Completes (.texit t) s fun u =>
      u.ctx t = Ctx.idle ∧ u.launch id = some { l with left := l.left - 1 }))

/-- GATHER and SCATTER of a grove thread, one element in integer registers (R64): the element's bytes at A + index × w go into D, or the low
bytes of D to that address; GS_IDX returns to 0. -/
def Obligations.GroveGatherAndScatterRetire : Prop :=
  ∀ (s s1 s2 : State) (t : Tid) (tgt : Target) (w : MemW) (d a b : Reg) (bs : List Byte), s.Issues t profWork tgt s1 → t.kind = .grove →
    (s1.ctx t).gsIdx = 0 → (s2.ctx t).stopPending = false →
    let va := ((s1.ctx t).ga a).toNat + ((s1.ctx t).ga b).toNat * w.bytes
    (s1.elemRead t (va % 2 ^ 64) w.bytes = (.ok bs, s2) → Completes (.gather t w d a b) s fun u =>
      (∃ free, (u.ctx t).ga d = narrow w.bytes (leNat bs) free) ∧ (u.ctx t).pc = (s2.ctx t).pc + 4 ∧ (u.ctx t).gsIdx = 0 ∧
      ∀ j, u.dramByte j = s2.dramByte j) ∧
    (s1.elemWrite t (va % 2 ^ 64) (natLE w.bytes (((s1.ctx t).ga d).toNat % 2 ^ (8 * w.bytes))) = (.ok bs, s2) →
      Completes (.scatter t w d a b) s fun u =>
        (u.ctx t).a = (s2.ctx t).a ∧ (u.ctx t).pc = (s2.ctx t).pc + 4 ∧ (u.ctx t).gsIdx = 0 ∧ ∀ j, u.dramByte j = s2.dramByte j)

/-- VLEN, KTAIL and the reductions of a thread with Algon-V whose vector unit is powered (R71, R72, R74, R75). KTAIL sets lane i when A + i
< B; a mask destination k0 is illegal. VFRED.O adds the active elements to A one after another, ascending; VFRED.T adds them in a pairwise
tree over the positions, −0.0 standing for an inactive one. The flags of all additions are raised. GATHER and SCATTER of every thread (R64
to R67): the elements from GS_IDX on are loaded or stored in ascending order, each at A + index × w; `st i` is the state before element `i`.
Afterwards element `i` of D holds the bytes loaded for it, those before GS_IDX keep their values, GS_IDX is 0 and the pc moves on; a scatter
leaves every register as it was. -/
def Obligations.VectorOperationsRetire : Prop :=
  (∀ (s s1 : State) (t : Tid) (tgt : Target) (w : MemW) (f : FW) (rm : Fin 8) (d a b : Reg) (k : Fin 8),
    s.Issues t { work := false } tgt s1 → t.kind ≠ .grove → (t.kind = .control → s1.flag (fVec_AWAKE (t.num / 2)) = true) →
    let c := s1.ctx t
    let m := c.effRm rm
    let el := vecEl (c.gv b) (fwBytes f)
    exec (.vlen t w d) s = .next (s1.setCtx t (c.sa d (BitVec.ofNat 64 ((if t.kind = .near then 64 else 128) / w.bytes))).retired) ∧
    (k ≠ 0 → Completes (.ktail t w k a b) s fun u =>
      (u.ctx t).pc = c.pc + 4 ∧
      ∀ i, i < 128 → ((u.ctx t).gk k).getLsbD i =
        (decide (i < vecLen t.kind w.bytes) && decide (c.ga a + BitVec.ofNat 64 i < c.ga b))) ∧
    (k = 0 → exec (.ktail t w k a b) s = .next (s1.takeFault t { code := 0x21 })) ∧
    (m ≤ 4 → ∀ acc : Nat → Nat × Flags, acc 0 = (c.fpat f a, 0) →
      (∀ i, acc (i + 1) = if (c.gk k).getLsbD i then (((fwFmt f).add m (acc i).1 (el i)).1, (acc i).2 ||| ((fwFmt f).add m (acc i).1 (el i)).2)
        else acc i) →
      exec (.vfredO t f rm d a b k) s = .next (s1.setCtx t (c.putF d (acc (vecLen t.kind (fwBytes f)))).retired)) ∧
    (m ≤ 4 → ∀ (lvl : Nat → Nat → Nat × Flags) (j : Nat), vecLen t.kind (fwBytes f) = 2 ^ j →
      (∀ i, lvl 0 i = (if (c.gk k).getLsbD i then el i else (fwFmt f).signBit, 0)) →
      (∀ h i, lvl (h + 1) i = (((fwFmt f).add m (lvl h (2 * i)).1 (lvl h (2 * i + 1)).1).1,
        (lvl h (2 * i)).2 ||| (lvl h (2 * i + 1)).2 ||| ((fwFmt f).add m (lvl h (2 * i)).1 (lvl h (2 * i + 1)).1).2)) →
      exec (.vfredT t f rm d b k) s = .next (s1.setCtx t (c.putF d (lvl j 0)).retired)) ∧
    (4 < m → exec (.vfredO t f rm d a b k) s = .next (s1.takeFault t { code := 0x21 }) ∧
      exec (.vfredT t f rm d b k) s = .next (s1.takeFault t { code := 0x21 }))) ∧
  (∀ (s s1 : State) (t : Tid) (tgt : Target) (w : MemW) (d a b : Reg) (st : Nat → State) (bs : Nat → List Byte),
    s.Issues t profWork tgt s1 → (t.kind = .control → s1.flag (fVec_AWAKE (t.num / 2)) = true) → st 0 = s1 →
    let c := s1.ctx t
    let n := if t.kind = .grove then 1 else vecLen t.kind w.bytes
    let va := fun (i : Nat) =>
      ((c.ga a).toNat + (if t.kind = .grove then (c.ga b).toNat else gsIndex w.bytes (vecEl (c.gv b) w.bytes i)) * w.bytes) % 2 ^ 64
    ((∀ i, i < n → i < c.gsIdx.toNat → st (i + 1) = st i) →
      (∀ i, i < n → c.gsIdx.toNat ≤ i → ∃ u, (st i).elemRead t (va i) w.bytes = (.ok (bs i), u) ∧ u.ctx t = (st i).ctx t ∧
        st (i + 1) = (u.gsPut t w.bytes d i (leNat (bs i))).dropGot (.read t)) →
      Completes (.gather t w d a b) s fun u =>
        (t.kind = .grove → c.gsIdx = 0 → ∃ free, (u.ctx t).ga d = narrow w.bytes (leNat (bs 0)) free) ∧
        (t.kind ≠ .grove → ∀ i, i < n → vecEl ((u.ctx t).gv d) w.bytes i =
          if i < c.gsIdx.toNat then vecEl (c.gv d) w.bytes i else leNat (bs i) % 2 ^ (8 * w.bytes)) ∧
        (∀ r : Nat, r ≠ d.val → (u.ctx t).ga r = c.ga r ∧ (u.ctx t).gv r = c.gv r) ∧
        (u.ctx t).gsIdx = 0 ∧ (u.ctx t).pc = c.pc + 4 ∧ (u.ctx t).st = .ready ∧ u.dram = (st n).dram) ∧
    ((∀ i, i < n → i < c.gsIdx.toNat → st (i + 1) = st i) →
      (∀ i, i < n → c.gsIdx.toNat ≤ i →
        (st i).elemWrite t (va i)
          (natLE w.bytes (if t.kind = .grove then (c.ga d).toNat % 2 ^ (8 * w.bytes) else vecEl (c.gv d) w.bytes i)) =
            (.ok (bs i), st (i + 1)) ∧ (st (i + 1)).ctx t = (st i).ctx t) →
      exec (.scatter t w d a b) s = .next ((st n).setCtx t { c with gsIdx := 0 }.retired)))

/-- Structure loads and stores (R64, R72, R73): the active records from GS_IDX on are taken in ascending order, record `i` at A + i × n × w,
its field `j` at j × w within it; `st i` is the state before record `i`. A load puts field `j` into element `i` of register D + j, an
inactive record leaves its elements or with the fill bit makes them zero; a store takes its fields from there, `fs i j` the state before
field `j`. Every other register stays, GS_IDX becomes 0. With no active lane no memory is touched; the record's length must be 2, 3 or 4. A
one-record VLDS with fields of width 8: the field j of the active record i goes into element i of register D + j (R72, R73). -/
def Obligations.StructureAccessesMoveFields : Prop :=
  (∀ (s s1 : State) (t : Tid) (tgt : Target) (n : Nat) (w : MemW) (d a : Reg) (k : Fin 8),
    s.Issues t { work := true } tgt s1 → t.kind ≠ .grove → (t.kind = .control → s1.flag (fVec_AWAKE (t.num / 2)) = true) →
    let c := s1.ctx t
    let len := vecLen t.kind w.bytes
    let lane := fun (i : Nat) => (c.gk k).getLsbD i
    let va := fun (i : Nat) => ((c.ga a).toNat + i * n * w.bytes) % 2 ^ 64
    (2 ≤ n → n ≤ 4 → d.val + n ≤ 32 → (∀ i, i < len → lane i = false) →
      exec (.vlds t n w d a k false) s = .next (s1.setCtx t { c with gsIdx := 0 }.retired) ∧
      exec (.vsts t n w d a k) s = .next (s1.setCtx t { c with gsIdx := 0 }.retired)) ∧
    (2 ≤ n → n ≤ 4 → d.val + n ≤ 32 → ∀ (fill : Bool) (st : Nat → State) (bs : Nat → List Byte), st 0 = s1 →
      (∀ i, i < len → i < c.gsIdx.toNat → st (i + 1) = st i) →
      (∀ i, i < len → c.gsIdx.toNat ≤ i → lane i = false →
        st (i + 1) = if fill then ((st i).recPut t n w.bytes d i (List.replicate (n * w.bytes) 0)).dropGot (.read t) else st i) →
      (∀ i, i < len → c.gsIdx.toNat ≤ i → lane i = true → ∃ u, (st i).recRead t w.bytes (va i) n = (.ok (bs i), u) ∧
        u.ctx t = (st i).ctx t ∧ st (i + 1) = (u.recPut t n w.bytes d i (bs i)).dropGot (.read t)) →
      Completes (.vlds t n w d a k fill) s fun u =>
        (∀ i j, i < len → j < n → vecEl ((u.ctx t).gv (d.val + j)) w.bytes i =
          if i < c.gsIdx.toNat then vecEl (c.gv (d.val + j)) w.bytes i
          else if lane i then fieldLE (bs i) (j * w.bytes) w.bytes
          else if fill then 0 else vecEl (c.gv (d.val + j)) w.bytes i) ∧
        (∀ r : Nat, r < d.val ∨ d.val + n ≤ r → (u.ctx t).gv r = c.gv r) ∧ (∀ r, (u.ctx t).ga r = c.ga r ∧ (u.ctx t).gf r = c.gf r) ∧
        (u.ctx t).gsIdx = 0 ∧ (u.ctx t).pc = c.pc + 4 ∧ (u.ctx t).st = .ready ∧ u.dram = (st len).dram) ∧
    (2 ≤ n → n ≤ 4 → d.val + n ≤ 32 → ∀ (st : Nat → State) (fs : Nat → Nat → State), st 0 = s1 →
      (∀ i, i < len → i < c.gsIdx.toNat ∨ lane i = false → st (i + 1) = st i) →
      (∀ i, i < len → c.gsIdx.toNat ≤ i → lane i = true → fs i 0 = st i ∧ fs i n = st (i + 1) ∧
        ∀ j, j < n → (∃ b, (fs i j).elemWrite t ((va i + j * w.bytes) % 2 ^ 64)
          (natLE w.bytes (vecEl (c.gv (d.val + j)) w.bytes i)) = (.ok b, fs i (j + 1))) ∧ (fs i (j + 1)).ctx t = c) →
      exec (.vsts t n w d a k) s = .next ((st len).setCtx t { c with gsIdx := 0 }.retired)) ∧
    ((n < 2 ∨ 4 < n) → ∀ fill, exec (.vlds t n w d a k fill) s = .next (s1.takeFault t { code := 0x21 }) ∧
      exec (.vsts t n w d a k) s = .next (s1.takeFault t { code := 0x21 }))) ∧
  (∀ (s s1 s2 : State) (t : Tid) (tgt : Target) (d a : Reg) (k : Fin 8) (bs : List Byte),
    s.Issues t { work := true } tgt s1 → t.kind = .near → d.val + 2 ≤ 32 → (s1.ctx t).gsIdx = 0 →
    (∀ i, i < 8 → ((s1.ctx t).gk k).getLsbD i = decide (i = 0)) →
    s1.recRead t 8 (((s1.ctx t).ga a).toNat % 2 ^ 64) 2 = (.ok bs, s2) → (s2.ctx t).stopPending = false →
    Completes (.vlds t 2 .w8 d a k false) s fun u =>
      vecEl ((u.ctx t).gv d.val) 8 0 = fieldLE bs 0 8 ∧ vecEl ((u.ctx t).gv (d.val + 1)) 8 0 = fieldLE bs 8 8 ∧
      (∀ i, 0 < i → i < 8 → vecEl ((u.ctx t).gv d.val) 8 i = vecEl ((s2.ctx t).gv d.val) 8 i) ∧
      (∀ r, r ≠ d.val → r ≠ d.val + 1 → (u.ctx t).gv r = (s2.ctx t).gv r) ∧ (u.ctx t).pc = (s2.ctx t).pc + 4)

/-- The vector unit of a control core (R75, R76): without HOLD it powers down, HOLD keeps it powered, an instruction that finds it off waits
and starts its wake, and the wake's end powers it. TSAVE and TRESTORE (R68 to R70, Table 3.11). A FAULTED thread without engines and
outstanding stores is saved to an aligned area, and its context is idle; an idle context takes what an area holds, at the job and the epoch
of the restoring thread. -/
def Obligations.VectorUnitsAndSavedThreads : Prop :=
  (∀ (s : State) (c : Fin 48),
    (s.flag (fVec_HOLD c) = false → Completes (.vectorPowerDown c) s fun u => u.flag (fVec_AWAKE c) = false) ∧
    (s.flag (fVec_HOLD c) = true → exec (.vectorPowerDown c) s = .next s) ∧
    (s.vecWaking c = true → Completes (.vectorWakeDone c) s fun u => u.flag (fVec_AWAKE c) = true ∧ u.vecWaking c = false) ∧
    (∀ (s1 : State) (t : Tid) (tgt : Target) (w : MemW) (d : Reg), s.Issues t { work := false } tgt s1 → t.kind = .control →
      t.num / 2 = c.val → s1.flag (fVec_AWAKE c) = false → Completes (.vlen t w d) s fun u =>
        (u.ctx t).st = .wait ∧ (u.ctx t).pc = (s1.ctx t).pc ∧ u.vecWaking c = true)) ∧
  (∀ (s s1 s2 s3 : State) (t x : Tid) (tgt : Target) (a d : Reg) (b : List Byte), s.Issues t profSupWork tgt s1 → x.valid = true → x ≠ t →
    (s1.ctx t).ga a = BitVec.ofNat 64 x.handle → ((s1.ctx t).ga d).toNat % 8192 = 0 →
    let va := (s1.ctx t).ga d
    ((s1.ctx x).st = .faulted → (s1.ctx x).job = (s1.ctx t).job → s1.ownMat x = none → s1.ownEw x = none → s1.storesOut x = false →
      s1.vprobe (s1.whoOf t) .store va.toNat 8192 = (.ok [], s2) →
      s2.ownMat x = none → s2.ownEw x = none → s2.writeParts (s2.agtOf t) va.toNat (s2.savePieces x) = (.ok b, s3) →
      s3.ctx t = s1.ctx t →
      Completes (.tsave t a d) s fun u => u.ctx x = Ctx.idle ∧ u.ctx t = (s1.ctx t).retired) ∧
    ((s1.ctx x).st = .idle → x.kind ≠ .grove → s1.vread (s1.agtOf t) va.toNat 8192 = (.ok b, s2) → s2.ctx t = s1.ctx t →
      Completes (.trestore t a d) s fun u =>
        u.ctx x = ctxOf b x (s1.ctx t).job (s2.fld fMode_A_EPOCH) ∧ (u.ctx x).st = .ready ∧
        (∀ r : Fin 32, (u.ctx x).ga r = BitVec.ofNat 64 (fieldLE b (8 * r.val) 8)) ∧
        (∀ r : Fin 32, (u.ctx x).gf r = BitVec.ofNat 64 (fieldLE b (0x100 + 8 * r.val) 8)) ∧ u.ctx t = (s1.ctx t).retired))

/-- Matrix instructions of a grove thread that owns the engine, or finds it without an owner, with no deferred error (R97, R117, R120,
Tables 5.1, 5.11): MSAREA keeps the save area's address, MZERO empties a FILLING, POISONED or EMPTY tile without queued work, MSTAT reads
the status and with CLR clears bits 11 to 0, MWAIT of an idle engine reads the status, MEPI takes a block's configuration. The thread owns
the engine afterwards. A deferred error of the matrix engine faults the next matrix instruction but MSTAT, which reads it, with code 0x33;
PENDING is clear then (R120). A thread that does not own the engine waits (R97). -/
def Obligations.MatrixControlRetiresOrFaults : Prop :=
  (∀ (s s1 : State) (t : Tid) (tgt : Target) (d a : Reg) (tile : Fin 2) (clr : Bool), s.Issues t profEngine tgt s1 →
    let c := s1.ctx t
    let m := s1.mat t.groveOf
    (m.owner = none ∨ m.owner = some t) → m.pend = false →
    let own := { m with owner := some t }
    Completes (.msarea t a) s (fun u => u.mat t.groveOf = { own with save := c.ga a } ∧ u.ctx t = c.retired) ∧
    (m.queued tile = false → (m.tile tile).st ≠ .closed → (m.tile tile).st ≠ .draining → Completes (.mzero t tile) s fun u =>
      u.mat t.groveOf = own.setTile tile Tile.clear ∧ u.ctx t = c.retired) ∧
    Completes (.mstat t d clr) s (fun u => u.ctx t = (c.sa d own.mstatWord).retired ∧
      u.mat t.groveOf = if clr then { own with mstat := m.mstat &&& 0x1000 } else own) ∧
    (m.queue = [] → m.t0.st.code ≠ 2 → m.t1.st.code ≠ 2 → Completes (.mwait t d) s fun u =>
      u.ctx t = (c.sa d own.mstatWord).retired ∧ u.mat t.groveOf = own) ∧
    (∀ (s2 : State) (b : List Byte), (c.ga a).toNat % 4096 = 0 →
      (s1.setMat t.groveOf own).vread (engAgt t) (c.ga a).toNat 4096 = (.ok b, s2) → ctlBad (fieldLE b 0x10 8) = false →
      (sliceB b 0x50 0x7B0).any (· != 0) = false → s2.ctx t = c → Completes (.mepi t a) s fun u =>
        (u.mat t.groveOf).epi = epiOf b ∧ (u.mat t.groveOf).owner = some t ∧ u.ctx t = c.retired)) ∧
  (∀ (s s1 : State) (t : Tid) (tgt : Target) (a : Reg) (tile : Fin 2), s.Issues t profEngine tgt s1 →
    let m := s1.mat t.groveOf
    (m.owner = some t → m.pend = true → ∀ i ∈ [Instr.msarea t a, .mzero t tile, .mepi t a, .mwait t a, .mdrain t tile a],
      exec i s = .next ((s1.setMat t.groveOf { m with mstat := m.mstat &&& 0x0FFF }).takeFault t { code := 0x33 }) ∧
      (m.mstat &&& 0x0FFF).getLsbD 12 = false) ∧
    (∀ x, m.owner = some x → x ≠ t → ∀ i ∈ [Instr.msarea t a, .mzero t tile, .mepi t a, .mwait t a, .mdrain t tile a, .mstat t a false],
      exec i s = .next (s1.modCtx t fun c => c.waiting i .cond)))

/-- MMA and MDRAIN queue work at issue (R97, R98, R101, R117, R118). MMA: descriptors that pair into a class, an operand form that is good,
an EMPTY or FILLING tile, one with work of the same class and epoch, and readable operands; the tile takes the class and the thread's epoch.
MDRAIN: a good descriptor and configuration, no random mode under STRICT, an EMPTY or FILLING tile, and writable outputs; the tile is
CLOSED. The thread owns the engine afterwards; a tile's elements do not change at issue. -/
def Obligations.MatrixWorkIsQueued : Prop :=
  ∀ (s s1 s2 s3 s4 : State) (t : Tid) (tgt : Target) (d a b : Reg) (tile : Fin 2), s.Issues t profEngine tgt s1 →
    let c := s1.ctx t
    let m := s1.mat t.groveOf
    let own := { m with owner := some t }
    let s1' := s1.setMat t.groveOf own
    let x := m.tile tile
    (m.owner = none ∨ m.owner = some t) → m.pend = false → m.queue.length < 4 → (x.st = .empty ∨ x.st = .filling) →
    (s4.ctx t).stopPending = false →
    (∀ da db cls, (c.ga a).toNat % 32 = 0 → (c.ga b).toNat % 32 = 0 →
      s1'.opndBytes t own true (c.ga a) = (.ok da, s2) → s2.opndBytes t own false (c.ga b) = (.ok db, s3) →
      let k := (c.ga d).toNat
      pairClass (Opnd.ofBytes da).eff (Opnd.ofBytes db).eff = some cls → (Opnd.ofBytes da).bad k = false → (Opnd.ofBytes db).bad k = false →
      (m.tileBusy tile = true → x.cls = cls ∧ x.epoch = c.epoch) →
      s3.probeRanges .jobLevel .load ((Opnd.ofBytes da).region k ++ (Opnd.ofBytes da).auxRegion k ++ (Opnd.ofBytes db).region k ++
        (Opnd.ofBytes db).auxRegion k) = (.ok, s4) →
      Completes (.mma t tile d a b) s fun u =>
        (u.mat t.groveOf).owner = some t ∧ (u.mat t.groveOf).queue = m.queue ++ [.mma tile k da db] ∧
        ((u.mat t.groveOf).tile tile).cls = cls ∧ ((u.mat t.groveOf).tile tile).epoch = c.epoch ∧
        ((u.mat t.groveOf).tile tile).st = x.st ∧ ((u.mat t.groveOf).tile tile).el = x.el ∧
        u.ctx t = (s4.ctx t).retired ∧ u.dram = s4.dram) ∧
    (∀ bs, (c.ga a).toNat % 128 = 0 → s1'.vread (engAgt t) (c.ga a).toNat 128 = (.ok bs, s2) →
      let w := cfgCtl m.epi
      let e := drainDesc bs
      e.reserved = false → 1 ≤ e.rows → e.rows ≤ 64 → 1 ≤ e.cols → e.cols ≤ 64 → ctlBad w = false →
      (c.effRm (bitsOf w 15 13) ≠ 6 ∨ s2.flag fMode_A_STRICT = false) → s2.drainViewFault w e = none →
      s2.drainProbe w e = (.ok, s4) → Completes (.mdrain t tile a) s fun u =>
        (u.mat t.groveOf).owner = some t ∧ (u.mat t.groveOf).queue = m.queue ++ [.drain tile] ∧
        ((u.mat t.groveOf).tile tile).st = .closed ∧
        ((u.mat t.groveOf).tile tile).drain =
          some { cfg := m.epi, desc := bs, rm := c.effRm (bitsOf w 15 13), out := [], wrote := false } ∧
        ((u.mat t.groveOf).tile tile).el = x.el ∧ u.ctx t = (s4.ctx t).retired ∧ u.dram = s4.dram)

/-- The engine's work (R98, R103 to R120): MMA_EXECUTE takes the first MMA that no drain of its tile holds back, once its remote operands
have come, leaves its tile FILLING with the groups summed, and PAD tells a last group that is not full; DRAIN_START of a CLOSED tile whose
earlier work is done leaves it DRAINING with one output for each element of its extent; DRAIN_COMPLETE without a write-back empties the
tile. -/
def Obligations.MatrixWorkExecutes : Prop :=
  ∀ (s s0 s1 s2 : State) (g : Fin 256) (t : Tid), let m := s.mat g
    m.owner = some t →
    (∀ tile k da db ra rb b, tile < 2 → firstMma m.queue [] = some (tile, k, da, db) →
      ((m.tile tile).st = .empty ∨ (m.tile tile).st = .filling) →
      s.askRanges (tileAgt t tile) ((Opnd.ofBytes da).region k ++ (Opnd.ofBytes da).auxRegion k ++ (Opnd.ofBytes db).region k ++
        (Opnd.ofBytes db).auxRegion k) = (true, s0) →
      s0.readOpnd (tileAgt t tile) (Opnd.ofBytes da) k = (.ok b, ra, s1) →
      s1.readOpnd (tileAgt t tile) (Opnd.ofBytes db) k = (.ok b, rb, s2) →
      s2.injArmed (0x100 + g.val) 1 = false → Completes (.mmaExecute g) s fun u =>
        ((u.mat g).tile tile).st = .filling ∧ (u.mat g).queue = dropMma tile m.queue ∧
        ((u.mat g).tile tile).el = ({ m.tile tile with st := .filling }.mma ((Opnd.ofBytes da).fmt == 0x0B) k ra rb).1.el ∧
        ((u.mat g).tile tile).count = ((m.tile tile).count + ceilDiv k (classG (m.tile tile).cls (m.tile tile).reduced)) % 16 ∧
        (k % classG (m.tile tile).cls (m.tile tile).reduced ≠ 0 → (u.mat g).mstat.getLsbD 6 = true)) ∧
    (∀ (tile : Fin 2) dr, (m.tile tile).drain = some dr → (m.tile tile).st = .closed → drainFirst tile m.queue = true →
      bitAt (cfgCtl dr.cfg) 0 = false → bitAt (cfgCtl dr.cfg) 2 = false → bitAt (cfgCtl dr.cfg) 17 = false →
      Completes (.drainStart g tile) s fun u =>
        ((u.mat g).tile tile).st = .draining ∧
        (∃ dr', ((u.mat g).tile tile).drain = some dr' ∧ dr'.out.length = (drainDesc dr.desc).rows * (drainDesc dr.desc).cols) ∧
        (u.mat g).queue = m.queue.filter (fun k => k != .drain tile)) ∧
    (∀ (tile : Fin 2) dr, (m.tile tile).drain = some dr → (m.tile tile).st = .draining → dr.wrote = false →
      bitAt (cfgCtl dr.cfg) 24 = true → bitAt (cfgCtl dr.cfg) 23 = false → s.writeBackOut t tile = false →
      Completes (.drainComplete g tile) s fun u => (u.mat g).tile tile = Tile.clear)

/-- Element-wise arithmetic of a grove thread that owns the core's tile registers, or finds them without an owner, with no deferred error
and no split that waits (R126, R127, R133 to R135, R139 to R141, Tables 6.4, 6.5): each element in extent of D is the function of the
elements of A, B and D as they stood before, every other element of every tile register keeps its value, the thread owns the tile registers.
Reductions fill column 0 or row 0; ECPR packs the active elements and fills with zeros; EXPD gives the k-th active position element k; ESUM
writes a summary slot. -/
def Obligations.ElementWiseArithmeticRetires : Prop :=
  ∀ (s s1 : State) (t : Tid) (tgt : Target) (fmt rm : Fin 8) (x : EFmt) (d a b : Reg), s.Issues t profEngine tgt s1 →
    let c := s1.ctx t
    let e := s1.ew (ewCore t)
    let m := c.effRm rm
    (e.owner = none ∨ e.owner = some t) → e.pending = false → s1.splitPending t.groveOf = false → s1.injArmed (0x100 + t.groveOf) 2 = false →
    e.queue.length ≤ 7 → e.rows ≤ 32 → ewFmt fmt = some x → d.val < 16 → a.val < 16 → b.val < 16 →
    let C := colsOf x.w
    let at_ := fun i j => if i < e.rows ∧ j < e.ext x.w then some (e.el x.w a i j) else none
    let fills := fun (u : State) (P : Nat → Nat → Prop) (f : Nat → Nat → Nat) =>
      u.ctx t = c.retired ∧ (u.ew (ewCore t)).owner = some t ∧
      (∃ (n : Nat) (slot : Option Nat), (u.ew (ewCore t)).queue = e.queue.drop n ++ [slot]) ∧ (u.ew (ewCore t)).rows = e.rows ∧ (u.ew (ewCore t)).cols = e.cols ∧
      ∀ r i j, r < 16 → i < 32 → j < C →
        (r = d.val → P i j → (u.ew (ewCore t)).el x.w r i j = f i j % 2 ^ (8 * x.w)) ∧
        (¬ (r = d.val ∧ P i j) → (u.ew (ewCore t)).el x.w r i j = e.el x.w r i j)
    let inside := fun i j => i < e.rows ∧ j < e.ext x.w
    (∀ func : Fin 32, x.allows func = true → m ≤ 4 → Completes (.eFunc t func rm fmt d a b) s fun u =>
      fills u inside fun i j => (x.fn func m (e.el x.w a i j) (e.el x.w b i j) (e.el x.w d i j)).1) ∧
    (∀ pred : Fin 32, predOk pred = true → Completes (.ecmp t pred fmt d a b) s fun u =>
      fills u inside fun i j => (x.mask pred (e.el x.w a i j) (e.el x.w b i j)).1) ∧
    (∀ op : Fin 8, op.val ≠ 7 → (x.fp.isSome = true → op.val < 4) →
      Completes (.ered t 0 op fmt d a) s (fun u =>
        fills u (fun i j => i < e.rows ∧ j = 0) fun i _ => (x.axis op ((List.range C).map fun j => at_ i j)).1) ∧
      Completes (.ered t 1 op fmt d a) s (fun u =>
        fills u (fun i j => i = 0 ∧ j < e.ext x.w) fun _ j => (x.axis op ((List.range 32).map fun i => at_ i j)).1)) ∧
    Completes (.ecpr t fmt d a b) s (fun u => fills u (fun _ _ => True) fun i j =>
      ((e.active x.w b).map fun p => e.el x.w a p.1 p.2).getD (i * C + j) 0) ∧
    Completes (.expd t fmt d a b) s (fun u =>
      fills u (fun i j => (i, j) ∈ e.active x.w b) fun i j =>
        let k := (e.active x.w b).idxOf (i, j)
        e.el x.w a (k / C) (k % C)) ∧
    (∀ kind : Fin 8, d.val ≤ 7 → kind.val ≤ 5 → Completes (.esum t kind fmt d a) s fun u =>
      fills u (fun _ _ => False) (fun _ _ => 0) ∧
      tabGet slotZero (u.ew (ewCore t)).slots d = BitVec.ofNat 64 (e.summary x kind a).1 ∧
      ∀ n, n ≠ d.val → tabGet slotZero (u.ew (ewCore t)).slots n = tabGet slotZero e.slots n)

/-- Tile memory instructions with no earlier work in the core's queue (R64, R131, R132, R142, R143). ETLD and ETST take the elements in
extent in ascending order from GS_IDX on, element (i, j) at A + i × B + j × w; EXPDLD and ECPRST take the active elements of mask M, the
k-th at A + k × w, and put their count in B. `st k` is the state before the k-th of them, `bs k` the bytes moved. A load puts its elements
in the tile register, as far as GS_IDX had not passed them; every other element of every tile register keeps its value. GS_IDX is 0
afterwards. -/
def Obligations.TileMemoryAccessesRetire : Prop :=
  ∀ (s s1 : State) (t : Tid) (tgt : Target) (w : MemW) (d a b : Reg) (mk : Fin 16) (st : Nat → State) (bs : Nat → List Byte),
    s.Issues t profEngine tgt s1 →
    let c := s1.ctx t
    let e := s1.ew (ewCore t)
    let own := s1.setEw (ewCore t) { e with owner := some t }
    let va := (c.ga a).toNat
    let C := colsOf w.bytes
    (e.owner = none ∨ e.owner = some t) → e.pending = false → s1.splitPending t.groveOf = false → s1.injArmed (0x100 + t.groveOf) 2 = false →
    e.queue = [] → e.rows ≤ 32 → d.val < 16 →
    -- the k-th element is skipped before GS_IDX; else it is loaded from its address to its place, or stored from there
    let loads := fun (far : Bool) (els : List GElem) (place : Nat → Nat × Nat) => ∀ k g, els[k]? = some g →
      (g.num < c.gsIdx.toNat → st (k + 1) = st k) ∧
      (c.gsIdx.toNat ≤ g.num → ∃ u, (st k).tileRead t far w.bytes g.va w.bytes = (.ok (bs k), u) ∧ u.ctx t = (st k).ctx t ∧
        u.ew (ewCore t) = (st k).ew (ewCore t) ∧
        st (k + 1) = (u.putTileEl t w.bytes d (place g.num).1 (place g.num).2 (leNat (bs k))).dropGot (.read t))
    let stores := fun (far : Bool) (els : List GElem) (place : Nat → Nat × Nat) => ∀ k g, els[k]? = some g →
      (g.num < c.gsIdx.toNat → st (k + 1) = st k) ∧
      (c.gsIdx.toNat ≤ g.num → (st k).tileWrite t far w.bytes g.va (e.el w.bytes d (place g.num).1 (place g.num).2) = (.ok (bs k), st (k + 1)) ∧
        (st (k + 1)).ctx t = (st k).ctx t ∧ (st (k + 1)).ew (ewCore t) = (st k).ew (ewCore t))
    let loaded := fun (u : State) (els : List GElem) (place : Nat → Nat × Nat) =>
      (∀ k g, els[k]? = some g → c.gsIdx.toNat ≤ g.num →
        (u.ew (ewCore t)).el w.bytes d (place g.num).1 (place g.num).2 = leNat (bs k) % 2 ^ (8 * w.bytes)) ∧
      (∀ r i j, r < 16 → i < 32 → j < C → ¬ (r = d.val ∧ ∃ g ∈ els, c.gsIdx.toNat ≤ g.num ∧ place g.num = (i, j)) →
        (u.ew (ewCore t)).el w.bytes r i j = e.el w.bytes r i j) ∧
      (u.ew (ewCore t)).owner = some t ∧ u.dram = (st els.length).dram
    let grid := fun (n : Nat) => (n / C, n % C)
    let rowMajor := e.strided w.bytes va (c.ga b).toNat
    let ps := e.active w.bytes mk
    let packed := packedEls w.bytes va ps.length
    let pos := fun (k : Nat) => ps.getD k (0, 0)
    let counted := ({ c with gsIdx := 0 }.sa b (BitVec.ofNat 64 ps.length)).retired
    (st 0 = own → loads (farStride (c.ga b)) rowMajor grid → Completes (.etld t w d a b) s fun u =>
      loaded u rowMajor grid ∧ u.ctx t = { c with gsIdx := 0 }.retired) ∧
    (st 0 = own → stores (farStride (c.ga b)) rowMajor grid → Completes (.etst t w d a b) s fun u =>
      u.ew (ewCore t) = { e with owner := some t } ∧ u.dram = (st rowMajor.length).dram ∧ u.ctx t = { c with gsIdx := 0 }.retired) ∧
    (c.inAccess = false → st 0 = own.keepPacked t (some ps) → loads false packed pos → Completes (.expdld t w d a b mk) s fun u =>
      loaded u packed pos ∧ u.ctx t = counted) ∧
    (c.inAccess = false → st 0 = own.keepPacked t (some ps) → stores false packed pos → Completes (.ecprst t w d a b mk) s fun u =>
      u.ew (ewCore t) = { e with owner := some t, packed := none } ∧ u.dram = (st ps.length).dram ∧ u.ctx t = counted)

/-- Lane programs and conversion (R136 to R138, R144, Table 6.10): EPROG takes a valid program; ERUN runs it at each element in extent, its
inputs as they stood before, each output in the tile register the binding names; ECVT converts each element in extent between scalar
formats. Set-up and status of the element-wise engine (R126, R127, R129, R133, R145, Tables 6.12, 6.13): ESAREA, ESHAPE, ESRD, ESTAT and
EWAIT retire; an extent that Table 6.12 does not admit faults with 0x3B and changes nothing of the engine; a deferred error faults the next
instruction but ESTAT with 0x3A, the access that raised it completing first; the queue is empty (how far it has run is free: R131); the tile
registers of another thread, or a split that waits, make the thread wait; a split is applied once no core of the grove is in a tile access.
-/
def Obligations.LaneProgramsConversionsAndControlRetire : Prop :=
  (∀ (s s1 : State) (t : Tid) (tgt : Target) (d a b : Reg), s.Issues t profEngine tgt s1 →
    let c := s1.ctx t
    let e := s1.ew (ewCore t)
    let own := s1.setEw (ewCore t) { e with owner := some t }
    (e.owner = none ∨ e.owner = some t) → e.pending = false → s1.splitPending t.groveOf = false → s1.injArmed (0x100 + t.groveOf) 2 = false →
    e.queue.length ≤ 7 → e.rows ≤ 32 →
    (∀ (s2 : State) (bs : List Byte), e.queue = [] → (c.ga a).toNat % 64 = 0 → own.vread (own.agtOf t) (c.ga a).toNat 384 = (.ok bs, s2) →
      progBad bs = false → s2.ctx t = c → Completes (.eprog t a) s fun u =>
        (u.ew (ewCore t)).prog = some bs ∧ (u.ew (ewCore t)).tiles = (s2.ew (ewCore t)).tiles ∧ u.ctx t = c.retired) ∧
    (∀ (bs : List Byte) (x : EFmt), e.prog = some bs →
      let p := eprogOf bs
      let bind := (c.ga a).toNat
      ewFmt p.fmt = some x → progBad bs = false → bindBad p bind = false →
      (x.fp.isSome = true → 4 < c.frm.toNat → p.ops.any (fun o => o.rm == 7 && p.rm == 7) = false) → Completes (.erun t a) s fun u =>
        u.ctx t = c.retired ∧ (u.ew (ewCore t)).owner = some t ∧
        ∀ i j n v, i < e.rows → j < e.ext x.w → n < 4 →
          (p.run x c.frm.toNat (e.input x.w bind i j) i j).outs[n]? = some (some v) →
          (u.ew (ewCore t)).el x.w (bindOut bind n) i j = v % 2 ^ (8 * x.w)) ∧
    (let x := ecvtOf (c.ga b).toNat
     let m := c.effRm x.rm
     d.val < 16 → a.val < 16 → x.bad = false → (m = 6 → s1.flag fMode_A_STRICT = false) → Completes (.ecvt t d a b) s fun u =>
       u.ctx t = (c.seeded m).retired ∧ (u.ew (ewCore t)).owner = some t ∧
       (m ≤ 4 → ecvtCode x.src = true → ecvtCode x.tgt = true → ∀ i j, i < e.rows → j < min e.cols x.wide →
         let js := if sideBytes x.tgt ≤ sideBytes x.src then j else x.part * x.wide + j
         let jt := if sideBytes x.tgt ≤ sideBytes x.src then x.part * x.wide + j else j
         ∃ r, (u.ew (ewCore t)).el (sideBytes x.tgt) d i jt =
           (codeConvert x.src x.tgt m r x.sat (e.el (sideBytes x.src) a i js)).1 % 2 ^ (8 * sideBytes x.tgt)))) ∧
  ((∀ (s s1 : State) (t : Tid) (tgt : Target) (d a : Reg) (slot : Fin 8) (clr : Bool), s.Issues t profEngine tgt s1 →
    let c := s1.ctx t
    let e := s1.ew (ewCore t)
    let own := { e with owner := some t }
    let v := (c.ga a).toNat
    let badShape := v / 64 % 4 ≠ 0 ∨ 65536 ≤ v ∨ v % 64 = 0 ∨ 32 < v % 64 ∨ v / 256 % 256 = 0 ∨ 128 < v / 256 % 256
    let list := [Instr.esarea t a, .eshape t a, .ewait t d, .esrd t d slot]
    ((e.owner = none ∨ e.owner = some t) → s1.splitPending t.groveOf = false → e.queue = [] →
      Completes (.estat t d clr) s (fun u => u.ctx t = (c.sa d e.estat).retired ∧
        u.ew (ewCore t) = if clr then { own with eflags := 0, errTile := false } else own) ∧
      (e.pending = true → c.inAccess = false → ∀ i ∈ list, Completes i s fun u =>
        (u.ctx t).st = .faulted ∧ (u.ctx t).faultInfo = faultWord 0x3A false false 0 ∧ (u.ctx t).a = c.a ∧
        u.ew (ewCore t) = { e with pending := false }) ∧
      (e.pending = false →
        Completes (.esarea t a) s (fun u => u.ew (ewCore t) = { own with save := c.ga a } ∧ u.ctx t = c.retired) ∧
        Completes (.ewait t d) s (fun u => u.ew (ewCore t) = own ∧ u.ctx t = (c.sa d e.estat).retired) ∧
        Completes (.esrd t d slot) s (fun u => u.ew (ewCore t) = own ∧ u.ctx t = (c.sa d (tabGet slotZero e.slots slot)).retired) ∧
        (¬ badShape → Completes (.eshape t a) s fun u =>
          u.ew (ewCore t) = { own with rows := v % 64, cols := v / 256 } ∧ u.ctx t = c.retired) ∧
        (badShape → Completes (.eshape t a) s fun u =>
          u.ew (ewCore t) = e ∧ (u.ctx t).st = .faulted ∧ (u.ctx t).faultInfo = faultWord 0x3B false false 0))) ∧
    ((∃ x, e.owner = some x ∧ x ≠ t) ∨ (s1.splitPending t.groveOf = true ∧ c.inAccess = false) →
      ∀ i ∈ Instr.estat t d clr :: list, exec i s = .next (s1.modCtx t fun c => c.waiting i .cond))) ∧
  ∀ (s : State) (g : Fin 256),
    ((∀ e ∈ s.thr.ctxs, e.1 / 256 = g.val → e.2.inTileAccess = false) → Completes (.ewSplitApply g) s fun u =>
      u.fld (fGrove_APPLIED g) = s.fld (fGrove_SPLIT g) ∧ u.splitPending g = false ∧ ∀ h : Fin 256, h ≠ g →
        u.fld (fGrove_APPLIED h) = s.fld (fGrove_APPLIED h)) ∧
    ((∃ e ∈ s.thr.ctxs, e.1 / 256 = g.val ∧ e.2.inTileAccess = true) → exec (.ewSplitApply g) s = .next s))

/-- SCRUB_READ (R157, R158): the pass goes on by one line; a clean line changes nothing, a codeword with a symbol in error is written back
corrected and counted; the last line ends the pass and starts the rows' counts again. A stopped stack, one in Retention or untrained, and a
paused pseudo-channel are not read. -/
def Obligations.ScrubReadsLineByLine : Prop :=
  ∀ (s : State) (st : Fin 8) (upset : List Nat) (inner : Fin 3),
    let pos := s.fld (fScrub_POS st)
    let lines := s.fld (fScrub_LINES st)
    let line := st.val * 2 ^ 31 + pos
    let paused := s.pcState st (offPc (pos * 64)) = 2
    (s.flag (fMem_STOP st) = true ∨ s.pwr.mode = .ret ∨ lines = 0 ∨ paused → exec (.scrubRead st upset inner) s = .next s) ∧
    (s.flag (fMem_STOP st) = false → s.pwr.mode ≠ .ret → 0 < lines → pos < 2 ^ 31 → s.pcState st (offPc (pos * 64)) = 0 →
      s.badLanes st (offPc (pos * 64)) = [] → s.poisoned line = false → s.symErr line = [] →
      (∃ u, exec (.scrubRead st [] 0) s = .next u ∧ u.dram = s.dram ∧ u.fld (fProt_CE_COUNT st) = s.fld (fProt_CE_COUNT st) ∧
        (pos + 1 < lines → u.fld (fScrub_POS st) = pos + 1) ∧
        (lines ≤ pos + 1 → u.fld (fScrub_POS st) = 0 ∧ u.fld (fScrub_PASSES st) = (s.fld (fScrub_PASSES st) + 1) % 2 ^ 64 ∧
          (u.stk st).rowCnt = [])) ∧
      (∀ x, x < 72 → (s.dir line).mod = false → s.flag (fProt_INJ_ARM st) = false → 1 < s.laneThr st → 1 < s.rowThr st → pos + 1 < lines →
        tabGet cntZero (s.stk st).laneCnt (offPc (pos * 64) * 16 + x / 8) + 1 < s.laneThr st →
        tabGet cntZero (s.stk st).rowCnt (rowKey (offPc (pos * 64)) (offBank (pos * 64)) (offRow (pos * 64))) + 1 < s.rowThr st →
        Completes (.scrubRead st [x] 0) s fun u =>
          u.symErr line = [] ∧ u.dram = s.dram ∧ u.fld (fScrub_POS st) = pos + 1 ∧
          u.fld (fProt_CE_COUNT st) = (s.fld (fProt_CE_COUNT st) + 1) % 2 ^ (fProt_CE_COUNT st).w ∧
          u.fld (fProt_CE_LANE st) = x / 8 ∧ u.flag (fErr_CE (protPage st)) = true))

/-- Repairs in service (R160 to R165, Table 7.4): the first queued repair pauses its pseudo-channel; a lane repair puts the spare lane in
the lane's place, records it and returns the pseudo-channel to NORMAL, one that fails leaves it FAILED; a row repair maps the row to the
bank's next spare row and records it, no lane having been marked bad while the row was read. What waited is served again. -/
def Obligations.RepairsRunToTheirEnd : Prop :=
  ∀ (s : State) (st : Fin 8) (p : Nat), p < 64 →
    (∀ r, s.flag (fMem_STOP st) = false → s.pwr.mode ≠ .ret → (s.stk st).cur = none → s.nextRepair st = some r → r.pc = p →
      Completes (.repairStart st) s fun u =>
        (u.stk st).cur = some r ∧ u.pcState st p = 2 ∧ u.flag (fProt_BUSY st) = true ∧ u.fld (fProt_BUSY_PC st) = p ∧
        (u.stk st).laneQ = (s.stk st).laneQ.erase r ∧ (u.stk st).rowQ = (s.stk st).rowQ.erase r) ∧
    (∀ l, l < 9 → (s.stk st).cur = some (.lane p l) → s.badLanes st p = [l] →
      (∃ v : State, exec (.laneRepairComplete st true) s = .next v.releaseWaiting ∧ (v.stk st).cur = none ∧ v.flag (fProt_BUSY st) = false ∧
        tabGet laneIdent (v.stk st).laneMap (p * 16 + l) = 9 ∧ v.badLanes st p = [] ∧ v.pcState st p = 0 ∧ v.spareFree st p = false ∧
        (v.stk st).recLanes = (s.stk st).recLanes ++ [.lane p l]) ∧
      (∃ v : State, exec (.laneRepairComplete st false) s = .next v.releaseWaiting ∧ (v.stk st).cur = none ∧ v.pcState st p = 3 ∧
        v.spareFree st p = false)) ∧
    (∀ b r, b < 64 → r < 32768 → (s.stk st).cur = some (.row p b r) →
      (((List.range 16).foldl (fun t c => t.copyRowLine (st.val * 2 ^ 31 + offOf p b r c / 64)) s).badLanes st p = []) →
      ∃ v : State, exec (.rowRepairComplete st) s = .next v.releaseWaiting ∧ (v.stk st).cur = none ∧ v.pcState st p = 0 ∧
        tabGet cntZero (v.stk st).remap (rowKey p b r) = tabGet cntZero (s.stk st).spareUse (p * 64 + b) + 1 ∧
        tabGet cntZero (v.stk st).spareUse (p * 64 + b) = tabGet cntZero (s.stk st).spareUse (p * 64 + b) + 1 ∧
        (v.stk st).recRows = (s.stk st).recRows ++ [.row p b r])

/-- Interface errors, temperatures and the combiner (R169, R171 to R173, R188): up to three replays are counted, a transfer that fails them
all is recorded with class 0x0E and its line is uncorrectable to its next reader; TEMP, PEAK and the throttle step follow a sample, STOP is
set at T2 and cleared more than 2 °C below it; a STOP of 1 s is recorded once; the combiner's entry is applied as one addition. -/
def Obligations.StacksReportAndCombine : Prop :=
  ∀ (s : State) (st : Fin 8), s.memUp = true →
    (∀ line replays, replays ≤ 3 → Completes (.interfaceCrcFail (.stackIf st) line replays) s fun u =>
      u.fld (fMem_IF_RETRY st) = min (s.fld (fMem_IF_RETRY st) + replays) (2 ^ 32 - 1) ∧ u.mem = s.mem) ∧
    (∀ line replays, 3 < replays → Completes (.interfaceCrcFail (.stackIf st) line replays) s fun u =>
      u.mem.xfer.contains line = true ∧ u.fld fSafe_LAST_CLASS = 0x0E ∧ u.fld fSafe_LOG_SEQ = (s.fld fSafe_LOG_SEQ + 1) % 2 ^ 64) ∧
    (∀ t : BitVec 12,
      let n := s.fld (fMem_STEP st)
      let t1 : Int := 8 * s.fld (fMem_T1 st)
      let t2 : Int := 8 * s.fld (fMem_T2 st)
      let target := if t.toInt < t1 then 0 else min 7 (1 + ((t.toInt - t1) / 8).toNat)
      ∃ v : State, (exec (.tempSample st (some t)) s = .next v ∨ exec (.tempSample st (some t)) s = .next v.releaseWaiting) ∧
        v.fld (fMem_TEMP st) = t.toNat ∧ (v.stk st).tempFails = 0 ∧
        v.fld (fMem_PEAK st) = (if (BitVec.ofNat 12 (s.fld (fMem_PEAK st))).toInt < t.toInt then t.toNat else s.fld (fMem_PEAK st)) ∧
        (n < target → v.fld (fMem_STEP st) = target) ∧
        (target ≤ n → target ≤ v.fld (fMem_STEP st) ∧ v.fld (fMem_STEP st) ≤ n ∧
          ∀ m : Nat, v.fld (fMem_STEP st) < m → m ≤ n → t.toInt < t1 + 8 * m - 16) ∧
        v.flag (fMem_STOP st) = (decide (t2 ≤ t.toInt) || (s.flag (fMem_STOP st) && decide (t2 - 16 ≤ t.toInt)))) ∧
    (s.flag (fMem_STOP st) = true → (s.stk st).stopSaid = false → Completes (.thermalStopTimeout st) s fun u =>
      (u.stk st).stopSaid = true ∧ u.fld fSafe_LAST_CLASS = 0x41 ∧ exec (.thermalStopTimeout st) u = .next u) ∧
    (∀ line q, (s.stk st).comb = [(line, [q])] → q.op = 0 → q.key / 64 = line → q.key % 64 + q.aw ≤ 64 → 0 < q.aw → q.aw ≤ 8 →
      keyStack (line * 64) = st.val → s.lineGood line = true → s.accessStalled (line * 64) 64 true = false → s.biNeeded line true .none = false →
      (∀ p, s.flag (fInj_ARM p) = false) → (∀ e ∈ s.thr.ctxs, e.2.lines = []) →
      ∃ v : State, exec (.combinerApply st line) s = .next v.releaseWaiting ∧ (v.stk st).comb = [] ∧
        v.dramBytes q.key q.aw = natLE q.aw (leNat (s.dramBytes q.key q.aw) + q.operand.toNat) ∧
        ∀ j, j < q.key ∨ q.key + q.aw ≤ j → v.dramByte j = s.dramByte j)

/-- Typed views and the route table (R191 to R193, R266, Tables 8.4, 8.5, 11.7): setting EN checks the entry and writes STATUS, the first
check that fails as its code; a VALID entry takes a slot in each stack of its set and gives them back when EN is cleared and no access it
has accepted waits; a route entry keeps its ports and its version bit. The ring of a stack's copy engine (R202, R203, R205, R206, R211,
Tables 8.8, 8.9): setting EN with no descriptor in progress reads CONS and PROD from the ring's head; a PROD beyond the ring's length is a
ring error; a descriptor of one line moves it and ends; STATUS is written and the descriptor is no longer ACTIVE. -/
def Obligations.ViewsRoutesAndCopyRingAct : Prop :=
  (∀ (s : State) (ag : Agent) (i : Fin 1024), s.tabUp ag = true →
    let at_ := fun (u : State) => u.barNat (viewOff i + 0x30) 4
    (s.viewEn i = false → s.viewValid i = false →
      let s0 := s.putBarNat (viewOff i + 0x3F) 1 (s.barNat (viewOff i + 0x3F) 1 ||| 1)
      (s0.viewBadFormat i = true → Completes (.viewRegister ag i) s fun u => at_ u = 0x102 ∧ u.regs = s.regs) ∧
      (s0.viewBadFormat i = false → (s0.view i).badAlign = true → Completes (.viewRegister ag i) s fun u => at_ u = 0x202 ∧ u.regs = s.regs) ∧
      (∀ c s1, s0.viewCheck i = (.refused c, s1) → c < 256 → Completes (.viewRegister ag i) s fun u => at_ u = 2 + c * 256 ∧ u.regs = s1.regs) ∧
      (∀ m s1, s0.viewCheck i = (.valid m, s1) → m < 256 → Completes (.viewRegister ag i) s fun u =>
        at_ u = 1 + m * 65536 ∧
        ∀ n : Fin 8, u.fld (fView_SLOTS_USED n) =
          (if m.testBit n then (s1.fld (fView_SLOTS_USED n) + 1) % 2 ^ 8 else s1.fld (fView_SLOTS_USED n)))) ∧
    (s.viewEn i = true → s.viewValid i = true → s.viewInUse i = false → (s.view i).stackSet < 256 → Completes (.viewDeregister ag i) s fun u =>
      at_ u = 0 ∧ u.viewEn i = false ∧
      ∀ n : Fin 8, u.fld (fView_SLOTS_USED n) =
        (if (s.view i).stackSet.testBit n then s.fld (fView_SLOTS_USED n) - 1 else s.fld (fView_SLOTS_USED n))) ∧
    (∀ (pkg : Nat) (v : W32), pkg < 65536 → Completes (.routeTableWrite ag pkg v) s fun u =>
      u.route pkg = v.toNat % 2 ^ 17 ∧ u.regs = s.regs ∧ ∀ q, q < 65536 → q ≠ pkg → u.route q = s.route q)) ∧
  (∀ (s s1 s2 s3 : State) (st : Fin 8) (b b' d : List Byte), s.memWf = true →
    let head := s.copyHead st
    (∀ ag : Agent, s.agentUp ag = true → s.flag (fCopy_EN st) = false →
      let s0 := s.setFlag (fCopy_EN st) true
      s0.vread unitAgt (head + 8) 4 = (.ok b, s1) →
      (s1.stk st).copies = [] → (s1.stk st).due.cons = false →
      let s1' := (((s1.setFld (fCopy_CR_CONS st) (leNat b)).modStk st fun x => { x with copyProd := leNat b, copyNext := leNat b }).modStk st
        fun x => { x with due := { x.due with head := 0 } }).syncCopy st
      s1'.vread unitAgt (s1'.copyHead st) 4 = (.ok b', s2) → leNat b < 2 ^ 32 →
      (leNat b' + 2 ^ 32 - s2.fld (fCopy_CR_CONS st)) % 2 ^ 32 ≤ s2.copyLen st → Completes (.copyRingEnable ag st) s fun u =>
        (u.stk st).copyProd = leNat b' ∧ (u.stk st).copyNext = (s2.stk st).copyNext ∧ u.regs = s2.regs) ∧
    (s.flag (fCopy_EN st) = true → s.flag fSafe_SAFE = false → s.flag (fGated (0x0C4 + 8 * st.val)) = false → (s.stk st).due.head ≠ 2 →
      s.vread unitAgt head 4 = (.ok b, s1) →
      let ahead := (leNat b + 2 ^ 32 - s1.fld (fCopy_CR_CONS st)) % 2 ^ 32
      (ahead ≤ s1.copyLen st → Completes (.copyRingProd st) s fun u => (u.stk st).copyProd = leNat b ∧ u.regs = s1.regs) ∧
      (s1.copyLen st < ahead → Completes (.copyRingProd st) s fun u =>
        u.flag (fCopy_EN st) = false ∧ u.flag (fErr_RING (copyPage st)) = true ∧ u.stks = s1.stks)) ∧
    (s.flag (fCopy_EN st) = true → s.flag fSafe_SAFE = false → s.snapHere st = false → (s.stk st).copies = [] →
      (s.stk st).copyNext ≠ s.ringEnd (s.stk st).copyProd (s.stk st).due →
      let c : CopyJob := { va := BitVec.ofNat 64 (head + 64 + 64 * ((s.stk st).copyNext % s.copyLen st)), idx := (s.stk st).copyNext,
                           off := 0, code := 0, xcode := 0, ended := false }
      let s0 := s.modStk st fun y => { y with copies := [c], copyNext := (y.copyNext + 1) % 2 ^ 32 }
      s0.vread unitAgt c.va.toNat 64 = (.ok d, s1) →
      ((s1.stk st).copies = [c] → s1.copyRefusal d ≠ 0 → Completes (.copyDescriptor st) s fun u =>
        (u.stk st).copies = [{ c with code := s1.copyRefusal d, ended := true }] ∧ u.fld (fCopy_ACTIVE st) = 1 ∧ u.dram = s1.dram) ∧
      (∀ k k', s1.copyRefusal d = 0 → fieldLE d 16 8 = 64 → s1.copySide (fieldLE d 0 8) .load = (.key k, s2) → keyStack k = st.val →
        s2.copySide (fieldLE d 8 8) .store = (.key k', s3) → keyStack k' = st.val → k % 64 = 0 → k' % 64 = 0 →
        (s3.stk st).copies = [c] → s3.accessStalled k 64 false = false → s3.accessStalled k' 64 true = false → (s3.stk st).comb = [] →
        s3.decode (k / 64) = .clean → s3.lineGood (k / 64) = true → s3.pcState st (offPc (keyOff k')) ≠ 3 →
        (∀ p, s3.flag (fInj_ARM p) = false) → Completes (.copyDescriptor st) s fun u =>
          u.dramBytes k' 64 = s3.dramBytes k 64 ∧ (∀ j, j < k' ∨ k' + 64 ≤ j → u.dramByte j = s3.dramByte j) ∧
          (u.stk st).copies = [{ c with off := 64, ended := true }] ∧ u.fld (fCopy_ACTIVE st) = 1)) ∧
    (∀ c, (s.stk st).copies = [c] → c.ended = true → s.vread unitAgt c.va.toNat 64 = (.ok d, s1) → bitAt (fieldLE d 0x1A 1) 0 = false →
      let status := natLE 4 (if c.code = 0 then 1 else 2 + c.code * 256 + if c.code = 4 then c.xcode * 65536 else 0) ++
        if c.code = 0 then [] else natLE 8 c.off
      s1.vwrite unitAgt (c.va.toNat + 0x1C) status = (.ok b, s2) → (s2.stk st).copies = [c] →
      ∃ v : State, exec (.copyDescriptorDone st) s = .next (v.copyCons st) ∧ (v.stk st).copies = [] ∧ v.fld (fCopy_ACTIVE st) = 0 ∧ v.dram = s2.dram))

/-- The ring of a solver engine (R213 to R216, R235, Tables 9.2, 9.3): setting EN reads CONS and PROD from the head; a PROD beyond the
ring's length is a ring error; the next entry's job is taken when its checks pass, and answered with the first check's code when they do
not; its end writes DONE and the hand-off count. Systems of a job (R214, R228, R229, R234, Tables 9.5, 9.7): the next system's solution,
factor area, hand-off and status record are written in that order, the counters and the charge follow; a system that the deadline leaves out
gets its status record alone. -/
def Obligations.SolverJobsAndSystemsEnd : Prop :=
  (∀ (s s1 s2 s3 : State) (q : Fin 64) (b b' d : List Byte), s.memWf = true →
    let head := s.solvHead q
    let x := s.solv q
    (∀ ag : Agent, s.agentUp ag = true → s.flag (fSolv_EN q) = false →
      let s0 := s.setFlag (fSolv_EN q) true
      s0.vread unitAgt (head + 8) 4 = (.ok b, s1) → (s1.solv q).job = none → (s1.solv q).due.cons = false →
      let s1' := ((s1.setFld (fSolv_JR_CONS q) (leNat b)).modSolv q fun x => { x with prod := leNat b, next := leNat b }).modSolv q fun x =>
        { x with due := { x.due with head := 0 } }
      s1'.vread unitAgt (s1'.solvHead q) 4 = (.ok b', s2) →
      (leNat b' + 2 ^ 32 - s2.fld (fSolv_JR_CONS q)) % 2 ^ 32 ≤ s2.solvLen q → Completes (.solverRingEnable ag q) s fun u =>
        u.solv q = { s2.solv q with prod := leNat b', due := { (s2.solv q).due with head := 0 } } ∧ u.regs = s2.regs) ∧
    (s.flag (fSolv_EN q) = true → s.flag fSafe_SAFE = false → s.flag (fGated (solvPage q)) = false →
      (x.due.head ≠ 2 → s.vread unitAgt head 4 = (.ok b, s1) →
        let ahead := (leNat b + 2 ^ 32 - s1.fld (fSolv_JR_CONS q)) % 2 ^ 32
        (ahead ≤ s1.solvLen q → Completes (.solverRingProd q) s fun u =>
          u.solv q = { s1.solv q with prod := leNat b, due := { (s1.solv q).due with head := 0 } } ∧ u.regs = s1.regs) ∧
        (s1.solvLen q < ahead → Completes (.solverRingProd q) s fun u =>
          u.flag (fSolv_EN q) = false ∧ u.flag (fErr_RING (solvPage q)) = true ∧ u.solv q = s1.solv q)) ∧
      (x.job = none → x.next ≠ x.prod →
        (x.next = s.ringEnd x.prod x.due → exec (.solverJobStart q) s = .next (s.setFlag (fSolv_HELD q) true)) ∧
        (x.next ≠ s.ringEnd x.prod x.due → s.vread unitAgt (s.solvEntry q) 0x78 = (.ok d, s1) →
          (∀ ts, s1.solvCheck d = (.accept ts, s2) → s2.solv q = x → Completes (.solverJobStart q) s fun u =>
            u.flag (fSolv_ACTIVE q) = true ∧ (u.solv q).next = (x.next + 1) % 2 ^ 32 ∧
            ∃ j, (u.solv q).job = some j ∧ j.desc = d ∧ j.terms = ts ∧ j.next = 0 ∧ j.va = BitVec.ofNat 64 (s.solvEntry q) ∧
              j.epoch = BitVec.ofNat 32 (s2.fld fMode_A_EPOCH)) ∧
          (∀ c, s1.solvCheck d = (.refuse c, s2) → c ≠ 7 → s2.vwrite unitAgt (s.solvEntry q + 0x78) (natLE 4 (2 + c * 256)) = (.ok b, s3) →
            s3.solv q = x → ∃ v : State, exec (.solverJobStart q) s = .next (v.solvCons q) ∧ (v.solv q).job = none ∧
              (v.solv q).next = (x.next + 1) % 2 ^ 32 ∧ v.fld (fSolv_JOBS q) = (s3.fld (fSolv_JOBS q) + 1) % 2 ^ 64 ∧ v.dram = s3.dram)))) ∧
    (∀ j, x.job = some j → descCount j.desc ≤ j.next → s.flag fSafe_SAFE = false → bitAt (fieldLE j.desc 0xC 2) 15 = false →
      s.vwrite unitAgt (j.va.toNat + 0x78) (natLE 4 1 ++ natLE 4 j.handoffs) = (.ok b, s1) → s1.solv q = x →
      ∃ v : State, exec (.solverJobEnd q) s = .next (v.solvCons q) ∧ (v.solv q).job = none ∧ v.flag (fSolv_ACTIVE q) = false ∧
        v.fld (fSolv_JOBS q) = (s1.fld (fSolv_JOBS q) + 1) % 2 ^ 64 ∧ v.dram = s1.dram)) ∧
  (∀ (s s1 s2 : State) (q : Fin 64) (j : SJob) (o : SysOut), (s.solv q).job = some j → j.next < descCount j.desc → s.flag fSafe_SAFE = false →
    let d := j.desc
    let h := descShape d
    let r := o.res
    let ends := fun (u v : State) => (u.solv q).job = some { j with next := j.next + 1, charge := j.charge + r.work,
                                                                    handoffs := j.handoffs + (r.code == 4 || r.code == 5).toNat } ∧
      u.fld (fSolv_SYSTEMS q) = (v.fld (fSolv_SYSTEMS q) + 1) % 2 ^ 64 ∧ u.dram = v.dram
    let inj := s.injArmed (solvPage q) 1
    s.runSystem j inj (if inj then none else Config.solvFault s.fresh) = (some o, s1) → (s2.solv q).job = some j →
    (r.code ∉ [1, 2, 3, 7] →
      let aw := areaWrites h o (fingerprint h o.pos) j.epoch.toNat (s1.fld fPkg_STEP)
      let sol := solWrites h r.sol
      s1.swrites ((if sol.isEmpty then [] else [(solVa d j.next, sol)]) ++ aw.1.map (fun w => (areaVa d j.next + w.1, w.2)) ++
          (if descAt d 0x48 = 0 ∧ r.code = 0 then
            [(areaVa d j.next, (List.range h.areaBytes).map fun k => BitVec.ofNat 8 (j.open_ r (4 + k)))] else []) ++
          (if r.code = 4 ∨ r.code = 5 then [(descAt d 0x58 + 4 * j.handoffs, natLE 4 j.next)] else []) ++
          [(descAt d 0x50 + 32 * j.next, statusRec s1 j r (slotBit j r aw.2))]) = (true, s2) →
      Completes (.solverSystemEnd q) s (fun u => ends u s2) ∧ exec (.solverDeadline q) s = .next s) ∧
    (r.code = 3 → r.sol = .keep → r.area = .keep →
      s1.vwrite unitAgt (descAt d 0x50 + 32 * j.next) (statusRec s1 j r (slotBit j r o.head)) = (.ok [], s2) →
      Completes (.solverDeadline q) s (fun u => ends u s2 ∧ u.fld (fSolv_DEADLINE_CNT q) = (s2.fld (fSolv_DEADLINE_CNT q) + 1) % 2 ^ 64) ∧
      exec (.solverSystemEnd q) s = .next s))

/-- Model entries (R237, R238, Tables 10.1, 10.2): setting EN checks the entry; one that fails is REFUSED with its code, one that passes is
registered by and by: an inference model is VALID then, a training model once its working copy is regenerated, with the digest of its
master; clearing EN of a VALID entry without a pass clears its status. Update passes and checks of models (R244 to R250): a plain pass reads
the master and the gradient, writes the new master and its working copy to the other slot, gives their digest, and leaves the result
PENDING; a full read of the checked bytes becomes LASTREAD, and CORRUPT is set when it differs from DIGEST. -/
def Obligations.ModelsAreRegisteredAndChecked : Prop :=
  (∀ (s : State) (ag : Agent) (m : Fin 4096), s.tabUp ag = true →
    let status := fun (u : State) => u.barNat (modelOff m + 0xE8) 4
    (s.modelEn m = false →
      let s0 := s.putBarNat (modelOff m + 0xFF) 1 (s.barNat (modelOff m + 0xFF) 1 ||| 1)
      (s0.modelBadFormat m = true → Completes (.modelRegister ag m) s fun u => status u = 0x102 ∧ u.mdl = s.mdl) ∧
      (s0.modelBadFormat m = false → (s0.model m).badAlign = true → Completes (.modelRegister ag m) s fun u => status u = 0x202 ∧ u.mdl = s.mdl) ∧
      (∀ c s1, s0.modelCheck m = (some c, s1) → 0 < c → c < 256 → Completes (.modelRegister ag m) s fun u =>
        status u = 2 + c * 256 ∧ u.mdl = s1.mdl) ∧
      (∀ s1, s0.modelCheck m = (some 0, s1) → Completes (.modelRegister ag m) s fun u => status u = 0 ∧ u.mdl.regs = s1.mdl.regs ++ [m.val])) ∧
    (s.modelEn m = true → status s = 0 → s.mdl.regs.contains m.val = true → (s.model m).opt ≠ 2 →
      let v := s.model m
      (v.training = false → v.verify = false → Completes (.modelRegisterDone m) s fun u => status u = 1 ∧ u.mdl.regs.contains m.val = false) ∧
      (∀ r s1, v.training = false → v.verify = true → s.readChecked m v = (r, s1) → r.stall = false → r.bad = false →
        Completes (.modelRegisterDone m) s fun u =>
          status u = 1 ∧ u.barNat (modelOff m + 0xC0) 8 = (v.digestOf r s1.fresh).toNat ∧ u.dram = s1.dram) ∧
      (∀ r s1 s2 lost, v.training = true → s.readChecked m { v with cur := 0 } = (r, s1) → r.stall = false → r.bad = false →
        let ws := r.elems v.msz v.mcount s1.fresh
        let wc := workCopy v.mfmt v.wfmt v.sr (mix64 (v.wseed ^^^ BitVec.ofNat 64 v.updCount)) ws
        s1.mwrites m false [(v.wbase, wc.1), (v.wsbase, wc.2.1)] = (.ok [], lost, s2) → Completes (.modelRegisterDone m) s fun u =>
          status u = 1 ∧ u.barNat (modelOff m + 0xC0) 8 = (patDigest ws).toNat ∧ u.barNat (modelOff m + 0xD0) 8 = (patDigest ws).toNat ∧
          u.dram = s2.dram ∧ u.mdl.prot.any (fun e => e.1 == m.val) = true)) ∧
    (s.modelEn m = true → (s.model m).valid = true → s.passOf m = none → Completes (.modelDeregister ag m) s fun u =>
      status u = 0 ∧ u.modelEn m = false ∧ u.mdl.prot.any (fun e => e.1 == m.val) = false ∧ u.dram = s.dram)) ∧
  (∀ (s s1 s2 s3 : State) (m : Fin 4096),
    let v := s.model m
    let base := fun (b c : Nat) => b + c * v.soff
    (∀ (p : MPass) (rm rg : MRead) (refused : Bool), s.passOf m = some p → p.wrote = false → s.flag fSafe_SAFE = false → p.cntEn = false →
      v.training = true → v.opt = 0 → v.cur < 2 → v.mfmt ≤ 1 → v.gfmt = v.mfmt → s3.modelInj m = false →
      (∀ c ∈ s3.fab.ctxs, c.use ≠ .model m) → s3.modelEn m = true → s3.host.jobEnding = none →
      s.mreadAll m (base v.mbase v.cur) (v.mcount * v.msz) = (rm, s1) → s1.mreadAll m v.gbase (v.mcount * v.gsz) = (rg, s2) →
      rm.stall = false → rg.stall = false → rm.bad = false →
      let w := rm.elems v.msz v.mcount s2.fresh
      let g := rg.elems v.gsz v.mcount (s2.fresh + v.mcount)
      let res := v.update p.hyp [] ⟨w, g, []⟩
      let wc := workCopy v.mfmt v.wfmt v.sr (mix64 (v.wseed ^^^ BitVec.ofNat 64 (v.updCount + 1))) res.master
      s2.mwrites m false [(base v.mbase (1 - v.cur), elemBytes v.msz res.master), (base v.wbase (1 - v.cur), wc.1),
        (base v.wsbase (1 - v.cur), wc.2.1), (base v.obase (1 - v.cur), elemBytes v.msz res.state)] = (.ok [], refused, s3) →
      Completes (.updatePassDone m) s fun u =>
        (u.model m).nextDigest = patDigest res.master ∧ (u.model m).pending = true ∧ (u.model m).lastRead = patDigest w ∧
        u.passOf m = none ∧ u.dram = s3.dram) ∧
    (∀ r : MRead, v.valid = true → s.boundary = false → v.checked ≠ [] → s.readChecked m v = (r, s1) → r.stall = false → s1.modelInj m = false →
      s1.model m = v →
      let d := v.digestOf r s1.fresh
      Completes (.backgroundCheck m) s fun u =>
        (u.model m).lastRead = d ∧ u.dram = s1.dram ∧
        (u.model m).corrupt = (v.corrupt || r.bad || decide (d ≠ v.digest))))

/-- Model instructions (R240, R241, R244, R256, Table 10.10): MSEL takes the model's layer 0 into the grove's engine and gives the layer
table's address; MHINT only prefetches; MUPDATE begins one pass and faults with 0x4A while one is in progress or its result waits; MEXPORT
writes the header. An index that names no model of the job faults with 0x48. -/
def Obligations.ModelInstructionsRetire : Prop :=
  ∀ (s s1 s2 s3 : State) (t : Tid) (tgt : Target) (d a b : Reg) (bs e : List Byte),
    let c := s1.ctx t
    let i := (c.ga a).toNat
    let v := s1.model i
    (s.Issues t profEngine tgt s1 →
      let m := s1.mat t.groveOf
      let own := s1.setMat t.groveOf { m with owner := some t }
      (m.owner = none ∨ m.owner = some t) → m.pend = false →
      (s1.modelOk t i = true → c.ga b = 0xFFFF → own.vread (engAgt t) v.epi0 4096 = (.ok e, s2) → s2.ctx t = c → ctlBad (fieldLE e 0x10 8) = false →
        (sliceB e 0x50 0x7B0).any (· != 0) = false → Completes (.msel t d a b) s fun u =>
          let lt := BitVec.ofNat 64 (v.ltab + v.cur * v.soff)
          (u.mat t.groveOf).model = some (i, v.l0dNow, lt) ∧ (u.mat t.groveOf).epi = epiOf e ∧ (u.mat t.groveOf).owner = some t ∧
          (u.ctx t).ga d = lt ∧ (u.ctx t).pc = c.pc + 4) ∧
      (s1.modelOk t i = false → Completes (.msel t d a b) s fun u =>
        (u.ctx t).st = .faulted ∧ (u.ctx t).faultInfo = faultWord 0x48 false false 0 ∧ u.mat t.groveOf = m)) ∧
    (s.Issues t profAll tgt s1 →
      (c.ga a = 0xFFFF → exec (.mhint t a) s = .next (s1.setCtx t c.retired)) ∧
      (s1.modelOk t i = true → t.kind ≠ .grove → exec (.mhint t a) s = .next (s1.setCtx t c.retired)) ∧
      (c.ga a ≠ 0xFFFF → s1.modelOk t i = true → t.kind = .grove → s1.prefetch t.groveOf i = s2 → (s2.ctx t).stopPending = false →
        exec (.mhint t a) s = .next (s2.setCtx t (s2.ctx t).retired)) ∧
      (c.ga a ≠ 0xFFFF → s1.modelOk t i = false → exec (.mhint t a) s = .next (s1.takeFault t { code := 0x48 }))) ∧
    (s.Issues t profWork tgt s1 →
      (s1.modelOk t i = false ∨ v.training = false ∨ 8192 ≤ (c.ga b).toNat → exec (.mupdate t a b) s = .next (s1.takeFault t { code := 0x48 })) ∧
      (s1.modelOk t i = true → v.training = true → (c.ga b).toNat < 8192 →
        (v.pending = true ∨ (s1.passOf i).isSome = true → exec (.mupdate t a b) s = .next (s1.takeFault t { code := 0x4A })) ∧
        (v.pending = false → s1.passOf i = none → v.lenderLost = false → Completes (.mupdate t a b) s fun u =>
          u.ctx t = c.retired ∧ u.dram = s1.dram ∧ ∃ p, u.mdl.passes = s1.mdl.passes ++ [p] ∧ p.m = i ∧ p.wrote = false ∧
            p.cnt = (c.ga b).toNat % 4096 ∧ p.cntEn = (c.ga b).getLsbD 12 ∧ p.hyp = s1.barBytes (modelOff i + 0x80) 48))) ∧
    (s.Issues t profControl tgt s1 →
      (s1.modelOk t i = false ∨ v.training = false → exec (.mexport t a d) s = .next (s1.takeFault t { code := 0x48 })) ∧
      (s1.modelOk t i = true → v.training = true → s1.vprobe (s1.whoOf t) .store (c.ga d).toNat 128 = (.ok bs, s2) →
        s2.vwrite (s2.agtOf t) (c.ga d).toNat (v.header (v.obytes (s2.segsNow v)) (s2.fld fPkg_STEP)) = (.ok e, s3) →
        (s3.ctx t).stopPending = false → exec (.mexport t a d) s = .next (s3.setCtx t (s3.ctx t).retired)))

/-- STEPMARK and RELEASE_STEP (R17, R18, R258, Table 1.3): the step-mark retires and the boundary waits for its fence; with the fence
complete the step counter counts and the first action that applies is due; memory, fabric and engine instructions are held meanwhile; the
release makes held threads READY unless a hold is in force. The poll and the notices (R326, R327, R331, R332, Tables 14.3, 14.4): with
SOL_EN the poll is the group's; its result leaves the release due, with no cut when nothing is asked or the step counters differ; without
SOL_EN the package's own values are the result. A notice with no job is recorded; one for a job is pending, and one more is counted. -/
def Obligations.BoundariesBeginAndNotify : Prop :=
  (∀ (s s1 : State) (t : Tid) (tgt : Target), s.Issues t profControl tgt s1 →
    let s2 := ((s1.setCtx t (s1.ctx t).retired).markRings).toPhase .fence
    (s2.fenceDone = false → exec (.stepmark t) s = .next s2) ∧
    (s2.fenceDone = true → Completes (.stepmark t) s fun u =>
      u.fld fPkg_STEP = (s1.fld fPkg_STEP + 1) % 2 ^ 64 ∧ u.ctx t = (s1.ctx t).retired ∧
      u.bnd.phase =
        (if s1.flag fEqx_EQ_EN then .voteDue
         else if s1.flag fMode_ARMED then .applyDue
         else if s1.flag fSnap_SOL_EN || s1.flag fSnap_REQ_PEND || s1.flag fSnap_PRE_PEND then .pollDue else .releaseDue)) ∧
    (∀ (u : State) (i : Instr) (body : State → TRes), t.valid = true → (u.ctx t).st = .ready → u.debugHeld t.handle = false →
      u.sec.stepping.contains t.handle = false → (u.ctx t).late = none → u.boundary = true → (u.ctx t).await.out = false →
      u.issue t i profWork body = u.setCtx t ((u.ctx t).heldAt i)) ∧
    (∀ u : State, u.bnd.phase = .releaseDue →
      (u.flag fSnap_HELD = true → exec .releaseStep u = .next u) ∧
      (u.flag fSnap_HELD = false → (∀ e ∈ u.thr.ctxs, e.2.st ≠ .held) → ∃ v : State, exec .releaseStep u = .next v.releaseWaiting ∧
        v.bnd.phase = .none ∧ v.boundary = false ∧ v.thr = u.thr ∧ ∀ q : Fin 64, v.flag (fSolv_HELD q) = false))) ∧
  (∀ s s1 : State,
    (s.bnd.phase = .pollDue → s.flag fSnap_SOL_EN = true → Completes .solsticePoll s fun u => u.bnd.phase = .poll) ∧
    (s.bnd.phase = .pollDue → s.flag fSnap_SOL_EN = false → s.snp.job = none → s.snapPending = true → s.bnd.holdDue = false →
      s.cut (BitVec.ofNat 64 (s.fld fSnap_GEN_NEXT)).toNat (s.flag fSnap_PRE_PEND) = some s1 →
      Completes .solsticePoll s fun u =>
        u.bnd.phase = .releaseDue ∧ u.fld fSnap_GEN_NEXT = (s.fld fSnap_GEN_NEXT + 1) % 2 ^ 64 ∧ u.fld fSnap_CUT_STEP = s.fld fPkg_STEP ∧
        u.flag fSnap_REQ_PEND = false) ∧
    (s.bnd.phase = .poll → s.bnd.result = none → ∀ (err : Option Nat) (v0 v1 v2 v3 v4 : W64), (err ≠ none ∨ v1 ≠ v2 ∨ (v0.getLsbD 0 = false ∧ v0.getLsbD 1 = false)) →
      Completes (.solsticePollResult err v0 v1 v2 v3 v4) s fun u =>
        u.bnd.phase = .releaseDue ∧ u.fld fSnap_GEN_NEXT = s.fld fSnap_GEN_NEXT ∧ u.flag fSnap_REQ_PEND = s.flag fSnap_REQ_PEND) ∧
    (∀ src : Nat, s.jobRuns = true → s.snp.job = none →
      (s.flag fSnap_PRE_PEND = false → Completes (.preemptionMessage src) s fun u =>
        u.flag fSnap_PRE_PEND = true ∧ u.fld fSnap_SRC = 3 ∧ u.snp.src = src) ∧
      (s.flag fSnap_PRE_PEND = true → Completes (.preemptionMessage src) s fun u =>
        u.flag fSnap_PRE_PEND = true ∧ u.fld fSnap_NOTICES = min (s.fld fSnap_NOTICES + 1) (2 ^ 32 - 1))) ∧
    (∀ src : Nat, s.jobRuns = false → Completes (.preemptionMessage src) s fun u => u.regs = s.regs ∧ u.snp = s.snp) ∧
    (s.pwr.mctp = true → s.jobRuns = true → s.snp.job = none → s.flag fSnap_PRE_PEND = false → Completes (.preEmpt .bmc) s fun u =>
      u.flag fSnap_PRE_PEND = true ∧ u.fld fSnap_SRC = 2 ∧ u.answers = .code 0 [] :: s.answers))

/-- Equinox (R251 to R255, Tables 10.5, 10.6): the vote writes the digest list and carries the package digest; its result commits the
pending models when every P agrees and F is 0, skips them when F is not 0, goes to the count when the digests differ among three or more
members, and stops otherwise; the count finds the minority that repairs, or stops; the barrier ends the repair. -/
def Obligations.EquinoxDecides : Prop :=
  ∀ (s s1 : State) (r : MRes),
    (s.bnd.phase = .voteDue → s.vwrite unitAgt s.bnd.eqx.list s.digestList = (r, s1) → r ≠ .stall → Completes .equinoxVote s fun u =>
      u.bnd.phase = .vote ∧ u.flag fEqx_VOTING = true ∧ u.fld fEqx_LAST_P = s1.packageDigest.toNat ∧ u.dram = s1.dram) ∧
    (s.bnd.phase = .vote → s.bnd.result = none → ∀ f pmin pmax vmin vmax n : W64,
      Completes (.equinoxVoteResult none f pmin pmax vmin vmax n) s (fun u =>
        (vmin ≠ vmax ∨ (pmin ≠ pmax ∧ n.toNat < 3) → u.bnd.phase = .stopped ∧ u.flag fEqx_STOPPED = true ∧ u.flag fEqx_VOTING = false) ∧
        (vmin = vmax → pmin ≠ pmax → 3 ≤ n.toNat → u.bnd.phase = .count ∧ u.bnd.eqx.f = f ∧ u.bnd.eqx.n = n ∧ u.bnd.eqx.pmin = pmin ∧
          u.bnd.eqx.pmax = pmax) ∧
        (vmin = vmax → pmin = pmax →
          u.fld fEqx_VOTES = (s.fld fEqx_VOTES + 1) % 2 ^ 64 ∧ u.flag fEqx_VOTING = false ∧ u.flag fEqx_LAST_SKIP = decide (f ≠ 0) ∧
          u.fld fEqx_SKIPS = (if f = 0 then s.fld fEqx_SKIPS else (s.fld fEqx_SKIPS + 1) % 2 ^ 64) ∧
          (u.bnd.phase = .applyDue ∨ u.bnd.phase = .pollDue ∨ u.bnd.phase = .releaseDue) ∧
          ∀ m ∈ s.models, let v := s.model m
            (u.model m).pending = false ∧
            (f = 0 → v.pending = true → v.cur < 2 → (u.model m).cur = 1 - v.cur ∧ (u.model m).digest = v.nextDigest ∧
              (u.model m).updCount = (v.updCount + 1) % 2 ^ 64) ∧
            (f ≠ 0 ∨ v.pending = false → (u.model m).cur = v.cur ∧ (u.model m).digest = v.digest ∧ (u.model m).updCount = v.updCount))) ∧
      ∀ c, Completes (.equinoxVoteResult (some c) f pmin pmax vmin vmax n) s fun u => u.bnd.phase = .stopped ∧ u.flag fEqx_STOPPED = true) ∧
    (s.bnd.phase = .count → s.bnd.result = none → ∀ cmin cmax srcMin srcMax : W64,
      let n := s.bnd.eqx.n.toNat
      let p := if n < 2 * cmin.toNat then s.bnd.eqx.pmin else s.bnd.eqx.pmax
      Completes (.equinoxCountResult none cmin cmax srcMin srcMax) s fun u =>
        (n < 2 * cmin.toNat ∨ n < 2 * cmax.toNat → u.flag fEqx_REPAIRING = true ∧
          u.bnd.phase = if BitVec.ofNat 64 (s.fld fEqx_LAST_P) = p then .barrier else .repair) ∧
        (2 * cmin.toNat ≤ n → 2 * cmax.toNat ≤ n → u.bnd.phase = .stopped ∧ u.flag fEqx_STOPPED = true)) ∧
    (s.bnd.phase = .repair → ∀ (order : List Nat) (limit : Nat) (failed : Bool),
      let e := s.bnd.eqx
      let ask := s.repairRead ((List.range 8).map fun i => (e.src * 2 ^ 48 + e.win * 2 ^ 34 + 4096 * i, 4096))
      (ask = (.stall, s1) → exec (.equinoxRepair order limit failed) s = .next s1) ∧
      (∀ c s1, ask = (.refused c, s1) → Completes (.equinoxRepair order limit failed) s fun u => u.bnd.phase = .barrier ∧ u.dram = s1.dram) ∧
      (∀ list bad s1 s2, ask = (.ok list, s1) → s1.eqxCopies e.f list ((repairOrder order).take limit) = (.done bad, s2) →
        (bad = true ∨ failed = true ∨ (repairOrder order).length ≤ limit → Completes (.equinoxRepair order limit failed) s fun u =>
          u.bnd.phase = .barrier ∧ u.dram = s2.dram ∧ ∀ m, (u.model m).digest = (s2.model m).digest) ∧
        (bad = false → failed = false → limit < (repairOrder order).length → exec (.equinoxRepair order limit failed) s = .next s2)) ∧
      (∀ list s1 s2, ask = (.ok list, s1) → s1.eqxCopies e.f list ((repairOrder order).take limit) = (.wait, s2) →
        exec (.equinoxRepair order limit failed) s = .next s2)) ∧
    (s.bnd.phase = .barrier → s.bnd.result = none →
      Completes (.equinoxRepairBarrier true) s (fun u => u.bnd.phase = .stopped ∧ u.flag fEqx_STOPPED = true) ∧
      Completes (.equinoxRepairBarrier false) s fun u =>
        u.fld fEqx_VOTES = (s.fld fEqx_VOTES + 1) % 2 ^ 64 ∧ u.fld fEqx_REPAIRS = (s.fld fEqx_REPAIRS + 1) % 2 ^ 64 ∧
        u.flag fEqx_LAST_REPAIR = true ∧ u.flag fEqx_REPAIRING = false ∧ u.bnd.phase ≠ .barrier)

/-- Configuration epochs (R318 to R324): action 2 sends the staged configuration; when every block has applied it, it is the one in force in
every block and thread and ARMED is clear; a late block, a wrong firmware set, or a member that disagrees reverts it with the code that says
so; with AGREE_EN the group's agreement follows. -/
def Obligations.ConfigurationEpochsApplyOrRevert : Prop :=
  ∀ s : State,
    (s.bnd.phase = .applyDue → Completes .epochApply s fun u => u.bnd.phase = .apply ∧ u.flag fMode_APPLYING = true) ∧
    (s.bnd.phase = .none → s.jobRuns = false → s.flag fMode_ARMED = true → Completes .epochApply s fun u =>
      u.bnd.phase = .none ∧ u.flag fMode_APPLYING = true) ∧
    (s.bnd.phase = .apply →
      let next := fun (u : State) => if s.flag fMode_AGREE_EN then u.bnd.phase = .agree else u.flag fMode_APPLYING = false ∧
        (u.bnd.phase = .pollDue ∨ u.bnd.phase = .releaseDue)
      (s.fwsetBad = false → Completes .epochApplied s fun u =>
        u.fld fMode_A_EPOCH = s.fld fMode_STG_EPOCH ∧ u.fld fMode_A_PROFILE = s.fld fMode_PROFILE ∧
        u.fld fMode_A_CAP_MODE = s.fld fMode_CAP_MODE ∧ u.fld fMode_A_STRICT = s.fld fMode_STRICT ∧ u.flag fMode_ARMED = false ∧
        u.fld fMode_APPLIES = (s.fld fMode_APPLIES + 1) % 2 ^ 64 ∧ (∀ p ∈ epochPages, u.fld (fEpoch p) = s.fld fMode_STG_EPOCH) ∧
        (∀ e ∈ u.thr.ctxs, e.2.epoch = BitVec.ofNat 32 (s.fld fMode_STG_EPOCH)) ∧ next u) ∧
      (s.fwsetBad = true → Completes .epochApplied s fun u =>
        u.flag fMode_ARMED = false ∧ u.flag fMode_REVERTED = true ∧ u.fld fMode_CODE = 0x11 ∧ u.fld fMode_A_EPOCH = s.fld fMode_A_EPOCH ∧
        u.fld fMode_REVERTS = (s.fld fMode_REVERTS + 1) % 2 ^ 64 ∧ next u) ∧
      (∀ late, late < 512 → Completes (.epochApplyTimeout late) s fun u =>
        u.flag fMode_ARMED = false ∧ u.flag fMode_REVERTED = true ∧ u.fld fMode_CODE = 0x10 ∧ u.fld fMode_LATE_PAGE = late ∧
        u.fld fMode_A_EPOCH = s.fld fMode_A_EPOCH ∧ next u)) ∧
    (∀ (a lo hi : W64) (err : Option Nat) (c : EpPrev), s.bnd.phase = .agree → s.bnd.result = none → s.bnd.prev = some c →
      (err = none → a ≠ 0 → lo = hi → Completes (.epochAgreementResult err a lo hi) s fun u =>
        u.flag fMode_APPLYING = false ∧ u.fld fMode_A_EPOCH = s.fld fMode_A_EPOCH ∧ u.fld fMode_REVERTS = s.fld fMode_REVERTS) ∧
      (err ≠ none ∨ a = 0 ∨ lo ≠ hi → c.epoch < 2 ^ 32 → Completes (.epochAgreementResult err a lo hi) s fun u =>
        u.flag fMode_APPLYING = false ∧ u.fld fMode_A_EPOCH = c.epoch ∧ u.flag fMode_REVERTED = true ∧ u.fld fMode_CODE = 0x12))

/-- A snapshot in progress (R338 to R342, Tables 14.6 to 14.9): the next unit is copied to the reserve, which ends its protection and counts
its bytes; a tensor whose units are all copied becomes a shard with its digest; with nothing left the generation is committed with its
manifest; the stall limit and CANCEL end it with their codes, its units unprotected. What waited on protection is performed. RESTORE and its
end (R346, R348, Table 14.10): refused while a thread of the job runs; it waits for a snapshot in progress; a generation that is not there
ends it with code 3 and the job blocked; one whose manifest fails a check keeps the check's code; the last barrier releases the job at the
generation's step, or ends with the code of what failed. A writer answers a request for a shard's digest. -/
def Obligations.SnapshotsCommitAndRestoresSucceed : Prop :=
  (∀ (s : State) (j : SnapJob), s.snp.job = some j → s.snp.rest = none →
    let ended := fun (v : State) (code : Nat) => v.snp.job = none ∧ v.snp.units = [] ∧ v.snp.copied = [] ∧ v.fld fSnap_CODE = code
    let pend := fun (v : State) => if j.preempt then v.releaseWaiting.setFlag fSnap_PRE_PEND true else v.releaseWaiting
    (∀ (x : SUnit) (d : List Byte) (bad : List Nat) (n : Nat) (s1 : State), j.tier = 1 → s.snp.flying = none → s.snp.nextUnit = some x →
      x.lines.any s.lineStalled = false → s.reserveRoom x = true → s.unitLines x.lines ([], [], x.index * 65536) = ((d, bad, n), s1) →
      ∃ v : State, exec .snapshotUnitCopy s = .next v.releaseWaiting.resumeRestore ∧ v.snp.copied = s1.snp.copied ++ [⟨x, d, bad⟩] ∧
        v.snp.units = s1.snp.units.filter (· ≠ x) ∧ v.fld fSnap_SNAP_BYTES = (s1.fld fSnap_SNAP_BYTES + 65536) % 2 ^ 64) ∧
    (∀ (t : TCut) (rest : List TCut), j.toDrain = t :: rest → (s.snp.units.any fun u => u.tensor == t.id) = false →
      let mine := s.snp.copied.filter fun c => c.unit.tensor == t.id
      let sh := { t with drained := t.drained ++ mine }.toShard j.gen (Config.unstated s.fresh)
      j.written + sh.sbytes ≤ s.fld fNand_FREE → Completes (.shardDrain false) s fun u =>
        u.snp.copied = s.snp.copied.filter (fun c => c.unit.tensor != t.id) ∧ sh.digest = sha3_256 sh.bytes ∧
        u.snp.job = some { j with tensors := j.tensors.map fun y => if y.id = t.id then
          { t with drained := [], shard := some sh } else y }) ∧
    (s.snp.doomed = 0 → s.snp.units = [] → s.snp.flying = none → j.toDrain = [] → 0 < j.gen → j.gen < 2 ^ 64 →
      Completes .snapshotCommit s fun u =>
        u.snp.job = none ∧ u.fld fSnap_GEN_COMMITTED = j.gen ∧ u.fld fSnap_CODE = 0 ∧
        (s.flag fSnap_SOL_EN = true → u.snp.gens = s.snp.gens ++ [s.manifest j] ∧ u.fld fSnap_GEN_AGREED = s.fld fSnap_GEN_AGREED) ∧
        (s.flag fSnap_SOL_EN = false → u.fld fSnap_GEN_AGREED = j.gen) ∧
        (j.preempt = true → u.bnd.holdDue = s.flag fSnap_HOLD_AFTER)) ∧
    (s.snp.units ≠ [] → exec .snapshotCommit s = .next (if s.snp.doomed ≠ 0 then (s.snapEnd s.snp.doomed).resumeRestore else s) ∧
      (s.snp.stalled ≠ [] → ∃ v : State, ended v 0x10 ∧ exec .stallLimit s =
        .next ((((pend v).event logInfo .snapAbandoned (BitVec.ofNat 64 j.gen) 0x10 []).inc fSnap_ABANDONS).resumeRestore))) ∧
    (∀ ag, s.agentUp ag = true → ∃ v : State, ended v 0x17 ∧ exec (.snapshotCancel ag) s = .next (pend v).resumeRestore)) ∧
  (∀ (s : State) (ag : Agent) (err : Option Nat) (a b c d : W64),
    let run := exec (.restore ag err a b c d) s
    (s.agentUp ag = true → s.jobRuns = false ∨ s.jobActive = true → run = .next (s.setFld fSnap_RCODE 1)) ∧
    (s.agentUp ag = true → s.jobRuns = true → s.jobActive = false → s.snp.rest = none →
      (s.snp.job ≠ none → ∃ u, run = .next u ∧ u.flag fSnap_RESTORING = true ∧ u.snp.job = s.snp.job ∧
        u.snp.rest = some { waiting := some (err, (a, b, c, d)), code := 0, man := none, stage := .shards }) ∧
      (s.snp.job = none → s.flag fSnap_SOL_EN = false → s.fld fSnap_GEN_AGREED = s.fld fSnap_GEN_COMMITTED →
        let s0 := s.setFlag fSnap_RESTORING true
        (s.restoreGen (s.fld fSnap_RESTORE_GEN) = none → ∃ u, run = .next u ∧ u.fld fSnap_RCODE = 3 ∧ u.flag fSnap_RESTORING = false ∧
          u.snp.blocked = true) ∧
        (∀ m code gs s2, s.restoreGen (s.fld fSnap_RESTORE_GEN) = some m → s.bnd.phase ≠ .stopped →
          (s0.endThreads.toPhase .none).restoreCheck m = (.ok (code, gs), s2) → code ≠ 0 → s2.flag fSnap_SOL_EN = false → ∃ u, run = .next u ∧
            u.snp.rest = some { waiting := none, code := code, man := some m, stage := .barrier } ∧ u.dram = s2.dram))) ∧
    (∀ (r : RestSt) (m : SManifest) (peers : Option (List (W64 × List Byte))), s.snp.rest = some r → r.man = some m → r.waiting = none →
      (r.stage = .last ∧ s.bnd.result = none) ∨
        (r.stage = .barrier ∧ s.flag fSnap_SOL_EN = false ∧ m.tensors.any RTensor.replica = false) →
      let code := if r.code ≠ 0 then r.code else if r.stage = .last ∧ peers = none then 0x0C else 0
      (code = 0 → ∃ v : State, exec (.restoreComplete peers) s = .next v.releaseWaiting ∧ v.fld fPkg_STEP = m.step.toNat ∧
        v.flag fEqx_STOPPED = false ∧ v.bnd.phase = .none ∧ v.fld fSnap_RCODE = 0 ∧ v.flag fSnap_RESTORING = false ∧ v.snp.rest = none ∧
        v.snp.blocked = false) ∧
      (code ≠ 0 → Completes (.restoreComplete peers) s fun u =>
        u.fld fSnap_RCODE = code % 256 ∧ u.flag fSnap_RESTORING = false ∧ u.snp.rest = none ∧ u.snp.blocked = true)) ∧
    (∀ (req : Nat) (tensor : W64), s.snp.rest = none → ∃ body, exec (.shardDigestRequest req tensor) s = .next (s.answer (.message 0x600 req body)) ∧
      (s.snp.gens = [] → body = []) ∧
      ∀ m x, s.snp.gens.getLast? = some m → (m.shards.find? fun x => x.id == tensor.toNat && x.kind == 0) = some x → body = x.digest))

/-- Ports (R262, R285, R286, Table 11.14): EN takes a DISABLED port to TRAINING from BS6 on and EN cleared disables it; RETRAIN takes an
ACTIVE port to RETRAINING and a DOWN port to TRAINING; training done makes it ACTIVE with what was agreed, encrypted only on a version 2
link under an ENC_POL other than 0; three failures in a row take it DOWN, which drops its link state and is recorded as class 0x43; loss of
signal retrains an ACTIVE port. Flits of an ACTIVE port (R261, R262, R285, Table 11.2): a bad flit is answered with one NAK for the flit
expected; the flit expected is taken, frees the flits its ACK covers and returns credits; a NAK, or no ACK for 4 µs, replays from the flit
named, or the oldest, and the eighth failure of one flit in a row retrains the port; REKEY begins the other key. -/
def Obligations.PortsAndFlitsFollowTheirStates : Prop :=
  (∀ (s : State) (ag : Agent) (p : Fin 16),
    let st := s.portState p
    (s.agentUp ag = true → s.flag (fPort_EN p) = false → st = 0 → 6 ≤ s.fld fBoot_STAGE → Completes (.portEnable ag p) s fun u =>
      u.flag (fPort_EN p) = true ∧ u.portState p = 1 ∧ u.fld (fPort_ENC_POL p) = s.fld (fPort_ENC_POL p)) ∧
    (s.agentUp ag = true → st ≠ 0 → (s.port p).waiting = [] → ∃ v : State, exec (.portDisable ag p) s = .next v.hzEdges.releaseWaiting ∧
      v.flag (fPort_EN p) = false ∧ v.portState p = 0 ∧ v.port p = Port.fresh) ∧
    (s.agentUp ag = true → s.flag (fPort_EN p) = true → Completes (.portRetrain ag p) s fun u =>
      u.portState p = (if st = 2 then 3 else if st = 4 then 1 else st) ∧ (u.port p).replay = (s.port p).replay ∧
      u.fld (fPort_RETRAINS p) = (if st = 2 then min (s.fld (fPort_RETRAINS p) + 1) (2 ^ 32 - 1) else s.fld (fPort_RETRAINS p))) ∧
    (∀ v2 lanes peer enc, (st = 1 ∨ st = 3) → linkLanes lanes ≠ 0 →
      let pol := s.fld (fPort_ENC_POL p)
      let e := enc && v2 && pol != 0
      (¬(pol = 2 ∧ e = false) → ∃ v : State, exec (.portTrainingDone p v2 lanes peer enc) s = .next (v.pump p) ∧ v.portState p = 2 ∧
        v.fld (fPort_VERSION p) = (if v2 then 2 else 1) ∧ v.fld (fPort_LANES p) = linkLanes lanes ∧ v.flag (fPort_ENC p) = e ∧
        v.fld (fPort_PEER_PKG p) = peer.toNat ∧ (v.port p).trainFails = 0 ∧ (v.port p).replay = (s.port p).replay ∧
        v.fld (fPort_FLIT_REPLAY p) = (if st = 3 then (s.fld (fPort_FLIT_REPLAY p) + (s.port p).replay.length) % 2 ^ 64
          else s.fld (fPort_FLIT_REPLAY p))) ∧
      (pol = 2 → e = false → exec (.portTrainingDone p v2 lanes peer enc) s =
        .next ((s.portDown p).setFlag (fPort_ENC_MISMATCH p) true))) ∧
    ((st = 1 ∨ st = 3) →
      ((s.port p).trainFails < 2 → Completes (.portTrainingFail p false false) s fun u =>
        (u.port p).trainFails = (s.port p).trainFails + 1 ∧ u.regs = s.regs) ∧
      (2 ≤ (s.port p).trainFails → exec (.portTrainingFail p false false) s = .next (s.portDown p))) ∧
    ((s.port p).waiting = [] → ∃ v : State, s.portDown p = v.hzEdges.releaseWaiting ∧ v.portState p = 4 ∧ v.port p = Port.fresh ∧
      v.fld fSafe_LAST_CLASS = 0x43 ∧ v.fld fSafe_LAST_REACT = 0 ∧ v.flag fSafe_FAULT = s.flag fSafe_FAULT) ∧
    Completes (.portLossOfSignal p) s (fun u => u.portState p = (if st = 2 then 3 else st))) ∧
  (∀ (s : State) (p : Fin 16), s.portState p = 2 →
    let x := s.port p
    (∀ bytes n, crc64 (sliceB bytes 0 0xF8) ≠ BitVec.ofNat 64 (fieldLE bytes 0xF8 8) → Completes (.flitReceive p bytes (some n)) s fun u =>
      (u.port p).rxSeq = x.rxSeq ∧ (u.port p).discard = true ∧ u.fld (fPort_FEC_CORR p) = (s.fld (fPort_FEC_CORR p) + n) % 2 ^ 64 ∧
      u.answers = (if x.discard then s.answers else .message 0x103 p (natLE 2 (x.rxSeq + 1).toNat) :: s.answers)) ∧
    (∀ bytes, Completes (.flitReceive p bytes none) s fun u =>
      u.fld (fPort_FEC_UNCORR p) = (s.fld (fPort_FEC_UNCORR p) + 1) % 2 ^ 64 ∧ (u.port p).rxSeq = x.rxSeq) ∧
    (∀ bytes, crc64 (sliceB bytes 0 0xF8) = BitVec.ofNat 64 (fieldLE bytes 0xF8 8) → fieldLE bytes 4 1 % 16 = 1 → x.waiting = [] →
      x.out = [] → x.txBlock = [] → s.flag (fPort_ENC p) = false → fieldLE bytes 0 2 = (x.rxSeq + 1).toNat →
      ∃ v : State, exec (.flitReceive p bytes (some 0)) s = .next (v.takeSlots p (sliceB bytes 8 240)) ∧
        (v.port p).rxSeq = x.rxSeq + 1 ∧ (v.port p).discard = false ∧ v.answers = s.answers ∧ v.regs = s.regs ∧
        (v.port p).replay = (x.acked (BitVec.ofNat 16 (fieldLE bytes 2 2))).replay ∧
        (v.port p).credit (fieldLE bytes 5 3 % 4) = x.credit (fieldLE bytes 5 3 % 4) + fieldLE bytes 5 3 / 4) ∧
    (∀ seq,
      let n := (x.replay.dropWhile fun e => e.seq != seq).length
      let fails := if x.failSeq = seq ∧ x.flitFails ≠ 0 then x.flitFails + 1 else 1
      (n = 0 → exec (.nak p seq) s = .next s) ∧
      (n ≠ 0 → Completes (.nak p seq) s fun u => u.fld (fPort_FLIT_REPLAY p) = (s.fld (fPort_FLIT_REPLAY p) + n) % 2 ^ 64 ∧
        (u.port p).replay = x.replay ∧ u.portState p = (if 8 ≤ fails then 3 else 2) ∧ (fails < 8 → (u.port p).flitFails = fails))) ∧
    (x.replay = [] → exec (.ackTimeout p) s = .next s) ∧
    (∀ e rest, x.replay = e :: rest → exec (.ackTimeout p) s = exec (.nak p e.seq) s) ∧
    (s.flag (fPort_ENC p) = true → ∀ tx,
      ((if tx then x.txBlock else x.rxBlock) = [] → Completes (.rekey p tx) s fun u =>
        (u.port p).txKey = x.txKey + tx.toNat ∧ (u.port p).rxKey = x.rxKey + (!tx).toNat ∧ u.regs = s.regs) ∧
      ((if tx then x.txBlock else x.rxBlock) ≠ [] → Completes (.rekey p tx) s fun u =>
        (if tx then (u.port p).txTurn else (u.port p).rxTurn) = true ∧ (u.port p).txKey = x.txKey ∧ (u.port p).rxKey = x.rxKey)))

/-- Requests of other packages (R264 to R266, R271, R278, Tables 11.6, 11.9): one for another package goes on by the route of its address,
or comes back UNREACHABLE; one for this package passes the checks of Table 11.9 in their order, each refused with its cause, counted and,
for the end-to-end CRC, recorded; one that passes is performed at its home and answered with its data or the old value. -/
def Obligations.RemoteRequestsAreServed : Prop :=
  ∀ (s : State) (port : Fin 16) (k : Packet), s.portState port = 2 →
    let addr := k.addr.toNat
    let w := s.window (addr / 2 ^ 34 % 2 ^ 14)
    let rows := [((1 : Nat), Instr.rd port k), (2, Instr.wr port k), (4, Instr.amo port k), (5, Instr.cadd port k)]
    let gives := fun (i : Instr) (u : State) => exec i s = .next (u.giveCredit port 0 (pktSlots k))
    (∀ e ∈ rows, addr / 2 ^ 48 ≠ s.pkgId → s.flag fSafe_SAFE = false → s.routePort (addr / 2 ^ 48) addr = none →
      gives e.2 (s.send (respPkt 0x12 k.src k.job addr k.tag 2 []))) ∧
    (∀ e ∈ rows, ∀ q, addr / 2 ^ 48 ≠ s.pkgId → s.flag fSafe_SAFE = false → s.routePort (addr / 2 ^ 48) addr = some q →
      gives e.2 (s.sendOn q
        { src := some k.src, cmd := e.1, flag := k.flagged, len := k.len, dst := addr / 2 ^ 48, job := k.job, addr := addr, tag := k.tag,
          cause := k.cause, aop := k.aop, aw := k.aw, data := k.data, e2e := some k.e2e })) ∧
    (addr / 2 ^ 48 = s.pkgId →
      (∀ e ∈ rows, k.e2e ≠ crc32c (pktBytes e.1 k) → gives e.2 ((s.integrity port k.addr).nakTo k.src k.job addr k.tag 3)) ∧
      (∀ e ∈ rows, k.e2e = crc32c (pktBytes e.1 k) → s.fld (fPort_VERSION port) ≠ 1 →
        (knownCmd e.1 k.aop k.aw = false → gives e.2 (s.nakTo k.src k.job addr k.tag 4)) ∧
        (knownCmd e.1 k.aop k.aw = true → s.flag fSafe_SAFE = true → gives e.2 (s.nakTo k.src k.job addr k.tag 5)) ∧
        (knownCmd e.1 k.aop k.aw = true → s.flag fSafe_SAFE = false →
          (e.1 ≠ 5 →
            let n := reqBytes e.1 k.len k.aw k.data.length
            (∀ c, (w.valid = false ∧ c = 6) ∨ (w.valid = true ∧ w.job ≠ k.job ∧ c = 7) ∨
                (w.valid = true ∧ w.job = k.job ∧ (k.src < w.srcLo ∨ w.srcHi < k.src) ∧ c = 8) ∨
                (w.valid = true ∧ w.job = k.job ∧ ¬(k.src < w.srcLo ∨ w.srcHi < k.src) ∧ w.len < addr % 2 ^ 34 + n ∧ c = 9) ∨
                (w.valid = true ∧ w.job = k.job ∧ ¬(k.src < w.srcLo ∨ w.srcHi < k.src) ∧ addr % 2 ^ 34 + n ≤ w.len ∧
                  w.allows e.1 = false ∧ c = 10) → gives e.2 (s.nakTo k.src k.job addr k.tag c)) ∧
            (∀ key, s.checkWindow e.1 k.src k.job addr n = (0, key) → s.behind (linesOf key n) = false →
              s.accessStalled key n (e.1 != 1) = false →
              (∀ b s2, e.1 = 1 → s.homeRead .none key k.len = (some b, s2) → gives e.2 (s2.send (respPkt 0x10 k.src k.job addr k.tag 0 b))) ∧
              (∀ s2, e.1 = 1 → s.homeRead .none key k.len = (none, s2) → gives e.2 (s2.nakTo k.src k.job addr k.tag 12)) ∧
              (e.1 = 2 → gives e.2 ((s.homeWrite .none key k.data).send (respPkt 0x11 k.src k.job addr k.tag 0 []))) ∧
              (∀ s2 old, e.1 = 4 → k.aop ≠ 0 → k.aop ≠ 9 → k.aop ≠ 10 →
                s.homeAmo .none key (awBytes k.aw) k.aop (leNat (sliceB k.data 0 (awBytes k.aw))) (leNat (sliceB k.data 0 (awBytes k.aw))) =
                  (some old, s2) →
                gives e.2 (s2.send (respPkt 0x11 k.src k.job addr k.tag 0 (natLE (awBytes k.aw) old)))))) ∧
          (e.1 = 5 →
            (s.counterOf (addr % 4096) k.job = false → gives e.2 (s.nakTo k.src k.job addr k.tag 14)) ∧
            (s.counterOf (addr % 4096) k.job = true → gives e.2
              ((s.addCounter (addr % 4096) (leNat k.data % 2 ^ 63) (bitAt (leNat k.data) 63)).send
                (respPkt 0x11 k.src k.job addr k.tag 0 [])))))))

/-- Responses (R265, R266, R271 to R273, R276, R277, R281 to R284): one for another package is forwarded by its SRC_PKG; one to a request of
a thread ends it, gives a load or an atomic its bytes, and frees its context; a refusal, a bad end-to-end CRC or a timeout is kept as the
last refusal, gives a load the error word and a precise REMOTE_ERROR, and is taken by a store's thread at its next boundary; a response
without a context is only counted; HOLD ends nothing. A flagged store goes out when nothing it waits for is left, and is refused when an
earlier write was. -/
def Obligations.ResponsesEndRemoteRequests : Prop :=
  ∀ (s : State) (port : Fin 16) (k : Packet), s.portState port = 2 →
    let tag := k.tag
    let rows := [((0x10 : Nat), Instr.rdr port k k.data), (0x11, .ack port k), (0x12, .nakResponse port k), (0x13, .hold (port, k))]
    let gives := fun (i : Instr) (u : State) => exec i s = .next (u.giveCredit port 1 (pktSlots k))
    (∀ e ∈ rows, k.src ≠ s.pkgId → gives e.2 (s.send
      { src := none, cmd := e.1, flag := k.flagged, len := k.len, dst := k.src, job := k.job, addr := k.addr.toNat, tag := tag,
        cause := k.cause, aop := k.aop, aw := k.aw, data := k.data, e2e := some k.e2e })) ∧
    (∀ e ∈ rows, k.src = s.pkgId → s.rctx tag = none → Completes e.2 s fun u =>
      u.fld fWin_LATE_RESP = (s.fld fWin_LATE_RESP + 1) % 2 ^ 64 ∧ u.fab.ctxs = s.fab.ctxs ∧ u.thr = s.thr ∧ tag ∉ u.fab.late) ∧
    (∀ e ∈ rows, ∀ c : RCtx, k.src = s.pkgId → s.rctx tag = some c → k.e2e ≠ crc32c (pktBytes e.1 k) →
      gives e.2 ((s.integrity port k.addr).denied c 3).releaseWaiting) ∧
    (∀ c : RCtx, k.src = s.pkgId → s.rctx tag = some c → k.e2e = crc32c (pktBytes 0x13 k) → gives (.hold (port, k)) s) ∧
    (∀ (c : RCtx) (t : Tid), k.src = s.pkgId → s.rctx tag = some c → s.host.jobEnding = none →
      (c.use = .store t → k.e2e = crc32c (pktBytes 0x11 k) → k.cause = 0 → ∃ v : State, gives (.ack port k) v.releaseWaiting ∧
        v.rctx tag = none ∧ (∀ g ∈ v.fab.flags, tag ∉ g.tags) ∧ v.thr = s.thr ∧ v.dram = s.dram) ∧
      (∀ (r : RemOp) (i : Instr) (d : Reg), (c.use = .load t ∨ c.use = .amo t) → (s.ctx t).rem = some r → (s.ctx t).instr = some i →
        r.parts = [(tag, 0)] → r.data = [] → r.bad = none → r.dst = some d → (s.ctx t).stopPending = false →
        (∀ e ∈ rows, e.1 < 0x12 → k.e2e = crc32c (pktBytes e.1 k) → k.cause = 0 → k.data.length = r.width → r.acquire = false →
          ∃ v : State, gives e.2 v.releaseWaiting ∧ v.rctx tag = none ∧
            (v.ctx t).rem = none ∧ (v.ctx t).st = .ready ∧ (v.ctx t).pc = (s.ctx t).pc + 4 ∧
            ∃ free, (v.ctx t).ga d = narrow r.width (leNat k.data) free) ∧
        (∀ e ∈ rows, e.1 < 0x13 → k.e2e = crc32c (pktBytes e.1 k) → k.cause ≠ 0 → k.cause < 256 → ∃ v : State, gives e.2 v.releaseWaiting ∧
          v.rctx tag = none ∧ (v.ctx t).rem = none ∧
          v.fld fWin_CAUSE = k.cause ∧ v.fld fWin_PORT = c.port % 16 ∧ v.fld fWin_TARGET = c.target % 2 ^ 16 ∧
          v.fld fWin_REM_LAST_VA = c.va.toNat ∧ (v.ctx t).faultPc = (s.ctx t).pc ∧ (v.ctx t).faultVa = r.va ∧
          ∃ free, (v.ctx t).ga d = narrow r.width (errWord r.width k.cause c.port) free))) ∧
    (∀ held, s.rctx tag = none → exec (.remoteTimeout tag held) s = .next s) ∧
    (∀ (c : RCtx) held, s.rctx tag = some c →
      (s.unsent c = false → ∃ v : State, v.fld fWin_TIMEOUTS = (s.fld fWin_TIMEOUTS + 1) % 2 ^ 64 ∧
        { v with regs := s.regs, fab := s.fab } = s ∧ v.fab.ctxs = s.fab.ctxs ∧
        exec (.remoteTimeout tag held) s = .next (v.denied c 1).releaseWaiting) ∧
      (s.unsent c = true → exec (.remoteTimeout tag held) s = .next s)) ∧
    (∀ (t : Tid) (va : W64), (s.ctx t).late = some va → (s.ctx t).st = .ready → Completes (.remoteStoreRefusal t) s fun u =>
      (u.ctx t).late = none ∧ (u.ctx t).faultVa = va ∧ (u.ctx t).faultPc = (s.ctx t).pc) ∧
    (∀ r : HomeReq, s.fab.homes.find? (fun h => h.id == tag) = some r → r.get = none → s.fld (fPort_VERSION r.port) ≠ 1 →
      exec (.holdSend tag) s = .next (s.send (respPkt 0x13 r.src r.job r.addr r.tag 0 []))) ∧
    (∀ q : CombReq, s.fab.homes.find? (fun h => h.id == tag) = none → s.combReq tag = some q → s.fld (fPort_VERSION q.port) ≠ 1 →
      exec (.holdSend tag) s = .next (s.send (respPkt 0x13 q.src q.job q.addr q.tag 0 []))) ∧
    (∀ f : FlagReq, s.fab.flags = [f] → f.id = tag → f.tags = [] → f.copies = [] →
      (f.bad = true → Completes (.flaggedStoreSend tag) s fun u => u.fab.flags = [] ∧ u.fld fWin_CAUSE = 13 ∧
        ((s.ctx f.t).st ≠ .idle → (s.ctx f.t).late = none → (u.ctx f.t).late = some f.va)) ∧
      (f.bad = false → ∀ (addr : Nat) (data : List Byte) (q : Nat) (s1 : State), f.parts = [(addr, data)] → s.isSelf addr = false →
        s.request (.store f.t) f.t.handle f.va (s.reqPkt 2 true addr data.length data) = (.sent q, s1) →
        Completes (.flaggedStoreSend tag) s fun u => u.fab.ctxs = s1.fab.ctxs ∧ u.thr = s1.thr ∧ u.regs = s1.regs))

/-- Windows (R268 to R270, Tables 11.7, 11.8): an accepted WREG enters the request in the table as it stands, makes it VALID and answers its
index; a refused one answers the code and changes no window; the first check refuses reserved bits, the second a length. WDEREG clears the
window once no request that it accepted is waiting, and waits until then. Arrival counters (R278, Table 11.12): ACNT.ALLOC gives the lowest
free counter, set to 0, or all ones when none is free; ACNT.FREE gives one back; ACNT.WAIT ends with the counter's value once its count has
reached B and waits until then; ACNT.SET stores B as a release; on a counter that the job does not hold each is a fault of code 0x52. -/
def Obligations.WindowsAndCountersOfThreads : Prop :=
  (∀ (s s1 : State) (t : Tid) (tgt : Target) (d a : Reg), s.Issues t profSupWork tgt s1 →
    (∀ (r : List Byte) (s2 : State) (c i : Nat), s1.vread (s1.agtOf t) ((s1.ctx t).ga a).toNat 32 = (.ok r, s2) →
      s2.ctx t = s1.ctx t → r.length = 32 → s2.winCheck r false = (c, i) →
      (c = 0 → i < 16384 ∧ (s2.window i).valid = false ∧ Completes (.wreg t d a) s fun u =>
        u.ctx t = ((s1.ctx t).sa d (BitVec.ofNat 64 i)).retired ∧
        u.window i = { base := fieldLE r 0 8, len := fieldLE r 8 8, job := fieldLE r 16 2, rd := bitAt (fieldLE r 18 1) 0,
                       wr := bitAt (fieldLE r 18 1) 1, at_ := bitAt (fieldLE r 18 1) 2, lend := bitAt (fieldLE r 18 1) 3,
                       srcLo := fieldLE r 22 2, srcHi := fieldLE r 24 2, valid := true } ∧
        ∀ j, j < 16384 → j ≠ i → u.window j = s2.window j) ∧
      (c ≠ 0 → c ≤ 6 ∧ exec (.wreg t d a) s =
        .next (s2.setCtx t ((s1.ctx t).sa d (BitVec.ofNat 64 (2 ^ 15 + c * 2 ^ 16))).retired)) ∧
      ((16 ≤ fieldLE r 18 1 ∨ fieldLE r 0 8 % 65536 ≠ 0 ∨ fieldLE r 24 2 < fieldLE r 22 2) → c = 1) ∧
      (c ≠ 1 → (fieldLE r 8 8 = 0 ∨ fieldLE r 8 8 % 65536 ≠ 0 ∨ 2 ^ 34 < fieldLE r 8 8) → c = 2)) ∧
    (let i := ((s1.ctx t).ga a).toNat
     i < 16384 →
      (s1.windowBusy i = false → Completes (.wdereg t a) s fun u =>
        u.ctx t = (s1.ctx t).retired ∧ (u.window i).valid = false ∧ ∀ j, j < 16384 → j ≠ i → u.window j = s1.window j) ∧
      (s1.windowBusy i = true → exec (.wdereg t a) s = .next (s1.setCtx t ((s1.ctx t).waiting (.wdereg t a) .cond))))) ∧
  (∀ (s s1 : State) (t : Tid) (tgt : Target) (d a b : Reg), s.Issues t profWork tgt s1 →
    let c := s1.ctx t
    let n := (c.ga a).toNat
    (∀ i, i < 4096 → i ∉ s1.fab.cnts → (∀ j < i, j ∈ s1.fab.cnts) → Completes (.acntAlloc t d) s fun u =>
      u.ctx t = (c.sa d (BitVec.ofNat 64 i)).retired ∧ u.counter i = 0 ∧ u.fab.cnts = s1.fab.cnts ++ [i] ∧
      ∀ j, j ≠ i → u.counter j = s1.counter j) ∧
    ((∀ j < 4096, j ∈ s1.fab.cnts) → exec (.acntAlloc t d) s = .next (s1.setCtx t (c.sa d (BitVec.allOnes 64)).retired)) ∧
    (s1.cntOk n = true →
      Completes (.acntFree t a) s (fun u => u.ctx t = c.retired ∧ u.fab.cnts = s1.fab.cnts.filter (· != n) ∧ u.bar2 = s1.bar2) ∧
      ((c.ga b).toNat ≤ (s1.counter n).toNat % 2 ^ 63 → Completes (.acntWait t d a b) s fun u =>
        u.ctx t = (c.sa d (s1.counter n)).retired ∧ u.bar2 = s1.bar2 ∧ u.dram = s1.dram) ∧
      ((s1.counter n).toNat % 2 ^ 63 < (c.ga b).toNat →
        exec (.acntWait t d a b) s = .next (s1.setCtx t (c.waiting (.acntWait t d a b) .cond))) ∧
      (s1.released t = true → Completes (.acntSet t a b) s fun u =>
        u.ctx t = c.retired ∧ u.counter n = c.ga b ∧ ∀ j, j ≠ n → u.counter j = s1.counter j) ∧
      (s1.released t = false → exec (.acntSet t a b) s = .next (s1.setCtx t (c.waiting (.acntSet t a b) .cond)))) ∧
    (s1.cntOk n = false → ∀ i ∈ [Instr.acntFree t a, .acntWait t d a b, .acntSet t a b],
      exec i s = .next (s1.takeFault t { code := 0x52 })))

/-- Async copies (R279, R280): ACOPY of a good descriptor whose one side is local memory and whose other is one package joins the queue; the
writes of a copy done and answered, a put with a counter sends its CADD and any other copy is done; a copy that is done leaves the queue and
advances its own counter once, with ERR when a packet was refused. -/
def Obligations.AsyncCopiesRunInOrder : Prop :=
  (∀ (s s1 s2 s3 s4 : State) (t : Tid) (tgt : Target) (a : Reg) (d : List Byte) (x y : Side), s.Issues t profWork tgt s1 →
    let va := (s1.ctx t).ga a
    s1.fab.copies.length < 256 → va.toNat % 32 = 0 → s1.vread (s1.agtOf t) va.toNat 32 = (.ok d, s2) → acopyBad d = false →
    let c := acopyOf d t (s2.ctx t).job
    s2.sideOf (s2.whoOf t) .load (segments c.src c.len) none = (.ok, some x, s3) →
    s3.sideOf (s3.whoOf t) .store (segments c.dst c.len) none = (.ok, some y, s4) →
    (c.scntEn = false ∨ s4.cntOk c.scnt = true) →
    (∀ p, x = .dram → y = .remote p → ∃ v : State,
      exec (.acopy t a) s = .next (State.settle t (.acopy t a) (.done v.pumpCopies)) ∧ v.regs = s4.regs ∧ v.dram = s4.dram ∧ v.thr = s4.thr ∧
      v.fab.copies = s4.fab.copies ++ [{ c with put := true, target := p, id := s4.fab.nextId }]) ∧
    (∀ p, x = .remote p → y = .dram → c.dcntEn = false → ∃ v : State,
      exec (.acopy t a) s = .next (State.settle t (.acopy t a) (.done v.pumpCopies)) ∧ v.regs = s4.regs ∧ v.dram = s4.dram ∧ v.thr = s4.thr ∧
      v.fab.copies = s4.fab.copies ++ [{ c with target := p, id := s4.fab.nextId }]) ∧
    (x = .dram → y = .dram → exec (.acopy t a) s = .next (s4.takeFault t { code := 0x51 }))) ∧
  (∀ (s : State) (id : Nat) (c : ACopy), s.acopy id = some c → (∀ e ∈ s.fab.copies, e.len ≤ e.sent) →
    (c.writesDone = false → s.copyOuts id = 0 → s.getParked id = false →
      (¬(c.put = true ∧ c.dcntEn = true) → Completes (.acopyWritesDone id) s fun u =>
        u.acopy id = some { c with writesDone := true } ∧ (∀ f ∈ u.fab.flags, id ∉ f.copies) ∧ u.regs = s.regs ∧ u.dram = s.dram) ∧
      (c.put = true → c.dcntEn = true → s.isSelf (c.target * 2 ^ 48 + c.dcnt) = false → ∀ q (s1 : State),
        s.request (.cadd id) copyHandle 0
          { s.reqPkt 5 false (c.target * 2 ^ 48 + c.dcnt) 8 (natLE 8 (1 + if c.refused then 2 ^ 63 else 0)) with job := c.job } = (.sent q, s1) →
        s1.fab.copies = s.fab.copies →
        Completes (.acopyWritesDone id) s fun u => u.acopy id = some { c with writesDone := true, caddTag := some q })) ∧
    (c.writesDone = true → c.caddTag = none → c.scnt < 4096 → Completes (.acopyComplete id) s fun u =>
      u.acopy id = none ∧ u.regs = s.regs ∧ u.dram = s.dram ∧
      (c.scntEn = false → u.bar2 = s.bar2) ∧
      (c.scntEn = true → (u.counter c.scnt).toNat % 2 ^ 63 = ((s.counter c.scnt).toNat % 2 ^ 63 + 1) % 2 ^ 63 ∧
        (u.counter c.scnt).getLsbD 63 = ((s.counter c.scnt).getLsbD 63 || c.refused))))

/-- Groups and reductions of threads (R290 to R293, R296 to R301, Tables 12.1 to 12.5): an accepted GCREATE enters the group with its GKEY
and answers 0, a refused one answers its code; GDESTROY answers 6 for group 0 and for a group in use, waits for operations in progress and
clears the group; HZRED waits while an operation of its group is in progress or a store is not yet performed, faults on a misaligned block,
and over a group of this package alone ends at once with its own values. -/
def Obligations.GroupsAndReductionsOfThreads : Prop :=
  (∀ (s s1 : State) (t : Tid) (tgt : Target) (d a : Reg), s.Issues t profSupWork tgt s1 →
    (∀ (b : List Byte) (s2 s3 : State) (ids : List Nat) (c : Nat), s1.vread (s1.agtOf t) ((s1.ctx t).ga a).toNat 64 = (.ok b, s2) →
      s2.groupCheck b = (.code c ids, s3) → (s3.ctx t).stopPending = false →
      (c = 0 → s3.hz.held = [] → s3.hz.due = [] → Completes (.gcreate t d a) s fun u =>
        u.ctx t = ((s3.ctx t).sa d 0).retired ∧
        u.grp (fieldLE b 0 2) = { nmem := fieldLE b 2 2, rank := fieldLE b 4 2, job := fieldLE b 6 2, ranktab := fieldLE b 8 8,
                                  qbase := fieldLE b 16 8, qlog2n := fieldLE b 24 1 % 16, gkey := gkeyOf ids, valid := true } ∧
        ∀ r < ids.length, ids ≠ [] → u.hzPkg (fieldLE b 0 2) r = ids.getD r 0) ∧
      (c ≠ 0 → exec (.gcreate t d a) s = .next (s3.setCtx t ((s3.ctx t).sa d (BitVec.ofNat 64 c)).retired))) ∧
    (let g := ((s1.ctx t).ga a).toNat
     let out := fun (x : State) (v : W64) => x.setCtx t ((s1.ctx t).sa d v).retired
     (g = 0 → exec (.gdestroy t d a) s = .next (out s1 6)) ∧
     (g ≠ 0 → (4096 ≤ g ∨ (s1.grp g).valid = false) → exec (.gdestroy t d a) s = .next (out s1 0)) ∧
     (0 < g → g < 4096 → (s1.grp g).valid = true → s1.groupBusy g = true → exec (.gdestroy t d a) s = .next (out s1 6)) ∧
     (0 < g → g < 4096 → (s1.grp g).valid = true → s1.groupBusy g = false →
       ((∃ o ∈ s1.hz.ops, o.gid = g) → exec (.gdestroy t d a) s = .next (s1.setCtx t ((s1.ctx t).waiting (.gdestroy t d a) .cond))) ∧
       ((∀ o ∈ s1.hz.ops, o.gid ≠ g) → Completes (.gdestroy t d a) s fun u =>
         (u.grp g).valid = false ∧ u.ctx t = ((s1.ctx t).sa d 0).retired ∧ ∀ b, u.hzIssued g b = 0)))) ∧
  (∀ (s s1 : State) (t : Tid) (tgt : Target) (a : Reg), s.Issues t profWork tgt s1 →
    let va := (s1.ctx t).ga a
    (va.toNat % 128 ≠ 0 → exec (.hzred t a) s = .next (s1.takeFault t { code := 0x58, va := va })) ∧
    (∀ (b : List Byte) (s2 : State), va.toNat % 128 = 0 → s1.vread (s1.agtOf t) va.toNat 76 = (.ok b, s2) → hzBadFormat b = false →
      let g := fieldLE b 72 2
      let v := hzBlock b
      s2.groupOk g = true →
      ((s2.released t = false ∨ s2.hzFull g = true) → Completes (.hzred t a) s fun u =>
        u.ctx t = (s2.ctx t).waiting (.hzred t a) .cond ∧ u.hz = s2.hz) ∧
      (s2.released t = true → s2.hzFull g = false →
        exec (.hzred t a) s = .next (State.settle t (.hzred t a) (.done ((s2.hzContribute g false v (some va)).hzSettle)))) ∧
      ((s2.grp g).nmem = 1 → (s2.grp g).rank = 0 → s2.hz.ops = [] → s2.hz.early = [] → v.ktop = 0 → s2.flag fSafe_SAFE = false →
        ∃ x : State, s2.hzContribute g false v (some va) = x.hzWriteBlock va (s2.hzIssued g false + 1) 0 v (hzNode v []) ∧
          x.fld fHz_HZ_OPS = (s2.fld fHz_HZ_OPS + 1) % 2 ^ 64 ∧ x.hz.ops = [] ∧
          ∀ i < v.nval, (hzNode v []).getD i 0 = if v.ops.getD i 0 = 0 then 0 else v.vals.getD i 0)))

/-- The Hazel tree (R295, R297, R298, R300, R304): a packet for another package goes on, one for a group that does not exist yet is held,
one for another job is counted and dropped, the parent's result at a leaf ends the operation with the same values, a child's contribution is
kept until every child's is there; a warning is recorded once for a child; an abort ends the operation with its cause. -/
def Obligations.HazelPacketsCombineAndAbort : Prop :=
  ∀ (s : State) (p : HzPacket), s.hz.due = [] →
    (p.dst ≠ s.pkgId → exec (.hazelPacket p) s = .next (s.send (hzForward p))) ∧
    (p.dst = s.pkgId → (s.grp p.gid).valid = true → p.job ≠ (s.grp p.gid).job → s.hz.held = [] → Completes (.hazelPacket p) s fun u =>
      u.fld fHz_HZ_REFUSED = (s.fld fHz_HZ_REFUSED + 1) % 2 ^ 64 ∧ u.hz = s.hz) ∧
    (p.dst = s.pkgId → (s.grp p.gid).valid = false → s.hz.held = [] → Completes (.hazelPacket p) s fun u => u.hz.held = [p] ∧ u.hz.ops = s.hz.ops) ∧
    (∀ (o : HzOp) (v : HzVal), p.dst = s.pkgId → (s.grp p.gid).valid = true → p.job = (s.grp p.gid).job → s.hz.held = [] → s.hz.early = [] → s.hz.ops = [o] →
      o.is p.gid p.boundary p.seq = true → p.crcOk = true → p.err = none → s.flag fSafe_SAFE = false → o.own = some v →
      (p.child = none → o.sent = true → hzChildren (s.grp p.gid).rank (s.grp p.gid).nmem = [] → ∃ x : State,
        exec (.hazelPacket p) s = .next (x.hzDeliver o v 0 p.vals).hzSettle ∧ x.hz.ops = [] ∧ x.dram = s.dram ∧ x.bar2 = s.bar2) ∧
      (∀ r, p.child = some r → o.sent = false → o.kids = [] → hzAgrees v (s.grp p.gid).gkey p = true → s.hzEdgeLost p.gid = false →
        v.ktop = 0 → (∃ q ∈ hzChildren (s.grp p.gid).rank (s.grp p.gid).nmem, q ≠ r) → Completes (.hazelPacket p) s fun u =>
          u.hz.ops = [{ o with kids := [(r, p)] }] ∧ u.dram = s.dram ∧ u.fab = s.fab)) ∧
    (∀ gid b seq child (o : HzOp), s.hzFind gid b seq = some o → s.fld fHz_HZ_WARN ≠ 0 →
      child ∈ hzChildren (s.grp gid).rank (s.grp gid).nmem → child ∉ o.warned → (∀ k ∈ o.kids, k.1 ≠ child) →
      (tabGet logDefault s.logs logInfo).recs.length < 256 → Completes (.hazelWarn gid b seq child) s fun u =>
        (∃ o', u.hzFind gid b seq = some o' ∧ o'.warned = o.warned ++ [child] ∧ o'.kids = o.kids) ∧
        ∃ r : EvRec, (tabGet logDefault u.logs logInfo).recs = (tabGet logDefault s.logs logInfo).recs ++ [r] ∧ r.kind = .hazel) ∧
    (∀ gid b cause (o : HzOp) (v : HzVal), (s.grp gid).valid = true → s.hz.ops = [o] → o.gid = gid → o.boundary = b → o.own = some v →
      cause ≠ 0 → s.hz.held = [] → (s.grp gid).nmem = 1 → (s.grp gid).rank = 0 → ∃ x : State,
        exec (.hazelAbort gid b cause) s = .next (x.hzDeliver o v cause []).hzSettle ∧ x.hz.ops = [] ∧ x.dram = s.dram) ∧
    (∀ (x : State) (o : HzOp) (v : HzVal) (cause : Nat) (res : List W64), o.boundary = true →
      let y := x.hzDeliver o v cause res
      y.bnd.result = some (cause, res.take v.nval) ∧
      (cause = 0 → y.fld fHz_HZ_OPS = (x.fld fHz_HZ_OPS + 1) % 2 ^ 64 ∧ y.fld fHz_HZ_ERRORS = x.fld fHz_HZ_ERRORS) ∧
      (cause ≠ 0 → y.fld fHz_HZ_ERRORS = (x.fld fHz_HZ_ERRORS + 1) % 2 ^ 64 ∧ y.fld fHz_LAST_CAUSE = cause % 2 ^ fHz_LAST_CAUSE.w ∧
        y.fld fHz_LAST_GID = o.gid % 2 ^ fHz_LAST_GID.w))

/-- Canopy (R306 to R310, Tables 12.9, 12.10, 12.12): START and JOIN from IDLE check the manifest and begin to receive, or are refused with
the check's code; CANCEL returns to IDLE; a packet of another MKEY is counted and dropped, a packet of this broadcast goes into the window;
the root counts DONE and failure reports, DONE of the last member and GO make the broadcast COMPLETE, and an abandoned one is recorded. -/
def Obligations.CanopyDistributesTheImage : Prop :=
  ∀ (s : State) (ag : Agent), s.agentUp ag = true →
    (∀ start : Bool, let cmd : Instr := if start then .canopyStart ag else .canopyJoin ag
      (∀ c (s1 : State), s.canState = canIdle → s.canCheck = (.refused c, s1) → Completes cmd s fun u =>
        u.canState = canRefused ∧ u.fld fCan_CODE = c % 256) ∧
      (∀ (m : Manifest) (s1 : State), s.canState = canIdle → s.canCheck = (.ok m, s1) → m.root ≠ s1.pkgId →
        ∃ v : State, exec cmd s = .next (if start then v else v.canSend 14 m.root 0 0 []) ∧ v.canState = canRecv ∧ v.fld fCan_CODE = 0 ∧
          v.flag fCan_ROOT = false ∧ v.can.man = some m ∧ v.can.held = [] ∧ v.can.kids = (if start then m.childrenOf s1.pkgId else []) ∧
          v.fld fCan_CHUNKS_HELD = 0 ∧ ∀ e, m.entry s1.pkgId = some e → v.fld fCan_PARENT = e.2.1 % 65536) ∧
      (s.canState ≠ canIdle → s.canBusy = false → exec cmd s = .next s)) ∧
    Completes (.canopyCancel ag) s (fun u => u.canState = canIdle ∧ u.can = CanSt.empty) ∧
    (∀ mkey chunk off data, (∀ m, s.can.man = some m → m.mkey ≠ mkey) → Completes (.canopyChunkPacket mkey chunk off data) s fun u =>
      u.fld fCan_MKEY_DROP = min (s.fld fCan_MKEY_DROP + 1) (2 ^ 32 - 1) ∧ u.can = s.can) ∧
    (∀ (m : Manifest), s.can.man = some m →
      (∀ chunk off data key, s.canBusy = true → s.can.kids = [] → chunk < m.digests.length → off % 256 = 0 → data ≠ [] →
        data.length ≤ 256 → off + data.length < m.chunkLen chunk → s.canKey m (chunk * 0x100000 + off) = some key →
        exec (.canopyChunkPacket m.mkey chunk off data) s = .next (s.homeWrite .none key data)) ∧
      (s.canBusy = true → s.flag fSafe_SAFE = false →
        exec .canopyKeepalive s = .next (s.can.kids.foldl (fun t k => t.canSend 9 k 0 0 []) s)) ∧
      (s.canState = canRecv → m.root ≠ s.pkgId →
        exec .canopyParentTimeout s = .next (s.canSend 10 m.root (s.fld fCan_PARENT) 0 [])) ∧
      (∀ relay, m.root = s.pkgId → s.canBusy = true → (m.entry relay).isSome = true → relay ≠ m.root → relay ∉ s.can.failed →
        (∀ e ∈ m.members, s.canParentOf e.1 ≠ relay) → Completes (.canopyFailureReport relay) s fun u =>
          u.can.failed = s.can.failed ++ [relay] ∧ u.fld fCan_FAILED = (s.can.failed.length + 1) % 2 ^ 16 ∧ relay ∉ u.can.done) ∧
      (∀ member, m.root = s.pkgId → s.canBusy = true → (m.entry member).isSome = true → member ∉ s.can.failed → member ∉ s.can.done →
        (s.can.done.length + 1 ≠ m.members.length → Completes (.canopyDone member) s fun u =>
          u.can.done = s.can.done ++ [member] ∧ u.fld fCan_DONE_COUNT = (s.can.done.length + 1) % 2 ^ 16 ∧ u.canState = s.canState) ∧
        (s.can.done.length + 1 = m.members.length → s.can.kids = [] → Completes (.canopyDone member) s fun u =>
          u.canState = canComplete ∧ u.can.done = s.can.done ++ [member])) ∧
      (s.canState = canHeld → ∃ v : State, exec .canopyGo s = .next v ∧ v.canState = canComplete) ∧
      (s.canState ≠ canHeld → exec .canopyGo s = .next s) ∧
      (s.canBusy = true → (tabGet logDefault s.logs logInfo).recs.length < 256 → Completes .canopyAbandon s fun u =>
        u.canState = canAbandoned ∧
        ∃ r : EvRec, (tabGet logDefault u.logs logInfo).recs = (tabGet logDefault s.logs logInfo).recs ++ [r] ∧ r.kind = .canopy) ∧
      (∀ member chunk, chunk ∈ s.can.held → member ∈ s.can.kids →
        exec (.canopyChunkRequest member chunk) s = .next (s.canSendChunk member chunk)) ∧
      (∀ parent first, s.canBusy = true → ∃ v : State, ∃ n : Nat,
        exec (.canopyReparent s.pkgId parent first) s = .next (v.canSend 11 parent n s.pkgId []) ∧
        v.fld fCan_PARENT = parent % 65536 ∧ v.fld fCan_REPARENTS = (s.fld fCan_REPARENTS + 1) % 2 ^ 16 ∧ v.can = s.can) ∧
      (∀ member first, s.canBusy = true → member ≠ s.pkgId → ∃ v : State,
        exec (.canopyReparent member s.pkgId first) s = .next (v.canSendFrom member first) ∧
        v.can.kids = s.can.kids.filter (· != member) ++ [member]) ∧
      (∀ (member : Nat) (e : Nat × Nat × Nat), m.root = s.pkgId → s.canBusy = true → m.entry member = some e →
        member ∈ s.can.failed → e.2.1 = m.root → m.root ≠ 0xFFFF → m.root ∉ s.can.failed → ∃ v : State,
          exec (.canopyJoinReceived member) s = .next ((v.canReparent member m.root false).canSendFrom member 0) ∧
          v.can.failed = s.can.failed.filter (· != member) ∧ v.fld fCan_REPARENTS = s.fld fCan_REPARENTS))

/-- Host requests to device memory (R354 to R356, R359, R360): a read of a line answers its bytes, of an uncorrectable one error words with
the entry into Viral; a write changes the bytes named, to a protected range nothing but the counts, and in Viral or host-lost nothing; a
request to a line that cannot be served waits, and one that has waited too long is completed as if its line were uncorrectable. -/
def Obligations.HostReadsAndWritesDeviceMemory : Prop :=
  ∀ (s : State) (d n : Nat) (own : Bool), s.linkUp = true → s.hdmHit d n = true → linePieces d n = [(d, n)] →
    let key := dpaKey d
    (s.hostCut = true → exec (.hostMemRead d n own) s = .next (s.answer (.bytes (viralBytes d n)))) ∧
    (s.hostCut = false → s.accessStalled key n false = false → s.behind [key / 64] = false →
      (∀ b s1, s.homeRead (if own then .host else .none) key n = (some b, s1) → s1.hostCut = false →
        exec (.hostMemRead d n own) s = .next (s1.answer (.bytes b))) ∧
      (∀ s1, s.homeRead (if own then .host else .none) key n = (none, s1) → ∃ v : State,
        exec (.hostMemRead d n own) s = .next v.releaseWaiting ∧ v.flag fCxl_VIRAL = true ∧
        v.answers.head? = some (.bytes (viralBytes d n)))) ∧
    (s.hostCut = false → (s.accessStalled key n false = true ∨ s.behind [key / 64] = true) → Completes (.hostMemRead d n own) s fun u =>
      u.answers = s.answers ∧ u.dram = s.dram ∧ u.host.reqs = s.host.reqs ++
        [{ id := s.host.nextReq, place := s.fab.nextId, write := false, dpa := d, len := n, data := [], poison := false, own := own }]) ∧
    (∀ data : List Byte, data.length = n → n ≠ 0 →
      (s.hostCut = true → exec (.hostMemWrite d data false) s = .next s) ∧
      (s.hostCut = false → s.accessStalled key n true = false → s.behind [key / 64] = false →
        (s.protectedKey key n = false → exec (.hostMemWrite d data false) s = .next (s.homeWrite (s.hostHolder key) key data)) ∧
        (s.protectedKey key n = true → Completes (.hostMemWrite d data false) s fun u => u.dram = s.dram ∧
          u.fld fCxl_PROT_DROP = (s.fld fCxl_PROT_DROP + 1) % 2 ^ 64))) ∧
    (∀ r : HReq, s.host.reqs = [r] → s.flag fCxl_VIRAL = false → s.flag fSafe_SAFE = false → ∃ v : State,
      exec (.hostMemTimeout r.id) s = .next (if s.hostCut then v else v.releaseWaiting) ∧
      v.host.reqs = [] ∧ v.flag fCxl_VIRAL = true ∧ v.fld fSafe_LAST_CLASS = 0x49 ∧ v.mem.hostLines = [] ∧
      (r.write = false → .bytes (viralBytes r.dpa r.len) ∈ v.answers))

/-- The host's link (R352, R355, R357, R359, R360, R370, R371): a snoop that is not answered and a link that goes down lose the host, whose
lines are dropped; a snoop gives a line up; a failure of link encryption is Viral; hot reset ends both states and leaves memory and the job;
CXL reset ends the job first; the decoder takes a size up to H, on an encrypted link only, and the key management makes both streams Secure.
-/
def Obligations.HostLinkEventsAct : Prop :=
  ∀ s : State,
    (∀ line, (line ∈ s.mem.bi → ∃ v : State, exec (.biTimeout line) s = .next v.releaseWaiting ∧ v.flag fCxl_HOST_LOST = true ∧
        v.mem.hostLines = [] ∧ v.mem.bi = [] ∧ v.dram = s.dram) ∧
      (line ∉ s.mem.bi → exec (.biTimeout line) s = .next s)) ∧
    (s.linkUp = true → s.hostUp = true → ∀ hpa, Completes (.hostSnoop hpa) s fun u => u.hline (hpa / 64) = HLine.none ∧
      u.answers = .bytes (if (s.hline (hpa / 64)).modified then (s.hline (hpa / 64)).bytes else []) :: s.answers ∧
      ∀ l, l ≠ hpa / 64 → u.hline l = s.hline l) ∧
    (s.linkUp = true → ∀ c ∈ [Instr.cxlLinkDown, .cxlRefclkLoss], ∃ v : State, exec c s = .next v.releaseWaiting ∧ v.linkUp = false ∧
      v.flag fCxl_HOST_LOST = true ∧ v.mem.hostLines = [] ∧ v.fld fCxl_LINK_DOWNS = min (s.fld fCxl_LINK_DOWNS + 1) (2 ^ 32 - 1) ∧
      v.fld fCxl_HOST_LINES_LOST =
        (s.fld fCxl_HOST_LINES_LOST + (s.mem.hostLines.filter fun e => e.2.modified).length) % 2 ^ 64) ∧
    (s.flag fCxl_IDE_SECURE = true → s.flag fCxl_VIRAL = false → ∃ v : State,
      exec .ideIntegrityFailure s = .next (if s.hostCut then v else v.releaseWaiting) ∧
      v.flag fCxl_IDE_SECURE = false ∧ v.flag fCxl_VIRAL = true ∧ v.host.ideBad = true) ∧
    (s.flag fCxl_IDE_SECURE = false → exec .ideIntegrityFailure s = .next s) ∧
    (s.pwr.mode = .run → ∃ v : State, exec .hotReset s = .next v.releaseWaiting ∧ v.flag fCxl_HOST_LOST = false ∧
      v.flag fCxl_VIRAL = (s.flag fCxl_VIRAL && s.flag fSafe_SAFE) ∧ v.flag fCxl_IDE_SECURE = false ∧ v.linkUp = true ∧
      v.host.ideBad = false ∧ v.host.evPolicy = s.host.evPolicy ∧ v.dram = s.dram ∧ v.thr = s.thr) ∧
    (s.pwr.mode = .run → ∃ w : State, exec .hotReset (s.writeBackHost.jobEnd none) = .next w ∧ s.writeBackHost.mem.hostLines = [] ∧
      Completes .cxlReset s fun u => u.host.evPolicy = [] ∧ u.regs = w.regs ∧ u.thr = w.thr ∧ u.dram = w.dram) ∧
    (∀ base size, s.linkUp = true → size * 2 ^ 28 ≤ s.hdmBytes → (s.flag fCxl_IDE_POL = false ∨ s.flag fCxl_IDE_SECURE = true) →
      Completes (.hdmDecoderCommit base size) s fun u => u.host.hdmSize = size * 2 ^ 28 ∧ u.host.hdmBase = base * 2 ^ 28 ∧
        u.flag fCxl_MEM_EN = true) ∧
    (∀ base size, s.hdmBytes < size * 2 ^ 28 → exec (.hdmDecoderCommit base size) s = .next s) ∧
    (s.linkUp = true → s.sec.doeSess ≠ 0 → s.host.ideBad = false → Completes .cxlIdeKeyManagement s fun u =>
      u.flag fCxl_IDE_SECURE = true ∧ u.flag fCxl_CACHE_EN = true)

/-- The host ring (R361, R362, R373, Tables 15.4, 15.5): EN set reads CONS and PROD from the head, a ring beyond H is a ring error; a PROD
beyond the ring's length is one too; a MARK whose conditions hold is performed and the entries behind it follow; safe stop, a malformed
entry and another job's are refused with their codes in that order. -/
def Obligations.HostRingTakesEntries : Prop :=
  ∀ (s s1 : State) (b e : List Byte), s.memWf = true →
    (∀ ag : Agent, s.agentUp ag = true → s.flag fRing_EN = false →
      let s0 := s.setFlag fRing_EN true
      (s.hringFits = false → Completes (.hostRingEnable ag) s fun u => u.flag fRing_EN = false ∧ u.flag (fErr_RING hringPage) = true ∧
        u.dram = s.dram) ∧
      (s.hringFits = true → s0.hringRead (s.hringHead + 8) 4 = (.ok b, s1) → ∃ v : State,
        exec (.hostRingEnable ag) s = .next (v.hringProd.ringService) ∧ v.fld fRing_HR_CONS = leNat b % 2 ^ 32 ∧
        v.host.ringProd = leNat b ∧ v.dram = s1.dram)) ∧
    (s.flag fRing_EN = true → s.host.ringDue ≠ 2 → s.hringRead s.hringHead 4 = (.ok b, s1) →
      let ahead := (leNat b + 2 ^ 32 - s1.fld fRing_HR_CONS) % 2 ^ 32
      (ahead ≤ s1.hringLen → exec .hostRingProd s =
        .next ({ s1 with host := { s1.host with ringProd := leNat b, ringDue := 0 } }.ringService)) ∧
      (s1.hringLen < ahead → Completes .hostRingProd s fun u => u.flag fRing_EN = false ∧ u.flag (fErr_RING hringPage) = true)) ∧
    (s.flag fRing_EN = false → exec .hostRingProd s = .next s) ∧
    (s.host.jobEnding.isSome = true → s.ringCode e = 2) ∧
    (s.ringNext = (.ok e, s1) →
      (s1.ringCode e = 0 → fieldLE e 0 1 = 2 → s1.markReady e = true → fieldLE e 8 8 = 0 → bitAt (fieldLE e 1 1) 1 = false →
        exec .ringMark s = .next ((s1.ringTaken 1).ringService)) ∧
      ((s1.ringCode e ≠ 0 ∨ fieldLE e 0 1 ≠ 2 ∨ s1.markReady e = false) → exec .ringMark s = .next s)) ∧
    (s.host.jobEnding = none → s.flag fSafe_SAFE = true → s.ringCode e = 3) ∧
    (s.host.jobEnding = none → s.flag fSafe_SAFE = false → ringBadKind e = true → s.ringCode e = 1) ∧
    (s.host.jobEnding = none → s.flag fSafe_SAFE = false → ringBadKind e = false → (s.ringCode e = 0 ↔ s.jobRuns = true ∧ s.jobId = fieldLE e 4 2) ∧
      (s.ringCode e ≠ 0 → s.ringCode e = 2)) ∧
    (s.reply .host 0 b).answers = .vector 0 :: .code 0 b :: s.answers

/-- Mailbox queries (R363 to R365, R367, R369, R431, Tables 15.7, 15.8): each answers at once with Success and the state it names, and
changes nothing else of it; an opcode that no table gives the interface is answered with Unsupported. -/
def Obligations.MailboxQueriesAnswer : Prop :=
  ∀ (s : State) (ag : Agent), s.mboxUp ag = true →
    let gives := fun (c : Instr) (code : Nat) (out : List Byte → Prop) =>
      ∃ (o : List Byte) (v : State), exec c s = .next (v.reply ag code o) ∧ out o ∧ v.regs = s.regs ∧ v.dram = s.dram ∧ v.bar2 = s.bar2 ∧
        v.logs = s.logs ∧ v.thr = s.thr ∧ v.answers = s.answers
    (∀ log : Fin 4, gives (.getEventRecords ag log) 0 fun o =>
      let l := s.evLog log
      fieldLE o 0 2 = (if l.overflow = 0 then 0 else 1) + (if 31 < l.recs.length then 2 else 0) ∧ fieldLE o 2 2 = min l.overflow 65535 ∧
      fieldLE o 20 2 = min 31 l.recs.length ∧ o.drop 32 = (l.recs.take 31).flatMap EvRec.bytes) ∧
    gives (.getEventInterruptPolicy ag) 0 (fun o => o.length = 4 ∧
      ∀ n < 4, s.evVector n ≤ 4 → fieldLE o n 1 = if s.evVector n = 0 then 0 else 1 + 16 * s.evVector n) ∧
    gives (.getFwInfo ag) 0 (fun o => fieldLE o 0 1 = 2 ∧ o.length = 80 ∧
      (s.fld fBoot_SLOT_PREF = s.fld fBoot_SLOT → fieldLE o 1 1 = s.fld fBoot_SLOT + 1)) ∧
    gives (.getTimestamp ag) 0 (fun o => ∃ elapsed : W64, o = natLE 8 (s.host.tsBase + elapsed).toNat) ∧
    gives (.getSupportedLogs ag) 0 (fun o => o = natLE 2 1 ++ natLE 6 0 ++ uuidCel ++ natLE 4 (4 * (opcodesOf ag).length)) ∧
    gives (.getLog ag) 0 (fun o => o.length = 4 * (opcodesOf ag).length ∧
      ∀ i < (opcodesOf ag).length, fieldLE o (4 * i) 2 = (opcodesOf ag).getD i 0) ∧
    gives (.identifyMemoryDevice ag) 0 (fun o => fieldLE o 16 8 = s.hdmBytes / 2 ^ 28 ∧ fieldLE o 24 8 = s.hdmBytes / 2 ^ 28 ∧ fieldLE o 32 8 = 0) ∧
    gives (.getHealthInfo ag) 0 (fun o => o.length = 18) ∧
    gives (.getPackageInfo ag) 0 (fun o => o.length = 15 ∧ fieldLE o 0 2 = 0x0100 ∧ fieldLE o 2 2 = s.pkgId ∧ fieldLE o 6 8 = s.hdmBytes ∧
      fieldLE o 14 1 = s.fld fBoot_STAGE) ∧
    (∀ (st : Fin 8) (first : Nat), gives (.getRepairRecord ag st first) 0 fun o =>
      let es := ((((s.stk st).recLanes ++ (s.stk st).recRows).map Repair.entry).drop first).take 511
      o = natLE 8 es.length ++ es.flatMap fun e => natLE 8 e) ∧
    (∀ p, p ≤ s.retained → gives (.getFaultLog ag p) 0 fun o => fieldLE o 0 2 = min 63 (s.retained - p) ∧ fieldLE o 2 2 = s.retained ∧
      ∀ i < min 63 (s.retained - p),
        sliceB o (8 + 64 * i) 64 = s.barBytes (faultSlot (s.fld fSafe_LOG_SEQ + 1 - s.retained + p + i)) 64) ∧
    (∀ p, s.retained < p → exec (.getFaultLog ag p) s = .next (s.reply ag 2 [])) ∧
    (∀ op : BitVec 16, op.toNat ∉ opcodesOf ag → exec (.unsupportedCommand ag op) s = .next (s.reply ag 3 []))

/-- Mailbox commands that act (R269, R270, R290, R365 to R369, R454, R458 to R460): event records are cleared by handle or all at once and
policies set; firmware transfers and the format of the store run in the background and act when they are done; an activation commits the
slot, or stops the management controller until the new image runs or its time is over; Job Start makes the job present with its root and
group 0; Job End ends it and is answered when nothing of it is outstanding; windows are registered and deregistered. -/
def Obligations.MailboxCommandsAct : Prop :=
  ∀ (s : State) (ag : Agent), s.mboxUp ag = true →
    (∀ log : Fin 4, (∃ v : State, exec (.clearEventRecords ag log none) s = .next (v.reply ag 0 []) ∧ (v.evLog log).recs = [] ∧
        (v.evLog log).overflow = 0 ∧ v.regs = s.regs) ∧
      (∀ hs, (∀ h ∈ hs, ∃ r ∈ (s.evLog log).recs, r.handle = h) → ∃ v : State,
        exec (.clearEventRecords ag log (some hs)) s = .next (v.reply ag 0 []) ∧
        (v.evLog log).recs = (s.evLog log).recs.filter fun r => !hs.contains r.handle) ∧
      (∀ hs, (∃ h ∈ hs, ∀ r ∈ (s.evLog log).recs, r.handle ≠ h) →
        exec (.clearEventRecords ag log (some hs)) s = .next (s.reply ag 2 []))) ∧
    (∀ a b c d : Nat, (a ≤ 4 ∧ b ≤ 4 ∧ c ≤ 4 ∧ d ≤ 4 → ∃ v : State, exec (.setEventInterruptPolicy ag a b c d) s = .next (v.reply ag 0 []) ∧
        v.evVector 0 = a ∧ v.evVector 1 = b ∧ v.evVector 2 = c ∧ v.evVector 3 = d) ∧
      (4 < a → exec (.setEventInterruptPolicy ag a b c d) s = .next (s.reply ag 2 []))) ∧
    (∀ val, exec (.setTimestamp ag val) s = .next ({ s with host := { s.host with tsBase := val } }.reply ag 0 [])) ∧
    (∀ (slot : Fin 2) (x : Image), (s.host.bg = none → exec (.transferFw ag slot x) s = .next ((s.background (.transferFw ag slot x)).reply ag 1 [])) ∧
      (s.host.bg ≠ none → exec (.transferFw ag slot x) s = .next (s.reply ag 6 [])) ∧
      (s.host.bg = some (.transferFw ag slot x) → x.comp ∈ imgComps → Completes .backgroundCommandDone s fun u => u.host.bg = none ∧
        u.image slot x.comp = x)) ∧
    (s.flag fPkg_JOB_PRESENT = false → s.host.bg = none →
      exec (.formatSnapshotStore ag) s = .next ((s.background .formatStore).reply ag 1 [])) ∧
    (s.flag fPkg_JOB_PRESENT = true → exec (.formatSnapshotStore ag) s = .next (s.reply ag 6 [])) ∧
    (s.host.bg = some .formatStore → Completes .backgroundCommandDone s fun u => u.host.bg = none ∧ u.snp.gens = [] ∧
      u.flag fNand_FORMATTED = true) ∧
    (∀ slot : Fin 2, s.host.bg = none →
      (exec (.activateFw ag slot false) s = .next ((s.commitSlot slot).reply ag 0 [])) ∧
      (let same := ∀ c ∈ [2, 4, 5, 6, 7], (s.image slot c).digest = (s.image (s.fld fBoot_SLOT) c).digest
       (s.pwr.mode ≠ .service → same → s.imageOk (s.image slot 3) 3 = true → ∃ v : State,
         exec (.activateFw ag slot true) s = .next (v.reply ag 0 []) ∧ v.host.bg = some (.activate slot) ∧ v.pwr.mctp = false ∧ v.regs = s.regs) ∧
       (¬(same ∧ s.imageOk (s.image slot 3) 3 = true) → exec (.activateFw ag slot true) s = .next (s.reply ag 2 [])))) ∧
    (∀ slot : Fin 2, s.host.bg = some (.activate slot) →
      Completes .mgmtFwRunning s (fun u => u.fld fBoot_SLOT = slot.val ∧ u.host.bg = none ∧ u.pwr.mctp = true ∧ u.sec.mctpSess = 0 ∧
        tabGet digNone u.sec.measured 3 = (s.image slot 3).digest) ∧
      Completes .mgmtFwActivationTimeout s (fun u => u.fld fBoot_SLOT = s.fld fBoot_SLOT ∧ u.host.bg = none ∧ u.pwr.mctp = true)) ∧
    (∀ (job : BitVec 16) (root : W64),
      (s.jobStartCode job.toNat root.toNat = 0 → s.hz.held = [] → s.hz.due = [] → ∃ v : State, exec (.jobStart ag job root) s = .next (v.reply ag 0 []) ∧
        v.fld fPkg_JOB = job.toNat ∧ v.flag fPkg_JOB_PRESENT = true ∧ v.fld fPkg_STEP = 0 ∧ v.dram = s.dram ∧
        (v.grp 0).valid = true ∧ (v.grp 0).nmem = 1 ∧ (v.grp 0).rank = 0 ∧ (v.grp 0).job = job.toNat ∧ v.hzPkg 0 0 = s.pkgId) ∧
      (s.flag fPkg_JOB_PRESENT = true → exec (.jobStart ag job root) s = .next (s.reply ag 6 [])) ∧
      (s.flag fPkg_JOB_PRESENT = false → s.host.bg ≠ some .formatStore → (job = 0 ∨ job = 0xFFFF ∨ root.toNat % 4096 ≠ 0) →
        exec (.jobStart ag job root) s = .next (s.reply ag 2 [])) ∧
      (s.jobRuns = true → s.jobId = job.toNat → ∃ v : State, v = { s.jobActs with host := { s.jobActs.host with jobEnding := some (some ag) } } ∧
        exec (.jobEnd ag job) s = .next v.ringService ∧
        (v.fab.ctxs = [] → v.mdl.passes = [] → v.flag fRing_EN = false → v.ringService.flag fPkg_JOB_PRESENT = false ∧
          v.ringService.jobRuns = false ∧ .code 0 [] ∈ v.ringService.answers)) ∧
      ((s.jobRuns = false ∨ s.jobId ≠ job.toNat) → exec (.jobEnd ag job) s = .next (s.reply ag 2 []))) ∧
    (∀ (r : List Byte) (c i : Nat), r.length = 32 → s.winCheck r true = (c, i) →
      (c = 0 → ∃ v : State, exec (.registerWindow ag r) s = .next (v.reply ag 0 (natLE 8 i)) ∧ (v.window i).valid = true ∧
        (v.window i).base = fieldLE r 0 8 ∧ (v.window i).len = fieldLE r 8 8 ∧ (v.window i).lend = bitAt (fieldLE r 18 1) 3) ∧
      (c ≠ 0 → exec (.registerWindow ag r) s = .next (s.reply ag 2 (natLE 8 (2 ^ 15 + c * 2 ^ 16))))) ∧
    (∀ i, i < 16384 → ((s.window i).valid = true → ∃ v : State, exec (.deregisterWindow ag i) s = .next (v.reply ag 0 []) ∧
        (v.window i).valid = false ∧ ∀ j, j < 16384 → j ≠ i → v.window j = s.window j) ∧
      ((s.window i).valid = false → exec (.deregisterWindow ag i) s = .next (s.reply ag 2 [])))

/-- Attestation and sealing (R406, R407, R416, R418, R451, R452): the measurements are the nine blocks signed with the Alias key; a key
exchange adds a session up to two per transport; SEAL answers a blob with its label, length and tag, and UNSEAL of that blob under the same
key gives the data back, of one with a bad tag or form the code of the first failed check. -/
def Obligations.AttestationAndSealingAnswer : Prop :=
  ∀ (s : State) (ag : Agent), s.mboxUp ag = true →
    (s.fld fSec_LC ≠ 3 →
      exec (.spdmGetMeasurements ag) s = .next (s.answer (.message 0x500 (transport ag)
        (natLE 1 0x60 ++ (s.measurements ++ Config.mac keyAlias (s.cdi ++ s.measurements))))) ∧
      (s.sessionsOf ag < 2 → Completes (.spdmKeyExchange ag) s fun u => u.sessionsOf ag = s.sessionsOf ag + 1 ∧
        u.fld fSec_SESSIONS = (s.sec.mctpSess + s.sec.doeSess + 1) % 2 ^ fSec_SESSIONS.w) ∧
      (2 ≤ s.sessionsOf ag → exec (.spdmKeyExchange ag) s = .next (s.answer (.message 0x500 (transport ag) (natLE 1 0x7F ++ [0x03]))))) ∧
    (s.fld fSec_LC = 3 → exec (.spdmGetMeasurements ag) s = .next s ∧ exec (.spdmKeyExchange ag) s = .next s) ∧
    (∀ label data : List Byte,
      ((data = [] ∨ 4032 < data.length) → exec (.sealBlob ag label data) s = .next (s.reply ag 2 (natLE 4 1))) ∧
      (data ≠ [] → data.length ≤ 4032 → s.noSeal = true → exec (.sealBlob ag label data) s = .next (s.reply ag 2 (natLE 4 2))) ∧
      (data ≠ [] → data.length ≤ 4032 → s.noSeal = false → ∃ (blob : List Byte) (v : State),
        exec (.sealBlob ag label data) s = .next (v.reply ag 0 (natLE 4 0 ++ blob)) ∧ v.regs = s.regs ∧ v.sec = s.sec ∧
        blob.length = 48 + data.length ∧ fieldLE blob 2 2 = data.length ∧ sliceB blob 8 8 = (label ++ List.replicate 8 0).take 8 ∧
        (s.fld fSec_DBG ≠ 1 → ∀ w : State, w.mboxUp ag = true → w.regs = s.regs → w.sec = s.sec →
          exec (.unsealBlob ag blob) w = .next (w.reply ag 0 (natLE 4 0 ++ data))))) ∧
    (∀ blob : List Byte,
      (blobBad blob = true → exec (.unsealBlob ag blob) s = .next (s.reply ag 2 (natLE 4 1))) ∧
      (blobBad blob = false → (s.noSeal = true ∨ s.fld fSec_DBG = 1) → exec (.unsealBlob ag blob) s = .next (s.reply ag 2 (natLE 4 2))) ∧
      (blobBad blob = false → s.noSeal = false → s.fld fSec_DBG ≠ 1 →
        (Config.gcmTag s.sealKey (BitVec.ofNat 96 (fieldLE blob 16 12)) (sliceB blob 0 32) (sliceB blob 32 (fieldLE blob 2 2))).toNat ≠
          fieldLE blob (32 + fieldLE blob 2 2) 16 →
        exec (.unsealBlob ag blob) s = .next (s.reply ag 2 (natLE 4 3))))

/-- Authorisation records and debug (R410 to R417, Tables 17.6 to 17.9): a challenge is the nonce in force until it expires or a record
ends; parts of a record are gathered in order, and its last part has it checked, the first failed check refusing it with its code; an
accepted debug record opens the session in its scopes; an open session lets the debugger halt, step, read and write what its scopes cover
and ends by LOCK_DEBUG or with its lifetime, and outside one debug has no effect. -/
def Obligations.RecordsOpenDebugSessions : Prop :=
  ∀ (s : State) (ag : Agent), s.mboxUp ag = true →
    (∃ (n : List Byte) (v : State), exec (.getChallenge ag) s = .next (v.reply ag 0 n) ∧ n.length = 32 ∧ v.sec.nonce = some n ∧ v.regs = s.regs) ∧
    Completes .nonceExpiry s (fun u => u.sec.nonce = none ∧ u.regs = s.regs) ∧
    exec (.getSecurityState ag) s = .next (s.reply ag 0 s.block8) ∧
    (∀ (off : Nat) (data : List Byte), off = s.sec.record.length → s.sec.recBad = false → data.length ≤ 4000 →
      Completes (.submitRecord ag off false data) s fun u =>
        u.sec.record = s.sec.record ++ data ∧ u.sec.recBad = false ∧ u.sec.nonce = s.sec.nonce) ∧
    (∀ (off : Nat) (data : List Byte), data.length ≤ 4000 → (off = 0 ∨ (off = s.sec.record.length ∧ s.sec.recBad = false)) →
      let b := (if off = 0 then [] else s.sec.record) ++ data
      let r := authOf b
      let refused := fun (code : Nat) => ∃ v : State, exec (.submitRecord ag off true data) s = .next (v.reply ag 2 (natLE 1 code)) ∧
        v.fld fSec_LAST_CODE = code ∧ v.fld fSec_REC_FAIL = min (s.fld fSec_REC_FAIL + 1) (2 ^ fSec_REC_FAIL.w - 1) ∧ v.sec.nonce = none ∧
        v.sec.record = [] ∧ v.fld fSec_DBG = s.fld fSec_DBG
      (authBad b = true → refused 1) ∧
      (authBad b = false →
        let mine := r.serial = s.fld fSec_SERIAL_LO + 2 ^ 64 * s.fld fSec_SERIAL_HI
        (¬ mine → refused 2) ∧
        (mine → s.sec.nonce ≠ some r.nonce → refused 3) ∧
        (mine → s.sec.nonce = some r.nonce → s.authAllowed r ag = false → refused 4) ∧
        (mine → s.sec.nonce = some r.nonce → s.authAllowed r ag = true → s.authSigned r = false → refused 5) ∧
        (mine → s.sec.nonce = some r.nonce → s.authAllowed r ag = true → s.authSigned r = true → s.authStateBad r = true → refused 6) ∧
        (mine → s.sec.nonce = some r.nonce → s.authAllowed r ag = true → s.authStateBad r = false → r.kind = 1 →
          (s.authSigned r = false ∧ refused 5) ∨
          (s.authSigned r = true ∧ ∃ v : State, exec (.submitRecord ag off true data) s = .next (v.reply ag 0 [0]) ∧ v.fld fSec_DBG = 1 ∧
            v.fld fSec_SCOPE = r.arg % 8 ∧ v.sec.nonce = none ∧ v.sec.record = [] ∧ v.sec.lifetime = (r.arg / 65536 != 0))))) ∧
    (s.fld fSec_DBG = 1 → s.flag fSec_DBG_FUSE = false → s.fld fSec_LC ≠ 0 → s.fld fSec_LC ≠ 3 →
      (∃ v : State, exec (.lockDebug ag) s = .next (v.reply ag 0 []) ∧ v.fld fSec_DBG = 0 ∧ v.fld fSec_SCOPE = 0 ∧ v.sec.halted = []) ∧
      (s.sec.lifetime = true → Completes .debugSessionExpiry s fun u => u.fld fSec_DBG = 0 ∧ u.fld fSec_SCOPE = 0 ∧ u.sec.halted = []) ∧
      (s.sec.lifetime = false → exec .debugSessionExpiry s = .next s)) ∧
    (s.pwr.mode ≠ .off →
      (∀ op, s.fld fSec_DBG ≠ 1 → exec (.debugAccess true op) s = .next s) ∧
      (∀ op, s.fld fSec_DBG ≠ 1 → s.linkUp = true → exec (.debugAccess false op) s = .next (s.answer .unsupported)) ∧
      (∀ t : Tid, t.valid = true → s.fld fSec_DBG = 1 → bitAt (s.fld fSec_SCOPE) 0 = true → s.pwr.mode ≠ .ret →
        Completes (.debugAccess true (.halt t)) s (fun u => t.handle ∈ u.sec.halted ∧ u.thr = s.thr) ∧
        Completes (.debugAccess true (.resume t)) s (fun u => t.handle ∉ u.sec.halted ∧ u.thr = s.thr) ∧
        (t.handle ∈ s.sec.halted → Completes (.debugAccess true (.singleStep t)) s fun u => t.handle ∈ u.sec.stepping ∧ u.thr = s.thr) ∧
        (∀ r, exec (.debugAccess true (.readReg t r)) s = .next (s.answer (.value ((s.ctx t).ga r)))) ∧
        (∀ r v, Completes (.debugAccess true (.writeReg t r v)) s fun u => (u.ctx t).ga r = v ∧ (u.ctx t).pc = (s.ctx t).pc)))

/-- Detections of reaction S (R422 to R424, R427 to R431, Tables 18.1, 18.3, 18.5): each writes a record of its class at the next place of
the fault log, raises FAULT_N and enters safe stop, in which every request is refused and a further detection only writes its record; during
a start the stage in progress fails instead. -/
def Obligations.DetectionsEnterSafeStop : Prop :=
  ∀ (s : State) (mon : Nat),
    let rows : List (Instr × Nat) :=
      [(.sysRefclkLoss, 0x0C), (.voltageMonitorTrip mon, 0x0B), (.clockMonitorTrip mon, 0x0C), (.lockstepMismatch, 0x0A),
       (.safeStopN false, 0x12)]
    (∀ e ∈ rows, s.pwr.mode = .run → ∃ d : Det, d.cls = e.2 ∧ d.react = 3 ∧ exec e.1 s = .next (s.report d none).enterSafe) ∧
    (∀ e ∈ rows, s.pwr.mode = .start → ∃ d : Det, d.cls = e.2 ∧ d.react = 3 ∧ exec e.1 s = .next ((s.report d none).bootFail 1)) ∧
    (∀ e ∈ rows, s.pwr.mode = .off → exec e.1 s = .next s) ∧
    (∀ (u : TestUnit) (n : Nat), s.pwr.mode = .run → s.flag (fGated (testUnit u).1) = false → s.testInj u = false →
      (∃ d : Det, d.cls = (match u with | .groveT _ => 0x07 | .stackT _ => 0x08 | .coreT _ => 0x09) ∧ d.react = 3 ∧ d.page = (testUnit u).1 ∧
        exec (.selfTestPass u false n) s = .next (s.report d none).enterSafe) ∧
      exec (.selfTestPass u true n) s = .next s ∧ exec (.selfTestForce u) s = .next s) ∧
    (∀ d : Det, d.react = 3 → d.cls < 256 → s.fld fSafe_LOG_SEQ + 1 < 2 ^ 64 →
      let seq := s.fld fSafe_LOG_SEQ + 1
      let x := s.report d none
      x.fld fSafe_LOG_SEQ = seq ∧ x.fld fSafe_LAST_CLASS = d.cls ∧ x.fld fSafe_LAST_REACT = 3 ∧ x.flag (fErr_DETECT d.page) = true ∧
      (s.flag fSafe_SAFE = false → x.flag fSafe_FAULT = true) ∧ x.flag fSafe_SAFE = s.flag fSafe_SAFE ∧ x.dram = s.dram ∧ x.thr = s.thr ∧
      (∃ time detail, x.barBytes (faultSlot seq) 64 = d.record s seq time detail ∧ fieldLE (d.record s seq time detail) 24 1 = d.cls ∧
        (fieldLE (d.record s seq time detail) 25 1 / 16 % 2 = 1 ↔ s.fld fBoot_STAGE ≠ 9))) ∧
    (let x := s.bootFail 1
     x.fld fBoot_CAUSE = 1 ∧ x.fld fBoot_FAIL_STAGE = s.fld fBoot_STAGE) ∧
    (s.flag fSafe_SAFE = true → s.enterSafe = s) ∧
    (s.flag fSafe_SAFE = false → ∃ v : State, v.flag fSafe_SAFE = true ∧ v.flag fCxl_VIRAL = true ∧ v.mem.hostLines = (if s.flag fCxl_VIRAL then
        s.mem.hostLines else []) ∧ v.dram = s.dram ∧ v.thr = s.thr ∧
      s.enterSafe = ((((v.fence.stopAll).hzAbortAll 5).discardWork.pumpCopies).snapEnd 0x12).cutHost.ringService)

/-- Control inputs and clocks (R387 to R389, Table 16.9): a coalesced assertion is counted alone; PREEMPT_N makes one notice after BS9; a
stuck input is recorded once and ignored until deasserted; the loss of the Gnolink reference clock retrains every ACTIVE port. Caps,
temperatures and the input (R374, R381 to R383): above CAP_W the clock goes down where that is allowed, then cycles are gated, then
CAP_UNMET is set once; at or below it gating goes before the clock rises; a die at its threshold throttles until it is below; the input's
voltage is kept, with IN_RANGE from 57 V to 66 V. -/
def Obligations.ControlInputsCapsAndTemperatures : Prop :=
  (∀ s : State, s.pwr.mode = .run →
    Completes (.preemptN true) s (fun u => u.fld fPwr_PREEMPT_COAL = min (s.fld fPwr_PREEMPT_COAL + 1) (2 ^ fPwr_PREEMPT_COAL.w - 1) ∧
      u.snp = s.snp ∧ u.thr = s.thr) ∧
    (s.flag fPwr_PREEMPT_STUCK = false → exec (.preemptN false) s = .next ((s.setFlag fPwr_PREEMPT_STUCK false).preempt 1 0)) ∧
    Completes (.safeStopN true) s (fun u => u.fld fPwr_SAFE_COAL = min (s.fld fPwr_SAFE_COAL + 1) (2 ^ fPwr_SAFE_COAL.w - 1) ∧
      u.flag fSafe_SAFE = s.flag fSafe_SAFE) ∧
    exec .trstN s = .next s ∧
    (s.flag fPwr_PREEMPT_STUCK = false → Completes .inputStuck s fun u => u.flag fPwr_PREEMPT_STUCK = true ∧ u.fld fSafe_LAST_CLASS = 0x44 ∧
      u.fld fSafe_LAST_REACT = 0 ∧ u.flag fSafe_SAFE = s.flag fSafe_SAFE) ∧
    (s.flag fPwr_PREEMPT_STUCK = true → exec .inputStuck s = .next s) ∧
    Completes .glRefclkLoss s (fun u => ∀ p : Fin 16, u.portState p = (if s.portState p = 2 then 3 else s.portState p) ∧
      u.fld (fPort_RETRAINS p) = (if s.portState p = 2 then min (s.fld (fPort_RETRAINS p) + 1) (2 ^ 32 - 1) else s.fld (fPort_RETRAINS p)))) ∧
  (∀ (s : State) (power : Nat), s.pwr.mode = .run → s.fld fPwr_ACLK ≤ 940 →
    (s.fld fPwr_CAP_W < power →
      (s.freqOk = true → 720 < s.fld fPwr_ACLK → (940 - s.fld fPwr_ACLK) % 20 = 0 → Completes (.capSample power) s fun u =>
        u.fld fPwr_ACLK < s.fld fPwr_ACLK ∧ 720 ≤ u.fld fPwr_ACLK ∧ u.fld fPwr_GATE = s.fld fPwr_GATE) ∧
      ((s.freqOk = false ∨ s.fld fPwr_ACLK ≤ 720) → s.fld fPwr_GATE < 56 → Completes (.capSample power) s fun u =>
        s.fld fPwr_GATE < u.fld fPwr_GATE ∧ u.fld fPwr_GATE ≤ 56 ∧ u.fld fPwr_ACLK = s.fld fPwr_ACLK) ∧
      ((s.freqOk = false ∨ s.fld fPwr_ACLK ≤ 720) → 56 ≤ s.fld fPwr_GATE → Completes (.capSample power) s fun u =>
        u.flag fPwr_CAP_UNMET = true ∧ u.fld fPwr_ACLK = s.fld fPwr_ACLK ∧ u.fld fPwr_GATE = s.fld fPwr_GATE)) ∧
    (power ≤ s.fld fPwr_CAP_W → Completes (.capSample power) s fun u => u.flag fPwr_CAP_UNMET = false ∧ u.fld fPwr_GATE ≤ s.fld fPwr_GATE ∧
      s.fld fPwr_ACLK ≤ u.fld fPwr_ACLK ∧ (0 < s.fld fPwr_GATE → u.fld fPwr_ACLK = s.fld fPwr_ACLK)) ∧
    (∀ (die : Fin 4) (temp : BitVec 8), Completes (.dieTempSample die temp) s fun u =>
      u.fld fPwr_TJ / 2 ^ (8 * die.val) % 256 = temp.toNat ∧ (die.val ∈ u.pwr.hot ↔ (s.fld fPwr_TJ_THR : Int) ≤ temp.toInt) ∧
      (∀ d : Nat, d ≠ die.val → (d ∈ u.pwr.hot ↔ d ∈ s.pwr.hot)) ∧ u.flag fPwr_TJ_THROT = !u.pwr.hot.isEmpty) ∧
    (∀ volts, volts < 2 ^ fPwr_IN_V.w → Completes (.inputRangeChange volts) s fun u => u.fld fPwr_IN_V = volts ∧
      (u.flag fPwr_IN_RANGE = true ↔ 5700 ≤ volts ∧ volts ≤ 6600)))

/-- Power modes (R374, R378 to R380, R385, R388, R396, R466, Tables 16.3, 16.4): a cold start needs PWR_GOOD and the input in range, and
begins at BS0; PWR_GOOD lost is Off, with memory, threads and the job gone; PERST_N after BS9 ends the job and holds the package in warm
reset, and its end begins a warm start that keeps memory; Retention is refused while a job is present and leaves for BS3; Idle gates the
groves, solver engines and near cores and their wake makes the package Active. -/
def Obligations.PowerModesChange : Prop :=
  ∀ (s : State) (ag : Agent),
    Completes .pwrGoodAssert s (fun u => u.pwr.pwrGood = true ∧ u.pwr.mode = s.pwr.mode ∧ u.regs = s.regs) ∧
    (s.pwr.mode = .off → s.pwr.pwrGood = true → s.pwr.protOff = false → s.flag fPwr_IN_RANGE = true → Completes .coldStart s fun u =>
      u.pwr.mode = .start ∧ u.fld fBoot_STAGE = 0 ∧ u.pwr.warm = false ∧ u.thr.ctxs = [] ∧ u.flag fPkg_JOB_PRESENT = false ∧
      u.flag fSafe_SAFE = false ∧ u.pst = s.pst) ∧
    ((s.pwr.mode ≠ .off ∨ s.pwr.pwrGood = false ∨ s.pwr.protOff = true ∨ s.flag fPwr_IN_RANGE = false) → exec .coldStart s = .next s) ∧
    (s.pwr.mode ≠ .off → Completes .pwrGoodDeassert s fun u => u.pwr.mode = .off ∧ u.pwr.pwrGood = false ∧ u.pwr.protOff = false ∧
      u.thr.ctxs = [] ∧ u.dram = [] ∧ u.logs = [] ∧ u.pst.busy = none ∧ u.pst.queue = [] ∧ u.fld fPkg_PKG_ID_APPLIED = 0xFFFF) ∧
    (s.pwr.mode = .run → Completes .perstAssert s fun u => u.pwr.mode = .held ∧ u.pwr.perst = true ∧ u.thr.ctxs = [] ∧
      u.flag fPkg_JOB_PRESENT = false ∧ u.fab.ctxs = []) ∧
    (s.pwr.mode = .held → Completes .perstDeassert s fun u => u.pwr.mode = .start ∧ u.fld fBoot_STAGE = 0 ∧ u.pwr.perst = false ∧
      u.pwr.warm = true ∧ u.dram = s.dram ∧ u.pst = s.pst) ∧
    (s.pwr.mode = .run → s.agentUp ag = true → s.memWf = true →
      (s.flag fPkg_JOB_PRESENT = true → Completes (.retReq ag) s fun u => u.pwr.mode = .run ∧ u.flag fPwr_RET_REFUSED = true) ∧
      (s.flag fPkg_JOB_PRESENT = false → Completes (.retReq ag) s fun u => u.pwr.mode = .ret ∧ u.fld fPwr_STATE = 4 ∧ u.sec.nonce = none ∧
        u.linkUp = false)) ∧
    (s.pwr.mode = .ret → s.agentUp ag = true → s.pwr.imgChanged = false → Completes (.retExit ag) s fun u =>
      u.pwr.mode = .start ∧ u.fld fBoot_STAGE = 3 ∧ u.dram = s.dram) ∧
    (s.pwr.mode = .run → s.flag fPwr_IDLE_EN = true → s.fld fPwr_STATE = 1 → s.thr.ctxs = [] → s.thr.launches = [] → s.eng.mat = [] →
      s.eng.solv = [] → s.stks = [] → Completes .idleEntry s fun u => u.fld fPwr_STATE = 3 ∧ (∀ g : Fin 256, u.flag (fGated (0x100 + g.val)) = true) ∧
        u.dram = s.dram) ∧
    (s.fld fPwr_STATE = 3 → exec .idleEntry s = .next s) ∧
    (∀ u : GatedUnit, gatedPage u ∈ s.pwr.waking → s.fld fPwr_STATE = 3 → Completes (.idleWakeDone u) s fun v =>
      v.flag (fGated (gatedPage u)) = false ∧ gatedPage u ∉ v.pwr.waking ∧ v.fld fPwr_STATE = 1) ∧
    (∀ code held, s.pwr.mode ≠ .off → 1 ≤ code → code ≤ 5 → Completes (.protectivePowerDown code held) s fun u =>
      u.pwr.mode = .off ∧ u.pwr.protOff = true ∧ u.thr.ctxs = [])

/-- Start-up (R390 to R394, R449, Tables 16.10, 16.13): the stages follow one another; BS2 makes the management controller answer and ends
in service-only mode where that is called for; BS8 ends the start, with the package after BS9 in Idle; a stage that fails or exceeds its
limit records stage and cause and raises FAIL_COUNT, the third in a row is service-only mode, and a restart begins at BS0 as a cold start.
The images that BS1 verifies become the firmware set, whose FWSET is the digest of their DIGEST fields (R404). -/
def Obligations.StartsRunThroughTheirStages : Prop :=
  ∀ (s : State), s.pwr.mode = .start → s.pwr.wait7 = false →
    let n := s.fld fBoot_STAGE
    (∀ e : BootEnv,
      let pass : Instr := .bootStage (.passed e)
      (n = 3 ∨ n = 5 → Completes pass s fun u => u.fld fBoot_STAGE = n + 1 ∧ u.pwr = s.pwr) ∧
      (n = 2 → s.flag fBoot_SERVICE_ONLY = false → s.fld fSec_LC ≠ 3 → Completes pass s fun u => u.fld fBoot_STAGE = 3 ∧ u.pwr.mctp = true ∧
        u.fld fPwr_CAP_W = s.fld fPwr_CAP_DEF) ∧
      (n = 2 → (s.flag fBoot_SERVICE_ONLY = true ∨ s.fld fSec_LC = 3) → Completes pass s fun u => u.pwr.mode = .service ∧ u.pwr.mctp = true) ∧
      (n = 7 → (e.rate = 1 ∨ e.rate = 2) → (e.width = 8 ∨ e.width = 16) → Completes pass s fun u => u.fld fBoot_STAGE = 8 ∧
        u.fld fCxl_RATE = e.rate ∧ u.fld fCxl_WIDTH = e.width) ∧
      (n = 7 → e.rate = 0 → exec pass s = .next (s.bootFail 7)) ∧
      (n = 8 → s.pwr.warm = false → 128 ≤ grovesPass e.failed0 → 128 ≤ grovesPass e.failed1 → Completes pass s fun u => u.pwr.mode = .run ∧
        u.fld fBoot_STAGE = 9 ∧ u.fld fBoot_FAIL_COUNT = 0 ∧ u.fld fPwr_STATE = 3) ∧
      (n = 8 → s.pwr.warm = false → grovesPass e.failed0 < 128 → exec pass s = .next (s.bootFail 8)) ∧
      (n = 1 → s.bs1Ok = false → exec pass s = .next (s.bootFail 2)) ∧
      (n = 1 → s.bs1Ok = true → (∀ c ∈ [2, 3, 4, 5, 6, 7], (s.image (s.fld fBoot_SLOT) c).digest.length = 32) → Completes pass s fun u =>
        u.fld fBoot_STAGE = (if s.pwr.fromRet then 3 else 2) ∧
        u.fld fMode_FWSET = leNat ((sha3_256 ([2, 3, 4, 5, 6, 7].flatMap fun c => (s.image (s.fld fBoot_SLOT) c).digest)).take 8) % 2 ^ 64)) ∧
    (∀ c, exec (.bootStage (.failed c)) s = .next (s.bootFail c)) ∧
    exec .bootStageTimeout s = .next (s.bootFail 1) ∧
    (∀ c, c < 16 → n < 15 →
      let x := s.bootFail c
      x.fld fBoot_FAIL_STAGE = n ∧ x.fld fBoot_CAUSE = c ∧ x.fld fBoot_FAIL_COUNT = min 3 (s.fld fBoot_FAIL_COUNT + 1) ∧
      x.pwr.mode = (if 2 ≤ s.fld fBoot_FAIL_COUNT then .service else .failed) ∧
      (2 ≤ s.fld fBoot_FAIL_COUNT → x.flag fBoot_SERVICE_ONLY = true) ∧
      x.answers.head? = some (.message 0x300 0 (natLE 1 n ++ natLE 1 c ++ natLE 1 (min 3 (s.fld fBoot_FAIL_COUNT + 1))))) ∧
    (∀ w : State, w.pwr.mode = .failed → Completes .bootRestart w fun u => u.pwr.mode = .start ∧ u.fld fBoot_STAGE = 0 ∧ u.pwr.warm = false ∧
      u.thr.ctxs = []) ∧
    exec .bootRestart s = .next s

/-- A step takes the command at the front of the queue and is that command's exec on the state with the queue's rest; an empty queue idles
(the model's choice, assumption log 7). -/
def Obligations.StepRunsTheFrontCommand : Prop :=
  ∀ (s : State) (c : Instr) (rest : List Instr),
    step { s with pending := c :: rest } = exec c { s with pending := rest } ∧ step { s with pending := [] } = .next { s with pending := [] }

/-- Every command answers a next state in every state: no row of the table ends a run. -/
def Obligations.EveryCommandAnswersANextState : Prop := ∀ (c : Instr) (s : State), ∃ u, exec c s = .next u

/-- Reset (R390, R439, R445, Tables 13.5, 16.12, 19.5 and the page tables): the state after reset is canonical, without threads, job or
commands, at BS0, with the registers at the reset values that the page tables give. That a start has just been accepted is the model's
choice (assumption log 6). -/
def Obligations.ResetIsTheStartOfAColdStart : Prop :=
  State.reset.memWf = true ∧ State.reset.pending = [] ∧ State.reset.thr.ctxs = [] ∧ State.reset.fab.ctxs = [] ∧
  State.reset.pwr.mode = .start ∧ State.reset.fld fBoot_STAGE = 0 ∧ State.reset.flag fPkg_JOB_PRESENT = false ∧
  State.reset.fld fPkg_PKG_ID_APPLIED = 0xFFFF ∧ State.reset.flag fSafe_SAFE = false ∧ State.reset.flag fSafe_FAULT = false ∧
  State.reset.fld fMode_A_EPOCH = 0 ∧ State.reset.flag fMode_A_PROFILE = false ∧ State.reset.flag fMode_A_STRICT = false ∧
  State.reset.fld fPwr_TJ_THR = 100 ∧ State.reset.flag fPwr_IDLE_EN = true ∧ State.reset.fld fRing_LOG2N = 4 ∧
  (∀ p : Fin 16, State.reset.portState p = 0) ∧ (∀ n : Fin 4096, pageBlk n ≠ none → State.reset.fld (fVersel n) = 0x0100) ∧
  (∀ t : Tid, t.valid = true → (State.reset.ctx t).st = .idle) ∧ (∀ i : Nat, (State.reset.window i).valid = false)

/-- Commands that store nothing leave every byte of DRAM and BAR2, every thread, every engine, and every outstanding remote request as they
were: writes of single fields, mailbox queries, security commands other than an accepted record, samples of power and temperature, and the
end of a persistent commit that no write waits for. -/
def Obligations.ControlCommandsLeaveMemoryAndThreadsAlone : Prop :=
  ∀ (s u : State) (ag : Agent) (c : Instr),
    (c ∈ [Instr.clrFail ag, .faultClr ag, .getEventInterruptPolicy ag, .getFwInfo ag, .getTimestamp ag, .getSupportedLogs ag, .getLog ag,
          .identifyMemoryDevice ag, .getHealthInfo ag, .getPackageInfo ag, .getChallenge ag, .nonceExpiry, .lockDebug ag, .getSecurityState ag,
          .debugSessionExpiry, .spdmGetMeasurements ag, .spdmKeyExchange ag, .trstN, .pwrGoodAssert, .cxlIdeKeyManagement, .preemptN true,
          .safeStopN true, .ctxPeakClr ag] ∨ (s.pst.waits = [] ∧ c = .persistentCommitDone) ∨
      (∃ v, c = .capWWrite ag v) ∨ (∃ v, c = .injEnWrite ag v) ∨ (∃ st, c = .tempPeakClr ag st) ∨ (∃ st, c = .combPeakClr ag st) ∨
      (∃ g v, c = .ewSplitWrite ag g v) ∨ (∃ log, c = .getEventRecords ag log) ∨ (∃ log hs, c = .clearEventRecords ag log hs) ∨
      (∃ a b d e, c = .setEventInterruptPolicy ag a b d e) ∨ (∃ v, c = .setTimestamp ag v) ∨ (∃ sl x, c = .transferFw ag sl x) ∨
      (∃ p, c = .getFaultLog ag p) ∨ (∃ st n, c = .getRepairRecord ag st n) ∨ (∃ l d, c = .sealBlob ag l d) ∨ (∃ b, c = .unsealBlob ag b) ∨
      (∃ p, c = .capSample p) ∨ (∃ d v, c = .dieTempSample d v) ∨ (∃ v, c = .inputRangeChange v) ∨ (∃ x, c = .selfTestForce x) ∨
      (∃ x, c = .idleWakeDone x) ∨ (∃ b z, c = .hdmDecoderCommit b z) ∨ (∃ p tx, c = .rekey p tx) ∨
      (∃ g b q k, c = .hazelWarn g b q k)) →
    exec c s = .next u →
    u.dram = s.dram ∧ u.bar2 = s.bar2 ∧ u.thr = s.thr ∧ u.eng = s.eng ∧ u.fab.ctxs = s.fab.ctxs ∧ u.pending = s.pending

/-- Every step keeps DRAM, BAR2 and the register cells in their canonical form: keys strictly rising, and no cell listed that reads as an
unlisted one, so that memories that read alike are equal data. -/
def Obligations.EveryStepKeepsMemoryCanonical : Prop :=
  ∀ s u : State, s.memWf = true → step s = .next u → u.memWf = true

/-- Every step takes one command off the front of the queue and leaves the others in their order: no command's effect reaches the queue. -/
def Obligations.EveryStepTakesOneCommand : Prop :=
  ∀ s u : State, step s = .next u → u.pending = s.pending.tail
end

