-- ==== Sys2Proof/Laws/State.lean ====
section
/-! SUPPORT. One lemma per field of the state and named update: an update leaves every other field alone. -/

namespace Sys2Proof.Machine

@[simp] theorem State.setCell_pending (s : State) (k : Nat) (v : W64) : (s.setCell k v).pending = s.pending := rfl
@[simp] theorem State.setCell_fresh (s : State) (k : Nat) (v : W64) : (s.setCell k v).fresh = s.fresh := rfl
@[simp] theorem State.setCell_answers (s : State) (k : Nat) (v : W64) : (s.setCell k v).answers = s.answers := rfl
@[simp] theorem State.setCell_latch (s : State) (k : Nat) (v : W64) : (s.setCell k v).latch = s.latch := rfl
@[simp] theorem State.setCell_bar2 (s : State) (k : Nat) (v : W64) : (s.setCell k v).bar2 = s.bar2 := rfl
@[simp] theorem State.setCell_dram (s : State) (k : Nat) (v : W64) : (s.setCell k v).dram = s.dram := rfl
@[simp] theorem State.setCell_mem (s : State) (k : Nat) (v : W64) : (s.setCell k v).mem = s.mem := rfl
@[simp] theorem State.setCell_stks (s : State) (k : Nat) (v : W64) : (s.setCell k v).stks = s.stks := rfl
@[simp] theorem State.setCell_thr (s : State) (k : Nat) (v : W64) : (s.setCell k v).thr = s.thr := rfl
@[simp] theorem State.setCell_logs (s : State) (k : Nat) (v : W64) : (s.setCell k v).logs = s.logs := rfl
@[simp] theorem State.setCell_pst (s : State) (k : Nat) (v : W64) : (s.setCell k v).pst = s.pst := rfl
@[simp] theorem State.setCell_saf (s : State) (k : Nat) (v : W64) : (s.setCell k v).saf = s.saf := rfl
@[simp] theorem State.setCell_host (s : State) (k : Nat) (v : W64) : (s.setCell k v).host = s.host := rfl
@[simp] theorem State.setCell_mdl (s : State) (k : Nat) (v : W64) : (s.setCell k v).mdl = s.mdl := rfl
@[simp] theorem State.setCell_eng (s : State) (k : Nat) (v : W64) : (s.setCell k v).eng = s.eng := rfl
@[simp] theorem State.setCell_bnd (s : State) (k : Nat) (v : W64) : (s.setCell k v).bnd = s.bnd := rfl
@[simp] theorem State.setCell_fab (s : State) (k : Nat) (v : W64) : (s.setCell k v).fab = s.fab := rfl
@[simp] theorem State.setCell_hz (s : State) (k : Nat) (v : W64) : (s.setCell k v).hz = s.hz := rfl
@[simp] theorem State.setCell_can (s : State) (k : Nat) (v : W64) : (s.setCell k v).can = s.can := rfl
@[simp] theorem State.setCell_snp (s : State) (k : Nat) (v : W64) : (s.setCell k v).snp = s.snp := rfl
@[simp] theorem State.setCell_pwr (s : State) (k : Nat) (v : W64) : (s.setCell k v).pwr = s.pwr := rfl
@[simp] theorem State.setCell_sec (s : State) (k : Nat) (v : W64) : (s.setCell k v).sec = s.sec := rfl

@[simp] theorem State.setFld_pending (s : State) (f : Fld) (v : Nat) : (s.setFld f v).pending = s.pending := rfl
@[simp] theorem State.setFld_fresh (s : State) (f : Fld) (v : Nat) : (s.setFld f v).fresh = s.fresh := rfl
@[simp] theorem State.setFld_answers (s : State) (f : Fld) (v : Nat) : (s.setFld f v).answers = s.answers := rfl
@[simp] theorem State.setFld_latch (s : State) (f : Fld) (v : Nat) : (s.setFld f v).latch = s.latch := rfl
@[simp] theorem State.setFld_bar2 (s : State) (f : Fld) (v : Nat) : (s.setFld f v).bar2 = s.bar2 := rfl
@[simp] theorem State.setFld_dram (s : State) (f : Fld) (v : Nat) : (s.setFld f v).dram = s.dram := rfl
@[simp] theorem State.setFld_mem (s : State) (f : Fld) (v : Nat) : (s.setFld f v).mem = s.mem := rfl
@[simp] theorem State.setFld_stks (s : State) (f : Fld) (v : Nat) : (s.setFld f v).stks = s.stks := rfl
@[simp] theorem State.setFld_thr (s : State) (f : Fld) (v : Nat) : (s.setFld f v).thr = s.thr := rfl
@[simp] theorem State.setFld_logs (s : State) (f : Fld) (v : Nat) : (s.setFld f v).logs = s.logs := rfl
@[simp] theorem State.setFld_pst (s : State) (f : Fld) (v : Nat) : (s.setFld f v).pst = s.pst := rfl
@[simp] theorem State.setFld_saf (s : State) (f : Fld) (v : Nat) : (s.setFld f v).saf = s.saf := rfl
@[simp] theorem State.setFld_host (s : State) (f : Fld) (v : Nat) : (s.setFld f v).host = s.host := rfl
@[simp] theorem State.setFld_mdl (s : State) (f : Fld) (v : Nat) : (s.setFld f v).mdl = s.mdl := rfl
@[simp] theorem State.setFld_eng (s : State) (f : Fld) (v : Nat) : (s.setFld f v).eng = s.eng := rfl
@[simp] theorem State.setFld_bnd (s : State) (f : Fld) (v : Nat) : (s.setFld f v).bnd = s.bnd := rfl
@[simp] theorem State.setFld_fab (s : State) (f : Fld) (v : Nat) : (s.setFld f v).fab = s.fab := rfl
@[simp] theorem State.setFld_hz (s : State) (f : Fld) (v : Nat) : (s.setFld f v).hz = s.hz := rfl
@[simp] theorem State.setFld_can (s : State) (f : Fld) (v : Nat) : (s.setFld f v).can = s.can := rfl
@[simp] theorem State.setFld_snp (s : State) (f : Fld) (v : Nat) : (s.setFld f v).snp = s.snp := rfl
@[simp] theorem State.setFld_pwr (s : State) (f : Fld) (v : Nat) : (s.setFld f v).pwr = s.pwr := rfl
@[simp] theorem State.setFld_sec (s : State) (f : Fld) (v : Nat) : (s.setFld f v).sec = s.sec := rfl

@[simp] theorem State.setFlag_pending (s : State) (f : Fld) (b : Bool) : (s.setFlag f b).pending = s.pending := rfl
@[simp] theorem State.setFlag_fresh (s : State) (f : Fld) (b : Bool) : (s.setFlag f b).fresh = s.fresh := rfl
@[simp] theorem State.setFlag_answers (s : State) (f : Fld) (b : Bool) : (s.setFlag f b).answers = s.answers := rfl
@[simp] theorem State.setFlag_latch (s : State) (f : Fld) (b : Bool) : (s.setFlag f b).latch = s.latch := rfl
@[simp] theorem State.setFlag_bar2 (s : State) (f : Fld) (b : Bool) : (s.setFlag f b).bar2 = s.bar2 := rfl
@[simp] theorem State.setFlag_dram (s : State) (f : Fld) (b : Bool) : (s.setFlag f b).dram = s.dram := rfl
@[simp] theorem State.setFlag_mem (s : State) (f : Fld) (b : Bool) : (s.setFlag f b).mem = s.mem := rfl
@[simp] theorem State.setFlag_stks (s : State) (f : Fld) (b : Bool) : (s.setFlag f b).stks = s.stks := rfl
@[simp] theorem State.setFlag_thr (s : State) (f : Fld) (b : Bool) : (s.setFlag f b).thr = s.thr := rfl
@[simp] theorem State.setFlag_logs (s : State) (f : Fld) (b : Bool) : (s.setFlag f b).logs = s.logs := rfl
@[simp] theorem State.setFlag_pst (s : State) (f : Fld) (b : Bool) : (s.setFlag f b).pst = s.pst := rfl
@[simp] theorem State.setFlag_saf (s : State) (f : Fld) (b : Bool) : (s.setFlag f b).saf = s.saf := rfl
@[simp] theorem State.setFlag_host (s : State) (f : Fld) (b : Bool) : (s.setFlag f b).host = s.host := rfl
@[simp] theorem State.setFlag_mdl (s : State) (f : Fld) (b : Bool) : (s.setFlag f b).mdl = s.mdl := rfl
@[simp] theorem State.setFlag_eng (s : State) (f : Fld) (b : Bool) : (s.setFlag f b).eng = s.eng := rfl
@[simp] theorem State.setFlag_bnd (s : State) (f : Fld) (b : Bool) : (s.setFlag f b).bnd = s.bnd := rfl
@[simp] theorem State.setFlag_fab (s : State) (f : Fld) (b : Bool) : (s.setFlag f b).fab = s.fab := rfl
@[simp] theorem State.setFlag_hz (s : State) (f : Fld) (b : Bool) : (s.setFlag f b).hz = s.hz := rfl
@[simp] theorem State.setFlag_can (s : State) (f : Fld) (b : Bool) : (s.setFlag f b).can = s.can := rfl
@[simp] theorem State.setFlag_snp (s : State) (f : Fld) (b : Bool) : (s.setFlag f b).snp = s.snp := rfl
@[simp] theorem State.setFlag_pwr (s : State) (f : Fld) (b : Bool) : (s.setFlag f b).pwr = s.pwr := rfl
@[simp] theorem State.setFlag_sec (s : State) (f : Fld) (b : Bool) : (s.setFlag f b).sec = s.sec := rfl

@[simp] theorem State.inc_pending (s : State) (f : Fld) : (s.inc f).pending = s.pending := rfl
@[simp] theorem State.inc_fresh (s : State) (f : Fld) : (s.inc f).fresh = s.fresh := rfl
@[simp] theorem State.inc_answers (s : State) (f : Fld) : (s.inc f).answers = s.answers := rfl
@[simp] theorem State.inc_latch (s : State) (f : Fld) : (s.inc f).latch = s.latch := rfl
@[simp] theorem State.inc_bar2 (s : State) (f : Fld) : (s.inc f).bar2 = s.bar2 := rfl
@[simp] theorem State.inc_dram (s : State) (f : Fld) : (s.inc f).dram = s.dram := rfl
@[simp] theorem State.inc_mem (s : State) (f : Fld) : (s.inc f).mem = s.mem := rfl
@[simp] theorem State.inc_stks (s : State) (f : Fld) : (s.inc f).stks = s.stks := rfl
@[simp] theorem State.inc_thr (s : State) (f : Fld) : (s.inc f).thr = s.thr := rfl
@[simp] theorem State.inc_logs (s : State) (f : Fld) : (s.inc f).logs = s.logs := rfl
@[simp] theorem State.inc_pst (s : State) (f : Fld) : (s.inc f).pst = s.pst := rfl
@[simp] theorem State.inc_saf (s : State) (f : Fld) : (s.inc f).saf = s.saf := rfl
@[simp] theorem State.inc_host (s : State) (f : Fld) : (s.inc f).host = s.host := rfl
@[simp] theorem State.inc_mdl (s : State) (f : Fld) : (s.inc f).mdl = s.mdl := rfl
@[simp] theorem State.inc_eng (s : State) (f : Fld) : (s.inc f).eng = s.eng := rfl
@[simp] theorem State.inc_bnd (s : State) (f : Fld) : (s.inc f).bnd = s.bnd := rfl
@[simp] theorem State.inc_fab (s : State) (f : Fld) : (s.inc f).fab = s.fab := rfl
@[simp] theorem State.inc_hz (s : State) (f : Fld) : (s.inc f).hz = s.hz := rfl
@[simp] theorem State.inc_can (s : State) (f : Fld) : (s.inc f).can = s.can := rfl
@[simp] theorem State.inc_snp (s : State) (f : Fld) : (s.inc f).snp = s.snp := rfl
@[simp] theorem State.inc_pwr (s : State) (f : Fld) : (s.inc f).pwr = s.pwr := rfl
@[simp] theorem State.inc_sec (s : State) (f : Fld) : (s.inc f).sec = s.sec := rfl

@[simp] theorem State.addSat_pending (s : State) (f : Fld) (n : Nat) : (s.addSat f n).pending = s.pending := rfl
@[simp] theorem State.addSat_fresh (s : State) (f : Fld) (n : Nat) : (s.addSat f n).fresh = s.fresh := rfl
@[simp] theorem State.addSat_answers (s : State) (f : Fld) (n : Nat) : (s.addSat f n).answers = s.answers := rfl
@[simp] theorem State.addSat_latch (s : State) (f : Fld) (n : Nat) : (s.addSat f n).latch = s.latch := rfl
@[simp] theorem State.addSat_bar2 (s : State) (f : Fld) (n : Nat) : (s.addSat f n).bar2 = s.bar2 := rfl
@[simp] theorem State.addSat_dram (s : State) (f : Fld) (n : Nat) : (s.addSat f n).dram = s.dram := rfl
@[simp] theorem State.addSat_mem (s : State) (f : Fld) (n : Nat) : (s.addSat f n).mem = s.mem := rfl
@[simp] theorem State.addSat_stks (s : State) (f : Fld) (n : Nat) : (s.addSat f n).stks = s.stks := rfl
@[simp] theorem State.addSat_thr (s : State) (f : Fld) (n : Nat) : (s.addSat f n).thr = s.thr := rfl
@[simp] theorem State.addSat_logs (s : State) (f : Fld) (n : Nat) : (s.addSat f n).logs = s.logs := rfl
@[simp] theorem State.addSat_pst (s : State) (f : Fld) (n : Nat) : (s.addSat f n).pst = s.pst := rfl
@[simp] theorem State.addSat_saf (s : State) (f : Fld) (n : Nat) : (s.addSat f n).saf = s.saf := rfl
@[simp] theorem State.addSat_host (s : State) (f : Fld) (n : Nat) : (s.addSat f n).host = s.host := rfl
@[simp] theorem State.addSat_mdl (s : State) (f : Fld) (n : Nat) : (s.addSat f n).mdl = s.mdl := rfl
@[simp] theorem State.addSat_eng (s : State) (f : Fld) (n : Nat) : (s.addSat f n).eng = s.eng := rfl
@[simp] theorem State.addSat_bnd (s : State) (f : Fld) (n : Nat) : (s.addSat f n).bnd = s.bnd := rfl
@[simp] theorem State.addSat_fab (s : State) (f : Fld) (n : Nat) : (s.addSat f n).fab = s.fab := rfl
@[simp] theorem State.addSat_hz (s : State) (f : Fld) (n : Nat) : (s.addSat f n).hz = s.hz := rfl
@[simp] theorem State.addSat_can (s : State) (f : Fld) (n : Nat) : (s.addSat f n).can = s.can := rfl
@[simp] theorem State.addSat_snp (s : State) (f : Fld) (n : Nat) : (s.addSat f n).snp = s.snp := rfl
@[simp] theorem State.addSat_pwr (s : State) (f : Fld) (n : Nat) : (s.addSat f n).pwr = s.pwr := rfl
@[simp] theorem State.addSat_sec (s : State) (f : Fld) (n : Nat) : (s.addSat f n).sec = s.sec := rfl

@[simp] theorem State.answer_pending (s : State) (a : Answer) : (s.answer a).pending = s.pending := rfl
@[simp] theorem State.answer_fresh (s : State) (a : Answer) : (s.answer a).fresh = s.fresh := rfl
@[simp] theorem State.answer_regs (s : State) (a : Answer) : (s.answer a).regs = s.regs := rfl
@[simp] theorem State.answer_latch (s : State) (a : Answer) : (s.answer a).latch = s.latch := rfl
@[simp] theorem State.answer_bar2 (s : State) (a : Answer) : (s.answer a).bar2 = s.bar2 := rfl
@[simp] theorem State.answer_dram (s : State) (a : Answer) : (s.answer a).dram = s.dram := rfl
@[simp] theorem State.answer_mem (s : State) (a : Answer) : (s.answer a).mem = s.mem := rfl
@[simp] theorem State.answer_stks (s : State) (a : Answer) : (s.answer a).stks = s.stks := rfl
@[simp] theorem State.answer_thr (s : State) (a : Answer) : (s.answer a).thr = s.thr := rfl
@[simp] theorem State.answer_logs (s : State) (a : Answer) : (s.answer a).logs = s.logs := rfl
@[simp] theorem State.answer_pst (s : State) (a : Answer) : (s.answer a).pst = s.pst := rfl
@[simp] theorem State.answer_saf (s : State) (a : Answer) : (s.answer a).saf = s.saf := rfl
@[simp] theorem State.answer_host (s : State) (a : Answer) : (s.answer a).host = s.host := rfl
@[simp] theorem State.answer_mdl (s : State) (a : Answer) : (s.answer a).mdl = s.mdl := rfl
@[simp] theorem State.answer_eng (s : State) (a : Answer) : (s.answer a).eng = s.eng := rfl
@[simp] theorem State.answer_bnd (s : State) (a : Answer) : (s.answer a).bnd = s.bnd := rfl
@[simp] theorem State.answer_fab (s : State) (a : Answer) : (s.answer a).fab = s.fab := rfl
@[simp] theorem State.answer_hz (s : State) (a : Answer) : (s.answer a).hz = s.hz := rfl
@[simp] theorem State.answer_can (s : State) (a : Answer) : (s.answer a).can = s.can := rfl
@[simp] theorem State.answer_snp (s : State) (a : Answer) : (s.answer a).snp = s.snp := rfl
@[simp] theorem State.answer_pwr (s : State) (a : Answer) : (s.answer a).pwr = s.pwr := rfl
@[simp] theorem State.answer_sec (s : State) (a : Answer) : (s.answer a).sec = s.sec := rfl

@[simp] theorem State.setDramByte_pending (s : State) (k : Nat) (b : Byte) : (s.setDramByte k b).pending = s.pending := rfl
@[simp] theorem State.setDramByte_fresh (s : State) (k : Nat) (b : Byte) : (s.setDramByte k b).fresh = s.fresh := rfl
@[simp] theorem State.setDramByte_answers (s : State) (k : Nat) (b : Byte) : (s.setDramByte k b).answers = s.answers := rfl
@[simp] theorem State.setDramByte_regs (s : State) (k : Nat) (b : Byte) : (s.setDramByte k b).regs = s.regs := rfl
@[simp] theorem State.setDramByte_latch (s : State) (k : Nat) (b : Byte) : (s.setDramByte k b).latch = s.latch := rfl
@[simp] theorem State.setDramByte_bar2 (s : State) (k : Nat) (b : Byte) : (s.setDramByte k b).bar2 = s.bar2 := rfl
@[simp] theorem State.setDramByte_mem (s : State) (k : Nat) (b : Byte) : (s.setDramByte k b).mem = s.mem := rfl
@[simp] theorem State.setDramByte_stks (s : State) (k : Nat) (b : Byte) : (s.setDramByte k b).stks = s.stks := rfl
@[simp] theorem State.setDramByte_thr (s : State) (k : Nat) (b : Byte) : (s.setDramByte k b).thr = s.thr := rfl
@[simp] theorem State.setDramByte_logs (s : State) (k : Nat) (b : Byte) : (s.setDramByte k b).logs = s.logs := rfl
@[simp] theorem State.setDramByte_pst (s : State) (k : Nat) (b : Byte) : (s.setDramByte k b).pst = s.pst := rfl
@[simp] theorem State.setDramByte_saf (s : State) (k : Nat) (b : Byte) : (s.setDramByte k b).saf = s.saf := rfl
@[simp] theorem State.setDramByte_host (s : State) (k : Nat) (b : Byte) : (s.setDramByte k b).host = s.host := rfl
@[simp] theorem State.setDramByte_mdl (s : State) (k : Nat) (b : Byte) : (s.setDramByte k b).mdl = s.mdl := rfl
@[simp] theorem State.setDramByte_eng (s : State) (k : Nat) (b : Byte) : (s.setDramByte k b).eng = s.eng := rfl
@[simp] theorem State.setDramByte_bnd (s : State) (k : Nat) (b : Byte) : (s.setDramByte k b).bnd = s.bnd := rfl
@[simp] theorem State.setDramByte_fab (s : State) (k : Nat) (b : Byte) : (s.setDramByte k b).fab = s.fab := rfl
@[simp] theorem State.setDramByte_hz (s : State) (k : Nat) (b : Byte) : (s.setDramByte k b).hz = s.hz := rfl
@[simp] theorem State.setDramByte_can (s : State) (k : Nat) (b : Byte) : (s.setDramByte k b).can = s.can := rfl
@[simp] theorem State.setDramByte_snp (s : State) (k : Nat) (b : Byte) : (s.setDramByte k b).snp = s.snp := rfl
@[simp] theorem State.setDramByte_pwr (s : State) (k : Nat) (b : Byte) : (s.setDramByte k b).pwr = s.pwr := rfl
@[simp] theorem State.setDramByte_sec (s : State) (k : Nat) (b : Byte) : (s.setDramByte k b).sec = s.sec := rfl

@[simp] theorem State.setBarByte_pending (s : State) (k : Nat) (b : Byte) : (s.setBarByte k b).pending = s.pending := rfl
@[simp] theorem State.setBarByte_fresh (s : State) (k : Nat) (b : Byte) : (s.setBarByte k b).fresh = s.fresh := rfl
@[simp] theorem State.setBarByte_answers (s : State) (k : Nat) (b : Byte) : (s.setBarByte k b).answers = s.answers := rfl
@[simp] theorem State.setBarByte_regs (s : State) (k : Nat) (b : Byte) : (s.setBarByte k b).regs = s.regs := rfl
@[simp] theorem State.setBarByte_latch (s : State) (k : Nat) (b : Byte) : (s.setBarByte k b).latch = s.latch := rfl
@[simp] theorem State.setBarByte_dram (s : State) (k : Nat) (b : Byte) : (s.setBarByte k b).dram = s.dram := rfl
@[simp] theorem State.setBarByte_mem (s : State) (k : Nat) (b : Byte) : (s.setBarByte k b).mem = s.mem := rfl
@[simp] theorem State.setBarByte_stks (s : State) (k : Nat) (b : Byte) : (s.setBarByte k b).stks = s.stks := rfl
@[simp] theorem State.setBarByte_thr (s : State) (k : Nat) (b : Byte) : (s.setBarByte k b).thr = s.thr := rfl
@[simp] theorem State.setBarByte_logs (s : State) (k : Nat) (b : Byte) : (s.setBarByte k b).logs = s.logs := rfl
@[simp] theorem State.setBarByte_pst (s : State) (k : Nat) (b : Byte) : (s.setBarByte k b).pst = s.pst := rfl
@[simp] theorem State.setBarByte_saf (s : State) (k : Nat) (b : Byte) : (s.setBarByte k b).saf = s.saf := rfl
@[simp] theorem State.setBarByte_host (s : State) (k : Nat) (b : Byte) : (s.setBarByte k b).host = s.host := rfl
@[simp] theorem State.setBarByte_mdl (s : State) (k : Nat) (b : Byte) : (s.setBarByte k b).mdl = s.mdl := rfl
@[simp] theorem State.setBarByte_eng (s : State) (k : Nat) (b : Byte) : (s.setBarByte k b).eng = s.eng := rfl
@[simp] theorem State.setBarByte_bnd (s : State) (k : Nat) (b : Byte) : (s.setBarByte k b).bnd = s.bnd := rfl
@[simp] theorem State.setBarByte_fab (s : State) (k : Nat) (b : Byte) : (s.setBarByte k b).fab = s.fab := rfl
@[simp] theorem State.setBarByte_hz (s : State) (k : Nat) (b : Byte) : (s.setBarByte k b).hz = s.hz := rfl
@[simp] theorem State.setBarByte_can (s : State) (k : Nat) (b : Byte) : (s.setBarByte k b).can = s.can := rfl
@[simp] theorem State.setBarByte_snp (s : State) (k : Nat) (b : Byte) : (s.setBarByte k b).snp = s.snp := rfl
@[simp] theorem State.setBarByte_pwr (s : State) (k : Nat) (b : Byte) : (s.setBarByte k b).pwr = s.pwr := rfl
@[simp] theorem State.setBarByte_sec (s : State) (k : Nat) (b : Byte) : (s.setBarByte k b).sec = s.sec := rfl

@[simp] theorem State.setCtx_pending (s : State) (t : Tid) (c : Ctx) : (s.setCtx t c).pending = s.pending := rfl
@[simp] theorem State.setCtx_fresh (s : State) (t : Tid) (c : Ctx) : (s.setCtx t c).fresh = s.fresh := rfl
@[simp] theorem State.setCtx_answers (s : State) (t : Tid) (c : Ctx) : (s.setCtx t c).answers = s.answers := rfl
@[simp] theorem State.setCtx_regs (s : State) (t : Tid) (c : Ctx) : (s.setCtx t c).regs = s.regs := rfl
@[simp] theorem State.setCtx_latch (s : State) (t : Tid) (c : Ctx) : (s.setCtx t c).latch = s.latch := rfl
@[simp] theorem State.setCtx_bar2 (s : State) (t : Tid) (c : Ctx) : (s.setCtx t c).bar2 = s.bar2 := rfl
@[simp] theorem State.setCtx_dram (s : State) (t : Tid) (c : Ctx) : (s.setCtx t c).dram = s.dram := rfl
@[simp] theorem State.setCtx_mem (s : State) (t : Tid) (c : Ctx) : (s.setCtx t c).mem = s.mem := rfl
@[simp] theorem State.setCtx_stks (s : State) (t : Tid) (c : Ctx) : (s.setCtx t c).stks = s.stks := rfl
@[simp] theorem State.setCtx_logs (s : State) (t : Tid) (c : Ctx) : (s.setCtx t c).logs = s.logs := rfl
@[simp] theorem State.setCtx_pst (s : State) (t : Tid) (c : Ctx) : (s.setCtx t c).pst = s.pst := rfl
@[simp] theorem State.setCtx_saf (s : State) (t : Tid) (c : Ctx) : (s.setCtx t c).saf = s.saf := rfl
@[simp] theorem State.setCtx_host (s : State) (t : Tid) (c : Ctx) : (s.setCtx t c).host = s.host := rfl
@[simp] theorem State.setCtx_mdl (s : State) (t : Tid) (c : Ctx) : (s.setCtx t c).mdl = s.mdl := rfl
@[simp] theorem State.setCtx_eng (s : State) (t : Tid) (c : Ctx) : (s.setCtx t c).eng = s.eng := rfl
@[simp] theorem State.setCtx_bnd (s : State) (t : Tid) (c : Ctx) : (s.setCtx t c).bnd = s.bnd := rfl
@[simp] theorem State.setCtx_fab (s : State) (t : Tid) (c : Ctx) : (s.setCtx t c).fab = s.fab := rfl
@[simp] theorem State.setCtx_hz (s : State) (t : Tid) (c : Ctx) : (s.setCtx t c).hz = s.hz := rfl
@[simp] theorem State.setCtx_can (s : State) (t : Tid) (c : Ctx) : (s.setCtx t c).can = s.can := rfl
@[simp] theorem State.setCtx_snp (s : State) (t : Tid) (c : Ctx) : (s.setCtx t c).snp = s.snp := rfl
@[simp] theorem State.setCtx_pwr (s : State) (t : Tid) (c : Ctx) : (s.setCtx t c).pwr = s.pwr := rfl
@[simp] theorem State.setCtx_sec (s : State) (t : Tid) (c : Ctx) : (s.setCtx t c).sec = s.sec := rfl

@[simp] theorem State.modCtx_pending (s : State) (t : Tid) (g : Ctx → Ctx) : (s.modCtx t g).pending = s.pending := rfl
@[simp] theorem State.modCtx_fresh (s : State) (t : Tid) (g : Ctx → Ctx) : (s.modCtx t g).fresh = s.fresh := rfl
@[simp] theorem State.modCtx_answers (s : State) (t : Tid) (g : Ctx → Ctx) : (s.modCtx t g).answers = s.answers := rfl
@[simp] theorem State.modCtx_regs (s : State) (t : Tid) (g : Ctx → Ctx) : (s.modCtx t g).regs = s.regs := rfl
@[simp] theorem State.modCtx_latch (s : State) (t : Tid) (g : Ctx → Ctx) : (s.modCtx t g).latch = s.latch := rfl
@[simp] theorem State.modCtx_bar2 (s : State) (t : Tid) (g : Ctx → Ctx) : (s.modCtx t g).bar2 = s.bar2 := rfl
@[simp] theorem State.modCtx_dram (s : State) (t : Tid) (g : Ctx → Ctx) : (s.modCtx t g).dram = s.dram := rfl
@[simp] theorem State.modCtx_mem (s : State) (t : Tid) (g : Ctx → Ctx) : (s.modCtx t g).mem = s.mem := rfl
@[simp] theorem State.modCtx_stks (s : State) (t : Tid) (g : Ctx → Ctx) : (s.modCtx t g).stks = s.stks := rfl
@[simp] theorem State.modCtx_logs (s : State) (t : Tid) (g : Ctx → Ctx) : (s.modCtx t g).logs = s.logs := rfl
@[simp] theorem State.modCtx_pst (s : State) (t : Tid) (g : Ctx → Ctx) : (s.modCtx t g).pst = s.pst := rfl
@[simp] theorem State.modCtx_saf (s : State) (t : Tid) (g : Ctx → Ctx) : (s.modCtx t g).saf = s.saf := rfl
@[simp] theorem State.modCtx_host (s : State) (t : Tid) (g : Ctx → Ctx) : (s.modCtx t g).host = s.host := rfl
@[simp] theorem State.modCtx_mdl (s : State) (t : Tid) (g : Ctx → Ctx) : (s.modCtx t g).mdl = s.mdl := rfl
@[simp] theorem State.modCtx_eng (s : State) (t : Tid) (g : Ctx → Ctx) : (s.modCtx t g).eng = s.eng := rfl
@[simp] theorem State.modCtx_bnd (s : State) (t : Tid) (g : Ctx → Ctx) : (s.modCtx t g).bnd = s.bnd := rfl
@[simp] theorem State.modCtx_fab (s : State) (t : Tid) (g : Ctx → Ctx) : (s.modCtx t g).fab = s.fab := rfl
@[simp] theorem State.modCtx_hz (s : State) (t : Tid) (g : Ctx → Ctx) : (s.modCtx t g).hz = s.hz := rfl
@[simp] theorem State.modCtx_can (s : State) (t : Tid) (g : Ctx → Ctx) : (s.modCtx t g).can = s.can := rfl
@[simp] theorem State.modCtx_snp (s : State) (t : Tid) (g : Ctx → Ctx) : (s.modCtx t g).snp = s.snp := rfl
@[simp] theorem State.modCtx_pwr (s : State) (t : Tid) (g : Ctx → Ctx) : (s.modCtx t g).pwr = s.pwr := rfl
@[simp] theorem State.modCtx_sec (s : State) (t : Tid) (g : Ctx → Ctx) : (s.modCtx t g).sec = s.sec := rfl

@[simp] theorem State.queueNotice_pending (s : State) (n : Notice) : (s.queueNotice n).pending = s.pending := rfl
@[simp] theorem State.queueNotice_fresh (s : State) (n : Notice) : (s.queueNotice n).fresh = s.fresh := rfl
@[simp] theorem State.queueNotice_answers (s : State) (n : Notice) : (s.queueNotice n).answers = s.answers := rfl
@[simp] theorem State.queueNotice_regs (s : State) (n : Notice) : (s.queueNotice n).regs = s.regs := rfl
@[simp] theorem State.queueNotice_latch (s : State) (n : Notice) : (s.queueNotice n).latch = s.latch := rfl
@[simp] theorem State.queueNotice_bar2 (s : State) (n : Notice) : (s.queueNotice n).bar2 = s.bar2 := rfl
@[simp] theorem State.queueNotice_dram (s : State) (n : Notice) : (s.queueNotice n).dram = s.dram := rfl
@[simp] theorem State.queueNotice_mem (s : State) (n : Notice) : (s.queueNotice n).mem = s.mem := rfl
@[simp] theorem State.queueNotice_stks (s : State) (n : Notice) : (s.queueNotice n).stks = s.stks := rfl
@[simp] theorem State.queueNotice_logs (s : State) (n : Notice) : (s.queueNotice n).logs = s.logs := rfl
@[simp] theorem State.queueNotice_pst (s : State) (n : Notice) : (s.queueNotice n).pst = s.pst := rfl
@[simp] theorem State.queueNotice_saf (s : State) (n : Notice) : (s.queueNotice n).saf = s.saf := rfl
@[simp] theorem State.queueNotice_host (s : State) (n : Notice) : (s.queueNotice n).host = s.host := rfl
@[simp] theorem State.queueNotice_mdl (s : State) (n : Notice) : (s.queueNotice n).mdl = s.mdl := rfl
@[simp] theorem State.queueNotice_eng (s : State) (n : Notice) : (s.queueNotice n).eng = s.eng := rfl
@[simp] theorem State.queueNotice_bnd (s : State) (n : Notice) : (s.queueNotice n).bnd = s.bnd := rfl
@[simp] theorem State.queueNotice_fab (s : State) (n : Notice) : (s.queueNotice n).fab = s.fab := rfl
@[simp] theorem State.queueNotice_hz (s : State) (n : Notice) : (s.queueNotice n).hz = s.hz := rfl
@[simp] theorem State.queueNotice_can (s : State) (n : Notice) : (s.queueNotice n).can = s.can := rfl
@[simp] theorem State.queueNotice_snp (s : State) (n : Notice) : (s.queueNotice n).snp = s.snp := rfl
@[simp] theorem State.queueNotice_pwr (s : State) (n : Notice) : (s.queueNotice n).pwr = s.pwr := rfl
@[simp] theorem State.queueNotice_sec (s : State) (n : Notice) : (s.queueNotice n).sec = s.sec := rfl

@[simp] theorem State.modLaunches_pending (s : State) (g : List Launch → List Launch) : (s.modLaunches g).pending = s.pending := rfl
@[simp] theorem State.modLaunches_fresh (s : State) (g : List Launch → List Launch) : (s.modLaunches g).fresh = s.fresh := rfl
@[simp] theorem State.modLaunches_answers (s : State) (g : List Launch → List Launch) : (s.modLaunches g).answers = s.answers := rfl
@[simp] theorem State.modLaunches_regs (s : State) (g : List Launch → List Launch) : (s.modLaunches g).regs = s.regs := rfl
@[simp] theorem State.modLaunches_latch (s : State) (g : List Launch → List Launch) : (s.modLaunches g).latch = s.latch := rfl
@[simp] theorem State.modLaunches_bar2 (s : State) (g : List Launch → List Launch) : (s.modLaunches g).bar2 = s.bar2 := rfl
@[simp] theorem State.modLaunches_dram (s : State) (g : List Launch → List Launch) : (s.modLaunches g).dram = s.dram := rfl
@[simp] theorem State.modLaunches_mem (s : State) (g : List Launch → List Launch) : (s.modLaunches g).mem = s.mem := rfl
@[simp] theorem State.modLaunches_stks (s : State) (g : List Launch → List Launch) : (s.modLaunches g).stks = s.stks := rfl
@[simp] theorem State.modLaunches_logs (s : State) (g : List Launch → List Launch) : (s.modLaunches g).logs = s.logs := rfl
@[simp] theorem State.modLaunches_pst (s : State) (g : List Launch → List Launch) : (s.modLaunches g).pst = s.pst := rfl
@[simp] theorem State.modLaunches_saf (s : State) (g : List Launch → List Launch) : (s.modLaunches g).saf = s.saf := rfl
@[simp] theorem State.modLaunches_host (s : State) (g : List Launch → List Launch) : (s.modLaunches g).host = s.host := rfl
@[simp] theorem State.modLaunches_mdl (s : State) (g : List Launch → List Launch) : (s.modLaunches g).mdl = s.mdl := rfl
@[simp] theorem State.modLaunches_eng (s : State) (g : List Launch → List Launch) : (s.modLaunches g).eng = s.eng := rfl
@[simp] theorem State.modLaunches_bnd (s : State) (g : List Launch → List Launch) : (s.modLaunches g).bnd = s.bnd := rfl
@[simp] theorem State.modLaunches_fab (s : State) (g : List Launch → List Launch) : (s.modLaunches g).fab = s.fab := rfl
@[simp] theorem State.modLaunches_hz (s : State) (g : List Launch → List Launch) : (s.modLaunches g).hz = s.hz := rfl
@[simp] theorem State.modLaunches_can (s : State) (g : List Launch → List Launch) : (s.modLaunches g).can = s.can := rfl
@[simp] theorem State.modLaunches_snp (s : State) (g : List Launch → List Launch) : (s.modLaunches g).snp = s.snp := rfl
@[simp] theorem State.modLaunches_pwr (s : State) (g : List Launch → List Launch) : (s.modLaunches g).pwr = s.pwr := rfl
@[simp] theorem State.modLaunches_sec (s : State) (g : List Launch → List Launch) : (s.modLaunches g).sec = s.sec := rfl

@[simp] theorem State.setMat_pending (s : State) (g : Nat) (m : Matrix) : (s.setMat g m).pending = s.pending := rfl
@[simp] theorem State.setMat_fresh (s : State) (g : Nat) (m : Matrix) : (s.setMat g m).fresh = s.fresh := rfl
@[simp] theorem State.setMat_answers (s : State) (g : Nat) (m : Matrix) : (s.setMat g m).answers = s.answers := rfl
@[simp] theorem State.setMat_regs (s : State) (g : Nat) (m : Matrix) : (s.setMat g m).regs = s.regs := rfl
@[simp] theorem State.setMat_latch (s : State) (g : Nat) (m : Matrix) : (s.setMat g m).latch = s.latch := rfl
@[simp] theorem State.setMat_bar2 (s : State) (g : Nat) (m : Matrix) : (s.setMat g m).bar2 = s.bar2 := rfl
@[simp] theorem State.setMat_dram (s : State) (g : Nat) (m : Matrix) : (s.setMat g m).dram = s.dram := rfl
@[simp] theorem State.setMat_mem (s : State) (g : Nat) (m : Matrix) : (s.setMat g m).mem = s.mem := rfl
@[simp] theorem State.setMat_stks (s : State) (g : Nat) (m : Matrix) : (s.setMat g m).stks = s.stks := rfl
@[simp] theorem State.setMat_thr (s : State) (g : Nat) (m : Matrix) : (s.setMat g m).thr = s.thr := rfl
@[simp] theorem State.setMat_logs (s : State) (g : Nat) (m : Matrix) : (s.setMat g m).logs = s.logs := rfl
@[simp] theorem State.setMat_pst (s : State) (g : Nat) (m : Matrix) : (s.setMat g m).pst = s.pst := rfl
@[simp] theorem State.setMat_saf (s : State) (g : Nat) (m : Matrix) : (s.setMat g m).saf = s.saf := rfl
@[simp] theorem State.setMat_host (s : State) (g : Nat) (m : Matrix) : (s.setMat g m).host = s.host := rfl
@[simp] theorem State.setMat_mdl (s : State) (g : Nat) (m : Matrix) : (s.setMat g m).mdl = s.mdl := rfl
@[simp] theorem State.setMat_bnd (s : State) (g : Nat) (m : Matrix) : (s.setMat g m).bnd = s.bnd := rfl
@[simp] theorem State.setMat_fab (s : State) (g : Nat) (m : Matrix) : (s.setMat g m).fab = s.fab := rfl
@[simp] theorem State.setMat_hz (s : State) (g : Nat) (m : Matrix) : (s.setMat g m).hz = s.hz := rfl
@[simp] theorem State.setMat_can (s : State) (g : Nat) (m : Matrix) : (s.setMat g m).can = s.can := rfl
@[simp] theorem State.setMat_snp (s : State) (g : Nat) (m : Matrix) : (s.setMat g m).snp = s.snp := rfl
@[simp] theorem State.setMat_pwr (s : State) (g : Nat) (m : Matrix) : (s.setMat g m).pwr = s.pwr := rfl
@[simp] theorem State.setMat_sec (s : State) (g : Nat) (m : Matrix) : (s.setMat g m).sec = s.sec := rfl

@[simp] theorem State.setEw_pending (s : State) (c : Nat) (e : Ew) : (s.setEw c e).pending = s.pending := rfl
@[simp] theorem State.setEw_fresh (s : State) (c : Nat) (e : Ew) : (s.setEw c e).fresh = s.fresh := rfl
@[simp] theorem State.setEw_answers (s : State) (c : Nat) (e : Ew) : (s.setEw c e).answers = s.answers := rfl
@[simp] theorem State.setEw_regs (s : State) (c : Nat) (e : Ew) : (s.setEw c e).regs = s.regs := rfl
@[simp] theorem State.setEw_latch (s : State) (c : Nat) (e : Ew) : (s.setEw c e).latch = s.latch := rfl
@[simp] theorem State.setEw_bar2 (s : State) (c : Nat) (e : Ew) : (s.setEw c e).bar2 = s.bar2 := rfl
@[simp] theorem State.setEw_dram (s : State) (c : Nat) (e : Ew) : (s.setEw c e).dram = s.dram := rfl
@[simp] theorem State.setEw_mem (s : State) (c : Nat) (e : Ew) : (s.setEw c e).mem = s.mem := rfl
@[simp] theorem State.setEw_stks (s : State) (c : Nat) (e : Ew) : (s.setEw c e).stks = s.stks := rfl
@[simp] theorem State.setEw_thr (s : State) (c : Nat) (e : Ew) : (s.setEw c e).thr = s.thr := rfl
@[simp] theorem State.setEw_logs (s : State) (c : Nat) (e : Ew) : (s.setEw c e).logs = s.logs := rfl
@[simp] theorem State.setEw_pst (s : State) (c : Nat) (e : Ew) : (s.setEw c e).pst = s.pst := rfl
@[simp] theorem State.setEw_saf (s : State) (c : Nat) (e : Ew) : (s.setEw c e).saf = s.saf := rfl
@[simp] theorem State.setEw_host (s : State) (c : Nat) (e : Ew) : (s.setEw c e).host = s.host := rfl
@[simp] theorem State.setEw_mdl (s : State) (c : Nat) (e : Ew) : (s.setEw c e).mdl = s.mdl := rfl
@[simp] theorem State.setEw_bnd (s : State) (c : Nat) (e : Ew) : (s.setEw c e).bnd = s.bnd := rfl
@[simp] theorem State.setEw_fab (s : State) (c : Nat) (e : Ew) : (s.setEw c e).fab = s.fab := rfl
@[simp] theorem State.setEw_hz (s : State) (c : Nat) (e : Ew) : (s.setEw c e).hz = s.hz := rfl
@[simp] theorem State.setEw_can (s : State) (c : Nat) (e : Ew) : (s.setEw c e).can = s.can := rfl
@[simp] theorem State.setEw_snp (s : State) (c : Nat) (e : Ew) : (s.setEw c e).snp = s.snp := rfl
@[simp] theorem State.setEw_pwr (s : State) (c : Nat) (e : Ew) : (s.setEw c e).pwr = s.pwr := rfl
@[simp] theorem State.setEw_sec (s : State) (c : Nat) (e : Ew) : (s.setEw c e).sec = s.sec := rfl

@[simp] theorem State.draw_pending (s : State) : s.draw.2.pending = s.pending := rfl
@[simp] theorem State.draw_answers (s : State) : s.draw.2.answers = s.answers := rfl
@[simp] theorem State.draw_regs (s : State) : s.draw.2.regs = s.regs := rfl
@[simp] theorem State.draw_latch (s : State) : s.draw.2.latch = s.latch := rfl
@[simp] theorem State.draw_bar2 (s : State) : s.draw.2.bar2 = s.bar2 := rfl
@[simp] theorem State.draw_dram (s : State) : s.draw.2.dram = s.dram := rfl
@[simp] theorem State.draw_mem (s : State) : s.draw.2.mem = s.mem := rfl
@[simp] theorem State.draw_stks (s : State) : s.draw.2.stks = s.stks := rfl
@[simp] theorem State.draw_thr (s : State) : s.draw.2.thr = s.thr := rfl
@[simp] theorem State.draw_logs (s : State) : s.draw.2.logs = s.logs := rfl
@[simp] theorem State.draw_pst (s : State) : s.draw.2.pst = s.pst := rfl
@[simp] theorem State.draw_saf (s : State) : s.draw.2.saf = s.saf := rfl
@[simp] theorem State.draw_host (s : State) : s.draw.2.host = s.host := rfl
@[simp] theorem State.draw_mdl (s : State) : s.draw.2.mdl = s.mdl := rfl
@[simp] theorem State.draw_eng (s : State) : s.draw.2.eng = s.eng := rfl
@[simp] theorem State.draw_bnd (s : State) : s.draw.2.bnd = s.bnd := rfl
@[simp] theorem State.draw_fab (s : State) : s.draw.2.fab = s.fab := rfl
@[simp] theorem State.draw_hz (s : State) : s.draw.2.hz = s.hz := rfl
@[simp] theorem State.draw_can (s : State) : s.draw.2.can = s.can := rfl
@[simp] theorem State.draw_snp (s : State) : s.draw.2.snp = s.snp := rfl
@[simp] theorem State.draw_pwr (s : State) : s.draw.2.pwr = s.pwr := rfl
@[simp] theorem State.draw_sec (s : State) : s.draw.2.sec = s.sec := rfl
@[simp] theorem State.draw_fst (s : State) : s.draw.1 = s.fresh := rfl
@[simp] theorem State.draw_fresh (s : State) : s.draw.2.fresh = s.fresh + 1 := rfl
@[simp] theorem State.setFld_regs (s : State) (f : Fld) (v : Nat) :
    (s.setFld f v).regs = tabSet regDefault s.regs f.key (BitVec.ofNat 64 (putBits (s.cell f.key).toNat f.sh f.w v)) := rfl
@[simp] theorem State.answer_answers (s : State) (a : Answer) : (s.answer a).answers = a :: s.answers := rfl

end Sys2Proof.Machine
end

