-- ==== Sys2Proof/Laws/Tab.lean ====
section
/-! SUPPORT. Laws of the canonical tables: read after write, and that a write keeps the canonical form. -/

namespace Sys2Proof.Machine

variable {α : Type}

theorem tabFind_del_same (t : List (Nat × α)) (k : Nat) : tabFind (tabDel t k) k = none := by
  induction t with
  | nil => rfl
  | cons e t ih =>
    obtain ⟨k', v⟩ := e
    by_cases h : k' = k
    · simpa [tabDel, h] using ih
    · have : (k' != k) = true := by simpa using h
      simpa [tabDel, this, tabFind, h] using ih

theorem tabFind_del_ne (t : List (Nat × α)) {k j : Nat} (hj : j ≠ k) : tabFind (tabDel t k) j = tabFind t j := by
  induction t with
  | nil => rfl
  | cons e t ih =>
    obtain ⟨k', v⟩ := e
    by_cases h : k' = k
    · subst h
      have h' : k' ≠ j := fun e => hj e.symm
      simpa [tabDel, tabFind, h'] using ih
    · have hb : (k' != k) = true := by simpa using h
      by_cases hk : k' = j
      · simp [tabDel, tabFind, hk, hj]
      · simpa [tabDel, hb, tabFind, hk] using ih

theorem tabFind_ins_ne (t : List (Nat × α)) {k j : Nat} (v : α) (hj : j ≠ k) : tabFind (tabIns t k v) j = tabFind t j := by
  induction t with
  | nil => simp [tabIns, tabFind, Ne.symm hj]
  | cons e t ih =>
    obtain ⟨k', v'⟩ := e
    by_cases h : k < k'
    · simp [tabIns, h, tabFind, Ne.symm hj]
    · simp [tabIns, h, tabFind, ih]

theorem tabFind_ins_same (t : List (Nat × α)) (k : Nat) (v : α) (h : tabFind t k = none) :
    tabFind (tabIns t k v) k = some v := by
  induction t with
  | nil => simp [tabIns, tabFind]
  | cons e t ih =>
    obtain ⟨k', v'⟩ := e
    by_cases hk : k' = k
    · simp [tabFind, hk] at h
    · by_cases hl : k < k'
      · simp [tabIns, hl, tabFind]
      · simp only [tabFind, hk, if_false] at h
        simp [tabIns, hl, tabFind, hk, ih h]

@[simp] theorem tabGet_set_same [DecidableEq α] (d : Nat → α) (t : List (Nat × α)) (k : Nat) (v : α) :
    tabGet d (tabSet d t k v) k = v := by
  unfold tabSet tabGet
  split
  · next h => simp [tabFind_del_same, h]
  · simp [tabFind_ins_same _ _ _ (tabFind_del_same t k)]

theorem tabGet_set_ne [DecidableEq α] (d : Nat → α) (t : List (Nat × α)) {k j : Nat} (v : α) (hj : j ≠ k) :
    tabGet d (tabSet d t k v) j = tabGet d t j := by
  unfold tabSet tabGet
  split
  · rw [tabFind_del_ne t hj]
  · rw [tabFind_ins_ne _ v hj, tabFind_del_ne t hj]

@[simp] theorem tabGet_nil (d : Nat → α) (k : Nat) : tabGet d [] k = d k := rfl

theorem tabDel_del (t : List (Nat × α)) (k : Nat) : tabDel (tabDel t k) k = tabDel t k := by
  simp [tabDel, List.filter_filter]

theorem tabDel_ins (t : List (Nat × α)) (k : Nat) (v : α) : tabDel (tabIns t k v) k = tabDel t k := by
  induction t with
  | nil => simp [tabDel, tabIns]
  | cons e t ih =>
    obtain ⟨k', v'⟩ := e
    by_cases h : k < k'
    · simp [tabIns, h, tabDel]
    · simp only [tabDel] at ih
      simp [tabIns, h, tabDel, List.filter_cons, ih]

/-- The later write stands. -/
theorem tabSet_set [DecidableEq α] (d : Nat → α) (t : List (Nat × α)) (k : Nat) (v w : α) :
    tabSet d (tabSet d t k v) k w = tabSet d t k w := by
  have h : tabDel (tabSet d t k v) k = tabDel t k := by
    unfold tabSet; split
    · exact tabDel_del t k
    · rw [tabDel_ins, tabDel_del]
  unfold tabSet at h ⊢
  rw [h]

theorem tabWfFrom_mono [DecidableEq α] (d : Nat → α) {t : List (Nat × α)} {a b : Nat} (h : a ≤ b)
    (hw : tabWfFrom d b t = true) : tabWfFrom d a t = true := by
  cases t with
  | nil => rfl
  | cons e t =>
    obtain ⟨k, v⟩ := e
    simp only [tabWfFrom, Bool.and_eq_true, decide_eq_true_eq] at hw ⊢
    exact ⟨⟨by omega, hw.1.2⟩, hw.2⟩

theorem tabWfFrom_del [DecidableEq α] (d : Nat → α) (k : Nat) (t : List (Nat × α)) :
    ∀ lo, tabWfFrom d lo t = true → tabWfFrom d lo (tabDel t k) = true := by
  induction t with
  | nil => intro lo _; rfl
  | cons e t ih =>
    obtain ⟨k', v⟩ := e
    intro lo hw
    simp only [tabWfFrom, Bool.and_eq_true, decide_eq_true_eq] at hw
    by_cases h : k' = k
    · have := tabWfFrom_mono d (show lo ≤ k' + 1 by omega) (ih _ hw.2)
      simpa [tabDel, h] using this
    · have hb : (k' != k) = true := by simpa using h
      have h2 := ih _ hw.2
      simp only [tabDel, List.filter_cons, hb, if_true] at h2 ⊢
      simp [tabWfFrom, hw.1.1, hw.1.2, h2]

theorem tabWfFrom_ins [DecidableEq α] (d : Nat → α) (k : Nat) (v : α) (hv : v ≠ d k) (t : List (Nat × α)) :
    ∀ lo, lo ≤ k → tabFind t k = none → tabWfFrom d lo t = true → tabWfFrom d lo (tabIns t k v) = true := by
  induction t with
  | nil => intro lo hlo _ _; simp [tabIns, tabWfFrom, hlo, hv]
  | cons e t ih =>
    obtain ⟨k', v'⟩ := e
    intro lo hlo hf hw
    simp only [tabWfFrom, Bool.and_eq_true, decide_eq_true_eq] at hw
    by_cases hk : k' = k
    · simp [tabFind, hk] at hf
    · simp only [tabFind, hk, if_false] at hf
      by_cases hl : k < k'
      · simp [tabIns, hl, tabWfFrom, hlo, hv, hw.1.2, hw.2, Nat.succ_le_of_lt hl]
      · have h2 := ih (k' + 1) (by omega) hf hw.2
        simp [tabIns, hl, tabWfFrom, hw.1.1, hw.1.2, h2]

/-- A write keeps the canonical form. -/
theorem tabWf_set [DecidableEq α] (d : Nat → α) (t : List (Nat × α)) (k : Nat) (v : α) (h : tabWf d t = true) :
    tabWf d (tabSet d t k v) = true := by
  unfold tabSet
  split
  · exact tabWfFrom_del d k t 0 h
  · next hv =>
    exact tabWfFrom_ins d k v hv _ 0 (Nat.zero_le _) (tabFind_del_same t k) (tabWfFrom_del d k t 0 h)

end Sys2Proof.Machine
end

