-- ==== Sys2Proof/Laws/Fields.lean ====
section
/-! SUPPORT. Laws of register fields: a field reads what was written, and a write leaves every field apart from it alone. -/

namespace Sys2Proof.Machine

theorem putBits_parts (old sh w v : Nat) :
    putBits old sh w v = old / 2 ^ (sh + w) * 2 ^ (sh + w) + (v % 2 ^ w) * 2 ^ sh + old % 2 ^ sh := by
  unfold putBits
  rw [Nat.shiftRight_eq_div_pow, Nat.shiftLeft_eq, Nat.shiftLeft_eq]
  have h1 : old = 2 ^ sh * (old / 2 ^ sh) + old % 2 ^ sh := (Nat.div_add_mod old (2 ^ sh)).symm
  have h2 : old / 2 ^ sh = 2 ^ w * (old / 2 ^ sh / 2 ^ w) + old / 2 ^ sh % 2 ^ w := (Nat.div_add_mod _ _).symm
  have h3 : old / 2 ^ sh / 2 ^ w = old / 2 ^ (sh + w) := by rw [Nat.div_div_eq_div_mul, Nat.pow_add]
  rw [h3] at h2
  have h4 : old = old / 2 ^ (sh + w) * 2 ^ (sh + w) + old / 2 ^ sh % 2 ^ w * 2 ^ sh + old % 2 ^ sh := by
    calc old = 2 ^ sh * (old / 2 ^ sh) + old % 2 ^ sh := h1
      _ = 2 ^ sh * (2 ^ w * (old / 2 ^ (sh + w)) + old / 2 ^ sh % 2 ^ w) + old % 2 ^ sh := by rw [← h2]
      _ = _ := by rw [Nat.pow_add]; ring
  omega

theorem putBits_lt {old sh w v n : Nat} (h : old < 2 ^ n) (hw : sh + w ≤ n) : putBits old sh w v < 2 ^ n := by
  rw [putBits_parts]
  have h1 : v % 2 ^ w < 2 ^ w := Nat.mod_lt _ (by positivity)
  have h2 : old % 2 ^ sh < 2 ^ sh := Nat.mod_lt _ (by positivity)
  have h3 : old / 2 ^ (sh + w) < 2 ^ (n - (sh + w)) := by
    rw [Nat.div_lt_iff_lt_mul (by positivity), ← Nat.pow_add]
    simpa [Nat.sub_add_cancel hw] using h
  have e : 2 ^ n = 2 ^ (n - (sh + w)) * 2 ^ (sh + w) := by rw [← Nat.pow_add, Nat.sub_add_cancel hw]
  have a : (v % 2 ^ w) * 2 ^ sh + old % 2 ^ sh < 2 ^ (sh + w) := by
    rw [Nat.pow_add]
    have : (v % 2 ^ w + 1) * 2 ^ sh ≤ 2 ^ w * 2 ^ sh := Nat.mul_le_mul_right _ h1
    nlinarith [this]
  have b : (old / 2 ^ (sh + w) + 1) * 2 ^ (sh + w) ≤ 2 ^ (n - (sh + w)) * 2 ^ (sh + w) := Nat.mul_le_mul_right _ h3
  rw [e]
  nlinarith [a, b]

theorem putBits_get (old sh w v : Nat) : (putBits old sh w v >>> sh) % 2 ^ w = v % 2 ^ w := by
  rw [putBits_parts, Nat.shiftRight_eq_div_pow, Nat.pow_add]
  have h2 : old % 2 ^ sh < 2 ^ sh := Nat.mod_lt _ (by positivity)
  have : old / (2 ^ sh * 2 ^ w) * (2 ^ sh * 2 ^ w) + v % 2 ^ w * 2 ^ sh + old % 2 ^ sh =
      2 ^ sh * (2 ^ w * (old / (2 ^ sh * 2 ^ w)) + v % 2 ^ w) + old % 2 ^ sh := by ring
  rw [this, Nat.mul_add_div (by positivity), Nat.div_eq_of_lt h2, Nat.add_zero, Nat.mul_add_mod, Nat.mod_mod]

theorem putBits_above (old : Nat) {sh w v sh' : Nat} (h : sh + w ≤ sh') : putBits old sh w v >>> sh' = old >>> sh' := by
  rw [putBits_parts, Nat.shiftRight_eq_div_pow, Nat.shiftRight_eq_div_pow]
  obtain ⟨k, rfl⟩ := Nat.exists_eq_add_of_le h
  have h1 : v % 2 ^ w < 2 ^ w := Nat.mod_lt _ (by positivity)
  have h2 : old % 2 ^ sh < 2 ^ sh := Nat.mod_lt _ (by positivity)
  have a : (v % 2 ^ w) * 2 ^ sh + old % 2 ^ sh < 2 ^ (sh + w) := by
    rw [Nat.pow_add]
    have : (v % 2 ^ w + 1) * 2 ^ sh ≤ 2 ^ w * 2 ^ sh := Nat.mul_le_mul_right _ h1
    nlinarith [this]
  rw [Nat.pow_add 2 (sh + w) k, ← Nat.div_div_eq_div_mul, ← Nat.div_div_eq_div_mul]
  have : old / 2 ^ (sh + w) * 2 ^ (sh + w) + v % 2 ^ w * 2 ^ sh + old % 2 ^ sh =
      2 ^ (sh + w) * (old / 2 ^ (sh + w)) + (v % 2 ^ w * 2 ^ sh + old % 2 ^ sh) := by ring
  rw [this, Nat.mul_add_div (by positivity), Nat.div_eq_of_lt a, Nat.add_zero]

theorem putBits_below (old : Nat) {sh w v n : Nat} (h : n ≤ sh) : putBits old sh w v % 2 ^ n = old % 2 ^ n := by
  obtain ⟨k, rfl⟩ := Nat.exists_eq_add_of_le h
  rw [putBits_parts]
  have : old / 2 ^ (n + k + w) * 2 ^ (n + k + w) + v % 2 ^ w * 2 ^ (n + k) + old % 2 ^ (n + k) =
      2 ^ n * (old / 2 ^ (n + k + w) * 2 ^ (k + w) + v % 2 ^ w * 2 ^ k) + old % 2 ^ (n + k) := by
    rw [show n + k + w = n + (k + w) by omega, Nat.pow_add 2 n (k + w), Nat.pow_add 2 n k]; ring
  rw [this, Nat.mul_add_mod, Nat.mod_mod_of_dvd _ (pow_dvd_pow 2 (Nat.le_add_right n k))]

/-! ### Fields -/

/-- A field lies within its cell. -/
def Fld.ok (f : Fld) : Bool := decide (f.sh + f.w ≤ 64)

/-- Two fields share no bit. -/
def Fld.apart (f g : Fld) : Bool :=
  decide (f.key ≠ g.key) || decide (f.sh + f.w ≤ g.sh) || decide (g.sh + g.w ≤ f.sh)

@[simp] theorem State.cell_setCell_same (s : State) (k : Nat) (v : W64) : (s.setCell k v).cell k = v := by
  simp [State.cell, State.setCell]

theorem State.cell_setCell_ne (s : State) {k j : Nat} (v : W64) (h : j ≠ k) : (s.setCell k v).cell j = s.cell j := by
  simp [State.cell, State.setCell, tabGet_set_ne _ _ _ h]

theorem State.cell_setFld_same (s : State) {f : Fld} (v : Nat) (hf : f.ok = true) :
    ((s.setFld f v).cell f.key).toNat = putBits (s.cell f.key).toNat f.sh f.w v := by
  have hf' : f.sh + f.w ≤ 64 := by simpa [Fld.ok] using hf
  simp only [State.setFld, State.cell_setCell_same, BitVec.toNat_ofNat]
  exact Nat.mod_eq_of_lt (putBits_lt (s.cell f.key).isLt hf')

/-- A field reads what was written, cut to its width. -/
theorem State.fld_setFld_same (s : State) {f : Fld} (v : Nat) (hf : f.ok = true) : (s.setFld f v).fld f = v % 2 ^ f.w := by
  rw [State.fld, State.cell_setFld_same s v hf, putBits_get]

/-- A write to a field leaves a field apart from it alone. -/
theorem State.fld_setFld_apart (s : State) {f g : Fld} (v : Nat) (hf : f.ok = true) (h : f.apart g = true) :
    (s.setFld f v).fld g = s.fld g := by
  by_cases hk : f.key = g.key
  · have h2 : f.sh + f.w ≤ g.sh ∨ g.sh + g.w ≤ f.sh := by simpa [Fld.apart, hk] using h
    unfold State.fld
    rw [← hk, State.cell_setFld_same s v hf]
    rcases h2 with h2 | h2
    · rw [putBits_above _ h2]
    · rw [Nat.shiftRight_eq_div_pow, Nat.shiftRight_eq_div_pow, ← Nat.mod_mul_right_div_self, ← Nat.mod_mul_right_div_self,
        ← Nat.pow_add, putBits_below _ h2]
  · unfold State.fld State.setFld
    rw [State.cell_setCell_ne _ _ (Ne.symm hk)]

theorem State.flag_setFlag_same (s : State) {f : Fld} (b : Bool) (hf : f.ok = true) (hw : f.w = 1) :
    (s.setFlag f b).flag f = b := by
  unfold State.flag State.setFlag
  rw [State.fld_setFld_same s _ hf, hw]
  cases b <;> rfl

theorem State.flag_setFlag_apart (s : State) {f g : Fld} (b : Bool) (hf : f.ok = true) (h : f.apart g = true) :
    (s.setFlag f b).flag g = s.flag g := by
  unfold State.flag State.setFlag
  rw [State.fld_setFld_apart s _ hf h]

theorem State.fld_setFlag_apart (s : State) {f g : Fld} (b : Bool) (hf : f.ok = true) (h : f.apart g = true) :
    (s.setFlag f b).fld g = s.fld g := State.fld_setFld_apart s _ hf h

/-! ### Updates that leave the register cells alone -/

theorem State.cell_congr {s s' : State} (h : s'.regs = s.regs) (k : Nat) : s'.cell k = s.cell k := by
  unfold State.cell; rw [h]

theorem State.fld_congr {s s' : State} (h : s'.regs = s.regs) (f : Fld) : s'.fld f = s.fld f := by
  unfold State.fld; rw [State.cell_congr h]

theorem State.flag_congr {s s' : State} (h : s'.regs = s.regs) (f : Fld) : s'.flag f = s.flag f := by
  unfold State.flag; rw [State.fld_congr h]

end Sys2Proof.Machine
end

