-- ==== Sys2Proof/Laws/Memory.lean ====
section
/-! SUPPORT. Laws of the byte operations over DRAM and BAR2: read after write, and that every one of them keeps the canonical form. -/

namespace Sys2Proof.Machine

@[simp] theorem State.dramByte_set_same (s : State) (k : Nat) (b : Byte) : (s.setDramByte k b).dramByte k = b := by
  simp [State.dramByte, State.setDramByte]

theorem State.dramByte_set_ne (s : State) {k j : Nat} (b : Byte) (h : j ≠ k) : (s.setDramByte k b).dramByte j = s.dramByte j := by
  simp [State.dramByte, State.setDramByte, tabGet_set_ne _ _ _ h]

@[simp] theorem State.barByte_set_same (s : State) (k : Nat) (b : Byte) : (s.setBarByte k b).barByte k = b := by
  simp [State.barByte, State.setBarByte]

theorem State.barByte_set_ne (s : State) {k j : Nat} (b : Byte) (h : j ≠ k) : (s.setBarByte k b).barByte j = s.barByte j := by
  simp [State.barByte, State.setBarByte, tabGet_set_ne _ _ _ h]

/-- A store of bytes leaves every key outside them alone. -/
theorem State.dramByte_putDram_out (bs : List Byte) : ∀ (s : State) (k j : Nat), j < k ∨ k + bs.length ≤ j →
    (s.putDram k bs).dramByte j = s.dramByte j := by
  induction bs with
  | nil => intro s k j _; rfl
  | cons b bs ih =>
    intro s k j h
    simp only [List.length_cons] at h
    rw [State.putDram, ih _ _ _ (by omega), State.dramByte_set_ne _ _ (by omega)]

/-- A store of bytes is read back. -/
theorem State.dramByte_putDram_in (bs : List Byte) : ∀ (s : State) (k i : Nat) (h : i < bs.length),
    (s.putDram k bs).dramByte (k + i) = bs[i] := by
  induction bs with
  | nil => intro s k i h; simp at h
  | cons b bs ih =>
    intro s k i h
    rw [State.putDram]
    cases i with
    | zero => rw [State.dramByte_putDram_out _ _ _ _ (by omega)]; simp
    | succ i =>
      have h' : i < bs.length := by simpa using h
      have := ih (s.setDramByte k b) (k + 1) i h'
      rw [show k + (i + 1) = k + 1 + i by omega, this]; simp

theorem State.barByte_putBar_out (bs : List Byte) : ∀ (s : State) (k j : Nat), j < k ∨ k + bs.length ≤ j →
    (s.putBar k bs).barByte j = s.barByte j := by
  induction bs with
  | nil => intro s k j _; rfl
  | cons b bs ih =>
    intro s k j h
    simp only [List.length_cons] at h
    rw [State.putBar, ih _ _ _ (by omega), State.barByte_set_ne _ _ (by omega)]

theorem State.barByte_putBar_in (bs : List Byte) : ∀ (s : State) (k i : Nat) (h : i < bs.length),
    (s.putBar k bs).barByte (k + i) = bs[i] := by
  induction bs with
  | nil => intro s k i h; simp at h
  | cons b bs ih =>
    intro s k i h
    rw [State.putBar]
    cases i with
    | zero => rw [State.barByte_putBar_out _ _ _ _ (by omega)]; simp
    | succ i =>
      have h' : i < bs.length := by simpa using h
      have := ih (s.setBarByte k b) (k + 1) i h'
      rw [show k + (i + 1) = k + 1 + i by omega, this]; simp

/-! ### Canonical form -/

theorem State.memWf_iff (s : State) :
    s.memWf = true ↔ tabWf dramDefault s.dram = true ∧ tabWf barDefault s.bar2 = true ∧ tabWf regDefault s.regs = true := by
  simp [State.memWf, and_assoc]

/-- The canonical form depends on DRAM, BAR2 and the register cells alone. -/
theorem State.memWf_congr {s s' : State} (hd : s'.dram = s.dram) (hb : s'.bar2 = s.bar2) (hr : s'.regs = s.regs) :
    s'.memWf = s.memWf := by
  unfold State.memWf; rw [hd, hb, hr]

theorem State.memWf_setCell {s : State} (k : Nat) (v : W64) (h : s.memWf = true) : (s.setCell k v).memWf = true := by
  rw [State.memWf_iff] at h ⊢
  exact ⟨h.1, h.2.1, tabWf_set _ _ _ _ h.2.2⟩

theorem State.memWf_setFld {s : State} (f : Fld) (v : Nat) (h : s.memWf = true) : (s.setFld f v).memWf = true :=
  State.memWf_setCell _ _ h

theorem State.memWf_setFlag {s : State} (f : Fld) (b : Bool) (h : s.memWf = true) : (s.setFlag f b).memWf = true :=
  State.memWf_setCell _ _ h

theorem State.memWf_setDramByte {s : State} (k : Nat) (b : Byte) (h : s.memWf = true) : (s.setDramByte k b).memWf = true := by
  rw [State.memWf_iff] at h ⊢
  exact ⟨tabWf_set _ _ _ _ h.1, h.2.1, h.2.2⟩

theorem State.memWf_setBarByte {s : State} (k : Nat) (b : Byte) (h : s.memWf = true) : (s.setBarByte k b).memWf = true := by
  rw [State.memWf_iff] at h ⊢
  exact ⟨h.1, tabWf_set _ _ _ _ h.2.1, h.2.2⟩

theorem State.memWf_putDram (bs : List Byte) : ∀ {s : State} (k : Nat), s.memWf = true → (s.putDram k bs).memWf = true := by
  induction bs with
  | nil => intro s k h; exact h
  | cons b bs ih => intro s k h; exact ih (k + 1) (State.memWf_setDramByte k b h)

theorem State.memWf_putBar (bs : List Byte) : ∀ {s : State} (k : Nat), s.memWf = true → (s.putBar k bs).memWf = true := by
  induction bs with
  | nil => intro s k h; exact h
  | cons b bs ih => intro s k h; exact ih (k + 1) (State.memWf_setBarByte k b h)

end Sys2Proof.Machine
end

