-- ==== Sys2Proof/Laws/Threads.lean ====
section
/-! SUPPORT. Laws of contexts and of issue: what a context reads after an update, and what an instruction that issues does. -/

namespace Sys2Proof.Machine

theorem Tid.num_lt {t : Tid} (h : t.valid = true) : t.num < 65536 := by
  obtain ⟨k, n⟩ := t
  have : n < k.count := by simpa [Tid.valid] using h
  cases k <;> simp [TKind.count] at this ⊢ <;> omega

/-- Valid threads have different handles (R55). -/
theorem Tid.handle_inj {t u : Tid} (ht : t.valid = true) (hu : u.valid = true) (h : t.handle = u.handle) : t = u := by
  have h1 := Tid.num_lt ht
  have h2 := Tid.num_lt hu
  obtain ⟨k, n⟩ := t
  obtain ⟨k', n'⟩ := u
  simp only [Tid.handle] at h h1 h2
  have hk : k.code = k'.code := by omega
  have hn : n = n' := by omega
  subst hn
  cases k <;> cases k' <;> first | rfl | (simp [TKind.code] at hk)

@[simp] theorem State.ctx_setCtx_same (s : State) (t : Tid) (c : Ctx) : (s.setCtx t c).ctx t = c := by
  simp [State.ctx, State.setCtx]

theorem State.ctx_setCtx_ne (s : State) {t u : Tid} (c : Ctx) (h : u.handle ≠ t.handle) : (s.setCtx t c).ctx u = s.ctx u := by
  simp [State.ctx, State.setCtx, tabGet_set_ne _ _ _ h]

@[simp] theorem State.ctx_modCtx_same (s : State) (t : Tid) (f : Ctx → Ctx) : (s.modCtx t f).ctx t = f (s.ctx t) := by
  simp [State.modCtx]

theorem State.ctx_modCtx_ne (s : State) {t u : Tid} (f : Ctx → Ctx) (h : u.handle ≠ t.handle) : (s.modCtx t f).ctx u = s.ctx u := by
  simp [State.modCtx, State.ctx_setCtx_ne _ _ h]

/-- The contexts depend on the thread state alone. -/
theorem State.ctx_congr {s s' : State} (h : s'.thr = s.thr) (t : Tid) : s'.ctx t = s.ctx t := by
  unfold State.ctx; rw [h]

@[simp] theorem State.ctx_setFld (s : State) (f : Fld) (v : Nat) (t : Tid) : (s.setFld f v).ctx t = s.ctx t := rfl
@[simp] theorem State.ctx_setFlag (s : State) (f : Fld) (b : Bool) (t : Tid) : (s.setFlag f b).ctx t = s.ctx t := rfl
@[simp] theorem State.ctx_draw (s : State) (t : Tid) : s.draw.2.ctx t = s.ctx t := rfl
@[simp] theorem State.ctx_setMat (s : State) (g : Nat) (m : Matrix) (t : Tid) : (s.setMat g m).ctx t = s.ctx t := rfl
@[simp] theorem State.ctx_setEw (s : State) (c : Nat) (e : Ew) (t : Tid) : (s.setEw c e).ctx t = s.ctx t := rfl

/-- The later write of a context stands. -/
@[simp] theorem State.setCtx_setCtx (s : State) (t : Tid) (c d : Ctx) : (s.setCtx t c).setCtx t d = s.setCtx t d := by
  simp [State.setCtx, tabSet_set]

@[simp] theorem State.modCtx_setCtx (s : State) (t : Tid) (c : Ctx) (f : Ctx → Ctx) : (s.setCtx t c).modCtx t f = s.setCtx t (f c) := by
  simp [State.modCtx]

/-! ### Registers of a context -/

@[simp] theorem Ctx.ga_sa_same (c : Ctx) (r : Nat) (v : W64) : (c.sa r v).ga r = v := by simp [Ctx.ga, Ctx.sa]
theorem Ctx.ga_sa_ne (c : Ctx) {r q : Nat} (v : W64) (h : q ≠ r) : (c.sa r v).ga q = c.ga q := by
  simp [Ctx.ga, Ctx.sa, tabGet_set_ne _ _ _ h]
@[simp] theorem Ctx.gf_sf_same (c : Ctx) (r : Nat) (v : W64) : (c.sf r v).gf r = v := by simp [Ctx.gf, Ctx.sf]
theorem Ctx.gf_sf_ne (c : Ctx) {r q : Nat} (v : W64) (h : q ≠ r) : (c.sf r v).gf q = c.gf q := by
  simp [Ctx.gf, Ctx.sf, tabGet_set_ne _ _ _ h]
@[simp] theorem Ctx.gv_sv_same (c : Ctx) (r : Nat) (v : BitVec 1024) : (c.sv r v).gv r = v := by simp [Ctx.gv, Ctx.sv]
theorem Ctx.gv_sv_ne (c : Ctx) {r q : Nat} (v : BitVec 1024) (h : q ≠ r) : (c.sv r v).gv q = c.gv q := by
  simp [Ctx.gv, Ctx.sv, tabGet_set_ne _ _ _ h]
/-- k0 reads all ones and ignores writes (R48). -/
theorem Ctx.gk_zero (c : Ctx) : c.gk 0 = BitVec.allOnes 128 := rfl
theorem Ctx.sk_zero (c : Ctx) (v : BitVec 128) : c.sk 0 v = c := rfl
theorem Ctx.gk_sk_same (c : Ctx) {r : Nat} (v : BitVec 128) (h : r ≠ 0) : (c.sk r v).gk r = v := by simp [Ctx.gk, Ctx.sk, h]
theorem Ctx.gk_sk_ne (c : Ctx) {r q : Nat} (v : BitVec 128) (h : q ≠ r) : (c.sk r v).gk q = c.gk q := by
  by_cases hr : r = 0
  · subst hr; rfl
  · by_cases hq : q = 0
    · subst hq; rfl
    · simp [Ctx.gk, Ctx.sk, hr, hq, tabGet_set_ne _ _ _ h]

/-! ### Issue -/

/-- An instruction that issues runs its body and settles what becomes of it. -/
theorem State.Issues.issue {s s1 : State} {t : Tid} {p : Prof} {tgt : Target} (h : s.Issues t p tgt s1) (i : Instr)
    (body : State → TRes) : s.issue t i p body = State.settle t i (body s1) := by
  obtain ⟨h1, h2, h3, h4, h5, h6, h7, h8, _⟩ := h
  unfold State.issue
  have hc : ¬((!t.valid) = true ∨ (s.ctx t).st ≠ CtxSt.ready ∨ s.debugHeld t.handle = true) := by simp [h1, h2, h3]
  rw [if_neg hc]
  unfold State.unstep
  rw [if_neg (by rw [h4]; decide)]
  simp only [h5]
  rw [if_neg (by simpa using h6)]
  simp only [h7, h8, if_true]

/-- A body that retires, with no stop pending. -/
theorem State.settle_done {s : State} {t : Tid} (i : Instr) (h : (s.ctx t).stopPending = false) :
    State.settle t i (.done s) = s.modCtx t Ctx.retired := by
  simp [State.settle, Ctx.retired, h]

/-- An instruction that only writes its own context. -/
theorem State.Issues.issueCtx {s s1 : State} {t : Tid} {p : Prof} {tgt : Target} (h : s.Issues t p tgt s1) (i : Instr)
    {f : Ctx → Option Ctx} {c : Ctx} (hf : f (s1.ctx t) = some c) (hc : c.stopPending = false) :
    s.issueCtx t i p f = s1.setCtx t c.retired := by
  rw [State.issueCtx, h.issue, hf]
  simp only
  rw [State.settle_done _ (by simpa using hc), State.modCtx_setCtx]

@[simp] theorem State.settle_fault (s : State) (t : Tid) (i : Instr) (f : FaultArg) :
    State.settle t i (.fault s f) = s.takeFault t f := rfl
@[simp] theorem State.settle_wait (s : State) (t : Tid) (i : Instr) (aw : Await) :
    State.settle t i (.wait s aw) = s.modCtx t fun c => c.waiting i aw := rfl
@[simp] theorem State.settle_jump (s : State) (t : Tid) (i : Instr) : State.settle t i (.jump s) = s := rfl

/-- A context that is not READY does not issue. -/
theorem State.issue_not_ready {s : State} {t : Tid} (i : Instr) (p : Prof) (body : State → TRes) (h : (s.ctx t).st ≠ .ready) :
    s.issue t i p body = s := by
  unfold State.issue; rw [if_pos (by tauto)]

end Sys2Proof.Machine
end

