-- ==== Sys2Proof/Machine/Words.lean ====
section
/-! DEFINITION. A thread's instruction given as its 32-bit word (R53): a library over `exec`, since the commands of the table are
the instructions already decoded. -/

namespace Sys2Proof.Machine

/-- A thread issues the instruction a word spells; an unassigned encoding raises ILLEGAL_INSN; of a word whose code the spec does not
give, nothing is said (assumption log 125). -/
def runWord (t : Tid) (w : W32) (s : State) : Option (Host.Outcome State Fault Refusal) :=
  match decodeInsn t w with
  | .insn i => some (exec i s)
  | .illegal => some (exec (illegalInsn t) s)
  | .notGiven => none

end Sys2Proof.Machine
end

