-- ==== Sys2Proof/Tests/Slice0.lean ====
section
/-! SUPPORT. Tests of the model: a smoke test of well-formedness, with an ill-formed term for each check; for the statements, concrete
states and operands that meet their hypotheses (`wit_…`); for the commands, single steps on small states whose results are taken from the
spec's rules and tables (`test_…`). -/

open Sys2Proof Sys2Proof.Machine

namespace Sys2Proof.Tests

set_option Elab.async false

/-! ### Small states -/

/-- The state that a command leaves has the property. -/
def leaves (c : Instr) (s : State) (q : State → Bool) : Bool :=
  match exec c s with
  | .next u => q u
  | _ => false

/-- The state after a command. -/
def aft (s : State) (c : Instr) : State :=
  match exec c s with
  | .next u => u
  | _ => s

/-- A command leaves the state as it is. -/
def idles (c : Instr) (s : State) : Bool := leaves c s fun u => decide (u = s)

/-- A package in normal operation, in the Active state, with both links of its owners up, as BS8 leaves it. -/
def runS : State := { State.reset with pwr := { PwrSt.starting with mode := .run, mctp := true }, regs := [(16392, 249), (24584, 2)] }
theorem runS_is : runS.fld fBoot_STAGE = 9 ∧ runS.fld fPwr_STATE = 1 ∧ runS.fld fCxl_RATE = 2 := by decide +kernel

/-- A page table at DRAM 0x1000 that maps virtual addresses 0 to 1 GiB - 1 to stack 0 from 1 GiB up, for every kind of access. -/
def tables : List (Nat × Byte) :=
  [(0x1000, 0x01), (0x1001, 0x20), (0x2000, 0x01), (0x2001, 0x30), (0x3000, 0x9F), (0x3001, 0x01), (0x3003, 0x40)]

/-- Memory cells that hold bytes from an address on: those that are not 0. -/
def cells (k : Nat) (bs : List Byte) : List (Nat × Byte) :=
  ((List.range bs.length).map fun i => (k + i, bs.getD i 0)).filter fun e => e.2 != 0

/-- The package with the page table in force. -/
def mapS : State := { runS with dram := tables, regs := [(10, 4096), (16392, 249), (24584, 2)] }
theorem mapS_is : mapS.fld fPkg_TROOT = 0x1000 := by decide +kernel

/-- Job 0x11 is present. -/
def jobS : State := { runS with dram := tables, regs := [(9, 65553), (10, 4096), (16392, 249), (24584, 2)] }
theorem jobS_is : jobS.fld fPkg_JOB = 0x11 ∧ jobS.flag fPkg_JOB_PRESENT = true ∧ jobS.fld fPkg_TROOT = 0x1000 := by decide +kernel

/-- A READY context of job 0x11 at 0x100. -/
def readyC : Ctx := { Ctx.idle with st := .ready, pc := 0x100, job := 0x11 }

/-- Control thread 0, grove thread 0, near thread 0, and control thread 2, which acts as a second thread. -/
def tc : Tid := ⟨.control, 0⟩
def tg : Tid := ⟨.grove, 0⟩
def tn : Tid := ⟨.near, 0⟩
def tx : Tid := ⟨.control, 2⟩

/-- A control thread at job level is READY. -/
def ctlS : State := jobS.setCtx tc readyC
/-- A control thread at supervisor level is READY. -/
def supS : State := jobS.setCtx tc { readyC with sup := true }
/-- A grove thread is READY. -/
def grvS : State := jobS.setCtx tg readyC
/-- A near thread is READY. -/
def nearS : State := jobS.setCtx tn readyC

/-- The place of its instruction at 0x100. -/
def code : Target := .dram 0x40000100

/-- A read or write of memory is performed. -/
def ok (r : MRes × State) : Bool := match r.1 with | .ok _ => true | _ => false
/-- The bytes that a read gives. -/
def got (r : MRes × State) : List Byte := match r.1 with | .ok b => b | _ => []
/-- It is then answered with some bytes and some state, as statements name them. -/
theorem ok_spec (r : MRes × State) (h : ok r = true) : ∃ b s, r = (.ok b, s) := by
  obtain ⟨m, s⟩ := r
  cases m <;> simp_all [ok]

/-- A group with its member count, rank and job in the group table. -/
def putGroup (s : State) (g nmem rank job : Nat) : State :=
  (((s.putBarNat (groupOff g + 2) 2 nmem).putBarNat (groupOff g + 4) 2 rank).putBarNat (groupOff g + 6) 2 job).putBarNat (groupOff g + 40) 1 1

/-- No injection is armed where no BLK_ERRINJ cell is listed. -/
theorem no_arm (s : State) (h : s.regs.all (fun e => e.1 % 512 != 4) = true) : ∀ p, s.flag (fInj_ARM p) = false := by
  have key : ∀ l : List (Nat × W64), l.all (fun e => e.1 % 512 != 4) = true → ∀ p, tabFind l (p * 512 + 4) = none := by
    intro l
    induction l with
    | nil => intro _ _; rfl
    | cons e l ih =>
      intro h p
      simp only [List.all_cons, Bool.and_eq_true, bne_iff_ne, ne_eq] at h
      obtain ⟨k, v⟩ := e
      have : k ≠ p * 512 + 4 := by intro e; apply h.1; simp only [e]; omega
      simp only [tabFind, this, if_false]
      exact ih h.2 p
  have small : ∀ p : Fin 512, (cellReset p 4).toNat % 2 = 0 := by decide +kernel
  intro p
  have hk : (fInj_ARM p).key = p * 512 + 4 := by simp [Fld.key, fInj_ARM]
  have hd : (regDefault (p * 512 + 4)).toNat % 2 = 0 := by
    have h1 : (p * 512 + 4) / 512 = p := by omega
    have h2 : (p * 512 + 4) % 512 = 4 := by omega
    simp only [regDefault, h1, h2]
    by_cases hp : p < 512
    · exact small ⟨p, hp⟩
    · have : pageBlk p = none := by
        unfold pageBlk
        repeat rw [if_neg (by omega)]
      simp [cellReset, pageFields, this]
  simp only [State.flag, State.fld, State.cell, hk, tabGet, key _ h p, Option.getD_none]
  have : (fInj_ARM p).sh = 0 := by simp [Fld.sh, fInj_ARM]
  have : (fInj_ARM p).w = 1 := by simp [Fld.w, fInj_ARM]
  simp_all

/-- A thread issues: each of its conditions is decided. -/
theorem issues_of (s : State) (t : Tid) (p : Prof) (tgt : Target) (h1 : t.valid = true) (h2 : (s.ctx t).st = .ready)
    (h3 : s.debugHeld t.handle = false) (h4 : s.sec.stepping.contains t.handle = false) (h5 : (s.ctx t).late = none)
    (h6 : p.work = false ∨ s.boundary = false) (h7 : s.fetch t = (.ok tgt, s)) (h8 : p.admits t (s.ctx t).sup = true)
    (h9 : (s.ctx t).stopPending = false) : s.Issues t p tgt s :=
  ⟨h1, h2, h3, h4, h5, by rcases h6 with h | h <;> simp [h], h7, h8, h9⟩

theorem ctlS_all : ctlS.Issues tc profAll code ctlS := by apply issues_of <;> decide +kernel
theorem ctlS_work : ctlS.Issues tc profWork code ctlS := by apply issues_of <;> decide +kernel
theorem ctlS_control : ctlS.Issues tc profControl code ctlS := by apply issues_of <;> decide +kernel
theorem supS_sup : supS.Issues tc profSup code supS := by apply issues_of <;> decide +kernel
theorem supS_supWork : supS.Issues tc profSupWork code supS := by apply issues_of <;> decide +kernel
theorem supS_work : supS.Issues tc profWork code supS := by apply issues_of <;> decide +kernel
theorem grvS_engine : grvS.Issues tg profEngine code grvS := by apply issues_of <;> decide +kernel
theorem grvS_work : grvS.Issues tg profWork code grvS := by apply issues_of <;> decide +kernel
theorem nearS_vec : nearS.Issues tn { work := false } code nearS := by apply issues_of <;> decide +kernel
theorem nearS_work : nearS.Issues tn { work := true } code nearS := by apply issues_of <;> decide +kernel

/-- A slice of zeros has no byte that is not 0. -/
theorem zero_slice (l : List Byte) (h : l.all (· == 0) = true) (o w : Nat) : (sliceB l o w).any (· != 0) = false := by
  have hz : ∀ x ∈ l, x = 0 := by simpa using h
  have : ∀ i, l.getD i 0 = 0 := by
    intro i
    by_cases hi : i < l.length
    · rw [List.getD_eq_getElem?_getD, List.getElem?_eq_getElem hi]; exact hz _ (List.getElem_mem hi)
    · rw [List.getD_eq_getElem?_getD, List.getElem?_eq_none (by omega)]; rfl
  simpa [sliceB] using fun i _ => this (o + i)

/-- A remote context in use. -/
def outCtx (tag : Nat) (use : RUse) : RCtx :=
  { tag := tag, use := use, flag := false, target := 1, port := 0, handle := 0, va := 0x7000, addr := 2 ^ 48, len := 8 }
/-! ### Well-formedness: an ill-formed term for each check -/

/-- A packet within its widths. -/
def okPkt : Packet := { flagged := false, len := 4, src := 1, job := 0x11, addr := 0, tag := 0, cause := 0, aop := 0, aw := 0, data := [], e2e := 0 }
/-- A Hazel packet within its widths. -/
def okHz : HzPacket :=
  { dst := 1, gid := 1, boundary := false, seq := 1, job := 0x11, child := none, ops := List.replicate 8 1, nval := 1, ktop := 0, gkey := 0,
    vals := List.replicate 8 0, err := none, crcOk := true }
/-- An image with digests of 32 bytes. -/
def okImg : Image := { imgShipped 0 with digest := List.replicate 32 0, ownerKeyDigest := List.replicate 32 0 }
/-- A boot stage that finds nothing bad. -/
def okEnv : BootEnv := { bad := [], lost := [], failedPcs := [], badLanes := [], rate := 2, width := 16, loFlit := false, failed0 := [], failed1 := [] }

theorem test_wf_accepts :
    [Instr.registerWrite .host 0 0x40 4 0, .flitReceive 0 (List.replicate 256 0) (some 0), .rd 0 okPkt, .rdr 0 okPkt [1], .hazelPacket okHz, .transferFw .host 0 okImg,
      .bootStage (.passed okEnv), .vlds tc 2 .w8 0 0 0 false, .hold (0, okPkt), .restoreComplete (some [(0, List.replicate 32 0)]), .restoreComplete none, .launch tc 0].all Instr.wf = true := by decide +kernel
theorem test_wf_page : (Instr.registerWrite .host 0x1000 0 4 0).wf = false ∧ (Instr.readRegister 0x1000 0 4).wf = false ∧
    (Instr.blkVerselWrite .host 0x1000 0).wf = false ∧ (Instr.epochApplyTimeout 0x1000).wf = false := by decide
theorem test_wf_offset : (Instr.registerWrite .host 0 0x1000 4 0).wf = false ∧ (Instr.writeRegister 0 0x1000 4 0).wf = false := by decide
theorem test_wf_width : (Instr.registerWrite .host 0 0 3 0).wf = false ∧ (Instr.blkCtlLock .host 0 16 0).wf = false := by decide
theorem test_wf_thread : (Instr.launch ⟨.near, 128 * 1024⟩ 0).wf = false ∧ (Instr.fenceAcq ⟨.control, 96⟩).wf = false := by decide
theorem test_wf_fields : (Instr.vlds tc 1 .w8 0 0 0 false).wf = false ∧ (Instr.vsts tc 5 .w8 0 0 0).wf = false := by decide
theorem test_wf_symbol : (Instr.scrubRead 0 [72] 0).wf = false := by decide
theorem test_wf_flit : (Instr.flitReceive 0 [] none).wf = false := by decide
theorem test_wf_request : (Instr.registerWindow .host []).wf = false := by decide
theorem test_wf_tag : (Instr.hold (0, { okPkt with tag := 0x40000 })).wf = false ∧ (Instr.remoteTimeout 0x40000 false).wf = false := by decide
theorem test_wf_response : (Instr.nakResponse 0 { okPkt with cause := 256 }).wf = false ∧
    (Instr.rdr 0 okPkt (List.replicate 257 0)).wf = false ∧ (Instr.ack 0 { okPkt with src := 0x10000 }).wf = false := by decide +kernel
theorem test_wf_package : (Instr.routeTableWrite .host 0x10000 0).wf = false ∧ (Instr.canopyDone 0x10000).wf = false ∧
    (Instr.canopyFailureReport 0x10000).wf = false ∧ (Instr.preemptionMessage 0x10000).wf = false ∧ (Instr.canopyReparent 0 0x10000 0).wf = false ∧
    (Instr.shardDigestRequest 0x10000 0).wf = false ∧ (Instr.canopyChunkRequest 0x10000 0).wf = false ∧
    (Instr.canopyJoinReceived 0x10000).wf = false := by decide
theorem test_wf_packet_len : (Instr.rd 0 { okPkt with len := 257 }).wf = false := by decide
theorem test_wf_packet_src : (Instr.wr 0 { okPkt with src := 0x10000 }).wf = false := by decide
theorem test_wf_packet_job : (Instr.amo 0 { okPkt with job := 0x10000 }).wf = false := by decide
theorem test_wf_packet_tag : (Instr.cadd 0 { okPkt with tag := 0x40000 }).wf = false := by decide
theorem test_wf_packet_aop : (Instr.amo 0 { okPkt with aop := 256 }).wf = false ∧ (Instr.amo 0 { okPkt with aw := 256 }).wf = false := by decide
theorem test_wf_packet_data : (Instr.wr 0 { okPkt with data := List.replicate 257 0 }).wf = false := by decide +kernel
theorem test_wf_digest : (Instr.restoreComplete (some [(0, [])])).wf = false := by decide
theorem test_wf_hazel : ({ okHz with gid := 4096 }.wf || { okHz with job := 0x10000 }.wf || { okHz with ops := [] }.wf || { okHz with nval := 9 }.wf ||
    { okHz with ktop := 256 }.wf || { okHz with vals := [] }.wf || { okHz with dst := 0x10000 }.wf) = false := by decide
theorem test_wf_group : (Instr.hazelWarn 4096 false 0 0).wf = false ∧ (Instr.hazelAbort 4096 false 0).wf = false := by decide
theorem test_wf_chunk : (Instr.canopyChunkPacket 0 0 0 (List.replicate 257 0)).wf = false := by decide +kernel
theorem test_wf_host : (Instr.hostMemRead 0 65 false).wf = false ∧ (Instr.hostMemWrite 0 (List.replicate 65 0) false).wf = false := by decide +kernel
theorem test_wf_policy : (Instr.setEventInterruptPolicy .host 256 0 0 0).wf = false ∧ (Instr.setEventInterruptPolicy .host 0 0 0 256).wf = false := by decide
theorem test_wf_image : { okImg with digest := [] }.wf = false ∧ { okImg with ownerKeyDigest := [] }.wf = false := by decide
theorem test_wf_fault_log : (Instr.getFaultLog .host 0x1000).wf = false := by decide
theorem test_wf_debug : (DbgOp.halt ⟨.control, 96⟩).wf = false ∧ (DbgOp.resume ⟨.control, 96⟩).wf = false ∧
    (DbgOp.singleStep ⟨.control, 96⟩).wf = false ∧ (DbgOp.readReg ⟨.control, 96⟩ 0).wf = false ∧ (DbgOp.writeReg ⟨.control, 96⟩ 0 0).wf = false ∧
    (DbgOp.breakpoint ⟨.control, 96⟩ 0 true).wf = false ∧
    (DbgOp.readOther ⟨.control, 96⟩ .pc).wf = false ∧ (DbgOp.writeOther ⟨.control, 96⟩ .pc 0).wf = false ∧ (DbgOp.readMem 0 0).wf = false ∧ (DbgOp.writeMem 0 []).wf = false := by decide
theorem test_wf_boot : (BootOutcome.passed { okEnv with failedPcs := [512] }).wf = false ∧ (BootOutcome.passed { okEnv with badLanes := [8192] }).wf = false ∧
    (BootOutcome.passed { okEnv with failed0 := [256] }).wf = false ∧ (BootOutcome.passed { okEnv with failed1 := [256] }).wf = false ∧
    (BootOutcome.failed 256).wf = false := by decide

/-! ### Registers, persistent fields, grove service -/

theorem wit_RegisterWriteActsByAccessCode :
    pageBlk 0x060 = some (.hz, 0) ∧ Blk.hz ∈ [Blk.eqx, .hz, .scrub, .stk, .view, .nand, .pst, .bridge] ∧ regAligned 0x40 4 = true ∧
    regAligned 0xFF8 8 = true ∧ runS.agentUp .host = true ∧ runS.agentUp .bmc = true ∧ runS.agentUp .super = true := by decide +kernel
/-- R9, R12: a W1C bit written 1 clears, written 0 stays; a read-only counter ignores the write. -/
theorem test_registerWrite :
    leaves (.registerWrite .host 0x060 0x18 4 0x4) ((runS.setFlag (fErr_RING 0x060) true).setFlag (fErr_UE 0x060) true)
      (fun u => !u.flag (fErr_RING 0x060) && u.flag (fErr_UE 0x060)) ∧
    leaves (.registerWrite .host 0x060 0x48 8 0xFFFF) runS (fun u => decide (u.regs = runS.regs)) := by decide +kernel

theorem wit_FieldCommandsComplete :
    let s := runS.setFld fMode_STG_EPOCH 1
    s.agentUp .host = true ∧ s.armCode = 0 ∧ runS.armCode ≠ 0 := by decide +kernel
theorem test_epochArm :
    leaves (.epochArm .host) (runS.setFld fMode_STG_EPOCH 1) (fun u => u.flag fMode_ARMED && !u.flag fMode_REFUSED) ∧
    leaves (.epochArm .host) runS (fun u => u.flag fMode_REFUSED && u.fld fMode_CODE == 1) := by decide +kernel
theorem test_epochCancel : leaves (.epochCancel .host) (runS.setFlag fMode_ARMED true) (fun u => !u.flag fMode_ARMED) ∧
    leaves (.epochCancel .host) ((runS.setFlag fMode_ARMED true).setFlag fMode_APPLYING true) (fun u => u.flag fMode_ARMED) := by decide +kernel
theorem test_snapshotRequest : leaves (.snapshotRequest .host) (runS.setFlag fSnap_REQ_PEND true)
    (fun u => u.flag fSnap_REQ_PEND && u.fld fSnap_NOTICES == 1) := by decide +kernel
theorem test_snapshotRelease : leaves (.snapshotRelease .host) (runS.setFlag fSnap_HELD true) (fun u => !u.flag fSnap_HELD) := by decide +kernel
theorem test_clrFail : leaves (.clrFail .bmc) runS (fun u => u.pwr.clrFail) := by decide +kernel
theorem test_capWWrite : leaves (.capWWrite .host 1800) runS (fun u => u.fld fPwr_CAP_W == 1800) ∧
    leaves (.capWWrite .host 1801) runS (fun u => decide (u.fld fPwr_CAP_W = runS.fld fPwr_CAP_W)) := by decide +kernel
theorem test_faultClr : leaves (.faultClr .host) (runS.setFlag fSafe_FAULT true) (fun u => !u.flag fSafe_FAULT) ∧
    leaves (.faultClr .host) ((runS.setFlag fSafe_FAULT true).setFlag fSafe_SAFE true) (fun u => u.flag fSafe_FAULT) := by decide +kernel
theorem test_injEnWrite : leaves (.injEnWrite .host true) runS (fun u => u.flag fSafe_INJ_EN) := by decide +kernel
theorem test_vecCtlHold : leaves (.vecCtlHold .super 5 true) runS (fun u => u.flag (fVec_HOLD 5) && (u.vecWaking 5 || u.flag (fVec_AWAKE 5))) := by
  decide +kernel
theorem test_ewSplitWrite : leaves (.ewSplitWrite .super 3 2) runS (fun u => u.fld (fGrove_SPLIT 3) == 2 && u.fld (fGrove_APPLIED 3) == runS.fld (fGrove_APPLIED 3)) := by
  decide +kernel
theorem test_peakClears :
    leaves (.tempPeakClr .host 2) ((runS.setFld (fMem_PEAK 2) 900).setFld (fMem_TEMP 2) 400) (fun u => u.fld (fMem_PEAK 2) == 400) ∧
    leaves (.combPeakClr .host 2) ((runS.setFld (fMsc_COMB_PEAK 2) 9).setFld (fMsc_COMB_USE 2) 4) (fun u => u.fld (fMsc_COMB_PEAK 2) == 4) ∧
    leaves (.ctxPeakClr .host) ((runS.setFld fWin_CTX_PEAK 9).setFld fWin_CTX_USE 4) (fun u => u.fld fWin_CTX_PEAK == 4) := by decide +kernel

theorem wit_HeaderWritesAndInjectionsAct :
    let s := runS.setFld fSec_LC 1
    s.agentUp .host = true ∧ pageBlk 0x100 = some (.grove, 0) ∧ Blk.grove.hasInj = true ∧ (0x0007 : W32).getLsbD 0 = true ∧ s.injAllowed = true ∧
    injNamed .grove (0x0007 / 2 % 8) (0x0007 / 256 % 256) = true ∧ injNamed .grove (0x0009 / 2 % 8) 0 = false ∧
    (runS.setFld fSec_LC 2).injAllowed = false ∧
    s.flag (fInj_ARM 0x100) = false ∧
    ((s.setFld (fInj_ARM 0x018) 1).setFld (fInj_KIND 0x018) 1).injArmed 0x018 1 = true ∧
    ((s.setFld (fInj_ARM 0x100) 1).setFld (fInj_KIND 0x100) 3).injArmed 0x100 3 = true ∧
    ((s.setFld (fInj_ARM 0x0FC) 1).setFld (fInj_KIND 0x0FC) 1).injArmed (0x0C4 + 8 * 7) 1 = true ∧
    (let x := ((s.setFld (fInj_ARM 0x010) 1).setFld (fInj_KIND 0x010) 1).setFld (fInj_TARGET 0x010) 47
     x.injArmed 0x010 1 = true ∧ x.fld (fInj_TARGET 0x010) = 47) := by decide +kernel
theorem test_blkVerselWrite : leaves (.blkVerselWrite .host 0x100 0x200) runS (fun u => u.fld (fVersel 0x100) == 0x100) := by decide +kernel
theorem test_blkCtlLock : leaves (.blkCtlLock .host 0x100 4 1) runS (fun u => u.flag (fLock 0x100)) ∧
    leaves (.blkCtlLock .host 0x100 4 0) (runS.setFlag (fLock 0x100) true) (fun u => u.flag (fLock 0x100)) := by decide +kernel
theorem test_blkErrinjWrite :
    leaves (.blkErrinjWrite .host 0x100 7) (runS.setFld fSec_LC 1) (fun u => u.injArmed 0x100 3) ∧
    idles (.blkErrinjWrite .host 0x100 9) (runS.setFld fSec_LC 1) ∧ idles (.blkErrinjWrite .host 0x100 7) (runS.setFld fSec_LC 2) := by
  decide +kernel
theorem test_stackErrinjWrite :
    leaves (.stackErrinjWrite .host 1 0b11) (runS.setFld fSec_LC 1) (fun u => u.flag (fProt_INJ_ARM 1) && u.fld (fProt_INJ_UE 1) == 1) ∧
    idles (.stackErrinjWrite .host 1 0b1) (runS.setFld fSec_LC 1) := by decide +kernel
theorem test_errorInjectionActs :
    leaves (.errorInjectionActs 0x00E) (((runS.setFld fSec_LC 1).setFld (fInj_ARM 0x00E) 1).setFld (fInj_KIND 0x00E) 2)
      (fun u => u.fld fSafe_LAST_CLASS == 0x0C && u.flag fSafe_SAFE && u.flag (fErr_INJECTED 0x00E) && !u.flag (fInj_ARM 0x00E)) ∧
    idles (.errorInjectionActs 0x00E) runS := by decide +kernel

theorem wit_RegisterReadsAnswer :
    runS.agentUp .host = true ∧ pageBlk 0x00A = some (.mode, 0) ∧ runS.pwr.mctp = true ∧ regAligned 0xFF8 8 = true ∧ regAligned 0xFFA 4 = false ∧
    pageBlk 0x0C7 = none ∧ cellMask 0x00A (0x40 / 8) (fun f => f.acc == .timed) = 0 := by decide +kernel
theorem test_timeCounterLowRead :
    leaves (.timeCounterLowRead .host 0x00A false) runS (fun u => match u.answers with | [.value _] => true | _ => false) := by
  decide +kernel
theorem test_readRegister :
    leaves (.readRegister 0x100 0x00 4) runS (fun u => decide (u.answers = [.code 0 ((List.range 8).map fun i =>
      BitVec.ofNat 8 (Blk.grove.typeCode * 65536 / 256 ^ i % 256 * (if i < 4 then 1 else 0)))])) ∧
    leaves (.readRegister 0x0C7 0x40 8) runS (fun u => decide (u.answers = [.code 0 (List.replicate 8 0)])) := by decide +kernel
theorem test_writeRegister :
    leaves (.writeRegister 0x00A 0x42 4 0) runS (fun u => decide (u.answers = [.code 2 []])) ∧
    leaves (.writeRegister 0x0C2 0x40 4 48) runS (fun u => u.fld (fScrub_PERIOD 0) == 48 && decide (u.answers = [.code 0 []])) := by decide +kernel

theorem wit_PersistentWritesCommit :
    let s := runS.setFld fPkg_SRC_HOST 1
    s.agentUp .host = true ∧ (runS.setFld fPkg_SRC_HOST 0).srcOk .host = false ∧ s.srcOk .host = true ∧ pstValid 1 600 = true ∧ pstValid 1 1800 = true ∧
    pstValid 2 40 = true ∧ s.flag (fPcnt_LIMIT 1) = false ∧ s.pst.busy = none ∧ s.pst.queue = [] ∧
    ({ s with pst := { s.pst with busy := some (2, 40) } }.pst.busy = some (2, 40)) := by decide +kernel
theorem test_persistentWrite :
    leaves (.persistentWrite .host 0 7) (runS.setFld fPkg_SRC_HOST 1) (fun u => decide (u.pst.busy = some (0, 7)) && u.flag fPst_BUSY &&
      decide (u.fld fPkg_PKG_ID = 0xFFFF) && decide (u.pstPending 0 = some 7)) ∧
    leaves (.persistentWrite .host 0 7) (runS.setFld fPkg_SRC_HOST 0) (fun u => u.flag fPst_DENIED && decide (u.pst = runS.pst)) := by decide +kernel
/-- R9, R446: a WRITE_REGISTER that begins a commit is answered when the commit completes. -/
theorem test_writeRegister_commit :
    let s := runS.setFld fPkg_SRC_BMC 1
    s.pwr.mctp = true ∧ s.srcOk .bmc = true ∧
    leaves (.writeRegister (pstReg 1).1 (pstReg 1).2 4 900) s (fun u => decide (u.answers = [] ∧ u.pst.waits = [(1, .command)]) &&
      leaves .persistentCommitDone u fun x => decide (x.answers = [.code 0 []] ∧ x.pst.waits = [] ∧ x.fld fPwr_CAP_DEF = 900)) := by decide +kernel
theorem test_persistentCommitDone :
    leaves .persistentCommitDone { runS with pst := { runS.pst with busy := some (1, 900) } }
      (fun u => u.fld fPwr_CAP_DEF == 900 && u.fld fPst_COMMITS == 1 && u.fld (fPcnt 1) == 1 && decide (u.pst.busy = none)) ∧
    leaves .persistentCommitDone ({ runS with pst := { runS.pst with busy := some (1, 900) } }.setFld (fPcnt 1) 99999)
      (fun u => u.flag (fPcnt_LIMIT 1)) := by decide +kernel

/-- Grove 255 in a state of service. -/
def svcS (n : Nat) : State := runS.setFld (fGrove_STATE 255) n

theorem wit_GroveServiceFollowsItsStates :
    (svcS 1).agentUp .host = true ∧ (svcS 1).fld (fGrove_STATE 255) = 1 ∧ (∀ e ∈ (svcS 1).thr.ctxs, e.1 / 256 = 255 → e.2.st = .idle) ∧
    ((svcS 1).mat 255).owner = none ∧ ((svcS 1).mat 255).queue = [] ∧ (∀ c < 8, ((svcS 1).ew (255 * 8 + c)).owner = none) ∧
    (svcS 0).fld (fGrove_STATE 255) ≠ 1 ∧ (svcS 2).fld (fGrove_STATE 255) = 2 ∧ (svcS 2).flag fSafe_SAFE = false ∧
    (svcS 2).injArmed (0x100 + 255) 3 = false := by decide +kernel
theorem test_groveService :
    leaves (.groveOutReq .host 255) runS (fun u => u.fld (fGrove_STATE 255) == 1) ∧
    leaves (.groveOutReq .host 255) (runS.setFld (fGrove_STATE 0) 3) (fun u => u.fld (fGrove_STATE 255) == 0) ∧
    leaves (.groveReturn .host 255) ((svcS 3).setFld (fGrove_RESULT 255) 1) (fun u => u.fld (fGrove_STATE 255) == 0) ∧
    leaves (.groveReturn .host 255) ((svcS 3).setFld (fGrove_RESULT 255) 2) (fun u => u.fld (fGrove_STATE 255) == 3) ∧
    leaves (.groveSvcDrained 255) (svcS 1) (fun u => u.fld (fGrove_STATE 255) == 2) := by decide +kernel
theorem test_groveMarginTestDone :
    leaves (.groveMarginTestDone 255 true true) (svcS 2) (fun u => u.fld (fGrove_STATE 255) == 3 && u.fld (fGrove_RESULT 255) == 1) ∧
    leaves (.groveMarginTestDone 255 true false) (svcS 2) (fun u => u.fld (fGrove_STATE 255) == 3 && u.fld (fGrove_RESULT 255) == 2) ∧
    leaves (.groveMarginTestDone 255 false true) (svcS 2) (fun u => u.fld fSafe_LAST_CLASS == 0x07 && u.flag fSafe_SAFE) := by decide +kernel

/-! ### Scalar floating point -/

/-- A control thread with f1 = 1.5, f2 = 2, f3 = 0.25, f4 = 9 and a1 = 3. -/
def fpS : State := jobS.setCtx tc ({ readyC with f := [(1, 0x3FF8000000000000), (2, 0x4000000000000000), (3, 0x3FD0000000000000),
  (4, 0x4022000000000000)] }.sa 1 3)

theorem fpS_all : fpS.Issues tc profAll code fpS := by apply issues_of <;> decide +kernel

/-- The command leaves `v` in f9, no flag, and the pc past it. -/
def givesF (i : Instr) (v : W64) (fl : BitVec 5 := 0) : Bool :=
  leaves i fpS fun u => decide ((u.ctx tc).gf 9 = v ∧ (u.ctx tc).fflags = fl ∧ (u.ctx tc).pc = 0x104 ∧ (u.ctx tc).gf 1 = 0x3FF8000000000000)
/-- The command leaves `v` in a9. -/
def givesA (i : Instr) (s : State) (v : W64) : Bool := leaves i s fun u => decide ((u.ctx tc).ga 9 = v ∧ (u.ctx tc).pc = 0x104)

theorem wit_ScalarFloatOperationsRetire :
    fpS.Issues tc profAll code fpS ∧ (fpS.ctx tc).effRm 0 ≤ 4 ∧ (fpS.ctx tc).effRm 4 ≤ 4 ∧ (fpS.ctx tc).effRm 7 ≤ 4 :=
  ⟨fpS_all, by decide +kernel⟩
theorem test_fadd : givesF (.fadd tc .d 0 9 1 2) 0x400C000000000000 := by decide +kernel
theorem test_fsub : givesF (.fsub tc .d 0 9 1 2) 0xBFE0000000000000 := by decide +kernel
theorem test_fmul : givesF (.fmul tc .d 0 9 1 2) 0x4008000000000000 := by decide +kernel
theorem test_fdiv : givesF (.fdiv tc .d 0 9 1 2) 0x3FE8000000000000 := by decide +kernel
theorem test_fsqrt : givesF (.fsqrt tc .d 0 9 4 0) 0x4008000000000000 := by decide +kernel
theorem test_fmin : givesF (.fmin tc .d 0 9 1 2) 0x3FF8000000000000 := by decide +kernel
theorem test_fmax : givesF (.fmax tc .d 0 9 1 2) 0x4000000000000000 := by decide +kernel
theorem test_frnd : givesF (.frnd tc .d 0 9 1) 0x4000000000000000 0x01 := by decide +kernel
theorem test_fneg : givesF (.fneg tc .d 0 9 1) 0xBFF8000000000000 := by decide +kernel
theorem test_fabs : givesF (.fabs tc .d 0 9 1) 0x3FF8000000000000 := by decide +kernel
theorem test_fcpsgn : givesF (.fcpsgn tc .d 0 9 2 1) 0x4000000000000000 := by decide +kernel
theorem test_frem : givesF (.frem tc .d 0 9 4 2) 0x3FF0000000000000 := by decide +kernel
theorem test_fscaleb : givesF (.fscaleb tc .d 0 9 1 1) 0x4028000000000000 := by decide +kernel
theorem test_fnextup : givesF (.fnextup tc .d 0 9 1) 0x3FF8000000000001 := by decide +kernel
theorem test_fnextdn : givesF (.fnextdn tc .d 0 9 1) 0x3FF7FFFFFFFFFFFF := by decide +kernel
theorem test_fma : givesF (.fma tc .d 0 0 9 1 2 3) 0x400A000000000000 := by decide +kernel
theorem test_flogb : givesA (.flogb tc .d 0 9 4) fpS 3 := by decide +kernel

theorem wit_ScalarComparesConvertsAndIllegalForms :
    fpS.Issues tc profAll code fpS ∧ fmtD.compare 0x02 0x3FF8000000000000 0x4000000000000000 = some (true, 0) ∧
    cvtCode 0 = true ∧ cvtCode 0x13 = true ∧ (fpS.ctx tc).effRm 5 ≠ 6 ∧ 4 < (fpS.ctx tc).effRm 5 ∧
    fmtD.compare 0x0C ((fpS.ctx tc).fpat .d 1) ((fpS.ctx tc).fpat .d 2) = none ∧ fmtD.compare 0x1E ((fpS.ctx tc).fpat .d 1) ((fpS.ctx tc).fpat .d 2) = none :=
  ⟨fpS_all, by decide +kernel⟩
theorem test_fcmp : givesA (.fcmp tc .d 0x02 9 1 2) fpS 1 ∧ givesA (.fcmp tc .d 0x00 9 1 2) fpS 0 := by decide +kernel
theorem test_fclass : givesA (.fclass tc .d 9 1) fpS 0x040 := by decide +kernel
theorem test_fcvt : givesF (.fcvt tc 0 1 0 false 9 1) 0x3FC00000 ∧ givesF (.fcvt tc 0 2 0 false 9 1) 0x3E00 := by decide +kernel
theorem test_illegal_mode : leaves (.fadd tc .d 5 9 1 2) fpS (fun u => decide ((u.ctx tc).st = .faulted ∧ (u.ctx tc).gf 9 = 0)) ∧
    leaves (.fsqrt tc .d 0 9 4 1) fpS (fun u => decide ((u.ctx tc).st = .faulted ∧ (u.ctx tc).gf 9 = 0)) := by decide +kernel

/-! ### Threads -/

/-- A control thread with a1 = 0x2000, a2 = 5, a3 = 0xFF..F; the place at 0x2000 holds 7. -/
def memS : State :=
  (jobS.setCtx tc (((readyC.sa 1 0x2000).sa 2 5).sa 3 0xFFFFFFFFFFFFFFFF)).setDramByte 0x40002000 7

theorem memS_work : memS.Issues tc profWork code memS := by apply issues_of <;> decide +kernel

/-- The conditions of a plain access to the place: decided. -/
def plainAt (s : State) (k : AKind) (va key w : Nat) (write : Bool) : Bool :=
  decide ((s.xlate (s.whoOf tc) va k).1 = .ok (.dram key)) &&
    (let s2 := (s.xlate (s.whoOf tc) va k).2
     !s2.accessStalled key w write && (s2.biLines key w write (holderIn tc key)).isEmpty && (s2.biLines key w write .none).isEmpty &&
       s2.lineGood (key / 64) && s2.lineClean (key / 64) && s2.leafMarked va k && (s2.putDram key (natLE w 12)).leafMarked va k &&
       !(s2.stk (keyStack (key / 64 * 64))).comb.any (fun e => e.1 == key / 64) && !s2.protectedKey key w && !s2.unitProtected key &&
       !s2.unitProtected (key + w - 1) && s2.thr.ctxs.all (fun e => e.2.lines.isEmpty) && s2.regs.all fun e => e.1 % 512 != 4)

/-- The word of the leaf that maps 0x2000 is clean and lies where its marks go. -/
theorem wit_leaf : (match mapS.findLeaf 0x2000 5 0 (mapS.fld fPkg_TROOT) with
    | some l => decide (l.key % 8 = 0 ∧ mapS.decode (l.key / 64) = .clean) | none => false) = true := by decide +kernel
/-- Table 2.5: a store to a page whose leaf has no mark sets A and D, bits 7 and 8 of the leaf; a load sets A alone. -/
theorem test_marks :
    let s := memS.putDram 0x3000 [0x1F, 0]
    leaves (.st tc .w8 3 1 0xFF 0) s (fun u => decide (u.dramBytes 0x3000 2 = [0x9F, 0x01])) ∧
    leaves (.ld tc .w8 9 1 0 0) s (fun u => decide (u.dramBytes 0x3000 2 = [0x9F, 0x00])) := by decide +kernel

theorem wit_LoadsStoresAndAtomicsRetire :
    memS.Issues tc profWork code memS ∧ memAddr ((memS.ctx tc).ga 1) 0 8 = 0x2000 ∧ memAddr ((memS.ctx tc).ga 1) 0xFF 8 = 0x1FF8 ∧
    (0x1FF8 % 4096 + 8 ≤ 4096 ∧ 0x40001FF8 % 64 + 8 ≤ 64) ∧
    plainAt memS .load 0x2000 0x40002000 8 false = true ∧ plainAt memS .store 0x1FF8 0x40001FF8 8 true = true ∧
    plainAt memS .atomic 0x2000 0x40002000 8 true = true ∧ ((memS.ctx tc).ga 1).toNat % 8 = 0 :=
  ⟨memS_work, by decide +kernel⟩
theorem test_ld : leaves (.ld tc .w8 9 1 0 0) memS (fun u => decide ((u.ctx tc).ga 9 = 7 ∧ (u.ctx tc).pc = 0x104)) := by decide +kernel
theorem test_st : leaves (.st tc .w8 3 1 0xFF 0) memS (fun u => decide (u.dramBytes 0x40001FF8 8 = List.replicate 8 0xFF ∧ u.dramByte 0x40002000 = 7)) ∧
    leaves (.st tc .w1 2 1 1 0) memS (fun u => decide (u.dramByte 0x40002001 = 5 ∧ u.dramByte 0x40002000 = 7)) := by decide +kernel
theorem test_amo :
    leaves (.amoOp tc .add .w8 9 1 2 0) memS (fun u => decide ((u.ctx tc).ga 9 = 7 ∧ u.dramByte 0x40002000 = 12)) ∧
    leaves (.amoOp tc .min .w8 9 1 3 0) memS (fun u => decide ((u.ctx tc).ga 9 = 7 ∧ u.dramBytes 0x40002000 8 = List.replicate 8 0xFF)) := by decide +kernel
theorem test_amoCas :
    leaves (.amoCas tc .w8 9 1 2 0) memS (fun u => decide ((u.ctx tc).ga 9 = 7 ∧ u.dramByte 0x40002000 = 7)) ∧
    leaves (.amoCas tc .w8 9 1 2 0) (memS.modCtx tc fun c => c.sa 9 7) (fun u => decide ((u.ctx tc).ga 9 = 7 ∧ u.dramByte 0x40002000 = 5)) := by
  decide +kernel
/-- 7 and 5 are the smallest subnormals: their sum is the subnormal of 12. -/
theorem test_amoFloat :
    leaves (.amoFadd tc .w8 9 1 2 0) memS (fun u => decide ((u.ctx tc).ga 9 = 7 ∧ u.dramByte 0x40002000 = 12)) ∧
    leaves (.amoFmin tc .w8 9 1 2 0) memS (fun u => decide (u.dramByte 0x40002000 = 5)) ∧
    leaves (.amoFmax tc .w8 9 1 2 0) memS (fun u => decide (u.dramByte 0x40002000 = 7)) := by decide +kernel

theorem wit_FencesLineWatchesAndWaitsEnd :
    ctlS.Issues tc profAll code ctlS ∧ ctlS.released tc = true ∧ ctlS.loadsDone tc = true ∧
    (let s := ctlS.modCtx tc fun c => { c with lines := [(0x1000080, false), (0x1000081, true)] }
     s.Issues tc profAll code s ∧ (s.ctx tc).written = some 1) ∧
    (memS.Issues tc profWork code memS ∧ (memS.xlate (memS.whoOf tc) 0x2000 .load).1 = .ok (.dram 0x40002000) ∧
      (memS.xlate (memS.whoOf tc) 0x2000 .load).2.ctx tc = memS.ctx tc ∧ (memS.ctx tc).lines = []) ∧
    (let s := { ctlS with fab := { FabSt.empty with ctxs := [outCtx 0 (.store tc)] } }
     s.Issues tc profAll code s ∧ s.released tc = false) ∧
    (let w := ctlS.modCtx tc fun c => c.waiting (.fenceRel tc) .cond
     let s := w.modCtx tc fun c => { c with st := .ready }
     (w.ctx tc).st = .wait ∧ (w.ctx tc).await = .cond ∧ (w.ctx tc).instr = some (.fenceRel tc) ∧ w.debugHeld tc.handle = false ∧
     s.Issues tc profAll code s ∧ s.released tc = true) ∧
    (let s := (ctlS.modCtx tc fun c => (c.sa 1 9).waiting (.lwait tc 9 1) .line)
     (s.ctx tc).st = .wait ∧ (s.ctx tc).await = .line ∧ (s.ctx tc).instr = some (.lwait tc 9 1) ∧ (s.ctx tc).ga 1 ≠ 0) := by
  refine ⟨ctlS_all, by decide +kernel, by decide +kernel, ⟨?_, by decide +kernel⟩, ⟨memS_work, by decide +kernel⟩, ⟨?_, by decide +kernel⟩,
    ⟨by decide +kernel, by decide +kernel, by decide +kernel, by decide +kernel, ?_, by decide +kernel⟩, by decide +kernel⟩
  all_goals (apply issues_of <;> decide +kernel)
theorem test_fences :
    leaves (.fenceAcq tc) ctlS (fun u => decide ((u.ctx tc).pc = 0x104)) ∧ leaves (.fenceRel tc) ctlS (fun u => decide ((u.ctx tc).pc = 0x104)) ∧
    leaves (.fenceFull tc) { ctlS with thr := { ctlS.thr with inv := [0x1000] } } (fun u => decide ((u.ctx tc).pc = 0x104 ∧ u.thr.inv = [])) := by
  decide +kernel
theorem test_lwatch : leaves (.lwatch tc 1) memS (fun u => decide ((u.ctx tc).lines.map (·.2) = [false])) := by decide +kernel
theorem test_lwait :
    leaves (.lwait tc 9 0) (ctlS.modCtx tc fun c => { c with lines := [(1, false), (2, true)] })
      (fun u => decide ((u.ctx tc).ga 9 = 1 ∧ (u.ctx tc).lines = [])) ∧
    leaves (.lwaitTimeout tc) (ctlS.modCtx tc fun c => (c.sa 1 9).waiting (.lwait tc 9 1) .line)
      (fun u => decide ((u.ctx tc).ga 9 = 0xFF ∧ (u.ctx tc).st = .ready)) := by decide +kernel
theorem test_waitConditionMet : leaves (.waitConditionMet tc) (ctlS.modCtx tc fun c => c.waiting (.fenceRel tc) .cond)
    (fun u => decide ((u.ctx tc).st = .ready ∧ (u.ctx tc).pc = 0x104)) := by decide +kernel

theorem wit_StateRegistersReadAndWrite :
    ctlS.Issues tc profAll code ctlS ∧ supS.Issues tc profAll code supS ∧ (ctlS.stateReg tc 0x0A).isSome = true ∧ (supS.stateReg tc 0x0C).isSome = true ∧
    (0x0C : BitVec 16).toNat < 0x10 ∧ tc.kind = .control ∧ (supS.ctx tc).sup = true ∧ (ctlS.ctx tc).sup = false ∧
    ctlS.flag fMode_A_STRICT = false ∧ (ctlS.setFlag fMode_A_STRICT true).Issues tc profAll code (ctlS.setFlag fMode_A_STRICT true) := by
  refine ⟨ctlS_all, ?_, by decide +kernel, by decide +kernel, by decide +kernel, by decide +kernel, by decide +kernel, by decide +kernel,
    by decide +kernel, ?_⟩
  all_goals (apply issues_of <;> decide +kernel)
theorem test_srd : leaves (.srd tc 9 0x01) ctlS (fun u => decide ((u.ctx tc).ga 9 = 0x11)) ∧
    leaves (.srd tc 9 0x0C) ctlS (fun u => decide ((u.ctx tc).st = .faulted)) := by decide +kernel
theorem test_swr : leaves (.swr tc 1 0x0C) (supS.modCtx tc fun c => c.sa 1 0x203) (fun u => decide ((u.ctx tc).hvec = 0x200)) ∧
    leaves (.swr tc 1 0x07) (ctlS.modCtx tc fun c => c.sa 1 7) (fun u => decide ((u.ctx tc).frm = 0)) := by decide +kernel
theorem test_rngU : leaves (.rngU tc 9) ctlS (fun u => decide ((u.ctx tc).pc = 0x104)) ∧
    leaves (.rngU tc 9) (ctlS.setFlag fMode_A_STRICT true) (fun u => decide ((u.ctx tc).st = .faulted)) := by decide +kernel

/-- A fault notice. -/
def aNotice : Notice := { t := tg, code := 0x10, gsPart := false, errVal := false, gsIdx := 0, pc := 0x100, va := 0x5000, step := 0 }
/-- The fault queue is enabled at 0x4000, and one notice waits. -/
def noticeS : State := { ((mapS.setFlag fCtl_EN true).setFld fCtl_FQ_BASE (0x4000 / 64)) with thr := { mapS.thr with notices := [aNotice] } }
/-- The fault queue is full: PROD is a whole length ahead of CONS. -/
def fullS : State := noticeS.setFld fCtl_FQ_PROD (2 ^ noticeS.fqLog)

theorem wit_FaultsAreTakenAndNoticed :
    (tc.kind = .control ∧ (ctlS.ctx tc).sup = false ∧ ((ctlS.modCtx tc fun c => { c with hvec := 0x200 }).ctx tc).hvec ≠ 0) ∧
    (noticeS.thr.notices = [aNotice] ∧ noticeS.flag fCtl_EN = true ∧ noticeS.fqFull = false ∧
      ok (noticeS.vwrite unitAgt (noticeS.fld fCtl_FQ_BASE * 64 + 32 * (noticeS.fld fCtl_FQ_PROD % 2 ^ noticeS.fqLog)) aNotice.bytes) = true) ∧
    fullS.fqFull = true := by decide +kernel
theorem test_faultNoticeWrite :
    leaves .faultNoticeWrite noticeS (fun u => decide (u.thr.notices = [] ∧ u.fld fCtl_FQ_PROD = 1 ∧ u.dramBytes 0x40004000 1 = aNotice.bytes.take 1)) ∧
    idles .faultNoticeWrite fullS := by decide +kernel

/-- A supervisor thread with another thread of its job in a state; a1 is that thread's handle. -/
def pairS (st : CtxSt) : State :=
  (supS.modCtx tc fun c => c.sa 1 (BitVec.ofNat 64 tx.handle)).setCtx tx { readyC with st := st, noticed := true, faultPc := 0x300 }
theorem pairS_sup : ∀ st ∈ [CtxSt.ready, .faulted], (pairS st).Issues tc profSup code (pairS st) := by
  intro st h
  fin_cases h
  all_goals (apply issues_of <;> decide +kernel)

theorem wit_SupervisorActsOnThreads :
    tx.valid = true ∧ tx ≠ tc ∧ ∀ st ∈ [CtxSt.ready, .faulted],
      (pairS st).Issues tc profSup code (pairS st) ∧ ((pairS st).ctx tc).ga 1 = BitVec.ofNat 64 tx.handle ∧
      ((pairS st).ctx tx).job = ((pairS st).ctx tc).job ∧ ((pairS st).ctx tx).st = st ∧ ((pairS st).ctx tx).noticed = true ∧
      ((pairS st).ctx tx).launch = none ∧ ((pairS st).ctx tx).late = none ∧ (pairS st).storesOut tx = false := by
  refine ⟨by decide +kernel, by decide +kernel, ?_⟩
  intro st h
  refine ⟨pairS_sup st h, ?_⟩
  fin_cases h <;> decide +kernel
theorem test_tstop : leaves (.tstop tc 1) (pairS .ready) (fun u => decide ((u.ctx tx).st = .faulted ∧ (u.ctx tx).faultPc = 0x100)) := by decide +kernel
theorem test_tresume : leaves (.tresume tc 1) (pairS .faulted) (fun u => decide ((u.ctx tx).st = .ready ∧ (u.ctx tx).pc = 0x300)) := by decide +kernel
theorem test_tend : leaves (.tend tc 1) (pairS .faulted) (fun u => decide (u.ctx tx = Ctx.idle)) := by decide +kernel
theorem test_tlbinv : leaves (.tlbinv tc 1) supS (fun u => decide (u.thr.inv = [0] ∧ (u.ctx tc).pc = 0x104)) := by decide +kernel
theorem test_fret : leaves (.fret tc) (supS.modCtx tc fun c => { c with faultPc := 0x500 })
    (fun u => decide ((u.ctx tc).pc = 0x500 ∧ (u.ctx tc).sup = false)) := by decide +kernel

/-- A launch of two near threads in order from number 4, its entry at 0x800, argument 9, stacks of 64 KiB at 0x100000. -/
def aLaunch : Launch :=
  { id := 3, issuer := tc, sup := false, job := 0x11, entry := 0x800, arg := 9, count := 2, kind := .near, policy := 1, first := 4, stride := 2, scratch := 0,
    cntEn := false, gang := false, cntIdx := 0, group := 0, stackBase := 0x100000, stackSize := 65536, statusVa := none, statusKey := 0, toPlace := [0, 1],
    left := 2, faults := 0, ring := false }
/-- The same launch is in progress. -/
def launchS : State := { jobS with thr := { jobS.thr with launches := [aLaunch] } }
/-- A launch descriptor as Table 2.2 lays it out lies at 0x3000, and a1 points to it. -/
def descS : State :=
  ((putGroup ctlS 0 1 0 0x11).modCtx tc fun c => c.sa 1 0x3000).putDram 0x40003000
    (natLE 8 0x800 ++ natLE 8 9 ++ natLE 4 2 ++ [1, 1] ++ natLE 2 4 ++ natLE 2 2 ++ natLE 6 0 ++ natLE 8 0x100000 ++ natLE 4 65536)
theorem descS_work : descS.Issues tc profWork code descS := by apply issues_of <;> decide +kernel
/-- A thread of the launch runs. -/
def endS : State := { ctlS with thr := { ctlS.thr with launches := [{ aLaunch with toPlace := [] }] } }.modCtx tc fun c => { c with launch := some 3 }

theorem wit_LaunchesStartAndEnd :
    (descS.Issues tc profWork code descS ∧ ((descS.ctx tc).ga 1).toNat % 64 = 0 ∧
      (let a := descS.vprobe (descS.whoOf tc) .load 0x3000 0x38
       let b := a.2.vprobe (a.2.whoOf tc) .store 0x3000 0x38
       let d := b.2.vread (b.2.agtOf tc) 0x3000 0x30
       let v := d.2.launchVerdict (match d.1 with | .ok x => x | _ => []) tc (d.2.ctx tc).sup false (some 0x3030) 0
       let w := v.2.2.vwrite (v.2.2.agtOf tc) 0x3030 (natLE 8 1)
       v.1 ≠ noVerdict ∧ a.1 = .ok [] ∧ b.1 = .ok [] ∧ ok d = true ∧ v.1 = 0 ∧ ok w = true ∧ (w.2.ctx tc).stopPending = false)) ∧
    (launchS.launch 3 = some aLaunch ∧ launchS.flag fSafe_SAFE = false ∧ aLaunch.toPlace.contains 1 = true ∧ aLaunch.gang = false ∧
      aLaunch.target 1 = 6 ∧ launchS.placeable aLaunch 6 = true ∧ launchS.gatedCtx .near 6 = none) ∧
    (ctlS.Issues tc profAll code ctlS ∧ ctlS.ownMat tc = none ∧ ctlS.ownEw tc = none ∧ ctlS.storesOut tc = false ∧ (ctlS.ctx tc).launch = none) ∧
    (endS.Issues tc profAll code endS ∧ endS.ownMat tc = none ∧ endS.ownEw tc = none ∧ endS.storesOut tc = false ∧
      (endS.ctx tc).launch = some 3 ∧ (endS.launch 3).isSome = true ∧ 1 < aLaunch.left) := by
  refine ⟨⟨descS_work, by decide +kernel⟩, by decide +kernel, ⟨ctlS_all, by decide +kernel⟩, ⟨?_, by decide +kernel⟩⟩
  apply issues_of <;> decide +kernel
theorem test_launch : leaves (.launch tc 1) descS (fun u => decide (u.thr.launches.map (fun l => (l.entry, l.count, l.toPlace)) = [(0x800, 2, [0, 1])] ∧
    u.dramBytes 0x40003030 8 = natLE 8 1 ∧ (u.ctx tc).pc = 0x104)) := by decide +kernel
theorem test_threadStart : leaves (.threadStart 3 1 6) launchS (fun u =>
    let c := u.ctx ⟨.near, 6⟩
    decide (c.st = .ready ∧ c.pc = 0x800 ∧ c.ga 0 = 9 ∧ c.ga 1 = 1 ∧ c.ga 31 = 0x120000 ∧ c.ga 2 = 0)) ∧ idles (.threadStart 3 1 5) launchS := by
  decide +kernel
theorem test_texit : leaves (.texit tc) endS (fun u => decide (u.ctx tc = Ctx.idle ∧ (u.launch 3).map (·.left) = some 1)) := by decide +kernel

theorem wit_GroveGatherAndScatterRetire :
    let s := (grvS.modCtx tg fun c => (c.sa 1 0x2000).sa 2 3)
    s.Issues tg profWork code s ∧ tg.kind = .grove ∧ (s.ctx tg).gsIdx = 0 ∧ ok (s.elemRead tg 0x2018 8) = true ∧
    ((s.elemRead tg 0x2018 8).2.ctx tg).stopPending = false ∧ ok (s.elemWrite tg 0x2018 (natLE 8 0)) = true ∧
    ((s.elemWrite tg 0x2018 (natLE 8 0)).2.ctx tg).stopPending = false := by
  refine ⟨?_, by decide +kernel⟩
  apply issues_of <;> decide +kernel
theorem test_gatherScatter :
    leaves (.gather tg .w8 9 1 2) ((grvS.modCtx tg fun c => (c.sa 1 0x2000).sa 2 3).setDramByte 0x40002018 0x5A) (fun u => decide ((u.ctx tg).ga 9 = 0x5A)) ∧
    leaves (.scatter tg .w1 9 1 2) (grvS.modCtx tg fun c => ((c.sa 1 0x2000).sa 2 3).sa 9 0x5A) (fun u => decide (u.dramByte 0x40002003 = 0x5A)) := by
  decide +kernel

/-! ### Vectors, saved threads -/

/-- A near thread with a1 = 0x2000, a2 = 6, a3 = 8, f1 = 1, vector register 2 holding 1.0 in every element of width 8, mask k1 its first lane, k2 empty. -/
def vecS : State :=
  (nearS.setCtx tn (((({ readyC with f := [(1, 0x3FF0000000000000)] }.sa 1 0x2000).sa 2 6).sa 3 8).sv 2
    (BitVec.ofNat 1024 ((List.range 8).foldl (fun n i => n + 0x3FF0000000000000 * 2 ^ (64 * i)) 0)) |>.sk 1 1)).putDram 0x40002000
      (natLE 8 0x11 ++ natLE 8 0x22)
theorem vecS_vec : vecS.Issues tn { work := false } code vecS := by apply issues_of <;> decide +kernel
theorem vecS_work : vecS.Issues tn { work := true } code vecS := by apply issues_of <;> decide +kernel
/-- Control thread 0 with its core's vector unit powered, and with it off. -/
def awakeS : State := ctlS.setFlag (fVec_AWAKE 0) true
theorem awakeS_vec : awakeS.Issues tc { work := false } code awakeS := by apply issues_of <;> decide +kernel
theorem awakeS_work : awakeS.Issues tc { work := true } code awakeS := by apply issues_of <;> decide +kernel
def asleepS : State := ctlS.setFlag (fVec_AWAKE 0) false
theorem asleepS_vec : asleepS.Issues tc { work := false } code asleepS := by apply issues_of <;> decide +kernel

/-- The states between the elements of a GATHER of vector 4 at addresses a1 + 8 × index, all indices 0. -/
def gatherSt : Nat → State
  | 0 => vecS
  | i + 1 => ((gatherSt i).elemRead tn 0x2000 8).2.gsPut tn 8 4 i (leNat (got ((gatherSt i).elemRead tn 0x2000 8))) |>.dropGot (.read tn)
/-- The states between the elements of a SCATTER of vector 2 to the same place. -/
def scatterSt : Nat → State
  | 0 => vecS
  | i + 1 => ((gatherSt 0).elemWrite tn 0x2000 (natLE 8 (vecEl ((vecS.ctx tn).gv 2) 8 i))).2
theorem wit_index : gsIndex 8 0 = 0 := by simp [gsIndex]
theorem wit_ElementOrderedAccesses :
    vecS.Issues tn profWork code vecS ∧ tn.kind ≠ .control ∧ gatherSt 0 = vecS ∧ vecLen tn.kind 8 = 8 ∧ (vecS.ctx tn).gsIdx = 0 ∧
    (∀ i < 8, vecEl ((vecS.ctx tn).gv 3) 8 i = 0) ∧ ((vecS.ctx tn).ga 1).toNat = 0x2000 ∧
    (∀ i < 8, ok ((gatherSt i).elemRead tn 0x2000 8) = true ∧ ((gatherSt i).elemRead tn 0x2000 8).2.ctx tn = (gatherSt i).ctx tn) ∧
    (ok (vecS.elemWrite tn 0x2000 (natLE 8 0x3FF0000000000000)) = true ∧ (scatterSt 1).ctx tn = vecS.ctx tn) := by
  refine ⟨?_, by decide +kernel⟩
  apply issues_of <;> decide +kernel
/-- The sums of a reduction: one after another, and by levels of pairs over 2 ^ 3 places. -/
theorem wit_reductionChains (el : Nat → Nat) (on : Nat → Bool) (x : Nat) :
    vecLen .near 8 = 2 ^ 3 ∧
    (∃ acc : Nat → Nat × Flags, acc 0 = (x, 0) ∧ ∀ i, acc (i + 1) = if on i then ((fmtD.add 0 (acc i).1 (el i)).1,
      (acc i).2 ||| (fmtD.add 0 (acc i).1 (el i)).2) else acc i) ∧
    ∃ lvl : Nat → Nat → Nat × Flags, (∀ i, lvl 0 i = (if on i then el i else fmtD.signBit, 0)) ∧
      ∀ h i, lvl (h + 1) i = ((fmtD.add 0 (lvl h (2 * i)).1 (lvl h (2 * i + 1)).1).1,
        (lvl h (2 * i)).2 ||| (lvl h (2 * i + 1)).2 ||| (fmtD.add 0 (lvl h (2 * i)).1 (lvl h (2 * i + 1)).1).2) :=
  ⟨by decide, ⟨fun n => Nat.rec (x, 0) (fun i p => if on i then ((fmtD.add 0 p.1 (el i)).1, p.2 ||| (fmtD.add 0 p.1 (el i)).2) else p) n, rfl,
      fun _ => rfl⟩,
    ⟨fun n => Nat.rec (fun i => (if on i then el i else fmtD.signBit, 0))
      (fun _ l i => ((fmtD.add 0 (l (2 * i)).1 (l (2 * i + 1)).1).1,
        (l (2 * i)).2 ||| (l (2 * i + 1)).2 ||| (fmtD.add 0 (l (2 * i)).1 (l (2 * i + 1)).1).2)) n, fun _ => rfl, fun _ _ => rfl⟩⟩
theorem test_vlen : leaves (.vlen tn .w4 9) vecS (fun u => decide ((u.ctx tn).ga 9 = 16)) ∧
    leaves (.vlen tc .w8 9) awakeS (fun u => decide ((u.ctx tc).ga 9 = 16)) := by decide +kernel
theorem test_ktail : leaves (.ktail tn .w8 3 2 3) vecS (fun u => decide ((u.ctx tn).gk 3 = 0b11)) ∧
    leaves (.ktail tn .w8 0 2 3) vecS (fun u => decide ((u.ctx tn).st = .faulted)) := by decide +kernel
theorem test_vfred : leaves (.vfredO tn .d 0 9 1 2 0) vecS (fun u => decide ((u.ctx tn).gf 9 = 0x4022000000000000)) ∧
    leaves (.vfredT tn .d 0 9 2 0) vecS (fun u => decide ((u.ctx tn).gf 9 = 0x4020000000000000)) := by decide +kernel

theorem wit_StructureAccessesMoveFields :
    vecS.Issues tn { work := true } code vecS ∧ awakeS.Issues tc { work := true } code awakeS ∧ awakeS.flag (fVec_AWAKE (tc.num / 2)) = true ∧
    (30 + 2 ≤ 32 ∧ 28 + 4 ≤ 32) ∧ (∀ i, i < vecLen .near 8 → ((vecS.ctx tn).gk 2).getLsbD i = false) ∧ (vecS.ctx tn).gsIdx = 0 ∧
    (∀ i, i < 8 → ((vecS.ctx tn).gk 1).getLsbD i = decide (i = 0)) ∧ ok (vecS.recRead tn 8 0x2000 2) = true ∧
    ((vecS.recRead tn 8 0x2000 2).2.ctx tn).stopPending = false :=
  ⟨vecS_work, awakeS_work, by decide +kernel⟩
/-- The states between the records of a VLDS and a VSTS under mask k1: only record 0 is active. -/
def ldsSt (i : Nat) : State :=
  if i = 0 then vecS else ((vecS.recRead tn 8 0x2000 2).2.recPut tn 2 8 4 0 (got (vecS.recRead tn 8 0x2000 2))).dropGot (.read tn)
def stsSt : Nat → State
  | 0 => vecS
  | j + 1 => ((stsSt j).elemWrite tn (0x2000 + 8 * j) (natLE 8 (vecEl ((vecS.ctx tn).gv (2 + j)) 8 0))).2
theorem wit_structureChains :
    ok (vecS.recRead tn 8 0x2000 2) = true ∧ (vecS.recRead tn 8 0x2000 2).2.ctx tn = vecS.ctx tn ∧
    (∀ i, i < 8 → 0 < i → ((vecS.ctx tn).gk 1).getLsbD i = false ∧ ldsSt (i + 1) = ldsSt i) ∧
    ok (vecS.elemWrite tn 0x2000 (natLE 8 (vecEl ((vecS.ctx tn).gv 2) 8 0))) = true ∧ (stsSt 1).ctx tn = vecS.ctx tn ∧
    ok ((stsSt 1).elemWrite tn 0x2008 (natLE 8 (vecEl ((vecS.ctx tn).gv 3) 8 0))) = true ∧ (stsSt 2).ctx tn = vecS.ctx tn := by
  refine ⟨by decide +kernel, by decide +kernel, ?_, by decide +kernel⟩
  intro i h1 h2
  refine ⟨(by decide +kernel : ∀ i : Nat, i < 8 → 0 < i → ((vecS.ctx tn).gk 1).getLsbD i = false) i h1 h2, ?_⟩
  simp [ldsSt, Nat.pos_iff_ne_zero.mp h2]
theorem test_vlds : leaves (.vlds tn 2 .w8 4 1 1 false) vecS (fun u => decide (vecEl ((u.ctx tn).gv 4) 8 0 = 0x11 ∧ vecEl ((u.ctx tn).gv 5) 8 0 = 0x22)) ∧
    leaves (.vlds tn 5 .w8 4 1 1 false) vecS (fun u => decide ((u.ctx tn).st = .faulted)) := by decide +kernel
theorem test_vsts : leaves (.vsts tn 2 .w8 2 1 1) vecS (fun u => decide (u.dramBytes 0x40002000 16 = natLE 8 0x3FF0000000000000 ++ natLE 8 0)) := by
  decide +kernel

/-- Lines of host memory that the package holds, all zero. -/
def heldLines : List (Nat × HLine) :=
  (List.range 128).map fun i => (0x100 + i, { bytes := List.replicate 64 0, modified := false, poison := false })
/-- A grove thread is FAULTED and saved by control thread 0 to host memory, which the page table maps from 1 GiB up and whose lines are held: a1 its
handle, a2 the area. -/
def saveS : State :=
  let regs := [(9, 65553), (10, 4096), (16392, 249), (24584, 4098)]
  { jobS with mem := { jobS.mem with hostLines := heldLines }, regs := regs, dram := tables ++ [(0x3008, 0xBF), (0x3009, 0x01)] }.setCtx tg { readyC with st := .faulted, noticed := true } |>.setCtx tc
    (({ readyC with sup := true }.sa 1 (BitVec.ofNat 64 tg.handle)).sa 2 0x40004000)
/-- An IDLE near context and an area of zeros for thread 0's TRESTORE. -/
def restS : State := supS.modCtx tc fun c => (c.sa 1 (BitVec.ofNat 64 tn.handle)).sa 2 0x4000
theorem saveS_sw : saveS.Issues tc profSupWork code saveS := by apply issues_of <;> decide +kernel
theorem restS_sw : restS.Issues tc profSupWork code restS := by apply issues_of <;> decide +kernel

theorem wit_VectorUnitsAndSavedThreads :
    (ctlS.flag (fVec_HOLD 0) = false ∧ (ctlS.setFlag (fVec_HOLD 0) true).flag (fVec_HOLD 0) = true ∧ (aft asleepS (.vlen tc .w8 9)).vecWaking 0 = true ∧
      asleepS.Issues tc { work := false } code asleepS ∧ tc.num / 2 = 0 ∧ asleepS.flag (fVec_AWAKE 0) = false) ∧
    (saveS.Issues tc profSupWork code saveS ∧ tg.valid = true ∧ tg ≠ tc ∧ (saveS.ctx tc).ga 1 = BitVec.ofNat 64 tg.handle ∧
      ((saveS.ctx tc).ga 2).toNat % 8192 = 0 ∧ (saveS.ctx tg).st = .faulted ∧ (saveS.ctx tg).job = (saveS.ctx tc).job ∧ saveS.ownMat tg = none ∧
      saveS.ownEw tg = none ∧ saveS.storesOut tg = false ∧
      (let p := saveS.vprobe (saveS.whoOf tc) .store 0x40004000 8192
       p.1 = .ok [] ∧ p.2.ownMat tg = none ∧ p.2.ownEw tg = none)) ∧
    (restS.Issues tc profSupWork code restS ∧ tn.valid = true ∧ tn ≠ tc ∧ (restS.ctx tc).ga 1 = BitVec.ofNat 64 tn.handle ∧ (restS.ctx tn).st = .idle ∧
      tn.kind ≠ .grove) :=
  ⟨⟨by decide +kernel, by decide +kernel, by decide +kernel, asleepS_vec, by decide +kernel, by decide +kernel⟩, ⟨saveS_sw, by decide +kernel⟩, ⟨restS_sw, by decide +kernel⟩⟩
/-- The area is written. -/
theorem wit_saved_area_written :
    (let p := saveS.vprobe (saveS.whoOf tc) .store 0x40004000 8192
     let w := p.2.writeParts (p.2.agtOf tc) 0x40004000 (p.2.savePieces tg)
     ok w && decide (w.2.ctx tc = saveS.ctx tc)) = true := by decide +kernel
/-- The area is read. -/
theorem wit_saved_area_read :
    (let r := restS.vread (restS.agtOf tc) 0x4000 8192
     ok r && decide (r.2.ctx tc = restS.ctx tc)) = true := by decide +kernel
theorem test_vectorUnit :
    leaves (.vectorPowerDown 0) awakeS (fun u => !u.flag (fVec_AWAKE 0)) ∧ idles (.vectorPowerDown 0) (awakeS.setFlag (fVec_HOLD 0) true) ∧
    leaves (.vlen tc .w8 9) asleepS (fun u => decide ((u.ctx tc).st = .wait) && u.vecWaking 0) ∧
    leaves (.vectorWakeDone 0) (aft asleepS (.vlen tc .w8 9)) (fun u => u.flag (fVec_AWAKE 0) && !u.vecWaking 0) := by decide +kernel
theorem test_tsave : leaves (.tsave tc 1 2) saveS (fun u => decide (u.ctx tg = Ctx.idle ∧ (u.ctx tc).pc = 0x104)) := by decide +kernel
theorem test_trestore : leaves (.trestore tc 1 2) (restS.setDramByte 0x40004010 0x77) (fun u => decide ((u.ctx tn).st = .ready ∧ (u.ctx tn).ga 2 = 0x77)) := by
  decide +kernel

/-! ### The matrix engine -/

/-- A grove thread that owns its engine: a1 = 0x2000 (A descriptor), a2 = 0x2040 (B descriptor), a3 = 1 (K), a4 = 0x2080 (drain descriptor), a5 = 0x3000
(configuration block). A is the 1 × 1 FP64 matrix 1.5 at 0x2800, B is 2.0 at 0x2808; the drain gives one FP64 element at 0x2810. -/
def matS : State :=
  { (jobS.setCtx tg (((((readyC.sa 1 0x2000).sa 2 0x2040).sa 3 1).sa 4 0x2080).sa 5 0x3000)).setMat 0 { Matrix.idle with owner := some tg } with
    dram := tables ++ cells 0x40002000 (natLE 8 0x2800 ++ natLE 4 1 ++ [0, 0, 1]) ++ cells 0x40002040 (natLE 8 0x2808 ++ natLE 4 1 ++ [0, 0, 1]) ++
      cells 0x40002080 (natLE 8 0x2810 ++ natLE 4 1 ++ [1, 1]) ++ cells 0x40002800 (natLE 8 0x3FF8000000000000 ++ natLE 8 0x4000000000000000) }
theorem matS_engine : matS.Issues tg profEngine code matS := by apply issues_of <;> decide +kernel


/-- A configuration block of zeros. -/
def epiS : State := (jobS.setCtx tg (readyC.sa 5 0x3000)).setMat 0 { Matrix.idle with owner := some tg }
theorem epiS_engine : epiS.Issues tg profEngine code epiS := by apply issues_of <;> decide +kernel
def blockR : MRes × State := epiS.vread (engAgt tg) 0x3000 4096

theorem epi_block : (let r := blockR
    ok r && !ctlBad (fieldLE (got r) 0x10 8) && decide (r.2.ctx tg = epiS.ctx tg) && (got r).all (· == 0)) = true := by decide +kernel
theorem wit_MatrixControlRetiresOrFaults :
    (matS.Issues tg profEngine code matS ∧ (matS.mat tg.groveOf).owner = some tg ∧ (matS.mat tg.groveOf).pend = false ∧ (matS.mat 0).queued 0 = false ∧
      ((matS.mat 0).tile 0).st = .empty ∧ (matS.mat 0).queue = [] ∧ (matS.mat 0).t1.st.code ≠ 2 ∧ epiS.Issues tg profEngine code epiS ∧ ((epiS.ctx tg).ga 5).toNat % 4096 = 0 ∧
      ok blockR = true ∧ ctlBad (fieldLE (got blockR) 0x10 8) = false ∧ blockR.2.ctx tg = epiS.ctx tg ∧
      (sliceB (got blockR) 0x50 0x7B0).any (· != 0) = false) ∧
    (let s := matS.setMat 0 { Matrix.idle with owner := some tg, mstat := 0x1000 }
     s.Issues tg profEngine code s ∧ (s.mat 0).owner = some tg ∧ (s.mat 0).pend = true) ∧
    (let s := matS.setMat 0 { Matrix.idle with owner := some ⟨.grove, 1⟩ }
     s.Issues tg profEngine code s ∧ (s.mat 0).owner = some ⟨.grove, 1⟩ ∧ (⟨.grove, 1⟩ : Tid) ≠ tg) := by
  have h := epi_block
  simp only [Bool.and_eq_true, decide_eq_true_eq, Bool.not_eq_true'] at h
  refine ⟨⟨matS_engine, by decide +kernel, by decide +kernel, by decide +kernel, by decide +kernel, by decide +kernel, by decide +kernel,
    epiS_engine, by decide +kernel, h.1.1.1, h.1.1.2, h.1.2, zero_slice _ h.2 _ _⟩, ⟨?_, by decide +kernel⟩,
    ⟨?_, by decide +kernel⟩⟩
  all_goals (apply issues_of <;> decide +kernel)
theorem test_matrix_control :
    leaves (.msarea tg 1) matS (fun u => decide ((u.mat 0).save = 0x2000 ∧ (u.ctx tg).pc = 0x104)) ∧
    leaves (.mzero tg 0) matS (fun u => decide (((u.mat 0).tile 0).st = .empty)) ∧
    leaves (.mwait tg 9) matS (fun u => decide ((u.ctx tg).pc = 0x104)) := by decide +kernel
theorem test_mstat : leaves (.mstat tg 9 true) (matS.setMat 0 { Matrix.idle with owner := some tg, mstat := 0x1041 })
    (fun u => decide ((u.mat 0).mstat = 0x1000 ∧ (u.ctx tg).pc = 0x104)) := by decide +kernel

theorem wit_MatrixWorkIsQueued :
    matS.Issues tg profEngine code matS ∧ (matS.mat 0).owner = some tg ∧ (matS.mat 0).pend = false ∧ (matS.mat 0).queue.length < 4 ∧
    ((matS.ctx tg).ga 1).toNat % 32 = 0 ∧ ((matS.ctx tg).ga 2).toNat % 32 = 0 ∧ ((matS.ctx tg).ga 4).toNat % 128 = 0 ∧
    (let own := { matS.mat 0 with owner := some tg }
     let s1 := matS.setMat 0 own
     let a := s1.opndBytes tg own true 0x2000
     let b := a.2.opndBytes tg own false 0x2040
     let x := Opnd.ofBytes (got a)
     let y := Opnd.ofBytes (got b)
     let p := b.2.probeRanges .jobLevel .load (x.region 1 ++ x.auxRegion 1 ++ y.region 1 ++ y.auxRegion 1)
     ok a = true ∧ ok b = true ∧ pairClass x.eff y.eff = some 0 ∧ x.bad 1 = false ∧ y.bad 1 = false ∧ p.1 = .ok ∧ (p.2.ctx tg).stopPending = false) ∧
    (let s1 := matS.setMat 0 { matS.mat 0 with owner := some tg }
     let r := s1.vread (engAgt tg) 0x2080 128
     let e := drainDesc (got r)
     let w := cfgCtl (matS.mat 0).epi
     let p := r.2.drainProbe w e
     ok r = true ∧ e.reserved = false ∧ e.rows = 1 ∧ e.cols = 1 ∧ ctlBad w = false ∧ (matS.ctx tg).effRm (bitsOf w 15 13) ≠ 6 ∧ p.1 = .ok ∧
       (p.2.ctx tg).stopPending = false) :=
  ⟨matS_engine, by decide +kernel⟩

/-- An MMA is queued; it has been executed; its drain is queued; the drain has begun. -/
def mmaS : State := aft matS (.mma tg 0 3 1 2)
def sumS : State := aft mmaS (.mmaExecute 0)
def drnS : State := aft sumS (.mdrain tg 0 4)
def outS : State := aft drnS (.drainStart 0 0)

theorem test_mma : leaves (.mma tg 0 3 1 2) matS (fun u => decide ((u.mat 0).queue.length = 1 ∧ (u.ctx tg).pc = 0x104)) := by decide +kernel
theorem test_mmaExecute : leaves (.mmaExecute 0) mmaS (fun u =>
    decide (((u.mat 0).tile 0).st = .filling ∧ (u.mat 0).queue = [] ∧ ((u.mat 0).tile 0).el.map (·.1) = [0])) := by decide +kernel
theorem test_mdrain : leaves (.mdrain tg 0 4) sumS (fun u => decide (((u.mat 0).tile 0).st = .closed ∧ (u.mat 0).queue = [.drain 0])) := by decide +kernel
theorem test_drainStart : leaves (.drainStart 0 0) drnS (fun u =>
    decide (((u.mat 0).tile 0).st = .draining ∧ (((u.mat 0).tile 0).drain.map (·.out)) = some [0x4008000000000000])) := by decide +kernel
theorem test_drainComplete : leaves (.drainComplete 0 0) outS (fun u =>
    decide (u.dramBytes 0x40002810 8 = natLE 8 0x4008000000000000 ∧ ((u.mat 0).tile 0).st = .empty)) := by decide +kernel

theorem wit_MatrixWorkExecutes :
    ((mmaS.mat 0).owner = some tg ∧ ((mmaS.mat 0).tile 0).st = .empty ∧
      (match firstMma (mmaS.mat 0).queue [] with
       | some (tile, k, da, db) =>
         let q := mmaS.askRanges (tileAgt tg tile) ((Opnd.ofBytes da).region k ++ (Opnd.ofBytes da).auxRegion k ++ (Opnd.ofBytes db).region k ++
           (Opnd.ofBytes db).auxRegion k)
         let a := q.2.readOpnd (tileAgt tg tile) (Opnd.ofBytes da) k
         let b := a.2.2.readOpnd (tileAgt tg tile) (Opnd.ofBytes db) k
         decide (q.1 = true ∧ tile = 0 ∧ k = 1 ∧ a.1 = .ok [] ∧ b.1 = .ok [] ∧ b.2.2.injArmed 0x100 1 = false)
       | none => false) = true) ∧
    ((drnS.mat 0).owner = some tg ∧ ((drnS.mat 0).tile 0).st = .closed ∧ drainFirst 0 (drnS.mat 0).queue = true ∧
      (((drnS.mat 0).tile 0).drain.map fun d => (bitAt (cfgCtl d.cfg) 0, bitAt (cfgCtl d.cfg) 2, bitAt (cfgCtl d.cfg) 17)) = some (false, false, false)) ∧
    (let d : Drain := { cfg := [(0x13, 0x01)], desc := [], rm := 0, out := [], wrote := false }
     let s := matS.setMat 0 { Matrix.idle with owner := some tg, t0 := { Tile.clear with st := .draining, drain := some d } }
     ((s.mat 0).tile 0).drain = some d ∧ ((s.mat 0).tile 0).st = .draining ∧ bitAt (cfgCtl d.cfg) 24 = true ∧ bitAt (cfgCtl d.cfg) 23 = false ∧
     s.writeBackOut tg 0 = false) := by decide +kernel

/-! ### The element-wise engine -/

/-- A grove thread whose core's tile registers have an extent of 1 × 2 in 64-bit integers: tile 0 is (5, 7), tile 1 is (2, 0), tile 3 is (9, 9). a1 is
0x2000, a2 0x2040 holds a program, a3 a binding of its inputs to tiles 0 and 1 and its output to tile 2, a4 a conversion from FP64 to FP32. -/
def ewS : State :=
  { (jobS.setCtx tg ((((readyC.sa 1 0x2000).sa 2 0x2040).sa 3 0x00020010).sa 4 0x20)).setEw 0
      { Ew.idle with rows := 1, cols := 2, tiles := [(0, 5), (8, 7), (4096, 2), (12288, 9), (12296, 9)] } with
    dram := tables ++ cells 0x40002000 [0x5A] ++ cells 0x40002040 (natLE 8 193) ++ cells 0x40002088 (natLE 8 303744) }
theorem ewS_engine : ewS.Issues tg profEngine code ewS := by apply issues_of <;> decide +kernel
/-- Its extent is one element. -/
def oneS : State := ewS.setEw 0 { ewS.ew 0 with cols := 1 }
theorem oneS_engine : oneS.Issues tg profEngine code oneS := by apply issues_of <;> decide +kernel

/-- The engine is free for the thread: no owner but it, no deferred error, no split that waits, no injection. -/
def ewFree (s : State) : Bool :=
  decide ((s.ew 0).owner = none ∨ (s.ew 0).owner = some tg) && !(s.ew 0).pending && decide ((s.ew 0).queue.length ≤ 7) && !s.splitPending 0 && !s.injArmed 0x100 2 && decide ((s.ew 0).rows ≤ 32)

theorem wit_ElementWiseArithmeticRetires :
    ewS.Issues tg profEngine code ewS ∧ ewCore tg = 0 ∧ ewFree ewS = true ∧ (ewS.ctx tg).effRm 0 ≤ 4 ∧
    (∀ f : Fin 7, (ewFmt f).isSome = true) ∧ (⟨8, none, true⟩ : EFmt).allows 18 = true ∧ (⟨8, some fmtD, true⟩ : EFmt).allows 11 = true ∧
    predOk 0 = true ∧ predOk 0x11 = true ∧ ((⟨8, some fmtD, true⟩ : EFmt).fp.isSome = true ∧ (3 : Fin 8).val < 4) ∧ (⟨8, none, true⟩ : EFmt).fp.isSome = false :=
  ⟨ewS_engine, by decide +kernel⟩
/-- The row of tile 2 after a command. -/
def givesRow (i : Instr) (x y : Nat) : Bool := leaves i ewS fun u => decide ((u.ew 0).el 8 2 0 0 = x ∧ (u.ew 0).el 8 2 0 1 = y ∧ (u.ctx tg).pc = 0x104)
theorem test_eFunc : givesRow (.eFunc tg 0 0 3 2 0 1) 7 7 ∧ givesRow (.eFunc tg 6 0 3 2 0 1) 5 7 := by decide +kernel
theorem test_ecmp : givesRow (.ecmp tg 4 3 2 0 1) (2 ^ 64 - 1) (2 ^ 64 - 1) ∧ givesRow (.ecmp tg 0 3 2 0 0) (2 ^ 64 - 1) (2 ^ 64 - 1) := by decide +kernel
theorem test_ered : givesRow (.ered tg 0 0 3 2 0) 12 0 := by decide +kernel
theorem test_expd : givesRow (.expd tg 3 2 0 1) 5 0 := by decide +kernel
theorem test_esum : leaves (.esum tg 2 3 3 1) ewS (fun u => decide (tabGet slotZero (u.ew 0).slots 3 = 1)) := by decide +kernel

theorem wit_TileMemoryAccessesRetire :
    oneS.Issues tg profEngine code oneS ∧ ewFree oneS = true ∧ (oneS.ew 0).rows = 1 ∧ (oneS.ew 0).cols = 1 ∧ (oneS.ctx tg).gsIdx = 0 ∧
    (let own := oneS.setEw 0 { oneS.ew 0 with owner := some tg }
     let r := own.tileRead tg false 8 0x2000 8
     let w := own.tileWrite tg false 8 0x2000 ((oneS.ew 0).el 8 0 0 0)
     ok r = true ∧ r.2.ctx tg = oneS.ctx tg ∧ r.2.ew 0 = { oneS.ew 0 with owner := some tg } ∧ ok w = true ∧ w.2.ctx tg = oneS.ctx tg ∧
     w.2.ew 0 = { oneS.ew 0 with owner := some tg }) ∧
    (let own := (oneS.setEw 0 { oneS.ew 0 with owner := some tg }).keepPacked tg (some ((oneS.ew 0).active 8 1))
     let r := own.tileRead tg false 8 0x2000 8
     let w := own.tileWrite tg false 8 0x2000 ((oneS.ew 0).el 8 0 0 0)
     (oneS.ctx tg).inAccess = false ∧ ok r = true ∧ r.2.ctx tg = own.ctx tg ∧ r.2.ew 0 = own.ew 0 ∧ ok w = true ∧ w.2.ctx tg = own.ctx tg ∧
     w.2.ew 0 = own.ew 0) ∧
    (oneS.ew 0).queue = [] ∧ farStride ((oneS.ctx tg).ga 0) = false ∧ ((oneS.ew 0).strided 8 0x2000 0).length = 1 ∧
    (oneS.ew 0).active 8 1 = [(0, 0)] ∧ (packedEls 8 0x2000 1).map (·.va) = [0x2000] ∧ (oneS.ew 0).el 8 1 0 0 ≠ 0 ∧ (oneS.ew 0).el 8 2 0 0 = 0 :=
  ⟨oneS_engine, by decide +kernel⟩
theorem test_etld : leaves (.etld tg .w8 2 1 0) oneS (fun u => decide ((u.ew 0).el 8 2 0 0 = 0x5A)) := by decide +kernel
theorem test_etst : leaves (.etst tg .w8 0 1 0) oneS (fun u => decide (u.dramByte 0x40002000 = 5)) := by decide +kernel
theorem test_expdld : leaves (.expdld tg .w8 2 1 9 1) oneS (fun u => decide ((u.ew 0).el 8 2 0 0 = 0x5A ∧ (u.ctx tg).ga 9 = 1)) ∧
    leaves (.expdld tg .w8 2 1 9 2) oneS (fun u => decide ((u.ctx tg).ga 9 = 0 ∧ (u.ctx tg).pc = 0x104)) := by decide +kernel
theorem test_ecprst : leaves (.ecprst tg .w8 0 1 9 1) oneS (fun u => decide (u.dramByte 0x40002000 = 5 ∧ (u.ctx tg).ga 9 = 1)) := by decide +kernel

/-- The program is taken. -/
def progS : State := ewS.setEw 0 { ewS.ew 0 with prog := some (natLE 8 193 ++ List.replicate 64 0 ++ natLE 8 303744 ++ List.replicate 304 0) }
theorem progS_engine : progS.Issues tg profEngine code progS := by apply issues_of <;> decide +kernel
/-- A deferred error waits. -/
def lateS : State := ewS.setEw 0 { ewS.ew 0 with pending := true }
/-- Another thread owns the tile registers. -/
def otherS : State := ewS.setEw 0 { ewS.ew 0 with owner := some ⟨.grove, 1⟩ }
/-- A new split waits. -/
def splitS : State := ewS.setFld (fGrove_SPLIT 0) 2

theorem wit_LaneProgramsConversionsAndControlRetire :
    (ewS.Issues tg profEngine code ewS ∧ ewFree ewS = true ∧ ((ewS.ctx tg).ga 2).toNat % 64 = 0 ∧
      (let r := (ewS.setEw 0 { ewS.ew 0 with owner := some tg }).vread (ewS.agtOf tg) 0x2040 384
       ok r = true ∧ progBad (got r) = false ∧ r.2.ctx tg = ewS.ctx tg)) ∧
    (progS.Issues tg profEngine code progS ∧ ewFree progS = true ∧
      (match (progS.ew 0).prog with
       | some bs => decide (ewFmt (eprogOf bs).fmt = some ⟨8, none, true⟩ ∧ progBad bs = false ∧ bindBad (eprogOf bs) 0x00020010 = false)
       | none => false) = true) ∧
    ((ecvtOf 0x20).bad = false ∧ (ewS.ctx tg).effRm (ecvtOf 0x20).rm ≠ 6 ∧ ecvtCode (ecvtOf 0x20).src = true ∧ ecvtCode (ecvtOf 0x20).tgt = true) ∧
    (lateS.Issues tg profEngine code lateS ∧ (lateS.ew 0).pending = true ∧ lateS.splitPending 0 = false) ∧
    (otherS.Issues tg profEngine code otherS ∧ (otherS.ew 0).owner = some ⟨.grove, 1⟩ ∧ (⟨.grove, 1⟩ : Tid) ≠ tg) ∧
    (splitS.Issues tg profEngine code splitS ∧ splitS.splitPending tg.groveOf = true ∧ (splitS.ctx tg).inAccess = false) ∧
    ((∀ e ∈ splitS.thr.ctxs, e.1 / 256 = 0 → e.2.inTileAccess = false) ∧
      (∃ e ∈ (splitS.modCtx tg fun c => c.waiting (.etld tg .w8 2 1 0) .access).thr.ctxs, e.1 / 256 = 0 ∧ e.2.inTileAccess = true)) := by
  refine ⟨⟨ewS_engine, by decide +kernel⟩, ⟨progS_engine, by decide +kernel⟩, by decide +kernel, ⟨?_, by decide +kernel⟩, ⟨?_, by decide +kernel⟩,
    ⟨?_, by decide +kernel⟩, by decide +kernel⟩
  all_goals (apply issues_of <;> decide +kernel)
theorem test_eprog : leaves (.eprog tg 2) ewS (fun u => decide ((u.ew 0).prog.map (fun b => (eprogOf b).nops) = some 1)) := by decide +kernel
theorem test_erun : leaves (.erun tg 3) progS (fun u => decide ((u.ew 0).el 8 2 0 0 = 7 ∧ (u.ew 0).el 8 2 0 1 = 7)) := by decide +kernel
theorem test_ecvt : leaves (.ecvt tg 2 0 4) (ewS.setEw 0 { ewS.ew 0 with tiles := [(6, 0xF8), (7, 0x3F)] })
    (fun u => decide ((u.ew 0).el 4 2 0 0 = 0x3FC00000 ∧ (u.ctx tg).pc = 0x104)) := by decide +kernel
theorem test_eshape : leaves (.eshape tg 1) (ewS.modCtx tg fun c => c.sa 1 0x8020) (fun u => decide ((u.ew 0).rows = 32 ∧ (u.ew 0).cols = 128)) ∧
    leaves (.eshape tg 1) (ewS.modCtx tg fun c => c.sa 1 0x8021) (fun u => decide ((u.ctx tg).st = .faulted ∧ (u.ew 0).rows = 1)) := by decide +kernel
theorem test_ew_control :
    leaves (.esarea tg 1) ewS (fun u => decide ((u.ew 0).save = 0x2000)) ∧
    leaves (.esrd tg 9 3) (ewS.setEw 0 { ewS.ew 0 with slots := [(3, 6)] }) (fun u => decide ((u.ctx tg).ga 9 = 6)) ∧
    leaves (.ewait tg 9) ewS (fun u => decide ((u.ctx tg).pc = 0x104)) ∧
    leaves (.ewait tg 9) lateS (fun u => decide ((u.ctx tg).st = .faulted ∧ (u.ew 0).pending = false)) ∧
    leaves (.estat tg 9 true) (ewS.setEw 0 { ewS.ew 0 with eflags := 3 }) (fun u => decide ((u.ew 0).eflags = 0)) ∧
    leaves (.ewait tg 9) otherS (fun u => decide ((u.ctx tg).st = .wait)) := by decide +kernel
theorem test_ewSplitApply : leaves (.ewSplitApply 0) splitS (fun u => decide (u.fld (fGrove_APPLIED 0) = 2)) := by decide +kernel

/-! ### Stacks, views, copy rings -/

/-- Stack 0 with 100 lines, the scrub at line 5. -/
def scrubS : State := (runS.setFld (fScrub_LINES 0) 100).setFld (fScrub_POS 0) 5

theorem wit_ScrubReadsLineByLine :
    (runS.setFlag (fMem_STOP 0) true).flag (fMem_STOP 0) = true ∧ runS.fld (fScrub_LINES 0) = 0 ∧ 5 < userLines ∧
    (let s := scrubS.setPcState 0 (offPc (5 * 64)) 2
     s.pcState 0 (offPc (5 * 64)) = 2) ∧
    scrubS.flag (fMem_STOP 0) = false ∧ scrubS.pwr.mode ≠ .ret ∧ scrubS.fld (fScrub_LINES 0) = 100 ∧ scrubS.pcState 0 (offPc (5 * 64)) = 0 ∧
    scrubS.badLanes 0 (offPc (5 * 64)) = [] ∧ scrubS.poisoned 5 = false ∧ scrubS.symErr 5 = [] ∧
    (scrubS.dir 5).mod = false ∧ 1 < scrubS.laneThr 0 ∧ 1 < scrubS.rowThr 0 ∧
    tabGet cntZero (scrubS.stk 0).laneCnt (offPc (5 * 64) * 16 + 71 / 8) + 1 < scrubS.laneThr 0 ∧
    tabGet cntZero (scrubS.stk 0).rowCnt (rowKey (offPc (5 * 64)) (offBank (5 * 64)) (offRow (5 * 64))) + 1 < scrubS.rowThr 0 := by decide +kernel
theorem test_scrubRead :
    leaves (.scrubRead 0 [] 0) scrubS (fun u => decide (u.fld (fScrub_POS 0) = 6 ∧ u.fld (fProt_CE_COUNT 0) = 0)) ∧
    leaves (.scrubRead 0 [71] 0) scrubS (fun u => decide (u.fld (fScrub_POS 0) = 6 ∧ u.fld (fProt_CE_COUNT 0) = 1 ∧ u.fld (fProt_CE_LANE 0) = 8)) := by
  decide +kernel

/-- A lane repair of pseudo-channel 63 waits: the lane is bad and the pseudo-channel degraded; it is in progress; a row repair is in progress. -/
def laneQS : State := (runS.modStk 0 fun x => { x with laneBad := [63 * 16 + 8], laneQ := [.lane 63 8] }).setPcState 0 63 1
def laneS : State := (runS.modStk 0 fun x => { x with laneBad := [63 * 16 + 8], cur := some (.lane 63 8) }).setPcState 0 63 2
def rowS : State := (runS.modStk 0 fun x => { x with cur := some (.row 63 63 32767) }).setPcState 0 63 2

theorem wit_RepairsRunToTheirEnd :
    (laneQS.flag (fMem_STOP 0) = false ∧ laneQS.pwr.mode ≠ .ret ∧ (laneQS.stk 0).cur = none ∧ laneQS.nextRepair 0 = some (.lane 63 8)) ∧
    ((laneS.stk 0).cur = some (.lane 63 8) ∧ laneS.badLanes 0 63 = [8]) ∧
    ((rowS.stk 0).cur = some (.row 63 63 32767) ∧
      ((List.range 16).foldl (fun t c => t.copyRowLine (offOf 63 63 32767 c / 64)) rowS).badLanes 0 63 = []) := by decide +kernel
theorem test_repairStart : leaves (.repairStart 0) laneQS (fun u => decide ((u.stk 0).cur = some (.lane 63 8) ∧ u.pcState 0 63 = 2)) := by decide +kernel
theorem test_rowRepairComplete : leaves (.rowRepairComplete 0) rowS (fun u => decide (u.pcState 0 63 = 0 ∧ (u.stk 0).recRows = [.row 63 63 32767])) := by
  decide +kernel

/-- A combiner entry holds an addition of 5 to the place at 0x40002000, which holds 7. -/
def combS : State :=
  { runS with dram := [(0x40002000, 7)] }.modStk 0 fun x => { x with comb := [(0x40002000 / 64,
    [{ id := 0, port := 0, op := 0, aw := 8, operand := 5, key := 0x40002000, src := 0, job := 0x11, addr := 0, tag := 0 }])] }

theorem wit_StacksReportAndCombine :
    runS.memUp = true ∧ (4 : Nat) > 3 ∧ (runS.setFlag (fMem_STOP 0) true).flag (fMem_STOP 0) = true ∧ ((runS.setFlag (fMem_STOP 0) true).stk 0).stopSaid = false ∧
    (combS.memUp = true ∧ (combS.stk 0).comb.length = 1 ∧ 0x40002000 % 64 + 8 ≤ 64 ∧ keyStack (0x40002000 / 64 * 64) = 0 ∧
      combS.lineGood (0x40002000 / 64) = true ∧ combS.accessStalled (0x40002000 / 64 * 64) 64 true = false ∧
      combS.biNeeded (0x40002000 / 64) true .none = false ∧ (∀ e ∈ combS.thr.ctxs, e.2.lines = [])) := by decide +kernel
theorem wit_StacksReportAndCombine_arm : ∀ p, combS.flag (fInj_ARM p) = false := no_arm _ (by decide +kernel)
theorem test_interfaceCrcFail :
    leaves (.interfaceCrcFail (.stackIf 7) 3 3) runS (fun u => decide (u.fld (fMem_IF_RETRY 7) = 3 ∧ u.fld fSafe_LOG_SEQ = runS.fld fSafe_LOG_SEQ)) ∧
    leaves (.interfaceCrcFail (.stackIf 7) 3 4) runS (fun u => decide (u.fld fSafe_LAST_CLASS = 0x0E) && u.mem.xfer.contains 3) := by decide +kernel
/-- T2 is 105 °C after reset (Table 7.9), in units of 1/8 °C. -/
theorem test_tempSample :
    leaves (.tempSample 0 (some (BitVec.ofNat 12 (8 * runS.fld (fMem_T2 0))))) runS (fun u => u.flag (fMem_STOP 0)) ∧
    leaves (.tempSample 0 (some 0)) ((runS.setFlag (fMem_STOP 0) true).setFld (fMem_STEP 0) 7) (fun u => decide (u.fld (fMem_STEP 0) = 0) && !u.flag (fMem_STOP 0)) := by
  decide +kernel
theorem test_thermalStopTimeout : leaves (.thermalStopTimeout 0) (runS.setFlag (fMem_STOP 0) true) (fun u => decide (u.fld fSafe_LAST_CLASS = 0x41)) := by
  decide +kernel
theorem test_combinerApply : leaves (.combinerApply 0 (0x40002000 / 64)) combS (fun u => decide (u.dramByte 0x40002000 = 12 ∧ (u.stk 0).comb = [])) := by
  decide +kernel

/-- View entry 1023 presents 16 FP64 values stored at 0x10000 as FP32 from 2 GiB up; its EN is clear. -/
def viewS (sfmt pfmt count job : Nat) : State :=
  { jobS with bar2 := cells (viewOff 1023) (natLE 8 0x80000000 ++ natLE 8 0x10000 ++ natLE 8 count ++ natLE 8 0 ++ natLE 8 0 ++
      [BitVec.ofNat 8 sfmt, BitVec.ofNat 8 pfmt, 0, 0] ++ natLE 2 job) }
/-- The check of a table entry after EN is set. -/
def viewAt (s : State) : VCheck × State := (s.putBarNat (viewOff 1023 + 0x3F) 1 1).viewCheck 1023

theorem wit_ViewsRoutesAndCopyRingAct :
    (jobS.tabUp .host = true ∧ (viewS 0 1 16 0x11).viewEn 1023 = false ∧ (viewS 0 0 16 0x11).tabUp .host = true ∧
      ((viewS 9 9 16 0x11).putBarNat (viewOff 1023 + 0x3F) 1 1).viewBadFormat 1023 = true ∧
      ((viewS 0 1 0 0x11).putBarNat (viewOff 1023 + 0x3F) 1 1).viewBadFormat 1023 = false ∧
      (((viewS 0 1 0 0x11).putBarNat (viewOff 1023 + 0x3F) 1 1).view 1023).badAlign = true ∧
      (viewAt (viewS 0 1 16 0x12)).1 = .refused 3 ∧ (viewAt (viewS 0 1 16 0x11)).1 = .valid 1) ∧
    (let s := { viewS 0 1 16 0x11 with bar2 := (viewS 0 1 16 0x11).bar2 ++ [(viewOff 1023 + 0x30, 1), (viewOff 1023 + 0x32, 1), (viewOff 1023 + 0x3F, 1)] }
     s.viewEn 1023 = true ∧ s.viewValid 1023 = true ∧ s.viewInUse 1023 = false ∧ (s.view 1023).stackSet = 1) := by decide +kernel
theorem test_viewRegister :
    leaves (.viewRegister .host 1023) (viewS 0 1 16 0x11) (fun u => decide (u.barNat (viewOff 1023 + 0x30) 4 = 0x10001 ∧ u.fld (fView_SLOTS_USED 0) = 1)) ∧
    leaves (.viewRegister .host 1023) (viewS 0 1 16 0x12) (fun u => decide (u.barNat (viewOff 1023 + 0x30) 4 = 0x302)) := by decide +kernel
theorem test_viewDeregister :
    leaves (.viewDeregister .host 1023) (({ viewS 0 1 16 0x11 with bar2 := (viewS 0 1 16 0x11).bar2 ++ [(viewOff 1023 + 0x30, 1), (viewOff 1023 + 0x32, 1),
      (viewOff 1023 + 0x3F, 1)] }).setFld (fView_SLOTS_USED 0) 1) (fun u => decide (u.barNat (viewOff 1023 + 0x30) 4 = 0 ∧ u.fld (fView_SLOTS_USED 0) = 0)) := by
  decide +kernel
theorem test_routeTableWrite : leaves (.routeTableWrite .host 0xFFFF 0x1FFFF) runS (fun u => decide (u.route 0xFFFF = 0x1FFFF ∧ u.route 0xFFFE = 0)) := by
  decide +kernel

/-- Stack 0's copy ring of 16 entries at 0x8000: PROD is 1, CONS 0; the first descriptor moves 64 bytes from 0x2000 to 0x2040. -/
def ringCells : List (Nat × Byte) :=
  cells 0x40002000 [7] ++ cells 0x40008000 [1] ++ cells 0x40008040 (natLE 8 0x2000 ++ natLE 8 0x2040 ++ natLE 8 64)
/-- The ring's registers as they are before EN is set, and after the head has been read. -/
def crOffS : State := ({ jobS with dram := tables ++ ringCells }.setFld (fCopy_CR_BASE 0) (0x8000 / 64)).setFld (fCopy_LOG2N 0) 4
def crOnS : State := (crOffS.setFlag (fCopy_EN 0) true).modStk 0 fun x => { x with copyProd := 1, copyNext := 0, copies := [] }
/-- The descriptor that the ring gives, as it stands in progress, and ended. -/
def aCopy : CopyJob := { va := 0x8040, idx := 0, off := 0, code := 0, xcode := 0, ended := false }
def crRunS : State := crOnS.modStk 0 fun y => { y with copies := [aCopy], copyNext := 1 }
def crEndS : State := (crOnS.modStk 0 fun y => { y with copies := [{ aCopy with off := 64, ended := true }], copyNext := 1 }).setFld (fCopy_ACTIVE 0) 1

theorem wit_ViewsRoutesAndCopyRingAct_ring :
    crOffS.memWf = true ∧
    (crOffS.agentUp .host = true ∧ crOffS.flag (fCopy_EN 0) = false ∧
      (let s0 := crOffS.setFlag (fCopy_EN 0) true
       let r := s0.vread unitAgt (crOffS.copyHead 0 + 8) 4
       let s1 := (((r.2.setFld (fCopy_CR_CONS 0) 0).modStk 0 fun x => { x with copyProd := 0, copyNext := 0 }).modStk 0
         fun x => { x with due := { x.due with head := 0 } }).syncCopy 0
       let p := s1.vread unitAgt (s1.copyHead 0) 4
       r.1 = .ok (natLE 4 0) ∧ (r.2.stk 0).copies = [] ∧ (r.2.stk 0).due.cons = false ∧ p.1 = .ok (natLE 4 1) ∧ (1 + 2 ^ 32 - p.2.fld (fCopy_CR_CONS 0)) % 2 ^ 32 ≤ p.2.copyLen 0)) ∧
    (crOnS.flag (fCopy_EN 0) = true ∧ crOnS.flag fSafe_SAFE = false ∧ crOnS.flag (fGated 0x0C4) = false ∧ (crOnS.stk 0).due.head ≠ 2 ∧
      (let r := crOnS.vread unitAgt (crOnS.copyHead 0) 4
       r.1 = .ok (natLE 4 1) ∧ (1 + 2 ^ 32 - r.2.fld (fCopy_CR_CONS 0)) % 2 ^ 32 ≤ r.2.copyLen 0)) ∧
    (let s := { crOnS with dram := tables ++ cells 0x40008000 [17] }
     let r := s.vread unitAgt (s.copyHead 0) 4
     s.memWf = true ∧ r.1 = .ok (natLE 4 17) ∧ r.2.copyLen 0 < (17 + 2 ^ 32 - r.2.fld (fCopy_CR_CONS 0)) % 2 ^ 32) := by decide +kernel
theorem wit_ViewsRoutesAndCopyRingAct_line :
    (crOnS.snapHere 0 = false ∧ (crOnS.stk 0).copies = [] ∧ (crOnS.stk 0).copyNext ≠ crOnS.ringEnd (crOnS.stk 0).copyProd (crOnS.stk 0).due) ∧
    (let r := crRunS.vread unitAgt 0x8040 64
     let a := r.2.copySide 0x2000 .load
     let b := a.2.copySide 0x2040 .store
     let s3 := b.2
     ok r = true ∧ (r.2.stk 0).copies = [aCopy] ∧ r.2.copyRefusal (got r) = 0 ∧ fieldLE (got r) 16 8 = 64 ∧ a.1 = .key 0x40002000 ∧ b.1 = .key 0x40002040 ∧
     (s3.stk 0).copies = [aCopy] ∧ s3.accessStalled 0x40002000 64 false = false ∧ s3.accessStalled 0x40002040 64 true = false ∧ (s3.stk 0).comb = [] ∧
     s3.decode (0x40002000 / 64) = .clean ∧ s3.lineGood (0x40002000 / 64) = true ∧ s3.pcState 0 (offPc (keyOff 0x40002040)) ≠ 3 ∧
     s3.regs.all (fun e => e.1 % 512 != 4) = true) ∧
    (let s := { crRunS with dram := tables ++ cells 0x40008000 [1] ++ cells 0x40008040 (natLE 8 0x2000 ++ natLE 8 0x2040 ++ natLE 8 65) }
     (s.vread unitAgt 0x8040 64).2.copyRefusal (got (s.vread unitAgt 0x8040 64)) = 1) ∧
    (let r := crEndS.vread unitAgt 0x8040 64
     let w := crEndS.vwrite unitAgt (0x8040 + 0x1C) (natLE 4 1)
     ok r = true ∧ bitAt (fieldLE (got r) 0x1A 1) 0 = false ∧ ok w = true ∧ (w.2.stk 0).copies = [{ aCopy with off := 64, ended := true }]) := by decide +kernel
theorem test_copyRingEnable : leaves (.copyRingEnable .host 0) crOffS (fun u => u.flag (fCopy_EN 0) && decide ((u.stk 0).copyProd = 1)) := by decide +kernel
theorem test_copyRingProd :
    leaves (.copyRingProd 0) crOnS (fun u => decide ((u.stk 0).copyProd = 1)) ∧
    leaves (.copyRingProd 0) { crOnS with dram := tables ++ cells 0x40008000 [17] } (fun u => !u.flag (fCopy_EN 0) && u.flag (fErr_RING (copyPage 0))) := by
  decide +kernel
theorem test_copyDescriptor : leaves (.copyDescriptor 0) crOnS (fun u => decide (u.dramByte 0x40002040 = 7 ∧ (u.stk 0).copies = [{ aCopy with off := 64, ended := true }])) := by
  decide +kernel
theorem test_copyDescriptorDone : leaves (.copyDescriptorDone 0) crEndS
    (fun u => decide (u.dramBytes 0x4000805C 12 = natLE 4 1 ++ natLE 8 0 ∧ u.fld (fCopy_CR_CONS 0) = 1 ∧ u.fld (fCopy_ACTIVE 0) = 0)) := by decide +kernel

/-! ### The solver -/

/-- A descriptor of one dense 1 × 1 system: its terms at 0x2000, its solution at 0x2100, its factor area at 0x3000, its status record at 0x2200. -/
def solvDesc (mode count deadline : Nat) : List Byte :=
  [BitVec.ofNat 8 (mode * 4), 1, 0, 0] ++ natLE 2 1 ++ [1, 10] ++ natLE 4 count ++ natLE 4 0 ++ natLE 8 0x2000 ++ natLE 8 2 ++ natLE 8 0x2100 ++ natLE 8 8 ++
    natLE 8 0x2100 ++ natLE 8 8 ++ natLE 8 0x3000 ++ natLE 8 4096 ++ natLE 8 0x2200 ++ natLE 8 0x2300 ++ natLE 8 0 ++ natLE 8 deadline ++ natLE 8 0
/-- Its terms: entry (0, 0) is 2.0, right-hand side 0 is 6.0. -/
def solvTerms : List Term :=
  [{ row := 0, col := 0, kind := 0, pa := 0xFFF, pb := 0xFFF, c := 0x4000000000000000 },
   { row := 0, col := 0xFFF0, kind := 0, pa := 0xFFF, pb := 0xFFF, c := 0x4018000000000000 }]
/-- Engine 63's ring of 16 entries at 0xA000, with the descriptor as its first entry; PROD is `prod`. -/
def solvMem (prod : Nat) (d : List Byte) : List (Nat × Byte) :=
  tables ++ cells 0x40002000 (natLE 4 0 ++ [0, 0xFF, 0xFF, 0xFF] ++ natLE 8 0x4000000000000000 ++ natLE 2 0 ++ natLE 2 0xFFF0 ++ [0, 0xFF, 0xFF, 0xFF] ++
    natLE 8 0x4018000000000000) ++ cells 0x4000A000 (natLE 4 prod) ++ cells 0x4000A080 d
def jrOffS : State := ({ jobS with dram := solvMem 1 (solvDesc 0 1 0) }.setFld (fSolv_JR_BASE 63) (0xA000 / 128)).setFld (fSolv_LOG2N 63) 4
def jrOnS : State := (jrOffS.setFlag (fSolv_EN 63) true).modSolv 63 fun x => { x with prod := 1, next := 0 }
/-- The job is in progress at its system `next`. -/
def sjob (mode deadline next : Nat) : SJob :=
  { va := 0xA080, idx := 0, desc := solvDesc mode 1 deadline, terms := solvTerms, next := next, charge := 1, handoffs := 0, epoch := 0 }
def jobIn (j : SJob) : State := jrOnS.modSolv 63 fun x => { x with next := 1, job := some j }

theorem wit_SolverJobsAndSystemsEnd :
    jrOffS.memWf = true ∧
    (jrOffS.agentUp .host = true ∧ jrOffS.flag (fSolv_EN 63) = false ∧
      (let s0 := jrOffS.setFlag (fSolv_EN 63) true
       let r := s0.vread unitAgt (jrOffS.solvHead 63 + 8) 4
       let s1 := ((r.2.setFld (fSolv_JR_CONS 63) 0).modSolv 63 fun x => { x with prod := 0, next := 0 }).modSolv 63 fun x =>
         { x with due := { x.due with head := 0 } }
       let p := s1.vread unitAgt (s1.solvHead 63) 4
       r.1 = .ok (natLE 4 0) ∧ (r.2.solv 63).job = none ∧ (r.2.solv 63).due.cons = false ∧ p.1 = .ok (natLE 4 1) ∧ (1 + 2 ^ 32 - p.2.fld (fSolv_JR_CONS 63)) % 2 ^ 32 ≤ p.2.solvLen 63)) ∧
    (jrOnS.memWf = true ∧ jrOnS.flag (fSolv_EN 63) = true ∧ jrOnS.flag fSafe_SAFE = false ∧ jrOnS.flag (fGated (solvPage 63)) = false ∧
      (jrOnS.solv 63).due.head ≠ 2 ∧
      (let r := jrOnS.vread unitAgt (jrOnS.solvHead 63) 4
       r.1 = .ok (natLE 4 1) ∧ (1 + 2 ^ 32 - r.2.fld (fSolv_JR_CONS 63)) % 2 ^ 32 ≤ r.2.solvLen 63)) ∧
    (let s := { jrOnS with dram := solvMem 17 [] }
     let r := s.vread unitAgt (s.solvHead 63) 4
     s.memWf = true ∧ r.1 = .ok (natLE 4 17) ∧ r.2.solvLen 63 < (17 + 2 ^ 32 - r.2.fld (fSolv_JR_CONS 63)) % 2 ^ 32) := by decide +kernel
theorem wit_SolverJobsAndSystemsEnd_jobs :
    ((jrOnS.solv 63).job = none ∧ (jrOnS.solv 63).next ≠ (jrOnS.solv 63).prod ∧ (jrOnS.solv 63).next ≠ jrOnS.ringEnd (jrOnS.solv 63).prod (jrOnS.solv 63).due ∧
      (let s := (jrOnS.modBnd fun b => { b with phase := .fence }).modSolv 63 fun x => { x with due := { x.due with hold := some 0 } }
       (s.solv 63).next = s.ringEnd (s.solv 63).prod (s.solv 63).due ∧ (s.solv 63).next ≠ (s.solv 63).prod) ∧
      (let r := jrOnS.vread unitAgt (jrOnS.solvEntry 63) 0x78
       let c := r.2.solvCheck (got r)
       ok r = true ∧ c.1 = .accept solvTerms ∧ c.2.solv 63 = jrOnS.solv 63)) ∧
    (let s := { jrOnS with dram := solvMem 1 (solvDesc 5 1 0) }
     let r := s.vread unitAgt (s.solvEntry 63) 0x78
     let c := r.2.solvCheck (got r)
     let w := c.2.vwrite unitAgt (s.solvEntry 63 + 0x78) (natLE 4 (2 + 1 * 256))
     s.memWf = true ∧ ok r = true ∧ c.1 = .refuse 1 ∧ ok w = true ∧ w.2.solv 63 = s.solv 63) ∧
    (let s := jobIn (sjob 0 0 1)
     let w := s.vwrite unitAgt (0xA080 + 0x78) (natLE 4 1 ++ natLE 4 0)
     s.memWf = true ∧ (s.solv 63).job = some (sjob 0 0 1) ∧ descCount (sjob 0 0 1).desc ≤ 1 ∧ bitAt (fieldLE (sjob 0 0 1).desc 0xC 2) 15 = false ∧
     ok w = true ∧ w.2.solv 63 = s.solv 63) := by decide +kernel
/-- The same job with an injection armed: no fault of the engine's own is drawn. -/
def jobArm (j : SJob) : State := ((jobIn j).setFld (fInj_ARM (solvPage 63)) 1).setFld (fInj_KIND (solvPage 63)) 1
theorem wit_SolverJobsAndSystemsEnd_systems :
    (let j := sjob 1 0 0
     let s := jobArm j
     let r := s.runSystem j true none
     (s.injArmed (solvPage 63) 1 = true ∧ (s.solv 63).job = some j ∧ j.next < descCount j.desc ∧ s.flag fSafe_SAFE = false ∧
       (match r.1 with
        | some o =>
          let h := descShape j.desc
          let aw := areaWrites h o (fingerprint h o.pos) j.epoch.toNat (r.2.fld fPkg_STEP)
          let w := r.2.swrites (aw.1.map (fun w => (areaVa j.desc j.next + w.1, w.2)) ++ [(0x2200, statusRec r.2 j o.res (slotBit j o.res aw.2))])
          decide (o.res.code = 9 ∧ (solWrites h o.res.sol).isEmpty = true) && w.1 && decide ((w.2.solv 63).job = some j)
        | none => false) = true)) ∧
    (let j := sjob 0 1 0
     let s := jobArm j
     let r := s.runSystem j true none
     (s.injArmed (solvPage 63) 1 = true ∧ (s.solv 63).job = some j ∧
       (match r.1 with
        | some o =>
          let w := r.2.vwrite unitAgt 0x2200 (statusRec r.2 j o.res (slotBit j o.res o.head))
          decide (o.res.code = 3 ∧ o.res.sol = .keep ∧ o.res.area = .keep ∧ w.1 = .ok [] ∧ (w.2.solv 63).job = some j)
        | none => false) = true)) := by decide +kernel
theorem test_solverRing :
    leaves (.solverRingEnable .host 63) jrOffS (fun u => u.flag (fSolv_EN 63) && decide ((u.solv 63).prod = 1)) ∧
    leaves (.solverRingProd 63) { jrOnS with dram := solvMem 17 [] } (fun u => !u.flag (fSolv_EN 63) && u.flag (fErr_RING (solvPage 63))) := by decide +kernel
theorem test_solverJobStart :
    leaves (.solverJobStart 63) jrOnS (fun u => decide ((u.solv 63).job.map (·.terms) = some solvTerms) && u.flag (fSolv_ACTIVE 63)) ∧
    leaves (.solverJobStart 63) { jrOnS with dram := solvMem 1 (solvDesc 5 1 0) }
      (fun u => decide (u.dramBytes 0x4000A0F8 2 = [2, 1] ∧ u.fld (fSolv_JR_CONS 63) = 1)) := by decide +kernel
/-- The solution of 2 x = 6, where the engine meets no fault. -/
theorem test_solverSystem : (match ((jobIn (sjob 0 0 0)).runSystem (sjob 0 0 0) false none).1 with
    | some o => decide (o.res.code = 0 ∧ o.res.sol = .vals [[0x4008000000000000]]) | none => false) = true := by decide +kernel
theorem test_solverSystemEnd : leaves (.solverSystemEnd 63) (jobArm (sjob 1 0 0))
    (fun u => decide (u.fld (fSolv_SYSTEMS 63) = 1)) := by decide +kernel
theorem test_solverDeadline : leaves (.solverDeadline 63) (jobArm (sjob 0 1 0)) (fun u => decide (u.fld (fSolv_DEADLINE_CNT 63) = 1)) := by
  decide +kernel
theorem test_solverJobEnd : leaves (.solverJobEnd 63) (jobIn (sjob 0 0 1)) (fun u => decide (u.dramByte 0x4000A0F8 = 1 ∧ (u.solv 63).job = none ∧ u.fld (fSolv_JR_CONS 63) = 1)) := by
  decide +kernel

/-! ### Models -/

/-- An entry of model 4095, of job 0x11: FLAGS, the working copy's format code 3, MASTER at 0x100000, working copy at 0x110000, gradient at 0x120000,
slots 0x80000 apart, MCOUNT 1, LR 1, GNORM_MAX 1024; the rest of its bytes from DIGEST on as given. -/
def entry (flags wfmt soff mbase : Nat) (rest : List Byte) : List (Nat × Byte) :=
  cells (modelOff 4095) ([BitVec.ofNat 8 flags, BitVec.ofNat 8 wfmt, 0, 0, 0x11, 0] ++ List.replicate 10 0 ++ natLE 8 0x140000 ++ natLE 8 0x141000 ++ natLE 8 1 ++
    natLE 8 soff ++ natLE 8 mbase ++ natLE 8 0x110000 ++ natLE 16 0 ++ natLE 8 (if mbase = 0 then 0 else 0x120000) ++ natLE 8 0 ++ List.replicate 32 0 ++
    natLE 8 0x3FF0000000000000 ++ List.replicate 32 0 ++ natLE 8 0x4090000000000000 ++ List.replicate 16 0 ++ rest)
/-- DIGEST, UPDCOUNT, LASTREAD, NEXTDIGEST, GNORM, STATUS, EN. -/
def tail (digest status en : Nat) : List Byte := natLE 8 digest ++ List.replicate 32 0 ++ natLE 4 status ++ List.replicate 19 0 ++ [BitVec.ofNat 8 en]
/-- The master's element is 2.0, the gradient's 0.5. -/
def mdlMem : List (Nat × Byte) := tables ++ [(0x40100007, 0x40), (0x40120006, 0xE0), (0x40120007, 0x3F)]
def mdlS (flags wfmt soff mbase digest status en : Nat) : State := { jobS with dram := mdlMem, bar2 := entry flags wfmt soff mbase (tail digest status en) }
/-- A training model and an inference model, whose EN is clear, that wait, and that are VALID. -/
def trainS (status en : Nat) : State := mdlS 1 3 0x80000 0x100000 0 status en
def inferS (status en : Nat) : State := mdlS 0 3 0 0 0 status en
def inReg (s : State) : State := { s with mdl := { s.mdl with regs := [4095] } }
def inPass (s : State) : State :=
  { s with mdl := { s.mdl with passes := [{ m := 4095, hyp := s.barBytes (modelOff 4095 + 0x80) 48, cnt := 0, cntEn := false, epoch := 0, wrote := false }] } }

theorem wit_ModelsAreRegisteredAndChecked_register :
    (trainS 0 0).tabUp .host = true ∧ (trainS 0 0).modelEn 4095 = false ∧
    ((mdlS 7 3 0x80000 0x100000 0 0 0).putBarNat (modelOff 4095 + 0xFF) 1 1).modelBadFormat 4095 = true ∧
    (let s := (mdlS 1 3 0x80000 0x100001 0 0 0).putBarNat (modelOff 4095 + 0xFF) 1 1
     s.modelBadFormat 4095 = false ∧ (s.model 4095).badAlign = true) ∧
    (((mdlS 1 3 0x10000 0x100000 0 0 0).putBarNat (modelOff 4095 + 0xFF) 1 1).modelCheck 4095).1 = some 4 ∧
    (((trainS 0 0).putBarNat (modelOff 4095 + 0xFF) 1 1).modelCheck 4095).1 = some 0 := by decide +kernel
theorem wit_ModelsAreRegisteredAndChecked_done :
    (let s := inReg (inferS 0 1)
     s.modelEn 4095 = true ∧ s.barNat (modelOff 4095 + 0xE8) 4 = 0 ∧ s.mdl.regs.contains 4095 = true ∧ (s.model 4095).opt ≠ 2 ∧
       (s.model 4095).training = false ∧ (s.model 4095).verify = false) ∧
    (let s := inReg (trainS 0 1)
     let v := s.model 4095
     let r := s.readChecked 4095 { v with cur := 0 }
     let ws := r.1.elems v.msz v.mcount r.2.fresh
     let wc := workCopy v.mfmt v.wfmt v.sr (mix64 (v.wseed ^^^ BitVec.ofNat 64 v.updCount)) ws
     s.modelEn 4095 = true ∧ s.barNat (modelOff 4095 + 0xE8) 4 = 0 ∧ s.mdl.regs.contains 4095 = true ∧ v.opt ≠ 2 ∧ v.training = true ∧
       r.1.stall = false ∧ r.1.bad = false ∧ (r.2.mwrites 4095 false [(v.wbase, wc.1), (v.wsbase, wc.2.1)]).1 = .ok []) ∧
    (let s := trainS 1 1
     s.modelEn 4095 = true ∧ (s.model 4095).valid = true ∧ s.passOf 4095 = none) := by decide +kernel
theorem wit_ModelsAreRegisteredAndChecked_pass :
    let s := inPass (trainS 1 1)
    let v := s.model 4095
    let a := s.mreadAll 4095 (v.mbase + v.cur * v.soff) (v.mcount * v.msz)
    let b := a.2.mreadAll 4095 v.gbase (v.mcount * v.gsz)
    let res := v.update (s.barBytes (modelOff 4095 + 0x80) 48) []
      ⟨a.1.elems v.msz v.mcount b.2.fresh, b.1.elems v.gsz v.mcount (b.2.fresh + v.mcount), []⟩
    let wc := workCopy v.mfmt v.wfmt v.sr (mix64 (v.wseed ^^^ BitVec.ofNat 64 (v.updCount + 1))) res.master
    let w := b.2.mwrites 4095 false [(v.mbase + (1 - v.cur) * v.soff, elemBytes v.msz res.master), (v.wbase + (1 - v.cur) * v.soff, wc.1),
      (v.wsbase + (1 - v.cur) * v.soff, wc.2.1), (v.obase + (1 - v.cur) * v.soff, elemBytes v.msz res.state)]
    (s.passOf 4095).map (fun p => (p.wrote, p.cntEn)) = some (false, false) ∧ s.flag fSafe_SAFE = false ∧
    v.training = true ∧ v.opt = 0 ∧ v.cur < 2 ∧ v.mfmt ≤ 1 ∧ v.gfmt = v.mfmt ∧ a.1.stall = false ∧ b.1.stall = false ∧ a.1.bad = false ∧
    w.1 = .ok [] ∧ w.2.2.modelInj 4095 = false ∧ w.2.2.fab.ctxs.all (fun c => c.use != .model 4095) = true ∧ w.2.2.modelEn 4095 = true ∧
    w.2.2.host.jobEnding = none := by decide +kernel
theorem wit_ModelsAreRegisteredAndChecked_check :
    let s := trainS 1 1
    let r := s.readChecked 4095 (s.model 4095)
    (s.model 4095).valid = true ∧ s.boundary = false ∧ (s.model 4095).checked ≠ [] ∧ r.1.stall = false ∧ r.2.modelInj 4095 = false ∧
    r.2.model 4095 = s.model 4095 := by decide +kernel
theorem test_modelRegister :
    leaves (.modelRegister .host 4095) (trainS 0 0) (fun u => decide (u.mdl.regs = [4095])) ∧
    leaves (.modelRegister .host 4095) (mdlS 1 3 0x10000 0x100000 0 0 0) (fun u => decide (u.barNat (modelOff 4095 + 0xE8) 4 = 0x402 ∧ u.mdl.regs = [])) := by
  decide +kernel
theorem test_modelRegisterDone :
    leaves (.modelRegisterDone 4095) (inReg (inferS 0 1)) (fun u => decide (u.barNat (modelOff 4095 + 0xE8) 4 = 1)) ∧
    leaves (.modelRegisterDone 4095) (inReg (trainS 0 1)) (fun u => decide ((u.model 4095).digest = patDigest [0x4000000000000000] ∧ u.mdl.regs = [])) := by
  decide +kernel
theorem test_modelDeregister : leaves (.modelDeregister .host 4095) (trainS 1 1) (fun u => decide (u.barNat (modelOff 4095 + 0xE8) 4 = 0 ∧ u.modelEn 4095 = false)) := by
  decide +kernel
/-- The VALID model with its master's digest. -/
def agreeS : State := mdlS 1 3 0x80000 0x100000 (patDigest [0x4000000000000000]).toNat 1 1
/-- 2.0 - 1.0 × 0.5 = 1.5 goes to the other slot; the master read stays. -/
theorem test_updatePassDone : leaves (.updatePassDone 4095) (inPass agreeS) (fun u =>
    decide (u.dramBytes 0x40180000 8 = natLE 8 0x3FF8000000000000 ∧ u.dramByte 0x40100007 = 0x40 ∧ (u.model 4095).pending = true ∧ u.mdl.passes = [])) := by
  decide +kernel
theorem test_backgroundCheck : leaves (.backgroundCheck 4095) agreeS (fun u =>
    decide ((u.model 4095).corrupt = false ∧ (u.model 4095).lastRead = patDigest [0x4000000000000000])) := by decide +kernel

/-- Thread `t` is READY with a1 = 4095, a2 = 0xFFFF, a3 = 0, a4 = 0x2000, a5 = 8192 and the models beside it. -/
def modelThread (t : Tid) (s : State) : State := s.setCtx t (((((readyC.sa 1 4095).sa 2 0xFFFF).sa 3 0).sa 4 0x2000).sa 5 8192)
/-- The selected model's epilogue block, read for a grove thread that takes the engine. -/
def mselS : State := modelThread tg (inferS 1 1)
def mselR : MRes × State := (mselS.setMat 0 { mselS.mat 0 with owner := some tg }).vread (engAgt tg) 0x141000 4096
theorem msel_block : (let r := mselR
    ok r && decide (r.2.ctx tg = mselS.ctx tg) && !ctlBad (fieldLE (got r) 0x10 8) && (got r).all (· == 0)) = true := by decide +kernel
theorem wit_ModelInstructionsRetire_msel :
    mselS.Issues tg profEngine code mselS ∧ (mselS.mat 0).owner = none ∧ (mselS.mat 0).pend = false ∧ mselS.modelOk tg 4095 = true ∧
    (mselS.model 4095).epi0 = 0x141000 ∧ ((mselS.ctx tg).ga 1).toNat = 4095 ∧ (mselS.ctx tg).ga 2 = 0xFFFF ∧ ok mselR = true ∧
    mselR.2.ctx tg = mselS.ctx tg ∧ ctlBad (fieldLE (got mselR) 0x10 8) = false ∧ (sliceB (got mselR) 0x50 0x7B0).any (· != 0) = false ∧
    mselS.modelOk tg ((mselS.ctx tg).ga 3).toNat = false := by
  have h := msel_block
  simp only [Bool.and_eq_true, decide_eq_true_eq, Bool.not_eq_true'] at h
  refine ⟨?_, by decide +kernel, by decide +kernel, by decide +kernel, by decide +kernel, by decide +kernel, by decide +kernel, h.1.1.1,
    h.1.1.2, h.1.2, zero_slice _ h.2 _ _, by decide +kernel⟩
  apply issues_of <;> decide +kernel
theorem wit_ModelInstructionsRetire :
    (let s := modelThread tc (trainS 1 1)
     s.Issues tc profAll code s ∧ s.Issues tc profWork code s ∧ s.Issues tc profControl code s ∧ s.modelOk tc 4095 = true ∧ (s.model 4095).training = true ∧
       tc.kind ≠ .grove ∧ (s.ctx tc).ga 2 = 0xFFFF ∧ (s.ctx tc).ga 3 ≠ 0xFFFF ∧ s.modelOk tc ((s.ctx tc).ga 3).toNat = false ∧
       8192 ≤ ((s.ctx tc).ga 5).toNat ∧ ((s.ctx tc).ga 3).toNat < 8192 ∧ (s.model 4095).pending = false ∧ s.passOf 4095 = none ∧
       (s.model 4095).lenderLost = false ∧
       (let v := s.model 4095
        let p := s.vprobe (s.whoOf tc) .store 0x2000 128
        let w := p.2.vwrite (p.2.agtOf tc) 0x2000 (v.header (v.obytes (p.2.segsNow v)) (p.2.fld fPkg_STEP))
        ok p = true ∧ ok w = true ∧ (w.2.ctx tc).stopPending = false)) ∧
    (let s := modelThread tc (trainS 0x20001 1)
     s.Issues tc profWork code s ∧ s.modelOk tc 4095 = true ∧ (s.model 4095).training = true ∧ (s.model 4095).pending = true) ∧
    (let s := inPass (modelThread tc (trainS 1 1))
     s.Issues tc profWork code s ∧ (s.passOf 4095).isSome = true) := by
  refine ⟨⟨?_, ?_, ?_, by decide +kernel⟩, ⟨?_, by decide +kernel⟩, ?_, by decide +kernel⟩
  all_goals (apply issues_of <;> decide +kernel)
theorem test_mhint :
    leaves (.mhint tc 1) (modelThread tc (trainS 1 1)) (fun u => decide ((u.ctx tc).pc = 0x104)) ∧
    leaves (.mhint tc 3) (modelThread tc (trainS 1 1)) (fun u => decide ((u.ctx tc).st = .faulted)) := by decide +kernel
theorem test_mupdate :
    leaves (.mupdate tc 1 3) (modelThread tc (trainS 1 1)) (fun u => decide ((u.ctx tc).pc = 0x104 ∧ (u.passOf 4095).isSome = true)) ∧
    leaves (.mupdate tc 1 3) (inPass (modelThread tc (trainS 1 1))) (fun u => decide ((u.ctx tc).faultInfo = faultWord 0x2E false false 0x4A)) := by decide +kernel
theorem test_mexport : leaves (.mexport tc 1 4) (modelThread tc (trainS 1 1)) (fun u =>
    decide (u.dramBytes 0x40002000 16 = [1, 0, 0, 0, 3, 0, 0, 0] ++ natLE 8 1 ∧ u.dramBytes 0x40002020 8 = natLE 8 0x100000 ∧ (u.ctx tc).pc = 0x104)) := by
  decide +kernel
/-! ### The step boundary -/

theorem wit_BoundariesBeginAndNotify_mark :
    ctlS.Issues tc profControl code ctlS ∧
    (let s := { ctlS with fab := { FabSt.empty with ctxs := [outCtx 0 (.store tx)] } }
     s.Issues tc profControl code s ∧ (((s.setCtx tc (s.ctx tc).retired).markRings).toPhase .fence).fenceDone = false) ∧
    (((ctlS.setCtx tc (ctlS.ctx tc).retired).markRings).toPhase .fence).fenceDone = true ∧
    (let s := ctlS.setFlag fEqx_EQ_EN true
     s.Issues tc profControl code s ∧ (((s.setCtx tc (s.ctx tc).retired).markRings).toPhase .fence).fenceDone = true) ∧
    (let s := ctlS.setFlag fMode_ARMED true
     s.Issues tc profControl code s ∧ (((s.setCtx tc (s.ctx tc).retired).markRings).toPhase .fence).fenceDone = true) ∧
    (let s := ctlS.setFlag fSnap_PRE_PEND true
     s.Issues tc profControl code s ∧ (((s.setCtx tc (s.ctx tc).retired).markRings).toPhase .fence).fenceDone = true) ∧
    (let u := ctlS.toPhase .fence
     tc.valid = true ∧ (u.ctx tc).st = .ready ∧ u.debugHeld tc.handle = false ∧ u.sec.stepping.contains tc.handle = false ∧ (u.ctx tc).late = none ∧
       u.boundary = true ∧ (u.ctx tc).await.out = false) := by
  refine ⟨?_, ⟨?_, by decide +kernel⟩, by decide +kernel, ⟨?_, by decide +kernel⟩, ⟨?_, by decide +kernel⟩, ⟨?_, by decide +kernel⟩, by decide +kernel⟩
  all_goals (apply issues_of <;> decide +kernel)
def dueS (p : BPhase) : State := jobS.toPhase p
theorem wit_BoundariesBeginAndNotify :
    ((dueS .releaseDue).bnd.phase = .releaseDue ∧ ((dueS .releaseDue).setFlag fSnap_HELD true).flag fSnap_HELD = true ∧
      (dueS .releaseDue).flag fSnap_HELD = false ∧ (∀ e ∈ (dueS .releaseDue).thr.ctxs, e.2.st ≠ .held)) ∧
    (let s := (dueS .pollDue).setFlag fSnap_SOL_EN true
     s.bnd.phase = .pollDue ∧ s.flag fSnap_SOL_EN = true) ∧
    (let s := (dueS .pollDue).setFlag fSnap_REQ_PEND true
     s.bnd.phase = .pollDue ∧ s.flag fSnap_SOL_EN = false ∧ s.snp.job = none ∧ s.snapPending = true ∧ s.bnd.holdDue = false ∧
       (s.cut (s.fld fSnap_GEN_NEXT) (s.flag fSnap_PRE_PEND)).isSome = true) ∧
    ((dueS .poll).bnd.phase = .poll ∧ (dueS .poll).bnd.result = none) ∧
    (jobS.jobRuns = true ∧ jobS.snp.job = none ∧ jobS.flag fSnap_PRE_PEND = false ∧ (jobS.setFlag fSnap_PRE_PEND true).flag fSnap_PRE_PEND = true ∧
      runS.jobRuns = false ∧ jobS.pwr.mctp = true) := by decide +kernel
theorem test_stepmark :
    leaves (.stepmark tc) ctlS (fun u => decide (u.fld fPkg_STEP = 1 ∧ u.bnd.phase = .releaseDue ∧ (u.ctx tc).pc = 0x104)) ∧
    leaves (.stepmark tc) (ctlS.setFlag fEqx_EQ_EN true) (fun u => decide (u.bnd.phase = .voteDue)) := by decide +kernel
theorem test_releaseStep :
    leaves .releaseStep (dueS .releaseDue) (fun u => decide (u.bnd.phase = .none)) ∧
    idles .releaseStep ((dueS .releaseDue).setFlag fSnap_HELD true) := by decide +kernel
theorem test_solsticePoll :
    leaves .solsticePoll ((dueS .pollDue).setFlag fSnap_SOL_EN true) (fun u => decide (u.bnd.phase = .poll)) ∧
    leaves .solsticePoll ((dueS .pollDue).setFlag fSnap_REQ_PEND true) (fun u => decide (u.bnd.phase = .releaseDue ∧ u.flag fSnap_REQ_PEND = false)) := by
  decide +kernel
theorem test_solsticePollResult :
    leaves (.solsticePollResult none 1 7 7 0 1) (dueS .poll) (fun u => decide (u.bnd.phase = .releaseDue ∧ u.fld fSnap_GEN_NEXT = 2)) ∧
    leaves (.solsticePollResult (some 4) 1 7 7 0 1) (dueS .poll) (fun u => decide (u.bnd.phase = .releaseDue)) := by decide +kernel
theorem test_preEmpt :
    leaves (.preEmpt .bmc) jobS (fun u => decide (u.flag fSnap_PRE_PEND = true ∧ u.fld fSnap_SRC = 2)) ∧
    leaves (.preemptionMessage 5) (jobS.setFlag fSnap_PRE_PEND true) (fun u => decide (u.fld fSnap_NOTICES = 1)) := by decide +kernel

/-! ### Equinox -/

/-- A boundary of two and of three members, with model 4095 pending: slot 0 is current, NEXTDIGEST is 9. -/
def voteMdl : State := { jobS with bar2 := entry 1 3 0x80000 0x100000 (natLE 8 5 ++ natLE 8 0 ++ natLE 8 5 ++ natLE 8 9 ++ natLE 8 0 ++ natLE 4 0x20001 ++
  List.replicate 19 0 ++ [1]) }
def voteS (p : BPhase) : State := voteMdl.modBnd fun b => { b with phase := p }
def countS (n : W64) : State := voteMdl.modBnd fun b => { b with phase := .count, eqx := { b.eqx with n := n, pmin := 1, pmax := 2 } }
/-- The digest list has the words of 4,096 models. -/
theorem digestList_length (s : State) : s.digestList.length = 32768 := by
  have h : ∀ n v, (natLE n v).length = n := by
    intro n
    induction n with
    | zero => intro; rfl
    | succ n ih => intro v; simp [natLE, ih]
  have all : ∀ (f : Nat → Nat) (l : List Nat), (l.flatMap fun m => natLE 8 (f m)).length = 8 * l.length := by
    intro f l
    induction l with
    | nil => rfl
    | cons a l ih => simp [List.flatMap_cons, h, ih]; omega
  unfold State.digestList
  rw [all, List.length_range]
/-- With no page table in force the list is not written. -/
def blindS : State := runS.toPhase .voteDue
theorem wit_EquinoxDecides_vote : blindS.bnd.phase = .voteDue ∧ (blindS.vwrite unitAgt blindS.bnd.eqx.list blindS.digestList).1 ≠ .stall := by
  refine ⟨rfl, ?_⟩
  unfold State.vwrite
  rw [digestList_length]
  have h : ∃ l, blindS.segs blindS.bnd.eqx.list 32768 = (0, 4096) :: l := ⟨(blindS.segs blindS.bnd.eqx.list 32768).drop 1, by decide +kernel⟩
  obtain ⟨l, h⟩ := h
  have hx : (match (blindS.xlate unitAgt.who 0 .store).1 with | .fault c => c != 0x24 | _ => false) = true := by decide +kernel
  rw [h, State.writePieces, State.writePiece]
  generalize blindS.xlate unitAgt.who 0 .store = x at *
  obtain ⟨r, s1⟩ := x
  cases r <;> simp at hx
  simp [hx]
theorem wit_EquinoxDecides :
    ((voteS .vote).bnd.phase = .vote ∧ (voteS .vote).bnd.result = none ∧ (voteS .vote).models = [4095] ∧ ((voteS .vote).model 4095).pending = true ∧
      ((voteS .vote).model 4095).cur < 2) ∧
    ((countS 3).bnd.phase = .count ∧ (countS 3).bnd.result = none) ∧
    ((voteS .barrier).bnd.phase = .barrier ∧ (voteS .barrier).bnd.result = none) := by decide +kernel
theorem test_equinoxVoteResult :
    leaves (.equinoxVoteResult none 0 7 7 1 1 2) (voteS .vote) (fun u => decide ((u.model 4095).cur = 1 ∧ (u.model 4095).digest = 9 ∧ (u.model 4095).updCount = 1)) ∧
    leaves (.equinoxVoteResult none 1 7 7 1 1 2) (voteS .vote) (fun u =>
      decide ((u.model 4095).cur = 0 ∧ (u.model 4095).pending = false ∧ u.fld fEqx_SKIPS = 1)) := by decide +kernel
theorem test_equinoxVoteSplit :
    leaves (.equinoxVoteResult none 0 1 2 1 1 3) (voteS .vote) (fun u => decide (u.bnd.phase = .count)) ∧
    leaves (.equinoxVoteResult none 0 1 2 1 1 2) (voteS .vote) (fun u => u.flag fEqx_STOPPED) := by decide +kernel
theorem test_equinoxCountResult :
    leaves (.equinoxCountResult none 1 2 0 5) (countS 3) (fun u => decide (u.bnd.phase = .repair ∧ u.flag fEqx_REPAIRING = true)) ∧
    leaves (.equinoxCountResult none 1 1 0 5) (countS 3) (fun u => u.flag fEqx_STOPPED) := by decide +kernel
/-- A member in repair with one model, of index 0, and window 0 from 0x40000000 up, 1 GiB long: the source is package 5; its digest list has
come, its first word `x`; the reads of `as` are outstanding. -/
def repairS (x : Nat) (as : List (Nat × Nat)) : State :=
  let s := { voteMdl with bar2 := [(3, (0x40 : Byte)), (11, 0x40)] ++ voteMdl.bar2.map fun (e : Nat × Byte) => (e.1 - modelOff 4095 + modelOff 0, e.2) }
  (s.modBnd fun b => { b with phase := .repair, eqx := { b.eqx with src := 5 } }).modFab fun f =>
    { f with got := (List.range 128).map fun (k : Nat) =>
               { use := .repair, addr := 5 * 2 ^ 48 + 256 * k, len := 256, bad := none,
                 data := natLE 8 (if k = 0 then x else 0) ++ List.replicate 248 0 },
             ctxs := as.map fun (e : Nat × Nat) => { outCtx 0 .repair with addr := e.1, len := e.2 } }
/-- The reads of the digest list, and the reads of the model's slot. -/
def listReads : List (Nat × Nat) := (List.range 8).map fun i => (5 * 2 ^ 48 + 4096 * i, 4096)
def slotReads : List (Nat × Nat) :=
  let s := repairS 1 []
  let v := s.model 0
  (s.repairAddrs 0 5 ((v.repaired (s.segsNow v) (v.afterSlot 0)).flatMap fun r => s.segs r.1 r.2)).getD []
theorem wit_EquinoxDecides_repair :
    (repairS 0 []).bnd.phase = .repair ∧ (repairS 0 []).bnd.eqx.src = 5 ∧ (repairS 0 []).bnd.eqx.win = 0 ∧
    (let r := (repairS 0 []).repairRead listReads
     ok r = true ∧ ((r.2).eqxCopies 0 (got r) []).1 = .done false ∧ ((r.2).eqxCopies 0 (got r) [0]).1 = .done true ∧
     0 < (repairOrder []).length) ∧
    slotReads ≠ [] ∧
    (let s := repairS 1 (slotReads.flatMap fun e => (remPackets 256 e.1 e.2).map fun p => (e.1 + p.1, p.2))
     let r := s.repairRead listReads
     ok r = true ∧ ((r.2).eqxCopies 0 (got r) [0]).1 = .wait) := by decide +kernel
theorem test_equinoxRepair :
    leaves (.equinoxRepair [] 0 false) (repairS 0 []) (fun u => decide (u.bnd.phase = .repair)) ∧
    leaves (.equinoxRepair [] 0 false) (voteS .repair) (fun u => decide (u.bnd.phase = .barrier)) ∧
    leaves (.equinoxRepairBarrier false) (voteS .barrier) (fun u => decide (u.fld fEqx_REPAIRS = 1 ∧ (u.model 4095).cur = 1)) := by decide +kernel

/-! ### Configuration epochs -/

def stagedS (p : BPhase) : State :=
  ((jobS.setFld fMode_STG_EPOCH 3).setFlag fMode_ARMED true).modBnd fun b => { b with phase := p, prev := some { profile := 0, cap := 0, strict := 0, epoch := 2 } }
theorem wit_ConfigurationEpochsApplyOrRevert :
    (stagedS .applyDue).bnd.phase = .applyDue ∧
    (let s := (stagedS .none).setFlag fPkg_JOB_PRESENT false
     s.bnd.phase = .none ∧ s.jobRuns = false ∧ s.flag fMode_ARMED = true) ∧
    ((stagedS .apply).bnd.phase = .apply ∧ (stagedS .apply).fwsetBad = false ∧ (stagedS .apply).flag fMode_AGREE_EN = false ∧
      ((stagedS .apply).setFlag fMode_AGREE_EN true).flag fMode_AGREE_EN = true) ∧
    (let s := ((stagedS .apply).setFld fMode_PROFILE 1).setFld fMode_FWSET_EXP 5
     s.bnd.phase = .apply ∧ s.fwsetBad = true) ∧
    ((stagedS .agree).bnd.phase = .agree ∧ (stagedS .agree).bnd.result = none ∧ (stagedS .agree).bnd.prev.isSome = true) := by decide +kernel
theorem test_epochApply : leaves .epochApply (stagedS .applyDue) (fun u => decide (u.bnd.phase = .apply ∧ u.flag fMode_APPLYING = true)) := by decide +kernel
theorem test_epochApplied : leaves .epochApplied (((stagedS .apply).setFld fMode_PROFILE 1).setFld fMode_FWSET_EXP 5)
    (fun u => decide (u.fld fMode_A_EPOCH = 0 ∧ u.fld fMode_CODE = 0x11 ∧ u.flag fMode_ARMED = false ∧ u.bnd.phase = .releaseDue)) := by decide +kernel
theorem test_epochApplyTimeout : leaves (.epochApplyTimeout 511) (stagedS .apply) (fun u => decide (u.fld fMode_A_EPOCH = 0 ∧ u.fld fMode_LATE_PAGE = 511)) := by
  decide +kernel
theorem test_epochAgreementResult :
    leaves (.epochAgreementResult none 1 3 3) (stagedS .agree) (fun u => decide (u.bnd.phase = .releaseDue ∧ u.flag fMode_REVERTED = false)) := by decide +kernel
/-! ### Snapshots and restores -/

/-- Generation 3 of a job, with one tensor and one unit of a granule at DRAM 0x40002000; the reserve takes 1 GiB a stack. -/
def unitA : SUnit := { tensor := 5, index := 0, grans := [0x40002] }
def tcutA (sh : Option Shard) : TCut := { va := 0, len := 65536, id := 5, kind := 0, writer := 0, chain := [], place := 0, drained := [], shard := sh }
def snapJobA (pre : Bool) (ts : List TCut) : SnapJob :=
  { gen := 3, step := 7, series := 1, epoch := 0, config := 0, preempt := pre, tier := 1, tensors := ts, taken := [] }
def snapBusy (units : List SUnit) (pre : Bool) (ts : List TCut) : State :=
  ({ jobS with snp := { SnapSt.empty with units := units, job := some (snapJobA pre ts) } }.setFld fSnap_RSV_APPLIED 1).setFld fNand_FREE 1000
def snapA : State := snapBusy [unitA] false [tcutA none]
def snapB : State := snapBusy [] false [tcutA none]
def snapC (pre : Bool) : State := snapBusy [] pre []
/-- A manifest without shards, whose signature is not the package's; as generation 3 it is agreed. -/
def manA (shards : List Shard) : SManifest :=
  { preempt := false, pkg := 0, job := 0x11, series := 1, gen := 3, step := 7, epoch := 0, config := 0, rsv := 0, nmem := 1, rank := 0, gkey := 0, fwset := 0,
    shards := shards, sig := [] }
def shardA : Shard := { ((tcutA none).toShard 3 0) with digest := [1, 2] }
def heldGen (x : SnapSt) : State :=
  { (jobS.setFld fSnap_GEN_AGREED 3).setFld fSnap_GEN_COMMITTED 3 with snp := x, sec := { SecSt.empty with udsGone := true } }
def genS : State := heldGen { SnapSt.empty with gens := [manA [shardA]] }
def restR (code : Nat) (st : RestStage) : RestSt := { waiting := none, code := code, man := some (manA []), stage := st }
def restA (code : Nat) (st : RestStage) : State := heldGen { SnapSt.empty with gens := [manA []], rest := some (restR code st) }
/-- A thread has waited on unit A. -/
def stallA : State := { snapA with snp := { snapA.snp with stalled := [0x40002] } }

theorem wit_SnapshotsCommitAndRestoresSucceed_snapshot :
    (snapA.snp.job = some (snapJobA false [tcutA none]) ∧ snapA.snp.rest = none ∧ snapA.snp.flying = none ∧ snapA.snp.nextUnit = some unitA ∧
      unitA.lines.any snapA.lineStalled = false ∧ snapA.reserveRoom unitA = true ∧ snapA.snp.units ≠ [] ∧ snapA.agentUp .host = true ∧
      stallA.snp.job = some (snapJobA false [tcutA none]) ∧ stallA.snp.rest = none ∧ stallA.snp.units ≠ [] ∧ stallA.snp.stalled ≠ []) ∧
    (snapB.snp.job = some (snapJobA false [tcutA none]) ∧ (snapJobA false [tcutA none]).toDrain = [tcutA none] ∧
      (snapB.snp.units.any fun u => u.tensor == 5) = false ∧
      (snapJobA false [tcutA none]).written + ({ tcutA none with drained := [] ++ snapB.snp.copied.filter fun (c : CUnit) => c.unit.tensor == 5 }.toShard 3
        (Config.unstated snapB.fresh)).sbytes ≤ snapB.fld fNand_FREE) ∧
    ((snapC true).snp.doomed = 0 ∧ (snapC true).snp.units = [] ∧ (snapC true).snp.flying = none ∧ (snapJobA true []).toDrain = [] ∧
      (snapC true).flag fSnap_SOL_EN = false ∧ ((snapC true).setFlag fSnap_SOL_EN true).flag fSnap_SOL_EN = true) := by decide +kernel
theorem wit_SnapshotsCommitAndRestoresSucceed_restore :
    (jobS.agentUp .host = true ∧ runS.jobRuns = false ∧ ctlS.jobActive = true) ∧
    (jobS.jobRuns = true ∧ jobS.jobActive = false ∧ jobS.snp.rest = none ∧ snapA.snp.job ≠ none ∧ jobS.snp.job = none ∧ jobS.flag fSnap_SOL_EN = false ∧
      jobS.fld fSnap_GEN_AGREED = jobS.fld fSnap_GEN_COMMITTED ∧ jobS.restoreGen (jobS.fld fSnap_RESTORE_GEN) = none) ∧
    (genS.agentUp .host = true ∧ genS.jobRuns = true ∧ genS.jobActive = false ∧ genS.snp.rest = none ∧ genS.snp.job = none ∧
      genS.flag fSnap_SOL_EN = false ∧ genS.fld fSnap_GEN_AGREED = genS.fld fSnap_GEN_COMMITTED ∧
      genS.restoreGen (genS.fld fSnap_RESTORE_GEN) = some (manA [shardA]) ∧ genS.bnd.phase ≠ .stopped ∧
      (let r := (((genS.setFlag fSnap_RESTORING true).endThreads).toPhase .none).restoreCheck (manA [shardA])
       (match r.1 with | .ok c => c.1 == 4 | _ => false) = true ∧ r.2.flag fSnap_SOL_EN = false)) ∧
    ((restA 0 .last).snp.rest = some (restR 0 .last) ∧ (restA 5 .barrier).snp.rest = some (restR 5 .barrier) ∧ (restA 0 .last).bnd.result = none ∧
      (restA 5 .barrier).flag fSnap_SOL_EN = false ∧ (manA []).tensors.any RTensor.replica = false) ∧
    (genS.snp.gens.getLast? = some (manA [shardA]) ∧ ((manA [shardA]).shards.find? fun x => x.id == (5 : W64).toNat && x.kind == 0) = some shardA) := by
  decide +kernel
theorem test_snapshotUnitCopy : leaves .snapshotUnitCopy { snapA with dram := [(0x40002005, 9)] } (fun u =>
    decide (u.snp.units = [] ∧ u.snp.copied.map (fun c => (c.data.length, c.data.getD 5 0, c.poison)) = [(4096, 9, [])] ∧ u.fld fSnap_SNAP_BYTES = 65536)) := by
  decide +kernel
/-- The shard of no units has the digest SHA3-256 of the empty string (FIPS 202). -/
theorem test_shardDigest : ((tcutA none).toShard 3 0).digest.take 8 = [0xA7, 0xFF, 0xC6, 0xF8, 0xBF, 0x1E, 0xD7, 0x66] := by decide +kernel
theorem test_snapshotCommit :
    leaves .snapshotCommit (snapC false) (fun u => decide (u.snp.job = none ∧ u.fld fSnap_GEN_COMMITTED = 3 ∧ u.fld fSnap_GEN_AGREED = 3)) ∧
    idles .snapshotCommit snapA := by decide +kernel
theorem test_stallLimit : idles .stallLimit snapA ∧ leaves .stallLimit stallA (fun u => decide (u.snp.job = none ∧ u.fld fSnap_ABANDONS = 1 ∧ u.fld fSnap_CODE = 0x10)) := by decide +kernel
theorem test_snapshotCancel : leaves (.snapshotCancel .host) (snapC true) (fun u => decide (u.fld fSnap_CODE = 0x17 ∧ u.flag fSnap_PRE_PEND = true)) := by
  decide +kernel
theorem test_restore :
    leaves (.restore .host none 0 0 0 0) genS (fun u => decide (u.snp.rest.map (·.code) = some 4 ∧ u.flag fSnap_RESTORING = true)) ∧
    leaves (.restore .host none 0 0 0 0) jobS (fun u => decide (u.fld fSnap_RCODE = 3 ∧ u.snp.blocked = true)) := by decide +kernel
theorem test_restoreComplete :
    leaves (.restoreComplete (some [])) (restA 0 .last) (fun u => decide (u.fld fPkg_STEP = 7 ∧ u.snp.blocked = false)) ∧
    leaves (.restoreComplete none) (restA 0 .last) (fun u => decide (u.fld fSnap_RCODE = 0x0C ∧ u.snp.blocked = true)) ∧
    leaves (.restoreComplete (some [])) (restA 5 .barrier) (fun u => decide (u.fld fPkg_STEP = 0 ∧ u.fld fSnap_RCODE = 5 ∧ u.snp.blocked = true)) := by
  decide +kernel
theorem test_shardDigestRequest : leaves (.shardDigestRequest 9 5) genS (fun u => decide (u.answers = [.message 0x600 9 [1, 2]])) := by decide +kernel
/-! ### Ports and flits -/

/-- The check values of the two checksums: CRC-64 of polynomial 0x42F0E1EBA9EA3693 and CRC-32C over the digits 1 to 9. -/
theorem test_checksums :
    crc64 [0x31, 0x32, 0x33, 0x34, 0x35, 0x36, 0x37, 0x38, 0x39] = 0x6C40DF5F0B497347 ∧
    crc32c [0x31, 0x32, 0x33, 0x34, 0x35, 0x36, 0x37, 0x38, 0x39] = 0xE3069283 := by decide +kernel

/-- Port 15 in a state, and ACTIVE with credits and one flit unacknowledged. -/
def portS (st : Nat) : State := (runS.setFlag (fPort_EN 15) false).setFld (fPort_STATE 15) st
def flitOut : OutPkt := { src := none, cmd := 2, flag := false, len := 8, dst := 1, job := 0x11, addr := 2 ^ 48, tag := 0, cause := 0, aop := 0, aw := 0, data := [] }
/-- A flit sent before, and the packets that begin the flits of port 15's replay buffer: command, tag, cause, payload of 8 bytes (Table 11.5). -/
def oldFlit (n : BitVec 16) : Flit := { seq := n, ack := 0, typ := 1, cvc := 0, credit := 0, body := List.replicate 240 0 }
def sent (s : State) : List (Nat × Nat × Nat × Nat) :=
  (s.port 15).replay.map fun f => (fieldLE f.body 0 1, fieldLE f.body 16 3, fieldLE f.body 19 1, fieldLE f.body 24 8)
/-- A field of the first packets of those flits. -/
def sentAt (s : State) (i n : Nat) : List Nat := (s.port 15).replay.map fun f => fieldLE f.body i n
def actS (fails : Nat) : State :=
  (portS 2).setPort 15 { Port.fresh with credits := [(0, 100), (1, 100), (2, 100)], replay := [oldFlit 5, oldFlit 6], rxSeq := 8, failSeq := 5, flitFails := fails }
/-- A data flit with sequence number 9 that acknowledges 5 and returns 2 credits of channel 1. -/
def flit9 : List Byte :=
  let b := natLE 2 9 ++ natLE 2 5 ++ [1] ++ natLE 3 (2 * 4 + 1) ++ List.replicate 240 0
  b ++ natLE 8 (crc64 b).toNat

theorem wit_PortsAndFlitsFollowTheirStates_ports :
    ((portS 0).agentUp .host = true ∧ (portS 0).flag (fPort_EN 15) = false ∧ (portS 0).portState 15 = 0 ∧ 6 ≤ (portS 0).fld fBoot_STAGE) ∧
    ((actS 0).agentUp .host = true ∧ (actS 0).portState 15 ≠ 0 ∧ ((actS 0).port 15).waiting = [] ∧
      ((actS 0).setFlag (fPort_EN 15) true).flag (fPort_EN 15) = true) ∧
    ((portS 1).portState 15 = 1 ∧ (portS 3).portState 15 = 3 ∧ (portS 4).portState 15 = 4 ∧ ((portS 1).port 15).trainFails < 2 ∧
      ((portS 1).setFld (fPort_ENC_POL 15) 2).fld (fPort_ENC_POL 15) = 2 ∧
      (let s := (portS 3).setPort 15 { Port.fresh with trainFails := 2 }
       s.portState 15 = 3 ∧ 2 ≤ (s.port 15).trainFails)) := by decide +kernel
set_option maxRecDepth 100000 in
theorem wit_PortsAndFlitsFollowTheirStates_flits :
    (actS 0).portState 15 = 2 ∧ ((actS 0).port 15).waiting = [] ∧ ((actS 0).port 15).out = [] ∧ ((actS 0).port 15).txBlock = [] ∧
    (actS 0).flag (fPort_ENC 15) = false ∧
    crc64 (sliceB [1] 0 0xF8) ≠ BitVec.ofNat 64 (fieldLE [1] 0xF8 8) ∧
    crc64 (sliceB flit9 0 0xF8) = BitVec.ofNat 64 (fieldLE flit9 0xF8 8) ∧ fieldLE flit9 4 1 % 16 = 1 ∧
    fieldLE flit9 0 2 = (((actS 0).port 15).rxSeq + 1).toNat ∧
    (((actS 0).port 15).replay.dropWhile fun e => e.seq != 7).length = 0 ∧ (((actS 7).port 15).replay.dropWhile fun e => e.seq != 5).length = 2 ∧
    ((actS 7).port 15).failSeq = 5 ∧ ((actS 7).port 15).flitFails = 7 ∧ ((portS 2).port 15).replay = [] ∧ (portS 2).portState 15 = 2 ∧
    ((actS 0).setFlag (fPort_ENC 15) true).flag (fPort_ENC 15) = true := by decide +kernel
theorem test_portEnable :
    leaves (.portEnable .host 15) (portS 0) (fun u => decide (u.portState 15 = 1)) ∧
    leaves (.portDisable .host 15) (actS 0) (fun u => decide (u.portState 15 = 0 ∧ (u.port 15).replay = [])) := by decide +kernel
theorem test_portTraining :
    leaves (.portTrainingDone 15 true 8 7 true) (portS 1) (fun u => decide (u.portState 15 = 1 ∧ (u.port 15).trainFails = 1)) := by decide +kernel
theorem test_portTrainingFail :
    leaves (.portTrainingFail 15 false false) (portS 3) (fun u => decide (u.portState 15 = 3 ∧ (u.port 15).trainFails = 1)) ∧
    leaves (.portLossOfSignal 15) (actS 0) (fun u => decide (u.portState 15 = 3)) := by decide +kernel
set_option maxRecDepth 100000 in
theorem test_flitReceive :
    leaves (.flitReceive 15 flit9 (some 0)) (actS 0) (fun u =>
      decide ((u.port 15).rxSeq = 9 ∧ (u.port 15).replay.length = 1 ∧ (u.port 15).credit 1 = 102 ∧ u.answers = [])) ∧
    leaves (.flitReceive 15 [1] (some 2)) (actS 0) (fun u => decide ((u.port 15).rxSeq = 8 ∧ u.answers = [.message 0x103 15 [9, 0]] ∧ u.fld (fPort_FEC_CORR 15) = 2)) := by decide +kernel
theorem test_nak :
    leaves (.nak 15 5) (actS 7) (fun u => decide (u.portState 15 = 3 ∧ u.fld (fPort_FLIT_REPLAY 15) = 2)) ∧
    leaves (.ackTimeout 15) (actS 6) (fun u => decide (u.portState 15 = 2 ∧ u.fld (fPort_FLIT_REPLAY 15) = 2)) := by decide +kernel

/-! ### Requests of other packages -/

/-- Package 1 is reached through port 15; window 3 of this package gives job 0x11, from packages 1 to 9, 64 KiB of DRAM at 0x40000000 for every access. -/
def fabS : State :=
  { jobS with bar2 := cells (winOff 3) (natLE 8 0x40000000 ++ natLE 8 0x10000 ++ natLE 2 0x11 ++ [7, 0, 0, 0] ++ natLE 2 1 ++ natLE 2 9 ++ [1]) ++
                      cells (routeOff 1) [0, 0x80],
              fab := { FabSt.empty with ports := [(15, { Port.fresh with credits := [(0, 100), (1, 100), (2, 100)] })] } }.setFld (fPort_STATE 15) 2 |>.setFld fPkg_PKG_ID_APPLIED 0
/-- A request of package 1 for 8 bytes at offset 0x2000 of window 3. -/
def req (cmd : Nat) (f : Packet → Packet) : Packet :=
  let k := f { flagged := false, len := 8, src := 1, job := 0x11, addr := BitVec.ofNat 64 (fabS.pkgId * 2 ^ 48 + 3 * 2 ^ 34 + 0x2000), tag := 5, cause := 0, aop := 11, aw := 3,
               data := natLE 8 5, e2e := 0 }
  { k with e2e := crc32c (pktBytes cmd k) }
def causeOf (s : State) : List Nat := (sent s).map fun e => e.2.2.1

theorem wit_RemoteRequestsAreServed :
    fabS.portState 15 = 2 ∧ fabS.flag fSafe_SAFE = false ∧ fabS.fld (fPort_VERSION 15) ≠ 1 ∧
    ((req 1 fun k => { k with addr := 2 ^ 48 * 2 }).addr.toNat / 2 ^ 48 ≠ fabS.pkgId ∧ fabS.routePort 2 (2 ^ 48 * 2) = none) ∧
    (let k := req 1 fun k => { k with addr := 2 ^ 48 }
     k.addr.toNat / 2 ^ 48 ≠ fabS.pkgId ∧ fabS.routePort 1 (2 ^ 48) = some 15 ∧ k.e2e = crc32c (pktBytes 1 k)) ∧
    ((req 1 id).addr.toNat / 2 ^ 48 = fabS.pkgId ∧ (req 1 id).e2e ≠ crc32c (pktBytes 2 (req 1 id))) ∧
    (knownCmd 4 13 3 = false ∧ knownCmd 4 11 3 = true ∧ knownCmd 1 0 0 = true ∧ knownCmd 2 0 0 = true ∧ knownCmd 5 0 0 = true) ∧
    (fabS.setFlag fSafe_SAFE true).flag fSafe_SAFE = true ∧
    ((fabS.window 4).valid = false ∧ (fabS.window 3).valid = true ∧ (fabS.window 3).job = 0x11 ∧ (fabS.window 3).srcLo = 1 ∧ (fabS.window 3).srcHi = 9 ∧
      (fabS.window 3).len = 0x10000) ∧
    (∀ cmd ∈ [1, 2, 4], fabS.checkWindow cmd 1 0x11 (req 1 id).addr.toNat 8 = (0, 0x40002000)) ∧
    fabS.behind (linesOf 0x40002000 8) = false ∧ fabS.accessStalled 0x40002000 8 false = false ∧
    fabS.accessStalled 0x40002000 8 true = false ∧ (fabS.homeRead .none 0x40002000 8).1 = some (natLE 8 0) ∧
    (fabS.homeAmo .none 0x40002000 8 11 5 5).1 = some 0 ∧ fabS.counterOf 0x2000 0x11 = false ∧
    (let s := fabS.modFab fun f => { f with cnts := [4095] }
     s.counterOf 4095 0x11 = true) := by decide +kernel
theorem test_remoteRead :
    leaves (.rd 15 (req 1 id)) { fabS with dram := [(0x40002000, 9)] } (fun u =>
      decide (sent u = [(0x10, 5, 0, 9)])) ∧
    leaves (.rd 15 (req 1 fun k => { k with src := 10 })) fabS (fun u => decide (u.fld fWin_REFUSED_IN = 1)) := by decide +kernel
theorem test_remoteWrite :
    leaves (.wr 15 (req 2 id)) fabS (fun u => decide (u.dramByte 0x40002000 = 5 ∧ (sent u).map (·.1) = [0x11])) ∧
    leaves (.wr 15 (req 2 fun k => { k with job := 0x12 })) fabS (fun u => decide (u.dramByte 0x40002000 = 0 ∧ causeOf u = [7])) := by decide +kernel
/-- 3 and 5 are subnormals: FMIN leaves 3, and the answer carries the old value. -/
theorem test_remoteAmo : leaves (.amo 15 (req 4 id)) { fabS with dram := [(0x40002000, 3)] } (fun u =>
    decide (u.dramByte 0x40002000 = 3 ∧ sent u = [(0x11, 5, 0, 3)])) := by decide +kernel
theorem test_remoteCadd :
    leaves (.cadd 15 (req 5 fun k => { k with addr := BitVec.ofNat 64 (fabS.pkgId * 2 ^ 48 + 4095) })) (fabS.modFab fun f => { f with cnts := [4095] })
      (fun u => decide (u.counter 4095 = 5)) ∧
    leaves (.cadd 15 (req 5 id)) fabS (fun u => decide (causeOf u = [14])) := by decide +kernel

/-! ### Responses -/

/-- A thread's load of 8 bytes into a9 is outstanding with tag 7. -/
def loadS : State :=
  let r : RemOp := { parts := [(7, 0)], data := [], bad := none, va := 0x7000, width := 8, dst := some 9, acquire := false }
  ((jobS.setFld (fPort_STATE 15) 2).setCtx tc { readyC with st := .wait, await := .remote, instr := some (.ld tc .w8 9 1 0 0), rem := some r }).modFab fun f =>
    { f with ctxs := [outCtx 7 (.load tc)] }
def storeS : State := (ctlS.setFld (fPort_STATE 15) 2).modFab fun f => { f with ctxs := [outCtx 7 (.store tc)] }
/-- A flagged store waits for nothing more. -/
def flagReq (bad : Bool) : FlagReq := { id := 7, t := tc, target := 1, parts := [(2 ^ 48, natLE 8 1)], va := 0x7000, bad := bad, tags := [], copies := [] }
def flagS (bad : Bool) : State := (fabS.setCtx tc readyC).modFab fun f => { f with flags := [flagReq bad] }
def homeReq : HomeReq :=
  { id := 7, port := 15, cmd := 1, key := 0x40002000, len := 8, src := 1, job := 0x11, addr := 0x2000, tag := 5, aop := 0, aw := 0, data := [], get := none }

/-- A response to a request of this package with tag 7, or to one of package `src`. -/
def respTo (src cmd cause : Nat) (data : List Byte) : Packet :=
  let k : Packet := { flagged := false, len := data.length, src := src, job := 0x11, addr := 0x7000, tag := 7, cause := cause, aop := 0, aw := 0, data := data,
                      e2e := 0 }
  { k with e2e := crc32c (pktBytes cmd k) }
def resp (cmd cause : Nat) (data : List Byte) : Packet := respTo jobS.pkgId cmd cause data
/-- A remote add of package 1 waits in a combiner entry. -/
def combReqS : State := fabS.modStk 0 fun x => { x with comb := [(0x40002000 / 64,
  [{ id := 7, port := 15, op := 0, aw := 8, operand := 5, key := 0x40002000, src := 1, job := 0x11, addr := 0x2000, tag := 5 }])] }

theorem wit_ResponsesEndRemoteRequests_packets :
    loadS.portState 15 = 2 ∧ storeS.portState 15 = 2 ∧ (resp 0x10 0 []).src = loadS.pkgId ∧ (resp 0x10 0 []).src = storeS.pkgId ∧
    (respTo 1 0x10 0 []).src ≠ fabS.pkgId ∧ fabS.portState 15 = 2 ∧ loadS.rctx 8 = none ∧
    (∀ c ∈ [0x10, 0x11, 0x12, 0x13], (resp c 9 (natLE 8 1)).e2e = crc32c (pktBytes c (resp c 9 (natLE 8 1)))) ∧
    (resp 0x10 0 []).e2e ≠ crc32c (pktBytes 0x11 (resp 0x10 0 [])) ∧ combReqS.fab.homes = [] ∧ (combReqS.combReq 7).isSome = true := by decide +kernel
theorem wit_ResponsesEndRemoteRequests :
    (jobS.rctx 7 = none) ∧
    ((storeS.rctx 7).map (·.tag) = some 7 ∧ storeS.host.jobEnding = none ∧ (storeS.rctx 7).map (·.use) = some (.store tc)) ∧
    ((loadS.rctx 7).map (·.use) = some (.load tc) ∧ (loadS.ctx tc).instr = some (.ld tc .w8 9 1 0 0) ∧ (loadS.ctx tc).stopPending = false ∧
      loadS.host.jobEnding = none ∧
      (loadS.ctx tc).rem = some { parts := [(7, 0)], data := [], bad := none, va := 0x7000, width := 8, dst := some 9, acquire := false }) ∧
    (storeS.unsent (outCtx 7 (.store tc)) = false ∧
      (storeS.setPort 0 { Port.fresh with waiting := [{ flitOut with tag := 7 }] }).unsent (outCtx 7 (.store tc)) = true) ∧
    (let s := ctlS.modCtx tc fun c => { c with late := some 0x7000 }
     (s.ctx tc).late = some 0x7000 ∧ (s.ctx tc).st = .ready) ∧
    (let s := fabS.modFab fun f => { f with homes := [homeReq] }
     s.fab.homes.find? (fun h => h.id == 7) = some homeReq ∧ homeReq.get = none ∧ s.fld (fPort_VERSION homeReq.port) ≠ 1) ∧
    ((flagS true).fab.flags = [flagReq true] ∧ ((flagS true).ctx tc).st ≠ .idle ∧ ((flagS true).ctx tc).late = none) ∧
    ((flagS false).fab.flags = [flagReq false] ∧ (flagS false).isSelf (2 ^ 48) = false ∧
      (match ((flagS false).request (.store tc) tc.handle 0x7000 ((flagS false).reqPkt 2 true (2 ^ 48) 8 (natLE 8 1))).1 with
       | .sent _ => true
       | _ => false) = true) := by decide +kernel
theorem test_rdr :
    leaves (.rdr 15 (resp 0x10 0 (natLE 8 0x1234)) (natLE 8 0x1234)) loadS
      (fun u => decide ((u.ctx tc).ga 9 = 0x1234 ∧ (u.ctx tc).pc = 0x104 ∧ (u.ctx tc).st = .ready)) ∧
    leaves (.rdr 15 (resp 0x10 0 (natLE 8 0x1234)) (natLE 8 0x1234)) (jobS.setFld (fPort_STATE 15) 2) (fun u => decide (u.fld fWin_LATE_RESP = 1)) := by
  decide +kernel
theorem test_ack :
    leaves (.ack 15 (resp 0x11 0 [])) storeS (fun u => decide (u.fab.ctxs = [] ∧ (u.ctx tc).late = none)) ∧
    leaves (.nakResponse 15 (resp 0x12 9 [])) storeS (fun u => decide (u.fab.ctxs = [] ∧ (u.ctx tc).late = some 0x7000 ∧ u.fld fWin_CAUSE = 9)) := by decide +kernel
theorem test_forward : leaves (.ack 15 (respTo 1 0x11 0 [])) fabS (fun u => decide ((sent u).map (·.1) = [0x11])) := by decide +kernel
theorem test_remoteTimeout :
    leaves (.remoteTimeout 7 false) storeS (fun u => decide (u.fld fWin_CAUSE = 1 ∧ u.fld fWin_TIMEOUTS = 1)) ∧
    leaves (.hold (15, resp 0x13 0 [])) storeS (fun u => decide (u.fab.ctxs = storeS.fab.ctxs ∧ u.thr = storeS.thr)) := by decide +kernel
theorem test_remoteStoreRefusal : leaves (.remoteStoreRefusal tc) (ctlS.modCtx tc fun c => { c with late := some 0x7000 })
    (fun u => decide ((u.ctx tc).st = .faulted ∧ (u.ctx tc).faultVa = 0x7000)) := by decide +kernel
theorem test_holdSend : leaves (.holdSend 7) (fabS.modFab fun f => { f with homes := [homeReq] })
    (fun u => decide ((sent u).map (fun e => (e.1, e.2.1)) = [(0x13, 5)])) := by decide +kernel
theorem test_flaggedStoreSend :
    leaves (.flaggedStoreSend 7) (flagS false) (fun u => decide (u.fab.flags = [] ∧ sentAt u 0 1 = [2] ∧ sentAt u 1 1 = [1])) ∧
    leaves (.flaggedStoreSend 7) (flagS true) (fun u => decide ((u.ctx tc).late = some 0x7000 ∧ u.fld fWin_CAUSE = 13)) := by decide +kernel
/-! ### Windows and counters of threads -/

/-- Window requests at 0x2000 (index 16383), 0x2020 (reserved flags), 0x2040 (length 0), 0x2060 (the index of window 3, in use); a1 to a4 name them, a5 = 16383. -/
def winReq (len flags idx : Nat) : List Byte := natLE 8 0x40000000 ++ natLE 8 len ++ natLE 2 0x11 ++ [BitVec.ofNat 8 flags, 0] ++ natLE 2 idx ++ natLE 2 1 ++ natLE 2 9 ++ [0, 0, 0, 0, 0, 0]
def winS : State :=
  ({ fabS with dram := tables ++ cells 0x40002000 (winReq 0x10000 3 16383 ++ winReq 0x10000 16 16383 ++ winReq 0 3 16383 ++ winReq 0x10000 3 3) }).setCtx tc
    { ((((readyC.sa 1 0x2000).sa 2 0x2020).sa 3 0x2040).sa 4 0x2060).sa 5 16383 with sup := true }
/-- What WREG's check answers for the request at an address. -/
def winAnswer (va : Nat) : Nat × Nat :=
  let r := winS.vread (winS.agtOf tc) va 32
  if ok r && decide (r.2.ctx tc = winS.ctx tc) && decide ((got r).length = 32) then r.2.winCheck (got r) false else (99, 0)

/-- Counter 4095 is allocated to the job and holds 5; a1 = 4095, a2 = 5, a3 = 6, a4 = 4094. -/
def cntS : State :=
  (({ jobS with bar2 := cells (cntOff 4095) [5] }.setCtx tc ((((readyC.sa 1 4095).sa 2 5).sa 3 6).sa 4 4094))).modFab fun f => { f with cnts := [4095] }
/-- The first `n` counters are allocated. -/
def cntMany (n : Nat) : State := { cntS with fab := { cntS.fab with cnts := List.range n } }
theorem cntMany_all (n j : Nat) (h : j < n) : j ∈ (cntMany n).fab.cnts := List.mem_range.2 h
theorem cntS_work : cntS.Issues tc profWork code cntS := by apply issues_of <;> decide +kernel

theorem wit_WindowsAndCountersOfThreads_windows :
    winS.Issues tc profSupWork code winS ∧ winAnswer 0x2000 = (0, 16383) ∧ winAnswer 0x2020 = (1, 0) ∧ winAnswer 0x2040 = (2, 0) ∧ winAnswer 0x2060 = (5, 0) ∧
    ((winS.ctx tc).ga 5).toNat = 16383 ∧ winS.windowBusy 16383 = false ∧
    (let s := winS.modFab fun f => { f with homes := [{ homeReq with addr := 16383 * 2 ^ 34 }] }
     s.Issues tc profSupWork code s ∧ s.windowBusy 16383 = true) := by
  refine ⟨?_, by decide +kernel, by decide +kernel, by decide +kernel, by decide +kernel, by decide +kernel, by decide +kernel, ?_, by decide +kernel⟩
  all_goals (apply issues_of <;> decide +kernel)
set_option maxRecDepth 100000 in
theorem wit_WindowsAndCountersOfThreads_counters :
    cntS.Issues tc profWork code cntS ∧ (0 ∉ cntS.fab.cnts) ∧ (∀ j < 0, j ∈ cntS.fab.cnts) ∧ cntS.cntOk 4095 = true ∧
    5 ≤ (cntS.counter 4095).toNat % 2 ^ 63 ∧ (cntS.counter 4095).toNat % 2 ^ 63 < 6 ∧ cntS.released tc = true ∧ cntS.cntOk 4094 = false ∧
    (let s := cntS.modFab fun f => { f with ctxs := [outCtx 0 (.store tc)] }
     s.Issues tc profWork code s ∧ s.cntOk 4095 = true ∧ s.released tc = false) ∧
    ((cntMany 4096).Issues tc profWork code (cntMany 4096) ∧ ∀ n j, j < n → j ∈ (cntMany n).fab.cnts) := by
  refine ⟨cntS_work, by decide +kernel, by decide, by decide +kernel, by decide +kernel, by decide +kernel, by decide +kernel, by decide +kernel,
    ⟨?_, by decide +kernel⟩, ?_, cntMany_all⟩
  all_goals (apply issues_of <;> decide +kernel)
theorem test_wreg :
    leaves (.wreg tc 9 1) winS (fun u => decide ((u.ctx tc).ga 9 = 16383 ∧ (u.window 16383).len = 0x10000 ∧ (u.window 16383).valid = true)) ∧
    leaves (.wreg tc 9 4) winS (fun u => decide ((u.ctx tc).ga 9 = 0x58000 ∧ (u.window 16383).valid = false)) := by decide +kernel
theorem test_wdereg : leaves (.wdereg tc 5) (aft winS (.wreg tc 9 1)) (fun u => decide ((u.window 16383).valid = false ∧ (u.window 3).valid = true)) := by
  decide +kernel
theorem test_acnt :
    leaves (.acntAlloc tc 9) cntS (fun u => decide ((u.ctx tc).ga 9 = 0 ∧ u.fab.cnts = [4095, 0])) ∧
    leaves (.acntFree tc 1) cntS (fun u => decide (u.fab.cnts = [])) := by decide +kernel
theorem test_acntWait :
    leaves (.acntWait tc 9 1 2) cntS (fun u => decide ((u.ctx tc).ga 9 = 5 ∧ (u.ctx tc).st = .ready)) ∧
    leaves (.acntWait tc 9 1 3) cntS (fun u => decide ((u.ctx tc).st = .wait)) := by decide +kernel
theorem test_acntSet : leaves (.acntSet tc 1 3) cntS (fun u => decide (u.counter 4095 = 6 ∧ (u.ctx tc).pc = 0x104)) := by decide +kernel

/-! ### Async copies -/

/-- Virtual addresses from 1 GiB up are memory of package 1 (a leaf of TGT 2); descriptors at 0x2000 (a put), 0x2020 (a get), 0x2040 (both sides here). -/
def farTables : List (Nat × Byte) :=
  [(0x1000, 0x01), (0x1001, 0x20), (0x2000, 0x01), (0x2001, 0x30), (0x3000, 0x9F), (0x3001, 0x01), (0x3003, 0x40), (0x3008, 0xDF), (0x3009, 0x01), (0x300E, 0x01)]
def copyDesc (src dst : Nat) : List Byte := natLE 8 src ++ natLE 8 dst ++ natLE 8 8 ++ natLE 8 0
def copyS : State :=
  ({ fabS with dram := farTables ++ cells 0x40002000 (copyDesc 0x3000 0x40000000 ++ copyDesc 0x40000000 0x3000 ++ copyDesc 0x3000 0x4000) ++ [(0x40003000, 7)] }).setCtx tc
    (((readyC.sa 1 0x2000).sa 2 0x2020).sa 3 0x2040)
theorem copyS_work : copyS.Issues tc profWork code copyS := by apply issues_of <;> decide +kernel
/-- The sides of the descriptor at an address, and the conditions before them. -/
def sides (va : Nat) : Option (Side × Side) :=
  let r := copyS.vread (copyS.agtOf tc) va 32
  let c := acopyOf (got r) tc (r.2.ctx tc).job
  let x := r.2.sideOf (r.2.whoOf tc) .load (segments c.src c.len) none
  let y := x.2.2.sideOf (x.2.2.whoOf tc) .store (segments c.dst c.len) none
  if ok r && !acopyBad (got r) && !c.scntEn && !c.dcntEn && decide (x.1 = .ok) && decide (y.1 = .ok) then
    match x.2.1, y.2.1 with
    | some a, some b => some (a, b)
    | _, _ => none
  else none
def acopyA (dcntEn done : Bool) : ACopy :=
  { id := 7, t := tc, job := 0x11, put := true, src := 0x3000, dst := 0x40000000, len := 8, scnt := 4095, scntEn := true, dcnt := 5, dcntEn := dcntEn, target := 1,
    sent := 8, refused := true, caddTag := none, writesDone := done }
def sentS (c : ACopy) : State := fabS.modFab fun f => { f with copies := [c], cnts := [4095] }

theorem wit_AsyncCopiesRunInOrder :
    copyS.Issues tc profWork code copyS ∧ copyS.fab.copies.length < 256 ∧ sides 0x2000 = some (.dram, .remote 1) ∧ sides 0x2020 = some (.remote 1, .dram) ∧
    sides 0x2040 = some (.dram, .dram) ∧
    ((sentS (acopyA false false)).acopy 7 = some (acopyA false false) ∧ (∀ e ∈ (sentS (acopyA false false)).fab.copies, e.len ≤ e.sent) ∧
      (sentS (acopyA false false)).copyOuts 7 = 0 ∧ (sentS (acopyA false false)).getParked 7 = false ∧
      (let s := sentS (acopyA true false)
       let r := s.request (.cadd 7) copyHandle 0 { s.reqPkt 5 false (2 ^ 48 + 5) 8 (natLE 8 (1 + 2 ^ 63)) with job := 0x11 }
       s.isSelf (2 ^ 48 + 5) = false ∧ (match r.1 with | .sent _ => true | _ => false) = true ∧ r.2.fab.copies = s.fab.copies)) ∧
    ((acopyA false true).writesDone = true ∧ (acopyA false true).caddTag = none ∧ (acopyA false true).scnt < 4096) :=
  ⟨copyS_work, by decide +kernel⟩
theorem test_acopy :
    leaves (.acopy tc 1) copyS (fun u => decide ((u.ctx tc).pc = 0x104 ∧ u.fab.copies.map (fun c => (c.put, c.sent)) = [(true, 8)] ∧
      sent u = [(2, 0, 0, 7)])) ∧
    leaves (.acopy tc 3) copyS (fun u => decide ((u.ctx tc).st = .faulted)) := by decide +kernel
theorem test_acopyWritesDone :
    leaves (.acopyWritesDone 7) (sentS (acopyA true false)) (fun u => decide (sent u = [(5, 0, 0, 1 + 2 ^ 63)] ∧ sentAt u 8 8 = [2 ^ 48 + 5])) ∧
    leaves (.acopyComplete 7) (sentS (acopyA false true)) (fun u => decide (u.fab.copies = [] ∧ u.counter 4095 = 0x8000000000000001)) := by decide +kernel

/-! ### Groups and reductions of threads -/

/-- A request for group 4095 of packages 4 and 0 at 0x2000, the rank table at 0x2100, a block for group 5 at 0x2180 (operation 1 on 3.0's bits);
group 5 is this package alone; a1 = 0x2000, a2 = 0x2180, a3 = 5, a4 = 6, a5 = 0, a6 = 0x2100. -/
def grpMem : List (Nat × Byte) :=
  tables ++ cells 0x40002000 (natLE 2 4095 ++ natLE 2 2 ++ natLE 2 1 ++ natLE 2 0x11 ++ natLE 8 0x2100) ++ cells 0x40002100 [4, 0, 0, 0] ++
    cells 0x40002180 (natLE 8 3 ++ List.replicate 56 0 ++ [1, 0, 0, 0, 0, 0, 0, 0] ++ natLE 2 5 ++ [1])
def grpS : State :=
  (putGroup { fabS with dram := grpMem } 5 1 0 0x11).setCtx tc
    { (((((readyC.sa 1 0x2000).sa 2 0x2180).sa 3 5).sa 4 6).sa 5 0).sa 6 0x2101 with sup := true }
def reduceS : State := grpS.modCtx tc fun c => { c with sup := false }
def hzOp : HzOp := { HzOp.new 5 false 1 with own := some { ops := [1], nval := 1, ktop := 0, vals := [3] } }
def hzBusy : State := grpS.modHz fun h => { h with ops := [hzOp] }
theorem grpS_supWork : grpS.Issues tc profSupWork code grpS := by apply issues_of <;> decide +kernel
theorem reduceS_work : reduceS.Issues tc profWork code reduceS := by apply issues_of <;> decide +kernel
/-- The outcome of GCREATE's check. -/
def groupCode (s : State) : Option (Nat × List Nat) :=
  let r := s.vread (s.agtOf tc) 0x2000 64
  let c := r.2.groupCheck (got r)
  match c.1 with
  | .code k ids => if ok r && !(c.2.ctx tc).stopPending && c.2.hz.held.isEmpty && c.2.hz.due.isEmpty then some (k, ids) else none
  | .wait => none

theorem wit_GroupsAndReductionsOfThreads_groups :
    grpS.Issues tc profSupWork code grpS ∧ groupCode grpS = some (0, [4, 0]) ∧
    (let s := putGroup grpS 4095 1 0 0x11
     s.Issues tc profSupWork code s ∧ groupCode s = some (3, [])) ∧
    ((grpS.ctx tc).ga 5 = 0 ∧ ((grpS.ctx tc).ga 3).toNat = 5 ∧ ((grpS.ctx tc).ga 4).toNat = 6 ∧ (grpS.grp 6).valid = false ∧ 4096 ≤ ((grpS.ctx tc).ga 2).toNat ∧
      (grpS.grp 5).valid = true ∧ grpS.groupBusy 5 = false ∧ grpS.hz.ops = []) ∧
    (let s := grpS.setCtx tx { readyC with group := 5 }
     s.Issues tc profSupWork code s ∧ (s.grp 5).valid = true ∧ s.groupBusy 5 = true) ∧
    (hzBusy.Issues tc profSupWork code hzBusy ∧ hzBusy.groupBusy 5 = false ∧ hzBusy.hz.ops = [hzOp] ∧ hzOp.gid = 5) := by
  refine ⟨grpS_supWork, by decide +kernel, ⟨?_, by decide +kernel⟩, by decide +kernel, ⟨?_, by decide +kernel⟩, ?_, by decide +kernel⟩
  all_goals (apply issues_of <;> decide +kernel)
theorem wit_GroupsAndReductionsOfThreads_reductions :
    reduceS.Issues tc profWork code reduceS ∧ ((reduceS.ctx tc).ga 6).toNat % 128 ≠ 0 ∧ ((reduceS.ctx tc).ga 2).toNat % 128 = 0 ∧
    (let r := reduceS.vread (reduceS.agtOf tc) 0x2180 76
     ok r = true ∧ hzBadFormat (got r) = false ∧ fieldLE (got r) 72 2 = 5 ∧ r.2.groupOk 5 = true ∧ r.2.released tc = true ∧ r.2.hzFull 5 = false ∧
       (r.2.grp 5).nmem = 1 ∧ (r.2.grp 5).rank = 0 ∧ r.2.hz.ops = [] ∧ r.2.hz.early = [] ∧ (hzBlock (got r)).ktop = 0 ∧ r.2.flag fSafe_SAFE = false) ∧
    (let s := hzBusy.modCtx tc fun c => { c with sup := false }
     let r := s.vread (s.agtOf tc) 0x2180 76
     s.Issues tc profWork code s ∧ ok r = true ∧ r.2.groupOk 5 = true ∧ r.2.hzFull 5 = true) := by
  refine ⟨reduceS_work, by decide +kernel, by decide +kernel, by decide +kernel, ?_, by decide +kernel⟩
  apply issues_of <;> decide +kernel
theorem test_gcreate : leaves (.gcreate tc 9 1) grpS (fun u => decide ((u.ctx tc).ga 9 = 0 ∧ (u.grp 4095).nmem = 2 ∧ (u.grp 4095).valid = true ∧ u.hzPkg 4095 0 = 4)) := by
  decide +kernel
theorem test_gdestroy :
    leaves (.gdestroy tc 9 3) grpS (fun u => decide ((u.ctx tc).ga 9 = 0 ∧ (u.grp 5).valid = false)) ∧
    leaves (.gdestroy tc 9 5) grpS (fun u => decide ((u.ctx tc).ga 9 = 6)) := by decide +kernel
theorem test_hzred : leaves (.hzred tc 2) reduceS (fun u =>
    decide ((u.ctx tc).pc = 0x104 ∧ u.dramByte 0x40002180 = 3 ∧ u.dramByte 0x400021D0 = 1 ∧ u.dramByte 0x400021D8 = 1 ∧ u.fld fHz_HZ_OPS = 1)) := by decide +kernel

/-! ### The Hazel tree -/

/-- This package is rank 0 of 3 in group 5, packages 1 and 2 its children; the operation 1 of the job class waits for both. -/
def treeS (nmem rank : Nat) (ops : List HzOp) : State :=
  (putGroup fabS 5 nmem rank 0x11).modHz fun h => { h with ranks := [(5, [0, 1, 1])], ops := ops }
def hzPkt (job : Nat) (child : Option Nat) : HzPacket :=
  { dst := fabS.pkgId, gid := 5, boundary := false, seq := 1, job := job, child := child, ops := [1], nval := 1, ktop := 0, gkey := 0, vals := [4], err := none, crcOk := true }

theorem treeS_due (nmem rank : Nat) (ops : List HzOp) : (treeS nmem rank ops).hz.due = [] := rfl
theorem wit_HazelPacketsCombineAndAbort :
    ((treeS 3 0 []).grp 5).valid = true ∧ (hzPkt 0x12 none).job ≠ ((treeS 3 0 []).grp 5).job ∧ (treeS 3 0 []).hz.held = [] ∧ (fabS.grp 5).valid = false ∧
    fabS.hz.held = [] ∧ fabS.hz.due = [] ∧ (hzPkt 0x11 none).dst = fabS.pkgId ∧ { hzPkt 0x11 none with dst := 1 }.dst ≠ fabS.pkgId ∧
    (let s := treeS 3 2 [{ hzOp with sent := true }]
     (s.grp 5).valid = true ∧ (hzPkt 0x11 none).job = (s.grp 5).job ∧ s.hz.held = [] ∧ s.hz.early = [] ∧ ({ hzOp with sent := true } : HzOp).is 5 false 1 = true ∧
       s.flag fSafe_SAFE = false ∧ hzChildren (s.grp 5).rank (s.grp 5).nmem = []) ∧
    (let s := treeS 3 0 [hzOp]
     (s.grp 5).valid = true ∧ hzOp.is 5 false 1 = true ∧ hzOp.sent = false ∧ hzOp.kids = [] ∧
       hzAgrees { ops := [1], nval := 1, ktop := 0, vals := [3] } (s.grp 5).gkey (hzPkt 0x11 (some 1)) = true ∧ s.hzEdgeLost 5 = false ∧
       (∃ q ∈ hzChildren (s.grp 5).rank (s.grp 5).nmem, q ≠ 1)) ∧
    (let s := (treeS 3 0 [hzOp]).setFld fHz_HZ_WARN 1
     s.hzFind 5 false 1 = some hzOp ∧ s.fld fHz_HZ_WARN ≠ 0 ∧ 2 ∈ hzChildren (s.grp 5).rank (s.grp 5).nmem ∧ 2 ∉ hzOp.warned ∧ (∀ k ∈ hzOp.kids, k.1 ≠ 2) ∧
       (tabGet logDefault s.logs logInfo).recs.length < 256) ∧
    (let s := treeS 1 0 [hzOp]
     (s.grp 5).valid = true ∧ s.hz.ops = [hzOp] ∧ s.hz.held = [] ∧ (s.grp 5).nmem = 1 ∧ (s.grp 5).rank = 0) := by decide +kernel
theorem test_hazelPacket :
    leaves (.hazelPacket (hzPkt 0x12 none)) (treeS 3 0 []) (fun u => decide (u.fld fHz_HZ_REFUSED = 1)) ∧
    leaves (.hazelPacket (hzPkt 0x11 (some 2))) (treeS 3 0 [{ hzOp with kids := [(1, hzPkt 0x11 (some 1))] }]) (fun u =>
      decide (u.hz.ops = [] ∧ sentAt u 0 1 = [0x21, 0x21] ∧ sentAt u 37 1 = [11, 11])) := by decide +kernel
theorem test_hazelWarn : leaves (.hazelWarn 5 false 1 2) ((treeS 3 0 [hzOp]).setFld fHz_HZ_WARN 1) (fun u => decide (u.hz.ops.map (·.warned) = [[2]])) := by decide +kernel
theorem test_hazelAbort : leaves (.hazelAbort 5 false 3) (treeS 1 0 [hzOp]) (fun u => decide (u.hz.ops = [] ∧ u.fld fHz_LAST_CAUSE = 3)) := by decide +kernel

/-! ### Canopy -/

/-- A manifest at 0x2000: root 9, this package its child, one chunk of 64 bytes, window 3. -/
def canMem : List (Nat × Byte) :=
  tables ++ cells 0x40002000 (natLE 2 1 ++ natLE 2 2 ++ natLE 4 1 ++ natLE 8 64 ++ natLE 2 3 ++ natLE 2 9 ++ natLE 2 0x11 ++ List.replicate 42 0 ++
    natLE 2 9 ++ natLE 2 0xFFFF ++ natLE 2 0xFFFF ++ natLE 2 0 ++ natLE 2 0 ++ natLE 2 9 ++ natLE 2 0xFFFF ++ natLE 2 0)
def canS : State := { fabS with dram := canMem }.setFld fCan_MAN_ADDR 0x80
/-- A broadcast in progress under a manifest of this package, root, and package 1. -/
def manC (root : Nat) : Manifest :=
  { len := 512, cwin := 3, root := root, job := 0x11, members := [(0, 0xFFFF, 0xFFFF), (1, 0, 0xFFFF)], digests := [[]], mkey := 77 }
def castS (root st : Nat) (f : CanSt → CanSt) : State := { fabS with can := f { CanSt.empty with man := some (manC root) } }.setFld fCan_STATE st

theorem wit_CanopyDistributesTheImage_start :
    fabS.agentUp .host = true ∧ (fabS.canState = canIdle ∧ fabS.canCheck.1 = .refused 1) ∧
    (canS.canState = canIdle ∧ (match canS.canCheck with | (.ok m, s1) => decide (m.root ≠ s1.pkgId) | _ => false) = true) ∧
    ((castS 0 canComplete id).canState ≠ canIdle ∧ (castS 0 canComplete id).canBusy = false) := by decide +kernel
theorem wit_CanopyDistributesTheImage :
    ((manC 0).mkey ≠ 78 ∧ (castS 0 canRecv id).can.man = some (manC 0) ∧ (castS 0 canRecv id).agentUp .host = true) ∧
    ((castS 9 canRecv id).canBusy = true ∧ (castS 9 canRecv id).can.kids = [] ∧ 0 < (manC 9).digests.length ∧ 0 + 256 < (manC 9).chunkLen 0 ∧
      (castS 9 canRecv id).canKey (manC 9) (0 * 0x100000 + 0) = some 0x40000000 ∧ (castS 9 canRecv id).flag fSafe_SAFE = false ∧
      (castS 9 canRecv id).canState = canRecv ∧ (manC 9).root ≠ (castS 9 canRecv id).pkgId) ∧
    ((manC 0).root = (castS 0 canRecv id).pkgId ∧ ((manC 0).entry 1).isSome = true ∧ (1 : Nat) ≠ (manC 0).root ∧ 1 ∉ (castS 0 canRecv id).can.failed ∧
      (∀ e ∈ (manC 0).members, (castS 0 canRecv id).canParentOf e.1 ≠ 1)) ∧
    ((castS 0 canRecv id).can.done.length + 1 ≠ (manC 0).members.length ∧ 1 ∉ (castS 0 canRecv id).can.done ∧
      (castS 0 canRecv fun c => { c with done := [0] }).can.done.length + 1 = (manC 0).members.length ∧ 1 ∉ (castS 0 canRecv fun c => { c with done := [0] }).can.done ∧
      (castS 0 canRecv fun c => { c with done := [0] }).can.kids = []) ∧
    ((castS 9 canHeld id).canState = canHeld ∧ (castS 9 canRecv id).canState ≠ canHeld ∧ (tabGet logDefault (castS 9 canRecv id).logs logInfo).recs.length < 256) ∧
    (let s := castS 9 canRecv fun c => { c with held := [0], kids := [1] }
     0 ∈ s.can.held ∧ 1 ∈ s.can.kids ∧ s.canBusy = true ∧ (1 : Nat) ≠ s.pkgId) ∧
    (let s := castS 0 canRecv fun c => { c with failed := [1] }
     (manC 0).entry 1 = some (1, 0, 0xFFFF) ∧ 1 ∈ s.can.failed ∧ (manC 0).root ≠ 0xFFFF ∧ (manC 0).root ∉ s.can.failed) := by decide +kernel
theorem test_canopyStart :
    leaves (.canopyStart .host) canS (fun u => decide (u.canState = canRecv ∧ u.fld fCan_PARENT = 9)) ∧
    leaves (.canopyJoin .host) fabS (fun u => decide (u.canState = canRefused ∧ u.fld fCan_CODE = 1)) := by decide +kernel
theorem test_canopyCancel : leaves (.canopyCancel .host) (castS 0 canRecv id) (fun u => decide (u.canState = canIdle ∧ u.can.man = none)) := by decide +kernel
theorem test_canopyChunkPacket :
    leaves (.canopyChunkPacket 77 0 0 [1, 2]) (castS 9 canRecv id) (fun u => decide (u.dramByte 0x40000001 = 2 ∧ u.can.held = [])) ∧
    leaves (.canopyChunkPacket 78 0 0 [1, 2]) (castS 9 canRecv id) (fun u => decide (u.dramByte 0x40000001 = 0 ∧ u.fld fCan_MKEY_DROP = 1)) := by decide +kernel
theorem test_canopyRelay :
    leaves .canopyKeepalive (castS 9 canRecv fun c => { c with kids := [1] }) (fun u => decide (sentAt u 0 1 = [0x29] ∧ sentAt u 14 2 = [1])) ∧
    leaves (.canopyFailureReport 1) (castS 0 canRecv id) (fun u => decide (u.can.failed = [1])) := by decide +kernel
theorem test_canopyDone :
    leaves (.canopyDone 1) (castS 0 canRecv fun c => { c with done := [0] }) (fun u => decide (u.canState = canComplete)) ∧
    leaves .canopyGo (castS 9 canHeld id) (fun u => decide (u.canState = canComplete)) := by decide +kernel
theorem test_canopyAbandon :
    leaves .canopyAbandon (castS 9 canRecv id) (fun u => decide (u.canState = canAbandoned)) ∧ idles .canopyParentTimeout (castS 9 canHeld id) := by decide +kernel
theorem test_canopyChunkRequest : leaves (.canopyChunkRequest 1 0) (castS 9 canRecv fun c => { c with held := [0], kids := [1] })
    (fun u => decide ((sentAt u 0 1).head? = some 0x28)) := by decide +kernel
theorem test_canopyReparent :
    leaves (.canopyReparent 0 1 0) (castS 9 canRecv id) (fun u => decide (u.fld fCan_PARENT = 1 ∧ u.fld fCan_REPARENTS = 1)) ∧
    leaves (.canopyJoinReceived 1) (castS 0 canRecv fun c => { c with failed := [1] }) (fun u => decide (u.can.failed = [] ∧ u.can.kids = [1])) := by decide +kernel
/-! ### The host's memory and link -/

/-- The decoder covers 256 MiB; its last 8 bytes are at device address 0xFFFFFF8. -/
def hdmS : State := { runS with host := { HostSt.empty with hdmSize := 2 ^ 28 }, dram := [(dpaKey 0xFFFFFF8, 7)] }.setFlag fCxl_MEM_EN true
def lastK : Nat := dpaKey 0xFFFFFF8
def pausedS : State := hdmS.setPcState (keyStack lastK) (offPc (keyOff lastK)) 2
def hreqS : State :=
  { hdmS with host := { hdmS.host with reqs := [{ id := 5, write := false, dpa := 0xFFFFFF8, len := 8, data := [], poison := false, own := false }] } }

theorem wit_HostReadsAndWritesDeviceMemory :
    hdmS.linkUp = true ∧ hdmS.hdmHit 0xFFFFFF8 8 = true ∧ linePieces 0xFFFFFF8 8 = [(0xFFFFFF8, 8)] ∧ (hdmS.setFlag fCxl_VIRAL true).hostCut = true ∧
    hdmS.hostCut = false ∧ hdmS.accessStalled lastK 8 false = false ∧ hdmS.behind [lastK / 64] = false ∧ (hdmS.homeRead .host lastK 8).1 = some (natLE 8 7) ∧
    ((hdmS.setPoison (lastK / 64) true).homeRead .none lastK 8).1 = none ∧ pausedS.accessStalled lastK 8 false = true ∧
    hdmS.accessStalled lastK 8 true = false ∧ hdmS.protectedKey lastK 8 = false ∧
    (let s := { hdmS with mdl := { hdmS.mdl with prot := [(0, [(lastK, 8)])] } }
     s.protectedKey lastK 8 = true) ∧
    (hreqS.host.reqs.map (·.id) = [5] ∧ hreqS.flag fCxl_VIRAL = false ∧ hreqS.flag fSafe_SAFE = false) := by decide +kernel
theorem test_hostMemRead :
    leaves (.hostMemRead 0xFFFFFF8 8 false) hdmS (fun u => decide (u.answers = [.bytes (natLE 8 7)])) ∧
    leaves (.hostMemRead 0xFFFFFF8 8 false) (hdmS.setFlag fCxl_VIRAL true) (fun u => decide (u.answers = [.bytes (natLE 8 0x7FF8E00000000F0C)])) := by
  decide +kernel
theorem test_hostMemWrite :
    leaves (.hostMemWrite 0xFFFFFF8 [9] false) hdmS (fun u => decide (u.dramByte lastK = 9)) ∧
    leaves (.hostMemWrite 0xFFFFFF8 [9] false) pausedS (fun u => decide (u.dramByte lastK = 7 ∧ u.host.reqs.length = 1)) := by decide +kernel
theorem test_hostMemTimeout : leaves (.hostMemTimeout 5) (hreqS.setFlag fCxl_HOST_LOST true) (fun u => decide (u.host.reqs = [] ∧ u.answers.length = 1)) := by decide +kernel

/-- Host line 1 is held modified; the cache is on; a snoop of line 3 is unanswered; IDE is Secure. -/
def lineS : State :=
  let m := { runS.mem with hostLines := [(1, { bytes := List.replicate 64 3, modified := true, poison := false })], bi := [3] }
  ({ runS with mem := m }.setFlag fCxl_CACHE_EN true).setFlag fCxl_IDE_SECURE true
theorem wit_HostLinkEventsAct :
    (3 ∈ lineS.mem.bi ∧ 4 ∉ lineS.mem.bi) ∧ (lineS.linkUp = true ∧ lineS.hostUp = true) ∧
    (lineS.flag fCxl_IDE_SECURE = true ∧ lineS.flag fCxl_VIRAL = false ∧ runS.flag fCxl_IDE_SECURE = false ∧ lineS.pwr.mode = .run) ∧
    (2560 * 2 ^ 28 ≤ runS.hdmBytes ∧ runS.hdmBytes < 2561 * 2 ^ 28 ∧ runS.flag fCxl_IDE_POL = false) ∧
    (let s := { runS with sec := { runS.sec with doeSess := 1 } }
     s.linkUp = true ∧ s.sec.doeSess ≠ 0 ∧ s.host.ideBad = false) := by decide +kernel
theorem test_biTimeout : leaves (.biTimeout 3) lineS (fun u => decide (u.flag fCxl_HOST_LOST = true ∧ u.mem.hostLines = [] ∧ u.fld fCxl_HOST_LINES_LOST = 1)) := by
  decide +kernel
theorem test_hostSnoop : leaves (.hostSnoop 127) lineS (fun u => decide (u.answers = [.bytes (List.replicate 64 3)] ∧ u.mem.hostLines = [])) := by decide +kernel
theorem test_cxlLinkDown :
    leaves .cxlLinkDown lineS (fun u => decide (u.linkUp = false ∧ u.fld fCxl_LINK_DOWNS = 1)) ∧
    leaves .cxlRefclkLoss lineS (fun u => decide (u.linkUp = false ∧ u.flag fCxl_HOST_LOST = true)) := by decide +kernel
theorem test_hdmDecoderCommit :
    leaves (.hdmDecoderCommit 3 2560) runS (fun u => decide (u.host.hdmSize = 640 * 2 ^ 30 ∧ u.host.hdmBase = 3 * 2 ^ 28)) ∧
    idles (.hdmDecoderCommit 3 2561) runS := by decide +kernel
theorem test_cxlIdeKeyManagement : leaves .cxlIdeKeyManagement { runS with sec := { runS.sec with doeSess := 1 } } (fun u => u.flag fCxl_IDE_SECURE) := by
  decide +kernel

/-! ### The host ring -/

/-- The ring of 16 entries at device address 0: PROD 1, CONS 0; a MARK of job 0x11 with a vector wish of none, its address 0. -/
def ringMem (kind job : Nat) : List (Nat × Byte) := [(dpaKey 0, 1), (dpaKey 128, BitVec.ofNat 8 kind), (dpaKey 132, BitVec.ofNat 8 job)]
def ringOff : State := { jobS with dram := ringMem 2 0x11 }
def ringOn (kind job : Nat) : State := { jobS with dram := ringMem kind job, host := { HostSt.empty with ringProd := 1 } }.setFlag fRing_EN true
def entryE (kind : Nat) : List Byte := [BitVec.ofNat 8 kind, 0, 0, 0, 0x11, 0] ++ List.replicate 122 0

theorem wit_HostRingTakesEntries :
    (ringOff.memWf = true ∧ ringOff.agentUp .host = true ∧ ringOff.flag fRing_EN = false ∧ ringOff.hringFits = true ∧
      (ringOff.setFld fRing_HRING_BASE (2 ^ 36 - 1)).hringFits = false ∧
      ((ringOff.setFlag fRing_EN true).hringRead (ringOff.hringHead + 8) 4).1 = .ok [0, 0, 0, 0]) ∧
    (let s := ringOn 2 0x11
     s.flag fRing_EN = true ∧ s.host.ringDue ≠ 2 ∧ s.host.jobEnding = none ∧ (s.hringRead s.hringHead 4).1 = .ok [1, 0, 0, 0] ∧ (1 + 2 ^ 32 - s.fld fRing_HR_CONS) % 2 ^ 32 ≤ s.hringLen ∧
       s.hringLen < (17 + 2 ^ 32 - s.fld fRing_HR_CONS) % 2 ^ 32 ∧ s.ringNext.1 = .ok (entryE 2) ∧ s.ringNext.2.ringCode (entryE 2) = 0 ∧
       fieldLE (entryE 2) 0 1 = 2 ∧ s.ringNext.2.markReady (entryE 2) = true ∧ fieldLE (entryE 2) 8 8 = 0 ∧ bitAt (fieldLE (entryE 2) 1 1) 1 = false) ∧
    (let s := { ringOn 2 0x11 with dram := [(dpaKey 0, 17)] }
     (s.hringRead s.hringHead 4).1 = .ok [17, 0, 0, 0]) ∧
    ((ringOn 1 0x11).ringNext.1 = .ok (entryE 1) ∧ fieldLE (entryE 1) 0 1 ≠ 2) ∧
    ({ ringOn 2 0x11 with host := { HostSt.empty with jobEnding := some none } }.ringCode (entryE 2) = 2) ∧
    (ringBadKind (entryE 3) = true ∧ ringBadKind (entryE 1) = false ∧ jobS.flag fSafe_SAFE = false ∧ runS.ringCode (entryE 1) ≠ 0 ∧
      runS.flag fSafe_SAFE = false) := by decide +kernel
theorem test_hostRingEnable :
    leaves (.hostRingEnable .host) ringOff (fun u => decide (u.flag fRing_EN = true ∧ u.host.ringProd = 1 ∧ u.fld fRing_HR_CONS = 0)) ∧
    leaves (.hostRingEnable .host) { ringOff with dram := ringMem 3 0x11 } (fun u => decide (u.fld fRing_HR_CONS = 1 ∧ u.fld fRing_LAST_CODE = 1)) := by
  decide +kernel
/-- A head that could not be read is read again when the service goes on. -/
theorem test_hostRingProd_due :
    leaves .hostRingProd { (ringOn 1 0x12) with host := { HostSt.empty with ringDue := 2 } }
      (fun u => decide (u.fld fRing_LAST_CODE = 2 ∧ u.host.ringDue = 0 ∧ u.fld fRing_HR_CONS = 1)) := by decide +kernel
theorem test_hostRingProd : leaves .hostRingProd (ringOn 1 0x12) (fun u => decide (u.fld fRing_LAST_CODE = 2 ∧ u.dramByte (dpaKey 0x99) = 2)) := by decide +kernel
theorem test_ringMark :
    leaves .ringMark (ringOn 2 0x11) (fun u => decide (u.fld fRing_HR_CONS = 1 ∧ u.dramByte (dpaKey 0x98) = 1 ∧ u.dramByte (dpaKey 8) = 1)) ∧
    idles .ringMark (ringOn 1 0x11) := by decide +kernel

/-! ### The mailbox -/

theorem wit_MailboxQueriesAnswer :
    runS.mboxUp .host = true ∧ runS.mboxUp .bmc = true ∧ runS.fld fBoot_SLOT_PREF = runS.fld fBoot_SLOT ∧ runS.evVector 3 ≤ 4 ∧
    0 ≤ runS.retained ∧ runS.retained < 1 ∧ (0xC016 : BitVec 16).toNat ∉ opcodesOf .host := by decide +kernel
theorem test_getTables :
    leaves (.getEventInterruptPolicy .bmc) runS (fun u => decide (u.answers = [.code 0 [0, 0, 0, 0]])) ∧
    leaves (.getRepairRecord .bmc 0 0) (runS.modStk 0 fun x => { x with recRows := [.row 63 2 3] }) (fun u =>
      decide (u.answers = [.code 0 (natLE 8 1 ++ natLE 8 (63 + 2 * 64 + 3 * 4096))])) := by decide +kernel
theorem test_getPackageInfo : leaves (.getPackageInfo .bmc) runS (fun u =>
    decide (u.answers = [.code 0 ([0, 1, 0xFF, 0xFF, 2, 0] ++ natLE 8 (640 * 2 ^ 30) ++ [9])])) := by decide +kernel
theorem test_unsupportedCommand :
    leaves (.unsupportedCommand .host 0xC016) runS (fun u => decide (u.answers = [.vector 0, .code 3 []])) ∧
    idles (.unsupportedCommand .bmc 0xC016) runS := by decide +kernel
theorem test_getFaultLog : leaves (.getFaultLog .bmc 1) runS (fun u => decide (u.answers = [.code 2 []])) := by decide +kernel

/-- An event record with handle 1; the two slots as shipped; a job may start. -/
def evRec : EvRec := { handle := 1, kind := .boot, loc := 0, data := 0, frec := [], step := 0, time := 0 }
def evS : State := { runS with logs := [(3, { recs := [evRec], overflow := 2, next := 2 })] }
def bgS (b : BgCmd) : State := { runS with host := { runS.host with bg := some b } }
def imgX (comp : Nat) : Image := { imgShipped comp with svn := 5 }
def freeS : State := runS.setFld fPkg_PKG_ID_APPLIED 0
def windowReq : List Byte := winReq 0x10000 8 16383

theorem wit_MailboxCommandsAct :
    (runS.mboxUp .host = true ∧ (∀ h ∈ [1], ∃ r ∈ (evS.evLog 3).recs, r.handle = h) ∧ (∃ h ∈ [2], ∀ r ∈ (evS.evLog 3).recs, r.handle ≠ h)) ∧
    (runS.host.bg = none ∧ (bgS .formatStore).host.bg ≠ none ∧ (imgX 7).comp ∈ imgComps) ∧
    (runS.flag fPkg_JOB_PRESENT = false ∧ jobS.flag fPkg_JOB_PRESENT = true) ∧
    (runS.pwr.mode ≠ .service ∧ (∀ c ∈ [2, 4, 5, 6, 7], (runS.image 1 c).digest = (runS.image (runS.fld fBoot_SLOT) c).digest) ∧
      runS.imageOk (runS.image 1 3) 3 = true ∧ (runS.setFld fSec_SVN_FUSE 1).imageOk ((runS.setFld fSec_SVN_FUSE 1).image 1 3) 3 = false) ∧
    (freeS.jobStartCode 0xFFFE 0x1000 = 0 ∧ freeS.hz.held = [] ∧ freeS.hz.due = [] ∧ freeS.host.bg ≠ some .formatStore) ∧
    (jobS.jobRuns = true ∧ jobS.jobId = 0x11 ∧ runS.jobRuns = false) ∧
    (windowReq.length = 32 ∧ runS.winCheck windowReq true = (0, 16383) ∧ runS.winCheck (winReq 0 8 16383) true = (2, 0)) ∧
    ((fabS.window 3).valid = true ∧ (fabS.window 16383).valid = false) := by decide +kernel
theorem test_clearEventRecords :
    leaves (.clearEventRecords .bmc 3 (some [1])) evS (fun u => decide ((u.evLog 3).recs = [] ∧ (u.evLog 3).overflow = 2)) ∧
    leaves (.clearEventRecords .bmc 3 (some [2])) evS (fun u => decide ((u.evLog 3).recs.length = 1 ∧ u.answers = [.code 2 []])) := by decide +kernel
theorem test_setEventInterruptPolicy :
    leaves (.setEventInterruptPolicy .bmc 0 0 0 4) runS (fun u => decide (u.evVector 3 = 4)) ∧
    leaves (.setEventInterruptPolicy .bmc 0 0 0 5) runS (fun u => decide (u.evVector 3 = 0 ∧ u.answers = [.code 2 []])) := by decide +kernel
theorem test_transferFw :
    leaves (.transferFw .bmc 1 (imgX 7)) runS (fun u => decide (u.host.bg = some (.transferFw .bmc 1 (imgX 7)) ∧ u.answers = [.code 1 []])) ∧
    leaves .backgroundCommandDone (bgS (.transferFw .bmc 1 (imgX 7))) (fun u => decide ((u.image 1 7).svn = 5 ∧ (u.image 0 7).svn = 0 ∧ u.host.bg = none)) := by
  decide +kernel
theorem test_formatSnapshotStore :
    leaves (.formatSnapshotStore .bmc) jobS (fun u => decide (u.answers = [.code 6 []])) ∧
    leaves (.formatSnapshotStore .bmc) runS (fun u => decide (u.host.bg = some .formatStore)) := by decide +kernel
theorem test_activateFw :
    leaves (.activateFw .bmc 1 true) runS (fun u => decide (u.host.bg = some (.activate 1) ∧ u.pwr.mctp = false)) ∧
    leaves .mgmtFwRunning (bgS (.activate 1)) (fun u => decide (u.fld fBoot_SLOT = 1)) := by decide +kernel
theorem test_jobStart :
    leaves (.jobStart .bmc 0xFFFE 0x1000) freeS (fun u => decide (u.jobId = 0xFFFE ∧ u.jobRuns = true ∧ (u.grp 0).nmem = 1)) ∧
    leaves (.jobStart .bmc 0xFFFE 0x1001) freeS (fun u => decide (u.jobRuns = false ∧ u.answers = [.code 2 []])) := by decide +kernel
theorem test_jobEnd :
    leaves (.jobEnd .bmc 0x11) ctlS (fun u => decide (u.jobRuns = false ∧ (u.ctx tc).st = .idle ∧ u.answers = [.code 0 []])) ∧
    leaves (.jobEnd .bmc 0x12) ctlS (fun u => decide (u.jobRuns = true ∧ u.answers = [.code 2 []])) := by decide +kernel
theorem test_registerWindow :
    leaves (.registerWindow .bmc windowReq) runS (fun u => decide ((u.window 16383).lend = true ∧ u.answers = [.code 0 (natLE 8 16383)])) ∧
    leaves (.deregisterWindow .bmc 3) fabS (fun u => decide ((u.window 3).valid = false ∧ u.answers = [.code 0 []])) := by decide +kernel
/-! ### Security -/

/-- The bytes of a record's header: version 1, kind, signers, ARG, serial 0, the nonce of 32 bytes of 7, PARAM. -/
def recB (kind signers arg param : Nat) : List Byte :=
  [1, 0, BitVec.ofNat 8 kind, BitVec.ofNat 8 signers] ++ natLE 4 arg ++ List.replicate 16 0 ++ List.replicate 32 7 ++ natLE 32 param ++ List.replicate 40 0
def secS : State := { runS with sec := { runS.sec with nonce := some (List.replicate 32 7) } }
/-- The same in EVALUATION. -/
def evalS : State := secS.setFld fSec_LC 1
/-- Two parts of an owner-signed record of KIND 2, the second submitted at offset 4000; no owner is set. -/
def ownS : State :=
  { secS with sec := { secS.sec with record := recB 2 2 0 0 ++ List.replicate 3872 0 } }
def dbgS : State := ((runS.setFld fSec_DBG 1).setFld fSec_SCOPE 7)

set_option maxRecDepth 100000 in
theorem wit_AttestationAndSealingAnswer :
    (runS.mboxUp .bmc = true ∧ runS.fld fSec_LC = 2 ∧ runS.sessionsOf .bmc < 2 ∧
      (let s := { runS with sec := { runS.sec with mctpSess := 2 } }
       2 ≤ s.sessionsOf .bmc) ∧ (runS.setFld fSec_LC 3).mboxUp .bmc = true) ∧
    (runS.noSeal = false ∧ (runS.setFld fSec_LC 3).noSeal = true ∧ runS.fld fSec_DBG ≠ 1 ∧ dbgS.fld fSec_DBG = 1) ∧
    (blobBad [] = true ∧ blobBad (blobHead 1 [] 0 ++ [5] ++ natLE 16 0) = false) := by decide +kernel
/-- Of two tags, one at least is not the tag of the blob. -/
theorem wit_UnsealBadTag : ∃ blob : List Byte, blobBad blob = false ∧
    (Config.gcmTag runS.sealKey (BitVec.ofNat 96 (fieldLE blob 16 12)) (sliceB blob 0 32) (sliceB blob 32 (fieldLE blob 2 2))).toNat ≠
      fieldLE blob (32 + fieldLE blob 2 2) 16 := by
  have same : ∀ n, n = 0 ∨ n = 1 → let b := blobHead 1 [] 0 ++ [5] ++ natLE 16 n
      blobBad b = false ∧ fieldLE b 16 12 = 0 ∧ sliceB b 0 32 = blobHead 1 [] 0 ∧ fieldLE b 2 2 = 1 ∧ sliceB b 32 1 = [5] ∧ fieldLE b 33 16 = n := by
    rintro n (rfl | rfl) <;> decide +kernel
  by_cases h : (Config.gcmTag runS.sealKey (BitVec.ofNat 96 0) (blobHead 1 [] 0) [5]).toNat = 0
  · obtain ⟨h1, h2, h3, h4, h5, h6⟩ := same 1 (.inr rfl)
    exact ⟨_, h1, by rw [h2, h3, h4, h5, h6, h]; decide⟩
  · obtain ⟨h1, h2, h3, h4, h5, h6⟩ := same 0 (.inl rfl)
    exact ⟨_, h1, by rw [h2, h3, h4, h5, h6]; exact h⟩
theorem test_spdm :
    leaves (.spdmKeyExchange .host) runS (fun u => decide (u.sec.doeSess = 1 ∧ u.fld fSec_SESSIONS = 1)) ∧
    leaves (.spdmKeyExchange .host) { runS with sec := { runS.sec with doeSess := 2 } } (fun u => decide (u.answers = [.message 0x500 1 [0x7F, 3]])) ∧
    idles (.spdmGetMeasurements .host) (runS.setFld fSec_LC 3) := by decide +kernel
theorem test_seal :
    leaves (.sealBlob .bmc [] []) runS (fun u => decide (u.answers = [.code 2 [1, 0, 0, 0]])) ∧
    leaves (.unsealBlob .bmc []) runS (fun u => decide (u.answers = [.code 2 [1, 0, 0, 0]])) := by decide +kernel

set_option maxRecDepth 100000 in
theorem wit_RecordsOpenDebugSessions_records :
    secS.mboxUp .bmc = true ∧ secS.sec.recBad = false ∧ authBad (recB 7 0 0 0) = true ∧
    authBad (recB 3 0 5 0) = false ∧ (authOf (recB 3 0 5 0)).serial = secS.fld fSec_SERIAL_LO + 2 ^ 64 * secS.fld fSec_SERIAL_HI ∧
    (let s := secS.setFld fSec_SERIAL_LO 9
     (authOf (recB 3 0 5 0)).serial ≠ s.fld fSec_SERIAL_LO + 2 ^ 64 * s.fld fSec_SERIAL_HI) ∧
    runS.sec.nonce ≠ some (authOf (recB 3 0 5 0)).nonce ∧ secS.sec.nonce = some (authOf (recB 3 0 5 0)).nonce ∧
    authBad (recB 4 0 0 9) = false ∧ secS.authAllowed (authOf (recB 4 0 0 9)) .host = false ∧
    secS.authAllowed (authOf (recB 3 0 5 0)) .bmc = true ∧ secS.authSigned (authOf (recB 3 0 5 0)) = true ∧
    (secS.setFlag fSec_FUSE_PEND true).authStateBad (authOf (recB 3 0 5 0)) = true := by decide +kernel
set_option maxRecDepth 100000 in
theorem wit_RecordsOpenDebugSessions_signed :
    (ownS.sec.record.length = 4000 ∧ ownS.sec.recBad = false ∧
      (let b := ownS.sec.record ++ List.replicate 1389 0
       authBad b = false ∧ ownS.sec.nonce = some (authOf b).nonce ∧ (authOf b).serial = 0 ∧ ownS.authAllowed (authOf b) .bmc = true ∧
         ownS.authSigned (authOf b) = false)) := by decide +kernel
set_option maxRecDepth 100000 in
theorem wit_RecordsOpenDebugSessions_opened :
    (let b := recB 1 1 3 0 ++ List.replicate 3309 0
     b.length ≤ 4000 ∧ authBad b = false ∧ evalS.sec.nonce = some (authOf b).nonce ∧ (authOf b).serial = 0 ∧ evalS.authAllowed (authOf b) .bmc = true ∧
       evalS.authStateBad (authOf b) = false ∧ (authOf b).kind = 1) := by decide +kernel
theorem wit_RecordsOpenDebugSessions_session :
    (dbgS.fld fSec_DBG = 1 ∧ dbgS.flag fSec_DBG_FUSE = false ∧ dbgS.fld fSec_LC = 2 ∧ dbgS.sec.lifetime = false ∧ dbgS.mboxUp .bmc = true) ∧
    (let s := { dbgS with sec := { dbgS.sec with lifetime := true, halted := [tc.handle] } }
     s.sec.lifetime = true ∧ tc.handle ∈ s.sec.halted) ∧
    (runS.fld fSec_DBG ≠ 1 ∧ runS.linkUp = true ∧ runS.pwr.mode ≠ .off) ∧
    (tc.valid = true ∧ bitAt (dbgS.fld fSec_SCOPE) 0 = true ∧ dbgS.pwr.mode ≠ .ret) := by decide +kernel
theorem test_challenge :
    leaves .nonceExpiry secS (fun u => decide (u.sec.nonce = none)) ∧
    leaves (.submitRecord .bmc 0 true (recB 3 0 5 0)) runS (fun u => decide (u.fld fSec_LAST_CODE = 3 ∧ u.fld fSec_REC_FAIL = 1 ∧ u.answers = [.code 2 [3]])) ∧
    leaves (.submitRecord .bmc 0 true (recB 3 0 5 0)) secS (fun u => decide (u.fld fSec_LAST_CODE = 7 ∧ u.sec.nonce = none)) := by decide +kernel
theorem test_ownerRecord : leaves (.submitRecord .bmc 0 true (recB 4 0 1 9)) secS (fun u => decide (u.flag fSec_OWNER_SET = true ∧ u.flag fSec_OWN_REQ = true ∧
    u.sec.owner = natLE 32 9)) := by decide +kernel
theorem test_lockDebug :
    leaves (.lockDebug .bmc) dbgS (fun u => decide (u.fld fSec_DBG = 0 ∧ u.fld fSec_SCOPE = 0)) ∧
    idles .debugSessionExpiry dbgS := by decide +kernel
theorem test_getSecurityState : leaves (.getSecurityState .bmc) runS (fun u => decide (u.answers = [.code 0 ([2, 0, 0, 0] ++ List.replicate 12 0)])) := by decide +kernel
theorem test_debugAccess :
    leaves (.debugAccess true (.halt tc)) dbgS (fun u => decide (u.sec.halted = [tc.handle])) ∧
    leaves (.debugAccess true (.writeReg tc 3 7)) dbgS (fun u => decide ((u.ctx tc).ga 3 = 7)) ∧
    idles (.debugAccess true (.halt tc)) runS := by decide +kernel

/-! ### Detections -/

def startS (stage : Nat) : State := { State.reset with regs := [], pwr := PwrSt.starting }.setFld fBoot_STAGE stage

theorem wit_DetectionsEnterSafeStop :
    runS.pwr.mode = .run ∧ (startS 4).pwr.mode = .start ∧
    (runS.flag (fGated (testUnit (.groveT 255)).1) = false ∧ runS.testInj (.groveT 255) = false ∧ runS.testInj (.stackT 7) = false ∧
      runS.testInj (.coreT 47) = false ∧ runS.flag (fGated (testUnit (.stackT 7)).1) = false ∧ runS.flag (fGated (testUnit (.coreT 47)).1) = false) ∧
    (runS.fld fSafe_LOG_SEQ + 1 < 2 ^ 64 ∧ runS.flag fSafe_SAFE = false ∧ (runS.setFlag fSafe_SAFE true).flag fSafe_SAFE = true) := by decide +kernel
theorem test_detections :
    leaves (.voltageMonitorTrip 1) runS (fun u => decide (u.flag fSafe_SAFE = true ∧ u.fld fSafe_LAST_CLASS = 0x0B ∧ u.flag fSafe_FAULT = true)) ∧
    leaves .sysRefclkLoss (startS 4) (fun u => decide (u.pwr.mode = .failed ∧ u.fld fBoot_FAIL_STAGE = 4 ∧ u.fld fBoot_CAUSE = 1)) := by decide +kernel
theorem test_monitors :
    leaves (.clockMonitorTrip 1) (runS.setFlag fSafe_SAFE true) (fun u => decide (u.fld fSafe_LOG_SEQ = 1 ∧ u.flag fSafe_FAULT = false)) ∧
    leaves .lockstepMismatch runS (fun u => decide (u.fld fSafe_LAST_CLASS = 0x0A)) := by decide +kernel
theorem test_safeStopN : leaves (.safeStopN false) runS (fun u => decide (u.flag fSafe_SAFE = true ∧ u.fld fSafe_LAST_CLASS = 0x12)) := by decide +kernel
theorem test_selfTest :
    leaves (.selfTestPass (.groveT 255) false 0) runS (fun u => decide (u.flag fSafe_SAFE = true ∧ u.fld fSafe_LAST_CLASS = 7)) ∧
    idles (.selfTestPass (.groveT 255) true 0) runS ∧ idles (.selfTestForce (.coreT 3)) runS := by decide +kernel
/-! ### Control inputs, caps, temperatures -/

def capS (cap clk gate : Nat) (freq : Bool) : State :=
  (((runS.setFld fPwr_CAP_W cap).setFld fPwr_ACLK clk).setFld fPwr_GATE gate).setFlag fPwr_FREQ_EN freq
def hotS : State := { runS with pwr := { runS.pwr with hot := [2] } }

theorem wit_ControlInputsCapsAndTemperatures :
    (runS.pwr.mode = .run ∧ runS.flag fPwr_PREEMPT_STUCK = false ∧ (runS.setFlag fPwr_PREEMPT_STUCK true).flag fPwr_PREEMPT_STUCK = true) ∧
    (let s := capS 600 940 0 true
     s.fld fPwr_CAP_W < 601 ∧ s.freqOk = true ∧ 720 < s.fld fPwr_ACLK ∧ (940 - s.fld fPwr_ACLK) % 20 = 0 ∧ s.fld fPwr_ACLK ≤ 940 ∧ 600 ≤ s.fld fPwr_CAP_W ∧
       s.pwr.mode = .run) ∧
    (let s := capS 600 720 55 true
     s.fld fPwr_CAP_W < 601 ∧ s.fld fPwr_ACLK ≤ 720 ∧ s.fld fPwr_GATE < 56 ∧ 0 < s.fld fPwr_GATE) ∧
    (let s := capS 600 940 56 false
     s.fld fPwr_CAP_W < 601 ∧ s.freqOk = false ∧ 56 ≤ s.fld fPwr_GATE) ∧
    5700 < 2 ^ fPwr_IN_V.w := by decide +kernel
theorem test_inputs :
    leaves (.preemptN true) runS (fun u => decide (u.fld fPwr_PREEMPT_COAL = 1 ∧ u.thr = runS.thr)) ∧
    leaves (.safeStopN true) runS (fun u => decide (u.fld fPwr_SAFE_COAL = 1 ∧ u.flag fSafe_SAFE = false)) := by decide +kernel
theorem test_inputStuck :
    leaves .inputStuck runS (fun u => decide (u.fld fSafe_LAST_CLASS = 0x44 ∧ u.flag fPwr_PREEMPT_STUCK = true)) ∧
    idles .inputStuck (runS.setFlag fPwr_PREEMPT_STUCK true) := by decide +kernel
theorem test_preemptN : leaves (.preemptN false) runS (fun u => decide (u.thr.notices ≠ [] ∨ u.flag fPwr_PREEMPT_STUCK = false)) := by decide +kernel
theorem test_glRefclkLoss : leaves .glRefclkLoss (((runS.setFlag (fPort_EN 15) false).setFld (fPort_STATE 15) 2)) (fun u =>
    decide (u.portState 15 = 3 ∧ u.portState 14 = 0 ∧ u.fld (fPort_RETRAINS 15) = 1)) := by decide +kernel
theorem test_capSample :
    leaves (.capSample 601) (capS 600 720 56 true) (fun u => decide (u.flag fPwr_CAP_UNMET = true ∧ u.fld fPwr_IN_P = 601)) ∧
    leaves (.capSample 600) (capS 600 940 0 true) (fun u => decide (u.flag fPwr_CAP_UNMET = false ∧ u.fld fPwr_ACLK = 940)) := by decide +kernel
theorem test_dieTemp :
    leaves (.dieTempSample 2 99) hotS (fun u => decide (u.pwr.hot = [] ∧ u.fld fPwr_TJ / 65536 % 256 = 99 ∧ u.flag fPwr_TJ_THROT = false)) ∧
    leaves (.dieTempSample 3 100) hotS (fun u => decide (u.pwr.hot = [2, 3] ∧ u.flag fPwr_TJ_THROT = true)) := by decide +kernel
theorem test_inputRange :
    leaves (.inputRangeChange 5700) runS (fun u => decide (u.fld fPwr_IN_V = 5700 ∧ u.flag fPwr_IN_RANGE = true)) ∧
    leaves (.inputRangeChange 6601) runS (fun u => decide (u.flag fPwr_IN_RANGE = false)) := by decide +kernel

/-! ### Power modes -/

def offS : State := ({ runS with pwr := { runS.pwr with mode := .off } }.setFlag fPwr_IN_RANGE true)
def heldS : State := { runS with pwr := { runS.pwr with mode := .held } }
def retS : State := { runS with pwr := { runS.pwr with mode := .ret } }
def idleS : State := (runS.setFld fPwr_STATE 3).setFlag (fGated 0x1FF) true
def wakeS : State := { idleS with pwr := { idleS.pwr with waking := [0x1FF] } }

theorem wit_PowerModesChange :
    (offS.pwr.mode = .off ∧ offS.pwr.pwrGood = true ∧ offS.pwr.protOff = false ∧ offS.flag fPwr_IN_RANGE = true) ∧
    (runS.pwr.mode = .run ∧ runS.agentUp .bmc = true ∧ runS.memWf = true ∧ runS.flag fPkg_JOB_PRESENT = false ∧ jobS.flag fPkg_JOB_PRESENT = true ∧
      jobS.memWf = true) ∧
    heldS.pwr.mode = .held ∧ (retS.pwr.mode = .ret ∧ retS.agentUp .bmc = true ∧ retS.pwr.imgChanged = false) ∧
    (runS.flag fPwr_IDLE_EN = true ∧ runS.fld fPwr_STATE = 1 ∧ runS.thr.ctxs = [] ∧ runS.thr.launches = [] ∧ runS.eng.mat = [] ∧ runS.eng.solv = [] ∧
      runS.stks = []) ∧
    (idleS.fld fPwr_STATE = 3 ∧ gatedPage (.groveU 255) ∈ wakeS.pwr.waking ∧ wakeS.fld fPwr_STATE = 3) := by decide +kernel
theorem test_coldStart :
    leaves .coldStart offS (fun u => decide (u.pwr.mode = .start ∧ u.fld fBoot_STAGE = 0 ∧ u.pwr.warm = false)) ∧
    idles .coldStart runS ∧ leaves .pwrGoodAssert offS (fun u => u.pwr.pwrGood) := by decide +kernel
theorem test_pwrGoodDeassert : leaves .pwrGoodDeassert ctlS (fun u => decide (u.pwr.mode = .off ∧ u.dram = [] ∧ u.thr.ctxs = [])) := by decide +kernel
theorem test_perst :
    leaves .perstAssert ctlS (fun u => decide (u.pwr.mode = .held ∧ u.flag fPkg_JOB_PRESENT = false ∧ u.thr.ctxs = [])) ∧
    leaves .perstDeassert { heldS with dram := [(5, 5)] } (fun u => decide (u.pwr.mode = .start ∧ u.pwr.warm = true ∧ u.dram = [(5, 5)])) := by decide +kernel
theorem test_retention :
    leaves (.retReq .bmc) jobS (fun u => decide (u.pwr.mode = .run ∧ u.flag fPwr_RET_REFUSED = true)) ∧ idles (.retExit .bmc) runS := by decide +kernel
theorem test_idle :
    leaves (.idleWakeDone (.groveU 255)) wakeS (fun u => decide (u.flag (fGated 0x1FF) = false ∧ u.fld fPwr_STATE = 1)) ∧
    idles .idleEntry idleS ∧ idles (.idleWakeDone (.groveU 254)) wakeS := by decide +kernel
theorem test_protective : leaves (.protectivePowerDown 2 false) runS (fun u => decide (u.pwr.mode = .off ∧ u.pwr.protOff = true)) := by decide +kernel

/-! ### Start-up -/

def env0 : BootEnv :=
  { bad := [], lost := [], failedPcs := [], badLanes := [], rate := 2, width := 16, loFlit := false, failed0 := [], failed1 := [131] }

theorem wit_StartsRunThroughTheirStages :
    (∀ n ∈ [0, 1, 2, 3, 4, 5, 6, 7, 8], (startS n).pwr.mode = .start ∧ (startS n).pwr.wait7 = false ∧ (startS n).fld fBoot_STAGE = n ∧ (startS n).pwr.warm = false) ∧
    ((startS 2).flag fBoot_SERVICE_ONLY = false ∧ (startS 2).fld fSec_LC ≠ 3 ∧ ((startS 2).setFld fSec_LC 3).fld fSec_LC = 3) ∧
    (128 ≤ grovesPass env0.failed0 ∧ 128 ≤ grovesPass env0.failed1 ∧ grovesPass [0, 1, 2, 3, 131] < 128) ∧
    ((startS 1).bs1Ok = true ∧ ((startS 1).setFld fSec_SVN_FUSE 1).bs1Ok = false ∧
      (∀ c ∈ [2, 3, 4, 5, 6, 7], ((startS 1).image ((startS 1).fld fBoot_SLOT) c).digest.length = 32)) ∧
    2 ≤ ((startS 4).setFld fBoot_FAIL_COUNT 2).fld fBoot_FAIL_COUNT ∧
    (let w := { runS with pwr := { runS.pwr with mode := .failed } }
     w.pwr.mode = .failed) := by decide +kernel
theorem test_bootStage :
    leaves (.bootStage (.passed { env0 with failed0 := [0, 1, 2, 3, 131] })) (startS 8) (fun u => decide (u.fld fBoot_FAIL_STAGE = 8 ∧ u.fld fBoot_CAUSE = 8)) ∧
    (startS 8).bs8 { env0 with failed0 := [0, 127, 131] } = (true, ((startS 8).setFld fBoot_SPARES0 2).setFld fBoot_SPARES1 0) := by decide +kernel
theorem test_bootStages :
    leaves (.bootStage (.passed env0)) (startS 7) (fun u => decide (u.fld fBoot_STAGE = 8 ∧ u.fld fCxl_RATE = 2 ∧ u.fld fCxl_WIDTH = 16)) ∧
    leaves (.bootStage (.passed env0)) ((startS 2).setFlag fBoot_SERVICE_ONLY true) (fun u => decide (u.pwr.mode = .service)) := by decide +kernel
theorem test_bootTimeout :
    leaves .bootStageTimeout ((startS 4).setFld fBoot_FAIL_COUNT 2) (fun u => decide (u.pwr.mode = .service ∧ u.fld fBoot_FAIL_COUNT = 3)) ∧
    leaves .bootRestart { runS with pwr := { runS.pwr with mode := .failed } } (fun u => decide (u.pwr.mode = .start ∧ u.fld fBoot_STAGE = 0)) := by decide +kernel

/-! ### Every step -/

/-- One command waits, and another behind it. -/
def queueS : State := { runS with pending := [.trstN, .preemptN true] }
theorem wit_EveryStep :
    queueS.memWf = true ∧ (match step queueS with | .next u => decide (u.pending = [.preemptN true]) && u.memWf | _ => false) = true := by decide +kernel
theorem test_step :
    (match step queueS with | .next u => decide (u = { runS with pending := [.preemptN true] }) | _ => false) = true ∧
    (match step runS with | .next u => decide (u = runS) | _ => false) = true := by decide +kernel
theorem wit_ControlCommandsLeaveMemoryAndThreadsAlone :
    leaves (.clrFail .bmc) ctlS (fun u => decide (u.thr = ctlS.thr ∧ u.dram = ctlS.dram ∧ u.pwr.clrFail = true)) ∧
    leaves (.dieTempSample 0 50) ctlS (fun u => decide (u.thr = ctlS.thr)) ∧ ctlS.pst.waits = [] := by decide +kernel

/-! ### Words of thread instructions -/

/-- A word of format O (Table 3.3): OP, D, A, B, FN; format S has OP 0x3F and its code in FN. -/
def wordO (op d a b fn : Nat) : W32 := BitVec.ofNat 32 (op * 2 ^ 26 + d * 2 ^ 21 + a * 2 ^ 16 + b * 2 ^ 11 + fn)

theorem test_words_system :
    decodeInsn tc 0xFC000001 = .insn (.fenceAcq tc) ∧ decodeInsn tc 0xFC000801 = .illegal ∧ decodeInsn tc 0 = .illegal ∧
    decodeInsn tc (wordO 0x3F 9 4 0 0x026) = .insn (.trestore tc 4 9) ∧ decodeInsn tc (wordO 0x3F 9 4 7 0x050) = .insn (.msel tc 9 4 7) ∧
    decodeInsn tc (wordO 0x3F 9 4 0 0x071) = .insn (.gcreate tc 9 4) ∧ decodeInsn tc (wordO 0x3F 0 0 0 0x004) = .illegal := by decide
theorem test_words_float :
    decodeInsn tc (wordO 0x10 1 2 3 (0 * 64 + 2 * 8)) = .insn (.fadd tc .d 2 1 2 3) ∧ decodeInsn tc (wordO 0x11 1 2 3 (15 * 64)) = .insn (.fnextdn tc .s 0 1 2) ∧
    decodeInsn tc (wordO 0x12 1 2 3 (16 * 64)) = .illegal ∧ decodeInsn tc (wordO 0x10 1 2 3 1) = .illegal ∧
    decodeInsn tc (wordO 0x15 1 2 3 (7 * 64 + 3)) = .insn (.fma tc .h 3 0 1 2 3 7) ∧ decodeInsn tc (wordO 0x16 1 2 3 (2 * 64 + 16)) = .insn (.fcmp tc .s 2 1 2 3) ∧
    decodeInsn tc (wordO 0x16 1 2 3 48) = .illegal ∧ decodeInsn tc (wordO 0x17 1 2 3 (5 * 64 + 4)) = .insn (.fcvt tc 3 5 0 true 1 2) := by decide
theorem test_words_engines :
    decodeInsn tg (wordO 0x31 1 2 3 1) = .insn (.mma tg 1 1 2 3) ∧ decodeInsn tg (wordO 0x33 0 0 0 0) = .illegal ∧
    decodeInsn tg (wordO 0x34 1 2 3 (0x40)) = .insn (.etld tg .w4 1 2 3) ∧ decodeInsn tg (wordO 0x34 1 2 3 0x400) = .illegal ∧
    decodeInsn tg (wordO 0x36 1 2 3 (0x300 + 5)) = .insn (.ecpr tg 5 1 2 3) ∧ decodeInsn tg (wordO 0x37 1 2 3 (2 * 64)) = .insn (.ecvt tg 1 2 3) := by decide
theorem test_words_memory :
    decodeInsn tc (wordO 0x18 1 2 3 (5 * 256)) = .illegal ∧ decodeInsn tc (wordO 0x18 1 2 3 256) = .notGiven ∧ decodeInsn tc (wordO 0x19 1 2 3 256) = .illegal ∧
    decodeInsn tc (wordO 0x38 1 2 3 0x300) = .insn (.acntWait tc 1 2 3) ∧ decodeInsn tc (wordO 0x38 1 2 3 0x500) = .illegal := by decide
end Sys2Proof.Tests
end

section
/-! Starts (R390 to R394, R404): reads of the register fields that the stages write, what the operations of a start leave alone, one
equation per boot stage, and the statement that a start runs through its stages. -/

namespace Sys2Proof.Machine

/-! ### Fields -/

/-- A field reads a value that fits it. -/
theorem State.fld_setFld_fits (s : State) {f : Fld} {v : Nat} (hf : f.ok = true) (hv : v < 2 ^ f.w) : (s.setFld f v).fld f = v := by
  rw [State.fld_setFld_same s v hf, Nat.mod_eq_of_lt hv]

theorem State.fld_lt (s : State) (f : Fld) : s.fld f < 2 ^ f.w := Nat.mod_lt _ (by positivity)

/-- The GATED bits lie in a register of their own: a field of another register is apart from them. -/
theorem fGated_apart (p : Nat) {g : Fld} (hg : g.key % 512 ≠ 7) : (fGated p).apart g = true := by
  have hk : (fGated p).key = p * 512 + 7 := by simp [Fld.key, fGated]
  have : (fGated p).key ≠ g.key := by omega
  simp [Fld.apart, this]

/-- The state with another power state. -/
def State.withPwr (s : State) (x : PwrSt) : State := { s with pwr := x }

/-- The state with other engines. -/
def State.withEng (s : State) (x : EngSt) : State := { s with eng := x }

theorem State.fld_withPwr (s : State) (x : PwrSt) (g : Fld) : (s.withPwr x).fld g = s.fld g := rfl

theorem State.fld_withEng (s : State) (x : EngSt) (g : Fld) : (s.withEng x).fld g = s.fld g := rfl

@[simp] theorem State.withPwr_pwr (s : State) (x : PwrSt) : (s.withPwr x).pwr = x := rfl

@[simp] theorem State.withEng_pwr (s : State) (x : EngSt) : (s.withEng x).pwr = s.pwr := rfl

/-! ### The persistent store and events -/

theorem State.fld_persist (s : State) (i v : Nat) {g : Fld} (hg : fPst_BUSY.apart g = true) : (s.persist i v).fld g = s.fld g := by
  unfold State.persist
  split
  · rfl
  · split
    · exact State.fld_setFlag_apart _ true (by decide) hg
    · rfl

@[simp] theorem State.persist_pwr (s : State) (i v : Nat) : (s.persist i v).pwr = s.pwr := by
  unfold State.persist
  split
  · rfl
  · split <;> rfl

@[simp] theorem State.event_regs (s : State) (log : Nat) (k : EvKind) (loc data : W64) (frec : List Byte) :
    (s.event log k loc data frec).regs = s.regs := by
  unfold State.event
  simp only
  split
  · rfl
  · split <;> rfl

@[simp] theorem State.event_pwr (s : State) (log : Nat) (k : EvKind) (loc data : W64) (frec : List Byte) :
    (s.event log k loc data frec).pwr = s.pwr := by
  unfold State.event
  simp only
  split
  · rfl
  · split <;> rfl

/-! ### Idle -/

/-- Setting a one-bit field of each of some pages leaves a field apart from them alone, and the power state. -/
theorem State.foldl_setFlag (F : Nat → Fld) (b : Bool) (ps : List Nat) : ∀ s : State,
    (ps.foldl (fun t p => t.setFlag (F p) b) s).pwr = s.pwr ∧
      ∀ g, (∀ p, (F p).ok = true ∧ (F p).apart g = true) → (ps.foldl (fun t p => t.setFlag (F p) b) s).fld g = s.fld g := by
  induction ps with
  | nil => exact fun s => ⟨rfl, fun _ _ => rfl⟩
  | cons p ps ih =>
    intro s
    obtain ⟨hpwr, hfld⟩ := ih (s.setFlag (F p) b)
    refine ⟨hpwr, fun g hg => ?_⟩
    rw [List.foldl_cons, hfld g hg, State.fld_setFlag_apart s b (hg p).1 (hg p).2]

/-- The GATED bits of the units that Idle gates. -/
def State.gateUnits (s : State) : State := gatedPages.foldl (fun (t : State) p => t.setFlag (fGated p) true) s

/-- Idle writes the GATED bits, the engines and PWR_STS.STATE. -/
theorem State.goIdle_eq (s : State) : ∃ x : EngSt, s.goIdle = (s.gateUnits.withEng x).setFld fPwr_STATE 3 := ⟨_, rfl⟩

@[simp] theorem State.goIdle_pwr (s : State) : s.goIdle.pwr = s.pwr := by
  have h : s.gateUnits.pwr = s.pwr := (State.foldl_setFlag fGated true gatedPages s).1
  obtain ⟨x, hx⟩ := s.goIdle_eq
  rw [hx, State.setFld_pwr, State.withEng_pwr, h]

theorem State.goIdle_state (s : State) : s.goIdle.fld fPwr_STATE = 3 := by
  obtain ⟨x, hx⟩ := s.goIdle_eq
  rw [hx, State.fld_setFld_fits _ (by decide) (by decide)]

/-- Idle leaves a field of another register than PWR_STS and the GATED bits alone. -/
theorem State.fld_goIdle (s : State) {g : Fld} (hs : fPwr_STATE.apart g = true) (hg : g.key % 512 ≠ 7) : s.goIdle.fld g = s.fld g := by
  have h : s.gateUnits.fld g = s.fld g :=
    (State.foldl_setFlag fGated true gatedPages s).2 g fun p => ⟨by simp [Fld.ok, Fld.sh, Fld.w, fGated], fGated_apart p hg⟩
  obtain ⟨x, hx⟩ := s.goIdle_eq
  rw [hx, State.fld_setFld_apart _ 3 (by decide) hs, State.fld_withEng, h]

/-! ### A stage begins -/

/-- A stage other than BS3, BS4 and BS9 begins with STAGE alone. -/
theorem State.enterStage_plain (s : State) {n : Nat} (h3 : n ≠ 3) (h4 : n ≠ 4) (h9 : n ≠ 9) : s.enterStage n = s.setFld fBoot_STAGE n := by
  simp [State.enterStage, h3, h4, h9]

theorem State.enterStage_three (s : State) :
    s.enterStage 3 = (s.setFld fBoot_STAGE 3).setFld fPwr_CAP_W ((s.setFld fBoot_STAGE 3).fld fPwr_CAP_DEF) := rfl

theorem State.enterStage_four (s : State) : s.enterStage 4 = (s.setFld fBoot_STAGE 4).setFld fPwr_STATE 3 := rfl

/-- No stage before BS9 touches the power state. -/
theorem State.enterStage_pwr (s : State) {n : Nat} (h : n ≠ 9) : (s.enterStage n).pwr = s.pwr := by
  unfold State.enterStage
  simp only [h, if_false]
  split_ifs
  · rw [State.setFld_pwr, State.setFld_pwr]
  · rw [State.setFld_pwr, State.setFld_pwr]
  · rw [State.setFld_pwr]

/-- The package runs: STAGE is BS9, FAIL_COUNT 0 (R391). -/
def State.startEnded (s : State) : State :=
  ((s.setFld fBoot_STAGE 9).setFld fBoot_FAIL_COUNT 0).withPwr { s.pwr with mode := .run }

/-- At BS9 the record is committed, and an alternative used has its Warning record. -/
theorem State.enterStage_nine (s : State) :
    let t := s.startEnded.persist 4 s.startEnded.bootRecord
    s.enterStage 9 = if t.fld fBoot_ALT_USED = 0 then t
      else t.event logWarn .bootAlt (BitVec.ofNat 64 (t.fld fBoot_FAIL_STAGE)) 0 [] := rfl

theorem State.enterStage_nine_pwr (s : State) : (s.enterStage 9).pwr = { s.pwr with mode := .run } := by
  have h : s.startEnded.pwr = { s.pwr with mode := .run } := State.withPwr_pwr ..
  rw [State.enterStage_nine]
  split
  · rw [State.persist_pwr, h]
  · rw [State.event_pwr, State.persist_pwr, h]

/-- A field apart from the persistent store's BUSY reads at BS9 as STAGE and FAIL_COUNT leave it. -/
theorem State.fld_enterStage_nine (s : State) {g : Fld} (hg : fPst_BUSY.apart g = true) :
    (s.enterStage 9).fld g = ((s.setFld fBoot_STAGE 9).setFld fBoot_FAIL_COUNT 0).fld g := by
  rw [State.enterStage_nine]
  split
  · rw [State.fld_persist _ _ _ hg, State.startEnded, State.fld_withPwr]
  · rw [State.fld_congr (State.event_regs ..), State.fld_persist _ _ _ hg, State.startEnded, State.fld_withPwr]

/-- BS2 and BS3 begin without a write to FWSET. -/
theorem State.fwset_enterStage (s : State) {n : Nat} (hn : n = 2 ∨ n = 3) :
    (s.enterStage n).fld fBoot_STAGE = n ∧ (s.enterStage n).fld fMode_FWSET = s.fld fMode_FWSET := by
  obtain rfl | rfl := hn
  · rw [State.enterStage_plain s (by decide) (by decide) (by decide)]
    simp (disch := decide) [State.fld_setFld_fits, State.fld_setFld_apart]
  · rw [State.enterStage_three]
    simp (disch := decide) [State.fld_setFld_fits, State.fld_setFld_apart]

/-! ### A stage fails (R391) -/

/-- FAIL_COUNT after a failure, held at 3. -/
theorem State.failCount_eq_three (s : State) : min 3 (s.fld fBoot_FAIL_COUNT + 1) = 3 ↔ 2 ≤ s.fld fBoot_FAIL_COUNT := by omega

/-- A failure writes FAIL_STAGE, CAUSE and FAIL_COUNT. -/
def State.failMarked (s : State) (c : Nat) : State :=
  ((s.setFld fBoot_FAIL_STAGE (s.fld fBoot_STAGE)).setFld fBoot_CAUSE c).setFld fBoot_FAIL_COUNT (min 3 (s.fld fBoot_FAIL_COUNT + 1))

/-- Beyond them it writes SERVICE_ONLY, at the third in a row, and the record is committed; the mode and the message follow. -/
theorem State.bootFail_eq (s : State) (c : Nat) : ∃ x v a, s.bootFail c =
    (((if min 3 (s.fld fBoot_FAIL_COUNT + 1) = 3 then (s.failMarked c).setFlag fBoot_SERVICE_ONLY true
      else s.failMarked c).withPwr x).persist 4 v).answer a := ⟨_, _, _, rfl⟩

/-- SERVICE_ONLY is set at the third failure in a row; a field apart from the persistent store's BUSY changes in no other way. -/
theorem State.fld_bootFail_if (s : State) (c : Nat) {g : Fld} (hb : fPst_BUSY.apart g = true) :
    (s.bootFail c).fld g = if 2 ≤ s.fld fBoot_FAIL_COUNT then ((s.failMarked c).setFlag fBoot_SERVICE_ONLY true).fld g
      else (s.failMarked c).fld g := by
  obtain ⟨x, v, a, hx⟩ := s.bootFail_eq c
  rw [hx, State.fld_congr (State.answer_regs ..), State.fld_persist _ _ _ hb, State.fld_withPwr]
  simp only [State.failCount_eq_three]
  exact apply_ite (fun t => State.fld t g) ..

theorem State.fld_bootFail (s : State) (c : Nat) {g : Fld} (hb : fPst_BUSY.apart g = true) (hs : fBoot_SERVICE_ONLY.apart g = true) :
    (s.bootFail c).fld g = (s.failMarked c).fld g := by
  rw [State.fld_bootFail_if s c hb, State.fld_setFlag_apart _ true (by decide) hs, ite_self]

theorem State.bootFail_mode (s : State) (c : Nat) :
    (s.bootFail c).pwr.mode = if 2 ≤ s.fld fBoot_FAIL_COUNT then .service else .failed := by
  simp [State.bootFail]

theorem State.bootFail_serviceOnly (s : State) (c : Nat) (h : 2 ≤ s.fld fBoot_FAIL_COUNT) : (s.bootFail c).flag fBoot_SERVICE_ONLY = true := by
  rw [State.flag, State.fld_bootFail_if s c (by decide), if_pos h]
  exact State.flag_setFlag_same _ true (by decide) (by decide)

/-- The record of a failed stage (R391, R394), the board management controller's message, and the mode. -/
theorem State.bootFail_records (s : State) {c : Nat} (hc : c < 16) :
    let n := s.fld fBoot_STAGE
    let k := min 3 (s.fld fBoot_FAIL_COUNT + 1)
    let x := s.bootFail c
    x.fld fBoot_FAIL_STAGE = n ∧ x.fld fBoot_CAUSE = c ∧ x.fld fBoot_FAIL_COUNT = k ∧
      x.pwr.mode = (if 2 ≤ s.fld fBoot_FAIL_COUNT then .service else .failed) ∧
      (2 ≤ s.fld fBoot_FAIL_COUNT → x.flag fBoot_SERVICE_ONLY = true) ∧
      x.answers.head? = some (.message 0x300 0 (natLE 1 n ++ natLE 1 c ++ natLE 1 k)) := by
  have hn : s.fld fBoot_STAGE < 2 ^ fBoot_FAIL_STAGE.w := s.fld_lt fBoot_STAGE
  have hc' : c < 2 ^ fBoot_CAUSE.w := hc.trans (by decide)
  have hk : min 3 (s.fld fBoot_FAIL_COUNT + 1) < 2 ^ fBoot_FAIL_COUNT.w := Nat.lt_succ_of_le (Nat.min_le_left _ _)
  refine ⟨?_, ?_, ?_, s.bootFail_mode c, s.bootFail_serviceOnly c, rfl⟩
  · rw [State.fld_bootFail s c (by decide) (by decide), State.failMarked, State.fld_setFld_apart _ _ (by decide) (by decide),
      State.fld_setFld_apart _ _ (by decide) (by decide), State.fld_setFld_fits _ (by decide) hn]
  · rw [State.fld_bootFail s c (by decide) (by decide), State.failMarked, State.fld_setFld_apart _ _ (by decide) (by decide),
      State.fld_setFld_fits _ (by decide) hc']
  · rw [State.fld_bootFail s c (by decide) (by decide), State.failMarked, State.fld_setFld_fits _ (by decide) hk]

/-! ### The firmware set (R404) -/

theorem tabFind_set_same {α : Type} [DecidableEq α] (d : Nat → α) (t : List (Nat × α)) {k : Nat} {v : α} (hv : v ≠ d k) :
    tabFind (tabSet d t k v) k = some v := by
  rw [tabSet, if_neg hv, tabFind_ins_same _ _ _ (tabFind_del_same t k)]

theorem tabFind_set_ne {α : Type} [DecidableEq α] (d : Nat → α) (t : List (Nat × α)) {k j : Nat} (v : α) (hj : j ≠ k) :
    tabFind (tabSet d t k v) j = tabFind t j := by
  unfold tabSet
  split
  · exact tabFind_del_ne t hj
  · rw [tabFind_ins_ne _ v hj, tabFind_del_ne t hj]

/-- A table filled key by key lists at each key its value, where no value is the unlisted one. -/
theorem tabFind_foldl_set {α : Type} [DecidableEq α] (d f : Nat → α) (k : Nat) (l : List Nat) (hf : ∀ c ∈ l, f c ≠ d c) :
    ∀ t, tabFind (l.foldl (fun t c => tabSet d t c (f c)) t) k = if k ∈ l then some (f k) else tabFind t k := by
  induction l with
  | nil => simp
  | cons c l ih =>
    intro t
    rw [List.foldl_cons, ih fun x hx => hf x (List.mem_cons_of_mem c hx)]
    by_cases hl : k ∈ l
    · simp [hl]
    · by_cases hk : k = c
      · subst hk
        simp [hl, tabFind_set_same d t (hf k List.mem_cons_self)]
      · simp [hl, hk, tabFind_set_ne d t _ hk]

/-- FWSET is a function of the digests measured. -/
theorem State.fwsetOf_congr {s s' : State} (h : s'.sec = s.sec) : s'.fwsetOf = s.fwsetOf := by unfold State.fwsetOf; rw [h]

/-- A state whose FWSET follows shows it. -/
theorem State.syncFwset_fwset (s : State) : s.syncFwset.fld fMode_FWSET = s.syncFwset.fwsetOf % 2 ^ 64 := by
  rw [State.fwsetOf_congr (s := s) (s' := s.syncFwset) (State.setFld_sec ..)]
  exact State.fld_setFld_same s s.fwsetOf (by decide)

theorem State.runSlot_fwsetOf (s : State) : s.runSlot.fld fMode_FWSET = s.runSlot.fwsetOf % 2 ^ 64 := by
  unfold State.runSlot
  exact State.syncFwset_fwset _

/-- What BS1 measures: the DIGEST fields of components 2 to 7 of the slot. -/
theorem State.runSlot_measured (s : State) : s.runSlot.sec.measured =
    imgComps.foldl (fun t c => tabSet digNone t c (s.image (s.fld fBoot_SLOT) c).digest) [] := rfl

/-- FWSET of the slot run is the digest of its images' DIGEST fields, none of which is empty. -/
theorem State.runSlot_fwset (s : State) (h : ∀ c ∈ imgComps, (s.image (s.fld fBoot_SLOT) c).digest ≠ []) :
    s.runSlot.fld fMode_FWSET =
      leNat ((sha3_256 (imgComps.flatMap fun c => (s.image (s.fld fBoot_SLOT) c).digest)).take 8) % 2 ^ 64 := by
  have hget : ∀ c ∈ imgComps, tabGet (fun _ => List.replicate 32 0) s.runSlot.sec.measured c = (s.image (s.fld fBoot_SLOT) c).digest := by
    intro c hc
    rw [tabGet, State.runSlot_measured, tabFind_foldl_set digNone _ c imgComps h, if_pos hc, Option.getD_some]
  rw [State.runSlot_fwsetOf, State.fwsetOf, List.flatMap_congr hget]

/-! ### The stages, one by one (Table 16.10) -/

/-- BS2 ends: the management controller answers. -/
def State.mctpUp (s : State) : State := s.withPwr { s.pwr with mctp := true }

section Stages
variable {s : State} (e : BootEnv)

theorem State.stageEnd_one (h : s.fld fBoot_STAGE = 1) :
    s.stageEnd e = if s.bs1Ok then s.runSlot.enterStage (if s.pwr.fromRet then 3 else 2) else s.bootFail 2 := by
  simp only [State.stageEnd, h]

theorem State.stageEnd_two (h : s.fld fBoot_STAGE = 2) :
    s.stageEnd e = if s.flag fBoot_SERVICE_ONLY ∨ s.fld fSec_LC = 3 then
        (s.mctpUp.withPwr { s.mctpUp.pwr with mode := .service }).setFlag fBoot_SERVICE_ONLY true
      else s.mctpUp.enterStage 3 := by
  simp only [State.stageEnd, h]
  rfl

theorem State.stageEnd_three (h : s.fld fBoot_STAGE = 3) : s.stageEnd e = s.enterStage 4 := by simp only [State.stageEnd, h]

theorem State.stageEnd_five (h : s.fld fBoot_STAGE = 5) : s.stageEnd e = s.enterStage 6 := by simp only [State.stageEnd, h]

theorem State.stageEnd_seven (h : s.fld fBoot_STAGE = 7) :
    s.stageEnd e = if (s.bs7 e).1 then (s.bs7 e).2.enterStage 8 else s.bootFail 7 := by
  simp only [State.stageEnd, h]

theorem State.stageEnd_eight (h : s.fld fBoot_STAGE = 8) :
    s.stageEnd e = if (s.bs8 e).1 then ((s.bs8 e).2.enterStage 9).goIdle else s.bootFail 8 := by
  simp only [State.stageEnd, h]

end Stages

theorem State.passes_three (s : State) (e : BootEnv) (h : s.fld fBoot_STAGE = 3) :
    (s.stageEnd e).fld fBoot_STAGE = 4 ∧ (s.stageEnd e).pwr = s.pwr := by
  rw [State.stageEnd_three e h]
  refine ⟨?_, s.enterStage_pwr (by decide)⟩
  rw [State.enterStage_four, State.fld_setFld_apart _ _ (by decide) (by decide), State.fld_setFld_fits _ (by decide) (by decide)]

theorem State.passes_five (s : State) (e : BootEnv) (h : s.fld fBoot_STAGE = 5) :
    (s.stageEnd e).fld fBoot_STAGE = 6 ∧ (s.stageEnd e).pwr = s.pwr := by
  rw [State.stageEnd_five e h]
  refine ⟨?_, s.enterStage_pwr (by decide)⟩
  rw [State.enterStage_plain s (by decide) (by decide) (by decide), State.fld_setFld_fits _ (by decide) (by decide)]

/-- BS2 passes, and BS3 takes CAP_DEF as its cap (R382). -/
theorem State.passes_two (s : State) (e : BootEnv) (h : s.fld fBoot_STAGE = 2) (hs : s.flag fBoot_SERVICE_ONLY = false)
    (hl : s.fld fSec_LC ≠ 3) :
    (s.stageEnd e).fld fBoot_STAGE = 3 ∧ (s.stageEnd e).pwr.mctp = true ∧ (s.stageEnd e).fld fPwr_CAP_W = s.fld fPwr_CAP_DEF := by
  have hcap : s.fld fPwr_CAP_DEF < 2 ^ fPwr_CAP_W.w := s.fld_lt fPwr_CAP_DEF
  have hdef : (s.mctpUp.setFld fBoot_STAGE 3).fld fPwr_CAP_DEF = s.fld fPwr_CAP_DEF :=
    (State.fld_setFld_apart s.mctpUp 3 (by decide) (by decide)).trans (s.fld_withPwr _ _)
  rw [State.stageEnd_two e h, if_neg (by simp [hs, hl]), State.enterStage_three, hdef]
  refine ⟨?_, rfl, State.fld_setFld_fits _ (by decide) hcap⟩
  simp (disch := decide) [State.fld_setFld_fits, State.fld_setFld_apart]

theorem State.passes_two_service (s : State) (e : BootEnv) (h : s.fld fBoot_STAGE = 2)
    (hs : s.flag fBoot_SERVICE_ONLY = true ∨ s.fld fSec_LC = 3) :
    (s.stageEnd e).pwr.mode = .service ∧ (s.stageEnd e).pwr.mctp = true := by
  rw [State.stageEnd_two e h, if_pos hs]
  exact ⟨rfl, rfl⟩

/-- BS7 passes with a rate and a width that the host link knows (R352). -/
theorem State.passes_seven (s : State) (e : BootEnv) (h : s.fld fBoot_STAGE = 7) (hr : e.rate = 1 ∨ e.rate = 2)
    (hw : e.width = 8 ∨ e.width = 16) :
    (s.stageEnd e).fld fBoot_STAGE = 8 ∧ (s.stageEnd e).fld fCxl_RATE = e.rate ∧ (s.stageEnd e).fld fCxl_WIDTH = e.width := by
  have hrate : e.rate < 2 ^ fCxl_RATE.w := by rw [show fCxl_RATE.w = 2 from rfl]; omega
  have hwidth : e.width < 2 ^ fCxl_WIDTH.w := by rw [show fCxl_WIDTH.w = 5 from rfl]; omega
  have hbs : s.bs7 e = (true, (((s.setFld fCxl_RATE e.rate).setFld fCxl_WIDTH e.width).setFlag fCxl_LO_FLIT e.loFlit).setFlag
      fCxl_CACHE_EN (!s.flag fCxl_IDE_POL)) := if_pos ⟨hr, hw⟩
  rw [State.stageEnd_seven e h, hbs, if_pos rfl, State.enterStage_plain _ (by decide) (by decide) (by decide)]
  refine ⟨State.fld_setFld_fits _ (by decide) (by decide), ?_, ?_⟩
  · simp (disch := decide) only [State.fld_setFld_apart, State.fld_setFlag_apart]
    exact State.fld_setFld_fits s (by decide) hrate
  · simp (disch := decide) only [State.fld_setFld_apart, State.fld_setFlag_apart]
    exact State.fld_setFld_fits _ (by decide) hwidth

theorem State.untrained_seven (s : State) (e : BootEnv) (h : s.fld fBoot_STAGE = 7) (hr : e.rate = 0) : s.stageEnd e = s.bootFail 7 := by
  have hbs : s.bs7 e = (false, s) := if_neg (by simp [hr])
  rw [State.stageEnd_seven e h, hbs]
  rfl

/-- BS8 passes with 128 good groves on each A die (R393), and the start ends in Idle (R391, R378). -/
theorem State.passes_eight (s : State) (e : BootEnv) (h : s.fld fBoot_STAGE = 8) (hw : s.pwr.warm = false)
    (h0 : 128 ≤ grovesPass e.failed0) (h1 : 128 ≤ grovesPass e.failed1) :
    (s.stageEnd e).pwr.mode = .run ∧ (s.stageEnd e).fld fBoot_STAGE = 9 ∧ (s.stageEnd e).fld fBoot_FAIL_COUNT = 0 ∧
      (s.stageEnd e).fld fPwr_STATE = 3 := by
  have hbs : (s.bs8 e).1 = true := by simp [State.bs8, hw, Nat.not_lt.2 h0, Nat.not_lt.2 h1]
  rw [State.stageEnd_eight e h, if_pos hbs]
  refine ⟨by rw [State.goIdle_pwr, State.enterStage_nine_pwr], ?_, ?_, State.goIdle_state _⟩
  · rw [State.fld_goIdle _ (by decide) (by decide), State.fld_enterStage_nine _ (by decide), State.fld_setFld_apart _ _ (by decide) (by decide),
      State.fld_setFld_fits _ (by decide) (by decide)]
  · rw [State.fld_goIdle _ (by decide) (by decide), State.fld_enterStage_nine _ (by decide), State.fld_setFld_fits _ (by decide) (by decide)]

theorem State.groveless_eight (s : State) (e : BootEnv) (h : s.fld fBoot_STAGE = 8) (hw : s.pwr.warm = false)
    (h0 : grovesPass e.failed0 < 128) : s.stageEnd e = s.bootFail 8 := by
  have hbs : s.bs8 e = (false, s) := by simp [State.bs8, hw, h0]
  rw [State.stageEnd_eight e h, hbs]
  rfl

/-- BS1 passes: the verified images become the firmware set; a start from Retention skips BS2. -/
theorem State.passes_one (s : State) (e : BootEnv) (h : s.fld fBoot_STAGE = 1) (hok : s.bs1Ok = true)
    (hd : ∀ c ∈ imgComps, (s.image (s.fld fBoot_SLOT) c).digest.length = 32) :
    (s.stageEnd e).fld fBoot_STAGE = (if s.pwr.fromRet then 3 else 2) ∧
      (s.stageEnd e).fld fMode_FWSET =
        leNat ((sha3_256 (imgComps.flatMap fun c => (s.image (s.fld fBoot_SLOT) c).digest)).take 8) % 2 ^ 64 := by
  have hnext : (if s.pwr.fromRet then 3 else 2) = 2 ∨ (if s.pwr.fromRet then 3 else 2) = 3 := by cases s.pwr.fromRet <;> simp
  have hne : ∀ c ∈ imgComps, (s.image (s.fld fBoot_SLOT) c).digest ≠ [] := fun c hc =>
    List.ne_nil_of_length_pos (by rw [hd c hc]; decide)
  obtain ⟨hstage, hfwset⟩ := State.fwset_enterStage s.runSlot hnext
  rw [State.stageEnd_one e h, if_pos hok]
  exact ⟨hstage, hfwset.trans (s.runSlot_fwset hne)⟩

theorem State.unverified_one (s : State) (e : BootEnv) (h : s.fld fBoot_STAGE = 1) (hok : s.bs1Ok = false) : s.stageEnd e = s.bootFail 2 := by
  rw [State.stageEnd_one e h, hok]
  rfl

/-! ### Restarts -/

/-- A cold reset leaves no thread. -/
theorem State.resetPackage_cold_ctxs (s : State) : (s.resetPackage .cold).thr.ctxs = [] := rfl

/-- A cold start begins at BS0 with no thread (R390). -/
theorem State.startAt_cold (s : State) :
    (s.startAt .cold).pwr.mode = .start ∧ (s.startAt .cold).fld fBoot_STAGE = 0 ∧ (s.startAt .cold).pwr.warm = false ∧
      (s.startAt .cold).thr.ctxs = [] := by
  refine ⟨rfl, ?_, rfl, s.takeClr.resetPackage_cold_ctxs⟩
  unfold State.startAt
  simp only [reduceCtorEq, if_false]
  rw [State.enterStage_plain _ (by decide) (by decide) (by decide)]
  exact State.fld_setFld_fits _ (by decide) (by decide)

/-! ### The commands of a start -/

theorem exec_bootStage (o : BootOutcome) (s : State) : exec (.bootStage o) s = execBootStage o s := rfl

theorem exec_bootStageTimeout (s : State) : exec .bootStageTimeout s = execBootStageTimeout s := rfl

theorem exec_bootRestart (s : State) : exec .bootRestart s = execBootRestart s := rfl

section Running
variable {s : State} (hm : s.pwr.mode = .start) (hw : s.pwr.wait7 = false)
include hm hw

theorem exec_bootStage_passed (e : BootEnv) : exec (.bootStage (.passed e)) s = .next (s.stageEnd e) := by
  simp [exec_bootStage, execBootStage, hm, hw]

theorem exec_bootStage_failed (c : Nat) : exec (.bootStage (.failed c)) s = .next (s.bootFail c) := by
  simp [exec_bootStage, execBootStage, hm, hw]

theorem exec_bootStageTimeout_start : exec .bootStageTimeout s = .next (s.bootFail 1) := by
  simp [exec_bootStageTimeout, execBootStageTimeout, hm, hw]

end Running

theorem exec_bootRestart_failed {s : State} (h : s.pwr.mode = .failed) : exec .bootRestart s = .next (s.cutOff.startAt .cold) := by
  simp [exec_bootRestart, execBootRestart, h]

theorem exec_bootRestart_of_not_failed {s : State} (h : s.pwr.mode ≠ .failed) : exec .bootRestart s = .next s := by
  simp [exec_bootRestart, execBootRestart, h]

/-- Settles O54: each stage's clause is that stage's lemma; a failure's record and a restart's cold start are stated once. -/
theorem startsRunThroughTheirStages : Obligations.StartsRunThroughTheirStages := by
  intro s hm hw
  have hpass := exec_bootStage_passed hm hw
  refine ⟨fun e => ⟨?_, ?_, ?_, ?_, ?_, ?_, ?_, ?_, ?_⟩, exec_bootStage_failed hm hw, exec_bootStageTimeout_start hm hw,
    fun c hc _ => s.bootFail_records hc, fun w hf => ⟨_, exec_bootRestart_failed hf, w.cutOff.startAt_cold⟩,
    exec_bootRestart_of_not_failed (by simp [hm])⟩
  · rintro (h | h)
    · exact ⟨_, hpass e, by rw [h]; exact s.passes_three e h⟩
    · exact ⟨_, hpass e, by rw [h]; exact s.passes_five e h⟩
  · exact fun h hs hl => ⟨_, hpass e, s.passes_two e h hs hl⟩
  · exact fun h hs => ⟨_, hpass e, s.passes_two_service e h hs⟩
  · exact fun h hr hwd => ⟨_, hpass e, s.passes_seven e h hr hwd⟩
  · exact fun h hr => (hpass e).trans (congrArg _ (s.untrained_seven e h hr))
  · exact fun h hc h0 h1 => ⟨_, hpass e, s.passes_eight e h hc h0 h1⟩
  · exact fun h hc h0 => (hpass e).trans (congrArg _ (s.groveless_eight e h hc h0))
  · exact fun h hok => (hpass e).trans (congrArg _ (s.unverified_one e h hok))
  · exact fun h hok hd => ⟨_, hpass e, s.passes_one e h hok hd⟩

end Sys2Proof.Machine
end

section
/-! Detections of reaction S (R422 to R424, R427 to R431): what a fault record holds and where it lies, what writing it leaves alone, what a
detection does in each mode of the package, and the entry into safe stop. -/

namespace Sys2Proof.Machine

/-! ### Bytes -/

@[simp] theorem natLE_length (n v : Nat) : (natLE n v).length = n := by
  induction n generalizing v with
  | zero => rfl
  | succ n ih => rw [natLE, List.length_cons, ih]

/-- A one-byte field of a list that holds a byte there. -/
theorem fieldLE_byte_at (pre post : List Byte) (v : Nat) : fieldLE (pre ++ (natLE 1 v ++ post)) pre.length 1 = v % 256 := by
  simp [fieldLE, sliceB, leNat, natLE]

/-- Bytes put in BAR2 are read back. -/
theorem State.barBytes_putBar (s : State) (k : Nat) (bs : List Byte) : (s.putBar k bs).barBytes k bs.length = bs := by
  refine List.ext_getElem (by simp [State.barBytes]) fun i _ h => ?_
  simpa [State.barBytes] using State.barByte_putBar_in bs s k i h

theorem State.barBytes_congr {s t : State} (h : t.bar2 = s.bar2) (k n : Nat) : t.barBytes k n = s.barBytes k n := by
  simp only [State.barBytes, State.barByte, h]

/-- Bytes put in BAR2 leave the register cells, DRAM and the threads alone. -/
theorem State.putBar_frame (bs : List Byte) : ∀ (s : State) (k : Nat),
    (s.putBar k bs).regs = s.regs ∧ (s.putBar k bs).dram = s.dram ∧ (s.putBar k bs).thr = s.thr := by
  induction bs with
  | nil => exact fun _ _ => ⟨rfl, rfl, rfl⟩
  | cons b bs ih => exact fun s k => ih (s.setBarByte k b) (k + 1)

/-! ### A fault record (Table 18.6) -/

/-- REACT of a record: the reaction, and the marks of an injection, of safe stop and of a start. -/
def Det.reactByte (d : Det) (s : State) : Nat :=
  d.react + (if d.injected then 4 else 0) + (if s.flag fSafe_SAFE then 8 else 0) + (if s.booted then 0 else 16)

/-- The first three words of a record. -/
def State.recordHead (s : State) (seq : Nat) (time : W64) : List Byte := natLE 8 seq ++ natLE 8 time.toNat ++ natLE 8 (s.fld fPkg_STEP)

/-- Three words, CLASS, REACT, and 38 bytes more. -/
theorem Det.record_eq (d : Det) (s : State) (seq : Nat) (time : W64) (detail : W32) : ∃ rest : List Byte, rest.length = 38 ∧
    d.record s seq time detail = s.recordHead seq time ++ (natLE 1 d.cls ++ (natLE 1 (d.reactByte s) ++ rest)) := by
  refine ⟨_, ?_, by simp only [Det.record, State.recordHead, Det.reactByte, List.append_assoc]; rfl⟩
  simp only [List.length_append, natLE_length]

theorem Det.record_length (d : Det) (s : State) (seq : Nat) (time : W64) (detail : W32) : (d.record s seq time detail).length = 64 := by
  obtain ⟨rest, hrest, hrec⟩ := d.record_eq s seq time detail
  simp only [hrec, State.recordHead, List.length_append, natLE_length, hrest]

/-- CLASS is byte 24 of a record. -/
theorem Det.record_class (d : Det) (s : State) (seq : Nat) (time : W64) (detail : W32) :
    fieldLE (d.record s seq time detail) 24 1 = d.cls % 256 := by
  obtain ⟨rest, -, hrec⟩ := d.record_eq s seq time detail
  rw [hrec]
  exact fieldLE_byte_at (s.recordHead seq time) _ d.cls

/-- REACT is byte 25 of a record. -/
theorem Det.record_react (d : Det) (s : State) (seq : Nat) (time : W64) (detail : W32) :
    fieldLE (d.record s seq time detail) 25 1 = d.reactByte s % 256 := by
  obtain ⟨rest, -, hrec⟩ := d.record_eq s seq time detail
  rw [hrec, ← List.append_assoc]
  exact fieldLE_byte_at (s.recordHead seq time ++ natLE 1 d.cls) rest (d.reactByte s)

/-- Bit 4 of REACT says that the detection came before BS9. -/
theorem Det.reactByte_bit4 (d : Det) (s : State) (h : d.react = 3) : d.reactByte s % 256 / 16 % 2 = 1 ↔ s.fld fBoot_STAGE ≠ 9 := by
  have hb : s.booted = true ↔ s.fld fBoot_STAGE = 9 := by simp [State.booted]
  unfold Det.reactByte
  rw [h, Ne, ← hb]
  split_ifs <;> simp [*]

/-! ### What the parts of a report leave alone -/

/-- DRAM, BAR2 and the threads are the same. -/
structure State.SameStores (t s : State) : Prop where
  dram : t.dram = s.dram
  bar2 : t.bar2 = s.bar2
  thr : t.thr = s.thr

theorem State.SameStores.trans {t u v : State} (h : t.SameStores u) (h' : u.SameStores v) : t.SameStores v :=
  ⟨h.dram.trans h'.dram, h.bar2.trans h'.bar2, h.thr.trans h'.thr⟩

theorem State.setFlag_sameStores (s : State) (f : Fld) (b : Bool) : (s.setFlag f b).SameStores s := ⟨rfl, rfl, rfl⟩

theorem State.dooms_sameStores (s : State) (c : Nat) : (s.dooms c).SameStores s := by
  unfold State.dooms
  split <;> exact ⟨rfl, rfl, rfl⟩

theorem State.persist_sameStores (s : State) (i v : Nat) : (s.persist i v).SameStores s := by
  unfold State.persist
  split
  · exact ⟨rfl, rfl, rfl⟩
  · split <;> exact ⟨rfl, rfl, rfl⟩

theorem State.event_sameStores (s : State) (log : Nat) (k : EvKind) (loc data : W64) (frec : List Byte) :
    (s.event log k loc data frec).SameStores s := by
  unfold State.event
  simp only
  split
  · exact ⟨rfl, rfl, rfl⟩
  · split <;> exact ⟨rfl, rfl, rfl⟩

theorem State.commitSafeLast_sameStores (s : State) (d : Det) (bs : List Byte) : (s.commitSafeLast d bs).SameStores s := by
  unfold State.commitSafeLast
  split
  · exact (State.persist_sameStores _ _ _).trans ⟨rfl, rfl, rfl⟩
  · exact ⟨rfl, rfl, rfl⟩

theorem State.dooms_regs (s : State) (c : Nat) : (s.dooms c).regs = s.regs := by
  unfold State.dooms
  split <;> rfl

theorem State.fld_commitSafeLast (s : State) (d : Det) (bs : List Byte) {g : Fld} (hg : fPst_BUSY.apart g = true) :
    (s.commitSafeLast d bs).fld g = s.fld g := by
  unfold State.commitSafeLast
  split
  · exact State.fld_persist _ _ _ hg
  · rfl

theorem fErr_DETECT_key_mod (p : Nat) : (fErr_DETECT p).key % 512 = 3 := by simp [Fld.key, fErr_DETECT]

/-- The DETECT bits lie in a register of their own: a field of another register is apart from them. -/
theorem fErr_DETECT_apart (p : Nat) {g : Fld} (hg : g.key % 512 ≠ 3) : (fErr_DETECT p).apart g = true := by
  have : (fErr_DETECT p).key ≠ g.key := fun h => hg (by rw [← h, fErr_DETECT_key_mod])
  simp [Fld.apart, this]

theorem apart_fErr_DETECT (p : Nat) {f : Fld} (hf : f.key % 512 ≠ 3) : f.apart (fErr_DETECT p) = true := by
  have : f.key ≠ (fErr_DETECT p).key := fun h => hf (by rw [h, fErr_DETECT_key_mod])
  simp [Fld.apart, this]

theorem fErr_DETECT_ok (p : Nat) : (fErr_DETECT p).ok = true := by simp [Fld.ok, Fld.sh, Fld.w, fErr_DETECT]

/-! ### A report of reaction S -/

section Report
variable (s : State) (d : Det)

/-- The number of the next fault record. -/
def State.nextSeq : Nat := s.fld fSafe_LOG_SEQ + 1

/-- The next fault record. -/
def State.newRecord : List Byte :=
  d.record s s.nextSeq (s.host.tsBase + Config.elapsed s.fresh) (Config.detail (s.fresh + 1))

/-- The record in its slot of the fault log. -/
def State.recordPut : State := s.draw.2.draw.2.putBar (faultSlot s.nextSeq) (s.newRecord d)

/-- The registers that a detection writes: the safety page's copies, its count, and DETECT of its page. -/
def State.marked (seq : Nat) : State :=
  ((((s.setFld fSafe_LOG_SEQ seq).setFld fSafe_LAST_CLASS d.cls).setFld fSafe_LAST_REACT d.react).inc fSafe_DETECTIONS).setFlag
    (fErr_DETECT d.page) true

theorem State.marked_sameStores (seq : Nat) : (s.marked d seq).SameStores s := by
  constructor <;> simp [State.marked]

/-- A record of reaction S: the record, the registers, the snapshot doomed, and OVERFLOW where an unread record is lost. -/
theorem State.logRecord_eq (h : d.react = 3) : ∃ lost : Bool, (s.logRecord d).2 =
    if lost then (((s.recordPut d).marked d s.nextSeq).dooms 0x13).setFlag fSafe_OVERFLOW true
    else ((s.recordPut d).marked d s.nextSeq).dooms 0x13 := by
  refine ⟨decide (512 < s.nextSeq) && !s.saf.read.contains (s.nextSeq - 512), ?_⟩
  have h2 : 2 ≤ d.react := by omega
  unfold State.logRecord
  simp only [h2, if_true]
  rfl

theorem State.report_eq (h : d.react = 3) : s.report d none =
    let t := (s.logRecord d).2.commitSafeLast d (s.logRecord d).1
    if s.flag fSafe_SAFE then t else (t.setFlag fSafe_FAULT true).event logFatal .safeStop d.loc0 d.loc1 (s.logRecord d).1 := by
  simp [State.report, h]

theorem State.logRecord_sameStores (h : d.react = 3) : (s.logRecord d).2.SameStores (s.recordPut d) := by
  obtain ⟨lost, hlog⟩ := s.logRecord_eq d h
  have hd : (((s.recordPut d).marked d s.nextSeq).dooms 0x13).SameStores (s.recordPut d) :=
    (State.dooms_sameStores ..).trans (State.marked_sameStores ..)
  rw [hlog]
  cases lost
  · rwa [if_neg Bool.false_ne_true]
  · rw [if_pos rfl]
    exact (State.setFlag_sameStores ..).trans hd

theorem State.report_sameStores (h : d.react = 3) : (s.report d none).SameStores (s.recordPut d) := by
  have hc := (State.commitSafeLast_sameStores _ d (s.logRecord d).1).trans (s.logRecord_sameStores d h)
  rw [State.report_eq s d h]
  dsimp only
  split
  · exact hc
  · exact (State.event_sameStores ..).trans ((State.setFlag_sameStores ..).trans hc)

theorem State.fld_logRecord (h : d.react = 3) {g : Fld} (ho : fSafe_OVERFLOW.apart g = true) :
    (s.logRecord d).2.fld g = ((s.recordPut d).marked d s.nextSeq).fld g := by
  obtain ⟨lost, hlog⟩ := s.logRecord_eq d h
  rw [hlog]
  cases lost
  · rw [if_neg Bool.false_ne_true, State.fld_congr (State.dooms_regs ..)]
  · rw [if_pos rfl, State.fld_setFlag_apart _ true (by decide) ho, State.fld_congr (State.dooms_regs ..)]

/-- Beyond the marks of its record a report of reaction S writes OVERFLOW, FAULT and the persistent store's BUSY. -/
theorem State.fld_report (h : d.react = 3) {g : Fld} (ho : fSafe_OVERFLOW.apart g = true) (hb : fPst_BUSY.apart g = true)
    (hf : fSafe_FAULT.apart g = true) : (s.report d none).fld g = ((s.recordPut d).marked d s.nextSeq).fld g := by
  rw [State.report_eq s d h, ← s.fld_logRecord d h ho]
  dsimp only
  split
  · exact State.fld_commitSafeLast _ _ _ hb
  · rw [State.fld_congr (State.event_regs ..), State.fld_setFlag_apart _ true (by decide) hf, State.fld_commitSafeLast _ _ _ hb]

/-- A field apart from the count and from DETECT reads as the safety page's copies leave it. -/
theorem State.fld_marked (seq : Nat) {g : Fld} (hn : fSafe_DETECTIONS.apart g = true) (hp : g.key % 512 ≠ 3) :
    (s.marked d seq).fld g =
      (((s.setFld fSafe_LOG_SEQ seq).setFld fSafe_LAST_CLASS d.cls).setFld fSafe_LAST_REACT d.react).fld g := by
  rw [State.marked, State.inc, State.fld_setFlag_apart _ true (fErr_DETECT_ok _) (fErr_DETECT_apart _ hp),
    State.fld_setFld_apart _ _ (by decide) hn]

theorem State.marked_safe (seq : Nat) : (s.marked d seq).fld fSafe_SAFE = s.fld fSafe_SAFE := by
  rw [State.fld_marked s d seq (by decide) (by decide)]
  simp (disch := decide) only [State.fld_setFld_apart]

theorem State.marked_logSeq {seq : Nat} (h : seq < 2 ^ 64) : (s.marked d seq).fld fSafe_LOG_SEQ = seq := by
  rw [State.fld_marked s d seq (by decide) (by decide)]
  simp (disch := decide) only [State.fld_setFld_apart]
  exact State.fld_setFld_fits _ (by decide) h

theorem State.marked_lastClass (seq : Nat) (h : d.cls < 256) : (s.marked d seq).fld fSafe_LAST_CLASS = d.cls := by
  rw [State.fld_marked s d seq (by decide) (by decide)]
  simp (disch := decide) only [State.fld_setFld_apart]
  exact State.fld_setFld_fits _ (by decide) h

theorem State.marked_lastReact (seq : Nat) (h : d.react = 3) : (s.marked d seq).fld fSafe_LAST_REACT = 3 := by
  rw [State.fld_marked s d seq (by decide) (by decide), h, State.fld_setFld_fits _ (by decide) (by decide)]

theorem State.marked_detect (seq : Nat) : (s.marked d seq).flag (fErr_DETECT d.page) = true :=
  State.flag_setFlag_same _ true (fErr_DETECT_ok _) rfl

/-- A report of reaction S raises FAULT_N outside safe stop (R422). -/
theorem State.report_fault (h : d.react = 3) (hs : s.flag fSafe_SAFE = false) : (s.report d none).flag fSafe_FAULT = true := by
  rw [State.report_eq s d h]
  simp only [hs, Bool.false_eq_true, if_false]
  rw [State.flag_congr (State.event_regs ..), State.flag_setFlag_same _ true (by decide) (by decide)]

/-- A report of reaction S neither enters safe stop nor leaves it. -/
theorem State.report_safe (h : d.react = 3) : (s.report d none).flag fSafe_SAFE = s.flag fSafe_SAFE := by
  have hregs : (s.recordPut d).regs = s.regs := (State.putBar_frame _ _ _).1
  unfold State.flag
  rw [s.fld_report d h (by decide) (by decide) (by decide), State.marked_safe, State.fld_congr hregs]

/-- The record stands in its slot of the fault log. -/
theorem State.report_slot (h : d.react = 3) : (s.report d none).barBytes (faultSlot s.nextSeq) 64 = s.newRecord d := by
  have hlen : (s.newRecord d).length = 64 := d.record_length ..
  rw [State.barBytes_congr (s.report_sameStores d h).bar2, ← hlen]
  exact State.barBytes_putBar ..

theorem State.report_frame (h : d.react = 3) : (s.report d none).dram = s.dram ∧ (s.report d none).thr = s.thr := by
  obtain ⟨-, hdram, hthr⟩ := State.putBar_frame (s.newRecord d) s.draw.2.draw.2 (faultSlot s.nextSeq)
  exact ⟨(s.report_sameStores d h).dram.trans hdram, (s.report_sameStores d h).thr.trans hthr⟩

/-- What a report of reaction S writes, and what it leaves alone (R422, R430, R431). -/
theorem State.report_records (h : d.react = 3) (hc : d.cls < 256) (hq : s.nextSeq < 2 ^ 64) :
    let x := s.report d none
    x.fld fSafe_LOG_SEQ = s.nextSeq ∧ x.fld fSafe_LAST_CLASS = d.cls ∧ x.fld fSafe_LAST_REACT = 3 ∧ x.flag (fErr_DETECT d.page) = true ∧
      (s.flag fSafe_SAFE = false → x.flag fSafe_FAULT = true) ∧ x.flag fSafe_SAFE = s.flag fSafe_SAFE ∧ x.dram = s.dram ∧ x.thr = s.thr ∧
      ∃ time detail, x.barBytes (faultSlot s.nextSeq) 64 = d.record s s.nextSeq time detail ∧
        fieldLE (d.record s s.nextSeq time detail) 24 1 = d.cls ∧
        (fieldLE (d.record s s.nextSeq time detail) 25 1 / 16 % 2 = 1 ↔ s.fld fBoot_STAGE ≠ 9) := by
  obtain ⟨hdram, hthr⟩ := s.report_frame d h
  refine ⟨?_, ?_, ?_, ?_, s.report_fault d h, s.report_safe d h, hdram, hthr, _, _, s.report_slot d h, ?_, ?_⟩
  · rw [s.fld_report d h (by decide) (by decide) (by decide), State.marked_logSeq _ d hq]
  · rw [s.fld_report d h (by decide) (by decide) (by decide), State.marked_lastClass _ d _ hc]
  · rw [s.fld_report d h (by decide) (by decide) (by decide), State.marked_lastReact _ d _ h]
  · rw [State.flag, s.fld_report d h (apart_fErr_DETECT _ (by decide)) (apart_fErr_DETECT _ (by decide))
      (apart_fErr_DETECT _ (by decide))]
    exact State.marked_detect ..
  · rw [Det.record_class, Nat.mod_eq_of_lt hc]
  · rw [Det.record_react]
    exact d.reactByte_bit4 s h

end Report

/-! ### A detection in each mode -/

section Modes
variable (s : State) {d : Det}

theorem State.detectS_off (hm : s.pwr.mode = .off) : s.detectS d = s := by simp only [State.detectS, hm]

theorem State.detectS_run (h : d.react = 3) (hm : s.pwr.mode = .run) : s.detectS d = (s.report d none).enterSafe := by
  simp only [State.detectS, hm, ← h]

theorem State.detectS_start (h : d.react = 3) (hm : s.pwr.mode = .start) : s.detectS d = (s.report d none).bootFail 1 := by
  simp only [State.detectS, hm, ← h]

end Modes

theorem exec_safeStopN (s : State) :
    exec (.safeStopN false) s = .next (s.detectS { cls := 0x12, react := 3, page := pwrPage, unit := 3 }) := by
  by_cases hm : s.pwr.mode = .off
  · rw [State.detectS_off s hm]
    exact congrArg _ (if_pos hm)
  · exact congrArg _ ((if_neg hm).trans (if_neg Bool.false_ne_true))

/-- Each event row of Table 18.1 is a detection of reaction S of its class. -/
theorem exec_eventRows (s : State) (mon : Nat) :
    ∀ e ∈ ([(.sysRefclkLoss, 0x0C), (.voltageMonitorTrip mon, 0x0B), (.clockMonitorTrip mon, 0x0C), (.lockstepMismatch, 0x0A),
      (.safeStopN false, 0x12)] : List (Instr × Nat)), ∃ d : Det, d.cls = e.2 ∧ d.react = 3 ∧ exec e.1 s = .next (s.detectS d) := by
  simp only [List.forall_mem_cons, List.not_mem_nil, false_imp_iff, implies_true, and_true]
  exact ⟨⟨_, rfl, rfl, rfl⟩, ⟨_, rfl, rfl, rfl⟩, ⟨_, rfl, rfl, rfl⟩, ⟨_, rfl, rfl, rfl⟩, ⟨_, rfl, rfl, exec_safeStopN s⟩⟩

/-! ### Self-tests (R427) -/

/-- A pass of a unit that is tested and awaits no injection: a mismatch is a detection of reaction S. -/
theorem State.testPass_eq {s : State} {u : TestUnit} (hm : s.pwr.mode = .run) (hg : s.flag (fGated (testUnit u).1) = false)
    (hi : s.testInj u = false) (ok : Bool) (n : Nat) : s.testPass u ok n =
      if ok then s
      else s.detectS { cls := (testUnit u).2.1, react := 3, page := (testUnit u).1, unit := s.testUnitNo u false n } := by
  simp [State.testPass, hm, hg, hi]

/-! ### Entry into safe stop (R424) -/

/-- SAFE is set and Viral entered: the first steps of the entry. -/
def State.safeMarked (s : State) : State := (s.setFlag fSafe_SAFE true).setViral

theorem State.enterSafe_of_safe {s : State} (h : s.flag fSafe_SAFE = true) : s.enterSafe = s := if_pos h

theorem State.enterSafe_of_clear {s : State} (h : s.flag fSafe_SAFE = false) : s.enterSafe =
    ((((s.safeMarked.fence.stopAll).hzAbortAll 5).discardWork.pumpCopies).snapEnd 0x12).cutHost.ringService :=
  if_neg (by rw [h]; exact Bool.false_ne_true)

theorem State.setViral_of_viral {s : State} (h : s.flag fCxl_VIRAL = true) : s.setViral = s := if_pos h

theorem State.setViral_of_clear {s : State} (h : s.flag fCxl_VIRAL = false) :
    s.setViral = ((s.setFlag fCxl_VIRAL true).addSat fCxl_VIRALS 1).dropHostLines := if_neg (by rw [h]; exact Bool.false_ne_true)

theorem State.fld_dropHostLines (s : State) {g : Fld} (hg : fCxl_HOST_LINES_LOST.apart g = true) : s.dropHostLines.fld g = s.fld g :=
  State.fld_setFld_apart _ _ (by decide) hg

theorem State.dropHostLines_frame (s : State) :
    s.dropHostLines.mem.hostLines = [] ∧ s.dropHostLines.dram = s.dram ∧ s.dropHostLines.thr = s.thr := ⟨rfl, rfl, rfl⟩

/-- Viral entered leaves a field apart from VIRALS and HOST_LINES_LOST as VIRAL's own write does. -/
theorem State.flag_setViral_of_clear {s : State} (h : s.flag fCxl_VIRAL = false) {g : Fld} (hv : fCxl_VIRALS.apart g = true)
    (hl : fCxl_HOST_LINES_LOST.apart g = true) : s.setViral.flag g = (s.setFlag fCxl_VIRAL true).flag g := by
  unfold State.flag
  rw [State.setViral_of_clear h]
  rw [State.fld_dropHostLines _ hl, State.addSat, State.fld_setFld_apart _ _ (by decide) hv]

theorem State.setViral_viral (s : State) : s.setViral.flag fCxl_VIRAL = true := by
  cases h : s.flag fCxl_VIRAL with
  | true => rw [State.setViral_of_viral h, h]
  | false => rw [State.flag_setViral_of_clear h (by decide) (by decide), State.flag_setFlag_same _ true (by decide) (by decide)]

theorem State.setViral_safe (s : State) : s.setViral.flag fSafe_SAFE = s.flag fSafe_SAFE := by
  cases h : s.flag fCxl_VIRAL with
  | true => rw [State.setViral_of_viral h]
  | false => rw [State.flag_setViral_of_clear h (by decide) (by decide), State.flag_setFlag_apart _ true (by decide) (by decide)]

/-- Viral entered drops every host line, and touches neither DRAM nor threads (R360). -/
theorem State.setViral_frame (s : State) :
    s.setViral.mem.hostLines = (if s.flag fCxl_VIRAL then s.mem.hostLines else []) ∧ s.setViral.dram = s.dram ∧ s.setViral.thr = s.thr := by
  cases h : s.flag fCxl_VIRAL with
  | true => rw [State.setViral_of_viral h]; exact ⟨rfl, rfl, rfl⟩
  | false =>
    rw [State.setViral_of_clear h]
    simpa using State.dropHostLines_frame ((s.setFlag fCxl_VIRAL true).addSat fCxl_VIRALS 1)

theorem State.safeMarked_records (s : State) :
    s.safeMarked.flag fSafe_SAFE = true ∧ s.safeMarked.flag fCxl_VIRAL = true ∧
      s.safeMarked.mem.hostLines = (if s.flag fCxl_VIRAL then s.mem.hostLines else []) ∧ s.safeMarked.dram = s.dram ∧
      s.safeMarked.thr = s.thr := by
  obtain ⟨hlines, hdram, hthr⟩ := (s.setFlag fSafe_SAFE true).setViral_frame
  rw [State.flag_setFlag_apart s true (by decide) (by decide)] at hlines
  refine ⟨?_, State.setViral_viral _, hlines, hdram, hthr⟩
  rw [State.safeMarked, State.setViral_safe, State.flag_setFlag_same _ true (by decide) (by decide)]

/-- Settles O51: every row is a detection of reaction S, whose report, mode and entry into safe stop are stated once each. -/
theorem detectionsEnterSafeStop : Obligations.DetectionsEnterSafeStop := by
  intro s mon
  refine ⟨fun e he hm => ?_, fun e he hm => ?_, fun e he hm => ?_, fun u n hm hg hi => ⟨?_, ?_, rfl⟩,
    fun d hr hc hq => s.report_records d hr hc hq, ?_, State.enterSafe_of_safe, fun h => ?_⟩
  · obtain ⟨d, hcls, hr, hexec⟩ := exec_eventRows s mon e he
    exact ⟨d, hcls, hr, by rw [hexec, s.detectS_run hr hm]⟩
  · obtain ⟨d, hcls, hr, hexec⟩ := exec_eventRows s mon e he
    exact ⟨d, hcls, hr, by rw [hexec, s.detectS_start hr hm]⟩
  · obtain ⟨d, -, -, hexec⟩ := exec_eventRows s mon e he
    rw [hexec, s.detectS_off hm]
  · exact ⟨_, by cases u <;> rfl, rfl, rfl, congrArg _ ((State.testPass_eq hm hg hi false n).trans (s.detectS_run rfl hm))⟩
  · exact congrArg _ (State.testPass_eq hm hg hi true n)
  · obtain ⟨hstage, hcause, -⟩ := s.bootFail_records (c := 1) (by decide)
    exact ⟨hcause, hstage⟩
  · obtain ⟨hsafe, hviral, hlines, hdram, hthr⟩ := s.safeMarked_records
    exact ⟨s.safeMarked, hsafe, hviral, hlines, hdram, hthr, State.enterSafe_of_clear h⟩

end Sys2Proof.Machine
end

section
/-! Mailbox commands that act (R269, R270, R290, R365 to R369, R454, R458 to R460): the answer of a command, what each command writes, and
what commits, event records, wear and groups leave alone. Layouts and return codes are those of assumption logs 22 and 92. -/

namespace Sys2Proof.Machine

/-! ### Commands and their answers -/

/-- A mailbox that is up answers a command with the code and the output that the command gives, and takes its effect. -/
theorem exec_of_mbox {s : State} {ag : Agent} (h : s.mboxUp ag = true) {c : Instr} {f : State → Nat × List Byte × State}
    (hc : exec c s = .next (s.mbox ag f)) {code : Nat} {out : List Byte} {t : State} (hf : f s = (code, out, t)) :
    exec c s = .next (t.reply ag code out) := by
  rw [hc, State.mbox, if_pos h, hf]

theorem exec_backgroundCommandDone (s : State) : exec .backgroundCommandDone s = execBackgroundCommandDone s := rfl

theorem exec_mgmtFwRunning (s : State) : exec .mgmtFwRunning s = execMgmtFwRunning s := rfl

theorem exec_mgmtFwActivationTimeout (s : State) : exec .mgmtFwActivationTimeout s = execMgmtFwActivationTimeout s := rfl

/-! ### What events and commits leave alone -/

/-- An event record leaves the host attachment, the security state and the snapshots alone. -/
theorem State.event_frame (s : State) (log : Nat) (k : EvKind) (loc data : W64) (frec : List Byte) :
    (s.event log k loc data frec).host = s.host ∧ (s.event log k loc data frec).sec = s.sec ∧
      (s.event log k loc data frec).snp = s.snp := by
  unfold State.event
  simp only
  split
  · exact ⟨rfl, rfl, rfl⟩
  · split <;> exact ⟨rfl, rfl, rfl⟩

/-- A commit to the persistent store leaves the security state alone. -/
@[simp] theorem State.persist_sec (s : State) (i v : Nat) : (s.persist i v).sec = s.sec := by
  unfold State.persist
  split
  · rfl
  · split <;> rfl

/-! ### Event records (R365, R369) -/

/-- The state with another event log. -/
def State.withLog (s : State) (n : Nat) (l : EvLog) : State := { s with logs := tabSet logDefault s.logs n l }

@[simp] theorem State.evLog_withLog (s : State) (n : Nat) (l : EvLog) : (s.withLog n l).evLog n = l := tabGet_set_same ..

/-- The state with a vector for each event log. -/
def State.withPolicies (s : State) (a b c d : Nat) : State :=
  { s with host := { s.host with evPolicy :=
      [(0, a), (1, b), (2, c), (3, d)].foldl (fun t e => tabSet polDefault t e.1 e.2) s.host.evPolicy } }

theorem State.evVector_withPolicies (s : State) (a b c d : Nat) :
    (s.withPolicies a b c d).evVector 0 = a ∧ (s.withPolicies a b c d).evVector 1 = b ∧ (s.withPolicies a b c d).evVector 2 = c ∧
      (s.withPolicies a b c d).evVector 3 = d := by
  simp (disch := decide) [State.evVector, State.withPolicies, tabGet_set_ne]

section Records
variable {s : State} {ag : Agent} (h : s.mboxUp ag = true)
include h

theorem exec_clearEventRecords_all (log : Fin 4) : exec (.clearEventRecords ag log none) s =
    .next ((s.withLog log { s.evLog log with recs := [], overflow := 0 }).reply ag 0 []) := exec_of_mbox h rfl rfl

theorem exec_clearEventRecords_named (log : Fin 4) {hs : List Nat} (hall : ∀ h ∈ hs, ∃ r ∈ (s.evLog log).recs, r.handle = h) :
    exec (.clearEventRecords ag log (some hs)) s =
      .next ((s.withLog log { s.evLog log with recs := (s.evLog log).recs.filter fun r => !hs.contains r.handle }).reply ag 0 []) :=
  exec_of_mbox h rfl (if_pos (by simpa using hall))

theorem exec_clearEventRecords_unknown (log : Fin 4) {hs : List Nat} (hex : ∃ h ∈ hs, ∀ r ∈ (s.evLog log).recs, r.handle ≠ h) :
    exec (.clearEventRecords ag log (some hs)) s = .next (s.reply ag 2 []) :=
  exec_of_mbox h rfl (if_neg (by simpa using hex))

theorem exec_setEventInterruptPolicy {a b c d : Nat} (hv : a ≤ 4 ∧ b ≤ 4 ∧ c ≤ 4 ∧ d ≤ 4) :
    exec (.setEventInterruptPolicy ag a b c d) s = .next ((s.withPolicies a b c d).reply ag 0 []) :=
  exec_of_mbox h rfl (if_neg (by simpa using hv))

theorem exec_setEventInterruptPolicy_beyond {a : Nat} (b c d : Nat) (ha : 4 < a) :
    exec (.setEventInterruptPolicy ag a b c d) s = .next (s.reply ag 2 []) :=
  exec_of_mbox h rfl (if_pos (by simp [ha]))

end Records

/-! ### Background commands (R365, R458) -/

/-- A background command has ended. -/
def State.bgEnded (s : State) : State := { s with host := { s.host with bg := none } }

@[simp] theorem State.syncSlots_host (s : State) : s.syncSlots.host = s.host := by
  rw [State.syncSlots, State.setFld_host, State.setFld_host]

@[simp] theorem State.syncSlots_sec (s : State) : s.syncSlots.sec = s.sec := by rw [State.syncSlots, State.setFld_sec, State.setFld_sec]

/-- The image is in its place; the host attachment stays. -/
theorem State.putImage_image (s : State) (slot : Nat) {x : Image} (hx : x.comp ∈ imgComps) :
    (s.putImage slot x).host = s.host ∧ (s.putImage slot x).image slot x.comp = x := by
  rw [State.putImage, if_pos (by simpa using hx)]
  refine ⟨State.syncSlots_host _, ?_⟩
  rw [State.image, State.syncSlots_sec]
  exact tabGet_set_same ..

theorem transferFw_done {s : State} {ag : Agent} {slot : Nat} {x : Image} (hb : s.host.bg = some (.transferFw ag slot x))
    (hx : x.comp ∈ imgComps) : Completes .backgroundCommandDone s fun u => u.host.bg = none ∧ u.image slot x.comp = x := by
  obtain ⟨hhost, himage⟩ := s.bgEnded.putImage_image slot hx
  have hbg : (s.bgEnded.putImage slot x).host.bg = none := by rw [hhost]; rfl
  refine ⟨if ag = .bmc then (s.bgEnded.putImage slot x).clrFailWrite else s.bgEnded.putImage slot x, ?_, ?_⟩
  · rw [exec_backgroundCommandDone, execBackgroundCommandDone, hb]
    rfl
  · split <;> exact ⟨hbg, himage⟩

/-- Wear writes WEAR_MAX and event records alone. -/
theorem State.wear_frame (s : State) : s.wear.host = s.host ∧ s.wear.snp = s.snp ∧
    ∀ g, fNand_WEAR_MAX.apart g = true → s.wear.fld g = s.fld g := by
  have hw : ∀ n g, fNand_WEAR_MAX.apart g = true → (s.draw.2.setFld fNand_WEAR_MAX n).fld g = s.fld g := fun n g hg =>
    State.fld_setFld_apart s.draw.2 n (by decide) hg
  unfold State.wear
  simp only
  split
  · split
    · obtain ⟨hhost, -, hsnp⟩ := State.event_frame (s.draw.2.setFld fNand_WEAR_MAX (s.fld fNand_WEAR_MAX + 1)) logWarn .nandWear
        (BitVec.ofNat 64 (s.fld fNand_WEAR_MAX + 1)) 0 []
      exact ⟨hhost, hsnp, fun g hg => (State.fld_congr (State.event_regs ..) g).trans (hw _ g hg)⟩
    · exact ⟨rfl, rfl, hw _⟩
  · exact ⟨rfl, rfl, fun _ _ => rfl⟩

/-- The store without generations, FORMATTED. -/
def State.storeCleared (s : State) : State :=
  (((s.modSnp fun x => { x with gens := [], unagreed := none, partGen := false }).setFlag fNand_FORMATTED true).setFld
    fSnap_GEN_COMMITTED 0).setFld fSnap_GEN_AGREED 0

theorem State.storeCleared_frame (s : State) : s.storeCleared.host = s.host ∧ s.storeCleared.snp.gens = [] := by
  rw [State.storeCleared, State.setFld_host, State.setFld_host, State.setFlag_host, State.setFld_snp, State.setFld_snp, State.setFlag_snp]
  exact ⟨rfl, rfl⟩

theorem State.storeCleared_formatted (s : State) : s.storeCleared.flag fNand_FORMATTED = true := by
  rw [State.storeCleared, State.flag, State.fld_setFld_apart _ _ (by decide) (by decide), State.fld_setFld_apart _ _ (by decide) (by decide)]
  exact State.flag_setFlag_same _ true (by decide) (by decide)

/-- The store is FORMATTED and holds no generation (R365). -/
theorem State.formatStore_formatted (s : State) :
    s.formatStore.host = s.host ∧ s.formatStore.snp.gens = [] ∧ s.formatStore.flag fNand_FORMATTED = true := by
  have hfmt : s.formatStore = s.storeCleared.syncStore.wear := rfl
  obtain ⟨hhost, hsnp, hfld⟩ := s.storeCleared.syncStore.wear_frame
  obtain ⟨hhost', hgens⟩ := s.storeCleared_frame
  rw [hfmt, hhost, hsnp, State.flag, hfld _ (by decide), State.syncStore, State.setFld_host, State.setFld_snp,
    State.fld_setFld_apart _ _ (by decide) (by decide)]
  exact ⟨hhost', hgens, s.storeCleared_formatted⟩

theorem formatStore_done {s : State} (hb : s.host.bg = some .formatStore) : Completes .backgroundCommandDone s fun u =>
    u.host.bg = none ∧ u.snp.gens = [] ∧ u.flag fNand_FORMATTED = true := by
  obtain ⟨hhost, hgens, hflag⟩ := s.bgEnded.formatStore_formatted
  refine ⟨s.bgEnded.formatStore, ?_, by rw [hhost]; rfl, hgens, hflag⟩
  rw [exec_backgroundCommandDone, execBackgroundCommandDone, hb]
  rfl

section Background
variable {s : State} {ag : Agent} (h : s.mboxUp ag = true)
include h

theorem exec_transferFw_starts (slot : Fin 2) (x : Image) (hb : s.host.bg = none) :
    exec (.transferFw ag slot x) s = .next ((s.background (.transferFw ag slot x)).reply ag 1 []) :=
  exec_of_mbox h rfl (if_neg (by simp [hb]))

theorem exec_transferFw_busy (slot : Fin 2) (x : Image) (hb : s.host.bg ≠ none) :
    exec (.transferFw ag slot x) s = .next (s.reply ag 6 []) :=
  exec_of_mbox h rfl (if_pos (Option.isSome_iff_ne_none.2 hb))

theorem exec_formatSnapshotStore_starts (hj : s.flag fPkg_JOB_PRESENT = false) (hb : s.host.bg = none) :
    exec (.formatSnapshotStore ag) s = .next ((s.background .formatStore).reply ag 1 []) :=
  exec_of_mbox h rfl (if_neg (by simp [hj, hb]))

theorem exec_formatSnapshotStore_busy (hj : s.flag fPkg_JOB_PRESENT = true) :
    exec (.formatSnapshotStore ag) s = .next (s.reply ag 6 []) :=
  exec_of_mbox h rfl (if_pos (.inl hj))

end Background

/-! ### Activation (R459, R460) -/

/-- Online activation is allowed where the slot's other images are the running ones and its management image passes the checks. -/
theorem State.onlineOk_iff (s : State) (slot : Nat) : s.onlineOk slot = true ↔
    (∀ c ∈ [2, 4, 5, 6, 7], (s.image slot c).digest = (s.image (s.fld fBoot_SLOT) c).digest) ∧
      s.imageOk (s.image slot 3) 3 = true := by
  simp only [State.onlineOk, Bool.and_eq_true, List.all_eq_true, beq_iff_eq]

/-- The management controller is stopped for an activation. -/
def State.activating (s : State) (slot : Nat) : State := (s.background (.activate slot)).withPwr { s.pwr with mctp := false }

section Activation
variable {s : State} {ag : Agent} (h : s.mboxUp ag = true) (slot : Fin 2) (hb : s.host.bg = none)
include h hb

theorem exec_activateFw_next_reset : exec (.activateFw ag slot false) s = .next ((s.commitSlot slot).reply ag 0 []) :=
  exec_of_mbox h rfl ((if_neg (by simp [hb])).trans (if_pos rfl))

theorem exec_activateFw_online (hm : s.pwr.mode ≠ .service) (ho : s.onlineOk slot = true) :
    exec (.activateFw ag slot true) s = .next ((s.activating slot).reply ag 0 []) :=
  exec_of_mbox h rfl ((if_neg (by simp [hb])).trans ((if_neg (by simp)).trans (if_neg (by simp [hm, ho]))))

theorem exec_activateFw_unfit (ho : s.onlineOk slot ≠ true) : exec (.activateFw ag slot true) s = .next (s.reply ag 2 []) :=
  exec_of_mbox h rfl ((if_neg (by simp [hb])).trans ((if_neg (by simp)).trans (if_pos (.inr (by simpa using ho)))))

end Activation

/-- The management firmware of a slot runs: SLOT, the commit, its measurement, and MCTP without the sessions of before (R460). -/
def State.mgmtInstalled (s : State) (slot : Nat) : State :=
  let s1 := (s.setFld fBoot_SLOT slot).commitSlot slot
  { s1 with host := { s1.host with bg := none }, pwr := { s1.pwr with mctp := true },
            sec := { s1.sec with mctpSess := 0, measured := tabSet digNone s1.sec.measured 3 (s1.image slot 3).digest } }

/-- SLOT reads the new slot when its firmware runs. -/
theorem State.mgmtInstalled_slot (s : State) (slot : Fin 2) :
    (s.mgmtInstalled slot).syncSessions.syncFwset.fld fBoot_SLOT = slot := by
  have hcommit : ((s.setFld fBoot_SLOT slot).commitSlot slot).fld fBoot_SLOT = (s.setFld fBoot_SLOT slot).fld fBoot_SLOT :=
    State.fld_persist _ _ _ (by decide)
  unfold State.syncFwset State.syncSessions
  rw [State.fld_setFld_apart _ _ (by decide) (by decide), State.fld_setFld_apart _ _ (by decide) (by decide)]
  exact hcommit.trans (State.fld_setFld_fits s (by decide) slot.isLt)

/-- Component 3 measures as the image of the slot. -/
theorem State.mgmtInstalled_measured (s : State) (slot : Nat) :
    tabGet digNone (s.mgmtInstalled slot).sec.measured 3 = (s.image slot 3).digest := by
  have hsec : ((s.setFld fBoot_SLOT slot).commitSlot slot).sec = s.sec := by
    rw [State.commitSlot, State.persist_sec, State.setFld_sec]
  have hmeasured : (s.mgmtInstalled slot).sec.measured = tabSet digNone ((s.setFld fBoot_SLOT slot).commitSlot slot).sec.measured 3
    (((s.setFld fBoot_SLOT slot).commitSlot slot).image slot 3).digest := by rw [State.mgmtInstalled]
  rw [hmeasured, tabGet_set_same, State.image, hsec, State.image]

theorem mgmtFwRunning_installs {s : State} {slot : Fin 2} (hb : s.host.bg = some (.activate slot)) :
    Completes .mgmtFwRunning s fun u => u.fld fBoot_SLOT = slot.val ∧ u.host.bg = none ∧ u.pwr.mctp = true ∧ u.sec.mctpSess = 0 ∧
      tabGet digNone u.sec.measured 3 = (s.image slot 3).digest := by
  obtain ⟨hhost, hsec, -⟩ := State.event_frame (s.mgmtInstalled slot).syncSessions.syncFwset logInfo .firmware (BitVec.ofNat 64 slot) 0 []
  refine ⟨(s.mgmtInstalled slot).syncSessions.syncFwset.event logInfo .firmware (BitVec.ofNat 64 slot) 0 [], ?_, ?_, ?_, ?_, ?_, ?_⟩
  · rw [exec_mgmtFwRunning, execMgmtFwRunning, hb]
    rfl
  · rw [State.fld_congr (State.event_regs ..), s.mgmtInstalled_slot slot]
  · rw [hhost]; rfl
  · rw [State.event_pwr]; rfl
  · rw [hsec]; rfl
  · rw [hsec]; exact s.mgmtInstalled_measured slot

theorem mgmtFwActivationTimeout_restores {s : State} {slot : Nat} (hb : s.host.bg = some (.activate slot)) :
    Completes .mgmtFwActivationTimeout s fun u => u.fld fBoot_SLOT = s.fld fBoot_SLOT ∧ u.host.bg = none ∧ u.pwr.mctp = true := by
  obtain ⟨hhost, -⟩ := State.event_frame (s.bgEnded.withPwr { s.pwr with mctp := true }) logFail .firmware (BitVec.ofNat 64 slot) 0 []
  refine ⟨(s.bgEnded.withPwr { s.pwr with mctp := true }).event logFail .firmware (BitVec.ofNat 64 slot) 0 [], ?_, ?_, ?_, ?_⟩
  · rw [exec_mgmtFwActivationTimeout, execMgmtFwActivationTimeout, hb]
    rfl
  · exact State.fld_congr (State.event_regs ..) _
  · rw [hhost]; rfl
  · rw [State.event_pwr]; rfl

/-! ### Fields of table entries -/

theorem leNat_natLE (n v : Nat) : leNat (natLE n v) = v % 256 ^ n := by
  induction n generalizing v with
  | zero => simp [natLE, leNat, Nat.mod_one]
  | succ n ih =>
    have hb : (BitVec.ofNat 8 (v % 256)).toNat = v % 256 := by simp
    rw [natLE, leNat, ih, hb, pow_succ', Nat.mod_mul]

@[simp] theorem sliceB_length (l : List Byte) (o w : Nat) : (sliceB l o w).length = w := by simp [sliceB]

theorem sliceB_append_right (pre l : List Byte) (w : Nat) : sliceB (pre ++ l) pre.length w = sliceB l 0 w := by
  refine List.map_congr_left fun i _ => ?_
  rw [List.getD_append_right _ _ _ _ (Nat.le_add_right ..), Nat.add_sub_cancel_left, Nat.zero_add]

theorem sliceB_append_left (l post : List Byte) {o w : Nat} (h : o + w ≤ l.length) : sliceB (l ++ post) o w = sliceB l o w :=
  List.map_congr_left fun i hi => List.getD_append _ _ _ _ (by have := List.mem_range.1 hi; omega)

theorem sliceB_whole (l : List Byte) : sliceB l 0 l.length = l := by
  refine List.ext_getElem (by simp [sliceB]) fun i _ h => ?_
  simp [sliceB, h]

theorem sliceB_sliceB (l : List Byte) {n o w : Nat} (h : o + w ≤ n) : sliceB (sliceB l 0 n) o w = sliceB l o w := by
  refine List.map_congr_left fun i hi => ?_
  have hin : o + i < n := by have := List.mem_range.1 hi; omega
  simp [sliceB, hin]

/-- A field of a list that holds a number there. -/
theorem fieldLE_natLE_at (pre post : List Byte) (n v : Nat) : fieldLE (pre ++ (natLE n v ++ post)) pre.length n = v % 256 ^ n := by
  have hlen : (natLE n v).length = n := natLE_length n v
  have hw : sliceB (natLE n v) 0 n = natLE n v := by
    have hwhole := sliceB_whole (natLE n v)
    rwa [hlen] at hwhole
  rw [fieldLE, sliceB_append_right, sliceB_append_left _ _ (by omega), hw, leNat_natLE]

/-- Bytes put in BAR2 are read field by field. -/
theorem State.barNat_putBar_in (s : State) (k : Nat) (bs : List Byte) {o w : Nat} (h : o + w ≤ bs.length) :
    (s.putBar k bs).barNat (k + o) w = fieldLE bs o w := by
  refine congrArg leNat (List.map_congr_left fun i hi => ?_)
  have hin : o + i < bs.length := by have := List.mem_range.1 hi; omega
  rw [Nat.add_assoc, State.barByte_putBar_in bs s k _ hin, List.getD_eq_getElem _ _ hin]

theorem State.barNat_congr {s t : State} (h : t.bar2 = s.bar2) (k n : Nat) : t.barNat k n = s.barNat k n :=
  congrArg leNat (State.barBytes_congr h k n)

/-- Bytes put in BAR2 change BAR2 alone. -/
theorem State.putBar_eq (bs : List Byte) : ∀ (s : State) (k : Nat), ∃ b, s.putBar k bs = { s with bar2 := b } := by
  induction bs with
  | nil => exact fun s _ => ⟨s.bar2, rfl⟩
  | cons b bs ih => exact fun s k => ih (s.setBarByte k b) (k + 1)

/-! ### Windows (R269, R270) -/

/-- A window is what the 27 bytes of its entry say. -/
theorem State.window_eq {s t : State} {j : Nat} (h : ∀ o < 27, t.barByte (winOff j + o) = s.barByte (winOff j + o)) :
    t.window j = s.window j := by
  have hn : ∀ o w, o + w ≤ 27 → t.barNat (winOff j + o) w = s.barNat (winOff j + o) w := fun o w how =>
    congrArg leNat (List.map_congr_left fun i hi => by
      have := List.mem_range.1 hi
      rw [Nat.add_assoc]
      exact h (o + i) (by omega))
  have hbase : t.barNat (winOff j) 8 = s.barNat (winOff j) 8 := hn 0 8 (by decide)
  simp (disch := decide) only [State.window, hbase, hn]

/-- The entry of a window registered at an index. -/
def winEntry (r : List Byte) (i : Nat) : List Byte :=
  sliceB r 0 0x13 ++ natLE 1 0 ++ natLE 2 i ++ sliceB r 0x16 4 ++ natLE 1 1 ++ List.replicate 5 0

theorem winEntry_length (r : List Byte) (i : Nat) : (winEntry r i).length = 32 := by
  simp only [winEntry, List.length_append, sliceB_length, natLE_length, List.length_replicate]

/-- The first 19 bytes of a request are those of its entry. -/
theorem fieldLE_winEntry (r : List Byte) (i : Nat) {o w : Nat} (h : o + w ≤ 0x13) : fieldLE (winEntry r i) o w = fieldLE r o w := by
  rw [fieldLE, fieldLE, winEntry]
  simp only [List.append_assoc]
  rw [sliceB_append_left _ _ (by rwa [sliceB_length]), sliceB_sliceB r h]

/-- An entry is VALID. -/
theorem winEntry_valid (r : List Byte) (i : Nat) : fieldLE (winEntry r i) 0x1A 1 = 1 := by
  have hlen : (sliceB r 0 0x13 ++ natLE 1 0 ++ natLE 2 i ++ sliceB r 0x16 4).length = 0x1A := by
    simp only [List.length_append, sliceB_length, natLE_length]
  have hat := fieldLE_byte_at (sliceB r 0 0x13 ++ natLE 1 0 ++ natLE 2 i ++ sliceB r 0x16 4) (List.replicate 5 0) 1
  rwa [hlen, ← List.append_assoc] at hat

/-- A field of a window registered. -/
theorem State.barNat_addWindow (s : State) (r : List Byte) (i : Nat) {o w : Nat} (h : o + w ≤ 32) :
    (s.addWindow r i).barNat (winOff i + o) w = fieldLE (winEntry r i) o w :=
  (State.barNat_congr (State.setFld_bar2 ..) _ _).trans
    (State.barNat_putBar_in s _ (winEntry r i) (by rwa [winEntry_length]))

theorem State.addWindow_window (s : State) (r : List Byte) (i : Nat) :
    let w := (s.addWindow r i).window i
    w.valid = true ∧ w.base = fieldLE r 0 8 ∧ w.len = fieldLE r 8 8 ∧ w.lend = bitAt (fieldLE r 18 1) 3 := by
  refine ⟨?_, ?_, ?_, ?_⟩
  · exact congrArg (bitAt · 0) ((s.barNat_addWindow r i (by decide)).trans (winEntry_valid r i))
  · exact (s.barNat_addWindow r i (o := 0) (by decide)).trans (fieldLE_winEntry r i (by decide))
  · exact (s.barNat_addWindow r i (by decide)).trans (fieldLE_winEntry r i (by decide))
  · exact congrArg (bitAt · 3) ((s.barNat_addWindow r i (by decide)).trans (fieldLE_winEntry r i (by decide)))

/-- A window deregistered is not VALID. -/
theorem State.dropWindow_valid (s : State) (i : Nat) : ((s.dropWindow i).window i).valid = false := by
  have hbyte : (s.dropWindow i).barNat (winOff i + 0x1A) 1 = 0 :=
    (State.barNat_congr (State.setFld_bar2 ..) _ _).trans (State.barNat_putBar_in s (winOff i + 0x1A) (natLE 1 0) (o := 0) (by decide))
  exact congrArg (bitAt · 0) hbyte

/-- The other windows stay. -/
theorem State.dropWindow_others (s : State) {i j : Nat} (hj : j ≠ i) : (s.dropWindow i).window j = s.window j := by
  refine State.window_eq fun o ho => ?_
  refine State.barByte_putBar_out (natLE 1 0) s _ _ ?_
  simp only [natLE_length, winOff]
  omega

section Windows
variable {s : State} {ag : Agent} (h : s.mboxUp ag = true)
include h

theorem exec_registerWindow_accepted {r : List Byte} {i : Nat} (hw : s.winCheck r true = (0, i)) :
    exec (.registerWindow ag r) s = .next ((s.addWindow r i).reply ag 0 (natLE 8 i)) :=
  exec_of_mbox h rfl (by simp only [hw]; rfl)

theorem exec_registerWindow_refused {r : List Byte} {c i : Nat} (hw : s.winCheck r true = (c, i)) (hc : c ≠ 0) :
    exec (.registerWindow ag r) s = .next (s.reply ag 2 (natLE 8 (2 ^ 15 + c * 2 ^ 16))) :=
  exec_of_mbox h rfl (by simp only [hw, winResult, hc, if_false, rcInvalid]; rfl)

theorem exec_deregisterWindow {i : Nat} (hi : i < 16384) (hv : (s.window i).valid = true) :
    exec (.deregisterWindow ag i) s = .next ((s.dropWindow i).reply ag 0 []) :=
  exec_of_mbox h rfl (if_pos ⟨hi, hv⟩)

theorem exec_deregisterWindow_unused {i : Nat} (hv : (s.window i).valid = false) :
    exec (.deregisterWindow ag i) s = .next (s.reply ag 2 []) :=
  exec_of_mbox h rfl (if_neg (by simp [hv]))

end Windows

/-! ### Job Start (R290, R366) -/

/-- With no packet held and no operation due, reductions that settle only count themselves again. -/
theorem State.hzSettle_idle {s : State} (hd : s.hz.due = []) (hh : s.hz.held = []) :
    s.hzSettle = s.modHz fun x => { x with held := [] } := by
  unfold State.hzSettle
  simp only [hd, hh, State.hzBegin, List.length_nil, State.hzRetry, List.foldl_nil]

theorem State.fld_modHz (s : State) (f : HzSt → HzSt) {g : Fld} (hs : fHz_HZ_STATES.apart g = true) (ha : fHz_HZ_ACTIVE.apart g = true) :
    (s.modHz f).fld g = s.fld g := by
  unfold State.modHz
  simp only
  rw [State.fld_setFld_apart _ _ (by decide) ha, State.fld_setFld_apart _ _ (by decide) hs]
  rfl

@[simp] theorem State.modHz_hz (s : State) (f : HzSt → HzSt) : (s.modHz f).hz = f s.hz := by
  rw [State.modHz, State.setFld_hz, State.setFld_hz]

@[simp] theorem State.modHz_dram (s : State) (f : HzSt → HzSt) : (s.modHz f).dram = s.dram := by
  rw [State.modHz, State.setFld_dram, State.setFld_dram]

@[simp] theorem State.modHz_bar2 (s : State) (f : HzSt → HzSt) : (s.modHz f).bar2 = s.bar2 := by
  rw [State.modHz, State.setFld_bar2, State.setFld_bar2]

/-- The entry of group 0 of a job that starts. -/
def groupEntry (job : Nat) (ids : List Nat) : List Byte :=
  natLE 2 0 ++ natLE 2 1 ++ natLE 2 0 ++ natLE 2 job ++ natLE 8 0 ++ natLE 8 0 ++ natLE 1 0 ++ natLE 7 0 ++
    natLE 8 (gkeyOf ids).toNat ++ natLE 24 1

theorem groupEntry_length (job : Nat) (ids : List Nat) : (groupEntry job ids).length = 64 := by
  simp only [groupEntry, List.length_append, natLE_length]

/-- Group 0 in its table, of this package alone. -/
def State.groupZeroPut (s : State) (job : Nat) : State :=
  (s.putBar (groupOff 0) (groupEntry job [s.pkgId])).modHz fun x => { x with ranks := tabSet ranksNone x.ranks 0 [s.pkgId] }

theorem State.groupZeroPut_hz (s : State) (job : Nat) :
    (s.groupZeroPut job).hz = { s.hz with ranks := tabSet ranksNone s.hz.ranks 0 [s.pkgId] } := by
  obtain ⟨b, hb⟩ := State.putBar_eq (groupEntry job [s.pkgId]) s (groupOff 0)
  rw [State.groupZeroPut, State.modHz_hz, hb]

theorem State.createGroup0_eq {s : State} (hd : s.hz.due = []) (hh : s.hz.held = []) (job : Nat) :
    s.createGroup0 job = (s.groupZeroPut job).modHz fun x => { x with held := [] } := by
  have hput : s.createGroup0 job = (s.groupZeroPut job).hzSettle := rfl
  rw [hput, State.hzSettle_idle (by rw [s.groupZeroPut_hz]; exact hd) (by rw [s.groupZeroPut_hz]; exact hh)]

section Start
variable {s : State} (hd : s.hz.due = []) (hh : s.hz.held = []) (job : Nat)
include hd hh

/-- Creating group 0 leaves DRAM alone, and every field apart from the counts of reductions. -/
theorem State.createGroup0_frame : (s.createGroup0 job).dram = s.dram ∧
    ∀ g, fHz_HZ_STATES.apart g = true → fHz_HZ_ACTIVE.apart g = true → (s.createGroup0 job).fld g = s.fld g := by
  obtain ⟨hregs, hdram, -⟩ := State.putBar_frame (groupEntry job [s.pkgId]) s (groupOff 0)
  rw [State.createGroup0_eq hd hh]
  refine ⟨?_, fun g hs ha => ?_⟩
  · rw [State.modHz_dram, State.groupZeroPut, State.modHz_dram, hdram]
  · rw [State.fld_modHz _ _ hs ha, State.groupZeroPut, State.fld_modHz _ _ hs ha, State.fld_congr hregs]

/-- Rank 0 of group 0 is this package. -/
theorem State.createGroup0_hzPkg : (s.createGroup0 job).hzPkg 0 0 = s.pkgId := by
  have hranks : (s.createGroup0 job).hz.ranks = tabSet ranksNone s.hz.ranks 0 [s.pkgId] := by
    rw [State.createGroup0_eq hd hh, State.modHz_hz, s.groupZeroPut_hz job]
  rw [State.hzPkg, hranks, tabGet_set_same]
  rfl

/-- A field of group 0's entry. -/
theorem State.barNat_createGroup0 {o w : Nat} (h : o + w ≤ 64) :
    (s.createGroup0 job).barNat (groupOff 0 + o) w = fieldLE (groupEntry job [s.pkgId]) o w := by
  have hbar : (s.createGroup0 job).bar2 = (s.putBar (groupOff 0) (groupEntry job [s.pkgId])).bar2 := by
    rw [State.createGroup0_eq hd hh, State.modHz_bar2, State.groupZeroPut, State.modHz_bar2]
  rw [State.barNat_congr hbar, State.barNat_putBar_in s _ _ (by rwa [groupEntry_length])]

/-- Group 0 exists, with one member, of rank 0, for the job. -/
theorem State.createGroup0_grp (hj : job < 65536) : ((s.createGroup0 job).grp 0).valid = true ∧ ((s.createGroup0 job).grp 0).nmem = 1 ∧
    ((s.createGroup0 job).grp 0).rank = 0 ∧ ((s.createGroup0 job).grp 0).job = job := by
  have hfield : ∀ {o w v : Nat}, (∃ pre post, groupEntry job [s.pkgId] = pre ++ (natLE w v ++ post) ∧ pre.length = o) → o + w ≤ 64 →
      (s.createGroup0 job).barNat (groupOff 0 + o) w = v % 256 ^ w := by
    rintro o w v ⟨pre, post, he, rfl⟩ how
    rw [State.barNat_createGroup0 hd hh job how, he, fieldLE_natLE_at]
  have hnmem := hfield (o := 2) (w := 2) (v := 1) ⟨natLE 2 0, _, by simp only [groupEntry, List.append_assoc]; rfl, rfl⟩ (by decide)
  have hrank := hfield (o := 4) (w := 2) (v := 0) ⟨natLE 2 0 ++ natLE 2 1, _, by simp only [groupEntry, List.append_assoc]; rfl, rfl⟩ (by decide)
  have hjob := hfield (o := 6) (w := 2) (v := job)
    ⟨natLE 2 0 ++ natLE 2 1 ++ natLE 2 0, _, by simp only [groupEntry, List.append_assoc]; rfl, rfl⟩ (by decide)
  have hvalid := hfield (o := 40) (w := 1) (v := 1)
    ⟨natLE 2 0 ++ natLE 2 1 ++ natLE 2 0 ++ natLE 2 job ++ natLE 8 0 ++ natLE 8 0 ++ natLE 1 0 ++ natLE 7 0 ++
      natLE 8 (gkeyOf [s.pkgId]).toNat, natLE 23 0, by simp only [groupEntry, List.append_assoc]; rfl, by simp⟩ (by decide)
  exact ⟨congrArg (bitAt · 0) hvalid, hnmem, hrank, hjob.trans (Nat.mod_eq_of_lt hj)⟩

end Start

/-- The fields of a job that starts: its ID, presence, root and step counter. -/
def State.jobNamed (s : State) (job root : Nat) : State :=
  (((s.setFld fPkg_JOB job).setFlag fPkg_JOB_PRESENT true).setFld fPkg_TROOT root).setFld fPkg_STEP 0

theorem State.jobStart_eq (s : State) (job : Nat) (root : W64) : s.jobStart job root = (s.jobNamed job root.toNat).createGroup0 job := rfl

theorem State.jobNamed_frame (s : State) (job root : Nat) : (s.jobNamed job root).hz = s.hz ∧ (s.jobNamed job root).dram = s.dram := by
  rw [State.jobNamed, State.setFld_hz, State.setFld_hz, State.setFlag_hz, State.setFld_hz, State.setFld_dram, State.setFld_dram,
    State.setFlag_dram, State.setFld_dram]
  exact ⟨rfl, rfl⟩

theorem State.jobNamed_fields (s : State) {job : Nat} (root : Nat) (hj : job < 65536) :
    (s.jobNamed job root).fld fPkg_JOB = job ∧ (s.jobNamed job root).fld fPkg_JOB_PRESENT = 1 ∧ (s.jobNamed job root).fld fPkg_STEP = 0 ∧
      (s.jobNamed job root).pkgId = s.pkgId := by
  have hfit : job < 2 ^ fPkg_JOB.w := hj
  unfold State.jobNamed State.pkgId State.setFlag
  simp (disch := decide) only [State.fld_setFld_apart, State.fld_setFld_fits]
  exact ⟨State.fld_setFld_fits s (by decide) hfit, rfl, trivial, trivial⟩

/-- The job is present with its root, its steps count from 0, and group 0 is this package. -/
theorem State.jobStart_starts {s : State} (hd : s.hz.due = []) (hh : s.hz.held = []) (job : BitVec 16) (root : W64) :
    let v := s.jobStart job.toNat root
    v.fld fPkg_JOB = job.toNat ∧ v.flag fPkg_JOB_PRESENT = true ∧ v.fld fPkg_STEP = 0 ∧ v.dram = s.dram ∧
      (v.grp 0).valid = true ∧ (v.grp 0).nmem = 1 ∧ (v.grp 0).rank = 0 ∧ (v.grp 0).job = job.toNat ∧ v.hzPkg 0 0 = s.pkgId := by
  obtain ⟨hhz, hdram⟩ := s.jobNamed_frame job.toNat root.toNat
  obtain ⟨hjob, hpresent, hstep, hpkg⟩ := s.jobNamed_fields root.toNat job.isLt
  have hd' : (s.jobNamed job.toNat root.toNat).hz.due = [] := by rw [hhz, hd]
  have hh' : (s.jobNamed job.toNat root.toNat).hz.held = [] := by rw [hhz, hh]
  obtain ⟨hdram', hfld⟩ := State.createGroup0_frame hd' hh' job.toNat
  obtain ⟨hvalid, hnmem, hrank, hgjob⟩ := State.createGroup0_grp hd' hh' job.toNat job.isLt
  rw [State.jobStart_eq]
  refine ⟨?_, ?_, ?_, hdram'.trans hdram, hvalid, hnmem, hrank, hgjob, (State.createGroup0_hzPkg hd' hh' _).trans hpkg⟩
  · rw [hfld _ (by decide) (by decide), hjob]
  · rw [State.flag, hfld _ (by decide) (by decide), hpresent]
    rfl
  · rw [hfld _ (by decide) (by decide), hstep]

/-- A job that is present refuses a start as busy. -/
theorem State.jobStartCode_busy {s : State} (job root : Nat) (hj : s.flag fPkg_JOB_PRESENT = true) : s.jobStartCode job root = 6 :=
  if_pos (.inl hj)

/-- An ID outside 1 to 0xFFFE or a root that is not aligned to a page is an invalid input. -/
theorem State.jobStartCode_invalid {s : State} {job root : Nat} (hj : s.flag fPkg_JOB_PRESENT = false)
    (hb : s.host.bg ≠ some .formatStore) (hv : job = 0 ∨ job = 0xFFFF ∨ root % 4096 ≠ 0) : s.jobStartCode job root = 2 := by
  have hroot : root % 4096 ≠ 0 → (!s.rootOk root) = true := fun hr => by simp [State.rootOk, hr]
  refine (if_neg (by simp [hj, hb])).trans (if_pos ?_)
  obtain h0 | hF | hr := hv
  · exact .inl h0
  · exact .inr (.inl hF)
  · exact .inr (.inr (.inl (hroot hr)))

section JobStart
variable {s : State} {ag : Agent} (h : s.mboxUp ag = true) (job : BitVec 16) (root : W64)
include h

theorem exec_jobStart_accepted (hc : s.jobStartCode job.toNat root.toNat = 0) :
    exec (.jobStart ag job root) s = .next ((s.jobStart job.toNat root).reply ag 0 []) :=
  exec_of_mbox h rfl (by simp only [hc, rcOk, if_true])

theorem exec_jobStart_refused {c : Nat} (hc : s.jobStartCode job.toNat root.toNat = c) (h0 : c ≠ 0) :
    exec (.jobStart ag job root) s = .next (s.reply ag c []) :=
  exec_of_mbox h rfl (by simp only [hc, rcOk, h0, if_false])

end JobStart

/-! ### Job End (R366, R454) -/

/-- The actions of Job End, and its mailbox waits. -/
def State.jobEndActs (s : State) (ag : Agent) : State := { s.jobActs with host := { s.jobActs.host with jobEnding := some (some ag) } }

/-- With the ring disabled its service does nothing but see whether a Job End is over. -/
theorem State.ringService_of_off {s : State} (h : s.flag fRing_EN = false) : s.ringService = s.jobOver := by
  have hretry : s.hringRetry = s := if_pos (.inl (by simp [h]))
  have hnext : s.ringNext = (.wait, s) := if_pos (.inl (by simp [h]))
  have hstep : s.ringStep = none := by rw [State.ringStep, hnext]
  have hrun : ∀ n, s.ringRun n = s := fun n => by cases n <;> simp [State.ringRun, hstep]
  rw [State.ringService, hretry, hrun]

/-- The job is present no longer. -/
def State.jobGone (s : State) : State :=
  ({ s with host := { s.host with jobEnding := none } }.setFlag fPkg_JOB_PRESENT false).setFld fPkg_JOB 0

theorem State.jobGone_present (s : State) : s.jobGone.flag fPkg_JOB_PRESENT = false := by
  rw [State.jobGone, State.flag, State.fld_setFld_apart _ _ (by decide) (by decide)]
  exact State.flag_setFlag_same _ false (by decide) (by decide)

/-- A Job End of which nothing is outstanding is over, and its mailbox has its answer. -/
theorem State.jobOver_done {s : State} {ag : Agent} (he : s.host.jobEnding = some (some ag)) (hc : s.fab.ctxs = [])
    (hp : s.mdl.passes = []) (hr : s.flag fRing_EN = false) :
    s.jobOver = if ag = .host then (s.jobGone.answer (.code 0 [])).vector 0 else s.jobGone.answer (.code 0 []) := by
  have hleft : ¬((!s.fab.ctxs.isEmpty) = true ∨ (!s.mdl.passes.isEmpty) = true ∨ s.ringLeft = true) := by
    simp [hc, hp, hr, State.ringLeft]
  unfold State.jobOver
  simp only [he, if_neg hleft]
  cases ag <;> rfl

theorem State.jobOver_answers {s : State} {ag : Agent} (he : s.host.jobEnding = some (some ag)) (hc : s.fab.ctxs = [])
    (hp : s.mdl.passes = []) (hr : s.flag fRing_EN = false) :
    s.jobOver.flag fPkg_JOB_PRESENT = false ∧ s.jobOver.jobRuns = false ∧ .code 0 [] ∈ s.jobOver.answers := by
  have hgone : s.jobOver.flag fPkg_JOB_PRESENT = false := by
    have hregs : s.jobOver.regs = s.jobGone.regs := by
      rw [State.jobOver_done he hc hp hr]
      split <;> simp only [State.vector, State.answer_regs]
    rw [State.flag_congr hregs, s.jobGone_present]
  refine ⟨hgone, by rw [State.jobRuns, hgone]; rfl, ?_⟩
  rw [State.jobOver_done he hc hp hr]
  split <;> simp only [State.vector, State.answer_answers, List.mem_cons, true_or, or_true]

section JobEnd
variable {s : State} {ag : Agent} (h : s.mboxUp ag = true) {job : BitVec 16}
include h

theorem exec_jobEnd_acts (hr : s.jobRuns = true) (hj : s.jobId = job.toNat) :
    exec (.jobEnd ag job) s = .next (s.jobEndActs ag).ringService :=
  congrArg _ ((if_pos ⟨h, hr, hj⟩).trans (if_pos hr))

theorem exec_jobEnd_refused (hr : s.jobRuns = false ∨ s.jobId ≠ job.toNat) : exec (.jobEnd ag job) s = .next (s.reply ag 2 []) := by
  refine exec_of_mbox h (congrArg _ (if_neg ?_)) rfl
  rintro ⟨-, hruns, hid⟩
  obtain hr | hr := hr
  · simp [hr] at hruns
  · exact hr hid

end JobEnd

/-- Settles O48: each clause is its command's rule, with what the command writes stated once for each operation. -/
theorem mailboxCommandsAct : Obligations.MailboxCommandsAct := by
  intro s ag h
  refine ⟨fun log => ⟨?_, ?_, ?_⟩, fun a b c d => ⟨?_, ?_⟩, ?_, fun slot x => ⟨?_, ?_, ?_⟩, ?_, ?_, ?_, fun slot hb => ⟨?_, ?_, ?_⟩,
    fun slot hb => ⟨?_, ?_⟩, fun job root => ⟨?_, ?_, ?_, ?_, ?_⟩, fun r c i _ hw => ⟨?_, ?_⟩, fun i hi => ⟨?_, ?_⟩⟩
  · exact ⟨_, exec_clearEventRecords_all h log, by simp, by simp, rfl⟩
  · exact fun hs hall => ⟨_, exec_clearEventRecords_named h log hall, by simp⟩
  · exact fun hs hex => exec_clearEventRecords_unknown h log hex
  · exact fun hv => ⟨_, exec_setEventInterruptPolicy h hv, s.evVector_withPolicies a b c d⟩
  · exact exec_setEventInterruptPolicy_beyond h b c d
  · exact fun val => exec_of_mbox h rfl rfl
  · exact exec_transferFw_starts h slot x
  · exact exec_transferFw_busy h slot x
  · exact transferFw_done
  · exact exec_formatSnapshotStore_starts h
  · exact exec_formatSnapshotStore_busy h
  · exact formatStore_done
  · exact exec_activateFw_next_reset h slot hb
  · exact fun hm hs ho => ⟨_, exec_activateFw_online h slot hb hm ((s.onlineOk_iff slot).2 ⟨hs, ho⟩), rfl, rfl, rfl⟩
  · exact fun hn => exec_activateFw_unfit h slot hb (mt (s.onlineOk_iff slot).1 hn)
  · exact mgmtFwRunning_installs hb
  · exact mgmtFwActivationTimeout_restores hb
  · exact fun hc hh hd => ⟨_, exec_jobStart_accepted h job root hc, State.jobStart_starts hd hh job root⟩
  · exact fun hj => exec_jobStart_refused h job root (State.jobStartCode_busy _ _ hj) (by decide)
  · intro hj hb hv
    have hv' : job.toNat = 0 ∨ job.toNat = 0xFFFF ∨ root.toNat % 4096 ≠ 0 :=
      hv.imp (congrArg BitVec.toNat) (Or.imp_left (congrArg BitVec.toNat))
    exact exec_jobStart_refused h job root (State.jobStartCode_invalid hj hb hv') (by decide)
  · refine fun hr hj => ⟨s.jobEndActs ag, rfl, exec_jobEnd_acts h hr hj, fun hc hp he => ?_⟩
    rw [State.ringService_of_off he]
    exact State.jobOver_answers rfl hc hp he
  · exact exec_jobEnd_refused h
  · rintro rfl
    exact ⟨_, exec_registerWindow_accepted h hw, s.addWindow_window r i⟩
  · exact exec_registerWindow_refused h hw
  · exact fun hv => ⟨_, exec_deregisterWindow h hi hv, s.dropWindow_valid i, fun j _ hj => s.dropWindow_others hj⟩
  · exact exec_deregisterWindow_unused h

end Sys2Proof.Machine
end

section
/-! What every command keeps (O55, O56, O57, O59, O60). `State.Keeps` says that an operation leaves the queue of commands as it was and
memory in canonical form. One lemma per operation of the model that gives a state, in the order of their definitions, each from the lemmas
of the operations it calls; then one per command, and the step. Where a call's own value would be evaluated by the kernel, the called
operation is generalised first. -/

namespace Sys2Proof.Machine

set_option Elab.async false

/-- What every operation of the package keeps of a state: the queue of commands, PERST_N as it is driven from outside, and the canonical
form of memory. -/
structure State.Keeps (s u : State) : Prop where
  pending : u.pending = s.pending
  perst : u.pwr.perst = s.pwr.perst
  memWf : s.memWf = true → u.memWf = true

theorem State.Keeps.refl (s : State) : s.Keeps s := ⟨rfl, rfl, id⟩

/-- A state with the same queue, DRAM, BAR2 and register cells. -/
theorem State.Keeps.same {a s u : State} (h : a.Keeps s) (hp : u.pending = s.pending) (hd : u.dram = s.dram) (hb : u.bar2 = s.bar2)
    (hr : u.regs = s.regs) (hn : u.pwr.perst = s.pwr.perst) : a.Keeps u :=
  ⟨hp.trans h.pending, hn.trans h.perst, fun hw => (State.memWf_congr hd hb hr).trans (h.memWf hw)⟩

/-- A state written out with its queue, register cells, BAR2 and DRAM as they were. -/
theorem State.Keeps.rest {a s : State} (h : a.Keeps s) (fresh answers latch mem stks thr logs pst saf host mdl eng bnd fab hz can snp sec) {pwr : PwrSt}
    (hn : pwr.perst = s.pwr.perst) :
    a.Keeps { pending := s.pending, regs := s.regs, bar2 := s.bar2, dram := s.dram, fresh := fresh, answers := answers, latch := latch,
              mem := mem, stks := stks, thr := thr, logs := logs, pst := pst, saf := saf, host := host, mdl := mdl, eng := eng, bnd := bnd,
              fab := fab, hz := hz, can := can, snp := snp, pwr := pwr, sec := sec } :=
  h.same rfl rfl rfl rfl hn

theorem State.Keeps.foldl {α : Type} {a s : State} (h : a.Keeps s) (f : State → α → State) (hf : ∀ t x, a.Keeps t → a.Keeps (f t x)) (l : List α) :
    a.Keeps (l.foldl f s) := by
  induction l generalizing s with
  | nil => exact h
  | cons x l ih => exact ih (hf s x h)

/-- The state that an instruction's body leaves. -/
def TRes.state : TRes → State
  | .done s => s
  | .jump s => s
  | .fault s _ => s
  | .wait s _ => s

/-- The state that the end of a system leaves. -/
def State.Answers (s : State) (o : Host.Outcome State Fault Refusal) : Prop := ∃ u, o = .next u ∧ s.Keeps u

theorem State.Keeps.setCell {a s : State} (h : a.Keeps s) (k : Nat) (v : W64) : a.Keeps (s.setCell k v) :=
  ⟨h.pending, h.perst, fun hw => State.memWf_setCell k v (h.memWf hw)⟩
theorem State.Keeps.setDramByte {a s : State} (h : a.Keeps s) (k : Nat) (v : Byte) : a.Keeps (s.setDramByte k v) :=
  ⟨h.pending, h.perst, fun hw => State.memWf_setDramByte k v (h.memWf hw)⟩
theorem State.Keeps.setBarByte {a s : State} (h : a.Keeps s) (k : Nat) (v : Byte) : a.Keeps (s.setBarByte k v) :=
  ⟨h.pending, h.perst, fun hw => State.memWf_setBarByte k v (h.memWf hw)⟩

/-- An operation's answer, taken apart. -/
theorem State.Keeps.of_eq {α : Type} {s₀ s : State} {x : α} {p : α × State} (h : s₀.Keeps p.2) (e : p = (x, s)) : s₀.Keeps s := by
  subst e; exact h

theorem State.Keeps.of_eq₂ {α β : Type} {s₀ s : State} {x : α} {y : β} {p : α × β × State} (h : s₀.Keeps p.2.2) (e : p = (x, y, s)) :
    s₀.Keeps s := by
  subst e; exact h

theorem State.Keeps.ite {s₀ s t : State} {c : Prop} [Decidable c] (h : s₀.Keeps s) (k : s₀.Keeps t) : s₀.Keeps (if c then s else t) := by
  split <;> assumption

theorem State.Keeps.foldl₂ {α β : Type} {s₀ : State} {r : β × State} (h : s₀.Keeps r.2) (f : β × State → α → β × State)
    (hf : ∀ r x, s₀.Keeps r.2 → s₀.Keeps (f r x).2) (l : List α) : s₀.Keeps (l.foldl f r).2 := by
  induction l generalizing r with
  | nil => exact h
  | cons x l ih => exact ih (hf r x h)

/-- Memory as a cold start leaves it (R391). -/
theorem State.Keeps.emptyDram {s₀ s : State} (h : s₀.Keeps s) : s₀.Keeps { s with dram := [] } :=
  ⟨h.pending, h.perst, fun hw => by
    obtain ⟨-, hb, hr⟩ := s.memWf_iff.1 (h.memWf hw)
    exact (State.memWf_iff _).2 ⟨rfl, hb, hr⟩⟩

theorem State.Keeps.updPwr {s₀ s : State} (h : s₀.Keeps s) {x : PwrSt} (hn : x.perst = s.pwr.perst) :
    s₀.Keeps { s with pwr := x } := h.same rfl rfl rfl rfl hn
theorem State.Keeps.updSec {s₀ s : State} (h : s₀.Keeps s) (x : SecSt) : s₀.Keeps { s with sec := x } := h.same rfl rfl rfl rfl rfl
theorem State.Keeps.updSnp {s₀ s : State} (h : s₀.Keeps s) (x : SnapSt) : s₀.Keeps { s with snp := x } := h.same rfl rfl rfl rfl rfl
theorem State.Keeps.updPst {s₀ s : State} (h : s₀.Keeps s) (x : PstSt) : s₀.Keeps { s with pst := x } := h.same rfl rfl rfl rfl rfl
theorem State.Keeps.updHost {s₀ s : State} (h : s₀.Keeps s) (x : HostSt) : s₀.Keeps { s with host := x } := h.same rfl rfl rfl rfl rfl
theorem State.Keeps.updThr {s₀ s : State} (h : s₀.Keeps s) (x : ThrSt) : s₀.Keeps { s with thr := x } := h.same rfl rfl rfl rfl rfl
theorem State.Keeps.updMdl {s₀ s : State} (h : s₀.Keeps s) (x : ModelSt) : s₀.Keeps { s with mdl := x } := h.same rfl rfl rfl rfl rfl
theorem State.Keeps.updMem {s₀ s : State} (h : s₀.Keeps s) (x : MemSt) : s₀.Keeps { s with mem := x } := h.same rfl rfl rfl rfl rfl
theorem State.Keeps.updFresh {s₀ s : State} (h : s₀.Keeps s) (n : Nat) : s₀.Keeps { s with fresh := n } := h.same rfl rfl rfl rfl rfl

/-- Entries taken out of a table leave it canonical. -/
theorem tabWfFrom_filter {α : Type} [DecidableEq α] (d : Nat → α) (p : Nat × α → Bool) (t : List (Nat × α)) :
    ∀ lo, tabWfFrom d lo t = true → tabWfFrom d lo (t.filter p) = true := by
  induction t with
  | nil => intro lo _; rfl
  | cons e t ih =>
    obtain ⟨k, v⟩ := e
    intro lo hw
    simp only [tabWfFrom, Bool.and_eq_true, decide_eq_true_eq] at hw
    by_cases h : p (k, v) = true
    · simp [h, tabWfFrom, hw.1.1, hw.1.2, ih _ hw.2]
    · simpa [List.filter_cons, h] using tabWfFrom_mono d (show lo ≤ k + 1 by omega) (ih _ hw.2)

/-- The register cells that a reset leaves are in canonical form. -/
theorem tabWfFrom_resetRegs (k : RKind) (t : List (Nat × W64)) :
    ∀ lo, tabWfFrom regDefault lo t = true → tabWfFrom regDefault lo (resetRegs k t) = true := by
  induction t with
  | nil => intro lo _; rfl
  | cons e t ih =>
    obtain ⟨c, v⟩ := e
    intro lo hw
    simp only [tabWfFrom, Bool.and_eq_true, decide_eq_true_eq] at hw
    have h := ih _ hw.2
    unfold resetRegs at h ⊢
    rw [List.map_cons, List.filter_cons]
    split
    · next hv => simp only [tabWfFrom, Bool.and_eq_true, decide_eq_true_eq]; exact ⟨⟨hw.1.1, of_decide_eq_true hv⟩, h⟩
    · exact tabWfFrom_mono _ (show lo ≤ c + 1 by omega) h

theorem State.Keeps.iteState {s₀ : State} {r q : TRes} {c : Prop} [Decidable c] (h : s₀.Keeps r.state) (k : s₀.Keeps q.state) :
    s₀.Keeps (if c then r else q).state := by
  split <;> assumption

theorem State.Keeps.trans {a s u : State} (h : a.Keeps s) (k : s.Keeps u) : a.Keeps u :=
  ⟨k.pending.trans h.pending, k.perst.trans h.perst, fun hw => k.memWf (h.memWf hw)⟩

theorem State.Answers.next {s u : State} (h : s.Keeps u) : s.Answers (.next u) := ⟨u, rfl, h⟩

theorem State.Keeps.setFld {s₀ s : State} (hs : s₀.Keeps s) (f : Fld) (v : ℕ) : s₀.Keeps (s.setFld f v) := by
  grind [State.setFld, State.Keeps.setCell]

theorem State.Keeps.setFlag {s₀ s : State} (hs : s₀.Keeps s) (f : Fld) (b : Bool) : s₀.Keeps (s.setFlag f b) := by
  grind [State.setFlag, State.Keeps.setFld]

theorem State.Keeps.inc {s₀ s : State} (hs : s₀.Keeps s) (f : Fld) : s₀.Keeps (s.inc f) := by
  grind [State.inc, State.Keeps.setFld]

theorem State.Keeps.addSat {s₀ s : State} (hs : s₀.Keeps s) (f : Fld) (n : ℕ) : s₀.Keeps (s.addSat f n) := by
  grind [State.addSat, State.Keeps.setFld]

theorem State.Keeps.draw {s₀ s : State} (hs : s₀.Keeps s) : s₀.Keeps (s.draw).2 := by
  grind [State.draw, State.Keeps.rest]

theorem State.Keeps.answer {s₀ s : State} (hs : s₀.Keeps s) (a : Answer) : s₀.Keeps (s.answer a) := by
  grind [State.answer, State.Keeps.rest]

theorem State.Keeps.putDram {s₀ s : State} (hs : s₀.Keeps s) (x1 : ℕ) (x2 : List Byte) : s₀.Keeps (s.putDram x1 x2) := by
  fun_induction State.putDram s x1 x2 <;>
    grind [State.putDram, State.Keeps.setDramByte]

theorem State.Keeps.putBar {s₀ s : State} (hs : s₀.Keeps s) (x1 : ℕ) (x2 : List Byte) : s₀.Keeps (s.putBar x1 x2) := by
  fun_induction State.putBar s x1 x2 <;>
    grind [State.putBar, State.Keeps.setBarByte]

theorem State.Keeps.setCtx {s₀ s : State} (hs : s₀.Keeps s) (t : Tid) (c : Ctx) : s₀.Keeps (s.setCtx t c) := by
  grind [State.setCtx, State.Keeps.rest]

theorem State.Keeps.modCtx {s₀ s : State} (hs : s₀.Keeps s) (t : Tid) (f : Ctx → Ctx) : s₀.Keeps (s.modCtx t f) := by
  grind [State.modCtx, State.Keeps.setCtx]

theorem State.Keeps.now {s₀ s : State} (hs : s₀.Keeps s) : s₀.Keeps (s.now).2 := by
  grind [State.now, State.Keeps.draw]

theorem State.Keeps.persist {s₀ s : State} (hs : s₀.Keeps s) (i v : ℕ) : s₀.Keeps (s.persist i v) := by
  grind [State.persist, State.Keeps.setFlag, State.Keeps.rest]

theorem State.Keeps.commitsSince {s₀ s1 : State} (hs : s₀.Keeps s1) (s : State) (w : PWait) : s₀.Keeps (s1.commitsSince s w).2 := by
  grind [State.commitsSince, State.Keeps.rest]

theorem State.Keeps.vector {s₀ s : State} (hs : s₀.Keeps s) (n : ℕ) : s₀.Keeps (s.vector n) := by
  grind [State.vector, State.Keeps.answer]

theorem State.Keeps.event {s₀ s : State} (hs : s₀.Keeps s) (log : ℕ) (kind : EvKind) (loc data : W64) (frec : List Byte) :
    s₀.Keeps (s.event log kind loc data frec) := by
  grind [State.event, State.Keeps.now, State.Keeps.vector, State.Keeps.rest]

theorem State.Keeps.dooms {s₀ s : State} (hs : s₀.Keeps s) (code : ℕ) : s₀.Keeps (s.dooms code) := by
  grind [State.dooms, State.Keeps.rest]

theorem State.Keeps.logRecord {s₀ s : State} (hs : s₀.Keeps s) (d : Det) : s₀.Keeps (s.logRecord d).2 := by
  unfold State.logRecord
  have h := ((((hs.now.draw.putBar (faultSlot (s.now.2.draw.2.fld fSafe_LOG_SEQ + 1))
    (d.record s.now.2.draw.2 (s.now.2.draw.2.fld fSafe_LOG_SEQ + 1) s.now.1 (Config.detail s.now.2.fresh))).setFld
      fSafe_LOG_SEQ (s.now.2.draw.2.fld fSafe_LOG_SEQ + 1)).setFld fSafe_LAST_CLASS d.cls).setFld fSafe_LAST_REACT d.react)
  have h2 := State.Keeps.ite (c := 2 ≤ d.react) (((h.inc fSafe_DETECTIONS).setFlag (fErr_DETECT d.page) true).dooms 0x13) h
  exact .ite (h2.setFlag _ _) h2

theorem State.Keeps.commitSafeLast {s₀ s : State} (hs : s₀.Keeps s) (d : Det) (bytes : List Byte) :
    s₀.Keeps (s.commitSafeLast d bytes) := by
  grind [State.commitSafeLast, State.Keeps.persist, State.Keeps.rest]

theorem State.Keeps.report {s₀ s : State} (hs : s₀.Keeps s) (d : Det) (ev : Option (ℕ × EvKind)) : s₀.Keeps (s.report d ev) := by
  grind [State.report, State.Keeps.logRecord, State.Keeps.commitSafeLast, State.Keeps.setFlag, State.Keeps.event, State.Keeps.rest]

theorem State.Keeps.injDone {s₀ s : State} (hs : s₀.Keeps s) (page : ℕ) : s₀.Keeps (s.injDone page) := by
  grind [State.injDone, State.Keeps.setFlag]

theorem State.Keeps.reportR {s₀ s : State} (hs : s₀.Keeps s) (cls page unit cause : ℕ) (loc0 : W64) :
    s₀.Keeps (s.reportR cls page unit cause loc0) := by
  grind [State.reportR, State.Keeps.report]

theorem State.Keeps.reportC {s₀ s : State} (hs : s₀.Keeps s) (cls page unit : ℕ) (loc0 : W64) (inj : Bool) :
    s₀.Keeps (s.reportC cls page unit loc0 inj) := by
  grind [State.reportC, State.Keeps.report]

theorem State.Keeps.setStk {s₀ s : State} (hs : s₀.Keeps s) (n : ℕ) (x : StackSt) : s₀.Keeps (s.setStk n x) := by
  grind [State.setStk, State.Keeps.rest]

theorem State.Keeps.modStk {s₀ s : State} (hs : s₀.Keeps s) (n : ℕ) (f : StackSt → StackSt) : s₀.Keeps (s.modStk n f) := by
  grind [State.modStk, State.Keeps.setStk]

theorem State.Keeps.setPcState {s₀ s : State} (hs : s₀.Keeps s) (n p v : ℕ) : s₀.Keeps (s.setPcState n p v) := by
  grind [State.setPcState, State.Keeps.setFld]

theorem State.Keeps.setPoison {s₀ s : State} (hs : s₀.Keeps s) (line : ℕ) (b : Bool) : s₀.Keeps (s.setPoison line b) := by
  grind [State.setPoison, State.Keeps.rest]

theorem State.Keeps.setSymErr {s₀ s : State} (hs : s₀.Keeps s) (line : ℕ) (l : List ℕ) : s₀.Keeps (s.setSymErr line l) := by
  grind [State.setSymErr, State.Keeps.rest]

theorem State.Keeps.setInner {s₀ s : State} (hs : s₀.Keeps s) (line c : ℕ) : s₀.Keeps (s.setInner line c) := by
  grind [State.setInner, State.Keeps.rest]

theorem State.Keeps.setInjected {s₀ s : State} (hs : s₀.Keeps s) (line : ℕ) (b : Bool) : s₀.Keeps (s.setInjected line b) := by
  grind [State.setInjected, State.Keeps.rest]

theorem State.Keeps.setLastCe {s₀ s : State} (hs : s₀.Keeps s) (n o lane : ℕ) : s₀.Keeps (s.setLastCe n o lane) := by
  unfold State.setLastCe
  grind [State.Keeps.setFld]

theorem State.Keeps.setLastUe {s₀ s : State} (hs : s₀.Keeps s) (n o : ℕ) : s₀.Keeps (s.setLastUe n o) := by
  unfold State.setLastUe
  grind [State.Keeps.setFld]

theorem State.Keeps.syncQueue {s₀ s : State} (hs : s₀.Keeps s) (n : ℕ) : s₀.Keeps (s.syncQueue n) := by
  grind [State.syncQueue, State.Keeps.setFld]

theorem State.Keeps.failPc {s₀ s : State} (hs : s₀.Keeps s) (n p : ℕ) : s₀.Keeps (s.failPc n p) := by
  grind [State.failPc, State.Keeps.report, State.Keeps.setPcState]

theorem State.Keeps.queueLane {s₀ s : State} (hs : s₀.Keeps s) (n p lane : ℕ) : s₀.Keeps (s.queueLane n p lane) := by
  grind [State.queueLane, State.Keeps.syncQueue, State.Keeps.modStk, State.Keeps.rest]

theorem State.Keeps.markLane {s₀ s : State} (hs : s₀.Keeps s) (n p lane : ℕ) : s₀.Keeps (s.markLane n p lane) := by
  grind [State.markLane, State.Keeps.event, State.Keeps.modStk, State.Keeps.queueLane, State.Keeps.setPcState, State.Keeps.failPc,
    State.Keeps.rest]

theorem State.Keeps.countLane {s₀ s : State} (hs : s₀.Keeps s) (n p lane k : ℕ) : s₀.Keeps (s.countLane n p lane k) := by
  grind [State.countLane, State.Keeps.modStk, State.Keeps.markLane, State.Keeps.draw, State.Keeps.rest]

theorem State.Keeps.spareRow {s₀ s : State} (hs : s₀.Keeps s) (n pc bank row : ℕ) : s₀.Keeps (s.spareRow n pc bank row) := by
  grind [State.spareRow, State.Keeps.setFlag, State.Keeps.event, State.Keeps.syncQueue, State.Keeps.modStk, State.Keeps.rest]

theorem State.Keeps.countRow {s₀ s : State} (hs : s₀.Keeps s) (n o : ℕ) : s₀.Keeps (s.countRow n o) := by
  grind [State.countRow, State.Keeps.modStk, State.Keeps.spareRow, State.Keeps.rest]

theorem State.Keeps.injectOn {s₀ s : State} (hs : s₀.Keeps s) (line : ℕ) : s₀.Keeps (s.injectOn line) := by
  grind [State.injectOn, State.Keeps.setFlag, State.Keeps.setInjected, State.Keeps.setPoison, State.Keeps.setSymErr]

theorem State.Keeps.wordWritten {s₀ s : State} (hs : s₀.Keeps s) (line : ℕ) : s₀.Keeps (s.wordWritten line) := by
  grind [State.wordWritten, State.Keeps.injectOn, State.Keeps.setInjected, State.Keeps.setInner, State.Keeps.setSymErr]

theorem State.Keeps.corrected {s₀ s : State} (hs : s₀.Keeps s) (line : ℕ) (syms : List ℕ) : s₀.Keeps (s.corrected line syms) := by
  grind [State.corrected, State.Keeps.setLastCe, State.Keeps.setFlag, State.Keeps.inc, State.Keeps.wordWritten, State.Keeps.countLane,
    State.Keeps.countRow, State.Keeps.rest, State.Keeps.foldl]

theorem State.Keeps.miscorrected {s₀ s : State} (hs : s₀.Keeps s) (line : ℕ) : s₀.Keeps (s.miscorrected line) := by
  grind [State.miscorrected, State.Keeps.putDram, State.Keeps.corrected, State.Keeps.rest, State.Keeps.foldl]

theorem State.Keeps.uncorrectable {s₀ s : State} (hs : s₀.Keeps s) (line : ℕ) (isPoison : Bool) :
    s₀.Keeps (s.uncorrectable line isPoison) := by
  grind [State.uncorrectable, State.Keeps.setLastUe, State.Keeps.setFlag, State.Keeps.inc, State.Keeps.spareRow]

theorem State.Keeps.countInner {s₀ s : State} (hs : s₀.Keeps s) (line : ℕ) : s₀.Keeps (s.countInner line) := by
  grind [State.countInner, State.Keeps.inc]

theorem State.Keeps.readLine {s₀ s : State} (hs : s₀.Keeps s) (line : ℕ) : s₀.Keeps (s.readLine line).2 := by
  grind [State.readLine, State.Keeps.countInner, State.Keeps.corrected, State.Keeps.miscorrected, State.Keeps.uncorrectable,
    State.Keeps.draw, State.Keeps.rest]

theorem State.Keeps.carryPoison {s₀ s : State} (hs : s₀.Keeps s) (line : ℕ) : s₀.Keeps (s.carryPoison line) := by
  grind [State.carryPoison, State.Keeps.setInner, State.Keeps.setSymErr, State.Keeps.setPoison]

theorem State.Keeps.consumed {s₀ s : State} (hs : s₀.Keeps s) (line : ℕ) : s₀.Keeps (s.consumed line) := by
  grind [State.consumed, State.Keeps.report]

theorem State.Keeps.sramFound {s₀ s : State} (hs : s₀.Keeps s) (line : ℕ) : s₀.Keeps (s.sramFound line) := by
  grind [State.sramFound, State.Keeps.report, State.Keeps.setPoison, State.Keeps.rest]

theorem State.Keeps.takeLine {s₀ s : State} (hs : s₀.Keeps s) (line : ℕ) : s₀.Keeps (s.takeLine line).2 := by
  grind [State.takeLine, State.Keeps.sramFound, State.Keeps.readLine, State.Keeps.carryPoison, State.Keeps.rest]

theorem State.Keeps.consumeLine {s₀ s : State} (hs : s₀.Keeps s) (cross : Bool) (line : ℕ) : s₀.Keeps (s.consumeLine cross line).2 := by
  grind [State.consumeLine, State.Keeps.carryPoison, State.Keeps.sramFound, State.Keeps.takeLine, State.Keeps.consumed, State.Keeps.rest]

theorem State.Keeps.consumeLines {s₀ s : State} (hs : s₀.Keeps s) (cross : Bool) (x1 x2 : ℕ) :
    s₀.Keeps (s.consumeLines cross x1 x2).2 := by
  fun_induction State.consumeLines s cross x1 x2 <;>
    grind [State.consumeLines, State.Keeps.consumeLine, State.Keeps.rest]

theorem State.Keeps.injectMsc {s₀ s : State} (hs : s₀.Keeps s) (line : ℕ) : s₀.Keeps (s.injectMsc line) := by
  grind [State.injectMsc, State.Keeps.injDone, State.Keeps.rest]

theorem State.Keeps.writePart {s₀ s : State} (hs : s₀.Keeps s) (k : ℕ) (bs : List Byte) : s₀.Keeps (s.writePart k bs) := by
  grind [State.writePart, State.Keeps.readLine, State.Keeps.injectMsc, State.Keeps.wordWritten, State.Keeps.putDram, State.Keeps.setPoison,
    State.Keeps.rest]

theorem State.Keeps.writeFull {s₀ s : State} (hs : s₀.Keeps s) (line : ℕ) (bs : List Byte) : s₀.Keeps (s.writeFull line bs) := by
  grind [State.writeFull, State.Keeps.injectMsc, State.Keeps.wordWritten, State.Keeps.setPoison, State.Keeps.putDram, State.Keeps.rest]

theorem State.Keeps.writePoison {s₀ s : State} (hs : s₀.Keeps s) (line : ℕ) (bs : List Byte) : s₀.Keeps (s.writePoison line bs) := by
  grind [State.writePoison, State.Keeps.wordWritten, State.Keeps.setPoison, State.Keeps.putDram]

theorem State.Keeps.writeHome {s₀ s : State} (hs : s₀.Keeps s) (k : ℕ) (bs : List Byte) : s₀.Keeps (s.writeHome k bs) := by
  grind [State.writeHome, State.Keeps.writeFull, State.Keeps.writePart, State.Keeps.foldl]

theorem State.Keeps.putBarNat {s₀ s : State} (hs : s₀.Keeps s) (off n v : ℕ) : s₀.Keeps (s.putBarNat off n v) := by
  grind [State.putBarNat, State.Keeps.putBar]

theorem State.Keeps.setModelBit {s₀ s : State} (hs : s₀.Keeps s) (i bit : ℕ) (b : Bool) : s₀.Keeps (s.setModelBit i bit b) := by
  grind [State.setModelBit, State.Keeps.putBarNat]

theorem State.Keeps.setCounter {s₀ s : State} (hs : s₀.Keeps s) (i : ℕ) (v : W64) : s₀.Keeps (s.setCounter i v) := by
  grind [State.setCounter, State.Keeps.putBarNat]

theorem State.Keeps.addCounter {s₀ s : State} (hs : s₀.Keeps s) (i inc : ℕ) (err : Bool) : s₀.Keeps (s.addCounter i inc err) := by
  grind [State.addCounter, State.Keeps.setCounter]

theorem State.Keeps.jobOver {s₀ s : State} (hs : s₀.Keeps s) : s₀.Keeps (s.jobOver) := by
  unfold State.jobOver
  split
  · exact hs
  · split
    · exact hs
    · have h := fun x => ((hs.updHost x).setFlag fPkg_JOB_PRESENT false).setFld fPkg_JOB 0
      dsimp only
      split
      · exact h _
      · exact ((h _).answer _).vector _
      · exact (h _).answer _

theorem State.Keeps.setPort {s₀ s : State} (hs : s₀.Keeps s) (p : ℕ) (x : Port) : s₀.Keeps (s.setPort p x) := by
  grind [State.setPort, State.Keeps.rest]

theorem State.Keeps.modPort {s₀ s : State} (hs : s₀.Keeps s) (p : ℕ) (f : Port → Port) : s₀.Keeps (s.modPort p f) := by
  grind [State.modPort, State.Keeps.setPort]

theorem State.Keeps.modFab {s₀ s : State} (hs : s₀.Keeps s) (f : FabSt → FabSt) : s₀.Keeps (s.modFab f) := by
  grind [State.modFab, State.Keeps.rest]

theorem State.Keeps.take {s₀ s : State} (hs : s₀.Keeps s) (p : ℕ) (k : OutPkt) : s₀.Keeps (s.take p k) := by
  grind [State.take, State.Keeps.injDone, State.Keeps.inc, State.Keeps.setPort, State.Keeps.rest]

theorem State.Keeps.flow {s₀ s : State} (hs : s₀.Keeps s) (p x1 : ℕ) : s₀.Keeps (s.flow p x1) := by
  fun_induction State.flow s p x1 <;>
    grind [State.flow, State.Keeps.setPort, State.Keeps.take, State.Keeps.rest]

theorem State.Keeps.pump {s₀ s : State} (hs : s₀.Keeps s) (p : ℕ) : s₀.Keeps (s.pump p) := by
  grind [State.pump, State.Keeps.flow]

theorem State.Keeps.sendOn {s₀ s : State} (hs : s₀.Keeps s) (p : ℕ) (k : OutPkt) : s₀.Keeps (s.sendOn p k) := by
  grind [State.sendOn, State.Keeps.pump, State.Keeps.setPort, State.Keeps.rest]

theorem State.Keeps.send {s₀ s : State} (hs : s₀.Keeps s) (k : OutPkt) : s₀.Keeps (s.send k) := by
  grind [State.send, State.Keeps.sendOn, State.Keeps.rest]

theorem State.Keeps.syncCtx {s₀ s : State} (hs : s₀.Keeps s) : s₀.Keeps (s.syncCtx) := by
  grind [State.syncCtx, State.Keeps.setFld]

theorem State.Keeps.wantCtx {s₀ s : State} (hs : s₀.Keeps s) (u : RUse) (lose : Bool) : s₀.Keeps (s.wantCtx u lose) := by
  grind [State.wantCtx, State.Keeps.modFab, State.Keeps.rest]

theorem State.Keeps.unwant {s₀ s : State} (hs : s₀.Keeps s) (u : RUse) : s₀.Keeps (s.unwant u) := by
  grind [State.unwant, State.Keeps.modFab, State.Keeps.rest]

theorem State.Keeps.refusalNote {s₀ s : State} (hs : s₀.Keeps s) (cause port target handle : ℕ) (va : W64) :
    s₀.Keeps (s.refusalNote cause port target handle va) := by
  unfold State.refusalNote
  exact ((((hs.setFld _ _).setFld _ _).setFld _ _).setFld _ _).setFld _ _

theorem State.Keeps.noteSets {s₀ s : State} (hs : s₀.Keeps s) : s₀.Keeps (s.noteSets) := by
  grind [State.noteSets, State.Keeps.modFab, State.Keeps.rest]

theorem State.Keeps.setPortState {s₀ s : State} (hs : s₀.Keeps s) (p st : ℕ) : s₀.Keeps (s.setPortState p st) := by
  grind [State.setPortState, State.Keeps.noteSets, State.Keeps.setFld]

theorem State.Keeps.request {s₀ s : State} (hs : s₀.Keeps s) (u : RUse) (handle : ℕ) (va : W64) (k : OutPkt) :
    s₀.Keeps (s.request u handle va k).2 := by
  grind [State.request, State.Keeps.unwant, State.Keeps.refusalNote, State.Keeps.wantCtx, State.Keeps.modFab, State.Keeps.syncCtx,
    State.Keeps.sendOn, State.Keeps.rest]

theorem State.Keeps.dropCtx {s₀ s : State} (hs : s₀.Keeps s) (tag : ℕ) : s₀.Keeps (s.dropCtx tag) := by
  grind [State.dropCtx, State.Keeps.jobOver, State.Keeps.syncCtx, State.Keeps.modFab, State.Keeps.rest]

theorem State.Keeps.breakFlag {s₀ s : State} (hs : s₀.Keeps s) (target : ℕ) (mine : FlagReq → Bool) :
    s₀.Keeps (s.breakFlag target mine) := by
  grind [State.breakFlag, State.Keeps.modFab, State.Keeps.rest]

theorem State.Keeps.walk {s₀ s : State} (hs : s₀.Keeps s) (va x1 x2 x3 : ℕ) : s₀.Keeps (s.walk va x1 x2 x3).2 := by
  induction x1 generalizing s x2 x3 with
  | zero => exact hs
  | succ fuel ih =>
    unfold State.walk
    split
    · split
      · exact hs
      · split
        · next e => exact (hs.consumeLine _ _).of_eq e
        · next e =>
          have h := (hs.consumeLine _ _).of_eq e
          dsimp only
          split
          · exact ih h _ _
          · exact h
          · exact h
          · exact h
    · exact hs

theorem State.Keeps.markLeaf {s₀ s : State} (hs : s₀.Keeps s) (l : Leaf) (k : AKind) : s₀.Keeps (s.markLeaf l k) := by
  grind [State.markLeaf, State.Keeps.writePart]

theorem State.Keeps.markAccess {s₀ s : State} (hs : s₀.Keeps s) (va : ℕ) (k : AKind) : s₀.Keeps (s.markAccess va k) := by
  grind [State.markAccess, State.Keeps.markLeaf, State.Keeps.rest]

theorem State.Keeps.xlatePage {s₀ s : State} (hs : s₀.Keeps s) (who : Who) (va : ℕ) (k : AKind) :
    s₀.Keeps (s.xlatePage who va k).2 := by
  grind [State.xlatePage, State.Keeps.walk, State.Keeps.rest]

theorem State.Keeps.xlate {s₀ s : State} (hs : s₀.Keeps s) (who : Who) (va : ℕ) (k : AKind) : s₀.Keeps (s.xlate who va k).2 := by
  grind [State.xlate, State.Keeps.xlatePage, State.Keeps.rest]

theorem State.Keeps.setDir {s₀ s : State} (hs : s₀.Keeps s) (line : ℕ) (d : Dir) : s₀.Keeps (s.setDir line d) := by
  grind [State.setDir, State.Keeps.rest]

theorem State.Keeps.biSend {s₀ s : State} (hs : s₀.Keeps s) (line : ℕ) : s₀.Keeps (s.biSend line) := by
  grind [State.biSend, State.Keeps.inc, State.Keeps.rest]

theorem State.Keeps.biDone {s₀ s : State} (hs : s₀.Keeps s) (line : ℕ) (write : Bool) : s₀.Keeps (s.biDone line write) := by
  grind [State.biDone, State.Keeps.setDir, State.Keeps.rest]

theorem State.Keeps.newerWritten {s₀ s : State} (hs : s₀.Keeps s) (line : ℕ) : s₀.Keeps (s.newerWritten line) := by
  grind [State.newerWritten, State.Keeps.setInner, State.Keeps.setSymErr]

theorem State.Keeps.dirChecked {s₀ s : State} (hs : s₀.Keeps s) (line : ℕ) : s₀.Keeps (s.dirChecked line) := by
  unfold State.dirChecked
  dsimp only
  split
  · exact hs
  · exact (hs.updMem _).addSat _ _
  · exact ((((hs.updMem _).newerWritten _).biSend _).biDone _ _ |>.setDir _ _).reportR _ _ _ _ _

theorem State.Keeps.homeActions {s₀ s : State} (hs : s₀.Keeps s) (line : ℕ) (write : Bool) (h : Holder) :
    s₀.Keeps (s.homeActions line write h) := by
  grind [State.homeActions, State.Keeps.newerWritten, State.Keeps.dirChecked, State.Keeps.biDone, State.Keeps.biSend, State.Keeps.setDir]

theorem State.Keeps.notify {s₀ s : State} (hs : s₀.Keeps s) (lid : ℕ) : s₀.Keeps (s.notify lid) := by
  grind [State.notify, State.Keeps.rest, State.Keeps.foldl]

theorem State.Keeps.dirtyGran {s₀ s : State} (hs : s₀.Keeps s) (g : ℕ) : s₀.Keeps (s.dirtyGran g) := by
  grind [State.dirtyGran, State.Keeps.rest]

theorem State.Keeps.noteStall {s₀ s : State} (hs : s₀.Keeps s) (key : ℕ) : s₀.Keeps (s.noteStall key) := by
  grind [State.noteStall, State.Keeps.rest]

theorem State.Keeps.syncComb {s₀ s : State} (hs : s₀.Keeps s) (n : ℕ) : s₀.Keeps (s.syncComb n) := by
  grind [State.syncComb, State.Keeps.setFld]

theorem State.Keeps.combAnswer {s₀ s : State} (hs : s₀.Keeps s) (r : CombReq) (old : Option ℕ) : s₀.Keeps (s.combAnswer r old) := by
  unfold State.combAnswer
  grind [State.Keeps.send, State.Keeps.inc, State.Keeps.rest]

theorem State.Keeps.combOne {s₀ s : State} (hs : s₀.Keeps s) (r : CombReq) : s₀.Keeps (s.combOne r) := by
  grind [State.combOne, State.Keeps.combAnswer, State.Keeps.dirtyGran, State.Keeps.writeHome]

theorem State.Keeps.combApply {s₀ s : State} (hs : s₀.Keeps s) (n line : ℕ) : s₀.Keeps (s.combApply n line) := by
  unfold State.combApply
  split
  · exact hs
  · have h := fun f => ((hs.modStk n f).syncComb n).consumeLine false line
    dsimp only
    split
    · next e => exact ((((h _).of_eq e).homeActions _ _ _).foldl _ (fun _ _ h => h.combOne _) _).notify _
    · next e => exact ((h _).of_eq e).foldl _ (fun _ _ h => h.combAnswer _ _) _

theorem State.Keeps.combFlush {s₀ s : State} (hs : s₀.Keeps s) (line : ℕ) : s₀.Keeps (s.combFlush line) := by
  grind [State.combFlush, State.Keeps.combApply]

theorem State.Keeps.prepLines {s₀ s : State} (hs : s₀.Keeps s) (key len : ℕ) (write : Bool) (h : Holder) :
    s₀.Keeps (s.prepLines key len write h) := by
  grind [State.prepLines, State.Keeps.homeActions, State.Keeps.combFlush, State.Keeps.foldl]

theorem State.Keeps.homeRead {s₀ s : State} (hs : s₀.Keeps s) (h : Holder) (key len : ℕ) : s₀.Keeps (s.homeRead h key len).2 := by
  grind [State.homeRead, State.Keeps.prepLines, State.Keeps.consumeLines, State.Keeps.rest]

theorem State.Keeps.homeWrite {s₀ s : State} (hs : s₀.Keeps s) (h : Holder) (key : ℕ) (bs : List Byte) :
    s₀.Keeps (s.homeWrite h key bs) := by
  grind [State.homeWrite, State.Keeps.writeHome, State.Keeps.prepLines, State.Keeps.dirtyGran, State.Keeps.notify, State.Keeps.foldl]

theorem State.Keeps.homeAmo {s₀ s : State} (hs : s₀.Keeps s) (h : Holder) (key aw aop b exp : ℕ) :
    s₀.Keeps (s.homeAmo h key aw aop b exp).2 := by
  unfold State.homeAmo
  split
  · next e => exact ((hs.prepLines _ _ _ _).consumeLine _ _).of_eq e
  · next e => exact (((((hs.prepLines _ _ _ _).consumeLine _ _).of_eq e).writeHome _ _).dirtyGran _).notify _

theorem State.Keeps.setHline {s₀ s : State} (hs : s₀.Keeps s) (l : ℕ) (x : HLine) : s₀.Keeps (s.setHline l x) := by
  grind [State.setHline, State.Keeps.rest]

theorem State.Keeps.hostRoom {s₀ s : State} (hs : s₀.Keeps s) : s₀.Keeps (s.hostRoom) := by
  grind [State.hostRoom, State.Keeps.setHline, State.Keeps.rest]

theorem State.Keeps.hostFill {s₀ s : State} (hs : s₀.Keeps s) (l : ℕ) : s₀.Keeps (s.hostFill l) := by
  grind [State.hostFill, State.Keeps.hostRoom, State.Keeps.setHline, State.Keeps.inc, State.Keeps.rest]

theorem State.Keeps.hostRead {s₀ s : State} (hs : s₀.Keeps s) (hpa len : ℕ) : s₀.Keeps (s.hostRead hpa len).2 := by
  grind [State.hostRead, State.Keeps.hostFill, State.Keeps.foldl]

theorem State.Keeps.hostPutByte {s₀ s : State} (hs : s₀.Keeps s) (hpa : ℕ) (b : Byte) : s₀.Keeps (s.hostPutByte hpa b) := by
  grind [State.hostPutByte, State.Keeps.setHline, State.Keeps.rest]

theorem State.Keeps.hostWrite {s₀ s : State} (hs : s₀.Keeps s) (hpa : ℕ) (bs : List Byte) : s₀.Keeps (s.hostWrite hpa bs) := by
  grind [State.hostWrite, State.Keeps.hostFill, State.Keeps.hostPutByte, State.Keeps.setHline, State.Keeps.notify, State.Keeps.rest,
    State.Keeps.foldl]

theorem State.Keeps.homePerform {s₀ s : State} (hs : s₀.Keeps s) (cmd key len aop aw : ℕ) (data : List Byte) :
    s₀.Keeps (s.homePerform cmd key len aop aw data).2 := by
  grind [State.homePerform, State.Keeps.homeRead, State.Keeps.homeWrite, State.Keeps.homeAmo, State.Keeps.rest]

theorem State.Keeps.caddApply {s₀ s : State} (hs : s₀.Keeps s) (i job : ℕ) (data : List Byte) :
    s₀.Keeps (s.caddApply i job data).2 := by
  grind [State.caddApply, State.Keeps.addCounter]

theorem State.Keeps.turned {s₀ s : State} (hs : s₀.Keeps s) (cmd addr len aop aw : ℕ) (data : List Byte) :
    s₀.Keeps (s.turned cmd addr len aop aw data).2 := by
  grind [State.turned, State.Keeps.caddApply, State.Keeps.inc, State.Keeps.noteStall, State.Keeps.homePerform, State.Keeps.rest]

theorem State.Keeps.viewKey {s₀ s : State} (hs : s₀.Keeps s) (v : View) (va : ℕ) (k : AKind) : s₀.Keeps (s.viewKey v va k).2 := by
  grind [State.viewKey, State.Keeps.xlatePage, State.Keeps.rest]

theorem State.Keeps.viewPoison {s₀ s : State} (hs : s₀.Keeps s) (stack : ℕ) : s₀.Keeps (s.viewPoison stack) := by
  grind [State.viewPoison, State.Keeps.inc]

theorem State.Keeps.viewSegs {s₀ s : State} (hs : s₀.Keeps s) (v : View) (x1 : List (ℕ × ℕ)) : s₀.Keeps (s.viewSegs v x1).2 := by
  fun_induction State.viewSegs s v x1 <;>
    grind [State.viewSegs, State.Keeps.viewKey, State.Keeps.homeRead, State.Keeps.viewPoison, State.Keeps.rest]

theorem State.Keeps.viewKeys {s₀ s : State} (hs : s₀.Keeps s) (v : View) (k : AKind) (x1 : List (ℕ × ℕ)) :
    s₀.Keeps (s.viewKeys v k x1).2 := by
  fun_induction State.viewKeys s v k x1 <;>
    grind [State.viewKeys, State.Keeps.viewKey, State.Keeps.rest]

theorem State.Keeps.viewRead {s₀ s : State} (hs : s₀.Keeps s) (v : View) (segs : List (ℕ × ℕ)) : s₀.Keeps (s.viewRead v segs).2 := by
  grind [State.viewRead, State.Keeps.viewKeys, State.Keeps.viewSegs, State.Keeps.rest]

theorem State.Keeps.viewFlags {s₀ s : State} (hs : s₀.Keeps s) (i : ℕ) (fl : Flags) : s₀.Keeps (s.viewFlags i fl) := by
  grind [State.viewFlags, State.Keeps.putBarNat]

theorem State.Keeps.viewLinePlain {s₀ s : State} (hs : s₀.Keeps s) (i line : ℕ) : s₀.Keeps (s.viewLinePlain i line).2 := by
  grind [State.viewLinePlain, State.Keeps.viewRead, State.Keeps.viewFlags, State.Keeps.rest, State.Keeps.foldl]

theorem State.Keeps.viewBlocks {s₀ s : State} (hs : s₀.Keeps s) (i b0 n : ℕ) : s₀.Keeps (s.viewBlocks i b0 n).2 := by
  grind [State.viewBlocks, State.Keeps.viewRead, State.Keeps.viewFlags, State.Keeps.rest, State.Keeps.foldl]

theorem State.Keeps.viewLineMx {s₀ s : State} (hs : s₀.Keeps s) (i line : ℕ) : s₀.Keeps (s.viewLineMx i line).2 := by
  grind [State.viewLineMx, State.Keeps.viewBlocks, State.Keeps.rest]

theorem State.Keeps.viewLineScale {s₀ s : State} (hs : s₀.Keeps s) (i line : ℕ) : s₀.Keeps (s.viewLineScale i line).2 := by
  grind [State.viewLineScale, State.Keeps.viewBlocks, State.Keeps.rest]

theorem State.Keeps.viewLine {s₀ s : State} (hs : s₀.Keeps s) (i : ℕ) (scale : Bool) (line : ℕ) :
    s₀.Keeps (s.viewLine i scale line).2 := by
  grind [State.viewLine, State.Keeps.viewLineScale, State.Keeps.viewLineMx, State.Keeps.viewLinePlain]

theorem State.Keeps.setGrove {s₀ s : State} (hs : s₀.Keeps s) (g : ℕ) (x : Grove) : s₀.Keeps (s.setGrove g x) := by
  grind [State.setGrove, State.Keeps.rest]

theorem State.Keeps.dropViewLines {s₀ s : State} (hs : s₀.Keeps s) (g : ℕ) : s₀.Keeps (s.dropViewLines g) := by
  grind [State.dropViewLines, State.Keeps.setGrove, State.Keeps.rest]

theorem State.Keeps.dropViewRange {s₀ s : State} (hs : s₀.Keeps s) (lo hi : ℕ) : s₀.Keeps (s.dropViewRange lo hi) := by
  grind [State.dropViewRange, State.Keeps.rest]

theorem State.Keeps.viewLineFor {s₀ s : State} (hs : s₀.Keeps s) (g : Option ℕ) (i : ℕ) (scale : Bool) (line : ℕ) :
    s₀.Keeps (s.viewLineFor g i scale line).2 := by
  unfold State.viewLineFor
  grind [State.Keeps.viewLine, State.Keeps.setGrove, State.Keeps.rest]

theorem State.Keeps.viewLoad {s₀ s : State} (hs : s₀.Keeps s) (g : Option ℕ) (i : ℕ) (scale : Bool) (x1 : List (ℕ × ℕ)) :
    s₀.Keeps (s.viewLoad g i scale x1).2 := by
  fun_induction State.viewLoad s g i scale x1 <;>
    grind [State.viewLoad, State.Keeps.viewLineFor, State.Keeps.rest]

theorem State.Keeps.viewProbe {s₀ s : State} (hs : s₀.Keeps s) (i : ℕ) (scale : Bool) (k : AKind) (va n : ℕ) :
    s₀.Keeps (s.viewProbe i scale k va n).2 := by
  grind [State.viewProbe, State.Keeps.viewKeys]

theorem State.Keeps.viewStoreElem {s₀ s : State} (hs : s₀.Keeps s) (i key pat : ℕ) : s₀.Keeps (s.viewStoreElem i key pat) := by
  grind [State.viewStoreElem, State.Keeps.viewFlags, State.Keeps.homeWrite, State.Keeps.takeLine, State.Keeps.prepLines, State.Keeps.report,
    State.Keeps.inc, State.Keeps.rest]

theorem State.Keeps.viewStore {s₀ s : State} (hs : s₀.Keeps s) (g : Option ℕ) (i : ℕ) (scale : Bool) (va : ℕ) (bs : List Byte) :
    s₀.Keeps (s.viewStore g i scale va bs).2 := by
  unfold State.viewStore
  dsimp only
  split
  · exact hs
  · split
    · next e =>
      have h := (hs.viewKey _ _ _).of_eq e
      split
      · exact h.noteStall _
      · have h2 := fun f hf => (h.markAccess ((s.view i).storedVa va) .store).foldl f hf (List.range (bs.length / (s.view i).pbytes))
        split
        · exact (h2 _ fun t j ht => ht.viewStoreElem i _ _).setGrove _ _
        · exact h2 _ fun t j ht => ht.viewStoreElem i _ _
    · next e => exact (hs.viewKey _ _ _).of_eq e
    · next e => exact (hs.viewKey _ _ _).of_eq e
    · next e => exact (hs.viewKey _ _ _).of_eq e

theorem State.Keeps.mRes_marked {s₀ : State} (va : ℕ) (k : AKind) (x1 : MRes × State) (hs : s₀.Keeps x1.2) :
    s₀.Keeps (MRes.marked va k x1).2 := by
  unfold MRes.marked
  grind [State.Keeps.markAccess]

theorem State.Keeps.dropGot {s₀ s : State} (hs : s₀.Keeps s) (u : RUse) : s₀.Keeps (s.dropGot u) := by
  grind [State.dropGot, State.Keeps.modFab, State.Keeps.rest]

theorem State.Keeps.gotRead {s₀ s : State} (hs : s₀.Keeps s) (u : RUse) (addr n : ℕ) :
    ∀ o, s.gotRead u addr n = some o → s₀.Keeps o.2 := by
  intro o h
  unfold State.gotRead at h
  obtain ⟨g, -, rfl⟩ := Option.map_eq_some_iff.1 h
  exact .ite (hs.modFab _) hs

theorem State.Keeps.remotePart {s₀ s : State} (hs : s₀.Keeps s) (u : RUse) (handle : ℕ) (va : W64) (addr n : ℕ) :
    s₀.Keeps (s.remotePart u handle va addr n).2 := by
  unfold State.remotePart
  split
  · next e => exact hs.gotRead _ _ _ _ e
  · split
    · exact hs
    · split
      · next e => exact (hs.request _ _ _ _).of_eq e
      · next e => exact (hs.request _ _ _ _).of_eq e

theorem State.Keeps.remoteParts {s₀ s : State} (hs : s₀.Keeps s) (u : RUse) (handle : ℕ) (va : W64) (addr : ℕ) (x1 : List (ℕ × ℕ)) :
    s₀.Keeps (s.remoteParts u handle va addr x1).2 := by
  fun_induction State.remoteParts s u handle va addr x1 <;>
    grind [State.remoteParts, State.Keeps.remotePart, State.Keeps.rest]

theorem State.Keeps.remoteRead {s₀ s : State} (hs : s₀.Keeps s) (u : RUse) (handle : ℕ) (va : W64) (addr n : ℕ) :
    s₀.Keeps (s.remoteRead u handle va addr n).2 := by
  grind [State.remoteRead, State.Keeps.dropGot, State.Keeps.turned, State.Keeps.refusalNote, State.Keeps.remoteParts, State.Keeps.rest]

theorem State.Keeps.remoteWrite {s₀ s : State} (hs : s₀.Keeps s) (u : RUse) (handle : ℕ) (va : W64) (addr : ℕ) (bs : List Byte) :
    s₀.Keeps (s.remoteWrite u handle va addr bs).2 := by
  unfold State.remoteWrite
  refine hs.foldl₂ _ (fun r p h => ?_) _
  dsimp only
  split
  · next t =>
    split
    · split
      · next e => exact (h.turned _ _ _ _ _ _).of_eq e
      · next e => exact (((h.turned _ _ _ _ _ _).of_eq e).refusalNote _ _ _ _ _).breakFlag _ _
      · next e => exact (h.turned _ _ _ _ _ _).of_eq e
    · split
      · next e => exact (h.request _ _ _ _).of_eq e
      · next e => exact ((h.request _ _ _ _).of_eq e).breakFlag _ _
      · next e => exact (h.request _ _ _ _).of_eq e
  · exact h

theorem State.Keeps.undo {s₀ s : State} (hs : s₀.Keeps s) (s1 : State) : s₀.Keeps (s.undo s1) := by
  grind [State.undo, State.Keeps.rest]

theorem State.Keeps.readPiece {s₀ s : State} (hs : s₀.Keeps s) (a : Agt) (va n : ℕ) : s₀.Keeps (s.readPiece a va n).2 := by
  grind [State.readPiece, State.Keeps.xlate, State.Keeps.homeRead, State.Keeps.markAccess, State.Keeps.hostRead, State.Keeps.mRes_marked,
    State.Keeps.remoteRead, State.Keeps.viewLoad, State.Keeps.rest]

theorem State.Keeps.readPieces {s₀ s : State} (hs : s₀.Keeps s) (a : Agt) (x1 : List (ℕ × ℕ)) : s₀.Keeps (s.readPieces a x1).2 := by
  fun_induction State.readPieces s a x1 <;>
    grind [State.readPieces, State.Keeps.readPiece, State.Keeps.rest]

theorem State.Keeps.vread {s₀ s : State} (hs : s₀.Keeps s) (a : Agt) (va n : ℕ) : s₀.Keeps (s.vread a va n).2 := by
  grind [State.vread, State.Keeps.readPieces]

theorem State.Keeps.writePiece {s₀ s : State} (hs : s₀.Keeps s) (a : Agt) (va : ℕ) (bs : List Byte) :
    s₀.Keeps (s.writePiece a va bs).2 := by
  grind [State.writePiece, State.Keeps.xlate, State.Keeps.noteStall, State.Keeps.homeWrite, State.Keeps.markAccess, State.Keeps.hostWrite,
    State.Keeps.mRes_marked, State.Keeps.remoteWrite, State.Keeps.viewStore, State.Keeps.rest]

theorem State.Keeps.writePieces {s₀ s : State} (hs : s₀.Keeps s) (a : Agt) (bs : List Byte) (base : ℕ) (x1 : List (ℕ × ℕ)) :
    s₀.Keeps (s.writePieces a bs base x1).2 := by
  fun_induction State.writePieces s a bs base x1 <;>
    grind [State.writePieces, State.Keeps.writePiece, State.Keeps.rest]

theorem State.Keeps.vwrite {s₀ s : State} (hs : s₀.Keeps s) (a : Agt) (va : ℕ) (bs : List Byte) : s₀.Keeps (s.vwrite a va bs).2 := by
  grind [State.vwrite, State.Keeps.writePieces]

theorem State.Keeps.askRemote {s₀ s : State} (hs : s₀.Keeps s) (a : Agt) (x1 : List (ℕ × ℕ)) : s₀.Keeps (s.askRemote a x1).2 := by
  fun_induction State.askRemote s a x1 <;>
    grind [State.askRemote, State.Keeps.xlate, State.Keeps.remoteRead, State.Keeps.rest]

theorem State.Keeps.askRanges {s₀ s : State} (hs : s₀.Keeps s) (a : Agt) (rs : List (ℕ × ℕ)) : s₀.Keeps (s.askRanges a rs).2 := by
  grind [State.askRanges, State.Keeps.askRemote]

theorem State.Keeps.probe {s₀ s : State} (hs : s₀.Keeps s) (who : Who) (k : AKind) (x1 : List (ℕ × ℕ)) :
    s₀.Keeps (s.probe who k x1).2 := by
  fun_induction State.probe s who k x1 <;>
    grind [State.probe, State.Keeps.xlate, State.Keeps.rest]

theorem State.Keeps.probeSegs {s₀ s : State} (hs : s₀.Keeps s) (who : Who) (k : AKind) (x1 : List (ℕ × ℕ)) :
    s₀.Keeps (s.probeSegs who k x1).2 := by
  fun_induction State.probeSegs s who k x1 <;>
    grind [State.probeSegs, State.Keeps.xlate, State.Keeps.viewProbe, State.Keeps.rest]

theorem State.Keeps.probeRanges {s₀ s : State} (hs : s₀.Keeps s) (who : Who) (k : AKind) (rs : List (ℕ × ℕ)) :
    s₀.Keeps (s.probeRanges who k rs).2 := by
  grind [State.probeRanges, State.Keeps.probeSegs]

theorem State.Keeps.vprobe {s₀ s : State} (hs : s₀.Keeps s) (who : Who) (k : AKind) (va n : ℕ) : s₀.Keeps (s.vprobe who k va n).2 := by
  grind [State.vprobe, State.Keeps.probe]

theorem State.Keeps.targets {s₀ s : State} (hs : s₀.Keeps s) (who : Who) (k : AKind) (x1 : List (ℕ × ℕ)) :
    s₀.Keeps (s.targets who k x1).2.2 := by
  fun_induction State.targets s who k x1 <;>
    grind [State.targets, State.Keeps.xlate, State.Keeps.rest]

theorem State.Keeps.modHz {s₀ s : State} (hs : s₀.Keeps s) (f : HzSt → HzSt) : s₀.Keeps (s.modHz f) := by
  grind [State.modHz, State.Keeps.setFld, State.Keeps.rest]

theorem State.Keeps.hzPut {s₀ s : State} (hs : s₀.Keeps s) (o : HzOp) : s₀.Keeps (s.hzPut o) := by
  grind [State.hzPut, State.Keeps.modHz, State.Keeps.rest]

theorem State.Keeps.hzOwe {s₀ s : State} (hs : s₀.Keeps s) (va : ℕ) (bs : List Byte) : s₀.Keeps (s.hzOwe va bs) := by
  grind [State.hzOwe, State.Keeps.rest]

theorem State.Keeps.hzStore {s₀ s : State} (hs : s₀.Keeps s) (va : ℕ) (bs : List Byte) : s₀.Keeps (s.hzStore va bs) := by
  grind [State.hzStore, State.Keeps.hzOwe, State.Keeps.vwrite, State.Keeps.undo, State.Keeps.rest]

theorem State.Keeps.retryHz {s₀ s : State} (hs : s₀.Keeps s) : s₀.Keeps (s.retryHz) := by
  grind [State.retryHz, State.Keeps.hzStore, State.Keeps.rest, State.Keeps.foldl]

theorem State.Keeps.hzWriteBlock {s₀ s : State} (hs : s₀.Keeps s) (va : W64) (seq cause : ℕ) (v : HzVal) (res : List W64) :
    s₀.Keeps (s.hzWriteBlock va seq cause v res) := by
  grind [State.hzWriteBlock, State.Keeps.hzStore]

theorem State.Keeps.hzDeliver {s₀ s : State} (hs : s₀.Keeps s) (o : HzOp) (v : HzVal) (cause : ℕ) (res : List W64) :
    s₀.Keeps (s.hzDeliver o v cause res) := by
  grind [State.hzDeliver, State.Keeps.inc, State.Keeps.setFld, State.Keeps.hzWriteBlock, State.Keeps.rest]

theorem State.Keeps.hzEnd {s₀ s : State} (hs : s₀.Keeps s) (o : HzOp) (cause : ℕ) (res : List W64) :
    s₀.Keeps (s.hzEnd o cause res) := by
  grind [State.hzEnd, State.Keeps.modHz, State.Keeps.hzDeliver, State.Keeps.rest]

theorem State.Keeps.hzAbort {s₀ s : State} (hs : s₀.Keeps s) (o : HzOp) (cause : ℕ) (but : Option ℕ) :
    s₀.Keeps (s.hzAbort o cause but) := by
  grind [State.hzAbort, State.Keeps.send, State.Keeps.hzEnd, State.Keeps.foldl]

theorem State.Keeps.hzProgress {s₀ s : State} (hs : s₀.Keeps s) (o : HzOp) : s₀.Keeps (s.hzProgress o) := by
  grind [State.hzProgress, State.Keeps.hzAbort, State.Keeps.send, State.Keeps.hzPut, State.Keeps.hzEnd, State.Keeps.rest, State.Keeps.foldl]

theorem State.Keeps.hzContribute {s₀ s : State} (hs : s₀.Keeps s) (gid : ℕ) (b : Bool) (v : HzVal) (block : Option W64) :
    s₀.Keeps (s.hzContribute gid b v block) := by
  grind [State.hzContribute, State.Keeps.modHz, State.Keeps.hzDeliver, State.Keeps.hzPut, State.Keeps.hzAbort, State.Keeps.hzProgress,
    State.Keeps.rest]

theorem State.Keeps.hzDown {s₀ s : State} (hs : s₀.Keeps s) (o : HzOp) (p : HzPacket) : s₀.Keeps (s.hzDown o p) := by
  grind [State.hzDown, State.Keeps.hzEnd, State.Keeps.send, State.Keeps.rest, State.Keeps.foldl]

theorem State.Keeps.hzAccept {s₀ s : State} (hs : s₀.Keeps s) (o : HzOp) (p : HzPacket) : s₀.Keeps (s.hzAccept o p) := by
  grind [State.hzAccept, State.Keeps.hzAbort, State.Keeps.reportC, State.Keeps.hzProgress, State.Keeps.hzPut, State.Keeps.hzDown,
    State.Keeps.rest]

theorem State.Keeps.hzIn {s₀ s : State} (hs : s₀.Keeps s) (p : HzPacket) : s₀.Keeps (s.hzIn p) := by
  grind [State.hzIn, State.Keeps.modHz, State.Keeps.inc, State.Keeps.hzAccept, State.Keeps.rest]

theorem State.Keeps.hzRetry {s₀ s : State} (hs : s₀.Keeps s) (x1 : ℕ) : s₀.Keeps (s.hzRetry x1) := by
  fun_induction State.hzRetry s x1 <;>
    grind [State.hzRetry, State.Keeps.hzIn, State.Keeps.modHz, State.Keeps.rest, State.Keeps.foldl]

theorem State.Keeps.hzBegin {s₀ s : State} (hs : s₀.Keeps s) (x1 : List (ℕ × HzVal)) : s₀.Keeps (s.hzBegin x1) := by
  fun_induction State.hzBegin s x1 <;>
    grind [State.hzBegin, State.Keeps.hzContribute, State.Keeps.modHz, State.Keeps.rest]

theorem State.Keeps.hzSettle {s₀ s : State} (hs : s₀.Keeps s) : s₀.Keeps (s.hzSettle) := by
  grind [State.hzSettle, State.Keeps.hzBegin, State.Keeps.hzRetry]

theorem State.Keeps.hzAborts {s₀ s : State} (hs : s₀.Keeps s) (cause : ℕ) (l : List HzOp) : s₀.Keeps (s.hzAborts cause l) := by
  grind [State.hzAborts, State.Keeps.hzAbort, State.Keeps.foldl]

theorem State.Keeps.hzAbortAll {s₀ s : State} (hs : s₀.Keeps s) (cause : ℕ) : s₀.Keeps (s.hzAbortAll cause) := by
  grind [State.hzAbortAll, State.Keeps.hzAborts, State.Keeps.hzSettle]

theorem State.Keeps.hzEdges {s₀ s : State} (hs : s₀.Keeps s) : s₀.Keeps (s.hzEdges) := by
  grind [State.hzEdges, State.Keeps.hzSettle, State.Keeps.hzAbort, State.Keeps.foldl]

theorem State.Keeps.hzBoundary {s₀ s : State} (hs : s₀.Keeps s) (gid : ℕ) (ops : List ℕ) (vals : List W64) :
    s₀.Keeps (s.hzBoundary gid ops vals) := by
  grind [State.hzBoundary, State.Keeps.hzBegin, State.Keeps.modHz, State.Keeps.rest]

theorem State.Keeps.putGroup {s₀ s : State} (hs : s₀.Keeps s) (gid nmem rank job rt qb ql : ℕ) (ids : List ℕ) :
    s₀.Keeps (s.putGroup gid nmem rank job rt qb ql ids) := by
  grind [State.putGroup, State.Keeps.hzSettle, State.Keeps.modHz, State.Keeps.putBar, State.Keeps.rest]

theorem State.Keeps.dropGroup {s₀ s : State} (hs : s₀.Keeps s) (gid : ℕ) : s₀.Keeps (s.dropGroup gid) := by
  grind [State.dropGroup, State.Keeps.modHz, State.Keeps.putBarNat, State.Keeps.rest]

theorem State.Keeps.createGroup0 {s₀ s : State} (hs : s₀.Keeps s) (job : ℕ) : s₀.Keeps (s.createGroup0 job) := by
  grind [State.createGroup0, State.Keeps.putGroup]

theorem State.Keeps.dropGroups {s₀ s : State} (hs : s₀.Keeps s) : s₀.Keeps (s.dropGroups) := by
  grind [State.dropGroups, State.Keeps.modHz, State.Keeps.dropGroup, State.Keeps.rest, State.Keeps.foldl]

theorem State.Keeps.setMat {s₀ s : State} (hs : s₀.Keeps s) (g : ℕ) (m : Matrix) : s₀.Keeps (s.setMat g m) := by
  grind [State.setMat, State.Keeps.rest]

theorem State.Keeps.setEw {s₀ s : State} (hs : s₀.Keeps s) (c : ℕ) (e : Ew) : s₀.Keeps (s.setEw c e) := by
  grind [State.setEw, State.Keeps.rest]

theorem State.Keeps.releaseEngines {s₀ s : State} (hs : s₀.Keeps s) (t : Tid) : s₀.Keeps (s.releaseEngines t) := by
  grind [State.releaseEngines, State.Keeps.dropGot, State.Keeps.setMat, State.Keeps.setEw]

theorem State.Keeps.queueNotice {s₀ s : State} (hs : s₀.Keeps s) (n : Notice) : s₀.Keeps (s.queueNotice n) := by
  grind [State.queueNotice, State.Keeps.rest]

theorem State.Keeps.toFaulted {s₀ s : State} (hs : s₀.Keeps s) (t : Tid) (f : FaultArg) (code inner : ℕ) :
    s₀.Keeps (s.toFaulted t f code inner) := by
  grind [State.toFaulted, State.Keeps.modCtx, State.Keeps.queueNotice]

theorem State.Keeps.takeFault {s₀ s : State} (hs : s₀.Keeps s) (t : Tid) (f : FaultArg) : s₀.Keeps (s.takeFault t f) := by
  grind [State.takeFault, State.Keeps.toFaulted, State.Keeps.modCtx]

theorem State.Keeps.modLaunches {s₀ s : State} (hs : s₀.Keeps s) (f : List Launch → List Launch) : s₀.Keeps (s.modLaunches f) := by
  grind [State.modLaunches, State.Keeps.rest]

theorem State.Keeps.modLaunch {s₀ s : State} (hs : s₀.Keeps s) (id : ℕ) (f : Launch → Launch) : s₀.Keeps (s.modLaunch id f) := by
  grind [State.modLaunch, State.Keeps.modLaunches]

theorem State.Keeps.writeStatus {s₀ s : State} (hs : s₀.Keeps s) (l : Launch) (v : ℕ) : s₀.Keeps (s.writeStatus l v).2 := by
  generalize hr : State.writeStatus s l v = r
  generalize hf : State.writeStatus = f at hr
  delta State.writeStatus at hf
  subst hf
  beta_reduce at hr
  have hv := fun a va bs => hs.vwrite a va bs
  have hw := fun h k bs => hs.homeWrite h k bs
  have hn := fun k => hs.noteStall k
  have hf := fun t (h : s₀.Keeps t) f b => h.setFlag f b
  generalize State.vwrite = g at hv hr
  generalize State.homeWrite = g2 at hw hr
  grind

theorem State.Keeps.closeLaunch {s₀ s : State} (hs : s₀.Keeps s) (id : ℕ) : s₀.Keeps (s.closeLaunch id) := by
  grind [State.closeLaunch, State.Keeps.writeStatus, State.Keeps.modLaunches, State.Keeps.rest]

theorem State.Keeps.retryLaunches {s₀ s : State} (hs : s₀.Keeps s) : s₀.Keeps (s.retryLaunches) := by
  grind [State.retryLaunches, State.Keeps.closeLaunch, State.Keeps.foldl]

theorem State.Keeps.launchEnd {s₀ s : State} (hs : s₀.Keeps s) (id : ℕ) (byFault : Bool) : s₀.Keeps (s.launchEnd id byFault) := by
  grind [State.launchEnd, State.Keeps.addCounter, State.Keeps.closeLaunch, State.Keeps.modLaunch, State.Keeps.rest]

theorem State.Keeps.freeCtx {s₀ s : State} (hs : s₀.Keeps s) (t : Tid) : s₀.Keeps (s.freeCtx t) := by
  grind [State.freeCtx, State.Keeps.setCtx]

theorem State.Keeps.endThread {s₀ s : State} (hs : s₀.Keeps s) (t : Tid) (byFault : Bool) : s₀.Keeps (s.endThread t byFault) := by
  grind [State.endThread, State.Keeps.freeCtx, State.Keeps.releaseEngines, State.Keeps.launchEnd, State.Keeps.rest]

theorem State.Keeps.stopNow {s₀ s : State} (hs : s₀.Keeps s) (t : Tid) (gs : Option ℕ) : s₀.Keeps (s.stopNow t gs) := by
  grind [State.stopNow, State.Keeps.takeFault, State.Keeps.modCtx, State.Keeps.toFaulted, State.Keeps.rest]

theorem State.Keeps.stopThread {s₀ s : State} (hs : s₀.Keeps s) (t : Tid) : s₀.Keeps (s.stopThread t) := by
  grind [State.stopThread, State.Keeps.modCtx, State.Keeps.stopNow, State.Keeps.rest]

theorem State.Keeps.stopAll {s₀ s : State} (hs : s₀.Keeps s) : s₀.Keeps (s.stopAll) := by
  grind [State.stopAll, State.Keeps.toFaulted, State.Keeps.modCtx, State.Keeps.rest, State.Keeps.foldl]

theorem State.Keeps.writeNotice {s₀ s : State} (hs : s₀.Keeps s) : s₀.Keeps (s.writeNotice) := by
  generalize hr : State.writeNotice s = r
  generalize hf : State.writeNotice = f at hr
  delta State.writeNotice at hf
  subst hf
  beta_reduce at hr
  have hv := fun a va bs => hs.vwrite a va bs
  have hi := fun t (h : s₀.Keeps t) x f u g => ((h.updThr x).inc f).modCtx u g
  have hf := fun t (h : s₀.Keeps t) f b f' b' => (h.setFlag f b).setFlag f' b'
  generalize State.vwrite = g at hv hr
  generalize State.fqFull = g1 at hr
  generalize State.fqLog = g2 at hr
  generalize Notice.bytes = g3 at hr
  grind

theorem State.Keeps.fetch {s₀ s : State} (hs : s₀.Keeps s) (t : Tid) : s₀.Keeps (s.fetch t).2 := by
  grind [State.fetch, State.Keeps.xlate, State.Keeps.markAccess, State.Keeps.rest]

theorem State.Keeps.settle {s₀ : State} (t : Tid) (i : Instr) (x1 : TRes) (hs : s₀.Keeps x1.state) :
    s₀.Keeps (State.settle t i x1) := by
  unfold State.settle
  grind [TRes.state, State.Keeps.modCtx, State.Keeps.stopNow, State.Keeps.takeFault]

theorem State.Keeps.unstep {s₀ s : State} (hs : s₀.Keeps s) (h : ℕ) (f : State → State) (h_f : ∀ v1, s₀.Keeps v1 → s₀.Keeps (f v1)) :
    s₀.Keeps (s.unstep h f) := by
  grind [State.unstep, State.Keeps.rest]

theorem State.Keeps.issue {s₀ s : State} (hs : s₀.Keeps s) (t : Tid) (i : Instr) (p : Prof) (body : State → TRes) (h_body : ∀ v1, s₀.Keeps
    v1 → s₀.Keeps (body v1).state) :
    s₀.Keeps (s.issue t i p body) := by
  grind [State.issue, TRes.state, State.Keeps.unstep, State.Keeps.takeFault, State.Keeps.modCtx, State.Keeps.fetch, State.Keeps.settle,
    State.Keeps.rest]

theorem State.Keeps.issueCtx {s₀ s : State} (hs : s₀.Keeps s) (t : Tid) (i : Instr) (p : Prof) (f : Ctx → Option Ctx) :
    s₀.Keeps (s.issueCtx t i p f) := by
  unfold State.issueCtx
  refine hs.issue _ _ _ _ fun t h => ?_
  split
  · exact h.setCtx _ _
  · exact h

theorem State.Keeps.fpInsn {s₀ s : State} (hs : s₀.Keeps s) (t : Tid) (i : Instr) (rm : ℕ) (op : ℕ → Ctx → Ctx) :
    s₀.Keeps (s.fpInsn t i rm op) := by
  grind [State.fpInsn, State.Keeps.issueCtx]

theorem State.Keeps.fpBin {s₀ s : State} (hs : s₀.Keeps s) (t : Tid) (i : Instr) (f : FW) (rm d a b : ℕ) (op : FFmt → ℕ → ℕ → ℕ → ℕ × Flags)
    :
    s₀.Keeps (s.fpBin t i f rm d a b op) := by
  grind [State.fpBin, State.Keeps.fpInsn]

theorem State.Keeps.fpUn {s₀ s : State} (hs : s₀.Keeps s) (t : Tid) (i : Instr) (f : FW) (rm d a : ℕ) (op : FFmt → ℕ → ℕ → ℕ × Flags) :
    s₀.Keeps (s.fpUn t i f rm d a op) := by
  grind [State.fpUn, State.Keeps.fpInsn]

theorem execFadd_answers (s : State) (t : Tid) (f : FW) (rm : Fin 8) (d a b : Reg) : s.Answers (execFadd t f rm d a b s) := by
  have hs := State.Keeps.refl s
  unfold execFadd
  grind [State.Answers.next, State.Keeps.fpBin]

theorem execFsub_answers (s : State) (t : Tid) (f : FW) (rm : Fin 8) (d a b : Reg) : s.Answers (execFsub t f rm d a b s) := by
  have hs := State.Keeps.refl s
  unfold execFsub
  grind [State.Answers.next, State.Keeps.fpBin]

theorem execFmul_answers (s : State) (t : Tid) (f : FW) (rm : Fin 8) (d a b : Reg) : s.Answers (execFmul t f rm d a b s) := by
  have hs := State.Keeps.refl s
  unfold execFmul
  grind [State.Answers.next, State.Keeps.fpBin]

theorem execFdiv_answers (s : State) (t : Tid) (f : FW) (rm : Fin 8) (d a b : Reg) : s.Answers (execFdiv t f rm d a b s) := by
  have hs := State.Keeps.refl s
  unfold execFdiv
  grind [State.Answers.next, State.Keeps.fpBin]

theorem execFsqrt_answers (s : State) (t : Tid) (f : FW) (rm : Fin 8) (d a b : Reg) : s.Answers (execFsqrt t f rm d a b s) := by
  have hs := State.Keeps.refl s
  unfold execFsqrt
  grind [State.Answers.next, State.Keeps.issueCtx]

theorem execFmin_answers (s : State) (t : Tid) (f : FW) (rm : Fin 8) (d a b : Reg) : s.Answers (execFmin t f rm d a b s) := by
  have hs := State.Keeps.refl s
  unfold execFmin
  grind [State.Answers.next, State.Keeps.fpBin, State.Keeps.rest]

theorem execFmax_answers (s : State) (t : Tid) (f : FW) (rm : Fin 8) (d a b : Reg) : s.Answers (execFmax t f rm d a b s) := by
  have hs := State.Keeps.refl s
  unfold execFmax
  grind [State.Answers.next, State.Keeps.fpBin, State.Keeps.rest]

theorem execFrnd_answers (s : State) (t : Tid) (f : FW) (rm : Fin 8) (d a : Reg) : s.Answers (execFrnd t f rm d a s) := by
  have hs := State.Keeps.refl s
  unfold execFrnd
  grind [State.Answers.next, State.Keeps.fpUn, State.Keeps.rest]

theorem execFneg_answers (s : State) (t : Tid) (f : FW) (rm : Fin 8) (d a : Reg) : s.Answers (execFneg t f rm d a s) := by
  have hs := State.Keeps.refl s
  unfold execFneg
  grind [State.Answers.next, State.Keeps.fpUn, State.Keeps.rest]

theorem execFabs_answers (s : State) (t : Tid) (f : FW) (rm : Fin 8) (d a : Reg) : s.Answers (execFabs t f rm d a s) := by
  have hs := State.Keeps.refl s
  unfold execFabs
  grind [State.Answers.next, State.Keeps.fpUn, State.Keeps.rest]

theorem execFcpsgn_answers (s : State) (t : Tid) (f : FW) (rm : Fin 8) (d a b : Reg) : s.Answers (execFcpsgn t f rm d a b s) := by
  have hs := State.Keeps.refl s
  unfold execFcpsgn
  grind [State.Answers.next, State.Keeps.fpBin]

theorem execFrem_answers (s : State) (t : Tid) (f : FW) (rm : Fin 8) (d a b : Reg) : s.Answers (execFrem t f rm d a b s) := by
  have hs := State.Keeps.refl s
  unfold execFrem
  grind [State.Answers.next, State.Keeps.fpBin]

theorem execFscaleb_answers (s : State) (t : Tid) (f : FW) (rm : Fin 8) (d a b : Reg) : s.Answers (execFscaleb t f rm d a b s) := by
  have hs := State.Keeps.refl s
  unfold execFscaleb
  grind [State.Answers.next, State.Keeps.fpInsn]

theorem execFlogb_answers (s : State) (t : Tid) (f : FW) (rm : Fin 8) (d a : Reg) : s.Answers (execFlogb t f rm d a s) := by
  have hs := State.Keeps.refl s
  unfold execFlogb
  grind [State.Answers.next, State.Keeps.fpInsn]

theorem execFnextup_answers (s : State) (t : Tid) (f : FW) (rm : Fin 8) (d a : Reg) : s.Answers (execFnextup t f rm d a s) := by
  have hs := State.Keeps.refl s
  unfold execFnextup
  grind [State.Answers.next, State.Keeps.fpUn]

theorem execFnextdn_answers (s : State) (t : Tid) (f : FW) (rm : Fin 8) (d a : Reg) : s.Answers (execFnextdn t f rm d a s) := by
  have hs := State.Keeps.refl s
  unfold execFnextdn
  grind [State.Answers.next, State.Keeps.fpUn]

theorem execFma_answers (s : State) (t : Tid) (f : FW) (variant : Fin 4) (rm : Fin 8) (d a b c : Reg) :
    s.Answers (execFma t f variant rm d a b c s) := by
  have hs := State.Keeps.refl s
  unfold execFma
  grind [State.Answers.next, State.Keeps.fpInsn]

theorem execFcmp_answers (s : State) (t : Tid) (f : FW) (pred : Fin 32) (d a b : Reg) : s.Answers (execFcmp t f pred d a b s) := by
  have hs := State.Keeps.refl s
  unfold execFcmp
  grind [State.Answers.next, State.Keeps.issueCtx, State.Keeps.rest]

theorem execFclass_answers (s : State) (t : Tid) (f : FW) (d a : Reg) : s.Answers (execFclass t f d a s) := by
  have hs := State.Keeps.refl s
  unfold execFclass
  grind [State.Answers.next, State.Keeps.issueCtx]

theorem execFcvt_answers (s : State) (t : Tid) (src tgt : Fin 32) (rm : Fin 8) (sat : Bool) (d a : Reg) :
    s.Answers (execFcvt t src tgt rm sat d a s) := by
  have hs := State.Keeps.refl s
  unfold execFcvt
  grind [State.Answers.next, TRes.state, State.Keeps.issue, State.Keeps.draw, State.Keeps.setCtx]

theorem State.Keeps.putResult {s₀ s : State} (hs : s₀.Keeps s) (t : Tid) (d w v : ℕ) : s₀.Keeps (s.putResult t d w v) := by
  grind [State.putResult, State.Keeps.modCtx]

theorem State.Keeps.acquired {s₀ s : State} (hs : s₀.Keeps s) (t : Tid) : s₀.Keeps (s.acquired t) := by
  grind [State.acquired, State.Keeps.dropViewLines]

theorem State.Keeps.biGate {s₀ s : State} (hs : s₀.Keeps s) (t : Tid) (key n : ℕ) (write : Bool) (h : Holder) :
    s₀.Keeps (s.biGate t key n write h).2 := by
  grind [State.biGate, State.Keeps.biDone, State.Keeps.biSend, State.Keeps.foldl]

theorem State.Keeps.amoDone {s₀ s : State} (hs : s₀.Keeps s) (t : Tid) (x : AmoArg) (old : ℕ) : s₀.Keeps (s.amoDone t x old) := by
  grind [State.amoDone, State.Keeps.putResult, State.Keeps.acquired]

theorem State.Keeps.remoteErr {s₀ s : State} (hs : s₀.Keeps s) (t : Tid) (d w cause port : ℕ) (va : W64) :
    s₀.Keeps (s.remoteErr t d w cause port va).state := by
  grind [State.remoteErr, TRes.state, State.Keeps.putResult]

theorem State.Keeps.amoRemote {s₀ s : State} (hs : s₀.Keeps s) (t : Tid) (x : AmoArg) (addr : ℕ) :
    s₀.Keeps (s.amoRemote t x addr).state := by
  grind [State.amoRemote, TRes.state, State.Keeps.turned, State.Keeps.amoDone, State.Keeps.remoteErr, State.Keeps.refusalNote,
    State.Keeps.request, State.Keeps.modCtx, State.Keeps.rest]

theorem State.Keeps.tRes_marked {s₀ : State} (va : ℕ) (k : AKind) (x1 : TRes) (hs : s₀.Keeps x1.state) :
    s₀.Keeps (TRes.marked va k x1).state := by
  unfold TRes.marked
  grind [TRes.state, State.Keeps.markAccess]

theorem State.Keeps.amoBody {s₀ s : State} (hs : s₀.Keeps s) (t : Tid) (x : AmoArg) (rel : Bool) :
    s₀.Keeps (s.amoBody t x rel).state := by
  unfold State.amoBody
  split
  · exact hs
  · split
    · exact hs
    · split
      · next e => exact (hs.xlate _ _ _).of_eq e
      · next e => exact (hs.xlate _ _ _).of_eq e
      · next e =>
        have h1 := (hs.xlate _ _ _).of_eq e
        split
        · exact h1
        · split
          · exact h1.noteStall _
          · split
            · exact h1
            · split
              · next e => exact (h1.biGate _ _ _ _ _).of_eq e
              · next e =>
                have h2 := (h1.biGate _ _ _ _ _).of_eq e
                split
                · next e => exact (((h2.homeAmo _ _ _ _ _ _).of_eq e).amoDone _ _ _).markAccess _ _
                · next e => exact (h2.homeAmo _ _ _ _ _ _).of_eq e
      · next e => exact (hs.xlate _ _ _).of_eq e
      · next e => exact (((hs.xlate _ _ _).of_eq e).amoRemote _ _ _).tRes_marked _ _
      · next e => exact (hs.xlate _ _ _).of_eq e

theorem State.Keeps.amoInsn {s₀ s : State} (hs : s₀.Keeps s) (t : Tid) (i : Instr) (aop : ℕ) (w : MemW) (d a b : Reg) (ord : Fin 8) :
    s₀.Keeps (s.amoInsn t i aop w d a b ord) := by
  unfold State.amoInsn
  refine hs.issue _ _ _ _ fun t h => ?_
  dsimp only
  split
  · exact h
  · exact h.amoBody _ _ _

theorem execAmoOp_answers (s : State) (t : Tid) (op : AmoOp) (w : MemW) (d a b : Reg) (ord : Fin 8) :
    s.Answers (execAmoOp t op w d a b ord s) := by
  have hs := State.Keeps.refl s
  unfold execAmoOp
  grind [State.Answers.next, State.Keeps.amoInsn]

theorem execAmoCas_answers (s : State) (t : Tid) (w : MemW) (d a b : Reg) (ord : Fin 8) : s.Answers (execAmoCas t w d a b ord s) := by
  have hs := State.Keeps.refl s
  unfold execAmoCas
  grind [State.Answers.next, State.Keeps.amoInsn]

theorem execAmoFadd_answers (s : State) (t : Tid) (w : MemW) (d a b : Reg) (ord : Fin 8) : s.Answers (execAmoFadd t w d a b ord s) := by
  have hs := State.Keeps.refl s
  unfold execAmoFadd
  grind [State.Answers.next, State.Keeps.amoInsn]

theorem execAmoFmin_answers (s : State) (t : Tid) (w : MemW) (d a b : Reg) (ord : Fin 8) : s.Answers (execAmoFmin t w d a b ord s) := by
  have hs := State.Keeps.refl s
  unfold execAmoFmin
  grind [State.Answers.next, State.Keeps.amoInsn]

theorem execAmoFmax_answers (s : State) (t : Tid) (w : MemW) (d a b : Reg) (ord : Fin 8) : s.Answers (execAmoFmax t w d a b ord s) := by
  have hs := State.Keeps.refl s
  unfold execAmoFmax
  grind [State.Answers.next, State.Keeps.amoInsn]

theorem execFenceAcq_answers (s : State) (t : Tid) : s.Answers (execFenceAcq t s) := by
  have hs := State.Keeps.refl s
  unfold execFenceAcq
  grind [State.Answers.next, TRes.state, State.Keeps.issue, State.Keeps.acquired]

theorem execFenceRel_answers (s : State) (t : Tid) : s.Answers (execFenceRel t s) := by
  have hs := State.Keeps.refl s
  unfold execFenceRel
  grind [State.Answers.next, TRes.state, State.Keeps.issue]

theorem execFenceFull_answers (s : State) (t : Tid) : s.Answers (execFenceFull t s) := by
  have hs := State.Keeps.refl s
  unfold execFenceFull
  grind [State.Answers.next, TRes.state, State.Keeps.issue, State.Keeps.acquired, State.Keeps.rest]

theorem execLwatch_answers (s : State) (t : Tid) (a : Reg) : s.Answers (execLwatch t a s) := by
  have hs := State.Keeps.refl s
  unfold execLwatch
  grind [State.Answers.next, TRes.state, State.Keeps.issue, State.Keeps.xlate, State.Keeps.setCtx, State.Keeps.rest]

theorem execLwait_answers (s : State) (t : Tid) (d a : Reg) : s.Answers (execLwait t d a s) := by
  have hs := State.Keeps.refl s
  unfold execLwait
  grind [State.Answers.next, TRes.state, State.Keeps.issue, State.Keeps.setCtx, State.Keeps.rest]

theorem execLwaitTimeout_answers (s : State) (t : Tid) : s.Answers (execLwaitTimeout t s) := by
  have hs := State.Keeps.refl s
  unfold execLwaitTimeout
  grind [State.Answers.next, TRes.state, State.Keeps.setCtx, State.Keeps.rest]

theorem execSrd_answers (s : State) (t : Tid) (d : Reg) (n : BitVec 16) : s.Answers (execSrd t d n s) := by
  have hs := State.Keeps.refl s
  unfold execSrd
  grind [State.Answers.next, TRes.state, State.Keeps.issue, State.Keeps.modCtx, State.Keeps.draw, State.Keeps.rest]

theorem execSwr_answers (s : State) (t : Tid) (a : Reg) (n : BitVec 16) : s.Answers (execSwr t a n s) := by
  have hs := State.Keeps.refl s
  unfold execSwr
  grind [State.Answers.next, TRes.state, State.Keeps.issue, State.Keeps.modCtx]

theorem execRngU_answers (s : State) (t : Tid) (d : Reg) : s.Answers (execRngU t d s) := by
  have hs := State.Keeps.refl s
  unfold execRngU
  grind [State.Answers.next, TRes.state, State.Keeps.issue, State.Keeps.modCtx, State.Keeps.draw]

theorem State.Keeps.gsDone {s₀ s : State} (hs : s₀.Keeps s) (t : Tid) : s₀.Keeps (s.gsDone t) := by
  grind [State.gsDone, State.Keeps.modCtx, State.Keeps.rest]

theorem State.Keeps.gsWait {s₀ s : State} (hs : s₀.Keeps s) (t : Tid) (g : GElem) : s₀.Keeps (s.gsWait t g).state := by
  grind [State.gsWait, TRes.state, State.Keeps.modCtx, State.Keeps.rest]

theorem State.Keeps.gatherGo {s₀ s : State} (hs : s₀.Keeps s) (t : Tid) (w parts : ℕ) (rd : State → ℕ → MRes × State) (bad : State → ℕ → ℕ)
    (put : State → GElem → List Byte → State) (x1 : List GElem) (h_rd : ∀ v1 v2, s₀.Keeps v1 → s₀.Keeps (rd v1 v2).2) (h_put : ∀ v1 v2 v3,
    s₀.Keeps v1 → s₀.Keeps (put v1 v2 v3)) :
    s₀.Keeps (s.gatherGo t w parts rd bad put x1).state := by
  fun_induction State.gatherGo s t w parts rd bad put x1 <;>
    grind [State.gatherGo, TRes.state, State.Keeps.gsDone, State.Keeps.dropGot, State.Keeps.gsWait, State.Keeps.rest]

theorem State.Keeps.scatterGo {s₀ s : State} (hs : s₀.Keeps s) (t : Tid) (wr : State → GElem → MRes × State) (bad : State → ℕ → ℕ) (x1 :
    List GElem) (h_wr : ∀ v1 v2, s₀.Keeps v1 → s₀.Keeps (wr v1 v2).2) :
    s₀.Keeps (s.scatterGo t wr bad x1).state := by
  fun_induction State.scatterGo s t wr bad x1 <;>
    grind [State.scatterGo, TRes.state, State.Keeps.gsDone, State.Keeps.gsWait, State.Keeps.rest]

theorem State.Keeps.mRes_lateStore {s₀ : State} (t : Tid) (va : ℕ) (x1 : MRes × State) (hs : s₀.Keeps x1.2) :
    s₀.Keeps (MRes.lateStore t va x1).2 := by
  unfold MRes.lateStore
  grind [State.Keeps.modCtx, State.Keeps.rest]

theorem State.Keeps.canCheck {s₀ s : State} (hs : s₀.Keeps s) : s₀.Keeps (s.canCheck).2 := by
  generalize hr : State.canCheck s = r
  generalize hf : State.canCheck = f at hr
  delta State.canCheck at hf
  subst hf
  beta_reduce at hr
  have hv := fun t (h : s₀.Keeps t) a va n => h.vread a va n
  generalize State.vread = g at hv hr
  grind

theorem State.Keeps.modCan {s₀ s : State} (hs : s₀.Keeps s) (f : CanSt → CanSt) : s₀.Keeps (s.modCan f) := by
  grind [State.modCan, State.Keeps.setFld, State.Keeps.rest]

theorem State.Keeps.canSend {s₀ s : State} (hs : s₀.Keeps s) (kind dst arg tag : ℕ) (data : List Byte) :
    s₀.Keeps (s.canSend kind dst arg tag data) := by
  grind [State.canSend, State.Keeps.send, State.Keeps.rest]

theorem State.Keeps.canRead {s₀ s : State} (hs : s₀.Keeps s) (m : Manifest) (x1 x2 : ℕ) : s₀.Keeps (s.canRead m x1 x2).2 := by
  fun_induction State.canRead s m x1 x2 <;>
    grind [State.canRead, State.Keeps.homeRead, State.Keeps.rest]

theorem State.Keeps.canChunk {s₀ s : State} (hs : s₀.Keeps s) (m : Manifest) (j : ℕ) : s₀.Keeps (s.canChunk m j).2 := by
  grind [State.canChunk, State.Keeps.canRead]

theorem State.Keeps.canSendChunk {s₀ s : State} (hs : s₀.Keeps s) (dst j : ℕ) : s₀.Keeps (s.canSendChunk dst j) := by
  generalize hf : State.canSendChunk = f
  delta State.canSendChunk at hf
  subst hf
  beta_reduce
  split
  · exact hs
  · split
    · exact hs
    · split
      · next e => exact ((hs.canChunk _ _).of_eq e).foldl _ (fun _ _ h => h.canSend _ _ _ _ _) _
      · next e => exact (hs.canChunk _ _).of_eq e

theorem State.Keeps.canSendFrom {s₀ s : State} (hs : s₀.Keeps s) (dst first : ℕ) : s₀.Keeps (s.canSendFrom dst first) := by
  grind [State.canSendFrom, State.Keeps.canSendChunk, State.Keeps.rest, State.Keeps.foldl]

theorem State.Keeps.canGo {s₀ s : State} (hs : s₀.Keeps s) : s₀.Keeps (s.canGo) := by
  grind [State.canGo, State.Keeps.setFld, State.Keeps.canSend, State.Keeps.foldl]

theorem State.Keeps.canDoneAt {s₀ s : State} (hs : s₀.Keeps s) (member : ℕ) : s₀.Keeps (s.canDoneAt member) := by
  grind [State.canDoneAt, State.Keeps.modCan, State.Keeps.canGo, State.Keeps.rest]

theorem State.Keeps.canAllHeld {s₀ s : State} (hs : s₀.Keeps s) (m : Manifest) : s₀.Keeps (s.canAllHeld m) := by
  grind [State.canAllHeld, State.Keeps.setFld, State.Keeps.canDoneAt, State.Keeps.canSend]

theorem State.Keeps.canAccept {s₀ s : State} (hs : s₀.Keeps s) (join : Bool) (m : Manifest) : s₀.Keeps (s.canAccept join m) := by
  unfold State.canAccept
  grind [State.Keeps.setFld, State.Keeps.setFlag, State.Keeps.modCan, State.Keeps.canAllHeld, State.Keeps.canSendFrom, State.Keeps.canSend,
    State.Keeps.rest, State.Keeps.foldl]

theorem State.Keeps.canCommand {s₀ s : State} (hs : s₀.Keeps s) (cmd : ℕ) : s₀.Keeps (s.canCommand cmd) := by
  generalize hf : State.canCommand = f
  delta State.canCommand at hf
  subst hf
  beta_reduce
  split
  · exact hs
  · split
    · next e => exact (hs.canCheck.of_eq e).canAccept _ _
    · next e => exact (((hs.canCheck.of_eq e).setFld _ _).setFld _ _).modCan _
    · next e => exact (hs.canCheck.of_eq e).modCan _

theorem State.Keeps.canCmdWrite {s₀ s : State} (hs : s₀.Keeps s) (v : ℕ) : s₀.Keeps (s.canCmdWrite v) := by
  unfold State.canCmdWrite
  grind [State.Keeps.canCommand, State.Keeps.modCan, State.Keeps.setFld, State.Keeps.rest]

theorem State.Keeps.retryCan {s₀ s : State} (hs : s₀.Keeps s) : s₀.Keeps (s.retryCan) := by
  grind [State.retryCan, State.Keeps.canCommand, State.Keeps.modCan, State.Keeps.rest]

theorem State.Keeps.canReparent {s₀ s : State} (hs : s₀.Keeps s) (member parent : ℕ) (count : Bool) :
    s₀.Keeps (s.canReparent member parent count) := by
  grind [State.canReparent, State.Keeps.modCan, State.Keeps.setFld, State.Keeps.canSend, State.Keeps.rest]

theorem State.Keeps.canFailedRelay {s₀ s : State} (hs : s₀.Keeps s) (relay : ℕ) : s₀.Keeps (s.canFailedRelay relay) := by
  grind [State.canFailedRelay, State.Keeps.modCan, State.Keeps.canReparent, State.Keeps.rest, State.Keeps.foldl]

theorem State.Keeps.canReport {s₀ s : State} (hs : s₀.Keeps s) : s₀.Keeps (s.canReport) := by
  grind [State.canReport, State.Keeps.canSend, State.Keeps.rest]

theorem State.Keeps.canSpoil {s₀ s : State} (hs : s₀.Keeps s) (m : Manifest) (j : ℕ) : s₀.Keeps (s.canSpoil m j) := by
  grind [State.canSpoil, State.Keeps.homeWrite, State.Keeps.rest, State.Keeps.foldl]

theorem State.Keeps.canChunkEnd {s₀ s : State} (hs : s₀.Keeps s) (m : Manifest) (j : ℕ) : s₀.Keeps (s.canChunkEnd m j) := by
  generalize hr : State.canChunkEnd s m j = r
  generalize hf : State.canChunkEnd = f at hr
  delta State.canChunkEnd at hf
  subst hf
  beta_reduce at hr
  have h := hs.canChunk m j
  generalize s.canChunk m j = q at h hr
  obtain ⟨b, s1⟩ := q
  have h2 := fun f => ((h.canSpoil m j).modCan f).addSat fCan_DIGEST_FAIL 1
  subst hr
  exact .ite (.ite ((h.modCan _).canAllHeld _) (h.modCan _)) (.ite (h2 _).canReport ((h2 _).canSend _ _ _ _ _))

theorem State.Keeps.canPacket {s₀ s : State} (hs : s₀.Keeps s) (m : Manifest) (j off : ℕ) (data : List Byte) :
    s₀.Keeps (s.canPacket m j off data) := by
  grind [State.canPacket, State.Keeps.homeWrite, State.Keeps.canSend, State.Keeps.canChunkEnd, State.Keeps.rest, State.Keeps.foldl]

theorem State.Keeps.wakeUnit {s₀ s : State} (hs : s₀.Keeps s) (page : ℕ) : s₀.Keeps (s.wakeUnit page) := by
  grind [State.wakeUnit, State.Keeps.rest]

theorem State.Keeps.launchCheck {s₀ s : State} (hs : s₀.Keeps s) (d : List Byte) (l : Launch) : s₀.Keeps (s.launchCheck d l).2 := by
  grind [State.launchCheck, State.Keeps.xlate, State.Keeps.rest]

theorem State.Keeps.launchVerdict {s₀ s : State} (hs : s₀.Keeps s) (d : List Byte) (issuer : Tid) (sup ring : Bool) (va : Option W64) (key :
    ℕ) :
    s₀.Keeps (s.launchVerdict d issuer sup ring va key).2.2 := by
  grind [State.launchVerdict, State.Keeps.launchCheck, State.Keeps.rest]

theorem State.Keeps.addLaunch {s₀ s : State} (hs : s₀.Keeps s) (l : Launch) : s₀.Keeps (s.addLaunch l) := by
  grind [State.addLaunch, State.Keeps.wakeUnit, State.Keeps.rest, State.Keeps.foldl]

theorem execLaunch_answers (s : State) (t : Tid) (a : Reg) : s.Answers (execLaunch t a s) := by
  have hs := State.Keeps.refl s
  unfold execLaunch
  refine .next ?_
  have h0 := @State.Keeps.vprobe s
  generalize State.vprobe = g0 at h0 ⊢
  have h1 := @State.Keeps.vread s
  generalize State.vread = g1 at h1 ⊢
  have h2 := @State.Keeps.launchVerdict s
  generalize State.launchVerdict = g2 at h2 ⊢
  have h3 := @State.Keeps.vwrite s
  generalize State.vwrite = g3 at h3 ⊢
  as_aux_lemma =>
    refine hs.issue _ _ _ _ fun s1 k1 => ?_
    refine .iteState k1 ?_
    split
    · next e =>
      have k2 := (h0 k1 _ _ _ _).of_eq e
      split
      · next e =>
        have k3 := (h0 k2 _ _ _ _).of_eq e
        split
        · next e =>
          have k4 := (h1 k3 _ _ _).of_eq e
          split
          next e =>
          have k5 := (h2 k4 _ _ _ _ _ _).of_eq₂ e
          refine .iteState k5 ?_
          split
          · next e => have k6 := (h3 k5 _ _ _).of_eq e; exact .ite (k6.addLaunch _) k6
          all_goals next e => exact (h3 k5 _ _ _).of_eq e
        all_goals next e => exact (h1 k3 _ _ _).of_eq e
      all_goals next e => exact (h0 k2 _ _ _ _).of_eq e
    all_goals next e => exact (h0 k1 _ _ _ _).of_eq e

theorem State.Keeps.takeSplit {s₀ s : State} (hs : s₀.Keeps s) (l : Launch) (num : ℕ) : s₀.Keeps (s.takeSplit l num) := by
  grind [State.takeSplit, State.Keeps.setGrove]

theorem State.Keeps.startThread {s₀ s : State} (hs : s₀.Keeps s) (l : Launch) (i num : ℕ) : s₀.Keeps (s.startThread l i num) := by
  grind [State.startThread, State.Keeps.modLaunch, State.Keeps.setCtx, State.Keeps.takeSplit, State.Keeps.rest]

theorem State.Keeps.gangPlan {s₀ s : State} (hs : s₀.Keeps s) (l : Launch) (x1 : List ℕ) :
    ∀ o, s.gangPlan l x1 = some o → s₀.Keeps o := by
  fun_induction State.gangPlan s l x1 <;>
    grind [State.gangPlan, State.Keeps.startThread, State.Keeps.draw, State.Keeps.rest]

theorem execThreadStart_answers (s : State) (id idx num : ℕ) : s.Answers (execThreadStart id idx num s) := by
  have hs := State.Keeps.refl s
  unfold execThreadStart
  refine .next ?_
  split
  · exact hs
  · refine .ite hs ?_
    split
    · exact hs.wakeUnit _
    · refine .ite (.ite (hs.foldl _ (fun _ _ h => h.wakeUnit _) _) ?_) (hs.startThread _ _ _)
      cases hg : State.gangPlan _ _ _ with
      | none => exact hs
      | some u => exact (hs.startThread _ _ _).gangPlan _ _ _ hg

theorem State.Keeps.actOn {s₀ s : State} (hs : s₀.Keeps s) (t : Tid) (i : Instr) (a : Reg) (p : Prof) (ok : Ctx → Bool) (f : State → Tid →
    TRes) (h_f : ∀ v1 v2, s₀.Keeps v1 → s₀.Keeps (f v1 v2).state) :
    s₀.Keeps (s.actOn t i a p ok f) := by
  grind [State.actOn, TRes.state, State.Keeps.issue, State.Keeps.rest]

theorem execTstop_answers (s : State) (t : Tid) (a : Reg) : s.Answers (execTstop t a s) := by
  have hs := State.Keeps.refl s
  unfold execTstop
  grind [State.Answers.next, TRes.state, State.Keeps.actOn, State.Keeps.stopThread]

theorem execTresume_answers (s : State) (t : Tid) (a : Reg) : s.Answers (execTresume t a s) := by
  have hs := State.Keeps.refl s
  unfold execTresume
  grind [State.Answers.next, TRes.state, State.Keeps.actOn, State.Keeps.modCtx, State.Keeps.rest]

theorem execTend_answers (s : State) (t : Tid) (a : Reg) : s.Answers (execTend t a s) := by
  have hs := State.Keeps.refl s
  unfold execTend
  grind [State.Answers.next, TRes.state, State.Keeps.actOn, State.Keeps.endThread]

theorem execFret_answers (s : State) (t : Tid) : s.Answers (execFret t s) := by
  have hs := State.Keeps.refl s
  unfold execFret
  grind [State.Answers.next, TRes.state, State.Keeps.issue, State.Keeps.modCtx, State.Keeps.rest]

theorem execTlbinv_answers (s : State) (t : Tid) (a : Reg) : s.Answers (execTlbinv t a s) := by
  have hs := State.Keeps.refl s
  unfold execTlbinv
  grind [State.Answers.next, TRes.state, State.Keeps.issue, State.Keeps.rest]

theorem execFaultNoticeWrite_answers (s : State) : s.Answers (execFaultNoticeWrite s) := by
  have hs := State.Keeps.refl s
  unfold execFaultNoticeWrite
  grind [State.Answers.next, State.Keeps.writeNotice]

theorem State.Keeps.mxInsn {s₀ s : State} (hs : s₀.Keeps s) (t : Tid) (i : Instr) (async : Bool) (body : State → Matrix → TRes) (h_body : ∀
    v1 v2, s₀.Keeps v1 → s₀.Keeps (body v1 v2).state) :
    s₀.Keeps (s.mxInsn t i async body) := by
  grind [State.mxInsn, TRes.state, State.Keeps.issue, State.Keeps.setMat, State.Keeps.rest]

theorem State.Keeps.readFault {s₀ s : State} (hs : s₀.Keeps s) (va : W64) (x1 : MRes) : s₀.Keeps (readFault s va x1).state := by
  unfold Machine.readFault
  grind [TRes.state]

theorem execMepi_answers (s : State) (t : Tid) (a : Reg) : s.Answers (execMepi t a s) := by
  have hs := State.Keeps.refl s
  unfold execMepi
  have h0 := @State.Keeps.vread s
  generalize State.vread = g0 at h0 ⊢
  as_aux_lemma =>
    grind [State.Answers.next, TRes.state, State.Keeps.mxInsn, State.Keeps.setMat, State.Keeps.readFault, State.Keeps.rest]

theorem execMsarea_answers (s : State) (t : Tid) (a : Reg) : s.Answers (execMsarea t a s) := by
  have hs := State.Keeps.refl s
  unfold execMsarea
  grind [State.Answers.next, TRes.state, State.Keeps.mxInsn, State.Keeps.setMat, State.Keeps.rest]

theorem execMzero_answers (s : State) (t : Tid) (tile : Fin 2) : s.Answers (execMzero t tile s) := by
  have hs := State.Keeps.refl s
  unfold execMzero
  grind [State.Answers.next, TRes.state, State.Keeps.mxInsn, State.Keeps.setMat]

theorem execMstat_answers (s : State) (t : Tid) (d : Reg) (clr : Bool) : s.Answers (execMstat t d clr s) := by
  have hs := State.Keeps.refl s
  unfold execMstat
  grind [State.Answers.next, TRes.state, State.Keeps.mxInsn, State.Keeps.setMat, State.Keeps.modCtx, State.Keeps.rest]

theorem execMwait_answers (s : State) (t : Tid) (d : Reg) : s.Answers (execMwait t d s) := by
  have hs := State.Keeps.refl s
  unfold execMwait
  grind [State.Answers.next, TRes.state, State.Keeps.mxInsn, State.Keeps.modCtx]

theorem State.Keeps.opndBytes {s₀ s : State} (hs : s₀.Keeps s) (t : Tid) (m : Matrix) (isA : Bool) (va : W64) :
    s₀.Keeps (s.opndBytes t m isA va).2 := by
  grind [State.opndBytes, State.Keeps.vread, State.Keeps.rest]

theorem execMma_answers (s : State) (t : Tid) (tile : Fin 2) (d a b : Reg) : s.Answers (execMma t tile d a b s) := by
  have hs := State.Keeps.refl s
  unfold execMma
  refine .next ?_
  have h0 := @State.Keeps.opndBytes s
  generalize State.opndBytes = g0 at h0 ⊢
  have h1 := @State.Keeps.probeRanges s
  generalize State.probeRanges = g1 at h1 ⊢
  as_aux_lemma =>
    refine hs.mxInsn _ _ _ _ fun s1 m k1 => ?_
    refine .iteState k1 (.iteState k1 ?_)
    split
    · next e =>
      have k2 := (h0 k1 _ _ _ _).of_eq e
      split
      · next e =>
        have k3 := (h0 k2 _ _ _ _).of_eq e
        extract_lets
        split
        · exact k3
        · refine .iteState k3 (.iteState k3 (.iteState k3 (.iteState k3 ?_)))
          split
          · next e => exact (h1 k3 _ _ _).of_eq e
          · next e => exact (h1 k3 _ _ _).of_eq e
          · next e => exact ((h1 k3 _ _ _).of_eq e).setMat _ _
      · next e => exact ((h0 k2 _ _ _ _).of_eq e).readFault _ _
    · next e => exact ((h0 k1 _ _ _ _).of_eq e).readFault _ _

theorem State.Keeps.ewProgress {s₀ s : State} (hs : s₀.Keeps s) (core least : ℕ) : s₀.Keeps (s.ewProgress core least) := by
  grind [State.ewProgress, State.Keeps.setEw, State.Keeps.rest]

theorem State.Keeps.ewInsn {s₀ s : State} (hs : s₀.Keeps s) (t : Tid) (i : Instr) (u : EwUse) (async : Bool) (body : State → Ew → TRes)
    (h_body : ∀ v1 v2, s₀.Keeps v1 → s₀.Keeps (body v1 v2).state) :
    s₀.Keeps (s.ewInsn t i u async body) := by
  grind [State.ewInsn, TRes.state, State.Keeps.issue, State.Keeps.setEw, State.Keeps.ewProgress, State.Keeps.rest]

theorem State.Keeps.illegal {s₀ s : State} (hs : s₀.Keeps s) : s₀.Keeps (illegal s).state := by
  grind [illegal, TRes.state]

theorem State.Keeps.readTile {s₀ s : State} (hs : s₀.Keeps s) (t : Tid) (r : ℕ) : s₀.Keeps (s.readTile t r) := by
  grind [State.readTile, State.Keeps.report, State.Keeps.injDone, State.Keeps.setEw, State.Keeps.rest]

theorem State.Keeps.ewDone {s₀ s : State} (hs : s₀.Keeps s) (t : Tid) (reads : List ℕ) (f : Ew → Ew) :
    s₀.Keeps (s.ewDone t reads f).state := by
  grind [State.ewDone, TRes.state, State.Keeps.readTile, State.Keeps.setEw, State.Keeps.foldl]

theorem State.Keeps.tileRead {s₀ s : State} (hs : s₀.Keeps s) (t : Tid) (far : Bool) (w va n : ℕ) :
    s₀.Keeps (s.tileRead t far w va n).2 := by
  grind [State.tileRead, State.Keeps.vread]

theorem State.Keeps.tileWrite {s₀ s : State} (hs : s₀.Keeps s) (t : Tid) (far : Bool) (w va v : ℕ) :
    s₀.Keeps (s.tileWrite t far w va v).2 := by
  grind [State.tileWrite, State.Keeps.mRes_lateStore, State.Keeps.vwrite]

theorem State.Keeps.tileLoad {s₀ s : State} (hs : s₀.Keeps s) (t : Tid) (far : Bool) (w : ℕ) (put : State → GElem → List Byte → State) (els
    : List GElem) (h_put : ∀ v1 v2 v3, s₀.Keeps v1 → s₀.Keeps (put v1 v2 v3)) :
    s₀.Keeps (s.tileLoad t far w put els).state := by
  grind [State.tileLoad, TRes.state, State.Keeps.gatherGo, State.Keeps.tileRead]

theorem State.Keeps.tileStore {s₀ s : State} (hs : s₀.Keeps s) (t : Tid) (far : Bool) (w : ℕ) (val : State → GElem → ℕ) (els : List GElem) :
    s₀.Keeps (s.tileStore t far w val els).state := by
  grind [State.tileStore, TRes.state, State.Keeps.scatterGo, State.Keeps.tileWrite]

theorem State.Keeps.putTileEl {s₀ s : State} (hs : s₀.Keeps s) (t : Tid) (w r i j v : ℕ) : s₀.Keeps (s.putTileEl t w r i j v) := by
  grind [State.putTileEl, State.Keeps.setEw]

theorem State.Keeps.readTilesOnce {s₀ s : State} (hs : s₀.Keeps s) (t : Tid) (rs : List ℕ) : s₀.Keeps (s.readTilesOnce t rs) := by
  grind [State.readTilesOnce, State.Keeps.readTile, State.Keeps.foldl]

theorem execEtld_answers (s : State) (t : Tid) (w : MemW) (d a b : Reg) : s.Answers (execEtld t w d a b s) := by
  have hs := State.Keeps.refl s
  unfold execEtld
  grind [State.Answers.next, State.Keeps.ewInsn, State.Keeps.illegal, State.Keeps.tileLoad, State.Keeps.putTileEl]

theorem execEtst_answers (s : State) (t : Tid) (w : MemW) (d a b : Reg) : s.Answers (execEtst t w d a b s) := by
  have hs := State.Keeps.refl s
  unfold execEtst
  grind [State.Answers.next, State.Keeps.ewInsn, State.Keeps.illegal, State.Keeps.tileStore, State.Keeps.readTilesOnce]

theorem State.Keeps.keepPacked {s₀ s : State} (hs : s₀.Keeps s) (t : Tid) (ps : Option (List (ℕ × ℕ))) :
    s₀.Keeps (s.keepPacked t ps) := by
  grind [State.keepPacked, State.Keeps.setEw, State.Keeps.rest]

theorem State.Keeps.countIn {s₀ : State} (t : Tid) (b : Reg) (n : ℕ) (x1 : TRes) (hs : s₀.Keeps x1.state) :
    s₀.Keeps (countIn t b n x1).state := by
  unfold Machine.countIn
  grind [TRes.state, State.Keeps.modCtx, State.Keeps.keepPacked]

theorem execEcprst_answers (s : State) (t : Tid) (w : MemW) (d a b : Reg) (m : Fin 16) : s.Answers (execEcprst t w d a b m s) := by
  have hs := State.Keeps.refl s
  unfold execEcprst
  grind [State.Answers.next, State.Keeps.ewInsn, State.Keeps.illegal, State.Keeps.readTilesOnce, State.Keeps.countIn, State.Keeps.tileStore,
    State.Keeps.keepPacked]

theorem execExpdld_answers (s : State) (t : Tid) (w : MemW) (d a b : Reg) (m : Fin 16) : s.Answers (execExpdld t w d a b m s) := by
  have hs := State.Keeps.refl s
  unfold execExpdld
  grind [State.Answers.next, State.Keeps.ewInsn, State.Keeps.illegal, State.Keeps.readTilesOnce, State.Keeps.countIn, State.Keeps.tileLoad,
    State.Keeps.keepPacked, State.Keeps.putTileEl]

theorem execEFunc_answers (s : State) (t : Tid) (func : Fin 32) (rm fmt : Fin 8) (d a b : Reg) :
    s.Answers (execEFunc t func rm fmt d a b s) := by
  have hs := State.Keeps.refl s
  unfold execEFunc
  grind [State.Answers.next, State.Keeps.ewInsn, State.Keeps.illegal, State.Keeps.ewDone, State.Keeps.rest]

theorem execEred_answers (s : State) (t : Tid) (axis : Fin 2) (op fmt : Fin 8) (d a : Reg) :
    s.Answers (execEred t axis op fmt d a s) := by
  have hs := State.Keeps.refl s
  unfold execEred
  grind [State.Answers.next, State.Keeps.ewInsn, State.Keeps.illegal, State.Keeps.ewDone, State.Keeps.rest]

theorem execEsum_answers (s : State) (t : Tid) (kind fmt : Fin 8) (d a : Reg) : s.Answers (execEsum t kind fmt d a s) := by
  have hs := State.Keeps.refl s
  unfold execEsum
  grind [State.Answers.next, State.Keeps.ewInsn, State.Keeps.illegal, State.Keeps.ewDone, State.Keeps.rest]

theorem execEcmp_answers (s : State) (t : Tid) (pred : Fin 32) (fmt : Fin 8) (d a b : Reg) :
    s.Answers (execEcmp t pred fmt d a b s) := by
  have hs := State.Keeps.refl s
  unfold execEcmp
  grind [State.Answers.next, State.Keeps.ewInsn, State.Keeps.illegal, State.Keeps.ewDone, State.Keeps.rest]

theorem State.Keeps.packInsn {s₀ s : State} (hs : s₀.Keeps s) (t : Tid) (i : Instr) (fmt : ℕ) (d a b : Reg) (f : Ew → ℕ → ℕ → ℕ → ℕ → Ew) :
    s₀.Keeps (s.packInsn t i fmt d a b f) := by
  grind [State.packInsn, State.Keeps.ewInsn, State.Keeps.illegal, State.Keeps.ewDone, State.Keeps.rest]

theorem execEcpr_answers (s : State) (t : Tid) (fmt : Fin 8) (d a b : Reg) : s.Answers (execEcpr t fmt d a b s) := by
  have hs := State.Keeps.refl s
  unfold execEcpr
  grind [State.Answers.next, State.Keeps.packInsn]

theorem execExpd_answers (s : State) (t : Tid) (fmt : Fin 8) (d a b : Reg) : s.Answers (execExpd t fmt d a b s) := by
  have hs := State.Keeps.refl s
  unfold execExpd
  grind [State.Answers.next, State.Keeps.packInsn]

theorem execEprog_answers (s : State) (t : Tid) (a : Reg) : s.Answers (execEprog t a s) := by
  have hs := State.Keeps.refl s
  unfold execEprog
  have h0 := @State.Keeps.vread s
  generalize State.vread = g0 at h0 ⊢
  as_aux_lemma =>
    grind [State.Answers.next, TRes.state, State.Keeps.ewInsn, State.Keeps.setEw, State.Keeps.readFault, State.Keeps.rest]

theorem execErun_answers (s : State) (t : Tid) (a : Reg) : s.Answers (execErun t a s) := by
  have hs := State.Keeps.refl s
  unfold execErun
  grind [State.Answers.next, TRes.state, State.Keeps.ewInsn, State.Keeps.illegal, State.Keeps.ewDone, State.Keeps.rest]

theorem execEcvt_answers (s : State) (t : Tid) (d a b : Reg) : s.Answers (execEcvt t d a b s) := by
  have hs := State.Keeps.refl s
  unfold execEcvt
  grind [State.Answers.next, TRes.state, State.Keeps.ewInsn, State.Keeps.illegal, State.Keeps.modCtx, State.Keeps.ewDone, State.Keeps.rest]

theorem execEsrd_answers (s : State) (t : Tid) (d : Reg) (slot : Fin 8) : s.Answers (execEsrd t d slot s) := by
  have hs := State.Keeps.refl s
  unfold execEsrd
  grind [State.Answers.next, TRes.state, State.Keeps.ewInsn, State.Keeps.modCtx]

theorem execEstat_answers (s : State) (t : Tid) (d : Reg) (clr : Bool) : s.Answers (execEstat t d clr s) := by
  have hs := State.Keeps.refl s
  unfold execEstat
  grind [State.Answers.next, TRes.state, State.Keeps.ewInsn, State.Keeps.setEw, State.Keeps.modCtx, State.Keeps.rest]

theorem execEwait_answers (s : State) (t : Tid) (d : Reg) : s.Answers (execEwait t d s) := by
  have hs := State.Keeps.refl s
  unfold execEwait
  grind [State.Answers.next, TRes.state, State.Keeps.ewInsn, State.Keeps.modCtx]

theorem execEsarea_answers (s : State) (t : Tid) (a : Reg) : s.Answers (execEsarea t a s) := by
  have hs := State.Keeps.refl s
  unfold execEsarea
  grind [State.Answers.next, TRes.state, State.Keeps.ewInsn, State.Keeps.setEw, State.Keeps.rest]

theorem execEshape_answers (s : State) (t : Tid) (a : Reg) : s.Answers (execEshape t a s) := by
  have hs := State.Keeps.refl s
  unfold execEshape
  grind [State.Answers.next, TRes.state, State.Keeps.ewInsn, State.Keeps.setEw, State.Keeps.rest]

theorem State.Keeps.ewDrained {s₀ s : State} (hs : s₀.Keeps s) (g : ℕ) : s₀.Keeps (s.ewDrained g) := by
  grind [State.ewDrained, State.Keeps.setEw, State.Keeps.rest, State.Keeps.foldl]

theorem execEwSplitApply_answers (s : State) (g : Fin 256) : s.Answers (execEwSplitApply g s) := by
  have hs := State.Keeps.refl s
  unfold execEwSplitApply
  grind [State.Answers.next, State.Keeps.setFld, State.Keeps.ewDrained]

theorem State.Keeps.readRanges {s₀ s : State} (hs : s₀.Keeps s) (a : Agt) (x1 : List (ℕ × ℕ)) : s₀.Keeps (s.readRanges a x1).2.2 := by
  fun_induction State.readRanges s a x1 <;>
    grind [State.readRanges, State.Keeps.vread, State.Keeps.rest]

theorem State.Keeps.readOpnd {s₀ s : State} (hs : s₀.Keeps s) (a : Agt) (o : Opnd) (k : ℕ) : s₀.Keeps (s.readOpnd a o k).2.2 := by
  grind [State.readOpnd, State.Keeps.readRanges, State.Keeps.rest]

theorem State.Keeps.residueFail {s₀ s : State} (hs : s₀.Keeps s) (g : ℕ) (m : Matrix) (tile : ℕ) (t : Tid) :
    s₀.Keeps (s.residueFail g m tile t) := by
  grind [State.residueFail, State.Keeps.report, State.Keeps.injDone, State.Keeps.setMat]

theorem State.Keeps.mmaSum {s₀ s : State} (hs : s₀.Keeps s) (g : ℕ) (t : Tid) (m : Matrix) (tile k : ℕ) (mxint : Bool) (ra rb : List OpRow)
    :
    s₀.Keeps (s.mmaSum g t m tile k mxint ra rb) := by
  grind [State.mmaSum, State.Keeps.residueFail, State.Keeps.setMat]

theorem State.Keeps.mxPoison {s₀ s : State} (hs : s₀.Keeps s) (g : ℕ) (m : Matrix) (tile : ℕ) (x1 : MRes) :
    s₀.Keeps (s.mxPoison g m tile x1) := by
  unfold State.mxPoison
  grind [State.Keeps.setMat]

theorem State.Keeps.mmaRun {s₀ s : State} (hs : s₀.Keeps s) (g : ℕ) (t : Tid) (m : Matrix) (tile k : ℕ) (da db : List Byte) :
    s₀.Keeps (s.mmaRun g t m tile k da db) := by
  unfold State.mmaRun
  dsimp only
  split
  · next e => exact (hs.askRanges _ _).of_eq e
  · next e =>
    have h0 := (hs.askRanges _ _).of_eq e
    split
    · exact h0.undo _
    · next e =>
      have h1 := (h0.readOpnd _ _ _).of_eq₂ e
      split
      · exact h0.undo _
      · next e => exact (((h1.readOpnd _ _ _).of_eq₂ e).mmaSum _ _ _ _ _ _ _ _).dropGot _
      · next e => exact (((h1.readOpnd _ _ _).of_eq₂ e).mxPoison _ _ _ _).dropGot _
    · next e => exact (((h0.readOpnd _ _ _).of_eq₂ e).mxPoison _ _ _ _).dropGot _

theorem execMmaExecute_answers (s : State) (g : Fin 256) : s.Answers (execMmaExecute g s) := by
  have hs := State.Keeps.refl s
  unfold execMmaExecute
  grind [State.Answers.next, State.Keeps.mmaRun, State.Keeps.rest]

theorem State.Keeps.drainProbe {s₀ s : State} (hs : s₀.Keeps s) (w : ℕ) (d : DrainDesc) : s₀.Keeps (s.drainProbe w d).2 := by
  grind [State.drainProbe, State.Keeps.probeRanges, State.Keeps.rest]

theorem execMdrain_answers (s : State) (t : Tid) (tile : Fin 2) (a : Reg) : s.Answers (execMdrain t tile a s) := by
  have hs := State.Keeps.refl s
  unfold execMdrain
  have h0 := @State.Keeps.vread s
  generalize State.vread = g0 at h0 ⊢
  have h1 := @State.Keeps.drainProbe s
  generalize State.drainProbe = g1 at h1 ⊢
  as_aux_lemma =>
    grind [State.Answers.next, TRes.state, State.Keeps.mxInsn, State.Keeps.setMat, State.Keeps.readFault, State.Keeps.rest]

theorem State.Keeps.topk {s₀ s : State} (hs : s₀.Keeps s) (t : Tid) (tile w : ℕ) (d : DrainDesc) (outs : List ℕ) (ok : Bool) (x1 : List ℕ) :
    s₀.Keeps (s.topk t tile w d outs ok x1).2.2 := by
  fun_induction State.topk s t tile w d outs ok x1 <;>
    grind [State.topk, State.Keeps.vread, State.Keeps.vwrite, State.Keeps.rest, State.Keeps.foldl]

theorem State.Keeps.colVec {s₀ s : State} (hs : s₀.Keeps s) (a : Agt) (on vec : Bool) (ptr scalar cols : ℕ) :
    s₀.Keeps (s.colVec a on vec ptr scalar cols).2.2 := by
  grind [State.colVec, State.Keeps.vread, State.Keeps.rest]

theorem State.Keeps.drainForm {s₀ s : State} (hs : s₀.Keeps s) (g : ℕ) (t : Tid) (m : Matrix) (tile : ℕ) (x : Tile) (dr : Drain) (sc bi :
    List ℕ) :
    s₀.Keeps (s.drainForm g t m tile x dr sc bi).2 := by
  grind [State.drainForm, State.Keeps.topk, State.Keeps.setMat, State.Keeps.rest]

theorem State.Keeps.drainRun {s₀ s : State} (hs : s₀.Keeps s) (g : ℕ) (t : Tid) (m : Matrix) (tile : ℕ) (dr : Drain) :
    s₀.Keeps (s.drainRun g t m tile dr) := by
  unfold State.drainRun
  dsimp only
  split
  · next e => exact (hs.askRanges _ _).of_eq e
  · next e =>
    have h0 := (hs.askRanges _ _).of_eq e
    split
    · exact h0.undo _
    · next e =>
      have h1 := (h0.colVec _ _ _ _ _ _).of_eq₂ e
      split
      · exact h0.undo _
      · next e =>
        have h2 := (h1.colVec _ _ _ _ _ _).of_eq₂ e
        split
        · exact h0.undo _
        · next e => exact ((h2.drainForm _ _ _ _ _ _ _ _).of_eq e).dropGot _
      · next e => exact (((h1.colVec _ _ _ _ _ _).of_eq₂ e).mxPoison _ _ _ _).dropGot _
    · next e => exact (((h0.colVec _ _ _ _ _ _).of_eq₂ e).mxPoison _ _ _ _).dropGot _

theorem execDrainStart_answers (s : State) (g : Fin 256) (tile : Fin 2) : s.Answers (execDrainStart g tile s) := by
  have hs := State.Keeps.refl s
  unfold execDrainStart
  grind [State.Answers.next, State.Keeps.drainRun, State.Keeps.rest]

theorem State.Keeps.writeRows {s₀ s : State} (hs : s₀.Keeps s) (a : Agt) (x1 : List (ℕ × List Byte)) :
    s₀.Keeps (s.writeRows a x1).2 := by
  fun_induction State.writeRows s a x1 <;>
    grind [State.writeRows, State.Keeps.vwrite, State.Keeps.rest]

theorem State.Keeps.engineAdd {s₀ s : State} (hs : s₀.Keeps s) (t : Tid) (tile va v : ℕ) : s₀.Keeps (s.engineAdd t tile va v).2 := by
  grind [State.engineAdd, State.Keeps.xlate, State.Keeps.noteStall, State.Keeps.homeAmo, State.Keeps.markAccess, State.Keeps.mRes_marked,
    State.Keeps.turned, State.Keeps.request, State.Keeps.rest]

theorem State.Keeps.engineAdds {s₀ s : State} (hs : s₀.Keeps s) (t : Tid) (tile : ℕ) (ok : Bool) (x1 : List (ℕ × ℕ)) :
    s₀.Keeps (s.engineAdds t tile ok x1).2.2 := by
  fun_induction State.engineAdds s t tile ok x1 <;>
    grind [State.engineAdds, State.Keeps.engineAdd, State.Keeps.rest]

theorem State.Keeps.drainWritten {s₀ s : State} (hs : s₀.Keeps s) (g : ℕ) (t : Tid) (m : Matrix) (tile : ℕ) (dr : Drain) :
    s₀.Keeps (s.drainWritten g t m tile dr) := by
  grind [State.drainWritten, State.Keeps.setMat, State.Keeps.rest]

theorem State.Keeps.drainWrite {s₀ s : State} (hs : s₀.Keeps s) (g : ℕ) (t : Tid) (m : Matrix) (tile : ℕ) (dr : Drain) :
    s₀.Keeps (s.drainWrite g t m tile dr) := by
  grind [State.drainWrite, State.Keeps.writeRows, State.Keeps.undo, State.Keeps.engineAdds, State.Keeps.drainWritten, State.Keeps.mxPoison,
    State.Keeps.rest]

theorem execDrainComplete_answers (s : State) (g : Fin 256) (tile : Fin 2) : s.Answers (execDrainComplete g tile s) := by
  have hs := State.Keeps.refl s
  unfold execDrainComplete
  grind [State.Answers.next, State.Keeps.setMat, State.Keeps.drainWrite, State.Keeps.rest]

theorem execTexit_answers (s : State) (t : Tid) : s.Answers (execTexit t s) := by
  have hs := State.Keeps.refl s
  unfold execTexit
  grind [State.Answers.next, TRes.state, State.Keeps.issue, State.Keeps.setMat, State.Keeps.setEw, State.Keeps.endThread, State.Keeps.rest]

theorem State.Keeps.writeParts {s₀ s : State} (hs : s₀.Keeps s) (a : Agt) (base : ℕ) (x1 : List (ℕ × List Byte)) :
    s₀.Keeps (s.writeParts a base x1).2 := by
  fun_induction State.writeParts s a base x1 <;>
    grind [State.writeParts, State.Keeps.vwrite, State.Keeps.rest]

theorem State.Keeps.savedAway {s₀ s : State} (hs : s₀.Keeps s) (x : Tid) : s₀.Keeps (s.savedAway x) := by
  grind [State.savedAway, State.Keeps.freeCtx, State.Keeps.releaseEngines]

theorem State.Keeps.writeImages {s₀ s : State} (hs : s₀.Keeps s) (x : Tid) (x1 : List (ℕ × List Byte)) :
    s₀.Keeps (s.writeImages x x1).2 := by
  fun_induction State.writeImages s x x1 <;>
    grind [State.writeImages, State.Keeps.vwrite, State.Keeps.rest]

theorem State.Keeps.areaFault {s₀ s : State} (hs : s₀.Keeps s) (va : W64) (r : MRes) : s₀.Keeps (areaFault s va r).state := by
  grind [areaFault, TRes.state, State.Keeps.readFault]

theorem State.Keeps.ewQuiet {s₀ s : State} (hs : s₀.Keeps s) (t x : Tid) : s₀.Keeps (s.ewQuiet t x) := by
  grind [State.ewQuiet, State.Keeps.ewProgress, State.Keeps.rest]

theorem State.Keeps.saveThread {s₀ s : State} (hs : s₀.Keeps s) (t x : Tid) (va : W64) : s₀.Keeps (s.saveThread t x va).state := by
  generalize hr : State.saveThread s t x va = r
  generalize hf : State.saveThread = f at hr
  delta State.saveThread at hf
  subst hf
  beta_reduce at hr
  have hp := fun t (h : s₀.Keeps t) => h.probeRanges
  have hq := fun t (h : s₀.Keeps t) => h.vprobe
  have hi := fun t (h : s₀.Keeps t) => h.writeImages
  have hw := fun t (h : s₀.Keeps t) => h.writeParts
  generalize State.probeRanges = g at hp hr
  generalize State.vprobe = g2 at hq hr
  generalize State.writeImages = g3 at hi hr
  generalize State.writeParts = g4 at hw hr
  as_aux_lemma =>
    subst hr
    refine .iteState hs (.iteState hs (.iteState hs ?_))
    split
    · next e => exact (hp _ hs _ _ _).of_eq e
    · next e => exact (hp _ hs _ _ _).of_eq e
    · next e =>
      have h1 := (hp _ hs _ _ _).of_eq e
      split
      · next e =>
        have h2 := (hq _ h1 _ _ _ _).of_eq e
        split
        · next e =>
          have h3 := (hi _ h2 _ _).of_eq e
          split
          · next e => exact ((hw _ h3 _ _ _).of_eq e).savedAway _
          · next e => exact ((hw _ h3 _ _ _).of_eq e).areaFault _ _
        · next e => exact (hi _ h2 _ _).of_eq e
        · next e => exact (hi _ h2 _ _).of_eq e
      · next e => exact ((hq _ h1 _ _ _ _).of_eq e).areaFault _ _

theorem execTsave_answers (s : State) (t : Tid) (a d : Reg) : s.Answers (execTsave t a d s) := by
  have hs := State.Keeps.refl s
  unfold execTsave
  grind [State.Answers.next, State.Keeps.actOn, State.Keeps.saveThread, State.Keeps.ewQuiet]

theorem State.Keeps.readImage {s₀ s : State} (hs : s₀.Keeps s) (t x : Tid) (n : ℕ) (x1 : Option W64) :
    s₀.Keeps (s.readImage t x n x1).2 := by
  unfold State.readImage
  grind [State.Keeps.vread, State.Keeps.rest]

theorem State.Keeps.putEngines {s₀ s : State} (hs : s₀.Keeps s) (x : Tid) (n : SaveNote) (bm be : List Byte) :
    s₀.Keeps (s.putEngines x n bm be) := by
  grind [State.putEngines, State.Keeps.setMat, State.Keeps.setEw, State.Keeps.rest]

theorem State.Keeps.restoreThread {s₀ s : State} (hs : s₀.Keeps s) (t x : Tid) (va : W64) :
    s₀.Keeps (s.restoreThread t x va).state := by
  generalize hr : State.restoreThread s t x va = r
  generalize hf : State.restoreThread = f at hr
  delta State.restoreThread at hf
  subst hf
  beta_reduce at hr
  split at hr
  · subst hr; exact hs
  · split at hr
    · next e =>
      have h1 := (hs.vread _ _ _).of_eq e
      extract_lets n0 n ep at hr
      split at hr
      · subst hr; exact h1
      · split at hr
        · next e =>
          have h2 := (h1.readImage _ _ _ _).of_eq e
          split at hr
          · next e =>
            have h3 := (h2.readImage _ _ _ _).of_eq e
            split at hr
            · subst hr; exact h3
            · subst hr; exact (h3.setCtx _ _).putEngines _ _ _ _
          · next e => subst hr; exact ((h2.readImage _ _ _ _).of_eq e).areaFault _ _
        · next e => subst hr; exact ((h1.readImage _ _ _ _).of_eq e).areaFault _ _
    · next e => subst hr; exact ((hs.vread _ _ _).of_eq e).areaFault _ _

theorem execTrestore_answers (s : State) (t : Tid) (a d : Reg) : s.Answers (execTrestore t a d s) := by
  have hs := State.Keeps.refl s
  unfold execTrestore
  grind [State.Answers.next, State.Keeps.actOn, State.Keeps.restoreThread]

theorem State.Keeps.ringRead {s₀ s : State} (hs : s₀.Keeps s) (va n : ℕ) : s₀.Keeps (s.ringRead va n).2.2 := by
  grind [State.ringRead, State.Keeps.vread, State.Keeps.rest]

theorem State.Keeps.ringError {s₀ s : State} (hs : s₀.Keeps s) (en : Fld) (page : ℕ) : s₀.Keeps (s.ringError en page) := by
  grind [State.ringError, State.Keeps.setFlag]

theorem State.Keeps.ringCons {s₀ s : State} (hs : s₀.Keeps s) (en cr : Fld) (page head cons : ℕ) :
    s₀.Keeps (s.ringCons en cr page head cons).2 := by
  generalize hr : State.ringCons s en cr page head cons = r
  generalize hf : State.ringCons = f at hr
  delta State.ringCons at hf
  subst hf
  beta_reduce at hr
  split at hr
  · subst hr; exact hs
  · split at hr
    · next e => subst hr; exact ((hs.vwrite _ _ _).of_eq e).setFld _ _
    · subst hr; exact hs.undo _
    · next e => subst hr; exact (((hs.vwrite _ _ _).of_eq e).setFld _ _).ringError _ _

theorem State.Keeps.copyReadProd {s₀ s : State} (hs : s₀.Keeps s) (n : ℕ) : s₀.Keeps (s.copyReadProd n) := by
  generalize hf : State.copyReadProd = f
  delta State.copyReadProd at hf
  subst hf
  beta_reduce
  split
  · next e =>
    have h := (hs.ringRead _ _).of_eq₂ e
    exact .ite (h.ringError _ _) (h.modStk _ _)
  · next e =>
    have h := (hs.ringRead _ _).of_eq₂ e
    exact .ite (h.modStk _ _) (h.ringError _ _)

theorem State.Keeps.syncCopy {s₀ s : State} (hs : s₀.Keeps s) (n : ℕ) : s₀.Keeps (s.syncCopy n) := by
  grind [State.syncCopy, State.Keeps.setFld]

theorem State.Keeps.copyEnable {s₀ s : State} (hs : s₀.Keeps s) (n : ℕ) : s₀.Keeps (s.copyEnable n) := by
  generalize hf : State.copyEnable = f
  delta State.copyEnable at hf
  subst hf
  beta_reduce
  split
  · next e =>
    have h := (hs.ringRead _ _).of_eq₂ e
    exact (((State.Keeps.ite ((h.setFld _ _).modStk _ _) h).modStk _ _).syncCopy _).copyReadProd _
  · next e =>
    have h := (hs.ringRead _ _).of_eq₂ e
    exact .ite (h.modStk _ _) (h.ringError _ _)

theorem execCopyRingProd_answers (s : State) (st : Fin 8) : s.Answers (execCopyRingProd st s) := by
  have hs := State.Keeps.refl s
  unfold execCopyRingProd
  grind [State.Answers.next, State.Keeps.wakeUnit, State.Keeps.copyEnable, State.Keeps.copyReadProd]

theorem State.Keeps.modCopyJob {s₀ s : State} (hs : s₀.Keeps s) (n idx : ℕ) (f : CopyJob → CopyJob) :
    s₀.Keeps (s.modCopyJob n idx f) := by
  grind [State.modCopyJob, State.Keeps.modStk, State.Keeps.rest]

theorem State.Keeps.copySide {s₀ s : State} (hs : s₀.Keeps s) (va : ℕ) (k : AKind) : s₀.Keeps (s.copySide va k).2 := by
  grind [State.copySide, State.Keeps.xlatePage, State.Keeps.rest]

theorem State.Keeps.copyLine {s₀ s : State} (hs : s₀.Keeps s) (src dst : ℕ) : s₀.Keeps (s.copyLine src dst) := by
  grind [State.copyLine, State.Keeps.takeLine, State.Keeps.prepLines, State.Keeps.writeFull, State.Keeps.writePoison, State.Keeps.notify,
    State.Keeps.dirtyGran]

theorem State.Keeps.copyAt {s₀ s : State} (hs : s₀.Keeps s) (n src dst : ℕ) : s₀.Keeps (s.copyAt n src dst).2 := by
  grind [State.copyAt, State.Keeps.copySide, State.Keeps.noteStall, State.Keeps.copyLine, State.Keeps.rest]

theorem State.Keeps.copyLines {s₀ s : State} (hs : s₀.Keeps s) (n idx src dst x1 x2 : ℕ) :
    s₀.Keeps (s.copyLines n idx src dst x1 x2) := by
  fun_induction State.copyLines s n idx src dst x1 x2 <;>
    grind [State.copyLines, State.Keeps.modCopyJob, State.Keeps.copyAt, State.Keeps.rest]

theorem State.Keeps.copyRun {s₀ s : State} (hs : s₀.Keeps s) (n : ℕ) (c : CopyJob) : s₀.Keeps (s.copyRun n c) := by
  generalize hf : State.copyRun = f
  delta State.copyRun at hf
  subst hf
  beta_reduce
  split
  · next e =>
    have h := (hs.ringRead _ _).of_eq₂ e
    exact .ite (h.modCopyJob _ _ _) (h.copyLines _ _ _ _ _ _)
  · next e =>
    have h := (hs.ringRead _ _).of_eq₂ e
    exact .ite h ((h.modStk _ _).ringError _ _)

theorem State.Keeps.copyTake {s₀ s : State} (hs : s₀.Keeps s) (n : ℕ) : s₀.Keeps (s.copyTake n) := by
  grind [State.copyTake, State.Keeps.syncCopy, State.Keeps.copyRun, State.Keeps.modStk, State.Keeps.rest]

theorem execCopyDescriptor_answers (s : State) (st : Fin 8) : s.Answers (execCopyDescriptor st s) := by
  have hs := State.Keeps.refl s
  unfold execCopyDescriptor
  grind [State.Answers.next, State.Keeps.syncCopy, State.Keeps.copyRun, State.Keeps.copyTake, State.Keeps.rest]

theorem State.Keeps.copyCons {s₀ s : State} (hs : s₀.Keeps s) (n : ℕ) : s₀.Keeps (s.copyCons n) := by
  grind [State.copyCons, State.Keeps.ringCons, State.Keeps.modStk, State.Keeps.rest, State.Keeps.foldl]

theorem State.Keeps.copyRetry {s₀ s : State} (hs : s₀.Keeps s) (n : ℕ) : s₀.Keeps (s.copyRetry n) := by
  grind [State.copyRetry, State.Keeps.copyCons, State.Keeps.modStk, State.Keeps.copyReadProd, State.Keeps.copyEnable, State.Keeps.rest]

theorem State.Keeps.copyMark {s₀ s : State} (hs : s₀.Keeps s) (n : ℕ) : s₀.Keeps (s.copyMark n) := by
  grind [State.copyMark, State.Keeps.modStk, State.Keeps.rest]

theorem execCopyDescriptorDone_answers (s : State) (st : Fin 8) : s.Answers (execCopyDescriptorDone st s) := by
  have hs := State.Keeps.refl s
  unfold execCopyDescriptorDone
  refine .next ?_
  have h0 := @State.Keeps.ringRead s
  generalize State.ringRead = g0 at h0 ⊢
  have h1 := @State.Keeps.vwrite s
  generalize State.vwrite = g1 at h1 ⊢
  as_aux_lemma =>
    split
    · exact hs
    · split
      · next e =>
        have k1 := (h0 hs _ _).of_eq₂ e
        extract_lets bytes
        split
        · next e => exact (h1 k1 _ _ _).of_eq e
        · next r s2 _ e =>
          have k2 := (h1 k1 _ _ _).of_eq e
          extract_lets s3 s4 s5
          have k3 : s.Keeps s3 := by
            cases r
            case ok => exact k2
            all_goals exact k2.ringError _ _
          have k4 : s.Keeps s4 := (k3.modStk _ _).syncCopy _
          exact (State.Keeps.ite (k4.addCounter _ _ _) k4).copyCons _
      · next e =>
        have k1 := (h0 hs _ _).of_eq₂ e
        exact .ite k1 (((k1.modStk _ _).syncCopy _).ringError _ _)

theorem State.Keeps.dropHostLines {s₀ s : State} (hs : s₀.Keeps s) : s₀.Keeps (s.dropHostLines) := by
  grind [State.dropHostLines, State.Keeps.setFld, State.Keeps.rest]

theorem State.Keeps.setViral {s₀ s : State} (hs : s₀.Keeps s) : s₀.Keeps (s.setViral) := by
  grind [State.setViral, State.Keeps.dropHostLines, State.Keeps.addSat, State.Keeps.setFlag]

theorem State.Keeps.enterViral {s₀ s : State} (hs : s₀.Keeps s) : s₀.Keeps (s.enterViral) := by
  grind [State.enterViral, State.Keeps.event, State.Keeps.setViral]

theorem State.Keeps.loseHost {s₀ s : State} (hs : s₀.Keeps s) : s₀.Keeps (s.loseHost) := by
  grind [State.loseHost, State.Keeps.dropHostLines, State.Keeps.setFlag, State.Keeps.rest]

theorem State.Keeps.hostReadLine {s₀ s : State} (hs : s₀.Keeps s) (own : Bool) (d n : ℕ) : s₀.Keeps (s.hostReadLine own d n).2 := by
  generalize hr : State.hostReadLine s own d n = r
  generalize hf : State.hostReadLine = f at hr
  delta State.hostReadLine at hf
  subst hf
  beta_reduce at hr
  split at hr
  · next e => subst hr; exact (hs.homeRead _ _ _).of_eq e
  · next e => subst hr; exact ((hs.homeRead _ _ _).of_eq e).enterViral

theorem State.Keeps.hostReadLines {s₀ s : State} (hs : s₀.Keeps s) (own : Bool) (x1 : List (ℕ × ℕ)) :
    s₀.Keeps (s.hostReadLines own x1).2 := by
  have h1 := fun (s : State) (hs : s₀.Keeps s) a b => hs.hostReadLine own a b
  generalize hr : State.hostReadLines s own x1 = r
  generalize hf : State.hostReadLines = f at hr
  delta State.hostReadLines State.hostReadLines._f at hf
  generalize State.hostReadLine = g at h1 hf
  as_aux_lemma =>
    subst hf
    subst hr
    induction x1 generalizing s with
    | nil => exact hs
    | cons p rest ih => exact ih (h1 _ hs _ _)

theorem State.Keeps.hostWriteLine {s₀ s : State} (hs : s₀.Keeps s) (d : ℕ) (bs : List Byte) (poison : Bool) :
    s₀.Keeps (s.hostWriteLine d bs poison) := by
  grind [State.hostWriteLine, State.Keeps.event, State.Keeps.inc, State.Keeps.notify, State.Keeps.dirtyGran, State.Keeps.writePoison,
    State.Keeps.prepLines, State.Keeps.homeWrite]

theorem State.Keeps.hostServe {s₀ s : State} (hs : s₀.Keeps s) (r : HReq) : s₀.Keeps (s.hostServe r) := by
  grind [State.hostServe, State.Keeps.hostWriteLine, State.Keeps.answer, State.Keeps.hostReadLines, State.Keeps.foldl]

theorem State.Keeps.dropHReq {s₀ s : State} (hs : s₀.Keeps s) (id : ℕ) : s₀.Keeps (s.dropHReq id) := by
  grind [State.dropHReq, State.Keeps.rest]

theorem State.Keeps.cutHost {s₀ s : State} (hs : s₀.Keeps s) : s₀.Keeps (s.cutHost) := by
  grind [State.cutHost, State.Keeps.hostServe, State.Keeps.dropHReq, State.Keeps.foldl]

theorem State.Keeps.hostRequest {s₀ s : State} (hs : s₀.Keeps s) (r : HReq) : s₀.Keeps (s.hostRequest r) := by
  grind [State.hostRequest, State.Keeps.noteStall, State.Keeps.hostServe, State.Keeps.rest, State.Keeps.foldl]

theorem State.Keeps.hringError {s₀ s : State} (hs : s₀.Keeps s) : s₀.Keeps (s.hringError) := by
  grind [State.hringError, State.Keeps.setFlag]

theorem State.Keeps.hringRead {s₀ s : State} (hs : s₀.Keeps s) (d n : ℕ) : s₀.Keeps (s.hringRead d n).2 := by
  generalize hr : State.hringRead s d n = r
  generalize hf : State.hringRead = f at hr
  delta State.hringRead at hf
  subst hf
  beta_reduce at hr
  split at hr
  · subst hr; exact hs
  · split at hr
    · next e => subst hr; exact (hs.homeRead _ _ _).of_eq e
    · next e => subst hr; exact (hs.homeRead _ _ _).of_eq e

theorem State.Keeps.hringWrite {s₀ s : State} (hs : s₀.Keeps s) (d : ℕ) (bs : List Byte) : s₀.Keeps (s.hringWrite d bs) := by
  grind [State.hringWrite, State.Keeps.homeWrite]

theorem State.Keeps.ringOwes {s₀ s : State} (hs : s₀.Keeps s) (n : ℕ) : s₀.Keeps (s.ringOwes n) := by
  grind [State.ringOwes, State.Keeps.rest]

theorem State.Keeps.hringProd {s₀ s : State} (hs : s₀.Keeps s) : s₀.Keeps (s.hringProd) := by
  generalize hf : State.hringProd = f
  delta State.hringProd at hf
  subst hf
  beta_reduce
  split
  · exact hs
  · split
    · next e => exact ((hs.hringRead _ _).of_eq e).ringOwes _
    · next e => exact ((hs.hringRead _ _).of_eq e).hringError
    · next e =>
      have h := (hs.hringRead _ _).of_eq e
      exact .ite h.hringError (h.same rfl rfl rfl rfl rfl)

theorem State.Keeps.hringHeadRead {s₀ s : State} (hs : s₀.Keeps s) : s₀.Keeps (s.hringHeadRead) := by
  generalize hf : State.hringHeadRead = f
  delta State.hringHeadRead at hf
  subst hf
  beta_reduce
  split
  · next e => exact ((hs.hringRead _ _).of_eq e).ringOwes _
  · next e => exact ((hs.hringRead _ _).of_eq e).hringError
  · next e => exact ((((hs.hringRead _ _).of_eq e).setFld _ _).updHost _).hringProd

theorem State.Keeps.hringRetry {s₀ s : State} (hs : s₀.Keeps s) : s₀.Keeps (s.hringRetry) := by
  grind [State.hringRetry, State.Keeps.hringHeadRead, State.Keeps.hringProd]

theorem State.Keeps.ringTaken {s₀ s : State} (hs : s₀.Keeps s) (word : ℕ) : s₀.Keeps (s.ringTaken word) := by
  grind [State.ringTaken, State.Keeps.setFld, State.Keeps.hringWrite, State.Keeps.inc]

theorem State.Keeps.ringRefuse {s₀ s : State} (hs : s₀.Keeps s) (code : ℕ) : s₀.Keeps (s.ringRefuse code) := by
  grind [State.ringRefuse, State.Keeps.setFld, State.Keeps.ringTaken]

theorem State.Keeps.ringLaunch {s₀ s : State} (hs : s₀.Keeps s) (e : List Byte) : ∀ o, s.ringLaunch e = some o → s₀.Keeps o := by
  grind [State.ringLaunch, State.Keeps.launchVerdict, State.Keeps.hringWrite, State.Keeps.ringTaken, State.Keeps.addLaunch]

theorem State.Keeps.ringNext {s₀ s : State} (hs : s₀.Keeps s) : s₀.Keeps (s.ringNext).2 := by
  grind [State.ringNext, State.Keeps.hringRead]

theorem State.Keeps.ringStep {s₀ s : State} (hs : s₀.Keeps s) : ∀ o, s.ringStep = some o → s₀.Keeps o := by
  unfold State.ringStep
  split
  · simp
  · next e => rintro u ⟨⟩; exact (hs.ringNext.of_eq e).hringError
  · next e =>
    have h := hs.ringNext.of_eq e
    dsimp only
    split
    · rintro u ⟨⟩; exact h.ringRefuse _
    · split
      · simp
      · split
        · simp
        · exact h.ringLaunch _

theorem State.Keeps.ringRun {s₀ s : State} (hs : s₀.Keeps s) (x1 : ℕ) : s₀.Keeps (s.ringRun x1) := by
  fun_induction State.ringRun s x1 <;>
    grind [State.ringRun, State.Keeps.ringStep, State.Keeps.rest]

theorem State.Keeps.ringService {s₀ s : State} (hs : s₀.Keeps s) : s₀.Keeps (s.ringService) := by
  grind [State.ringService, State.Keeps.jobOver, State.Keeps.ringRun, State.Keeps.hringRetry]

theorem State.Keeps.ringMarkDone {s₀ s : State} (hs : s₀.Keeps s) (e : List Byte) : s₀.Keeps (s.ringMarkDone e) := by
  grind [State.ringMarkDone, State.Keeps.hostWrite, State.Keeps.ringTaken, State.Keeps.vector]

theorem State.Keeps.hringEnable {s₀ s : State} (hs : s₀.Keeps s) : s₀.Keeps (s.hringEnable) := by
  grind [State.hringEnable, State.Keeps.hringError, State.Keeps.ringService, State.Keeps.hringHeadRead]

theorem execHostRingProd_answers (s : State) : s.Answers (execHostRingProd s) := by
  have hs := State.Keeps.refl s
  unfold execHostRingProd
  grind [State.Answers.next, State.Keeps.ringService, State.Keeps.hringProd]

theorem execRingMark_answers (s : State) : s.Answers (execRingMark s) := by
  have hs := State.Keeps.refl s
  unfold execRingMark
  grind [State.Answers.next, State.Keeps.ringNext, State.Keeps.ringService, State.Keeps.ringMarkDone, State.Keeps.rest]

theorem State.Keeps.setSolv {s₀ s : State} (hs : s₀.Keeps s) (q : ℕ) (x : Solv) : s₀.Keeps (s.setSolv q x) := by
  grind [State.setSolv, State.Keeps.rest]

theorem State.Keeps.modSolv {s₀ s : State} (hs : s₀.Keeps s) (q : ℕ) (f : Solv → Solv) : s₀.Keeps (s.modSolv q f) := by
  grind [State.modSolv, State.Keeps.setSolv, State.Keeps.rest]

theorem State.Keeps.modSJob {s₀ s : State} (hs : s₀.Keeps s) (q : ℕ) (f : SJob → SJob) : s₀.Keeps (s.modSJob q f) := by
  grind [State.modSJob, State.Keeps.modSolv, State.Keeps.rest]

theorem State.Keeps.solvRingErr {s₀ s : State} (hs : s₀.Keeps s) (q : ℕ) : s₀.Keeps (s.solvRingErr q) := by
  grind [State.solvRingErr, State.Keeps.ringError]

theorem State.Keeps.solvReadProd {s₀ s : State} (hs : s₀.Keeps s) (q : ℕ) : s₀.Keeps (s.solvReadProd q) := by
  generalize hf : State.solvReadProd = f
  delta State.solvReadProd at hf
  subst hf
  beta_reduce
  split
  · next e =>
    have h := (hs.ringRead _ _).of_eq₂ e
    exact .ite (h.solvRingErr _) (h.modSolv _ _)
  · next e =>
    have h := (hs.ringRead _ _).of_eq₂ e
    exact .ite (h.modSolv _ _) (h.solvRingErr _)

theorem State.Keeps.solvEnable {s₀ s : State} (hs : s₀.Keeps s) (q : ℕ) : s₀.Keeps (s.solvEnable q) := by
  generalize hf : State.solvEnable = f
  delta State.solvEnable at hf
  subst hf
  beta_reduce
  split
  · next e =>
    have h := (hs.ringRead _ _).of_eq₂ e
    exact ((State.Keeps.ite ((h.setFld _ _).modSolv _ _) h).modSolv _ _).solvReadProd _
  · next e =>
    have h := (hs.ringRead _ _).of_eq₂ e
    exact .ite (h.modSolv _ _) (h.solvRingErr _)

theorem execSolverRingProd_answers (s : State) (q : Fin 64) : s.Answers (execSolverRingProd q s) := by
  have hs := State.Keeps.refl s
  unfold execSolverRingProd
  grind [State.Answers.next, State.Keeps.wakeUnit, State.Keeps.solvEnable, State.Keeps.solvReadProd]

theorem State.Keeps.solvCons {s₀ s : State} (hs : s₀.Keeps s) (q : ℕ) : s₀.Keeps (s.solvCons q) := by
  grind [State.solvCons, State.Keeps.ringCons, State.Keeps.modSolv, State.Keeps.rest]

theorem State.Keeps.solvRetry {s₀ s : State} (hs : s₀.Keeps s) (q : ℕ) : s₀.Keeps (s.solvRetry q) := by
  grind [State.solvRetry, State.Keeps.solvCons, State.Keeps.modSolv, State.Keeps.solvReadProd, State.Keeps.solvEnable, State.Keeps.rest]

theorem State.Keeps.solvMark {s₀ s : State} (hs : s₀.Keeps s) (q : ℕ) : s₀.Keeps (s.solvMark q) := by
  grind [State.solvMark, State.Keeps.modSolv, State.Keeps.rest]

theorem State.Keeps.localSegs {s₀ s : State} (hs : s₀.Keeps s) (k : AKind) (x1 : List (ℕ × ℕ)) : s₀.Keeps (s.localSegs k x1).2 := by
  fun_induction State.localSegs s k x1 <;>
    grind [State.localSegs, State.Keeps.xlatePage, State.Keeps.rest]

theorem State.Keeps.localRegions {s₀ s : State} (hs : s₀.Keeps s) (x1 : List (AKind × ℕ × ℕ)) : s₀.Keeps (s.localRegions x1).2 := by
  fun_induction State.localRegions s x1 <;>
    grind [State.localRegions, State.Keeps.localSegs, State.Keeps.rest]

theorem State.Keeps.readTable {s₀ s : State} (hs : s₀.Keeps s) (x1 : List (ℕ × ℕ)) : s₀.Keeps (s.readTable x1).2.2 := by
  fun_induction State.readTable s x1 <;>
    grind [State.readTable, State.Keeps.vread, State.Keeps.rest]

theorem State.Keeps.solvCheck {s₀ s : State} (hs : s₀.Keeps s) (d : List Byte) : s₀.Keeps (s.solvCheck d).2 := by
  generalize hr : State.solvCheck s d = r
  generalize hf : State.solvCheck = f at hr
  delta State.solvCheck at hf
  subst hf
  beta_reduce at hr
  have h1 := fun (s : State) (hs : s₀.Keeps s) l => hs.readTable l
  have h2 := fun (s : State) (hs : s₀.Keeps s) l => hs.localRegions l
  generalize State.readTable = g1 at h1 hr
  generalize State.localRegions = g2 at h2 hr
  generalize solvBadFormat = g3 at hr
  generalize descMode = g4 at hr
  generalize descTerms = g5 at hr
  generalize descAt = g6 at hr
  generalize fieldLE = g7 at hr
  generalize goodTerms = g8 at hr
  generalize solvBadSize = g9 at hr
  generalize termsOk = g10 at hr
  generalize solvRegions = g11 at hr
  subst hr
  split
  · exact hs
  · extract_lets upd n
    split
    next r bs s1 e =>
    have k1 := (h1 _ hs _).of_eq₂ e
    extract_lets ts
    split
    · exact k1
    · split
      · exact k1
      · split
        · exact k1
        · split
          · exact k1
          · split
            · next e => exact (h2 _ k1 _).of_eq e
            · next e => exact (h2 _ k1 _).of_eq e
            · next e =>
              have k2 := (h2 _ k1 _).of_eq e
              split
              · exact k2
              · split <;> exact k2

theorem State.Keeps.solvUe {s₀ s : State} (hs : s₀.Keeps s) (q : ℕ) : s₀.Keeps (s.solvUe q) := by
  grind [State.solvUe, State.Keeps.setFlag]

theorem State.Keeps.solvTake {s₀ s : State} (hs : s₀.Keeps s) (q va : ℕ) (d : List Byte) : s₀.Keeps (s.solvTake q va d) := by
  generalize hr : State.solvTake s q va d = r
  generalize hf : State.solvTake = f at hr
  delta State.solvTake at hf
  subst hf
  beta_reduce at hr
  have h1 := fun (s : State) (hs : s₀.Keeps s) l => hs.solvCheck l
  have h2 := fun (s : State) (hs : s₀.Keeps s) a b c => hs.vwrite a b c
  generalize State.solvCheck = g1 at h1 hr
  generalize State.vwrite = g2 at h2 hr
  as_aux_lemma =>
    subst hr
    split
    · exact hs.undo _
    · next e =>
      have k1 := (h1 _ hs _).of_eq e
      split
      · exact hs.undo _
      · next e =>
        have k2 := (h2 _ k1 _ _ _).of_eq e
        extract_lets s3 s4
        have k3 : s₀.Keeps s3 := by
          rename_i r _ _
          cases r
          case ok => exact k2
          all_goals exact k2.solvRingErr _
        exact ((State.Keeps.ite (k3.solvUe _) k3).modSolv _ _ |>.inc _).solvCons _
    · next e => exact (((h1 _ hs _).of_eq e).modSolv _ _ |>.setFlag _ _).setFlag _ _

theorem execSolverJobStart_answers (s : State) (q : Fin 64) : s.Answers (execSolverJobStart q s) := by
  have hs := State.Keeps.refl s
  unfold execSolverJobStart
  have h0 := @State.Keeps.ringRead s
  generalize State.ringRead = g0 at h0 ⊢
  as_aux_lemma =>
    grind [State.Answers.next, TRes.state, State.Keeps.wakeUnit, State.Keeps.setFlag, State.Keeps.solvTake, State.Keeps.solvRingErr,
      State.Keeps.rest]

theorem State.Keeps.sread {s₀ s : State} (hs : s₀.Keeps s) (va n : ℕ) : s₀.Keeps (s.sread va n).2 := by
  grind [State.sread, State.Keeps.vread, State.Keeps.rest]

theorem State.Keeps.readRetained {s₀ s : State} (hs : s₀.Keeps s) (h : Shape) (av : ℕ) : s₀.Keeps (s.readRetained h av).2.2 := by
  grind [State.readRetained, State.Keeps.sread, State.Keeps.rest]

theorem State.Keeps.readFactor {s₀ s : State} (hs : s₀.Keeps s) (h : Shape) (av : ℕ) (hd : FHead) (rs : Resid) :
    s₀.Keeps (s.readFactor h av hd rs).2.2 := by
  grind [State.readFactor, State.Keeps.sread, State.Keeps.rest]

theorem State.Keeps.solveOld {s₀ s : State} (hs : s₀.Keeps s) (j : SJob) (p : SysPar) (ps : List ℕ) (av : ℕ) (hd : FHead) (rs : Resid) (hd?
    : Option FHead) :
    s₀.Keeps (s.solveOld j p ps av hd rs hd?).2 := by
  grind [State.solveOld, State.Keeps.readRetained, State.Keeps.readFactor, State.Keeps.rest]

theorem State.Keeps.solveUpd {s₀ s : State} (hs : s₀.Keeps s) (j : SJob) (p : SysPar) (i av : ℕ) (hd : FHead) (rs : Resid) (hd? : Option
    FHead) :
    s₀.Keeps (s.solveUpd j p i av hd rs hd?).2 := by
  grind [State.solveUpd, State.Keeps.sread, State.Keeps.readRetained, State.Keeps.rest]

theorem State.Keeps.solveWarm {s₀ s : State} (hs : s₀.Keeps s) (j : SJob) (p : SysPar) (ps : List ℕ) (i av : ℕ) (hd : FHead) (rs : Resid)
    (hd? : Option FHead) :
    s₀.Keeps (s.solveWarm j p ps i av hd rs hd?).2 := by
  grind [State.solveWarm, State.Keeps.readFactor, State.Keeps.sread, State.Keeps.rest]

theorem State.Keeps.runSystem {s₀ s : State} (hs : s₀.Keeps s) (j : SJob) (inj : Bool) (hit : Option ℕ) :
    s₀.Keeps (s.runSystem j inj hit).2 := by
  grind [State.runSystem, State.Keeps.sread, State.Keeps.solveOld, State.Keeps.solveUpd, State.Keeps.solveWarm, State.Keeps.rest]

theorem State.Keeps.swrites {s₀ s : State} (hs : s₀.Keeps s) (x1 : List (ℕ × List Byte)) : s₀.Keeps (s.swrites x1).2 := by
  fun_induction State.swrites s x1 <;>
    grind [State.swrites, State.Keeps.vwrite, State.Keeps.rest]

theorem State.Keeps.setResid {s₀ s : State} (hs : s₀.Keeps s) (key : ℕ) (old : Resid) (o : SysOut) (hd : FHead) :
    s₀.Keeps (s.setResid key old o hd) := by
  grind [State.setResid, State.Keeps.rest]

theorem State.Keeps.solvCount {s₀ s : State} (hs : s₀.Keeps s) (q : ℕ) (r : SysRes) (inj : Bool) : s₀.Keeps (s.solvCount q r inj) := by
  grind [State.solvCount, State.Keeps.addSat, State.Keeps.inc, State.Keeps.solvUe, State.Keeps.reportC, State.Keeps.injDone]

theorem State.Keeps.endSystem {s₀ s : State} (hs : s₀.Keeps s) (q : ℕ) (j : SJob) (o : SysOut) (inj : Bool) :
    s₀.Keeps (s.endSystem q j o inj) := by
  unfold State.endSystem
  dsimp only
  split
  · exact hs.undo _
  · next e =>
    have h := (hs.swrites _).of_eq e
    refine (State.Keeps.solvCount ?_ _ _ _).modSJob _ _
    split
    · exact (h.updFresh _).setResid _ _ _ _
    · exact h.updFresh _

theorem State.Keeps.nextSystem {s₀ s : State} (hs : s₀.Keeps s) (q : ℕ) (late : Bool) : s₀.Keeps (s.nextSystem q late) := by
  grind [State.nextSystem, State.Keeps.runSystem, State.Keeps.endSystem, State.Keeps.rest]

theorem execSolverSystemEnd_answers (s : State) (q : Fin 64) : s.Answers (execSolverSystemEnd q s) := by
  have hs := State.Keeps.refl s
  unfold execSolverSystemEnd
  grind [State.Answers.next, State.Keeps.nextSystem]

theorem execSolverDeadline_answers (s : State) (q : Fin 64) : s.Answers (execSolverDeadline q s) := by
  have hs := State.Keeps.refl s
  unfold execSolverDeadline
  grind [State.Answers.next, State.Keeps.nextSystem]

theorem execSolverJobEnd_answers (s : State) (q : Fin 64) : s.Answers (execSolverJobEnd q s) := by
  have hs := State.Keeps.refl s
  unfold execSolverJobEnd
  refine .next ?_
  have h0 := @State.Keeps.vwrite s
  generalize State.vwrite = g0 at h0 ⊢
  as_aux_lemma =>
    split
    · exact hs
    · refine .ite hs ?_
      split
      · exact hs.undo _
      · next r s2 _ e =>
        have k1 := (h0 hs _ _ _).of_eq e
        extract_lets s2 s3 cnt s4
        have k2 : s.Keeps s2 := by
          cases r
          case ok => exact k1
          all_goals exact k1.solvRingErr _
        have k3 : s.Keeps s3 := ((k2.modSolv _ _).setFlag _ _).inc _
        exact (State.Keeps.ite (k3.addCounter _ _ _) k3).solvCons _

theorem State.Keeps.viewScan {s₀ s : State} (hs : s₀.Keeps s) (x1 x2 x3 : ℕ) : s₀.Keeps (s.viewScan x1 x2 x3).2 := by
  fun_induction State.viewScan s x1 x2 x3 <;>
    grind [State.viewScan, State.Keeps.xlatePage, State.Keeps.rest]

theorem State.Keeps.viewCheck {s₀ s : State} (hs : s₀.Keeps s) (i : ℕ) : s₀.Keeps (s.viewCheck i).2 := by
  grind [State.viewCheck, State.Keeps.viewScan, State.Keeps.rest]

theorem State.Keeps.viewSlots {s₀ s : State} (hs : s₀.Keeps s) (set : ℕ) (take : Bool) : s₀.Keeps (s.viewSlots set take) := by
  grind [State.viewSlots, State.Keeps.setFld, State.Keeps.foldl]

theorem State.Keeps.setViewStatus {s₀ s : State} (hs : s₀.Keeps s) (i v : ℕ) : s₀.Keeps (s.setViewStatus i v) := by
  grind [State.setViewStatus, State.Keeps.putBarNat]

theorem State.Keeps.viewRegister {s₀ s : State} (hs : s₀.Keeps s) (i : ℕ) : s₀.Keeps (s.viewRegister i) := by
  unfold State.viewRegister
  grind [State.Keeps.viewCheck, State.Keeps.setViewStatus, State.Keeps.viewSlots, State.Keeps.rest]

theorem State.Keeps.retryViews {s₀ s : State} (hs : s₀.Keeps s) : s₀.Keeps (s.retryViews) := by
  grind [State.retryViews, State.Keeps.viewRegister, State.Keeps.foldl]

theorem State.Keeps.viewDeregister {s₀ s : State} (hs : s₀.Keeps s) (i : ℕ) : s₀.Keeps (s.viewDeregister i) := by
  grind [State.viewDeregister, State.Keeps.dropViewRange, State.Keeps.setViewStatus, State.Keeps.viewSlots, State.Keeps.foldl]

theorem State.Keeps.retryDereg {s₀ s : State} (hs : s₀.Keeps s) : s₀.Keeps (s.retryDereg) := by
  grind [State.retryDereg, State.Keeps.viewDeregister, State.Keeps.foldl]

theorem State.Keeps.viewSetEn {s₀ s : State} (hs : s₀.Keeps s) (i b : ℕ) : s₀.Keeps (s.viewSetEn i b) := by
  grind [State.viewSetEn, State.Keeps.putBarNat, State.Keeps.viewRegister, State.Keeps.viewDeregister]

theorem State.Keeps.nakTo {s₀ s : State} (hs : s₀.Keeps s) (src job addr tag cause : ℕ) :
    s₀.Keeps (s.nakTo src job addr tag cause) := by
  grind [State.nakTo, State.Keeps.send, State.Keeps.inc]

theorem State.Keeps.answerReq {s₀ s : State} (hs : s₀.Keeps s) (r : HomeReq) (data : List Byte) : s₀.Keeps (s.answerReq r data) := by
  grind [State.answerReq, State.Keeps.send]

theorem State.Keeps.combine {s₀ s : State} (hs : s₀.Keeps s) (r : HomeReq) : ∀ o, s.combine r = some o → s₀.Keeps o.2 := by
  grind [State.combine, State.Keeps.modFab, State.Keeps.modStk, State.Keeps.syncComb, State.Keeps.rest]

theorem State.Keeps.performReq {s₀ s : State} (hs : s₀.Keeps s) (r : HomeReq) : s₀.Keeps (s.performReq r) := by
  grind [State.performReq, State.Keeps.homePerform, State.Keeps.answerReq, State.Keeps.nakTo, State.Keeps.rest]

theorem State.Keeps.pathRead {s₀ s : State} (hs : s₀.Keeps s) (key len : ℕ) : s₀.Keeps (s.pathRead key len) := by
  grind [State.pathRead, State.Keeps.homeRead, State.Keeps.answer, State.Keeps.rest]

theorem State.Keeps.tryReq {s₀ s : State} (hs : s₀.Keeps s) (r : HomeReq) : s₀.Keeps (s.tryReq r).2 := by
  unfold State.tryReq
  have hc := hs.combine r
  split
  · exact .ite (hs.noteStall _) hs
  · split
    · exact .ite (hs.pathRead _ _) (hs.homeWrite _ _ _)
    · split
      · split
        · next e => have h := hc _ e; exact h
        · exact hs.performReq _
      · exact hs.performReq _

theorem State.Keeps.parkReq {s₀ s : State} (hs : s₀.Keeps s) (r : HomeReq) : s₀.Keeps (s.parkReq r) := by
  grind [State.parkReq, State.Keeps.modFab, State.Keeps.rest]

theorem State.Keeps.serveReq {s₀ s : State} (hs : s₀.Keeps s) (r : HomeReq) : s₀.Keeps (s.serveReq r) := by
  grind [State.serveReq, State.Keeps.parkReq, State.Keeps.tryReq, State.Keeps.rest]

theorem State.Keeps.modCopy {s₀ s : State} (hs : s₀.Keeps s) (id : ℕ) (f : ACopy → ACopy) : s₀.Keeps (s.modCopy id f) := by
  grind [State.modCopy, State.Keeps.modFab, State.Keeps.rest]

theorem State.Keeps.copyRefused {s₀ s : State} (hs : s₀.Keeps s) (id : ℕ) : s₀.Keeps (s.copyRefused id) := by
  grind [State.copyRefused, State.Keeps.modCopy, State.Keeps.breakFlag, State.Keeps.rest]

theorem State.Keeps.getWrite {s₀ s : State} (hs : s₀.Keeps s) (id : ℕ) (x1 : List (ℕ × List Byte)) : s₀.Keeps (s.getWrite id x1) := by
  fun_induction State.getWrite s id x1 <;>
    grind [State.getWrite, State.Keeps.xlate, State.Keeps.serveReq, State.Keeps.markAccess, State.Keeps.modFab, State.Keeps.copyRefused,
      State.Keeps.rest]

theorem State.Keeps.retryGets {s₀ s : State} (hs : s₀.Keeps s) : s₀.Keeps (s.retryGets) := by
  grind [State.retryGets, State.Keeps.getWrite, State.Keeps.modFab, State.Keeps.rest, State.Keeps.foldl]

theorem State.Keeps.retryOne {s₀ s : State} (hs : s₀.Keeps s) (x1 : WaitReq) : s₀.Keeps (s.retryOne x1).2 := by
  unfold State.retryOne
  grind [State.Keeps.tryReq, State.Keeps.modFab, State.Keeps.hostServe, State.Keeps.dropHReq, State.Keeps.rest]

theorem State.Keeps.retryReqs {s₀ s : State} (hs : s₀.Keeps s) (x1 : List WaitReq) (x2 : List ℕ) : s₀.Keeps (s.retryReqs x1 x2) := by
  fun_induction State.retryReqs s x1 x2 <;>
    grind [State.retryReqs, State.Keeps.retryOne, State.Keeps.rest]

theorem State.Keeps.retryUnits {s₀ s : State} (hs : s₀.Keeps s) : s₀.Keeps (s.retryUnits) := by
  grind [State.retryUnits, State.Keeps.copyRetry, State.Keeps.retryLaunches, State.Keeps.solvRetry, State.Keeps.foldl]

theorem State.Keeps.giveCredit {s₀ s : State} (hs : s₀.Keeps s) (p vc n : ℕ) : s₀.Keeps (s.giveCredit p vc n) := by
  grind [State.giveCredit, State.Keeps.setPort, State.Keeps.rest]

theorem State.Keeps.giveKept {s₀ s : State} (hs : s₀.Keeps s) : s₀.Keeps (s.giveKept) := by
  grind [State.giveKept, State.Keeps.giveCredit, State.Keeps.foldl]

theorem State.Keeps.releaseWaiting {s₀ s : State} (hs : s₀.Keeps s) : s₀.Keeps (s.releaseWaiting) := by
  unfold State.releaseWaiting
  exact (((((hs.retryReqs _ _).giveKept.retryGets.retryHz).retryViews).retryDereg).retryCan.retryUnits).ringService

theorem State.Keeps.forward {s₀ s : State} (hs : s₀.Keeps s) (cmd : ℕ) (k : Packet) : s₀.Keeps (s.forward cmd k) := by
  grind [State.forward, State.Keeps.send, State.Keeps.sendOn, State.Keeps.rest]

theorem State.Keeps.integrity {s₀ s : State} (hs : s₀.Keeps s) (port : ℕ) (loc : W64) : s₀.Keeps (s.integrity port loc) := by
  grind [State.integrity, State.Keeps.report]

theorem State.Keeps.arrivesHere {s₀ s : State} (hs : s₀.Keeps s) (port cmd : ℕ) (k : Packet) : s₀.Keeps (s.arrivesHere port cmd k) := by
  grind [State.arrivesHere, State.Keeps.nakTo, State.Keeps.integrity, State.Keeps.caddApply, State.Keeps.send, State.Keeps.serveReq,
    State.Keeps.rest]

theorem State.Keeps.arrive {s₀ s : State} (hs : s₀.Keeps s) (port cmd : ℕ) (k : Packet) : s₀.Keeps (s.arrive port cmd k) := by
  grind [State.arrive, State.Keeps.giveCredit, State.Keeps.arrivesHere, State.Keeps.forward]

theorem execRd_answers (s : State) (port : Fin 16) (pkt : Packet) : s.Answers (execRd port pkt s) := by
  have hs := State.Keeps.refl s
  unfold execRd
  grind [State.Answers.next, State.Keeps.arrive]

theorem execWr_answers (s : State) (port : Fin 16) (pkt : Packet) : s.Answers (execWr port pkt s) := by
  have hs := State.Keeps.refl s
  unfold execWr
  grind [State.Answers.next, State.Keeps.arrive]

theorem execAmo_answers (s : State) (port : Fin 16) (pkt : Packet) : s.Answers (execAmo port pkt s) := by
  have hs := State.Keeps.refl s
  unfold execAmo
  grind [State.Answers.next, State.Keeps.arrive]

theorem execCadd_answers (s : State) (port : Fin 16) (pkt : Packet) : s.Answers (execCadd port pkt s) := by
  have hs := State.Keeps.refl s
  unfold execCadd
  grind [State.Answers.next, State.Keeps.arrive]

theorem execHoldSend_answers (s : State) (id : ℕ) : s.Answers (execHoldSend id s) := by
  have hs := State.Keeps.refl s
  unfold execHoldSend
  grind [State.Answers.next, State.Keeps.send, State.Keeps.rest]

theorem execCombinerApply_answers (s : State) (st : Fin 8) (line : ℕ) : s.Answers (execCombinerApply st line s) := by
  have hs := State.Keeps.refl s
  unfold execCombinerApply
  grind [State.Answers.next, State.Keeps.releaseWaiting, State.Keeps.combApply]

theorem State.Keeps.modSnp {s₀ s : State} (hs : s₀.Keeps s) (f : SnapSt → SnapSt) : s₀.Keeps (s.modSnp f) := by
  grind [State.modSnp, State.Keeps.rest]

theorem State.Keeps.dirtyBack {s₀ s : State} (hs : s₀.Keeps s) (gs : List ℕ) : s₀.Keeps (s.dirtyBack gs) := by
  grind [State.dirtyBack, State.Keeps.dirtyGran, State.Keeps.foldl]

theorem State.Keeps.syncSnap {s₀ s : State} (hs : s₀.Keeps s) : s₀.Keeps (s.syncSnap) := by
  grind [State.syncSnap, State.Keeps.setFlag, State.Keeps.rest]

theorem State.Keeps.snapEnd {s₀ s : State} (hs : s₀.Keeps s) (code : ℕ) : s₀.Keeps (s.snapEnd code) := by
  unfold State.snapEnd
  split
  · exact hs
  · have h := fun f g => (((hs.modSnp f).dirtyBack g).setFld fSnap_CODE code).syncSnap.releaseWaiting
    exact .ite ((h ..).setFlag _ _) (h ..)

theorem State.Keeps.snapFail {s₀ s : State} (hs : s₀.Keeps s) (code : ℕ) : s₀.Keeps (s.snapFail code) := by
  grind [State.snapFail, State.Keeps.event, State.Keeps.snapEnd, State.Keeps.rest]

theorem State.Keeps.syncStore {s₀ s : State} (hs : s₀.Keeps s) : s₀.Keeps (s.syncStore) := by
  grind [State.syncStore, State.Keeps.setFld, State.Keeps.foldl]

theorem State.Keeps.wear {s₀ s : State} (hs : s₀.Keeps s) : s₀.Keeps (s.wear) := by
  grind [State.wear, State.Keeps.setFld, State.Keeps.draw, State.Keeps.event]

theorem State.Keeps.keepGens {s₀ s : State} (hs : s₀.Keeps s) (f : SManifest → Bool) : s₀.Keeps (s.keepGens f) := by
  grind [State.keepGens, State.Keeps.syncStore, State.Keeps.modSnp, State.Keeps.rest]

theorem State.Keeps.agree {s₀ s : State} (hs : s₀.Keeps s) (g : ℕ) : s₀.Keeps (s.agree g) := by
  grind [State.agree, State.Keeps.modSnp, State.Keeps.setFld, State.Keeps.keepGens, State.Keeps.rest]

theorem State.Keeps.unagree {s₀ s : State} (hs : s₀.Keeps s) (g : ℕ) : s₀.Keeps (s.unagree g) := by
  grind [State.unagree, State.Keeps.keepGens, State.Keeps.setFld, State.Keeps.modSnp, State.Keeps.dirtyBack, State.Keeps.rest]

theorem State.Keeps.agreement {s₀ s : State} (hs : s₀.Keeps s) (glast lowest : ℕ) : s₀.Keeps (s.agreement glast lowest) := by
  grind [State.agreement, State.Keeps.agree, State.Keeps.unagree]

theorem State.Keeps.remEnd {s₀ s : State} (hs : s₀.Keeps s) (t : Tid) (i : Instr) (r : RemOp) : s₀.Keeps (s.remEnd t i r) := by
  unfold State.remEnd
  have h := hs.modCtx t fun c => { c with rem := none }
  dsimp only
  split
  · exact State.Keeps.settle _ _ _ (h.remoteErr _ _ _ _ _ _)
  · exact State.Keeps.settle _ _ (.done _) (.ite ((h.putResult _ _ _ _).acquired _) (h.putResult _ _ _ _))
  · exact State.Keeps.settle _ _ (.done _) h

theorem State.Keeps.remPart {s₀ s : State} (hs : s₀.Keeps s) (t : Tid) (tag port : ℕ) (res : List Byte ⊕ ℕ) :
    s₀.Keeps (s.remPart t tag port res) := by
  grind [State.remPart, State.Keeps.remEnd, State.Keeps.setCtx, State.Keeps.rest]

theorem State.Keeps.lateRefusal {s₀ s : State} (hs : s₀.Keeps s) (t : Tid) (va : W64) : s₀.Keeps (s.lateRefusal t va) := by
  grind [State.lateRefusal, State.Keeps.modCtx, State.Keeps.rest]

theorem State.Keeps.copyOver {s₀ s : State} (hs : s₀.Keeps s) (id : ℕ) : s₀.Keeps (s.copyOver id) := by
  grind [State.copyOver, State.Keeps.modFab, State.Keeps.rest]

theorem State.Keeps.putPacket {s₀ s : State} (hs : s₀.Keeps s) (c : ACopy) (addr n rva : ℕ) :
    ∀ o, s.putPacket c addr n rva = some o → s₀.Keeps o := by
  unfold State.putPacket
  grind [State.Keeps.vread, State.Keeps.turned, State.Keeps.copyRefused, State.Keeps.refusalNote, State.Keeps.request, State.Keeps.rest]

theorem State.Keeps.getPacket {s₀ s : State} (hs : s₀.Keeps s) (c : ACopy) (addr n rva : ℕ) :
    ∀ o, s.getPacket c addr n rva = some o → s₀.Keeps o := by
  grind [State.getPacket, State.Keeps.turned, State.Keeps.getWrite, State.Keeps.copyRefused, State.Keeps.refusalNote, State.Keeps.request,
    State.Keeps.rest]

theorem State.Keeps.copyPacket {s₀ s : State} (hs : s₀.Keeps s) (c : ACopy) : ∀ o, s.copyPacket c = some o → s₀.Keeps o := by
  unfold State.copyPacket
  have hn : ∀ (r : Option State) (n : Nat), (∀ u, r = some u → s₀.Keeps u) →
      ∀ u, (r.map fun x => x.modCopy c.id fun y => { y with sent := y.sent + n }) = some u → s₀.Keeps u := by
    rintro r n hr u hu
    obtain ⟨x, hx, rfl⟩ := Option.map_eq_some_iff.1 hu
    exact (hr x hx).modCopy _ _
  dsimp only
  split
  · next e =>
    have h := (hs.xlate _ _ _).of_eq e
    refine hn _ _ fun u hu => ?_
    split at hu
    · exact h.putPacket _ _ _ _ u hu
    · exact h.getPacket _ _ _ _ u hu
  · simp
  · next e =>
    refine hn _ _ ?_
    rintro u ⟨⟩
    exact (((hs.xlate _ _ _).of_eq e).refusalNote _ _ _ _ _).copyRefused _

theorem State.Keeps.pumpCopy {s₀ s : State} (hs : s₀.Keeps s) (id x1 : ℕ) : s₀.Keeps (s.pumpCopy id x1) := by
  fun_induction State.pumpCopy s id x1 <;>
    grind [State.pumpCopy, State.Keeps.copyPacket, State.Keeps.rest]

theorem State.Keeps.pumpCopies {s₀ s : State} (hs : s₀.Keeps s) : s₀.Keeps (s.pumpCopies) := by
  grind [State.pumpCopies, State.Keeps.pumpCopy, State.Keeps.foldl]

theorem State.Keeps.keepGot {s₀ s : State} (hs : s₀.Keeps s) (c : RCtx) (bs : List Byte) (bad : Option (ℕ × ℕ)) :
    s₀.Keeps (s.keepGot c bs bad) := by
  grind [State.keepGot, State.Keeps.modFab, State.Keeps.rest]

theorem State.Keeps.granted {s₀ s : State} (hs : s₀.Keeps s) (c : RCtx) (bs : List Byte) : s₀.Keeps (s.granted c bs) := by
  grind [State.granted, State.Keeps.dropCtx, State.Keeps.keepGot, State.Keeps.remPart, State.Keeps.pumpCopies, State.Keeps.getWrite,
    State.Keeps.copyOver, State.Keeps.modCopy, State.Keeps.rest]

theorem State.Keeps.denied {s₀ s : State} (hs : s₀.Keeps s) (c : RCtx) (cause : ℕ) : s₀.Keeps (s.denied c cause) := by
  unfold State.denied
  have h := hs.refusalNote cause c.port c.target c.handle c.va
  have hb := (h.breakFlag c.target fun f => f.tags.contains c.tag).dropCtx c.tag
  have hk := (h.dropCtx c.tag).keepGot c [] (some (cause, c.port))
  dsimp only
  split
  · exact (h.dropCtx _).remPart _ _ _ _
  · exact (h.dropCtx _).remPart _ _ _ _
  · exact ((State.Keeps.ite h (h.breakFlag _ _)).dropCtx _).lateRefusal _ _
  · exact hb.setMat _ _
  · exact (h.dropCtx _).setMat _ _
  · exact ((h.copyRefused _).dropCtx _).pumpCopies
  · exact ((h.copyRefused _).dropCtx _).pumpCopies
  · exact (((h.copyRefused _).dropCtx _).modCopy _ _).copyOver _
  · exact (hb.setModelBit _ _ _).setModelBit _ _ _
  · exact hb.snapFail _
  · exact hb
  · exact hk
  · exact hk
  · exact hk
  · exact hk
  · exact hk
  · exact h.dropCtx _

theorem State.Keeps.respond {s₀ s : State} (hs : s₀.Keeps s) (port cmd : ℕ) (k : Packet) : s₀.Keeps (s.respond port cmd k) := by
  grind [State.respond, State.Keeps.inc, State.Keeps.modFab, State.Keeps.releaseWaiting, State.Keeps.denied, State.Keeps.integrity,
    State.Keeps.granted, State.Keeps.rest]

theorem State.Keeps.response {s₀ s : State} (hs : s₀.Keeps s) (port cmd : ℕ) (k : Packet) : s₀.Keeps (s.response port cmd k) := by
  grind [State.response, State.Keeps.giveCredit, State.Keeps.respond, State.Keeps.send]

theorem execRdr_answers (s : State) (port : Fin 16) (pkt : Packet) (data : List Byte) : s.Answers (execRdr port pkt data s) := by
  have hs := State.Keeps.refl s
  unfold execRdr
  grind [State.Answers.next, State.Keeps.response, State.Keeps.rest]

theorem execAck_answers (s : State) (port : Fin 16) (pkt : Packet) : s.Answers (execAck port pkt s) := by
  have hs := State.Keeps.refl s
  unfold execAck
  grind [State.Answers.next, State.Keeps.response]

theorem execNakResponse_answers (s : State) (port : Fin 16) (pkt : Packet) : s.Answers (execNakResponse port pkt s) := by
  have hs := State.Keeps.refl s
  unfold execNakResponse
  grind [State.Answers.next, State.Keeps.response]

theorem execHold_answers (s : State) (arrival : Fin 16 × Packet) : s.Answers (execHold arrival s) := by
  have hs := State.Keeps.refl s
  unfold execHold
  grind [State.Answers.next, State.Keeps.response]

theorem State.Keeps.timedOut {s₀ s : State} (hs : s₀.Keeps s) (c : RCtx) : s₀.Keeps (s.timedOut c) := by
  grind [State.timedOut, State.Keeps.modPort, State.Keeps.modFab, State.Keeps.rest]

theorem execRemoteTimeout_answers (s : State) (tag : ℕ) (_held : Bool) : s.Answers (execRemoteTimeout tag _held s) := by
  have hs := State.Keeps.refl s
  unfold execRemoteTimeout
  grind [State.Answers.next, State.Keeps.releaseWaiting, State.Keeps.denied, State.Keeps.inc, State.Keeps.timedOut, State.Keeps.rest]

theorem execRemoteStoreRefusal_answers (s : State) (t : Tid) : s.Answers (execRemoteStoreRefusal t s) := by
  have hs := State.Keeps.refl s
  unfold execRemoteStoreRefusal
  grind [State.Answers.next, TRes.state, State.Keeps.takeFault, State.Keeps.setCtx, State.Keeps.rest]

theorem State.Keeps.flagNew {s₀ s : State} (hs : s₀.Keeps s) (t : Tid) (target : ℕ) (va : W64) (parts : List (ℕ × List Byte)) :
    s₀.Keeps (s.flagNew t target va parts) := by
  grind [State.flagNew, State.Keeps.modFab, State.Keeps.rest]

theorem State.Keeps.flagIssue {s₀ s : State} (hs : s₀.Keeps s) (t : Tid) (target : ℕ) (first : Bool) (va : W64) (parts : List (ℕ × List
    Byte)) :
    s₀.Keeps (s.flagIssue t target first va parts) := by
  grind [State.flagIssue, State.Keeps.modFab, State.Keeps.flagNew, State.Keeps.rest]

theorem State.Keeps.dropFlag {s₀ s : State} (hs : s₀.Keeps s) (id : ℕ) : s₀.Keeps (s.dropFlag id) := by
  grind [State.dropFlag, State.Keeps.modFab, State.Keeps.rest]

theorem State.Keeps.flagParts {s₀ s : State} (hs : s₀.Keeps s) (g : FlagReq) (x1 : List (ℕ × List Byte)) :
    s₀.Keeps (s.flagParts g x1).2 := by
  fun_induction State.flagParts s g x1 <;>
    grind [State.flagParts, State.Keeps.turned, State.Keeps.refusalNote, State.Keeps.request, State.Keeps.modFab, State.Keeps.rest]

theorem execFlaggedStoreSend_answers (s : State) (id : ℕ) : s.Answers (execFlaggedStoreSend id s) := by
  have hs := State.Keeps.refl s
  unfold execFlaggedStoreSend
  grind [State.Answers.next, TRes.state, State.Keeps.lateRefusal, State.Keeps.refusalNote, State.Keeps.dropFlag, State.Keeps.flagParts,
    State.Keeps.modFab, State.Keeps.rest]

theorem State.Keeps.refuseQueued {s₀ s : State} (hs : s₀.Keeps s) (k : OutPkt) : s₀.Keeps (s.refuseQueued k) := by
  grind [State.refuseQueued, State.Keeps.send, State.Keeps.denied, State.Keeps.rest]

theorem State.Keeps.clearLink {s₀ s : State} (hs : s₀.Keeps s) (p : ℕ) : s₀.Keeps (s.clearLink p) := by
  unfold State.clearLink
  grind [State.Keeps.setFld, State.Keeps.setFlag]

theorem State.Keeps.stopPort {s₀ s : State} (hs : s₀.Keeps s) (p st : ℕ) : s₀.Keeps (s.stopPort p st) := by
  grind [State.stopPort, State.Keeps.refuseQueued, State.Keeps.setPort, State.Keeps.setPortState, State.Keeps.clearLink, State.Keeps.foldl]

theorem State.Keeps.portDown {s₀ s : State} (hs : s₀.Keeps s) (p : ℕ) : s₀.Keeps (s.portDown p) := by
  grind [State.portDown, State.Keeps.releaseWaiting, State.Keeps.hzEdges, State.Keeps.report, State.Keeps.stopPort]

theorem State.Keeps.retrainPort {s₀ s : State} (hs : s₀.Keeps s) (p : ℕ) : s₀.Keeps (s.retrainPort p) := by
  grind [State.retrainPort, State.Keeps.modPort, State.Keeps.addSat, State.Keeps.setPortState, State.Keeps.rest]

theorem State.Keeps.portEn {s₀ s : State} (hs : s₀.Keeps s) (p : ℕ) : s₀.Keeps (s.portEn p) := by
  grind [State.portEn, State.Keeps.setPort, State.Keeps.setPortState]

theorem State.Keeps.portDis {s₀ s : State} (hs : s₀.Keeps s) (p : ℕ) : s₀.Keeps (s.portDis p) := by
  grind [State.portDis, State.Keeps.releaseWaiting, State.Keeps.hzEdges, State.Keeps.stopPort]

theorem State.Keeps.portRetr {s₀ s : State} (hs : s₀.Keeps s) (p : ℕ) : s₀.Keeps (s.portRetr p) := by
  grind [State.portRetr, State.Keeps.retrainPort, State.Keeps.modPort, State.Keeps.setPortState, State.Keeps.setFlag, State.Keeps.rest]

theorem State.Keeps.encMismatch {s₀ s : State} (hs : s₀.Keeps s) (p : ℕ) : s₀.Keeps (s.encMismatch p) := by
  grind [State.encMismatch, State.Keeps.setFlag, State.Keeps.portDown]

theorem State.Keeps.trainFailed {s₀ s : State} (hs : s₀.Keeps s) (p : ℕ) : s₀.Keeps (s.trainFailed p) := by
  grind [State.trainFailed, State.Keeps.portDown, State.Keeps.modPort, State.Keeps.rest]

theorem execPortTrainingDone_answers (s : State) (p : Fin 16) (v2 : Bool) (lanes : BitVec 4) (peer : BitVec 16) (enc : Bool) :
    s.Answers (execPortTrainingDone p v2 lanes peer enc s) := by
  have hs := State.Keeps.refl s
  unfold execPortTrainingDone
  have h0 := @State.Keeps.draw s
  generalize State.draw = g0 at h0 ⊢
  as_aux_lemma =>
    grind [State.Answers.next, TRes.state, State.Keeps.trainFailed, State.Keeps.encMismatch, State.Keeps.setFld, State.Keeps.setFlag,
      State.Keeps.setPortState, State.Keeps.pump, State.Keeps.modPort]

theorem execPortTrainingFail_answers (s : State) (p : Fin 16) (encMismatch kxFail : Bool) :
    s.Answers (execPortTrainingFail p encMismatch kxFail s) := by
  have hs := State.Keeps.refl s
  unfold execPortTrainingFail
  grind [State.Answers.next, State.Keeps.addSat, State.Keeps.encMismatch, State.Keeps.trainFailed]

theorem execPortLossOfSignal_answers (s : State) (p : Fin 16) : s.Answers (execPortLossOfSignal p s) := by
  have hs := State.Keeps.refl s
  unfold execPortLossOfSignal
  grind [State.Answers.next, State.Keeps.retrainPort]

theorem State.Keeps.replayFrom {s₀ s : State} (hs : s₀.Keeps s) (p : ℕ) (seq : BitVec 16) : s₀.Keeps (s.replayFrom p seq) := by
  grind [State.replayFrom, State.Keeps.setFld, State.Keeps.setPort, State.Keeps.retrainPort, State.Keeps.rest]

theorem execNak_answers (s : State) (p : Fin 16) (seq : BitVec 16) : s.Answers (execNak p seq s) := by
  have hs := State.Keeps.refl s
  unfold execNak
  grind [State.Answers.next, State.Keeps.replayFrom]

theorem execAckTimeout_answers (s : State) (p : Fin 16) : s.Answers (execAckTimeout p s) := by
  have hs := State.Keeps.refl s
  unfold execAckTimeout
  grind [State.Answers.next, State.Keeps.replayFrom, State.Keeps.rest]

theorem State.Keeps.sendNak {s₀ s : State} (hs : s₀.Keeps s) (p : ℕ) : s₀.Keeps (s.sendNak p) := by
  grind [State.sendNak, State.Keeps.answer, State.Keeps.modPort, State.Keeps.rest]

theorem State.Keeps.passOn {s₀ s : State} (hs : s₀.Keeps s) (port cmd : ℕ) (k : Packet) : s₀.Keeps (s.passOn port cmd k) := by
  grind [State.passOn, State.Keeps.giveCredit, State.Keeps.send]

theorem State.Keeps.packetIn {s₀ s : State} (hs : s₀.Keeps s) (port cmd : ℕ) (k : Packet) : s₀.Keeps (s.packetIn port cmd k) := by
  grind [State.packetIn, State.Keeps.response, State.Keeps.passOn, State.Keeps.arrive]

theorem State.Keeps.deliver {s₀ s : State} (hs : s₀.Keeps s) (p x1 : ℕ) : s₀.Keeps (s.deliver p x1) := by
  fun_induction State.deliver s p x1 <;>
    grind [State.deliver, State.Keeps.modPort, State.Keeps.packetIn, State.Keeps.rest]

theorem State.Keeps.takeSlots {s₀ s : State} (hs : s₀.Keeps s) (p : ℕ) (b : List Byte) : s₀.Keeps (s.takeSlots p b) := by
  grind [State.takeSlots, State.Keeps.modPort, State.Keeps.deliver, State.Keeps.rest]

theorem State.Keeps.tagFlit {s₀ s : State} (hs : s₀.Keeps s) (p : ℕ) (seq : BitVec 16) (tag : List Byte) :
    s₀.Keeps (s.tagFlit p seq tag) := by
  grind [State.tagFlit, State.Keeps.takeSlots, State.Keeps.setPort, State.Keeps.addSat, State.Keeps.portDown, State.Keeps.draw,
    State.Keeps.sendNak, State.Keeps.rest]

theorem State.Keeps.inSeq {s₀ s : State} (hs : s₀.Keeps s) (p : ℕ) (seq : BitVec 16) (tagged : Bool) (b : List Byte) :
    s₀.Keeps (s.inSeq p seq tagged b) := by
  grind [State.inSeq, State.Keeps.tagFlit, State.Keeps.modPort, State.Keeps.takeSlots, State.Keeps.rest]

theorem State.Keeps.goodFlit {s₀ s : State} (hs : s₀.Keeps s) (p : ℕ) (b : List Byte) : s₀.Keeps (s.goodFlit p b) := by
  grind [State.goodFlit, State.Keeps.pump, State.Keeps.modPort, State.Keeps.sendNak, State.Keeps.inSeq, State.Keeps.replayFrom]

theorem execFlitReceive_answers (s : State) (p : Fin 16) (bytes : List Byte) (fec : Option ℕ) :
    s.Answers (execFlitReceive p bytes fec s) := by
  have hs := State.Keeps.refl s
  unfold execFlitReceive
  grind [State.Answers.next, State.Keeps.setFld, State.Keeps.inc, State.Keeps.sendNak, State.Keeps.goodFlit, State.Keeps.rest]

theorem execRekey_answers (s : State) (p : Fin 16) (tx : Bool) : s.Answers (execRekey p tx s) := by
  have hs := State.Keeps.refl s
  unfold execRekey
  grind [State.Answers.next, State.Keeps.modPort, State.Keeps.rest]

theorem State.Keeps.sideOf {s₀ s : State} (hs : s₀.Keeps s) (who : Who) (k : AKind) (x1 : List (ℕ × ℕ)) (x2 : Option Side) :
    s₀.Keeps (s.sideOf who k x1 x2).2.2 := by
  fun_induction State.sideOf s who k x1 x2 <;>
    grind [State.sideOf, State.Keeps.xlate, State.Keeps.rest]

theorem State.Keeps.addCopy {s₀ s : State} (hs : s₀.Keeps s) (c : ACopy) : s₀.Keeps (s.addCopy c) := by
  grind [State.addCopy, State.Keeps.pumpCopies, State.Keeps.modFab, State.Keeps.rest]

theorem State.Keeps.acopySides {s₀ s : State} (hs : s₀.Keeps s) (c : ACopy) (a b : Side) : s₀.Keeps (s.acopySides c a b).state := by
  unfold State.acopySides
  grind [TRes.state, State.Keeps.addCopy, State.Keeps.rest]

theorem execAcopy_answers (s : State) (t : Tid) (a : Reg) : s.Answers (execAcopy t a s) := by
  have hs := State.Keeps.refl s
  unfold execAcopy
  refine .next ?_
  have h0 := @State.Keeps.vread s
  generalize State.vread = g0 at h0 ⊢
  have h1 := @State.Keeps.sideOf s
  generalize State.sideOf = g1 at h1 ⊢
  as_aux_lemma =>
    refine hs.issue _ _ _ _ fun s1 k1 => ?_
    refine .iteState k1 (.iteState k1 ?_)
    split
    · next e =>
      have k2 := (h0 k1 _ _ _).of_eq e
      refine .iteState k2 ?_
      extract_lets c
      split
      · next e =>
        have k3 := (h1 k2 _ _ _ _).of_eq₂ e
        split
        · next e => exact ((h1 k3 _ _ _ _).of_eq₂ e).acopySides _ _ _
        all_goals next e => exact (h1 k3 _ _ _ _).of_eq₂ e
      all_goals next e => exact (h1 k2 _ _ _ _).of_eq₂ e
    · next e => exact ((h0 k1 _ _ _).of_eq e).readFault _ _

theorem State.Keeps.sendCadd {s₀ s : State} (hs : s₀.Keeps s) (c : ACopy) : s₀.Keeps (s.sendCadd c) := by
  unfold State.sendCadd
  dsimp only
  split
  · split
    · next e => exact (((((hs.turned _ _ _ _ _ _).of_eq e).refusalNote _ _ _ _ _).copyRefused _).modCopy _ _).copyOver _
    · next e => exact (((hs.turned _ _ _ _ _ _).of_eq e).modCopy _ _).copyOver _
  · split
    · next e => exact ((hs.request _ _ _ _).of_eq e).modCopy _ _
    · next e => exact ((((hs.request _ _ _ _).of_eq e).copyRefused _).modCopy _ _).copyOver _
    · exact hs

theorem execAcopyWritesDone_answers (s : State) (id : ℕ) : s.Answers (execAcopyWritesDone id s) := by
  have hs := State.Keeps.refl s
  unfold execAcopyWritesDone
  grind [State.Answers.next, State.Keeps.pumpCopies, State.Keeps.sendCadd, State.Keeps.copyOver, State.Keeps.modCopy, State.Keeps.rest]

theorem execAcopyComplete_answers (s : State) (id : ℕ) : s.Answers (execAcopyComplete id s) := by
  have hs := State.Keeps.refl s
  unfold execAcopyComplete
  grind [State.Answers.next, State.Keeps.modFab, State.Keeps.pumpCopies, State.Keeps.addCounter, State.Keeps.rest]

theorem execAcntAlloc_answers (s : State) (t : Tid) (d : Reg) : s.Answers (execAcntAlloc t d s) := by
  have hs := State.Keeps.refl s
  unfold execAcntAlloc
  grind [State.Answers.next, TRes.state, State.Keeps.issue, State.Keeps.modCtx, State.Keeps.setCounter, State.Keeps.modFab,
    State.Keeps.rest]

theorem State.Keeps.onCounter {s₀ s : State} (hs : s₀.Keeps s) (t : Tid) (i : Instr) (a : Reg) (f : State → ℕ → TRes) (h_f : ∀ v1 v2,
    s₀.Keeps v1 → s₀.Keeps (f v1 v2).state) :
    s₀.Keeps (s.onCounter t i a f) := by
  grind [State.onCounter, TRes.state, State.Keeps.issue]

theorem execAcntFree_answers (s : State) (t : Tid) (a : Reg) : s.Answers (execAcntFree t a s) := by
  have hs := State.Keeps.refl s
  unfold execAcntFree
  grind [State.Answers.next, TRes.state, State.Keeps.onCounter, State.Keeps.modFab, State.Keeps.rest]

theorem execAcntWait_answers (s : State) (t : Tid) (d a b : Reg) : s.Answers (execAcntWait t d a b s) := by
  have hs := State.Keeps.refl s
  unfold execAcntWait
  grind [State.Answers.next, TRes.state, State.Keeps.onCounter, State.Keeps.modCtx, State.Keeps.acquired]

theorem execAcntSet_answers (s : State) (t : Tid) (a b : Reg) : s.Answers (execAcntSet t a b s) := by
  have hs := State.Keeps.refl s
  unfold execAcntSet
  grind [State.Answers.next, TRes.state, State.Keeps.onCounter, State.Keeps.setCounter]

theorem State.Keeps.syncWin {s₀ s : State} (hs : s₀.Keeps s) : s₀.Keeps (s.syncWin) := by
  grind [State.syncWin, State.Keeps.setFld]

theorem State.Keeps.addWindow {s₀ s : State} (hs : s₀.Keeps s) (r : List Byte) (i : ℕ) : s₀.Keeps (s.addWindow r i) := by
  grind [State.addWindow, State.Keeps.syncWin, State.Keeps.putBar]

theorem State.Keeps.dropWindow {s₀ s : State} (hs : s₀.Keeps s) (i : ℕ) : s₀.Keeps (s.dropWindow i) := by
  grind [State.dropWindow, State.Keeps.syncWin, State.Keeps.putBar]

theorem execWreg_answers (s : State) (t : Tid) (d a : Reg) : s.Answers (execWreg t d a s) := by
  have hs := State.Keeps.refl s
  unfold execWreg
  have h0 := @State.Keeps.vread s
  generalize State.vread = g0 at h0 ⊢
  as_aux_lemma =>
    grind [State.Answers.next, TRes.state, State.Keeps.issue, State.Keeps.modCtx, State.Keeps.addWindow, State.Keeps.readFault,
      State.Keeps.rest]

theorem execWdereg_answers (s : State) (t : Tid) (a : Reg) : s.Answers (execWdereg t a s) := by
  have hs := State.Keeps.refl s
  unfold execWdereg
  grind [State.Answers.next, TRes.state, State.Keeps.issue, State.Keeps.dropWindow]

theorem State.Keeps.localRange {s₀ s : State} (hs : s₀.Keeps s) (va n : ℕ) : s₀.Keeps (s.localRange va n).2 := by
  grind [State.localRange, State.Keeps.targets, State.Keeps.rest]

theorem State.Keeps.groupTables {s₀ s : State} (hs : s₀.Keeps s) (b : List Byte) : s₀.Keeps (s.groupTables b).2 := by
  generalize hr : State.groupTables s b = r
  generalize hf : State.groupTables = f at hr
  delta State.groupTables at hf
  subst hf
  beta_reduce at hr
  dsimp only at hr
  split at hr
  · next e =>
    have h := (hs.localRange _ _).of_eq e
    split at hr
    · next e =>
      have h2 := (h.vread _ _ _).of_eq e
      split at hr
      · subst hr; exact h2
      · split at hr
        · subst hr; exact h2
        · split at hr
          · next e => subst hr; exact (h2.localRange _ _).of_eq e
          · next e => subst hr; exact (h2.localRange _ _).of_eq e
          · next e => subst hr; exact (h2.localRange _ _).of_eq e
    · next e => subst hr; exact (h.vread _ _ _).of_eq e
    · next e => subst hr; exact (h.vread _ _ _).of_eq e
  · next e => subst hr; exact (hs.localRange _ _).of_eq e
  · next e => subst hr; exact (hs.localRange _ _).of_eq e

theorem State.Keeps.groupCheck {s₀ s : State} (hs : s₀.Keeps s) (b : List Byte) : s₀.Keeps (s.groupCheck b).2 := by
  grind [State.groupCheck, State.Keeps.groupTables]

theorem execGcreate_answers (s : State) (t : Tid) (d a : Reg) : s.Answers (execGcreate t d a s) := by
  have hs := State.Keeps.refl s
  unfold execGcreate
  have h0 := @State.Keeps.vread s
  generalize State.vread = g0 at h0 ⊢
  have h1 := @State.Keeps.groupCheck s
  generalize State.groupCheck = g1 at h1 ⊢
  as_aux_lemma =>
    grind [State.Answers.next, TRes.state, State.Keeps.issue, State.Keeps.putGroup, State.Keeps.modCtx, State.Keeps.readFault,
      State.Keeps.rest]

theorem execGdestroy_answers (s : State) (t : Tid) (d a : Reg) : s.Answers (execGdestroy t d a s) := by
  have hs := State.Keeps.refl s
  unfold execGdestroy
  grind [State.Answers.next, TRes.state, State.Keeps.issue, State.Keeps.modCtx, State.Keeps.dropGroup]

theorem execHzred_answers (s : State) (t : Tid) (a : Reg) : s.Answers (execHzred t a s) := by
  have hs := State.Keeps.refl s
  unfold execHzred
  have h0 := @State.Keeps.vread s
  generalize State.vread = g0 at h0 ⊢
  as_aux_lemma =>
    grind [State.Answers.next, TRes.state, State.Keeps.issue, State.Keeps.hzSettle, State.Keeps.hzContribute, State.Keeps.readFault,
      State.Keeps.rest]

theorem execHazelPacket_answers (s : State) (p : HzPacket) : s.Answers (execHazelPacket p s) := by
  have hs := State.Keeps.refl s
  unfold execHazelPacket
  grind [State.Answers.next, State.Keeps.hzSettle, State.Keeps.hzIn, State.Keeps.send]

theorem execHazelWarn_answers (s : State) (gid : ℕ) (boundary : Bool) (seq child : ℕ) :
    s.Answers (execHazelWarn gid boundary seq child s) := by
  have hs := State.Keeps.refl s
  unfold execHazelWarn
  grind [State.Answers.next, State.Keeps.event, State.Keeps.hzPut, State.Keeps.rest]

theorem execHazelAbort_answers (s : State) (gid : ℕ) (boundary : Bool) (cause : ℕ) :
    s.Answers (execHazelAbort gid boundary cause s) := by
  have hs := State.Keeps.refl s
  unfold execHazelAbort
  grind [State.Answers.next, State.Keeps.hzSettle, State.Keeps.hzAbort, State.Keeps.rest]

theorem State.Keeps.refuseSafe {s₀ s : State} (hs : s₀.Keeps s) (k : OutPkt) : s₀.Keeps (s.refuseSafe k) := by
  grind [State.refuseSafe, State.Keeps.send, State.Keeps.denied, State.Keeps.rest]

theorem State.Keeps.fencePort {s₀ s : State} (hs : s₀.Keeps s) (p : ℕ) : s₀.Keeps (s.fencePort p) := by
  grind [State.fencePort, State.Keeps.refuseSafe, State.Keeps.modPort, State.Keeps.rest, State.Keeps.foldl]

theorem State.Keeps.fence {s₀ s : State} (hs : s₀.Keeps s) : s₀.Keeps (s.fence) := by
  grind [State.fence, State.Keeps.fencePort, State.Keeps.foldl]

theorem State.Keeps.discardWork {s₀ s : State} (hs : s₀.Keeps s) : s₀.Keeps (s.discardWork) := by
  grind [State.discardWork, State.Keeps.rest]

theorem State.Keeps.enterSafe {s₀ s : State} (hs : s₀.Keeps s) : s₀.Keeps (s.enterSafe) := by
  unfold State.enterSafe
  have h := (((hs.setFlag fSafe_SAFE true).setViral.fence).stopAll)
  exact .ite hs ((((h.hzAbortAll _).discardWork.pumpCopies).snapEnd _).cutHost.ringService)

theorem State.Keeps.bootFail {s₀ s : State} (hs : s₀.Keeps s) (cause : ℕ) : s₀.Keeps (s.bootFail cause) := by
  grind [State.bootFail, State.Keeps.setFld, State.Keeps.setFlag, State.Keeps.answer, State.Keeps.persist, State.Keeps.rest]

theorem State.Keeps.detectS {s₀ s : State} (hs : s₀.Keeps s) (d : Det) : s₀.Keeps (s.detectS d) := by
  grind [State.detectS, State.Keeps.report, State.Keeps.bootFail, State.Keeps.enterSafe, State.Keeps.rest]

theorem State.Keeps.cutServes {s₀ s1 : State} (hs : s₀.Keeps s1) (s : State) : s₀.Keeps (s.cutServes s1) := by
  unfold State.cutServes
  exact .ite hs.releaseWaiting hs

theorem execHostMemRead_answers (s : State) (dpa len : ℕ) (own : Bool) : s.Answers (execHostMemRead dpa len own s) := by
  have hs := State.Keeps.refl s
  unfold execHostMemRead
  grind [State.Answers.next, State.Keeps.cutServes, State.Keeps.hostRequest]

theorem execHostMemWrite_answers (s : State) (dpa : ℕ) (data : List Byte) (poison : Bool) :
    s.Answers (execHostMemWrite dpa data poison s) := by
  have hs := State.Keeps.refl s
  unfold execHostMemWrite
  grind [State.Answers.next, State.Keeps.hostRequest]

theorem State.Keeps.viralRecord {s₀ s : State} (hs : s₀.Keeps s) (cls : ℕ) (loc : W64) : s₀.Keeps (s.viralRecord cls loc) := by
  grind [State.viralRecord, State.Keeps.report]

theorem execHostMemTimeout_answers (s : State) (id : ℕ) : s.Answers (execHostMemTimeout id s) := by
  have hs := State.Keeps.refl s
  unfold execHostMemTimeout
  grind [State.Answers.next, State.Keeps.dropHReq, State.Keeps.answer, State.Keeps.cutServes, State.Keeps.setViral, State.Keeps.viralRecord,
    State.Keeps.rest]

theorem execBiTimeout_answers (s : State) (line : ℕ) : s.Answers (execBiTimeout line s) := by
  have hs := State.Keeps.refl s
  unfold execBiTimeout
  grind [State.Answers.next, State.Keeps.releaseWaiting, State.Keeps.loseHost]

theorem execHostSnoop_answers (s : State) (hpa : ℕ) : s.Answers (execHostSnoop hpa s) := by
  have hs := State.Keeps.refl s
  unfold execHostSnoop
  grind [State.Answers.next, State.Keeps.answer, State.Keeps.setHline]

theorem State.Keeps.linkDown {s₀ s : State} (hs : s₀.Keeps s) : s₀.Keeps (s.linkDown) := by
  grind [State.linkDown, State.Keeps.releaseWaiting, State.Keeps.loseHost, State.Keeps.addSat, State.Keeps.setFld]

theorem execCxlLinkDown_answers (s : State) : s.Answers (execCxlLinkDown s) := by
  have hs := State.Keeps.refl s
  unfold execCxlLinkDown
  grind [State.Answers.next, State.Keeps.linkDown]

theorem execCxlRefclkLoss_answers (s : State) : s.Answers (execCxlRefclkLoss s) := by
  have hs := State.Keeps.refl s
  unfold execCxlRefclkLoss
  grind [State.Answers.next, State.Keeps.linkDown]

theorem execIdeIntegrityFailure_answers (s : State) : s.Answers (execIdeIntegrityFailure s) := by
  have hs := State.Keeps.refl s
  unfold execIdeIntegrityFailure
  have h0 := @State.Keeps.draw s
  generalize State.draw = g0 at h0 ⊢
  as_aux_lemma =>
    grind [State.Answers.next, TRes.state, State.Keeps.cutServes, State.Keeps.setViral, State.Keeps.viralRecord, State.Keeps.setFlag,
      State.Keeps.rest]

theorem execHdmDecoderCommit_answers (s : State) (base size : ℕ) : s.Answers (execHdmDecoderCommit base size s) := by
  have hs := State.Keeps.refl s
  unfold execHdmDecoderCommit
  grind [State.Answers.next, State.Keeps.setFlag, State.Keeps.rest]

theorem execCxlIdeKeyManagement_answers (s : State) : s.Answers (execCxlIdeKeyManagement s) := by
  have hs := State.Keeps.refl s
  unfold execCxlIdeKeyManagement
  grind [State.Answers.next, State.Keeps.setFlag]

theorem State.Keeps.modelSegs {s₀ s : State} (hs : s₀.Keeps s) (v : Model) : s₀.Keeps (s.modelSegs v).2.2 := by
  grind [State.modelSegs, State.Keeps.vread, State.Keeps.rest]

theorem State.Keeps.modelSegsOf {s₀ s : State} (hs : s₀.Keeps s) (remoteOk : Bool) (x1 : List (ℕ × ℕ)) :
    s₀.Keeps (s.modelSegsOf remoteOk x1).2.2 := by
  fun_induction State.modelSegsOf s remoteOk x1 <;>
    grind [State.modelSegsOf, State.Keeps.xlatePage, State.Keeps.rest]

theorem State.Keeps.modelCheck {s₀ s : State} (hs : s₀.Keeps s) (i : ℕ) : s₀.Keeps (s.modelCheck i).2 := by
  unfold State.modelCheck
  dsimp only
  split
  · exact hs
  · split
    · exact hs
    · split
      · exact hs
      · split
        · next e => exact (hs.modelSegs _).of_eq₂ e
        · next e =>
          have h1 := (hs.modelSegs _).of_eq₂ e
          split
          · exact h1
          · split
            · next e => exact (h1.modelSegsOf _ _).of_eq₂ e
            · next e => exact (h1.modelSegsOf _ _).of_eq₂ e
            · next e =>
              have h2 := (h1.modelSegsOf _ _).of_eq₂ e
              split
              · next e => exact (h2.modelSegsOf _ _).of_eq₂ e
              · next e => exact (h2.modelSegsOf _ _).of_eq₂ e
              · next e =>
                have h3 := (h2.modelSegsOf _ _).of_eq₂ e
                rw [apply_ite Prod.snd, apply_ite Prod.snd]
                exact .ite h3 (.ite h3 h3)

theorem State.Keeps.setModelStatus {s₀ s : State} (hs : s₀.Keeps s) (i v : ℕ) : s₀.Keeps (s.setModelStatus i v) := by
  grind [State.setModelStatus, State.Keeps.putBarNat]

theorem State.Keeps.setModelQ {s₀ s : State} (hs : s₀.Keeps s) (i off v : ℕ) : s₀.Keeps (s.setModelQ i off v) := by
  grind [State.setModelQ, State.Keeps.putBarNat]

theorem State.Keeps.modelRegister {s₀ s : State} (hs : s₀.Keeps s) (i : ℕ) : s₀.Keeps (s.modelRegister i) := by
  unfold State.modelRegister
  grind [State.Keeps.modelCheck, State.Keeps.setModelStatus, State.Keeps.rest]

theorem State.Keeps.mread {s₀ s : State} (hs : s₀.Keeps s) (m : ℕ) (x1 : List (ℕ × ℕ)) : s₀.Keeps (s.mread m x1).2 := by
  fun_induction State.mread s m x1 <;>
    grind [State.mread, State.Keeps.vread, State.Keeps.rest]

theorem State.Keeps.mreadAll {s₀ s : State} (hs : s₀.Keeps s) (m va n : ℕ) : s₀.Keeps (s.mreadAll m va n).2 := by
  grind [State.mreadAll, State.Keeps.mread]

theorem State.Keeps.mwrites {s₀ s : State} (hs : s₀.Keeps s) (m : ℕ) (refused : Bool) (x1 : List (ℕ × List Byte)) :
    s₀.Keeps (s.mwrites m refused x1).2.2 := by
  fun_induction State.mwrites s m refused x1 <;>
    grind [State.mwrites, State.Keeps.vwrite, State.Keeps.rest]

theorem State.Keeps.modelCorrupt {s₀ s : State} (hs : s₀.Keeps s) (m : ℕ) (inj : Bool) : s₀.Keeps (s.modelCorrupt m inj) := by
  grind [State.modelCorrupt, State.Keeps.reportC, State.Keeps.setModelBit]

theorem State.Keeps.modelCompare {s₀ s : State} (hs : s₀.Keeps s) (m : ℕ) (d : W64) (bad : Bool) :
    s₀.Keeps (s.modelCompare m d bad) := by
  grind [State.modelCompare, State.Keeps.setModelQ, State.Keeps.injDone, State.Keeps.draw, State.Keeps.modelCorrupt]

theorem State.Keeps.readChecked {s₀ s : State} (hs : s₀.Keeps s) (m : ℕ) (v : Model) : s₀.Keeps (s.readChecked m v).2 := by
  grind [State.readChecked, State.Keeps.mreadAll, State.Keeps.rest]

theorem State.Keeps.modelValid {s₀ s : State} (hs : s₀.Keeps s) (m : ℕ) (segs : List Seg) : s₀.Keeps (s.modelValid m segs) := by
  grind [State.modelValid, State.Keeps.modelSegsOf, State.Keeps.setModelStatus, State.Keeps.rest]

theorem State.Keeps.registerTraining {s₀ s : State} (hs : s₀.Keeps s) (m : ℕ) (segs : List Seg) :
    s₀.Keeps (s.registerTraining m segs) := by
  unfold State.registerTraining
  have h := hs.readChecked m { s.model m with cur := 0 }
  dsimp only
  split
  · exact hs.undo _
  · split
    · exact hs.undo _
    · next e =>
      have h2 := fun x y z => (((((h.mwrites _ _ _).of_eq₂ e).updFresh x).setModelQ m 0xC0 y).setModelQ m 0xD0 z).modelValid m segs
      exact .ite ((h2 ..).modelCorrupt _ _) (h2 ..)

theorem State.Keeps.registerVerify {s₀ s : State} (hs : s₀.Keeps s) (m : ℕ) : s₀.Keeps (s.registerVerify m) := by
  unfold State.registerVerify
  have h := hs.readChecked m (s.model m)
  have h2 := fun x y z => (((h.updFresh x).setModelQ m 0xC0 y).setModelQ m 0xD0 z).modelValid m []
  dsimp only
  split
  · exact hs
  · exact .ite ((h2 ..).modelCorrupt _ _) (h2 ..)

theorem execModelRegisterDone_answers (s : State) (m : Fin 4096) : s.Answers (execModelRegisterDone m s) := by
  have hs := State.Keeps.refl s
  unfold execModelRegisterDone
  grind [State.Answers.next, State.Keeps.modelRegister, State.Keeps.modelSegs, State.Keeps.registerTraining, State.Keeps.registerVerify,
    State.Keeps.modelValid, State.Keeps.rest]

theorem State.Keeps.modelGone {s₀ s : State} (hs : s₀.Keeps s) (m : ℕ) : s₀.Keeps (s.modelGone m) := by
  grind [State.modelGone, State.Keeps.setModelStatus, State.Keeps.rest]

theorem State.Keeps.modelSetEn {s₀ s : State} (hs : s₀.Keeps s) (i b : ℕ) : s₀.Keeps (s.modelSetEn i b) := by
  grind [State.modelSetEn, State.Keeps.putBarNat, State.Keeps.modelRegister, State.Keeps.modelGone, State.Keeps.rest]

theorem State.Keeps.prefLines {s₀ s : State} (hs : s₀.Keeps s) (h : Holder) (x1 : List ℕ) : s₀.Keeps (s.prefLines h x1) := by
  fun_induction State.prefLines s h x1 <;>
    grind [State.prefLines, State.Keeps.xlate, State.Keeps.prepLines, State.Keeps.takeLine, State.Keeps.inc, State.Keeps.rest]

theorem State.Keeps.prefetch {s₀ s : State} (hs : s₀.Keeps s) (g m : ℕ) : s₀.Keeps (s.prefetch g m) := by
  grind [State.prefetch, State.Keeps.prefLines]

theorem execMsel_answers (s : State) (t : Tid) (d a b : Reg) : s.Answers (execMsel t d a b s) := by
  have hs := State.Keeps.refl s
  unfold execMsel
  have h0 := @State.Keeps.vread s
  generalize State.vread = g0 at h0 ⊢
  as_aux_lemma =>
    grind [State.Answers.next, TRes.state, State.Keeps.mxInsn, State.Keeps.modCtx, State.Keeps.setMat, State.Keeps.prefetch,
      State.Keeps.readFault, State.Keeps.rest]

theorem execMhint_answers (s : State) (t : Tid) (a : Reg) : s.Answers (execMhint t a s) := by
  have hs := State.Keeps.refl s
  unfold execMhint
  grind [State.Answers.next, TRes.state, State.Keeps.issue, State.Keeps.prefetch]

theorem execMupdate_answers (s : State) (t : Tid) (a b : Reg) : s.Answers (execMupdate t a b s) := by
  have hs := State.Keeps.refl s
  unfold execMupdate
  grind [State.Answers.next, TRes.state, State.Keeps.issue, State.Keeps.rest]

theorem State.Keeps.passOver {s₀ s : State} (hs : s₀.Keeps s) (p : MPass) : s₀.Keeps (s.passOver p) := by
  grind [State.passOver, State.Keeps.setModelBit, State.Keeps.addCounter, State.Keeps.jobOver, State.Keeps.modelGone, State.Keeps.rest]

theorem State.Keeps.passRun {s₀ s : State} (hs : s₀.Keeps s) (p : MPass) : s₀.Keeps (s.passRun p) := by
  unfold State.passRun
  have h1 := fun (s : State) (hs : s₀.Keeps s) v => hs.modelSegs v
  have h2 := fun (s : State) (hs : s₀.Keeps s) v u => hs.askRanges v u
  have h3 := fun (s : State) (hs : s₀.Keeps s) v u w => hs.mreadAll v u w
  have h4 := fun (s : State) (hs : s₀.Keeps s) v u w => hs.mwrites v u w
  generalize State.modelSegs = g1 at h1 ⊢
  generalize State.askRanges = g2 at h2 ⊢
  generalize State.mreadAll = g3 at h3 ⊢
  generalize State.mwrites = g4 at h4 ⊢
  extract_lets m v nxt
  split
  · next e => exact hs.undo _
  · next e =>
    have k1 := (h1 _ hs _).of_eq₂ e
    extract_lets segs ob
    split; next e =>
    have k2 := (h2 _ k1 _ _).of_eq e
    split; next e =>
    have k3 := (h3 _ k2 _ _ _).of_eq e
    split; next e =>
    have k4 := (h3 _ k3 _ _ _).of_eq e
    split; next e =>
    have k5 := (h3 _ k4 _ _ _).of_eq e
    split
    · exact k2
    · split
      · exact k2.undo _
      · extract_lets draw n w gg0 g st res u
        split; next e =>
        split
        · exact k2.undo _
        · next e =>
          have k6 := (h4 _ k5 _ _ _).of_eq₂ e
          extract_lets s4 lost nonf s5 s6 s7 s8
          have l6 : s₀.Keeps s6 := (((k6.dropGot _).updFresh _).setModelQ _ _ _ |>.setModelQ _ _ _).setModelBit _ _ _
          clear_value s6
          have l7 : s₀.Keeps s7 := .ite (l6.setModelBit _ _ _) l6
          clear_value s7
          have l8 : s₀.Keeps s8 := l7.modelCompare _ _ _
          exact .ite (l8.updMdl _) (l8.passOver _)

theorem execUpdatePassDone_answers (s : State) (m : Fin 4096) : s.Answers (execUpdatePassDone m s) := by
  have hs := State.Keeps.refl s
  unfold execUpdatePassDone
  grind [State.Answers.next, State.Keeps.passRun, State.Keeps.passOver, State.Keeps.rest]

theorem execBackgroundCheck_answers (s : State) (m : Fin 4096) : s.Answers (execBackgroundCheck m s) := by
  have hs := State.Keeps.refl s
  unfold execBackgroundCheck
  grind [State.Answers.next, State.Keeps.readChecked, State.Keeps.undo, State.Keeps.modelCompare, State.Keeps.rest]

theorem execMexport_answers (s : State) (t : Tid) (a d : Reg) : s.Answers (execMexport t a d s) := by
  have hs := State.Keeps.refl s
  unfold execMexport
  have h0 := @State.Keeps.vprobe s
  generalize State.vprobe = g0 at h0 ⊢
  have h1 := @State.Keeps.vwrite s
  generalize State.vwrite = g1 at h1 ⊢
  as_aux_lemma =>
    grind [State.Answers.next, TRes.state, State.Keeps.issue, State.Keeps.readFault, State.Keeps.rest]

theorem State.Keeps.snapRequest {s₀ s : State} (hs : s₀.Keeps s) : s₀.Keeps (s.snapRequest) := by
  grind [State.snapRequest, State.Keeps.addSat, State.Keeps.setFlag]

theorem State.Keeps.preempt {s₀ s : State} (hs : s₀.Keeps s) (route src : ℕ) : s₀.Keeps (s.preempt route src) := by
  grind [State.preempt, State.Keeps.event, State.Keeps.modSnp, State.Keeps.setFld, State.Keeps.addSat, State.Keeps.setFlag,
    State.Keeps.rest]

theorem State.Keeps.tensorTable {s₀ s : State} (hs : s₀.Keeps s) : s₀.Keeps (s.tensorTable).2.2 := by
  grind [State.tensorTable, State.Keeps.vread, State.Keeps.rest]

theorem State.Keeps.granAt {s₀ s : State} (hs : s₀.Keeps s) (va : ℕ) : s₀.Keeps (s.granAt va).2 := by
  grind [State.granAt, State.Keeps.walk, State.Keeps.rest]

theorem State.Keeps.gransAt {s₀ s : State} (hs : s₀.Keeps s) (x1 x2 : ℕ) : s₀.Keeps (s.gransAt x1 x2).2 := by
  fun_induction State.gransAt s x1 x2 <;>
    grind [State.gransAt, State.Keeps.granAt, State.Keeps.rest]

theorem State.Keeps.tensorGrans {s₀ s : State} (hs : s₀.Keeps s) (x1 : List TensorE) : s₀.Keeps (s.tensorGrans x1).2 := by
  fun_induction State.tensorGrans s x1 <;>
    grind [State.tensorGrans, State.Keeps.gransAt, State.Keeps.rest]

theorem State.Keeps.cutCheck {s₀ s : State} (hs : s₀.Keeps s) : s₀.Keeps (s.cutCheck).2 := by
  grind [State.cutCheck, State.Keeps.tensorTable, State.Keeps.tensorGrans, State.Keeps.rest]

theorem State.Keeps.cut {s₀ s : State} (hs : s₀.Keeps s) (g : ℕ) (pre : Bool) : ∀ o, s.cut g pre = some o → s₀.Keeps o := by
  unfold State.cut
  have h1 := ((((hs.setFlag fSnap_REQ_PEND false).setFlag fSnap_PRE_PEND false).setFld fSnap_GEN_NEXT (g + 1)).setFld fSnap_CUT_STEP
    (BitVec.ofNat 64 (s.fld fPkg_STEP)).toNat).setFld fSnap_SNAP_BYTES 0
  dsimp only
  split
  · next e => rintro u ⟨⟩; exact ((h1.cutCheck.of_eq e).modSnp _).syncSnap
  · next e => rintro u ⟨⟩; exact ((h1.cutCheck.of_eq e).modSnp _).snapEnd _
  · simp

theorem State.Keeps.poolEntries {s₀ s : State} (hs : s₀.Keeps s) : s₀.Keeps (s.poolEntries).2 := by
  grind [State.poolEntries, State.Keeps.vread, State.Keeps.rest]

theorem State.Keeps.unitLines {s₀ s : State} (hs : s₀.Keeps s) (x1 : List ℕ) (x2 : List Byte × List ℕ × ℕ) :
    s₀.Keeps (s.unitLines x1 x2).2 := by
  fun_induction State.unitLines s x1 x2 <;>
    grind [State.unitLines, State.Keeps.takeLine, State.Keeps.prepLines, State.Keeps.event]

theorem State.Keeps.unitCopied {s₀ s : State} (hs : s₀.Keeps s) (c : CUnit) : s₀.Keeps (s.unitCopied c) := by
  grind [State.unitCopied, State.Keeps.modSnp, State.Keeps.releaseWaiting, State.Keeps.syncSnap, State.Keeps.setFld, State.Keeps.rest]

theorem State.Keeps.unitPut {s₀ s : State} (hs : s₀.Keeps s) (c : CUnit) (addr x1 : ℕ) :
    ∀ o, s.unitPut c addr x1 = some o → s₀.Keeps o := by
  fun_induction State.unitPut s c addr x1 <;>
    grind [State.unitPut, State.Keeps.modSnp, State.Keeps.request, State.Keeps.snapFail, State.Keeps.rest]

theorem State.Keeps.progFailure {s₀ s : State} (hs : s₀.Keeps s) : s₀.Keeps (s.progFailure).2 := by
  grind [State.progFailure, State.Keeps.addSat, State.Keeps.setFld, State.Keeps.snapFail, State.Keeps.event]

theorem State.Keeps.snapRelease {s₀ s : State} (hs : s₀.Keeps s) : s₀.Keeps (s.snapRelease) := by
  grind [State.snapRelease, State.Keeps.setFlag]

theorem execPreemptionMessage_answers (s : State) (src : ℕ) : s.Answers (execPreemptionMessage src s) := by
  have hs := State.Keeps.refl s
  unfold execPreemptionMessage
  grind [State.Answers.next, State.Keeps.preempt]

theorem State.Keeps.endThreads {s₀ s : State} (hs : s₀.Keeps s) : s₀.Keeps (s.endThreads) := by
  grind [State.endThreads, State.Keeps.freeCtx, State.Keeps.releaseEngines, State.Keeps.rest, State.Keeps.foldl]

theorem State.Keeps.dropJobWindows {s₀ s : State} (hs : s₀.Keeps s) : s₀.Keeps (s.dropJobWindows) := by
  grind [State.dropJobWindows, State.Keeps.dropWindow, State.Keeps.foldl]

theorem State.Keeps.dropTables {s₀ s : State} (hs : s₀.Keeps s) : s₀.Keeps (s.dropTables) := by
  grind [State.dropTables, State.Keeps.viewSetEn, State.Keeps.modelSetEn, State.Keeps.foldl]

theorem State.Keeps.jobActs {s₀ s : State} (hs : s₀.Keeps s) : s₀.Keeps (s.jobActs) := by
  unfold State.jobActs
  grind [State.Keeps.snapEnd, State.Keeps.endThreads, State.Keeps.hringProd, State.Keeps.dropJobWindows, State.Keeps.dropGroups,
    State.Keeps.dropTables, State.Keeps.modFab, State.Keeps.rest]

theorem State.Keeps.jobEnd {s₀ s : State} (hs : s₀.Keeps s) (who : Option Agent) : s₀.Keeps (s.jobEnd who) := by
  grind [State.jobEnd, State.Keeps.jobActs, State.Keeps.ringService, State.Keeps.rest]

theorem State.Keeps.jobStart {s₀ s : State} (hs : s₀.Keeps s) (job : ℕ) (root : W64) : s₀.Keeps (s.jobStart job root) := by
  unfold State.jobStart
  grind [State.Keeps.createGroup0, State.Keeps.setFld, State.Keeps.setFlag]

theorem State.Keeps.showOwner {s₀ s : State} (hs : s₀.Keeps s) (v : ℕ) : s₀.Keeps (s.showOwner v) := by
  grind [State.showOwner, State.Keeps.setFld, State.Keeps.setFlag, State.Keeps.rest]

theorem State.Keeps.showAnchor {s₀ s : State} (hs : s₀.Keeps s) (k v : ℕ) : s₀.Keeps (s.showAnchor k v) := by
  grind [State.showAnchor, State.Keeps.rest]

theorem State.Keeps.showPst {s₀ s : State} (hs : s₀.Keeps s) (i v : ℕ) : s₀.Keeps (s.showPst i v) := by
  unfold State.showPst
  grind [State.Keeps.setFld, State.Keeps.showOwner, State.Keeps.showAnchor, State.Keeps.rest, State.Keeps.foldl]

theorem State.Keeps.countPst {s₀ s : State} (hs : s₀.Keeps s) (i : ℕ) : s₀.Keeps (s.countPst i) := by
  grind [State.countPst, State.Keeps.setFld, State.Keeps.event, State.Keeps.setFlag]

theorem State.Keeps.writeComplete {s₀ s : State} (hs : s₀.Keeps s) (x1 : PWait) : s₀.Keeps (s.writeComplete x1) := by
  unfold State.writeComplete
  split
  · dsimp only
    split
    · exact .ite (State.Keeps.settle _ _ (.done s) hs) hs
    · exact hs
  · exact hs.answer _

theorem State.Keeps.writesDone {s₀ s : State} (hs : s₀.Keeps s) (n : ℕ) : s₀.Keeps (s.writesDone n) := by
  grind [State.writesDone, State.Keeps.writeComplete, State.Keeps.rest, State.Keeps.foldl]

theorem State.Keeps.commitDone {s₀ s : State} (hs : s₀.Keeps s) : s₀.Keeps (s.commitDone) := by
  unfold State.commitDone
  dsimp only
  split
  · exact hs
  · have h := fun x i v => ((((hs.updPst x).showPst i v).countPst i).inc fPst_COMMITS).setFld fPst_LAST_IDX i
    exact (((h ..).updPst _).setFlag _ _).writesDone _

theorem State.Keeps.commitAll {s₀ s : State} (hs : s₀.Keeps s) (x1 : ℕ) : s₀.Keeps (s.commitAll x1) := by
  fun_induction State.commitAll s x1 <;>
    grind [State.commitAll, State.Keeps.commitDone]

theorem execPersistentCommitDone_answers (s : State) : s.Answers (execPersistentCommitDone s) := by
  have hs := State.Keeps.refl s
  unfold execPersistentCommitDone
  grind [State.Answers.next, State.Keeps.commitDone]

theorem State.Keeps.commitLost {s₀ s : State} (hs : s₀.Keeps s) : s₀.Keeps (s.commitLost) := by
  unfold State.commitLost
  have h := fun x (l : List (Nat × Nat)) => (hs.updPst x).foldl (fun t e => t.showPst e.1 (t.pstVal e.1)) (fun _ _ h => h.showPst _ _) l
  dsimp only
  split
  · exact h ..
  · split
    · exact (h ..).draw.commitDone
    · have h2 := fun x l y => ((h x l).draw.updPst y).setFlag fPst_BUSY false
      split
      · exact (h2 ..).showPst _ _
      · exact h2 ..

theorem State.Keeps.pstLost {s₀ s : State} (hs : s₀.Keeps s) (i : ℕ) : s₀.Keeps (s.pstLost i) := by
  grind [State.pstLost, State.Keeps.event, State.Keeps.setFld, State.Keeps.setFlag, State.Keeps.modStk, State.Keeps.setCell,
    State.Keeps.showPst, State.Keeps.rest]

theorem State.Keeps.cntLost {s₀ s : State} (hs : s₀.Keeps s) (i : ℕ) : s₀.Keeps (s.cntLost i) := by
  grind [State.cntLost, State.Keeps.setFlag, State.Keeps.setFld]

theorem State.Keeps.pstRead {s₀ s : State} (hs : s₀.Keeps s) (bad lost : List ℕ) : s₀.Keeps (s.pstRead bad lost) := by
  grind [State.pstRead, State.Keeps.addSat, State.Keeps.pstLost, State.Keeps.cntLost, State.Keeps.foldl]

theorem State.Keeps.keepPcs {s₀ s : State} (hs : s₀.Keeps s) (old : State) (n : ℕ) : s₀.Keeps (s.keepPcs old n) := by
  grind [State.keepPcs, State.Keeps.setPcState, State.Keeps.rest, State.Keeps.foldl]

theorem State.Keeps.resetStacks {s₀ s : State} (hs : s₀.Keeps s) (old : State) (k : RKind) : s₀.Keeps (s.resetStacks old k) := by
  grind [State.resetStacks, State.Keeps.syncQueue, State.Keeps.setFld, State.Keeps.keepPcs, State.Keeps.rest, State.Keeps.foldl]

theorem State.Keeps.closeDebug {s₀ s : State} (hs : s₀.Keeps s) : s₀.Keeps (s.closeDebug) := by
  grind [State.closeDebug, State.Keeps.setFld, State.Keeps.rest]

theorem State.Keeps.resetSec {s₀ s : State} (hs : s₀.Keeps s) (k : RKind) : s₀.Keeps (s.resetSec k) := by
  grind [State.resetSec, State.Keeps.closeDebug, State.Keeps.setFld, State.Keeps.rest]

theorem State.Keeps.resetPackage {s₀ s : State} (hs : s₀.Keeps s) (k : RKind) : s₀.Keeps (s.resetPackage k) := by
  unfold State.resetPackage
  have h : s₀.Keeps { s with regs := resetRegs k s.regs, bar2 := s.resetBar k, dram := if k == .cold then [] else s.dram } := by
    refine ⟨hs.pending, hs.perst, fun hw => (State.memWf_iff _).2 ?_⟩
    obtain ⟨hd, hb, hr⟩ := s.memWf_iff.1 (hs.memWf hw)
    refine ⟨?_, ?_, tabWfFrom_resetRegs k _ 0 hr⟩
    · dsimp only
      split
      · rfl
      · exact hd
    · unfold State.resetBar
      split
      · rfl
      · exact tabWfFrom_filter _ _ _ 0 hb
  have h1 := fun l m st t lg p sa ho md e b f z c sn se =>
    h.rest s.fresh s.answers l m st t lg p sa ho md e b f z c sn se (pwr := { s.pwr with waking := [], hot := [] }) rfl
  exact ((State.Keeps.resetSec (State.Keeps.resetStacks (h1 ..) _ _) _).syncWin).setFlag _ _

theorem State.Keeps.cutOff {s₀ s : State} (hs : s₀.Keeps s) : s₀.Keeps (s.cutOff) := by
  grind [State.cutOff, State.Keeps.rest]

theorem State.Keeps.fuseBlow {s₀ s : State} (hs : s₀.Keeps s) (kind v : ℕ) : s₀.Keeps (s.fuseBlow kind v) := by
  grind [State.fuseBlow, State.Keeps.setFlag, State.Keeps.setFld]

theorem State.Keeps.fuseRecord {s₀ s : State} (hs : s₀.Keeps s) (kind v : ℕ) : s₀.Keeps (s.fuseRecord kind v) := by
  grind [State.fuseRecord, State.Keeps.setFlag, State.Keeps.persist]

theorem State.Keeps.fuseClear {s₀ s : State} (hs : s₀.Keeps s) : s₀.Keeps (s.fuseClear) := by
  grind [State.fuseClear, State.Keeps.setFlag, State.Keeps.persist]

theorem State.Keeps.retireStep {s₀ s : State} (hs : s₀.Keeps s) (n : ℕ) : s₀.Keeps (s.retireStep n) := by
  grind [State.retireStep, State.Keeps.persist]

theorem State.Keeps.retireActs {s₀ s : State} (hs : s₀.Keeps s) : s₀.Keeps (s.retireActs) := by
  unfold State.retireActs
  extract_lets s1 c1 s2 s3 p3 c3 s4 r4 s5 s6
  have h1 : s₀.Keeps s1 := (hs.retireStep 1).foldl _ (fun _ _ h => (h.portDis _).setPort _ _) _
  clear_value s1
  have h2 : s₀.Keeps s2 := ((h1.updSec { c1 with mctpSess := 0, doeSess := 0 }).setFld _ _).setFlag _ _
  clear_value s2
  have h3 : s₀.Keeps s3 := ((h2.retireStep 2).showOwner 0).foldl _ (fun _ _ h => h.showAnchor _ _) _
  clear_value s3
  have h4 : s₀.Keeps s4 := h3.same rfl rfl rfl rfl rfl
  clear_value s4
  have h5 : s₀.Keeps s5 := (h4.retireStep 3).emptyDram.updMem _
  clear_value s5
  have h6 : s₀.Keeps s6 := ((h5.retireStep 4).modSnp _).setFlag _ _
  clear_value s6
  exact (((h6.setFld _ _).setFld _ _).syncStore.wear).retireStep _

theorem State.Keeps.finishFuse {s₀ s : State} (hs : s₀.Keeps s) : s₀.Keeps (s.finishFuse) := by
  grind [State.finishFuse, State.Keeps.fuseBlow, State.Keeps.retireActs, State.Keeps.closeDebug, State.Keeps.fuseClear]

theorem State.Keeps.scrubLine {s₀ s : State} (hs : s₀.Keeps s) (n line : ℕ) (upset : List ℕ) (inner : ℕ) :
    s₀.Keeps (s.scrubLine n line upset inner) := by
  unfold State.scrubLine
  grind [State.Keeps.setInner, State.Keeps.setSymErr, State.Keeps.readLine, State.Keeps.event, State.Keeps.wordWritten,
    State.Keeps.setPoison, State.Keeps.rest]

theorem State.Keeps.scrubEnd {s₀ s : State} (hs : s₀.Keeps s) (n : ℕ) : s₀.Keeps (s.scrubEnd n) := by
  unfold State.scrubEnd
  grind [State.Keeps.modStk, State.Keeps.setFld, State.Keeps.inc, State.Keeps.draw, State.Keeps.rest]

theorem execScrubRead_answers (s : State) (st : Fin 8) (upset : List ℕ) (inner : Fin 3) :
    s.Answers (execScrubRead st upset inner s) := by
  have hs := State.Keeps.refl s
  unfold execScrubRead
  grind [State.Answers.next, State.Keeps.scrubLine, State.Keeps.scrubEnd, State.Keeps.setFld]

theorem State.Keeps.setRepair {s₀ s : State} (hs : s₀.Keeps s) (n : ℕ) (r : Option Repair) : s₀.Keeps (s.setRepair n r) := by
  unfold State.setRepair
  grind [State.Keeps.modStk, State.Keeps.setFld, State.Keeps.setFlag, State.Keeps.rest]

theorem execRepairStart_answers (s : State) (st : Fin 8) : s.Answers (execRepairStart st s) := by
  have hs := State.Keeps.refl s
  unfold execRepairStart
  grind [State.Answers.next, State.Keeps.modStk, State.Keeps.setPcState, State.Keeps.setRepair, State.Keeps.syncQueue, State.Keeps.rest]

theorem State.Keeps.recordRepair {s₀ s : State} (hs : s₀.Keeps s) (n : ℕ) (r : Repair) : s₀.Keeps (s.recordRepair n r) := by
  unfold State.recordRepair
  grind [State.Keeps.modStk, State.Keeps.persist, State.Keeps.setFld, State.Keeps.event, State.Keeps.rest]

theorem State.Keeps.endPause {s₀ s : State} (hs : s₀.Keeps s) (n p : ℕ) (rowRepair : Bool) : s₀.Keeps (s.endPause n p rowRepair) := by
  grind [State.endPause, State.Keeps.setPcState, State.Keeps.queueLane, State.Keeps.failPc, State.Keeps.rest]

theorem State.Keeps.switchLane {s₀ s : State} (hs : s₀.Keeps s) (n p l : ℕ) : s₀.Keeps (s.switchLane n p l) := by
  grind [State.switchLane, State.Keeps.modStk, State.Keeps.setFld, State.Keeps.rest]

theorem execLaneRepairComplete_answers (s : State) (st : Fin 8) (ok : Bool) : s.Answers (execLaneRepairComplete st ok s) := by
  have hs := State.Keeps.refl s
  unfold execLaneRepairComplete
  grind [State.Answers.next, State.Keeps.setRepair, State.Keeps.releaseWaiting, State.Keeps.endPause, State.Keeps.recordRepair,
    State.Keeps.switchLane, State.Keeps.failPc, State.Keeps.setFld, State.Keeps.rest]

theorem State.Keeps.copyRowLine {s₀ s : State} (hs : s₀.Keeps s) (line : ℕ) : s₀.Keeps (s.copyRowLine line) := by
  grind [State.copyRowLine, State.Keeps.readLine, State.Keeps.wordWritten, State.Keeps.setPoison, State.Keeps.rest]

theorem execRowRepairComplete_answers (s : State) (st : Fin 8) : s.Answers (execRowRepairComplete st s) := by
  have hs := State.Keeps.refl s
  unfold execRowRepairComplete
  refine .next ?_
  split
  · have k1 := fun (a : Nat → Nat) x =>
      ((hs.foldl (fun t c => t.copyRowLine (a c)) (fun _ _ h => h.copyRowLine _) (List.range 16)).setRepair st none).modStk st x
    exact (((k1 _ _).recordRepair _ _).endPause _ _ _).releaseWaiting
  · exact hs

theorem execInterfaceCrcFail_answers (s : State) (link : CrcLink) (line replays : ℕ) :
    s.Answers (execInterfaceCrcFail link line replays s) := by
  have hs := State.Keeps.refl s
  unfold execInterfaceCrcFail
  grind [State.Answers.next, State.Keeps.addSat, State.Keeps.report, State.Keeps.rest]

theorem State.Keeps.applyTemp {s₀ s : State} (hs : s₀.Keeps s) (n : ℕ) (t : ℤ) : s₀.Keeps (s.applyTemp n t) := by
  grind [State.applyTemp, State.Keeps.setFld, State.Keeps.setFlag, State.Keeps.releaseWaiting, State.Keeps.modStk, State.Keeps.rest]

theorem State.Keeps.setTemp {s₀ s : State} (hs : s₀.Keeps s) (n : ℕ) (t : BitVec 12) : s₀.Keeps (s.setTemp n t) := by
  grind [State.setTemp, State.Keeps.setFld]

theorem execTempSample_answers (s : State) (st : Fin 8) (temp : Option (BitVec 12)) : s.Answers (execTempSample st temp s) := by
  have hs := State.Keeps.refl s
  unfold execTempSample
  grind [State.Answers.next, State.Keeps.applyTemp, State.Keeps.modStk, State.Keeps.setTemp, State.Keeps.report, State.Keeps.rest]

theorem execThermalStopTimeout_answers (s : State) (st : Fin 8) : s.Answers (execThermalStopTimeout st s) := by
  have hs := State.Keeps.refl s
  unfold execThermalStopTimeout
  grind [State.Answers.next, State.Keeps.report, State.Keeps.modStk, State.Keeps.rest]

theorem State.Keeps.syncSlots {s₀ s : State} (hs : s₀.Keeps s) : s₀.Keeps (s.syncSlots) := by
  grind [State.syncSlots, State.Keeps.setFld]

theorem State.Keeps.syncFwset {s₀ s : State} (hs : s₀.Keeps s) : s₀.Keeps (s.syncFwset) := by
  grind [State.syncFwset, State.Keeps.setFld]

theorem State.Keeps.runSlot {s₀ s : State} (hs : s₀.Keeps s) : s₀.Keeps (s.runSlot) := by
  grind [State.runSlot, State.Keeps.syncFwset, State.Keeps.syncSlots, State.Keeps.setFld, State.Keeps.rest, State.Keeps.foldl]

theorem State.Keeps.takeClr {s₀ s : State} (hs : s₀.Keeps s) : s₀.Keeps (s.takeClr) := by
  grind [State.takeClr, State.Keeps.setFlag, State.Keeps.setFld, State.Keeps.rest]

theorem State.Keeps.enterStage {s₀ s : State} (hs : s₀.Keeps s) (n : ℕ) : s₀.Keeps (s.enterStage n) := by
  grind [State.enterStage, State.Keeps.setFld, State.Keeps.persist, State.Keeps.event, State.Keeps.rest]

theorem State.Keeps.goIdle {s₀ s : State} (hs : s₀.Keeps s) : s₀.Keeps (s.goIdle) := by
  grind [State.goIdle, State.Keeps.setFlag, State.Keeps.setFld, State.Keeps.rest, State.Keeps.foldl]

theorem State.Keeps.startAt {s₀ s : State} (hs : s₀.Keeps s) (k : RKind) : s₀.Keeps (s.startAt k) := by
  unfold State.startAt
  have h1 := hs.takeClr.resetPackage k
  have h2 := fun v w => (h1.setFld fBoot_ALT_USED v).setFld fBoot_SLOT w
  dsimp only
  have h4 := fun v w (x : PwrSt) hx c [Decidable c] => State.Keeps.ite (c := c) ((h2 v w).updPwr (x := x) hx).syncFwset ((h2 v w).updPwr hx)
  refine State.Keeps.enterStage (.ite (((h4 _ _ _ ?_ _).updSec _).setFld _ _) (h4 _ _ _ ?_ _)) _ <;> rfl

theorem State.Keeps.bs0 {s₀ s : State} (hs : s₀.Keeps s) (e : BootEnv) : s₀.Keeps (s.bs0 e) := by
  grind [State.bs0, State.Keeps.finishFuse, State.Keeps.pstRead, State.Keeps.setFld]

theorem State.Keeps.bs4Stack {s₀ s : State} (hs : s₀.Keeps s) (e : BootEnv) (n : ℕ) : s₀.Keeps (s.bs4Stack e n) := by
  grind [State.bs4Stack, State.Keeps.modStk, State.Keeps.setFld, State.Keeps.failPc, State.Keeps.rest, State.Keeps.foldl]

theorem State.Keeps.bs4 {s₀ s : State} (hs : s₀.Keeps s) (e : BootEnv) : s₀.Keeps (s.bs4 e).2 := by
  unfold State.bs4
  grind [State.Keeps.bs4Stack, State.Keeps.setPcState, State.Keeps.setFld, State.Keeps.draw, State.Keeps.rest, State.Keeps.foldl]

theorem State.Keeps.scanManifests {s₀ s : State} (hs : s₀.Keeps s) : s₀.Keeps (s.scanManifests) := by
  unfold State.scanManifests
  have h : s₀.Keeps (if s.snp.partGen then
      ({ s with snp := { s.snp with partGen := false } }.syncStore).setFld fSnap_CODE 0x16 else s) :=
    .ite (((hs.updSnp _).syncStore).setFld _ _) hs
  dsimp only
  split
  · exact (((h.setFld _ _).setFld _ _).setFld _ _).setFld _ _
  · exact (((h.setFld _ _).setFld _ _).setFld _ _).setFld _ _

theorem State.Keeps.bs6 {s₀ s : State} (hs : s₀.Keeps s) : s₀.Keeps (s.bs6) := by
  grind [State.bs6, State.Keeps.scanManifests, State.Keeps.portEn, State.Keeps.foldl]

theorem State.Keeps.bs7 {s₀ s : State} (hs : s₀.Keeps s) (e : BootEnv) : s₀.Keeps (s.bs7 e).2 := by
  grind [State.bs7, State.Keeps.setFlag, State.Keeps.setFld]

theorem State.Keeps.bs8 {s₀ s : State} (hs : s₀.Keeps s) (e : BootEnv) : s₀.Keeps (s.bs8 e).2 := by
  grind [State.bs8, State.Keeps.setFld]

theorem State.Keeps.stageEnd {s₀ s : State} (hs : s₀.Keeps s) (e : BootEnv) : s₀.Keeps (s.stageEnd e) := by
  generalize hf : State.stageEnd = f
  delta State.stageEnd at hf
  subst hf
  beta_reduce
  dsimp only
  split
  · exact (hs.bs0 _).enterStage _
  · exact .ite (hs.runSlot.enterStage _) (hs.bootFail _)
  · refine .ite ((hs.updPwr ?_).setFlag _ _) ((hs.updPwr ?_).enterStage _) <;> rfl
  · exact hs.enterStage _
  · exact .ite ((hs.bs4 _).enterStage _) ((hs.bs4 _).bootFail _)
  · exact hs.enterStage _
  · exact .ite (hs.bs6.updPwr rfl) (hs.bs6.enterStage _)
  · exact .ite ((hs.bs7 _).enterStage _) (hs.bootFail _)
  · exact .ite ((hs.bs8 _).enterStage _).goIdle (hs.bootFail _)
  · exact hs

theorem execBootStage_answers (s : State) (outcome : BootOutcome) : s.Answers (execBootStage outcome s) := by
  have hs := State.Keeps.refl s
  unfold execBootStage
  grind [State.Answers.next, State.Keeps.stageEnd, State.Keeps.bootFail, State.Keeps.rest]

theorem execBootStageTimeout_answers (s : State) : s.Answers (execBootStageTimeout s) := by
  have hs := State.Keeps.refl s
  unfold execBootStageTimeout
  grind [State.Answers.next, State.Keeps.bootFail]

theorem execBootRestart_answers (s : State) : s.Answers (execBootRestart s) := by
  have hs := State.Keeps.refl s
  unfold execBootRestart
  grind [State.Answers.next, State.Keeps.startAt, State.Keeps.cutOff]

theorem State.Keeps.clrFailWrite {s₀ s : State} (hs : s₀.Keeps s) : s₀.Keeps (s.clrFailWrite) := by
  grind [State.clrFailWrite, State.Keeps.rest]

theorem State.Keeps.powerOff {s₀ s : State} (hs : s₀.Keeps s) : s₀.Keeps (s.powerOff) := by
  grind [State.powerOff, State.Keeps.resetPackage, State.Keeps.commitLost, State.Keeps.cutOff, State.Keeps.setCell, State.Keeps.setFld,
    State.Keeps.rest]

theorem execPwrGoodAssert_answers (s : State) : s.Answers (execPwrGoodAssert s) := by
  have hs := State.Keeps.refl s
  unfold execPwrGoodAssert
  grind [State.Answers.next, State.Keeps.rest]

theorem execColdStart_answers (s : State) : s.Answers (execColdStart s) := by
  have hs := State.Keeps.refl s
  unfold execColdStart
  grind [State.Answers.next, State.Keeps.startAt]

theorem execPwrGoodDeassert_answers (s : State) : s.Answers (execPwrGoodDeassert s) := by
  have hs := State.Keeps.refl s
  unfold execPwrGoodDeassert
  grind [State.Answers.next, State.Keeps.powerOff, State.Keeps.rest]

/-- What the two commands that drive PERST_N keep: all but PERST_N. -/
theorem State.Keeps.of_perst {s u : State} {x : PwrSt} (h : ({ s with pwr := x } : State).Keeps u) :
    u.pending = s.pending ∧ (s.memWf = true → u.memWf = true) :=
  ⟨h.pending, fun hw => h.memWf ((State.memWf_congr rfl rfl rfl).trans hw)⟩

theorem execPerstAssert_next (s : State) : ∃ u, execPerstAssert s = .next u ∧ u.pending = s.pending ∧ (s.memWf = true → u.memWf = true) := by
  have hs := State.Keeps.refl { s with pwr := { s.pwr with perst := true } }
  refine ⟨_, rfl, State.Keeps.of_perst (x := { s.pwr with perst := true }) ?_⟩
  dsimp only
  split
  · exact ((hs.jobEnd none).resetPackage .warm).updPwr rfl
  · exact hs.updPwr rfl
  · refine .ite ((((hs.setFld _ _).setFld _ _).updPwr ?_).setFld _ _) hs
    rfl
  · exact hs

theorem execPerstDeassert_next (s : State) : ∃ u, execPerstDeassert s = .next u ∧ u.pending = s.pending ∧ (s.memWf = true → u.memWf = true) := by
  have hs := State.Keeps.refl { s with pwr := { s.pwr with perst := false } }
  refine ⟨_, rfl, State.Keeps.of_perst (x := { s.pwr with perst := false }) ?_⟩
  dsimp only
  split
  · exact hs.startAt _
  · exact .ite (hs.startAt _) hs
  · refine .ite ((hs.updPwr ?_).enterStage _) hs
    rfl
  · exact hs

theorem State.Keeps.retReq {s₀ s : State} (hs : s₀.Keeps s) : s₀.Keeps (s.retReq) := by
  unfold State.retReq
  have h := hs.foldl (fun t p => t.portDis p) (fun _ _ h => h.portDis _) (List.range 16)
  have h2 := (((h.setFld fCxl_RATE 0).setFld fCxl_WIDTH 0).setFlag fCxl_IDE_SECURE false).loseHost
  dsimp only
  split
  · exact hs
  · split
    · exact hs.setFlag _ _
    · exact ((h2.updSec _).closeDebug.goIdle.setFld _ _).updPwr rfl

theorem State.Keeps.retExit {s₀ s : State} (hs : s₀.Keeps s) : s₀.Keeps (s.retExit) := by
  grind [State.retExit, State.Keeps.startAt]

theorem execIdleEntry_answers (s : State) : s.Answers (execIdleEntry s) := by
  have hs := State.Keeps.refl s
  unfold execIdleEntry
  grind [State.Answers.next, State.Keeps.goIdle]

theorem execIdleWakeDone_answers (s : State) (u : GatedUnit) : s.Answers (execIdleWakeDone u s) := by
  have hs := State.Keeps.refl s
  unfold execIdleWakeDone
  grind [State.Answers.next, State.Keeps.setFlag, State.Keeps.setFld, State.Keeps.rest]

theorem State.Keeps.modBnd {s₀ s : State} (hs : s₀.Keeps s) (f : BndSt → BndSt) : s₀.Keeps (s.modBnd f) := by
  grind [State.modBnd, State.Keeps.rest]

theorem State.Keeps.toPhase {s₀ s : State} (hs : s₀.Keeps s) (p : BPhase) : s₀.Keeps (s.toPhase p) := by
  grind [State.toPhase, State.Keeps.modBnd, State.Keeps.rest]

theorem State.Keeps.markRings {s₀ s : State} (hs : s₀.Keeps s) : s₀.Keeps (s.markRings) := by
  grind [State.markRings, State.Keeps.solvMark, State.Keeps.copyMark, State.Keeps.foldl]

theorem State.Keeps.fenceAll {s₀ s : State} (hs : s₀.Keeps s) : s₀.Keeps (s.fenceAll) := by
  grind [State.fenceAll, State.Keeps.rest]

theorem State.Keeps.dueRelease {s₀ s : State} (hs : s₀.Keeps s) : s₀.Keeps (s.dueRelease) := by
  grind [State.dueRelease, State.Keeps.toPhase, State.Keeps.modBnd, State.Keeps.setFlag, State.Keeps.rest]

theorem State.Keeps.dueSolstice {s₀ s : State} (hs : s₀.Keeps s) : s₀.Keeps (s.dueSolstice) := by
  grind [State.dueSolstice, State.Keeps.toPhase, State.Keeps.dueRelease]

theorem State.Keeps.dueEpoch {s₀ s : State} (hs : s₀.Keeps s) : s₀.Keeps (s.dueEpoch) := by
  grind [State.dueEpoch, State.Keeps.toPhase, State.Keeps.dueSolstice]

theorem State.Keeps.startActions {s₀ s : State} (hs : s₀.Keeps s) : s₀.Keeps (s.startActions) := by
  grind [State.startActions, State.Keeps.modBnd, State.Keeps.inc, State.Keeps.fenceAll, State.Keeps.toPhase, State.Keeps.dueEpoch,
    State.Keeps.rest]

theorem State.Keeps.advance {s₀ s : State} (hs : s₀.Keeps s) : s₀.Keeps (s.advance) := by
  grind [State.advance, State.Keeps.startActions]

theorem execStepmark_answers (s : State) (t : Tid) : s.Answers (execStepmark t s) := by
  have hs := State.Keeps.refl s
  unfold execStepmark
  grind [State.Answers.next, TRes.state, State.Keeps.issue, State.Keeps.advance, State.Keeps.toPhase, State.Keeps.markRings,
    State.Keeps.modCtx]

theorem execEquinoxVote_answers (s : State) : s.Answers (execEquinoxVote s) := by
  have hs := State.Keeps.refl s
  unfold execEquinoxVote
  have h0 := @State.Keeps.vwrite s
  generalize State.vwrite = g0 at h0 ⊢
  as_aux_lemma =>
    grind [State.Answers.next, TRes.state, State.Keeps.advance, State.Keeps.undo, State.Keeps.toPhase, State.Keeps.hzBoundary,
      State.Keeps.setFld, State.Keeps.setFlag, State.Keeps.rest]

theorem State.Keeps.hzTaken {s₀ s : State} (hs : s₀.Keeps s) (gid : ℕ) (err : Option ℕ) : s₀.Keeps (s.hzTaken gid err) := by
  unfold State.hzTaken
  have h := (hs.modBnd fun b => { b with result := none }).modHz fun h => { h with due := h.due.filter fun d => d.1 != gid }
  dsimp only
  split
  · exact hs.modBnd _
  · split
    · split
      · exact (h.modHz _).inc _
      · exact (((h.modHz _).inc _).setFld _ _).setFld _ _
    · exact h

theorem State.Keeps.eqxCommit1 {s₀ s : State} (hs : s₀.Keeps s) (m : ℕ) : s₀.Keeps (s.eqxCommit1 m) := by
  grind [State.eqxCommit1, State.Keeps.setModelQ, State.Keeps.setModelBit]

theorem State.Keeps.eqxCommit {s₀ s : State} (hs : s₀.Keeps s) : s₀.Keeps (s.eqxCommit) := by
  grind [State.eqxCommit, State.Keeps.eqxCommit1, State.Keeps.foldl]

theorem State.Keeps.eqxSkip {s₀ s : State} (hs : s₀.Keeps s) : s₀.Keeps (s.eqxSkip) := by
  grind [State.eqxSkip, State.Keeps.setModelBit, State.Keeps.foldl]

theorem State.Keeps.eqxApply {s₀ s : State} (hs : s₀.Keeps s) (f : W64) (repaired : Bool) : s₀.Keeps (s.eqxApply f repaired) := by
  unfold State.eqxApply
  have h1 := State.Keeps.ite (c := f = 0) hs.eqxCommit (hs.eqxSkip.inc fEqx_SKIPS)
  have h2 := ((h1.inc fEqx_VOTES).setFlag fEqx_LAST_SKIP (f ≠ 0)).setFlag fEqx_LAST_REPAIR repaired
  exact (((State.Keeps.ite (h2.inc _) h2).setFlag _ _).setFlag _ _).dueEpoch

theorem State.Keeps.eqxStop {s₀ s : State} (hs : s₀.Keeps s) : s₀.Keeps (s.eqxStop) := by
  unfold State.eqxStop
  grind [State.Keeps.setFlag, State.Keeps.toPhase, State.Keeps.report]

theorem execEquinoxVoteResult_answers (s : State) (err : Option ℕ) (f pmin pmax vmin vmax n : W64) :
    s.Answers (execEquinoxVoteResult err f pmin pmax vmin vmax n s) := by
  have hs := State.Keeps.refl s
  unfold execEquinoxVoteResult
  grind [State.Answers.next, State.Keeps.hzTaken, State.Keeps.eqxStop, State.Keeps.eqxApply, State.Keeps.toPhase, State.Keeps.hzBoundary,
    State.Keeps.modBnd, State.Keeps.rest]

theorem State.Keeps.eqxBarrier {s₀ s : State} (hs : s₀.Keeps s) (failed : Bool) : s₀.Keeps (s.eqxBarrier failed) := by
  grind [State.eqxBarrier, State.Keeps.toPhase, State.Keeps.hzBoundary]

theorem State.Keeps.eqxRepair {s₀ s : State} (hs : s₀.Keeps s) (p : W64) (src : ℕ) : s₀.Keeps (s.eqxRepair p src) := by
  grind [State.eqxRepair, State.Keeps.report, State.Keeps.setFlag, State.Keeps.eqxBarrier, State.Keeps.toPhase, State.Keeps.modBnd,
    State.Keeps.rest]

theorem execEquinoxCountResult_answers (s : State) (err : Option ℕ) (cmin cmax srcMin srcMax : W64) :
    s.Answers (execEquinoxCountResult err cmin cmax srcMin srcMax s) := by
  have hs := State.Keeps.refl s
  unfold execEquinoxCountResult
  grind [State.Answers.next, State.Keeps.hzTaken, State.Keeps.eqxRepair, State.Keeps.eqxStop, State.Keeps.rest]

theorem State.Keeps.repairRead {s₀ s : State} (hs : s₀.Keeps s) (x1 : List (ℕ × ℕ)) : s₀.Keeps (s.repairRead x1).2 := by
  fun_induction State.repairRead s x1 <;>
    grind [State.repairRead, State.Keeps.remoteRead, State.Keeps.rest]

theorem State.Keeps.eqxCopy {s₀ s : State} (hs : s₀.Keeps s) (f x : W64) (m : ℕ) : s₀.Keeps (s.eqxCopy f x m).2 := by
  unfold State.eqxCopy
  dsimp only
  split
  · exact hs
  · split
    · next e => exact (hs.repairRead _).of_eq e
    · next e =>
      have h := (hs.repairRead _).of_eq e
      split
      · exact h.undo _
      · next e =>
        have h2 := (h.mwrites _ _ _).of_eq₂ e
        exact State.Keeps.setModelBit (.ite ((h2.setModelQ _ _ _).setModelQ _ _ _) ((h2.setModelQ _ _ _).setModelQ _ _ _)) _ _ _
    · next e => exact (hs.repairRead _).of_eq e

theorem State.Keeps.eqxCopies {s₀ s : State} (hs : s₀.Keeps s) (f : W64) (list : List Byte) (x1 : List ℕ) :
    s₀.Keeps (s.eqxCopies f list x1).2 := by
  fun_induction State.eqxCopies s f list x1 <;>
    grind [State.eqxCopies, State.Keeps.eqxCopy, State.Keeps.rest]

theorem execEquinoxRepair_answers (s : State) (order : List ℕ) (limit : ℕ) (failed : Bool) :
    s.Answers (execEquinoxRepair order limit failed s) := by
  have hs := State.Keeps.refl s
  unfold execEquinoxRepair
  have h0 := @State.Keeps.repairRead s
  generalize State.repairRead = g0 at h0 ⊢
  have h1 := @State.Keeps.eqxCopies s
  generalize State.eqxCopies = g1 at h1 ⊢
  as_aux_lemma =>
    grind [State.Answers.next, TRes.state, State.Keeps.eqxBarrier, State.Keeps.dropGot, State.Keeps.rest]

theorem execEquinoxRepairBarrier_answers (s : State) (failed : Bool) : s.Answers (execEquinoxRepairBarrier failed s) := by
  have hs := State.Keeps.refl s
  unfold execEquinoxRepairBarrier
  refine .next ?_
  have h0 := @State.Keeps.hzTaken s
  generalize State.hzTaken = g0 at h0 ⊢
  as_aux_lemma =>
    refine .ite hs ?_
    split
    · exact (h0 hs _ _).eqxApply _ _
    · exact (h0 hs _ _).eqxStop

theorem State.Keeps.epochArm {s₀ s : State} (hs : s₀.Keeps s) : s₀.Keeps (s.epochArm) := by
  generalize hf : State.epochArm = f
  delta State.epochArm at hf
  subst hf
  beta_reduce
  exact .ite ((hs.setFlag _ _).setFld _ _) ((hs.setFlag _ _).modBnd _)

theorem State.Keeps.epochCancel {s₀ s : State} (hs : s₀.Keeps s) : s₀.Keeps (s.epochCancel) := by
  grind [State.epochCancel, State.Keeps.setFlag]

theorem State.Keeps.setEpochs {s₀ s : State} (hs : s₀.Keeps s) (e : ℕ) : s₀.Keeps (s.setEpochs e) := by
  grind [State.setEpochs, State.Keeps.setFld, State.Keeps.rest, State.Keeps.foldl]

theorem State.Keeps.syncCapped {s₀ s : State} (hs : s₀.Keeps s) : s₀.Keeps (s.syncCapped) := by
  grind [State.syncCapped, State.Keeps.setFld, State.Keeps.rest]

theorem State.Keeps.setConfig {s₀ s : State} (hs : s₀.Keeps s) (c : EpPrev) : s₀.Keeps (s.setConfig c) := by
  unfold State.setConfig
  have h := (((hs.setFld fMode_A_PROFILE c.profile).setFld fMode_A_CAP_MODE c.cap).setFld fMode_A_STRICT c.strict).setFld fMode_A_EPOCH c.epoch
  exact .ite (h.setFld _ _).syncCapped h

theorem State.Keeps.epochOver {s₀ s : State} (hs : s₀.Keeps s) : s₀.Keeps (s.epochOver) := by
  grind [State.epochOver, State.Keeps.setFlag, State.Keeps.dueSolstice]

theorem State.Keeps.epochAgree {s₀ s : State} (hs : s₀.Keeps s) (applied : Bool) : s₀.Keeps (s.epochAgree applied) := by
  grind [State.epochAgree, State.Keeps.toPhase, State.Keeps.hzBoundary, State.Keeps.epochOver]

theorem State.Keeps.epochRevert {s₀ s : State} (hs : s₀.Keeps s) (code late : ℕ) : s₀.Keeps (s.epochRevert code late) := by
  unfold State.epochRevert
  exact (((((hs.setFlag _ _).setFlag _ _).setFld _ _).setFld _ _).inc _).report _ _

theorem execEpochApply_answers (s : State) : s.Answers (execEpochApply s) := by
  have hs := State.Keeps.refl s
  unfold execEpochApply
  grind [State.Answers.next, State.Keeps.advance, State.Keeps.toPhase, State.Keeps.setFlag]

theorem execEpochApplied_answers (s : State) : s.Answers (execEpochApplied s) := by
  have hs := State.Keeps.refl s
  unfold execEpochApplied
  refine .next ?_
  exact .ite hs (.ite (((hs.modBnd _).epochRevert _ _).epochAgree _)
    (((((((hs.modBnd _).setEpochs _).setConfig _).setFlag _ _).inc _)).epochAgree _))

theorem execEpochApplyTimeout_answers (s : State) (late : ℕ) : s.Answers (execEpochApplyTimeout late s) := by
  have hs := State.Keeps.refl s
  unfold execEpochApplyTimeout
  grind [State.Answers.next, State.Keeps.epochAgree, State.Keeps.epochRevert, State.Keeps.modBnd, State.Keeps.rest]

theorem execEpochAgreementResult_answers (s : State) (err : Option ℕ) (flagMin epMin epMax : W64) :
    s.Answers (execEpochAgreementResult err flagMin epMin epMax s) := by
  have hs := State.Keeps.refl s
  unfold execEpochAgreementResult
  grind [State.Answers.next, State.Keeps.hzTaken, State.Keeps.epochOver, State.Keeps.epochRevert, State.Keeps.setEpochs,
    State.Keeps.setConfig, State.Keeps.rest]

theorem State.Keeps.pollOutcome {s₀ s : State} (hs : s₀.Keeps s) (x1 : List W64) : ∀ o, s.pollOutcome x1 = some o → s₀.Keeps o := by
  unfold State.pollOutcome
  split
  · have h : ∀ c [Decidable c] m n, s₀.Keeps (if c then s.agreement m n else s) := fun c _ m n => .ite (hs.agreement m n) hs
    dsimp only
    split
    · rintro u ⟨⟩; exact (h ..).report _ _
    · split
      · rintro u ⟨⟩; exact h ..
      · split
        · rintro u ⟨⟩; exact h ..
        · exact (h ..).cut _ _
  · rintro u ⟨⟩; exact hs

theorem execSolsticePoll_answers (s : State) : s.Answers (execSolsticePoll s) := by
  have hs := State.Keeps.refl s
  unfold execSolsticePoll
  refine .next ?_
  refine .ite hs.advance (.ite ((hs.advance.hzBoundary _ _ _).toPhase _) ?_)
  split
  · next e => exact (hs.advance.pollOutcome _ _ e).dueRelease
  · exact hs.advance

theorem execSolsticePollResult_answers (s : State) (err : Option ℕ) (v0 v1 v2 v3 v4 : W64) :
    s.Answers (execSolsticePollResult err v0 v1 v2 v3 v4 s) := by
  have hs := State.Keeps.refl s
  unfold execSolsticePollResult
  refine .next ?_
  refine .ite hs ?_
  extract_lets s1
  split
  · split
    · next e => exact ((hs.hzTaken _ _).pollOutcome _ _ e).dueRelease
    · exact hs
  · exact ((hs.hzTaken _ _).event _ _ _ _ _).dueRelease

theorem State.Keeps.freeHeld {s₀ s : State} (hs : s₀.Keeps s) : s₀.Keeps (s.freeHeld) := by
  grind [State.freeHeld, State.Keeps.setFlag, State.Keeps.toPhase, State.Keeps.rest, State.Keeps.foldl]

theorem execCanopyChunkPacket_answers (s : State) (mkey : W64) (chunk off : ℕ) (data : List Byte) :
    s.Answers (execCanopyChunkPacket mkey chunk off data s) := by
  have hs := State.Keeps.refl s
  unfold execCanopyChunkPacket
  grind [State.Answers.next, State.Keeps.addSat, State.Keeps.canPacket, State.Keeps.rest]

theorem execCanopyKeepalive_answers (s : State) : s.Answers (execCanopyKeepalive s) := by
  have hs := State.Keeps.refl s
  unfold execCanopyKeepalive
  grind [State.Answers.next, State.Keeps.canSend, State.Keeps.foldl]

theorem execCanopyParentTimeout_answers (s : State) : s.Answers (execCanopyParentTimeout s) := by
  have hs := State.Keeps.refl s
  unfold execCanopyParentTimeout
  grind [State.Answers.next, State.Keeps.canReport]

theorem execCanopyFailureReport_answers (s : State) (relay : ℕ) : s.Answers (execCanopyFailureReport relay s) := by
  have hs := State.Keeps.refl s
  unfold execCanopyFailureReport
  grind [State.Answers.next, State.Keeps.canFailedRelay]

theorem execCanopyDone_answers (s : State) (member : ℕ) : s.Answers (execCanopyDone member s) := by
  have hs := State.Keeps.refl s
  unfold execCanopyDone
  grind [State.Answers.next, State.Keeps.canDoneAt, State.Keeps.rest]

theorem execCanopyGo_answers (s : State) : s.Answers (execCanopyGo s) := by
  have hs := State.Keeps.refl s
  unfold execCanopyGo
  grind [State.Answers.next, State.Keeps.canGo]

theorem execCanopyAbandon_answers (s : State) : s.Answers (execCanopyAbandon s) := by
  have hs := State.Keeps.refl s
  unfold execCanopyAbandon
  grind [State.Answers.next, State.Keeps.event, State.Keeps.setFld]

theorem execCanopyChunkRequest_answers (s : State) (member chunk : ℕ) : s.Answers (execCanopyChunkRequest member chunk s) := by
  have hs := State.Keeps.refl s
  unfold execCanopyChunkRequest
  grind [State.Answers.next, State.Keeps.canSendChunk]

theorem execCanopyReparent_answers (s : State) (member newParent firstChunk : ℕ) :
    s.Answers (execCanopyReparent member newParent firstChunk s) := by
  have hs := State.Keeps.refl s
  unfold execCanopyReparent
  grind [State.Answers.next, State.Keeps.canSend, State.Keeps.setFld, State.Keeps.canSendFrom, State.Keeps.modCan, State.Keeps.rest]

theorem execCanopyJoinReceived_answers (s : State) (member : ℕ) : s.Answers (execCanopyJoinReceived member s) := by
  have hs := State.Keeps.refl s
  unfold execCanopyJoinReceived
  grind [State.Answers.next, State.Keeps.canReparent, State.Keeps.modCan, State.Keeps.canSendFrom, State.Keeps.rest]

theorem State.Keeps.linkReset {s₀ s : State} (hs : s₀.Keeps s) : s₀.Keeps (s.linkReset) := by
  unfold State.linkReset
  split
  · exact hs
  · have h1 := ((((hs.draw.draw.draw.setFld fCxl_RATE (if Config.outcome s.fresh then 2 else 1)).setFld fCxl_WIDTH
      (if Config.outcome (s.fresh + 1) then 16 else 8)).setFlag fCxl_LO_FLIT (Config.outcome (s.fresh + 2))).setFlag fCxl_HOST_LOST false)
    grind [State.Keeps.setFlag, State.Keeps.releaseWaiting, State.Keeps.rest]

theorem execHotReset_answers (s : State) : s.Answers (execHotReset s) := by
  have hs := State.Keeps.refl s
  unfold execHotReset
  grind [State.Answers.next, State.Keeps.linkReset]

theorem State.Keeps.writeBackHost {s₀ s : State} (hs : s₀.Keeps s) : s₀.Keeps (s.writeBackHost) := by
  grind [State.writeBackHost, State.Keeps.answer, State.Keeps.rest, State.Keeps.foldl]

theorem execCxlReset_answers (s : State) : s.Answers (execCxlReset s) := by
  have hs := State.Keeps.refl s
  unfold execCxlReset
  grind [State.Answers.next, State.Keeps.linkReset, State.Keeps.jobEnd, State.Keeps.writeBackHost, State.Keeps.rest]

theorem execPreemptN_answers (s : State) (coalesced : Bool) : s.Answers (execPreemptN coalesced s) := by
  have hs := State.Keeps.refl s
  unfold execPreemptN
  grind [State.Answers.next, State.Keeps.addSat, State.Keeps.setFlag, State.Keeps.preempt]

theorem execSafeStopN_answers (s : State) (coalesced : Bool) : s.Answers (execSafeStopN coalesced s) := by
  have hs := State.Keeps.refl s
  unfold execSafeStopN
  grind [State.Answers.next, State.Keeps.addSat, State.Keeps.detectS]

theorem execTrstN_answers (s : State) : s.Answers (execTrstN s) := by
  have hs := State.Keeps.refl s
  unfold execTrstN
  grind [State.Answers.next]

theorem execInputStuck_answers (s : State) : s.Answers (execInputStuck s) := by
  have hs := State.Keeps.refl s
  unfold execInputStuck
  grind [State.Answers.next, State.Keeps.reportR, State.Keeps.setFlag]

theorem execSysRefclkLoss_answers (s : State) : s.Answers (execSysRefclkLoss s) := by
  have hs := State.Keeps.refl s
  unfold execSysRefclkLoss
  grind [State.Answers.next, State.Keeps.detectS]

theorem execGlRefclkLoss_answers (s : State) : s.Answers (execGlRefclkLoss s) := by
  have hs := State.Keeps.refl s
  unfold execGlRefclkLoss
  grind [State.Answers.next, State.Keeps.retrainPort, State.Keeps.foldl]

theorem execVoltageMonitorTrip_answers (s : State) (unit : ℕ) : s.Answers (execVoltageMonitorTrip unit s) := by
  have hs := State.Keeps.refl s
  unfold execVoltageMonitorTrip
  grind [State.Answers.next, State.Keeps.detectS]

theorem execClockMonitorTrip_answers (s : State) (unit : ℕ) : s.Answers (execClockMonitorTrip unit s) := by
  have hs := State.Keeps.refl s
  unfold execClockMonitorTrip
  grind [State.Answers.next, State.Keeps.detectS]

theorem execLockstepMismatch_answers (s : State) : s.Answers (execLockstepMismatch s) := by
  have hs := State.Keeps.refl s
  unfold execLockstepMismatch
  grind [State.Answers.next, State.Keeps.detectS]

theorem State.Keeps.testPass {s₀ s : State} (hs : s₀.Keeps s) (u : TestUnit) (ok : Bool) (unit : ℕ) :
    s₀.Keeps (s.testPass u ok unit) := by
  grind [State.testPass, State.Keeps.injDone, State.Keeps.detectS]

theorem State.Keeps.testPassIf {s₀ s : State} (hs : s₀.Keeps s) (u : TestUnit) : s₀.Keeps (s.testPassIf u) := by
  grind [State.testPassIf, State.Keeps.testPass]

theorem execSelfTestPass_answers (s : State) (u : TestUnit) (ok : Bool) (unit : ℕ) : s.Answers (execSelfTestPass u ok unit s) := by
  have hs := State.Keeps.refl s
  unfold execSelfTestPass
  grind [State.Answers.next, State.Keeps.testPass]

theorem execSelfTestForce_answers (s : State) (_u : TestUnit) : s.Answers (execSelfTestForce _u s) := by
  have hs := State.Keeps.refl s
  unfold execSelfTestForce
  grind [State.Answers.next]

theorem State.Keeps.injSet {s₀ s : State} (hs : s₀.Keeps s) (page arm kind target : ℕ) : s₀.Keeps (s.injSet page arm kind target) := by
  grind [State.injSet, State.Keeps.setFld]

theorem State.Keeps.errinjWrite {s₀ s : State} (hs : s₀.Keeps s) (page v : ℕ) : s₀.Keeps (s.errinjWrite page v) := by
  grind [State.errinjWrite, State.Keeps.injSet, State.Keeps.rest]

theorem State.Keeps.stackErrinjWrite {s₀ s : State} (hs : s₀.Keeps s) (n v : ℕ) : s₀.Keeps (s.stackErrinjWrite n v) := by
  grind [State.stackErrinjWrite, State.Keeps.setFld]

theorem State.Keeps.injEn {s₀ s : State} (hs : s₀.Keeps s) (v : Bool) : s₀.Keeps (s.injEn v) := by
  grind [State.injEn, State.Keeps.event, State.Keeps.setFlag]

theorem State.Keeps.faultClr {s₀ s : State} (hs : s₀.Keeps s) : s₀.Keeps (s.faultClr) := by
  grind [State.faultClr, State.Keeps.setFlag]

theorem execErrorInjectionActs_answers (s : State) (page : ℕ) : s.Answers (execErrorInjectionActs page s) := by
  have hs := State.Keeps.refl s
  unfold execErrorInjectionActs
  grind [State.Answers.next, State.Keeps.detectS, State.Keeps.injDone, State.Keeps.testPassIf]

theorem execInputRangeChange_answers (s : State) (volts : ℕ) : s.Answers (execInputRangeChange volts s) := by
  have hs := State.Keeps.refl s
  unfold execInputRangeChange
  grind [State.Answers.next, State.Keeps.setFlag, State.Keeps.setFld, State.Keeps.event]

theorem State.Keeps.steps {s₀ s : State} (hs : s₀.Keeps s) (n : ℕ) : s₀.Keeps (s.steps n).2 := by
  grind [State.steps, State.Keeps.draw]

theorem execCapSample_answers (s : State) (power : ℕ) : s.Answers (execCapSample power s) := by
  have hs := State.Keeps.refl s
  unfold execCapSample
  grind [State.Answers.next, State.Keeps.setFld, State.Keeps.syncCapped, State.Keeps.steps, State.Keeps.event, State.Keeps.setFlag]

theorem execDieTempSample_answers (s : State) (die : Fin 4) (temp : BitVec 8) : s.Answers (execDieTempSample die temp s) := by
  have hs := State.Keeps.refl s
  unfold execDieTempSample
  grind [State.Answers.next, State.Keeps.setFld, State.Keeps.setFlag, State.Keeps.rest]

theorem execProtectivePowerDown_answers (s : State) (code : ℕ) (held : Bool) : s.Answers (execProtectivePowerDown code held s) := by
  have hs := State.Keeps.refl s
  unfold execProtectivePowerDown
  grind [State.Answers.next, State.Keeps.enterSafe, State.Keeps.report, State.Keeps.persist, State.Keeps.commitAll, State.Keeps.powerOff,
    State.Keeps.rest]

theorem State.Keeps.reply {s₀ s : State} (hs : s₀.Keeps s) (ag : Agent) (c : ℕ) (out : List Byte) : s₀.Keeps (s.reply ag c out) := by
  grind [State.reply, State.Keeps.answer, State.Keeps.vector]

theorem State.Keeps.mbox {s₀ s : State} (hs : s₀.Keeps s) (ag : Agent) (f : State → ℕ × List Byte × State) (h_f : ∀ v1, s₀.Keeps v1 →
    s₀.Keeps (f v1).2.2) :
    s₀.Keeps (s.mbox ag f) := by
  grind [State.mbox, State.Keeps.reply]

theorem execGetEventRecords_answers (s : State) (ag : Agent) (log : Fin 4) : s.Answers (execGetEventRecords ag log s) := by
  have hs := State.Keeps.refl s
  unfold execGetEventRecords
  grind [State.Answers.next, State.Keeps.mbox, State.Keeps.draw]

theorem execClearEventRecords_answers (s : State) (ag : Agent) (log : Fin 4) (handles : Option (List ℕ)) :
    s.Answers (execClearEventRecords ag log handles s) := by
  have hs := State.Keeps.refl s
  unfold execClearEventRecords
  grind [State.Answers.next, State.Keeps.mbox, State.Keeps.rest]

theorem execGetEventInterruptPolicy_answers (s : State) (ag : Agent) : s.Answers (execGetEventInterruptPolicy ag s) := by
  have hs := State.Keeps.refl s
  unfold execGetEventInterruptPolicy
  grind [State.Answers.next, State.Keeps.mbox]

theorem execSetEventInterruptPolicy_answers (s : State) (ag : Agent) (info warn fail fatal : ℕ) :
    s.Answers (execSetEventInterruptPolicy ag info warn fail fatal s) := by
  have hs := State.Keeps.refl s
  unfold execSetEventInterruptPolicy
  grind [State.Answers.next, State.Keeps.mbox, State.Keeps.rest, State.Keeps.foldl]

theorem execGetFwInfo_answers (s : State) (ag : Agent) : s.Answers (execGetFwInfo ag s) := by
  have hs := State.Keeps.refl s
  unfold execGetFwInfo
  grind [State.Answers.next, State.Keeps.mbox, State.Keeps.rest]

theorem State.Keeps.background {s₀ s : State} (hs : s₀.Keeps s) (b : BgCmd) : s₀.Keeps (s.background b) := by
  grind [State.background, State.Keeps.rest]

theorem execTransferFw_answers (s : State) (ag : Agent) (slot : Fin 2) (image : Image) :
    s.Answers (execTransferFw ag slot image s) := by
  have hs := State.Keeps.refl s
  unfold execTransferFw
  grind [State.Answers.next, State.Keeps.mbox, State.Keeps.background]

theorem State.Keeps.putImage {s₀ s : State} (hs : s₀.Keeps s) (slot : ℕ) (x : Image) : s₀.Keeps (s.putImage slot x) := by
  grind [State.putImage, State.Keeps.syncSlots, State.Keeps.rest]

theorem State.Keeps.formatStore {s₀ s : State} (hs : s₀.Keeps s) : s₀.Keeps (s.formatStore) := by
  unfold State.formatStore
  exact (((((hs.modSnp _).setFlag _ _).setFld _ _).setFld _ _).syncStore).wear

theorem execBackgroundCommandDone_answers (s : State) : s.Answers (execBackgroundCommandDone s) := by
  have hs := State.Keeps.refl s
  unfold execBackgroundCommandDone
  grind [State.Answers.next, State.Keeps.clrFailWrite, State.Keeps.putImage, State.Keeps.formatStore, State.Keeps.rest]

theorem State.Keeps.commitSlot {s₀ s : State} (hs : s₀.Keeps s) (slot : ℕ) : s₀.Keeps (s.commitSlot slot) := by
  grind [State.commitSlot, State.Keeps.persist]

theorem execActivateFw_answers (s : State) (ag : Agent) (slot : Fin 2) (online : Bool) :
    s.Answers (execActivateFw ag slot online s) := by
  have hs := State.Keeps.refl s
  unfold execActivateFw
  grind [State.Answers.next, State.Keeps.mbox, State.Keeps.commitSlot, State.Keeps.background, State.Keeps.rest]

theorem State.Keeps.syncSessions {s₀ s : State} (hs : s₀.Keeps s) : s₀.Keeps (s.syncSessions) := by
  grind [State.syncSessions, State.Keeps.setFld]

theorem execMgmtFwRunning_answers (s : State) : s.Answers (execMgmtFwRunning s) := by
  have hs := State.Keeps.refl s
  unfold execMgmtFwRunning
  refine .next ?_
  split
  · have k1 := fun slot => (hs.setFld fBoot_SLOT slot).commitSlot slot
    refine ((State.Keeps.syncSessions ?_).syncFwset).event _ _ _ _ _
    exact (k1 _).same rfl rfl rfl rfl rfl
  · exact hs

theorem execMgmtFwActivationTimeout_answers (s : State) : s.Answers (execMgmtFwActivationTimeout s) := by
  have hs := State.Keeps.refl s
  unfold execMgmtFwActivationTimeout
  grind [State.Answers.next, State.Keeps.event, State.Keeps.rest]

theorem execGetTimestamp_answers (s : State) (ag : Agent) : s.Answers (execGetTimestamp ag s) := by
  have hs := State.Keeps.refl s
  unfold execGetTimestamp
  grind [State.Answers.next, State.Keeps.mbox, State.Keeps.now]

theorem execSetTimestamp_answers (s : State) (ag : Agent) (val : W64) : s.Answers (execSetTimestamp ag val s) := by
  have hs := State.Keeps.refl s
  unfold execSetTimestamp
  grind [State.Answers.next, State.Keeps.mbox, State.Keeps.rest]

theorem execGetSupportedLogs_answers (s : State) (ag : Agent) : s.Answers (execGetSupportedLogs ag s) := by
  have hs := State.Keeps.refl s
  unfold execGetSupportedLogs
  grind [State.Answers.next, State.Keeps.mbox]

theorem execGetLog_answers (s : State) (ag : Agent) : s.Answers (execGetLog ag s) := by
  have hs := State.Keeps.refl s
  unfold execGetLog
  grind [State.Answers.next, State.Keeps.mbox]

theorem execIdentifyMemoryDevice_answers (s : State) (ag : Agent) : s.Answers (execIdentifyMemoryDevice ag s) := by
  have hs := State.Keeps.refl s
  unfold execIdentifyMemoryDevice
  grind [State.Answers.next, State.Keeps.mbox, State.Keeps.rest]

theorem execGetHealthInfo_answers (s : State) (ag : Agent) : s.Answers (execGetHealthInfo ag s) := by
  have hs := State.Keeps.refl s
  unfold execGetHealthInfo
  grind [State.Answers.next, State.Keeps.mbox]

theorem execUnsupportedCommand_answers (s : State) (ag : Agent) (opcode : BitVec 16) :
    s.Answers (execUnsupportedCommand ag opcode s) := by
  have hs := State.Keeps.refl s
  unfold execUnsupportedCommand
  grind [State.Answers.next, State.Keeps.mbox]

theorem execGetPackageInfo_answers (s : State) (ag : Agent) : s.Answers (execGetPackageInfo ag s) := by
  have hs := State.Keeps.refl s
  unfold execGetPackageInfo
  grind [State.Answers.next, State.Keeps.mbox]

theorem execJobStart_answers (s : State) (ag : Agent) (job : BitVec 16) (root : W64) : s.Answers (execJobStart ag job root s) := by
  have hs := State.Keeps.refl s
  unfold execJobStart
  grind [State.Answers.next, State.Keeps.mbox, State.Keeps.jobStart]

theorem execJobEnd_answers (s : State) (ag : Agent) (job : BitVec 16) : s.Answers (execJobEnd ag job s) := by
  have hs := State.Keeps.refl s
  unfold execJobEnd
  grind [State.Answers.next, State.Keeps.jobEnd, State.Keeps.mbox]

theorem execPreEmpt_answers (s : State) (ag : Agent) : s.Answers (execPreEmpt ag s) := by
  have hs := State.Keeps.refl s
  unfold execPreEmpt
  grind [State.Answers.next, State.Keeps.mbox, State.Keeps.preempt]

theorem execRegisterWindow_answers (s : State) (ag : Agent) (req : List Byte) : s.Answers (execRegisterWindow ag req s) := by
  have hs := State.Keeps.refl s
  unfold execRegisterWindow
  grind [State.Answers.next, State.Keeps.mbox, State.Keeps.addWindow]

theorem execDeregisterWindow_answers (s : State) (ag : Agent) (idx : ℕ) : s.Answers (execDeregisterWindow ag idx s) := by
  have hs := State.Keeps.refl s
  unfold execDeregisterWindow
  grind [State.Answers.next, State.Keeps.mbox, State.Keeps.dropWindow]

theorem execGetRepairRecord_answers (s : State) (ag : Agent) (stack : Fin 8) (first : ℕ) :
    s.Answers (execGetRepairRecord ag stack first s) := by
  have hs := State.Keeps.refl s
  unfold execGetRepairRecord
  grind [State.Answers.next, State.Keeps.mbox]

theorem execFormatSnapshotStore_answers (s : State) (ag : Agent) : s.Answers (execFormatSnapshotStore ag s) := by
  have hs := State.Keeps.refl s
  unfold execFormatSnapshotStore
  grind [State.Answers.next, State.Keeps.mbox, State.Keeps.background]

theorem execGetFaultLog_answers (s : State) (ag : Agent) (p : ℕ) : s.Answers (execGetFaultLog ag p s) := by
  have hs := State.Keeps.refl s
  unfold execGetFaultLog
  grind [State.Answers.next, State.Keeps.mbox, State.Keeps.rest]

theorem State.Keeps.spdm {s₀ s : State} (hs : s₀.Keeps s) (ag : Agent) (code : ℕ) (body : List Byte) :
    s₀.Keeps (s.spdm ag code body) := by
  grind [State.spdm, State.Keeps.answer]

theorem execSpdmGetMeasurements_answers (s : State) (ag : Agent) : s.Answers (execSpdmGetMeasurements ag s) := by
  have hs := State.Keeps.refl s
  unfold execSpdmGetMeasurements
  grind [State.Answers.next, State.Keeps.spdm]

theorem State.Keeps.addSession {s₀ s : State} (hs : s₀.Keeps s) (ag : Agent) : s₀.Keeps (s.addSession ag) := by
  grind [State.addSession, State.Keeps.rest]

theorem execSpdmKeyExchange_answers (s : State) (ag : Agent) : s.Answers (execSpdmKeyExchange ag s) := by
  have hs := State.Keeps.refl s
  unfold execSpdmKeyExchange
  grind [State.Answers.next, State.Keeps.spdm, State.Keeps.syncSessions, State.Keeps.addSession]

theorem execGetChallenge_answers (s : State) (ag : Agent) : s.Answers (execGetChallenge ag s) := by
  have hs := State.Keeps.refl s
  unfold execGetChallenge
  grind [State.Answers.next, State.Keeps.mbox, State.Keeps.draw, State.Keeps.rest]

theorem execNonceExpiry_answers (s : State) : s.Answers (execNonceExpiry s) := by
  have hs := State.Keeps.refl s
  unfold execNonceExpiry
  grind [State.Answers.next, State.Keeps.rest]

theorem State.Keeps.endDebug {s₀ s : State} (hs : s₀.Keeps s) : s₀.Keeps (s.endDebug) := by
  grind [State.endDebug, State.Keeps.closeDebug]

theorem execLockDebug_answers (s : State) (ag : Agent) : s.Answers (execLockDebug ag s) := by
  have hs := State.Keeps.refl s
  unfold execLockDebug
  grind [State.Answers.next, State.Keeps.mbox, State.Keeps.endDebug]

theorem execGetSecurityState_answers (s : State) (ag : Agent) : s.Answers (execGetSecurityState ag s) := by
  have hs := State.Keeps.refl s
  unfold execGetSecurityState
  grind [State.Answers.next, State.Keeps.mbox]

theorem execDebugSessionExpiry_answers (s : State) : s.Answers (execDebugSessionExpiry s) := by
  have hs := State.Keeps.refl s
  unfold execDebugSessionExpiry
  grind [State.Answers.next, State.Keeps.endDebug]

theorem State.Keeps.openDebug {s₀ s : State} (hs : s₀.Keeps s) (arg : ℕ) : s₀.Keeps (s.openDebug arg) := by
  unfold State.openDebug
  grind [State.Keeps.event, State.Keeps.addSat, State.Keeps.setFld, State.Keeps.rest]

theorem State.Keeps.authRefuse {s₀ s : State} (hs : s₀.Keeps s) (code : ℕ) : s₀.Keeps (s.authRefuse code).2.2 := by
  grind [State.authRefuse, State.Keeps.setFld, State.Keeps.addSat, State.Keeps.rest]

theorem State.Keeps.closeIf {s₀ s : State} (hs : s₀.Keeps s) (kind : ℕ) : s₀.Keeps (s.closeIf kind) := by
  grind [State.closeIf, State.Keeps.closeDebug]

theorem State.Keeps.authFuse {s₀ s : State} (hs : s₀.Keeps s) (r : AuthRec) : s₀.Keeps (s.authFuse r).2.2 := by
  unfold State.authFuse
  have h0 := fun x (hx : s₀.Keeps x) => hx.fuseRecord r.kind (if r.kind = 3 then r.arg % 256 else 0)
  have h1 := h0 _ (.ite (c := r.kind = 3) hs hs.endDebug)
  extract_lets v s0
  change s₀.Keeps s0 at h1
  clear_value s0 v
  split
  · have h2 := ((h1.draw.fuseBlow r.kind v).fuseClear).closeIf r.kind
    exact .ite (h2.retireActs.startAt _) h2
  · exact (State.Keeps.ite (h1.draw.draw.fuseBlow 3 _) h1.draw).authRefuse _

theorem State.Keeps.authAct {s₀ s : State} (hs : s₀.Keeps s) (r : AuthRec) : s₀.Keeps (s.authAct r).2.2 := by
  grind [State.authAct, State.Keeps.openDebug, State.Keeps.persist, State.Keeps.showOwner, State.Keeps.showAnchor, State.Keeps.authFuse,
    State.Keeps.rest]

theorem execSubmitRecord_answers (s : State) (ag : Agent) (off : ℕ) (last : Bool) (data : List Byte) :
    s.Answers (execSubmitRecord ag off last data s) := by
  have hs := State.Keeps.refl s
  unfold execSubmitRecord
  grind [State.Answers.next, State.Keeps.mbox, State.Keeps.authRefuse, State.Keeps.authAct, State.Keeps.rest]

theorem State.Keeps.sealAnswer {s₀ s : State} (hs : s₀.Keeps s) (code : ℕ) (out : List Byte) :
    s₀.Keeps (sealAnswer s code out).2.2 := by
  grind [sealAnswer]

theorem execSealBlob_answers (s : State) (ag : Agent) (label data : List Byte) : s.Answers (execSealBlob ag label data s) := by
  have hs := State.Keeps.refl s
  unfold execSealBlob
  grind [State.Answers.next, State.Keeps.mbox, State.Keeps.sealAnswer, State.Keeps.draw]

theorem execUnsealBlob_answers (s : State) (ag : Agent) (blob : List Byte) : s.Answers (execUnsealBlob ag blob s) := by
  have hs := State.Keeps.refl s
  unfold execUnsealBlob
  grind [State.Answers.next, State.Keeps.mbox, State.Keeps.sealAnswer]

theorem State.Keeps.placeCheck {s₀ s : State} (hs : s₀.Keeps s) (x1 : List RTensor) : s₀.Keeps (s.placeCheck x1).2 := by
  fun_induction State.placeCheck s x1 <;>
    grind [State.placeCheck, State.Keeps.gransAt, State.Keeps.rest]

theorem State.Keeps.restoreCheck {s₀ s : State} (hs : s₀.Keeps s) (m : SManifest) : s₀.Keeps (s.restoreCheck m).2 := by
  grind [State.restoreCheck, State.Keeps.placeCheck]

theorem State.Keeps.putGran {s₀ s : State} (hs : s₀.Keeps s) (gs : List GranAt) (g : ℕ) (data : List Byte) :
    s₀.Keeps (s.putGran gs g data) := by
  grind [State.putGran, State.Keeps.homeWrite, State.Keeps.rest]

theorem State.Keeps.putUnit {s₀ s : State} (hs : s₀.Keeps s) (gs : List GranAt) (unit : ℕ) (data : List Byte) :
    s₀.Keeps (s.putUnit gs unit data) := by
  grind [State.putUnit, State.Keeps.putGran, State.Keeps.foldl]

theorem State.Keeps.putPoison {s₀ s : State} (hs : s₀.Keeps s) (gs : List GranAt) (off : ℕ) : s₀.Keeps (s.putPoison gs off) := by
  grind [State.putPoison, State.Keeps.setPoison, State.Keeps.rest]

theorem State.Keeps.putShard {s₀ s : State} (hs : s₀.Keeps s) (gs : List GranAt) (x : Shard) : s₀.Keeps (s.putShard gs x) := by
  grind [State.putShard, State.Keeps.putUnit, State.Keeps.putPoison, State.Keeps.foldl]

theorem State.Keeps.putChain {s₀ s : State} (hs : s₀.Keeps s) (gs : List GranAt) (x1 : List Shard) : s₀.Keeps (s.putChain gs x1).2 := by
  fun_induction State.putChain s gs x1 <;>
    grind [State.putChain, State.Keeps.draw, State.Keeps.inc, State.Keeps.putShard]

theorem State.Keeps.freeTensor {s₀ s : State} (hs : s₀.Keeps s) (gs : List GranAt) : s₀.Keeps (s.freeTensor gs) := by
  grind [State.freeTensor, State.Keeps.putGran, State.Keeps.rest, State.Keeps.foldl]

theorem State.Keeps.putTensors {s₀ s : State} (hs : s₀.Keeps s) (x1 : List (RTensor × List GranAt)) : s₀.Keeps (s.putTensors x1).2 := by
  fun_induction State.putTensors s x1 <;>
    grind [State.putTensors, State.Keeps.putChain, State.Keeps.rest]

theorem State.Keeps.replicaWin {s₀ s : State} (hs : s₀.Keeps s) (t : RTensor) : s₀.Keeps (s.replicaWin t).2 := by
  grind [State.replicaWin, State.Keeps.tensorTable, State.Keeps.rest]

theorem State.Keeps.putReplica {s₀ s : State} (hs : s₀.Keeps s) (digests : List (W64 × List Byte)) (t : RTensor) :
    s₀.Keeps (s.putReplica digests t).2 := by
  grind [State.putReplica, State.Keeps.gransAt, State.Keeps.replicaWin, State.Keeps.undo, State.Keeps.repairRead, State.Keeps.dropGot,
    State.Keeps.putGran, State.Keeps.rest, State.Keeps.foldl]

theorem State.Keeps.putReplicas {s₀ s : State} (hs : s₀.Keeps s) (digests : List (W64 × List Byte)) (ts : List RTensor) (x1 : List ℕ) :
    s₀.Keeps (s.putReplicas digests ts x1).2 := by
  fun_induction State.putReplicas s digests ts x1 <;>
    grind [State.putReplicas, State.Keeps.putReplica, State.Keeps.rest]

theorem State.Keeps.restoreEnd {s₀ s : State} (hs : s₀.Keeps s) (code : ℕ) : s₀.Keeps (s.restoreEnd code) := by
  grind [State.restoreEnd, State.Keeps.modSnp, State.Keeps.setFlag, State.Keeps.setFld, State.Keeps.rest]

theorem State.Keeps.restoreAt {s₀ s : State} (hs : s₀.Keeps s) (m : SManifest) (code : ℕ) (st : RestStage) :
    s₀.Keeps (s.restoreAt m code st) := by
  grind [State.restoreAt, State.Keeps.modSnp, State.Keeps.rest]

theorem State.Keeps.restoreBarrier {s₀ s : State} (hs : s₀.Keeps s) (m : SManifest) (code : ℕ) (st : RestStage) :
    s₀.Keeps (s.restoreBarrier m code st) := by
  grind [State.restoreBarrier, State.Keeps.restoreAt, State.Keeps.hzBoundary]

theorem State.Keeps.restoreRun {s₀ s : State} (hs : s₀.Keeps s) (m : SManifest) : s₀.Keeps (s.restoreRun m) := by
  unfold State.restoreRun
  grind [State.Keeps.endThreads, State.Keeps.toPhase, State.Keeps.restoreCheck, State.Keeps.putTensors, State.Keeps.restoreBarrier,
    State.Keeps.answer, State.Keeps.restoreAt, State.Keeps.undo, State.Keeps.rest, State.Keeps.foldl]

theorem State.Keeps.restoreAgreed {s₀ s : State} (hs : s₀.Keeps s) (lo hi gmin gmax : ℕ) :
    s₀.Keeps (s.restoreAgreed lo hi gmin gmax) := by
  grind [State.restoreAgreed, State.Keeps.agreement, State.Keeps.restoreEnd, State.Keeps.restoreRun, State.Keeps.rest]

theorem State.Keeps.restoreStart {s₀ s : State} (hs : s₀.Keeps s) (err : Option ℕ) (vals : List W64) :
    s₀.Keeps (s.restoreStart err vals) := by
  grind [State.restoreStart, State.Keeps.hzBoundary, State.Keeps.restoreAgreed, State.Keeps.hzTaken, State.Keeps.restoreEnd,
    State.Keeps.rest]

theorem State.Keeps.restoreWrite {s₀ s : State} (hs : s₀.Keeps s) (err : Option ℕ) (vals : W64 × W64 × W64 × W64) :
    s₀.Keeps (s.restoreWrite err vals) := by
  grind [State.restoreWrite, State.Keeps.setFld, State.Keeps.setFlag, State.Keeps.modSnp, State.Keeps.restoreStart, State.Keeps.rest]

theorem State.Keeps.resumeRestore {s₀ s : State} (hs : s₀.Keeps s) : s₀.Keeps (s.resumeRestore) := by
  grind [State.resumeRestore, State.Keeps.restoreStart, State.Keeps.modSnp, State.Keeps.rest]

theorem State.Keeps.spoilTensors {s₀ s : State} (hs : s₀.Keeps s) (x1 : List RTensor) : s₀.Keeps (s.spoilTensors x1) := by
  fun_induction State.spoilTensors s x1 <;>
    grind [State.spoilTensors, State.Keeps.gransAt, State.Keeps.freeTensor, State.Keeps.rest]

theorem State.Keeps.restoreFinish {s₀ s : State} (hs : s₀.Keeps s) (m : SManifest) (own : ℕ) (peerFailed : Bool) :
    s₀.Keeps (s.restoreFinish m own peerFailed) := by
  grind [State.restoreFinish, State.Keeps.releaseWaiting, State.Keeps.restoreEnd, State.Keeps.toPhase, State.Keeps.setFlag,
    State.Keeps.setFld, State.Keeps.spoilTensors]

theorem State.Keeps.restoreLast {s₀ s : State} (hs : s₀.Keeps s) (m : SManifest) (code : ℕ) : s₀.Keeps (s.restoreLast m code) := by
  grind [State.restoreLast, State.Keeps.restoreFinish, State.Keeps.restoreBarrier, State.Keeps.hzTaken]

theorem State.Keeps.restoreReplicas {s₀ s : State} (hs : s₀.Keeps s) (m : SManifest) (code : ℕ) (digests : List (W64 × List Byte)) (ids :
    List ℕ) :
    s₀.Keeps (s.restoreReplicas m code digests ids) := by
  grind [State.restoreReplicas, State.Keeps.restoreLast, State.Keeps.putReplicas, State.Keeps.restoreAt, State.Keeps.rest]

theorem execRestoreComplete_answers (s : State) (peers : Option (List (W64 × List Byte))) :
    s.Answers (execRestoreComplete peers s) := by
  have hs := State.Keeps.refl s
  unfold execRestoreComplete
  grind [State.Answers.next, State.Keeps.resumeRestore, State.Keeps.restoreRun, State.Keeps.hzTaken, State.Keeps.restoreLast,
    State.Keeps.restoreReplicas, State.Keeps.restoreFinish, State.Keeps.rest]

theorem execShardDigestRequest_answers (s : State) (requester : ℕ) (tensor : W64) :
    s.Answers (execShardDigestRequest requester tensor s) := by
  have hs := State.Keeps.refl s
  unfold execShardDigestRequest
  grind [State.Answers.next, State.Keeps.answer, State.Keeps.rest]

theorem execSnapshotUnitCopy_answers (s : State) : s.Answers (execSnapshotUnitCopy s) := by
  have hs := State.Keeps.refl s
  unfold execSnapshotUnitCopy
  refine .next ?_
  have h0 := @State.Keeps.unitLines s
  generalize State.unitLines = g0 at h0 ⊢
  have h1 := @State.Keeps.poolEntries s
  generalize State.poolEntries = g1 at h1 ⊢
  as_aux_lemma =>
    refine State.Keeps.resumeRestore ?_
    split
    · exact hs
    · split
      · exact .ite hs (hs.unitCopied _)
      · split
        · exact hs
        · refine .ite hs (.ite (.ite ?_ hs) ?_)
          · split
            next e => exact ((h0 hs _ _).of_eq e).unitCopied _
          · split
            · exact hs.undo _
            · next e => exact ((h1 hs).of_eq e).snapFail _
            · next e =>
              have k1 := (h1 hs).of_eq e
              split
              · exact hs
              · split
                · exact k1.snapFail _
                · split
                  next e =>
                  have k2 := (h0 k1 _ _).of_eq e
                  cases hu : State.unitPut _ _ _ _ with
                  | none => exact hs
                  | some u => exact k2.unitPut _ _ _ _ hu

theorem execStallLimit_answers (s : State) : s.Answers (execStallLimit s) := by
  have hs := State.Keeps.refl s
  unfold execStallLimit
  grind [State.Answers.next, State.Keeps.resumeRestore, State.Keeps.inc, State.Keeps.snapFail]

theorem execShardDrain_answers (s : State) (progFail : Bool) : s.Answers (execShardDrain progFail s) := by
  have hs := State.Keeps.refl s
  unfold execShardDrain
  have h0 := @State.Keeps.progFailure s
  generalize State.progFailure = g0 at h0 ⊢
  have h1 := @State.Keeps.draw s
  generalize State.draw = g1 at h1 ⊢
  as_aux_lemma =>
    grind [State.Answers.next, TRes.state, State.Keeps.resumeRestore, State.Keeps.snapFail, State.Keeps.wear, State.Keeps.syncSnap,
      State.Keeps.modSnp, State.Keeps.rest]

theorem execSnapshotCommit_answers (s : State) : s.Answers (execSnapshotCommit s) := by
  have hs := State.Keeps.refl s
  unfold execSnapshotCommit
  refine .next ?_
  refine State.Keeps.resumeRestore ?_
  split
  · exact hs
  · refine .ite (hs.snapEnd _) (.ite hs ?_)
    extract_lets s1 s2 s4 b s5 s3
    have k2 : s.Keeps s2 := (((hs.modSnp _).syncStore.setFld _ _).setFld _ _).syncSnap
    have k4 : s.Keeps s4 := k2.event _ _ _ _ _
    have k5 : s.Keeps s5 := k4.same rfl rfl rfl rfl rfl
    have k3 : s.Keeps s3 := .ite (.ite (k5.answer _) k5) k2
    exact .ite k3 (k3.agree _)

theorem State.Keeps.snapCancel {s₀ s : State} (hs : s₀.Keeps s) : s₀.Keeps (s.snapCancel) := by
  grind [State.snapCancel, State.Keeps.resumeRestore, State.Keeps.snapEnd]

theorem State.Keeps.vecWake {s₀ s : State} (hs : s₀.Keeps s) (c : ℕ) : s₀.Keeps (s.vecWake c) := by
  grind [State.vecWake, State.Keeps.rest]

theorem execVectorPowerDown_answers (s : State) (core : Fin 48) : s.Answers (execVectorPowerDown core s) := by
  have hs := State.Keeps.refl s
  unfold execVectorPowerDown
  grind [State.Answers.next, State.Keeps.setFlag]

theorem execVectorWakeDone_answers (s : State) (core : Fin 48) : s.Answers (execVectorWakeDone core s) := by
  have hs := State.Keeps.refl s
  unfold execVectorWakeDone
  grind [State.Answers.next, State.Keeps.setFlag, State.Keeps.rest]

theorem State.Keeps.vecHold {s₀ s : State} (hs : s₀.Keeps s) (c : ℕ) (hold : Bool) : s₀.Keeps (s.vecHold c hold) := by
  grind [State.vecHold, State.Keeps.setFlag, State.Keeps.vecWake]

theorem State.Keeps.vecInsn {s₀ s : State} (hs : s₀.Keeps s) (t : Tid) (i : Instr) (work : Bool) (body : State → TRes) (h_body : ∀ v1,
    s₀.Keeps v1 → s₀.Keeps (body v1).state) :
    s₀.Keeps (s.vecInsn t i work body) := by
  grind [State.vecInsn, TRes.state, State.Keeps.issue, State.Keeps.vecWake]

theorem execVlen_answers (s : State) (t : Tid) (w : MemW) (d : Reg) : s.Answers (execVlen t w d s) := by
  have hs := State.Keeps.refl s
  unfold execVlen
  grind [State.Answers.next, TRes.state, State.Keeps.vecInsn, State.Keeps.modCtx]

theorem execKtail_answers (s : State) (t : Tid) (w : MemW) (k : Fin 8) (a b : Reg) : s.Answers (execKtail t w k a b s) := by
  have hs := State.Keeps.refl s
  unfold execKtail
  grind [State.Answers.next, TRes.state, State.Keeps.vecInsn, State.Keeps.setCtx, State.Keeps.foldl]

theorem State.Keeps.vfred {s₀ s : State} (hs : s₀.Keeps s) (t : Tid) (i : Instr) (rm d : ℕ) (f : ℕ → Ctx → ℕ × Flags) :
    s₀.Keeps (s.vfred t i rm d f) := by
  unfold State.vfred
  refine hs.vecInsn _ _ _ _ fun t h => ?_
  dsimp only
  split
  · exact h
  · exact h.setCtx _ _

theorem execVfredO_answers (s : State) (t : Tid) (f : FW) (rm : Fin 8) (d a b : Reg) (k : Fin 8) :
    s.Answers (execVfredO t f rm d a b k s) := by
  have hs := State.Keeps.refl s
  unfold execVfredO
  grind [State.Answers.next, State.Keeps.vfred, State.Keeps.rest, State.Keeps.foldl]

theorem execVfredT_answers (s : State) (t : Tid) (f : FW) (rm : Fin 8) (d b : Reg) (k : Fin 8) :
    s.Answers (execVfredT t f rm d b k s) := by
  have hs := State.Keeps.refl s
  unfold execVfredT
  grind [State.Answers.next, State.Keeps.vfred]

theorem State.Keeps.readCell {s₀ s : State} (hs : s₀.Keeps s) (p c : ℕ) : s₀.Keeps (s.readCell p c).2 := by
  grind [State.readCell, State.Keeps.now, State.Keeps.draw]

theorem State.Keeps.regRead {s₀ s : State} (hs : s₀.Keeps s) (ag : Agent) (p off width : ℕ) :
    s₀.Keeps (s.regRead ag p off width).2 := by
  grind [State.regRead, State.Keeps.readCell, State.Keeps.rest]

theorem State.Keeps.on {s₀ s : State} (hs : s₀.Keeps s) (w : Wr) (f : Fld) (g : State → ℕ → State) (h_g : ∀ v1 v2, s₀.Keeps v1 → s₀.Keeps (g
    v1 v2)) :
    s₀.Keeps (s.on w f g) := by
  grind [State.on, State.Keeps.rest]

theorem State.Keeps.onSet {s₀ s : State} (hs : s₀.Keeps s) (w : Wr) (f : Fld) (g : State → State) (h_g : ∀ v1, s₀.Keeps v1 → s₀.Keeps (g
    v1)) :
    s₀.Keeps (s.onSet w f g) := by
  grind [State.onSet, State.Keeps.on]

theorem State.Keeps.onIf {s₀ s : State} (hs : s₀.Keeps s) (w : Wr) (f : Fld) (ok : ℕ → Bool) : s₀.Keeps (s.onIf w f ok) := by
  grind [State.onIf, State.Keeps.on, State.Keeps.setFld]

theorem State.Keeps.plainWrite {s₀ s : State} (hs : s₀.Keeps s) (b : Blk) (i : ℕ) (w : Wr) : s₀.Keeps (s.plainWrite b i w) := by
  grind [State.plainWrite, State.Keeps.setCell]

theorem State.Keeps.pstWrite {s₀ s : State} (hs : s₀.Keeps s) (ag : Agent) (i v : ℕ) : s₀.Keeps (s.pstWrite ag i v) := by
  grind [State.pstWrite, State.Keeps.setFlag, State.Keeps.persist]

theorem State.Keeps.ringEn {s₀ s : State} (hs : s₀.Keeps s) (f : Fld) (x : ℕ) (enable : State → State) (h_enable : ∀ v1, s₀.Keeps v1 →
    s₀.Keeps (enable v1)) :
    s₀.Keeps (s.ringEn f x enable) := by
  grind [State.ringEn, State.Keeps.setFlag, State.Keeps.setFld]

theorem State.Keeps.setIdePol {s₀ s : State} (hs : s₀.Keeps s) (x : ℕ) : s₀.Keeps (s.setIdePol x) := by
  grind [State.setIdePol, State.Keeps.setFld, State.Keeps.setFlag]

theorem State.Keeps.groveOut {s₀ s : State} (hs : s₀.Keeps s) (g : ℕ) : s₀.Keeps (s.groveOut g) := by
  grind [State.groveOut, State.Keeps.setFld]

theorem State.Keeps.groveBack {s₀ s : State} (hs : s₀.Keeps s) (g : ℕ) : s₀.Keeps (s.groveBack g) := by
  grind [State.groveBack, State.Keeps.setFld]

theorem State.Keeps.noteStg {s₀ s : State} (hs : s₀.Keeps s) (w : Wr) : s₀.Keeps (s.noteStg w) := by
  grind [State.noteStg, State.Keeps.rest]

theorem State.Keeps.restoreFree {s₀ s : State} (hs : s₀.Keeps s) : s₀.Keeps (s.restoreFree) := by
  grind [State.restoreFree, State.Keeps.restoreWrite, State.Keeps.rest]

theorem State.Keeps.blockActs {s₀ s : State} (hs : s₀.Keeps s) (b : Blk) (i : ℕ) (w : Wr) : s₀.Keeps (s.blockActs b i w) := by
  unfold State.blockActs
  split
  · exact hs.on _ _ _ fun _ _ h => h.pstWrite _ _ _
  · exact ((hs.noteStg _).onSet _ _ _ fun _ h => h.epochArm).onSet _ _ _ fun _ h => h.epochCancel
  · exact (hs.on _ _ _ fun _ _ h => h.injEn _).onSet _ _ _ fun _ h => h.faultClr
  · exact ((((hs.onSet _ _ _ fun _ h => h.snapRequest).onSet _ _ _ fun _ h => h.snapCancel).onSet _ _ _ fun _ h => h.snapRelease).onSet _ _ _
      fun _ h => h.restoreFree).on _ _ _ fun _ _ h => h.pstWrite _ _ _
  · exact ((((hs.onIf _ _ _).on _ _ _ fun _ _ h => h.pstWrite _ _ _).onIf _ _ _).onSet _ _ _ fun _ h => h.retReq).onSet _ _ _ fun _ h => h.retExit
  · exact hs.foldl _ (fun _ _ h => h.on _ _ _ fun _ _ h => h.vecHold _ _) _
  · exact (hs.on _ _ _ fun _ _ h => h.pstWrite _ _ _).onSet _ _ _ fun _ h => h.clrFailWrite
  · exact hs.on _ _ _ fun _ _ h => h.setIdePol _
  · exact hs.on _ _ _ fun _ _ h => (h.ringEn _ _ _ fun _ h => h.hringEnable).jobOver
  · exact (hs.on _ _ _ fun _ _ h => .ite (.ite h ((h.setFlag _ _).portEn _)) ((h.setFlag _ _).portDis _)).onSet _ _ _ fun _ h => h.portRetr _
  · exact hs.onSet _ _ _ fun _ h => h.setFld _ _
  · exact hs.on _ _ _ fun _ _ h => h.canCmdWrite _
  · exact hs.on _ _ _ fun _ _ h => h.ringEn _ _ _ fun _ h => h.solvEnable _
  · exact hs.on _ _ _ fun _ _ h => h.ringEn _ _ _ fun _ h => h.copyEnable _
  · exact hs.onSet _ _ _ fun _ h => h.setFld _ _
  · exact hs.onSet _ _ _ fun _ h => h.setFld _ _
  · exact ((hs.onIf _ _ _).onSet _ _ _ fun _ h => h.groveOut _).onSet _ _ _ fun _ h => h.groveBack _
  · exact hs

theorem State.Keeps.headActs {s₀ s : State} (hs : s₀.Keeps s) (b : Blk) (i : ℕ) (w : Wr) : s₀.Keeps (s.headActs b i w) := by
  grind [State.headActs, State.Keeps.on, State.Keeps.setFld, State.Keeps.onSet, State.Keeps.setFlag, State.Keeps.stackErrinjWrite,
    State.Keeps.errinjWrite]

theorem State.Keeps.regWrite {s₀ s : State} (hs : s₀.Keeps s) (ag : Agent) (p off width val : ℕ) :
    s₀.Keeps (s.regWrite ag p off width val) := by
  grind [State.regWrite, State.Keeps.blockActs, State.Keeps.headActs, State.Keeps.plainWrite, State.Keeps.rest]

theorem State.Keeps.agentWrite {s₀ s : State} (hs : s₀.Keeps s) (ag : Agent) (p off width val : ℕ) :
    s₀.Keeps (s.agentWrite ag p off width val) := by
  grind [State.agentWrite, State.Keeps.answer, State.Keeps.regWrite]

theorem State.Keeps.tabBytes {s₀ s : State} (hs : s₀.Keeps s) (ag : Agent) (x1 : ℕ) (x2 : List Byte) :
    s₀.Keeps (s.tabBytes ag x1 x2) := by
  fun_induction State.tabBytes s ag x1 x2 <;>
    grind [State.tabBytes, State.Keeps.setBarByte]

theorem State.Keeps.tabEn {s₀ s : State} (hs : s₀.Keeps s) (o : ℕ) (bs : List Byte) : s₀.Keeps (s.tabEn o bs) := by
  grind [State.tabEn, State.Keeps.modelSetEn, State.Keeps.viewSetEn]

theorem State.Keeps.tabWrite {s₀ s : State} (hs : s₀.Keeps s) (ag : Agent) (o : ℕ) (bs : List Byte) :
    s₀.Keeps (s.tabWrite ag o bs) := by
  grind [State.tabWrite, State.Keeps.tabBytes, State.Keeps.noteSets, State.Keeps.tabEn]

theorem State.Keeps.agentTabWrite {s₀ s : State} (hs : s₀.Keeps s) (ag : Agent) (o width val : ℕ) :
    s₀.Keeps (s.agentTabWrite ag o width val) := by
  grind [State.agentTabWrite, State.Keeps.answer, State.Keeps.tabWrite]

theorem execRegisterWrite_answers (s : State) (ag : Agent) (page off width : ℕ) (val : W64) :
    s.Answers (execRegisterWrite ag page off width val s) := by
  have hs := State.Keeps.refl s
  unfold execRegisterWrite
  grind [State.Answers.next, State.Keeps.agentTabWrite, State.Keeps.agentWrite]

theorem execTimeCounterLowRead_answers (s : State) (ag : Agent) (page : ℕ) (sat : Bool) :
    s.Answers (execTimeCounterLowRead ag page sat s) := by
  have hs := State.Keeps.refl s
  unfold execTimeCounterLowRead
  grind [State.Answers.next, State.Keeps.answer, State.Keeps.regRead]

theorem execBlkVerselWrite_answers (s : State) (ag : Agent) (page : ℕ) (val : W32) : s.Answers (execBlkVerselWrite ag page val s) := by
  have hs := State.Keeps.refl s
  unfold execBlkVerselWrite
  grind [State.Answers.next, State.Keeps.agentWrite]

theorem execBlkCtlLock_answers (s : State) (ag : Agent) (page width : ℕ) (val : W64) :
    s.Answers (execBlkCtlLock ag page width val s) := by
  have hs := State.Keeps.refl s
  unfold execBlkCtlLock
  grind [State.Answers.next, State.Keeps.agentWrite]

theorem execBlkErrinjWrite_answers (s : State) (ag : Agent) (page : ℕ) (val : W32) : s.Answers (execBlkErrinjWrite ag page val s) := by
  have hs := State.Keeps.refl s
  unfold execBlkErrinjWrite
  grind [State.Answers.next, State.Keeps.agentWrite]

theorem execStackErrinjWrite_answers (s : State) (ag : Agent) (stack : Fin 8) (val : W32) :
    s.Answers (execStackErrinjWrite ag stack val s) := by
  have hs := State.Keeps.refl s
  unfold execStackErrinjWrite
  grind [State.Answers.next, State.Keeps.agentWrite]

theorem execPersistentWrite_answers (s : State) (ag : Agent) (idx : Fin 4) (val : W32) :
    s.Answers (execPersistentWrite ag idx val s) := by
  have hs := State.Keeps.refl s
  unfold execPersistentWrite
  grind [State.Answers.next, State.Keeps.agentWrite]

theorem execVecCtlHold_answers (s : State) (ag : Agent) (core : Fin 48) (hold : Bool) : s.Answers (execVecCtlHold ag core hold s) := by
  have hs := State.Keeps.refl s
  unfold execVecCtlHold
  grind [State.Answers.next, State.Keeps.agentWrite]

theorem execEwSplitWrite_answers (s : State) (ag : Agent) (g : Fin 256) (val : Fin 4) : s.Answers (execEwSplitWrite ag g val s) := by
  have hs := State.Keeps.refl s
  unfold execEwSplitWrite
  grind [State.Answers.next, State.Keeps.agentWrite]

theorem execTempPeakClr_answers (s : State) (ag : Agent) (st : Fin 8) : s.Answers (execTempPeakClr ag st s) := by
  have hs := State.Keeps.refl s
  unfold execTempPeakClr
  grind [State.Answers.next, State.Keeps.agentWrite]

theorem execCombPeakClr_answers (s : State) (ag : Agent) (st : Fin 8) : s.Answers (execCombPeakClr ag st s) := by
  have hs := State.Keeps.refl s
  unfold execCombPeakClr
  grind [State.Answers.next, State.Keeps.agentWrite]

theorem execCtxPeakClr_answers (s : State) (ag : Agent) : s.Answers (execCtxPeakClr ag s) := by
  have hs := State.Keeps.refl s
  unfold execCtxPeakClr
  grind [State.Answers.next, State.Keeps.agentWrite]

theorem execViewRegister_answers (s : State) (ag : Agent) (idx : Fin 1024) : s.Answers (execViewRegister ag idx s) := by
  have hs := State.Keeps.refl s
  unfold execViewRegister
  grind [State.Answers.next, State.Keeps.viewSetEn]

theorem execViewDeregister_answers (s : State) (ag : Agent) (idx : Fin 1024) : s.Answers (execViewDeregister ag idx s) := by
  have hs := State.Keeps.refl s
  unfold execViewDeregister
  grind [State.Answers.next, State.Keeps.viewSetEn]

theorem execModelRegister_answers (s : State) (ag : Agent) (m : Fin 4096) : s.Answers (execModelRegister ag m s) := by
  have hs := State.Keeps.refl s
  unfold execModelRegister
  grind [State.Answers.next, State.Keeps.modelSetEn]

theorem execModelDeregister_answers (s : State) (ag : Agent) (m : Fin 4096) : s.Answers (execModelDeregister ag m s) := by
  have hs := State.Keeps.refl s
  unfold execModelDeregister
  grind [State.Answers.next, State.Keeps.modelSetEn]

theorem execRouteTableWrite_answers (s : State) (ag : Agent) (pkg : ℕ) (val : W32) : s.Answers (execRouteTableWrite ag pkg val s) := by
  have hs := State.Keeps.refl s
  unfold execRouteTableWrite
  grind [State.Answers.next, State.Keeps.tabWrite]

theorem execCopyRingEnable_answers (s : State) (ag : Agent) (st : Fin 8) : s.Answers (execCopyRingEnable ag st s) := by
  have hs := State.Keeps.refl s
  unfold execCopyRingEnable
  grind [State.Answers.next, State.Keeps.agentWrite]

theorem execSolverRingEnable_answers (s : State) (ag : Agent) (q : Fin 64) : s.Answers (execSolverRingEnable ag q s) := by
  have hs := State.Keeps.refl s
  unfold execSolverRingEnable
  grind [State.Answers.next, State.Keeps.agentWrite]

theorem execHostRingEnable_answers (s : State) (ag : Agent) : s.Answers (execHostRingEnable ag s) := by
  have hs := State.Keeps.refl s
  unfold execHostRingEnable
  grind [State.Answers.next, State.Keeps.agentWrite]

theorem execPortEnable_answers (s : State) (ag : Agent) (p : Fin 16) : s.Answers (execPortEnable ag p s) := by
  have hs := State.Keeps.refl s
  unfold execPortEnable
  grind [State.Answers.next, State.Keeps.agentWrite]

theorem execPortDisable_answers (s : State) (ag : Agent) (p : Fin 16) : s.Answers (execPortDisable ag p s) := by
  have hs := State.Keeps.refl s
  unfold execPortDisable
  grind [State.Answers.next, State.Keeps.agentWrite]

theorem execPortRetrain_answers (s : State) (ag : Agent) (p : Fin 16) : s.Answers (execPortRetrain ag p s) := by
  have hs := State.Keeps.refl s
  unfold execPortRetrain
  grind [State.Answers.next, State.Keeps.agentWrite]

theorem execCanopyStart_answers (s : State) (ag : Agent) : s.Answers (execCanopyStart ag s) := by
  have hs := State.Keeps.refl s
  unfold execCanopyStart
  grind [State.Answers.next, State.Keeps.agentWrite]

theorem execCanopyJoin_answers (s : State) (ag : Agent) : s.Answers (execCanopyJoin ag s) := by
  have hs := State.Keeps.refl s
  unfold execCanopyJoin
  grind [State.Answers.next, State.Keeps.agentWrite]

theorem execCanopyCancel_answers (s : State) (ag : Agent) : s.Answers (execCanopyCancel ag s) := by
  have hs := State.Keeps.refl s
  unfold execCanopyCancel
  grind [State.Answers.next, State.Keeps.agentWrite]

theorem execEpochArm_answers (s : State) (ag : Agent) : s.Answers (execEpochArm ag s) := by
  have hs := State.Keeps.refl s
  unfold execEpochArm
  grind [State.Answers.next, State.Keeps.agentWrite]

theorem execEpochCancel_answers (s : State) (ag : Agent) : s.Answers (execEpochCancel ag s) := by
  have hs := State.Keeps.refl s
  unfold execEpochCancel
  grind [State.Answers.next, State.Keeps.agentWrite]

theorem execSnapshotRequest_answers (s : State) (ag : Agent) : s.Answers (execSnapshotRequest ag s) := by
  have hs := State.Keeps.refl s
  unfold execSnapshotRequest
  grind [State.Answers.next, State.Keeps.agentWrite]

theorem execSnapshotCancel_answers (s : State) (ag : Agent) : s.Answers (execSnapshotCancel ag s) := by
  have hs := State.Keeps.refl s
  unfold execSnapshotCancel
  grind [State.Answers.next, State.Keeps.agentWrite]

theorem execSnapshotRelease_answers (s : State) (ag : Agent) : s.Answers (execSnapshotRelease ag s) := by
  have hs := State.Keeps.refl s
  unfold execSnapshotRelease
  grind [State.Answers.next, State.Keeps.agentWrite]

theorem execRestore_answers (s : State) (ag : Agent) (err : Option ℕ) (committedMin committedMax genMin genMax : W64) :
    s.Answers (execRestore ag err committedMin committedMax genMin genMax s) := by
  have hs := State.Keeps.refl s
  unfold execRestore
  grind [State.Answers.next, State.Keeps.restoreWrite]

theorem execClrFail_answers (s : State) (ag : Agent) : s.Answers (execClrFail ag s) := by
  have hs := State.Keeps.refl s
  unfold execClrFail
  grind [State.Answers.next, State.Keeps.agentWrite]

theorem execRetReq_answers (s : State) (ag : Agent) : s.Answers (execRetReq ag s) := by
  have hs := State.Keeps.refl s
  unfold execRetReq
  grind [State.Answers.next, State.Keeps.agentWrite]

theorem execRetExit_answers (s : State) (ag : Agent) : s.Answers (execRetExit ag s) := by
  have hs := State.Keeps.refl s
  unfold execRetExit
  grind [State.Answers.next, State.Keeps.agentWrite]

theorem execCapWWrite_answers (s : State) (ag : Agent) (val : W32) : s.Answers (execCapWWrite ag val s) := by
  have hs := State.Keeps.refl s
  unfold execCapWWrite
  grind [State.Answers.next, State.Keeps.agentWrite]

theorem execFaultClr_answers (s : State) (ag : Agent) : s.Answers (execFaultClr ag s) := by
  have hs := State.Keeps.refl s
  unfold execFaultClr
  grind [State.Answers.next, State.Keeps.agentWrite]

theorem execInjEnWrite_answers (s : State) (ag : Agent) (val : Bool) : s.Answers (execInjEnWrite ag val s) := by
  have hs := State.Keeps.refl s
  unfold execInjEnWrite
  grind [State.Answers.next, State.Keeps.agentWrite]

theorem execGroveOutReq_answers (s : State) (ag : Agent) (g : Fin 256) : s.Answers (execGroveOutReq ag g s) := by
  have hs := State.Keeps.refl s
  unfold execGroveOutReq
  grind [State.Answers.next, State.Keeps.agentWrite]

theorem execGroveReturn_answers (s : State) (ag : Agent) (g : Fin 256) : s.Answers (execGroveReturn ag g s) := by
  have hs := State.Keeps.refl s
  unfold execGroveReturn
  grind [State.Answers.next, State.Keeps.agentWrite]

theorem execReadRegister_answers (s : State) (page off width : ℕ) : s.Answers (execReadRegister page off width s) := by
  have hs := State.Keeps.refl s
  unfold execReadRegister
  grind [State.Answers.next, State.Keeps.mbox, State.Keeps.regRead]

theorem execWriteRegister_answers (s : State) (page off width : ℕ) (val : W64) :
    s.Answers (execWriteRegister page off width val s) := by
  have hs := State.Keeps.refl s
  unfold execWriteRegister
  grind [State.Answers.next, State.Keeps.commitsSince, State.Keeps.regWrite, State.Keeps.reply]

theorem execGroveSvcDrained_answers (s : State) (g : Fin 256) : s.Answers (execGroveSvcDrained g s) := by
  have hs := State.Keeps.refl s
  unfold execGroveSvcDrained
  grind [State.Answers.next, State.Keeps.setFld, State.Keeps.setGrove, State.Keeps.rest]

theorem execGroveMarginTestDone_answers (s : State) (g : Fin 256) (rotationOk marginOk : Bool) :
    s.Answers (execGroveMarginTestDone g rotationOk marginOk s) := by
  have hs := State.Keeps.refl s
  unfold execGroveMarginTestDone
  grind [State.Answers.next, State.Keeps.testPass, State.Keeps.setFld, State.Keeps.report]

theorem State.Keeps.dbgHome {s₀ s : State} (hs : s₀.Keeps s) (cmd key len : ℕ) (bs : List Byte) :
    s₀.Keeps (s.dbgHome cmd key len bs) := by
  grind [State.dbgHome, State.Keeps.serveReq]

theorem State.Keeps.dbgRead {s₀ s : State} (hs : s₀.Keeps s) (lpa len : ℕ) : s₀.Keeps (s.dbgRead lpa len) := by
  grind [State.dbgRead, State.Keeps.dbgHome, State.Keeps.answer, State.Keeps.regRead, State.Keeps.rest]

theorem State.Keeps.dbgWrite {s₀ s : State} (hs : s₀.Keeps s) (lpa : ℕ) (bs : List Byte) : s₀.Keeps (s.dbgWrite lpa bs) := by
  grind [State.dbgWrite, State.Keeps.dbgHome, State.Keeps.putDram, State.Keeps.regWrite, State.Keeps.answer, State.Keeps.tabWrite,
    State.Keeps.rest]

theorem State.Keeps.dbgStep {s₀ s : State} (hs : s₀.Keeps s) (h : ℕ) : s₀.Keeps (s.dbgStep h) := by
  grind [State.dbgStep, State.Keeps.rest]

theorem State.Keeps.dbgAct {s₀ s : State} (hs : s₀.Keeps s) (op : DbgOp) : s₀.Keeps (s.dbgAct op) := by
  unfold State.dbgAct
  grind [State.Keeps.dbgStep, State.Keeps.answer, State.Keeps.modCtx, State.Keeps.dbgRead, State.Keeps.dbgWrite, State.Keeps.draw,
    State.Keeps.rest]

theorem execDebugAccess_answers (s : State) (tap : Bool) (op : DbgOp) : s.Answers (execDebugAccess tap op s) := by
  have hs := State.Keeps.refl s
  unfold execDebugAccess
  grind [State.Answers.next, State.Keeps.dbgAct, State.Keeps.answer]

theorem State.Keeps.thrRegRead {s₀ s : State} (hs : s₀.Keeps s) (t : Tid) (o n : ℕ) : s₀.Keeps (s.thrRegRead t o n).2 := by
  grind [State.thrRegRead, State.Keeps.regRead, State.Keeps.rest]

theorem State.Keeps.thrRegWrite {s₀ s : State} (hs : s₀.Keeps s) (t : Tid) (o : ℕ) (bs : List Byte) :
    s₀.Keeps (s.thrRegWrite t o bs).2 := by
  grind [State.thrRegWrite, State.Keeps.regWrite]

theorem State.Keeps.thrTabRead {s₀ s : State} (hs : s₀.Keeps s) (t : Tid) (o n : ℕ) : s₀.Keeps (s.thrTabRead t o n).2 := by
  grind [State.thrTabRead]

theorem State.Keeps.thrTabWrite {s₀ s : State} (hs : s₀.Keeps s) (t : Tid) (o : ℕ) (bs : List Byte) :
    s₀.Keeps (s.thrTabWrite t o bs).2 := by
  grind [State.thrTabWrite, State.Keeps.tabWrite]

theorem State.Keeps.ldLocal {s₀ : State} (off : ℕ) (va : W64) (data : List (ℕ × Byte)) (parts : List (ℕ × ℕ)) (x1 : MRes × State) (hs :
    s₀.Keeps x1.2) :
    s₀.Keeps (ldLocal off va data parts x1).2 := by
  unfold Machine.ldLocal
  grind []

theorem State.Keeps.ldPart {s₀ s : State} (hs : s₀.Keeps s) (t : Tid) (addr off n : ℕ) (va : W64) (data : List (ℕ × Byte)) (parts : List (ℕ
    × ℕ)) :
    s₀.Keeps (s.ldPart t addr off n va data parts).2 := by
  grind [State.ldPart, State.Keeps.turned, State.Keeps.refusalNote, State.Keeps.request, State.Keeps.rest]

theorem State.Keeps.ldParts {s₀ s : State} (hs : s₀.Keeps s) (t : Tid) (addr base : ℕ) (va : W64) (x1 : List (ℕ × ℕ)) (x2 : List (ℕ × Byte)
    × List (ℕ × ℕ)) :
    s₀.Keeps (s.ldParts t addr base va x1 x2).2 := by
  fun_induction State.ldParts s t addr base va x1 x2 <;>
    grind [State.ldParts, State.Keeps.ldPart, State.Keeps.rest]

theorem State.Keeps.ldDram {s₀ s : State} (hs : s₀.Keeps s) (t : Tid) (key n : ℕ) : s₀.Keeps (s.ldDram t key n).2 := by
  grind [State.ldDram, State.Keeps.biGate, State.Keeps.homeRead, State.Keeps.rest]

theorem State.Keeps.ldHost {s₀ s : State} (hs : s₀.Keeps s) (hpa n : ℕ) : s₀.Keeps (s.ldHost hpa n).2 := by
  grind [State.ldHost, State.Keeps.hostRead, State.Keeps.rest]

theorem State.Keeps.ldView {s₀ s : State} (hs : s₀.Keeps s) (t : Tid) (i : ℕ) (sc : Bool) (va n : ℕ) :
    s₀.Keeps (s.ldView t i sc va n).2 := by
  grind [State.ldView, State.Keeps.viewLoad, State.Keeps.rest]

theorem State.Keeps.ldAcc_marked {s₀ : State} (va : ℕ) (x1 : LdAcc × State) (hs : s₀.Keeps x1.2) : s₀.Keeps (LdAcc.marked va x1).2 := by
  unfold LdAcc.marked
  grind [State.Keeps.markAccess]

theorem State.Keeps.ldPiece {s₀ s : State} (hs : s₀.Keeps s) (t : Tid) (va off n : ℕ) (data : List (ℕ × Byte)) (parts : List (ℕ × ℕ)) :
    s₀.Keeps (s.ldPiece t va off n data parts).2 := by
  grind [State.ldPiece, State.Keeps.xlate, State.Keeps.ldAcc_marked, State.Keeps.ldLocal, State.Keeps.ldDram, State.Keeps.ldHost,
    State.Keeps.ldParts, State.Keeps.ldView, State.Keeps.thrRegRead, State.Keeps.thrTabRead, State.Keeps.rest]

theorem State.Keeps.ldPieces {s₀ s : State} (hs : s₀.Keeps s) (t : Tid) (base : ℕ) (x1 : List (ℕ × ℕ)) (x2 : List (ℕ × Byte) × List (ℕ × ℕ))
    :
    s₀.Keeps (s.ldPieces t base x1 x2).2 := by
  fun_induction State.ldPieces s t base x1 x2 <;>
    grind [State.ldPieces, State.Keeps.ldPiece, State.Keeps.rest]

theorem State.Keeps.loadBody {s₀ s : State} (hs : s₀.Keeps s) (t : Tid) (d : Reg) (w va : ℕ) (acq : Bool) :
    s₀.Keeps (s.loadBody t d w va acq).state := by
  grind [State.loadBody, TRes.state, State.Keeps.ldPieces, State.Keeps.putResult, State.Keeps.acquired, State.Keeps.modCtx,
    State.Keeps.undo, State.Keeps.rest]

theorem execLd_answers (s : State) (t : Tid) (w : MemW) (d a : Reg) (imm : Byte) (ord : Fin 8) :
    s.Answers (execLd t w d a imm ord s) := by
  have hs := State.Keeps.refl s
  unfold execLd
  grind [State.Answers.next, TRes.state, State.Keeps.issue, State.Keeps.loadBody]

theorem State.Keeps.stPart {s₀ s : State} (hs : s₀.Keeps s) (t : Tid) (addr : ℕ) (bs : List Byte) (va : W64) :
    s₀.Keeps (s.stPart t addr bs va).2 := by
  grind [State.stPart, State.Keeps.remoteWrite, State.Keeps.lateRefusal, State.Keeps.rest]

theorem State.Keeps.stParts {s₀ s : State} (hs : s₀.Keeps s) (t : Tid) (addr : ℕ) (bs : List Byte) (va : W64) (x1 : List (ℕ × ℕ)) :
    s₀.Keeps (s.stParts t addr bs va x1).2 := by
  fun_induction State.stParts s t addr bs va x1 <;>
    grind [State.stParts, State.Keeps.stPart, State.Keeps.rest]

theorem State.Keeps.stDram {s₀ s : State} (hs : s₀.Keeps s) (t : Tid) (key : ℕ) (bs : List Byte) (va : W64) :
    s₀.Keeps (s.stDram t key bs va).2 := by
  grind [State.stDram, State.Keeps.noteStall, State.Keeps.biGate, State.Keeps.homeWrite, State.Keeps.markAccess, State.Keeps.rest]

theorem State.Keeps.stLocal {s₀ : State} (aw : Await) (va : W64) (x1 : MRes × State) (hs : s₀.Keeps x1.2) :
    s₀.Keeps (stLocal aw va x1).2 := by
  unfold Machine.stLocal
  grind []

theorem State.Keeps.stHost {s₀ s : State} (hs : s₀.Keeps s) (hpa : ℕ) (bs : List Byte) : s₀.Keeps (s.stHost hpa bs).2 := by
  grind [State.stHost, State.Keeps.hostWrite]

theorem State.Keeps.stView {s₀ s : State} (hs : s₀.Keeps s) (t : Tid) (i : ℕ) (sc : Bool) (va : ℕ) (bs : List Byte) :
    s₀.Keeps (s.stView t i sc va bs).2 := by
  grind [State.stView, State.Keeps.viewStore, State.Keeps.rest]

theorem State.Keeps.stAcc_marked {s₀ : State} (va : ℕ) (x1 : StAcc × State) (hs : s₀.Keeps x1.2) : s₀.Keeps (StAcc.marked va x1).2 := by
  unfold StAcc.marked
  grind [State.Keeps.markAccess]

theorem State.Keeps.stRegs {s₀ s : State} (hs : s₀.Keeps s) (t : Tid) (o : ℕ) (bs : List Byte) (va : W64) :
    s₀.Keeps (s.stRegs t o bs va).2 := by
  grind [State.stRegs, State.Keeps.stLocal, State.Keeps.thrRegWrite, State.Keeps.commitsSince, State.Keeps.markAccess, State.Keeps.rest]

theorem State.Keeps.stPiece {s₀ s : State} (hs : s₀.Keeps s) (t : Tid) (base va : ℕ) (bs : List Byte) (flagged : Bool) :
    s₀.Keeps (s.stPiece t base va bs flagged).2 := by
  unfold State.stPiece
  grind [State.Keeps.xlate, State.Keeps.stAcc_marked, State.Keeps.flagIssue, State.Keeps.stParts, State.Keeps.stDram, State.Keeps.stLocal,
    State.Keeps.stHost, State.Keeps.stView, State.Keeps.stRegs, State.Keeps.thrTabWrite, State.Keeps.rest]

theorem State.Keeps.stPieces {s₀ s : State} (hs : s₀.Keeps s) (t : Tid) (bs : List Byte) (base : ℕ) (flagged : Bool) (x1 : List (ℕ × ℕ)) :
    s₀.Keeps (s.stPieces t bs base flagged x1).2 := by
  fun_induction State.stPieces s t bs base flagged x1 <;>
    grind [State.stPieces, State.Keeps.stPiece, State.Keeps.rest]

theorem State.Keeps.storeBody {s₀ s : State} (hs : s₀.Keeps s) (t : Tid) (va : ℕ) (bs : List Byte) (ord : ℕ) :
    s₀.Keeps (s.storeBody t va bs ord).state := by
  grind [State.storeBody, TRes.state, State.Keeps.stPieces, State.Keeps.undo, State.Keeps.rest]

theorem execSt_answers (s : State) (t : Tid) (w : MemW) (d a : Reg) (imm : Byte) (ord : Fin 8) :
    s.Answers (execSt t w d a imm ord s) := by
  have hs := State.Keeps.refl s
  unfold execSt
  grind [State.Answers.next, TRes.state, State.Keeps.issue, State.Keeps.storeBody]

theorem State.Keeps.elemRead {s₀ s : State} (hs : s₀.Keeps s) (t : Tid) (va n : ℕ) : s₀.Keeps (s.elemRead t va n).2 := by
  grind [State.elemRead, State.Keeps.xlate, State.Keeps.thrRegRead, State.Keeps.thrTabRead, State.Keeps.vread, State.Keeps.rest]

theorem State.Keeps.elemWrite {s₀ s : State} (hs : s₀.Keeps s) (t : Tid) (va : ℕ) (bs : List Byte) :
    s₀.Keeps (s.elemWrite t va bs).2 := by
  grind [State.elemWrite, State.Keeps.xlate, State.Keeps.thrRegWrite, State.Keeps.thrTabWrite, State.Keeps.mRes_lateStore,
    State.Keeps.vwrite, State.Keeps.undo, State.Keeps.rest]

theorem State.Keeps.gsPut {s₀ s : State} (hs : s₀.Keeps s) (t : Tid) (w d i v : ℕ) : s₀.Keeps (s.gsPut t w d i v) := by
  grind [State.gsPut, State.Keeps.putResult, State.Keeps.modCtx]

theorem execGather_answers (s : State) (t : Tid) (w : MemW) (d a b : Reg) : s.Answers (execGather t w d a b s) := by
  have hs := State.Keeps.refl s
  unfold execGather
  grind [State.Answers.next, State.Keeps.gatherGo, State.Keeps.elemRead, State.Keeps.gsPut, State.Keeps.issue, State.Keeps.vecInsn]

theorem execScatter_answers (s : State) (t : Tid) (w : MemW) (d a b : Reg) : s.Answers (execScatter t w d a b s) := by
  have hs := State.Keeps.refl s
  unfold execScatter
  grind [State.Answers.next, State.Keeps.scatterGo, State.Keeps.elemWrite, State.Keeps.issue, State.Keeps.vecInsn]

theorem State.Keeps.recRead {s₀ s : State} (hs : s₀.Keeps s) (t : Tid) (w va x1 : ℕ) : s₀.Keeps (s.recRead t w va x1).2 := by
  fun_induction State.recRead s t w va x1 <;>
    grind [State.recRead, State.Keeps.elemRead, State.Keeps.rest]

theorem State.Keeps.recPut {s₀ s : State} (hs : s₀.Keeps s) (t : Tid) (n w d i : ℕ) (bs : List Byte) :
    s₀.Keeps (s.recPut t n w d i bs) := by
  grind [State.recPut, State.Keeps.modCtx, State.Keeps.foldl]

theorem State.Keeps.vecLoad {s₀ s : State} (hs : s₀.Keeps s) (t : Tid) (n w d a k : ℕ) (fill : Bool) :
    s₀.Keeps (s.vecLoad t n w d a k fill).state := by
  grind [State.vecLoad, TRes.state, State.Keeps.gatherGo, State.Keeps.recRead, State.Keeps.recPut]

theorem execVlds_answers (s : State) (t : Tid) (n : ℕ) (w : MemW) (d a : Reg) (k : Fin 8) (fill : Bool) :
    s.Answers (execVlds t n w d a k fill s) := by
  have hs := State.Keeps.refl s
  unfold execVlds
  grind [State.Answers.next, TRes.state, State.Keeps.vecInsn, State.Keeps.vecLoad]

theorem State.Keeps.recWrite {s₀ s : State} (hs : s₀.Keeps s) (t : Tid) (w d i va x1 : ℕ) : s₀.Keeps (s.recWrite t w d i va x1).2 := by
  fun_induction State.recWrite s t w d i va x1 <;>
    grind [State.recWrite, State.Keeps.elemWrite, State.Keeps.rest]

theorem State.Keeps.recStore {s₀ s : State} (hs : s₀.Keeps s) (t : Tid) (n w d : ℕ) (g : GElem) :
    s₀.Keeps (s.recStore t n w d g).2 := by
  grind [State.recStore, State.Keeps.recWrite, State.Keeps.undo, State.Keeps.rest]

theorem State.Keeps.vecStore {s₀ s : State} (hs : s₀.Keeps s) (t : Tid) (n w d a k : ℕ) : s₀.Keeps (s.vecStore t n w d a k).state := by
  grind [State.vecStore, TRes.state, State.Keeps.scatterGo, State.Keeps.recStore]

theorem execVsts_answers (s : State) (t : Tid) (n : ℕ) (w : MemW) (d a : Reg) (k : Fin 8) : s.Answers (execVsts t n w d a k s) := by
  have hs := State.Keeps.refl s
  unfold execVsts
  grind [State.Answers.next, TRes.state, State.Keeps.vecInsn, State.Keeps.vecStore]

/-- An instruction issued again. -/
theorem reissued_answers (s : State) (i : Instr) : s.Answers (reissued i s) := by
  cases i with
  | stepmark => exact execStepmark_answers ..
  | launch => exact execLaunch_answers ..
  | ld => exact execLd_answers ..
  | st => exact execSt_answers ..
  | amoOp => exact execAmoOp_answers ..
  | amoCas => exact execAmoCas_answers ..
  | amoFadd => exact execAmoFadd_answers ..
  | amoFmin => exact execAmoFmin_answers ..
  | amoFmax => exact execAmoFmax_answers ..
  | gather => exact execGather_answers ..
  | scatter => exact execScatter_answers ..
  | fenceAcq => exact execFenceAcq_answers ..
  | fenceRel => exact execFenceRel_answers ..
  | fenceFull => exact execFenceFull_answers ..
  | texit => exact execTexit_answers ..
  | tstop => exact execTstop_answers ..
  | tresume => exact execTresume_answers ..
  | tend => exact execTend_answers ..
  | tsave => exact execTsave_answers ..
  | trestore => exact execTrestore_answers ..
  | fret => exact execFret_answers ..
  | tlbinv => exact execTlbinv_answers ..
  | lwatch => exact execLwatch_answers ..
  | lwait => exact execLwait_answers ..
  | srd => exact execSrd_answers ..
  | swr => exact execSwr_answers ..
  | rngU => exact execRngU_answers ..
  | vlen => exact execVlen_answers ..
  | ktail => exact execKtail_answers ..
  | vlds => exact execVlds_answers ..
  | vsts => exact execVsts_answers ..
  | vfredO => exact execVfredO_answers ..
  | vfredT => exact execVfredT_answers ..
  | fadd => exact execFadd_answers ..
  | fsub => exact execFsub_answers ..
  | fmul => exact execFmul_answers ..
  | fdiv => exact execFdiv_answers ..
  | fsqrt => exact execFsqrt_answers ..
  | fmin => exact execFmin_answers ..
  | fmax => exact execFmax_answers ..
  | frnd => exact execFrnd_answers ..
  | fneg => exact execFneg_answers ..
  | fabs => exact execFabs_answers ..
  | fcpsgn => exact execFcpsgn_answers ..
  | frem => exact execFrem_answers ..
  | fscaleb => exact execFscaleb_answers ..
  | flogb => exact execFlogb_answers ..
  | fnextup => exact execFnextup_answers ..
  | fnextdn => exact execFnextdn_answers ..
  | fma => exact execFma_answers ..
  | fcmp => exact execFcmp_answers ..
  | fclass => exact execFclass_answers ..
  | fcvt => exact execFcvt_answers ..
  | mepi => exact execMepi_answers ..
  | msarea => exact execMsarea_answers ..
  | mzero => exact execMzero_answers ..
  | mstat => exact execMstat_answers ..
  | mwait => exact execMwait_answers ..
  | mma => exact execMma_answers ..
  | mdrain => exact execMdrain_answers ..
  | etld => exact execEtld_answers ..
  | etst => exact execEtst_answers ..
  | ecprst => exact execEcprst_answers ..
  | expdld => exact execExpdld_answers ..
  | eFunc => exact execEFunc_answers ..
  | ered => exact execEred_answers ..
  | esum => exact execEsum_answers ..
  | ecmp => exact execEcmp_answers ..
  | ecpr => exact execEcpr_answers ..
  | expd => exact execExpd_answers ..
  | eprog => exact execEprog_answers ..
  | erun => exact execErun_answers ..
  | ecvt => exact execEcvt_answers ..
  | esrd => exact execEsrd_answers ..
  | estat => exact execEstat_answers ..
  | ewait => exact execEwait_answers ..
  | esarea => exact execEsarea_answers ..
  | eshape => exact execEshape_answers ..
  | msel => exact execMsel_answers ..
  | mhint => exact execMhint_answers ..
  | mupdate => exact execMupdate_answers ..
  | mexport => exact execMexport_answers ..
  | wreg => exact execWreg_answers ..
  | wdereg => exact execWdereg_answers ..
  | acopy => exact execAcopy_answers ..
  | acntAlloc t d => exact execAcntAlloc_answers s t d
  | acntFree => exact execAcntFree_answers ..
  | acntWait => exact execAcntWait_answers ..
  | acntSet => exact execAcntSet_answers ..
  | gcreate => exact execGcreate_answers ..
  | gdestroy => exact execGdestroy_answers ..
  | hzred => exact execHzred_answers ..
  | _ => exact .next (.refl s)

theorem State.Keeps.reissue {s₀ s : State} (hs : s₀.Keeps s) (t : Tid) : s₀.Keeps (s.reissue t) := by
  unfold State.reissue
  split
  · next i _ =>
    obtain ⟨u, hu, k⟩ := reissued_answers (s.modCtx t fun c => { c with st := .ready }) i
    rw [hu]
    exact (hs.modCtx _ _).trans k
  · exact hs

theorem execWaitConditionMet_answers (s : State) (t : Tid) : s.Answers (execWaitConditionMet t s) := by
  have hs := State.Keeps.refl s
  unfold execWaitConditionMet
  grind [State.Answers.next, TRes.state, State.Keeps.retryDereg, State.Keeps.reissue]

theorem execReleaseStep_answers (s : State) : s.Answers (execReleaseStep s) := by
  have hs := State.Keeps.refl s
  unfold execReleaseStep
  grind [State.Answers.next, State.Keeps.advance, State.Keeps.releaseWaiting, State.Keeps.reissue, State.Keeps.freeHeld, State.Keeps.foldl]

/-- Every command but those that drive PERST_N answers a next state, with the same queue behind it, the same PERST_N, and memory in canonical
form. -/
theorem exec_answers (s : State) {i : Instr} (ha : i ≠ .perstAssert) (hd : i ≠ .perstDeassert) : s.Answers (exec i s) := by
  cases i with
  | registerWrite => exact execRegisterWrite_answers ..
  | timeCounterLowRead => exact execTimeCounterLowRead_answers ..
  | blkVerselWrite => exact execBlkVerselWrite_answers ..
  | blkCtlLock => exact execBlkCtlLock_answers ..
  | blkErrinjWrite => exact execBlkErrinjWrite_answers ..
  | errorInjectionActs => exact execErrorInjectionActs_answers ..
  | stackErrinjWrite => exact execStackErrinjWrite_answers ..
  | persistentWrite => exact execPersistentWrite_answers ..
  | stepmark => exact execStepmark_answers ..
  | equinoxVoteResult => exact execEquinoxVoteResult_answers ..
  | equinoxCountResult => exact execEquinoxCountResult_answers ..
  | equinoxRepair => exact execEquinoxRepair_answers ..
  | equinoxRepairBarrier => exact execEquinoxRepairBarrier_answers ..
  | epochApplyTimeout => exact execEpochApplyTimeout_answers ..
  | epochAgreementResult => exact execEpochAgreementResult_answers ..
  | solsticePollResult => exact execSolsticePollResult_answers ..
  | launch => exact execLaunch_answers ..
  | threadStart => exact execThreadStart_answers ..
  | ld => exact execLd_answers ..
  | st => exact execSt_answers ..
  | amoOp => exact execAmoOp_answers ..
  | amoCas => exact execAmoCas_answers ..
  | amoFadd => exact execAmoFadd_answers ..
  | amoFmin => exact execAmoFmin_answers ..
  | amoFmax => exact execAmoFmax_answers ..
  | gather => exact execGather_answers ..
  | scatter => exact execScatter_answers ..
  | fenceAcq => exact execFenceAcq_answers ..
  | fenceRel => exact execFenceRel_answers ..
  | fenceFull => exact execFenceFull_answers ..
  | texit => exact execTexit_answers ..
  | tstop => exact execTstop_answers ..
  | tresume => exact execTresume_answers ..
  | tend => exact execTend_answers ..
  | tsave => exact execTsave_answers ..
  | trestore => exact execTrestore_answers ..
  | fret => exact execFret_answers ..
  | tlbinv => exact execTlbinv_answers ..
  | lwatch => exact execLwatch_answers ..
  | lwait => exact execLwait_answers ..
  | lwaitTimeout => exact execLwaitTimeout_answers ..
  | srd => exact execSrd_answers ..
  | swr => exact execSwr_answers ..
  | rngU => exact execRngU_answers ..
  | waitConditionMet => exact execWaitConditionMet_answers ..
  | vectorPowerDown => exact execVectorPowerDown_answers ..
  | vectorWakeDone => exact execVectorWakeDone_answers ..
  | vecCtlHold => exact execVecCtlHold_answers ..
  | vlen => exact execVlen_answers ..
  | ktail => exact execKtail_answers ..
  | vlds => exact execVlds_answers ..
  | vsts => exact execVsts_answers ..
  | vfredO => exact execVfredO_answers ..
  | vfredT => exact execVfredT_answers ..
  | fadd => exact execFadd_answers ..
  | fsub => exact execFsub_answers ..
  | fmul => exact execFmul_answers ..
  | fdiv => exact execFdiv_answers ..
  | fsqrt => exact execFsqrt_answers ..
  | fmin => exact execFmin_answers ..
  | fmax => exact execFmax_answers ..
  | frnd => exact execFrnd_answers ..
  | fneg => exact execFneg_answers ..
  | fabs => exact execFabs_answers ..
  | fcpsgn => exact execFcpsgn_answers ..
  | frem => exact execFrem_answers ..
  | fscaleb => exact execFscaleb_answers ..
  | flogb => exact execFlogb_answers ..
  | fnextup => exact execFnextup_answers ..
  | fnextdn => exact execFnextdn_answers ..
  | fma => exact execFma_answers ..
  | fcmp => exact execFcmp_answers ..
  | fclass => exact execFclass_answers ..
  | fcvt => exact execFcvt_answers ..
  | mepi => exact execMepi_answers ..
  | msarea => exact execMsarea_answers ..
  | mzero => exact execMzero_answers ..
  | mstat => exact execMstat_answers ..
  | mwait => exact execMwait_answers ..
  | mma => exact execMma_answers ..
  | mmaExecute => exact execMmaExecute_answers ..
  | mdrain => exact execMdrain_answers ..
  | drainStart => exact execDrainStart_answers ..
  | drainComplete => exact execDrainComplete_answers ..
  | etld => exact execEtld_answers ..
  | etst => exact execEtst_answers ..
  | ecprst => exact execEcprst_answers ..
  | expdld => exact execExpdld_answers ..
  | eFunc => exact execEFunc_answers ..
  | ered => exact execEred_answers ..
  | esum => exact execEsum_answers ..
  | ecmp => exact execEcmp_answers ..
  | ecpr => exact execEcpr_answers ..
  | expd => exact execExpd_answers ..
  | eprog => exact execEprog_answers ..
  | erun => exact execErun_answers ..
  | ecvt => exact execEcvt_answers ..
  | esrd => exact execEsrd_answers ..
  | estat => exact execEstat_answers ..
  | ewait => exact execEwait_answers ..
  | esarea => exact execEsarea_answers ..
  | eshape => exact execEshape_answers ..
  | ewSplitWrite => exact execEwSplitWrite_answers ..
  | ewSplitApply => exact execEwSplitApply_answers ..
  | scrubRead => exact execScrubRead_answers ..
  | repairStart => exact execRepairStart_answers ..
  | laneRepairComplete => exact execLaneRepairComplete_answers ..
  | rowRepairComplete => exact execRowRepairComplete_answers ..
  | interfaceCrcFail => exact execInterfaceCrcFail_answers ..
  | tempSample => exact execTempSample_answers ..
  | thermalStopTimeout => exact execThermalStopTimeout_answers ..
  | tempPeakClr => exact execTempPeakClr_answers ..
  | combinerApply => exact execCombinerApply_answers ..
  | combPeakClr => exact execCombPeakClr_answers ..
  | viewRegister => exact execViewRegister_answers ..
  | viewDeregister => exact execViewDeregister_answers ..
  | copyRingProd => exact execCopyRingProd_answers ..
  | copyDescriptor => exact execCopyDescriptor_answers ..
  | copyDescriptorDone => exact execCopyDescriptorDone_answers ..
  | copyRingEnable => exact execCopyRingEnable_answers ..
  | solverRingProd => exact execSolverRingProd_answers ..
  | solverJobStart => exact execSolverJobStart_answers ..
  | solverSystemEnd => exact execSolverSystemEnd_answers ..
  | solverDeadline => exact execSolverDeadline_answers ..
  | solverJobEnd => exact execSolverJobEnd_answers ..
  | solverRingEnable => exact execSolverRingEnable_answers ..
  | modelRegister => exact execModelRegister_answers ..
  | modelRegisterDone => exact execModelRegisterDone_answers ..
  | modelDeregister => exact execModelDeregister_answers ..
  | msel => exact execMsel_answers ..
  | mhint => exact execMhint_answers ..
  | mupdate => exact execMupdate_answers ..
  | updatePassDone => exact execUpdatePassDone_answers ..
  | mexport => exact execMexport_answers ..
  | backgroundCheck => exact execBackgroundCheck_answers ..
  | flitReceive => exact execFlitReceive_answers ..
  | nak => exact execNak_answers ..
  | ackTimeout => exact execAckTimeout_answers ..
  | rekey => exact execRekey_answers ..
  | rd => exact execRd_answers ..
  | wr => exact execWr_answers ..
  | amo => exact execAmo_answers ..
  | cadd => exact execCadd_answers ..
  | rdr => exact execRdr_answers ..
  | ack => exact execAck_answers ..
  | nakResponse => exact execNakResponse_answers ..
  | hold => exact execHold_answers ..
  | holdSend => exact execHoldSend_answers ..
  | remoteTimeout tag held => exact execRemoteTimeout_answers s tag held
  | remoteStoreRefusal => exact execRemoteStoreRefusal_answers ..
  | flaggedStoreSend => exact execFlaggedStoreSend_answers ..
  | routeTableWrite => exact execRouteTableWrite_answers ..
  | portEnable => exact execPortEnable_answers ..
  | portDisable => exact execPortDisable_answers ..
  | portRetrain => exact execPortRetrain_answers ..
  | portTrainingDone => exact execPortTrainingDone_answers ..
  | portTrainingFail => exact execPortTrainingFail_answers ..
  | portLossOfSignal => exact execPortLossOfSignal_answers ..
  | wreg => exact execWreg_answers ..
  | wdereg => exact execWdereg_answers ..
  | acopy => exact execAcopy_answers ..
  | acopyWritesDone => exact execAcopyWritesDone_answers ..
  | acopyComplete => exact execAcopyComplete_answers ..
  | acntAlloc t d => exact execAcntAlloc_answers s t d
  | acntFree => exact execAcntFree_answers ..
  | acntWait => exact execAcntWait_answers ..
  | acntSet => exact execAcntSet_answers ..
  | ctxPeakClr => exact execCtxPeakClr_answers ..
  | gcreate => exact execGcreate_answers ..
  | gdestroy => exact execGdestroy_answers ..
  | hzred => exact execHzred_answers ..
  | hazelPacket => exact execHazelPacket_answers ..
  | hazelWarn => exact execHazelWarn_answers ..
  | hazelAbort => exact execHazelAbort_answers ..
  | canopyStart => exact execCanopyStart_answers ..
  | canopyJoin => exact execCanopyJoin_answers ..
  | canopyCancel => exact execCanopyCancel_answers ..
  | canopyChunkPacket => exact execCanopyChunkPacket_answers ..
  | canopyFailureReport => exact execCanopyFailureReport_answers ..
  | canopyDone => exact execCanopyDone_answers ..
  | epochArm => exact execEpochArm_answers ..
  | epochCancel => exact execEpochCancel_answers ..
  | snapshotRequest => exact execSnapshotRequest_answers ..
  | preemptionMessage => exact execPreemptionMessage_answers ..
  | preEmpt => exact execPreEmpt_answers ..
  | shardDrain => exact execShardDrain_answers ..
  | snapshotCancel => exact execSnapshotCancel_answers ..
  | snapshotRelease => exact execSnapshotRelease_answers ..
  | restore => exact execRestore_answers ..
  | restoreComplete => exact execRestoreComplete_answers ..
  | hostMemRead => exact execHostMemRead_answers ..
  | hostMemWrite => exact execHostMemWrite_answers ..
  | hostMemTimeout => exact execHostMemTimeout_answers ..
  | biTimeout => exact execBiTimeout_answers ..
  | hostSnoop => exact execHostSnoop_answers ..
  | hostRingEnable => exact execHostRingEnable_answers ..
  | getEventRecords => exact execGetEventRecords_answers ..
  | clearEventRecords => exact execClearEventRecords_answers ..
  | getEventInterruptPolicy => exact execGetEventInterruptPolicy_answers ..
  | setEventInterruptPolicy => exact execSetEventInterruptPolicy_answers ..
  | getFwInfo => exact execGetFwInfo_answers ..
  | transferFw => exact execTransferFw_answers ..
  | activateFw => exact execActivateFw_answers ..
  | getTimestamp => exact execGetTimestamp_answers ..
  | setTimestamp => exact execSetTimestamp_answers ..
  | getSupportedLogs => exact execGetSupportedLogs_answers ..
  | getLog => exact execGetLog_answers ..
  | identifyMemoryDevice => exact execIdentifyMemoryDevice_answers ..
  | getHealthInfo => exact execGetHealthInfo_answers ..
  | unsupportedCommand => exact execUnsupportedCommand_answers ..
  | getPackageInfo => exact execGetPackageInfo_answers ..
  | jobStart => exact execJobStart_answers ..
  | jobEnd => exact execJobEnd_answers ..
  | registerWindow => exact execRegisterWindow_answers ..
  | deregisterWindow => exact execDeregisterWindow_answers ..
  | getRepairRecord => exact execGetRepairRecord_answers ..
  | formatSnapshotStore => exact execFormatSnapshotStore_answers ..
  | getFaultLog => exact execGetFaultLog_answers ..
  | getChallenge => exact execGetChallenge_answers ..
  | submitRecord => exact execSubmitRecord_answers ..
  | lockDebug => exact execLockDebug_answers ..
  | getSecurityState => exact execGetSecurityState_answers ..
  | debugAccess => exact execDebugAccess_answers ..
  | spdmGetMeasurements => exact execSpdmGetMeasurements_answers ..
  | spdmKeyExchange => exact execSpdmKeyExchange_answers ..
  | readRegister => exact execReadRegister_answers ..
  | writeRegister => exact execWriteRegister_answers ..
  | sealBlob => exact execSealBlob_answers ..
  | unsealBlob => exact execUnsealBlob_answers ..
  | bootStage => exact execBootStage_answers ..
  | clrFail => exact execClrFail_answers ..
  | idleWakeDone => exact execIdleWakeDone_answers ..
  | retReq => exact execRetReq_answers ..
  | retExit => exact execRetExit_answers ..
  | capWWrite => exact execCapWWrite_answers ..
  | capSample => exact execCapSample_answers ..
  | dieTempSample => exact execDieTempSample_answers ..
  | inputRangeChange => exact execInputRangeChange_answers ..
  | protectivePowerDown => exact execProtectivePowerDown_answers ..
  | preemptN => exact execPreemptN_answers ..
  | safeStopN => exact execSafeStopN_answers ..
  | selfTestPass => exact execSelfTestPass_answers ..
  | faultClr => exact execFaultClr_answers ..
  | injEnWrite => exact execInjEnWrite_answers ..
  | hdmDecoderCommit => exact execHdmDecoderCommit_answers ..
  | persistentCommitDone => exact execPersistentCommitDone_answers ..
  | equinoxVote => exact execEquinoxVote_answers ..
  | epochApply => exact execEpochApply_answers ..
  | epochApplied => exact execEpochApplied_answers ..
  | solsticePoll => exact execSolsticePoll_answers ..
  | releaseStep => exact execReleaseStep_answers ..
  | faultNoticeWrite => exact execFaultNoticeWrite_answers ..
  | canopyKeepalive => exact execCanopyKeepalive_answers ..
  | canopyParentTimeout => exact execCanopyParentTimeout_answers ..
  | canopyGo => exact execCanopyGo_answers ..
  | canopyAbandon => exact execCanopyAbandon_answers ..
  | snapshotUnitCopy => exact execSnapshotUnitCopy_answers ..
  | stallLimit => exact execStallLimit_answers ..
  | snapshotCommit => exact execSnapshotCommit_answers ..
  | cxlLinkDown => exact execCxlLinkDown_answers ..
  | ideIntegrityFailure => exact execIdeIntegrityFailure_answers ..
  | hotReset => exact execHotReset_answers ..
  | cxlReset => exact execCxlReset_answers ..
  | hostRingProd => exact execHostRingProd_answers ..
  | ringMark => exact execRingMark_answers ..
  | backgroundCommandDone => exact execBackgroundCommandDone_answers ..
  | mgmtFwRunning => exact execMgmtFwRunning_answers ..
  | mgmtFwActivationTimeout => exact execMgmtFwActivationTimeout_answers ..
  | nonceExpiry => exact execNonceExpiry_answers ..
  | debugSessionExpiry => exact execDebugSessionExpiry_answers ..
  | pwrGoodAssert => exact execPwrGoodAssert_answers ..
  | coldStart => exact execColdStart_answers ..
  | pwrGoodDeassert => exact execPwrGoodDeassert_answers ..
  | perstAssert => exact absurd rfl ha
  | perstDeassert => exact absurd rfl hd
  | bootStageTimeout => exact execBootStageTimeout_answers ..
  | bootRestart => exact execBootRestart_answers ..
  | idleEntry => exact execIdleEntry_answers ..
  | trstN => exact execTrstN_answers ..
  | inputStuck => exact execInputStuck_answers ..
  | sysRefclkLoss => exact execSysRefclkLoss_answers ..
  | glRefclkLoss => exact execGlRefclkLoss_answers ..
  | cxlRefclkLoss => exact execCxlRefclkLoss_answers ..
  | lockstepMismatch => exact execLockstepMismatch_answers ..
  | cxlIdeKeyManagement => exact execCxlIdeKeyManagement_answers ..
  | voltageMonitorTrip => exact execVoltageMonitorTrip_answers ..
  | selfTestForce u => exact execSelfTestForce_answers s u
  | groveOutReq => exact execGroveOutReq_answers ..
  | groveReturn => exact execGroveReturn_answers ..
  | groveSvcDrained => exact execGroveSvcDrained_answers ..
  | groveMarginTestDone => exact execGroveMarginTestDone_answers ..
  | shardDigestRequest => exact execShardDigestRequest_answers ..
  | canopyChunkRequest => exact execCanopyChunkRequest_answers ..
  | canopyReparent => exact execCanopyReparent_answers ..
  | canopyJoinReceived => exact execCanopyJoinReceived_answers ..
  | clockMonitorTrip => exact execClockMonitorTrip_answers ..

/-- Every command answers a next state, with the same queue behind it and memory in canonical form. -/
theorem exec_next (s : State) (i : Instr) : ∃ u, exec i s = .next u ∧ u.pending = s.pending ∧ (s.memWf = true → u.memWf = true) := by
  by_cases ha : i = .perstAssert
  · exact ha ▸ execPerstAssert_next s
  · by_cases hd : i = .perstDeassert
    · exact hd ▸ execPerstDeassert_next s
    · obtain ⟨u, hu, hk⟩ := exec_answers s ha hd
      exact ⟨u, hu, hk.pending, hk.memWf⟩

/-- A step keeps memory canonical and leaves the rest of the queue. -/
theorem step_answers (s : State) : ∃ u, step s = .next u ∧ (s.memWf = true → u.memWf = true) ∧ u.pending = s.pending.tail := by
  unfold step
  split
  · next hp => exact ⟨s, rfl, id, by rw [hp]; rfl⟩
  · next c rest hp =>
    obtain ⟨u, hu, hpend, hwf⟩ := exec_next { s with pending := rest } c
    exact ⟨u, hu, fun hw => hwf ((State.memWf_congr rfl rfl rfl).trans hw), by rw [hp]; exact hpend⟩

/-- Settles O59: every function of the model that a command reaches keeps memory canonical, so every step does. -/
theorem everyStepKeepsMemoryCanonical : Obligations.EveryStepKeepsMemoryCanonical := by
  intro s u hw h
  obtain ⟨v, hv, hm, -⟩ := step_answers s
  cases hv.symm.trans h
  exact hm hw

/-- Settles O60: no function of the model that a command reaches writes the queue. -/
theorem everyStepTakesOneCommand : Obligations.EveryStepTakesOneCommand := by
  intro s u h
  obtain ⟨v, hv, -, hp⟩ := step_answers s
  cases hv.symm.trans h
  exact hp

/-- Settles O56: every arm of `exec` answers a next state. -/
theorem everyCommandAnswersANextState : Obligations.EveryCommandAnswersANextState := by
  intro c s
  obtain ⟨u, hu, -⟩ := exec_next s c
  exact ⟨u, hu⟩

/-- Settles O55, by the definition of `step`. -/
theorem stepRunsTheFrontCommand : Obligations.StepRunsTheFrontCommand := fun _ _ _ => ⟨rfl, rfl⟩

/-- The version that a page with a block selects after reset (Table 19.5). -/
theorem reset_fVersel (n : Fin 4096) (h : pageBlk n ≠ none) : State.reset.fld (fVersel n) = 0x0100 := by
  have small : ∀ p : Fin 512, pageBlk p ≠ none → State.reset.fld (fVersel p) = 0x0100 := by decide +kernel
  by_cases hn : n.val < 512
  · exact small ⟨n, hn⟩ h
  · refine absurd ?_ h
    simp (disch := omega) only [pageBlk, if_neg]

/-- Settles O57: the values after reset are those of the page tables; no thread is placed and no window holds. -/
theorem resetIsTheStartOfAColdStart : Obligations.ResetIsTheStartOfAColdStart :=
  ⟨rfl, rfl, rfl, rfl, rfl, by decide, by decide, by decide, by decide, by decide, by decide, by decide, by decide, by decide, by decide,
    by decide, by decide, reset_fVersel, fun _ _ => rfl, fun _ => rfl⟩

end Sys2Proof.Machine
end

section
/-! Writes of registers (R9, R12, R437, R438): what a write covers, the bits that it writes plainly, the registers beyond the common header,
and the statements about pages without actions and about the commands that write one field. -/

namespace Sys2Proof.Machine

/-! ### What a write covers -/

theorem Wr.get_other {w : Wr} {f : Fld} (h : f.key ≠ w.page * 512 + w.c) : w.get f = none := by
  simp [Wr.get, h]

section Actions
variable {s : State} {w : Wr} {f : Fld}

theorem State.on_none (h : w.get f = none) (g : State → Nat → State) : s.on w f g = s := by simp [State.on, h]

theorem State.on_some {x : Nat} (h : w.get f = some x) (g : State → Nat → State) : s.on w f g = g s x := by simp [State.on, h]

theorem State.onSet_none (h : w.get f = none) (g : State → State) : s.onSet w f g = s := State.on_none h _

theorem State.onSet_zero (h : w.get f = some 0) (g : State → State) : s.onSet w f g = s := State.on_some h _

theorem State.onSet_one (h : w.get f = some 1) (g : State → State) : s.onSet w f g = g s := State.on_some h _

theorem State.onIf_none (h : w.get f = none) (ok : Nat → Bool) : s.onIf w f ok = s := State.on_none h _

theorem State.onIf_some {x : Nat} (h : w.get f = some x) (ok : Nat → Bool) : s.onIf w f ok = if ok x then s.setFld f x else s :=
  State.on_some h _

end Actions

theorem pageBlk_lt {p : Nat} {x : Blk × Nat} (h : pageBlk p = some x) : p < 0x200 := by
  by_contra hp
  have : pageBlk p = none := by
    unfold pageBlk
    simp (disch := omega) only [if_neg]
  simp [this] at h

theorem State.agentWrite_eq {s : State} {ag : Agent} {p off width : Nat} (val : Nat) (hag : s.agentUp ag = true)
    (ha : regAligned off width = true) (ho : off < 0x1000) : s.agentWrite ag p off width val = s.regWrite ag p off width val := by
  simp [State.agentWrite, hag, ha, Nat.not_le.2 ho]

theorem State.regWrite_eq (s : State) (ag : Agent) {p : Nat} (off width val : Nat) {b : Blk} {i : Nat} (hp : pageBlk p = some (b, i)) :
    s.regWrite ag p off width val = ((s.plainWrite b i (wrOf ag p off width val)).headActs b i (wrOf ag p off width val)).blockActs b i
      (wrOf ag p off width val) := by
  simp [State.regWrite, hp]

/-- A register beyond the header takes no action of the header. -/
theorem State.headActs_body (s : State) (b : Blk) (i : Nat) {w : Wr} (hc : 8 ≤ w.c) : s.headActs b i w = s := by
  have h1 : w.get (fVersel w.page) = none := Wr.get_other (by simp [fVersel, Fld.key]; omega)
  have h2 : w.get (fLock w.page) = none := Wr.get_other (by simp [fLock, Fld.key]; omega)
  have h3 : w.get ⟨w.page, 0x20, 31, 0⟩ = none := Wr.get_other (by simp [Fld.key]; omega)
  simp only [State.headActs, State.on_none h1, State.onSet_none h2, State.on_none h3]

/-! ### The bits of a register -/

theorem RegF.testBit_mask (f : RegF) (n : Nat) :
    f.mask.testBit n = (decide (f.shift ≤ n) && decide (n < f.shift + (f.hi + 1 - f.lo))) := by
  rw [RegF.mask, Nat.testBit_shiftLeft, Nat.testBit_two_pow_sub_one, Bool.eq_iff_iff]
  simp only [Bool.and_eq_true, decide_eq_true_eq]
  omega

theorem testBit_cellMask (p c : Nat) (q : RegF → Bool) (n : Nat) :
    (cellMask p c q).testBit n = (pageFields p).any fun f => decide (f.off / 8 = c) && q f && f.mask.testBit n := by
  suffices ∀ (l : List RegF) (m : Nat), (l.foldl (fun m f => if f.off / 8 = c ∧ q f then m ||| f.mask else m) m).testBit n =
      (m.testBit n || l.any fun f => decide (f.off / 8 = c) && q f && f.mask.testBit n) by
    simp [cellMask, this]
  intro l
  induction l with
  | nil => simp
  | cons f l ih =>
    intro m
    rw [List.foldl_cons, ih, List.any_cons]
    by_cases h : f.off / 8 = c ∧ q f = true
    · simp [h, Nat.testBit_or, Bool.or_assoc]
    · have : (decide (f.off / 8 = c) && q f) = false := by simpa using h
      simp [h, this]

theorem fldMask_of_ne {key : Nat} {fs : List Fld} (h : ∀ f ∈ fs, f.key ≠ key) : fldMask key fs = 0 := by
  unfold fldMask
  induction fs with
  | nil => rfl
  | cons f fs ih =>
    rw [List.foldl_cons, if_neg (h f (by simp))]
    exact ih fun g hg => h g (by simp [hg])

/-! ### The plain write -/

section Plain
variable (s : State) (b : Blk) (i : Nat) (w : Wr)

theorem State.plainWrite_cell : (s.plainWrite b i w).cell (w.page * 512 + w.c) =
    (s.cell (w.page * 512 + w.c) &&& ~~~(s.setBits b i w ||| w.clrBits)) ||| (BitVec.ofNat 64 w.v &&& s.setBits b i w) := by
  simp only [State.plainWrite]
  split
  · next h =>
    rw [h.1, h.2, show ~~~((0 : W64) ||| 0) = BitVec.allOnes 64 from rfl, BitVec.and_allOnes]
    exact (BitVec.or_zero.symm.trans (by rw [← BitVec.and_zero]; rfl))
  · simp

theorem State.plainWrite_cell_ne {k : Nat} (h : k ≠ w.page * 512 + w.c) : (s.plainWrite b i w).cell k = s.cell k := by
  simp only [State.plainWrite]
  split
  · rfl
  · exact s.cell_setCell_ne _ h

theorem State.plainWrite_others : { s.plainWrite b i w with regs := s.regs } = s := by
  simp only [State.plainWrite]
  split <;> rfl

theorem State.plainWrite_none (hs : s.setBits b i w = 0) (hc : w.clrBits = 0) : s.plainWrite b i w = s := by
  simp [State.plainWrite, hs, hc]

end Plain

/-! ### Pages whose registers have no action of their own -/

/-- The blocks of pages without actions of their own. -/
def idleBlks : List Blk := [Blk.eqx, .hz, .scrub, .stk, .view, .nand, .pst, .bridge]

theorem State.blockActs_idle {b : Blk} (h : b ∈ idleBlks) (s : State) (i : Nat) (w : Wr) : s.blockActs b i w = s := by
  fin_cases h <;> rfl

/-- No register of such a page is locked. -/
theorem pageFields_idle {p : Nat} {b : Blk} {i : Nat} (hp : pageBlk p = some (b, i)) (h : b ∈ idleBlks) :
    ∀ f ∈ pageFields p, f.acc ≠ .rwl := by
  have header : ∀ b : Blk, ((headerFields b i).all fun f => f.acc != .rwl) = true := by intro b; cases b <;> rfl
  have body : (b.fields.all fun f => f.acc != .rwl) = true := by fin_cases h <;> decide
  intro f hf
  simp only [pageFields, hp, List.mem_append] at hf
  rcases hf with hf | hf
  · simpa using List.all_eq_true.1 (header b) f hf
  · simpa using List.all_eq_true.1 body f hf

/-- The bits that a write to such a page sets: the RW bits within its bytes. -/
theorem State.setBits_idle {b : Blk} {i : Nat} {w : Wr} (s : State) (hp : pageBlk w.page = some (b, i)) (h : b ∈ idleBlks) (hc : 8 ≤ w.c) :
    s.setBits b i w = BitVec.ofNat 64 (cellMask w.page w.c (fun f => f.acc == .rw) &&& w.m) := by
  have hheld : s.heldFields b i w.page = [fVersel w.page, fLock w.page, ⟨w.page, 0x20, 31, 0⟩] := by fin_cases h <;> rfl
  have hmask : fldMask (w.page * 512 + w.c) (s.heldFields b i w.page) = 0 := by
    rw [hheld]
    refine fldMask_of_ne ?_
    simp only [List.mem_cons, List.not_mem_nil, or_false, forall_eq_or_imp, forall_eq, Fld.key, fVersel, fLock]
    omega
  have hrw : ∀ l : Bool, cellMask w.page w.c (fun f => f.acc == .rw || (f.acc == .rwl && !l)) = cellMask w.page w.c fun f => f.acc == .rw := by
    intro l
    refine Nat.eq_of_testBit_eq fun n => ?_
    rw [testBit_cellMask, testBit_cellMask, Bool.eq_iff_iff, List.any_eq_true, List.any_eq_true]
    refine exists_congr fun f => and_congr_right fun hf => ?_
    simp [pageFields_idle hp h f hf]
  rw [State.setBits, hmask, hrw, show ~~~BitVec.ofNat 64 0 = BitVec.allOnes 64 from rfl, BitVec.and_allOnes]

/-- The bits of a register's cell whose fields have an access code. -/
def regHas (p off : Nat) (a : Acc) (n : Nat) : Bool :=
  (pageFields p).any fun f => f.acc == a && f.off / 8 == off / 8 && decide (f.shift ≤ n) && decide (n < f.shift + (f.hi + 1 - f.lo))

theorem testBit_cellMask_acc (p off : Nat) (a : Acc) (n : Nat) :
    (cellMask p (off / 8) fun f => f.acc == a).testBit n = regHas p off a n := by
  rw [testBit_cellMask, regHas]
  congr 1
  funext f
  rw [RegF.testBit_mask]
  by_cases h : f.off / 8 = off / 8 <;> simp [h, Bool.and_assoc]

/-- The bytes that an access covers, as bits of its cell. -/
theorem testBit_wrOf_m (ag : Agent) (p off width val n : Nat) :
    (wrOf ag p off width val).m.testBit n = (decide (off % 8 * 8 ≤ n) && decide (n < off % 8 * 8 + 8 * width)) := by
  rw [wrOf, Nat.testBit_shiftLeft, Nat.testBit_two_pow_sub_one, Bool.eq_iff_iff]
  simp only [Bool.and_eq_true, decide_eq_true_eq]
  omega

theorem testBit_wrOf_v (ag : Agent) (p off width : Nat) (val : W64) (n : Nat) :
    (wrOf ag p off width val.toNat).v.testBit n =
      (decide (off % 8 * 8 ≤ n) && decide (n < off % 8 * 8 + 8 * width) && val.getLsbD (n - off % 8 * 8)) := by
  rw [wrOf, Nat.testBit_shiftLeft, Nat.testBit_mod_two_pow, BitVec.testBit_toNat, Bool.eq_iff_iff]
  simp only [Bool.and_eq_true, decide_eq_true_eq]
  constructor
  · rintro ⟨h1, h2, h3⟩; exact ⟨⟨h1, by omega⟩, h3⟩
  · rintro ⟨⟨h1, h2⟩, h3⟩; exact ⟨h1, by omega, h3⟩

/-- A write to such a page, bit by bit (R9, R12). -/
theorem State.plainWrite_idle_bit (s : State) (ag : Agent) {p off : Nat} (width : Nat) (val : W64) {b : Blk} {i : Nat}
    (hp : pageBlk p = some (b, i)) (h : b ∈ idleBlks) (ho : 0x40 ≤ off) {n : Nat} (hn : n < 64) :
    ((s.plainWrite b i (wrOf ag p off width val.toNat)).cell (p * 512 + off / 8)).getLsbD n =
      (let written := decide (off % 8 * 8 ≤ n) && decide (n < off % 8 * 8 + 8 * width)
       let bit := val.getLsbD (n - off % 8 * 8)
       if regHas p off .rw n && written then bit else if regHas p off .w1c n && written && bit then false
       else (s.cell (p * 512 + off / 8)).getLsbD n) := by
  have hc : 8 ≤ (wrOf ag p off width val.toNat).c := by simp [wrOf]; omega
  have hw := s.plainWrite_cell b i (wrOf ag p off width val.toNat)
  rw [s.setBits_idle hp h hc, Wr.clrBits] at hw
  simp only [show (wrOf ag p off width val.toNat).page = p from rfl, show (wrOf ag p off width val.toNat).c = off / 8 from rfl] at hw
  rw [hw]
  simp only [BitVec.getLsbD_or, BitVec.getLsbD_and, BitVec.getLsbD_not, BitVec.getLsbD_ofNat, Nat.testBit_and, testBit_cellMask_acc,
    testBit_wrOf_m, testBit_wrOf_v, hn, decide_true, Bool.true_and]
  generalize regHas p off .rw n = r
  generalize regHas p off .w1c n = c
  generalize (decide (off % 8 * 8 ≤ n) && decide (n < off % 8 * 8 + 8 * width)) = wr
  generalize val.getLsbD (n - off % 8 * 8) = v
  generalize (s.cell (p * 512 + off / 8)).getLsbD n = o
  revert r c wr v o
  decide

/-- Settles O1: such a page's write is the plain write alone. -/
theorem registerWriteActsByAccessCode : Obligations.RegisterWriteActsByAccessCode := by
  intro s ag p off width val b i hp hb ho ho' ha hag
  have hlt := pageBlk_lt hp
  have hw : exec (.registerWrite ag p off width val) s = .next (s.plainWrite b i (wrOf ag p off width val.toNat)) := by
    show execRegisterWrite ag p off width val s = _
    rw [execRegisterWrite, if_neg (by omega), s.agentWrite_eq _ hag ha ho', s.regWrite_eq ag off width _ hp,
      State.headActs_body _ _ _ (by simp [wrOf]; omega), State.blockActs_idle hb]
  exact ⟨_, hw, s.plainWrite_others b i _, fun k hk => s.plainWrite_cell_ne b i _ hk,
    fun n hn => s.plainWrite_idle_bit ag width val hp hb ho hn⟩

/-! ### Commands that write one field -/

theorem bitAt_eq (n i : Nat) : bitAt n i = n.testBit i := by
  rw [bitAt, Nat.testBit_eq_decide_div_mod_eq, Nat.shiftRight_eq_div_pow]
  rfl

/-- What a write of a field's own register gives the field. -/
theorem wrOf_get (ag : Agent) {f : Fld} {p off width : Nat} {val x : Nat} (hp : f.page = p) (ho : f.off = off)
    (hw : 0 < f.w) (h : f.lo + f.w ≤ 8 * width) (hx : val / 2 ^ f.lo % 2 ^ f.w = x) : (wrOf ag p off width val).get f = some x := by
  subst hp ho hx
  have hm : bitAt (wrOf ag f.page f.off width val).m f.sh = true := by
    rw [bitAt_eq, testBit_wrOf_m]
    simp [Fld.sh]; omega
  have hk : f.key = (wrOf ag f.page f.off width val).page * 512 + (wrOf ag f.page f.off width val).c := rfl
  rw [Wr.get, if_pos ⟨hk, hm⟩]
  have hs : f.sh = f.off % 8 * 8 + f.lo := rfl
  have hv : (wrOf ag f.page f.off width val).v >>> f.sh = val % 2 ^ (8 * width) / 2 ^ f.lo := by
    show (_ <<< _) >>> _ = _
    rw [hs, Nat.shiftRight_add, Nat.shiftLeft_shiftRight, Nat.shiftRight_eq_div_pow]
  have hd : 8 * width = f.lo + (8 * width - f.lo) := by omega
  rw [hv, hd, Nat.pow_add, Nat.mod_mul_right_div_self, Nat.mod_mod_of_dvd _ (pow_dvd_pow 2 (by omega))]

/-- A field of other bytes is not covered. -/
theorem wrOf_get_apart (ag : Agent) {f : Fld} {p off width : Nat} (val : Nat)
    (h : f.key = p * 512 + off / 8 → f.sh < off % 8 * 8 ∨ off % 8 * 8 + 8 * width ≤ f.sh) : (wrOf ag p off width val).get f = none := by
  rw [Wr.get, if_neg]
  rintro ⟨hk, hm⟩
  rw [bitAt_eq, testBit_wrOf_m] at hm
  simp only [Bool.and_eq_true, decide_eq_true_eq] at hm
  rcases h hk with h | h <;> omega

/-- The fields of the common header that the model keeps for its own writes. -/
def headFlds (p : Nat) : List Fld := [fVersel p, fLock p, ⟨p, 0x20, 31, 0⟩]

theorem fldMask_headFlds {p c : Nat} (hc : 8 ≤ c) (l : List Fld) : fldMask (p * 512 + c) (headFlds p ++ l) = fldMask (p * 512 + c) l := by
  have h1 : (fVersel p).key ≠ p * 512 + c := by simp [fVersel, Fld.key]; omega
  have h2 : (fLock p).key ≠ p * 512 + c := by simp [fLock, Fld.key]; omega
  have h3 : (⟨p, 0x20, 31, 0⟩ : Fld).key ≠ p * 512 + c := by simp [Fld.key]; omega
  simp [fldMask, headFlds, h1, h2, h3]

/-- The fields that a register write sets plainly, while LOCK is `l`. -/
def plainAcc (l : Bool) (f : RegF) : Bool := f.acc == .rw || (f.acc == .rwl && !l)

/-- A cell beyond the header has the bits of its block's fields. -/
theorem cellMask_body {p c : Nat} {b : Blk} {i : Nat} (hp : pageBlk p = some (b, i)) (hc : 8 ≤ c) (q : RegF → Bool) :
    cellMask p c q = b.fields.foldl (fun m f => if f.off / 8 = c ∧ q f then m ||| f.mask else m) 0 := by
  have header : (headerFields b i).foldl (fun m f => if f.off / 8 = c ∧ q f then m ||| f.mask else m) 0 = 0 := by
    have hoff : ∀ b : Blk, ((headerFields b i).all fun f => decide (f.off < 0x40)) = true := by intro b; cases b <;> rfl
    have := List.all_eq_true.1 (hoff b)
    generalize headerFields b i = l at this
    induction l with
    | nil => rfl
    | cons f l ih =>
      have hf : ¬(f.off / 8 = c ∧ q f = true) := by
        have := of_decide_eq_true (this f (by simp)); omega
      rw [List.foldl_cons, if_neg hf]
      exact ih fun g hg => this g (by simp [hg])
  simp only [cellMask, pageFields, hp, List.foldl_append, header]

/-- The bytes of a cell that an access covers. -/
def wrMask (off width : Nat) : Nat := (2 ^ (8 * width) - 1) <<< (off % 8 * 8)

/-- A write to a register without RW bits sets no bit plainly. -/
theorem State.setBits_no_rw {s : State} {b : Blk} {i : Nat} {ag : Agent} {p off width val : Nat}
    (h : ∀ l, cellMask p (off / 8) (plainAcc l) &&& wrMask off width = 0) : s.setBits b i (wrOf ag p off width val) = 0 := by
  have h' : cellMask p (off / 8) (fun f => f.acc == .rw || (f.acc == .rwl && !s.flag (fLock p))) &&& wrMask off width = 0 := h _
  show BitVec.ofNat 64 (cellMask p (off / 8) (fun f => f.acc == .rw || (f.acc == .rwl && !s.flag (fLock p))) &&& wrMask off width) &&& _ = 0
  rw [h']
  exact BitVec.zero_and

/-- A write to a register whose RW bits are kept for the model's own writes sets no bit plainly. -/
theorem State.setBits_held {s : State} {b : Blk} {i : Nat} {ag : Agent} {p off width val : Nat} {held : List Fld}
    (hh : s.heldFields b i p = headFlds p ++ held) (ho : 0x40 ≤ off)
    (h : ∀ l, BitVec.ofNat 64 (cellMask p (off / 8) (plainAcc l) &&& wrMask off width) &&& ~~~BitVec.ofNat 64 (fldMask (p * 512 + off / 8) held) = 0) :
    s.setBits b i (wrOf ag p off width val) = 0 := by
  show BitVec.ofNat 64 (cellMask p (off / 8) _ &&& wrMask off width) &&& ~~~BitVec.ofNat 64 (fldMask (p * 512 + off / 8) (s.heldFields b i p)) = 0
  rw [hh, fldMask_headFlds (by omega)]
  exact h _

theorem Wr.clrBits_none {ag : Agent} {p off width val : Nat}
    (h : cellMask p (off / 8) (fun f => f.acc == .w1c) &&& (val % 2 ^ (8 * width)) <<< (off % 8 * 8) = 0) :
    (wrOf ag p off width val).clrBits = 0 := by
  show BitVec.ofNat 64 (cellMask p (off / 8) _ &&& _) = 0
  rw [wrOf, h]
  rfl

/-- A register without RW1C bits. -/
theorem Wr.clrBits_no_w1c {ag : Agent} {p off width val : Nat} (h : cellMask p (off / 8) (fun f => f.acc == .w1c) = 0) :
    (wrOf ag p off width val).clrBits = 0 :=
  Wr.clrBits_none (by rw [h, Nat.zero_and])

/-- A write beyond the header that sets and clears nothing plainly is its block's action. -/
theorem State.agentWrite_act {s : State} {ag : Agent} {p off width val : Nat} (b : Blk) (i : Nat) (hag : s.agentUp ag = true)
    (ha : regAligned off width = true) (ho : 0x40 ≤ off) (ho' : off < 0x1000) (hp : pageBlk p = some (b, i))
    (hset : s.setBits b i (wrOf ag p off width val) = 0) (hclr : (wrOf ag p off width val).clrBits = 0) :
    s.agentWrite ag p off width val = s.blockActs b i (wrOf ag p off width val) := by
  have hc : 8 ≤ (wrOf ag p off width val).c := by simp [wrOf]; omega
  rw [State.agentWrite_eq _ hag ha ho', s.regWrite_eq ag off width val hp, s.plainWrite_none b i _ hset hclr, State.headActs_body _ _ _ hc]

/-- An action on one field of many: the others are not covered. -/
theorem State.foldl_on_one {s : State} {w : Wr} {F : Nat → Fld} (g : Nat → State → Nat → State) {k n x : Nat} (hk : k < n)
    (hx : w.get (F k) = some x) (hn : ∀ j < n, j ≠ k → w.get (F j) = none) :
    (List.range n).foldl (fun t j => t.on w (F j) (g j)) s = g k s x := by
  have before : ∀ m ≤ k, (List.range m).foldl (fun t j => t.on w (F j) (g j)) s = s := by
    intro m hm
    induction m with
    | zero => rfl
    | succ m ih => rw [List.range_succ, List.foldl_concat, ih (by omega), State.on_none (hn m (by omega) (by omega))]
  have after : ∀ m, k < m → m ≤ n → (List.range m).foldl (fun t j => t.on w (F j) (g j)) s = g k s x := by
    intro m hm hmn
    induction m with
    | zero => omega
    | succ m ih =>
      rw [List.range_succ, List.foldl_concat]
      rcases Nat.lt_succ_iff_lt_or_eq.1 hm with h | rfl
      · rw [ih h (by omega), State.on_none (hn m (by omega) (by omega))]
      · rw [before k le_rfl, State.on_some hx]
  exact after n hk le_rfl

theorem pageBlk_grove (g : Fin 256) : pageBlk (0x100 + g.val) = some (.grove, g.val) := by
  unfold pageBlk
  simp (disch := omega) only [if_neg]
  rw [if_pos (by omega)]
  simp

theorem State.fld_beq_one (s : State) {f : Fld} (hf : f.w = 1) : (s.fld f == 1) = s.flag f := by
  have h := s.fld_lt f
  rw [hf] at h
  unfold State.flag
  generalize s.fld f = v at h
  interval_cases v <;> rfl

section FieldWrites
variable {s : State} {ag : Agent} (hag : s.agentUp ag = true)
include hag

theorem exec_epochArm : exec (.epochArm ag) s = .next s.epochArm := by
  show Host.Outcome.next (s.agentWrite ag 0x00A 0x48 4 1) = _
  rw [State.agentWrite_act .mode 0 hag rfl (by decide) (by decide) rfl (State.setBits_no_rw (by decide +kernel))
    (Wr.clrBits_none (by decide +kernel))]
  have h0 : (wrOf ag 0x00A 0x48 4 1).get fMode_ARM = some 1 :=
    wrOf_get ag rfl rfl (by decide) (by decide) (by decide)
  have h1 : (wrOf ag 0x00A 0x48 4 1).get fMode_CANCEL = some 0 :=
    wrOf_get ag rfl rfl (by decide) (by decide) (by decide)
  have h2 : (wrOf ag 0x00A 0x48 4 1).get ⟨0x00A, 0x40, 31, 0⟩ = none :=
    wrOf_get_apart ag _ (by decide)
  simp only [State.blockActs, State.noteStg, h2, State.onSet_one h0, State.onSet_zero h1]

theorem exec_epochCancel : exec (.epochCancel ag) s = .next s.epochCancel := by
  show Host.Outcome.next (s.agentWrite ag 0x00A 0x48 4 2) = _
  rw [State.agentWrite_act .mode 0 hag rfl (by decide) (by decide) rfl (State.setBits_no_rw (by decide +kernel))
    (Wr.clrBits_none (by decide +kernel))]
  have h0 : (wrOf ag 0x00A 0x48 4 2).get fMode_ARM = some 0 :=
    wrOf_get ag rfl rfl (by decide) (by decide) (by decide)
  have h1 : (wrOf ag 0x00A 0x48 4 2).get fMode_CANCEL = some 1 :=
    wrOf_get ag rfl rfl (by decide) (by decide) (by decide)
  have h2 : (wrOf ag 0x00A 0x48 4 2).get ⟨0x00A, 0x40, 31, 0⟩ = none :=
    wrOf_get_apart ag _ (by decide)
  simp only [State.blockActs, State.noteStg, h2, State.onSet_zero h0, State.onSet_one h1]

theorem exec_snapshotRequest : exec (.snapshotRequest ag) s = .next s.snapRequest := by
  show Host.Outcome.next (s.agentWrite ag 0x00D 0x44 4 1) = _
  rw [State.agentWrite_act .snap 0 hag rfl (by decide) (by decide) rfl (State.setBits_no_rw (by decide +kernel))
    (Wr.clrBits_none (by decide +kernel))]
  have h0 : (wrOf ag 0x00D 0x44 4 1).get fSnap_REQ = some 1 :=
    wrOf_get ag rfl rfl (by decide) (by decide) (by decide)
  have h1 : (wrOf ag 0x00D 0x44 4 1).get fSnap_CANCEL = some 0 :=
    wrOf_get ag rfl rfl (by decide) (by decide) (by decide)
  have h2 : (wrOf ag 0x00D 0x44 4 1).get fSnap_RELEASE = some 0 :=
    wrOf_get ag rfl rfl (by decide) (by decide) (by decide)
  have h3 : (wrOf ag 0x00D 0x44 4 1).get fSnap_RESTORE = some 0 :=
    wrOf_get ag rfl rfl (by decide) (by decide) (by decide)
  have h4 : (wrOf ag 0x00D 0x44 4 1).get fSnap_RSV_GIB = none :=
    wrOf_get_apart ag _ (by decide)
  simp only [State.blockActs, State.onSet_one h0, State.onSet_zero h1, State.onSet_zero h2, State.onSet_zero h3, State.on_none h4]

theorem exec_snapshotRelease : exec (.snapshotRelease ag) s = .next s.snapRelease := by
  show Host.Outcome.next (s.agentWrite ag 0x00D 0x44 4 4) = _
  rw [State.agentWrite_act .snap 0 hag rfl (by decide) (by decide) rfl (State.setBits_no_rw (by decide +kernel))
    (Wr.clrBits_none (by decide +kernel))]
  have h0 : (wrOf ag 0x00D 0x44 4 4).get fSnap_REQ = some 0 :=
    wrOf_get ag rfl rfl (by decide) (by decide) (by decide)
  have h1 : (wrOf ag 0x00D 0x44 4 4).get fSnap_CANCEL = some 0 :=
    wrOf_get ag rfl rfl (by decide) (by decide) (by decide)
  have h2 : (wrOf ag 0x00D 0x44 4 4).get fSnap_RELEASE = some 1 :=
    wrOf_get ag rfl rfl (by decide) (by decide) (by decide)
  have h3 : (wrOf ag 0x00D 0x44 4 4).get fSnap_RESTORE = some 0 :=
    wrOf_get ag rfl rfl (by decide) (by decide) (by decide)
  have h4 : (wrOf ag 0x00D 0x44 4 4).get fSnap_RSV_GIB = none :=
    wrOf_get_apart ag _ (by decide)
  simp only [State.blockActs, State.onSet_zero h0, State.onSet_zero h1, State.onSet_one h2, State.onSet_zero h3, State.on_none h4]

theorem exec_clrFail : exec (.clrFail ag) s = .next s.clrFailWrite := by
  show Host.Outcome.next (s.agentWrite ag 0x020 0x48 4 1) = _
  rw [State.agentWrite_act .boot 0 hag rfl (by decide) (by decide) rfl (State.setBits_no_rw (by decide +kernel))
    (Wr.clrBits_none (by decide +kernel))]
  have h0 : (wrOf ag 0x020 0x48 4 1).get fBoot_CLR_FAIL = some 1 :=
    wrOf_get ag rfl rfl (by decide) (by decide) (by decide)
  have h1 : (wrOf ag 0x020 0x48 4 1).get ⟨0x020, 0x44, 2, 0⟩ = none :=
    wrOf_get_apart ag _ (by decide)
  simp only [State.blockActs, State.on_none h1, State.onSet_one h0]

theorem exec_capWWrite (val : W32) : exec (.capWWrite ag val) s =
    .next (if pstValid 1 (val.toNat % 4096) then s.setFld fPwr_CAP_W (val.toNat % 4096) else s) := by
  show Host.Outcome.next (s.agentWrite ag 0x00E 0x40 4 val.toNat) = _
  have hget : (wrOf ag 0x00E 0x40 4 val.toNat).get fPwr_CAP_W = some (val.toNat % 4096) :=
    wrOf_get ag rfl rfl (by decide) (by decide) (by simp [fPwr_CAP_W, Fld.w])
  have hno : ∀ f ∈ [fPwr_CAP_DEF, fPwr_TJ_THR, fPwr_RET_REQ, fPwr_RET_EXIT], (wrOf ag 0x00E 0x40 4 val.toNat).get f = none := by
    intro f hf
    refine wrOf_get_apart ag _ ?_
    revert f; decide
  rw [State.agentWrite_act .pwr 0 hag rfl (by decide) (by decide) rfl
    (State.setBits_held (held := [fPwr_CAP_W, fPwr_TJ_THR]) rfl (by decide) (by decide +kernel))
    (Wr.clrBits_no_w1c (by decide +kernel))]
  simp only [State.blockActs, State.onIf_some hget, State.on_none (hno fPwr_CAP_DEF (by simp)), State.onIf_none (hno fPwr_TJ_THR (by simp)),
    State.onSet_none (hno fPwr_RET_REQ (by simp)), State.onSet_none (hno fPwr_RET_EXIT (by simp))]

theorem exec_faultClr : exec (.faultClr ag) s = .next (s.injEn (s.flag fSafe_INJ_EN)).faultClr := by
  show Host.Outcome.next (s.agentWrite ag 0x00B 0x40 4 (8 + 4 * s.fld fSafe_INJ_EN)) = _
  have hlt : s.fld fSafe_INJ_EN < 2 := s.fld_lt fSafe_INJ_EN
  have h0 : (wrOf ag 0x00B 0x40 4 (8 + 4 * s.fld fSafe_INJ_EN)).get fSafe_INJ_EN = some (s.fld fSafe_INJ_EN) :=
    wrOf_get ag rfl rfl (by decide) (by decide) (by show _ / 4 % 2 = _; omega)
  have h1 : (wrOf ag 0x00B 0x40 4 (8 + 4 * s.fld fSafe_INJ_EN)).get fSafe_FAULT_CLR = some 1 :=
    wrOf_get ag rfl rfl (by decide) (by decide) (by show _ / 8 % 2 = _; omega)
  have hclr : (wrOf ag 0x00B 0x40 4 (8 + 4 * s.fld fSafe_INJ_EN)).clrBits = 0 := by
    refine Wr.clrBits_none ?_
    generalize s.fld fSafe_INJ_EN = v at hlt
    interval_cases v <;> decide +kernel
  rw [State.agentWrite_act .safe 0 hag rfl (by decide) (by decide) rfl
    (State.setBits_held (held := [fSafe_INJ_EN]) rfl (by decide) (by decide +kernel)) hclr]
  simp only [State.blockActs, State.on_some h0, State.onSet_one h1, State.fld_beq_one s (f := fSafe_INJ_EN) rfl]

theorem exec_injEnWrite (v : Bool) : exec (.injEnWrite ag v) s = .next (s.injEn v) := by
  show Host.Outcome.next (s.agentWrite ag 0x00B 0x40 4 (4 * v.toNat)) = _
  have h0 : (wrOf ag 0x00B 0x40 4 (4 * v.toNat)).get fSafe_INJ_EN = some v.toNat :=
    wrOf_get ag rfl rfl (by decide) (by decide) (by cases v <;> decide)
  have h1 : (wrOf ag 0x00B 0x40 4 (4 * v.toNat)).get fSafe_FAULT_CLR = some 0 :=
    wrOf_get ag rfl rfl (by decide) (by decide) (by cases v <;> decide)
  rw [State.agentWrite_act .safe 0 hag rfl (by decide) (by decide) rfl
    (State.setBits_held (held := [fSafe_INJ_EN]) rfl (by decide) (by decide +kernel)) (Wr.clrBits_none (by cases v <;> decide +kernel))]
  simp only [State.blockActs, State.on_some h0, State.onSet_zero h1]
  cases v <;> rfl

theorem exec_vecCtlHold (c : Fin 48) (hold : Bool) : exec (.vecCtlHold ag c hold) s = .next (s.vecHold c hold) := by
  show Host.Outcome.next (s.agentWrite ag 0x010 (0x100 + 4 * c.val) 4 hold.toNat) = _
  have hal : regAligned (0x100 + 4 * c.val) 4 = true := by simp [regAligned]
  have hrw : ∀ (c : Fin 48) (l : Bool), BitVec.ofNat 64 (cellMask 0x010 ((0x100 + 4 * c.val) / 8) (plainAcc l) &&&
      wrMask (0x100 + 4 * c.val) 4) &&& ~~~BitVec.ofNat 64 (fldMask (0x010 * 512 + (0x100 + 4 * c.val) / 8) ((List.range 48).map fVec_HOLD)) = 0 := by decide +kernel
  have hw1c : ∀ c : Fin 48, cellMask 0x010 ((0x100 + 4 * c.val) / 8) (fun f => f.acc == .w1c) = 0 := by decide +kernel
  have hget : (wrOf ag 0x010 (0x100 + 4 * c.val) 4 hold.toNat).get (fVec_HOLD c) = some hold.toNat :=
    wrOf_get ag rfl rfl (by simp [fVec_HOLD, Fld.w]) (by simp [fVec_HOLD, Fld.w])
      (by cases hold <;> simp [fVec_HOLD, Fld.w])
  have hno : ∀ k < 48, k ≠ c.val → (wrOf ag 0x010 (0x100 + 4 * c.val) 4 hold.toNat).get (fVec_HOLD k) = none := by
    intro k _ hk
    refine wrOf_get_apart ag _ ?_
    simp only [fVec_HOLD, Fld.key, Fld.sh]
    omega
  rw [State.agentWrite_act .ctl 0 hag hal (by omega) (by omega) rfl
    (State.setBits_held (held := (List.range 48).map fVec_HOLD) rfl (by omega) (hrw c)) (Wr.clrBits_no_w1c (hw1c c))]
  rw [State.blockActs, State.foldl_on_one (fun k t x => t.vecHold k (x == 1)) c.isLt hget hno]
  cases hold <;> rfl

theorem exec_ewSplitWrite (g : Fin 256) (v : Fin 4) : exec (.ewSplitWrite ag g v) s =
    .next (if v.val < 3 then s.setFld (fGrove_SPLIT g) v else s) := by
  show Host.Outcome.next (s.agentWrite ag (0x100 + g.val) 0x40 4 v) = _
  have hp : pageBlk (0x100 + g.val) = some (.grove, g.val) := pageBlk_grove g
  have h0 : (wrOf ag (0x100 + g.val) 0x40 4 v).get (fGrove_SPLIT g) = some v.val :=
    wrOf_get ag rfl rfl (by simp [fGrove_SPLIT, Fld.w]) (by simp [fGrove_SPLIT, Fld.w]) (by simp [fGrove_SPLIT, Fld.w])
  have h1 : (wrOf ag (0x100 + g.val) 0x40 4 v).get (fGrove_OUT_REQ g) = none :=
    wrOf_get_apart ag _ (by simp [fGrove_OUT_REQ, Fld.key, Fld.sh])
  have h2 : (wrOf ag (0x100 + g.val) 0x40 4 v).get (fGrove_RETURN g) = none :=
    wrOf_get_apart ag _ (by simp [fGrove_RETURN, Fld.key, Fld.sh])
  rw [State.agentWrite_act .grove g hag rfl (by decide) (by decide) hp
    (State.setBits_held (held := [fGrove_SPLIT g]) rfl (by decide) ?_)
    (Wr.clrBits_no_w1c (by rw [cellMask_body hp (by decide)]; decide +kernel))]
  · simp only [State.blockActs, State.onIf_some h0, State.onSet_none h1, State.onSet_none h2, decide_eq_true_eq]
  · intro l
    have hm : fldMask ((0x100 + g.val) * 512 + 0x40 / 8) [fGrove_SPLIT g] = 3 := by
      simp [fldMask, fGrove_SPLIT, Fld.key, Fld.w, Fld.sh]
    rw [cellMask_body hp (by decide), hm]
    cases l <;> decide +kernel

theorem exec_tempPeakClr (st : Fin 8) : exec (.tempPeakClr ag st) s = .next (s.setFld (fMem_PEAK st) (s.fld (fMem_TEMP st))) := by
  show Host.Outcome.next (s.agentWrite ag (0x0C0 + 8 * st.val) 0x44 4 (2 ^ 31)) = _
  have hp : pageBlk (0x0C0 + 8 * st.val) = some (.mem, st.val) := by fin_cases st <;> rfl
  have h0 : (wrOf ag (0x0C0 + 8 * st.val) 0x44 4 (2 ^ 31)).get (fMem_CLR st) = some 1 :=
    wrOf_get ag rfl rfl (by simp [fMem_CLR, Fld.w]) (by simp [fMem_CLR, Fld.w]) (by simp [fMem_CLR, Fld.w])
  rw [State.agentWrite_act .mem st hag rfl (by decide) (by decide) hp
    (State.setBits_no_rw (by intro l; rw [cellMask_body hp (by decide)]; cases l <;> decide +kernel))
    (Wr.clrBits_no_w1c (by rw [cellMask_body hp (by decide)]; decide +kernel))]
  simp only [State.blockActs, State.onSet_one h0]

theorem exec_combPeakClr (st : Fin 8) : exec (.combPeakClr ag st) s = .next (s.setFld (fMsc_COMB_PEAK st) (s.fld (fMsc_COMB_USE st))) := by
  show Host.Outcome.next (s.agentWrite ag (0x0C3 + 8 * st.val) 0x40 4 (2 ^ 31)) = _
  have hp : pageBlk (0x0C3 + 8 * st.val) = some (.msc, st.val) := by fin_cases st <;> rfl
  have h0 : (wrOf ag (0x0C3 + 8 * st.val) 0x40 4 (2 ^ 31)).get (fMsc_CLR st) = some 1 :=
    wrOf_get ag rfl rfl (by simp [fMsc_CLR, Fld.w]) (by simp [fMsc_CLR, Fld.w]) (by simp [fMsc_CLR, Fld.w])
  rw [State.agentWrite_act .msc st hag rfl (by decide) (by decide) hp
    (State.setBits_no_rw (by intro l; rw [cellMask_body hp (by decide)]; cases l <;> decide +kernel))
    (Wr.clrBits_no_w1c (by rw [cellMask_body hp (by decide)]; decide +kernel))]
  simp only [State.blockActs, State.onSet_one h0]

theorem exec_ctxPeakClr : exec (.ctxPeakClr ag) s = .next (s.setFld fWin_CTX_PEAK (s.fld fWin_CTX_USE)) := by
  show Host.Outcome.next (s.agentWrite ag 0x050 0x54 4 (2 ^ 31)) = _
  have h0 : (wrOf ag 0x050 0x54 4 (2 ^ 31)).get fWin_CLR = some 1 := wrOf_get ag rfl rfl (by decide) (by decide) (by decide)
  rw [State.agentWrite_act .win 0 hag rfl (by decide) (by decide) rfl (State.setBits_no_rw (by decide +kernel))
    (Wr.clrBits_none (by decide +kernel))]
  simp only [State.blockActs, State.onSet_one h0]

end FieldWrites

/-! ### The effects of the fields -/

theorem State.injEn_flag (s : State) (v : Bool) : (s.injEn v).flag fSafe_INJ_EN = v := State.flag_setFlag_same _ _ rfl rfl

theorem State.injEn_flag_apart (s : State) (v : Bool) {f : Fld} (h : fSafe_INJ_EN.apart f = true) : (s.injEn v).flag f = s.flag f := by
  rw [State.injEn, State.flag_setFlag_apart _ _ rfl h]
  split
  · exact State.flag_congr (s.event_regs _ _ _ _ _) f
  · rfl

theorem State.vecWake_regs (s : State) (c : Nat) : (s.vecWake c).regs = s.regs := by
  unfold State.vecWake
  split <;> rfl

theorem State.vecWake_awake (s : State) (c : Nat) : (s.vecWake c).flag (fVec_AWAKE c) = true ∨ (s.vecWake c).vecWaking c = true := by
  unfold State.vecWake
  split
  · assumption
  · exact .inr (by simp [State.vecWaking])

theorem fVec_HOLD_ok (c : Nat) : (fVec_HOLD c).ok = true := by simp [fVec_HOLD, Fld.ok, Fld.sh, Fld.w]; omega

theorem State.vecHold_flag (s : State) (c : Nat) (hold : Bool) : (s.vecHold c hold).flag (fVec_HOLD c) = hold := by
  have h : (s.setFlag (fVec_HOLD c) hold).flag (fVec_HOLD c) = hold := State.flag_setFlag_same _ _ (fVec_HOLD_ok c) rfl
  unfold State.vecHold
  split
  · exact (State.flag_congr (State.vecWake_regs _ _) _).trans h
  · exact h

theorem State.epochArm_accepts {s : State} (h : s.armCode = 0) :
    s.epochArm.flag fMode_ARMED = true ∧ s.epochArm.flag fMode_REFUSED = s.flag fMode_REFUSED := by
  rw [State.epochArm, if_neg (by simp [h])]
  exact ⟨State.flag_setFlag_same s (f := fMode_ARMED) true rfl rfl, s.flag_setFlag_apart (f := fMode_ARMED) (g := fMode_REFUSED) true rfl (by decide)⟩

theorem State.epochArm_refuses {s : State} (h : s.armCode ≠ 0) :
    s.epochArm.flag fMode_REFUSED = true ∧ s.epochArm.fld fMode_CODE = s.armCode % 2 ^ 8 ∧ s.epochArm.flag fMode_ARMED = s.flag fMode_ARMED := by
  rw [State.epochArm, if_pos h]
  refine ⟨?_, State.fld_setFld_same _ _ rfl, ?_⟩
  · rw [State.flag, State.fld_setFld_apart (f := fMode_CODE) _ _ rfl (by decide)]
    exact State.flag_setFlag_same s (f := fMode_REFUSED) true rfl rfl
  · rw [State.flag, State.fld_setFld_apart (f := fMode_CODE) _ _ rfl (by decide)]
    exact s.flag_setFlag_apart (f := fMode_REFUSED) (g := fMode_ARMED) true rfl (by decide)

theorem State.epochCancel_armed (s : State) : s.epochCancel.flag fMode_ARMED = (s.flag fMode_ARMED && s.flag fMode_APPLYING) := by
  unfold State.epochCancel
  split
  · next h => simp [h]
  · next h => rw [State.flag_setFlag_same s _ rfl rfl]; simp [h]

theorem State.snapRequest_pending (s : State) : s.snapRequest.flag fSnap_REQ_PEND = true := by
  unfold State.snapRequest
  split
  · next h => rw [State.addSat, State.flag, State.fld_setFld_apart (f := fSnap_NOTICES) _ _ rfl (by decide)]; exact h
  · exact State.flag_setFlag_same s (f := fSnap_REQ_PEND) _ rfl rfl

theorem State.snapRequest_notices (s : State) : s.snapRequest.fld fSnap_NOTICES =
    if s.flag fSnap_REQ_PEND then min (s.fld fSnap_NOTICES + 1) (2 ^ 32 - 1) else s.fld fSnap_NOTICES := by
  unfold State.snapRequest
  split
  · exact State.fld_setFld_fits s rfl (by show min _ (2 ^ 32 - 1) < 2 ^ 32; omega)
  · exact s.fld_setFlag_apart (f := fSnap_REQ_PEND) (g := fSnap_NOTICES) _ rfl (by decide)

theorem State.faultClr_flag (s : State) : s.faultClr.flag fSafe_FAULT = (s.flag fSafe_FAULT && s.flag fSafe_SAFE) := by
  unfold State.faultClr
  split
  · next h => simp [h]
  · next h => rw [State.flag_setFlag_same s _ rfl rfl]; simp [h]

/-- A field that takes another's value reads it. -/
theorem State.fld_setFld_copy (s : State) {f g : Fld} (hf : f.ok = true) (hw : f.w = g.w) : (s.setFld f (s.fld g)).fld f = s.fld g :=
  State.fld_setFld_fits s hf (hw ▸ s.fld_lt g)

theorem State.capW_written (s : State) (v : Nat) :
    (if pstValid 1 (v % 4096) then s.setFld fPwr_CAP_W (v % 4096) else s).fld fPwr_CAP_W =
      if 600 ≤ v % 4096 ∧ v % 4096 ≤ 1800 then v % 4096 else s.fld fPwr_CAP_W := by
  simp only [pstValid, Bool.and_eq_true, decide_eq_true_eq]
  split
  · exact State.fld_setFld_fits s rfl (Nat.mod_lt _ (by decide))
  · rfl

theorem State.split_written (s : State) (g : Fin 256) (v : Fin 4) :
    (if v.val < 3 then s.setFld (fGrove_SPLIT g) v else s).fld (fGrove_SPLIT g) = (if v.val < 3 then v.val else s.fld (fGrove_SPLIT g)) ∧
    (if v.val < 3 then s.setFld (fGrove_SPLIT g) v else s).fld (fGrove_APPLIED g) = s.fld (fGrove_APPLIED g) := by
  have hok : (fGrove_SPLIT g).ok = true := by simp [fGrove_SPLIT, Fld.ok, Fld.sh, Fld.w]
  split
  · exact ⟨State.fld_setFld_fits s hok v.isLt, State.fld_setFld_apart s _ hok (by simp [Fld.apart, fGrove_SPLIT, fGrove_APPLIED, Fld.sh, Fld.w])⟩
  · exact ⟨rfl, rfl⟩

/-- Settles O2: each command is its field's action, whose effect is read off the field. -/
theorem fieldCommandsComplete : Obligations.FieldCommandsComplete := by
  intro s ag hag
  refine ⟨⟨_, exec_epochArm hag, State.epochArm_accepts, State.epochArm_refuses⟩, ⟨_, exec_epochCancel hag, s.epochCancel_armed⟩,
    ⟨_, exec_snapshotRequest hag, s.snapRequest_pending, s.snapRequest_notices⟩,
    ⟨_, exec_snapshotRelease hag, State.flag_setFlag_same s (f := fSnap_HELD) _ rfl rfl⟩, ⟨_, exec_clrFail hag, rfl, rfl⟩,
    fun val => ⟨_, exec_capWWrite hag val, s.capW_written _⟩, ⟨_, exec_faultClr hag, ?_⟩,
    fun v => ⟨_, exec_injEnWrite hag v, s.injEn_flag v⟩,
    fun c hold => ⟨_, exec_vecCtlHold hag c hold, s.vecHold_flag c hold, ?_⟩,
    fun g v => ⟨_, exec_ewSplitWrite hag g v, s.split_written g v⟩,
    fun st => ⟨_, exec_tempPeakClr hag st, s.fld_setFld_copy ?_ rfl⟩, fun st => ⟨_, exec_combPeakClr hag st, s.fld_setFld_copy ?_ rfl⟩,
    ⟨_, exec_ctxPeakClr hag, s.fld_setFld_copy (f := fWin_CTX_PEAK) rfl rfl⟩⟩
  · rw [State.faultClr_flag, s.injEn_flag_apart _ (by decide), s.injEn_flag_apart _ (by decide)]
  · rintro rfl
    exact State.vecWake_awake _ _
  · simp [fMem_PEAK, Fld.ok, Fld.sh, Fld.w]
  · simp [fMsc_COMB_PEAK, Fld.ok, Fld.sh, Fld.w]

/-! ### The common header -/

theorem Wr.get_header {w : Wr} {f : Fld} (hc : w.c < 8) (h : 8 ≤ f.key % 512) : w.get f = none := Wr.get_other (by omega)

theorem State.foldl_on_none {s : State} {w : Wr} {F : Nat → Fld} (g : Nat → State → Nat → State) {n : Nat} (h : ∀ j < n, w.get (F j) = none) :
    (List.range n).foldl (fun t j => t.on w (F j) (g j)) s = s := by
  induction n with
  | zero => rfl
  | succ n ih => rw [List.range_succ, List.foldl_concat, ih fun j hj => h j (by omega), State.on_none (h n (by omega))]

/-- A register of the common header has no action of its block. -/
theorem State.blockActs_header (s : State) (b : Blk) (i : Nat) {w : Wr} (hc : w.c < 8) : s.blockActs b i w = s := by
  have hget : ∀ f : Fld, 8 ≤ f.key % 512 → w.get f = none := fun f => Wr.get_header hc
  have hon : ∀ (t : State) (f : Fld) g, 8 ≤ f.key % 512 → t.on w f g = t := fun t f g h => State.on_none (hget f h) g
  have hset : ∀ (t : State) (f : Fld) g, 8 ≤ f.key % 512 → t.onSet w f g = t := fun t f g h => State.onSet_none (hget f h) g
  have hif : ∀ (t : State) (f : Fld) g, 8 ≤ f.key % 512 → t.onIf w f g = t := fun t f g h => State.onIf_none (hget f h) g
  have hstg : s.noteStg w = s := by rw [State.noteStg, hget _ (by decide)]
  have hctl : ∀ g : Nat → State → Nat → State, (List.range 48).foldl (fun t j => t.on w (fVec_HOLD j) (g j)) s = s := fun g =>
    State.foldl_on_none g fun j hj => hget _ (by simp only [fVec_HOLD, Fld.key]; omega)
  cases b
  case port => simp (disch := (simp only [fPort_EN, fPort_RETRAIN, Fld.key]; omega)) only [State.blockActs, hon, hset]
  case solv => simp (disch := (simp only [fSolv_EN, Fld.key]; omega)) only [State.blockActs, hon]
  case copy => simp (disch := (simp only [fCopy_EN, Fld.key]; omega)) only [State.blockActs, hon]
  case mem => simp (disch := (simp only [fMem_CLR, Fld.key]; omega)) only [State.blockActs, hset]
  case msc => simp (disch := (simp only [fMsc_CLR, Fld.key]; omega)) only [State.blockActs, hset]
  case grove =>
    simp (disch := (simp only [fGrove_SPLIT, fGrove_OUT_REQ, fGrove_RETURN, Fld.key]; omega)) only [State.blockActs, hif, hset]
  all_goals simp (disch := decide) only [State.blockActs, hon, hset, hif, hstg, hctl]

/-- The bits of a field within its cell. -/
def Fld.mask (f : Fld) : Nat := (2 ^ f.w - 1) <<< f.sh

theorem testBit_fldMask {key n : Nat} {fs : List Fld} {f : Fld} (hf : f ∈ fs) (hk : f.key = key) (hn : f.mask.testBit n = true) :
    (fldMask key fs).testBit n = true := by
  have keep : ∀ (l : List Fld) (m : Nat), m.testBit n = true →
      (l.foldl (fun m f => if f.key = key then m ||| ((2 ^ f.w - 1) <<< f.sh) else m) m).testBit n = true := by
    intro l
    induction l with
    | nil => exact fun m h => h
    | cons g l ih =>
      intro m hm
      refine ih _ ?_
      dsimp only
      split
      · rw [Nat.testBit_or, hm, Bool.true_or]
      · exact hm
  unfold fldMask
  generalize (0 : Nat) = m
  induction fs generalizing m with
  | nil => cases hf
  | cons g fs ih =>
    rcases List.mem_cons.1 hf with rfl | hf
    · refine keep fs _ ?_
      dsimp only
      rw [if_pos hk, Nat.testBit_or]
      exact Bool.or_eq_true_iff.2 (.inr hn)
    · exact ih hf _

/-- A write to a register whose RW bits lie in one field that the model writes itself sets no bit plainly. -/
theorem State.setBits_kept {s : State} {b : Blk} {i : Nat} {ag : Agent} {p off width val : Nat} {f : Fld} (hf : f ∈ s.heldFields b i p)
    (hk : f.key = p * 512 + off / 8) (h : ∀ l, cellMask p (off / 8) (plainAcc l) ||| f.mask = f.mask) :
    s.setBits b i (wrOf ag p off width val) = 0 := by
  refine BitVec.eq_of_getLsbD_eq fun n hn => ?_
  show (BitVec.ofNat 64 (cellMask p (off / 8) (plainAcc (s.flag (fLock p))) &&& wrMask off width) &&&
    ~~~BitVec.ofNat 64 (fldMask (p * 512 + off / 8) (s.heldFields b i p))).getLsbD n = (0 : W64).getLsbD n
  have hsub := congrArg (Nat.testBit · n) (h (s.flag (fLock p)))
  simp only [Nat.testBit_or] at hsub
  simp only [BitVec.getLsbD_and, BitVec.getLsbD_not, BitVec.getLsbD_ofNat, Nat.testBit_and, hn, decide_true, Bool.true_and]
  cases hm : f.mask.testBit n with
  | true => simp [testBit_fldMask hf hk hm]
  | false => simp [hm] at hsub; simp [hsub]

/-- The header's registers, over every page: their RW bits are those of VERSEL, of LOCK and of BLK_ERRINJ; none of them has RW1C bits. -/
theorem header_masks (p : Fin 512) : (∀ l, cellMask p (0x08 / 8) (plainAcc l) ||| (fVersel p).mask = (fVersel p).mask) ∧
    (∀ l, cellMask p (0x10 / 8) (plainAcc l) ||| (fLock p).mask = (fLock p).mask) ∧
    (∀ l, cellMask p (0x20 / 8) (plainAcc l) ||| (⟨p, 0x20, 31, 0⟩ : Fld).mask = (⟨p, 0x20, 31, 0⟩ : Fld).mask) ∧
    cellMask p (0x08 / 8) (fun f => f.acc == .w1c) = 0 ∧ cellMask p (0x10 / 8) (fun f => f.acc == .w1c) = 0 ∧
    cellMask p (0x20 / 8) (fun f => f.acc == .w1c) = 0 := by
  revert p
  decide +kernel

theorem State.headActs_wrOf (s : State) (b : Blk) (i : Nat) (ag : Agent) (p off width val : Nat) :
    s.headActs b i (wrOf ag p off width val) =
      ((s.on (wrOf ag p off width val) (fVersel p) fun t x => if x = 0x0100 then t.setFld (fVersel p) x else t).onSet (wrOf ag p off width val)
        (fLock p) fun t => t.setFlag (fLock p) true).on (wrOf ag p off width val) ⟨p, 0x20, 31, 0⟩ fun t x =>
          if b = .prot then t.stackErrinjWrite i x else t.errinjWrite p x := rfl

section Header
variable {s : State} {ag : Agent} {p : Nat} {b : Blk} {i : Nat} (hag : s.agentUp ag = true) (hp : pageBlk p = some (b, i))
include hag hp

/-- A write to a register of the header is the header's action. -/
theorem State.agentWrite_header (off width val : Nat) (f : Fld) (ha : regAligned off width = true) (ho : off < 0x40)
    (hf : f ∈ headFlds p) (hk : f.key = p * 512 + off / 8) (hset : ∀ l, cellMask p (off / 8) (plainAcc l) ||| f.mask = f.mask)
    (hclr : cellMask p (off / 8) (fun f => f.acc == .w1c) = 0) :
    s.agentWrite ag p off width val = s.headActs b i (wrOf ag p off width val) := by
  have hheld : f ∈ s.heldFields b i p := List.mem_append_left _ hf
  rw [State.agentWrite_eq _ hag ha (by omega), s.regWrite_eq ag off width val hp,
    s.plainWrite_none b i _ (State.setBits_kept hheld hk hset) (Wr.clrBits_no_w1c hclr), State.blockActs_header _ _ _ (by simp [wrOf]; omega)]

theorem exec_blkVerselWrite (v : W32) : exec (.blkVerselWrite ag p v) s =
    .next (if v.toNat % 65536 = 0x100 then s.setFld (fVersel p) 0x100 else s) := by
  show Host.Outcome.next (s.agentWrite ag p 0x08 4 v.toNat) = _
  have hm := header_masks ⟨p, pageBlk_lt hp⟩
  have h0 : (wrOf ag p 0x08 4 v.toNat).get (fVersel p) = some (v.toNat % 65536) :=
    wrOf_get ag rfl rfl (by simp [fVersel, Fld.w]) (by simp [fVersel, Fld.w]) (by simp [fVersel, Fld.w])
  have h1 : (wrOf ag p 0x08 4 v.toNat).get (fLock p) = none := wrOf_get_apart ag _ (by simp [fLock, Fld.key])
  have h2 : (wrOf ag p 0x08 4 v.toNat).get ⟨p, 0x20, 31, 0⟩ = none := wrOf_get_apart ag _ (by simp [Fld.key])
  rw [State.agentWrite_header hag hp 0x08 4 _ (fVersel p) rfl (by decide) (by simp [headFlds]) rfl hm.1 hm.2.2.2.1]
  rw [State.headActs_wrOf, State.on_some h0, State.onSet_none h1, State.on_none h2]
  split <;> simp_all

theorem exec_blkCtlLock (v : W64) {width : Nat} (hw : width = 4 ∨ width = 8) : exec (.blkCtlLock ag p width v) s =
    .next (if v.getLsbD 0 then s.setFlag (fLock p) true else s) := by
  show Host.Outcome.next (s.agentWrite ag p 0x10 width v.toNat) = _
  have hm := header_masks ⟨p, pageBlk_lt hp⟩
  have h0 : (wrOf ag p 0x10 width v.toNat).get (fLock p) = some (v.toNat % 2) :=
    wrOf_get ag rfl rfl (by simp [fLock, Fld.w]) (by simp [fLock, Fld.w]; omega) (by simp [fLock, Fld.w])
  have h1 : (wrOf ag p 0x10 width v.toNat).get (fVersel p) = none := wrOf_get_apart ag _ (by simp [fVersel, Fld.key])
  have h2 : (wrOf ag p 0x10 width v.toNat).get ⟨p, 0x20, 31, 0⟩ = none := wrOf_get_apart ag _ (by simp [Fld.key])
  have ha : regAligned 0x10 width = true := by rcases hw with rfl | rfl <;> rfl
  have hbit : v.getLsbD 0 = decide (v.toNat % 2 = 1) := by rw [← BitVec.testBit_toNat, Nat.testBit_zero]
  rw [State.agentWrite_header hag hp 0x10 width _ (fLock p) ha (by decide) (by simp [headFlds]) rfl hm.2.1 hm.2.2.2.2.1]
  rw [State.headActs_wrOf, State.on_none h1, hbit]
  rcases Nat.mod_two_eq_zero_or_one v.toNat with h | h
  · rw [h] at h0 ⊢
    rw [State.onSet_zero h0, State.on_none h2]
    rfl
  · rw [h] at h0 ⊢
    rw [State.onSet_one h0, State.on_none h2]
    rfl

theorem State.agentWrite_errinj (v : W32) : s.agentWrite ag p 0x20 4 v.toNat =
    if b = .prot then s.stackErrinjWrite i v.toNat else s.errinjWrite p v.toNat := by
  have hm := header_masks ⟨p, pageBlk_lt hp⟩
  have h0 : (wrOf ag p 0x20 4 v.toNat).get ⟨p, 0x20, 31, 0⟩ = some v.toNat :=
    wrOf_get ag rfl rfl (by simp [Fld.w]) (by simp [Fld.w]) (by simp [Fld.w]; omega)
  have h1 : (wrOf ag p 0x20 4 v.toNat).get (fVersel p) = none := wrOf_get_apart ag _ (by simp [fVersel, Fld.key])
  have h2 : (wrOf ag p 0x20 4 v.toNat).get (fLock p) = none := wrOf_get_apart ag _ (by simp [fLock, Fld.key])
  rw [State.agentWrite_header hag hp 0x20 4 _ ⟨p, 0x20, 31, 0⟩ rfl (by decide) (by simp [headFlds]) rfl hm.2.2.1 hm.2.2.2.2.2]
  rw [State.headActs_wrOf, State.on_none h1, State.onSet_none h2, State.on_some h0]

end Header

theorem State.cell_setFld_ne (s : State) {f : Fld} (v : Nat) {k : Nat} (h : k ≠ f.key) : (s.setFld f v).cell k = s.cell k :=
  s.cell_setCell_ne _ h

theorem getLsbD_zero_eq {n : Nat} (v : BitVec n) : v.getLsbD 0 = decide (v.toNat % 2 = 1) := by
  rw [← BitVec.testBit_toNat, Nat.testBit_zero]

/-- What arming leaves (R434). -/
theorem State.injSet_fields (s : State) (p arm kind target : Nat) :
    (s.injSet p arm kind target).flag (fInj_ARM p) = decide (arm % 2 = 1) ∧ (s.injSet p arm kind target).fld (fInj_KIND p) = kind % 8 ∧
    (s.injSet p arm kind target).fld (fInj_TARGET p) = target % 256 ∧
    ∀ k, k ≠ (fInj_ARM p).key → (s.injSet p arm kind target).cell k = s.cell k := by
  have ok1 : (fInj_ARM p).ok = true := by simp [fInj_ARM, Fld.ok, Fld.sh, Fld.w]
  have ok2 : (fInj_KIND p).ok = true := by simp [fInj_KIND, Fld.ok, Fld.sh, Fld.w]
  have ok3 : (fInj_TARGET p).ok = true := by simp [fInj_TARGET, Fld.ok, Fld.sh, Fld.w]
  have ap32 : (fInj_TARGET p).apart (fInj_KIND p) = true := by simp [Fld.apart, fInj_TARGET, fInj_KIND, Fld.sh, Fld.w]
  have ap31 : (fInj_TARGET p).apart (fInj_ARM p) = true := by simp [Fld.apart, fInj_TARGET, fInj_ARM, Fld.sh, Fld.w]
  have ap21 : (fInj_KIND p).apart (fInj_ARM p) = true := by simp [Fld.apart, fInj_KIND, fInj_ARM, Fld.sh, Fld.w]
  refine ⟨?_, ?_, State.fld_setFld_same _ _ ok3, fun k hk => ?_⟩
  · rw [State.injSet, State.flag, State.fld_setFld_apart _ _ ok3 ap31, State.fld_setFld_apart _ _ ok2 ap21, State.fld_setFld_same _ _ ok1]
    show (arm % 2 != 0) = _
    rcases Nat.mod_two_eq_zero_or_one arm with h | h <;> rw [h] <;> rfl
  · rw [State.injSet, State.fld_setFld_apart _ _ ok3 ap32, State.fld_setFld_same _ _ ok2]
    rfl
  · exact (State.cell_setFld_ne _ (f := fInj_TARGET p) _ hk).trans
      ((State.cell_setFld_ne _ (f := fInj_KIND p) _ hk).trans (s.cell_setFld_ne (f := fInj_ARM p) _ hk))

theorem State.errinjWrite_eq (s : State) {p : Nat} {b : Blk} {i : Nat} (hp : pageBlk p = some (b, i)) (hi : b.hasInj = true) (hb : b ≠ .prot)
    (he : b ≠ .eqx) (v : Nat) : s.errinjWrite p v =
      if v % 2 = 1 ∧ (!s.injAllowed ∨ !injNamed b (v / 2 % 8) (v / 256 % 256)) then s
      else s.injSet p (v % 2) (v / 2 % 8) (v / 256 % 256) := by
  simp only [State.errinjWrite, hp, hi, hb, he, Bool.not_true, Bool.false_eq_true, false_and, or_self, if_false]

/-- What a stack's BLK_ERRINJ takes (R176). -/
theorem State.stackErrinjWrite_fields {s : State} {n v : Nat}
    (h : ¬(v % 2 = 1 ∧ (!s.injAllowed ∨ (v / 2 % 2 = 0 ∧ (v / 4 % 16 = 0 ∨ 4 < v / 4 % 16 ∨ 8 < v / 64 % 16))))) :
    (s.stackErrinjWrite n v).flag (fProt_INJ_ARM n) = decide (v % 2 = 1) ∧ (s.stackErrinjWrite n v).fld (fProt_INJ_UE n) = v / 2 % 2 ∧
    (s.stackErrinjWrite n v).fld (fProt_INJ_COUNT n) = v / 4 % 16 ∧ (s.stackErrinjWrite n v).fld (fProt_INJ_LANE n) = v / 64 % 16 ∧
    ∀ k, k ≠ (fProt_INJ_ARM n).key → (s.stackErrinjWrite n v).cell k = s.cell k := by
  have ok : ∀ f ∈ [fProt_INJ_ARM n, fProt_INJ_UE n, fProt_INJ_COUNT n, fProt_INJ_LANE n, fProt_INJ_PC n], f.ok = true := by
    simp [fProt_INJ_ARM, fProt_INJ_UE, fProt_INJ_COUNT, fProt_INJ_LANE, fProt_INJ_PC, Fld.ok, Fld.sh, Fld.w]
  have ap : ∀ f ∈ [fProt_INJ_UE n, fProt_INJ_COUNT n, fProt_INJ_LANE n, fProt_INJ_PC n], f.apart (fProt_INJ_ARM n) = true := by
    simp [Fld.apart, fProt_INJ_ARM, fProt_INJ_UE, fProt_INJ_COUNT, fProt_INJ_LANE, fProt_INJ_PC, Fld.sh, Fld.w]
  have ap2 : ∀ f ∈ [fProt_INJ_COUNT n, fProt_INJ_LANE n, fProt_INJ_PC n], f.apart (fProt_INJ_UE n) = true := by
    simp [Fld.apart, fProt_INJ_UE, fProt_INJ_COUNT, fProt_INJ_LANE, fProt_INJ_PC, Fld.sh, Fld.w]
  have ap3 : ∀ f ∈ [fProt_INJ_LANE n, fProt_INJ_PC n], f.apart (fProt_INJ_COUNT n) = true := by
    simp [Fld.apart, fProt_INJ_COUNT, fProt_INJ_LANE, fProt_INJ_PC, Fld.sh, Fld.w]
  have ap4 : (fProt_INJ_PC n).apart (fProt_INJ_LANE n) = true := by simp [Fld.apart, fProt_INJ_LANE, fProt_INJ_PC, Fld.sh, Fld.w]
  simp only [List.mem_cons, List.not_mem_nil, or_false, forall_eq_or_imp, forall_eq] at ok ap ap2 ap3
  obtain ⟨o1, o2, o3, o4, o5⟩ := ok
  obtain ⟨a1, a2, a3, a4⟩ := ap
  obtain ⟨b1, b2, b3⟩ := ap2
  rw [State.stackErrinjWrite, if_neg h]
  refine ⟨?_, ?_, ?_, ?_, fun k hk => ?_⟩
  · rw [State.flag, State.fld_setFld_apart _ _ o5 a4, State.fld_setFld_apart _ _ o4 a3, State.fld_setFld_apart _ _ o3 a2,
      State.fld_setFld_apart _ _ o2 a1, State.fld_setFld_same _ _ o1]
    show (v % 2 != 0) = _
    rcases Nat.mod_two_eq_zero_or_one v with h | h <;> rw [h] <;> rfl
  · rw [State.fld_setFld_apart _ _ o5 b3, State.fld_setFld_apart _ _ o4 b2, State.fld_setFld_apart _ _ o3 b1]
    exact State.fld_setFld_fits _ o2 (Nat.mod_lt _ (by decide))
  · rw [State.fld_setFld_apart _ _ o5 ap3.2, State.fld_setFld_apart _ _ o4 ap3.1]
    exact State.fld_setFld_fits _ o3 (Nat.mod_lt _ (by decide))
  · rw [State.fld_setFld_apart _ _ o5 ap4]
    exact State.fld_setFld_fits _ o4 (Nat.mod_lt _ (by decide))
  · exact (State.cell_setFld_ne _ (f := fProt_INJ_PC n) _ hk).trans ((State.cell_setFld_ne _ (f := fProt_INJ_LANE n) _ hk).trans
      ((State.cell_setFld_ne _ (f := fProt_INJ_COUNT n) _ hk).trans ((State.cell_setFld_ne _ (f := fProt_INJ_UE n) _ hk).trans
        (s.cell_setFld_ne (f := fProt_INJ_ARM n) _ hk))))

theorem pageBlk_prot (n : Fin 8) : pageBlk (protPage n) = some (.prot, n.val) := by
  fin_cases n <;> rfl

theorem exec_blkErrinjWrite {s : State} {ag : Agent} {p : Nat} {b : Blk} {i : Nat} (hag : s.agentUp ag = true) (hp : pageBlk p = some (b, i))
    (hb : b ≠ .prot) (v : W32) : exec (.blkErrinjWrite ag p v) s = .next (s.errinjWrite p v.toNat) := by
  show Host.Outcome.next (s.agentWrite ag p 0x20 4 v.toNat) = _
  rw [State.agentWrite_errinj hag hp, if_neg hb]

theorem exec_stackErrinjWrite {s : State} {ag : Agent} (hag : s.agentUp ag = true) (n : Fin 8) (v : W32) :
    exec (.stackErrinjWrite ag n v) s = .next (s.stackErrinjWrite n v.toNat) := by
  show Host.Outcome.next (s.agentWrite ag (protPage n) 0x20 4 v.toNat) = _
  rw [State.agentWrite_errinj hag (pageBlk_prot n), if_pos rfl]

/-! ### An armed injection acts -/

theorem State.injArmed_off {s : State} {p : Nat} (h : s.flag (fInj_ARM p) = false) (kind : Nat) : s.injArmed p kind = false := by
  simp [State.injArmed, h]

theorem State.testPassIf_off {s : State} {u : TestUnit} (h : s.flag (fInj_ARM (testUnit u).1) = false) : s.testPassIf u = s := by
  simp [State.testPassIf, State.testInj, State.injArmed_off h]

theorem exec_errorInjectionActs_off {s : State} {p : Nat} (h : s.flag (fInj_ARM p) = false) : exec (.errorInjectionActs p) s = .next s := by
  show execErrorInjectionActs p s = _
  unfold execErrorInjectionActs
  simp only [State.injArmed_off h, Bool.false_eq_true, and_false, if_false]
  congr 1
  split
  · next hc => exact State.testPassIf_off (show s.flag (fInj_ARM 0x010) = false by rw [← hc.1]; exact h)
  · split
    · next hg => exact State.testPassIf_off (by rw [← h]; show s.flag (fInj_ARM (0x100 + (p - 0x100))) = _; rw [Nat.add_sub_cancel' hg.2])
    · split
      · next hk =>
        refine State.testPassIf_off ?_
        rw [← h]
        show s.flag (fInj_ARM (0x0C4 + 8 * ((p - 0x0C4) / 8))) = _
        rw [show 0x0C4 + 8 * ((p - 0x0C4) / 8) = p by omega]
      · rfl

theorem State.injDone_flags (s : State) (p : Nat) :
    (s.injDone p).flag (fInj_ARM p) = false ∧ (s.injDone p).flag (fErr_INJECTED p) = true := by
  have ok1 : (fInj_ARM p).ok = true := by simp [fInj_ARM, Fld.ok, Fld.sh, Fld.w]
  have ok2 : (fErr_INJECTED p).ok = true := by simp [fErr_INJECTED, Fld.ok, Fld.sh, Fld.w]
  have ap : (fErr_INJECTED p).apart (fInj_ARM p) = true := by simp [Fld.apart, fErr_INJECTED, fInj_ARM, Fld.key]
  exact ⟨(State.flag_setFlag_apart _ _ ok2 ap).trans (State.flag_setFlag_same _ _ ok1 rfl), State.flag_setFlag_same _ _ ok2 rfl⟩

theorem State.testInj_of (s : State) (u : TestUnit) (h : s.injArmed (testUnit u).1 (testUnit u).2.2 = true)
    (hc : ∀ c, u = .coreT c → s.fld (fInj_TARGET 0x010) = c.val) : s.testPassIf u = s.testPass u true 0 := by
  have : s.testInj u = true := by
    cases u with
    | coreT c => simpa [State.testInj, testUnit, hc c rfl] using h
    | groveT g => simpa [State.testInj, testUnit] using h
    | stackT n => simpa [State.testInj, testUnit] using h
  rw [State.testPassIf, if_pos this]

theorem exec_errorInjectionActs_grove {s : State} (g : Fin 256) (h : s.injArmed (0x100 + g.val) 3 = true) :
    exec (.errorInjectionActs (0x100 + g.val)) s = exec (.selfTestPass (.groveT g) true 0) s := by
  show execErrorInjectionActs (0x100 + g.val) s = .next (s.testPass (.groveT g) true 0)
  have hg : 0x100 + g.val - 0x100 < 256 ∧ 0x100 ≤ 0x100 + g.val := by omega
  have hu : (⟨0x100 + g.val - 0x100, hg.1⟩ : Fin 256) = g := Fin.ext (Nat.add_sub_cancel_left ..)
  unfold execErrorInjectionActs
  rw [if_neg (by omega), if_neg (by simp only [pwrPage]; omega), if_neg (by simp only [pwrPage]; omega), dif_neg (by omega), dif_pos hg, hu]
  rw [s.testInj_of (.groveT g) h (by simp)]

theorem exec_errorInjectionActs_stack {s : State} (n : Fin 8) (h : s.injArmed (0x0C4 + 8 * n.val) 1 = true) :
    exec (.errorInjectionActs (0x0C4 + 8 * n.val)) s = exec (.selfTestPass (.stackT n) true 0) s := by
  show execErrorInjectionActs (0x0C4 + 8 * n.val) s = .next (s.testPass (.stackT n) true 0)
  have hn : (0x0C4 + 8 * n.val - 0x0C4) / 8 < 8 ∧ 0x0C4 ≤ 0x0C4 + 8 * n.val ∧ (0x0C4 + 8 * n.val) % 8 = 4 := by omega
  have hu : (⟨(0x0C4 + 8 * n.val - 0x0C4) / 8, hn.1⟩ : Fin 8) = n := Fin.ext (by simp)
  unfold execErrorInjectionActs
  rw [if_neg (by omega), if_neg (by simp only [pwrPage]; omega), if_neg (by simp only [pwrPage]; omega), dif_neg (by omega),
    dif_neg (by omega), dif_pos hn, hu]
  rw [s.testInj_of (.stackT n) h (by simp)]

theorem exec_errorInjectionActs_core {s : State} (c : Fin 48) (h : s.injArmed 0x010 1 = true) (ht : s.fld (fInj_TARGET 0x010) = c.val) :
    exec (.errorInjectionActs 0x010) s = exec (.selfTestPass (.coreT c) true 0) s := by
  show execErrorInjectionActs 0x010 s = .next (s.testPass (.coreT c) true 0)
  have hc : (0x010 : Nat) = 0x010 ∧ s.fld (fInj_TARGET 0x010) < 48 := ⟨rfl, ht ▸ c.isLt⟩
  have hu : (⟨s.fld (fInj_TARGET 0x010), hc.2⟩ : Fin 48) = c := Fin.ext ht
  unfold execErrorInjectionActs
  rw [if_neg (by omega), if_neg (by simp [pwrPage]), if_neg (by simp [pwrPage]), dif_pos hc, hu]
  rw [s.testInj_of (.coreT c) h (by rintro _ ⟨⟩; exact ht)]

/-- The two injections of the security and the power page. -/
theorem exec_errorInjectionActs_detect {s : State} {p kind cls : Nat}
    (hm : (p, kind, cls) ∈ [(0x018, 1, 0x0A), (0x00E, 1, 0x0B), (0x00E, 2, 0x0C)]) (h : s.injArmed p kind = true) :
    exec (.errorInjectionActs p) s = .next ((s.injDone p).detectS { cls := cls, react := 3, page := p, injected := true }) := by
  show execErrorInjectionActs p s = _
  unfold execErrorInjectionActs
  simp only [List.mem_cons, Prod.mk.injEq, List.not_mem_nil, or_false] at hm
  rcases hm with ⟨rfl, rfl, rfl⟩ | ⟨rfl, rfl, rfl⟩ | ⟨rfl, rfl, rfl⟩
  · rw [if_pos ⟨rfl, h⟩]
  · rw [if_neg (by simp), if_pos ⟨rfl, h⟩]
  · have h1 : s.injArmed 0x00E 1 = false := by
      simp only [State.injArmed, Bool.and_eq_true, beq_iff_eq] at h ⊢
      simp [h.2]
    rw [if_neg (by simp), if_neg (by simp [h1]), if_pos ⟨rfl, h⟩]

/-- Settles O3: a write of a header register is the header's action, and an armed injection is the action of its page. -/
theorem headerWritesAndInjectionsAct : Obligations.HeaderWritesAndInjectionsAct := by
  refine ⟨fun s ag p b i hag hp => ⟨fun v => ⟨_, exec_blkVerselWrite hag hp v, ?_⟩, fun v width hw => ⟨_, exec_blkCtlLock hag hp v hw, ?_⟩,
      fun v hi hb he => ⟨fun h => ⟨_, exec_blkErrinjWrite hag hp hb v, ?_⟩, fun h1 h2 => ?_⟩, fun n v => ?_⟩,
    fun s => ⟨fun p h => exec_errorInjectionActs_off h,
      fun p kind cls hm h => ⟨(s.injDone_flags p).1, (s.injDone_flags p).2, _, exec_errorInjectionActs_detect hm h, rfl⟩,
      fun g h => exec_errorInjectionActs_grove g h, fun n h => exec_errorInjectionActs_stack n h,
      fun c h ht => exec_errorInjectionActs_core c h ht⟩⟩
  · have hok : (fVersel p).ok = true := by simp [fVersel, Fld.ok, Fld.sh, Fld.w]
    split
    · exact ⟨State.fld_setFld_fits s hok (by simp [fVersel, Fld.w]), fun k hk => s.cell_setFld_ne _ hk, rfl⟩
    · exact ⟨rfl, fun _ _ => rfl, rfl⟩
  · have hok : (fLock p).ok = true := by simp [fLock, Fld.ok, Fld.sh, Fld.w]
    split
    · next hv =>
      refine ⟨?_, fun k hk => s.cell_setFld_ne _ hk, rfl⟩
      rw [State.flag_setFlag_same s _ hok rfl, hv, Bool.or_true]
    · next hv => exact ⟨by rw [Bool.eq_false_iff.2 hv, Bool.or_false], fun _ _ => rfl, rfl⟩
  · rw [getLsbD_zero_eq] at h ⊢
    rw [s.errinjWrite_eq hp hi hb he, if_neg (by rintro ⟨h1, h2⟩; simp_all)]
    obtain ⟨h1, h2, h3, h4⟩ := s.injSet_fields p (v.toNat % 2) (v.toNat / 2 % 8) (v.toNat / 256 % 256)
    exact ⟨by rw [h1, Nat.mod_mod], by rw [h2, Nat.mod_mod], by rw [h3, Nat.mod_mod], h4⟩
  · rw [getLsbD_zero_eq, decide_eq_true_eq] at h1
    rw [exec_blkErrinjWrite hag hp hb v, s.errinjWrite_eq hp hi hb he, if_pos ⟨h1, by simpa using h2⟩]
  · intro bad
    rw [exec_stackErrinjWrite hag n v, getLsbD_zero_eq, decide_eq_true_eq, decide_eq_false_iff_not]
    refine ⟨fun h => ⟨_, exec_stackErrinjWrite hag n v, State.stackErrinjWrite_fields ?_⟩, fun h1 h2 => ?_⟩
    · rintro ⟨h1, h2⟩
      rcases h with h | ⟨ha, hb⟩
      · exact h h1
      · rcases h2 with h2 | h2
        · simp [ha] at h2
        · exact hb h2
    · rw [State.stackErrinjWrite, if_pos ⟨h1, h2.imp_left (by simp)⟩]


/-! ### Commands that store nothing -/

/-- What a command that stores nothing leaves alone: memory, threads, engines, outstanding remote requests and the queue. -/
structure State.Quiet (s u : State) : Prop where
  dram : u.dram = s.dram
  bar2 : u.bar2 = s.bar2
  thr : u.thr = s.thr
  eng : u.eng = s.eng
  ctxs : u.fab.ctxs = s.fab.ctxs
  pending : u.pending = s.pending

theorem State.Quiet.refl (s : State) : s.Quiet s := ⟨rfl, rfl, rfl, rfl, rfl, rfl⟩

/-- A state written out with what stays as it was. -/
theorem State.Quiet.rest {a s : State} (h : a.Quiet s) (fresh answers regs latch mem stks logs pst saf host mdl bnd hz can snp pwr sec) :
    a.Quiet { s with
      fresh := fresh, answers := answers, regs := regs, latch := latch, mem := mem, stks := stks, logs := logs, pst := pst, saf := saf,
      host := host, mdl := mdl, bnd := bnd, hz := hz, can := can, snp := snp, pwr := pwr, sec := sec } :=
  ⟨h.dram, h.bar2, h.thr, h.eng, h.ctxs, h.pending⟩

theorem State.Quiet.foldl {α : Type} {a s : State} (h : a.Quiet s) (f : State → α → State) (hf : ∀ t x, a.Quiet t → a.Quiet (f t x)) (l : List α) :
    a.Quiet (l.foldl f s) := by
  induction l generalizing s with
  | nil => exact h
  | cons x l ih => exact ih (hf s x h)

theorem State.Quiet.setCell {s₀ s : State} (hs : s₀.Quiet s) (k : Nat) (v : W64) : s₀.Quiet (s.setCell k v) :=
  ⟨hs.dram, hs.bar2, hs.thr, hs.eng, hs.ctxs, hs.pending⟩

theorem State.Quiet.setFld {s₀ s : State} (hs : s₀.Quiet s) (f : Fld) (v : ℕ) : s₀.Quiet (s.setFld f v) := by
  grind [State.setFld, State.Quiet.setCell]

theorem State.Quiet.setFlag {s₀ s : State} (hs : s₀.Quiet s) (f : Fld) (b : Bool) : s₀.Quiet (s.setFlag f b) := by
  grind [State.setFlag, State.Quiet.setFld]

theorem State.Quiet.inc {s₀ s : State} (hs : s₀.Quiet s) (f : Fld) : s₀.Quiet (s.inc f) := by
  grind [State.inc, State.Quiet.setFld]

theorem State.Quiet.draw {s₀ s : State} (hs : s₀.Quiet s) : s₀.Quiet (s.draw).2 := by
  grind [State.draw, State.Quiet.rest]

theorem State.Quiet.answer {s₀ s : State} (hs : s₀.Quiet s) (a : Answer) : s₀.Quiet (s.answer a) := by
  grind [State.answer, State.Quiet.rest]

theorem State.Quiet.now {s₀ s : State} (hs : s₀.Quiet s) : s₀.Quiet (s.now).2 := by
  grind [State.now, State.Quiet.draw]

theorem State.Quiet.vector {s₀ s : State} (hs : s₀.Quiet s) (n : ℕ) : s₀.Quiet (s.vector n) := by
  grind [State.vector, State.Quiet.answer]

theorem State.Quiet.event {s₀ s : State} (hs : s₀.Quiet s) (log : ℕ) (kind : EvKind) (loc data : W64) (frec : List Byte) :
    s₀.Quiet (s.event log kind loc data frec) := by
  grind [State.event, State.Quiet.now, State.Quiet.vector, State.Quiet.rest]

theorem State.Quiet.setPort {s₀ s : State} (hs : s₀.Quiet s) (p : ℕ) (x : Port) : s₀.Quiet (s.setPort p x) :=
  ⟨hs.dram, hs.bar2, hs.thr, hs.eng, hs.ctxs, hs.pending⟩

theorem State.Quiet.modPort {s₀ s : State} (hs : s₀.Quiet s) (p : ℕ) (f : Port → Port) : s₀.Quiet (s.modPort p f) := by
  grind [State.modPort, State.Quiet.setPort]

theorem State.Quiet.modHz {s₀ s : State} (hs : s₀.Quiet s) (f : HzSt → HzSt) : s₀.Quiet (s.modHz f) := by
  grind [State.modHz, State.Quiet.setFld, State.Quiet.rest]

theorem State.Quiet.hzPut {s₀ s : State} (hs : s₀.Quiet s) (o : HzOp) : s₀.Quiet (s.hzPut o) := by
  grind [State.hzPut, State.Quiet.modHz, State.Quiet.rest]

theorem State.Quiet.showOwner {s₀ s : State} (hs : s₀.Quiet s) (v : ℕ) : s₀.Quiet (s.showOwner v) := by
  grind [State.showOwner, State.Quiet.setFld, State.Quiet.setFlag, State.Quiet.rest]

theorem State.Quiet.showAnchor {s₀ s : State} (hs : s₀.Quiet s) (k v : ℕ) : s₀.Quiet (s.showAnchor k v) := by
  grind [State.showAnchor, State.Quiet.rest]

theorem State.Quiet.showPst {s₀ s : State} (hs : s₀.Quiet s) (i v : ℕ) : s₀.Quiet (s.showPst i v) := by
  unfold State.showPst
  split
  · exact hs.setFld _ _
  · exact hs.setFld _ _
  · exact hs.setFld _ _
  · exact ((hs.setFld _ _).setFld _ _).setFld _ _
  · exact hs.setFld _ _
  · exact hs.showOwner _
  · exact hs.showAnchor _ _
  · exact hs.showAnchor _ _
  · exact hs.showAnchor _ _
  · exact hs.showAnchor _ _
  · exact hs.foldl _ (fun _ _ h => h.setFld _ _) _
  · exact hs

theorem State.Quiet.countPst {s₀ s : State} (hs : s₀.Quiet s) (i : ℕ) : s₀.Quiet (s.countPst i) := by
  grind [State.countPst, State.Quiet.setFld, State.Quiet.event, State.Quiet.setFlag]

theorem State.Quiet.closeDebug {s₀ s : State} (hs : s₀.Quiet s) : s₀.Quiet (s.closeDebug) := by
  grind [State.closeDebug, State.Quiet.setFld, State.Quiet.rest]

theorem State.Quiet.syncCapped {s₀ s : State} (hs : s₀.Quiet s) : s₀.Quiet (s.syncCapped) := by
  grind [State.syncCapped, State.Quiet.setFld, State.Quiet.rest]

theorem State.Quiet.steps {s₀ s : State} (hs : s₀.Quiet s) (n : ℕ) : s₀.Quiet (s.steps n).2 := by
  grind [State.steps, State.Quiet.draw]

theorem State.Quiet.reply {s₀ s : State} (hs : s₀.Quiet s) (ag : Agent) (c : ℕ) (out : List Byte) : s₀.Quiet (s.reply ag c out) := by
  grind [State.reply, State.Quiet.answer, State.Quiet.vector]

theorem State.Quiet.mbox {s₀ s : State} (hs : s₀.Quiet s) (ag : Agent) (f : State → ℕ × List Byte × State) (h_f : ∀ v1, s₀.Quiet v1 →
    s₀.Quiet (f v1).2.2) :
    s₀.Quiet (s.mbox ag f) := by
  grind [State.mbox, State.Quiet.reply]

theorem State.Quiet.background {s₀ s : State} (hs : s₀.Quiet s) (b : BgCmd) : s₀.Quiet (s.background b) := by
  grind [State.background, State.Quiet.rest]

theorem State.Quiet.syncSessions {s₀ s : State} (hs : s₀.Quiet s) : s₀.Quiet (s.syncSessions) := by
  grind [State.syncSessions, State.Quiet.setFld]

theorem State.Quiet.spdm {s₀ s : State} (hs : s₀.Quiet s) (ag : Agent) (code : ℕ) (body : List Byte) :
    s₀.Quiet (s.spdm ag code body) := by
  grind [State.spdm, State.Quiet.answer]

theorem State.Quiet.addSession {s₀ s : State} (hs : s₀.Quiet s) (ag : Agent) : s₀.Quiet (s.addSession ag) := by
  grind [State.addSession, State.Quiet.rest]

theorem State.Quiet.endDebug {s₀ s : State} (hs : s₀.Quiet s) : s₀.Quiet (s.endDebug) := by
  grind [State.endDebug, State.Quiet.closeDebug]

theorem State.Quiet.sealAnswer {s₀ s : State} (hs : s₀.Quiet s) (code : ℕ) (out : List Byte) :
    s₀.Quiet (sealAnswer s code out).2.2 := by
  grind [sealAnswer]

theorem State.Quiet.addSat {s₀ s : State} (hs : s₀.Quiet s) (f : Fld) (n : ℕ) : s₀.Quiet (s.addSat f n) := by
  grind [State.addSat, State.Quiet.setFld]

theorem State.Quiet.faultClr {s₀ s : State} (hs : s₀.Quiet s) : s₀.Quiet (s.faultClr) := by
  grind [State.faultClr, State.Quiet.setFlag]

theorem State.Quiet.injEn {s₀ s : State} (hs : s₀.Quiet s) (v : Bool) : s₀.Quiet (s.injEn v) := by
  grind [State.injEn, State.Quiet.event, State.Quiet.setFlag]

theorem State.Quiet.clrFailWrite {s₀ s : State} (hs : s₀.Quiet s) : s₀.Quiet (s.clrFailWrite) := by
  grind [State.clrFailWrite, State.Quiet.rest]

/-! A persistent commit that no write waits for (R446) completes none. -/

theorem State.event_pst (s : State) (log : Nat) (kind : EvKind) (loc data : W64) (frec : List Byte) : (s.event log kind loc data frec).pst = s.pst := by
  simp only [State.event]
  split
  · rfl
  · split <;> rfl

theorem State.showPst_pst (s : State) (i v : Nat) : (s.showPst i v).pst = s.pst := by
  have last : ∀ (l : List Nat) (t : State), (l.foldl (fun t k => t.setFld (fSafeLast k) (v / 2 ^ (64 * k))) t).pst = t.pst := by
    intro l
    induction l with
    | nil => exact fun _ => rfl
    | cons k l ih => exact fun t => ih _
  unfold State.showPst
  split
  case h_11 => exact last (List.range 8) s
  all_goals simp [State.showOwner, State.showAnchor]

theorem State.countPst_pst (s : State) (i : Nat) : (s.countPst i).pst = s.pst := by
  unfold State.countPst
  dsimp only
  split
  · exact State.event_pst ..
  · split
    · exact State.event_pst ..
    · rfl

theorem State.Quiet.writesDone {s₀ s : State} (hs : s₀.Quiet s) (hw : s.pst.waits = []) (n : Nat) : s₀.Quiet (s.writesDone n) := by
  simp only [State.writesDone, hw, List.filter_nil, List.foldl_nil]
  exact hs.rest ..

theorem State.Quiet.commitDone {s₀ s : State} (hs : s₀.Quiet s) (hw : s.pst.waits = []) : s₀.Quiet s.commitDone := by
  unfold State.commitDone
  split
  · exact hs
  · extract_lets pst s1 s2 left
    have h1 : s₀.Quiet s1 := hs.rest ..
    have h2 : s₀.Quiet s2 := (((h1.showPst _ _).countPst _).inc _).setFld _ _
    have hp : s2.pst.waits = [] := (congrArg PstSt.waits ((State.countPst_pst _ _).trans (State.showPst_pst _ _ _))).trans hw
    clear_value s2
    refine State.Quiet.writesDone ((h2.rest ..).setFlag _ _) ?_ _
    exact hp

/-- A command leaves what it stores nothing in. -/
def State.Leaves (s : State) (o : Host.Outcome State Fault Refusal) : Prop := ∀ u, o = .next u → s.Quiet u

theorem State.Leaves.next {s u : State} (h : s.Quiet u) : s.Leaves (.next u) := by
  rintro _ ⟨⟩
  exact h

theorem execGetEventInterruptPolicy_quiet (s : State) (ag : Agent) : s.Leaves (execGetEventInterruptPolicy ag s) := by
  have hs := State.Quiet.refl s
  unfold execGetEventInterruptPolicy
  grind [State.Leaves.next, State.Quiet.mbox]

theorem execGetFwInfo_quiet (s : State) (ag : Agent) : s.Leaves (execGetFwInfo ag s) := by
  have hs := State.Quiet.refl s
  unfold execGetFwInfo
  grind [State.Leaves.next, State.Quiet.mbox, State.Quiet.rest]

theorem execGetTimestamp_quiet (s : State) (ag : Agent) : s.Leaves (execGetTimestamp ag s) := by
  have hs := State.Quiet.refl s
  unfold execGetTimestamp
  grind [State.Leaves.next, State.Quiet.mbox, State.Quiet.now]

theorem execGetSupportedLogs_quiet (s : State) (ag : Agent) : s.Leaves (execGetSupportedLogs ag s) := by
  have hs := State.Quiet.refl s
  unfold execGetSupportedLogs
  grind [State.Leaves.next, State.Quiet.mbox]

theorem execGetLog_quiet (s : State) (ag : Agent) : s.Leaves (execGetLog ag s) := by
  have hs := State.Quiet.refl s
  unfold execGetLog
  grind [State.Leaves.next, State.Quiet.mbox]

theorem execIdentifyMemoryDevice_quiet (s : State) (ag : Agent) : s.Leaves (execIdentifyMemoryDevice ag s) := by
  have hs := State.Quiet.refl s
  unfold execIdentifyMemoryDevice
  grind [State.Leaves.next, State.Quiet.mbox, State.Quiet.rest]

theorem execGetHealthInfo_quiet (s : State) (ag : Agent) : s.Leaves (execGetHealthInfo ag s) := by
  have hs := State.Quiet.refl s
  unfold execGetHealthInfo
  grind [State.Leaves.next, State.Quiet.mbox]

theorem execGetPackageInfo_quiet (s : State) (ag : Agent) : s.Leaves (execGetPackageInfo ag s) := by
  have hs := State.Quiet.refl s
  unfold execGetPackageInfo
  grind [State.Leaves.next, State.Quiet.mbox]

theorem execGetChallenge_quiet (s : State) (ag : Agent) : s.Leaves (execGetChallenge ag s) := by
  have hs := State.Quiet.refl s
  unfold execGetChallenge
  grind [State.Leaves.next, State.Quiet.mbox, State.Quiet.draw, State.Quiet.rest]

theorem execNonceExpiry_quiet (s : State) : s.Leaves (execNonceExpiry s) := by
  have hs := State.Quiet.refl s
  unfold execNonceExpiry
  grind [State.Leaves.next, State.Quiet.rest]

theorem execLockDebug_quiet (s : State) (ag : Agent) : s.Leaves (execLockDebug ag s) := by
  have hs := State.Quiet.refl s
  unfold execLockDebug
  grind [State.Leaves.next, State.Quiet.mbox, State.Quiet.endDebug]

theorem execGetSecurityState_quiet (s : State) (ag : Agent) : s.Leaves (execGetSecurityState ag s) := by
  have hs := State.Quiet.refl s
  unfold execGetSecurityState
  grind [State.Leaves.next, State.Quiet.mbox]

theorem execDebugSessionExpiry_quiet (s : State) : s.Leaves (execDebugSessionExpiry s) := by
  have hs := State.Quiet.refl s
  unfold execDebugSessionExpiry
  grind [State.Leaves.next, State.Quiet.endDebug]

theorem execSpdmGetMeasurements_quiet (s : State) (ag : Agent) : s.Leaves (execSpdmGetMeasurements ag s) := by
  have hs := State.Quiet.refl s
  unfold execSpdmGetMeasurements
  grind [State.Leaves.next, State.Quiet.spdm]

theorem execSpdmKeyExchange_quiet (s : State) (ag : Agent) : s.Leaves (execSpdmKeyExchange ag s) := by
  have hs := State.Quiet.refl s
  unfold execSpdmKeyExchange
  grind [State.Leaves.next, State.Quiet.spdm, State.Quiet.syncSessions, State.Quiet.addSession]

theorem execPwrGoodAssert_quiet (s : State) : s.Leaves (execPwrGoodAssert s) := by
  have hs := State.Quiet.refl s
  unfold execPwrGoodAssert
  grind [State.Leaves.next, State.Quiet.rest]

theorem execCxlIdeKeyManagement_quiet (s : State) : s.Leaves (execCxlIdeKeyManagement s) := by
  have hs := State.Quiet.refl s
  unfold execCxlIdeKeyManagement
  grind [State.Leaves.next, State.Quiet.setFlag]

theorem execGetEventRecords_quiet (s : State) (ag : Agent) (log : Fin 4) : s.Leaves (execGetEventRecords ag log s) := by
  have hs := State.Quiet.refl s
  unfold execGetEventRecords
  grind [State.Leaves.next, State.Quiet.mbox, State.Quiet.draw]

theorem execClearEventRecords_quiet (s : State) (ag : Agent) (log : Fin 4) (handles : Option (List ℕ)) :
    s.Leaves (execClearEventRecords ag log handles s) := by
  have hs := State.Quiet.refl s
  unfold execClearEventRecords
  grind [State.Leaves.next, State.Quiet.mbox, State.Quiet.rest]

theorem execSetEventInterruptPolicy_quiet (s : State) (ag : Agent) (info warn fail fatal : ℕ) :
    s.Leaves (execSetEventInterruptPolicy ag info warn fail fatal s) := by
  have hs := State.Quiet.refl s
  unfold execSetEventInterruptPolicy
  grind [State.Leaves.next, State.Quiet.mbox, State.Quiet.rest, State.Quiet.foldl]

theorem execSetTimestamp_quiet (s : State) (ag : Agent) (val : W64) : s.Leaves (execSetTimestamp ag val s) := by
  have hs := State.Quiet.refl s
  unfold execSetTimestamp
  grind [State.Leaves.next, State.Quiet.mbox, State.Quiet.rest]

theorem execTransferFw_quiet (s : State) (ag : Agent) (slot : Fin 2) (image : Image) :
    s.Leaves (execTransferFw ag slot image s) := by
  have hs := State.Quiet.refl s
  unfold execTransferFw
  grind [State.Leaves.next, State.Quiet.mbox, State.Quiet.background]

theorem execGetFaultLog_quiet (s : State) (ag : Agent) (p : ℕ) : s.Leaves (execGetFaultLog ag p s) := by
  have hs := State.Quiet.refl s
  unfold execGetFaultLog
  grind [State.Leaves.next, State.Quiet.mbox, State.Quiet.rest]

theorem execGetRepairRecord_quiet (s : State) (ag : Agent) (stack : Fin 8) (first : ℕ) :
    s.Leaves (execGetRepairRecord ag stack first s) := by
  have hs := State.Quiet.refl s
  unfold execGetRepairRecord
  grind [State.Leaves.next, State.Quiet.mbox]

theorem execSealBlob_quiet (s : State) (ag : Agent) (label data : List Byte) : s.Leaves (execSealBlob ag label data s) := by
  have hs := State.Quiet.refl s
  unfold execSealBlob
  grind [State.Leaves.next, State.Quiet.mbox, State.Quiet.sealAnswer, State.Quiet.draw]

theorem execUnsealBlob_quiet (s : State) (ag : Agent) (blob : List Byte) : s.Leaves (execUnsealBlob ag blob s) := by
  have hs := State.Quiet.refl s
  unfold execUnsealBlob
  grind [State.Leaves.next, State.Quiet.mbox, State.Quiet.sealAnswer]

theorem execCapSample_quiet (s : State) (power : ℕ) : s.Leaves (execCapSample power s) := by
  have hs := State.Quiet.refl s
  unfold execCapSample
  grind [State.Leaves.next, State.Quiet.setFld, State.Quiet.syncCapped, State.Quiet.steps, State.Quiet.event, State.Quiet.setFlag]

theorem execDieTempSample_quiet (s : State) (die : Fin 4) (temp : BitVec 8) : s.Leaves (execDieTempSample die temp s) := by
  have hs := State.Quiet.refl s
  unfold execDieTempSample
  grind [State.Leaves.next, State.Quiet.setFld, State.Quiet.setFlag, State.Quiet.rest]

theorem execInputRangeChange_quiet (s : State) (volts : ℕ) : s.Leaves (execInputRangeChange volts s) := by
  have hs := State.Quiet.refl s
  unfold execInputRangeChange
  grind [State.Leaves.next, State.Quiet.setFlag, State.Quiet.setFld, State.Quiet.event]

theorem execIdleWakeDone_quiet (s : State) (u : GatedUnit) : s.Leaves (execIdleWakeDone u s) := by
  have hs := State.Quiet.refl s
  unfold execIdleWakeDone
  grind [State.Leaves.next, State.Quiet.setFlag, State.Quiet.setFld, State.Quiet.rest]

theorem execHdmDecoderCommit_quiet (s : State) (base size : ℕ) : s.Leaves (execHdmDecoderCommit base size s) := by
  have hs := State.Quiet.refl s
  unfold execHdmDecoderCommit
  grind [State.Leaves.next, State.Quiet.setFlag, State.Quiet.rest]

theorem execRekey_quiet (s : State) (p : Fin 16) (tx : Bool) : s.Leaves (execRekey p tx s) := by
  have hs := State.Quiet.refl s
  unfold execRekey
  grind [State.Leaves.next, State.Quiet.modPort, State.Quiet.rest]

theorem execHazelWarn_quiet (s : State) (gid : ℕ) (boundary : Bool) (seq child : ℕ) :
    s.Leaves (execHazelWarn gid boundary seq child s) := by
  have hs := State.Quiet.refl s
  unfold execHazelWarn
  grind [State.Leaves.next, State.Quiet.event, State.Quiet.hzPut, State.Quiet.rest]

/-- A field command of an agent that does not reach the registers has no effect. -/
theorem State.agentWrite_down {s : State} {ag : Agent} (h : s.agentUp ag = false) (p off width val : Nat) : s.agentWrite ag p off width val = s := by
  simp [State.agentWrite, h]

/-- A command that is a write of one field leaves alone what the field's action leaves alone. -/
theorem State.Leaves.field {s u : State} {ag : Agent} {c : Instr} {p off width val : Nat}
    (hc : exec c s = .next (s.agentWrite ag p off width val)) (hu : s.agentUp ag = true → exec c s = .next u) (h : s.Quiet u) :
    s.Leaves (exec c s) := by
  cases hag : s.agentUp ag with
  | false => rw [hc, State.agentWrite_down hag]; exact .next (.refl s)
  | true => rw [hu hag]; exact .next h

section OneField
variable (s : State) (ag : Agent)

theorem clrFail_quiet : s.Leaves (exec (.clrFail ag) s) := .field rfl exec_clrFail ((State.Quiet.refl s).clrFailWrite)

theorem faultClr_quiet : s.Leaves (exec (.faultClr ag) s) := .field rfl exec_faultClr (((State.Quiet.refl s).injEn _).faultClr)

theorem injEnWrite_quiet (v : Bool) : s.Leaves (exec (.injEnWrite ag v) s) :=
  .field rfl (fun h => exec_injEnWrite h v) ((State.Quiet.refl s).injEn _)

theorem capWWrite_quiet (v : W32) : s.Leaves (exec (.capWWrite ag v) s) :=
  .field rfl (fun h => exec_capWWrite h v) (by split; exacts [(State.Quiet.refl s).setFld _ _, .refl s])

theorem ewSplitWrite_quiet (g : Fin 256) (v : Fin 4) : s.Leaves (exec (.ewSplitWrite ag g v) s) :=
  .field rfl (fun h => exec_ewSplitWrite h g v) (by split; exacts [(State.Quiet.refl s).setFld _ _, .refl s])

theorem tempPeakClr_quiet (st : Fin 8) : s.Leaves (exec (.tempPeakClr ag st) s) :=
  .field rfl (fun h => exec_tempPeakClr h st) ((State.Quiet.refl s).setFld _ _)

theorem combPeakClr_quiet (st : Fin 8) : s.Leaves (exec (.combPeakClr ag st) s) :=
  .field rfl (fun h => exec_combPeakClr h st) ((State.Quiet.refl s).setFld _ _)

theorem ctxPeakClr_quiet : s.Leaves (exec (.ctxPeakClr ag) s) := .field rfl exec_ctxPeakClr ((State.Quiet.refl s).setFld _ _)

/-- An assertion that is coalesced only counts (R417). -/
theorem preemptN_quiet : s.Leaves (exec (.preemptN true) s) := by
  show s.Leaves (.next (if s.pwr.mode = .off then s else s.addSat fPwr_PREEMPT_COAL 1))
  exact .next (by split; exacts [.refl s, (State.Quiet.refl s).addSat _ _])

theorem safeStopN_quiet : s.Leaves (exec (.safeStopN true) s) := by
  show s.Leaves (.next (if s.pwr.mode = .off then s else s.addSat fPwr_SAFE_COAL 1))
  exact .next (by split; exacts [.refl s, (State.Quiet.refl s).addSat _ _])

end OneField

/-- The commands of O58 without operands other than the agent. -/
theorem plainCommands_quiet (s : State) (ag : Agent) {c : Instr}
    (hc : c ∈ [Instr.clrFail ag, .faultClr ag, .getEventInterruptPolicy ag, .getFwInfo ag, .getTimestamp ag, .getSupportedLogs ag, .getLog ag,
      .identifyMemoryDevice ag, .getHealthInfo ag, .getPackageInfo ag, .getChallenge ag, .nonceExpiry, .lockDebug ag, .getSecurityState ag,
      .debugSessionExpiry, .spdmGetMeasurements ag, .spdmKeyExchange ag, .trstN, .pwrGoodAssert, .cxlIdeKeyManagement, .preemptN true,
      .safeStopN true, .ctxPeakClr ag]) : s.Leaves (exec c s) := by
  simp only [List.mem_cons, List.not_mem_nil, or_false] at hc
  rcases hc with rfl | rfl | rfl | rfl | rfl | rfl | rfl | rfl | rfl | rfl | rfl | rfl | rfl | rfl | rfl | rfl | rfl | rfl | rfl | rfl | rfl | rfl | rfl
  · exact clrFail_quiet s ag
  · exact faultClr_quiet s ag
  · exact execGetEventInterruptPolicy_quiet s ag
  · exact execGetFwInfo_quiet s ag
  · exact execGetTimestamp_quiet s ag
  · exact execGetSupportedLogs_quiet s ag
  · exact execGetLog_quiet s ag
  · exact execIdentifyMemoryDevice_quiet s ag
  · exact execGetHealthInfo_quiet s ag
  · exact execGetPackageInfo_quiet s ag
  · exact execGetChallenge_quiet s ag
  · exact execNonceExpiry_quiet s
  · exact execLockDebug_quiet s ag
  · exact execGetSecurityState_quiet s ag
  · exact execDebugSessionExpiry_quiet s
  · exact execSpdmGetMeasurements_quiet s ag
  · exact execSpdmKeyExchange_quiet s ag
  · exact .next (.refl s)
  · exact execPwrGoodAssert_quiet s
  · exact execCxlIdeKeyManagement_quiet s
  · exact preemptN_quiet s
  · exact safeStopN_quiet s
  · exact ctxPeakClr_quiet s ag

/-- Settles O58: each command leaves memory, threads, engines and remote requests alone. -/
theorem controlCommandsLeaveMemoryAndThreadsAlone : Obligations.ControlCommandsLeaveMemoryAndThreadsAlone := by
  intro s u ag c hc hu
  suffices h : s.Leaves (exec c s) by
    obtain ⟨h1, h2, h3, h4, h5, h6⟩ := h u hu
    exact ⟨h1, h2, h3, h4, h5, h6⟩
  rcases hc with hc | ⟨hw, rfl⟩ | ⟨v, rfl⟩ | ⟨v, rfl⟩ | ⟨st, rfl⟩ | ⟨st, rfl⟩ | ⟨g, v, rfl⟩ | ⟨log, rfl⟩ | ⟨log, hs, rfl⟩ | ⟨a, b, d, e, rfl⟩ |
    ⟨v, rfl⟩ | ⟨sl, x, rfl⟩ | ⟨p, rfl⟩ | ⟨st, n, rfl⟩ | ⟨l, d, rfl⟩ | ⟨b, rfl⟩ | ⟨p, rfl⟩ | ⟨d, v, rfl⟩ | ⟨v, rfl⟩ | ⟨x, rfl⟩ | ⟨x, rfl⟩ |
    ⟨b, z, rfl⟩ | ⟨p, tx, rfl⟩ | ⟨g, b, q, k, rfl⟩
  · exact plainCommands_quiet s ag hc
  · exact .next ((State.Quiet.refl s).commitDone hw)
  · exact capWWrite_quiet s ag v
  · exact injEnWrite_quiet s ag v
  · exact tempPeakClr_quiet s ag st
  · exact combPeakClr_quiet s ag st
  · exact ewSplitWrite_quiet s ag g v
  · exact execGetEventRecords_quiet s ag log
  · exact execClearEventRecords_quiet s ag log hs
  · exact execSetEventInterruptPolicy_quiet s ag a b d e
  · exact execSetTimestamp_quiet s ag v
  · exact execTransferFw_quiet s ag sl x
  · exact execGetFaultLog_quiet s ag p
  · exact execGetRepairRecord_quiet s ag st n
  · exact execSealBlob_quiet s ag l d
  · exact execUnsealBlob_quiet s ag b
  · exact execCapSample_quiet s p
  · exact execDieTempSample_quiet s d v
  · exact execInputRangeChange_quiet s v
  · exact .next (.refl s)
  · exact execIdleWakeDone_quiet s x
  · exact execHdmDecoderCommit_quiet s b z
  · exact execRekey_quiet s p tx
  · exact execHazelWarn_quiet s g b q k
end Sys2Proof.Machine
end

section
/-! Reads of registers and the fields kept in the persistent store (R9, R437, R442, R446 to R448): what a read answers, what a write of a
persistent field begins, and what its commit leaves. -/
namespace Sys2Proof.Machine

/-! ### Reads of registers -/

theorem State.readCell_frame (s : State) (p c : Nat) :
    (s.readCell p c).2.regs = s.regs ∧ (s.readCell p c).2.answers = s.answers ∧ (s.readCell p c).2.latch = s.latch := by
  unfold State.readCell
  split
  · exact ⟨rfl, rfl, rfl⟩
  · dsimp only
    split <;> exact ⟨rfl, rfl, rfl⟩

theorem State.regRead_frame (s : State) (ag : Agent) (p off width : Nat) :
    (s.regRead ag p off width).2.regs = s.regs ∧ (s.regRead ag p off width).2.answers = s.answers := by
  obtain ⟨hr, ha, -⟩ := s.readCell_frame p (off / 8)
  simp only [State.regRead]
  split
  · exact ⟨rfl, rfl⟩
  · split
    · exact ⟨hr, ha⟩
    · split
      · exact ⟨hr, ha⟩
      · split
        · exact ⟨rfl, rfl⟩
        · exact ⟨hr, ha⟩

/-- The time counters of the header have no other bits (Table 19.2). -/
theorem counter_masks (p : Fin 512) : pageBlk p ≠ none → ∀ c ∈ [5, 6], cellMask p c (fun f => f.acc == .timed) = 2 ^ 64 - 1 ∧
    cellMask p c RegF.plain = 0 := by
  revert p
  decide +kernel

/-- A time counter's value (R442). -/
theorem State.readCell_counter (s : State) {p c : Nat} {b : Blk × Nat} (hp : pageBlk p = some b) (hc : c ∈ [5, 6]) :
    s.readCell p c = ((Config.timed s.fresh).toNat, s.draw.2) := by
  obtain ⟨ht, hm⟩ := counter_masks ⟨p, pageBlk_lt hp⟩ (by simp [hp]) c hc
  have h12 : c ≠ 12 := by rintro rfl; simp at hc
  rw [State.readCell, if_neg (by simp [h12])]
  simp only [ht, hm, Nat.and_zero, Nat.zero_or, Nat.and_two_pow_sub_one_eq_mod]
  rw [if_neg (by decide), Nat.mod_eq_of_lt (BitVec.isLt _)]

/-- A 4-byte read of a counter's low half latches the high half; the agent's next read of the high half gives it. -/
theorem exec_timeCounterLowRead {s : State} {ag : Agent} {p : Nat} {b : Blk × Nat} (sat : Bool) (hag : s.agentUp ag = true)
    (hp : pageBlk p = some b) :
    Completes (.timeCounterLowRead ag p sat) s fun u => u.regs = s.regs ∧
      u.answers = .value (BitVec.ofNat 64 ((Config.timed s.fresh).toNat % 2 ^ 32)) :: s.answers ∧
      (u.regRead ag p (if sat then 0x34 else 0x2C) 4).1 = (Config.timed s.fresh).toNat / 2 ^ 32 := by
  have hlow : ∀ off ∈ [0x28, 0x30], s.regRead ag p off 4 = ((Config.timed s.fresh).toNat % 2 ^ 32, { s.draw.2 with
      latch := tabIns (tabDel s.latch (latchKey ag p off)) (latchKey ag p off) (BitVec.ofNat 32 ((Config.timed s.fresh).toNat / 2 ^ 32)) }) := by
    intro off ho
    have hc : off / 8 ∈ [5, 6] := by
      simp only [List.mem_cons, List.not_mem_nil, or_false] at ho ⊢
      omega
    have ho' : off = 0x28 ∨ off = 0x30 := by simpa using ho
    simp only [State.regRead, hp, Option.isNone_some, Bool.false_eq_true, if_false, s.readCell_counter hp hc, ho', if_true]
    rfl
  have hhigh : ∀ (u : State) off, off ∈ [0x28, 0x30] → tabFind u.latch (latchKey ag p off) =
      some (BitVec.ofNat 32 ((Config.timed s.fresh).toNat / 2 ^ 32)) →
      (u.regRead ag p (off + 4) 4).1 = (Config.timed s.fresh).toNat / 2 ^ 32 := by
    intro u off ho hl
    have hk : latchKey ag p (off + 4) = latchKey ag p off := by
      simp only [List.mem_cons, List.not_mem_nil, or_false] at ho
      rcases ho with rfl | rfl <;> rfl
    have h1 : ¬(off + 4 = 0x28 ∨ off + 4 = 0x30) := by
      simp only [List.mem_cons, List.not_mem_nil, or_false] at ho; omega
    have h2 : off + 4 = 0x2C ∨ off + 4 = 0x34 := by
      simp only [List.mem_cons, List.not_mem_nil, or_false] at ho; omega
    have hlt : (Config.timed s.fresh).toNat / 2 ^ 32 < 2 ^ 32 := by have := (Config.timed s.fresh).isLt; omega
    simp only [State.regRead, hp, Option.isNone_some, Bool.false_eq_true, if_false, h1, h2, if_true, hk, hl, BitVec.toNat_ofNat]
    rw [if_neg (by decide)]
    exact Nat.mod_eq_of_lt hlt
  have hlatch : ∀ off : Nat, tabFind (tabIns (tabDel s.latch (latchKey ag p off)) (latchKey ag p off)
      (BitVec.ofNat 32 ((Config.timed s.fresh).toNat / 2 ^ 32))) (latchKey ag p off) =
      some (BitVec.ofNat 32 ((Config.timed s.fresh).toNat / 2 ^ 32)) := fun off => tabFind_ins_same _ _ _ (tabFind_del_same _ _)
  refine ⟨_, show execTimeCounterLowRead ag p sat s = _ by rw [execTimeCounterLowRead, if_pos hag], ?_⟩
  cases sat with
  | false =>
    simp only [Bool.false_eq_true, if_false, hlow 0x28 (by simp)]
    exact ⟨rfl, rfl, hhigh _ 0x28 (by simp) (hlatch _)⟩
  | true =>
    simp only [if_true, hlow 0x30 (by simp)]
    exact ⟨rfl, rfl, hhigh _ 0x30 (by simp) (hlatch _)⟩

/-- A cell without measured fields reads its readable fields. -/
theorem State.readCell_plain {s : State} {p c : Nat} (ht : cellMask p c (fun f => f.acc == .timed) = 0) (hc : ¬(p = 0 ∧ c = 12)) :
    s.readCell p c = (s.shown p c &&& cellMask p c RegF.plain, s) := by
  simp only [State.readCell, if_neg hc, ht, if_true]

section Mailbox
variable {s : State} (hm : s.pwr.mctp = true)
include hm

theorem exec_readRegister {p off width : Nat} (ha : regAligned off width = true) (hp : p < 0x1000) (ho : off < 0x1000) :
    exec (.readRegister p off width) s =
      .next ((s.regRead .bmc p off width).2.answer (.code 0 (natLE 8 (s.regRead .bmc p off width).1))) := by
  show Host.Outcome.next (s.mbox .bmc _) = _
  rw [State.mbox, if_pos (show s.mboxUp .bmc = true from hm), if_pos ⟨ha, hp, ho⟩]
  rfl

theorem exec_readRegister_misaligned {p off width : Nat} (ha : regAligned off width = false) :
    exec (.readRegister p off width) s = .next (s.answer (.code 2 [])) := by
  show Host.Outcome.next (s.mbox .bmc _) = _
  rw [State.mbox, if_pos (show s.mboxUp .bmc = true from hm), if_neg (by simp [ha])]
  rfl

theorem exec_writeRegister_misaligned {p off width : Nat} (ha : regAligned off width = false) (val : W64) :
    exec (.writeRegister p off width val) s = .next (s.answer (.code 2 [])) := by
  show execWriteRegister p off width val s = _
  rw [execWriteRegister, if_neg (by simp [State.mboxUp, hm]), if_neg (by simp [ha])]
  rfl

section Aligned
variable {p off width : Nat} (ha : regAligned off width = true) (hp : p < 0x1000) (ho : off < 0x1000) (val : W64)
include ha hp ho

theorem exec_writeRegister_answered (hc : (s.regWrite .bmc p off width val.toNat).pst.commits ≤ s.pst.commits) :
    exec (.writeRegister p off width val) s = .next ((s.regWrite .bmc p off width val.toNat).answer (.code 0 [])) := by
  show execWriteRegister p off width val s = _
  rw [execWriteRegister, if_neg (by simp [State.mboxUp, hm]), if_pos ⟨ha, hp, ho⟩, State.commitsSince, if_neg (by omega)]
  rfl

theorem exec_writeRegister_waits (hc : s.pst.commits < (s.regWrite .bmc p off width val.toNat).pst.commits) :
    exec (.writeRegister p off width val) s = .next { s.regWrite .bmc p off width val.toNat with
      pst := { (s.regWrite .bmc p off width val.toNat).pst with
        waits := (s.regWrite .bmc p off width val.toNat).pst.waits ++ [((s.regWrite .bmc p off width val.toNat).pst.commits, .command)] } } := by
  show execWriteRegister p off width val s = _
  rw [execWriteRegister, if_neg (by simp [State.mboxUp, hm]), if_pos ⟨ha, hp, ho⟩, State.commitsSince, if_pos hc]
  rfl

end Aligned
end Mailbox

/-- A page without a block reads zeros (R437). -/
theorem State.regRead_no_block {s : State} {ag : Agent} {p off width : Nat} (hp : pageBlk p = none) : (s.regRead ag p off width).1 = 0 := by
  simp [State.regRead, hp]

theorem State.regRead_whole {s : State} {ag : Agent} {p off : Nat} (hp : pageBlk p ≠ none) :
    (s.regRead ag p off 8).1 = (s.readCell p (off / 8)).1 := by
  have : (pageBlk p).isNone = false := by rwa [Option.isNone_eq_false_iff, Option.isSome_iff_ne_none]
  simp [State.regRead, this]

theorem State.plainWrite_regs (s : State) (b : Blk) (i : Nat) (w : Wr) : s.plainWrite b i w = { s with regs := (s.plainWrite b i w).regs } := by
  simp only [State.plainWrite]
  split <;> rfl

/-- Settles O4: reads answer what the page shows; a write through the mailbox is the write of the register. -/
theorem registerReadsAnswer : Obligations.RegisterReadsAnswer := by
  intro s
  refine ⟨fun ag p b i sat hag hp => ?_, fun hm p off width => ⟨fun ha hp ho val => ⟨⟨natLE 8 (s.regRead .bmc p off width).1, ?_⟩, fun hc => ?_, fun hc => ?_, fun b i hb hi h40 => ?_⟩,
    fun ha val => ⟨exec_readRegister_misaligned hm ha, exec_writeRegister_misaligned hm ha val⟩⟩⟩
  · have hv : s.readCell p (if sat then 6 else 5) = ((Config.timed s.fresh).toNat, s.draw.2) :=
      s.readCell_counter hp (by cases sat <;> simp)
    simp only [hv]
    exact exec_timeCounterLowRead sat hag hp
  · obtain ⟨hr, hans⟩ := s.regRead_frame .bmc p off width
    refine ⟨_, exec_readRegister hm ha hp ho, hr, congrArg (_ :: ·) hans, natLE_length 8 _, fun hn => ?_, fun ht hw hn h12 => ?_⟩
    · rw [State.regRead_no_block hn]; rfl
    · subst hw
      have h8 : off % 8 = 0 := by simpa [regAligned] using ha
      rw [State.regRead_whole hn, State.readCell_plain ht (by omega), leNat_natLE]
      rfl
  · exact exec_writeRegister_answered hm ha hp ho val hc
  · exact exec_writeRegister_waits hm ha hp ho val hc
  · have hw : s.regWrite .bmc p off width val.toNat = s.plainWrite b i (wrOf .bmc p off width val.toNat) := by
      rw [s.regWrite_eq .bmc off width _ hb, State.headActs_body _ _ _ (by simp [wrOf]; omega), State.blockActs_idle hi]
    have hu := s.plainWrite_regs b i (wrOf .bmc p off width val.toNat)
    have hpst : (s.plainWrite b i (wrOf .bmc p off width val.toNat)).pst = s.pst := by rw [hu]
    have hans : (s.plainWrite b i (wrOf .bmc p off width val.toNat)).answers = s.answers := by rw [hu]
    refine ⟨_, exec_writeRegister_answered hm ha hp ho val (by rw [hw, hpst]), ?_⟩
    rw [hw]
    refine ⟨congrArg (_ :: ·) hans, ?_, fun k hk => s.plainWrite_cell_ne b i _ hk,
      fun n hn => s.plainWrite_idle_bit .bmc width val hb hi h40 hn⟩
    rw [hu]
    rfl

/-! ### Fields kept in the persistent store -/

/-- The field of a register kept in the persistent store (Table 19.6). -/
def pstFld : Fin 4 → Fld
  | 0 => fPkg_PKG_ID
  | 1 => fPwr_CAP_DEF
  | 2 => fSnap_RSV_GIB
  | 3 => ⟨0x020, 0x44, 2, 0⟩

theorem pstFld_facts (idx : Fin 4) : (pstFld idx).page = (pstReg idx).1 ∧ (pstFld idx).off = (pstReg idx).2 ∧ 0 < (pstFld idx).w ∧
    (pstFld idx).lo + (pstFld idx).w ≤ 8 * 4 ∧ fPst_DENIED.apart (pstFld idx) = true ∧ fPst_BUSY.apart (pstFld idx) = true := by
  revert idx
  decide

theorem pstReg_facts (idx : Fin 4) : regAligned (pstReg idx).2 4 = true ∧ (pstReg idx).1 < 0x1000 ∧ (pstReg idx).2 < 0x1000 := by
  revert idx
  decide

section Registers
variable (s : State) (ag : Agent) (val : Nat)

theorem State.regWrite_pkgId : s.regWrite ag 0x000 0x40 4 val = s.pstWrite ag 0 (val / 2 ^ fPkg_PKG_ID.lo % 2 ^ fPkg_PKG_ID.w) := by
  have h0 := wrOf_get ag (f := fPkg_PKG_ID) (p := 0x000) (off := 0x40) (width := 4) (val := val) rfl rfl (by decide) (by decide) rfl
  rw [s.regWrite_eq ag 0x40 4 val (b := .pkg) (i := 0) (show pageBlk 0x000 = _ from rfl),
    s.plainWrite_none _ _ _ (State.setBits_no_rw (by decide +kernel)) (Wr.clrBits_no_w1c (by decide +kernel)),
    State.headActs_body _ _ _ (by simp [wrOf])]
  simp only [State.blockActs]
  exact State.on_some h0 _

theorem State.regWrite_capDef : s.regWrite ag 0x00E 0x44 4 val = s.pstWrite ag 1 (val / 2 ^ fPwr_CAP_DEF.lo % 2 ^ fPwr_CAP_DEF.w) := by
  have h0 := wrOf_get ag (f := fPwr_CAP_DEF) (p := 0x00E) (off := 0x44) (width := 4) (val := val) rfl rfl (by decide) (by decide) rfl
  have hno : ∀ f ∈ [fPwr_CAP_W, fPwr_TJ_THR, fPwr_RET_REQ, fPwr_RET_EXIT], (wrOf ag 0x00E 0x44 4 val).get f = none := by
    intro f hf
    exact wrOf_get_apart ag _ (by revert f; decide)
  rw [s.regWrite_eq ag 0x44 4 val (b := .pwr) (i := 0) (show pageBlk 0x00E = _ from rfl),
    s.plainWrite_none _ _ _ (State.setBits_no_rw (by decide +kernel)) (Wr.clrBits_no_w1c (by decide +kernel)),
    State.headActs_body _ _ _ (by simp [wrOf])]
  simp only [State.blockActs, State.onIf_none (hno fPwr_CAP_W (by simp)), State.onIf_none (hno fPwr_TJ_THR (by simp)),
    State.onSet_none (hno fPwr_RET_REQ (by simp)), State.onSet_none (hno fPwr_RET_EXIT (by simp))]
  exact State.on_some h0 _

theorem State.regWrite_rsvGib : s.regWrite ag 0x00D 0x54 4 val = s.pstWrite ag 2 (val / 2 ^ fSnap_RSV_GIB.lo % 2 ^ fSnap_RSV_GIB.w) := by
  have h0 := wrOf_get ag (f := fSnap_RSV_GIB) (p := 0x00D) (off := 0x54) (width := 4) (val := val) rfl rfl (by decide) (by decide) rfl
  have hno : ∀ f ∈ [fSnap_REQ, fSnap_CANCEL, fSnap_RELEASE, fSnap_RESTORE], (wrOf ag 0x00D 0x54 4 val).get f = none := by
    intro f hf
    exact wrOf_get_apart ag _ (by revert f; decide)
  rw [s.regWrite_eq ag 0x54 4 val (b := .snap) (i := 0) (show pageBlk 0x00D = _ from rfl),
    s.plainWrite_none _ _ _ (State.setBits_no_rw (by decide +kernel)) (Wr.clrBits_no_w1c (by decide +kernel)),
    State.headActs_body _ _ _ (by simp [wrOf])]
  simp only [State.blockActs, State.onSet_none (hno fSnap_REQ (by simp)), State.onSet_none (hno fSnap_CANCEL (by simp)),
    State.onSet_none (hno fSnap_RELEASE (by simp)), State.onSet_none (hno fSnap_RESTORE (by simp))]
  exact State.on_some h0 _

theorem State.regWrite_bootDef : s.regWrite ag 0x020 0x44 4 val = s.pstWrite ag 3 (val / 2 ^ (pstFld 3).lo % 2 ^ (pstFld 3).w) := by
  have h0 := wrOf_get ag (f := pstFld 3) (p := 0x020) (off := 0x44) (width := 4) (val := val) rfl rfl (by decide) (by decide) rfl
  have hno : (wrOf ag 0x020 0x44 4 val).get fBoot_CLR_FAIL = none := wrOf_get_apart ag _ (by decide)
  rw [s.regWrite_eq ag 0x44 4 val (b := .boot) (i := 0) (show pageBlk 0x020 = _ from rfl),
    s.plainWrite_none _ _ _ (State.setBits_no_rw (by decide +kernel)) (Wr.clrBits_no_w1c (by decide +kernel)),
    State.headActs_body _ _ _ (by simp [wrOf])]
  simp only [State.blockActs, State.onSet_none hno]
  exact State.on_some h0 _

/-- A write of a persistent register is the write of its field. -/
theorem State.regWrite_pst : ∀ idx : Fin 4,
    s.regWrite ag (pstReg idx).1 (pstReg idx).2 4 val = s.pstWrite ag idx (val / 2 ^ (pstFld idx).lo % 2 ^ (pstFld idx).w)
  | 0 => s.regWrite_pkgId ag val
  | 1 => s.regWrite_capDef ag val
  | 2 => s.regWrite_rsvGib ag val
  | 3 => s.regWrite_bootDef ag val

end Registers

theorem exec_persistentWrite {s : State} {ag : Agent} (hag : s.agentUp ag = true) (idx : Fin 4) (val : W32) :
    exec (.persistentWrite ag idx val) s = .next (s.pstWrite ag idx (val.toNat / 2 ^ (pstFld idx).lo % 2 ^ (pstFld idx).w)) := by
  show Host.Outcome.next (s.agentWrite ag (pstReg idx).1 (pstReg idx).2 4 val.toNat) = _
  rw [State.agentWrite_eq _ hag (by revert idx; decide) (by revert idx; decide), s.regWrite_pst ag _ idx]

/-- A write that begins a commit of an idle store (R446). -/
theorem State.pstWrite_begins {s : State} {ag : Agent} {i v : Nat} (hsrc : s.srcOk ag = true) (hv : pstValid i v = true)
    (hl : s.flag (fPcnt_LIMIT i) = false) (hb : s.pst.busy = none) :
    s.pstWrite ag i v = { s with pst := { s.pst with busy := some (i, v) } }.setFlag fPst_BUSY true := by
  simp [State.pstWrite, hsrc, hv, State.persist, hl, hb]

theorem State.pstWrite_denied {s : State} {ag : Agent} (hsrc : s.srcOk ag = false) (i v : Nat) : s.pstWrite ag i v = s.setFlag fPst_DENIED true := by
  simp [State.pstWrite, hsrc]

/-! What completing a thread's write changes: the thread, and nothing of the registers or the store. -/

theorem State.takeFault_frame (s : State) (t : Tid) (f : FaultArg) : (s.takeFault t f).regs = s.regs ∧ (s.takeFault t f).pst = s.pst := by
  unfold State.takeFault
  split
  · dsimp only
    split <;> exact ⟨rfl, rfl⟩
  · exact ⟨rfl, rfl⟩

theorem State.settle_done_frame (s : State) (t : Tid) (i : Instr) :
    (State.settle t i (.done s)).regs = s.regs ∧ (State.settle t i (.done s)).pst = s.pst := by
  simp only [State.settle]
  split
  · unfold State.stopNow
    split
    · exact State.takeFault_frame _ t _
    · exact ⟨rfl, rfl⟩
  · exact ⟨rfl, rfl⟩

theorem State.writeComplete_frame (s : State) (w : PWait) : (s.writeComplete w).regs = s.regs ∧ (s.writeComplete w).pst = s.pst := by
  cases w with
  | command => exact ⟨rfl, rfl⟩
  | thread t =>
    simp only [State.writeComplete]
    split
    · split
      · exact s.settle_done_frame t _
      · exact ⟨rfl, rfl⟩
    · exact ⟨rfl, rfl⟩

/-- The writes that end leave the registers and the store's values alone. -/
theorem State.writesDone_frame (s : State) (n : Nat) : (s.writesDone n).regs = s.regs ∧ (s.writesDone n).pst.busy = s.pst.busy ∧
    (s.writesDone n).pst.vals = s.pst.vals := by
  have fold : ∀ (l : List (Nat × PWait)) (t : State),
      (l.foldl (fun t w => t.writeComplete w.2) t).regs = t.regs ∧ (l.foldl (fun t w => t.writeComplete w.2) t).pst = t.pst := by
    intro l
    induction l with
    | nil => exact fun _ => ⟨rfl, rfl⟩
    | cons w l ih =>
      intro t
      obtain ⟨h1, h2⟩ := ih (t.writeComplete w.2)
      obtain ⟨h3, h4⟩ := t.writeComplete_frame w.2
      exact ⟨h1.trans h3, h2.trans h4⟩
  unfold State.writesDone
  obtain ⟨h1, h2⟩ := fold (s.pst.waits.filter fun w => decide (w.1 ≤ n))
    { s with pst := { s.pst with waits := (s.pst.waits.filter fun w => decide (n < w.1)).map fun w => (w.1 - n, w.2) } }
  exact ⟨h1, by rw [h2], by rw [h2]⟩

/-- The state in which a commit of an otherwise idle store has been shown and counted. -/
def State.committed (s : State) (i v : Nat) : State :=
  ((({ s with pst := { s.pst with vals := tabSet pstZero s.pst.vals i v, busy := none, lost := s.pst.lost.filter (· != i) } }.showPst i v).countPst
    i).inc fPst_COMMITS).setFld fPst_LAST_IDX i

theorem State.committed_pst (s : State) (i v : Nat) :
    (s.committed i v).pst = { s.pst with vals := tabSet pstZero s.pst.vals i v, busy := none, lost := s.pst.lost.filter (· != i) } := by
  simp only [State.committed, State.setFld_pst, State.inc_pst, State.countPst_pst, State.showPst_pst]

theorem State.commitDone_eq {s : State} {i v : Nat} (hb : s.pst.busy = some (i, v)) :
    s.commitDone =
      (let left := (s.committed i v).pst.queue.dropWhile fun e => (s.committed i v).flag (fPcnt_LIMIT e.1)
      (({ s.committed i v with pst := { (s.committed i v).pst with busy := left.head?, queue := left.tail } }).setFlag fPst_BUSY
        left.head?.isSome).writesDone (1 + (s.committed i v).pst.queue.length - left.length)) := by
  simp only [State.commitDone, State.committed, hb]

/-- A commit of an otherwise idle store. -/
theorem State.commitDone_alone {s : State} {i v : Nat} (hb : s.pst.busy = some (i, v)) (hq : s.pst.queue = []) :
    s.commitDone = ({ s.committed i v with pst := { (s.committed i v).pst with busy := none, queue := [] } }.setFlag fPst_BUSY false).writesDone 1 := by
  have hp : (s.committed i v).pst.queue = [] := by rw [s.committed_pst, ← hq]
  simp only [State.commitDone_eq hb, hp, List.dropWhile_nil, List.head?_nil, List.tail_nil, Option.isSome_none, List.length_nil, Nat.add_zero,
    Nat.sub_zero]

/-- The fields that the count of a register's writes can change. -/
def cntFlds (i : Nat) : List Fld := [fPcnt i, fPcnt_NEAR i, fPcnt_LIMIT i, fPst_NEAR_ANY, fPst_LIMIT_ANY]

theorem cntFlds_ok {i : Nat} (hi : i < 3) : ∀ f ∈ cntFlds i, f.ok = true := by
  revert i
  decide

theorem State.countPst_fld {s : State} {i : Nat} (hi : i < 3) {g : Fld} (h : ∀ f ∈ cntFlds i, f.apart g = true) :
    (s.countPst i).fld g = s.fld g := by
  have hok := cntFlds_ok hi
  simp only [cntFlds, List.forall_mem_cons, List.not_mem_nil, false_implies, implies_true, and_true] at h hok
  obtain ⟨h1, h2, h3, h4, h5⟩ := h
  obtain ⟨o1, o2, o3, o4, o5⟩ := hok
  unfold State.countPst
  dsimp only
  split
  · rw [State.fld_congr (State.event_regs ..), State.fld_setFlag_apart _ _ o4 h4, State.fld_setFlag_apart _ _ o2 h2, State.fld_setFld_apart _ _ o1 h1]
  · split
    · rw [State.fld_congr (State.event_regs ..), State.fld_setFlag_apart _ _ o5 h5, State.fld_setFlag_apart _ _ o3 h3,
        State.fld_setFld_apart _ _ o1 h1]
    · exact State.fld_setFld_apart _ _ o1 h1

theorem fPcnt_apart {i : Nat} (hi : i < 3) : (∀ f ∈ (cntFlds i).tail, f.apart (fPcnt i) = true) ∧
    (∀ f ∈ cntFlds i, f ≠ fPcnt_LIMIT i → f.apart (fPcnt_LIMIT i) = true) ∧ (fPcnt i).w = 32 ∧ (fPcnt_LIMIT i).w = 1 := by
  revert i
  decide

/-- A register's count of writes rises by one (R448). -/
theorem State.countPst_count (s : State) {i : Nat} (hi : i < 3) : (s.countPst i).fld (fPcnt i) = (s.fld (fPcnt i) + 1) % 2 ^ 32 := by
  have hok := cntFlds_ok hi
  obtain ⟨ha, -, hw, -⟩ := fPcnt_apart hi
  simp only [cntFlds, List.tail_cons, List.forall_mem_cons, List.not_mem_nil, false_implies, implies_true, and_true] at ha hok
  obtain ⟨h2, h3, h4, h5⟩ := ha
  obtain ⟨o1, o2, o3, o4, o5⟩ := hok
  have h1 := s.fld_setFld_same (s.fld (fPcnt i) + 1) o1
  rw [hw] at h1
  unfold State.countPst
  dsimp only
  split
  · rw [State.fld_congr (State.event_regs ..), State.fld_setFlag_apart _ _ o4 h4, State.fld_setFlag_apart _ _ o2 h2, h1]
  · split
    · rw [State.fld_congr (State.event_regs ..), State.fld_setFlag_apart _ _ o5 h5, State.fld_setFlag_apart _ _ o3 h3, h1]
    · exact h1

/-- LIMIT is set with the 100,000th write (R448). -/
theorem State.countPst_limit (s : State) {i : Nat} (hi : i < 3) :
    (s.countPst i).flag (fPcnt_LIMIT i) = true ↔ s.flag (fPcnt_LIMIT i) = true ∨ s.fld (fPcnt i) + 1 = 100000 := by
  have hok := cntFlds_ok hi
  obtain ⟨-, ha, -, hw⟩ := fPcnt_apart hi
  have hne : ∀ f ∈ [fPcnt i, fPcnt_NEAR i, fPst_NEAR_ANY, fPst_LIMIT_ANY], f ≠ fPcnt_LIMIT i := by
    revert i
    decide
  simp only [cntFlds, List.forall_mem_cons, List.not_mem_nil, false_implies, implies_true, and_true] at ha hok hne
  obtain ⟨h1, h2, -, h4, h5⟩ := ha
  obtain ⟨n1, n2, n4, n5⟩ := hne
  obtain ⟨o1, o2, o3, o4, o5⟩ := hok
  have h0 : (s.setFld (fPcnt i) (s.fld (fPcnt i) + 1)).flag (fPcnt_LIMIT i) = s.flag (fPcnt_LIMIT i) := by
    rw [State.flag, State.fld_setFld_apart _ _ o1 (h1 n1), State.flag]
  unfold State.countPst
  dsimp only
  split
  next h =>
    rw [State.flag_congr (State.event_regs ..), State.flag_setFlag_apart _ _ o4 (h4 n4), State.flag_setFlag_apart _ _ o2 (h2 n2), h0]
    simp [h]
  next =>
    split
    next h =>
      rw [State.flag_congr (State.event_regs ..), State.flag_setFlag_apart _ _ o5 (h5 n5), State.flag_setFlag_same _ _ o3 hw]
      simp [h]
    next h =>
      rw [h0]
      simp [h]

theorem State.countPst_answers (s : State) {i : Nat} (h9 : s.fld (fPcnt i) + 1 ≠ 90000) (h10 : s.fld (fPcnt i) + 1 ≠ 100000) :
    (s.countPst i).answers = s.answers := by
  simp only [State.countPst, if_neg h9, if_neg h10, State.setFld_answers]

/-- The persistent field of a register as a commit shows it. -/
theorem State.showPst_fld (s : State) {i : Fin 4} (hi : i.val < 3) (v : Nat) :
    (s.showPst i v) = s.setFld (pstFld i) v := by
  match i with
  | 0 => rfl
  | 1 => rfl
  | 2 => rfl
  | 3 => exact absurd hi (by decide)

theorem pstFld_apart {i : Fin 4} (hi : i.val < 3) : (pstFld i).ok = true ∧ (∀ f ∈ fPst_COMMITS :: cntFlds i, (pstFld i).apart f = true) ∧
    (∀ f ∈ fPst_BUSY :: fPst_LAST_IDX :: fPst_COMMITS :: cntFlds i, f.apart (pstFld i) = true) := by
  revert i
  decide

theorem storeFlds_apart {i : Nat} (hi : i < 3) : (∀ f ∈ cntFlds i, f.apart fPst_COMMITS = true) ∧
    (∀ f ∈ [fPst_BUSY, fPst_LAST_IDX, fPst_COMMITS], f.apart (fPcnt i) = true ∧ f.apart (fPcnt_LIMIT i) = true) := by
  revert i
  decide

/-- What a commit leaves of the store's registers (R446 to R448). -/
theorem State.committed_fields (s : State) {i : Fin 4} (hi : i.val < 3) (v : Nat) :
    (s.committed i v).fld (fPcnt i) = (s.fld (fPcnt i) + 1) % 2 ^ 32 ∧
    (s.committed i v).fld fPst_COMMITS = (s.fld fPst_COMMITS + 1) % 2 ^ 64 ∧ (s.committed i v).fld fPst_LAST_IDX = i ∧
    (s.committed i v).fld (pstFld i) = v % 2 ^ (pstFld i).w ∧
    ((s.committed i v).flag (fPcnt_LIMIT i) = true ↔ s.flag (fPcnt_LIMIT i) = true ∨ s.fld (fPcnt i) + 1 = 100000) := by
  obtain ⟨ok, hto, hfrom⟩ := pstFld_apart hi
  obtain ⟨hcc, hst⟩ := storeFlds_apart hi
  simp only [List.forall_mem_cons, List.not_mem_nil, false_implies, implies_true, and_true] at hst
  obtain ⟨-, ⟨hl1, hl2⟩, hc1, hc2⟩ := hst
  rw [List.forall_mem_cons] at hto
  obtain ⟨htoC, htoN⟩ := hto
  simp only [List.forall_mem_cons] at hfrom
  obtain ⟨-, hfL, hfC, hfN⟩ := hfrom
  simp only [State.committed, State.showPst_fld _ hi]
  generalize hs1 : { s with pst := { s.pst with vals := tabSet pstZero s.pst.vals i v, busy := none, lost := s.pst.lost.filter (· != i.val) } } = s1
  have hreg : s1.regs = s.regs := by rw [← hs1]
  have cnt : fPcnt i ∈ cntFlds i := by simp [cntFlds]
  have lim : fPcnt_LIMIT i ∈ cntFlds i := by simp [cntFlds]
  refine ⟨?_, ?_, ?_, ?_, ?_⟩
  · rw [State.fld_setFld_apart (f := fPst_LAST_IDX) _ _ rfl hl1, State.inc, State.fld_setFld_apart (f := fPst_COMMITS) _ _ rfl hc1,
      State.countPst_count _ hi, State.fld_setFld_apart _ _ ok (htoN _ cnt), State.fld_congr hreg]
  · rw [State.fld_setFld_apart (f := fPst_LAST_IDX) _ _ rfl (by decide), State.inc, State.fld_setFld_same (f := fPst_COMMITS) _ _ rfl,
      State.countPst_fld hi hcc, State.fld_setFld_apart _ _ ok htoC, State.fld_congr hreg]
    rfl
  · exact State.fld_setFld_fits (f := fPst_LAST_IDX) _ rfl (lt_of_lt_of_le hi (by decide))
  · rw [State.fld_setFld_apart (f := fPst_LAST_IDX) _ _ rfl hfL, State.inc, State.fld_setFld_apart (f := fPst_COMMITS) _ _ rfl hfC,
      State.countPst_fld hi hfN, State.fld_setFld_same _ _ ok]
  · have hfl : ((((s1.setFld (pstFld i) v).countPst i).inc fPst_COMMITS).setFld fPst_LAST_IDX i).flag (fPcnt_LIMIT i) =
        ((s1.setFld (pstFld i) v).countPst i).flag (fPcnt_LIMIT i) := by
      rw [State.flag, State.fld_setFld_apart (f := fPst_LAST_IDX) _ _ rfl hl2, State.inc, State.fld_setFld_apart (f := fPst_COMMITS) _ _ rfl hc2, State.flag]
    rw [hfl, State.countPst_limit _ hi, State.flag, State.fld_setFld_apart _ _ ok (htoN _ lim), State.fld_setFld_apart _ _ ok (htoN _ cnt),
      State.fld_congr hreg, State.fld_congr hreg, State.flag]

theorem State.committed_answers (s : State) {i : Fin 4} (hi : i.val < 3) (v : Nat) (h9 : s.fld (fPcnt i) + 1 ≠ 90000)
    (h10 : s.fld (fPcnt i) + 1 ≠ 100000) : (s.committed i v).answers = s.answers := by
  obtain ⟨ok, hto, -⟩ := pstFld_apart hi
  have hcnt : fPcnt i ∈ fPst_COMMITS :: cntFlds i := by simp [cntFlds]
  generalize hs1 : { s with pst := { s.pst with vals := tabSet pstZero s.pst.vals i v, busy := none, lost := s.pst.lost.filter (· != i.val) } } = s1
  have hfld : (s1.setFld (pstFld i) v).fld (fPcnt i) = s.fld (fPcnt i) := by
    rw [State.fld_setFld_apart _ _ ok (hto _ hcnt), ← hs1]
    rfl
  have hs : s1.answers = s.answers := by rw [← hs1]
  simp only [State.committed, hs1, State.showPst_fld _ hi, State.setFld_answers, State.inc_answers]
  rw [State.countPst_answers _ (hfld ▸ h9) (hfld ▸ h10), State.setFld_answers, hs]

/-- Settles O5: a write begins a commit through the field's own action, and a completion shows, counts and answers it. -/
theorem persistentWritesCommit : Obligations.PersistentWritesCommit := by
  unfold Obligations.PersistentWritesCommit
  intro s ag idx val hag f v
  have hf : f = pstFld idx := by
    revert idx
    decide
  have hv : v = val.toNat / 2 ^ (pstFld idx).lo % 2 ^ (pstFld idx).w := by rw [← hf]
  clear_value f v
  subst hf hv
  obtain ⟨-, -, -, -, hd, hbz⟩ := pstFld_facts idx
  obtain ⟨hra, hrp, hro⟩ := pstReg_facts idx
  refine ⟨fun hsrc => ?_, fun hsrc hval hl hb hq => ?_, fun hm hsrc hval hl hb hq => ?_, fun i w hb hi hq => ?_⟩
  · have h := exec_persistentWrite hag idx val
    rw [State.pstWrite_denied hsrc] at h
    exact ⟨_, h, State.flag_setFlag_same (f := fPst_DENIED) _ _ rfl rfl, rfl, State.fld_setFlag_apart (f := fPst_DENIED) _ _ rfl hd⟩
  · have h := exec_persistentWrite hag idx val
    rw [State.pstWrite_begins hsrc hval hl hb] at h
    refine ⟨_, h, rfl, State.flag_setFlag_same (f := fPst_BUSY) _ _ rfl rfl, State.fld_setFlag_apart (f := fPst_BUSY) _ _ rfl hbz, ?_⟩
    simp [State.pstPending, hq]
  · have hreg : s.regWrite .bmc (pstReg idx).1 (pstReg idx).2 4 (val.setWidth 64).toNat =
        { s with pst := { s.pst with busy := some (idx.val, val.toNat / 2 ^ (pstFld idx).lo % 2 ^ (pstFld idx).w) } }.setFlag fPst_BUSY true := by
      rw [s.regWrite_pst .bmc _ idx, BitVec.toNat_setWidth_of_le (by decide), State.pstWrite_begins hsrc hval hl hb]
    have h := exec_writeRegister_waits hm (p := (pstReg idx).1) (off := (pstReg idx).2) (width := 4) hra hrp hro
      (val.setWidth 64)
    rw [hreg] at h
    have hc : ({ s with pst := { s.pst with busy := some (idx.val, val.toNat / 2 ^ (pstFld idx).lo % 2 ^ (pstFld idx).w) } }.setFlag fPst_BUSY
        true).pst.commits = 1 := by
      simp [PstSt.commits, hq]
    rw [hc] at h
    exact ⟨_, h (by simp [PstSt.commits, hb, hq]), rfl, rfl, rfl⟩
  · obtain ⟨idx, rfl⟩ : ∃ j : Fin 4, j.val = i := ⟨⟨i, by omega⟩, rfl⟩
    obtain ⟨hcnt, hcom, hlast, hshow, hlim⟩ := s.committed_fields hi w
    obtain ⟨-, -, hfrom⟩ := pstFld_apart hi
    obtain ⟨-, hst⟩ := storeFlds_apart hi
    obtain ⟨hb1, hb2⟩ := hst fPst_BUSY (by simp)
    refine ⟨s.commitDone, rfl, ?_⟩
    rw [State.commitDone_alone hb hq]
    have hpst := s.committed_pst idx w
    generalize hv : ({ s.committed idx w with pst := { (s.committed idx w).pst with busy := none, queue := [] } }.setFlag fPst_BUSY false) = v
    have hbusy : v.flag fPst_BUSY = false := by rw [← hv]; exact State.flag_setFlag_same (f := fPst_BUSY) _ _ rfl rfl
    have hkeep : ∀ g : Fld, fPst_BUSY.apart g = true → v.fld g = (s.committed idx w).fld g := by
      intro g hg
      rw [← hv]
      exact State.fld_setFlag_apart (f := fPst_BUSY) _ _ rfl hg
    have hvp : v.pst = { s.pst with vals := tabSet pstZero s.pst.vals idx w, busy := none, queue := [], lost := s.pst.lost.filter (· != idx.val) } := by
      rw [← hv, State.setFlag_pst, hpst]
    have hva : s.fld (fPcnt idx) + 1 ≠ 90000 → s.fld (fPcnt idx) + 1 ≠ 100000 → v.answers = s.answers := by
      intro h9 h10
      rw [← hv, State.setFlag_answers]
      exact s.committed_answers hi w h9 h10
    obtain ⟨hregs, hwb, hwv⟩ := v.writesDone_frame 1
    have hshown : (v.writesDone 1).fld (pstFld idx) = w % 2 ^ (pstFld idx).w := by
      rw [State.fld_congr hregs, hkeep _ (hfrom _ (by simp)), hshow]
    refine ⟨by rw [hwb, hvp], ?_, by rw [State.flag_congr hregs, hbusy], ?_, ?_, ?_, ?_, ?_, ?_, ?_, ?_⟩
    · rw [State.pstVal, hwv, hvp, tabGet_set_same]
    · rw [State.fld_congr hregs, hkeep _ hb1, hcnt]
    · rw [State.fld_congr hregs, hkeep _ (by decide), hcom]
    · rw [State.fld_congr hregs, hkeep _ (by decide), hlast]
    · rintro h0
      obtain rfl : idx = 0 := Fin.ext h0
      exact hshown
    · rintro h1
      obtain rfl : idx = 1 := Fin.ext h1
      exact hshown
    · rintro h2
      obtain rfl : idx = 2 := Fin.ext h2
      exact hshown
    · intro hw h9 h10
      have hwaits : v.pst.waits = [(1, .command)] := by rw [hvp, ← hw]
      simp [State.writesDone, hwaits, State.writeComplete, State.answer, hva h9 h10]
    · rw [State.flag, State.fld_congr hregs, hkeep _ hb2, ← hlim, State.flag]

end Sys2Proof.Machine
end

section
/-! A grove out of service (R457, Table 20.4) and the reports of a reaction that does not stop the package. -/
namespace Sys2Proof.Machine

/-! ### A grove out of service -/

theorem State.groveOut_state (s : State) (g : Fin 256) : (s.groveOut g).fld (fGrove_STATE g) =
    if s.flag fSafe_SAFE = false ∧ s.pwr.mode = .run ∧ (∀ h : Fin 256, s.fld (fGrove_STATE h) = 0) then 1 else s.fld (fGrove_STATE g) := by
  have hany : (List.range 256).any (fun x => s.fld (fGrove_STATE x) != 0) = true ↔ ¬∀ h : Fin 256, s.fld (fGrove_STATE h) = 0 := by
    simp only [List.any_eq_true, List.mem_range, bne_iff_ne, ne_eq, not_forall]
    exact ⟨fun ⟨x, hx, h⟩ => ⟨⟨x, hx⟩, h⟩, fun ⟨x, h⟩ => ⟨x, x.isLt, h⟩⟩
  unfold State.groveOut
  simp only [hany]
  by_cases h : s.flag fSafe_SAFE = false ∧ s.pwr.mode = .run ∧ ∀ h : Fin 256, s.fld (fGrove_STATE h) = 0
  · obtain ⟨h1, h2, h3⟩ := h
    rw [if_neg (by simp [h1, h2, h3]), if_pos ⟨h1, h2, h3⟩]
    exact State.fld_setFld_fits _ (by simp [fGrove_STATE, Fld.ok, Fld.sh, Fld.w]) (by simp [fGrove_STATE, Fld.w])
  · rw [if_neg h, if_pos (by by_contra hn; exact h (by simpa [not_or] using hn))]

theorem State.groveBack_state (s : State) (g : Fin 256) : (s.groveBack g).fld (fGrove_STATE g) =
    if s.fld (fGrove_STATE g) = 1 ∨ (s.fld (fGrove_STATE g) = 3 ∧ s.fld (fGrove_RESULT g) = 1) then 0 else s.fld (fGrove_STATE g) := by
  unfold State.groveBack
  split
  · exact State.fld_setFld_fits _ (by simp [fGrove_STATE, Fld.ok, Fld.sh, Fld.w]) (by simp [fGrove_STATE, Fld.w])
  · rfl

section Service
variable {s : State} {ag : Agent} (hag : s.agentUp ag = true) (g : Fin 256)
include hag

/-- A write of OUT_REQ and RETURN alone is their action. -/
theorem State.agentWrite_service (v : Nat) : s.agentWrite ag (0x100 + g.val) 0x44 4 v =
    s.blockActs .grove g (wrOf ag (0x100 + g.val) 0x44 4 v) := by
  have hp : pageBlk (0x100 + g.val) = some (.grove, g.val) := pageBlk_grove g
  refine State.agentWrite_act .grove g hag rfl (by decide) (by decide) hp (State.setBits_no_rw ?_)
    (Wr.clrBits_no_w1c (by rw [cellMask_body hp (by decide)]; decide +kernel))
  intro l
  rw [cellMask_body hp (by decide)]
  cases l <;> decide +kernel

omit hag in
theorem wrOf_get_service {x y v : Nat} (hx : v / 2 ^ 0 % 2 ^ 1 = x) (hy : v / 2 ^ 1 % 2 ^ 1 = y) :
    (wrOf ag (0x100 + g.val) 0x44 4 v).get (fGrove_SPLIT g) = none ∧
    (wrOf ag (0x100 + g.val) 0x44 4 v).get (fGrove_OUT_REQ g) = some x ∧ (wrOf ag (0x100 + g.val) 0x44 4 v).get (fGrove_RETURN g) = some y := by
  refine ⟨wrOf_get_apart ag _ (by simp [fGrove_SPLIT, Fld.key, Fld.sh]), wrOf_get ag rfl rfl ?_ ?_ ?_, wrOf_get ag rfl rfl ?_ ?_ ?_⟩ <;>
    simp [fGrove_OUT_REQ, fGrove_RETURN, Fld.w, ← hx, ← hy]

theorem exec_groveOutReq : exec (.groveOutReq ag g) s = .next (s.groveOut g) := by
  show Host.Outcome.next (s.agentWrite ag (0x100 + g.val) 0x44 4 1) = _
  obtain ⟨h0, h1, h2⟩ := wrOf_get_service g (v := 1) (x := 1) (y := 0) rfl rfl
  rw [State.agentWrite_service hag, State.blockActs, State.onIf_none h0, State.onSet_one h1, State.onSet_zero h2]

theorem exec_groveReturn : exec (.groveReturn ag g) s = .next (s.groveBack g) := by
  show Host.Outcome.next (s.agentWrite ag (0x100 + g.val) 0x44 4 2) = _
  obtain ⟨h0, h1, h2⟩ := wrOf_get_service g (v := 2) (x := 0) (y := 1) rfl rfl
  rw [State.agentWrite_service hag, State.blockActs, State.onIf_none h0, State.onSet_zero h1, State.onSet_one h2]

end Service

/-- A grove that is LEAVING is drained when its contexts are idle and its engines without owner and work (Table 20.4). -/
theorem exec_groveSvcDrained_idle {s : State} {g : Fin 256} (hst : s.fld (fGrove_STATE g) = 1)
    (hidle : ∀ e ∈ s.thr.ctxs, e.1 / 256 = g.val → e.2.st = .idle) (ho : (s.mat g).owner = none) (hq : (s.mat g).queue = [])
    (he : ∀ c < 8, (s.ew (g.val * 8 + c)).owner = none) : exec (.groveSvcDrained g) s =
      .next ((s.setGrove g { s.grove g with scratch := [], viewLines := [] }).setFld (fGrove_STATE g) 2) := by
  have hbusy : (s.liveCtxs.any fun e => decide (e.1 / 256 = g.val)) = false := by
    rw [List.any_eq_false]
    intro e hmem hg
    rw [State.liveCtxs, List.mem_filter] at hmem
    simp [hidle e hmem.1 (of_decide_eq_true hg)] at hmem
  have hew : ((List.range 8).any fun c => (s.ew (g.val * 8 + c)).owner.isSome) = false := by
    rw [List.any_eq_false]
    intro c hc
    simp [he c (List.mem_range.1 hc)]
  show execGroveSvcDrained g s = _
  unfold execGroveSvcDrained
  dsimp only
  rw [if_neg]
  simp [hst, hbusy, ho, hq, hew]

theorem exec_groveSvcDrained_other {s : State} {g : Fin 256} (hst : s.fld (fGrove_STATE g) ≠ 1) : exec (.groveSvcDrained g) s = .next s := by
  show execGroveSvcDrained g s = _
  unfold execGroveSvcDrained
  dsimp only
  rw [if_pos (Or.inl hst)]

section MarginTest
variable {s : State} {g : Fin 256} (hst : s.fld (fGrove_STATE g) = 2) (hsafe : s.flag fSafe_SAFE = false)
include hst hsafe

theorem exec_groveMarginTestDone_passed (hinj : s.injArmed (0x100 + g.val) 3 = false) : exec (.groveMarginTestDone g true true) s =
    .next ((s.setFld (fGrove_STATE g) 3).setFld (fGrove_RESULT g) 1) := by
  have htest : s.testInj (.groveT g) = false := by simp [State.testInj, testUnit, hinj]
  show execGroveMarginTestDone g true true s = _
  unfold execGroveMarginTestDone
  rw [if_neg (by simp [hst, hsafe]), if_neg (by simp [htest])]
  rfl

theorem exec_groveMarginTestDone_worn (hinj : s.injArmed (0x100 + g.val) 3 = false) : exec (.groveMarginTestDone g true false) s =
    .next (((s.setFld (fGrove_STATE g) 3).setFld (fGrove_RESULT g) 2).report { cls := 0x4B, react := 0, page := 0x100 + g.val, unit := g.val }
      (some (logWarn, .groveWorn))) := by
  have htest : s.testInj (.groveT g) = false := by simp [State.testInj, testUnit, hinj]
  show execGroveMarginTestDone g true false s = _
  unfold execGroveMarginTestDone
  rw [if_neg (by simp [hst, hsafe]), if_neg (by simp [htest])]
  simp only [Bool.false_eq_true, if_false]

theorem exec_groveMarginTestDone_bad (ok : Bool) :
    exec (.groveMarginTestDone g false ok) s = exec (.selfTestPass (.groveT g) false 0) s := by
  show execGroveMarginTestDone g false ok s = execSelfTestPass (.groveT g) false 0 s
  unfold execGroveMarginTestDone
  rw [if_neg (by simp [hst, hsafe]), if_pos (by simp)]
  rfl

end MarginTest

theorem State.grove_setGrove_same (s : State) (g : Nat) (x : Grove) : (s.setGrove g x).grove g = x := tabGet_set_same ..

theorem State.setGrove_thr (s : State) (g : Nat) (x : Grove) : (s.setGrove g x).thr = s.thr := rfl

theorem State.setFld_grove (s : State) (f : Fld) (v g : Nat) : (s.setFld f v).grove g = s.grove g := rfl

theorem Fld.apart_of_page {f g : Fld} (h : f.key / 512 ≠ g.key / 512) : f.apart g = true := by
  have : f.key ≠ g.key := fun e => h (by rw [e])
  simp [Fld.apart, this]

/-! ### Reports of a reaction that does not stop the package -/

section Mild
variable (s : State) {d : Det} (hr : d.react < 2)
include hr

omit hr in
theorem State.putBar_regs (k : Nat) (bs : List Byte) : (s.putBar k bs).regs = s.regs := by
  induction bs generalizing s k with
  | nil => rfl
  | cons b bs ih => exact ih _ _

theorem State.logRecord_fld_mild {f : Fld} (hf : f.key / 512 ≠ 0x00B) : (s.logRecord d).2.fld f = s.fld f := by
  have apart : ∀ g ∈ [fSafe_LOG_SEQ, fSafe_LAST_CLASS, fSafe_LAST_REACT, fSafe_OVERFLOW], g.ok = true ∧ g.apart f = true := by
    intro g hg
    have hk : g.ok = true ∧ g.key / 512 = 0x00B := by
      clear hf
      revert g
      decide
    exact ⟨hk.1, Fld.apart_of_page (by rw [hk.2]; exact hf.symm)⟩
  simp only [List.forall_mem_cons, List.not_mem_nil, false_implies, implies_true, and_true] at apart
  obtain ⟨⟨o1, a1⟩, ⟨o2, a2⟩, ⟨o3, a3⟩, o4, a4⟩ := apart
  unfold State.logRecord
  simp only [if_neg (show ¬2 ≤ d.react by omega)]
  split
  · rw [State.fld_setFlag_apart _ _ o4 a4, State.fld_setFld_apart _ _ o3 a3, State.fld_setFld_apart _ _ o2 a2, State.fld_setFld_apart _ _ o1 a1,
      State.fld_congr (State.putBar_regs ..)]
    rfl
  · rw [State.fld_setFld_apart _ _ o3 a3, State.fld_setFld_apart _ _ o2 a2, State.fld_setFld_apart _ _ o1 a1, State.fld_congr (State.putBar_regs ..)]
    rfl

theorem State.report_fld_mild (ev : Option (Nat × EvKind)) {f : Fld} (hf : f.key / 512 ≠ 0x00B) : (s.report d ev).fld f = s.fld f := by
  have hlog := s.logRecord_fld_mild hr hf
  have hlast : ∀ (t : State) (bs : List Byte), t.commitSafeLast d bs = t := fun t bs => if_neg (by omega)
  unfold State.report
  simp only [hlast, if_neg (show ¬2 ≤ d.react by omega)]
  split
  · exact hlog
  · split
    · rw [State.fld_congr (State.event_regs ..), hlog]
    · split
      · rw [State.fld_congr (State.event_regs ..), hlog]
      · rw [if_neg (by omega), if_neg (by omega)]
        exact hlog

end Mild

theorem State.groveTested_fields (s : State) (g : Fin 256) {n : Nat} (hn : n < 4) :
    ((s.setFld (fGrove_STATE g) 3).setFld (fGrove_RESULT g) n).fld (fGrove_STATE g) = 3 ∧
    ((s.setFld (fGrove_STATE g) 3).setFld (fGrove_RESULT g) n).fld (fGrove_RESULT g) = n := by
  refine ⟨?_, State.fld_setFld_fits _ (by simp [fGrove_RESULT, Fld.ok, Fld.sh, Fld.w]) (by simpa [fGrove_RESULT, Fld.w] using hn)⟩
  rw [State.fld_setFld_apart _ _ (by simp [fGrove_RESULT, Fld.ok, Fld.sh, Fld.w])
    (by simp [Fld.apart, fGrove_RESULT, fGrove_STATE, Fld.sh, Fld.w])]
  exact State.fld_setFld_fits _ (by simp [fGrove_STATE, Fld.ok, Fld.sh, Fld.w]) (by simp [fGrove_STATE, Fld.w])

/-- Settles O6: each transition's own condition. -/
theorem groveServiceFollowsItsStates : Obligations.GroveServiceFollowsItsStates := by
  unfold Obligations.GroveServiceFollowsItsStates
  intro s ag g hag st
  refine ⟨⟨_, exec_groveOutReq hag g, s.groveOut_state g⟩, ⟨_, exec_groveReturn hag g, s.groveBack_state g⟩, fun hst hidle ho hq he => ?_,
    exec_groveSvcDrained_other, fun ok hst hsafe hinj => ?_, fun ok hst hsafe => exec_groveMarginTestDone_bad hst hsafe ok⟩
  · refine ⟨_, exec_groveSvcDrained_idle hst hidle ho hq he, ?_, ?_, by rw [State.setFld_thr, State.setGrove_thr]⟩
    · exact State.fld_setFld_fits _ (by simp [fGrove_STATE, Fld.ok, Fld.sh, Fld.w]) (by simp [fGrove_STATE, Fld.w])
    · rw [State.setFld_grove, State.grove_setGrove_same]
  · cases ok with
    | true => exact ⟨_, exec_groveMarginTestDone_passed hst hsafe hinj, s.groveTested_fields g (by decide)⟩
    | false =>
      obtain ⟨hstate, hresult⟩ := s.groveTested_fields g (n := 2) (by decide)
      refine ⟨_, exec_groveMarginTestDone_worn hst hsafe hinj, ?_, ?_⟩
      · rw [State.report_fld_mild _ Nat.two_pos _ (by simp only [fGrove_STATE, Fld.key]; omega), hstate]
      · rw [State.report_fld_mild _ Nat.two_pos _ (by simp only [fGrove_RESULT, Fld.key]; omega), hresult]
        rfl

end Sys2Proof.Machine
end

section
/-! How an instruction that issues retires, faults or waits; scalar floating point (R80 to R89, R96) and state registers (R62, R314). -/
namespace Sys2Proof.Machine

/-! ### An instruction that issues: retirement, fault and wait -/

section Issue
variable {s s1 s2 : State} {t : Tid} {p : Prof} {tgt : Target} (h : s.Issues t p tgt s1) (i : Instr) {body : State → TRes}
include h

theorem State.Issues.done (hb : body s1 = .done s2) (hc : (s2.ctx t).stopPending = false) : s.issue t i p body = s2.modCtx t Ctx.retired := by
  rw [h.issue, hb, State.settle_done _ hc]

theorem State.Issues.fault {f : FaultArg} (hb : body s1 = .fault s2 f) : s.issue t i p body = s2.takeFault t f := by
  rw [h.issue, hb, State.settle_fault]

theorem State.Issues.wait {aw : Await} (hb : body s1 = .wait s2 aw) : s.issue t i p body = s2.modCtx t fun c => c.waiting i aw := by
  rw [h.issue, hb, State.settle_wait]

theorem State.Issues.jump (hb : body s1 = .jump s2) : s.issue t i p body = s2 := by
  rw [h.issue, hb, State.settle_jump]

/-- An instruction that is illegal for its context. -/
theorem State.Issues.issueCtx_none {f : Ctx → Option Ctx} (hf : f (s1.ctx t) = none) :
    s.issueCtx t i p f = s1.takeFault t { code := 0x21 } := by
  rw [State.issueCtx, h.fault]
  simp only [hf]

end Issue

theorem State.modCtx_modCtx (s : State) (t : Tid) (f g : Ctx → Ctx) : (s.modCtx t f).modCtx t g = s.setCtx t (g (f (s.ctx t))) :=
  State.modCtx_setCtx ..

/-! ### Scalar floating point -/

section Scalar
variable {s s1 : State} {t : Tid} {tgt : Target} (h : s.Issues t profAll tgt s1)
include h

/-- A floating-point instruction under a rounding mode that it takes (R85). -/
theorem State.Issues.fpInsn {i : Instr} {rm : Nat} {op : Nat → Ctx → Ctx} (hm : (s1.ctx t).effRm rm ≤ 4)
    (hop : (op ((s1.ctx t).effRm rm) (s1.ctx t)).stopPending = (s1.ctx t).stopPending) :
    s.fpInsn t i rm op = s1.setCtx t (op ((s1.ctx t).effRm rm) (s1.ctx t)).retired :=
  h.issueCtx i (if_neg (by omega)) (hop.trans h.unstopped)

theorem State.Issues.fpInsn_illegal {i : Instr} {rm : Nat} {op : Nat → Ctx → Ctx} (hm : 4 < (s1.ctx t).effRm rm) :
    s.fpInsn t i rm op = s1.takeFault t { code := 0x21 } :=
  h.issueCtx_none i (if_pos hm)

end Scalar

/-- Settles O7: every instruction is its operation on the context. -/
theorem scalarFloatOperationsRetire : Obligations.ScalarFloatOperationsRetire := by
  unfold Obligations.ScalarFloatOperationsRetire
  refine ⟨fun s s1 t tgt f rm d a b c h hm => ?_, fun s s1 t tgt f rm d a h hm => ?_⟩
  · refine ⟨?_, ?_, ?_, ?_, fun hb => ?_, ?_, ?_, ?_, ?_, ?_, fun v => ?_⟩
    case refine_5 => exact congrArg Host.Outcome.next (h.issueCtx _ (if_neg (by simp [hb]; omega)) h.unstopped)
    all_goals exact congrArg Host.Outcome.next (h.fpInsn hm rfl)
  · refine ⟨?_, ?_, ?_, ?_, ?_, ?_⟩
    all_goals exact congrArg Host.Outcome.next (h.fpInsn hm rfl)

/-- A fault leaves the thread's registers alone. -/
theorem State.takeFault_ctx (s : State) (t : Tid) (f : FaultArg) :
    ((s.takeFault t f).ctx t).a = (s.ctx t).a ∧ ((s.takeFault t f).ctx t).f = (s.ctx t).f ∧
    ((s.takeFault t f).ctx t).v = (s.ctx t).v ∧ ((s.takeFault t f).ctx t).k = (s.ctx t).k := by
  have faulted : ∀ code inner, (s.toFaulted t f code inner).ctx t = (s.ctx t).faulted f code inner :=
    fun code inner => State.ctx_modCtx_same s t fun c => c.faulted f code inner
  unfold State.takeFault
  split
  · dsimp only
    split
    · rw [faulted]
      exact ⟨rfl, rfl, rfl, rfl⟩
    · rw [State.ctx_modCtx_same]
      exact ⟨rfl, rfl, rfl, rfl⟩
  · rw [faulted]
    exact ⟨rfl, rfl, rfl, rfl⟩

theorem Ctx.cvtPut_stopPending (c : Ctx) (code d v : Nat) : (c.cvtPut code d v).stopPending = c.stopPending := by
  unfold Ctx.cvtPut
  split
  · rfl
  · split <;> rfl

theorem Ctx.seeded_stopPending (c : Ctx) (m : Nat) : (c.seeded m).stopPending = c.stopPending := by
  unfold Ctx.seeded
  split <;> rfl

/-- Settles O8: comparisons, classes and conversions by their operations, the rest by the issue rule of an illegal form. -/
theorem scalarComparesConvertsAndIllegalForms : Obligations.ScalarComparesConvertsAndIllegalForms := by
  unfold Obligations.ScalarComparesConvertsAndIllegalForms
  refine ⟨fun s s1 t tgt f d a b h => ?_, fun s s1 t tgt f rm d a b c h => ?_⟩
  · refine ⟨fun p r fl hp hcmp => ?_, ?_, fun src dst rm sat hs hd hm => ?_⟩
    · exact congrArg Host.Outcome.next (h.issueCtx _ (by rw [if_neg hp, hcmp]) h.unstopped)
    · exact congrArg Host.Outcome.next (h.issueCtx _ rfl h.unstopped)
    · show Host.Outcome.next (s.issue t _ profAll _) = _
      rw [h.done (s2 := s1.setCtx t _) _ ?_ ?_, State.modCtx_setCtx]
      · rw [if_neg (by simp [hs, hd])]
        dsimp only
        rw [if_neg (fun hst => hm hst.1), if_neg hm]
      · rw [State.ctx_setCtx_same, Ctx.seeded_stopPending]
        exact (Ctx.cvtPut_stopPending ..).trans h.unstopped
  · refine ⟨fun hm i hi => ?_, fun hb => ?_, fun p hp hcmp => ?_, fun r => ?_⟩
    · simp only [List.mem_cons, List.not_mem_nil, or_false] at hi
      rcases hi with rfl | rfl | rfl | rfl | rfl | rfl | rfl | rfl | rfl | rfl | rfl | rfl | rfl | rfl | rfl | rfl | rfl
      case inr.inr.inr.inr.inl => exact congrArg Host.Outcome.next (h.issueCtx_none _ (if_pos (Or.inr hm)))
      all_goals exact congrArg Host.Outcome.next (h.fpInsn_illegal hm)
    · exact congrArg Host.Outcome.next (h.issueCtx_none _ (if_pos (Or.inl fun e => hb (Fin.ext e))))
    · exact congrArg Host.Outcome.next (h.issueCtx_none _ (by rw [if_neg hp, hcmp]))
    · obtain ⟨ha, hf, -, -⟩ := s1.takeFault_ctx t { code := 0x21 }
      exact ⟨by rw [Ctx.gf, hf]; rfl, by rw [Ctx.ga, ha]; rfl⟩

/-! ### State registers -/

theorem Ctx.putState_stopPending (c : Ctx) (n : Nat) (v : W64) : (c.putState n v).stopPending = c.stopPending := by
  unfold Ctx.putState
  split <;> rfl

section StateRegs
variable {s s1 : State} {t : Tid} {tgt : Target} (h : s.Issues t profAll tgt s1) (d a : Reg) (n : BitVec 16)
include h

theorem exec_srd_some {v : W64} (hn : n ≠ 0x0B) (hok : s1.stateRegOk t n.toNat = true) (hv : s1.stateReg t n.toNat = some v) :
    exec (.srd t d n) s = .next (s1.setCtx t ((s1.ctx t).sa d v).retired) := by
  show Host.Outcome.next (s.issue t _ profAll _) = _
  rw [h.done (s2 := s1.modCtx t fun c => c.sa d v) _ (by simp only [hok, hv, if_true, if_neg hn]) (by
    rw [State.ctx_modCtx_same]; exact h.unstopped), State.modCtx_modCtx]

theorem exec_srd_cycle : exec (.srd t d 0x0B) s =
    .next (s1.draw.2.setCtx t ((s1.ctx t).sa d (Config.cycle s1.fresh)).retired) := by
  show Host.Outcome.next (s.issue t _ profAll _) = _
  rw [h.done (s2 := s1.draw.2.modCtx t fun c => c.sa d (Config.cycle s1.fresh)) _ rfl (by
    rw [State.ctx_modCtx_same]; exact h.unstopped), State.modCtx_modCtx, State.ctx_draw]

theorem exec_srd_illegal (hok : s1.stateRegOk t n.toNat = false) : exec (.srd t d n) s = .next (s1.takeFault t { code := 0x21 }) :=
  congrArg Host.Outcome.next (h.fault _ (by simp only [hok, Bool.false_eq_true, if_false]))

theorem exec_swr_ok (hok : s1.stateRegOk t n.toNat = true) :
    exec (.swr t a n) s = .next (s1.setCtx t ((s1.ctx t).putState n.toNat ((s1.ctx t).ga a)).retired) := by
  show Host.Outcome.next (s.issue t _ profAll _) = _
  rw [h.done (s2 := s1.modCtx t fun c => c.putState n.toNat (c.ga a)) _ (by simp only [hok, if_true]) (by
    rw [State.ctx_modCtx_same, Ctx.putState_stopPending]; exact h.unstopped), State.modCtx_modCtx]

theorem exec_swr_illegal (hok : s1.stateRegOk t n.toNat = false) : exec (.swr t a n) s = .next (s1.takeFault t { code := 0x21 }) :=
  congrArg Host.Outcome.next (h.fault _ (by simp only [hok, Bool.false_eq_true, if_false]))

theorem exec_rngU (hst : s1.flag fMode_A_STRICT = false) : exec (.rngU t d) s =
    .next (s1.draw.2.setCtx t ((s1.ctx t).sa d (Config.random s1.fresh)).retired) := by
  show Host.Outcome.next (s.issue t _ profAll _) = _
  rw [h.done (s2 := s1.draw.2.modCtx t fun c => c.sa d (Config.random s1.fresh)) _ (by simp only [hst, Bool.false_eq_true, if_false]) (by
    rw [State.ctx_modCtx_same]; exact h.unstopped), State.modCtx_modCtx, State.ctx_draw]

theorem exec_rngU_strict (hst : s1.flag fMode_A_STRICT = true) : exec (.rngU t d) s = .next (s1.takeFault t { code := 0x5C }) :=
  congrArg Host.Outcome.next (h.fault _ (by simp only [hst, if_true]))

end StateRegs

/-- Which numbers name a state register for a thread (Table 3.8). -/
theorem State.stateRegOk_iff (s : State) (t : Tid) (n : BitVec 16) : s.stateRegOk t n.toNat = true ↔
    n.toNat < 0x0C ∨ (n = 0x0C ∧ t.kind = .control ∧ (s.ctx t).sup = true) := by
  have h12 : n = 0x0C ↔ n.toNat = 0x0C := by rw [← BitVec.toNat_inj]; rfl
  unfold State.stateRegOk
  rw [h12]
  split
  next h => simp [h]
  next h => simp [h]

/-- What a write of a state register leaves (Table 3.8). -/
theorem Ctx.putState_values (c : Ctx) (v : W64) : (c.putState 0x0C v).hvec.toNat % 4 = 0 ∧ (c.putState 0x07 v).frm ≠ 7 := by
  constructor
  · have h4 : (v &&& ~~~3#64).setWidth 2 = 0#2 := by
      ext i hi
      interval_cases i <;> simp
    have := congrArg BitVec.toNat h4
    rwa [BitVec.toNat_setWidth] at this
  · show (if v.setWidth 3 = 7 then 0 else v.setWidth 3) ≠ (7 : BitVec 3)
    split
    · decide
    · assumption

/-- Settles O11: each register by its rule. -/
theorem stateRegistersReadAndWrite : Obligations.StateRegistersReadAndWrite := by
  unfold Obligations.StateRegistersReadAndWrite
  intro s s1 t tgt d a n h c sup
  have hok := s1.stateRegOk_iff t n
  refine ⟨fun v hn hv => ?_, fun hn => ?_, fun hn => ?_, fun hn => ?_, fun v => ?_, fun hst => ?_, fun hst => ?_⟩
  · refine exec_srd_some h d n ?_ (hok.2 ?_) hv
    · rintro rfl
      simp at hn
    · exact hn.imp_left (by omega)
  · subst hn
    exact ⟨_, exec_srd_cycle h d, _, State.ctx_setCtx_same ..⟩
  · exact exec_swr_ok h a n (hok.2 hn)
  · have hbad : s1.stateRegOk t n.toNat = false := by
      rw [Bool.eq_false_iff, ne_eq, hok]
      rintro (hlt | ⟨h12, hs⟩)
      · rcases hn with hgt | ⟨rfl, -⟩
        · omega
        · simp at hlt
      · rcases hn with hgt | ⟨-, hns⟩
        · simp [h12] at hgt
        · exact hns hs
    exact ⟨exec_srd_illegal h d n hbad, exec_swr_illegal h a n hbad⟩
  · obtain ⟨hv, hm⟩ := c.putState_values v
    exact ⟨rfl, rfl, rfl, rfl, hv, hm, rfl, rfl, rfl, rfl, rfl⟩
  · exact ⟨_, exec_rngU h d hst, _, State.ctx_setCtx_same ..⟩
  · exact exec_rngU_strict h d hst

end Sys2Proof.Machine
end

section
/-! Loads, stores and atomics of device memory (R41 to R57, R147 to R153, R185, Tables 2.5, 8.3): one good line at its home, what finding a
leaf leaves alone, and the marks of the leaves. -/
namespace Sys2Proof.Machine

/-! ### One good line at its home (R147 to R153, R360) -/

/-- The memory, the threads and the registers are the same. -/
structure State.SameData (u s : State) : Prop where
  dram : u.dram = s.dram
  bar2 : u.bar2 = s.bar2
  thr : u.thr = s.thr
  regs : u.regs = s.regs

theorem State.SameData.refl (s : State) : s.SameData s := ⟨rfl, rfl, rfl, rfl⟩

theorem State.SameData.trans {a b c : State} (h : a.SameData b) (h' : b.SameData c) : a.SameData c :=
  ⟨h.dram.trans h'.dram, h.bar2.trans h'.bar2, h.thr.trans h'.thr, h.regs.trans h'.regs⟩

theorem linesOf_one {key n : Nat} (hn : 0 < n) (h : key % 64 + n ≤ 64) : linesOf key n = [key / 64] := by
  have : (key % 64 + n + 63) / 64 = 1 := by omega
  simp [linesOf, this]

theorem State.decode_clean_iff (s : State) (line : Nat) : s.decode line = .clean ↔
    s.pcState (keyStack (line * 64)) (offPc (keyOff (line * 64))) ≠ 3 ∧ s.poisoned line = false ∧
    ¬(s.pcState (keyStack (line * 64)) (offPc (keyOff (line * 64))) = 1 ∧ s.inner line = 2) ∧ s.tooMany line = false ∧
    s.symErr line = [] := by
  unfold State.decode
  simp only []
  split
  next h => simp [h]
  next h =>
    split
    next hp => simp [hp]
    next hp =>
      split
      next hi => simp [hi]
      next hi =>
        split
        next ht =>
          split <;> simp [ht]
        next ht =>
          split
          next hs => simp_all
          next hs => simp_all

/-- What makes a line good to read, its memory side (`State.lineClean`). -/
theorem State.lineClean_iff (s : State) (line : Nat) : s.lineClean line = true ↔
    s.decode line = .clean ∧ s.inner line ≠ 1 ∧ tabGet cntZero s.mem.dirErr line = 0 := by
  simp [State.lineClean, and_assoc]

theorem State.lineGood_iff (s : State) (line : Nat) : s.lineGood line = true ↔
    s.lineClean line = true ∧ s.mem.xfer.contains line = false ∧ s.mem.msc.contains line = false := by
  simp [State.lineGood, and_assoc]

section GoodLine
variable {s : State} {line : Nat}

theorem State.countInner_off (h : s.inner line ≠ 1) : s.countInner line = s := if_neg h

theorem State.readLine_clean (hd : s.decode line = .clean) (hi : s.inner line ≠ 1) : s.readLine line = (true, s) := by
  simp only [State.readLine, hd, State.countInner_off hi]

theorem State.consumeLine_good (h : s.lineGood line = true) (cross : Bool) : s.consumeLine cross line = (true, s) := by
  obtain ⟨hc, hx, hm⟩ := s.lineGood_iff line |>.1 h
  obtain ⟨hd, hi, -⟩ := s.lineClean_iff line |>.1 hc
  have ht : s.takeLine line = (true, s) := by
    simp only [State.takeLine, hm, Bool.false_eq_true, if_false, State.readLine_clean hd hi]
  simp only [State.consumeLine, hx, hm, ht, Bool.false_eq_true, and_false, if_false]

/-- The write-back of newer data of a clean line: its marks only, and the line stays clean. -/
theorem State.newerWritten_good (h : s.lineClean line = true) : (s.newerWritten line).SameData s ∧
    (s.newerWritten line).lineClean line = true ∧ (s.newerWritten line).mem.xfer = s.mem.xfer ∧
    (s.newerWritten line).mem.msc = s.mem.msc ∧ (s.newerWritten line).mem.dir = s.mem.dir := by
  unfold State.newerWritten
  split
  next hm =>
    refine ⟨⟨rfl, rfl, rfl, rfl⟩, ?_, rfl, rfl, rfl⟩
    obtain ⟨hd, hi, he⟩ := s.lineClean_iff line |>.1 h
    obtain ⟨hp, hpo, hin, ht, hs⟩ := s.decode_clean_iff line |>.1 hd
    have hinner : ((s.setSymErr line []).setInner line 0).inner line = 0 :=
      tabGet_set_same cntZero s.mem.inner line 0
    have hsym : ((s.setSymErr line []).setInner line 0).symErr line = [] :=
      tabGet_set_same noErr s.mem.symErr line []
    rw [State.lineClean_iff, State.decode_clean_iff, hinner, hsym]
    refine ⟨⟨hp, hpo, by simp, ?_, rfl⟩, by simp, he⟩
    rw [State.tooMany, hsym]
    rw [State.tooMany, hs] at ht
    exact ht
  next => exact ⟨.refl s, h, rfl, rfl, rfl⟩

/-- The home's actions on a clean line of which no other holder is asked. -/
theorem State.homeActions_good {write : Bool} {h : Holder} (hc : s.lineClean line = true) (hb : s.biNeeded line write h = false) :
    (s.homeActions line write h).SameData s ∧ (s.homeActions line write h).lineClean line = true ∧
    (s.homeActions line write h).mem.xfer = s.mem.xfer ∧ (s.homeActions line write h).mem.msc = s.mem.msc := by
  obtain ⟨-, -, he⟩ := s.lineClean_iff line |>.1 hc
  obtain ⟨hsame, hclean, hx, hm, hdir⟩ := State.newerWritten_good hc
  have hchk : s.dirChecked line = s := by simp [State.dirChecked, he]
  have hbi : (s.newerWritten line).biNeeded line write h = false := by
    rw [State.biNeeded, State.dir, hdir, State.flag_congr hsame.regs]
    exact hb
  unfold State.homeActions
  simp only [hchk, hbi, Bool.false_eq_true, if_false]
  exact ⟨⟨hsame.dram, hsame.bar2, hsame.thr, hsame.regs⟩, hclean, hx, hm⟩

section Prep
variable {key n : Nat} {write : Bool} {h : Holder} (hn : 0 < n) (hk : key % 64 + n ≤ 64) (hc : s.lineClean (key / 64) = true)
  (hb : s.biNeeded (key / 64) write h = false) (hcomb : (s.stk (keyStack (key / 64 * 64))).comb.any (fun e => e.1 == key / 64) = false)
include hn hk hc hb hcomb

/-- The lines of an access within one clean line, prepared. -/
theorem State.prepLines_good : (s.prepLines key n write h).SameData s ∧ (s.prepLines key n write h).lineClean (key / 64) = true ∧
    (s.prepLines key n write h).mem.xfer = s.mem.xfer ∧ (s.prepLines key n write h).mem.msc = s.mem.msc := by
  have hflush : s.combFlush (key / 64) = s := by simp only [State.combFlush, hcomb, Bool.false_eq_true, if_false]
  simp only [State.prepLines, linesOf_one hn hk, List.foldl_cons, List.foldl_nil, hflush]
  exact State.homeActions_good hc hb

theorem State.prepLines_lineGood (hg : s.lineGood (key / 64) = true) : (s.prepLines key n write h).lineGood (key / 64) = true := by
  obtain ⟨-, hclean, hx, hm⟩ := State.prepLines_good hn hk hc hb hcomb
  obtain ⟨-, hx', hm'⟩ := s.lineGood_iff _ |>.1 hg
  rw [State.lineGood_iff, hx, hm]
  exact ⟨hclean, hx', hm'⟩

end Prep
end GoodLine

theorem State.dramBytes_congr {u s : State} (h : u.dram = s.dram) (k n : Nat) : u.dramBytes k n = s.dramBytes k n := by
  simp only [State.dramBytes, State.dramByte, h]

theorem State.biNeeded_of_biLines {s : State} {key n : Nat} {write : Bool} {h : Holder} (hn : 0 < n) (hk : key % 64 + n ≤ 64)
    (hb : s.biLines key n write h = []) : s.biNeeded (key / 64) write h = false := by
  simpa [State.biLines, linesOf_one hn hk] using hb

theorem State.biGate_none {s : State} {key n : Nat} {write : Bool} {h : Holder} (t : Tid) (hb : s.biLines key n write h = []) :
    s.biGate t key n write h = (true, s) := by
  simp [State.biGate, hb]

/-- A read within one good line gives its bytes and changes marks of the line only. -/
theorem State.homeRead_good {s : State} {key n : Nat} {h : Holder} (hn : 0 < n) (hk : key % 64 + n ≤ 64) (hg : s.lineGood (key / 64) = true)
    (hb : s.biNeeded (key / 64) false h = false) (hcomb : (s.stk (keyStack (key / 64 * 64))).comb.any (fun e => e.1 == key / 64) = false) :
    ∃ u, s.homeRead h key n = (some (s.dramBytes key n), u) ∧ u.SameData s := by
  have hc := (s.lineGood_iff _ |>.1 hg).1
  obtain ⟨hsame, -⟩ := State.prepLines_good hn hk hc hb hcomb
  have hgood := State.prepLines_lineGood hn hk hc hb hcomb hg
  refine ⟨_, ?_, hsame⟩
  simp only [State.homeRead, linesOf_one hn hk, List.length_singleton, State.consumeLines, State.consumeLine_good hgood,
    State.dramBytes_congr hsame.dram]

theorem State.ldDram_good {s : State} {t : Tid} {key n : Nat} (hn : 0 < n) (hk : key % 64 + n ≤ 64) (hg : s.lineGood (key / 64) = true)
    (hst : s.accessStalled key n false = false) (hb : s.biLines key n false (holderIn t key) = [])
    (hcomb : (s.stk (keyStack (key / 64 * 64))).comb.any (fun e => e.1 == key / 64) = false) :
    ∃ u, s.ldDram t key n = (.ok (s.dramBytes key n), u) ∧ u.SameData s := by
  obtain ⟨u, hu, hsame⟩ := State.homeRead_good hn hk hg (State.biNeeded_of_biLines hn hk hb) hcomb
  exact ⟨u, by simp [State.ldDram, hst, State.biGate_none t hb, hu], hsame⟩

/-! ### Writes within one clean line -/

/-- No injection is armed (Table 18.8). -/
def State.NoInj (s : State) : Prop := ∀ p, s.flag (fInj_ARM p) = false

theorem State.NoInj.congr {u s : State} (h : s.NoInj) (hr : u.regs = s.regs) : u.NoInj := fun p => by rw [State.flag_congr hr, h]

theorem State.NoInj.injArmed {s : State} (h : s.NoInj) (p k : Nat) : s.injArmed p k = false := by simp [State.injArmed, h p]

theorem State.injectMsc_off {s : State} (h : s.NoInj) (line : Nat) : s.injectMsc line = s := by
  simp only [State.injectMsc, h.injArmed, Bool.false_eq_true, false_and, if_false]

theorem State.putDram_regs (bs : List Byte) : ∀ (s : State) (k : Nat), (s.putDram k bs).regs = s.regs := by
  induction bs with
  | nil => exact fun _ _ => rfl
  | cons b bs ih => exact fun s k => ih _ _

theorem State.putDram_fields (bs : List Byte) : ∀ (s : State) (k : Nat), s.putDram k bs = { s with dram := (s.putDram k bs).dram } := by
  induction bs with
  | nil => exact fun _ _ => rfl
  | cons b bs ih =>
    intro s k
    rw [State.putDram, ih]
    rfl

theorem State.putDram_dram_congr (bs : List Byte) : ∀ {u s : State} (k : Nat), u.dram = s.dram → (u.putDram k bs).dram = (s.putDram k bs).dram := by
  induction bs with
  | nil => exact fun _ h => h
  | cons b bs ih =>
    intro u s k h
    exact ih _ (by simp only [State.setDramByte, h])

theorem State.wordWritten_off {s : State} (h : s.NoInj) (line : Nat) : (s.wordWritten line).SameData s := by
  have hn : (((s.setSymErr line []).setInner line 0).setInjected line false).NoInj := h.congr rfl
  have : s.wordWritten line = ((s.setSymErr line []).setInner line 0).setInjected line false := by
    rw [State.wordWritten, State.injectOn]
    exact if_neg fun hi => Bool.false_ne_true ((hn _).symm.trans hi.1)
  rw [this]
  exact ⟨rfl, rfl, rfl, rfl⟩

theorem keyStack_line (k : Nat) : keyStack (k / 64 * 64) = keyStack k := by
  simp only [keyStack]
  omega

theorem offPc_line (k : Nat) : offPc (keyOff (k / 64 * 64)) = offPc (keyOff k) := by
  simp only [keyOff, offPc]
  omega

/-- A part of a clean line written: the bytes go to memory, the line's marks are cleared. -/
theorem State.writePart_clean {s : State} {k : Nat} {bs : List Byte} (hc : s.decode (k / 64) = .clean) (hi : s.inner (k / 64) ≠ 1)
    (hinj : s.NoInj) : (s.writePart k bs).SameData (s.putDram k bs) := by
  rw [State.writePart]
  simp only [State.readLine_clean hc hi]
  have hpc := (s.decode_clean_iff _ |>.1 hc).1
  rw [keyStack_line, offPc_line] at hpc
  rw [if_neg hpc]
  have hput : (s.putDram k bs).NoInj := hinj.congr (State.putDram_regs bs s k)
  have hword := State.wordWritten_off hput (k / 64)
  rw [State.injectMsc_off (hput.congr hword.regs)]
  exact hword

theorem State.writeHome_part {s : State} {k : Nat} {bs : List Byte} (h0 : bs ≠ []) (hk : k % 64 + bs.length ≤ 64) (h64 : bs.length < 64) :
    s.writeHome k bs = s.writePart k bs := by
  have hlen : 0 < bs.length := List.length_pos_iff.2 h0
  have hlast : (k + bs.length - 1) / 64 + 1 - k / 64 = 1 := by omega
  have hlo : max k ((k / 64 + 0) * 64) = k := by omega
  have hhi : min (k + bs.length) ((k / 64 + 0) * 64 + 64) - k = bs.length := by omega
  simp only [State.writeHome, List.isEmpty_iff, if_neg h0, hlast, List.range_one, List.foldl_cons, List.foldl_nil, hlo, hhi, Nat.sub_self,
    List.drop_zero, List.take_length, if_neg (show bs.length ≠ 64 by omega)]

/-- No thread has armed a line. -/
def State.NoLines (s : State) : Prop := ∀ e ∈ s.thr.ctxs, e.2.lines = []

theorem State.notify_off {s : State} (h : s.NoLines) (lid : Nat) : s.notify lid = s := by
  have : (s.thr.ctxs.filter fun e => e.2.lines.any fun l => l.1 == lid) = [] := by
    rw [List.filter_eq_nil_iff]
    intro e he
    simp [h e he]
  rw [State.notify, this, List.foldl_nil]

theorem State.dirtyGran_sameData (s : State) (g : Nat) : (s.dirtyGran g).SameData s := ⟨rfl, rfl, rfl, rfl⟩

theorem State.putDram_sameData {u s : State} (h : u.SameData s) (k : Nat) (bs : List Byte) : (u.putDram k bs).SameData (s.putDram k bs) := by
  refine ⟨State.putDram_dram_congr bs k h.dram, ?_, ?_, ?_⟩ <;> rw [State.putDram_fields bs u, State.putDram_fields bs s]
  · exact h.bar2
  · exact h.thr
  · exact h.regs

section HomeWrite
variable {s : State} {key : Nat} {bs : List Byte} {h : Holder} (h0 : bs ≠ []) (hk : key % 64 + bs.length ≤ 64) (h64 : bs.length < 64)
  (hb : s.biNeeded (key / 64) true h = false)
  (hcomb : (s.stk (keyStack (key / 64 * 64))).comb.any (fun e => e.1 == key / 64) = false) (hinj : s.NoInj) (hl : s.NoLines)
include h0 hk h64 hb hcomb hinj hl

/-- A write within one clean line that no thread watches changes its bytes, and marks of the line. -/
theorem State.homeWrite_clean (hc : s.lineClean (key / 64) = true) : (s.homeWrite h key bs).SameData (s.putDram key bs) := by
  have hlen : 0 < bs.length := List.length_pos_iff.2 h0
  obtain ⟨hsame, hclean, -, -⟩ := State.prepLines_good hlen hk hc hb hcomb
  obtain ⟨hd, hi, -⟩ := (State.lineClean_iff _ _).1 hclean
  have hpart := State.writePart_clean (k := key) (bs := bs) hd hi (hinj.congr hsame.regs)
  have hput := State.putDram_sameData hsame key bs
  simp only [State.homeWrite, List.isEmpty_iff, if_neg h0, State.writeHome_part h0 hk h64, linesOf_one hlen hk, List.foldl_cons, List.foldl_nil]
  generalize hv : ((s.prepLines key bs.length true h).writePart key bs) = v at hpart
  have hdirty := ((v.dirtyGran (key / 4096)).dirtyGran_sameData ((key + bs.length - 1) / 4096)).trans (v.dirtyGran_sameData _)
  have hall := (hdirty.trans hpart).trans hput
  have hnl : ((v.dirtyGran (key / 4096)).dirtyGran ((key + bs.length - 1) / 4096)).NoLines := by
    intro e he
    rw [hall.thr, State.putDram_fields bs s] at he
    exact hl e he
  rw [State.notify_off hnl]
  exact hall

end HomeWrite

/-- An atomic operation within one good line that no thread watches: the old value, and the new bytes. -/
theorem State.homeAmo_good {s : State} {key aw : Nat} {h : Holder} (aop b exp : Nat) (hn : 0 < aw) (hk : key % 64 + aw ≤ 64) (h64 : aw < 64)
    (hb : s.biNeeded (key / 64) true h = false) (hcomb : (s.stk (keyStack (key / 64 * 64))).comb.any (fun e => e.1 == key / 64) = false)
    (hinj : s.NoInj) (hl : s.NoLines) (hg : s.lineGood (key / 64) = true) :
    ∃ u, s.homeAmo h key aw aop b exp = (some (leNat (s.dramBytes key aw)), u) ∧
      u.SameData (s.putDram key (natLE aw (amoStored aop aw (leNat (s.dramBytes key aw)) b exp))) := by
  have hc := (s.lineGood_iff _ |>.1 hg).1
  obtain ⟨hsame, hclean, -, -⟩ := State.prepLines_good hn hk hc hb hcomb
  obtain ⟨hd, hi, -⟩ := (State.lineClean_iff _ _).1 hclean
  have hgood := State.prepLines_lineGood hn hk hc hb hcomb hg
  generalize hbs : natLE aw (amoStored aop aw (leNat (s.dramBytes key aw)) b exp) = bs
  have hlen : bs.length = aw := by rw [← hbs, natLE_length]
  have h0 : bs ≠ [] := List.length_pos_iff.1 (by omega)
  have hpart := State.writePart_clean (k := key) (bs := bs) hd hi (hinj.congr hsame.regs)
  simp only [State.homeAmo, State.consumeLine_good hgood, State.dramBytes_congr hsame.dram, amoBytes, hbs]
  rw [State.writeHome_part h0 (by omega) (by omega)]
  generalize hv : ((s.prepLines key aw true h).writePart key bs) = v at hpart
  have hall := ((v.dirtyGran_sameData (key / 4096)).trans hpart).trans (State.putDram_sameData hsame key bs)
  have hnl : (v.dirtyGran (key / 4096)).NoLines := by
    intro e he
    rw [hall.thr, State.putDram_fields bs s] at he
    exact hl e he
  rw [State.notify_off hnl]
  exact ⟨_, rfl, hall⟩

/-! ### Marks of the leaves (Table 2.5) -/

theorem State.place_congr {u s : State} (hr : u.regs = s.regs) (lpa : Nat) : u.place lpa = s.place lpa := by
  have h : ∀ so, u.placeOf so = s.placeOf so := fun so => by
    unfold State.placeOf State.rsvGib
    rw [State.fld_congr hr]
  simp only [State.place, h]

theorem State.walkEntry_congr {u s : State} (hr : u.regs = s.regs) (lvl e : Nat) : u.walkEntry lvl e = s.walkEntry lvl e := by
  simp only [State.walkEntry, State.place_congr hr]

theorem State.findLeaf_congr {u s : State} (hr : u.regs = s.regs) (hd : u.dram = s.dram) (va : Nat) :
    ∀ fuel lvl tbl, u.findLeaf va fuel lvl tbl = s.findLeaf va fuel lvl tbl
  | 0, _, _ => rfl
  | fuel + 1, lvl, tbl => by
    simp only [State.findLeaf, State.place_congr hr, State.dramBytes_congr hd, State.walkEntry_congr hr, State.findLeaf_congr hr hd va fuel]

theorem State.leafMarked_congr {u s : State} (hr : u.regs = s.regs) (hd : u.dram = s.dram) (va : Nat) (k : AKind) :
    u.leafMarked va k = s.leafMarked va k := by
  simp only [State.leafMarked, State.findLeaf_congr hr hd, State.fld_congr hr]

/-- An access whose leaf has its marks sets none. -/
theorem State.markAccess_marked {s : State} {va : Nat} {k : AKind} (h : s.leafMarked va k = true) : s.markAccess va k = s := by
  unfold State.leafMarked at h
  unfold State.markAccess
  split
  next l hl =>
    rw [hl] at h
    exact if_pos (eq_of_beq h)
  next => rfl

/-- A leaf that a walk finds is the word at its key. -/
theorem State.findLeaf_word (s : State) (va : Nat) {l : Leaf} : ∀ fuel lvl tbl, s.findLeaf va fuel lvl tbl = some l → l.e = leNat (s.dramBytes l.key 8)
  | 0, _, _, h => by simp [State.findLeaf] at h
  | fuel + 1, lvl, tbl, h => by
    simp only [State.findLeaf] at h
    split at h
    next k hk =>
      split at h
      next lpa hn => exact s.findLeaf_word va fuel _ _ h
      next e he =>
        have hword : e = leNat (s.dramBytes k 8) := by
          unfold State.walkEntry at he
          split at he
          · cases he
          · split at he
            · dsimp only at he
              split at he
              · cases he
              · split at he <;> cases he
            · split at he
              · cases he
              · split at he
                · cases he
                  rfl
                · cases he
        cases h
        exact hword
      next => cases h
    next => cases h

theorem State.dramBytes_putDram_same (s : State) (k : Nat) (bs : List Byte) : (s.putDram k bs).dramBytes k bs.length = bs := by
  refine List.ext_getElem (by simp [State.dramBytes]) fun i h1 h2 => ?_
  simp only [State.dramBytes, List.getElem_map, List.getElem_range]
  exact State.dramByte_putDram_in bs s k i h2

theorem natLE_leNat {bs : List Byte} {n : Nat} (h : bs.length = n) : natLE n (leNat bs) = bs := by
  induction bs generalizing n with
  | nil => rw [← h]; rfl
  | cons b bs ih =>
    obtain rfl : n = bs.length + 1 := h.symm
    have hb := b.isLt
    have h1 : (b.toNat + 256 * leNat bs) % 256 = b.toNat := by omega
    have h2 : (b.toNat + 256 * leNat bs) / 256 = leNat bs := by omega
    rw [leNat, natLE, h1, h2, ih rfl, BitVec.ofNat_toNat, BitVec.setWidth_eq]

/-- Bytes put back where they lie change no byte. -/
theorem State.dramByte_putDram_self (s : State) (k n j : Nat) : (s.putDram k (s.dramBytes k n)).dramByte j = s.dramByte j := by
  by_cases hj : k ≤ j ∧ j < k + n
  · obtain ⟨i, rfl⟩ := Nat.exists_eq_add_of_le hj.1
    rw [State.dramByte_putDram_in _ s k i (by simp [State.dramBytes]; omega)]
    simp [State.dramBytes]
  · exact State.dramByte_putDram_out _ s k j (by simp [State.dramBytes]; omega)

theorem State.injectOn_dram (s : State) (line : Nat) : (s.injectOn line).dram = s.dram := by
  unfold State.injectOn
  dsimp only
  split
  · rw [State.setFlag_dram, State.setFlag_dram]
    rfl
  · rfl

/-- A part of a clean line written, with or without an injection that waits. -/
theorem State.writePart_dram {s : State} {k : Nat} {bs : List Byte} (hc : s.decode (k / 64) = .clean) :
    (s.writePart k bs).dram = (s.putDram k bs).dram := by
  have hinner : (s.countInner (k / 64)).dram = s.dram := by
    unfold State.countInner
    split
    · rw [State.inc_dram]
    · rfl
  have hmsc : ∀ (u : State) (line : Nat), (u.injectMsc line).dram = u.dram := by
    intro u line
    unfold State.injectMsc State.injDone
    dsimp only
    split
    · rw [State.setFlag_dram, State.setFlag_dram]
    · rfl
  have hpc := (s.decode_clean_iff _ |>.1 hc).1
  rw [keyStack_line, offPc_line] at hpc
  simp only [State.writePart, State.readLine, hc]
  rw [if_neg hpc, hmsc, State.wordWritten, State.injectOn_dram]
  exact State.putDram_dram_congr bs k hinner

/-- The first access of a kind to a page sets its marks in the leaf's word, and nothing else of memory. -/
theorem State.markAccess_sets {s : State} {va : Nat} (k : AKind) {l : Leaf} (hl : s.findLeaf va 5 0 (s.fld fPkg_TROOT) = some l)
    (hc : s.decode (l.key / 64) = .clean) :
    (s.markAccess va k).dramBytes l.key 8 = natLE 8 (l.e ||| 0x80 ||| (if k.writes then 0x100 else 0)) ∧
    ∀ j, j < l.key ∨ l.key + 8 ≤ j → (s.markAccess va k).dramByte j = s.dramByte j := by
  generalize hw : l.e ||| 0x80 ||| (if k.writes then 0x100 else 0) = w
  have hput : ∀ j, (s.markLeaf l k).dramByte j = (s.putDram l.key (natLE 8 w)).dramByte j := by
    intro j
    simp only [State.markLeaf, hw]
    split
    next he =>
      rw [he, s.findLeaf_word va _ _ _ hl, natLE_leNat (by simp [State.dramBytes]), State.dramByte_putDram_self]
    next => rw [State.dramByte, State.writePart_dram hc, State.dramByte]
  have hacc : s.markAccess va k = s.markLeaf l k := by simp only [State.markAccess, hl]
  refine ⟨?_, fun j hj => ?_⟩
  · have hbytes : (s.markLeaf l k).dramBytes l.key 8 = (s.putDram l.key (natLE 8 w)).dramBytes l.key 8 := by
      simp only [State.dramBytes, hput]
    have := s.dramBytes_putDram_same l.key (natLE 8 w)
    rw [natLE_length] at this
    rw [hacc, hbytes, this]
  · rw [hacc, hput]
    exact State.dramByte_putDram_out _ s l.key j (by rwa [natLE_length])

/-! ### What finding a leaf leaves alone -/

theorem State.event_thr (s : State) (log : Nat) (k : EvKind) (loc data : W64) (frec : List Byte) : (s.event log k loc data frec).thr = s.thr :=
  (s.event_sameStores log k loc data frec).thr

theorem State.putBar_thr (bs : List Byte) : ∀ (s : State) (k : Nat), (s.putBar k bs).thr = s.thr := by
  induction bs with
  | nil => exact fun _ _ => rfl
  | cons b bs ih => exact fun s k => ih _ _

theorem State.logRecord_thr (s : State) (d : Det) : (s.logRecord d).2.thr = s.thr := by
  have hd : ∀ (t : State) (c : Nat), (t.dooms c).thr = t.thr := fun t c => (t.dooms_sameStores c).thr
  unfold State.logRecord
  dsimp only
  split <;> split <;> simp only [State.setFlag_thr, State.setFld_thr, State.inc_thr, hd, State.putBar_thr, State.draw_thr] <;> rfl

theorem State.report_thr (s : State) (d : Det) (ev : Option (Nat × EvKind)) : (s.report d ev).thr = s.thr := by
  have hl : ∀ (t : State) (bs : List Byte), (t.commitSafeLast d bs).thr = t.thr := fun t bs => (t.commitSafeLast_sameStores d bs).thr
  have hset : ∀ t : State, (if 2 ≤ d.react then t.setFlag fSafe_FAULT true else t).thr = t.thr := by
    intro t
    split <;> rfl
  unfold State.report
  dsimp only
  split
  · rw [hl, State.logRecord_thr]
  · split
    · rw [State.event_thr, hset, hl, State.logRecord_thr]
    · split
      · rw [State.event_thr, hset, hl, State.logRecord_thr]
      · split
        · rw [State.event_thr, hset, hl, State.logRecord_thr]
        · split
          · rw [State.event_thr, hset, hl, State.logRecord_thr]
          · rw [hset, hl, State.logRecord_thr]

theorem State.modStk_thr (s : State) (n : Nat) (f : StackSt → StackSt) : (s.modStk n f).thr = s.thr := rfl

theorem State.markLane_thr (s : State) (n p lane : Nat) : (s.markLane n p lane).thr = s.thr := by
  have hfail : ∀ t : State, (t.failPc n p).thr = t.thr := fun t => by rw [State.failPc, State.report_thr]; rfl
  have hq : ∀ t : State, (t.queueLane n p lane).thr = t.thr := fun _ => rfl
  unfold State.markLane
  split
  · rfl
  · dsimp only
    split
    · split
      · rw [hq]
        exact State.event_thr ..
      · rw [hfail, State.event_thr]
        rfl
    · rw [hfail, State.event_thr]
      rfl
    · rw [State.event_thr]
      rfl

theorem State.countLane_thr (s : State) (n p lane k : Nat) : (s.countLane n p lane k).thr = s.thr := by
  unfold State.countLane
  dsimp only
  split
  · exact State.markLane_thr ..
  · split
    · split
      · exact State.markLane_thr ..
      · rfl
    · rfl

theorem State.countRow_thr (s : State) (n o : Nat) : (s.countRow n o).thr = s.thr := by
  have hspare : ∀ (t : State) (pc bank row : Nat), (t.spareRow n pc bank row).thr = t.thr := by
    intro t pc bank row
    unfold State.spareRow
    dsimp only
    split
    · rfl
    · split
      · rfl
      · split
        · exact State.event_thr ..
        · split <;> rfl
  unfold State.countRow
  dsimp only
  split
  · exact hspare ..
  · rfl

theorem State.foldl_thr {α : Type} {f : State → α → State} (hf : ∀ t x, (f t x).thr = t.thr) (l : List α) (s : State) :
    (l.foldl f s).thr = s.thr := by
  induction l generalizing s with
  | nil => rfl
  | cons x l ih => rw [List.foldl_cons, ih, hf]

theorem State.setSymErr_thr (s : State) (line : Nat) (l : List Nat) : (s.setSymErr line l).thr = s.thr := rfl
theorem State.setInner_thr (s : State) (line c : Nat) : (s.setInner line c).thr = s.thr := rfl
theorem State.setInjected_thr (s : State) (line : Nat) (b : Bool) : (s.setInjected line b).thr = s.thr := rfl
theorem State.setPoison_thr (s : State) (line : Nat) (b : Bool) : (s.setPoison line b).thr = s.thr := rfl

theorem State.injectOn_thr (s : State) (line : Nat) : (s.injectOn line).thr = s.thr := by
  unfold State.injectOn
  dsimp only
  split
  · rw [State.setFlag_thr, State.setFlag_thr, State.setInjected_thr, State.setPoison_thr, State.setSymErr_thr]
  · rfl

theorem State.wordWritten_thr (s : State) (line : Nat) : (s.wordWritten line).thr = s.thr := by
  rw [State.wordWritten, State.injectOn_thr, State.setInjected_thr, State.setInner_thr, State.setSymErr_thr]

theorem State.setLastCe_thr (s : State) (n o lane : Nat) : (s.setLastCe n o lane).thr = s.thr := by
  rw [State.setLastCe, State.setFld_thr, State.setFld_thr, State.setFld_thr, State.setFld_thr, State.setFld_thr]

theorem State.countLanes_thr (s : State) (n p : Nat) (f : Nat → Nat) (l : List Nat) :
    (l.foldl (fun t l => t.countLane n p l (f l)) s).thr = s.thr :=
  State.foldl_thr (fun t x => t.countLane_thr n p x (f x)) l s

theorem State.corrected_thr (s : State) (line : Nat) (syms : List Nat) : (s.corrected line syms).thr = s.thr := by
  have hmod : ∀ t : State, (if (s.dir line).mod then t else t.wordWritten line).thr = t.thr := by
    intro t
    split
    · rfl
    · exact State.wordWritten_thr t line
  unfold State.corrected
  dsimp only
  rw [State.countRow_thr, State.countLanes_thr, hmod, State.setLastCe_thr, State.setFlag_thr, State.inc_thr]

theorem State.miscorrected_thr (s : State) (line : Nat) : (s.miscorrected line).thr = s.thr := by
  unfold State.miscorrected
  dsimp only
  rw [State.corrected_thr, State.foldl_thr fun t _ => by rw [State.putDram_fields]]

section Found
variable {s u : State} {line : Nat}

theorem State.readLine_thr (h : s.readLine line = (true, u)) : u.thr = s.thr := by
  have hinner : (s.countInner line).thr = s.thr := by
    unfold State.countInner
    split
    · rw [State.inc_thr]
    · rfl
  unfold State.readLine at h
  split at h <;> cases h
  · exact hinner
  · exact (State.corrected_thr ..).trans hinner
  · exact (State.miscorrected_thr ..).trans hinner

theorem State.takeLine_thr (h : s.takeLine line = (true, u)) : u.thr = s.thr := by
  unfold State.takeLine at h
  split at h
  · cases h
  · split at h <;> cases h
    next hr => exact State.readLine_thr hr

theorem State.consumeLine_thr {cross : Bool} (h : s.consumeLine cross line = (true, u)) : u.thr = s.thr := by
  unfold State.consumeLine at h
  split at h
  · cases h
  · split at h
    · cases h
    · split at h <;> cases h
      next hr => exact State.takeLine_thr hr

theorem State.walk_thr {va : Nat} {l : Leaf} : ∀ {fuel lvl tbl : Nat} {s : State}, s.walk va fuel lvl tbl = (.leaf l, u) → u.thr = s.thr
  | 0, _, _, _, h => by cases h
  | fuel + 1, lvl, tbl, s, h => by
    unfold State.walk at h
    split at h
    · split at h
      · cases h
      · split at h
        · cases h
        next s1 hr =>
          have hthr := State.consumeLine_thr hr
          dsimp only at h
          split at h
          · exact (State.walk_thr h).trans hthr
          · cases h
            exact hthr
          · cases h
          · cases h
    · cases h

end Found

/-- Where an address of device memory lies in its 4 KiB. -/
theorem State.place_dram {s : State} {lpa key : Nat} (h : s.place lpa = .dram key) : key % 4096 = lpa % 4096 := by
  have hof : ∀ so : Nat × Nat, s.placeOf so = .dram key → key % 4096 = so.2 % 4096 := by
    intro so hso
    unfold State.placeOf at hso
    split at hso
    · cases hso
    · split at hso <;> cases hso
      omega
  unfold State.place at h
  split at h
  · rw [hof _ h, decodePinned]
    omega
  · split at h
    · rw [hof _ h, decodeNear]
      omega
    · split at h
      · rw [hof _ h, decodeNear]
        omega
      · split at h
        · rw [hof _ h, decodeSpread]
          omega
        · split at h
          · cases h
          · split at h <;> cases h

theorem State.leafTarget_dram {s : State} {who : Who} {va key : Nat} {l : Leaf} {k : AKind} (h : s.leafTarget who va l k = .ok (.dram key)) :
    key % 4096 = va % 4096 := by
  have hb : 4096 ∣ 2 ^ leafBits l.lvl := by
    unfold leafBits
    split <;> decide
  have hoff : va % 2 ^ leafBits l.lvl % 4096 = va % 4096 := Nat.mod_mod_of_dvd va hb
  simp only [State.leafTarget] at h
  by_cases ha : (leafAllows l.e (if who = .model then .load else k)) = true
  · rw [if_neg (by simp [ha])] at h
    rcases hb : bitsOf l.e 6 5 with _ | _ | n
    · simp only [hb] at h
      rcases hpl : s.place (bitsOf l.e 47 16 * 65536 + va % 2 ^ leafBits l.lvl) with k' | _ | _ | o | o
      · simp only [hpl] at h
        split at h
        · cases h
        · cases h
          have := State.place_dram hpl
          omega
      all_goals simp only [hpl] at h
      · cases h
      · split at h <;> cases h
      · split at h
        · cases h
        · cases who <;> dsimp only at h
          · split at h <;> cases h
          all_goals cases h
      · cases h
    · simp only [hb] at h
      cases h
    · simp only [hb] at h
      cases h
  · rw [if_pos (by simpa using ha)] at h
    cases h

/-- A translation to device memory is no view's, leaves the threads alone and keeps the address's place in its 4 KiB (R36 to R41). -/
theorem State.xlate_dram {s u : State} {who : Who} {va key : Nat} {k : AKind} (h : s.xlate who va k = (.ok (.dram key), u)) :
    s.viewAt va = none ∧ u.thr = s.thr ∧ key % 4096 = va % 4096 := by
  unfold State.xlate at h
  split at h
  · split at h <;> cases h
  next hv =>
    unfold State.xlatePage at h
    split at h
    · cases h
    · split at h
      · cases h
      · cases h
      next l s1 hw =>
        obtain ⟨ht, rfl⟩ := Prod.mk.inj h
        exact ⟨hv, State.walk_thr hw, State.leafTarget_dram ht⟩

/-- An access within one line is not cut: pages end at multiples of 4096, views at multiples of 64. -/
theorem State.segs_one (s : State) {va n : Nat} (hn : 0 < n) (hp : va % 4096 + n ≤ 4096) (hl : va % 64 + n ≤ 64) : s.segs va n = [(va, n)] := by
  have hcnt : (va % 4096 + n + 4095) / 4096 = 1 := by omega
  have hlo : max va ((va / 4096 + 0) * 4096) = va := by omega
  have hhi : min (va + n) ((va / 4096 + 0) * 4096 + 4096) - va = n := by omega
  have hseg : segments va n = [(va, n)] := by simp only [segments, hcnt, List.range_one, List.map_cons, List.map_nil, hlo, hhi]
  have hup : ∀ m, up64 m % 64 = 0 := fun m => by
    unfold up64
    omega
  have hcut : s.viewCut va n = none := by
    rw [State.viewCut, List.find?_eq_none]
    intro e he
    have h64 : e % 64 = 0 := by
      obtain ⟨i, -, hi⟩ := List.mem_flatMap.1 he
      dsimp only at hi
      split at hi
      · simp only [List.mem_cons, List.not_mem_nil, or_false] at hi
        rcases hi with rfl | rfl
        · exact hup _
        · exact hup _
      · obtain rfl := List.mem_singleton.1 hi
        exact hup _
    simp only [decide_eq_true_eq]
    omega
  simp only [State.segs, hseg, List.flatMap_cons, List.flatMap_nil, hcut, List.append_nil]

/-! ### Loads, stores and atomics of device memory -/

/-- Entries in the order of their keys are found. -/
theorem tabFind_range (f : Nat → Byte) (o : Nat) {n i : Nat} (h : i < n) :
    tabFind ((List.range n).map fun i => (o + i, f i)) (o + i) = some (f i) := by
  have from_ : ∀ (m a : Nat), a ≤ i → i < a + m → tabFind ((List.range' a m).map fun i => (o + i, f i)) (o + i) = some (f i) := by
    intro m
    induction m with
    | zero => omega
    | succ m ih =>
      intro a ha hi
      rw [List.range'_succ, List.map_cons, tabFind]
      split
      next he => rw [show a = i by omega]
      next he => exact ih (a + 1) (by omega) (by omega)
  rw [List.range_eq_range']
  exact from_ n 0 (Nat.zero_le i) (by omega)

/-- The bytes of one piece, in their order. -/
theorem placed_bytes {bs : List Byte} {w : Nat} (h : bs.length = w) : (List.range w).map (fun i => (tabFind (placed 0 bs) i).getD 0) = bs := by
  subst h
  refine List.ext_getElem (by simp) fun i h1 h2 => ?_
  have := tabFind_range (fun i => bs.getD i 0) 0 h2
  rw [Nat.zero_add] at this
  simp only [List.getElem_map, List.getElem_range, placed, this, Option.getD_some]
  exact List.getD_eq_getElem bs 0 h2

/-- What an access on an issuing thread finds: its page is device memory, its leaf has the marks of the access's kind. -/
structure State.AtDram (s1 s2 : State) (t : Tid) (va key n : Nat) (k : AKind) : Prop where
  pos : 0 < n
  page : va % 4096 + n ≤ 4096
  line : key % 64 + n ≤ 64
  found : s1.xlate (s1.whoOf t) va k = (.ok (.dram key), s2)
  comb : (s2.stk (keyStack (key / 64 * 64))).comb.any (fun e => e.1 == key / 64) = false

section AtDram
variable {s1 s2 : State} {t : Tid} {va key n : Nat}

theorem State.AtDram.segs {k : AKind} (h : s1.AtDram s2 t va key n k) : s1.segs va n = [(va, n)] := by
  obtain ⟨-, -, hkey⟩ := State.xlate_dram h.found
  have := h.line
  exact s1.segs_one h.pos h.page (by omega)

theorem State.AtDram.thr {k : AKind} (h : s1.AtDram s2 t va key n k) : s2.thr = s1.thr := (State.xlate_dram h.found).2.1

/-- A load within one good line, on a page whose A mark is set. -/
theorem State.loadBody_dram (h : s1.AtDram s2 t va key n .load) (d : Reg) (acq : Bool) (hm : s2.leafMarked va .load = true)
    (hst : s2.accessStalled key n false = false) (hb : s2.biLines key n false (holderIn t key) = []) (hg : s2.lineGood (key / 64) = true) :
    ∃ u : State, s1.loadBody t d n va acq = .done (if acq then (u.putResult t d n (leNat (s2.dramBytes key n))).acquired t
      else u.putResult t d n (leNat (s2.dramBytes key n))) ∧ u.SameData s2 := by
  obtain ⟨u, hu, hsame⟩ := State.ldDram_good h.pos h.line hg hst hb h.comb
  have hmark : u.markAccess va .load = u := State.markAccess_marked (by rw [State.leafMarked_congr hsame.regs hsame.dram, hm])
  have hp := placed_bytes (bs := s2.dramBytes key n) (w := n) (by simp [State.dramBytes])
  refine ⟨u, ?_, hsame⟩
  simp only [State.loadBody, h.segs, State.ldPieces, State.ldPiece, h.found, Nat.sub_self, hu, ldLocal, LdAcc.marked, hmark,
    List.nil_append, hp]

/-- A store within one clean line, on a page whose marks are set, that no thread watches. -/
theorem State.storeBody_dram {bs : List Byte} (h : s1.AtDram s2 t va key bs.length .store) (hva : va < 2 ^ 64) (h64 : bs.length < 64)
    (hm : s2.leafMarked va .store = true) (hp : s2.protectedKey key bs.length = false) (hu0 : s2.unitProtected key = false)
    (hu1 : s2.unitProtected (key + bs.length - 1) = false) (hst : s2.accessStalled key bs.length true = false)
    (hb : s2.biLines key bs.length true (holderIn t key) = []) (hc : s2.lineClean (key / 64) = true) (hinj : s2.NoInj) (hl : s2.NoLines) :
    ∃ u : State, s1.storeBody t va bs 0 = .done u ∧ u.SameData (s2.putDram key bs) := by
  have h0 : bs ≠ [] := List.length_pos_iff.1 h.pos
  have hslice : sliceB bs (va - va) bs.length = bs := by rw [Nat.sub_self, sliceB_whole]
  have hvan : (BitVec.ofNat 64 va).toNat = va := by rw [BitVec.toNat_ofNat, Nat.mod_eq_of_lt hva]
  have hdram : s2.stDram t key bs (BitVec.ofNat 64 va) = (.ok, s2.homeWrite (holderIn t key) key bs) := by
    simp only [State.stDram, hp, hu0, hu1, hst, State.biGate_none t hb, hvan, State.markAccess_marked hm, Bool.false_eq_true, or_self, if_false]
  refine ⟨_, ?_, State.homeWrite_clean (h := holderIn t key) h0 h.line h64 (State.biNeeded_of_biLines h.pos h.line hb) h.comb hinj hl hc⟩
  simp only [State.storeBody, ordRel, h.segs, State.stPieces, State.stPiece, h.found, hslice, hdram]
  simp

/-- An atomic within one good line that no thread watches, on a page whose marks are set and stay set. -/
theorem State.amoBody_dram {x : AmoArg} (h : s1.AtDram s2 t x.va key x.w .atomic) (hal : x.va % x.w = 0) (h64 : x.w < 64)
    (hp : s2.protectedKey key x.w = false) (hu : s2.unitProtected key = false) (hst : s2.accessStalled key x.w true = false)
    (hb : s2.biLines key x.w true .none = []) (hg : s2.lineGood (key / 64) = true) (hinj : s2.NoInj) (hl : s2.NoLines)
    (hm : (s2.putDram key (natLE x.w (amoStored x.aop x.w (leNat (s2.dramBytes key x.w)) x.b x.exp))).leafMarked x.va .atomic = true) :
    ∃ u : State, s1.amoBody t x false = .done (u.amoDone t x (leNat (s2.dramBytes key x.w))) ∧
      u.SameData (s2.putDram key (natLE x.w (amoStored x.aop x.w (leNat (s2.dramBytes key x.w)) x.b x.exp))) := by
  have hbi : ∀ hd : Holder, hd = .inStack ∨ hd = .none → s2.biNeeded (key / 64) true hd = false := by
    have := State.biNeeded_of_biLines h.pos h.line hb
    rintro hd (rfl | rfl) <;> simpa [State.biNeeded] using this
  obtain ⟨u, hamo, hsame⟩ := State.homeAmo_good (h := if nearStack t = some (keyStack key) then .inStack else .none) x.aop x.b x.exp h.pos h.line
    h64 (hbi _ (by split <;> simp)) h.comb hinj hl hg
  refine ⟨u, ?_, hsame⟩
  have hdone : (u.amoDone t x (leNat (s2.dramBytes key x.w))).leafMarked x.va .atomic = true := by
    have hr : (u.amoDone t x (leNat (s2.dramBytes key x.w))).regs = u.regs ∧ (u.amoDone t x (leNat (s2.dramBytes key x.w))).dram = u.dram := by
      unfold State.amoDone State.acquired
      dsimp only
      split
      · split <;> exact ⟨rfl, rfl⟩
      · exact ⟨rfl, rfl⟩
    rw [State.leafMarked_congr (hr.1.trans hsame.regs) (hr.2.trans hsame.dram), hm]
  simp only [State.amoBody, hal, ne_eq, not_true_eq_false, if_false, Bool.false_eq_true, false_and, h.found, hp, hu, hst, State.biGate_none t hb, hamo,
    State.markAccess_marked hdone]

end AtDram

/-- What a load or an atomic leaves when it retires: its result in D, and memory and registers as they were. -/
theorem State.result_fields (u : State) (t : Tid) (d : Reg) (n v : Nat) (acq : Bool) :
    (if acq then (u.putResult t d n v).acquired t else u.putResult t d n v).ctx t = (u.ctx t).putNarrow d n v ∧
    (if acq then (u.putResult t d n v).acquired t else u.putResult t d n v).dram = u.dram ∧
    (if acq then (u.putResult t d n v).acquired t else u.putResult t d n v).regs = u.regs ∧
    (if acq then (u.putResult t d n v).acquired t else u.putResult t d n v).bar2 = u.bar2 := by
  have hput : (u.putResult t d n v).ctx t = (u.ctx t).putNarrow d n v := State.ctx_modCtx_same u t fun c => c.putNarrow d n v
  have hacq : ∀ x : State, (x.acquired t).ctx t = x.ctx t ∧ (x.acquired t).dram = x.dram ∧ (x.acquired t).regs = x.regs ∧
      (x.acquired t).bar2 = x.bar2 := by
    intro x
    unfold State.acquired
    split <;> exact ⟨rfl, rfl, rfl, rfl⟩
  obtain ⟨h1, h2, h3, h4⟩ := hacq (u.putResult t d n v)
  cases acq
  · exact ⟨hput, rfl, rfl, rfl⟩
  · exact ⟨h1.trans hput, h2, h3, h4⟩

theorem MemW.bytes_pos (w : MemW) : 0 < w.bytes ∧ w.bytes ≤ 8 := by cases w <;> decide

theorem aligned_page {w : MemW} {va : Nat} (hw : 4 ≤ w.bytes) (h : va % w.bytes = 0) : va % 4096 + w.bytes ≤ 4096 := by
  cases w <;> simp only [MemW.bytes] at hw h ⊢ <;> omega

theorem Ctx.putNarrow_ga (c : Ctx) (d : Reg) (n v : Nat) : (∃ free, (c.putNarrow d n v).ga d = narrow n v free) ∧
    ∀ r : Nat, r ≠ d.val → (c.putNarrow d n v).ga r = c.ga r :=
  ⟨⟨_, Ctx.ga_sa_same ..⟩, fun _ hr => Ctx.ga_sa_ne _ _ hr⟩

section Retired
variable {s s1 s2 u : State} {t : Tid} {tgt : Target} {d : Reg} {n v : Nat} {acq : Bool} {i : Instr} {body : State → TRes}
  (h : s.Issues t profWork tgt s1)
  (hb : body s1 = .done (if acq then (u.putResult t d n v).acquired t else u.putResult t d n v)) (hthr : u.thr = s2.thr) (hs2 : s2.thr = s1.thr)
include h hb hthr hs2

/-- An access that gives D a result. -/
theorem State.Issues.result : ∃ x : State, s.issue t i profWork body = x ∧ x.ctx t = ((s2.ctx t).putNarrow d n v).retired ∧
    x.dram = u.dram ∧ x.regs = u.regs ∧ x.bar2 = u.bar2 := by
  obtain ⟨hctx, hd, hr, hbar⟩ := u.result_fields t d n v acq
  rw [State.ctx_congr hthr] at hctx
  have hstop : ((if acq then (u.putResult t d n v).acquired t else u.putResult t d n v).ctx t).stopPending = false := by
    rw [hctx, State.ctx_congr hs2]
    exact h.unstopped
  refine ⟨_, h.done i hb hstop, ?_, ?_, ?_, ?_⟩
  · rw [State.ctx_modCtx_same, hctx]
  · rw [State.modCtx_dram, hd]
  · rw [State.modCtx_regs, hr]
  · rw [State.modCtx_bar2, hbar]

end Retired

theorem State.dramByte_congr {u s : State} (h : u.dram = s.dram) (j : Nat) : u.dramByte j = s.dramByte j := by
  simp only [State.dramByte, h]

/-- A load of device memory retires. -/
theorem exec_ld_dram {s s1 s2 : State} {t : Tid} {tgt : Target} {w : MemW} {d a : Reg} {imm : Byte} {ord : Fin 8} {key : Nat}
    (h : s.Issues t profWork tgt s1) (ho : ord.val ≤ 1) (hat : s1.AtDram s2 t (memAddr ((s1.ctx t).ga a) imm w.bytes) key w.bytes .load)
    (hm : s2.leafMarked (memAddr ((s1.ctx t).ga a) imm w.bytes) .load = true) (hst : s2.accessStalled key w.bytes false = false)
    (hb : s2.biLines key w.bytes false (holderIn t key) = []) (hg : s2.lineGood (key / 64) = true) :
    ∃ x : State, exec (.ld t w d a imm ord) s = .next x ∧ x.ctx t = ((s2.ctx t).putNarrow d w.bytes (leNat (s2.dramBytes key w.bytes))).retired ∧
      x.dram = s2.dram ∧ x.regs = s2.regs ∧ x.bar2 = s2.bar2 := by
  obtain ⟨u, hu, hsame⟩ := State.loadBody_dram hat d (ordAcq ord) hm hst hb hg
  obtain ⟨x, hx, hctx, hd, hr, hbar⟩ := h.result (i := .ld t w d a imm ord) (body := fun s1 => if 1 < ord.val then .fault s1 { code := 0x21 }
    else s1.loadBody t d w.bytes (memAddr ((s1.ctx t).ga a) imm w.bytes) (ordAcq ord)) (by rw [if_neg (by omega), hu]) hsame.thr hat.thr
  exact ⟨x, congrArg Host.Outcome.next hx, hctx, hd.trans hsame.dram, hr.trans hsame.regs, hbar.trans hsame.bar2⟩

/-- A plain store to device memory retires. -/
theorem exec_st_dram {s s1 s2 : State} {t : Tid} {tgt : Target} {w : MemW} {d a : Reg} {imm : Byte} {key : Nat}
    (h : s.Issues t profWork tgt s1) (hat : s1.AtDram s2 t (memAddr ((s1.ctx t).ga a) imm w.bytes) key w.bytes .store)
    (hm : s2.leafMarked (memAddr ((s1.ctx t).ga a) imm w.bytes) .store = true) (hp : s2.protectedKey key w.bytes = false)
    (hu0 : s2.unitProtected key = false) (hu1 : s2.unitProtected (key + w.bytes - 1) = false) (hst : s2.accessStalled key w.bytes true = false)
    (hb : s2.biLines key w.bytes true (holderIn t key) = []) (hc : s2.lineClean (key / 64) = true) (hinj : s2.NoInj) (hl : s2.NoLines) :
    ∃ u : State, exec (.st t w d a imm 0) s = .next (u.setCtx t (s2.ctx t).retired) ∧
      u.SameData (s2.putDram key (natLE w.bytes ((s1.ctx t).ga d).toNat)) := by
  have hlen := natLE_length w.bytes ((s1.ctx t).ga d).toNat
  obtain ⟨-, hw⟩ := MemW.bytes_pos w
  generalize hbs : natLE w.bytes ((s1.ctx t).ga d).toNat = bs at hlen
  rw [← hlen] at hat hp hu1 hst hb
  obtain ⟨u, hu, hsame⟩ := State.storeBody_dram hat (BitVec.isLt _) (by omega) (by rwa [hlen]) hp hu0 hu1 hst hb hc hinj hl
  have hthr : u.thr = s2.thr := by rw [hsame.thr, State.putDram_fields]
  have hctx : u.ctx t = s2.ctx t := State.ctx_congr hthr t
  refine ⟨u, congrArg Host.Outcome.next ?_, hsame⟩
  rw [h.done (s2 := u), State.modCtx, hctx]
  · simp only [hbs, ← hu, hlen]
    simp
  · rw [hctx, State.ctx_congr hat.thr]
    exact h.unstopped

/-- The operands of an atomic instruction (R54). -/
def Ctx.amoArg (c : Ctx) (aop : Nat) (w : MemW) (d a b : Reg) (ord : Fin 8) : AmoArg where
  va := (c.ga a).toNat
  w := w.bytes
  aop := aop
  b := (c.ga b).toNat % 2 ^ (8 * w.bytes)
  exp := (c.ga d).toNat % 2 ^ (8 * w.bytes)
  d := d
  acq := ordAcq ord

/-- What an atomic operation stores at its location. -/
def AmoArg.stored (x : AmoArg) (old : Nat) : List Byte := natLE x.w (amoStored x.aop x.w old x.b x.exp)

theorem State.amoInsn_eq (s : State) (t : Tid) (i : Instr) (aop : Nat) (w : MemW) (d a b : Reg) (ord : Fin 8) : s.amoInsn t i aop w d a b ord =
    s.issue t i profWork fun s1 => if 3 < ord.val ∨ w.bytes < 4 then .fault s1 { code := 0x21 }
      else s1.amoBody t ((s1.ctx t).amoArg aop w d a b ord) (ordRel ord) := rfl

/-- An atomic without a release on device memory retires. -/
theorem State.Issues.amoInsn_dram {s s1 s2 : State} {t : Tid} {tgt : Target} {i : Instr} {aop : Nat} {w : MemW} {d a b : Reg} {ord : Fin 8}
    {key : Nat} (h : s.Issues t profWork tgt s1) (ho : ord.val ≤ 1) (hw4 : 4 ≤ w.bytes) (hal : ((s1.ctx t).ga a).toNat % w.bytes = 0)
    (hat : s1.AtDram s2 t ((s1.ctx t).ga a).toNat key w.bytes .atomic) (hp : s2.protectedKey key w.bytes = false)
    (hu : s2.unitProtected key = false) (hst : s2.accessStalled key w.bytes true = false) (hb : s2.biLines key w.bytes true .none = [])
    (hg : s2.lineGood (key / 64) = true) (hinj : s2.NoInj) (hl : s2.NoLines)
    (hm : (s2.putDram key (((s1.ctx t).amoArg aop w d a b ord).stored (leNat (s2.dramBytes key w.bytes)))).leafMarked ((s1.ctx t).ga a).toNat
      .atomic = true) :
    ∃ x : State, s.amoInsn t i aop w d a b ord = x ∧
      x.ctx t = ((s2.ctx t).putNarrow d w.bytes (leNat (s2.dramBytes key w.bytes))).retired ∧
      x.dram = (s2.putDram key (((s1.ctx t).amoArg aop w d a b ord).stored (leNat (s2.dramBytes key w.bytes)))).dram := by
  obtain ⟨-, hw8⟩ := MemW.bytes_pos w
  obtain ⟨u, hu, hsame⟩ := State.amoBody_dram (x := (s1.ctx t).amoArg aop w d a b ord) hat hal (show w.bytes < 64 by omega) hp hu hst hb hg
    hinj hl hm
  have hthr : u.thr = s2.thr := by rw [hsame.thr, State.putDram_fields]
  have hrel : ordRel ord = false := by
    clear hm hu hsame
    revert ord
    decide
  rw [State.amoInsn_eq]
  obtain ⟨x, hx, hctx, hd, -, -⟩ := h.result (i := i) (d := d) (n := w.bytes) (v := leNat (s2.dramBytes key w.bytes)) (acq := ordAcq ord)
    (u := u) (body := fun s1 => if 3 < ord.val ∨ w.bytes < 4 then .fault s1 { code := 0x21 }
      else s1.amoBody t ((s1.ctx t).amoArg aop w d a b ord) (ordRel ord)) (by rw [if_neg (by omega), hrel, hu]; rfl) hthr hat.thr
  exact ⟨x, hx, hctx, hd.trans hsame.dram⟩

/-- Settles O9: an access within one good line, and the marks of a leaf. -/
theorem loadsStoresAndAtomicsRetire : Obligations.LoadsStoresAndAtomicsRetire := by
  unfold Obligations.LoadsStoresAndAtomicsRetire
  refine ⟨fun s s1 s2 t tgt w d a imm ord key h ho hpage hline hx hm hst hb hg hcomb => ?_,
    fun s s1 s2 t tgt w d a imm key h hpage hline hx hp hu0 hu1 hm hst hb hc hcomb hinj hl => ?_,
    fun s s1 s2 t tgt w d a b ord key h ho hw4 hal hline hx hp hu hst hb hg hcomb hinj hl => ?_⟩
  · obtain ⟨x, hexec, hctx, hd, hr, hbar⟩ := exec_ld_dram h ho ⟨(MemW.bytes_pos w).1, hpage, hline, hx, hcomb⟩ hm hst hb hg (d := d)
    obtain ⟨hres, hother⟩ := (s2.ctx t).putNarrow_ga d w.bytes (leNat (s2.dramBytes key w.bytes))
    refine ⟨x, hexec, ?_, ?_, ?_, ?_, ?_, ?_, State.dramByte_congr hd, hr, hbar⟩ <;> rw [hctx]
    · exact hres
    · rfl
    · rfl
    · exact hother
    · exact fun r => ⟨rfl, rfl, rfl⟩
    · rfl
  · obtain ⟨u, hexec, hsame⟩ := exec_st_dram (d := d) h ⟨(MemW.bytes_pos w).1, hpage, hline, hx, hcomb⟩ hm hp hu0 hu1 hst hb hc hinj hl
    have hlen := natLE_length w.bytes ((s1.ctx t).ga d).toNat
    have hput := s2.dramBytes_putDram_same key (natLE w.bytes ((s1.ctx t).ga d).toNat)
    rw [hlen] at hput
    refine ⟨_, hexec, ?_, fun j hj => ?_, State.ctx_setCtx_same .., ?_, ?_⟩
    · rw [State.dramBytes_congr (State.setCtx_dram ..), State.dramBytes_congr hsame.dram, hput]
    · rw [State.dramByte_congr (State.setCtx_dram ..), State.dramByte_congr hsame.dram]
      exact State.dramByte_putDram_out _ s2 key j (by rwa [hlen])
    · rw [State.setCtx_regs, hsame.regs, State.putDram_regs]
    · rw [State.setCtx_bar2, hsame.bar2, State.putDram_fields]
  · intro m old x e did marked
    have hat : s1.AtDram s2 t ((s1.ctx t).ga a).toNat key w.bytes .atomic := ⟨(MemW.bytes_pos w).1, aligned_page hw4 hal, hline, hx, hcomb⟩
    have amo : ∀ (i : Instr) (aop : Nat), marked aop → (∃ y, s.amoInsn t i aop w d a b ord = y ∧ did aop y) := by
      intro i aop hm
      obtain ⟨y, hy, hctx, hd⟩ := h.amoInsn_dram (i := i) ho hw4 hal hat hp hu hst hb hg hinj hl hm
      obtain ⟨hres, hother⟩ := (s2.ctx t).putNarrow_ga d w.bytes (leNat (s2.dramBytes key w.bytes))
      have hlen := natLE_length w.bytes (amoStored aop w.bytes old x e)
      have hput := s2.dramBytes_putDram_same key (natLE w.bytes (amoStored aop w.bytes old x e))
      rw [hlen] at hput
      refine ⟨y, hy, ?_, ?_, ?_, fun j hj => ?_, ?_⟩
      · rw [hctx]
        exact hres
      · rw [hctx]
        rfl
      · rw [State.dramBytes_congr hd]
        exact hput
      · rw [State.dramByte_congr hd]
        exact State.dramByte_putDram_out _ s2 key j (hlen.symm ▸ hj)
      · rw [hctx]
        exact hother
    have done : ∀ (i : Instr) (aop : Nat), exec i s = .next (s.amoInsn t i aop w d a b ord) → marked aop → Completes i s (did aop) := by
      intro i aop hexec hm
      obtain ⟨y, hy, hdid⟩ := amo i aop hm
      exact ⟨y, by rw [hexec, hy], hdid⟩
    refine ⟨fun op => done _ _ rfl, done _ _ rfl, done _ _ rfl, done _ _ rfl, done _ _ rfl, fun z y k l hl hk hc => ?_⟩
    exact State.markAccess_sets k hl hc

end Sys2Proof.Machine
end

section
/-! The end of a wait (R51, R56, Table 3.2), and what WAIT_CONDITION_MET does besides. -/
namespace Sys2Proof.Machine

/-! ### A wait that ends where a view waits to be given back -/

/-- Control thread 0. -/
def waiter : Tid := ⟨.control, 0⟩

/-- A control thread of job 0x11 that waits at a FENCE.REL; view 0 is VALID, its EN clear, and no access waits for it. -/
def viewOffS : State :=
  { State.reset with
    dram := [(0x1000, 0x01), (0x1001, 0x20), (0x2000, 0x01), (0x2001, 0x30), (0x3000, 0x9F), (0x3001, 0x01), (0x3003, 0x40)]
    regs := [(9, 65553), (10, 4096), (16392, 249), (24584, 2)]
    bar2 := [(viewOff 0 + 0x30, 1)]
    pwr := { PwrSt.starting with mode := .run, mctp := true } }.setCtx waiter
    { Ctx.idle with st := .wait, pc := 0x100, job := 0x11, instr := some (.fenceRel waiter), await := .cond }

theorem viewOffS_issues : (viewOffS.modCtx waiter fun c => { c with st := .ready }).Issues waiter profAll (.dram 0x40000100)
    (viewOffS.modCtx waiter fun c => { c with st := .ready }) where
  valid := by decide +kernel
  ready := by decide +kernel
  run := by decide +kernel
  step := by decide +kernel
  late := by decide +kernel
  free := by decide +kernel
  fetched := by decide +kernel
  admitted := by decide +kernel
  unstopped := by decide +kernel

/-- Whether view 0 is VALID in the state that a command leaves. -/
def viewKept : Host.Outcome State Fault Refusal → Bool
  | .next u => u.viewValid 0
  | _ => false

/-- Refutes O10: WAIT_CONDITION_MET does not only issue the waiting instruction again. It also gives back the slots of a view whose EN was
cleared (R191, `State.retryDereg`), so view 0 of `viewOffS` is no longer VALID, while the statement leaves it as it was. -/
theorem not_fencesLineWatchesAndWaitsEnd : ¬ Obligations.FencesLineWatchesAndWaitsEnd := by
  unfold Obligations.FencesLineWatchesAndWaitsEnd
  rintro ⟨-, -, hmet, -⟩
  have h := hmet viewOffS _ waiter _ (by decide +kernel) (by decide +kernel) (by decide +kernel) (by decide +kernel) viewOffS_issues
    (by decide +kernel)
  have hgone : viewKept (exec (.waitConditionMet waiter) viewOffS) = false := by decide +kernel
  have hkept : viewKept (.next ((viewOffS.modCtx waiter fun c => { c with st := .ready }).setCtx waiter
      ((viewOffS.modCtx waiter fun c => { c with st := .ready }).ctx waiter).retired)) = true := by decide +kernel
  rw [h, hkept] at hgone
  cases hgone

end Sys2Proof.Machine
end

section
/-! Supervisor instructions (R51, R55, R59 to R61, R69). -/
namespace Sys2Proof.Machine

theorem Completes.of {c : Instr} {s u : State} {q : State → Prop} (h : exec c s = .next u) (hq : q u) : Completes c s q := ⟨u, h, hq⟩

/-! ### Supervisor instructions on other threads (R55, R59 to R61) -/

theorem Tid.ofHandle_handle {x : Tid} (hx : x.valid = true) : Tid.ofHandle x.handle = some x := by
  have hn := Tid.num_lt hx
  have hc : x.num < x.kind.count := by simpa [Tid.valid] using hx
  have h1 : x.handle / 65536 = x.kind.code := by
    simp only [Tid.handle]
    omega
  have h2 : x.handle % 65536 = x.num := by
    simp only [Tid.handle]
    omega
  have hk : TKind.ofCode x.kind.code = some x.kind := by cases x.kind <;> rfl
  simp only [Tid.ofHandle, h1, h2, hk, if_pos hc]

theorem Tid.handle_lt {x : Tid} (hx : x.valid = true) : x.handle < 2 ^ 64 := by
  have hn := Tid.num_lt hx
  have hk : x.kind.code ≤ 2 := by cases x.kind <;> decide
  simp only [Tid.handle]
  omega

theorem State.named_handle {s : State} {t x : Tid} (hx : x.valid = true) (hne : x ≠ t) (hj : (s.ctx x).job = (s.ctx t).job) :
    s.named t (BitVec.ofNat 64 x.handle) = some x := by
  rw [State.named, BitVec.toNat_ofNat, Nat.mod_eq_of_lt (Tid.handle_lt hx), Tid.ofHandle_handle hx]
  exact if_neg (by simp [hne, hj])

theorem State.releaseEngines_thr (s : State) (t : Tid) : (s.releaseEngines t).thr = s.thr := by
  have hgot : ∀ (u : State) (r : RUse), (u.dropGot r).thr = u.thr := by
    intro u r
    unfold State.dropGot
    split <;> rfl
  unfold State.releaseEngines
  dsimp only
  split
  · split
    · split
      · rw [State.setEw_thr, hgot, hgot, State.setMat_thr]
      · rw [hgot, hgot, State.setMat_thr]
    · split
      · rw [State.setEw_thr]
      · rfl
  · rfl

section ActOn
variable {s s1 s2 : State} {t x : Tid} {tgt : Target} {a : Reg} (h : s.Issues t profSup tgt s1) (hx : x.valid = true) (hne : x ≠ t)
  (ha : (s1.ctx t).ga a = BitVec.ofNat 64 x.handle) (hj : (s1.ctx x).job = (s1.ctx t).job)
include h

/-- A supervisor instruction that changes another thread leaves its own thread past it. -/
theorem State.Issues.retires (i : Instr) {body : State → TRes} (hb : body s1 = .done s2) (ht : s2.ctx t = s1.ctx t) :
    s.issue t i profSup body = s2.setCtx t (s1.ctx t).retired := by
  rw [h.done i hb (ht ▸ h.unstopped), State.modCtx, ht]

include hx hne ha hj

theorem State.Issues.actOn {i : Instr} {ok : Ctx → Bool} {f : State → Tid → TRes} (hok : ok (s1.ctx x) = true) (hf : f s1 x = .done s2)
    (ht : s2.ctx t = s1.ctx t) : s.actOn t i a profSup ok f = s2.setCtx t (s1.ctx t).retired :=
  h.retires i (by simp only [ha, State.named_handle hx hne hj, hok, if_true, hf]) ht

end ActOn

theorem State.toFaulted_ctx_ne (s : State) {x t : Tid} (f : FaultArg) (code inner : Nat) (h : t.handle ≠ x.handle) :
    (s.toFaulted x f code inner).ctx t = s.ctx t := State.ctx_modCtx_ne s (fun c => c.faulted f code inner) h

theorem State.toFaulted_ctx (s : State) (x : Tid) (f : FaultArg) (code inner : Nat) :
    (s.toFaulted x f code inner).ctx x = (s.ctx x).faulted f code inner := State.ctx_modCtx_same s x fun c => c.faulted f code inner

/-- A stop of a READY thread without a refusal due. -/
theorem State.stopThread_ready {s : State} {x : Tid} (hst : (s.ctx x).st = .ready) (hl : (s.ctx x).late = none) :
    s.stopThread x = s.toFaulted x { code := 0x2F, gs := none } 0x2F 0 := by
  unfold State.stopThread State.stopNow
  dsimp only
  rw [if_pos (by simp [hst]), hl]

theorem State.endThread_alone {s : State} {x : Tid} (hl : (s.ctx x).launch = none) (byFault : Bool) :
    s.endThread x byFault = (s.releaseEngines x).freeCtx x := by
  simp only [State.endThread, hl]

/-- Settles O13: each instruction is its update of the other thread. -/
theorem supervisorActsOnThreads : Obligations.SupervisorActsOnThreads := by
  unfold Obligations.SupervisorActsOnThreads
  intro s s1 t x tgt a h hx hne ha hj
  have hh : t.handle ≠ x.handle := fun e => hne (Tid.handle_inj hx h.valid e.symm)
  have other : ∀ (u : State) (c : Ctx), (u.setCtx t c).ctx x = u.ctx x := fun u c => State.ctx_setCtx_ne u c hh.symm
  refine ⟨fun hst hl => ?_, fun hst hn => ?_, fun hst hl hout => ?_, ?_, ?_⟩
  · have hstop := State.stopThread_ready hst hl
    refine Completes.of (congrArg Host.Outcome.next (h.actOn hx hne ha hj (s2 := s1.stopThread x) (by simp [hst]) rfl ?_)) ?_
    · rw [hstop, State.toFaulted_ctx_ne _ _ _ _ hh]
    · rw [other, hstop, State.toFaulted_ctx]
      exact ⟨rfl, rfl, rfl, State.ctx_setCtx_same ..⟩
  · refine Completes.of (congrArg Host.Outcome.next (h.actOn hx hne ha hj (s2 := s1.modCtx x fun c => { c with st := .ready, pc := c.faultPc })
      (by simp [hst, hn]) rfl (State.ctx_modCtx_ne _ _ hh))) ?_
    rw [other, State.ctx_modCtx_same]
    exact ⟨rfl, rfl, State.ctx_setCtx_same ..⟩
  · have hend := State.endThread_alone hl true
    have hrel := s1.releaseEngines_thr x
    refine Completes.of (congrArg Host.Outcome.next (h.actOn hx hne ha hj (s2 := s1.endThread x true) (by simp [hst])
      (by simp only [hout, Bool.false_eq_true, if_false]) ?_)) ?_
    · rw [hend, State.freeCtx, State.ctx_setCtx_ne _ _ hh, State.ctx_congr hrel]
    · rw [other, hend, State.freeCtx, State.ctx_setCtx_same]
      exact ⟨rfl, State.ctx_setCtx_same ..⟩
  · exact ⟨_, congrArg Host.Outcome.next (h.retires (s2 := { s1 with thr := { s1.thr with inv := s1.thr.inv ++ [(s1.ctx t).ga a] } }) _ rfl rfl),
      rfl, State.ctx_setCtx_same ..⟩
  · refine Completes.of (congrArg Host.Outcome.next (h.jump _ rfl)) ?_
    rw [State.ctx_modCtx_same]
    exact ⟨rfl, rfl, rfl⟩

end Sys2Proof.Machine
end

section
/-! Element-ordered accesses and vectors (R64 to R67, R71 to R76): elements of vector registers, gathers and scatters, masks and reductions,
structure accesses. -/
namespace Sys2Proof.Machine

/-! ### Elements of vector registers -/

section Elements
variable {w i j x : Nat} {v : BitVec 1024}

theorem vecEl_setVecEl_same (h : 8 * w * i + 8 * w ≤ 1024) : vecEl (setVecEl v w i x) w i = x % 2 ^ (8 * w) := by
  rw [vecEl, setVecEl, BitVec.toNat_ofNat, Nat.mod_eq_of_lt (putBits_lt v.isLt h), putBits_get]

theorem vecEl_setVecEl_ne (h : 8 * w * i + 8 * w ≤ 1024) (hj : j ≠ i) : vecEl (setVecEl v w i x) w j = vecEl v w j := by
  rw [vecEl, vecEl, setVecEl, BitVec.toNat_ofNat, Nat.mod_eq_of_lt (putBits_lt v.isLt h)]
  rcases lt_or_gt_of_ne hj with hlt | hgt
  · have hle : 8 * w * j + 8 * w ≤ 8 * w * i := by
      calc 8 * w * j + 8 * w = 8 * w * (j + 1) := by ring
        _ ≤ 8 * w * i := Nat.mul_le_mul_left _ hlt
    have hlow := putBits_below v.toNat (sh := 8 * w * i) (w := 8 * w) (v := x) hle
    rw [Nat.shiftRight_eq_div_pow, Nat.shiftRight_eq_div_pow, ← Nat.mod_mul_right_div_self, ← Nat.mod_mul_right_div_self, ← pow_add, hlow]
  · have hle : 8 * w * i + 8 * w ≤ 8 * w * j := by
      calc 8 * w * i + 8 * w = 8 * w * (i + 1) := by ring
        _ ≤ 8 * w * j := Nat.mul_le_mul_left _ hgt
    rw [putBits_above v.toNat hle]

end Elements

theorem vecLen_bits {k : TKind} {w i : Nat} (h : i < vecLen k w) : 8 * w * i + 8 * w ≤ 1024 := by
  have hv : vlBytes k ≤ 128 := by cases k <;> decide
  have hw : 0 < w := by
    by_contra h0
    obtain rfl : w = 0 := by omega
    simp [vecLen] at h
  have h1 : (i + 1) * w ≤ vlBytes k := (Nat.le_div_iff_mul_le hw).1 h
  calc 8 * w * i + 8 * w = 8 * ((i + 1) * w) := by ring
    _ ≤ 1024 := by omega

/-! ### Element-ordered accesses (R64 to R67) -/

section Ordered
variable {t : Tid}

theorem State.dropGot_frame (s : State) (u : RUse) : (s.dropGot u).thr = s.thr ∧ (s.dropGot u).dram = s.dram ∧ (s.dropGot u).eng = s.eng ∧
    (s.dropGot u).regs = s.regs := by
  unfold State.dropGot
  split <;> exact ⟨rfl, rfl, rfl, rfl⟩

/-- A load whose elements are all performed: `st k` is the state before the `k`-th. -/
theorem State.gatherGo_done {w parts : Nat} {rd : State → Nat → MRes × State} {bad : State → Nat → Nat}
    {put : State → GElem → List Byte → State} : ∀ (els : List GElem) (st : Nat → State),
    (∀ k g, els[k]? = some g →
      (g.num < ((st k).ctx t).gsIdx.toNat → st (k + 1) = st k) ∧
      (((st k).ctx t).gsIdx.toNat ≤ g.num → ∃ b u, rd (st k) g.va = (.ok b, u) ∧ st (k + 1) = (put u g b).dropGot (.read t))) →
    (st 0).gatherGo t w parts rd bad put els = .done ((st els.length).gsDone t)
  | [], _, _ => rfl
  | g :: rest, st, h => by
    obtain ⟨hskip, htake⟩ := h 0 g rfl
    have ih := State.gatherGo_done (w := w) (parts := parts) (bad := bad) rest (fun k => st (k + 1)) fun k g hk => h (k + 1) g hk
    rw [State.gatherGo]
    split
    next hlt =>
      rw [← hskip hlt]
      exact ih
    next hle =>
      obtain ⟨b, u, hrd, hst⟩ := htake (Nat.le_of_not_lt hle)
      simp only [hrd, ← hst]
      exact ih

/-- A store whose elements are all performed. -/
theorem State.scatterGo_done {wr : State → GElem → MRes × State} {bad : State → Nat → Nat} : ∀ (els : List GElem) (st : Nat → State),
    (∀ k g, els[k]? = some g →
      (g.num < ((st k).ctx t).gsIdx.toNat → st (k + 1) = st k) ∧
      (((st k).ctx t).gsIdx.toNat ≤ g.num → ∃ b, wr (st k) g = (.ok b, st (k + 1)))) →
    (st 0).scatterGo t wr bad els = .done ((st els.length).gsDone t)
  | [], _, _ => rfl
  | g :: rest, st, h => by
    obtain ⟨hskip, htake⟩ := h 0 g rfl
    have ih := State.scatterGo_done (bad := bad) rest (fun k => st (k + 1)) fun k g hk => h (k + 1) g hk
    rw [State.scatterGo]
    split
    next hlt =>
      rw [← hskip hlt]
      exact ih
    next hle =>
      obtain ⟨b, hwr⟩ := htake (Nat.le_of_not_lt hle)
      simp only [hwr]
      exact ih

theorem State.gsDone_fields (s : State) (t : Tid) : (s.gsDone t).ctx t = { s.ctx t with gsIdx := 0 } ∧ (s.gsDone t).dram = s.dram :=
  ⟨State.ctx_modCtx_same s t fun c => { c with gsIdx := 0 }, rfl⟩

end Ordered

/-- A vector instruction of a thread with Algon-V whose unit is powered runs its body (R75, R76). -/
theorem State.Issues.vecInsn {s s1 : State} {t : Tid} {tgt : Target} {work : Bool} (h : s.Issues t { work := work } tgt s1) (hk : t.kind ≠ .grove)
    (hv : t.kind = .control → s1.flag (fVec_AWAKE (t.num / 2)) = true) (i : Instr) (body : State → TRes) :
    s.vecInsn t i work body = State.settle t i (body s1) := by
  have hawake : ¬(t.kind = .control ∧ (!s1.flag (fVec_AWAKE (vecCore t))) = true) := by
    rintro ⟨hc, hn⟩
    simp [vecCore, hv hc] at hn
  rw [State.vecInsn, h.issue]
  simp only [if_neg hk, if_neg hawake]

/-- An element-ordered access retires from the state of its last element. -/
theorem State.settle_gsDone {s : State} {t : Tid} (i : Instr) (h : (s.ctx t).stopPending = false) :
    State.settle t i (.done (s.gsDone t)) = s.setCtx t { s.ctx t with gsIdx := 0 }.retired := by
  rw [State.settle_done i (by rw [(s.gsDone_fields t).1]; exact h), State.gsDone, State.modCtx_modCtx]

theorem gsElems_getElem? {t : Tid} {c : Ctx} {w a b k : Nat} {g : GElem} (h : (gsElems t c w a b)[k]? = some g) :
    k < gsCount t w ∧ g.num = k ∧
    g.va = ((c.ga a).toNat + (if t.kind = .grove then (c.ga b).toNat else gsIndex w (vecEl (c.gv b) w k)) * w) % 2 ^ 64 := by
  simp only [gsElems, List.getElem?_map, Option.map_eq_some_iff] at h
  obtain ⟨i, hi, rfl⟩ := h
  obtain ⟨hk, rfl⟩ := List.getElem?_eq_some_iff.1 hi
  rw [List.length_range] at hk
  rw [List.getElem_range]
  exact ⟨hk, rfl, rfl⟩

theorem gsElems_length (t : Tid) (c : Ctx) (w a b : Nat) : (gsElems t c w a b).length = gsCount t w := by simp [gsElems]

/-- Two contexts that differ in register D alone. -/
structure Ctx.ButD (x c : Ctx) (d : Nat) : Prop where
  gsIdx : x.gsIdx = c.gsIdx
  pc : x.pc = c.pc
  stopPending : x.stopPending = c.stopPending
  ga : ∀ r, r ≠ d → x.ga r = c.ga r
  gv : ∀ r, r ≠ d → x.gv r = c.gv r

theorem Ctx.ButD.refl (c : Ctx) (d : Nat) : c.ButD c d := ⟨rfl, rfl, rfl, fun _ _ => rfl, fun _ _ => rfl⟩

/-- The context of a thread whose element is loaded. -/
def Ctx.gsTake (c : Ctx) (t : Tid) (w d i v : Nat) : Ctx :=
  if t.kind = .grove then c.putNarrow d w v else c.sv d (setVecEl (c.gv d) w i v)

theorem State.ctx_gsPut (s : State) (t : Tid) (w d i v : Nat) : (s.gsPut t w d i v).ctx t = (s.ctx t).gsTake t w d i v := by
  unfold State.gsPut Ctx.gsTake
  split
  · exact State.ctx_modCtx_same s t fun c => c.putNarrow d w v
  · exact State.ctx_modCtx_same s t fun c => c.sv d (setVecEl (c.gv d) w i v)

theorem Ctx.ButD.gsTake {x c : Ctx} {d : Nat} (h : x.ButD c d) (t : Tid) (w i v : Nat) : (x.gsTake t w d i v).ButD c d := by
  unfold Ctx.gsTake
  split
  · exact ⟨h.gsIdx, h.pc, h.stopPending, fun r hr => (Ctx.ga_sa_ne _ _ hr).trans (h.ga r hr), h.gv⟩
  · exact ⟨h.gsIdx, h.pc, h.stopPending, h.ga, fun r hr => (Ctx.gv_sv_ne _ _ hr).trans (h.gv r hr)⟩

section Gather
variable {t : Tid} {w d n : Nat} {c : Ctx} {st : Nat → State} {bs : Nat → List Byte} (h0 : (st 0).ctx t = c)
  (hskip : ∀ i, i < n → i < c.gsIdx.toNat → st (i + 1) = st i)
  (htake : ∀ i, i < n → c.gsIdx.toNat ≤ i → (st (i + 1)).ctx t = ((st i).ctx t).gsTake t w d i (leNat (bs i)))
include h0 hskip htake

/-- Loading elements changes register D alone. -/
theorem gather_butD : ∀ {k : Nat}, k ≤ n → ((st k).ctx t).ButD c d
  | 0, _ => h0 ▸ .refl c d
  | k + 1, hk => by
    have ih := gather_butD (k := k) (by omega)
    by_cases hlt : k < c.gsIdx.toNat
    · rw [hskip k (by omega) hlt]
      exact ih
    · rw [htake k (by omega) (by omega)]
      exact ih.gsTake ..

/-- The elements of D while a vector gather is under way. -/
theorem gather_elements (hk : t.kind ≠ .grove) (hb : ∀ i, i < n → 8 * w * i + 8 * w ≤ 1024) {i : Nat} (hi : i < n) : ∀ {k : Nat}, k ≤ n →
    vecEl (((st k).ctx t).gv d) w i = if c.gsIdx.toNat ≤ i ∧ i < k then leNat (bs i) % 2 ^ (8 * w) else vecEl (c.gv d) w i
  | 0, _ => by simp [h0]
  | k + 1, hkn => by
    have ih := gather_elements hk hb hi (k := k) (by omega)
    by_cases hlt : k < c.gsIdx.toNat
    · rw [hskip k (by omega) hlt, ih]
      by_cases hc : c.gsIdx.toNat ≤ i ∧ i < k
      · rw [if_pos hc, if_pos (by omega)]
      · rw [if_neg hc, if_neg (by omega)]
    · rw [htake k (by omega) (by omega), Ctx.gsTake, if_neg hk, Ctx.gv_sv_same]
      by_cases he : i = k
      · subst he
        rw [vecEl_setVecEl_same (hb i hi), if_pos (by omega)]
      · rw [vecEl_setVecEl_ne (hb k (by omega)) he, ih]
        by_cases hc : c.gsIdx.toNat ≤ i ∧ i < k
        · rw [if_pos hc, if_pos (by omega)]
        · rw [if_neg hc, if_neg (by omega)]

end Gather

theorem vecLen_le (k : TKind) (w : Nat) : vecLen k w ≤ 128 := by
  have hv : vlBytes k ≤ 128 := by cases k <;> decide
  exact (Nat.div_le_self ..).trans hv

/-- The body of a GATHER or SCATTER, of a grove thread or of one with Algon-V. -/
theorem State.Issues.ordered {s s1 : State} {t : Tid} {tgt : Target} (h : s.Issues t profWork tgt s1)
    (hv : t.kind = .control → s1.flag (fVec_AWAKE (t.num / 2)) = true) (i : Instr) (body : State → TRes) :
    (if t.kind = .grove then s.issue t i profWork body else s.vecInsn t i true body) = State.settle t i (body s1) := by
  split
  next hk => exact h.issue i body
  next hk => exact State.Issues.vecInsn (work := true) h hk hv i body

section GatherScatter
variable {s s1 : State} {t : Tid} {tgt : Target} {w : MemW} {d a b : Reg} {st : Nat → State} {bs : Nat → List Byte}
  (h : s.Issues t profWork tgt s1) (hv : t.kind = .control → s1.flag (fVec_AWAKE (t.num / 2)) = true) (h0 : st 0 = s1)
include h hv h0

omit h0 in
theorem exec_gather_settle : exec (.gather t w d a b) s = .next (State.settle t (.gather t w d a b)
    (s1.gatherGo t w.bytes 1 (fun x va => x.elemRead t va w.bytes) (fun x va => x.badRead t w.bytes va)
      (fun x g bs => x.gsPut t w.bytes d g.num (leNat bs)) (gsElems t (s1.ctx t) w.bytes a b))) :=
  congrArg Host.Outcome.next (h.ordered hv _ _)

omit h0 in
theorem exec_scatter_settle : exec (.scatter t w d a b) s = .next (State.settle t (.scatter t w d a b)
    (s1.scatterGo t (fun x g => x.elemWrite t g.va (natLE w.bytes (gsData t (x.ctx t) w.bytes d g.num)))
      (fun x va => x.badWrite t w.bytes va) (gsElems t (s1.ctx t) w.bytes a b))) :=
  congrArg Host.Outcome.next (h.ordered hv _ _)

/-- The address of an element (R64). -/
def gsAddr (t : Tid) (c : Ctx) (w a b i : Nat) : Nat :=
  ((c.ga a).toNat + (if t.kind = .grove then (c.ga b).toNat else gsIndex w (vecEl (c.gv b) w i)) * w) % 2 ^ 64

theorem exec_gather (hskip : ∀ i, i < gsCount t w.bytes → i < (s1.ctx t).gsIdx.toNat → st (i + 1) = st i)
    (htake : ∀ i, i < gsCount t w.bytes → (s1.ctx t).gsIdx.toNat ≤ i → ∃ u, (st i).elemRead t (gsAddr t (s1.ctx t) w.bytes a b i) w.bytes = (.ok (bs i), u) ∧
      u.ctx t = (st i).ctx t ∧ st (i + 1) = (u.gsPut t w.bytes d i (leNat (bs i))).dropGot (.read t)) :
    exec (.gather t w d a b) s =
      .next ((st (gsCount t w.bytes)).setCtx t { (st (gsCount t w.bytes)).ctx t with gsIdx := 0 }.retired) ∧
    (∀ i, i < gsCount t w.bytes → (s1.ctx t).gsIdx.toNat ≤ i →
      (st (i + 1)).ctx t = ((st i).ctx t).gsTake t w.bytes d i (leNat (bs i))) := by
  have hctx : ∀ i, i < gsCount t w.bytes → (s1.ctx t).gsIdx.toNat ≤ i →
      (st (i + 1)).ctx t = ((st i).ctx t).gsTake t w.bytes d i (leNat (bs i)) := by
    intro i hi hle
    obtain ⟨u, -, hu, hst⟩ := htake i hi hle
    rw [hst, State.ctx_congr (State.dropGot_frame ..).1, State.ctx_gsPut, hu]
  have hbut : ∀ {k}, k ≤ gsCount t w.bytes → ((st k).ctx t).ButD (s1.ctx t) d := fun {k} hk => gather_butD (by rw [h0]) hskip hctx hk
  refine ⟨?_, hctx⟩
  have hgo := State.gatherGo_done (t := t) (w := w.bytes) (parts := 1) (rd := fun x va => x.elemRead t va w.bytes)
    (bad := fun x va => x.badRead t w.bytes va) (put := fun x g bs => x.gsPut t w.bytes d g.num (leNat bs)) (gsElems t (s1.ctx t) w.bytes a b) st
    (fun k g hg => by
      obtain ⟨hk, hnum, hva⟩ := gsElems_getElem? hg
      rw [hnum, hva, (hbut hk.le).gsIdx]
      refine ⟨hskip k hk, fun hle => ?_⟩
      obtain ⟨u, hrd, -, hst⟩ := htake k hk hle
      exact ⟨bs k, u, hrd, hst⟩)
  rw [h0, gsElems_length] at hgo
  rw [exec_gather_settle h hv, hgo, State.settle_gsDone _ ((hbut le_rfl).stopPending.trans h.unstopped)]

theorem exec_scatter (hskip : ∀ i, i < gsCount t w.bytes → i < (s1.ctx t).gsIdx.toNat → st (i + 1) = st i)
    (htake : ∀ i, i < gsCount t w.bytes → (s1.ctx t).gsIdx.toNat ≤ i →
      (st i).elemWrite t (gsAddr t (s1.ctx t) w.bytes a b i) (natLE w.bytes (gsData t (s1.ctx t) w.bytes d i)) = (.ok (bs i), st (i + 1)) ∧
      (st (i + 1)).ctx t = (st i).ctx t) :
    exec (.scatter t w d a b) s = .next ((st (gsCount t w.bytes)).setCtx t { s1.ctx t with gsIdx := 0 }.retired) := by
  have hctx : ∀ k, k ≤ gsCount t w.bytes → (st k).ctx t = s1.ctx t := by
    intro k
    induction k with
    | zero => exact fun _ => by rw [h0]
    | succ k ih =>
      intro hk
      by_cases hlt : k < (s1.ctx t).gsIdx.toNat
      · rw [hskip k (by omega) hlt, ih (by omega)]
      · rw [(htake k (by omega) (by omega)).2, ih (by omega)]
  have hgo := State.scatterGo_done (t := t) (wr := fun x g => x.elemWrite t g.va (natLE w.bytes (gsData t (x.ctx t) w.bytes d g.num)))
    (bad := fun x va => x.badWrite t w.bytes va) (gsElems t (s1.ctx t) w.bytes a b) st (fun k g hg => by
      obtain ⟨hk, hnum, hva⟩ := gsElems_getElem? hg
      rw [hnum, hva, hctx k hk.le]
      exact ⟨hskip k hk, fun hle => ⟨bs k, (htake k hk hle).1⟩⟩)
  rw [h0, gsElems_length] at hgo
  rw [exec_scatter_settle h hv, hgo, State.settle_gsDone _ (by rw [hctx _ le_rfl]; exact h.unstopped), hctx _ le_rfl]

end GatherScatter

theorem gsElems_grove {t : Tid} (hk : t.kind = .grove) (c : Ctx) (w a b : Nat) :
    gsElems t c w a b = [{ num := 0, va := ((c.ga a).toNat + (c.ga b).toNat * w) % 2 ^ 64 }] := by
  simp [gsElems, gsCount, hk]

/-- Settles O15: the one element's access, and the end of the element order. -/
theorem groveGatherAndScatterRetire : Obligations.GroveGatherAndScatterRetire := by
  unfold Obligations.GroveGatherAndScatterRetire
  intro s s1 s2 t tgt w d a b bs h hk hg hstop va
  have hctl : t.kind = .control → s1.flag (fVec_AWAKE (t.num / 2)) = true := by simp [hk]
  refine ⟨fun hrd => ?_, fun hwr => ?_⟩
  · obtain ⟨hthr, hdram, -, -⟩ := (s2.gsPut t w.bytes d 0 (leNat bs)).dropGot_frame (.read t)
    have hctx : ((s2.gsPut t w.bytes d 0 (leNat bs)).dropGot (.read t)).ctx t = (s2.ctx t).putNarrow d w.bytes (leNat bs) := by
      rw [State.ctx_congr hthr, State.ctx_gsPut, Ctx.gsTake, if_pos hk]
    refine Completes.of (u := ((s2.gsPut t w.bytes d 0 (leNat bs)).dropGot (.read t)).setCtx t
      { (s2.ctx t).putNarrow d w.bytes (leNat bs) with gsIdx := 0 }.retired) ?_ ?_
    · rw [exec_gather_settle h hctl, gsElems_grove hk, State.gatherGo, if_neg (by simp [hg])]
      simp only [va] at hrd
      simp only [hrd]
      rw [State.gatherGo, State.settle_gsDone _ (by rw [hctx]; exact hstop), hctx]
    · rw [State.ctx_setCtx_same]
      refine ⟨⟨_, Ctx.ga_sa_same ..⟩, rfl, rfl, fun j => ?_⟩
      rw [State.dramByte_congr (State.setCtx_dram ..), State.dramByte_congr hdram, State.gsPut, if_pos hk]
      rfl
  · refine Completes.of (u := s2.setCtx t { s2.ctx t with gsIdx := 0 }.retired) ?_ ?_
    · rw [exec_scatter_settle h hctl, gsElems_grove hk, State.scatterGo, if_neg (by simp [hg])]
      simp only [va] at hwr
      simp only [gsData, hk, if_true, hwr]
      rw [State.scatterGo, State.settle_gsDone _ hstop]
    · rw [State.ctx_setCtx_same]
      exact ⟨rfl, rfl, rfl, fun j => State.dramByte_congr (State.setCtx_dram ..) j⟩

/-! ### Masks and reductions (R71 to R75) -/

/-- A number with the bits below `n` that `p` names. -/
theorem testBit_bits (p : Nat → Prop) [DecidablePred p] (n i : Nat) :
    ((List.range n).foldl (fun m i => if p i then m + 2 ^ i else m) 0).testBit i = (decide (i < n) && decide (p i)) ∧
    (List.range n).foldl (fun m i => if p i then m + 2 ^ i else m) 0 < 2 ^ n := by
  induction n with
  | zero => simp
  | succ n ih =>
    obtain ⟨ihb, ihl⟩ := ih
    rw [List.range_succ, List.foldl_concat]
    generalize (List.range n).foldl (fun m i => if p i then m + 2 ^ i else m) 0 = m at ihb ihl
    have hlt : 2 ^ (n + 1) = 2 ^ n + 2 ^ n := by ring
    split
    next hp =>
      refine ⟨?_, by omega⟩
      rw [Nat.add_comm]
      rcases lt_trichotomy i n with h | rfl | h
      · rw [Nat.testBit_two_pow_add_gt h, ihb]
        simp [h, Nat.lt_succ_of_lt h]
      · rw [Nat.testBit_two_pow_add_eq, Nat.testBit_lt_two_pow ihl]
        simp [hp]
      · rw [Nat.testBit_lt_two_pow (by have := Nat.pow_le_pow_right (n := 2) (by omega) (show n + 1 ≤ i from h); omega)]
        simp [show ¬i < n + 1 by omega]
    next hp =>
      refine ⟨?_, by omega⟩
      rw [ihb]
      by_cases h : i = n
      · subst h
        simp [hp]
      · simp [show i < n + 1 ↔ i < n by omega]

/-- The flags of `n` operations, together. -/
def orFlags : Nat → (Nat → Flags) → Flags
  | 0, _ => 0
  | n + 1, g => g 0 ||| orFlags n fun i => g (i + 1)

theorem orFlags_zero (n : Nat) {g : Nat → Flags} (h : ∀ i, g i = 0) : orFlags n g = 0 := by
  induction n generalizing g with
  | zero => rfl
  | succ n ih => rw [orFlags, h, ih fun i => h (i + 1)]; rfl

theorem orFlags_pairs (n : Nat) (a b : Nat → Flags) :
    orFlags n (fun i => a (2 * i) ||| a (2 * i + 1) ||| b i) = orFlags (2 * n) a ||| orFlags n b := by
  induction n generalizing a b with
  | zero => exact (BitVec.or_zero (x := (0 : Flags))).symm
  | succ n ih =>
    have := ih (fun i => a (i + 2)) (fun i => b (i + 1))
    simp only [show ∀ i, 2 * i + 1 + 2 = 2 * (i + 1) + 1 by intro i; ring, show ∀ i, 2 * i + 2 = 2 * (i + 1) by intro i; ring] at this
    rw [show 2 * (n + 1) = 2 * n + 1 + 1 by ring, orFlags, orFlags, orFlags, orFlags, this]
    simp only [Nat.mul_zero, Nat.zero_add]
    ac_rfl

/-- One level of a tree over positions that are all there. -/
theorem treeLevel_pairs (f : Nat → Nat → Nat × Flags) (n : Nat) (v : Nat → Nat) :
    treeLevel f ((List.range (2 * n)).map fun i => some (v i)) =
      ((List.range n).map fun i => some (f (v (2 * i)) (v (2 * i + 1))).1, orFlags n fun i => (f (v (2 * i)) (v (2 * i + 1))).2) := by
  induction n generalizing v with
  | zero => rfl
  | succ n ih =>
    have hr : (List.range (2 * (n + 1))).map (fun i => some (v i)) = some (v 0) :: some (v 1) :: (List.range (2 * n)).map fun i => some (v (i + 2)) := by
      rw [show 2 * (n + 1) = 2 * n + 1 + 1 by ring, List.range_succ_eq_map, List.range_succ_eq_map]
      simp [Function.comp_def]
    rw [hr, treeLevel, ih]
    simp only [List.range_succ_eq_map, List.map_cons, List.map_map, orFlags, Function.comp_def]
    exact Prod.ext rfl (BitVec.or_comm ..)

theorem treeFold_single (f : Nat → Nat → Nat × Flags) (x : Nat) : ∀ fuel, treeFold f fuel [some x] = (some x, 0)
  | 0 => rfl
  | fuel + 1 => by
    simp only [treeFold, treeLevel, treeFold_single f x fuel]
    rfl

/-- The pairwise tree over `2 ^ m` positions, from level `h` on: its value, and the flags of the levels above. -/
theorem treeFold_levels {f : Nat → Nat → Nat × Flags} {lvl : Nat → Nat → Nat × Flags}
    (hl : ∀ h i, lvl (h + 1) i = ((f (lvl h (2 * i)).1 (lvl h (2 * i + 1)).1).1,
      (lvl h (2 * i)).2 ||| (lvl h (2 * i + 1)).2 ||| (f (lvl h (2 * i)).1 (lvl h (2 * i + 1)).1).2)) (fuel : Nat) : ∀ m h,
    (treeFold f (m + fuel) ((List.range (2 ^ m)).map fun i => some (lvl h i).1)).1 = some (lvl (h + m) 0).1 ∧
    (treeFold f (m + fuel) ((List.range (2 ^ m)).map fun i => some (lvl h i).1)).2 ||| orFlags (2 ^ m) (fun i => (lvl h i).2) = (lvl (h + m) 0).2
  | 0, h => by
    have : (List.range (2 ^ 0)).map (fun i => some (lvl h i).1) = [some (lvl h 0).1] := rfl
    rw [this, treeFold_single]
    refine ⟨rfl, ?_⟩
    show 0 ||| ((lvl h 0).2 ||| 0) = (lvl h 0).2
    simp
  | m + 1, h => by
    obtain ⟨ih1, ih2⟩ := treeFold_levels hl fuel m (h + 1)
    have hlev := treeLevel_pairs f (2 ^ m) fun i => (lvl h i).1
    have hnext : (fun i => some (f (lvl h (2 * i)).1 (lvl h (2 * i + 1)).1).1) = fun i => some (lvl (h + 1) i).1 := by
      funext i
      rw [hl]
    rw [show 2 ^ (m + 1) = 2 * 2 ^ m by ring, show m + 1 + fuel = (m + fuel) + 1 by ring, treeFold, hlev]
    simp only [hnext]
    refine ⟨by rw [ih1]; ring_nf, ?_⟩
    have hflags : (fun i => (lvl (h + 1) i).2) =
        fun i => (lvl h (2 * i)).2 ||| (lvl h (2 * i + 1)).2 ||| (f (lvl h (2 * i)).1 (lvl h (2 * i + 1)).1).2 := by
      funext i
      rw [hl]
    rw [hflags, orFlags_pairs (2 ^ m) (fun i => (lvl h i).2)] at ih2
    rw [show h + (m + 1) = h + 1 + m by ring, ← ih2]
    ac_rfl

/-! ### Vector operations of a thread with Algon-V -/

section Vector
variable {s s1 : State} {t : Tid} {tgt : Target} (h : s.Issues t { work := false } tgt s1) (hk : t.kind ≠ .grove)
  (hv : t.kind = .control → s1.flag (fVec_AWAKE (t.num / 2)) = true)
include h hk hv

theorem exec_vlen (w : MemW) (d : Reg) : exec (.vlen t w d) s =
    .next (s1.setCtx t ((s1.ctx t).sa d (BitVec.ofNat 64 (vecLen t.kind w.bytes))).retired) := by
  refine congrArg Host.Outcome.next ((State.Issues.vecInsn h hk hv _ _).trans ?_)
  rw [State.settle_done _ (by rw [State.ctx_modCtx_same]; exact h.unstopped), State.modCtx_modCtx]

theorem exec_ktail (w : MemW) {k : Fin 8} (hk0 : k ≠ 0) (a b : Reg) : exec (.ktail t w k a b) s =
    .next (s1.setCtx t ((s1.ctx t).sk k (BitVec.ofNat 128 ((List.range (vecLen t.kind w.bytes)).foldl
      (fun m i => if (s1.ctx t).ga a + BitVec.ofNat 64 i < (s1.ctx t).ga b then m + 2 ^ i else m) 0))).retired) := by
  refine congrArg Host.Outcome.next ((State.Issues.vecInsn h hk hv _ _).trans ?_)
  have hstop : ∀ (c : Ctx) (r : Nat) (v : BitVec 128), (c.sk r v).stopPending = c.stopPending := by
    intro c r v
    unfold Ctx.sk
    split <;> rfl
  simp only [if_neg hk0]
  rw [State.settle_done _ (by rw [State.ctx_setCtx_same, hstop]; exact h.unstopped), State.modCtx_setCtx]

theorem exec_ktail_zero (w : MemW) (a b : Reg) : exec (.ktail t w 0 a b) s = .next (s1.takeFault t { code := 0x21 }) :=
  congrArg Host.Outcome.next (State.Issues.vecInsn h hk hv _ _)

theorem State.Issues.vfred (i : Instr) {rm : Nat} (d : Nat) (f : Nat → Ctx → Nat × Flags) (hm : (s1.ctx t).effRm rm ≤ 4) :
    s.vfred t i rm d f = s1.setCtx t ((s1.ctx t).putF d (f ((s1.ctx t).effRm rm) (s1.ctx t))).retired := by
  rw [State.vfred, State.Issues.vecInsn h hk hv]
  simp only [if_neg (show ¬4 < (s1.ctx t).effRm rm by omega)]
  rw [State.settle_done _ (by rw [State.ctx_setCtx_same]; exact h.unstopped), State.modCtx_setCtx]

theorem State.Issues.vfred_illegal (i : Instr) {rm : Nat} (d : Nat) (f : Nat → Ctx → Nat × Flags) (hm : 4 < (s1.ctx t).effRm rm) :
    s.vfred t i rm d f = s1.takeFault t { code := 0x21 } := by
  rw [State.vfred, State.Issues.vecInsn h hk hv]
  simp only [if_pos hm, State.settle_fault]

end Vector

/-- The ascending sum of the active elements. -/
theorem foldl_active {c : Ctx} {w b k : Nat} {t : Tid} {f : Nat → Nat → Nat × Flags} {acc : Nat → Nat × Flags} {x : Nat}
    {g : Nat × Flags → Option Nat → Nat × Flags} (hsome : ∀ r y, g r (some y) = ((f r.1 y).1, r.2 ||| (f r.1 y).2))
    (hnone : ∀ r, g r none = r) (h0 : acc 0 = (x, 0))
    (hs : ∀ i, acc (i + 1) = if (c.gk k).getLsbD i then ((f (acc i).1 (vecEl (c.gv b) w i)).1,
      (acc i).2 ||| (f (acc i).1 (vecEl (c.gv b) w i)).2) else acc i) :
    (vecEls t c w b k).foldl g (x, 0) = acc (vecLen t.kind w) := by
  rw [vecEls, List.foldl_map]
  induction vecLen t.kind w with
  | zero => exact h0.symm
  | succ n ih =>
    rw [List.range_succ, List.foldl_concat, ih, hs]
    split
    · rw [hsome]
    · rw [hnone]

theorem vlBytes_of {k : TKind} (h : k ≠ .grove) : vlBytes k = if k = .near then 64 else 128 := by
  cases k with
  | grove => exact absurd rfl h
  | near => rfl
  | control => rfl

/-- The tree over the positions, −0.0 standing for an inactive one (R74). -/
theorem treeFold_active {c : Ctx} {w b k j z : Nat} {t : Tid} {f : Nat → Nat → Nat × Flags} {lvl : Nat → Nat → Nat × Flags}
    (hj : vecLen t.kind w = 2 ^ j) (h0 : ∀ i, lvl 0 i = (if (c.gk k).getLsbD i then vecEl (c.gv b) w i else z, 0))
    (hl : ∀ h i, lvl (h + 1) i = ((f (lvl h (2 * i)).1 (lvl h (2 * i + 1)).1).1,
      (lvl h (2 * i)).2 ||| (lvl h (2 * i + 1)).2 ||| (f (lvl h (2 * i)).1 (lvl h (2 * i + 1)).1).2)) :
    let r := treeFold f 7 ((vecEls t c w b k).map fun v => some (v.getD z))
    (r.1.getD 0, r.2) = lvl j 0 := by
  have hj7 : j ≤ 7 := by
    have := hj ▸ vecLen_le t.kind w
    exact (Nat.pow_le_pow_iff_right (a := 2) (by omega)).1 (by simpa using this)
  have hels : (vecEls t c w b k).map (fun v => some (v.getD z)) = (List.range (2 ^ j)).map fun i => some (lvl 0 i).1 := by
    rw [vecEls, List.map_map, hj]
    refine List.map_congr_left fun i _ => ?_
    simp only [Function.comp_apply, h0]
    split <;> rfl
  obtain ⟨h1, h2⟩ := treeFold_levels hl (7 - j) j 0
  rw [orFlags_zero _ fun i => by rw [h0], show j + (7 - j) = 7 by omega, Nat.zero_add] at h2
  rw [show j + (7 - j) = 7 by omega, Nat.zero_add] at h1
  simp only [hels, h1, Option.getD_some]
  refine Prod.ext rfl ?_
  rw [← h2]
  exact (BitVec.or_zero ..).symm

/-- Settles O16: masks and reductions by their folds, gathers and scatters by the order of their elements. -/
theorem vectorOperationsRetire : Obligations.VectorOperationsRetire := by
  unfold Obligations.VectorOperationsRetire
  refine ⟨fun s s1 t tgt w f rm d a b k h hk hv => ?_, fun s s1 t tgt w d a b st bs h hv h0 => ?_⟩
  · refine ⟨by rw [exec_vlen h hk hv w d, vecLen, vlBytes_of hk], fun hk0 => ?_, fun hk0 => ?_, fun hm acc ha hs => ?_, fun hm lvl j hj hl0 hl => ?_, fun hm => ?_⟩
    · refine Completes.of (exec_ktail h hk hv w hk0 a b) ⟨?_, fun i hi => ?_⟩
      · rw [State.ctx_setCtx_same]
        unfold Ctx.sk
        split <;> rfl
      · rw [State.ctx_setCtx_same]
        have hget : ∀ (c : Ctx) (v : BitVec 128), ((c.sk k v).retired).gk k = v := fun c v => Ctx.gk_sk_same c v (fun e => hk0 (Fin.ext e))
        rw [hget, BitVec.getLsbD_ofNat, (testBit_bits (fun i => (s1.ctx t).ga a + BitVec.ofNat 64 i < (s1.ctx t).ga b) _ i).1]
        simp [hi]
    · subst hk0
      exact exec_ktail_zero h hk hv w a b
    · refine congrArg Host.Outcome.next ((State.Issues.vfred h hk hv _ _ _ hm).trans ?_)
      rw [foldl_active (t := t) (fun _ _ => rfl) (fun _ => rfl) ha hs]
    · refine congrArg Host.Outcome.next ((State.Issues.vfred h hk hv _ _ _ hm).trans ?_)
      rw [treeFold_active hj hl0 hl]
    · exact ⟨congrArg Host.Outcome.next (State.Issues.vfred_illegal h hk hv _ _ _ hm),
        congrArg Host.Outcome.next (State.Issues.vfred_illegal h hk hv _ _ _ hm)⟩
  · refine ⟨fun hskip htake => ?_, fun hskip htake => exec_scatter h hv h0 hskip htake⟩
    obtain ⟨hexec, hctx⟩ := exec_gather h hv h0 hskip htake
    have hbut := gather_butD (n := gsCount t w.bytes) (c := s1.ctx t) (by rw [h0]) hskip hctx le_rfl
    refine Completes.of hexec ?_
    rw [State.ctx_setCtx_same]
    refine ⟨fun hk hg => ?_, fun hk i hi => ?_, fun r hr => ⟨hbut.ga r hr, hbut.gv r hr⟩, rfl, ?_, rfl, rfl⟩
    · have h1 : gsCount t w.bytes = 1 := if_pos hk
      have := hctx 0 (by omega) (by simp [hg])
      rw [h1, this, Ctx.gsTake, if_pos hk]
      exact ⟨_, Ctx.ga_sa_same ..⟩
    · have hn : gsCount t w.bytes = vecLen t.kind w.bytes := if_neg hk
      have := gather_elements (n := gsCount t w.bytes) (c := s1.ctx t) (by rw [h0]) hskip hctx hk (fun i hi => vecLen_bits (hn ▸ hi)) hi le_rfl
      refine this.trans ?_
      by_cases hlt : i < (s1.ctx t).gsIdx.toNat
      · rw [if_pos hlt, if_neg (by omega)]
      · rw [if_neg hlt, if_pos ⟨by omega, hi⟩]
    · exact congrArg (· + 4) hbut.pc

/-! ### Structure accesses (R72, R73) -/

section Filtered
variable {t : Tid} (F : Nat → Option GElem) (st : Nat → State)

/-- A load whose elements are chosen from positions: `st i` is the state before position `i`. -/
theorem State.gatherGo_filterMap {w parts : Nat} {rd : State → Nat → MRes × State} {bad : State → Nat → Nat}
    {put : State → GElem → List Byte → State} : ∀ m a,
    (∀ i, a ≤ i → i < a + m → (F i = none → st (i + 1) = st i) ∧ ∀ g, F i = some g →
      (g.num < ((st i).ctx t).gsIdx.toNat → st (i + 1) = st i) ∧
      (((st i).ctx t).gsIdx.toNat ≤ g.num → ∃ b u, rd (st i) g.va = (.ok b, u) ∧ st (i + 1) = (put u g b).dropGot (.read t))) →
    (st a).gatherGo t w parts rd bad put ((List.range' a m).filterMap F) = .done ((st (a + m)).gsDone t)
  | 0, _, _ => rfl
  | m + 1, a, h => by
    have ih := State.gatherGo_filterMap (w := w) (parts := parts) (rd := rd) (bad := bad) (put := put) m (a + 1)
      fun i hi hi' => h i (by omega) (by omega)
    rw [show a + 1 + m = a + (m + 1) by ring] at ih
    obtain ⟨hnone, hsome⟩ := h a le_rfl (by omega)
    rw [List.range'_succ, List.filterMap_cons]
    split
    next hF =>
      rw [← hnone hF]
      exact ih
    next g hF =>
      obtain ⟨hskip, htake⟩ := hsome g hF
      rw [State.gatherGo]
      split
      next hlt =>
        rw [← hskip hlt]
        exact ih
      next hle =>
        obtain ⟨b, u, hrd, hst⟩ := htake (Nat.le_of_not_lt hle)
        simp only [hrd, ← hst]
        exact ih

/-- A store whose elements are chosen from positions. -/
theorem State.scatterGo_filterMap {wr : State → GElem → MRes × State} {bad : State → Nat → Nat} : ∀ m a,
    (∀ i, a ≤ i → i < a + m → (F i = none → st (i + 1) = st i) ∧ ∀ g, F i = some g →
      (g.num < ((st i).ctx t).gsIdx.toNat → st (i + 1) = st i) ∧
      (((st i).ctx t).gsIdx.toNat ≤ g.num → ∃ b, wr (st i) g = (.ok b, st (i + 1)))) →
    (st a).scatterGo t wr bad ((List.range' a m).filterMap F) = .done ((st (a + m)).gsDone t)
  | 0, _, _ => rfl
  | m + 1, a, h => by
    have ih := State.scatterGo_filterMap (wr := wr) (bad := bad) m (a + 1) fun i hi hi' => h i (by omega) (by omega)
    rw [show a + 1 + m = a + (m + 1) by ring] at ih
    obtain ⟨hnone, hsome⟩ := h a le_rfl (by omega)
    rw [List.range'_succ, List.filterMap_cons]
    split
    next hF =>
      rw [← hnone hF]
      exact ih
    next g hF =>
      obtain ⟨hskip, htake⟩ := hsome g hF
      rw [State.scatterGo]
      split
      next hlt =>
        rw [← hskip hlt]
        exact ih
      next hle =>
        obtain ⟨b, hwr⟩ := htake (Nat.le_of_not_lt hle)
        simp only [hwr]
        exact ih

end Filtered

/-- The record at a position, if it takes part (R72). -/
def recElem (c : Ctx) (n w a k : Nat) (fill : Bool) (i : Nat) : Option GElem :=
  if (c.gk k).getLsbD i then some { num := i, va := ((c.ga a).toNat + i * n * w) % 2 ^ 64 }
  else if fill then some { num := i, va := fillVa }
  else none

theorem recElems_eq (t : Tid) (c : Ctx) (n w a k : Nat) (fill : Bool) :
    recElems t c n w a k fill = (List.range' 0 (vecLen t.kind w)).filterMap (recElem c n w a k fill) := by
  rw [← List.range_eq_range']
  rfl

/-- The context of a thread whose record is loaded. -/
def Ctx.recTake (c : Ctx) (n w d i : Nat) (bs : List Byte) : Ctx :=
  (List.range n).foldl (fun c j => c.sv (d + j) (setVecEl (c.gv (d + j)) w i (fieldLE bs (j * w) w))) c

theorem State.ctx_recPut (s : State) (t : Tid) (n w d i : Nat) (bs : List Byte) : (s.recPut t n w d i bs).ctx t = (s.ctx t).recTake n w d i bs :=
  State.ctx_modCtx_same s t fun c => c.recTake n w d i bs

/-- Two contexts that differ in the registers D to D + n − 1 alone. -/
structure Ctx.ButV (x c : Ctx) (d n : Nat) : Prop where
  gsIdx : x.gsIdx = c.gsIdx
  pc : x.pc = c.pc
  stopPending : x.stopPending = c.stopPending
  a : x.a = c.a
  f : x.f = c.f
  gv : ∀ r, r < d ∨ d + n ≤ r → x.gv r = c.gv r

theorem Ctx.ButV.refl (c : Ctx) (d n : Nat) : c.ButV c d n := ⟨rfl, rfl, rfl, rfl, rfl, fun _ _ => rfl⟩

theorem Ctx.ButV.trans {x y c : Ctx} {d n : Nat} (h : x.ButV y d n) (h' : y.ButV c d n) : x.ButV c d n :=
  ⟨h.gsIdx.trans h'.gsIdx, h.pc.trans h'.pc, h.stopPending.trans h'.stopPending, h.a.trans h'.a, h.f.trans h'.f,
    fun r hr => (h.gv r hr).trans (h'.gv r hr)⟩

/-- A record's fields go into element `i` of the registers from D on. -/
theorem Ctx.recTake_fields (c : Ctx) (w d i : Nat) (bs : List Byte) : ∀ n, (c.recTake n w d i bs).ButV c d n ∧
    ∀ j, j < n → (c.recTake n w d i bs).gv (d + j) = setVecEl (c.gv (d + j)) w i (fieldLE bs (j * w) w)
  | 0 => ⟨.refl c d 0, fun j hj => absurd hj (by omega)⟩
  | n + 1 => by
    obtain ⟨hbut, hgv⟩ := Ctx.recTake_fields c w d i bs n
    have hstep : c.recTake (n + 1) w d i bs = (c.recTake n w d i bs).sv (d + n)
        (setVecEl ((c.recTake n w d i bs).gv (d + n)) w i (fieldLE bs (n * w) w)) := by
      rw [Ctx.recTake, List.range_succ, List.foldl_concat]
      rfl
    rw [hstep]
    refine ⟨⟨hbut.gsIdx, hbut.pc, hbut.stopPending, hbut.a, hbut.f, fun r hr => ?_⟩, fun j hj => ?_⟩
    · rw [Ctx.gv_sv_ne _ _ (by omega), hbut.gv r (by omega)]
    · rcases Nat.lt_succ_iff_lt_or_eq.1 hj with hlt | rfl
      · rw [Ctx.gv_sv_ne _ _ (by omega), hgv j hlt]
      · rw [Ctx.gv_sv_same, hbut.gv _ (by omega)]

theorem leNat_lt (bs : List Byte) : leNat bs < 2 ^ (8 * bs.length) := by
  induction bs with
  | nil => exact Nat.one_pos
  | cons b bs ih =>
    have hb := b.isLt
    have : 2 ^ (8 * (bs.length + 1)) = 256 * 2 ^ (8 * bs.length) := by rw [Nat.mul_succ, pow_add]; ring
    rw [leNat, List.length_cons, this]
    omega

theorem fieldLE_lt (bs : List Byte) (o w : Nat) : fieldLE bs o w < 2 ^ (8 * w) := by
  have := leNat_lt (sliceB bs o w)
  rwa [sliceB_length] at this

theorem leNat_zeros (n : Nat) : leNat (List.replicate n 0) = 0 := by
  induction n with
  | zero => rfl
  | succ n ih => rw [List.replicate_succ, leNat, ih]; rfl

theorem fieldLE_zeros (m o w : Nat) : fieldLE (List.replicate m 0) o w = 0 := by
  have : sliceB (List.replicate m (0 : Byte)) o w = List.replicate w 0 := by
    refine List.ext_getElem (by simp [sliceB]) fun i _ _ => ?_
    simp only [sliceB, List.getElem_map, List.getElem_range, List.getElem_replicate]
    by_cases h : o + i < m
    · rw [List.getD_eq_getElem _ _ (by simpa using h), List.getElem_replicate]
    · rw [List.getD_eq_default _ _ (by simpa using h)]
  rw [fieldLE, this, leNat_zeros]

section Records
variable {t : Tid} {w d n len : Nat} {c : Ctx} {st : Nat → State} {take : Nat → Option (List Byte)} (h0 : (st 0).ctx t = c)
  (hstep : ∀ i, i < len → (st (i + 1)).ctx t =
    match take i with
    | some bs => ((st i).ctx t).recTake n w d i bs
    | none => (st i).ctx t)
include h0 hstep

theorem records_butV : ∀ {k : Nat}, k ≤ len → ((st k).ctx t).ButV c d n
  | 0, _ => h0 ▸ .refl c d n
  | k + 1, hk => by
    have ih := records_butV (k := k) (by omega)
    rw [hstep k (by omega)]
    split
    · exact (((st k).ctx t).recTake_fields w d k _ n).1.trans ih
    · exact ih

/-- The elements of D to D + n − 1 while records are loaded. -/
theorem records_elements (hb : ∀ i, i < len → 8 * w * i + 8 * w ≤ 1024) {i j : Nat} (hi : i < len) (hj : j < n) : ∀ {k : Nat}, k ≤ len →
    vecEl (((st k).ctx t).gv (d + j)) w i =
      if i < k then (match take i with
        | some bs => fieldLE bs (j * w) w
        | none => vecEl (c.gv (d + j)) w i)
      else vecEl (c.gv (d + j)) w i
  | 0, _ => by simp [h0]
  | k + 1, hk => by
    have ih := records_elements hb hi hj (k := k) (by omega)
    rw [hstep k (by omega)]
    cases htk : take k with
    | none =>
      rw [ih]
      by_cases he : i = k
      · subst he
        simp [htk]
      · simp [show i < k + 1 ↔ i < k by omega]
    | some bs =>
      simp only
      rw [(((st k).ctx t).recTake_fields w d k bs n).2 j hj]
      by_cases he : i = k
      · subst he
        rw [vecEl_setVecEl_same (hb i hi), Nat.mod_eq_of_lt (fieldLE_lt ..), if_pos (by omega), htk]
      · rw [vecEl_setVecEl_ne (hb k (by omega)) he, ih]
        simp [show i < k + 1 ↔ i < k by omega]

end Records

theorem execVlds_settle {s s1 : State} {t : Tid} {tgt : Target} (h : s.Issues t { work := true } tgt s1) (hk : t.kind ≠ .grove)
    (hv : t.kind = .control → s1.flag (fVec_AWAKE (t.num / 2)) = true) (n : Nat) (w : MemW) (d a : Reg) (k : Fin 8) (fill : Bool) :
    exec (.vlds t n w d a k fill) s = .next (State.settle t (.vlds t n w d a k fill)
      (if n < 2 ∨ 4 < n ∨ 32 < d.val + n then .fault s1 { code := 0x21 } else s1.vecLoad t n w.bytes d a k fill)) :=
  congrArg Host.Outcome.next (State.Issues.vecInsn h hk hv _ _)

theorem execVsts_settle {s s1 : State} {t : Tid} {tgt : Target} (h : s.Issues t { work := true } tgt s1) (hk : t.kind ≠ .grove)
    (hv : t.kind = .control → s1.flag (fVec_AWAKE (t.num / 2)) = true) (n : Nat) (w : MemW) (d a : Reg) (k : Fin 8) :
    exec (.vsts t n w d a k) s = .next (State.settle t (.vsts t n w d a k)
      (if n < 2 ∨ 4 < n ∨ 32 < d.val + n then .fault s1 { code := 0x21 } else s1.vecStore t n w.bytes d a k)) :=
  congrArg Host.Outcome.next (State.Issues.vecInsn h hk hv _ _)

/-- What the record at a position brings: its bytes, zeros where the fill bit stands for it, nothing. -/
def recTaken (c : Ctx) (n w k : Nat) (fill : Bool) (bs : Nat → List Byte) (i : Nat) : Option (List Byte) :=
  if i < c.gsIdx.toNat then none
  else if (c.gk k).getLsbD i then some (bs i)
  else if fill then some (List.replicate (n * w) 0)
  else none

/-- The read of a record: zeros where the fill bit stands for it. -/
def State.recFetch (x : State) (t : Tid) (n w va : Nat) : MRes × State :=
  if va = fillVa then (.ok (List.replicate (n * w) 0), x) else x.recRead t w va n

theorem State.vecLoad_eq (s : State) (t : Tid) (n w d a k : Nat) (fill : Bool) : s.vecLoad t n w d a k fill =
    s.gatherGo t w n (fun x va => x.recFetch t n w va) (fun x va => x.badRec t n w va) (fun x g bs => x.recPut t n w d g.num bs)
      (recElems t (s.ctx t) n w a k fill) := rfl

theorem recVa_ne_fillVa (m : Nat) : m % 2 ^ 64 ≠ fillVa := (Nat.mod_lt m (by decide)).ne

section Load
variable {t : Tid} {n w a k len : Nat} {d : Reg} {fill : Bool} {c : Ctx} {st : Nat → State} {bs : Nat → List Byte} (h0 : (st 0).ctx t = c)
  (hskip : ∀ i, i < len → i < c.gsIdx.toNat → st (i + 1) = st i)
  (hfill : ∀ i, i < len → c.gsIdx.toNat ≤ i → (c.gk k).getLsbD i = false →
    st (i + 1) = if fill then ((st i).recPut t n w d i (List.replicate (n * w) 0)).dropGot (.read t) else st i)
  (htake : ∀ i, i < len → c.gsIdx.toNat ≤ i → (c.gk k).getLsbD i = true →
    ∃ u, (st i).recRead t w (((c.ga a).toNat + i * n * w) % 2 ^ 64) n = (.ok (bs i), u) ∧ u.ctx t = (st i).ctx t ∧
      st (i + 1) = (u.recPut t n w d i (bs i)).dropGot (.read t))
include hskip hfill htake

theorem vecLoad_step {i : Nat} (hi : i < len) : (st (i + 1)).ctx t =
    match recTaken c n w k fill bs i with
    | some b => ((st i).ctx t).recTake n w d i b
    | none => (st i).ctx t := by
  unfold recTaken
  by_cases hlt : i < c.gsIdx.toNat
  · rw [if_pos hlt, hskip i hi hlt]
  · rw [if_neg hlt]
    cases hlane : (c.gk k).getLsbD i with
    | true =>
      obtain ⟨u, -, hu, hst⟩ := htake i hi (by omega) hlane
      rw [hst, State.ctx_congr (State.dropGot_frame ..).1, State.ctx_recPut, hu]
      rfl
    | false =>
      rw [hfill i hi (by omega) hlane]
      cases fill with
      | true =>
        rw [if_pos rfl, State.ctx_congr (State.dropGot_frame ..).1, State.ctx_recPut]
        rfl
      | false => rfl

include h0

theorem vecLoad_done (hlen : len = vecLen t.kind w) : (st 0).vecLoad t n w d a k fill = .done ((st len).gsDone t) := by
  rw [State.vecLoad_eq, recElems_eq, ← hlen, h0]
  have hidx : ∀ {i}, i < len → ((st i).ctx t).gsIdx = c.gsIdx := fun {i} hi =>
    (records_butV h0 (fun j hj => vecLoad_step hskip hfill htake hj) hi.le).gsIdx
  have := State.gatherGo_filterMap (t := t) (w := w) (parts := n) (rd := fun x va => x.recFetch t n w va) (bad := fun x va => x.badRec t n w va)
    (put := fun x g bs => x.recPut t n w d g.num bs) (recElem c n w a k fill) st len 0 fun i _ hi => ?_
  · rwa [Nat.zero_add] at this
  · rw [Nat.zero_add] at hi
    rw [hidx hi]
    by_cases hlt : i < c.gsIdx.toNat
    · refine ⟨fun _ => hskip i hi hlt, fun g hg => ⟨fun _ => hskip i hi hlt, fun hle => ?_⟩⟩
      have hnum : g.num = i := by
        unfold recElem at hg
        split at hg
        · cases hg; rfl
        · split at hg <;> cases hg
          rfl
      omega
    · cases hlane : (c.gk k).getLsbD i with
      | true =>
        obtain ⟨u, hrd, -, hst⟩ := htake i hi (by omega) hlane
        simp only [recElem, hlane, if_true]
        refine ⟨fun hn => (by cases hn), fun g hg => ?_⟩
        cases hg
        refine ⟨fun hn => absurd hn hlt, fun _ => ⟨bs i, u, ?_, hst⟩⟩
        rw [State.recFetch, if_neg (recVa_ne_fillVa _), hrd]
      | false =>
        have hf := hfill i hi (by omega) hlane
        simp only [recElem, hlane, Bool.false_eq_true, if_false]
        cases fill with
        | true =>
          refine ⟨fun hn => (by cases hn), fun g hg => ?_⟩
          cases hg
          exact ⟨fun hn => absurd hn hlt, fun _ => ⟨_, st i, rfl, hf⟩⟩
        | false => exact ⟨fun _ => hf, fun g hg => by cases hg⟩

end Load

/-- The fields of one record stored in their order. -/
theorem State.recWrite_done {t : Tid} {w i : Nat} {c : Ctx} {va : Nat} : ∀ (n d : Nat) (f : Nat → State) (m : Nat), (f 0).ctx t = c →
    (∀ j, j < n → (∃ b, (f j).elemWrite t ((va + (m + j) * w) % 2 ^ 64) (natLE w (vecEl (c.gv (d + j)) w i)) = (.ok b, f (j + 1))) ∧
      (f (j + 1)).ctx t = c) → ∃ b, (f 0).recWrite t w d i (va + m * w) n = (.ok b, f n)
  | 0, _, f, _, _, _ => ⟨[], rfl⟩
  | n + 1, d, f, m, h0, h => by
    obtain ⟨⟨b, hw⟩, h1⟩ := h 0 (by omega)
    rw [Nat.add_zero, Nat.add_zero] at hw
    rw [State.recWrite, h0, hw]
    obtain ⟨b', ih⟩ := State.recWrite_done n (d + 1) (fun j => f (j + 1)) (m + 1) h1 fun j hj => by
      have := h (j + 1) (by omega)
      rwa [show m + (j + 1) = m + 1 + j by ring, show d + (j + 1) = d + 1 + j by ring] at this
    refine ⟨b', ?_⟩
    rw [show va + (m + 1) * w = va + m * w + w by ring] at ih
    exact ih

theorem vecStore_done {t : Tid} {n w a k len : Nat} {d : Reg} {c : Ctx} {st : Nat → State} {fs : Nat → Nat → State} (h0 : (st 0).ctx t = c)
    (hlen : len = vecLen t.kind w)
    (hskip : ∀ i, i < len → i < c.gsIdx.toNat ∨ (c.gk k).getLsbD i = false → st (i + 1) = st i)
    (htake : ∀ i, i < len → c.gsIdx.toNat ≤ i → (c.gk k).getLsbD i = true → fs i 0 = st i ∧ fs i n = st (i + 1) ∧
      ∀ j, j < n → (∃ b, (fs i j).elemWrite t ((((c.ga a).toNat + i * n * w) % 2 ^ 64 + j * w) % 2 ^ 64)
        (natLE w (vecEl (c.gv (d.val + j)) w i)) = (.ok b, fs i (j + 1))) ∧ (fs i (j + 1)).ctx t = c) :
    (st 0).vecStore t n w d a k = .done ((st len).gsDone t) ∧ (st len).ctx t = c := by
  have hctx : ∀ {i}, i ≤ len → (st i).ctx t = c := by
    intro i
    induction i with
    | zero => exact fun _ => h0
    | succ i ih =>
      intro hi
      by_cases hs : i < c.gsIdx.toNat ∨ (c.gk k).getLsbD i = false
      · rw [hskip i (by omega) hs, ih (by omega)]
      · rw [not_or, Bool.not_eq_false] at hs
        obtain ⟨hf0, hfn, hf⟩ := htake i (by omega) (by omega) hs.2
        rw [← hfn]
        match n with
        | 0 => rw [hf0, ih (by omega)]
        | n + 1 => exact (hf n (by omega)).2
  refine ⟨?_, hctx le_rfl⟩
  have := State.scatterGo_filterMap (t := t) (wr := fun x g => x.recStore t n w d g) (bad := fun x va => x.badRecWrite t n w va)
    (recElem c n w a k false) st len 0 fun i _ hi => ?_
  · rw [Nat.zero_add] at this
    rw [State.vecStore, recElems_eq, ← hlen, h0]
    exact this
  · rw [Nat.zero_add] at hi
    rw [hctx hi.le]
    cases hlane : (c.gk k).getLsbD i with
    | false =>
      have hs := hskip i hi (Or.inr hlane)
      simp only [recElem, hlane, Bool.false_eq_true, if_false]
      exact ⟨fun _ => hs, fun g hg => by cases hg⟩
    | true =>
      simp only [recElem, hlane, if_true]
      refine ⟨fun hn => (by cases hn), fun g hg => ?_⟩
      cases hg
      refine ⟨fun hlt => hskip i hi (Or.inl hlt), fun hle => ?_⟩
      obtain ⟨hf0, hfn, hf⟩ := htake i hi hle hlane
      obtain ⟨b, hw⟩ := State.recWrite_done (w := w) (i := i) (va := ((c.ga a).toNat + i * n * w) % 2 ^ 64) n d.val (fs i) 0
        (by rw [hf0, hctx hi.le]) (fun j hj => by rw [Nat.zero_add]; exact hf j hj)
      rw [Nat.zero_mul, Nat.add_zero, hf0, hfn] at hw
      exact ⟨b, by rw [State.recStore, hw]⟩

/-- Settles O17: the records in their order, and the fields of each. -/
theorem structureAccessesMoveFields : Obligations.StructureAccessesMoveFields := by
  unfold Obligations.StructureAccessesMoveFields
  refine ⟨fun s s1 t tgt n w d a k h hk hv => ?_, fun s s1 s2 t tgt d a k bs h hk hd hg hlane hrd hstop => ?_⟩
  · have legal : 2 ≤ n → n ≤ 4 → d.val + n ≤ 32 → ¬(n < 2 ∨ 4 < n ∨ 32 < d.val + n) := by omega
    refine ⟨fun hn2 hn4 hd hoff => ?_, fun hn2 hn4 hd fill st bs h0 hskip hfill htake => ?_, fun hn2 hn4 hd st fs h0 hskip htake => ?_,
      fun hn fill => ?_⟩
    · have hnone : recElems t (s1.ctx t) n w.bytes a k false = [] := by
        rw [recElems_eq, List.filterMap_eq_nil_iff]
        intro i hi
        have hl : ((s1.ctx t).gk k).getLsbD i = false := hoff i (by simpa using hi)
        rw [recElem, hl]
        rfl
      rw [execVlds_settle h hk hv, execVsts_settle h hk hv, if_neg (legal hn2 hn4 hd), if_neg (legal hn2 hn4 hd), State.vecLoad, State.vecStore,
        hnone, State.gatherGo, State.scatterGo, State.settle_gsDone _ h.unstopped, State.settle_gsDone _ h.unstopped]
      exact ⟨rfl, rfl⟩
    · have hc : (st 0).ctx t = s1.ctx t := by rw [h0]
      have hdone := vecLoad_done hc hskip hfill htake rfl
      have hstep := fun i hi => vecLoad_step hskip hfill htake (i := i) hi
      have hbut := records_butV hc hstep le_rfl
      rw [h0] at hdone
      refine Completes.of (u := (st (vecLen t.kind w.bytes)).setCtx t { (st (vecLen t.kind w.bytes)).ctx t with gsIdx := 0 }.retired) ?_ ?_
      · rw [execVlds_settle h hk hv, if_neg (legal hn2 hn4 hd), hdone, State.settle_gsDone _ (hbut.stopPending.trans h.unstopped)]
      · rw [State.ctx_setCtx_same]
        refine ⟨fun i j hi hj => ?_, hbut.gv, fun r => ⟨?_, ?_⟩, rfl, congrArg (· + 4) hbut.pc, rfl, rfl⟩
        · have := records_elements hc hstep (fun i hi => vecLen_bits hi) hi hj le_rfl
          refine this.trans ?_
          rw [if_pos hi, recTaken]
          by_cases hlt : i < (s1.ctx t).gsIdx.toNat
          · rw [if_pos hlt, if_pos hlt]
          · rw [if_neg hlt, if_neg hlt]
            dsimp only
            by_cases hl : ((s1.ctx t).gk k).getLsbD i = true
            · rw [if_pos hl, if_pos hl]
            · rw [if_neg hl, if_neg hl]
              cases fill
              · rfl
              · exact fieldLE_zeros ..
        · exact congrArg (fun m => tabGet regZero m r) hbut.a
        · exact congrArg (fun m => tabGet regZero m r) hbut.f
    · obtain ⟨hdone, hctx⟩ := vecStore_done (by rw [h0]) rfl hskip htake
      rw [h0] at hdone
      rw [execVsts_settle h hk hv, if_neg (legal hn2 hn4 hd), hdone, State.settle_gsDone _ (by rw [hctx]; exact h.unstopped), hctx]
    · rw [execVlds_settle h hk hv, execVsts_settle h hk hv, if_pos (by omega), if_pos (by omega)]
      exact ⟨rfl, rfl⟩
  · have hnk : t.kind ≠ .grove := by simp [hk]
    have hels : recElems t (s1.ctx t) 2 8 a k false = [{ num := 0, va := ((s1.ctx t).ga a).toNat % 2 ^ 64 }] := by
      have hlen : vecLen t.kind 8 = 8 := by rw [hk]; rfl
      have hrest : (List.range' 1 7).filterMap (recElem (s1.ctx t) 2 8 a k false) = [] := by
        rw [List.filterMap_eq_nil_iff]
        intro i hi
        obtain ⟨h1, h8⟩ := List.mem_range'_1.1 hi
        rw [recElem, hlane i (by omega), decide_eq_false (by omega)]
        rfl
      have hfirst : recElem (s1.ctx t) 2 8 a k false 0 = some { num := 0, va := ((s1.ctx t).ga a).toNat % 2 ^ 64 } := by
        rw [recElem, hlane 0 (by decide)]
        simp
      rw [recElems_eq, hlen, List.range'_succ, List.filterMap_cons, hfirst]
      simp only [hrest]
    obtain ⟨hthr, -, -, -⟩ := (s2.recPut t 2 8 d 0 bs).dropGot_frame (.read t)
    have hctx : ((s2.recPut t 2 8 d 0 bs).dropGot (.read t)).ctx t = (s2.ctx t).recTake 2 8 d 0 bs := by
      rw [State.ctx_congr hthr, State.ctx_recPut]
    obtain ⟨hbut, hgv⟩ := (s2.ctx t).recTake_fields 8 d 0 bs 2
    have hgv0 := hgv 0 (by decide)
    have hgv1 := hgv 1 (by decide)
    rw [Nat.add_zero, Nat.zero_mul] at hgv0
    rw [Nat.one_mul] at hgv1
    refine Completes.of (u := ((s2.recPut t 2 8 d 0 bs).dropGot (.read t)).setCtx t { (s2.ctx t).recTake 2 8 d 0 bs with gsIdx := 0 }.retired) ?_ ?_
    · rw [execVlds_settle h hnk (by simp [hk]), if_neg (by omega), State.vecLoad_eq, MemW.bytes, hels, State.gatherGo, if_neg (by simp [hg])]
      simp only [State.recFetch, if_neg (recVa_ne_fillVa _), hrd]
      rw [State.gatherGo, State.settle_gsDone _ (by rw [hctx, hbut.stopPending]; exact hstop), hctx]
    · have hpc := hbut.pc
      have hgvr := hbut.gv
      rw [State.ctx_setCtx_same]
      generalize (s2.ctx t).recTake 2 8 d 0 bs = x at hgv0 hgv1 hpc hgvr
      refine ⟨?_, ?_, fun i hi hi8 => ?_, fun r hr hr1 => hgvr r (by omega), congrArg (· + 4) hpc⟩
      · refine (congrArg (vecEl · 8 0) hgv0).trans ?_
        rw [vecEl_setVecEl_same (by decide), Nat.mod_eq_of_lt (fieldLE_lt ..)]
      · refine (congrArg (vecEl · 8 0) hgv1).trans ?_
        rw [vecEl_setVecEl_same (by decide), Nat.mod_eq_of_lt (fieldLE_lt ..)]
      · refine (congrArg (vecEl · 8 i) hgv0).trans ?_
        rw [vecEl_setVecEl_ne (by decide) (by omega)]

end Sys2Proof.Machine
end

section
/-! The matrix engine: instructions at issue, and the work of its queue (R97 to R120). -/
namespace Sys2Proof.Machine

/-! ### The matrix engine at issue (R97, R120) -/

@[simp] theorem State.mat_setMat_same (s : State) (g : Nat) (m : Matrix) : (s.setMat g m).mat g = m := tabGet_set_same ..
@[simp] theorem State.mat_setCtx (s : State) (t : Tid) (c : Ctx) (g : Nat) : (s.setCtx t c).mat g = s.mat g := rfl
theorem State.mat_congr {u s : State} (h : u.eng = s.eng) (g : Nat) : u.mat g = s.mat g := by simp only [State.mat, h]
@[simp] theorem State.setMat_setMat (s : State) (g : Nat) (m m' : Matrix) : (s.setMat g m).setMat g m' = s.setMat g m' := by
  simp only [State.setMat, tabSet_set]

@[simp] theorem Matrix.tile_setTile_same (m : Matrix) (i : Nat) (x : Tile) : (m.setTile i x).tile i = x := by
  unfold Matrix.setTile Matrix.tile
  split <;> rfl

theorem Matrix.setTile_owner (m : Matrix) (i : Nat) (x : Tile) : (m.setTile i x).owner = m.owner := by
  unfold Matrix.setTile
  split <;> rfl

theorem Matrix.setTile_queue (m : Matrix) (i : Nat) (x : Tile) : (m.setTile i x).queue = m.queue := by
  unfold Matrix.setTile
  split <;> rfl

@[simp] theorem Matrix.tile_setQueue (m : Matrix) (q : List MWork) (i : Nat) : (m.setQueue q).tile i = m.tile i := rfl

/-- The engine as the thread that uses it holds it. -/
def Matrix.ownedBy (m : Matrix) (t : Tid) : Matrix := { m with owner := some t }

@[simp] theorem Ctx.sa_stopPending (c : Ctx) (r : Nat) (v : W64) : (c.sa r v).stopPending = c.stopPending := rfl
@[simp] theorem Matrix.mstat_ownedBy (m : Matrix) (t : Tid) : (m.ownedBy t).mstat = m.mstat := rfl
@[simp] theorem Matrix.queued_ownedBy (m : Matrix) (t : Tid) (i : Nat) : (m.ownedBy t).queued i = m.queued i := rfl
@[simp] theorem Matrix.tile_ownedBy (m : Matrix) (t : Tid) (i : Nat) : (m.ownedBy t).tile i = m.tile i := rfl
theorem State.setMat_setCtx (s : State) (t : Tid) (c : Ctx) (g : Nat) (m : Matrix) : (s.setCtx t c).setMat g m = (s.setMat g m).setCtx t c := rfl

section Matrix
variable {s s1 s2 : State} {t : Tid} {tgt : Target} (h : s.Issues t profEngine tgt s1)
include h

section Own
variable (ho : (s1.mat t.groveOf).owner = none ∨ (s1.mat t.groveOf).owner = some t)
include ho

/-- A matrix instruction of the owner, without a deferred error that it must report. -/
theorem State.Issues.mxInsn {i : Instr} {async : Bool} {body : State → Matrix → TRes} (hp : (async && (s1.mat t.groveOf).pend) = false)
    (hb : body (s1.setMat t.groveOf ((s1.mat t.groveOf).ownedBy t)) ((s1.mat t.groveOf).ownedBy t) = .done s2) (hc : (s2.ctx t).stopPending = false) :
    s.mxInsn t i async body = s2.setCtx t (s2.ctx t).retired := by
  rw [State.mxInsn]
  refine (h.done i ?_ hc).trans rfl
  have howner : ¬((s1.mat t.groveOf).owner.isSome = true ∧ (s1.mat t.groveOf).owner ≠ some t) := by
    rcases ho with ho | ho <;> simp [ho]
  have hb' := hb
  simp only [Matrix.ownedBy] at hb'
  dsimp only
  rw [if_neg howner, if_neg (by simpa using hp), hb']

end Own

theorem State.Issues.mxInsn_other {i : Instr} {async : Bool} {body : State → Matrix → TRes} {x : Tid} (ho : (s1.mat t.groveOf).owner = some x)
    (hx : x ≠ t) : s.mxInsn t i async body = s1.modCtx t fun c => c.waiting i .cond :=
  h.wait i (if_pos ⟨by simp [ho], by simpa [ho] using hx⟩)

theorem State.Issues.mxInsn_deferred {i : Instr} {body : State → Matrix → TRes} (ho : (s1.mat t.groveOf).owner = some t)
    (hp : (s1.mat t.groveOf).pend = true) : s.mxInsn t i true body =
      (s1.setMat t.groveOf { s1.mat t.groveOf with mstat := (s1.mat t.groveOf).mstat &&& 0x0FFF }).takeFault t { code := 0x33 } := by
  refine h.fault i ?_
  dsimp only
  rw [if_neg (by simp [ho]), if_pos ⟨rfl, hp⟩]

end Matrix

theorem mstat_pend_clear (x : BitVec 13) : (x &&& 0x0FFF).getLsbD 12 = false := by simp

section Control
variable {s s1 : State} {t : Tid} {tgt : Target} (h : s.Issues t profEngine tgt s1)
include h

section Own
variable (ho : (s1.mat t.groveOf).owner = none ∨ (s1.mat t.groveOf).owner = some t) (hp : (s1.mat t.groveOf).pend = false)
include ho hp

theorem State.Issues.msarea (a : Reg) : exec (.msarea t a) s =
    .next ((s1.setMat t.groveOf { (s1.mat t.groveOf).ownedBy t with save := (s1.ctx t).ga a }).setCtx t (s1.ctx t).retired) := by
  have he : exec (.msarea t a) s = execMsarea t a s := rfl
  rw [he, execMsarea, h.mxInsn ho (by simp [hp]) rfl (by simpa using h.unstopped), State.setMat_setMat, State.ctx_setMat, State.ctx_setMat]

theorem State.Issues.mzero (tile : Fin 2) (hq : (s1.mat t.groveOf).queued tile = false) (hc : ((s1.mat t.groveOf).tile tile).st ≠ .closed)
    (hd : ((s1.mat t.groveOf).tile tile).st ≠ .draining) : exec (.mzero t tile) s =
    .next ((s1.setMat t.groveOf (((s1.mat t.groveOf).ownedBy t).setTile tile Tile.clear)).setCtx t (s1.ctx t).retired) := by
  have he : exec (.mzero t tile) s = execMzero t tile s := rfl
  have hno : ¬(((s1.mat t.groveOf).ownedBy t).queued tile = true ∨ (((s1.mat t.groveOf).ownedBy t).tile tile).st = .closed ∨
      (((s1.mat t.groveOf).ownedBy t).tile tile).st = .draining) := by
    rw [Matrix.queued_ownedBy, Matrix.tile_ownedBy, hq]
    simp [hc, hd]
  rw [he, execMzero, h.mxInsn ho (by simp [hp]) (if_neg hno) (by simpa using h.unstopped), State.setMat_setMat, State.ctx_setMat]

omit hp in
theorem State.Issues.mstat (d : Reg) (clr : Bool) : exec (.mstat t d clr) s = .next ((s1.setMat t.groveOf
    (if clr then { (s1.mat t.groveOf).ownedBy t with mstat := (s1.mat t.groveOf).mstat &&& 0x1000 } else (s1.mat t.groveOf).ownedBy t)).setCtx t
      ((s1.ctx t).sa d ((s1.mat t.groveOf).ownedBy t).mstatWord).retired) := by
  have he : exec (.mstat t d clr) s = execMstat t d clr s := rfl
  rw [he, execMstat, h.mxInsn ho rfl rfl]
  · rw [State.ctx_setMat, State.ctx_modCtx_same, State.ctx_setMat, State.modCtx, State.setMat_setCtx, State.setMat_setMat,
      State.setCtx_setCtx, Matrix.mstat_ownedBy]
  · rw [State.ctx_setMat, State.ctx_modCtx_same, State.ctx_setMat, Ctx.sa_stopPending]
    exact h.unstopped

theorem State.Issues.mwait (d : Reg) (hq : (s1.mat t.groveOf).queue = []) (h0 : (s1.mat t.groveOf).t0.st.code ≠ 2)
    (h1 : (s1.mat t.groveOf).t1.st.code ≠ 2) : exec (.mwait t d) s =
    .next ((s1.setMat t.groveOf ((s1.mat t.groveOf).ownedBy t)).setCtx t ((s1.ctx t).sa d ((s1.mat t.groveOf).ownedBy t).mstatWord).retired) := by
  have he : exec (.mwait t d) s = execMwait t d s := rfl
  have hidle : ((s1.mat t.groveOf).ownedBy t).queue.isEmpty = true ∧ ((s1.mat t.groveOf).ownedBy t).t0.st.code ≠ 2 ∧
      ((s1.mat t.groveOf).ownedBy t).t1.st.code ≠ 2 := ⟨by simp [Matrix.ownedBy, hq], h0, h1⟩
  rw [he, execMwait, h.mxInsn ho (by rw [hp]; rfl) (if_pos hidle)]
  · rw [State.ctx_modCtx_same, State.ctx_setMat, State.modCtx, State.setCtx_setCtx]
  · rw [State.ctx_modCtx_same, State.ctx_setMat, Ctx.sa_stopPending]
    exact h.unstopped

/-- MEPI of a good block takes its configuration. -/
theorem State.Issues.mepi {s2 : State} {a : Reg} {b : List Byte} (hal : ((s1.ctx t).ga a).toNat % 4096 = 0)
    (hrd : (s1.setMat t.groveOf ((s1.mat t.groveOf).ownedBy t)).vread (engAgt t) ((s1.ctx t).ga a).toNat 4096 = (.ok b, s2))
    (hbad : ctlBad (fieldLE b 0x10 8) = false) (hres : (sliceB b 0x50 0x7B0).any (· != 0) = false) (hc : (s2.ctx t).stopPending = false) :
    exec (.mepi t a) s = .next ((s2.setMat t.groveOf { (s1.mat t.groveOf).ownedBy t with epi := epiOf b }).setCtx t (s2.ctx t).retired) := by
  have he : exec (.mepi t a) s = execMepi t a s := rfl
  rw [he, execMepi, h.mxInsn (s2 := s2.setMat t.groveOf { (s1.mat t.groveOf).ownedBy t with epi := epiOf b }) ho (by simp [hp]) ?_ hc]
  · rw [State.ctx_setMat]
  · dsimp only
    rw [State.ctx_setMat, if_neg (by simp [hal]), hrd]
    dsimp only
    rw [if_neg (by rw [hbad, hres]; simp)]

end Own
end Control

/-- Settles O19: each instruction's effect on the engine it owns, the deferred error, and the wait for an engine of another. -/
theorem matrixControlRetiresOrFaults : Obligations.MatrixControlRetiresOrFaults := by
  unfold Obligations.MatrixControlRetiresOrFaults
  refine ⟨fun s s1 t tgt d a tile clr h ho hp => ⟨?_, fun hq hc hd => ?_, ?_, fun hq h0 h1 => ?_, fun s2 b hal hrd hbad hres hctx => ?_⟩,
    fun s s1 t tgt a tile h => ⟨fun ho hp i hi => ⟨?_, mstat_pend_clear _⟩, fun x ho hx i hi => ?_⟩⟩
  · refine Completes.of (h.msarea ho hp a) ⟨?_, State.ctx_setCtx_same ..⟩
    rw [State.mat_setCtx, State.mat_setMat_same]
    rfl
  · refine Completes.of (h.mzero ho hp tile hq hc hd) ⟨?_, State.ctx_setCtx_same ..⟩
    rw [State.mat_setCtx, State.mat_setMat_same]
    rfl
  · refine Completes.of (h.mstat ho d clr) ⟨State.ctx_setCtx_same .., ?_⟩
    rw [State.mat_setCtx, State.mat_setMat_same]
    rfl
  · refine Completes.of (h.mwait ho hp d hq h0 h1) ⟨State.ctx_setCtx_same .., ?_⟩
    rw [State.mat_setCtx, State.mat_setMat_same]
    rfl
  · have hstop : (s2.ctx t).stopPending = false := (congrArg Ctx.stopPending hctx).trans h.unstopped
    refine Completes.of (h.mepi ho hp hal hrd hbad hres hstop) ?_
    rw [State.mat_setCtx, State.mat_setMat_same, State.ctx_setCtx_same, hctx]
    dsimp only [Matrix.ownedBy]
    exact ⟨rfl, rfl, rfl⟩
  · simp only [List.mem_cons, List.not_mem_nil, or_false] at hi
    rcases hi with rfl | rfl | rfl | rfl | rfl <;> exact congrArg Host.Outcome.next (h.mxInsn_deferred ho hp)
  · simp only [List.mem_cons, List.not_mem_nil, or_false] at hi
    rcases hi with rfl | rfl | rfl | rfl | rfl | rfl <;> exact congrArg Host.Outcome.next (h.mxInsn_other ho hx)

/-! ### Matrix work at issue (R97, R98, R101) -/

@[simp] theorem Matrix.tileBusy_ownedBy (m : Matrix) (t : Tid) (i : Nat) : (m.ownedBy t).tileBusy i = m.tileBusy i := rfl
@[simp] theorem Matrix.queue_ownedBy (m : Matrix) (t : Tid) : (m.ownedBy t).queue = m.queue := rfl
@[simp] theorem Matrix.epi_ownedBy (m : Matrix) (t : Tid) : (m.ownedBy t).epi = m.epi := rfl
@[simp] theorem Matrix.owner_ownedBy (m : Matrix) (t : Tid) : (m.ownedBy t).owner = some t := rfl

/-- A tile's work queued: the tile as the instruction leaves it, its entry at the queue's end. -/
def Matrix.queuedWork (m : Matrix) (t : Tid) (tile : Nat) (x : Tile) (w : MWork) : Matrix :=
  ((m.ownedBy t).setTile tile x).setQueue (m.queue ++ [w])

theorem Matrix.queuedWork_owner (m : Matrix) (t : Tid) (i : Nat) (x : Tile) (w : MWork) : (m.queuedWork t i x w).owner = some t :=
  Matrix.setTile_owner ..

theorem Matrix.queuedWork_queue (m : Matrix) (t : Tid) (i : Nat) (x : Tile) (w : MWork) : (m.queuedWork t i x w).queue = m.queue ++ [w] := rfl

theorem Matrix.queuedWork_tile (m : Matrix) (t : Tid) (i : Nat) (x : Tile) (w : MWork) : (m.queuedWork t i x w).tile i = x := by
  rw [Matrix.queuedWork, Matrix.tile_setQueue, Matrix.tile_setTile_same]

/-- A tile that an MMA of a class and an epoch joins: one with work has both already. -/
def Tile.joined (x : Tile) (busy : Bool) (cls : Nat) (ep : W32) (cap : Bool) : Tile :=
  if busy then x else { x with cls := cls, epoch := ep, reduced := cap }

theorem Tile.joined_fields {x : Tile} {busy : Bool} {cls : Nat} {ep : W32} (h : busy = true → x.cls = cls ∧ x.epoch = ep) (cap : Bool) :
    (x.joined busy cls ep cap).cls = cls ∧ (x.joined busy cls ep cap).epoch = ep ∧ (x.joined busy cls ep cap).st = x.st ∧
      (x.joined busy cls ep cap).el = x.el := by
  cases busy with
  | false => exact ⟨rfl, rfl, rfl, rfl⟩
  | true => exact ⟨(h rfl).1, (h rfl).2, rfl, rfl⟩

/-- The tile that MDRAIN closes over its drain. -/
def Tile.closedBy (x : Tile) (d : Drain) : Tile := { x with st := .closed, drain := some d }

section Queue
variable {s s1 s2 s3 s4 : State} {t : Tid} {tgt : Target} (h : s.Issues t profEngine tgt s1)
  (ho : (s1.mat t.groveOf).owner = none ∨ (s1.mat t.groveOf).owner = some t) (hp : (s1.mat t.groveOf).pend = false)
  (hq : (s1.mat t.groveOf).queue.length < 4) {tile : Fin 2}
  (hst : ((s1.mat t.groveOf).tile tile).st = .empty ∨ ((s1.mat t.groveOf).tile tile).st = .filling) (hc : (s4.ctx t).stopPending = false)
include h ho hp hq hst hc

theorem State.Issues.mma {d a b : Reg} {da db : List Byte} {cls : Nat} (hala : ((s1.ctx t).ga a).toNat % 32 = 0)
    (halb : ((s1.ctx t).ga b).toNat % 32 = 0)
    (hra : (s1.setMat t.groveOf ((s1.mat t.groveOf).ownedBy t)).opndBytes t ((s1.mat t.groveOf).ownedBy t) true ((s1.ctx t).ga a) = (.ok da, s2))
    (hrb : s2.opndBytes t ((s1.mat t.groveOf).ownedBy t) false ((s1.ctx t).ga b) = (.ok db, s3))
    (hcls : pairClass (Opnd.ofBytes da).eff (Opnd.ofBytes db).eff = some cls) (hba : (Opnd.ofBytes da).bad ((s1.ctx t).ga d).toNat = false)
    (hbb : (Opnd.ofBytes db).bad ((s1.ctx t).ga d).toNat = false)
    (hbusy : (s1.mat t.groveOf).tileBusy tile = true →
      ((s1.mat t.groveOf).tile tile).cls = cls ∧ ((s1.mat t.groveOf).tile tile).epoch = (s1.ctx t).epoch)
    (hpr : s3.probeRanges .jobLevel .load ((Opnd.ofBytes da).region ((s1.ctx t).ga d).toNat ++
      (Opnd.ofBytes da).auxRegion ((s1.ctx t).ga d).toNat ++ (Opnd.ofBytes db).region ((s1.ctx t).ga d).toNat ++
        (Opnd.ofBytes db).auxRegion ((s1.ctx t).ga d).toNat) = (.ok, s4)) :
    exec (.mma t tile d a b) s = .next ((s4.setMat t.groveOf ((s1.mat t.groveOf).queuedWork t tile
      (((s1.mat t.groveOf).tile tile).joined ((s1.mat t.groveOf).tileBusy tile) cls (s1.ctx t).epoch (s4.flag fMode_A_CAP_MODE))
      (.mma tile ((s1.ctx t).ga d).toNat da db))).setCtx t (s4.ctx t).retired) := by
  have he : exec (.mma t tile d a b) s = execMma t tile d a b s := rfl
  have hst' : ¬(((s1.mat t.groveOf).tile tile).st = .closed ∨ ((s1.mat t.groveOf).tile tile).st = .draining ∨
      4 ≤ (s1.mat t.groveOf).queue.length) := by
    rcases hst with hst | hst <;> simp [hst, hq]
  have hpois : ((s1.mat t.groveOf).tile tile).st ≠ .poisoned := by
    rcases hst with hst | hst <;> simp [hst]
  rw [he, execMma, h.mxInsn (s2 := s4.setMat t.groveOf ((s1.mat t.groveOf).queuedWork t tile
      (((s1.mat t.groveOf).tile tile).joined ((s1.mat t.groveOf).tileBusy tile) cls (s1.ctx t).epoch (s4.flag fMode_A_CAP_MODE))
      (.mma tile ((s1.ctx t).ga d).toNat da db))) ho (by rw [hp]; rfl) ?_ hc]
  · rw [State.ctx_setMat]
  · dsimp only
    rw [State.ctx_setMat, Matrix.tile_ownedBy, Matrix.queue_ownedBy, Matrix.tileBusy_ownedBy, if_neg hst', if_neg (by simp [hala, halb]), hra]
    dsimp only
    rw [hrb]
    dsimp only
    rw [hcls]
    dsimp only
    rw [if_neg (by simp [hba, hbb]), if_neg (fun hb => hb.2 (hbusy hb.1).1), if_neg (fun hb => hb.2 (hbusy hb.1).2), if_neg hpois, hpr]
    rfl

theorem State.Issues.mdrain {a : Reg} {bs : List Byte} (hal : ((s1.ctx t).ga a).toNat % 128 = 0)
    (hrd : (s1.setMat t.groveOf ((s1.mat t.groveOf).ownedBy t)).vread (engAgt t) ((s1.ctx t).ga a).toNat 128 = (.ok bs, s2))
    (hres : (drainDesc bs).reserved = false) (hr : 1 ≤ (drainDesc bs).rows ∧ (drainDesc bs).rows ≤ 64)
    (hcol : 1 ≤ (drainDesc bs).cols ∧ (drainDesc bs).cols ≤ 64) (hbad : ctlBad (cfgCtl (s1.mat t.groveOf).epi) = false)
    (hrm : (s1.ctx t).effRm (bitsOf (cfgCtl (s1.mat t.groveOf).epi) 15 13) ≠ 6 ∨ s2.flag fMode_A_STRICT = false)
    (hview : s2.drainViewFault (cfgCtl (s1.mat t.groveOf).epi) (drainDesc bs) = none)
    (hpr : s2.drainProbe (cfgCtl (s1.mat t.groveOf).epi) (drainDesc bs) = (.ok, s4)) :
    exec (.mdrain t tile a) s = .next ((s4.setMat t.groveOf ((s1.mat t.groveOf).queuedWork t tile (((s1.mat t.groveOf).tile tile).closedBy
      { cfg := (s1.mat t.groveOf).epi, desc := bs, rm := (s1.ctx t).effRm (bitsOf (cfgCtl (s1.mat t.groveOf).epi) 15 13), out := [],
        wrote := false }) (.drain tile))).setCtx t (s4.ctx t).retired) := by
  have he : exec (.mdrain t tile a) s = execMdrain t tile a s := rfl
  have hst' : ¬(((s1.mat t.groveOf).tile tile).st = .closed ∨ ((s1.mat t.groveOf).tile tile).st = .draining ∨
      ((s1.mat t.groveOf).tile tile).st = .poisoned) := by
    rcases hst with hst | hst <;> simp [hst]
  have hdesc : ¬((drainDesc bs).reserved = true ∨ (drainDesc bs).rows = 0 ∨ 64 < (drainDesc bs).rows ∨ (drainDesc bs).cols = 0 ∨
      64 < (drainDesc bs).cols ∨ ctlBad (cfgCtl (s1.mat t.groveOf).epi) = true ∨
        ((s1.ctx t).effRm (bitsOf (cfgCtl (s1.mat t.groveOf).epi) 15 13) = 6 ∧ s2.flag fMode_A_STRICT = true)) := by
    rintro (hx | hx | hx | hx | hx | hx | ⟨hx, hy⟩)
    · simp [hres] at hx
    · omega
    · omega
    · omega
    · omega
    · simp [hbad] at hx
    · rcases hrm with hrm | hrm
      · exact hrm hx
      · simp [hrm] at hy
  rw [he, execMdrain, h.mxInsn (s2 := s4.setMat t.groveOf ((s1.mat t.groveOf).queuedWork t tile (((s1.mat t.groveOf).tile tile).closedBy
      { cfg := (s1.mat t.groveOf).epi, desc := bs, rm := (s1.ctx t).effRm (bitsOf (cfgCtl (s1.mat t.groveOf).epi) 15 13), out := [],
        wrote := false }) (.drain tile))) ho (by rw [hp]; rfl) ?_ hc]
  · rw [State.ctx_setMat]
  · extract_lets c va x w rm
    have hva : va.toNat % 128 = 0 := hal
    have hrd' : (s1.setMat t.groveOf ((s1.mat t.groveOf).ownedBy t)).vread (engAgt t) va.toNat 128 = (.ok bs, s2) := hrd
    rw [if_neg (by rw [Matrix.queue_ownedBy]; omega), if_neg (not_not.mpr hva), hrd']
    dsimp -zeta only
    extract_lets d
    refine (if_neg hdesc).trans ((if_neg hst').trans ?_)
    rw [show s2.drainViewFault w d = none from hview]
    dsimp -zeta only
    rw [show s2.drainProbe w d = _ from hpr]
    rfl

end Queue

/-- Settles O20: with the checks passed the work joins the queue's end, and the tile keeps its elements. -/
theorem matrixWorkIsQueued : Obligations.MatrixWorkIsQueued := by
  unfold Obligations.MatrixWorkIsQueued
  intro s s1 s2 s3 s4 t tgt d a b tile h c m own s1' x ho hp hq hst hc
  constructor
  · intro da db cls hala halb hra hrb k hcls hba hbb hbusy hpr
    obtain ⟨f1, f2, f3, f4⟩ := Tile.joined_fields hbusy (s4.flag fMode_A_CAP_MODE)
    refine Completes.of (h.mma ho hp hq hst hc hala halb hra hrb hcls hba hbb hbusy hpr) ?_
    rw [State.mat_setCtx, State.mat_setMat_same, State.ctx_setCtx_same, Matrix.queuedWork_tile, Matrix.queuedWork_owner, Matrix.queuedWork_queue]
    exact ⟨rfl, rfl, f1, f2, f3, f4, rfl, rfl⟩
  · intro bs hal hrd w e hres hr hr' hcl hcl' hbad hrm hview hpr
    refine Completes.of (h.mdrain ho hp hq hst hc hal hrd hres ⟨hr, hr'⟩ ⟨hcl, hcl'⟩ hbad hrm hview hpr) ?_
    rw [State.mat_setCtx, State.mat_setMat_same, State.ctx_setCtx_same, Matrix.queuedWork_tile, Matrix.queuedWork_owner, Matrix.queuedWork_queue]
    exact ⟨rfl, rfl, rfl, rfl, rfl, rfl, rfl⟩

/-! ### The engine's work (R98, R103 to R120) -/

@[simp] theorem Matrix.tile_set (m : Matrix) (b : Nat) (v : Bool) (i : Nat) : (m.set b v).tile i = m.tile i := by
  unfold Matrix.set
  split <;> rfl

@[simp] theorem Matrix.queue_set (m : Matrix) (b : Nat) (v : Bool) : (m.set b v).queue = m.queue := by
  unfold Matrix.set
  split <;> rfl

/-- A status bit stays when another is set, and is set by its own. -/
theorem Matrix.mstat_set_bit (m : Matrix) {b : Nat} (hb : b < 13) (v : Bool) (i : Nat) :
    (m.set b v).mstat.getLsbD i = (m.mstat.getLsbD i || (v && decide (i = b))) := by
  cases v with
  | false => simp [Matrix.set]
  | true =>
    rw [Matrix.set, if_pos rfl]
    simp only [BitVec.getLsbD_or, BitVec.getLsbD_ofNat, Nat.testBit_two_pow, Bool.true_and]
    by_cases hi : i = b
    · simp [hi, hb]
    · simp [hi, Ne.symm hi]

theorem State.mat_dropGot (s : State) (u : RUse) (g : Nat) : (s.dropGot u).mat g = s.mat g := by
  obtain ⟨-, -, he, -⟩ := s.dropGot_frame u
  exact State.mat_congr he g

theorem Tile.mma_count (x : Tile) (mxint : Bool) (k : Nat) (ra rb : List OpRow) :
    (x.mma mxint k ra rb).1.count = (x.count + ceilDiv k (classG x.cls x.reduced)) % 16 := rfl

/-- An MMA's sum in its tile, with the status it raises. -/
theorem State.mmaSum_mat {s : State} {g : Nat} (hinj : s.injArmed (0x100 + g) 1 = false) (t : Tid) (m : Matrix) (tile k : Nat) (mxint : Bool)
    (ra rb : List OpRow) : ∃ m' : Matrix, (s.mmaSum g t m tile k mxint ra rb).mat g = m' ∧ m'.queue = m.queue ∧
      m'.tile tile = ((m.tile tile).mma mxint k ra rb).1 ∧
      (k % classG (m.tile tile).cls (m.tile tile).reduced ≠ 0 → m'.mstat.getLsbD 6 = true) := by
  rw [State.mmaSum, hinj, if_neg Bool.false_ne_true]
  refine ⟨_, State.mat_setMat_same .., ?_, ?_, fun hk => ?_⟩
  · simp only [Matrix.queue_set, Matrix.setTile_queue]
  · simp only [Matrix.tile_set, Matrix.tile_setTile_same]
    rfl
  · rw [Matrix.mstat_set_bit _ (by decide), Matrix.mstat_set_bit _ (by decide), Matrix.mstat_set_bit _ (by decide)]
    simp [hk, msPAD]

/-- MMA_EXECUTE of an MMA whose operands are read. -/
theorem State.mmaRun_read {s s0 s1 s2 : State} {g : Nat} {t : Tid} {m : Matrix} {tile k : Nat} {da db b : List Byte} {ra rb : List OpRow}
    (hask : s.askRanges (tileAgt t tile) ((Opnd.ofBytes da).region k ++ (Opnd.ofBytes da).auxRegion k ++ (Opnd.ofBytes db).region k ++
      (Opnd.ofBytes db).auxRegion k) = (true, s0))
    (hra : s0.readOpnd (tileAgt t tile) (Opnd.ofBytes da) k = (.ok b, ra, s1))
    (hrb : s1.readOpnd (tileAgt t tile) (Opnd.ofBytes db) k = (.ok b, rb, s2)) :
    s.mmaRun g t m tile k da db = (s2.mmaSum g t ((m.setTile tile { m.tile tile with
      st := if (m.tile tile).st = .empty then .filling else (m.tile tile).st }).setQueue (dropMma tile m.queue)) tile k
        ((Opnd.ofBytes da).fmt == 0x0B) ra rb).dropGot (.opnd t tile) := by
  rw [State.mmaRun]
  dsimp only
  rw [hask]
  dsimp only
  rw [hra]
  dsimp only
  rw [hrb]

/-- The outputs of a drain: one for each element of its extent. -/
theorem Tile.outputs_length (x : Tile) (dr : Drain) (d : DrainDesc) (draw : Nat) (sc bi : List Nat) :
    (x.outputs dr d draw sc bi).length = d.rows * d.cols := by
  simp [Tile.outputs, List.length_flatMap]

/-- A drain without column vectors and without top-k asks for nothing and waits for nothing. -/
theorem State.drainRun_plain {dr : Drain} (h0 : bitAt (cfgCtl dr.cfg) 0 = false) (h2 : bitAt (cfgCtl dr.cfg) 2 = false)
    (h17 : bitAt (cfgCtl dr.cfg) 17 = false) (s : State) (g : Nat) (t : Tid) (m : Matrix) (tile : Nat) :
    ∃ m' : Matrix, (s.drainRun g t m tile dr).mat g = m' ∧ m'.queue = m.queue.filter (fun k => k != .drain tile) ∧
      (m'.tile tile).st = .draining ∧ ∃ dr', (m'.tile tile).drain = some dr' ∧
        dr'.out.length = (drainDesc dr.desc).rows * (drainDesc dr.desc).cols := by
  have hreads : (drainDesc dr.desc).reads (cfgCtl dr.cfg) = [] := by simp [DrainDesc.reads, h0, h2, h17]
  have hask : s.askRanges (tileAgt t tile) [] = (true, s) := rfl
  rw [State.drainRun]
  dsimp only
  rw [hreads, hask]
  dsimp only
  simp only [State.colVec, h0, h2, Bool.false_and, Bool.false_eq_true, if_false, State.drainForm, h17, if_true, State.mat_dropGot,
    State.mat_setMat_same]
  refine ⟨_, rfl, ?_, ?_, ?_⟩
  · simp only [Matrix.setTile_queue, Matrix.queue_set, Matrix.setQueue]
  · rw [Matrix.tile_setTile_same]
  · rw [Matrix.tile_setTile_same]
    exact ⟨_, rfl, by rw [List.length_map, Tile.outputs_length]⟩

/-- A drain that writes nothing back and keeps no digest empties its tile. -/
theorem State.drainWrite_none {dr : Drain} (h24 : bitAt (cfgCtl dr.cfg) 24 = true) (h23 : bitAt (cfgCtl dr.cfg) 23 = false) {s : State}
    {t : Tid} {tile : Nat} (hw : s.writeBackOut t tile = false) (g : Nat) (m : Matrix) :
    s.drainWrite g t m tile dr = s.setMat g (m.setTile tile Tile.clear) := by
  have hadds : s.engineAdds t tile true [] = (.ok [], true, s) := rfl
  rw [State.drainWrite, if_pos h24, h23]
  simp only [Bool.false_eq_true, if_false, hadds, if_true]
  rw [State.drainWritten, hw, if_neg Bool.false_ne_true]

section Exec
variable {s : State} {g : Fin 256} {t : Tid} (ho : (s.mat g).owner = some t)
include ho

theorem exec_mmaExecute_first {tile k : Nat} {da db : List Byte} (hf : firstMma (s.mat g).queue [] = some (tile, k, da, db)) :
    exec (.mmaExecute g) s = .next (s.mmaRun g t (s.mat g) tile k da db) := by
  have he : exec (.mmaExecute g) s = execMmaExecute g s := rfl
  rw [he, execMmaExecute, ho, hf]

section Drain
variable {tile : Fin 2} {dr : Drain} (hdr : ((s.mat g).tile tile).drain = some dr)
include hdr

theorem exec_drainStart_closed (hcl : ((s.mat g).tile tile).st = .closed) (hfirst : drainFirst tile (s.mat g).queue = true) :
    exec (.drainStart g tile) s = .next (s.drainRun g t (s.mat g) tile dr) := by
  have he : exec (.drainStart g tile) s = execDrainStart g tile s := rfl
  rw [he, execDrainStart, ho, hdr]
  exact congrArg Host.Outcome.next (if_pos ⟨hcl, hfirst⟩)

theorem exec_drainComplete_unwritten (hst : ((s.mat g).tile tile).st = .draining) (hwr : dr.wrote = false) :
    exec (.drainComplete g tile) s = .next (s.drainWrite g t (s.mat g) tile dr) := by
  have he : exec (.drainComplete g tile) s = execDrainComplete g tile s := rfl
  rw [he, execDrainComplete, ho, hdr]
  dsimp only
  rw [if_neg (not_not.mpr hst), hwr, if_neg Bool.false_ne_true]

end Drain
end Exec

/-- Settles O21: the work's effect on its tile and on the queue. -/
theorem matrixWorkExecutes : Obligations.MatrixWorkExecutes := by
  unfold Obligations.MatrixWorkExecutes
  intro s s0 s1 s2 g t m ho
  refine ⟨fun tile k da db ra rb b _ hfirst hst hask hra hrb hinj => ?_, fun tile dr hdr hcl hfirst h0 h2 h17 => ?_,
    fun tile dr hdr hst hwr h24 h23 hout => ?_⟩
  · have hfill : (if (m.tile tile).st = .empty then TileSt.filling else (m.tile tile).st) = .filling := by
      rcases hst with hst | hst <;> simp [hst]
    obtain ⟨m', hm', hqueue, htl, hpad⟩ := State.mmaSum_mat hinj t ((m.setTile tile { m.tile tile with st := .filling }).setQueue
      (dropMma tile m.queue)) tile k ((Opnd.ofBytes da).fmt == 0x0B) ra rb
    rw [Matrix.tile_setQueue, Matrix.tile_setTile_same] at htl hpad
    refine Completes.of (exec_mmaExecute_first ho hfirst) ?_
    rw [State.mmaRun_read hask hra hrb, hfill, State.mat_dropGot, hm', htl]
    exact ⟨rfl, hqueue, rfl, Tile.mma_count .., hpad⟩
  · obtain ⟨m', hm', hqueue, hst, hdr'⟩ := State.drainRun_plain h0 h2 h17 s g t m tile
    refine Completes.of (exec_drainStart_closed ho hdr hcl hfirst) ?_
    rw [hm']
    exact ⟨hst, hdr', hqueue⟩
  · refine Completes.of (exec_drainComplete_unwritten ho hdr hst hwr) ?_
    rw [State.drainWrite_none h24 h23 hout, State.mat_setMat_same, Matrix.tile_setTile_same]

end Sys2Proof.Machine
end

section
/-! The element-wise engine: tile registers, instructions at issue, arithmetic, tile memory accesses (R125 to R135, R139 to R143). -/
namespace Sys2Proof.Machine

/-! ### Elements of tile registers (R125, R127) -/

theorem tabGet_putTile (q : Nat) (t : List (Nat × Byte)) (k : Nat) (bs : List Byte) :
    tabGet tileZero (putTile t k bs) q = if k ≤ q ∧ q < k + bs.length then bs.getD (q - k) 0 else tabGet tileZero t q := by
  induction bs generalizing t k with
  | nil => rw [putTile, if_neg (by simp only [List.length_nil]; omega)]
  | cons b bs ih =>
    rw [putTile, ih]
    by_cases hq : q = k
    · subst hq
      simp
    · rw [tabGet_set_ne _ _ _ hq]
      by_cases hin : k + 1 ≤ q ∧ q < k + 1 + bs.length
      · have hin' : k ≤ q ∧ q < k + (b :: bs).length := by rw [List.length_cons]; omega
        rw [if_pos hin, if_pos hin', show q - k = (q - (k + 1)) + 1 by omega, List.getD_cons_succ]
      · have hout : ¬(k ≤ q ∧ q < k + (b :: bs).length) := by rw [List.length_cons]; omega
        rw [if_neg hin, if_neg hout]

/-- Within a tile an element's columns end before the row does. -/
theorem colsOf_le {w j : Nat} (h : j < colsOf w) : j * w + w ≤ 128 := by
  have hmul : (j + 1) * w ≤ 128 := (Nat.mul_le_mul_right w h).trans (Nat.div_mul_le_self 128 w)
  rwa [Nat.succ_mul] at hmul

/-- Different elements of the tile registers have no byte in common. -/
theorem tile_apart {w r i j r' i' j' : Nat} (hi : i < 32) (hi' : i' < 32) (hj : j < colsOf w) (hj' : j' < colsOf w)
    (hne : ¬(r = r' ∧ i = i' ∧ j = j')) :
    r * 4096 + i * 128 + j * w + w ≤ r' * 4096 + i' * 128 + j' * w ∨ r' * 4096 + i' * 128 + j' * w + w ≤ r * 4096 + i * 128 + j * w := by
  have hc := colsOf_le hj
  have hc' := colsOf_le hj'
  by_cases hrow : r = r' ∧ i = i'
  · obtain ⟨rfl, rfl⟩ := hrow
    rcases Nat.lt_or_gt_of_ne (fun h : j = j' => hne ⟨rfl, rfl, h⟩) with hlt | hgt
    · have := Nat.mul_le_mul_right w hlt
      rw [Nat.succ_mul] at this
      omega
    · have := Nat.mul_le_mul_right w hgt
      rw [Nat.succ_mul] at this
      omega
  · generalize j * w = x at hc ⊢
    generalize j' * w = x' at hc' ⊢
    omega

theorem Ew.el_setEl_same (e : Ew) (w r i j v : Nat) : (e.setEl w r i j v).el w r i j = v % 2 ^ (8 * w) := by
  have hbytes : ((List.range w).map fun b => tabGet tileZero (e.setEl w r i j v).tiles (r * 4096 + i * 128 + j * w + b)) = natLE w v := by
    refine List.ext_getElem (by simp) fun b hb hb' => ?_
    rw [natLE_length] at hb'
    rw [List.getElem_map, List.getElem_range, Ew.setEl, tabGet_putTile, natLE_length, if_pos (by omega), Nat.add_sub_cancel_left,
      List.getD_eq_getElem]
  rw [Ew.el, hbytes, leNat_natLE, pow_mul]
  rfl

theorem Ew.el_setEl_ne (e : Ew) {w r i j r' i' j' : Nat} (hi : i < 32) (hi' : i' < 32) (hj : j < colsOf w) (hj' : j' < colsOf w)
    (hne : ¬(r' = r ∧ i' = i ∧ j' = j)) (v : Nat) : (e.setEl w r i j v).el w r' i' j' = e.el w r' i' j' := by
  rw [Ew.el, Ew.el]
  refine congrArg leNat (List.map_congr_left fun b hb => ?_)
  rw [List.mem_range] at hb
  rw [Ew.setEl, tabGet_putTile, natLE_length, if_neg]
  have := tile_apart hi' hi hj' hj hne
  omega

/-- The engine's state but for its tile registers and its flags. -/
def Ew.Alike (e y : Ew) : Prop := y = { e with tiles := y.tiles, eflags := y.eflags }

theorem Ew.Alike.refl (e : Ew) : e.Alike e := rfl

theorem Ew.Alike.trans {e y z : Ew} (h : e.Alike y) (h' : y.Alike z) : e.Alike z := by
  unfold Ew.Alike at *
  rw [h', h]

theorem Ew.alike_setEl (e : Ew) (w r i j v : Nat) : e.Alike (e.setEl w r i j v) := rfl
theorem Ew.alike_raise (e : Ew) (fl : Flags) : e.Alike (e.raise fl) := rfl

theorem Ew.Alike.fields {e y : Ew} (h : e.Alike y) : y.owner = e.owner ∧ y.queue = e.queue ∧ y.rows = e.rows ∧ y.cols = e.cols ∧ y.slots = e.slots := by
  rw [h]
  exact ⟨rfl, rfl, rfl, rfl, rfl⟩

theorem Ew.alike_foldl {α : Type} {f : Ew → α → Ew} (h : ∀ (e : Ew) x, e.Alike (f e x)) (l : List α) (e : Ew) : e.Alike (l.foldl f e) := by
  induction l generalizing e with
  | nil => exact Ew.Alike.refl e
  | cons x l ih => exact (h e x).trans (ih _)

theorem Ew.alike_mapTile (e : Ew) (w d : Nat) (cells : List (Nat × Nat)) (f : Nat → Nat → Nat × Flags) : e.Alike (e.mapTile w d cells f) :=
  Ew.alike_foldl (fun e _ => (e.alike_setEl ..).trans (Ew.alike_raise ..)) cells e

theorem Ew.el_raise (e : Ew) (fl : Flags) (w r i j : Nat) : (e.raise fl).el w r i j = e.el w r i j := rfl

/-- A tile after the elements at the positions `cells` are written, each with a value of its position. -/
theorem Ew.el_foldl_set {α : Type} {w d : Nat} {p : α → Nat × Nat} {v : Nat → Nat → Nat} {g : Ew → α → Ew}
    (hg : ∀ e x r i j, (g e x).el w r i j = (e.setEl w d (p x).1 (p x).2 (v (p x).1 (p x).2)).el w r i j) {l : List α}
    (hl : ∀ x ∈ l, (p x).1 < 32 ∧ (p x).2 < colsOf w) (e : Ew) {r i j : Nat} (hi : i < 32) (hj : j < colsOf w) :
    (r = d → (i, j) ∈ l.map p → (l.foldl g e).el w r i j = v i j % 2 ^ (8 * w)) ∧
      (¬(r = d ∧ (i, j) ∈ l.map p) → (l.foldl g e).el w r i j = e.el w r i j) := by
  induction l generalizing e with
  | nil => simp
  | cons x l ih =>
    obtain ⟨hx, hl⟩ := List.forall_mem_cons.mp hl
    obtain ⟨ihin, ihout⟩ := ih hl (g e x)
    rw [List.foldl_cons, List.map_cons, List.mem_cons]
    have hother (hne : ¬(r = d ∧ (i, j) = p x)) : (g e x).el w r i j = e.el w r i j := by
      rw [hg, Ew.el_setEl_ne e hx.1 hi hx.2 hj fun h => hne ⟨h.1, Prod.ext h.2.1 h.2.2⟩]
    refine ⟨fun hr hmem => ?_, fun hno => ?_⟩
    · by_cases hrest : (i, j) ∈ l.map p
      · exact ihin hr hrest
      · have hp : (i, j) = p x := hmem.resolve_right hrest
        rw [ihout fun h => hrest h.2, hg, hr, ← hp, Ew.el_setEl_same]
    · rw [ihout fun h => hno ⟨h.1, .inr h.2⟩, hother fun h => hno ⟨h.1, .inl h.2⟩]

theorem Ew.el_mapTile {w d : Nat} {cells : List (Nat × Nat)} (hc : ∀ c ∈ cells, c.1 < 32 ∧ c.2 < colsOf w) (e : Ew)
    (f : Nat → Nat → Nat × Flags) {r i j : Nat} (hi : i < 32) (hj : j < colsOf w) :
    (r = d → (i, j) ∈ cells → (e.mapTile w d cells f).el w r i j = (f i j).1 % 2 ^ (8 * w)) ∧
      (¬(r = d ∧ (i, j) ∈ cells) → (e.mapTile w d cells f).el w r i j = e.el w r i j) := by
  have h := Ew.el_foldl_set (p := fun c : Nat × Nat => c) (v := fun i j => (f i j).1)
    (g := fun x c => (x.setEl w d c.1 c.2 (f c.1 c.2).1).raise (f c.1 c.2).2) (fun _ _ _ _ _ => rfl) hc e (r := r) hi hj
  rwa [List.map_id''] at h
  exact fun _ => rfl

theorem Ew.mem_cells {e : Ew} {w i j : Nat} : (i, j) ∈ e.cells w ↔ i < e.rows ∧ j < e.ext w := by
  simp [Ew.cells, List.mem_flatMap]

theorem Ew.cells_within {e : Ew} (h : e.rows ≤ 32) (w : Nat) : ∀ c ∈ e.cells w, c.1 < 32 ∧ c.2 < colsOf w := fun c hc => by
  obtain ⟨hi, hj⟩ := Ew.mem_cells.mp hc
  exact ⟨by omega, lt_of_lt_of_le hj (Nat.min_le_right ..)⟩

theorem mem_allCells {w i j : Nat} : (i, j) ∈ allCells w ↔ i < 32 ∧ j < colsOf w := by
  simp [allCells, List.mem_flatMap]

theorem Ew.cells_nodup (e : Ew) (w : Nat) : (e.cells w).Nodup := by
  refine List.nodup_flatMap.mpr ⟨fun i _ => List.nodup_range.map fun a b h => (Prod.mk.inj h).2, ?_⟩
  refine List.Pairwise.imp ?_ List.nodup_range
  intro a b hab c ha hb
  obtain ⟨_, _, rfl⟩ := List.mem_map.mp ha
  obtain ⟨_, _, h⟩ := List.mem_map.mp hb
  exact hab (Prod.mk.inj h).1.symm

/-! ### Element-wise instructions at issue (R126, R129, R131, R145) -/

@[simp] theorem State.ew_setEw_same (s : State) (c : Nat) (e : Ew) : (s.setEw c e).ew c = e := tabGet_set_same ..
@[simp] theorem State.ew_setCtx (s : State) (t : Tid) (x : Ctx) (c : Nat) : (s.setCtx t x).ew c = s.ew c := rfl
theorem State.ew_congr {u s : State} (h : u.eng = s.eng) (c : Nat) : u.ew c = s.ew c := by simp only [State.ew, h]
@[simp] theorem State.setEw_setEw (s : State) (c : Nat) (e e' : Ew) : (s.setEw c e).setEw c e' = s.setEw c e' := by
  simp only [State.setEw, tabSet_set]

/-- The engine as the thread that uses it holds it. -/
def Ew.ownedBy (e : Ew) (t : Tid) : Ew := { e with owner := some t }

/-- The engine once its `n` oldest queued instructions have completed. -/
def Ew.advanced (e : Ew) (n : Nat) : Ew := { e with queue := e.queue.drop n }

/-- What the engine's own progress leaves of the state. -/
theorem State.ewProgress_frame (s : State) (c l : Nat) : (s.ewProgress c l).regs = s.regs ∧ (∀ t, (s.ewProgress c l).ctx t = s.ctx t) ∧
    (s.ewProgress c l).dram = s.dram ∧ ∃ n, (s.ewProgress c l).ew c = (s.ew c).advanced n := by
  unfold State.ewProgress
  dsimp only
  split
  · exact ⟨rfl, fun _ => rfl, rfl, 0, rfl⟩
  · exact ⟨rfl, fun _ => rfl, rfl, _, State.ew_setEw_same ..⟩

theorem State.ewProgress_empty {s : State} {c : Nat} (h : (s.ew c).queue = []) (l : Nat) : s.ewProgress c l = s := by
  rw [State.ewProgress]
  exact if_pos (by rw [h]; rfl)

theorem Ew.advanced_need {e : Ew} (h : e.queue.length ≤ 7) (n : Nat) (slot : Option Nat) : (e.advanced n).need (.work slot) = 0 := by
  simp only [Ew.need, Ew.advanced, List.length_drop]
  omega

theorem Ew.need_empty {e : Ew} (h : e.queue = []) (u : EwUse) : e.need u = 0 := by
  cases u <;> simp [Ew.need, h]

/-- The engine of a thread is free for it: its tile registers, no deferred error, no split that waits. -/
structure State.EwFree (s : State) (t : Tid) : Prop where
  owner : (s.ew (ewCore t)).owner = none ∨ (s.ew (ewCore t)).owner = some t
  calm : (s.ew (ewCore t)).pending = false
  split : s.splitPending t.groveOf = false

section Insn
variable {s s1 s2 : State} {t : Tid} {tgt : Target} (h : s.Issues t profEngine tgt s1) {i : Instr} {use : EwUse} {async : Bool}
  {body : State → Ew → TRes}
include h

/-- An element-wise instruction that the gate lets through, once its place in the queue is there. -/
theorem State.Issues.ewInsn (ho : (s1.ew (ewCore t)).owner = none ∨ (s1.ew (ewCore t)).owner = some t)
    (hp : async = true → (s1.ew (ewCore t)).pending = true → (s1.ctx t).inAccess = true) (hsp : s1.splitPending t.groveOf = false) {p : State}
    (hprog : ∀ l, l = (if (s1.ctx t).instr.isSome then (s1.ew (ewCore t)).need use else 0) → s1.ewProgress (ewCore t) l = p)
    (hneed : (p.ew (ewCore t)).need use = 0)
    (hb : body (p.setEw (ewCore t) ((p.ew (ewCore t)).ownedBy t)) ((p.ew (ewCore t)).ownedBy t) = .done s2)
    (hc : (s2.ctx t).stopPending = false) :
    s.ewInsn t i use async body =
      (s2.setEw (ewCore t) ((s2.ew (ewCore t)).enqueue use)).setCtx t (s2.ctx t).retired := by
  rw [State.ewInsn]
  refine (h.done (s2 := s2.setEw (ewCore t) ((s2.ew (ewCore t)).enqueue use)) i ?_ ?_).trans (by rw [State.modCtx, State.ctx_setEw])
  · dsimp only
    have howner : ¬((s1.ew (ewCore t)).owner.isSome = true ∧ (s1.ew (ewCore t)).owner ≠ some t) := by
      rcases ho with ho | ho <;> simp [ho]
    have hpend : ¬(async = true ∧ (s1.ew (ewCore t)).pending = true ∧ (!(s1.ctx t).inAccess) = true) := by
      rintro ⟨ha, hpe, hin⟩
      simp [hp ha hpe] at hin
    rw [if_neg howner, if_neg (by simp [hsp]), if_neg hpend, hprog _ rfl, if_neg (by omega)]
    dsimp only [Ew.ownedBy] at hb
    rw [hb]
  · rw [State.ctx_setEw]
    exact hc

/-- An instruction that needs an empty queue, or a place in it, and finds it empty. -/
theorem State.Issues.ewInsn_empty (ho : (s1.ew (ewCore t)).owner = none ∨ (s1.ew (ewCore t)).owner = some t)
    (hp : async = true → (s1.ew (ewCore t)).pending = true → (s1.ctx t).inAccess = true) (hsp : s1.splitPending t.groveOf = false)
    (hq : (s1.ew (ewCore t)).queue = [])
    (hb : body (s1.setEw (ewCore t) ((s1.ew (ewCore t)).ownedBy t)) ((s1.ew (ewCore t)).ownedBy t) = .done s2)
    (hc : (s2.ctx t).stopPending = false) :
    s.ewInsn t i use async body =
      (s2.setEw (ewCore t) ((s2.ew (ewCore t)).enqueue use)).setCtx t (s2.ctx t).retired :=
  h.ewInsn ho hp hsp (fun l _ => State.ewProgress_empty hq l) (Ew.need_empty hq use) hb hc

end Insn

theorem State.readTile_off {s : State} {t : Tid} (h : s.injArmed (0x100 + t.groveOf) 2 = false) (r : Nat) : s.readTile t r = s := by
  rw [State.readTile, h]
  exact if_neg (by simp)

theorem State.readTiles_off {s : State} {t : Tid} (h : s.injArmed (0x100 + t.groveOf) 2 = false) (l : List Nat) :
    l.foldl (fun x r => x.readTile t r) s = s := by
  induction l with
  | nil => rfl
  | cons r l ih => rw [List.foldl_cons, State.readTile_off h, ih]

theorem State.ewDone_off {s : State} {t : Tid} (h : s.injArmed (0x100 + t.groveOf) 2 = false) (l : List Nat) (f : Ew → Ew) :
    s.ewDone t l f = .done (s.setEw (ewCore t) (f (s.ew (ewCore t)))) := by
  rw [State.ewDone, State.readTiles_off h]

theorem State.injArmed_congr {u s : State} (h : u.regs = s.regs) (p k : Nat) : u.injArmed p k = s.injArmed p k := by
  rw [State.injArmed, State.injArmed, State.flag_congr h, State.fld_congr h]

/-- An instruction that works at issue and keeps its place: `body` computes `f` of the engine's state, from a state whose context is `c`. -/
theorem State.Issues.ewWork {s s1 : State} {t : Tid} {tgt : Target} (h : s.Issues t profEngine tgt s1) (hf : s1.EwFree t)
    (hinj : s1.injArmed (0x100 + t.groveOf) 2 = false) (hq : (s1.ew (ewCore t)).queue.length ≤ 7) {i : Instr} {slot : Option Nat}
    {body : State → Ew → TRes} {c : Ctx} (hc : c.stopPending = false) {F : (Ew → Ew) → Prop}
    (hb : ∀ x : State, x.regs = s1.regs → x.ctx t = s1.ctx t → ∃ (y : State) (l : List Nat) (f : Ew → Ew), F f ∧ y.regs = s1.regs ∧ y.ctx t = c ∧
      y.ew (ewCore t) = x.ew (ewCore t) ∧ body x (x.ew (ewCore t)) = y.ewDone t l f) :
    ∃ (n : Nat) (f : Ew → Ew), F f ∧ (s.ewInsn t i (.work slot) true body).ctx t = c.retired ∧
      (s.ewInsn t i (.work slot) true body).ew (ewCore t) =
        (f (((s1.ew (ewCore t)).advanced n).ownedBy t)).enqueue (.work slot) := by
  obtain ⟨hregs, hctx, -, n, hew⟩ := s1.ewProgress_frame (ewCore t) (if (s1.ctx t).instr.isSome then (s1.ew (ewCore t)).need (.work slot) else 0)
  generalize hprog : s1.ewProgress (ewCore t) _ = p at hregs hctx hew
  obtain ⟨y, l, f, hF, hyr, hyc, hye, hbody⟩ := hb (p.setEw (ewCore t) ((p.ew (ewCore t)).ownedBy t))
    ((State.setEw_regs ..).trans hregs) ((State.ctx_setEw ..).trans (hctx t))
  have hins := h.ewInsn (i := i) (use := .work slot) (async := true) (body := body) hf.owner (fun _ hpe => by rw [hf.calm] at hpe; cases hpe)
    hf.split (p := p) (fun l hl => by rw [hl]; exact hprog) (by rw [hew]; exact Ew.advanced_need hq n slot)
    (by rw [State.ew_setEw_same] at hbody; exact hbody.trans (State.ewDone_off ((State.injArmed_congr hyr ..).trans hinj) l f))
    (by rw [State.ctx_setEw, hyc]; exact hc)
  refine ⟨n, f, hF, ?_, ?_⟩
  · rw [hins, State.ctx_setCtx_same, State.ctx_setEw, hyc]
  · rw [hins, State.ew_setCtx, State.ew_setEw_same, State.ew_setEw_same, hye, State.ew_setEw_same, hew]

/-! ### Tile arithmetic (R134, R135, R139 to R141) -/

/-- The engine `y` after an instruction of `t` that fills the elements `P` of register `d` by `f`, its place kept at the queue's end. -/
def Ew.Filled (e y : Ew) (t : Tid) (w d : Nat) (P : Nat → Nat → Prop) (f : Nat → Nat → Nat) : Prop :=
  y.owner = some t ∧ (∃ (n : Nat) (slot : Option Nat), y.queue = e.queue.drop n ++ [slot]) ∧ y.rows = e.rows ∧ y.cols = e.cols ∧
    ∀ r i j, r < 16 → i < 32 → j < colsOf w →
      (r = d → P i j → y.el w r i j = f i j % 2 ^ (8 * w)) ∧ (¬(r = d ∧ P i j) → y.el w r i j = e.el w r i j)

section Filled
variable {e y : Ew} {t : Tid} {w d n : Nat} {slot : Option Nat}

theorem Ew.Filled.of_alike (hy : ((e.advanced n).ownedBy t).Alike y) {P : Nat → Nat → Prop} {f : Nat → Nat → Nat}
    (hel : ∀ r i j, i < 32 → j < colsOf w →
      (r = d → P i j → y.el w r i j = f i j % 2 ^ (8 * w)) ∧ (¬(r = d ∧ P i j) → y.el w r i j = e.el w r i j)) :
    e.Filled (y.enqueue (.work slot)) t w d P f := by
  obtain ⟨howner, hqueue, hrows, hcols, -⟩ := hy.fields
  exact ⟨howner, ⟨n, slot, congrArg (· ++ [slot]) hqueue⟩, hrows, hcols, fun r i j _ hi hj => hel r i j hi hj⟩

theorem Ew.filled_mapTile {cells : List (Nat × Nat)} (hc : ∀ c ∈ cells, c.1 < 32 ∧ c.2 < colsOf w) {P : Nat → Nat → Prop}
    (hP : ∀ i j, i < 32 → j < colsOf w → (P i j ↔ (i, j) ∈ cells)) (f : Nat → Nat → Nat × Flags) :
    e.Filled ((((e.advanced n).ownedBy t).mapTile w d cells f).enqueue (.work slot)) t w d P fun i j => (f i j).1 := by
  refine Ew.Filled.of_alike (Ew.alike_mapTile ..) fun r i j hi hj => ?_
  rw [hP i j hi hj]
  exact Ew.el_mapTile hc _ f hi hj

theorem Ew.filled_cells (h : e.rows ≤ 32) (f : Nat → Nat → Nat × Flags) :
    e.Filled ((((e.advanced n).ownedBy t).mapTile w d (e.cells w) f).enqueue (.work slot)) t w d (fun i j => i < e.rows ∧ j < e.ext w)
      fun i j => (f i j).1 :=
  Ew.filled_mapTile (Ew.cells_within h w) (fun _ _ _ _ => Ew.mem_cells.symm) f

theorem Ew.reduce_rows (e : Ew) (x : EFmt) (op d a : Nat) : e.reduce x 0 op d a =
    e.mapTile x.w d ((List.range e.rows).map fun i => (i, 0)) fun i _ => x.axis op ((List.range (colsOf x.w)).map fun j =>
      if i < e.rows ∧ j < e.ext x.w then some (e.el x.w a i j) else none) := rfl

theorem Ew.reduce_cols (e : Ew) (x : EFmt) (op d a : Nat) : e.reduce x 1 op d a =
    e.mapTile x.w d ((List.range (e.ext x.w)).map fun j => (0, j)) fun _ j => x.axis op ((List.range 32).map fun i =>
      if i < e.rows ∧ j < e.ext x.w then some (e.el x.w a i j) else none) := rfl

theorem Ew.filled_reduce_rows (h : e.rows ≤ 32) {x : EFmt} (hx : 0 < colsOf x.w) (op a : Nat) :
    e.Filled ((((e.advanced n).ownedBy t).reduce x 0 op d a).enqueue (.work slot)) t x.w d (fun i j => i < e.rows ∧ j = 0)
      fun i _ => (x.axis op ((List.range (colsOf x.w)).map fun j =>
        if i < e.rows ∧ j < e.ext x.w then some (e.el x.w a i j) else none)).1 := by
  rw [Ew.reduce_rows]
  refine Ew.filled_mapTile (P := fun i j => i < e.rows ∧ j = 0) (fun c hc => ?_) (fun i j _ _ => ?_) _
  · obtain ⟨i, hi, rfl⟩ := List.mem_map.mp hc
    exact ⟨(List.mem_range.mp hi).trans_le h, hx⟩
  · simp only [List.mem_map, List.mem_range, Prod.mk.injEq]
    exact ⟨fun ⟨hi, hj⟩ => ⟨i, hi, rfl, hj.symm⟩, fun ⟨_, hi, he, hj⟩ => ⟨he ▸ hi, hj.symm⟩⟩

theorem Ew.filled_reduce_cols {x : EFmt} (op a : Nat) :
    e.Filled ((((e.advanced n).ownedBy t).reduce x 1 op d a).enqueue (.work slot)) t x.w d (fun i j => i = 0 ∧ j < e.ext x.w)
      fun _ j => (x.axis op ((List.range 32).map fun i => if i < e.rows ∧ j < e.ext x.w then some (e.el x.w a i j) else none)).1 := by
  rw [Ew.reduce_cols]
  refine Ew.filled_mapTile (P := fun i j => i = 0 ∧ j < e.ext x.w) (fun c hc => ?_) (fun i j _ _ => ?_) _
  · obtain ⟨j, hj, rfl⟩ := List.mem_map.mp hc
    exact ⟨by omega, (List.mem_range.mp hj).trans_le (Nat.min_le_right ..)⟩
  · simp only [List.mem_map, List.mem_range, Prod.mk.injEq]
    exact ⟨fun ⟨hi, hj⟩ => ⟨j, hj, hi.symm, rfl⟩, fun ⟨_, hj, hi, he⟩ => ⟨hi.symm, he ▸ hj⟩⟩

theorem Ew.filled_compress (a m : Nat) :
    e.Filled ((((e.advanced n).ownedBy t).compress w d a m).enqueue (.work slot)) t w d (fun _ _ => True)
      fun i j => ((e.active w m).map fun p => e.el w a p.1 p.2).getD (i * colsOf w + j) 0 :=
  Ew.filled_mapTile (P := fun _ _ => True) (fun _ hc => mem_allCells.mp hc) (fun _ _ hi hj => by simp [mem_allCells, hi, hj]) _

theorem Ew.active_within (h : e.rows ≤ 32) (m : Nat) : ∀ c ∈ e.active w m, c.1 < 32 ∧ c.2 < colsOf w := fun c hc =>
  Ew.cells_within h w c (List.mem_of_mem_filter hc)

/-- EXPD writes each active position with the element of its place among them. -/
theorem Ew.filled_expand (h : e.rows ≤ 32) (a m : Nat) :
    e.Filled ((((e.advanced n).ownedBy t).expand w d a m).enqueue (.work slot)) t w d (fun i j => (i, j) ∈ e.active w m)
      fun i j => e.el w a ((e.active w m).idxOf (i, j) / colsOf w) ((e.active w m).idxOf (i, j) % colsOf w) := by
  have hnodup : (e.active w m).Nodup := (e.cells_nodup w).filter _
  have hmap : (List.range (e.active w m).length).map (fun k => (e.active w m).getD k (0, 0)) = e.active w m := by
    refine List.ext_getElem (by simp) fun k hk hk' => ?_
    rw [List.getElem_map, List.getElem_range, List.getD_eq_getElem]
  have halike : ((e.advanced n).ownedBy t).Alike (((e.advanced n).ownedBy t).expand w d a m) :=
    Ew.alike_foldl (fun e _ => e.alike_setEl ..) _ _
  refine Ew.Filled.of_alike halike fun r i j hi hj => ?_
  have hset := Ew.el_foldl_set (w := w) (d := d) (p := fun k => (e.active w m).getD k (0, 0))
    (v := fun i j => e.el w a ((e.active w m).idxOf (i, j) / colsOf w) ((e.active w m).idxOf (i, j) % colsOf w))
    (g := fun y k => let c := (e.active w m).getD k (0, 0)
      y.setEl w d c.1 c.2 (e.el w a ((e.active w m).idxOf c / colsOf w) ((e.active w m).idxOf c % colsOf w)))
    (fun _ _ _ _ _ => rfl) (l := List.range (e.active w m).length) (fun k hk => ?_) ((e.advanced n).ownedBy t) (r := r) hi hj
  · rw [hmap] at hset
    have hfold : ((e.advanced n).ownedBy t).expand w d a m = (List.range (e.active w m).length).foldl
        (fun y k => let c := (e.active w m).getD k (0, 0)
          y.setEl w d c.1 c.2 (e.el w a ((e.active w m).idxOf c / colsOf w) ((e.active w m).idxOf c % colsOf w)))
        ((e.advanced n).ownedBy t) := by
      refine List.foldl_ext _ _ _ fun y k hk => ?_
      have hk : k < (e.active w m).length := List.mem_range.mp hk
      have hidx : (e.active w m).idxOf ((e.active w m).getD k (0, 0)) = k := by
        rw [List.getD_eq_getElem _ _ hk]
        exact hnodup.idxOf_getElem k hk
      dsimp only
      rw [hidx]
      rfl
    rw [hfold]
    exact hset
  · rw [List.mem_range] at hk
    refine Ew.active_within h m _ ?_
    rw [List.getD_eq_getElem _ _ hk]
    exact List.getElem_mem hk

end Filled

theorem ewFmt_cols {fmt : Nat} {x : EFmt} (h : ewFmt fmt = some x) : 0 < colsOf x.w := by
  unfold ewFmt at h
  split at h <;> first | (cases h; decide) | cases h

section Arithmetic
variable {s s1 : State} {t : Tid} {tgt : Target} (h : s.Issues t profEngine tgt s1) (hf : s1.EwFree t)
  (hinj : s1.injArmed (0x100 + t.groveOf) 2 = false) (hq : (s1.ew (ewCore t)).queue.length ≤ 7)
include h hf hinj hq

/-- An instruction that works at issue and reads the context only. -/
theorem State.Issues.ewDone {i : Instr} {slot : Option Nat} {body : State → Ew → TRes} {l : List Nat} {f : Ew → Ew}
    (hb : ∀ (x : State) (e : Ew), x.ctx t = s1.ctx t → body x e = x.ewDone t l f) :
    ∃ n, (s.ewInsn t i (.work slot) true body).ctx t = (s1.ctx t).retired ∧
      (s.ewInsn t i (.work slot) true body).ew (ewCore t) =
        (f (((s1.ew (ewCore t)).advanced n).ownedBy t)).enqueue (.work slot) := by
  obtain ⟨n, f', rfl, hc, he⟩ := h.ewWork hf hinj hq h.unstopped (F := (· = f)) (i := i) (slot := slot) (body := body)
    fun x hr hx => ⟨x, l, f, rfl, hr, hx, rfl, hb x _ hx⟩
  exact ⟨n, hc, he⟩

variable {fmt rm : Fin 8} {x : EFmt} {d a b : Reg} (hx : ewFmt fmt = some x) (hd : d.val < 16) (ha : a.val < 16)
include hx ha

theorem State.Issues.esum {kind : Fin 8} (hslot : d.val ≤ 7) (hk : kind.val ≤ 5) : ∃ (u : State) (n : Nat),
    exec (.esum t kind fmt d a) s = .next u ∧ u.ctx t = (s1.ctx t).retired ∧ u.ew (ewCore t) =
      ({ ((((s1.ew (ewCore t)).advanced n).ownedBy t).raise ((s1.ew (ewCore t)).summary x kind a).2) with
        slots := tabSet slotZero (s1.ew (ewCore t)).slots d (BitVec.ofNat 64 ((s1.ew (ewCore t)).summary x kind a).1) } : Ew).enqueue
          (.work (some d)) := by
  have hd' : tileOk a = true := decide_eq_true ha
  obtain ⟨n, hc, he⟩ := h.ewDone hf hinj hq (i := .esum t kind fmt d a) (slot := some d) (l := [a.val])
    (f := fun e => { e.raise (e.summary x kind a).2 with slots := tabSet slotZero e.slots d (BitVec.ofNat 64 (e.summary x kind a).1) })
    (body := fun s1 _ => match ewFmt fmt with
      | none => illegal s1
      | some x => if 7 < d.val ∨ !tileOk a ∨ 5 < kind.val then illegal s1
        else s1.ewDone t [a.val] fun e =>
          { (e.raise (e.summary x kind a).2) with slots := tabSet slotZero e.slots d (BitVec.ofNat 64 (e.summary x kind a).1) })
    fun y e _ => by
      rw [hx]
      exact if_neg (by simp [hd', hslot, hk])
  exact ⟨_, n, rfl, hc, he⟩

include hd

theorem State.Issues.ered (axis : Fin 2) {op : Fin 8} (hop : op.val ≠ 7) (hfp : x.fp.isSome = true → op.val < 4) : ∃ (u : State) (n : Nat),
    exec (.ered t axis op fmt d a) s = .next u ∧ u.ctx t = (s1.ctx t).retired ∧
      u.ew (ewCore t) = ((((s1.ew (ewCore t)).advanced n).ownedBy t).reduce x axis op d a).enqueue (.work none) := by
  have hbad : (!tileOk d || !tileOk a || op.val == 7 || (x.fp.isSome && decide (4 ≤ op.val))) = false := by
    have : (x.fp.isSome && decide (4 ≤ op.val)) = false := by
      cases hs : x.fp.isSome
      · rfl
      · simpa using hfp hs
    simp [tileOk, hd, ha, hop, this]
  obtain ⟨n, hc, he⟩ := h.ewDone hf hinj hq (i := .ered t axis op fmt d a) (slot := none) (l := [a.val])
    (f := fun e => e.reduce x axis op d a)
    (body := fun s1 _ => match ewFmt fmt with
      | none => illegal s1
      | some x => if !tileOk d || !tileOk a || op.val == 7 || (x.fp.isSome && decide (4 ≤ op.val)) then illegal s1
        else s1.ewDone t [a.val] fun e => e.reduce x axis op d a)
    fun y e _ => by
      rw [hx]
      exact if_neg (by rw [hbad]; exact Bool.false_ne_true)
  exact ⟨_, n, rfl, hc, he⟩

variable (hb : b.val < 16)
include hb

theorem State.Issues.eFunc {func : Fin 32} (hall : x.allows func = true) (hm : (s1.ctx t).effRm rm ≤ 4) : ∃ (u : State) (n : Nat),
    exec (.eFunc t func rm fmt d a b) s = .next u ∧ u.ctx t = (s1.ctx t).retired ∧
      u.ew (ewCore t) = ((((s1.ew (ewCore t)).advanced n).ownedBy t).mapTile x.w d ((s1.ew (ewCore t)).cells x.w) fun i j =>
        x.fn func ((s1.ctx t).effRm rm) ((s1.ew (ewCore t)).el x.w a i j) ((s1.ew (ewCore t)).el x.w b i j)
          ((s1.ew (ewCore t)).el x.w d i j)).enqueue (.work none) := by
  have hbad : (!tileOk d || !tileOk a || !tileOk b || !x.allows func || decide (4 < (s1.ctx t).effRm rm)) = false := by
    simp [tileOk, hd, ha, hb, hall, hm]
  obtain ⟨n, hc, he⟩ := h.ewDone hf hinj hq (i := .eFunc t func rm fmt d a b) (slot := none)
    (l := [a.val] ++ (if unaryFn func then [] else [b.val]) ++ if ternaryFn func then [d.val] else [])
    (f := fun e => e.mapTile x.w d (e.cells x.w) fun i j =>
      x.fn func ((s1.ctx t).effRm rm) (e.el x.w a i j) (e.el x.w b i j) (e.el x.w d i j))
    (body := fun s1 _ =>
      let m := (s1.ctx t).effRm rm
      match ewFmt fmt with
      | none => illegal s1
      | some x =>
        if !tileOk d || !tileOk a || !tileOk b || !x.allows func || decide (4 < m) then illegal s1
        else s1.ewDone t ([a.val] ++ (if unaryFn func then [] else [b.val]) ++ if ternaryFn func then [d.val] else []) fun e =>
          e.mapTile x.w d (e.cells x.w) fun i j => x.fn func m (e.el x.w a i j) (e.el x.w b i j) (e.el x.w d i j))
    fun y e hy => by
      dsimp only
      rw [hx, hy]
      exact if_neg (by rw [hbad]; exact Bool.false_ne_true)
  exact ⟨_, n, rfl, hc, he⟩

theorem State.Issues.ecmp {pred : Fin 32} (hp : predOk pred = true) : ∃ (u : State) (n : Nat),
    exec (.ecmp t pred fmt d a b) s = .next u ∧ u.ctx t = (s1.ctx t).retired ∧
      u.ew (ewCore t) = ((((s1.ew (ewCore t)).advanced n).ownedBy t).mapTile x.w d ((s1.ew (ewCore t)).cells x.w) fun i j =>
        x.mask pred ((s1.ew (ewCore t)).el x.w a i j) ((s1.ew (ewCore t)).el x.w b i j)).enqueue (.work none) := by
  have hbad : (!tileOk d || !tileOk a || !tileOk b || !predOk pred) = false := by simp [tileOk, hd, ha, hb, hp]
  obtain ⟨n, hc, he⟩ := h.ewDone hf hinj hq (i := .ecmp t pred fmt d a b) (slot := none) (l := [a.val, b.val])
    (f := fun e => e.mapTile x.w d (e.cells x.w) fun i j => x.mask pred (e.el x.w a i j) (e.el x.w b i j))
    (body := fun s1 _ => match ewFmt fmt with
      | none => illegal s1
      | some x => if !tileOk d || !tileOk a || !tileOk b || !predOk pred then illegal s1
        else s1.ewDone t [a.val, b.val] fun e =>
          e.mapTile x.w d (e.cells x.w) fun i j => x.mask pred (e.el x.w a i j) (e.el x.w b i j))
    fun y e _ => by
      rw [hx]
      exact if_neg (by rw [hbad]; exact Bool.false_ne_true)
  exact ⟨_, n, rfl, hc, he⟩

/-- ECPR and EXPD. -/
theorem State.Issues.packInsn (i : Instr) (f : Ew → Nat → Nat → Nat → Nat → Ew) : ∃ n,
    (s.packInsn t i fmt d a b f).ctx t = (s1.ctx t).retired ∧
      (s.packInsn t i fmt d a b f).ew (ewCore t) = (f (((s1.ew (ewCore t)).advanced n).ownedBy t) x.w d a b).enqueue (.work none) := by
  have hbad : (!tileOk d || !tileOk a || !tileOk b) = false := by simp [tileOk, hd, ha, hb]
  exact h.ewDone hf hinj hq (i := i) (slot := none) (l := [a.val, b.val]) (f := fun e => f e x.w d a b)
    (body := fun s1 _ => match ewFmt fmt with
      | none => illegal s1
      | some x => if !tileOk d || !tileOk a || !tileOk b then illegal s1 else s1.ewDone t [a.val, b.val] fun e => f e x.w d a b)
    fun y e _ => by
      rw [hx]
      exact if_neg (by rw [hbad]; exact Bool.false_ne_true)

end Arithmetic

/-- Settles O22: what each instruction computes of the engine's state, at each element. -/
theorem elementWiseArithmeticRetires : Obligations.ElementWiseArithmeticRetires := by
  unfold Obligations.ElementWiseArithmeticRetires
  intro s s1 t tgt fmt rm x d a b h c e m ho hp hsp hinj hq hrows hx hd ha hb C at_ fills inside
  have hfree : s1.EwFree t := ⟨ho, hp, hsp⟩
  refine ⟨fun func hall hm => ?_, fun pred hpred => ?_, fun op hop hfp => ⟨?_, ?_⟩, ?_, ?_, fun kind hslot hk => ?_⟩
  · obtain ⟨u, n, hu, hc, he⟩ := h.eFunc hfree hinj hq hx hd ha hb hall hm
    refine Completes.of hu ⟨hc, ?_⟩
    rw [he]
    exact Ew.filled_cells hrows _
  · obtain ⟨u, n, hu, hc, he⟩ := h.ecmp hfree hinj hq hx hd ha hb hpred
    refine Completes.of hu ⟨hc, ?_⟩
    rw [he]
    exact Ew.filled_cells hrows _
  · obtain ⟨u, n, hu, hc, he⟩ := h.ered hfree hinj hq hx hd ha 0 hop hfp
    refine Completes.of hu ⟨hc, ?_⟩
    rw [he]
    exact Ew.filled_reduce_rows hrows (ewFmt_cols hx) op a
  · obtain ⟨u, n, hu, hc, he⟩ := h.ered hfree hinj hq hx hd ha 1 hop hfp
    refine Completes.of hu ⟨hc, ?_⟩
    rw [he]
    exact Ew.filled_reduce_cols op a
  · obtain ⟨n, hc, he⟩ := h.packInsn hfree hinj hq hx hd ha hb (.ecpr t fmt d a b) Ew.compress
    refine Completes.of (u := s.packInsn t (.ecpr t fmt d a b) fmt d a b Ew.compress) rfl ⟨hc, ?_⟩
    rw [he]
    exact Ew.filled_compress a b
  · obtain ⟨n, hc, he⟩ := h.packInsn hfree hinj hq hx hd ha hb (.expd t fmt d a b) Ew.expand
    refine Completes.of (u := s.packInsn t (.expd t fmt d a b) fmt d a b Ew.expand) rfl ⟨hc, ?_⟩
    rw [he]
    exact Ew.filled_expand hrows a b
  · obtain ⟨u, n, hu, hc, he⟩ := h.esum hfree hinj hq hx ha hslot hk
    refine Completes.of hu ⟨⟨hc, ?_⟩, ?_, fun j hj => ?_⟩
    · rw [he]
      exact ⟨rfl, ⟨n, some d, rfl⟩, rfl, rfl, fun r i j _ _ _ => ⟨fun _ hF => hF.elim, fun _ => rfl⟩⟩
    · rw [he]
      exact tabGet_set_same ..
    · rw [he]
      exact tabGet_set_ne _ _ _ hj

/-! ### Tile memory accesses (R64, R131, R132, R142, R143) -/

theorem State.ctx_dropGot (s : State) (u : RUse) (t : Tid) : (s.dropGot u).ctx t = s.ctx t := by
  obtain ⟨hthr, -⟩ := s.dropGot_frame u
  exact State.ctx_congr hthr t

theorem State.ew_dropGot (s : State) (u : RUse) (c : Nat) : (s.dropGot u).ew c = s.ew c := by
  obtain ⟨-, -, he, -⟩ := s.dropGot_frame u
  exact State.ew_congr he c

section Loop
variable {t : Tid} {c : Ctx} {w : Nat} {far : Bool} {d : Nat} {els : List GElem} {place : Nat → Nat × Nat} {st : Nat → State}
  {bs : Nat → List Byte}

/-- The loads of a tile access, all performed: `st k` is the state before the `k`-th, `bs k` its bytes. -/
def TileLoads (t : Tid) (c : Ctx) (w : Nat) (far : Bool) (d : Nat) (els : List GElem) (place : Nat → Nat × Nat) (st : Nat → State)
    (bs : Nat → List Byte) : Prop :=
  ∀ k g, els[k]? = some g →
    (g.num < c.gsIdx.toNat → st (k + 1) = st k) ∧
    (c.gsIdx.toNat ≤ g.num → ∃ u, (st k).tileRead t far w g.va w = (.ok (bs k), u) ∧ u.ctx t = (st k).ctx t ∧
      u.ew (ewCore t) = (st k).ew (ewCore t) ∧
      st (k + 1) = (u.putTileEl t w d (place g.num).1 (place g.num).2 (leNat (bs k))).dropGot (.read t))

/-- The stores of a tile access, all performed, from the engine's state `e`. -/
def TileStores (t : Tid) (c : Ctx) (e : Ew) (w : Nat) (far : Bool) (d : Nat) (els : List GElem) (place : Nat → Nat × Nat)
    (st : Nat → State) (bs : Nat → List Byte) : Prop :=
  ∀ k g, els[k]? = some g →
    (g.num < c.gsIdx.toNat → st (k + 1) = st k) ∧
    (c.gsIdx.toNat ≤ g.num →
      (st k).tileWrite t far w g.va (e.el w d (place g.num).1 (place g.num).2) = (.ok (bs k), st (k + 1)) ∧
        (st (k + 1)).ctx t = (st k).ctx t ∧ (st (k + 1)).ew (ewCore t) = (st k).ew (ewCore t))

section Loads
variable (h : TileLoads t c w far d els place st bs)
include h

/-- One step of the loop: skipped, or an element put in its place. -/
theorem TileLoads.step {k : Nat} {g : GElem} (hg : els[k]? = some g) : (st (k + 1)).ctx t = (st k).ctx t ∧
    (st (k + 1)).ew (ewCore t) = if g.num < c.gsIdx.toNat then (st k).ew (ewCore t)
      else ((st k).ew (ewCore t)).setEl w d (place g.num).1 (place g.num).2 (leNat (bs k)) := by
  obtain ⟨hskip, htake⟩ := h k g hg
  by_cases hlt : g.num < c.gsIdx.toNat
  · rw [if_pos hlt, hskip hlt]
    exact ⟨rfl, rfl⟩
  · obtain ⟨u, -, hctx, hew, hst⟩ := htake (Nat.le_of_not_lt hlt)
    rw [if_neg hlt, hst, State.ctx_dropGot, State.ew_dropGot, State.putTileEl, State.ctx_setEw, State.ew_setEw_same, hctx, hew]
    exact ⟨rfl, rfl⟩

theorem TileLoads.ctx (hc : (st 0).ctx t = c) : ∀ n, n ≤ els.length → (st n).ctx t = c
  | 0, _ => hc
  | n + 1, hn => by
    have hget : els[n]? = some els[n] := List.getElem?_eq_getElem hn
    rw [(h.step hget).1]
    exact TileLoads.ctx hc n (by omega)

theorem TileLoads.alike (n : Nat) (hn : n ≤ els.length) : ((st 0).ew (ewCore t)).Alike ((st n).ew (ewCore t)) := by
  induction n with
  | zero => exact Ew.Alike.refl _
  | succ n ih =>
    have hget : els[n]? = some els[n] := List.getElem?_eq_getElem hn
    refine (ih (by omega)).trans ?_
    rw [(h.step hget).2]
    split
    · exact Ew.Alike.refl _
    · exact Ew.alike_setEl ..

theorem TileLoads.run (hc : (st 0).ctx t = c) :
    (st 0).tileLoad t far w (fun x g b => x.putTileEl t w d (place g.num).1 (place g.num).2 (leNat b)) els =
      .done ((st els.length).gsDone t) := by
  refine State.gatherGo_done els st fun k g hg => ?_
  obtain ⟨hlt, rfl⟩ := List.getElem?_eq_some_iff.mp hg
  rw [h.ctx hc k hlt.le]
  obtain ⟨hskip, htake⟩ := h k _ hg
  refine ⟨hskip, fun hle => ?_⟩
  obtain ⟨u, hrd, -, -, hst⟩ := htake hle
  exact ⟨bs k, u, hrd, hst⟩

/-- The tile registers after the first `n` elements, which lie at different places. -/
theorem TileLoads.el (hin : ∀ g ∈ els, (place g.num).1 < 32 ∧ (place g.num).2 < colsOf w) (hnd : (els.map fun g => place g.num).Nodup)
    (n : Nat) (hn : n ≤ els.length) :
    (∀ k g, k < n → els[k]? = some g → c.gsIdx.toNat ≤ g.num →
      ((st n).ew (ewCore t)).el w d (place g.num).1 (place g.num).2 = leNat (bs k) % 2 ^ (8 * w)) ∧
    (∀ r i j, i < 32 → j < colsOf w → ¬(r = d ∧ ∃ g ∈ els, c.gsIdx.toNat ≤ g.num ∧ place g.num = (i, j)) →
      ((st n).ew (ewCore t)).el w r i j = ((st 0).ew (ewCore t)).el w r i j) := by
  induction n with
  | zero => exact ⟨fun k g hk => absurd hk (Nat.not_lt_zero k), fun _ _ _ _ _ _ => rfl⟩
  | succ n ih =>
    obtain ⟨ihin, ihout⟩ := ih (by omega)
    have hget : els[n]? = some els[n] := List.getElem?_eq_getElem hn
    have hmem : els[n] ∈ els := List.getElem_mem hn
    rw [(h.step hget).2]
    refine ⟨fun k g hk hg hle => ?_, fun r i j hi hj hno => ?_⟩
    · rcases Nat.lt_succ_iff_lt_or_eq.mp hk with hk | rfl
      · split
        · exact ihin k g hk hg hle
        · obtain ⟨hklt, rfl⟩ := List.getElem?_eq_some_iff.mp hg
          obtain ⟨hi, hj⟩ := hin _ (List.getElem_mem hklt)
          obtain ⟨hi', hj'⟩ := hin _ hmem
          rw [Ew.el_setEl_ne _ hi' hi hj' hj]
          · exact ihin k _ hk hg hle
          · rintro ⟨-, h1, h2⟩
            have hk' : k < (els.map fun g => place g.num).length := by rw [List.length_map]; omega
            have hn' : n < (els.map fun g => place g.num).length := by rw [List.length_map]; omega
            have heq : (els.map fun g => place g.num)[k] = (els.map fun g => place g.num)[n] := by
              rw [List.getElem_map, List.getElem_map]
              exact Prod.ext h1 h2
            exact absurd ((hnd.getElem_inj_iff).mp heq) (by omega)
      · rw [hget, Option.some_inj] at hg
        subst hg
        rw [if_neg (by omega), Ew.el_setEl_same]
    · split
      · exact ihout r i j hi hj hno
      · next hle =>
        obtain ⟨hi', hj'⟩ := hin _ hmem
        rw [Ew.el_setEl_ne _ hi' hi hj' hj, ihout r i j hi hj hno]
        rintro ⟨rfl, rfl, rfl⟩
        exact hno ⟨rfl, _, hmem, by omega, rfl⟩

end Loads

section Stores
variable {e : Ew} (h : TileStores t c e w far d els place st bs)
include h

theorem TileStores.kept {n : Nat} (hn : n ≤ els.length) : (st n).ctx t = (st 0).ctx t ∧ (st n).ew (ewCore t) = (st 0).ew (ewCore t) := by
  induction n with
  | zero => exact ⟨rfl, rfl⟩
  | succ n ih =>
    obtain ⟨ihc, ihe⟩ := ih (by omega)
    obtain ⟨hskip, htake⟩ := h n _ (List.getElem?_eq_getElem hn)
    by_cases hlt : els[n].num < c.gsIdx.toNat
    · rw [hskip hlt]
      exact ⟨ihc, ihe⟩
    · obtain ⟨-, hctx, hew⟩ := htake (Nat.le_of_not_lt hlt)
      exact ⟨hctx.trans ihc, hew.trans ihe⟩

theorem TileStores.run (hc : (st 0).ctx t = c) (he : ∀ i j, ((st 0).ew (ewCore t)).el w d i j = e.el w d i j) :
    (st 0).tileStore t far w (fun x g => (x.ew (ewCore t)).el w d (place g.num).1 (place g.num).2) els = .done ((st els.length).gsDone t) := by
  refine State.scatterGo_done els st fun k g hg => ?_
  obtain ⟨hlt, rfl⟩ := List.getElem?_eq_some_iff.mp hg
  obtain ⟨hctx, hew⟩ := h.kept hlt.le
  rw [hctx, hc]
  dsimp only
  rw [hew, he]
  obtain ⟨hskip, htake⟩ := h k _ hg
  exact ⟨hskip, fun hle => ⟨bs k, (htake hle).1⟩⟩

end Stores
end Loop

theorem Ew.strided_places (e : Ew) (w base stride : Nat) :
    (e.strided w base stride).map (fun g => (g.num / colsOf w, g.num % colsOf w)) = e.cells w := by
  rw [Ew.strided, List.map_map]
  refine (List.map_congr_left fun c hc => ?_).trans (List.map_id _)
  have hj : c.2 < colsOf w := (Ew.mem_cells.mp hc).2.trans_le (Nat.min_le_right ..)
  have hpos : 0 < colsOf w := by omega
  simp only [Function.comp, id]
  rw [Nat.mul_comm, Nat.mul_add_div hpos, Nat.div_eq_of_lt hj, Nat.mul_add_mod, Nat.mod_eq_of_lt hj, Nat.add_zero]

theorem packedEls_places (w base : Nat) (ps : List (Nat × Nat)) : (packedEls w base ps.length).map (fun g => ps.getD g.num (0, 0)) = ps := by
  rw [packedEls, List.map_map]
  refine List.ext_getElem (by simp) fun k hk hk' => ?_
  rw [List.getElem_map, List.getElem_range]
  exact List.getD_eq_getElem _ _ hk'

theorem packedEls_length (w base n : Nat) : (packedEls w base n).length = n := by simp [packedEls]

theorem places_within {w : Nat} {els : List GElem} {place : Nat → Nat × Nat} {ps : List (Nat × Nat)} (h : els.map (fun g => place g.num) = ps)
    (hps : ∀ c ∈ ps, c.1 < 32 ∧ c.2 < colsOf w) : ∀ g ∈ els, (place g.num).1 < 32 ∧ (place g.num).2 < colsOf w := fun _ hg =>
  hps _ (h ▸ List.mem_map_of_mem (f := fun g : GElem => place g.num) hg)

theorem State.readTilesOnce_off {s : State} {t : Tid} (h : s.injArmed (0x100 + t.groveOf) 2 = false) (l : List Nat) : s.readTilesOnce t l = s := by
  rw [State.readTilesOnce, State.readTiles_off h, ite_self]

theorem State.packedPos_first {s : State} {t : Tid} (h : (s.ctx t).inAccess = false) (w m : Nat) :
    s.packedPos t w m = (s.ew (ewCore t)).active w m := by
  unfold State.packedPos
  dsimp only
  split
  · rw [h]
    rfl
  · rfl

theorem State.ctx_gsDone (s : State) (t : Tid) : (s.gsDone t).ctx t = { s.ctx t with gsIdx := 0 } := (s.gsDone_fields t).1
theorem State.ew_gsDone (s : State) (t : Tid) (c : Nat) : (s.gsDone t).ew c = s.ew c := rfl

/-- The engine with the positions of a packed access. -/
def Ew.withPacked (e : Ew) (ps : Option (List (Nat × Nat))) : Ew := { e with packed := ps }

theorem Ew.withPacked_withPacked (e : Ew) (ps qs : Option (List (Nat × Nat))) : (e.withPacked ps).withPacked qs = e.withPacked qs := rfl
theorem State.ew_keepPacked (s : State) (t : Tid) (ps : Option (List (Nat × Nat))) :
    (s.keepPacked t ps).ew (ewCore t) = (s.ew (ewCore t)).withPacked ps := State.ew_setEw_same ..
theorem State.ctx_keepPacked (s : State) (t : Tid) (ps : Option (List (Nat × Nat))) (t' : Tid) : (s.keepPacked t ps).ctx t' = s.ctx t' := rfl
theorem State.keepPacked_dram (s : State) (t : Tid) (ps : Option (List (Nat × Nat))) : (s.keepPacked t ps).dram = s.dram := rfl
theorem State.gsDone_dram (s : State) (t : Tid) : (s.gsDone t).dram = s.dram := rfl

section Access
variable {s s1 : State} {t : Tid} {tgt : Target} (h : s.Issues t profEngine tgt s1) (hf : s1.EwFree t)
  (hq : (s1.ew (ewCore t)).queue = [])
include h hf hq

/-- A tile access whose elements are all performed, from the state that owns the tile registers. -/
theorem State.Issues.tileAccess {i : Instr} {body : State → Ew → TRes} {z : State}
    (hb : body (s1.setEw (ewCore t) ((s1.ew (ewCore t)).ownedBy t)) ((s1.ew (ewCore t)).ownedBy t) = .done (z.gsDone t))
    (hz : z.ctx t = s1.ctx t) :
    (s.ewInsn t i .place true body).ctx t = { s1.ctx t with gsIdx := 0 }.retired ∧
      (s.ewInsn t i .place true body).ew (ewCore t) = z.ew (ewCore t) ∧ (s.ewInsn t i .place true body).dram = z.dram := by
  have hins := h.ewInsn_empty (i := i) (use := .place) (async := true) hf.owner (fun _ hpe => by rw [hf.calm] at hpe; cases hpe) hf.split hq hb
    (by rw [State.ctx_gsDone, hz]; exact h.unstopped)
  rw [hins, State.ctx_setCtx_same, State.ew_setCtx, State.ew_setEw_same, State.ctx_gsDone, hz]
  exact ⟨rfl, rfl, rfl⟩

/-- A packed access whose elements are all performed: B takes their number. -/
theorem State.Issues.packedAccess {i : Instr} {body : State → Ew → TRes} {z : State} {b : Reg} {n : Nat}
    (hb : body (s1.setEw (ewCore t) ((s1.ew (ewCore t)).ownedBy t)) ((s1.ew (ewCore t)).ownedBy t) = countIn t b n (.done (z.gsDone t)))
    (hz : z.ctx t = s1.ctx t) :
    (s.ewInsn t i .place true body).ctx t = ({ s1.ctx t with gsIdx := 0 }.sa b (BitVec.ofNat 64 n)).retired ∧
      (s.ewInsn t i .place true body).ew (ewCore t) = (z.ew (ewCore t)).withPacked none ∧
      (s.ewInsn t i .place true body).dram = z.dram := by
  have hctx : (((z.gsDone t).keepPacked t none).modCtx t fun c => c.sa b (BitVec.ofNat 64 n)).ctx t =
      { s1.ctx t with gsIdx := 0 }.sa b (BitVec.ofNat 64 n) := by
    rw [State.ctx_modCtx_same, State.ctx_keepPacked, State.ctx_gsDone, hz]
  have hins := h.ewInsn_empty (i := i) (use := .place) (async := true) hf.owner (fun _ hpe => by rw [hf.calm] at hpe; cases hpe) hf.split hq hb
    (by rw [hctx]; exact h.unstopped)
  have hew : (((z.gsDone t).keepPacked t none).modCtx t fun c => c.sa b (BitVec.ofNat 64 n)).ew (ewCore t) =
      (z.ew (ewCore t)).withPacked none := by
    rw [State.modCtx, State.ew_setCtx, State.ew_keepPacked, State.ew_gsDone]
  rw [hins, State.ctx_setCtx_same, State.ew_setCtx, State.ew_setEw_same, hctx, hew]
  refine ⟨rfl, rfl, ?_⟩
  rw [State.setCtx_dram, State.setEw_dram, State.modCtx, State.setCtx_dram, State.keepPacked_dram, State.gsDone_dram]

variable {w : MemW} {d a b : Reg} (hd : d.val < 16) {st : Nat → State} {bs : Nat → List Byte}
include hd

theorem State.Issues.etld (h0 : st 0 = s1.setEw (ewCore t) ((s1.ew (ewCore t)).ownedBy t))
    (hl : TileLoads t (s1.ctx t) w.bytes (farStride ((s1.ctx t).ga b)) d
      ((s1.ew (ewCore t)).strided w.bytes ((s1.ctx t).ga a).toNat ((s1.ctx t).ga b).toNat)
      (fun n => (n / colsOf w.bytes, n % colsOf w.bytes)) st bs) : ∃ u : State, exec (.etld t w d a b) s = .next u ∧
    u.ctx t = { s1.ctx t with gsIdx := 0 }.retired ∧
    u.ew (ewCore t) = (st ((s1.ew (ewCore t)).strided w.bytes ((s1.ctx t).ga a).toNat ((s1.ctx t).ga b).toNat).length).ew (ewCore t) ∧
    u.dram = (st ((s1.ew (ewCore t)).strided w.bytes ((s1.ctx t).ga a).toNat ((s1.ctx t).ga b).toNat).length).dram := by
  have hc : (st 0).ctx t = s1.ctx t := by rw [h0, State.ctx_setEw]
  refine ⟨_, rfl, h.tileAccess hf hq ?_ (hl.ctx hc _ le_rfl)⟩
  have hrun := hl.run hc
  rw [h0] at hrun
  have hok : (!tileOk d) = false := by simp [tileOk, hd]
  dsimp only
  rw [hok, if_neg Bool.false_ne_true, State.ctx_setEw]
  exact hrun

theorem State.Issues.etst (hinj : s1.injArmed (0x100 + t.groveOf) 2 = false)
    (h0 : st 0 = s1.setEw (ewCore t) ((s1.ew (ewCore t)).ownedBy t))
    (hl : TileStores t (s1.ctx t) (s1.ew (ewCore t)) w.bytes (farStride ((s1.ctx t).ga b)) d
      ((s1.ew (ewCore t)).strided w.bytes ((s1.ctx t).ga a).toNat ((s1.ctx t).ga b).toNat)
      (fun n => (n / colsOf w.bytes, n % colsOf w.bytes)) st bs) : ∃ u : State, exec (.etst t w d a b) s = .next u ∧
    u.ctx t = { s1.ctx t with gsIdx := 0 }.retired ∧ u.ew (ewCore t) = (s1.ew (ewCore t)).ownedBy t ∧
    u.dram = (st ((s1.ew (ewCore t)).strided w.bytes ((s1.ctx t).ga a).toNat ((s1.ctx t).ga b).toNat).length).dram := by
  have hc : (st 0).ctx t = s1.ctx t := by rw [h0, State.ctx_setEw]
  have hrun := hl.run hc fun i j => by rw [h0, State.ew_setEw_same]; rfl
  obtain ⟨hctx, hew⟩ := hl.kept le_rfl
  rw [h0, State.ew_setEw_same] at hew
  rw [h0] at hrun
  rw [← hew]
  refine ⟨_, rfl, h.tileAccess hf hq ?_ (hctx.trans hc)⟩
  have hok : (!tileOk d) = false := by simp [tileOk, hd]
  dsimp only
  rw [hok, if_neg Bool.false_ne_true, State.readTilesOnce_off ((State.injArmed_congr (State.setEw_regs ..) ..).trans hinj), State.ctx_setEw]
  exact hrun

variable (hinj : s1.injArmed (0x100 + t.groveOf) 2 = false) (hacc : (s1.ctx t).inAccess = false) {mk : Fin 16}
  (h0 : st 0 = (s1.setEw (ewCore t) ((s1.ew (ewCore t)).ownedBy t)).keepPacked t (some ((s1.ew (ewCore t)).active w.bytes mk)))
include hinj hacc h0

theorem State.Issues.expdld
    (hl : TileLoads t (s1.ctx t) w.bytes false d (packedEls w.bytes ((s1.ctx t).ga a).toNat ((s1.ew (ewCore t)).active w.bytes mk).length)
      (fun k => ((s1.ew (ewCore t)).active w.bytes mk).getD k (0, 0)) st bs) : ∃ u : State, exec (.expdld t w d a b mk) s = .next u ∧
    u.ctx t = ({ s1.ctx t with gsIdx := 0 }.sa b (BitVec.ofNat 64 ((s1.ew (ewCore t)).active w.bytes mk).length)).retired ∧
    u.ew (ewCore t) = ((st ((s1.ew (ewCore t)).active w.bytes mk).length).ew (ewCore t)).withPacked none ∧
    u.dram = (st ((s1.ew (ewCore t)).active w.bytes mk).length).dram := by
  have hc : (st 0).ctx t = s1.ctx t := by rw [h0, State.ctx_keepPacked, State.ctx_setEw]
  have hrun := hl.run hc
  have hctx := hl.ctx hc _ le_rfl
  rw [packedEls_length] at hrun hctx
  rw [h0] at hrun
  refine ⟨_, rfl, h.packedAccess hf hq ?_ hctx⟩
  have hok : (!tileOk d) = false := by simp [tileOk, hd]
  dsimp only
  rw [hok, if_neg Bool.false_ne_true, State.readTilesOnce_off ((State.injArmed_congr (State.setEw_regs ..) ..).trans hinj),
    State.packedPos_first (by rw [State.ctx_setEw]; exact hacc), State.ew_setEw_same, State.ctx_setEw]
  exact congrArg (countIn t b _) hrun

theorem State.Issues.ecprst
    (hl : TileStores t (s1.ctx t) (s1.ew (ewCore t)) w.bytes false d
      (packedEls w.bytes ((s1.ctx t).ga a).toNat ((s1.ew (ewCore t)).active w.bytes mk).length)
      (fun k => ((s1.ew (ewCore t)).active w.bytes mk).getD k (0, 0)) st bs) : ∃ u : State, exec (.ecprst t w d a b mk) s = .next u ∧
    u.ctx t = ({ s1.ctx t with gsIdx := 0 }.sa b (BitVec.ofNat 64 ((s1.ew (ewCore t)).active w.bytes mk).length)).retired ∧
    u.ew (ewCore t) = ((s1.ew (ewCore t)).ownedBy t).withPacked none ∧
    u.dram = (st ((s1.ew (ewCore t)).active w.bytes mk).length).dram := by
  have hc : (st 0).ctx t = s1.ctx t := by rw [h0, State.ctx_keepPacked, State.ctx_setEw]
  have hrun := hl.run hc fun i j => by rw [h0, State.ew_keepPacked, State.ew_setEw_same]; rfl
  obtain ⟨hctx, hew⟩ := hl.kept le_rfl
  rw [packedEls_length] at hrun hctx hew
  rw [h0, State.ew_keepPacked, State.ew_setEw_same] at hew
  rw [h0] at hrun
  refine ⟨_, rfl, ?_⟩
  obtain ⟨h1, h2, h3⟩ := h.packedAccess (i := .ecprst t w d a b mk) hf hq (b := b) (n := ((s1.ew (ewCore t)).active w.bytes mk).length)
    (z := st ((s1.ew (ewCore t)).active w.bytes mk).length) (body := fun s1 _ =>
      if !tileOk d then illegal s1
      else
        let s2 := s1.readTilesOnce t [d.val, mk.val]
        let ps := s2.packedPos t w.bytes mk
        countIn t b ps.length
          ((s2.keepPacked t (some ps)).tileStore t false w.bytes
            (fun x g => let c := ps.getD g.num (0, 0)
              (x.ew (ewCore t)).el w.bytes d c.1 c.2)
            (packedEls w.bytes ((s2.ctx t).ga a).toNat ps.length))) (by
      have hok : (!tileOk d) = false := by simp [tileOk, hd]
      dsimp only
      rw [hok, if_neg Bool.false_ne_true, State.readTilesOnce_off ((State.injArmed_congr (State.setEw_regs ..) ..).trans hinj),
        State.packedPos_first (by rw [State.ctx_setEw]; exact hacc), State.ew_setEw_same, State.ctx_setEw]
      exact congrArg (countIn t b _) hrun) (hctx.trans hc)
  rw [hew, Ew.withPacked_withPacked] at h2
  exact ⟨h1, h2, h3⟩

end Access

/-- Settles O23: the elements are taken in order, and land at different places of the tile. -/
theorem tileMemoryAccessesRetire : Obligations.TileMemoryAccessesRetire := by
  unfold Obligations.TileMemoryAccessesRetire
  intro s s1 t tgt w d a b mk st bs h c e own va C ho hp hsp hinj hq hrows hd loads stores loaded grid rowMajor ps packed pos counted
  have hfree : s1.EwFree t := ⟨ho, hp, hsp⟩
  refine ⟨fun h0 hl => ?_, fun h0 hl => ?_, fun hacc h0 hl => ?_, fun hacc h0 hl => ?_⟩
  · have hplaces : rowMajor.map (fun g => grid g.num) = e.cells w.bytes := e.strided_places ..
    have hl' : TileLoads t c w.bytes (farStride (c.ga b)) d rowMajor grid st bs := hl
    obtain ⟨u, hu, hctx, hew, hdram⟩ := h.etld hfree hq hd h0 hl'
    obtain ⟨hin, hout⟩ := hl'.el (places_within hplaces (Ew.cells_within hrows _)) (hplaces ▸ e.cells_nodup _) _ le_rfl
    obtain ⟨howner, -⟩ := (hl'.alike _ le_rfl).fields
    rw [h0, State.ew_setEw_same] at hout howner
    refine Completes.of hu ⟨⟨fun k g hg hle => ?_, fun r i j _ hi hj hno => ?_, ?_, hdram⟩, hctx⟩
    · rw [hew]
      exact hin k g (List.getElem?_eq_some_iff.mp hg).1 hg hle
    · rw [hew]
      exact hout r i j hi hj hno
    · rw [hew]
      exact howner
  · obtain ⟨u, hu, hctx, hew, hdram⟩ := h.etst hfree hq hd hinj h0 hl
    exact Completes.of hu ⟨hew, hdram, hctx⟩
  · have hplaces : packed.map (fun g => pos g.num) = ps := packedEls_places ..
    have hl' : TileLoads t c w.bytes false d packed pos st bs := hl
    obtain ⟨u, hu, hctx, hew, hdram⟩ := h.expdld hfree hq hd hinj hacc h0 hl'
    have hlen : packed.length = ps.length := packedEls_length ..
    obtain ⟨hin, hout⟩ := hl'.el (places_within hplaces (Ew.active_within hrows _)) (hplaces ▸ (e.cells_nodup _).filter _) _ le_rfl
    obtain ⟨howner, -⟩ := (hl'.alike _ le_rfl).fields
    rw [h0, State.ew_keepPacked, State.ew_setEw_same, hlen] at hout howner
    rw [hlen] at hin
    refine Completes.of hu ⟨⟨fun k g hg hle => ?_, fun r i j _ hi hj hno => ?_, ?_, ?_⟩, hctx⟩
    · rw [hew]
      have hk : k < packed.length := (List.getElem?_eq_some_iff.mp hg).1
      exact hin k g (hlen ▸ hk) hg hle
    · rw [hew]
      exact hout r i j hi hj hno
    · rw [hew]
      exact howner
    · rw [hlen]
      exact hdram
  · obtain ⟨u, hu, hctx, hew, hdram⟩ := h.ecprst hfree hq hd hinj hacc h0 hl
    exact Completes.of hu ⟨hew, hdram, hctx⟩

end Sys2Proof.Machine
end

section
/-! The element-wise engine: lane programs, conversion, set-up and the split (R126, R127, R129, R133, R136 to R138, R144, R145). -/
namespace Sys2Proof.Machine

/-! ### Lane programs (R136 to R138) -/

theorem eraseDups_length_le (l : List Nat) : l.eraseDups.length ≤ l.length := by
  induction h : l.length using Nat.strong_induction_on generalizing l with
  | _ n ih =>
    cases l with
    | nil => simp
    | cons a l =>
      rw [List.eraseDups_cons, List.length_cons]
      have hle : (l.filter fun b => !b == a).length ≤ l.length := List.length_filter_le ..
      rw [List.length_cons] at h
      have := ih _ (by omega) (l.filter fun b => !b == a) rfl
      omega

/-- A list from which no duplicate is taken has none. -/
theorem nodup_of_eraseDups_length {l : List Nat} (hl : l.eraseDups.length = l.length) : l.Nodup := by
  induction l with
  | nil => exact List.nodup_nil
  | cons a l ih =>
    rw [List.eraseDups_cons, List.length_cons, List.length_cons, Nat.add_right_cancel_iff] at hl
    have hle := eraseDups_length_le (l.filter fun b => !b == a)
    have hfl : (l.filter fun b => !b == a).length ≤ l.length := List.length_filter_le ..
    have hall : l.filter (fun b => !b == a) = l := List.filter_eq_self.mpr (List.length_filter_eq_length_iff.mp (by omega))
    rw [hall] at hl
    refine List.nodup_cons.mpr ⟨fun hmem => ?_, ih hl⟩
    rw [← hall] at hmem
    simpa using (List.mem_filter.mp hmem).2

/-- An op of a good program whose destination is not a local writes one of the four outputs. -/
theorem EOp.dst_of_good {o : EOp} {x : EFmt} (h : o.bad x = false) (hd : ¬o.dst < 8) : 20 ≤ o.dst ∧ o.dst ≤ 23 := by
  simp only [EOp.bad, Bool.or_eq_false_iff, Bool.not_eq_false', Bool.or_eq_true, Bool.and_eq_true, decide_eq_true_eq] at h
  omega

/-- An output that one op leaves in place is an earlier one, or the op's own. -/
theorem ERun.op_outs {r : ERun} {p : EProg} {x : EFmt} {frm i j n v : Nat} {ins : Nat → Nat} {o : EOp} (hgood : o.bad x = false)
    (h : (r.op p x frm ins i j o).outs[n]? = some (some v)) : r.outs[n]? = some (some v) ∨ o.dst = 20 + n := by
  unfold ERun.op at h
  dsimp only at h
  split at h
  · exact .inl h
  · next hd =>
    obtain ⟨hlo, -⟩ := EOp.dst_of_good hgood hd
    by_cases hn : o.dst - 20 = n
    · exact .inr (by omega)
    · rw [List.getElem?_set_ne hn] at h
      exact .inl h

theorem EProg.foldl_outs {p : EProg} {x : EFmt} {frm i j n v : Nat} {ins : Nat → Nat} {ops : List EOp} (hgood : ∀ o ∈ ops, o.bad x = false)
    (r : ERun) (h : (ops.foldl (fun r o => r.op p x frm ins i j o) r).outs[n]? = some (some v)) :
    r.outs[n]? = some (some v) ∨ ∃ o ∈ ops, o.dst = 20 + n := by
  induction ops generalizing r with
  | nil => exact .inl h
  | cons o ops ih =>
    obtain ⟨ho, hrest⟩ := List.forall_mem_cons.mp hgood
    rcases ih hrest _ h with hr | ⟨o', ho', hd⟩
    · rcases ERun.op_outs ho hr with hr | hd
      · exact .inl hr
      · exact .inr ⟨o, List.mem_cons_self, hd⟩
    · exact .inr ⟨o', List.mem_cons_of_mem _ ho', hd⟩

/-- An output that a good program's run gives is one that the program writes. -/
theorem EProg.mem_outs {p : EProg} {x : EFmt} {frm i j n v : Nat} {ins : Nat → Nat} (hgood : ∀ o ∈ p.ops, o.bad x = false)
    (h : (p.run x frm ins i j).outs[n]? = some (some v)) : n ∈ p.outs := by
  rcases EProg.foldl_outs hgood _ h with h | ⟨o, ho, hd⟩
  · rw [List.getElem?_replicate] at h
    split at h <;> simp at h
  · rw [EProg.outs, List.mem_eraseDups, List.mem_filterMap]
    exact ⟨o, ho, by rw [if_pos (by omega), hd, Nat.add_sub_cancel_left]⟩

/-- The outputs that a good binding gives lie in different tile registers. -/
theorem bindOut_inj {p : EProg} {bind n n' : Nat} (h : bindBad p bind = false) (hn : n ∈ p.outs) (hn' : n' ∈ p.outs)
    (he : bindOut bind n = bindOut bind n') : n = n' := by
  simp only [bindBad, Bool.or_eq_false_iff] at h
  have hnd : (p.outs.map (bindOut bind)).Nodup := nodup_of_eraseDups_length (by simpa using h.2)
  exact List.inj_on_of_nodup_map hnd hn hn' he

section Put
variable {w bind : Nat} {outs : List (Option Nat)}

/-- One output of one element written. -/
def Ew.putOut (w bind i j : Nat) (outs : List (Option Nat)) (e : Ew) (n : Nat) : Ew :=
  match outs.getD n none with
  | some v => e.setEl w (bindOut bind n) i j v
  | none => e

theorem Ew.putOuts_eq (e : Ew) (w bind i j : Nat) (outs : List (Option Nat)) :
    e.putOuts w bind i j outs = (List.range 4).foldl (Ew.putOut w bind i j outs) e := rfl

theorem Ew.putOut_none {i j n : Nat} (h : outs.getD n none = none) (e : Ew) : Ew.putOut w bind i j outs e n = e := by rw [Ew.putOut, h]
theorem Ew.putOut_some {i j n v : Nat} (h : outs.getD n none = some v) (e : Ew) :
    Ew.putOut w bind i j outs e n = e.setEl w (bindOut bind n) i j v := by rw [Ew.putOut, h]

theorem Ew.alike_putOut (e : Ew) (w bind i j : Nat) (outs : List (Option Nat)) (n : Nat) : e.Alike (Ew.putOut w bind i j outs e n) := by
  cases h : outs.getD n none with
  | none => rw [Ew.putOut_none h]; exact Ew.Alike.refl e
  | some v => rw [Ew.putOut_some h]; exact Ew.alike_setEl ..

variable {i j : Nat} (hi : i < 32) (hj : j < colsOf w)
include hi hj

/-- The outputs of other elements, and those bound to other registers, leave an element alone. -/
theorem Ew.el_foldl_putOut_ne {r i' j' : Nat} (hi' : i' < 32) (hj' : j' < colsOf w) {ns : List Nat}
    (h : ∀ n ∈ ns, ∀ v, outs.getD n none = some v → ¬(r = bindOut bind n ∧ i = i' ∧ j = j')) (e : Ew) :
    (ns.foldl (Ew.putOut w bind i' j' outs) e).el w r i j = e.el w r i j := by
  induction ns generalizing e with
  | nil => rfl
  | cons n ns ih =>
    obtain ⟨hn, hrest⟩ := List.forall_mem_cons.mp h
    rw [List.foldl_cons, ih hrest]
    cases ho : outs.getD n none with
    | none => rw [Ew.putOut_none ho]
    | some v => rw [Ew.putOut_some ho, Ew.el_setEl_ne e hi' hi hj' hj (hn v ho)]

/-- An element after its outputs are written, bound to different registers. -/
theorem Ew.el_foldl_putOut {n v : Nat} (hv : outs.getD n none = some v)
    (hdiff : ∀ m v', m ≠ n → outs.getD m none = some v' → bindOut bind n ≠ bindOut bind m) {ns : List Nat} (hmem : n ∈ ns) (e : Ew) :
    (ns.foldl (Ew.putOut w bind i j outs) e).el w (bindOut bind n) i j = v % 2 ^ (8 * w) := by
  induction ns generalizing e with
  | nil => cases hmem
  | cons m ns ih =>
    rw [List.foldl_cons]
    by_cases hin : n ∈ ns
    · exact ih hin _
    · have hm : n = m := (List.mem_cons.mp hmem).resolve_right hin
      subst hm
      rw [Ew.putOut_some hv, Ew.el_foldl_putOut_ne hi hj hi hj _, Ew.el_setEl_same]
      intro m hm v' ho hc
      have hne : m ≠ n := fun h => hin (h ▸ hm)
      exact hdiff m v' hne ho hc.1

end Put

/-- The engine after a program's run over the cells `cells`. -/
theorem Ew.el_runCells {p : EProg} {x : EFmt} {frm bind : Nat} (hgood : ∀ o ∈ p.ops, o.bad x = false) (hbind : bindBad p bind = false)
    {ins : Nat → Nat → Nat → Nat} {cells : List (Nat × Nat)} (hc : ∀ c ∈ cells, c.1 < 32 ∧ c.2 < colsOf x.w) {i j n v : Nat} (hi : i < 32)
    (hj : j < colsOf x.w) (hn : n < 4) (hv : (p.run x frm (ins i j) i j).outs[n]? = some (some v)) (hmem : (i, j) ∈ cells) (e : Ew) :
    (cells.foldl (fun y c => (y.putOuts x.w bind c.1 c.2 (p.run x frm (ins c.1 c.2) c.1 c.2).outs).raise
      (p.run x frm (ins c.1 c.2) c.1 c.2).fl) e).el x.w (bindOut bind n) i j = v % 2 ^ (8 * x.w) := by
  have hget : ∀ {m v' : Nat} {o : List (Option Nat)}, o.getD m none = some v' → o[m]? = some (some v') := fun {m v' o} h => by
    rw [List.getD_eq_getElem?_getD] at h
    cases ho : o[m]? with
    | none => simp [ho] at h
    | some y => simpa [ho] using h
  have hown (c : Nat × Nat) (hci : c = (i, j)) (y : Ew) :
      (y.putOuts x.w bind c.1 c.2 (p.run x frm (ins c.1 c.2) c.1 c.2).outs).el x.w (bindOut bind n) i j = v % 2 ^ (8 * x.w) := by
    subst hci
    refine Ew.el_foldl_putOut hi hj (by rw [List.getD_eq_getElem?_getD, hv]; rfl) (fun m v' hm ho hb => ?_) (by simpa using hn) y
    exact hm (bindOut_inj hbind (EProg.mem_outs hgood hv) (EProg.mem_outs hgood (hget ho)) hb).symm
  induction cells using List.reverseRecOn generalizing e with
  | nil => cases hmem
  | append_singleton cells c ih =>
    rw [List.foldl_append, List.foldl_cons, List.foldl_nil, Ew.el_raise]
    by_cases hci : c = (i, j)
    · exact hown c hci _
    · obtain ⟨hc1, hc2⟩ := hc c (by simp)
      rw [Ew.putOuts_eq, Ew.el_foldl_putOut_ne hi hj hc1 hc2 fun _ _ _ _ h => hci (Prod.ext h.2.1.symm h.2.2.symm)]
      refine ih (fun c hc' => hc c (List.mem_append_left _ hc')) ?_ e
      rcases List.mem_append.mp hmem with h | h
      · exact h
      · exact absurd (List.mem_singleton.mp h).symm hci

theorem Ew.alike_runProg (e : Ew) (p : EProg) (x : EFmt) (frm bind : Nat) : e.Alike (e.runProg p x frm bind) :=
  Ew.alike_foldl (fun e _ => (Ew.alike_foldl (fun e _ => e.alike_putOut ..) _ e).trans (Ew.alike_raise ..)) _ e

/-! ### Conversion (R144) -/

/-- The column of an element in a conversion's source and in its target: the narrower side's part. -/
def ECvt.srcCol (x : ECvt) (j : Nat) : Nat := if sideBytes x.tgt ≤ sideBytes x.src then j else x.part * x.wide + j
def ECvt.tgtCol (x : ECvt) (j : Nat) : Nat := if sideBytes x.tgt ≤ sideBytes x.src then x.part * x.wide + j else j
/-- The element whose target column this is. -/
def ECvt.ofTgtCol (x : ECvt) (j : Nat) : Nat := if sideBytes x.tgt ≤ sideBytes x.src then j - x.part * x.wide else j

theorem ECvt.ofTgtCol_tgtCol (x : ECvt) (j : Nat) : x.ofTgtCol (x.tgtCol j) = j := by
  unfold ECvt.ofTgtCol ECvt.tgtCol
  split
  · exact Nat.add_sub_cancel_left ..
  · rfl

theorem ECvt.tgtCol_lt {x : ECvt} (h : x.bad = false) {j : Nat} (hj : j < x.wide) : x.tgtCol j < colsOf (sideBytes x.tgt) := by
  have hpart : x.part < x.narrow / x.wide := by
    simp only [ECvt.bad, Bool.or_eq_false_iff, decide_eq_false_iff_not] at h
    omega
  unfold ECvt.tgtCol
  split
  · next hle =>
    have hnarrow : x.narrow = colsOf (sideBytes x.tgt) := by rw [ECvt.narrow, Nat.min_eq_right hle]
    calc x.part * x.wide + j < (x.part + 1) * x.wide := by rw [Nat.succ_mul]; omega
      _ ≤ x.narrow / x.wide * x.wide := Nat.mul_le_mul_right _ hpart
      _ ≤ colsOf (sideBytes x.tgt) := hnarrow ▸ Nat.div_mul_le_self ..
  · next hlt =>
    have hwide : x.wide = colsOf (sideBytes x.tgt) := by rw [ECvt.wide, Nat.max_eq_right (by omega)]
    omega

/-- A scalar conversion's element, at its target column. -/
theorem Ew.el_convert {x : ECvt} (hx : x.bad = false) {e : Ew} (hrows : e.rows ≤ 32) (rm : Nat) (r : Nat → Nat → Nat) (d a : Nat) {i j : Nat}
    (hi : i < e.rows) (hj : j < min e.cols x.wide) :
    (e.convert x rm r d a).el (sideBytes x.tgt) d i (x.tgtCol j) =
      (codeConvert x.src x.tgt rm (r i j) x.sat (e.el (sideBytes x.src) a i (x.srcCol j))).1 % 2 ^ (8 * sideBytes x.tgt) := by
  have hcells : ∀ c ∈ (List.range e.rows).flatMap (fun i => (List.range (min e.cols x.wide)).map fun j => (i, j)),
      (c.1, x.tgtCol c.2).1 < 32 ∧ (c.1, x.tgtCol c.2).2 < colsOf (sideBytes x.tgt) := fun c hc => by
    simp only [List.mem_flatMap, List.mem_range, List.mem_map] at hc
    obtain ⟨i, hi, j, hj, rfl⟩ := hc
    exact ⟨by omega, ECvt.tgtCol_lt hx (by omega)⟩
  have hset := Ew.el_foldl_set (w := sideBytes x.tgt) (d := d) (p := fun c : Nat × Nat => (c.1, x.tgtCol c.2))
    (v := fun i j => (codeConvert x.src x.tgt rm (r i (x.ofTgtCol j)) x.sat (e.el (sideBytes x.src) a i (x.srcCol (x.ofTgtCol j)))).1)
    (g := fun y c => (y.setEl (sideBytes x.tgt) d c.1 (x.tgtCol c.2)
      (codeConvert x.src x.tgt rm (r c.1 c.2) x.sat (e.el (sideBytes x.src) a c.1 (x.srcCol c.2))).1).raise
        (codeConvert x.src x.tgt rm (r c.1 c.2) x.sat (e.el (sideBytes x.src) a c.1 (x.srcCol c.2))).2)
    (fun y c r i j => by rw [Ew.el_raise, ECvt.ofTgtCol_tgtCol]) hcells e (r := d) (i := i) (j := x.tgtCol j) (by omega)
    (ECvt.tgtCol_lt hx (by omega))
  rw [ECvt.ofTgtCol_tgtCol] at hset
  refine hset.1 rfl (List.mem_map.mpr ⟨(i, j), ?_, rfl⟩)
  simp only [List.mem_flatMap, List.mem_range, List.mem_map]
  exact ⟨i, hi, j, hj, rfl⟩

theorem Ew.alike_convert (e : Ew) (x : ECvt) (rm : Nat) (r : Nat → Nat → Nat) (d a : Nat) : e.Alike (e.convert x rm r d a) :=
  Ew.alike_foldl (fun e _ => (e.alike_setEl ..).trans (Ew.alike_raise ..)) _ e

theorem Ew.alike_encodeMx (e : Ew) (x : ECvt) (rm : Nat) (r : Nat → Nat → Nat) (d a : Nat) : e.Alike (e.encodeMx x rm r d a) := by
  unfold Ew.encodeMx
  refine Ew.alike_foldl (fun e i => ?_) _ e
  dsimp only [Ew.Alike, Ew.raise]

theorem Ew.alike_decodeMx (e : Ew) (x : ECvt) (rm : Nat) (r : Nat → Nat → Nat) (d a : Nat) : e.Alike (e.decodeMx x rm r d a) :=
  Ew.alike_mapTile ..

/-- What ECVT computes of the engine. -/
def Ew.converted (x : ECvt) (rm d a : Nat) (r : Nat → Nat → Nat) (e : Ew) : Ew :=
  if isMx x.tgt then e.encodeMx x rm r d a else if isMx x.src then e.decodeMx x rm r d a else e.convert x rm r d a

theorem Ew.alike_converted (x : ECvt) (rm d a : Nat) (r : Nat → Nat → Nat) (e : Ew) : e.Alike (e.converted x rm d a r) := by
  unfold Ew.converted
  split
  · exact Ew.alike_encodeMx ..
  · split
    · exact Ew.alike_decodeMx ..
    · exact Ew.alike_convert ..

theorem isMx_of_scalar {c : Nat} (h : ecvtCode c = true) : isMx c = false := by
  simp only [ecvtCode, isMx, Bool.or_eq_true, Bool.and_eq_true, decide_eq_true_eq, beq_iff_eq, Bool.and_eq_false_iff,
    decide_eq_false_iff_not] at h ⊢
  omega

/-- The draws of a conversion. -/
def ecvtDraw (c : Ctx) (rm : Nat) (x : ECvt) (k : Nat) (i j : Nat) : Nat :=
  if rm = 5 then (srRand c.seed (BitVec.ofNat 64 (i * x.wide + j))).toNat else (Config.random (k + i * x.wide + j)).toNat

/-! ### Lane programs, conversion and set-up at issue -/

section Issue
variable {s s1 : State} {t : Tid} {tgt : Target} (h : s.Issues t profEngine tgt s1) (hf : s1.EwFree t)
include h hf

theorem State.Issues.eprog {a : Reg} {s2 : State} {bs : List Byte} (hq : (s1.ew (ewCore t)).queue = []) (hal : ((s1.ctx t).ga a).toNat % 64 = 0)
    (hrd : (s1.setEw (ewCore t) ((s1.ew (ewCore t)).ownedBy t)).vread
      ((s1.setEw (ewCore t) ((s1.ew (ewCore t)).ownedBy t)).agtOf t) ((s1.ctx t).ga a).toNat 384 = (.ok bs, s2))
    (hgood : progBad bs = false) (hc : s2.ctx t = s1.ctx t) : ∃ u : State, exec (.eprog t a) s = .next u ∧
    u.ew (ewCore t) = { s2.ew (ewCore t) with prog := some bs } ∧ u.ctx t = (s1.ctx t).retired := by
  have hstop : ((s2.setEw (ewCore t) { s2.ew (ewCore t) with prog := some bs }).ctx t).stopPending = false := by
    rw [State.ctx_setEw, hc]
    exact h.unstopped
  have he : exec (.eprog t a) s = execEprog t a s := rfl
  rw [he, execEprog, h.ewInsn_empty hf.owner (fun _ hpe => by rw [hf.calm] at hpe; cases hpe) hf.split hq ?_ hstop]
  · refine ⟨_, rfl, ?_, ?_⟩
    · rw [State.ew_setCtx, State.ew_setEw_same, State.ew_setEw_same]
      rfl
    · rw [State.ctx_setCtx_same, State.ctx_setEw, hc]
  · extract_lets va
    have hva : va.toNat % 64 = 0 := hal
    rw [if_neg (not_not.mpr hva), show State.vread _ _ va.toNat 384 = (.ok bs, s2) from hrd]
    dsimp -zeta only
    rw [hgood, if_neg Bool.false_ne_true]

section Work
variable (hinj : s1.injArmed (0x100 + t.groveOf) 2 = false) (hq : (s1.ew (ewCore t)).queue.length ≤ 7)
include hinj hq

theorem State.Issues.erun {a : Reg} {bs : List Byte} {x : EFmt} (hprog : (s1.ew (ewCore t)).prog = some bs)
    (hx : ewFmt (eprogOf bs).fmt = some x) (hbind : bindBad (eprogOf bs) ((s1.ctx t).ga a).toNat = false)
    (hrm : x.fp.isSome = true → 4 < (s1.ctx t).frm.toNat → (eprogOf bs).ops.any (fun o => o.rm == 7 && (eprogOf bs).rm == 7) = false) :
    ∃ (u : State) (n : Nat), exec (.erun t a) s = .next u ∧ u.ctx t = (s1.ctx t).retired ∧
      u.ew (ewCore t) = ((((s1.ew (ewCore t)).advanced n).ownedBy t).runProg (eprogOf bs) x (s1.ctx t).frm.toNat
        ((s1.ctx t).ga a).toNat).enqueue (.work none) := by
  obtain ⟨hregs, hctx, -, n, hew⟩ := s1.ewProgress_frame (ewCore t)
    (if (s1.ctx t).instr.isSome then (s1.ew (ewCore t)).need (.work none) else 0)
  generalize hp : s1.ewProgress (ewCore t) _ = p at hregs hctx hew
  have hctx' : (p.setEw (ewCore t) ((p.ew (ewCore t)).ownedBy t)).ctx t = s1.ctx t := (State.ctx_setEw ..).trans (hctx t)
  have hstop : ((p.setEw (ewCore t) (((p.ew (ewCore t)).ownedBy t).runProg (eprogOf bs) x (s1.ctx t).frm.toNat
      ((s1.ctx t).ga a).toNat)).ctx t).stopPending = false := by
    rw [State.ctx_setEw, hctx]
    exact h.unstopped
  have hprog' : ((p.ew (ewCore t)).ownedBy t).prog = some bs := by rw [hew]; exact hprog
  have he : exec (.erun t a) s = execErun t a s := rfl
  rw [he, execErun, h.ewInsn hf.owner (fun _ hpe => by rw [hf.calm] at hpe; cases hpe) hf.split (p := p) (fun l hl => by rw [hl]; exact hp)
    (by rw [hew]; exact Ew.advanced_need hq n none) (s2 := p.setEw (ewCore t) (((p.ew (ewCore t)).ownedBy t).runProg (eprogOf bs) x
      (s1.ctx t).frm.toNat ((s1.ctx t).ga a).toNat)) ?_ hstop]
  · refine ⟨_, n, rfl, ?_, ?_⟩
    · rw [State.ctx_setCtx_same, State.ctx_setEw, hctx]
    · rw [State.ew_setCtx, State.ew_setEw_same, State.ew_setEw_same, hew]
  · dsimp only
    rw [hprog', hctx']
    dsimp only
    rw [hx]
    dsimp only
    rw [hbind, if_neg Bool.false_ne_true, if_neg fun hn => Bool.false_ne_true ((hrm hn.1 hn.2.1).symm.trans hn.2.2),
      State.ewDone_off ((State.injArmed_congr ((State.setEw_regs ..).trans hregs) ..).trans hinj), State.ew_setEw_same, State.setEw_setEw]

theorem State.Issues.ecvt {d a b : Reg} (hd : d.val < 16) (ha : a.val < 16) (hgood : (ecvtOf ((s1.ctx t).ga b).toNat).bad = false)
    (hst : (s1.ctx t).effRm (ecvtOf ((s1.ctx t).ga b).toNat).rm = 6 → s1.flag fMode_A_STRICT = false) :
    ∃ (u : State) (n : Nat) (r : Nat → Nat → Nat), exec (.ecvt t d a b) s = .next u ∧
      u.ctx t = ((s1.ctx t).seeded ((s1.ctx t).effRm (ecvtOf ((s1.ctx t).ga b).toNat).rm)).retired ∧
      u.ew (ewCore t) = (Ew.converted (ecvtOf ((s1.ctx t).ga b).toNat) ((s1.ctx t).effRm (ecvtOf ((s1.ctx t).ga b).toNat).rm) d a r
        (((s1.ew (ewCore t)).advanced n).ownedBy t)).enqueue (.work none) := by
  have hstop : ((s1.ctx t).seeded ((s1.ctx t).effRm (ecvtOf ((s1.ctx t).ga b).toNat).rm)).stopPending = false := by
    unfold Ctx.seeded
    split <;> exact h.unstopped
  obtain ⟨n, f, ⟨r, rfl⟩, hc, he⟩ := h.ewWork hf hinj hq (i := .ecvt t d a b) (slot := none) hstop
    (F := fun f => ∃ r, f = Ew.converted (ecvtOf ((s1.ctx t).ga b).toNat) ((s1.ctx t).effRm (ecvtOf ((s1.ctx t).ga b).toNat).rm) d a r)
    (body := fun s1 _ =>
      let c := s1.ctx t
      let x := ecvtOf (c.ga b).toNat
      let rm := c.effRm x.rm
      if !tileOk d || !tileOk a then illegal s1
      else if x.bad ∨ (rm = 6 ∧ s1.flag fMode_A_STRICT) then .fault s1 { code := 0x3C }
      else
        let k := s1.fresh
        let r := fun (i j : Nat) => if rm = 5 then (srRand c.seed (BitVec.ofNat 64 (i * x.wide + j))).toNat
          else (Config.random (k + i * x.wide + j)).toNat
        let s2 := (if rm = 6 then { s1 with fresh := k + 4096 } else s1).modCtx t fun c => c.seeded rm
        s2.ewDone t [a.val] fun e =>
          if isMx x.tgt then e.encodeMx x rm r d a else if isMx x.src then e.decodeMx x rm r d a else e.convert x rm r d a)
    (hb := fun y hr hy => by
      have hok : (!tileOk d || !tileOk a) = false := by simp [tileOk, hd, ha]
      have hstrict : ¬((ecvtOf ((s1.ctx t).ga b).toNat).bad = true ∨
          ((s1.ctx t).effRm (ecvtOf ((s1.ctx t).ga b).toNat).rm = 6 ∧ y.flag fMode_A_STRICT = true)) := by
        rw [hgood, State.flag_congr hr]
        rintro (hb | ⟨h6, hs⟩)
        · cases hb
        · exact Bool.false_ne_true ((hst h6).symm.trans hs)
      have hfresh : ∀ z : State, (if (s1.ctx t).effRm (ecvtOf ((s1.ctx t).ga b).toNat).rm = 6 then { z with fresh := z.fresh + 4096 } else z) =
          { z with fresh := if (s1.ctx t).effRm (ecvtOf ((s1.ctx t).ga b).toNat).rm = 6 then z.fresh + 4096 else z.fresh } := fun z => by
        split <;> rfl
      refine ⟨{ y with fresh := if (s1.ctx t).effRm (ecvtOf ((s1.ctx t).ga b).toNat).rm = 6 then y.fresh + 4096 else y.fresh }.modCtx t
        fun c => c.seeded ((s1.ctx t).effRm (ecvtOf ((s1.ctx t).ga b).toNat).rm), [a.val], _, ⟨ecvtDraw (s1.ctx t)
          ((s1.ctx t).effRm (ecvtOf ((s1.ctx t).ga b).toNat).rm) (ecvtOf ((s1.ctx t).ga b).toNat) y.fresh, rfl⟩, hr, ?_, rfl, ?_⟩
      · rw [State.ctx_modCtx_same]
        exact congrArg (fun c : Ctx => c.seeded _) hy
      · dsimp only
        rw [hy, hok, if_neg Bool.false_ne_true, if_neg hstrict, hfresh]
        rfl)
  exact ⟨_, n, r, rfl, hc, he⟩

end Work
end Issue

section Control
variable {s s1 : State} {t : Tid} {tgt : Target} (h : s.Issues t profEngine tgt s1)
include h

/-- Engine instructions are a grove thread's. -/
theorem State.Issues.grove : t.kind = .grove := by
  have hadm := h.admitted
  cases hk : t.kind <;> simp [Prof.admits, profEngine, hk] at hadm ⊢

theorem State.Issues.ewInsn_held {i : Instr} {use : EwUse} {async : Bool} {body : State → Ew → TRes}
    (hw : (∃ x, (s1.ew (ewCore t)).owner = some x ∧ x ≠ t) ∨ (s1.splitPending t.groveOf = true ∧ (s1.ctx t).inAccess = false)) :
    s.ewInsn t i use async body = s1.modCtx t fun c => c.waiting i .cond := by
  refine h.wait i ?_
  dsimp only
  by_cases ho : (s1.ew (ewCore t)).owner.isSome = true ∧ (s1.ew (ewCore t)).owner ≠ some t
  · rw [if_pos ho]
  · rcases hw with ⟨x, hx, hne⟩ | ⟨hsp, hin⟩
    · exact absurd ⟨by rw [hx]; rfl, by rw [hx]; simpa using hne⟩ ho
    · rw [if_neg ho, if_pos ⟨hsp, by rw [hin]; rfl⟩]

section Own
variable (ho : (s1.ew (ewCore t)).owner = none ∨ (s1.ew (ewCore t)).owner = some t) (hsp : s1.splitPending t.groveOf = false)
include ho hsp

theorem State.Issues.ewInsn_deferred {i : Instr} {use : EwUse} {body : State → Ew → TRes} (hp : (s1.ew (ewCore t)).pending = true)
    (hin : (s1.ctx t).inAccess = false) : s.ewInsn t i use true body =
      (s1.setEw (ewCore t) { s1.ew (ewCore t) with pending := false }).takeFault t { code := 0x3A } := by
  refine h.fault i ?_
  have howner : ¬((s1.ew (ewCore t)).owner.isSome = true ∧ (s1.ew (ewCore t)).owner ≠ some t) := by
    rcases ho with ho | ho <;> simp [ho]
  dsimp only
  rw [if_neg howner, if_neg (by rw [hsp]; simp), if_pos ⟨rfl, hp, by rw [hin]; rfl⟩]

/-- A fault without effect gives the tile registers back to the owner they had. -/
theorem State.Issues.ewInsn_fault {i : Instr} {use : EwUse} {body : State → Ew → TRes} {s2 : State} {f : FaultArg}
    (hp : (s1.ew (ewCore t)).pending = false) (hq : (s1.ew (ewCore t)).queue = [])
    (hb : body (s1.setEw (ewCore t) ((s1.ew (ewCore t)).ownedBy t)) ((s1.ew (ewCore t)).ownedBy t) = .fault s2 f) (hf : f.leftPart = false) :
    s.ewInsn t i use true body =
      (s2.setEw (ewCore t) { s2.ew (ewCore t) with owner := (s1.ew (ewCore t)).owner }).takeFault t f := by
  refine h.fault i ?_
  have howner : ¬((s1.ew (ewCore t)).owner.isSome = true ∧ (s1.ew (ewCore t)).owner ≠ some t) := by
    rcases ho with ho | ho <;> simp [ho]
  dsimp only
  rw [if_neg howner, if_neg (by rw [hsp]; simp), if_neg (by rw [hp]; simp), State.ewProgress_empty hq, if_neg (by rw [Ew.need_empty hq]; simp)]
  dsimp only [Ew.ownedBy] at hb
  rw [hb]
  dsimp only
  rw [hf, if_neg Bool.false_ne_true]

end Own

/-- What a grove thread's fault leaves. -/
theorem State.Issues.takeFault_grove (z : State) (code : Nat) :
    ((z.takeFault t { code := code }).ctx t).st = .faulted ∧
    ((z.takeFault t { code := code }).ctx t).faultInfo = faultWord code false false 0 ∧
    ((z.takeFault t { code := code }).ctx t).a = (z.ctx t).a ∧ (z.takeFault t { code := code }).ew (ewCore t) = z.ew (ewCore t) := by
  have hk : ¬t.kind = .control := by rw [h.grove]; simp
  rw [State.takeFault, if_neg hk, State.toFaulted_ctx]
  exact ⟨rfl, rfl, rfl, rfl⟩

end Control

/-- The extents that Table 6.12 refuses. -/
def badShape (v : Nat) : Prop := v / 64 % 4 ≠ 0 ∨ 65536 ≤ v ∨ v % 64 = 0 ∨ 32 < v % 64 ∨ v / 256 % 256 = 0 ∨ 128 < v / 256 % 256

theorem badShape_iff (v : Nat) : (bitsOf v 7 6 ≠ 0 ∨ v >>> 16 ≠ 0 ∨ bitsOf v 5 0 = 0 ∨ 32 < bitsOf v 5 0 ∨ bitsOf v 15 8 = 0 ∨
    128 < bitsOf v 15 8) ↔ badShape v := by
  simp only [bitsOf, badShape, Nat.shiftRight_eq_div_pow]
  norm_num

theorem State.setEw_setCtx (s : State) (t : Tid) (x : Ctx) (c : Nat) (e : Ew) : (s.setCtx t x).setEw c e = (s.setEw c e).setCtx t x := rfl

section Setup
variable {s s1 : State} {t : Tid} {tgt : Target} (h : s.Issues t profEngine tgt s1)
  (ho : (s1.ew (ewCore t)).owner = none ∨ (s1.ew (ewCore t)).owner = some t) (hsp : s1.splitPending t.groveOf = false)
  (hq : (s1.ew (ewCore t)).queue = [])
include h ho hsp hq

theorem State.Issues.estat (d : Reg) (clr : Bool) : exec (.estat t d clr) s = .next ((s1.setEw (ewCore t)
    (if clr then { (s1.ew (ewCore t)).ownedBy t with eflags := 0, errTile := false } else (s1.ew (ewCore t)).ownedBy t)).setCtx t
      ((s1.ctx t).sa d (s1.ew (ewCore t)).estat).retired) := by
  have he : exec (.estat t d clr) s = execEstat t d clr s := rfl
  rw [he, execEstat, h.ewInsn_empty ho (fun hn => by cases hn) hsp hq rfl]
  · rw [State.ew_setEw_same, State.setEw_setEw, State.ctx_setEw, State.ctx_modCtx_same, State.ctx_setEw, State.modCtx, State.setEw_setCtx,
      State.setCtx_setCtx, State.setEw_setEw]
    rfl
  · rw [State.ctx_setEw, State.ctx_modCtx_same, State.ctx_setEw, Ctx.sa_stopPending]
    exact h.unstopped

section Calm
variable (hp : (s1.ew (ewCore t)).pending = false)
include hp

theorem State.Issues.ewInsn_sa {i : Instr} {use : EwUse} (huse : ∀ e : Ew, e.enqueue use = e) (d : Reg) (v : Ew → W64) :
    s.ewInsn t i use true (fun x e => .done (x.modCtx t fun c => c.sa d (v e))) =
      (s1.setEw (ewCore t) ((s1.ew (ewCore t)).ownedBy t)).setCtx t ((s1.ctx t).sa d (v ((s1.ew (ewCore t)).ownedBy t))).retired := by
  rw [h.ewInsn_empty ho (fun _ hn => by rw [hp] at hn; cases hn) hsp hq rfl]
  · rw [huse, State.ctx_modCtx_same, State.ctx_setEw, State.modCtx, State.ew_setCtx, State.ew_setEw_same, State.setEw_setCtx,
      State.setCtx_setCtx, State.setEw_setEw]
  · rw [State.ctx_modCtx_same, State.ctx_setEw, Ctx.sa_stopPending]
    exact h.unstopped

theorem State.Issues.esarea (a : Reg) : exec (.esarea t a) s = .next ((s1.setEw (ewCore t)
    { (s1.ew (ewCore t)).ownedBy t with save := (s1.ctx t).ga a }).setCtx t (s1.ctx t).retired) := by
  have he : exec (.esarea t a) s = execEsarea t a s := rfl
  rw [he, execEsarea, h.ewInsn_empty ho (fun _ hn => by rw [hp] at hn; cases hn) hsp hq rfl]
  · rw [State.ew_setEw_same, State.setEw_setEw, State.ctx_setEw, State.setEw_setEw, State.ctx_setEw]
    rfl
  · rw [State.ctx_setEw, State.ctx_setEw]
    exact h.unstopped

theorem State.Issues.eshape {a : Reg} (hs : ¬badShape ((s1.ctx t).ga a).toNat) : exec (.eshape t a) s = .next ((s1.setEw (ewCore t)
    { (s1.ew (ewCore t)).ownedBy t with rows := ((s1.ctx t).ga a).toNat % 64, cols := ((s1.ctx t).ga a).toNat / 256 }).setCtx t
      (s1.ctx t).retired) := by
  have hrows : bitsOf ((s1.ctx t).ga a).toNat 5 0 = ((s1.ctx t).ga a).toNat % 64 := by simp [bitsOf]
  have hcols : bitsOf ((s1.ctx t).ga a).toNat 15 8 = ((s1.ctx t).ga a).toNat / 256 := by
    simp only [badShape, not_or] at hs
    simp only [bitsOf, Nat.shiftRight_eq_div_pow]
    norm_num
    omega
  have he : exec (.eshape t a) s = execEshape t a s := rfl
  rw [he, execEshape, h.ewInsn_empty ho (fun _ hn => by rw [hp] at hn; cases hn) hsp hq
    (if_neg (by rw [State.ctx_setEw, badShape_iff]; exact hs))]
  · rw [State.ew_setEw_same, State.setEw_setEw, State.ctx_setEw, State.setEw_setEw, State.ctx_setEw, hrows, hcols]
    rfl
  · rw [State.ctx_setEw, State.ctx_setEw]
    exact h.unstopped

theorem State.Issues.eshape_bad {a : Reg} (hs : badShape ((s1.ctx t).ga a).toNat) :
    exec (.eshape t a) s = .next ((s1.setEw (ewCore t) (s1.ew (ewCore t))).takeFault t { code := 0x3B }) := by
  have he : exec (.eshape t a) s = execEshape t a s := rfl
  rw [he, execEshape, h.ewInsn_fault ho hsp hp hq (if_pos (by rw [State.ctx_setEw, badShape_iff]; exact hs)) rfl, State.ew_setEw_same,
    State.setEw_setEw]
  rfl

end Calm
end Setup

/-! ### The split (R129) -/

theorem State.ewDrained_regs (s : State) (g : Nat) : (s.ewDrained g).regs = s.regs := by
  have : ∀ (l : List Nat) (s : State), (l.foldl (fun x k => x.setEw (8 * g + k) { x.ew (8 * g + k) with queue := [] }) s).regs = s.regs := by
    intro l
    induction l with
    | nil => exact fun _ => rfl
    | cons k l ih => exact fun s => (ih _).trans (State.setEw_regs ..)
  exact this _ s

theorem exec_ewSplitApply_access {s : State} {g : Fin 256} (h : ∃ e ∈ s.thr.ctxs, e.1 / 256 = g.val ∧ e.2.inTileAccess = true) :
    exec (.ewSplitApply g) s = .next s := by
  have he : exec (.ewSplitApply g) s = execEwSplitApply g s := rfl
  obtain ⟨e, hmem, hg, hin⟩ := h
  rw [he, execEwSplitApply, if_pos (List.any_eq_true.mpr ⟨e, hmem, by simp [hg, hin]⟩)]

theorem exec_ewSplitApply {s : State} {g : Fin 256} (h : ∀ e ∈ s.thr.ctxs, e.1 / 256 = g.val → e.2.inTileAccess = false) :
    exec (.ewSplitApply g) s = .next ((s.ewDrained g).setFld (fGrove_APPLIED g) (s.fld (fGrove_SPLIT g))) := by
  have he : exec (.ewSplitApply g) s = execEwSplitApply g s := rfl
  rw [he, execEwSplitApply, if_neg]
  simp only [List.any_eq_true, Bool.and_eq_true, decide_eq_true_eq, not_exists, not_and]
  exact fun e hmem hg hin => by rw [h e hmem hg] at hin; cases hin

theorem EOp.good_of_progBad {bs : List Byte} {x : EFmt} (hx : ewFmt (eprogOf bs).fmt = some x) (h : progBad bs = false) :
    ∀ o ∈ (eprogOf bs).ops, o.bad x = false := by
  unfold progBad at h
  dsimp only at h
  rw [hx] at h
  simp only [Bool.or_eq_false_iff, List.any_eq_false, Bool.not_eq_true] at h
  exact h.1.2

/-- Settles O24: what each instruction leaves in the engine, the deferred error, the waits, and the split once applied. -/
theorem laneProgramsConversionsAndControlRetire : Obligations.LaneProgramsConversionsAndControlRetire := by
  unfold Obligations.LaneProgramsConversionsAndControlRetire
  refine ⟨?_, ?_, ?_⟩
  · intro s s1 t tgt d a b h c e own ho hp hsp hinj hq hrows
    have hfree : s1.EwFree t := ⟨ho, hp, hsp⟩
    refine ⟨fun s2 bs hempty hal hrd hgood hc => ?_, ?_, ?_⟩
    · obtain ⟨u, hu, hew, hctx⟩ := h.eprog hfree hempty hal hrd hgood hc
      refine Completes.of hu ?_
      rw [hew]
      exact ⟨rfl, rfl, hctx⟩
    · intro bs x hprog p bind hx hgood hbind hrm
      obtain ⟨u, n, hu, hctx, hew⟩ := h.erun hfree hinj hq hprog hx hbind hrm
      refine Completes.of hu ⟨hctx, ?_, fun i j k v hi hj hk hv => ?_⟩
      · rw [hew]
        exact (Ew.alike_runProg ..).fields.1
      · rw [hew]
        exact Ew.el_runCells (EOp.good_of_progBad hx hgood) hbind (Ew.cells_within hrows _) (by omega)
          (hj.trans_le (Nat.min_le_right ..)) hk hv (Ew.mem_cells.mpr ⟨hi, hj⟩) _
    · intro x m hd ha hgood hst
      obtain ⟨u, n, r, hu, hctx, hew⟩ := h.ecvt hfree hinj hq hd ha hgood hst
      refine Completes.of hu ⟨hctx, ?_, fun _ hsrc htgt i j hi hj => ?_⟩
      · rw [hew]
        exact (Ew.alike_converted ..).fields.1
      · have hconv : Ew.converted x m d a r ((e.advanced n).ownedBy t) = ((e.advanced n).ownedBy t).convert x m r d a := by
          rw [Ew.converted, isMx_of_scalar htgt, isMx_of_scalar hsrc]
          rfl
        refine ⟨r i j, ?_⟩
        rw [hew, hconv]
        exact Ew.el_convert hgood (e := (e.advanced n).ownedBy t) hrows m r d a hi hj
  · intro s s1 t tgt d a slot clr h c e own v badShape' list
    refine ⟨fun ho hsp hq => ⟨?_, fun hp hin i hi => ?_, fun hp => ⟨?_, ?_, ?_, fun hs => ?_, fun hs => ?_⟩⟩, fun hw i hi => ?_⟩
    · refine Completes.of (h.estat ho hsp hq d clr) ⟨State.ctx_setCtx_same .., ?_⟩
      rw [State.ew_setCtx, State.ew_setEw_same]
      rfl
    · have hdef : exec i s = .next ((s1.setEw (ewCore t) { s1.ew (ewCore t) with pending := false }).takeFault t { code := 0x3A }) := by
        simp only [list, List.mem_cons, List.not_mem_nil, or_false] at hi
        rcases hi with rfl | rfl | rfl | rfl <;> exact congrArg Host.Outcome.next (h.ewInsn_deferred ho hsp hp hin)
      obtain ⟨hst, hinfo, hregs, hew⟩ := h.takeFault_grove (s1.setEw (ewCore t) { s1.ew (ewCore t) with pending := false }) 0x3A
      exact Completes.of hdef ⟨hst, hinfo, hregs, hew.trans (State.ew_setEw_same ..)⟩
    · refine Completes.of (h.esarea ho hsp hq hp a) ⟨?_, State.ctx_setCtx_same ..⟩
      rw [State.ew_setCtx, State.ew_setEw_same]
      rfl
    · refine Completes.of (congrArg Host.Outcome.next (h.ewInsn_sa ho hsp hq hp (fun _ => rfl) d Ew.estat)) ⟨?_, State.ctx_setCtx_same ..⟩
      rw [State.ew_setCtx, State.ew_setEw_same]
      rfl
    · refine Completes.of (congrArg Host.Outcome.next (h.ewInsn_sa ho hsp hq hp (fun _ => rfl) d fun e => tabGet slotZero e.slots slot))
        ⟨?_, State.ctx_setCtx_same ..⟩
      rw [State.ew_setCtx, State.ew_setEw_same]
      rfl
    · refine Completes.of (h.eshape ho hsp hq hp hs) ⟨?_, State.ctx_setCtx_same ..⟩
      rw [State.ew_setCtx, State.ew_setEw_same]
      rfl
    · obtain ⟨hst, hinfo, -, hew⟩ := h.takeFault_grove (s1.setEw (ewCore t) (s1.ew (ewCore t))) 0x3B
      exact Completes.of (h.eshape_bad ho hsp hq hp hs) ⟨hew.trans (State.ew_setEw_same ..), hst, hinfo⟩
    · simp only [list, List.mem_cons, List.not_mem_nil, or_false] at hi
      rcases hi with rfl | rfl | rfl | rfl | rfl <;> exact congrArg Host.Outcome.next (h.ewInsn_held hw)
  · intro s g
    refine ⟨fun hno => Completes.of (exec_ewSplitApply hno) ?_, exec_ewSplitApply_access⟩
    have hregs := s.ewDrained_regs g
    have hok : (fGrove_APPLIED g).ok = true := by simp [fGrove_APPLIED, Fld.ok, Fld.sh, Fld.w]
    have happlied : ((s.ewDrained g).setFld (fGrove_APPLIED g) (s.fld (fGrove_SPLIT g))).fld (fGrove_APPLIED g) = s.fld (fGrove_SPLIT g) := by
      rw [State.fld_setFld_same _ _ hok]
      exact Nat.mod_eq_of_lt (s.fld_lt (fGrove_SPLIT g))
    have hsplit : ((s.ewDrained g).setFld (fGrove_APPLIED g) (s.fld (fGrove_SPLIT g))).fld (fGrove_SPLIT g) = s.fld (fGrove_SPLIT g) := by
      rw [State.fld_setFld_apart _ _ hok (by simp [Fld.apart, fGrove_APPLIED, fGrove_SPLIT, Fld.sh, Fld.w, Fld.key]),
        State.fld_congr hregs]
    refine ⟨happlied, ?_, fun g' hg => ?_⟩
    · rw [State.splitPending, happlied, hsplit]
      exact bne_self_eq_false _
    · have hne : (g'.val : Nat) ≠ g.val := fun he => hg (Fin.ext he)
      rw [State.fld_setFld_apart _ _ hok (by simp [Fld.apart, fGrove_APPLIED, Fld.key]; omega), State.fld_congr hregs]

end Sys2Proof.Machine
end

section
/-! The patrol scrub (R157, R158). -/
namespace Sys2Proof.Machine

/-! ### The patrol scrub (R157, R158) -/

/-! Each of the fields written here lies in one cell. -/
theorem fProt_CE_COUNT_ok (n : Nat) : (fProt_CE_COUNT n).ok = true := by simp [fProt_CE_COUNT, Fld.ok, Fld.sh, Fld.w]
theorem fProt_CE_PC_ok (n : Nat) : (fProt_CE_PC n).ok = true := by simp [fProt_CE_PC, Fld.ok, Fld.sh, Fld.w]
theorem fProt_CE_BANK_ok (n : Nat) : (fProt_CE_BANK n).ok = true := by simp [fProt_CE_BANK, Fld.ok, Fld.sh, Fld.w]
theorem fProt_CE_ROW_ok (n : Nat) : (fProt_CE_ROW n).ok = true := by simp [fProt_CE_ROW, Fld.ok, Fld.sh, Fld.w]
theorem fProt_CE_LANE_ok (n : Nat) : (fProt_CE_LANE n).ok = true := by simp [fProt_CE_LANE, Fld.ok, Fld.sh, Fld.w]
theorem fProt_CE_VALID_ok (n : Nat) : (fProt_CE_VALID n).ok = true := by simp [fProt_CE_VALID, Fld.ok, Fld.sh, Fld.w]
theorem fProt_INNER_CNT_ok (n : Nat) : (fProt_INNER_CNT n).ok = true := by simp [fProt_INNER_CNT, Fld.ok, Fld.sh, Fld.w]
theorem fErr_CE_ok (n : Nat) : (fErr_CE n).ok = true := by simp [fErr_CE, Fld.ok, Fld.sh, Fld.w]
theorem fScrub_POS_ok (n : Nat) : (fScrub_POS n).ok = true := by simp [fScrub_POS, Fld.ok, Fld.sh, Fld.w]
theorem fScrub_PASSES_ok (n : Nat) : (fScrub_PASSES n).ok = true := by simp [fScrub_PASSES, Fld.ok, Fld.sh, Fld.w]
theorem fScrub_LAST_MS_ok (n : Nat) : (fScrub_LAST_MS n).ok = true := by simp [fScrub_LAST_MS, Fld.ok, Fld.sh, Fld.w]

section Places
variable {st : Fin 8} {pos : Nat} (hpos : pos < 2 ^ 31)
include hpos

theorem scrubLine_stack : keyStack ((st.val * 2 ^ 31 + pos) * 64) = st := by
  unfold keyStack
  omega

theorem scrubLine_off : keyOff ((st.val * 2 ^ 31 + pos) * 64) = pos * 64 := by
  unfold keyOff
  omega

end Places

/-- The state in which the line has been disturbed by nothing. -/
def State.settled (s : State) (line : Nat) (syms : List Nat) : State := (s.setSymErr line syms).setInner line (s.inner line)

theorem State.settled_regs (s : State) (line : Nat) (l : List Nat) : (s.settled line l).regs = s.regs := rfl
theorem State.settled_stks (s : State) (line : Nat) (l : List Nat) : (s.settled line l).stks = s.stks := rfl
theorem State.settled_symErr (s : State) (line : Nat) (l : List Nat) : (s.settled line l).symErr line = l := tabGet_set_same ..
theorem State.settled_poisoned (s : State) (line : Nat) (l : List Nat) (i : Nat) : (s.settled line l).poisoned i = s.poisoned i := rfl

theorem State.pcState_congr {u s : State} (h : u.regs = s.regs) (n p : Nat) : u.pcState n p = s.pcState n p := by
  simp only [State.pcState, State.fld_congr h]

theorem State.badLanes_congr {u s : State} (h : u.stks = s.stks) (n p : Nat) : u.badLanes n p = s.badLanes n p := by
  simp only [State.badLanes, State.stk, h]

/-- The fields that a count of an inner correction changes. -/
theorem State.countInner_fld (s : State) (line : Nat) {f : Fld} (hf : (fProt_INNER_CNT (keyStack (line * 64))).apart f = true) :
    (s.countInner line).fld f = s.fld f := by
  unfold State.countInner
  split
  · exact State.fld_setFld_apart _ _ (fProt_INNER_CNT_ok _) hf
  · rfl

theorem State.countInner_frame (s : State) (line : Nat) : (s.countInner line).dram = s.dram ∧ (s.countInner line).stks = s.stks ∧
    (s.countInner line).mem = s.mem := by
  unfold State.countInner
  split <;> exact ⟨rfl, rfl, rfl⟩

/-- A corrected error as the stack's registers record it (R158). -/
def State.ceLogged (s : State) (n o lane : Nat) : State :=
  ((s.inc (fProt_CE_COUNT n)).setFlag (fErr_CE (protPage n)) true).setLastCe n o lane

theorem State.setLastCe_fld (s : State) (n o lane : Nat) {f : Fld} (hf : f.key ≠ (fProt_CE_PC n).key) :
    (s.setLastCe n o lane).fld f = s.fld f := by
  have hkey : ∀ g : Fld, g.key = (fProt_CE_PC n).key → g.apart f = true := fun g hg => by
    simp [Fld.apart, hg, Ne.symm hf]
  rw [State.setLastCe, State.fld_setFld_apart _ _ (fProt_CE_VALID_ok n) (hkey (fProt_CE_VALID n) rfl), State.fld_setFld_apart _ _ (fProt_CE_LANE_ok n) (hkey (fProt_CE_LANE n) rfl),
    State.fld_setFld_apart _ _ (fProt_CE_ROW_ok n) (hkey (fProt_CE_ROW n) rfl), State.fld_setFld_apart _ _ (fProt_CE_BANK_ok n) (hkey (fProt_CE_BANK n) rfl),
    State.fld_setFld_apart _ _ (fProt_CE_PC_ok n) (hkey (fProt_CE_PC n) rfl)]

theorem State.ceLogged_fld (s : State) (n o lane : Nat) {f : Fld} (hc : f.key ≠ (fProt_CE_COUNT n).key)
    (he : f.key ≠ (fErr_CE (protPage n)).key) (hl : f.key ≠ (fProt_CE_PC n).key) : (s.ceLogged n o lane).fld f = s.fld f := by
  rw [State.ceLogged, State.setLastCe_fld _ _ _ _ hl, State.fld_setFlag_apart _ _ (fErr_CE_ok _) (by simp [Fld.apart, Ne.symm he]), State.inc,
    State.fld_setFld_apart _ _ (fProt_CE_COUNT_ok n) (by simp [Fld.apart, Ne.symm hc])]

theorem State.ceLogged_flag (s : State) (n o lane : Nat) {f : Fld} (hc : f.key ≠ (fProt_CE_COUNT n).key)
    (he : f.key ≠ (fErr_CE (protPage n)).key) (hl : f.key ≠ (fProt_CE_PC n).key) : (s.ceLogged n o lane).flag f = s.flag f := by
  rw [State.flag, State.flag, State.ceLogged_fld s n o lane hc he hl]

/-- The state but for its registers. -/
def State.SameButRegs (u s : State) : Prop := u.dram = s.dram ∧ u.stks = s.stks ∧ u.mem = s.mem

theorem State.sameButRegs_setFld (s : State) (f : Fld) (v : Nat) : (s.setFld f v).SameButRegs s := ⟨rfl, rfl, rfl⟩

theorem State.SameButRegs.trans {a b c : State} (h : a.SameButRegs b) (h' : b.SameButRegs c) : a.SameButRegs c :=
  ⟨h.1.trans h'.1, h.2.1.trans h'.2.1, h.2.2.trans h'.2.2⟩

theorem State.ceLogged_frame (s : State) (n o lane : Nat) : (s.ceLogged n o lane).SameButRegs s := by
  unfold State.ceLogged State.setLastCe State.inc State.setFlag
  exact (State.sameButRegs_setFld ..).trans ((State.sameButRegs_setFld ..).trans ((State.sameButRegs_setFld ..).trans
    ((State.sameButRegs_setFld ..).trans ((State.sameButRegs_setFld ..).trans ((State.sameButRegs_setFld ..).trans
      (State.sameButRegs_setFld ..))))))

theorem State.ceLogged_count (s : State) (n o lane : Nat) :
    (s.ceLogged n o lane).fld (fProt_CE_COUNT n) = (s.fld (fProt_CE_COUNT n) + 1) % 2 ^ (fProt_CE_COUNT n).w := by
  rw [State.ceLogged, State.setLastCe_fld _ _ _ _ (by simp [fProt_CE_COUNT, fProt_CE_PC, Fld.key]),
    State.fld_setFlag_apart _ _ (fErr_CE_ok _) (by simp [Fld.apart, fErr_CE, fProt_CE_COUNT, protPage, Fld.key]), State.inc,
    State.fld_setFld_same _ _ (fProt_CE_COUNT_ok n)]

theorem State.ceLogged_lane (s : State) (n o : Nat) {lane : Nat} (h : lane < 16) : (s.ceLogged n o lane).fld (fProt_CE_LANE n) = lane := by
  rw [State.ceLogged, State.setLastCe, State.fld_setFld_apart _ _ (fProt_CE_VALID_ok n) (by simp [Fld.apart, fProt_CE_LANE, fProt_CE_VALID, Fld.sh, Fld.w]),
    State.fld_setFld_same _ _ (fProt_CE_LANE_ok n)]
  exact Nat.mod_eq_of_lt h

theorem State.ceLogged_flagged (s : State) (n o lane : Nat) : (s.ceLogged n o lane).flag (fErr_CE (protPage n)) = true := by
  rw [State.flag, State.ceLogged, State.setLastCe_fld _ _ _ _ (by simp [fErr_CE, fProt_CE_PC, protPage, Fld.key])]
  exact State.flag_setFlag_same _ true (fErr_CE_ok _) rfl

/-- A line written back without errors, with no injection armed on its stack. -/
theorem State.wordWritten_unarmed {s : State} {line : Nat} (h : s.flag (fProt_INJ_ARM (keyStack (line * 64))) = false) :
    s.wordWritten line = ((s.setSymErr line []).setInner line 0).setInjected line false := by
  have hoff : (((s.setSymErr line []).setInner line 0).setInjected line false).flag (fProt_INJ_ARM (keyStack (line * 64))) = false := h
  rw [State.wordWritten, State.injectOn]
  dsimp only
  rw [hoff, if_neg (by simp)]

/-- A symbol counted for its lane, below the threshold. -/
theorem State.countLane_below {s : State} {n p lane : Nat} (h1 : 1 < s.laneThr n)
    (h : tabGet cntZero (s.stk n).laneCnt (p * 16 + lane) + 1 < s.laneThr n) : s.countLane n p lane 1 = s.modStk n fun x =>
      { x with laneCnt := tabSet cntZero x.laneCnt (p * 16 + lane) (tabGet cntZero (s.stk n).laneCnt (p * 16 + lane) + 1) } := by
  rw [State.countLane]
  exact (if_neg (by omega)).trans (if_neg (by exact Nat.not_le.mpr h))

/-- An error counted for its row, below the threshold. -/
theorem State.countRow_below {s : State} {n o : Nat}
    (h : tabGet cntZero (s.stk n).rowCnt (rowKey (offPc o) (offBank o) (offRow o)) + 1 < s.rowThr n) : ∃ f, s.countRow n o = s.modStk n f := by
  rw [State.countRow]
  exact ⟨_, if_neg (by omega)⟩

theorem lanesOf_single {x : Nat} (h : x < 72) : lanesOf [x] = [x / 8] := by
  have hlane : x / 8 < 9 := by omega
  simp only [lanesOf, symLane, List.any_cons, List.any_nil, Bool.or_false]
  generalize x / 8 = l at hlane
  interval_cases l <;> rfl

theorem State.wordWritten_unarmed_fields {s : State} {line : Nat} (h : s.flag (fProt_INJ_ARM (keyStack (line * 64))) = false) :
    (s.wordWritten line).regs = s.regs ∧ (s.wordWritten line).stks = s.stks ∧ (s.wordWritten line).dram = s.dram ∧
      (s.wordWritten line).symErr line = [] := by
  rw [State.wordWritten_unarmed h]
  exact ⟨rfl, rfl, rfl, tabGet_set_same noErr s.mem.symErr line []⟩

theorem State.modStk_frame (s : State) (n : Nat) (f : StackSt → StackSt) :
    (s.modStk n f).regs = s.regs ∧ (s.modStk n f).dram = s.dram ∧ (s.modStk n f).mem = s.mem ∧ (s.modStk n f).stk n = f (s.stk n) :=
  ⟨rfl, rfl, rfl, tabGet_set_same ..⟩

/-- One symbol counted for its lane and its row, below both thresholds. -/
theorem State.count_below {s : State} {n o lane : Nat} (h1 : 1 < s.laneThr n)
    (hl : tabGet cntZero (s.stk n).laneCnt (offPc o * 16 + lane) + 1 < s.laneThr n)
    (hr : tabGet cntZero (s.stk n).rowCnt (rowKey (offPc o) (offBank o) (offRow o)) + 1 < s.rowThr n) :
    ((s.countLane n (offPc o) lane 1).countRow n o).regs = s.regs ∧ ((s.countLane n (offPc o) lane 1).countRow n o).dram = s.dram ∧
      ((s.countLane n (offPc o) lane 1).countRow n o).mem = s.mem := by
  rw [State.countLane_below h1 hl]
  obtain ⟨hr1, hd1, hm1, hs1⟩ := s.modStk_frame n fun x =>
    { x with laneCnt := tabSet cntZero x.laneCnt (offPc o * 16 + lane) (tabGet cntZero (s.stk n).laneCnt (offPc o * 16 + lane) + 1) }
  generalize hv : (s.modStk n fun x => _) = v at hr1 hd1 hm1 hs1 ⊢
  obtain ⟨f, hf⟩ := State.countRow_below (s := v) (n := n) (o := o) (by
    rw [hs1, State.rowThr, State.fld_congr hr1]
    exact hr)
  obtain ⟨hr2, hd2, hm2, -⟩ := v.modStk_frame n f
  rw [hf, hr2, hd2, hm2]
  exact ⟨hr1, hd1, hm1⟩

/-- The thresholds and the arming of a stack stay when an error is logged. -/
theorem State.ceLogged_controls (z : State) (n o lane : Nat) : (z.ceLogged n o lane).flag (fProt_INJ_ARM n) = z.flag (fProt_INJ_ARM n) ∧
    (z.ceLogged n o lane).laneThr n = z.laneThr n ∧ (z.ceLogged n o lane).rowThr n = z.rowThr n := by
  refine ⟨State.ceLogged_flag _ _ _ _ ?_ ?_ ?_, State.ceLogged_fld _ _ _ _ ?_ ?_ ?_, congrArg (max 1) (State.ceLogged_fld _ _ _ _ ?_ ?_ ?_)⟩ <;>
    simp [fProt_INJ_ARM, fProt_LANE_THR, fProt_ROW_THR, fProt_CE_COUNT, fErr_CE, protPage, fProt_CE_PC, Fld.key]

/-- A correction of one symbol that reaches no threshold. -/
theorem State.corrected_one {z : State} {line n o x : Nat} (hn : keyStack (line * 64) = n) (ho : keyOff (line * 64) = o) (hx : x < 72)
    (hdir : (z.dir line).mod = false) (harm : z.flag (fProt_INJ_ARM n) = false) (hl1 : 1 < z.laneThr n)
    (hlane : tabGet cntZero (z.stk n).laneCnt (offPc o * 16 + x / 8) + 1 < z.laneThr n)
    (hrow : tabGet cntZero (z.stk n).rowCnt (rowKey (offPc o) (offBank o) (offRow o)) + 1 < z.rowThr n) :
    (z.corrected line [x]).symErr line = [] ∧ (z.corrected line [x]).dram = z.dram ∧
      (z.corrected line [x]).regs = (z.ceLogged n o (x / 8)).regs := by
  obtain ⟨hdram, hstks, -⟩ := z.ceLogged_frame n o (x / 8)
  obtain ⟨harm', hlt, hrt⟩ := z.ceLogged_controls n o (x / 8)
  have hall : z.corrected line [x] = (((z.ceLogged n o (x / 8)).wordWritten line).countLane n (offPc o) (x / 8) 1).countRow n o := by
    have hcount : ([x].filter fun i => symLane i == x / 8).length = 1 := by simp [symLane]
    rw [State.corrected, lanesOf_single hx, hn, ho, hdir, if_neg Bool.false_ne_true, List.foldl_cons, List.foldl_nil, hcount, State.ceLogged]
  generalize z.ceLogged n o (x / 8) = y at *
  obtain ⟨hwr, hws, hwd, hwe⟩ := State.wordWritten_unarmed_fields (s := y) (line := line) (by rw [hn, harm', harm])
  have hthr : (y.wordWritten line).laneThr n = z.laneThr n := (State.fld_congr hwr _).trans hlt
  have hrthr : (y.wordWritten line).rowThr n = z.rowThr n := (congrArg (max 1) (State.fld_congr hwr _)).trans hrt
  have hstk : (y.wordWritten line).stk n = z.stk n := by rw [State.stk, State.stk, hws, hstks]
  obtain ⟨hr, hd, hm⟩ := State.count_below (s := y.wordWritten line) (n := n) (o := o) (lane := x / 8) (by rw [hthr]; exact hl1)
    (by rw [hstk, hthr]; exact hlane) (by rw [hstk, hrthr]; exact hrow)
  rw [hall, State.symErr, hm, hd, hr, hwr, hwd]
  exact ⟨hwe, hdram, rfl⟩

/-- A line that the pass reads: not paused, no lane bad, no poison, no error before. -/
structure State.Readable (s : State) (st : Fin 8) (pos : Nat) : Prop where
  run : s.flag (fMem_STOP st) = false
  awake : s.pwr.mode ≠ .ret
  trained : 0 < s.fld (fScrub_LINES st)
  within : pos < 2 ^ 31
  normal : s.pcState st (offPc (pos * 64)) = 0
  lanes : s.badLanes st (offPc (pos * 64)) = []
  plain : s.poisoned (st.val * 2 ^ 31 + pos) = false
  clean : s.symErr (st.val * 2 ^ 31 + pos) = []

/-- The end of a pass: the position, the passes counted, the rows' counts begun again. -/
theorem State.scrubEnd_fields (s : State) (n : Nat) : (s.scrubEnd n).dram = s.dram ∧ (s.scrubEnd n).fld (fScrub_POS n) = 0 ∧
    (s.scrubEnd n).fld (fScrub_PASSES n) = (s.fld (fScrub_PASSES n) + 1) % 2 ^ 64 ∧ ((s.scrubEnd n).stk n).rowCnt = [] ∧
    (s.scrubEnd n).fld (fProt_CE_COUNT n) = s.fld (fProt_CE_COUNT n) := by
  have hdraw : ∀ f, s.draw.2.fld f = s.fld f := fun _ => rfl
  have hmod : ∀ (a : State) (g : StackSt → StackSt) (f : Fld), (a.modStk n g).fld f = a.fld f := fun _ _ _ => rfl
  have hpos : (fScrub_PASSES n).apart (fScrub_POS n) = true := by simp [Fld.apart, fScrub_PASSES, fScrub_POS, Fld.key]
  have hlast : ∀ f : Fld, f = fScrub_POS n ∨ f = fScrub_PASSES n → (fScrub_LAST_MS n).apart f = true := by
    rintro f (rfl | rfl) <;> simp [Fld.apart, fScrub_PASSES, fScrub_POS, fScrub_LAST_MS, Fld.key]
  have hce : ∀ f : Fld, f.page = 0x0C2 + 8 * n → f.off / 8 < 512 → f.apart (fProt_CE_COUNT n) = true := fun f hp ho => by
    simp only [Fld.apart, Fld.key, fProt_CE_COUNT, hp, Bool.or_eq_true, decide_eq_true_eq]
    omega
  unfold State.scrubEnd
  dsimp only
  refine ⟨rfl, ?_, ?_, ?_, ?_⟩
  · rw [hmod, State.fld_setFld_apart _ _ (fScrub_LAST_MS_ok n) (hlast _ (.inl rfl)), State.inc,
      State.fld_setFld_apart _ _ (fScrub_PASSES_ok n) hpos, State.fld_setFld_same _ _ (fScrub_POS_ok n), Nat.zero_mod]
  · rw [hmod, State.fld_setFld_apart _ _ (fScrub_LAST_MS_ok n) (hlast _ (.inr rfl)), State.inc, State.fld_setFld_same _ _ (fScrub_PASSES_ok n),
      State.fld_setFld_apart _ _ (fScrub_POS_ok n) (by simp [Fld.apart, fScrub_PASSES, fScrub_POS, Fld.key]), hdraw]
    rfl
  · rw [State.stk, State.modStk, State.setStk, tabGet_set_same]
  · rw [hmod, State.fld_setFld_apart _ _ (fScrub_LAST_MS_ok n) (hce _ rfl (by simp [fScrub_LAST_MS])), State.inc,
      State.fld_setFld_apart _ _ (fScrub_PASSES_ok n) (hce _ rfl (by simp [fScrub_PASSES])),
      State.fld_setFld_apart _ _ (fScrub_POS_ok n) (hce _ rfl (by simp [fScrub_POS])), hdraw]

/-- A line disturbed by `syms` while it is read. -/
theorem State.scrubLine_of_read {s y : State} {n line : Nat} {syms : List Nat} (hsym : s.symErr line = []) (hu : syms.eraseDups = syms)
    (hread : (s.settled line syms).readLine line = (true, y)) : s.scrubLine n line syms 0 = y := by
  have hset : (s.setSymErr line (s.symErr line ++ syms).eraseDups).setInner line (max (s.inner line) 0) = s.settled line syms := by
    rw [hsym, Nat.max_zero, List.nil_append, hu, State.settled]
  rw [State.scrubLine, hset, hread]

theorem State.readLine_of_corrected {s : State} {line : Nat} {syms : List Nat} (h : s.decode line = .corrected syms) :
    s.readLine line = (true, (s.countInner line).corrected line syms) := by rw [State.readLine, h]

theorem State.readLine_of_clean {s : State} {line : Nat} (h : s.decode line = .clean) : s.readLine line = (true, s.countInner line) := by
  rw [State.readLine, h]

section Read
variable {s : State} {st : Fin 8} {pos : Nat} (h : s.Readable st pos)
include h

theorem State.Readable.exec_scrubRead (hp : s.fld (fScrub_POS st) = pos) {upset : List Nat} {inner : Fin 3} {y : State}
    (hy : s.scrubLine st (st.val * 2 ^ 31 + pos) upset inner = y) : exec (.scrubRead st upset inner) s =
      .next (if s.fld (fScrub_LINES st) ≤ pos + 1 then y.scrubEnd st else y.setFld (fScrub_POS st) (pos + 1)) := by
  have hgate : ¬(s.flag (fMem_STOP st) = true ∨ s.retaining = true ∨ s.fld (fScrub_LINES st) = 0 ∨ s.pcState st (offPc (pos * 64)) = 2) := by
    rintro (hx | hx | hx | hx)
    · rw [h.run] at hx; cases hx
    · exact h.awake (eq_of_beq hx)
    · have := h.trained; omega
    · rw [h.normal] at hx; cases hx
  have hstate : s.pcState st (offPc (pos * 64)) ≠ 3 := by rw [h.normal]; decide
  have he : exec (.scrubRead st upset inner) s = execScrubRead st upset inner s := rfl
  rw [he, execScrubRead]
  dsimp only
  rw [hp, if_neg hgate, if_pos hstate, hy]

/-- What the line decodes to: `syms` of its symbols in error. -/
theorem State.Readable.decode (syms : List Nat) (hs : syms.length ≤ 4) :
    (s.settled (st.val * 2 ^ 31 + pos) syms).decode (st.val * 2 ^ 31 + pos) = if syms.isEmpty then .clean else .corrected syms := by
  have hst := scrubLine_stack (st := st) h.within
  have hoff := scrubLine_off (st := st) h.within
  have hpc : (s.settled (st.val * 2 ^ 31 + pos) syms).pcState st (offPc (pos * 64)) = 0 :=
    (State.pcState_congr (State.settled_regs ..) _ _).trans h.normal
  have hmany : (s.settled (st.val * 2 ^ 31 + pos) syms).tooMany (st.val * 2 ^ 31 + pos) = false := by
    rw [State.tooMany, hst, hoff, State.badLanes_congr (State.settled_stks ..), h.lanes, State.settled_symErr]
    have := List.length_filter_le (fun i => !List.contains [] (symLane i)) syms
    simp only [List.length_nil, decide_eq_false_iff_not]
    omega
  rw [State.decode, hst, hoff, hpc, if_neg (by decide), State.settled_poisoned, h.plain, if_neg Bool.false_ne_true, if_neg (by simp), hmany,
    if_neg Bool.false_ne_true, State.settled_symErr]

end Read

/-- Settles O25: a line that is not read, a clean one, and one whose single symbol is corrected. -/
theorem scrubReadsLineByLine : Obligations.ScrubReadsLineByLine := by
  unfold Obligations.ScrubReadsLineByLine
  intro s st upset inner pos lines line paused
  refine ⟨fun hno => ?_, fun hrun hret hlines hpos hpc hlanes hpois hsym => ?_⟩
  · have he : exec (.scrubRead st upset inner) s = execScrubRead st upset inner s := rfl
    have hgate : s.flag (fMem_STOP st) = true ∨ s.retaining = true ∨ lines = 0 ∨ s.pcState st (offPc (pos * 64)) = 2 := by
      rcases hno with hx | hx | hx | hx
      · exact .inl hx
      · exact .inr (.inl (by rw [State.retaining, hx]; rfl))
      · exact .inr (.inr (.inl hx))
      · exact .inr (.inr (.inr hx))
    rw [he, execScrubRead]
    exact congrArg Host.Outcome.next (if_pos hgate)
  · have h : s.Readable st pos := ⟨hrun, hret, hlines, hpos, hpc, hlanes, hpois, hsym⟩
    have hst := scrubLine_stack (st := st) hpos
    have hoff := scrubLine_off (st := st) hpos
    have hinner : ∀ (f : Fld) (syms : List Nat), (fProt_INNER_CNT st).apart f = true →
        ((s.settled line syms).countInner line).fld f = s.fld f := fun f syms hf => by
      rw [State.countInner_fld _ _ (by rw [hst]; exact hf)]
      rfl
    have hpos64 : ∀ z : State, (z.setFld (fScrub_POS st) (pos + 1)).fld (fScrub_POS st) = pos + 1 := fun z => by
      rw [State.fld_setFld_same _ _ (fScrub_POS_ok _)]
      exact Nat.mod_eq_of_lt (by show pos + 1 < 2 ^ 64; omega)
    constructor
    · obtain ⟨hd, -, -⟩ := (s.settled line []).countInner_frame line
      have hce := hinner (fProt_CE_COUNT st) [] (by simp [Fld.apart, fProt_INNER_CNT, fProt_CE_COUNT, Fld.key])
      have hpass := hinner (fScrub_PASSES st) [] (by simp [Fld.apart, fProt_INNER_CNT, fScrub_PASSES, Fld.key])
      have hrd := h.exec_scrubRead rfl (inner := 0)
        (State.scrubLine_of_read (syms := []) hsym rfl (State.readLine_of_clean (h.decode [] (by decide))))
      by_cases hend : lines ≤ pos + 1
      · rw [if_pos hend] at hrd
        obtain ⟨e1, e2, e3, e4, e5⟩ := State.scrubEnd_fields ((s.settled line []).countInner line) st
        exact ⟨_, hrd, e1.trans hd, e5.trans hce, fun hlt => absurd hend (by omega), fun _ => ⟨e2, by rw [e3, hpass], e4⟩⟩
      · rw [if_neg hend] at hrd
        refine ⟨_, hrd, hd, ?_, fun _ => hpos64 _, fun hle => absurd hle hend⟩
        rw [State.fld_setFld_apart _ _ (fScrub_POS_ok _) (by simp [Fld.apart, fScrub_POS, fProt_CE_COUNT, Fld.key]; omega), hce]
    · intro x hx hdir harm hlt hrt hend hlane hrow
      have hrd := h.exec_scrubRead rfl (inner := 0)
        (State.scrubLine_of_read (syms := [x]) hsym rfl (State.readLine_of_corrected (h.decode [x] (by simp))))
      rw [if_neg (by omega)] at hrd
      obtain ⟨hd, hs, hm⟩ := (s.settled line [x]).countInner_frame line
      have hctl : ∀ f : Fld, f.key ≠ (fProt_INNER_CNT st).key → ((s.settled line [x]).countInner line).fld f = s.fld f := fun f hf =>
        hinner f [x] (by simp [Fld.apart, Ne.symm hf])
      have hlthr : ((s.settled line [x]).countInner line).laneThr st = s.laneThr st :=
        hctl _ (by simp [fProt_LANE_THR, fProt_INNER_CNT, Fld.key])
      have hrthr : ((s.settled line [x]).countInner line).rowThr st = s.rowThr st :=
        congrArg (max 1) (hctl _ (by simp [fProt_ROW_THR, fProt_INNER_CNT, Fld.key]))
      have harm' : ((s.settled line [x]).countInner line).flag (fProt_INJ_ARM st) = false := by
        rw [State.flag, hctl _ (by simp [fProt_INJ_ARM, fProt_INNER_CNT, Fld.key])]
        exact harm
      have hce : ((s.settled line [x]).countInner line).fld (fProt_CE_COUNT st) = s.fld (fProt_CE_COUNT st) :=
        hctl _ (by simp [fProt_CE_COUNT, fProt_INNER_CNT, Fld.key])
      have hstk : ((s.settled line [x]).countInner line).stk st = s.stk st := by rw [State.stk, hs]; rfl
      have hdir' : (((s.settled line [x]).countInner line).dir line).mod = false := by rw [State.dir, hm]; exact hdir
      obtain ⟨c1, c2, c3⟩ := State.corrected_one (z := (s.settled line [x]).countInner line) hst hoff hx hdir' harm' (by rw [hlthr]; exact hlt)
        (by rw [hstk, hlthr]; exact hlane) (by rw [hstk, hrthr]; exact hrow)
      have hfin : ∀ (z : State) (f : Fld), f.key ≠ (fScrub_POS st).key → (z.setFld (fScrub_POS st) (pos + 1)).fld f = z.fld f := fun z f hf =>
        State.fld_setFld_apart _ _ (fScrub_POS_ok _) (by simp [Fld.apart, Ne.symm hf])
      refine Completes.of hrd ⟨c1, c2.trans hd, hpos64 _, ?_, ?_, ?_⟩
      · rw [hfin _ _ (by simp [fProt_CE_COUNT, fScrub_POS, Fld.key]; omega), State.fld_congr c3, State.ceLogged_count, hce]
      · rw [hfin _ _ (by simp [fProt_CE_LANE, fScrub_POS, Fld.key]; omega), State.fld_congr c3, State.ceLogged_lane _ _ _ (by omega)]
      · rw [State.flag, hfin _ _ (by simp [fErr_CE, protPage, fScrub_POS, Fld.key]; omega), State.fld_congr c3]
        exact State.ceLogged_flagged ..

end Sys2Proof.Machine
end

section
/-! Queries, attestation, sealing, authorisation records and debug (spec 15, 17). -/
namespace Sys2Proof.Machine

/-! ### Answers of the mailbox (R356, Tables 15.5 to 15.9) -/

/-- A field lies beyond the part before it. -/
theorem fieldLE_skip {a : List Byte} {k : Nat} (ha : a.length = k) (l : List Byte) {o : Nat} (ho : k ≤ o) (w : Nat) :
    fieldLE (a ++ l) o w = fieldLE l (o - k) w := by
  obtain ⟨d, rfl⟩ := Nat.exists_eq_add_of_le ho
  subst ha
  simp only [fieldLE, sliceB, Nat.add_sub_cancel_left]
  refine congrArg leNat (List.map_congr_left fun i _ => ?_)
  rw [Nat.add_assoc, List.getD_append_right _ _ _ _ (by omega), Nat.add_sub_cancel_left]

theorem fieldLE_head (n v : Nat) (l : List Byte) : fieldLE (natLE n v ++ l) 0 n = v % 256 ^ n := fieldLE_natLE_at [] l n v

/-- A field written among others, read at its place. -/
theorem fieldLE_at {l pre post : List Byte} {n v o : Nat} (hl : l = pre ++ (natLE n v ++ post)) (ho : pre.length = o) (hv : v < 256 ^ n) :
    fieldLE l o n = v := by
  rw [hl, ← ho, fieldLE_natLE_at, Nat.mod_eq_of_lt hv]

/-- A part among others, read at its place. -/
theorem sliceB_at {pre m post : List Byte} {o w : Nat} (ho : pre.length = o) (hw : m.length = w) : sliceB (pre ++ (m ++ post)) o w = m := by
  rw [← ho, ← hw, sliceB_append_right, sliceB_append_left _ _ (by omega), sliceB_whole]

/-- A list of parts of one length, read at the `i`-th. -/
theorem flatMap_split {α : Type} (f : α → List Byte) {n : Nat} (l : List α) (hn : ∀ x ∈ l, (f x).length = n) {i : Nat} (hi : i < l.length) :
    ∃ pre post, l.flatMap f = pre ++ (f l[i] ++ post) ∧ pre.length = n * i := by
  refine ⟨(l.take i).flatMap f, (l.drop (i + 1)).flatMap f, ?_, ?_⟩
  · conv_lhs => rw [← List.take_append_drop i l, List.flatMap_append, List.drop_eq_getElem_cons hi, List.flatMap_cons]
  · rw [List.length_flatMap, List.map_congr_left (g := fun _ => n) fun x hx => hn x (List.mem_of_mem_take hx), List.map_const',
      List.sum_replicate, List.length_take, Nat.min_eq_left hi.le, smul_eq_mul, Nat.mul_comm]

theorem barBytes_length (s : State) (k n : Nat) : (s.barBytes k n).length = n := by simp [State.barBytes]

/-- What a query leaves: registers, memory, logs, threads and the answers before it. -/
def State.SameQueried (v s : State) : Prop :=
  v.regs = s.regs ∧ v.dram = s.dram ∧ v.bar2 = s.bar2 ∧ v.logs = s.logs ∧ v.thr = s.thr ∧ v.answers = s.answers

/-- A query's answer: its code, its bytes, and nothing else changed. -/
def State.Gives (s : State) (ag : Agent) (c : Instr) (code : Nat) (out : List Byte → Prop) : Prop :=
  ∃ (o : List Byte) (v : State), exec c s = .next (v.reply ag code o) ∧ out o ∧ v.SameQueried s

section Queries
variable {s : State} {ag : Agent} (h : s.mboxUp ag = true)
include h

theorem State.gives_of_mbox {c : Instr} {f : State → Nat × List Byte × State} (he : exec c s = .next (s.mbox ag f)) {out : List Byte → Prop}
    (ho : out (f s).2.1) (hv : (f s).2.2.SameQueried s) : s.Gives ag c (f s).1 out :=
  ⟨_, _, by rw [he, State.mbox, if_pos h], ho, hv⟩

theorem gives_getEventRecords (log : Fin 4) : s.Gives ag (.getEventRecords ag log) 0 fun o =>
    fieldLE o 0 2 = (if (s.evLog log).overflow = 0 then 0 else 1) + (if 31 < (s.evLog log).recs.length then 2 else 0) ∧
    fieldLE o 2 2 = min (s.evLog log).overflow 65535 ∧ fieldLE o 20 2 = min 31 (s.evLog log).recs.length ∧
    o.drop 32 = ((s.evLog log).recs.take 31).flatMap EvRec.bytes := by
  refine State.gives_of_mbox h (c := .getEventRecords ag log) rfl ?_ ⟨rfl, rfl, rfl, rfl, rfl, rfl⟩
  generalize ht : (if (s.evLog log).overflow = 0 then natLE 16 0
    else natLE 8 (Config.elapsed s.fresh).toNat ++ natLE 8 (Config.elapsed (s.fresh + 1)).toNat) = times
  have htimes : times.length = 16 := by rw [← ht]; split <;> simp
  dsimp only
  rw [ht, List.length_take]
  generalize (s.evLog log).recs = recs
  simp only [List.append_assoc]
  refine ⟨?_, ?_, ?_, ?_⟩
  · rw [fieldLE_head, Nat.mod_eq_of_lt]
    split <;> split <;> decide
  · rw [fieldLE_skip (natLE_length ..) _ (by decide), fieldLE_head, Nat.mod_eq_of_lt (by omega)]
  · rw [fieldLE_skip (natLE_length ..) _ (by decide), fieldLE_skip (natLE_length ..) _ (by decide), fieldLE_skip htimes _ (by decide),
      fieldLE_head, Nat.mod_eq_of_lt (by omega)]
  · simp only [← List.append_assoc]
    exact List.drop_left' (by simp [htimes])

theorem gives_getEventInterruptPolicy : s.Gives ag (.getEventInterruptPolicy ag) 0 fun o => o.length = 4 ∧
    ∀ n < 4, s.evVector n ≤ 4 → fieldLE o n 1 = if s.evVector n = 0 then 0 else 1 + 16 * s.evVector n := by
  refine State.gives_of_mbox h (c := .getEventInterruptPolicy ag) rfl ?_ ⟨rfl, rfl, rfl, rfl, rfl, rfl⟩
  dsimp only
  refine ⟨by simp, fun n hn hv => ?_⟩
  obtain ⟨pre, post, hl, hp⟩ := flatMap_split (fun n => natLE 1 (if s.evVector n = 0 then 0 else 1 + 16 * s.evVector n)) (n := 1)
    [0, 1, 2, 3] (fun _ _ => natLE_length ..) (i := n) hn
  have hget : ([0, 1, 2, 3] : List Nat)[n] = n := by interval_cases n <;> rfl
  rw [hget] at hl
  refine fieldLE_at hl (by omega) ?_
  split <;> omega

theorem gives_getFwInfo : s.Gives ag (.getFwInfo ag) 0 fun o => fieldLE o 0 1 = 2 ∧ o.length = 80 ∧
    (s.fld fBoot_SLOT_PREF = s.fld fBoot_SLOT → fieldLE o 1 1 = s.fld fBoot_SLOT + 1) := by
  refine State.gives_of_mbox h (c := .getFwInfo ag) rfl ?_ ⟨rfl, rfl, rfl, rfl, rfl, rfl⟩
  dsimp only
  have hslot : s.fld fBoot_SLOT < 2 := s.fld_lt fBoot_SLOT
  simp only [List.append_assoc]
  refine ⟨?_, by simp, fun hp => ?_⟩
  · exact (fieldLE_head ..).trans (by decide)
  · rw [fieldLE_skip (natLE_length ..) _ (by decide), fieldLE_head, if_pos hp, Nat.add_zero, Nat.mod_eq_of_lt (by omega)]

omit h in
theorem opcodesOf_lt (ag : Agent) : ∀ c ∈ opcodesOf ag, c < 65536 := by
  have hall : ∀ c ∈ opcodes, c < 65536 := by decide
  unfold opcodesOf
  split
  · exact fun c hc => hall c (List.mem_of_mem_filter hc)
  · exact hall

theorem gives_getLog : s.Gives ag (.getLog ag) 0 fun o => o.length = 4 * (opcodesOf ag).length ∧
    ∀ i < (opcodesOf ag).length, fieldLE o (4 * i) 2 = (opcodesOf ag).getD i 0 := by
  refine State.gives_of_mbox h (c := .getLog ag) rfl ?_ ⟨rfl, rfl, rfl, rfl, rfl, rfl⟩
  dsimp only
  refine ⟨by simp [List.length_flatMap, Nat.mul_comm], fun i hi => ?_⟩
  obtain ⟨pre, post, hl, hp⟩ := flatMap_split (fun c => natLE 2 c ++ natLE 2 (Config.effects c).toNat) (n := 4) (opcodesOf ag)
    (fun _ _ => by simp) hi
  rw [List.append_assoc (natLE 2 _)] at hl
  rw [List.getD_eq_getElem _ _ hi]
  exact fieldLE_at hl hp (opcodesOf_lt ag _ (List.getElem_mem hi))

omit h in
theorem State.hdmBytes_lt (s : State) : s.hdmBytes < 2 ^ 40 := by
  unfold State.hdmBytes
  omega

theorem gives_identifyMemoryDevice : s.Gives ag (.identifyMemoryDevice ag) 0 fun o =>
    fieldLE o 16 8 = s.hdmBytes / 2 ^ 28 ∧ fieldLE o 24 8 = s.hdmBytes / 2 ^ 28 ∧ fieldLE o 32 8 = 0 := by
  refine State.gives_of_mbox h (c := .identifyMemoryDevice ag) rfl ?_ ⟨rfl, rfl, rfl, rfl, rfl, rfl⟩
  dsimp only
  have hlt : s.hdmBytes / 2 ^ 28 < 256 ^ 8 := (Nat.div_le_self ..).trans_lt (lt_trans s.hdmBytes_lt (by decide))
  generalize s.hdmBytes / 2 ^ 28 = hb at hlt
  have hfree : ((List.range 16).map fun i => Config.freeByte (s.fresh + i)).length = 16 := by simp
  simp only [List.append_assoc]
  refine ⟨?_, ?_, ?_⟩
  · rw [fieldLE_skip hfree _ (by decide), fieldLE_head, Nat.mod_eq_of_lt hlt]
  · rw [fieldLE_skip hfree _ (by decide), fieldLE_skip (natLE_length ..) _ (by decide), fieldLE_head, Nat.mod_eq_of_lt hlt]
  · rw [fieldLE_skip hfree _ (by decide), fieldLE_skip (natLE_length ..) _ (by decide), fieldLE_skip (natLE_length ..) _ (by decide), fieldLE_head]
    decide

theorem gives_getPackageInfo : s.Gives ag (.getPackageInfo ag) 0 fun o => o.length = 15 ∧ fieldLE o 0 2 = 0x0100 ∧ fieldLE o 2 2 = s.pkgId ∧
    fieldLE o 6 8 = s.hdmBytes ∧ fieldLE o 14 1 = s.fld fBoot_STAGE := by
  refine State.gives_of_mbox h (c := .getPackageInfo ag) rfl ?_ ⟨rfl, rfl, rfl, rfl, rfl, rfl⟩
  dsimp only
  have hpkg : s.pkgId < 256 ^ 2 := s.fld_lt fPkg_PKG_ID_APPLIED
  have hstage : s.fld fBoot_STAGE < 256 ^ 1 := lt_trans (s.fld_lt fBoot_STAGE) (by decide)
  have hhdm : s.hdmBytes < 256 ^ 8 := lt_trans s.hdmBytes_lt (by decide)
  simp only [List.append_assoc]
  refine ⟨by simp, ?_, ?_, ?_, ?_⟩
  · exact (fieldLE_head ..).trans (by decide)
  · rw [fieldLE_skip (natLE_length ..) _ (by decide), fieldLE_head, Nat.mod_eq_of_lt hpkg]
  · rw [fieldLE_skip (natLE_length ..) _ (by decide), fieldLE_skip (natLE_length ..) _ (by decide), fieldLE_skip (natLE_length ..) _ (by decide),
      fieldLE_skip (natLE_length ..) _ (by decide), fieldLE_head, Nat.mod_eq_of_lt hhdm]
  · rw [fieldLE_skip (natLE_length ..) _ (by decide), fieldLE_skip (natLE_length ..) _ (by decide), fieldLE_skip (natLE_length ..) _ (by decide),
      fieldLE_skip (natLE_length ..) _ (by decide), fieldLE_skip (natLE_length ..) _ (by decide)]
    exact fieldLE_at (pre := []) (post := []) (List.append_nil _).symm rfl hstage

/-- The numbers of the records that a query of the fault log gives. -/
def State.faultSeqs (s : State) (p : Nat) : List Nat :=
  (List.range (min 63 (s.retained - p))).map fun i => s.fld fSafe_LOG_SEQ + 1 - s.retained + p + i

/-- The fault log's answer from the `p`-th retained record on. -/
def State.faultLog (s : State) (p : Nat) : List Byte :=
  natLE 2 (s.faultSeqs p).length ++ natLE 2 s.retained ++ natLE 4 0 ++ (s.faultSeqs p).flatMap fun q => s.barBytes (faultSlot q) 64

omit h in
theorem State.faultSeqs_length (s : State) (p : Nat) : (s.faultSeqs p).length = min 63 (s.retained - p) := by simp [State.faultSeqs]

omit h in
theorem State.faultLog_fields (s : State) (p : Nat) : fieldLE (s.faultLog p) 0 2 = min 63 (s.retained - p) ∧
    fieldLE (s.faultLog p) 2 2 = s.retained ∧ ∀ i < min 63 (s.retained - p),
      sliceB (s.faultLog p) (8 + 64 * i) 64 = s.barBytes (faultSlot (s.fld fSafe_LOG_SEQ + 1 - s.retained + p + i)) 64 := by
  have hret : s.retained ≤ 512 := Nat.min_le_left ..
  unfold State.faultLog
  rw [State.faultSeqs_length]
  refine ⟨?_, ?_, fun i hi => ?_⟩
  · simp only [List.append_assoc]
    rw [fieldLE_head, Nat.mod_eq_of_lt (by omega)]
  · simp only [List.append_assoc]
    rw [fieldLE_skip (natLE_length ..) _ (by decide), fieldLE_head, Nat.mod_eq_of_lt (by omega)]
  · obtain ⟨pre, post, hl, hp⟩ := flatMap_split (fun q => s.barBytes (faultSlot q) 64) (n := 64) (s.faultSeqs p)
      (fun _ _ => barBytes_length ..) (i := i) (by rw [State.faultSeqs_length]; exact hi)
    have hget : (s.faultSeqs p)[i]'(by rw [State.faultSeqs_length]; exact hi) = s.fld fSafe_LOG_SEQ + 1 - s.retained + p + i := by
      simp [State.faultSeqs]
    rw [hl, hget, ← List.append_assoc]
    exact sliceB_at (by simp [hp]; ring) (barBytes_length ..)

theorem gives_getFaultLog {p : Nat} (hp : p ≤ s.retained) : s.Gives ag (.getFaultLog ag p) 0 fun o =>
    fieldLE o 0 2 = min 63 (s.retained - p) ∧ fieldLE o 2 2 = s.retained ∧ ∀ i < min 63 (s.retained - p),
      sliceB o (8 + 64 * i) 64 = s.barBytes (faultSlot (s.fld fSafe_LOG_SEQ + 1 - s.retained + p + i)) 64 := by
  have he : exec (.getFaultLog ag p) s = execGetFaultLog ag p s := rfl
  refine ⟨s.faultLog p, { s with saf := { s.saf with read := (s.saf.read.filter fun q =>
    decide (s.fld fSafe_LOG_SEQ + 1 - s.retained ≤ q) && !(s.faultSeqs p).contains q) ++ s.faultSeqs p } }, ?_, s.faultLog_fields p,
    rfl, rfl, rfl, rfl, rfl, rfl⟩
  rw [he, execGetFaultLog, State.mbox, if_pos h]
  dsimp only
  rw [if_neg (by omega)]
  rfl

end Queries

/-- Settles O47: each query's answer, read field by field, and what the query leaves alone. -/
theorem mailboxQueriesAnswer : Obligations.MailboxQueriesAnswer := by
  unfold Obligations.MailboxQueriesAnswer
  intro s ag h
  refine ⟨gives_getEventRecords h, gives_getEventInterruptPolicy h, gives_getFwInfo h, ?_, ?_, gives_getLog h, gives_identifyMemoryDevice h, ?_,
    gives_getPackageInfo h, fun st first => ?_, fun p hp => gives_getFaultLog h hp, fun p hp => ?_, fun op hop => ?_⟩
  · exact State.gives_of_mbox h (c := .getTimestamp ag) rfl ⟨Config.elapsed s.fresh, rfl⟩ ⟨rfl, rfl, rfl, rfl, rfl, rfl⟩
  · exact State.gives_of_mbox h (c := .getSupportedLogs ag) rfl rfl ⟨rfl, rfl, rfl, rfl, rfl, rfl⟩
  · exact State.gives_of_mbox h (c := .getHealthInfo ag) rfl (by simp) ⟨rfl, rfl, rfl, rfl, rfl, rfl⟩
  · exact State.gives_of_mbox h (c := .getRepairRecord ag st first) rfl rfl ⟨rfl, rfl, rfl, rfl, rfl, rfl⟩
  · exact exec_of_mbox h (c := .getFaultLog ag p) rfl (if_pos hp)
  · have he : exec (.unsupportedCommand ag op) s = execUnsupportedCommand ag op s := rfl
    rw [he, execUnsupportedCommand, if_neg (by simpa using hop), State.mbox, if_pos h]
    rfl

/-! ### Attestation and sealing (R415 to R419) -/

theorem gcmApply_length (key : List Byte) (iv : BitVec 96) (data : List Byte) : (gcmApply key iv data).length = data.length := by simp [gcmApply]

/-- The same key stream twice gives the data back. -/
theorem gcmApply_gcmApply (key : List Byte) (iv : BitVec 96) (data : List Byte) : gcmApply key iv (gcmApply key iv data) = data := by
  refine List.ext_getElem (by simp [gcmApply_length]) fun i hi hi' => ?_
  have hlt : i < (gcmApply key iv data).length := by rwa [gcmApply_length]
  simp only [gcmApply, List.getElem_map, List.getElem_range]
  rw [List.getD_eq_getElem _ _ (by simpa using hi')]
  simp only [List.getElem_map, List.getElem_range, List.getD_eq_getElem _ _ hi']
  rw [BitVec.xor_assoc, BitVec.xor_self, BitVec.xor_zero]

theorem blobHead_length (n : Nat) (label : List Byte) (iv : BitVec 96) : (blobHead n label iv).length = 32 := by
  simp [blobHead]

/-- A sealed blob: head, ciphertext, tag. -/
def sealedBlob (key : List Byte) (iv : BitVec 96) (label data : List Byte) : List Byte :=
  blobHead data.length label iv ++ gcmApply key iv data ++
    natLE 16 (Config.gcmTag key iv (blobHead data.length label iv) (gcmApply key iv data)).toNat

section Blob
variable (key : List Byte) (iv : BitVec 96) (label data : List Byte)

theorem sealedBlob_length : (sealedBlob key iv label data).length = 48 + data.length := by
  simp only [sealedBlob, List.length_append, blobHead_length, gcmApply_length, natLE_length]
  omega

/-- The head of a blob, field by field. -/
theorem sealedBlob_head (hn : data.length < 65536) : fieldLE (sealedBlob key iv label data) 2 2 = data.length ∧
    fieldLE (sealedBlob key iv label data) 4 4 = 0 ∧ fieldLE (sealedBlob key iv label data) 28 4 = 0 ∧
    fieldLE (sealedBlob key iv label data) 16 12 = iv.toNat ∧
    sliceB (sealedBlob key iv label data) 8 8 = (label ++ List.replicate 8 0).take 8 := by
  have hlabel : ((label ++ List.replicate 8 0).take 8).length = 8 := by simp
  have hiv : iv.toNat < 256 ^ 12 := iv.isLt
  simp only [sealedBlob, blobHead, List.append_assoc]
  generalize (label ++ List.replicate 8 0).take 8 = lab at hlabel
  generalize (Config.gcmTag key iv _ _).toNat = tag
  refine ⟨?_, ?_, ?_, ?_, ?_⟩
  · rw [fieldLE_skip (natLE_length ..) _ (by decide), fieldLE_head, Nat.mod_eq_of_lt (by omega)]
  · rw [fieldLE_skip (natLE_length ..) _ (by decide), fieldLE_skip (natLE_length ..) _ (by decide), fieldLE_head]
    decide
  · rw [fieldLE_skip (natLE_length ..) _ (by decide), fieldLE_skip (natLE_length ..) _ (by decide), fieldLE_skip (natLE_length ..) _ (by decide),
      fieldLE_skip hlabel _ (by decide), fieldLE_skip (natLE_length ..) _ (by decide), fieldLE_head]
    decide
  · rw [fieldLE_skip (natLE_length ..) _ (by decide), fieldLE_skip (natLE_length ..) _ (by decide), fieldLE_skip (natLE_length ..) _ (by decide),
      fieldLE_skip hlabel _ (by decide), fieldLE_head, Nat.mod_eq_of_lt hiv]
  · have hsplit : ∀ rest : List Byte, natLE 2 1 ++ (natLE 2 data.length ++ (natLE 4 0 ++ (lab ++ rest))) =
        (natLE 2 1 ++ natLE 2 data.length ++ natLE 4 0) ++ (lab ++ rest) := fun rest => by simp only [List.append_assoc]
    rw [hsplit]
    exact sliceB_at (by simp) hlabel

/-- The head, the ciphertext and the tag of a blob. -/
theorem sealedBlob_parts : sliceB (sealedBlob key iv label data) 0 32 = blobHead data.length label iv ∧
    sliceB (sealedBlob key iv label data) 32 data.length = gcmApply key iv data ∧
    fieldLE (sealedBlob key iv label data) (32 + data.length) 16 =
      (Config.gcmTag key iv (blobHead data.length label iv) (gcmApply key iv data)).toNat := by
  have hh := blobHead_length data.length label iv
  have hc := gcmApply_length key iv data
  have htag := (Config.gcmTag key iv (blobHead data.length label iv) (gcmApply key iv data)).isLt
  unfold sealedBlob
  generalize blobHead data.length label iv = head at *
  generalize gcmApply key iv data = ct at *
  refine ⟨?_, ?_, ?_⟩
  · rw [List.append_assoc]
    exact sliceB_at (pre := []) rfl hh
  · rw [List.append_assoc]
    exact sliceB_at hh hc
  · exact fieldLE_at (pre := head ++ ct) (post := []) (by rw [List.append_nil]) (by simp [hh, hc]) htag

theorem sealedBlob_good (hd : data ≠ []) (hn : data.length ≤ 4032) : blobBad (sealedBlob key iv label data) = false := by
  obtain ⟨h1, h2, h3, -, -⟩ := sealedBlob_head key iv label data (by omega)
  have hpos : data.length ≠ 0 := fun h => hd (List.length_eq_zero_iff.mp h)
  rw [blobBad, h1, h2, h3, sealedBlob_length]
  simp only [bne_self_eq_false, Bool.or_false, Bool.or_eq_false_iff, decide_eq_false_iff_not, beq_eq_false_iff_ne]
  omega

end Blob

section Seal
variable {s : State} {ag : Agent} (h : s.mboxUp ag = true)
include h

/-- SEAL of data that it takes. -/
theorem exec_sealBlob {data : List Byte} (hd : data ≠ []) (hn : data.length ≤ 4032) (hs : s.noSeal = false) (label : List Byte) :
    exec (.sealBlob ag label data) s = .next (s.draw.2.reply ag 0
      (natLE 4 0 ++ sealedBlob s.sealKey ((Config.entropy s.fresh).setWidth 96) label data)) := by
  have hpos : data.length ≠ 0 := fun h => hd (List.length_eq_zero_iff.mp h)
  have he : exec (.sealBlob ag label data) s = execSealBlob ag label data s := rfl
  rw [he, execSealBlob, State.mbox, if_pos h]
  dsimp only
  rw [if_neg (by omega), hs, if_neg Bool.false_ne_true]
  rfl

/-- UNSEAL of a blob that SEAL gave under the same key. -/
theorem exec_unsealBlob_sealed {data : List Byte} (hd : data ≠ []) (hn : data.length ≤ 4032) (hs : s.noSeal = false)
    (hdbg : s.fld fSec_DBG ≠ 1) (iv : BitVec 96) (label : List Byte) :
    exec (.unsealBlob ag (sealedBlob s.sealKey iv label data)) s = .next (s.reply ag 0 (natLE 4 0 ++ data)) := by
  obtain ⟨h1, -, -, h4, -⟩ := sealedBlob_head s.sealKey iv label data (by omega)
  obtain ⟨p1, p2, p3⟩ := sealedBlob_parts s.sealKey iv label data
  have he : exec (.unsealBlob ag (sealedBlob s.sealKey iv label data)) s = execUnsealBlob ag (sealedBlob s.sealKey iv label data) s := rfl
  have hiv : BitVec.ofNat 96 iv.toNat = iv := BitVec.ofNat_toNat ..
  rw [he, execUnsealBlob, State.mbox, if_pos h]
  dsimp only
  rw [h1, h4, p1, p2, p3, sealedBlob_good _ _ _ _ hd hn, if_neg Bool.false_ne_true, hs, if_neg (by simp [hdbg]), hiv,
    if_neg (not_not.mpr rfl), gcmApply_gcmApply]
  rfl

end Seal

/-- Settles O49: measurements and sessions, and that a blob opens to its data or to the code of its first failed check. -/
theorem attestationAndSealingAnswer : Obligations.AttestationAndSealingAnswer := by
  unfold Obligations.AttestationAndSealingAnswer
  intro s ag h
  have hm : exec (.spdmGetMeasurements ag) s = execSpdmGetMeasurements ag s := rfl
  have hk : exec (.spdmKeyExchange ag) s = execSpdmKeyExchange ag s := rfl
  refine ⟨fun hlc => ?_, fun hlc => ?_, fun label data => ⟨fun hd => ?_, fun hd hn hs => ?_, fun hd hn hs => ?_⟩,
    fun blob => ⟨fun hb => ?_, fun hb hs => ?_, fun hb hs hdbg htag => ?_⟩⟩
  · have hup : s.spdmUp ag = true := by simp [State.spdmUp, h, hlc]
    rw [hm, hk, execSpdmGetMeasurements, execSpdmKeyExchange, if_pos hup, if_pos hup]
    refine ⟨rfl, fun hn => ?_, fun hn => ?_⟩
    · refine Completes.of (hk.trans ?_) (u := ((s.addSession ag).syncSessions).spdm ag 0x64 []) ?_
      · rw [execSpdmKeyExchange, if_pos hup, if_neg (by omega)]
      · have hfld : (((s.addSession ag).syncSessions).spdm ag 0x64 []).fld fSec_SESSIONS =
            ((s.addSession ag).sec.mctpSess + (s.addSession ag).sec.doeSess) % 2 ^ fSec_SESSIONS.w :=
          State.fld_setFld_same _ _ rfl
        rw [hfld]
        unfold State.sessionsOf State.addSession
        by_cases hag : ag = .host
        · simp only [if_pos hag]
          exact ⟨rfl, rfl⟩
        · simp only [if_neg hag]
          exact ⟨rfl, congrArg (· % 2 ^ fSec_SESSIONS.w) (Nat.add_right_comm ..)⟩
    · rw [if_pos hn]
      rfl
  · have hup : ¬s.spdmUp ag = true := by simp [State.spdmUp, hlc]
    rw [hm, hk, execSpdmGetMeasurements, execSpdmKeyExchange, if_neg hup, if_neg hup]
    exact ⟨rfl, rfl⟩
  · refine exec_of_mbox h (c := .sealBlob ag label data) rfl (if_pos ?_)
    simpa [List.length_eq_zero_iff] using hd
  · have hpos : data.length ≠ 0 := fun h => hd (List.length_eq_zero_iff.mp h)
    exact exec_of_mbox h (c := .sealBlob ag label data) rfl ((if_neg (by omega)).trans (if_pos hs))
  · obtain ⟨h1, -, -, -, h5⟩ := sealedBlob_head s.sealKey ((Config.entropy s.fresh).setWidth 96) label data (by omega)
    refine ⟨_, _, exec_sealBlob h hd hn hs label, rfl, rfl, sealedBlob_length .., h1, h5, fun hdbg w hw hr hsec => ?_⟩
    have hkey : w.sealKey = s.sealKey := by simp only [State.sealKey, State.cdi, hsec, State.fld_congr hr]
    rw [← hkey]
    exact exec_unsealBlob_sealed hw hd hn (by rw [State.noSeal, State.fld_congr hr]; exact hs) (by rw [State.fld_congr hr]; exact hdbg) _ label
  · exact exec_of_mbox h (c := .unsealBlob ag blob) rfl (if_pos hb)
  · exact exec_of_mbox h (c := .unsealBlob ag blob) rfl ((if_neg (by simp [hb])).trans (if_pos hs))
  · exact exec_of_mbox h (c := .unsealBlob ag blob) rfl
      ((if_neg (by simp [hb])).trans ((if_neg (by simp [hs, hdbg])).trans (if_pos htag)))

/-! ### Authorisation records and debug (R420 to R426) -/

/-- The state with the part of a record gathered: nothing but the record changes. -/
def State.gathered (s : State) (b : List Byte) : State := { s with sec := { s.sec with record := b, recBad := false } }

section Record
variable {s : State} {ag : Agent} (h : s.mboxUp ag = true) {off : Nat} {data : List Byte} (hlen : data.length ≤ 4000)
  (hoff : off = 0 ∨ (off = s.sec.record.length ∧ s.sec.recBad = false))
include h hlen hoff

/-- A part of a record where one is expected. -/
theorem exec_submitRecord (last : Bool) : exec (.submitRecord ag off last data) s = .next (s.mbox ag fun _ =>
    if !last then (rcOk, [0], s.gathered ((if off = 0 then [] else s.sec.record) ++ data))
    else if (s.gathered ((if off = 0 then [] else s.sec.record) ++ data)).authCode ((if off = 0 then [] else s.sec.record) ++ data) ag ≠ 0 then
      (s.gathered ((if off = 0 then [] else s.sec.record) ++ data)).authRefuse
        ((s.gathered ((if off = 0 then [] else s.sec.record) ++ data)).authCode ((if off = 0 then [] else s.sec.record) ++ data) ag)
    else ({ s with sec := { s.sec with nonce := none, record := [], recBad := false } } : State).authAct
      (authOf ((if off = 0 then [] else s.sec.record) ++ data))) := by
  have hbad : ((off != 0 && s.sec.recBad) || off != (if off = 0 then [] else s.sec.record).length || decide (4000 < data.length)) = false := by
    rw [decide_eq_false (by omega), Bool.or_false]
    rcases hoff with rfl | ⟨hoff, hb⟩
    · simp
    · rw [hb, Bool.and_false, Bool.false_or]
      split
      · next h0 => simp [h0]
      · simp [hoff]
  have he : exec (.submitRecord ag off last data) s = execSubmitRecord ag off last data s := rfl
  rw [he, execSubmitRecord, State.mbox, State.mbox, if_pos h, if_pos h]
  dsimp only
  rw [hbad]
  rfl

/-- A record refused with a code: what the refusal leaves. -/
theorem submitRecord_refused {code : Nat} (hc : (s.gathered ((if off = 0 then [] else s.sec.record) ++ data)).authCode
      ((if off = 0 then [] else s.sec.record) ++ data) ag = code) (h0 : code ≠ 0) (h8 : code < 256) :
    ∃ v : State, exec (.submitRecord ag off true data) s = .next (v.reply ag 2 (natLE 1 code)) ∧
      v.fld fSec_LAST_CODE = code ∧ v.fld fSec_REC_FAIL = min (s.fld fSec_REC_FAIL + 1) (2 ^ fSec_REC_FAIL.w - 1) ∧ v.sec.nonce = none ∧
      v.sec.record = [] ∧ v.fld fSec_DBG = s.fld fSec_DBG := by
  generalize hb : (if off = 0 then [] else s.sec.record) ++ data = b at hc
  have hrun := exec_submitRecord h hlen hoff true
  rw [hb, hc, State.mbox, if_pos h] at hrun
  generalize hy : ((s.gathered b).addSat fSec_REC_FAIL 1).setFld fSec_LAST_CODE code = y at *
  have hreg : ∀ f, (s.gathered b).fld f = s.fld f := fun _ => rfl
  have hfail : y.fld fSec_REC_FAIL = min (s.fld fSec_REC_FAIL + 1) (2 ^ fSec_REC_FAIL.w - 1) := by
    rw [← hy, State.fld_setFld_apart _ _ rfl (by decide), State.addSat, State.fld_setFld_same _ _ rfl, hreg]
    exact Nat.mod_eq_of_lt (lt_of_le_of_lt (Nat.min_le_right ..) (by decide))
  have hcode : y.fld fSec_LAST_CODE = code := by
    rw [← hy, State.fld_setFld_same _ _ rfl]
    exact Nat.mod_eq_of_lt h8
  have hdbg : y.fld fSec_DBG = s.fld fSec_DBG := by
    rw [← hy, State.fld_setFld_apart _ _ rfl (by decide), State.addSat, State.fld_setFld_apart _ _ rfl (by decide), hreg]
  refine ⟨{ y with sec := { y.sec with nonce := none, record := [], recBad := false } }, hrun.trans ?_, hcode, hfail, rfl, rfl, hdbg⟩
  rw [if_neg (by simp), if_pos h0, State.authRefuse]
  dsimp only
  rw [hy]
  rfl

/-- A debug record that passes opens the session. -/
theorem submitRecord_debug (hc : (s.gathered ((if off = 0 then [] else s.sec.record) ++ data)).authCode
      ((if off = 0 then [] else s.sec.record) ++ data) ag = 0) {r : AuthRec} (hr : authOf ((if off = 0 then [] else s.sec.record) ++ data) = r)
      (hk : r.kind = 1) :
    ∃ v : State, exec (.submitRecord ag off true data) s = .next (v.reply ag 0 [0]) ∧ v.fld fSec_DBG = 1 ∧ v.fld fSec_SCOPE = r.arg % 8 ∧
      v.sec.nonce = none ∧ v.sec.record = [] ∧ v.sec.lifetime = (r.arg / 65536 != 0) := by
  have hrun := exec_submitRecord h hlen hoff true
  rw [hc, hr, State.mbox, if_pos h] at hrun
  generalize hz : ({ s with sec := { s.sec with nonce := none, record := [], recBad := false } } : State) = z at hrun
  have hsec : z.sec.nonce = none ∧ z.sec.record = [] := by rw [← hz]; exact ⟨rfl, rfl⟩
  have hopen : (z.openDebug r.arg).regs = (((z.setFld fSec_DBG 1).setFld fSec_SCOPE (r.arg % 8)).addSat fSec_UNLOCKS 1).regs :=
    State.event_regs ..
  have hevent : ((((z.setFld fSec_DBG 1).setFld fSec_SCOPE (r.arg % 8)).addSat fSec_UNLOCKS 1).event logWarn .debug (BitVec.ofNat 64 r.arg) 0 []).sec =
      z.sec := (State.event_frame ..).2.1
  refine ⟨z.openDebug r.arg, hrun.trans ?_, ?_, ?_, ?_, ?_, rfl⟩
  · rw [if_neg (by simp), if_neg (by simp), State.authAct, hk]
    rfl
  · rw [State.fld_congr hopen, State.addSat, State.fld_setFld_apart _ _ rfl (by decide), State.fld_setFld_apart _ _ rfl (by decide), State.fld_setFld_same _ _ rfl]
    rfl
  · rw [State.fld_congr hopen, State.addSat, State.fld_setFld_apart _ _ rfl (by decide), State.fld_setFld_same _ _ rfl]
    exact Nat.mod_eq_of_lt (Nat.mod_lt _ (by decide))
  · exact (congrArg SecSt.nonce hevent).trans hsec.1
  · exact (congrArg SecSt.record hevent).trans hsec.2

end Record

/-- A gathered record's checks, in their order. -/
theorem State.authCode_gathered (s : State) (b : List Byte) (ag : Agent) : (s.gathered b).authCode b ag =
    if authBad b then 1
    else if (authOf b).serial ≠ s.fld fSec_SERIAL_LO + 2 ^ 64 * s.fld fSec_SERIAL_HI then 2
    else if s.sec.nonce ≠ some (authOf b).nonce then 3
    else if !s.authAllowed (authOf b) ag then 4
    else if !s.authSigned (authOf b) then 5
    else if s.authStateBad (authOf b) then 6
    else if (authOf b).kind = 3 ∧ s.svnBad ((authOf b).arg % 256) then 7
    else 0 := by
  have hbad : ((s.gathered b).sec.recBad = true ∨ authBad b = true) ↔ authBad b = true := by simp [State.gathered]
  rw [State.authCode]
  simp only [hbad]
  rfl

/-- The end of an open session on an unfused part. -/
theorem State.endDebug_fields {s : State} (hd : s.fld fSec_DBG = 1) (hf : s.flag fSec_DBG_FUSE = false) (h0 : s.fld fSec_LC ≠ 0)
    (h3 : s.fld fSec_LC ≠ 3) : s.endDebug.fld fSec_DBG = 0 ∧ s.endDebug.fld fSec_SCOPE = 0 ∧ s.endDebug.sec.halted = [] := by
  have hcode : (if s.fld fSec_LC = 3 ∨ s.flag fSec_DBG_FUSE = true then 2 else if s.fld fSec_LC = 0 then 1 else 0) = 0 := by
    rw [if_neg (by simp [h3, hf]), if_neg h0]
  have hregs : s.endDebug.regs = ((s.setFld fSec_DBG 0).setFld fSec_SCOPE 0).regs := by
    rw [State.endDebug, if_pos hd, State.closeDebug]
    dsimp only
    rw [hcode]
    rfl
  refine ⟨?_, ?_, ?_⟩
  · rw [State.fld_congr hregs, State.fld_setFld_apart _ _ rfl (by decide), State.fld_setFld_same _ _ rfl]
    rfl
  · rw [State.fld_congr hregs, State.fld_setFld_same _ _ rfl]
    rfl
  · rw [State.endDebug, if_pos hd, State.closeDebug]
    dsimp only
    rw [hcode]
    rfl

section Debug
variable {s : State} (hm : s.pwr.mode ≠ .off)
include hm

theorem exec_debugAccess_closed (hd : s.fld fSec_DBG ≠ 1) (op : DbgOp) : exec (.debugAccess true op) s = .next s ∧
    (s.linkUp = true → exec (.debugAccess false op) s = .next (s.answer .unsupported)) := by
  have hopen : (s.fld fSec_DBG == 1 && bitAt (s.fld fSec_SCOPE) (dbgScope op) && s.pwr.mode != .ret) = false := by
    rw [beq_eq_false_iff_ne.mpr hd]
    rfl
  have he : ∀ tap, exec (.debugAccess tap op) s = execDebugAccess tap op s := fun _ => rfl
  rw [he, he, execDebugAccess, execDebugAccess, hopen, if_neg (by simp [hm])]
  refine ⟨rfl, fun hl => ?_⟩
  rw [if_neg (by simp [hm, hl])]
  rfl

/-- What the debugger does in a scope that the open session covers. -/
theorem exec_debugAccess_open (hd : s.fld fSec_DBG = 1) {op : DbgOp} (hs : bitAt (s.fld fSec_SCOPE) (dbgScope op) = true)
    (hr : s.pwr.mode ≠ .ret) : exec (.debugAccess true op) s = .next (s.dbgAct op) := by
  have hopen : (s.fld fSec_DBG == 1 && bitAt (s.fld fSec_SCOPE) (dbgScope op) && s.pwr.mode != .ret) = true := by
    simp [hd, hs, hr]
  have he : exec (.debugAccess true op) s = execDebugAccess true op s := rfl
  rw [he, execDebugAccess, hopen, if_neg (by simp [hm]), if_pos rfl]

end Debug

theorem State.dbgAct_halt (s : State) {t : Tid} (ht : t.valid = true) :
    t.handle ∈ (s.dbgAct (.halt t)).sec.halted ∧ (s.dbgAct (.halt t)).thr = s.thr := by
  rw [State.dbgAct]
  split
  · next h =>
    rcases h with h | h
    · exact ⟨by simpa using h, rfl⟩
    · simp [ht] at h
  · exact ⟨List.mem_append_right _ (List.mem_singleton_self _), rfl⟩

theorem State.dbgAct_resume (s : State) (t : Tid) :
    t.handle ∉ (s.dbgAct (.resume t)).sec.halted ∧ (s.dbgAct (.resume t)).thr = s.thr := by
  rw [State.dbgAct]
  dsimp only
  split <;> exact ⟨by simp [State.dbgStep], rfl⟩

theorem State.dbgAct_singleStep (s : State) {t : Tid} (h : t.handle ∈ s.sec.halted) :
    t.handle ∈ (s.dbgAct (.singleStep t)).sec.stepping ∧ (s.dbgAct (.singleStep t)).thr = s.thr := by
  rw [State.dbgAct, if_pos (.inl (by simpa using h))]
  exact ⟨by simp [State.dbgStep], rfl⟩

/-- Settles O50: the checks of a record in their order, the session it opens and its end, and what the debugger may do. -/
theorem recordsOpenDebugSessions : Obligations.RecordsOpenDebugSessions := by
  unfold Obligations.RecordsOpenDebugSessions
  intro s ag h
  refine ⟨?_, Completes.of (u := { s with sec := { s.sec with nonce := none } }) rfl ⟨rfl, rfl⟩, exec_of_mbox h (c := .getSecurityState ag) rfl rfl,
    fun off data hoff hb hlen => ?_, fun off data hlen hoff => ?_, fun hd hf h0 h3 => ⟨?_, fun hl => ?_, fun hl => ?_⟩,
    fun hm => ⟨fun op hd => (exec_debugAccess_closed hm hd op).1, fun op hd hl => (exec_debugAccess_closed hm hd op).2 hl,
      fun t ht hd hs hr => ⟨?_, ?_, fun hh => ?_, fun r => ?_, fun r v => ?_⟩⟩⟩
  · exact ⟨natLE 32 (Config.entropy s.fresh).toNat, _, exec_of_mbox h (c := .getChallenge ag) rfl rfl, natLE_length .., rfl, rfl⟩
  · have hrun := exec_submitRecord h hlen (.inr ⟨hoff, hb⟩) false
    rw [State.mbox, if_pos h] at hrun
    have hrec : (if off = 0 then [] else s.sec.record) = s.sec.record := by
      split
      · next h0 => exact (List.length_eq_zero_iff.mp (hoff.symm.trans h0)).symm
      · rfl
    rw [hrec] at hrun
    refine Completes.of hrun ?_
    have hreply : ∀ (v : State) (c : Nat) (o : List Byte), (v.reply ag c o).sec = v.sec := fun v c o => by
      unfold State.reply
      dsimp only
      split <;> rfl
    rw [hreply]
    exact ⟨rfl, rfl, rfl⟩
  · intro b r refused
    have hcode := s.authCode_gathered b ag
    have href : ∀ code, (s.gathered b).authCode b ag = code → code ≠ 0 → code < 256 → refused code := fun code hc h0 h8 =>
      submitRecord_refused h hlen hoff hc h0 h8
    refine ⟨fun hbad => ?_, fun hbad => ?_⟩
    · exact href 1 (hcode.trans (if_pos hbad)) (by decide) (by decide)
    · rw [if_neg (by rw [hbad]; exact Bool.false_ne_true)] at hcode
      intro mine
      refine ⟨fun hm => ?_, fun hm hn => ?_, fun hm hn ha => ?_, fun hm hn ha hs => ?_, fun hm hn ha hs hst => ?_, fun hm hn ha hst hk => ?_⟩
      · exact href 2 (hcode.trans (if_pos hm)) (by decide) (by decide)
      · rw [if_neg (not_not.mpr hm), if_pos hn] at hcode
        exact href 3 hcode (by decide) (by decide)
      · rw [if_neg (not_not.mpr hm), if_neg (not_not.mpr hn), if_pos (by rw [ha]; rfl)] at hcode
        exact href 4 hcode (by decide) (by decide)
      · rw [if_neg (not_not.mpr hm), if_neg (not_not.mpr hn), if_neg (by rw [ha]; exact Bool.false_ne_true), if_pos (by rw [hs]; rfl)] at hcode
        exact href 5 hcode (by decide) (by decide)
      · rw [if_neg (not_not.mpr hm), if_neg (not_not.mpr hn), if_neg (by rw [ha]; exact Bool.false_ne_true),
          if_neg (by rw [hs]; exact Bool.false_ne_true), if_pos hst] at hcode
        exact href 6 hcode (by decide) (by decide)
      · rw [if_neg (not_not.mpr hm), if_neg (not_not.mpr hn), if_neg (by rw [ha]; exact Bool.false_ne_true)] at hcode
        cases hs : s.authSigned r
        · rw [if_pos (by rw [hs]; rfl)] at hcode
          exact .inl ⟨rfl, href 5 hcode (by decide) (by decide)⟩
        · rw [if_neg (by rw [hs]; exact Bool.false_ne_true), if_neg (by rw [hst]; exact Bool.false_ne_true),
            if_neg (fun hk3 => absurd (hk.symm.trans hk3.1) (by decide))] at hcode
          exact .inr ⟨rfl, submitRecord_debug h hlen hoff hcode rfl hk⟩
  · obtain ⟨e1, e2, e3⟩ := State.endDebug_fields hd hf h0 h3
    exact ⟨s.endDebug, exec_of_mbox h (c := .lockDebug ag) rfl rfl, e1, e2, e3⟩
  · exact Completes.of (congrArg Host.Outcome.next (if_pos hl)) (State.endDebug_fields hd hf h0 h3)
  · exact congrArg Host.Outcome.next (if_neg (by rw [hl]; exact Bool.false_ne_true))
  · exact Completes.of (exec_debugAccess_open hm hd hs hr) (s.dbgAct_halt ht)
  · exact Completes.of (exec_debugAccess_open hm hd hs hr) (s.dbgAct_resume t)
  · exact Completes.of (exec_debugAccess_open hm hd hs hr) (s.dbgAct_singleStep hh)
  · exact exec_debugAccess_open hm hd hs hr
  · have hact : s.dbgAct (.writeReg t r v) = s.modCtx t fun c => c.sa r v := if_pos ht
    refine Completes.of (exec_debugAccess_open hm hd hs hr) ?_
    rw [hact, State.ctx_modCtx_same]
    exact ⟨tabGet_set_same .., rfl⟩

end Sys2Proof.Machine
end

section
/-! Control inputs, the cap controller, die temperatures and the input's voltage (spec 16). -/
namespace Sys2Proof.Machine

/-! ### Control inputs, caps and temperatures (R373 to R384) -/

/-- A record without a reaction: LAST_CLASS, LAST_REACT and SAFE (R431). -/
theorem State.reportR_last (s : State) (cls page unit cause : Nat) (loc0 : W64) (hc : cls < 256) :
    (s.reportR cls page unit cause loc0).fld fSafe_LAST_CLASS = cls ∧ (s.reportR cls page unit cause loc0).fld fSafe_LAST_REACT = 0 ∧
      (s.reportR cls page unit cause loc0).flag fSafe_SAFE = s.flag fSafe_SAFE := by
  generalize hd : ({ cls := cls, react := 0, page := page, unit := unit, cause := cause, loc0 := loc0 } : Det) = d
  have hcls : d.cls = cls := by rw [← hd]
  have hreact : d.react = 0 := by rw [← hd]
  have hrep : s.reportR cls page unit cause loc0 = (s.logRecord d).2 := by
    rw [State.reportR, hd, State.report]
    simp only [State.commitSafeLast, hreact, Nat.reduceEqDiff, false_and, if_false, Nat.reduceLeDiff, Nat.zero_ne_one]
    split <;> rfl
  have hmid : ∃ z : State, z.regs = s.regs ∧ ((s.logRecord d).2 = ((z.setFld fSafe_LOG_SEQ (z.fld fSafe_LOG_SEQ + 1)).setFld fSafe_LAST_CLASS
      d.cls).setFld fSafe_LAST_REACT d.react ∨ (s.logRecord d).2 = (((z.setFld fSafe_LOG_SEQ (z.fld fSafe_LOG_SEQ + 1)).setFld fSafe_LAST_CLASS
      d.cls).setFld fSafe_LAST_REACT d.react).setFlag fSafe_OVERFLOW true) := by
    unfold State.logRecord
    simp only [if_neg (show ¬2 ≤ d.react by omega)]
    refine ⟨s.now.2.draw.2.putBar (faultSlot (s.now.2.draw.2.fld fSafe_LOG_SEQ + 1))
      (d.record s.now.2.draw.2 (s.now.2.draw.2.fld fSafe_LOG_SEQ + 1) s.now.1 (Config.detail s.now.2.fresh)), ?_, ?_⟩
    · rw [State.putBar_regs]
      rfl
    · have hseq : ∀ k bs, (s.now.2.draw.2.putBar k bs).fld fSafe_LOG_SEQ = s.now.2.draw.2.fld fSafe_LOG_SEQ := fun k bs =>
        State.fld_congr (State.putBar_regs ..) _
      rw [hseq]
      split
      · exact .inr rfl
      · exact .inl rfl
  obtain ⟨z, hz, hlog⟩ := hmid
  rw [hrep]
  have hlast : ∀ y : State, y = ((z.setFld fSafe_LOG_SEQ (z.fld fSafe_LOG_SEQ + 1)).setFld fSafe_LAST_CLASS d.cls).setFld fSafe_LAST_REACT d.react →
      y.fld fSafe_LAST_CLASS = cls ∧ y.fld fSafe_LAST_REACT = 0 ∧ y.flag fSafe_SAFE = s.flag fSafe_SAFE := by
    rintro y rfl
    refine ⟨?_, ?_, ?_⟩
    · rw [State.fld_setFld_apart _ _ rfl (by decide), State.fld_setFld_same _ _ rfl, hcls]
      exact Nat.mod_eq_of_lt hc
    · rw [State.fld_setFld_same _ _ rfl, hreact]
      rfl
    · rw [State.flag, State.fld_setFld_apart _ _ rfl (by decide), State.fld_setFld_apart _ _ rfl (by decide),
        State.fld_setFld_apart _ _ rfl (by decide), State.fld_congr hz, State.flag]
  rcases hlog with hlog | hlog
  · exact hlast _ hlog
  · obtain ⟨h1, h2, h3⟩ := hlast _ rfl
    rw [hlog, State.flag, State.fld_setFlag_apart _ _ rfl (by decide), State.fld_setFlag_apart _ _ rfl (by decide),
      State.fld_setFlag_apart _ _ rfl (by decide)]
    exact ⟨h1, h2, h3⟩

/-- A saturating counter after one more. -/
theorem State.fld_addSat_same (s : State) {f : Fld} (hf : f.ok = true) (n : Nat) : (s.addSat f n).fld f = min (s.fld f + n) (2 ^ f.w - 1) := by
  rw [State.addSat, State.fld_setFld_same _ _ hf]
  have : 0 < 2 ^ f.w := by positivity
  exact Nat.mod_eq_of_lt (by omega)

theorem fPort_STATE_ok (p : Nat) : (fPort_STATE p).ok = true := by simp [fPort_STATE, Fld.ok, Fld.sh, Fld.w]
theorem fPort_RETRAINS_ok (p : Nat) : (fPort_RETRAINS p).ok = true := by simp [fPort_RETRAINS, Fld.ok, Fld.sh, Fld.w]

theorem State.noteSets_regs (s : State) : s.noteSets.regs = s.regs := rfl

theorem State.setPortState_fld (s : State) (p v : Nat) {f : Fld} (h : (fPort_STATE p).apart f = true) :
    (s.setPortState p v).fld f = s.fld f := by
  rw [State.setPortState, State.fld_congr (State.noteSets_regs _), State.fld_setFld_apart _ _ (fPort_STATE_ok p) h]

theorem State.setPortState_same (s : State) (p v : Nat) : (s.setPortState p v).fld (fPort_STATE p) = v % 2 ^ (fPort_STATE p).w := by
  rw [State.setPortState, State.fld_congr (State.noteSets_regs _), State.fld_setFld_same _ _ (fPort_STATE_ok p)]

/-- Retraining a port changes its state and its count, and no field of another port. -/
theorem State.retrainPort_fields (s : State) (p q : Nat) :
    (s.retrainPort p).portState q = (if q = p then 3 else s.portState q) ∧
    (s.retrainPort p).fld (fPort_RETRAINS q) =
      (if q = p then min (s.fld (fPort_RETRAINS p) + 1) (2 ^ 32 - 1) else s.fld (fPort_RETRAINS q)) := by
  have hmod : ∀ (z : State) (g : Port → Port) (f : Fld), (z.modPort p g).fld f = z.fld f := fun _ _ _ => rfl
  have hcross : ∀ q, (fPort_STATE p).apart (fPort_RETRAINS q) = true := fun q => by
    simp [Fld.apart, fPort_STATE, fPort_RETRAINS, Fld.key]
    omega
  have hback : (fPort_RETRAINS p).apart (fPort_STATE q) = true := by
    simp [Fld.apart, fPort_STATE, fPort_RETRAINS, Fld.key]
    omega
  rw [State.portState, State.retrainPort, hmod, hmod]
  by_cases hq : q = p
  · subst hq
    rw [if_pos rfl, if_pos rfl, State.addSat, State.fld_setFld_apart _ _ (fPort_RETRAINS_ok q) hback, State.fld_setFld_same _ _ (fPort_RETRAINS_ok q),
      State.setPortState_fld _ _ _ (hcross q)]
    refine ⟨State.setPortState_same s q 3, Nat.mod_eq_of_lt ?_⟩
    have : 2 ^ (fPort_RETRAINS q).w = 2 ^ 32 := rfl
    omega
  · have hs : (fPort_STATE p).apart (fPort_STATE q) = true := by
      simp [Fld.apart, fPort_STATE, Fld.key]
      omega
    have hr : (fPort_RETRAINS p).apart (fPort_RETRAINS q) = true := by
      simp [Fld.apart, fPort_RETRAINS, Fld.key]
      omega
    rw [if_neg hq, if_neg hq, State.addSat, State.fld_setFld_apart _ _ (fPort_RETRAINS_ok p) hback, State.fld_setFld_apart _ _ (fPort_RETRAINS_ok p) hr,
      State.setPortState_fld _ _ _ hs, State.setPortState_fld _ _ _ (hcross q)]
    exact ⟨rfl, rfl⟩

/-- One port of the loss of the reference clock: an ACTIVE one is retrained. -/
def State.refclkPort (s : State) (p : Nat) : State := if s.portState p = 2 then s.retrainPort p else s

theorem State.refclkPort_fields (s : State) (p q : Nat) :
    (s.refclkPort p).portState q = (if q = p ∧ s.portState p = 2 then 3 else s.portState q) ∧
    (s.refclkPort p).fld (fPort_RETRAINS q) =
      (if q = p ∧ s.portState p = 2 then min (s.fld (fPort_RETRAINS p) + 1) (2 ^ 32 - 1) else s.fld (fPort_RETRAINS q)) := by
  unfold State.refclkPort
  by_cases h : s.portState p = 2
  · simpa [h] using s.retrainPort_fields p q
  · simp [h]

/-- The ports of a list without duplicates, one after another. -/
theorem State.foldl_refclkPort {l : List Nat} (hl : l.Nodup) (s : State) (q : Nat) :
    (l.foldl State.refclkPort s).portState q = (if q ∈ l ∧ s.portState q = 2 then 3 else s.portState q) ∧
    (l.foldl State.refclkPort s).fld (fPort_RETRAINS q) =
      (if q ∈ l ∧ s.portState q = 2 then min (s.fld (fPort_RETRAINS q) + 1) (2 ^ 32 - 1) else s.fld (fPort_RETRAINS q)) := by
  induction l generalizing s with
  | nil => simp
  | cons p l ih =>
    obtain ⟨hp, hl⟩ := List.nodup_cons.mp hl
    obtain ⟨ih1, ih2⟩ := ih hl (s.refclkPort p)
    obtain ⟨h1, h2⟩ := s.refclkPort_fields p q
    rw [List.foldl_cons, ih1, ih2, h1, h2]
    by_cases hq : q = p
    · subst hq
      simp [hp]
    · simp [hq]

theorem exec_glRefclkLoss (s : State) : exec .glRefclkLoss s = .next ((List.range 16).foldl State.refclkPort s) := rfl

/-! The cap controller: the steps that a sample takes, and the state that follows it. -/

theorem State.steps_bound (s : State) {n : Nat} (h : 0 < n) : 1 ≤ (s.steps n).1 ∧ (s.steps n).1 ≤ n := by
  have := Nat.mod_lt (Config.timed s.fresh).toNat h
  simp only [State.steps]
  omega

theorem State.steps_regs (s : State) (n : Nat) : (s.steps n).2.regs = s.regs := rfl

theorem State.syncCapped_fld (s : State) {f : Fld} (hf : fPwr_STATE.apart f = true) : s.syncCapped.fld f = s.fld f := by
  have hset : ∀ v, (s.setFld fPwr_STATE v).fld f = s.fld f := fun v => State.fld_setFld_apart _ _ rfl hf
  unfold State.syncCapped
  dsimp only
  split
  · split
    · exact hset 2
    · rfl
  · split
    · rfl
    · exact hset 1
  · rfl

theorem State.syncCapped_flag (s : State) {f : Fld} (hf : fPwr_STATE.apart f = true) : s.syncCapped.flag f = s.flag f := by
  rw [State.flag, State.flag, State.syncCapped_fld s hf]

section Cap
variable {s : State} (hrun : s.pwr.mode = .run) (power : Nat)
include hrun

/-- The state that a sample of the power leaves, by the controller's cases. -/
def State.capSampled (s : State) (power : Nat) : State :=
  let gate := s.fld fPwr_GATE
  let clk := s.fld fPwr_ACLK
  let s0 := s.setFld fPwr_IN_P power
  if s.fld fPwr_CAP_W < power then
    if s0.freqOk ∧ 720 < clk then ((s0.steps ((clk - 720) / 20)).2.setFld fPwr_ACLK (clk - 20 * (s0.steps ((clk - 720) / 20)).1)).syncCapped
    else if gate < 56 then ((s0.steps (56 - gate)).2.setFld fPwr_GATE (gate + (s0.steps (56 - gate)).1)).syncCapped
    else if s0.flag fPwr_CAP_UNMET then s0
    else (s0.setFlag fPwr_CAP_UNMET true).event logWarn .capUnmet 0 0 []
  else
    let s1 := s0.setFlag fPwr_CAP_UNMET false
    if 0 < gate then ((s1.steps (gate + 1)).2.setFld fPwr_GATE (gate + 1 - (s1.steps (gate + 1)).1)).syncCapped
    else if clk < 940 ∧ !s1.flag fMode_A_PROFILE then
      ((s1.steps ((940 - clk) / 20 + 1)).2.setFld fPwr_ACLK (clk + 20 * ((s1.steps ((940 - clk) / 20 + 1)).1 - 1))).syncCapped
    else s1.syncCapped

theorem exec_capSample : exec (.capSample power) s = .next (s.capSampled power) := by
  have he : exec (.capSample power) s = execCapSample power s := rfl
  rw [he, execCapSample]
  exact congrArg Host.Outcome.next (if_neg (not_not.mpr hrun))

end Cap

/-- The sample itself: IN_P, and none of the fields that the controller reads. -/
theorem State.sampled_fld (s : State) (power : Nat) : (s.setFld fPwr_IN_P power).fld fPwr_ACLK = s.fld fPwr_ACLK ∧
    (s.setFld fPwr_IN_P power).fld fPwr_GATE = s.fld fPwr_GATE ∧ (s.setFld fPwr_IN_P power).freqOk = s.freqOk := by
  refine ⟨State.fld_setFld_apart _ _ rfl (by decide), State.fld_setFld_apart _ _ rfl (by decide), ?_⟩
  simp only [State.freqOk, State.flag]
  rw [State.fld_setFld_apart _ _ rfl (by decide), State.fld_setFld_apart _ _ rfl (by decide)]

section Above
variable {s : State} {power : Nat} (h : s.fld fPwr_CAP_W < power)
include h

theorem State.capSampled_clock (hf : s.freqOk = true) (hc : 720 < s.fld fPwr_ACLK) (hmax : s.fld fPwr_ACLK ≤ 940)
    (hstep : (940 - s.fld fPwr_ACLK) % 20 = 0) : (s.capSampled power).fld fPwr_ACLK < s.fld fPwr_ACLK ∧
      720 ≤ (s.capSampled power).fld fPwr_ACLK ∧ (s.capSampled power).fld fPwr_GATE = s.fld fPwr_GATE := by
  obtain ⟨-, hgate, hfreq⟩ := s.sampled_fld power
  obtain ⟨hlo, hhi⟩ := (s.setFld fPwr_IN_P power).steps_bound (n := (s.fld fPwr_ACLK - 720) / 20) (by omega)
  have hregs := (s.setFld fPwr_IN_P power).steps_regs ((s.fld fPwr_ACLK - 720) / 20)
  rw [State.capSampled]
  dsimp only
  rw [if_pos h, if_pos ⟨hfreq.trans hf, hc⟩, State.syncCapped_fld _ (by decide), State.syncCapped_fld _ (by decide),
    State.fld_setFld_same _ _ rfl, State.fld_setFld_apart _ _ rfl (by decide), State.fld_congr hregs, hgate]
  have hw : 2 ^ fPwr_ACLK.w = 1024 := rfl
  have hdown : 20 * ((s.setFld fPwr_IN_P power).steps ((s.fld fPwr_ACLK - 720) / 20)).1 ≤ s.fld fPwr_ACLK - 720 :=
    (Nat.mul_le_mul_left 20 hhi).trans (Nat.mul_div_le _ _)
  rw [hw, Nat.mod_eq_of_lt (by omega)]
  omega

theorem State.capSampled_gate (hf : s.freqOk = false ∨ s.fld fPwr_ACLK ≤ 720) (hg : s.fld fPwr_GATE < 56) :
    s.fld fPwr_GATE < (s.capSampled power).fld fPwr_GATE ∧ (s.capSampled power).fld fPwr_GATE ≤ 56 ∧
      (s.capSampled power).fld fPwr_ACLK = s.fld fPwr_ACLK := by
  obtain ⟨hclk, -, hfreq⟩ := s.sampled_fld power
  obtain ⟨hlo, hhi⟩ := (s.setFld fPwr_IN_P power).steps_bound (n := 56 - s.fld fPwr_GATE) (by omega)
  have hregs := (s.setFld fPwr_IN_P power).steps_regs (56 - s.fld fPwr_GATE)
  have hno : ¬((s.setFld fPwr_IN_P power).freqOk = true ∧ 720 < s.fld fPwr_ACLK) := by
    rw [hfreq]
    rintro ⟨h1, h2⟩
    rcases hf with hf | hf
    · rw [hf] at h1; cases h1
    · omega
  rw [State.capSampled]
  dsimp only
  rw [if_pos h, if_neg hno, if_pos hg, State.syncCapped_fld _ (by decide), State.syncCapped_fld _ (by decide),
    State.fld_setFld_same _ _ rfl, State.fld_setFld_apart _ _ rfl (by decide), State.fld_congr hregs, hclk]
  have hw : 2 ^ fPwr_GATE.w = 64 := rfl
  rw [hw]
  omega

theorem State.capSampled_unmet (hf : s.freqOk = false ∨ s.fld fPwr_ACLK ≤ 720) (hg : 56 ≤ s.fld fPwr_GATE) :
    (s.capSampled power).flag fPwr_CAP_UNMET = true ∧ (s.capSampled power).fld fPwr_ACLK = s.fld fPwr_ACLK ∧
      (s.capSampled power).fld fPwr_GATE = s.fld fPwr_GATE := by
  obtain ⟨hclk, hgate, hfreq⟩ := s.sampled_fld power
  have hno : ¬((s.setFld fPwr_IN_P power).freqOk = true ∧ 720 < s.fld fPwr_ACLK) := by
    rw [hfreq]
    rintro ⟨h1, h2⟩
    rcases hf with hf | hf
    · rw [hf] at h1; cases h1
    · omega
  rw [State.capSampled]
  dsimp only
  rw [if_pos h, if_neg hno, if_neg (by omega)]
  split
  · next hu => exact ⟨hu, hclk, hgate⟩
  · rw [State.flag_congr (State.event_regs ..), State.fld_congr (State.event_regs ..), State.fld_congr (State.event_regs ..),
      State.flag_setFlag_same _ true rfl rfl, State.fld_setFlag_apart _ _ rfl (by decide), State.fld_setFlag_apart _ _ rfl (by decide)]
    exact ⟨rfl, hclk, hgate⟩

end Above

/-- At or below the cap: CAP_UNMET clear, gating down first, then the clock up. -/
theorem State.capSampled_below {s : State} {power : Nat} (h : power ≤ s.fld fPwr_CAP_W) (hmax : s.fld fPwr_ACLK ≤ 940) :
    (s.capSampled power).flag fPwr_CAP_UNMET = false ∧ (s.capSampled power).fld fPwr_GATE ≤ s.fld fPwr_GATE ∧
      s.fld fPwr_ACLK ≤ (s.capSampled power).fld fPwr_ACLK ∧
      (0 < s.fld fPwr_GATE → (s.capSampled power).fld fPwr_ACLK = s.fld fPwr_ACLK) := by
  obtain ⟨hclk, hgate, -⟩ := s.sampled_fld power
  have hg : ((s.setFld fPwr_IN_P power).setFlag fPwr_CAP_UNMET false).fld fPwr_GATE = s.fld fPwr_GATE := by
    rw [State.fld_setFlag_apart _ _ rfl (by decide), hgate]
  have hc : ((s.setFld fPwr_IN_P power).setFlag fPwr_CAP_UNMET false).fld fPwr_ACLK = s.fld fPwr_ACLK := by
    rw [State.fld_setFlag_apart _ _ rfl (by decide), hclk]
  have hu : ((s.setFld fPwr_IN_P power).setFlag fPwr_CAP_UNMET false).flag fPwr_CAP_UNMET = false := State.flag_setFlag_same _ false rfl rfl
  generalize hz : (s.setFld fPwr_IN_P power).setFlag fPwr_CAP_UNMET false = z at hg hc hu
  have hwg : 2 ^ fPwr_GATE.w = 64 := rfl
  have hwc : 2 ^ fPwr_ACLK.w = 1024 := rfl
  have hlt := s.fld_lt fPwr_GATE
  rw [State.capSampled]
  dsimp only
  rw [if_neg (by omega), hz]
  split
  · next hpos =>
    obtain ⟨hlo, hhi⟩ := z.steps_bound (n := s.fld fPwr_GATE + 1) (by omega)
    rw [State.syncCapped_flag _ (by decide), State.syncCapped_fld _ (by decide), State.syncCapped_fld _ (by decide), State.flag,
      State.fld_setFld_apart _ _ rfl (by decide), State.fld_setFld_same _ _ rfl, State.fld_setFld_apart _ _ rfl (by decide),
      State.fld_congr (z.steps_regs _), State.fld_congr (z.steps_regs _), hc, hwg]
    exact ⟨hu, by omega, le_rfl, fun _ => rfl⟩
  · next hpos =>
    split
    · next hup =>
      obtain ⟨hlo, hhi⟩ := z.steps_bound (n := (940 - s.fld fPwr_ACLK) / 20 + 1) (by omega)
      rw [State.syncCapped_flag _ (by decide), State.syncCapped_fld _ (by decide), State.syncCapped_fld _ (by decide), State.flag,
        State.fld_setFld_apart _ _ rfl (by decide), State.fld_setFld_same _ _ rfl, State.fld_setFld_apart _ _ rfl (by decide),
        State.fld_congr (z.steps_regs _), State.fld_congr (z.steps_regs _), hg, hwc]
      have hraise : 20 * ((z.steps ((940 - s.fld fPwr_ACLK) / 20 + 1)).1 - 1) ≤ 940 - s.fld fPwr_ACLK :=
        (Nat.mul_le_mul_left 20 (by omega)).trans (Nat.mul_div_le _ 20)
      rw [Nat.mod_eq_of_lt (by omega)]
      exact ⟨hu, le_rfl, by omega, fun hp => absurd hp hpos⟩
    · rw [State.syncCapped_flag _ (by decide), State.syncCapped_fld _ (by decide), State.syncCapped_fld _ (by decide), hg, hc, hu]
      exact ⟨rfl, le_rfl, le_rfl, fun _ => rfl⟩

/-- A die's sample: its byte of TJ, the hot dies, and the throttle. -/
theorem exec_dieTempSample {s : State} (hm : s.pwr.mode ≠ .off) (die : Fin 4) (temp : BitVec 8) : Completes (.dieTempSample die temp) s fun u =>
    u.fld fPwr_TJ / 2 ^ (8 * die.val) % 256 = temp.toNat ∧ (die.val ∈ u.pwr.hot ↔ (s.fld fPwr_TJ_THR : Int) ≤ temp.toInt) ∧
      (∀ d : Nat, d ≠ die.val → (d ∈ u.pwr.hot ↔ d ∈ s.pwr.hot)) ∧ u.flag fPwr_TJ_THROT = !u.pwr.hot.isEmpty := by
  have he : exec (.dieTempSample die temp) s = execDieTempSample die temp s := rfl
  refine Completes.of (he.trans (by rw [execDieTempSample, if_neg hm])) ⟨?_, ?_, fun d hd => ?_, ?_⟩
  · rw [State.fld_setFlag_apart _ _ rfl (by decide)]
    have hset : ∀ p : PwrSt, ({ s.setFld fPwr_TJ (putBits (s.fld fPwr_TJ) (8 * die.val) 8 temp.toNat) with pwr := p } : State).fld fPwr_TJ =
        putBits (s.fld fPwr_TJ) (8 * die.val) 8 temp.toNat := fun p => by
      refine (State.fld_setFld_same s _ rfl).trans (Nat.mod_eq_of_lt (putBits_lt (s.fld_lt fPwr_TJ) ?_))
      have : fPwr_TJ.w = 32 := rfl
      omega
    rw [hset, ← Nat.shiftRight_eq_div_pow]
    refine (putBits_get (s.fld fPwr_TJ) (8 * die.val) 8 temp.toNat).trans (Nat.mod_eq_of_lt temp.isLt)
  · rw [State.setFlag_pwr]
    dsimp only
    by_cases hhot : (s.fld fPwr_TJ_THR : Int) ≤ temp.toInt
    · rw [decide_eq_true hhot, if_pos rfl]
      refine iff_of_true ?_ hhot
      split
      · next hin => simpa using hin
      · simp
    · rw [decide_eq_false hhot, if_neg Bool.false_ne_true]
      exact iff_of_false (by simp) hhot
  · rw [State.setFlag_pwr]
    dsimp only
    split
    · split
      · rfl
      · simp [hd]
    · simp [hd]
  · rw [State.flag_setFlag_same _ _ rfl rfl, State.setFlag_pwr]

/-- The input's voltage kept, with IN_RANGE from 57 V to 66 V. -/
theorem exec_inputRangeChange (s : State) {volts : Nat} (hv : volts < 2 ^ fPwr_IN_V.w) : Completes (.inputRangeChange volts) s fun u =>
    u.fld fPwr_IN_V = volts ∧ (u.flag fPwr_IN_RANGE = true ↔ 5700 ≤ volts ∧ volts ≤ 6600) := by
  have he : exec (.inputRangeChange volts) s = execInputRangeChange volts s := rfl
  have hregs : ∃ u : State, exec (.inputRangeChange volts) s = .next u ∧
      u.regs = ((s.setFld fPwr_IN_V volts).setFlag fPwr_IN_RANGE (decide (5700 ≤ volts) && decide (volts ≤ 6600))).regs := by
    rw [he, execInputRangeChange]
    refine ⟨_, rfl, ?_⟩
    split
    · exact State.event_regs ..
    · rfl
  obtain ⟨u, hu, hr⟩ := hregs
  refine Completes.of hu ⟨?_, ?_⟩
  · rw [State.fld_congr hr, State.fld_setFlag_apart _ _ rfl (by decide), State.fld_setFld_same _ _ rfl, Nat.mod_eq_of_lt hv]
  · rw [State.flag_congr hr, State.flag_setFlag_same _ _ rfl rfl]
    simp

/-- Settles O52: the inputs' counts and records, the controller's cases, the dies and the input. -/
theorem controlInputsCapsAndTemperatures : Obligations.ControlInputsCapsAndTemperatures := by
  unfold Obligations.ControlInputsCapsAndTemperatures
  refine ⟨fun s hm => ?_, fun s power hm hmax => ⟨fun h => ⟨fun hf hc hst => ?_, fun hf hg => ?_, fun hf hg => ?_⟩, fun h => ?_, fun die temp => ?_,
    fun volts hv => exec_inputRangeChange s hv⟩⟩
  · have hoff : s.pwr.mode ≠ .off := by rw [hm]; decide
    refine ⟨?_, fun hst => ?_, ?_, rfl, fun hst => ?_, fun hst => ?_, ?_⟩
    · exact Completes.of (u := s.addSat fPwr_PREEMPT_COAL 1) (congrArg Host.Outcome.next ((if_neg hoff).trans (if_pos rfl)))
        ⟨State.fld_addSat_same _ rfl 1, rfl, rfl⟩
    · have hheld : (s.setFlag fPwr_PREEMPT_STUCK false).pwr.mode ≠ .held := by rw [State.setFlag_pwr, hm]; decide
      exact congrArg Host.Outcome.next ((if_neg hoff).trans ((if_neg Bool.false_ne_true).trans (if_neg hheld)))
    · refine Completes.of (u := s.addSat fPwr_SAFE_COAL 1) (congrArg Host.Outcome.next ((if_neg hoff).trans (if_pos rfl)))
        ⟨State.fld_addSat_same _ rfl 1, ?_⟩
      rw [State.flag, State.addSat, State.fld_setFld_apart _ _ rfl (by decide), State.flag]
    · obtain ⟨h1, h2, h3⟩ := (s.setFlag fPwr_PREEMPT_STUCK true).reportR_last 0x44 pwrPage 2 0 0 (by decide)
      refine Completes.of (u := (s.setFlag fPwr_PREEMPT_STUCK true).reportR 0x44 pwrPage 2 0 0)
        (congrArg Host.Outcome.next (if_neg (by simp [hoff, hst]))) ⟨?_, h1, h2, h3.trans ?_⟩
      · rw [State.flag, State.reportR, State.report_fld_mild _ Nat.two_pos _ (by decide)]
        exact State.flag_setFlag_same _ true rfl rfl
      · rw [State.flag, State.fld_setFlag_apart _ _ rfl (by decide), State.flag]
    · exact congrArg Host.Outcome.next (if_pos (.inr hst))
    · refine Completes.of (exec_glRefclkLoss s) fun p => ?_
      obtain ⟨h1, h2⟩ := State.foldl_refclkPort List.nodup_range s p
      rw [h1, h2]
      simp [p.isLt]
  · exact Completes.of (exec_capSample hm power) (State.capSampled_clock h hf hc hmax hst)
  · exact Completes.of (exec_capSample hm power) (State.capSampled_gate h hf hg)
  · exact Completes.of (exec_capSample hm power) (State.capSampled_unmet h hf hg)
  · exact Completes.of (exec_capSample hm power) (State.capSampled_below h hmax)
  · exact exec_dieTempSample (by rw [hm]; decide) die temp

end Sys2Proof.Machine
end

section
/-! Resets, starts and power modes (spec 16). -/
namespace Sys2Proof.Machine

/-! ### The registers after a reset (R396) -/

theorem mem_of_tabFind {α : Type} {t : List (Nat × α)} {k : Nat} {v : α} (h : tabFind t k = some v) : (k, v) ∈ t := by
  induction t with
  | nil => cases h
  | cons e t ih =>
    obtain ⟨k', v'⟩ := e
    rw [tabFind] at h
    split at h
    · next hk => cases h; exact hk ▸ List.mem_cons_self
    · exact List.mem_cons_of_mem _ (ih h)

/-- A reset gives the bits that it does not keep their reset values. -/
theorem resetRegs_bit (k : RKind) (regs : List (Nat × W64)) {c n : Nat} (h : (keepMask k c).testBit n = false) :
    (tabGet regDefault (resetRegs k regs) c).getLsbD n = (regDefault c).getLsbD n := by
  rw [tabGet]
  cases hf : tabFind (resetRegs k regs) c with
  | none => rfl
  | some v =>
    have hm := List.mem_of_mem_filter (mem_of_tabFind hf)
    obtain ⟨⟨c', x⟩, -, he⟩ := List.mem_map.mp hm
    cases he
    have hb : (BitVec.ofNat 64 (keepMask k c')).getLsbD n = false := by rw [BitVec.getLsbD_ofNat, h, Bool.and_false]
    by_cases hn : n < 64
    · simp only [BitVec.getLsbD_or, BitVec.getLsbD_and, BitVec.getLsbD_not, Option.getD_some, hb, hn, decide_true, Bool.not_false, Bool.and_true, Bool.and_false,
        Bool.or_false]
    · rw [BitVec.getLsbD_of_ge _ _ (by omega), BitVec.getLsbD_of_ge _ _ (by omega)]

/-- A field that no reset of the kind keeps reads its reset value. -/
theorem State.fld_resetRegs {s : State} {k : RKind} {regs : List (Nat × W64)} {f : Fld} (hs : s.regs = resetRegs k regs)
    (hk : (keepMask k f.key >>> f.sh) % 2 ^ f.w = 0) : s.fld f = ((regDefault f.key).toNat >>> f.sh) % 2 ^ f.w := by
  rw [State.fld, State.cell, hs]
  refine Nat.eq_of_testBit_eq fun i => ?_
  rw [Nat.testBit_mod_two_pow, Nat.testBit_mod_two_pow, Nat.testBit_shiftRight, Nat.testBit_shiftRight]
  by_cases hi : i < f.w
  · have hbit := congrArg (·.testBit i) hk
    simp only [Nat.testBit_mod_two_pow, Nat.testBit_shiftRight, hi, decide_true, Bool.true_and, Nat.zero_testBit] at hbit
    have := resetRegs_bit k regs hbit
    simp only [BitVec.testBit_toNat] at this ⊢
    rw [this]
  · simp [hi]

/-- The registers that a reset of the stacks writes: PC_STATE, SPARE_USED and QUEUED. -/
def stackPage (p : Nat) : Prop := 0x0C0 ≤ p ∧ p < 0x100

/-- What the reset of the stacks leaves: everything but registers of the stacks and the stacks themselves. -/
structure State.StacksOnly (s u : State) : Prop where
  fld : ∀ f : Fld, ¬stackPage (f.key / 512) → u.fld f = s.fld f
  dram : u.dram = s.dram
  pst : u.pst = s.pst
  thr : u.thr = s.thr
  fab : u.fab = s.fab
  pwr : u.pwr = s.pwr

theorem State.StacksOnly.refl (s : State) : s.StacksOnly s := ⟨fun _ _ => rfl, rfl, rfl, rfl, rfl, rfl⟩

theorem State.StacksOnly.setFld {s u : State} (h : s.StacksOnly u) {f : Fld} (v : Nat) (hok : f.ok = true) (hp : stackPage (f.key / 512)) :
    s.StacksOnly (u.setFld f v) := by
  obtain ⟨hf, hd, hp', ht, hfab, hw⟩ := h
  refine ⟨fun g hg => ?_, hd, hp', ht, hfab, hw⟩
  rw [State.fld_setFld_apart _ _ hok (Fld.apart_of_page fun he => hg (he ▸ hp)), hf g hg]

theorem State.StacksOnly.foldl {s u : State} (h : s.StacksOnly u) {α : Type} (F : State → α → State) (l : List α)
    (hF : ∀ t, ∀ x ∈ l, s.StacksOnly t → s.StacksOnly (F t x)) : s.StacksOnly (l.foldl F u) := by
  induction l generalizing u with
  | nil => exact h
  | cons x l ih =>
    exact ih (hF u x List.mem_cons_self h) fun t y hy => hF t y (List.mem_cons_of_mem x hy)

theorem State.StacksOnly.setPcState {s u : State} (h : s.StacksOnly u) {n : Nat} (hn : n < 8) (p v : Nat) : s.StacksOnly (u.setPcState n p v) := by
  unfold State.setPcState
  dsimp only
  split <;> refine h.setFld _ ?_ ?_ <;> simp [fMem_PC_STATE0, fMem_PC_STATE1, Fld.ok, Fld.sh, Fld.w, stackPage, Fld.key] <;> omega

theorem State.StacksOnly.keepPcs {s u : State} (h : s.StacksOnly u) (old : State) {n : Nat} (hn : n < 8) : s.StacksOnly (u.keepPcs old n) := by
  unfold State.keepPcs
  refine h.foldl _ _ fun t p _ ht => ?_
  split
  · exact ht
  · split
    · exact ht
    · exact ht.setPcState hn _ _
  · exact ht.setPcState hn _ _

theorem State.resetStacks_only (s old : State) (k : RKind) : s.StacksOnly (s.resetStacks old k) := by
  have h1 : s.StacksOnly { s with stks := tabMap stkDefault (if k = .cold then StackSt.cold else StackSt.warm) s.stks } :=
    ⟨fun _ _ => rfl, rfl, rfl, rfl, rfl, rfl⟩
  unfold State.resetStacks
  generalize ({ s with stks := tabMap stkDefault (if k = .cold then StackSt.cold else StackSt.warm) s.stks } : State) = s1 at h1 ⊢
  dsimp only
  split
  · exact h1
  · refine h1.foldl _ _ fun t n hn ht => ?_
    have hn := List.mem_range.mp hn
    refine ((ht.keepPcs old hn).setFld _ ?_ ?_).setFld _ ?_ ?_ <;>
      simp [fProt_SPARE_USED, fProt_QUEUED, Fld.ok, Fld.sh, Fld.w, stackPage, Fld.key] <;> omega

/-- A field of no stack, apart from those that a reset writes anew. -/
structure Fld.Reset (f : Fld) : Prop where
  page : ¬stackPage (f.key / 512)
  busy : fPst_BUSY.apart f = true
  win : fWin_WIN_USED.apart f = true
  sess : fSec_SESSIONS.apart f = true
  dbg : fSec_DBG.apart f = true
  scope : fSec_SCOPE.apart f = true

/-- The state with another security state. -/
def State.withSec (s : State) (x : SecSt) : State := { s with sec := x }

@[simp] theorem State.withSec_regs (s : State) (x : SecSt) : (s.withSec x).regs = s.regs := rfl

theorem State.closeDebug_eq (s : State) : ∃ (d e : Nat) (x : SecSt), s.closeDebug = ((s.setFld fSec_DBG d).setFld fSec_SCOPE e).withSec x :=
  ⟨_, _, _, rfl⟩

theorem State.closeDebug_fld (s : State) {f : Fld} (hd : fSec_DBG.apart f = true) (hs : fSec_SCOPE.apart f = true) :
    s.closeDebug.fld f = s.fld f := by
  obtain ⟨d, e, x, hx⟩ := s.closeDebug_eq
  rw [hx, State.fld_congr (State.withSec_regs ..), State.fld_setFld_apart _ _ rfl hs, State.fld_setFld_apart _ _ rfl hd]

theorem State.resetSec_fld (s : State) (k : RKind) {f : Fld} (hf : f.Reset) : (s.resetSec k).fld f = s.fld f := by
  unfold State.resetSec
  dsimp only
  rw [State.closeDebug_fld _ hf.dbg hf.scope]
  split
  · rfl
  · exact State.fld_setFld_apart _ _ rfl hf.sess

/-- The state that a reset starts from, before the stacks, the security page and the counts of windows and commits follow. -/
theorem State.resetPackage_eq (s : State) (k : RKind) : ∃ (s1 : State) (b : Bool), s.resetPackage k =
    (((s1.resetStacks s k).resetSec k).syncWin).setFlag fPst_BUSY b ∧ s1.regs = resetRegs k s.regs ∧ s1.pst = s.pst ∧ s1.thr.ctxs = [] ∧
    s1.fab = FabSt.empty ∧ s1.dram = (if k == .cold then [] else s.dram) ∧ s1.pwr = { s.pwr with waking := [], hot := [] } :=
  ⟨_, _, rfl, rfl, rfl, rfl, rfl, rfl, rfl⟩

/-- What a reset gives back: the reset value of each field that it does not keep. -/
theorem State.resetPackage_fld (s : State) {k : RKind} {f : Fld} (hf : f.Reset) (hk : (keepMask k f.key >>> f.sh) % 2 ^ f.w = 0) :
    (s.resetPackage k).fld f = ((regDefault f.key).toNat >>> f.sh) % 2 ^ f.w := by
  obtain ⟨s1, b, hu, hregs, -⟩ := s.resetPackage_eq k
  rw [hu, State.fld_setFlag_apart _ _ rfl hf.busy, State.syncWin, State.fld_setFld_apart _ _ rfl hf.win, State.resetSec_fld _ _ hf,
    (s1.resetStacks_only s k).fld f hf.page]
  exact State.fld_resetRegs hregs hk

theorem State.resetSec_frame (s : State) (k : RKind) : (s.resetSec k).pst = s.pst ∧ (s.resetSec k).thr = s.thr ∧ (s.resetSec k).fab = s.fab ∧
    (s.resetSec k).dram = s.dram ∧ (s.resetSec k).pwr = s.pwr := by
  have hclose : ∀ z : State, z.closeDebug.pst = z.pst ∧ z.closeDebug.thr = z.thr ∧ z.closeDebug.fab = z.fab ∧ z.closeDebug.dram = z.dram ∧
      z.closeDebug.pwr = z.pwr := fun z => by
    obtain ⟨d, e, x, hx⟩ := z.closeDebug_eq
    rw [hx]
    exact ⟨rfl, rfl, rfl, rfl, rfl⟩
  unfold State.resetSec
  dsimp only
  obtain ⟨h1, h2, h3, h4, h5⟩ := hclose _
  rw [h1, h2, h3, h4, h5]
  split <;> exact ⟨rfl, rfl, rfl, rfl, rfl⟩

/-- What a reset leaves beside the registers. -/
theorem State.resetPackage_frame (s : State) (k : RKind) : (s.resetPackage k).pst = s.pst ∧ (s.resetPackage k).thr.ctxs = [] ∧
    (s.resetPackage k).fab = FabSt.empty ∧ (s.resetPackage k).dram = (if k == .cold then [] else s.dram) ∧
    (s.resetPackage k).pwr = { s.pwr with waking := [], hot := [] } := by
  obtain ⟨s1, b, hu, -, hpst, hthr, hfab, hdram, hpwr⟩ := s.resetPackage_eq k
  have hst := s1.resetStacks_only s k
  obtain ⟨h1, h2, h3, h4, h5⟩ := (s1.resetStacks s k).resetSec_frame k
  rw [hu, State.setFlag_pst, State.setFlag_thr, State.setFlag_fab, State.setFlag_dram, State.setFlag_pwr, State.syncWin, State.setFld_pst,
    State.setFld_thr, State.setFld_fab, State.setFld_dram, State.setFld_pwr]
  exact ⟨(h1.trans hst.pst).trans hpst, (congrArg ThrSt.ctxs (h2.trans hst.thr)).trans hthr, (h3.trans hst.fab).trans hfab,
    (h4.trans hst.dram).trans hdram, (h5.trans hst.pwr).trans hpwr⟩

/-! ### Starts, and the ways into Off, reset and Retention (R378, R380, R385, R388, R396) -/

theorem State.takeClr_frame (s : State) : s.takeClr.dram = s.dram ∧ s.takeClr.pst = s.pst ∧ s.takeClr.pwr.perst = s.pwr.perst ∧
    s.takeClr.pwr.imgChanged = s.pwr.imgChanged := by
  unfold State.takeClr
  split
  · simp only [State.setFld_dram, State.setFld_pst, State.setFld_pwr, State.setFlag_dram, State.setFlag_pst, State.setFlag_pwr, and_self]
  · exact ⟨rfl, rfl, rfl, rfl⟩

theorem State.enterStage_frame (s : State) {n : Nat} (h : n = 0 ∨ n = 1 ∨ n = 3) : (s.enterStage n).dram = s.dram ∧
    (s.enterStage n).pst = s.pst ∧ (s.enterStage n).thr = s.thr ∧ (s.enterStage n).pwr = s.pwr ∧ (s.enterStage n).fld fBoot_STAGE = n := by
  have hset : (s.setFld fBoot_STAGE n).fld fBoot_STAGE = n := State.fld_setFld_fits _ rfl (by
    have : fBoot_STAGE.w = 4 := rfl
    rw [this]
    omega)
  by_cases h3 : n = 3
  · subst h3
    rw [State.enterStage_three, State.setFld_dram, State.setFld_pst, State.setFld_thr, State.setFld_pwr,
      State.fld_setFld_apart _ _ rfl (by decide)]
    exact ⟨rfl, rfl, rfl, rfl, hset⟩
  · rw [State.enterStage_plain s h3 (by omega) (by omega)]
    exact ⟨rfl, rfl, rfl, rfl, hset⟩

/-- The stage that a start begins with. -/
def RKind.first (k : RKind) (img : Bool) : Nat := if k = .ret then (if img then 1 else 3) else 0

theorem RKind.first_cases (k : RKind) (img : Bool) : k.first img = 0 ∨ k.first img = 1 ∨ k.first img = 3 := by
  unfold RKind.first
  split_ifs <;> simp

/-- The fields that a start writes beside its stage. -/
def startFields : List Fld := [fBoot_ALT_USED, fBoot_SLOT, fMode_FWSET, fSec_SESSIONS]

/-- What a start leaves of the reset before its first stage: all but `startFields`, the power and the security state. -/
structure State.Starts (r z : State) : Prop where
  dram : z.dram = r.dram
  pst : z.pst = r.pst
  thr : z.thr = r.thr
  fld : ∀ f : Fld, (∀ g ∈ startFields, g.apart f = true) → z.fld f = r.fld f

theorem State.Starts.setFld {r z : State} (h : r.Starts z) {g : Fld} (hg : g ∈ startFields) (v : Nat) : r.Starts (z.setFld g v) := by
  obtain ⟨hd, hp, ht, hf⟩ := h
  have hok : g.ok = true := (by decide : ∀ g ∈ startFields, g.ok = true) g hg
  exact ⟨hd, hp, ht, fun f ha => (State.fld_setFld_apart _ _ hok (ha g hg)).trans (hf f ha)⟩

theorem State.Starts.withPwr {r z : State} (h : r.Starts z) (x : PwrSt) : r.Starts (z.withPwr x) := ⟨h.dram, h.pst, h.thr, h.fld⟩

theorem State.Starts.withSec {r z : State} (h : r.Starts z) (x : SecSt) : r.Starts (z.withSec x) := ⟨h.dram, h.pst, h.thr, h.fld⟩

theorem State.startAt_eq (s : State) (k : RKind) : ∃ z : State, s.startAt k = z.enterStage (k.first s.pwr.imgChanged) ∧
    (s.takeClr.resetPackage k).Starts z ∧ z.pwr.mode = .start ∧ z.pwr.warm = (k != .cold) ∧ z.pwr.perst = s.pwr.perst := by
  obtain ⟨-, -, -, -, hpwr⟩ := s.takeClr.resetPackage_frame k
  obtain ⟨-, -, hperst, himg⟩ := s.takeClr_frame
  have himg : (s.takeClr.resetPackage k).pwr.imgChanged = s.pwr.imgChanged := by rw [hpwr]; exact himg
  have hperst : (s.takeClr.resetPackage k).pwr.perst = s.pwr.perst := by rw [hpwr]; exact hperst
  unfold State.startAt
  extract_lets s1 s2 first src s3 s4 src' s5
  have hfirst : first = k.first s.pwr.imgChanged := by rw [← himg]; rfl
  have h2 : s1.Starts s2 := (State.Starts.setFld ⟨rfl, rfl, rfl, fun _ _ => rfl⟩ (by decide) _).setFld (by decide) _
  have h3 : s1.Starts s3 := h2.withPwr _
  have h4 : s1.Starts s4 ∧ s4.pwr = s3.pwr := by
    by_cases hk : k = .ret
    · rw [show s4 = s3.syncFwset from if_pos hk]
      exact ⟨h3.setFld (by decide) _, rfl⟩
    · rw [show s4 = s3 from if_neg hk]
      exact ⟨h3, rfl⟩
  have h5 : s1.Starts s5 ∧ s5.pwr = s4.pwr := by
    by_cases hk : first = 1
    · have hs5 : ∃ y : SecSt, s5 = (s4.withSec y).setFld fSec_SESSIONS 0 := ⟨_, if_pos hk⟩
      obtain ⟨y, hs5⟩ := hs5
      rw [hs5]
      exact ⟨(h4.1.withSec y).setFld (by decide) _, rfl⟩
    · rw [show s5 = s4 from if_neg hk]
      exact ⟨h4.1, rfl⟩
  refine ⟨s5, by rw [hfirst], h5.1, ?_, ?_, ?_⟩
  · rw [h5.2, h4.2]
  · rw [h5.2, h4.2]
  · rw [h5.2, h4.2]
    exact hperst

/-- What a start leaves, and its first stage. -/
theorem State.startAt_frame (s : State) (k : RKind) : (s.startAt k).dram = (if k == .cold then [] else s.dram) ∧ (s.startAt k).pst = s.pst ∧
    (s.startAt k).thr.ctxs = [] ∧ (s.startAt k).pwr.mode = .start ∧ (s.startAt k).pwr.warm = (k != .cold) ∧
    (s.startAt k).pwr.perst = s.pwr.perst ∧ (s.startAt k).fld fBoot_STAGE = k.first s.pwr.imgChanged := by
  obtain ⟨z, hz, hst, hmode, hwarm, hperst⟩ := s.startAt_eq k
  obtain ⟨hpst, hthr, -, hdram, -⟩ := s.takeClr.resetPackage_frame k
  obtain ⟨hd, hp, -⟩ := s.takeClr_frame
  obtain ⟨h1, h2, h3, h4, h5⟩ := z.enterStage_frame (k.first_cases s.pwr.imgChanged)
  rw [hz, h1, h2, h3, h4, h5, hst.dram, hst.pst, hst.thr, hdram, hpst, hd, hp]
  exact ⟨rfl, rfl, hthr, hmode, hwarm, hperst, rfl⟩

/-- A cold start gives back the reset value of a field that no cold reset keeps and no start writes. -/
theorem State.startAt_cold_fld (s : State) {f : Fld} (hf : f.Reset) (hk : (keepMask .cold f.key >>> f.sh) % 2 ^ f.w = 0)
    (hs : ∀ g ∈ fBoot_STAGE :: startFields, g.apart f = true) :
    (s.startAt .cold).fld f = ((regDefault f.key).toNat >>> f.sh) % 2 ^ f.w := by
  obtain ⟨z, hz, hst, -⟩ := s.startAt_eq .cold
  have hfirst : RKind.cold.first s.pwr.imgChanged = 0 := rfl
  rw [hz, hfirst, State.enterStage_plain z (by decide) (by decide) (by decide),
    State.fld_setFld_apart _ _ rfl (hs _ List.mem_cons_self), hst.fld f fun g hg => hs g (List.mem_cons_of_mem _ hg),
    State.resetPackage_fld _ hf hk]

theorem fPkg_JOB_PRESENT_reset : fPkg_JOB_PRESENT.Reset :=
  ⟨by simp [stackPage, fPkg_JOB_PRESENT, Fld.key], by decide, by decide, by decide, by decide, by decide⟩

theorem fSafe_SAFE_reset : fSafe_SAFE.Reset :=
  ⟨by simp [stackPage, fSafe_SAFE, Fld.key], by decide, by decide, by decide, by decide, by decide⟩

/-- Off after its reset: the boot progress record as committed (R395), no package identity, and the power state. -/
def State.offOf (r : State) : State :=
  let n := if (tabFind r.pst.vals 4).isSome then r.pstVal 4 else 0xF0
  let s2 := r.setCell fBoot_STAGE.key (BitVec.ofNat 64 (putBits (r.cell fBoot_STAGE.key).toNat 0 24 n))
  let s3 := (s2.setFld fBoot_STAGE 0).setFld fPkg_PKG_ID_APPLIED 0xFFFF
  { s3 with pwr := { s3.pwr with mode := .off, warm := false, wait7 := false, perstRet := false, clrFail := false, mctp := false, imgChanged := false } }

theorem State.powerOff_eq (s : State) : s.powerOff = (s.cutOff.commitLost.resetPackage .cold).offOf := rfl

theorem State.withPwr_def (z : State) (x : PwrSt) : ({ z with pwr := x } : State) = z.withPwr x := rfl

theorem State.withPwr_frame (z : State) (x : PwrSt) : (z.withPwr x).thr = z.thr ∧ (z.withPwr x).dram = z.dram ∧ (z.withPwr x).logs = z.logs ∧
    (z.withPwr x).pst = z.pst := ⟨rfl, rfl, rfl, rfl⟩

theorem State.offOf_eq (r : State) : ∃ (k : Nat) (v : W64) (z : State) (x : PwrSt), r.offOf = z.withPwr x ∧
    z = ((r.setCell k v).setFld fBoot_STAGE 0).setFld fPkg_PKG_ID_APPLIED 0xFFFF ∧ x.mode = .off ∧ x.pwrGood = z.pwr.pwrGood ∧
    x.protOff = z.pwr.protOff := by
  unfold State.offOf
  exact ⟨_, _, _, _, State.withPwr_def _ _, rfl, rfl, rfl, rfl⟩

theorem State.offOf_frame (r : State) : r.offOf.pwr.mode = .off ∧ r.offOf.pwr.pwrGood = r.pwr.pwrGood ∧ r.offOf.pwr.protOff = r.pwr.protOff ∧
    r.offOf.thr = r.thr ∧ r.offOf.dram = r.dram ∧ r.offOf.logs = r.logs ∧ r.offOf.pst = r.pst ∧ r.offOf.fld fPkg_PKG_ID_APPLIED = 0xFFFF := by
  obtain ⟨k, v, z, x, hr, hz, hmode, hgood, hprot⟩ := r.offOf_eq
  obtain ⟨ht, hd, hl, hp⟩ := z.withPwr_frame x
  rw [hr, State.withPwr_pwr, hmode, hgood, hprot, ht, hd, hl, hp, State.fld_withPwr, hz, State.fld_setFld_fits _ (f := fPkg_PKG_ID_APPLIED) rfl (by decide),
    State.setFld_pwr, State.setFld_pwr, State.setCell_pwr, State.setFld_thr, State.setFld_thr, State.setCell_thr, State.setFld_dram,
    State.setFld_dram, State.setCell_dram, State.setFld_logs, State.setFld_logs, State.setCell_logs, State.setFld_pst, State.setFld_pst,
    State.setCell_pst]
  exact ⟨rfl, rfl, rfl, rfl, rfl, rfl, rfl, rfl⟩

/-- Off leaves the power state off, without threads. -/
theorem State.powerOff_frame (s : State) : s.powerOff.pwr.mode = .off ∧ s.powerOff.thr.ctxs = [] ∧ s.powerOff.dram = [] ∧
    s.powerOff.logs = (s.cutOff.commitLost.resetPackage .cold).logs ∧
    s.powerOff.pst = s.cutOff.commitLost.pst ∧ s.powerOff.pwr.pwrGood = s.cutOff.commitLost.pwr.pwrGood ∧
    s.powerOff.pwr.protOff = s.cutOff.commitLost.pwr.protOff ∧ s.powerOff.fld fPkg_PKG_ID_APPLIED = 0xFFFF := by
  obtain ⟨hpst, hthr, -, hdram, hpwr⟩ := s.cutOff.commitLost.resetPackage_frame .cold
  obtain ⟨hmode, hgood, hprot, ht, hd, hl, hp, hid⟩ := (s.cutOff.commitLost.resetPackage .cold).offOf_frame
  rw [s.powerOff_eq, hmode, hgood, hprot, ht, hthr, hd, hdram, hl, hp, hpst, hid, hpwr]
  exact ⟨rfl, rfl, rfl, rfl, rfl, rfl, rfl, rfl⟩

theorem State.resetPackage_cold_logs (s : State) : (s.resetPackage .cold).logs = [] := rfl

/-! A write that the loss of power finds in the store. -/

theorem State.showPst_pwr (s : State) (i v : Nat) : (s.showPst i v).pwr = s.pwr := by
  have last : ∀ (l : List Nat) (t : State), (l.foldl (fun t k => t.setFld (fSafeLast k) (v / 2 ^ (64 * k))) t).pwr = t.pwr := by
    intro l
    induction l with
    | nil => exact fun _ => rfl
    | cons k l ih => exact fun t => ih _
  unfold State.showPst
  split
  case h_11 => exact last (List.range 8) s
  all_goals simp [State.showOwner, State.showAnchor]

theorem State.countPst_pwr (s : State) (i : Nat) : (s.countPst i).pwr = s.pwr := by
  unfold State.countPst
  dsimp only
  split
  · exact State.event_pwr ..
  · split
    · exact State.event_pwr ..
    · rfl

theorem State.committed_pwr (s : State) (i v : Nat) : (s.committed i v).pwr = s.pwr := by
  simp only [State.committed, State.setFld_pwr, State.inc_pwr, State.countPst_pwr, State.showPst_pwr]

/-- A commit that nothing waits for and nothing follows. -/
theorem State.commitDone_last {s : State} {i v : Nat} (hb : s.pst.busy = some (i, v)) (hq : s.pst.queue = []) (hw : s.pst.waits = []) :
    s.commitDone.pst.busy = none ∧ s.commitDone.pst.queue = [] ∧ s.commitDone.pwr = s.pwr := by
  have hwaits : ∀ z : State, z.pst.waits = [] → z.writesDone 1 = { z with pst := { z.pst with waits := [] } } := fun z hz => by
    simp only [State.writesDone, hz, List.filter_nil, List.map_nil, List.foldl_nil]
  rw [State.commitDone_alone hb hq, hwaits]
  · exact ⟨rfl, rfl, s.committed_pwr i v⟩
  · rw [State.setFlag_pst, State.committed_pst]
    exact hw

/-- The loss of power leaves the store idle. -/
theorem State.commitLost_frame (s : State) : s.commitLost.pst.busy = none ∧ s.commitLost.pst.queue = [] ∧ s.commitLost.pwr = s.pwr := by
  have fold : ∀ (l : List (Nat × Nat)) (t : State), (l.foldl (fun t e => t.showPst e.1 (t.pstVal e.1)) t).pst = t.pst ∧
      (l.foldl (fun t e => t.showPst e.1 (t.pstVal e.1)) t).pwr = t.pwr := by
    intro l
    induction l with
    | nil => exact fun _ => ⟨rfl, rfl⟩
    | cons e l ih =>
      intro t
      rw [List.foldl_cons, (ih _).1, (ih _).2, State.showPst_pst, State.showPst_pwr]
      exact ⟨rfl, rfl⟩
  unfold State.commitLost
  extract_lets lost src s1
  obtain ⟨hp, hw⟩ : s1.pst = { s.pst with queue := [], waits := [] } ∧ s1.pwr = s.pwr := fold lost _
  split
  · next hb => exact ⟨hb, by rw [hp], hw⟩
  · next i v hb =>
    split
    · obtain ⟨h1, h2, h3⟩ := State.commitDone_last (s := s1.draw.2) (i := i) (v := v) hb
        ((congrArg PstSt.queue (s1.draw_pst.trans hp)).trans rfl) ((congrArg PstSt.waits (s1.draw_pst.trans hp)).trans rfl)
      exact ⟨h1, h2, (h3.trans s1.draw_pwr).trans hw⟩
    · rename_i s2 _ _
      have h2 : s2.pst.busy = none ∧ s2.pst.queue = [] ∧ s2.pwr = s.pwr := ⟨rfl, congrArg PstSt.queue hp, hw⟩
      obtain ⟨hb2, hq2, hw2⟩ := h2
      split
      · rw [State.showPst_pst, State.showPst_pwr]
        exact ⟨hb2, hq2, hw2⟩
      · exact ⟨hb2, hq2, hw2⟩

theorem State.cutOff_pwr (s : State) : s.cutOff.pwr = s.pwr := by
  unfold State.cutOff
  split <;> rfl

/-! The registers of the power page. -/

/-- RET_REQ and RET_EXIT: the write leaves IDLE_EN, FREQ_EN and IDLE_T as they read, and acts. -/
theorem State.agentWrite_pwrCtl {s : State} {ag : Agent} (hag : s.agentUp ag = true) {v : Nat} (hv : v = 4 ∨ v = 8) :
    ∃ z : State, s.agentWrite ag pwrPage 0x48 4 (s.pwrCtl + v) = (if v = 4 then z.retReq else z.retExit) ∧
      { z with regs := s.regs } = s ∧ ∀ k, k ≠ pwrPage * 512 + 9 → z.cell k = s.cell k := by
  have hctl : s.pwrCtl % 16 < 4 := by
    have : ∀ x y : Nat, y < 4 → (x / 16 * 16 + y) % 16 < 4 := fun x y h => by omega
    exact this _ _ (s.fld_lt ⟨0x00E, 0x48, 1, 0⟩)
  generalize s.pwrCtl = c at hctl ⊢
  have hg : ∀ {f : Fld} {x : Nat}, f.page = pwrPage → f.off = 0x48 → 0 < f.w → f.lo + f.w ≤ 32 → (c + v) / 2 ^ f.lo % 2 ^ f.w = x →
      (wrOf ag pwrPage 0x48 4 (c + v)).get f = some x := fun hp ho hw h hx => wrOf_get ag hp ho hw h hx
  have hno : ∀ {f : Fld}, f.key ≠ pwrPage * 512 + 9 → (wrOf ag pwrPage 0x48 4 (c + v)).get f = none := fun h =>
    wrOf_get_apart ag _ fun he => absurd he h
  have hreq : (wrOf ag pwrPage 0x48 4 (c + v)).get fPwr_RET_REQ = some (if v = 4 then 1 else 0) :=
    hg rfl rfl (by decide) (by decide) (by show (c + v) / 4 % 2 = _; rcases hv with rfl | rfl <;> simp <;> omega)
  have hexit : (wrOf ag pwrPage 0x48 4 (c + v)).get fPwr_RET_EXIT = some (if v = 4 then 0 else 1) :=
    hg rfl rfl (by decide) (by decide) (by show (c + v) / 8 % 2 = _; rcases hv with rfl | rfl <;> simp <;> omega)
  have hcap : (wrOf ag pwrPage 0x48 4 (c + v)).get fPwr_CAP_W = none := hno (by decide)
  have hdef : (wrOf ag pwrPage 0x48 4 (c + v)).get fPwr_CAP_DEF = none := hno (by decide)
  have htj : (wrOf ag pwrPage 0x48 4 (c + v)).get fPwr_TJ_THR = none := hno (by decide)
  refine ⟨s.plainWrite .pwr 0 (wrOf ag pwrPage 0x48 4 (c + v)), ?_, s.plainWrite_others .pwr 0 _,
    fun k hk => s.plainWrite_cell_ne .pwr 0 _ hk⟩
  rw [State.agentWrite_eq _ hag rfl (by decide), s.regWrite_eq ag 0x48 4 (c + v) (p := pwrPage) (b := .pwr) (i := 0) rfl,
    State.headActs_body _ _ _ (by simp [wrOf]), State.blockActs, State.onIf_none hcap, State.on_none hdef, State.onIf_none htj]
  rcases hv with rfl | rfl
  · rw [State.onSet_one hreq, State.onSet_zero hexit, if_pos rfl]
  · rw [State.onSet_zero hreq, State.onSet_one hexit, if_neg (by decide)]

/-- A warm reset after the job's end (R388). -/
theorem exec_perstAssert_run {s : State} (hm : s.pwr.mode = .run) : Completes .perstAssert s fun u => u.pwr.mode = .held ∧ u.pwr.perst = true ∧
    u.thr.ctxs = [] ∧ u.flag fPkg_JOB_PRESENT = false ∧ u.fab.ctxs = [] := by
  have he : exec .perstAssert s = execPerstAssert s := rfl
  have hkeep := ((State.Keeps.refl { s with pwr := { s.pwr with perst := true } }).jobEnd none).perst
  generalize hz : ({ s with pwr := { s.pwr with perst := true } } : State).jobEnd none = z at hkeep
  obtain ⟨-, hthr, hfab, -, hpwr⟩ := z.resetPackage_frame .warm
  have hfld := z.resetPackage_fld (k := .warm) fPkg_JOB_PRESENT_reset (by decide +kernel)
  refine Completes.of (u := (z.resetPackage .warm).withPwr { (z.resetPackage .warm).pwr with mode := .held }) ?_ ⟨rfl, ?_, hthr, ?_, ?_⟩
  · rw [he, execPerstAssert]
    dsimp only
    split
    · rw [← hz]
      rfl
    · next h => rw [hm] at h; cases h
    · next h => rw [hm] at h; cases h
    · next h _ _ => exact absurd hm h
  · rw [State.withPwr_pwr, hpwr]
    exact hkeep
  · rw [State.flag, State.fld_withPwr, hfld]
    decide +kernel
  · exact congrArg FabSt.ctxs hfab

/-- The end of PERST_N begins the warm start. -/
theorem exec_perstDeassert_held {s : State} (hm : s.pwr.mode = .held) : Completes .perstDeassert s fun u => u.pwr.mode = .start ∧
    u.fld fBoot_STAGE = 0 ∧ u.pwr.perst = false ∧ u.pwr.warm = true ∧ u.dram = s.dram ∧ u.pst = s.pst := by
  have he : exec .perstDeassert s = execPerstDeassert s := rfl
  obtain ⟨hdram, hpst, -, hmode, hwarm, hperst, hstage⟩ := (s.withPwr { s.pwr with perst := false }).startAt_frame .warm
  refine Completes.of (u := (s.withPwr { s.pwr with perst := false }).startAt .warm) ?_ ⟨hmode, hstage, hperst, hwarm, hdram, hpst⟩
  rw [he, execPerstDeassert]
  dsimp only
  split
  · rfl
  · next h => rw [hm] at h; cases h
  · next h => rw [hm] at h; cases h
  · next h _ _ => exact absurd hm h

/-- Loss of PWR_GOOD: Off, with an idle store. -/
theorem exec_pwrGoodDeassert_on {s : State} (hm : s.pwr.mode ≠ .off) : Completes .pwrGoodDeassert s fun u => u.pwr.mode = .off ∧
    u.pwr.pwrGood = false ∧ u.pwr.protOff = false ∧ u.thr.ctxs = [] ∧ u.dram = [] ∧ u.logs = [] ∧ u.pst.busy = none ∧ u.pst.queue = [] ∧
    u.fld fPkg_PKG_ID_APPLIED = 0xFFFF := by
  have he : exec .pwrGoodDeassert s = execPwrGoodDeassert s := rfl
  generalize hz : s.withPwr { s.pwr with pwrGood := false, protOff := false } = z
  have hzw : z.pwr = { s.pwr with pwrGood := false, protOff := false } := by rw [← hz, State.withPwr_pwr]
  obtain ⟨hmode, hthr, hdram, hlogs, hpst, hgood, hprot, hid⟩ := z.powerOff_frame
  obtain ⟨hbusy, hqueue, hlost⟩ := z.cutOff.commitLost_frame
  refine Completes.of (u := z.powerOff) ?_ ⟨hmode, ?_, ?_, hthr, hdram, hlogs.trans (State.resetPackage_cold_logs _), ?_, ?_, hid⟩
  · rw [he, execPwrGoodDeassert]
    have hoff : z.pwr.mode ≠ .off := by rw [hzw]; exact hm
    rw [← hz] at hoff ⊢
    exact congrArg Host.Outcome.next (if_neg hoff)
  · rw [hgood, hlost, State.cutOff_pwr, hzw]
  · rw [hprot, hlost, State.cutOff_pwr, hzw]
  · rw [hpst, hbusy]
  · rw [hpst, hqueue]

theorem exec_protectivePowerDown {s : State} {code : Nat} {held : Bool} (hm : s.pwr.mode ≠ .off) (hlo : 1 ≤ code) (hhi : code ≤ 5) :
    Completes (.protectivePowerDown code held) s fun u => u.pwr.mode = .off ∧ u.pwr.protOff = true ∧ u.thr.ctxs = [] := by
  have he : exec (.protectivePowerDown code held) s = execProtectivePowerDown code held s := rfl
  have hno : ¬(s.pwr.mode = .off ∨ code = 0 ∨ 5 < code) := by
    rintro (h | h | h)
    · exact hm h
    · omega
    · omega
  have hx : ∃ z : State, exec (.protectivePowerDown code held) s = .next (z.powerOff.withPwr { z.powerOff.pwr with protOff := true }) := by
    rw [he, execProtectivePowerDown, if_neg hno]
    exact ⟨_, rfl⟩
  obtain ⟨z, hx⟩ := hx
  obtain ⟨hmode, hthr, -⟩ := z.powerOff_frame
  exact Completes.of hx ⟨hmode, rfl, (congrArg ThrSt.ctxs (State.withPwr_frame ..).1).trans hthr⟩

/-- A cold start from Off (R466). -/
theorem exec_coldStart_off {s : State} (hm : s.pwr.mode = .off) (hg : s.pwr.pwrGood = true) (hp : s.pwr.protOff = false)
    (hr : s.flag fPwr_IN_RANGE = true) : Completes .coldStart s fun u => u.pwr.mode = .start ∧ u.fld fBoot_STAGE = 0 ∧ u.pwr.warm = false ∧
      u.thr.ctxs = [] ∧ u.flag fPkg_JOB_PRESENT = false ∧ u.flag fSafe_SAFE = false ∧ u.pst = s.pst := by
  obtain ⟨-, hpst, hthr, hmode, hwarm, -, hstage⟩ := s.startAt_frame .cold
  refine Completes.of (u := s.startAt .cold) (congrArg Host.Outcome.next (if_pos ⟨hm, hg, by rw [hp]; rfl, hr⟩))
    ⟨hmode, hstage, hwarm, hthr, ?_, ?_, hpst⟩
  · rw [State.flag, s.startAt_cold_fld fPkg_JOB_PRESENT_reset (by decide +kernel) (by decide)]
    decide +kernel
  · rw [State.flag, s.startAt_cold_fld fSafe_SAFE_reset (by decide +kernel) (by decide)]
    decide +kernel

/-- RET_REQ and RET_EXIT find the state as it was but for the register that they write. -/
theorem State.flag_of_cells {s z : State} {c : Nat} (h : ∀ k, k ≠ c → z.cell k = s.cell k) {f : Fld} (hf : f.key ≠ c) : z.flag f = s.flag f := by
  rw [State.flag, State.flag, State.fld, State.fld, h _ hf]

theorem exec_retReq_refused {s : State} {ag : Agent} (hag : s.agentUp ag = true) (hm : s.pwr.mode = .run) (hj : s.flag fPkg_JOB_PRESENT = true) :
    Completes (.retReq ag) s fun u => u.pwr.mode = .run ∧ u.flag fPwr_RET_REFUSED = true := by
  obtain ⟨z, hw, hz, hcell⟩ := State.agentWrite_pwrCtl hag (.inl rfl)
  have hmode : z.pwr.mode = .run := (congrArg (·.pwr.mode) hz).trans hm
  have hjob : z.flag fPkg_JOB_PRESENT = true := (State.flag_of_cells hcell (by decide)).trans hj
  refine Completes.of (u := z.setFlag fPwr_RET_REFUSED true) ?_ ⟨(congrArg PwrSt.mode (State.setFlag_pwr ..)).trans hmode, State.flag_setFlag_same _ _ rfl rfl⟩
  refine congrArg Host.Outcome.next (hw.trans ((if_pos rfl).trans ?_))
  rw [State.retReq, if_neg (not_not.mpr hmode), if_pos hjob]

/-- The state with another memory state. -/
def State.withMem (s : State) (x : MemSt) : State := { s with mem := x }

@[simp] theorem State.fld_withMem (s : State) (x : MemSt) (f : Fld) : (s.withMem x).fld f = s.fld f := rfl

theorem State.dropHostLines_eq (s : State) : ∃ (x : MemSt) (v : Nat), s.dropHostLines = (s.withMem x).setFld fCxl_HOST_LINES_LOST v := ⟨_, _, rfl⟩

theorem State.loseHost_eq (s : State) : ∃ x : MemSt, s.loseHost = ((s.withMem x).setFlag fCxl_HOST_LOST true).dropHostLines := ⟨_, rfl⟩

theorem State.loseHost_rate (s : State) : s.loseHost.fld fCxl_RATE = s.fld fCxl_RATE := by
  obtain ⟨x, hx⟩ := s.loseHost_eq
  obtain ⟨y, v, hy⟩ := ((s.withMem x).setFlag fCxl_HOST_LOST true).dropHostLines_eq
  rw [hx, hy, State.fld_setFld_apart _ _ rfl (by decide), State.fld_withMem, State.fld_setFlag_apart _ _ rfl (by decide), State.fld_withMem]

theorem State.withEng_sec (s : State) (x : EngSt) : (s.withEng x).sec = s.sec := rfl
theorem State.withEng_dram (s : State) (x : EngSt) : (s.withEng x).dram = s.dram := rfl

theorem State.gateUnits_frame {s : State} : s.gateUnits.sec = s.sec ∧ s.gateUnits.dram = s.dram := by
  have fold : ∀ (l : List Nat) (t : State), (l.foldl (fun (t : State) q => t.setFlag (fGated q) true) t).sec = t.sec ∧
      (l.foldl (fun (t : State) q => t.setFlag (fGated q) true) t).dram = t.dram := by
    intro l
    induction l with
    | nil => exact fun _ => ⟨rfl, rfl⟩
    | cons q l ih =>
      intro t
      rw [List.foldl_cons, (ih _).1, (ih _).2, State.setFlag_sec, State.setFlag_dram]
      exact ⟨rfl, rfl⟩
  exact fold gatedPages s

theorem State.withPwr_sec (s : State) (x : PwrSt) : (s.withPwr x).sec = s.sec := rfl
theorem State.withSec_sec (s : State) (x : SecSt) : (s.withSec x).sec = x := rfl

theorem State.closeDebug_nonce (s : State) : s.closeDebug.sec.nonce = s.sec.nonce := by
  have hx : ∃ (z : State) (x : SecSt), s.closeDebug = z.withSec x ∧ x.nonce = z.sec.nonce ∧
      z.sec = s.sec := ⟨_, _, rfl, rfl, rfl⟩
  obtain ⟨z, x, hc, hn, hs⟩ := hx
  rw [hc, State.withSec_sec, hn, hs]

theorem State.goIdle_sec (s : State) : s.goIdle.sec = s.sec := by
  obtain ⟨x, hx⟩ := s.goIdle_eq
  rw [hx, State.setFld_sec, State.withEng_sec, State.gateUnits_frame.1]

/-- Retention after the ports: the host's link down, no nonce, STATE, in this order. -/
theorem State.retReq_eq {z : State} (hmode : z.pwr.mode = .run) (hjob : z.flag fPkg_JOB_PRESENT = false) :
    ∃ (s1 : State) (x : SecSt) (y : PwrSt), z.retReq =
      (((((((s1.setFld fCxl_RATE 0).setFld fCxl_WIDTH 0).setFlag fCxl_IDE_SECURE false).loseHost).withSec x).closeDebug.goIdle).setFld
        fPwr_STATE 4).withPwr y ∧ x.nonce = none ∧ y.mode = .ret := by
  rw [State.retReq, if_neg (not_not.mpr hmode), if_neg (by rw [hjob]; decide)]
  exact ⟨_, _, _, State.withPwr_def _ _, rfl, rfl⟩

theorem State.retReq_alone {z : State} (hmode : z.pwr.mode = .run) (hjob : z.flag fPkg_JOB_PRESENT = false) : z.retReq.pwr.mode = .ret ∧
    z.retReq.fld fPwr_STATE = 4 ∧ z.retReq.sec.nonce = none ∧ z.retReq.linkUp = false := by
  obtain ⟨s1, x, y, hz, hx, hy⟩ := State.retReq_eq hmode hjob
  have hrate : z.retReq.fld fCxl_RATE = 0 := by
    rw [hz, State.fld_withPwr, State.fld_setFld_apart _ _ rfl (by decide), State.fld_goIdle _ (by decide) (by decide),
      State.closeDebug_fld _ (by decide) (by decide), State.fld_congr (State.withSec_regs ..), State.loseHost_rate,
      State.fld_setFlag_apart _ _ rfl (by decide), State.fld_setFld_apart _ _ rfl (by decide)]
    exact State.fld_setFld_fits _ rfl (by decide)
  refine ⟨?_, ?_, ?_, ?_⟩
  · rw [hz, State.withPwr_pwr, hy]
  · rw [hz, State.fld_withPwr]
    exact State.fld_setFld_fits _ rfl (by decide)
  · rw [hz, State.withPwr_sec, State.setFld_sec, State.goIdle_sec, State.closeDebug_nonce, State.withSec_sec, hx]
  · rw [State.linkUp, hrate]
    rfl

theorem exec_retReq_alone {s : State} {ag : Agent} (hag : s.agentUp ag = true) (hm : s.pwr.mode = .run) (hj : s.flag fPkg_JOB_PRESENT = false) :
    Completes (.retReq ag) s fun u => u.pwr.mode = .ret ∧ u.fld fPwr_STATE = 4 ∧ u.sec.nonce = none ∧ u.linkUp = false := by
  obtain ⟨z, hw, hz, hcell⟩ := State.agentWrite_pwrCtl hag (.inl rfl)
  have hmode : z.pwr.mode = .run := (congrArg (·.pwr.mode) hz).trans hm
  have hjob : z.flag fPkg_JOB_PRESENT = false := (State.flag_of_cells hcell (by decide)).trans hj
  exact Completes.of (congrArg Host.Outcome.next (hw.trans (if_pos rfl))) (State.retReq_alone hmode hjob)

theorem exec_retExit {s : State} {ag : Agent} (hag : s.agentUp ag = true) (hm : s.pwr.mode = .ret) (hi : s.pwr.imgChanged = false) :
    Completes (.retExit ag) s fun u => u.pwr.mode = .start ∧ u.fld fBoot_STAGE = 3 ∧ u.dram = s.dram := by
  obtain ⟨z, hw, hz, -⟩ := State.agentWrite_pwrCtl hag (.inr rfl)
  have hmode : z.pwr.mode = .ret := (congrArg (·.pwr.mode) hz).trans hm
  have himg : z.pwr.imgChanged = false := (congrArg (·.pwr.imgChanged) hz).trans hi
  obtain ⟨hdram, -, -, hstart, -, -, hstage⟩ := z.startAt_frame .ret
  refine Completes.of (u := z.startAt .ret) (congrArg Host.Outcome.next (hw.trans ((if_neg (by decide)).trans (if_pos hmode)))) ⟨hstart, ?_, ?_⟩
  · rw [hstage, himg]
    rfl
  · have hd : ({ z with regs := s.regs } : State).dram = s.dram := congrArg State.dram hz
    exact hdram.trans hd

/-! Idle (R378, R379). -/

theorem State.gateUnits_flag (s : State) {p : Nat} (hp : p ∈ gatedPages) : s.gateUnits.flag (fGated p) = true := by
  have hok : ∀ q, (fGated q).ok = true := fun q => by simp [Fld.ok, Fld.sh, Fld.w, fGated]
  have keep : ∀ (l : List Nat) (t : State), t.flag (fGated p) = true → (l.foldl (fun (t : State) q => t.setFlag (fGated q) true) t).flag (fGated p) = true := by
    intro l
    induction l with
    | nil => exact fun _ h => h
    | cons q l ih =>
      intro t ht
      refine ih _ ?_
      by_cases hq : q = p
      · subst hq
        exact State.flag_setFlag_same _ true (hok q) rfl
      · rw [State.flag_setFlag_apart _ _ (hok q) (by simp [Fld.apart, fGated, Fld.key]; omega), ht]
  have set : ∀ (l : List Nat) (t : State), p ∈ l → (l.foldl (fun (t : State) q => t.setFlag (fGated q) true) t).flag (fGated p) = true := by
    intro l
    induction l with
    | nil => exact fun _ h => absurd h List.not_mem_nil
    | cons q l ih =>
      intro t ht
      rcases List.mem_cons.mp ht with rfl | ht
      · exact keep l _ (State.flag_setFlag_same _ true (hok p) rfl)
      · exact ih _ ht
  exact set gatedPages s hp

theorem fPwr_STATE_apart_fGated (p : Nat) : fPwr_STATE.apart (fGated p) = true := by
  have hp : (fGated p).key = p * 512 + 7 := by simp [Fld.key, fGated]
  have hs : fPwr_STATE.key = 14 * 512 + 9 := rfl
  have hne : fPwr_STATE.key ≠ (fGated p).key := by omega
  simp [Fld.apart, hne]

theorem State.goIdle_gated (s : State) (g : Fin 256) : s.goIdle.flag (fGated (0x100 + g.val)) = true := by
  have hmem : 0x100 + g.val ∈ gatedPages := by
    have : g.val < 256 := g.isLt
    simp [gatedPages, this]
  obtain ⟨x, hx⟩ := s.goIdle_eq
  have hap : fPwr_STATE.apart (fGated (0x100 + g.val)) = true := fPwr_STATE_apart_fGated _
  rw [hx, State.flag, State.fld_setFld_apart _ _ rfl hap, State.fld_withEng]
  exact s.gateUnits_flag hmem

theorem State.goIdle_dram (s : State) : s.goIdle.dram = s.dram := by
  obtain ⟨x, hx⟩ := s.goIdle_eq
  rw [hx, State.setFld_dram, State.withEng_dram, State.gateUnits_frame.2]

theorem exec_idleEntry {s : State} (hm : s.pwr.mode = .run) (hen : s.flag fPwr_IDLE_EN = true) (hst : s.fld fPwr_STATE = 1) (hc : s.thr.ctxs = [])
    (hl : s.thr.launches = []) (hmat : s.eng.mat = []) (hsolv : s.eng.solv = []) (hstk : s.stks = []) : Completes .idleEntry s fun u =>
      u.fld fPwr_STATE = 3 ∧ (∀ g : Fin 256, u.flag (fGated (0x100 + g.val)) = true) ∧ u.dram = s.dram := by
  have he : exec .idleEntry s = execIdleEntry s := rfl
  refine Completes.of (u := s.goIdle) ?_ ⟨s.goIdle_state, s.goIdle_gated, s.goIdle_dram⟩
  rw [he, execIdleEntry]
  refine congrArg Host.Outcome.next (if_neg ?_)
  simp [hm, hen, hst, hc, hl, hmat, hsolv, hstk, State.liveCtxs]

theorem fGated_ok (p : Nat) : (fGated p).ok = true := by simp [Fld.ok, Fld.sh, Fld.w, fGated]

theorem exec_idleWakeDone {s : State} {u : GatedUnit} (hw : gatedPage u ∈ s.pwr.waking) (hs : s.fld fPwr_STATE = 3) :
    Completes (.idleWakeDone u) s fun v => v.flag (fGated (gatedPage u)) = false ∧ gatedPage u ∉ v.pwr.waking ∧ v.fld fPwr_STATE = 1 := by
  have he : exec (.idleWakeDone u) s = execIdleWakeDone u s := rfl
  have hap : (fGated (gatedPage u)).apart fPwr_STATE = true := fGated_apart _ (by decide)
  generalize hz : s.withPwr { s.pwr with waking := s.pwr.waking.filter (· != gatedPage u) } = z
  have hzs : z.fld fPwr_STATE = 3 := by rw [← hz, State.fld_withPwr, hs]
  have hzw : z.pwr.waking = s.pwr.waking.filter (· != gatedPage u) := by rw [← hz, State.withPwr_pwr]
  refine Completes.of (u := (z.setFlag (fGated (gatedPage u)) false).setFld fPwr_STATE 1) ?_ ⟨?_, ?_, State.fld_setFld_fits _ rfl (by decide)⟩
  · rw [he, execIdleWakeDone]
    have hin : s.pwr.waking.contains (gatedPage u) = true := by simpa using hw
    have hread : (z.setFlag (fGated (gatedPage u)) false).fld fPwr_STATE = 3 := by rw [State.fld_setFlag_apart _ _ (fGated_ok _) hap, hzs]
    rw [if_pos hin, State.withPwr_def, hz]
    exact congrArg Host.Outcome.next (if_pos hread)
  · rw [State.flag, State.fld_setFld_apart _ _ rfl (fPwr_STATE_apart_fGated _)]
    exact State.flag_setFlag_same _ false (fGated_ok _) rfl
  · rw [State.setFld_pwr, State.setFlag_pwr, hzw]
    simp

/-- Settles O53: each change of mode by the lemma about its start, its reset or its Idle. -/
theorem powerModesChange : Obligations.PowerModesChange := by
  unfold Obligations.PowerModesChange
  intro s ag
  refine ⟨⟨_, rfl, rfl, rfl, rfl⟩, exec_coldStart_off, fun h => ?_, exec_pwrGoodDeassert_on, exec_perstAssert_run, exec_perstDeassert_held,
    fun hm hag _ => ⟨exec_retReq_refused hag hm, exec_retReq_alone hag hm⟩, fun hm hag hi => exec_retExit hag hm hi, exec_idleEntry, fun h => ?_,
    fun _ hw hs => exec_idleWakeDone hw hs, fun _ _ hm hlo hhi => exec_protectivePowerDown hm hlo hhi⟩
  · refine congrArg Host.Outcome.next (if_neg ?_)
    rintro ⟨h1, h2, h3, h4⟩
    rcases h with h | h | h | h
    · exact h h1
    · rw [h] at h2; cases h2
    · rw [h] at h3; cases h3
    · rw [h] at h4; cases h4
  · exact congrArg Host.Outcome.next (if_pos (.inr (.inr (.inl (by rw [h]; decide)))))

end Sys2Proof.Machine
end

section
/-! # Windows, arrival counters and async copies -/
namespace Sys2Proof.Machine

/-! ### Windows of threads (R269, R270) -/

theorem State.barByte_congr {s t : State} (h : t.bar2 = s.bar2) (k : Nat) : t.barByte k = s.barByte k := by
  simp only [State.barByte, h]

theorem State.window_congr {s t : State} (h : t.bar2 = s.bar2) (j : Nat) : t.window j = s.window j :=
  State.window_eq fun _ _ => State.barByte_congr h _

/-- A request with reserved bits, an unaligned base or an empty range of sources: code 1. -/
def winReserved (r : List Byte) (lendOk : Bool) : Prop :=
  fieldLE r 0x12 1 / 16 ≠ 0 ∨ fieldLE r 0x13 1 / 2 ≠ 0 ∨ fieldLE r 0x14 2 / 16384 ≠ 0 ∨ fieldLE r 0x1A 6 ≠ 0 ∨ fieldLE r 0 8 / 2 ^ 48 ≠ 0 ∨
    fieldLE r 0 8 % 65536 ≠ 0 ∨ fieldLE r 0x18 2 < fieldLE r 0x16 2 ∨ (bitAt (fieldLE r 0x12 1) 3 ∧ !lendOk)

/-- A request of a length that is no window's: code 2. -/
def winLength (r : List Byte) : Prop := fieldLE r 8 8 % 65536 ≠ 0 ∨ fieldLE r 8 8 = 0 ∨ 2 ^ 34 < fieldLE r 8 8

section Check
variable {s : State} {r : List Byte} {ok : Bool}

theorem State.winCheck_of_reserved (h : winReserved r ok) : s.winCheck r ok = (1, 0) := if_pos h

theorem State.winCheck_of_length (h1 : ¬winReserved r ok) (h2 : winLength r) : s.winCheck r ok = (2, 0) := (if_neg h1).trans (if_pos h2)

/-- A request that is neither: its codes, or an index in the table that no window has. -/
theorem State.winCheck_cases : (s.winCheck r ok).1 = 1 ∨ (s.winCheck r ok).1 = 2 ∨ (3 ≤ (s.winCheck r ok).1 ∧ (s.winCheck r ok).1 ≤ 6) ∨
    ((s.winCheck r ok).1 = 0 ∧ (s.winCheck r ok).2 < 16384 ∧ (s.window (s.winCheck r ok).2).valid = false) := by
  unfold State.winCheck
  dsimp only
  split
  · exact .inl rfl
  split
  · exact .inr (.inl rfl)
  split
  · exact .inr (.inr (.inl ⟨le_rfl, Nat.le_add_left 3 3⟩))
  split
  · exact .inr (.inr (.inl ⟨Nat.le_add_left 3 1, Nat.le_add_left 4 2⟩))
  split
  · split
    · next k hk => exact .inr (.inr (.inr ⟨rfl, List.mem_range.mp (List.mem_of_find?_eq_some hk), by simpa using List.find?_some hk⟩))
    · exact .inr (.inr (.inl ⟨Nat.le_add_left 3 3, le_rfl⟩))
  split
  · exact .inr (.inr (.inl ⟨Nat.le_add_left 3 2, Nat.le_add_left 5 1⟩))
  · next hv => exact .inr (.inr (.inr ⟨rfl, Nat.mod_lt _ (Nat.zero_lt_succ _), by simpa using hv⟩))

theorem State.winCheck_accepts {i : Nat} (h : s.winCheck r ok = (0, i)) : i < 16384 ∧ (s.window i).valid = false := by
  have hc := s.winCheck_cases (r := r) (ok := ok)
  rw [h] at hc
  rcases hc with hc | hc | ⟨hc, -⟩ | ⟨-, hc⟩
  · cases hc
  · cases hc
  · cases hc
  · exact hc

theorem State.winCheck_le : (s.winCheck r ok).1 ≤ 6 := by
  rcases s.winCheck_cases (r := r) (ok := ok) with h | h | h | h <;> omega

theorem State.winCheck_reserved (h : 16 ≤ fieldLE r 18 1 ∨ fieldLE r 0 8 % 65536 ≠ 0 ∨ fieldLE r 24 2 < fieldLE r 22 2) :
    (s.winCheck r ok).1 = 1 := by
  refine congrArg Prod.fst (State.winCheck_of_reserved ?_)
  rcases h with h | h | h
  · exact .inl (by omega)
  · exact .inr (.inr (.inr (.inr (.inr (.inl h)))))
  · exact .inr (.inr (.inr (.inr (.inr (.inr (.inl h))))))

theorem State.winCheck_length (h1 : (s.winCheck r ok).1 ≠ 1) (h : fieldLE r 8 8 = 0 ∨ fieldLE r 8 8 % 65536 ≠ 0 ∨ 2 ^ 34 < fieldLE r 8 8) :
    (s.winCheck r ok).1 = 2 := by
  have hlen : winLength r := by
    rcases h with h | h | h
    · exact .inr (.inl h)
    · exact .inl h
    · exact .inr (.inr h)
  by_cases hr : winReserved r ok
  · exact absurd (congrArg Prod.fst (State.winCheck_of_reserved hr)) h1
  · exact congrArg Prod.fst (State.winCheck_of_length hr hlen)

end Check

theorem sliceB_sliceB_at (l : List Byte) (k : Nat) {n o w : Nat} (h : o + w ≤ n) : sliceB (sliceB l k n) o w = sliceB l (k + o) w := by
  refine List.map_congr_left fun i hi => ?_
  have hin : o + i < n := by have := List.mem_range.1 hi; omega
  simp [sliceB, hin, Nat.add_assoc]

/-- The sources of a request stand in its entry as they stood. -/
theorem fieldLE_winEntry_src (r : List Byte) (i : Nat) : fieldLE (winEntry r i) 0x16 2 = fieldLE r 0x16 2 ∧
    fieldLE (winEntry r i) 0x18 2 = fieldLE r 0x18 2 := by
  have hlen : (sliceB r 0 0x13 ++ natLE 1 0 ++ natLE 2 i).length = 0x16 := by simp only [List.length_append, sliceB_length, natLE_length]
  have hs : ∀ o w, o + w ≤ 4 → fieldLE (winEntry r i) (0x16 + o) w = fieldLE r (0x16 + o) w := fun o w h => by
    have he : winEntry r i = (sliceB r 0 0x13 ++ natLE 1 0 ++ natLE 2 i) ++ (sliceB r 0x16 4 ++ (natLE 1 1 ++ List.replicate 5 0)) := by
      simp only [winEntry, List.append_assoc]
    rw [he, fieldLE_skip hlen _ (by omega), Nat.add_sub_cancel_left, fieldLE, fieldLE, sliceB_append_left _ _ (by rwa [sliceB_length]),
      sliceB_sliceB_at r 22 h]
  exact ⟨hs 0 2 (by decide), hs 2 2 (by decide)⟩

/-- A window registered says what its request says. -/
theorem State.addWindow_same (s : State) (r : List Byte) (i : Nat) : (s.addWindow r i).window i =
    { base := fieldLE r 0 8, len := fieldLE r 8 8, job := fieldLE r 16 2, rd := bitAt (fieldLE r 18 1) 0, wr := bitAt (fieldLE r 18 1) 1,
      at_ := bitAt (fieldLE r 18 1) 2, lend := bitAt (fieldLE r 18 1) 3, srcLo := fieldLE r 22 2, srcHi := fieldLE r 24 2, valid := true } := by
  obtain ⟨hlo, hhi⟩ := fieldLE_winEntry_src r i
  have hf : ∀ o w, o + w ≤ 0x13 → (s.addWindow r i).barNat (winOff i + o) w = fieldLE r o w := fun o w h =>
    (s.barNat_addWindow r i (by omega)).trans (fieldLE_winEntry r i h)
  have hbase : (s.addWindow r i).barNat (winOff i) 8 = fieldLE r 0 8 := hf 0 8 (by decide)
  have hvalid : (s.addWindow r i).barNat (winOff i + 0x1A) 1 = 1 := (s.barNat_addWindow r i (by decide)).trans (winEntry_valid r i)
  have hslo : (s.addWindow r i).barNat (winOff i + 0x16) 2 = fieldLE r 22 2 := (s.barNat_addWindow r i (by decide)).trans hlo
  have hshi : (s.addWindow r i).barNat (winOff i + 0x18) 2 = fieldLE r 24 2 := (s.barNat_addWindow r i (by decide)).trans hhi
  simp only [State.window, hbase, hvalid, hslo, hshi, hf 8 8 (by decide), hf 16 2 (by decide), hf 0x12 1 (by decide)]
  rfl

theorem State.addWindow_others (s : State) (r : List Byte) {i j : Nat} (hj : j ≠ i) : (s.addWindow r i).window j = s.window j := by
  refine State.window_eq fun o ho => ?_
  have hput : (s.addWindow r i).barByte (winOff j + o) = (s.putBar (winOff i) (winEntry r i)).barByte (winOff j + o) :=
    State.barByte_congr (State.setFld_bar2 ..) _
  rw [hput, State.barByte_putBar_out]
  rw [winEntry_length, winOff, winOff]
  omega

theorem State.addWindow_thr (s : State) (r : List Byte) (i : Nat) : (s.addWindow r i).thr = s.thr :=
  (State.setFld_thr ..).trans (State.putBar_thr ..)

theorem State.dropWindow_thr (s : State) (i : Nat) : (s.dropWindow i).thr = s.thr := (State.setFld_thr ..).trans (State.putBar_thr ..)

section Windows
variable {s s1 : State} {t : Tid} {tgt : Target} (h : s.Issues t profSupWork tgt s1)
include h

section Register
variable {a : Reg} {r : List Byte} {s2 : State} {c i : Nat} (d : Reg)
  (hr : s1.vread (s1.agtOf t) ((s1.ctx t).ga a).toNat 32 = (.ok r, s2)) (hc : s2.ctx t = s1.ctx t) (hw : s2.winCheck r false = (c, i))
include hr hc hw

theorem exec_wreg : exec (.wreg t d a) s =
    .next ((if c = 0 then s2.addWindow r i else s2).setCtx t ((s1.ctx t).sa d (BitVec.ofNat 64 (winResult c i))).retired) := by
  have he : exec (.wreg t d a) s = execWreg t d a s := rfl
  have hctx : (if c = 0 then s2.addWindow r i else s2).ctx t = s1.ctx t := by
    split
    · exact (State.ctx_congr (s2.addWindow_thr r i) t).trans hc
    · exact hc
  rw [he, execWreg, h.done _ (s2 := (if c = 0 then s2.addWindow r i else s2).modCtx t fun x => x.sa d (BitVec.ofNat 64 (winResult c i)))
    (by simp only [hr, hw]) (by rw [State.ctx_modCtx_same, Ctx.sa_stopPending, hctx]; exact h.unstopped), State.modCtx_modCtx, hctx]

theorem exec_wreg_accepted (h0 : c = 0) : i < 16384 ∧ (s2.window i).valid = false ∧ Completes (.wreg t d a) s fun u =>
    u.ctx t = ((s1.ctx t).sa d (BitVec.ofNat 64 i)).retired ∧
    u.window i = { base := fieldLE r 0 8, len := fieldLE r 8 8, job := fieldLE r 16 2, rd := bitAt (fieldLE r 18 1) 0,
                   wr := bitAt (fieldLE r 18 1) 1, at_ := bitAt (fieldLE r 18 1) 2, lend := bitAt (fieldLE r 18 1) 3,
                   srcLo := fieldLE r 22 2, srcHi := fieldLE r 24 2, valid := true } ∧
    ∀ j, j < 16384 → j ≠ i → u.window j = s2.window j := by
  subst h0
  obtain ⟨hi, hv⟩ := State.winCheck_accepts hw
  refine ⟨hi, hv, Completes.of (exec_wreg h d hr hc hw) ⟨State.ctx_setCtx_same .., ?_, fun j _ hj => ?_⟩⟩
  · rw [if_pos rfl, State.window_congr (State.setCtx_bar2 ..), s2.addWindow_same r i]
  · rw [if_pos rfl, State.window_congr (State.setCtx_bar2 ..), s2.addWindow_others r hj]

theorem exec_wreg_refused (h0 : c ≠ 0) : exec (.wreg t d a) s =
    .next (s2.setCtx t ((s1.ctx t).sa d (BitVec.ofNat 64 (2 ^ 15 + c * 2 ^ 16))).retired) := by
  rw [exec_wreg h d hr hc hw, if_neg h0, winResult, if_neg h0]
  rfl

end Register

section Deregister
variable (a : Reg) (hi : ((s1.ctx t).ga a).toNat < 16384)
include hi

theorem exec_wdereg (hb : s1.windowBusy ((s1.ctx t).ga a).toNat = false) : Completes (.wdereg t a) s fun u =>
    u.ctx t = (s1.ctx t).retired ∧ (u.window ((s1.ctx t).ga a).toNat).valid = false ∧
      ∀ j, j < 16384 → j ≠ ((s1.ctx t).ga a).toNat → u.window j = s1.window j := by
  have he : exec (.wdereg t a) s = execWdereg t a s := rfl
  generalize hn : ((s1.ctx t).ga a).toNat = n at *
  generalize hz : (if (s1.window n).valid then s1.dropWindow n else s1) = z
  have hthr : z.thr = s1.thr := by
    rw [← hz]
    split
    · exact s1.dropWindow_thr n
    · rfl
  have hdone : exec (.wdereg t a) s = .next (z.modCtx t Ctx.retired) := by
    rw [he, execWdereg, h.done _ (s2 := z) (by simp only [hn, if_neg (Nat.not_le.mpr hi), hb, Bool.false_eq_true, if_false, hz])
      (by rw [State.ctx_congr hthr]; exact h.unstopped)]
  refine Completes.of hdone ⟨?_, ?_, fun j _ hj => ?_⟩
  · rw [State.ctx_modCtx_same, State.ctx_congr hthr]
  · refine (congrArg Window.valid (State.window_congr (State.modCtx_bar2 ..) n)).trans ?_
    rw [← hz]
    split
    · exact s1.dropWindow_valid n
    · next hv => exact Bool.eq_false_iff.mpr hv
  · refine (State.window_congr (State.modCtx_bar2 ..) j).trans ?_
    rw [← hz]
    split
    · exact s1.dropWindow_others hj
    · rfl

theorem exec_wdereg_busy (hb : s1.windowBusy ((s1.ctx t).ga a).toNat = true) :
    exec (.wdereg t a) s = .next (s1.setCtx t ((s1.ctx t).waiting (.wdereg t a) .cond)) := by
  have he : exec (.wdereg t a) s = execWdereg t a s := rfl
  rw [he, execWdereg, h.wait _ (s2 := s1) (aw := .cond) (by simp only [if_neg (Nat.not_le.mpr hi), hb, if_true])]
  rfl

end Deregister
end Windows

/-! ### Arrival counters (R294, R295) -/

theorem State.counter_congr {s t : State} (h : t.bar2 = s.bar2) (j : Nat) : t.counter j = s.counter j := by
  rw [State.counter, State.counter, State.barNat_congr h]

theorem State.counter_setCounter_same (s : State) (i : Nat) (v : W64) : (s.setCounter i v).counter i = v := by
  have hb : (s.setCounter i v).barNat (cntOff i) 8 = v.toNat := by
    rw [State.setCounter, State.putBarNat, State.barNat]
    have := s.barBytes_putBar (cntOff i) (natLE 8 v.toNat)
    rw [natLE_length] at this
    rw [this, leNat_natLE]
    exact Nat.mod_eq_of_lt v.isLt
  rw [State.counter, hb, BitVec.ofNat_toNat, BitVec.setWidth_eq]

theorem State.counter_setCounter_ne (s : State) {i j : Nat} (v : W64) (h : j ≠ i) : (s.setCounter i v).counter j = s.counter j := by
  have hb : (s.setCounter i v).barNat (cntOff j) 8 = s.barNat (cntOff j) 8 := by
    refine congrArg leNat (List.map_congr_left fun k hk => ?_)
    have := List.mem_range.mp hk
    refine State.barByte_putBar_out _ s _ _ ?_
    rw [natLE_length, cntOff, cntOff]
    omega
  rw [State.counter, State.counter, hb]

theorem State.setCounter_frame (s : State) (i : Nat) (v : W64) : (s.setCounter i v).thr = s.thr ∧ (s.setCounter i v).fab = s.fab := by
  obtain ⟨b, hb⟩ := State.putBar_eq (natLE 8 v.toNat) s (cntOff i)
  rw [State.setCounter, State.putBarNat, hb]
  exact ⟨rfl, rfl⟩

theorem State.acquired_frame (s : State) (t : Tid) : (s.acquired t).thr = s.thr ∧ (s.acquired t).bar2 = s.bar2 ∧ (s.acquired t).dram = s.dram := by
  unfold State.acquired
  split <;> exact ⟨rfl, rfl, rfl⟩

section Counters
variable {s s1 : State} {t : Tid} {tgt : Target} (h : s.Issues t profWork tgt s1)
include h

theorem exec_acntAlloc (d : Reg) {i : Nat} (hi : i < 4096) (hfree : i ∉ s1.fab.cnts) (hlow : ∀ j < i, j ∈ s1.fab.cnts) :
    Completes (.acntAlloc t d) s fun u => u.ctx t = ((s1.ctx t).sa d (BitVec.ofNat 64 i)).retired ∧ u.counter i = 0 ∧
      u.fab.cnts = s1.fab.cnts ++ [i] ∧ ∀ j, j ≠ i → u.counter j = s1.counter j := by
  have he : exec (.acntAlloc t d) s = execAcntAlloc t d s := rfl
  have hfind : ((List.range 4096).find? fun j => !s1.fab.cnts.contains j) = some i := by
    rw [List.find?_range_eq_some]
    exact ⟨by simpa using hfree, List.mem_range.mpr hi, fun j hj => by simpa using hlow j hj⟩
  generalize hz : (s1.modFab fun f => { f with cnts := f.cnts ++ [i] }) = z
  have hbar : z.bar2 = s1.bar2 := by rw [← hz]; rfl
  have hthr : z.thr = s1.thr := by rw [← hz]; rfl
  have hfab : z.fab.cnts = s1.fab.cnts ++ [i] := by rw [← hz]; rfl
  obtain ⟨hsthr, hsfab⟩ := z.setCounter_frame i 0
  have hctx : (z.setCounter i 0).ctx t = s1.ctx t := State.ctx_congr (hsthr.trans hthr) t
  have hdone : exec (.acntAlloc t d) s = .next ((z.setCounter i 0).setCtx t ((s1.ctx t).sa d (BitVec.ofNat 64 i)).retired) := by
    rw [he, execAcntAlloc, h.done _ (s2 := (z.setCounter i 0).modCtx t fun c => c.sa d (BitVec.ofNat 64 i)) (by simp only [hfind, hz])
      (by rw [State.ctx_modCtx_same, Ctx.sa_stopPending, hctx]; exact h.unstopped), State.modCtx_modCtx, hctx]
  refine Completes.of hdone ⟨State.ctx_setCtx_same .., ?_, ?_, fun j hj => ?_⟩
  · rw [State.counter_congr (State.setCtx_bar2 ..), z.counter_setCounter_same i 0]
  · exact (congrArg FabSt.cnts hsfab).trans hfab
  · rw [State.counter_congr (State.setCtx_bar2 ..), z.counter_setCounter_ne 0 hj, State.counter_congr hbar]

theorem exec_acntAlloc_none (d : Reg) (hall : ∀ j < 4096, j ∈ s1.fab.cnts) :
    exec (.acntAlloc t d) s = .next (s1.setCtx t ((s1.ctx t).sa d (BitVec.allOnes 64)).retired) := by
  have he : exec (.acntAlloc t d) s = execAcntAlloc t d s := rfl
  have hfind : ((List.range 4096).find? fun j => !s1.fab.cnts.contains j) = none := by
    rw [List.find?_eq_none]
    intro j hj
    simpa using hall j (List.mem_range.mp hj)
  rw [he, execAcntAlloc, h.done _ (s2 := s1.modCtx t fun c => c.sa d (BitVec.allOnes 64)) (by simp only [hfind])
    (by rw [State.ctx_modCtx_same, Ctx.sa_stopPending]; exact h.unstopped), State.modCtx_modCtx]

section Held
variable {a b : Reg} (hok : s1.cntOk ((s1.ctx t).ga a).toNat = true)
include hok

theorem exec_acntFree : Completes (.acntFree t a) s fun u => u.ctx t = (s1.ctx t).retired ∧
    u.fab.cnts = s1.fab.cnts.filter (· != ((s1.ctx t).ga a).toNat) ∧ u.bar2 = s1.bar2 := by
  have he : exec (.acntFree t a) s = execAcntFree t a s := rfl
  refine Completes.of (he.trans (congrArg Host.Outcome.next (h.done _ (s2 := s1.modFab fun f =>
    { f with cnts := f.cnts.filter (· != ((s1.ctx t).ga a).toNat) }) (if_pos hok) h.unstopped))) ⟨State.ctx_modCtx_same .., rfl, rfl⟩

theorem exec_acntWait (d : Reg) (hn : ((s1.ctx t).ga b).toNat ≤ (s1.counter ((s1.ctx t).ga a).toNat).toNat % 2 ^ 63) :
    Completes (.acntWait t d a b) s fun u => u.ctx t = ((s1.ctx t).sa d (s1.counter ((s1.ctx t).ga a).toNat)).retired ∧ u.bar2 = s1.bar2 ∧
      u.dram = s1.dram := by
  have he : exec (.acntWait t d a b) s = execAcntWait t d a b s := rfl
  obtain ⟨hthr, hbar, hdram⟩ := s1.acquired_frame t
  have hctx := State.ctx_congr hthr t
  have hdone : exec (.acntWait t d a b) s = .next ((s1.acquired t).setCtx t ((s1.ctx t).sa d (s1.counter ((s1.ctx t).ga a).toNat)).retired) := by
    rw [he, execAcntWait, State.onCounter, h.done _ (s2 := (s1.acquired t).modCtx t fun c => c.sa d (s1.counter ((s1.ctx t).ga a).toNat))
      (by simp only [hok, if_true, if_neg (Nat.not_lt.mpr hn)])
      (by rw [State.ctx_modCtx_same, Ctx.sa_stopPending, hctx]; exact h.unstopped), State.modCtx_modCtx, hctx]
  exact Completes.of hdone ⟨State.ctx_setCtx_same .., hbar, hdram⟩

theorem exec_acntWait_waits (d : Reg) (hn : (s1.counter ((s1.ctx t).ga a).toNat).toNat % 2 ^ 63 < ((s1.ctx t).ga b).toNat) :
    exec (.acntWait t d a b) s = .next (s1.setCtx t ((s1.ctx t).waiting (.acntWait t d a b) .cond)) := by
  have he : exec (.acntWait t d a b) s = execAcntWait t d a b s := rfl
  rw [he, execAcntWait, State.onCounter, h.wait _ (s2 := s1) (aw := .cond) (by simp only [hok, if_true, if_pos hn])]
  rfl

theorem exec_acntSet (hrel : s1.released t = true) : Completes (.acntSet t a b) s fun u => u.ctx t = (s1.ctx t).retired ∧
    u.counter ((s1.ctx t).ga a).toNat = (s1.ctx t).ga b ∧ ∀ j, j ≠ ((s1.ctx t).ga a).toNat → u.counter j = s1.counter j := by
  have he : exec (.acntSet t a b) s = execAcntSet t a b s := rfl
  generalize hn : ((s1.ctx t).ga a).toNat = n at *
  obtain ⟨hthr, -⟩ := s1.setCounter_frame n ((s1.ctx t).ga b)
  have hctx := State.ctx_congr hthr t
  have hdone : exec (.acntSet t a b) s = .next ((s1.setCounter n ((s1.ctx t).ga b)).modCtx t Ctx.retired) := by
    rw [he, execAcntSet, State.onCounter, h.done _ (s2 := s1.setCounter n ((s1.ctx t).ga b))
      (by simp only [hn, hok, if_true, hrel]) (by rw [hctx]; exact h.unstopped)]
  refine Completes.of hdone ⟨by rw [State.ctx_modCtx_same, hctx], ?_, fun j hj => ?_⟩
  · rw [State.counter_congr (State.modCtx_bar2 ..), s1.counter_setCounter_same]
  · rw [State.counter_congr (State.modCtx_bar2 ..), s1.counter_setCounter_ne _ hj]

theorem exec_acntSet_waits (hrel : s1.released t = false) :
    exec (.acntSet t a b) s = .next (s1.setCtx t ((s1.ctx t).waiting (.acntSet t a b) .cond)) := by
  have he : exec (.acntSet t a b) s = execAcntSet t a b s := rfl
  rw [he, execAcntSet, State.onCounter, h.wait _ (s2 := s1) (aw := .cond) (by simp only [hok, if_true, hrel, Bool.false_eq_true, if_false])]
  rfl

end Held

/-- A counter that the job does not hold. -/
theorem State.Issues.onCounter_fault (i : Instr) (a : Reg) (f : State → Nat → TRes) (hok : s1.cntOk ((s1.ctx t).ga a).toNat = false) :
    s.onCounter t i a f = s1.takeFault t { code := 0x52 } := by
  exact h.fault _ (by simp only [hok, Bool.false_eq_true, if_false])

end Counters

/-- Settles O39: a window by its request's fields, a counter by its eight bytes. -/
theorem windowsAndCountersOfThreads : Obligations.WindowsAndCountersOfThreads := by
  unfold Obligations.WindowsAndCountersOfThreads
  refine ⟨fun s s1 t tgt d a h => ⟨fun r s2 c i hr hc _ hw => ⟨exec_wreg_accepted h d hr hc hw, fun h0 => ⟨?_, exec_wreg_refused h d hr hc hw h0⟩,
    fun hbad => ?_, fun h1 hbad => ?_⟩, ?_⟩, ?_⟩
  · have := s2.winCheck_le (r := r) (ok := false)
    rwa [hw] at this
  · have := s2.winCheck_reserved (ok := false) hbad
    rwa [hw] at this
  · have := s2.winCheck_length (ok := false) (by rw [hw]; exact h1) hbad
    rwa [hw] at this
  · intro i hi
    exact ⟨exec_wdereg h a hi, exec_wdereg_busy h a hi⟩
  · intro s s1 t tgt d a b h c n
    refine ⟨fun i hi hf hl => exec_acntAlloc h d hi hf hl, exec_acntAlloc_none h d, fun hok => ⟨exec_acntFree h hok, exec_acntWait h hok d,
      exec_acntWait_waits h hok d, exec_acntSet h hok, exec_acntSet_waits h hok⟩, fun hno i hi => ?_⟩
    simp only [List.mem_cons, List.not_mem_nil, or_false] at hi
    rcases hi with rfl | rfl | rfl
    · exact congrArg Host.Outcome.next (h.onCounter_fault _ a _ hno)
    · exact congrArg Host.Outcome.next (h.onCounter_fault _ a _ hno)
    · exact congrArg Host.Outcome.next (h.onCounter_fault _ a _ hno)

/-! ### Async copies (R280, R294) -/

/-- A copy that joins the queue of copies, before they are sent on. -/
theorem State.addCopy_eq (s : State) (c : ACopy) : ∃ v : State, s.addCopy c = v.pumpCopies ∧ v.regs = s.regs ∧ v.dram = s.dram ∧
    v.thr = s.thr ∧ v.fab.copies = s.fab.copies ++ [{ c with id := s.fab.nextId }] := ⟨_, rfl, rfl, rfl, rfl, rfl⟩

section Issue
variable {s s1 s2 s3 s4 : State} {t : Tid} {tgt : Target} {a : Reg} {d : List Byte} {x y : Side} (h : s.Issues t profWork tgt s1)
  (hroom : s1.fab.copies.length < 256) (hal : ((s1.ctx t).ga a).toNat % 32 = 0)
  (hr : s1.vread (s1.agtOf t) ((s1.ctx t).ga a).toNat 32 = (.ok d, s2)) (hgood : acopyBad d = false)
  (hsrc : s2.sideOf (s2.whoOf t) .load (segments (acopyOf d t (s2.ctx t).job).src (acopyOf d t (s2.ctx t).job).len) none = (.ok, some x, s3))
  (hdst : s3.sideOf (s3.whoOf t) .store (segments (acopyOf d t (s2.ctx t).job).dst (acopyOf d t (s2.ctx t).job).len) none = (.ok, some y, s4))
include h hroom hal hr hgood hsrc hdst

/-- A descriptor whose sides are found: the copy follows from them. -/
theorem exec_acopy : exec (.acopy t a) s = .next (State.settle t (.acopy t a) (s4.acopySides (acopyOf d t (s2.ctx t).job) x y)) := by
  have he : exec (.acopy t a) s = execAcopy t a s := rfl
  rw [he, execAcopy, h.issue]
  have hno : ¬256 ≤ s1.fab.copies.length := by omega
  simp only [if_neg hno, hal, ne_eq, not_true_eq_false, if_false, hr, hgood, Bool.false_eq_true, hsrc, hdst, Option.getD_some]

variable (hcnt : (acopyOf d t (s2.ctx t).job).scntEn = false ∨ s4.cntOk (acopyOf d t (s2.ctx t).job).scnt = true)
include hcnt

theorem exec_acopy_put {p : Nat} (hx : x = .dram) (hy : y = .remote p) : ∃ v : State,
    exec (.acopy t a) s = .next (State.settle t (.acopy t a) (.done v.pumpCopies)) ∧ v.regs = s4.regs ∧ v.dram = s4.dram ∧ v.thr = s4.thr ∧
      v.fab.copies = s4.fab.copies ++ [{ acopyOf d t (s2.ctx t).job with put := true, target := p, id := s4.fab.nextId }] := by
  subst hx hy
  have hok : ¬((acopyOf d t (s2.ctx t).job).scntEn = true ∧ (!s4.cntOk (acopyOf d t (s2.ctx t).job).scnt) = true) := by
    rcases hcnt with hc | hc <;> simp [hc]
  obtain ⟨v, hv, hrest⟩ := s4.addCopy_eq { acopyOf d t (s2.ctx t).job with put := true, target := p }
  refine ⟨v, ?_, hrest⟩
  rw [exec_acopy h hroom hal hr hgood hsrc hdst, State.acopySides, if_neg hok, hv]

theorem exec_acopy_get {p : Nat} (hx : x = .remote p) (hy : y = .dram) (hd : (acopyOf d t (s2.ctx t).job).dcntEn = false) : ∃ v : State,
    exec (.acopy t a) s = .next (State.settle t (.acopy t a) (.done v.pumpCopies)) ∧ v.regs = s4.regs ∧ v.dram = s4.dram ∧ v.thr = s4.thr ∧
      v.fab.copies = s4.fab.copies ++ [{ acopyOf d t (s2.ctx t).job with target := p, id := s4.fab.nextId }] := by
  subst hx hy
  have hok : ¬((acopyOf d t (s2.ctx t).job).scntEn = true ∧ (!s4.cntOk (acopyOf d t (s2.ctx t).job).scnt) = true) := by
    rcases hcnt with hc | hc <;> simp [hc]
  obtain ⟨v, hv, hrest⟩ := s4.addCopy_eq { acopyOf d t (s2.ctx t).job with target := p }
  refine ⟨v, ?_, hrest⟩
  rw [exec_acopy h hroom hal hr hgood hsrc hdst, State.acopySides, if_neg (by rw [hd]; exact Bool.false_ne_true), if_neg hok, hv]

omit hcnt in
theorem exec_acopy_local (hx : x = .dram) (hy : y = .dram) : exec (.acopy t a) s = .next (s4.takeFault t { code := 0x51 }) := by
  subst hx hy
  rw [exec_acopy h hroom hal hr hgood hsrc hdst]
  exact congrArg Host.Outcome.next (State.settle_fault ..)

end Issue

/-- Copies that are wholly sent: nothing is left to send. -/
theorem State.pumpCopies_idle {s : State} (h : ∀ e ∈ s.fab.copies, e.len ≤ e.sent) : s.pumpCopies = s := by
  have one : ∀ id, s.pumpCopy id 1024 = s := fun id => by
    rw [State.pumpCopy]
    split
    · rfl
    · next c hc => rw [if_pos (.inl (h c (List.mem_of_find?_eq_some hc)))]
  have fold : ∀ l : List ACopy, l.foldl (fun (t : State) c => t.pumpCopy c.id 1024) s = s := by
    intro l
    induction l with
    | nil => rfl
    | cons c l ih => rw [List.foldl_cons, one, ih]
  exact fold _

theorem State.acopy_id {s : State} {id : Nat} {c : ACopy} (h : s.acopy id = some c) : c.id = id := by
  simpa using List.find?_some h

/-- A copy changed: it is found as it is now. -/
theorem State.acopy_modCopy {s : State} {id : Nat} {c : ACopy} (h : s.acopy id = some c) {f : ACopy → ACopy} (hf : ∀ e, (f e).id = e.id) :
    (s.modCopy id f).acopy id = some (f c) := by
  have hfind : ∀ l : List ACopy, (l.map fun e => if e.id = id then f e else e).find? (fun e => e.id == id) =
      (l.find? fun e => e.id == id).map f := by
    intro l
    induction l with
    | nil => rfl
    | cons e l ih =>
      by_cases he : e.id = id
      · simp [he, hf]
      · simp [he, ih]
  exact (hfind s.fab.copies).trans (congrArg (Option.map f) h)

/-- The count of a counter after one more, and its mark of a refusal. -/
theorem State.addCounter_one (z : State) (i : Nat) (err : Bool) :
    ((z.addCounter i 1 err).counter i).toNat % 2 ^ 63 = ((z.counter i).toNat % 2 ^ 63 + 1) % 2 ^ 63 ∧
    ((z.addCounter i 1 err).counter i).getLsbD 63 = ((z.counter i).getLsbD 63 || err) := by
  rw [State.addCounter, State.counter_setCounter_same]
  have hlt := (z.counter i).isLt
  have hbit : ∀ v : W64, v.getLsbD 63 = decide (2 ^ 63 ≤ v.toNat) := fun v => (BitVec.msb_eq_getLsbD_last v).symm.trans (BitVec.msb_eq_decide v)
  rw [hbit, hbit, BitVec.toNat_ofNat]
  generalize (z.counter i).toNat = n at hlt ⊢
  cases err <;> by_cases hn : 2 ^ 63 ≤ n <;> simp only [hn, or_true, or_false, Bool.false_eq_true, if_true, if_false, decide_true,
    decide_false, Bool.or_true, Bool.or_false, decide_eq_true_eq, decide_eq_false_iff_not] <;> omega

section Writes
variable {s : State} {id : Nat} {c : ACopy} (hc : s.acopy id = some c) (hsent : ∀ e ∈ s.fab.copies, e.len ≤ e.sent)
include hc hsent

section Over
variable (hw : c.writesDone = false) (hout : s.copyOuts id = 0) (hpark : s.getParked id = false)
include hw hout hpark

theorem exec_acopyWritesDone : exec (.acopyWritesDone id) s = .next (if c.put ∧ c.dcntEn then s.sendCadd c else
    (s.modCopy id fun y => { y with writesDone := true }).copyOver id) := by
  have he : exec (.acopyWritesDone id) s = execAcopyWritesDone id s := rfl
  have hlen : ¬c.sent < c.len := Nat.not_lt.mpr (hsent c (List.mem_of_find?_eq_some hc))
  have hno : ¬(c.writesDone = true ∨ c.sent < c.len ∨ s.copyOuts id ≠ 0 ∨ s.getParked id = true) := by simp [hw, hlen, hout, hpark]
  rw [he, execAcopyWritesDone, State.pumpCopies_idle hsent]
  simp only [hc]
  rw [if_neg hno]

theorem exec_acopyWritesDone_over (hd : ¬(c.put = true ∧ c.dcntEn = true)) : Completes (.acopyWritesDone id) s fun u =>
    u.acopy id = some { c with writesDone := true } ∧ (∀ f ∈ u.fab.flags, id ∉ f.copies) ∧ u.regs = s.regs ∧ u.dram = s.dram := by
  refine Completes.of ((exec_acopyWritesDone hc hsent hw hout hpark).trans (congrArg Host.Outcome.next (if_neg hd))) ⟨?_, ?_, rfl, rfl⟩
  · exact State.acopy_modCopy hc (f := fun y => { y with writesDone := true }) fun _ => rfl
  · intro f hf
    obtain ⟨g, -, rfl⟩ := List.mem_map.mp hf
    simp

theorem exec_acopyWritesDone_cadd (hp : c.put = true) (hd : c.dcntEn = true) (hself : s.isSelf (c.target * 2 ^ 48 + c.dcnt) = false) {q : Nat}
    {s1 : State} (hq : s.request (.cadd id) copyHandle 0 { s.reqPkt 5 false (c.target * 2 ^ 48 + c.dcnt) 8
      (natLE 8 (1 + if c.refused then 2 ^ 63 else 0)) with job := c.job } = (.sent q, s1)) (hcopies : s1.fab.copies = s.fab.copies) :
    Completes (.acopyWritesDone id) s fun u => u.acopy id = some { c with writesDone := true, caddTag := some q } := by
  have hid := State.acopy_id hc
  have hsend : s.sendCadd c = s1.modCopy id fun y => { y with writesDone := true, caddTag := some q } := by
    rw [← hid] at hq
    rw [State.sendCadd]
    dsimp only
    rw [if_neg (fun h => by rw [hself] at h; cases h.1), hq, hid]
  have hc1 : s1.acopy id = some c := by rw [State.acopy, hcopies]; exact hc
  refine Completes.of (((exec_acopyWritesDone hc hsent hw hout hpark).trans (congrArg Host.Outcome.next (if_pos ⟨hp, hd⟩))).trans
    (congrArg Host.Outcome.next hsend)) ?_
  exact State.acopy_modCopy hc1 (f := fun y => { y with writesDone := true, caddTag := some q }) fun _ => rfl

end Over

theorem exec_acopyComplete (hw : c.writesDone = true) (hcadd : c.caddTag = none) : Completes (.acopyComplete id) s fun u =>
    u.acopy id = none ∧ u.regs = s.regs ∧ u.dram = s.dram ∧ (c.scntEn = false → u.bar2 = s.bar2) ∧
      (c.scntEn = true → (u.counter c.scnt).toNat % 2 ^ 63 = ((s.counter c.scnt).toNat % 2 ^ 63 + 1) % 2 ^ 63 ∧
        (u.counter c.scnt).getLsbD 63 = ((s.counter c.scnt).getLsbD 63 || c.refused)) := by
  have he : exec (.acopyComplete id) s = execAcopyComplete id s := rfl
  generalize hz : (s.modFab fun f => { f with copies := f.copies.filter fun x => x.id != id }) = z
  have hcopies : z.fab.copies = s.fab.copies.filter fun x => x.id != id := by rw [← hz]; rfl
  have hregs : z.regs = s.regs := by rw [← hz]; rfl
  have hdram : z.dram = s.dram := by rw [← hz]; rfl
  have hbar : z.bar2 = s.bar2 := by rw [← hz]; rfl
  have hrest : ∀ e ∈ z.fab.copies, e.len ≤ e.sent := fun e h => hsent e (List.mem_of_mem_filter (hcopies ▸ h))
  have hnone : z.acopy id = none := by
    rw [State.acopy, hcopies, List.find?_eq_none]
    intro e h
    simpa using (List.mem_filter.mp h).2
  have hrun : exec (.acopyComplete id) s = .next (if c.scntEn then z.addCounter c.scnt 1 c.refused else z).pumpCopies := by
    rw [he, execAcopyComplete]
    simp only [hc]
    rw [if_neg (by simp [hw, hcadd]), hz]
  cases hen : c.scntEn with
  | false =>
    rw [hen, if_neg Bool.false_ne_true, State.pumpCopies_idle hrest] at hrun
    exact Completes.of hrun ⟨hnone, hregs, hdram, fun _ => hbar, fun h => by cases h⟩
  | true =>
    rw [hen, if_pos rfl] at hrun
    obtain ⟨b, hb⟩ : ∃ b, z.addCounter c.scnt 1 c.refused = { z with bar2 := b } := State.putBar_eq ..
    have hidle : (z.addCounter c.scnt 1 c.refused).pumpCopies = z.addCounter c.scnt 1 c.refused :=
      State.pumpCopies_idle (by rw [hb]; exact hrest)
    rw [hidle] at hrun
    have hcount := z.addCounter_one c.scnt c.refused
    rw [State.counter_congr hbar] at hcount
    refine Completes.of hrun ⟨by rw [hb]; exact hnone, by rw [hb]; exact hregs, by rw [hb]; exact hdram, fun h => Bool.noConfusion h, fun _ => hcount⟩

end Writes

/-- Settles O40: the sides of a descriptor choose the copy; the end of its writes, and its count. -/
theorem asyncCopiesRunInOrder : Obligations.AsyncCopiesRunInOrder := by
  unfold Obligations.AsyncCopiesRunInOrder
  refine ⟨fun s s1 s2 s3 s4 t tgt a d x y h => ?_, fun s id c hc hsent => ⟨fun hw hout hpark => ⟨exec_acopyWritesDone_over hc hsent hw hout hpark,
    fun hp hd hself q s1 hq hcopies => exec_acopyWritesDone_cadd hc hsent hw hout hpark hp hd hself hq hcopies⟩,
    fun hw hcadd _ => exec_acopyComplete hc hsent hw hcadd⟩⟩
  intro va hroom hal hr hgood c hsrc hdst hcnt
  exact ⟨fun p hx hy => exec_acopy_put h hroom hal hr hgood hsrc hdst hcnt hx hy,
    fun p hx hy hd => exec_acopy_get h hroom hal hr hgood hsrc hdst hcnt hx hy hd, exec_acopy_local h hroom hal hr hgood hsrc hdst⟩

end Sys2Proof.Machine
end

section
/-! # Groups and reductions of threads -/
namespace Sys2Proof.Machine

/-! ### Groups of threads (R292) -/

/-- The entry of a group. -/
def grpEntry (gid nmem rank job rt qb ql : Nat) (ids : List Nat) : List Byte :=
  natLE 2 gid ++ natLE 2 nmem ++ natLE 2 rank ++ natLE 2 job ++ natLE 8 rt ++ natLE 8 qb ++ natLE 1 ql ++ natLE 7 0 ++
    natLE 8 (gkeyOf ids).toNat ++ natLE 24 1

theorem State.modHz_thr (s : State) (f : HzSt → HzSt) : (s.modHz f).thr = s.thr := by
  rw [State.modHz, State.setFld_thr, State.setFld_thr]

section Put
variable {s : State} (hd : s.hz.due = []) (hh : s.hz.held = []) (gid nmem rank job rt qb ql : Nat) (ids : List Nat)
include hd hh

/-- A group put in its table, with no packet held and no operation due. -/
theorem State.putGroup_eq : s.putGroup gid nmem rank job rt qb ql ids =
    ((s.putBar (groupOff gid) (grpEntry gid nmem rank job rt qb ql ids)).modHz fun h =>
      { h with ranks := tabSet ranksNone h.ranks gid ids }).modHz fun x => { x with held := [] } := by
  obtain ⟨b, hb⟩ := State.putBar_eq (grpEntry gid nmem rank job rt qb ql ids) s (groupOff gid)
  have hput : s.putGroup gid nmem rank job rt qb ql ids = ((s.putBar (groupOff gid) (grpEntry gid nmem rank job rt qb ql ids)).modHz fun h =>
      { h with ranks := tabSet ranksNone h.ranks gid ids }).hzSettle := rfl
  rw [hput, State.hzSettle_idle (by rw [State.modHz_hz, hb]; exact hd) (by rw [State.modHz_hz, hb]; exact hh)]

theorem State.putGroup_frame : (s.putGroup gid nmem rank job rt qb ql ids).thr = s.thr ∧
    (s.putGroup gid nmem rank job rt qb ql ids).bar2 = (s.putBar (groupOff gid) (grpEntry gid nmem rank job rt qb ql ids)).bar2 ∧
    (s.putGroup gid nmem rank job rt qb ql ids).hz.ranks = tabSet ranksNone s.hz.ranks gid ids := by
  obtain ⟨b, hb⟩ := State.putBar_eq (grpEntry gid nmem rank job rt qb ql ids) s (groupOff gid)
  rw [State.putGroup_eq hd hh, State.modHz_thr, State.modHz_thr, State.putBar_thr, State.modHz_bar2, State.modHz_bar2, State.modHz_hz, State.modHz_hz, hb]
  exact ⟨rfl, rfl, rfl⟩

/-- The group as its entry says it. -/
theorem State.putGroup_grp (hn : nmem < 256 ^ 2) (hr : rank < 256 ^ 2) (hj : job < 256 ^ 2) (ht : rt < 256 ^ 8) (hq : qb < 256 ^ 8)
    (hl : ql < 256 ^ 1) :
    (s.putGroup gid nmem rank job rt qb ql ids).grp gid =
      { nmem := nmem, rank := rank, job := job, ranktab := rt, qbase := qb, qlog2n := ql % 16, gkey := gkeyOf ids, valid := true } := by
  obtain ⟨-, hbar, -⟩ := State.putGroup_frame hd hh gid nmem rank job rt qb ql ids
  have hlen : (grpEntry gid nmem rank job rt qb ql ids).length = 64 := by
    simp only [grpEntry, List.length_append, natLE_length]
  have hfield : ∀ {o w v : Nat}, (∃ pre post, grpEntry gid nmem rank job rt qb ql ids = pre ++ (natLE w v ++ post) ∧ pre.length = o) → o + w ≤ 64 →
      (s.putGroup gid nmem rank job rt qb ql ids).barNat (groupOff gid + o) w = v % 256 ^ w := by
    rintro o w v ⟨pre, post, he, rfl⟩ how
    rw [State.barNat_congr hbar, State.barNat_putBar_in s _ _ (by rwa [hlen]), he, fieldLE_natLE_at]
  have h2 := hfield (o := 2) (w := 2) (v := nmem) ⟨natLE 2 gid, _, by simp only [grpEntry, List.append_assoc]; rfl, by simp⟩ (by decide)
  have h4 := hfield (o := 4) (w := 2) (v := rank) ⟨natLE 2 gid ++ natLE 2 nmem, _, by simp only [grpEntry, List.append_assoc]; rfl, by simp⟩ (by decide)
  have h6 := hfield (o := 6) (w := 2) (v := job)
    ⟨natLE 2 gid ++ natLE 2 nmem ++ natLE 2 rank, _, by simp only [grpEntry, List.append_assoc]; rfl, by simp⟩ (by decide)
  have h8 := hfield (o := 8) (w := 8) (v := rt)
    ⟨natLE 2 gid ++ natLE 2 nmem ++ natLE 2 rank ++ natLE 2 job, _, by simp only [grpEntry, List.append_assoc]; rfl, by simp⟩ (by decide)
  have h16 := hfield (o := 16) (w := 8) (v := qb)
    ⟨natLE 2 gid ++ natLE 2 nmem ++ natLE 2 rank ++ natLE 2 job ++ natLE 8 rt, _, by simp only [grpEntry, List.append_assoc]; rfl, by simp⟩ (by decide)
  have h24 := hfield (o := 24) (w := 1) (v := ql)
    ⟨natLE 2 gid ++ natLE 2 nmem ++ natLE 2 rank ++ natLE 2 job ++ natLE 8 rt ++ natLE 8 qb, _, by simp only [grpEntry, List.append_assoc]; rfl, by simp⟩
    (by decide)
  have h32 := hfield (o := 32) (w := 8) (v := (gkeyOf ids).toNat)
    ⟨natLE 2 gid ++ natLE 2 nmem ++ natLE 2 rank ++ natLE 2 job ++ natLE 8 rt ++ natLE 8 qb ++ natLE 1 ql ++ natLE 7 0, _,
      by simp only [grpEntry, List.append_assoc]; rfl, by simp⟩ (by decide)
  have h40 := hfield (o := 40) (w := 1) (v := 1)
    ⟨natLE 2 gid ++ natLE 2 nmem ++ natLE 2 rank ++ natLE 2 job ++ natLE 8 rt ++ natLE 8 qb ++ natLE 1 ql ++ natLE 7 0 ++
      natLE 8 (gkeyOf ids).toNat, natLE 23 0, by simp only [grpEntry, List.append_assoc]; rfl, by simp⟩ (by decide)
  rw [Nat.mod_eq_of_lt hn] at h2
  rw [Nat.mod_eq_of_lt hr] at h4
  rw [Nat.mod_eq_of_lt hj] at h6
  rw [Nat.mod_eq_of_lt ht] at h8
  rw [Nat.mod_eq_of_lt hq] at h16
  rw [Nat.mod_eq_of_lt hl] at h24
  rw [Nat.mod_eq_of_lt (show (gkeyOf ids).toNat < 256 ^ 8 from (gkeyOf ids).isLt)] at h32
  have hgk : BitVec.ofNat 64 (gkeyOf ids).toNat = gkeyOf ids := by rw [BitVec.ofNat_toNat, BitVec.setWidth_eq]
  have hql : bitsOf ql 3 0 = ql % 16 := rfl
  simp only [State.grp, State.barBits, h2, h4, h6, h8, h16, h24, h32, h40, hgk, hql]
  rfl

end Put

theorem State.dropGroup_thr (s : State) (g : Nat) : (s.dropGroup g).thr = s.thr := by
  rw [State.dropGroup, State.modHz_thr, State.putBarNat, State.putBar_thr]

theorem State.dropGroup_valid (s : State) (g : Nat) : ((s.dropGroup g).grp g).valid = false := by
  have hbyte : (s.dropGroup g).barNat (groupOff g + 40) 1 = 0 := by
    rw [State.barNat_congr (s := s.putBarNat (groupOff g + 0x28) 1 0) (by rw [State.dropGroup, State.modHz_bar2])]
    exact State.barNat_putBar_in s (groupOff g + 0x28) (natLE 1 0) (o := 0) (by decide)
  exact congrArg (bitAt · 0) hbyte

theorem State.dropGroup_issued (s : State) (g : Nat) (b : Bool) : (s.dropGroup g).hzIssued g b = 0 := by
  obtain ⟨bar, hb⟩ := State.putBar_eq (natLE 1 0) s (groupOff g + 0x28)
  have hseqs : (s.dropGroup g).hz.seqs = s.hz.seqs.filter fun e => e.1 / 2 != g := by
    rw [State.dropGroup, State.modHz_hz, State.putBarNat, hb]
  rw [State.hzIssued, hseqs, tabGet]
  cases hf : tabFind (s.hz.seqs.filter fun e => e.1 / 2 != g) (hzClass g b) with
  | none => rfl
  | some v =>
    have hm := (List.mem_filter.mp (mem_of_tabFind hf)).2
    have hcls : hzClass g b / 2 = g := by rw [hzClass]; have := Bool.toNat_lt b; omega
    simp [hcls] at hm

section Groups
variable {s s1 : State} {t : Tid} {tgt : Target} (h : s.Issues t profSupWork tgt s1)
include h

section Create
variable {a : Reg} {b : List Byte} {s2 s3 : State} {ids : List Nat} {c : Nat} (d : Reg)
  (hr : s1.vread (s1.agtOf t) ((s1.ctx t).ga a).toNat 64 = (.ok b, s2)) (hc : s2.groupCheck b = (.code c ids, s3))
  (hst : (s3.ctx t).stopPending = false)
include hr hc hst

theorem exec_gcreate_refused (h0 : c ≠ 0) : exec (.gcreate t d a) s = .next (s3.setCtx t ((s3.ctx t).sa d (BitVec.ofNat 64 c)).retired) := by
  have he : exec (.gcreate t d a) s = execGcreate t d a s := rfl
  obtain ⟨n, rfl⟩ := Nat.exists_eq_succ_of_ne_zero h0
  rw [he, execGcreate, h.done _ (s2 := s3.modCtx t fun x => x.sa d (BitVec.ofNat 64 (n + 1))) (by simp only [hr, hc])
    (by rw [State.ctx_modCtx_same, Ctx.sa_stopPending, hst]), State.modCtx_modCtx]

theorem exec_gcreate_accepted (h0 : c = 0) (hheld : s3.hz.held = []) (hdue : s3.hz.due = []) : Completes (.gcreate t d a) s fun u =>
    u.ctx t = ((s3.ctx t).sa d 0).retired ∧
    u.grp (fieldLE b 0 2) = { nmem := fieldLE b 2 2, rank := fieldLE b 4 2, job := fieldLE b 6 2, ranktab := fieldLE b 8 8,
                              qbase := fieldLE b 16 8, qlog2n := fieldLE b 24 1 % 16, gkey := gkeyOf ids, valid := true } ∧
    ∀ r < ids.length, ids ≠ [] → u.hzPkg (fieldLE b 0 2) r = ids.getD r 0 := by
  have he : exec (.gcreate t d a) s = execGcreate t d a s := rfl
  subst h0
  generalize hz : s3.modCtx t (fun x => x.sa d 0) = z
  have hzd : z.hz.due = [] := by rw [← hz, State.modCtx_hz, hdue]
  have hzh : z.hz.held = [] := by rw [← hz, State.modCtx_hz, hheld]
  obtain ⟨hthr, -, hranks⟩ := State.putGroup_frame hzd hzh (fieldLE b 0 2) (fieldLE b 2 2) (fieldLE b 4 2) (fieldLE b 6 2) (fieldLE b 8 8)
    (fieldLE b 0x10 8) (fieldLE b 0x18 1) ids
  have hgrp := State.putGroup_grp hzd hzh (fieldLE b 0 2) (fieldLE b 2 2) (fieldLE b 4 2) (fieldLE b 6 2) (fieldLE b 8 8) (fieldLE b 0x10 8)
    (fieldLE b 0x18 1) ids (fieldLE_lt ..) (fieldLE_lt ..) (fieldLE_lt ..) (fieldLE_lt ..) (fieldLE_lt ..) (fieldLE_lt ..)
  generalize hu : z.putGroup (fieldLE b 0 2) (fieldLE b 2 2) (fieldLE b 4 2) (fieldLE b 6 2) (fieldLE b 8 8) (fieldLE b 0x10 8)
    (fieldLE b 0x18 1) ids = u at *
  have hctx : u.ctx t = (s3.ctx t).sa d 0 := by rw [State.ctx_congr hthr, ← hz, State.ctx_modCtx_same]
  have hrun : exec (.gcreate t d a) s = .next (u.modCtx t Ctx.retired) := by
    rw [he, execGcreate, h.done _ (s2 := u) (by simp only [hr, hc, hz, hu]) (by rw [hctx, Ctx.sa_stopPending, hst])]
  refine Completes.of hrun ⟨by rw [State.ctx_modCtx_same, hctx], ?_, fun r hr' _ => ?_⟩
  · rw [← hgrp]
    simp only [State.grp, State.barBits, State.barNat_congr (State.modCtx_bar2 ..)]
  · have hpkg : (u.modCtx t Ctx.retired).hzPkg (fieldLE b 0 2) r = (tabGet ranksNone u.hz.ranks (fieldLE b 0 2)).getD r 0xFFFF := by
      rw [State.hzPkg, State.modCtx_hz]
    rw [hpkg, hranks, tabGet_set_same, List.getD_eq_getElem _ _ hr', List.getD_eq_getElem _ _ hr']

end Create

section Destroy
variable {a : Reg} (d : Reg)

theorem exec_gdestroy_zero (hg : ((s1.ctx t).ga a).toNat = 0) : exec (.gdestroy t d a) s = .next (s1.setCtx t ((s1.ctx t).sa d 6).retired) := by
  have he : exec (.gdestroy t d a) s = execGdestroy t d a s := rfl
  rw [he, execGdestroy, h.done _ (s2 := s1.modCtx t fun c => c.sa d (BitVec.ofNat 64 6)) (by simp only [hg, if_true])
    (by rw [State.ctx_modCtx_same, Ctx.sa_stopPending]; exact h.unstopped), State.modCtx_modCtx]
  rfl

theorem exec_gdestroy_none (hg : ((s1.ctx t).ga a).toNat ≠ 0)
    (hv : 4096 ≤ ((s1.ctx t).ga a).toNat ∨ (s1.grp ((s1.ctx t).ga a).toNat).valid = false) :
    exec (.gdestroy t d a) s = .next (s1.setCtx t ((s1.ctx t).sa d 0).retired) := by
  have he : exec (.gdestroy t d a) s = execGdestroy t d a s := rfl
  have hno : 4096 ≤ ((s1.ctx t).ga a).toNat ∨ (!(s1.grp ((s1.ctx t).ga a).toNat).valid) = true := hv.imp_right fun h => by rw [h]; rfl
  rw [he, execGdestroy, h.done _ (s2 := s1.modCtx t fun c => c.sa d (BitVec.ofNat 64 0)) (by simp only [if_neg hg, if_pos hno])
    (by rw [State.ctx_modCtx_same, Ctx.sa_stopPending]; exact h.unstopped), State.modCtx_modCtx]
  rfl

variable (h0 : 0 < ((s1.ctx t).ga a).toNat) (h1 : ((s1.ctx t).ga a).toNat < 4096) (hv : (s1.grp ((s1.ctx t).ga a).toNat).valid = true)
include h0 h1 hv

omit h in
/-- A group that exists: neither group 0 nor a number without one. -/
theorem State.grp_exists : ((s1.ctx t).ga a).toNat ≠ 0 ∧
    ¬(4096 ≤ ((s1.ctx t).ga a).toNat ∨ (!(s1.grp ((s1.ctx t).ga a).toNat).valid) = true) := by
  refine ⟨by omega, ?_⟩
  rintro (h | h)
  · omega
  · rw [hv] at h; cases h

theorem exec_gdestroy_busy (hb : s1.groupBusy ((s1.ctx t).ga a).toNat = true) :
    exec (.gdestroy t d a) s = .next (s1.setCtx t ((s1.ctx t).sa d 6).retired) := by
  have he : exec (.gdestroy t d a) s = execGdestroy t d a s := rfl
  obtain ⟨hz, hno⟩ := State.grp_exists h0 h1 hv
  rw [he, execGdestroy, h.done _ (s2 := s1.modCtx t fun c => c.sa d (BitVec.ofNat 64 6)) (by simp only [if_neg hz, if_neg hno, if_pos hb])
    (by rw [State.ctx_modCtx_same, Ctx.sa_stopPending]; exact h.unstopped), State.modCtx_modCtx]
  rfl

variable (hb : s1.groupBusy ((s1.ctx t).ga a).toNat = false)
include hb

theorem exec_gdestroy_waits (ho : ∃ o ∈ s1.hz.ops, o.gid = ((s1.ctx t).ga a).toNat) :
    exec (.gdestroy t d a) s = .next (s1.setCtx t ((s1.ctx t).waiting (.gdestroy t d a) .cond)) := by
  have he : exec (.gdestroy t d a) s = execGdestroy t d a s := rfl
  obtain ⟨hz, hno⟩ := State.grp_exists h0 h1 hv
  have hany : (s1.hz.ops.any fun o => o.gid == ((s1.ctx t).ga a).toNat) = true := by simpa using ho
  rw [he, execGdestroy, h.wait _ (s2 := s1) (aw := .cond)
    (by simp only [if_neg hz, if_neg hno, hb, Bool.false_eq_true, if_false, if_pos hany])]
  rfl

theorem exec_gdestroy (ho : ∀ o ∈ s1.hz.ops, o.gid ≠ ((s1.ctx t).ga a).toNat) : Completes (.gdestroy t d a) s fun u =>
    (u.grp ((s1.ctx t).ga a).toNat).valid = false ∧ u.ctx t = ((s1.ctx t).sa d 0).retired ∧ ∀ b, u.hzIssued ((s1.ctx t).ga a).toNat b = 0 := by
  have he : exec (.gdestroy t d a) s = execGdestroy t d a s := rfl
  obtain ⟨hz, hno⟩ := State.grp_exists h0 h1 hv
  have hany : ¬(s1.hz.ops.any fun o => o.gid == ((s1.ctx t).ga a).toNat) = true := by simpa using ho
  generalize hn : ((s1.ctx t).ga a).toNat = n at *
  have hctx : (s1.dropGroup n).ctx t = s1.ctx t := State.ctx_congr (s1.dropGroup_thr n) t
  have hrun : exec (.gdestroy t d a) s = .next ((s1.dropGroup n).setCtx t ((s1.ctx t).sa d 0).retired) := by
    rw [he, execGdestroy, h.done _ (s2 := (s1.dropGroup n).modCtx t fun c => c.sa d (BitVec.ofNat 64 0))
      (by simp only [hn, if_neg hz, if_neg hno, hb, Bool.false_eq_true, if_false, if_neg hany])
      (by rw [State.ctx_modCtx_same, Ctx.sa_stopPending, hctx]; exact h.unstopped), State.modCtx_modCtx, hctx]
    rfl
  refine Completes.of hrun ⟨?_, State.ctx_setCtx_same .., fun b => ?_⟩
  · rw [← s1.dropGroup_valid n]
    simp only [State.grp, State.barNat_congr (State.setCtx_bar2 ..)]
  · rw [← s1.dropGroup_issued n b, State.hzIssued, State.hzIssued, State.setCtx_hz]

end Destroy
end Groups

/-! ### Reductions of threads (R293, R296) -/

section Reduction
variable {s s1 : State} {t : Tid} {tgt : Target} (h : s.Issues t profWork tgt s1) {a : Reg}
include h

theorem exec_hzred_misaligned (hva : ((s1.ctx t).ga a).toNat % 128 ≠ 0) :
    exec (.hzred t a) s = .next (s1.takeFault t { code := 0x58, va := (s1.ctx t).ga a }) := by
  have he : exec (.hzred t a) s = execHzred t a s := rfl
  exact he.trans (congrArg Host.Outcome.next (h.fault _ (if_pos hva)))

section Block
variable {b : List Byte} {s2 : State} (hva : ((s1.ctx t).ga a).toNat % 128 = 0)
  (hr : s1.vread (s1.agtOf t) ((s1.ctx t).ga a).toNat 76 = (.ok b, s2)) (hgood : hzBadFormat b = false) (hg : s2.groupOk (fieldLE b 72 2) = true)
include hva hr hgood hg

/-- A block that is good: the reduction waits or contributes. -/
theorem exec_hzred : exec (.hzred t a) s = .next (State.settle t (.hzred t a)
    (if !s2.released t ∨ s2.hzFull (fieldLE b 72 2) then .wait s2 .cond
      else .done ((s2.hzContribute (fieldLE b 72 2) false (hzBlock b) (some ((s1.ctx t).ga a))).hzSettle))) := by
  have he : exec (.hzred t a) s = execHzred t a s := rfl
  rw [he, execHzred, h.issue]
  simp only [hva, ne_eq, not_true_eq_false, if_false, hr, hgood, Bool.false_eq_true, hg, Bool.not_true]

theorem exec_hzred_waits (hw : s2.released t = false ∨ s2.hzFull (fieldLE b 72 2) = true) : Completes (.hzred t a) s fun u =>
    u.ctx t = (s2.ctx t).waiting (.hzred t a) .cond ∧ u.hz = s2.hz := by
  have hcond : (!s2.released t) = true ∨ s2.hzFull (fieldLE b 72 2) = true := hw.imp_left fun h => by rw [h]; rfl
  have hrun := exec_hzred h hva hr hgood hg
  rw [if_pos hcond, State.settle_wait] at hrun
  exact Completes.of hrun ⟨State.ctx_modCtx_same .., State.modCtx_hz ..⟩

theorem exec_hzred_done (hrel : s2.released t = true) (hfull : s2.hzFull (fieldLE b 72 2) = false) : exec (.hzred t a) s =
    .next (State.settle t (.hzred t a) (.done ((s2.hzContribute (fieldLE b 72 2) false (hzBlock b) (some ((s1.ctx t).ga a))).hzSettle))) := by
  rw [exec_hzred h hva hr hgood hg, if_neg (by simp [hrel, hfull])]

end Block
end Reduction

/-- An operation of its own. -/
theorem HzOp.is_self (o : HzOp) : o.is o.gid o.boundary o.seq = true := by simp [HzOp.is]

/-- A value of a block that is good: each entry is its own under its operation (R302). -/
theorem hzNode_alone {b : List Byte} (hgood : hzBadFormat b = false) (hk : (hzBlock b).ktop = 0) {i : Nat} (hi : i < (hzBlock b).nval) :
    (hzNode (hzBlock b) []).getD i 0 = if (hzBlock b).ops.getD i 0 = 0 then 0 else (hzBlock b).vals.getD i 0 := by
  have hn : (hzBlock b).nval ≤ 8 := by
    have h := hgood
    simp only [hzBadFormat, Bool.or_eq_false_iff, decide_eq_false_iff_not, not_lt] at h
    exact h.1.1.1.2
  have hi8 : i < 8 := by omega
  rw [hzNode, if_neg (by simp [hk]), List.getD_eq_getElem _ _ (by simpa using hi8)]
  simp only [List.getElem_map, List.getElem_range, if_pos hi, List.foldl_nil, hzOwn]

section Alone
variable {s : State} {g : Nat} {v : HzVal} (va : W64) (hn : (s.grp g).nmem = 1) (hrank : (s.grp g).rank = 0) (hops : s.hz.ops = [])
  (hearly : s.hz.early = []) (hk : v.ktop = 0) (hsafe : s.flag fSafe_SAFE = false)
include hn hrank hops hearly hk hsafe

/-- A reduction over a group of this package alone ends with its own value. -/
theorem State.hzContribute_alone : ∃ x : State, s.hzContribute g false v (some va) = x.hzWriteBlock va (s.hzIssued g false + 1) 0 v (hzNode v []) ∧
    x.fld fHz_HZ_OPS = (s.fld fHz_HZ_OPS + 1) % 2 ^ 64 ∧ x.hz.ops = [] := by
  generalize hseq : s.hzIssued g false + 1 = n
  generalize ho : ({ HzOp.new g false n with own := some v, block := some va } : HzOp) = o
  have hog : o.gid = g ∧ o.boundary = false ∧ o.seq = n ∧ o.own = some v ∧ o.kids = [] ∧ o.sent = false ∧ o.block = some va := by
    rw [← ho]; exact ⟨rfl, rfl, rfl, rfl, rfl, rfl, rfl⟩
  obtain ⟨hgid, hbd, hoseq, hown, hkids, hsent, hblock⟩ := hog
  generalize h1 : (s.modHz fun h => { h with seqs := tabSet cntZero h.seqs (hzClass g false) n }) = s1
  have hops1 : s1.hz.ops = [] := by rw [← h1, State.modHz_hz, hops]
  have hearly1 : s1.hz.early = [] := by rw [← h1, State.modHz_hz, hearly]
  generalize h2 : s1.hzPut o = s2
  have hops2 : s2.hz.ops = [o] := by
    rw [← h2, State.hzPut, State.modHz_hz]
    simp [hops1]
  have hbar2 : s2.bar2 = s.bar2 := by rw [← h2, State.hzPut, State.modHz_bar2, ← h1, State.modHz_bar2]
  have hfld2 : ∀ f : Fld, fHz_HZ_STATES.apart f = true → fHz_HZ_ACTIVE.apart f = true → s2.fld f = s.fld f := fun f hs ha => by
    rw [← h2, State.hzPut, State.fld_modHz _ _ hs ha, ← h1, State.fld_modHz _ _ hs ha]
  have hsafe2 : s2.flag fSafe_SAFE = false := by rw [State.flag, hfld2 _ (by decide) (by decide)]; exact hsafe
  have hgrp : s2.grp o.gid = s.grp g := by rw [hgid]; simp only [State.grp, State.barBits, State.barNat_congr hbar2]
  have hkids2 : hzChildren 0 1 = [] := by decide
  have hedges : s2.hzEdgeLost o.gid = false := by
    rw [State.hzEdgeLost]
    simp only [hgrp, hrank, hn]
    rfl
  have hprog : s2.hzProgress o = s2.hzEnd o 0 (hzNode v []) := by
    rw [State.hzProgress]
    simp only [hown, hkids2, hkids, List.any_nil, Bool.false_eq_true, if_false, hedges, hk, ne_eq, not_true_eq_false, false_and, hsent, List.all_nil,
      Bool.not_true, or_self, List.filterMap_nil, hgrp, hrank, hn]
    rfl
  have hcont : s.hzContribute g false v (some va) = s2.hzEnd o 0 (hzNode v []) := by
    have hfind : s1.hzFind g false n = none := by rw [State.hzFind, hops1]; rfl
    rw [State.hzContribute]
    simp only [hseq, h1, hfind, Option.getD_none, ho, hearly1, List.find?_nil, h2, hsafe2, Bool.false_eq_true, if_false]
    exact hprog
  generalize h3 : (s2.modHz fun h => { h with ops := h.ops.filter fun x => !x.is o.gid o.boundary o.seq }) = s3
  have hops3 : s3.hz.ops = [] := by
    rw [← h3, State.modHz_hz]
    simp [hops2, o.is_self]
  refine ⟨s3.inc fHz_HZ_OPS, ?_, ?_, ?_⟩
  · rw [hcont, State.hzEnd]
    simp only [h3, hown]
    rw [State.hzDeliver]
    simp only [hbd, hblock, hoseq, if_true, Bool.false_eq_true, if_false]
  · rw [State.inc, State.fld_setFld_same _ _ rfl, ← h3, State.fld_modHz _ _ (by decide) (by decide), hfld2 _ (by decide) (by decide)]
    rfl
  · rw [State.inc, State.setFld_hz]
    exact hops3

end Alone

/-- Settles O41: a group by its entry, a reduction of this package alone by its one operation. -/
theorem groupsAndReductionsOfThreads : Obligations.GroupsAndReductionsOfThreads := by
  unfold Obligations.GroupsAndReductionsOfThreads
  refine ⟨fun s s1 t tgt d a h => ⟨fun b s2 s3 ids c hr hc hst => ⟨exec_gcreate_accepted h d hr hc hst, exec_gcreate_refused h d hr hc hst⟩, ?_⟩,
    fun s s1 t tgt a h => ?_⟩
  · intro g out
    exact ⟨exec_gdestroy_zero h d, exec_gdestroy_none h d, fun h0 h1 hv hb => exec_gdestroy_busy h d h0 h1 hv hb,
      fun h0 h1 hv hb => ⟨exec_gdestroy_waits h d h0 h1 hv hb, exec_gdestroy h d h0 h1 hv hb⟩⟩
  · intro va
    refine ⟨exec_hzred_misaligned h, fun b s2 hva hr hgood => ?_⟩
    intro g v hg
    refine ⟨exec_hzred_waits h hva hr hgood hg, exec_hzred_done h hva hr hgood hg, fun hn hrank hops hearly hk hsafe => ?_⟩
    obtain ⟨x, hx, hcnt, hxops⟩ := State.hzContribute_alone va hn hrank hops hearly hk hsafe
    exact ⟨x, hx, hcnt, hxops, fun i hi => hzNode_alone hgood hk hi⟩

end Sys2Proof.Machine
end

section
/-! # Packets that are sent, detections, and configuration epochs -/
namespace Sys2Proof.Machine

/-! ### Packets that are sent: what the sending of a package's own operations leaves alone -/

/-- The state but its registers, its ports and reduction states, and the result of its boundary operation. -/
def State.offNet (s : State) : State := { s with regs := [], fab := FabSt.empty, hz := HzSt.empty, bnd := { s.bnd with result := none } }

/-- A field that the sending of packets and the counting of reductions do not write. -/
structure Fld.NetFree (f : Fld) : Prop where
  states : fHz_HZ_STATES.apart f = true
  active : fHz_HZ_ACTIVE.apart f = true
  ops : fHz_HZ_OPS.apart f = true
  errors : fHz_HZ_ERRORS.apart f = true
  cause : fHz_LAST_CAUSE.apart f = true
  gid : fHz_LAST_GID.apart f = true
  replay : ∀ p, (fPort_FLIT_REPLAY p).apart f = true
  arm : ∀ p, (fInj_ARM (0x040 + p)).apart f = true
  injected : ∀ p, (fErr_INJECTED (0x040 + p)).apart f = true

/-- What the package's sending of packets leaves: all but ports, reduction states, and the result of its boundary operation. -/
structure State.Net (s u : State) : Prop where
  off : u.offNet = s.offNet
  fld : ∀ f : Fld, f.NetFree → u.fld f = s.fld f

theorem State.offNet_setFld (s : State) (f : Fld) (v : Nat) : (s.setFld f v).offNet = s.offNet := rfl

theorem State.offNet_modHz (s : State) (g : HzSt → HzSt) : (s.modHz g).offNet = s.offNet := by
  rw [State.modHz]
  exact (State.offNet_setFld _ _ _).trans (State.offNet_setFld _ _ _)

namespace State.Net

theorem refl (s : State) : s.Net s := ⟨rfl, fun _ _ => rfl⟩

theorem trans {a b c : State} (h : a.Net b) (k : b.Net c) : a.Net c := ⟨k.off.trans h.off, fun f hf => (k.fld f hf).trans (h.fld f hf)⟩

variable {s u : State}

theorem setFld (h : s.Net u) {g : Fld} (v : Nat) (hok : g.ok = true) (hg : ∀ f : Fld, f.NetFree → g.apart f = true) : s.Net (u.setFld g v) :=
  ⟨h.off, fun f hf => (State.fld_setFld_apart _ _ hok (hg f hf)).trans (h.fld f hf)⟩

theorem modHz (h : s.Net u) (g : HzSt → HzSt) : s.Net (u.modHz g) :=
  ⟨(State.offNet_modHz u g).trans h.off, fun _ hf => (State.fld_modHz u g hf.states hf.active).trans (h.fld _ hf)⟩

theorem setPort (h : s.Net u) (p : Nat) (x : Port) : s.Net (u.setPort p x) := ⟨h.off, h.fld⟩

theorem result (h : s.Net u) (r : Option (Nat × List W64)) : s.Net { u with bnd := { u.bnd with result := r } } := ⟨h.off, h.fld⟩

theorem injDone (h : s.Net u) (p : Nat) : s.Net (u.injDone (0x040 + p)) := by
  have harm : (fInj_ARM (0x040 + p)).ok = true := by simp [fInj_ARM, Fld.ok, Fld.sh, Fld.w]
  have hinj : (fErr_INJECTED (0x040 + p)).ok = true := by simp [fErr_INJECTED, Fld.ok, Fld.sh, Fld.w]
  exact (h.setFld _ harm fun f hf => hf.arm p).setFld _ hinj fun f hf => hf.injected p

theorem take (h : s.Net u) (p : Nat) (k : OutPkt) : s.Net (u.take p k) := by
  have hrep : (fPort_FLIT_REPLAY p).ok = true := by simp [fPort_FLIT_REPLAY, Fld.ok, Fld.sh, Fld.w]
  unfold State.take
  extract_lets page vc hit1 hit2 s1 s2 k2 x
  have h1 : s.Net s1 := by
    by_cases hit : (hit1 || hit2) = true
    · rw [show s1 = u.injDone (0x040 + p) from if_pos (by simpa using hit)]
      exact h.injDone p
    · rw [show s1 = u from if_neg (by simpa using hit)]
      exact h
  have h2 : s.Net s2 := by
    by_cases hit : hit1 = true
    · rw [show s2 = s1.inc (fPort_FLIT_REPLAY p) from if_pos hit]
      exact h1.setFld _ hrep fun f hf => hf.replay p
    · rw [show s2 = s1 from if_neg hit]
      exact h1
  exact h2.setPort p _

theorem flow (n : Nat) (h : s.Net u) (p : Nat) : s.Net (u.flow p n) := by
  induction n generalizing u with
  | zero => exact h
  | succ n ih =>
    rw [State.flow]
    split
    · exact h
    split
    · exact ih (h.setPort p _)
    split
    · exact ih (h.setPort p _)
    split
    · exact ih (h.take p _)
    · split
      · exact h
      · exact ih (h.setPort p _)

theorem pump (h : s.Net u) (p : Nat) : s.Net (u.pump p) := by
  unfold State.pump
  split
  · exact h
  · exact flow _ h p

theorem send (h : s.Net u) (k : OutPkt) : s.Net (u.send k) := by
  unfold State.send
  split
  · exact (h.setPort _ _).pump _
  · exact h

theorem foldl {α : Type} (h : s.Net u) (f : State → α → State) (hf : ∀ t x, s.Net t → s.Net (f t x)) (l : List α) : s.Net (l.foldl f u) := by
  induction l generalizing u with
  | nil => exact h
  | cons x l ih => exact ih (hf u x h)

theorem hzDeliver (h : s.Net u) {o : HzOp} (ho : o.boundary = true) (v : HzVal) (cause : Nat) (res : List W64) : s.Net (u.hzDeliver o v cause res) := by
  unfold State.hzDeliver
  dsimp only
  rw [if_pos ho]
  split
  · exact (h.setFld (g := fHz_HZ_OPS) _ rfl fun f hf => hf.ops).result _
  · exact (((h.setFld (g := fHz_HZ_ERRORS) _ rfl fun f hf => hf.errors).setFld (g := fHz_LAST_CAUSE) _ rfl fun f hf => hf.cause).setFld
      (g := fHz_LAST_GID) _ rfl fun f hf => hf.gid).result _

theorem hzEnd (h : s.Net u) {o : HzOp} (ho : o.boundary = true) (cause : Nat) (res : List W64) : s.Net (u.hzEnd o cause res) := by
  unfold State.hzEnd
  dsimp only
  split
  · exact (h.modHz _).hzDeliver ho _ _ _
  · exact (h.modHz _).modHz _

theorem hzAbort (h : s.Net u) {o : HzOp} (ho : o.boundary = true) (cause : Nat) (but : Option Nat) : s.Net (u.hzAbort o cause but) :=
  (h.hzEnd ho cause []).foldl _ (fun _ _ ht => ht.send _) _

theorem hzPut (h : s.Net u) (o : HzOp) : s.Net (u.hzPut o) := h.modHz _

theorem hzProgress (h : s.Net u) {o : HzOp} (ho : o.boundary = true) : s.Net (u.hzProgress o) := by
  unfold State.hzProgress
  dsimp only
  split
  · exact h
  split
  · exact h.hzAbort ho _ _
  split
  · exact h.hzAbort ho _ _
  split
  · exact h.hzAbort ho _ _
  split
  · exact h
  split
  · exact (h.hzPut _).send _
  · exact (h.foldl _ (fun _ _ ht => ht.send _) _).hzEnd ho _ _

theorem hzContribute (h : s.Net u) (gid : Nat) (v : HzVal) : s.Net (u.hzContribute gid true v none) := by
  have ho : ∀ (t : State) (seq : Nat), ((t.hzFind gid true seq).getD (HzOp.new gid true seq)).boundary = true := fun t seq => by
    cases hf : t.hzFind gid true seq with
    | none => rfl
    | some o =>
      have := List.find?_some hf
      simp only [HzOp.is, Bool.and_eq_true, beq_iff_eq] at this
      exact this.1.2
  unfold State.hzContribute
  extract_lets seq s1 src o
  have h1 : s.Net s1 := h.modHz _
  have hob : o.boundary = true := ho s1 seq
  split
  · exact (h1.modHz _).hzDeliver hob _ _ _
  · rename_i s2 _ _
    have h2 : s.Net s2 := h1.hzPut o
    split
    · exact h2.hzAbort hob _ _
    · exact h2.hzProgress hob

theorem hzBegin (l : List (Nat × HzVal)) (h : s.Net u) : s.Net (u.hzBegin l) := by
  induction l generalizing u with
  | nil => exact h
  | cons e l ih =>
    obtain ⟨gid, v⟩ := e
    rw [State.hzBegin]
    split
    · exact ih ((h.modHz _).hzContribute gid v)
    · exact h

theorem hzBoundary (h : s.Net u) (gid : Nat) (ops : List Nat) (vals : List W64) : s.Net (u.hzBoundary gid ops vals) := by
  unfold State.hzBoundary
  extract_lets src s0 src' v
  have h0 : s.Net s0 := h.result none
  split
  · exact hzBegin _ (h0.modHz _)
  · exact h0.result _

theorem thr (h : s.Net u) : u.thr = s.thr := (congrArg State.thr h.off : u.offNet.thr = s.offNet.thr)
theorem phase (h : s.Net u) : u.bnd.phase = s.bnd.phase := (congrArg (·.bnd.phase) h.off : u.offNet.bnd.phase = s.offNet.bnd.phase)
theorem dram (h : s.Net u) : u.dram = s.dram := (congrArg State.dram h.off : u.offNet.dram = s.offNet.dram)
theorem bar2 (h : s.Net u) : u.bar2 = s.bar2 := (congrArg State.bar2 h.off : u.offNet.bar2 = s.offNet.bar2)
theorem flag (h : s.Net u) {f : Fld} (hf : f.NetFree) : u.flag f = s.flag f := by rw [State.flag, State.flag, h.fld f hf]

end State.Net

/-- A field below the ports' pages, and of no reduction. -/
theorem Fld.netFree_of_page {f : Fld} (h : f.key / 512 < 0x040) : f.NetFree := by
  have hz : ∀ g : Fld, g.key / 512 = 0x060 → g.apart f = true := fun g hg => Fld.apart_of_page (by omega)
  have hp : ∀ g : Fld, 0x040 ≤ g.key / 512 → g.apart f = true := fun g hg => Fld.apart_of_page (by omega)
  refine ⟨hz _ rfl, hz _ rfl, hz _ rfl, hz _ rfl, hz _ rfl, hz _ rfl, fun p => hp _ ?_, fun p => hp _ ?_, fun p => hp _ ?_⟩ <;>
    simp [fPort_FLIT_REPLAY, fInj_ARM, fErr_INJECTED, Fld.key] <;> omega

/-! ### What a detection leaves alone -/

/-- The state but what a detection writes: its record, the registers, the event logs, the persistent store's queue and the snapshot's doom. -/
def State.offReport (s : State) : State :=
  { s with fresh := 0, answers := [], regs := [], bar2 := [], logs := [], pst := State.reset.pst, saf := State.reset.saf,
           snp := { s.snp with doomed := 0 } }

theorem State.offReport_setFld (s : State) (f : Fld) (v : Nat) : (s.setFld f v).offReport = s.offReport := rfl
theorem State.offReport_setFlag (s : State) (f : Fld) (b : Bool) : (s.setFlag f b).offReport = s.offReport := rfl
theorem State.offReport_inc (s : State) (f : Fld) : (s.inc f).offReport = s.offReport := rfl
theorem State.offReport_draw (s : State) : s.draw.2.offReport = s.offReport := rfl

theorem State.offReport_putBar (bs : List Byte) : ∀ (s : State) (k : Nat), (s.putBar k bs).offReport = s.offReport := by
  induction bs with
  | nil => exact fun _ _ => rfl
  | cons b bs ih => exact fun s k => (ih _ _).trans rfl

theorem State.offReport_dooms (s : State) (c : Nat) : (s.dooms c).offReport = s.offReport := by
  unfold State.dooms
  split <;> rfl

theorem State.offReport_persist (s : State) (i v : Nat) : (s.persist i v).offReport = s.offReport := by
  unfold State.persist
  split
  · rfl
  · split <;> rfl

theorem State.offReport_commitSafeLast (s : State) (d : Det) (bs : List Byte) : (s.commitSafeLast d bs).offReport = s.offReport := by
  unfold State.commitSafeLast
  split
  · exact (State.offReport_persist _ _ _).trans rfl
  · rfl

theorem State.offReport_event (s : State) (log : Nat) (k : EvKind) (loc data : W64) (frec : List Byte) :
    (s.event log k loc data frec).offReport = s.offReport := by
  unfold State.event
  dsimp only
  split
  · rfl
  · split <;> rfl

theorem State.offReport_logRecord (s : State) (d : Det) : (s.logRecord d).2.offReport = s.offReport := by
  unfold State.logRecord
  dsimp only
  split <;> split <;>
    simp only [State.offReport_setFlag, State.offReport_setFld, State.offReport_inc, State.offReport_dooms, State.offReport_putBar,
      State.offReport_draw] <;> rfl

theorem State.offReport_report (s : State) (d : Det) (ev : Option (Nat × EvKind)) : (s.report d ev).offReport = s.offReport := by
  have hset : ∀ t : State, (if 2 ≤ d.react then t.setFlag fSafe_FAULT true else t).offReport = t.offReport := by
    intro t
    split <;> rfl
  have hlog : ∀ t : State, t = (s.logRecord d).2.commitSafeLast d (s.logRecord d).1 → t.offReport = s.offReport := by
    rintro t rfl
    rw [State.offReport_commitSafeLast, State.offReport_logRecord]
  unfold State.report
  dsimp only
  split
  · exact hlog _ rfl
  · split
    · rw [State.offReport_event, hset, hlog _ rfl]
    · split
      · rw [State.offReport_event, hset, hlog _ rfl]
      · split
        · rw [State.offReport_event, hset, hlog _ rfl]
        · split
          · rw [State.offReport_event, hset, hlog _ rfl]
          · rw [hset, hlog _ rfl]

section
variable (s : State) (d : Det) (ev : Option (Nat × EvKind))
theorem State.report_bnd : (s.report d ev).bnd = s.bnd := (congrArg State.bnd (s.offReport_report d ev) :)
theorem State.report_mdl : (s.report d ev).mdl = s.mdl := (congrArg State.mdl (s.offReport_report d ev) :)
theorem State.report_dram : (s.report d ev).dram = s.dram := (congrArg State.dram (s.offReport_report d ev) :)
end

/-! ### The actions of a boundary after the configuration (spec 13.3) -/

/-- What the end of action 2 leaves: the threads, and every field but APPLYING, HELD and what the group's agreement writes. -/
structure State.ActionOver (s u : State) : Prop where
  thr : u.thr = s.thr
  fld : ∀ f : Fld, f.NetFree → fMode_APPLYING.apart f = true → fSnap_HELD.apart f = true → u.fld f = s.fld f

theorem State.dueRelease_phase (s : State) : s.dueRelease.bnd.phase = .releaseDue := by
  unfold State.dueRelease
  dsimp only
  split <;> rfl

theorem State.dueRelease_regs (s : State) : s.dueRelease.regs = s.regs ∨ s.dueRelease.regs = (s.setFlag fSnap_HELD true).regs := by
  unfold State.dueRelease
  dsimp only
  split
  · exact .inr rfl
  · exact .inl rfl

theorem State.dueRelease_fld (s : State) {f : Fld} (hf : fSnap_HELD.apart f = true) : s.dueRelease.fld f = s.fld f := by
  obtain h | h := s.dueRelease_regs
  · exact State.fld_congr h f
  · rw [State.fld_congr h, State.setFlag, State.fld_setFld_apart _ _ rfl hf]

theorem State.dueRelease_frame (s : State) : s.dueRelease.thr = s.thr ∧ s.dueRelease.dram = s.dram ∧ s.dueRelease.mdl = s.mdl := by
  unfold State.dueRelease
  dsimp only
  split <;> exact ⟨rfl, rfl, rfl⟩

theorem State.dueSolstice_phase (s : State) : s.dueSolstice.bnd.phase = .pollDue ∨ s.dueSolstice.bnd.phase = .releaseDue := by
  unfold State.dueSolstice
  split
  · exact .inl rfl
  · exact .inr s.dueRelease_phase

theorem State.dueSolstice_fld (s : State) {f : Fld} (hf : fSnap_HELD.apart f = true) : s.dueSolstice.fld f = s.fld f := by
  unfold State.dueSolstice
  split
  · rfl
  · exact s.dueRelease_fld hf

theorem State.dueSolstice_frame (s : State) : s.dueSolstice.thr = s.thr ∧ s.dueSolstice.dram = s.dram ∧ s.dueSolstice.mdl = s.mdl := by
  unfold State.dueSolstice
  split
  · exact ⟨rfl, rfl, rfl⟩
  · exact s.dueRelease_frame

theorem State.epochOver_over (s : State) : s.ActionOver s.epochOver := by
  unfold State.epochOver
  dsimp only
  split
  · exact ⟨rfl, fun f _ ha _ => State.fld_setFld_apart _ _ rfl ha⟩
  · exact ⟨(State.dueSolstice_frame _).1, fun f _ ha hh => (State.dueSolstice_fld _ hh).trans (State.fld_setFld_apart _ _ rfl ha)⟩

theorem State.epochOver_applying (s : State) : s.epochOver.flag fMode_APPLYING = false := by
  have hset : (s.setFlag fMode_APPLYING false).flag fMode_APPLYING = false := State.flag_setFlag_same _ _ rfl rfl
  unfold State.epochOver
  dsimp only
  split
  · exact hset
  · rw [State.flag, State.dueSolstice_fld _ (by decide)]
    exact hset

theorem State.epochOver_phase {s : State} (h : s.bnd.phase ≠ .none) : s.epochOver.bnd.phase = .pollDue ∨ s.epochOver.bnd.phase = .releaseDue := by
  unfold State.epochOver
  exact (if_neg (show ¬(s.setFlag fMode_APPLYING false).bnd.phase = .none from h)) ▸ State.dueSolstice_phase _

theorem State.epochAgree_over (s : State) (b : Bool) : s.ActionOver (s.epochAgree b) := by
  unfold State.epochAgree
  dsimp only
  split
  · have h := (State.Net.refl s).hzBoundary (s.fld fMode_EP_GROUP) [5, 5, 6]
      [if b then 1 else 0, BitVec.ofNat 64 (s.fld fMode_STG_EPOCH), BitVec.ofNat 64 (s.fld fMode_STG_EPOCH)]
    exact ⟨h.thr, fun f hf _ _ => h.fld f hf⟩
  · exact s.epochOver_over

/-- After action 2 comes the group's agreement with AGREE_EN, else the actions that follow. -/
theorem State.epochAgree_next {s : State} (h : s.bnd.phase = .apply) (b : Bool) :
    if s.flag fMode_AGREE_EN then (s.epochAgree b).bnd.phase = .agree
    else (s.epochAgree b).flag fMode_APPLYING = false ∧
      ((s.epochAgree b).bnd.phase = .pollDue ∨ (s.epochAgree b).bnd.phase = .releaseDue) := by
  have hne : s.bnd.phase ≠ .none := by rw [h]; decide
  unfold State.epochAgree
  dsimp only
  by_cases ha : s.flag fMode_AGREE_EN = true
  · rw [if_pos ha, if_pos ⟨ha, hne⟩]
    rfl
  · rw [if_neg ha, if_neg (fun hc => ha hc.1)]
    exact ⟨s.epochOver_applying, State.epochOver_phase hne⟩

/-! ### The configuration in force -/

/-- A field that taking a configuration does not write. -/
structure Fld.ConfigFree (f : Fld) : Prop where
  profile : fMode_A_PROFILE.apart f = true
  cap : fMode_A_CAP_MODE.apart f = true
  strict : fMode_A_STRICT.apart f = true
  epoch : fMode_A_EPOCH.apart f = true
  aclk : fPwr_ACLK.apart f = true
  state : fPwr_STATE.apart f = true

theorem State.profileClock_fld (s : State) (p : Nat) {f : Fld} (ha : fPwr_ACLK.apart f = true) (hs : fPwr_STATE.apart f = true) :
    (if p = 1 then (s.setFld fPwr_ACLK 940).syncCapped else s).fld f = s.fld f := by
  split
  · rw [State.syncCapped_fld _ hs, State.fld_setFld_apart _ _ rfl ha]
  · rfl

theorem State.setConfig_fld (s : State) (c : EpPrev) {f : Fld} (hf : f.ConfigFree) : (s.setConfig c).fld f = s.fld f := by
  rw [State.setConfig, State.profileClock_fld _ _ hf.aclk hf.state, State.fld_setFld_apart _ _ rfl hf.epoch,
    State.fld_setFld_apart _ _ rfl hf.strict, State.fld_setFld_apart _ _ rfl hf.cap, State.fld_setFld_apart _ _ rfl hf.profile]

theorem State.setConfig_values (s : State) {c : EpPrev} (hp : c.profile < 2) (hc : c.cap < 2) (hs : c.strict < 2) (he : c.epoch < 2 ^ 32) :
    (s.setConfig c).fld fMode_A_PROFILE = c.profile ∧ (s.setConfig c).fld fMode_A_CAP_MODE = c.cap ∧
    (s.setConfig c).fld fMode_A_STRICT = c.strict ∧ (s.setConfig c).fld fMode_A_EPOCH = c.epoch := by
  refine ⟨?_, ?_, ?_, ?_⟩ <;> rw [State.setConfig, State.profileClock_fld _ _ (by decide) (by decide)]
  · rw [State.fld_setFld_apart _ _ rfl (by decide), State.fld_setFld_apart _ _ rfl (by decide), State.fld_setFld_apart _ _ rfl (by decide),
      State.fld_setFld_fits _ rfl hp]
  · rw [State.fld_setFld_apart _ _ rfl (by decide), State.fld_setFld_apart _ _ rfl (by decide), State.fld_setFld_fits _ rfl hc]
  · rw [State.fld_setFld_apart _ _ rfl (by decide), State.fld_setFld_fits _ rfl hs]
  · exact State.fld_setFld_fits _ rfl he

theorem State.setConfig_epoch (s : State) {c : EpPrev} (he : c.epoch < 2 ^ 32) : (s.setConfig c).fld fMode_A_EPOCH = c.epoch := by
  rw [State.setConfig, State.profileClock_fld _ _ (by decide) (by decide)]
  exact State.fld_setFld_fits _ rfl he

theorem State.syncCapped_frame (s : State) : s.syncCapped.thr = s.thr ∧ s.syncCapped.bnd = s.bnd := by
  have hset : ∀ v, (s.setFld fPwr_STATE v).thr = s.thr ∧ (s.setFld fPwr_STATE v).bnd = s.bnd := fun v =>
    ⟨State.setFld_thr .., State.setFld_bnd ..⟩
  unfold State.syncCapped
  dsimp only
  split
  · split
    · exact hset 2
    · exact ⟨rfl, rfl⟩
  · split
    · exact ⟨rfl, rfl⟩
    · exact hset 1
  · exact ⟨rfl, rfl⟩

theorem State.profileClock_frame (s : State) (p : Nat) :
    (if p = 1 then (s.setFld fPwr_ACLK 940).syncCapped else s).thr = s.thr ∧
    (if p = 1 then (s.setFld fPwr_ACLK 940).syncCapped else s).bnd = s.bnd := by
  split
  · obtain ⟨ht, hb⟩ := State.syncCapped_frame (s.setFld fPwr_ACLK 940)
    exact ⟨ht.trans (State.setFld_thr ..), hb.trans (State.setFld_bnd ..)⟩
  · exact ⟨rfl, rfl⟩

theorem State.setConfig_frame (s : State) (c : EpPrev) : (s.setConfig c).thr = s.thr ∧ (s.setConfig c).bnd = s.bnd := by
  constructor
  · rw [State.setConfig, (State.profileClock_frame _ _).1, State.setFld_thr, State.setFld_thr, State.setFld_thr, State.setFld_thr]
  · rw [State.setConfig, (State.profileClock_frame _ _).2, State.setFld_bnd, State.setFld_bnd, State.setFld_bnd, State.setFld_bnd]

/-! ### The epoch of blocks and threads -/

theorem fEpoch_ok (p : Nat) : (fEpoch p).ok = true := by simp [fEpoch, Fld.ok, Fld.sh, Fld.w]

theorem fEpoch_key_mod (p : Nat) : (fEpoch p).key % 512 = 4 := by simp [Fld.key, fEpoch]

theorem fEpoch_apart (p : Nat) {f : Fld} (hf : f.key % 512 ≠ 4) : (fEpoch p).apart f = true := by
  have : (fEpoch p).key ≠ f.key := fun h => hf (by rw [← h, fEpoch_key_mod])
  simp [Fld.apart, this]

theorem apart_fEpoch (p : Nat) {f : Fld} (hf : f.key % 512 ≠ 4) : f.apart (fEpoch p) = true := by
  have : f.key ≠ (fEpoch p).key := fun h => hf (by rw [h, fEpoch_key_mod])
  simp [Fld.apart, this]

theorem fEpoch_ne {p q : Nat} (h : p ≠ q) : (fEpoch p).apart (fEpoch q) = true := by
  have : (fEpoch p).key ≠ (fEpoch q).key := by simp only [Fld.key, fEpoch]; omega
  simp [Fld.apart, this]

theorem State.foldl_fEpoch_frame (e : Nat) (l : List Nat) : ∀ s : State,
    (l.foldl (fun t p => t.setFld (fEpoch p) e) s).thr = s.thr ∧ (l.foldl (fun t p => t.setFld (fEpoch p) e) s).bnd = s.bnd := by
  induction l with
  | nil => exact fun _ => ⟨rfl, rfl⟩
  | cons p l ih => exact fun s => ih _

theorem State.foldl_fEpoch_fld (e : Nat) {f : Fld} (hf : f.key % 512 ≠ 4) (l : List Nat) : ∀ s : State,
    (l.foldl (fun t p => t.setFld (fEpoch p) e) s).fld f = s.fld f := by
  induction l with
  | nil => exact fun _ => rfl
  | cons p l ih => exact fun s => (ih _).trans (State.fld_setFld_apart _ _ (fEpoch_ok p) (fEpoch_apart p hf))

theorem State.foldl_fEpoch_value {e : Nat} (he : e < 2 ^ 32) (l : List Nat) : ∀ (s : State) (p : Nat), p ∈ l ∨ s.fld (fEpoch p) = e →
    (l.foldl (fun t p => t.setFld (fEpoch p) e) s).fld (fEpoch p) = e := by
  induction l with
  | nil => exact fun s p h => h.resolve_left (by simp)
  | cons q l ih =>
    intro s p h
    refine ih _ p ?_
    by_cases hpq : q = p
    · subst hpq
      exact .inr (State.fld_setFld_fits _ (fEpoch_ok q) he)
    · refine h.imp (fun hm => (List.mem_cons.1 hm).resolve_left (Ne.symm hpq)) fun hs => ?_
      rw [State.fld_setFld_apart _ _ (fEpoch_ok q) (fEpoch_ne hpq), hs]

theorem State.fld_withThr (s : State) (x : ThrSt) (f : Fld) : ({ s with thr := x } : State).fld f = s.fld f := rfl
theorem State.bnd_withThr (s : State) (x : ThrSt) : ({ s with thr := x } : State).bnd = s.bnd := rfl

theorem State.setEpochs_fld (s : State) (e : Nat) {f : Fld} (hf : f.key % 512 ≠ 4) : (s.setEpochs e).fld f = s.fld f := by
  rw [State.setEpochs, State.fld_withThr, State.foldl_fEpoch_fld e hf epochPages s]

theorem State.setEpochs_bnd (s : State) (e : Nat) : (s.setEpochs e).bnd = s.bnd := by
  rw [State.setEpochs, State.bnd_withThr, (State.foldl_fEpoch_frame e epochPages s).2]

theorem State.setEpochs_pages (s : State) {e : Nat} (he : e < 2 ^ 32) : ∀ p ∈ epochPages, (s.setEpochs e).fld (fEpoch p) = e := fun p hp => by
  rw [State.setEpochs, State.fld_withThr, State.foldl_fEpoch_value he epochPages s p (.inl hp)]

theorem State.setEpochs_thr (s : State) (e : Nat) :
    (s.setEpochs e).thr = { s.thr with ctxs := s.thr.ctxs.map fun c => (c.1, { c.2 with epoch := BitVec.ofNat 32 e }) } := by
  rw [State.setEpochs, (State.foldl_fEpoch_frame e epochPages s).1]

theorem State.setEpochs_ctxs (s : State) (e : Nat) : ∀ c ∈ (s.setEpochs e).thr.ctxs, c.2.epoch = BitVec.ofNat 32 e := by
  rw [State.setEpochs_thr]
  intro c hc
  obtain ⟨_, _, rfl⟩ := List.mem_map.1 hc
  rfl

theorem fEpoch_netFree (p : Nat) : (fEpoch p).NetFree :=
  ⟨apart_fEpoch p (by decide), apart_fEpoch p (by decide), apart_fEpoch p (by decide), apart_fEpoch p (by decide), apart_fEpoch p (by decide),
    apart_fEpoch p (by decide), fun _ => apart_fEpoch p (by simp [fPort_FLIT_REPLAY, Fld.key]),
    fun q => by
      by_cases hq : (fInj_ARM (0x040 + q)).key = (fEpoch p).key
      · simp [Fld.apart, fInj_ARM, fEpoch, Fld.sh, Fld.w]
      · simp [Fld.apart, hq],
    fun _ => apart_fEpoch p (by simp [fErr_INJECTED, Fld.key])⟩

theorem fEpoch_configFree (p : Nat) : (fEpoch p).ConfigFree := by
  constructor <;> exact apart_fEpoch p (by decide)

/-! ### The revert -/

/-- A field of another page than the safety page, that the revert of a configuration does not write. -/
structure Fld.RevertFree (f : Fld) : Prop where
  page : f.key / 512 ≠ 0x00B
  armed : fMode_ARMED.apart f = true
  reverted : fMode_REVERTED.apart f = true
  code : fMode_CODE.apart f = true
  late : fMode_LATE_PAGE.apart f = true
  reverts : fMode_REVERTS.apart f = true

section Revert
variable (s : State) (code late : Nat)

theorem State.epochRevert_frame : (s.epochRevert code late).thr = s.thr ∧ (s.epochRevert code late).bnd = s.bnd := by
  constructor
  · rw [State.epochRevert, State.report_thr, State.inc_thr, State.setFld_thr, State.setFld_thr, State.setFlag_thr, State.setFlag_thr]
  · rw [State.epochRevert, State.report_bnd, State.inc_bnd, State.setFld_bnd, State.setFld_bnd, State.setFlag_bnd, State.setFlag_bnd]

theorem State.epochRevert_fld {f : Fld} (hf : f.RevertFree) : (s.epochRevert code late).fld f = s.fld f := by
  rw [State.epochRevert, State.report_fld_mild _ Nat.two_pos _ hf.page, State.inc, State.fld_setFld_apart _ _ rfl hf.reverts,
    State.fld_setFld_apart _ _ rfl hf.late, State.fld_setFld_apart _ _ rfl hf.code, State.setFlag, State.fld_setFld_apart _ _ rfl hf.reverted,
    State.setFlag, State.fld_setFld_apart _ _ rfl hf.armed]

theorem State.epochRevert_armed : (s.epochRevert code late).flag fMode_ARMED = false := by
  rw [State.flag, State.epochRevert, State.report_fld_mild _ Nat.two_pos _ (by decide), State.inc, State.fld_setFld_apart _ _ rfl (by decide),
    State.fld_setFld_apart _ _ rfl (by decide), State.fld_setFld_apart _ _ rfl (by decide), State.setFlag,
    State.fld_setFld_apart _ _ rfl (by decide)]
  exact State.flag_setFlag_same _ _ rfl rfl

theorem State.epochRevert_reverted : (s.epochRevert code late).flag fMode_REVERTED = true := by
  rw [State.flag, State.epochRevert, State.report_fld_mild _ Nat.two_pos _ (by decide), State.inc, State.fld_setFld_apart _ _ rfl (by decide),
    State.fld_setFld_apart _ _ rfl (by decide), State.fld_setFld_apart _ _ rfl (by decide)]
  exact State.flag_setFlag_same _ _ rfl rfl

theorem State.epochRevert_code (hc : code < 2 ^ 8) : (s.epochRevert code late).fld fMode_CODE = code := by
  rw [State.epochRevert, State.report_fld_mild _ Nat.two_pos _ (by decide), State.inc, State.fld_setFld_apart _ _ rfl (by decide),
    State.fld_setFld_apart _ _ rfl (by decide), State.fld_setFld_fits _ rfl hc]

theorem State.epochRevert_late (hl : late < 2 ^ 9) : (s.epochRevert code late).fld fMode_LATE_PAGE = late := by
  rw [State.epochRevert, State.report_fld_mild _ Nat.two_pos _ (by decide), State.inc, State.fld_setFld_apart _ _ rfl (by decide),
    State.fld_setFld_fits _ rfl hl]

theorem State.epochRevert_reverts : (s.epochRevert code late).fld fMode_REVERTS = (s.fld fMode_REVERTS + 1) % 2 ^ 64 := by
  rw [State.epochRevert, State.report_fld_mild _ Nat.two_pos _ (by decide), State.inc, State.fld_setFld_same _ _ rfl,
    State.fld_setFld_apart _ _ rfl (by decide), State.fld_setFld_apart _ _ rfl (by decide), State.setFlag,
    State.fld_setFld_apart _ _ rfl (by decide), State.setFlag, State.fld_setFld_apart _ _ rfl (by decide)]
  rfl

end Revert

theorem State.Net.prev {s u : State} (h : s.Net u) : u.bnd.prev = s.bnd.prev :=
  (congrArg (·.bnd.prev) h.off : u.offNet.bnd.prev = s.offNet.bnd.prev)

/-- Taking the result of a boundary's operation counts it and drops it. -/
theorem State.net_hzTaken (s : State) (gid : Nat) (err : Option Nat) : s.Net (s.hzTaken gid err) := by
  unfold State.hzTaken
  extract_lets s1 s2
  have h1 : s.Net s1 := (State.Net.refl s).result none
  have h2 : s.Net s2 := h1.modHz _
  split
  · exact h1
  split
  · split
    · exact (h2.modHz _).setFld (g := fHz_HZ_OPS) _ rfl fun f hf => hf.ops
    · exact (((h2.modHz _).setFld (g := fHz_HZ_ERRORS) _ rfl fun f hf => hf.errors).setFld (g := fHz_LAST_CAUSE) _ rfl
        fun f hf => hf.cause).setFld (g := fHz_LAST_GID) _ rfl fun f hf => hf.gid
  · exact h2

theorem exec_epochApply (s : State) : exec .epochApply s = execEpochApply s := rfl
theorem exec_epochApplied (s : State) : exec .epochApplied s = execEpochApplied s := rfl
theorem exec_epochApplyTimeout (late : Nat) (s : State) : exec (.epochApplyTimeout late) s = execEpochApplyTimeout late s := rfl
theorem exec_epochAgreementResult (err : Option Nat) (a lo hi : W64) (s : State) :
    exec (.epochAgreementResult err a lo hi) s = execEpochAgreementResult err a lo hi s := rfl

theorem State.advance_of_phase {s : State} (h : s.bnd.phase ≠ .fence) : s.advance = s := if_neg fun hc => h hc.1

theorem State.inApply_of_phase {s : State} (h : s.bnd.phase = .apply) : s.inApply = true := by simp [State.inApply, h]

section Apply
variable {s : State}

/-- The configuration that is staged. -/
def State.staged (s : State) : EpPrev :=
  { profile := s.fld fMode_PROFILE, cap := s.fld fMode_CAP_MODE, strict := s.fld fMode_STRICT, epoch := s.fld fMode_STG_EPOCH }

/-- The state with the staged configuration in force, and the one before it kept. -/
def State.appliedAll (s : State) : State :=
  let s1 := s.modBnd fun b => { b with prev := some s.config }
  (((s1.setEpochs s.staged.epoch).setConfig s.staged).setFlag fMode_ARMED false).inc fMode_APPLIES

theorem exec_epochApplied_good (hp : s.bnd.phase = .apply) (hf : s.fwsetBad = false) :
    exec .epochApplied s = .next (s.appliedAll.epochAgree true) := by
  rw [exec_epochApplied, execEpochApplied, State.inApply_of_phase hp, hf]
  rfl

theorem exec_epochApplied_bad (hp : s.bnd.phase = .apply) (hf : s.fwsetBad = true) :
    exec .epochApplied s = .next (((s.modBnd fun b => { b with prev := none }).epochRevert 0x11 0).epochAgree false) := by
  rw [exec_epochApplied, execEpochApplied, State.inApply_of_phase hp, hf]
  rfl

theorem exec_epochApplyTimeout_late (hp : s.bnd.phase = .apply) (late : Nat) :
    exec (.epochApplyTimeout late) s = .next (((s.modBnd fun b => { b with prev := none }).epochRevert 0x10 late).epochAgree false) := by
  rw [exec_epochApplyTimeout, execEpochApplyTimeout, State.inApply_of_phase hp]
  rfl

theorem State.staged_fits (s : State) : s.staged.profile < 2 ∧ s.staged.cap < 2 ∧ s.staged.strict < 2 ∧ s.staged.epoch < 2 ^ 32 :=
  ⟨s.fld_lt fMode_PROFILE, s.fld_lt fMode_CAP_MODE, s.fld_lt fMode_STRICT, s.fld_lt fMode_STG_EPOCH⟩

theorem State.appliedAll_fld (s : State) {f : Fld} (ha : fMode_ARMED.apart f = true) (hn : fMode_APPLIES.apart f = true) (x : State)
    (hx : ((s.modBnd fun b => { b with prev := some s.config }).setEpochs s.staged.epoch).setConfig s.staged = x) :
    s.appliedAll.fld f = x.fld f := by
  rw [State.appliedAll, hx, State.inc, State.fld_setFld_apart _ _ rfl hn, State.setFlag, State.fld_setFld_apart _ _ rfl ha]

theorem State.appliedAll_other (s : State) {f : Fld} (ha : fMode_ARMED.apart f = true) (hn : fMode_APPLIES.apart f = true) (hc : f.ConfigFree)
    (hk : f.key % 512 ≠ 4) : s.appliedAll.fld f = s.fld f := by
  rw [s.appliedAll_fld ha hn _ rfl, State.setConfig_fld _ _ hc, State.setEpochs_fld _ _ hk]
  rfl

theorem State.appliedAll_config (s : State) :
    s.appliedAll.fld fMode_A_PROFILE = s.fld fMode_PROFILE ∧ s.appliedAll.fld fMode_A_CAP_MODE = s.fld fMode_CAP_MODE ∧
    s.appliedAll.fld fMode_A_STRICT = s.fld fMode_STRICT ∧ s.appliedAll.fld fMode_A_EPOCH = s.fld fMode_STG_EPOCH := by
  obtain ⟨fp, fc, fs, fe⟩ := s.staged_fits
  obtain ⟨hp, hc, hs, he⟩ := State.setConfig_values ((s.modBnd fun b => { b with prev := some s.config }).setEpochs s.staged.epoch) fp fc fs fe
  refine ⟨?_, ?_, ?_, ?_⟩
  · rw [s.appliedAll_fld (by decide) (by decide) _ rfl, hp, State.staged]
  · rw [s.appliedAll_fld (by decide) (by decide) _ rfl, hc, State.staged]
  · rw [s.appliedAll_fld (by decide) (by decide) _ rfl, hs, State.staged]
  · rw [s.appliedAll_fld (by decide) (by decide) _ rfl, he, State.staged]

theorem State.appliedAll_armed (s : State) : s.appliedAll.flag fMode_ARMED = false := by
  rw [State.flag, State.appliedAll, State.inc, State.fld_setFld_apart _ _ rfl (by decide)]
  exact State.flag_setFlag_same _ _ rfl rfl

theorem State.appliedAll_applies (s : State) : s.appliedAll.fld fMode_APPLIES = (s.fld fMode_APPLIES + 1) % 2 ^ 64 := by
  rw [State.appliedAll, State.inc, State.fld_setFld_same _ _ rfl, State.setFlag, State.fld_setFld_apart _ _ rfl (by decide),
    State.setConfig_fld _ _ (by constructor <;> decide), State.setEpochs_fld _ _ (by decide)]
  rfl

theorem State.appliedAll_pages (s : State) : ∀ p ∈ epochPages, s.appliedAll.fld (fEpoch p) = s.fld fMode_STG_EPOCH := fun p hp => by
  rw [s.appliedAll_fld (apart_fEpoch p (by decide)) (apart_fEpoch p (by decide)) _ rfl, State.setConfig_fld _ _ (fEpoch_configFree p)]
  exact State.setEpochs_pages _ s.staged_fits.2.2.2 p hp

theorem State.appliedAll_ctxs (s : State) : ∀ e ∈ s.appliedAll.thr.ctxs, e.2.epoch = BitVec.ofNat 32 (s.fld fMode_STG_EPOCH) := by
  rw [State.appliedAll, State.inc_thr, State.setFlag_thr, (State.setConfig_frame _ _).1]
  exact State.setEpochs_ctxs _ _

theorem State.appliedAll_phase (s : State) : s.appliedAll.bnd.phase = s.bnd.phase := by
  rw [State.appliedAll, State.inc_bnd, State.setFlag_bnd, (State.setConfig_frame _ _).2, State.setEpochs_bnd]
  rfl

end Apply

section Over
variable {s u : State} (h : s.ActionOver u)
include h

theorem State.ActionOver.mode {f : Fld} (hp : f.key / 512 < 0x040) (ha : fMode_APPLYING.apart f = true)
    (hh : fSnap_HELD.apart f = true) : u.fld f = s.fld f := h.fld f (Fld.netFree_of_page hp) ha hh

theorem State.ActionOver.modeFlag {f : Fld} (hp : f.key / 512 < 0x040) (ha : fMode_APPLYING.apart f = true)
    (hh : fSnap_HELD.apart f = true) : u.flag f = s.flag f := by rw [State.flag, State.flag, h.mode hp ha hh]
end Over

/-- The state after a revert in the apply: the code and the block are kept, and the next action follows. -/
theorem State.reverted_over {t : State} (h : t.bnd.phase = .apply) {code late : Nat} (hc : code < 2 ^ 8) (hl : late < 2 ^ 9) :
    ∃ u, (t.epochRevert code late).epochAgree false = u ∧
    u.flag fMode_ARMED = false ∧ u.flag fMode_REVERTED = true ∧ u.fld fMode_CODE = code ∧ u.fld fMode_LATE_PAGE = late ∧
    u.fld fMode_A_EPOCH = t.fld fMode_A_EPOCH ∧ u.fld fMode_REVERTS = (t.fld fMode_REVERTS + 1) % 2 ^ 64 ∧
    if t.flag fMode_AGREE_EN then u.bnd.phase = .agree
    else u.flag fMode_APPLYING = false ∧ (u.bnd.phase = .pollDue ∨ u.bnd.phase = .releaseDue) := by
  have hov := (t.epochRevert code late).epochAgree_over false
  have hph : (t.epochRevert code late).bnd.phase = .apply := by rw [(t.epochRevert_frame code late).2, h]
  have hnext := State.epochAgree_next hph false
  have hag : (t.epochRevert code late).flag fMode_AGREE_EN = t.flag fMode_AGREE_EN := by
    rw [State.flag, State.flag, State.epochRevert_fld _ _ _ (by constructor <;> decide)]
  rw [hag] at hnext
  generalize (t.epochRevert code late).epochAgree false = u at hov hnext
  refine ⟨u, rfl, ?_, ?_, ?_, ?_, ?_, ?_, hnext⟩
  · rw [hov.modeFlag (by decide) (by decide) (by decide), State.epochRevert_armed]
  · rw [hov.modeFlag (by decide) (by decide) (by decide), State.epochRevert_reverted]
  · rw [hov.mode (by decide) (by decide) (by decide), State.epochRevert_code _ _ _ hc]
  · rw [hov.mode (by decide) (by decide) (by decide), State.epochRevert_late _ _ _ hl]
  · rw [hov.mode (by decide) (by decide) (by decide), State.epochRevert_fld _ _ _ (by constructor <;> decide)]
  · rw [hov.mode (by decide) (by decide) (by decide), State.epochRevert_reverts]

/-- The fields and the phase of a state with another configuration kept. -/
theorem State.modBnd_prev (s : State) (c : Option EpPrev) : ∃ t : State, (s.modBnd fun b => { b with prev := c }) = t ∧ t.regs = s.regs ∧
    t.bnd.phase = s.bnd.phase := ⟨_, rfl, rfl, rfl⟩

/-! The agreement's result. -/

section Agree
variable {s : State} {c : EpPrev} (err : Option Nat) (a lo hi : W64) (hp : s.bnd.phase = .agree) (hr : s.bnd.result = none)
  (hc : s.bnd.prev = some c)
include hp hr hc

theorem exec_epochAgreementResult_agree (herr : err = none) (ha : a ≠ 0) (he : lo = hi) :
    exec (.epochAgreementResult err a lo hi) s = .next (s.hzTaken (s.fld fMode_EP_GROUP) err).epochOver := by
  subst herr he
  have hprev : (s.hzTaken (s.fld fMode_EP_GROUP) none).bnd.prev = some c := (State.net_hzTaken s _ _).prev.trans hc
  have hok : (a != 0 && lo == lo) = true := by simpa using ha
  rw [exec_epochAgreementResult, execEpochAgreementResult, if_neg (not_not_intro hp)]
  simp only [hprev, State.hzResult, hr, hok, Option.isSome_none, Bool.false_eq_true, if_false, if_true]

theorem exec_epochAgreementResult_revert (h : err ≠ none ∨ a = 0 ∨ lo ≠ hi) :
    exec (.epochAgreementResult err a lo hi) s =
      .next ((((s.hzTaken (s.fld fMode_EP_GROUP) err).setConfig c).setEpochs c.epoch).epochRevert 0x12 0).epochOver := by
  have hprev : (s.hzTaken (s.fld fMode_EP_GROUP) err).bnd.prev = some c := (State.net_hzTaken s _ _).prev.trans hc
  rw [exec_epochAgreementResult, execEpochAgreementResult, if_neg (not_not_intro hp)]
  cases err with
  | some e => simp only [hprev, State.hzResult, hr, Option.isSome_some, Bool.false_eq_true, if_false, if_true]
  | none =>
    have hno : (a != 0 && lo == hi) = false := by
      obtain h | rfl | h := h
      · exact absurd rfl h
      · rfl
      · simp [h]
    simp only [hprev, State.hzResult, hr, hno, Option.isSome_none, Bool.false_eq_true, if_false]

end Agree

/-- Settles O34: every action of the apply, each as the fields it writes and the phase that follows. -/
theorem configurationEpochsApplyOrRevert : Obligations.ConfigurationEpochsApplyOrRevert := by
  intro s
  refine ⟨fun hp => ?_, fun hp hj ha => ?_, fun hp => ?_, fun a lo hi err c hp hr hc => ⟨fun herr ha he => ?_, fun h hfit => ?_⟩⟩
  · have hadv : s.advance = s := State.advance_of_phase (by rw [hp]; decide)
    refine Completes.of (u := (s.setFlag fMode_APPLYING true).toPhase .apply) ?_ ⟨rfl, State.flag_setFlag_same s _ rfl rfl⟩
    rw [exec_epochApply, execEpochApply, hadv, if_pos hp]
  · have hadv : s.advance = s := State.advance_of_phase (by rw [hp]; decide)
    refine Completes.of (u := s.setFlag fMode_APPLYING true) ?_ ⟨hp, State.flag_setFlag_same s _ rfl rfl⟩
    rw [exec_epochApply, execEpochApply, hadv, if_neg (by rw [hp]; decide), if_pos ⟨hp, by simp [hj], ha⟩]
  · refine ⟨fun hf => Completes.of (exec_epochApplied_good hp hf) ?_, fun hf => Completes.of (exec_epochApplied_bad hp hf) ?_,
      fun late hl => Completes.of (exec_epochApplyTimeout_late hp late) ?_⟩
    · have hov := s.appliedAll.epochAgree_over true
      obtain ⟨cp, cc, cs, ce⟩ := s.appliedAll_config
      have hnext := State.epochAgree_next (s.appliedAll_phase.trans hp) true
      rw [show s.appliedAll.flag fMode_AGREE_EN = s.flag fMode_AGREE_EN by
        rw [State.flag, State.flag, s.appliedAll_other (by decide) (by decide) (by constructor <;> decide) (by decide)]] at hnext
      refine ⟨?_, ?_, ?_, ?_, ?_, ?_, fun p hmem => ?_, ?_, hnext⟩
      · rw [hov.mode (by decide) (by decide) (by decide), ce]
      · rw [hov.mode (by decide) (by decide) (by decide), cp]
      · rw [hov.mode (by decide) (by decide) (by decide), cc]
      · rw [hov.mode (by decide) (by decide) (by decide), cs]
      · rw [hov.modeFlag (by decide) (by decide) (by decide), s.appliedAll_armed]
      · rw [hov.mode (by decide) (by decide) (by decide), s.appliedAll_applies]
      · rw [hov.fld _ (fEpoch_netFree p) (apart_fEpoch p (by decide)) (apart_fEpoch p (by decide)), s.appliedAll_pages p hmem]
      · rw [hov.thr]
        exact s.appliedAll_ctxs
    · obtain ⟨t, ht, hregs, hpt⟩ := s.modBnd_prev none
      obtain ⟨u, hu, harm, hrev, hcode, -, hep, hcnt, hnext⟩ := State.reverted_over (hpt.trans hp) (code := 0x11) (late := 0) (by omega) (by omega)
      rw [State.fld_congr hregs] at hep hcnt
      rw [State.flag, State.fld_congr hregs] at hnext
      rw [ht, hu]
      exact ⟨harm, hrev, hcode, hep, hcnt, hnext⟩
    · obtain ⟨t, ht, hregs, hpt⟩ := s.modBnd_prev none
      obtain ⟨u, hu, harm, hrev, hcode, hlate, hep, -, hnext⟩ := State.reverted_over (hpt.trans hp) (code := 0x10) (by omega) hl
      rw [State.fld_congr hregs] at hep
      rw [State.flag, State.fld_congr hregs] at hnext
      rw [ht, hu]
      exact ⟨harm, hrev, hcode, hlate, hep, hnext⟩
  · refine Completes.of (exec_epochAgreementResult_agree err a lo hi hp hr hc herr ha he) ?_
    have hnet := State.net_hzTaken s (s.fld fMode_EP_GROUP) err
    have hov := (s.hzTaken (s.fld fMode_EP_GROUP) err).epochOver_over
    refine ⟨State.epochOver_applying _, ?_, ?_⟩
    · rw [hov.mode (by decide) (by decide) (by decide), hnet.fld _ (Fld.netFree_of_page (by decide))]
    · rw [hov.mode (by decide) (by decide) (by decide), hnet.fld _ (Fld.netFree_of_page (by decide))]
  · refine Completes.of (exec_epochAgreementResult_revert err a lo hi hp hr hc h) ?_
    generalize s.hzTaken (s.fld fMode_EP_GROUP) err = z
    have hov := (((z.setConfig c).setEpochs c.epoch).epochRevert 0x12 0).epochOver_over
    refine ⟨State.epochOver_applying _, ?_, ?_, ?_⟩
    · rw [hov.mode (by decide) (by decide) (by decide), State.epochRevert_fld _ _ _ (by constructor <;> decide),
        State.setEpochs_fld _ _ (by decide), State.setConfig_epoch _ hfit]
    · rw [hov.modeFlag (by decide) (by decide) (by decide), State.epochRevert_reverted]
    · rw [hov.mode (by decide) (by decide) (by decide), State.epochRevert_code _ _ _ (by omega)]

end Sys2Proof.Machine
end

section
/-! # The model table, and Equinox -/
namespace Sys2Proof.Machine

/-! ### Words of BAR2 and the model table -/

theorem State.barBytes_putBar_out (s : State) {k : Nat} {bs : List Byte} {j n : Nat} (h : j + n ≤ k ∨ k + bs.length ≤ j) :
    (s.putBar k bs).barBytes j n = s.barBytes j n :=
  List.map_congr_left fun i hi => State.barByte_putBar_out bs s k _ (by have := List.mem_range.1 hi; omega)

theorem State.barNat_putBarNat_out (s : State) {k n v j m : Nat} (h : j + m ≤ k ∨ k + n ≤ j) :
    (s.putBarNat k n v).barNat j m = s.barNat j m :=
  congrArg leNat (s.barBytes_putBar_out (by rwa [natLE_length]))

theorem State.barNat_putBarNat_same (s : State) (k n v : Nat) : (s.putBarNat k n v).barNat k n = v % 256 ^ n := by
  have h := s.barBytes_putBar k (natLE n v)
  rw [natLE_length] at h
  rw [State.putBarNat, State.barNat, h, leNat_natLE]

theorem State.barNat_lt (s : State) (k n : Nat) : s.barNat k n < 2 ^ (8 * n) := by
  have h := leNat_lt (s.barBytes k n)
  rwa [barBytes_length] at h

/-- A model's entry is read from its own 256 bytes. -/
theorem State.model_congr {s t : State} {m : Nat} (h : ∀ j, modelOff m ≤ j → j < modelOff m + 256 → t.barByte j = s.barByte j) :
    t.model m = s.model m := by
  have hb : ∀ o n, o + n ≤ 256 → t.barBytes (modelOff m + o) n = s.barBytes (modelOff m + o) n := fun o n hn =>
    List.map_congr_left fun i hi => h _ (by omega) (by have := List.mem_range.1 hi; omega)
  have h0 : t.barBytes (modelOff m) 1 = s.barBytes (modelOff m) 1 := hb 0 1 (by omega)
  simp (disch := omega) only [State.model, State.barBits, State.barNat, hb, h0]

theorem State.model_of_bar2 {s t : State} (h : t.bar2 = s.bar2) (m : Nat) : t.model m = s.model m :=
  State.model_congr fun j _ _ => by rw [State.barByte, State.barByte, h]

theorem State.model_putBarNat_ne (s : State) {m i off n v : Nat} (hn : off + n ≤ 256) (h : i ≠ m) :
    (s.putBarNat (modelOff i + off) n v).model m = s.model m :=
  State.model_congr fun j h1 h2 => State.barByte_putBar_out _ _ _ _ (by rw [natLE_length]; simp only [modelOff] at *; omega)

theorem State.model_setModelBit_ne (s : State) {m i : Nat} (bit : Nat) (b : Bool) (h : i ≠ m) : (s.setModelBit i bit b).model m = s.model m :=
  s.model_putBarNat_ne (by omega) h

theorem State.model_setModelQ_ne (s : State) {m i : Nat} {off : Nat} (hoff : off + 8 ≤ 256) (v : Nat) (h : i ≠ m) :
    (s.setModelQ i off v).model m = s.model m := s.model_putBarNat_ne hoff h

/-- The status word of a model's entry. -/
def State.modelStatus (s : State) (m : Nat) : Nat := s.barNat (modelOff m + 0xE8) 4

theorem State.modelStatus_setModelBit (s : State) (m : Nat) {bit : Nat} (b : Bool) (h : bit < 32) :
    (s.setModelBit m bit b).modelStatus m = putBits (s.modelStatus m) bit 1 b.toNat := by
  rw [State.modelStatus, State.setModelBit, State.barNat_putBarNat_same]
  exact Nat.mod_eq_of_lt (putBits_lt (n := 32) (s.barNat_lt _ 4) (by omega))

theorem State.modelStatus_setModelQ (s : State) (m : Nat) {off : Nat} (v : Nat) (h : off + 8 ≤ 0xE8) :
    (s.setModelQ m off v).modelStatus m = s.modelStatus m := s.barNat_putBarNat_out (.inr (by omega))

theorem State.modelQ_setModelBit (s : State) (m : Nat) (bit : Nat) (b : Bool) {off : Nat} (h : off + 8 ≤ 0xE8) :
    (s.setModelBit m bit b).barNat (modelOff m + off) 8 = s.barNat (modelOff m + off) 8 := s.barNat_putBarNat_out (.inl (by omega))

theorem State.modelQ_setModelQ_same (s : State) (m off v : Nat) : (s.setModelQ m off v).barNat (modelOff m + off) 8 = v % 2 ^ 64 :=
  s.barNat_putBarNat_same _ 8 v

theorem State.modelQ_setModelQ_ne (s : State) (m v : Nat) {off o : Nat} (h : o + 8 ≤ off ∨ off + 8 ≤ o) :
    (s.setModelQ m off v).barNat (modelOff m + o) 8 = s.barNat (modelOff m + o) 8 := s.barNat_putBarNat_out (by omega)

/-- Bit 16 of a status word, the copy that is current. -/
def statusCur (st : Nat) : Nat := bitsOf st 16 16

theorem statusCur_lt (st : Nat) : statusCur st < 2 := Nat.mod_lt _ (by decide)

theorem statusCur_put17 (st v : Nat) : statusCur (putBits st 17 1 v) = statusCur st := by
  have h := putBits_below (w := 1) (v := v) st (show 17 ≤ 17 from le_rfl)
  simp only [statusCur, bitsOf, Nat.shiftRight_eq_div_pow]
  omega

theorem statusCur_put16 (st : Nat) (b : Bool) : statusCur (putBits st 16 1 b.toNat) = b.toNat := by
  have h := putBits_get st 16 1 b.toNat
  have hb : b.toNat < 2 := b.toNat_lt
  rw [statusCur, bitsOf, show 16 + 1 - 16 = 1 from rfl, h]
  omega

theorem bitAt_put17 (st : Nat) : bitAt (putBits st 17 1 0) 17 = false := by
  have h := putBits_get st 17 1 0
  rw [bitAt, ← Nat.pow_one 2, h]
  rfl

section Fields
variable (s : State) (m : Nat)

theorem State.model_pending : (s.model m).pending = bitAt (s.modelStatus m) 17 := rfl
theorem State.model_cur : (s.model m).cur = statusCur (s.modelStatus m) := rfl
theorem State.model_digest : (s.model m).digest = BitVec.ofNat 64 (s.barNat (modelOff m + 0xC0) 8) := rfl
theorem State.model_updCount : (s.model m).updCount = s.barNat (modelOff m + 0xC8) 8 := rfl

/-- What a decided vote leaves of a model: its copy, its digest, its count, and no update pending. -/
structure State.Decided (s u : State) (m : Nat) (commit : Prop) : Prop where
  pending : (u.model m).pending = false
  commits : commit → (u.model m).cur = 1 - (s.model m).cur ∧ (u.model m).digest = (s.model m).nextDigest ∧
    (u.model m).updCount = ((s.model m).updCount + 1) % 2 ^ 64
  skips : ¬commit → (u.model m).cur = (s.model m).cur ∧ (u.model m).digest = (s.model m).digest ∧ (u.model m).updCount = (s.model m).updCount

theorem State.skip1_decided : s.Decided (s.setModelBit m 17 false) m False := by
  refine ⟨?_, False.elim, fun _ => ⟨?_, ?_, ?_⟩⟩
  · rw [State.model_pending, State.modelStatus_setModelBit s m false (by omega)]
    exact bitAt_put17 _
  · rw [State.model_cur, State.modelStatus_setModelBit s m false (by omega), statusCur_put17, State.model_cur]
  · rw [State.model_digest, State.modelQ_setModelBit s m 17 false (by omega), State.model_digest]
  · rw [State.model_updCount, State.modelQ_setModelBit s m 17 false (by omega), State.model_updCount]

theorem State.commit1_decided : s.Decided (s.eqxCommit1 m) m ((s.model m).pending = true) := by
  unfold State.eqxCommit1
  dsimp only
  by_cases hp : (s.model m).pending = true
  · rw [if_pos hp]
    refine ⟨?_, fun _ => ⟨?_, ?_, ?_⟩, fun h => absurd hp h⟩
    · rw [State.model_pending, State.modelStatus_setModelQ _ _ _ (by omega), State.modelStatus_setModelQ _ _ _ (by omega),
        State.modelStatus_setModelBit _ m false (by omega)]
      exact bitAt_put17 _
    · rw [State.model_cur, State.modelStatus_setModelQ _ _ _ (by omega), State.modelStatus_setModelQ _ _ _ (by omega),
        State.modelStatus_setModelBit _ m false (by omega), statusCur_put17, State.modelStatus_setModelBit _ m _ (by omega), statusCur_put16]
      have := statusCur_lt (s.modelStatus m)
      rw [← State.model_cur] at this
      generalize (s.model m).cur = c at *
      interval_cases c <;> rfl
    · rw [State.model_digest, State.modelQ_setModelQ_ne _ _ _ (by omega), State.modelQ_setModelQ_same,
        Nat.mod_eq_of_lt (s.model m).nextDigest.isLt, BitVec.ofNat_toNat, BitVec.setWidth_eq]
    · rw [State.model_updCount, State.modelQ_setModelQ_same]
  · rw [if_neg hp]
    exact ⟨by simpa using hp, fun h => absurd h hp, fun _ => ⟨rfl, rfl, rfl⟩⟩

theorem State.commit1_ne {i : Nat} (h : i ≠ m) : (s.eqxCommit1 i).model m = s.model m := by
  unfold State.eqxCommit1
  dsimp only
  split
  · rw [State.model_setModelQ_ne _ (by omega) _ h, State.model_setModelQ_ne _ (by omega) _ h, State.model_setModelBit_ne _ _ _ h,
      State.model_setModelBit_ne _ _ _ h]
  · rfl

end Fields

theorem State.Decided.congr {s t u v : State} {m : Nat} {p q : Prop} (h : s.Decided u m p) (hs : t.model m = s.model m)
    (hu : v.model m = u.model m) (hpq : q ↔ p) : t.Decided v m q :=
  ⟨hu ▸ h.pending, fun hq => hs ▸ hu ▸ h.commits (hpq.1 hq), fun hq => hs ▸ hu ▸ h.skips (fun hp => hq (hpq.2 hp))⟩

/-- A model that has nothing pending is decided by no further commit. -/
theorem State.Decided.trans_idle {s u v : State} {m : Nat} {p : Prop} (h : s.Decided u m p) (hv : u.Decided v m False) : s.Decided v m p := by
  obtain ⟨hc, hd, hn⟩ := hv.skips id
  exact ⟨hv.pending, fun hp => by rw [hc, hd, hn]; exact h.commits hp, fun hp => by rw [hc, hd, hn]; exact h.skips hp⟩

theorem State.foldl_commit1 (m : Nat) (l : List Nat) : ∀ s : State, m ∈ l ∨ (s.model m).pending = false →
    s.Decided (l.foldl (fun t i => t.eqxCommit1 i) s) m ((s.model m).pending = true) := by
  induction l with
  | nil =>
    intro s h
    have hp := h.resolve_left (by simp)
    exact ⟨hp, fun h => by simp [hp] at h, fun _ => ⟨rfl, rfl, rfl⟩⟩
  | cons i l ih =>
    intro s h
    by_cases him : i = m
    · subst him
      have h1 := s.commit1_decided i
      have h2 := ih (s.eqxCommit1 i) (.inr h1.pending)
      exact h1.trans_idle (h2.congr rfl rfl (by simp [h1.pending]))
    · have hne := s.commit1_ne m him
      refine (ih (s.eqxCommit1 i) (h.imp (fun hm => (List.mem_cons.1 hm).resolve_left (Ne.symm him)) fun hp => hne ▸ hp)).congr hne.symm rfl ?_
      rw [hne]

/-- The skip of one model. -/
def State.skip1 (s : State) (m : Nat) : State := s.setModelBit m 17 false

theorem State.skip1_ne (s : State) {m i : Nat} (h : i ≠ m) : (s.skip1 i).model m = s.model m := s.model_setModelBit_ne 17 false h

theorem State.foldl_skip1 (m : Nat) (l : List Nat) : ∀ s : State, m ∈ l ∨ (s.model m).pending = false →
    s.Decided (l.foldl State.skip1 s) m False := by
  induction l with
  | nil =>
    intro s h
    exact ⟨h.resolve_left (by simp), False.elim, fun _ => ⟨rfl, rfl, rfl⟩⟩
  | cons i l ih =>
    intro s h
    rw [List.foldl_cons]
    by_cases him : i = m
    · subst him
      have h1 : s.Decided (s.skip1 i) i False := s.skip1_decided i
      exact h1.trans_idle (ih (s.skip1 i) (.inr h1.pending))
    · have hne := s.skip1_ne him
      have h' : m ∈ l ∨ ((s.skip1 i).model m).pending = false :=
        h.imp (fun hm => (List.mem_cons.1 hm).resolve_left (Ne.symm him)) fun hp => by rw [hne, hp]
      exact (ih (s.skip1 i) h').congr hne.symm rfl Iff.rfl

/-! ### The registers that a detection leaves -/

/-- A field that no detection writes: of another page than the safety page, of another register than the error one, and not the store's BUSY. -/
structure Fld.ReportFree (f : Fld) : Prop where
  page : f.key / 512 ≠ 0x00B
  err : f.key % 512 ≠ 3
  busy : fPst_BUSY.apart f = true

theorem State.logRecord_fld (s : State) (d : Det) {f : Fld} (hf : f.ReportFree) : (s.logRecord d).2.fld f = s.fld f := by
  have apart : ∀ g ∈ [fSafe_LOG_SEQ, fSafe_LAST_CLASS, fSafe_LAST_REACT, fSafe_OVERFLOW, fSafe_DETECTIONS], g.ok = true ∧ g.apart f = true := by
    intro g hg
    have hk : g.ok = true ∧ g.key / 512 = 0x00B := by
      clear hf
      revert g
      decide
    exact ⟨hk.1, Fld.apart_of_page (by rw [hk.2]; exact hf.page.symm)⟩
  simp only [List.forall_mem_cons, List.not_mem_nil, false_implies, implies_true, and_true] at apart
  obtain ⟨⟨o1, a1⟩, ⟨o2, a2⟩, ⟨o3, a3⟩, ⟨o4, a4⟩, o5, a5⟩ := apart
  have hset : ∀ z : State, (if 2 ≤ d.react then ((z.inc fSafe_DETECTIONS).setFlag (fErr_DETECT d.page) true).dooms 0x13 else z).fld f = z.fld f := by
    intro z
    split
    · rw [State.fld_congr (State.dooms_regs ..), State.fld_setFlag_apart _ _ (fErr_DETECT_ok _) (fErr_DETECT_apart _ hf.err), State.inc,
        State.fld_setFld_apart _ _ o5 a5]
    · rfl
  unfold State.logRecord
  dsimp only
  split
  · rw [State.fld_setFlag_apart _ _ o4 a4, hset, State.fld_setFld_apart _ _ o3 a3, State.fld_setFld_apart _ _ o2 a2,
      State.fld_setFld_apart _ _ o1 a1, State.fld_congr (State.putBar_regs ..)]
    rfl
  · rw [hset, State.fld_setFld_apart _ _ o3 a3, State.fld_setFld_apart _ _ o2 a2, State.fld_setFld_apart _ _ o1 a1,
      State.fld_congr (State.putBar_regs ..)]
    rfl

theorem State.report_fld (s : State) (d : Det) (ev : Option (Nat × EvKind)) {f : Fld} (hf : f.ReportFree) : (s.report d ev).fld f = s.fld f := by
  have hlog : ∀ bs, ((s.logRecord d).2.commitSafeLast d bs).fld f = s.fld f := fun bs =>
    (State.fld_commitSafeLast _ _ _ hf.busy).trans (s.logRecord_fld d hf)
  have hset : ∀ z : State, (if 2 ≤ d.react then z.setFlag fSafe_FAULT true else z).fld f = z.fld f := by
    intro z
    split
    · exact State.fld_setFlag_apart _ _ rfl (Fld.apart_of_page (fun h => hf.page (by rw [← h]; rfl)))
    · rfl
  have hev : ∀ (z : State) (l : Nat) (k : EvKind) (a b : W64) (bs : List Byte), (z.event l k a b bs).fld f = z.fld f := fun z l k a b bs =>
    State.fld_congr (State.event_regs ..) f
  unfold State.report
  dsimp only
  split
  · exact hlog _
  · split
    · rw [hev, hset, hlog]
    · split
      · rw [hev, hset, hlog]
      · split
        · rw [hev, hset, hlog]
        · split
          · rw [hev, hset, hlog]
          · rw [hset, hlog]

/-! ### Equinox: how a vote is decided (R252 to R255) -/

theorem Fld.netFree_eqx {f : Fld} (h : f.key / 512 = 0x00C) : f.NetFree := Fld.netFree_of_page (by omega)

theorem fEqx_reportFree {f : Fld} (h : f.key / 512 = 0x00C) (h3 : f.key % 512 ≠ 3) : f.ReportFree :=
  ⟨by omega, h3, Fld.apart_of_page (by rw [h]; decide)⟩

/-- A stopped vote. -/
structure State.EqxStopped (u : State) : Prop where
  phase : u.bnd.phase = .stopped
  stopped : u.flag fEqx_STOPPED = true
  voting : u.flag fEqx_VOTING = false

theorem State.eqxStop_stopped (s : State) : s.eqxStop.EqxStopped := by
  have hrep : ∀ (t : State) (d : Det) (ev : Option (Nat × EvKind)) (f : Fld), f.ReportFree → ((t.report d ev).toPhase .stopped).flag f = t.flag f :=
    fun t d ev f hf => by
      rw [State.flag, State.flag, ← t.report_fld d ev hf]
      rfl
  rw [State.eqxStop]
  generalize ht : (s.setFlag fEqx_VOTING false).setFlag fEqx_REPAIRING false = t
  refine ⟨rfl, ?_, ?_⟩
  · rw [hrep _ _ _ _ (fEqx_reportFree (by decide) (by decide)), State.flag_setFlag_same _ _ rfl rfl]
  · rw [hrep _ _ _ _ (fEqx_reportFree (by decide) (by decide)), State.flag_setFlag_apart _ _ rfl (by decide), ← ht,
      State.flag_setFlag_apart _ _ rfl (by decide), State.flag_setFlag_same _ _ rfl rfl]

theorem State.foldl_regs {α : Type} (f : State → α → State) (hf : ∀ t x, (f t x).regs = t.regs) (l : List α) : ∀ s : State,
    (l.foldl f s).regs = s.regs := by
  induction l with
  | nil => exact fun _ => rfl
  | cons x l ih => exact fun s => (ih _).trans (hf s x)

theorem State.eqxCommit1_regs (s : State) (m : Nat) : (s.eqxCommit1 m).regs = s.regs := by
  unfold State.eqxCommit1
  dsimp only
  split
  · simp only [State.setModelQ, State.setModelBit, State.putBarNat, State.putBar_regs]
  · rfl

theorem State.eqxCommit_regs (s : State) : s.eqxCommit.regs = s.regs := State.foldl_regs _ State.eqxCommit1_regs _ _

theorem State.eqxSkip_regs (s : State) : s.eqxSkip.regs = s.regs := State.foldl_regs State.skip1 (fun _ _ => State.putBar_regs ..) _ _

/-- The state with the pending updates committed or skipped, and the skips counted. -/
def State.decided (s : State) (f : W64) : State := if f = 0 then s.eqxCommit else (s.eqxSkip).inc fEqx_SKIPS

/-- The state with the vote counted, before action 2. -/
def State.counted (s : State) (f : W64) (repaired : Bool) : State :=
  let s2 := (((s.decided f).inc fEqx_VOTES).setFlag fEqx_LAST_SKIP (f ≠ 0)).setFlag fEqx_LAST_REPAIR repaired
  ((if repaired then s2.inc fEqx_REPAIRS else s2).setFlag fEqx_VOTING false).setFlag fEqx_REPAIRING false

theorem State.eqxApply_eq (s : State) (f : W64) (repaired : Bool) : s.eqxApply f repaired = (s.counted f repaired).dueEpoch := rfl

theorem State.dueEpoch_phase (s : State) : s.dueEpoch.bnd.phase = .applyDue ∨ s.dueEpoch.bnd.phase = .pollDue ∨ s.dueEpoch.bnd.phase = .releaseDue := by
  unfold State.dueEpoch
  split
  · exact .inl rfl
  · exact .inr s.dueSolstice_phase

theorem State.dueEpoch_fld (s : State) {f : Fld} (hf : fSnap_HELD.apart f = true) : s.dueEpoch.fld f = s.fld f := by
  unfold State.dueEpoch
  split
  · rfl
  · exact s.dueSolstice_fld hf

theorem State.dueEpoch_bar2 (s : State) : s.dueEpoch.bar2 = s.bar2 := by
  unfold State.dueEpoch State.dueSolstice State.dueRelease
  dsimp only
  split
  · rfl
  · split
    · rfl
    · split <;> rfl

section Counted
variable (s : State) (f : W64) (r : Bool)

theorem State.decided_fld {g : Fld} (hg : fEqx_SKIPS.apart g = true) : (s.decided f).fld g = s.fld g := by
  unfold State.decided
  split
  · exact State.fld_congr s.eqxCommit_regs g
  · rw [State.inc, State.fld_setFld_apart _ _ rfl hg, State.fld_congr s.eqxSkip_regs]

theorem State.decided_skips : (s.decided f).fld fEqx_SKIPS = if f = 0 then s.fld fEqx_SKIPS else (s.fld fEqx_SKIPS + 1) % 2 ^ 64 := by
  unfold State.decided
  split
  · exact State.fld_congr s.eqxCommit_regs _
  · rw [State.inc, State.fld_setFld_same _ _ rfl, State.fld_congr s.eqxSkip_regs]
    rfl

theorem State.decided_model {m : Nat} (hm : m ∈ s.models) : s.Decided (s.decided f) m (f = 0 ∧ (s.model m).pending = true) := by
  unfold State.decided
  split
  next hf => exact (s.foldl_commit1 m s.models (.inl hm)).congr rfl rfl ⟨fun h => h.2, fun h => ⟨hf, h⟩⟩
  next hf =>
    exact (State.foldl_skip1 m s.models s (.inl hm)).congr rfl (State.model_of_bar2 (State.setFld_bar2 ..) m)
      ⟨fun h => hf h.1, False.elim⟩

theorem State.counted_fld {g : Fld} (hv : fEqx_VOTES.apart g = true) (hs : fEqx_LAST_SKIP.apart g = true) (hr : fEqx_LAST_REPAIR.apart g = true)
    (hn : fEqx_REPAIRS.apart g = true) (hvo : fEqx_VOTING.apart g = true) (hre : fEqx_REPAIRING.apart g = true) :
    (s.counted f r).fld g = (s.decided f).fld g := by
  rw [State.counted, State.fld_setFlag_apart _ _ rfl hre, State.fld_setFlag_apart _ _ rfl hvo]
  have h2 : ((((s.decided f).inc fEqx_VOTES).setFlag fEqx_LAST_SKIP (f ≠ 0)).setFlag fEqx_LAST_REPAIR r).fld g = (s.decided f).fld g := by
    rw [State.fld_setFlag_apart _ _ rfl hr, State.fld_setFlag_apart _ _ rfl hs, State.inc, State.fld_setFld_apart _ _ rfl hv]
  split
  · rw [State.inc, State.fld_setFld_apart _ _ rfl hn, h2]
  · exact h2

theorem State.counted_votes : (s.counted f r).fld fEqx_VOTES = (s.fld fEqx_VOTES + 1) % 2 ^ 64 := by
  have h2 : ((((s.decided f).inc fEqx_VOTES).setFlag fEqx_LAST_SKIP (f ≠ 0)).setFlag fEqx_LAST_REPAIR r).fld fEqx_VOTES =
      (s.fld fEqx_VOTES + 1) % 2 ^ 64 := by
    rw [State.fld_setFlag_apart _ _ rfl (by decide), State.fld_setFlag_apart _ _ rfl (by decide), State.inc, State.fld_setFld_same _ _ rfl,
      State.decided_fld s f (by decide)]
    rfl
  rw [State.counted, State.fld_setFlag_apart _ _ rfl (by decide), State.fld_setFlag_apart _ _ rfl (by decide)]
  split
  · rw [State.inc, State.fld_setFld_apart _ _ rfl (by decide), h2]
  · exact h2

theorem State.counted_flags : (s.counted f r).flag fEqx_VOTING = false ∧ (s.counted f r).flag fEqx_REPAIRING = false := by
  constructor
  · rw [State.counted, State.flag_setFlag_apart _ _ rfl (by decide), State.flag_setFlag_same _ _ rfl rfl]
  · rw [State.counted, State.flag_setFlag_same _ _ rfl rfl]

theorem State.flag_inc_apart {g h : Fld} (hok : g.ok = true) (ha : g.apart h = true) : (s.inc g).flag h = s.flag h := by
  rw [State.flag, State.flag, State.inc, State.fld_setFld_apart _ _ hok ha]

theorem State.counted_last : (s.counted f r).flag fEqx_LAST_SKIP = decide (f ≠ 0) ∧ (s.counted f r).flag fEqx_LAST_REPAIR = r := by
  constructor
  · rw [State.counted, State.flag_setFlag_apart _ _ rfl (by decide), State.flag_setFlag_apart _ _ rfl (by decide)]
    have h2 : ((((s.decided f).inc fEqx_VOTES).setFlag fEqx_LAST_SKIP (f ≠ 0)).setFlag fEqx_LAST_REPAIR r).flag fEqx_LAST_SKIP = decide (f ≠ 0) := by
      rw [State.flag_setFlag_apart _ _ rfl (by decide), State.flag_setFlag_same _ _ rfl rfl]
    split
    · rw [State.flag_inc_apart _ rfl (by decide), h2]
    · exact h2
  · rw [State.counted, State.flag_setFlag_apart _ _ rfl (by decide), State.flag_setFlag_apart _ _ rfl (by decide)]
    split
    · rw [State.flag_inc_apart _ rfl (by decide), State.flag_setFlag_same _ _ rfl rfl]
    · exact State.flag_setFlag_same _ _ rfl rfl

theorem State.counted_repairs : (s.counted f true).fld fEqx_REPAIRS = (s.fld fEqx_REPAIRS + 1) % 2 ^ 64 := by
  rw [State.counted, State.fld_setFlag_apart _ _ rfl (by decide), State.fld_setFlag_apart _ _ rfl (by decide), if_pos rfl, State.inc,
    State.fld_setFld_same _ _ rfl, State.fld_setFlag_apart _ _ rfl (by decide), State.fld_setFlag_apart _ _ rfl (by decide), State.inc,
    State.fld_setFld_apart _ _ rfl (by decide), State.decided_fld s f (by decide)]
  rfl

theorem State.counted_bar2 : (s.counted f r).bar2 = (s.decided f).bar2 := by
  rw [State.counted, State.setFlag_bar2, State.setFlag_bar2]
  split
  · rw [State.inc_bar2, State.setFlag_bar2, State.setFlag_bar2, State.inc_bar2]
  · rw [State.setFlag_bar2, State.setFlag_bar2, State.inc_bar2]

end Counted

/-- What the outcome of a vote leaves, read from the registers and the model table before it. -/
structure State.EqxApplied (s u : State) (f : W64) (repaired : Bool) : Prop where
  phase : u.bnd.phase = .applyDue ∨ u.bnd.phase = .pollDue ∨ u.bnd.phase = .releaseDue
  votes : u.fld fEqx_VOTES = (s.fld fEqx_VOTES + 1) % 2 ^ 64
  voting : u.flag fEqx_VOTING = false
  repairing : u.flag fEqx_REPAIRING = false
  lastSkip : u.flag fEqx_LAST_SKIP = decide (f ≠ 0)
  lastRepair : u.flag fEqx_LAST_REPAIR = repaired
  skips : u.fld fEqx_SKIPS = if f = 0 then s.fld fEqx_SKIPS else (s.fld fEqx_SKIPS + 1) % 2 ^ 64
  repairs : repaired = true → u.fld fEqx_REPAIRS = (s.fld fEqx_REPAIRS + 1) % 2 ^ 64
  model : ∀ m ∈ s.models, s.Decided u m (f = 0 ∧ (s.model m).pending = true)

theorem State.eqxApply_applied (s : State) (f : W64) (r : Bool) : s.EqxApplied (s.eqxApply f r) f r := by
  have hflag : ∀ g : Fld, fSnap_HELD.apart g = true → (s.eqxApply f r).flag g = (s.counted f r).flag g := fun g hg => by
    rw [State.flag, State.eqxApply_eq, State.dueEpoch_fld _ hg]
    rfl
  obtain ⟨hv, hr⟩ := s.counted_flags f r
  obtain ⟨hs, hl⟩ := s.counted_last f r
  constructor
  case phase => exact State.dueEpoch_phase _
  case votes => rw [State.eqxApply_eq, State.dueEpoch_fld _ (by decide), State.counted_votes]
  case voting => rw [hflag _ (by decide), hv]
  case repairing => rw [hflag _ (by decide), hr]
  case lastSkip => rw [hflag _ (by decide), hs]
  case lastRepair => rw [hflag _ (by decide), hl]
  case skips =>
    rw [State.eqxApply_eq, State.dueEpoch_fld _ (by decide), State.counted_fld s f r (by decide) (by decide) (by decide) (by decide) (by decide)
      (by decide), State.decided_skips]
  case repairs =>
    rintro rfl
    rw [State.eqxApply_eq, State.dueEpoch_fld _ (by decide), State.counted_repairs]
  case model =>
    exact fun m hm => (s.decided_model f hm).congr rfl (State.model_of_bar2 ((State.dueEpoch_bar2 _).trans (s.counted_bar2 f r)) m) Iff.rfl

theorem State.Net.eqx {s u : State} (h : s.Net u) : u.bnd.eqx = s.bnd.eqx :=
  (congrArg (·.bnd.eqx) h.off : u.offNet.bnd.eqx = s.offNet.bnd.eqx)

theorem State.models_of_bar2 {s u : State} (h : u.bar2 = s.bar2) : u.models = s.models := by
  rw [State.models, State.models, State.validEntries, State.validEntries, h]

/-- The registers and the model table of a state that took a boundary's result. -/
theorem State.EqxApplied.of_net {s t u : State} {f : W64} {r : Bool} (h : t.EqxApplied u f r) (hn : s.Net t) : s.EqxApplied u f r where
  phase := h.phase
  votes := by rw [h.votes, hn.fld _ (Fld.netFree_eqx (by decide))]
  voting := h.voting
  repairing := h.repairing
  lastSkip := h.lastSkip
  lastRepair := h.lastRepair
  skips := by rw [h.skips, hn.fld _ (Fld.netFree_eqx (by decide))]
  repairs hr := by rw [h.repairs hr, hn.fld _ (Fld.netFree_eqx (by decide))]
  model m hm := by
    have hmod := State.model_of_bar2 hn.bar2 m
    exact (h.model m (State.models_of_bar2 hn.bar2 ▸ hm)).congr hmod.symm rfl (by rw [hmod])

theorem exec_equinoxVote (s : State) : exec .equinoxVote s = execEquinoxVote s := rfl
theorem exec_equinoxVoteResult (err : Option Nat) (f pmin pmax vmin vmax n : W64) (s : State) :
    exec (.equinoxVoteResult err f pmin pmax vmin vmax n) s = execEquinoxVoteResult err f pmin pmax vmin vmax n s := rfl
theorem exec_equinoxCountResult (err : Option Nat) (cmin cmax srcMin srcMax : W64) (s : State) :
    exec (.equinoxCountResult err cmin cmax srcMin srcMax) s = execEquinoxCountResult err cmin cmax srcMin srcMax s := rfl
theorem exec_equinoxRepair (order : List Nat) (limit : Nat) (failed : Bool) (s : State) :
    exec (.equinoxRepair order limit failed) s = execEquinoxRepair order limit failed s := rfl
theorem exec_equinoxRepairBarrier (failed : Bool) (s : State) : exec (.equinoxRepairBarrier failed) s = execEquinoxRepairBarrier failed s := rfl

/-- The barrier that ends a repair is sent: memory and the model table stay. -/
theorem State.eqxBarrier_sent (s : State) (failed : Bool) :
    (s.eqxBarrier failed).bnd.phase = .barrier ∧ (s.eqxBarrier failed).dram = s.dram ∧ (s.eqxBarrier failed).bar2 = s.bar2 ∧
    ∀ f : Fld, f.NetFree → (s.eqxBarrier failed).fld f = s.fld f := by
  have h := (State.Net.refl s).hzBoundary s.bnd.eqx.group [10] [if failed then 1 else 0]
  exact ⟨rfl, h.dram, h.bar2, h.fld⟩

theorem State.dropGot_keeps (s : State) (u : RUse) : (s.dropGot u).dram = s.dram ∧ (s.dropGot u).bar2 = s.bar2 := by
  unfold State.dropGot
  split <;> exact ⟨rfl, rfl⟩

theorem State.eqxRepair_begins (s : State) (p : W64) (src : Nat) :
    (s.eqxRepair p src).flag fEqx_REPAIRING = true ∧
    (s.eqxRepair p src).bnd.phase = if BitVec.ofNat 64 (s.fld fEqx_LAST_P) = p then .barrier else .repair := by
  have hfree : ∀ {f : Fld}, f.key / 512 = 0x00C → f.key % 512 ≠ 3 → f.ReportFree := fEqx_reportFree
  unfold State.eqxRepair
  dsimp only
  generalize hd : ({ cls := 0x46, react := 0, page := mdlPage, loc0 := BitVec.ofNat 64 src } : Det) = d
  have hp : ((s.setFlag fEqx_REPAIRING true).report d none).fld fEqx_LAST_P = s.fld fEqx_LAST_P := by
    rw [State.report_fld _ _ _ (hfree (by decide) (by decide)), State.fld_setFlag_apart _ _ rfl (by decide)]
  have hr : ((s.setFlag fEqx_REPAIRING true).report d none).flag fEqx_REPAIRING = true := by
    rw [State.flag, State.report_fld _ _ _ (hfree (by decide) (by decide))]
    exact State.flag_setFlag_same _ _ rfl rfl
  rw [hp]
  generalize (s.setFlag fEqx_REPAIRING true).report d none = t at hr ⊢
  split
  · obtain ⟨hph, -, -, hf⟩ := t.eqxBarrier_sent false
    exact ⟨by rw [State.flag, hf _ (Fld.netFree_eqx (by decide))]; exact hr, hph⟩
  · exact ⟨hr, rfl⟩

theorem State.hzResult_some {s : State} (h : s.bnd.result = none) (vals : List W64) : s.hzResult false vals = some vals := by
  rw [State.hzResult, h]
  rfl

theorem State.hzResult_err {s : State} (h : s.bnd.result = none) (vals : List W64) : s.hzResult true vals = none := by
  rw [State.hzResult, h]
  rfl

section Vote
variable {s : State} (hp : s.bnd.phase = .vote) (hr : s.bnd.result = none) (f pmin pmax vmin vmax n : W64)
include hp hr

theorem exec_equinoxVoteResult_stop (h : vmin ≠ vmax ∨ (pmin ≠ pmax ∧ n.toNat < 3)) :
    exec (.equinoxVoteResult none f pmin pmax vmin vmax n) s = .next (s.hzTaken s.bnd.eqx.group none).eqxStop := by
  rw [exec_equinoxVoteResult, execEquinoxVoteResult, if_neg (not_not_intro hp), Option.isSome_none, State.hzResult_some hr]
  dsimp only
  by_cases hv : vmin ≠ vmax
  · rw [if_pos hv]
  · obtain ⟨hne, hn⟩ := h.resolve_left hv
    rw [if_neg hv, if_neg hne, if_pos hn]

theorem exec_equinoxVoteResult_apply (hv : vmin = vmax) (hpp : pmin = pmax) :
    exec (.equinoxVoteResult none f pmin pmax vmin vmax n) s = .next ((s.hzTaken s.bnd.eqx.group none).eqxApply f false) := by
  rw [exec_equinoxVoteResult, execEquinoxVoteResult, if_neg (not_not_intro hp), Option.isSome_none, State.hzResult_some hr]
  dsimp only
  rw [if_neg (not_not_intro hv), if_pos hpp]

theorem equinoxVoteResult_counts (hv : vmin = vmax) (hpp : pmin ≠ pmax) (hn : 3 ≤ n.toNat) :
    Completes (.equinoxVoteResult none f pmin pmax vmin vmax n) s fun u =>
      u.bnd.phase = .count ∧ u.bnd.eqx.f = f ∧ u.bnd.eqx.n = n ∧ u.bnd.eqx.pmin = pmin ∧ u.bnd.eqx.pmax = pmax := by
  obtain ⟨t, ops, vals, hex, hf, hn, hmin, hmax⟩ : ∃ (t : State) (ops : List Nat) (vals : List W64),
      exec (.equinoxVoteResult none f pmin pmax vmin vmax n) s = .next ((t.hzBoundary t.bnd.eqx.group ops vals).toPhase .count) ∧
      t.bnd.eqx.f = f ∧ t.bnd.eqx.n = n ∧ t.bnd.eqx.pmin = pmin ∧ t.bnd.eqx.pmax = pmax := by
    have he : ∃ (ops : List Nat) (vals : List W64), exec (.equinoxVoteResult none f pmin pmax vmin vmax n) s =
        .next ((((s.hzTaken s.bnd.eqx.group none).modBnd fun b => { b with eqx := { b.eqx with f := f, n := n, pmin := pmin, pmax := pmax }
          }).hzBoundary (s.hzTaken s.bnd.eqx.group none).bnd.eqx.group ops vals).toPhase .count) := by
      rw [exec_equinoxVoteResult, execEquinoxVoteResult, if_neg (not_not_intro hp), Option.isSome_none, State.hzResult_some hr]
      dsimp only
      rw [if_neg (not_not_intro hv), if_neg hpp, if_neg (by omega)]
      exact ⟨_, _, rfl⟩
    obtain ⟨ops, vals, hex⟩ := he
    exact ⟨_, ops, vals, hex, rfl, rfl, rfl, rfl⟩
  refine Completes.of hex ?_
  have h := ((State.Net.refl t).hzBoundary t.bnd.eqx.group ops vals).eqx
  have he : ((t.hzBoundary t.bnd.eqx.group ops vals).toPhase .count).bnd.eqx = t.bnd.eqx := h
  rw [he]
  exact ⟨rfl, hf, hn, hmin, hmax⟩

theorem exec_equinoxVoteResult_error (c : Nat) :
    exec (.equinoxVoteResult (some c) f pmin pmax vmin vmax n) s = .next (s.hzTaken s.bnd.eqx.group (some c)).eqxStop := by
  rw [exec_equinoxVoteResult, execEquinoxVoteResult, if_neg (not_not_intro hp), Option.isSome_some, State.hzResult_err hr]

end Vote

theorem exec_equinoxVote_sends {s s1 : State} {r : MRes} (hp : s.bnd.phase = .voteDue)
    (hw : s.vwrite unitAgt s.bnd.eqx.list s.digestList = (r, s1)) (hr : r ≠ .stall) : ∃ (ops : List Nat) (vals : List W64),
    exec .equinoxVote s = .next ((((s1.setFlag fEqx_VOTING true).setFld fEqx_LAST_P s1.packageDigest.toNat).hzBoundary
      s1.bnd.eqx.group ops vals).toPhase .vote) := by
  have hadv : s.advance = s := State.advance_of_phase (by rw [hp]; decide)
  rw [exec_equinoxVote]
  unfold execEquinoxVote
  simp only [hadv, hw]
  rw [if_neg (not_not_intro hp)]
  cases r with
  | stall => exact absurd rfl hr
  | ok b => exact ⟨_, _, rfl⟩
  | fault c => exact ⟨_, _, rfl⟩
  | uncorr => exact ⟨_, _, rfl⟩
  | refused c => exact ⟨_, _, rfl⟩

theorem equinoxVote_sends {s s1 : State} {r : MRes} (hp : s.bnd.phase = .voteDue)
    (hw : s.vwrite unitAgt s.bnd.eqx.list s.digestList = (r, s1)) (hr : r ≠ .stall) : Completes .equinoxVote s fun u =>
      u.bnd.phase = .vote ∧ u.flag fEqx_VOTING = true ∧ u.fld fEqx_LAST_P = s1.packageDigest.toNat ∧ u.dram = s1.dram := by
  obtain ⟨ops, vals, hex⟩ := exec_equinoxVote_sends hp hw hr
  refine Completes.of hex ?_
  have hv : ((s1.setFlag fEqx_VOTING true).setFld fEqx_LAST_P s1.packageDigest.toNat).flag fEqx_VOTING = true := by
    rw [State.flag, State.fld_setFld_apart _ _ rfl (by decide)]
    exact State.flag_setFlag_same _ _ rfl rfl
  have hl : ((s1.setFlag fEqx_VOTING true).setFld fEqx_LAST_P s1.packageDigest.toNat).fld fEqx_LAST_P = s1.packageDigest.toNat :=
    State.fld_setFld_fits _ rfl s1.packageDigest.isLt
  have hd : ((s1.setFlag fEqx_VOTING true).setFld fEqx_LAST_P s1.packageDigest.toNat).dram = s1.dram := by
    rw [State.setFld_dram, State.setFlag_dram]
  generalize (s1.setFlag fEqx_VOTING true).setFld fEqx_LAST_P s1.packageDigest.toNat = z at hv hl hd ⊢
  have hnet := (State.Net.refl z).hzBoundary s1.bnd.eqx.group ops vals
  exact ⟨rfl, (hnet.flag (Fld.netFree_eqx (by decide))).trans hv, (hnet.fld _ (Fld.netFree_eqx (by decide))).trans hl, hnet.dram.trans hd⟩

theorem equinoxVoteResult_decides {s : State} (hp : s.bnd.phase = .vote) (hr : s.bnd.result = none) (f pmin pmax vmin vmax n : W64) :
    Completes (.equinoxVoteResult none f pmin pmax vmin vmax n) s fun u =>
      (vmin ≠ vmax ∨ (pmin ≠ pmax ∧ n.toNat < 3) → u.EqxStopped) ∧
      (vmin = vmax → pmin ≠ pmax → 3 ≤ n.toNat → u.bnd.phase = .count ∧ u.bnd.eqx.f = f ∧ u.bnd.eqx.n = n ∧ u.bnd.eqx.pmin = pmin ∧
        u.bnd.eqx.pmax = pmax) ∧
      (vmin = vmax → pmin = pmax → s.EqxApplied u f false) := by
  by_cases hstop : vmin ≠ vmax ∨ (pmin ≠ pmax ∧ n.toNat < 3)
  · refine Completes.of (exec_equinoxVoteResult_stop hp hr f pmin pmax vmin vmax n hstop)
      ⟨fun _ => State.eqxStop_stopped _, fun hv hpp hn => ?_, fun hv hpp => ?_⟩
    · exact absurd hstop (by rintro (h' | ⟨-, h'⟩); exacts [h' hv, by omega])
    · exact absurd hstop (by rintro (h' | ⟨h', -⟩); exacts [h' hv, h' hpp])
  · rw [not_or, not_and] at hstop
    obtain ⟨hv, hn⟩ := hstop
    have hv := not_not.1 hv
    by_cases hpp : pmin = pmax
    · have h := ((s.hzTaken s.bnd.eqx.group none).eqxApply_applied f false).of_net (State.net_hzTaken s _ _)
      refine Completes.of (exec_equinoxVoteResult_apply hp hr f pmin pmax vmin vmax n hv hpp)
        ⟨fun h' => absurd h' ?_, fun _ h' => absurd hpp h', fun _ _ => h⟩
      rintro (h' | ⟨h', -⟩)
      exacts [h' hv, h' hpp]
    · obtain ⟨u, hu, hq⟩ := equinoxVoteResult_counts hp hr f pmin pmax vmin vmax n hv hpp (by have := hn hpp; omega)
      refine ⟨u, hu, fun h' => absurd h' ?_, fun _ _ _ => hq, fun _ h' => absurd h' hpp⟩
      rintro (h' | ⟨-, h'⟩)
      · exact h' hv
      · exact hn hpp h'

theorem equinoxCountResult_decides {s : State} (hp : s.bnd.phase = .count) (hr : s.bnd.result = none) (cmin cmax srcMin srcMax : W64) :
    let n := s.bnd.eqx.n.toNat
    let p := if n < 2 * cmin.toNat then s.bnd.eqx.pmin else s.bnd.eqx.pmax
    Completes (.equinoxCountResult none cmin cmax srcMin srcMax) s fun u =>
      (n < 2 * cmin.toNat ∨ n < 2 * cmax.toNat → u.flag fEqx_REPAIRING = true ∧
        u.bnd.phase = if BitVec.ofNat 64 (s.fld fEqx_LAST_P) = p then .barrier else .repair) ∧
      (2 * cmin.toNat ≤ n → 2 * cmax.toNat ≤ n → u.bnd.phase = .stopped ∧ u.flag fEqx_STOPPED = true) := by
  intro n p
  have hnet := State.net_hzTaken s s.bnd.eqx.group none
  have he : exec (.equinoxCountResult none cmin cmax srcMin srcMax) s = .next (let z := s.hzTaken s.bnd.eqx.group none
      if n < 2 * cmin.toNat then z.eqxRepair s.bnd.eqx.pmin srcMin.toNat
      else if n < 2 * cmax.toNat then z.eqxRepair s.bnd.eqx.pmax srcMax.toNat else z.eqxStop) := by
    rw [exec_equinoxCountResult, execEquinoxCountResult, if_neg (not_not_intro hp), Option.isSome_none, State.hzResult_some hr]
    dsimp only
    rw [hnet.eqx]
  refine Completes.of he ?_
  dsimp only
  have hlast : (s.hzTaken s.bnd.eqx.group none).fld fEqx_LAST_P = s.fld fEqx_LAST_P := hnet.fld _ (Fld.netFree_eqx (by decide))
  by_cases hmin : n < 2 * cmin.toNat
  · rw [if_pos hmin, show p = s.bnd.eqx.pmin from if_pos hmin, ← hlast]
    exact ⟨fun _ => State.eqxRepair_begins _ _ _, fun h => absurd hmin (by omega)⟩
  · rw [if_neg hmin, show p = s.bnd.eqx.pmax from if_neg hmin, ← hlast]
    by_cases hmax : n < 2 * cmax.toNat
    · rw [if_pos hmax]
      exact ⟨fun _ => State.eqxRepair_begins _ _ _, fun _ h => absurd hmax (by omega)⟩
    · rw [if_neg hmax]
      have h := State.eqxStop_stopped (s.hzTaken s.bnd.eqx.group none)
      exact ⟨fun h' => absurd h' (by omega), fun _ _ => ⟨h.phase, h.stopped⟩⟩

section Repair
variable {s : State} (hp : s.bnd.phase = .repair) (order : List Nat) (limit : Nat) (failed : Bool)
include hp

/-- The reads of a repair: the digest list of its source. -/
def State.repairAsk (s : State) : MRes × State :=
  s.repairRead ((List.range 8).map fun i => (s.bnd.eqx.src * 2 ^ 48 + s.bnd.eqx.win * 2 ^ 34 + 4096 * i, 4096))

theorem exec_equinoxRepair_eq : exec (.equinoxRepair order limit failed) s = .next (match s.repairAsk with
    | (.stall, s1) => s1
    | (.ok list, s1) =>
      (match s1.eqxCopies s.bnd.eqx.f list ((repairOrder order).take limit) with
       | (.done bad, s2) =>
         if bad || failed || decide ((repairOrder order).length ≤ limit) then (s2.dropGot .repair).eqxBarrier (bad || failed) else s2
       | (.wait, s2) => s2)
    | (_, s1) => (s1.dropGot .repair).eqxBarrier true) := by
  rcases hask : s.repairAsk with ⟨r, t⟩
  rw [State.repairAsk] at hask
  rewrite [exec_equinoxRepair, execEquinoxRepair, if_neg (not_not_intro hp)]
  dsimp only
  rewrite [hask]
  cases r <;> rfl

variable {list : List Byte} {s1 s2 : State} {bad : Bool}

theorem exec_equinoxRepair_stall (h : s.repairAsk = (.stall, s1)) : exec (.equinoxRepair order limit failed) s = .next s1 := by
  rw [exec_equinoxRepair_eq hp, h]

theorem equinoxRepair_refused {c : Nat} (h : s.repairAsk = (.refused c, s1)) :
    Completes (.equinoxRepair order limit failed) s fun u => u.bnd.phase = .barrier ∧ u.dram = s1.dram := by
  obtain ⟨hph, hd, -, -⟩ := (s1.dropGot .repair).eqxBarrier_sent true
  refine Completes.of (u := (s1.dropGot .repair).eqxBarrier true) ?_ ⟨hph, hd.trans (s1.dropGot_keeps _).1⟩
  rw [exec_equinoxRepair_eq hp, h]

theorem exec_equinoxRepair_wait (h : s.repairAsk = (.ok list, s1))
    (hc : s1.eqxCopies s.bnd.eqx.f list ((repairOrder order).take limit) = (.wait, s2)) :
    exec (.equinoxRepair order limit failed) s = .next s2 := by
  rw [exec_equinoxRepair_eq hp, h]
  dsimp only
  rw [hc]

theorem exec_equinoxRepair_done (h : s.repairAsk = (.ok list, s1))
    (hc : s1.eqxCopies s.bnd.eqx.f list ((repairOrder order).take limit) = (.done bad, s2)) :
    exec (.equinoxRepair order limit failed) s = .next (if bad || failed || decide ((repairOrder order).length ≤ limit)
      then (s2.dropGot .repair).eqxBarrier (bad || failed) else s2) := by
  rw [exec_equinoxRepair_eq hp, h]
  dsimp only
  rw [hc]

theorem equinoxRepair_ends (h : s.repairAsk = (.ok list, s1))
    (hc : s1.eqxCopies s.bnd.eqx.f list ((repairOrder order).take limit) = (.done bad, s2))
    (hend : bad = true ∨ failed = true ∨ (repairOrder order).length ≤ limit) : Completes (.equinoxRepair order limit failed) s fun u =>
      u.bnd.phase = .barrier ∧ u.dram = s2.dram ∧ ∀ m, (u.model m).digest = (s2.model m).digest := by
  obtain ⟨hph, hd, hb, -⟩ := (s2.dropGot .repair).eqxBarrier_sent (bad || failed)
  obtain ⟨hdd, hdb⟩ := s2.dropGot_keeps .repair
  refine Completes.of (u := (s2.dropGot .repair).eqxBarrier (bad || failed)) ?_ ⟨hph, hd.trans hdd, fun m => ?_⟩
  · rw [exec_equinoxRepair_done hp order limit failed h hc, if_pos (by simpa [or_assoc] using hend)]
  · rw [State.model_of_bar2 (hb.trans hdb)]

end Repair

section Barrier
variable {s : State} (hp : s.bnd.phase = .barrier) (hr : s.bnd.result = none)
include hp hr

theorem exec_equinoxRepairBarrier_failed :
    exec (.equinoxRepairBarrier true) s = .next (s.hzTaken s.bnd.eqx.group none).eqxStop := by
  rw [exec_equinoxRepairBarrier, execEquinoxRepairBarrier, if_neg (not_not_intro hp), State.hzResult_some hr]
  rfl

theorem exec_equinoxRepairBarrier_passed : exec (.equinoxRepairBarrier false) s =
    .next ((s.hzTaken s.bnd.eqx.group none).eqxApply (s.hzTaken s.bnd.eqx.group none).bnd.eqx.f true) := by
  rw [exec_equinoxRepairBarrier, execEquinoxRepairBarrier, if_neg (not_not_intro hp), State.hzResult_some hr]
  rfl

end Barrier

/-- Settles O33: the vote, its result, the count, the repair and its barrier, each by its phase. -/
theorem equinoxDecides : Obligations.EquinoxDecides := by
  intro s s1 r
  refine ⟨fun hp hw hr => equinoxVote_sends hp hw hr, fun hp hr f pmin pmax vmin vmax n => ⟨?result, fun c => ?error⟩,
    fun hp hr cmin cmax srcMin srcMax => equinoxCountResult_decides hp hr cmin cmax srcMin srcMax, fun hp order limit failed => ?repair,
    fun hp hr => ⟨?failed, ?passed⟩⟩
  case result =>
    obtain ⟨u, hu, hstop, hcount, happly⟩ := equinoxVoteResult_decides hp hr f pmin pmax vmin vmax n
    refine ⟨u, hu, fun h' => ?_, hcount, fun hv hpp => ?_⟩
    · have h := hstop h'
      exact ⟨h.phase, h.stopped, h.voting⟩
    · have h := happly hv hpp
      refine ⟨h.votes, h.voting, h.lastSkip, h.skips, h.phase, fun m hm => ?_⟩
      have hd := h.model m hm
      refine ⟨hd.pending, fun hf hpend _ => hd.commits ⟨hf, hpend⟩, fun hno => hd.skips ?_⟩
      rintro ⟨hf, hpend⟩
      obtain h' | h' := hno
      · exact h' hf
      · rw [hpend] at h'; cases h'
  case error =>
    have h := State.eqxStop_stopped (s.hzTaken s.bnd.eqx.group (some c))
    exact Completes.of (exec_equinoxVoteResult_error hp hr f pmin pmax vmin vmax n c) ⟨h.phase, h.stopped⟩
  case repair =>
    exact ⟨fun h => exec_equinoxRepair_stall hp order limit failed h, fun c s1 h => equinoxRepair_refused hp order limit failed h,
      fun list bad s1 s2 h hc => ⟨fun hend => equinoxRepair_ends hp order limit failed h hc hend, fun hb hf hl =>
        (exec_equinoxRepair_done hp order limit failed h hc).trans (congrArg Host.Outcome.next (if_neg (by simp [hb, hf]; omega)))⟩,
      fun list s1 s2 h hc => exec_equinoxRepair_wait hp order limit failed h hc⟩
  case failed =>
    have h := State.eqxStop_stopped (s.hzTaken s.bnd.eqx.group none)
    exact Completes.of (exec_equinoxRepairBarrier_failed hp hr) ⟨h.phase, h.stopped⟩
  case passed =>
    have h := ((s.hzTaken s.bnd.eqx.group none).eqxApply_applied (s.hzTaken s.bnd.eqx.group none).bnd.eqx.f true).of_net (State.net_hzTaken s _ _)
    refine Completes.of (exec_equinoxRepairBarrier_passed hp hr) ⟨h.votes, h.repairs rfl, h.lastRepair, h.repairing, fun hb => ?_⟩
    rcases h.phase with h | h | h <;> rw [hb] at h <;> cases h

end Sys2Proof.Machine
end

section
/-! # Ring enables, and the host ring -/
namespace Sys2Proof.Machine

/-! ### A cell written with the value it holds -/

theorem tabFind_below {α : Type} [DecidableEq α] (d : Nat → α) (t : List (Nat × α)) : ∀ {lo k : Nat}, tabWfFrom d lo t = true → k < lo →
    tabFind t k = none ∧ tabDel t k = t := by
  induction t with
  | nil => exact fun _ _ => ⟨rfl, rfl⟩
  | cons e t ih =>
    intro lo k hw hk
    obtain ⟨a, x⟩ := e
    simp only [tabWfFrom, Bool.and_eq_true, decide_eq_true_eq] at hw
    obtain ⟨⟨hlo, -⟩, ht⟩ := hw
    obtain ⟨h1, h2⟩ := ih ht (show k < a + 1 by omega)
    have hne : a ≠ k := by omega
    refine ⟨by rw [tabFind, if_neg hne, h1], ?_⟩
    rw [tabDel, List.filter_cons_of_pos (by simpa using hne)]
    exact congrArg _ h2

/-- A cell of a canonical table written with the value it reads leaves the table as it is. -/
theorem tabSet_get {α : Type} [DecidableEq α] (d : Nat → α) (t : List (Nat × α)) (k : Nat) : ∀ {lo : Nat}, tabWfFrom d lo t = true →
    tabSet d t k (tabGet d t k) = t := by
  induction t with
  | nil => exact fun _ => if_pos rfl
  | cons e t ih =>
    intro lo hw
    obtain ⟨a, x⟩ := e
    simp only [tabWfFrom, Bool.and_eq_true, decide_eq_true_eq] at hw
    obtain ⟨⟨-, hx⟩, ht⟩ := hw
    by_cases hak : a = k
    · subst hak
      obtain ⟨h1, h2⟩ := tabFind_below d t ht (Nat.lt_succ_self a)
      have hget : tabGet d ((a, x) :: t) a = x := by simp [tabGet, tabFind]
      have hdel : tabDel ((a, x) :: t) a = t := by
        rw [tabDel, List.filter_cons_of_neg (by simp)]
        exact h2
      rw [hget, tabSet, if_neg hx, hdel]
      cases t with
      | nil => rfl
      | cons e t =>
        simp only [tabWfFrom, Bool.and_eq_true, decide_eq_true_eq] at ht
        rw [tabIns, if_pos (by omega)]
    · have hget : tabGet d ((a, x) :: t) k = tabGet d t k := by simp [tabGet, tabFind, hak]
      have hdel : tabDel ((a, x) :: t) k = (a, x) :: tabDel t k := by rw [tabDel, List.filter_cons_of_pos (by simpa using hak), tabDel]
      have hi := ih ht
      rw [hget, tabSet, hdel]
      rw [tabSet] at hi
      split
      next hd =>
        rw [if_pos hd] at hi
        rw [hi]
      next hd =>
        rw [if_neg hd] at hi
        by_cases hlt : k < a
        · exact absurd (by rw [tabGet, (tabFind_below d t ht (show k < a + 1 by omega)).1]; rfl) hd
        · rw [tabIns, if_neg hlt, hi]

theorem State.setCell_self {s : State} (h : s.memWf = true) (k : Nat) : s.setCell k (s.cell k) = s := by
  simp only [State.memWf, Bool.and_eq_true] at h
  have hr : tabSet regDefault s.regs k (s.cell k) = s.regs := tabSet_get regDefault s.regs k h.2
  rw [State.setCell, hr]

/-- The plain part of a write changes nothing where every bit it sets is written as it reads. -/
theorem State.plainWrite_self {s : State} (h : s.memWf = true) {b : Blk} {i : Nat} {w : Wr} (hc : w.clrBits = 0)
    (hs : BitVec.ofNat 64 w.v &&& s.setBits b i w = s.cell (w.page * 512 + w.c) &&& s.setBits b i w) : s.plainWrite b i w = s := by
  have hid : ∀ a m : W64, (a &&& ~~~m) ||| (a &&& m) = a := fun a m => by
    ext n hn
    simp only [BitVec.getElem_or, BitVec.getElem_and, BitVec.getElem_not]
    cases a[n] <;> cases m[n] <;> rfl
  rw [State.plainWrite]
  split
  · rfl
  · rw [hc, show s.setBits b i w ||| 0 = s.setBits b i w from BitVec.or_zero, hs, hid, State.setCell_self h]

/-! ### The host ring (R361, R362) -/

/-- The plain bits of a register lie in a mask where those of its fields do. -/
theorem State.setBits_and {s : State} {b : Blk} {i : Nat} {ag : Agent} {p off width val : Nat} {held : List Fld} (m : W64)
    (hh : s.heldFields b i p = headFlds p ++ held) (ho : 0x40 ≤ off)
    (h : ∀ l, (BitVec.ofNat 64 (cellMask p (off / 8) (plainAcc l) &&& wrMask off width) &&& ~~~BitVec.ofNat 64 (fldMask (p * 512 + off / 8) held)) &&& m =
      BitVec.ofNat 64 (cellMask p (off / 8) (plainAcc l) &&& wrMask off width) &&& ~~~BitVec.ofNat 64 (fldMask (p * 512 + off / 8) held)) :
    s.setBits b i (wrOf ag p off width val) &&& m = s.setBits b i (wrOf ag p off width val) := by
  show (BitVec.ofNat 64 (cellMask p (off / 8) _ &&& wrMask off width) &&& ~~~BitVec.ofNat 64 (fldMask (p * 512 + off / 8) (s.heldFields b i p))) &&& m =
    BitVec.ofNat 64 (cellMask p (off / 8) _ &&& wrMask off width) &&& ~~~BitVec.ofNat 64 (fldMask (p * 512 + off / 8) (s.heldFields b i p))
  rw [hh, fldMask_headFlds (by omega)]
  exact h _

/-- The enable register of a ring: LOG2N in its bits 3 to 0, EN in bit 31. Written with LOG2N as it reads, it is the action of EN alone. -/
theorem State.plainWrite_ringEn {s : State} (hwf : s.memWf = true) {b : Blk} {i : Nat} {ag : Agent} {p n : Nat} (held : List Fld)
    (hh : s.heldFields b i p = headFlds p ++ held) (hn : n = s.fld ⟨p, 0x48, 3, 0⟩) (hclr : cellMask p 9 (fun f => f.acc == .w1c) = 0)
    (hset : ∀ l, (BitVec.ofNat 64 (cellMask p 9 (plainAcc l) &&& wrMask 0x48 4) &&& ~~~BitVec.ofNat 64 (fldMask (p * 512 + 9) held)) &&& 15 =
      BitVec.ofNat 64 (cellMask p 9 (plainAcc l) &&& wrMask 0x48 4) &&& ~~~BitVec.ofNat 64 (fldMask (p * 512 + 9) held)) :
    s.plainWrite b i (wrOf ag p 0x48 4 (2 ^ 31 + n)) = s := by
  have hlt : n < 16 := hn ▸ s.fld_lt ⟨p, 0x48, 3, 0⟩
  have hcell : n = (s.cell (p * 512 + 9)).toNat % 16 := by
    rw [hn]
    simp [State.fld, Fld.sh, Fld.w, Fld.key]
  refine State.plainWrite_self hwf (Wr.clrBits_no_w1c hclr) ?_
  have hs := State.setBits_and (s := s) (b := b) (i := i) (ag := ag) (val := 2 ^ 31 + n) (width := 4) 15 hh (by decide : 0x40 ≤ 0x48) hset
  have hlow : BitVec.ofNat 64 (wrOf ag p 0x48 4 (2 ^ 31 + n)).v &&& 15 = s.cell (p * 512 + 9) &&& 15 := by
    apply BitVec.eq_of_toNat_eq
    have h15 : ∀ x : Nat, x &&& 15 = x % 16 := fun x => Nat.and_two_pow_sub_one_eq_mod x 4
    rw [BitVec.toNat_and, BitVec.toNat_and, show (15 : W64).toNat = 15 from rfl, h15, h15, ← hcell, BitVec.toNat_ofNat]
    simp only [wrOf, Nat.reduceMul, Nat.reducePow, Nat.reduceMod, Nat.shiftLeft_zero, Nat.zero_mul]
    omega
  show BitVec.ofNat 64 (wrOf ag p 0x48 4 (2 ^ 31 + n)).v &&& _ = s.cell (p * 512 + 9) &&& _
  rw [← hs, BitVec.and_comm (s.setBits _ _ _) 15, ← BitVec.and_assoc, ← BitVec.and_assoc, hlow]

theorem wrOf_get_en (ag : Agent) {p n : Nat} (hn : n < 16) : (wrOf ag p 0x48 4 (2 ^ 31 + n)).get ⟨p, 0x48, 31, 31⟩ = some 1 :=
  wrOf_get ag rfl rfl (by simp [Fld.w]) (by simp [Fld.w]) (by simp [Fld.w]; omega)

/-! ### The host ring (R361, R362) -/

theorem State.jobOver_jobOver (s : State) : s.jobOver.jobOver = s.jobOver := by
  have hnone : ∀ t : State, t.host.jobEnding = none → t.jobOver = t := fun t h => by simp [State.jobOver, h]
  cases hj : s.host.jobEnding with
  | none => rw [hnone s hj, hnone s hj]
  | some who =>
    by_cases hw : (!s.fab.ctxs.isEmpty) = true ∨ (!s.mdl.passes.isEmpty) = true ∨ s.ringLeft = true
    · have : s.jobOver = s := by
        unfold State.jobOver
        simp only [hj, if_pos hw]
      rw [this, this]
    · refine hnone _ ?_
      unfold State.jobOver
      simp only [hj, if_neg hw]
      cases who with
      | none => rfl
      | some ag => cases ag <;> rfl

/-- The end of a Job End leaves memory, and every register but the job's. -/
theorem State.jobOver_keeps (s : State) : s.jobOver.dram = s.dram ∧
    ∀ f : Fld, fPkg_JOB_PRESENT.apart f = true → fPkg_JOB.apart f = true → s.jobOver.fld f = s.fld f := by
  obtain ⟨z, hz, hzd, hzf⟩ : ∃ z : State,
      ({ s with host := { s.host with jobEnding := none } }.setFlag fPkg_JOB_PRESENT false).setFld fPkg_JOB 0 = z ∧ z.dram = s.dram ∧
      ∀ f : Fld, fPkg_JOB_PRESENT.apart f = true → fPkg_JOB.apart f = true → z.fld f = s.fld f := by
    refine ⟨_, rfl, (State.setFld_dram ..).trans (State.setFlag_dram ..), fun f h1 h2 => ?_⟩
    rw [State.fld_setFld_apart _ _ rfl h2, State.fld_setFlag_apart _ _ rfl h1]
    rfl
  unfold State.jobOver
  rw [hz]
  split
  · exact ⟨rfl, fun _ _ _ => rfl⟩
  · split
    · exact ⟨rfl, fun _ _ _ => rfl⟩
    · split <;> exact ⟨hzd, hzf⟩

theorem State.jobOver_flag (s : State) {f : Fld} (h1 : fPkg_JOB_PRESENT.apart f = true) (h2 : fPkg_JOB.apart f = true) :
    s.jobOver.flag f = s.flag f := by rw [State.flag, State.flag, s.jobOver_keeps.2 f h1 h2]

theorem State.ringService_jobOver (s : State) : s.ringService.jobOver = s.ringService := State.jobOver_jobOver _

/-- With EN clear the ring service reads nothing. -/
theorem State.ringService_off {s : State} (h : s.flag fRing_EN = false) : s.ringService = s.jobOver := by
  have hretry : s.hringRetry = s := if_pos (.inl (by rw [h]; rfl))
  have hstep : s.ringStep = none := by
    have : s.ringNext = (.wait, s) := if_pos (.inl (by rw [h]; rfl))
    rw [State.ringStep, this]
  have hrun : s.ringRun 4097 = s := by
    rw [State.ringRun, hstep]
  rw [State.ringService, hretry, hrun]

theorem State.hringError_flags (s : State) : s.hringError.flag fRing_EN = false ∧ s.hringError.flag (fErr_RING hringPage) = true := by
  constructor
  · rw [State.hringError, State.flag_setFlag_apart _ _ rfl (by decide), State.flag_setFlag_same _ _ rfl rfl]
  · rw [State.hringError, State.flag_setFlag_same _ _ rfl rfl]

/-- A ring that ends in error: EN is clear, RING set. -/
theorem State.hringError_service (s : State) :
    s.hringError.ringService.flag fRing_EN = false ∧ s.hringError.ringService.flag (fErr_RING hringPage) = true := by
  obtain ⟨h1, h2⟩ := s.hringError_flags
  rw [State.ringService_off h1]
  exact ⟨(State.jobOver_flag _ (by decide) (by decide)).trans h1, (State.jobOver_flag _ (by decide) (by decide)).trans h2⟩

theorem State.hringHead_setEn (s : State) : (s.setFlag fRing_EN true).hringHead = s.hringHead := by
  rw [State.hringHead, State.fld_setFlag_apart _ _ rfl (by decide), State.hringHead]

theorem State.hringFits_setEn (s : State) : (s.setFlag fRing_EN true).hringFits = s.hringFits := by
  have hlen : (s.setFlag fRing_EN true).hringLen = s.hringLen := by
    simp only [State.hringLen, State.fld_setFlag_apart s (f := fRing_EN) (g := fRing_LOG2N) true rfl (by decide)]
  have hh : (s.setFlag fRing_EN true).hdmBytes = s.hdmBytes := by
    rw [State.hdmBytes, State.rsvGib, State.fld_setFlag_apart _ _ rfl (by decide), State.hdmBytes, State.rsvGib]
  rw [State.hringFits, hlen, hh, State.hringHead_setEn, State.hringFits]

theorem State.withHost_keeps (z : State) (x : HostSt) : ({ z with host := x } : State).dram = z.dram ∧ ({ z with host := x } : State).host = x ∧
    ∀ f, ({ z with host := x } : State).fld f = z.fld f := ⟨rfl, rfl, fun _ => rfl⟩

/-- The head read: CONS is in its register, PROD is to be read again. -/
theorem State.hringHeadRead_read {s s1 : State} {b : List Byte} (h : s.hringRead (s.hringHead + 8) 4 = (.ok b, s1)) : ∃ v : State,
    s.hringHeadRead = v.hringProd ∧ v.fld fRing_HR_CONS = leNat b % 2 ^ 32 ∧ v.host.ringProd = leNat b ∧ v.dram = s1.dram := by
  obtain ⟨z, hz⟩ : ∃ z, z = s1.setFld fRing_HR_CONS (leNat b) := ⟨_, rfl⟩
  obtain ⟨hd, hx, hf⟩ := z.withHost_keeps { s1.host with ringProd := leNat b, ringDue := 0 }
  refine ⟨{ z with host := { s1.host with ringProd := leNat b, ringDue := 0 } }, ?_, ?_, ?_, ?_⟩
  · generalize hf : State.hringHeadRead = f
    delta State.hringHeadRead at hf
    subst hf
    beta_reduce
    rw [h, hz]
  · rw [hf, hz, State.fld_setFld_same _ _ rfl]
    rfl
  · rw [hx]
  · rw [hd, hz, State.setFld_dram]

section Enable
variable {s : State} (hwf : s.memWf = true) {ag : Agent} (hag : s.agentUp ag = true) (hen : s.flag fRing_EN = false)
include hwf hag hen

theorem exec_hostRingEnable_acts : exec (.hostRingEnable ag) s = .next (s.setFlag fRing_EN true).hringEnable.jobOver := by
  have hex : exec (.hostRingEnable ag) s = .next (s.agentWrite ag hringPage 0x48 4 (2 ^ 31 + s.fld fRing_LOG2N)) := rfl
  have hplain : s.plainWrite .ring 0 (wrOf ag hringPage 0x48 4 (2 ^ 31 + s.fld fRing_LOG2N)) = s := by
    refine State.plainWrite_ringEn hwf [fRing_EN] ?_ rfl (by decide +kernel) (by decide +kernel)
    simp [State.heldFields, headFlds, hen]
  have hget : (wrOf ag hringPage 0x48 4 (2 ^ 31 + s.fld fRing_LOG2N)).get fRing_EN = some 1 := wrOf_get_en ag (s.fld_lt fRing_LOG2N)
  rw [hex, State.agentWrite_eq _ hag rfl (by decide), s.regWrite_eq ag 0x48 4 _ (p := hringPage) (b := .ring) (i := 0) rfl, hplain,
    State.headActs_body _ _ _ (by simp [wrOf]), State.blockActs, State.on_some hget, State.ringEn,
    if_pos ⟨rfl, by simp [hen]⟩]

theorem hostRingEnable_unfit (hf : s.hringFits = false) : Completes (.hostRingEnable ag) s fun u =>
    u.flag fRing_EN = false ∧ u.flag (fErr_RING hringPage) = true ∧ u.dram = s.dram := by
  have hfit : (s.setFlag fRing_EN true).hringFits = false := by
    rw [State.hringFits_setEn, hf]
  have he : (s.setFlag fRing_EN true).hringEnable = (s.setFlag fRing_EN true).hringError := if_pos (by rw [hfit]; rfl)
  obtain ⟨h1, h2⟩ := (s.setFlag fRing_EN true).hringError_flags
  have hd : (s.setFlag fRing_EN true).hringError.dram = s.dram := by
    rw [State.hringError, State.setFlag_dram, State.setFlag_dram, State.setFlag_dram]
  refine Completes.of (exec_hostRingEnable_acts hwf hag hen) ?_
  rw [he]
  generalize (s.setFlag fRing_EN true).hringError = z at h1 h2 hd ⊢
  exact ⟨(State.jobOver_flag _ (by decide) (by decide)).trans h1, (State.jobOver_flag _ (by decide) (by decide)).trans h2,
    (State.jobOver_keeps _).1.trans hd⟩

theorem exec_hostRingEnable_fit {b : List Byte} {s1 : State} (hf : s.hringFits = true)
    (hr : (s.setFlag fRing_EN true).hringRead (s.hringHead + 8) 4 = (.ok b, s1)) : ∃ v : State,
    exec (.hostRingEnable ag) s = .next v.hringProd.ringService ∧ v.fld fRing_HR_CONS = leNat b % 2 ^ 32 ∧ v.host.ringProd = leNat b ∧
      v.dram = s1.dram := by
  have he : (s.setFlag fRing_EN true).hringEnable = (s.setFlag fRing_EN true).hringHeadRead.ringService :=
    if_neg (by rw [State.hringFits_setEn, hf]; decide)
  rw [← State.hringHead_setEn] at hr
  obtain ⟨v, hv, hc, hp, hd⟩ := State.hringHeadRead_read hr
  refine ⟨v, ?_, hc, hp, hd⟩
  rw [exec_hostRingEnable_acts hwf hag hen, he, State.ringService_jobOver, hv]

end Enable

section Prod
variable {s s1 : State} {b e : List Byte}

theorem exec_hostRingProd (s : State) : exec .hostRingProd s = .next (if s.flag fRing_EN then s.hringProd.ringService else s) := rfl

theorem State.hringProd_read (hd : s.host.ringDue ≠ 2) (hr : s.hringRead s.hringHead 4 = (.ok b, s1)) : s.hringProd =
    if s1.hringLen < (leNat b + 2 ^ 32 - s1.fld fRing_HR_CONS) % 2 ^ 32 then s1.hringError
    else { s1 with host := { s1.host with ringProd := leNat b, ringDue := 0 } } := by
  rw [State.hringProd, if_neg hd, hr]

theorem exec_ringMark (s : State) : exec .ringMark s = execRingMark s := rfl

/-- The codes of Table 15.5, in the order in which they are tested. -/
theorem State.ringCode_cases (s : State) (e : List Byte) :
    (s.host.jobEnding.isSome = true → s.ringCode e = 2) ∧
    (s.host.jobEnding = none → s.flag fSafe_SAFE = true → s.ringCode e = 3) ∧
    (s.host.jobEnding = none → s.flag fSafe_SAFE = false → ringBadKind e = true → s.ringCode e = 1) ∧
    (s.host.jobEnding = none → s.flag fSafe_SAFE = false → ringBadKind e = false →
      (s.ringCode e = 0 ↔ s.jobRuns = true ∧ s.jobId = fieldLE e 4 2) ∧ (s.ringCode e ≠ 0 → s.ringCode e = 2)) := by
  refine ⟨fun h => ?_, fun hj h => ?_, fun hj hs h => ?_, fun hj hs h => ?_⟩
  · rw [State.ringCode, if_pos h]
  · rw [State.ringCode, hj, if_neg (by decide), if_pos h]
  · rw [State.ringCode, hj, if_neg (by decide), if_neg (by rw [hs]; decide), if_pos h]
  · rw [State.ringCode, hj, if_neg (by decide), if_neg (by rw [hs]; decide), if_neg (by rw [h]; decide)]
    cases hr : s.jobRuns <;> by_cases hid : s.jobId = fieldLE e 4 2 <;> simp [hid]

end Prod

/-- Settles O46: the enable, PROD, MARK and the codes, each by the case of its definition that applies. -/
theorem hostRingTakesEntries : Obligations.HostRingTakesEntries := by
  intro s s1 b e hwf
  obtain ⟨c1, c2, c3, c4⟩ := s.ringCode_cases e
  refine ⟨fun ag hag hen => ⟨fun hf => hostRingEnable_unfit hwf hag hen hf, fun hf hr => ?enable⟩, fun hen hd hr => ⟨fun ha => ?prod, fun ha => ?error⟩,
    fun hen => ?off, c1, fun hn => ⟨fun hc hk hm ha hv => ?mark, fun hno => ?wait⟩, c2, c3, c4, rfl⟩
  case enable => exact exec_hostRingEnable_fit hwf hag hen hf hr
  case prod => rw [exec_hostRingProd, if_pos hen, State.hringProd_read hd hr, if_neg (by omega)]
  case error =>
    refine Completes.of (u := s1.hringError.ringService) ?_ s1.hringError_service
    rw [exec_hostRingProd, if_pos hen, State.hringProd_read hd hr, if_pos ha]
  case off => rw [exec_hostRingProd, if_neg (by rw [hen]; decide)]
  case mark =>
    have hdone : s1.ringMarkDone e = s1.ringTaken 1 := by
      rw [State.ringMarkDone]
      rw [if_pos ha, if_neg (by rw [hv]; decide)]
    rw [exec_ringMark, execRingMark, hn]
    dsimp only
    rw [if_pos ⟨hc, hk, hm⟩, hdone]
  case wait =>
    rw [exec_ringMark, execRingMark, hn]
    dsimp only
    rw [if_neg]
    rintro ⟨hc, hk, hm⟩
    obtain h | h | h := hno
    · exact h hc
    · exact h hk
    · rw [hm] at h; cases h


end Sys2Proof.Machine
end

section
/-! # Host requests to device memory -/
namespace Sys2Proof.Machine

/-! ### Detections: the class that is recorded last, and the answers -/

theorem State.logRecord_lastClass (s : State) (d : Det) (hc : d.cls < 256) : (s.logRecord d).2.fld fSafe_LAST_CLASS = d.cls := by
  have hset : ∀ z : State, (if 2 ≤ d.react then ((z.inc fSafe_DETECTIONS).setFlag (fErr_DETECT d.page) true).dooms 0x13 else z).fld fSafe_LAST_CLASS =
      z.fld fSafe_LAST_CLASS := by
    intro z
    split
    · rw [State.fld_congr (State.dooms_regs ..), State.fld_setFlag_apart _ _ (fErr_DETECT_ok _) (fErr_DETECT_apart _ (by decide)), State.inc,
        State.fld_setFld_apart _ _ rfl (by decide)]
    · rfl
  have hval : ∀ z : State, ((z.setFld fSafe_LAST_CLASS d.cls).setFld fSafe_LAST_REACT d.react).fld fSafe_LAST_CLASS = d.cls := fun z => by
    rw [State.fld_setFld_apart _ _ rfl (by decide)]
    exact State.fld_setFld_fits _ rfl hc
  unfold State.logRecord
  dsimp only
  split
  · rw [State.fld_setFlag_apart _ _ rfl (by decide), hset, hval]
  · rw [hset, hval]

/-- A detection's class is the one recorded last. -/
theorem State.report_lastClass (s : State) (d : Det) (ev : Option (Nat × EvKind)) (hc : d.cls < 256) :
    (s.report d ev).fld fSafe_LAST_CLASS = d.cls := by
  have hlog : ∀ bs, ((s.logRecord d).2.commitSafeLast d bs).fld fSafe_LAST_CLASS = d.cls := fun bs =>
    (State.fld_commitSafeLast _ _ _ (by decide)).trans (s.logRecord_lastClass d hc)
  have hset : ∀ z : State, (if 2 ≤ d.react then z.setFlag fSafe_FAULT true else z).fld fSafe_LAST_CLASS = z.fld fSafe_LAST_CLASS := by
    intro z
    split
    · exact State.fld_setFlag_apart _ _ rfl (by decide)
    · rfl
  have hev : ∀ (z : State) (l : Nat) (k : EvKind) (a b : W64) (bs : List Byte), (z.event l k a b bs).fld fSafe_LAST_CLASS = z.fld fSafe_LAST_CLASS :=
    fun z l k a b bs => State.fld_congr (State.event_regs ..) _
  unfold State.report
  dsimp only
  split
  · exact hlog _
  · split
    · rw [hev, hset, hlog]
    · split
      · rw [hev, hset, hlog]
      · split
        · rw [hev, hset, hlog]
        · split
          · rw [hev, hset, hlog]
          · rw [hset, hlog]

theorem State.event_answers (s : State) (log : Nat) (k : EvKind) (loc data : W64) (frec : List Byte) :
    ∃ l, (s.event log k loc data frec).answers = l ++ s.answers := by
  unfold State.event
  dsimp only
  split
  · exact ⟨[], rfl⟩
  · split
    · exact ⟨[], rfl⟩
    · exact ⟨[_], rfl⟩

theorem State.putBar_answers (bs : List Byte) : ∀ (s : State) (k : Nat), (s.putBar k bs).answers = s.answers := by
  induction bs with
  | nil => exact fun _ _ => rfl
  | cons b bs ih => exact fun s k => ih _ _

theorem State.dooms_answers (s : State) (c : Nat) : (s.dooms c).answers = s.answers := by
  unfold State.dooms
  split <;> rfl

theorem State.persist_answers (s : State) (i v : Nat) : (s.persist i v).answers = s.answers := by
  unfold State.persist
  split
  · rfl
  · split <;> rfl

theorem State.commitSafeLast_answers (s : State) (d : Det) (bs : List Byte) : (s.commitSafeLast d bs).answers = s.answers := by
  unfold State.commitSafeLast
  split
  · exact (State.persist_answers _ _ _).trans rfl
  · rfl

theorem State.logRecord_answers (s : State) (d : Det) : (s.logRecord d).2.answers = s.answers := by
  have hset : ∀ z : State, (if 2 ≤ d.react then ((z.inc fSafe_DETECTIONS).setFlag (fErr_DETECT d.page) true).dooms 0x13 else z).answers = z.answers := by
    intro z
    split
    · rw [State.dooms_answers, State.setFlag_answers, State.inc_answers]
    · rfl
  unfold State.logRecord
  dsimp only
  split
  · rw [State.setFlag_answers, hset, State.setFld_answers, State.setFld_answers, State.setFld_answers, State.putBar_answers]
    rfl
  · rw [hset, State.setFld_answers, State.setFld_answers, State.setFld_answers, State.putBar_answers]
    rfl

/-- A detection takes no answer back. -/
theorem State.report_answers (s : State) (d : Det) (ev : Option (Nat × EvKind)) : ∃ l, (s.report d ev).answers = l ++ s.answers := by
  have hlog : ∀ bs, ((s.logRecord d).2.commitSafeLast d bs).answers = s.answers := fun bs => by
    rw [State.commitSafeLast_answers, State.logRecord_answers]
  have hset : ∀ z : State, (if 2 ≤ d.react then z.setFlag fSafe_FAULT true else z).answers = z.answers := by
    intro z
    split <;> rfl
  have hev : ∀ (z : State) (l : Nat) (k : EvKind) (a b : W64) (bs : List Byte), z.answers = s.answers →
      ∃ x, (z.event l k a b bs).answers = x ++ s.answers := fun z l k a b bs hz => hz ▸ z.event_answers l k a b bs
  have hz : ∀ bs, (if 2 ≤ d.react then ((s.logRecord d).2.commitSafeLast d bs).setFlag fSafe_FAULT true
      else (s.logRecord d).2.commitSafeLast d bs).answers = s.answers := fun bs => (hset _).trans (hlog bs)
  unfold State.report
  dsimp only
  split
  · exact ⟨[], hlog _⟩
  · split
    · exact hev _ _ _ _ _ _ (hz _)
    · split
      · exact hev _ _ _ _ _ _ (hz _)
      · split
        · exact hev _ _ _ _ _ _ (hz _)
        · split
          · exact hev _ _ _ _ _ _ (hz _)
          · exact ⟨[], hz _⟩

theorem State.report_host (s : State) (d : Det) (ev : Option (Nat × EvKind)) : (s.report d ev).host = s.host :=
  (congrArg State.host (s.offReport_report d ev) :)

/-! ### Viral and the loss of the host -/

/-- Host lines are given up: memory, threads and the host's own state stay. -/
theorem State.dropHostLines_keeps (s : State) : s.dropHostLines.mem.hostLines = [] ∧ s.dropHostLines.host = s.host ∧
    s.dropHostLines.dram = s.dram ∧ s.dropHostLines.answers = s.answers ∧
    ∀ f : Fld, fCxl_HOST_LINES_LOST.apart f = true → s.dropHostLines.fld f = s.fld f := by
  refine ⟨rfl, rfl, rfl, rfl, fun f hf => ?_⟩
  obtain ⟨x, v, h⟩ := s.dropHostLines_eq
  rw [h, State.fld_setFld_apart _ _ rfl hf]
  rfl

theorem State.setViral_keeps (s : State) : s.setViral.host = s.host ∧ s.setViral.dram = s.dram ∧ s.setViral.answers = s.answers ∧
    ∀ f : Fld, f.key / 512 ≠ 0x030 → s.setViral.fld f = s.fld f := by
  unfold State.setViral
  split
  · exact ⟨rfl, rfl, rfl, fun _ _ => rfl⟩
  · obtain ⟨-, hh, hd, ha, hf⟩ := State.dropHostLines_keeps ((s.setFlag fCxl_VIRAL true).addSat fCxl_VIRALS 1)
    have hap : ∀ f g : Fld, f.key / 512 ≠ 0x030 → g.key / 512 = 0x030 → g.apart f = true := fun f g h1 h2 =>
      Fld.apart_of_page (by rw [h2]; exact h1.symm)
    refine ⟨by rw [hh, State.addSat_host, State.setFlag_host], by rw [hd, State.addSat_dram, State.setFlag_dram],
      by rw [ha, State.addSat_answers, State.setFlag_answers], fun f hf' => ?_⟩
    rw [hf f (hap _ _ hf' (by decide)), State.addSat, State.fld_setFld_apart _ _ rfl (hap _ _ hf' (by decide)),
      State.fld_setFlag_apart _ _ rfl (hap _ _ hf' (by decide))]

theorem State.setViral_lines {s : State} (h : s.flag fCxl_VIRAL = false) : s.setViral.mem.hostLines = [] := by
  unfold State.setViral
  rw [if_neg (by rw [h]; decide)]
  exact (State.dropHostLines_keeps _).1

theorem State.enterViral_viral (s : State) : s.enterViral.flag fCxl_VIRAL = true := by
  rw [State.enterViral, State.flag, State.fld_congr (State.event_regs ..)]
  exact s.setViral_viral

theorem State.hostCut_of_viral {s : State} (h : s.flag fCxl_VIRAL = true) : s.hostCut = true := by rw [State.hostCut, h, Bool.true_or]

theorem State.cutServes_same {s s1 : State} (h : s1.hostCut = s.hostCut) : s.cutServes s1 = s1 := by
  refine if_neg ?_
  rw [h]
  rintro ⟨h1, h2⟩
  rw [h1] at h2
  cases h2

theorem State.cutServes_cut {s s1 : State} (h : s1.hostCut = true) : s.cutServes s1 = if s.hostCut then s1 else s1.releaseWaiting := by
  rw [State.cutServes, h]
  cases s.hostCut <;> simp

/-! ### Host requests to device memory (R354 to R360) -/

section Request
variable {s : State} {d n : Nat} (hp : linePieces d n = [(d, n)])

/-- The request that a host read is. -/
def readReq (d n : Nat) (own : Bool) : HReq := { id := 0, write := false, dpa := d, len := n, data := [], poison := false, own := own }

/-- The request that a host write is. -/
def writeReq (d : Nat) (data : List Byte) : HReq :=
  { id := 0, write := true, dpa := d, len := data.length, data := data, poison := false, own := false }

theorem exec_hostMemRead (hl : s.linkUp = true) (hh : s.hdmHit d n = true) (own : Bool) :
    exec (.hostMemRead d n own) s = .next (s.cutServes (s.hostRequest (readReq d n own))) := by
  have he : exec (.hostMemRead d n own) s = execHostMemRead d n own s := rfl
  rw [he, execHostMemRead, if_pos ⟨hl, hh⟩]
  rfl

theorem exec_hostMemWrite {data : List Byte} (hl : s.linkUp = true) (hh : s.hdmHit d data.length = true) :
    exec (.hostMemWrite d data false) s = .next (s.hostRequest (writeReq d data)) := by
  have he : exec (.hostMemWrite d data false) s = execHostMemWrite d data false s := rfl
  rw [he, execHostMemWrite, if_pos ⟨hl, hh⟩]
  rfl

theorem State.hostRequest_cut (h : s.hostCut = true) (r : HReq) : s.hostRequest r = s.hostServe r :=
  if_neg (by rw [h, Bool.not_true, Bool.false_and]; decide)

include hp in
/-- A request of one line is served when its line is not stalled and none waits before it. -/
theorem State.hostRequest_serves {r : HReq} (hr : r.dpa = d) (hn : r.len = n) (hs : s.accessStalled (dpaKey d) n r.write = false)
    (hb : s.behind [dpaKey d / 64] = false) : s.hostRequest r = s.hostServe r := by
  have h1 : s.hostStalled r = false := by rw [State.hostStalled, hr, hn, hp]; simpa using hs
  have h2 : s.behind r.lines = false := by rw [HReq.lines, hr, hn, hp]; exact hb
  exact if_neg (by rw [h1, h2, Bool.or_self, Bool.and_false]; decide)

theorem State.hostReadLines_one (s : State) (own : Bool) (d n : Nat) :
    s.hostReadLines own [(d, n)] = ((s.hostReadLine own d n).1 ++ [], (s.hostReadLine own d n).2) := by
  generalize hr : State.hostReadLines s own [(d, n)] = r
  generalize hf : State.hostReadLines = f at hr
  delta State.hostReadLines State.hostReadLines._f at hf
  generalize State.hostReadLine = g at hf ⊢
  as_aux_lemma =>
    subst hf
    subst hr
    rfl

include hp in
theorem State.hostServe_read (h : s.hostCut = false) (own : Bool) : s.hostServe (readReq d n own) =
    (s.hostReadLine own d n).2.answer (.bytes (s.hostReadLine own d n).1) := by
  rw [State.hostServe, if_neg (show ¬(readReq d n own).write = true from Bool.false_ne_true), if_neg (by rw [h]; decide)]
  have hlp : linePieces (readReq d n own).dpa (readReq d n own).len = [(d, n)] := hp
  have hone : s.hostReadLines (readReq d n own).own [(d, n)] = ((s.hostReadLine own d n).1 ++ [], (s.hostReadLine own d n).2) :=
    s.hostReadLines_one own d n
  rw [hlp]
  generalize s.hostReadLine own d n = x at hone ⊢
  generalize s.hostReadLines (readReq d n own).own [(d, n)] = p at hone ⊢
  rw [hone, List.append_nil]

end Request

section ReadLine
variable {s s1 : State} {own : Bool} {d n : Nat} {b : List Byte}

theorem State.hostReadLine_ok (h : s.homeRead (if own then .host else .none) (dpaKey d) n = (some b, s1)) : s.hostReadLine own d n = (b, s1) := by
  generalize hf : State.hostReadLine = f
  delta State.hostReadLine at hf
  subst hf
  beta_reduce
  rw [h]

theorem State.hostReadLine_bad (h : s.homeRead (if own then .host else .none) (dpaKey d) n = (none, s1)) :
    s.hostReadLine own d n = (viralBytes d n, s1.enterViral) := by
  generalize hf : State.hostReadLine = f
  delta State.hostReadLine at hf
  subst hf
  beta_reduce
  rw [h]

end ReadLine

/-- A host read that is not cut off: it is answered with its bytes, or waits for its line. -/
theorem hostRead_served {s : State} {d n : Nat} (own : Bool) (hl : s.linkUp = true) (hh : s.hdmHit d n = true) (hp : linePieces d n = [(d, n)])
    (hc : s.hostCut = false) (hs : s.accessStalled (dpaKey d) n false = false) (hb : s.behind [dpaKey d / 64] = false) :
    (∀ b s1, s.homeRead (if own then .host else .none) (dpaKey d) n = (some b, s1) → s1.hostCut = false →
      exec (.hostMemRead d n own) s = .next (s1.answer (.bytes b))) ∧
    (∀ s1, s.homeRead (if own then .host else .none) (dpaKey d) n = (none, s1) → ∃ v : State,
      exec (.hostMemRead d n own) s = .next v.releaseWaiting ∧ v.flag fCxl_VIRAL = true ∧ v.answers.head? = some (.bytes (viralBytes d n))) := by
  have hex := exec_hostMemRead hl hh own
  rw [State.hostRequest_serves hp (r := readReq d n own) rfl rfl hs hb, State.hostServe_read hp hc own] at hex
  refine ⟨fun b s1 h hc1 => ?_, fun s1 h => ?_⟩
  · rw [State.hostReadLine_ok h] at hex
    rw [hex]
    exact congrArg Host.Outcome.next (State.cutServes_same (hc1.trans hc.symm))
  · rw [State.hostReadLine_bad h] at hex
    have hv : (s1.enterViral.answer (.bytes (viralBytes d n))).flag fCxl_VIRAL = true := s1.enterViral_viral
    refine ⟨s1.enterViral.answer (.bytes (viralBytes d n)), ?_, hv, rfl⟩
    rw [hex, State.cutServes_cut (State.hostCut_of_viral hv), if_neg (by rw [hc]; decide)]

theorem hostRead_waits {s : State} {d n : Nat} (own : Bool) (hl : s.linkUp = true) (hh : s.hdmHit d n = true) (hp : linePieces d n = [(d, n)])
    (hc : s.hostCut = false) (hw : s.accessStalled (dpaKey d) n false = true ∨ s.behind [dpaKey d / 64] = true) :
    Completes (.hostMemRead d n own) s fun u => u.answers = s.answers ∧ u.dram = s.dram ∧ u.host.reqs = s.host.reqs ++
      [{ id := s.host.nextReq, place := s.fab.nextId, write := false, dpa := d, len := n, data := [], poison := false, own := own }] := by
  have hstall : (!s.hostCut && (s.hostStalled (readReq d n own) || s.behind (readReq d n own).lines)) = true := by
    have h1 : s.hostStalled (readReq d n own) = s.accessStalled (dpaKey d) n false := by simp [State.hostStalled, readReq, hp]
    have h2 : (readReq d n own).lines = [dpaKey d / 64] := by simp [HReq.lines, readReq, hp]
    rw [h1, h2, hc]
    simpa using hw
  have hsame : ∀ (x : HostSt) (y : FabSt), s.cutServes { s with host := x, fab := y } = { s with host := x, fab := y } := fun x y =>
    State.cutServes_same rfl
  have hex := exec_hostMemRead hl hh own
  rw [State.hostRequest, if_pos hstall] at hex
  dsimp only at hex
  rw [if_neg (show ¬(readReq d n own).write = true from Bool.false_ne_true), hsame] at hex
  exact Completes.of hex ⟨rfl, rfl, rfl⟩

/-- A host write that is not cut off and does not wait: the bytes go to the home, or the write is dropped and counted where they are protected. -/
theorem hostWrite_served {s : State} {d : Nat} {data : List Byte} (hl : s.linkUp = true) (hh : s.hdmHit d data.length = true)
    (hp : linePieces d data.length = [(d, data.length)]) (hc : s.hostCut = false)
    (hs : s.accessStalled (dpaKey d) data.length true = false) (hb : s.behind [dpaKey d / 64] = false) :
    exec (.hostMemWrite d data false) s = .next (s.hostWriteLine d data false) := by
  have hsl : sliceB data 0 data.length = data := by
    refine List.ext_getElem (by simp [sliceB]) fun i h1 h2 => ?_
    simp [sliceB, h2]
  rw [exec_hostMemWrite hl hh, State.hostRequest_serves hp (r := writeReq d data) rfl rfl hs hb, State.hostServe,
    if_pos (show (writeReq d data).write = true from rfl), if_neg (by rw [hc]; decide)]
  simp only [writeReq, hp, List.foldl_cons, List.foldl_nil, Nat.sub_self, hsl]

theorem State.hostWriteLine_free {s : State} {d : Nat} {bs : List Byte} (h : s.protectedKey (dpaKey d) bs.length = false) :
    s.hostWriteLine d bs false = s.homeWrite (s.hostHolder (dpaKey d)) (dpaKey d) bs := by
  rw [State.hostWriteLine]
  rw [if_neg (by rw [h]; decide), if_neg Bool.false_ne_true]

theorem State.hostWriteLine_protected {s : State} {d : Nat} {bs : List Byte} (h : s.protectedKey (dpaKey d) bs.length = true) :
    (s.hostWriteLine d bs false).dram = s.dram ∧
    (s.hostWriteLine d bs false).fld fCxl_PROT_DROP = (s.fld fCxl_PROT_DROP + 1) % 2 ^ 64 := by
  rw [State.hostWriteLine]
  rw [if_pos h]
  refine ⟨(State.event_sameStores ..).dram.trans ((State.inc_dram ..).trans (State.inc_dram ..)), ?_⟩
  rw [State.fld_congr (State.event_regs ..), State.inc, State.fld_setFld_apart _ _ rfl (by decide), State.inc, State.fld_setFld_same _ _ rfl]
  rfl

/-- A request that has waited too long is completed as if its line were uncorrectable. -/
theorem hostTimeout_completes {s : State} {r : HReq} (hr : s.host.reqs = [r]) (hv : s.flag fCxl_VIRAL = false) :
    ∃ v : State, exec (.hostMemTimeout r.id) s = .next (if s.hostCut then v else v.releaseWaiting) ∧ v.host.reqs = [] ∧
      v.flag fCxl_VIRAL = true ∧ v.fld fSafe_LAST_CLASS = 0x49 ∧ v.mem.hostLines = [] ∧
      (r.write = false → .bytes (viralBytes r.dpa r.len) ∈ v.answers) := by
  have he : exec (.hostMemTimeout r.id) s = execHostMemTimeout r.id s := rfl
  have hfind : s.host.reqs.find? (fun x => x.id == r.id) = some r := by rw [hr]; simp
  have hdrop : (s.dropHReq r.id).host.reqs = [] := by
    show s.host.reqs.filter _ = []
    rw [hr]
    simp
  obtain ⟨z, hz, hzq, hzr, hza⟩ : ∃ z : State, z = (if r.write then s.dropHReq r.id else (s.dropHReq r.id).answer (.bytes (viralBytes r.dpa r.len))) ∧
      z.host.reqs = [] ∧ z.regs = s.regs ∧ (r.write = false → .bytes (viralBytes r.dpa r.len) ∈ z.answers) := by
    refine ⟨_, rfl, ?_, ?_, fun hw => ?_⟩
    · split <;> exact hdrop
    · split <;> rfl
    · rw [hw]
      exact List.mem_cons_self
  have hrv : (z.viralRecord 0x49 (BitVec.ofNat 64 r.dpa)).flag fCxl_VIRAL = false := by
    rw [State.viralRecord, State.flag, State.report_fld _ _ _ ⟨by decide, by decide, by decide⟩, State.fld_congr hzr]
    exact hv
  have hviral := State.setViral_viral (z.viralRecord 0x49 (BitVec.ofNat 64 r.dpa))
  obtain ⟨hh, -, ha, hf⟩ := State.setViral_keeps (z.viralRecord 0x49 (BitVec.ofNat 64 r.dpa))
  refine ⟨(z.viralRecord 0x49 (BitVec.ofNat 64 r.dpa)).setViral, ?_, ?_, hviral, ?_, State.setViral_lines hrv, fun hw => ?_⟩
  · rw [he, execHostMemTimeout, hfind]
    dsimp only
    rw [← hz, State.cutServes_cut (State.hostCut_of_viral hviral)]
  · rw [hh, State.viralRecord, State.report_host, hzq]
  · rw [hf _ (by decide), State.viralRecord, State.report_lastClass _ _ _ (show 0x49 < 256 by decide)]
  · obtain ⟨l, hl⟩ := State.report_answers z { cls := 0x49, react := 1, page := cxlPage, loc0 := BitVec.ofNat 64 r.dpa } (some (logFatal, .viral))
    rw [ha, State.viralRecord, hl]
    exact List.mem_append_right _ (hza hw)

/-- Settles O44: reads, writes and the waiting request, each by the case of its definition. -/
theorem hostReadsAndWritesDeviceMemory : Obligations.HostReadsAndWritesDeviceMemory := by
  intro s d n own hl hh hp key
  refine ⟨fun hc => ?_, fun hc hs hb => hostRead_served own hl hh hp hc hs hb, fun hc hw => hostRead_waits own hl hh hp hc hw, fun data hlen hn => ?_,
    fun r hr hv _ => hostTimeout_completes hr hv⟩
  · rw [exec_hostMemRead hl hh own, State.hostRequest_cut hc, State.hostServe,
      if_neg (show ¬(readReq d n own).write = true from Bool.false_ne_true), if_pos hc]
    exact congrArg Host.Outcome.next (State.cutServes_same rfl)
  · subst hlen
    refine ⟨fun hc => ?_, fun hc hs hb => ⟨fun hprot => ?_, fun hprot => ?_⟩⟩
    · rw [exec_hostMemWrite hl hh, State.hostRequest_cut hc, State.hostServe, if_pos (show (writeReq d data).write = true from rfl), if_pos hc]
    · rw [hostWrite_served hl hh hp hc hs hb, State.hostWriteLine_free hprot]
    · exact Completes.of (hostWrite_served hl hh hp hc hs hb) (State.hostWriteLine_protected hprot)

end Sys2Proof.Machine
end

section
/-! # Events of the host link -/
namespace Sys2Proof.Machine

/-! ### Events of the host link (R356 to R360, R369 to R371) -/

/-- The loss of the host: its lines and the snoops it owes are gone, memory stays. -/
theorem State.loseHost_keeps (s : State) : s.loseHost.mem.hostLines = [] ∧ s.loseHost.mem.bi = [] ∧ s.loseHost.dram = s.dram ∧
    s.loseHost.flag fCxl_HOST_LOST = true ∧
    (∀ f : Fld, fCxl_HOST_LOST.apart f = true → fCxl_HOST_LINES_LOST.apart f = true → s.loseHost.fld f = s.fld f) ∧
    s.loseHost.fld fCxl_HOST_LINES_LOST =
      (s.fld fCxl_HOST_LINES_LOST + (s.mem.hostLines.filter fun e => e.2.modified).length) % 2 ^ 64 := by
  refine ⟨rfl, rfl, (State.dropHostLines_frame _).2.1.trans (State.setFlag_dram ..), ?_, fun f h1 h2 => ?_, ?_⟩
  · obtain ⟨x, hx⟩ := s.loseHost_eq
    rw [hx]
    generalize s.withMem x = z
    have h := State.flag_setFlag_same z (f := fCxl_HOST_LOST) true rfl rfl
    rw [State.flag] at h
    rw [State.flag, State.fld_dropHostLines _ (by decide), h]
  · obtain ⟨x, hx⟩ := s.loseHost_eq
    rw [hx, State.fld_dropHostLines _ h2, State.fld_setFlag_apart _ _ rfl h1]
    rfl
  · have hd : ∀ t : State, t.dropHostLines.fld fCxl_HOST_LINES_LOST =
        (t.fld fCxl_HOST_LINES_LOST + (t.mem.hostLines.filter fun e => e.2.modified).length) % 2 ^ 64 := fun t =>
      State.fld_setFld_same _ _ rfl
    rw [State.loseHost, hd, State.fld_setFlag_apart _ _ rfl (by decide)]
    rfl

section Events
variable {s : State}

theorem exec_biTimeout (line : Nat) : exec (.biTimeout line) s = .next (if s.mem.bi.contains line then s.loseHost.releaseWaiting else s) := rfl

theorem exec_hostSnoop (h1 : s.linkUp = true) (h2 : s.hostUp = true) (hpa : Nat) : exec (.hostSnoop hpa) s =
    .next ((s.setHline (hpa / 64) HLine.none).answer (.bytes (if (s.hline (hpa / 64)).modified then (s.hline (hpa / 64)).bytes else []))) := by
  have he : exec (.hostSnoop hpa) s = execHostSnoop hpa s := rfl
  rw [he, execHostSnoop, if_neg (by rw [h1, h2]; decide)]

theorem State.hline_setHline_same (l : Nat) (x : HLine) : (s.setHline l x).hline l = x := tabGet_set_same _ _ _ _

theorem State.hline_setHline_ne {l l' : Nat} (x : HLine) (h : l' ≠ l) : (s.setHline l x).hline l' = s.hline l' := tabGet_set_ne _ _ _ h

/-- The state at a lost link, before what waits goes on. -/
def State.linkGone (s : State) : State := (((s.setFld fCxl_RATE 0).setFld fCxl_WIDTH 0).addSat fCxl_LINK_DOWNS 1).loseHost

theorem State.linkGone_fields : s.linkGone.linkUp = false ∧ s.linkGone.flag fCxl_HOST_LOST = true ∧ s.linkGone.mem.hostLines = [] ∧
    s.linkGone.fld fCxl_LINK_DOWNS = min (s.fld fCxl_LINK_DOWNS + 1) (2 ^ 32 - 1) ∧
    s.linkGone.fld fCxl_HOST_LINES_LOST =
      (s.fld fCxl_HOST_LINES_LOST + (s.mem.hostLines.filter fun e => e.2.modified).length) % 2 ^ 64 := by
  obtain ⟨z, hz⟩ : ∃ z, z = (s.setFld fCxl_RATE 0).setFld fCxl_WIDTH 0 := ⟨_, rfl⟩
  have hrate : z.fld fCxl_RATE = 0 := by
    rw [hz, State.fld_setFld_apart _ _ rfl (by decide), State.fld_setFld_same _ _ rfl]
    rfl
  have hother : ∀ f : Fld, fCxl_RATE.apart f = true → fCxl_WIDTH.apart f = true → z.fld f = s.fld f := fun f h1 h2 => by
    rw [hz, State.fld_setFld_apart _ _ rfl h2, State.fld_setFld_apart _ _ rfl h1]
  have hmem : z.mem = s.mem := by rw [hz, State.setFld_mem, State.setFld_mem]
  obtain ⟨hl, -, -, hlost, hf, hn⟩ := State.loseHost_keeps (z.addSat fCxl_LINK_DOWNS 1)
  rw [State.linkGone, ← hz]
  refine ⟨?_, hlost, hl, ?_, ?_⟩
  · rw [State.linkUp, hf _ (by decide) (by decide), State.addSat, State.fld_setFld_apart _ _ rfl (by decide), hrate]
    rfl
  · rw [hf _ (by decide) (by decide), State.fld_addSat_same _ rfl, hother _ (by decide) (by decide)]
    rfl
  · rw [hn, State.addSat_mem, hmem, State.addSat, State.fld_setFld_apart _ _ rfl (by decide), hother _ (by decide) (by decide)]

theorem State.linkDown_up (h : s.linkUp = true) : s.linkDown = s.linkGone.releaseWaiting := if_pos h

/-- Link encryption that fails takes the encryption down, and the host into Viral. -/
theorem ideIntegrityFailure_acts (h : s.flag fCxl_IDE_SECURE = true) (hv : s.flag fCxl_VIRAL = false) : ∃ v : State,
    exec .ideIntegrityFailure s = .next (if s.hostCut then v else v.releaseWaiting) ∧ v.flag fCxl_IDE_SECURE = false ∧
      v.flag fCxl_VIRAL = true ∧ v.host.ideBad = true := by
  have he : exec .ideIntegrityFailure s = execIdeIntegrityFailure s := rfl
  obtain ⟨z, hz, hzr, hzb⟩ : ∃ z : State, z = { s.draw.2 with host := { s.host with rasUncorr := true, ideBad := true } } ∧
      z.regs = s.regs ∧ z.host.ideBad = true := ⟨_, rfl, rfl, rfl⟩
  generalize hcls : (Config.unstated s.fresh).toNat % 256 = cls
  have hfree : ∀ f ∈ [fCxl_IDE_SECURE, fCxl_VIRAL], f.ReportFree := by
    intro f hf
    simp only [List.mem_cons, List.not_mem_nil, or_false] at hf
    rcases hf with rfl | rfl <;> exact ⟨by decide, by decide, by decide⟩
  obtain ⟨y, hy, hys, hyv, hyb⟩ : ∃ y : State, y = (z.setFlag fCxl_IDE_SECURE false).viralRecord cls 0 ∧ y.flag fCxl_IDE_SECURE = false ∧
      y.flag fCxl_VIRAL = false ∧ y.host.ideBad = true := by
    refine ⟨_, rfl, ?_, ?_, ?_⟩
    · rw [State.viralRecord, State.flag, State.report_fld _ _ _ (hfree _ (by simp))]
      exact State.flag_setFlag_same _ _ rfl rfl
    · rw [State.viralRecord, State.flag, State.report_fld _ _ _ (hfree _ (by simp)), State.fld_setFlag_apart _ _ rfl (by decide),
        State.fld_congr hzr]
      exact hv
    · rw [State.viralRecord, State.report_host, State.setFlag_host, hzb]
  refine ⟨y.setViral, ?_, ?_, y.setViral_viral, by rw [y.setViral_keeps.1, hyb]⟩
  · rw [he, execIdeIntegrityFailure, if_pos h, hcls]
    dsimp only
    rw [← hz, ← hy, State.cutServes_cut (State.hostCut_of_viral y.setViral_viral)]
  · rw [State.flag_setViral_of_clear hyv (by decide) (by decide), State.flag_setFlag_apart _ _ rfl (by decide), hys]

/-- The state after a reset of the link, before what waits goes on. -/
def State.linkFresh (s : State) : State :=
  let s1 := (((s.draw.2.draw.2.draw.2.setFld fCxl_RATE (if Config.outcome s.fresh then 2 else 1)).setFld fCxl_WIDTH
    (if Config.outcome (s.fresh + 1) then 16 else 8)).setFlag fCxl_LO_FLIT (Config.outcome (s.fresh + 2))).setFlag fCxl_HOST_LOST false
  let s2 := if s1.flag fSafe_SAFE then s1 else s1.setFlag fCxl_VIRAL false
  let s3 := (s2.setFlag fCxl_IDE_SECURE false).setFlag fCxl_CACHE_EN (!s2.flag fCxl_IDE_POL)
  { s3 with host := { s3.host with ideBad := false }, sec := { s3.sec with nonce := none } }

theorem State.linkReset_run (h : s.pwr.mode = .run) : s.linkReset = s.linkFresh.releaseWaiting := if_neg (not_not_intro h)

end Events

theorem State.fld_withHostSec (z : State) (x : HostSt) (y : SecSt) (f : Fld) : ({ z with host := x, sec := y } : State).fld f = z.fld f := rfl

theorem State.linkFresh_fields (s : State) : s.linkFresh.flag fCxl_HOST_LOST = false ∧
    s.linkFresh.flag fCxl_VIRAL = (s.flag fCxl_VIRAL && s.flag fSafe_SAFE) ∧ s.linkFresh.flag fCxl_IDE_SECURE = false ∧
    s.linkFresh.linkUp = true ∧ s.linkFresh.host.ideBad = false ∧ s.linkFresh.host.evPolicy = s.host.evPolicy ∧ s.linkFresh.dram = s.dram ∧
    s.linkFresh.thr = s.thr := by
  unfold State.linkFresh
  generalize hr : (if Config.outcome s.fresh then 2 else 1) = rate
  generalize (if Config.outcome (s.fresh + 1) then 16 else 8) = width
  generalize Config.outcome (s.fresh + 2) = lo
  have hrate : rate = 1 ∨ rate = 2 := by
    rw [← hr]
    split
    · exact .inr rfl
    · exact .inl rfl
  obtain ⟨y, hy, hyr, hyh, hyd, hyt⟩ : ∃ y : State, s.draw.2.draw.2.draw.2 = y ∧ y.regs = s.regs ∧ y.host = s.host ∧ y.dram = s.dram ∧
      y.thr = s.thr := ⟨_, rfl, rfl, rfl, rfl, rfl⟩
  rw [hy]
  obtain ⟨s1, hs1, hlost, hup, hf1, hk1⟩ : ∃ s1 : State, (((y.setFld fCxl_RATE rate).setFld fCxl_WIDTH width).setFlag fCxl_LO_FLIT lo).setFlag
      fCxl_HOST_LOST false = s1 ∧ s1.flag fCxl_HOST_LOST = false ∧ s1.fld fCxl_RATE = rate ∧
      (∀ f : Fld, fCxl_RATE.apart f = true → fCxl_WIDTH.apart f = true → fCxl_LO_FLIT.apart f = true → fCxl_HOST_LOST.apart f = true →
        s1.flag f = s.flag f) ∧ s1.host = s.host ∧ s1.dram = s.dram ∧ s1.thr = s.thr := by
    refine ⟨_, rfl, State.flag_setFlag_same _ _ rfl rfl, ?_, fun f h1 h2 h3 h4 => ?_, ?_, ?_, ?_⟩
    · rw [State.fld_setFlag_apart _ _ rfl (by decide), State.fld_setFlag_apart _ _ rfl (by decide), State.fld_setFld_apart _ _ rfl (by decide)]
      refine State.fld_setFld_fits _ rfl ?_
      show rate < 4
      omega
    · rw [State.flag_setFlag_apart _ _ rfl h4, State.flag_setFlag_apart _ _ rfl h3, State.flag, State.fld_setFld_apart _ _ rfl h2,
        State.fld_setFld_apart _ _ rfl h1, State.fld_congr hyr, State.flag]
    · rw [State.setFlag_host, State.setFlag_host, State.setFld_host, State.setFld_host, hyh]
    · rw [State.setFlag_dram, State.setFlag_dram, State.setFld_dram, State.setFld_dram, hyd]
    · rw [State.setFlag_thr, State.setFlag_thr, State.setFld_thr, State.setFld_thr, hyt]
  rw [hs1]
  obtain ⟨hh1, hd1, ht1⟩ := hk1
  obtain ⟨s2, hs2, hv2, hf2, hh2, hd2, ht2⟩ : ∃ s2 : State, (if s1.flag fSafe_SAFE then s1 else s1.setFlag fCxl_VIRAL false) = s2 ∧
      s2.flag fCxl_VIRAL = (s.flag fCxl_VIRAL && s.flag fSafe_SAFE) ∧ (∀ f : Fld, fCxl_VIRAL.apart f = true → s2.fld f = s1.fld f) ∧
      s2.host = s.host ∧ s2.dram = s.dram ∧ s2.thr = s.thr := by
    refine ⟨_, rfl, ?_, fun f hf => ?_, ?_, ?_, ?_⟩
    · rw [hf1 fSafe_SAFE (by decide) (by decide) (by decide) (by decide)]
      split
      next h => rw [h, Bool.and_true, hf1 _ (by decide) (by decide) (by decide) (by decide)]
      next h =>
        rw [State.flag_setFlag_same _ _ rfl rfl, Bool.eq_false_iff.2 h, Bool.and_false]
    · split
      · rfl
      · exact State.fld_setFlag_apart _ _ rfl hf
    · split
      · exact hh1
      · rw [State.setFlag_host, hh1]
    · split
      · exact hd1
      · rw [State.setFlag_dram, hd1]
    · split
      · exact ht1
      · rw [State.setFlag_thr, ht1]
  dsimp only
  rw [hs2]
  obtain ⟨s3, hs3, hsec, hf3, hh3, hd3, ht3⟩ : ∃ s3 : State, (s2.setFlag fCxl_IDE_SECURE false).setFlag fCxl_CACHE_EN (!s2.flag fCxl_IDE_POL) = s3 ∧
      s3.flag fCxl_IDE_SECURE = false ∧ (∀ f : Fld, fCxl_IDE_SECURE.apart f = true → fCxl_CACHE_EN.apart f = true → s3.fld f = s2.fld f) ∧
      s3.host = s.host ∧ s3.dram = s.dram ∧ s3.thr = s.thr := by
    refine ⟨_, rfl, ?_, fun f h1 h2 => ?_, ?_, ?_, ?_⟩
    · rw [State.flag_setFlag_apart _ _ rfl (by decide), State.flag_setFlag_same _ _ rfl rfl]
    · rw [State.fld_setFlag_apart _ _ rfl h2, State.fld_setFlag_apart _ _ rfl h1]
    · rw [State.setFlag_host, State.setFlag_host, hh2]
    · rw [State.setFlag_dram, State.setFlag_dram, hd2]
    · rw [State.setFlag_thr, State.setFlag_thr, ht2]
  rw [hs3]
  have kf := s3.fld_withHostSec { s3.host with ideBad := false } { s3.sec with nonce := none }
  refine ⟨?_, ?_, ?_, ?_, rfl, congrArg HostSt.evPolicy hh3, hd3, ht3⟩
  · rw [State.flag, kf, hf3 _ (by decide) (by decide), hf2 _ (by decide)]
    exact hlost
  · rw [State.flag, kf, hf3 _ (by decide) (by decide)]
    exact hv2
  · rw [State.flag, kf]
    exact hsec
  · rw [State.linkUp, kf, hf3 _ (by decide) (by decide), hf2 _ (by decide), hup]
    rcases hrate with rfl | rfl <;> rfl

/-- Settles O45: every event as its handler, with the fields it leaves. -/
theorem hostLinkEventsAct : Obligations.HostLinkEventsAct := by
  intro s
  refine ⟨fun line => ⟨fun hm => ?_, fun hm => ?_⟩, fun hl hh hpa => ?_, fun hl c hc => ?_, fun hs hv => ideIntegrityFailure_acts hs hv,
    fun hs => ?_, fun hr => ?_, fun hr => ?_, fun base size hl hfit hide => ?_, fun base size hbig => ?_, fun hl hsess hbad => ?_⟩
  · obtain ⟨h1, h2, h3, h4, -, -⟩ := s.loseHost_keeps
    refine ⟨s.loseHost, ?_, h4, h1, h2, h3⟩
    rw [exec_biTimeout, if_pos (List.contains_iff_mem.2 hm)]
  · rw [exec_biTimeout, if_neg (fun h => hm (List.contains_iff_mem.1 h))]
  · exact Completes.of (exec_hostSnoop hl hh hpa) ⟨State.hline_setHline_same _ _, rfl, fun l hne => State.hline_setHline_ne _ hne⟩
  · refine ⟨s.linkGone, ?_, State.linkGone_fields⟩
    rw [← State.linkDown_up hl]
    simp only [List.mem_cons, List.not_mem_nil, or_false] at hc
    rcases hc with rfl | rfl <;> rfl
  · have he : exec .ideIntegrityFailure s = execIdeIntegrityFailure s := rfl
    rw [he, execIdeIntegrityFailure, if_neg (by rw [hs]; decide)]
  · have he : exec .hotReset s = .next s.linkReset := rfl
    exact ⟨s.linkFresh, by rw [he, State.linkReset_run hr], s.linkFresh_fields⟩
  · have he : exec .hotReset (s.writeBackHost.jobEnd none) = .next (s.writeBackHost.jobEnd none).linkReset := rfl
    have hx : exec .cxlReset s = execCxlReset s := rfl
    refine ⟨_, he, rfl, ?_⟩
    generalize hw : (s.writeBackHost.jobEnd none).linkReset = w
    refine Completes.of (u := { w with host := { w.host with evPolicy := [] } }) ?_ ⟨rfl, rfl, rfl, rfl⟩
    rw [hx, execCxlReset, if_neg (not_not_intro hr), hw]
  · have he : exec (.hdmDecoderCommit base size) s = execHdmDecoderCommit base size s := rfl
    have hno : ¬((!s.linkUp) = true ∨ s.hdmBytes < size * 2 ^ 28 ∨ (s.flag fCxl_IDE_POL = true ∧ (!s.flag fCxl_IDE_SECURE) = true)) := by
      rintro (h | h | ⟨h, h'⟩)
      · rw [hl] at h; cases h
      · exact absurd hfit (Nat.not_le.2 h)
      · obtain hp | hp := hide
        · rw [hp] at h; cases h
        · rw [hp] at h'; cases h'
    rw [execHdmDecoderCommit, if_neg hno] at he
    exact Completes.of he ⟨rfl, rfl, State.flag_setFlag_same _ _ rfl rfl⟩
  · have he : exec (.hdmDecoderCommit base size) s = execHdmDecoderCommit base size s := rfl
    rw [he, execHdmDecoderCommit, if_pos (.inr (.inl hbig))]
  · have he : exec .cxlIdeKeyManagement s = execCxlIdeKeyManagement s := rfl
    rw [execCxlIdeKeyManagement, if_pos ⟨hl, hsess, by rw [hbad]; rfl⟩] at he
    refine Completes.of he ⟨?_, State.flag_setFlag_same _ _ rfl rfl⟩
    rw [State.flag_setFlag_apart _ _ rfl (by decide), State.flag_setFlag_same _ _ rfl rfl]

end Sys2Proof.Machine
end

section
/-! # Requests of other packages -/
namespace Sys2Proof.Machine

/-! ### Requests of other packages (R265, R266, R271) -/

section Served
variable {s s1 s2 : State}

theorem State.homePerform_read {key len aop aw : Nat} {data : List Byte} {b : List Byte} (h : s.homeRead .none key len = (some b, s1)) :
    s.homePerform 1 key len aop aw data = (.ok b, s1) := by
  generalize hf : State.homePerform = f
  delta State.homePerform at hf
  subst hf
  beta_reduce
  rw [if_pos rfl, h]

theorem State.homePerform_read_bad {key len aop aw : Nat} {data : List Byte} (h : s.homeRead .none key len = (none, s1)) :
    s.homePerform 1 key len aop aw data = (.refused 0x0C, s1) := by
  generalize hf : State.homePerform = f
  delta State.homePerform at hf
  subst hf
  beta_reduce
  rw [if_pos rfl, h]

theorem State.homePerform_write (key len aop aw : Nat) (data : List Byte) :
    s.homePerform 2 key len aop aw data = (.ok [], s.homeWrite .none key data) := by
  generalize hf : State.homePerform = f
  delta State.homePerform at hf
  subst hf
  beta_reduce
  rw [if_neg (by decide), if_pos rfl]

theorem State.homePerform_amo {key len aop aw old : Nat} {data : List Byte} (h9 : aop ≠ 9)
    (h : s.homeAmo .none key (awBytes aw) aop (leNat (sliceB data 0 (awBytes aw))) (leNat (sliceB data 0 (awBytes aw))) = (some old, s1)) :
    s.homePerform 4 key len aop aw data = (.ok (natLE (awBytes aw) old), s1) := by
  generalize hf : State.homePerform = f
  delta State.homePerform at hf
  subst hf
  beta_reduce
  rw [if_neg (by decide), if_neg (by decide)]
  dsimp only
  rw [if_neg h9, h]

/-- An accepted request that need not wait, of which the combiner takes no part, is performed and answered. -/
theorem State.serveReq_ok {r : HomeReq} {b : List Byte} (hb : s.behind r.lines = false)
    (hs : s.accessStalled r.key (reqBytes r.cmd r.len r.aw r.data.length) (cmdWrites r.cmd) = false) (hg : r.get = none)
    (hc : r.combines = false) (h : s.homePerform r.cmd r.key r.len r.aop r.aw r.data = (.ok b, s1)) : s.serveReq r = s1.answerReq r b := by
  have hp : s.performReq r = s1.answerReq r b := by
    generalize hf : State.performReq = f
    delta State.performReq at hf
    subst hf
    beta_reduce
    rw [h]
  have ht : s.tryReq r = (true, s.performReq r) := by
    rw [State.tryReq, if_neg (by rw [hs]; decide), if_neg (by rw [hg]; decide), if_neg (by rw [hc]; decide)]
  rw [State.serveReq, if_neg (by rw [hb]; decide), ht]
  exact hp

theorem State.serveReq_refused {r : HomeReq} {c : Nat} (hb : s.behind r.lines = false)
    (hs : s.accessStalled r.key (reqBytes r.cmd r.len r.aw r.data.length) (cmdWrites r.cmd) = false) (hg : r.get = none)
    (hc : r.combines = false) (h : s.homePerform r.cmd r.key r.len r.aop r.aw r.data = (.refused c, s1)) :
    s.serveReq r = s1.nakTo r.src r.job r.addr r.tag c := by
  have hp : s.performReq r = s1.nakTo r.src r.job r.addr r.tag c := by
    generalize hf : State.performReq = f
    delta State.performReq at hf
    subst hf
    beta_reduce
    rw [h]
  have ht : s.tryReq r = (true, s.performReq r) := by
    rw [State.tryReq, if_neg (by rw [hs]; decide), if_neg (by rw [hg]; decide), if_neg (by rw [hc]; decide)]
  rw [State.serveReq, if_neg (by rw [hb]; decide), ht]
  exact hp

end Served

/-- The window's checks in the order of Table 11.9. -/
theorem State.checkWindow_refuses (s : State) (cmd src job addr n c : Nat)
    (h : let w := s.window (addr / 2 ^ 34 % 2 ^ 14)
      (w.valid = false ∧ c = 6) ∨ (w.valid = true ∧ w.job ≠ job ∧ c = 7) ∨
      (w.valid = true ∧ w.job = job ∧ (src < w.srcLo ∨ w.srcHi < src) ∧ c = 8) ∨
      (w.valid = true ∧ w.job = job ∧ ¬(src < w.srcLo ∨ w.srcHi < src) ∧ w.len < addr % 2 ^ 34 + n ∧ c = 9) ∨
      (w.valid = true ∧ w.job = job ∧ ¬(src < w.srcLo ∨ w.srcHi < src) ∧ addr % 2 ^ 34 + n ≤ w.len ∧ w.allows cmd = false ∧ c = 10)) :
    s.checkWindow cmd src job addr n = (c, 0) := by
  have hbits : bitsOf addr 47 34 = addr / 2 ^ 34 % 2 ^ 14 := by rw [bitsOf, Nat.shiftRight_eq_div_pow]
  have hoff : bitsOf addr 33 0 = addr % 2 ^ 34 := by rw [bitsOf, Nat.shiftRight_zero]
  rw [State.checkWindow, hbits, hoff]
  generalize s.window (addr / 2 ^ 34 % 2 ^ 14) = w at h ⊢
  generalize addr % 2 ^ 34 = off at h ⊢
  dsimp only at h ⊢
  rcases h with ⟨hv, rfl⟩ | ⟨hv, hj, rfl⟩ | ⟨hv, hj, hs, rfl⟩ | ⟨hv, hj, hs, hl, rfl⟩ | ⟨hv, hj, hs, hl, ha, rfl⟩
  · rw [if_pos (by rw [hv]; rfl)]
  · rw [if_neg (by rw [hv]; decide), if_pos hj]
  · rw [if_neg (by rw [hv]; decide), if_neg (not_not_intro hj), if_pos hs]
  · rw [if_neg (by rw [hv]; decide), if_neg (not_not_intro hj), if_neg hs, if_pos hl]
  · rw [if_neg (by rw [hv]; decide), if_neg (not_not_intro hj), if_neg hs, if_neg (by omega), if_pos (by rw [ha]; rfl)]

section Arrive
variable {s : State} {port : Nat} {k : Packet}

theorem State.arrive_forward (hp : s.portState port = 2) (hd : k.addr.toNat / 2 ^ 48 ≠ s.pkgId) (cmd : Nat) :
    s.arrive port cmd k = (s.forward cmd k).giveCredit port 0 (pktSlots k) := by
  rw [State.arrive, if_neg (not_not_intro hp), if_neg hd]

theorem State.arrive_here (hp : s.portState port = 2) (hd : k.addr.toNat / 2 ^ 48 = s.pkgId) (cmd : Nat) :
    s.arrive port cmd k = (s.arrivesHere port cmd k).giveCredit port 0 (pktSlots k) := by
  rw [State.arrive, if_neg (not_not_intro hp), if_pos hd]

/-- The checks of a request before its window or counter, in the order of Table 11.9. -/
theorem State.checkArrival_crc {cmd : Nat} (h : k.e2e ≠ crc32c (pktBytes cmd k)) : s.checkArrival port cmd k = 3 := if_pos h

variable {cmd : Nat} (he : k.e2e = crc32c (pktBytes cmd k)) (hv : s.fld (fPort_VERSION port) ≠ 1)
include he

theorem State.checkArrival_unknown (hk : knownCmd cmd k.aop k.aw = false) : s.checkArrival port cmd k = 4 := by
  rw [State.checkArrival, if_neg (not_not_intro he), if_pos (.inl (by rw [hk]; rfl))]

include hv

theorem State.checkArrival_safe (hk : knownCmd cmd k.aop k.aw = true) (hs : s.flag fSafe_SAFE = true) : s.checkArrival port cmd k = 5 := by
  rw [State.checkArrival, if_neg (not_not_intro he), if_neg, if_pos hs]
  rintro (h | ⟨h, -⟩)
  · rw [hk] at h; cases h
  · exact hv h

theorem State.checkArrival_good (hk : knownCmd cmd k.aop k.aw = true) (hs : s.flag fSafe_SAFE = false) : s.checkArrival port cmd k = 0 := by
  rw [State.checkArrival, if_neg (not_not_intro he), if_neg, if_neg (by rw [hs]; decide)]
  rintro (h | ⟨h, -⟩)
  · rw [hk] at h; cases h
  · exact hv h

end Arrive

section Here
variable {s : State} {port cmd : Nat} {k : Packet}

theorem State.arrivesHere_refused {c : Nat} (h : s.checkArrival port cmd k = c) (h0 : c ≠ 0) : s.arrivesHere port cmd k =
    (if c = 3 then s.integrity port k.addr else s).nakTo k.src k.job k.addr.toNat k.tag c := by
  rw [State.arrivesHere]
  dsimp only
  rw [h, if_pos h0]

variable (h0 : s.checkArrival port cmd k = 0)
include h0

theorem State.arrivesHere_window {c : Nat} {key : Nat} (hc : cmd ≠ 5)
    (hw : s.checkWindow cmd k.src k.job k.addr.toNat (reqBytes cmd k.len k.aw k.data.length) = (c, key)) : s.arrivesHere port cmd k =
    if c ≠ 0 then s.nakTo k.src k.job k.addr.toNat k.tag c
    else s.serveReq { id := 0, port := port, cmd := cmd, key := key, len := k.len, src := k.src, job := k.job, addr := k.addr.toNat,
                      tag := k.tag, aop := k.aop, aw := k.aw, data := k.data, get := none } := by
  rw [State.arrivesHere]
  dsimp only
  rw [h0, if_neg (not_not_intro rfl), if_neg hc, hw]

theorem State.arrivesHere_cadd (hc : cmd = 5) : s.arrivesHere port cmd k =
    if s.counterOf (k.addr.toNat % 4096) k.job then
      (s.addCounter (k.addr.toNat % 4096) (leNat k.data % 2 ^ 63) (bitAt (leNat k.data) 63)).send (respPkt 0x11 k.src k.job k.addr.toNat k.tag 0 [])
    else s.nakTo k.src k.job k.addr.toNat k.tag 14 := by
  rw [State.arrivesHere]
  dsimp only
  rw [h0, if_neg (not_not_intro rfl), if_pos hc, State.caddApply]
  by_cases h : s.counterOf (k.addr.toNat % 4096) k.job = true
  · rw [if_pos h, if_pos h]
  · rw [if_neg h, if_neg h]

end Here

theorem exec_request (s : State) (port : Fin 16) (k : Packet) :
    ∀ e ∈ [((1 : Nat), Instr.rd port k), (2, Instr.wr port k), (4, Instr.amo port k), (5, Instr.cadd port k)],
      exec e.2 s = .next (s.arrive port e.1 k) ∧ (e.1 = 1 ∨ e.1 = 2 ∨ e.1 = 4 ∨ e.1 = 5) := by
  intro e he
  simp only [List.mem_cons, List.not_mem_nil, or_false] at he
  rcases he with rfl | rfl | rfl | rfl
  · exact ⟨rfl, .inl rfl⟩
  · exact ⟨rfl, .inr (.inl rfl)⟩
  · exact ⟨rfl, .inr (.inr (.inl rfl))⟩
  · exact ⟨rfl, .inr (.inr (.inr rfl))⟩

/-- A request that passes its checks, at its home: performed, and answered with its data or the old value. -/
theorem request_served {s : State} {port cmd : Nat} {k : Packet} (h0 : s.checkArrival port cmd k = 0) (h5 : cmd ≠ 5)
    (hcmd : cmd = 1 ∨ cmd = 2 ∨ cmd = 4) {key : Nat}
    (hw : s.checkWindow cmd k.src k.job k.addr.toNat (reqBytes cmd k.len k.aw k.data.length) = (0, key))
    (hb : s.behind (linesOf key (reqBytes cmd k.len k.aw k.data.length)) = false)
    (hs : s.accessStalled key (reqBytes cmd k.len k.aw k.data.length) (cmd != 1) = false) :
    (∀ b s2, cmd = 1 → s.homeRead .none key k.len = (some b, s2) →
      s.arrivesHere port cmd k = s2.send (respPkt 0x10 k.src k.job k.addr.toNat k.tag 0 b)) ∧
    (∀ s2, cmd = 1 → s.homeRead .none key k.len = (none, s2) → s.arrivesHere port cmd k = s2.nakTo k.src k.job k.addr.toNat k.tag 12) ∧
    (cmd = 2 → s.arrivesHere port cmd k = (s.homeWrite .none key k.data).send (respPkt 0x11 k.src k.job k.addr.toNat k.tag 0 [])) ∧
    (∀ s2 old, cmd = 4 → k.aop ≠ 0 → k.aop ≠ 9 → k.aop ≠ 10 →
      s.homeAmo .none key (awBytes k.aw) k.aop (leNat (sliceB k.data 0 (awBytes k.aw))) (leNat (sliceB k.data 0 (awBytes k.aw))) = (some old, s2) →
      s.arrivesHere port cmd k = s2.send (respPkt 0x11 k.src k.job k.addr.toNat k.tag 0 (natLE (awBytes k.aw) old))) := by
  have hwr : cmdWrites cmd = (cmd != 1) := by rcases hcmd with rfl | rfl | rfl <;> rfl
  rw [← hwr] at hs
  rw [State.arrivesHere_window h0 h5 hw, if_neg (not_not_intro rfl)]
  refine ⟨fun b s2 hc h => ?_, fun s2 hc h => ?_, fun hc => ?_, fun s2 old hc ha0 ha9 ha10 h => ?_⟩ <;> subst hc
  · exact State.serveReq_ok hb hs rfl rfl (State.homePerform_read h)
  · exact State.serveReq_refused hb hs rfl rfl (State.homePerform_read_bad h)
  · exact State.serveReq_ok hb hs rfl rfl (State.homePerform_write _ _ _ _ _)
  · exact State.serveReq_ok hb hs rfl (by simp [HomeReq.combines, ha0, ha10]) (State.homePerform_amo ha9 h)

/-- Settles O37: forwarding, every check in its order, and the service at the home. -/
theorem remoteRequestsAreServed : Obligations.RemoteRequestsAreServed := by
  intro s port k hp addr w rows gives
  have hrow : ∀ e ∈ rows, exec e.2 s = .next (s.arrive port e.1 k) ∧ (e.1 = 1 ∨ e.1 = 2 ∨ e.1 = 4 ∨ e.1 = 5) := exec_request s port k
  have hfwd : ∀ e ∈ rows, addr / 2 ^ 48 ≠ s.pkgId → gives e.2 (s.forward e.1 k) := fun e he hd => by
    rw [show gives e.2 (s.forward e.1 k) = (exec e.2 s = .next ((s.forward e.1 k).giveCredit port 0 (pktSlots k))) from rfl, (hrow e he).1,
      State.arrive_forward hp hd]
  refine ⟨fun e he hd hs hr => ?_, fun e he q hd hs hr => ?_, fun hd => ?_⟩
  · have h := hfwd e he hd
    rw [State.forward, if_neg (by rw [hs]; decide), hr] at h
    exact h
  · have h := hfwd e he hd
    rw [State.forward, if_neg (by rw [hs]; decide), hr] at h
    exact h
  have hhere : ∀ e ∈ rows, ∀ u : State, s.arrivesHere port e.1 k = u → gives e.2 u := fun e he u hu => by
    rw [show gives e.2 u = (exec e.2 s = .next (u.giveCredit port 0 (pktSlots k))) from rfl, (hrow e he).1, State.arrive_here hp hd, hu]
  refine ⟨fun e he hcrc => ?_, fun e he hcrc hv => ⟨fun hk => ?_, fun hk hs => ?_, fun hk hs => ⟨fun h5 => ?_, fun h5 => ⟨fun hc => ?_, fun hc => ?_⟩⟩⟩⟩
  · exact hhere e he _ ((State.arrivesHere_refused (State.checkArrival_crc hcrc) (by decide)).trans (by rw [if_pos rfl]))
  · exact hhere e he _ ((State.arrivesHere_refused (State.checkArrival_unknown hcrc hk) (by decide)).trans (by rw [if_neg (by decide)]))
  · exact hhere e he _ ((State.arrivesHere_refused (State.checkArrival_safe hcrc hv hk hs) (by decide)).trans (by rw [if_neg (by decide)]))
  · have h0 := State.checkArrival_good hcrc hv hk hs
    have hcmd : e.1 = 1 ∨ e.1 = 2 ∨ e.1 = 4 := by
      rcases (hrow e he).2 with h | h | h | h
      · exact .inl h
      · exact .inr (.inl h)
      · exact .inr (.inr h)
      · exact absurd h h5
    refine ⟨fun c hc => ?_, fun key hw hb hst => ?_⟩
    · have hne : c ≠ 0 := by
        rcases hc with ⟨-, h⟩ | ⟨-, -, h⟩ | ⟨-, -, -, h⟩ | ⟨-, -, -, -, h⟩ | ⟨-, -, -, -, -, h⟩ <;> omega
      refine hhere e he _ ?_
      rw [State.arrivesHere_window h0 h5 (s.checkWindow_refuses e.1 k.src k.job addr _ c hc), if_pos hne]
    · obtain ⟨hrd, hbad, hwr, hamo⟩ := request_served h0 h5 hcmd hw hb hst
      exact ⟨fun b s2 h1 h => hhere e he _ (hrd b s2 h1 h), fun s2 h1 h => hhere e he _ (hbad s2 h1 h), fun h2 => hhere e he _ (hwr h2),
        fun s2 old h4 ha0 ha9 ha10 h => hhere e he _ (hamo s2 old h4 ha0 ha9 ha10 h)⟩
  · refine hhere e he _ ?_
    rw [State.arrivesHere_cadd (State.checkArrival_good hcrc hv hk hs) h5, if_neg (by rw [hc]; decide)]
  · refine hhere e he _ ?_
    rw [State.arrivesHere_cadd (State.checkArrival_good hcrc hv hk hs) h5, if_pos hc]

end Sys2Proof.Machine
end

section
/-! # What accesses of memory leave alone, and the Canopy broadcast -/
namespace Sys2Proof.Machine

/-! ### What the accesses of memory leave alone -/

/-- The state without what an access of a home line can write: registers, memory and its marks, the stacks, threads, ports, logs, answers,
the persistent store, and a snapshot's marks. -/
def State.offHome (s : State) : State :=
  { s with fresh := 0, answers := [], regs := [], bar2 := [], dram := [], mem := State.reset.mem, stks := [], thr := State.reset.thr,
           logs := [], pst := State.reset.pst, saf := State.reset.saf, fab := FabSt.empty,
           snp := { s.snp with doomed := 0, dirty := [], stalled := [] } }

section OffHome
variable (s : State)

theorem State.offHome_of_offReport {s u : State} (h : u.offReport = s.offReport) : u.offHome = s.offHome := by
  have e : ∀ t : State, t.offHome = t.offReport.offHome := fun _ => rfl
  rw [e u, h, ← e s]

theorem State.offHome_foldl {α : Type} {f : State → α → State} (hf : ∀ t x, (f t x).offHome = t.offHome) (l : List α) :
    ∀ s : State, (l.foldl f s).offHome = s.offHome := by
  induction l with
  | nil => exact fun _ => rfl
  | cons x l ih => exact fun s => (ih _).trans (hf s x)

@[simp] theorem State.offHome_setFld (f : Fld) (v : Nat) : (s.setFld f v).offHome = s.offHome := (rfl)
@[simp] theorem State.offHome_setFlag (f : Fld) (b : Bool) : (s.setFlag f b).offHome = s.offHome := (rfl)
@[simp] theorem State.offHome_inc (f : Fld) : (s.inc f).offHome = s.offHome := rfl
@[simp] theorem State.offHome_addSat (f : Fld) (n : Nat) : (s.addSat f n).offHome = s.offHome := rfl
@[simp] theorem State.offHome_draw : s.draw.2.offHome = s.offHome := rfl
@[simp] theorem State.offHome_modStk (n : Nat) (f : StackSt → StackSt) : (s.modStk n f).offHome = s.offHome := rfl
@[simp] theorem State.offHome_setPoison (line : Nat) (b : Bool) : (s.setPoison line b).offHome = s.offHome := rfl
@[simp] theorem State.offHome_setSymErr (line : Nat) (l : List Nat) : (s.setSymErr line l).offHome = s.offHome := rfl
@[simp] theorem State.offHome_setInner (line c : Nat) : (s.setInner line c).offHome = s.offHome := rfl
@[simp] theorem State.offHome_setInjected (line : Nat) (b : Bool) : (s.setInjected line b).offHome = s.offHome := rfl
@[simp] theorem State.offHome_setDir (line : Nat) (d : Dir) : (s.setDir line d).offHome = s.offHome := rfl
@[simp] theorem State.offHome_biDone (line : Nat) (w : Bool) : (s.biDone line w).offHome = s.offHome := rfl
@[simp] theorem State.offHome_dirtyGran (g : Nat) : (s.dirtyGran g).offHome = s.offHome := rfl
@[simp] theorem State.offHome_setPcState (n p v : Nat) : (s.setPcState n p v).offHome = s.offHome := rfl
@[simp] theorem State.offHome_syncQueue (n : Nat) : (s.syncQueue n).offHome = s.offHome := rfl
@[simp] theorem State.offHome_setLastCe (n o lane : Nat) : (s.setLastCe n o lane).offHome = s.offHome := by
  simp only [State.setLastCe, State.offHome_setFld]
@[simp] theorem State.offHome_setLastUe (n o : Nat) : (s.setLastUe n o).offHome = s.offHome := by
  simp only [State.setLastUe, State.offHome_setFld]
@[simp] theorem State.offHome_setPort (p : Nat) (x : Port) : (s.setPort p x).offHome = s.offHome := rfl
@[simp] theorem State.offHome_modFab (f : FabSt → FabSt) : (s.modFab f).offHome = s.offHome := rfl
@[simp] theorem State.offHome_injDone (page : Nat) : (s.injDone page).offHome = s.offHome := rfl
@[simp] theorem State.offHome_updMem (m : MemSt) : State.offHome { s with mem := m } = s.offHome := rfl

@[simp] theorem State.offHome_event (log : Nat) (k : EvKind) (loc data : W64) (frec : List Byte) :
    (s.event log k loc data frec).offHome = s.offHome := State.offHome_of_offReport (State.offReport_event ..)

@[simp] theorem State.offHome_report (d : Det) (ev : Option (Nat × EvKind)) : (s.report d ev).offHome = s.offHome :=
  State.offHome_of_offReport (State.offReport_report ..)

@[simp] theorem State.offHome_reportR (cls page unit cause : Nat) (loc0 : W64) : (s.reportR cls page unit cause loc0).offHome = s.offHome :=
  State.offHome_report ..

@[simp] theorem State.offHome_putDram (bs : List Byte) : ∀ (s : State) (k : Nat), (s.putDram k bs).offHome = s.offHome := by
  induction bs with
  | nil => exact fun _ _ => rfl
  | cons b bs ih => exact fun s k => (ih _ _).trans rfl

@[simp] theorem State.offHome_failPc (n p : Nat) : (s.failPc n p).offHome = s.offHome := State.offHome_report ..

@[simp] theorem State.offHome_queueLane (n p lane : Nat) : (s.queueLane n p lane).offHome = s.offHome := rfl

@[simp] theorem State.offHome_markLane (n p lane : Nat) : (s.markLane n p lane).offHome = s.offHome := by
  unfold State.markLane
  split
  · rfl
  · dsimp only
    split
    · split <;> simp
    · simp
    · simp

@[simp] theorem State.offHome_countLane (n p lane k : Nat) : (s.countLane n p lane k).offHome = s.offHome := by
  unfold State.countLane
  dsimp only
  split_ifs <;> simp

@[simp] theorem State.offHome_spareRow (n pc bank row : Nat) : (s.spareRow n pc bank row).offHome = s.offHome := by
  unfold State.spareRow
  dsimp only
  split_ifs <;> simp

@[simp] theorem State.offHome_countRow (n o : Nat) : (s.countRow n o).offHome = s.offHome := by
  unfold State.countRow
  dsimp only
  split_ifs <;> simp

@[simp] theorem State.offHome_injectOn (line : Nat) : (s.injectOn line).offHome = s.offHome := by
  unfold State.injectOn
  dsimp only
  split_ifs <;> simp

@[simp] theorem State.offHome_wordWritten (line : Nat) : (s.wordWritten line).offHome = s.offHome := by simp [State.wordWritten]

@[simp] theorem State.offHome_corrected (line : Nat) (syms : List Nat) : (s.corrected line syms).offHome = s.offHome := by
  unfold State.corrected
  dsimp only
  rw [State.offHome_countRow, State.offHome_foldl (fun _ _ => State.offHome_countLane ..)]
  split_ifs <;> simp

@[simp] theorem State.offHome_miscorrected (line : Nat) : (s.miscorrected line).offHome = s.offHome := by
  unfold State.miscorrected
  rw [State.offHome_corrected, State.offHome_foldl (fun _ _ => State.offHome_putDram ..)]
  rfl

@[simp] theorem State.offHome_uncorrectable (line : Nat) (b : Bool) : (s.uncorrectable line b).offHome = s.offHome := by
  unfold State.uncorrectable
  dsimp only
  split_ifs <;> simp

@[simp] theorem State.offHome_countInner (line : Nat) : (s.countInner line).offHome = s.offHome := by
  unfold State.countInner
  split_ifs <;> simp

@[simp] theorem State.offHome_readLine (line : Nat) : (s.readLine line).2.offHome = s.offHome := by
  unfold State.readLine
  split
  case h_4 => dsimp only; split_ifs <;> simp
  all_goals simp

@[simp] theorem State.offHome_carryPoison (line : Nat) : (s.carryPoison line).offHome = s.offHome := by
  unfold State.carryPoison
  split_ifs <;> simp

@[simp] theorem State.offHome_consumed (line : Nat) : (s.consumed line).offHome = s.offHome := State.offHome_report ..

@[simp] theorem State.offHome_sramFound (line : Nat) : (s.sramFound line).offHome = s.offHome := by simp [State.sramFound]

/-- What an answer's state keeps, from the operation that gave it. -/
theorem State.offHome_snd {α : Type} {s u : State} {x : α} {p : α × State} (h : p = (x, u)) (k : p.2.offHome = s.offHome) :
    u.offHome = s.offHome := by
  subst h; exact k

@[simp] theorem State.offHome_takeLine (line : Nat) : (s.takeLine line).2.offHome = s.offHome := by
  unfold State.takeLine
  split
  · simp
  · split
    · next h => exact State.offHome_snd h (State.offHome_readLine ..)
    · next h => exact (State.offHome_carryPoison ..).trans (State.offHome_snd h (State.offHome_readLine ..))

@[simp] theorem State.offHome_consumeLine (cross : Bool) (line : Nat) : (s.consumeLine cross line).2.offHome = s.offHome := by
  unfold State.consumeLine
  split
  · simp
  split
  · simp
  · split
    · next h => exact State.offHome_snd h (State.offHome_takeLine ..)
    · next h => exact (State.offHome_consumed ..).trans (State.offHome_snd h (State.offHome_takeLine ..))

@[simp] theorem State.offHome_consumeLines (cross : Bool) (n : Nat) :
    ∀ (s : State) (line : Nat), (s.consumeLines cross line n).2.offHome = s.offHome := by
  induction n with
  | zero => exact fun _ _ => rfl
  | succ n ih =>
    intro s line
    rw [State.consumeLines]
    split
    · next h => exact (ih _ _).trans (State.offHome_snd h (State.offHome_consumeLine ..))
    · next h => exact State.offHome_snd h (State.offHome_consumeLine ..)

@[simp] theorem State.offHome_injectMsc (line : Nat) : (s.injectMsc line).offHome = s.offHome := by
  unfold State.injectMsc
  dsimp only
  split_ifs <;> simp

@[simp] theorem State.offHome_writePart (k : Nat) (bs : List Byte) : (s.writePart k bs).offHome = s.offHome := by
  unfold State.writePart
  dsimp only
  split
  · rfl
  · split <;> next h => simpa using State.offHome_snd h (State.offHome_readLine ..)

@[simp] theorem State.offHome_writeFull (line : Nat) (bs : List Byte) : (s.writeFull line bs).offHome = s.offHome := by
  unfold State.writeFull
  dsimp only
  split_ifs <;> simp

@[simp] theorem State.offHome_writeHome (k : Nat) (bs : List Byte) : (s.writeHome k bs).offHome = s.offHome := by
  unfold State.writeHome
  dsimp only
  split
  · rfl
  · refine State.offHome_foldl (fun _ _ => ?_) _ _
    split_ifs <;> simp

@[simp] theorem State.offHome_take (p : Nat) (k : OutPkt) : (s.take p k).offHome = s.offHome := by
  unfold State.take
  dsimp only
  split_ifs <;> simp

theorem State.offHome_flow (p n : Nat) : ∀ s : State, (s.flow p n).offHome = s.offHome := by
  induction n with
  | zero => exact fun _ => rfl
  | succ n ih =>
    intro s
    rw [State.flow]
    split
    · rfl
    split
    · exact (ih _).trans rfl
    split
    · exact (ih _).trans rfl
    split
    · exact (ih _).trans (State.offHome_take ..)
    · split
      · rfl
      · exact (ih _).trans rfl

@[simp] theorem State.offHome_sendOn (p : Nat) (k : OutPkt) : (s.sendOn p k).offHome = s.offHome := by
  unfold State.sendOn State.pump
  split
  · rfl
  · exact (State.offHome_flow ..).trans rfl

@[simp] theorem State.offHome_send (k : OutPkt) : (s.send k).offHome = s.offHome := by
  unfold State.send
  split <;> simp

@[simp] theorem State.offHome_biSend (line : Nat) : (s.biSend line).offHome = s.offHome := by
  unfold State.biSend
  split_ifs <;> simp

@[simp] theorem State.offHome_newerWritten (line : Nat) : (s.newerWritten line).offHome = s.offHome := by
  unfold State.newerWritten
  split_ifs <;> simp

@[simp] theorem State.offHome_dirChecked (line : Nat) : (s.dirChecked line).offHome = s.offHome := by
  unfold State.dirChecked
  dsimp only
  split <;> simp

@[simp] theorem State.offHome_homeActions (line : Nat) (w : Bool) (h : Holder) : (s.homeActions line w h).offHome = s.offHome := by
  unfold State.homeActions
  dsimp only
  split_ifs <;> simp

@[simp] theorem State.offHome_notify (line : Nat) : (s.notify line).offHome = s.offHome := by
  have hf : ∀ (t : State) (e : Nat × Ctx), State.offHome { t with thr := { t.thr with ctxs := tabSet ctxDefault t.thr.ctxs e.1 (e.2.touch line) } } = t.offHome :=
    fun _ _ => rfl
  exact State.offHome_foldl hf _ s

@[simp] theorem State.offHome_syncComb (n : Nat) : (s.syncComb n).offHome = s.offHome := by
  unfold State.syncComb
  dsimp only
  split_ifs <;> simp

@[simp] theorem State.offHome_combAnswer (r : CombReq) (old : Option Nat) : (s.combAnswer r old).offHome = s.offHome := by
  unfold State.combAnswer
  split <;> simp

@[simp] theorem State.offHome_combOne (r : CombReq) : (s.combOne r).offHome = s.offHome := by simp [State.combOne]

@[simp] theorem State.offHome_combApply (n line : Nat) : (s.combApply n line).offHome = s.offHome := by
  unfold State.combApply
  split
  · rfl
  · dsimp only
    split <;> next h =>
      have h1 := State.offHome_snd h (State.offHome_consumeLine ..)
      simp only [State.offHome_notify, State.offHome_foldl (fun t x => State.offHome_combOne t x),
        State.offHome_foldl (fun t x => State.offHome_combAnswer t x none), State.offHome_homeActions, h1, State.offHome_syncComb,
        State.offHome_modStk]

@[simp] theorem State.offHome_combFlush (line : Nat) : (s.combFlush line).offHome = s.offHome := by
  unfold State.combFlush
  split_ifs <;> simp

@[simp] theorem State.offHome_prepLines (key len : Nat) (w : Bool) (h : Holder) : (s.prepLines key len w h).offHome = s.offHome :=
  State.offHome_foldl (fun _ _ => by simp) _ _

@[simp] theorem State.offHome_homeRead (h : Holder) (key len : Nat) : (s.homeRead h key len).2.offHome = s.offHome := by
  unfold State.homeRead
  dsimp only
  split <;> next e => exact (State.offHome_snd e (State.offHome_consumeLines ..)).trans (State.offHome_prepLines ..)

@[simp] theorem State.offHome_homeWrite (h : Holder) (key : Nat) (bs : List Byte) : (s.homeWrite h key bs).offHome = s.offHome := by
  unfold State.homeWrite
  split
  · rfl
  · exact (State.offHome_foldl (fun _ _ => State.offHome_notify ..) _ _).trans (by simp)

end OffHome

/-! ### The Canopy registers (Table 12.12) -/

theorem State.offHome_can {s u : State} (h : u.offHome = s.offHome) : u.can = s.can := (congrArg State.can h :)
theorem State.offHome_hz {s u : State} (h : u.offHome = s.offHome) : u.hz = s.hz := (congrArg State.hz h :)

theorem State.modCan_can (s : State) (g : CanSt → CanSt) : (s.modCan g).can = g s.can := rfl

theorem State.fld_modCan (s : State) (g : CanSt → CanSt) {f : Fld} (hh : fCan_CHUNKS_HELD.apart f = true) (hf : fCan_FAILED.apart f = true)
    (hd : fCan_DONE_COUNT.apart f = true) : (s.modCan g).fld f = s.fld f := by
  unfold State.modCan
  dsimp only
  rw [State.fld_setFld_apart _ _ rfl hd, State.fld_setFld_apart _ _ rfl hf, State.fld_setFld_apart _ _ rfl hh]
  rfl

theorem State.canState_modCan (s : State) (g : CanSt → CanSt) : (s.modCan g).canState = s.canState :=
  s.fld_modCan g (by decide) (by decide) (by decide)

theorem State.modCan_held (s : State) (g : CanSt → CanSt) : (s.modCan g).fld fCan_CHUNKS_HELD = (g s.can).held.length % 2 ^ 15 := by
  unfold State.modCan
  dsimp only
  rw [State.fld_setFld_apart _ _ rfl (by decide), State.fld_setFld_apart _ _ rfl (by decide), State.fld_setFld_same _ _ rfl]
  rfl

theorem State.modCan_failed (s : State) (g : CanSt → CanSt) : (s.modCan g).fld fCan_FAILED = (g s.can).failed.length % 2 ^ 16 := by
  unfold State.modCan
  dsimp only
  rw [State.fld_setFld_apart _ _ rfl (by decide), State.fld_setFld_same _ _ rfl]
  rfl

theorem State.modCan_done (s : State) (g : CanSt → CanSt) : (s.modCan g).fld fCan_DONE_COUNT = (g s.can).done.length % 2 ^ 16 := by
  unfold State.modCan
  dsimp only
  rw [State.fld_setFld_same _ _ rfl]
  rfl

theorem State.canState_set (s : State) {v : Nat} (hv : v < 8) : (s.setFld fCan_STATE v).canState = v :=
  State.fld_setFld_fits _ rfl hv

theorem State.canBusy_iff (s : State) : s.canBusy = true ↔ s.canState = canRecv ∨ s.canState = canHeld := by
  simp [State.canBusy]

/-! ### START, JOIN and CANCEL -/

section Command
variable {s : State} {ag : Agent} (hag : s.agentUp ag = true)
include hag

theorem canWrite_eq (v : Nat) (hv : v < 4) : s.agentWrite ag 0x061 0x40 4 v = s.canCmdWrite v := by
  rw [State.agentWrite_act .can 0 hag rfl (by decide) (by decide) rfl (State.setBits_no_rw (by decide +kernel))
    (Wr.clrBits_no_w1c (by decide +kernel))]
  have h0 : (wrOf ag 0x061 0x40 4 v).get fCan_CMD = some v := wrOf_get ag rfl rfl (by decide) (by decide) (by
    show v / 2 ^ 0 % 2 ^ 2 = v
    omega)
  simp only [State.blockActs, State.on_some h0]

theorem exec_canopyStart : exec (.canopyStart ag) s = .next (s.canCommand 1) := congrArg _ (canWrite_eq hag 1 (by decide))
theorem exec_canopyJoin : exec (.canopyJoin ag) s = .next (s.canCommand 2) := congrArg _ (canWrite_eq hag 2 (by decide))

theorem exec_canopyCancel : exec (.canopyCancel ag) s = .next ((s.setFld fCan_STATE canIdle).modCan fun _ => CanSt.empty) :=
  congrArg _ (canWrite_eq hag 3 (by decide))

theorem exec_canopyCommand (start : Bool) :
    exec (if start then .canopyStart ag else .canopyJoin ag) s = .next (s.canCommand (if start then 1 else 2)) := by
  cases start
  · exact exec_canopyJoin hag
  · exact exec_canopyStart hag

theorem canopyCancel_idle : Completes (.canopyCancel ag) s fun u => u.canState = canIdle ∧ u.can = CanSt.empty := by
  refine Completes.of (exec_canopyCancel hag) ⟨?_, State.modCan_can _ _⟩
  rw [State.canState_modCan]
  exact State.canState_set _ (by decide)

end Command

theorem State.canCommand_idle {s : State} (h : s.canState = canIdle) (cmd : Nat) : s.canCommand cmd = (match s.canCheck with
    | (.ok m, s1) => s1.canAccept (cmd == 2) m
    | (.refused c, s1) => ((s1.setFld fCan_STATE canRefused).setFld fCan_CODE c).modCan fun x => { x with cmd := none }
    | (.wait, s1) => s1.modCan fun x => { x with cmd := some cmd }) := by
  unfold State.canCommand
  exact if_neg (by simp [h])

theorem State.canCommand_refused {s s1 : State} {c : Nat} (h : s.canState = canIdle) (hc : s.canCheck = (.refused c, s1)) (cmd : Nat) :
    (s.canCommand cmd).canState = canRefused ∧ (s.canCommand cmd).fld fCan_CODE = c % 256 := by
  rw [s.canCommand_idle h, hc]
  refine ⟨?_, ?_⟩
  · rw [State.canState_modCan, State.canState, State.fld_setFld_apart _ _ rfl (by decide)]
    exact State.canState_set _ (by decide)
  · rw [State.fld_modCan _ _ (by decide) (by decide) (by decide), State.fld_setFld_same _ _ rfl]
    rfl

theorem State.canCommand_over {s : State} (h : s.canState ≠ canIdle) (hb : s.canBusy = false) (cmd : Nat) : s.canCommand cmd = s :=
  if_pos ⟨h, by simp [hb]⟩

/-- The registers of a broadcast that a package other than the root takes part in, as an accepted START or JOIN leaves them. -/
def State.canJoined (s : State) (join : Bool) (m : Manifest) : State :=
  (((((s.setFld fCan_STATE canRecv).setFld fCan_CODE 0).setFlag fCan_ROOT false).setFld fCan_PARENT
    (match m.entry s.pkgId with | some e => e.2.1 | none => 0xFFFF)).setFld fCan_REPARENTS 0).modCan fun _ =>
      { CanSt.empty with man := some m, kids := if join then [] else m.childrenOf s.pkgId }

theorem State.canAccept_member {s : State} {m : Manifest} (hm : m.root ≠ s.pkgId) (join : Bool) :
    s.canAccept join m = if join then (s.canJoined join m).canSend 14 m.root 0 0 [] else s.canJoined join m := by
  have hr : (m.root == s.pkgId) = false := by simpa using hm
  unfold State.canAccept
  dsimp only
  rw [hr, if_neg (by decide)]
  cases join <;> rfl

section Joined
variable (s : State) (join : Bool) (m : Manifest)

theorem State.canJoined_state : (s.canJoined join m).canState = canRecv := by
  unfold State.canJoined
  rw [State.canState_modCan, State.canState, State.fld_setFld_apart _ _ rfl (by decide), State.fld_setFld_apart _ _ rfl (by decide),
    State.fld_setFlag_apart _ _ (by decide) (by decide), State.fld_setFld_apart _ _ rfl (by decide)]
  exact State.canState_set _ (by decide)

theorem State.canJoined_code : (s.canJoined join m).fld fCan_CODE = 0 := by
  unfold State.canJoined
  rw [State.fld_modCan _ _ (by decide) (by decide) (by decide), State.fld_setFld_apart _ _ rfl (by decide),
    State.fld_setFld_apart _ _ rfl (by decide), State.fld_setFlag_apart _ _ (by decide) (by decide), State.fld_setFld_same _ _ rfl]
  rfl

theorem State.canJoined_root : (s.canJoined join m).flag fCan_ROOT = false := by
  unfold State.canJoined State.flag
  rw [State.fld_modCan _ _ (by decide) (by decide) (by decide), State.fld_setFld_apart _ _ rfl (by decide),
    State.fld_setFld_apart _ _ rfl (by decide)]
  exact State.flag_setFlag_same _ _ (by decide) (by decide)

theorem State.canJoined_parent {e : Nat × Nat × Nat} (he : m.entry s.pkgId = some e) :
    (s.canJoined join m).fld fCan_PARENT = e.2.1 % 65536 := by
  unfold State.canJoined
  rw [State.fld_modCan _ _ (by decide) (by decide) (by decide), State.fld_setFld_apart _ _ rfl (by decide), State.fld_setFld_same _ _ rfl, he]
  rfl

theorem State.canJoined_held : (s.canJoined join m).fld fCan_CHUNKS_HELD = 0 := State.modCan_held _ _

end Joined

/-! ### Packets and reports of a broadcast (R308 to R310) -/

theorem canopyChunkPacket_dropped {s : State} {mkey : W64} {chunk off : Nat} {data : List Byte} (h : ∀ m, s.can.man = some m → m.mkey ≠ mkey) :
    Completes (.canopyChunkPacket mkey chunk off data) s fun u =>
      u.fld fCan_MKEY_DROP = min (s.fld fCan_MKEY_DROP + 1) (2 ^ 32 - 1) ∧ u.can = s.can := by
  have hw : fCan_MKEY_DROP.w = 32 := rfl
  refine Completes.of (u := s.addSat fCan_MKEY_DROP 1) ?_ ⟨hw ▸ s.fld_addSat_same (f := fCan_MKEY_DROP) rfl 1, State.addSat_can _ _ _⟩
  show Host.Outcome.next (match s.can.man with
    | some m => if m.mkey ≠ mkey then s.addSat fCan_MKEY_DROP 1
      else if s.canState = canRecv ∨ s.canState = canHeld then s.canPacket m chunk off data else s
    | none => s.addSat fCan_MKEY_DROP 1) = _
  cases hm : s.can.man with
  | none => rfl
  | some m => exact congrArg _ (if_pos (h m hm))

/-- A piece of a chunk at a package without children is written to the window, and nothing more until the chunk ends. -/
theorem State.canPacket_piece {s : State} {m : Manifest} {chunk off key : Nat} {data : List Byte} (hkids : s.can.kids = [])
    (hc : chunk < m.digests.length) (ho : off % 256 = 0) (hd : data ≠ []) (hl : data.length ≤ 256)
    (he : off + data.length < m.chunkLen chunk) (hk : s.canKey m (chunk * 0x100000 + off) = some key) :
    s.canPacket m chunk off data = s.homeWrite .none key data := by
  have hgood : ¬ (m.digests.length ≤ chunk ∨ m.chunkLen chunk < off + data.length ∨ data.isEmpty = true ∨
      (chunk * 0x100000 + off) % 256 ≠ 0 ∨ 256 < data.length) := by
    rintro (h | h | h | h | h)
    · omega
    · omega
    · exact hd (by simpa using h)
    · omega
    · omega
  have hcan : (s.homeWrite .none key data).can.kids = [] := by rw [State.offHome_can (s.offHome_homeWrite ..), hkids]
  unfold State.canPacket
  dsimp only
  rw [if_neg hgood, hk]
  dsimp only
  rw [if_neg (by omega), hcan]
  exact ite_self _

theorem State.canParentOf_modCan (s : State) (g : CanSt → CanSt) (h : (g s.can).parents = s.can.parents) (p : Nat) :
    (s.modCan g).canParentOf p = s.canParentOf p := by
  rw [State.canParentOf, State.canParentOf, State.modCan_can, h]

/-- Nothing is done for entries none of which is chosen. -/
theorem foldl_filter_none {α β : Type} {a : Nat} (f : β → α → β) (b : β) {g : α → Nat} {l : List α} (h : ∀ e ∈ l, g e ≠ a) :
    (l.filter fun e => g e == a).foldl f b = b := by
  rw [List.filter_eq_nil_iff.2 fun e he => by simpa using h e he, List.foldl_nil]

section Rows
variable {s : State} {m : Manifest} (hm : s.can.man = some m)
include hm

theorem exec_canopyChunkPacket {chunk off key : Nat} {data : List Byte} (hb : s.canBusy = true) (hkids : s.can.kids = [])
    (hc : chunk < m.digests.length) (ho : off % 256 = 0) (hd : data ≠ []) (hl : data.length ≤ 256)
    (he : off + data.length < m.chunkLen chunk) (hk : s.canKey m (chunk * 0x100000 + off) = some key) :
    exec (.canopyChunkPacket m.mkey chunk off data) s = .next (s.homeWrite .none key data) := by
  have h : exec (.canopyChunkPacket m.mkey chunk off data) s = execCanopyChunkPacket m.mkey chunk off data s := rfl
  rw [h, execCanopyChunkPacket, hm]
  dsimp only
  rw [if_neg (not_not_intro rfl), if_pos (s.canBusy_iff.1 hb), State.canPacket_piece hkids hc ho hd hl he hk]

omit hm in
theorem exec_canopyKeepalive (hb : s.canBusy = true) (hs : s.flag fSafe_SAFE = false) :
    exec .canopyKeepalive s = .next (s.can.kids.foldl (fun t k => t.canSend 9 k 0 0 []) s) :=
  congrArg Host.Outcome.next (if_pos ⟨hb, by simp [hs]⟩)

theorem exec_canopyParentTimeout (hr : s.canState = canRecv) (hroot : m.root ≠ s.pkgId) :
    exec .canopyParentTimeout s = .next (s.canSend 10 m.root (s.fld fCan_PARENT) 0 []) := by
  have h : exec .canopyParentTimeout s = execCanopyParentTimeout s := rfl
  rw [h, execCanopyParentTimeout, if_pos hr, State.canReport, hm]
  exact congrArg _ (if_neg hroot)

theorem canopyFailureReport_last {relay : Nat} (hroot : m.root = s.pkgId) (hb : s.canBusy = true) (hin : (m.entry relay).isSome = true)
    (hne : relay ≠ m.root) (hf : relay ∉ s.can.failed) (hkids : ∀ e ∈ m.members, s.canParentOf e.1 ≠ relay) :
    Completes (.canopyFailureReport relay) s fun u =>
      u.can.failed = s.can.failed ++ [relay] ∧ u.fld fCan_FAILED = (s.can.failed.length + 1) % 2 ^ 16 ∧ relay ∉ u.can.done := by
  refine Completes.of (u := s.modCan fun c => { c with failed := c.failed ++ [relay], done := c.done.filter (· != relay) }) ?_
    ⟨rfl, ?_, ?_⟩
  · have h : exec (.canopyFailureReport relay) s = .next (s.canFailedRelay relay) := rfl
    have hi : (m.entry relay).isNone = false := by simpa using hin
    have hn : ¬ (m.root ≠ s.pkgId ∨ (!s.canBusy) = true ∨ (m.entry relay).isNone = true ∨ relay = m.root ∨ s.can.failed.contains relay = true) := by
      rintro (h | h | h | h | h)
      · exact h hroot
      · simp [hb] at h
      · simp [hi] at h
      · exact hne h
      · exact hf (by simpa using h)
    rw [h, State.canFailedRelay, hm]
    dsimp only
    rw [if_neg hn]
    exact congrArg _ (foldl_filter_none _ _ fun e he => by rw [State.canParentOf_modCan _ _ rfl]; exact hkids e he)
  · rw [State.modCan_failed]
    simp
  · simp [State.modCan_can]

theorem exec_canopyDone (member : Nat) (hroot : m.root = s.pkgId) (hb : s.canBusy = true) (hin : (m.entry member).isSome = true)
    (hf : member ∉ s.can.failed) (hd : member ∉ s.can.done) :
    exec (.canopyDone member) s = .next (if s.can.done.length + 1 = m.members.length then
      (s.modCan fun c => { c with done := c.done ++ [member] }).canGo else s.modCan fun c => { c with done := c.done ++ [member] }) := by
  have h : exec (.canopyDone member) s = execCanopyDone member s := rfl
  have hi : (m.entry member).isNone = false := by simpa using hin
  rw [h, execCanopyDone, hm]
  dsimp only
  rw [if_pos ⟨hroot, hb⟩, State.canDoneAt, hm]
  dsimp only
  rw [if_neg (by simp [hi, hf, hd]), State.modCan_can]
  simp only [List.length_append, List.length_singleton]

theorem canopyDone_counted {member : Nat} (hroot : m.root = s.pkgId) (hb : s.canBusy = true) (hin : (m.entry member).isSome = true)
    (hf : member ∉ s.can.failed) (hd : member ∉ s.can.done) (hn : s.can.done.length + 1 ≠ m.members.length) :
    Completes (.canopyDone member) s fun u =>
      u.can.done = s.can.done ++ [member] ∧ u.fld fCan_DONE_COUNT = (s.can.done.length + 1) % 2 ^ 16 ∧ u.canState = s.canState := by
  refine Completes.of ((exec_canopyDone hm member hroot hb hin hf hd).trans (by rw [if_neg hn])) ⟨rfl, ?_, State.canState_modCan _ _⟩
  rw [State.modCan_done]
  simp

theorem canopyDone_last {member : Nat} (hroot : m.root = s.pkgId) (hb : s.canBusy = true) (hin : (m.entry member).isSome = true)
    (hf : member ∉ s.can.failed) (hd : member ∉ s.can.done) (hn : s.can.done.length + 1 = m.members.length) (hkids : s.can.kids = []) :
    Completes (.canopyDone member) s fun u => u.canState = canComplete ∧ u.can.done = s.can.done ++ [member] := by
  refine Completes.of ((exec_canopyDone hm member hroot hb hin hf hd).trans (by rw [if_pos hn])) ⟨?_, ?_⟩
  · exact State.canState_set _ (by decide)
  · rw [State.canGo, State.modCan_can]
    dsimp only
    rw [hkids]
    rfl

omit hm in
theorem exec_canopyGo (hs : s.canState = canHeld) : exec .canopyGo s = .next s.canGo := congrArg Host.Outcome.next (if_pos hs)

omit hm in
/-- The record of an event, in a log that has room. -/
theorem State.event_recs (s : State) {log : Nat} (h : (tabGet logDefault s.logs log).recs.length < 256) (k : EvKind) (loc data : W64)
    (frec : List Byte) : ∃ r : EvRec,
    (tabGet logDefault (s.event log k loc data frec).logs log).recs = (tabGet logDefault s.logs log).recs ++ [r] ∧ r.kind = k := by
  have hv : ∀ (t : State) (n : Nat), (if n = 0 ∨ t.flag fCxl_HOST_LOST = true then t else t.vector n).logs = t.logs := fun t n => by
    split <;> rfl
  unfold State.event
  dsimp only
  rw [if_neg (by omega), hv]
  dsimp only
  rw [tabGet_set_same]
  exact ⟨_, rfl, rfl⟩

omit hm in
theorem canopyAbandon_recorded (hb : s.canBusy = true) (hr : (tabGet logDefault s.logs logInfo).recs.length < 256) :
    Completes .canopyAbandon s fun u => u.canState = canAbandoned ∧
      ∃ r : EvRec, (tabGet logDefault u.logs logInfo).recs = (tabGet logDefault s.logs logInfo).recs ++ [r] ∧ r.kind = .canopy := by
  refine Completes.of (congrArg Host.Outcome.next (if_pos hb)) ⟨?_, State.event_recs (s.setFld fCan_STATE canAbandoned) hr _ _ _ _⟩
  exact (State.fld_congr (State.event_regs ..) _).trans (State.canState_set _ (by decide))

omit hm in
theorem exec_canopyChunkRequest {member chunk : Nat} (hc : chunk ∈ s.can.held) (hk : member ∈ s.can.kids) :
    exec (.canopyChunkRequest member chunk) s = .next (s.canSendChunk member chunk) :=
  congrArg Host.Outcome.next (if_pos ⟨by simpa using hc, by simpa using hk⟩)

theorem exec_canopyReparent_own (parent first : Nat) (hb : s.canBusy = true) : ∃ v : State, ∃ n : Nat,
    exec (.canopyReparent s.pkgId parent first) s = .next (v.canSend 11 parent n s.pkgId []) ∧
    v.fld fCan_PARENT = parent % 65536 ∧ v.fld fCan_REPARENTS = (s.fld fCan_REPARENTS + 1) % 2 ^ 16 ∧ v.can = s.can := by
  have h : exec (.canopyReparent s.pkgId parent first) s = execCanopyReparent s.pkgId parent first s := rfl
  refine ⟨(s.setFld fCan_PARENT parent).setFld fCan_REPARENTS (s.fld fCan_REPARENTS + 1),
    ((List.range m.digests.length).find? fun j => !s.can.held.contains j).getD m.digests.length, ?_, ?_, ?_, (State.setFld_can _ _ _).trans (State.setFld_can _ _ _)⟩
  · rw [h, execCanopyReparent, hm]
    dsimp only
    rw [if_neg (by simp [hb]), if_pos rfl]
  · rw [State.fld_setFld_apart _ _ rfl (by decide)]
    exact State.fld_setFld_same _ _ rfl
  · exact State.fld_setFld_same _ _ rfl

theorem exec_canopyReparent_child {member : Nat} (first : Nat) (hb : s.canBusy = true) (hne : member ≠ s.pkgId) : ∃ v : State,
    exec (.canopyReparent member s.pkgId first) s = .next (v.canSendFrom member first) ∧
    v.can.kids = s.can.kids.filter (· != member) ++ [member] := by
  have h : exec (.canopyReparent member s.pkgId first) s = execCanopyReparent member s.pkgId first s := rfl
  refine ⟨s.modCan fun c => { c with kids := c.kids.filter (· != member) ++ [member] }, ?_, rfl⟩
  rw [h, execCanopyReparent, hm]
  dsimp only
  rw [if_neg (by simp [hb]), if_neg hne, if_pos rfl]

theorem exec_canopyJoinReceived {member : Nat} {e : Nat × Nat × Nat} (hroot : m.root = s.pkgId) (hb : s.canBusy = true)
    (he : m.entry member = some e) (hf : member ∈ s.can.failed) (hp : e.2.1 = m.root) (hr : m.root ≠ 0xFFFF) (hrf : m.root ∉ s.can.failed) :
    ∃ v : State, exec (.canopyJoinReceived member) s = .next ((v.canReparent member m.root false).canSendFrom member 0) ∧
      v.can.failed = s.can.failed.filter (· != member) ∧ v.fld fCan_REPARENTS = s.fld fCan_REPARENTS := by
  have h : exec (.canopyJoinReceived member) s = execCanopyJoinReceived member s := rfl
  refine ⟨s.modCan fun c => { c with failed := c.failed.filter (· != member) }, ?_, rfl,
    State.fld_modCan _ _ (by decide) (by decide) (by decide)⟩
  have hn : ¬ (m.root ≠ s.pkgId ∨ (!s.canBusy) = true) := by simp [hroot, hb]
  have hlive : (m.root != 0xFFFF && !s.can.failed.contains m.root) = true := by simpa using ⟨hr, hrf⟩
  rw [h, execCanopyJoinReceived, hm]
  dsimp only
  rw [if_neg hn, he]
  dsimp only
  rw [hp, if_pos hlive, if_pos (by simpa using hf), if_pos rfl]

end Rows

/-- Settles O43: START and JOIN by the check of the manifest, then row by row. -/
theorem canopyDistributesTheImage : Obligations.CanopyDistributesTheImage := by
  unfold Obligations.CanopyDistributesTheImage
  intro s ag hag
  refine ⟨fun start => ⟨fun c s1 hi hc => ?_, fun m s1 hi hc hroot => ?_, fun hi hb => ?_⟩, canopyCancel_idle hag,
    fun _ _ _ _ h => canopyChunkPacket_dropped h, fun m hm => ?_⟩
  · exact Completes.of (exec_canopyCommand hag start) (State.canCommand_refused hi hc _)
  · refine ⟨s1.canJoined (!start) m, ?_, s1.canJoined_state _ m, s1.canJoined_code _ m, s1.canJoined_root _ m, rfl, rfl, ?_,
      s1.canJoined_held _ m, fun e he => s1.canJoined_parent _ m he⟩
    · rw [exec_canopyCommand hag start, s.canCommand_idle hi, hc]
      dsimp only
      rw [State.canAccept_member hroot]
      cases start <;> rfl
    · cases start <;> rfl
  · exact (exec_canopyCommand hag start).trans (congrArg _ (State.canCommand_over hi hb _))
  · refine ⟨fun _ _ _ _ hb hk hc ho hd hl he hkey => exec_canopyChunkPacket hm hb hk hc ho hd hl he hkey, exec_canopyKeepalive,
      exec_canopyParentTimeout hm, fun _ h1 h2 h3 h4 h5 h6 => canopyFailureReport_last hm h1 h2 h3 h4 h5 h6,
      fun _ h1 h2 h3 h4 h5 => ⟨canopyDone_counted hm h1 h2 h3 h4 h5, canopyDone_last hm h1 h2 h3 h4 h5⟩,
      fun h => ⟨_, exec_canopyGo h, State.canState_set _ (by decide)⟩, fun h => congrArg Host.Outcome.next (if_neg h),
      canopyAbandon_recorded, fun _ _ h1 h2 => exec_canopyChunkRequest h1 h2, fun p f hb => exec_canopyReparent_own hm p f hb,
      fun _ f hb hne => exec_canopyReparent_child hm f hb hne, fun _ _ h1 h2 h3 h4 h5 h6 h7 => exec_canopyJoinReceived hm h1 h2 h3 h4 h5 h6 h7⟩

end Sys2Proof.Machine
end

section
/-! # Packets of the Hazel tree -/
namespace Sys2Proof.Machine

/-! ### Packets of the Hazel tree (R298 to R304) -/

theorem State.modHz_logs (s : State) (f : HzSt → HzSt) : (s.modHz f).logs = s.logs := by
  rw [State.modHz]
  exact (State.setFld_logs _ _ _).trans (State.setFld_logs _ _ _)

theorem State.modHz_fab (s : State) (f : HzSt → HzSt) : (s.modHz f).fab = s.fab := by
  rw [State.modHz]
  exact (State.setFld_fab _ _ _).trans (State.setFld_fab _ _ _)

theorem State.modHz_grp (s : State) (f : HzSt → HzSt) (g : Nat) : (s.modHz f).grp g = s.grp g := by
  simp only [State.grp, State.barBits, State.barNat_congr (s.modHz_bar2 f)]

/-- The packets of a port are routed by the route table, the ports' states and the package's own number. -/
theorem State.modHz_edgeLost (s : State) {f : HzSt → HzSt} (h : (f s.hz).ranks = s.hz.ranks) (g : Nat) :
    (s.modHz f).hzEdgeLost g = s.hzEdgeLost g := by
  have hport : ∀ p < 16, (s.modHz f).fld (fPort_STATE p) = s.fld (fPort_STATE p) := fun p hp => by
    have hap : ∀ e : Fld, e.key / 512 = 0x060 → e.apart (fPort_STATE p) = true := fun e he => Fld.apart_of_page (by
      have hkey : (fPort_STATE p).key / 512 = 0x040 + p := by
        simp only [fPort_STATE, Fld.key]
        omega
      rw [he, hkey]
      omega)
    exact s.fld_modHz f (hap _ rfl) (hap _ rfl)
  have hpkg : ∀ r, (s.modHz f).hzPkg g r = s.hzPkg g r := fun r => by simp only [State.hzPkg, State.modHz_hz, h]
  have hroute : ∀ t, (s.modHz f).route t = s.route t := fun t => by rw [State.route, State.route, State.barNat_congr (s.modHz_bar2 f)]
  have hact : ∀ t, (s.modHz f).activePorts t = s.activePorts t := fun t =>
    List.filter_congr fun p hp => by rw [hport p (List.mem_range.1 hp)]
  have hrp : ∀ t k, (s.modHz f).routePort t k = s.routePort t k := fun t k => by simp only [State.routePort, hact, hroute]
  simp only [State.hzEdgeLost, State.modHz_grp, hpkg, hrp]

section Packets
variable {s : State} {p : HzPacket}

theorem exec_hazelPacket_forward (hp : p.dst ≠ s.pkgId) : exec (.hazelPacket p) s = .next (s.send (hzForward p)) :=
  congrArg Host.Outcome.next (if_neg hp)

theorem exec_hazelPacket (hp : p.dst = s.pkgId) : exec (.hazelPacket p) s = .next (s.hzIn p).hzSettle :=
  congrArg Host.Outcome.next (if_pos hp)

theorem State.hzIn_refused (hv : (s.grp p.gid).valid = true) (hj : p.job ≠ (s.grp p.gid).job) : s.hzIn p = s.inc fHz_HZ_REFUSED := by
  unfold State.hzIn
  simp only [hv, Bool.not_true, Bool.false_eq_true, if_false]
  exact if_pos hj

theorem State.hzIn_held (hv : (s.grp p.gid).valid = false) : s.hzIn p = s.modHz fun h => { h with held := h.held ++ [p] } := by
  unfold State.hzIn
  simp only [hv, Bool.not_false, if_true]

/-- A packet of the one operation that is in progress here. -/
theorem State.hzIn_accept {o : HzOp} (hv : (s.grp p.gid).valid = true) (hj : p.job = (s.grp p.gid).job) (he : s.hz.early = [])
    (ho : s.hz.ops = [o]) (hi : o.is p.gid p.boundary p.seq = true) : s.hzIn p = s.hzAccept o p := by
  have hf : s.hzFind p.gid p.boundary p.seq = some o := by simp [State.hzFind, ho, hi]
  have hn : s.hzOver p = false := by simp [State.hzOver, hf, he]
  unfold State.hzIn
  simp only [hv, hj, hn, hf, Bool.not_true, Bool.false_eq_true, if_false, ne_eq, not_true_eq_false]

theorem hazelPacket_refused (hd : s.hz.due = []) (hp : p.dst = s.pkgId) (hv : (s.grp p.gid).valid = true) (hj : p.job ≠ (s.grp p.gid).job)
    (hh : s.hz.held = []) : Completes (.hazelPacket p) s fun u =>
      u.fld fHz_HZ_REFUSED = (s.fld fHz_HZ_REFUSED + 1) % 2 ^ 64 ∧ u.hz = s.hz := by
  refine Completes.of (exec_hazelPacket hp) ?_
  rw [State.hzIn_refused hv hj, State.hzSettle_idle (s := s.inc fHz_HZ_REFUSED) hd hh]
  refine ⟨?_, ?_⟩
  · rw [State.fld_modHz _ _ (by decide) (by decide)]
    exact State.fld_setFld_same _ _ rfl
  · rw [State.modHz_hz, State.inc, State.setFld_hz, ← hh]

/-- Packets of groups that do not exist yet stay held, each time that they are tried. -/
theorem State.hzRetry_held {s : State} (hv : (s.grp p.gid).valid = false) (hh : s.hz.held = [p]) (n : Nat) :
    (s.hzRetry n).hz.held = [p] ∧ (s.hzRetry n).hz.ops = s.hz.ops := by
  induction n generalizing s with
  | zero => exact ⟨hh, rfl⟩
  | succ n ih =>
    have h1 : ((s.modHz fun h => { h with held := [] }).grp p.gid).valid = false := by rw [State.modHz_grp, hv]
    generalize hu : ((s.modHz fun h => { h with held := [] }).modHz fun h => { h with held := h.held ++ [p] }) = u
    have hstep : s.hzRetry (n + 1) = u.hzRetry n := by
      rw [State.hzRetry, hh, List.foldl_cons, List.foldl_nil, State.hzIn_held h1, hu]
    have hhz : u.hz.held = [p] ∧ u.hz.ops = s.hz.ops := by
      rw [← hu, State.modHz_hz, State.modHz_hz]
      exact ⟨rfl, rfl⟩
    have hgrp : (u.grp p.gid).valid = false := by rw [← hu, State.modHz_grp, h1]
    rw [hstep]
    exact ⟨(ih hgrp hhz.1).1, (ih hgrp hhz.1).2.trans hhz.2⟩

theorem hazelPacket_held (hd : s.hz.due = []) (hp : p.dst = s.pkgId) (hv : (s.grp p.gid).valid = false) (hh : s.hz.held = []) :
    Completes (.hazelPacket p) s fun u => u.hz.held = [p] ∧ u.hz.ops = s.hz.ops := by
  refine Completes.of (exec_hazelPacket hp) ?_
  rw [State.hzIn_held hv]
  generalize hu : (s.modHz fun h => { h with held := h.held ++ [p] }) = u
  have hhz : u.hz.held = [p] ∧ u.hz.ops = s.hz.ops ∧ u.hz.due = [] := by
    rw [← hu, State.modHz_hz]
    exact ⟨by simp [hh], rfl, hd⟩
  obtain ⟨h1, h2, h3⟩ := hhz
  have hgrp : (u.grp p.gid).valid = false := by rw [← hu, State.modHz_grp, hv]
  have hset : u.hzSettle = u.hzRetry (u.hz.held.length + 1) := by
    unfold State.hzSettle
    simp only [h3, State.hzBegin]
  rw [hset, ← h2]
  exact State.hzRetry_held hgrp h1 _

/-- The parent's result at a leaf ends the operation. -/
theorem State.hzAccept_result {o : HzOp} {v : HzVal} (hcrc : p.crcOk = true) (herr : p.err = none) (hs : s.flag fSafe_SAFE = false)
    (hc : p.child = none) (hown : o.own = some v) (hsent : o.sent = true) (hk : hzChildren (s.grp o.gid).rank (s.grp o.gid).nmem = []) :
    s.hzAccept o p = (s.modHz fun h => { h with ops := h.ops.filter fun x => !x.is o.gid o.boundary o.seq }).hzDeliver o v 0 p.vals := by
  unfold State.hzAccept
  simp only [hcrc, herr, hs, hc, Bool.not_true, Bool.false_eq_true, if_false, State.hzDown, hown, hsent, if_true, hk, List.foldl_nil, State.hzEnd]

/-- A child's contribution is kept until every child's is there. -/
theorem State.hzAccept_child {o : HzOp} {v : HzVal} {r : Nat} (hcrc : p.crcOk = true) (herr : p.err = none) (hs : s.flag fSafe_SAFE = false)
    (hc : p.child = some r) (hown : o.own = some v) (hkids : o.kids = []) (hagree : hzAgrees v (s.grp o.gid).gkey p = true)
    (hlost : s.hzEdgeLost o.gid = false) (hk : v.ktop = 0) (hq : ∃ q ∈ hzChildren (s.grp o.gid).rank (s.grp o.gid).nmem, q ≠ r) :
    s.hzAccept o p = s.hzPut { o with kids := [(r, p)] } := by
  generalize ho1 : ({ o with kids := [(r, p)] } : HzOp) = o1
  have hfields : o1.own = some v ∧ o1.kids = [(r, p)] ∧ o1.gid = o.gid := by rw [← ho1]; exact ⟨hown, rfl, rfl⟩
  obtain ⟨h1, h2, h3⟩ := hfields
  have hacc : s.hzAccept o p = (s.hzPut o1).hzProgress o1 := by
    unfold State.hzAccept
    simp only [hcrc, herr, hs, hc, Bool.not_true, Bool.false_eq_true, if_false, hkids, List.filter_nil, List.nil_append, ho1]
  have hgrp : (s.hzPut o1).grp o.gid = s.grp o.gid := by rw [State.hzPut, State.modHz_grp]
  have hedge : (s.hzPut o1).hzEdgeLost o.gid = false := by
    rw [State.hzPut, State.modHz_edgeLost]
    · exact hlost
    · rfl
  have hmiss : ((hzChildren (s.grp o.gid).rank (s.grp o.gid).nmem).all fun q => r == q) = false := by
    obtain ⟨q, hmem, hne⟩ := hq
    rw [List.all_eq_false]
    exact ⟨q, hmem, by simpa using hne.symm⟩
  rw [hacc]
  unfold State.hzProgress
  simp only [h1, h2, h3, hgrp, hedge, hagree, hmiss, hk, List.any_cons, List.any_nil, Bool.not_true, Bool.or_false, Bool.false_eq_true, if_false,
    ne_eq, not_true_eq_false, false_and, Bool.not_false, or_true, if_true]

end Packets

/-! ### Warnings, aborts and the ends of operations (R304) -/

theorem HzOp.is_eq {o : HzOp} {g : Nat} {b : Bool} {n : Nat} (h : o.is g b n = true) : o.gid = g ∧ o.boundary = b ∧ o.seq = n := by
  simpa [HzOp.is, and_assoc] using h

theorem State.hzFind_is {s : State} {g : Nat} {b : Bool} {n : Nat} {o : HzOp} (hf : s.hzFind g b n = some o) : o.is g b n = true :=
  List.find?_some (p := fun o : HzOp => o.is g b n) hf

/-- The element that takes the place of those that are looked for is found. -/
theorem find?_map_replace {α : Type} {p : α → Bool} {l : List α} {a c : α} (h : l.find? p = some a) (hc : p c = true) :
    (l.map fun x => if p x = true then c else x).find? p = some c := by
  induction l with
  | nil => simp at h
  | cons x l ih =>
    by_cases hx : p x = true
    · simp [hx, hc]
    · rw [List.find?_cons_of_neg (by simpa using hx)] at h
      simp [hx, ih h]

/-- An operation that is put where one of its number stands is found there. -/
theorem State.hzFind_hzPut {s : State} {g : Nat} {b : Bool} {n : Nat} {o o' : HzOp} (hf : s.hzFind g b n = some o) (ho : o'.is g b n = true) :
    (s.hzPut o').hzFind g b n = some o' := by
  obtain ⟨hg, hb, hn⟩ := HzOp.is_eq ho
  have hany : (s.hz.ops.any fun x => x.is g b n) = true := List.any_eq_true.2 ⟨o, List.mem_of_find?_eq_some hf, State.hzFind_is hf⟩
  have hops : (s.hzPut o').hz.ops = s.hz.ops.map fun x => if x.is g b n = true then o' else x := by
    rw [State.hzPut, State.modHz_hz, hg, hb, hn]
    exact if_pos hany
  rw [State.hzFind, hops]
  exact find?_map_replace (p := fun x : HzOp => x.is g b n) hf ho

section Warn
variable {s : State} {g : Nat} {b : Bool} {n child : Nat} {o : HzOp}

theorem hazelWarn_recorded (hf : s.hzFind g b n = some o) (hw : s.fld fHz_HZ_WARN ≠ 0)
    (hc : child ∈ hzChildren (s.grp g).rank (s.grp g).nmem) (hnew : child ∉ o.warned) (hk : ∀ k ∈ o.kids, k.1 ≠ child)
    (hr : (tabGet logDefault s.logs logInfo).recs.length < 256) : Completes (.hazelWarn g b n child) s fun u =>
      (∃ o', u.hzFind g b n = some o' ∧ o'.warned = o.warned ++ [child] ∧ o'.kids = o.kids) ∧
      ∃ r : EvRec, (tabGet logDefault u.logs logInfo).recs = (tabGet logDefault s.logs logInfo).recs ++ [r] ∧ r.kind = .hazel := by
  have he : exec (.hazelWarn g b n child) s = execHazelWarn g b n child s := rfl
  have hgo : ¬ (s.fld fHz_HZ_WARN = 0 ∨ (!(hzChildren (s.grp g).rank (s.grp g).nmem).contains child) = true ∨ o.warned.contains child = true ∨
      (o.kids.any fun k => k.1 == child) = true) := by
    have hk' : (o.kids.any fun k => k.1 == child) = false := List.any_eq_false.2 fun k hm => by simpa using hk k hm
    simp [hw, hc, hnew, hk']
  have hlogs : (s.hzPut { o with warned := o.warned ++ [child] }).logs = s.logs := s.modHz_logs _
  have hrec := State.event_recs (s.hzPut { o with warned := o.warned ++ [child] }) (log := logInfo) (by rw [hlogs]; exact hr) .hazel
    (BitVec.ofNat 64 (g + 65536 * child)) (BitVec.ofNat 64 n) []
  rw [hlogs] at hrec
  refine Completes.of ?_ ⟨⟨{ o with warned := o.warned ++ [child] }, ?_, rfl, rfl⟩, hrec⟩
  · rw [he, execHazelWarn, hf]
    exact congrArg _ (if_neg hgo)
  · rw [State.hzFind, State.offHome_hz (State.offHome_event ..)]
    exact State.hzFind_hzPut hf (show o.is g b n = true from State.hzFind_is hf)

end Warn

section Abort
variable {s : State} {g : Nat} {b : Bool} {o : HzOp} {v : HzVal} (cause : Nat)

/-- An operation of a group of one member has no edge to tell of its end. -/
theorem exec_hazelAbort_alone (hv : (s.grp g).valid = true) (ho : s.hz.ops = [o]) (hg : o.gid = g) (hb : o.boundary = b)
    (hown : o.own = some v) (hn : (s.grp g).nmem = 1) (hrank : (s.grp g).rank = 0) :
    exec (.hazelAbort g b cause) s =
      .next ((s.modHz fun h => { h with ops := h.ops.filter fun x => !x.is o.gid o.boundary o.seq }).hzDeliver o v cause []).hzSettle := by
  have he : exec (.hazelAbort g b cause) s = execHazelAbort g b cause s := rfl
  have hfind : (s.hz.ops.find? fun o => o.gid == g && o.boundary == b) = some o := by simp [ho, hg, hb]
  have hedges : hzEdges 0 1 = [] := by decide
  rw [he, execHazelAbort, hfind]
  simp only [hv, Bool.not_true, Bool.false_eq_true, if_false, State.hzAbort, hg, hn, hrank, hedges, List.filter_nil, List.foldl_nil, State.hzEnd, hown]

end Abort

theorem State.modHz_end {s : State} {o : HzOp} (ho : s.hz.ops = [o]) {f : HzOp → Bool} (hf : f o = false) :
    (s.modHz fun h => { h with ops := h.ops.filter f }).hz.ops = [] := by
  rw [State.modHz_hz]
  simp [ho, hf]

section Deliver
variable (x : State) {o : HzOp} (v : HzVal) (res : List W64)

theorem State.hzDeliver_fld {cause : Nat} (ho : o.boundary = true) (f : Fld) : (x.hzDeliver o v cause res).fld f =
    (if cause = 0 then x.inc fHz_HZ_OPS else ((x.inc fHz_HZ_ERRORS).setFld fHz_LAST_CAUSE cause).setFld fHz_LAST_GID o.gid).fld f := by
  unfold State.hzDeliver
  dsimp only
  rw [if_pos ho]
  rfl

theorem State.hzDeliver_result (cause : Nat) (ho : o.boundary = true) :
    (x.hzDeliver o v cause res).bnd.result = some (cause, res.take v.nval) := by
  unfold State.hzDeliver
  dsimp only
  rw [if_pos ho]

theorem State.hzDeliver_counted (ho : o.boundary = true) : (x.hzDeliver o v 0 res).fld fHz_HZ_OPS = (x.fld fHz_HZ_OPS + 1) % 2 ^ 64 ∧
    (x.hzDeliver o v 0 res).fld fHz_HZ_ERRORS = x.fld fHz_HZ_ERRORS := by
  rw [State.hzDeliver_fld _ _ _ ho, State.hzDeliver_fld _ _ _ ho, if_pos rfl]
  exact ⟨State.fld_setFld_same _ _ rfl, State.fld_setFld_apart _ _ rfl (by decide)⟩

theorem State.hzDeliver_failed {cause : Nat} (ho : o.boundary = true) (hc : cause ≠ 0) :
    (x.hzDeliver o v cause res).fld fHz_HZ_ERRORS = (x.fld fHz_HZ_ERRORS + 1) % 2 ^ 64 ∧
    (x.hzDeliver o v cause res).fld fHz_LAST_CAUSE = cause % 2 ^ fHz_LAST_CAUSE.w ∧
    (x.hzDeliver o v cause res).fld fHz_LAST_GID = o.gid % 2 ^ fHz_LAST_GID.w := by
  rw [State.hzDeliver_fld _ _ _ ho, State.hzDeliver_fld _ _ _ ho, State.hzDeliver_fld _ _ _ ho, if_neg hc]
  refine ⟨?_, ?_, State.fld_setFld_same _ _ rfl⟩
  · rw [State.fld_setFld_apart _ _ rfl (by decide), State.fld_setFld_apart _ _ rfl (by decide)]
    exact State.fld_setFld_same _ _ rfl
  · rw [State.fld_setFld_apart _ _ rfl (by decide), State.fld_setFld_same _ _ rfl]

end Deliver

/-- Settles O42: packets by where they are for and what they carry, then warnings, aborts and ends. -/
theorem hazelPacketsCombineAndAbort : Obligations.HazelPacketsCombineAndAbort := by
  unfold Obligations.HazelPacketsCombineAndAbort
  intro s p hd
  refine ⟨exec_hazelPacket_forward, hazelPacket_refused hd, hazelPacket_held hd, fun o v hp hv hj hh he ho hi hcrc herr hsafe hown => ?_,
    fun g b n child o hf hw hc hnew hk hr => hazelWarn_recorded hf hw hc hnew hk hr, fun g b cause o v hv ho hg hb hown _ _ hn hrank => ?_, ?_⟩
  · obtain ⟨hg, -, -⟩ := HzOp.is_eq hi
    have hex : exec (.hazelPacket p) s = .next (s.hzAccept o p).hzSettle := by
      rw [exec_hazelPacket hp, State.hzIn_accept hv hj he ho hi]
    rw [← hg]
    refine ⟨fun hc hsent hk => ?_, fun r hc hsent hkids hagree hlost hk hq => ?_⟩
    · refine ⟨s.modHz fun h => { h with ops := h.ops.filter fun x => !x.is o.gid o.boundary o.seq }, ?_,
        State.modHz_end ho (by simp [o.is_self]), State.modHz_dram _ _, State.modHz_bar2 _ _⟩
      rw [hex, State.hzAccept_result hcrc herr hsafe hc hown hsent hk]
    · refine Completes.of hex ?_
      rw [State.hzAccept_child hcrc herr hsafe hc hown hkids hagree hlost hk hq]
      generalize ho1 : ({ o with kids := [(r, p)] } : HzOp) = o1
      have his : o.is o1.gid o1.boundary o1.seq = true := by rw [← ho1]; exact o.is_self
      generalize hu : s.hzPut o1 = u
      have hhz : u.hz = { s.hz with ops := [o1] } := by
        rw [← hu, State.hzPut, State.modHz_hz]
        simp [ho, his]
      rw [State.hzSettle_idle (s := u) (by rw [hhz]; exact hd) (by rw [hhz]; exact hh)]
      refine ⟨by rw [State.modHz_hz, hhz], ?_, ?_⟩
      · rw [State.modHz_dram, ← hu, State.hzPut, State.modHz_dram]
      · rw [State.modHz_fab, ← hu, State.hzPut, State.modHz_fab]
  · exact ⟨_, exec_hazelAbort_alone cause hv ho hg hb hown hn hrank, State.modHz_end ho (by simp [o.is_self]), State.modHz_dram _ _⟩
  · intro x o v cause res ho
    exact ⟨x.hzDeliver_result v res cause ho, fun hc => hc ▸ x.hzDeliver_counted v res ho, x.hzDeliver_failed v res ho⟩

end Sys2Proof.Machine
end

section
/-! # Responses and the ends of remote requests -/
namespace Sys2Proof.Machine

/-! ### Responses: where they go and what they end (R266, R281 to R284) -/

/-- A response row with its packet command code. -/
theorem exec_response {port : Fin 16} {k : Packet} {e : Nat × Instr}
    (he : e ∈ [((0x10 : Nat), Instr.rdr port k k.data), (0x11, .ack port k), (0x12, .nakResponse port k), (0x13, .hold (port, k))]) (s : State) :
    exec e.2 s = .next (s.response port e.1 k) := by
  simp only [List.mem_cons, List.not_mem_nil, or_false] at he
  rcases he with rfl | rfl | rfl | rfl <;> rfl

section Response
variable {s : State} {port : Fin 16} {k : Packet} {cmd : Nat} (hp : s.portState port = 2)
include hp

theorem State.response_forward (hk : k.src ≠ s.pkgId) : s.response port cmd k = (s.send
      { src := none, cmd := cmd, flag := k.flagged, len := k.len, dst := k.src, job := k.job, addr := k.addr.toNat, tag := k.tag,
        cause := k.cause, aop := k.aop, aw := k.aw, data := k.data, e2e := some k.e2e }).giveCredit port 1 (pktSlots k) := by
  rw [State.response, if_neg (not_not_intro hp), if_neg hk]

theorem State.response_own (hk : k.src = s.pkgId) : s.response port cmd k = (s.respond port cmd k).giveCredit port 1 (pktSlots k) := by
  rw [State.response, if_neg (not_not_intro hp), if_pos hk]

end Response

theorem State.respond_late {s : State} {k : Packet} (h : s.rctx k.tag = none) (port cmd : Nat) :
    s.respond port cmd k = (s.modFab fun f => { f with late := f.late.filter (· != k.tag) }).inc fWin_LATE_RESP := by
  rw [State.respond, h]

section Respond
variable {s : State} {k : Packet} {c : RCtx} (hc : s.rctx k.tag = some c)
include hc

theorem State.respond_bad (port : Nat) {cmd : Nat} (he : k.e2e ≠ crc32c (pktBytes cmd k)) :
    s.respond port cmd k = ((s.integrity port k.addr).denied c 3).releaseWaiting := by
  rw [State.respond, hc]
  exact if_pos he

theorem State.respond_hold (port : Nat) (he : k.e2e = crc32c (pktBytes 0x13 k)) : s.respond port 0x13 k = s := by
  rw [State.respond, hc]
  dsimp only
  rw [if_neg (not_not_intro he), if_pos rfl]

theorem State.respond_granted (port : Nat) {cmd : Nat} (he : k.e2e = crc32c (pktBytes cmd k)) (hr : cmd < 0x12) (h0 : k.cause = 0) :
    s.respond port cmd k = (s.granted c k.data).releaseWaiting := by
  rw [State.respond, hc]
  dsimp only
  rw [if_neg (not_not_intro he), if_neg (by omega), if_neg (by omega)]

theorem State.respond_denied (port : Nat) {cmd : Nat} (he : k.e2e = crc32c (pktBytes cmd k)) (hr : cmd < 0x13) (h0 : k.cause ≠ 0) :
    s.respond port cmd k = (s.denied c k.cause).releaseWaiting := by
  rw [State.respond, hc]
  dsimp only
  rw [if_neg (not_not_intro he), if_neg (by omega), if_pos (Or.inr h0)]

theorem State.rctx_tag : c.tag = k.tag := by
  simpa using List.find?_some (p := fun c : RCtx => c.tag == k.tag) hc

end Respond

/-! ### The end of a request -/

theorem State.syncCtx_fld (s : State) {f : Fld} (hu : fWin_CTX_USE.apart f = true) (hp : fWin_CTX_PEAK.apart f = true) : s.syncCtx.fld f = s.fld f := by
  unfold State.syncCtx
  dsimp only
  split
  · rw [State.fld_setFld_apart _ _ rfl hp, State.fld_setFld_apart _ _ rfl hu]
  · exact State.fld_setFld_apart _ _ rfl hu

theorem State.syncCtx_frame (s : State) : s.syncCtx.fab = s.fab ∧ s.syncCtx.thr = s.thr ∧ s.syncCtx.dram = s.dram ∧ s.syncCtx.host = s.host := by
  unfold State.syncCtx
  dsimp only
  split <;> simp only [State.setFld_fab, State.setFld_thr, State.setFld_dram, State.setFld_host, and_self]

/-- The context of a request given back while no job ends. -/
theorem State.dropCtx_kept {s : State} (hj : s.host.jobEnding = none) (tag : Nat) :
    (s.dropCtx tag).rctx tag = none ∧ (∀ g ∈ (s.dropCtx tag).fab.flags, tag ∉ g.tags) ∧ (s.dropCtx tag).thr = s.thr ∧
    (s.dropCtx tag).dram = s.dram ∧
    ∀ f : Fld, fWin_CTX_USE.apart f = true → fWin_CTX_PEAK.apart f = true → (s.dropCtx tag).fld f = s.fld f := by
  generalize hu : (s.modFab fun f => { f with ctxs := f.ctxs.filter fun c => c.tag != tag, flags := f.flags.map fun g =>
    { g with tags := g.tags.filter (· != tag) } }) = u
  obtain ⟨hfab, hthr, hdram, hhost⟩ := u.syncCtx_frame
  have hdrop : s.dropCtx tag = u.syncCtx := by
    have hend : u.syncCtx.host.jobEnding = none := by rw [hhost, ← hu]; exact hj
    rw [State.dropCtx, hu, State.jobOver, hend]
  rw [hdrop, State.rctx, hfab, hthr, hdram, ← hu]
  refine ⟨?_, ?_, rfl, rfl, fun f h1 h2 => (State.syncCtx_fld _ h1 h2).trans rfl⟩
  · exact List.find?_eq_none.2 fun c hc => by
      have := (List.mem_filter.1 hc).2
      simpa using this
  · intro g hg
    obtain ⟨g', -, rfl⟩ := List.mem_map.1 hg
    simp

theorem tabFind_map {α : Type} (g : Nat → α) {l : List Nat} {j : Nat} (h : j ∈ l) : tabFind (l.map fun i => (i, g i)) j = some (g j) := by
  induction l with
  | nil => simp at h
  | cons i l ih =>
    rw [List.map_cons, tabFind]
    by_cases hij : i = j
    · rw [if_pos hij, hij]
    · rw [if_neg hij]
      exact ih ((List.mem_cons.1 h).resolve_left (Ne.symm hij))

/-- The bytes of one part that is the whole access. -/
theorem RemOp.value_placed {r : RemOp} {bs : List Byte} (hd : r.data = placed 0 bs) (hl : bs.length = r.width) : r.value = leNat bs := by
  rw [RemOp.value, hd, ← hl]
  congr 1
  refine List.ext_getElem (by simp) fun i h1 h2 => ?_
  have hi : i < bs.length := by simpa using h1
  have hp : placed 0 bs = (List.range bs.length).map fun i => (i, bs.getD i 0) := by simp [placed]
  rw [List.getElem_map, List.getElem_range, hp, tabFind_map _ (List.mem_range.2 hi)]
  simp [hi]

section RemPart
variable {s : State} {t : Tid} {r : RemOp} {i : Instr} {d : Reg} {tag : Nat} (hrem : (s.ctx t).rem = some r) (hi : (s.ctx t).instr = some i)
  (hparts : r.parts = [(tag, 0)]) (hdata : r.data = []) (hbad : r.bad = none) (hdst : r.dst = some d)
include hrem hi hparts hdata hbad hdst

/-- The last part of a load or an atomic comes with its bytes: the instruction is done. -/
theorem State.remPart_done (port : Nat) {bs : List Byte} (hl : bs.length = r.width) (hacq : r.acquire = false)
    (hstop : (s.ctx t).stopPending = false) :
    s.remPart t tag port (.inl bs) = s.setCtx t (({ s.ctx t with rem := none }).putNarrow d r.width (leNat bs)).retired := by
  generalize hr2 : ({ r with parts := [], data := placed 0 bs } : RemOp) = r2
  have hv : r2.value = leNat bs := RemOp.value_placed (by rw [← hr2]) (by rw [← hr2]; exact hl)
  have hend : s.remPart t tag port (.inl bs) = s.remEnd t i r2 := by
    rw [State.remPart, hrem, hi]
    simp only [hparts, List.find?_cons, beq_self_eq_true, List.filter_cons, bne_self_eq_false, Bool.false_eq_true, if_false, List.filter_nil,
      List.isEmpty_nil, if_true, hdata, List.append_nil, hr2]
  have hf : r2.bad = none ∧ r2.dst = some d ∧ r2.acquire = false ∧ r2.width = r.width := by rw [← hr2]; exact ⟨hbad, hdst, hacq, rfl⟩
  obtain ⟨h1, h2, h3, h4⟩ := hf
  rw [hend, State.remEnd, h1, h2]
  simp only [h3, h4, hv, Bool.false_eq_true, if_false, State.putResult]
  rw [State.settle_done i (by rw [State.ctx_modCtx_same, State.ctx_modCtx_same]; exact hstop), State.modCtx_modCtx s t, State.modCtx_setCtx]

/-- The last part of a load or an atomic is refused: the error word, and a precise fault. -/
theorem State.remPart_refused (port cause : Nat) :
    s.remPart t tag port (.inr cause) = (s.setCtx t (({ s.ctx t with rem := none }).putNarrow d r.width (errWord r.width cause port))).takeFault t
      { code := 0x23, va := r.va, errVal := true } := by
  generalize hr2 : ({ r with parts := [], data := [], bad := some (cause, port) } : RemOp) = r2
  have hend : s.remPart t tag port (.inr cause) = s.remEnd t i r2 := by
    rw [State.remPart, hrem, hi]
    simp only [hparts, List.find?_cons, beq_self_eq_true, List.filter_cons, bne_self_eq_false, Bool.false_eq_true, if_false, List.filter_nil,
      List.isEmpty_nil, if_true, hbad, Option.getD_none, hdata, hr2]
  have hf : r2.bad = some (cause, port) ∧ r2.dst = some d ∧ r2.va = r.va ∧ r2.width = r.width := by rw [← hr2]; exact ⟨rfl, hdst, rfl, rfl⟩
  obtain ⟨h1, h2, h3, h4⟩ := hf
  rw [hend, State.remEnd, h1, h2]
  simp only [h3, h4, State.remoteErr, State.settle_fault, State.putResult, State.modCtx_modCtx]

end RemPart

/-- What a fault leaves in the thread's context, and that it leaves the fabric alone. -/
theorem State.takeFault_taken (s : State) (t : Tid) (f : FaultArg) :
    ((s.takeFault t f).ctx t).rem = none ∧ ((s.takeFault t f).ctx t).late = none ∧ ((s.takeFault t f).ctx t).faultPc = (s.ctx t).pc ∧
    ((s.takeFault t f).ctx t).faultVa = f.va ∧ (s.takeFault t f).fab = s.fab := by
  have faulted : ∀ code inner, (s.toFaulted t f code inner).ctx t = (s.ctx t).faulted f code inner :=
    fun code inner => State.ctx_modCtx_same s t fun c => c.faulted f code inner
  unfold State.takeFault
  split
  · dsimp only
    split
    · rw [faulted]; exact ⟨rfl, rfl, rfl, rfl, rfl⟩
    · rw [State.ctx_modCtx_same]; exact ⟨rfl, rfl, rfl, rfl, rfl⟩
  · rw [faulted]; exact ⟨rfl, rfl, rfl, rfl, rfl⟩

theorem State.refusalNote_frame (s : State) (cause port target handle : Nat) (va : W64) :
    (s.refusalNote cause port target handle va).fab = s.fab ∧ (s.refusalNote cause port target handle va).thr = s.thr ∧
    (s.refusalNote cause port target handle va).host = s.host := by
  unfold State.refusalNote
  refine ⟨?_, ?_, ?_⟩ <;> simp only [State.setFld_fab, State.setFld_thr, State.setFld_host]

/-- The refusal as REM_LAST keeps it (Table 11.16). -/
theorem State.refusalNote_fields (s : State) {cause : Nat} (hc : cause < 256) (port target handle : Nat) (va : W64) :
    (s.refusalNote cause port target handle va).fld fWin_CAUSE = cause ∧ (s.refusalNote cause port target handle va).fld fWin_PORT = port % 16 ∧
    (s.refusalNote cause port target handle va).fld fWin_TARGET = target % 2 ^ 16 ∧
    (s.refusalNote cause port target handle va).fld fWin_REM_LAST_VA = va.toNat := by
  unfold State.refusalNote
  refine ⟨?_, ?_, ?_, ?_⟩
  · rw [State.fld_setFld_apart _ _ rfl (by decide), State.fld_setFld_apart _ _ rfl (by decide), State.fld_setFld_apart _ _ rfl (by decide),
      State.fld_setFld_apart _ _ rfl (by decide)]
    exact State.fld_setFld_fits _ rfl hc
  · rw [State.fld_setFld_apart _ _ rfl (by decide), State.fld_setFld_apart _ _ rfl (by decide), State.fld_setFld_apart _ _ rfl (by decide)]
    exact State.fld_setFld_same _ _ rfl
  · rw [State.fld_setFld_apart _ _ rfl (by decide), State.fld_setFld_apart _ _ rfl (by decide)]
    exact State.fld_setFld_same _ _ rfl
  · exact State.fld_setFld_fits _ rfl va.isLt

/-! ### Timeouts, holds, and flagged stores (R273, R276, R277, R284) -/

theorem exec_remoteTimeout_unknown {s : State} {tag : Nat} (h : s.rctx tag = none) (held : Bool) : exec (.remoteTimeout tag held) s = .next s := by
  have he : exec (.remoteTimeout tag held) s = execRemoteTimeout tag held s := rfl
  rw [he, execRemoteTimeout, h]

section Timeout
variable {s : State} {tag : Nat} {c : RCtx} (h : s.rctx tag = some c) (held : Bool)
include h

theorem exec_remoteTimeout_unsent (hu : s.unsent c = true) : exec (.remoteTimeout tag held) s = .next s := by
  have he : exec (.remoteTimeout tag held) s = execRemoteTimeout tag held s := rfl
  rw [he, execRemoteTimeout, h]
  exact congrArg _ (if_pos hu)

theorem exec_remoteTimeout (hu : s.unsent c = false) :
    exec (.remoteTimeout tag held) s = .next (((s.timedOut c).inc fWin_TIMEOUTS).denied c 1).releaseWaiting := by
  have he : exec (.remoteTimeout tag held) s = execRemoteTimeout tag held s := rfl
  rw [he, execRemoteTimeout, h]
  exact congrArg _ (if_neg (by simp [hu]))

end Timeout

theorem State.timedOut_frame (s : State) (c : RCtx) : { s.timedOut c with fab := s.fab } = s ∧ (s.timedOut c).fab.ctxs = s.fab.ctxs := by
  unfold State.timedOut
  dsimp only
  split <;> exact ⟨rfl, rfl⟩

/-- A timed-out request: the counter, and the fabric's note that the request is over. -/
theorem State.timedOut_counted (s : State) (c : RCtx) :
    ((s.timedOut c).inc fWin_TIMEOUTS).fld fWin_TIMEOUTS = (s.fld fWin_TIMEOUTS + 1) % 2 ^ 64 ∧
    { (s.timedOut c).inc fWin_TIMEOUTS with regs := s.regs, fab := s.fab } = s ∧
    ((s.timedOut c).inc fWin_TIMEOUTS).fab.ctxs = s.fab.ctxs := by
  obtain ⟨hoff, hctxs⟩ := s.timedOut_frame c
  generalize hu : s.timedOut c = u at hoff hctxs
  have hfld : u.fld fWin_TIMEOUTS = s.fld fWin_TIMEOUTS := State.fld_congr (congrArg State.regs hoff :) _
  refine ⟨?_, ?_, hctxs⟩
  · rw [State.inc, State.fld_setFld_same _ _ rfl, hfld]
    rfl
  · have h := congrArg (fun x : State => { x with regs := s.regs }) hoff
    exact h

theorem remoteStoreRefusal_taken {s : State} {t : Tid} {va : W64} (hl : (s.ctx t).late = some va) (hst : (s.ctx t).st = .ready) :
    Completes (.remoteStoreRefusal t) s fun u => (u.ctx t).late = none ∧ (u.ctx t).faultVa = va ∧ (u.ctx t).faultPc = (s.ctx t).pc := by
  have he : exec (.remoteStoreRefusal t) s =
      .next ((s.setCtx t { s.ctx t with late := none }).takeFault t { code := 0x23, va := va }) := by
    have he : exec (.remoteStoreRefusal t) s = execRemoteStoreRefusal t s := rfl
    rw [he, execRemoteStoreRefusal]
    dsimp only
    rw [hl]
    exact congrArg _ (if_pos (Or.inl hst))
  obtain ⟨-, hlate, hpc, hva, -⟩ := (s.setCtx t { s.ctx t with late := none }).takeFault_taken t { code := 0x23, va := va }
  rw [State.ctx_setCtx_same] at hpc
  exact Completes.of he ⟨hlate, hva, hpc⟩

theorem exec_holdSend_home {s : State} {tag : Nat} {r : HomeReq} (h : s.fab.homes.find? (fun h => h.id == tag) = some r) (hg : r.get = none)
    (hv : s.fld (fPort_VERSION r.port) ≠ 1) : exec (.holdSend tag) s = .next (s.send (respPkt 0x13 r.src r.job r.addr r.tag 0 [])) := by
  have he : exec (.holdSend tag) s = execHoldSend tag s := rfl
  rw [he, execHoldSend, h]
  exact congrArg _ (if_neg (by simp [hg, hv]))

theorem exec_holdSend_combiner {s : State} {tag : Nat} {q : CombReq} (h : s.fab.homes.find? (fun h => h.id == tag) = none)
    (hq : s.combReq tag = some q) (hv : s.fld (fPort_VERSION q.port) ≠ 1) :
    exec (.holdSend tag) s = .next (s.send (respPkt 0x13 q.src q.job q.addr q.tag 0 [])) := by
  have he : exec (.holdSend tag) s = execHoldSend tag s := rfl
  rw [he, execHoldSend, h, hq]
  exact congrArg _ (if_neg hv)

section Flagged
variable {s : State} {f : FlagReq} (hf : s.fab.flags = [f]) (htags : f.tags = []) (hcopies : f.copies = [])
include hf htags hcopies

theorem exec_flaggedStoreSend : exec (.flaggedStoreSend f.id) s = .next (if f.bad then
      ((s.dropFlag f.id).refusalNote 0x0D 15 f.target f.t.handle f.va).lateRefusal f.t f.va
    else match s.flagParts f f.parts with
      | (.ok, s1) => s1.dropFlag f.id
      | (.refused, s1) => (s1.dropFlag f.id).lateRefusal f.t f.va
      | (.wait left, s1) => s1.modFab fun x => { x with flags := x.flags.map fun h => if h.id = f.id then { h with parts := left } else h }) := by
  have he : exec (.flaggedStoreSend f.id) s = execFlaggedStoreSend f.id s := rfl
  have hfind : s.fab.flags.find? (fun g => g.id == f.id) = some f := by simp [hf]
  have hgo : (!((s.fab.flags.find? fun g => g.target == f.target).all fun g => g.id == f.id) || !f.tags.isEmpty || !f.copies.isEmpty) = false := by
    simp [hf, htags, hcopies]
  rw [he, execFlaggedStoreSend, hfind]
  dsimp only
  rw [hgo]
  rfl

/-- An earlier write to the target was refused: the flagged store is refused as a whole. -/
theorem flaggedStoreSend_broken (hb : f.bad = true) : Completes (.flaggedStoreSend f.id) s fun u =>
    u.fab.flags = [] ∧ u.fld fWin_CAUSE = 13 ∧ ((s.ctx f.t).st ≠ .idle → (s.ctx f.t).late = none → (u.ctx f.t).late = some f.va) := by
  refine Completes.of ((exec_flaggedStoreSend hf htags hcopies).trans (by rw [if_pos hb])) ?_
  obtain ⟨hcause, -, -, -⟩ := (s.dropFlag f.id).refusalNote_fields (cause := 0x0D) (by decide) 15 f.target f.t.handle f.va
  obtain ⟨hfab, hthr, -⟩ := (s.dropFlag f.id).refusalNote_frame 0x0D 15 f.target f.t.handle f.va
  generalize (s.dropFlag f.id).refusalNote 0x0D 15 f.target f.t.handle f.va = x at hcause hfab hthr
  have hlate : (x.lateRefusal f.t f.va).fab = x.fab ∧ (x.lateRefusal f.t f.va).regs = x.regs := by
    unfold State.lateRefusal
    split <;> exact ⟨rfl, rfl⟩
  have hctx : x.ctx f.t = s.ctx f.t := State.ctx_congr hthr f.t
  refine ⟨?_, (State.fld_congr hlate.2 _).trans hcause, fun hst hl => ?_⟩
  · rw [hlate.1, hfab]
    show s.fab.flags.filter (fun g => g.id != f.id) = []
    simp [hf]
  · rw [State.lateRefusal, if_neg (by rw [hctx]; exact hst), State.ctx_modCtx_same, hctx, hl]
    rfl

/-- A flagged store of one part to another package. -/
theorem flaggedStoreSend_sent (hb : f.bad = false) {addr q : Nat} {data : List Byte} {s1 : State} (hp : f.parts = [(addr, data)])
    (hself : s.isSelf addr = false)
    (hr : s.request (.store f.t) f.t.handle f.va (s.reqPkt 2 true addr data.length data) = (.sent q, s1)) :
    Completes (.flaggedStoreSend f.id) s fun u => u.fab.ctxs = s1.fab.ctxs ∧ u.thr = s1.thr ∧ u.regs = s1.regs := by
  obtain ⟨x, hx, hctxs, hthr, hregs⟩ : ∃ x : State, s.flagParts f f.parts = (.ok, x) ∧ x.fab.ctxs = s1.fab.ctxs ∧ x.thr = s1.thr ∧ x.regs = s1.regs := by
    rw [hp, State.flagParts, if_neg (by simp [hself]), hr]
    exact ⟨_, rfl, rfl, rfl, rfl⟩
  refine Completes.of (u := x.dropFlag f.id) ((exec_flaggedStoreSend hf htags hcopies).trans ?_) ⟨hctxs, hthr, hregs⟩
  rw [if_neg (by simp [hb]), hx]

end Flagged

theorem State.giveCredit_frame (s : State) (p vc n : Nat) : (s.giveCredit p vc n).regs = s.regs ∧ (s.giveCredit p vc n).thr = s.thr ∧
    (s.giveCredit p vc n).fab.ctxs = s.fab.ctxs ∧ (s.giveCredit p vc n).fab.late = s.fab.late := ⟨rfl, rfl, rfl, rfl⟩

/-- A response that no request waits for is counted, and its tag is no longer late. -/
theorem State.respond_late_counted (s : State) {k : Packet} (h : s.rctx k.tag = none) (port cmd : Nat) : ∃ v : State,
    s.respond port cmd k = v ∧ v.fld fWin_LATE_RESP = (s.fld fWin_LATE_RESP + 1) % 2 ^ 64 ∧ v.fab.ctxs = s.fab.ctxs ∧ v.thr = s.thr ∧
    k.tag ∉ v.fab.late := by
  generalize hu : (s.modFab fun f => { f with late := f.late.filter (· != k.tag) }) = u
  have hfld : u.fld fWin_LATE_RESP = s.fld fWin_LATE_RESP := by rw [← hu]; rfl
  have hfab : u.fab.ctxs = s.fab.ctxs ∧ u.thr = s.thr ∧ k.tag ∉ u.fab.late := by
    rw [← hu]
    exact ⟨rfl, rfl, by simp [State.modFab]⟩
  obtain ⟨h1, h2, h3⟩ := hfab
  refine ⟨u.inc fWin_LATE_RESP, by rw [State.respond_late h, hu], ?_, h1, h2, h3⟩
  rw [State.inc, State.fld_setFld_same _ _ rfl, hfld]
  rfl

/-- Settles O38: a response by where it is for and by what its context still waits for, then timeouts, holds and flagged stores. -/
theorem responsesEndRemoteRequests : Obligations.ResponsesEndRemoteRequests := by
  unfold Obligations.ResponsesEndRemoteRequests
  intro s port k hport tag rows gives
  have hown : ∀ e ∈ rows, k.src = s.pkgId → exec e.2 s = .next ((s.respond port e.1 k).giveCredit port 1 (pktSlots k)) :=
    fun e he hk => (exec_response he s).trans (congrArg _ (State.response_own hport hk))
  have hack : ((0x11 : Nat), Instr.ack port k) ∈ rows := by simp [rows]
  have hhold : ((0x13 : Nat), Instr.hold (port, k)) ∈ rows := by simp [rows]
  refine ⟨fun e he hk => (exec_response he s).trans (congrArg _ (State.response_forward hport hk)), fun e he hk hn => ?_,
    fun e he c hk hc hcrc => (hown e he hk).trans (by rw [State.respond_bad hc port hcrc]),
    fun c hk hc hcrc => (hown _ hhold hk).trans (by rw [State.respond_hold hc port hcrc]), fun c t hk hc hj => ⟨fun hu hcrc h0 => ?_, ?_⟩,
    fun held hn => exec_remoteTimeout_unknown hn held, fun c held hc => ⟨fun hu => ?_, exec_remoteTimeout_unsent hc held⟩,
    fun t va hl hst => remoteStoreRefusal_taken hl hst, fun r hr hg hv => exec_holdSend_home hr hg hv,
    fun q hn hq hv => exec_holdSend_combiner hn hq hv, fun f hf hid htags hcopies => ?_⟩
  · obtain ⟨v, hv, hcount, hctxs, hthr, hlate⟩ := s.respond_late_counted (k := k) hn port e.1
    obtain ⟨gregs, gthr, gctxs, glate⟩ := v.giveCredit_frame port 1 (pktSlots k)
    refine Completes.of (u := v.giveCredit port 1 (pktSlots k)) ((hown e he hk).trans (by rw [hv])) ⟨?_, gctxs.trans hctxs, gthr.trans hthr, ?_⟩
    · exact (State.fld_congr gregs _).trans hcount
    · rw [glate]; exact hlate
  · obtain ⟨hr, hflags, hthr, hdram, -⟩ := State.dropCtx_kept hj tag
    refine ⟨s.dropCtx tag, ?_, hr, hflags, hthr, hdram⟩
    refine (hown _ hack hk).trans ?_
    rw [State.respond_granted hc port hcrc (by decide) h0, State.granted, hu, State.rctx_tag hc]
  · intro r i d hu hrem hi hparts hdata hbad hdst hstop
    obtain ⟨hr, -, hthr, -, hfld⟩ := State.dropCtx_kept hj tag
    refine ⟨fun e he hlt hcrc h0 hl hacq => ?_, fun e he hlt hcrc h0 hcause => ?_⟩
    · generalize hx : s.dropCtx tag = x at hr hthr hfld
      have hctx : x.ctx t = s.ctx t := State.ctx_congr hthr t
      have hdone := State.remPart_done (s := x) (t := t) (by rw [hctx]; exact hrem) (by rw [hctx]; exact hi) hparts hdata hbad hdst c.port hl hacq
        (by rw [hctx]; exact hstop)
      have hg : s.granted c k.data = x.remPart t tag c.port (.inl k.data) := by
        rcases hu with hu | hu <;> rw [State.granted, hu, State.rctx_tag hc, hx]
      refine ⟨x.remPart t tag c.port (.inl k.data), ?_, ?_⟩
      · exact (hown e he hk).trans (by rw [State.respond_granted hc port hcrc hlt h0, hg])
      · obtain ⟨hres, -⟩ := Ctx.putNarrow_ga { x.ctx t with rem := none } d r.width (leNat k.data)
        rw [hdone, State.ctx_setCtx_same]
        exact ⟨hr, rfl, rfl, by rw [← hctx]; rfl, hres⟩
    · obtain ⟨hn1, hn2, hn3⟩ := s.refusalNote_frame k.cause c.port c.target c.handle c.va
      obtain ⟨hf1, hf2, hf3, hf4⟩ := s.refusalNote_fields hcause c.port c.target c.handle c.va
      generalize hnote : s.refusalNote k.cause c.port c.target c.handle c.va = n at hn1 hn2 hn3 hf1 hf2 hf3 hf4
      obtain ⟨hr, -, hthr, -, hfld⟩ := State.dropCtx_kept (s := n) (by rw [hn3]; exact hj) tag
      generalize hx : n.dropCtx tag = x at hr hthr hfld
      have hctx : x.ctx t = s.ctx t := State.ctx_congr (hthr.trans hn2) t
      have href := State.remPart_refused (s := x) (t := t) (by rw [hctx]; exact hrem) (by rw [hctx]; exact hi) hparts hdata hbad hdst c.port k.cause
      have hg : s.denied c k.cause = x.remPart t tag c.port (.inr k.cause) := by
        rcases hu with hu | hu <;>
          (rw [State.denied]
           simp only [hu, State.rctx_tag hc, hnote]
           rw [← hx])
      generalize hy : x.setCtx t (({ x.ctx t with rem := none }).putNarrow d r.width (errWord r.width k.cause c.port)) = y at href
      have hyf : y.fab = x.fab ∧ y.regs = x.regs := by rw [← hy]; exact ⟨rfl, rfl⟩
      have hyc : y.ctx t = ({ x.ctx t with rem := none }).putNarrow d r.width (errWord r.width k.cause c.port) := by
        rw [← hy, State.ctx_setCtx_same]
      obtain ⟨hrem0, -, hpc, hva, hfab⟩ := y.takeFault_taken t { code := 0x23, va := r.va, errVal := true }
      obtain ⟨ha, -, -, -⟩ := y.takeFault_ctx t { code := 0x23, va := r.va, errVal := true }
      obtain ⟨hregs, -⟩ := y.takeFault_frame t { code := 0x23, va := r.va, errVal := true }
      rw [← href] at hrem0 hpc hva hfab ha hregs
      have hwin : ∀ f : Fld, fWin_CTX_USE.apart f = true → fWin_CTX_PEAK.apart f = true →
          (x.remPart t tag c.port (.inr k.cause)).fld f = n.fld f := fun f h1 h2 =>
        (State.fld_congr (hregs.trans hyf.2) f).trans (hfld f h1 h2)
      refine ⟨x.remPart t tag c.port (.inr k.cause), ?_, ?_⟩
      · exact (hown e he hk).trans (by rw [State.respond_denied hc port hcrc hlt h0, hg])
      · obtain ⟨hres, -⟩ := Ctx.putNarrow_ga { x.ctx t with rem := none } d r.width (errWord r.width k.cause c.port)
        refine ⟨?_, hrem0, ?_, ?_, ?_, ?_, ?_, hva, ?_⟩
        · rw [State.rctx, hfab, hyf.1]; exact hr
        · rw [hwin _ (by decide) (by decide), hf1]
        · rw [hwin _ (by decide) (by decide), hf2]
        · rw [hwin _ (by decide) (by decide), hf3]
        · rw [hwin _ (by decide) (by decide), hf4]
        · rw [hpc, hyc, ← hctx]; rfl
        · simpa only [Ctx.ga, ha, hyc] using hres
  · obtain ⟨h1, h2, h3⟩ := s.timedOut_counted c
    exact ⟨_, h1, h2, h3, exec_remoteTimeout hc held hu⟩
  · rw [← hid]
    exact ⟨flaggedStoreSend_broken hf htags hcopies, fun hb _ _ _ _ hp hself hr => flaggedStoreSend_sent hf htags hcopies hb hp hself hr⟩

end Sys2Proof.Machine
end

section
/-! # Ports and flits -/
namespace Sys2Proof.Machine

/-! ### The register page of a port (Table 11.15) -/

/-- Fields of one page are apart as they are on page 0. -/
theorem Fld.apart_same_page {f g : Fld} (hp : f.page = g.page) (h : ({ f with page := 0 } : Fld).apart { g with page := 0 } = true) :
    f.apart g = true := by
  simp only [Fld.apart, Fld.key, Fld.sh, Fld.w, Bool.or_eq_true, decide_eq_true_eq, Nat.zero_mul, Nat.zero_add] at h ⊢
  rcases h with (h | h) | h
  · exact Or.inl (Or.inl (decide_eq_true fun hk => h (by omega)))
  · exact Or.inl (Or.inr h)
  · exact Or.inr h

theorem pageBlk_port (p : Fin 16) : pageBlk (0x040 + p.val) = some (.port, p.val) := by
  fin_cases p <;> rfl

theorem State.fld_of_cell {s u : State} {f : Fld} (h : u.cell f.key = s.cell f.key) : u.fld f = s.fld f := by
  rw [State.fld, State.fld, h]

/-- The bits that lie in one of the ports' control fields beside EN and RETRAIN. -/
theorem portCtl_bits {c v : Nat} (h : v / 4 = c % 2 ^ 32 / 4) : BitVec.ofNat 64 v &&& 0xFC = BitVec.ofNat 64 c &&& (0xFC : W64) := by
  refine BitVec.eq_of_getLsbD_eq fun i hi => ?_
  rw [BitVec.getLsbD_and, BitVec.getLsbD_and, BitVec.getLsbD_ofNat, BitVec.getLsbD_ofNat]
  by_cases hr : 2 ≤ i ∧ i < 32
  · have hbit : ∀ n : Nat, n.testBit i = (n / 2 ^ 2).testBit (i - 2) := fun n => by
      rw [Nat.testBit_div_two_pow, show i - 2 + 2 = i by omega]
    have hc : c.testBit i = (c % 2 ^ 32).testBit i := by rw [Nat.testBit_mod_two_pow]; simp [hr.2]
    rw [hc, hbit v, hbit (c % 2 ^ 32), show 2 ^ 2 = 4 from rfl, h]
  · have hz : (0xFC : W64).getLsbD i = false := by
      revert hr
      revert i
      decide
    rw [hz, Bool.and_false, Bool.and_false]

section PortWrite
variable (s : State) {ag : Agent} (p : Fin 16) {e : Nat} (he : e < 4)
include he

/-- The write of a port's control register that keeps the fields beside EN and RETRAIN changes no cell of itself. -/
theorem State.portCtl_cell (k : Nat) :
    (s.plainWrite .port p (wrOf ag (0x040 + p) 0x40 4 (s.portCtl p + e))).cell k = s.cell k := by
  generalize hw : wrOf ag (0x040 + p) 0x40 4 (s.portCtl p + e) = w
  have hkey : w.page * 512 + w.c = (0x040 + p) * 512 + 8 := by rw [← hw]; rfl
  by_cases hk : k = w.page * 512 + w.c
  · have hclr : w.clrBits = 0 := by
      rw [← hw]
      exact Wr.clrBits_no_w1c (by rw [cellMask_body (pageBlk_port p) (by decide)]; decide +kernel)
    have hset : s.setBits .port p w &&& 0xFC = s.setBits .port p w := by
      rw [← hw]
      refine State.setBits_and (held := [fPort_EN p]) 0xFC rfl (by decide) fun l => ?_
      have hm : fldMask ((0x040 + p.val) * 512 + 0x40 / 8) [fPort_EN p] = 1 := by
        simp [fldMask, fPort_EN, Fld.key, Fld.w, Fld.sh]
      rw [cellMask_body (pageBlk_port p) (by decide), hm]
      cases l <;> decide +kernel
    have hfield : s.fld ⟨0x040 + p, 0x40, 31, 0⟩ = (s.cell ((0x040 + p) * 512 + 8)).toNat % 2 ^ 32 := by
      simp [State.fld, Fld.key, Fld.sh, Fld.w]
    have hv : w.v / 4 = (s.cell (w.page * 512 + w.c)).toNat % 2 ^ 32 / 4 := by
      rw [hkey, ← hfield, ← hw]
      have hlt : s.fld ⟨0x040 + p, 0x40, 31, 0⟩ < 2 ^ 32 := State.fld_lt s _
      simp only [wrOf, State.portCtl, Nat.shiftLeft_zero, Nat.reduceMul, Nat.reduceMod, Nat.zero_mul]
      rw [Nat.mod_eq_of_lt (by omega)]
      omega
    have hbits : BitVec.ofNat 64 w.v &&& s.setBits .port p w = s.cell (w.page * 512 + w.c) &&& s.setBits .port p w := by
      have h := portCtl_bits hv
      rw [BitVec.ofNat_toNat, BitVec.setWidth_eq] at h
      rw [← hset, BitVec.and_comm (s.setBits _ _ _), ← BitVec.and_assoc, ← BitVec.and_assoc, h]
    have hid : ∀ a m : W64, (a &&& ~~~m) ||| (a &&& m) = a := fun a m => by
      ext n hn
      simp only [BitVec.getElem_or, BitVec.getElem_and, BitVec.getElem_not]
      cases a[n] <;> cases m[n] <;> rfl
    rw [hk, State.plainWrite_cell, hclr, show s.setBits .port p w ||| 0 = s.setBits .port p w from BitVec.or_zero, hbits, hid]
  · exact s.plainWrite_cell_ne .port p w hk

/-- A write of a port's control register is the action of its EN and RETRAIN bits, on a state with the same register cells. -/
theorem State.portWrite (hag : s.agentUp ag = true) : ∃ x : State, (∀ f, x.fld f = s.fld f) ∧ { x with regs := s.regs } = s ∧
    s.agentWrite ag (0x040 + p) 0x40 4 (s.portCtl p + e) =
      State.onSet (if e % 2 = 1 then (if x.flag (fPort_EN p) then x else (x.setFlag (fPort_EN p) true).portEn p)
        else (x.setFlag (fPort_EN p) false).portDis p) (wrOf ag (0x040 + p) 0x40 4 (s.portCtl p + e)) (fPort_RETRAIN p) (fun t => t.portRetr p) := by
  refine ⟨s.plainWrite .port p (wrOf ag (0x040 + p) 0x40 4 (s.portCtl p + e)), fun f => State.fld_of_cell (s.portCtl_cell p he _),
    s.plainWrite_others .port p _, ?_⟩
  have hlt : s.fld ⟨0x040 + p, 0x40, 31, 0⟩ < 2 ^ 32 := State.fld_lt s _
  have hen : (wrOf ag (0x040 + p) 0x40 4 (s.portCtl p + e)).get (fPort_EN p) = some (e % 2) :=
    wrOf_get ag rfl rfl (show 0 < 1 by decide) (show 0 + 1 ≤ 32 by decide) (by
      show (s.portCtl p + e) / 2 ^ 0 % 2 ^ 1 = e % 2
      rw [State.portCtl]
      omega)
  rw [State.agentWrite_eq _ hag rfl (by decide), s.regWrite_eq ag 0x40 4 _ (pageBlk_port p), State.headActs_body _ _ _ (by simp [wrOf])]
  show State.onSet (State.on _ _ _ _) _ _ _ = _
  rw [State.on_some hen]

theorem portCtl_retrain : (wrOf ag (0x040 + p) 0x40 4 (s.portCtl p + e)).get (fPort_RETRAIN p) = some (e / 2) :=
  wrOf_get ag rfl rfl (show 0 < 1 by decide) (show 1 + 1 ≤ 32 by decide) (by
    show (s.portCtl p + e) / 2 ^ 1 % 2 ^ 1 = e / 2
    rw [State.portCtl]
    omega)

end PortWrite

/-! ### The states of a port (Table 11.14) -/

section PortFields
variable (p : Nat)

/-- The fields of one port, each apart from another. -/
theorem fPort_apart {off hi lo off' hi' lo' : Nat} (h : (⟨0, off, hi, lo⟩ : Fld).apart ⟨0, off', hi', lo'⟩ = true) :
    (⟨0x040 + p, off, hi, lo⟩ : Fld).apart ⟨0x040 + p, off', hi', lo'⟩ = true := Fld.apart_same_page rfl h

theorem fPort_ok {off hi lo : Nat} (h : (⟨0, off, hi, lo⟩ : Fld).ok = true) : (⟨0x040 + p, off, hi, lo⟩ : Fld).ok = true := h

variable (s : State)

theorem State.clearLink_fld {f : Fld} (hv : (fPort_VERSION p).apart f = true) (hl : (fPort_LANES p).apart f = true) (he : (fPort_ENC p).apart f = true)
    (hm : (fPort_ENC_MISMATCH p).apart f = true) (hp : (fPort_PEER_PKG p).apart f = true) : (s.clearLink p).fld f = s.fld f := by
  rw [State.clearLink, State.fld_setFld_apart _ _ (by exact fPort_ok p rfl) hp, State.fld_setFlag_apart _ _ (by exact fPort_ok p rfl) hm,
    State.fld_setFlag_apart _ _ (by exact fPort_ok p rfl) he, State.fld_setFld_apart _ _ (by exact fPort_ok p rfl) hl,
    State.fld_setFld_apart _ _ (by exact fPort_ok p rfl) hv]

theorem State.setPortState_port (st q : Nat) : (s.setPortState p st).port q = s.port q := rfl

theorem State.port_of_fab {s u : State} (h : u.fab = s.fab) (q : Nat) : u.port q = s.port q := by rw [State.port, State.port, h]

theorem State.fld_setPort (q : Nat) (x : Port) (f : Fld) : (s.setPort q x).fld f = s.fld f := rfl

theorem State.fld_modPort (q : Nat) (g : Port → Port) (f : Fld) : (s.modPort q g).fld f = s.fld f := rfl

theorem State.port_modPort_same (g : Port → Port) : (s.modPort p g).port p = g (s.port p) := tabGet_set_same ..

theorem State.port_setPort_same (x : Port) : (s.setPort p x).port p = x := tabGet_set_same ..

theorem State.portState_setPortState {st : Nat} (hst : st < 8) : (s.setPortState p st).portState p = st := by
  rw [State.portState, State.setPortState_same]
  exact Nat.mod_eq_of_lt hst

/-- A port without packets that wait stops. -/
theorem State.stopPort_empty (st : Nat) (hw : (s.port p).waiting = []) :
    s.stopPort p st = ((s.clearLink p).setPortState p st).setPort p Port.fresh := by
  rw [State.stopPort, hw]
  rfl

theorem State.stopPort_fields {st : Nat} (hst : st < 8) (hw : (s.port p).waiting = []) : (s.stopPort p st).portState p = st ∧
    (s.stopPort p st).port p = Port.fresh ∧ (s.stopPort p st).fld (fPort_EN p) = s.fld (fPort_EN p) ∧
    (s.stopPort p st).fld fSafe_FAULT = s.fld fSafe_FAULT := by
  have hpage : ∀ off hi lo, (⟨0x040 + p, off, hi, lo⟩ : Fld).apart fSafe_FAULT = true := fun off hi lo => by
    simp only [Fld.apart, fSafe_FAULT, Fld.key, Fld.sh, Fld.w, Bool.or_eq_true]
    exact Or.inl (Or.inl (decide_eq_true (by omega)))
  rw [s.stopPort_empty p st hw]
  refine ⟨?_, State.port_setPort_same _ _ _, ?_, ?_⟩
  · rw [State.portState, State.fld_setPort]
    exact State.portState_setPortState _ _ hst
  · rw [State.fld_setPort, State.setPortState_fld _ _ _ (by exact fPort_apart p (by decide)),
      State.clearLink_fld _ _ (by exact fPort_apart p (by decide)) (by exact fPort_apart p (by decide)) (by exact fPort_apart p (by decide)) (by exact fPort_apart p (by decide))
        (by exact fPort_apart p (by decide))]
  · rw [State.fld_setPort, State.setPortState_fld _ _ _ (hpage _ _ _),
      State.clearLink_fld _ _ (hpage _ _ _) (hpage _ _ _) (hpage _ _ _) (hpage _ _ _) (hpage _ _ _)]

end PortFields

theorem State.onSet_get {s : State} {w : Wr} {f : Fld} {x : Nat} (h : w.get f = some x) (g : State → State) :
    s.onSet w f g = if x = 0 then s else g s := by
  rw [State.onSet, State.on_some h]

section PortCommands
variable {s : State} {ag : Agent} (p : Fin 16) (hag : s.agentUp ag = true)
include hag

theorem portEnable_trains (hen : s.flag (fPort_EN p) = false) (hst : s.portState p = 0) (hb : 6 ≤ s.fld fBoot_STAGE) :
    Completes (.portEnable ag p) s fun u =>
      u.flag (fPort_EN p) = true ∧ u.portState p = 1 ∧ u.fld (fPort_ENC_POL p) = s.fld (fPort_ENC_POL p) := by
  obtain ⟨x, hfld, -, hw⟩ := s.portWrite p (e := 1) (by decide) hag
  have hx : x.flag (fPort_EN p) = false := by rw [State.flag, hfld]; exact hen
  have hpage : (fPort_EN p).apart fBoot_STAGE = true := by
    simp only [Fld.apart, fBoot_STAGE, fPort_EN, Fld.key, Fld.sh, Fld.w, Bool.or_eq_true]
    exact Or.inl (Or.inl (decide_eq_true (by omega)))
  have hact : (x.setFlag (fPort_EN p) true).portEn p = ((x.setFlag (fPort_EN p) true).setPortState p 1).setPort p Port.fresh := by
    refine if_pos ⟨?_, ?_⟩
    · rw [State.portState, State.fld_setFlag_apart _ _ (by exact fPort_ok p rfl) (by exact fPort_apart p (by decide)), hfld]
      exact hst
    · rw [State.fld_setFlag_apart _ _ (by exact fPort_ok p rfl) hpage, hfld]
      exact hb
  refine Completes.of (u := ((x.setFlag (fPort_EN p) true).setPortState p 1).setPort p Port.fresh) ?_ ⟨?_, ?_, ?_⟩
  · have he : exec (.portEnable ag p) s = .next (s.agentWrite ag (0x040 + p.val) 0x40 4 (s.portCtl p + 1)) := rfl
    rw [he, hw, if_pos rfl, if_neg (by simp [hx]), State.onSet_get (portCtl_retrain s p (by decide)), hact]
    rfl
  · rw [State.flag, State.fld_setPort, State.setPortState_fld _ _ _ (by exact fPort_apart p (by decide))]
    exact State.flag_setFlag_same _ _ (fPort_ok p rfl) rfl
  · rw [State.portState, State.fld_setPort]
    exact State.portState_setPortState _ _ (by decide)
  · rw [State.fld_setPort, State.setPortState_fld _ _ _ (by exact fPort_apart p (by decide)), State.fld_setFlag_apart _ _ (by exact fPort_ok p rfl) (by exact fPort_apart p (by decide)), hfld]

theorem exec_portDisable (hst : s.portState p ≠ 0) (hwait : (s.port p).waiting = []) : ∃ v : State,
    exec (.portDisable ag p) s = .next v.hzEdges.releaseWaiting ∧
      v.flag (fPort_EN p) = false ∧ v.portState p = 0 ∧ v.port p = Port.fresh := by
  obtain ⟨x, hfld, hoff, hw⟩ := s.portWrite p (e := 0) (by decide) hag
  have hxp : (x.setFlag (fPort_EN p) false).port p = s.port p := (congrArg (fun z : State => z.port p) hoff :)
  have hstx : (x.setFlag (fPort_EN p) false).portState p = s.portState p := by
    rw [State.portState, State.fld_setFlag_apart _ _ (by exact fPort_ok p rfl) (by exact fPort_apart p (by decide)), hfld]
    rfl
  obtain ⟨h1, h2, h3, -⟩ := (x.setFlag (fPort_EN p) false).stopPort_fields p (st := 0) (by decide) (by rw [hxp]; exact hwait)
  refine ⟨(x.setFlag (fPort_EN p) false).stopPort p 0, ?_, ?_, h1, h2⟩
  · have he : exec (.portDisable ag p) s = .next (s.agentWrite ag (0x040 + p.val) 0x40 4 (s.portCtl p)) := rfl
    have hdis : (x.setFlag (fPort_EN p) false).portDis p = ((x.setFlag (fPort_EN p) false).stopPort p 0).hzEdges.releaseWaiting :=
      if_neg (by rw [hstx]; exact hst)
    have hr := portCtl_retrain (ag := ag) s p (e := 0) (by decide)
    rw [Nat.add_zero] at hw hr
    rw [he, hw, if_neg (by decide), State.onSet_get hr, hdis]
    rfl
  · rw [State.flag, h3]
    exact State.flag_setFlag_same _ _ (fPort_ok p rfl) rfl

theorem portRetrain_acts (hen : s.flag (fPort_EN p) = true) : Completes (.portRetrain ag p) s fun u =>
    u.portState p = (if s.portState p = 2 then 3 else if s.portState p = 4 then 1 else s.portState p) ∧
    (u.port p).replay = (s.port p).replay ∧
    u.fld (fPort_RETRAINS p) = (if s.portState p = 2 then min (s.fld (fPort_RETRAINS p) + 1) (2 ^ 32 - 1) else s.fld (fPort_RETRAINS p)) := by
  have hone : s.fld (fPort_EN p) = 1 := by
    have h0 : s.fld (fPort_EN p) ≠ 0 := by simpa [State.flag] using hen
    have hlt : s.fld (fPort_EN p) < 2 ^ 1 := s.fld_lt _
    omega
  obtain ⟨x, hfld, hoff, hw⟩ := s.portWrite p (e := 3) (by decide) hag
  have hx : x.flag (fPort_EN p) = true := by rw [State.flag, hfld]; exact hen
  have hst : x.portState p = s.portState p := hfld _
  have hret : x.fld (fPort_RETRAINS p) = s.fld (fPort_RETRAINS p) := hfld _
  have hxp : x.port p = s.port p := (congrArg (fun z : State => z.port p) hoff :)
  have he : exec (.portRetrain ag p) s = .next (x.portRetr p) := by
    have he : exec (.portRetrain ag p) s = .next (s.agentWrite ag (0x040 + p.val) 0x40 4 (s.portCtl p + 2 + s.fld (fPort_EN p))) := rfl
    rw [he, hone, Nat.add_assoc, hw, if_pos rfl, if_pos hx, State.onSet_get (portCtl_retrain s p (by decide))]
    rfl
  refine Completes.of he ?_
  rw [← hst, ← hret, ← hxp]
  by_cases h2 : x.portState p = 2
  · have hr : x.portRetr p = x.retrainPort p := if_pos h2
    obtain ⟨hf1, hf2⟩ := x.retrainPort_fields p p
    rw [hr, if_pos h2, if_pos h2]
    refine ⟨hf1.trans (if_pos rfl), ?_, hf2.trans (if_pos rfl)⟩
    rw [State.retrainPort, State.port_modPort_same, State.port_of_fab (State.addSat_fab _ _ _), State.setPortState_port]
  · rw [if_neg h2, if_neg h2]
    by_cases h4 : x.portState p = 4
    · have hr : x.portRetr p = ((x.setFlag (fPort_ENC_MISMATCH p) false).setPortState p 1).modPort p fun y => { y with trainFails := 0 } := by
        rw [State.portRetr, if_neg h2, if_pos h4]
      rw [hr, if_pos h4]
      refine ⟨?_, ?_, ?_⟩
      · rw [State.portState, State.fld_modPort]
        exact State.portState_setPortState _ _ (by decide)
      · rw [State.port_modPort_same, State.setPortState_port, State.port_of_fab (State.setFlag_fab _ _ _)]
      · rw [State.fld_modPort, State.setPortState_fld _ _ _ (by exact fPort_apart p (by decide)), State.fld_setFlag_apart _ _ (by exact fPort_ok p rfl) (by exact fPort_apart p (by decide))]
    · have hr : x.portRetr p = x := by rw [State.portRetr, if_neg h2, if_neg h4]
      rw [hr, if_neg h4]
      exact ⟨rfl, rfl, rfl⟩

end PortCommands

/-! ### A port that goes down -/

/-- A detection without reaction marks the record alone. -/
theorem State.report_recovered (s : State) {d : Det} (hr : d.react = 0) (ev : Option (Nat × EvKind)) (f : Fld) :
    (s.report d ev).fld f = (s.logRecord d).2.fld f := by
  have hcommit : ∀ (z : State) (bs : List Byte), z.commitSafeLast d bs = z := fun z bs => if_neg (by simp [hr])
  have hev : ∀ (z : State) (l : Nat) (k : EvKind) (a b : W64) (bs : List Byte), (z.event l k a b bs).fld f = z.fld f :=
    fun z l k a b bs => State.fld_congr (State.event_regs ..) _
  unfold State.report
  simp only [hr, hcommit, Nat.reduceLeDiff, if_false, Nat.zero_ne_one, Nat.reduceEqDiff]
  split
  · rfl
  · split
    · exact hev _ _ _ _ _ _
    · rfl

theorem State.logRecord_fault (s : State) {d : Det} (hr : d.react = 0) : (s.logRecord d).2.fld fSafe_FAULT = s.fld fSafe_FAULT := by
  unfold State.logRecord
  simp only [hr, Nat.reduceLeDiff, if_false]
  split
  · rw [State.fld_setFlag_apart _ _ rfl (by decide), State.fld_setFld_apart _ _ rfl (by decide), State.fld_setFld_apart _ _ rfl (by decide),
      State.fld_setFld_apart _ _ rfl (by decide), State.fld_congr (State.putBar_regs ..)]
    rfl
  · rw [State.fld_setFld_apart _ _ rfl (by decide), State.fld_setFld_apart _ _ rfl (by decide),
      State.fld_setFld_apart _ _ rfl (by decide), State.fld_congr (State.putBar_regs ..)]
    rfl

theorem State.report_fab (s : State) (d : Det) (ev : Option (Nat × EvKind)) : (s.report d ev).fab = s.fab :=
  (congrArg State.fab (s.offReport_report d ev) :)

/-- A port without packets that wait goes DOWN: a record of class 0x43. -/
theorem State.portDown_recorded (s : State) (p : Nat) (hw : (s.port p).waiting = []) : ∃ v : State, s.portDown p = v.hzEdges.releaseWaiting ∧
    v.portState p = 4 ∧ v.port p = Port.fresh ∧ v.fld fSafe_LAST_CLASS = 0x43 ∧ v.fld fSafe_LAST_REACT = 0 ∧
    v.flag fSafe_FAULT = s.flag fSafe_FAULT := by
  obtain ⟨h1, h2, -, h4⟩ := s.stopPort_fields p (st := 4) (by decide) hw
  obtain ⟨hc, hr, -⟩ := (s.stopPort p 4).reportR_last 0x43 (0x040 + p) p 0 0 (by decide)
  have hrec : ∀ f, ((s.stopPort p 4).report { cls := 0x43, react := 0, page := 0x040 + p, unit := p } (some (logFail, .portDown))).fld f =
      ((s.stopPort p 4).reportR 0x43 (0x040 + p) p 0 0).fld f := fun f =>
    (State.report_recovered _ rfl _ f).trans (State.report_recovered _ rfl _ f).symm
  have hfault := (State.report_recovered (s.stopPort p 4) (d := { cls := 0x43, react := 0, page := 0x040 + p, unit := p }) rfl
    (some (logFail, .portDown)) fSafe_FAULT).trans ((State.logRecord_fault _ rfl).trans h4)
  have hfree : (fPort_STATE p).ReportFree := by
    have hk : (fPort_STATE p).key = (0x040 + p) * 512 + 8 := by simp [fPort_STATE, Fld.key]
    refine ⟨by rw [hk]; omega, by rw [hk]; omega, ?_⟩
    simp only [Fld.apart, fPst_BUSY, fPort_STATE, Fld.key, Fld.sh, Fld.w, Bool.or_eq_true]
    exact Or.inl (Or.inl (decide_eq_true (by omega)))
  refine ⟨_, rfl, ?_, ?_, (hrec _).trans hc, (hrec _).trans hr, ?_⟩
  · rw [State.portState, State.report_fld _ _ _ hfree]
    exact h1
  · rw [State.port, State.report_fab]
    exact h2
  · rw [State.flag, hfault, State.flag]

/-! ### Training (R286) -/

/-- The fields of a link that has trained (Table 11.15). -/
def State.linkSet (s : State) (p ver lanes : Nat) (e : Bool) (peer : Nat) : State :=
  (((((s.setPortState p 2).setFld (fPort_VERSION p) ver).setFld (fPort_LANES p) lanes).setFlag (fPort_ENC p) e).setFlag
    (fPort_ENC_MISMATCH p) false).setFld (fPort_PEER_PKG p) peer

section LinkSet
variable (s : State) (p ver lanes : Nat) (e : Bool) (peer : Nat)

theorem State.linkSet_port : (s.linkSet p ver lanes e peer).port p = s.port p := by
  unfold State.linkSet State.setFlag
  rw [State.port_of_fab (State.setFld_fab _ _ _), State.port_of_fab (State.setFld_fab _ _ _), State.port_of_fab (State.setFld_fab _ _ _),
    State.port_of_fab (State.setFld_fab _ _ _), State.port_of_fab (State.setFld_fab _ _ _), State.setPortState_port]

theorem State.linkSet_state : (s.linkSet p ver lanes e peer).portState p = 2 := by
  unfold State.linkSet State.portState
  rw [State.fld_setFld_apart _ _ (by exact fPort_ok p rfl) (by exact fPort_apart p (by decide)),
    State.fld_setFlag_apart _ _ (by exact fPort_ok p rfl) (by exact fPort_apart p (by decide)),
    State.fld_setFlag_apart _ _ (by exact fPort_ok p rfl) (by exact fPort_apart p (by decide)),
    State.fld_setFld_apart _ _ (by exact fPort_ok p rfl) (by exact fPort_apart p (by decide)),
    State.fld_setFld_apart _ _ (by exact fPort_ok p rfl) (by exact fPort_apart p (by decide))]
  exact State.portState_setPortState _ _ (by decide)

theorem State.linkSet_version (hv : ver < 4) : (s.linkSet p ver lanes e peer).fld (fPort_VERSION p) = ver := by
  unfold State.linkSet
  rw [State.fld_setFld_apart _ _ (by exact fPort_ok p rfl) (by exact fPort_apart p (by decide)),
    State.fld_setFlag_apart _ _ (by exact fPort_ok p rfl) (by exact fPort_apart p (by decide)),
    State.fld_setFlag_apart _ _ (by exact fPort_ok p rfl) (by exact fPort_apart p (by decide)),
    State.fld_setFld_apart _ _ (by exact fPort_ok p rfl) (by exact fPort_apart p (by decide))]
  exact State.fld_setFld_fits _ (fPort_ok p rfl) hv

theorem State.linkSet_lanes (hl : lanes < 8) : (s.linkSet p ver lanes e peer).fld (fPort_LANES p) = lanes := by
  unfold State.linkSet
  rw [State.fld_setFld_apart _ _ (by exact fPort_ok p rfl) (by exact fPort_apart p (by decide)),
    State.fld_setFlag_apart _ _ (by exact fPort_ok p rfl) (by exact fPort_apart p (by decide)),
    State.fld_setFlag_apart _ _ (by exact fPort_ok p rfl) (by exact fPort_apart p (by decide))]
  exact State.fld_setFld_fits _ (fPort_ok p rfl) hl

theorem State.linkSet_enc : (s.linkSet p ver lanes e peer).flag (fPort_ENC p) = e := by
  unfold State.linkSet State.flag
  rw [State.fld_setFld_apart _ _ (by exact fPort_ok p rfl) (by exact fPort_apart p (by decide)),
    State.fld_setFlag_apart _ _ (by exact fPort_ok p rfl) (by exact fPort_apart p (by decide))]
  exact State.flag_setFlag_same _ _ (fPort_ok p rfl) rfl

theorem State.linkSet_peer (hp : peer < 2 ^ 16) : (s.linkSet p ver lanes e peer).fld (fPort_PEER_PKG p) = peer := by
  unfold State.linkSet
  exact State.fld_setFld_fits _ (fPort_ok p rfl) hp

theorem State.linkSet_replay : (s.linkSet p ver lanes e peer).fld (fPort_FLIT_REPLAY p) = s.fld (fPort_FLIT_REPLAY p) := by
  unfold State.linkSet
  rw [State.fld_setFld_apart _ _ (by exact fPort_ok p rfl) (by exact fPort_apart p (by decide)),
    State.fld_setFlag_apart _ _ (by exact fPort_ok p rfl) (by exact fPort_apart p (by decide)),
    State.fld_setFlag_apart _ _ (by exact fPort_ok p rfl) (by exact fPort_apart p (by decide)),
    State.fld_setFld_apart _ _ (by exact fPort_ok p rfl) (by exact fPort_apart p (by decide)),
    State.fld_setFld_apart _ _ (by exact fPort_ok p rfl) (by exact fPort_apart p (by decide)),
    State.setPortState_fld _ _ _ (by exact fPort_apart p (by decide))]

end LinkSet

theorem linkLanes_lt (b : BitVec 4) : linkLanes b < 8 := by
  unfold linkLanes
  split_ifs <;> decide

theorem State.trains_of {s : State} {p : Nat} (h : s.portState p = 1 ∨ s.portState p = 3) : s.trains p = true := by
  simpa [State.trains] using h

theorem State.fld_draw (s : State) (f : Fld) : s.draw.2.fld f = s.fld f := rfl
theorem State.port_draw (s : State) (p : Nat) : s.draw.2.port p = s.port p := rfl

section Training
variable {s : State} (p : Fin 16) (hst : s.portState p = 1 ∨ s.portState p = 3)
include hst

theorem exec_portTrainingDone_mismatch (v2 : Bool) {lanes : BitVec 4} (peer : BitVec 16) (enc : Bool) (hl : linkLanes lanes ≠ 0)
    (hpol : s.fld (fPort_ENC_POL p) = 2) (he : (enc && v2 && s.fld (fPort_ENC_POL p) != 0) = false) :
    exec (.portTrainingDone p v2 lanes peer enc) s = .next ((s.portDown p).setFlag (fPort_ENC_MISMATCH p) true) := by
  have hx : exec (.portTrainingDone p v2 lanes peer enc) s = execPortTrainingDone p v2 lanes peer enc s := rfl
  rw [hx, execPortTrainingDone]
  dsimp only
  rw [State.trains_of hst, if_neg (by decide), if_neg hl, if_pos ⟨hpol, by simp [he]⟩]
  rfl

/-- The state before the link's queue flows again. -/
theorem exec_portTrainingDone (v2 : Bool) {lanes : BitVec 4} (peer : BitVec 16) (enc : Bool) (hl : linkLanes lanes ≠ 0)
    (hok : ¬(s.fld (fPort_ENC_POL p) = 2 ∧ (enc && v2 && s.fld (fPort_ENC_POL p) != 0) = false)) : ∃ v : State,
    exec (.portTrainingDone p v2 lanes peer enc) s = .next (v.pump p) ∧ v.portState p = 2 ∧
      v.fld (fPort_VERSION p) = (if v2 then 2 else 1) ∧ v.fld (fPort_LANES p) = linkLanes lanes ∧
      v.flag (fPort_ENC p) = (enc && v2 && s.fld (fPort_ENC_POL p) != 0) ∧
      v.fld (fPort_PEER_PKG p) = peer.toNat ∧ (v.port p).trainFails = 0 ∧ (v.port p).replay = (s.port p).replay ∧
      v.fld (fPort_FLIT_REPLAY p) = (if s.portState p = 3 then (s.fld (fPort_FLIT_REPLAY p) + (s.port p).replay.length) % 2 ^ 64
        else s.fld (fPort_FLIT_REPLAY p)) := by
  generalize hs1 : (if (s.portState p == 3) = true then
    s.setFld (fPort_FLIT_REPLAY p) (s.fld (fPort_FLIT_REPLAY p) + (s.port p).replay.length) else s) = s1
  have hport1 : s1.port p = s.port p := by
    rw [← hs1]
    split
    · exact State.port_of_fab (State.setFld_fab _ _ _) p
    · rfl
  have hrep1 : s1.fld (fPort_FLIT_REPLAY p) = (if s.portState p = 3 then (s.fld (fPort_FLIT_REPLAY p) + (s.port p).replay.length) % 2 ^ 64
      else s.fld (fPort_FLIT_REPLAY p)) := by
    rw [← hs1]
    by_cases h3 : s.portState p = 3
    · rw [if_pos (by simp [h3]), if_pos h3]
      exact State.fld_setFld_same _ _ (fPort_ok p rfl)
    · rw [if_neg (by simp [h3]), if_neg h3]
  generalize he : (enc && v2 && s.fld (fPort_ENC_POL p) != 0) = e at hok
  generalize hs2 : s1.linkSet p (if v2 then 2 else 1) (linkLanes lanes) e peer.toNat = s2
  have hx : exec (.portTrainingDone p v2 lanes peer enc) s = execPortTrainingDone p v2 lanes peer enc s := rfl
  refine ⟨s2.draw.2.modPort p fun x => x.trained p s.fresh (s.portState p == 3), ?_, ?_, ?_, ?_, ?_, ?_, ?_, ?_, ?_⟩
  · rw [hx, execPortTrainingDone]
    dsimp only
    rw [he, hs1, State.trains_of hst, if_neg (by decide), if_neg hl, if_neg (by simpa using hok), ← hs2, State.linkSet]
  · rw [State.portState, State.fld_modPort, State.fld_draw, ← hs2]
    exact State.linkSet_state ..
  · rw [State.fld_modPort, State.fld_draw, ← hs2]
    exact State.linkSet_version _ _ _ _ _ _ (by split <;> decide)
  · rw [State.fld_modPort, State.fld_draw, ← hs2]
    exact State.linkSet_lanes _ _ _ _ _ _ (linkLanes_lt _)
  · rw [State.flag, State.fld_modPort, State.fld_draw, ← hs2]
    exact State.linkSet_enc ..
  · rw [State.fld_modPort, State.fld_draw, ← hs2]
    exact State.linkSet_peer _ _ _ _ _ _ peer.isLt
  · rw [State.port_modPort_same]
    rfl
  · have hd : s2.draw.2.port p = s.port p := (s2.port_draw p).trans (by rw [← hs2, State.linkSet_port, hport1])
    rw [State.port_modPort_same, hd]
    rfl
  · rw [State.fld_modPort, State.fld_draw, ← hs2, State.linkSet_replay, hrep1]

theorem exec_portTrainingFail : exec (.portTrainingFail p false false) s = .next (s.trainFailed p) := by
  have hx : exec (.portTrainingFail p false false) s = execPortTrainingFail p false false s := rfl
  rw [hx, execPortTrainingFail, State.trains_of hst]
  rfl

theorem portTrainingFail_counted (hn : (s.port p).trainFails < 2) : Completes (.portTrainingFail p false false) s fun u =>
    (u.port p).trainFails = (s.port p).trainFails + 1 ∧ u.regs = s.regs := by
  refine Completes.of ((exec_portTrainingFail p hst).trans (congrArg _ (if_neg (by omega)))) ⟨?_, rfl⟩
  rw [State.port_modPort_same]

theorem exec_portTrainingFail_down (hn : 2 ≤ (s.port p).trainFails) : exec (.portTrainingFail p false false) s = .next (s.portDown p) :=
  (exec_portTrainingFail p hst).trans (congrArg _ (if_pos (by omega)))

end Training

theorem portLossOfSignal_retrains (s : State) (p : Fin 16) :
    Completes (.portLossOfSignal p) s fun u => u.portState p = (if s.portState p = 2 then 3 else s.portState p) := by
  have he : exec (.portLossOfSignal p) s = .next (if s.portState p = 2 then s.retrainPort p else s) := rfl
  refine Completes.of he ?_
  by_cases h2 : s.portState p = 2
  · rw [if_pos h2, if_pos h2]
    exact (s.retrainPort_fields p p).1.trans (if_pos rfl)
  · rw [if_neg h2, if_neg h2]

/-! ### Flits (R261, R262, R285) -/

section Flits
variable {s : State} {p : Fin 16} (hp : s.portState p = 2)
include hp

theorem exec_flitReceive_bad {bytes : List Byte} {n : Nat} (hcrc : crc64 (sliceB bytes 0 0xF8) ≠ BitVec.ofNat 64 (fieldLE bytes 0xF8 8)) :
    ∃ s1 : State, s1.fld (fPort_FEC_CORR p) = (s.fld (fPort_FEC_CORR p) + n) % 2 ^ 64 ∧ s1.fab = s.fab ∧ s1.answers = s.answers ∧
      exec (.flitReceive p bytes (some n)) s = .next (if (s1.port p).discard then s1 else s1.sendNak p) := by
  have hx : exec (.flitReceive p bytes (some n)) s = execFlitReceive p bytes (some n) s := rfl
  rcases n with _ | n
  · refine ⟨s, (Nat.mod_eq_of_lt (s.fld_lt _)).symm, rfl, rfl, ?_⟩
    rw [hx, execFlitReceive, if_neg (not_not_intro hp)]
    exact congrArg _ (if_pos (Or.inr hcrc))
  · refine ⟨s.setFld (fPort_FEC_CORR p) (s.fld (fPort_FEC_CORR p) + (n + 1)), State.fld_setFld_same _ _ (fPort_ok p rfl), State.setFld_fab _ _ _,
      State.setFld_answers _ _ _, ?_⟩
    rw [hx]
    unfold execFlitReceive
    rw [if_neg (not_not_intro hp)]
    exact congrArg _ (if_pos (Or.inr hcrc))

theorem flitReceive_nak {bytes : List Byte} (n : Nat) (hcrc : crc64 (sliceB bytes 0 0xF8) ≠ BitVec.ofNat 64 (fieldLE bytes 0xF8 8)) :
    Completes (.flitReceive p bytes (some n)) s fun u =>
      (u.port p).rxSeq = (s.port p).rxSeq ∧ (u.port p).discard = true ∧
      u.fld (fPort_FEC_CORR p) = (s.fld (fPort_FEC_CORR p) + n) % 2 ^ 64 ∧
      u.answers = (if (s.port p).discard then s.answers else .message 0x103 p (natLE 2 ((s.port p).rxSeq + 1).toNat) :: s.answers) := by
  obtain ⟨s1, hfld, hfab, hans, he⟩ := exec_flitReceive_bad hp (n := n) hcrc
  have hport : s1.port p = s.port p := State.port_of_fab hfab p
  refine Completes.of he ?_
  rw [← hport, ← hfld, ← hans]
  by_cases hd : (s1.port p).discard = true
  · rw [if_pos hd, if_pos hd]
    exact ⟨rfl, hd, rfl, rfl⟩
  · rw [if_neg hd, if_neg hd]
    have hnak : (s1.sendNak p).port p = { s1.port p with discard := true } := State.port_modPort_same p s1 fun x => { x with discard := true }
    rw [hnak]
    exact ⟨rfl, rfl, rfl, rfl⟩

theorem flitReceive_uncorrectable (bytes : List Byte) : Completes (.flitReceive p bytes none) s fun u =>
    u.fld (fPort_FEC_UNCORR p) = (s.fld (fPort_FEC_UNCORR p) + 1) % 2 ^ 64 ∧ (u.port p).rxSeq = (s.port p).rxSeq := by
  have hx : exec (.flitReceive p bytes none) s = execFlitReceive p bytes none s := rfl
  have hcount : (s.inc (fPort_FEC_UNCORR p)).fld (fPort_FEC_UNCORR p) = (s.fld (fPort_FEC_UNCORR p) + 1) % 2 ^ 64 :=
    State.fld_setFld_same _ _ (fPort_ok p rfl)
  have hport : (s.inc (fPort_FEC_UNCORR p)).port p = s.port p := rfl
  generalize hs1 : s.inc (fPort_FEC_UNCORR p) = s1 at hcount hport
  have he : exec (.flitReceive p bytes none) s = .next (if (s1.port p).discard then s1 else s1.sendNak p) := by
    rw [hx, execFlitReceive, if_neg (not_not_intro hp), ← hs1]
    exact congrArg _ (if_pos (Or.inl rfl))
  refine Completes.of he ?_
  rw [← hcount, ← hport]
  by_cases hd : (s1.port p).discard = true
  · rw [if_pos hd]
    exact ⟨rfl, rfl⟩
  · have hnak : (s1.sendNak p).port p = { s1.port p with discard := true } := State.port_modPort_same p s1 fun x => { x with discard := true }
    rw [if_neg hd, hnak]
    exact ⟨rfl, rfl⟩

omit hp in
/-- A port with nothing to send sends nothing. -/
theorem State.pump_idle (s : State) {p : Nat} (hw : (s.port p).waiting = []) (ho : (s.port p).out = []) (ht : (s.port p).txBlock = []) :
    s.pump p = s := by
  have hpick : (s.port p).pick = none := by simp [Port.pick, Port.ready, Port.head, hw]
  unfold State.pump
  split
  · rfl
  · rw [hw, ho, State.flow]
    simp only [ho, ht, hpick]
    split
    · rfl
    · rfl

theorem exec_flitReceive_data {bytes : List Byte} (hcrc : crc64 (sliceB bytes 0 0xF8) = BitVec.ofNat 64 (fieldLE bytes 0xF8 8))
    (htyp : fieldLE bytes 4 1 % 16 = 1) (hw : (s.port p).waiting = []) (ho : (s.port p).out = []) (ht : (s.port p).txBlock = [])
    (henc : s.flag (fPort_ENC p) = false) (hseq : fieldLE bytes 0 2 = ((s.port p).rxSeq + 1).toNat) : ∃ v : State,
    exec (.flitReceive p bytes (some 0)) s = .next (v.takeSlots p (sliceB bytes 8 240)) ∧
      (v.port p).rxSeq = (s.port p).rxSeq + 1 ∧ (v.port p).discard = false ∧ v.answers = s.answers ∧ v.regs = s.regs ∧
      (v.port p).replay = ((s.port p).acked (BitVec.ofNat 16 (fieldLE bytes 2 2))).replay ∧
      (v.port p).credit (fieldLE bytes 5 3 % 4) = (s.port p).credit (fieldLE bytes 5 3 % 4) + fieldLE bytes 5 3 / 4 := by
  generalize hy : ((s.port p).acked (BitVec.ofNat 16 (fieldLE bytes 2 2))).credited (fieldLE bytes 5 3 % 4) (fieldLE bytes 5 3 / 4) = y
  have hacked : ∀ (x : Port) (a : BitVec 16), (x.acked a).waiting = x.waiting ∧ (x.acked a).out = x.out ∧ (x.acked a).txBlock = x.txBlock ∧
      (x.acked a).rxSeq = x.rxSeq ∧ (x.acked a).credits = x.credits := fun x a => by
    unfold Port.acked
    split <;> exact ⟨rfl, rfl, rfl, rfl, rfl⟩
  obtain ⟨a1, a2, a3, a4, a5⟩ := hacked (s.port p) (BitVec.ofNat 16 (fieldLE bytes 2 2))
  have hyf : y.waiting = [] ∧ y.out = [] ∧ y.txBlock = [] ∧ y.rxSeq = (s.port p).rxSeq ∧
      y.replay = ((s.port p).acked (BitVec.ofNat 16 (fieldLE bytes 2 2))).replay ∧
      y.credit (fieldLE bytes 5 3 % 4) = (s.port p).credit (fieldLE bytes 5 3 % 4) + fieldLE bytes 5 3 / 4 := by
    rw [← hy]
    refine ⟨a1.trans hw, a2.trans ho, a3.trans ht, a4, rfl, ?_⟩
    simp only [Port.credited, Port.credit, tabGet_set_same, a5]
  obtain ⟨y1, y2, y3, y4, y5, y6⟩ := hyf
  generalize hs1 : s.setPort p y = s1
  have hport : s1.port p = y := by rw [← hs1]; exact s.port_setPort_same p y
  have hpump : (s.modPort p fun x => (x.acked (BitVec.ofNat 16 (fieldLE bytes 2 2))).credited (fieldLE bytes 5 3 % 4) (fieldLE bytes 5 3 / 4)).pump p = s1 := by
    rw [State.modPort, hy, hs1]
    exact s1.pump_idle (by rw [hport, y1]) (by rw [hport, y2]) (by rw [hport, y3])
  have henc1 : s1.flag (fPort_ENC p) = false := by rw [← hs1]; exact henc
  have hnum : BitVec.ofNat 16 (fieldLE bytes 0 2) = y.rxSeq + 1 := by
    rw [hseq, y4]
    exact BitVec.ofNat_toNat .. ▸ BitVec.setWidth_eq _
  have hx : exec (.flitReceive p bytes (some 0)) s = execFlitReceive p bytes (some 0) s := rfl
  have hgood : s.goodFlit p bytes = (s1.modPort p fun z => { z with rxSeq := y.rxSeq + 1, discard := false }).takeSlots p (sliceB bytes 8 240) := by
    unfold State.goodFlit
    dsimp only
    rw [hpump, htyp, if_pos (Or.inl rfl), hport, hnum, if_neg (not_not_intro rfl), State.inSeq]
    simp only [henc1]
    rfl
  refine ⟨s1.modPort p fun z => { z with rxSeq := y.rxSeq + 1, discard := false }, ?_, ?_, ?_, ?_, ?_, ?_, ?_⟩
  · rw [hx, execFlitReceive, if_neg (not_not_intro hp)]
    dsimp only
    rw [if_neg (by simp [hcrc]), hgood]
  · rw [State.port_modPort_same, ← y4]
  · rw [State.port_modPort_same]
  · rw [← hs1]; rfl
  · rw [← hs1]; rfl
  · rw [State.port_modPort_same, ← y5, hport]
  · rw [State.port_modPort_same, ← y6, hport]
    rfl

/-! ### Replays and keys -/

theorem exec_nak (seq : BitVec 16) : exec (.nak p seq) s = .next (s.replayFrom p seq) := congrArg Host.Outcome.next (if_pos hp)

theorem exec_nak_none {seq : BitVec 16} (hn : ((s.port p).replay.dropWhile fun e => e.seq != seq).length = 0) :
    exec (.nak p seq) s = .next s := by
  rw [exec_nak hp, State.replayFrom]
  exact congrArg _ (if_pos hn)

theorem nak_replays {seq : BitVec 16} (hn : ((s.port p).replay.dropWhile fun e => e.seq != seq).length ≠ 0) :
    Completes (.nak p seq) s fun u =>
      u.fld (fPort_FLIT_REPLAY p) = (s.fld (fPort_FLIT_REPLAY p) + ((s.port p).replay.dropWhile fun e => e.seq != seq).length) % 2 ^ 64 ∧
      (u.port p).replay = (s.port p).replay ∧
      u.portState p = (if 8 ≤ (if (s.port p).failSeq = seq ∧ (s.port p).flitFails ≠ 0 then (s.port p).flitFails + 1 else 1) then 3 else 2) ∧
      ((if (s.port p).failSeq = seq ∧ (s.port p).flitFails ≠ 0 then (s.port p).flitFails + 1 else 1) < 8 →
        (u.port p).flitFails = if (s.port p).failSeq = seq ∧ (s.port p).flitFails ≠ 0 then (s.port p).flitFails + 1 else 1) := by
  generalize hfails : (if (s.port p).failSeq = seq ∧ (s.port p).flitFails ≠ 0 then (s.port p).flitFails + 1 else 1) = fails
  generalize hlen : ((s.port p).replay.dropWhile fun e => e.seq != seq).length = n at hn
  generalize hx : s.setPort p { s.port p with failSeq := seq, flitFails := fails } = x
  have hxp : x.port p = { s.port p with failSeq := seq, flitFails := fails } := by rw [← hx]; exact s.port_setPort_same p _
  have hxf : ∀ f, x.fld f = s.fld f := fun f => by rw [← hx]; rfl
  generalize hs1 : x.setFld (fPort_FLIT_REPLAY p) (s.fld (fPort_FLIT_REPLAY p) + n) = s1
  have h1p : s1.port p = x.port p := by rw [← hs1]; exact State.port_of_fab (State.setFld_fab _ _ _) _
  have h1f : s1.fld (fPort_FLIT_REPLAY p) = (s.fld (fPort_FLIT_REPLAY p) + n) % 2 ^ 64 := by
    rw [← hs1]
    exact State.fld_setFld_same _ _ (fPort_ok p rfl)
  have h1s : s1.portState p = 2 := by
    rw [← hs1, State.portState, State.fld_setFld_apart _ _ (by exact fPort_ok p rfl) (by exact fPort_apart p (by decide)), hxf]
    exact hp
  have he : s.replayFrom p seq = if 8 ≤ fails then s1.retrainPort p else s1 := by
    rw [State.replayFrom]
    dsimp only
    rw [Port.from, hlen, if_neg hn, hfails, hx, hs1]
  refine Completes.of ((exec_nak hp seq).trans (congrArg _ he)) ?_
  by_cases h8 : 8 ≤ fails
  · rw [if_pos h8, if_pos h8]
    refine ⟨?_, ?_, (s1.retrainPort_fields p p).1.trans (if_pos rfl), fun h => absurd h (by omega)⟩
    · rw [State.retrainPort, State.fld_modPort, State.addSat, State.fld_setFld_apart _ _ (by exact fPort_ok p rfl) (by exact fPort_apart p (by decide)),
        State.setPortState_fld _ _ _ (by exact fPort_apart p (by decide)), h1f]
    · rw [State.retrainPort, State.port_modPort_same, State.port_of_fab (State.addSat_fab _ _ _), State.setPortState_port, h1p, hxp]
  · rw [if_neg h8, if_neg h8]
    refine ⟨h1f, ?_, h1s, fun _ => ?_⟩
    · rw [h1p, hxp]
    · rw [h1p, hxp]

theorem exec_ackTimeout_none (hr : (s.port p).replay = []) : exec (.ackTimeout p) s = .next s := by
  have hx : exec (.ackTimeout p) s = execAckTimeout p s := rfl
  rw [hx, execAckTimeout, if_pos hp, hr]

theorem exec_ackTimeout_oldest {e : Flit} {rest : List Flit} (hr : (s.port p).replay = e :: rest) :
    exec (.ackTimeout p) s = exec (.nak p e.seq) s := by
  have hx : exec (.ackTimeout p) s = execAckTimeout p s := rfl
  rw [hx, execAckTimeout, if_pos hp, hr, exec_nak hp]

theorem exec_rekey (henc : s.flag (fPort_ENC p) = true) (tx : Bool) : exec (.rekey p tx) s = .next (s.modPort p fun x =>
      if tx then (if x.txBlock.isEmpty then { x with txKey := x.txKey + 1, txGroup := 0 } else { x with txTurn := true })
      else (if x.rxBlock.isEmpty then { x with rxKey := x.rxKey + 1, rxGroup := 0 } else { x with rxTurn := true })) :=
  congrArg Host.Outcome.next (if_pos ⟨hp, henc⟩)

theorem rekey_turns (henc : s.flag (fPort_ENC p) = true) {tx : Bool} (hb : (if tx then (s.port p).txBlock else (s.port p).rxBlock) = []) :
    Completes (.rekey p tx) s fun u =>
      (u.port p).txKey = (s.port p).txKey + tx.toNat ∧ (u.port p).rxKey = (s.port p).rxKey + (!tx).toNat ∧ u.regs = s.regs := by
  refine Completes.of (exec_rekey hp henc tx) ?_
  rw [State.port_modPort_same]
  cases tx
  · simp only [Bool.false_eq_true, if_false] at hb ⊢
    rw [hb]
    exact ⟨rfl, rfl, rfl⟩
  · simp only [if_true] at hb ⊢
    rw [hb]
    exact ⟨rfl, rfl, rfl⟩

theorem rekey_waits (henc : s.flag (fPort_ENC p) = true) {tx : Bool} (hb : (if tx then (s.port p).txBlock else (s.port p).rxBlock) ≠ []) :
    Completes (.rekey p tx) s fun u =>
      (if tx then (u.port p).txTurn else (u.port p).rxTurn) = true ∧ (u.port p).txKey = (s.port p).txKey ∧ (u.port p).rxKey = (s.port p).rxKey := by
  refine Completes.of (exec_rekey hp henc tx) ?_
  rw [State.port_modPort_same]
  cases tx
  · simp only [Bool.false_eq_true, if_false] at hb ⊢
    rw [if_neg (by simpa using hb)]
    exact ⟨rfl, rfl, rfl⟩
  · simp only [if_true] at hb ⊢
    rw [if_neg (by simpa using hb)]
    exact ⟨rfl, rfl, rfl⟩

end Flits

/-- Settles O36: the states of a port by command, and the flits of an ACTIVE one by what they carry. -/
theorem portsAndFlitsFollowTheirStates : Obligations.PortsAndFlitsFollowTheirStates := by
  unfold Obligations.PortsAndFlitsFollowTheirStates
  refine ⟨fun s ag p => ?_, fun s p hp => ?_⟩
  · exact ⟨fun hag hen hst hb => portEnable_trains p hag hen hst hb, fun hag hst hw => exec_portDisable p hag hst hw,
      fun hag hen => portRetrain_acts p hag hen,
      fun v2 _ peer enc hst hl => ⟨fun hok => exec_portTrainingDone p hst v2 peer enc hl hok,
        fun hpol he => exec_portTrainingDone_mismatch p hst v2 peer enc hl hpol he⟩,
      fun hst => ⟨portTrainingFail_counted p hst, exec_portTrainingFail_down p hst⟩, s.portDown_recorded p, portLossOfSignal_retrains s p⟩
  · exact ⟨fun _ n hcrc => flitReceive_nak hp n hcrc, flitReceive_uncorrectable hp,
      fun _ hcrc htyp hw ho ht henc hseq => exec_flitReceive_data hp hcrc htyp hw ho ht henc hseq,
      fun _ => ⟨exec_nak_none hp, nak_replays hp⟩, exec_ackTimeout_none hp, fun _ _ hr => exec_ackTimeout_oldest hp hr,
      fun henc _ => ⟨rekey_turns hp henc, rekey_waits hp henc⟩⟩

end Sys2Proof.Machine
end

section
/-! # Models: registration, update passes and the background check (R237 to R250) -/
namespace Sys2Proof.Machine

/-! ### The model table and what a detection writes -/

/-- A record of the fault log is written in its own slot of BAR2. -/
theorem State.logRecord_barByte (s : State) (d : Det) {k : Nat} (hk : k < 0x600000) : (s.logRecord d).2.barByte k = s.barByte k := by
  have hslot : ∀ (z : State) (n : Nat) (bs : List Byte), (z.putBar (faultSlot n) bs).barByte k = z.barByte k := fun z n bs =>
    State.barByte_putBar_out _ _ _ _ (.inl (by unfold faultSlot; omega))
  have hmarks : ∀ z : State, (if 2 ≤ d.react then ((z.inc fSafe_DETECTIONS).setFlag (fErr_DETECT d.page) true).dooms 0x13 else z).bar2 = z.bar2 := by
    intro z
    split
    · rw [(State.dooms_sameStores ..).bar2, State.setFlag_bar2, State.inc_bar2]
    · rfl
  have hcopies : ∀ (z : State) (n : Nat), (((z.setFld fSafe_LOG_SEQ n).setFld fSafe_LAST_CLASS d.cls).setFld fSafe_LAST_REACT d.react).bar2 = z.bar2 := by
    intro z n
    rw [State.setFld_bar2, State.setFld_bar2, State.setFld_bar2]
  have hnow : s.now.2.draw.2.barByte k = s.barByte k := State.barByte_congr rfl k
  unfold State.logRecord
  dsimp only
  split
  · exact (State.barByte_congr ((State.setFlag_bar2 ..).trans ((hmarks _).trans (hcopies ..))) k).trans ((hslot ..).trans hnow)
  · exact (State.barByte_congr ((hmarks _).trans (hcopies ..)) k).trans ((hslot ..).trans hnow)

/-- A report writes nothing of BAR2 below the fault log. -/
theorem State.report_barByte (s : State) (d : Det) (ev : Option (Nat × EvKind)) {k : Nat} (hk : k < 0x600000) :
    (s.report d ev).barByte k = s.barByte k := by
  have hc : ∀ bs, ((s.logRecord d).2.commitSafeLast d bs).barByte k = s.barByte k := fun bs =>
    (State.barByte_congr (State.commitSafeLast_sameStores ..).bar2 k).trans (s.logRecord_barByte d hk)
  have hf : ∀ bs, (if 2 ≤ d.react then ((s.logRecord d).2.commitSafeLast d bs).setFlag fSafe_FAULT true
      else (s.logRecord d).2.commitSafeLast d bs).barByte k = s.barByte k := by
    intro bs
    split
    · exact hc bs
    · exact hc bs
  have he : ∀ (z : State) (log : Nat) (e : EvKind) (a b : W64) (bs : List Byte), (z.event log e a b bs).barByte k = z.barByte k :=
    fun z log e a b bs => State.barByte_congr (State.event_sameStores ..).bar2 k
  unfold State.report
  dsimp only
  split
  · exact hc _
  · split
    · exact (he ..).trans (hf _)
    · split
      · exact (he ..).trans (hf _)
      · split
        · exact (he ..).trans (hf _)
        · split
          · exact (he ..).trans (hf _)
          · exact hf _

theorem State.report_barNat (s : State) (d : Det) (ev : Option (Nat × EvKind)) {k n : Nat} (hk : k + n ≤ 0x600000) :
    (s.report d ev).barNat k n = s.barNat k n :=
  congrArg leNat (List.map_congr_left fun i hi => s.report_barByte d ev (by have := List.mem_range.1 hi; omega))

theorem modelOff_lt (m : Fin 4096) : modelOff m + 256 ≤ 0x200000 := by
  have := m.isLt
  unfold modelOff
  omega

/-! ### The entries of the model table -/

section Table
variable (s : State) (m : Nat)

theorem State.model_lastRead : (s.model m).lastRead = BitVec.ofNat 64 (s.barNat (modelOff m + 0xD0) 8) := rfl
theorem State.model_nextDigest : (s.model m).nextDigest = BitVec.ofNat 64 (s.barNat (modelOff m + 0xD8) 8) := rfl
theorem State.model_corrupt : (s.model m).corrupt = bitAt (s.modelStatus m) 20 := rfl
theorem State.model_valid : (s.model m).valid = bitAt (s.modelStatus m) 0 := rfl

/-- What of an entry's words above STATUS has to stay for a write of another word of it. -/
theorem State.modelStatus_congr {s t : State} (h : t.bar2 = s.bar2) : t.modelStatus m = s.modelStatus m := State.barNat_congr h _ _

theorem State.modelStatus_setModelStatus (v : Nat) (hv : v < 2 ^ 32) : (s.setModelStatus m v).modelStatus m = v :=
  (s.barNat_putBarNat_same _ 4 v).trans (Nat.mod_eq_of_lt hv)

theorem State.modelQ_setModelStatus (v : Nat) {off : Nat} (h : off + 8 ≤ 0xE8) :
    (s.setModelStatus m v).barNat (modelOff m + off) 8 = s.barNat (modelOff m + off) 8 := s.barNat_putBarNat_out (.inl (by omega))

end Table

/-- A write of one bit of a status word leaves the other bits. -/
theorem bitAt_putBits_ne (st : Nat) {i j : Nat} (v : Nat) (h : i ≠ j) : bitAt (putBits st i 1 v) j = bitAt st j := by
  unfold bitAt
  rcases Nat.lt_or_gt_of_ne h with hlt | hgt
  · rw [putBits_above st (show i + 1 ≤ j from hlt)]
  · have hb := putBits_below (w := 1) (v := v) st (show j + 1 ≤ i from hgt)
    have hbit : ∀ x : Nat, (x >>> j) % 2 = x % 2 ^ (j + 1) / 2 ^ j := fun x => by
      rw [Nat.shiftRight_eq_div_pow, Nat.pow_succ, Nat.mod_mul_right_div_self]
    rw [hbit, hbit, hb]

theorem bitAt_putBits_same (st i : Nat) (b : Bool) : bitAt (putBits st i 1 b.toNat) i = b := by
  have h := putBits_get st i 1 b.toNat
  rw [Nat.pow_one] at h
  unfold bitAt
  rw [h]
  cases b <;> rfl

/-! ### Registration and deregistration -/

theorem State.putBarNat_mdl (s : State) (k n v : Nat) : (s.putBarNat k n v).mdl = s.mdl := by
  obtain ⟨b, hb⟩ := State.putBar_eq (natLE n v) s k
  rw [State.putBarNat, hb]

theorem State.putBarNat_dram (s : State) (k n v : Nat) : (s.putBarNat k n v).dram = s.dram := by
  obtain ⟨b, hb⟩ := State.putBar_eq (natLE n v) s k
  rw [State.putBarNat, hb]

theorem State.setModelStatus_mdl (s : State) (m v : Nat) : (s.setModelStatus m v).mdl = s.mdl := State.putBarNat_mdl ..
theorem State.setModelStatus_dram (s : State) (m v : Nat) : (s.setModelStatus m v).dram = s.dram := State.putBarNat_dram ..
theorem State.setModelQ_dram (s : State) (m off v : Nat) : (s.setModelQ m off v).dram = s.dram := State.putBarNat_dram ..
theorem State.setModelBit_dram (s : State) (m i : Nat) (b : Bool) : (s.setModelBit m i b).dram = s.dram := State.putBarNat_dram ..

/-- EN set by MODEL_REGISTER. -/
theorem bitAt_or_one (n : Nat) : bitAt (n ||| 1) 0 = true := by
  unfold bitAt
  rw [Nat.shiftRight_zero, beq_iff_eq, Nat.or_mod_two_eq_one]
  exact .inr rfl

theorem bitAt_half_double (n : Nat) : bitAt (n / 2 * 2) 0 = false := by
  unfold bitAt
  rw [Nat.shiftRight_zero, Nat.mul_mod_left]
  rfl

/-- The state in which the entry's checks are made: EN is set. -/
def State.enModel (s : State) (m : Nat) : State := s.putBarNat (modelOff m + 0xFF) 1 (s.barNat (modelOff m + 0xFF) 1 ||| 1)

theorem exec_modelRegister {s : State} {ag : Agent} {m : Fin 4096} (hup : s.tabUp ag = true) (hen : s.modelEn m = false) :
    exec (.modelRegister ag m) s = .next ((s.enModel m).modelRegister m) := by
  have he : exec (.modelRegister ag m) s = execModelRegister ag m s := rfl
  rw [he, execModelRegister, if_pos hup, State.modelSetEn]
  dsimp only
  rw [bitAt_or_one, hen, if_pos (by decide)]
  rfl

section Register
variable (s : State) (m : Nat)

theorem State.modelCheck_badFormat (h : s.modelBadFormat m = true) : s.modelCheck m = (some 1, s) := by
  rw [State.modelCheck, if_pos h]

theorem State.modelCheck_badAlign (h : s.modelBadFormat m = false) (ha : (s.model m).badAlign = true) : s.modelCheck m = (some 2, s) := by
  rw [State.modelCheck, if_neg (by rw [h]; decide), if_pos ha]

/-- An entry that fails a check is refused with its code. -/
theorem State.modelRegister_refused {c : Nat} {s1 : State} (h : s.modelCheck m = (some c, s1)) (h0 : 0 < c) (hc : c < 256) :
    (s.modelRegister m).modelStatus m = 2 + c * 256 ∧ (s.modelRegister m).mdl = s1.mdl := by
  obtain ⟨n, rfl⟩ : ∃ n, c = n + 1 := ⟨c - 1, by omega⟩
  have he : s.modelRegister m = s1.setModelStatus m (2 + (n + 1) * 256) := by
    unfold State.modelRegister
    rewrite [h]
    rfl
  rw [he]
  exact ⟨s1.modelStatus_setModelStatus m _ (by omega), s1.setModelStatus_mdl ..⟩

/-- An entry that passes its checks is to be registered. -/
theorem State.modelRegister_begins {s1 : State} (h : s.modelCheck m = (some 0, s1)) :
    (s.modelRegister m).modelStatus m = 0 ∧ (s.modelRegister m).mdl.regs = s1.mdl.regs ++ [m] := by
  have he : s.modelRegister m = { (s1.setModelStatus m 0) with mdl := { s1.mdl with regs := s1.mdl.regs ++ [m] } } := by
    unfold State.modelRegister
    rewrite [h]
    rfl
  rw [he]
  exact ⟨s1.modelStatus_setModelStatus m 0 (by omega), rfl⟩

theorem State.modelValid_bar2 (segs : List Seg) : (s.modelValid m segs).bar2 = (s.setModelStatus m 1).bar2 := rfl

theorem State.modelValid_dram (segs : List Seg) : (s.modelValid m segs).dram = s.dram :=
  have h : (s.modelValid m segs).dram = (s.setModelStatus m 1).dram := rfl
  h.trans (s.setModelStatus_dram m 1)

/-- The registration is over and the model's ranges are protected. -/
theorem State.modelValid_mdl (segs : List Seg) : (s.modelValid m segs).mdl.regs.contains m = false ∧
    (s.modelValid m segs).mdl.prot.any (fun e => e.1 == m) = true := by
  unfold State.modelValid
  dsimp only
  constructor <;> simp

theorem State.modelValid_status (segs : List Seg) : (s.modelValid m segs).modelStatus m = 1 := by
  rw [State.modelStatus_congr m (s.modelValid_bar2 m segs), State.modelStatus_setModelStatus s m 1 (by omega)]

theorem State.modelValid_q (segs : List Seg) {off : Nat} (h : off + 8 ≤ 0xE8) :
    (s.modelValid m segs).barNat (modelOff m + off) 8 = s.barNat (modelOff m + off) 8 := by
  rw [State.barNat_congr (s.modelValid_bar2 m segs), State.modelQ_setModelStatus s m 1 h]

/-- A model made VALID with its digest. -/
def State.registered (s : State) (m : Nat) (segs : List Seg) (d : W64) : State :=
  ((s.setModelQ m 0xC0 d.toNat).setModelQ m 0xD0 d.toNat).modelValid m segs

theorem State.registered_digests (segs : List Seg) (d : W64) :
    (s.registered m segs d).barNat (modelOff m + 0xC0) 8 = d.toNat ∧ (s.registered m segs d).barNat (modelOff m + 0xD0) 8 = d.toNat := by
  unfold State.registered
  rw [State.modelValid_q _ m segs (by omega), State.modelValid_q _ m segs (by omega), State.modelQ_setModelQ_ne _ _ _ (by omega),
    State.modelQ_setModelQ_same, State.modelQ_setModelQ_same, Nat.mod_eq_of_lt d.isLt]
  exact ⟨rfl, rfl⟩

theorem State.registered_dram (segs : List Seg) (d : W64) : (s.registered m segs d).dram = s.dram := by
  rw [State.registered, State.modelValid_dram, State.setModelQ_dram, State.setModelQ_dram]

/-- A full read of what the checks cover, without a bad line. -/
theorem State.registerVerify_done {r : MRead} {s1 : State} (h : s.readChecked m (s.model m) = (r, s1)) (hst : r.stall = false)
    (hbad : r.bad = false) :
    ∃ z : State, z.dram = s1.dram ∧ s.registerVerify m = z.registered m [] ((s.model m).digestOf r s1.fresh) := by
  refine ⟨{ s1 with fresh := s1.fresh + (s.model m).wbytes }, rfl, ?_⟩
  unfold State.registerVerify
  simp only [h, hst, hbad, Bool.false_eq_true, if_false]
  rfl

/-- The working copy that registration makes of a master (R238). -/
def Model.regCopy (v : Model) (ws : List Nat) : List Byte × List Byte × Bool :=
  workCopy v.mfmt v.wfmt v.sr (mix64 (v.wseed ^^^ BitVec.ofNat 64 v.updCount)) ws

/-- A training model's registration with its whole master read and its working copy written. -/
theorem State.registerTraining_done {r : MRead} {s1 s2 : State} {lost : Bool} {ws : List Nat} (segs : List Seg)
    (h : s.readChecked m { s.model m with cur := 0 } = (r, s1)) (hst : r.stall = false) (hbad : r.bad = false)
    (hws : r.elems (s.model m).msz (s.model m).mcount s1.fresh = ws)
    (hw : s1.mwrites m false [((s.model m).wbase, ((s.model m).regCopy ws).1), ((s.model m).wsbase, ((s.model m).regCopy ws).2.1)] =
      (.ok [], lost, s2)) :
    ∃ z : State, z.dram = s2.dram ∧ s.registerTraining m segs = z.registered m segs (patDigest ws) := by
  refine ⟨{ s2 with fresh := s2.fresh + (s.model m).mcount }, rfl, ?_⟩
  unfold State.registerTraining
  simp only [h, hst, hbad, Bool.false_eq_true, if_false]
  rw [show Model.msz { s.model m with cur := 0 } = (s.model m).msz from rfl, hws]
  erw [hw]
  rfl

/-- A model without factored moments has no segments to read. -/
theorem State.modelSegs_none {v : Model} (h : v.opt ≠ 2) : s.modelSegs v = (some [], false, s) := by
  rw [State.modelSegs, if_pos h]

/-- What the end of a registration is, of an entry without factored moments. -/
theorem exec_modelRegisterDone {m : Fin 4096} (hen : s.modelEn m = true) (hst : s.modelStatus m = 0)
    (hreg : s.mdl.regs.contains m.val = true) (hopt : (s.model m).opt ≠ 2) :
    exec (.modelRegisterDone m) s = .next (if (s.model m).training then s.registerTraining m []
      else if (s.model m).verify then s.registerVerify m else s.modelValid m []) := by
  have he : exec (.modelRegisterDone m) s = execModelRegisterDone m s := rfl
  have h0 : s.barNat (modelOff m + 0xE8) 4 = 0 := hst
  rw [he, execModelRegisterDone]
  dsimp only
  rw [if_neg (by rw [h0, hen]; decide), if_neg (by rw [hreg]; decide), s.modelSegs_none hopt]
  rfl

/-- A model without a pass is deregistered at once. -/
theorem exec_modelDeregister {ag : Agent} {m : Fin 4096} (hup : s.tabUp ag = true) (hen : s.modelEn m = true)
    (hv : (s.model m).valid = true) (hp : s.passOf m = none) :
    exec (.modelDeregister ag m) s =
      .next ((s.putBarNat (modelOff m + 0xFF) 1 (s.barNat (modelOff m + 0xFF) 1 / 2 * 2)).modelGone m) := by
  have he : exec (.modelDeregister ag m) s = execModelDeregister ag m s := rfl
  have hv' : ∀ v, ((s.putBarNat (modelOff m + 0xFF) 1 v).model m).valid = true := fun v => by
    rw [State.model_valid, State.modelStatus, State.barNat_putBarNat_out _ (.inl (by omega))]
    exact hv
  have hp' : ∀ v, (s.putBarNat (modelOff m + 0xFF) 1 v).passOf m = none := fun v => by rw [State.passOf, State.putBarNat_mdl]; exact hp
  rw [he, execModelDeregister, if_pos hup, State.modelSetEn]
  dsimp only
  rw [bitAt_half_double, hen, if_neg (by decide), if_pos (by decide), if_pos (hv' _), hp', if_neg (by decide)]

/-- A deregistered entry: no status, EN as written, nothing protected. -/
theorem State.modelGone_leaves (v : Nat) (hv : v < 256) (he : bitAt v 0 = false) :
    let u := (s.putBarNat (modelOff m + 0xFF) 1 v).modelGone m
    u.modelStatus m = 0 ∧ u.modelEn m = false ∧ u.mdl.prot.any (fun e => e.1 == m) = false ∧ u.dram = s.dram := by
  obtain ⟨z, hz⟩ : ∃ z, s.putBarNat (modelOff m + 0xFF) 1 v = z := ⟨_, rfl⟩
  have hzen : z.barNat (modelOff m + 0xFF) 1 = v := by
    rw [← hz, State.barNat_putBarNat_same]
    exact Nat.mod_eq_of_lt hv
  have hbar : (z.modelGone m).bar2 = (z.setModelStatus m 0).bar2 := rfl
  dsimp only
  rw [hz]
  refine ⟨?_, ?_, ?_, ?_⟩
  · rw [State.modelStatus_congr m hbar, State.modelStatus_setModelStatus z m 0 (by omega)]
  · rw [State.modelEn, State.barNat_congr hbar, State.setModelStatus, State.barNat_putBarNat_out _ (.inr (by omega)), hzen, he]
  · simp [State.modelGone]
  · exact (z.setModelStatus_dram m 0).trans (by rw [← hz, State.putBarNat_dram])

end Register

/-! ### The full read compared with the digest (R248, R250) -/

theorem State.putBarNat_regs (s : State) (k n v : Nat) : (s.putBarNat k n v).regs = s.regs := State.putBar_regs ..

/-- Between two states only BAR2 differs. -/
def State.BarOnly (s u : State) : Prop := ∃ b, u = { s with bar2 := b }

theorem State.BarOnly.trans {s t u : State} (h : s.BarOnly t) (h' : t.BarOnly u) : s.BarOnly u := by
  obtain ⟨b, rfl⟩ := h
  obtain ⟨c, rfl⟩ := h'
  exact ⟨c, rfl⟩

theorem State.setModelQ_barOnly (s : State) (m off v : Nat) : s.BarOnly (s.setModelQ m off v) := State.putBar_eq ..
theorem State.setModelBit_barOnly (s : State) (m i : Nat) (b : Bool) : s.BarOnly (s.setModelBit m i b) := State.putBar_eq ..

/-- What a comparison leaves of an entry: LASTREAD, CORRUPT, every other word and bit as it was. -/
structure State.Compared (s u : State) (m : Fin 4096) (d : W64) (bad : Bool) : Prop where
  lastRead : u.barNat (modelOff m + 0xD0) 8 = d.toNat
  others : ∀ off, off + 8 ≤ 0xD0 ∨ 0xD8 ≤ off ∧ off + 8 ≤ 0xE8 → u.barNat (modelOff m + off) 8 = s.barNat (modelOff m + off) 8
  corrupt : bitAt (u.modelStatus m) 20 = (bitAt (s.modelStatus m) 20 || bad || decide (d ≠ (s.model m).digest))
  status : ∀ i, i ≠ 20 → bitAt (u.modelStatus m) i = bitAt (s.modelStatus m) i
  en : u.modelEn m = s.modelEn m
  dram : u.dram = s.dram
  mdl : u.mdl = s.mdl
  fab : u.fab = s.fab
  host : u.host = s.host

theorem State.modelCompare_compared (s : State) (m : Fin 4096) (d : W64) (bad : Bool) (hinj : s.modelInj m = false) :
    s.Compared (s.modelCompare m d bad) m d bad := by
  have hm := modelOff_lt m
  have hdig : ((s.setModelQ m 0xD0 d.toNat).model m).digest = (s.model m).digest := by
    rw [State.model_digest, State.modelQ_setModelQ_ne _ _ _ (by omega), State.model_digest]
  obtain ⟨b1, h1⟩ := s.setModelQ_barOnly m 0xD0 d.toNat
  have hq : (s.setModelQ m 0xD0 d.toNat).barNat (modelOff m + 0xD0) 8 = d.toNat := by
    rw [State.modelQ_setModelQ_same, Nat.mod_eq_of_lt d.isLt]
  have hst : (s.setModelQ m 0xD0 d.toNat).modelStatus m = s.modelStatus m := State.modelStatus_setModelQ s m _ (by omega)
  have hen : (s.setModelQ m 0xD0 d.toNat).barNat (modelOff m + 0xFF) 1 = s.barNat (modelOff m + 0xFF) 1 :=
    State.barNat_putBarNat_out _ (.inr (by omega))
  have hne : ∀ off, off + 8 ≤ 0xD0 ∨ 0xD8 ≤ off ∧ off + 8 ≤ 0xE8 →
      (s.setModelQ m 0xD0 d.toNat).barNat (modelOff m + off) 8 = s.barNat (modelOff m + off) 8 := fun off ho =>
    State.modelQ_setModelQ_ne s m _ (by omega)
  have he : s.modelCompare m d bad = if bad ∨ d ≠ (s.model m).digest then (s.setModelQ m 0xD0 d.toNat).modelCorrupt m false
      else s.setModelQ m 0xD0 d.toNat := by
    unfold State.modelCompare
    simp only [hinj, Bool.false_eq_true, if_false, hdig, false_or]
  generalize hz : s.setModelQ m 0xD0 d.toNat = z at *
  rw [he]
  by_cases hc : bad = true ∨ d ≠ (s.model m).digest
  · have hor : (bad || decide (d ≠ (s.model m).digest)) = true := by simpa using hc
    obtain ⟨b2, h2⟩ := z.setModelBit_barOnly m 20 true
    rw [if_pos hc, State.modelCorrupt, State.reportC]
    generalize ({ cls := 0x0F, react := 2, page := mdlPage, unit := m, loc0 := 0, injected := false } : Det) = e
    have hrep : ∀ k n, k + n ≤ 0x600000 → ((z.setModelBit m 20 true).report e none).barNat k n = (z.setModelBit m 20 true).barNat k n :=
      fun k n hk => State.report_barNat _ _ _ hk
    have hstat : ((z.setModelBit m 20 true).report e none).modelStatus m = putBits (s.modelStatus m) 20 1 true.toNat := by
      rw [State.modelStatus, hrep _ _ (by omega), ← State.modelStatus, State.modelStatus_setModelBit z m true (by omega), hst]
    refine ⟨?_, fun off ho => ?_, ?_, fun i hi => ?_, ?_, ?_, ?_, ?_, ?_⟩
    · rw [hrep _ _ (by omega), State.modelQ_setModelBit z m 20 true (by omega), hq]
    · rw [hrep _ _ (by omega), State.modelQ_setModelBit z m 20 true (by omega), hne off ho]
    · rw [hstat, bitAt_putBits_same, Bool.or_assoc, hor, Bool.or_true]
    · rw [hstat, bitAt_putBits_ne _ _ hi.symm]
    · rw [State.modelEn, hrep _ _ (by omega), State.setModelBit, State.barNat_putBarNat_out _ (.inr (by omega)), hen, State.modelEn]
    · rw [State.report_dram, h2, h1]
    · rw [State.report_mdl, h2, h1]
    · rw [State.report_fab, h2, h1]
    · rw [State.report_host, h2, h1]
  · have hor : (bad || decide (d ≠ (s.model m).digest)) = false := by simpa using hc
    rw [if_neg hc]
    refine ⟨hq, hne, ?_, fun i _ => by rw [hst], ?_, ?_, ?_, ?_, ?_⟩
    · rw [hst, Bool.or_assoc, hor, Bool.or_false]
    · rw [State.modelEn, hen, State.modelEn]
    all_goals rw [h1]

/-! ### An update pass (R244) -/

/-- What a pass marks of its entry before the comparison: the pending digest, the gradient's norm, NONFINITE and LENDER_LOST. -/
def State.passMarks (s : State) (m : Nat) (dig gnorm : Nat) (nonf lost : Bool) : State :=
  if lost then (((s.setModelQ m 0xD8 dig).setModelQ m 0xE0 gnorm).setModelBit m 18 nonf).setModelBit m 19 true
  else ((s.setModelQ m 0xD8 dig).setModelQ m 0xE0 gnorm).setModelBit m 18 nonf

section Pass
variable (s : State) (m : Nat)

theorem State.passMarks_barOnly (dig gnorm : Nat) (nonf lost : Bool) : s.BarOnly (s.passMarks m dig gnorm nonf lost) := by
  have h := (s.setModelQ_barOnly m 0xD8 dig).trans ((State.setModelQ_barOnly _ m 0xE0 gnorm).trans (State.setModelBit_barOnly _ m 18 nonf))
  unfold State.passMarks
  split
  · exact h.trans (State.setModelBit_barOnly ..)
  · exact h

theorem State.passMarks_nextDigest (d : W64) (gnorm : Nat) (nonf lost : Bool) :
    (s.passMarks m d.toNat gnorm nonf lost).barNat (modelOff m + 0xD8) 8 = d.toNat := by
  have h : (((s.setModelQ m 0xD8 d.toNat).setModelQ m 0xE0 gnorm).setModelBit m 18 nonf).barNat (modelOff m + 0xD8) 8 = d.toNat := by
    rw [State.modelQ_setModelBit _ _ _ _ (by omega), State.modelQ_setModelQ_ne _ _ _ (by omega), State.modelQ_setModelQ_same,
      Nat.mod_eq_of_lt d.isLt]
  unfold State.passMarks
  split
  · rw [State.modelQ_setModelBit _ _ _ _ (by omega), h]
  · exact h

theorem State.passMarks_en (dig gnorm : Nat) (nonf lost : Bool) : (s.passMarks m dig gnorm nonf lost).modelEn m = s.modelEn m := by
  have hq : ∀ (z : State) off v, off + 8 ≤ 0xE8 → (z.setModelQ m off v).modelEn m = z.modelEn m := fun z off v h => by
    rw [State.modelEn, State.setModelQ, State.barNat_putBarNat_out _ (.inr (by omega)), State.modelEn]
  have hb : ∀ (z : State) i b, (z.setModelBit m i b).modelEn m = z.modelEn m := fun z i b => by
    rw [State.modelEn, State.setModelBit, State.barNat_putBarNat_out _ (.inr (by omega)), State.modelEn]
  unfold State.passMarks
  split
  · rw [hb, hb, hq _ _ _ (by omega), hq _ _ _ (by omega)]
  · rw [hb, hq _ _ _ (by omega), hq _ _ _ (by omega)]

/-- An injection awaits the model's check by the registers alone. -/
theorem State.modelInj_congr {s t : State} (hr : t.regs = s.regs) (hs : t.saf = s.saf) : t.modelInj m = s.modelInj m := by
  unfold State.modelInj State.injArmed
  rw [State.flag_congr hr, State.fld_congr hr, State.fld_congr hr, hs]

/-- With nothing outstanding of the model, what has come for its reads is dropped alone. -/
theorem State.dropGot_fab (u : RUse) (m' : Nat) (h : ∀ c ∈ s.fab.ctxs, c.use ≠ .model m') :
    ∀ c ∈ (s.dropGot u).fab.ctxs, c.use ≠ .model m' := by
  unfold State.dropGot
  split
  · intro c hc
    obtain ⟨e, he, rfl⟩ := List.mem_map.1 hc
    split
    · exact fun hn => by simp at hn
    · exact h e he
  · exact h

theorem State.passOuts_false (h : ∀ c ∈ s.fab.ctxs, c.use ≠ .model m) : s.passOuts m = false :=
  List.any_eq_false.2 fun c hc => by simpa using h c hc

/-- The pass over, its result marked. -/
def State.passEnd (s : State) (p : MPass) : State := { s with mdl := { s.mdl with passes := s.mdl.passes.filter fun q => q.m != p.m } }

theorem State.jobOver_idle (h : s.host.jobEnding = none) : s.jobOver = s := by
  unfold State.jobOver
  split
  · rfl
  · next who hw => rw [h] at hw; exact nomatch hw

theorem State.passOver_marked {y : State} (p : MPass) (hy : s.setModelBit p.m 17 true = y) : s.passOver p =
    (let s3 := if p.cntEn ∧ (y.passEnd p).fab.cnts.contains p.cnt then (y.passEnd p).addCounter p.cnt 1 false else y.passEnd p
     (if s3.modelEn p.m then s3 else s3.modelGone p.m).jobOver) := by
  unfold State.passOver
  simp only [hy]
  rfl

/-- The end of a pass without a counter, of a model that stays enabled. -/
theorem State.passOver_eq (p : MPass) (hc : p.cntEn = false) (hen : s.modelEn p.m = true) (hj : s.host.jobEnding = none) :
    s.passOver p = (s.setModelBit p.m 17 true).passEnd p := by
  obtain ⟨b, hb⟩ := s.setModelBit_barOnly p.m 17 true
  have hen' : (s.setModelBit p.m 17 true).modelEn p.m = true := by
    rw [State.modelEn, State.setModelBit, State.barNat_putBarNat_out _ (.inr (by omega))]
    exact hen
  have hhost : (s.setModelBit p.m 17 true).host = s.host := by rw [hb]
  obtain ⟨y, hy⟩ : ∃ y, s.setModelBit p.m 17 true = y := ⟨_, rfl⟩
  rw [s.passOver_marked p hy, hy]
  rw [hy] at hen' hhost
  dsimp only
  rw [if_neg (c := p.cntEn = true ∧ _) (by simp [hc]), if_pos (by exact hen')]
  exact (y.passEnd p).jobOver_idle (by rw [← hj, ← hhost, State.passEnd])

theorem State.passEnd_leaves (p : MPass) (u : State) (hu : (s.setModelBit p.m 17 true).passEnd p = u) :
    u.dram = s.dram ∧ u.passOf p.m = none ∧ bitAt (u.modelStatus p.m) 17 = true ∧
    ∀ off, off + 8 ≤ 0xE8 → u.barNat (modelOff p.m + off) 8 = s.barNat (modelOff p.m + off) 8 := by
  obtain ⟨y, hy⟩ : ∃ y, s.setModelBit p.m 17 true = y := ⟨_, rfl⟩
  have hd : y.dram = s.dram := by rw [← hy, State.setModelBit_dram]
  have hst : bitAt (y.modelStatus p.m) 17 = true := by
    rw [← hy, State.modelStatus_setModelBit s p.m true (by omega)]
    exact bitAt_putBits_same _ 17 true
  have hq : ∀ off, off + 8 ≤ 0xE8 → y.barNat (modelOff p.m + off) 8 = s.barNat (modelOff p.m + off) 8 := fun off ho => by
    rw [← hy, State.modelQ_setModelBit s p.m 17 true ho]
  rw [hy] at hu
  subst hu
  refine ⟨hd, ?_, hst, hq⟩
  rw [State.passOf, State.passEnd]
  simp

end Pass

theorem State.BarOnly.congr {s u : State} (h : s.BarOnly u) : u.regs = s.regs ∧ u.saf = s.saf ∧ u.fab = s.fab ∧ u.host = s.host ∧
    u.dram = s.dram ∧ u.mdl = s.mdl := by
  obtain ⟨b, rfl⟩ := h
  exact ⟨rfl, rfl, rfl, rfl, rfl, rfl⟩

section PassRun
variable (s : State) (m : Nat)

theorem State.dropGot_rest (u : RUse) : (s.dropGot u).regs = s.regs ∧ (s.dropGot u).saf = s.saf ∧ (s.dropGot u).host = s.host ∧
    (s.dropGot u).bar2 = s.bar2 := by
  unfold State.dropGot
  split <;> exact ⟨rfl, rfl, rfl, rfl⟩

theorem State.modelEn_congr {t : State} (h : t.bar2 = s.bar2) : t.modelEn m = s.modelEn m := by
  rw [State.modelEn, State.barNat_congr h, State.modelEn]

/-- The new master of a plain pass, and its working copy. -/
def Model.nextCopy (v : Model) (master : List Nat) : List Byte × List Byte × Bool :=
  workCopy v.mfmt v.wfmt v.sr (mix64 (v.wseed ^^^ BitVec.ofNat 64 (v.updCount + 1))) master

/-- The regions that a pass writes, of the slot that is not current. -/
def Model.passWrites (v : Model) (res : PassRes) : List (Nat × List Byte) :=
  [(v.slot v.mbase (1 - v.cur), elemBytes v.msz res.master), (v.slot v.wbase (1 - v.cur), (v.nextCopy res.master).1),
   (v.slot v.wsbase (1 - v.cur), (v.nextCopy res.master).2.1), (v.slot v.obase (1 - v.cur), elemBytes v.msz res.state)]

theorem State.mreadAll_none (va : Nat) : s.mreadAll m va 0 = (⟨[], false, false⟩, s) := rfl

theorem MRead.elems_none (r : MRead) (sz draw : Nat) : r.elems sz 0 draw = [] := rfl

/-- A pass whose stores are outstanding waits for them; another is over. -/
def State.passAfter (s : State) (p : MPass) : State :=
  if s.passOuts p.m then { s with mdl := { s.mdl with passes := s.mdl.passes.map fun q => if q.m = p.m then { q with wrote := true } else q } }
  else s.passOver p

/-- What a plain pass does once its reads are there: it writes the other slot, marks the entry and compares. -/
theorem State.passRun_plain {s1 s2 s3 : State} {p : MPass} {rm rg : MRead} {refused : Bool} {w : List Nat} {res : PassRes} (hm : p.m = m)
    (hopt : (s.model m).opt = 0) (hfmt : (s.model m).gfmt = (s.model m).mfmt)
    (h1 : s.mreadAll m ((s.model m).slot (s.model m).mbase (s.model m).cur) ((s.model m).mcount * (s.model m).msz) = (rm, s1))
    (h2 : s1.mreadAll m (s.model m).gbase ((s.model m).mcount * (s.model m).gsz) = (rg, s2))
    (hrm : rm.stall = false) (hrg : rg.stall = false) (hw : rm.elems (s.model m).msz (s.model m).mcount s2.fresh = w)
    (hres : (s.model m).update p.hyp [] ⟨w, rg.elems (s.model m).gsz (s.model m).mcount (s2.fresh + (s.model m).mcount), []⟩ = res)
    (hwr : s2.mwrites m false ((s.model m).passWrites res) = (.ok [], refused, s3)) :
    ∃ n gnorm nonf lost, s.passRun p = ((({ s3.dropGot (.mread m) with fresh := n }).passMarks m (patDigest res.master).toNat gnorm nonf
      lost).modelCompare m (patDigest w) rm.bad).passAfter p := by
  have hob : (s.model m).obytes [] = 0 := by rw [Model.obytes, hopt]; rfl
  have hseg : s.modelSegs (s.model m) = (some [], false, s) := s.modelSegs_none (by rw [hopt]; decide)
  subst hm
  unfold State.passRun
  simp only [hseg, Option.getD_some, hob, if_true, State.askRanges, List.flatMap_nil, State.askRemote, h1, h2, hrm, hrg,
    State.mreadAll_none, hfmt, List.map_id', Nat.zero_div, Bool.not_true, Bool.false_eq_true, if_false, or_self, hw]
  simp only [MRead.elems_none, hres]
  erw [hwr]
  exact ⟨_, _, _, _, rfl⟩

theorem exec_updatePassDone {s : State} {m : Fin 4096} {p : MPass} (hp : s.passOf m = some p) (hsafe : s.flag fSafe_SAFE = false)
    (hw : p.wrote = false) : exec (.updatePassDone m) s = .next (s.passRun p) := by
  have he : exec (.updatePassDone m) s = execUpdatePassDone m s := rfl
  rw [he, execUpdatePassDone]
  simp only [hp, hsafe, hw, Bool.false_eq_true, if_false, Bool.not_false, if_true]

end PassRun

/-- The marks, the comparison and the end of a pass of which no store is outstanding. -/
theorem State.passAfter_leaves {z : State} {m : Fin 4096} {p : MPass} (hm : p.m = m.val) (dn dw : W64) (gnorm : Nat) (nonf lost bad : Bool)
    (hinj : z.modelInj m = false) (hctx : ∀ c ∈ z.fab.ctxs, c.use ≠ .model m) (hen : z.modelEn m = true) (hj : z.host.jobEnding = none)
    (hcnt : p.cntEn = false) :
    let u := ((z.passMarks m dn.toNat gnorm nonf lost).modelCompare m dw bad).passAfter p
    (u.model m).nextDigest = dn ∧ (u.model m).pending = true ∧ (u.model m).lastRead = dw ∧ u.passOf m = none ∧ u.dram = z.dram := by
  obtain ⟨hregs, hsaf, hfab, hhost, hdram, -⟩ := (z.passMarks_barOnly m dn.toNat gnorm nonf lost).congr
  have hnext := z.passMarks_nextDigest m dn gnorm nonf lost
  have hen1 := z.passMarks_en m dn.toNat gnorm nonf lost
  dsimp only
  generalize z.passMarks m dn.toNat gnorm nonf lost = x at *
  have hc := x.modelCompare_compared m dw bad ((State.modelInj_congr m hregs hsaf).trans hinj)
  generalize x.modelCompare m dw bad = y at *
  have houts : y.passOuts p.m = false := y.passOuts_false p.m fun c hcm => by
    rw [hm]
    exact hctx c (by rw [← hfab, ← hc.fab]; exact hcm)
  have hover : y.passAfter p = (y.setModelBit p.m 17 true).passEnd p := by
    rw [State.passAfter, if_neg (by rw [houts]; decide)]
    exact y.passOver_eq p hcnt (by rw [hm, hc.en, hen1, hen]) (by rw [hc.host, hhost, hj])
  rw [hover]
  obtain ⟨hd, hpass, hpend, hq⟩ := y.passEnd_leaves p _ rfl
  rw [hm] at hpass hpend hq
  refine ⟨?_, ?_, ?_, ?_, ?_⟩
  · rw [State.model_nextDigest, hm, hq 0xD8 (by omega), hc.others 0xD8 (by omega), hnext, BitVec.ofNat_toNat, BitVec.setWidth_eq]
  · rw [State.model_pending, hm, hpend]
  · rw [State.model_lastRead, hm, hq 0xD0 (by omega), hc.lastRead, BitVec.ofNat_toNat, BitVec.setWidth_eq]
  · rw [hm, hpass]
  · rw [hd, hc.dram, hdram]

theorem exec_backgroundCheck {s s1 : State} {m : Fin 4096} {r : MRead} (hv : (s.model m).valid = true) (hb : s.boundary = false)
    (hc : (s.model m).checked ≠ []) (hr : s.readChecked m (s.model m) = (r, s1)) (hst : r.stall = false) :
    exec (.backgroundCheck m) s = .next (({ s1 with fresh := s1.fresh + (s.model m).wbytes + (s.model m).mcount }).modelCompare m
      ((s.model m).digestOf r s1.fresh) r.bad) := by
  have he : exec (.backgroundCheck m) s = execBackgroundCheck m s := rfl
  have hc' : (s.model m).checked.isEmpty = false := by simpa using hc
  rw [he, execBackgroundCheck]
  simp only [hv, hb, hc', hr, hst, Bool.not_true, Bool.false_eq_true, or_self, if_false]

/-- The marks of a check alone, where no injection awaits it. -/
theorem State.backgroundCheck_leaves {s1 z : State} {m : Fin 4096} (d : W64) (bad : Bool) (hinj : s1.modelInj m = false)
    (hz : ∃ n, z = { s1 with fresh := n }) :
    let u := z.modelCompare m d bad
    (u.model m).lastRead = d ∧ u.dram = s1.dram ∧
    (u.model m).corrupt = ((s1.model m).corrupt || bad || decide (d ≠ (s1.model m).digest)) := by
  obtain ⟨n, hn⟩ := hz
  have hbar : z.bar2 = s1.bar2 := by rw [hn]
  have hd : z.dram = s1.dram := by rw [hn]
  have hc := z.modelCompare_compared m d bad ((State.modelInj_congr (s := s1) (t := z) m (by rw [hn]) (by rw [hn])).trans hinj)
  dsimp only
  refine ⟨?_, hc.dram.trans hd, ?_⟩
  · rw [State.model_lastRead, hc.lastRead, BitVec.ofNat_toNat, BitVec.setWidth_eq]
  · rw [State.model_corrupt, hc.corrupt, State.modelStatus_congr m hbar, State.model_of_bar2 hbar, State.model_corrupt]

/-- Settles O30: an entry is checked, registered and deregistered (R237 to R239), a plain pass writes the slot that is not current
(R244), and a full read is compared with DIGEST (R250). -/
theorem modelsAreRegisteredAndChecked : Obligations.ModelsAreRegisteredAndChecked := by
  unfold Obligations.ModelsAreRegisteredAndChecked
  refine ⟨fun s ag m hup => ⟨?register, ?done, ?gone⟩, fun s s1 s2 s3 m => ⟨?pass, ?check⟩⟩
  case register =>
    intro hen
    have hx := exec_modelRegister hup hen
    have hmdl : (s.enModel m).mdl = s.mdl := State.putBarNat_mdl ..
    refine ⟨fun hf => ?_, fun hf ha => ?_, fun c s1 hc h0 hlt => ?_, fun s1 hc => ?_⟩
    · obtain ⟨hst, hm⟩ := State.modelRegister_refused _ _ (State.modelCheck_badFormat _ _ hf) (by omega) (by omega)
      exact .of hx ⟨hst, hm.trans hmdl⟩
    · obtain ⟨hst, hm⟩ := State.modelRegister_refused _ _ (State.modelCheck_badAlign _ _ hf ha) (by omega) (by omega)
      exact .of hx ⟨hst, hm.trans hmdl⟩
    · exact .of hx (State.modelRegister_refused _ _ hc h0 hlt)
    · exact .of hx (State.modelRegister_begins _ _ hc)
  case done =>
    intro hen hst hreg hopt
    have hx := exec_modelRegisterDone s hen hst hreg hopt
    refine ⟨fun ht hv => ?_, fun r s1 ht hv hr hs hb => ?_, fun r s1 s2 lost ht hr hs hb hw => ?_⟩
    · rw [if_neg (by rw [ht]; decide), if_neg (by rw [hv]; decide)] at hx
      exact .of hx ⟨s.modelValid_status m [], (s.modelValid_mdl m []).1⟩
    · rw [if_neg (by rw [ht]; decide), if_pos hv] at hx
      obtain ⟨z, hzd, hz⟩ := s.registerVerify_done m hr hs hb
      rw [hz] at hx
      exact .of hx ⟨State.modelValid_status _ m [], (z.registered_digests m [] _).1, (z.registered_dram m [] _).trans hzd⟩
    · rw [if_pos ht] at hx
      obtain ⟨z, hzd, hz⟩ := s.registerTraining_done m [] hr hs hb rfl hw
      rw [hz] at hx
      obtain ⟨h1, h2⟩ := z.registered_digests m [] (patDigest (r.elems (s.model m).msz (s.model m).mcount s1.fresh))
      exact .of hx ⟨State.modelValid_status _ m [], h1, h2, (z.registered_dram m [] _).trans hzd, (State.modelValid_mdl _ m []).2⟩
  case gone =>
    intro hen hv hp
    have hlt : s.barNat (modelOff m + 0xFF) 1 / 2 * 2 < 256 := by
      have := s.barNat_lt (modelOff m + 0xFF) 1
      omega
    exact .of (exec_modelDeregister s hup hen hv hp) (s.modelGone_leaves m _ hlt (bitAt_half_double _))
  case pass =>
    intro p rm rg refused hp hwr hsafe hcnt _ hopt _ _ hfmt hinj hctx hen hj h1 h2 hrm hrg _ w g res wc hws
    have hm : p.m = m.val := by simpa using List.find?_some (p := fun q : MPass => q.m == m.val) hp
    obtain ⟨n, gnorm, nonf, lost, hrun⟩ := s.passRun_plain m hm hopt hfmt h1 h2 hrm hrg rfl rfl hws
    obtain ⟨hregs, hsaf, hhost, hbar⟩ := s3.dropGot_rest (.mread m)
    obtain ⟨z, hz, hzr, hzs, hzh, hzb, hzf, hzd⟩ : ∃ z : State, ({ s3.dropGot (.mread m) with fresh := n } : State) = z ∧ z.regs = s3.regs ∧
        z.saf = s3.saf ∧ z.host = s3.host ∧ z.bar2 = s3.bar2 ∧ z.fab = (s3.dropGot (.mread m)).fab ∧ z.dram = s3.dram :=
      ⟨_, rfl, hregs, hsaf, hhost, hbar, rfl, (s3.dropGot_keeps (.mread m)).1⟩
    have hx := exec_updatePassDone hp hsafe hwr
    rw [hrun, hz] at hx
    obtain ⟨hn, hpe, hl, hpo, hd⟩ := State.passAfter_leaves hm (patDigest res.master) (patDigest w) gnorm nonf lost rm.bad
      ((State.modelInj_congr (s := s3) m hzr hzs).trans hinj) (by rw [hzf]; exact s3.dropGot_fab (.mread m) m hctx)
      ((State.modelEn_congr s3 m hzb).trans hen) (by rw [hzh, hj]) hcnt
    exact .of hx ⟨hn, hpe, hl, hpo, hd.trans hzd⟩
  case check =>
    intro r hv hb hc hr hst hinj hmod
    have h := State.backgroundCheck_leaves (s1 := s1) ((s.model m).digestOf r s1.fresh) r.bad hinj
      ⟨s1.fresh + (s.model m).wbytes + (s.model m).mcount, rfl⟩
    rw [hmod] at h
    exact .of (exec_backgroundCheck hv hb hc hr hst) h

end Sys2Proof.Machine
end

section
/-! # Model instructions (R240, R241, R244, R256), and what a prefetch leaves alone -/
namespace Sys2Proof.Machine

/-! ### Accesses of home lines and the threads -/

section Threads
variable (s : State)

@[simp] theorem State.thr_countInner (line : Nat) : (s.countInner line).thr = s.thr := by
  unfold State.countInner
  split <;> rfl

@[simp] theorem State.thr_spareRow (n pc bank row : Nat) : (s.spareRow n pc bank row).thr = s.thr := by
  unfold State.spareRow
  dsimp only
  split
  · rfl
  split
  · rfl
  split
  · exact State.event_thr ..
  · split <;> rfl

theorem State.thr_setLastUe (n o : Nat) : (s.setLastUe n o).thr = s.thr := by
  rw [State.setLastUe, State.setFld_thr, State.setFld_thr, State.setFld_thr, State.setFld_thr, State.setFld_thr]

@[simp] theorem State.thr_uncorrectable (line : Nat) (b : Bool) : (s.uncorrectable line b).thr = s.thr := by
  unfold State.uncorrectable
  dsimp only
  split
  · rw [State.thr_spareRow, State.thr_setLastUe, State.setFlag_thr, State.inc_thr]
  · rw [State.thr_setLastUe, State.setFlag_thr, State.inc_thr]

@[simp] theorem State.thr_readLine (line : Nat) : (s.readLine line).2.thr = s.thr := by
  unfold State.readLine
  split
  case h_2 => rw [State.corrected_thr, State.thr_countInner]
  case h_3 => rw [State.miscorrected_thr, State.thr_countInner]
  case h_4 =>
    dsimp only
    rw [State.thr_uncorrectable]
    split <;> exact State.thr_countInner ..
  case h_5 => exact (State.thr_uncorrectable ..).trans (State.thr_countInner ..)
  all_goals simp

@[simp] theorem State.thr_carryPoison (line : Nat) : (s.carryPoison line).thr = s.thr := by
  unfold State.carryPoison
  split <;> rfl

@[simp] theorem State.thr_sramFound (line : Nat) : (s.sramFound line).thr = s.thr := State.report_thr ..

/-- What an answer's state keeps of the threads, from the operation that gave it. -/
theorem State.thr_snd {α : Type} {s u : State} {x : α} {p : α × State} (h : p = (x, u)) (k : p.2.thr = s.thr) : u.thr = s.thr := by
  subst h; exact k

@[simp] theorem State.thr_takeLine (line : Nat) : (s.takeLine line).2.thr = s.thr := by
  unfold State.takeLine
  split
  · exact State.thr_sramFound ..
  · split <;> next h => simpa using State.thr_snd h (State.thr_readLine ..)

@[simp] theorem State.thr_consumeLine (cross : Bool) (line : Nat) : (s.consumeLine cross line).2.thr = s.thr := by
  unfold State.consumeLine
  split
  · exact State.thr_carryPoison ..
  split
  · exact State.thr_sramFound ..
  · split
    · next h => exact State.thr_snd h (State.thr_takeLine ..)
    · next h => exact (State.report_thr ..).trans (State.thr_snd h (State.thr_takeLine ..))

@[simp] theorem State.thr_syncComb (n : Nat) : (s.syncComb n).thr = s.thr := by
  unfold State.syncComb
  dsimp only
  split <;> rfl

@[simp] theorem State.thr_biSend (line : Nat) : (s.biSend line).thr = s.thr := by
  unfold State.biSend
  split <;> rfl

@[simp] theorem State.thr_newerWritten (line : Nat) : (s.newerWritten line).thr = s.thr := by
  unfold State.newerWritten
  split <;> rfl

@[simp] theorem State.thr_biDone (line : Nat) (w : Bool) : (s.biDone line w).thr = s.thr := rfl
@[simp] theorem State.thr_setDir (line : Nat) (d : Dir) : (s.setDir line d).thr = s.thr := rfl

@[simp] theorem State.thr_dirChecked (line : Nat) : (s.dirChecked line).thr = s.thr := by
  unfold State.dirChecked
  dsimp only
  split
  · rfl
  · rfl
  · exact (State.report_thr ..).trans (by rw [State.thr_setDir, State.thr_biDone, State.thr_biSend, State.thr_newerWritten])

@[simp] theorem State.thr_homeActions (line : Nat) (w : Bool) (h : Holder) : (s.homeActions line w h).thr = s.thr := by
  unfold State.homeActions
  dsimp only
  split <;> simp

@[simp] theorem State.thr_setPoison (line : Nat) (b : Bool) : (s.setPoison line b).thr = s.thr := rfl

@[simp] theorem State.thr_putDram (bs : List Byte) (k : Nat) : (s.putDram k bs).thr = s.thr := by rw [State.putDram_fields]

@[simp] theorem State.thr_injectMsc (line : Nat) : (s.injectMsc line).thr = s.thr := by
  unfold State.injectMsc
  dsimp only
  split <;> rfl

@[simp] theorem State.thr_writePart (k : Nat) (bs : List Byte) : (s.writePart k bs).thr = s.thr := by
  unfold State.writePart
  dsimp only
  split
  · rfl
  · split <;> next h =>
      simpa [State.wordWritten_thr] using State.thr_snd h (State.thr_readLine ..)

@[simp] theorem State.thr_writeFull (line : Nat) (bs : List Byte) : (s.writeFull line bs).thr = s.thr := by
  unfold State.writeFull
  dsimp only
  split
  · rfl
  · simp [State.wordWritten_thr]

@[simp] theorem State.thr_writeHome (k : Nat) (bs : List Byte) : (s.writeHome k bs).thr = s.thr := by
  unfold State.writeHome
  dsimp only
  split
  · rfl
  · refine State.foldl_thr (fun _ _ => ?_) _ _
    split <;> simp

@[simp] theorem State.thr_send (k : OutPkt) : (s.send k).thr = s.thr := ((State.Net.refl s).send k).thr

@[simp] theorem State.thr_combAnswer (r : CombReq) (old : Option Nat) : (s.combAnswer r old).thr = s.thr := by
  unfold State.combAnswer
  split <;> exact State.thr_send ..

@[simp] theorem State.thr_combOne (r : CombReq) : (s.combOne r).thr = s.thr :=
  (State.thr_combAnswer ..).trans (State.thr_writeHome ..)

theorem State.thr_walk (va : Nat) : ∀ (fuel lvl tbl : Nat) (s : State), (s.walk va fuel lvl tbl).2.thr = s.thr
  | 0, _, _, _ => rfl
  | fuel + 1, lvl, tbl, s => by
    unfold State.walk
    split
    · split
      · rfl
      · split
        · next h => exact State.thr_snd h (State.thr_consumeLine ..)
        · next h =>
          have h1 := State.thr_snd h (State.thr_consumeLine ..)
          dsimp only
          split
          · exact (State.thr_walk va fuel _ _ _).trans h1
          all_goals exact h1
    · rfl

@[simp] theorem State.thr_xlate (who : Who) (va : Nat) (k : AKind) : (s.xlate who va k).2.thr = s.thr := by
  unfold State.xlate
  split
  · split <;> rfl
  · unfold State.xlatePage
    split
    · rfl
    · split <;> next h => exact State.thr_snd h (State.thr_walk ..)

@[simp] theorem State.thr_markLeaf (l : Leaf) (k : AKind) : (s.markLeaf l k).thr = s.thr := by
  unfold State.markLeaf
  extract_lets e'
  by_cases he : e' = l.e
  · rw [if_pos he]
  · rw [if_neg he, State.thr_writePart]

@[simp] theorem State.thr_markAccess (va : Nat) (k : AKind) : (s.markAccess va k).thr = s.thr := by
  unfold State.markAccess
  split
  · exact State.thr_markLeaf ..
  · rfl

/-- A fetch leaves the threads alone. -/
theorem State.thr_fetch (t : Tid) : (s.fetch t).2.thr = s.thr := by
  unfold State.fetch
  split
  · rfl
  · split
    · next h => exact (State.thr_markAccess ..).trans (State.thr_snd h (State.thr_xlate ..))
    · exact State.thr_xlate ..

theorem State.offHome_walk (va : Nat) : ∀ (fuel lvl tbl : Nat) (s : State), (s.walk va fuel lvl tbl).2.offHome = s.offHome
  | 0, _, _, _ => rfl
  | fuel + 1, lvl, tbl, s => by
    unfold State.walk
    split
    · split
      · rfl
      · split
        · next h => exact State.offHome_snd h (State.offHome_consumeLine ..)
        · next h =>
          have h1 := State.offHome_snd h (State.offHome_consumeLine ..)
          dsimp only
          split
          · exact (State.offHome_walk va fuel _ _ _).trans h1
          · exact h1
          · exact h1
          · exact h1
    · rfl

@[simp] theorem State.offHome_xlate (who : Who) (va : Nat) (k : AKind) : (s.xlate who va k).2.offHome = s.offHome := by
  unfold State.xlate
  split
  · split <;> rfl
  · unfold State.xlatePage
    split
    · rfl
    · split <;> next h => exact State.offHome_snd h (State.offHome_walk ..)

end Threads

/-! ### Prefetches (R241) -/

/-- Every entry that the table of contexts lists for a thread is its context. -/
def State.OneCtx (s : State) (t : Tid) : Prop := ∀ e ∈ s.thr.ctxs, e.1 = t.handle → e.2 = s.ctx t

/-- What a prefetch leaves alone: all but memory and its marks, and of a thread that does not wait all but the marks of its armed lines. -/
structure State.Fetched (t : Tid) (s u : State) : Prop where
  off : u.offHome = s.offHome
  ctx : s.OneCtx t → (s.ctx t).st ≠ .wait → u.OneCtx t ∧ ∃ l, u.ctx t = { s.ctx t with lines := l }

section Prefetch
variable {t : Tid} {s u v : State}

theorem State.Fetched.refl (s : State) : State.Fetched t s s := ⟨rfl, fun h _ => ⟨h, (s.ctx t).lines, rfl⟩⟩

theorem State.Fetched.trans (h : State.Fetched t s u) (h' : State.Fetched t u v) : State.Fetched t s v := by
  refine ⟨h'.off.trans h.off, fun ho hw => ?_⟩
  obtain ⟨ho1, l1, h1⟩ := h.ctx ho hw
  obtain ⟨ho2, l2, h2⟩ := h'.ctx ho1 (by rw [h1]; exact hw)
  exact ⟨ho2, l2, by rw [h2, h1]⟩

theorem State.Fetched.of_thr (ho : u.offHome = s.offHome) (ht : u.thr = s.thr) : State.Fetched t s u :=
  ⟨ho, fun h _ => ⟨by rw [State.OneCtx, State.ctx, ht]; exact h, (s.ctx t).lines, by rw [State.ctx_congr ht]⟩⟩

theorem State.Fetched.foldl {α : Type} {f : State → α → State} (hf : ∀ s x, State.Fetched t s (f s x)) (l : List α) :
    ∀ s : State, State.Fetched t s (l.foldl f s) := by
  induction l with
  | nil => exact fun s => .refl s
  | cons x l ih => exact fun s => (hf s x).trans (ih _)

end Prefetch

theorem mem_tabDel {α : Type} {l : List (Nat × α)} {k : Nat} {e : Nat × α} (h : e ∈ tabDel l k) : e ∈ l ∧ e.1 ≠ k := by
  simpa [tabDel] using h

theorem mem_tabIns {α : Type} {k : Nat} {v : α} {e : Nat × α} : ∀ {l : List (Nat × α)}, e ∈ tabIns l k v → e = (k, v) ∨ e ∈ l
  | [], h => .inl (List.mem_singleton.1 h)
  | (k', v') :: l, h => by
    rw [tabIns] at h
    split at h
    · exact List.mem_cons.1 h
    · rcases List.mem_cons.1 h with h | h
      · exact .inr (h ▸ .head _)
      · exact (mem_tabIns h).imp id (.tail _)

/-- An entry of a table that has been set is the one set, or another key's. -/
theorem mem_tabSet {α : Type} [DecidableEq α] {d : Nat → α} {l : List (Nat × α)} {k : Nat} {v : α} {e : Nat × α} (h : e ∈ tabSet d l k v) :
    e = (k, v) ∨ e ∈ l ∧ e.1 ≠ k := by
  unfold tabSet at h
  split at h
  · exact .inr (mem_tabDel h)
  · exact (mem_tabIns h).imp id mem_tabDel

theorem State.setCtx_oneCtx (s : State) (t : Tid) (c : Ctx) : (s.setCtx t c).OneCtx t := by
  intro e he hk
  rw [State.ctx_setCtx_same]
  rcases mem_tabSet he with rfl | ⟨-, hne⟩
  · rfl
  · exact absurd hk hne

/-- A thread that does not wait has its armed lines marked, and nothing else of it changes. -/
theorem Ctx.touch_ready {c : Ctx} (h : c.st ≠ .wait) (lid : Nat) : ∃ l, c.touch lid = { c with lines := l } := by
  refine ⟨c.lines.map fun e => if e.1 = lid then (e.1, true) else e, ?_⟩
  unfold Ctx.touch
  dsimp only
  rw [if_neg fun hh => h hh.1]

/-- A context set at a handle. -/
def State.setAt (s : State) (k : Nat) (c : Ctx) : State := { s with thr := { s.thr with ctxs := tabSet ctxDefault s.thr.ctxs k c } }

theorem State.setAt_ne (s : State) {t : Tid} {k : Nat} (c : Ctx) (hk : t.handle ≠ k) : (s.setAt k c).ctx t = s.ctx t ∧
    (s.OneCtx t → (s.setAt k c).OneCtx t) := by
  have hctx : (s.setAt k c).ctx t = s.ctx t := tabGet_set_ne _ _ _ hk
  refine ⟨hctx, fun h e he hek => ?_⟩
  rw [hctx]
  rcases mem_tabSet he with rfl | ⟨hm, -⟩
  · exact absurd hek.symm hk
  · exact h e hm hek

/-- The entries of thread `t` are its context, and a notification marks it. -/
theorem State.foldl_touch {t : Tid} {c0 : Ctx} (hw : c0.st ≠ .wait) (lid : Nat) (l : List (Nat × Ctx)) (hl : ∀ e ∈ l, e.1 = t.handle → e.2 = c0) :
    ∀ s : State, s.OneCtx t → (∃ x, s.ctx t = { c0 with lines := x }) →
      let u := l.foldl (fun s e => s.setAt e.1 (e.2.touch lid)) s
      u.OneCtx t ∧ ∃ x, u.ctx t = { c0 with lines := x } := by
  induction l with
  | nil => exact fun s ho hx => ⟨ho, hx⟩
  | cons e l ih =>
    intro s ho hx
    refine ih (fun e he => hl e (.tail _ he)) (s.setAt e.1 (e.2.touch lid)) ?_ ?_ <;> by_cases hk : t.handle = e.1
    · exact hk ▸ s.setCtx_oneCtx t _
    · exact (s.setAt_ne _ hk).2 ho
    · have hset : s.setAt e.1 (e.2.touch lid) = s.setCtx t (e.2.touch lid) := by rw [← hk]; rfl
      rw [hset, State.ctx_setCtx_same, hl e (.head _) hk.symm]
      exact Ctx.touch_ready hw lid
    · rw [(s.setAt_ne _ hk).1]
      exact hx

theorem State.Fetched.snd {t : Tid} {α : Type} {s u : State} {x : α} {p : α × State} (h : p = (x, u)) (k : State.Fetched t s p.2) :
    State.Fetched t s u := by
  subst h; exact k

section Operations
variable {t : Tid} (s : State)

theorem State.Fetched.notify (lid : Nat) : State.Fetched t s (s.notify lid) :=
  ⟨State.offHome_notify .., fun ho hw => State.foldl_touch hw lid _ (fun e he => ho e (List.mem_filter.1 he).1) s ho ⟨(s.ctx t).lines, rfl⟩⟩

theorem State.Fetched.combOne (r : CombReq) : State.Fetched t s (s.combOne r) := .of_thr (State.offHome_combOne ..) (State.thr_combOne ..)
theorem State.Fetched.combAnswer (r : CombReq) (o : Option Nat) : State.Fetched t s (s.combAnswer r o) :=
  .of_thr (State.offHome_combAnswer ..) (State.thr_combAnswer ..)
theorem State.Fetched.homeActions (line : Nat) (w : Bool) (h : Holder) : State.Fetched t s (s.homeActions line w h) :=
  .of_thr (State.offHome_homeActions ..) (State.thr_homeActions ..)

theorem State.Fetched.combApply (n line : Nat) : State.Fetched t s (s.combApply n line) := by
  unfold State.combApply
  split
  · exact .refl s
  · dsimp only
    have h0 : ∀ f : StackSt → StackSt, State.Fetched t s ((s.modStk n f).syncComb n) := fun f =>
      .of_thr ((State.offHome_syncComb ..).trans (State.offHome_modStk ..)) ((State.thr_syncComb ..).trans (State.modStk_thr ..))
    have hc : ∀ z : State, State.Fetched t z (z.consumeLine false line).2 := fun z =>
      .of_thr (State.offHome_consumeLine ..) (State.thr_consumeLine ..)
    split
    · next h =>
      refine (h0 _).trans ((State.Fetched.snd h (hc _)).trans ?_)
      exact (State.Fetched.foldl (fun z r => .combOne z r) _ _ |> (State.Fetched.homeActions ..).trans).trans (.notify ..)
    · next h =>
      exact (h0 _).trans ((State.Fetched.snd h (hc _)).trans (State.Fetched.foldl (fun z r => .combAnswer z r none) _ _))

theorem State.Fetched.prepLines (key len : Nat) (w : Bool) (h : Holder) : State.Fetched t s (s.prepLines key len w h) := by
  refine State.Fetched.foldl (fun z l => ?_) _ s
  refine State.Fetched.trans ?_ (.homeActions ..)
  unfold State.combFlush
  split
  · exact .combApply ..
  · exact .refl z

theorem State.Fetched.prefLines (h : Holder) : ∀ (l : List Nat) (s : State), State.Fetched t s (s.prefLines h l)
  | [], s => .refl s
  | va :: rest, s => by
    have hx : State.Fetched t s (s.xlate .jobLevel va .load).2 := .of_thr (State.offHome_xlate ..) (State.thr_xlate ..)
    have htake : ∀ (z : State) line, State.Fetched t z (z.takeLine line).2 := fun z line =>
      .of_thr (State.offHome_takeLine ..) (State.thr_takeLine ..)
    have hinc : ∀ z : State, State.Fetched t z (z.inc fEqx_PREF_DROP) := fun z => .of_thr (State.offHome_inc ..) (State.inc_thr ..)
    unfold State.prefLines
    split
    case h_1 key s1 he =>
      rw [he] at hx
      dsimp only
      split
      · exact hx
      · have ht := htake (s1.prepLines (key / 64 * 64) 64 false h) (key / 64)
        have hp := State.Fetched.trans hx (State.Fetched.prepLines (t := t) s1 (key / 64 * 64) 64 false h)
        split
        next s3 h3 => exact hp.trans ((State.Fetched.snd h3 ht).trans (prefLines h rest s3))
        next s3 h3 => exact hp.trans ((State.Fetched.snd h3 ht).trans (hinc s3))
    case h_2 he => rw [he] at hx; exact hx.trans (prefLines h rest _)
    case h_3 he => rw [he] at hx; exact hx
    case h_4 he => rw [he] at hx; exact hx.trans (hinc _)

/-- A prefetch leaves the engines alone, and of a thread that does not wait all but the marks of its armed lines. -/
theorem State.Fetched.prefetch (g m : Nat) : State.Fetched t s (s.prefetch g m) := by
  unfold State.prefetch
  dsimp only
  split
  · exact .refl s
  · exact .prefLines ..

end Operations

/-! ### Model instructions (R240, R241, R244, R256) -/

theorem State.model_setMat (s : State) (g : Nat) (m : Matrix) (i : Nat) : (s.setMat g m).model i = s.model i := State.model_of_bar2 rfl i

theorem State.modelOk_setMat (s : State) (g : Nat) (m : Matrix) (t : Tid) (i : Nat) : (s.setMat g m).modelOk t i = s.modelOk t i := by
  rw [State.modelOk, State.model_setMat, State.ctx_setMat, State.modelOk]

/-- A thread that has been issued is ready. -/
theorem State.Issues.st_ready {s s1 : State} {t : Tid} {p : Prof} {tgt : Target} (h : s.Issues t p tgt s1) : (s1.ctx t).st = .ready := by
  have hthr : s1.thr = s.thr := State.thr_snd (p := s.fetch t) h.fetched (s.thr_fetch t)
  rw [State.ctx_congr hthr]
  exact h.ready

theorem Matrix.owner_back (m : Matrix) (t : Tid) : { m.ownedBy t with owner := m.owner } = m := rfl

theorem Ctx.sa_st (c : Ctx) (r : Nat) (v : W64) : (c.sa r v).st = c.st := rfl
theorem Ctx.sa_pc (c : Ctx) (r : Nat) (v : W64) : (c.sa r v).pc = c.pc := rfl

section Msel
variable {s s1 : State} {t : Tid} {tgt : Target} (h : s.Issues t profEngine tgt s1)
  (ho : (s1.mat t.groveOf).owner = none ∨ (s1.mat t.groveOf).owner = some t) (hp : (s1.mat t.groveOf).pend = false) (d a b : Reg)
include h ho hp

/-- MSEL of a good model takes its layer 0 and gives the layer table's address; the prefetch touches neither. -/
theorem State.Issues.msel {s2 : State} {e : List Byte} (hok : s1.modelOk t ((s1.ctx t).ga a).toNat = true) (hb : (s1.ctx t).ga b = 0xFFFF)
    (hrd : (s1.setMat t.groveOf ((s1.mat t.groveOf).ownedBy t)).vread (engAgt t) (s1.model ((s1.ctx t).ga a).toNat).epi0 4096 = (.ok e, s2))
    (hc : s2.ctx t = s1.ctx t) (hbad : ctlBad (fieldLE e 0x10 8) = false) (hres : (sliceB e 0x50 0x7B0).any (· != 0) = false) :
    let i := ((s1.ctx t).ga a).toNat
    let v := s1.model i
    let lt := BitVec.ofNat 64 (v.ltab + v.cur * v.soff)
    Completes (.msel t d a b) s fun u =>
      (u.mat t.groveOf).model = some (i, v.l0dNow, lt) ∧ (u.mat t.groveOf).epi = epiOf e ∧ (u.mat t.groveOf).owner = some t ∧
      (u.ctx t).ga d = lt ∧ (u.ctx t).pc = (s1.ctx t).pc + 4 := by
  intro i v lt
  obtain ⟨m', hm'⟩ : ∃ m', { (s1.mat t.groveOf).ownedBy t with epi := epiOf e, model := some (i, v.l0dNow, lt) } = m' := ⟨_, rfl⟩
  obtain ⟨s3, hs3⟩ : ∃ s3, (s2.setMat t.groveOf m').modCtx t (fun c => c.sa d lt) = s3 := ⟨_, rfl⟩
  have hone : s3.OneCtx t := by
    rw [← hs3]
    exact State.setCtx_oneCtx _ _ _
  have hctx3 : s3.ctx t = (s1.ctx t).sa d lt := by rw [← hs3, State.ctx_modCtx_same, State.ctx_setMat, hc]
  have hmat3 : s3.mat t.groveOf = m' := by rw [← hs3]; exact State.mat_setMat_same ..
  obtain ⟨hoff, hcl⟩ := State.Fetched.prefetch (t := t) s3 t.groveOf i
  have hst3 : (s3.ctx t).st ≠ .wait := by
    rw [hctx3, Ctx.sa_st, h.st_ready]
    decide
  obtain ⟨-, l, hl⟩ := hcl hone hst3
  obtain ⟨s4, hs4⟩ : ∃ s4, s3.prefetch t.groveOf i = s4 := ⟨_, rfl⟩
  rw [hs4] at hoff hl
  have hmat4 : s4.mat t.groveOf = m' := by
    have heng : s4.eng = s3.eng := (congrArg State.eng hoff :)
    rw [State.mat_congr heng, hmat3]
  obtain ⟨hstop, hga, hpc⟩ : (s4.ctx t).stopPending = false ∧ (s4.ctx t).retired.ga d = lt ∧ (s4.ctx t).retired.pc = (s1.ctx t).pc + 4 := by
    obtain ⟨c3, hc3⟩ : ∃ c3, s3.ctx t = c3 := ⟨_, rfl⟩
    rw [hc3] at hl hctx3
    rw [hl]
    have hsame : ({ c3 with lines := l } : Ctx).stopPending = c3.stopPending ∧ ({ c3 with lines := l } : Ctx).retired.ga d = c3.ga d ∧
      ({ c3 with lines := l } : Ctx).retired.pc = c3.pc + 4 := ⟨rfl, rfl, rfl⟩
    obtain ⟨h1, h2, h3⟩ := hsame
    rw [h1, h2, h3, hctx3, Ctx.sa_stopPending, Ctx.ga_sa_same, Ctx.sa_pc]
    exact ⟨h.unstopped, rfl, rfl⟩
  have hx : exec (.msel t d a b) s = .next (s4.setCtx t (s4.ctx t).retired) := by
    have he : exec (.msel t d a b) s = execMsel t d a b s := rfl
    rw [he, execMsel, h.mxInsn (s2 := s4) ho (by simp [hp]) ?_ hstop]
    obtain ⟨x, hx⟩ : ∃ x, s1.setMat t.groveOf ((s1.mat t.groveOf).ownedBy t) = x := ⟨_, rfl⟩
    have hxc : x.ctx t = s1.ctx t := by rw [← hx, State.ctx_setMat]
    have hxm : x.model i = v := by rw [← hx, State.model_setMat]
    have hxo : x.modelOk t i = true := by rw [← hx, State.modelOk_setMat, hok]
    rw [hx] at hrd
    rw [hx]
    have hno : ¬((!x.modelOk t ((x.ctx t).ga a).toNat) = true ∨
        ((x.ctx t).ga b).toNat ≠ 0xFFFF ∧ (!x.modelOk t ((x.ctx t).ga b).toNat) = true) := by
      rw [hxc, hb]
      simp [i] at hxo
      simp [hxo]
    refine (if_neg hno).trans ?_
    rw [hxc]
    obtain ⟨f, hf⟩ : ∃ f, State.vread x (engAgt t) = f := ⟨_, rfl⟩
    rw [hf] at hrd ⊢
    dsimp only
    rw [hxm, hrd]
    refine (if_neg (by rw [hbad, hres]; simp)).trans ?_
    refine congrArg TRes.done ((if_pos (by rw [hb]; rfl)).trans ?_)
    rw [← hs4, ← hs3, ← hm']
  refine .of hx ⟨?_, ?_, ?_, ?_, ?_⟩
  · rw [State.mat_setCtx, hmat4, ← hm']
  · rw [State.mat_setCtx, hmat4, ← hm']
  · rw [State.mat_setCtx, hmat4, ← hm']; rfl
  · rw [State.ctx_setCtx_same, hga]
  · rw [State.ctx_setCtx_same, hpc]

/-- A fault of a matrix instruction leaves the engine to the owner it had. -/
theorem State.Issues.mxInsn_fault {i : Instr} {body : State → Matrix → TRes} {s2 : State} {f : FaultArg}
    (hb : body (s1.setMat t.groveOf ((s1.mat t.groveOf).ownedBy t)) ((s1.mat t.groveOf).ownedBy t) = .fault s2 f) :
    s.mxInsn t i true body =
      (s2.setMat t.groveOf { s2.mat t.groveOf with owner := (s1.mat t.groveOf).owner }).takeFault t f := by
  refine h.fault i ?_
  have howner : ¬((s1.mat t.groveOf).owner.isSome = true ∧ (s1.mat t.groveOf).owner ≠ some t) := by
    rcases ho with ho | ho <;> simp [ho]
  dsimp only
  rw [if_neg howner, if_neg (by rw [hp]; simp)]
  dsimp only [Matrix.ownedBy] at hb
  rw [hb]

/-- One that faults before it does anything. -/
theorem State.Issues.mxInsn_refused {i : Instr} {body : State → Matrix → TRes} {f : FaultArg}
    (hb : body (s1.setMat t.groveOf ((s1.mat t.groveOf).ownedBy t)) ((s1.mat t.groveOf).ownedBy t) =
      .fault (s1.setMat t.groveOf ((s1.mat t.groveOf).ownedBy t)) f) :
    s.mxInsn t i true body = (s1.setMat t.groveOf (s1.mat t.groveOf)).takeFault t f := by
  rw [h.mxInsn_fault ho hp hb, State.mat_setMat_same, State.setMat_setMat]
  exact congrArg (fun m => (s1.setMat t.groveOf m).takeFault t f) (Matrix.owner_back ..)

theorem State.Issues.msel_refused (hok : s1.modelOk t ((s1.ctx t).ga a).toNat = false) : Completes (.msel t d a b) s fun u =>
    (u.ctx t).st = .faulted ∧ (u.ctx t).faultInfo = faultWord 0x48 false false 0 ∧ u.mat t.groveOf = s1.mat t.groveOf := by
  have hx : exec (.msel t d a b) s = .next ((s1.setMat t.groveOf (s1.mat t.groveOf)).takeFault t { code := 0x48 }) := by
    have he : exec (.msel t d a b) s = execMsel t d a b s := rfl
    rw [he, execMsel, h.mxInsn_refused ho hp (f := { code := 0x48 }) ?_]
    exact if_pos (by rw [State.ctx_setMat, State.modelOk_setMat]; simp [hok])
  have hm : (s1.setMat t.groveOf (s1.mat t.groveOf)).mat t.groveOf = s1.mat t.groveOf := State.mat_setMat_same ..
  obtain ⟨z, hz⟩ : ∃ z, s1.setMat t.groveOf (s1.mat t.groveOf) = z := ⟨_, rfl⟩
  rw [hz] at hx hm
  obtain ⟨hst, hinfo, -, -⟩ := h.takeFault_grove z 0x48
  refine .of hx ⟨hst, hinfo, ?_⟩
  have hk : ¬t.kind = .control := by rw [h.grove]; simp
  rw [State.takeFault, if_neg hk, ← hm]
  rfl

end Msel

section Hint
variable {s s1 : State} {t : Tid} {tgt : Target} (h : s.Issues t profAll tgt s1) (a : Reg)
include h

theorem exec_mhint_done {s2 : State} (hn : s2.ctx t = s1.ctx t ∨ (s2.ctx t).stopPending = false)
    (hb : (s1.ctx t).ga a = 0xFFFF ∧ s2 = s1 ∨ (s1.ctx t).ga a ≠ 0xFFFF ∧ s1.modelOk t ((s1.ctx t).ga a).toNat = true ∧
      s2 = if t.kind = .grove then s1.prefetch t.groveOf ((s1.ctx t).ga a).toNat else s1) :
    exec (.mhint t a) s = .next (s2.setCtx t (s2.ctx t).retired) := by
  have he : exec (.mhint t a) s = execMhint t a s := rfl
  have hstop : (s2.ctx t).stopPending = false := hn.elim (fun hn => hn ▸ h.unstopped) id
  rw [he, execMhint, h.done (s2 := s2) _ ?_ hstop]
  · rfl
  · dsimp only
    rcases hb with ⟨hff, rfl⟩ | ⟨hff, hok, rfl⟩
    · rw [if_pos (by rw [hff]; decide)]
    · have hne : ((s1.ctx t).ga a).toNat ≠ 0xFFFF := fun hn => hff (BitVec.eq_of_toNat_eq hn)
      rw [if_neg hne, if_neg (by simp [hok])]

theorem exec_mhint_refused (hff : (s1.ctx t).ga a ≠ 0xFFFF) (hok : s1.modelOk t ((s1.ctx t).ga a).toNat = false) :
    exec (.mhint t a) s = .next (s1.takeFault t { code := 0x48 }) := by
  have he : exec (.mhint t a) s = execMhint t a s := rfl
  have hne : ((s1.ctx t).ga a).toNat ≠ 0xFFFF := fun hn => hff (BitVec.eq_of_toNat_eq hn)
  rw [he, execMhint, h.fault (s2 := s1) (f := { code := 0x48 })]
  dsimp only
  rw [if_neg hne, if_pos (by simp [hok])]

end Hint

section Update
variable {s s1 : State} {t : Tid} {tgt : Target} (h : s.Issues t profWork tgt s1) (a b : Reg)
include h

theorem exec_mupdate_refused (hbad : s1.modelOk t ((s1.ctx t).ga a).toNat = false ∨ (s1.model ((s1.ctx t).ga a).toNat).training = false ∨
    8192 ≤ ((s1.ctx t).ga b).toNat) : exec (.mupdate t a b) s = .next (s1.takeFault t { code := 0x48 }) := by
  have he : exec (.mupdate t a b) s = execMupdate t a b s := rfl
  rw [he, execMupdate, h.fault (s2 := s1) (f := { code := 0x48 })]
  dsimp only
  rw [if_pos (by simpa using hbad)]

variable (hok : s1.modelOk t ((s1.ctx t).ga a).toNat = true) (htr : (s1.model ((s1.ctx t).ga a).toNat).training = true)
  (hlt : ((s1.ctx t).ga b).toNat < 8192)
include hok htr hlt

theorem exec_mupdate_busy (hbusy : (s1.model ((s1.ctx t).ga a).toNat).pending = true ∨ (s1.passOf ((s1.ctx t).ga a).toNat).isSome = true) :
    exec (.mupdate t a b) s = .next (s1.takeFault t { code := 0x4A }) := by
  have he : exec (.mupdate t a b) s = execMupdate t a b s := rfl
  rw [he, execMupdate, h.fault (s2 := s1) (f := { code := 0x4A })]
  dsimp only
  rw [if_neg (by simp [hok, htr]; omega), if_pos hbusy]

/-- The pass that MUPDATE begins. -/
def State.passBegun (s : State) (i ctl : Nat) : MPass :=
  { m := i, hyp := s.barBytes (modelOff i + 0x80) 48, cnt := ctl % 4096, cntEn := bitAt ctl 12,
    epoch := BitVec.ofNat 32 (s.fld fMode_A_EPOCH), wrote := false }

theorem exec_mupdate (hpe : (s1.model ((s1.ctx t).ga a).toNat).pending = false) (hpo : s1.passOf ((s1.ctx t).ga a).toNat = none)
    (hl : (s1.model ((s1.ctx t).ga a).toNat).lenderLost = false) :
    exec (.mupdate t a b) s = .next (State.setCtx { s1 with mdl := { s1.mdl with passes := s1.mdl.passes ++
      [s1.passBegun ((s1.ctx t).ga a).toNat ((s1.ctx t).ga b).toNat] } } t (s1.ctx t).retired) := by
  have he : exec (.mupdate t a b) s = execMupdate t a b s := rfl
  rw [he, execMupdate, h.done (s2 := { s1 with mdl := { s1.mdl with passes := s1.mdl.passes ++
      [s1.passBegun ((s1.ctx t).ga a).toNat ((s1.ctx t).ga b).toNat] } }) _ ?_ h.unstopped]
  · rfl
  · dsimp only
    rw [if_neg (by simp [hok, htr]; omega), if_neg (by simp [hpe, hpo]), if_neg (by simp [hl])]
    rfl

end Update

section Export
variable {s s1 : State} {t : Tid} {tgt : Target} (h : s.Issues t profControl tgt s1) (a d : Reg)
include h

theorem exec_mexport_refused (hbad : s1.modelOk t ((s1.ctx t).ga a).toNat = false ∨ (s1.model ((s1.ctx t).ga a).toNat).training = false) :
    exec (.mexport t a d) s = .next (s1.takeFault t { code := 0x48 }) := by
  have he : exec (.mexport t a d) s = execMexport t a d s := rfl
  rw [he, execMexport, h.fault (s2 := s1) (f := { code := 0x48 })]
  exact if_pos (by simpa using hbad)

theorem exec_mexport {s2 s3 : State} {bs e : List Byte} (hok : s1.modelOk t ((s1.ctx t).ga a).toNat = true)
    (htr : (s1.model ((s1.ctx t).ga a).toNat).training = true)
    (hpr : s1.vprobe (s1.whoOf t) .store ((s1.ctx t).ga d).toNat 128 = (.ok bs, s2))
    (hwr : s2.vwrite (s2.agtOf t) ((s1.ctx t).ga d).toNat ((s1.model ((s1.ctx t).ga a).toNat).header
      ((s1.model ((s1.ctx t).ga a).toNat).obytes (s2.segsNow (s1.model ((s1.ctx t).ga a).toNat))) (s2.fld fPkg_STEP)) = (.ok e, s3))
    (hstop : (s3.ctx t).stopPending = false) : exec (.mexport t a d) s = .next (s3.setCtx t (s3.ctx t).retired) := by
  have he : exec (.mexport t a d) s = execMexport t a d s := rfl
  have hgood : ¬((!s1.modelOk t ((s1.ctx t).ga a).toNat) = true ∨ (!(s1.model ((s1.ctx t).ga a).toNat).training) = true) := by
    simp [hok, htr]
  rw [he, execMexport, h.done (s2 := s3) _ ?_ hstop]
  · rfl
  · refine (if_neg hgood).trans ?_
    obtain ⟨vw, hvw⟩ : ∃ vw, State.vwrite = vw := ⟨_, rfl⟩
    rw [hvw] at hwr ⊢
    rw [hpr]
    dsimp only
    rw [hwr]

end Export

theorem bitAt_getLsbD (x : W64) (i : Nat) : bitAt x.toNat i = x.getLsbD i := by
  rw [bitAt, Nat.shiftRight_eq_div_pow, BitVec.getLsbD, Nat.testBit_eq_decide_div_mod_eq]
  rfl

/-- Settles O31: MSEL, MHINT, MUPDATE and MEXPORT (R240, R241, R244, R256). -/
theorem modelInstructionsRetire : Obligations.ModelInstructionsRetire := by
  unfold Obligations.ModelInstructionsRetire
  intro s s1 s2 s3 t tgt d a b bs e c i v
  refine ⟨fun h => ?msel, fun h => ⟨?_, ?_, ?_, ?_⟩, fun h => ⟨?_, fun hok htr hlt => ⟨?_, ?_⟩⟩, fun h => ⟨?_, ?_⟩⟩
  case msel =>
    intro m own ho hp
    exact ⟨fun hok hb hrd hc hbad hres => h.msel ho hp d a b hok hb hrd hc hbad hres, fun hok => h.msel_refused ho hp d a b hok⟩
  · exact fun hff => exec_mhint_done h a (.inl rfl) (.inl ⟨hff, rfl⟩)
  · intro hok hk
    by_cases hff : c.ga a = 0xFFFF
    · exact exec_mhint_done h a (.inl rfl) (.inl ⟨hff, rfl⟩)
    · exact exec_mhint_done h a (.inl rfl) (.inr ⟨hff, hok, (if_neg hk).symm⟩)
  · exact fun hff hok hk hpre hstop => exec_mhint_done h a (.inr hstop) (.inr ⟨hff, hok, by rw [if_pos hk]; exact hpre.symm⟩)
  · exact fun hff hok => exec_mhint_refused h a hff hok
  · exact exec_mupdate_refused h a b
  · exact exec_mupdate_busy h a b hok htr hlt
  · intro hpe hpo hl
    exact .of (exec_mupdate h a b hok htr hlt hpe hpo hl)
      ⟨State.ctx_setCtx_same .., rfl, _, rfl, rfl, rfl, rfl, bitAt_getLsbD .., rfl⟩
  · exact exec_mexport_refused h a d
  · exact exec_mexport h a d

end Sys2Proof.Machine
end

section
/-! # Snapshots and restores (R327, R338 to R348) -/
namespace Sys2Proof.Machine

/-! ### Events, and what they leave alone -/

theorem State.event_snp (s : State) (log : Nat) (k : EvKind) (loc data : W64) (frec : List Byte) : (s.event log k loc data frec).snp = s.snp := by
  unfold State.event
  dsimp only
  split
  · rfl
  · split <;> rfl

/-! ### Snapshots in progress (R327, R338 to R342) -/

/-- Nothing of a restore waits for a snapshot that goes on, or where there is no restore. -/
theorem State.resumeRestore_none (s : State) (h : s.snp.rest = none) : s.resumeRestore = s := by
  unfold State.resumeRestore
  rw [h]
  split
  · next h => cases h
  · rfl

theorem State.resumeRestore_begun (s : State) {r : RestSt} (h : s.snp.rest = some r) (hw : r.waiting = none) : s.resumeRestore = s := by
  obtain ⟨w, c, m, st⟩ := r
  cases hw
  unfold State.resumeRestore
  rw [h]
  split
  · next h => cases h
  · rfl

theorem State.syncSnap_snp (s : State) : s.syncSnap.snp = s.snp := rfl

theorem State.syncSnap_fld (s : State) {f : Fld} (h1 : fSnap_COPYING.apart f = true) (h2 : fSnap_DRAINING.apart f = true) :
    s.syncSnap.fld f = s.fld f := by
  unfold State.syncSnap
  dsimp only
  rw [State.fld_setFlag_apart _ _ rfl h2, State.fld_setFlag_apart _ _ rfl h1]

theorem State.dirtyBack_eq (gs : List Nat) : ∀ s : State, ∃ d, s.dirtyBack gs = { s with snp := { s.snp with dirty := d } } := by
  induction gs with
  | nil => exact fun s => ⟨s.snp.dirty, rfl⟩
  | cons g gs ih =>
    intro s
    obtain ⟨d, hd⟩ := ih (s.dirtyGran g)
    exact ⟨d, hd.trans rfl⟩

/-- The state of a snapshot that ends with `code`, before the requests that waited are performed. -/
def State.snapEnded (s : State) (j : SnapJob) (code : Nat) : State :=
  ((((s.modSnp fun x => { x with units := [], stalled := [], job := none, copied := [], flying := none, doomed := 0 }).dirtyBack
    j.taken).setFld fSnap_CODE code).syncSnap)

theorem State.snapEnded_leaves (s : State) (j : SnapJob) (code : Nat) (hc : code < 256) :
    (s.snapEnded j code).snp.job = none ∧ (s.snapEnded j code).snp.units = [] ∧ (s.snapEnded j code).snp.copied = [] ∧
    (s.snapEnded j code).fld fSnap_CODE = code := by
  unfold State.snapEnded
  obtain ⟨d, hd⟩ := State.dirtyBack_eq j.taken
    (s.modSnp fun x => { x with units := [], stalled := [], job := none, copied := [], flying := none, doomed := 0 })
  refine ⟨?_, ?_, ?_, ?_⟩
  · rw [State.syncSnap_snp, State.setFld_snp, hd]; rfl
  · rw [State.syncSnap_snp, State.setFld_snp, hd]; rfl
  · rw [State.syncSnap_snp, State.setFld_snp, hd]; rfl
  · rw [State.syncSnap_fld _ (by decide) (by decide), State.fld_setFld_fits _ rfl hc]

/-- The end of a snapshot: what waited is performed, a notice it served stays pending. -/
theorem State.snapEnd_eq (s : State) {j : SnapJob} (hj : s.snp.job = some j) (code : Nat) : s.snapEnd code =
    if j.preempt then (s.snapEnded j code).releaseWaiting.setFlag fSnap_PRE_PEND true else (s.snapEnded j code).releaseWaiting := by
  unfold State.snapEnd
  rw [hj]
  rfl

theorem exec_snapshotCancel {s : State} {ag : Agent} (hag : s.agentUp ag = true) : exec (.snapshotCancel ag) s = .next s.snapCancel := by
  show Host.Outcome.next (s.agentWrite ag 0x00D 0x44 4 2) = _
  rw [State.agentWrite_act .snap 0 hag rfl (by decide) (by decide) rfl (State.setBits_no_rw (by decide +kernel))
    (Wr.clrBits_none (by decide +kernel))]
  have h0 : (wrOf ag 0x00D 0x44 4 2).get fSnap_REQ = some 0 :=
    wrOf_get ag rfl rfl (by decide) (by decide) (by decide)
  have h1 : (wrOf ag 0x00D 0x44 4 2).get fSnap_CANCEL = some 1 :=
    wrOf_get ag rfl rfl (by decide) (by decide) (by decide)
  have h2 : (wrOf ag 0x00D 0x44 4 2).get fSnap_RELEASE = some 0 :=
    wrOf_get ag rfl rfl (by decide) (by decide) (by decide)
  have h3 : (wrOf ag 0x00D 0x44 4 2).get fSnap_RESTORE = some 0 :=
    wrOf_get ag rfl rfl (by decide) (by decide) (by decide)
  have h4 : (wrOf ag 0x00D 0x44 4 2).get fSnap_RSV_GIB = none :=
    wrOf_get_apart ag _ (by decide)
  simp only [State.blockActs, State.onSet_zero h0, State.onSet_one h1, State.onSet_zero h2, State.onSet_zero h3, State.on_none h4]

/-- A unit copied, before what waited on its protection is performed. -/
def State.unitTaken (s : State) (c : CUnit) : State :=
  let s1 := s.modSnp fun x =>
    { x with units := x.units.filter (· ≠ c.unit), stalled := x.stalled.filter fun g => !c.unit.grans.contains g,
             copied := x.copied ++ [c], flying := none }
  (s1.setFld fSnap_SNAP_BYTES (s1.fld fSnap_SNAP_BYTES + 65536)).syncSnap

theorem State.unitTaken_leaves (s : State) (c : CUnit) : (s.unitTaken c).snp.copied = s.snp.copied ++ [c] ∧
    (s.unitTaken c).snp.units = s.snp.units.filter (· ≠ c.unit) ∧
    (s.unitTaken c).fld fSnap_SNAP_BYTES = (s.fld fSnap_SNAP_BYTES + 65536) % 2 ^ 64 := by
  refine ⟨rfl, rfl, ?_⟩
  unfold State.unitTaken
  dsimp only
  rw [State.syncSnap_fld _ (by decide) (by decide), State.fld_setFld_same _ _ rfl]
  rfl

theorem State.wear_snp (s : State) : s.wear.snp = s.snp := by
  unfold State.wear
  dsimp only
  split
  · split
    · exact State.event_snp ..
    · rfl
  · rfl

/-- The shard that a tensor's units make once all of them are copied. -/
def State.fullShard (s : State) (j : SnapJob) (t : TCut) : Shard :=
  let mine := s.snp.copied.filter fun c => c.unit.tensor == t.id
  { t with drained := t.drained ++ mine }.toShard j.gen (Config.unstated s.fresh)

section Snapshot
variable {s : State} {j : SnapJob} (hj : s.snp.job = some j)
include hj

theorem exec_snapshotUnitCopy {x : SUnit} {d : List Byte} {bad : List Nat} {n : Nat} {s1 : State} (ht : j.tier = 1)
    (hf : s.snp.flying = none) (hn : s.snp.nextUnit = some x) (hst : x.lines.any s.lineStalled = false) (hroom : s.reserveRoom x = true)
    (hu : s.unitLines x.lines ([], [], x.index * 65536) = ((d, bad, n), s1)) :
    exec .snapshotUnitCopy s = .next (s1.unitTaken ⟨x, d, bad⟩).releaseWaiting.resumeRestore := by
  have he : exec .snapshotUnitCopy s = execSnapshotUnitCopy s := rfl
  rw [he, execSnapshotUnitCopy]
  simp only [hj, hf, hn, hst, ht, hroom, hu, if_true, Bool.false_eq_true, if_false]
  rfl

theorem exec_shardDrain_full (hr : s.snp.rest = none) {t : TCut} {rest : List TCut} (ht : j.toDrain = t :: rest)
    (hm : (s.snp.units.any fun u => u.tensor == t.id) = false) (hfree : j.written + (s.fullShard j t).sbytes ≤ s.fld fNand_FREE) :
    Completes (.shardDrain false) s fun u =>
      u.snp.copied = s.snp.copied.filter (fun c => c.unit.tensor != t.id) ∧
      u.snp.job = some { j with tensors := j.tensors.map fun y => if y.id = t.id then
        { t with drained := [], shard := some (s.fullShard j t) } else y } := by
  have he : exec (.shardDrain false) s = execShardDrain false s := rfl
  have hrest : ∀ u : State, u.snp.rest = s.snp.rest → u.resumeRestore = u := fun u hu => u.resumeRestore_none (hu.trans hr)
  unfold State.fullShard at *
  rw [Completes, he, execShardDrain]
  simp only [hj, ht, hm, Bool.false_eq_true, and_false, if_false, Bool.not_false, true_and]
  rw [if_neg (Nat.not_lt.2 hfree)]
  refine ⟨_, rfl, ?_⟩
  rw [hrest]
  · rw [State.wear_snp, State.syncSnap_snp]
    exact ⟨rfl, rfl⟩
  · rw [State.wear_snp, State.syncSnap_snp]
    rfl

end Snapshot

/-! ### The commit (R342, R343) -/

theorem State.syncStore_snp (s : State) : s.syncStore.snp = s.snp := rfl
theorem State.syncStore_fld (s : State) {f : Fld} (h : fNand_FREE.apart f = true) : s.syncStore.fld f = s.fld f := by
  unfold State.syncStore
  rw [State.fld_setFld_apart _ _ rfl h]

theorem State.keepGens_frame (s : State) (p : SManifest → Bool) : (s.keepGens p).snp.job = s.snp.job ∧ (s.keepGens p).snp.rest = s.snp.rest ∧
    (s.keepGens p).bnd = s.bnd ∧ ∀ f : Fld, fNand_FREE.apart f = true → (s.keepGens p).fld f = s.fld f :=
  ⟨rfl, rfl, rfl, fun _ h => State.syncStore_fld _ h⟩

/-- A generation that the store holds is agreed. -/
theorem State.agree_leaves (s : State) {g : Nat} {m : SManifest} (hm : s.snp.gens.find? (fun m => m.gen == g) = some m) (hg : g < 2 ^ 64) :
    (s.agree g).fld fSnap_GEN_AGREED = g ∧ (s.agree g).snp.job = s.snp.job ∧ (s.agree g).snp.rest = s.snp.rest ∧ (s.agree g).bnd = s.bnd ∧
    ∀ f : Fld, fNand_FREE.apart f = true → fSnap_GEN_AGREED.apart f = true → (s.agree g).fld f = s.fld f := by
  unfold State.agree
  rw [hm]
  dsimp only
  by_cases he : s.fld fSnap_GEN_AGREED = g
  · rw [if_pos he]
    exact ⟨he, rfl, rfl, rfl, fun _ _ _ => rfl⟩
  · rw [if_neg he]
    have hfld : ∀ (z : State) p (f : Fld), fNand_FREE.apart f = true → (z.keepGens p).fld f = z.fld f := fun z p => (z.keepGens_frame p).2.2.2
    have hmod : ∀ (z : State) F (f : Fld), (z.modSnp F).fld f = z.fld f := fun _ _ _ => rfl
    refine ⟨?_, rfl, rfl, rfl, fun f hf ha => ?_⟩
    · rw [hfld _ _ _ (by decide), hmod, State.fld_setFld_fits _ rfl hg]
    · rw [hfld _ _ _ hf, hmod, State.fld_setFld_apart _ _ rfl ha]

/-- Committed generations: the store with the new manifest, GEN_COMMITTED and CODE. -/
def State.genCommitted (s : State) (j : SnapJob) : State :=
  ((((s.modSnp fun x =>
    { x with gens := x.gens ++ [s.manifest j], job := none, copied := [], stalled := [], unagreed := some (j.gen, j.taken) }).syncStore).setFld
      fSnap_GEN_COMMITTED j.gen).setFld fSnap_CODE 0).syncSnap

/-- What a commit for a preemption adds: its event, the hold at the next boundary, and the message to the manager. -/
def State.preemptNote (s : State) (j : SnapJob) : State :=
  if j.preempt then
    let s4 := s.event logInfo .preemptCommitted (BitVec.ofNat 64 j.gen) j.step []
    let s5 := { s4 with bnd := { s4.bnd with holdDue := s4.flag fSnap_HOLD_AFTER } }
    if s5.fld fSnap_SRC = 3 then s5.answer (.message 0x200 s5.snp.src (natLE 8 j.gen ++ natLE 8 j.step.toNat)) else s5
  else s

theorem State.preemptNote_leaves (s : State) (j : SnapJob) : (s.preemptNote j).snp = s.snp ∧ (s.preemptNote j).regs = s.regs ∧
    (j.preempt = true → (s.preemptNote j).bnd.holdDue = s.flag fSnap_HOLD_AFTER) := by
  unfold State.preemptNote
  by_cases hp : j.preempt = true
  · rw [if_pos hp]
    have hsnp := s.event_snp logInfo .preemptCommitted (BitVec.ofNat 64 j.gen) j.step []
    have hregs := s.event_regs logInfo .preemptCommitted (BitVec.ofNat 64 j.gen) j.step []
    generalize s.event logInfo .preemptCommitted (BitVec.ofNat 64 j.gen) j.step [] = z at *
    have hflag : z.flag fSnap_HOLD_AFTER = s.flag fSnap_HOLD_AFTER := State.flag_congr hregs _
    dsimp only
    split <;> exact ⟨hsnp, hregs, fun _ => hflag⟩
  · rw [if_neg hp]
    exact ⟨rfl, rfl, fun h => absurd h hp⟩

theorem State.genCommitted_leaves (s : State) (j : SnapJob) (hg : j.gen < 2 ^ 64) :
    (s.genCommitted j).snp.gens = s.snp.gens ++ [s.manifest j] ∧ (s.genCommitted j).snp.job = none ∧ (s.genCommitted j).snp.rest = s.snp.rest ∧
    (s.genCommitted j).fld fSnap_GEN_COMMITTED = j.gen ∧ (s.genCommitted j).fld fSnap_CODE = 0 ∧
    ∀ f : Fld, f ∈ [fSnap_SOL_EN, fSnap_GEN_AGREED, fSnap_HOLD_AFTER] → (s.genCommitted j).fld f = s.fld f := by
  obtain ⟨z, hz, hzr, hg1, hj1, hr1⟩ : ∃ z : State, (s.modSnp fun x =>
      { x with gens := x.gens ++ [s.manifest j], job := none, copied := [], stalled := [], unagreed := some (j.gen, j.taken) }) = z ∧
      z.regs = s.regs ∧ z.snp.gens = s.snp.gens ++ [s.manifest j] ∧ z.snp.job = none ∧ z.snp.rest = s.snp.rest := ⟨_, rfl, rfl, rfl, rfl, rfl⟩
  unfold State.genCommitted
  rw [hz]
  have hsnp : (((z.syncStore.setFld fSnap_GEN_COMMITTED j.gen).setFld fSnap_CODE 0).syncSnap).snp = z.snp := by
    rw [State.syncSnap_snp, State.setFld_snp, State.setFld_snp, State.syncStore_snp]
  rw [hsnp]
  refine ⟨hg1, hj1, hr1, ?_, ?_, fun f hf => ?_⟩
  · rw [State.syncSnap_fld _ (by decide) (by decide), State.fld_setFld_apart _ _ rfl (by decide), State.fld_setFld_fits _ rfl hg]
  · rw [State.syncSnap_fld _ (by decide) (by decide), State.fld_setFld_fits _ rfl (by decide)]
  · have ha : ∀ f ∈ [fSnap_SOL_EN, fSnap_GEN_AGREED, fSnap_HOLD_AFTER], fSnap_COPYING.apart f = true ∧ fSnap_DRAINING.apart f = true ∧
        fSnap_CODE.apart f = true ∧ fSnap_GEN_COMMITTED.apart f = true ∧ fNand_FREE.apart f = true := by decide
    obtain ⟨h1, h2, h3, h4, h5⟩ := ha f hf
    rw [State.syncSnap_fld _ h1 h2, State.fld_setFld_apart _ _ rfl h3, State.fld_setFld_apart _ _ rfl h4, State.syncStore_fld _ h5,
      State.fld_congr hzr]

section Commit
variable {s : State} {j : SnapJob} (hj : s.snp.job = some j) (hr : s.snp.rest = none)
include hj hr

theorem exec_snapshotCommit_waits (hu : s.snp.units ≠ []) :
    exec .snapshotCommit s = .next (if s.snp.doomed ≠ 0 then (s.snapEnd s.snp.doomed).resumeRestore else s) := by
  have he : exec .snapshotCommit s = execSnapshotCommit s := rfl
  have hne : s.snp.units.isEmpty = false := by simpa using hu
  rw [he, execSnapshotCommit]
  simp only [hj, hne, Bool.not_false, true_or, if_true]
  by_cases hd : s.snp.doomed ≠ 0
  · rw [if_pos hd, if_pos hd]
  · rw [if_neg hd, if_neg hd, s.resumeRestore_none hr]

omit hr in
theorem exec_snapshotCommit_eq (hd : s.snp.doomed = 0) (hu : s.snp.units = []) (hf : s.snp.flying = none) (ht : j.toDrain = []) :
    exec .snapshotCommit s = .next (if ((s.genCommitted j).preemptNote j).flag fSnap_SOL_EN then (s.genCommitted j).preemptNote j
      else ((s.genCommitted j).preemptNote j).agree j.gen).resumeRestore := by
  have he : exec .snapshotCommit s = execSnapshotCommit s := rfl
  rw [he, execSnapshotCommit]
  simp only [hj, hd, hu, hf, ht, ne_eq, not_true_eq_false, if_false, List.isEmpty_nil, Bool.not_true, Option.isSome_none,
    Bool.false_eq_true, or_self]
  rfl

theorem snapshotCommit_completes (hd : s.snp.doomed = 0) (hu : s.snp.units = []) (hf : s.snp.flying = none) (ht : j.toDrain = [])
    (hg : j.gen < 2 ^ 64) : Completes .snapshotCommit s fun u =>
      u.snp.job = none ∧ u.fld fSnap_GEN_COMMITTED = j.gen ∧ u.fld fSnap_CODE = 0 ∧
      (s.flag fSnap_SOL_EN = true → u.snp.gens = s.snp.gens ++ [s.manifest j] ∧ u.fld fSnap_GEN_AGREED = s.fld fSnap_GEN_AGREED) ∧
      (s.flag fSnap_SOL_EN = false → u.fld fSnap_GEN_AGREED = j.gen) ∧
      (j.preempt = true → u.bnd.holdDue = s.flag fSnap_HOLD_AFTER) := by
  have hx := exec_snapshotCommit_eq hj hd hu hf ht
  obtain ⟨hgens, hjob, hrest, hcom, hcode, hflds⟩ := s.genCommitted_leaves j hg
  obtain ⟨hsnp, hregs, hhold⟩ := (s.genCommitted j).preemptNote_leaves j
  have hhold' : (s.genCommitted j).flag fSnap_HOLD_AFTER = s.flag fSnap_HOLD_AFTER := by
    rw [State.flag, hflds _ (by simp), State.flag]
  generalize s.genCommitted j = z at *
  generalize z.preemptNote j = y at *
  have hsol : y.flag fSnap_SOL_EN = s.flag fSnap_SOL_EN := by
    rw [State.flag_congr hregs, State.flag, hflds _ (by simp), State.flag]
  rw [hsol] at hx
  cases hse : s.flag fSnap_SOL_EN
  case true =>
    rw [hse, if_pos rfl, y.resumeRestore_none (by rw [hsnp, hrest, hr])] at hx
    refine .of hx ⟨by rw [hsnp, hjob], by rw [State.fld_congr hregs, hcom], by rw [State.fld_congr hregs, hcode],
      fun _ => ⟨by rw [hsnp, hgens], by rw [State.fld_congr hregs, hflds _ (by simp)]⟩, fun h => by simp at h, fun hp => ?_⟩
    rw [hhold hp, hhold']
  case false =>
    have hmem : s.manifest j ∈ y.snp.gens := by
      rw [hsnp, hgens]
      simp
    have hgen : (s.manifest j).gen = j.gen := rfl
    obtain ⟨m, hm⟩ : ∃ m, y.snp.gens.find? (fun m => m.gen == j.gen) = some m := by
      refine Option.isSome_iff_exists.1 (List.find?_isSome.2 ⟨_, hmem, ?_⟩)
      rw [hgen]
      exact beq_self_eq_true _
    obtain ⟨ha, haj, har, hab, haf⟩ := y.agree_leaves hm hg
    rw [hse, if_neg Bool.false_ne_true, State.resumeRestore_none _ (by rw [har, hsnp, hrest, hr])] at hx
    refine .of hx ⟨by rw [haj, hsnp, hjob], by rw [haf _ (by decide) (by decide), State.fld_congr hregs, hcom],
      by rw [haf _ (by decide) (by decide), State.fld_congr hregs, hcode], fun h => by simp at h, fun _ => ha, fun hp => ?_⟩
    rw [hab, hhold hp, hhold']

omit hr in
theorem exec_stallLimit_ends (hst : s.snp.stalled ≠ []) :
    exec .stallLimit s = .next (((((if j.preempt then (s.snapEnded j 0x10).releaseWaiting.setFlag fSnap_PRE_PEND true
      else (s.snapEnded j 0x10).releaseWaiting).event logInfo .snapAbandoned (BitVec.ofNat 64 j.gen) 0x10 []).inc fSnap_ABANDONS)).resumeRestore) := by
  have he : exec .stallLimit s = execStallLimit s := rfl
  have hne : s.snp.stalled.isEmpty = false := by simpa using hst
  rw [he, execStallLimit, if_pos (by simp [hj, hst]), State.snapFail, hj]
  dsimp only
  rw [s.snapEnd_eq hj]
  rfl

end Commit

/-! ### Restores (R346 to R348) -/

theorem State.restoreEnd_leaves (s : State) (code : Nat) :
    (s.restoreEnd code).fld fSnap_RCODE = code % 256 ∧ (s.restoreEnd code).flag fSnap_RESTORING = false ∧ (s.restoreEnd code).snp.rest = none ∧
    (s.restoreEnd code).snp.blocked = decide (code ≠ 0) ∧ (s.restoreEnd code).bnd = s.bnd ∧
    ∀ f : Fld, fSnap_RCODE.apart f = true → fSnap_RESTORING.apart f = true → (s.restoreEnd code).fld f = s.fld f := by
  have hmod : ∀ (z : State) F (f : Fld), (z.modSnp F).fld f = z.fld f := fun _ _ _ => rfl
  have hbnd : ∀ (z : State) F, (z.modSnp F).bnd = z.bnd := fun _ _ => rfl
  unfold State.restoreEnd
  refine ⟨?_, ?_, rfl, rfl, by rw [hbnd, State.setFlag_bnd, State.setFld_bnd], fun f h1 h2 => ?_⟩
  · rw [hmod, State.fld_setFlag_apart _ _ rfl (by decide), State.fld_setFld_same _ _ rfl]
    rfl
  · have hflag : ∀ (z : State) F (f : Fld), (z.modSnp F).flag f = z.flag f := fun _ _ _ => rfl
    rw [hflag, State.flag_setFlag_same _ false (f := fSnap_RESTORING) rfl rfl]
  · rw [hmod, State.fld_setFlag_apart _ _ rfl h2, State.fld_setFld_apart _ _ rfl h1]

section RestoreWrite
variable {s : State} {ag : Agent} (hag : s.agentUp ag = true) (err : Option Nat) (a b c d : W64)
include hag

theorem exec_restore : exec (.restore ag err a b c d) s = .next (s.restoreWrite err (a, b, c, d)) :=
  congrArg Host.Outcome.next (if_pos hag)

theorem exec_restore_refused (h : s.jobRuns = false ∨ s.jobActive = true) :
    exec (.restore ag err a b c d) s = .next (s.setFld fSnap_RCODE 1) := by
  rw [exec_restore hag, State.restoreWrite, if_pos (by simpa using h)]

variable (hj : s.jobRuns = true) (hact : s.jobActive = false) (hr : s.snp.rest = none)
include hj hact hr

/-- RESTORE written where it may start: RESTORING is set, and it waits for a snapshot in progress. -/
theorem exec_restore_starts : exec (.restore ag err a b c d) s = .next (
    if s.snp.job.isSome then (s.setFlag fSnap_RESTORING true).modSnp fun x =>
      { x with rest := some { waiting := some (err, (a, b, c, d)), code := 0, man := none, stage := .shards } }
    else (s.setFlag fSnap_RESTORING true).restoreStart err [a, b, c, d]) := by
  rw [exec_restore hag, State.restoreWrite, if_neg (by simp [hj, hact]), if_neg (by rw [hr]; decide)]
  rfl

theorem exec_restore_waits (hsnap : s.snp.job ≠ none) : Completes (.restore ag err a b c d) s fun u =>
    u.flag fSnap_RESTORING = true ∧ u.snp.job = s.snp.job ∧
    u.snp.rest = some { waiting := some (err, (a, b, c, d)), code := 0, man := none, stage := .shards } := by
  have hx := exec_restore_starts hag err a b c d hj hact hr
  rw [if_pos (Option.isSome_iff_ne_none.2 hsnap)] at hx
  exact .of hx ⟨State.flag_setFlag_same s true (f := fSnap_RESTORING) rfl rfl, rfl, rfl⟩

section Alone
variable (hnone : s.snp.job = none) (hsol : s.flag fSnap_SOL_EN = false) (hag' : s.fld fSnap_GEN_AGREED = s.fld fSnap_GEN_COMMITTED)
include hnone hsol hag'

/-- Without SOL_EN a restore takes the package's own values, which are agreed as they stand. -/
theorem exec_restore_alone : exec (.restore ag err a b c d) s = .next (
    match s.restoreGen (s.fld fSnap_RESTORE_GEN) with
    | none => (s.setFlag fSnap_RESTORING true).restoreEnd 3
    | some m => (s.setFlag fSnap_RESTORING true).restoreRun m) := by
  obtain ⟨z, hz, hzs, hzf⟩ : ∃ z : State, s.setFlag fSnap_RESTORING true = z ∧ z.snp = s.snp ∧
      ∀ f ∈ [fSnap_SOL_EN, fSnap_GEN_AGREED, fSnap_GEN_COMMITTED, fSnap_RESTORE_GEN], z.fld f = s.fld f := by
    refine ⟨_, rfl, rfl, fun f hf => State.fld_setFlag_apart _ _ rfl ?_⟩
    revert f
    decide
  have hzg : z.restoreGen (s.fld fSnap_RESTORE_GEN) = s.restoreGen (s.fld fSnap_RESTORE_GEN) := by
    unfold State.restoreGen
    rw [hzf _ (by simp), hzs]
  have hagree : z.agreement (s.fld fSnap_GEN_COMMITTED) (s.fld fSnap_GEN_COMMITTED) = z := by
    unfold State.agreement
    split
    · rfl
    · rw [if_pos rfl]
      unfold State.agree
      split
      · rfl
      · rw [if_pos (by rw [hzf _ (by simp), hag'])]
  have hx := exec_restore_starts hag err a b c d hj hact hr
  rw [hnone, hz] at hx
  rw [hx, hz, if_neg (by decide), State.restoreStart]
  rw [State.flag, hzf fSnap_SOL_EN (by simp), ← State.flag, hsol, if_neg Bool.false_ne_true, hzf fSnap_GEN_COMMITTED (by simp),
    hzf fSnap_RESTORE_GEN (by simp), State.restoreAgreed]
  rewrite [hagree, if_neg (by simp), hzg]
  rfl

theorem exec_restore_noGen (hg : s.restoreGen (s.fld fSnap_RESTORE_GEN) = none) : Completes (.restore ag err a b c d) s fun u =>
    u.fld fSnap_RCODE = 3 ∧ u.flag fSnap_RESTORING = false ∧ u.snp.blocked = true := by
  have hx := exec_restore_alone hag err a b c d hj hact hr hnone hsol hag'
  rw [hg] at hx
  obtain ⟨h1, h2, -, h4, -⟩ := (s.setFlag fSnap_RESTORING true).restoreEnd_leaves 3
  exact .of hx ⟨h1, h2, h4⟩

end Alone
end RestoreWrite

/-- The end of threads leaves the boundary's phase. -/
theorem State.endThreads_phase (s : State) : s.endThreads.bnd = s.bnd := by
  have hrel : ∀ (z : State) (t : Tid), (z.releaseEngines t).bnd = z.bnd := by
    intro z t
    have hdrop : ∀ (y : State) u, (y.dropGot u).bnd = y.bnd := by
      intro y u
      unfold State.dropGot
      split <;> rfl
    unfold State.releaseEngines
    split
    · have h1 : (((z.setMat t.groveOf (z.mat t.groveOf).released).dropGot (.opnd t 0)).dropGot (.opnd t 1)).bnd = z.bnd := by
        rw [hdrop, hdrop]
        rfl
      dsimp only
      split
      · split <;> exact h1
      · split <;> rfl
    · rfl
  unfold State.endThreads
  dsimp only
  have hf : ∀ (l : List (Nat × Ctx)) (z : State), (l.foldl (fun t e => match Tid.ofHandle e.1 with
      | some x => (t.releaseEngines x).freeCtx x
      | none => t) z).bnd = z.bnd := by
    intro l
    induction l with
    | nil => exact fun _ => rfl
    | cons e l ih =>
      intro z
      rw [List.foldl_cons, ih]
      split
      · exact (show ((z.releaseEngines _).freeCtx _).bnd = (z.releaseEngines _).bnd from rfl).trans (hrel ..)
      · rfl
  exact hf _ _

/-- A manifest that fails a check: the restore goes on to its barrier with the check's code. -/
theorem State.restoreRun_fails (s : State) {m : SManifest} {code : Nat} {gs : List (List GranAt)} {s2 : State} (hph : s.bnd.phase ≠ .stopped)
    (hc : (s.endThreads.toPhase .none).restoreCheck m = (.ok (code, gs), s2)) (h0 : code ≠ 0) (hsol : s2.flag fSnap_SOL_EN = false) :
    (s.restoreRun m).snp.rest = some { waiting := none, code := code, man := some m, stage := .barrier } ∧ (s.restoreRun m).dram = s2.dram := by
  have hrun : s.restoreRun m = s2.restoreAt m code .barrier := by
    unfold State.restoreRun
    dsimp only
    rw [if_neg (by rw [State.endThreads_phase]; exact hph), hc]
    dsimp only
    rw [if_pos h0]
    dsimp only
    rw [if_neg h0, List.foldl_nil, State.restoreBarrier, if_neg (by rw [hsol]; decide)]
  rw [hrun]
  exact ⟨rfl, rfl⟩

/-- The successful end of a restore, before what waited is performed. -/
def State.restored (s : State) (m : SManifest) : State :=
  (((s.setFld fPkg_STEP m.step.toNat).setFlag fEqx_STOPPED false).toPhase .none).restoreEnd 0

theorem State.restored_leaves (s : State) (m : SManifest) : (s.restored m).fld fPkg_STEP = m.step.toNat ∧
    (s.restored m).flag fEqx_STOPPED = false ∧ (s.restored m).bnd.phase = .none ∧ (s.restored m).fld fSnap_RCODE = 0 ∧
    (s.restored m).flag fSnap_RESTORING = false ∧ (s.restored m).snp.rest = none ∧ (s.restored m).snp.blocked = false := by
  obtain ⟨z, hz, hzf, hzb⟩ : ∃ z : State, ((s.setFld fPkg_STEP m.step.toNat).setFlag fEqx_STOPPED false).toPhase .none = z ∧
      z.regs = ((s.setFld fPkg_STEP m.step.toNat).setFlag fEqx_STOPPED false).regs ∧ z.bnd.phase = .none := ⟨_, rfl, rfl, rfl⟩
  unfold State.restored
  rw [hz]
  obtain ⟨h1, h2, h3, h4, h5, h6⟩ := z.restoreEnd_leaves 0
  refine ⟨?_, ?_, by rw [h5, hzb], h1, h2, h3, h4⟩
  · rw [h6 _ (by decide) (by decide), State.fld_congr hzf, State.fld_setFlag_apart _ _ rfl (by decide), State.fld_setFld_fits _ rfl m.step.isLt]
  · rw [State.flag, h6 _ (by decide) (by decide), ← State.flag, State.flag_congr hzf]
    exact State.flag_setFlag_same _ false (f := fEqx_STOPPED) rfl rfl

theorem State.restoreFinish_done (s : State) (m : SManifest) {own : Nat} {peer : Bool} (h : own = 0) (hp : peer = false) :
    s.restoreFinish m own peer = (s.restored m).releaseWaiting := by
  subst h hp
  rfl

theorem State.restoreFinish_fails (s : State) (m : SManifest) (own : Nat) (peer : Bool)
    (h : (if own ≠ 0 then own else if peer then 0x0C else 0) ≠ 0) :
    s.restoreFinish m own peer = (s.spoilTensors m.tensors).restoreEnd (if own ≠ 0 then own else if peer then 0x0C else 0) := by
  unfold State.restoreFinish
  dsimp only
  rw [if_neg h]

/-- Without a result of the tree a barrier's flag is the command's. -/
theorem State.barrierFailed_none (s : State) (h : s.bnd.result = none) (peer : Bool) : s.barrierFailed peer = peer := by
  unfold State.barrierFailed State.hzResult
  rw [h]
  cases peer <;> rfl

/-! ### The end of a restore -/

/-- Step 7 without SOL_EN. -/
theorem State.restoreLast_alone (s : State) (m : SManifest) (code : Nat) (h : s.flag fSnap_SOL_EN = false) :
    s.restoreLast m code = s.restoreFinish m code false := by
  rw [State.restoreLast, h]
  exact if_pos rfl

theorem State.restoreReplicas_none (s : State) (m : SManifest) (code : Nat) (digests : List (W64 × List Byte)) (h : s.flag fSnap_SOL_EN = false) :
    s.restoreReplicas m code digests [] = s.restoreFinish m code false := by
  have hput : s.putReplicas digests m.tensors [] = ((0, []), s) := rfl
  unfold State.restoreReplicas
  by_cases hc : code ≠ 0
  · rw [if_pos hc, s.restoreLast_alone m code h]
  · rw [if_neg hc, hput, not_ne_iff.1 hc]
    exact s.restoreLast_alone m 0 h

section Complete
variable {s : State} {r : RestSt} {m : SManifest} (peers : Option (List (W64 × List Byte))) (hr : s.snp.rest = some r) (hm : r.man = some m)
  (hw : r.waiting = none)
include hr hm hw

/-- The last barrier of a restore that goes on, or the only one of a package by itself without replicas: the restore is over. -/
theorem exec_restoreComplete (hst : (r.stage = .last ∧ s.bnd.result = none) ∨
    (r.stage = .barrier ∧ s.flag fSnap_SOL_EN = false ∧ m.tensors.any RTensor.replica = false)) :
    ∃ z : State, exec (.restoreComplete peers) s = .next (z.restoreFinish m r.code (decide (r.stage = .last ∧ peers = none))) := by
  have he : exec (.restoreComplete peers) s = execRestoreComplete peers s := rfl
  have hres := s.resumeRestore_begun hr hw
  obtain ⟨w, code, man, stage⟩ := r
  cases hm
  cases hw
  rw [he, execRestoreComplete]
  dsimp only
  rw [hres, hr]
  rcases hst with ⟨hl, hb⟩ | ⟨hl, hsol, hrep⟩
  · cases hl
    refine ⟨s.hzTaken (s.fld fSnap_SOL_GROUP) none, ?_⟩
    dsimp only
    rw [s.barrierFailed_none hb]
    congr 2
    cases peers <;> rfl
  · cases hl
    have hids : (m.tensors.filter RTensor.replica).map (·.id) = [] := by
      rw [List.filter_eq_nil_iff.2 (by simpa using hrep)]
      rfl
    refine ⟨s, ?_⟩
    simp only [hsol, hids, Bool.false_and, Bool.false_eq_true, if_false]
    rw [s.restoreReplicas_none m code _ hsol]
    simp

end Complete

theorem exec_shardDigestRequest {s : State} (req : Nat) (tensor : W64) (hr : s.snp.rest = none) :
    exec (.shardDigestRequest req tensor) s = .next (s.answer (.message 0x600 req (match s.snp.gens.getLast? with
      | some m => ((m.shards.find? fun x => x.id == tensor.toNat && x.kind == 0).map fun x => x.digest).getD []
      | none => []))) := by
  have he : exec (.shardDigestRequest req tensor) s = execShardDigestRequest req tensor s := rfl
  rewrite [he, execShardDigestRequest]
  rewrite [hr]
  rfl

/-- Settles O35: snapshots copy, drain, commit and end (R327, R338 to R342), restores start and end (R346 to R348). -/
theorem snapshotsCommitAndRestoresSucceed : Obligations.SnapshotsCommitAndRestoresSucceed := by
  unfold Obligations.SnapshotsCommitAndRestoresSucceed
  refine ⟨fun s j hj hr => ?snapshot, fun s ag err a b c d => ?restore⟩
  case snapshot =>
    intro ended pend
    have hended : ∀ code, code < 256 → ended (s.snapEnded j code) code := fun code hc => s.snapEnded_leaves j code hc
    refine ⟨fun x d bad n s1 ht hf hn hst hroom hu => ?_, fun t rest ht hm => ?_, fun hd hu hf ht _ hg => ?_, fun hu => ⟨?_, fun hst => ?_⟩,
      fun ag hag => ?_⟩
    · exact ⟨_, exec_snapshotUnitCopy hj ht hf hn hst hroom hu, s1.unitTaken_leaves _⟩
    · intro mine sh hfree
      obtain ⟨u, hu, hc, hjob⟩ := exec_shardDrain_full hj hr ht hm hfree
      exact ⟨u, hu, hc, rfl, hjob⟩
    · exact snapshotCommit_completes hj hr hd hu hf ht hg
    · exact exec_snapshotCommit_waits hj hr hu
    · exact ⟨_, hended 0x10 (by decide), exec_stallLimit_ends hj hst⟩
    · refine ⟨_, hended 0x17 (by decide), ?_⟩
      rw [exec_snapshotCancel hag, State.snapCancel, s.snapEnd_eq hj]
  case restore =>
    refine ⟨fun hag h => exec_restore_refused hag err a b c d h, fun hag hj hact hr => ⟨fun hsnap => ?_, fun hnone hsol hagr => ⟨fun hg => ?_, ?_⟩⟩,
      fun r m peers hr hm hw hst => ?_, fun req tensor hr => ?_⟩
    · exact exec_restore_waits hag err a b c d hj hact hr hsnap
    · exact exec_restore_noGen hag err a b c d hj hact hr hnone hsol hagr hg
    · intro m code gs s2 hg hph hc h0 hsol2
      have hx := exec_restore_alone hag err a b c d hj hact hr hnone hsol hagr
      rw [hg] at hx
      exact ⟨_, hx, State.restoreRun_fails (s.setFlag fSnap_RESTORING true) hph hc h0 hsol2⟩
    · obtain ⟨z, hz⟩ := exec_restoreComplete peers hr hm hw hst
      have hcode : (if r.code ≠ 0 then r.code else if r.stage = .last ∧ peers = none then 0x0C else 0) =
          if r.code ≠ 0 then r.code else if (decide (r.stage = .last ∧ peers = none)) = true then 0x0C else 0 := by simp
      refine ⟨fun h => ?_, fun h => ?_⟩
      · have h0 : r.code = 0 := by
          by_contra hne
          rw [if_pos hne] at h
          exact hne h
        have hp : decide (r.stage = .last ∧ peers = none) = false := by
          rw [decide_eq_false_iff_not]
          intro hp
          rw [if_neg (by simp [h0]), if_pos hp] at h
          cases h
        rw [z.restoreFinish_done m h0 hp] at hz
        exact ⟨_, hz, z.restored_leaves m⟩
      · rw [hcode] at h ⊢
        rw [z.restoreFinish_fails m _ _ h] at hz
        obtain ⟨h1, h2, h3, h4, -⟩ := (z.spoilTensors m.tensors).restoreEnd_leaves
          (if r.code ≠ 0 then r.code else if decide (r.stage = .last ∧ peers = none) then 0x0C else 0)
        exact .of hz ⟨h1, h2, h3, h4.trans (decide_eq_true h)⟩
    · refine ⟨_, exec_shardDigestRequest req tensor hr, fun hg => by rw [hg]; rfl, fun m x hg hx => ?_⟩
      rw [hg]
      dsimp only
      rw [hx]
      rfl

end Sys2Proof.Machine
end

section
/-! # The solver engine: its ring, its jobs and their systems -/
namespace Sys2Proof.Machine
/-! ### A solver engine's record and the registers -/

theorem State.solv_modSolv_same (s : State) (q : Nat) (f : Solv → Solv) : (s.modSolv q f).solv q = f (s.solv q) :=
  tabGet_set_same solvDefault s.eng.solv q (f (s.solv q))

theorem State.modSolv_frame (s : State) (q : Nat) (f : Solv → Solv) : (s.modSolv q f).regs = s.regs ∧ (s.modSolv q f).dram = s.dram :=
  ⟨rfl, rfl⟩

theorem State.fld_modSolv (s : State) (q : Nat) (f : Solv → Solv) (g : Fld) : (s.modSolv q f).fld g = s.fld g := rfl

theorem State.solv_setFlag (s : State) (f : Fld) (b : Bool) (q : Nat) : (s.setFlag f b).solv q = s.solv q := rfl

theorem State.solv_inc (s : State) (f : Fld) (q : Nat) : (s.inc f).solv q = s.solv q := rfl

theorem fSolv_EN_ok (q : Fin 64) : (fSolv_EN q).ok = true := by simp [fSolv_EN, Fld.ok, Fld.sh, Fld.w]

theorem fSolv_ACTIVE_ok (q : Fin 64) : (fSolv_ACTIVE q).ok = true := by simp [fSolv_ACTIVE, Fld.ok, Fld.sh, Fld.w]

/-- Fields of two registers of one page, eight bytes apart, have no bit in common. -/
theorem Fld.apart_of_off {f g : Fld} (h : f.off / 8 ≠ g.off / 8) (hp : f.page = g.page) : f.apart g = true := by
  have hk : f.key ≠ g.key := by
    simp only [Fld.key, hp]
    omega
  simp [Fld.apart, hk]

theorem solvPage_blk (q : Fin 64) : pageBlk (solvPage q) = some (.solv, q.val) := by
  revert q
  decide

theorem cellMask_solv_clr (q : Fin 64) : cellMask (solvPage q) 9 (fun f => f.acc == .w1c) = 0 := by
  revert q
  decide +kernel

/-- Of the register of EN and LOG2N a plain write sets LOG2N alone. -/
theorem cellMask_solv_set (q : Fin 64) (l : Bool) :
    (BitVec.ofNat 64 (cellMask (solvPage q) 9 (plainAcc l) &&& wrMask 0x48 4) &&&
      ~~~BitVec.ofNat 64 (fldMask (solvPage q * 512 + 9) [fSolv_EN q])) &&& 15 =
    BitVec.ofNat 64 (cellMask (solvPage q) 9 (plainAcc l) &&& wrMask 0x48 4) &&&
      ~~~BitVec.ofNat 64 (fldMask (solvPage q * 512 + 9) [fSolv_EN q]) := by
  revert q l
  decide +kernel

/-! ### The ring of a solver engine (R213, R235) -/

/-- Setting EN is the enable and nothing else. -/
theorem exec_solverRingEnable_acts {s : State} (hwf : s.memWf = true) {ag : Agent} (q : Fin 64) (hag : s.agentUp ag = true)
    (hen : s.flag (fSolv_EN q) = false) :
    exec (.solverRingEnable ag q) s = .next ((s.setFlag (fSolv_EN q) true).solvEnable q) := by
  have hex : exec (.solverRingEnable ag q) s = .next (s.agentWrite ag (solvPage q) 0x48 4 (2 ^ 31 + s.fld (fSolv_LOG2N q))) := rfl
  have hplain : s.plainWrite .solv q.val (wrOf ag (solvPage q) 0x48 4 (2 ^ 31 + s.fld (fSolv_LOG2N q))) = s := by
    refine State.plainWrite_ringEn hwf [fSolv_EN q] ?_ rfl (cellMask_solv_clr q) (cellMask_solv_set q)
    simp [State.heldFields, headFlds, hen]
  have hget : (wrOf ag (solvPage q) 0x48 4 (2 ^ 31 + s.fld (fSolv_LOG2N q))).get (fSolv_EN q) = some 1 :=
    wrOf_get_en ag (s.fld_lt (fSolv_LOG2N q))
  rw [hex, State.agentWrite_eq _ hag rfl (by decide), s.regWrite_eq ag 0x48 4 _ (solvPage_blk q), hplain,
    State.headActs_body _ _ _ (by simp [wrOf]), State.blockActs, State.on_some hget, State.ringEn, if_pos ⟨rfl, by simp [hen]⟩]

theorem State.ringRead_ok {s s1 : State} {va n : Nat} {b : List Byte} (h : s.vread unitAgt va n = (.ok b, s1)) :
    s.ringRead va n = (some b, false, s1) := by
  rw [State.ringRead, h]

/-- A PROD read that lies in the ring is taken. -/
theorem State.solvReadProd_takes {s s1 : State} {q : Nat} {b : List Byte} (h : s.vread unitAgt (s.solvHead q) 4 = (.ok b, s1))
    (hle : (leNat b + 2 ^ 32 - s1.fld (fSolv_JR_CONS q)) % 2 ^ 32 ≤ s1.solvLen q) :
    s.solvReadProd q = s1.modSolv q fun x => { x with prod := leNat b, due := { x.due with head := 0 } } := by
  rw [State.solvReadProd, State.ringRead_ok h]
  exact if_neg (Nat.not_lt.2 hle)

/-- A PROD read beyond the ring's length is a ring error. -/
theorem State.solvReadProd_errs {s s1 : State} {q : Nat} {b : List Byte} (h : s.vread unitAgt (s.solvHead q) 4 = (.ok b, s1))
    (hlt : s1.solvLen q < (leNat b + 2 ^ 32 - s1.fld (fSolv_JR_CONS q)) % 2 ^ 32) : s.solvReadProd q = s1.solvRingErr q := by
  rw [State.solvReadProd, State.ringRead_ok h]
  exact if_pos hlt

/-- An engine without a job that owes no CONS takes CONS from the head, then reads PROD. -/
theorem State.solvEnable_reads {s s1 : State} {q : Nat} {b : List Byte} (h : s.vread unitAgt (s.solvHead q + 8) 4 = (.ok b, s1))
    (hj : (s1.solv q).job = none) (hc : (s1.solv q).due.cons = false) :
    s.solvEnable q = (((s1.setFld (fSolv_JR_CONS q) (leNat b)).modSolv q fun x => { x with prod := leNat b, next := leNat b }).modSolv q
      fun x => { x with due := { x.due with head := 0 } }).solvReadProd q := by
  rw [State.solvEnable, State.ringRead_ok h]
  exact congrArg (fun t : State => (t.modSolv q fun x => { x with due := { x.due with head := 0 } }).solvReadProd q)
    (if_pos ⟨by rw [hj]; rfl, by rw [hc]; rfl⟩)

theorem State.solvHead_setEn (s : State) (q : Fin 64) : (s.setFlag (fSolv_EN q) true).solvHead q = s.solvHead q := by
  have ha : (fSolv_EN q).apart (fSolv_JR_BASE q) = true := Fld.apart_of_off (by simp [fSolv_EN, fSolv_JR_BASE]) rfl
  rw [State.solvHead, State.fld_setFlag_apart _ _ (fSolv_EN_ok q) ha, State.solvHead]

theorem State.solvRingErr_flags (s : State) (q : Fin 64) : (s.solvRingErr q).flag (fSolv_EN q) = false ∧
    (s.solvRingErr q).flag (fErr_RING (solvPage q)) = true ∧ (s.solvRingErr q).solv q = s.solv q := by
  have hR : (fErr_RING (solvPage q)).ok = true := by simp [fErr_RING, Fld.ok, Fld.sh, Fld.w]
  have ha : (fErr_RING (solvPage q)).apart (fSolv_EN q) = true := Fld.apart_of_off (by simp [fErr_RING, fSolv_EN]) rfl
  refine ⟨?_, State.flag_setFlag_same _ _ hR (by simp [fErr_RING, Fld.w]), rfl⟩
  rw [State.solvRingErr, State.ringError, State.flag_setFlag_apart _ _ hR ha,
    State.flag_setFlag_same _ _ (fSolv_EN_ok q) (by simp [fSolv_EN, Fld.w])]

section Ring
variable {s s1 s2 s3 : State} {q : Fin 64} {b b' d : List Byte}

theorem solverRingEnable_completes (hwf : s.memWf = true) {ag : Agent} (hag : s.agentUp ag = true) (hen : s.flag (fSolv_EN q) = false)
    (h : (s.setFlag (fSolv_EN q) true).vread unitAgt (s.solvHead q + 8) 4 = (.ok b, s1)) (hj : (s1.solv q).job = none)
    (hc : (s1.solv q).due.cons = false) {t : State}
    (ht : t = ((s1.setFld (fSolv_JR_CONS q) (leNat b)).modSolv q fun x => { x with prod := leNat b, next := leNat b }).modSolv q
      fun x => { x with due := { x.due with head := 0 } })
    (h' : t.vread unitAgt (t.solvHead q) 4 = (.ok b', s2))
    (hle : (leNat b' + 2 ^ 32 - s2.fld (fSolv_JR_CONS q)) % 2 ^ 32 ≤ s2.solvLen q) :
    Completes (.solverRingEnable ag q) s fun u =>
      u.solv q = { s2.solv q with prod := leNat b', due := { (s2.solv q).due with head := 0 } } ∧ u.regs = s2.regs := by
  rw [← State.solvHead_setEn] at h
  refine Completes.of ((exec_solverRingEnable_acts hwf q hag hen).trans
    (congrArg _ ((State.solvEnable_reads h hj hc).trans ?_))) ⟨State.solv_modSolv_same s2 q fun x => { x with prod := leNat b', due := { x.due with head := 0 } }, rfl⟩
  rw [← ht]
  exact State.solvReadProd_takes h' hle

theorem exec_solverRingProd (hen : s.flag (fSolv_EN q) = true) (hs : s.flag fSafe_SAFE = false) (hg : s.flag (fGated (solvPage q)) = false)
    (hh : (s.solv q).due.head ≠ 2) : exec (.solverRingProd q) s = .next (s.solvReadProd q) := by
  have he : exec (.solverRingProd q) s = execSolverRingProd q s := rfl
  have hw : s.wakeUnit (solvPage q) = s := if_neg (by simp [hg])
  rw [he, execSolverRingProd, if_pos ⟨hen, by simp [hs]⟩, hw, if_neg hh]

/-! ### The next job (R214 to R216) -/

variable (hs : s.flag fSafe_SAFE = false) (hen : s.flag (fSolv_EN q) = true) (hg : s.flag (fGated (solvPage q)) = false)
  (hj : (s.solv q).job = none) (hn : (s.solv q).next ≠ (s.solv q).prod)
include hs hen hg hj hn

theorem exec_solverJobStart_held (he : (s.solv q).next = s.ringEnd (s.solv q).prod (s.solv q).due) :
    exec (.solverJobStart q) s = .next (s.setFlag (fSolv_HELD q) true) := by
  have hx : exec (.solverJobStart q) s = execSolverJobStart q s := rfl
  rw [hx, execSolverJobStart, if_neg (by simp [hs, hen, hj, hn]), if_neg (by simp [hg]), if_pos he]

theorem exec_solverJobStart_takes (he : (s.solv q).next ≠ s.ringEnd (s.solv q).prod (s.solv q).due)
    (hr : s.vread unitAgt (s.solvEntry q) 0x78 = (.ok d, s1)) :
    exec (.solverJobStart q) s = .next (s1.solvTake q (s.solvEntry q) d) := by
  have hx : exec (.solverJobStart q) s = execSolverJobStart q s := rfl
  rw [hx, execSolverJobStart, if_neg (by simp [hs, hen, hj, hn]), if_neg (by simp [hg]), if_neg he]
  dsimp only
  rw [State.ringRead_ok hr]

end Ring

theorem State.fld_inc_same (s : State) {f : Fld} (hok : f.ok = true) : (s.inc f).fld f = (s.fld f + 1) % 2 ^ f.w :=
  State.fld_setFld_same s _ hok

theorem State.solvJobs_inc (s : State) (q : Fin 64) : (s.inc (fSolv_JOBS q)).fld (fSolv_JOBS q) = (s.fld (fSolv_JOBS q) + 1) % 2 ^ 64 :=
  State.fld_inc_same s (by simp [fSolv_JOBS, Fld.ok, Fld.sh, Fld.w])

/-- The record of a job taken. -/
def State.solvJob (s : State) (q va : Nat) (d : List Byte) (ts : List Term) : SJob :=
  { va := BitVec.ofNat 64 va, idx := (s.solv q).next, desc := d, terms := ts, next := 0, charge := 0, handoffs := 0,
    epoch := BitVec.ofNat 32 (s.fld fMode_A_EPOCH) }

/-- An accepted entry becomes the job in progress. -/
theorem State.solvTake_accepts {s s1 : State} {q va : Nat} {d : List Byte} {ts : List Term} (h : s.solvCheck d = (.accept ts, s1)) :
    s.solvTake q va d = ((s1.modSolv q fun x => { x with next := (x.next + 1) % 2 ^ 32, job := some (s1.solvJob q va d ts) }).setFlag
      (fSolv_ACTIVE q) true).setFlag (fSolv_HELD q) false := by
  unfold State.solvTake
  rewrite [h]
  rfl

/-- A refused entry whose word is written is passed over. -/
theorem State.solvTake_refuses {s s1 s2 : State} {q : Fin 64} {va c : Nat} {d b : List Byte} (h : s.solvCheck d = (.refuse c, s1))
    (hc : c ≠ 7) (hw : s1.vwrite unitAgt (va + 0x78) (natLE 4 (2 + c * 256)) = (.ok b, s2)) :
    s.solvTake q va d = ((s2.modSolv q fun x => { x with next := (x.next + 1) % 2 ^ 32 }).inc (fSolv_JOBS q)).solvCons q := by
  unfold State.solvTake
  rewrite [h]
  obtain ⟨f, hf⟩ : ∃ f, State.vwrite = f := ⟨_, rfl⟩
  rw [hf] at hw ⊢
  dsimp only
  rewrite [hw]
  dsimp only
  rw [if_neg hc]

theorem exec_solverJobEnd {s s1 : State} {q : Fin 64} {j : SJob} {b : List Byte} (hj : (s.solv q).job = some j)
    (hn : descCount j.desc ≤ j.next) (hs : s.flag fSafe_SAFE = false) (hc : bitAt (fieldLE j.desc 0xC 2) 15 = false)
    (hw : s.vwrite unitAgt (j.va.toNat + 0x78) (natLE 4 1 ++ natLE 4 j.handoffs) = (.ok b, s1)) :
    exec (.solverJobEnd q) s =
      .next ((((s1.modSolv q fun x => { x with job := none }).setFlag (fSolv_ACTIVE q) false).inc (fSolv_JOBS q)).solvCons q) := by
  have hx : exec (.solverJobEnd q) s = execSolverJobEnd q s := rfl
  have hgo : ¬(j.next < descCount j.desc ∨ s.flag fSafe_SAFE = true) := by
    simp [hs]
    omega
  rw [hx, execSolverJobEnd, hj]
  refine congrArg Host.Outcome.next ((if_neg hgo).trans ?_)
  rewrite [hw]
  exact congrArg (fun t : State => t.solvCons q) (if_neg (by simp [hc]))

/-- What the end of a job leaves: no job, ACTIVE clear, JOBS one higher. -/
theorem State.solvJobOver_leaves (s : State) (q : Fin 64) (t : State)
    (ht : t = ((s.modSolv q fun x => { x with job := none }).setFlag (fSolv_ACTIVE q) false).inc (fSolv_JOBS q)) :
    (t.solv q).job = none ∧ t.flag (fSolv_ACTIVE q) = false ∧ t.fld (fSolv_JOBS q) = (s.fld (fSolv_JOBS q) + 1) % 2 ^ 64 ∧
      t.dram = s.dram := by
  have hJ : (fSolv_JOBS q).ok = true := by simp [fSolv_JOBS, Fld.ok, Fld.sh, Fld.w]
  have h1 : (fSolv_JOBS q).apart (fSolv_ACTIVE q) = true := Fld.apart_of_off (by simp [fSolv_JOBS, fSolv_ACTIVE]) rfl
  have h2 : (fSolv_ACTIVE q).apart (fSolv_JOBS q) = true := Fld.apart_of_off (by simp [fSolv_JOBS, fSolv_ACTIVE]) rfl
  refine ⟨?_, ?_, ?_, ?_⟩
  · rw [ht, State.solv_inc, State.solv_setFlag, State.solv_modSolv_same]
  · rw [ht, State.flag, State.inc, State.fld_setFld_apart _ _ hJ h1]
    exact State.flag_setFlag_same _ _ (fSolv_ACTIVE_ok q) (by simp [fSolv_ACTIVE, Fld.w])
  · rw [ht, State.solvJobs_inc, State.fld_setFlag_apart _ _ (fSolv_ACTIVE_ok q) h2, State.fld_modSolv]
  · rw [ht, State.inc, State.setFld_dram, State.setFlag_dram, (State.modSolv_frame _ _ _).2]
/-! ### The end of a system (R218 to R232) -/

/-- A step that counts in fields apart from `g`: the engines, memory and `g` stay. -/
def State.CountsBeside (g : Fld) (s t : State) : Prop := t.eng = s.eng ∧ t.dram = s.dram ∧ t.fld g = s.fld g

theorem State.CountsBeside.trans {g : Fld} {s t u : State} (h : s.CountsBeside g t) (h' : t.CountsBeside g u) : s.CountsBeside g u := by
  obtain ⟨he, hd, hf⟩ := h
  obtain ⟨he', hd', hf'⟩ := h'
  exact ⟨he'.trans he, hd'.trans hd, hf'.trans hf⟩

theorem State.CountsBeside.setFld (s : State) {f g : Fld} (x : Nat) (hok : f.ok = true) (ha : f.apart g = true) :
    s.CountsBeside g (s.setFld f x) := ⟨rfl, State.setFld_dram .., State.fld_setFld_apart _ _ hok ha⟩

theorem State.CountsBeside.onlyIf {g : Fld} {s t : State} (c : Prop) [Decidable c] (h : s.CountsBeside g t) :
    s.CountsBeside g (if c then t else s) := by
  split
  · exact h
  · exact ⟨rfl, rfl, rfl⟩

theorem fSolv_counter_ok {p o : Nat} (h : o % 8 = 0) : (⟨p, o, 63, 0⟩ : Fld).ok = true := by
  simp [Fld.ok, Fld.sh, Fld.w, h]

section Count
variable (s : State) (q : Fin 64) (r : SysRes)

/-- What is counted of a system after SYSTEMS: registers, hand-offs, warm starts that missed. -/
def State.solvCountKinds : State :=
  let s1 := (s.inc (fSolv_SYSTEMS q)).addSat (fSolv_REG_CNT q) r.regs
  let s2 := if r.code = 4 ∨ r.code = 5 then s1.inc (fSolv_HANDOFF_CNT q) else s1
  if bitAt r.flags 2 then s2.inc (fSolv_WARM_MISS q) else s2

theorem State.solvCountKinds_beside {g : Fld} (hp : g.page = 0x080 + q) (h1 : g.off / 8 ≠ 0x60 / 8) (h2 : g.off / 8 ≠ 0x68 / 8)
    (h3 : g.off / 8 ≠ 0x70 / 8) : (s.inc (fSolv_SYSTEMS q)).CountsBeside g (s.solvCountKinds q r) :=
  ((State.CountsBeside.setFld _ _ (fSolv_counter_ok rfl) (Fld.apart_of_off (Ne.symm h2) hp.symm)).trans
    (.onlyIf _ (.setFld _ _ (fSolv_counter_ok rfl) (Fld.apart_of_off (Ne.symm h1) hp.symm)))).trans
    (.onlyIf _ (.setFld _ _ (fSolv_counter_ok rfl) (Fld.apart_of_off (Ne.symm h3) hp.symm)))

theorem State.solvCount_eq (h7 : r.code ≠ 7) (inj : Bool) : s.solvCount q r inj =
    (let s3 := s.solvCountKinds q r
     let s4 := if r.code = 1 ∨ r.code = 2 ∨ r.code = 3 then s3.inc (fSolv_DEADLINE_CNT q) else s3
     if r.code = 6 then s4.solvUe q else s4) := by
  delta State.solvCount State.solvCountKinds
  dsimp only
  rw [if_neg h7]

/-- A system that ends well, or by its own fault, is one more in SYSTEMS. -/
theorem State.solvCount_systems (h7 : r.code ≠ 7) (inj : Bool) : (s.solvCount q r inj).eng = s.eng ∧ (s.solvCount q r inj).dram = s.dram ∧
    (s.solvCount q r inj).fld (fSolv_SYSTEMS q) = (s.fld (fSolv_SYSTEMS q) + 1) % 2 ^ 64 := by
  have hk : (s.inc (fSolv_SYSTEMS q)).CountsBeside (fSolv_SYSTEMS q) (s.solvCount q r inj) := by
    have h3 := s.solvCountKinds_beside q r (g := fSolv_SYSTEMS q) rfl (by simp [fSolv_SYSTEMS]) (by simp [fSolv_SYSTEMS]) (by simp [fSolv_SYSTEMS])
    rw [State.solvCount_eq _ _ _ h7]
    generalize s.solvCountKinds q r = s3 at h3
    dsimp only
    refine h3.trans ((State.CountsBeside.onlyIf (s := s3) (t := s3.inc (fSolv_DEADLINE_CNT q)) _ ?_).trans (.onlyIf _ ?_))
    · exact .setFld _ _ (fSolv_counter_ok rfl) (Fld.apart_of_off (by simp [fSolv_DEADLINE_CNT, fSolv_SYSTEMS]) rfl)
    · exact .setFld _ _ (by simp [fErr_UE, Fld.ok, Fld.sh, Fld.w]) (Fld.apart_of_off (by simp [fErr_UE, fSolv_SYSTEMS]) rfl)
  obtain ⟨he, hd, hf⟩ := hk
  exact ⟨he, hd.trans (State.setFld_dram ..), hf.trans (State.fld_inc_same s (fSolv_counter_ok rfl))⟩

/-- A system that the deadline leaves out is one more in DEADLINE_CNT. -/
theorem State.solvCount_deadline (h3 : r.code = 3) (inj : Bool) :
    (s.solvCount q r inj).fld (fSolv_DEADLINE_CNT q) = (s.fld (fSolv_DEADLINE_CNT q) + 1) % 2 ^ 64 := by
  obtain ⟨-, -, hf⟩ := s.solvCountKinds_beside q r (g := fSolv_DEADLINE_CNT q) rfl (by simp [fSolv_DEADLINE_CNT])
    (by simp [fSolv_DEADLINE_CNT]) (by simp [fSolv_DEADLINE_CNT])
  have hsys : (s.inc (fSolv_SYSTEMS q)).fld (fSolv_DEADLINE_CNT q) = s.fld (fSolv_DEADLINE_CNT q) :=
    State.fld_setFld_apart _ _ (fSolv_counter_ok rfl) (Fld.apart_of_off (by simp [fSolv_SYSTEMS, fSolv_DEADLINE_CNT]) rfl)
  rw [State.solvCount_eq _ _ _ (by omega)]
  dsimp only
  rw [if_neg (by omega), if_pos (.inr (.inr h3)), State.fld_inc_same (f := fSolv_DEADLINE_CNT q) _ (fSolv_counter_ok rfl), hf, hsys]
  rfl

end Count

/-- What becomes resident changes no register, no memory, and of the engines the resident table alone. -/
theorem State.setResid_keeps (s : State) (key : Nat) (old : Resid) (o : SysOut) (hd : FHead) :
    (s.setResid key old o hd).regs = s.regs ∧ (s.setResid key old o hd).dram = s.dram ∧
      (s.setResid key old o hd).eng.solv = s.eng.solv := by
  unfold State.setResid
  dsimp only
  split <;> exact ⟨rfl, rfl, rfl⟩

/-- The writes of a system's end, in their order; `aw` are those of its factor area, which leave the header `hd`. -/
def State.endWrites (s : State) (j : SJob) (o : SysOut) (aw : List (Nat × List Byte)) (hd : Option FHead) : List (Nat × List Byte) :=
  (if (solWrites (descShape j.desc) o.res.sol).isEmpty then [] else [(solVa j.desc j.next, solWrites (descShape j.desc) o.res.sol)]) ++
    aw.map (fun w => (areaVa j.desc j.next + w.1, w.2)) ++
    (if descAt j.desc 0x48 = 0 ∧ (o.res.code ≤ 1 ∨ o.res.code = 7) then
      [(areaVa j.desc j.next, (List.range (descShape j.desc).areaBytes).map fun k => BitVec.ofNat 8 (j.open_ o.res (4 + k)))] else []) ++
    (if (o.res.code == 4 || o.res.code == 5) = true then [(descAt j.desc 0x58 + 4 * j.handoffs, natLE 4 j.next)] else []) ++
    [(descAt j.desc 0x50 + 32 * j.next, statusRec s j o.res (slotBit j o.res hd))]

/-- The factor area's writes of a system's end. -/
def State.areaOut (s : State) (j : SJob) (o : SysOut) : List (Nat × List Byte) × Option FHead :=
  areaWrites (descShape j.desc) o (fingerprint (descShape j.desc) o.pos) j.epoch.toNat (s.fld fPkg_STEP)

/-- The job after a system's end. -/
def SJob.after (j : SJob) (r : SysRes) : SJob :=
  { j with next := j.next + 1, charge := j.charge + r.work, handoffs := j.handoffs + (r.code == 4 || r.code == 5).toNat }

/-- Once its writes are performed, a system counts and its job goes on. -/
theorem State.endSystem_written {s s2 : State} {q : Nat} {j : SJob} {o : SysOut} (inj : Bool) {aw : List (Nat × List Byte)}
    {hd : Option FHead} (ha : s.areaOut j o = (aw, hd)) (h : s.swrites (s.endWrites j o aw hd) = (true, s2)) :
    ∃ t : State, t.regs = s2.regs ∧ t.dram = s2.dram ∧ t.eng.solv = s2.eng.solv ∧
      s.endSystem q j o inj = (t.solvCount q o.res inj).modSJob q fun j => j.after o.res := by
  obtain ⟨ws, hws⟩ : ∃ ws, s.endWrites j o aw hd = ws := ⟨_, rfl⟩
  rw [hws] at h
  unfold State.endWrites at hws
  unfold State.areaOut at ha
  unfold State.endSystem
  obtain ⟨f, hf⟩ : ∃ f, areaWrites = f := ⟨_, rfl⟩
  obtain ⟨g, hg⟩ : ∃ g, State.swrites = g := ⟨_, rfl⟩
  rw [hf] at ha ⊢
  rw [hg] at h ⊢
  dsimp only
  rw [ha]
  dsimp only
  rw [hws, h]
  obtain ⟨u, hu⟩ : ∃ u : State, { s2 with fresh := s2.fresh + 1 } = u := ⟨_, rfl⟩
  have hur : u.regs = s2.regs ∧ u.dram = s2.dram ∧ u.eng.solv = s2.eng.solv := hu ▸ ⟨rfl, rfl, rfl⟩
  dsimp only
  rw [hu]
  obtain ⟨hr, hm, he⟩ := hur
  cases hd with
  | none => exact ⟨u, hr, hm, he, rfl⟩
  | some x =>
    obtain ⟨kr, km, ke⟩ := u.setResid_keeps (u.areaKey (areaVa j.desc j.next))
      (u.residOf (descShape j.desc) (u.areaKey (areaVa j.desc j.next)) x) o x
    exact ⟨_, kr.trans hr, km.trans hm, ke.trans he, rfl⟩

section System
variable {s s1 s2 : State} {q : Fin 64} {j : SJob} {o : SysOut} (hj : (s.solv q).job = some j) (hn : j.next < descCount j.desc)
  (hs : s.flag fSafe_SAFE = false)
  (hr : s.runSystem j (s.injArmed (solvPage q) 1) (if s.injArmed (solvPage q) 1 then none else Config.solvFault s.fresh) = (some o, s1))
include hj hn hs hr

/-- The next system ends where its ending is the kind the command names. -/
theorem State.nextSystem_run (late : Bool) : s.nextSystem q late =
    if (o.res.code == 1 || o.res.code == 2 || o.res.code == 3) = late then
      s1.endSystem q j o (s.injArmed (solvPage q) 1 && o.res.code == 7) else s := by
  have hgo : ¬(s.flag fSafe_SAFE = true ∨ descCount j.desc ≤ j.next) := by
    simp [hs]
    omega
  unfold State.nextSystem
  rw [hj]
  refine (if_neg hgo).trans ?_
  dsimp only
  rw [hr]

/-- A system whose writes are performed: its job goes on, SYSTEMS counts it. -/
theorem State.nextSystem_ends (h7 : o.res.code ≠ 7) {late : Bool}
    (hl : (o.res.code == 1 || o.res.code == 2 || o.res.code == 3) = late) {aw : List (Nat × List Byte)} {hd : Option FHead}
    (ha : s1.areaOut j o = (aw, hd)) (hw : s1.swrites (s1.endWrites j o aw hd) = (true, s2)) (h2 : (s2.solv q).job = some j) :
    ((s.nextSystem q late).solv q).job = some (j.after o.res) ∧
    (s.nextSystem q late).fld (fSolv_SYSTEMS q) = (s2.fld (fSolv_SYSTEMS q) + 1) % 2 ^ 64 ∧ (s.nextSystem q late).dram = s2.dram ∧
    (o.res.code = 3 → (s.nextSystem q late).fld (fSolv_DEADLINE_CNT q) = (s2.fld (fSolv_DEADLINE_CNT q) + 1) % 2 ^ 64) := by
  obtain ⟨t, tr, td, te, ht⟩ := State.endSystem_written (q := q) (s.injArmed (solvPage q) 1 && o.res.code == 7) ha hw
  have hu := ((State.nextSystem_run hj hn hs hr late).trans (if_pos hl)).trans ht
  generalize (s.injArmed (solvPage q) 1 && o.res.code == 7) = inj at hu
  obtain ⟨ce, cd, cf⟩ := t.solvCount_systems q o.res h7 inj
  have hfld : ∀ g, t.fld g = s2.fld g := fun g => by
    rw [State.fld, State.fld, State.cell, State.cell, tr]
  have hsolv : (t.solvCount q o.res inj).solv q = s2.solv q := by
    rw [State.solv, ce, te]
    rfl
  rw [hu]
  refine ⟨?_, ?_, ?_, fun h3 => ?_⟩
  · rw [State.modSJob, State.solv_modSolv_same, hsolv, h2]
    rfl
  · rw [State.modSJob, State.fld_modSolv, cf, hfld]
  · rw [State.modSJob, (State.modSolv_frame _ _ _).2, cd, td]
  · rw [State.modSJob, State.fld_modSolv, t.solvCount_deadline q o.res h3, hfld]

end System
theorem State.solvActive_held (t : State) (q : Fin 64) :
    ((t.setFlag (fSolv_ACTIVE q) true).setFlag (fSolv_HELD q) false).flag (fSolv_ACTIVE q) = true := by
  have hH : (fSolv_HELD q).ok = true := by simp [fSolv_HELD, Fld.ok, Fld.sh, Fld.w]
  have ha : (fSolv_HELD q).apart (fSolv_ACTIVE q) = true := by
    clear hH
    revert q
    decide
  rw [State.flag_setFlag_apart _ _ hH ha, State.flag_setFlag_same _ _ (fSolv_ACTIVE_ok q) (by simp [fSolv_ACTIVE, Fld.w])]

theorem State.swrites_one {s s1 : State} {va : Nat} {b b' : List Byte} (h : s.vwrite unitAgt va b = (.ok b', s1)) :
    s.swrites [(va, b)] = (true, s1) := by
  unfold State.swrites
  rewrite [h]
  rfl

/-- A system that the deadline leaves out writes its status record alone. -/
theorem State.endWrites_out (s : State) {j : SJob} {o : SysOut} (h3 : o.res.code = 3) (hsol : o.res.sol = .keep) (harea : o.res.area = .keep) :
    s.areaOut j o = ([], o.head) ∧
    s.endWrites j o [] o.head = [(descAt j.desc 0x50 + 32 * j.next, statusRec s j o.res (slotBit j o.res o.head))] := by
  constructor
  · unfold State.areaOut areaWrites
    rw [harea]
    cases o.head <;> rfl
  · rw [State.endWrites, hsol, if_pos (by rfl), if_neg (by omega), if_neg (by simp [h3])]
    rfl

/-- The writes of a system with a result: the shared area only where the system ends well, the hand-off list at codes 4 and 5. -/
theorem State.endWrites_result (s : State) (j : SJob) {o : SysOut} (h1 : o.res.code ≠ 1) (h7 : o.res.code ≠ 7) (aw : List (Nat × List Byte))
    (hd : Option FHead) : s.endWrites j o aw hd =
      (if (solWrites (descShape j.desc) o.res.sol).isEmpty then [] else [(solVa j.desc j.next, solWrites (descShape j.desc) o.res.sol)]) ++
        aw.map (fun w => (areaVa j.desc j.next + w.1, w.2)) ++
        (if descAt j.desc 0x48 = 0 ∧ o.res.code = 0 then
          [(areaVa j.desc j.next, (List.range (descShape j.desc).areaBytes).map fun k => BitVec.ofNat 8 (j.open_ o.res (4 + k)))] else []) ++
        (if o.res.code = 4 ∨ o.res.code = 5 then [(descAt j.desc 0x58 + 4 * j.handoffs, natLE 4 j.next)] else []) ++
        [(descAt j.desc 0x50 + 32 * j.next, statusRec s j o.res (slotBit j o.res hd))] := by
  have hz : (o.res.code ≤ 1 ∨ o.res.code = 7) ↔ o.res.code = 0 := by omega
  have hh : ((o.res.code == 4 || o.res.code == 5) = true) ↔ (o.res.code = 4 ∨ o.res.code = 5) := by simp
  simp only [State.endWrites, hz, hh]

/-- The next system does not end by a command that names the other kind of ending. -/
theorem State.nextSystem_other {s s1 : State} {q : Fin 64} {j : SJob} {o : SysOut} (hj : (s.solv q).job = some j)
    (hn : j.next < descCount j.desc) (hs : s.flag fSafe_SAFE = false)
    (hr : s.runSystem j (s.injArmed (solvPage q) 1) (if s.injArmed (solvPage q) 1 then none else Config.solvFault s.fresh) = (some o, s1))
    {late : Bool} (hl : (o.res.code == 1 || o.res.code == 2 || o.res.code == 3) = !late) : s.nextSystem q late = s :=
  (State.nextSystem_run hj hn hs hr late).trans (if_neg (by rw [hl]; cases late <;> decide))

theorem exec_solverSystemEnd (s : State) (q : Fin 64) : exec (.solverSystemEnd q) s = .next (s.nextSystem q false) := rfl

theorem exec_solverDeadline (s : State) (q : Fin 64) : exec (.solverDeadline q) s = .next (s.nextSystem q true) := rfl

/-- Settles O29: the ring, the job and the system, each command by what it does where its conditions hold. -/
theorem solverJobsAndSystemsEnd : Obligations.SolverJobsAndSystemsEnd := by
  refine ⟨fun s s1 s2 s3 q b b' d hwf => ⟨?enable, fun hen hs hg => ⟨fun hh hr => ⟨?prod, ?error⟩, fun hj hn => ⟨?held, fun he hr => ⟨?accept, ?refuse⟩⟩⟩,
    ?jobEnd⟩, fun s s1 s2 q j o hj hn hs hrun h2 => ⟨?system, ?late⟩⟩
  case enable => exact fun ag hag hen h hj hc h' hle => solverRingEnable_completes hwf hag hen h hj hc rfl h' hle
  case prod =>
    exact fun hle => Completes.of ((exec_solverRingProd hen hs hg hh).trans (congrArg _ (State.solvReadProd_takes hr hle)))
      ⟨State.solv_modSolv_same s1 q fun x => { x with prod := leNat b, due := { x.due with head := 0 } }, rfl⟩
  case error =>
    exact fun hlt => Completes.of ((exec_solverRingProd hen hs hg hh).trans (congrArg _ (State.solvReadProd_errs hr hlt)))
      (s1.solvRingErr_flags q)
  case held => exact exec_solverJobStart_held hs hen hg hj hn
  case accept =>
    intro ts hc hx
    have hsolv : ∀ t : State, ∀ f g x y, ((t.setFlag f x).setFlag g y).solv q = t.solv q := fun t f g x y => rfl
    refine Completes.of ((exec_solverJobStart_takes hs hen hg hj hn he hr).trans (congrArg _ (State.solvTake_accepts hc)))
      ⟨State.solvActive_held _ q, ?_, s2.solvJob q (s.solvEntry q) d ts, ?_, rfl, rfl, rfl, rfl, rfl⟩
    · rw [hsolv, State.solv_modSolv_same, hx]
    · rw [hsolv, State.solv_modSolv_same]
  case refuse =>
    intro c hc h7 hw hx
    refine ⟨_, (exec_solverJobStart_takes hs hen hg hj hn he hr).trans (congrArg _ (State.solvTake_refuses hc h7 hw)), ?_, ?_, ?_, ?_⟩
    · rw [State.solv_inc, State.solv_modSolv_same, hx]
      exact hj
    · rw [State.solv_inc, State.solv_modSolv_same, hx]
    · rw [State.solvJobs_inc, State.fld_modSolv]
    · rw [State.inc, State.setFld_dram, (State.modSolv_frame _ _ _).2]
  case jobEnd =>
    intro j hj hn hs hc hw _
    exact ⟨_, exec_solverJobEnd hj hn hs hc hw, s1.solvJobOver_leaves q _ rfl⟩
  case system =>
    intro hcode aw sol hw
    simp only [List.mem_cons, List.not_mem_nil, or_false, not_or] at hcode
    obtain ⟨h1, h2', h3, h7⟩ := hcode
    have hl : (o.res.code == 1 || o.res.code == 2 || o.res.code == 3) = false := by simp [h1, h2', h3]
    refine ⟨?_, (exec_solverDeadline s q).trans (congrArg _ (State.nextSystem_other hj hn hs hrun hl))⟩
    obtain ⟨hjob, hsys, hd, -⟩ := State.nextSystem_ends hj hn hs hrun h7 hl (aw := aw.1) (hd := aw.2) rfl
      ((s1.endWrites_result j h1 h7 aw.1 aw.2).symm ▸ hw) h2
    exact Completes.of (exec_solverSystemEnd s q) ⟨hjob, hsys, hd⟩
  case late =>
    intro h3 hsol harea hw
    obtain ⟨ha, hws⟩ := s1.endWrites_out (j := j) h3 hsol harea
    have hl : (o.res.code == 1 || o.res.code == 2 || o.res.code == 3) = true := by simp [h3]
    refine ⟨?_, (exec_solverSystemEnd s q).trans (congrArg _ (State.nextSystem_other hj hn hs hrun hl))⟩
    obtain ⟨hjob, hsys, hd, hdl⟩ := State.nextSystem_ends hj hn hs hrun (by omega) hl ha (hws ▸ State.swrites_one hw) h2
    exact Completes.of (exec_solverDeadline s q) ⟨⟨hjob, hsys, hd⟩, hdl h3⟩

end Sys2Proof.Machine
end

section
/-! # Views, routes and the copy ring of a stack -/
namespace Sys2Proof.Machine
/-! ### The slots of the stacks (R192, R193) -/

theorem bitAt_testBit (n i : Nat) : bitAt n i = n.testBit i := by
  rw [bitAt, Nat.testBit_eq_decide_div_mod_eq, Nat.shiftRight_eq_div_pow]
  rfl

theorem fView_SLOTS_USED_ok (n : Nat) : (fView_SLOTS_USED n).ok = true := by simp [fView_SLOTS_USED, Fld.ok, Fld.sh, Fld.w]

theorem fView_SLOTS_USED_apart {a b : Nat} (h : a ≠ b) : (fView_SLOTS_USED a).apart (fView_SLOTS_USED b) = true :=
  Fld.apart_of_page (by simp only [fView_SLOTS_USED, Fld.key]; omega)

/-- A stack's slots after they were taken or freed. -/
def slotsAfter (x : Nat) (take : Bool) : Nat := if take then (x + 1) % 2 ^ 8 else x - 1

/-- One stack's step of `State.viewSlots`. -/
def State.slotStep (set : Nat) (take : Bool) (t : State) (n : Nat) : State :=
  if bitAt set n then t.setFld (fView_SLOTS_USED n) (if take then t.fld (fView_SLOTS_USED n) + 1 else t.fld (fView_SLOTS_USED n) - 1) else t

theorem State.slotStep_ne (set : Nat) (take : Bool) (t : State) {n k : Nat} (h : n ≠ k) :
    (t.slotStep set take n).fld (fView_SLOTS_USED k) = t.fld (fView_SLOTS_USED k) := by
  unfold State.slotStep
  split
  · exact State.fld_setFld_apart _ _ (fView_SLOTS_USED_ok n) (fView_SLOTS_USED_apart h)
  · rfl

theorem State.slotStep_same (set : Nat) (take : Bool) (t : State) (k : Nat) : (t.slotStep set take k).fld (fView_SLOTS_USED k) =
    if set.testBit k then slotsAfter (t.fld (fView_SLOTS_USED k)) take else t.fld (fView_SLOTS_USED k) := by
  have hlt : t.fld (fView_SLOTS_USED k) < 2 ^ 8 := t.fld_lt _
  unfold State.slotStep
  rw [bitAt_testBit]
  split
  · rw [State.fld_setFld_same _ _ (fView_SLOTS_USED_ok k), slotsAfter]
    cases take
    · exact Nat.mod_eq_of_lt (lt_of_le_of_lt (Nat.sub_le _ 1) hlt)
    · rfl
  · rfl

/-- The slots of a set: each stack in it once, the others as they were. -/
theorem State.viewSlots_fld (s : State) (set : Nat) (take : Bool) {k : Nat} (hk : k < 8) : (s.viewSlots set take).fld (fView_SLOTS_USED k) =
    if set.testBit k then slotsAfter (s.fld (fView_SLOTS_USED k)) take else s.fld (fView_SLOTS_USED k) := by
  have hstep : ∀ m, ((List.range m).foldl (fun t n => t.slotStep set take n) s).fld (fView_SLOTS_USED k) =
      if k < m then (if set.testBit k then slotsAfter (s.fld (fView_SLOTS_USED k)) take else s.fld (fView_SLOTS_USED k))
      else s.fld (fView_SLOTS_USED k) := by
    intro m
    induction m with
    | zero => rfl
    | succ m ih =>
      rw [List.range_succ, List.foldl_append, List.foldl_cons, List.foldl_nil]
      by_cases hm : m = k
      · subst hm
        rw [State.slotStep_same, ih, if_neg (Nat.lt_irrefl _), if_pos (Nat.lt_succ_self _)]
      · rw [State.slotStep_ne _ _ _ hm, ih]
        by_cases hlt : k < m
        · rw [if_pos hlt, if_pos (Nat.lt_succ_of_lt hlt)]
        · rw [if_neg hlt, if_neg (show ¬k < m + 1 by omega)]
  exact (hstep 8).trans (if_pos hk)

theorem State.viewSlots_bar2 (s : State) (set : Nat) (take : Bool) : (s.viewSlots set take).bar2 = s.bar2 := by
  have hstep : ∀ (l : List Nat) (t : State), (l.foldl (fun t n => t.slotStep set take n) t).bar2 = t.bar2 := by
    intro l
    induction l with
    | nil => exact fun _ => rfl
    | cons n l ih =>
      intro t
      rw [List.foldl_cons, ih]
      unfold State.slotStep
      split <;> rfl
  exact hstep _ s

/-! ### STATUS and EN of an entry (Table 8.4) -/

theorem State.fld_putBarNat (s : State) (k n v : Nat) (f : Fld) : (s.putBarNat k n v).fld f = s.fld f := by
  rw [State.fld, State.fld, State.cell, State.cell, State.putBarNat_regs]

theorem State.viewStatus_set (s : State) (i : Nat) {v : Nat} (hv : v < 2 ^ 32) :
    (s.setViewStatus i v).barNat (viewOff i + 0x30) 4 = v :=
  (State.barNat_putBarNat_same ..).trans (Nat.mod_eq_of_lt hv)

theorem exec_viewRegister {s : State} {ag : Agent} {i : Fin 1024} (h : s.tabUp ag = true) (hen : s.viewEn i = false)
    (hv : s.viewValid i = false) {s0 : State} (h0 : s0 = s.putBarNat (viewOff i + 0x3F) 1 (s.barNat (viewOff i + 0x3F) 1 ||| 1)) :
    exec (.viewRegister ag i) s = .next (s0.viewRegister i) := by
  have he : exec (.viewRegister ag i) s = execViewRegister ag i s := rfl
  rw [he, execViewRegister, if_pos h, State.viewSetEn, ← h0]
  exact congrArg _ (if_pos (by rw [bitAt_or_one, hen, hv]; rfl))

/-- A refused entry shows its code; the check has changed what the registers show. -/
theorem State.viewRegister_refused {s s1 : State} {i c : Nat} (h : s.viewCheck i = (.refused c, s1)) (hc : c < 256) :
    (s.viewRegister i).barNat (viewOff i + 0x30) 4 = 2 + c * 256 ∧ (s.viewRegister i).regs = s1.regs := by
  have he : s.viewRegister i = s1.setViewStatus i (2 + c * 256) := by
    unfold State.viewRegister
    rewrite [h]
    rfl
  rw [he]
  exact ⟨State.viewStatus_set _ _ (by omega), State.putBarNat_regs ..⟩

/-- A VALID entry shows its set of stacks, and takes a slot in each. -/
theorem State.viewRegister_valid {s s1 : State} {i m : Nat} (h : s.viewCheck i = (.valid m, s1)) (hm : m < 256) :
    (s.viewRegister i).barNat (viewOff i + 0x30) 4 = 1 + m * 65536 ∧ ∀ n : Fin 8, (s.viewRegister i).fld (fView_SLOTS_USED n) =
      if m.testBit n then (s1.fld (fView_SLOTS_USED n) + 1) % 2 ^ 8 else s1.fld (fView_SLOTS_USED n) := by
  have he : s.viewRegister i = (s1.viewSlots m true).setViewStatus i (1 + m * 65536) := by
    unfold State.viewRegister
    rewrite [h]
    rfl
  rw [he]
  exact ⟨State.viewStatus_set _ _ (by omega), fun n => (State.fld_putBarNat ..).trans (s1.viewSlots_fld m true n.isLt)⟩

theorem State.dropViewRanges_keeps (l : List (Nat × Nat)) (s : State) : (l.foldl (fun t r => t.dropViewRange r.1 r.2) s).bar2 = s.bar2 ∧
    (l.foldl (fun t r => t.dropViewRange r.1 r.2) s).regs = s.regs := by
  induction l generalizing s with
  | nil => exact ⟨rfl, rfl⟩
  | cons r l ih => exact ih _

/-- A VALID entry without accepted accesses deregisters: STATUS is clear, its slots are free. -/
theorem State.viewDeregister_clears {s : State} {i : Nat} (hv : s.viewValid i = true) (hu : s.viewInUse i = false) :
    (s.viewDeregister i).barNat (viewOff i + 0x30) 4 = 0 ∧ (s.viewDeregister i).viewEn i = s.viewEn i ∧
    ∀ n : Fin 8, (s.viewDeregister i).fld (fView_SLOTS_USED n) =
      if (s.view i).stackSet.testBit n then s.fld (fView_SLOTS_USED n) - 1 else s.fld (fView_SLOTS_USED n) := by
  obtain ⟨z, hz⟩ : ∃ z, (s.view i).shown.foldl (fun t r => t.dropViewRange r.1 r.2) s = z := ⟨_, rfl⟩
  obtain ⟨hb, hr⟩ := hz ▸ State.dropViewRanges_keeps (s.view i).shown s
  have he : s.viewDeregister i = (z.viewSlots (s.view i).stackSet false).setViewStatus i 0 := by
    rw [State.viewDeregister, if_pos ⟨hv, by rw [hu]; rfl⟩]
    dsimp only
    rw [hz]
  have hzf : ∀ f, z.fld f = s.fld f := fun f => by
    rw [State.fld, State.fld, State.cell, State.cell, hr]
  rw [he]
  refine ⟨State.viewStatus_set _ _ (by omega), ?_, fun n => ?_⟩
  · rw [State.viewEn, State.setViewStatus, State.barNat_putBarNat_out _ (.inr (by omega)),
      State.barNat_congr ((z.viewSlots_bar2 _ _).trans hb), State.viewEn]
  · rw [State.setViewStatus, State.fld_putBarNat, z.viewSlots_fld _ false n.isLt, hzf]
    rfl

theorem State.viewCheck_format {s : State} {i : Nat} (h : s.viewBadFormat i = true) : s.viewCheck i = (.refused 1, s) := if_pos h

theorem State.viewCheck_align {s : State} {i : Nat} (h : s.viewBadFormat i = false) (ha : (s.view i).badAlign = true) :
    s.viewCheck i = (.refused 2, s) :=
  (if_neg (by rw [h]; decide)).trans (if_pos ha)

section Deregister
variable {s : State} {ag : Agent} {i : Fin 1024} (h : s.tabUp ag = true) (hen : s.viewEn i = true) (hv : s.viewValid i = true)
  (hu : s.viewInUse i = false)
include h hen hv hu

theorem viewDeregister_completes : Completes (.viewDeregister ag i) s fun u =>
    u.barNat (viewOff i + 0x30) 4 = 0 ∧ u.viewEn i = false ∧
    ∀ n : Fin 8, u.fld (fView_SLOTS_USED n) =
      if (s.view i).stackSet.testBit n then s.fld (fView_SLOTS_USED n) - 1 else s.fld (fView_SLOTS_USED n) := by
  obtain ⟨z, hz⟩ : ∃ z, s.putBarNat (viewOff i + 0x3F) 1 (s.barNat (viewOff i + 0x3F) 1 / 2 * 2) = z := ⟨_, rfl⟩
  have hb : ∀ o n, o + n ≤ viewOff i + 0x3F → z.barNat o n = s.barNat o n := fun o n ho => hz ▸ State.barNat_putBarNat_out _ (.inl ho)
  have hzv : z.viewValid i = true := by
    rw [State.viewValid, hb _ _ (by omega)]
    exact hv
  have hzu : z.viewInUse i = false := by
    obtain ⟨b, hzb⟩ := State.putBar_eq (natLE 1 (s.barNat (viewOff i + 0x3F) 1 / 2 * 2)) s (viewOff i + 0x3F)
    rw [State.viewInUse, ← hz, State.putBarNat, hzb]
    exact hu
  have hzset : (z.view i).stackSet = (s.view i).stackSet := hb _ _ (by omega)
  have hze : z.viewEn i = false := by
    have hlt : s.barNat (viewOff i + 0x3F) 1 < 256 := State.barNat_lt ..
    rw [State.viewEn, ← hz, State.barNat_putBarNat_same, Nat.mod_eq_of_lt (by omega), bitAt_half_double]
  have hx : exec (.viewDeregister ag i) s = .next (z.viewDeregister i) := by
    have he : exec (.viewDeregister ag i) s = execViewDeregister ag i s := rfl
    rw [he, execViewDeregister, if_pos h, State.viewSetEn, hz]
    refine congrArg _ ((if_neg ?_).trans (if_pos ?_))
    · rw [bitAt_half_double]
      exact Bool.false_ne_true
    · rw [bitAt_half_double, hen]
      rfl
  obtain ⟨h1, h2, h3⟩ := State.viewDeregister_clears hzv hzu
  refine Completes.of hx ⟨h1, h2.trans hze, fun n => ?_⟩
  rw [h3 n, hzset, ← hz, State.fld_putBarNat]

end Deregister
/-! ### The route table (Table 11.6) -/

theorem State.tabUp_agent {s : State} {ag : Agent} (h : s.tabUp ag = true) : s.agentUp ag = true ∧ ag ≠ .job := by
  simp only [State.tabUp, Bool.and_eq_true, Bool.or_eq_true, beq_iff_eq] at h
  obtain ⟨h1, rfl | rfl⟩ := h
  · exact ⟨h1, by decide⟩
  · exact ⟨h1, by decide⟩

/-- The bytes of a route entry as they are stored: the reserved bits stay 0. -/
def routeBytes (o : Nat) : List Byte → List Byte
  | [] => []
  | b :: bs => (if o % 4 = 2 then b &&& 1 else if o % 4 = 3 then 0 else b) :: routeBytes (o + 1) bs

/-- Bytes written to the route table are stored as its entries keep them. -/
theorem State.tabBytes_routes {ag : Agent} (ha : ag ≠ .job) (bs : List Byte) : ∀ (s : State) {o : Nat}, 0x300000 ≤ o →
    o + bs.length ≤ 0x340000 → s.tabBytes ag o bs = s.putBar o (routeBytes o bs) := by
  induction bs with
  | nil => exact fun _ _ _ _ => rfl
  | cons b bs ih =>
    intro s o h1 h2
    rw [List.length_cons] at h2
    have hr : 0x300000 ≤ o ∧ o < 0x340000 := ⟨h1, by omega⟩
    have hok : s.tabByteOk ag o = true := by
      rw [State.tabByteOk, if_neg (by omega), if_neg (by omega), if_pos hr]
      exact bne_iff_ne.2 ha
    rw [State.tabBytes, if_pos hok, ih _ (by omega) (by omega), State.tabByte, if_pos hr]
    rfl

theorem routeBytes_length (bs : List Byte) : ∀ o, (routeBytes o bs).length = bs.length := by
  induction bs with
  | nil => exact fun _ => rfl
  | cons b bs ih => exact fun o => congrArg (· + 1) (ih (o + 1))

/-- A route entry keeps the low 17 bits of what is written. -/
theorem leNat_routeBytes {o : Nat} (ho : o % 4 = 0) (v : Nat) : leNat (routeBytes o (natLE 4 v)) = v % 2 ^ 17 := by
  have hlow : ∀ n, (BitVec.ofNat 8 n &&& 1).toNat = n % 2 := fun n => by
    rw [BitVec.toNat_and, BitVec.toNat_ofNat, show (1 : Byte).toNat = 2 ^ 1 - 1 from rfl, Nat.and_two_pow_sub_one_eq_mod]
    omega
  have h0 : o % 4 ≠ 2 ∧ o % 4 ≠ 3 := by omega
  have h1 : (o + 1) % 4 ≠ 2 ∧ (o + 1) % 4 ≠ 3 := by omega
  have h2 : (o + 1 + 1) % 4 = 2 := by omega
  have h3 : (o + 1 + 1 + 1) % 4 ≠ 2 ∧ (o + 1 + 1 + 1) % 4 = 3 := by omega
  simp only [natLE, routeBytes, if_neg h0.1, if_neg h0.2, if_neg h1.1, if_neg h1.2, if_pos h2, if_neg h3.1, if_pos h3.2, leNat, hlow,
    BitVec.toNat_ofNat, show (0 : Byte).toNat = 0 from rfl]
  omega

theorem State.route_putBar_out (s : State) {pkg q : Nat} {bs : List Byte} (hl : bs.length = 4) (h : q ≠ pkg) :
    (s.putBar (routeOff pkg) bs).route q = s.route q :=
  congrArg leNat (s.barBytes_putBar_out (by rw [hl]; simp only [routeOff]; omega))

theorem State.route_putBar_same (s : State) (pkg : Nat) {bs : List Byte} (hl : bs.length = 4) :
    (s.putBar (routeOff pkg) bs).route pkg = leNat bs := by
  have h := s.barBytes_putBar (routeOff pkg) bs
  rw [hl] at h
  rw [State.route, State.barNat, h]

theorem State.noteSets_keeps (s : State) : s.noteSets.regs = s.regs ∧ s.noteSets.bar2 = s.bar2 := ⟨rfl, rfl⟩

theorem State.route_congr {s t : State} (h : t.bar2 = s.bar2) (q : Nat) : t.route q = s.route q := State.barNat_congr h _ _

theorem routeTableWrite_completes {s : State} {ag : Agent} (h : s.tabUp ag = true) {pkg : Nat} (v : W32) (hp : pkg < 65536) :
    Completes (.routeTableWrite ag pkg v) s fun u =>
      u.route pkg = v.toNat % 2 ^ 17 ∧ u.regs = s.regs ∧ ∀ q, q < 65536 → q ≠ pkg → u.route q = s.route q := by
  obtain ⟨hag, hj⟩ := State.tabUp_agent h
  have hb : (natLE 4 v.toNat).length = 4 := natLE_length ..
  have hbs : s.tabBytes ag (routeOff pkg) (natLE 4 v.toNat) = s.putBar (routeOff pkg) (routeBytes (routeOff pkg) (natLE 4 v.toNat)) :=
    State.tabBytes_routes hj _ s (by simp only [routeOff]; omega) (by rw [hb]; simp only [routeOff]; omega)
  have hx : exec (.routeTableWrite ag pkg v) s =
      .next (s.putBar (routeOff pkg) (routeBytes (routeOff pkg) (natLE 4 v.toNat))).noteSets := by
    have he : exec (.routeTableWrite ag pkg v) s = execRouteTableWrite ag pkg v s := rfl
    rw [he, execRouteTableWrite, if_pos ⟨hag, hp⟩, State.tabWrite, hbs]
    rw [if_neg hj, if_pos (by simp only [routeOff]; omega)]
  have hl : (routeBytes (routeOff pkg) (natLE 4 v.toNat)).length = 4 := (routeBytes_length _ _).trans hb
  obtain ⟨hr, hb2⟩ := (s.putBar (routeOff pkg) (routeBytes (routeOff pkg) (natLE 4 v.toNat))).noteSets_keeps
  refine Completes.of hx ⟨?_, hr.trans (State.putBar_regs ..), fun q _ hq => ?_⟩
  · rw [State.route_congr hb2, s.route_putBar_same pkg hl]
    exact leNat_routeBytes (by simp only [routeOff]; omega) _
  · rw [State.route_congr hb2, s.route_putBar_out hl hq]
/-! ### The copy ring of a stack (R205, R211) -/

theorem State.stk_modStk_same (s : State) (n : Nat) (f : StackSt → StackSt) : (s.modStk n f).stk n = f (s.stk n) :=
  tabGet_set_same stkDefault s.stks n (f (s.stk n))

theorem fCopy_EN_ok (n : Fin 8) : (fCopy_EN n).ok = true := by simp [fCopy_EN, Fld.ok, Fld.sh, Fld.w]

/-- ACTIVE after the descriptors in progress were counted, at most four of them. -/
theorem State.syncCopy_active (s : State) (n : Fin 8) {k : Nat} (h : (s.stk n).copies.length = k) (hk : k < 8) :
    (s.syncCopy n).fld (fCopy_ACTIVE n) = k := by
  have hok : (fCopy_ACTIVE n).ok = true := by simp [fCopy_ACTIVE, Fld.ok, Fld.sh, Fld.w]
  rw [State.syncCopy, h, State.fld_setFld_same _ _ hok]
  exact Nat.mod_eq_of_lt hk

theorem copyPage_blk (n : Fin 8) : pageBlk (copyPage n) = some (.copy, n.val) := by
  revert n
  decide

theorem cellMask_copy_clr (n : Fin 8) : cellMask (copyPage n) 9 (fun f => f.acc == .w1c) = 0 := by
  revert n
  decide +kernel

/-- Of the register of EN and LOG2N a plain write sets LOG2N alone. -/
theorem cellMask_copy_set (n : Fin 8) (l : Bool) :
    (BitVec.ofNat 64 (cellMask (copyPage n) 9 (plainAcc l) &&& wrMask 0x48 4) &&&
      ~~~BitVec.ofNat 64 (fldMask (copyPage n * 512 + 9) [fCopy_EN n])) &&& 15 =
    BitVec.ofNat 64 (cellMask (copyPage n) 9 (plainAcc l) &&& wrMask 0x48 4) &&&
      ~~~BitVec.ofNat 64 (fldMask (copyPage n * 512 + 9) [fCopy_EN n]) := by
  revert n l
  decide +kernel

/-- Setting EN is the enable and nothing else. -/
theorem exec_copyRingEnable_acts {s : State} (hwf : s.memWf = true) {ag : Agent} (n : Fin 8) (hag : s.agentUp ag = true)
    (hen : s.flag (fCopy_EN n) = false) : exec (.copyRingEnable ag n) s = .next ((s.setFlag (fCopy_EN n) true).copyEnable n) := by
  have hex : exec (.copyRingEnable ag n) s = .next (s.agentWrite ag (copyPage n) 0x48 4 (2 ^ 31 + s.fld (fCopy_LOG2N n))) := rfl
  have hplain : s.plainWrite .copy n.val (wrOf ag (copyPage n) 0x48 4 (2 ^ 31 + s.fld (fCopy_LOG2N n))) = s := by
    refine State.plainWrite_ringEn hwf [fCopy_EN n] ?_ rfl (cellMask_copy_clr n) (cellMask_copy_set n)
    simp [State.heldFields, headFlds, hen]
  have hget : (wrOf ag (copyPage n) 0x48 4 (2 ^ 31 + s.fld (fCopy_LOG2N n))).get (fCopy_EN n) = some 1 :=
    wrOf_get_en ag (s.fld_lt (fCopy_LOG2N n))
  rw [hex, State.agentWrite_eq _ hag rfl (by decide), s.regWrite_eq ag 0x48 4 _ (copyPage_blk n), hplain,
    State.headActs_body _ _ _ (by simp [wrOf]), State.blockActs, State.on_some hget, State.ringEn, if_pos ⟨rfl, by simp [hen]⟩]

/-- A PROD read that lies in the ring is taken. -/
theorem State.copyReadProd_takes {s s1 : State} {n : Nat} {b : List Byte} (h : s.vread unitAgt (s.copyHead n) 4 = (.ok b, s1))
    (hle : (leNat b + 2 ^ 32 - s1.fld (fCopy_CR_CONS n)) % 2 ^ 32 ≤ s1.copyLen n) :
    s.copyReadProd n = s1.modStk n fun x => { x with copyProd := leNat b, due := { x.due with head := 0 } } := by
  rw [State.copyReadProd, State.ringRead_ok h]
  exact if_neg (Nat.not_lt.2 hle)

/-- A PROD read beyond the ring's length is a ring error. -/
theorem State.copyReadProd_errs {s s1 : State} {n : Nat} {b : List Byte} (h : s.vread unitAgt (s.copyHead n) 4 = (.ok b, s1))
    (hlt : s1.copyLen n < (leNat b + 2 ^ 32 - s1.fld (fCopy_CR_CONS n)) % 2 ^ 32) :
    s.copyReadProd n = s1.ringError (fCopy_EN n) (copyPage n) := by
  rw [State.copyReadProd, State.ringRead_ok h]
  exact if_pos hlt

/-- An engine without a descriptor that owes no CONS takes CONS from the head, then reads PROD. -/
theorem State.copyEnable_reads {s s1 : State} {n : Nat} {b : List Byte} (h : s.vread unitAgt (s.copyHead n + 8) 4 = (.ok b, s1))
    (hj : (s1.stk n).copies = []) (hc : (s1.stk n).due.cons = false) :
    s.copyEnable n = ((((s1.setFld (fCopy_CR_CONS n) (leNat b)).modStk n fun x => { x with copyProd := leNat b, copyNext := leNat b }).modStk n
      fun x => { x with due := { x.due with head := 0 } }).syncCopy n).copyReadProd n := by
  rw [State.copyEnable, State.ringRead_ok h]
  exact congrArg (fun t : State => ((t.modStk n fun x => { x with due := { x.due with head := 0 } }).syncCopy n).copyReadProd n)
    (if_pos ⟨by rw [hj]; rfl, by rw [hc]; rfl⟩)

theorem State.copyHead_setEn (s : State) (n : Fin 8) : (s.setFlag (fCopy_EN n) true).copyHead n = s.copyHead n := by
  have ha : (fCopy_EN n).apart (fCopy_CR_BASE n) = true := Fld.apart_of_off (by simp [fCopy_EN, fCopy_CR_BASE]) rfl
  rw [State.copyHead, State.fld_setFlag_apart _ _ (fCopy_EN_ok n) ha, State.copyHead]

theorem State.copyRingErr_flags (s : State) (n : Fin 8) : (s.ringError (fCopy_EN n) (copyPage n)).flag (fCopy_EN n) = false ∧
    (s.ringError (fCopy_EN n) (copyPage n)).flag (fErr_RING (copyPage n)) = true ∧
    (s.ringError (fCopy_EN n) (copyPage n)).stks = s.stks := by
  have hR : (fErr_RING (copyPage n)).ok = true := by simp [fErr_RING, Fld.ok, Fld.sh, Fld.w]
  have ha : (fErr_RING (copyPage n)).apart (fCopy_EN n) = true := Fld.apart_of_off (by simp [fErr_RING, fCopy_EN]) rfl
  refine ⟨?_, State.flag_setFlag_same _ _ hR (by simp [fErr_RING, Fld.w]), rfl⟩
  rw [State.ringError, State.flag_setFlag_apart _ _ hR ha, State.flag_setFlag_same _ _ (fCopy_EN_ok n) (by simp [fCopy_EN, Fld.w])]

section Ring
variable {s s1 s2 : State} {n : Fin 8} {b b' d : List Byte}

theorem copyRingEnable_completes (hwf : s.memWf = true) {ag : Agent} (hag : s.agentUp ag = true) (hen : s.flag (fCopy_EN n) = false)
    (h : (s.setFlag (fCopy_EN n) true).vread unitAgt (s.copyHead n + 8) 4 = (.ok b, s1)) (hj : (s1.stk n).copies = [])
    (hc : (s1.stk n).due.cons = false) {t : State}
    (ht : t = (((s1.setFld (fCopy_CR_CONS n) (leNat b)).modStk n fun x => { x with copyProd := leNat b, copyNext := leNat b }).modStk n
      fun x => { x with due := { x.due with head := 0 } }).syncCopy n)
    (h' : t.vread unitAgt (t.copyHead n) 4 = (.ok b', s2))
    (hle : (leNat b' + 2 ^ 32 - s2.fld (fCopy_CR_CONS n)) % 2 ^ 32 ≤ s2.copyLen n) :
    Completes (.copyRingEnable ag n) s fun u =>
      (u.stk n).copyProd = leNat b' ∧ (u.stk n).copyNext = (s2.stk n).copyNext ∧ u.regs = s2.regs := by
  rw [← State.copyHead_setEn] at h
  have hs := State.stk_modStk_same s2 n fun x => { x with copyProd := leNat b', due := { x.due with head := 0 } }
  refine Completes.of ((exec_copyRingEnable_acts hwf n hag hen).trans (congrArg _ ((State.copyEnable_reads h hj hc).trans ?_)))
    ⟨(congrArg StackSt.copyProd hs :), (congrArg StackSt.copyNext hs :), rfl⟩
  rw [← ht]
  exact State.copyReadProd_takes h' hle

theorem exec_copyRingProd (hen : s.flag (fCopy_EN n) = true) (hs : s.flag fSafe_SAFE = false)
    (hg : s.flag (fGated (0x0C4 + 8 * n.val)) = false) (hh : (s.stk n).due.head ≠ 2) :
    exec (.copyRingProd n) s = .next (s.copyReadProd n) := by
  have he : exec (.copyRingProd n) s = execCopyRingProd n s := rfl
  have hw : s.wakeUnit (0x0C4 + 8 * n.val) = s := if_neg (by simp [hg])
  rw [he, execCopyRingProd, if_pos ⟨hen, by simp [hs]⟩, hw, if_neg hh]

/-- The next descriptor of the ring. -/
def State.copyJob (s : State) (n : Nat) : CopyJob :=
  { va := BitVec.ofNat 64 (s.copyHead n + 64 + 64 * ((s.stk n).copyNext % s.copyLen n)), idx := (s.stk n).copyNext, off := 0, code := 0,
    xcode := 0, ended := false }

/-- The ring after its next descriptor was taken into an engine without one. -/
def State.copyTaken (s : State) (n : Nat) : State :=
  s.modStk n fun y => { y with copies := [s.copyJob n], copyNext := (y.copyNext + 1) % 2 ^ 32 }

theorem exec_copyDescriptor_takes (hen : s.flag (fCopy_EN n) = true) (hs : s.flag fSafe_SAFE = false) (hsnap : s.snapHere n = false)
    (hc : (s.stk n).copies = []) (hne : (s.stk n).copyNext ≠ s.ringEnd (s.stk n).copyProd (s.stk n).due) :
    exec (.copyDescriptor n) s = .next (((s.copyTaken n).copyRun n (s.copyJob n)).syncCopy n) := by
  have he : exec (.copyDescriptor n) s = execCopyDescriptor n s := rfl
  have ht : (s.modStk n fun y => { y with copies := y.copies ++ [s.copyJob n], copyNext := (y.copyNext + 1) % 2 ^ 32 }) = s.copyTaken n := by
    unfold State.copyTaken State.modStk
    dsimp only
    rw [hc]
    rfl
  rw [he, execCopyDescriptor, if_neg (by simp [hs, hsnap]), hc]
  refine congrArg Host.Outcome.next ((if_neg ?_).trans ?_)
  · simp [hc, hne, hen]
  · exact congrArg (fun t : State => (t.copyRun n (s.copyJob n)).syncCopy n) ht

/-- A descriptor that its checks refuse ends before its first line. -/
theorem State.copyRun_refused {c : CopyJob} (ho : c.off = 0) (h : s.vread unitAgt c.va.toNat 64 = (.ok d, s1)) (hr : s1.copyRefusal d ≠ 0) :
    s.copyRun n c = s1.modCopyJob n c.idx fun j => { j with code := s1.copyRefusal d, ended := true } := by
  rw [State.copyRun, State.ringRead_ok h]
  obtain ⟨g, hg⟩ : ∃ g, State.copyRefusal = g := ⟨_, rfl⟩
  rw [hg] at hr ⊢
  refine (if_pos (by rwa [if_pos ho])).trans ?_
  rw [if_pos ho]

/-- A descriptor of one line copies it. -/
theorem State.copyRun_line {c : CopyJob} (ho : c.off = 0) (h : s.vread unitAgt c.va.toNat 64 = (.ok d, s1)) (hr : s1.copyRefusal d = 0)
    (hl : fieldLE d 16 8 = 64) (hd : s1.copyAt n (fieldLE d 0 8) (fieldLE d 8 8) = (.done, s2)) :
    s.copyRun n c = s2.modCopyJob n c.idx fun j => { j with off := 64, ended := true } := by
  rw [State.copyRun, State.ringRead_ok h]
  obtain ⟨g, hg⟩ : ∃ g, State.copyRefusal = g := ⟨_, rfl⟩
  rw [hg] at hr ⊢
  refine (if_neg (by rw [if_pos ho, hr]; decide)).trans ?_
  rw [hl, ho]
  dsimp only
  rw [show (64 - 0) / 64 = 0 + 1 from rfl, State.copyLines, Nat.add_zero, Nat.add_zero]
  rewrite [hd]
  rfl

/-- The only descriptor in progress, changed. -/
theorem State.modCopyJob_one {c : CopyJob} (hc : (s.stk n).copies = [c]) (f : CopyJob → CopyJob) :
    ((s.modCopyJob n c.idx f).stk n).copies = [f c] := by
  rw [State.modCopyJob, State.stk_modStk_same, hc]
  simp

/-- An ended descriptor whose status is written leaves the ring. -/
theorem exec_copyDescriptorDone_written {c : CopyJob} (hc : (s.stk n).copies = [c]) (he : c.ended = true)
    (h : s.vread unitAgt c.va.toNat 64 = (.ok d, s1)) (hb : bitAt (fieldLE d 0x1A 1) 0 = false)
    (hw : s1.vwrite unitAgt (c.va.toNat + 0x1C) (natLE 4 c.status ++ if c.code = 0 then [] else natLE 8 c.off) = (.ok b, s2)) :
    exec (.copyDescriptorDone n) s =
      .next (((s2.modStk n fun x => { x with copies := x.copies.filter fun j => j.idx != c.idx }).syncCopy n).copyCons n) := by
  have hx : exec (.copyDescriptorDone n) s = execCopyDescriptorDone n s := rfl
  have hf : ((s.stk n).copies.find? fun c => c.ended) = some c := by simp [hc, he]
  have hr := State.ringRead_ok h
  obtain ⟨f, hrf⟩ : ∃ f, State.ringRead = f := ⟨_, rfl⟩
  obtain ⟨g, hg⟩ : ∃ g, State.vwrite = g := ⟨_, rfl⟩
  rw [hx, execCopyDescriptorDone, hf]
  rw [hg] at hw ⊢
  rw [hrf] at hr ⊢
  dsimp only
  rw [hr]
  dsimp only
  rw [hw]
  dsimp only
  rw [if_neg (by simp [hb])]

end Ring
/-! ### A line copied at its home (R203, R204) -/

/-- What the home's actions on a line keep: memory, the stacks' records, the state of the pseudo-channels. -/
structure State.LineKept (s u : State) : Prop where
  dram : u.dram = s.dram
  stks : u.stks = s.stks
  pc : ∀ n p, u.pcState n p = s.pcState n p

theorem State.LineKept.refl (s : State) : s.LineKept s := ⟨rfl, rfl, fun _ _ => rfl⟩

theorem State.LineKept.trans {s u v : State} (h : s.LineKept u) (h' : u.LineKept v) : s.LineKept v :=
  ⟨h'.dram.trans h.dram, h'.stks.trans h.stks, fun n p => (h'.pc n p).trans (h.pc n p)⟩

/-- A step that changes no field of a pseudo-channel's state. -/
theorem State.LineKept.of_fld {s u : State} (hd : u.dram = s.dram) (hs : u.stks = s.stks)
    (h0 : ∀ n, u.fld (fMem_PC_STATE0 n) = s.fld (fMem_PC_STATE0 n)) (h1 : ∀ n, u.fld (fMem_PC_STATE1 n) = s.fld (fMem_PC_STATE1 n)) :
    s.LineKept u :=
  ⟨hd, hs, fun n p => by
    unfold State.pcState
    split
    · rw [h0]
    · rw [h1]⟩

theorem State.LineKept.setFld (s : State) {f : Fld} (x : Nat) (hok : f.ok = true) (h0 : ∀ n, f.apart (fMem_PC_STATE0 n) = true)
    (h1 : ∀ n, f.apart (fMem_PC_STATE1 n) = true) : s.LineKept (s.setFld f x) :=
  .of_fld (State.setFld_dram ..) rfl (fun n => State.fld_setFld_apart _ _ hok (h0 n)) fun n => State.fld_setFld_apart _ _ hok (h1 n)

theorem fPst_BUSY_apart {f : Fld} (h : f.key / 512 ≠ 1) : fPst_BUSY.apart f = true :=
  Fld.apart_of_page (fun e => h (e.symm.trans (by decide)))

theorem State.LineKept.report (s : State) (d : Det) (ev : Option (Nat × EvKind)) : s.LineKept (s.report d ev) := by
  have hfree : ∀ f : Fld, f.key / 512 ≠ 1 → f.key / 512 ≠ 0x00B → f.key % 512 ≠ 3 → f.ReportFree := fun f hb hp he =>
    ⟨hp, he, fPst_BUSY_apart hb⟩
  refine .of_fld (State.report_dram ..) (congrArg State.stks (s.offReport_report d ev) :) (fun n => State.report_fld _ _ _ (hfree _ ?_ ?_ ?_))
    fun n => State.report_fld _ _ _ (hfree _ ?_ ?_ ?_)
  all_goals
    simp only [fMem_PC_STATE0, fMem_PC_STATE1, Fld.key]
    omega

theorem State.LineKept.newerWritten (s : State) (line : Nat) : s.LineKept (s.newerWritten line) := by
  unfold State.newerWritten
  split
  · exact ⟨rfl, rfl, fun _ _ => rfl⟩
  · exact .refl s

theorem State.LineKept.biSend (s : State) (line : Nat) : s.LineKept (s.biSend line) := by
  unfold State.biSend
  split
  · exact .refl s
  · refine State.LineKept.trans (u := { s with mem := { s.mem with bi := s.mem.bi ++ [line] } }) ⟨rfl, rfl, fun _ _ => rfl⟩
      (.setFld _ _ rfl (fun n => ?_) fun n => ?_)
    all_goals
      refine Fld.apart_of_page ?_
      simp only [fCxl_BI_SENT, fMem_PC_STATE0, fMem_PC_STATE1, Fld.key]
      omega

theorem State.LineKept.biDone (s : State) (line : Nat) (write : Bool) : s.LineKept (s.biDone line write) := ⟨rfl, rfl, fun _ _ => rfl⟩

theorem State.LineKept.setDir (s : State) (line : Nat) (d : Dir) : s.LineKept (s.setDir line d) := ⟨rfl, rfl, fun _ _ => rfl⟩

theorem State.LineKept.dirChecked (s : State) (line : Nat) : s.LineKept (s.dirChecked line) := by
  obtain ⟨z, hz⟩ : ∃ z : State, { s with mem := { s.mem with dirErr := tabSet cntZero s.mem.dirErr line 0 } } = z := ⟨_, rfl⟩
  have hs : s.LineKept z := hz ▸ ⟨rfl, rfl, fun _ _ => rfl⟩
  unfold State.dirChecked
  dsimp only
  rw [hz]
  split
  · exact .refl s
  · refine hs.trans (.setFld _ _ (by simp [fMsc_DIR_CE, Fld.ok, Fld.sh, Fld.w]) (fun n => ?_) fun n => ?_)
    all_goals
      refine Fld.apart_of_page ?_
      simp only [fMsc_DIR_CE, fMem_PC_STATE0, fMem_PC_STATE1, Fld.key]
      omega
  · exact (((((hs.trans (.newerWritten ..)).trans (.biSend ..)).trans (.biDone ..)).trans (.setDir ..)).trans (.report ..))

theorem State.LineKept.homeActions (s : State) (line : Nat) (write : Bool) (h : Holder) : s.LineKept (s.homeActions line write h) := by
  unfold State.homeActions
  dsimp only
  have h0 := (State.LineKept.dirChecked s line).trans (.newerWritten _ line)
  split
  · exact ((h0.trans (.biSend ..)).trans (.biDone ..)).trans (.setDir ..)
  · exact h0.trans (.setDir ..)

/-- The marks of the lines that tell whether one reads well. -/
structure State.MarksKept (s u : State) : Prop where
  poison : u.mem.poison = s.mem.poison
  inner : u.mem.inner = s.mem.inner
  symErr : u.mem.symErr = s.mem.symErr
  dirErr : u.mem.dirErr = s.mem.dirErr
  msc : u.mem.msc = s.mem.msc

theorem State.MarksKept.lineClean {s u : State} (h : s.MarksKept u) (hk : s.LineKept u) {line : Nat} (hc : s.lineClean line = true) :
    u.lineClean line = true := by
  obtain ⟨hd, hi, he⟩ := s.lineClean_iff line |>.1 hc
  obtain ⟨hp, hpo, hin, ht, hs⟩ := s.decode_clean_iff line |>.1 hd
  have hinner : u.inner line = s.inner line := by rw [State.inner, h.inner, State.inner]
  have hsym : u.symErr line = s.symErr line := by rw [State.symErr, h.symErr, State.symErr]
  have hpoison : u.poisoned line = s.poisoned line := by rw [State.poisoned, h.poison, State.poisoned]
  have hmany : u.tooMany line = s.tooMany line := by rw [State.tooMany, hsym, State.badLanes_congr hk.stks, State.tooMany]
  rw [State.lineClean_iff, State.decode_clean_iff, hk.pc, hpoison, hinner, hsym, hmany, h.dirErr]
  exact ⟨⟨hp, hpo, hin, ht, hs⟩, hi, he⟩

/-- Asking the host for its line changes the directory and what is asked alone. -/
theorem State.MarksKept.biAsked (s : State) (line : Nat) (write : Bool) : s.MarksKept ((s.biSend line).biDone line write) := by
  unfold State.biSend
  split
  · exact ⟨rfl, rfl, rfl, rfl, rfl⟩
  · exact ⟨rfl, rfl, rfl, rfl, rfl⟩

/-- The home's actions on a clean line leave it clean, a line held elsewhere too. -/
theorem State.homeActions_clean {s : State} {line : Nat} {write : Bool} {h : Holder} (hc : s.lineClean line = true) :
    (s.homeActions line write h).lineClean line = true ∧ (s.homeActions line write h).mem.msc = s.mem.msc := by
  obtain ⟨-, -, he⟩ := s.lineClean_iff line |>.1 hc
  have hchk : s.dirChecked line = s := by simp [State.dirChecked, he]
  obtain ⟨-, hclean, -, hm, -⟩ := State.newerWritten_good hc
  have hset : ∀ (t : State) (d : Dir), t.lineClean line = true → (t.setDir line d).lineClean line = true := fun t d ht =>
    State.MarksKept.lineClean (s := t) (u := t.setDir line d) ⟨rfl, rfl, rfl, rfl, rfl⟩ (.setDir t line d) ht
  unfold State.homeActions
  rw [hchk]
  dsimp only
  split
  · have hask := State.MarksKept.biAsked (s.newerWritten line) line write
    exact ⟨hset _ _ (hask.lineClean ((State.LineKept.biSend _ line).trans (.biDone _ line write)) hclean), hask.msc.trans hm⟩
  · exact ⟨hset _ _ hclean, hm⟩

section Copy
variable {s : State} {n : Nat} {k k' : Nat} (hcomb : (s.stk n).comb = []) (hk : keyStack k = n) (ha : k % 64 = 0)
include hcomb hk ha

theorem State.prepLines_line (write : Bool) (h : Holder) : s.prepLines k 64 write h = s.homeActions (k / 64) write h := by
  have hflush : s.combFlush (k / 64) = s := by
    rw [State.combFlush, keyStack_line, hk, hcomb]
    exact if_neg Bool.false_ne_true
  rw [State.prepLines, linesOf_one (by decide) (by omega), List.foldl_cons, List.foldl_nil, hflush]

/-- A good line is read as it stands in memory. -/
theorem State.takeLine_prepared (hg : s.lineGood (k / 64) = true) (h : Holder) :
    (s.prepLines k 64 false h).takeLine (k / 64) = (true, s.prepLines k 64 false h) := by
  obtain ⟨hc, -, hm⟩ := s.lineGood_iff _ |>.1 hg
  rw [State.prepLines_line hcomb hk ha]
  obtain ⟨hclean, hmsc⟩ := State.homeActions_clean (write := false) (h := h) hc
  obtain ⟨hd, hi, -⟩ := State.lineClean_iff _ _ |>.1 hclean
  rw [State.takeLine, hmsc, hm, if_neg Bool.false_ne_true, State.readLine_clean hd hi]

end Copy

theorem State.wordWritten_keeps (s : State) (line : Nat) : (s.wordWritten line).dram = s.dram ∧ (s.wordWritten line).stks = s.stks := by
  obtain ⟨z, hz, hd, hs⟩ : ∃ z : State, ((s.setSymErr line []).setInner line 0).setInjected line false = z ∧ z.dram = s.dram ∧ z.stks = s.stks :=
    ⟨_, rfl, rfl, rfl⟩
  rw [State.wordWritten, hz]
  unfold State.injectOn
  dsimp only
  split
  · exact ⟨hd, hs⟩
  · exact ⟨hd, hs⟩

theorem State.injectMsc_keeps (s : State) (line : Nat) : (s.injectMsc line).dram = s.dram ∧ (s.injectMsc line).stks = s.stks := by
  unfold State.injectMsc
  dsimp only
  split
  · exact ⟨rfl, rfl⟩
  · exact ⟨rfl, rfl⟩

/-- A whole line written to a pseudo-channel in service. -/
theorem State.writeFull_line {s : State} {k : Nat} (ha : k % 64 = 0) (hpc : s.pcState (keyStack k) (offPc (keyOff k)) ≠ 3) (bs : List Byte) :
    (s.writeFull (k / 64) bs).dram = (s.putDram k bs).dram ∧ (s.writeFull (k / 64) bs).stks = s.stks := by
  have hl : k / 64 * 64 = k := by omega
  obtain ⟨z, hz, hd, hs⟩ : ∃ z : State, { s with mem := { s.mem with xfer := s.mem.xfer.erase (k / 64), msc := s.mem.msc.erase (k / 64) } } = z ∧
    z.dram = s.dram ∧ z.stks = s.stks := ⟨_, rfl, rfl, rfl⟩
  have hw := ((z.putDram k bs).setPoison (k / 64) false).wordWritten_keeps (k / 64)
  have hm := (((z.putDram k bs).setPoison (k / 64) false).wordWritten (k / 64)).injectMsc_keeps (k / 64)
  have he : s.writeFull (k / 64) bs = (((z.putDram k bs).setPoison (k / 64) false).wordWritten (k / 64)).injectMsc (k / 64) := by
    rw [State.writeFull, hl, if_neg hpc, hz]
  have hput : (z.putDram k bs).stks = s.stks := by
    rw [State.putDram_fields]
    exact hs
  rw [he]
  exact ⟨hm.1.trans (hw.1.trans (State.putDram_dram_congr bs k hd)), hm.2.trans (hw.2.trans hput)⟩

theorem State.notify_keeps (s : State) (lid : Nat) : (s.notify lid).dram = s.dram ∧ (s.notify lid).stks = s.stks := by
  unfold State.notify
  generalize (s.thr.ctxs.filter fun e => e.2.lines.any fun l => l.1 == lid) = l
  induction l generalizing s with
  | nil => exact ⟨rfl, rfl⟩
  | cons e l ih => exact ih _

/-- A line copied: its bytes as they stood, and no other byte of memory. -/
theorem State.copyLine_copies {s : State} {n k k' : Nat} (hcomb : (s.stk n).comb = []) (hk : keyStack k = n) (hk' : keyStack k' = n)
    (ha : k % 64 = 0) (ha' : k' % 64 = 0) (hg : s.lineGood (k / 64) = true) (hpc : s.pcState n (offPc (keyOff k')) ≠ 3) :
    (s.copyLine k k').dram = (s.putDram k' (s.dramBytes k 64)).dram ∧ (s.copyLine k k').stks = s.stks := by
  have htake := State.takeLine_prepared hcomb hk ha hg .inStack
  obtain ⟨z, hz⟩ : ∃ z, s.prepLines k 64 false .inStack = z := ⟨_, rfl⟩
  have hsz : s.LineKept z := hz ▸ State.prepLines_line hcomb hk ha false .inStack ▸ State.LineKept.homeActions ..
  have hcz : (z.stk n).comb = [] := by
    rw [State.stk, hsz.stks]
    exact hcomb
  obtain ⟨y, hy⟩ : ∃ y, z.prepLines k' 64 true .inStack = y := ⟨_, rfl⟩
  have hzy : z.LineKept y := hy ▸ State.prepLines_line hcz hk' ha' true .inStack ▸ State.LineKept.homeActions ..
  have hsy := hsz.trans hzy
  obtain ⟨hd, hs⟩ := State.writeFull_line (s := y) ha' (by rw [hk', hsy.pc]; exact hpc) (s.dramBytes k 64)
  have he : s.copyLine k k' = ((y.writeFull (k' / 64) (s.dramBytes k 64)).dirtyGran (k' / 4096)).notify (k' / 64) := by
    rw [State.copyLine, htake, hz]
    dsimp only
    rw [State.dramBytes_congr hsz.dram, hy, if_pos rfl]
  obtain ⟨nd, ns⟩ := ((y.writeFull (k' / 64) (s.dramBytes k 64)).dirtyGran (k' / 4096)).notify_keeps (k' / 64)
  rw [he]
  exact ⟨nd.trans (hd.trans (State.putDram_dram_congr _ _ hsy.dram)), ns.trans (hs.trans hsy.stks)⟩

section Line
variable {s s1 s2 s3 : State} {n k k' src dst : Nat}

/-- A line whose two sides are in the stack, and do not wait, is copied. -/
theorem State.copyAt_done (h1 : s.copySide src .load = (.key k, s2)) (hk : keyStack k = n) (h2 : s2.copySide dst .store = (.key k', s3))
    (hk' : keyStack k' = n) (ha : s3.accessStalled k 64 false = false) (ha' : s3.accessStalled k' 64 true = false) :
    s.copyAt n src dst = (.done, s3.copyLine k k') := by
  rw [State.copyAt, h1]
  dsimp only
  rw [if_neg (by simp [hk]), h2]
  dsimp only
  rw [if_neg (by simp [hk']), if_neg (by simp [ha, ha'])]

end Line
section Descriptor
variable {s s1 s2 s3 : State} {st : Fin 8} {b d : List Byte} (hen : s.flag (fCopy_EN st) = true) (hs : s.flag fSafe_SAFE = false)
  (hsnap : s.snapHere st = false) (hc : (s.stk st).copies = [])
  (hne : (s.stk st).copyNext ≠ s.ringEnd (s.stk st).copyProd (s.stk st).due)
  (hr : (s.copyTaken st).vread unitAgt (s.copyJob st).va.toNat 64 = (.ok d, s1))
include hen hs hsnap hc hne hr

theorem copyDescriptor_refused (h1 : (s1.stk st).copies = [s.copyJob st]) (hbad : s1.copyRefusal d ≠ 0) :
    Completes (.copyDescriptor st) s fun u =>
      (u.stk st).copies = [{ s.copyJob st with code := s1.copyRefusal d, ended := true }] ∧ u.fld (fCopy_ACTIVE st) = 1 ∧ u.dram = s1.dram := by
  have hrun := State.copyRun_refused (s := s.copyTaken st) (n := st) (c := s.copyJob st) rfl hr hbad
  have hone := State.modCopyJob_one h1 fun j => { j with code := s1.copyRefusal d, ended := true }
  refine Completes.of ((exec_copyDescriptor_takes hen hs hsnap hc hne).trans (congrArg _ (congrArg (fun t : State => t.syncCopy st) hrun)))
    ⟨hone, State.syncCopy_active _ st (congrArg List.length hone) (by decide), ?_⟩
  exact State.setFld_dram ..

theorem copyDescriptor_line {k k' : Nat} (hok : s1.copyRefusal d = 0) (hlen : fieldLE d 16 8 = 64)
    (h1 : s1.copySide (fieldLE d 0 8) .load = (.key k, s2)) (hk : keyStack k = st.val)
    (h2 : s2.copySide (fieldLE d 8 8) .store = (.key k', s3)) (hk' : keyStack k' = st.val) (hka : k % 64 = 0) (hka' : k' % 64 = 0)
    (h3 : (s3.stk st).copies = [s.copyJob st]) (ha : s3.accessStalled k 64 false = false) (ha' : s3.accessStalled k' 64 true = false)
    (hcomb : (s3.stk st).comb = []) (hg : s3.lineGood (k / 64) = true) (hpc : s3.pcState st (offPc (keyOff k')) ≠ 3) :
    Completes (.copyDescriptor st) s fun u =>
      u.dramBytes k' 64 = s3.dramBytes k 64 ∧ (∀ j, j < k' ∨ k' + 64 ≤ j → u.dramByte j = s3.dramByte j) ∧
      (u.stk st).copies = [{ s.copyJob st with off := 64, ended := true }] ∧ u.fld (fCopy_ACTIVE st) = 1 := by
  obtain ⟨hd, hstk⟩ := State.copyLine_copies hcomb hk hk' hka hka' hg hpc
  obtain ⟨v, hv⟩ : ∃ v, s3.copyLine k k' = v := ⟨_, rfl⟩
  rw [hv] at hd hstk
  have hcopies : (v.stk st).copies = [s.copyJob st] := by
    rw [State.stk, hstk]
    exact h3
  have hrun := State.copyRun_line (s := s.copyTaken st) (n := st) (c := s.copyJob st) (s2 := v) rfl hr hok hlen
    (hv ▸ State.copyAt_done h1 hk h2 hk' ha ha')
  have hone := State.modCopyJob_one hcopies fun j => { j with off := 64, ended := true }
  have hx := (exec_copyDescriptor_takes hen hs hsnap hc hne).trans (congrArg _ (congrArg (fun t : State => t.syncCopy st) hrun))
  have hud : ((v.modCopyJob st (s.copyJob st).idx fun j => { j with off := 64, ended := true }).syncCopy st).dram =
      (s3.putDram k' (s3.dramBytes k 64)).dram := (State.setFld_dram ..).trans hd
  have hb64 : (s3.dramBytes k 64).length = 64 := by simp [State.dramBytes]
  refine Completes.of hx ⟨?_, fun j hj => ?_, hone, State.syncCopy_active _ st (congrArg List.length hone) (by decide)⟩
  · rw [State.dramBytes_congr hud]
    have h := s3.dramBytes_putDram_same k' (s3.dramBytes k 64)
    rwa [hb64] at h
  · rw [State.dramByte_congr hud]
    exact State.dramByte_putDram_out _ s3 k' j (by rwa [hb64])

end Descriptor

/-- What the end of the only descriptor leaves. -/
theorem State.copyGone_leaves (s : State) (st : Fin 8) {c : CopyJob} (hc : (s.stk st).copies = [c]) (t : State)
    (ht : t = (s.modStk st fun x => { x with copies := x.copies.filter fun j => j.idx != c.idx }).syncCopy st) :
    (t.stk st).copies = [] ∧ t.fld (fCopy_ACTIVE st) = 0 ∧ t.dram = s.dram := by
  have hnone : (((s.modStk st fun x => { x with copies := x.copies.filter fun j => j.idx != c.idx }).stk st).copies) = [] := by
    rw [State.stk_modStk_same, hc]
    simp
  subst ht
  exact ⟨hnone, State.syncCopy_active _ st (congrArg List.length hnone) (by decide), State.setFld_dram ..⟩

/-- Settles O28: an entry is registered by its check, a route is stored as its entry keeps it, and the ring moves one line. -/
theorem viewsRoutesAndCopyRingAct : Obligations.ViewsRoutesAndCopyRingAct := by
  refine ⟨fun s ag i hag => ⟨fun hen hv => ⟨fun hb => ?format, fun hb ha => ?align, fun c s1 hc hlt => ?refused, fun m s1 hc hlt => ?valid⟩,
      fun hen hv hu _ => viewDeregister_completes hag hen hv hu, fun pkg v hp => routeTableWrite_completes hag v hp⟩,
    fun s s1 s2 s3 st b b' d hwf => ⟨fun ag hag hen h hj hc h' _ hle => ?enable, fun hen hs hg hh hr => ⟨fun hle => ?prod, fun hlt => ?error⟩,
      fun hen hs hsnap hc hne hr => ⟨fun h1 hbad => ?bad, fun k k' hok hlen h1 hk h2 hk' hka hka' h3 ha ha' hcomb _ hg hpc _ => ?line⟩,
      fun c hc he hr hb hw h2 => ?done⟩⟩
  case format =>
    have hchk := State.viewCheck_format hb
    obtain ⟨h1, h2⟩ := State.viewRegister_refused hchk (by decide)
    exact Completes.of (exec_viewRegister hag hen hv rfl) ⟨h1, h2.trans (State.putBarNat_regs ..)⟩
  case align =>
    have hchk := State.viewCheck_align hb ha
    obtain ⟨h1, h2⟩ := State.viewRegister_refused hchk (by decide)
    exact Completes.of (exec_viewRegister hag hen hv rfl) ⟨h1, h2.trans (State.putBarNat_regs ..)⟩
  case refused => exact Completes.of (exec_viewRegister hag hen hv rfl) (State.viewRegister_refused hc hlt)
  case valid => exact Completes.of (exec_viewRegister hag hen hv rfl) (State.viewRegister_valid hc hlt)
  case enable => exact copyRingEnable_completes hwf hag hen h hj hc rfl h' hle
  case prod =>
    have hk := State.stk_modStk_same s1 st fun x => { x with copyProd := leNat b, due := { x.due with head := 0 } }
    exact Completes.of ((exec_copyRingProd hen hs hg hh).trans (congrArg _ (State.copyReadProd_takes hr hle)))
      ⟨(congrArg StackSt.copyProd hk :), rfl⟩
  case error =>
    exact Completes.of ((exec_copyRingProd hen hs hg hh).trans (congrArg _ (State.copyReadProd_errs hr hlt))) (s1.copyRingErr_flags st)
  case bad => exact copyDescriptor_refused hen hs hsnap hc hne hr h1 hbad
  case line => exact copyDescriptor_line hen hs hsnap hc hne hr hok hlen h1 hk h2 hk' hka hka' h3 ha ha' hcomb hg hpc
  case done => exact ⟨_, exec_copyDescriptorDone_written hc he hr hb hw, s2.copyGone_leaves st h2 _ rfl⟩

end Sys2Proof.Machine
end
